-- ==== Sys2Proof/Word.lean ====
section
/-! DEFINITION. The word types of the device and the shape of its sparse memories (R4 to R7, R52). -/
namespace Sys2Proof

/-- One byte of a buffer, a packet or a slot. -/
abbrev Byte := BitVec 8

/-- One register: every register is 32 bits wide (R52). -/
abbrev Word := BitVec 32

/-- One word of a wide pair, of a doorbell, or of an 8-byte access (R60). -/
abbrev DWord := BitVec 64

/-- A sparse memory: index and content, indices strictly rising, no content equal to what an unlisted index holds. -/
abbrev Table (α : Type) := List (Nat × α)

end Sys2Proof
end

