-- ==== Sys2Proof/Syntax.lean ====
section
/-! DEFINITION. The commands of the device and their operands. An operand that names one of a fixed number of like
things is a `Fin`; one that carries data from outside is plain data, checked by `Instr.wf` in WellFormed.lean. -/
namespace Sys2Proof

/-- Host link and mailbox index m (Table 3.4). -/
abbrev Link := Fin 16
/-- Mailbox tag (R64). -/
abbrev Tag := Fin 16
/-- Application core (R26). -/
abbrev CoreIx := Fin 32
/-- Power domain (Table 1.5). -/
abbrev Dom := Fin 80
/-- Quadrant (R14). -/
abbrev Quad := Fin 4
/-- Headrace. -/
abbrev Headrace := Fin 16
/-- Tailrace. -/
abbrev Tailrace := Fin 16
/-- Pipeline: 0 to 15 the headraces, 16 to 31 the tailraces. -/
abbrev Pipe := Fin 32
/-- Lane group. -/
abbrev LaneGroup := Fin 24
/-- Ethernet port, numbered by its first lane (R107). -/
abbrev Port := Fin 96
/-- Reservoir stack. -/
abbrev Stack := Fin 4
/-- Plot p (R301). -/
abbrev PlotIx := Fin 512
/-- Drive (R351). -/
abbrev DriveIx := Fin 32
/-- Conduit connection. -/
abbrev Conn := Fin 64
/-- Bulk-mover channel. -/
abbrev Channel := Fin 32
/-- Fault source (Table 18.1). -/
abbrev Source := Fin 352

/-- Who makes a register access (R25, R52, R55): the Lockkeeper, the Silo engine, an application core, a function of a
host link, or the debug port. -/
inductive Master where
  | lk
  | silo
  | core (n : CoreIx)
  | host (m : Link) (fn : Nat)
  | debug
  deriving DecidableEq, Repr

/-- Where a register access goes: an internal address (Table 21.1), an offset in PF0 BAR0 of a link, an offset in the
VF BAR0 of a plot, or a physical address of a core (Table 1.3). -/
inductive Addr where
  | internal (a : Nat)
  | pf0 (m : Link) (off : Nat)
  | vf (p : PlotIx) (off : Nat)
  | core (n : CoreIx) (pa : Nat)
  deriving DecidableEq, Repr

/-- The three alias images of a register (R57). -/
inductive Alias where
  | set | clear | toggle
  deriving DecidableEq, Repr

/-- The lock bits (Table 3.3). -/
inductive Lock where
  | vlock | clock | lclock | hlock
  deriving DecidableEq, Repr

/-- Who gives a Lockkeeper command: tag `t` of host mailbox `m`, or a core mailbox (R64, R79). -/
inductive Req where
  | host (m : Link) (t : Tag)
  | core (n : CoreIx)
  deriving DecidableEq, Repr

/-- How a device-initiated read of host memory ends (R72, R261, R262): the bytes, or the failure. -/
inductive Fetch where
  | ok (data : List Byte)
  | ur
  | timeout
  | poisoned
  | window
  deriving DecidableEq, Repr

/-- A Priming step (Table 4.3, R468). -/
inductive Step where
  | domains | calibration | hbmTraining | marchTest | load | restore
  deriving DecidableEq, Repr

/-- What causes a cold reset (Table 4.9). -/
inductive ColdCause where
  | auxPower | sysReset
  deriving DecidableEq, Repr

/-- What causes a warm reset (Table 4.9). -/
inductive WarmCause where
  | command | fatal
  deriving DecidableEq, Repr


/-- What the check bits of a memory entry show when it is read (R141, R165, R203): good, a corrected single-bit error,
or an error that is not corrected. -/
inductive Ecc where
  | good | corrected | bad
  deriving DecidableEq, Repr


/-- A set of shapers that one refill serves (R238, R243): those of a tailrace, or the transmit credits of the plots of
a link. -/
inductive ShaperSet where
  | tail (t : Tailrace)
  | plots (m : Link)
  deriving DecidableEq, Repr

/-- A pair of Channel rings: queue pair q of plot p, or core ring r (R275, R300). -/
inductive RingId where
  | plot (p : PlotIx) (q : Fin 64)
  | core (r : Fin 256)
  deriving DecidableEq, Repr

/-- How a device read of host memory that may end part-way ends (R262, R296). -/
inductive DmaEnd where
  | ok | ur | timeout | poisoned
  deriving DecidableEq, Repr

/-- A management bus whose data line can stick (Table 20.6). -/
inductive MgmtBus where
  | smb | pmb0 | pmb1
  deriving DecidableEq, Repr

/-- A field of a function's configuration space that a configuration write sets and no row of its own covers. -/
inductive CfgField where
  | mse (b : Bool) | msixEn (b : Bool) | msixMask (b : Bool)
  | numVFs (n : Nat) | vfEnable (b : Bool)
  /-- Power state D3hot. -/
  | d3hot
  | ptmEn (b : Bool) | aspmL1 (b : Bool) | l0pEn (b : Bool) | ats (b : Bool)
  /-- Codes of Max_Payload_Size and Max_Read_Request_Size in Device Control (R260). -/
  | mps (n : Fin 8) | mrrs (n : Fin 8)
  /-- Ones written to AER status bits, numbered as in a fault message: correctable, then 16 + uncorrectable (R265). -/
  | aerStatus (bits : Nat)
  deriving DecidableEq, Repr

/-- What a configuration read asks for, by name: the fields that chapter 11 gives a value. `cap` asks which capability begins at
an offset (Table 11.4). -/
inductive CfgFact where
  | ids | classCode | subsystem
  | barSize (bar : Nat)
  | cap (off : Nat)
  | totalVFs | initialVFs | numVFs | vfEnable | firstVF | vfStride | pageSizes | vfDevice
  | msixSize | mse | bme | d3hot | mps | mrrs | ctoField | aer | serial
  deriving DecidableEq, Repr

/-- Link errors that a port detects (Table 11.6). -/
inductive LinkErr where
  | receiver | badTlp | badDllp | replayRollover | replayTimeout
  | dllProtocol | flowControl | malformed
  deriving DecidableEq, Repr

/-- A request that a host makes of a link (Table 11.5): to a BAR of a function, to an address in no BAR, or otherwise. -/
inductive HostReq where
  | read (fn bar off len : Nat)
  | write (fn bar off : Nat) (data : List Byte) (poisoned : Bool)
  | noBar (fn : Nat)
  | io | atomic | deferrable
  /-- A vendor-defined message: type 1 or type 0, and whether it is MCTP to PF0. -/
  | vdm (type1 mctp : Bool)
  | cfgRead (fn : Nat) (x : CfgFact)
  | cfgWrite (fn : Nat) (x : CfgField)
  /-- What arrives is broken. -/
  | broken (e : LinkErr)
  deriving DecidableEq, Repr

/-- How a link is lost (R268): hot reset, DL_Down in order, surprise down. -/
inductive LinkLoss where
  | hotReset | dlDown | surprise
  deriving DecidableEq, Repr


/-- How a queue operation is asked for (R306): by the tenant of a plot, or by a PLOT_QP_CMD. -/
inductive QpPath where
  | tenant (p : PlotIx)
  | manager (q : Req)
  deriving DecidableEq, Repr

/-- What makes a MEMBER drive FAILED (R352). -/
inductive DriveEnd where
  | linkDown | timeout | writeError | readError
  deriving DecidableEq, Repr

/-- Time sources (Tables 14.5 and 14.13). -/
inductive TimeSrc where
  | ptp | pps0 | pps1 | synce | ref10m
  deriving DecidableEq, Repr

/-- A PTP message that reaches the time unit (R330): an Announce, with whether the best master clock algorithm makes the
port SLAVE, its class, stepsRemoved, grandmaster and UTC fields as TIME_UTC holds them; the end of a Sync and Delay_Resp
pair with the D in ns that it shows; a Delay_Req; a message that is malformed or not for the clock. -/
inductive PtpMsg where
  | announce (slave : Bool) (cls steps gm utc : Nat)
  | pair (d : Int)
  | delayReq
  | bad
  deriving DecidableEq, Repr

inductive PtpTx where
  | sync | announce | delayReq
  deriving DecidableEq, Repr

/-- The user whose data a block of a stack holds (Table 16.3), with the object that the block belongs to. -/
inductive RsvUser where
  | unused
  | hash (t : Fin 8) (slot : Nat)
  | extentMap (i : Nat)
  | cache (v : Fin 4096) (lba : Nat)
  /-- Both copies are bad, or only one. -/
  | cacheMeta (both : Bool)
  | queue (h : Headrace) (t : Tailrace) (c : Fin 8) (id : Nat)
  | conduit (c : Conn)
  | tap | buffer | coreMem
  | link (p : Fin 8)
  deriving DecidableEq, Repr

/-- An owner of Hopper buffers (chapter 16). -/
inductive HopOwner where
  | core (n : CoreIx)
  | silo | mover | lk
  deriving DecidableEq, Repr

/-- An entry that the parity scrub reads (Table 18.7): of a Seed-table or Sieve copy, the meters, a control store, a parse
graph, an edit memory. -/
inductive ScrubMem where
  | seed (q : Quad) (i : Fin 131072)
  | sieve (q : Quad) (a : Fin 98304)
  | meter (q : Quad) (i : Fin 262144)
  | word (p : Pipe) (bank : Fin 2) (gate : Fin 12) (w : Fin 8192)
  | graph (h : Headrace) (a : Fin 16384)
  | edit (t : Tailrace) (a : Fin 32768)
  deriving DecidableEq, Repr

/-- The commands the device takes: one constructor per row of the command table. -/
inductive Instr where
  /-- R11. A write to a register that has no row of its own takes effect at one instant, with unlisted encodings and out-of-range values leaving their fields unchanged. -/
  | registerWrite (who : Master) (a : Addr) (size : Nat) (v : DWord)
  /-- R57. A write to the set alias ORs the value into the register in one read-modify-write, refused whole if it touches non-RW bits. -/
  | aliasSetWrite (who : Master) (a : Addr) (size : Nat) (v : DWord)
  /-- R57. A write to the clear alias clears the bits written as 1 in one read-modify-write. -/
  | aliasClearWrite (who : Master) (a : Addr) (size : Nat) (v : DWord)
  /-- R57. A write to the toggle alias inverts the bits written as 1 in one read-modify-write. -/
  | aliasToggleWrite (who : Master) (a : Addr) (size : Nat) (v : DWord)
  /-- R56. An access to a register in another power domain completes its crossing of the synchroniser and takes effect. -/
  | slowAccessCrossed (who : Master)
  /-- R56. A slow access not crossed after 4 µs is refused and raises a Correctable fault. -/
  | slowAccessTimeout (who : Master)
  /-- R62. A write to WIDE_SEL clears VALID and ERR and starts latching the named wide pair, or sets ERR. -/
  | wideSelWrite (w : Option Link) (addr : Word)
  /-- R62. The named wide pair is copied at one instant into WIDE_LO and WIDE_HI and VALID is set. -/
  | wideLatchDone (w : Option Link)
  /-- R470. A write of PACE_VLIMIT applies VMAX and VMIN together only if both are in range and VMAX is at least VMIN. -/
  | paceVlimitWrite (v : Word)
  /-- R63. Writing 1 to a lock bit freezes its settings and itself until the next cold or warm reset. -/
  | lockBitWrite (l : Lock) (v : Word)
  /-- R26. An application core access is served or refused with a bus error according to the core address map. -/
  | coreBusAccess (n : CoreIx) (pa : Nat) (len : Nat) (wr : Option (List Byte))
  /-- R34. Every 500 ns each powered pace meter reports the mean pace of its domain over the preceding 500 ns. -/
  | paceMeterUpdate (readings : List (Dom × Nat))
  /-- R35. Every 10 s a meter is calibrated against its replica chain, holding its value with CAL set. -/
  | paceMeterCalibration (d : Dom)
  /-- R35. A meter calibration completes within 20 µs and the meter resumes reporting. -/
  | paceCalibrationDone (d : Dom)
  /-- R40. Every 500 ns the governor compares P_m with its target under the policy and raises, lowers or holds its VCORE request. -/
  | governorLoopStep (step : Nat) (ack : Bool)
  /-- R39. The regulator fails to acknowledge an AVSBus command. -/
  | avsCommandUnacknowledged
  /-- R39. While AVS_LOST is 1 the governor resends its last acknowledged request every 1 ms and clears AVS_LOST on acknowledgement. -/
  | avsResend (ack : Bool)
  /-- R45. Every 100 µs device power is read and the surge credit and surge timer are updated. -/
  | powerReading (current : Fin 65536)
  /-- R47. Every 100 µs the hottest of 32 sensors is reported as Tj and the thermal thresholds are applied. -/
  | tjReading (sensors : List Int)
  /-- R49. A domain being switched on reports power good, and the Lockkeeper starts the next switch-on or the post-power-good work. -/
  | domainPowerGood (d : Dom)
  /-- R66. A write to LKP_HMB_DOORBELL copies the command slot and handles it by the rows of Table 3.9. -/
  | mailboxDoorbell (m : Link) (t : Tag)
  /-- R69. A running command writes an IN_PROGRESS header within 10 ms of its doorbell and then at least every 100 ms. -/
  | progressHeader (q : Req) (progress : Nat)
  /-- R65. A write to LKP_HMB_RESBASE_LO or HI takes effect only while no tag is in flight. -/
  | resbaseWrite (m : Link) (lo : Option Word) (hi : Option Word)
  /-- R471. A command of an old generation finishes or rolls back and its ABORTED_RESET status and EFFECT are recorded. -/
  | oldCommandSettled (q : Req) (effect : Bool)
  /-- R79. A write to LKP_CMB_DOORBELL rings the single tag of a core mailbox under the host mailbox rules. -/
  | coreMailboxDoorbell (n : CoreIx)
  /-- R76. Returns part number, pace bin, revision, running image and serial number. -/
  | devIdentify (q : Req)
  /-- R76. Returns the configured counts of host ports, plots, queue pairs, lane groups and drive ports. -/
  | devCaps (q : Req)
  /-- R76. Returns its arguments unchanged. -/
  | devEcho (q : Req)
  /-- R77. Reports the status and EFFECT of the last command accepted on a tag in the current or previous generation. -/
  | devCmdStatus (q : Req)
  /-- R76. Reads up to 56 consecutive internal registers as an internal master. -/
  | devRegRead (q : Req)
  /-- R76. In Survey, writes an internal register under a mask as an internal master. -/
  | devRegWrite (q : Req)
  /-- R76. Returns mode, Tj, pace flags and counts of uncleared faults per severity. -/
  | devHealth (q : Req)
  /-- R91. Returns DEV_MODE, DEV_RESET_CAUSE and DEV_BOOT_CFG. -/
  | modeGet (q : Req)
  /-- R92. Requests a transition to Flowing, Trickle or Survey, subject to Table 4.2, Priming progress and the health check. -/
  | modeSet (q : Req)
  /-- R92. Writes DONE and starts a warm reset within 1 ms. -/
  | warmReset (q : Req)
  /-- R92. In Priming or Survey switches one domain on or off under the dependency and refusal rules. -/
  | domainSet (q : Req)
  /-- R92. Writes the governor policy fields, applied at once in Flowing or Survey or stored otherwise. -/
  | govSet (q : Req)
  /-- R92. Designates up to two Trickle uplinks in LG0 to LG5 and writes DEV_TRICKLE. -/
  | trickleUplinks (q : Req)
  /-- R92. Requests a pipeline reset of one headrace or one tailrace pair. -/
  | pipeReset (q : Req)
  /-- R98. Runs the checks of Table 4.8 and returns the failed bits. -/
  | healthCheck (q : Req)
  /-- R84. Fallow moves to Priming when the Lockkeeper runs, MAIN_PG and POWER_FAIL_N are high and LATCHED is 0. -/
  | primingEntry
  /-- R468. A Priming step such as training, calibration, load or restore completes and the next dependent step starts. -/
  | primingStepDone (k : Step) (ok : Bool)
  /-- R468. A Priming step not done within twice its typical duration counts as failed and raises a Degrading fault. -/
  | primingStepTimeout (k : Step)
  /-- R468. With every Priming step complete the device enters Flowing or Survey as DEV_BOOT_CFG directs, or waits for MODE_SET. -/
  | primingComplete
  /-- R103. A warm reset clears every domain outside the Drain set, reboots the Lockkeeper and returns to Priming. -/
  | deviceWarmReset (c : WarmCause)
  /-- R103. Auxiliary power-on or SYS_RESET_N low for 10 µs clears everything and enters Fallow. -/
  | coldReset (c : ColdCause)
  /-- R105. SYS_RESET_N low with dirty data in S0 first causes a Drain and the cold reset follows DRAIN_DONE. -/
  | sysResetLow
  /-- R455. POWER_FAIL_N low for 1 µs or more is a Drain trigger. -/
  | powerFail (lowNs : Nat)
  /-- R374. A 4 MiB chunk of encrypted dirty blocks completes its vault write and the next is issued. -/
  | vaultChunkWritten (ok : Bool)
  /-- R373. The vault flush completes, PD75, PD74 and PD65 switch off, DRAIN_DONE asserts and the device enters Fallow. -/
  | drainComplete
  /-- R374. A vault flush not complete after 250 ms sets FLUSH_LATE, switches the Drain set off and asserts DRAIN_DONE. -/
  | flushLate
  /-- R455. MAIN_PG sampled high enables the Fallow-to-Priming condition. -/
  | mainPgRise
  /-- R86. PERST# of a host port is released and link training starts once the board timing rules are met. -/
  | perstRelease (m : Link)
  /-- R87. PF0 and its enabled VFs become ready, answer normally and the mailbox sets READY. -/
  | functionReady (m : Link) (f : Nat)
  /-- R113. A frame's last cell is staged and the receive checks decide whether it goes to the headrace. -/
  | frameReceive (p : Port) (data : List Byte) (pcsErr : Bool) (overLimit : Bool)
  /-- R117. The pause time of a class runs out and the class may transmit again. -/
  | pauseExpiry (p : Port) (c : Fin 8)
  /-- R118. While the XOFF condition lasts the port repeats its PFC frame every half pause time. -/
  | pfcRepeat (p : Port)
  /-- R116. Loss of alignment, block lock or a fault sequence reports the port down, flushes its queues and raises a Note fault. -/
  | linkDown (p : Port) (remote : Bool) (hiBer : Bool)
  /-- R116. Alignment held for 1 ms with no fault sequence reports the port up. -/
  | linkUp (p : Port) (copper : Bool)
  /-- R121. A lane losing signal, CDR lock or alignment has its recovered clock squelched within 1 µs. -/
  | laneSignalLoss (lane : Fin 96)
  /-- R122. A module is detected and released from low power only if its advertised power fits MOD_BUDGET. -/
  | moduleInserted (g : LaneGroup) (watts : Nat)
  /-- R123. MM_PRS_N rises and a tripped or isolated segment is cleared for the next insertion. -/
  | moduleRemoved (g : LaneGroup)
  /-- R123. MM_OC_N falling lowers MM_PWR_EN within 2 µs, sets TRIP and raises a Correctable fault. -/
  | moduleOvercurrent (g : LaneGroup)
  /-- R124. A held-low segment data line is recovered with nine clocks and retried, and after three failures the segment is isolated. -/
  | moduleI2cStuck (g : LaneGroup) (failures : Nat)
  /-- R132. The Husker accepts a staged packet, walks the parse graph and hands the carry to G0 or drops it. -/
  | packetParse (h : Headrace) (gen : Option (List Byte)) (bad : List Nat)
  /-- R128. A change of LR_ACTIVE takes effect at the next packet boundary. -/
  | longReachSwitch (h : Headrace)
  /-- R143. HUSK_MEM_CMD WRITE copies the data registers into the addressed graph entry at one instant. -/
  | huskMemWrite (h : Headrace)
  /-- R143. HUSK_MEM_CMD READ copies the addressed graph entry into the data registers. -/
  | huskMemRead (h : Headrace)
  /-- R151. Microword operation that does nothing. -/
  | nop (p : Pipe) (i : Nat) (ecc : Ecc)
  /-- R151. Microword that writes operand B into D. -/
  | mov (p : Pipe) (i : Nat) (ecc : Ecc)
  /-- R151. Microword that writes A plus B into D modulo its width. -/
  | add (p : Pipe) (i : Nat) (ecc : Ecc)
  /-- R151. Microword that writes A minus B into D modulo its width. -/
  | sub (p : Pipe) (i : Nat) (ecc : Ecc)
  /-- R151. Microword that writes A AND B into D. -/
  | and (p : Pipe) (i : Nat) (ecc : Ecc)
  /-- R151. Microword that writes A OR B into D. -/
  | or (p : Pipe) (i : Nat) (ecc : Ecc)
  /-- R151. Microword that writes A XOR B into D. -/
  | xor (p : Pipe) (i : Nat) (ecc : Ecc)
  /-- R151. Microword that shifts A left by B[5:0] into D. -/
  | shl (p : Pipe) (i : Nat) (ecc : Ecc)
  /-- R151. Microword that shifts A right by B[5:0] into D. -/
  | shr (p : Pipe) (i : Nat) (ecc : Ecc)
  /-- R151. Microword that sets a predicate to A equal B. -/
  | ceq (p : Pipe) (i : Nat) (ecc : Ecc)
  /-- R151. Microword that sets a predicate to A not equal B. -/
  | cne (p : Pipe) (i : Nat) (ecc : Ecc)
  /-- R151. Microword that sets a predicate to A below B, unsigned. -/
  | clt (p : Pipe) (i : Nat) (ecc : Ecc)
  /-- R151. Microword that sets a predicate to A at least B, unsigned. -/
  | cge (p : Pipe) (i : Nat) (ecc : Ecc)
  /-- R151. Microword that sets a predicate when A AND B is not zero. -/
  | tstm (p : Pipe) (i : Nat) (ecc : Ecc)
  /-- R151. Microword that branches to TARGET. -/
  | br (p : Pipe) (i : Nat) (ecc : Ecc)
  /-- R151. Microword that writes CRC-32C of A started from B into D. -/
  | hash (p : Pipe) (i : Nat) (ecc : Ecc)
  /-- R151. Microword that reads packet bytes into D and sets a predicate if all lie within W and P. -/
  | wread (p : Pipe) (i : Nat) (ecc : Ecc)
  /-- R152. Microword that issues a split-phase Seed-table, Sieve or Reservoir lookup due at a later gate. -/
  | lookup (p : Pipe) (i : Nat) (ecc : Ecc) (tecc : Ecc)
  /-- R185. Microword that writes a data word of the Reservoir entry its key finds. -/
  | update (p : Pipe) (i : Nat) (ecc : Ecc)
  /-- R246. Microword that refills and colours a packet through a meter and returns the colour split-phase. -/
  | meter (p : Pipe) (i : Nat) (ecc : Ecc)
  /-- R154. Microword that adds one packet and B bytes to a quadrant counter pair. -/
  | count (p : Pipe) (i : Nat) (ecc : Ecc)
  /-- R196. Microword that posts a learn or miss notice unless filtered or the queue is nearly full. -/
  | learn (p : Pipe) (i : Nat) (ecc : Ecc)
  /-- R152. A lookup or meter response arrives and is written into D and the HITS bit before the due gate. -/
  | lookupResponse (p : Pipe) (i : Nat) (j : Nat)
  /-- R159. A token leaving headrace G11 is dropped or enqueued in its VOQ by DEST, with a tap request if set. -/
  | tokenExitHeadrace (h : Headrace)
  /-- R159. A token leaving tailrace G5 is dropped or passed through the edit unit to its egress queue. -/
  | tokenExitTailrace (t : Tailrace)
  /-- R162. A write of BARRIER.REQ starts or extends a barrier over the pipeline's tokens and lookups. -/
  | barrierReq (p : Pipe)
  /-- R162. Every earlier token has reached a safe point and every earlier lookup has answered, so DONE becomes 1. -/
  | barrierDone (p : Pipe)
  /-- R161. A write of ABORT.REQ marks every token of the pipeline for abort at its next safe point. -/
  | abortReq (p : Pipe)
  /-- R162. The Lockkeeper's pipeline watchdog fires on a stuck pipeline and applies a pipeline reset. -/
  | pipelineWatchdog (p : Pipe)
  /-- R143. MC_CMD WRITE stores MC_DATA0 to MC_DATA5 with check bits into the addressed microword. -/
  | mcWrite (p : Pipe)
  /-- R143. MC_CMD READ copies the addressed microword into the data registers. -/
  | mcRead (p : Pipe)
  /-- R143. ED_CMD WRITE stores an edit command or template word. -/
  | edWrite (t : Tailrace)
  /-- R143. ED_CMD READ copies an edit command or template word into the data registers. -/
  | edRead (t : Tailrace)
  /-- R144. A write of MC_CTRL.FLIP requests a bank flip at the next packet boundary when DRAINED is 1. -/
  | flip (p : Pipe)
  /-- R144. At a packet boundary the pipeline's gates, Husker graph and edit memory switch bank in one operation. -/
  | bankFlip (p : Pipe)
  /-- R168. The last token of the old bank leaves the pipeline and DRAINED becomes 1. -/
  | pipelineDrained (p : Pipe)
  /-- R168. Checks a customer image and writes it into the inactive banks of every powered pipeline. -/
  | mcStage (q : Req) (buf : Fetch)
  /-- R169. Writes FLIP in each powered pipeline in the chosen order to activate the staged image. -/
  | mcFlip (q : Req)
  /-- R167. Returns active and staged build IDs, active banks and flip progress. -/
  | mcStatus (q : Req)
  /-- R154. Reads, and optionally clears, a counter pair of one quadrant or the sum of all four. -/
  | countRead (q : Req)
  /-- R154. SEED_CNT_CMD READ copies a counter pair into the data registers at one instant. -/
  | seedCntRead (q : Quad)
  /-- R154. SEED_CNT_CMD READ with CLEAR copies a counter pair and zeroes it at the same instant. -/
  | seedCntReadClear (q : Quad)
  /-- R191. Inserts a Seed-table entry into every copy all-or-none. -/
  | tblSeedInsert (q : Req)
  /-- R192. Removes a key from every copy and reports DONE after a barrier in every pipeline. -/
  | tblSeedDelete (q : Req)
  /-- R206. Returns the data, flags, per-copy presence and version of a key. -/
  | tblSeedRead (q : Req)
  /-- R207. Applies a buffer of Seed-table records one at a time until one fails. -/
  | tblSeedBatch (q : Req) (buf : Fetch)
  /-- R207. Removes the entries of a key kind that match a data value and mask. -/
  | tblSeedFlush (q : Req)
  /-- R181. Writes a Sieve entry at a given or any free address in every copy. -/
  | tblSieveWrite (q : Req)
  /-- R192. Clears a Sieve entry in every copy and reports after a barrier. -/
  | tblSieveClear (q : Req)
  /-- R206. Returns a Sieve entry and its validity in each copy. -/
  | tblSieveRead (q : Req)
  /-- R179. Sets a Sieve profile's banks, width and mode. -/
  | tblSieveProfile (q : Req)
  /-- R207. Defines a Reservoir hash table and places it in the three-way part of RA. -/
  | tblRsvCreate (q : Req)
  /-- R207. Removes a Reservoir hash table so every lookup of it misses. -/
  | tblRsvDestroy (q : Req)
  /-- R184. Inserts a Reservoir entry into bucket h1 or h2, moving at most 16 entries. -/
  | tblRsvInsert (q : Req)
  /-- R206. Removes a Reservoir entry by key. -/
  | tblRsvDelete (q : Req)
  /-- R206. Returns the words of a Reservoir entry by key. -/
  | tblRsvRead (q : Req)
  /-- R207. Applies a buffer of Reservoir records one at a time until one fails. -/
  | tblRsvBatch (q : Req) (buf : Fetch)
  /-- R206. Returns versions, occupancy, retirements and table counters. -/
  | tblStatus (q : Req)
  /-- R206. Sets AGE_PERIOD, LF_HOLD and the core mailbox for miss notices. -/
  | tblAgeCfg (q : Req)
  /-- R198. The Lockkeeper takes a learn notice and inserts, repairs, replaces or discards the entry. -/
  | learnNotice (q : Quad)
  /-- R198. The Lockkeeper counts a miss notice and passes it to the named core mailbox or discards it. -/
  | missNotice (q : Quad)
  /-- R201. The Lockkeeper removes an aged key from the other copies and the master as one update. -/
  | ageNotice (q : Quad)
  /-- R201. The Lockkeeper sets HIT in the home copy if the entry is still valid there. -/
  | remoteHitNotice (q : Quad)
  /-- R204. The Lockkeeper rewrites a failed entry from the master, retiring and relocating it if the read-back fails. -/
  | parityNotice (q : Quad) (readBack : Bool)
  /-- R199. The ageing sweeper visits one entry index at its phase and clears HIT, sets STALE or removes. -/
  | sweeperVisit (q : Quad) (i : Fin 131072) (hit : Bool)
  /-- R197. A key leaves a headrace's learn filter LF_HOLD after it entered. -/
  | learnFilterExpire (h : Headrace)
  /-- R186. Each pass removes non-static Reservoir entries idle for IDLE or more. -/
  | rsvIdleSweep (t : Fin 8) (touched : List Nat)
  /-- R193. A switched-on table block finishes loading from the master and waiting updates are applied. -/
  | tableCopyLoaded (q : Quad)
  /-- R143. SEED_ENT_CMD WRITE stores the data registers into a Seed-table entry. -/
  | seedEntWrite (q : Quad) (tablePath : Bool)
  /-- R143. SEED_ENT_CMD READ copies a Seed-table entry into the data registers. -/
  | seedEntRead (q : Quad)
  /-- R181. SIEV_ENT_CMD WRITE stores the staged entry at ADDR at one instant. -/
  | sievEntWrite (q : Quad) (tablePath : Bool)
  /-- R181. SIEV_ENT_CMD CLEAR clears VALID of the entry at ADDR. -/
  | sievEntClear (q : Quad) (tablePath : Bool)
  /-- R143. SIEV_ENT_CMD READ copies the entry at ADDR into the staging registers. -/
  | sievEntRead (q : Quad)
  /-- R217. The Weir matches headraces to tailraces in three iterations and moves one cell and its records per matched pair. -/
  | weirSlot
  /-- R223. Every 64 ns the Weir updates the average queue depth A of each tailrace and class. -/
  | congestionAverageUpdate
  /-- R214. The spill mover copies packets from a reservoir-class VOQ's on-die tail into HBM pages and frees their segments. -/
  | spillOut (h : Headrace) (t : Tailrace) (c : Fin 8)
  /-- R214. The spill mover brings packets back into the VOQ head once the on-die part is below SPILL_TH/2. -/
  | spillBack (h : Headrace) (t : Tailrace) (c : Fin 8)
  /-- R222. The count of packets in flight under a group's old epoch reaches zero and its member entries are freed. -/
  | groupEpochRelease (g : Fin 4096)
  /-- R230. Sets the RED profile, weight and ECN threshold of a tailrace class. -/
  | qosTcSet (q : Req)
  /-- R230. Sets the limits and probabilities of a RED profile. -/
  | qosRedSet (q : Req)
  /-- R211. In Priming or Survey sets GUAR, HDRM_POOL and alpha of a quadrant. -/
  | qosBufSet (q : Req)
  /-- R230. Sets XOFF, XON and headroom of a port or host port. -/
  | qosPfcSet (q : Req)
  /-- R222. Replaces, stages or commits a replication group's member list and toggles its epoch. -/
  | groupSet (q : Req)
  /-- R230. Returns up to 56 members of a replication group. -/
  | groupRead (q : Req)
  /-- R230. Sets a tap sampler. -/
  | tapSet (q : Req)
  /-- R230. Sizes a tap ring and returns its base. -/
  | tapRingSet (q : Req)
  /-- R143. WEIR_GRP_CMD read copies a group or member entry into WEIR_GRP_DATA. -/
  | weirGrpRead
  /-- R143. WEIR_GRP_CMD write stores WEIR_GRP_DATA into a group or member entry. -/
  | weirGrpWrite
  /-- R238. Every 64 ns each shaper adds INC to its credit, capped at its burst or at 0 when empty. -/
  | shaperRefill (x : ShaperSet)
  /-- R234. A slot whose destination can take a frame chooses a launch, strict or DRR packet and charges its shapers. -/
  | slotFrameStart (t : Tailrace) (slot : Fin 10)
  /-- R245. At L − LEAD the tailrace releases the packet to its slot and guards the port for launch at L. -/
  | launchRelease (t : Tailrace)
  /-- R245. A launch-time packet not started by L + TOL takes LATE_ACT. -/
  | launchLate (t : Tailrace)
  /-- R237. A plot subqueue head that waited RX_WAIT without a receive post is dropped. -/
  | rxWaitExpiry (t : Tailrace) (plot : Fin 256) (c : Fin 8)
  /-- R250. Sets a slot's strict classes, overhead and shaper. -/
  | egrSlotSet (q : Req)
  /-- R250. Sets a class shaper, quantum and queue limit. -/
  | egrClassSet (q : Req)
  /-- R250. Sets LATE_ACT, HORIZON and TOL of a tailrace. -/
  | egrLaunchSet (q : Req)
  /-- R250. Returns one tailrace's slot and class registers for a target. -/
  | egrRead (q : Req)
  /-- R247. Writes a meter entry and fills its buckets. -/
  | meterSet (q : Req)
  /-- R248. Returns the words of a meter entry. -/
  | meterRead (q : Req)
  /-- R247. SEED_MTR_CMD WRITE sets meter words 0 and 1 and refills its buckets. -/
  | seedMtrWrite (q : Quad)
  /-- R247. SEED_MTR_CMD READ copies a meter entry into the data registers. -/
  | seedMtrRead (q : Quad)
  /-- R252. A host link trains and raises a Note fault if below 16 GT/s or full width. -/
  | hostLinkUp (m : Link) (rate : Fin 6) (width : Nat) (flit : Bool)
  /-- R258. A host memory, I/O, message or configuration request is served or refused as Table 11.5 states. -/
  | hostMemoryRequest (m : Link) (q : HostReq)
  /-- R262. A device read without all completions within HPT_CTO is logged and fails its work item. -/
  | completionTimeout (m : Link) (tag : Nat) (got : List Byte)
  /-- R262. A completion to a device read arrives and is delivered, or discarded as unexpected or poisoned. -/
  | dmaCompletion (m : Link) (tag : Nat) (got : List Byte) (e : DmaEnd)
  /-- R262. A host write of PF0's Completion Timeout Value loads HPT_CTO for listed encodings. -/
  | ctoValueWrite (m : Link) (v : Fin 16)
  /-- R259. Bus Master Enable changes and held work is paused or resumed in order. -/
  | busMasterEnable (m : Link) (f : Nat) (b : Bool)
  /-- R259. A function leaving D3hot is reset as by an FLR. -/
  | d3hotToD0 (m : Link) (f : Nat)
  /-- R266. Initiate Function Level Reset silences the function and clears its plot's running state. -/
  | flrInitiate (m : Link) (f : Nat)
  /-- R266. The function becomes ready again within 1 ms of the FLR write. -/
  | flrDone (m : Link) (f : Nat)
  /-- R268. A hot reset or DL_Down stops the link's requests, resets its functions and flushes slot 8. -/
  | hotReset (m : Link) (how : LinkLoss)
  /-- R268. PERST# assertion resets the link, its functions, mailboxes and plots. -/
  | perstAssert (m : Link)
  /-- R270. After L1_IDLE with nothing outstanding the device requests ASPM L1. -/
  | l1Entry (m : Link)
  /-- R271. After 100 µs of low use the device narrows its transmit width. -/
  | l0pNarrow (m : Link)
  /-- R271. More than 4 KiB queued or a partner request widens the transmit width. -/
  | l0pWiden (m : Link)
  /-- R273. An ATS invalidation request completes within 1 ms and the translation is no longer used. -/
  | atsInvalidate (m : Link) (f : Nat) (page : Nat)
  /-- R341. Every 100 µs the host port issues a PTM request while PTM is enabled. -/
  | ptmRequest (m : Link)
  /-- R341. A PTM response completes an exchange and refits offset and rate. -/
  | ptmResponse (m : Link) (host : Nat)
  /-- R341. An exchange without response within 10 µs fails and is counted. -/
  | ptmTimeout (m : Link)
  /-- R279. A transmit doorbell updates the producer count after generation and range checks. -/
  | txDb (r : RingId) (v : DWord)
  /-- R279. A receive doorbell updates the post count after generation and range checks. -/
  | rxDb (r : RingId) (v : DWord)
  /-- R279. A transmit completion doorbell updates the consumer count and may arm the interrupt. -/
  | txcDb (r : RingId) (v : DWord)
  /-- R279. A receive completion doorbell updates the consumer count and may arm the interrupt. -/
  | rxcDb (r : RingId) (v : DWord)
  /-- R284. The host port fetches a transmit chain, checks it, applies offloads and hands its packets to the headrace. -/
  | txChainFetch (r : RingId) (descs : Fetch) (pay : Option (List Byte × DmaEnd))
  /-- R290. A transmit completion is written when the chain is fetched or, with TS_REQ, when its first packet departs or ends. -/
  | txCompletion (r : RingId)
  /-- R292. The tailrace checks generation, windows and posts, writes a packet into receive buffers and its completion. -/
  | rxRingWrite (t : Tailrace) (r : RingId) (posts : Fetch)
  /-- R297. An armed ring whose oldest completion has waited USECS sends its MSI-X message. -/
  | irqModerationTimeout (r : RingId) (rx : Bool)
  /-- R306. Creates a queue pair with class, binding and rings. -/
  | qpCreate (x : QpPath)
  /-- R306. Stops fetch, ends error and zeroes the counts of a queue pair. -/
  | qpReset (x : QpPath)
  /-- R306. Resets and frees a queue pair. -/
  | qpDelete (x : QpPath)
  /-- R306. Sets 32 entries of the plot's queue table. -/
  | qtableSet (x : QpPath)
  /-- R303. Sets a plot's kind, MAC, VLAN, limits and policer within the rules for a running plot. -/
  | plotConfig (q : Req)
  /-- R307. Sets a plot's transmit and receive shapers and weights. -/
  | plotRateSet (q : Req)
  /-- R304. Replaces a plot's DMA windows and reports DONE when old-window requests have ended. -/
  | plotWindowSet (q : Req)
  /-- R313. Resets a plot's running state as an FLR does and advances its generation. -/
  | plotReset (q : Req)
  /-- R314. Resets a plot, stops its log, frees its vectors and clears its configuration. -/
  | plotRemove (q : Req)
  /-- R309. The manager writes a message into a tenant's RX buffer. -/
  | plotMsgSend (q : Req)
  /-- R308. Returns the tenant's pending message and clears TX_BUSY. -/
  | plotMsgRecv (q : Req)
  /-- R322. Returns a plot's state, queue pairs, generation and logging status. -/
  | plotStatus (q : Req)
  /-- R315. Starts dirty-page logging into a ring. -/
  | plotLogStart (q : Req)
  /-- R316. Takes the consumed count, clears the filter and returns the produced count. -/
  | plotLogSync (q : Req)
  /-- R322. Stops dirty-page logging. -/
  | plotLogStop (q : Req)
  /-- R318. Pauses a plot and reports when nothing of it is outstanding. -/
  | plotPause (q : Req)
  /-- R318. Sets a paused plot READY and acts on held doorbells. -/
  | plotResume (q : Req)
  /-- R319. Writes a paused plot's running state to manager memory. -/
  | plotSave (q : Req)
  /-- R320. Recreates a saved plot state and advances the generation to match. -/
  | plotRestore (q : Req) (buf : Fetch)
  /-- R308. A tenant write of LENGTH sends its TX buffer to the manager unless TX_BUSY. -/
  | plotMbxSend (p : PlotIx) (v : Word)
  /-- R309. A tenant write frees its RX buffer. -/
  | plotMbxAck (p : PlotIx)
  /-- R335. A time source meets its qualification and the highest-priority qualified source is selected. -/
  | sourceQualified (k : TimeSrc) (d : Int)
  /-- R335. A time source is lost, a Note fault is raised and the next source or holdover is selected. -/
  | sourceLost (k : TimeSrc) (d : Int)
  /-- R334. With REVERT 1 a higher source qualified for 10 s is selected again. -/
  | sourceRevert (d : Int)
  /-- R333. Phase offset within ±10 ns for 60 s moves ACQUIRING to LOCKED. -/
  | timeLocked
  /-- R336. SRC_BOUND passing HOLD_LIMIT enters HOLDOVER_OUT and raises a Correctable fault. -/
  | holdoverOut
  /-- R327. Every 10 s each powered lane group and host port has its timestamp latencies calibrated. -/
  | timestampCalibration (u : Fin 32)
  /-- R330. A PTP message of the clock's domain is taken by the time unit. -/
  | ptpMessageRx (p : Port) (x : PtpMsg)
  /-- R329. A master or slave port sends its scheduled Sync, Delay_Req or Announce. -/
  | ptpMessageTx (p : Port) (k : PtpTx)
  /-- R337. An enabled output places its edge at each whole TAI second plus OFFSET. -/
  | ppsOutputEdge (n : Fin 20)
  /-- R338. The ToD line sends the message for an edge starting 10 ms after it. -/
  | todOutputMessage (n : Fin 20)
  /-- R339. A PPS input edge is timestamped with cable compensation. -/
  | ppsInputEdge (i : Fin 2)
  /-- R339. A ToD input message names its edge or is discarded on bad CRC or timing. -/
  | todInputMessage (i : Fin 2) (l : List Byte)
  /-- R340. HT_FEED_OC_N falling turns the host cable feed off within 2 µs and raises a Correctable fault. -/
  | hostFeedTrip (n : Fin 16)
  /-- R342. EN rising in TIME_HP_PAGE_LO latches the page address and starts page writes. -/
  | timePageEnable (m : Link) (v : Word)
  /-- R343. Every interval, or after a time event, the device writes a host time page in three posted writes. -/
  | timePageWrite (m : Link)
  /-- R346. Every 1 ms, or after a time event, the core time page is written. -/
  | coreTimePageWrite
  /-- R349. Returns the time state, sources, bounds and time word. -/
  | timeStatus (q : Req)
  /-- R349. Sets source priorities, loop settings and slew. -/
  | timeSrcSet (q : Req)
  /-- R349. Sets the PTP profile, domain and clock priorities. -/
  | timeClockSet (q : Req)
  /-- R349. Configures PTP on an Ethernet port. -/
  | timePortSet (q : Req)
  /-- R349. Adds or removes a unicast PTP session. -/
  | timeUnicastSet (q : Req)
  /-- R467. Sets the time word at one instant when no phase source is selected. -/
  | timeSet (q : Req)
  /-- R349. Supplies the TAI seconds of a PPS input's next edge. -/
  | timeTodSet (q : Req)
  /-- R349. Configures a PPS and ToD output. -/
  | timeOutSet (q : Req)
  /-- R332. Reports a received SyncE quality level and returns the level to advertise. -/
  | timeSynceQl (q : Req)
  /-- R336. Sets holdover parameters and optionally HLOCK. -/
  | timeHoldSet (q : Req)
  /-- R349. Sets the UTC offset and leap flags. -/
  | timeUtcSet (q : Req)
  /-- R349. Returns a port's timestamp corrections and calibration age. -/
  | timeCalRead (q : Req)
  /-- R352. A drive link comes up and the drive becomes NEW. -/
  | driveLinkUp (d : DriveIx) (cap : Nat) (fits : Bool)
  /-- R352. A long link-down, command timeout, write error or repeated read errors make a MEMBER drive FAILED. -/
  | driveFailure (d : DriveIx) (how : DriveEnd)
  /-- R360. A submission-queue doorbell announces new NVMe commands to fetch. -/
  | nvmeSqDoorbell (p : PlotIx) (y : Nat) (v : Word)
  /-- R360. A completion-queue doorbell returns completion entries to the controller. -/
  | nvmeCqDoorbell (p : PlotIx) (y : Nat) (v : Word)
  /-- R362. CC.EN falling stops fetch, drops unacknowledged writes and deletes I/O queues. -/
  | controllerReset (p : PlotIx)
  /-- R362. A shutdown notification completes with SHST 0b10 within 10 ms. -/
  | shutdownNotification (p : PlotIx) (shn : Fin 4)
  /-- R360. Admin command deleting an I/O submission queue. -/
  | nvmeDeleteIoSq (p : PlotIx) (e : Fetch)
  /-- R360. Admin command deleting an I/O completion queue. -/
  | nvmeDeleteIoCq (p : PlotIx) (e : Fetch)
  /-- R360. Admin command creating a contiguous I/O submission queue. -/
  | nvmeCreateIoSq (p : PlotIx) (e : Fetch)
  /-- R360. Admin command creating a contiguous I/O completion queue. -/
  | nvmeCreateIoCq (p : PlotIx) (e : Fetch)
  /-- R360. Admin command returning a supported log page. -/
  | nvmeGetLogPage (p : PlotIx) (e : Fetch) (lists : List Fetch)
  /-- R360. Admin command returning identify data for CNS 0 to 3. -/
  | nvmeIdentify (p : PlotIx) (e : Fetch) (lists : List Fetch)
  /-- R364. Aborts a command that has not begun its data transfer, including one waiting for a reservation. -/
  | nvmeAbort (p : PlotIx) (e : Fetch)
  /-- R360. Admin command setting a supported feature. -/
  | nvmeSetFeatures (p : PlotIx) (e : Fetch)
  /-- R360. Admin command returning a supported feature. -/
  | nvmeGetFeatures (p : PlotIx) (e : Fetch)
  /-- R360. Admin command posting a request completed on a namespace or SMART event. -/
  | nvmeAsyncEventRequest (p : PlotIx) (e : Fetch)
  /-- R363. Completes at once since acknowledged writes are already protected. -/
  | nvmeFlush (p : PlotIx) (y : Nat) (e : Fetch)
  /-- R365. A write requests a ledger reservation, then fetches its data into STAGING blocks. -/
  | nvmeWrite (p : PlotIx) (y : Nat) (e : Fetch) (lists : List Fetch) (pay : List Fetch)
  /-- R365. A read is served from DIRTY or CLEAN blocks or from the drives, reconstructing if needed. -/
  | nvmeRead (p : PlotIx) (y : Nat) (e : Fetch) (lists : List Fetch)
  /-- R361. Zeroes or deallocates a range in per-extent parts. -/
  | nvmeWriteZeroes (p : PlotIx) (y : Nat) (e : Fetch)
  /-- R361. Deallocates whole extents of the ranges and zeroes the rest. -/
  | nvmeDatasetManagement (p : PlotIx) (y : Nat) (e : Fetch) (lists : List Fetch) (pay : List Fetch)
  /-- R369. The ledger grants the head request when H plus n fits B. -/
  | reservationGrant (pay : List Fetch)
  /-- R22. A write whose payload is in S0 with its reservation held and WRITEBACK 1 turns DIRTY and completes. -/
  | writeAcknowledge (id : Nat)
  /-- R356. A destage of an extent completes, marking it done, degraded, re-placed or the volume WRITE_BLOCKED, and releases reservations. -/
  | destageExtentDone (v : Fin 4096) (x : Nat) (upTo : Nat) (bad : List DriveIx)
  /-- R368. Every 10 µs the ledger reads the bank voltage and recomputes the budget B. -/
  | ledgerRecompute (a : Nat) (b : Nat)
  /-- R370. OVER lasting 1 s raises a Degrading fault. -/
  | overPersist
  /-- R368. Every 10 min a 64 MiB write to the vault measures the write rate W. -/
  | vaultProbe (rate : Nat) (ok : Bool)
  /-- R372. With the start conditions met the daily test bleeds the bank at 100 mA. -/
  | capacityTestStart
  /-- R372. V_b reaching 0.95 × V_chg sets C_m and recharges. -/
  | capacityTestEnd
  /-- R372. A test that times out or is interrupted stops the bleed, keeps C_m and recharges. -/
  | capacityTestAbandon
  /-- R372. Once an hour C_m and AGE are written to the vault header. -/
  | ledgerRecordWrite
  /-- R375. A vault chunk is read, verified and restored into S0 as dirty data. -/
  | vaultRestoreChunk (ok : Bool)
  /-- R378. A received Conduit packet is accepted, NAKed, discarded or re-ACKed by its PSN distance. -/
  | conduitDataRx (c : Conn) (gen : Nat) (psn : Nat) (lba : Nat) (data : List Byte)
  /-- R377. A cumulative ACK frees covered packets from the retransmit buffer. -/
  | conduitAckRx (c : Conn) (gen : Nat) (psn : Nat)
  /-- R377. A NAK retransmits from the oldest unacknowledged packet. -/
  | conduitNakRx (c : Conn) (gen : Nat)
  /-- R377. RTO without an ACK retransmits, doubling RTO, and fails the connection after 8 tries. -/
  | conduitRto (c : Conn)
  /-- R378. After an RNR NAK the sender retries 50 µs later. -/
  | conduitRnrRetry (c : Conn)
  /-- R381. Returns drive states and pool granule counts. -/
  | poolStatus (q : Req)
  /-- R351. Admits a NEW drive to the pool and reformats it. -/
  | driveAdmit (q : Req)
  /-- R352. Starts moving a drive's columns off it. -/
  | driveRetire (q : Req)
  /-- R352. Marks a drive FAILED and degrades its columns. -/
  | driveFail (q : Req)
  /-- R381. Creates a volume with a scheme, map run and wrapped key. -/
  | volCreate (q : Req)
  /-- R381. Destages or discards a volume's dirty data and removes it. -/
  | volDelete (q : Req)
  /-- R381. Attaches a volume as a namespace of a storage plot. -/
  | volAttach (q : Req)
  /-- R381. Detaches a namespace from a storage plot. -/
  | volDetach (q : Req)
  /-- R469. Returns a volume's state and extent and dirty counts. -/
  | volStatus (q : Req)
  /-- R381. Returns the Cistern status registers. -/
  | cistStatus (q : Req)
  /-- R381. Sets CIST_CFG and the locked Cistern words, optionally setting CLOCK. -/
  | cistSet (q : Req)
  /-- R372. Runs a capacity test and returns C_m. -/
  | cistTest (q : Req)
  /-- R469. Returns the vault header state, Drain count and chunk count. -/
  | vaultStatus (q : Req)
  /-- R381. Configures a Conduit connection. -/
  | cndConnSet (q : Req)
  /-- R381. Returns a Conduit connection's registers. -/
  | cndStatus (q : Req)
  /-- R379. Sends the extents marked while a connection was down. -/
  | volResync (q : Req)
  /-- R386. A read or write reaches a stack controller and takes effect in arrival order per block. -/
  | reservoirRequest (k : Stack) (a : Nat) (wr : Option (List Byte)) (match_ : Bool) (act : Bool) (ecc : Ecc) (u : RsvUser)
  /-- R388. A tREFI passes and a refresh is owed, issued when idle or as a catch-up burst at eight owed. -/
  | refreshDue (k : Stack) (pc : Fin 32) (idle : Bool)
  /-- R389. Every 1 ms a stack's temperature is read and the thresholds of Table 16.2 applied. -/
  | stackTempReading (k : Stack) (t : Fin 256)
  /-- R393. The patrol scrub reads the next block of a stack on its schedule. -/
  | patrolScrubStep (k : Stack) (ecc : Ecc) (u : RsvUser)
  /-- R396. An allocation request is served from the smallest fitting pool or returns EMPTY or BAD_SIZE. -/
  | hopReq (o : HopOwner) (v : Word) (bad : Bool)
  /-- R399. A free returns a buffer to its pool or is refused as BAD_FREE or DOUBLE_FREE. -/
  | hopFree (o : HopOwner) (a : Nat)
  /-- R395. A write of HOP_CTRL.BUILD starts writing every pool's free list. -/
  | build (v : Word)
  /-- R395. The pools are built and READY becomes 1. -/
  | hopperBuildDone
  /-- R405. START checks a channel's fields and runs it or sets INVALID. -/
  | bmvStart (who : Master) (c : Channel) (v : Word)
  /-- R408. ABORT ends a channel after its current burst, or at once if HALTED. -/
  | bmvAbort (who : Master) (c : Channel) (v : Word)
  /-- R409. The Lockkeeper resumes a halted channel. -/
  | bmvResume (who : Master) (c : Channel) (v : Word)
  /-- R405. A ready channel issues one burst of reads and writes in its turn. -/
  | bmvBurst (e : List Fetch)
  /-- R409. The Lockkeeper probes halted channels one at a time and resumes or fails them. -/
  | bmvRestart
  /-- R413. A master claims the KCU lock if it is free. -/
  | kcuClaim (ms : List (Fin 3))
  /-- R417. The holder releases the lock and the key and buffer registers are zeroised. -/
  | kcuRelease (m : Fin 3)
  /-- R415. START begins a KCU operation timed to complete exactly T later. -/
  | kcuStart (m : Fin 3)
  /-- R415. At T the operation's result or REFUSED is delivered. -/
  | kcuResult (m : Fin 3) (late : Bool)
  /-- R143. ICR_SA_CMD WRITE replaces an SA entry, erasing the key when VALID is 0. -/
  | icrSaWrite
  /-- R143. ICR_SA_CMD READ copies an SA entry into the data registers. -/
  | icrSaRead
  /-- R419. Unwraps a KEK into a slot under a parent slot. -/
  | kekLoad (q : Req)
  /-- R419. Writes an SA entry and unwraps its key. -/
  | espSaInstall (q : Req)
  /-- R419. Deletes an SA and its key. -/
  | espSaDelete (q : Req)
  /-- R419. Returns an SA entry. -/
  | espSaRead (q : Req)
  /-- R419. Installs a MACsec SA with its unwrapped SAK. -/
  | macsecSaInstall (q : Req)
  /-- R419. Retires a MACsec SA. -/
  | macsecSaRetire (q : Req)
  /-- R419. Returns halt, error and channel states. -/
  | bmvStatus (q : Req)
  /-- R423. A fault message sets its source's sticky bit, starts its window and is queued for the Lockkeeper. -/
  | faultMessage (n : Source) (kind : Fin 64) (addr : Fin 281474976710656)
  /-- R425. A window ends unacknowledged and the collector escalates by Table 18.4. -/
  | faultWindowEnd (n : Source)
  /-- R426. W1C of a sticky bit acknowledges its source and ends its window. -/
  | stickyClear (k : Fin 11) (v : Word)
  /-- R429. A write of 0xA5 to FLT_WDOG_KICK restarts the watchdog. -/
  | watchdogKick (v : Word)
  /-- R429. The watchdog expires, raising a Fatal escalation, stopping ALIVE and releasing the KCU lock. -/
  | watchdogExpiry
  /-- R430. A write of FLT_ALIVE.START starts ALIVE unless latched. -/
  | aliveStart (v : Word)
  /-- R430. ALIVE toggles every 1 ms while running. -/
  | aliveToggle
  /-- R431. A write changing a counter's EVENT or MODE resets the counter to 0. -/
  | pmcSelectWrite (p : Option Pipe) (i : Fin 16) (v : Word)
  /-- R433. A write of PMC_CTRL.SNAP fixes the snapshot instant T. -/
  | snap (v : Word)
  /-- R433. At T every counter copies into its shadow and SNAP_DONE follows within 20 µs. -/
  | snapshotInstant
  /-- R433. A write of PMC_SH_SEL latches a counter's shadow or sets ERR. -/
  | shadowSelect (v : Word)
  /-- R435. An activity falls overdue, takes its overdue share and raises source 9. -/
  | backgroundOverdue (a : Fin 11)
  /-- R435. An activity reaches its hard bound and raises source 10. -/
  | backgroundHardBound (a : Fin 11)
  /-- R435. The parity scrub reads the next entry of a table, control store or graph. -/
  | parityScrubStep (x : ScrubMem) (ecc : Ecc) (readBack : Bool)
  /-- R435. Each lane is adapted every 100 ms. -/
  | serdesAdaptation
  /-- R436. Each period a snapshot is taken and a telemetry record written to every enabled ring. -/
  | telemetryExport
  /-- R438. Returns visible sticky bits, running windows and counts per severity. -/
  | faultStatus (q : Req)
  /-- R426. Acknowledges a fault source. -/
  | faultAck (q : Req)
  /-- R422. Sets a source's severity and ROUTE. -/
  | faultSevSet (q : Req)
  /-- R438. Sets a class's window length. -/
  | faultWindowSet (q : Req)
  /-- R428. Enables fault notification on a PF0 vector. -/
  | faultNotifySet (q : Req)
  /-- R423. Returns up to 13 visible log entries from a sequence number. -/
  | faultLogRead (q : Req)
  /-- R431. Programs a performance counter's event and mode. -/
  | pmcSet (q : Req)
  /-- R433. Sets FREEZE or takes a snapshot and returns its time. -/
  | pmcCtrl (q : Req)
  /-- R438. Returns a counter's live value or shadow. -/
  | pmcRead (q : Req)
  /-- R436. Configures a PF0's telemetry ring, period and groups. -/
  | telemSet (q : Req)
  /-- R438. Returns due and overdue background activities and their ages. -/
  | bgStatus (q : Req)
  /-- R442. The ROM verifies an image, starts the firmware and the Lockkeeper enters Fallow. -/
  | firmwareStarted
  /-- R443. With both images failed, an image received by PLDM is written to region A and booted. -/
  | recoveryImage (data : List Byte)
  /-- R445. A write of SEC_LC_CTRL.GO programs the target life-cycle state. -/
  | go (v : Word)
  /-- R448. Returns life-cycle, SVN, image and debug state. -/
  | secStatus (q : Req)
  /-- R448. Returns a fresh nonce and the serial number. -/
  | secChallenge (q : Req)
  /-- R445. Verifies an authorisation and advances the life-cycle state in OTP. -/
  | lcAdvance (q : Req) (buf : Fetch)
  /-- R446. Verifies an authorisation and opens debug paths until the next reset. -/
  | debugUnlock (q : Req) (buf : Fetch)
  /-- R448. Writes part of a firmware image to the region not running. -/
  | imageWrite (q : Req) (buf : Fetch)
  /-- R448. Verifies the other image and makes it preferred. -/
  | imageActivate (q : Req)
  /-- R441. Raises the SVN count to the running image's SVN. -/
  | svnCommit (q : Req)
  /-- R448. Returns one measurement digest. -/
  | measureRead (q : Req)
  /-- R448. A class 0x08xx command writes its granted or refused result at exactly T. -/
  | securityResultDue
  /-- R448. A challenge nonce expires 60 s after issue. -/
  | nonceExpiry
  /-- R447. SPDM request returning the supported versions. -/
  | getVersion (via : Option Link)
  /-- R447. SPDM request returning responder capabilities. -/
  | getCapabilities (via : Option Link) (ver : Nat)
  /-- R447. SPDM request selecting ECDSA P-384 and SHA-384. -/
  | negotiateAlgorithms (via : Option Link) (ver : Nat) (p384 : Bool) (sha384 : Bool)
  /-- R447. SPDM request returning certificate chain digests. -/
  | getDigests (via : Option Link) (ver : Nat)
  /-- R447. SPDM request returning the identity certificate chain. -/
  | getCertificate (via : Option Link) (ver : Nat) (slot : Nat) (off : Nat) (len : Nat)
  /-- R447. SPDM request answered with a signed challenge response. -/
  | challenge (via : Option Link) (ver : Nat) (slot : Nat) (nonce : List Byte)
  /-- R447. SPDM request returning measurements of Table 19.5. -/
  | getMeasurements (via : Option Link) (ver : Nat) (index : Nat) (signed : Bool) (nonce : List Byte)
  /-- R455. A CISTERN_OK level held for 10 µs is taken and WRITEBACK follows. -/
  | cisternOkChange (level : Bool)
  /-- R458. Each rail is read over PMB1 at least every 1 ms. -/
  | railReading (n : Fin 11) (mv : Fin 65536) (current : Fin 65536)
  /-- R460. A held-low management bus is recovered, released and retried every 1 s. -/
  | smbusStuck (b : MgmtBus) (freed : Bool)
  /-- R352. A drive's link goes down, returning a NEW or removed drive to ABSENT and starting the 1 s count that fails a MEMBER drive. -/
  | driveLinkDown (d : DriveIx)
  /-- R357. A background rebuild or re-placement of an extent finishes writing its new SLOT, clearing DEGRADED or MOVING and, when a RETIRING drive's last column has moved, making it NEW. -/
  | rebuildExtentDone (v : Fin 4096) (x : Nat)
  /-- R357. A read that the Silo issued to drives completes, and the data is returned or reconstructed, or Unrecovered Read Error is posted. -/
  | driveReadDone (id : Nat) (bad : List DriveIx)
  /-- R435. Every 24 h the drive and vault wear scan issues one admin command per drive. -/
  | wearScan
  /-- R348. At a pending leap second TAI continues, the UTC offset changes, the leap flag clears and an extra time page falls due. -/
  | leapSecond
  /-- R460. The oscillator on OSC_IN goes silent, so the time base stops and ALIVE stops with it. -/
  | oscInLost
  /-- R417. Disconnection of the debug port releases the KCU lock it holds and zeroises the key and buffer registers. -/
  | debugPortDisconnect
  /-- R252. A host link changes its negotiated rate or width without going down, and the port tests it again and raises a Note fault if it is below 16 GT/s or full width. -/
  | hostLinkRateChange (m : Link) (rate : Fin 6) (width : Nat)
  deriving DecidableEq, Repr

end Sys2Proof
end

