-- ==== Sys2Proof/Decode.lean ====
section
/-! DEFINITION. The command that a word spells. The command table of this device gives bits to no row: a command is an
event with operands, and no word of it is laid out (assumption 1). -/
namespace Sys2Proof

/-- No row of the command table has bits, so no word spells a command. -/
def decodeTableWord (_nbits _w : Nat) : Option Instr := none

end Sys2Proof
end

