-- ==== Sys2Proof/Config.lean ====
section
/-! DEFINITION. What an implementation fixes and the spec leaves open: the free values, and the ciphers and
signatures that the spec takes from published standards. None has a body: no proof can see a value of one. -/
namespace Sys2Proof.Config

/-- The n-th free value of a run: a random draw, an undefined value, a choice that the spec leaves to the device.
`State.draw` applies it to a counter and advances the counter (assumption 2). -/
opaque free : Nat → Nat

/-- How far, in mV, the governor takes the highest voltage under a power limit to lie from the request of the last reading: by
that reading in mW, that request and the limit in watts (R40, assumption 33). -/
opaque capMargin : Nat → Nat → Nat → Nat

/-- AES-256-GCM sealing: key, nonce, associated data, plaintext, to ciphertext and tag (R119, R410, R415). -/
opaque gcmSeal : List Byte → List Byte → List Byte → List Byte → List Byte

/-- AES-256-GCM opening; `none` where the tag does not verify. -/
opaque gcmOpen : List Byte → List Byte → List Byte → List Byte → Option (List Byte)

/-- AES key wrap with padding flag (RFC 3394, or RFC 5649 where the flag is set): key, plaintext. -/
opaque keyWrap : Bool → List Byte → List Byte → List Byte

/-- AES key unwrap; `none` where the integrity value does not verify. -/
opaque keyUnwrap : Bool → List Byte → List Byte → Option (List Byte)

/-- AES-CMAC of a message under a key. -/
opaque cmac : List Byte → List Byte → List Byte

/-- XTS-AES-256 of a data unit under a key and a tweak, and its inverse (R358, assumption 21). -/
opaque xtsEncrypt : List Byte → Nat → List Byte → List Byte
opaque xtsDecrypt : List Byte → Nat → List Byte → List Byte

/-- SHA-384 of a byte string. -/
opaque sha384 : List Byte → List Byte

/-- ECDSA P-384 and ML-DSA-87 verification: public key, digest, signature (R440). -/
opaque p384 : List Byte → List Byte → List Byte → Bool
opaque mldsa87 : List Byte → List Byte → List Byte → Bool

/-- SHA-384 hashes of the two Onnos public keys, in ROM, P-384 first; the boot ROM's contents (Tables 19.1 and 19.5). -/
opaque romHashes : List Byte
opaque rom : List Byte

/-- The device's serial number (R448). -/
opaque serial : Nat

/-- Signing with the identity key of a device secret, and the identity certificate chain (R447). -/
opaque sign : List Byte → List Byte → List Byte
opaque certChain : List Byte → List Byte

/-- A firmware image from the bytes of its region, by offset: version, SVN and the mask of the life-cycle states that it
may run in; its header and body; its signature part. None where its header is in error. Chapter 19 names these parts of
an image and fixes no layout (assumption 29). -/
opaque firmware : List (Nat × Byte) → Option ((Nat × Nat × Nat) × List Byte × List Byte)

/-- Bytes of KIND and of the target in an authorisation block, which R448 names and does not size (assumption 29). -/
opaque authKind : Nat
opaque authTarget : Nat

/-- Contents of an SPDM response (DMTF DSP0274) from the facts that chapter 19 fixes: response code, then the facts
(assumption 30). -/
opaque spdm : Nat → List (List Byte) → List Byte

/-- The result data of DEV_IDENTIFY for a running image (1: B) and its version: the spec names the contents and fixes no
layout (assumption 11). -/
opaque identity : Nat → Nat → List Byte

/-- The result data of DEV_CAPS and DEV_HEALTH from the values that the spec names, in the order it names them
(assumption 11). -/
opaque layout : List Nat → List Byte

/-- The header and queue-pair records of a saved plot state from the values that R319 names, and the values read back from
such bytes: R319 fixes the sizes and no layout (assumption 11). -/
opaque savedState : List Nat → List Byte
opaque savedFacts : List Byte → List Nat

/-- The DATA of a plot-steering entry of a plot (Table 8.3 kind 4, assumption 11). -/
opaque steerData : Nat → Nat

/-- Data structures of the NVMe base specification from the values that chapter 15 fixes: kind (0 Identify Namespace,
1 Identify Controller, 3 Namespace Identification Descriptor list, 16 + n log page n), then the values (assumption 22). -/
opaque nvmeData : List Nat → List Byte

/-- The fit of the host's PTM master time against the time word from the last good exchanges: at a time word, C0 and RATE of
Table 14.7. R341 names the fit and gives no formula (assumption 27). -/
opaque ptmFit : List (Nat × Nat) → Nat → Nat × Nat

/-- The header and body of a customer image, its signature part, and what its sections write: kind, place and value. Table 7.13 gives the
header and fixes no layout for the sections. Kinds: 0 a word at (16 pipeline + gate) · 8,192 + word, 1 an ENTRY at
16 pipeline + gate, 2 a graph entry at 2^13 headrace + memory and index, 3 an edit word at 2^14 tailrace + memory and
index, 4 the DEFAULT of a vendor node at 256 headrace + node (assumption 17). -/
opaque mcBody : List Byte → List Byte
opaque mcSignature : List Byte → List Byte
opaque mcImage : List Byte → List (Nat × Nat × Nat)

/-- Where the Lockkeeper places a user of the Reservoir address space (R20): 0 tap rings, 1 Hopper pools, 2 core memory,
3 Conduit buffers, 4 Reservoir queues (assumption 18). -/
opaque region : Nat → Nat

/-- Reservoir regions that the Lockkeeper placed for an owner of bulk-mover channels, as base and length: owner 0 the
Lockkeeper, 1 the Silo, 2 + n core n (R404, assumption 18). -/
opaque moverRegions : Nat → List (Nat × Nat)

/-- A of R415 for an operation and a KCU_LEN that Table 17.3 does not allow (assumption 28). -/
opaque kcuA : Nat → Nat → Nat

/-- The device provisioning key from the provisioning seed in OTP (R414). -/
opaque provisioningKey : List Byte → List Byte

end Sys2Proof.Config
end

