-- ==== Sys2Proof/Machine/RegMap.lean ====
section
/-! DEFINITION. The registers of the device as the spec's register tables lay them out: one constant per field, and
per block the list of its registers with access code, reset value and accepted encodings (R8 to R11). -/
namespace Sys2Proof.Machine

/-- A field of a register: the offset of its register in the block's 64 KiB window (of instance 0 of an indexed
register) and its bits `[hi:lo]` (R4). -/
structure RegField where
  off : Nat
  hi : Nat
  lo : Nat
  deriving DecidableEq, Repr

/-- The access codes of Table 0.6. -/
inductive Access where
  | rw | ro | w1c | wo | rwl | rs
  deriving DecidableEq, Repr

/-- What a field's meaning accepts (R11). -/
inductive Accepts where
  /-- Every encoding of the field. -/
  | any
  /-- A stated range, both ends included. -/
  | range (a b : Nat)
  /-- A list of encodings. -/
  | oneOf (l : List Nat)
  /-- A range of which only the multiples of `k` are named. -/
  | mult (a b k : Nat)
  /-- A two's-complement field of `w` bits from `-m` to `p`. -/
  | signed (w m p : Nat)
  /-- Two-bit groups, none of them 0b11. -/
  | pairs
  /-- Four-bit two's-complement groups from -4 to 3. -/
  | nibbles
  /-- At most `a`, or the one value `b`. -/
  | orElse (a b : Nat)
  deriving DecidableEq, Repr

/-- One row of a register table. -/
structure FieldDesc where
  fld : RegField
  acc : Access
  reset : Nat
  ok : Accepts
  deriving DecidableEq, Repr

/-- One register, or a family of registers at regular strides (outermost stride first). -/
structure RegDesc where
  off : Nat
  dims : List (Nat × Nat)
  /-- The register is the low word of a documented wide pair. -/
  pair : Bool
  fields : List FieldDesc
  deriving DecidableEq, Repr

/-- One 64-bit counter, or a family of counters at regular strides. -/
structure CntDesc where
  off : Nat
  dims : List (Nat × Nat)
  deriving DecidableEq, Repr

/-! ### PACE: Tables 2.8 to 2.16 -/

def R.PACE_CTRL_POLICY : RegField := ⟨0x0, 1, 0⟩
def R.PACE_TARGET_TARGET : RegField := ⟨0x4, 15, 0⟩
def R.PACE_FOLLOW_FLOOR : RegField := ⟨0x8, 31, 16⟩
def R.PACE_FOLLOW_HEADROOM : RegField := ⟨0x8, 7, 0⟩
def R.PACE_CAP_CAP : RegField := ⟨0xc, 15, 0⟩
def R.PACE_VLIMIT_VMAX : RegField := ⟨0x10, 31, 16⟩
def R.PACE_VLIMIT_VMIN : RegField := ⟨0x10, 15, 0⟩
def R.PACE_LOCK_VLOCK : RegField := ⟨0x14, 0, 0⟩
def R.PACE_STATUS_VREQ : RegField := ⟨0x20, 31, 16⟩
def R.PACE_STATUS_PACE_MIN : RegField := ⟨0x20, 15, 0⟩
def R.PACE_FLAGS_AVS_LOST : RegField := ⟨0x24, 4, 4⟩
def R.PACE_FLAGS_THROTTLE : RegField := ⟨0x24, 3, 3⟩
def R.PACE_FLAGS_CAPPED : RegField := ⟨0x24, 2, 2⟩
def R.PACE_FLAGS_TARGET_UNREACHED : RegField := ⟨0x24, 1, 1⟩
def R.PACE_FLAGS_BELOW_LR : RegField := ⟨0x24, 0, 0⟩
def R.PACE_METER_VALID : RegField := ⟨0x100, 31, 31⟩
def R.PACE_METER_CAL : RegField := ⟨0x100, 30, 30⟩
def R.PACE_METER_PACE : RegField := ⟨0x100, 15, 0⟩

/-- The registers of Tables 2.8 to 2.16. -/
def regsPACE : List RegDesc := [
  ⟨0x0, [], false,
    [⟨R.PACE_CTRL_POLICY, .rw, 0x0, .oneOf [0, 1, 2]⟩]⟩,
  ⟨0x4, [], false,
    [⟨R.PACE_TARGET_TARGET, .rw, 0xc1c, .range 1000 3400⟩]⟩,
  ⟨0x8, [], false,
    [⟨R.PACE_FOLLOW_FLOOR, .rw, 0x898, .range 1000 3400⟩, ⟨R.PACE_FOLLOW_HEADROOM, .rw, 0x19, .range 0 100⟩]⟩,
  ⟨0xc, [], false,
    [⟨R.PACE_CAP_CAP, .rw, 0x258, .range 250 600⟩]⟩,
  ⟨0x10, [], false,
    [⟨R.PACE_VLIMIT_VMAX, .rwl, 0x35c, .range 580 860⟩, ⟨R.PACE_VLIMIT_VMIN, .rwl, 0x244, .range 580 860⟩]⟩,
  ⟨0x14, [], false,
    [⟨R.PACE_LOCK_VLOCK, .rwl, 0x0, .any⟩]⟩,
  ⟨0x20, [], false,
    [⟨R.PACE_STATUS_VREQ, .ro, 0x0, .any⟩, ⟨R.PACE_STATUS_PACE_MIN, .ro, 0x0, .any⟩]⟩,
  ⟨0x24, [], false,
    [⟨R.PACE_FLAGS_AVS_LOST, .ro, 0x0, .any⟩, ⟨R.PACE_FLAGS_THROTTLE, .ro, 0x0, .any⟩, ⟨R.PACE_FLAGS_CAPPED, .ro, 0x0, .any⟩, ⟨R.PACE_FLAGS_TARGET_UNREACHED, .ro, 0x0, .any⟩, ⟨R.PACE_FLAGS_BELOW_LR, .ro, 0x0, .any⟩]⟩,
  ⟨0x100, [(0x4, 80)], false,
    [⟨R.PACE_METER_VALID, .ro, 0x0, .any⟩, ⟨R.PACE_METER_CAL, .ro, 0x0, .any⟩, ⟨R.PACE_METER_PACE, .ro, 0x0, .any⟩]⟩]

/-! ### PWR: Tables 2.17 and 20.8 -/

def R.PWR_DOM_ON0_ON : RegField := ⟨0x0, 31, 0⟩
def R.PWR_DOM_ON1_ON : RegField := ⟨0x4, 31, 0⟩
def R.PWR_DOM_ON2_ON : RegField := ⟨0x8, 15, 0⟩
def R.PWR_POWER_POWER : RegField := ⟨0x10, 19, 0⟩
def R.PWR_TJ_TJ : RegField := ⟨0x14, 7, 0⟩
def R.PWR_SURGE_ABOVE : RegField := ⟨0x18, 31, 16⟩
def R.PWR_SURGE_CREDIT : RegField := ⟨0x18, 15, 0⟩
def R.PWR_SURGE_COUNT_COUNT : RegField := ⟨0x20, 31, 0⟩
def R.PWR_PINS_ALIVE : RegField := ⟨0x24, 8, 8⟩
def R.PWR_PINS_DRAIN_DONE : RegField := ⟨0x24, 7, 7⟩
def R.PWR_PINS_BLEED_EN : RegField := ⟨0x24, 6, 6⟩
def R.PWR_PINS_CHG_EN : RegField := ⟨0x24, 5, 5⟩
def R.PWR_PINS_CISTERN_OK : RegField := ⟨0x24, 4, 4⟩
def R.PWR_PINS_POWER_FAIL_N : RegField := ⟨0x24, 3, 3⟩
def R.PWR_PINS_MAIN_PG : RegField := ⟨0x24, 2, 2⟩
def R.PWR_PINS_REF10M_OK : RegField := ⟨0x24, 1, 1⟩
def R.PWR_PINS_SENSE_OK : RegField := ⟨0x24, 0, 0⟩
def R.PWR_BUS_STAT_PMB1_LOST : RegField := ⟨0x28, 2, 2⟩
def R.PWR_BUS_STAT_PMB0_LOST : RegField := ⟨0x28, 1, 1⟩
def R.PWR_BUS_STAT_SMB_ISO : RegField := ⟨0x28, 0, 0⟩
def R.PWR_RAIL_MV : RegField := ⟨0x100, 31, 16⟩
def R.PWR_RAIL_CURRENT : RegField := ⟨0x100, 15, 0⟩

/-- The registers of Tables 2.17 and 20.8. -/
def regsPWR : List RegDesc := [
  ⟨0x0, [], false,
    [⟨R.PWR_DOM_ON0_ON, .ro, 0x1, .any⟩]⟩,
  ⟨0x4, [], false,
    [⟨R.PWR_DOM_ON1_ON, .ro, 0x0, .any⟩]⟩,
  ⟨0x8, [], false,
    [⟨R.PWR_DOM_ON2_ON, .ro, 0x0, .any⟩]⟩,
  ⟨0x10, [], false,
    [⟨R.PWR_POWER_POWER, .ro, 0x0, .any⟩]⟩,
  ⟨0x14, [], false,
    [⟨R.PWR_TJ_TJ, .ro, 0x0, .any⟩]⟩,
  ⟨0x18, [], false,
    [⟨R.PWR_SURGE_ABOVE, .ro, 0x0, .any⟩, ⟨R.PWR_SURGE_CREDIT, .ro, 0xfa0, .any⟩]⟩,
  ⟨0x20, [], false,
    [⟨R.PWR_SURGE_COUNT_COUNT, .rs, 0x0, .any⟩]⟩,
  ⟨0x24, [], false,
    [⟨R.PWR_PINS_ALIVE, .ro, 0x0, .any⟩, ⟨R.PWR_PINS_DRAIN_DONE, .ro, 0x0, .any⟩, ⟨R.PWR_PINS_BLEED_EN, .ro, 0x0, .any⟩, ⟨R.PWR_PINS_CHG_EN, .ro, 0x0, .any⟩, ⟨R.PWR_PINS_CISTERN_OK, .ro, 0x0, .any⟩, ⟨R.PWR_PINS_POWER_FAIL_N, .ro, 0x0, .any⟩, ⟨R.PWR_PINS_MAIN_PG, .ro, 0x0, .any⟩, ⟨R.PWR_PINS_REF10M_OK, .ro, 0x0, .any⟩, ⟨R.PWR_PINS_SENSE_OK, .ro, 0x0, .any⟩]⟩,
  ⟨0x28, [], false,
    [⟨R.PWR_BUS_STAT_PMB1_LOST, .ro, 0x0, .any⟩, ⟨R.PWR_BUS_STAT_PMB0_LOST, .ro, 0x0, .any⟩, ⟨R.PWR_BUS_STAT_SMB_ISO, .ro, 0x0, .any⟩]⟩,
  ⟨0x100, [(0x4, 11)], false,
    [⟨R.PWR_RAIL_MV, .ro, 0x0, .any⟩, ⟨R.PWR_RAIL_CURRENT, .ro, 0x0, .any⟩]⟩]

/-! ### WIDE: Table 3.2 -/

def R.WIDE_SEL_ADDR : RegField := ⟨0x40, 31, 0⟩
def R.WIDE_STAT_ERR : RegField := ⟨0x44, 1, 1⟩
def R.WIDE_STAT_VALID : RegField := ⟨0x44, 0, 0⟩
def R.WIDE_LO_LO : RegField := ⟨0x48, 31, 0⟩
def R.WIDE_HI_HI : RegField := ⟨0x4c, 31, 0⟩

/-- The registers of Table 3.2. -/
def regsWIDE : List RegDesc := [
  ⟨0x40, [], false,
    [⟨R.WIDE_SEL_ADDR, .rw, 0x0, .any⟩]⟩,
  ⟨0x44, [], false,
    [⟨R.WIDE_STAT_ERR, .ro, 0x0, .any⟩, ⟨R.WIDE_STAT_VALID, .ro, 0x0, .any⟩]⟩,
  ⟨0x48, [], true,
    [⟨R.WIDE_LO_LO, .ro, 0x0, .any⟩]⟩,
  ⟨0x4c, [], false,
    [⟨R.WIDE_HI_HI, .ro, 0x0, .any⟩]⟩]

/-! ### LKP: Tables 3.4a to 3.6 -/

def R.LKP_HMB_CTRL_VEC : RegField := ⟨0x4, 26, 16⟩
def R.LKP_HMB_CTRL_IRQ_EN : RegField := ⟨0x4, 0, 0⟩
def R.LKP_HMB_STATUS_MGEN : RegField := ⟨0x8, 31, 16⟩
def R.LKP_HMB_STATUS_DB_IGNORED : RegField := ⟨0x8, 3, 3⟩
def R.LKP_HMB_STATUS_TAG_BUSY_ERR : RegField := ⟨0x8, 2, 2⟩
def R.LKP_HMB_STATUS_NORES : RegField := ⟨0x8, 1, 1⟩
def R.LKP_HMB_STATUS_READY : RegField := ⟨0x8, 0, 0⟩
def R.LKP_HMB_RESBASE_LO_ADDR_LO : RegField := ⟨0x10, 31, 12⟩
def R.LKP_HMB_RESBASE_LO_EN : RegField := ⟨0x10, 0, 0⟩
def R.LKP_HMB_RESBASE_HI_ADDR_HI : RegField := ⟨0x14, 31, 0⟩
def R.LKP_HMB_DOORBELL_TAG : RegField := ⟨0x20, 3, 0⟩
def R.LKP_HMB_INFLIGHT_TAGS : RegField := ⟨0x24, 15, 0⟩

/-- The registers of Tables 3.4a to 3.6. -/
def regsLKP : List RegDesc := [
  ⟨0x4, [], false,
    [⟨R.LKP_HMB_CTRL_VEC, .rw, 0x0, .any⟩, ⟨R.LKP_HMB_CTRL_IRQ_EN, .rw, 0x0, .any⟩]⟩,
  ⟨0x8, [], false,
    [⟨R.LKP_HMB_STATUS_MGEN, .ro, 0x1, .any⟩, ⟨R.LKP_HMB_STATUS_DB_IGNORED, .w1c, 0x0, .any⟩, ⟨R.LKP_HMB_STATUS_TAG_BUSY_ERR, .w1c, 0x0, .any⟩, ⟨R.LKP_HMB_STATUS_NORES, .ro, 0x1, .any⟩, ⟨R.LKP_HMB_STATUS_READY, .ro, 0x0, .any⟩]⟩,
  ⟨0x10, [], true,
    [⟨R.LKP_HMB_RESBASE_LO_ADDR_LO, .rw, 0x0, .any⟩, ⟨R.LKP_HMB_RESBASE_LO_EN, .rw, 0x0, .any⟩]⟩,
  ⟨0x14, [], false,
    [⟨R.LKP_HMB_RESBASE_HI_ADDR_HI, .rw, 0x0, .any⟩]⟩,
  ⟨0x20, [], false,
    [⟨R.LKP_HMB_DOORBELL_TAG, .wo, 0x0, .any⟩]⟩,
  ⟨0x24, [], false,
    [⟨R.LKP_HMB_INFLIGHT_TAGS, .ro, 0x0, .any⟩]⟩]

/-! ### DEV: Tables 4.10 to 4.13 -/

def R.DEV_MODE_WRITEBACK : RegField := ⟨0x10, 11, 11⟩
def R.DEV_MODE_VAULT_PENDING : RegField := ⟨0x10, 10, 10⟩
def R.DEV_MODE_LATCHED : RegField := ⟨0x10, 9, 9⟩
def R.DEV_MODE_BUSY : RegField := ⟨0x10, 8, 8⟩
def R.DEV_MODE_TARGET : RegField := ⟨0x10, 6, 4⟩
def R.DEV_MODE_CODE : RegField := ⟨0x10, 2, 0⟩
def R.DEV_RESET_CAUSE_DRAIN_LATCHED : RegField := ⟨0x14, 6, 6⟩
def R.DEV_RESET_CAUSE_DRAIN_PIN : RegField := ⟨0x14, 5, 5⟩
def R.DEV_RESET_CAUSE_DRAIN_POWER : RegField := ⟨0x14, 4, 4⟩
def R.DEV_RESET_CAUSE_WARM_SURVEY : RegField := ⟨0x14, 3, 3⟩
def R.DEV_RESET_CAUSE_WARM_CMD : RegField := ⟨0x14, 2, 2⟩
def R.DEV_RESET_CAUSE_WARM_FATAL : RegField := ⟨0x14, 1, 1⟩
def R.DEV_RESET_CAUSE_COLD : RegField := ⟨0x14, 0, 0⟩
def R.DEV_BOOT_CFG_MEMTEST : RegField := ⟨0x18, 2, 2⟩
def R.DEV_BOOT_CFG_SURVEY : RegField := ⟨0x18, 1, 1⟩
def R.DEV_BOOT_CFG_AUTO_FLOW : RegField := ⟨0x18, 0, 0⟩
def R.DEV_TRICKLE_VALID1 : RegField := ⟨0x1c, 24, 24⟩
def R.DEV_TRICKLE_UPLINK1 : RegField := ⟨0x1c, 23, 16⟩
def R.DEV_TRICKLE_VALID0 : RegField := ⟨0x1c, 8, 8⟩
def R.DEV_TRICKLE_UPLINK0 : RegField := ⟨0x1c, 7, 0⟩

/-- The registers of Tables 4.10 to 4.13. -/
def regsDEV : List RegDesc := [
  ⟨0x10, [], false,
    [⟨R.DEV_MODE_WRITEBACK, .ro, 0x0, .any⟩, ⟨R.DEV_MODE_VAULT_PENDING, .ro, 0x0, .any⟩, ⟨R.DEV_MODE_LATCHED, .ro, 0x0, .any⟩, ⟨R.DEV_MODE_BUSY, .ro, 0x0, .any⟩, ⟨R.DEV_MODE_TARGET, .ro, 0x0, .any⟩, ⟨R.DEV_MODE_CODE, .ro, 0x0, .any⟩]⟩,
  ⟨0x14, [], false,
    [⟨R.DEV_RESET_CAUSE_DRAIN_LATCHED, .rs, 0x0, .any⟩, ⟨R.DEV_RESET_CAUSE_DRAIN_PIN, .rs, 0x0, .any⟩, ⟨R.DEV_RESET_CAUSE_DRAIN_POWER, .rs, 0x0, .any⟩, ⟨R.DEV_RESET_CAUSE_WARM_SURVEY, .rs, 0x0, .any⟩, ⟨R.DEV_RESET_CAUSE_WARM_CMD, .rs, 0x0, .any⟩, ⟨R.DEV_RESET_CAUSE_WARM_FATAL, .rs, 0x0, .any⟩, ⟨R.DEV_RESET_CAUSE_COLD, .rs, 0x1, .any⟩]⟩,
  ⟨0x18, [], false,
    [⟨R.DEV_BOOT_CFG_MEMTEST, .ro, 0x0, .any⟩, ⟨R.DEV_BOOT_CFG_SURVEY, .ro, 0x0, .any⟩, ⟨R.DEV_BOOT_CFG_AUTO_FLOW, .ro, 0x0, .any⟩]⟩,
  ⟨0x1c, [], false,
    [⟨R.DEV_TRICKLE_VALID1, .rw, 0x0, .any⟩, ⟨R.DEV_TRICKLE_UPLINK1, .rw, 0x0, .any⟩, ⟨R.DEV_TRICKLE_VALID0, .rw, 0x0, .any⟩, ⟨R.DEV_TRICKLE_UPLINK0, .rw, 0x0, .any⟩]⟩]

/-! ### ETH: Tables 5.6 to 5.9 -/

def R.ETH_LG_CFG_SPAN8 : RegField := ⟨0x0, 10, 10⟩
def R.ETH_LG_CFG_LANE_RATE : RegField := ⟨0x0, 9, 8⟩
def R.ETH_LG_CFG_LAYOUT : RegField := ⟨0x0, 7, 0⟩
def R.ETH_PORT_CFG_EN : RegField := ⟨0x10, 31, 31⟩
def R.ETH_PORT_CFG_MACSEC : RegField := ⟨0x10, 30, 30⟩
def R.ETH_PORT_CFG_PTP_CLEAR : RegField := ⟨0x10, 29, 29⟩
def R.ETH_PORT_CFG_FEC : RegField := ⟨0x10, 28, 27⟩
def R.ETH_PORT_CFG_FC : RegField := ⟨0x10, 26, 25⟩
def R.ETH_PORT_CFG_PFC_EN : RegField := ⟨0x10, 24, 17⟩
def R.ETH_PORT_CFG_MAX_FRAME : RegField := ⟨0x10, 13, 0⟩
def R.ETH_PORT_STATUS_REMOTE_FAULT : RegField := ⟨0x20, 4, 4⟩
def R.ETH_PORT_STATUS_HI_BER : RegField := ⟨0x20, 3, 3⟩
def R.ETH_PORT_STATUS_AN_DONE : RegField := ⟨0x20, 2, 2⟩
def R.ETH_PORT_STATUS_ALIGNED : RegField := ⟨0x20, 1, 1⟩
def R.ETH_PORT_STATUS_LINK_UP : RegField := ⟨0x20, 0, 0⟩
def R.ETH_SPREAD_IN_LO_BKT : RegField := ⟨0x40, 31, 0⟩
def R.ETH_SPREAD_IN_HI_BKT : RegField := ⟨0x44, 31, 0⟩
def R.ETH_SPREAD_EG_LO_BKT : RegField := ⟨0x48, 31, 0⟩
def R.ETH_SPREAD_EG_HI_BKT : RegField := ⟨0x4c, 31, 0⟩
def R.ETH_PN_WARN_LO_PN : RegField := ⟨0x50, 31, 0⟩
def R.ETH_PN_WARN_HI_PN : RegField := ⟨0x54, 31, 0⟩
def R.ETH_MOD_CFG_MOD_BUDGET : RegField := ⟨0x60, 7, 0⟩
def R.ETH_MOD_STATUS_ISOLATED : RegField := ⟨0x64, 3, 3⟩
def R.ETH_MOD_STATUS_TRIP : RegField := ⟨0x64, 2, 2⟩
def R.ETH_MOD_STATUS_FEED_ON : RegField := ⟨0x64, 1, 1⟩
def R.ETH_MOD_STATUS_PRESENT : RegField := ⟨0x64, 0, 0⟩

/-- The registers of Tables 5.6 to 5.9. -/
def regsETH : List RegDesc := [
  ⟨0x0, [], false,
    [⟨R.ETH_LG_CFG_SPAN8, .rw, 0x0, .any⟩, ⟨R.ETH_LG_CFG_LANE_RATE, .rw, 0x3, .any⟩, ⟨R.ETH_LG_CFG_LAYOUT, .rw, 0x0, .any⟩]⟩,
  ⟨0x10, [(0x4, 4)], false,
    [⟨R.ETH_PORT_CFG_EN, .rw, 0x0, .any⟩, ⟨R.ETH_PORT_CFG_MACSEC, .rw, 0x0, .any⟩, ⟨R.ETH_PORT_CFG_PTP_CLEAR, .rw, 0x0, .any⟩, ⟨R.ETH_PORT_CFG_FEC, .rw, 0x0, .any⟩, ⟨R.ETH_PORT_CFG_FC, .rw, 0x0, .oneOf [0, 1, 2]⟩, ⟨R.ETH_PORT_CFG_PFC_EN, .rw, 0x0, .any⟩, ⟨R.ETH_PORT_CFG_MAX_FRAME, .rw, 0x2400, .range 1518 10240⟩]⟩,
  ⟨0x20, [(0x4, 4)], false,
    [⟨R.ETH_PORT_STATUS_REMOTE_FAULT, .ro, 0x0, .any⟩, ⟨R.ETH_PORT_STATUS_HI_BER, .ro, 0x0, .any⟩, ⟨R.ETH_PORT_STATUS_AN_DONE, .ro, 0x0, .any⟩, ⟨R.ETH_PORT_STATUS_ALIGNED, .ro, 0x0, .any⟩, ⟨R.ETH_PORT_STATUS_LINK_UP, .ro, 0x0, .any⟩]⟩,
  ⟨0x40, [], true,
    [⟨R.ETH_SPREAD_IN_LO_BKT, .rw, 0x0, .any⟩]⟩,
  ⟨0x44, [], false,
    [⟨R.ETH_SPREAD_IN_HI_BKT, .rw, 0x0, .any⟩]⟩,
  ⟨0x48, [], true,
    [⟨R.ETH_SPREAD_EG_LO_BKT, .rw, 0x0, .any⟩]⟩,
  ⟨0x4c, [], false,
    [⟨R.ETH_SPREAD_EG_HI_BKT, .rw, 0x0, .any⟩]⟩,
  ⟨0x50, [], true,
    [⟨R.ETH_PN_WARN_LO_PN, .rw, 0x0, .any⟩]⟩,
  ⟨0x54, [], false,
    [⟨R.ETH_PN_WARN_HI_PN, .rw, 0xc0000000, .any⟩]⟩,
  ⟨0x60, [], false,
    [⟨R.ETH_MOD_CFG_MOD_BUDGET, .rw, 0x0, .range 0 40⟩]⟩,
  ⟨0x64, [], false,
    [⟨R.ETH_MOD_STATUS_ISOLATED, .ro, 0x0, .any⟩, ⟨R.ETH_MOD_STATUS_TRIP, .ro, 0x0, .any⟩, ⟨R.ETH_MOD_STATUS_FEED_ON, .ro, 0x0, .any⟩, ⟨R.ETH_MOD_STATUS_PRESENT, .ro, 0x0, .any⟩]⟩]

/-! ### HUSK: Tables 6.10 to 6.17 -/

def R.HUSK_CFG_ACTIVE_BANK : RegField := ⟨0x0, 1, 1⟩
def R.HUSK_CFG_LONG_REACH : RegField := ⟨0x0, 0, 0⟩
def R.HUSK_START_CORE_START : RegField := ⟨0x4, 23, 16⟩
def R.HUSK_START_HOST_START : RegField := ⟨0x4, 15, 8⟩
def R.HUSK_START_ETH_START : RegField := ⟨0x4, 7, 0⟩
def R.HUSK_HASH_SEED_SEED : RegField := ⟨0xc, 31, 0⟩
def R.HUSK_MAL_ACT_ACT_UNKNOWN : RegField := ⟨0x10, 15, 14⟩
def R.HUSK_MAL_ACT_ACT_DEPTH : RegField := ⟨0x10, 13, 12⟩
def R.HUSK_MAL_ACT_ACT_CSUM : RegField := ⟨0x10, 11, 10⟩
def R.HUSK_MAL_ACT_ACT_VALUE : RegField := ⟨0x10, 9, 8⟩
def R.HUSK_MAL_ACT_ACT_LENGTH : RegField := ⟨0x10, 7, 6⟩
def R.HUSK_MAL_ACT_ACT_TRUNC : RegField := ⟨0x10, 5, 4⟩
def R.HUSK_MAL_ACT_ACT_BEYOND : RegField := ⟨0x10, 3, 2⟩
def R.HUSK_STATUS_LR_ACTIVE : RegField := ⟨0x14, 0, 0⟩
def R.HUSK_MEM_ADDR_BANK : RegField := ⟨0x20, 13, 13⟩
def R.HUSK_MEM_ADDR_MEM : RegField := ⟨0x20, 12, 11⟩
def R.HUSK_MEM_ADDR_INDEX : RegField := ⟨0x20, 10, 0⟩
def R.HUSK_MEM_CMD_WRITE : RegField := ⟨0x24, 1, 1⟩
def R.HUSK_MEM_CMD_READ : RegField := ⟨0x24, 0, 0⟩
def R.HUSK_MEM_DATA_DATA : RegField := ⟨0x30, 31, 0⟩

/-- The registers of Tables 6.10 to 6.17. -/
def regsHUSK : List RegDesc := [
  ⟨0x0, [], false,
    [⟨R.HUSK_CFG_ACTIVE_BANK, .ro, 0x0, .any⟩, ⟨R.HUSK_CFG_LONG_REACH, .rw, 0x0, .any⟩]⟩,
  ⟨0x4, [(0x4, 2)], false,
    [⟨R.HUSK_START_CORE_START, .rw, 0x0, .any⟩, ⟨R.HUSK_START_HOST_START, .rw, 0x0, .any⟩, ⟨R.HUSK_START_ETH_START, .rw, 0x0, .any⟩]⟩,
  ⟨0xc, [], false,
    [⟨R.HUSK_HASH_SEED_SEED, .rw, 0xffffffff, .any⟩]⟩,
  ⟨0x10, [], false,
    [⟨R.HUSK_MAL_ACT_ACT_UNKNOWN, .rw, 0x1, .any⟩, ⟨R.HUSK_MAL_ACT_ACT_DEPTH, .rw, 0x1, .any⟩, ⟨R.HUSK_MAL_ACT_ACT_CSUM, .rw, 0x0, .any⟩, ⟨R.HUSK_MAL_ACT_ACT_VALUE, .rw, 0x0, .any⟩, ⟨R.HUSK_MAL_ACT_ACT_LENGTH, .rw, 0x0, .any⟩, ⟨R.HUSK_MAL_ACT_ACT_TRUNC, .rw, 0x0, .any⟩, ⟨R.HUSK_MAL_ACT_ACT_BEYOND, .rw, 0x1, .any⟩]⟩,
  ⟨0x14, [], false,
    [⟨R.HUSK_STATUS_LR_ACTIVE, .ro, 0x0, .any⟩]⟩,
  ⟨0x20, [], false,
    [⟨R.HUSK_MEM_ADDR_BANK, .rw, 0x0, .any⟩, ⟨R.HUSK_MEM_ADDR_MEM, .rw, 0x0, .oneOf [0, 1, 2]⟩, ⟨R.HUSK_MEM_ADDR_INDEX, .rw, 0x0, .any⟩]⟩,
  ⟨0x24, [], false,
    [⟨R.HUSK_MEM_CMD_WRITE, .wo, 0x0, .any⟩, ⟨R.HUSK_MEM_CMD_READ, .wo, 0x0, .any⟩]⟩,
  ⟨0x30, [(0x4, 4)], false,
    [⟨R.HUSK_MEM_DATA_DATA, .rw, 0x0, .any⟩]⟩]

/-! ### GATE: Table 7.16 (HDR and TLR) -/

def R.MC_CTRL_DRAINED : RegField := ⟨0x0, 3, 3⟩
def R.MC_CTRL_FLIP : RegField := ⟨0x0, 2, 2⟩
def R.MC_CTRL_FLIP_PEND : RegField := ⟨0x0, 1, 1⟩
def R.MC_CTRL_ACTIVE_BANK : RegField := ⟨0x0, 0, 0⟩
def R.G_LIMIT_LIMIT : RegField := ⟨0x4, 13, 0⟩
def R.BARRIER_DONE : RegField := ⟨0x8, 1, 1⟩
def R.BARRIER_REQ : RegField := ⟨0x8, 0, 0⟩
def R.ABORT_ACTIVE : RegField := ⟨0xc, 1, 1⟩
def R.ABORT_REQ : RegField := ⟨0xc, 0, 0⟩
def R.MC_ADDR_BANK : RegField := ⟨0x10, 20, 20⟩
def R.MC_ADDR_GATE : RegField := ⟨0x10, 19, 16⟩
def R.MC_ADDR_WORD : RegField := ⟨0x10, 12, 0⟩
def R.MC_CMD_WRITE : RegField := ⟨0x14, 1, 1⟩
def R.MC_CMD_READ : RegField := ⟨0x14, 0, 0⟩
def R.MC_DATA_DATA : RegField := ⟨0x20, 31, 0⟩
def R.ED_ADDR_BANK : RegField := ⟨0x40, 14, 14⟩
def R.ED_ADDR_MEM : RegField := ⟨0x40, 13, 13⟩
def R.ED_ADDR_INDEX : RegField := ⟨0x40, 12, 0⟩
def R.ED_CMD_WRITE : RegField := ⟨0x44, 1, 1⟩
def R.ED_CMD_READ : RegField := ⟨0x44, 0, 0⟩
def R.ED_DATA_DATA : RegField := ⟨0x48, 31, 0⟩
def R.G_ENTRY_ENTRY : RegField := ⟨0x100, 12, 0⟩

/-- The registers of Table 7.16 (HDR and TLR). -/
def regsGATE : List RegDesc := [
  ⟨0x0, [], false,
    [⟨R.MC_CTRL_DRAINED, .ro, 0x1, .any⟩, ⟨R.MC_CTRL_FLIP, .wo, 0x0, .any⟩, ⟨R.MC_CTRL_FLIP_PEND, .ro, 0x0, .any⟩, ⟨R.MC_CTRL_ACTIVE_BANK, .ro, 0x0, .any⟩]⟩,
  ⟨0x4, [], false,
    [⟨R.G_LIMIT_LIMIT, .rw, 0x100, .range 16 8192⟩]⟩,
  ⟨0x8, [], false,
    [⟨R.BARRIER_DONE, .ro, 0x1, .any⟩, ⟨R.BARRIER_REQ, .wo, 0x0, .any⟩]⟩,
  ⟨0xc, [], false,
    [⟨R.ABORT_ACTIVE, .ro, 0x0, .any⟩, ⟨R.ABORT_REQ, .wo, 0x0, .any⟩]⟩,
  ⟨0x10, [], false,
    [⟨R.MC_ADDR_BANK, .rw, 0x0, .any⟩, ⟨R.MC_ADDR_GATE, .rw, 0x0, .any⟩, ⟨R.MC_ADDR_WORD, .rw, 0x0, .any⟩]⟩,
  ⟨0x14, [], false,
    [⟨R.MC_CMD_WRITE, .wo, 0x0, .any⟩, ⟨R.MC_CMD_READ, .wo, 0x0, .any⟩]⟩,
  ⟨0x20, [(0x4, 6)], false,
    [⟨R.MC_DATA_DATA, .rw, 0x0, .any⟩]⟩,
  ⟨0x40, [], false,
    [⟨R.ED_ADDR_BANK, .rw, 0x0, .any⟩, ⟨R.ED_ADDR_MEM, .rw, 0x0, .any⟩, ⟨R.ED_ADDR_INDEX, .rw, 0x0, .any⟩]⟩,
  ⟨0x44, [], false,
    [⟨R.ED_CMD_WRITE, .wo, 0x0, .any⟩, ⟨R.ED_CMD_READ, .wo, 0x0, .any⟩]⟩,
  ⟨0x48, [(0x4, 2)], false,
    [⟨R.ED_DATA_DATA, .rw, 0x0, .any⟩]⟩,
  ⟨0x100, [(0x8, 12), (0x4, 2)], false,
    [⟨R.G_ENTRY_ENTRY, .rw, 0x7ff, .any⟩]⟩]

/-! ### SEED: Tables 7.18, 8.9 and 10.8 -/

def R.SEED_CNT_ADDR_INDEX : RegField := ⟨0x240, 17, 0⟩
def R.SEED_CNT_CMD_CLEAR : RegField := ⟨0x244, 1, 1⟩
def R.SEED_CNT_CMD_READ : RegField := ⟨0x244, 0, 0⟩
def R.SEED_CNT_DATA_DATA : RegField := ⟨0x250, 31, 0⟩
def R.SEED_CFG_AGE_PERIOD : RegField := ⟨0x0, 31, 16⟩
def R.SEED_CFG_LF_HOLD : RegField := ⟨0x0, 15, 8⟩
def R.SEED_CFG_LEARN_EN : RegField := ⟨0x0, 0, 0⟩
def R.SEED_STATUS_RETIRED : RegField := ⟨0x4, 31, 24⟩
def R.SEED_STATUS_USED : RegField := ⟨0x4, 17, 0⟩
def R.SEED_VERSION_VERSION : RegField := ⟨0x8, 31, 0⟩
def R.SEED_NQ_FILL : RegField := ⟨0xc, 12, 0⟩
def R.SEED_ENT_ADDR_INDEX : RegField := ⟨0x10, 16, 0⟩
def R.SEED_ENT_CMD_WRITE : RegField := ⟨0x14, 1, 1⟩
def R.SEED_ENT_CMD_READ : RegField := ⟨0x14, 0, 0⟩
def R.SEED_ENT_DATA_DATA : RegField := ⟨0x20, 31, 0⟩
def R.SEED_MTR_ADDR_INDEX : RegField := ⟨0x200, 17, 0⟩
def R.SEED_MTR_CMD_WRITE : RegField := ⟨0x204, 1, 1⟩
def R.SEED_MTR_CMD_READ : RegField := ⟨0x204, 0, 0⟩
def R.SEED_MTR_DATA_DATA : RegField := ⟨0x210, 31, 0⟩

/-- The registers of Tables 7.18, 8.9 and 10.8. -/
def regsSEED : List RegDesc := [
  ⟨0x240, [], false,
    [⟨R.SEED_CNT_ADDR_INDEX, .rw, 0x0, .any⟩]⟩,
  ⟨0x244, [], false,
    [⟨R.SEED_CNT_CMD_CLEAR, .wo, 0x0, .any⟩, ⟨R.SEED_CNT_CMD_READ, .wo, 0x0, .any⟩]⟩,
  ⟨0x250, [(0x4, 4)], false,
    [⟨R.SEED_CNT_DATA_DATA, .ro, 0x0, .any⟩]⟩,
  ⟨0x0, [], false,
    [⟨R.SEED_CFG_AGE_PERIOD, .rw, 0x64, .range 0 1000⟩, ⟨R.SEED_CFG_LF_HOLD, .rw, 0xa, .range 1 255⟩, ⟨R.SEED_CFG_LEARN_EN, .rw, 0x0, .any⟩]⟩,
  ⟨0x4, [], false,
    [⟨R.SEED_STATUS_RETIRED, .ro, 0x0, .any⟩, ⟨R.SEED_STATUS_USED, .ro, 0x0, .any⟩]⟩,
  ⟨0x8, [], false,
    [⟨R.SEED_VERSION_VERSION, .ro, 0x0, .any⟩]⟩,
  ⟨0xc, [], false,
    [⟨R.SEED_NQ_FILL, .ro, 0x0, .any⟩]⟩,
  ⟨0x10, [], false,
    [⟨R.SEED_ENT_ADDR_INDEX, .rw, 0x0, .any⟩]⟩,
  ⟨0x14, [], false,
    [⟨R.SEED_ENT_CMD_WRITE, .wo, 0x0, .any⟩, ⟨R.SEED_ENT_CMD_READ, .wo, 0x0, .any⟩]⟩,
  ⟨0x20, [(0x4, 6)], false,
    [⟨R.SEED_ENT_DATA_DATA, .rw, 0x0, .any⟩]⟩,
  ⟨0x200, [], false,
    [⟨R.SEED_MTR_ADDR_INDEX, .rw, 0x0, .any⟩]⟩,
  ⟨0x204, [], false,
    [⟨R.SEED_MTR_CMD_WRITE, .wo, 0x0, .any⟩, ⟨R.SEED_MTR_CMD_READ, .wo, 0x0, .any⟩]⟩,
  ⟨0x210, [(0x4, 8)], false,
    [⟨R.SEED_MTR_DATA_DATA, .rw, 0x0, .any⟩]⟩]

/-! ### SIEV: Table 8.10 -/

def R.SIEV_BANK_CFG_WIDTH : RegField := ⟨0x0, 31, 0⟩
def R.SIEV_STATUS_RETIRED : RegField := ⟨0x4, 31, 24⟩
def R.SIEV_STATUS_USED : RegField := ⟨0x4, 16, 0⟩
def R.SIEV_ENT_ADDR_ADDR : RegField := ⟨0x10, 16, 0⟩
def R.SIEV_ENT_CMD_CLEAR : RegField := ⟨0x14, 2, 2⟩
def R.SIEV_ENT_CMD_WRITE : RegField := ⟨0x14, 1, 1⟩
def R.SIEV_ENT_CMD_READ : RegField := ⟨0x14, 0, 0⟩
def R.SIEV_ENT_CTRL_VALID : RegField := ⟨0x18, 31, 31⟩
def R.SIEV_ENT_ACTION_ACTION : RegField := ⟨0x1c, 31, 0⟩
def R.SIEV_ENT_VAL_VAL : RegField := ⟨0x40, 31, 0⟩
def R.SIEV_ENT_MSK_MSK : RegField := ⟨0x80, 31, 0⟩
def R.SIEV_PROF_EN : RegField := ⟨0x100, 31, 31⟩
def R.SIEV_PROF_MODE : RegField := ⟨0x100, 30, 30⟩
def R.SIEV_PROF_WIDTH : RegField := ⟨0x100, 29, 28⟩
def R.SIEV_PROF_BANKS : RegField := ⟨0x100, 15, 0⟩

/-- The registers of Table 8.10. -/
def regsSIEV : List RegDesc := [
  ⟨0x0, [], false,
    [⟨R.SIEV_BANK_CFG_WIDTH, .rw, 0x0, .pairs⟩]⟩,
  ⟨0x4, [], false,
    [⟨R.SIEV_STATUS_RETIRED, .ro, 0x0, .any⟩, ⟨R.SIEV_STATUS_USED, .ro, 0x0, .any⟩]⟩,
  ⟨0x10, [], false,
    [⟨R.SIEV_ENT_ADDR_ADDR, .rw, 0x0, .range 0 98303⟩]⟩,
  ⟨0x14, [], false,
    [⟨R.SIEV_ENT_CMD_CLEAR, .wo, 0x0, .any⟩, ⟨R.SIEV_ENT_CMD_WRITE, .wo, 0x0, .any⟩, ⟨R.SIEV_ENT_CMD_READ, .wo, 0x0, .any⟩]⟩,
  ⟨0x18, [], false,
    [⟨R.SIEV_ENT_CTRL_VALID, .rw, 0x0, .any⟩]⟩,
  ⟨0x1c, [], false,
    [⟨R.SIEV_ENT_ACTION_ACTION, .rw, 0x0, .any⟩]⟩,
  ⟨0x40, [(0x4, 10)], false,
    [⟨R.SIEV_ENT_VAL_VAL, .rw, 0x0, .any⟩]⟩,
  ⟨0x80, [(0x4, 10)], false,
    [⟨R.SIEV_ENT_MSK_MSK, .rw, 0x0, .any⟩]⟩,
  ⟨0x100, [(0x4, 16)], false,
    [⟨R.SIEV_PROF_EN, .rw, 0x0, .any⟩, ⟨R.SIEV_PROF_MODE, .rw, 0x0, .any⟩, ⟨R.SIEV_PROF_WIDTH, .rw, 0x0, .oneOf [0, 1, 2]⟩, ⟨R.SIEV_PROF_BANKS, .rw, 0x0, .any⟩]⟩]

/-! ### RSVHT: Table 8.11 (in RSV of S1) -/

def R.RSV_HT_CFG_EN : RegField := ⟨0x200, 31, 31⟩
def R.RSV_HT_CFG_K : RegField := ⟨0x200, 26, 24⟩
def R.RSV_HT_CFG_LOG2 : RegField := ⟨0x200, 20, 16⟩
def R.RSV_HT_CFG_BASE : RegField := ⟨0x200, 15, 0⟩
def R.RSV_HT_IDLE_IDLE : RegField := ⟨0x204, 31, 0⟩
def R.RSV_HT_SEED_SEED : RegField := ⟨0x208, 31, 0⟩

/-- The registers of Table 8.11 (in RSV of S1). -/
def regsRSVHT : List RegDesc := [
  ⟨0x200, [(0x10, 8)], false,
    [⟨R.RSV_HT_CFG_EN, .rw, 0x0, .any⟩, ⟨R.RSV_HT_CFG_K, .rw, 0x1, .range 1 5⟩, ⟨R.RSV_HT_CFG_LOG2, .rw, 0xa, .range 10 28⟩, ⟨R.RSV_HT_CFG_BASE, .rw, 0x0, .any⟩]⟩,
  ⟨0x204, [(0x10, 8)], false,
    [⟨R.RSV_HT_IDLE_IDLE, .rw, 0x0, .any⟩]⟩,
  ⟨0x208, [(0x10, 8)], false,
    [⟨R.RSV_HT_SEED_SEED, .rw, 0x0, .any⟩]⟩]

/-! ### WEIR: Table 9.5 -/

def R.WEIR_CFG_STRICT : RegField := ⟨0x0, 7, 0⟩
def R.WEIR_SLOTS_RATE : RegField := ⟨0x4, 15, 0⟩
def R.WEIR_BUF_CFG_HDRM_POOL : RegField := ⟨0x10, 31, 16⟩
def R.WEIR_BUF_CFG_GUAR : RegField := ⟨0x10, 7, 0⟩
def R.WEIR_POOL_FREE : RegField := ⟨0x20, 17, 0⟩
def R.WEIR_ALPHA_K : RegField := ⟨0x30, 31, 0⟩
def R.WEIR_RSVQ_CLASSES : RegField := ⟨0x34, 23, 16⟩
def R.WEIR_RSVQ_SPILL_TH : RegField := ⟨0x34, 15, 0⟩
def R.WEIR_RSVQ_MAX_MAX : RegField := ⟨0x38, 15, 0⟩
def R.WEIR_RSVQ_FREE_PAGES : RegField := ⟨0x3c, 31, 0⟩
def R.WEIR_QUANTUM_QUANTUM : RegField := ⟨0x40, 7, 0⟩
def R.WEIR_RED_LIM_MAX : RegField := ⟨0x400, 31, 16⟩
def R.WEIR_RED_LIM_MIN : RegField := ⟨0x400, 15, 0⟩
def R.WEIR_RED_P_MAXP : RegField := ⟨0x404, 7, 0⟩
def R.WEIR_TC_RED_PROF : RegField := ⟨0x1000, 31, 28⟩
def R.WEIR_TC_WEIGHT : RegField := ⟨0x1000, 27, 24⟩
def R.WEIR_TC_ECN_TH : RegField := ⟨0x1000, 23, 0⟩
def R.WEIR_PFC_XON : RegField := ⟨0x3000, 31, 16⟩
def R.WEIR_PFC_XOFF : RegField := ⟨0x3000, 15, 0⟩
def R.WEIR_PFC_HDRM_HDRM : RegField := ⟨0x3004, 15, 0⟩
def R.WEIR_HPFC_XON : RegField := ⟨0x3800, 31, 16⟩
def R.WEIR_HPFC_XOFF : RegField := ⟨0x3800, 15, 0⟩
def R.WEIR_HPFC_HDRM_HDRM : RegField := ⟨0x3804, 15, 0⟩
def R.WEIR_GRP_ADDR_MEM : RegField := ⟨0x80, 16, 16⟩
def R.WEIR_GRP_ADDR_INDEX : RegField := ⟨0x80, 15, 0⟩
def R.WEIR_GRP_CMD_CMD : RegField := ⟨0x84, 1, 0⟩
def R.WEIR_GRP_DATA_DATA : RegField := ⟨0x88, 31, 0⟩

/-- The registers of Table 9.5, part 1. -/
def regsWEIR1 : List RegDesc := [
  ⟨0x0, [], false,
    [⟨R.WEIR_CFG_STRICT, .rw, 0x80, .any⟩]⟩,
  ⟨0x4, [], false,
    [⟨R.WEIR_SLOTS_RATE, .ro, 0x0, .any⟩]⟩,
  ⟨0x10, [(0x4, 4)], false,
    [⟨R.WEIR_BUF_CFG_HDRM_POOL, .rw, 0x4000, .any⟩, ⟨R.WEIR_BUF_CFG_GUAR, .rw, 0x4, .any⟩]⟩,
  ⟨0x20, [(0x4, 4)], false,
    [⟨R.WEIR_POOL_FREE, .ro, 0x0, .any⟩]⟩,
  ⟨0x30, [], false,
    [⟨R.WEIR_ALPHA_K, .rw, 0x0, .nibbles⟩]⟩,
  ⟨0x34, [], false,
    [⟨R.WEIR_RSVQ_CLASSES, .rw, 0x0, .any⟩, ⟨R.WEIR_RSVQ_SPILL_TH, .rw, 0x800, .any⟩]⟩,
  ⟨0x38, [], false,
    [⟨R.WEIR_RSVQ_MAX_MAX, .rw, 0x100, .range 1 16384⟩]⟩,
  ⟨0x3c, [], false,
    [⟨R.WEIR_RSVQ_FREE_PAGES, .ro, 0x0, .any⟩]⟩,
  ⟨0x40, [(0x4, 8)], false,
    [⟨R.WEIR_QUANTUM_QUANTUM, .rw, 0x4, .range 1 255⟩]⟩,
  ⟨0x400, [(0x20, 16), (0x8, 3)], false,
    [⟨R.WEIR_RED_LIM_MAX, .rw, 0xffff, .any⟩, ⟨R.WEIR_RED_LIM_MIN, .rw, 0xffff, .any⟩]⟩,
  ⟨0x404, [(0x20, 16), (0x8, 3)], false,
    [⟨R.WEIR_RED_P_MAXP, .rw, 0x0, .any⟩]⟩,
  ⟨0x1000, [(0x4, 128)], false,
    [⟨R.WEIR_TC_RED_PROF, .rw, 0x0, .any⟩, ⟨R.WEIR_TC_WEIGHT, .rw, 0x4, .any⟩, ⟨R.WEIR_TC_ECN_TH, .rw, 0xffffff, .any⟩]⟩,
  ⟨0x3000, [(0x10, 96)], false,
    [⟨R.WEIR_PFC_XON, .rw, 0x300, .any⟩, ⟨R.WEIR_PFC_XOFF, .rw, 0x400, .any⟩]⟩,
  ⟨0x3004, [(0x10, 96)], false,
    [⟨R.WEIR_PFC_HDRM_HDRM, .rw, 0x400, .any⟩]⟩,
  ⟨0x3800, [(0x10, 16)], false,
    [⟨R.WEIR_HPFC_XON, .rw, 0x300, .any⟩, ⟨R.WEIR_HPFC_XOFF, .rw, 0x400, .any⟩]⟩,
  ⟨0x3804, [(0x10, 16)], false,
    [⟨R.WEIR_HPFC_HDRM_HDRM, .rw, 0x100, .any⟩]⟩]


/-- The registers of Table 9.5, part 2. -/
def regsWEIR2 : List RegDesc := [
  ⟨0x80, [], false,
    [⟨R.WEIR_GRP_ADDR_MEM, .rw, 0x0, .any⟩, ⟨R.WEIR_GRP_ADDR_INDEX, .rw, 0x0, .any⟩]⟩,
  ⟨0x84, [], false,
    [⟨R.WEIR_GRP_CMD_CMD, .wo, 0x0, .any⟩]⟩,
  ⟨0x88, [], false,
    [⟨R.WEIR_GRP_DATA_DATA, .rw, 0x0, .any⟩]⟩]

/-- The registers of Table 9.5. -/
def regsWEIR : List RegDesc := regsWEIR1 ++ regsWEIR2

/-! ### TAP: Table 9.6 -/

def R.TAP_SAMP_EN : RegField := ⟨0x400, 31, 31⟩
def R.TAP_SAMP_RANDOM : RegField := ⟨0x400, 30, 30⟩
def R.TAP_SAMP_RING : RegField := ⟨0x400, 29, 26⟩
def R.TAP_SAMP_N : RegField := ⟨0x400, 23, 0⟩
def R.TAP_RING_BASE_LO_BASE : RegField := ⟨0x0, 31, 0⟩
def R.TAP_RING_BASE_HI_BASE : RegField := ⟨0x4, 31, 0⟩
def R.TAP_RING_SIZE_SIZE : RegField := ⟨0x8, 4, 0⟩
def R.TAP_RING_PROD_PROD : RegField := ⟨0xc, 31, 0⟩
def R.TAP_RING_CONS_CONS : RegField := ⟨0x10, 31, 0⟩

/-- The registers of Table 9.6. -/
def regsTAP : List RegDesc := [
  ⟨0x400, [(0x4, 256)], false,
    [⟨R.TAP_SAMP_EN, .rw, 0x0, .any⟩, ⟨R.TAP_SAMP_RANDOM, .rw, 0x0, .any⟩, ⟨R.TAP_SAMP_RING, .rw, 0x0, .any⟩, ⟨R.TAP_SAMP_N, .rw, 0x1, .range 1 16777215⟩]⟩,
  ⟨0x0, [(0x20, 16)], true,
    [⟨R.TAP_RING_BASE_LO_BASE, .rw, 0x0, .any⟩]⟩,
  ⟨0x4, [(0x20, 16)], false,
    [⟨R.TAP_RING_BASE_HI_BASE, .rw, 0x0, .any⟩]⟩,
  ⟨0x8, [(0x20, 16)], false,
    [⟨R.TAP_RING_SIZE_SIZE, .rw, 0x6, .range 6 24⟩]⟩,
  ⟨0xc, [(0x20, 16)], false,
    [⟨R.TAP_RING_PROD_PROD, .ro, 0x0, .any⟩]⟩,
  ⟨0x10, [(0x20, 16)], false,
    [⟨R.TAP_RING_CONS_CONS, .rw, 0x0, .any⟩]⟩]

/-! ### EGR: Table 10.7 (TLR) -/

def R.TLR_SLOT_CFG_EN : RegField := ⟨0x2000, 31, 31⟩
def R.TLR_SLOT_CFG_PORT : RegField := ⟨0x2000, 23, 16⟩
def R.TLR_SLOT_CFG_STRICT : RegField := ⟨0x2000, 15, 8⟩
def R.TLR_SLOT_CFG_OVERHEAD : RegField := ⟨0x2000, 6, 0⟩
def R.TLR_SLOT_SHP_SHP_EN : RegField := ⟨0x2004, 31, 31⟩
def R.TLR_SLOT_SHP_INC : RegField := ⟨0x2004, 23, 0⟩
def R.TLR_SLOT_BURST_BURST : RegField := ⟨0x2008, 15, 0⟩
def R.TLR_SLOT_STATUS_PAUSED : RegField := ⟨0x200c, 23, 16⟩
def R.TLR_SLOT_STATUS_NEG : RegField := ⟨0x200c, 15, 8⟩
def R.TLR_SLOT_STATUS_BACKLOG : RegField := ⟨0x200c, 7, 0⟩
def R.TLR_Q_SHP_SHP_EN : RegField := ⟨0x2010, 31, 31⟩
def R.TLR_Q_SHP_INC : RegField := ⟨0x2010, 23, 0⟩
def R.TLR_Q_BURST_BURST : RegField := ⟨0x2014, 15, 0⟩
def R.TLR_Q_SCHED_QUANTUM : RegField := ⟨0x2018, 31, 16⟩
def R.TLR_Q_SCHED_QLIM : RegField := ⟨0x2018, 12, 0⟩
def R.TLR_Q_STATUS_FILL : RegField := ⟨0x201c, 12, 0⟩
def R.TLR_LT_CFG_LATE_ACT : RegField := ⟨0x2c00, 31, 31⟩
def R.TLR_LT_CFG_HORIZON : RegField := ⟨0x2c00, 19, 0⟩
def R.TLR_LT_TOL_TOL : RegField := ⟨0x2c04, 15, 0⟩
def R.TLR_LT_STATUS_FILL : RegField := ⟨0x2c08, 10, 0⟩
def R.TLR_RX_WAIT_WAIT : RegField := ⟨0x2c0c, 15, 0⟩
def R.TLR_PLOT_SHP_SHP_EN : RegField := ⟨0x3000, 31, 31⟩
def R.TLR_PLOT_SHP_INC : RegField := ⟨0x3000, 23, 0⟩
def R.TLR_PLOT_SCHED_WEIGHT : RegField := ⟨0x3004, 31, 24⟩
def R.TLR_PLOT_SCHED_BURST : RegField := ⟨0x3004, 15, 0⟩

/-- The registers of Table 10.7 (TLR). -/
def regsEGR : List RegDesc := [
  ⟨0x2000, [(0x100, 10)], false,
    [⟨R.TLR_SLOT_CFG_EN, .rw, 0x0, .any⟩, ⟨R.TLR_SLOT_CFG_PORT, .rw, 0x0, .any⟩, ⟨R.TLR_SLOT_CFG_STRICT, .rw, 0x80, .any⟩, ⟨R.TLR_SLOT_CFG_OVERHEAD, .rw, 0x14, .signed 7 32 63⟩]⟩,
  ⟨0x2004, [(0x100, 10)], false,
    [⟨R.TLR_SLOT_SHP_SHP_EN, .rw, 0x0, .any⟩, ⟨R.TLR_SLOT_SHP_INC, .rw, 0x1, .range 1 16777215⟩]⟩,
  ⟨0x2008, [(0x100, 10)], false,
    [⟨R.TLR_SLOT_BURST_BURST, .rw, 0x100, .range 1 65535⟩]⟩,
  ⟨0x200c, [(0x100, 10)], false,
    [⟨R.TLR_SLOT_STATUS_PAUSED, .ro, 0x0, .any⟩, ⟨R.TLR_SLOT_STATUS_NEG, .ro, 0x0, .any⟩, ⟨R.TLR_SLOT_STATUS_BACKLOG, .ro, 0x0, .any⟩]⟩,
  ⟨0x2010, [(0x100, 10), (0x10, 8)], false,
    [⟨R.TLR_Q_SHP_SHP_EN, .rw, 0x0, .any⟩, ⟨R.TLR_Q_SHP_INC, .rw, 0x1, .range 1 16777215⟩]⟩,
  ⟨0x2014, [(0x100, 10), (0x10, 8)], false,
    [⟨R.TLR_Q_BURST_BURST, .rw, 0x100, .range 1 65535⟩]⟩,
  ⟨0x2018, [(0x100, 10), (0x10, 8)], false,
    [⟨R.TLR_Q_SCHED_QUANTUM, .rw, 0x2400, .range 64 65535⟩, ⟨R.TLR_Q_SCHED_QLIM, .rw, 0x200, .range 1 4096⟩]⟩,
  ⟨0x201c, [(0x100, 10), (0x10, 8)], false,
    [⟨R.TLR_Q_STATUS_FILL, .ro, 0x0, .any⟩]⟩,
  ⟨0x2c00, [], false,
    [⟨R.TLR_LT_CFG_LATE_ACT, .rw, 0x0, .any⟩, ⟨R.TLR_LT_CFG_HORIZON, .rw, 0x2710, .range 1 1048575⟩]⟩,
  ⟨0x2c04, [], false,
    [⟨R.TLR_LT_TOL_TOL, .rw, 0x3e8, .any⟩]⟩,
  ⟨0x2c08, [], false,
    [⟨R.TLR_LT_STATUS_FILL, .ro, 0x0, .any⟩]⟩,
  ⟨0x2c0c, [], false,
    [⟨R.TLR_RX_WAIT_WAIT, .rw, 0x64, .range 1 65535⟩]⟩,
  ⟨0x3000, [(0x8, 256)], false,
    [⟨R.TLR_PLOT_SHP_SHP_EN, .rw, 0x0, .any⟩, ⟨R.TLR_PLOT_SHP_INC, .rw, 0x1, .range 1 16777215⟩]⟩,
  ⟨0x3004, [(0x8, 256)], false,
    [⟨R.TLR_PLOT_SCHED_WEIGHT, .rw, 0x1, .range 1 255⟩, ⟨R.TLR_PLOT_SCHED_BURST, .rw, 0x100, .range 1 65535⟩]⟩]

/-! ### HPT: Tables 11.9 to 11.13 -/

def R.HPT_CANARY_CANARY : RegField := ⟨0x0, 31, 0⟩
def R.HPT_ID_ALLOT : RegField := ⟨0x4, 16, 8⟩
def R.HPT_ID_BIFUR : RegField := ⟨0x4, 4, 4⟩
def R.HPT_ID_HALF : RegField := ⟨0x4, 3, 3⟩
def R.HPT_ID_PORT : RegField := ⟨0x4, 2, 0⟩
def R.HPT_LINK_LINK_UP : RegField := ⟨0x8, 24, 24⟩
def R.HPT_LINK_PTM_OK : RegField := ⟨0x8, 23, 23⟩
def R.HPT_LINK_FLIT : RegField := ⟨0x8, 22, 22⟩
def R.HPT_LINK_PM : RegField := ⟨0x8, 21, 20⟩
def R.HPT_LINK_RATE : RegField := ⟨0x8, 18, 16⟩
def R.HPT_LINK_WIDTH : RegField := ⟨0x8, 12, 8⟩
def R.HPT_LINK_TX_WIDTH : RegField := ⟨0x8, 4, 0⟩
def R.HPT_CTO_CTO : RegField := ⟨0xc, 15, 0⟩
def R.HPT_PM_CFG_L1_IDLE : RegField := ⟨0x10, 31, 16⟩
def R.HPT_PM_CFG_L0P_EN : RegField := ⟨0x10, 4, 4⟩
def R.HPT_PM_CFG_L0P_MIN : RegField := ⟨0x10, 1, 0⟩
def R.HPT_ERR_WINDOW_ERR : RegField := ⟨0x14, 5, 5⟩
def R.HPT_ERR_UNEXP_CPL : RegField := ⟨0x14, 4, 4⟩
def R.HPT_ERR_POISON_CPL : RegField := ⟨0x14, 3, 3⟩
def R.HPT_ERR_POISON_RX : RegField := ⟨0x14, 2, 2⟩
def R.HPT_ERR_CTO : RegField := ⟨0x14, 1, 1⟩
def R.HPT_ERR_UR_SENT : RegField := ⟨0x14, 0, 0⟩

/-- The registers of Tables 11.9 to 11.13. -/
def regsHPT : List RegDesc := [
  ⟨0x0, [], false,
    [⟨R.HPT_CANARY_CANARY, .ro, 0xa55a, .any⟩]⟩,
  ⟨0x4, [], false,
    [⟨R.HPT_ID_ALLOT, .ro, 0x0, .any⟩, ⟨R.HPT_ID_BIFUR, .ro, 0x0, .any⟩, ⟨R.HPT_ID_HALF, .ro, 0x0, .any⟩, ⟨R.HPT_ID_PORT, .ro, 0x0, .any⟩]⟩,
  ⟨0x8, [], false,
    [⟨R.HPT_LINK_LINK_UP, .ro, 0x0, .any⟩, ⟨R.HPT_LINK_PTM_OK, .ro, 0x0, .any⟩, ⟨R.HPT_LINK_FLIT, .ro, 0x0, .any⟩, ⟨R.HPT_LINK_PM, .ro, 0x0, .any⟩, ⟨R.HPT_LINK_RATE, .ro, 0x0, .any⟩, ⟨R.HPT_LINK_WIDTH, .ro, 0x0, .any⟩, ⟨R.HPT_LINK_TX_WIDTH, .ro, 0x0, .any⟩]⟩,
  ⟨0xc, [], false,
    [⟨R.HPT_CTO_CTO, .rw, 0xc350, .range 50 50000⟩]⟩,
  ⟨0x10, [], false,
    [⟨R.HPT_PM_CFG_L1_IDLE, .rw, 0x8, .range 8 65535⟩, ⟨R.HPT_PM_CFG_L0P_EN, .rw, 0x1, .any⟩, ⟨R.HPT_PM_CFG_L0P_MIN, .rw, 0x1, .oneOf [0, 1, 2]⟩]⟩,
  ⟨0x14, [], false,
    [⟨R.HPT_ERR_WINDOW_ERR, .w1c, 0x0, .any⟩, ⟨R.HPT_ERR_UNEXP_CPL, .w1c, 0x0, .any⟩, ⟨R.HPT_ERR_POISON_CPL, .w1c, 0x0, .any⟩, ⟨R.HPT_ERR_POISON_RX, .w1c, 0x0, .any⟩, ⟨R.HPT_ERR_CTO, .w1c, 0x0, .any⟩, ⟨R.HPT_ERR_UR_SENT, .w1c, 0x0, .any⟩]⟩]

/-! ### VF: Tables 12.8 and 13.8 -/

def R.PLOT_QP_STATUS_LIVE : RegField := ⟨0x1000, 31, 31⟩
def R.PLOT_QP_STATUS_ERR : RegField := ⟨0x1000, 30, 30⟩
def R.PLOT_QP_STATUS_CLASS : RegField := ⟨0x1000, 26, 24⟩
def R.PLOT_QP_STATUS_ERR_CAUSE : RegField := ⟨0x1000, 23, 16⟩
def R.PLOT_QP_STATUS_TX_SIZE : RegField := ⟨0x1000, 11, 8⟩
def R.PLOT_QP_STATUS_RX_SIZE : RegField := ⟨0x1000, 7, 4⟩
def R.PLOT_QP_TX_CONS_CONS : RegField := ⟨0x1004, 31, 0⟩
def R.PLOT_QP_RX_CONS_CONS : RegField := ⟨0x1008, 31, 0⟩
def R.PLOT_QP_TXC_PROD_PROD : RegField := ⟨0x100c, 31, 0⟩
def R.PLOT_QP_RXC_PROD_PROD : RegField := ⟨0x1010, 31, 0⟩
def R.PLOT_QP_TXC_IRQ_VEC : RegField := ⟨0x1014, 31, 21⟩
def R.PLOT_QP_TXC_IRQ_USECS : RegField := ⟨0x1014, 19, 10⟩
def R.PLOT_QP_TXC_IRQ_COUNT : RegField := ⟨0x1014, 7, 0⟩
def R.PLOT_QP_RXC_IRQ_VEC : RegField := ⟨0x1018, 31, 21⟩
def R.PLOT_QP_RXC_IRQ_USECS : RegField := ⟨0x1018, 19, 10⟩
def R.PLOT_QP_RXC_IRQ_COUNT : RegField := ⟨0x1018, 7, 0⟩
def R.PLOT_QP_EVENTS_DB_STALE : RegField := ⟨0x101c, 31, 16⟩
def R.PLOT_QP_EVENTS_ERR_DROP : RegField := ⟨0x101c, 15, 0⟩
def R.PLOT_CANARY_CANARY : RegField := ⟨0x2000, 31, 0⟩
def R.PLOT_GEN_GEN : RegField := ⟨0x2004, 15, 0⟩
def R.PLOT_STATE_STATE : RegField := ⟨0x2008, 1, 0⟩
def R.PLOT_MBX_CTRL_VEC : RegField := ⟨0x2010, 23, 16⟩
def R.PLOT_MBX_CTRL_IRQ_EN : RegField := ⟨0x2010, 0, 0⟩
def R.PLOT_MBX_STATUS_TX_IGNORED : RegField := ⟨0x2014, 2, 2⟩
def R.PLOT_MBX_STATUS_TX_BUSY : RegField := ⟨0x2014, 1, 1⟩
def R.PLOT_MBX_STATUS_RX_FULL : RegField := ⟨0x2014, 0, 0⟩
def R.PLOT_MBX_SEND_LENGTH : RegField := ⟨0x2018, 7, 0⟩
def R.PLOT_MBX_ACK_ACK : RegField := ⟨0x201c, 31, 0⟩
def R.PLOT_TQ_CMD_OP : RegField := ⟨0x2020, 3, 0⟩
def R.PLOT_TQ_STATUS_BUSY : RegField := ⟨0x2024, 31, 31⟩
def R.PLOT_TQ_STATUS_STATUS : RegField := ⟨0x2024, 15, 0⟩
def R.PLOT_TQ_ARG_ARG : RegField := ⟨0x2040, 31, 0⟩

/-- The registers of Tables 12.8 and 13.8, part 1. -/
def regsVF1 : List RegDesc := [
  ⟨0x1000, [(0x40, 64)], false,
    [⟨R.PLOT_QP_STATUS_LIVE, .ro, 0x0, .any⟩, ⟨R.PLOT_QP_STATUS_ERR, .ro, 0x0, .any⟩, ⟨R.PLOT_QP_STATUS_CLASS, .ro, 0x0, .any⟩, ⟨R.PLOT_QP_STATUS_ERR_CAUSE, .ro, 0x0, .any⟩, ⟨R.PLOT_QP_STATUS_TX_SIZE, .ro, 0x0, .any⟩, ⟨R.PLOT_QP_STATUS_RX_SIZE, .ro, 0x0, .any⟩]⟩,
  ⟨0x1004, [(0x40, 64)], false,
    [⟨R.PLOT_QP_TX_CONS_CONS, .ro, 0x0, .any⟩]⟩,
  ⟨0x1008, [(0x40, 64)], false,
    [⟨R.PLOT_QP_RX_CONS_CONS, .ro, 0x0, .any⟩]⟩,
  ⟨0x100c, [(0x40, 64)], false,
    [⟨R.PLOT_QP_TXC_PROD_PROD, .ro, 0x0, .any⟩]⟩,
  ⟨0x1010, [(0x40, 64)], false,
    [⟨R.PLOT_QP_RXC_PROD_PROD, .ro, 0x0, .any⟩]⟩,
  ⟨0x1014, [(0x40, 64)], false,
    [⟨R.PLOT_QP_TXC_IRQ_VEC, .rw, 0x0, .any⟩, ⟨R.PLOT_QP_TXC_IRQ_USECS, .rw, 0x0, .any⟩, ⟨R.PLOT_QP_TXC_IRQ_COUNT, .rw, 0x1, .range 1 255⟩]⟩,
  ⟨0x1018, [(0x40, 64)], false,
    [⟨R.PLOT_QP_RXC_IRQ_VEC, .rw, 0x0, .any⟩, ⟨R.PLOT_QP_RXC_IRQ_USECS, .rw, 0x0, .any⟩, ⟨R.PLOT_QP_RXC_IRQ_COUNT, .rw, 0x1, .range 1 255⟩]⟩,
  ⟨0x101c, [(0x40, 64)], false,
    [⟨R.PLOT_QP_EVENTS_DB_STALE, .ro, 0x0, .any⟩, ⟨R.PLOT_QP_EVENTS_ERR_DROP, .ro, 0x0, .any⟩]⟩,
  ⟨0x2000, [], false,
    [⟨R.PLOT_CANARY_CANARY, .ro, 0xa55a, .any⟩]⟩,
  ⟨0x2004, [], false,
    [⟨R.PLOT_GEN_GEN, .ro, 0x1, .any⟩]⟩,
  ⟨0x2008, [], false,
    [⟨R.PLOT_STATE_STATE, .ro, 0x1, .any⟩]⟩,
  ⟨0x2010, [], false,
    [⟨R.PLOT_MBX_CTRL_VEC, .rw, 0x0, .any⟩, ⟨R.PLOT_MBX_CTRL_IRQ_EN, .rw, 0x0, .any⟩]⟩,
  ⟨0x2014, [], false,
    [⟨R.PLOT_MBX_STATUS_TX_IGNORED, .w1c, 0x0, .any⟩, ⟨R.PLOT_MBX_STATUS_TX_BUSY, .ro, 0x0, .any⟩, ⟨R.PLOT_MBX_STATUS_RX_FULL, .ro, 0x0, .any⟩]⟩,
  ⟨0x2018, [], false,
    [⟨R.PLOT_MBX_SEND_LENGTH, .wo, 0x0, .any⟩]⟩,
  ⟨0x201c, [], false,
    [⟨R.PLOT_MBX_ACK_ACK, .wo, 0x0, .any⟩]⟩,
  ⟨0x2020, [], false,
    [⟨R.PLOT_TQ_CMD_OP, .wo, 0x0, .any⟩]⟩]


/-- The registers of Tables 12.8 and 13.8, part 2. -/
def regsVF2 : List RegDesc := [
  ⟨0x2024, [], false,
    [⟨R.PLOT_TQ_STATUS_BUSY, .ro, 0x0, .any⟩, ⟨R.PLOT_TQ_STATUS_STATUS, .ro, 0x0, .any⟩]⟩,
  ⟨0x2040, [(0x4, 16)], false,
    [⟨R.PLOT_TQ_ARG_ARG, .rw, 0x0, .any⟩]⟩]

/-- The registers of Tables 12.8 and 13.8. -/
def regsVF : List RegDesc := regsVF1 ++ regsVF2

/-! ### MGR: Table 13.9 -/

def R.PLOT_MGR_CTRL_MSG_VEC : RegField := ⟨0x0, 26, 16⟩
def R.PLOT_MGR_CTRL_MSG_IRQ_EN : RegField := ⟨0x0, 0, 0⟩
def R.PLOT_MGR_GEN_GEN : RegField := ⟨0x4, 15, 0⟩
def R.PLOT_MGR_MSGPEND_PEND : RegField := ⟨0x10, 31, 0⟩

/-- The registers of Table 13.9. -/
def regsMGR : List RegDesc := [
  ⟨0x0, [], false,
    [⟨R.PLOT_MGR_CTRL_MSG_VEC, .rw, 0x0, .any⟩, ⟨R.PLOT_MGR_CTRL_MSG_IRQ_EN, .rw, 0x0, .any⟩]⟩,
  ⟨0x4, [], false,
    [⟨R.PLOT_MGR_GEN_GEN, .ro, 0x1, .any⟩]⟩,
  ⟨0x10, [(0x4, 8)], false,
    [⟨R.PLOT_MGR_MSGPEND_PEND, .ro, 0x0, .any⟩]⟩]

/-! ### PLOT: Table 13.10 -/

def R.PLOT_CFG_EN : RegField := ⟨0x0, 31, 31⟩
def R.PLOT_CFG_KIND : RegField := ⟨0x0, 30, 30⟩
def R.PLOT_CFG_FLOW_STATE : RegField := ⟨0x0, 29, 29⟩
def R.PLOT_CFG_SRC_CHECK : RegField := ⟨0x0, 28, 28⟩
def R.PLOT_CFG_CLASS_MASK : RegField := ⟨0x0, 27, 20⟩
def R.PLOT_CFG_QP_MAX : RegField := ⟨0x0, 19, 13⟩
def R.PLOT_CFG_VEC_COUNT : RegField := ⟨0x0, 12, 4⟩
def R.PLOT_MAC_LO_MAC : RegField := ⟨0x4, 31, 0⟩
def R.PLOT_MAC_HI_VLAN : RegField := ⟨0x8, 27, 16⟩
def R.PLOT_MAC_HI_MAC : RegField := ⟨0x8, 15, 0⟩
def R.PLOT_POLICER_EN : RegField := ⟨0xc, 31, 31⟩
def R.PLOT_POLICER_METER : RegField := ⟨0xc, 17, 0⟩
def R.PLOT_XGEN_XGEN : RegField := ⟨0x10, 31, 0⟩
def R.PLOT_TX_SHP_SHP_EN : RegField := ⟨0x20, 31, 31⟩
def R.PLOT_TX_SHP_INC : RegField := ⟨0x20, 23, 0⟩
def R.PLOT_TX_SCHED_WEIGHT : RegField := ⟨0x24, 31, 24⟩
def R.PLOT_TX_SCHED_BURST : RegField := ⟨0x24, 15, 0⟩
def R.PLOT_WIN_LO_ADDR : RegField := ⟨0x40, 31, 12⟩
def R.PLOT_WIN_LO_W : RegField := ⟨0x40, 1, 1⟩
def R.PLOT_WIN_LO_R : RegField := ⟨0x40, 0, 0⟩
def R.PLOT_WIN_HI_ADDR : RegField := ⟨0x44, 31, 0⟩
def R.PLOT_WIN_PAGES_PAGES : RegField := ⟨0x48, 31, 0⟩
def R.PLOT_QTABLE_QP3 : RegField := ⟨0x200, 29, 24⟩
def R.PLOT_QTABLE_QP2 : RegField := ⟨0x200, 21, 16⟩
def R.PLOT_QTABLE_QP1 : RegField := ⟨0x200, 13, 8⟩
def R.PLOT_QTABLE_QP : RegField := ⟨0x200, 5, 0⟩
def R.PLOT_LOG_LO_BASE : RegField := ⟨0x300, 31, 12⟩
def R.PLOT_LOG_HI_BASE : RegField := ⟨0x304, 31, 0⟩
def R.PLOT_LOG_CTRL_LOGGING : RegField := ⟨0x308, 31, 31⟩
def R.PLOT_LOG_CTRL_LOG_OVF : RegField := ⟨0x308, 30, 30⟩
def R.PLOT_LOG_CTRL_LOG_SIZE : RegField := ⟨0x308, 4, 0⟩
def R.PLOT_LOG_PROD_PROD : RegField := ⟨0x30c, 31, 0⟩

/-- The registers of Table 13.10. -/
def regsPLOT : List RegDesc := [
  ⟨0x0, [], false,
    [⟨R.PLOT_CFG_EN, .rw, 0x0, .any⟩, ⟨R.PLOT_CFG_KIND, .rw, 0x0, .any⟩, ⟨R.PLOT_CFG_FLOW_STATE, .rw, 0x0, .any⟩, ⟨R.PLOT_CFG_SRC_CHECK, .rw, 0x0, .any⟩, ⟨R.PLOT_CFG_CLASS_MASK, .rw, 0x1, .any⟩, ⟨R.PLOT_CFG_QP_MAX, .rw, 0x1, .range 1 64⟩, ⟨R.PLOT_CFG_VEC_COUNT, .rw, 0x1, .range 1 256⟩]⟩,
  ⟨0x4, [], false,
    [⟨R.PLOT_MAC_LO_MAC, .rw, 0x0, .any⟩]⟩,
  ⟨0x8, [], false,
    [⟨R.PLOT_MAC_HI_VLAN, .rw, 0x0, .any⟩, ⟨R.PLOT_MAC_HI_MAC, .rw, 0x0, .any⟩]⟩,
  ⟨0xc, [], false,
    [⟨R.PLOT_POLICER_EN, .rw, 0x0, .any⟩, ⟨R.PLOT_POLICER_METER, .rw, 0x0, .any⟩]⟩,
  ⟨0x10, [], false,
    [⟨R.PLOT_XGEN_XGEN, .ro, 0x1, .any⟩]⟩,
  ⟨0x20, [], false,
    [⟨R.PLOT_TX_SHP_SHP_EN, .rw, 0x0, .any⟩, ⟨R.PLOT_TX_SHP_INC, .rw, 0x1, .range 1 16777215⟩]⟩,
  ⟨0x24, [], false,
    [⟨R.PLOT_TX_SCHED_WEIGHT, .rw, 0x1, .range 1 255⟩, ⟨R.PLOT_TX_SCHED_BURST, .rw, 0x100, .range 1 65535⟩]⟩,
  ⟨0x40, [(0x10, 16)], false,
    [⟨R.PLOT_WIN_LO_ADDR, .rw, 0x0, .any⟩, ⟨R.PLOT_WIN_LO_W, .rw, 0x0, .any⟩, ⟨R.PLOT_WIN_LO_R, .rw, 0x0, .any⟩]⟩,
  ⟨0x44, [(0x10, 16)], false,
    [⟨R.PLOT_WIN_HI_ADDR, .rw, 0x0, .any⟩]⟩,
  ⟨0x48, [(0x10, 16)], false,
    [⟨R.PLOT_WIN_PAGES_PAGES, .rw, 0x0, .any⟩]⟩,
  ⟨0x200, [(0x4, 32)], false,
    [⟨R.PLOT_QTABLE_QP3, .rw, 0x0, .any⟩, ⟨R.PLOT_QTABLE_QP2, .rw, 0x0, .any⟩, ⟨R.PLOT_QTABLE_QP1, .rw, 0x0, .any⟩, ⟨R.PLOT_QTABLE_QP, .rw, 0x0, .any⟩]⟩,
  ⟨0x300, [], true,
    [⟨R.PLOT_LOG_LO_BASE, .rw, 0x0, .any⟩]⟩,
  ⟨0x304, [], false,
    [⟨R.PLOT_LOG_HI_BASE, .rw, 0x0, .any⟩]⟩,
  ⟨0x308, [], false,
    [⟨R.PLOT_LOG_CTRL_LOGGING, .ro, 0x0, .any⟩, ⟨R.PLOT_LOG_CTRL_LOG_OVF, .ro, 0x0, .any⟩, ⟨R.PLOT_LOG_CTRL_LOG_SIZE, .rw, 0xa, .range 10 20⟩]⟩,
  ⟨0x30c, [], false,
    [⟨R.PLOT_LOG_PROD_PROD, .ro, 0x0, .any⟩]⟩]

/-! ### TIME: Table 14.13 -/

def R.TIME_STATE_CLASS : RegField := ⟨0x0, 31, 24⟩
def R.TIME_STATE_FREQ_SRC : RegField := ⟨0x0, 19, 16⟩
def R.TIME_STATE_PHASE_SRC : RegField := ⟨0x0, 15, 12⟩
def R.TIME_STATE_STATE : RegField := ⟨0x0, 2, 0⟩
def R.TIME_EVENTS_BEHIND : RegField := ⟨0x4, 5, 5⟩
def R.TIME_EVENTS_REF10M_LOST : RegField := ⟨0x4, 4, 4⟩
def R.TIME_EVENTS_SYNCE_LOST : RegField := ⟨0x4, 3, 3⟩
def R.TIME_EVENTS_PPS1_LOST : RegField := ⟨0x4, 2, 2⟩
def R.TIME_EVENTS_PPS0_LOST : RegField := ⟨0x4, 1, 1⟩
def R.TIME_EVENTS_PTP_LOST : RegField := ⟨0x4, 0, 0⟩
def R.TIME_NOW_LO_NS : RegField := ⟨0x8, 31, 0⟩
def R.TIME_NOW_HI_NS : RegField := ⟨0xc, 31, 0⟩
def R.TIME_LOCAL_LO_NS : RegField := ⟨0x10, 31, 0⟩
def R.TIME_LOCAL_HI_NS : RegField := ⟨0x14, 31, 0⟩
def R.TIME_OFFSET_OFFSET : RegField := ⟨0x18, 31, 0⟩
def R.TIME_BOUND_SRC_BOUND : RegField := ⟨0x1c, 15, 0⟩
def R.TIME_SRC_CFG_SYNCE_LANE : RegField := ⟨0x20, 23, 17⟩
def R.TIME_SRC_CFG_REVERT : RegField := ⟨0x20, 16, 16⟩
def R.TIME_SRC_CFG_PRI_PTP : RegField := ⟨0x20, 11, 10⟩
def R.TIME_SRC_CFG_PRI_PPS0 : RegField := ⟨0x20, 9, 8⟩
def R.TIME_SRC_CFG_PRI_PPS1 : RegField := ⟨0x20, 7, 6⟩
def R.TIME_SRC_CFG_PRI_SYNCE : RegField := ⟨0x20, 5, 4⟩
def R.TIME_SRC_CFG_PRI_REF10M : RegField := ⟨0x20, 3, 2⟩
def R.TIME_SRC_CFG_PRI_FPTP : RegField := ⟨0x20, 1, 0⟩
def R.TIME_LOOP_PHASE_BW : RegField := ⟨0x24, 31, 24⟩
def R.TIME_LOOP_FREQ_BW : RegField := ⟨0x24, 23, 16⟩
def R.TIME_LOOP_STEP_TH : RegField := ⟨0x24, 15, 0⟩
def R.TIME_SLEW_SLEW : RegField := ⟨0x28, 9, 0⟩
def R.TIME_HOLD_CFG_HOLD_FERR : RegField := ⟨0x30, 31, 16⟩
def R.TIME_HOLD_CFG_HOLD_AGE : RegField := ⟨0x30, 15, 0⟩
def R.TIME_HOLD_LIM_HOLD_LIMIT : RegField := ⟨0x34, 15, 0⟩
def R.TIME_LOCK_HLOCK : RegField := ⟨0x38, 0, 0⟩
def R.TIME_UTC_UTC_VALID : RegField := ⟨0x3c, 18, 18⟩
def R.TIME_UTC_LEAP59 : RegField := ⟨0x3c, 17, 17⟩
def R.TIME_UTC_LEAP61 : RegField := ⟨0x3c, 16, 16⟩
def R.TIME_UTC_OFFSET : RegField := ⟨0x3c, 15, 0⟩
def R.TIME_PPS_IN_CFG_EN : RegField := ⟨0x40, 31, 31⟩
def R.TIME_PPS_IN_CFG_POL : RegField := ⟨0x40, 30, 30⟩
def R.TIME_PPS_IN_CFG_TOD_EN : RegField := ⟨0x40, 29, 29⟩
def R.TIME_PPS_IN_CFG_OFFSET : RegField := ⟨0x40, 23, 0⟩
def R.TIME_PPS_IN_STAT_QUAL : RegField := ⟨0x44, 31, 31⟩
def R.TIME_PPS_IN_STAT_LOST : RegField := ⟨0x44, 30, 30⟩
def R.TIME_PPS_IN_STAT_TOD_OK : RegField := ⟨0x44, 29, 29⟩
def R.TIME_PPS_IN_STAT_REJECTS : RegField := ⟨0x44, 15, 0⟩
def R.TIME_OUT_CFG_EN : RegField := ⟨0x100, 31, 31⟩
def R.TIME_OUT_CFG_POL : RegField := ⟨0x100, 30, 30⟩
def R.TIME_OUT_CFG_SQ : RegField := ⟨0x100, 29, 29⟩
def R.TIME_OUT_CFG_TOD_EN : RegField := ⟨0x100, 28, 28⟩
def R.TIME_OUT_CFG_FEED_EN : RegField := ⟨0x100, 27, 27⟩
def R.TIME_OUT_CFG_WIDTH : RegField := ⟨0x100, 18, 0⟩
def R.TIME_OUT_OFS_OFFSET : RegField := ⟨0x104, 31, 0⟩
def R.TIME_OUT_STAT_TRIP : RegField := ⟨0x108, 2, 2⟩
def R.TIME_OUT_STAT_FEED_ON : RegField := ⟨0x108, 1, 1⟩
def R.TIME_OUT_STAT_ACTIVE : RegField := ⟨0x108, 0, 0⟩
def R.TIME_PORT_DLY_TX_DLY : RegField := ⟨0x400, 31, 16⟩
def R.TIME_PORT_DLY_RX_DLY : RegField := ⟨0x400, 15, 0⟩
def R.TIME_PORT_ASYM_ASYM : RegField := ⟨0x404, 31, 0⟩

/-- The registers of Table 14.13, part 1. -/
def regsTIME1 : List RegDesc := [
  ⟨0x0, [], false,
    [⟨R.TIME_STATE_CLASS, .ro, 0xf8, .any⟩, ⟨R.TIME_STATE_FREQ_SRC, .ro, 0x0, .any⟩, ⟨R.TIME_STATE_PHASE_SRC, .ro, 0x0, .any⟩, ⟨R.TIME_STATE_STATE, .ro, 0x0, .any⟩]⟩,
  ⟨0x4, [], false,
    [⟨R.TIME_EVENTS_BEHIND, .w1c, 0x0, .any⟩, ⟨R.TIME_EVENTS_REF10M_LOST, .w1c, 0x0, .any⟩, ⟨R.TIME_EVENTS_SYNCE_LOST, .w1c, 0x0, .any⟩, ⟨R.TIME_EVENTS_PPS1_LOST, .w1c, 0x0, .any⟩, ⟨R.TIME_EVENTS_PPS0_LOST, .w1c, 0x0, .any⟩, ⟨R.TIME_EVENTS_PTP_LOST, .w1c, 0x0, .any⟩]⟩,
  ⟨0x8, [], true,
    [⟨R.TIME_NOW_LO_NS, .ro, 0x0, .any⟩]⟩,
  ⟨0xc, [], false,
    [⟨R.TIME_NOW_HI_NS, .ro, 0x0, .any⟩]⟩,
  ⟨0x10, [], true,
    [⟨R.TIME_LOCAL_LO_NS, .ro, 0x0, .any⟩]⟩,
  ⟨0x14, [], false,
    [⟨R.TIME_LOCAL_HI_NS, .ro, 0x0, .any⟩]⟩,
  ⟨0x18, [], false,
    [⟨R.TIME_OFFSET_OFFSET, .ro, 0x0, .any⟩]⟩,
  ⟨0x1c, [], false,
    [⟨R.TIME_BOUND_SRC_BOUND, .ro, 0xffff, .any⟩]⟩,
  ⟨0x20, [], false,
    [⟨R.TIME_SRC_CFG_SYNCE_LANE, .rw, 0x0, .range 0 95⟩, ⟨R.TIME_SRC_CFG_REVERT, .rw, 0x1, .any⟩, ⟨R.TIME_SRC_CFG_PRI_PTP, .rw, 0x1, .any⟩, ⟨R.TIME_SRC_CFG_PRI_PPS0, .rw, 0x0, .any⟩, ⟨R.TIME_SRC_CFG_PRI_PPS1, .rw, 0x0, .any⟩, ⟨R.TIME_SRC_CFG_PRI_SYNCE, .rw, 0x1, .any⟩, ⟨R.TIME_SRC_CFG_PRI_REF10M, .rw, 0x0, .any⟩, ⟨R.TIME_SRC_CFG_PRI_FPTP, .rw, 0x2, .any⟩]⟩,
  ⟨0x24, [], false,
    [⟨R.TIME_LOOP_PHASE_BW, .rw, 0x64, .range 10 255⟩, ⟨R.TIME_LOOP_FREQ_BW, .rw, 0xa, .range 1 30⟩, ⟨R.TIME_LOOP_STEP_TH, .rw, 0x3e8, .range 100 65535⟩]⟩,
  ⟨0x28, [], false,
    [⟨R.TIME_SLEW_SLEW, .rw, 0x64, .range 1 1000⟩]⟩,
  ⟨0x30, [], false,
    [⟨R.TIME_HOLD_CFG_HOLD_FERR, .rwl, 0x14, .any⟩, ⟨R.TIME_HOLD_CFG_HOLD_AGE, .rwl, 0x3e8, .any⟩]⟩,
  ⟨0x34, [], false,
    [⟨R.TIME_HOLD_LIM_HOLD_LIMIT, .rwl, 0x64, .any⟩]⟩,
  ⟨0x38, [], false,
    [⟨R.TIME_LOCK_HLOCK, .rwl, 0x0, .any⟩]⟩,
  ⟨0x3c, [], false,
    [⟨R.TIME_UTC_UTC_VALID, .rw, 0x0, .any⟩, ⟨R.TIME_UTC_LEAP59, .rw, 0x0, .any⟩, ⟨R.TIME_UTC_LEAP61, .rw, 0x0, .any⟩, ⟨R.TIME_UTC_OFFSET, .rw, 0x25, .any⟩]⟩,
  ⟨0x40, [(0x8, 2)], false,
    [⟨R.TIME_PPS_IN_CFG_EN, .rw, 0x0, .any⟩, ⟨R.TIME_PPS_IN_CFG_POL, .rw, 0x0, .any⟩, ⟨R.TIME_PPS_IN_CFG_TOD_EN, .rw, 0x0, .any⟩, ⟨R.TIME_PPS_IN_CFG_OFFSET, .rw, 0x0, .any⟩]⟩]


/-- The registers of Table 14.13, part 2. -/
def regsTIME2 : List RegDesc := [
  ⟨0x44, [(0x8, 2)], false,
    [⟨R.TIME_PPS_IN_STAT_QUAL, .ro, 0x0, .any⟩, ⟨R.TIME_PPS_IN_STAT_LOST, .ro, 0x0, .any⟩, ⟨R.TIME_PPS_IN_STAT_TOD_OK, .ro, 0x0, .any⟩, ⟨R.TIME_PPS_IN_STAT_REJECTS, .ro, 0x0, .any⟩]⟩,
  ⟨0x100, [(0x10, 20)], false,
    [⟨R.TIME_OUT_CFG_EN, .rw, 0x0, .any⟩, ⟨R.TIME_OUT_CFG_POL, .rw, 0x0, .any⟩, ⟨R.TIME_OUT_CFG_SQ, .rw, 0x1, .any⟩, ⟨R.TIME_OUT_CFG_TOD_EN, .rw, 0x0, .any⟩, ⟨R.TIME_OUT_CFG_FEED_EN, .rw, 0x0, .any⟩, ⟨R.TIME_OUT_CFG_WIDTH, .rw, 0x64, .range 1 500000⟩]⟩,
  ⟨0x104, [(0x10, 20)], false,
    [⟨R.TIME_OUT_OFS_OFFSET, .rw, 0x0, .any⟩]⟩,
  ⟨0x108, [(0x10, 20)], false,
    [⟨R.TIME_OUT_STAT_TRIP, .ro, 0x0, .any⟩, ⟨R.TIME_OUT_STAT_FEED_ON, .ro, 0x0, .any⟩, ⟨R.TIME_OUT_STAT_ACTIVE, .ro, 0x0, .any⟩]⟩,
  ⟨0x400, [(0x8, 96)], false,
    [⟨R.TIME_PORT_DLY_TX_DLY, .rw, 0x0, .any⟩, ⟨R.TIME_PORT_DLY_RX_DLY, .rw, 0x0, .any⟩]⟩,
  ⟨0x404, [(0x8, 96)], false,
    [⟨R.TIME_PORT_ASYM_ASYM, .rw, 0x0, .any⟩]⟩]

/-- The registers of Table 14.13. -/
def regsTIME : List RegDesc := regsTIME1 ++ regsTIME2

/-! ### TPG: Table 14.14 -/

def R.TIME_HP_PAGE_LO_ADDR : RegField := ⟨0x0, 31, 8⟩
def R.TIME_HP_PAGE_LO_EN : RegField := ⟨0x0, 0, 0⟩
def R.TIME_HP_PAGE_HI_ADDR : RegField := ⟨0x4, 31, 0⟩
def R.TIME_HP_CFG_INTERVAL : RegField := ⟨0x8, 7, 0⟩
def R.TIME_HP_STATUS_WIN_ERR : RegField := ⟨0xc, 2, 2⟩
def R.TIME_HP_STATUS_PTM_OK : RegField := ⟨0xc, 1, 1⟩
def R.TIME_HP_STATUS_ACTIVE : RegField := ⟨0xc, 0, 0⟩
def R.TIME_HP_NOW_LO_NS : RegField := ⟨0x10, 31, 0⟩
def R.TIME_HP_NOW_HI_NS : RegField := ⟨0x14, 31, 0⟩
def R.TIME_HP_OUT_STAT : RegField := ⟨0x18, 31, 0⟩

/-- The registers of Table 14.14. -/
def regsTPG : List RegDesc := [
  ⟨0x0, [], true,
    [⟨R.TIME_HP_PAGE_LO_ADDR, .rw, 0x0, .any⟩, ⟨R.TIME_HP_PAGE_LO_EN, .rw, 0x0, .any⟩]⟩,
  ⟨0x4, [], false,
    [⟨R.TIME_HP_PAGE_HI_ADDR, .rw, 0x0, .any⟩]⟩,
  ⟨0x8, [], false,
    [⟨R.TIME_HP_CFG_INTERVAL, .rw, 0x8, .range 1 128⟩]⟩,
  ⟨0xc, [], false,
    [⟨R.TIME_HP_STATUS_WIN_ERR, .w1c, 0x0, .any⟩, ⟨R.TIME_HP_STATUS_PTM_OK, .ro, 0x0, .any⟩, ⟨R.TIME_HP_STATUS_ACTIVE, .ro, 0x0, .any⟩]⟩,
  ⟨0x10, [], true,
    [⟨R.TIME_HP_NOW_LO_NS, .ro, 0x0, .any⟩]⟩,
  ⟨0x14, [], false,
    [⟨R.TIME_HP_NOW_HI_NS, .ro, 0x0, .any⟩]⟩,
  ⟨0x18, [], false,
    [⟨R.TIME_HP_OUT_STAT, .ro, 0x0, .any⟩]⟩]

/-! ### CIST: Table 15.12 -/

def R.CIST_CFG_CHG_EN : RegField := ⟨0x0, 31, 31⟩
def R.CIST_CFG_WB_MIN : RegField := ⟨0x0, 15, 0⟩
def R.CIST_LIMIT_VCHG_MAX : RegField := ⟨0x4, 31, 16⟩
def R.CIST_LIMIT_E_CAP : RegField := ⟨0x4, 15, 0⟩
def R.CIST_LEDGER_EFF : RegField := ⟨0x8, 31, 24⟩
def R.CIST_LEDGER_MARGIN : RegField := ⟨0x8, 23, 16⟩
def R.CIST_LEDGER_E_FIX : RegField := ⟨0x8, 15, 0⟩
def R.CIST_DRAIN_P_D : RegField := ⟨0xc, 31, 16⟩
def R.CIST_DRAIN_V_MIN : RegField := ⟨0xc, 15, 0⟩
def R.CIST_LOCK_CLOCK : RegField := ⟨0x10, 0, 0⟩
def R.CIST_COLL_VCOLL_DROP : RegField := ⟨0x14, 15, 0⟩
def R.CIST_STATUS_HEALTHY : RegField := ⟨0x20, 31, 31⟩
def R.CIST_STATUS_PIN_OK : RegField := ⟨0x20, 30, 30⟩
def R.CIST_STATUS_OVER : RegField := ⟨0x20, 29, 29⟩
def R.CIST_STATUS_ABOVE : RegField := ⟨0x20, 28, 28⟩
def R.CIST_STATUS_TEST : RegField := ⟨0x20, 27, 27⟩
def R.CIST_STATUS_CHARGING : RegField := ⟨0x20, 26, 26⟩
def R.CIST_BUDGET_B : RegField := ⟨0x24, 17, 0⟩
def R.CIST_HELD_H : RegField := ⟨0x28, 17, 0⟩
def R.CIST_VBANK_V_CHG : RegField := ⟨0x2c, 31, 16⟩
def R.CIST_VBANK_V_B : RegField := ⟨0x2c, 15, 0⟩
def R.CIST_CAP_AGE : RegField := ⟨0x30, 31, 16⟩
def R.CIST_CAP_C_M : RegField := ⟨0x30, 15, 0⟩
def R.CIST_WRATE_W : RegField := ⟨0x34, 15, 0⟩
def R.CIST_EUSE_E_USE : RegField := ⟨0x38, 15, 0⟩

/-- The registers of Table 15.12. -/
def regsCIST : List RegDesc := [
  ⟨0x0, [], false,
    [⟨R.CIST_CFG_CHG_EN, .rw, 0x1, .any⟩, ⟨R.CIST_CFG_WB_MIN, .rw, 0x20, .range 1 512⟩]⟩,
  ⟨0x4, [], false,
    [⟨R.CIST_LIMIT_VCHG_MAX, .rwl, 0x1770, .range 1000 6000⟩, ⟨R.CIST_LIMIT_E_CAP, .rwl, 0x4650, .range 1000 18000⟩]⟩,
  ⟨0x8, [], false,
    [⟨R.CIST_LEDGER_EFF, .rwl, 0x5a, .range 50 100⟩, ⟨R.CIST_LEDGER_MARGIN, .rwl, 0x19, .range 0 90⟩, ⟨R.CIST_LEDGER_E_FIX, .rwl, 0xfa0, .any⟩]⟩,
  ⟨0xc, [], false,
    [⟨R.CIST_DRAIN_P_D, .rwl, 0x226, .range 100 20000⟩, ⟨R.CIST_DRAIN_V_MIN, .rwl, 0x7d0, .any⟩]⟩,
  ⟨0x10, [], false,
    [⟨R.CIST_LOCK_CLOCK, .rwl, 0x0, .any⟩]⟩,
  ⟨0x14, [], false,
    [⟨R.CIST_COLL_VCOLL_DROP, .rwl, 0x258, .any⟩]⟩,
  ⟨0x20, [], false,
    [⟨R.CIST_STATUS_HEALTHY, .ro, 0x0, .any⟩, ⟨R.CIST_STATUS_PIN_OK, .ro, 0x0, .any⟩, ⟨R.CIST_STATUS_OVER, .ro, 0x0, .any⟩, ⟨R.CIST_STATUS_ABOVE, .ro, 0x0, .any⟩, ⟨R.CIST_STATUS_TEST, .ro, 0x0, .any⟩, ⟨R.CIST_STATUS_CHARGING, .ro, 0x0, .any⟩]⟩,
  ⟨0x24, [], false,
    [⟨R.CIST_BUDGET_B, .ro, 0x0, .any⟩]⟩,
  ⟨0x28, [], false,
    [⟨R.CIST_HELD_H, .ro, 0x0, .any⟩]⟩,
  ⟨0x2c, [], false,
    [⟨R.CIST_VBANK_V_CHG, .ro, 0x0, .any⟩, ⟨R.CIST_VBANK_V_B, .ro, 0x0, .any⟩]⟩,
  ⟨0x30, [], false,
    [⟨R.CIST_CAP_AGE, .ro, 0xffff, .any⟩, ⟨R.CIST_CAP_C_M, .ro, 0x0, .any⟩]⟩,
  ⟨0x34, [], false,
    [⟨R.CIST_WRATE_W, .ro, 0x0, .any⟩]⟩,
  ⟨0x38, [], false,
    [⟨R.CIST_EUSE_E_USE, .ro, 0x0, .any⟩]⟩]

/-! ### SILO: Table 15.13 -/

def R.SILO_STATUS_VAULT_READY : RegField := ⟨0x0, 31, 31⟩
def R.SILO_STATUS_RESTORING : RegField := ⟨0x0, 30, 30⟩
def R.SILO_STATUS_DESTAGING : RegField := ⟨0x0, 29, 29⟩
def R.SILO_STATUS_DIRTY : RegField := ⟨0x0, 17, 0⟩
def R.SILO_REBUILD_SHARE : RegField := ⟨0x4, 7, 0⟩
def R.SILO_VAULT_FLUSH_LATE : RegField := ⟨0x10, 15, 15⟩
def R.SILO_VAULT_DRAINS : RegField := ⟨0x10, 14, 0⟩

/-- The registers of Table 15.13. -/
def regsSILO : List RegDesc := [
  ⟨0x0, [], false,
    [⟨R.SILO_STATUS_VAULT_READY, .ro, 0x0, .any⟩, ⟨R.SILO_STATUS_RESTORING, .ro, 0x0, .any⟩, ⟨R.SILO_STATUS_DESTAGING, .ro, 0x0, .any⟩, ⟨R.SILO_STATUS_DIRTY, .ro, 0x0, .any⟩]⟩,
  ⟨0x4, [], false,
    [⟨R.SILO_REBUILD_SHARE, .rw, 0x14, .range 1 100⟩]⟩,
  ⟨0x10, [], false,
    [⟨R.SILO_VAULT_FLUSH_LATE, .ro, 0x0, .any⟩, ⟨R.SILO_VAULT_DRAINS, .ro, 0x0, .any⟩]⟩]

/-! ### CND: Table 15.13 -/

def R.CND_UDP_PORT : RegField := ⟨0x0, 15, 0⟩
def R.CND_CONN_CFG_EN : RegField := ⟨0x100, 31, 31⟩
def R.CND_CONN_CFG_FAILMODE : RegField := ⟨0x100, 30, 30⟩
def R.CND_CONN_CFG_ETHPORT : RegField := ⟨0x100, 23, 16⟩
def R.CND_CONN_CFG_GEN : RegField := ⟨0x100, 15, 0⟩
def R.CND_CONN_STATE_STATE : RegField := ⟨0x104, 31, 30⟩
def R.CND_CONN_STATE_NEXT_PSN : RegField := ⟨0x104, 23, 0⟩
def R.CND_CONN_OLDEST_OLDEST : RegField := ⟨0x108, 23, 0⟩
def R.CND_CONN_RX_EXPECT : RegField := ⟨0x10c, 23, 0⟩

/-- The registers of Table 15.13. -/
def regsCND : List RegDesc := [
  ⟨0x0, [], false,
    [⟨R.CND_UDP_PORT, .rw, 0xb806, .any⟩]⟩,
  ⟨0x100, [(0x20, 64)], false,
    [⟨R.CND_CONN_CFG_EN, .rw, 0x0, .any⟩, ⟨R.CND_CONN_CFG_FAILMODE, .rw, 0x0, .any⟩, ⟨R.CND_CONN_CFG_ETHPORT, .rw, 0x0, .range 0 95⟩, ⟨R.CND_CONN_CFG_GEN, .rw, 0x0, .any⟩]⟩,
  ⟨0x104, [(0x20, 64)], false,
    [⟨R.CND_CONN_STATE_STATE, .ro, 0x0, .any⟩, ⟨R.CND_CONN_STATE_NEXT_PSN, .ro, 0x0, .any⟩]⟩,
  ⟨0x108, [(0x20, 64)], false,
    [⟨R.CND_CONN_OLDEST_OLDEST, .ro, 0x0, .any⟩]⟩,
  ⟨0x10c, [(0x20, 64)], false,
    [⟨R.CND_CONN_RX_EXPECT, .ro, 0x0, .any⟩]⟩]

/-! ### HSLOT: Table 16.6 -/

def R.HOP_REQ_NOSPILL : RegField := ⟨0x0, 31, 31⟩
def R.HOP_REQ_SIZE : RegField := ⟨0x0, 16, 0⟩
def R.HOP_RESULT_LO_ADDR_LO : RegField := ⟨0x8, 31, 0⟩
def R.HOP_RESULT_HI_STATUS : RegField := ⟨0xc, 31, 28⟩
def R.HOP_RESULT_HI_POOL : RegField := ⟨0xc, 27, 24⟩
def R.HOP_RESULT_HI_ADDR_HI : RegField := ⟨0xc, 0, 0⟩
def R.HOP_FREE_LO_ADDR_LO : RegField := ⟨0x10, 31, 0⟩
def R.HOP_FREE_HI_ADDR_HI : RegField := ⟨0x14, 0, 0⟩
def R.HOP_FREE_STAT_DOUBLE : RegField := ⟨0x18, 1, 1⟩
def R.HOP_FREE_STAT_BAD : RegField := ⟨0x18, 0, 0⟩

/-- The registers of Table 16.6. -/
def regsHSLOT : List RegDesc := [
  ⟨0x0, [], false,
    [⟨R.HOP_REQ_NOSPILL, .wo, 0x0, .any⟩, ⟨R.HOP_REQ_SIZE, .wo, 0x0, .any⟩]⟩,
  ⟨0x8, [], true,
    [⟨R.HOP_RESULT_LO_ADDR_LO, .ro, 0x0, .any⟩]⟩,
  ⟨0xc, [], false,
    [⟨R.HOP_RESULT_HI_STATUS, .ro, 0x0, .any⟩, ⟨R.HOP_RESULT_HI_POOL, .ro, 0x0, .any⟩, ⟨R.HOP_RESULT_HI_ADDR_HI, .ro, 0x0, .any⟩]⟩,
  ⟨0x10, [], true,
    [⟨R.HOP_FREE_LO_ADDR_LO, .wo, 0x0, .any⟩]⟩,
  ⟨0x14, [], false,
    [⟨R.HOP_FREE_HI_ADDR_HI, .wo, 0x0, .any⟩]⟩,
  ⟨0x18, [], false,
    [⟨R.HOP_FREE_STAT_DOUBLE, .w1c, 0x0, .any⟩, ⟨R.HOP_FREE_STAT_BAD, .w1c, 0x0, .any⟩]⟩]

/-! ### RSV: Table 16.8 -/

def R.RSV_STATUS_TRAINED : RegField := ⟨0x0, 31, 31⟩
def R.RSV_STATUS_SELFREF : RegField := ⟨0x0, 30, 30⟩
def R.RSV_STATUS_TEMP : RegField := ⟨0x0, 15, 8⟩
def R.RSV_STATUS_ALARM : RegField := ⟨0x0, 1, 1⟩
def R.RSV_STATUS_HOT : RegField := ⟨0x0, 0, 0⟩
def R.RSV_REF_CFG_TREFI : RegField := ⟨0x4, 31, 16⟩
def R.RSV_REF_CFG_TRFC : RegField := ⟨0x4, 15, 0⟩
def R.RSV_NBR_CFG_EXP : RegField := ⟨0x8, 4, 0⟩
def R.RSV_SCRUB_CFG_EN : RegField := ⟨0xc, 8, 8⟩
def R.RSV_SCRUB_CFG_HOURS : RegField := ⟨0xc, 7, 0⟩
def R.RSV_SCRUB_STAT_OVERDUE : RegField := ⟨0x10, 31, 31⟩
def R.RSV_SCRUB_STAT_PROGRESS : RegField := ⟨0x10, 7, 0⟩
def R.RSV_ECC_STAT_UE : RegField := ⟨0x14, 1, 1⟩
def R.RSV_ECC_STAT_CE : RegField := ⟨0x14, 0, 0⟩
def R.RSV_ECC_ADDR_LO_ADDR : RegField := ⟨0x18, 31, 0⟩
def R.RSV_ECC_ADDR_HI_ADDR : RegField := ⟨0x1c, 2, 0⟩

/-- The registers of Table 16.8. -/
def regsRSV : List RegDesc := [
  ⟨0x0, [], false,
    [⟨R.RSV_STATUS_TRAINED, .ro, 0x0, .any⟩, ⟨R.RSV_STATUS_SELFREF, .ro, 0x0, .any⟩, ⟨R.RSV_STATUS_TEMP, .ro, 0x0, .any⟩, ⟨R.RSV_STATUS_ALARM, .ro, 0x0, .any⟩, ⟨R.RSV_STATUS_HOT, .ro, 0x0, .any⟩]⟩,
  ⟨0x4, [], false,
    [⟨R.RSV_REF_CFG_TREFI, .rw, 0xf3c, .range 1000 3900⟩, ⟨R.RSV_REF_CFG_TRFC, .rw, 0x12c, .range 100 1000⟩]⟩,
  ⟨0x8, [], false,
    [⟨R.RSV_NBR_CFG_EXP, .rw, 0xb, .range 8 16⟩]⟩,
  ⟨0xc, [], false,
    [⟨R.RSV_SCRUB_CFG_EN, .rw, 0x1, .any⟩, ⟨R.RSV_SCRUB_CFG_HOURS, .rw, 0x14, .range 1 24⟩]⟩,
  ⟨0x10, [], false,
    [⟨R.RSV_SCRUB_STAT_OVERDUE, .ro, 0x0, .any⟩, ⟨R.RSV_SCRUB_STAT_PROGRESS, .ro, 0x0, .any⟩]⟩,
  ⟨0x14, [], false,
    [⟨R.RSV_ECC_STAT_UE, .w1c, 0x0, .any⟩, ⟨R.RSV_ECC_STAT_CE, .w1c, 0x0, .any⟩]⟩,
  ⟨0x18, [], true,
    [⟨R.RSV_ECC_ADDR_LO_ADDR, .ro, 0x0, .any⟩]⟩,
  ⟨0x1c, [], false,
    [⟨R.RSV_ECC_ADDR_HI_ADDR, .ro, 0x0, .any⟩]⟩]

/-! ### HOP: Table 16.9 -/

def R.HOP_CTRL_BUILD : RegField := ⟨0x0, 1, 1⟩
def R.HOP_CTRL_READY : RegField := ⟨0x0, 0, 0⟩
def R.HOP_POOL_CFG_COUNT : RegField := ⟨0x10, 23, 0⟩
def R.HOP_POOL_BASE_BASE : RegField := ⟨0x14, 14, 0⟩
def R.HOP_POOL_STAT_BROKEN : RegField := ⟨0x60, 31, 31⟩
def R.HOP_POOL_STAT_LOW : RegField := ⟨0x60, 30, 30⟩
def R.HOP_POOL_STAT_FREE : RegField := ⟨0x60, 23, 0⟩
def R.HOP_POOL_LOW_LOW : RegField := ⟨0x80, 23, 0⟩

/-- The registers of Table 16.9. -/
def regsHOP : List RegDesc := [
  ⟨0x0, [], false,
    [⟨R.HOP_CTRL_BUILD, .wo, 0x0, .any⟩, ⟨R.HOP_CTRL_READY, .ro, 0x0, .any⟩]⟩,
  ⟨0x10, [(0x8, 8)], false,
    [⟨R.HOP_POOL_CFG_COUNT, .rw, 0x0, .any⟩]⟩,
  ⟨0x14, [(0x8, 8)], false,
    [⟨R.HOP_POOL_BASE_BASE, .rw, 0x0, .any⟩]⟩,
  ⟨0x60, [(0x4, 8)], false,
    [⟨R.HOP_POOL_STAT_BROKEN, .ro, 0x0, .any⟩, ⟨R.HOP_POOL_STAT_LOW, .ro, 0x0, .any⟩, ⟨R.HOP_POOL_STAT_FREE, .ro, 0x0, .any⟩]⟩,
  ⟨0x80, [(0x4, 8)], false,
    [⟨R.HOP_POOL_LOW_LOW, .rw, 0x0, .any⟩]⟩]

/-! ### BMV: Tables 17.5 and 17.6 -/

def R.BMV_CH_CTRL_START : RegField := ⟨0x2000, 31, 31⟩
def R.BMV_CH_CTRL_ABORT : RegField := ⟨0x2000, 30, 30⟩
def R.BMV_CH_CTRL_RESUME : RegField := ⟨0x2000, 29, 29⟩
def R.BMV_CH_CTRL_REQ : RegField := ⟨0x2000, 23, 16⟩
def R.BMV_CH_CTRL_IRQ_EN : RegField := ⟨0x2000, 15, 15⟩
def R.BMV_CH_CTRL_BIND : RegField := ⟨0x2000, 14, 14⟩
def R.BMV_CH_CTRL_MODE : RegField := ⟨0x2000, 13, 12⟩
def R.BMV_CH_SPACE_SSPACE : RegField := ⟨0x2004, 31, 30⟩
def R.BMV_CH_SPACE_SLINK : RegField := ⟨0x2004, 29, 26⟩
def R.BMV_CH_SPACE_DSPACE : RegField := ⟨0x2004, 25, 24⟩
def R.BMV_CH_SPACE_DLINK : RegField := ⟨0x2004, 23, 20⟩
def R.BMV_CH_BURST_BYTES : RegField := ⟨0x2008, 12, 0⟩
def R.BMV_CH_ELEM_ELEM : RegField := ⟨0x200c, 12, 0⟩
def R.BMV_CH_SRC_LO_ADDR : RegField := ⟨0x2010, 31, 0⟩
def R.BMV_CH_SRC_HI_ADDR : RegField := ⟨0x2014, 31, 0⟩
def R.BMV_CH_DST_LO_ADDR : RegField := ⟨0x2018, 31, 0⟩
def R.BMV_CH_DST_HI_ADDR : RegField := ⟨0x201c, 31, 0⟩
def R.BMV_CH_TABLE_LO_ADDR : RegField := ⟨0x2020, 31, 0⟩
def R.BMV_CH_TABLE_HI_ADDR : RegField := ⟨0x2024, 31, 0⟩
def R.BMV_CH_STAT_LO_ADDR : RegField := ⟨0x2028, 31, 0⟩
def R.BMV_CH_STAT_HI_ADDR : RegField := ⟨0x202c, 31, 0⟩
def R.BMV_CH_LEN_LEN : RegField := ⟨0x2030, 31, 0⟩
def R.BMV_CH_DWRAP_DWRAP : RegField := ⟨0x2034, 31, 0⟩
def R.BMV_CH_STATUS_STATE : RegField := ⟨0x2038, 31, 28⟩
def R.BMV_CH_RESIDUE_RESIDUE : RegField := ⟨0x203c, 31, 0⟩
def R.BMV_HALT_HALT : RegField := ⟨0x0, 31, 0⟩
def R.BMV_ERR_INFO_VALID : RegField := ⟨0x4, 31, 31⟩
def R.BMV_ERR_INFO_WRITE : RegField := ⟨0x4, 8, 8⟩
def R.BMV_ERR_INFO_SPACE : RegField := ⟨0x4, 7, 6⟩
def R.BMV_ERR_INFO_LINK : RegField := ⟨0x4, 5, 2⟩
def R.BMV_ERR_ADDR_LO_ADDR : RegField := ⟨0x8, 31, 0⟩
def R.BMV_ERR_ADDR_HI_ADDR : RegField := ⟨0xc, 31, 0⟩
def R.BMV_GRANT_EN : RegField := ⟨0x40, 31, 31⟩
def R.BMV_GRANT_OWNER : RegField := ⟨0x40, 30, 29⟩
def R.BMV_GRANT_CORE : RegField := ⟨0x40, 4, 0⟩

/-- The registers of Tables 17.5 and 17.6, part 1. -/
def regsBMV1 : List RegDesc := [
  ⟨0x2000, [(0x80, 32)], false,
    [⟨R.BMV_CH_CTRL_START, .wo, 0x0, .any⟩, ⟨R.BMV_CH_CTRL_ABORT, .wo, 0x0, .any⟩, ⟨R.BMV_CH_CTRL_RESUME, .wo, 0x0, .any⟩, ⟨R.BMV_CH_CTRL_REQ, .rw, 0xff, .orElse 63 255⟩, ⟨R.BMV_CH_CTRL_IRQ_EN, .rw, 0x0, .any⟩, ⟨R.BMV_CH_CTRL_BIND, .rw, 0x0, .any⟩, ⟨R.BMV_CH_CTRL_MODE, .rw, 0x0, .oneOf [0, 1]⟩]⟩,
  ⟨0x2004, [(0x80, 32)], false,
    [⟨R.BMV_CH_SPACE_SSPACE, .rw, 0x0, .oneOf [0, 1, 2]⟩, ⟨R.BMV_CH_SPACE_SLINK, .rw, 0x0, .any⟩, ⟨R.BMV_CH_SPACE_DSPACE, .rw, 0x0, .oneOf [0, 1, 2]⟩, ⟨R.BMV_CH_SPACE_DLINK, .rw, 0x0, .any⟩]⟩,
  ⟨0x2008, [(0x80, 32)], false,
    [⟨R.BMV_CH_BURST_BYTES, .rw, 0x200, .mult 32 4096 32⟩]⟩,
  ⟨0x200c, [(0x80, 32)], false,
    [⟨R.BMV_CH_ELEM_ELEM, .rw, 0x40, .mult 8 4096 8⟩]⟩,
  ⟨0x2010, [(0x80, 32)], true,
    [⟨R.BMV_CH_SRC_LO_ADDR, .rw, 0x0, .any⟩]⟩,
  ⟨0x2014, [(0x80, 32)], false,
    [⟨R.BMV_CH_SRC_HI_ADDR, .rw, 0x0, .any⟩]⟩,
  ⟨0x2018, [(0x80, 32)], true,
    [⟨R.BMV_CH_DST_LO_ADDR, .rw, 0x0, .any⟩]⟩,
  ⟨0x201c, [(0x80, 32)], false,
    [⟨R.BMV_CH_DST_HI_ADDR, .rw, 0x0, .any⟩]⟩,
  ⟨0x2020, [(0x80, 32)], true,
    [⟨R.BMV_CH_TABLE_LO_ADDR, .rw, 0x0, .any⟩]⟩,
  ⟨0x2024, [(0x80, 32)], false,
    [⟨R.BMV_CH_TABLE_HI_ADDR, .rw, 0x0, .any⟩]⟩,
  ⟨0x2028, [(0x80, 32)], true,
    [⟨R.BMV_CH_STAT_LO_ADDR, .rw, 0x0, .any⟩]⟩,
  ⟨0x202c, [(0x80, 32)], false,
    [⟨R.BMV_CH_STAT_HI_ADDR, .rw, 0x0, .any⟩]⟩,
  ⟨0x2030, [(0x80, 32)], false,
    [⟨R.BMV_CH_LEN_LEN, .rw, 0x0, .any⟩]⟩,
  ⟨0x2034, [(0x80, 32)], false,
    [⟨R.BMV_CH_DWRAP_DWRAP, .rw, 0x0, .any⟩]⟩,
  ⟨0x2038, [(0x80, 32)], false,
    [⟨R.BMV_CH_STATUS_STATE, .ro, 0x0, .any⟩]⟩,
  ⟨0x203c, [(0x80, 32)], false,
    [⟨R.BMV_CH_RESIDUE_RESIDUE, .ro, 0x0, .any⟩]⟩]


/-- The registers of Tables 17.5 and 17.6, part 2. -/
def regsBMV2 : List RegDesc := [
  ⟨0x0, [], false,
    [⟨R.BMV_HALT_HALT, .ro, 0x0, .any⟩]⟩,
  ⟨0x4, [], false,
    [⟨R.BMV_ERR_INFO_VALID, .ro, 0x0, .any⟩, ⟨R.BMV_ERR_INFO_WRITE, .ro, 0x0, .any⟩, ⟨R.BMV_ERR_INFO_SPACE, .ro, 0x0, .any⟩, ⟨R.BMV_ERR_INFO_LINK, .ro, 0x0, .any⟩]⟩,
  ⟨0x8, [], true,
    [⟨R.BMV_ERR_ADDR_LO_ADDR, .ro, 0x0, .any⟩]⟩,
  ⟨0xc, [], false,
    [⟨R.BMV_ERR_ADDR_HI_ADDR, .ro, 0x0, .any⟩]⟩,
  ⟨0x40, [(0x4, 32)], false,
    [⟨R.BMV_GRANT_EN, .rw, 0x0, .any⟩, ⟨R.BMV_GRANT_OWNER, .rw, 0x0, .oneOf [0, 1, 2]⟩, ⟨R.BMV_GRANT_CORE, .rw, 0x0, .any⟩]⟩]

/-- The registers of Tables 17.5 and 17.6. -/
def regsBMV : List RegDesc := regsBMV1 ++ regsBMV2

/-! ### KCU: Table 17.7 -/

def R.KCU_LOCK_RELEASE : RegField := ⟨0x0, 3, 3⟩
def R.KCU_LOCK_CLAIM : RegField := ⟨0x0, 2, 2⟩
def R.KCU_LOCK_OTHER : RegField := ⟨0x0, 1, 1⟩
def R.KCU_LOCK_OWN : RegField := ⟨0x0, 0, 0⟩
def R.KCU_CMD_OP : RegField := ⟨0x4, 31, 28⟩
def R.KCU_CMD_KEK : RegField := ⟨0x4, 27, 24⟩
def R.KCU_DEST_KIND : RegField := ⟨0x8, 31, 28⟩
def R.KCU_DEST_INDEX : RegField := ⟨0x8, 15, 0⟩
def R.KCU_LEN_AAD : RegField := ⟨0xc, 28, 16⟩
def R.KCU_LEN_LEN : RegField := ⟨0xc, 12, 0⟩
def R.KCU_START_START : RegField := ⟨0x10, 0, 0⟩
def R.KCU_STATUS_OUT_LEN : RegField := ⟨0x14, 31, 16⟩
def R.KCU_STATUS_RESULT : RegField := ⟨0x14, 15, 8⟩
def R.KCU_STATUS_RUNNING : RegField := ⟨0x14, 1, 1⟩
def R.KCU_STATUS_DONE : RegField := ⟨0x14, 0, 0⟩
def R.KCU_KEY_KEY : RegField := ⟨0x20, 31, 0⟩
def R.KCU_IV_IV : RegField := ⟨0x40, 31, 0⟩

/-- The registers of Table 17.7. -/
def regsKCU : List RegDesc := [
  ⟨0x0, [], false,
    [⟨R.KCU_LOCK_RELEASE, .wo, 0x0, .any⟩, ⟨R.KCU_LOCK_CLAIM, .wo, 0x0, .any⟩, ⟨R.KCU_LOCK_OTHER, .ro, 0x0, .any⟩, ⟨R.KCU_LOCK_OWN, .ro, 0x0, .any⟩]⟩,
  ⟨0x4, [], false,
    [⟨R.KCU_CMD_OP, .rw, 0x0, .range 1 8⟩, ⟨R.KCU_CMD_KEK, .rw, 0x0, .any⟩]⟩,
  ⟨0x8, [], false,
    [⟨R.KCU_DEST_KIND, .rw, 0x0, .range 0 4⟩, ⟨R.KCU_DEST_INDEX, .rw, 0x0, .any⟩]⟩,
  ⟨0xc, [], false,
    [⟨R.KCU_LEN_AAD, .rw, 0x0, .any⟩, ⟨R.KCU_LEN_LEN, .rw, 0x0, .range 0 4096⟩]⟩,
  ⟨0x10, [], false,
    [⟨R.KCU_START_START, .wo, 0x0, .any⟩]⟩,
  ⟨0x14, [], false,
    [⟨R.KCU_STATUS_OUT_LEN, .ro, 0x0, .any⟩, ⟨R.KCU_STATUS_RESULT, .ro, 0x0, .any⟩, ⟨R.KCU_STATUS_RUNNING, .ro, 0x0, .any⟩, ⟨R.KCU_STATUS_DONE, .ro, 0x0, .any⟩]⟩,
  ⟨0x20, [(0x4, 8)], false,
    [⟨R.KCU_KEY_KEY, .wo, 0x0, .any⟩]⟩,
  ⟨0x40, [(0x4, 3)], false,
    [⟨R.KCU_IV_IV, .wo, 0x0, .any⟩]⟩]

/-! ### FLT: Table 18.11 -/

def R.FLT_WIN_COR_MS : RegField := ⟨0x0, 15, 0⟩
def R.FLT_WIN_DEG_MS : RegField := ⟨0x4, 15, 0⟩
def R.FLT_WIN_FAT_MS : RegField := ⟨0x8, 15, 0⟩
def R.FLT_MSGQ_LOST : RegField := ⟨0x10, 31, 16⟩
def R.FLT_MSGQ_FILL : RegField := ⟨0x10, 8, 0⟩
def R.FLT_WDOG_PERIOD : RegField := ⟨0x20, 15, 0⟩
def R.FLT_WDOG_KICK_KICK : RegField := ⟨0x24, 7, 0⟩
def R.FLT_ALIVE_CAUSE : RegField := ⟨0x28, 2, 1⟩
def R.FLT_ALIVE_START : RegField := ⟨0x28, 0, 0⟩
def R.FLT_BG_DUE_DUE : RegField := ⟨0x30, 10, 0⟩
def R.FLT_BG_OVERDUE_OVERDUE : RegField := ⟨0x34, 10, 0⟩
def R.FLT_STICKY_STICKY : RegField := ⟨0x400, 31, 0⟩
def R.FLT_SRC_CARRIED : RegField := ⟨0x1000, 7, 7⟩
def R.FLT_SRC_WIN : RegField := ⟨0x1000, 6, 6⟩
def R.FLT_SRC_ESC : RegField := ⟨0x1000, 5, 5⟩
def R.FLT_SRC_ROUTE : RegField := ⟨0x1000, 4, 4⟩
def R.FLT_SRC_SEV : RegField := ⟨0x1000, 2, 0⟩

/-- The registers of Table 18.11. -/
def regsFLT : List RegDesc := [
  ⟨0x0, [], false,
    [⟨R.FLT_WIN_COR_MS, .rw, 0x3e8, .range 100 10000⟩]⟩,
  ⟨0x4, [], false,
    [⟨R.FLT_WIN_DEG_MS, .rw, 0x7d0, .range 100 10000⟩]⟩,
  ⟨0x8, [], false,
    [⟨R.FLT_WIN_FAT_MS, .rw, 0x1f4, .range 100 10000⟩]⟩,
  ⟨0x10, [], false,
    [⟨R.FLT_MSGQ_LOST, .ro, 0x0, .any⟩, ⟨R.FLT_MSGQ_FILL, .ro, 0x0, .any⟩]⟩,
  ⟨0x20, [], false,
    [⟨R.FLT_WDOG_PERIOD, .rw, 0x7d0, .range 10 2000⟩]⟩,
  ⟨0x24, [], false,
    [⟨R.FLT_WDOG_KICK_KICK, .wo, 0x0, .any⟩]⟩,
  ⟨0x28, [], false,
    [⟨R.FLT_ALIVE_CAUSE, .ro, 0x1, .any⟩, ⟨R.FLT_ALIVE_START, .wo, 0x0, .any⟩]⟩,
  ⟨0x30, [], false,
    [⟨R.FLT_BG_DUE_DUE, .ro, 0x0, .any⟩]⟩,
  ⟨0x34, [], false,
    [⟨R.FLT_BG_OVERDUE_OVERDUE, .ro, 0x0, .any⟩]⟩,
  ⟨0x400, [(0x4, 11)], false,
    [⟨R.FLT_STICKY_STICKY, .rs, 0x0, .any⟩]⟩,
  ⟨0x1000, [(0x4, 352)], false,
    [⟨R.FLT_SRC_CARRIED, .ro, 0x0, .any⟩, ⟨R.FLT_SRC_WIN, .ro, 0x0, .any⟩, ⟨R.FLT_SRC_ESC, .ro, 0x0, .any⟩, ⟨R.FLT_SRC_ROUTE, .rw, 0x0, .any⟩, ⟨R.FLT_SRC_SEV, .rw, 0x1, .range 0 4⟩]⟩]

/-! ### PMC: Table 18.12 -/

def R.PMC_CTRL_SNAP : RegField := ⟨0x0, 2, 2⟩
def R.PMC_CTRL_SNAP_DONE : RegField := ⟨0x0, 1, 1⟩
def R.PMC_CTRL_FREEZE : RegField := ⟨0x0, 0, 0⟩
def R.PMC_SNAP_TIME_LO_NS : RegField := ⟨0x8, 31, 0⟩
def R.PMC_SNAP_TIME_HI_NS : RegField := ⟨0xc, 31, 0⟩
def R.PMC_SH_SEL_ADDR : RegField := ⟨0x10, 31, 0⟩
def R.PMC_SH_STAT_ERR : RegField := ⟨0x14, 1, 1⟩
def R.PMC_SH_STAT_VALID : RegField := ⟨0x14, 0, 0⟩
def R.PMC_SH_LO_LO : RegField := ⟨0x18, 31, 0⟩
def R.PMC_SH_HI_HI : RegField := ⟨0x1c, 31, 0⟩
def R.PMC_GSEL_EN : RegField := ⟨0x100, 31, 31⟩
def R.PMC_GSEL_MODE : RegField := ⟨0x100, 30, 30⟩
def R.PMC_GSEL_EVENT : RegField := ⟨0x100, 7, 0⟩

/-- The registers of Table 18.12. -/
def regsPMC : List RegDesc := [
  ⟨0x0, [], false,
    [⟨R.PMC_CTRL_SNAP, .wo, 0x0, .any⟩, ⟨R.PMC_CTRL_SNAP_DONE, .ro, 0x1, .any⟩, ⟨R.PMC_CTRL_FREEZE, .rw, 0x0, .any⟩]⟩,
  ⟨0x8, [], true,
    [⟨R.PMC_SNAP_TIME_LO_NS, .ro, 0x0, .any⟩]⟩,
  ⟨0xc, [], false,
    [⟨R.PMC_SNAP_TIME_HI_NS, .ro, 0x0, .any⟩]⟩,
  ⟨0x10, [], false,
    [⟨R.PMC_SH_SEL_ADDR, .rw, 0x0, .any⟩]⟩,
  ⟨0x14, [], false,
    [⟨R.PMC_SH_STAT_ERR, .ro, 0x0, .any⟩, ⟨R.PMC_SH_STAT_VALID, .ro, 0x0, .any⟩]⟩,
  ⟨0x18, [], true,
    [⟨R.PMC_SH_LO_LO, .ro, 0x0, .any⟩]⟩,
  ⟨0x1c, [], false,
    [⟨R.PMC_SH_HI_HI, .ro, 0x0, .any⟩]⟩,
  ⟨0x100, [(0x4, 16)], false,
    [⟨R.PMC_GSEL_EN, .rw, 0x0, .any⟩, ⟨R.PMC_GSEL_MODE, .rw, 0x0, .any⟩, ⟨R.PMC_GSEL_EVENT, .rw, 0x0, .range 0 0x0B⟩]⟩]

/-! ### PMCSEL: Table 18.13 (HDR and TLR) -/

def R.PMC_SEL_EN : RegField := ⟨0x3800, 31, 31⟩
def R.PMC_SEL_MODE : RegField := ⟨0x3800, 30, 30⟩
def R.PMC_SEL_EVENT : RegField := ⟨0x3800, 7, 0⟩

/-- The registers of Table 18.13, of a pipeline whose events are those that `a` accepts (Table 18.5). -/
def regsPMCSEL (a : Accepts) : List RegDesc := [
  ⟨0x3800, [(0x4, 8)], false,
    [⟨R.PMC_SEL_EN, .rw, 0x0, .any⟩, ⟨R.PMC_SEL_MODE, .rw, 0x0, .any⟩, ⟨R.PMC_SEL_EVENT, .rw, 0x0, a⟩]⟩]

/-! ### SEC: Table 19.8 -/

def R.SEC_LC_BUSY : RegField := ⟨0x0, 31, 31⟩
def R.SEC_LC_PHASE : RegField := ⟨0x0, 11, 8⟩
def R.SEC_LC_TORN : RegField := ⟨0x0, 7, 7⟩
def R.SEC_LC_STATE : RegField := ⟨0x0, 2, 0⟩
def R.SEC_LC_CTRL_GO : RegField := ⟨0x4, 3, 3⟩
def R.SEC_LC_CTRL_TARGET : RegField := ⟨0x4, 2, 0⟩
def R.SEC_LOCK_LCLOCK : RegField := ⟨0x8, 0, 0⟩
def R.SEC_SVN_COUNT : RegField := ⟨0xc, 6, 0⟩
def R.SEC_IMAGE_B_RESULT : RegField := ⟨0x10, 15, 12⟩
def R.SEC_IMAGE_A_RESULT : RegField := ⟨0x10, 11, 8⟩
def R.SEC_IMAGE_PREFER : RegField := ⟨0x10, 1, 1⟩
def R.SEC_IMAGE_RUNNING : RegField := ⟨0x10, 0, 0⟩
def R.SEC_DEBUG_KCU_DBG : RegField := ⟨0x14, 4, 4⟩
def R.SEC_DEBUG_LK_DEBUG : RegField := ⟨0x14, 3, 3⟩
def R.SEC_DEBUG_DFT : RegField := ⟨0x14, 2, 2⟩
def R.SEC_DEBUG_SURVEY : RegField := ⟨0x14, 1, 1⟩
def R.SEC_DEBUG_UNSIGNED : RegField := ⟨0x14, 0, 0⟩

/-- The registers of Table 19.8. -/
def regsSEC : List RegDesc := [
  ⟨0x0, [], false,
    [⟨R.SEC_LC_BUSY, .ro, 0x0, .any⟩, ⟨R.SEC_LC_PHASE, .ro, 0x0, .any⟩, ⟨R.SEC_LC_TORN, .rs, 0x0, .any⟩, ⟨R.SEC_LC_STATE, .ro, 0x0, .any⟩]⟩,
  ⟨0x4, [], false,
    [⟨R.SEC_LC_CTRL_GO, .rwl, 0x0, .any⟩, ⟨R.SEC_LC_CTRL_TARGET, .rwl, 0x0, .any⟩]⟩,
  ⟨0x8, [], false,
    [⟨R.SEC_LOCK_LCLOCK, .rwl, 0x0, .any⟩]⟩,
  ⟨0xc, [], false,
    [⟨R.SEC_SVN_COUNT, .ro, 0x0, .any⟩]⟩,
  ⟨0x10, [], false,
    [⟨R.SEC_IMAGE_B_RESULT, .ro, 0x0, .any⟩, ⟨R.SEC_IMAGE_A_RESULT, .ro, 0x0, .any⟩, ⟨R.SEC_IMAGE_PREFER, .ro, 0x0, .any⟩, ⟨R.SEC_IMAGE_RUNNING, .ro, 0x0, .any⟩]⟩,
  ⟨0x14, [], false,
    [⟨R.SEC_DEBUG_KCU_DBG, .ro, 0x0, .any⟩, ⟨R.SEC_DEBUG_LK_DEBUG, .ro, 0x0, .any⟩, ⟨R.SEC_DEBUG_DFT, .ro, 0x0, .any⟩, ⟨R.SEC_DEBUG_SURVEY, .ro, 0x0, .any⟩, ⟨R.SEC_DEBUG_UNSIGNED, .ro, 0x0, .any⟩]⟩]

/-! ### ICR: the text above Table 17.8 -/

def R.ICR_SA_ADDR_INDEX : RegField := ⟨0x0, 15, 0⟩
def R.ICR_SA_CMD_WRITE : RegField := ⟨0x4, 1, 1⟩
def R.ICR_SA_CMD_READ : RegField := ⟨0x4, 0, 0⟩
def R.ICR_SA_DATA_DATA : RegField := ⟨0x20, 31, 0⟩

/-- The registers of the text above Table 17.8. -/
def regsICR : List RegDesc := [
  ⟨0x0, [], false,
    [⟨R.ICR_SA_ADDR_INDEX, .rw, 0x0, .any⟩]⟩,
  ⟨0x4, [], false,
    [⟨R.ICR_SA_CMD_WRITE, .wo, 0x0, .any⟩, ⟨R.ICR_SA_CMD_READ, .wo, 0x0, .any⟩]⟩,
  ⟨0x20, [(0x4, 8)], false,
    [⟨R.ICR_SA_DATA_DATA, .rw, 0x0, .any⟩]⟩]

/-! ### Counters -/

def C.HDR_STAGE_DROP : Nat := 0x1338
def C.HDR_VOQ_ADMIT_DROP : Nat := 0x1300
def C.HDR_RED_DROP_GREEN : Nat := 0x1308
def C.HDR_RED_DROP_YELLOW : Nat := 0x1310
def C.HDR_RED_DROP_RED : Nat := 0x1318
def C.HDR_HDRM_DROP : Nat := 0x1320
def C.HDR_SPILLED : Nat := 0x1328
def C.HDR_XOFF_EVENTS : Nat := 0x1330

/-- The 64-bit counters of the HDR instances. -/
def cntsHDR : List CntDesc := [
  ⟨C.HDR_STAGE_DROP, []⟩,
  ⟨C.HDR_VOQ_ADMIT_DROP, []⟩,
  ⟨C.HDR_RED_DROP_GREEN, []⟩,
  ⟨C.HDR_RED_DROP_YELLOW, []⟩,
  ⟨C.HDR_RED_DROP_RED, []⟩,
  ⟨C.HDR_HDRM_DROP, []⟩,
  ⟨C.HDR_SPILLED, []⟩,
  ⟨C.HDR_XOFF_EVENTS, []⟩]

def C.ETH_RX_OCTETS : Nat := 0x1000
def C.ETH_RX_FRAMES : Nat := 0x1008
def C.ETH_RX_RUNT : Nat := 0x1010
def C.ETH_RX_OVERSIZE : Nat := 0x1018
def C.ETH_RX_FCS_ERR : Nat := 0x1020
def C.ETH_RX_PCS_ERR : Nat := 0x1028
def C.ETH_RX_PAUSE : Nat := 0x1030
def C.ETH_RX_CTRL_DROP : Nat := 0x1038
def C.ETH_RX_MACSEC_DROP : Nat := 0x1040
def C.ETH_RX_LIMIT_DROP : Nat := 0x1048
def C.ETH_FEC_CORR_CW : Nat := 0x1050
def C.ETH_FEC_UNCORR_CW : Nat := 0x1058
def C.ETH_TX_OCTETS : Nat := 0x1060
def C.ETH_TX_FRAMES : Nat := 0x1068
def C.ETH_TX_PAUSE : Nat := 0x1070
def C.ETH_TX_OVERSIZE : Nat := 0x1078
def C.ETH_TX_PN_DROP : Nat := 0x1080
def C.ETH_TX_ABORT : Nat := 0x1088
def C.ETH_LINK_DOWN : Nat := 0x1090
def C.ETH_SC_DROP : Nat := 0x1800

/-- The 64-bit counters of the ETH instances. -/
def cntsETH : List CntDesc := [
  ⟨C.ETH_RX_OCTETS, [(0x100, 4)]⟩,
  ⟨C.ETH_RX_FRAMES, [(0x100, 4)]⟩,
  ⟨C.ETH_RX_RUNT, [(0x100, 4)]⟩,
  ⟨C.ETH_RX_OVERSIZE, [(0x100, 4)]⟩,
  ⟨C.ETH_RX_FCS_ERR, [(0x100, 4)]⟩,
  ⟨C.ETH_RX_PCS_ERR, [(0x100, 4)]⟩,
  ⟨C.ETH_RX_PAUSE, [(0x100, 4)]⟩,
  ⟨C.ETH_RX_CTRL_DROP, [(0x100, 4)]⟩,
  ⟨C.ETH_RX_MACSEC_DROP, [(0x100, 4)]⟩,
  ⟨C.ETH_RX_LIMIT_DROP, [(0x100, 4)]⟩,
  ⟨C.ETH_FEC_CORR_CW, [(0x100, 4)]⟩,
  ⟨C.ETH_FEC_UNCORR_CW, [(0x100, 4)]⟩,
  ⟨C.ETH_TX_OCTETS, [(0x100, 4)]⟩,
  ⟨C.ETH_TX_FRAMES, [(0x100, 4)]⟩,
  ⟨C.ETH_TX_PAUSE, [(0x100, 4)]⟩,
  ⟨C.ETH_TX_OVERSIZE, [(0x100, 4)]⟩,
  ⟨C.ETH_TX_PN_DROP, [(0x100, 4)]⟩,
  ⟨C.ETH_TX_ABORT, [(0x100, 4)]⟩,
  ⟨C.ETH_LINK_DOWN, [(0x100, 4)]⟩,
  ⟨C.ETH_SC_DROP, [(0x8, 16)]⟩]

def C.HUSK_PARSED : Nat := 0x1000
def C.HUSK_END_BEYOND : Nat := 0x1008
def C.HUSK_END_TRUNC : Nat := 0x1010
def C.HUSK_END_LENGTH : Nat := 0x1018
def C.HUSK_END_VALUE : Nat := 0x1020
def C.HUSK_END_CSUM : Nat := 0x1028
def C.HUSK_END_DEPTH : Nat := 0x1030
def C.HUSK_END_UNKNOWN : Nat := 0x1038
def C.HUSK_END_GRAPH : Nat := 0x1040
def C.HUSK_DROPPED : Nat := 0x1048
def C.HUSK_LR_PARSED : Nat := 0x1050

/-- The 64-bit counters of the HUSK instances. -/
def cntsHUSK : List CntDesc := [
  ⟨C.HUSK_PARSED, []⟩,
  ⟨C.HUSK_END_BEYOND, []⟩,
  ⟨C.HUSK_END_TRUNC, []⟩,
  ⟨C.HUSK_END_LENGTH, []⟩,
  ⟨C.HUSK_END_VALUE, []⟩,
  ⟨C.HUSK_END_CSUM, []⟩,
  ⟨C.HUSK_END_DEPTH, []⟩,
  ⟨C.HUSK_END_UNKNOWN, []⟩,
  ⟨C.HUSK_END_GRAPH, []⟩,
  ⟨C.HUSK_DROPPED, []⟩,
  ⟨C.HUSK_LR_PARSED, []⟩]

def C.GATE_GATE_ABORT : Nat := 0x1200
def C.GATE_LIMIT_ABORT : Nat := 0x1208
def C.GATE_BAD_WORD : Nat := 0x1210
def C.GATE_RO_WRITE : Nat := 0x1218
def C.GATE_REASON : Nat := 0x1400
def C.GATE_PMC_CNT : Nat := 0x3840
def C.GATE_PMC_TD : Nat := 0x3900

/-- The 64-bit counters of the GATE instances. -/
def cntsGATE : List CntDesc := [
  ⟨C.GATE_GATE_ABORT, []⟩,
  ⟨C.GATE_LIMIT_ABORT, []⟩,
  ⟨C.GATE_BAD_WORD, []⟩,
  ⟨C.GATE_RO_WRITE, []⟩,
  ⟨C.GATE_REASON, [(0x8, 64)]⟩,
  ⟨C.GATE_PMC_CNT, [(0x8, 8)]⟩,
  ⟨C.GATE_PMC_TD, [(0x20, 12), (0x8, 4)]⟩]

def C.TLR_EDIT_ERR : Nat := 0x1220
def C.TLR_LT_SENT : Nat := 0x1600
def C.TLR_LT_LATE_SENT : Nat := 0x1608
def C.TLR_LT_LATE_DROP : Nat := 0x1610
def C.TLR_LT_FAR_DROP : Nat := 0x1618
def C.TLR_RX_NOBUF_DROP : Nat := 0x1620
def C.TLR_TX_PKTS : Nat := 0x1800
def C.TLR_TX_OCTETS : Nat := 0x1808

/-- The 64-bit counters of the TLR instances. -/
def cntsTLR : List CntDesc := [
  ⟨C.TLR_EDIT_ERR, []⟩,
  ⟨C.TLR_LT_SENT, []⟩,
  ⟨C.TLR_LT_LATE_SENT, []⟩,
  ⟨C.TLR_LT_LATE_DROP, []⟩,
  ⟨C.TLR_LT_FAR_DROP, []⟩,
  ⟨C.TLR_RX_NOBUF_DROP, []⟩,
  ⟨C.TLR_TX_PKTS, [(0x80, 10), (0x10, 8)]⟩,
  ⟨C.TLR_TX_OCTETS, [(0x80, 10), (0x10, 8)]⟩]

def C.SEED_LEARN_POSTED : Nat := 0x1000
def C.SEED_LEARN_FILTERED : Nat := 0x1008
def C.SEED_LEARN_OVERFLOW : Nat := 0x1010
def C.SEED_AGED : Nat := 0x1018
def C.SEED_AGE_CANCELLED : Nat := 0x1020
def C.SEED_REMOTE_HIT : Nat := 0x1028
def C.SEED_PARITY_MISS : Nat := 0x1030

/-- The 64-bit counters of the SEED instances. -/
def cntsSEED : List CntDesc := [
  ⟨C.SEED_LEARN_POSTED, []⟩,
  ⟨C.SEED_LEARN_FILTERED, []⟩,
  ⟨C.SEED_LEARN_OVERFLOW, []⟩,
  ⟨C.SEED_AGED, []⟩,
  ⟨C.SEED_AGE_CANCELLED, []⟩,
  ⟨C.SEED_REMOTE_HIT, []⟩,
  ⟨C.SEED_PARITY_MISS, []⟩]

def C.SIEV_PARITY_MISS : Nat := 0x1000

/-- The 64-bit counters of the SIEV instances. -/
def cntsSIEV : List CntDesc := [
  ⟨C.SIEV_PARITY_MISS, []⟩]

def C.RSVHT_HT_LOOKUPS : Nat := 0x1800
def C.RSVHT_HT_HITS : Nat := 0x1808
def C.RSVHT_HT_TOUCHES : Nat := 0x1810
def C.RSVHT_EXPIRED : Nat := 0x1818
def C.RSVHT_UPDATE_REFUSED : Nat := 0x1820
def C.RSVHT_ECC_MISS : Nat := 0x1828

/-- The 64-bit counters of the RSVHT instances. -/
def cntsRSVHT : List CntDesc := [
  ⟨C.RSVHT_HT_LOOKUPS, [(0x40, 8)]⟩,
  ⟨C.RSVHT_HT_HITS, [(0x40, 8)]⟩,
  ⟨C.RSVHT_HT_TOUCHES, [(0x40, 8)]⟩,
  ⟨C.RSVHT_EXPIRED, [(0x40, 8)]⟩,
  ⟨C.RSVHT_UPDATE_REFUSED, [(0x40, 8)]⟩,
  ⟨C.RSVHT_ECC_MISS, [(0x40, 8)]⟩]

def C.WEIR_ECN_MARKED : Nat := 0x2000
def C.WEIR_FLUSHED : Nat := 0x2100

/-- The 64-bit counters of the WEIR instances. -/
def cntsWEIR : List CntDesc := [
  ⟨C.WEIR_ECN_MARKED, [(0x8, 16)]⟩,
  ⟨C.WEIR_FLUSHED, [(0x8, 96)]⟩]

def C.TAP_REC_WRITTEN : Nat := 0x1000
def C.TAP_REC_LOST : Nat := 0x1080

/-- The 64-bit counters of the TAP instances. -/
def cntsTAP : List CntDesc := [
  ⟨C.TAP_REC_WRITTEN, [(0x8, 16)]⟩,
  ⟨C.TAP_REC_LOST, [(0x8, 16)]⟩]

def C.HPT_UR_SENT : Nat := 0x1000
def C.HPT_CTO_EVENTS : Nat := 0x1008
def C.HPT_UNEXP_CPL : Nat := 0x1010
def C.HPT_POISON_RX : Nat := 0x1018
def C.HPT_POISON_CPL : Nat := 0x1020
def C.HPT_WINDOW_ERR : Nat := 0x1028
def C.HPT_LINK_DOWN : Nat := 0x1030
def C.HPT_FLR_DONE : Nat := 0x1038
def C.HPT_SLOT8_FLUSHED : Nat := 0x1040
def C.HPT_L1_ENTRIES : Nat := 0x1048
def C.HPT_L0P_CHANGES : Nat := 0x1050

/-- The 64-bit counters of the HPT instances. -/
def cntsHPT : List CntDesc := [
  ⟨C.HPT_UR_SENT, []⟩,
  ⟨C.HPT_CTO_EVENTS, []⟩,
  ⟨C.HPT_UNEXP_CPL, []⟩,
  ⟨C.HPT_POISON_RX, []⟩,
  ⟨C.HPT_POISON_CPL, []⟩,
  ⟨C.HPT_WINDOW_ERR, []⟩,
  ⟨C.HPT_LINK_DOWN, []⟩,
  ⟨C.HPT_FLR_DONE, []⟩,
  ⟨C.HPT_SLOT8_FLUSHED, []⟩,
  ⟨C.HPT_L1_ENTRIES, []⟩,
  ⟨C.HPT_L0P_CHANGES, []⟩]

def C.TIME_PTP_RX : Nat := 0x1000
def C.TIME_PTP_TX : Nat := 0x1008
def C.TIME_PTP_RX_BAD : Nat := 0x1010
def C.TIME_SRC_SWITCH : Nat := 0x1018
def C.TIME_STEPS : Nat := 0x1020
def C.TIME_TOD_RX_BAD : Nat := 0x1028
def C.TIME_PTM_EXCH : Nat := 0x1100
def C.TIME_PTM_FAIL : Nat := 0x1108
def C.TIME_PAGE_WRITES : Nat := 0x1200

/-- The 64-bit counters of the TIME instances. -/
def cntsTIME : List CntDesc := [
  ⟨C.TIME_PTP_RX, []⟩,
  ⟨C.TIME_PTP_TX, []⟩,
  ⟨C.TIME_PTP_RX_BAD, []⟩,
  ⟨C.TIME_SRC_SWITCH, []⟩,
  ⟨C.TIME_STEPS, []⟩,
  ⟨C.TIME_TOD_RX_BAD, []⟩,
  ⟨C.TIME_PTM_EXCH, [(0x10, 16)]⟩,
  ⟨C.TIME_PTM_FAIL, [(0x10, 16)]⟩,
  ⟨C.TIME_PAGE_WRITES, [(0x8, 16)]⟩]

def C.SILO_WRITES_ACKED : Nat := 0x1000
def C.SILO_GRANT_WAITS : Nat := 0x1008
def C.SILO_DESTAGED : Nat := 0x1010
def C.SILO_READ_HITS : Nat := 0x1018
def C.SILO_REPLACED : Nat := 0x1020
def C.SILO_READ_UNRECOVERED : Nat := 0x1028

/-- The 64-bit counters of the SILO instances. -/
def cntsSILO : List CntDesc := [
  ⟨C.SILO_WRITES_ACKED, []⟩,
  ⟨C.SILO_GRANT_WAITS, []⟩,
  ⟨C.SILO_DESTAGED, []⟩,
  ⟨C.SILO_READ_HITS, []⟩,
  ⟨C.SILO_REPLACED, []⟩,
  ⟨C.SILO_READ_UNRECOVERED, []⟩]

def C.CND_RETRANSMITS : Nat := 0x1000
def C.CND_DUP_RX : Nat := 0x1008
def C.CND_OOO_RX : Nat := 0x1010
def C.CND_BAD_PSN : Nat := 0x1018
def C.CND_RNR : Nat := 0x1020

/-- The 64-bit counters of the CND instances. -/
def cntsCND : List CntDesc := [
  ⟨C.CND_RETRANSMITS, [(0x40, 64)]⟩,
  ⟨C.CND_DUP_RX, [(0x40, 64)]⟩,
  ⟨C.CND_OOO_RX, [(0x40, 64)]⟩,
  ⟨C.CND_BAD_PSN, [(0x40, 64)]⟩,
  ⟨C.CND_RNR, [(0x40, 64)]⟩]

def C.RSV_CE_CORR : Nat := 0x1000
def C.RSV_UE : Nat := 0x1008
def C.RSV_SCRUB_CE : Nat := 0x1010
def C.RSV_SCRUB_UE : Nat := 0x1018
def C.RSV_CATCHUP : Nat := 0x1020
def C.RSV_NBR_REFRESH : Nat := 0x1028
def C.RSV_INORDER : Nat := 0x1030

/-- The 64-bit counters of the RSV instances. -/
def cntsRSV : List CntDesc := [
  ⟨C.RSV_CE_CORR, []⟩,
  ⟨C.RSV_UE, []⟩,
  ⟨C.RSV_SCRUB_CE, []⟩,
  ⟨C.RSV_SCRUB_UE, []⟩,
  ⟨C.RSV_CATCHUP, []⟩,
  ⟨C.RSV_NBR_REFRESH, []⟩,
  ⟨C.RSV_INORDER, []⟩]

def C.HOP_ALLOCS : Nat := 0x1000
def C.HOP_FREES : Nat := 0x1008
def C.HOP_EMPTY : Nat := 0x1010
def C.HOP_SPILL_IN : Nat := 0x1018
def C.HOP_DOUBLE_FREE : Nat := 0x1100
def C.HOP_BAD_FREE : Nat := 0x1108
def C.HOP_LINK_ERR : Nat := 0x1110

/-- The 64-bit counters of the HOP instances. -/
def cntsHOP : List CntDesc := [
  ⟨C.HOP_ALLOCS, [(0x20, 8)]⟩,
  ⟨C.HOP_FREES, [(0x20, 8)]⟩,
  ⟨C.HOP_EMPTY, [(0x20, 8)]⟩,
  ⟨C.HOP_SPILL_IN, [(0x20, 8)]⟩,
  ⟨C.HOP_DOUBLE_FREE, []⟩,
  ⟨C.HOP_BAD_FREE, []⟩,
  ⟨C.HOP_LINK_ERR, []⟩]

def C.BMV_BURSTS : Nat := 0x1000
def C.BMV_BUS_ERRORS : Nat := 0x1008
def C.BMV_ABORTS : Nat := 0x1010
def C.BMV_FAILED : Nat := 0x1018

/-- The 64-bit counters of the BMV instances. -/
def cntsBMV : List CntDesc := [
  ⟨C.BMV_BURSTS, []⟩,
  ⟨C.BMV_BUS_ERRORS, []⟩,
  ⟨C.BMV_ABORTS, []⟩,
  ⟨C.BMV_FAILED, []⟩]

def C.ICR_ESP_TX : Nat := 0x1000
def C.ICR_ESP_RX : Nat := 0x1008
def C.ICR_AUTH_FAIL : Nat := 0x1010
def C.ICR_REPLAY_DROP : Nat := 0x1018
def C.ICR_SEQ_EXHAUSTED : Nat := 0x1020
def C.ICR_NO_SA_PASS : Nat := 0x1028

/-- The 64-bit counters of the ICR instances. -/
def cntsICR : List CntDesc := [
  ⟨C.ICR_ESP_TX, []⟩,
  ⟨C.ICR_ESP_RX, []⟩,
  ⟨C.ICR_AUTH_FAIL, []⟩,
  ⟨C.ICR_REPLAY_DROP, []⟩,
  ⟨C.ICR_SEQ_EXHAUSTED, []⟩,
  ⟨C.ICR_NO_SA_PASS, []⟩]

def C.PMC_GCNT : Nat := 0x200

/-- The 64-bit counters of the PMC instances. -/
def cntsPMC : List CntDesc := [
  ⟨C.PMC_GCNT, [(0x8, 16)]⟩]

def C.FLT_MSGS : Nat := 0x1800

/-- The 64-bit counters of the FLT instances. -/
def cntsFLT : List CntDesc := [
  ⟨C.FLT_MSGS, []⟩]

def C.SEC_REFUSED : Nat := 0x1000

/-- The 64-bit counters of the SEC instances. -/
def cntsSEC : List CntDesc := [
  ⟨C.SEC_REFUSED, []⟩]

def C.PLOT_NOQ_DROP : Nat := 0x400

/-- The 64-bit counters of the PLOT instances. -/
def cntsPLOT : List CntDesc := [
  ⟨C.PLOT_NOQ_DROP, []⟩]

end Sys2Proof.Machine
end

