-- ==== Sys2Proof/Machine/Table.lean ====
section
/-! DEFINITION. Sparse memories in canonical form: reading, writing, removing, and the form itself. `d k` is what an
unlisted index `k` holds. -/
namespace Sys2Proof.Machine

/-- The content at index `k`. -/
def tget {α : Type} (d : Nat → α) : Table α → Nat → α
  | [], k => d k
  | (i, v) :: t, k => if i = k then v else tget d t k

/-- The memory with the entry `v` at index `k`. -/
def tins {α : Type} : Table α → Nat → α → Table α
  | [], k, v => [(k, v)]
  | (i, w) :: t, k, v =>
    if k < i then (k, v) :: (i, w) :: t else if k = i then (k, v) :: t else (i, w) :: tins t k v

/-- The memory with `v` at index `k`; writing what an unlisted index holds removes the entry. -/
def tput {α : Type} [DecidableEq α] (d : Nat → α) (t : Table α) (k : Nat) (v : α) : Table α :=
  if v = d k then t.filter (fun e => decide (e.1 ≠ k)) else tins t k v

/-- The memory without the entries whose index satisfies `p` (a reset of those contents). -/
def tdrop {α : Type} (p : Nat → Bool) (t : Table α) : Table α := t.filter (fun e => !p e.1)

/-- Every listed index lies above `b`. -/
def tabove {α : Type} (b : Nat) : Table α → Bool
  | [] => true
  | (i, _) :: t => decide (b < i) && tabove b t

/-- Canonical form: indices strictly rising, and no entry equal to what an unlisted index holds. -/
def twf {α : Type} [DecidableEq α] (d : Nat → α) : Table α → Bool
  | [] => true
  | (i, v) :: t => decide (v ≠ d i) && tabove i t && twf d t

/-- What a byte that nothing has written reads as: 0 (DESIGN CHOICE, assumption 25), but in the MSI-X tables the vector
control byte of each entry, whose mask bit is 1 at reset (PRESUMED with the layout, assumption 46). -/
def memReset (a : Nat) : Byte :=
  if 0x4_0000_0000 ≤ a && a < 0x5_0000_0000 && a % 0x1_0000 < 0x8000 && a % 16 = 12 then 1 else 0

/-- The read of one byte of a byte memory. -/
def byteAt (m : List Host.Cell) (a : Nat) : Byte := tget memReset m a

/-- One byte written into a byte memory. -/
def putByte (m : List Host.Cell) (a : Nat) (v : Byte) : List Host.Cell := tput memReset m a v

/-- Canonical form of a byte memory. -/
def memWf (m : List Host.Cell) : Bool := twf memReset m

/-- `n` bytes from address `a`. -/
def bytesAt (m : List Host.Cell) (a : Nat) : Nat → List Byte
  | 0 => []
  | n + 1 => byteAt m a :: bytesAt m (a + 1) n

/-- A run of bytes written from address `a`. -/
def putBytes (m : List Host.Cell) (a : Nat) : List Byte → List Host.Cell
  | [] => m
  | b :: bs => putBytes (putByte m a b) (a + 1) bs

/-- A byte list cut or zero-padded to `n` bytes. -/
def fit : Nat → List Byte → List Byte
  | 0, _ => []
  | n + 1, [] => 0 :: fit n []
  | n + 1, b :: bs => b :: fit n bs

/-- The little-endian number that a byte list spells (R6). -/
def leNat : List Byte → Nat
  | [] => 0
  | b :: bs => b.toNat + 256 * leNat bs

/-- The `n` little-endian bytes of a number (R6). -/
def leBytes : Nat → Nat → List Byte
  | 0, _ => []
  | n + 1, v => BitVec.ofNat 8 v :: leBytes n (v / 256)

/-- The network-order number that a byte list spells (R6). -/
def beNat (l : List Byte) : Nat := l.foldl (fun a b => a * 256 + b.toNat) 0

/-- The `n` network-order bytes of a number (R6). -/
def beBytes (n v : Nat) : List Byte := (leBytes n v).reverse

/-- Bits `[hi:lo]` of a number (R4). -/
def bitsOf (v hi lo : Nat) : Nat := (v / 2 ^ lo) % 2 ^ (hi + 1 - lo)

/-- A number with bits `[hi:lo]` replaced. -/
def setBits (v hi lo x : Nat) : Nat :=
  v - bitsOf v hi lo * 2 ^ lo + (x % 2 ^ (hi + 1 - lo)) * 2 ^ lo

/-- Bit `i` of a number. -/
def bitOf (v i : Nat) : Bool := (v / 2 ^ i) % 2 == 1

/-- A number read as two's complement of `w` bits. -/
def signedOf (w v : Nat) : Int := if v < 2 ^ (w - 1) then (v : Int) else (v : Int) - 2 ^ w

/-- An integer as `w` bits of two's complement. -/
def toSigned (w : Nat) (v : Int) : Nat := (v % (2 ^ w : Int)).toNat

/-- A count held at its largest value. -/
def sat (max v : Nat) : Nat := if v > max then max else v

/-- The bit of a flag. -/
def bit (b : Bool) : Nat := if b then 1 else 0

end Sys2Proof.Machine
end

