-- ==== Sys2Proof/Machine/State.lean ====
section
/-! DEFINITION. The state of the device as plain data: the register file, the sparse memories, the engines, the
queue of waiting commands, the state right after a cold reset, and the reasons a step can stop. -/
namespace Sys2Proof.Machine

/-! ### Answers and outputs -/

/-- How the last register access ended (R52, R53, R258). -/
inductive Reply where
  | none
  /-- A read's data. -/
  | data (v : Nat)
  /-- A read of bytes of a memory-like range. -/
  | bytes (l : List Byte)
  /-- A write was taken. -/
  | ok
  /-- The access waits for its crossing (R56). -/
  | stalled
  /-- Refused to an internal master or a core. -/
  | busError
  /-- Refused to a host: a UR completion, or a discarded write logged as unsupported. -/
  | ur
  /-- Request Retry Status to a configuration request (R87). -/
  | rrs
  /-- Discarded in silence (Table 11.5). -/
  | discarded
  deriving DecidableEq, Repr

/-- What the device sends out, in order. -/
inductive Out where
  /-- A posted write to host memory of link `m` for function `fn`. -/
  | write (m fn addr : Nat) (data : List Byte)
  /-- An MSI-X message of function `fn`, vector `vec`. -/
  | msix (m fn vec : Nat)
  /-- A device-initiated read of `len` bytes of host memory. -/
  | read (m fn addr len : Nat)
  /-- The mailbox interrupt of a core, or the interrupt of a bulk-mover channel it owns. -/
  | coreIrq (n : Nat)
  /-- The ring interrupt of core ring r (R300). -/
  | ringIrq (r : Nat)
  /-- An AVSBus voltage request in mV. -/
  | avs (mv : Nat)
  /-- A level driven on an output pin. -/
  | pin (name : String) (level : Bool)
  /-- A frame sent on an Ethernet port, with its departure time word. -/
  | frame (port : Nat) (data : List Byte) (time : Nat)
  /-- A PAUSE or PFC frame on a port: class mask and pause time of each enabled class. -/
  | pause (port mask quanta : Nat)
  /-- An NVMe command to a drive or to the vault (32). -/
  | drive (d : Nat) (what : String) (a n : Nat)
  /-- A Conduit packet of connection `c`. -/
  | conduit (c : Nat) (kind : String) (psn : Nat) (data : List Byte)
  /-- A PTP message on a port. -/
  | ptp (port : Nat) (kind : String) (time : Nat)
  /-- The error block that ends a frame in progress on an Ethernet port (R114). -/
  | abort (port : Nat)
  /-- What a lane group does on its module's management segment (R124). -/
  | segment (g : Nat) (what : String)
  /-- What the device does on a management bus whose data line is held low (R460). -/
  | bus (b : MgmtBus) (what : String)
  /-- An edge on a PPS output, or a ToD message for it. -/
  | pps (n : Nat) (time : Nat)
  | tod (n : Nat) (data : List Byte)
  /-- A PTM request on a link. -/
  | ptm (m : Nat)
  /-- A PCIe configuration or power message on a link. -/
  | link (m : Nat) (what : String)
  /-- A management (SPDM over MCTP) response: over SMBus (0) or link via - 1, its code and contents. -/
  | spdm (via code : Nat) (data : List Byte)
  /-- A miss notice passed to a core's mailbox (R198). -/
  | missNotice (n : Nat) (data : List Byte)
  /-- A read or write reaching a Reservoir stack. -/
  | rsv (s : Nat) (what : String) (a : Nat)
  deriving DecidableEq, Repr

/-! ### Register accesses in flight (R56) -/

/-- What an access in flight does when it has crossed. -/
inductive AccKind where
  | read | write | set | clear | toggle
  deriving DecidableEq, Repr

structure Crossing where
  who : Master
  key : Nat
  kind : AccKind
  size : Nat
  v : Nat
  /-- The access goes to another power domain than its master's path, and has to cross. -/
  slow : Bool
  /-- Local count at which the crossing began, once it is the oldest access of its master. -/
  at_ : Nat
  /-- An access of the DEV_REG_READ or DEV_REG_WRITE that runs (R76). -/
  job : Bool
  deriving DecidableEq, Repr

/-! ### Mailboxes (R64 to R79, R471) -/

/-- The copy of a command slot that a doorbell took (R66). -/
structure Cmd where
  opcode : Nat
  tagField : Nat
  phase : Nat
  irq : Bool
  mgen : Nat
  len : Nat
  args : List Byte
  /-- Place in the order in which commands were accepted (R71). -/
  at_ : Nat
  deriving DecidableEq, Repr

/-- A final result (Table 3.8). -/
structure Final where
  status : Nat
  orig : Nat
  retry : Nat
  data : List Byte
  deriving DecidableEq, Repr

/-- What is kept of the last command of the generation before (R77, R471). -/
structure OldTag where
  mgen : Nat
  /-- The status and EFFECT recorded, or `none` while the command still finishes or rolls back. -/
  settled : Option (Nat × Nat)
  opcode : Nat
  deriving DecidableEq, Repr

/-- One tag of a mailbox. -/
structure TagSt where
  /-- The command in progress. -/
  cur : Option Cmd
  /-- Phase and MGEN of the last command accepted in the current generation. -/
  last : Option (Nat × Nat)
  /-- The final result of the last command accepted, once it is final. -/
  fin : Option Final
  old : Option OldTag
  deriving DecidableEq, Repr

def TagSt.idle : TagSt := { cur := none, last := none, fin := none, old := none }

/-- A Lockkeeper command whose work goes on over several steps: who asked, in which mailbox generation, which opcode,
and the object it holds (R69, R71). -/
structure Job where
  q : Req
  mgen : Nat
  opcode : Nat
  obj : Nat
  /-- When it is due, for a command that answers at a fixed time. -/
  due : Nat
  /-- The status and data it will answer, for such a command. -/
  st : Nat
  data : List Byte
  deriving DecidableEq, Repr

/-- A DEV_REG_READ or DEV_REG_WRITE whose accesses have not all crossed (R76): the requester and its mailbox generation, the
next address, the words still to access, the index of the next, the words read, and the value and mask of a write. -/
structure RegJob where
  q : Req
  mgen : Nat
  addr : Nat
  left : Nat
  index : Nat
  acc : List Byte
  wr : Option (Nat × Nat)
  deriving DecidableEq, Repr

/-! ### Pace, power and modes (chapters 2 and 4) -/

/-- Operating modes, with the codes of Table 4.1. -/
inductive Mode where
  | fallow | priming | flowing | trickle | drain | survey
  deriving DecidableEq, Repr

structure Gov where
  /-- The last request the regulator acknowledged, in mV (R39). -/
  lastAck : Nat
  /-- The last command, while nothing shows whether the regulator acknowledges it. -/
  sent : Option Nat
  /-- Commands not acknowledged in a row. -/
  nacks : Nat
  /-- VCORE and P_m recorded in Priming (Table 2.4). -/
  calTable : List (Nat × Nat)
  /-- The step of that sweep, in mV. -/
  goal : Nat
  /-- The request at the last reading of device power. -/
  readV : Nat
  /-- Surge credit in units of 0.1 µJ, at most 40,000,000 (R45). -/
  credit : Nat
  /-- A surge has ended and the credit is not yet full. -/
  surgeEnd : Bool
  /-- Power passed 700 W and is not yet at or below 680 W (R46). -/
  backoff : Bool
  /-- Successive readings of Tj above 115 °C, at or below 115 °C, at or above 125 °C, at or below 100 °C. -/
  above115 : Nat
  below115 : Nat
  above125 : Nat
  below100 : Nat
  /-- Successive readings above 100 °C. -/
  above100 : Nat
  deriving DecidableEq, Repr

def Gov.init : Gov :=
  { lastAck := 0, sent := none, nacks := 0, calTable := [], goal := 0, readV := 0, credit := 40000000, surgeEnd := false,
    backoff := false, above115 := 0, below115 := 0, above125 := 0, below100 := 0, above100 := 0 }

/-- What can trigger a transition (Table 4.2). -/
inductive Trigger where
  | trickle
  | warm (fatal : Bool)
  deriving DecidableEq, Repr

/-- What started a Drain (Table 4.11). -/
inductive DrainCause where
  | power | latched | pin
  deriving DecidableEq, Repr

inductive StepSt where
  | waiting | running | done | failed
  deriving DecidableEq, Repr

structure ModeSt where
  /-- The Lockkeeper firmware runs (Table 4.3). -/
  lkRunning : Bool
  /-- The commit point of the running transition has passed (R93). -/
  committed : Bool
  /-- The MODE_SET command that waits for the transition's end. -/
  asker : Option Req
  /-- Triggers that wait for the running transition to end (R85). -/
  waiting : List Trigger
  /-- Domains still to be switched on, the one being switched on first (R49). -/
  toPower : List Nat
  /-- State of each Priming step. -/
  steps : List (Step × StepSt)
  /-- Domains that did not reach power good and are not tried again until the fault is acknowledged (R88). -/
  failedDoms : List Nat
  /-- A failed step has not been acknowledged and reconfigured (R88, Table 4.8 bit 4). -/
  stepFault : Bool
  /-- Forced Trickle holds (R47). -/
  forced : Bool
  drainCause : Option DrainCause
  /-- A Latched fault was taken during Drain, or caused it. -/
  latchAfter : Bool
  /-- A Fatal escalation or watchdog expiry waits for the end of Drain (R106). -/
  fatalAfter : Bool
  /-- SYS_RESET_N asked for a cold reset after DRAIN_DONE (R105). -/
  resetAfter : Bool
  /-- Descriptor and submission fetch is paused (R100, Table 4.7). -/
  fetchPaused : Bool
  /-- Auxiliary power-on and the rise of MAIN_PG, by the local count, which a cold reset starts again (R86). -/
  auxAt : Int
  pgAt : Option Int
  /-- Local count until which POWER_FAIL_N is low. -/
  pfLowUntil : Nat
  deriving DecidableEq, Repr

def ModeSt.init : ModeSt :=
  { lkRunning := false, committed := false, asker := none, waiting := [], toPower := [], steps := [],
    failedDoms := [], stepFault := false, forced := false, drainCause := none, latchAfter := false, fatalAfter := false,
    resetAfter := false, fetchPaused := false, auxAt := 0, pgAt := none, pfLowUntil := 0 }

/-! ### Host ports (chapter 11) -/

/-- A PCIe function of a link. -/
structure Fn where
  mse : Bool
  bme : Bool
  d3 : Bool
  ready : Bool
  msixEn : Bool
  msixMask : Bool
  /-- Table Size of a VF's MSI-X table; PF0's is in the image. -/
  tableSize : Nat
  /-- Posted writes and messages held while Bus Master Enable is 0 (R259), oldest first. -/
  held : List Out
  /-- Local count of the FLR write whose reset is not complete. -/
  flrAt : Option Nat
  ats : Bool
  /-- Host pages whose translation the device holds (R273). -/
  xlat : List Nat
  deriving DecidableEq, Repr

def Fn.init : Fn :=
  { mse := false, bme := false, d3 := false, ready := false, msixEn := false, msixMask := false, tableSize := 0,
    held := [], flrAt := none, ats := false, xlat := [] }

/-- A device read of a chain's payload that is outstanding: tag, function, ring and chain (R262). Reads whose end is an
operand of the command that makes them are issued and ended in one step. -/
structure DevRead where
  tag : Nat
  fn : Nat
  ring : Nat
  seq : Nat
  /-- Requests that it takes (R260). -/
  reqs : Nat
  /-- Local count at which it was issued. -/
  at_ : Nat
  deriving DecidableEq, Repr

structure LinkSt where
  /-- PERST# is asserted. -/
  perst : Bool
  /-- Local count at the release of PERST#. -/
  released : Option Nat
  numVFs : Nat
  vfEnable : Bool
  ctoField : Nat
  ptmEn : Bool
  aspmL1 : Bool
  l0pEn : Bool
  outstanding : List DevRead
  nextTag : Nat
  /-- Tags of timed-out requests and the local count until which they are not reused (R262). -/
  dead : List (Nat × Nat)
  /-- Tags of reads that a reset cancelled: their completions are discarded without error (Table 11.7). -/
  silent : List Nat
  /-- Local count at which the PTM request now outstanding was sent (R341). -/
  ptmAt : Option Nat
  /-- AER status bits: correctable, then 16 + uncorrectable (R265). -/
  aer : Nat
  /-- Local count of the last TLP in either direction (R270). -/
  lastTlp : Nat
  /-- The next queue pair of an x16 link is bound to the odd pair of pipelines (R15). -/
  turn : Bool
  /-- PTM (R341): the last request and the last good exchange by local count, and the last 16 good exchanges as host
  time and time word. -/
  ptmLast : Option Nat
  ptmOkAt : Option Nat
  ptmX : List (Nat × Nat)
  /-- Codes of PF0's Max_Payload_Size and Max_Read_Request_Size: 128 B and 512 B at reset (PCIe base specification; R260). -/
  mps : Nat
  mrrs : Nat
  /-- The plot, plus 1, whose visit the transmit fetch is at, and the deficits of the plots in bytes (R243). -/
  visit : Nat
  deficit : Table Nat
  deriving DecidableEq, Repr

def LinkSt.init : LinkSt :=
  { perst := true, released := none, numVFs := 0, vfEnable := false, ctoField := 0, ptmEn := false, aspmL1 := false,
    l0pEn := false, outstanding := [], nextTag := 0, dead := [], silent := [], ptmAt := none, aer := 0, lastTlp := 0,
    turn := false, ptmLast := none, ptmOkAt := none, ptmX := [], mps := 0, mrrs := 2, visit := 0, deficit := [] }

/-! ### Faults, counters, background work (chapter 18) -/

structure FaultWin where
  src : Nat
  /-- Class under which the window started: 1 Correctable, 2 Degrading, 3 Fatal (R422). -/
  cls : Nat
  endAt : Nat
  deriving DecidableEq, Repr

/-- A fault message (Table 18.3). -/
structure FaultMsg where
  src : Nat
  kind : Nat
  addr : Nat
  deriving DecidableEq, Repr

structure BgSt where
  /-- Local count at which the activity last ran or its pass began. -/
  last : Nat
  hard : Bool
  deriving DecidableEq, Repr

structure Telem where
  en : Bool
  base : Nat
  size : Nat
  period : Nat
  mask : Nat
  seq : Nat
  lost : Nat
  /-- Local count of the last period's end. -/
  at_ : Nat
  deriving DecidableEq, Repr

def Telem.off : Telem := { en := false, base := 0, size := 4, period := 10, mask := 0, seq := 0, lost := 0, at_ := 0 }

structure Flt where
  windows : List FaultWin
  msgq : List FaultMsg
  /-- The firmware's log of the last 4,096 messages, oldest first, with the time word of each (R423). -/
  log : List (FaultMsg × Nat)
  /-- Sequence number the log gives its next entry. -/
  nextSeq : Nat
  /-- PF0s that have enabled notification, with the vector, per link (0: off, v + 1: vector v). -/
  notify : Table Nat
  kickAt : Nat
  aliveRun : Bool
  aliveLevel : Bool
  /-- The snapshot instant T while a snapshot is in progress. -/
  snapT : Option Nat
  /-- Domains that were off at T (their shadows read with ERR); all, before the first snapshot. -/
  shadowOff : List Nat
  bg : Table BgSt
  telem : Table Telem
  /-- Programmable counters in level mode whose event occurred since the last 4 ns tick, and those whose state held at it
  (R432). -/
  high : List Nat
  was : List Nat
  /-- Entries that the present parity-scrub pass has read. -/
  parity : Nat
  deriving DecidableEq, Repr

def Flt.init : Flt :=
  { windows := [], msgq := [], log := [], nextSeq := 0, notify := [], kickAt := 0,
    aliveRun := false, aliveLevel := false, snapT := none, shadowOff := List.range 80, bg := [], telem := [],
    high := [], was := [], parity := 0 }

/-! ### Ethernet and packets (chapters 5 and 6) -/

/-- Where a packet came from: an Ethernet port, a queue pair of a plot (with the generation recorded), a core ring, or a
Survey generator. -/
inductive Origin where
  | eth (port : Nat)
  | plot (p q gen : Nat)
  | core (ring : Nat)
  | survey
  deriving DecidableEq, Repr

/-- A packet on its way: bytes from the destination MAC on without FCS, its origin, arrival time word and fraction, and
what a transmit chain asked for. -/
structure Pkt where
  data : List Byte
  org : Origin
  time : Nat
  frac : Nat
  /-- Class of the ring or port it came in on. -/
  cls : Nat
  /-- Sequence of the transmit chain it belongs to, 0 for none; whether it is the chain's first packet; and whether the
  chain asked for its departure time. -/
  chain : Nat
  first : Bool
  tsReq : Bool
  /-- Launch time L, if one was asked for (R244). -/
  launch : Option Nat
  deriving DecidableEq, Repr

/-- A MACsec SA of a lane group (Tables 5.4 and 17.2). -/
structure MacsecSA where
  installed : Bool
  keyed : Bool
  key : List Byte
  salt : List Byte
  ssci : Nat
  sci : Nat
  /-- Next packet number to send, or the next expected on receive. -/
  pn : Nat
  deriving DecidableEq, Repr

def MacsecSA.none : MacsecSA :=
  { installed := false, keyed := false, key := [], salt := [], ssci := 0, sci := 0, pn := 0 }

structure EthSt where
  /-- End of the pause of a class of a port (index 8 port + class), as a local count; 0 when not paused. -/
  pauseEnd : Table Nat
  /-- Classes of a port for which PFC or PAUSE was sent and not ended, by port. -/
  xoffSent : Table Nat
  /-- MACsec SAs: 128 LG + s, s 0 to 63 receive, 64 + 4k + AN transmit for port k (Table 17.2). -/
  sas : Table MacsecSA
  /-- AN of the active transmit SA of a port, plus 1; 0 for none. -/
  activeAN : Table Nat
  /-- Lanes whose recovered clock is squelched (R121). -/
  squelched : List Nat
  /-- Advertised power of the module in each cage in W, plus 1; 0 for an empty cage. The cage is outside the lane group, and no
  reset empties it. -/
  cages : Table Nat
  /-- Lane groups whose module is released from low power (R122). -/
  released : List Nat
  /-- Local count at which the frame that a port is sending ends (R114). -/
  txEnd : Table Nat
  /-- Tailrace, plus 1, whose frame a straddling port sent last (R112). -/
  lastTail : Table Nat
  deriving DecidableEq, Repr

def EthSt.init : EthSt :=
  { pauseEnd := [], xoffSent := [], sas := [], activeAN := [], squelched := [], cages := [], released := [], txEnd := [],
    lastTail := [] }

/-- Packets staged for a headrace whose checks have passed, oldest first, and the staging fill in cells (R43). -/
structure Staging where
  pkts : List Pkt
  cells : Nat
  /-- Transmit descriptor fetch is held until the fill falls below 50 % (R43). -/
  fetchHeld : Bool
  deriving DecidableEq, Repr

def Staging.empty : Staging := { pkts := [], cells := 0, fetchHeld := false }


/-! ### Channel rings (chapter 12) -/

/-- A transmit chain that has been fetched and whose completion is not yet written (R284, R290). -/
structure Chain where
  seq : Nat
  /-- Ring index of the last descriptor, descriptors used, bytes fetched. -/
  index : Nat
  posts : Nat
  len : Nat
  /-- Status so far (Table 12.5). -/
  status : Nat
  /-- Packets that the headrace has not taken yet. -/
  toTake : Nat
  tsReq : Bool
  /-- The event that R290 waits for has happened (with TS_REQ: the first packet has left, been delivered or dropped). -/
  ended : Bool
  time : Nat
  frac : Nat
  tsValid : Bool
  sa : Nat
  /-- Descriptors (256 bits each), kept until the payload has arrived, and the tag of its outstanding read. -/
  desc : List Nat
  pend : Option Nat
  deriving DecidableEq, Repr

/-- One completion ring (R277, R281, R297). -/
structure CplRing where
  base : Nat
  prod : Nat
  cons : Nat
  armed : Bool
  /-- N of R297, and the local counts at which the last completions were written, oldest first. -/
  n : Nat
  times : List Nat
  deriving DecidableEq, Repr

def CplRing.init : CplRing := { base := 0, prod := 0, cons := 0, armed := true, n := 0, times := [] }

/-- What a queue pair of a plot, or a core ring, holds beside its registers (R275 to R282). -/
structure Qp where
  live : Bool
  txBase : Nat
  txProd : Nat
  rxBase : Nat
  rxProd : Nat
  txLog : Nat
  rxLog : Nat
  cls : Nat
  /-- Headrace and tailrace that the pair is bound to (R276). -/
  bind : Nat
  txc : CplRing
  rxc : CplRing
  chains : List Chain
  nextSeq : Nat
  /-- Descriptors and posts consumed (QP_TX_CONS, QP_RX_CONS). -/
  txCons : Nat
  rxCons : Nat
  /-- Error cause (Table 12.6), 0 while not in error. -/
  err : Nat
  /-- Doorbells held while fetch is paused: doorbell number and value (R259, R318). -/
  heldDb : List (Nat × Nat)
  deriving DecidableEq, Repr

def Qp.init : Qp :=
  { live := false, txBase := 0, txProd := 0, rxBase := 0, rxProd := 0, txLog := 6, rxLog := 6, cls := 0, bind := 0,
    txc := CplRing.init, rxc := CplRing.init, chains := [], nextSeq := 1, txCons := 0, rxCons := 0, err := 0, heldDb := [] }

/-! ### Pipelines (chapters 6 and 7) -/

/-- A lookup or meter whose response has not been delivered (R152, R155). -/
structure Resp where
  /-- Gate at whose entrance the response must be present. -/
  due : Nat
  dOff : Nat
  width : Nat
  value : Nat
  /-- HITS bit and its value, for a LOOKUP. -/
  hits : Option (Nat × Bool)
  /-- A Reservoir operation (R155). -/
  rsv : Bool
  /-- Issued before a barrier that is pending (R162). -/
  mark : Bool
  deriving DecidableEq, Repr

/-- Where a token is in its gate. -/
inductive TokSt where
  /-- At the entrance of its gate. -/
  | entrance
  /-- In a lane. -/
  | lane
  /-- Has executed LAST and waits for room or for the tokens ahead of it. -/
  | last
  deriving DecidableEq, Repr

/-- A packet with its carry in a pipeline (R146, R147). -/
structure Token where
  pkt : Pkt
  /-- Carry, 1,024 bits. -/
  carry : Nat
  /-- L0 to L7, 512 bits. -/
  locals_ : Nat
  /-- P1 to P15 as bits 1 to 15. -/
  preds : Nat
  bank : Nat
  /-- Gate, or the number of gates once the token has left the last one. -/
  gate : Nat
  st : TokSt
  pc : Nat
  /-- Words executed in this gate (R162). -/
  words : Nat
  resp : List Resp
  /-- Inside a gate at a barrier request, and not yet at a safe point or LAST since. -/
  barred : Bool
  /-- Present at a fault-abort request. -/
  doomed : Bool
  /-- Parsed in long reach. -/
  lr : Bool
  /-- Generation of the destination plot, recorded at the headrace's exit (R28). -/
  gen : Nat
  /-- CE is to be marked at the edit unit (R171). -/
  ce : Bool
  /-- In a tailrace: the packet's number in the Weir, the VOQ that it came from, and DEST as it crossed (R159). -/
  id : Nat
  voq : Nat
  dest : Nat
  /-- The port that DEST names has gone down since (R227). -/
  cut : Bool
  /-- Half lane-periods spent in each gate (R434). -/
  tally : List Nat
  deriving DecidableEq, Repr

/-- A pipeline: its tokens, oldest first. -/
structure PipeSt where
  toks : List Token
  /-- Half lane-periods that PMC_TD_g_k has not counted yet, by 4 g + k (R434). -/
  halves : Table Nat
  deriving DecidableEq, Repr

def PipeSt.empty : PipeSt := { toks := [], halves := [] }

/-- Microcode: what the configuration image carries and what a staged customer image carries (R166 to R169). -/
structure Micro where
  /-- Control-store words by ((pipe · 2 + bank) · 16 + gate) · 8,192 + word. -/
  words : Table Nat
  /-- Parse-graph entries by headrace · 2^14 + HUSK_MEM_ADDR. -/
  graph : Table Nat
  /-- Edit programs and templates by tailrace · 2^15 + ED_ADDR. -/
  edit : Table Nat
  deriving DecidableEq, Repr

def Micro.blank : Micro := { words := [], graph := [], edit := [] }

structure McSt where
  /-- Active build ID. -/
  active : Nat
  /-- Build ID staged, 0 for none. -/
  staged : Nat
  /-- Pipelines still to flip, the one being flipped first. -/
  flipping : List Nat
  /-- What the active and the staged customer image write (Config.mcImage). -/
  activeW : List (Nat × Nat × Nat)
  stagedW : List (Nat × Nat × Nat)
  deriving DecidableEq, Repr


/-! ### Tables (chapter 8) and meters (chapter 10) -/

/-- A notice in a quadrant's queue (Table 8.5). -/
structure Notice where
  key : Nat
  /-- 0 learn, 1 miss, 2 age, 3 remote hit, 4 parity. -/
  type : Nat
  hr : Nat
  data : Nat
  time : Nat
  index : Nat
  /-- A parity notice of the Sieve copy. -/
  sieve : Bool
  deriving DecidableEq, Repr

/-- A table command that waits: for a copy to be loaded, or for the update before it (R188, R192, R193). -/
structure TblWait where
  q : Req
  mgen : Nat
  buf : Fetch
  deriving DecidableEq, Repr

structure TblSt where
  /-- Seed-table copies: entry (Table 8.2) by 2^17 · quadrant + index. -/
  seed : Table Nat
  /-- Master image: entry by key. -/
  master : Table Nat
  /-- Sieve copies, and the master as copy 4: unit by 2^17 · copy + unit address: VALUE in bits 79 to 0, MASK in bits
  159 to 80, ACTION in bits 191 to 160, VALID in bit 192, RETIRED in bit 193. -/
  sieve : Table Nat
  version : Nat
  insertFail : Nat
  learnStatic : Nat
  missSeen : Nat
  /-- Core mailbox for miss notices, 0xFF for none. -/
  missCore : Nat
  notices : Table (List Notice)
  /-- Learn filter of each headrace: key and the local count at which it entered, oldest first. -/
  filters : Table (List (Nat × Nat))
  /-- Copies being loaded, and what waits (R193). -/
  loading : List Nat
  waiting : List TblWait
  /-- Slots of the Reservoir hash tables by 2^28 · table + slot: 512 bits (R182). -/
  slots : Table Nat
  /-- Meter entries by 2^18 · quadrant + index: 256 bits (Table 10.4). -/
  meters : Table Nat
  /-- The sweeper of each copy (R199): the entry it visits next, and the local count at which its pass began. -/
  sweep : Table (Nat × Nat)
  /-- Settings that table commands gave to every copy, by offset in the quadrant window: a copy that is loaded takes them
  (R193). -/
  cfg : Table Word
  deriving DecidableEq, Repr

def TblSt.init : TblSt :=
  { seed := [], master := [], sieve := [], version := 0, insertFail := 0, learnStatic := 0, missSeen := 0,
    missCore := 0xFF, notices := [], filters := [], loading := [], waiting := [], slots := [], meters := [],
    sweep := [], cfg := [] }

/-! ### Weir, buffers and egress (chapters 9 and 10) -/

/-- A copy that a packet's record makes in its tailrace: DEST, edit program, generation of the destination plot (R28), and
whether the port it names has gone down since the packet was enqueued (R227). -/
structure Copy where
  dest : Nat
  edit : Nat
  gen : Nat
  cut : Bool
  deriving DecidableEq, Repr

/-- A packet in a VOQ (R209 to R214). -/
structure VPkt where
  id : Nat
  pkt : Pkt
  carry : Nat
  /-- One copy, or one for each member of a group that the tailrace serves. -/
  copies : List Copy
  lr : Bool
  /-- Segments in all, and of data. -/
  segs : Nat
  /-- First cell that has not crossed, the offset of the packet's segments in it, and data segments left. -/
  cell : Nat
  off : Nat
  left : Nat
  /-- The record has crossed. -/
  sent : Bool
  /-- In the reservoir part (R214). -/
  spilled : Bool
  /-- Pool that its segments came from: 0 guarantee, 1 shared, 2 headroom. -/
  pool : Nat
  /-- Ingress pair (R213): 8 port + class, 1024 + 8 m + class, or none. -/
  pair : Option Nat
  /-- Replication group, epoch, base and count of the list it was enqueued under. -/
  group : Option (Nat × Nat × Nat × Nat)
  deriving DecidableEq, Repr

structure Voq where
  pkts : List VPkt
  /-- Next cell number, and segments used in the open tail cell (0: none open). -/
  next : Nat
  fill : Nat
  deriving DecidableEq, Repr

def Voq.empty : Voq := { pkts := [], next := 0, fill := 0 }

/-- An ingress pair: its segments in the slice, those from headroom, and its XOFF state. -/
structure PairSt where
  u : Nat
  hdrm : Nat
  xoff : Bool
  deriving DecidableEq, Repr

def PairSt.none : PairSt := { u := 0, hdrm := 0, xoff := false }

structure WeirSt where
  /-- VOQs by 128 headrace + 8 tailrace + class. -/
  voqs : Table Voq
  nextId : Nat
  /-- Segments in use by 4 quadrant + pool. -/
  used : Table Nat
  pairs : Table PairSt
  /-- A(t, c) with 8 fraction bits, by 8 t + c. -/
  avg : Table Nat
  grantPtr : Table Nat
  acceptPtr : Table Nat
  /-- Class in its turn and cells left to it, by 16 headrace + tailrace (R218). -/
  drr : Table (Nat × Nat)
  /-- Group entries and member entries (Table 9.5). -/
  groups : Table Nat
  members : Table Nat
  /-- Staging lists of groups, and lists that wait for their epoch to drain: group, epoch, base, count. -/
  gstage : Table (List Nat)
  old : List (Nat × Nat × Nat × Nat)
  /-- Local counts of the slots of the last microsecond (WEIR_SLOTS). -/
  slotAt : List Nat
  /-- Samplers by 256 quadrant + reason: packets since the last selection, SEQ; and LOST by 16 quadrant + ring. -/
  samp : Table (Nat × Nat)
  lost : Table Nat
  /-- Local counts of the tap entries of the last microsecond, by quadrant (R229). -/
  tapAt : Table (List Nat)
  /-- Local count in units of 1/200 ns at which a spill mover is free, by 2 quadrant + 1 for the way back (R215). -/
  mover : Table Nat
  deriving DecidableEq, Repr

def WeirSt.init : WeirSt :=
  { voqs := [], nextId := 1, used := [], pairs := [], avg := [], grantPtr := [], acceptPtr := [], drr := [], groups := [],
    members := [], gstage := [], old := [], slotAt := [], samp := [], lost := [], tapAt := [], mover := [] }

/-- A packet in a tailrace's queues (R232, R233, R244). -/
structure EPkt where
  id : Nat
  voq : Nat
  pkt : Pkt
  carry : Nat
  dest : Nat
  slot : Nat
  cls : Nat
  /-- Local index of the plot on its host port, for slot 8. -/
  plot : Nat
  gen : Nat
  cells : Nat
  /-- Local count since which the packet has been at the head of its subqueue without a receive post. -/
  since : Option Nat
  /-- Launch time that is honoured, and whether the launch store has released the packet. -/
  launch : Option Nat
  released : Bool
  deriving DecidableEq, Repr

structure EgrSt where
  /-- Packets in the order they joined, launch store included. -/
  q : List EPkt
  /-- Packets that a slot has started towards a receive ring (R292). -/
  deliver : List EPkt
  /-- Shaper credits: slot s at 16 s + 8, class c of slot s at 16 s + c, plot l at 4,096 + l. -/
  credit : Table Int
  /-- Deficits: class c of slot s at 16 s + c, plot l of class c at 4,096 + 8 l + c. -/
  deficit : Table Nat
  /-- OVERHEAD of each shaper that is in force since the last refill (R240). -/
  force : Table (Option Int)
  /-- Position of each rotation: slot s at s, plots of class c at 16 + c. -/
  turn : Table Nat
  /-- Frames whose last byte has not left: port, local count at which it has, cells (R233). -/
  leaving : List (Nat × Nat × Nat)
  deriving DecidableEq, Repr

def EgrSt.empty : EgrSt := { q := [], deliver := [], credit := [], deficit := [], force := [], turn := [], leaving := [] }

/-! ### Plots (chapter 13) -/

/-- What a plot holds beside its registers. -/
structure PlotSt where
  /-- Last SEQ of the tenant's and of the manager's messages. -/
  txSeq : Nat
  rxSeq : Nat
  /-- The tenant's message that waits: SEQ, GEN and payload (R308). -/
  txMsg : Option (Nat × Nat × List Byte)
  /-- Records that the manager has consumed, and the filter's pages, oldest first (R315, R316). -/
  logCons : Nat
  filter : List Nat
  /-- Receive limit of the plot, whether it is on, burst and weight, as PLOT_RATE_SET gave them (R242, R307). -/
  rxInc : Nat
  rxEn : Bool
  rxBurst : Nat
  rxWeight : Nat
  deriving DecidableEq, Repr

def PlotSt.init : PlotSt :=
  { txSeq := 0, rxSeq := 0, txMsg := none, logCons := 0, filter := [],
    rxInc := 1, rxEn := false, rxBurst := 0x100, rxWeight := 1 }


/-! ### The time unit (chapter 14) -/

/-- A PPS input beside its registers. -/
structure PpsIn where
  /-- Local count of the last edge, its TAI seconds where they are known, and those given for the next one. -/
  last : Option Nat
  sec : Option Nat
  next : Option Nat
  /-- Successive edges 1 s apart, how many of them were named, successive edges that were not. -/
  good : Nat
  named : Nat
  bad : Nat
  deriving DecidableEq, Repr

def PpsIn.init : PpsIn := { last := none, sec := none, next := none, good := 0, named := 0, bad := 0 }

/-- A PPS/ToD output beside its registers: last edge, its seconds and local count, a message that is due, messages sent. -/
structure PpsOut where
  last : Option (Nat × Nat)
  due : Option (Nat × Nat)
  seq : Nat
  deriving DecidableEq, Repr

def PpsOut.init : PpsOut := { last := none, due := none, seq := 0 }

/-- A PTP port (TIME_PORT_SET). Log intervals are signed bytes. -/
structure PtpPort where
  en : Bool
  masterOnly : Bool
  twoStep : Bool
  transport : Nat
  addr : Nat
  lp : Nat
  logs : List Nat
  deriving DecidableEq, Repr

def PtpPort.init : PtpPort :=
  { en := false, masterOnly := false, twoStep := false, transport := 0, addr := 0, lp := 128, logs := [0, 0, 0] }

/-- A host's time page, or the core time page (R342, R346): the latched address, SEQ, the next write by local count, an
extra write that is due, a step since the last page, PTM_OK as the last page said. -/
structure Page where
  addr : Nat
  seq : Nat
  next : Nat
  extra : Option Nat
  step : Bool
  was : Bool
  deriving DecidableEq, Repr

def Page.init : Page := { addr := 0, seq := 0, next := 0, extra := none, step := false, was := false }

structure TimeSt where
  /-- Fraction of the time word, in 1/65,536 ns. -/
  frac : Nat
  /-- What is still to be slewed, in ns (R324). -/
  slew : Int
  /-- The first selection of a phase source after the cold reset has happened (Table 14.4). -/
  first : Bool
  /-- Qualified phase sources (1 to 3) and frequency sources (17 to 19), with the local count of each qualification. -/
  qual : Table (Option Nat)
  /-- Local count since which |D| has been within 10 ns. -/
  within : Option Nat
  /-- Entry to holdover with the bound E0, and whether PTP was the source. -/
  hold : Option (Nat × Nat)
  viaPtp : Bool
  lastStep : Nat
  /-- The PTP clock (TIME_CLOCK_SET): profile, domain, priorities, default localPriority, slaveOnly. -/
  clock : List Nat
  ports : Table PtpPort
  /-- Unicast sessions: port, role, family, log interval, address. -/
  sessions : List (Nat × Nat × Nat × Nat × List Byte)
  /-- The slave port, its timestamped pairs, and what its master announces: class, stepsRemoved, grandmaster. -/
  slave : Option Nat
  pairs : Nat
  up : Nat × Nat × Nat
  /-- Local counts of its last Announce, and of its last Sync and Delay_Resp pair (R335). -/
  annAt : Nat
  pairAt : Nat
  ql : Table Nat
  pps : Table PpsIn
  outs : Table PpsOut
  pages : Table Page
  core : Page
  /-- Calibration of lane groups 0 to 23 and host ports 24 to 31: local count, TX and RX correction. -/
  cal : Table (Nat × Nat × Nat)
  deriving DecidableEq, Repr

def TimeSt.init : TimeSt :=
  { frac := 0, slew := 0, first := false, qual := [], within := none, hold := none, viaPtp := false, lastStep := 0,
    clock := [0, 0, 128, 128, 128, 0], ports := [], sessions := [], slave := none, pairs := 0, up := (248, 0, 0), annAt := 0, pairAt := 0, ql := [], pps := [],
    outs := [], pages := [], core := Page.init, cal := [] }

/-! ### Silo storage and the Cistern (chapter 15) -/

/-- The ciphertext of one 4,096-byte data unit as it lies on a drive or on the vault (R21, R358): XTS-AES-256 of `plain`
under a key, which is named as its owner holds it wrapped, and the LBA as tweak. The bytes themselves are
`Sealed.bytes`. -/
structure Sealed where
  key : List Byte
  tweak : Nat
  plain : List Byte
  deriving DecidableEq, Repr

/-- Drive states, with the codes of Table 15.11a. -/
inductive DriveSt where
  | absent | new | member | retiring | failed
  deriving DecidableEq, Repr

structure Drive where
  st : DriveSt
  up : Bool
  /-- Capacity in granules of 128 KiB. -/
  cap : Nat
  /-- Offers the LBA format and the queue pairs of R351. -/
  fit : Bool
  /-- Local count at which the link of a member went down. -/
  downAt : Option Nat
  /-- Local counts of the unrecovered read errors of the last 24 h. -/
  errs : List Nat
  deriving DecidableEq, Repr

def Drive.none : Drive := { st := .absent, up := false, cap := 0, fit := false, downAt := Option.none, errs := [] }

/-- A volume, as the pool labels hold it (R353, R359). -/
structure Vol where
  live : Bool
  scheme : Nat
  extents : Nat
  /-- MAP_BASE: first entry of its run of the extent map. -/
  base : Nat
  /-- Its key wrapped under KEK slot 1. -/
  key : List Byte
  /-- The key is unwrapped in the Silo key slot. -/
  online : Bool
  blocked : Bool
  deriving DecidableEq, Repr

def Vol.none : Vol :=
  { live := false, scheme := 0, extents := 0, base := 0, key := [], online := false, blocked := false }

inductive BlkSt where
  | staging
  /-- Of a write-through write: on the drives, while others of its blocks are not. -/
  | written
  | dirty | clean
  deriving DecidableEq, Repr

/-- A 4 KiB block of the cache that is not FREE. A block that is being destaged counts as dirty until its extent is
done. -/
structure Block where
  vol : Nat
  lba : Nat
  data : List Byte
  st : BlkSt
  /-- Write that brought it while STAGING, acknowledgement sequence from then on. -/
  seq : Nat
  /-- It holds a ledger reservation. -/
  held : Bool
  deriving DecidableEq, Repr

/-- A write that has not been acknowledged. -/
structure WOp where
  id : Nat
  /-- Plot, submission queue and command identifier, or none for a Conduit packet. -/
  src : Option (Nat × Nat × Nat)
  vol : Nat
  lba : Nat
  n : Nat
  /-- Zeroes, and the parts of the request that follow this one. -/
  zero : Bool
  parts : List (Nat × Nat)
  /-- Host memory that holds the data. -/
  runs : List (Nat × Nat)
  granted : Bool
  /-- Its data transfer has begun. -/
  began : Bool
  /-- Its blocks are in S0. -/
  staged : Bool
  /-- Acknowledged when destaged to the protection minimum (R366). -/
  through : Bool
  /-- Conduit packet that the peer still has to acknowledge: connection and PSN. -/
  peer : Option (Nat × Nat)
  deriving DecidableEq, Repr

/-- A read that waits for drives. -/
structure ROp where
  id : Nat
  src : Nat × Nat × Nat
  vol : Nat
  lba : Nat
  n : Nat
  runs : List (Nat × Nat)
  deriving DecidableEq, Repr

/-- A block record of a vault image (R374). -/
structure VRec where
  vol : Nat
  lba : Nat
  seq : Nat
  data : Sealed
  deriving DecidableEq, Repr

/-- The vault drive: what it holds through every reset. Header states by the codes of Table 15.11a. -/
structure Vault where
  hdr : Nat
  seq : Nat
  chunks : List (List VRec)
  /-- The image awaits restore or destage: what DEV_MODE.VAULT_PENDING is read from (R89). -/
  pending : Bool
  drains : Nat
  late : Bool
  /-- The last Drain was triggered by SYS_RESET_N (R105). -/
  pin : Bool
  /-- The ledger record: C_m and AGE. -/
  rec_ : Option (Nat × Nat)
  /-- The vault key, and the slot 1 key, wrapped under slot 0. -/
  key : List Byte
  kek1 : List Byte
  deriving DecidableEq, Repr

def Vault.blank : Vault :=
  { hdr := 0, seq := 0, chunks := [], pending := false, drains := 0, late := false, pin := false, rec_ := none, key := [], kek1 := [] }

/-- How far the save of a Drain has gone (Table 15.7). -/
inductive SaveSt where
  /-- No save runs. -/
  | idle
  /-- Chunks still to write, and whether the one at hand has failed once. -/
  | chunks (left : List (List VRec)) (retry : Bool)
  /-- Header SAVED, Flush sent, at this local count. -/
  | flush (at_ : Nat)
  /-- Nothing (more) to write. -/
  | ended
  deriving DecidableEq, Repr

/-- The Cistern and its ledger, in PD0 (R368 to R373). -/
structure Cist where
  /-- Bank readings of the last 100 µs and V_b of the last 10 ms, with the local count of each, oldest first. -/
  reads : List (Nat × Nat)
  peaks : List (Nat × Nat)
  senseOk : Bool
  /-- Local counts since which the two sense readings differ by more than 2%, or agree again (R456). -/
  differAt : Option Nat
  agreeAt : Option Nat
  /-- Successive readings above 1.05 VCHG_MAX, and the overvoltage fault was taken. -/
  high : Nat
  ovp : Bool
  /-- CIST_CHG_EN, and the bank has been charged to V_chg. -/
  chg : Bool
  full : Bool
  cm : Nat
  /-- Local count since which AGE counts from its recorded hours, none where AGE reads 0xFFFF. -/
  ageAt : Option Nat
  ageBase : Nat
  probes : List Nat
  /-- Local counts of the last probe and of the last hourly record. -/
  probeAt : Option Nat
  recAt : Option Nat
  overAt : Option Nat
  overDeg : Bool
  aboveAt : Option Nat
  /-- Start of the bleed with V_chg at that moment, and the recharge after it. -/
  bleed : Option (Nat × Nat)
  recharge : Bool
  deriving DecidableEq, Repr

def Cist.init : Cist :=
  { reads := [], peaks := [], senseOk := true, differAt := none, agreeAt := none, high := 0, ovp := false, chg := false, full := false,
    cm := 0, ageAt := none, ageBase := 0, probes := [], probeAt := none, recAt := none, overAt := none, overDeg := false, aboveAt := none, bleed := none, recharge := false }

/-- An NVMe queue: base, entries, head, tail, and for a completion queue vector, interrupt enable and phase; for a
submission queue its completion queue. -/
structure Nq where
  live : Bool
  base : Nat
  size : Nat
  head : Nat
  tail : Nat
  cq : Nat
  ien : Bool
  phase : Bool
  deriving DecidableEq, Repr

def Nq.none : Nq :=
  { live := false, base := 0, size := 0, head := 0, tail := 0, cq := 0, ien := false, phase := false }

/-- An NVMe controller beside its registers (R360). -/
structure Ctl where
  sqs : Table Nq
  cqs : Table Nq
  /-- Command identifiers of outstanding Asynchronous Event Requests. -/
  aers : List Nat
  features : Table Nat
  /-- Error log, newest first: queue, command, status. -/
  errlog : List (Nat × Nat × Nat)
  /-- Changed namespaces not yet reported, and the event that is masked until its log is read. -/
  changed : List Nat
  masked : Bool
  deriving DecidableEq, Repr

def Ctl.init : Ctl :=
  { sqs := [], cqs := [], aers := [], features := [], errlog := [], changed := [], masked := false }

/-- A Conduit packet in the retransmit buffer: PSN, volume, LBA and data. -/
structure CPkt where
  psn : Nat
  vol : Nat
  lba : Nat
  data : List Byte
  deriving DecidableEq, Repr

/-- A Conduit connection beside its registers (R377 to R379). -/
structure ConnSt where
  addr : List Byte
  peerVol : Nat
  localVol : Option Nat
  sent : List CPkt
  tries : Nat
  /-- RTO in units of 100 µs, and the local count since which it runs. -/
  rto : Nat
  at_ : Nat
  deriving DecidableEq, Repr

def ConnSt.init : ConnSt := { addr := [], peerVol := 0, localVol := none, sent := [], tries := 0, rto := 1, at_ := 0 }

structure SiloSt where
  drives : Table Drive
  vols : Table Vol
  /-- The extent map in S1, and what the drives' metadata regions hold (Table 15.3). -/
  map : Table Nat
  meta_ : Table Nat
  /-- Columns of an extent that are missing or stale, by map entry. -/
  stale : Table Nat
  /-- What the drives hold of a volume: ciphertext by 2^40 · volume + LBA, none where nothing was destaged (R21,
  assumption 21). -/
  disk : Table (Option Sealed)
  /-- Bad-block lists of the volumes on the drives, as 2^40 · volume + LBA (Table 16.3). -/
  badBlks : List Nat
  cache : List Block
  writes : List WOp
  reads : List ROp
  nextId : Nat
  nextSeq : Nat
  /-- Writes that wait for a reservation, in order of arrival. -/
  waiting : List Nat
  /-- Volume + 1 by 16 · plot + NSID - 1. -/
  atts : Table Nat
  ctls : Table Ctl
  /-- Blocks restored from the vault that are not destaged, as 2^40 · volume + LBA (R89). -/
  restored : List Nat
  /-- The chunk that the restore reads next, once it has begun; it stays until S0 is lost or VAULT_PENDING clears. -/
  restoring : Option Nat
  /-- Silo key slot 4,096 holds the vault key. -/
  vaultKey : Bool
  conns : Table ConnSt
  /-- Extents written while unreplicated, as map entries (R379). -/
  marks : List Nat
  save : SaveSt
  deriving DecidableEq, Repr

def SiloSt.init : SiloSt :=
  { drives := [], vols := [], map := [], meta_ := [], stale := [], disk := [], badBlks := [], cache := [], writes := [], reads := [],
    nextId := 1, nextSeq := 1, waiting := [], atts := [], ctls := [], restored := [], restoring := none, vaultKey := false, conns := [], marks := [], save := .idle }


/-! ### The Reservoir and the Hopper (chapter 16) -/

/-- The stack controllers beside their registers. -/
structure RsvSt where
  /-- Refreshes owed by 32 · stack + pseudo-channel (R388). -/
  owed : Table Nat
  /-- Local count at which the last refresh fell owed. -/
  refAt : Table Nat
  /-- 64-byte blocks whose contents are uncorrectable until they are written, as 2^35 · stack + address (R391). -/
  poisoned : List Nat
  /-- Stacks at or above 105 °C (R389). -/
  hot105 : List Nat
  /-- Of each stack: blocks that the present scrub pass has read, and the local count at which it began (R393). -/
  scrub : Table (Nat × Nat)
  deriving DecidableEq, Repr

def RsvSt.init : RsvSt := { owed := [], refAt := [], poisoned := [], hot105 := [], scrub := [] }

/-- The Hopper beside its registers and the link words in pool space (R398). -/
structure HopSt where
  /-- Pool-space offsets in each pool's head. -/
  heads : Table (List Nat)
  /-- First buffer of each pool's list: 0xFFFF_FFFF at its end. -/
  lists : Table Nat
  /-- State bits: 1 for an allocated buffer, by pool-space offset. -/
  bits : Table Nat
  building : Bool
  deriving DecidableEq, Repr

def HopSt.init : HopSt := { heads := [], lists := [], bits := [], building := false }

/-! ### Inline crypto (chapter 17) -/

structure IcrSt where
  /-- SA entries (Table 17.8), and key and salt of the keyed ones. -/
  sas : Table Nat
  keys : Table (List Byte)
  /-- Sequence numbers seen in each receive window. -/
  seen : Table (List Nat)
  deriving DecidableEq, Repr

def IcrSt.init : IcrSt := { sas := [], keys := [], seen := [] }


/-! ### Bulk mover and key cipher unit (chapter 17) -/

/-- A channel beside its registers: bytes or elements transferred, tap-ring entries already requested, an ABORT that waits
for the current burst. -/
structure BmvCh where
  done : Nat
  asked : Nat
  abort : Bool
  deriving DecidableEq, Repr

def BmvCh.init : BmvCh := { done := 0, asked := 0, abort := false }

structure BmvSt where
  chans : Table BmvCh
  /-- Channel served last. -/
  rot : Nat
  /-- The restart of R409: the channel being probed, those still to probe, those that passed. -/
  probe : Option Nat
  toProbe : List Nat
  passed : List Nat
  deriving DecidableEq, Repr

def BmvSt.init : BmvSt := { chans := [], rot := 31, probe := none, toProbe := [], passed := [] }

/-- An operation in progress: the local count at which it is due, what it does then, or none where it is refused: the
output, or the destination's kind and index with the plaintext. -/
structure KcuOp where
  due : Nat
  kind : Nat
  index : Nat
  res : Option (List Byte)
  deriving DecidableEq, Repr

structure KcuSt where
  /-- Master that holds the lock: 0 Lockkeeper, 1 Silo engine, 2 debug port. -/
  holder : Option Nat
  ops : Table (Option KcuOp)
  deriving DecidableEq, Repr

def KcuSt.init : KcuSt := { holder := none, ops := [] }

/-- The configuration image in SPI, kept through every reset (Tables 4.3 and 4.12, R252 to R256). -/
structure Image where
  autoFlow : Bool
  survey : Bool
  memtest : Bool
  /-- Bit n: PDn holds a configured unit (R80). -/
  domains : Nat
  /-- Bit n: HPn runs as two x8 links. -/
  bifur : Nat
  /-- Plot allotment of each link. -/
  allot : Table Nat
  /-- VFs of each link that the image enables (R87). -/
  vfs : Table Nat
  /-- PF0 MSI-X Table Size of each link, 64 where none is named. -/
  pf0Vec : Table Nat
  /-- The Subsystem IDs (R256). -/
  subsystem : Nat
  /-- Settings the Lockkeeper loads at Priming: internal address and value. -/
  settings : List (Nat × Word)
  /-- Core memory placed under R20, in bytes. -/
  coreMem : Nat
  /-- Boot page of each core cluster (Table 1.3, R99). -/
  boot : Table (List Byte)
  /-- The firmware sets every lock once the settings are loaded, as it does by default (Table 3.3). -/
  locks : Bool
  /-- Replay window of receive SC j of a lane group (16 LG + j), in packets (Table 5.4). -/
  macWin : Table Nat
  /-- Microcode, parse graphs and edit memories, both banks (R136, R166), and the build ID of its customer image. -/
  micro : Micro
  build : Nat
  /-- Seed-table entries (Table 8.2) and Sieve units by unit address, loaded at Priming (R194). -/
  seed : List Nat
  sieve : Table Nat
  /-- Entries of the Reservoir hash tables: table, flags as TBL_RSV_INSERT has them, words 0 to 6 (R194). -/
  hash : List (Nat × Nat × Nat)
  /-- Core Channel rings (R300). -/
  rings : Table Qp
  /-- C_NOM in µF (R368). -/
  cNom : Nat
  /-- Its header and body as bytes, and its signature part (R440). -/
  bytes : List Byte
  sig : List Byte
  deriving DecidableEq, Repr

def Image.blank : Image :=
  { autoFlow := false, survey := false, memtest := false, domains := 1, bifur := 0, allot := [], vfs := [], pf0Vec := [], subsystem := 0,
    settings := [], coreMem := 0, boot := [], locks := true, macWin := [], micro := Micro.blank, build := 0, seed := [], sieve := [], hash := [],
    rings := [], cNom := 0, bytes := [], sig := [] }

/-! ### Security (chapter 19) -/

/-- How far a row of the life-cycle store is programmed (R444). -/
inductive RowSt where
  | blank
  /-- Copy A begun; copy A complete and copy B begun; both complete and the entry actions begun; those complete and the
  marker begun. -/
  | copyA | copyB | entry | marker
  | done
  deriving DecidableEq, Repr

/-- One-time-programmable storage in PD0. A secret is empty before it is programmed, and all ones once destroyed. -/
structure Otp where
  /-- Rows 1 to 4. -/
  rows : Table RowSt
  /-- A bit outside a row's defined pattern is programmed. -/
  outside : Bool
  svn : Nat
  secret : List Byte
  seed : List Byte
  /-- SHA-384 hashes of the owner's two public keys, P-384 first. -/
  owner : List Byte
  deriving DecidableEq, Repr

def Otp.blank : Otp := { rows := [], outside := false, svn := 0, secret := [], seed := [], owner := [] }

structure SecSt where
  otp : Otp
  /-- The SPI NOR's image regions by NOR offset, the boot record's preference (B), the configuration image. -/
  nor : List Host.Cell
  prefer : Bool
  config : Image
  /-- No boot since the cold reset. -/
  cold : Bool
  /-- OTP programming in progress: state code, local count of its start, and the length of its entry actions. -/
  prog : Option (Nat × Nat × Nat)
  /-- Nonces in force, with the local count of each issue. -/
  nonces : List (Nat × Nat)
  /-- Debug grants held: bit of SEC_DEBUG and signer. -/
  grants : List (Nat × Nat)
  /-- Version and SVN of the running image. -/
  version : Nat
  runSvn : Nat
  /-- Measurements by index (Table 19.5). -/
  meas : Table (List Byte)
  deriving DecidableEq, Repr

def SecSt.init : SecSt :=
  { otp := Otp.blank, nor := [], prefer := false, config := Image.blank, cold := true, prog := none, nonces := [], grants := [],
    version := 0, runSvn := 0, meas := [] }

/-! ### The whole state -/

structure State where
  /-- Commands that wait, first in, first out. -/
  pending : List Instr
  /-- The register file: internal address (or the model's own key of a window without one) to value; an unlisted
  register holds its reset value. -/
  regs : Table Word
  /-- The 64-bit counters by the internal address of their low word. -/
  cnts : Table Nat
  /-- The snapshot shadows (R433), by the same addresses. -/
  shadows : Table Nat
  /-- Memory-like ranges by byte: command slots, plot mailboxes, KCU buffers, MSI-X tables, core slots. -/
  mem : List Host.Cell
  /-- The model's own field: index of the next free value. -/
  freeCtr : Nat
  /-- What the device has sent, oldest first. -/
  out : List Out
  /-- Answer to the last register access, host request or configuration request. -/
  reply : Reply
  /-- The local count in ns (R324). -/
  now : Nat
  /-- Local count, plus 1, at which an event that the spec puts on a schedule last took place, by the keys of `Tm`. -/
  timers : Table Nat
  /-- Tokens that arrived at each headrace in the last 2 µs, with the local count of each (R40). -/
  arrivals : Table (List (Nat × Nat))
  image : Image
  cross : List Crossing
  regJob : Option RegJob
  /-- What a register of a mailbox or plot held before a raw write in Survey (R82). -/
  raw : Table Word
  tags : Table TagSt
  /-- Commands accepted so far. -/
  cmdSeq : Nat
  jobs : List Job
  gov : Gov
  modes : ModeSt
  fns : Table Fn
  links : Table LinkSt
  flt : Flt
  eth : EthSt
  staging : Table Staging
  /-- Queue pairs by 64 · plot + q; core rings by 2^20 + r. -/
  qps : Table Qp
  micro : Micro
  /-- Build IDs and the running flip (R168, R169). -/
  mc : McSt
  pipes : Table PipeSt
  /-- Counter pairs by quadrant · 2^18 + index: packets and bytes (R154). -/
  cpairs : Table (Nat × Nat)
  /-- Memory entries with an upset: 1 correctable, 2 not, by the model's memory key. -/
  upsets : Table Nat
  tbl : TblSt
  weir : WeirSt
  egr : Table EgrSt
  /-- Transmit credit of each plot, and the plots whose shaper is in force (R240, R243). -/
  txCredit : Table Int
  txArmed : List Nat
  plots : Table PlotSt
  /-- What the time word is ahead of the local count, in ns (R7, R324). -/
  timeOff : Int
  tim : TimeSt
  silo : SiloSt
  cist : Cist
  vault : Vault
  rsv : RsvSt
  hop : HopSt
  /-- KEK slots that hold a key (R414). -/
  keks : Table (List Byte)
  icr : IcrSt
  bmv : BmvSt
  kcu : KcuSt
  sec : SecSt
  /-- OSC_IN is silent (Table 20.6). -/
  oscLost : Bool
  deriving DecidableEq, Repr

/-- The machine right after a cold reset: Fallow, only PD0 powered, every register at its reset value. -/
def State.reset : State :=
  { pending := [], regs := [], cnts := [], shadows := [], mem := [], freeCtr := 0, out := [], reply := .none,
    now := 0, timers := [], arrivals := [], image := Image.blank, cross := [], regJob := none, raw := [], tags := [], cmdSeq := 0,
    jobs := [], gov := Gov.init, modes := ModeSt.init, fns := [],
    links := [], flt := Flt.init,
    eth := EthSt.init, staging := [], qps := [], micro := Micro.blank,
    mc := { active := 0, staged := 0, flipping := [], activeW := [], stagedW := [] }, pipes := [], cpairs := [],
    upsets := [], tbl := TblSt.init, weir := WeirSt.init, egr := [], txCredit := [], txArmed := [], plots := [],
    timeOff := 0, tim := TimeSt.init, silo := SiloSt.init, cist := Cist.init, vault := Vault.blank,
    rsv := RsvSt.init, hop := HopSt.init, keks := [], icr := IcrSt.init, bmv := BmvSt.init, kcu := KcuSt.init,
    sec := SecSt.init, oscLost := false
  }

/-! ### The reasons a step can stop -/

/-- A step that stops the model. -/
inductive Fault where
  /-- Raised by no command: the spec gives every command of the table an effect, so every command goes on (assumption 5).
  Safe: nothing is claimed of a step that ends so. -/
  | stuck
  deriving DecidableEq, Repr

/-- A command without a meaning. -/
inductive Refusal where
  /-- Raised by the arm of a command that has no meaning yet. Safe: nothing is claimed of it. -/
  | notModelled (mnemonic : String)
  deriving DecidableEq, Repr

/-- The outcome of a command. -/
abbrev Res := Host.Outcome State Fault Refusal

end Sys2Proof.Machine
end

