-- ==== Sys2Proof/Machine/Ops.lean ====
section
/-! DEFINITION. The named operations over the state that every family shares: the address map, the register file,
counters, outputs, free values, power domains, posted writes and interrupts. -/
namespace Sys2Proof.Machine

/-! ### Bases of the internal map (Tables 21.1 and 21.2), and the model's keys of windows without an internal address -/

def B.DEV : Nat := 0x0000_0000
def B.PWR : Nat := 0x0001_0000
def B.PACE : Nat := 0x0002_0000
def B.FLT : Nat := 0x0003_0000
def B.PMC : Nat := 0x0004_0000
def B.TIME : Nat := 0x0005_0000
def B.CIST : Nat := 0x0006_0000
def B.SEC : Nat := 0x0007_0000
def B.KCU : Nat := 0x0008_0000
def B.BMV : Nat := 0x0009_0000
def B.HOP : Nat := 0x000A_0000
def B.QUAD (q : Nat) : Nat := 0x0010_0000 + q * 0x0010_0000
def B.HDR (k : Nat) : Nat := B.QUAD (k / 4) + (k % 4) * 0x1_0000
def B.TLR (k : Nat) : Nat := B.QUAD (k / 4) + 0x4_0000 + (k % 4) * 0x1_0000
def B.HUSK (k : Nat) : Nat := B.QUAD (k / 4) + 0x8_0000 + (k % 4) * 0x1_0000
def B.SEED (q : Nat) : Nat := B.QUAD q + 0xC_0000
def B.SIEV (q : Nat) : Nat := B.QUAD q + 0xD_0000
def B.TAP (q : Nat) : Nat := B.QUAD q + 0xE_0000
def B.WEIR : Nat := 0x0050_0000
def B.ETH (n : Nat) : Nat := 0x0060_0000 + n * 0x1_0000
/-- The registers of link m: half h = m mod 2 of host port n = m div 2 (R465). -/
def B.HPT (m : Nat) : Nat := 0x0080_0000 + (m / 2) * 0x1_0000 + (m % 2) * 0x1000
/-- What the offset of a counter of link m is added to (R465): window offset 0x1000 + x lies at 0x2000 + 0x100 h + x. -/
def B.HPTC (m : Nat) : Nat := 0x0080_0000 + (m / 2) * 0x1_0000 + 0x1000 + (m % 2) * 0x100
def B.RSV (s : Nat) : Nat := 0x0090_0000 + s * 0x1_0000
def B.SILO : Nat := 0x00A0_0000
def B.CND : Nat := 0x00A1_0000
def B.ICR : Nat := 0x00B0_0000
def B.LKP (m : Nat) : Nat := 0x00C0_0000 + m * 0x1_0000
def B.PLOT (p : Nat) : Nat := 0x0100_0000 + p * 0x1000
/-- A pipeline: HDR of headrace k for k < 16, TLR of tailrace k - 16 above. -/
def B.PIPE (k : Nat) : Nat := if k < 16 then B.HDR k else B.TLR (k - 16)
/-- Keys of the model: time-page control window of link m, plot manager window of link m, VF BAR0 of plot p, mailbox
slot of core n, Hopper slot of core n, MSI-X table and PBA of function fn of link m, the KCU copies of a master. -/
def B.TPG (m : Nat) : Nat := 0x1_0000_0000 + m * 0x1_0000
def B.MGR (m : Nat) : Nat := 0x1_1000_0000 + m * 0x1_0000
def B.VF (p : Nat) : Nat := 0x2_0000_0000 + p * 0x1_0000
def B.CMB (n : Nat) : Nat := 0x3_0000_0000 + n * 0x1_0000
def B.HSLOT (n : Nat) : Nat := 0x3_1000_0000 + n * 0x1_0000
def B.MSIX (m fn : Nat) : Nat := 0x4_0000_0000 + (m * 512 + fn) * 0x1_0000
def B.KCUM (k : Nat) : Nat := 0x5_0000_0000 + k * 0x1_0000

/-- NVMe controller registers of storage plot p: offsets 0 to 0x1FFF of its VF BAR0 (R466). -/
def B.NVME (p : Nat) : Nat := 0x2_4000_0000 + p * 0x1_0000

/-- Bytes that a core sees and no register holds: boot page of cluster c, core time page, performance counters of core
n, Hopper pool space, core memory (Table 1.3). -/
def B.BOOT (c : Nat) : Nat := 0x6_0000_0000 + c * 0x1_0000
def B.CTP : Nat := 0x6_1000_0000
def B.CPMC (n : Nat) : Nat := 0x6_2000_0000 + n * 0x1_0000
def B.CDB (n : Nat) : Nat := 0x6_3000_0000 + n * 0x1_0000
def B.POOLM : Nat := 0x10_0000_0000
def B.CMEM : Nat := 0x20_0000_0000

/-! ### Power domains of the blocks (Table 1.5) -/

def domHR (k : Nat) : Nat := 1 + k
def domTR (k : Nat) : Nat := 17 + k / 2
def domPipe (k : Nat) : Nat := if k < 16 then domHR k else domTR (k - 16)
def domQuad (q : Nat) : Nat := 25 + q
def domLG (n : Nat) : Nat := 29 + n
def domHP (m : Nat) : Nat := 53 + m / 2
def domDP (d : Nat) : Nat := 61 + d / 8
def domRSV (s : Nat) : Nat := 65 + s
def domCL (n : Nat) : Nat := 69 + n / 8

/-! ### The address map -/

/-- Where an address lies: the block's registers and counters, the base of the instance, the offset in it, and the
domain. -/
structure Loc where
  regs : List RegDesc
  cnts : List CntDesc
  base : Nat
  off : Nat
  dom : Nat

/-- MC_ADDR takes the gates that the pipeline has (Table 7.16, R11). -/
def gateRange (hi : Nat) (d : RegDesc) : RegDesc :=
  { d with fields := d.fields.map fun f => if f.fld = R.MC_ADDR_GATE then { f with ok := .range 0 hi } else f }

def regsHDR : List RegDesc :=
  (regsGATE.filter fun d => d.off < 0x40 || 0x50 ≤ d.off).map (gateRange 11) ++ regsPMCSEL (.range 0 0x0D)
def regsTLR : List RegDesc :=
  (regsGATE.filter fun d => d.off < 0x100).map (gateRange 5)
    ++ [⟨0x100, [(8, 6), (4, 2)], false, [⟨R.G_ENTRY_ENTRY, .rw, 0x7FF, .any⟩]⟩] ++ regsEGR ++ regsPMCSEL (.oneOf (List.range 0x0B ++ [0x0C]))
/-- The gate counters of a pipeline with `g` gates. -/
def cntsPipe (g : Nat) : List CntDesc :=
  cntsGATE.map fun c => if c.off = C.GATE_PMC_TD then ⟨c.off, [(0x20, g), (8, 4)]⟩ else c
/-- SEED_CNT_DATA0/1 and DATA2/3 are wide pairs (Table 7.18). -/
def regsSEEDw : List RegDesc := regsSEED.filter (fun d => d.off ≠ 0x250) ++
  [⟨0x250, [(8, 2)], true, [⟨R.SEED_CNT_DATA_DATA, .ro, 0, .any⟩]⟩,
   ⟨0x254, [(8, 2)], false, [⟨R.SEED_CNT_DATA_DATA, .ro, 0, .any⟩]⟩]

/-- Controller registers of the NVMe base specification with the values of Table 15.4 (R360, assumption 22). -/
def R.NVME_CC_EN : RegField := ⟨0x14, 0, 0⟩
def R.NVME_CC_MPS : RegField := ⟨0x14, 10, 7⟩
def R.NVME_CC_SHN : RegField := ⟨0x14, 15, 14⟩
def R.NVME_CSTS_RDY : RegField := ⟨0x1C, 0, 0⟩
def R.NVME_CSTS_CFS : RegField := ⟨0x1C, 1, 1⟩
def R.NVME_CSTS_SHST : RegField := ⟨0x1C, 3, 2⟩
def R.NVME_AQA_ASQS : RegField := ⟨0x24, 11, 0⟩
def R.NVME_AQA_ACQS : RegField := ⟨0x24, 27, 16⟩

def regsNVME : List RegDesc :=
  [⟨0x00, [], true, [⟨⟨0x00, 31, 0⟩, .ro, 0x0201_0FFF, .any⟩]⟩,
   ⟨0x04, [], false, [⟨⟨0x04, 31, 0⟩, .ro, 0x0040_0020, .any⟩]⟩,
   ⟨0x08, [], false, [⟨⟨0x08, 31, 0⟩, .ro, 0x0002_0000, .any⟩]⟩,
   ⟨0x0C, [], false, [⟨⟨0x0C, 31, 0⟩, .wo, 0, .any⟩]⟩,
   ⟨0x10, [], false, [⟨⟨0x10, 31, 0⟩, .wo, 0, .any⟩]⟩,
   ⟨0x14, [], false, [⟨R.NVME_CC_EN, .rw, 0, .any⟩, ⟨⟨0x14, 6, 4⟩, .rw, 0, .any⟩, ⟨R.NVME_CC_MPS, .rw, 0, .range 0 4⟩,
      ⟨⟨0x14, 13, 11⟩, .rw, 0, .any⟩, ⟨R.NVME_CC_SHN, .rw, 0, .any⟩, ⟨⟨0x14, 19, 16⟩, .rw, 0, .any⟩,
      ⟨⟨0x14, 23, 20⟩, .rw, 0, .any⟩]⟩,
   ⟨0x1C, [], false, [⟨R.NVME_CSTS_RDY, .ro, 0, .any⟩, ⟨R.NVME_CSTS_CFS, .ro, 0, .any⟩, ⟨R.NVME_CSTS_SHST, .ro, 0, .any⟩]⟩,
   ⟨0x24, [], false, [⟨R.NVME_AQA_ASQS, .rw, 0, .any⟩, ⟨R.NVME_AQA_ACQS, .rw, 0, .any⟩]⟩,
   ⟨0x28, [(8, 2)], true, [⟨⟨0x28, 31, 12⟩, .rw, 0, .any⟩]⟩,
   ⟨0x2C, [(8, 2)], false, [⟨⟨0x2C, 31, 0⟩, .rw, 0, .any⟩]⟩,
   ⟨0x1000, [(4, 130)], false, [⟨⟨0x1000, 31, 0⟩, .wo, 0, .any⟩]⟩]

/-- The instance an offset of quadrant window q belongs to (Table 21.2). -/
def locateQuad (q o : Nat) : Option Loc :=
  let w := o / 0x1_0000
  let b := B.QUAD q + w * 0x1_0000
  let x := o % 0x1_0000
  if w < 4 then some ⟨regsHDR, cntsPipe 12 ++ cntsHDR, b, x, 1 + 4 * q + w⟩
  else if w < 8 then some ⟨regsTLR, cntsPipe 6 ++ cntsTLR, b, x, 17 + 2 * q + (w - 4) / 2⟩
  else if w < 12 then some ⟨regsHUSK, cntsHUSK, b, x, 1 + 4 * q + (w - 8)⟩
  else if w = 12 then some ⟨regsSEEDw, cntsSEED, b, x, 25 + q⟩
  else if w = 13 then some ⟨regsSIEV, cntsSIEV, b, x, 25 + q⟩
  else if w = 14 then some ⟨regsTAP, cntsTAP, b, x, 25 + q⟩
  else none

/-- The instance an address or key belongs to (Table 21.1, R463 to R465). -/
def locate (a : Nat) : Option Loc :=
  let x := a % 0x1_0000
  let b := a - x
  if a < 0xB_0000 then
    let w := a / 0x1_0000
    if w = 0 then some ⟨regsDEV ++ regsWIDE, [], b, x, 0⟩
    else if w = 1 then some ⟨regsPWR, [], b, x, 0⟩
    else if w = 2 then some ⟨regsPACE, [], b, x, 0⟩
    else if w = 3 then some ⟨regsFLT, cntsFLT, b, x, 0⟩
    else if w = 4 then some ⟨regsPMC, cntsPMC, b, x, 0⟩
    else if w = 5 then some ⟨regsTIME, cntsTIME, b, x, 0⟩
    else if w = 6 then some ⟨regsCIST, [], b, x, 0⟩
    else if w = 7 then some ⟨regsSEC, cntsSEC, b, x, 0⟩
    else if w = 8 then some ⟨regsKCU, [], b, x, 77⟩
    else if w = 9 then some ⟨regsBMV, cntsBMV, b, x, 77⟩
    else some ⟨regsHOP, cntsHOP, b, x, 66⟩
  else if a < 0x10_0000 then none
  else if a < 0x50_0000 then locateQuad ((a - 0x10_0000) / 0x10_0000) (a % 0x10_0000)
  else if a < 0x51_0000 then some ⟨regsWEIR, cntsWEIR, b, x, 73⟩
  else if a < 0x60_0000 then none
  else if a < 0x78_0000 then some ⟨regsETH, cntsETH, b, x, 29 + (a - 0x60_0000) / 0x1_0000⟩
  else if a < 0x80_0000 then none
  else if a < 0x88_0000 then
    let n := (a - 0x80_0000) / 0x1_0000
    if x < 0x2000 then some ⟨regsHPT ++ regsWIDE, [], b + x / 0x1000 * 0x1000, x % 0x1000, 53 + n⟩
    else if x < 0x2200 then
      some ⟨[], cntsHPT, b + 0x1000 + (x - 0x2000) / 0x100 * 0x100, 0x1000 + x % 0x100, 53 + n⟩
    else none
  else if a < 0x90_0000 then none
  else if a < 0x94_0000 then
    let s := (a - 0x90_0000) / 0x1_0000
    if s = 1 then some ⟨regsRSV ++ regsRSVHT, cntsRSV ++ cntsRSVHT, b, x, 65 + s⟩
    else some ⟨regsRSV, cntsRSV, b, x, 65 + s⟩
  else if a < 0xA0_0000 then none
  else if a < 0xA1_0000 then some ⟨regsSILO, cntsSILO, b, x, 74⟩
  else if a < 0xA2_0000 then some ⟨regsCND, cntsCND, b, x, 74⟩
  else if a < 0xB0_0000 then none
  else if a < 0xB1_0000 then some ⟨regsICR, cntsICR, b, x, 76⟩
  else if a < 0xC0_0000 then none
  else if a < 0xD0_0000 then some ⟨regsLKP, [], b, x, 0⟩
  else if a < 0x100_0000 then none
  else if a < 0x120_0000 then some ⟨regsPLOT, cntsPLOT, a - a % 0x1000, a % 0x1000, 0⟩
  else if a < 0x1_0000_0000 then none
  else if a < 0x1_1000_0000 then some ⟨regsTPG, [], b, x, 53 + (a - 0x1_0000_0000) / 0x2_0000⟩
  else if a < 0x2_0000_0000 then some ⟨regsMGR ++ regsVF1.filter (fun d => d.off < 0x1020), [], b, x, 53 + (a - 0x1_1000_0000) / 0x2_0000⟩
  else if a < 0x2_4000_0000 then some ⟨regsVF, [], b, x, 0⟩
  else if a < 0x3_0000_0000 then some ⟨regsNVME, [], b, x, 0⟩
  else if a < 0x3_1000_0000 then some ⟨[⟨0x200, [], false, [⟨⟨0x200, 31, 0⟩, .wo, 0, .any⟩]⟩,
      ⟨0x204, [], false, [⟨⟨0x204, 31, 16⟩, .ro, 1, .any⟩,
      ⟨⟨0x204, 2, 2⟩, .w1c, 0, .any⟩, ⟨⟨0x204, 0, 0⟩, .ro, 0, .any⟩]⟩], [], b, x, 0⟩
  else if a < 0x4_0000_0000 then some ⟨regsHSLOT, [], b, x, 66⟩
  else if a < 0x5_0000_0000 then none
  else some ⟨regsKCU, [], b, x, 77⟩

/-- An offset falls on a register family with these strides and counts (outermost first). -/
def inDims : List (Nat × Nat) → Nat → Bool
  | [], r => r = 0
  | (s, c) :: t, r => decide (r / s < c) && inDims t (r % s)

def RegDesc.at_ (d : RegDesc) (x : Nat) : Bool := decide (d.off ≤ x) && inDims d.dims (x - d.off)
def CntDesc.at_ (d : CntDesc) (x : Nat) : Bool := decide (d.off ≤ x) && inDims d.dims (x - d.off)

/-- The register at an address, if one is documented there. -/
def descAt (a : Nat) : Option RegDesc :=
  match locate a with
  | none => none
  | some l => l.regs.find? (·.at_ l.off)

/-- A counter's low word lies at an address. -/
def cntAt (a : Nat) : Bool :=
  match locate a with
  | none => false
  | some l => l.cnts.any (·.at_ l.off)

/-- The domain of an address, `none` where no instance holds it. -/
def domAt (a : Nat) : Option Nat := (locate a).map (·.dom)

/-! ### Reset values (R8, R9) -/

/-- Default severity of a fault source (Table 18.2). -/
def sevDefault (n : Nat) : Nat :=
  if n < 32 then
    [4, 4, 4, 3, 0, 2, 2, 0, 1, 0, 1, 1, 2, 1, 2, 0, 1, 1, 1, 1, 1, 2, 0, 2, 3, 2, 2, 0, 0, 1, 0, 0].getD n 0
  else if n < 96 then 1
  else if n < 160 then (if (n - 96) % 4 = 0 then 0 else 1)
  else if n < 176 then (if (n - 160) % 4 < 2 then 1 else 0)
  else if n < 272 then (if (n - 176) % 4 = 1 then 1 else 0)
  else if n < 336 then 0
  else [0, 1, 1, 2].getD ((n - 336) % 4) 0

/-- A source marked fixed (Table 18.2). -/
def sevFixed (n : Nat) : Bool := n < 4

/-- A source listed as reserved (Table 18.2, R421). -/
def srcReserved (n : Nat) : Bool :=
  n = 30 || n = 31 || (96 ≤ n && n < 160 && (n - 96) % 4 = 0) || (160 ≤ n && n < 176 && 2 ≤ (n - 160) % 4)
    || 352 ≤ n

/-- The value a register holds after a cold reset. -/
def regReset (a : Nat) : Word :=
  if B.FLT + 0x1000 ≤ a && a < B.FLT + 0x1000 + 352 * 4 then BitVec.ofNat 32 (sevDefault ((a - B.FLT - 0x1000) / 4))
  else match descAt a with
    | none => 0
    | some d => BitVec.ofNat 32 (d.fields.foldl (fun v f => v + f.reset * 2 ^ f.fld.lo) 0)

/-! ### The register file -/

/-- The register at an address, as stored. -/
def State.reg (s : State) (a : Nat) : Word := tget regReset s.regs a

/-- A register set to a value. -/
def State.setReg (s : State) (a : Nat) (v : Word) : State := { s with regs := tput regReset s.regs a v }

/-- The field `f` of the register family at base `b`. -/
def State.rd (s : State) (b : Nat) (f : RegField) : Nat := bitsOf (s.reg (b + f.off)).toNat f.hi f.lo

/-- A one-bit field as a truth value. -/
def State.flag (s : State) (b : Nat) (f : RegField) : Bool := s.rd b f == 1

/-- The field `f` set by hardware or firmware, the rest of its register unchanged. -/
def State.wr (s : State) (b : Nat) (f : RegField) (v : Nat) : State :=
  s.setReg (b + f.off) (BitVec.ofNat 32 (setBits (s.reg (b + f.off)).toNat f.hi f.lo v))

def State.wrB (s : State) (b : Nat) (f : RegField) (v : Bool) : State := s.wr b f (bit v)

/-- A whole register set from a number. -/
def State.wrW (s : State) (a v : Nat) : State := s.setReg a (BitVec.ofNat 32 v)

/-- A wide pair as one number. -/
def State.pair (s : State) (a : Nat) : Nat := (s.reg a).toNat + 2 ^ 32 * (s.reg (a + 4)).toNat

/-- Both words of a wide pair set at one instant (R60). -/
def State.wrPair (s : State) (a v : Nat) : State := (s.wrW a (v % 2 ^ 32)).wrW (a + 4) (v / 2 ^ 32)

/-- Registers whose address satisfies `p` return to their reset values. -/
def State.resetRegs (s : State) (p : Nat → Bool) : State := { s with regs := tdrop p s.regs }

/-- A field that only ever rises and stops at its largest value. -/
def State.bump (s : State) (b : Nat) (f : RegField) : State :=
  s.wr b f (sat (2 ^ (f.hi + 1 - f.lo) - 1) (s.rd b f + 1))

/-! ### Counters (R433) -/

def State.cnt (s : State) (a : Nat) : Nat := tget (fun _ => 0) s.cnts a

/-- A counter set to a value, with no regard to the freeze. -/
def State.setCnt (s : State) (a v : Nat) : State := { s with cnts := tput (fun _ => 0) s.cnts a v }

/-- A counter counts `n` events: it wraps at 2^64, and stops while PMC_CTRL.FREEZE is 1. -/
def State.countN (s : State) (a n : Nat) : State :=
  if s.flag B.PMC R.PMC_CTRL_FREEZE then s else s.setCnt a ((s.cnt a + n) % 2 ^ 64)

/-- Selector and counter i of a pipeline's programmable counters, or of the global ones (Tables 18.12 and 18.14). -/
def pmcSel (p : Option Nat) (i : Nat) : Nat :=
  match p with
  | some k => B.PIPE k + R.PMC_SEL_EN.off + 4 * i
  | none => B.PMC + R.PMC_GSEL_EN.off + 4 * i
def pmcCnt (p : Option Nat) (i : Nat) : Nat :=
  match p with
  | some k => B.PIPE k + C.GATE_PMC_CNT + 8 * i
  | none => B.PMC + C.PMC_GCNT + 8 * i
def pmcNum (p : Option Nat) : Nat := if p.isSome then 8 else 16

/-- An event of a pipeline, or a global one, occurs (R431, R432): an enabled counter in edge mode counts it; one in level
mode is high at the next 4 ns tick. -/
def State.event (s : State) (p : Option Nat) (code : Nat) : State :=
  if s.flag B.PMC R.PMC_CTRL_FREEZE then s
  else (List.range (pmcNum p)).foldl (fun s i =>
    let v := (s.reg (pmcSel p i)).toNat
    if bitOf v 31 && v % 256 = code then
      (if bitOf v 30 then { s with flt := { s.flt with high := pmcCnt p i :: s.flt.high.filter (· ≠ pmcCnt p i) } }
       else s.countN (pmcCnt p i) 1)
    else s) s

/-- The event of Table 18.5 or 18.6 that a counter's events are, if they are one. -/
def eventOf (a : Nat) : Option (Option Nat × Nat) :=
  if a < 0x10_0000 then
    (if a = B.FLT + C.FLT_MSGS then some (none, 5)
     else if B.HOP + 0x1000 ≤ a && a < B.HOP + 0x1100 then
       (if a % 0x20 = 0 then some (none, 8) else if a % 0x20 = 0x10 then some (none, 9) else none)
     else none)
  else if a < 0x50_0000 then
    let q := (a - 0x10_0000) / 0x10_0000
    let w := (a - 0x10_0000) % 0x10_0000 / 0x1_0000
    let x := a % 0x1_0000
    let gate := fun k =>
      if x = C.GATE_GATE_ABORT || x = C.GATE_LIMIT_ABORT then some (some k, 0x0C)
      else if C.GATE_REASON ≤ x && x < C.GATE_REASON + 0x200 then some (some k, 3) else none
    if w < 4 then
      let k := 4 * q + w
      if x = C.HDR_STAGE_DROP then some (some k, 7)
      else if C.HDR_VOQ_ADMIT_DROP ≤ x && x ≤ C.HDR_HDRM_DROP then some (some k, 0x0D) else gate k
    else if w < 8 then
      let k := 16 + 4 * q + (w - 4)
      if x = C.TLR_EDIT_ERR then some (some k, 3)
      else if x = C.TLR_LT_LATE_SENT || x = C.TLR_LT_LATE_DROP then some (some k, 6)
      else if x = C.TLR_RX_NOBUF_DROP then some (some k, 0x0A) else gate k
    else if w < 12 then (if x = C.HUSK_PARSED then some (some (4 * q + (w - 8)), 1) else none)
    else none
  else none

/-- A counter counts one event, which is also the performance counters' where they have it. -/
def State.count (s : State) (a : Nat) : State :=
  let s := s.countN a 1
  match eventOf a with
  | none => s
  | some (p, code) => s.event p code

/-! ### Power domains -/

/-- PDd is powered (PWR_DOM_ON0 to PWR_DOM_ON2). -/
def State.domOn (s : State) (d : Nat) : Bool := bitOf (s.reg (B.PWR + 4 * (d / 32))).toNat (d % 32)

def State.setDom (s : State) (d : Nat) (on : Bool) : State :=
  let a := B.PWR + 4 * (d / 32)
  s.wrW a (setBits (s.reg a).toNat (d % 32) (d % 32) (bit on))

/-! ### Modes -/

def Mode.code : Mode → Nat
  | .fallow => 0 | .priming => 1 | .flowing => 2 | .trickle => 3 | .drain => 4 | .survey => 5

def Mode.ofCode (c : Nat) : Mode :=
  if c = 1 then .priming else if c = 2 then .flowing else if c = 3 then .trickle else if c = 4 then .drain
  else if c = 5 then .survey else .fallow

/-- The present mode (DEV_MODE.CODE). -/
def State.mode (s : State) : Mode := Mode.ofCode (s.rd B.DEV R.DEV_MODE_CODE)

/-- A transition is in progress (DEV_MODE.BUSY). -/
def State.busy (s : State) : Bool := s.flag B.DEV R.DEV_MODE_BUSY

def State.latched (s : State) : Bool := s.flag B.DEV R.DEV_MODE_LATCHED

/-! ### Free values -/

/-- The next free value, and the state with the counter advanced (assumption 2). -/
def State.draw (s : State) : Nat × State := (Config.free s.freeCtr, { s with freeCtr := s.freeCtr + 1 })

/-- The first index that satisfies `ok`, from `i` on, cyclic in lo to hi - 1. -/
def firstFrom (ok : Nat → Bool) (lo hi : Nat) : Nat → Nat → Option Nat
  | 0, _ => none
  | fuel + 1, i => if ok i then some i else firstFrom ok lo hi fuel (if hi ≤ i + 1 then lo else i + 1)

/-- A free choice among the indices of lo to hi - 1 that satisfy `ok`. -/
def State.choose (s : State) (ok : Nat → Bool) (lo hi : Nat) : Option Nat × State :=
  if hi ≤ lo then (none, s)
  else
    let (f, s) := s.draw
    (firstFrom ok lo hi (hi - lo) (lo + f % (hi - lo)), s)

/-! ### Outputs, functions of a link, posted writes and interrupts -/

def State.emit (s : State) (o : Out) : State := { s with out := s.out ++ [o] }

def State.answer (s : State) (r : Reply) : State := { s with reply := r }

/-- The link's number names a link: an odd m needs a bifurcated port (Table 3.4). -/
def State.linkExists (s : State) (m : Nat) : Bool := m % 2 = 0 || bitOf s.image.bifur (m / 2)

def State.link (s : State) (m : Nat) : LinkSt := tget (fun _ => LinkSt.init) s.links m

def State.setLink (s : State) (m : Nat) (l : LinkSt) : State :=
  { s with links := tput (fun _ => LinkSt.init) s.links m l }

def fnKey (m f : Nat) : Nat := m * 512 + f

def State.fn (s : State) (m f : Nat) : Fn := tget (fun _ => Fn.init) s.fns (fnKey m f)

def State.setFn (s : State) (m f : Nat) (x : Fn) : State :=
  { s with fns := tput (fun _ => Fn.init) s.fns (fnKey m f) x }

/-- The link is up: HPT_LINK.LINK_UP, in a powered host port domain. -/
def State.linkUp (s : State) (m : Nat) : Bool := s.flag (B.HPT m) R.HPT_LINK_LINK_UP && s.domOn (domHP m)

/-- A TLP passes on the link: it leaves L1, and its idle time starts again (R270). -/
def State.wake (s : State) (m : Nat) : State :=
  let b := B.HPT m
  let s := if s.rd b R.HPT_LINK_PM = 2 then
    s.wr b R.HPT_LINK_PM (bit (decide (s.rd b R.HPT_LINK_TX_WIDTH < s.rd b R.HPT_LINK_WIDTH))) else s
  s.setLink m { s.link m with lastTlp := s.now }

/-- A message that the device issues for a function: sent while Bus Master Enable is 1, held in order while it is 0,
and discarded where the link is down or the function is being reset (R259, R266, R268). -/
def State.post (s : State) (m f : Nat) (o : Out) : State :=
  let x := s.fn m f
  if !s.linkUp m || x.flrAt.isSome then s
  else if x.bme then (s.emit o).wake m else s.setFn m f { x with held := x.held ++ [o] }

/-- Max_Payload_Size and Max_Read_Request_Size of a link in bytes; the device supports payloads of 512 B (Table 11.4), and takes a
larger setting as that (PRESUMED, assumption 88). -/
def State.maxPayload (s : State) (m : Nat) : Nat := 128 * 2 ^ min (s.link m).mps 2
def State.maxRead (s : State) (m : Nat) : Nat := 128 * 2 ^ min (s.link m).mrrs 5

/-- Length of the first request of a transfer: at most `max`, and not past a 4 KiB boundary (R260). -/
def pieceLen (max addr len : Nat) : Nat := min len (min max (4096 - addr % 4096))

/-- The requests into which a transfer is cut, as address and length; `n` bounds their number. -/
def pieces (max : Nat) : Nat → Nat → Nat → List (Nat × Nat)
  | 0, _, _ => []
  | n + 1, addr, len =>
    if len = 0 then []
    else
      let k := pieceLen max addr len
      (addr, k) :: pieces max n (addr + k) (len - k)

/-- A posted write of a byte string, in as many requests as R260 makes of it. -/
def State.postWrite (s : State) (m f addr : Nat) (data : List Byte) : State :=
  (pieces (s.maxPayload m) data.length addr data.length).foldl (fun s x =>
    s.post m f (.write m f x.1 ((data.drop (x.1 - addr)).take x.2))) s

/-- Non-posted requests that a transfer takes, those outstanding on a link, and the limit (R260). -/
def State.reqsOf (s : State) (m addr len : Nat) : Nat := (pieces (s.maxRead m) len addr len).length
def State.reqsOut (s : State) (m : Nat) : Nat := ((s.link m).outstanding.map (·.reqs)).sum
def State.reqLimit (s : State) (m : Nat) : Nat := if bitOf s.image.bifur (m / 2) then 512 else 1024

/-- The requests of a read are issued. -/
def State.issueRead (s : State) (m f addr len : Nat) : State :=
  (pieces (s.maxRead m) len addr len).foldl (fun s x => (s.emit (.read m f x.1 x.2)).wake m) s

/-- The first tag from `n` on, modulo `size`, that is not in use; `fuel` is how many are. -/
def tagFrom (size : Nat) (used : List Nat) : Nat → Nat → Nat
  | 0, n => n % size
  | fuel + 1, n => if used.contains (n % size) then tagFrom size used fuel (n + 1) else n % size

/-- The tag of the next device read of a link: 10 bits, or 14 in FLIT mode (Table 11.4). The tag of an outstanding read is in use, and
so is that of a cancelled one, and that of a timed-out one until its time has passed (R262). -/
def State.freeTag (s : State) (m : Nat) : Nat :=
  let l := s.link m
  let used := l.outstanding.map (·.tag) ++ l.silent ++ (l.dead.filter fun d => decide (s.now < d.2)).map (·.1)
  tagFrom (if s.flag (B.HPT m) R.HPT_LINK_FLIT then 2 ^ 14 else 2 ^ 10) used used.length l.nextTag

/-- The MSI-X Table Size of a function (R256). -/
def State.tableSize (s : State) (m f : Nat) : Nat :=
  if f = 0 then tget (fun _ => 64) s.image.pf0Vec m else (s.fn m f).tableSize

/-- An interrupt of a function: sent where MSI-X is enabled and the vector lies in the table and is unmasked, and
otherwise left pending in the PBA (R67, R255). -/
def State.interrupt (s : State) (m f vec : Nat) : State :=
  let x := s.fn m f
  if !x.msixEn || s.tableSize m f ≤ vec then s
  else if x.msixMask || (byteAt s.mem (B.MSIX m f + 16 * vec + 12)).toNat % 2 = 1 then
    let a := B.MSIX m f + 0xC000 + vec / 8
    { s with mem := putByte s.mem a (BitVec.ofNat 8 (setBits (byteAt s.mem a).toNat (vec % 8) (vec % 8) 1)) }
  else s.post m f (.msix m f vec)

/-- A vector may send: MSI-X enabled, neither the function nor the vector masked. -/
def State.vecOpen (s : State) (m f vec : Nat) : Bool :=
  (s.fn m f).msixEn && !(s.fn m f).msixMask && decide (vec < s.tableSize m f)
    && (byteAt s.mem (B.MSIX m f + 16 * vec + 12)).toNat % 2 = 0

/-- Pending vectors that may send do so, lowest first (PCIe base specification). -/
def State.msixRelease (s : State) (m f : Nat) : State :=
  (List.range 2048).foldl (fun s vec =>
    let a := B.MSIX m f + 0xC000 + vec / 8
    let b := (byteAt s.mem a).toNat
    if b ≠ 0 && bitOf b (vec % 8) && s.vecOpen m f vec then
      { s with mem := putByte s.mem a (BitVec.ofNat 8 (setBits b (vec % 8) (vec % 8) 0)) }.post m f (.msix m f vec)
    else s) s

/-! ### Plots and links (R253, R301) -/

/-- Plot allotment A of a link; an absent half has none. -/
def State.allot (s : State) (m : Nat) : Nat := if s.linkExists m then tget (fun _ => 0) s.image.allot m else 0

/-- PBASE of a link: the ranges are contiguous, in ascending m. -/
def State.plotBase (s : State) (m : Nat) : Nat := ((List.range m).map s.allot).sum

/-- The plot of function f of link m. -/
def State.plotOf (s : State) (m f : Nat) : Option Nat := if f < s.allot m then some (s.plotBase m + f) else none

/-- The link and function that a plot belongs to. -/
def State.fnOfPlot (s : State) (p : Nat) : Option (Nat × Nat) :=
  ((List.range 16).find? fun m => decide (s.plotBase m ≤ p) && decide (p < s.plotBase m + s.allot m)).map
    fun m => (m, p - s.plotBase m)

/-- The plot is a storage plot (PLOT_CFG.KIND). -/
def State.isStorage (s : State) (p : Nat) : Bool := s.flag (B.PLOT p) R.PLOT_CFG_KIND

/-! ### Time (R7, R324): the local count is the field `now` -/

/-- The time word: TAI nanoseconds, modulo 2^64. -/
def State.timeWord (s : State) : Nat := toSigned 64 ((s.now : Int) + s.timeOff)

/-- Milliseconds and microseconds of the local count. -/
def ms (n : Nat) : Nat := n * 1000000
def us (n : Nat) : Nat := n * 1000

/-! ### Schedules (assumption 81) -/

/-- Keys of the events that the spec puts on a schedule: meters' update, loop step of the governor, readings of power and
temperature, the governor's resend; calibration of the meter of PDd. -/
def Tm.meters : Nat := 0
def Tm.governor : Nat := 1
def Tm.power : Nat := 2
def Tm.tj : Nat := 3
def Tm.resend : Nat := 4
def Tm.meterCal (d : Nat) : Nat := 0x100 + d

/-- Of Ethernet port p: loss of alignment, link-up, and the last pause frame sent (R116, R118, R121). -/
def Tm.unaligned (p : Nat) : Nat := 0x200 + p
def Tm.linkUp (p : Nat) : Nat := 0x300 + p
def Tm.pause (p : Nat) : Nat := 0x400 + p

/-- The pass of the idle sweeper over hash table t (R186). -/
def Tm.idle (t : Nat) : Nat := 0x20 + t

/-- The averages of the Weir, and the shapers of tailrace t and of the plots of link m, by the 64 ns of the local count (R223, R238). -/
def Tm.averages : Nat := 6
def Tm.tailShapers (t : Nat) : Nat := 0x500 + t
def Tm.plotShapers (m : Nat) : Nat := 0x600 + m

/-- The last temperature reading of stack k (R389). -/
def Tm.stackTemp (k : Nat) : Nat := 0x28 + k

/-- The last edge of ALIVE (R430), and the last Reservoir lookup of headrace h (R17). -/
def Tm.alive : Nat := 7
def Tm.rsv (h : Nat) : Nat := 0x800 + h

/-- The last level of CISTERN_OK taken (R455), and the last failed recovery of a management bus (R460). -/
def Tm.cistOk : Nat := 8
def Tm.bus : MgmtBus → Nat
  | .smb => 0x2C | .pmb0 => 0x2D | .pmb1 => 0x2E

/-- The last change of a link's transmit width (R271). -/
def Tm.txWidth (m : Nat) : Nat := 0x700 + m

/-- The switch-on of the domain that is being switched on (R49), and the start of a step of Priming (R468). -/
def Tm.domain : Nat := 5
def Tm.step : Step → Nat
  | .domains => 0x10 | .calibration => 0x11 | .hbmTraining => 0x12 | .marchTest => 0x13 | .load => 0x14 | .restore => 0x15

/-- Local count at which an event last took place. -/
def State.last (s : State) (k : Nat) : Option Nat :=
  let x := tget (fun _ => 0) s.timers k
  if x = 0 then none else some (x - 1)

/-- An event with period `p` may take place: it never has, or its period has passed since. -/
def State.due (s : State) (k p : Nat) : Bool :=
  match s.last k with
  | none => true
  | some t => decide (t + p ≤ s.now)

/-- An event takes place now. -/
def State.stamp (s : State) (k : Nat) : State := { s with timers := tput (fun _ => 0) s.timers k (s.now + 1) }

/-- An event with period `p` does what it does, where it is due. -/
def State.every (s : State) (k p : Nat) (f : State → State) : State := if s.due k p then f (s.stamp k) else s

/-- A refill, once in each 64 ns of the local count (Table 14.1): the timer holds the 64 ns, plus 1, of the last one. -/
def State.atRefill (s : State) (k : Nat) (f : State → State) : State :=
  let n := s.now / 64 + 1
  if tget (fun _ => 0) s.timers k = n then s else f { s with timers := tput (fun _ => 0) s.timers k n }

/-! ### Token demand (R40, R130) -/

/-- `n` tokens arrive at headrace h; what arrived 2 µs ago or earlier is forgotten. -/
def State.arrive (s : State) (h n : Nat) : State :=
  let l := (tget (fun _ => []) s.arrivals h).filter fun e => decide (s.now < e.1 + us 2)
  { s with arrivals := tput (fun _ => []) s.arrivals h (l ++ [(s.now, n)]) }

/-- D of Table 2.3: the most tokens that arrived at any headrace in the last 2 µs. -/
def State.demand (s : State) : Nat :=
  (s.arrivals.map fun e => ((e.2.filter fun x => decide (s.now < x.1 + us 2)).map (·.2)).sum).foldl max 0

end Sys2Proof.Machine
end

