-- ==== Sys2Proof/Machine/Faults.lean ====
section
/-! DEFINITION. The fault collector's shared operations: sticky bits, windows, the message queue, notification
(R421 to R428). What a Latched or Fatal source does to the mode is in Power.lean. -/
namespace Sys2Proof.Machine

def stickyReg (n : Nat) : Nat := B.FLT + 0x400 + 4 * (n / 32)
def srcBase (n : Nat) : Nat := B.FLT + 4 * n

/-- Source n has its sticky bit set (R424). -/
def State.sticky (s : State) (n : Nat) : Bool := bitOf (s.reg (stickyReg n)).toNat (n % 32)

def State.setSticky (s : State) (n : Nat) (b : Bool) : State :=
  s.wrW (stickyReg n) (setBits (s.reg (stickyReg n)).toNat (n % 32) (n % 32) (bit b))

/-- Severity of a source: FLT_SRC_n.SEV. -/
def State.sev (s : State) (n : Nat) : Nat := s.rd (srcBase n) R.FLT_SRC_SEV

/-- Severity in force: Degrading once escalated from Correctable (Table 18.4). -/
def State.sevNow (s : State) (n : Nat) : Nat := if s.flag (srcBase n) R.FLT_SRC_ESC then 2 else s.sev n

def State.winRunning (s : State) (n : Nat) : Bool := s.flag (srcBase n) R.FLT_SRC_WIN

/-- Window length of a class in ns (R425). -/
def State.winLen (s : State) (cls : Nat) : Nat :=
  ms (if cls = 1 then s.rd B.FLT R.FLT_WIN_COR_MS else if cls = 2 then s.rd B.FLT R.FLT_WIN_DEG_MS
      else s.rd B.FLT R.FLT_WIN_FAT_MS)

/-- The window of class `cls` starts for source n. -/
def State.startWindow (s : State) (n cls : Nat) : State :=
  let s := s.wrB (srcBase n) R.FLT_SRC_WIN true
  { s with flt := { s.flt with windows := s.flt.windows ++ [⟨n, cls, s.now + s.winLen cls⟩] } }

/-- The window of source n ends without escalation. -/
def State.stopWindow (s : State) (n : Nat) : State :=
  let s := s.wrB (srcBase n) R.FLT_SRC_WIN false
  { s with flt := { s.flt with windows := s.flt.windows.filter (fun w => w.src ≠ n) } }

/-- Sources that a PF0 sees (R428). -/
def visibleTo (m n : Nat) : Bool := n < 272 || (272 + 4 * m ≤ n && n < 276 + 4 * m) || (336 ≤ n && n < 352)

/-- The MSI-X messages of a rise or an escalation, to each PF0 with notification on that sees the source (R428). -/
def State.notifyFault (s : State) (n : Nat) : State :=
  (List.range 16).foldl (fun s m =>
    let v := tget (fun _ => 0) s.flt.notify m
    if v ≠ 0 && visibleTo m n then s.interrupt m 0 (v - 1) else s) s

/-- A message reaches the source's sticky bit: it rises, and the window of its class starts; a bit carried over a
warm reset without a window starts one too (R424, R425). Source 3 has no window (Table 18.2). -/
def State.capture (s : State) (n : Nat) : State :=
  let sev := s.sevNow n
  let open_ := 1 ≤ sev && sev ≤ 3 && n ≠ 3
  if !s.sticky n then
    let s := s.setSticky n true
    let s := if open_ then s.startWindow n sev else s
    s.notifyFault n
  else if s.flag (srcBase n) R.FLT_SRC_CARRIED && !s.winRunning n && open_ then s.startWindow n sev
  else s

/-- A fault message taken by the collector: counted, queued for the Lockkeeper or lost with source 28, and captured
(R423). -/
def State.takeMsg (s : State) (f : FaultMsg) : State :=
  let s := s.count (B.FLT + C.FLT_MSGS)
  let s := if s.flt.msgq.length < 256 then { s with flt := { s.flt with msgq := s.flt.msgq ++ [f] } }
    else (s.bump B.FLT R.FLT_MSGQ_LOST).capture 28
  s.capture f.src

/-- An activity is overdue (FLT_BG_OVERDUE). -/
def State.bgOverdue (s : State) (a : Nat) : Bool := bitOf (s.rd B.FLT R.FLT_BG_OVERDUE_OVERDUE) a

/-- A background activity has run, or its pass has completed: its overdue state ends (R435, R436). -/
def State.bgRan (s : State) (a : Nat) : State :=
  let s := (s.wrW (B.FLT + R.FLT_BG_OVERDUE_OVERDUE.off) (setBits (s.reg (B.FLT + R.FLT_BG_OVERDUE_OVERDUE.off)).toNat a a 0))
  { s with flt := { s.flt with bg := tput (fun _ => ⟨0, false⟩) s.flt.bg a { last := s.now, hard := false } } }

/-- Priming steps that failed run again once their fault is acknowledged (R88). Where domains had failed they are tried again
in Priming, with the steps that use what they hold (DESIGN CHOICE, assumption 35). -/
def State.rerunFailed (s : State) : State :=
  let m := s.modes
  let again := m.failedDoms ≠ [] && s.mode = .priming
  let step := fun (e : Step × StepSt) =>
    if e.2 = .failed then (e.1, StepSt.running)
    else if again && (e.1 = .hbmTraining || e.1 = .load) then (e.1, .waiting) else e
  let s := (m.steps.filter (·.2 = .failed)).foldl (fun (s : State) e => s.stamp (Tm.step e.1)) s
  let s := if again && m.toPower = [] then s.stamp Tm.domain else s
  { s with modes := { m with stepFault := false, failedDoms := [], steps := m.steps.map step,
                             toPower := if again then m.toPower ++ m.failedDoms else m.toPower } }

/-- Acknowledgement: the sticky bit cleared, the window ended, ESC and CARRIED cleared (R426). -/
def State.ackFault (s : State) (n : Nat) : State :=
  let s := (s.setSticky n false).stopWindow n
  let s := if n = 6 then s.rerunFailed else s
  (s.wrB (srcBase n) R.FLT_SRC_ESC false).wrB (srcBase n) R.FLT_SRC_CARRIED false

/-- The firmware has carried out its action on a source, and acknowledges it with ROUTE 0 (R427). -/
def State.ackRouted (s : State) (n : Nat) : State := if s.flag (srcBase n) R.FLT_SRC_ROUTE then s else s.ackFault n

/-- ALIVE stops and is driven low, with the cause that FLT_ALIVE.CAUSE shows (R430). -/
def State.stopAlive (s : State) (cause : Nat) : State :=
  let s := s.wr B.FLT R.FLT_ALIVE_CAUSE cause
  let s := s.wrB B.PWR R.PWR_PINS_ALIVE false
  { s with flt := { s.flt with aliveRun := false, aliveLevel := false } }.emit (.pin "ALIVE" false)

/-! ### The KCU lock (R413, R417) -/

/-- The lock is released: keys, IVs and both buffers are zeroised, and an operation in progress of the holder is abandoned
where `abandon` says so. Each master's copies have a key of their own in the model; only the holder's are in use. -/
def State.kcuFree (s : State) (m : Nat) (abandon : Bool) : State :=
  if s.kcu.holder = some m then
    let w := B.KCUM m
    let s := s.resetRegs fun a => w + 0x20 ≤ a && a < w + 0x60
    let s := if abandon && (tget (fun _ => none) s.kcu.ops m).isSome then s.wrB w R.KCU_STATUS_RUNNING false else s
    { s with mem := tdrop (fun a => w + 0x1000 ≤ a && a < w + 0x3000) s.mem,
             kcu := { holder := none, ops := if abandon then tput (fun _ => none) s.kcu.ops m none else s.kcu.ops } }
  else s

/-- A master of the KCU has its lock, or can take it: a command whose unwrap that master makes waits for it (R413; DEDUCED,
assumption 28). -/
def State.kcuTakes (s : State) (m : Nat) : Bool := s.kcu.holder.all fun h => h = m

/-- Sources that the Silo engine raises (R359, R375, Table 16.3). -/
def siloSource (n : Nat) : Bool := n = 14 || n = 24 || n = 25 || n = 29

/-- A Fatal or Latched fault from the holder's source (R417). -/
def State.kcuFault (s : State) (src : Nat) : State :=
  if 3 ≤ s.sev src && siloSource src then s.kcuFree 1 true
  else if src = 3 then s.kcuFree 0 true else s

/-- Sources that have their sticky bit set, by severity in force. -/
def State.unclearedAt (s : State) (sev : Nat) : Nat :=
  ((List.range 352).filter fun n => s.sticky n && s.sevNow n = sev).length

end Sys2Proof.Machine
end

