-- ==== Sys2Proof/Machine/Operands.lean ====
section
/-! DEFINITION. The operands of a Lockkeeper command: the slot layout, the arguments by slot byte number, the reads of
argument buffers, and the opcode table (Tables 3.7 to 3.13). -/
namespace Sys2Proof.Machine

/-- Argument bytes by slot byte number: the first argument byte is byte 8 (Table 3.7). A byte past LENGTH is no
argument, and reads as 0 (assumption 10). -/
def Cmd.u8 (c : Cmd) (i : Nat) : Nat := (c.args.getD (i - 8) 0).toNat
def Cmd.u16 (c : Cmd) (i : Nat) : Nat := c.u8 i + 256 * c.u8 (i + 1)
def Cmd.u32 (c : Cmd) (i : Nat) : Nat := c.u16 i + 2 ^ 16 * c.u16 (i + 2)
def Cmd.u64 (c : Cmd) (i : Nat) : Nat := c.u32 i + 2 ^ 32 * c.u32 (i + 4)
/-- `n` argument bytes from slot byte `i`. -/
def Cmd.bytes (c : Cmd) (i n : Nat) : List Byte := fit n (c.args.drop (i - 8))

/-- The copy of a 256-byte slot (Table 3.7). -/
def Cmd.ofSlot (bytes : List Byte) : Cmd :=
  let w0 := leNat (bytes.take 4)
  let w4 := leNat ((bytes.drop 4).take 4)
  { opcode := w0 / 2 ^ 16, tagField := bitsOf w0 11 8, phase := bitsOf w0 7 7, irq := bitOf w0 6,
    mgen := w4 / 2 ^ 16, len := w4 % 256, args := (bytes.drop 8).take (w4 % 256), at_ := 0 }

/-! ### The opcode table (Tables 3.13, 4.5, 7.14, 8.17, 9.5, 10.6, 13.7, 14.12, 15.10, 17.6, 18.10 and 19.5) -/

/-- An implemented opcode. -/
def opcodeOk (o : Nat) : Bool :=
  (0x0100 ≤ o && o ≤ 0x0106) || (0x0200 ≤ o && o ≤ 0x020F) || (0x0300 ≤ o && o ≤ 0x0304) || (0x0310 ≤ o && o ≤ 0x0313)
    || (0x0320 ≤ o && o ≤ 0x0325) || (0x0330 ≤ o && o ≤ 0x0331) || (0x0340 ≤ o && o ≤ 0x0347)
    || (0x0350 ≤ o && o ≤ 0x0355) || (0x0360 ≤ o && o ≤ 0x0366) || (0x0380 ≤ o && o ≤ 0x0383)
    || (0x0400 ≤ o && o ≤ 0x040B) || (0x0500 ≤ o && o ≤ 0x0506) || (0x0510 ≤ o && o ≤ 0x0513)
    || (0x0520 ≤ o && o ≤ 0x0522) || (0x0600 ≤ o && o ≤ 0x0605) || (0x0610 ≤ o && o ≤ 0x0614)
    || (0x0700 ≤ o && o ≤ 0x0707) || (0x0800 ≤ o && o ≤ 0x0807)

/-- Commands of classes 0x02xx, 0x03xx and 0x05xx that their owning chapters mark as reading state only (R90). -/
def readsOnly (o : Nat) : Bool :=
  [0x0208, 0x0302, 0x0312, 0x0324, 0x0330, 0x0345, 0x0353, 0x0355, 0x0363, 0x0366, 0x0382, 0x0383, 0x0500, 0x0506,
   0x0510, 0x0513, 0x0521].contains o

/-- The argument bytes that an opcode's row gives whatever their values are: from byte 8 to its last fixed argument
(Tables 3.13, 4.5, 7.10, 8.8, 9.4, 10.6, 13.7, 14.12, 15.11, 17.5a, 18.10 and 19.6); a list or block whose length the other
arguments decide is not counted. -/
def argSpan (o : Nat) : Nat :=
  match o / 16 with
  | 0x10 => [0, 0, 0, 4, 5, 12, 0].getD (o % 16) 0
  | 0x20 => [20, 20, 3, 3, 2, 2, 6, 2, 2, 17, 8, 2, 2, 2, 20, 20].getD (o % 16) 0
  | 0x30 => [22, 12, 12, 12, 24].getD (o % 16) 0
  | 0x31 => [92, 8, 8, 6].getD (o % 16) 0
  | 0x32 => [12, 1, 64, 48, 48, 20].getD (o % 16) 0
  | 0x33 => [0, 4].getD (o % 16) 0
  | 0x34 => [8, 28, 12, 8, 4, 3, 8, 3].getD (o % 16) 0
  | 0x35 => [10, 14, 10, 2, 24, 8].getD (o % 16) 0
  | 0x36 => [48, 60, 4, 4, 80, 2, 0].getD (o % 16) 0
  | 0x38 => [12, 1, 0, 9].getD (o % 16) 0
  | 0x40 => [0, 10, 6, 16, 24, 10, 12, 12, 2, 7, 3, 1].getD (o % 16) 0
  | 0x50 => [0, 2, 56, 3, 6, 3, 2].getD (o % 16) 0
  | 0x51 => [0, 21, 0, 0].getD (o % 16) 0
  | 0x52 => [28, 1, 2].getD (o % 16) 0
  | 0x60 => [0, 2, 4, 8, 4, 4].getD (o % 16) 0
  | 0x61 => [5, 1, 5, 16, 0].getD (o % 16) 0
  | 0x70 => [0, 1, 0, 2, 10, 1, 2, 0].getD (o % 16) 0
  | 0x80 => [0, 0, 20, 20, 16, 0, 0, 1].getD (o % 16) 0
  | _ => 0

/-- LENGTH is not valid: above 248; above 240 for DEV_ECHO; or too short for the arguments that the opcode's row gives. A
longer one is taken, and what follows the arguments is no argument (DESIGN CHOICE, assumption 10). -/
def lengthBad (o len : Nat) : Bool := decide (248 < len) || (o = 0x0102 && 240 < len) || decide (len < argSpan o)

/-- The classes that an application core may use (Table 3.12). -/
def coreClass (o : Nat) : Bool :=
  (o / 256 = 1 && o ≠ 0x0105) || o / 256 = 3 || o / 256 = 4 || o / 256 = 6

/-- An opcode is permitted in a mode (Tables 3.13 and 4.4, R90, R92, R215). -/
def modePermits (m : Mode) (o : Nat) : Bool :=
  match m with
  | .fallow | .drain => false
  | .priming => o ≠ 0x0105
  | .survey => true
  | .flowing => o ≠ 0x0105 && o ≠ 0x0703 && o ≠ 0x0342
  | .trickle => o ≠ 0x0105 && o ≠ 0x0703 &&
      ([1, 4, 6, 7, 8].contains (o / 256) || readsOnly o)

/-! ### Status codes (Table 0.7) -/

def St.DONE : Nat := 0x0000
def St.IN_PROGRESS : Nat := 0x0001
def St.BAD_OPCODE : Nat := 0x0010
def St.BAD_LENGTH : Nat := 0x0011
def St.BAD_ARGUMENT : Nat := 0x0012
def St.NO_RESOURCE : Nat := 0x0020
def St.TABLE_FULL : Nat := 0x0021
def St.REFUSED : Nat := 0x0030
def St.WRONG_MODE : Nat := 0x0040
def St.BUSY_RETRY : Nat := 0x0050
def St.ABORTED_RESET : Nat := 0x0060
def St.DUPLICATE : Nat := 0x0070

end Sys2Proof.Machine
end

