-- ==== Sys2Proof/Machine/Mailbox.lean ====
section
/-! DEFINITION. The command mailboxes' shared operations: result writes, the end of a command, long commands, the
mailbox reset (R64 to R74, R79, R471). -/
namespace Sys2Proof.Machine

/-- Key of a tag: mailbox m has tags 16 m to 16 m + 15; core n has one. -/
def tagKey : Req → Nat
  | .host m t => m * 16 + t
  | .core n => 256 + n

def State.tag (s : State) (q : Req) : TagSt := tget (fun _ => TagSt.idle) s.tags (tagKey q)

def State.setTag (s : State) (q : Req) (x : TagSt) : State :=
  { s with tags := tput (fun _ => TagSt.idle) s.tags (tagKey q) x }

/-- Mailbox generation of a requester's mailbox. -/
def State.mgen (s : State) : Req → Nat
  | .host m _ => s.rd (B.LKP m) R.LKP_HMB_STATUS_MGEN
  | .core n => s.rd (B.CMB n) ⟨0x204, 31, 16⟩

/-- LKP_HMB_INFLIGHT shows a tag's command in progress (Table 3.6). -/
def State.setInflight (s : State) (q : Req) (b : Bool) : State :=
  match q with
  | .host m t =>
    let a := B.LKP m + R.LKP_HMB_INFLIGHT_TAGS.off
    s.wrW a (setBits (s.reg a).toNat t t (bit b))
  | .core _ => s

def reqTag : Req → Nat
  | .host _ t => t
  | .core _ => 0

/-- Bytes 0 to 3 of a result slot (Table 3.8). -/
def resultWord0 (status tag phase progress : Nat) : Nat := status * 2 ^ 16 + tag * 2 ^ 8 + phase * 2 ^ 7 + progress

/-- A result written to its slot: bytes 16 to 255, then 4 to 15, then 0 to 3; then the MSI-X message where IRQ_EN and
the IRQ of the command copy are both 1 (R67). A core's result goes into its slot, and its IRQ raises the core's
mailbox interrupt (R79). Bytes past LENGTH are written as 0 (assumption 9). -/
def State.writeResult (s : State) (q : Req) (phase mgen : Nat) (irq : Bool) (f : Final) : State :=
  let w0 := leBytes 4 (resultWord0 f.status (reqTag q) phase 100)
  let w1 := leBytes 4 (mgen * 2 ^ 16 + f.data.length) ++ leBytes 4 f.orig ++ leBytes 4 f.retry
  match q with
  | .host m t =>
    let base := s.pair (B.LKP m + 0x10) / 4096 * 4096 + t * 0x100
    let s := s.postWrite m 0 (base + 16) (fit 240 f.data)
    let s := s.postWrite m 0 (base + 4) w1
    let s := s.postWrite m 0 base w0
    if irq && s.flag (B.LKP m) R.LKP_HMB_CTRL_IRQ_EN then s.interrupt m 0 (s.rd (B.LKP m) R.LKP_HMB_CTRL_VEC)
    else s
  | .core n =>
    let s := { s with mem := putBytes s.mem (B.CMB n + 0x100) (w0 ++ w1 ++ fit 240 f.data) }
    if irq then s.emit (.coreIrq n) else s

/-- A final result: status, retry time, data (Table 3.8, R71). -/
def Final.mk' (status retry : Nat) (data : List Byte) : Final :=
  { status := status, orig := status, retry := if status = St.BUSY_RETRY then retry else 0, data := data }

/-- The command in progress on a tag becomes final: its result is cached and written (R66, R67). -/
def State.finishWith (s : State) (q : Req) (f : Final) : State :=
  match (s.tag q).cur with
  | none => s
  | some c =>
    let s := s.setTag q { s.tag q with cur := none, fin := some f }
    (s.setInflight q false).writeResult q c.phase c.mgen c.irq f

/-- The command ends with a status and no data. -/
def State.finish (s : State) (q : Req) (status : Nat) : State := s.finishWith q (Final.mk' status 1000 [])

/-- The command ends with DONE and result data. -/
def State.done (s : State) (q : Req) (data : List Byte) : State := s.finishWith q (Final.mk' St.DONE 0 data)

/-- The command ends with BUSY_RETRY: RETRY_US at least 100 and at most 2,000,000 (R71). -/
def State.busyRetry (s : State) (q : Req) (retry : Nat) : State :=
  s.finishWith q (Final.mk' St.BUSY_RETRY (if retry < 100 then 100 else sat 2000000 retry) [])

/-! ### Long commands -/

/-- A job belongs to the command now in progress on its tag. -/
def State.jobLive (s : State) (j : Job) : Bool := s.mgen j.q = j.mgen && (s.tag j.q).cur.isSome

/-- A requester's command goes on as a job. -/
def State.addJob (s : State) (q : Req) (opcode obj : Nat) : State :=
  { s with jobs := s.jobs ++ [{ q := q, mgen := s.mgen q, opcode := opcode, obj := obj, due := 0, st := 0,
                                data := [] }] }

/-- A command of an old generation ends: ABORTED_RESET is recorded with its EFFECT (R73, R471). -/
def State.settleOld (s : State) (q : Req) (mgen effect : Nat) : State :=
  match (s.tag q).old with
  | some o => if o.mgen = mgen && o.settled.isNone then
      s.setTag q { s.tag q with old := some { o with settled := some (St.ABORTED_RESET, effect) } } else s
  | none => s

/-- A job ends: its result is final where its generation still runs, and its effect is recorded otherwise. -/
def State.endJob (s : State) (j : Job) (f : Final) : State :=
  let s := { s with jobs := s.jobs.filter (· ≠ j) }
  if s.jobLive j then s.finishWith j.q f
  else s.settleOld j.q j.mgen (bit (f.status = St.DONE))

/-- Every job of an opcode on an object ends alike. -/
def State.endJobs (s : State) (opcode obj : Nat) (f : Final) : State :=
  (s.jobs.filter fun j => j.opcode = opcode && j.obj = obj).foldl (fun s j => s.endJob j f) s

/-- A long command on an object still runs (R71). -/
def State.held (s : State) (opcodes : List Nat) (obj : Nat) : Bool :=
  s.jobs.any fun j => opcodes.contains j.opcode && j.obj = obj

/-- The command c of a tag may start: no other tag of its mailbox holds a command that was accepted before it and has not
started (R71). -/
def State.inTurn (s : State) (q : Req) (c : Cmd) : Bool :=
  match q with
  | .host m t => (List.finRange 16).all fun u => u = t ||
      match (s.tag (.host m u)).cur with
      | none => true
      | some e => decide (c.at_ ≤ e.at_) || s.jobs.any fun j => j.q = .host m u && j.mgen = e.mgen
  | .core _ => true

/-- The running command of a tag that has this opcode, has not gone on as a job, and may start (R71); the meaning of a
command row acts on it, and on a tag without one has nothing to act on (assumption 8). -/
def State.command (s : State) (q : Req) (opcode : Nat) (k : Cmd → State → State) : State :=
  match (s.tag q).cur with
  | none => s
  | some c =>
    if c.opcode = opcode && !(s.jobs.any fun j => j.q = q && j.mgen = c.mgen) && s.inTurn q c then k c s else s

/-- A requester is a host PF0. -/
def reqIsHost : Req → Bool
  | .host _ _ => true
  | .core _ => false

/-! ### Mailbox reset (R73, R77, R471) -/

/-- A tag at a mailbox reset: the last command accepted is kept with its final status, or as still to be settled. -/
def TagSt.reset (x : TagSt) (mgen : Nat) : TagSt :=
  { cur := none, last := none, fin := none,
    old := match x.cur, x.last, x.fin with
      | some c, _, _ => some { mgen := mgen, settled := none, opcode := c.opcode }
      | none, some _, some f => some { mgen := mgen, settled := some (f.status, 0), opcode := 0 }
      | _, _, _ => none }

/-- The next mailbox generation: 0xFFFF goes to 1, never to 0 (R73). -/
def nextGen (g : Nat) : Nat := if 0xFFFF ≤ g then 1 else g + 1

/-- LKP_HMB_STATUS after a mailbox reset: the next generation, NORES 1, READY 0, the two error bits as they were. -/
def mailboxAfter (st : Nat) : Nat := nextGen (bitsOf st 31 16) * 2 ^ 16 + bitsOf st 3 2 * 4 + 2

/-- A mailbox reset of host mailbox m. -/
def State.mailboxReset (s : State) (m : Link) : State :=
  let st := s.reg (B.LKP m + R.LKP_HMB_STATUS_MGEN.off)
  let s := s.resetRegs fun a => B.LKP m ≤ a && a < B.LKP m + 0x100
  let s := s.wrW (B.LKP m + R.LKP_HMB_STATUS_MGEN.off) (mailboxAfter st.toNat)
  let g := bitsOf st.toNat 31 16
  let staging := (List.finRange 16).any fun t => (s.tag (.host m t)).cur.any (·.opcode = 0x0380)
  let s := if staging then { s with mc := { s.mc with staged := 0, stagedW := [] } } else s
  (List.finRange 16).foldl (fun s t => s.setTag (.host m t) ((s.tag (.host m t)).reset g)) s

/-- A mailbox reset of a core mailbox (R79). -/
def State.coreMailboxReset (s : State) (n : CoreIx) : State :=
  let g := s.mgen (.core n)
  let s := s.resetRegs fun a => B.CMB n ≤ a && a < B.CMB n + 0x400
  let s := s.wr (B.CMB n) ⟨0x204, 31, 16⟩ (nextGen g)
  s.setTag (.core n) ((s.tag (.core n)).reset g)

end Sys2Proof.Machine
end

