-- ==== Sys2Proof/Machine/Doorbells.lean ====
section
/-! DEFINITION. The doorbells of the command mailboxes by the rows of Tables 3.9 and 3.14, and the order in which commands
start (R64, R66, R71, R75, R79). -/
namespace Sys2Proof.Machine

/-- T of Table 19.6 in ms. -/
def secTime (opcode : Nat) : Nat := [0, 1, 400, 200, 1500, 600, 200, 0].getD (opcode - 0x0800) 0

/-- A class 0x08xx command will answer at exactly T (R448). -/
def State.answerAt (s : State) (q : Req) (opcode st : Nat) (data : List Byte) : State :=
  { s with jobs := s.jobs ++ [{ q := q, mgen := s.mgen q, opcode := opcode, obj := 0, due := s.now + ms (secTime opcode),
                                st := st, data := data }] }

/-- The final status that a doorbell gives at once, or `none` where the command runs (rows 5 to 11 of Table 3.9). -/
def State.doorbellStatus (s : State) (q : Req) (c : Cmd) : Option Nat :=
  if c.mgen ≠ s.mgen q then some St.ABORTED_RESET
  else if c.tagField ≠ reqTag q then some St.BAD_ARGUMENT
  else if lengthBad c.opcode c.len then some St.BAD_LENGTH
  else if !opcodeOk c.opcode then some St.BAD_OPCODE
  else if !reqIsHost q && !coreClass c.opcode then some St.REFUSED
  else if !modePermits s.mode c.opcode then some St.WRONG_MODE
  else none

/-- LKP_CMB_STATUS of a core mailbox (Table 3.14). -/
def R.CMB_READY : RegField := ⟨0x204, 0, 0⟩
def R.CMB_TAG_BUSY_ERR : RegField := ⟨0x204, 2, 2⟩

/-- TAG_BUSY_ERR of a mailbox. -/
def State.tagBusy (s : State) : Req → State
  | .host m _ => s.wrB (B.LKP m) R.LKP_HMB_STATUS_TAG_BUSY_ERR true
  | .core n => s.wrB (B.CMB n) R.CMB_TAG_BUSY_ERR true

/-- The command becomes the tag's last accepted command; it runs, or is final at once. A class 0x08xx command that row 9
refuses is refused by the rules of that class: at its own time, and counted (R75, R448). -/
def State.accept (s : State) (q : Req) (c : Cmd) : State :=
  let c := { c with at_ := s.cmdSeq }
  let s := { s with cmdSeq := s.cmdSeq + 1 }
  let s := (s.setTag q { s.tag q with cur := some c, last := some (c.phase, c.mgen), fin := none }).setInflight q true
  match s.doorbellStatus q c with
  | some st => if st = St.REFUSED && c.opcode / 256 = 8 then s.answerAt q c.opcode st [] else s.finish q st
  | none => s.event none 6

/-- A copy that arrived at a ready mailbox, from row 2 of Table 3.9 on. -/
def State.doorbell (s : State) (q : Req) (c : Cmd) : State :=
  let t := s.tag q
  match t.cur with
  | some r => if r.phase = c.phase && r.mgen = c.mgen then s else s.tagBusy q
  | none =>
    match t.fin with
    | some f =>
      if t.last = some (c.phase, c.mgen) then
        s.writeResult q c.phase c.mgen c.irq { f with status := St.DUPLICATE, retry := 0 }
      else s.accept q c
    | none => s.accept q c

/-- R66: a value written to the doorbell of host mailbox m. -/
def State.hostDoorbell (s : State) (m : Link) (t : Tag) : State :=
  if !s.flag (B.LKP m) R.LKP_HMB_STATUS_READY || s.flag (B.LKP m) R.LKP_HMB_STATUS_NORES then
    s.wrB (B.LKP m) R.LKP_HMB_STATUS_DB_IGNORED true
  else s.doorbell (.host m t) (Cmd.ofSlot (bytesAt s.mem (B.LKP m + 0x1000 + 0x100 * t) 256))

/-- R79: a write to the doorbell of core n's mailbox. While READY is 0 it is ignored as row 1 of Table 3.9 says; the core
mailbox has no DB_IGNORED bit to show it (DESIGN CHOICE, assumption 8). -/
def State.coreDoorbell (s : State) (n : CoreIx) : State :=
  if s.flag (B.CMB n) R.CMB_READY then s.doorbell (.core n) (Cmd.ofSlot (bytesAt s.mem (B.CMB n) 256)) else s

/-- The cores of a cluster are released: they run, and the Lockkeeper accepts their commands (R99). -/
def State.releaseCores (s : State) (c : Nat) : State :=
  (List.range 8).foldl (fun s i => s.wrB (B.CMB (8 * c + i)) R.CMB_READY true) s

end Sys2Proof.Machine
end

