-- ==== Sys2Proof/Machine/Ports.lean ====
section
/-! DEFINITION. How lanes become Ethernet ports and which pipelines serve them (R107, R108, R110). -/
namespace Sys2Proof.Machine

/-! ### Lanes and ports (R107, R108, R110) -/

def portLG (p : Nat) : Nat := p / 4

/-- Lane rate of a lane group in Gb/s. -/
def State.laneRate (s : State) (g : Nat) : Nat :=
  [25, 50, 100, 200].getD (s.rd (B.ETH g) R.ETH_LG_CFG_LANE_RATE) 0

/-- Width of the port that starts on a lane; 0 where none does. -/
def State.portWidth (s : State) (p : Nat) : Nat :=
  let g := portLG p
  let code := s.rd (B.ETH g) R.ETH_LG_CFG_LAYOUT / 4 ^ (p % 4) % 4
  if code = 0 then 0 else if p % 4 = 0 && s.flag (B.ETH g) R.ETH_LG_CFG_SPAN8 then 8 else 2 ^ (code - 1)

/-- Rate of a port in Gb/s. -/
def State.portRate (s : State) (p : Nat) : Nat := s.portWidth p * s.laneRate (portLG p)

/-- An enabled port whose lane groups are powered. -/
def State.portOn (s : State) (p : Nat) : Bool :=
  s.portWidth p ≠ 0 && s.domOn (domLG (portLG p)) && (s.portWidth p ≠ 8 || s.domOn (domLG (portLG p + 1)))
    && s.flag (B.ETH (portLG p) + 4 * (p % 4)) R.ETH_PORT_CFG_EN

/-- Base of the per-port registers, and of the per-port counters. -/
def portBase (p : Nat) : Nat := B.ETH (portLG p) + 4 * (p % 4)
def portCnt (p c : Nat) : Nat := B.ETH (portLG p) + 0x100 * (p % 4) + c

def State.portUp (s : State) (p : Nat) : Bool := s.portOn p && s.flag (portBase p) R.ETH_PORT_STATUS_LINK_UP

/-- A layout that Table 5.1 and R108 allow: span, lane-rate code, LAYOUT, and whether the lane group is odd. -/
def layoutOk (span : Bool) (rate layout : Nat) (odd : Bool) : Bool :=
  let c := fun k => layout / 4 ^ k % 4
  let wide4 := c 0 = 3
  (!span || (!odd && layout = 3 && 2 ≤ rate))
    && (!wide4 || (layout = 3 && 1 ≤ rate))
    && c 1 ≤ 1 && c 2 ≤ 2 && c 3 ≤ 1
    && (c 0 ≠ 2 || (c 1 = 0 && 2 ≤ rate)) && (c 2 ≠ 2 || (c 3 = 0 && 2 ≤ rate))

/-- A layout of lane group g that also fits the group beside it: a spanned odd group has no ports of its own, the same lane
rate, and power (R107). -/
def State.layoutFits (s : State) (g : Nat) (span : Bool) (rate layout : Nat) : Bool :=
  let up := B.ETH (g + 1)
  let down := B.ETH (g - 1)
  layoutOk span rate layout (g % 2 = 1) &&
    (if g % 2 = 0 then
       !span || (s.rd up R.ETH_LG_CFG_LAYOUT = 0 && s.rd up R.ETH_LG_CFG_LANE_RATE = rate && s.domOn (domLG (g + 1)))
     else !s.flag down R.ETH_LG_CFG_SPAN8 || (layout = 0 && rate = s.rd down R.ETH_LG_CFG_LANE_RATE))

/-- ETH_LG_CFG of lane group g takes a value (Table 5.6). -/
def State.lgCfgTakes (s : State) (g v : Nat) : Bool :=
  let f := fun (y : RegField) => bitsOf v y.hi y.lo
  s.layoutFits g (f R.ETH_LG_CFG_SPAN8 = 1) (f R.ETH_LG_CFG_LANE_RATE) (f R.ETH_LG_CFG_LAYOUT)

/-- The lane groups that a port's lanes lie in. -/
def State.portLGs (s : State) (p : Nat) : List Nat := (List.range 24).filter fun g => p / 4 ≤ g && g ≤ (p + max 1 (s.portWidth p) - 1) / 4

/-- The lower and upper pipeline index that a lane's port has: relative lane div 6 in its quadrant (R110). -/
def lanePipe (lane : Nat) : Nat := 4 * (lane / 24) + lane % 24 / 6

/-- A port straddles two pipelines. -/
def State.straddles (s : State) (p : Nat) : Bool :=
  decide (1 ≤ s.portWidth p) && lanePipe p ≠ lanePipe (p + s.portWidth p - 1)

/-- Lanes of a port that pipeline k serves: the weights of R110. -/
def State.portWeight (s : State) (p k : Nat) : Nat :=
  ((List.range' p (s.portWidth p)).filter fun l => lanePipe l = k).length

/-- INC of a tailrace's share of a straddling port (R239, R241): rate in Gb/s × 8,192 × weight / width. -/
def State.shareInc (s : State) (p t : Nat) : Nat :=
  min 16777215 (max 1 (s.portRate p * 8192 * s.portWeight p t / max 1 (s.portWidth p)))

/-- Ports above 25 Gb/s a lane take no FEC setting of their own: a lane rate that no longer allows one sets it back (R115). -/
def State.fitFec (s : State) (g : Nat) : State :=
  if s.laneRate g = 25 then s else (List.range 4).foldl (fun s k => s.wr (B.ETH g + 4 * k) R.ETH_PORT_CFG_FEC 0) s

/-! ### Modules (R122, R123) -/

/-- Advertised power of the module in a cage. -/
def State.module (s : State) (g : Nat) : Option Nat :=
  let x := tget (fun _ => 0) s.eth.cages g
  if x = 0 then none else some (x - 1)

def mmPin (g : Nat) (what : String) : String := "MM" ++ toString g ++ "_" ++ what

/-- A powered lane group finds a module in its cage: its feed is on, a trip and an isolation before it are over, and it stays in
low power until it is judged. -/
def State.moduleSeen (s : State) (g : Nat) : State :=
  if (s.module g).isNone || !s.domOn (domLG g) then s
  else
    let b := B.ETH g
    let s := (s.wrB b R.ETH_MOD_STATUS_PRESENT true).wrB b R.ETH_MOD_STATUS_FEED_ON true
    let s := (s.wrB b R.ETH_MOD_STATUS_TRIP false).wrB b R.ETH_MOD_STATUS_ISOLATED false
    { s with eth := { s.eth with released := s.eth.released.filter (· ≠ g) } }.emit (.pin (mmPin g "PWR_EN") true)

/-! ### What the Lockkeeper sets up in Priming (R111, R226, R232, R241) -/

/-- Spread tables of a straddling port: the lower pipeline in the lower buckets, in proportion to the weights. -/
def State.fillSpread (s : State) (p : Nat) : State :=
  let low := (64 * s.portWeight p (lanePipe p) + s.portWidth p / 2) / max 1 (s.portWidth p)
  let v := 2 ^ 64 - 2 ^ low
  (s.wrPair (B.ETH (portLG p) + 0x40) v).wrPair (B.ETH (portLG p) + 0x48) v

/-- One port given its slot in a tailrace: the first that is free. -/
def State.assignSlot (s : State) (p t : Nat) : State :=
  match (List.range 8).find? fun k => !s.flag (B.TLR t + 0x100 * k) R.TLR_SLOT_CFG_EN with
  | none => s
  | some k =>
    let b := B.TLR t + 0x100 * k
    let s := (s.wrB b R.TLR_SLOT_CFG_EN true).wr b R.TLR_SLOT_CFG_PORT p
    if s.straddles p then (s.wrB b R.TLR_SLOT_SHP_SHP_EN true).wr b R.TLR_SLOT_SHP_INC (s.shareInc p t) else s

/-- Slots, spread tables and shares of every port, in ascending order of port number, in the tailraces that `ok` takes. -/
def State.setUpPorts (s : State) (ok : Nat → Bool) : State :=
  ((List.range 96).filter fun p => s.portWidth p ≠ 0 && s.domOn (29 + p / 4)).foldl (fun s p =>
    let s := if s.straddles p then s.fillSpread p else s
    (if s.straddles p then [lanePipe p, lanePipe p + 1] else [lanePipe p]).foldl (fun s t =>
      if ok t && s.domOn (domTR t) then s.assignSlot p t else s) s) s

/-- R_t in Gb/s: the ports' rates by their weights, and 450 for a configured host port (R15, R226). -/
def State.tailRate (s : State) (t : Nat) : Nat :=
  (((List.range 96).filter fun p => s.portWidth p ≠ 0).map fun p => s.laneRate (portLG p) * s.portWeight p t).sum
    + (if bitOf s.image.domains (53 + t / 2) then 450 else 0)

/-- The default ECN thresholds (R226). -/
def State.setUpEcn (s : State) : State :=
  if !s.domOn 73 then s
  else (List.range 128).foldl (fun s i =>
    s.wr (B.WEIR + 4 * i) R.WEIR_TC_ECN_TH (min 0xFFFFFF ((20000 * s.tailRate (i / 8) + 8191) / 8192))) s

end Sys2Proof.Machine
end

