-- ==== Sys2Proof/Machine/Packets.lean ====
section
/-! DEFINITION. Packets on their way: the transmit chains they come from, the carry's fields, and the tokens of a
pipeline (R126, R142, R146 to R148, R157, R290). -/
namespace Sys2Proof.Machine

/-! ### Queue pairs and transmit chains (R275, R290) -/

def qpKey (p q : Nat) : Nat := 64 * p + q
def coreRingKey (r : Nat) : Nat := 2 ^ 20 + r

def State.qp (s : State) (k : Nat) : Qp := tget (fun _ => Qp.init) s.qps k
def State.setQp (s : State) (k : Nat) (x : Qp) : State := { s with qps := tput (fun _ => Qp.init) s.qps k x }

/-- Generation of a plot, in full (PLOT_XGEN). -/
def State.plotGen (s : State) (p : Nat) : Nat := s.rd (B.PLOT p) R.PLOT_XGEN_XGEN

/-- The queue pair or core ring that a packet came from, while that plot generation lasts. -/
def State.ringOf (s : State) (o : Origin) : Option Nat :=
  match o with
  | .plot p q gen => if s.plotGen p = gen && (s.qp (qpKey p q)).live then some (qpKey p q) else none
  | .core r => some (coreRingKey r)
  | .eth _ | .survey => none

/-- A change of the chain that a packet belongs to. -/
def State.onChain (s : State) (k : Pkt) (f : Chain → Chain) : State :=
  match s.ringOf k.org with
  | none => s
  | some r =>
    let x := s.qp r
    s.setQp r { x with chains := x.chains.map fun c => if c.seq = k.chain then f c else c }

/-- The headrace takes a packet of a chain; the first one gives the chain its time (R290). -/
def State.chainTaken (s : State) (k : Pkt) : State :=
  s.onChain k fun c =>
    if k.first then { c with toTake := c.toTake - 1, time := s.timeWord, frac := k.frac } else { c with toTake := c.toTake - 1 }

/-- The Husker drops a packet of a chain (Table 12.5). -/
def State.chainParseDrop (s : State) (k : Pkt) : State :=
  s.onChain k fun c => { c with status := if c.status = 0 then 4 else c.status, ended := c.ended || k.first }

/-- A packet is dropped, or delivered to a plot or core ring: what R290 waits for has happened. -/
def State.pktEnd (s : State) (k : Pkt) : State :=
  if k.tsReq && k.first then s.onChain k fun c => { c with ended := true } else s

/-- The first bit of a packet leaves an Ethernet port at a time word and fraction (R290). -/
def State.pktLeft (s : State) (k : Pkt) (time frac : Nat) : State :=
  if k.tsReq && k.first then
    s.onChain k fun c => if c.ended then c else { c with ended := true, time := time, frac := frac, tsValid := true }
  else s

def State.plot (s : State) (p : Nat) : PlotSt := tget (fun _ => PlotSt.init) s.plots p
def State.setPlot (s : State) (p : Nat) (x : PlotSt) : State :=
  { s with plots := tput (fun _ => PlotSt.init) s.plots p x }

/-- Key of the registers of queue pair q of plot p: in the VF BAR0, or in the manager window of PF0 (Table 12.8). -/
def State.qpRegs (s : State) (p q : Nat) : Nat :=
  (match s.fnOfPlot p with
   | some (m, 0) => B.MGR m
   | _ => B.VF p) + 0x40 * q

/-- Posts that a receive ring holds, and whether one of them is free for a packet (R280, R281). -/
def Qp.posts (x : Qp) : Nat := (x.rxProd + 2 ^ 32 - x.rxCons) % 2 ^ 32
def Qp.rxSlotFree (x : Qp) : Bool := decide ((x.rxc.prod + 2 ^ 32 - x.rxc.cons) % 2 ^ 32 < 2 ^ x.rxLog)
def Qp.postFree (x : Qp) : Bool := decide (0 < x.posts) && x.rxSlotFree

/-! ### Egress stores -/

def State.egress (s : State) (t : Nat) : EgrSt := tget (fun _ => EgrSt.empty) s.egr t
def State.setEgress (s : State) (t : Nat) (x : EgrSt) : State :=
  { s with egr := tput (fun _ => EgrSt.empty) s.egr t x }

/-- Tailraces (and headraces) of a link: both of an x16 port, one of a half (R15). -/
def State.linkTails (s : State) (m : Nat) : List Nat := if bitOf s.image.bifur (m / 2) then [m] else [m, m + 1]

/-- Live queue pairs of a plot bound to tailrace t. -/
def State.boundQps (s : State) (p t : Nat) : Nat :=
  (s.qps.filter fun e => e.1 < 2 ^ 20 && e.1 / 64 = p && e.2.live && e.2.bind = t).length

/-- A plot's receive limit split between the tailraces of its link, in proportion to its queue pairs; evenly while it has
none (R242). -/
def State.resplit (s : State) (p : Nat) : State :=
  match s.fnOfPlot p with
  | none => s
  | some (m, f) =>
    let x := s.plot p
    let ts := s.linkTails m
    let total := (ts.map (s.boundQps p)).sum
    ts.foldl (fun s t =>
      if !s.domOn (domTR t) then s
      else
        let a := B.TLR t + 8 * (128 * (m % 2) + f)
        let inc := if total = 0 then x.rxInc / ts.length else x.rxInc * s.boundQps p t / total
        (((s.wrB a R.TLR_PLOT_SHP_SHP_EN x.rxEn).wr a R.TLR_PLOT_SHP_INC (max 1 inc)).wr a R.TLR_PLOT_SCHED_WEIGHT x.rxWeight).wr a
          R.TLR_PLOT_SCHED_BURST x.rxBurst) s

def flushCnt (p : Nat) : Nat := B.WEIR + C.WEIR_FLUSHED + 8 * p

/-! ### The carry (Tables 6.9 and 7.6) -/

/-- Bits of a carry field by byte offset and bits in the field. -/
def carryAt (c byte hi lo : Nat) : Nat := bitsOf c (8 * byte + hi) (8 * byte + lo)
def carryPut (c byte hi lo v : Nat) : Nat := setBits c (8 * byte + hi) (8 * byte + lo) v

def Carry.srcKind (c : Nat) : Nat := carryAt c 0 15 14
def Carry.srcNum (c : Nat) : Nat := carryAt c 0 13 0
def Carry.len (c : Nat) : Nat := carryAt c 2 15 0
def Carry.endCode (c : Nat) : Nat := carryAt c 4 15 12
def Carry.inner (c : Nat) : Nat := carryAt c 4 11 8
def Carry.hcount (c : Nat) : Nat := carryAt c 4 4 0
def Carry.flowHash (c : Nat) : Nat := carryAt c 8 31 0
/-- Header type and offset of stack entry i. -/
def Carry.htype (c i : Nat) : Nat := carryAt c (16 + 2 * i) 15 10
def Carry.hoff (c i : Nat) : Nat := carryAt c (16 + 2 * i) 9 0
def Carry.destKind (c : Nat) : Nat := carryAt c 96 31 30
def Carry.cls (c : Nat) : Nat := carryAt c 96 29 27
def Carry.drop (c : Nat) : Bool := carryAt c 96 26 26 == 1
def Carry.reason (c : Nat) : Nat := carryAt c 96 25 20
def Carry.qsel (c : Nat) : Nat := carryAt c 96 19 12
def Carry.target (c : Nat) : Nat := carryAt c 96 11 0
def Carry.edit (c : Nat) : Nat := carryAt c 100 7 0
def Carry.colour (c : Nat) : Nat := carryAt c 101 1 0
def Carry.tapReq (c : Nat) : Bool := carryAt c 102 15 15 == 1
def Carry.tapReason (c : Nat) : Nat := carryAt c 102 7 0

/-- SRC of a packet (Table 6.9). Survey generators are all numbered 0: the spec gives them no numbers (DESIGN CHOICE,
assumption 15). -/
def srcField : Origin → Nat
  | .eth p => p
  | .plot p _ _ => 2 ^ 14 + p
  | .core r => 2 ^ 15 + r
  | .survey => 3 * 2 ^ 14

/-! ### Tokens in a pipeline (R147, R148) -/

def gatesOf (k : Nat) : Nat := if k < 16 then 12 else 6

def State.pipe (s : State) (k : Nat) : PipeSt := tget (fun _ => PipeSt.empty) s.pipes k
def State.setPipe (s : State) (k : Nat) (x : PipeSt) : State :=
  { s with pipes := tput (fun _ => PipeSt.empty) s.pipes k x }

def State.setToks (s : State) (k : Nat) (ts : List Token) : State := s.setPipe k { s.pipe k with toks := ts }

/-- Tokens at the entrance of a gate. -/
def atEntrance (ts : List Token) (g : Nat) : Nat := (ts.filter fun t => t.gate = g && t.st = .entrance).length

/-- The entrance of the first gate has room (R148). -/
def State.roomAtG0 (s : State) (k : Nat) : Bool := atEntrance (s.pipe k).toks 0 < 32

/-- A packet enters a pipeline's first gate with a bank. -/
def Token.enter (k : Pkt) (carry bank : Nat) (lr : Bool) : Token :=
  { pkt := k, carry := carry, locals_ := 0, preds := 0, bank := bank, gate := 0, st := .entrance, pc := 0, words := 0,
    resp := [], barred := false, doomed := false, lr := lr, gen := 0, ce := false, id := 0,
    voq := 0, dest := 0, cut := false, tally := List.replicate 12 0 }

/-- The headraces forward: Flowing, Trickle and Survey (Table 4.1). -/
def State.forwarding (s : State) : Bool :=
  match s.mode with
  | .flowing | .trickle | .survey => true
  | .fallow | .priming | .drain => false

/-- What long reach needs beside the request: PD79 on, and a mode that allows it (R127). -/
def State.lrMay (s : State) : Bool := s.domOn 79 && (s.mode = .priming || s.mode = .trickle || s.mode = .survey)

/-- Long reach is in force (R127, R128). -/
def State.lrActive (s : State) (h : Nat) : Bool := s.flag (B.HUSK h) R.HUSK_STATUS_LR_ACTIVE && s.lrMay

end Sys2Proof.Machine
end

