-- ==== Sys2Proof/Machine/Cache.lean ====
section
/-! DEFINITION. The Silo's volumes, extents and cache, the ledger's held blocks, and the NVMe controllers as shared
operations (R351 to R369). -/
namespace Sys2Proof.Machine

def State.onSilo (s : State) (f : SiloSt → SiloSt) : State := { s with silo := f s.silo }
def State.onCist (s : State) (f : Cist → Cist) : State := { s with cist := f s.cist }
def State.onVault (s : State) (f : Vault → Vault) : State := { s with vault := f s.vault }

def State.drive (s : State) (d : Nat) : Drive := tget (fun _ => Drive.none) s.silo.drives d
def State.setDrive (s : State) (d : Nat) (x : Drive) : State :=
  s.onSilo fun c => { c with drives := tput (fun _ => Drive.none) c.drives d x }
def State.vol (s : State) (v : Nat) : Vol := tget (fun _ => Vol.none) s.silo.vols v
def State.setVol (s : State) (v : Nat) (x : Vol) : State :=
  s.onSilo fun c => { c with vols := tput (fun _ => Vol.none) c.vols v x }
def State.ctl (s : State) (p : Nat) : Ctl := tget (fun _ => Ctl.init) s.silo.ctls p
def State.setCtl (s : State) (p : Nat) (x : Ctl) : State :=
  s.onSilo fun c => { c with ctls := tput (fun _ => Ctl.init) c.ctls p x }

/-! ### Schemes and the extent map (Tables 15.2 and 15.3) -/

def schemeCols (k : Nat) : Nat := [2, 3, 6, 10].getD k 10
/-- Granules of a column. -/
def schemeGran (k : Nat) : Nat := [8, 8, 2, 1].getD k 1
/-- Columns that a read needs, and that a write of an erasure scheme must reach. -/
def schemeNeed (k : Nat) : Nat := [1, 1, 4, 8].getD k 8

def Ext.valid (e : Nat) : Bool := bitOf e 127
def Ext.degraded (e : Nat) : Bool := bitOf e 126
def Ext.moving (e : Nat) : Bool := bitOf e 125
def Ext.scheme (e : Nat) : Nat := bitsOf e 121 120
def Ext.volume (e : Nat) : Nat := bitsOf e 119 108
def Ext.slot (e : Nat) : Nat := bitsOf e 106 80
def Ext.drive (e c : Nat) : Nat := bitsOf e (5 * c + 4) (5 * c)
def Ext.setDegraded (e : Nat) (b : Bool) : Nat := setBits e 126 126 (bit b)
def Ext.setMoving (e : Nat) (b : Bool) : Nat := setBits e 125 125 (bit b)
/-- The drives of an entry's columns, in column order. -/
def Ext.drives (e : Nat) : List Nat := (List.range (schemeCols (Ext.scheme e))).map (Ext.drive e)
def Ext.mk (scheme vol slot : Nat) (ds : List Nat) : Nat :=
  2 ^ 127 + scheme * 2 ^ 120 + vol * 2 ^ 108 + slot * 2 ^ 80 + (ds.zipIdx.map fun d => d.1 * 2 ^ (5 * d.2)).sum

/-- Index of the map entry of logical extent x of a volume (R354). -/
def State.extIx (s : State) (v x : Nat) : Nat := (s.vol v).base + x
def State.ext (s : State) (i : Nat) : Nat := tget (fun _ => 0) s.silo.map i
def State.setExt (s : State) (i e : Nat) : State := s.onSilo fun c => { c with map := tput (fun _ => 0) c.map i e }
/-- The entry as the drives' metadata regions hold it. -/
def State.keepExt (s : State) (i e : Nat) : State := s.onSilo fun c => { c with meta_ := tput (fun _ => 0) c.meta_ i e }
def State.staleCols (s : State) (i : Nat) : Nat := tget (fun _ => 0) s.silo.stale i
def State.setStale (s : State) (i v : Nat) : State := s.onSilo fun c => { c with stale := tput (fun _ => 0) c.stale i v }

/-- Extents of an LBA are of 256 LBAs. -/
def extOf (lba : Nat) : Nat := lba / 256

/-- A drive of the pool that can be read or written. -/
def State.driveOn (s : State) (d : Nat) : Bool :=
  let x := s.drive d
  (x.st = .member || x.st = .retiring) && x.up && s.domOn (domDP d)

def State.members (s : State) : List Nat := (List.range 32).filter fun d => (s.drive d).st = .member

/-- An allocated column of a drive overlaps granules g to g + n - 1. -/
def State.granUsed (s : State) (d g n : Nat) : Bool :=
  s.silo.map.any fun e => Ext.valid e.2 && (Ext.drives e.2).contains d && decide (Ext.slot e.2 < g + n)
    && decide (g < Ext.slot e.2 + schemeGran (Ext.scheme e.2))

/-- MEMBER drives on which a column at SLOT fits. -/
def State.slotDrives (s : State) (scheme slot : Nat) : List Nat :=
  s.members.filter fun d => decide (slot + schemeGran scheme ≤ (s.drive d).cap) && !s.granUsed d slot (schemeGran scheme)

/-- A SLOT free on enough MEMBER drives, and drives for the columns: a free choice (R353, R355). -/
def State.place (s : State) (scheme : Nat) : Option (Nat × List Nat) × State :=
  let n := schemeCols scheme
  match s.choose (fun g => decide (n ≤ (s.slotDrives scheme g).length)) 0 (2 ^ 27) with
  | (none, s) => (none, s)
  | (some g, s) =>
    let l := s.slotDrives scheme g
    let (f, s) := s.draw
    (some (g, ((l.drop (f % l.length)) ++ l.take (f % l.length)).take n), s)

/-- Space for a logical extent that has none (R355); none where the pool has no space. -/
def State.allocate (s : State) (v x : Nat) : Option State :=
  let i := s.extIx v x
  if Ext.valid (s.ext i) then some s
  else match s.place (s.vol v).scheme with
    | (some (g, ds), s) => some (s.setExt i (Ext.mk (s.vol v).scheme v g ds))
    | (none, _) => none

/-- Space for a range of LBAs. -/
def State.allocateAll (s : State) (v : Nat) : List Nat → Option State
  | [] => some s
  | x :: xs => match s.allocate v x with
    | some s => s.allocateAll v xs
    | none => none

/-- The extents that n LBAs from lba touch. -/
def extsOf (lba n : Nat) : List Nat := if n = 0 then [] else List.range' (extOf lba) (extOf (lba + n - 1) + 1 - extOf lba)

/-- Every map entry of a volume. -/
def State.volEntries (s : State) (v : Nat) : List (Nat × Nat) :=
  s.silo.map.filter fun e => Ext.valid e.2 && Ext.volume e.2 = v

/-! ### The cache and the ledger (R22, R365, R368) -/

def Block.dirty (b : Block) : Bool := b.st = .dirty
/-- The block belongs to a write that has not been acknowledged. -/
def Block.inFlight (b : Block) : Bool := b.st = .staging || b.st = .written

def State.dirtyBlocks (s : State) : Nat := (s.silo.cache.filter Block.dirty).length

/-- H: blocks that hold a reservation, and those reserved for writes whose data is not in S0 yet. -/
def State.heldBlocks (s : State) : Nat :=
  (s.silo.cache.filter (·.held)).length + ((s.silo.writes.filter fun w => w.granted && !w.staged).map (·.n)).sum

def State.onWrite (s : State) (id : Nat) (f : WOp → WOp) : State :=
  s.onSilo fun c => { c with writes := c.writes.map fun w => if w.id = id then f w else w }

/-- A write leaves without having been acknowledged: its STAGING blocks go, and its reservation with them (R362). -/
def State.dropWrite (s : State) (id : Nat) : State :=
  s.onSilo fun c => { c with writes := c.writes.filter (·.id ≠ id), waiting := c.waiting.filter (· ≠ id),
                             cache := c.cache.filter fun b => !(b.inFlight && b.seq = id) }

/-- Blocks of a stack (R20, R365): 24 GiB in blocks of 4 KiB. -/
def s0Blocks : Nat := 24 * 2 ^ 18

/-- The cache with room for n more blocks: where S0 would be full, the CLEAN blocks that came first turn FREE. Which CLEAN
blocks go is the model's choice; a CLEAN block is also on the drives (DESIGN CHOICE, assumption 93). -/
def roomIn (cache : List Block) (n : Nat) : List Block :=
  let go := fun (acc : Nat × List Block) (b : Block) =>
    if 0 < acc.1 && b.st = .clean then (acc.1 - 1, acc.2) else (acc.1, acc.2 ++ [b])
  if cache.length + n ≤ s0Blocks then cache else (cache.foldl go (cache.length + n - s0Blocks, [])).2

/-- Content of an LBA as a read sees it: DIRTY and CLEAN blocks first, then the drives; zeros where nothing is. -/
def State.lbaHit (s : State) (v lba : Nat) : Option (List Byte) :=
  (s.silo.cache.find? fun b => b.vol = v && b.lba = lba && !b.inFlight).map (·.data)

def diskKey (v lba : Nat) : Nat := v * 2 ^ 40 + lba
def zeros4k : List Byte := fit 4096 []

/-- The ciphertext bytes of a data unit (R21, R358). -/
def Sealed.bytes (c : Sealed) : List Byte := Config.xtsEncrypt c.key c.tweak c.plain

/-- Decryption (R358): what was encrypted, where key and tweak are those of the encryption; else bytes that no rule
states. -/
def Sealed.opened (c : Sealed) (key : List Byte) (tweak : Nat) : List Byte :=
  if c.key = key && c.tweak = tweak then c.plain else Config.xtsDecrypt key tweak c.bytes

/-- The drives' bytes of an LBA, decrypted under the volume's key; zeros where nothing was destaged (assumption 21). -/
def State.lbaDisk (s : State) (v lba : Nat) : List Byte :=
  match tget (fun _ => none) s.silo.disk (diskKey v lba) with
  | none => zeros4k
  | some c => c.opened (s.vol v).key lba

/-- Data goes to the drives encrypted under the volume's key, with the LBA as tweak (R21, R358). -/
def State.setDisk (s : State) (v lba : Nat) (l : List Byte) : State :=
  s.onSilo fun c =>
    { c with disk := tput (fun _ => none) c.disk (diskKey v lba) (some { key := (s.vol v).key, tweak := lba, plain := l }) }

/-- Blocks of a write turn to a state at one instant, and what they supersede turns FREE (R365). -/
def State.settleWrite (s : State) (id : Nat) (st : BlkSt) (held : Bool) : State :=
  s.onSilo fun c =>
    let mine := c.cache.filter fun b => b.inFlight && b.seq = id
    let ovr := fun (v lba : Nat) => mine.any fun b => b.vol = v && b.lba = lba
    { c with cache := (c.cache.filter fun b => !(b.inFlight && b.seq = id) && !(!b.inFlight && ovr b.vol b.lba))
                        ++ mine.map fun b => { b with st := st, seq := c.nextSeq, held := b.held && held },
             restored := c.restored.filter (fun k => !ovr (k / 2 ^ 40) (k % 2 ^ 40)),
             badBlks := c.badBlks.filter (fun k => !ovr (k / 2 ^ 40) (k % 2 ^ 40)),
             nextSeq := c.nextSeq + 1, writes := c.writes.filter (·.id ≠ id) }

/-! ### NVMe controllers (R360, R362) -/

/-- A storage plot's live I/O submission queues (R302). -/
def State.nvmeQps (s : State) (p : Nat) : Nat := ((s.ctl p).sqs.filter fun e => e.1 ≠ 0 && e.2.live).length

/-- Live queue pairs of a plot and of the device. -/
def State.liveQps (s : State) (p : Nat) : Nat :=
  (s.qps.filter fun e => e.1 < 2 ^ 20 && e.1 / 64 = p && e.2.live).length + s.nvmeQps p
def State.allQps (s : State) : Nat :=
  (s.qps.filter fun e => e.1 < 2 ^ 20 && e.2.live).length
    + ((s.silo.ctls.map fun e => (e.2.sqs.filter fun q => q.1 ≠ 0 && q.2.live).length).sum)

/-- The enabled controller of a storage plot. -/
def State.ctlOn (s : State) (p : Nat) : Bool := s.flag (B.NVME p) R.NVME_CC_EN

/-- The work of a plot's controller ends without completions: unacknowledged writes are dropped, reads cut off. -/
def State.dropCtl (s : State) (p : Nat) : State :=
  let mine := s.silo.writes.filter fun w => match w.src with
    | some (p', _) => p' = p
    | none => false
  let s := mine.foldl (fun s w => s.dropWrite w.id) s
  (s.onSilo fun c => { c with reads := c.reads.filter (·.src.1 ≠ p) }).setCtl p Ctl.init

/-- A controller reset (R362); CSTS.RDY, CFS and SHST clear. -/
def State.ctlReset (s : State) (p : Nat) : State := (s.dropCtl p).wrW (B.NVME p + 0x1C) 0

/-- The NVMe controller of a storage plot is disabled, its registers at reset and its queues gone. -/
def State.clearNvme (s : State) (p : Nat) : State :=
  (s.dropCtl p).resetRegs fun a => decide (B.NVME p ≤ a) && decide (a < B.NVME p + 0x1_0000)

/-- CC.EN rises: the admin queues come into being, and the controller is ready (NVMe base specification). -/
def State.ctlEnable (s : State) (p : Nat) : State :=
  let b := B.NVME p
  let q : Nq := { Nq.none with live := true, base := s.pair (b + 0x28), size := s.rd b R.NVME_AQA_ASQS + 1 }
  let c : Nq := { Nq.none with live := true, base := s.pair (b + 0x30), size := s.rd b R.NVME_AQA_ACQS + 1, ien := true, phase := true }
  (s.setCtl p { Ctl.init with sqs := [(0, q)], cqs := [(0, c)] }).wrW (b + 0x1C) 1

/-- CC has been written: EN falling resets, EN rising enables, a shutdown notification completes (R362). -/
def State.ccWritten (s : State) (p old : Nat) : State :=
  let en := s.ctlOn p
  let s := if bitOf old 0 && !en then s.ctlReset p else if !bitOf old 0 && en then s.ctlEnable p else s
  if en && s.rd (B.NVME p) R.NVME_CC_SHN ≠ 0 && bitsOf old 15 14 ≠ s.rd (B.NVME p) R.NVME_CC_SHN then
    s.wr (B.NVME p) R.NVME_CSTS_SHST 2
  else s

/-! ### Conduit connections (R99, R377, R379) -/

def connBase (c : Nat) : Nat := B.CND + 0x20 * c

def State.conn (s : State) (c : Nat) : ConnSt := tget (fun _ => ConnSt.init) s.silo.conns c
def State.setConn (s : State) (c : Nat) (x : ConnSt) : State :=
  s.onSilo fun y => { y with conns := tput (fun _ => ConnSt.init) y.conns c x }

/-- STATE: 0 down, 1 up, 2 failed. -/
def State.connState (s : State) (c : Nat) : Nat := s.rd (connBase c) R.CND_CONN_STATE_STATE

/-- Extents of a write that were written unreplicated. -/
def State.markExts (s : State) (v lba n : Nat) : State :=
  s.onSilo fun c => { c with marks := c.marks ++ ((extsOf lba n).map (s.extIx v)).filter fun i => !c.marks.contains i }

/-- The retransmit buffer of a connection is gone; with FAILMODE 0 what the peer has not acknowledged is marked, and writes that
wait for it wait no longer. With FAILMODE 1 they end with Namespace Not Ready when their turn comes (R379). -/
def State.dropBuffer (s : State) (c : Nat) : State :=
  let x := s.conn c
  let s := s.setConn c { x with sent := [], tries := 0, rto := 1 }
  if s.flag (connBase c) R.CND_CONN_CFG_FAILMODE then s
  else
    let s := x.sent.foldl (fun (s : State) (p : CPkt) => s.markExts (x.localVol.getD 0) p.lba 1) s
    (s.silo.writes.filter fun w => w.peer.any fun z => z.1 = c).foldl (fun s w =>
      (s.markExts w.vol w.lba w.n).onWrite w.id fun w => { w with peer := none }) s

/-- Every enabled connection goes down without a fault, because its retransmit buffer is lost (R99). -/
def State.conduitDown (s : State) : State :=
  ((List.range 64).filter fun c => s.connState c ≠ 0).foldl (fun s c =>
    (s.wr (connBase c) R.CND_CONN_STATE_STATE 0).dropBuffer c) s

/-- CND_CONN_CFG has been written as a register: a connection whose EN falls goes down, and one whose EN rises is up, from the
packet numbers that it has (assumption 24). -/
def State.connWritten (s : State) (c old : Nat) : State :=
  let en := s.flag (connBase c) R.CND_CONN_CFG_EN
  if en = bitOf old 31 then s
  else if en then s.wr (connBase c) R.CND_CONN_STATE_STATE 1
  else (s.wr (connBase c) R.CND_CONN_STATE_STATE 0).dropBuffer c

/-! ### What the resets and Drain leave (R49, R104, R373) -/

/-- Writes not acknowledged and STAGING blocks are dropped, and reads cut off (Table 15.7 step 3). -/
def State.dropInFlight (s : State) : State :=
  s.onSilo fun c => { c with writes := [], waiting := [], reads := [], cache := c.cache.filter fun b => !b.inFlight }

/-- Lists of at most n. -/
def chunksOf {α : Type} (n : Nat) : Nat → List α → List (List α)
  | 0, _ => []
  | fuel + 1, l => if l = [] ∨ n = 0 then [] else l.take n :: chunksOf n fuel (l.drop n)

/-- A list in ascending order of a key, equal keys in their order. -/
def insertBy {α : Type} (key : α → Nat) (a : α) : List α → List α
  | [] => [a]
  | b :: l => if key a < key b then a :: b :: l else b :: insertBy key a l
def sortBy {α : Type} (key : α → Nat) (l : List α) : List α := l.foldl (fun acc a => insertBy key a acc) []

/-- Blocks that lie side by side with one acknowledgement sequence: the blocks of one write. -/
def bySeq : List Block → List (List Block)
  | [] => []
  | b :: l =>
    match bySeq l with
    | (c :: g) :: gs => if b.seq = c.seq then (b :: c :: g) :: gs else [b] :: (c :: g) :: gs
    | gs => [b] :: gs

/-- Groups put together while they hold at most n. -/
def pack (n : Nat) : List (List Block) → List Block → List (List Block)
  | [], acc => if acc = [] then [] else [acc]
  | g :: gs, acc => if acc.length + g.length ≤ n then pack n gs (acc ++ g) else acc :: pack n gs g

/-- The image that a Drain writes: dirty blocks oldest-acknowledged first, up to 1,016 to a chunk, the blocks of one
write in one chunk, each encrypted under the vault's key (R21, R358, R374, R376; assumption 23). -/
def State.imageChunks (s : State) : List (List VRec) :=
  (pack 1016 (bySeq (sortBy (fun (b : Block) => b.seq) (s.silo.cache.filter Block.dirty))) []).map
    (·.map fun b => { vol := b.vol, lba := b.lba, seq := b.seq,
                      data := { key := s.vault.key, tweak := b.lba, plain := b.data } })

/-- Entry to Drain: the cache is frozen, and a save begins where there are dirty blocks, no image awaits restore and
the vault port is there; the trigger's marker is written in any case (R89, R105, R373). -/
def State.siloFreeze (s : State) (pin : Bool) : State :=
  let s := s.dropInFlight
  let pending := s.flag B.DEV R.DEV_MODE_VAULT_PENDING
  let s := s.onVault fun v => { v with pin := pin }
  if s.dirtyBlocks = 0 || pending || !s.domOn 75 then s.onSilo fun c => { c with save := .ended, restoring := none }
  else
    let s := s.onVault fun v =>
      { v with hdr := 1, seq := v.seq + 1, chunks := [], pending := true, late := false, drains := v.drains + 1 }
    s.onSilo fun c => { c with save := .chunks s.imageChunks false, restoring := none }

end Sys2Proof.Machine
end

