-- ==== Sys2Proof/Machine/Flags.lean ====
section
/-! DEFINITION. What a register write does to each field: accepted encodings, access codes, locks, alias rules
(R9 to R11, R57 to R59, R63). -/
namespace Sys2Proof.Machine

/-- Every two-bit group of a 32-bit value differs from 0b11. -/
def pairsOk (v : Nat) : Bool := (List.range 16).all fun i => (v / 4 ^ i) % 4 ≠ 3

/-- Every four-bit group of a 32-bit value lies in -4 to 3. -/
def nibblesOk (v : Nat) : Bool := (List.range 8).all fun i => (v / 16 ^ i) % 16 ≤ 3 || 12 ≤ (v / 16 ^ i) % 16

/-- A field accepts a value (R11). -/
def Accepts.takes (a : Accepts) (v : Nat) : Bool :=
  match a with
  | .any => true
  | .range lo hi => decide (lo ≤ v) && decide (v ≤ hi)
  | .oneOf l => l.contains v
  | .mult lo hi k => decide (lo ≤ v) && decide (v ≤ hi) && v % k = 0
  | .signed w m p => decide (-(m : Int) ≤ signedOf w v) && decide (signedOf w v ≤ p)
  | .pairs => pairsOk v
  | .nibbles => nibblesOk v
  | .orElse hi x => decide (v ≤ hi) || v = x

/-- A field's value after a plain write of a register (Table 0.6, R11). `locked`: the field's lock bit is set. -/
def fieldAfterWrite (locked : Bool) (f : FieldDesc) (old new : Nat) : Nat :=
  let o := bitsOf old f.fld.hi f.fld.lo
  let n := bitsOf new f.fld.hi f.fld.lo
  match f.acc with
  | .rw => if f.ok.takes n then n else o
  | .rwl => if !locked && f.ok.takes n then n else o
  | .w1c => (List.range (f.fld.hi + 1 - f.fld.lo)).foldl
      (fun v i => if bitOf n i then setBits v i i 0 else v) o
  | .ro | .wo | .rs => o

/-- A register's value after a plain write: each field by itself, reserved bits 0 (R10, R11). -/
def regAfterWrite (locked : Bool) (d : RegDesc) (old new : Nat) : Nat :=
  d.fields.foldl (fun v f => setBits v f.fld.hi f.fld.lo (fieldAfterWrite locked f old new)) old

/-- The bits of a register that belong to RW fields: all that an alias write may name (R58). -/
def rwMask (d : RegDesc) : Nat :=
  d.fields.foldl (fun v f => if f.acc = .rw then setBits v f.fld.hi f.fld.lo (2 ^ (f.fld.hi + 1 - f.fld.lo) - 1) else v) 0

/-- An alias write names only bits of RW fields (R58). -/
def aliasOk (d : RegDesc) (v : Nat) : Bool := v &&& rwMask d == v

/-- The value that an alias write would leave (R57). -/
def aliasValue (k : AccKind) (old v : Nat) : Nat :=
  match k with
  | .read | .write => v
  | .set => old ||| v
  | .clear => old - (old &&& v)
  | .toggle => old ^^^ v

/-- A register's value after an alias write: fields whose new encoding is not accepted keep their value (R59). -/
def regAfterAlias (d : RegDesc) (k : AccKind) (old v : Nat) : Nat :=
  d.fields.foldl (fun x f => setBits x f.fld.hi f.fld.lo
    (if f.acc = .rw then fieldAfterWrite false f old (aliasValue k old v) else bitsOf old f.fld.hi f.fld.lo)) old

/-- The lock bit that guards the RWL fields of a register, if it has one (Table 3.3). -/
def lockOf (a : Nat) : Option (Nat × RegField) :=
  if a = B.PACE + 0x10 || a = B.PACE + 0x14 then some (B.PACE, R.PACE_LOCK_VLOCK)
  else if B.CIST + 4 ≤ a && a ≤ B.CIST + 0x14 then some (B.CIST, R.CIST_LOCK_CLOCK)
  else if a = B.SEC + 4 || a = B.SEC + 8 then some (B.SEC, R.SEC_LOCK_LCLOCK)
  else if a = B.TIME + 0x30 || a = B.TIME + 0x34 || a = B.TIME + 0x38 then some (B.TIME, R.TIME_LOCK_HLOCK)
  else none

/-- The register at `a` is frozen by its lock bit (R63). -/
def State.isLocked (s : State) (a : Nat) : Bool :=
  match lockOf a with
  | none => false
  | some (b, f) => s.flag b f

/-! ### Access shapes (Table 3.1, R58) -/

/-- A granted read: an aligned 8-, 16- or 32-bit read, or a 64-bit read of a documented wide pair. -/
def readShape (size off : Nat) (pair : Bool) : Bool :=
  size = 8 || (size = 16 && off % 2 = 0) || (size = 32 && off % 4 = 0) || (size = 64 && off % 8 = 0 && pair)

/-- A granted write: an aligned 32-bit write, or a 64-bit write of a documented wide pair. -/
def writeShape (size off : Nat) (pair : Bool) : Bool :=
  (size = 32 && off % 4 = 0) || (size = 64 && off % 8 = 0 && pair)

/-! ### Pace and its flags (R34, R38, R47, Tables 2.14 to 2.16) -/

/-- A domain with a pace meter (R34). -/
def metered (d : Nat) : Bool := (1 ≤ d && d ≤ 28) || (69 ≤ d && d ≤ 74)

/-- The domains over which P_m is taken (R38). -/
def paceDomains : List Nat := List.range' 1 24 ++ [73]

def meterBase (d : Nat) : Nat := B.PACE + 4 * d

/-- P_m: the lowest meter reading among the powered pipeline domains and the Weir's; none while none is powered. A domain
just powered reads 0 until its meter's first update, and takes part with that: R38 does not say when it begins to
(DESIGN CHOICE, assumption 33). -/
def State.paceMin (s : State) : Option Nat :=
  let l := (paceDomains.filter s.domOn).map fun d => s.rd (meterBase d) R.PACE_METER_PACE
  match l with
  | [] => none
  | x :: xs => some (xs.foldl min x)

/-- PACE_FLAGS.BELOW_LR (R37): P_m lies below line rate. -/
def State.belowLR (s : State) : Bool := s.paceMin.any fun p => decide (p < 2460)

/-- The thermal ceiling in mV, where one applies: above 100 °C on two successive readings (Table 2.6). -/
def State.thermalCeil (s : State) : Option Nat :=
  let tj := s.rd B.PWR R.PWR_TJ_TJ
  if 2 ≤ s.gov.above100 && 100 < tj then some (860 - 12 * (tj - 100)) else none

/-- V_ceil: the lower of VMAX and the thermal ceiling (R38). -/
def State.vCeil (s : State) : Nat :=
  let vmax := s.rd B.PACE R.PACE_VLIMIT_VMAX
  match s.thermalCeil with
  | none => vmax
  | some c => min vmax c

/-- PACE_FLAGS.THROTTLE: the thermal ceiling lies below VMAX. -/
def State.throttled (s : State) : Bool := decide (s.vCeil < s.rd B.PACE R.PACE_VLIMIT_VMAX)

/-- The PACE registers that show P_m, the ceiling and the powered domains. -/
def State.paceView (s : State) (off stored : Nat) : Nat :=
  if off = R.PACE_STATUS_PACE_MIN.off then setBits stored 15 0 (s.paceMin.getD 0)
  else if off = R.PACE_FLAGS_BELOW_LR.off then
    setBits (setBits (setBits stored 0 0 (bit s.belowLR)) 1 1 (bit (bitOf stored 1 && s.paceMin.isSome))) 3 3 (bit s.throttled)
  else if 0x100 ≤ off && off < 0x240 then
    let d := (off - 0x100) / 4
    setBits stored 31 31 (bit (metered d && s.domOn d))
  else stored

end Sys2Proof.Machine
end

