-- ==== Sys2Proof/Machine/Ledger.lean ====
section
/-! DEFINITION. The Cistern ledger's computations: energy, budget, charge target, age, and what the Cistern and Silo
status registers show (R368 to R372). -/
namespace Sys2Proof.Machine

/-- Integer square root, below 2^24. -/
def isqrt (n : Nat) : Nat := (List.range 24).foldr (fun i a => if (a + 2 ^ i) * (a + 2 ^ i) ≤ n then a + 2 ^ i else a) 0

/-- E_use · 2 · 10^11 in mJ, from a bank voltage in units of 10 mV (R368). -/
def State.energy (s : State) (vb : Nat) : Nat :=
  let vmin := s.rd B.CIST R.CIST_DRAIN_V_MIN
  s.cist.cm * (vb * vb - vmin * vmin) * s.rd B.CIST R.CIST_LEDGER_EFF * (100 - s.rd B.CIST R.CIST_LEDGER_MARGIN)

/-- The budget at a bank voltage, in blocks (R368). -/
def State.budgetAt (s : State) (vb : Nat) : Nat :=
  let e := s.energy vb - s.rd B.CIST R.CIST_LEDGER_E_FIX * (2 * 10 ^ 11)
  min 131072 (e * s.rd B.CIST R.CIST_WRATE_W / (2 * 10 ^ 7 * s.rd B.CIST R.CIST_DRAIN_P_D * 4128))

def State.budget (s : State) : Nat := s.rd B.CIST R.CIST_BUDGET_B

/-- The charge target (R371). -/
def State.vChg (s : State) : Nat :=
  let top := s.rd B.CIST R.CIST_LIMIT_VCHG_MAX
  if s.cist.cm = 0 then top else min top (isqrt (2 * 10 ^ 9 * s.rd B.CIST R.CIST_LIMIT_E_CAP / (105 * s.cist.cm)))

/-- The budget at the capacity test's low point (R372). -/
def State.lowBudget (s : State) : Nat := s.budgetAt (95 * s.vChg / 100)

/-- CIST_CAP.AGE: whole hours since the last completed test. -/
def State.testAge (s : State) : Nat :=
  match s.cist.ageAt with
  | none => 0xFFFF
  | some t => sat 0xFFFE (s.cist.ageBase + (s.now - t) / (3600 * ms 1000))

/-- OVER: B below H (R370). -/
def State.over (s : State) : Bool := decide (s.budget < s.heldBlocks)

/-- HEALTHY (R370). -/
def State.healthy (s : State) : Bool := s.flag B.PWR R.PWR_PINS_CISTERN_OK && s.cist.senseOk && !s.over

/-- Whether a ledger request of n blocks fits: H + n within B, and within the test's low point while the capacity test is
overdue (R369, R372, Table 18.7). -/
def State.grantFits (s : State) (n : Nat) : Bool :=
  let h := s.heldBlocks
  decide (h + n ≤ s.budget)
    && (!bitOf (s.reg (B.FLT + R.FLT_BG_OVERDUE_OVERDUE.off)).toNat 8 || decide (h + n ≤ s.lowBudget))

/-- What the Cistern's status registers show (Table 15.12): V_CHG at its reset value until C_m is known. -/
def State.cistView (s : State) (off : Nat) : Nat :=
  if off = 0x20 then
    bit s.healthy * 2 ^ 31 + bit (s.flag B.PWR R.PWR_PINS_CISTERN_OK) * 2 ^ 30 + bit s.over * 2 ^ 29
      + s.rd B.CIST R.CIST_STATUS_ABOVE * 2 ^ 28 + bit (s.cist.bleed.isSome || s.cist.recharge) * 2 ^ 27 + bit s.cist.chg * 2 ^ 26
  else if off = 0x28 then sat (2 ^ 18 - 1) s.heldBlocks
  else if off = 0x2C then (if s.cist.cm = 0 then 0 else s.vChg) * 2 ^ 16 + s.rd B.CIST R.CIST_VBANK_V_B
  else if off = 0x30 then s.testAge * 2 ^ 16 + s.cist.cm
  else (s.reg (B.CIST + off)).toNat

/-- What SILO_STATUS and SILO_VAULT show (Table 15.13). -/
def State.siloView (s : State) (off : Nat) : Nat :=
  if off = 0 then
    let restoring := stepRuns s.modes.steps
    bit (s.domOn 75) * 2 ^ 31 + bit restoring * 2 ^ 30 + bit (decide (0 < s.dirtyBlocks)) * 2 ^ 29 + sat (2 ^ 18 - 1) s.dirtyBlocks
  else if off = 0x10 then bit s.vault.late * 2 ^ 15 + sat (2 ^ 15 - 1) s.vault.drains
  else (s.reg (B.SILO + off)).toNat
where
  stepRuns (l : List (Step × StepSt)) : Bool := l.any fun e => e.1 = .restore && e.2 = .running

end Sys2Proof.Machine
end

