-- ==== Sys2Proof/Machine/TimeBase.lean ====
section
/-! DEFINITION. The time unit's values that registers and pages show: states, bounds, PTM, calibration age, cable feeds
(R323, R333, R336, R340, R345). -/
namespace Sys2Proof.Machine

def State.onTim (s : State) (f : TimeSt → TimeSt) : State := { s with tim := f s.tim }

/-- TIME_STATE.STATE: 0 FREERUN, 1 ACQUIRING, 2 LOCKED, 3 HOLDOVER, 4 HOLDOVER_OUT. -/
def State.timeState (s : State) : Nat := s.rd B.TIME R.TIME_STATE_STATE

/-- SRC_BOUND of R336 in holdover, t in ns, rounded up; the stored bound otherwise. -/
def State.srcBound (s : State) : Nat :=
  match s.tim.hold with
  | none => s.rd B.TIME R.TIME_BOUND_SRC_BOUND
  | some (t0, e0) =>
    let t := s.now - t0
    let ferr := s.rd B.TIME R.TIME_HOLD_CFG_HOLD_FERR * t * (172800 * 10 ^ 9)
    let age := s.rd B.TIME R.TIME_HOLD_CFG_HOLD_AGE * t * t
    sat 0xFFFF (e0 + (ferr + age + 172800 * 10 ^ 21 - 1) / (172800 * 10 ^ 21))

/-- PTM_OK: an exchange has succeeded within the last 10 ms (R272). -/
def State.ptmOk (s : State) (m : Nat) : Bool :=
  match (s.link m).ptmOkAt with
  | some t => decide (s.now ≤ t + ms 10) && s.linkUp m && (s.link m).ptmEn
  | none => false

def State.calOf (s : State) (u : Nat) : Nat × Nat × Nat := tget (fun _ => (0, 0, 0)) s.tim.cal u

/-- A lane group (0 to 23) or host port (24 to 31) is calibrated; the corrections are free values (R327). -/
def State.calibrate (s : State) (u : Nat) : State :=
  let (tx, s) := s.draw
  let (rx, s) := s.draw
  s.onTim fun t => { t with cal := tput (fun _ => (0, 0, 0)) t.cal u (s.now, tx % 2 ^ 32, rx % 2 ^ 32) }

/-- CAL_LATE: a powered lane group was last calibrated more than 20 s ago (R327). -/
def State.calLate (s : State) : Bool :=
  (List.range 24).any fun g => s.domOn (domLG g) && decide ((s.calOf g).1 + ms 20000 < s.now)

def State.page (s : State) (m : Nat) : Page := tget (fun _ => Page.init) s.tim.pages m
def State.setPage (s : State) (m : Nat) (x : Page) : State :=
  s.onTim fun t => { t with pages := tput (fun _ => Page.init) t.pages m x }

def outReg (n : Nat) : Nat := B.TIME + 0x10 * n

/-- FEED_EN of a host output is written: a fall ends a trip, a rise switches the feed on (R340). -/
def State.feedWritten (s : State) (n old : Nat) : State :=
  let was := bitOf old 27
  let is := s.flag (outReg n) R.TIME_OUT_CFG_FEED_EN
  if 16 ≤ n || was = is then s
  else ((s.wrB (outReg n) R.TIME_OUT_STAT_TRIP false).wrB (outReg n) R.TIME_OUT_STAT_FEED_ON is).emit (.pin "HT_FEED_EN" is)

/-- EN of a time page is written: a rise latches the address and starts the pages, with SEQ at 2 (R342, R343). -/
def State.pageWritten (s : State) (m old : Nat) : State :=
  let b := B.TPG m
  let is := s.flag b R.TIME_HP_PAGE_LO_EN
  let s := s.wrB b R.TIME_HP_STATUS_ACTIVE is
  if bitOf old 0 = is then s
  else if is then
    s.setPage m { Page.init with addr := s.rd b R.TIME_HP_PAGE_LO_ADDR * 256 + 2 ^ 32 * s.rd b R.TIME_HP_PAGE_HI_ADDR, seq := 2,
                                 next := s.now + us 125 * s.rd b R.TIME_HP_CFG_INTERVAL }
  else s.setPage m Page.init

/-- What a write of a time-page address leaves: while EN is 1 the address stays (R342). -/
def pageCouple (off old new : Nat) (en : Bool) : Nat :=
  if !en then new else if off = 0 then old / 2 * 2 + new % 2 else old

/-- An Ethernet timestamp of port p with a given sub-nanosecond fraction: the time word, moved by TX_DLY or RX_DLY in
1/16 ns (R326). -/
def State.stampAt (s : State) (p : Nat) (tx : Bool) (f : Nat) : Nat × Nat :=
  let d := signedOf 16 (s.rd (B.TIME + 8 * p) (if tx then R.TIME_PORT_DLY_TX_DLY else R.TIME_PORT_DLY_RX_DLY))
  let n := toSigned 80 ((s.timeWord : Int) * 65536 + (f % 65536 : Nat) + d * 4096)
  (n / 65536, n % 65536)

/-- What the time registers show (Tables 14.13 and 14.14). -/
def State.timeView (s : State) (off : Nat) : Nat :=
  if off = 0x08 then s.timeWord % 2 ^ 32
  else if off = 0x0C then s.timeWord / 2 ^ 32
  else if off = 0x10 then s.now % 2 ^ 32
  else if off = 0x14 then s.now / 2 ^ 32 % 2 ^ 32
  else if off = 0x1C then s.srcBound
  else (s.reg (B.TIME + off)).toNat

def State.tpgView (s : State) (m off : Nat) : Nat :=
  if off = 0x0C then setBits (s.reg (B.TPG m + 0x0C)).toNat 1 1 (bit (s.ptmOk m))
  else if off = 0x10 then s.timeWord % 2 ^ 32
  else if off = 0x14 then s.timeWord / 2 ^ 32
  else if off = 0x18 then (s.reg (outReg m + 0x108)).toNat
  else (s.reg (B.TPG m + off)).toNat

end Sys2Proof.Machine
end

