-- ==== Sys2Proof/Machine/Queues.lean ====
section
/-! DEFINITION. The queues of the forwarding path and their accounting: staging, buffer slices, ingress pairs, VOQs,
destinations, fills; and the keys of the table and microcode memories. -/
namespace Sys2Proof.Machine

/-! ### Staging and flow control (R43, R118) -/

def State.stage (s : State) (h : Nat) : Staging := tget (fun _ => Staging.empty) s.staging h

def State.setStage (s : State) (h : Nat) (x : Staging) : State :=
  { s with staging := tput (fun _ => Staging.empty) s.staging h x }

def cellsOf (len : Nat) : Nat := (len + 255) / 256

def stageMax : Nat := 6656

/-- Flow-control mode of a port: 0 none, 1 global PAUSE, 2 PFC. -/
def State.fcMode (s : State) (p : Nat) : Nat := s.rd (portBase p) R.ETH_PORT_CFG_FC

def State.pfcMask (s : State) (p : Nat) : Nat := if s.fcMode p = 2 then s.rd (portBase p) R.ETH_PORT_CFG_PFC_EN else 0

/-- The headraces that serve a port: HR0 alone in Trickle (R95). -/
def State.portHeadraces (s : State) (p : Nat) : List Nat :=
  if s.mode = .trickle then [0] else if s.straddles p then [lanePipe p, lanePipe p + 1] else [lanePipe p]

/-! ### Buffer slices, VOQs and pairs (R209 to R213) -/

def State.onWeir (s : State) (f : WeirSt → WeirSt) : State := { s with weir := f s.weir }

def voqKey (h t c : Nat) : Nat := 128 * h + 8 * t + c

def State.voq (s : State) (v : Nat) : Voq := tget (fun _ => Voq.empty) s.weir.voqs v

def State.setVoq (s : State) (v : Nat) (x : Voq) : State :=
  s.onWeir fun w => { w with voqs := tput (fun _ => Voq.empty) w.voqs v x }

def voqH (v : Nat) : Nat := v / 128

def voqT (v : Nat) : Nat := v / 8 % 16

def voqC (v : Nat) : Nat := v % 8

/-- Segments of data, and in all, of a packet with frame length LEN. -/
def dataSegs (len : Nat) : Nat := (len - 4 + 63) / 64

def allSegs (len : Nat) : Nat := 3 + dataSegs len

/-- Cells of the egress store that a packet occupies (R233). -/
def egressCells (len : Nat) : Nat := (allSegs len + 3) / 4

def State.poolUsed (s : State) (q p : Nat) : Nat := tget (fun _ => 0) s.weir.used (4 * q + p)

def State.setPool (s : State) (q p v : Nat) : State :=
  s.onWeir fun w => { w with used := tput (fun _ => 0) w.used (4 * q + p) v }

def weirQ (q : Nat) : Nat := B.WEIR + 4 * q

def State.guar (s : State) (q : Nat) : Nat := s.rd (weirQ q) R.WEIR_BUF_CFG_GUAR

def State.hdrmPool (s : State) (q : Nat) : Nat := s.rd (weirQ q) R.WEIR_BUF_CFG_HDRM_POOL

/-- Cells of the shared pool (Table 9.1). -/
def sharedCells (guar hdrm : Nat) : Nat := 196608 - 26624 - 512 * guar - hdrm

/-- F: free segments of the shared pool. -/
def State.sharedFree (s : State) (q : Nat) : Nat := 4 * sharedCells (s.guar q) (s.hdrmPool q) - s.poolUsed q 1

def State.pairSt (s : State) (p : Nat) : PairSt := tget (fun _ => PairSt.none) s.weir.pairs p

def State.setPair (s : State) (p : Nat) (x : PairSt) : State :=
  s.onWeir fun w => { w with pairs := tput (fun _ => PairSt.none) w.pairs p x }

/-- XOFF, XON and headroom of a pair, in cells. -/
def State.pairLimits (s : State) (p : Nat) : Nat × Nat × Nat :=
  if p < 1024 then
    let b := B.WEIR + 0x10 * (p / 8)
    (s.rd b R.WEIR_PFC_XOFF, s.rd b R.WEIR_PFC_XON, s.rd b R.WEIR_PFC_HDRM_HDRM)
  else
    let b := B.WEIR + 0x10 * ((p - 1024) / 8)
    (s.rd b R.WEIR_HPFC_XOFF, s.rd b R.WEIR_HPFC_XON, s.rd b R.WEIR_HPFC_HDRM_HDRM)

/-- Classes of a port whose ingress threshold is reached (R213). -/
def State.weirXoff (s : State) (p : Nat) : Nat := ((List.range 8).map fun c => bit (s.pairSt (8 * p + c)).xoff * 2 ^ c).sum

/-- Classes for which a port should be pausing its partner: staging at 75 %, or an ingress threshold (R118). -/
def State.xoffWanted (s : State) (p : Nat) : Nat :=
  let all := if s.fcMode p = 1 then 0xFF else s.pfcMask p
  let full := (s.portHeadraces p).any fun h => decide (stageMax * 3 ≤ 4 * (s.stage h).cells)
  let w := if full then all else s.weirXoff p &&& all
  if s.fcMode p = 1 && w ≠ 0 then 0xFF else w

def State.sendPause (s : State) (p mask quanta : Nat) : State :=
  let s := if quanta = 0 then s else s.stamp (Tm.pause p)
  (s.emit (.pause p mask quanta)).count (portCnt p C.ETH_TX_PAUSE)

/-- Pause time of a number of quanta at a port's rate, in ns (R117). -/
def State.pauseTime (s : State) (p quanta : Nat) : Nat := (quanta * 512 + s.portRate p - 1) / max 1 (s.portRate p)

/-- The port sends what the change of the condition asks for (R118). -/
def State.updatePause (s : State) (p : Nat) : State :=
  if !s.portUp p || s.fcMode p = 0 then s
  else
    let old := tget (fun _ => 0) s.eth.xoffSent p
    let new := s.xoffWanted p
    if old = new then s
    else
      let s := { s with eth := { s.eth with xoffSent := tput (fun _ => 0) s.eth.xoffSent p new } }
      let rise := new - (new &&& old)
      let fall := old - (old &&& new)
      let s := if rise ≠ 0 then s.sendPause p rise 0xFFFF else s
      if fall ≠ 0 then s.sendPause p fall 0 else s

/-- The pair's state after its counts have changed; an Ethernet port sends what R118 asks for. -/
def State.pairUpdate (s : State) (h p : Nat) (fromHdrm : Bool) : State :=
  let x := s.pairSt p
  let (xoff, xon, _) := s.pairLimits p
  let new := if 4 * xoff ≤ x.u || fromHdrm then true
    else if x.u ≤ 4 * xon && x.hdrm = 0 then false else x.xoff
  let s := if new && !x.xoff then s.count (B.HDR h + C.HDR_XOFF_EVENTS) else s
  let s := s.setPair p { x with xoff := new }
  if p < 1024 && new != x.xoff then s.updatePause (p / 8) else s

def State.freeSegs (s : State) (h pool n : Nat) (pair : Option Nat) : State :=
  let s := s.setPool (h / 4) pool (s.poolUsed (h / 4) pool - n)
  match pair with
  | none => s
  | some p =>
    let x := s.pairSt p
    let s := s.setPair p { x with u := x.u - n, hdrm := x.hdrm - (if pool = 2 then n else 0) }
    s.pairUpdate h p false

def spilledBytes (x : Voq) : Nat := 64 * ((x.pkts.filter (·.spilled)).map (·.segs)).sum

/-- Pages of the reservoir queues in use. -/
def State.spillPages (s : State) : Nat := (s.weir.voqs.map fun e => (spilledBytes e.2 + 4095) / 4096).sum

/-! ### Destinations (R159, R221) -/

/-- The tailrace of an Ethernet port for a flow hash. -/
def State.portTail (s : State) (p hash : Nat) : Nat :=
  lanePipe p + bit (s.straddles p && bitOf (s.pair (B.ETH (portLG p) + 0x48)) (hash % 64))

/-- The receive queue that QSEL names (R292): entry FLOW_HASH[6:0] of the queue table for 0xFF. -/
def State.rxQueue (s : State) (p qsel hash : Nat) : Nat :=
  if qsel = 0xFF then
    let i := hash % 128
    bitsOf (s.reg (B.PLOT p + R.PLOT_QTABLE_QP.off + i / 4 * 4)).toNat (8 * (i % 4) + 7) (8 * (i % 4)) % 64
  else qsel

/-- The ring of queue q of a plot; a QSEL that names none of the 64 queues names a ring that is never live. -/
def plotRing (p q : Nat) : Nat := if q < 64 then qpKey p q else 2 ^ 19 + p

/-- A live network plot. -/
def State.plotLive (s : State) (p : Nat) : Bool :=
  p < 512 && s.flag (B.PLOT p) R.PLOT_CFG_EN && !s.isStorage p && (s.fnOfPlot p).isSome

/-- The tailrace of a packet for a plot. -/
def State.plotTail (s : State) (p q : Nat) : Nat :=
  let x := s.qp (plotRing p q)
  if s.mode = .trickle then 0
  else if x.live then x.bind else ((s.fnOfPlot p).map fun f => (s.linkTails f.1).headD 0).getD 0

/-- The tailrace of one destination: KIND, TARGET, QSEL; none where nothing is there (R159 item 2). -/
def State.tailOf (s : State) (kind target qsel hash : Nat) : Option Nat :=
  match kind with
  | 0 => if target < 96 && s.portOn target then some (if s.mode = .trickle then 0 else s.portTail target hash) else none
  | 1 => if s.plotLive target then some (s.plotTail target (s.rxQueue target qsel hash)) else none
  | 2 => if target < 256 && (s.qp (coreRingKey target)).live then some (s.qp (coreRingKey target)).bind else none
  | _ => none

def State.memberEnt (s : State) (i : Nat) : Nat := tget (fun _ => 0) s.weir.members i

def Mem.valid (e : Nat) : Bool := bitOf e 31

def Mem.prune (e : Nat) : Bool := bitOf e 30

def Mem.kind (e : Nat) : Nat := bitsOf e 29 28

def Mem.target (e : Nat) : Nat := bitsOf e 27 16

def Mem.qsel (e : Nat) : Nat := bitsOf e 15 8

def Mem.edit (e : Nat) : Nat := bitsOf e 7 0

def State.membersOf (s : State) (base count : Nat) : List Nat := (List.range' base count).map s.memberEnt

/-- A member names where the packet came from. -/
def fromMember (k : Pkt) (e : Nat) : Bool :=
  match k.org with
  | .eth p => Mem.kind e = 0 && Mem.target e = p
  | .plot p _ _ => Mem.kind e = 1 && Mem.target e = p
  | .core _ | .survey => false

/-- The members that get a copy of a packet. -/
def State.copiesOf (s : State) (k : Pkt) (base count : Nat) : List Nat :=
  (s.membersOf base count).filter fun e => Mem.valid e && !(Mem.prune e && fromMember k e)

/-- The tailrace of a member for a packet. -/
def State.memberTail (s : State) (hash e : Nat) : Option Nat := s.tailOf (Mem.kind e) (Mem.target e) (Mem.qsel e) hash

/-- A copy for a destination as it is enqueued: a port that is down cuts it off at once (R159, R221, R227). -/
def State.copy (s : State) (dest edit : Nat) : Copy :=
  { dest := dest, edit := edit, gen := if bitsOf dest 31 30 = 1 then s.plotGen (bitsOf dest 11 0) else 0,
    cut := bitsOf dest 31 30 = 0 && !s.portUp (bitsOf dest 11 0) }

/-- The copies of a group's packet in tailrace t: one for each member that it serves. -/
def State.groupCopies (s : State) (k : Pkt) (carry t base count : Nat) : List Copy :=
  ((s.copiesOf k base count).filter fun e => s.memberTail (Carry.flowHash carry) e = some t).map fun e =>
    s.copy (Mem.kind e * 2 ^ 30 + Carry.cls carry * 2 ^ 27 + Mem.qsel e * 2 ^ 12 + Mem.target e)
      (if Mem.edit e = 0 then Carry.edit carry else Mem.edit e)

/-- A port has gone down: no copy for it that waits or crosses is delivered any more (R227). -/
def State.cutPort (s : State) (p : Nat) : State :=
  let mine := fun (dest : Nat) => bitsOf dest 31 30 = 0 && bitsOf dest 11 0 = p
  let s := s.onWeir fun w => { w with voqs := w.voqs.map fun e => (e.1, { e.2 with pkts := e.2.pkts.map fun y =>
    { y with copies := y.copies.map fun c => if mine c.dest then { c with cut := true } else c } }) }
  (List.range' 16 16).foldl (fun s k =>
    s.setToks k ((s.pipe k).toks.map fun x => if mine x.dest then { x with cut := true } else x)) s

/-- Slot, class queue's plot and class of a destination in tailrace t. -/
def State.slotOf (s : State) (t dest : Nat) : Option (Nat × Nat) :=
  let kind := bitsOf dest 31 30
  let tg := bitsOf dest 11 0
  match kind with
  | 0 => ((List.range 8).find? fun k => s.flag (B.TLR t + 0x100 * k) R.TLR_SLOT_CFG_EN
      && s.rd (B.TLR t + 0x100 * k) R.TLR_SLOT_CFG_PORT = tg).map fun k => (k, 0)
  | 1 => (s.fnOfPlot tg).map fun f => (8, 128 * (f.1 % 2) + f.2)
  | 2 => some (9, 0)
  | _ => none

/-- Where a packet for such a destination is counted. -/
def State.downCnt (s : State) (dest : Nat) : Nat :=
  match bitsOf dest 31 30, s.fnOfPlot (bitsOf dest 11 0) with
  | 1, some (m, _) => B.HPTC m + C.HPT_SLOT8_FLUSHED
  | _, _ => flushCnt (bitsOf dest 11 0)

/-- The data of a group's packet is still on die for another VOQ; ids are shared by the copies of one packet alone. -/
def State.sharedData (s : State) (v : Nat) (p : VPkt) : Bool :=
  p.group.isSome && s.weir.voqs.any fun e => e.1 ≠ v && e.2.pkts.any fun y => y.id = p.id && !y.spilled

/-- A packet that has crossed whole, or moved out, frees its segments, a group's packet with its last copy (R18, R214, R221). -/
def State.crossedOut (s : State) (v : Nat) (p : VPkt) : State :=
  if s.sharedData v p then s
  else s.freeSegs (voqH v) p.pool p.segs p.pair

/-! ### Fills (R219, R233) -/

/-- Cells queued in a class queue (a plot's subqueue in slot 8), and in the tailrace's store: packets in its gates
included. -/
def State.queueFill (s : State) (t slot plot cls : Nat) : Nat :=
  let x := s.egress t
  let inQ := ((x.q ++ x.deliver).filter fun p => p.slot = slot && p.cls = cls && (slot ≠ 8 || p.plot = plot)).map (·.cells)
  let inG := ((s.pipe (16 + t)).toks.filter fun k => s.slotOf t k.dest = some (slot, plot) && Carry.cls k.carry = cls).map
    fun k => egressCells (k.pkt.data.length + 4)
  inQ.sum + inG.sum

def State.storeFill (s : State) (t : Nat) : Nat :=
  let x := s.egress t
  ((x.q ++ x.deliver).map (·.cells)).sum + ((x.leaving.filter fun e => decide (s.now < e.2.1)).map (·.2.2)).sum
    + ((s.pipe (16 + t)).toks.map fun k => egressCells (k.pkt.data.length + 4)).sum

/-- Packets in the launch store. -/
def State.launchFill (s : State) (t : Nat) : Nat := ((s.egress t).q.filter fun p => p.launch.isSome).length

/-- A packet with a launch time that the launch store will take: only packets for a port are (R244). -/
def timedFor (k : Pkt) (dest : Nat) : Bool := k.launch.isSome && bitsOf dest 31 30 == 0

/-- Places of the launch store taken, or promised to packets in the gates (R233). -/
def State.launchTaken (s : State) (t : Nat) : Nat :=
  s.launchFill t + ((s.pipe (16 + t)).toks.filter fun k => timedFor k.pkt k.dest).length

def classKey (k c : Nat) : Nat := 16 * k + c

/-- Deficits end with their queue (R236). -/
def EgrSt.tidy (x : EgrSt) : EgrSt :=
  { x with deficit := tdrop (fun k => !(x.q.any fun p => p.launch.isNone &&
      (if 4096 ≤ k then p.slot = 8 && 8 * p.plot + p.cls = k - 4096 else 16 * p.slot + p.cls = k))) x.deficit }

/-- Classes that move between the strict set and the weighted group start with no deficit (R236). -/
def State.restrict (s : State) (t k old new : Nat) : State :=
  let x := s.egress t
  s.setEgress t { x with deficit := tdrop (fun i => i / 16 = k && i < 4096 && bitOf old (i % 16) != bitOf new (i % 16)) x.deficit }

/-- Fill of a class queue in cells, launch-store packets of the class included (Table 10.7). -/
def State.classFill (s : State) (t k c : Nat) : Nat :=
  (((s.egress t).q.filter fun p => p.slot = k && p.cls = c).map (·.cells)).sum

/-- A slot's status as a read shows it (Table 10.7). -/
def State.slotStatus (s : State) (t k : Nat) : Nat :=
  let x := s.egress t
  let mask := fun (f : Nat → Bool) => ((List.range 8).map fun c => bit (f c) * 2 ^ c).sum
  s.rd (B.TLR t + 0x100 * k) R.TLR_SLOT_STATUS_PAUSED * 2 ^ 16
    + mask (fun c => decide (tget (fun _ => 0) x.credit (classKey k c) < (0 : Int))) * 2 ^ 8
    + mask (fun c => x.q.any fun p => p.slot = k && p.cls = c)

/-! ### Keys of the table and microcode memories -/

def State.onTbl (s : State) (f : TblSt → TblSt) : State := { s with tbl := f s.tbl }

def Seed.valid (e : Nat) : Bool := bitOf e 191

def Seed.retired (e : Nat) : Bool := bitOf e 185

def Seed.mk (static_ hit : Bool) (home key data : Nat) : Nat :=
  2 ^ 191 + bit static_ * 2 ^ 190 + bit hit * 2 ^ 189 + home % 4 * 2 ^ 186 + key % 2 ^ 96 * 2 ^ 64 + data % 2 ^ 64

/-- Indices that commands and learning may use (R177). -/
def seedUsable : Nat := 130048

def seedKey (q i : Nat) : Nat := q * 2 ^ 17 + i

/-- A copy that takes updates: its block is on and loaded (R188, R193). -/
def State.copyOn (s : State) (q : Nat) : Bool := s.domOn (domQuad q) && !s.tbl.loading.contains q

def sieveKey (q a : Nat) : Nat := q * 2 ^ 17 + a

def Sieve.valid (u : Nat) : Bool := bitOf u 192

def Sieve.retired (u : Nat) : Bool := bitOf u 193

/-- Entries of a copy that satisfy `p`. -/
def State.seedCount (s : State) (q : Nat) (p : Nat → Bool) : Nat :=
  (s.tbl.seed.filter fun e => e.1 / 2 ^ 17 = q && p e.2).length

/-- Units per entry of a bank. -/
def State.bankWidth (s : State) (q b : Nat) : Nat :=
  2 ^ (bitsOf (s.reg (B.SIEV q + R.SIEV_BANK_CFG_WIDTH.off)).toNat (2 * b + 1) (2 * b) % 3)

/-- Retired units of a Sieve copy. -/
def State.sieveRetired (s : State) (q : Nat) : Nat :=
  (s.tbl.sieve.filter fun e => e.1 / 2 ^ 17 = q && Sieve.retired e.2).length

/-- Copy 4 is the master image. -/
def sieveMaster : Nat := 4

/-- A bank of a Sieve copy holds a valid entry. -/
def State.bankHeld (s : State) (q b : Nat) : Bool :=
  s.tbl.sieve.any fun e => e.1 / 2 ^ 17 = q && e.1 % 2 ^ 17 / 6144 = b && Sieve.valid e.2

/-- Bank b of copy q belongs to a profile other than p, whose banks all have its width (R179). -/
def State.bankOwned (s : State) (q b p : Nat) : Bool :=
  (List.range 16).any fun r => r ≠ p && bitOf (s.rd (B.SIEV q + 4 * r) R.SIEV_PROF_BANKS) b

/-- SIEV_BANK_CFG after a write: banks with valid entries, and banks of a profile, keep their width (R179, R181). -/
def State.bankCfgAfter (s : State) (q old new : Nat) : Nat :=
  (List.range 16).foldl (fun v b =>
    if s.bankHeld q b || s.bankOwned q b 16 then setBits v (2 * b + 1) (2 * b) (bitsOf old (2 * b + 1) (2 * b)) else v) new

/-- A profile p of a copy keeps R179 with a new register value: its banks have its width, and no bank belongs to two
enabled profiles. -/
def State.profileOk (s : State) (q p v : Nat) : Bool :=
  let bank := fun b => bitsOf (s.reg (B.SIEV q + R.SIEV_BANK_CFG_WIDTH.off)).toNat (2 * b + 1) (2 * b)
  ((List.range 16).all fun b => !bitOf v b || bank b = bitsOf v 29 28)
    && (!bitOf v 31 || (List.range 16).all fun r =>
      r = p || !s.flag (B.SIEV q + 4 * r) R.SIEV_PROF_EN || s.rd (B.SIEV q + 4 * r) R.SIEV_PROF_BANKS &&& v % 65536 == 0)

/-! ### The schedule of the sweepers (R199) -/

/-- The entry that the sweeper of a copy visits next, and the local count at which that is due, in units of 1 ns / 131,072. -/
def State.sweepOf (s : State) (q : Nat) : Nat × Nat := tget (fun _ => (0, 0)) s.tbl.sweep q
def State.setSweep (s : State) (q : Nat) (x : Nat × Nat) : State :=
  s.onTbl fun t => { t with sweep := tput (fun _ => (0, 0)) t.sweep q x }

/-- AGE_PERIOD of a copy in ns: the visits lie AGE_PERIOD / 131,072 apart. -/
def State.agePeriod (s : State) (q : Nat) : Nat := ms 1000 * s.rd (B.SEED q) R.SEED_CFG_AGE_PERIOD

/-- The sweeper of copy q runs: AGE_PERIOD 0 stops it, and Trickle that of quadrant 0 (R199). -/
def State.sweeps (s : State) (q : Nat) : Bool :=
  s.copyOn q && s.agePeriod q ≠ 0 && !(s.mode = .trickle && q = 0)

/-- How late the sweeper's next visit is, in ns (R435). -/
def State.sweepLate (s : State) (q : Nat) : Nat := s.now - (s.sweepOf q).2 / 131072

/-- The sweeper goes on from the entry at which it stands, on schedule from now (DESIGN CHOICE, assumption 87). -/
def State.restartSweep (s : State) (q : Nat) : State := s.setSweep q ((s.sweepOf q).1, s.now * 131072)

def raStack (ra : Nat) : Nat :=
  if ra < 60 * 2 ^ 30 then 1 + ra / 4096 % 3 else 2 + (ra - 60 * 2 ^ 30) / 4096 % 2

def wordKey (k bank gate word : Nat) : Nat := ((k * 2 + bank) * 16 + gate) * 8192 + word

def vendorGate (k g : Nat) : Bool := if k < 16 then g < 4 || 10 ≤ g else g = 0 || g = 5

/-- Pipeline, gate and word of a write's place (Config.mcImage). -/
def placePipe (a : Nat) : Nat := a / 8192 / 16

def placeGate (a : Nat) : Nat := a / 8192 % 16

/-- What an entry takes from a write: reserved bits 0, and fields with listed encodings keep their value where the new
one is not listed (R11, R131). -/
def graphTakes (mem old new : Nat) : Nat :=
  match mem with
  | 0 =>
    let n := new - new % 2 ^ 9
    let n := if bitsOf n 118 117 = 3 then setBits n 118 117 (bitsOf old 118 117) else n
    let n := if bitsOf n 116 109 = 0 then setBits n 116 109 (bitsOf old 116 109) else n
    let n := if bitsOf n 31 30 = 3 then setBits n 31 30 (bitsOf old 31 30) else n
    if 4 < bitsOf n 11 9 then setBits n 11 9 (bitsOf old 11 9) else n
  | 1 =>
    let n := new - new % 2 ^ 54
    if bitsOf n 55 54 = 3 then setBits n 55 54 (bitsOf old 55 54) else n
  | _ =>
    let n := setBits (setBits (new % 2 ^ 32) 30 24 0) 5 0 0
    if 47 < bitsOf n 11 6 then setBits n 11 6 (bitsOf old 11 6) else n

/-- Key of a plot-steering entry (Table 8.3, kind 4). -/
def steerKey (mac vlan : Nat) : Nat := 4 * 2 ^ 90 + vlan * 2 ^ 48 + mac

/-- A tenant's message is shown to the manager. -/
def State.msgArrives (s : State) (p : Nat) : State :=
  match s.fnOfPlot p with
  | none => s
  | some (m, f) =>
    let l := 128 * (m % 2) + f
    let a := B.MGR m + R.PLOT_MGR_MSGPEND_PEND.off + 4 * (l / 32)
    let s := s.wrW a (setBits (s.reg a).toNat (l % 32) (l % 32) 1)
    if s.flag (B.MGR m) R.PLOT_MGR_CTRL_MSG_IRQ_EN then s.interrupt m 0 (s.rd (B.MGR m) R.PLOT_MGR_CTRL_MSG_VEC) else s

/-- MAC address and VLAN of a plot. -/
def State.plotMac (s : State) (p : Nat) : Nat := s.rd (B.PLOT p) R.PLOT_MAC_LO_MAC + 2 ^ 32 * s.rd (B.PLOT p) R.PLOT_MAC_HI_MAC

def State.plotVlan (s : State) (p : Nat) : Nat := s.rd (B.PLOT p) R.PLOT_MAC_HI_VLAN

/-- The designated uplinks (DEV_TRICKLE_UPLINK), lower port first. -/
def State.uplinks (s : State) : List Nat :=
  let b := B.DEV
  let l := (if s.flag b R.DEV_TRICKLE_VALID0 then [s.rd b R.DEV_TRICKLE_UPLINK0] else [])
    ++ (if s.flag b R.DEV_TRICKLE_VALID1 then [s.rd b R.DEV_TRICKLE_UPLINK1] else [])
  match l with
  | [a, b] => if b < a then [b, a] else [a, b]
  | l => l

end Sys2Proof.Machine
end

