-- ==== Sys2Proof/Machine/Hashes.lean ====
section
/-! DEFINITION. Checksums, and the Reservoir hash tables: slots, buckets and inserts (R134, R182 to R185). -/
namespace Sys2Proof.Machine

/-! ### Checksums -/

def crcBit (poly : Nat) (c : Nat) : Nat := if c % 2 = 1 then (c / 2) ^^^ poly else c / 2

def crcByte (poly : Nat) (c : Nat) (b : Byte) : Nat :=
  (List.range 8).foldl (fun c _ => crcBit poly c) (c ^^^ b.toNat)

/-- A reflected CRC over bytes from a starting register, with no final complement. -/
def crcRaw (poly start : Nat) (l : List Byte) : Nat := l.foldl (crcByte poly) start

/-- CRC-32C (R134): register all ones at the start, complemented at the end. -/
def crc32c (l : List Byte) : Nat := crcRaw 0x82F63B78 0xFFFFFFFF l ^^^ 0xFFFFFFFF

/-! ### Slots and buckets (R182, R183) -/

def htBase (t : Nat) : Nat := B.RSV 1 + 0x10 * t
def htCnt (t c : Nat) : Nat := B.RSV 1 + 0x1800 + 0x40 * t + c
def State.htEn (s : State) (t : Nat) : Bool := s.flag (htBase t) R.RSV_HT_CFG_EN && [66, 67, 68].all s.domOn
def State.htK (s : State) (t : Nat) : Nat := s.rd (htBase t) R.RSV_HT_CFG_K
def State.htLog (s : State) (t : Nat) : Nat := s.rd (htBase t) R.RSV_HT_CFG_LOG2

def slotKey (t i : Nat) : Nat := t * 2 ^ 28 + i
def State.slot (s : State) (t i : Nat) : Nat := tget (fun _ => 0) s.tbl.slots (slotKey t i)
def State.setSlot (s : State) (t i v : Nat) : State :=
  s.onTbl fun x => { x with slots := tput (fun _ => 0) x.slots (slotKey t i) v }

def Slot.word (v i : Nat) : Nat := bitsOf v (64 * i + 63) (64 * i)
def Slot.valid (v : Nat) : Bool := bitOf v 511
def Slot.static_ (v : Nat) : Bool := bitOf v 510
def Slot.last (v : Nat) : Nat := bitsOf v 491 448
/-- The time word's bits [63:20], as LAST holds them. -/
def State.lastNow (s : State) : Nat := s.timeWord / 2 ^ 20
def Slot.setLast (v last : Nat) : Nat := setBits v 491 448 last
def Slot.mk (words : Nat) (static_ : Bool) (last : Nat) : Nat :=
  words % 2 ^ 448 + last % 2 ^ 44 * 2 ^ 448 + bit static_ * 2 ^ 510 + 2 ^ 511

/-- Buckets h1 and h2 of a key (R183). -/
def State.buckets (s : State) (t key : Nat) : Nat × Nat :=
  let n := 2 ^ (s.htLog t - 1)
  let bs := leBytes (8 * s.htK t) key
  let seed := s.rd (htBase t) R.RSV_HT_SEED_SEED
  let h1 := (crcRaw 0x82F63B78 seed bs ^^^ 0xFFFFFFFF) % n
  let h2 := (crcRaw 0x82F63B78 (seed ^^^ 0xFFFFFFFF) bs ^^^ 0xFFFFFFFF) % n
  (h1, if h2 = h1 then h1 ^^^ 1 else h2)

def State.keyOf (s : State) (t v : Nat) : Nat := v % 2 ^ (64 * s.htK t)

def State.inBucket (s : State) (t b key : Nat) : Option Nat :=
  [2 * b, 2 * b + 1].find? fun i => Slot.valid (s.slot t i) && s.keyOf t (s.slot t i) = key

/-- The slot that holds a key: bucket h1, and only on a miss there h2. -/
def State.slotFind (s : State) (t key : Nat) : Option Nat :=
  let (h1, h2) := s.buckets t key
  match s.inBucket t h1 key with
  | some i => some i
  | none => s.inBucket t h2 key

/-- Byte address of a slot in the Reservoir's three-way part, and the stack it lies in (Table 16.1). -/
def State.slotRA (s : State) (t i : Nat) : Nat := s.rd (htBase t) R.RSV_HT_CFG_BASE * 2 ^ 20 + i * 64
def raStackAddr (ra : Nat) : Nat :=
  if ra < 60 * 2 ^ 30 then (if raStack ra = 1 then 4 * 2 ^ 30 else 0) + ra / 4096 / 3 * 4096 + ra % 4096
  else 20 * 2 ^ 30 + (ra - 60 * 2 ^ 30) / 4096 / 2 * 4096 + ra % 4096

/-! ### Poisoned blocks (R391, Table 16.3) -/

def poisonKey (k a : Nat) : Nat := k * 2 ^ 35 + a / 64 * 64
def State.isPoisoned (s : State) (k a : Nat) : Bool := s.rsv.poisoned.contains (poisonKey k a)

/-- A 64-byte block of a Reservoir range is poisoned. -/
def State.raPoisoned (s : State) (addr len : Nat) : Bool :=
  (List.range' (addr / 64) ((addr + len + 63) / 64 - addr / 64)).any fun g => s.isPoisoned (raStack (64 * g)) (raStackAddr (64 * g))

/-- A range of Reservoir addresses is written: its blocks have good contents again (R391). -/
def State.raHeal (s : State) (addr len : Nat) : State :=
  let ks := (List.range' (addr / 64) ((addr + len + 63) / 64 - addr / 64)).map fun g => poisonKey (raStack (64 * g)) (raStackAddr (64 * g))
  { s with rsv := { s.rsv with poisoned := s.rsv.poisoned.filter fun k => !ks.contains k } }

/-- The Reservoir address of a byte that the cores reach as Hopper pool space or core memory (Table 1.2). -/
def coreRA (key : Nat) : Option Nat :=
  if B.CMEM ≤ key && key < B.CMEM + 2 ^ 36 then some (Config.region 2 + (key - B.CMEM))
  else if B.POOLM ≤ key && key < B.POOLM + 2 ^ 36 then some (Config.region 1 + (key - B.POOLM))
  else none

/-- A byte of the range behind a core's memory is poisoned. -/
def State.corePoisoned (s : State) (key len : Nat) : Bool := (coreRA key).any fun ra => s.raPoisoned ra len

/-- Bytes are written behind a core's memory. -/
def State.putCore (s : State) (key : Nat) (l : List Byte) : State :=
  let s := match coreRA key with
    | some ra => s.raHeal ra l.length
    | none => s
  { s with mem := putBytes s.mem key l }

/-- The idle sweep of table t runs, and its period: max(IDLE/2, 1 s) (R186). -/
def State.idleMs (s : State) (t : Nat) : Nat := s.rd (htBase t) R.RSV_HT_IDLE_IDLE
def State.idleSwept (s : State) (t : Nat) : Bool := s.htEn t && s.idleMs t ≠ 0
def State.idlePeriod (s : State) (t : Nat) : Nat := max (ms (s.idleMs t) / 2) (ms 1000)

/-! ### Inserts (R184, R206) -/

/-- The free slot of a bucket. -/
def State.freeSlot (s : State) (t b : Nat) : Option Nat := [2 * b, 2 * b + 1].find? fun i => !Slot.valid (s.slot t i)

/-- The other bucket of the entry in a slot. -/
def State.otherBucket (s : State) (t i : Nat) : Nat :=
  let (h1, h2) := s.buckets t (s.keyOf t (s.slot t i))
  if i / 2 = h1 then h2 else h1

/-- A path of moves from a full bucket to a free slot, of at most `n` moves (R184): the slots to move, first to last,
and the free slot. Which entry of a bucket moves is a free choice. -/
def State.movePath (s : State) (t : Nat) : Nat → Nat → List Nat → Option (List Nat × Nat) × State
  | 0, _, _ => (none, s)
  | n + 1, b, path =>
    let (f, s') := s.draw
    let i := 2 * b + f % 2
    let o := s.otherBucket t i
    match s.freeSlot t o with
    | some j => (some (path ++ [i], j), s')
    | none => if path.contains i then (none, s') else s'.movePath t n o (path ++ [i])

/-- The moves, made from the end of the path, so that every entry is found at every instant; answers the slot freed. -/
def State.doMoves (s : State) (t : Nat) : List Nat → Nat → Nat × State
  | [], free => (free, s)
  | i :: is, free => ((s.setSlot t free (s.slot t i)).setSlot t i 0).doMoves t is i

/-- An insert (R184): slot and moves, or none where no free slot is reached. -/
def State.htInsert (s : State) (t key v : Nat) : Option (Nat × Nat) × State :=
  let (h1, h2) := s.buckets t key
  match s.freeSlot t h1, s.freeSlot t h2 with
  | some i, _ | none, some i => (some (i, 0), s.setSlot t i v)
  | none, none =>
    match s.movePath t 16 h1 [] with
    | (none, s) => (none, s)
    | (some (path, free), s) =>
      let (i, s) := s.doMoves t path.reverse free
      (some (i, path.length), s.setSlot t i v)

/-- One Reservoir record: status, slot, moves. -/
def State.rsvRecord (s : State) (t flags words : Nat) : Nat × Nat × Nat × State :=
  let key := words % 2 ^ (64 * s.htK t)
  if 8 ≤ t || !s.htEn t then (St.BAD_ARGUMENT, 0, 0, s)
  else
    let v := Slot.mk words (bitOf flags 0) s.lastNow
    match s.slotFind t key with
    | some i => if bitOf flags 1 then (St.DONE, i, 0, s.setSlot t i v) else (St.BAD_ARGUMENT, 0, 0, s)
    | none =>
      match s.htInsert t key v with
      | (none, s) => (St.TABLE_FULL, 0, 0, s)
      | (some (i, n), s) => (St.DONE, i, n, s)

/-- Bytes of core memory: none where the image asks for more than its limit of 16 GiB, which the Lockkeeper refuses to place
(R20). -/
def State.coreMemLen (s : State) : Nat := if s.image.coreMem ≤ 2 ^ 34 then s.image.coreMem else 0

end Sys2Proof.Machine
end

