-- ==== Sys2Proof/Machine/Microcode.lean ====
section
/-! DEFINITION. Microcode words, the checks of a customer image, and the banks that an image fills (R150, R163, R166,
Tables 7.2 to 7.9). -/
namespace Sys2Proof.Machine

def W.safe (w : Nat) : Bool := bitOf w 189

def W.last (w : Nat) : Bool := bitOf w 188

def W.op (w : Nat) : Nat := bitsOf w 187 182

def W.psel (w : Nat) : Nat := bitsOf w 181 178

def W.pneg (w : Nat) : Bool := bitOf w 177

def W.dOff (w : Nat) : Nat := bitsOf w 176 166

/-- Width of D in bits. -/
def W.dWid (w : Nat) : Nat := bitsOf w 165 160 + 1

def W.aOff (w : Nat) : Nat := bitsOf w 159 149

def W.aWid (w : Nat) : Nat := bitsOf w 148 143 + 1

def W.bOff (w : Nat) : Nat := bitsOf w 142 132

def W.bWid (w : Nat) : Nat := bitsOf w 131 126 + 1

def W.bImm (w : Nat) : Bool := bitOf w 125

def W.target (w : Nat) : Nat := bitsOf w 124 112

def W.pdst (w : Nat) : Nat := bitsOf w 111 108

def W.lt (w : Nat) : Nat := bitsOf w 107 104

def W.due (w : Nat) : Nat := bitsOf w 103 100

def W.sub (w : Nat) : Nat := bitsOf w 99 96

def W.imm (w : Nat) : Nat := bitsOf w 63 0

/-- An operand that R149 allows: in the carry or in the local registers. -/
def operandOk (off wid : Nat) : Bool := decide (off + wid ≤ 1024) || (decide (1024 ≤ off) && decide (off + wid ≤ 1536))

def opListed (op : Nat) : Bool := decide (op ≤ 0x0D) || (0x10 ≤ op && op ≤ 0x12) || (0x18 ≤ op && op ≤ 0x1C)

/-- Operations that write D from a result of their own. -/
def writesD (op : Nat) : Bool := (1 ≤ op && op ≤ 8) || op = 0x11 || op = 0x12

def readsA (op : Nat) : Bool := (2 ≤ op && op ≤ 0x0D) || op = 0x11 || op = 0x12 || op = 0x1A || op = 0x1B

def readsB (op : Nat) : Bool := (1 ≤ op && op ≤ 0x0D) || op = 0x11 || op = 0x19 || op = 0x1A || op = 0x1B

/-- OP, LT and SUB are listed and allowed for the pipeline (R151, R155). -/
def targetOk (tail : Bool) (w : Nat) : Bool :=
  opListed (W.op w) &&
  (if W.op w = 0x18 then W.lt w ≤ 2 && (W.lt w ≠ 2 || (!tail && W.sub w ≤ 7))
   else if W.op w = 0x19 then !tail && W.lt w = 2 && W.sub w ≤ 7
   else if W.op w = 0x1C then !tail
   else true)

/-- The minimum settle class of an operation (Table 7.2). -/
def minClass (w : Nat) : Nat :=
  match W.op w with
  | 0x07 | 0x08 | 0x1A => 1
  | 0x11 | 0x1C => 2
  | 0x12 => if W.dWid w ≤ 32 then 1 else 2
  | 0x18 => if W.lt w = 2 then 3 else 1
  | 0x19 => 3
  | _ => 0

/-- Matched delay of a word in half base periods, by the higher of its SETTLE and its operation's minimum (Table 2.1, R151). -/
def W.halves (w : Nat) : Nat := [2, 3, 4, 6].getD (max (bitsOf w 191 190) (minClass w)) 6

/-- D of a Reservoir LOOKUP (Table 7.3). -/
def rsvD (w : Nat) : Nat × Nat := (W.dOff w / 64 * 64, 64 * (1 + bitsOf (W.imm w) 3 3))

/-- Every operand that the operation uses obeys R149, and D of a split-phase word lies in the carry (R152). -/
def operandsOk (w : Nat) : Bool :=
  let op := W.op w
  (!writesD op || operandOk (W.dOff w) (W.dWid w)) && (!readsA op || operandOk (W.aOff w) (W.aWid w))
    && (!readsB op || W.bImm w || operandOk (W.bOff w) (W.bWid w))
    && (op ≠ 0x12 || W.dWid w % 8 = 0)
    && (op ≠ 0x1A || W.dOff w + W.dWid w ≤ 1024)
    && (op ≠ 0x18 || (if W.lt w = 2 then (rsvD w).1 + (rsvD w).2 ≤ 1024
                      else W.dOff w + W.dWid w ≤ 1024 && (W.lt w ≠ 1 || W.dWid w = 64)))

/-- DUE names a later gate of the pipeline (R152). -/
def dueOk (tail : Bool) (gate w : Nat) : Bool :=
  (W.op w ≠ 0x18 && W.op w ≠ 0x1A) || (gate < W.due w && W.due w ≤ (if tail then 5 else 11))

/-- The word is executed (R151). -/
def wordOk (tail : Bool) (gate w : Nat) : Bool := targetOk tail w && operandsOk w && dueOk tail gate w

/-- The carry bytes that customer words may write (Table 7.5): EXTRACT 45 to 47, bytes 96 to 103, 105, 112 to 127. -/
def customerByte (b : Nat) : Bool := (93 ≤ b && b < 104) || b = 105 || (112 ≤ b && b < 128)

/-- The carry bytes that a word writes lie in the customer's part; a LOOKUP's HITS bit too. -/
def customerWrites (w : Nat) : Bool :=
  let op := W.op w
  let (o, n) := if op = 0x18 && W.lt w = 2 then rsvD w else (W.dOff w, W.dWid w)
  let d := !(writesD op || op = 0x18 || op = 0x1A) || 1024 ≤ o
    || (List.range' (o / 8) ((o + n - 1) / 8 + 1 - o / 8)).all customerByte
  d && (op ≠ 0x18 || 8 ≤ W.pdst w)

/-- Words of one gate that an image writes: word number and content. -/
def gateWords (ws : List (Nat × Nat × Nat)) (a : Nat) : List (Nat × Nat) :=
  (ws.filter fun e => e.1 = 0 && e.2.1 / 8192 = a / 8192).map fun e => (e.2.1 % 8192, e.2.2)

def written (l : List (Nat × Nat)) (n : Nat) : Bool := l.any (·.1 = n)

/-- Words that a word may be followed by; none after a LAST that is always enabled. -/
def successors (n w : Nat) : List Nat :=
  let always := W.psel w = 0 && !W.pneg w
  if W.last w && always then []
  else if W.op w = 0x10 && !(W.psel w = 0 && W.pneg w) then
    (if always then [W.target w] else [(n + 1) % 8192, W.target w])
  else [(n + 1) % 8192]

/-- From word n every path meets a safe word, where the lists name the written words from which it does within one word less each
time; a word of the partition that the image does not write is NOP (R168). -/
def meets (l : List (Nat × Nat)) : List (List Nat) → Nat → Bool
  | [], _ => false
  | w :: ws, n => if written l n then w.contains n else 0x800 ≤ n && meets l ws ((n + 1) % 8192)

/-- The written words from which every path meets SAFE or LAST within k words, counting that word, then within k - 1, and so on. -/
def safeLevels (l : List (Nat × Nat)) : Nat → List (List Nat)
  | 0 => []
  | k + 1 =>
    let prev := safeLevels l k
    ((l.filter fun e => W.safe e.2 || W.last e.2 || (successors e.1 e.2).all (meets l prev)).map (·.1)) :: prev

/-- The next written word from word n on, within 32 words. -/
def nextWritten (l : List (Nat × Nat)) : Nat → Nat → Option Nat
  | 0, _ => none
  | fuel + 1, n => if written l n then some n else nextWritten l fuel ((n + 1) % 8192)

/-- Written words that a path from the words `seen` reaches. -/
def reachable (l : List (Nat × Nat)) : Nat → List Nat → List Nat
  | 0, seen => seen
  | fuel + 1, seen =>
    reachable l fuel ((seen ++ (seen.flatMap fun n => ((l.find? (·.1 = n)).map fun e => successors n e.2).getD []).filterMap
      (nextWritten l 32)).eraseDups)

/-- ENTRY that an image gives a customer gate. -/
def entryOf (ws : List (Nat × Nat × Nat)) (k g : Nat) : Nat :=
  ((ws.find? fun e => e.1 = 1 && e.2.1 = 16 * k + g).map (·.2.2)).getD 0x7FF

/-- The graph entry, or the edit command or template word, at a place lies in the vendor part (R136, Table 6.5). -/
def vendorGraph (a : Nat) : Bool :=
  let i := a % 2 ^ 11
  match a / 2 ^ 11 % 4 with
  | 0 => i < 0x80
  | 1 => i < 1024
  | _ => i < 512
def vendorEdit (a : Nat) : Bool := if a / 2 ^ 13 % 2 = 0 then a % 2 ^ 13 < 2048 else a % 2 ^ 13 < 256

/-- A customer entry uses what Table 6.5 leaves to the vendor: a header type below 40, or a byte of the vendor's extract area. -/
def vendorUse (a v : Nat) : Bool :=
  match a / 2 ^ 11 % 4 with
  | 0 => bitsOf v 127 122 < 40
  | 2 => bitsOf v 11 6 < 45
  | _ => false

/-- The vendor nodes whose DEFAULT a customer image sets: those of Ethernet and its tags, IPv4, IPv6 and UDP (R136, Table 6.6). -/
def openDefault (node : Nat) : Bool := [0, 1, 2, 4, 5, 11].contains (bitsOf node 127 122)

/-- One write of an image fails a check of Table 7.9. `node` is the vendor node of a headrace whose DEFAULT the write sets. -/
def writeFails (ws : List (Nat × Nat × Nat)) (node : Nat → Nat) (check : Nat) (e : Nat × Nat × Nat) : Bool :=
  let (kind, a, v) := e
  let k := placePipe a
  let g := placeGate a
  let tail := decide (16 ≤ k)
  match check, kind with
  | 3, 0 => a % 8192 < 0x800 || vendorGate k g
  | 3, 1 => vendorGate (a / 16) (a % 16)
  | 3, 2 => vendorGraph a || vendorUse a v
  | 3, 3 => vendorEdit a
  | 3, 4 => 0x80 ≤ a % 256 || !openDefault (node a)
  | 4, 0 => !targetOk tail v
  | 5, 0 => !operandsOk v
  | 6, 0 => !customerWrites v
  | 7, 0 => W.op v = 0x10 && W.target v < 0x800
  | 7, 1 => v < 0x7FF || 0x2000 ≤ v
  | 8, 0 => !dueOk tail g v
  | 9, 0 =>
    let l := gateWords ws a
    (reachable l l.length (nextWritten l 32 (entryOf ws k g)).toList).contains (a % 8192)
      && !((safeLevels l 32).headD []).contains (a % 8192)
  | 9, 1 =>
    let l := gateWords ws (a * 8192)
    0x800 ≤ v && !meets l (safeLevels l 32) v
  | 10, 3 =>
    let op := v / 2 ^ 60
    a / 2 ^ 13 % 2 = 0 && (6 < op || ((op = 1 || op = 3) && 256 < bitsOf v 55 48 + bitsOf v 47 40))
  | 11, 2 =>
    if a / 2 ^ 11 % 4 = 0 then
      (bitsOf v 35 32 ≠ 0 && (bitsOf v 46 36 < 1024 || 2048 < bitsOf v 46 36 + bitsOf v 35 32))
        || (bitsOf v 11 9 ≠ 0 && (bitsOf v 21 12 < 512 || 1024 < bitsOf v 21 12 + bitsOf v 11 9))
    else false
  | 11, 4 => v < 0x80 || 0x100 ≤ v
  | _, _ => false

def State.entryWord (s : State) (k g bank : Nat) : Nat := s.rd (B.PIPE k + 8 * g + 4 * bank) R.G_ENTRY_ENTRY

/-- Words, graph, edit memory and ENTRY of one bank of a pipeline: the vendor part of another bank, and an image's
customer part. -/
def State.stageBank (s : State) (k src dst : Nat) (ws : List (Nat × Nat × Nat)) : State :=
  let inBank := fun key b => key / 8192 / 16 = 2 * k + b
  let words := s.micro.words.filter fun e => !inBank e.1 dst
  let vendor := s.micro.words.filter fun e => inBank e.1 src && e.1 % 8192 < 0x800
  let words := vendor.foldl (fun m e => tput (fun _ => 0) m (wordKey k dst (e.1 / 8192 % 16) (e.1 % 8192)) e.2) words
  let words := ws.foldl (fun m e => if e.1 = 0 && placePipe e.2.1 = k then
    tput (fun _ => 0) m (wordKey k dst (placeGate e.2.1) (e.2.1 % 8192)) e.2.2 else m) words
  let gOld := s.micro.graph.filter fun e => !(k < 16 && e.1 / 2 ^ 13 = 2 * k + dst)
  let gV := s.micro.graph.filter fun e => k < 16 && e.1 / 2 ^ 13 = 2 * k + src && vendorGraph (e.1 % 2 ^ 13)
  let graph := gV.foldl (fun m e => tput (fun _ => 0) m ((2 * k + dst) * 2 ^ 13 + e.1 % 2 ^ 13) e.2) gOld
  let graph := ws.foldl (fun m e => if e.1 = 2 && k < 16 && e.2.1 / 2 ^ 13 = k then
    tput (fun _ => 0) m ((2 * k + dst) * 2 ^ 13 + e.2.1 % 2 ^ 13) (graphTakes (e.2.1 / 2 ^ 11 % 4) 0 e.2.2) else m) graph
  let graph := ws.foldl (fun m e => if e.1 = 4 && k < 16 && e.2.1 / 256 = k then
    let a := (2 * k + dst) * 2 ^ 13 + e.2.1 % 256
    tput (fun _ => 0) m a (setBits (setBits (tget (fun _ => 0) m a) 31 30 2) 29 22 e.2.2) else m) graph
  let t := k - 16
  let eOld := s.micro.edit.filter fun e => !(16 ≤ k && e.1 / 2 ^ 14 = 2 * t + dst)
  let eV := s.micro.edit.filter fun e => 16 ≤ k && e.1 / 2 ^ 14 = 2 * t + src && vendorEdit (e.1 % 2 ^ 14)
  let edit := eV.foldl (fun m e => tput (fun _ => 0) m ((2 * t + dst) * 2 ^ 14 + e.1 % 2 ^ 14) e.2) eOld
  let edit := ws.foldl (fun m e => if e.1 = 3 && 16 ≤ k && e.2.1 / 2 ^ 14 = t then
    tput (fun _ => 0) m ((2 * t + dst) * 2 ^ 14 + e.2.1 % 2 ^ 14) e.2.2 else m) edit
  let within := fun lo n x => decide (lo ≤ x) && decide (x < lo + n)
  let rewritten := fun x => within (2 ^ 40 + wordKey k dst 0 0) (2 ^ 17) x || (k < 16 && within ((2 * k + dst) * 2 ^ 13) (2 ^ 13) x)
  let s := { s with micro := { words := words, graph := graph, edit := edit }, upsets := tdrop rewritten s.upsets }
  let s := (List.range (gatesOf k)).foldl (fun s g =>
    let v := if vendorGate k g then s.entryWord k g src
      else entryOf ws k g
    s.wr (B.PIPE k + 8 * g + 4 * dst) R.G_ENTRY_ENTRY v) s
  if k < 16 then s.setReg (B.HUSK k + 4 + 4 * dst) (s.reg (B.HUSK k + 4 + 4 * src)) else s

end Sys2Proof.Machine
end

