-- ==== Sys2Proof/Machine/Otp.lean ====
section
/-! DEFINITION. The life-cycle store, hybrid signatures, debug paths and measurements: what boot, Priming, the security
commands and the life-cycle lock share (R440, R441, R444, R446, Tables 19.3 to 19.5). -/
namespace Sys2Proof.Machine

def State.onSec (s : State) (f : SecSt → SecSt) : State := { s with sec := f s.sec }
def State.onOtp (s : State) (f : Otp → Otp) : State := s.onSec fun c => { c with otp := f c.otp }

/-! ### Signatures (R440) -/

/-- A signature part: the two public keys, then the two signatures (R448). -/
def sigBytes : Nat := 97 + 2592 + 96 + 4627

/-- Both signatures of an object verify under keys whose hashes are the expected ones. -/
def hybridOk (hashes obj sig : List Byte) : Bool :=
  let pub1 := sig.take 97
  let pub2 := (sig.drop 97).take 2592
  let d := Config.sha384 obj
  sig.length = sigBytes && Config.sha384 pub1 = hashes.take 48 && Config.sha384 pub2 = (hashes.drop 48).take 48
    && Config.p384 pub1 d ((sig.drop 2689).take 96) && Config.mldsa87 pub2 d (sig.drop 2785)

/-- Key hashes of a signer: 0 Onnos, 1 the owner (Table 19.1). -/
def State.signerHashes (s : State) (n : Nat) : List Byte := if n = 0 then Config.romHashes else s.sec.otp.owner

/-! ### Life-cycle states (Tables 19.3a and 19.3b) -/

def State.lcState (s : State) : Nat := s.rd B.SEC R.SEC_LC_STATE

/-- Signers of a permitted transition, Onnos first. -/
def lcSigners (old new : Nat) : Option (List Nat) :=
  if old = 0 && new = 1 then some [0]
  else if old = 1 && new = 2 then some [1]
  else if (old = 1 || old = 2) && new = 3 then some [0, 1]
  else if old < 4 && new = 4 then some [if old = 0 then 0 else 1]
  else none

/-- A path of Table 19.4 by its bit of SEC_DEBUG is open without a grant. -/
def pathOpen (state b : Nat) : Bool :=
  if b = 0 || b = 1 then state = 0 || state = 1 || state = 3 else b < 5 && state = 0

/-- Signer whose grant opens a path. -/
def pathSigner (state b : Nat) : Option Nat :=
  if b = 3 then (if state = 1 || state = 3 then some 0 else if state = 2 then some 1 else none)
  else if b = 2 || b = 4 then (if state = 3 then some 0 else none)
  else if b = 1 then (if state = 2 then some 1 else none)
  else none

/-- The paths now open. -/
def State.debugPaths (s : State) : Nat :=
  ((List.range 5).map fun b =>
    bit (pathOpen s.lcState b || (pathSigner s.lcState b).any fun g => s.sec.grants.contains (b, g)) * 2 ^ b).sum

def State.showDebug (s : State) : State := s.wrW (B.SEC + R.SEC_DEBUG_UNSIGNED.off) s.debugPaths

/-! ### Measurements (Table 19.5) -/

def State.measure (s : State) (i : Nat) (l : List Byte) : State :=
  s.onSec fun c => { c with meas := tput (fun _ => fit 48 []) c.meas i (Config.sha384 l) }

def State.measurement (s : State) (i : Nat) : List Byte := tget (fun _ => fit 48 []) s.sec.meas i

/-- Measurement 6: life-cycle state, SVN count, TORN. -/
def State.measureLc (s : State) : State :=
  s.measure 6 (Config.layout [s.lcState, s.sec.otp.svn, s.rd B.SEC R.SEC_LC_TORN])

/-- Measurements 4 and 5, at the Priming load; 5 again at the end of each bank flip. -/
def State.measureMicro (s : State) : State :=
  let flat := fun (t : Table Nat) => t.flatMap fun e => [e.1, e.2]
  s.measure 4 (Config.layout (flat s.micro.words ++ flat s.micro.graph))
def State.measureCustomer (s : State) : State :=
  s.measure 5 (Config.layout (s.mc.active :: s.mc.activeW.flatMap fun e => [e.1, e.2.1, e.2.2]))

/-! ### Programming (R444) -/

def State.otpRow (s : State) (k : Nat) : RowSt := tget (fun _ => RowSt.blank) s.sec.otp.rows k
def State.setOtpRow (s : State) (k : Nat) (r : RowSt) : State :=
  s.onOtp fun o => { o with rows := tput (fun _ => RowSt.blank) o.rows k r }

/-- Steps of a row that are behind it; from 1 to 4 the code that SEC_LC.PHASE shows. -/
def RowSt.rank : RowSt → Nat
  | .blank => 0 | .copyA => 1 | .copyB => 2 | .entry => 3 | .marker => 4 | .done => 5

def ones (l : List Byte) : List Byte := l.map fun _ => 0xFF

/-- A secret of n bytes drawn from the noise source, or programmed from outside: a free value. -/
def State.drawBytes (s : State) (n : Nat) : List Byte × State :=
  let (f, s) := s.draw
  (leBytes n f, s)

/-- Entry actions of a state (Table 19.3b). -/
def State.entryActions (s : State) (k : Nat) : State :=
  if k = 1 then
    let (secret, s) := s.drawBytes 32
    let (seed, s) := s.drawBytes 32
    let (owner, s) := s.drawBytes 96
    s.onOtp fun o => { o with secret := secret, seed := seed, owner := owner }
  else if k = 3 then s.onOtp fun o => { o with seed := ones o.seed, owner := ones o.owner }
  else if k = 4 then s.onOtp fun o => { o with secret := ones o.secret, seed := ones o.seed, owner := ones o.owner }
  else s

/-- The next step of row k. -/
def State.rowStep (s : State) (k : Nat) : State :=
  let go := fun (s : State) (r : RowSt) => (s.setOtpRow k r).wr B.SEC R.SEC_LC_PHASE r.rank
  match s.otpRow k with
  | .copyA => go s .copyB
  | .copyB => go s .entry
  | .entry => go (s.entryActions k) .marker
  | .marker =>
    let s := ((s.setOtpRow k .done).wr B.SEC R.SEC_LC_PHASE 0).wrB B.SEC R.SEC_LC_BUSY false
    (s.wrB B.SEC R.SEC_LC_CTRL_GO false).onSec fun c => { c with prog := none }
  | .blank | .done => s

/-- Row k goes on to a rank. -/
def State.rowTo (s : State) (k rank : Nat) : State :=
  (List.range 4).foldl (fun s _ => if (s.otpRow k).rank < rank then s.rowStep k else s) s

/-- Rank that a row has reached t after its start: 3 ms a copy, 1 ms the marker, d the entry actions. -/
def rankAt (t d : Nat) : Nat :=
  if t < ms 3 then 1 else if t < ms 6 then 2 else if t < ms 6 + d then 3 else if t < ms 7 + d then 4 else 5

/-- OTP programming goes on with the local count. -/
def State.otpRun (s : State) : State :=
  match s.sec.prog with
  | none => s
  | some (k, t, d) => s.rowTo k (rankAt (s.now - t) d)

/-- The first bit of copy A of row k: the new state governs from now on; slot 0 of the KCU is empty in a state without the
seed (R414, R445). The length of the entry actions is a free value that keeps the whole within T (R448). -/
def State.startProgram (s : State) (k : Nat) : State :=
  let (d, s) := s.draw
  let s := (s.setOtpRow k .copyA).onSec fun c => { c with prog := some (k, s.now, d % ms 390) }
  let s := ((s.wr B.SEC R.SEC_LC_STATE k).wr B.SEC R.SEC_LC_PHASE 1).wrB B.SEC R.SEC_LC_BUSY true
  let s := (s.wr B.SEC R.SEC_LC_CTRL_TARGET k).wrB B.SEC R.SEC_LC_CTRL_GO true
  let s := if 3 ≤ k then { s with keks := tput (fun _ => []) s.keks 0 [] } else s
  s.showDebug.measureLc

/-- The key of KCU slot 0: the provisioning key while the seed is there (R414). -/
def State.slot0 (s : State) : List Byte :=
  if s.lcState = 1 || s.lcState = 2 then Config.provisioningKey s.sec.otp.seed else []

end Sys2Proof.Machine
end

