-- ==== Sys2Proof/Machine/Resets.lean ====
section
/-! DEFINITION. What the resets and the switching of domains do to each unit's own state, and what the Lockkeeper loads. -/
namespace Sys2Proof.Machine

/-! ### Packets that a unit holds (Table 4.9, R100, R227) -/

/-- One packet dropped for a destination, counted as the port-down rule counts it; a core ring has no such count. -/
def State.flushOne (s : State) (k : Pkt) (dest : Nat) : State :=
  (if bitsOf dest 31 30 ≤ 1 then s.count (s.downCnt dest) else s).pktEnd k

/-- A VOQ is emptied: each copy counted, the segments of what is on die freed. -/
def State.flushVoq (s : State) (v : Nat) : State :=
  let x := s.voq v
  let s := s.setVoq v Voq.empty
  x.pkts.foldl (fun s p =>
    let s := if p.sent then s.pktEnd p.pkt else p.copies.foldl (fun s d => s.flushOne p.pkt d.dest) s
    if p.spilled then s else s.crossedOut v p) s

def State.flushVoqs (s : State) (ok : Nat → Bool) : State :=
  ((s.weir.voqs.map (·.1)).filter ok).foldl State.flushVoq s

/-- The packets that satisfy `mine` leave a tailrace's queues. -/
def State.flushEgress (s : State) (t : Nat) (mine : EPkt → Bool) : State :=
  let x := s.egress t
  (((x.q ++ x.deliver).filter mine).foldl (fun s p => s.flushOne p.pkt p.dest) s).setEgress t
    { x with q := x.q.filter (fun p => !mine p), deliver := x.deliver.filter fun p => !mine p }.tidy

/-- The queues of an Ethernet port are flushed, and what is still on its way to them is cut off (R227). -/
def State.flushPort (s : State) (p : Nat) : State :=
  (List.range 16).foldl (fun s t =>
    let s := s.flushEgress t fun x => bitsOf x.dest 31 30 = 0 && bitsOf x.dest 11 0 = p
    s.setEgress t { s.egress t with leaving := (s.egress t).leaving.filter (·.1 ≠ p) }) (s.cutPort p)

/-- Forwarding queues outside TR0 are flushed (Table 4.7 step 3, R100). -/
def State.flushForwarding (s : State) : State :=
  (List.range' 1 15).foldl (fun s t => s.flushEgress t fun _ => true) (s.flushVoqs fun v => voqT v ≠ 0)

def inRange (lo n k : Nat) : Bool := decide (lo ≤ k) && decide (k < lo + n)

/-! ### Plots and links (R106, R266, R268, R302, R310, R311) -/

/-- The next extended generation: the low 16 bits are never 0 (R311). -/
def nextXgen (g : Nat) : Nat :=
  let n := (g + 1) % 2 ^ 32
  if n % 2 ^ 16 = 0 then n + 1 else n

/-- The queue pairs of a plot, with their registers. -/
def State.dropQps (s : State) (p : Nat) : State :=
  let b := s.qpRegs p 0 + 0x1000
  { s.resetRegs (fun a => decide (b ≤ a) && decide (a < b + 0x1000)) with
    qps := tdrop (fun k => k < 2 ^ 20 && k / 64 = p) s.qps }

/-- Steps 2 to 4 of Table 11.7: the running state of a plot is cleared; the generation does not advance here. -/
def State.stopPlot (s : State) (p : Nat) : State :=
  let s := (s.dropQps p).clearNvme p
  let s := s.resetRegs fun a => (B.PLOT p + 0x200 ≤ a && a < B.PLOT p + 0x280) || (B.VF p ≤ a && a < B.VF p + 0x1_0000)
  let s := { s with mem := tdrop (fun a => B.VF p ≤ a && a < B.VF p + 0x1_0000) s.mem }
  let s := s.setPlot p { s.plot p with txSeq := 0, rxSeq := 0, txMsg := none }
  match s.fnOfPlot p with
  | none => s
  | some (m, f) =>
    let a := B.MGR m + 0x10 + 4 * ((128 * (m % 2) + f) / 32)
    let i := f % 32
    let s := s.wrW a (setBits (s.reg a).toNat i i 0)
    let s := { s with mem := tdrop (fun a => B.MSIX m f ≤ a && a < B.MSIX m f + 0x1_0000) s.mem }
    let l := s.link m
    let gone := l.outstanding.filter (·.fn = f)
    s.setLink m { l with outstanding := l.outstanding.filter (·.fn ≠ f), silent := l.silent ++ gone.map (·.tag) }

/-- A plot reset: its running state is cleared and its generation advances. -/
def State.resetPlot (s : State) (p : Nat) : State :=
  let s := s.stopPlot p
  s.wr (B.PLOT p) R.PLOT_XGEN_XGEN (nextXgen (s.plotGen p))

/-- Configuration space of a function at its reset values; what is held for it is discarded. -/
def State.resetFn (s : State) (m f : Nat) (ready : Bool) : State :=
  s.setFn m f { Fn.init with tableSize := (s.fn m f).tableSize, ready := ready }

/-- Slot 8 of a link is emptied under the port-down rule (R268). -/
def State.flushSlot8 (s : State) (m : Nat) : State :=
  let mine := fun (p : EPkt) => bitsOf p.dest 31 30 = 1 && (s.fnOfPlot (bitsOf p.dest 11 0)).map (·.1) = some m
  (List.range 16).foldl (fun s t =>
    let x := s.egress t
    let gone := (x.q ++ x.deliver).filter mine
    if gone = [] then s
    else gone.foldl (fun s p => (s.count (B.HPTC m + C.HPT_SLOT8_FLUSHED)).pktEnd p.pkt)
      (s.setEgress t { x with q := x.q.filter (fun p => !mine p), deliver := x.deliver.filter fun p => !mine p }.tidy)) s

/-- Accesses of masters that are gone are given up. -/
def State.dropAccesses (s : State) (gone : Master → Bool) : State := { s with cross := s.cross.filter fun x => !gone x.who }

def isHostOf (m : Nat) : Master → Bool
  | .host n _ => n.val = m
  | .lk | .silo | .debug | .core _ => false

def isCoreOf (c : Nat) : Master → Bool
  | .core n => n.val / 8 = c
  | .lk | .silo | .debug | .host _ _ => false

/-- A link is reset (Table 4.9, R268, R274). Its AER status bits are the sticky configuration bits that PCIe keeps through a hot
reset or a link-down (`sticky`). -/
def State.resetLink (s : State) (m : Nat) (sticky : Bool) : State :=
  let s := (s.flushSlot8 m).dropAccesses (isHostOf m)
  let s := (List.range (max 1 (s.allot m))).foldl (fun s f =>
    let s := match s.plotOf m f with
      | some p => s.resetPlot p
      | none => s
    s.resetFn m f false) s
  let s := s.resetRegs fun a => (B.HPT m ≤ a && a < B.HPT m + 0x1000) || (B.TPG m ≤ a && a < B.TPG m + 0x1_0000)
    || (B.MGR m ≤ a && a < B.MGR m + 0x1000)
  let l := s.link m
  let s := s.setLink m { LinkSt.init with perst := l.perst, released := l.released, aer := if sticky then l.aer else 0 }
  let s := { s with tim := { s.tim with pages := tput (fun _ => Page.init) s.tim.pages m Page.init } }
  { s with flt := { s.flt with notify := tput (fun _ => 0) s.flt.notify m 0, telem := tput (fun _ => Telem.off) s.flt.telem m Telem.off } }

/-- A host port domain: its links' mailboxes, functions, plots and MSI-X tables (R49, R73). -/
def State.loseHostPort (s : State) (n : Nat) : State :=
  ((List.finRange 16).filter fun (m : Link) => m.val / 2 = n && s.linkExists m).foldl (fun s m =>
    let s := (s.mailboxReset m).resetLink m false
    { s with fns := tdrop (inRange (fnKey m 0) 512) s.fns, mem := tdrop (inRange (B.MSIX m 0) (512 * 0x1_0000)) s.mem }) s

/-! ### The flip of MC_FLIP (R169) -/

/-- MC_CTRL.FLIP: a request, where DRAINED is 1 and none is pending. -/
def State.flip (s : State) (k : Nat) : State :=
  if s.domOn (domPipe k) && s.flag (B.PIPE k) R.MC_CTRL_DRAINED && !s.flag (B.PIPE k) R.MC_CTRL_FLIP_PEND then
    s.wrB (B.PIPE k) R.MC_CTRL_FLIP_PEND true
  else s

/-- The flip that MC_FLIP runs goes on to its next pipeline, or is complete. -/
def State.flipNext (s : State) : State :=
  match s.mc.flipping with
  | [] => s.endJobs 0x0381 0 (Final.mk' St.DONE 0 [])
  | k :: _ => s.flip k

/-- The commit point: the staged image is the active one, and the pipelines flip in order. -/
def State.commitFlip (s : State) (order : List Nat) : State :=
  { s with mc := { active := s.mc.staged, activeW := s.mc.stagedW, staged := 0, stagedW := [], flipping := order } }.measureCustomer.flipNext

/-- Pipeline k has flipped, or will be loaded with the flipped image. -/
def State.flipped (s : State) (k : Nat) : State :=
  if !s.mc.flipping.contains k then s
  else
    let head := s.mc.flipping.head? = some k
    let s := { s with mc := { s.mc with flipping := s.mc.flipping.erase k } }
    if head then s.flipNext else s

/-! ### What is lost with a domain (R49) -/

/-- A pipeline's control store, parse graph and edit memory are empty, and without upsets. -/
def State.clearMicro (s : State) (k : Nat) : State :=
  let m := s.micro
  { s with micro := { words := tdrop (inRange (wordKey k 0 0 0) (2 ^ 18)) m.words,
                      graph := if k < 16 then tdrop (inRange (k * 2 ^ 14) (2 ^ 14)) m.graph else m.graph,
                      edit := if 16 ≤ k then tdrop (inRange ((k - 16) * 2 ^ 15) (2 ^ 15)) m.edit else m.edit },
           upsets := tdrop (fun u => inRange (2 ^ 40 + wordKey k 0 0 0) (2 ^ 18) u || (k < 16 && inRange (k * 2 ^ 14) (2 ^ 14) u))
             s.upsets }

/-- A pipeline's tokens, its microcode and the upsets of its memories; a flip goes on without it (R169). -/
def State.losePipe (s : State) (k : Nat) : State :=
  ((((s.pipe k).toks.foldl (fun s t => s.pktEnd t.pkt) s).setPipe k PipeSt.empty).clearMicro k).flipped k

def State.loseHeadrace (s : State) (h : Nat) : State :=
  let s := ((s.stage h).pkts.foldl State.pktEnd s).setStage h Staging.empty
  let s := (s.losePipe h).flushVoqs fun v => voqH v = h
  s.onTbl fun t => { t with filters := tput (fun _ => []) t.filters h [] }

def State.loseTailrace (s : State) (t : Nat) : State :=
  let x := s.egress t
  ((x.q ++ x.deliver).foldl (fun s p => s.pktEnd p.pkt) (s.losePipe (16 + t))).setEgress t EgrSt.empty

/-- A quadrant's table block: its copies, notices, meters, counter pairs, samplers and buffer slice. -/
def State.loseQuad (s : State) (q : Nat) : State :=
  let s := s.flushVoqs fun v => voqH v / 4 = q
  let s := s.onTbl fun t => { t with
    seed := tdrop (inRange (seedKey q 0) (2 ^ 17)) t.seed, sieve := tdrop (inRange (sieveKey q 0) (2 ^ 17)) t.sieve,
    notices := tput (fun _ => []) t.notices q [], meters := tdrop (inRange (q * 2 ^ 18) (2 ^ 18)) t.meters,
    loading := t.loading.filter (· ≠ q), sweep := tput (fun _ => (0, 0)) t.sweep q (0, 0) }
  let s := s.onWeir fun w => { w with
    used := tdrop (inRange (4 * q) 4) w.used, samp := tdrop (inRange (256 * q) 256) w.samp, lost := tdrop (inRange (16 * q) 16) w.lost }
  { s with cpairs := tdrop (inRange (q * 2 ^ 18) (2 ^ 18)) s.cpairs,
           upsets := tdrop (fun k => inRange (2 * 2 ^ 40 + seedKey q 0) (2 ^ 17) k || inRange (3 * 2 ^ 40 + sieveKey q 0) (2 ^ 17) k)
             s.upsets }

def State.loseLanes (s : State) (g : Nat) : State :=
  let e := s.eth
  { s with eth := { e with
      pauseEnd := tdrop (inRange (32 * g) 32) e.pauseEnd, xoffSent := tdrop (inRange (4 * g) 4) e.xoffSent,
      sas := tdrop (inRange (128 * g) 128) e.sas, activeAN := tdrop (inRange (4 * g) 4) e.activeAN,
      squelched := e.squelched.filter (· / 4 ≠ g), released := e.released.filter (· ≠ g),
      txEnd := tdrop (inRange (4 * g) 4) e.txEnd, lastTail := tdrop (inRange (4 * g) 4) e.lastTail } }

/-- The drive whose link has gone with its port: one that has not joined the pool is ABSENT (Table 15.1). -/
def Drive.unlinked (x : Drive) : Drive := if x.st = .new then Drive.none else { x with up := false, downAt := Option.none }

/-- A drive port group: its drives' links are down. -/
def State.loseDrives (s : State) (g : Nat) : State :=
  { s with silo := { s.silo with drives := (s.silo.drives.map fun e =>
      if e.1 / 8 = g && e.1 < 32 then (e.1, e.2.unlinked) else e).filter (·.2 ≠ Drive.none) } }

/-- A stack's contents: the cache in S0; in S1 to S3 what the Reservoir address space holds, which is interleaved over
them. -/
def State.loseStack (s : State) (k : Nat) : State :=
  let r := s.rsv
  let s := { s with rsv := { r with owed := tdrop (inRange (32 * k) 32) r.owed, refAt := tdrop (inRange (32 * k) 32) r.refAt,
                                    poisoned := r.poisoned.filter (fun a => a / 2 ^ 35 ≠ k), hot105 := r.hot105.filter (· ≠ k),
                                    scrub := tput (fun _ => (0, 0)) r.scrub k (0, 0) },
                    mem := tdrop (inRange (0x60_0000_0000 + k * 2 ^ 35) (2 ^ 35)) s.mem }
  if k = 0 then
    { s with silo := { s.silo with cache := [], writes := [], waiting := [], reads := [], restored := [], restoring := none } }
  else
    let s := { s with mem := tdrop (fun a => inRange 0x40_0000_0000 (2 ^ 37) a && raStack (a - 0x40_0000_0000) = k
                 || inRange B.POOLM (2 ^ 36) a || inRange B.CMEM (2 ^ 36) a) s.mem,
                      qps := tdrop (fun r => decide (2 ^ 20 ≤ r)) s.qps }
    let s := (s.weir.voqs.flatMap fun e => e.2.pkts.filter (·.spilled)).foldl (fun s p => s.pktEnd p.pkt) s
    let s := (s.onTbl fun t => { t with slots := [] }).onWeir fun w => { w with voqs := w.voqs.map fun e =>
      (e.1, { e.2 with pkts := e.2.pkts.filter fun p => !p.spilled }) }
    let s := { s with hop := HopSt.init }.conduitDown
    if k = 1 then { s with silo := { s.silo with map := [], marks := [] } } else s

/-- A core cluster: its boot page, counters, and the reset of its cores' mailboxes (R79). -/
def State.loseCluster (s : State) (c : Nat) : State :=
  let s := { s with mem := tdrop (fun a => inRange (B.BOOT c) 0x1_0000 a || inRange (B.CPMC (8 * c)) 0x8_0000 a) s.mem }
  ((List.finRange 32).filter fun n => n.val / 8 = c).foldl (fun s n => s.coreMailboxReset n) (s.dropAccesses (isCoreOf c))

def State.loseWeir (s : State) : State :=
  { s.flushVoqs fun _ => true with weir := { WeirSt.init with samp := s.weir.samp, lost := s.weir.lost, tapAt := s.weir.tapAt } }

/-- The Silo engine's own state: commands in flight, controllers, connections, and every Silo key slot. -/
def State.loseSilo (s : State) : State :=
  let s := (s.dropInFlight.kcuFree 1 true).dropAccesses (· = .silo)
  let s := s.resetRegs fun a => inRange 0x2_4000_0000 0x200_0000 a
  { s with silo := { s.silo with ctls := [], conns := [], vaultKey := false, save := .idle,
                                 vols := s.silo.vols.map fun e => (e.1, { e.2 with online := false, blocked := false }) } }

def State.loseUnits (s : State) (d : Nat) : State :=
  if d = 0 then s
  else if d ≤ 16 then s.loseHeadrace (d - 1)
  else if d ≤ 24 then (s.loseTailrace (2 * (d - 17))).loseTailrace (2 * (d - 17) + 1)
  else if d ≤ 28 then s.loseQuad (d - 25)
  else if d ≤ 52 then s.loseLanes (d - 29)
  else if d ≤ 60 then s.loseHostPort (d - 53)
  else if d ≤ 64 then s.loseDrives (d - 61)
  else if d ≤ 68 then s.loseStack (d - 65)
  else if d ≤ 72 then s.loseCluster (d - 69)
  else if d = 73 then s.loseWeir
  else if d = 74 then s.loseSilo
  else if d = 76 then { s with icr := IcrSt.init }
  else if d = 77 then { s with bmv := BmvSt.init, kcu := KcuSt.init, keks := [],
                               mem := tdrop (inRange (B.KCUM 0) 0x3_0000) s.mem }
  else s

/-! ### What the Lockkeeper loads (Tables 2.7 and 4.3, R20, R99, R136, R194) -/

/-- The Trickle set (Table 4.6): lane groups as the designated uplinks need. -/
def State.inTrickleSet (s : State) (d : Nat) : Bool :=
  let up := fun (v p : RegField) => s.flag B.DEV v && (s.portLGs (s.rd B.DEV p)).contains (d - 29)
  d = 0 || d = 1 || d = 17 || d = 25
    || (29 ≤ d && d ≤ 34 && (up R.DEV_TRICKLE_VALID0 R.DEV_TRICKLE_UPLINK0 || up R.DEV_TRICKLE_VALID1 R.DEV_TRICKLE_UPLINK1))
    || (53 ≤ d && d ≤ 64 && bitOf s.image.domains d) || d = 65 || d = 66 || d = 73 || d = 74 || d = 75 || d = 78 || d = 79

/-- A setting of the image is loaded into its register as a write of it would be taken (R10, R11): a layout that violates R107
or R108, a profile that breaks R179 and a pool setting that R211 refuses change nothing (DESIGN CHOICE, assumption 10). -/
def State.loadSetting (s : State) (a : Nat) (v : Word) : State :=
  match descAt a with
  | none => s.setReg a v
  | some d =>
    let n := regAfterWrite (s.isLocked a) d (s.reg a).toNat v.toNat
    let fits :=
      if 0x60_0000 ≤ a && a < 0x78_0000 && a % 0x1_0000 = 0 then s.lgCfgTakes ((a - 0x60_0000) / 0x1_0000) n
      else if B.WEIR + 0x10 ≤ a && a < B.WEIR + 0x20 then
        decide (65536 ≤ sharedCells (bitsOf n 7 0) (bitsOf n 31 16))
      else if 0x10_0000 ≤ a && a < 0x50_0000 && a % 0x10_0000 / 0x1_0000 = 0xD && 0x100 ≤ a % 0x1_0000 && a % 0x1_0000 < 0x140 then
        s.profileOk ((a - 0x10_0000) / 0x10_0000) ((a % 0x1_0000 - 0x100) / 4) n
      else true
    if !fits then s
    else if 0x60_0000 ≤ a && a < 0x78_0000 && a % 0x1_0000 < 0x20 then (s.wrW a n).fitFec ((a - 0x60_0000) / 0x1_0000)
    else s.wrW a n

/-- Settings of the image for the powered domains that `ok` takes. -/
def State.loadSettings (s : State) (ok : Nat → Bool) : State :=
  s.image.settings.foldl (fun s e =>
    let d := (domAt e.1).getD 0
    if ok d && s.domOn d then s.loadSetting e.1 e.2 else s) s

/-- The microcode of pipeline k: the image's, with the customer part that is active in bank 0. -/
def State.loadMicro (s : State) (k : Nat) : State :=
  let put := fun (lo n : Nat) (src dst : Table Nat) =>
    (src.filter fun e => inRange lo n e.1).foldl (fun (t : Table Nat) e => tput (fun _ => 0) t e.1 e.2) dst
  let i := s.image.micro
  let m := s.micro
  let s := { s with micro := { words := put (wordKey k 0 0 0) (2 ^ 18) i.words m.words,
                               graph := if k < 16 then put (k * 2 ^ 14) (2 ^ 14) i.graph m.graph else m.graph,
                               edit := if 16 ≤ k then put ((k - 16) * 2 ^ 15) (2 ^ 15) i.edit m.edit else m.edit } }
  if s.mc.activeW = [] then s else s.stageBank k 0 0 s.mc.activeW

/-- The boot page of a core cluster is written and its cores are released (R99, step 10 of Table 4.3). -/
def State.startCores (s : State) (c : Nat) : State :=
  { s with mem := putBytes s.mem (B.BOOT c) ((tget (fun _ => []) s.image.boot c).take 0x1_0000) }.releaseCores c

/-- What a unit does when its domain reaches power good (Table 2.7); the calibrations of its meter begin their schedule
(Table 18.7). A cluster switched on in Survey is started there, since no load step follows (DESIGN CHOICE, assumption 36). -/
def State.domainUp (s : State) (d : Nat) : State :=
  let s := if metered d then s.stamp (Tm.meterCal d) else s
  let s := if 29 ≤ d && d ≤ 60 then s.calibrate (d - 29) else s
  if 1 ≤ d && d ≤ 16 then (s.loadSettings (· = d)).loadMicro (d - 1)
  else if 17 ≤ d && d ≤ 24 then
    let t := 2 * (d - 17)
    let s := ((s.loadSettings (· = d)).setUpPorts fun x => x = t || x = t + 1).loadSettings (· = d)
    (s.loadMicro (16 + t)).loadMicro (17 + t)
  else if 25 ≤ d && d ≤ 28 then
    ((s.loadSettings (· = d)).setSweep (d - 25) (0, s.now * 131072)).onTbl fun t =>
      { t with loading := t.loading.filter (· ≠ d - 25) ++ [d - 25] }
  else if 29 ≤ d && d ≤ 52 then
    let s := (List.range' (4 * (d - 29)) 4).foldl (fun s p => s.stamp (Tm.unaligned p)) s
    (if s.mode = .trickle then s.loadSettings (· = d) else s).moduleSeen (d - 29)
  else if 65 ≤ d && d ≤ 68 then { s with rsv := { s.rsv with scrub := tput (fun _ => (0, 0)) s.rsv.scrub (d - 65) (0, s.now) } }
  else if d = 75 then (s.wrB B.PWR R.PWR_PINS_DRAIN_DONE false).emit (.pin "DRAIN_DONE" false)
  else if d = 77 then { s with keks := tput (fun _ => []) s.keks 0 s.slot0 }
  else if 69 ≤ d && d ≤ 72 && s.mode = .survey then s.startCores (d - 69)
  else s

/-- Seed-table entries and Sieve units of the image, into the master and every copy that is loaded, and the entries of its
Reservoir hash tables, whose idle sweeps begin (R194). -/
def State.loadTables (s : State) : State :=
  let cs := (List.range 4).filter s.copyOn
  let s := s.image.seed.zipIdx.foldl (fun s e => s.onTbl fun t => { t with
    master := tput (fun _ => 0) t.master (bitsOf e.1 159 64) e.1
    seed := cs.foldl (fun (m : Table Nat) q => tput (fun _ => 0) m (seedKey q e.2) e.1) t.seed }) s
  let s := s.image.sieve.foldl (fun s e => s.onTbl fun t => { t with
    sieve := (sieveMaster :: cs).foldl (fun (m : Table Nat) q => tput (fun _ => 0) m (sieveKey q e.1) e.2) t.sieve }) s
  let s := (List.range 8).foldl (fun (s : State) t => s.stamp (Tm.idle t)) s
  s.image.hash.foldl (fun s e => (s.rsvRecord e.1 e.2.1 e.2.2).2.2.2) s

/-- The core rings of the image (R300). -/
def State.loadRings (s : State) : State :=
  s.image.rings.foldl (fun s e => if e.1 < 256 then s.setQp (coreRingKey e.1) { e.2 with live := true } else s) s

/-- Step 11 of Table 4.3, at Priming and at a return from Trickle: settings, ports, rings and cores, and at Priming the
tables, the customer build, the locks and the measurements of what was loaded. A return from Trickle leaves the domains of the
Trickle set as they are (R211, R226). -/
def State.loadImage (s : State) : State :=
  let first := s.mode = .priming
  let ok := fun d => first || !s.inTrickleSet d
  let s := (s.loadSettings ok).setUpPorts fun t => first || t ≠ 0
  let s := (if first then s.setUpEcn else s).loadSettings ok
  let s := (List.range 512).foldl State.resplit s.loadRings
  let s := ((List.range 4).filter fun c => s.domOn (69 + c)).foldl State.startCores s
  if !first then s
  else
    let s := { s.loadTables with mc := { active := s.image.build, staged := 0, flipping := [], activeW := [], stagedW := [] } }
    let s := s.measureMicro.measureCustomer
    if s.image.locks then
      ((s.wrB B.PACE R.PACE_LOCK_VLOCK true).wrB B.CIST R.CIST_LOCK_CLOCK true).wrB B.TIME R.TIME_LOCK_HLOCK true
    else s

/-- HBM training has ended: every powered stack is trained, and the extent map is loaded from the drives (R384, R354). -/
def State.stacksTrained (s : State) : State :=
  let s := (List.range 4).foldl (fun s k => if s.domOn (65 + k) then s.wrB (B.RSV k) R.RSV_STATUS_TRAINED true else s) s
  if s.domOn 66 && s.silo.map = [] then { s with silo := { s.silo with map := s.silo.meta_ } } else s

/-! ### Trickle (R82, R95, R99, R308) -/

/-- Key of an entry of the static table: the MAC address and VLAN of a plot, under a kind of the vendor image that no other
entry has, so that no key is there twice (R174; DESIGN CHOICE, assumption 38). -/
def staticKey (mac vlan : Nat) : Nat := 5 * 2 ^ 90 + vlan * 2 ^ 48 + mac

/-- The microcode of the trickle program in a pipeline: every gate passes its packets on, and nothing is edited. What the
program decides is `State.trickleDest` (assumption 38). -/
def State.trickleMicro (s : State) (k : Nat) : State :=
  (List.range (gatesOf k)).foldl (fun s g => [0, 1].foldl (fun (s : State) b =>
    { s with micro := { s.micro with words := tput (fun _ => 0) s.micro.words (wordKey k b g 0) (2 ^ 189 + 2 ^ 188) } }.wr
      (B.PIPE k + 8 * g + 4 * b) R.G_ENTRY_ENTRY 0) s)
    { s.clearMicro k with micro := { (s.clearMicro k).micro with graph := s.micro.graph } }

/-- The trickle program in HR0 and TR0, the static table in the highest entries of quadrant 0's copy, from the plot
configuration, and slots in TR0 for the uplinks. -/
def State.trickleProgram (s : State) : State :=
  let s := (s.trickleMicro 0).trickleMicro 16
  let ps := (List.range 512).filter s.plotLive
  let s := ps.zipIdx.foldl (fun s e => s.onTbl fun t => { t with
    seed := tput (fun _ => 0) t.seed (seedKey 0 (seedUsable + e.2))
      (Seed.mk true false 0 (staticKey (s.plotMac e.1) (s.plotVlan e.1)) (Config.steerData e.1)) }) s
  s.uplinks.foldl (fun s p => if (s.slotOf 0 p).isSome then s else s.assignSlot p 0) s

/-- Slots of TR0 whose port no lane of TR0 serves, and which `keep` does not hold, are given up. -/
def State.freeUplinkSlots (s : State) (keep : List Nat) : State :=
  (List.range 8).foldl (fun s k =>
    let b := B.TLR 0 + 0x100 * k
    let p := s.rd b R.TLR_SLOT_CFG_PORT
    if s.flag b R.TLR_SLOT_CFG_EN && s.portWeight p 0 = 0 && !keep.contains p then
      (s.flushPort p).resetRegs (inRange (b + R.TLR_SLOT_CFG_EN.off) 0x100)
    else s) s

/-- The trickle program, the static table and the uplinks' slots are removed, and the microcode of HR0 and TR0 is loaded again;
messages that waited are shown. -/
def State.leaveTrickle (s : State) : State :=
  let s := s.onTbl fun t => { t with seed := tdrop (inRange (seedKey 0 seedUsable) 1024) t.seed }
  let s := s.freeUplinkSlots []
  let s := [0, 16].foldl (fun (s : State) k =>
    let s := (s.resetRegs (inRange (B.PIPE k + R.G_ENTRY_ENTRY.off) (8 * gatesOf k))).clearMicro k
    (s.loadSettings fun d => d = domPipe k).loadMicro k) s
  (List.range 512).foldl (fun (s : State) p => if (s.plot p).txMsg.isSome then s.msgArrives p else s) (s.restartSweep 0)

/-- A register as the image leaves it: RW and RWL fields at reset, locked ones unchanged. -/
def State.rewritten (s : State) (a : Nat) (old : Word) : Word :=
  match descAt a with
  | none => old
  | some d => BitVec.ofNat 32 (d.fields.foldl (fun v f =>
      if f.acc = .rw || (f.acc = .rwl && !s.isLocked a) then setBits v f.fld.hi f.fld.lo f.reset else v) old.toNat)

/-- R82: the registers of the powered domains return to what the image says. Those of mailboxes and plots, whose contents are
not the image's, return to what they held before the raw writes of Survey (DESIGN CHOICE, assumption 36). -/
def State.rewriteFromImage (s : State) : State :=
  let mine := fun a => decide (a < B.LKP 0)
  let s := { s with regs := s.regs.foldl (fun (t : Table Word) (e : Nat × Word) =>
    tput regReset t e.1 (if mine e.1 then s.rewritten e.1 e.2 else e.2)) [] }
  let s := { s.raw.foldl (fun (s : State) (e : Nat × Word) => s.setReg e.1 e.2) s with raw := [] }
  let s := s.image.settings.foldl (fun (s : State) (e : Nat × Word) =>
    if mine e.1 && s.domOn ((domAt e.1).getD 0) && !s.isLocked e.1 then s.loadSetting e.1 e.2 else s) s
  (s.setUpPorts fun _ => true).setUpEcn

/-! ### What a domain carries (R50) -/

/-- A tap ring of a quadrant is configured: it has been given a base. -/
def State.tapRingSet (s : State) (q : Nat) : Bool := (List.range 16).any fun k => s.pair (B.TAP q + 0x20 * k) ≠ 0

/-- A domain carries a port, plot, volume or ring that is configured: what lies in the domain or is served by a unit in it
(DESIGN CHOICE, assumption 36). -/
def State.carries (s : State) (d : Nat) : Bool :=
  let ports := (List.range 96).filter s.portOn
  let pipe := fun k => ports.any (fun p => (s.portHeadraces p).contains k) || s.qps.any fun e => e.2.live && e.2.bind = k
  let vol := s.silo.vols.any (·.2.live)
  let ring := fun c => s.qps.any fun e => decide (2 ^ 20 ≤ e.1) && e.2.live && c ((e.1 - 2 ^ 20) / 64)
  let tap := (List.range 4).any s.tapRingSet
  if d = 0 then true
  else if d ≤ 16 then pipe (d - 1)
  else if d ≤ 24 then pipe (2 * (d - 17)) || pipe (2 * (d - 17) + 1)
  else if d ≤ 28 then s.tapRingSet (d - 25)
  else if d ≤ 52 then ports.any fun p => (s.portLGs p).contains (d - 29)
  else if d ≤ 60 then (List.range 512).any fun p => s.flag (B.PLOT p) R.PLOT_CFG_EN && (s.fnOfPlot p).any fun f => f.1 / 2 = d - 53
  else if d ≤ 64 then s.silo.drives.any fun e => e.1 / 8 = d - 61 && (e.2.st = .member || e.2.st = .retiring)
  else if d = 65 || d = 74 || d = 75 then vol
  else if d = 66 then vol || (Config.region 0 < 60 * 2 ^ 30 && tap) || (Config.region 2 < 60 * 2 ^ 30 && ring fun _ => true)
  else if d = 67 || d = 68 then tap || ring fun _ => true
  else if d = 73 then !ports.isEmpty || s.qps.any (·.2.live)
  else if 69 ≤ d && d ≤ 72 then ring fun c => c = d - 69
  else false

/-! ### Warm and cold resets (Table 4.9, R104, R194, R302, R311) -/

/-- The time unit runs on in holdover; its settings are at reset. -/
def State.warmTime (s : State) : State :=
  let st := s.timeState
  let hold := if st = 2 then some (s.now, s.rd B.TIME R.TIME_BOUND_SRC_BOUND) else s.tim.hold
  let s := if st = 2 then (s.wr B.TIME R.TIME_STATE_STATE 3).wr B.TIME R.TIME_STATE_CLASS (if s.tim.viaPtp then 135 else 7)
    else if st = 1 then (s.wr B.TIME R.TIME_STATE_STATE 0).wr B.TIME R.TIME_BOUND_SRC_BOUND 0xFFFF else s
  let s := (s.wr B.TIME R.TIME_STATE_PHASE_SRC 0).wr B.TIME R.TIME_STATE_FREQ_SRC 0
  let s := (List.range 20).foldl (fun s n =>
    (s.wrB (outReg n) R.TIME_OUT_STAT_TRIP false).wrB (outReg n) R.TIME_OUT_STAT_FEED_ON false) s
  { s with tim := { TimeSt.init with frac := s.tim.frac, first := s.tim.first, hold := hold, viaPtp := s.tim.viaPtp,
                                     lastStep := s.tim.lastStep, cal := s.tim.cal } }

/-- What a warm reset clears in the units that stay powered, and what the Lockkeeper held. -/
def State.warmUnits (s : State) : State :=
  let s := s.resetRegs fun a => inRange B.SILO 0x2_0000 a || inRange (B.PLOT 0) 0x20_0000 a
    || inRange 0x1_0000_0000 0x2_0000_0000 a
  let s := { s with tbl := TblSt.init, weir := WeirSt.init, cpairs := [], qps := [], plots := [], txCredit := [], txArmed := [], raw := [],
                    mc := { active := 0, staged := 0, flipping := [], activeW := [], stagedW := [] },
                    fns := s.fns.map (fun (e : Nat × Fn) => (e.1, { e.2 with tableSize := 0 })) }
  let s := { s.dropInFlight with silo := { s.dropInFlight.silo with ctls := [], conns := [], atts := [] } }
  let s := s.onSec fun c => { c with nonces := [], grants := [], meas := tput (fun _ => fit 48 []) c.meas 7 (fit 48 []) }
  s.showDebug.warmTime

/-- What a cold reset keeps: the life-cycle store, the SPI images, the vault, and the world outside (Table 4.9). -/
def State.coldKeep (s : State) : State :=
  { State.reset with
    pending := s.pending, freeCtr := s.freeCtr, out := s.out, image := s.image,
    links := s.links.map (fun (e : Nat × LinkSt) => (e.1, { LinkSt.init with perst := e.2.perst, released := e.2.released })),
    sec := { SecSt.init with otp := s.sec.otp, nor := s.sec.nor, prefer := s.sec.prefer, config := s.sec.config },
    vault := s.vault, eth := { EthSt.init with cages := s.eth.cages },
    silo := { SiloSt.init with
      drives := (s.silo.drives.map fun e => (e.1, e.2.unlinked)).filter (·.2 ≠ Drive.none),
      vols := s.silo.vols.map fun e => (e.1, { e.2 with online := false, blocked := false }),
      meta_ := s.silo.meta_, stale := s.silo.stale, disk := s.silo.disk, badBlks := s.silo.badBlks } }

end Sys2Proof.Machine
end

