-- ==== Sys2Proof/Machine/Power.lean ====
section
/-! DEFINITION. Power domains, Priming, Drain and the warm reset's common parts as shared operations, and what a fault does at
once (R29, R38, R49, R80 to R89, R103 to R106, R468). The transitions of Table 4.2 are in Transitions.lean. -/
namespace Sys2Proof.Machine

/-! ### Domains (Table 1.5, R29, R49) -/

/-- The domains a domain needs (Table 1.5); core clusters need the stacks that hold core memory. -/
def needs (s : State) (d : Nat) : List Nat :=
  if 1 ≤ d && d ≤ 16 then [25 + (d - 1) / 4, 73]
  else if 17 ≤ d && d ≤ 24 then [25 + (d - 17) / 2, 73]
  else if d = 0 then []
  else if 61 ≤ d && d ≤ 64 then [74]
  else if 69 ≤ d && d ≤ 72 then (if s.coreMemLen = 0 then [] else if Config.region 2 < 60 * 2 ^ 30 then [66, 67, 68] else [67, 68])
  else if d = 74 then [65]
  else if d = 75 then [74]
  else [0]

/-- Every domain that a domain needs is on. -/
def State.needsOn (s : State) (d : Nat) : Bool := (needs s d).all s.domOn

/-- A powered domain needs this one. -/
def State.neededBy (s : State) (d : Nat) : Bool :=
  (List.range 80).any fun e => e ≠ d && s.domOn e && (needs s e).contains d

/-- A domain is off: what it held is lost, its meter with it (R49, Table 2.16). Accesses that cross into it are refused by
`State.switchOff`. -/
def State.loseDomain (s : State) (d : Nat) : State :=
  if d = 0 || !s.domOn d then s
  else
    let s := (s.loseUnits d).setDom d false
    let s := s.resetRegs fun a => domAt a == some d
    let s := if metered d then s.wrW (meterBase d + R.PACE_METER_PACE.off) 0 else s
    { s with cnts := tdrop (fun a => domAt a == some d) s.cnts }

/-- The order in which domains are switched off: each after every domain that needs it (R29). -/
def offOrder : List Nat :=
  (List.range' 1 24) ++ [61, 62, 63, 64, 69, 70, 71, 72, 75, 74] ++ (List.range' 25 36) ++ [65, 66, 67, 68, 73, 76, 77, 78, 79]

/-- The order in which configured domains are switched on at Priming: host ports first (Table 4.3), each domain after
those it needs (R29). -/
def onOrder : List Nat :=
  (List.range' 53 8) ++ (List.range' 25 4) ++ [73] ++ (List.range' 1 24) ++ (List.range' 29 24) ++ [65, 66, 67, 68, 74]
    ++ [61, 62, 63, 64, 75, 69, 70, 71, 72, 76, 77, 78, 79]

/-- PDn holds a configured unit (R80). -/
def State.configured (s : State) (d : Nat) : Bool := bitOf s.image.domains d

/-! ### DEV_MODE -/

def State.setMode (s : State) (m : Mode) : State :=
  let s := s.wr B.DEV R.DEV_MODE_CODE m.code
  (s.wr B.DEV R.DEV_MODE_TARGET m.code).wrB B.DEV R.DEV_MODE_BUSY false

def State.setBusy (s : State) (target : Mode) : State :=
  (s.wr B.DEV R.DEV_MODE_TARGET target.code).wrB B.DEV R.DEV_MODE_BUSY true

/-- DEV_MODE.WRITEBACK holds only in Flowing, with the Cistern above its threshold, CISTERN_OK high and no vault image
pending (R81); where it is 0, the writes in flight are write-through (R366). -/
def State.updateWriteback (s : State) : State :=
  let on := s.mode = .flowing && s.flag B.CIST R.CIST_STATUS_ABOVE && s.flag B.PWR R.PWR_PINS_CISTERN_OK
      && !s.flag B.DEV R.DEV_MODE_VAULT_PENDING
  let s := s.wrB B.DEV R.DEV_MODE_WRITEBACK on
  if on then s else s.onSilo fun c => { c with writes := c.writes.map fun w => { w with through := true } }

/-- The domain of a key. -/
def keyDom (key : Nat) : Nat :=
  if 0x4_0000_0000 ≤ key && key < 0x5_0000_0000 then domHP ((key - 0x4_0000_0000) / 0x1_0000 / 512)
  else (domAt key).getD 0

/-! ### The request for VCORE (R38, R39, Table 2.4) -/

/-- A request brought into [VMIN, V_ceil]; the ceiling wins, but not below 580 mV (R38). -/
def State.clampV (s : State) (v : Nat) : Nat :=
  let vmin := s.rd B.PACE R.PACE_VLIMIT_VMIN
  let c := s.vCeil
  if c < vmin then max c 580 else if v < vmin then vmin else if c < v then c else v

/-- A new request goes to the regulator. A command whose acknowledgement nothing shows counts as acknowledged once another
is sent and nothing has said otherwise (DESIGN CHOICE, assumption 33). -/
def State.request (s : State) (v : Nat) : State :=
  let g := s.gov
  { s.wr B.PACE R.PACE_STATUS_VREQ v with
    gov := { g with lastAck := g.sent.getD g.lastAck, nacks := if g.sent.isSome then 0 else g.nacks, sent := some v } }.emit (.avs v)

/-! ### Domains and steps of Priming (Tables 2.7 and 4.3, R49, R88, R468) -/

/-- The domains from the first that can be switched on: one that needs a domain that is off is passed over (R29). -/
def State.skipUnneeded (s : State) : List Nat → List Nat
  | [] => []
  | d :: ds => if s.needsOn d then d :: ds else s.skipUnneeded ds

/-- The domains still to be switched on; the switch-on of the first begins now where it has not begun. A DOMAIN_SET of one that
is passed over ends as R92 says, and in Priming that domain counts as failed. -/
def State.setToPower (s : State) (l : List Nat) : State :=
  let k := s.skipUnneeded l
  let out := l.take (l.length - k.length)
  let s := if k.head? = s.modes.toPower.head? then s else s.stamp Tm.domain
  let s := { s with modes := { s.modes with toPower := k, failedDoms := if s.mode = .priming then s.modes.failedDoms ++ out
                                                                        else s.modes.failedDoms } }
  out.foldl (fun s d => s.endJobs 0x0703 d (Final.mk' St.BAD_ARGUMENT 0 [])) s

/-- Domains queued for switch-on. -/
def State.queueOn (s : State) (l : List Nat) : State :=
  s.setToPower (s.modes.toPower ++ l.filter fun d => !s.modes.toPower.contains d)

def stepState (l : List (Step × StepSt)) (k : Step) : Option StepSt := (l.find? (·.1 = k)).map (·.2)

/-- A step is no part of this Priming, or it has passed; or it has failed. -/
def stepPassed (l : List (Step × StepSt)) (k : Step) : Bool := stepState l k = none || stepState l k = some .done
def stepEnded (l : List (Step × StepSt)) (k : Step) : Bool := stepPassed l k || stepState l k = some .failed

/-- What a step of Priming depends on. Memory is tested and restored only where its training has passed; the load waits for
the steps that use the stacks to end, however they do, and what needs no domain that failed runs (DESIGN CHOICE, assumption
35). -/
def stepReady (l : List (Step × StepSt)) : Step → Bool
  | .domains => true
  | .calibration | .hbmTraining => stepEnded l .domains
  | .marchTest => stepPassed l .hbmTraining
  | .load => stepEnded l .hbmTraining && (stepEnded l .marchTest || !stepPassed l .hbmTraining)
  | .restore => stepPassed l .hbmTraining && stepPassed l .marchTest

/-- The steps that may run start. -/
def startSteps (l : List (Step × StepSt)) : List (Step × StepSt) :=
  l.map fun (k, st) => if st = .waiting && stepReady l k then (k, .running) else (k, st)

def setStep (l : List (Step × StepSt)) (k : Step) (v : StepSt) : List (Step × StepSt) :=
  l.map fun (j, st) => if j = k then (j, v) else (j, st)

/-- The steps of Priming are these; those that may run start, and the time of each runs from now (R468). -/
def State.setSteps (s : State) (l : List (Step × StepSt)) : State :=
  let t := startSteps l
  let s := (t.filter fun e => e.2 = .running && stepState s.modes.steps e.1 ≠ some .running).foldl
    (fun (s : State) e => s.stamp (Tm.step e.1)) s
  { s with modes := { s.modes with steps := t } }

/-- A step of Priming that runs goes over to a state. -/
def State.endStep (s : State) (k : Step) (v : StepSt) : State :=
  if stepState s.modes.steps k = some .running then s.setSteps (setStep s.modes.steps k v) else s

/-- The end of the step in which the domains are switched on: it has failed where one of them has (R88). -/
def State.domainsEnded (s : State) : State :=
  if s.modes.toPower ≠ [] then s else s.endStep .domains (if s.modes.failedDoms = [] then .done else .failed)

/-- Priming begins: VCORE requested at VMIN where nothing is requested yet, the configured domains and PD79 queued for
switch-on, the steps listed. A request that stands already moves to VMIN by steps of the governor (R38). -/
def State.startPriming (s : State) : State :=
  let s := s.setMode .priming
  let g := s.clampV (s.rd B.PACE R.PACE_VLIMIT_VMIN)
  let s := { s with gov := { s.gov with goal := g, calTable := [] } }
  let s := if s.rd B.PACE R.PACE_STATUS_VREQ = 0 && !s.flag B.PACE R.PACE_FLAGS_AVS_LOST then s.request g else s
  let steps := [Step.domains, .calibration, .hbmTraining] ++ (if s.image.memtest then [Step.marchTest] else [])
    ++ [Step.load] ++ (if s.flag B.DEV R.DEV_MODE_VAULT_PENDING then [Step.restore] else [])
  let s := { s with modes := { s.modes with committed := false, fetchPaused := false, stepFault := false, failedDoms := [],
                                            toPower := [], steps := [] } }
  let s := s.setSteps (steps.map fun k => (k, StepSt.waiting))
  (s.queueOn (onOrder.filter fun d => (s.configured d || d = 79) && !s.domOn d)).domainsEnded

/-! ### Lockkeeper commands at Drain and at a warm reset (R73, R93, R471) -/

/-- The opcode-and-object under which a removal waits for its barriers (R192). -/
def barrierObj : Nat := 0x1_0000

/-- A command that goes on as a job takes effect even though the Lockkeeper stops or reboots now: it has passed its commit
point, or its work is done already and only the answer waits. Every other one ends without effect (DESIGN CHOICE, assumption
8). -/
def State.jobCommitted (s : State) (j : Job) : Bool :=
  if j.opcode = 0x0701 then s.modes.committed
  else if j.opcode / 256 = 8 then j.st = St.DONE
  else [0x0202, 0x020C, 0x0381].contains j.opcode || j.obj = barrierObj

/-- Every command that still runs ends with the Lockkeeper: those of old generations are recorded with their EFFECT. -/
def State.settleAll (s : State) (done : List (Job × Bool)) : State :=
  let s := done.foldl (fun (s : State) e => s.settleOld e.1.q e.1.mgen (bit e.2)) { s with jobs := [], regJob := none }
  { s with tags := s.tags.map fun (e : Nat × TagSt) => (e.1, { e.2 with old := e.2.old.map fun o =>
      if o.settled.isNone then { o with settled := some (St.ABORTED_RESET, 0) } else o }) }

/-! ### Drain (R24, R85, R373, Table 15.7) -/

/-- Entry to Drain: at once, whatever else is in progress; during Drain no effect but to remember a Latched fault
(R48, R85). A Fatal escalation that waits for a transition is carried out once the Drain has ended (R106). The governor moves
its request to 0.72 V by its own steps (Table 2.4). -/
def State.enterDrain (s : State) (c : DrainCause) : State :=
  match s.mode with
  | .fallow => s
  | .drain => if c = .latched then { s with modes := { s.modes with latchAfter := true } } else s
  | .priming | .flowing | .trickle | .survey =>
    let ends := s.jobs.map fun j => (j, s.jobCommitted j)
    let s := { s with mc := { s.mc with flipping := [] } }
    let s := (offOrder.filter fun d => !(d = 65 || d = 74 || d = 75)).foldl State.loseDomain s
    let lost := s.cross.any fun x => x.who = Master.lk && !s.domOn (keyDom x.key)
    let s := { s with cross := s.cross.filter fun x => x.who = Master.lk && s.domOn (keyDom x.key) && !x.job }
    let s := if lost then s.answer .busError else s
    let s := (s.settleAll ends).siloFreeze (c = .pin)
    let s := s.setMode .drain
    let s := s.wrB B.DEV R.DEV_MODE_WRITEBACK false
    let s := match c with
      | .power => s.wrB B.DEV R.DEV_RESET_CAUSE_DRAIN_POWER true
      | .latched => s.wrB B.DEV R.DEV_RESET_CAUSE_DRAIN_LATCHED true
      | .pin => s
    { s with modes := { s.modes with toPower := [], steps := [], failedDoms := [], asker := none, committed := false,
                                     drainCause := some c, latchAfter := s.modes.latchAfter || c = .latched,
                                     fatalAfter := s.modes.fatalAfter || s.modes.waiting.contains (Trigger.warm true),
                                     resetAfter := c = .pin, waiting := [], fetchPaused := true } }

/-! ### Warm reset (Table 4.9, R103, R104) -/

/-- What a register holds after a warm reset in a domain that stays on: RO and RS fields keep their value, all others
return to reset (R9). -/
def warmReg (a : Nat) (old : Word) : Word :=
  match descAt a with
  | none => regReset a
  | some d => BitVec.ofNat 32 (d.fields.foldl (fun v f =>
      if f.acc = .ro || f.acc = .rs then setBits v f.fld.hi f.fld.lo (bitsOf old.toNat f.fld.hi f.fld.lo) else v)
      (regReset a).toNat)

def keptWarm (d : Nat) : Bool := d = 0 || d = 65 || d = 74 || d = 75

/-- The faults at a warm reset: windows stop, sticky bits carry over, the log and the queue are lost (R423 to R426). -/
def State.warmFaults (s : State) : State :=
  let s := (List.range 352).foldl (fun s n =>
    if s.sticky n then (s.wrB (srcBase n) R.FLT_SRC_CARRIED true).wrB (srcBase n) R.FLT_SRC_WIN false else s) s
  { s with flt := { s.flt with windows := [], msgq := [], log := [], nextSeq := 0, notify := [], telem := [],
                               kickAt := s.now } }

/-! ### What a fault does (R423 to R425, Table 18.4) -/

/-- A Latched fault: ALIVE stops, and Drain at once; in Fallow the latched state at once (R48, R84, R430). -/
def State.latch (s : State) : State :=
  let s := s.stopAlive 3
  match s.mode with
  | .fallow => s.wrB B.DEV R.DEV_MODE_LATCHED true
  | _ => s.enterDrain .latched

/-- A block raises a fault: the collector takes the message, and a source that takes effect at severity Latched acts at
once. The message arrives without delay (assumption 7). -/
def State.raise (s : State) (src kind addr : Nat) : State :=
  let full := decide (256 ≤ s.flt.msgq.length)
  let s := (s.takeMsg { src := src, kind := kind, addr := addr }).kcuFault src
  if s.sev src = 4 || (full && s.sev 28 = 4) then s.latch else s

/-- What the Silo unwraps once it and the KCU are on (R359, R375): the slot 1 key, the vault key (made where none is stored
yet), and the keys of volumes that its slots do not hold. -/
def State.keysUp (s : State) : State :=
  if !s.domOn 74 || !s.domOn 77 then s
  else
    let kek := fun (s : State) i => tget (fun _ => []) s.keks i
    let unwrap := fun (k w : List Byte) => if k = [] || w = [] then none else Config.keyUnwrap false k w
    let k0 := kek s 0
    let s := match unwrap k0 s.vault.kek1 with
      | some k => if kek s 1 = [] then { s with keks := tput (fun _ => []) s.keks 1 k } else s
      | none => s
    let s := if s.silo.vaultKey || k0 = [] then s
      else if s.vault.key = [] then
        let (k, s) := s.drawBytes 32
        (s.onVault fun v => { v with key := Config.keyWrap false k0 k }).onSilo fun c => { c with vaultKey := true }
      else s.onSilo fun c => { c with vaultKey := (unwrap k0 s.vault.key).isSome }
    (s.silo.vols.filter fun e => e.2.live && !e.2.online).foldl (fun s e =>
      if (unwrap (kek s 1) e.2.key).isSome then s.setVol e.1 { e.2 with online := true } else s.raise 14 0 0) s

end Sys2Proof.Machine
end

