-- ==== Sys2Proof/Machine/Lanes.lean ====
section
/-! DEFINITION. The links of Ethernet ports and the modules in their cages (R114, R116, R121 to R123). -/
namespace Sys2Proof.Machine

/-! ### Links (R114, R116, R121) -/

/-- The lanes of a port. -/
def State.portLanes (s : State) (p : Nat) : List Nat := List.range' p (s.portWidth p)

/-- The port that a lane belongs to. -/
def State.portOfLane (s : State) (l : Nat) : Option Nat := (List.range 96).find? fun p => (s.portLanes p).contains l

/-- A frame is on its way out of a port. -/
def State.sending (s : State) (p : Nat) : Bool := decide (s.now < tget (fun _ => 0) s.eth.txEnd p)

/-- Local count at which a frame of `len` bytes that starts now has left, its 8-byte preamble included (R114). -/
def State.sentBy (s : State) (p len : Nat) : Nat := s.now + (8 * (len + 8) + s.portRate p - 1) / max 1 (s.portRate p)

/-- R114, R116: a link that was up goes down: counted, a frame in progress ended with an error block, its queues flushed, a Note
fault. A remote fault leaves the PCS aligned. -/
def State.linkDown (s : State) (p : Nat) (remote hiBer : Bool) : State :=
  let b := portBase p
  let s := if s.sending p then (s.emit (.abort p)).count (portCnt p C.ETH_TX_ABORT) else s
  let s := (s.wrB b R.ETH_PORT_STATUS_LINK_UP false).wrB b R.ETH_PORT_STATUS_ALIGNED remote
  let s := (s.wrB b R.ETH_PORT_STATUS_REMOTE_FAULT remote).wrB b R.ETH_PORT_STATUS_HI_BER hiBer
  let s := (s.wrB b R.ETH_PORT_STATUS_AN_DONE false).count (portCnt p C.ETH_LINK_DOWN)
  let s := { s with eth := { s.eth with xoffSent := tput (fun _ => 0) s.eth.xoffSent p 0,
                                        txEnd := tput (fun _ => 0) s.eth.txEnd p 0 } }
  let s := if remote then s else s.stamp (Tm.unaligned p)
  (s.flushPort p).raise (176 + 4 * portLG p) (p % 4) 0

/-- The recovered clock of a lane reaches the time unit: not squelched, and its port has been up for 1 ms (R121). -/
def State.laneClock (s : State) (l : Nat) : Bool :=
  !s.eth.squelched.contains l && (s.portOfLane l).any fun p => s.portUp p && s.due (Tm.linkUp p) (ms 1)

/-! ### Modules (R122, R123) -/

/-- R122: a module within the cage's budget is released from low power; otherwise MM_LPM stays asserted, the ports of the cage are
down, and a Note fault is raised. -/
def State.judgeModule (s : State) (g : Nat) : State :=
  match s.module g with
  | none => s
  | some w =>
    let budget := s.rd (B.ETH g) R.ETH_MOD_CFG_MOD_BUDGET
    if !s.domOn (domLG g) || s.eth.released.contains g then s
    else if w ≤ budget && budget ≠ 0 then
      { s with eth := { s.eth with released := s.eth.released ++ [g] } }.emit (.pin (mmPin g "LPM") false)
    else
      let s := ((List.range' (4 * g) 4).filter s.portUp).foldl (fun s p => s.linkDown p false false) s
      (s.emit (.pin (mmPin g "LPM") true)).raise (176 + 4 * g + 2) 0 0

/-- The modules of every powered lane group are judged, once the image's budgets are loaded. -/
def State.judgeModules (s : State) : State := (List.range 24).foldl State.judgeModule s

/-- The cage of a port holds no module that is kept in low power. -/
def State.moduleOk (s : State) (p : Nat) : Bool := (s.module (portLG p)).isNone || s.eth.released.contains (portLG p)

/-- What a write of an ETH register does at once: a new layout or lane rate takes the ports of the group down and fits their FEC,
a port that is disabled goes down, a new budget is tried on the module (R107, R115, R116, R122). -/
def State.laneWritten (s : State) (g x old : Nat) : State :=
  let lost := fun (s : State) (p : Nat) =>
    if s.flag (portBase p) R.ETH_PORT_STATUS_LINK_UP then s.linkDown p false false else s
  if x = 0 then
    if (s.reg (B.ETH g)).toNat = old then s else (List.range' (4 * g) 4).foldl lost (s.fitFec g)
  else if R.ETH_PORT_CFG_EN.off ≤ x && x < R.ETH_PORT_CFG_EN.off + 0x10 then
    let p := 4 * g + (x - R.ETH_PORT_CFG_EN.off) / 4
    if s.flag (portBase p) R.ETH_PORT_CFG_EN then s else lost s p
  else if x = R.ETH_MOD_CFG_MOD_BUDGET.off then s.judgeModule g
  else s

end Sys2Proof.Machine
end

