-- ==== Sys2Proof/Machine/Background.lean ====
section
/-! DEFINITION. The schedules of background work: ages, due, overdue and hard bounds (Table 18.7, R393, R435). -/
namespace Sys2Proof.Machine

/-- A stack holds 24 GiB (R383). -/
def stackSize : Nat := 24 * 2 ^ 30

/-- Blocks that the present pass of a stack's scrub has read, and when the pass began. -/
def State.scrubOf (s : State) (k : Nat) : Nat × Nat := tget (fun _ => (0, 0)) s.rsv.scrub k
def scrubBlocks : Nat := stackSize / 64

/-- Length of a pass at the normal rate, in ns. -/
def State.scrubPass (s : State) (k : Nat) : Nat := s.rd (B.RSV k) R.RSV_SCRUB_CFG_HOURS * ms 3600000

/-- R393: the scrub lags its even schedule; at its normal rate it could not finish within 24 h of the pass's start. -/
def State.scrubDue (s : State) (k : Nat) : Bool :=
  let x := s.scrubOf k
  decide (x.1 * s.scrubPass k ≤ (s.now - x.2) * scrubBlocks)
def State.scrubLate (s : State) (k : Nat) : Bool :=
  let x := s.scrubOf k
  decide (ms 86400000 * scrubBlocks < (s.now - x.2) * scrubBlocks + (scrubBlocks - x.1) * s.scrubPass k)

/-! ### The activities of Table 18.7 -/

/-- Entries that a parity-scrub pass reads in the powered domains. -/
def State.parityTotal (s : State) : Nat :=
  let n := fun lo k => ((List.range' lo k).filter s.domOn).length
  n 25 4 * (131072 + 98304 + 262144) + n 1 16 * (12 * 8192 * 2 + 2 * 3328) + n 17 8 * 2 * (6 * 8192 * 2 + 2 * 4608)

def State.bgLast (s : State) (a : Nat) : Nat := (tget (fun _ => ⟨0, false⟩) s.flt.bg a).last

/-- Stacks whose patrol scrub runs. -/
def State.scrubbed (s : State) : List Nat :=
  (List.range 4).filter fun k => s.domOn (65 + k) && s.flag (B.RSV k) R.RSV_SCRUB_CFG_EN

/-- Age of an activity in ns: since it last ran, or since its pass began; of a sweep or a calibration, that of the unit whose last one lies
furthest back. The capacity test's is the powered time since the last one; without a record of one it is due at once (R372). -/
def State.bgAge (s : State) (a : Nat) : Nat :=
  if a = 1 then (s.scrubbed.map fun k => s.now - (s.scrubOf k).2).foldl max 0
  else if a = 3 then
    (((List.range 4).filter s.sweeps).map fun q => s.sweepLate q + (s.sweepOf q).1 * s.agePeriod q / 131072).foldl max 0
  else if a = 4 then (((List.range 8).filter s.idleSwept).map fun t => s.now - (s.last (Tm.idle t)).getD 0).foldl max 0
  else if a = 6 then
    (((List.range 32).filter fun u => s.domOn (29 + u)).map fun u => s.now - (s.calOf u).1).foldl max 0
  else if a = 7 then
    (((List.range 80).filter fun d => metered d && s.domOn d).map fun d => s.now - (s.last (Tm.meterCal d)).getD 0).foldl max 0
  else if a = 8 then
    match s.cist.ageAt with
    | some t => s.cist.ageBase * ms 3600000 + (s.now - t)
    | none => (if s.cist.cm = 0 then 0 else 24 * ms 3600000) + (s.now - s.bgLast 8)
  else s.now - s.bgLast a

/-- The shortest export period that is enabled, in ns; 0 for none. -/
def State.telemPeriod (s : State) : Nat :=
  (s.flt.telem.filter (·.2.en)).foldl (fun x e => if x = 0 || e.2.period * ms 100 < x then e.2.period * ms 100 else x) 0

/-- Ages at which an activity is due, overdue, and at its hard bound, where the table gives them as times. -/
def State.bgBounds (s : State) (a : Nat) : Option (Nat × Nat × Nat) :=
  if a = 5 then some (ms 100, ms 1000, ms 10000)
  else if a = 6 || a = 7 then some (ms 10000, ms 15000, ms 20000)
  else if a = 8 || a = 9 then some (ms 86400000, ms 93600000, ms 172800000)
  else if a = 10 then (let p := s.telemPeriod; if p = 0 then none else some (p, 2 * p, 4 * p))
  else none

/-- Activity a is due, overdue, at its hard bound (levels 0 to 2) now. Activity 0 keeps its own account (R388). -/
def State.bgAt (s : State) (a level : Nat) : Bool :=
  if a = 0 then level = 0 && s.rsv.owed ≠ []
  else if a = 1 then s.scrubbed.any fun k =>
    if level = 0 then s.scrubDue k else if level = 1 then s.scrubLate k else decide (ms 86400000 ≤ s.now - (s.scrubOf k).2)
  else if a = 2 then
    let t := s.parityTotal
    let e := s.bgAge 2
    t ≠ 0 && (if level = 0 then decide (s.flt.parity * ms 480000 < e * t)
      else if level = 1 then decide (ms 600000 * t < e * t + (t - s.flt.parity) * ms 480000)
      else decide (ms 600000 ≤ e))
  else if a = 3 then (List.range 4).any fun q => s.sweeps q &&
    decide ([s.agePeriod q / 1024, s.agePeriod q / 64, s.agePeriod q / 8].getD level 0 < s.sweepLate q)
  else if a = 4 then level < 2 && (List.range 8).any fun t => s.idleSwept t &&
    decide ((level + 1) * s.idlePeriod t ≤ s.now - (s.last (Tm.idle t)).getD 0)
  else match s.bgBounds a with
    | none => false
    | some (d, o, h) => decide ((if level = 0 then d else if level = 1 then o else h) ≤ s.bgAge a)

/-- An activity that has caught up is overdue no more (R435). -/
def State.bgCaught (s : State) (a : Nat) : State := if s.bgOverdue a && !s.bgAt a 1 then s.bgRan a else s

/-- FLT_BG_DUE as a read shows it: the activities due or overdue. -/
def State.bgDueView (s : State) : Nat :=
  (s.reg (B.FLT + R.FLT_BG_OVERDUE_OVERDUE.off)).toNat ||| ((List.range 11).map fun a => bit (s.bgAt a 0) * 2 ^ a).sum

end Sys2Proof.Machine
end

