-- ==== Sys2Proof/Machine/Views.lean ====
section
/-! DEFINITION. What reads of registers show that no register stores: fills, counts, ages and states that hardware holds
elsewhere; and what a register takes from a write where its fields depend on more than their own range. -/
namespace Sys2Proof.Machine

/-! ### Reads (R54) -/

/-- SEED_STATUS, SEED_NQ and SIEV_STATUS (Tables 8.9 and 8.10): w is the window of quadrant q. -/
def State.tableView (s : State) (q w off stored : Nat) : Nat :=
  if w = 12 && off = 4 then sat 255 (s.seedCount q Seed.retired) * 2 ^ 24 + s.seedCount q Seed.valid
  else if w = 12 && off = 0xC then (tget (fun _ => []) s.tbl.notices q).length
  else if w = 13 && off = 4 then
    sat 255 (s.sieveRetired q) * 2 ^ 24
      + ((s.tbl.sieve.filter fun e => e.1 / 2 ^ 17 = q && Sieve.valid e.2).map fun e =>
          s.bankWidth q (e.1 % 2 ^ 17 / 6144)).sum
  else stored

/-- The egress registers of tailrace t that show queue state (Table 10.7). -/
def State.egressView (s : State) (t off stored : Nat) : Nat :=
  if 0x2000 ≤ off && off < 0x2900 then
    let k := (off - 0x2000) / 0x100
    let x := off % 0x100
    if x = 0xC then s.slotStatus t k
    else if 0x10 ≤ x && x < 0x90 && x % 0x10 = 0xC then sat 8191 (s.classFill t k ((x - 0x10) / 0x10))
    else stored
  else if off = R.TLR_LT_STATUS_FILL.off then s.launchFill t
  else stored

/-- The Weir's counts (Table 9.6). -/
def State.weirView (s : State) (off stored : Nat) : Nat :=
  if off = 4 then (s.weir.slotAt.filter fun t => decide (s.now < t + 1000)).length % 65536
  else if 0x20 ≤ off && off < 0x30 then s.sharedFree ((off - 0x20) / 4) / 4
  else if off = 0x3C then 2 ^ 22 - s.spillPages
  else stored

/-- HPT_ID and HPT_LINK of link m (Tables 11.10 and 11.11). -/
def State.linkView (s : State) (m off stored : Nat) : Nat :=
  if off = 4 then s.allot m * 256 + bit (bitOf s.image.bifur (m / 2)) * 16 + m % 2 * 8 + m / 2
  else if off = 8 then setBits stored 23 23 (bit (s.ptmOk m))
  else stored

/-- The status registers of queue pair q of plot p (Table 12.8). -/
def State.qpView (s : State) (p q off stored : Nat) : Nat :=
  let x := s.qp (qpKey p q)
  if off = 0 then
    if x.live then 2 ^ 31 + bit (decide (x.err ≠ 0)) * 2 ^ 30 + x.cls % 8 * 2 ^ 24 + x.err % 256 * 2 ^ 16
      + (x.txLog - 6) % 16 * 2 ^ 8 + (x.rxLog - 6) % 16 * 2 ^ 4
    else 0
  else if off = 4 then x.txCons
  else if off = 8 then x.rxCons
  else if off = 0xC then x.txc.prod
  else if off = 0x10 then x.rxc.prod
  else stored

/-- KCU_LOCK as master m sees it (R413). -/
def State.lockView (s : State) (m : Nat) : Nat :=
  bit (s.kcu.holder = some m) + 2 * bit (s.kcu.holder.any (· ≠ m))

/-- The word that a read of a register returns (R54): what it stores, or what hardware shows there. -/
def State.view (s : State) (key : Nat) : Nat :=
  let stored := (s.reg key).toNat
  let x := key % 0x1_0000
  if cntAt key then s.cnt key % 2 ^ 32
  else if key % 8 = 4 && cntAt (key - 4) then s.cnt (key - 4) / 2 ^ 32
  else if key < 0x10_0000 then
    let w := key / 0x1_0000
    if w = 2 then s.paceView x stored
    else if w = 3 then
      (if x = R.FLT_MSGQ_FILL.off then setBits stored 8 0 s.flt.msgq.length
       else if x = R.FLT_BG_DUE_DUE.off then s.bgDueView else stored)
    else if w = 5 then s.timeView x
    else if w = 6 then s.cistView x
    else stored
  else if key < 0x50_0000 then
    let q := (key - 0x10_0000) / 0x10_0000
    let w := (key - 0x10_0000) % 0x10_0000 / 0x1_0000
    if 4 ≤ w && w < 8 then s.egressView (4 * q + (w - 4)) x stored
    else s.tableView q w x stored
  else if key < 0x51_0000 then s.weirView x stored
  else if 0x80_0000 ≤ key && key < 0x88_0000 then
    if x < 0x2000 then s.linkView (2 * ((key - 0x80_0000) / 0x1_0000) + x / 0x1000) (x % 0x1000) stored else stored
  else if 0x90_0000 ≤ key && key < 0x94_0000 then
    if x = R.RSV_SCRUB_STAT_OVERDUE.off then
      let k := (key - 0x90_0000) / 0x1_0000
      setBits stored 31 31 (bit (s.scrubbed.contains k && s.scrubLate k))
    else stored
  else if 0xA0_0000 ≤ key && key < 0xA1_0000 then s.siloView x
  else if 0x1_0000_0000 ≤ key && key < 0x1_1000_0000 then s.tpgView ((key - 0x1_0000_0000) / 0x1_0000) x
  else if 0x1_1000_0000 ≤ key && key < 0x2_0000_0000 then
    let p := s.plotBase ((key - 0x1_1000_0000) / 0x1_0000)
    if x = R.PLOT_MGR_GEN_GEN.off then s.plotGen p % 65536
    else if 0x1000 ≤ x && x < 0x2000 then s.qpView p ((x - 0x1000) / 0x40) (x % 0x40) stored
    else stored
  else if 0x2_0000_0000 ≤ key && key < 0x2_4000_0000 then
    let p := (key - 0x2_0000_0000) / 0x1_0000
    if x = R.PLOT_GEN_GEN.off then s.plotGen p % 65536
    else if 0x1000 ≤ x && x < 0x2000 then s.qpView p ((x - 0x1000) / 0x40) (x % 0x40) stored
    else stored
  else if 0x5_0000_0000 ≤ key && key < 0x6_0000_0000 then
    if x = 0 then s.lockView ((key - 0x5_0000_0000) / 0x1_0000)
    else if 0x20 ≤ x && x < 0x60 then 0
    else stored
  else stored

/-! ### Writes (R11, R143, R179, R181, R235, R342, R395, R406, R422, R445, R470) -/

/-- PACE_VLIMIT after a write of value v: each field by its range, then both together or neither (R470). -/
def vlimitAfter (old v : Nat) : Nat :=
  let f := fun n o => if 580 ≤ n && n ≤ 860 then n else o
  let vmax := f (bitsOf v 31 16) (bitsOf old 31 16)
  let vmin := f (bitsOf v 15 0) (bitsOf old 15 0)
  if vmin ≤ vmax then vmax * 2 ^ 16 + vmin else old

/-- A write of the active bank's HUSK_START in Flowing or Trickle (R143). -/
def State.startFrozen (s : State) (key : Nat) : Bool :=
  let w := (key - 0x10_0000) % 0x10_0000 / 0x1_0000
  let x := key % 0x1_0000
  0x10_0000 ≤ key && key < 0x50_0000 && 8 ≤ w && w < 12 && (x = 4 || x = 8)
    && (s.mode = .flowing || s.mode = .trickle) && s.rd (key - x) R.HUSK_CFG_ACTIVE_BANK = (x - 4) / 4

/-- A field whose range depends on what else the register says: it keeps its old value above the range's end (R11). -/
def upTo (new old hi lo top : Nat) : Nat := if bitsOf new hi lo ≤ top then new else setBits new hi lo (bitsOf old hi lo)

/-- What a register of the quadrant windows takes from a write. -/
def State.coupleQuad (s : State) (key old new : Nat) : Nat :=
  let q := (key - 0x10_0000) / 0x10_0000
  let w := (key - 0x10_0000) % 0x10_0000 / 0x1_0000
  let x := key % 0x1_0000
  if 4 ≤ w && w < 8 && 0x2000 ≤ x && x < 0x2900 && x % 0x100 = 0 then
    let st := R.TLR_SLOT_CFG_STRICT
    (if ((List.range 8).filter (bitOf (bitsOf new st.hi st.lo))).length ≤ 3 then new
     else setBits new st.hi st.lo (bitsOf old st.hi st.lo))
  else if w < 8 && x = 0x10 then upTo new old 19 16 (if w < 4 then 11 else 5)
  else if 4 ≤ w && w < 8 && x = 0x40 then upTo new old 12 0 (if bitOf new 13 then 511 else 4095)
  else if w = 13 && x = 0 then s.bankCfgAfter q old new
  else if w = 13 && 0x100 ≤ x && x < 0x140 then (if s.profileOk q ((x - 0x100) / 4) new then new else old)
  else new

/-- What a register takes from a write, where fields of it depend on one another or on the state of its unit. -/
def State.couple (s : State) (key : Nat) (k : AccKind) (old v new : Nat) : Nat :=
  let x := key % 0x1_0000
  if key = B.PACE + 0x10 then (if s.isLocked key then old else vlimitAfter old (aliasValue k old v))
  else if key = B.DEV + R.DEV_RESET_CAUSE_COLD.off then (if k = .write then old - (old &&& (v % 128)) else old)
  else if key = B.SEC + R.SEC_LC_TORN.off then (if k = .write && bitOf v 7 then setBits old 7 7 0 else old)
  else if key = B.SEC + R.SEC_LC_CTRL_GO.off then
    (if (lcSigners s.lcState (bitsOf new 2 0)).isSome then setBits old 2 0 (bitsOf new 2 0) else old)
  else if B.FLT + 0x1000 ≤ key && key < B.FLT + 0x1580 then
    let n := (key - (B.FLT + 0x1000)) / 4
    (if srcReserved n then old else if sevFixed n then setBits new 2 0 (bitsOf old 2 0) else new)
  else if B.BMV + 0x2000 ≤ key && key < B.BMV + 0x3000 then
    let st := s.rd (key - key % 0x80) (⟨0x38, 31, 28⟩)
    (if st = 1 || st = 4 then old else new)
  else if B.HOP + 0x10 ≤ key && key < B.HOP + 0x60 && key % 8 = 0 then (if s.flag B.HOP R.HOP_CTRL_READY then old else new)
  else if 0x10_0000 ≤ key && key < 0x50_0000 then s.coupleQuad key old new
  else if 0x60_0000 ≤ key && key < 0x78_0000 && x = 0 then
    if s.lgCfgTakes ((key - 0x60_0000) / 0x1_0000) new then new else old
  else if B.WEIR + 0x10 ≤ key && key < B.WEIR + 0x20 && sharedCells (bitsOf new 7 0) (bitsOf new 31 16) < 65536 then old
  else if key = B.WEIR + R.WEIR_GRP_ADDR_INDEX.off && !bitOf new 16 then upTo new old 15 0 4095
  else if 0x60_0000 ≤ key && key < 0x78_0000 && 0x10 ≤ x && x < 0x20 && s.laneRate ((key - 0x60_0000) / 0x1_0000) ≠ 25 then
    setBits new 28 27 0
  else if 0x1_0000_0000 ≤ key && key < 0x1_1000_0000 && x < 8 then
    pageCouple x old new (s.flag (key - x) R.TIME_HP_PAGE_LO_EN)
  else if 0xC0_0000 ≤ key && key < 0xD0_0000 && (x = 0x10 || x = 0x14)
      && s.reg (key - x + R.LKP_HMB_INFLIGHT_TAGS.off) ≠ 0 then old
  else if 0x5_0000_0000 ≤ key && key < 0x6_0000_0000 && 0x20 ≤ x && x < 0x60 then
    (if s.kcu.holder = some ((key - 0x5_0000_0000) / 0x1_0000) then v % 2 ^ 32 else old)
  else new

end Sys2Proof.Machine
end

