-- ==== Sys2Proof/Machine/Access.lean ====
section
/-! DEFINITION. Register access: where an access lands, what grants it, what a write does, crossings between power
domains, wide values, locks, and the accesses of the application cores (R25, R26, R52 to R65, R463 to R466, R470). -/
namespace Sys2Proof.Machine

/-! ### Where an access lands -/

/-- The power domain of a master's access path (R56). -/
def pathDom : Master → Nat
  | .lk | .debug => 0
  | .silo => 74
  | .core n => 69 + n / 8
  | .host m _ => domHP m

/-- A resolved address: the register's key, and the image through which it is reached (R57). -/
structure Target where
  key : Nat
  kind : AccKind
  deriving DecidableEq, Repr

/-- The image that part i of an alias layout is. -/
def imageOf (i : Nat) : AccKind := if i = 0 then .write else if i = 1 then .set else if i = 2 then .clear else .toggle

/-- An offset of a 64 KiB window with the alias layout: the plain offset and the image (R57). -/
def windowTarget (base x : Nat) : Target := ⟨base + x % 0x4000, imageOf (x / 0x4000)⟩

/-- An internal address (Table 21.1). -/
def internalTarget (a : Nat) : Option Target :=
  if a < 0x100_0000 then some (windowTarget (a - a % 0x1_0000) (a % 0x1_0000))
  else if a < 0x180_0000 then
    some ⟨0x100_0000 + (a - 0x100_0000) % 0x20_0000, imageOf ((a - 0x100_0000) / 0x20_0000)⟩
  else none

/-- The copies of the KCU registers that each of its masters sees (R413). -/
def kcuMaster : Master → Option Nat
  | .lk => some 0
  | .silo => some 1
  | .debug => some 2
  | .core _ | .host _ _ => none

/-- An offset in PF0 BAR0 (Table 11.3, R465). -/
def pf0Target (m off : Nat) : Option Target :=
  let x := off % 0x1_0000
  let w := off / 0x1_0000
  if w = 0 then
    let y := x % 0x4000
    if y < 0x1000 then some ⟨B.HPT m + y, imageOf (x / 0x4000)⟩
    else if y < 0x1100 then some ⟨B.HPTC m + y, imageOf (x / 0x4000)⟩
    else none
  else if w = 1 then some (windowTarget (B.LKP m) x)
  else if w = 2 then some (windowTarget (B.TPG m) x)
  else if w = 3 then some (windowTarget (B.MGR m) x)
  else if w = 4 then some ⟨B.MSIX m 0 + x, .write⟩
  else if w = 5 then (if x < 0x4000 then some ⟨B.MSIX m 0 + 0xC000 + x, .write⟩ else none)
  else none

/-- An offset in a plot's VF BAR0 (Table 21.3, R466). -/
def State.vfTarget (s : State) (p off : Nat) : Option Target :=
  let y := off % 0x4000
  if 0x1_0000 ≤ off || 0x2400 ≤ y then none
  else if s.isStorage p then
    if off < 0x2000 then some ⟨B.NVME p + off, .write⟩
    else if y < 0x2000 then none else some (windowTarget (B.VF p) off)
  else if y < 0x1000 then none
  else some (windowTarget (B.VF p) off)

/-- A core's physical address in the register windows of its map (Table 1.3, R401, R404). -/
def coreTarget (n pa : Nat) : Option Target :=
  if 0x100_0000 + n * 0x400 ≤ pa && pa < 0x100_0000 + (n + 1) * 0x400 then
    some ⟨B.CMB n + (pa - 0x100_0000 - n * 0x400), .write⟩
  else if 0x102_0000 + n * 0x40 ≤ pa && pa < 0x102_0000 + (n + 1) * 0x40 then
    some ⟨B.HSLOT n + (pa - 0x102_0000 - n * 0x40), .write⟩
  else if 0x103_0000 ≤ pa && pa < 0x104_0000 then
    some ⟨B.BMV + 0x2000 + 0x80 * ((pa - 0x103_0000) / 0x800) + (pa - 0x103_0000) % 0x800, .write⟩
  else none

/-- Where an access of a master lands, if the address belongs to what that master reaches: of the internal map, the Silo
engine and the debug port reach the KCU alone (R25, R26, R413). -/
def State.resolve (s : State) (who : Master) (a : Addr) : Option Target :=
  match who, a with
  | .lk, .internal x | .silo, .internal x | .debug, .internal x =>
    match internalTarget x with
    | none => none
    | some t =>
      if B.KCU ≤ t.key && t.key < B.KCU + 0x4000 then
        (kcuMaster who).map fun k => { t with key := B.KCUM k + (t.key - B.KCU) }
      else if who = .lk then some t else none
  | .host m f, .pf0 m' off => if m = m' && f = 0 then pf0Target m off else none
  | .host m f, .vf p off => if s.plotOf m f = some p.val && f ≠ 0 then s.vfTarget p off else none
  | .core n, .core n' pa => if n = n' && (pa < 0x103_0000 || 0x104_0000 ≤ pa || (pa - 0x103_0000) % 0x800 < 0x80)
      then coreTarget n pa else none
  | _, _ => none

/-- The instance exists: an odd link number only on a bifurcated port (R64, R465), a port register only where such a
port starts (R125). -/
def State.unitExists (s : State) (key : Nat) : Bool :=
  if 0x80_0000 ≤ key && key < 0x88_0000 then
    let x := key % 0x1_0000
    s.linkExists (2 * ((key - 0x80_0000) / 0x1_0000) + (if x < 0x2000 then x / 0x1000 else (x - 0x2000) / 0x100))
  else if 0xC0_0000 ≤ key && key < 0xD0_0000 then s.linkExists ((key - 0xC0_0000) / 0x1_0000)
  else if 0x60_0000 ≤ key && key < 0x78_0000 then
    let g := (key - 0x60_0000) / 0x1_0000
    let x := key % 0x1_0000
    if 0x10 ≤ x && x < 0x30 then s.portWidth (4 * g + x / 4 % 4) ≠ 0
    else if 0x1000 ≤ x && x < 0x1400 then s.portWidth (4 * g + (x - 0x1000) / 0x100) ≠ 0
    else true
  else if 0x1_0000_0000 ≤ key && key < 0x2_0000_0000 then s.linkExists (key % 0x1000_0000 / 0x1_0000)
  else true

/-- What a memory-like range does with a write. -/
inductive MemLike where
  | rw | ro | refusesWrites
  /-- Write-only: reads return zero. -/
  | wo
  deriving DecidableEq, Repr

/-- The memory-like range that a key falls in (Tables 3.6, 3.14, 11.3, 13.8 and 17.7). -/
def memLike (key : Nat) : Option MemLike :=
  let x := key % 0x1_0000
  if 0xC0_0000 ≤ key && key < 0xD0_0000 then (if 0x1000 ≤ x && x < 0x2000 then some .rw else none)
  else if 0x2_0000_0000 ≤ key && key < 0x2_4000_0000 then
    (if 0x2100 ≤ x && x < 0x21E8 then some .rw else if 0x2200 ≤ x && x < 0x22F0 then some .ro else none)
  else if 0x3_0000_0000 ≤ key && key < 0x3_1000_0000 then
    (if x < 0x100 then some .rw else if x < 0x200 then some .refusesWrites else none)
  else if 0x4_0000_0000 ≤ key && key < 0x5_0000_0000 then (if x < 0x8000 then some .rw else some .ro)
  else if 0x5_0000_0000 ≤ key && key < 0x6_0000_0000 then
    (if 0x1000 ≤ x && x < 0x2000 then some .wo else if 0x2000 ≤ x && x < 0x3000 then some .ro else none)
  else none

/-- The bytes of an MSI-X range exist: the table to its Table Size, 256 bytes of PBA (R255, R256). -/
def State.msixOk (s : State) (key : Nat) : Bool :=
  if 0x4_0000_0000 ≤ key && key < 0x5_0000_0000 then
    let k := (key - 0x4_0000_0000) / 0x1_0000
    let x := key % 0x1_0000
    if x < 0x8000 then decide (x < 16 * s.tableSize (k / 512) (k % 512)) else decide (0xC000 ≤ x && x < 0xC100)
  else true

/-- A register or counter word lies at a key. -/
def wordAt (key : Nat) : Bool := (descAt key).isSome || cntAt key || (key % 8 = 4 && cntAt (key - 4))

/-- A documented wide pair has its low word at a key (Table 3.1). -/
def pairAt (key : Nat) : Bool :=
  key % 8 = 0 && (cntAt key || match descAt key with
    | some d => d.pair
    | none => false)

/-! ### Grants (R52, R53, R58) -/

def accIsRead : AccKind → Bool
  | .read => true
  | .write | .set | .clear | .toggle => false

/-- A write mask over the two words of a 64-bit alias write. -/
def aliasWordsOk (key size v : Nat) : Bool :=
  let ok := fun k v => match descAt k with
    | some d => aliasOk d v
    | none => v == 0
  ok key (v % 2 ^ 32) && (size ≠ 64 || ok (key + 4) (v / 2 ^ 32))

/-- The key of an NVMe controller register or doorbell (R466). -/
def nvmeKey (key : Nat) : Bool := decide (0x2_4000_0000 ≤ key) && decide (key < 0x3_0000_0000)

/-- An access is granted, its domain's power aside: existence, shape, alias rules (Table 3.1, R53, R58). -/
def State.shapeOk (s : State) (t : Target) (k : AccKind) (size v : Nat) : Bool :=
  s.unitExists t.key && s.msixOk t.key &&
  match memLike t.key with
  | some r =>
    t.kind = .write && memLike (t.key + size / 8 - 1) = some r &&
      (if 0x4_0000_0000 ≤ t.key && t.key < 0x5_0000_0000 then
          (size = 32 && t.key % 4 = 0) || (size = 64 && t.key % 8 = 0)
        else if accIsRead k then readShape size t.key true
        else r ≠ .refusesWrites && writeShape size t.key true)
  | none =>
    if nvmeKey t.key then
      wordAt t.key && t.kind = .write && (accIsRead k || k = .write)
        && ((size = 32 && t.key % 4 = 0) || (size = 64 && pairAt t.key && t.key % 0x1_0000 < 0x1000))
    else if accIsRead k then t.kind = .write && wordAt (t.key / 4 * 4) && readShape size t.key (pairAt t.key)
    else wordAt t.key && writeShape size t.key (pairAt t.key) && (t.kind = .write || aliasWordsOk t.key size v)

/-- A VF is bound to a plot that is configured and not being reset (R256, R313). -/
def State.vfBound (s : State) (m f : Nat) : Bool :=
  match s.plotOf m f with
  | some p => s.flag (B.PLOT p) R.PLOT_CFG_EN && s.rd (B.VF p) R.PLOT_STATE_STATE ≠ 3
  | none => false

/-- A host function answers memory requests: its link is up, Memory Space Enable is 1, it is in D0, and no FLR is in
progress (R259, R266). -/
def State.answers (s : State) (m f : Nat) : Bool :=
  s.linkExists m && s.linkUp m && (s.fn m f).mse && !(s.fn m f).d3 && (s.fn m f).flrAt.isNone && (s.fn m f).ready
    && (f = 0 || ((s.link m).vfEnable && decide (f ≤ (s.link m).numVFs) && s.vfBound m f))

/-- The master is there to make the access: a host through a function that answers, a core in a powered cluster, the debug
port in Survey while its path to the KCU is open (R413). -/
def State.reaches (s : State) : Master → Bool
  | .lk | .silo => true
  | .debug => s.mode = .survey && s.flag B.SEC R.SEC_DEBUG_KCU_DBG
  | .core n => s.domOn (69 + n / 8)
  | .host m f => s.answers m f

/-- A bulk-mover channel that a core reaches is granted to it (R404). -/
def State.channelOk (s : State) (who : Master) (key : Nat) : Bool :=
  match who with
  | .core n =>
    if B.BMV + 0x2000 ≤ key && key < B.BMV + 0x3000 then
      let g := (s.reg (B.BMV + R.BMV_GRANT_CORE.off + 4 * ((key - B.BMV - 0x2000) / 0x80))).toNat
      bitsOf g R.BMV_GRANT_OWNER.hi R.BMV_GRANT_OWNER.lo = 2 && bitsOf g 4 0 = n && bitOf g R.BMV_GRANT_EN.lo
    else true
  | _ => true

/-- A return from Trickle to Flowing is under way (R99). -/
def State.returning (s : State) : Bool := s.mode = .trickle && s.busy && s.rd B.DEV R.DEV_MODE_TARGET = Mode.flowing.code

/-- The Lockkeeper makes no write that the mode does not allow it: the ETH registers and WEIR_BUF_CFG are written in Priming and
Survey only (R109, R211), the pools of the Hopper during the return from Trickle too (R395). Such a write by REGISTER_WRITE is
refused (DESIGN CHOICE, assumption 10). -/
def State.modeTakes (s : State) (key : Nat) : Bool :=
  let pool := decide (B.HOP + 0x10 ≤ key) && decide (key < B.HOP + 0x50)
  !((0x60_0000 ≤ key && key < 0x78_0000) || (B.WEIR + 0x10 ≤ key && key < B.WEIR + 0x20) || pool)
    || s.mode = .priming || s.mode = .survey || (pool && s.returning)

/-- An access is granted. -/
def State.granted (s : State) (who : Master) (t : Target) (k : AccKind) (size v : Nat) : Bool :=
  s.reaches who && s.shapeOk t k size v && s.domOn (keyDom t.key) && s.channelOk who t.key
    && (accIsRead k || (!s.startFrozen t.key && s.modeTakes t.key))

/-! ### Refusals (R52, R258, R265) -/

/-- An error that a host port detects: logged in AER, with a Note message to the fault collector whose kind is the
status bit, 16 more for an uncorrectable one (R265). -/
def State.aerLog (s : State) (m : Nat) (uncorrectable : Bool) (b : Nat) : State :=
  let k := (if uncorrectable then 16 else 0) + b
  let l := s.link m
  let s := s.setLink m { l with aer := setBits l.aer k k 1 }
  s.raise (272 + 4 * m + (if uncorrectable then 1 else 0)) k 0

/-- AER uncorrectable status bits (PCIe base specification). -/
def aerCTO : Nat := 14
def aerUnexp : Nat := 16
def aerPoison : Nat := 12
def aerUR : Nat := 20
def aerSurprise : Nat := 5

/-- A host request refused under Table 11.5. -/
def State.refuseHost (s : State) (m : Nat) : State :=
  let s := (s.wrB (B.HPT m) R.HPT_ERR_UR_SENT true).count (B.HPTC m + C.HPT_UR_SENT)
  (s.aerLog m true aerUR).answer .ur

/-- A refused access, as its master sees it. -/
def State.refuse (s : State) (who : Master) : State :=
  match who with
  | .host m _ => if s.linkExists m && s.linkUp m then s.refuseHost m else s.answer .none
  | .lk | .silo | .debug | .core _ => s.answer .busError

/-! ### Values with a view of their own -/

/-- A master's window of the KCU: master and offset (R413). -/
def kcuKey (key : Nat) : Option (Nat × Nat) :=
  if 0x5_0000_0000 ≤ key && key < 0x6_0000_0000 then some ((key - 0x5_0000_0000) / 0x1_0000, key % 0x1_0000) else none

/-- The data of a granted read. -/
def State.readData (s : State) (key size : Nat) : Reply :=
  match memLike key with
  | some .wo => .data 0
  | some _ =>
    if (kcuKey key).any (fun k => s.kcu.holder ≠ some k.1) then .data 0
    else .data (leNat (bytesAt s.mem key (size / 8)))
  | none =>
    if size = 64 then .data (s.view key + 2 ^ 32 * s.view (key + 4))
    else .data (bitsOf (s.view (key / 4 * 4)) (8 * (key % 4) + size - 1) (8 * (key % 4)))

/-! ### Writes -/

/-- The counter that a selector register programs (Tables 18.12 and 18.13). -/
def selCnt (key : Nat) : Option Nat :=
  let x := key % 0x1_0000
  if B.PMC + 0x100 ≤ key && key < B.PMC + 0x140 then some (pmcCnt none ((key - B.PMC - 0x100) / 4))
  else if 0x10_0000 ≤ key && key < 0x50_0000 && key / 0x1_0000 % 16 < 8 && 0x3800 ≤ x && x < 0x3820 then
    some (key - x + C.GATE_PMC_CNT + 8 * ((x - 0x3800) / 4))
  else none

/-- A write that changes EVENT or MODE sets the counter to 0 (R431). -/
def State.selWritten (s : State) (key old : Nat) : State :=
  match selCnt key with
  | none => s
  | some c =>
    let new := (s.reg key).toNat
    if new % 256 = old % 256 && bitOf new 30 = bitOf old 30 then s else s.setCnt c 0

/-- LKP_HMB_STATUS.NORES shows that RESBASE_LO.EN is 0 (Table 3.5). -/
def State.updateNores (s : State) (m : Nat) : State :=
  s.wrB (B.LKP m) R.LKP_HMB_STATUS_NORES (!s.flag (B.LKP m) R.LKP_HMB_RESBASE_LO_EN)

/-- Base of a WIDE_SEL register set: the DEV block's, or that of PF0 of a link. -/
def wideBase : Option Link → Nat
  | none => B.DEV
  | some m => B.HPT m

/-- The wide pair that a WIDE_SEL address names, in a powered block of its address space. -/
def State.widePair (s : State) (w : Option Link) (addr : Nat) : Option Nat :=
  let t := match w with
    | none => internalTarget addr
    | some m => pf0Target m addr
  match t with
  | some t => if t.kind = .write && s.unitExists t.key && pairAt t.key && s.domOn (keyDom t.key) then some t.key else none
  | none => none

/-- R62: a write of WIDE_SEL clears VALID and ERR; an address that names no pair sets ERR. -/
def State.wideWritten (s : State) (w : Option Link) : State :=
  let b := wideBase w
  (s.wrB b R.WIDE_STAT_VALID false).wrB b R.WIDE_STAT_ERR (s.widePair w (s.rd b R.WIDE_SEL_ADDR)).isNone

/-! ### The Hopper's thresholds (Table 16.9) -/

def poolStat (i : Nat) : Nat := B.HOP + 4 * i

/-- FREE of a pool changes; LOW rises with a Note fault (Table 16.9). -/
def State.setPoolFree (s : State) (i n : Nat) : State :=
  let b := poolStat i
  let low := decide (n < s.rd b R.HOP_POOL_LOW_LOW)
  let was := s.flag b R.HOP_POOL_STAT_LOW
  let s := (s.wr b R.HOP_POOL_STAT_FREE n).wrB b R.HOP_POOL_STAT_LOW low
  if low && !was then s.raise 22 i 0 else s

/-- HOP_POOL_LOW of a pool has been written. -/
def State.lowWritten (s : State) (i : Nat) : State := s.setPoolFree i (s.rd (poolStat i) R.HOP_POOL_STAT_FREE)

/-- What else a write of value v to a register does at once: a mailbox doorbell (R66, R79), WIDE_SEL (R62), NORES of a mailbox
(Table 3.5), CC of an NVMe controller (R362), a cable feed (R340), EN of a time page (R342), EN of a Conduit connection, a pool's threshold, a counter's selector (R431). -/
def State.afterWrite (s : State) (key old v : Nat) : State :=
  let x := key % 0x1_0000
  if nvmeKey key && x = 0x14 then s.ccWritten ((key - 0x2_4000_0000) / 0x1_0000) old
  else if key = B.DEV + R.WIDE_SEL_ADDR.off then s.wideWritten none
  else if 0x80_0000 ≤ key && key < 0x88_0000 && x % 0x1000 = R.WIDE_SEL_ADDR.off && x < 0x2000 then
    s.wideWritten (some (Fin.ofNat 16 (2 * ((key - 0x80_0000) / 0x1_0000) + x / 0x1000)))
  else if B.TIME + 0x100 ≤ key && key < B.TIME + 0x240 && key % 0x10 = 0 then s.feedWritten ((key - B.TIME - 0x100) / 0x10) old
  else if 0x1_0000_0000 ≤ key && key < 0x1_1000_0000 && x = 0 then s.pageWritten ((key - 0x1_0000_0000) / 0x1_0000) old
  else if 0x60_0000 ≤ key && key < 0x78_0000 then s.laneWritten ((key - 0x60_0000) / 0x1_0000) x old
  else if 0xC0_0000 ≤ key && key < 0xD0_0000 && x = 0x10 then s.updateNores ((key - 0xC0_0000) / 0x1_0000)
  else if 0xC0_0000 ≤ key && key < 0xD0_0000 && x = R.LKP_HMB_DOORBELL_TAG.off then
    s.hostDoorbell (Fin.ofNat 16 ((key - 0xC0_0000) / 0x1_0000)) (Fin.ofNat 16 v)
  else if 0x3_0000_0000 ≤ key && key < 0x3_1000_0000 && x = 0x200 then
    s.coreDoorbell (Fin.ofNat 32 ((key - 0x3_0000_0000) / 0x1_0000))
  else if B.HOP + 0x80 ≤ key && key < B.HOP + 0xA0 then s.lowWritten ((key - B.HOP - 0x80) / 4)
  else if B.CND + 0x100 ≤ key && key < B.CND + 0x900 && key % 0x20 = 0 then s.connWritten ((key - B.CND - 0x100) / 0x20) old
  else if 0x10_0000 ≤ key && key < 0x50_0000 && key % 0x10_0000 = 0xC_0000 then
    (if bitsOf old 31 16 = s.rd key R.SEED_CFG_AGE_PERIOD then s else s.restartSweep ((key - 0x10_0000) / 0x10_0000))
  else if 0x10_0000 ≤ key && key < 0x50_0000 && 4 ≤ key / 0x1_0000 % 16 && key / 0x1_0000 % 16 < 8 && 0x2000 ≤ x && x < 0x2A00
      && x % 0x100 = 0 then
    s.restrict (4 * ((key - 0x10_0000) / 0x10_0000) + key / 0x1_0000 % 16 - 4) ((x - 0x2000) / 0x100) (bitsOf old 15 8)
      (s.rd key { R.TLR_SLOT_CFG_STRICT with off := 0 })
  else s.selWritten key old

/-- One register written through one image (R55, R57, R63). -/
def State.writeWord (s : State) (key : Nat) (k : AccKind) (v : Nat) : State :=
  match descAt key with
  | none => s
  | some d =>
    let old := (s.reg key).toNat
    let locked := s.isLocked key
    let new := if k = .write then regAfterWrite locked d old v else regAfterAlias d k old v
    let s := s.wrW key (s.couple key k old v new)
    let s := s.afterWrite key old v
    if locked && k = .write && d.fields.any (·.acc = .rwl) then s.raise 7 0 key else s

/-- A granted write takes effect at one instant. -/
def State.writeNow (s : State) (key : Nat) (k : AccKind) (size v : Nat) : State :=
  match memLike key with
  | some .rw | some .wo =>
    if (kcuKey key).any (fun k => s.kcu.holder ≠ some k.1) then s
    else
    let s := { s with mem := putBytes s.mem key (leBytes (size / 8) v) }
    if 0x4_0000_0000 ≤ key && key < 0x5_0000_0000 then
      s.msixRelease ((key - 0x4_0000_0000) / 0x1_0000 / 512) ((key - 0x4_0000_0000) / 0x1_0000 % 512)
    else s
  | some _ => s
  | none =>
    if size = 64 then (s.writeWord key k (v % 2 ^ 32)).writeWord (key + 4) k (v / 2 ^ 32)
    else s.writeWord key k (v % 2 ^ 32)

/-- A DEV_REG_READ or DEV_REG_WRITE ends (R76). -/
def State.regEnd (s : State) (j : RegJob) (f : Final) : State :=
  let s := { s with regJob := none }
  match s.jobs.find? fun x => x.q = j.q && x.mgen = j.mgen && (x.opcode = 0x0104 || x.opcode = 0x0105) with
  | some x => s.endJob x f
  | none => s.finishWith j.q f

/-- An access of a DEV_REG_READ or DEV_REG_WRITE is refused: BAD_ARGUMENT with the index of the word (R76). -/
def State.regRefused (s : State) : State :=
  match s.regJob with
  | none => s
  | some j => s.regEnd j (Final.mk' St.BAD_ARGUMENT 0 (leBytes 2 j.index))

/-- The crossing at the head of a master's queue is refused. -/
def State.refuseCrossing (s : State) (x : Crossing) : State :=
  let s := s.refuse x.who
  if x.job then s.regRefused else s

/-- An access that has reached its register. -/
def State.land (s : State) (x : Crossing) : State :=
  if !s.domOn (keyDom x.key) then s.refuseCrossing x
  else if accIsRead x.kind then s.answer (s.readData x.key x.size)
  else (s.writeNow x.key x.kind x.size x.v).answer .ok

/-! ### Crossings (R55, R56) -/

/-- The accesses of one master that wait, oldest first. -/
def State.waitingOf (s : State) (who : Master) : List Crossing := s.cross.filter (·.who = who)

/-- An access: refused, landed, or waiting behind a crossing of the same master. -/
def State.access (s : State) (who : Master) (a : Addr) (k : AccKind) (size v : Nat) : State :=
  match s.resolve who a with
  | none => s.refuse who
  | some t =>
    let img := if accIsRead k then .read else if k = .write then t.kind else k
    if !s.granted who t k size v then s.refuse who
    else
      let x : Crossing := { who := who, key := t.key, kind := img, size := size, v := v,
                            slow := keyDom t.key ≠ pathDom who, at_ := s.now, job := false }
      if x.slow || s.waitingOf who ≠ [] then { s with cross := s.cross ++ [x] }.answer .stalled
      else s.land x

/-- The fast accesses at the head of a master's queue land, and those into domains that are off are refused, up to the next one
that has to cross, whose crossing begins. -/
def State.landFast (s : State) : List Crossing → State
  | [] => s
  | x :: xs =>
    if x.slow && s.domOn (keyDom x.key) then
      { s with cross := s.cross.map fun y => if y = x then { x with at_ := s.now } else y }
    else ({ s with cross := s.cross.erase x }.land x).landFast xs

/-- The crossing at the head of a master's queue ends. -/
def State.endCrossing (s : State) (who : Master) (k : Crossing → State → State) : State :=
  match s.waitingOf who with
  | [] => s
  | x :: xs => (k x { s with cross := s.cross.erase x }).landFast xs

/-- Every access of a master that waits has crossed: what it does next takes effect after them (R55). -/
def State.catchUp (s : State) (who : Master) : State :=
  (s.waitingOf who).foldl (fun s x => { s with cross := s.cross.erase x }.land x) s

/-! ### The commands -/

/-- The core map has no alias images (R57). -/
def isCore : Master → Bool
  | .core _ => true
  | .lk | .silo | .debug | .host _ _ => false

/-- An alias image of a plain address, written (R57 to R59): only where the address has that image (R466). -/
def State.aliasAccess (s : State) (who : Master) (a : Addr) (k : AccKind) (size : Nat) (v : DWord) : State :=
  match s.resolve who a with
  | none => s.refuse who
  | some t =>
    let noAlias := t.kind ≠ .write || (memLike t.key).isSome || isCore who
      || nvmeKey t.key
    if noAlias || !aliasWordsOk t.key size v.toNat then s.refuse who else s.access who a k size v.toNat

def execAliasSetWrite (who : Master) (a : Addr) (size : Nat) (v : DWord) (s : State) : Res :=
  .next (s.aliasAccess who a .set size v)

def execAliasClearWrite (who : Master) (a : Addr) (size : Nat) (v : DWord) (s : State) : Res :=
  .next (s.aliasAccess who a .clear size v)

def execAliasToggleWrite (who : Master) (a : Addr) (size : Nat) (v : DWord) (s : State) : Res :=
  .next (s.aliasAccess who a .toggle size v)

/-! ### Wide values (R62) -/

/-- R62: a write of WIDE_SEL, by the Lockkeeper or by a host through PF0. -/
def execWideSelWrite (w : Option Link) (addr : Word) (s : State) : Res :=
  match w with
  | none => .next (s.access .lk (.internal (B.DEV + R.WIDE_SEL_ADDR.off)) .write 32 addr.toNat)
  | some m =>
    let s := s.catchUp (.host m 0)
    if !s.answers m 0 then .next (s.refuse (.host m 0))
    else .next ((s.writeWord (B.HPT m + R.WIDE_SEL_ADDR.off) .write addr.toNat).answer .ok)

/-- R62: the pair that WIDE_SEL names is latched at one instant. -/
def execWideLatchDone (w : Option Link) (s : State) : Res :=
  let b := wideBase w
  if s.flag b R.WIDE_STAT_VALID || s.flag b R.WIDE_STAT_ERR then .next s
  else match s.widePair w (s.rd b R.WIDE_SEL_ADDR) with
    | none => .next s
    | some k => .next (((s.wrW (b + R.WIDE_LO_LO.off) (s.view k)).wrW (b + R.WIDE_HI_HI.off) (s.view (k + 4))).wrB b
        R.WIDE_STAT_VALID true)

/-! ### Locked settings -/

/-- R470: a plain write of PACE_VLIMIT by the Lockkeeper. -/
def execPaceVlimitWrite (v : Word) (s : State) : Res :=
  .next (s.access .lk (.internal (B.PACE + 0x10)) .write 32 v.toNat)

/-- The register and the field of a lock bit (Table 3.3). -/
def lockField : Lock → Nat × RegField
  | .vlock => (B.PACE, R.PACE_LOCK_VLOCK)
  | .clock => (B.CIST, R.CIST_LOCK_CLOCK)
  | .lclock => (B.SEC, R.SEC_LOCK_LCLOCK)
  | .hlock => (B.TIME, R.TIME_LOCK_HLOCK)

/-- R63: a write of a lock register: 1 sets the lock bit, and nothing but a cold or warm reset clears it. -/
def execLockBitWrite (l : Lock) (v : Word) (s : State) : Res :=
  .next (s.access .lk (.internal ((lockField l).1 + (lockField l).2.off)) .write 32 v.toNat)

/-! ### Accesses of the application cores (R26) -/

/-- The byte memory behind a range of a core's map, and whether the core may write it. The Hopper pool space and core
memory are backed by the Reservoir while the core's stacks are on. -/
def State.coreMemory (s : State) (n pa len : Nat) : Option (Nat × Bool) :=
  if pa + len ≤ 0x1_0000 then some (B.BOOT (n / 8) + pa, false)
  else if 0x101_0000 ≤ pa && pa + len ≤ 0x101_0100 then some (B.CTP + (pa - 0x101_0000), false)
  else if 0x105_0000 ≤ pa && pa + len ≤ 0x106_0000 then some (B.CPMC n + (pa - 0x105_0000), true)
  else if 0x1_0000_0000 ≤ pa && pa + len ≤ 0x1_8000_0000 then some (B.POOLM + (pa - 0x1_0000_0000), true)
  else if 0x4_0000_0000 ≤ pa && pa + len ≤ 0x4_0000_0000 + s.coreMemLen then some (B.CMEM + (pa - 0x4_0000_0000), true)
  else none

/-- R26: an access of core n at a physical address, a load of `len` bytes or a store of bytes. A store to the core
Channel doorbells only lands there; its effect is the doorbell row's. A load of poisoned memory is a bus error (Table 16.3). -/
def execCoreBusAccess (n : CoreIx) (pa len : Nat) (wr : Option (List Byte)) (s : State) : Res :=
  let len := match wr with
    | some bs => bs.length
    | none => len
  if !s.domOn (69 + n / 8) || len = 0 then .next (s.refuse (.core n))
  else match s.coreMemory n pa len, wr with
    | some (k, true), some bs =>
      let s := s.catchUp (.core n)
      .next ((s.putCore k bs).answer .ok)
    | some (_, false), some _ => .next (s.refuse (.core n))
    | some (k, _), none =>
      let s := s.catchUp (.core n)
      .next (if s.corePoisoned k len then s.refuse (.core n) else s.answer (.bytes (bytesAt s.mem k len)))
    | none, some bs =>
      if 0x104_0000 ≤ pa && pa + len ≤ 0x105_0000 then
        .next (if len = 8 && pa % 8 = 0 then s.answer .ok else s.refuse (.core n))
      else .next (s.access (.core n) (.core n pa) .write (8 * len) (leNat bs))
    | none, none => .next (s.access (.core n) (.core n pa) .read (8 * len) 0)

end Sys2Proof.Machine
end

