-- ==== Sys2Proof/Machine/Bells.lean ====
section
/-! DEFINITION. Channel rings, what every part of the device uses of them: DMA windows, the dirty-page log, completions and
interrupts, doorbells and their release (R261, R277 to R279, R282, R297, R298, R315 to R317). -/
namespace Sys2Proof.Machine

def ringKeyOf : RingId → Nat
  | .plot p q => qpKey p q
  | .core r => coreRingKey r

def isCoreRing (r : Nat) : Bool := decide (2 ^ 20 ≤ r)

def State.onQp (s : State) (r : Nat) (f : Qp → Qp) : State := s.setQp r (f (s.qp r))

/-! ### DMA windows (R261, R304) -/

/-- A byte range lies inside one window of a plot with the access needed. -/
def State.windowOk (s : State) (p addr len : Nat) (wr : Bool) : Bool :=
  (List.range 16).any fun w =>
    let b := B.PLOT p + 0x10 * w
    let base := s.rd b R.PLOT_WIN_LO_ADDR * 4096 + s.rd b R.PLOT_WIN_HI_ADDR * 2 ^ 32
    let pages := s.rd b R.PLOT_WIN_PAGES_PAGES
    pages ≠ 0 && s.flag b (if wr then R.PLOT_WIN_LO_W else R.PLOT_WIN_LO_R)
      && decide (base ≤ addr) && decide (addr + len ≤ base + pages * 4096)

/-- A request refused by the window check, counted at the plot's link (R261). -/
def State.windowErr (s : State) (p : Nat) : State :=
  match s.fnOfPlot p with
  | none => s
  | some (m, _) => (s.wrB (B.HPT m) R.HPT_ERR_WINDOW_ERR true).count (B.HPTC m + C.HPT_WINDOW_ERR)

/-- The range test of a ring: a plot's windows, or core memory and Hopper pool space (R261, R300). -/
def State.ringRange (s : State) (r addr len : Nat) (wr : Bool) : Bool :=
  if isCoreRing r then (match s.coreMemory 0 addr len with
    | some (_, true) => true
    | _ => false)
  else s.windowOk (r / 64) addr len wr

def State.rangeErr (s : State) (r : Nat) : State := if isCoreRing r then s else s.windowErr (r / 64)

/-- The log of a failed device read (R262, R265, Table 11.6). -/
def State.logDma (s : State) (m : Nat) (e : DmaEnd) : State :=
  match e with
  | .ok | .ur => s
  | .timeout => ((s.wrB (B.HPT m) R.HPT_ERR_CTO true).count (B.HPTC m + C.HPT_CTO_EVENTS)).aerLog m true aerCTO
  | .poisoned => ((s.wrB (B.HPT m) R.HPT_ERR_POISON_CPL true).count (B.HPTC m + C.HPT_POISON_CPL)).aerLog m true aerPoison

/-- A command's buffer: host memory, which the Lockkeeper fetches by reads of PF0 (R72), or a core's memory (R207). A buffer outside
PF0's windows is not fetched (R261), and while Bus Master Enable is 0 nothing is, so that the command waits (R259). -/
def State.withBuffer (s : State) (q : Req) (addr len : Nat) (buf : Fetch) (fail : State → State) (k : List Byte → State → State) :
    State :=
  match q with
  | .core n =>
    match s.coreMemory n addr len with
    | some x => k (bytesAt s.mem x.1 len) s
    | none => fail s
  | .host m _ =>
    if !(s.fn m 0).bme then s
    else if len ≠ 0 && !s.windowOk (s.plotBase m) addr len false then fail (s.windowErr (s.plotBase m))
    else
      let s := s.issueRead m 0 addr len
      match buf with
      | .ok l => k (fit len l) s
      | .ur | .window => fail s
      | .timeout => fail (s.logDma m .timeout)
      | .poisoned => fail (s.logDma m .poisoned)

/-- The link and function of a ring. -/
def State.ringFn (s : State) (r : Nat) : Option (Nat × Nat) := if isCoreRing r then none else s.fnOfPlot (r / 64)

def State.logRing (s : State) (r : Nat) (e : DmaEnd) : State :=
  match s.ringFn r with
  | some (m, _) => s.logDma m e
  | none => s

/-! ### The dirty-page log (R315 to R317) -/

/-- One page recorded, unless the filter holds it or the ring is full. -/
def State.logPage (s : State) (p page : Nat) : State :=
  let b := B.PLOT p
  let x := s.plot p
  if !s.flag b R.PLOT_LOG_CTRL_LOGGING || x.filter.contains page || s.flag b R.PLOT_LOG_CTRL_LOG_OVF then s
  else
    let prod := s.rd b R.PLOT_LOG_PROD_PROD
    let size := 2 ^ s.rd b R.PLOT_LOG_CTRL_LOG_SIZE
    if size ≤ (prod + 2 ^ 32 - x.logCons) % 2 ^ 32 then s.wrB b R.PLOT_LOG_CTRL_LOG_OVF true
    else match s.fnOfPlot p with
      | none => s
      | some (m, _) =>
        let base := s.rd b R.PLOT_LOG_LO_BASE * 4096 + s.rd b R.PLOT_LOG_HI_BASE * 2 ^ 32
        let rec_ := page * 4096 + (1 - prod / size % 2)
        let s := s.postWrite m 0 (base + 8 * (prod % size)) (leBytes 8 rec_)
        let f := x.filter ++ [page]
        (s.setPlot p { x with filter := f.drop (f.length - 1024) }).wr b R.PLOT_LOG_PROD_PROD (prod + 1)

/-- The records of a write, before the write. -/
def State.logWrite (s : State) (p addr len : Nat) : State :=
  if len = 0 then s
  else (List.range' (addr / 4096) ((addr + len - 1) / 4096 + 1 - addr / 4096)).foldl (fun s g => s.logPage p g) s

/-- A write for a ring: posted by the plot's function with its log records, or into core memory. -/
def State.ringWrite (s : State) (r addr : Nat) (data : List Byte) : State :=
  if isCoreRing r then (match s.coreMemory 0 addr data.length with
    | some (k, true) => s.putCore k data
    | _ => s)
  else match s.fnOfPlot (r / 64) with
    | none => s
    | some (m, f) => (s.logWrite (r / 64) addr data.length).postWrite m f addr data

/-! ### Completion rings and interrupts (R277, R282, R297) -/

/-- The transmit or the receive completion ring. -/
def Qp.side (x : Qp) (rx : Bool) : CplRing := if rx then x.rxc else x.txc
def Qp.setSide (x : Qp) (rx : Bool) (c : CplRing) : Qp := if rx then { x with rxc := c } else { x with txc := c }
def Qp.log (x : Qp) (rx : Bool) : Nat := if rx then x.rxLog else x.txLog

/-- VEC, COUNT and USECS of a completion ring; a core ring has the reset settings. -/
def State.irqOf (s : State) (r : Nat) (rx : Bool) : Nat × Nat × Nat :=
  if isCoreRing r then (0, 1, 0)
  else
    let b := s.qpRegs (r / 64) (r % 64)
    if rx then (s.rd b R.PLOT_QP_RXC_IRQ_VEC, s.rd b R.PLOT_QP_RXC_IRQ_COUNT, s.rd b R.PLOT_QP_RXC_IRQ_USECS)
    else (s.rd b R.PLOT_QP_TXC_IRQ_VEC, s.rd b R.PLOT_QP_TXC_IRQ_COUNT, s.rd b R.PLOT_QP_TXC_IRQ_USECS)

/-- The message of a ring: MSI-X on its vector, or the core's ring interrupt. -/
def State.ringIrq (s : State) (r : Nat) (rx : Bool) : State :=
  if isCoreRing r then s.emit (.ringIrq (r - 2 ^ 20))
  else match s.fnOfPlot (r / 64) with
    | none => s
    | some (m, f) => s.interrupt m f (s.irqOf r rx).1

/-- Local count at which the oldest of the N completions was written. -/
def CplRing.oldest (c : CplRing) : Nat := c.times.getD (c.times.length - c.n) 0

/-- R297: the message goes out where its conditions hold. -/
def State.checkIrq (s : State) (r : Nat) (rx : Bool) : State :=
  let c := (s.qp r).side rx
  let (_, count, usecs) := s.irqOf r rx
  if c.armed && decide (1 ≤ c.n) && (decide (count ≤ c.n) || decide (us usecs ≤ s.now - c.oldest)) then
    (s.onQp r fun x => x.setSide rx { x.side rx with armed := false, n := 0 }).ringIrq r rx
  else s

/-- A queue pair enters error (R298). -/
def State.ringError (s : State) (r cause : Nat) : State :=
  if (s.qp r).err ≠ 0 then s else (s.onQp r fun x => { x with err := cause }).ringIrq r false

/-- The fields of a completion (Table 12.4). -/
structure Cpl where
  time : Nat
  frac : Nat
  index : Nat
  len : Nat
  hash : Nat
  csum : Nat
  sa : Nat
  status : Nat
  posts : Nat
  flags : Nat
  cls : Nat
  deriving DecidableEq, Repr

def Cpl.bytes (c : Cpl) (phase : Nat) : List Byte :=
  leBytes 8 c.time ++ leBytes 2 c.frac ++ leBytes 2 c.index ++ leBytes 4 (c.len % 2 ^ 19) ++ leBytes 4 c.hash ++ leBytes 2 c.csum
    ++ leBytes 2 c.sa ++ leBytes 1 c.status ++ leBytes 1 c.posts ++ leBytes 2 c.flags ++ leBytes 3 0
    ++ leBytes 1 (phase * 128 + c.cls % 8 * 16)

/-- One completion written to a ring, and its interrupt considered; a ring that no window covers puts the pair in
error (R282, R298, R304). -/
def State.writeCpl (s : State) (r : Nat) (rx : Bool) (c : Cpl) : State :=
  let x := s.qp r
  let y := x.side rx
  let size := 2 ^ x.log rx
  if x.err ≠ 0 then s
  else if !s.ringRange r y.base (32 * size) true then s.ringError r 2
  else
    let s := s.ringWrite r (y.base + 32 * (y.prod % size)) (c.bytes (1 - y.prod / size % 2))
    let z := { y with prod := (y.prod + 1) % 2 ^ 32, n := y.n + 1, times := y.times ++ [s.now] }
    (s.onQp r fun x => x.setSide rx z).checkIrq r rx

/-- R297: the oldest completion of an armed ring has waited USECS. -/
def execIrqModerationTimeout (r : RingId) (rx : Bool) (s : State) : Res :=
  .next (if (s.qp (ringKeyOf r)).live && (s.qp (ringKeyOf r)).err = 0 then s.checkIrq (ringKeyOf r) rx else s)

/-! ### Doorbells (R278, R279) -/

/-- PLOT_STATE of a plot (Table 13.8): FREE while it is not configured. -/
def State.plotState (s : State) (p : Nat) : Nat :=
  if s.flag (B.PLOT p) R.PLOT_CFG_EN then s.rd (B.VF p) R.PLOT_STATE_STATE else 0

/-- Network descriptor work of a plot stands still: paused, in Survey, or Bus Master Enable 0 (R101, R259, R318). -/
def State.plotHeld (s : State) (p : Nat) : Bool :=
  s.plotState p ≠ 1 || s.modes.fetchPaused || s.mode = .survey ||
    match s.fnOfPlot p with
    | some (m, f) => !(s.fn m f).bme
    | none => true

def State.ringHeld (s : State) (r : Nat) : Bool := !isCoreRing r && s.plotHeld (r / 64)

/-- The receive ring that a packet is for. -/
def State.ringFor (s : State) (p : EPkt) : Nat :=
  let tg := bitsOf p.dest 11 0
  if p.slot = 9 then coreRingKey tg else plotRing tg (s.rxQueue tg (bitsOf p.dest 19 12) (Carry.flowHash p.carry))

/-- A packet that its ring will drop, or that has a free post (R28, R237, R298). -/
def State.ringTakes (s : State) (p : EPkt) : Bool :=
  let x := s.qp (s.ringFor p)
  (p.slot = 8 && p.gen ≠ s.plotGen (bitsOf p.dest 11 0)) || !x.live || x.err ≠ 0 || x.postFree

def EgrSt.plotHead (x : EgrSt) (c l : Nat) : Option EPkt :=
  x.q.find? fun p => p.slot = 8 && p.cls = c && p.plot = l && p.launch.isNone

/-- Heads of slot 8 without a free post wait from now on (R237). -/
def State.markWaits (s : State) (t : Nat) : State :=
  let x := s.egress t
  s.setEgress t { x with q := x.q.map fun p =>
    if p.slot = 8 && x.plotHead p.cls p.plot = some p then
      { p with since := if s.ringTakes p then none else some (p.since.getD s.now) }
    else p }

/-- Heads that wait for posts are looked at again in every tailrace. -/
def State.updateWaits (s : State) : State := s.egr.foldl (fun s e => s.markWaits e.1) s

/-- Steps 3 to 5 of R279: doorbell k (0 TX, 1 RX, 2 TXC, 3 RXC). -/
def State.ringBell (s : State) (r k v : Nat) : State :=
  let x := s.qp r
  let n := v % 2 ^ 32
  let size := 2 ^ x.log (k % 2 = 1)
  if k = 0 then
    if size < (n + 2 ^ 32 - x.txCons) % 2 ^ 32 then s.ringError r 1 else s.onQp r fun x => { x with txProd := n }
  else if k = 1 then
    if size < (n + 2 ^ 32 - x.rxCons) % 2 ^ 32 then s.ringError r 1
    else (s.onQp r fun x => { x with rxProd := n }).updateWaits
  else
    let rx := k = 3
    let y := x.side rx
    let left := (y.prod + 2 ^ 32 - n) % 2 ^ 32
    if size < left then s.ringError r 1
    else
      let arm := bitOf v 32
      let keep := max left (if arm then left else y.n)
      let y := { y with cons := n, armed := y.armed || arm, n := if arm then left else y.n,
                        times := y.times.drop (y.times.length - keep) }
      ((s.onQp r fun x => x.setSide rx y).checkIrq r rx).updateWaits

/-- A doorbell value (R279); held while the plot's work stands still. -/
def State.doorbellRing (s : State) (r k v : Nat) : State :=
  let x := s.qp r
  if !x.live || x.err ≠ 0 then s
  else if !isCoreRing r && v / 2 ^ 48 ≠ s.plotGen (r / 64) % 2 ^ 16 then
    s.bump (s.qpRegs (r / 64) (r % 64)) R.PLOT_QP_EVENTS_DB_STALE
  else if s.ringHeld r then s.onQp r fun x => { x with heldDb := x.heldDb.filter (·.1 ≠ k) ++ [(k, v)] }
  else s.ringBell r k v

/-- The held doorbells of a ring are acted on. -/
def State.releaseBells (s : State) (r : Nat) : State :=
  let l := (s.qp r).heldDb
  if l = [] || s.ringHeld r then s
  else l.foldl (fun s e => if (s.qp r).err = 0 then s.ringBell r e.1 e.2 else s) (s.onQp r fun x => { x with heldDb := [] })

/-- Every queue pair of a plot. -/
def State.releasePlot (s : State) (p : Nat) : State :=
  ((s.qps.filter fun e => e.1 < 2 ^ 20 && e.1 / 64 = p).map (·.1)).foldl State.releaseBells s

/-- Every queue pair whose work no longer stands still. -/
def State.releaseAll (s : State) : State :=
  ((s.qps.filter fun e => e.1 < 2 ^ 20).map (·.1)).foldl State.releaseBells s

end Sys2Proof.Machine
end

