-- ==== Sys2Proof/Machine/Transitions.lean ====
section
/-! DEFINITION. The transitions between modes (Tables 4.2 and 4.7): switching domains off while the device runs, the warm
reset, Trickle, Survey, the return to Flowing, and what escalation triggers (R29, R49, R56, R82 to R100, R103, R128). -/
namespace Sys2Proof.Machine

/-! ### Switching off (R29, R49, R56, R128) -/

/-- Long reach ends in every Husker: LONG_REACH cleared, and every LR_ACTIVE 0 (R128). -/
def State.endLongReach (s : State) : State :=
  (List.range 16).foldl (fun s h =>
    (s.wrB (B.HUSK h) R.HUSK_CFG_LONG_REACH false).wrB (B.HUSK h) R.HUSK_STATUS_LR_ACTIVE false) s

/-- A domain is switched off. An access that is crossing into it is refused at that moment, and the next access of its master
goes on; before PD79 goes off, long reach ends (R56, R128). -/
def State.switchOff (s : State) (d : Nat) : State :=
  if d = 0 || !s.domOn d then s
  else
    let heads := s.cross.filter fun x => keyDom x.key = d && (s.waitingOf x.who).head? = some x
    let s := (if d = 79 then s.endLongReach else s).loseDomain d
    heads.foldl (fun s x => if (s.waitingOf x.who).head? = some x then s.endCrossing x.who fun y s => s.refuseCrossing y else s) s

def State.switchOffAll (s : State) (ds : List Nat) : State := ds.foldl State.switchOff s

/-! ### Triggers and the modes that they lead to (Tables 4.2 and 4.7, R82, R85, R93 to R100) -/

/-- The steps of Priming that are left when another mode is entered: in Survey all that have not passed go on; in Trickle the
vault restore does, and a failed training is remembered. -/
def stepsKept (m : Mode) (l : List (Step × StepSt)) : List (Step × StepSt) :=
  l.filter fun e => e.2 ≠ .done && (m = .survey || e.1 = .restore || (e.1 = .hbmTraining && e.2 = .failed))

/-- Descriptor fetch goes on, and the doorbells that were held are acted on (R101, Table 4.7). -/
def State.resumeFetch (s : State) : State :=
  ({ s with modes := { s.modes with fetchPaused := false } }.releaseAll).updateWaits

/-- The new mode is entered: the MODE_SET that asked becomes DONE, and fetch runs again where the mode lets it. In Flowing
PD79 is off, and with it every domain that is not configured; in Survey every such domain but PD79 (Table 4.1). Long reach ends
on the way out of the modes that allow it (R128). The firmware
sets LCLOCK when it leaves Priming (R445). -/
def State.enterMode (s : State) (m : Mode) : State :=
  let s := if s.mode = .priming then s.wrB B.SEC R.SEC_LOCK_LCLOCK true else s
  let s := if s.mode = .flowing then s else s.endLongReach
  let off := fun d => !s.configured d && (m = .flowing || (m = .survey && d ≠ 79)) || (m = .flowing && d = 79)
  let s := s.switchOffAll (offOrder.filter off)
  let s := s.setMode m
  let s := { s with modes := { s.modes with committed := false, failedDoms := [] } }.setSteps (stepsKept m s.modes.steps)
  let s := if m = .survey then { s with modes := { s.modes with fetchPaused := true } } else s.resumeFetch
  (s.endJobs 0x0701 0 (Final.mk' St.DONE 0 [])).updateWriteback

/-- Descriptor and submission fetch pauses and forwarding queues outside TR0 are flushed (Table 4.7, R100). -/
def State.pauseForwarding (s : State) : State :=
  { s with modes := { s.modes with fetchPaused := true } }.flushForwarding

/-- The steps of a return from Trickle: domains on, stacks trained, the image loaded (R99). -/
def State.returnSteps (s : State) (on : List Nat) : State :=
  let rest := s.modes.steps.filter fun e => e.1 = .restore
  if on = [] then s.setSteps rest
  else (s.setSteps (rest ++ [(.domains, .waiting), (.hbmTraining, .waiting), (.load, .waiting)])).queueOn on

/-- Step 4 of R100, once what was to be destaged is on the drives: PD79 goes on. From Trickle the other configured domains go
on with it, as at a return to Flowing (Table 4.1). Nothing is switched off here; this switching is the commit point that R93
leaves unsaid (DESIGN CHOICE, assumption 35). -/
def State.surveyOn (s : State) : State :=
  let back := s.mode = .trickle
  let on := onOrder.filter fun d => (d = 79 || (back && s.configured d)) && !s.domOn d
  let s := { s with modes := { s.modes with committed := true } }
  if back then s.leaveTrickle.returnSteps on else s.queueOn on

/-- A running transition goes as far as it can: every target waits for the domains that are being switched on, Survey for the
destage first, Survey and Flowing for the steps of a return from Trickle (R93, R97, R99, R100). Domains that do not reach power
good, and steps that fail, hold nothing up (R88). -/
def State.advance (s : State) : State :=
  let ready := fun (s : State) => s.modes.toPower = []
    && (s.mode = .priming || [Step.domains, .hbmTraining, .load].all (stepEnded s.modes.steps))
  if !s.busy then s
  else match Mode.ofCode (s.rd B.DEV R.DEV_MODE_TARGET) with
    | .survey =>
      if s.modes.committed then (if ready s then s.enterMode .survey else s)
      else if s.mode ≠ .priming && s.dirtyBlocks ≠ 0 then s
      else
        let s := s.surveyOn
        if ready s then s.enterMode .survey else s
    | .trickle => if s.modes.toPower = [] then s.trickleProgram.enterMode .trickle else s
    | .flowing => if ready s then s.enterMode .flowing else s
    | .priming | .drain | .fallow => s

/-- Trickle: fetch paused, queues flushed, every domain outside the Trickle set off, the connections of the Conduit down, the rest
of the set queued for switch-on but for what has failed (R88, R94, R99, Table 4.7). Entered from Survey, the Lockkeeper first
rewrites the registers (R82); entered from Priming before the load, it loads the settings of the domains that are on (DESIGN
CHOICE, assumption 35). -/
def State.beginTrickle (s : State) : State :=
  let s := if s.mode = .survey then s.rewriteFromImage
    else if s.mode = .priming && stepState s.modes.steps .load ≠ some .done then s.loadSettings (· ≠ 0) else s
  let failed := s.modes.failedDoms
  let s := (s.setBusy .trickle).pauseForwarding
  let s := { s with modes := { s.modes with committed := true, toPower := [] } }
  let s := (s.switchOffAll (offOrder.filter fun d => !s.inTrickleSet d)).conduitDown
  (s.queueOn (onOrder.filter fun d => s.inTrickleSet d && !s.domOn d && !failed.contains d)).advance

/-- Forced Trickle triggers on entry to a mode that has a row for it (R47). -/
def State.forcedEntry (s : State) : State :=
  if s.modes.forced && !s.busy && (s.mode = .priming || s.mode = .flowing || s.mode = .survey) then s.beginTrickle else s

/-- A warm reset: every domain outside the Drain set cleared, the Lockkeeper rebooting, back to Priming. Mailboxes and links
whose domains were off are reset with the others, each once (R73, R79, R106). -/
def State.warmReset (s : State) (cause : RegField) : State :=
  let ends := s.jobs.map fun j => (j, s.jobCommitted j)
  let links := (List.finRange 16).filter fun (m : Link) => s.linkExists m && !s.domOn (domHP m)
  let cores := (List.finRange 32).filter fun (n : CoreIx) => !s.domOn (domCL n)
  let s := { s with mc := { s.mc with flipping := [] } }
  let s := (offOrder.filter fun d => !keptWarm d).foldl State.loseDomain s
  let s := links.foldl (fun s m => (s.mailboxReset m).resetLink m false) s
  let s := cores.foldl (fun s n => s.coreMailboxReset n) s
  let s := { s with regs := s.regs.foldl (fun (t : Table Word) (e : Nat × Word) => tput regReset t e.1 (warmReg e.1 e.2)) [] }
  let s := (s.warmFaults.warmUnits.settleAll ends).wrB B.DEV cause true
  let s := { s with cross := [], modes := { s.modes with lkRunning := false, asker := none, waiting := [] } }
  s.startPriming.updateWriteback.forcedEntry

/-- A trigger taken in the present mode (Table 4.2): a trigger without a row has no effect. -/
def State.takeTrigger (s : State) (t : Trigger) : State :=
  match t, s.mode with
  | .trickle, .priming | .trickle, .flowing | .trickle, .survey => s.beginTrickle
  | .warm true, .fallow => { s with modes := { s.modes with lkRunning := false } }.wrB B.DEV R.DEV_RESET_CAUSE_WARM_FATAL true
  | .warm true, .drain => { s with modes := { s.modes with fatalAfter := true } }
  | .warm true, _ => s.warmReset R.DEV_RESET_CAUSE_WARM_FATAL
  | .warm false, .survey => s.warmReset R.DEV_RESET_CAUSE_WARM_SURVEY
  | .warm false, .fallow | .warm false, .drain => s
  | .warm false, _ => s.warmReset R.DEV_RESET_CAUSE_WARM_CMD
  | .trickle, _ => s

/-- A trigger arrives: during a transition it waits (R85). -/
def State.trigger (s : State) (t : Trigger) : State :=
  if s.busy then { s with modes := { s.modes with waiting := s.modes.waiting ++ [t] } } else s.takeTrigger t

/-- The triggers that waited are tested, in order, from the mode just entered, and forced Trickle with them (R47,
R85). -/
def State.testWaiting (s : State) : State :=
  if s.busy then s
  else
    let w := s.modes.waiting
    (w.foldl State.trigger { s with modes := { s.modes with waiting := [] } }).forcedEntry

/-- A transition to a mode begins (MODE_SET, or the end of Priming). -/
def State.beginTransition (s : State) (m : Mode) : State :=
  match m with
  | .trickle => s.beginTrickle.testWaiting
  | .survey =>
    let s := s.setBusy .survey
    (if s.mode = .priming then s else s.pauseForwarding).advance.testWaiting
  | .flowing =>
    let on := if s.mode = .trickle then onOrder.filter fun d => s.configured d && !s.domOn d else []
    let s := { s.setBusy .flowing with modes := { s.modes with committed := on ≠ [] } }
    (if s.mode = .trickle then s.leaveTrickle.returnSteps on else s).advance.testWaiting
  | .priming | .drain | .fallow => s

/-- A transition that has not reached its commit point is given up: the device returns to the mode it left (R93). -/
def State.cancelTransition (s : State) : State :=
  if s.busy && !s.modes.committed then (s.setMode s.mode).resumeFetch.testWaiting else s

/-- Escalation at the end of an unacknowledged window (Table 18.4). -/
def State.escalate (s : State) (w : FaultWin) : State :=
  let s := s.stopWindow w.src
  let s := s.notifyFault w.src
  if w.cls = 1 then (s.wrB (srcBase w.src) R.FLT_SRC_ESC true).startWindow w.src 2
  else if w.cls = 2 then s.trigger .trickle
  else s.trigger (.warm true)

end Sys2Proof.Machine
end

