-- ==== Sys2Proof/Machine/Pace.lean ====
section
/-! DEFINITION. Pace meters, the governor, power and temperature, domains reaching power good (chapter 2). -/
namespace Sys2Proof.Machine

/-! ### Meters (R34, R35, R38) -/

/-- One meter's update: powered, metered, and not held by a calibration. -/
def State.meterUpdate (s : State) (d v : Nat) : State :=
  if !metered d || !s.domOn d || s.flag (meterBase d) R.PACE_METER_CAL then s else s.wr (meterBase d) R.PACE_METER_PACE v

/-- R34: the meters' update, every 500 ns, with the mean that each named domain shows. -/
def execPaceMeterUpdate (readings : List (Dom × Nat)) (s : State) : Res :=
  .next (s.every Tm.meters 500 fun s => readings.foldl (fun s e => s.meterUpdate e.1 e.2) s)

/-- R35: a calibration begins; the meter holds its value. -/
def execPaceMeterCalibration (d : Dom) (s : State) : Res :=
  .next (if metered d && s.domOn d then s.wrB (meterBase d) R.PACE_METER_CAL true else s)

/-- R35: the calibration of a domain's meter ends; the activity's overdue state ends with the last overdue domain
(Table 18.7). -/
def execPaceCalibrationDone (d : Dom) (s : State) : Res :=
  if !s.flag (meterBase d) R.PACE_METER_CAL then .next s
  else
    let s := (s.wrB (meterBase d) R.PACE_METER_CAL false).stamp (Tm.meterCal d)
    .next (if s.bgAt 7 1 then s else s.bgRan 7)

/-! ### The governor (R38 to R46) -/

/-- The policy in force: the programmed one in Flowing and Survey, Table 2.4 otherwise. The last part is the power
limit in watts, if there is one. -/
structure Policy where
  /-- Follow, as against Fixed. -/
  follow : Bool
  floor : Nat
  headroom : Nat
  cap : Option Nat

/-- After a surge has ended, Cap at 600 W whatever the policy, under the mode's own limit where that is lower (R45). -/
def State.policy (s : State) : Policy :=
  let floor := s.rd B.PACE R.PACE_FOLLOW_FLOOR
  let room := s.rd B.PACE R.PACE_FOLLOW_HEADROOM
  let own : Policy := match s.mode with
    | .trickle => ⟨true, 1500, 25, some 250⟩
    | .flowing | .survey =>
      let p := s.rd B.PACE R.PACE_CTRL_POLICY
      ⟨p ≠ 0, floor, room, if p = 2 then some (s.rd B.PACE R.PACE_CAP_CAP) else none⟩
    | .priming | .fallow | .drain => ⟨false, floor, room, none⟩
  if s.gov.surgeEnd then { own with follow := true, cap := some (min (own.cap.getD 600) 600) } else own

/-- The pace target T in M tokens/s (Table 2.3): a demand of D tokens in 2 µs is D / 2 M tokens/s. -/
def State.paceTarget (s : State) (p : Policy) : Nat :=
  let t := s.rd B.PACE R.PACE_TARGET_TARGET
  if !p.follow || s.staging.any (fun e => 256 < e.2.cells) then t
  else max p.floor (s.demand * (100 + p.headroom) / 200)

/-- The highest voltage that keeps device power at or below a limit of `c` watts, as far as the last reading shows it: below
the request of that reading where it was above the limit, and at or above it otherwise. How far is the governor's own
estimate (assumption 33). -/
def State.capVolt (s : State) (c : Nat) : Nat :=
  let p := s.rd B.PWR R.PWR_POWER_POWER
  let m := Config.capMargin p s.gov.readV c
  if 1000 * c < p then s.gov.readV - 1 - m else s.gov.readV + m

/-- The request that a mode holds, where the governor does not regulate on P_m: 0.72 V in Drain, and in Priming the step of
the sweep until calibration is done (Table 2.4). -/
def State.heldRequest (s : State) : Option Nat :=
  match s.mode with
  | .drain => some 720
  | .priming => if stepState s.modes.steps .calibration = some .done then none else some s.gov.goal
  | .fallow | .flowing | .trickle | .survey => none

/-- The governor may send a new request: it does not hold one for a lost regulator, nor is main power absent (R39,
Table 2.4). -/
def State.mayRequest (s : State) : Bool := !s.flag B.PACE R.PACE_FLAGS_AVS_LOST && s.mode ≠ .fallow

/-- The governor's loop runs on P_m (R39, Table 2.4). -/
def State.loopRuns (s : State) : Bool := s.mayRequest && s.heldRequest.isNone

/-- A request reached in steps of at most 5 mV every 500 ns, the full slew rate (R38); the first request has no step. -/
def slewTo (v w : Nat) : Nat := if v = 0 then w else if w + 5 < v then v - 5 else if v + 5 < w then v + 5 else w

/-- What the loop asks for on P_m, by a step of `d` mV, and whether a power limit holds it down (R40, Table 2.3); before the
first reading of power there is none to hold it. -/
def State.loopWant (s : State) (pm d : Nat) : Nat × Bool :=
  let pol := s.policy
  let t := s.paceTarget pol
  let v := s.rd B.PACE R.PACE_STATUS_VREQ
  let want := if pm < t then v + d else if 101 * t < 100 * pm then v - d else v
  match pol.cap with
  | none => (want, false)
  | some c =>
    if s.gov.readV = 0 then (want, false)
    else if s.capVolt c < want then (if s.capVolt c < v then max (s.capVolt c) (v - d) else v, true) else (want, false)

/-- R39: the regulator acknowledges the last command that was sent. -/
def State.acknowledged (s : State) : State :=
  match s.gov.sent with
  | none => s
  | some v => { s with gov := { s.gov with lastAck := v, nacks := 0, sent := none } }

/-- R38, R40, R46: one step of the loop, every 500 ns. The step is 1 to 5 mV, `step` being the device's own choice (assumption
33), and `ack` says whether the regulator acknowledges the command at once; the retreat from 700 W is made at the full slew
rate, and so is the way to a request that a mode holds. -/
def State.loopStep (step : Nat) (ack : Bool) (s : State) : State :=
  let v := s.rd B.PACE R.PACE_STATUS_VREQ
  let go := fun (s : State) (w : Nat) => if w = v then s else if ack then (s.request w).acknowledged else s.request w
  if !s.mayRequest then s
  else match s.heldRequest, s.paceMin with
    | some g, _ =>
      let g := if s.mode = .drain then g else s.clampV g
      go s (slewTo v (if s.gov.backoff then min (s.clampV (v - 5)) g else g))
    | none, none => s.wrB B.PACE R.PACE_FLAGS_TARGET_UNREACHED false
    | none, some pm =>
      let (want, capped) := s.loopWant pm (1 + step % 5)
      let w := slewTo v (s.clampV (if s.gov.backoff then v - 5 else want))
      let s := (go s w).wrB B.PACE R.PACE_FLAGS_CAPPED (s.gov.surgeEnd || capped)
      s.wrB B.PACE R.PACE_FLAGS_TARGET_UNREACHED (w = s.vCeil && decide (pm < s.paceTarget s.policy))

def execGovernorLoopStep (step : Nat) (ack : Bool) (s : State) : Res := .next (s.every Tm.governor 500 (State.loopStep step ack))

/-- R39: the regulator is lost: the request returns to the last acknowledged one, with a Degrading fault. -/
def State.avsLost (s : State) : State :=
  ((s.wr B.PACE R.PACE_STATUS_VREQ s.gov.lastAck).wrB B.PACE R.PACE_FLAGS_AVS_LOST true).raise 5 0 0

/-- R39: the last command that was sent is not acknowledged; the third in a row loses the regulator. -/
def execAvsCommandUnacknowledged (s : State) : Res :=
  let s := { s with gov := { s.gov with nacks := s.gov.nacks + 1, sent := none } }
  .next (if s.gov.nacks = 3 then s.avsLost else s)

/-- R39: the last acknowledged request is sent again every 1 ms while AVS_LOST is 1; an acknowledgement clears AVS_LOST,
but not while PMB0 is lost. Where none was ever acknowledged, what is sent is the first request of Priming (DESIGN CHOICE,
assumption 33); in Fallow nothing is (Table 2.4). -/
def execAvsResend (ack : Bool) (s : State) : Res :=
  if !s.flag B.PACE R.PACE_FLAGS_AVS_LOST || s.mode = .fallow then .next s
  else .next (s.every Tm.resend (ms 1) fun s =>
    let v := if s.gov.lastAck = 0 then s.gov.goal else s.gov.lastAck
    let s := s.emit (.avs v)
    if ack then
      { (s.wr B.PACE R.PACE_STATUS_VREQ v).wrB B.PACE R.PACE_FLAGS_AVS_LOST (s.flag B.PWR R.PWR_BUS_STAT_PMB0_LOST) with
        gov := { s.gov with nacks := 0, lastAck := v } }
    else s)

/-- The sweep of Priming: P_m recorded at each step, which then rises by 20 mV to V_ceil at most (Table 2.4). It waits
while the regulator is lost or power retreats from 700 W (R39, R46). -/
def State.calibrationStep (s : State) : State :=
  let v := s.rd B.PACE R.PACE_STATUS_VREQ
  if s.mode = .priming && stepState s.modes.steps .calibration = some .running && s.mayRequest && !s.gov.backoff
      && v = s.clampV s.gov.goal then
    { s with gov := { s.gov with calTable := s.gov.calTable ++ [(v, s.paceMin.getD 0)], goal := min (v + 20) s.vCeil } }
  else s

/-- Flowing maximum current of rail n in units of 100 mA (Table 20.1). -/
def railMax (n : Nat) : Nat := [6800, 1500, 400, 600, 500, 40, 20, 10, 260, 15, 10].getD n 0

def railBase (n : Nat) : Nat := B.PWR + 4 * n

/-- Device power in mW: the last VCORE current times VREQ, and the rails 1 to 10, each at its latest readings; while PMB1
is lost, at its maximum current (R458, Table 20.6). -/
def State.devicePower (s : State) : Nat :=
  (s.rd (railBase 0) R.PWR_RAIL_CURRENT * s.rd B.PACE R.PACE_STATUS_VREQ
    + ((List.range' 1 10).map fun n => s.rd (railBase n) R.PWR_RAIL_MV
        * (if s.flag B.PWR R.PWR_BUS_STAT_PMB1_LOST then railMax n else s.rd (railBase n) R.PWR_RAIL_CURRENT)).sum) / 10

/-- R45, R46: a reading of device power P: the surge credit moves by (600 W - P) x 100 µs, and a surge ends at credit
0 or at the 400th reading above 600 W. -/
def State.powerRead (s : State) : State :=
  let mw := s.devicePower
  let s := s.wr B.PWR R.PWR_POWER_POWER (sat 0xFFFFF mw)
  let above := if 600000 < mw then sat 65535 (s.rd B.PWR R.PWR_SURGE_ABOVE + 1) else 0
  let g := { s.gov with readV := s.rd B.PACE R.PACE_STATUS_VREQ }
  let credit := if 600000 < mw then g.credit - (mw - 600000) else sat 40000000 (g.credit + (600000 - mw))
  let ends := 600000 < mw && (credit = 0 || above = 400) && !g.surgeEnd
  let s := { s with gov := { g with credit := credit, surgeEnd := (g.surgeEnd || ends) && credit < 40000000,
                                    backoff := 700000 < mw || (g.backoff && 680000 < mw) } }
  let s := (s.wr B.PWR R.PWR_SURGE_ABOVE above).wr B.PWR R.PWR_SURGE_CREDIT (credit / 10000)
  let s := if ends then s.bump B.PWR R.PWR_SURGE_COUNT_COUNT else s
  let s := if s.gov.surgeEnd then s.wrB B.PACE R.PACE_FLAGS_CAPPED true
    else if g.surgeEnd then s.wrB B.PACE R.PACE_FLAGS_CAPPED false else s
  s.calibrationStep

/-- R45, R458: the VCORE current as PMB0 reads it every 100 µs, in units of 100 mA; no reading while PMB0 is lost. -/
def execPowerReading (current : Fin 65536) (s : State) : Res :=
  .next (if s.flag B.PWR R.PWR_BUS_STAT_PMB0_LOST then s
    else s.every Tm.power (us 100) fun s => (s.wr (railBase 0) R.PWR_RAIL_CURRENT current).powerRead)

/-- A count of successive readings, of which two matter. -/
def run2 (b : Bool) (n : Nat) : Nat := if b then min (n + 1) 2 else 0

/-- R47, R48: the highest of the 32 sensors is reported and acted on, each action on two successive readings. -/
def State.tjRead (s : State) (sensors : List Int) : State :=
  let tj : Nat := (sensors.foldl max 0).toNat
  let s := s.wr B.PWR R.PWR_TJ_TJ (sat 255 tj)
  let g := s.gov
  let s := { s with gov := { g with above100 := run2 (100 < tj) g.above100, below100 := run2 (tj ≤ 100) g.below100,
                                    above115 := run2 (115 < tj) g.above115, below115 := run2 (tj ≤ 115) g.below115,
                                    above125 := run2 (125 ≤ tj) g.above125 } }
  let s :=
    if s.gov.above115 = 2 && !s.modes.forced then
      ({ s with modes := { s.modes with forced := true } }.raise 4 0 0).trigger .trickle
    else if s.gov.below115 = 2 then { s with modes := { s.modes with forced := false } }
    else s
  if s.gov.above125 = 2 && g.above125 < 2 then s.raise 0 0 0 else s

/-- R47: the reading of the sensors, every 100 µs. -/
def execTjReading (sensors : List Int) (s : State) : Res := .next (s.every Tm.tj (us 100) fun s => s.tjRead sensors)

/-! ### Domains (R29, R49, Table 2.7) -/

/-- The longest time from the start of a switch-on to power good (Table 2.7). -/
def domainBound (d : Nat) : Nat :=
  if d ≤ 24 || d = 73 || d = 79 then us 30
  else if d ≤ 28 then us 40
  else if d ≤ 64 || d = 75 then us 50
  else if d ≤ 68 then us 100
  else us 40

/-- The switch-on of one domain has ended in power good: the next starts; the last ends the Priming step or lets the
transition go on (R49, R468). -/
def State.poweredUp (s : State) (d : Nat) : State :=
  let s := (s.setDom d true).domainUp d
  let s := if 29 ≤ d && d ≤ 52 && s.mode ≠ .priming then s.judgeModule (d - 29) else s
  let s := if d = 74 || d = 77 then s.keysUp else s
  let s := (s.setToPower (s.modes.toPower.erase d)).endJobs 0x0703 d (Final.mk' St.DONE 0 [])
  s.domainsEnded.advance.testWaiting

/-- A domain has not reached power good within its bound: it is given up, the next starts, and the step of Priming has failed
in part (R49, R88). A DOMAIN_SET that asked for it ends with NO_RESOURCE (DESIGN CHOICE, assumption 35). -/
def State.domainFails (s : State) (d : Nat) : State :=
  let s := { s with modes := { s.modes with stepFault := true, failedDoms := s.modes.failedDoms ++ [d] } }
  let s := (s.setToPower (s.modes.toPower.erase d)).endJobs 0x0703 d (Final.mk' St.NO_RESOURCE 0 [])
  (s.domainsEnded.raise 6 0 0).advance.testWaiting

/-- The switch-on of the domain at the head of the queue has lasted longer than its bound. -/
def State.domainLate (s : State) (d : Nat) : Bool := (s.last Tm.domain).any fun t => decide (t + domainBound d < s.now)

/-- R49: the domain being switched on reports power good; past its bound the report comes too late. -/
def execDomainPowerGood (d : Dom) (s : State) : Res :=
  .next (if s.modes.toPower.head? ≠ some d.val || !s.needsOn d then s
    else if s.domainLate d then s.domainFails d else s.poweredUp d)

end Sys2Proof.Machine
end

