-- ==== Sys2Proof/Machine/Commands.lean ====
section
/-! DEFINITION. The doorbells of the command mailboxes and the device commands, class 0x01xx (R64 to R79, R471). -/
namespace Sys2Proof.Machine

/-! ### Doorbells (Tables 3.9 and 3.14) -/

/-- R66: a host rings tag t of mailbox m, after the accesses that it made before (R55). -/
def execMailboxDoorbell (m : Link) (t : Tag) (s : State) : Res :=
  let s := s.catchUp (.host m 0)
  .next (if s.answers m 0 then s.hostDoorbell m t else s.refuse (.host m 0))

/-- R79: core n rings its mailbox. While READY is 0 nothing happens, and no bit shows it (DESIGN CHOICE, assumption 8). -/
def execCoreMailboxDoorbell (n : CoreIx) (s : State) : Res :=
  let s := s.catchUp (.core n)
  .next (if s.domOn (69 + n / 8) then s.coreDoorbell n else s.refuse (.core n))

/-- PROGRESS of a command, per cent: elapsed time divided by T for one of class 0x08xx (R448), the Lockkeeper's own value for
another. -/
def State.progressOf (s : State) (q : Req) (c : Cmd) (progress : Nat) : Nat :=
  match s.jobs.find? fun j => j.q = q && j.mgen = c.mgen && j.opcode / 256 = 8 with
  | some j =>
    let t := ms (secTime j.opcode)
    sat 100 (100 * (s.now + t - j.due) / t)
  | none => sat 100 progress

/-- R69: a header with STATUS IN_PROGRESS, bytes 0 to 3 alone, for a command in progress. -/
def execProgressHeader (q : Req) (progress : Nat) (s : State) : Res :=
  match (s.tag q).cur with
  | none => .next s
  | some c =>
    let w := leBytes 4 (resultWord0 St.IN_PROGRESS (reqTag q) c.phase (s.progressOf q c progress))
    match q with
    | .host m t => .next (s.postWrite m 0 (s.pair (B.LKP m + 0x10) / 4096 * 4096 + t * 0x100) w)
    | .core n => .next { s with mem := putBytes s.mem (B.CMB n + 0x100) w }

/-- R65: a write of either word of RESBASE, or of both at one instant. -/
def execResbaseWrite (m : Link) (lo hi : Option Word) (s : State) : Res :=
  let s := s.catchUp (.host m 0)
  let put := fun (s : State) off v => match v with
    | some (v : Word) => s.writeWord (B.LKP m + off) .write v.toNat
    | none => s
  .next (if s.answers m 0 then (put (put s 0x10 lo) 0x14 hi).answer .ok else s.refuse (.host m 0))

/-- Long commands that roll back until a point of their own: a MODE_SET before its commit point (R93), a VOL_DELETE while it
waits for the destage (R381). -/
def State.rollsBack (s : State) (opcode : Nat) : Bool := (opcode = 0x0701 && !s.modes.committed) || opcode = 0x0503

/-- R471: the last command of the old generation on a tag is settled. Without effect it rolls back, where it has not started
or has not passed its commit point. Every other one that has started is carried to its end, whose own result settles it, so
EFFECT 1 is recorded there and not here. -/
def execOldCommandSettled (q : Req) (effect : Bool) (s : State) : Res :=
  match (s.tag q).old with
  | none => .next s
  | some o =>
    let mine := fun (j : Job) => j.q = q && j.mgen = o.mgen
    if o.settled.isSome || effect then .next s
    else match s.jobs.find? mine with
      | none => .next (s.settleOld q o.mgen 0)
      | some j =>
        if s.rollsBack j.opcode then
          let s := { s with jobs := s.jobs.filter fun j => !mine j }
          .next ((if j.opcode = 0x0701 then s.cancelTransition else s).settleOld q o.mgen 0)
        else .next s

/-! ### Device commands (Table 3.13) -/

/-- Part number, pace bin, revision, running image and version, serial number. -/
def execDevIdentify (q : Req) (s : State) : Res :=
  .next (s.command q 0x0100 fun _ s =>
    s.done q ((Config.identity (s.rd B.SEC R.SEC_IMAGE_RUNNING) s.sec.version).take 240))

/-- Counts of host ports, plots, queue pairs, lane groups and drive ports as configured. -/
def State.capsCounts (s : State) : List Nat :=
  let n := fun lo k => ((List.range' lo k).filter s.configured).length
  [n 53 8, ((List.range 16).map s.allot).sum, 8192, n 29 24, 8 * n 61 4]

def execDevCaps (q : Req) (s : State) : Res :=
  .next (s.command q 0x0101 fun _ s => s.done q ((Config.layout s.capsCounts).take 240))

def execDevEcho (q : Req) (s : State) : Res :=
  .next (s.command q 0x0102 fun c s => s.done q (c.bytes 8 c.len))

/-- The generation before (R77). -/
def prevGen (g : Nat) : Nat := if g ≤ 1 then 0xFFFF else g - 1

/-- The same mailbox's tag t; a core mailbox has tag 0 alone. -/
def reqWithTag : Req → Nat → Option Req
  | .host m _, t => if h : t < 16 then some (.host m ⟨t, h⟩) else none
  | .core n, t => if t = 0 then some (.core n) else none

/-- R77: the last command accepted on a tag in the current generation or the one before. A command that row 5 of Table 3.9
ended, because it named another MGEN, counts as accepted in the generation in force (DESIGN CHOICE, assumption 8). -/
def execDevCmdStatus (q : Req) (s : State) : Res :=
  .next (s.command q 0x0103 fun c s =>
    let ans := fun st eff => s.done q (leBytes 2 st ++ [BitVec.ofNat 8 eff])
    match reqWithTag q (c.u8 8) with
    | none => s.finish q St.BAD_ARGUMENT
    | some r =>
      let g := c.u16 10
      if g = s.mgen q then
        match (s.tag r).cur, (s.tag r).fin with
        | some _, _ => ans St.IN_PROGRESS 0
        | none, some f => ans f.status 0
        | none, none => ans 0xFFFF 0
      else if g = prevGen (s.mgen q) then
        match (s.tag r).old with
        | none => ans 0xFFFF 0
        | some o =>
          if o.mgen ≠ g then ans 0xFFFF 0
          else match o.settled with
            | none => s.busyRetry q 1000
            | some (st, eff) => ans st eff
      else s.finish q St.BAD_ARGUMENT)

/-- An internal address in the SEC or KCU block (R76). -/
def secret (a : Nat) : Bool := a / 0x1_0000 = 7 || a / 0x1_0000 = 8

/-- Mode code, Tj, pace flags, uncleared faults per severity. -/
def State.healthFacts (s : State) : List Nat :=
  [s.mode.code, s.rd B.PWR R.PWR_TJ_TJ, s.view (B.PACE + R.PACE_FLAGS_CAPPED.off)] ++ (List.range 5).map s.unclearedAt

def execDevHealth (q : Req) (s : State) : Res :=
  .next (s.command q 0x0106 fun _ s => s.done q ((Config.layout s.healthFacts).take 240))

end Sys2Proof.Machine
end

