-- ==== Sys2Proof/Machine/Modes.lean ====
section
/-! DEFINITION. Operating modes, start-up and resets: the class 0x07xx commands, Priming, and the reset events
(chapter 4). -/
namespace Sys2Proof.Machine

/-! ### Health and permissions -/

/-- Failed health checks (Table 4.8). -/
def State.failedChecks (s : State) : Nat :=
  bit (s.unclearedAt 2 ≠ 0 || s.unclearedAt 3 ≠ 0) + 2 * bit (s.gov.below100 < 2)
    + 4 * bit (s.flag B.PACE R.PACE_FLAGS_AVS_LOST)
    + 8 * bit (s.latched || decide (s.now < s.modes.pfLowUntil)) + 16 * bit s.modes.stepFault

/-- MODE_SET to Survey is permitted in the present life-cycle state (Table 19.4): SEC_DEBUG.SURVEY shows it. -/
def State.surveyPermitted (s : State) : Bool := s.flag B.SEC R.SEC_DEBUG_SURVEY

/-- Priming may end in Survey: a life-cycle state that permits it without a grant (R83). -/
def State.surveyAtBoot (s : State) : Bool :=
  let st := s.rd B.SEC R.SEC_LC_STATE
  s.flag B.DEV R.DEV_BOOT_CFG_SURVEY && (st = 0 || st = 1 || st = 3)

/-- A Priming step still runs or waits. -/
def State.primingRuns (s : State) : Bool := s.modes.steps.any fun e => e.2 = .running || e.2 = .waiting

/-! ### Class 0x07xx (Table 4.5, R91, R92) -/

def execModeGet (q : Req) (s : State) : Res :=
  .next (s.command q 0x0700 fun _ s => s.done q (leBytes 4 (s.view (B.DEV + R.DEV_MODE_CODE.off))
    ++ leBytes 4 (s.view (B.DEV + R.DEV_RESET_CAUSE_COLD.off)) ++ leBytes 4 (s.view (B.DEV + R.DEV_BOOT_CFG_SURVEY.off))))

/-- What MODE_SET to a mode does from the present one. The Lockkeeper's estimate of the time that running steps need is its own:
at least 10,000 µs (assumption 35). A Retired device has service in Fallow only (Table 19.3a): no transition is permitted
(assumption 73). -/
def State.modeSet (s : State) (q : Req) (m : Mode) : State :=
  let go := (s.addJob q 0x0701 0).beginTransition m
  if m = s.mode then s.done q []
  else if s.lcState = 4 then s.finish q St.REFUSED
  else match m, s.mode with
    | .survey, .priming | .survey, .flowing | .survey, .trickle =>
      if s.surveyPermitted then go else s.finish q St.REFUSED
    | .trickle, .priming | .trickle, .flowing => go
    | .flowing, .priming =>
      if s.modes.stepFault then s.finishWith q (Final.mk' St.REFUSED 0 [0x10])
      else if s.primingRuns then (let (f, s) := s.draw; s.busyRetry q (10000 + f))
      else go
    | .flowing, .trickle =>
      if s.failedChecks ≠ 0 then s.finishWith q (Final.mk' St.REFUSED 0 [BitVec.ofNat 8 s.failedChecks])
      else go
    | _, _ => s.finish q St.BAD_ARGUMENT

def execModeSet (q : Req) (s : State) : Res :=
  .next (s.command q 0x0701 fun c s =>
    let k := c.u8 8
    if s.busy then s.busyRetry q 1000
    else if k ≠ 2 && k ≠ 3 && k ≠ 5 then s.finish q St.BAD_ARGUMENT
    else s.modeSet q (Mode.ofCode k))

/-- The result DONE is written, and the warm reset follows. -/
def execWarmReset (q : Req) (s : State) : Res :=
  .next (s.command q 0x0702 fun _ s => (s.done q []).trigger (.warm false))

/-- R49, R50, R92: one domain switched on or off, in Priming and Survey. -/
def execDomainSet (q : Req) (s : State) : Res :=
  .next (s.command q 0x0703 fun c s =>
    let d := c.u8 8
    if d = 0 || 80 ≤ d || 2 ≤ c.u8 9 then s.finish q St.BAD_ARGUMENT
    else
    let s := if d = 79 then s.endLongReach else s
    if c.u8 9 = bit (s.domOn d) then s.done q []
    else if c.u8 9 = 1 then
      if !s.needsOn d then s.finish q St.BAD_ARGUMENT
      else (s.addJob q 0x0703 d).queueOn [d]
    else if s.neededBy d || s.carries d then s.finish q St.BAD_ARGUMENT
    else (s.switchOff d).done q [])

/-- A field of a register takes a value, by the register's own limits. -/
def fieldTakes (a : Nat) (f : RegField) (v : Nat) : Bool :=
  match descAt a with
  | none => false
  | some d => d.fields.any fun x => x.fld = f && x.ok.takes v

/-- Every field of a word lies in its field's range. -/
def wordTakes (a v : Nat) : Bool :=
  match descAt a with
  | none => false
  | some d => d.fields.all fun f => f.acc = .ro || f.ok.takes (bitsOf v f.fld.hi f.fld.lo)

/-- A word's documented fields. -/
def wordFields (a v : Nat) : Nat :=
  match descAt a with
  | none => 0
  | some d => d.fields.foldl (fun x f => if f.acc = .ro then x else setBits x f.fld.hi f.fld.lo (bitsOf v f.fld.hi f.fld.lo)) 0

/-- R92: GOV_SET writes the PACE fields; a value outside a field's limits ends the command without effect
(assumption 12). -/
def execGovSet (q : Req) (s : State) : Res :=
  .next (s.command q 0x0704 fun c s =>
    let fs : List (RegField × Nat) :=
      [(R.PACE_CTRL_POLICY, c.u8 8), (R.PACE_TARGET_TARGET, c.u16 10), (R.PACE_FOLLOW_FLOOR, c.u16 12),
       (R.PACE_FOLLOW_HEADROOM, c.u8 14), (R.PACE_CAP_CAP, c.u16 16)]
    if fs.all fun e => fieldTakes (B.PACE + e.1.off) e.1 e.2 then
      (fs.foldl (fun s e => s.wr B.PACE e.1 e.2) s).done q []
    else s.finish q St.BAD_ARGUMENT)

/-- What the image sets a register to; its reset value where it names none. -/
def State.imageWord (s : State) (a : Nat) : Nat := (((s.image.settings.filter (·.1 = a)).getLast?.map (·.2)).getD (regReset a)).toNat

/-- A port is configured: as its lane group stands, or as the image sets it up where the lane group is off. -/
def State.portSet (s : State) (p : Nat) : Bool :=
  if s.domOn (domLG (portLG p)) then s.portOn p
  else bitsOf (s.imageWord (B.ETH (portLG p))) (2 * (p % 4) + 1) (2 * (p % 4)) ≠ 0
    && bitOf (s.imageWord (portBase p + R.ETH_PORT_CFG_EN.off)) R.ETH_PORT_CFG_EN.lo

/-- An Ethernet port that may be an uplink: in LG0 to LG5, and configured (R92). -/
def State.uplinkOk (s : State) (p : Nat) : Bool := p < 24 && s.configured (domLG (portLG p)) && s.portSet p

/-- The uplinks change while the device is in Trickle: lane groups and slots of TR0 follow (Table 4.6). -/
def State.uplinksChanged (s : State) : State :=
  if s.mode ≠ .trickle then s
  else
    let s := s.switchOffAll ((List.range' 29 24).filter fun d => !s.inTrickleSet d)
    let s := s.queueOn ((List.range' 29 24).filter fun d => s.inTrickleSet d && !s.domOn d)
    let s := s.freeUplinkSlots s.uplinks
    s.uplinks.foldl (fun s p => if (s.slotOf 0 p).isSome then s else s.assignSlot p 0) s

/-- R92: the uplinks are designated. -/
def execTrickleUplinks (q : Req) (s : State) : Res :=
  .next (s.command q 0x0705 fun c s =>
    let n := c.u8 8
    if 2 < n || (1 ≤ n && !s.uplinkOk (c.u8 9)) || (2 ≤ n && !s.uplinkOk (c.u8 10)) then s.finish q St.BAD_ARGUMENT
    else
      let w := (if 1 ≤ n then 2 ^ 8 + c.u8 9 else 0) + (if 2 ≤ n then 2 ^ 24 + 2 ^ 16 * c.u8 10 else 0)
      (s.wrW (B.DEV + R.DEV_TRICKLE_UPLINK0.off) w).uplinksChanged.done q [])

/-- The packets inside a tailrace are dropped and counted as the port-down rule counts them. A headrace's packets have no
destination yet, and the spec names no counter for them: they are dropped with the headrace's own counters (DESIGN CHOICE,
assumption 36). -/
def State.dropInside (s : State) (t : Nat) : State :=
  let s := (s.pipe (16 + t)).toks.foldl (fun s k => s.flushOne k.pkt k.dest) (s.flushEgress t fun _ => true)
  s.setToks (16 + t) []

/-- A pipeline reset: the domain is cycled, what it held is dropped, its microcode is loaded again (Table 4.9). -/
def State.pipeReset (s : State) (d : Nat) : State :=
  if s.domOn d then
    let s := if 17 ≤ d then (s.dropInside (2 * (d - 17))).dropInside (2 * (d - 17) + 1) else s
    let s := ((s.switchOff d).setDom d true).domainUp d
    if s.mode = .trickle && (d = 1 || d = 17) then s.trickleProgram else s
  else s

/-- PIPE_RESET of a pipeline that is off ends with BAD_ARGUMENT, like every command that names a unit without power
(DESIGN CHOICE, assumption 36). -/
def execPipeReset (q : Req) (s : State) : Res :=
  .next (s.command q 0x0706 fun c s =>
    let d := if c.u8 8 = 0 && c.u8 9 < 16 then 1 + c.u8 9 else if c.u8 8 = 1 && c.u8 9 < 8 then 17 + c.u8 9 else 0
    if d = 0 || !s.domOn d then s.finish q St.BAD_ARGUMENT else (s.pipeReset d).done q [])

def execHealthCheck (q : Req) (s : State) : Res :=
  .next (s.command q 0x0707 fun _ s => s.done q [BitVec.ofNat 8 s.failedChecks])

/-! ### Priming (Tables 4.2 and 4.3, R83, R84, R88, R468) -/

/-- The condition of Table 4.2 for Fallow to Priming. -/
def State.mayPrime (s : State) : Bool :=
  s.mode = .fallow && s.modes.lkRunning && s.flag B.PWR R.PWR_PINS_MAIN_PG && decide (s.modes.pfLowUntil ≤ s.now)
    && s.flag B.PWR R.PWR_PINS_POWER_FAIL_N && !s.latched && s.lcState ≠ 4

def execPrimingEntry (s : State) : Res := .next (if s.mayPrime then s.startPriming.forcedEntry else s)

/-- What the end of a Priming step brings; what the restore step restored is in S0 already. -/
def State.stepEffect (s : State) : Step → State
  | .hbmTraining => s.stacksTrained
  | .load => s.loadImage.judgeModules
  | .domains | .calibration | .marchTest | .restore => s

/-- A Priming step fails (R88). -/
def State.stepFails (s : State) (k : Step) : State :=
  let s := { s.endStep k .failed with modes := { (s.endStep k .failed).modes with stepFault := true } }
  (s.raise 6 0 0).advance.testWaiting

/-- The longest time of a step that has a bound (R468). The step of the domains has a bound for each of them (Table 2.7), and
the restore has none. -/
def stepBound : Step → Option Nat
  | .calibration => some (ms 3)
  | .hbmTraining => some (ms 3000)
  | .marchTest => some (ms 16000)
  | .load => some (ms 1000)
  | .domains | .restore => none

/-- A step has run for longer than its bound. -/
def State.stepLate (s : State) (k : Step) : Bool :=
  match stepBound k, s.last (Tm.step k) with
  | some b, some t => decide (t + b < s.now)
  | _, _ => false

/-- What a step needs to have happened before it can have ended well: no domain is left to switch on, the sweep of the
calibration has reached V_ceil (Table 2.4), the last chunk has been read (R375). -/
def State.stepWorked (s : State) : Step → Bool
  | .domains => s.modes.toPower = []
  | .calibration => s.gov.calTable.any fun e => e.1 = s.clampV s.vCeil
  | .restore => !s.flag B.DEV R.DEV_MODE_VAULT_PENDING || s.silo.restoring.any fun n => decide (s.vault.chunks.length ≤ n)
  | .hbmTraining | .marchTest | .load => true

/-- R88, R468: a step that runs ends, or fails; one that ends past its bound has failed. -/
def execPrimingStepDone (k : Step) (ok : Bool) (s : State) : Res :=
  if stepState s.modes.steps k ≠ some .running || (ok && !s.stepWorked k) then .next s
  else if !ok || s.stepLate k then .next (s.stepFails k)
  else .next (((s.endStep k .done).stepEffect k).advance.testWaiting)

/-- R468: a step past its bound has failed; so has the switch-on of a domain (R49). The vault restore has no bound. -/
def execPrimingStepTimeout (k : Step) (s : State) : Res :=
  .next (match k, s.modes.toPower with
    | .domains, d :: _ => if s.domainLate d then s.domainFails d else s
    | _, _ => if stepState s.modes.steps k = some .running && s.stepLate k then s.stepFails k else s)

/-- Table 4.2: Priming ends as DEV_BOOT_CFG directs, SURVEY before AUTO_FLOW; not in a Retired device. -/
def execPrimingComplete (s : State) : Res :=
  if s.mode ≠ .priming || s.busy || s.lcState = 4 || s.modes.steps.any (fun e => e.2 ≠ .done) then .next s
  else if s.surveyAtBoot then .next (s.beginTransition .survey)
  else if s.flag B.DEV R.DEV_BOOT_CFG_AUTO_FLOW then .next (s.beginTransition .flowing)
  else .next s

/-! ### Resets and power pins (R103 to R106, R455) -/

/-- A warm reset of the device, by its cause. -/
def execDeviceWarmReset (c : WarmCause) (s : State) : Res :=
  .next (s.trigger (.warm (c = .fatal)))

/-- A cold reset: everything but what Table 4.9 keeps; the state of the board's pins and of the world outside stays.
Only a removal of auxiliary power clears LATCHED (R84), and only there do the board's power times begin anew (R86). -/
def State.coldReset (s : State) (power : Bool) : State :=
  let keepLatch := s.latched && !power
  let pins := s.reg (B.PWR + R.PWR_PINS_ALIVE.off)
  let r := s.coldKeep
  let r := r.wrW (B.PWR + R.PWR_PINS_ALIVE.off) (pins.toNat % 32 - pins.toNat % 2)
  let r := r.wrB B.DEV R.DEV_MODE_LATCHED keepLatch
  let back := fun (t : Int) => if power then 0 else t - s.now
  { r with modes := { r.modes with auxAt := back s.modes.auxAt, pgAt := s.modes.pgAt.map back,
                                   pfLowUntil := s.modes.pfLowUntil - s.now } }

def execColdReset (c : ColdCause) (s : State) : Res := .next (s.coldReset (c = .auxPower))

/-- R105: SYS_RESET_N low for 10 µs or more: a Drain first where main power is good and S0 holds dirty data. -/
def execSysResetLow (s : State) : Res :=
  match s.mode with
  | .drain => .next { s with modes := { s.modes with resetAfter := true } }
  | .fallow => .next (s.coldReset false)
  | .priming | .flowing | .trickle | .survey =>
    if s.flag B.PWR R.PWR_PINS_MAIN_PG && s.dirtyBlocks ≠ 0 then .next (s.enterDrain .pin)
    else .next (s.coldReset false)

/-- R455: POWER_FAIL_N low for a time: a Drain trigger from 1 µs, ignored below 200 ns, either in between. -/
def execPowerFail (lowNs : Nat) (s : State) : Res :=
  let low := fun s : State => { s.wrB B.PWR R.PWR_PINS_POWER_FAIL_N false with
    modes := { s.modes with pfLowUntil := s.now + lowNs } }
  if 1000 ≤ lowNs then .next ((low s).enterDrain .power)
  else if lowNs < 200 then .next s
  else
    let (f, s) := s.draw
    .next (if f % 2 = 1 then (low s).enterDrain .power else s)

/-- R455, R453: MAIN_PG rises, and the board releases POWER_FAIL_N with it. -/
def execMainPgRise (s : State) : Res :=
  let s := { s.wrB B.PWR R.PWR_PINS_MAIN_PG true with modes := { s.modes with pgAt := some s.now } }
  .next (s.wrB B.PWR R.PWR_PINS_POWER_FAIL_N (s.modes.pfLowUntil ≤ s.now))

end Sys2Proof.Machine
end

