-- ==== Sys2Proof/Machine/Ethernet.lean ====
section
/-! DEFINITION. Ethernet lane groups and ports: layouts, receive checks, staging, flow control, MACsec, links, modules
(chapter 5). -/
namespace Sys2Proof.Machine

/-! ### Checksums -/

/-- The Ethernet frame check sequence. -/
def fcs (l : List Byte) : Nat := crcRaw 0xEDB88320 0xFFFFFFFF l ^^^ 0xFFFFFFFF

/-- A frame without its last four bytes, and whether those are its FCS. -/
def bodyOf (f : List Byte) : List Byte := f.take (f.length - 4)
def fcsGood (f : List Byte) : Bool := leNat (f.drop (f.length - 4)) = fcs (bodyOf f)

/-! ### The spread hash (Table 5.2) -/

def u16At (l : List Byte) (i : Nat) : Nat := beNat ((l.drop i).take 2)

/-- Bytes of up to two VLAN tags at offset 12. -/
def vlanBytes (l : List Byte) : Nat :=
  let t := fun i => u16At l i = 0x8100 || u16At l i = 0x88A8
  if t 12 then (if t 16 then 8 else 4) else 0

/-- The bytes that the spread hash covers, in the order of Table 5.2. -/
def spreadFields (l : List Byte) : List Byte :=
  let v := vlanBytes l
  let mac := l.take 12 ++ (l.drop 12).take v
  let h := l.drop (14 + v)
  let et := u16At l (12 + v)
  if et = 0x0800 then
    let ihl := ((h.getD 0 0).toNat % 16) * 4
    let frag := u16At h 6 % 2 ^ 13 ≠ 0 || bitOf (u16At h 6) 13
    let base := mac ++ (h.drop 12).take 8 ++ (h.drop 9).take 1
    if ihl = 20 && !frag then base ++ (h.drop 20).take 4 else base
  else if et = 0x86DD then
    let nh := (h.getD 6 0).toNat
    let base := mac ++ (h.drop 8).take 32 ++ (h.drop 6).take 1
    if nh = 6 || nh = 17 || nh = 132 then base ++ (h.drop 40).take 4 else base
  else mac

/-- The headrace that a frame of a port enters (R95, R110, R111). -/
def State.rxHeadrace (s : State) (p : Nat) (data : List Byte) : Nat :=
  if s.mode = .trickle then 0
  else if s.straddles p then
    lanePipe p + bit (bitOf (s.pair (B.ETH (portLG p) + 0x40)) (crc32c (spreadFields data) % 64))
  else lanePipe p

/-! ### Staging and flow control (R43, R112, R117, R118) -/

/-- Class of a frame at the lane group: the priority of its first VLAN tag, 0 without one (assumption 13). -/
def frameClass (l : List Byte) : Nat :=
  if u16At l 12 = 0x8100 || u16At l 12 = 0x88A8 then (l.getD 14 0).toNat / 32 else 0

/-- Every port of a headrace is looked at again. -/
def State.updatePauses (s : State) (h : Nat) : State :=
  ((List.range 96).filter fun p => (s.portHeadraces p).contains h).foldl State.updatePause s

/-- R43: transmit descriptor fetch for a headrace is held from full until below 50 %. -/
def State.updateFetchHold (s : State) (h : Nat) : State :=
  let x := s.stage h
  s.setStage h { x with fetchHeld := decide (stageMax ≤ x.cells) || (x.fetchHeld && decide (stageMax ≤ 2 * x.cells)) }

/-- A packet arrives at a headrace and is staged: dropped where the reserve is full, unless its class is held by pause (R43). What
still arrives in such a class is staged beyond the reserve, which R43 leaves open (DESIGN CHOICE, assumption 13). It is one token
of demand, or four while long reach is in force (R40, R130). -/
def State.stagePkt (s : State) (h : Nat) (k : Pkt) (held : Bool) : State :=
  let s := s.arrive h (if s.lrActive h then 4 else 1)
  let x := s.stage h
  let n := cellsOf k.data.length
  if stageMax < x.cells + n && !held then (s.setStage h { x with fetchHeld := true }).count (B.HDR h + C.HDR_STAGE_DROP)
  else (((s.setStage h { x with pkts := x.pkts ++ [k], cells := x.cells + n }).updateFetchHold h).updatePauses h)

/-- The packet at the head of a headrace's staging leaves it. -/
def State.unstage (s : State) (h : Nat) : State :=
  let x := s.stage h
  match x.pkts with
  | [] => s
  | k :: ks => ((s.setStage h { x with pkts := ks, cells := x.cells - cellsOf k.data.length }).updateFetchHold h).updatePauses h

/-! ### Received pauses (R117) -/

/-- The tailrace slots that serve a port. -/
def State.portSlots (s : State) (p : Nat) : List (Nat × Nat) :=
  (List.range 16).flatMap fun t => ((List.range 8).filter fun k =>
    s.flag (B.TLR t + 0x100 * k) R.TLR_SLOT_CFG_EN && s.rd (B.TLR t + 0x100 * k) R.TLR_SLOT_CFG_PORT = p).map fun k => (t, k)

/-- TLR_SLOT_STATUS.PAUSED of every slot of a port shows a class's pause. -/
def State.showPaused (s : State) (p c : Nat) (b : Bool) : State :=
  (s.portSlots p).foldl (fun s (t, k) =>
    let base := B.TLR t + 0x100 * k
    s.wr base R.TLR_SLOT_STATUS_PAUSED (setBits (s.rd base R.TLR_SLOT_STATUS_PAUSED) c c (bit b))) s

/-- A received pause of one class: quanta of 512 bit times, in place of what remained. -/
def State.pauseClass (s : State) (p c quanta : Nat) : State :=
  let until_ := if quanta = 0 then 0 else s.now + s.pauseTime p quanta
  let s := { s with eth := { s.eth with pauseEnd := tput (fun _ => 0) s.eth.pauseEnd (8 * p + c) until_ } }
  s.showPaused p c (until_ ≠ 0)

/-- Acts on a PAUSE or PFC frame of the enabled mode; none where the frame is neither. -/
def State.macControl (s : State) (p : Nat) (l : List Byte) : Option State :=
  let op := u16At l 14
  if op = 0x0001 && s.fcMode p = 1 then
    some ((List.range 8).foldl (fun s c => s.pauseClass p c (u16At l 16)) s)
  else if op = 0x0101 && s.fcMode p = 2 then
    some ((List.range 8).foldl (fun s c =>
      if bitOf (u16At l 16) c && bitOf (s.pfcMask p) c then s.pauseClass p c (u16At l (18 + 2 * c)) else s) s)
  else none

/-- R117: the pause of a class ends with its quanta. -/
def execPauseExpiry (p : Port) (c : Fin 8) (s : State) : Res :=
  let e := tget (fun _ => 0) s.eth.pauseEnd (8 * p + c)
  if e ≠ 0 && e ≤ s.now then
    let s := { s with eth := { s.eth with pauseEnd := tput (fun _ => 0) s.eth.pauseEnd (8 * p + c) 0 } }
    .next (s.showPaused p c false)
  else .next s

/-- R118: the pause is sent again every half of its time while its condition lasts. -/
def execPfcRepeat (p : Port) (s : State) : Res :=
  let m := tget (fun _ => 0) s.eth.xoffSent p
  .next (if m ≠ 0 && s.portUp p && s.due (Tm.pause p) (s.pauseTime p 0xFFFF / 2) then s.sendPause p m 0xFFFF else s)

/-! ### MACsec receive (Table 5.5, R119) -/

def State.sa (s : State) (i : Nat) : MacsecSA := tget (fun _ => MacsecSA.none) s.eth.sas i
def State.setSa (s : State) (i : Nat) (x : MacsecSA) : State :=
  { s with eth := { s.eth with sas := tput (fun _ => MacsecSA.none) s.eth.sas i x } }

/-- The 64-bit packet number that 32 received bits stand for, nearest above the lowest acceptable one. -/
def xpnRecover (next low : Nat) : Nat :=
  let hi := next / 2 ^ 32
  if 2 ^ 31 ≤ next % 2 ^ 32 && low < 2 ^ 31 then (hi + 1) * 2 ^ 32 + low else hi * 2 ^ 32 + low

/-- The XPN nonce: SSCI and packet number, exclusive-or salt. -/
def xpnNonce (x : MacsecSA) (pn : Nat) : List Byte :=
  (beBytes 4 x.ssci ++ beBytes 8 pn).zipWith (fun a b => a ^^^ b) x.salt

/-- The receive SC of a lane group that an SCI names: some SA of it is installed with that SCI. -/
def State.scOf (s : State) (g sci : Nat) : Option Nat :=
  (List.range 16).find? fun j => (List.range 4).any fun a =>
    let x := s.sa (128 * g + 4 * j + a)
    x.installed && x.sci = sci

/-- The replay window of a receive SC, at most 2^30 - 1 (Table 5.4). -/
def State.replayWindow (s : State) (g j : Nat) : Nat := min (2 ^ 30 - 1) (tget (fun _ => 0) s.image.macWin (16 * g + j))

/-- What MACsec does with a frame's body: the clear body, or the receive SC that drops it (none: no SC). -/
def State.macsecRx (s : State) (p : Nat) (l : List Byte) : Except (Option Nat) (List Byte × State) :=
  let g := portLG p
  if u16At l 12 ≠ 0x88E5 then
    if u16At l 12 = 0x88F7 && s.flag (portBase p) R.ETH_PORT_CFG_PTP_CLEAR then .ok (l, s) else .error none
  else
    let an := (l.getD 14 0).toNat % 4
    match s.scOf g (beNat ((l.drop 20).take 8)) with
    | none => .error none
    | some j =>
      let i := 128 * g + 4 * j + an
      let x := s.sa i
      if !x.installed || !x.keyed then .error (some j)
      else
        let pn := xpnRecover x.pn (beNat ((l.drop 16).take 4))
        if pn + s.replayWindow g j < x.pn then .error (some j)
        else match Config.gcmOpen x.key (xpnNonce x pn) (l.take 28) (l.drop 28) with
          | none => .error (some j)
          | some clear => .ok (l.take 12 ++ clear, s.setSa i { x with pn := max x.pn (pn + 1) })

/-! ### Receive (Table 5.3, R113) -/

/-- A frame that has passed the checks goes to its headrace (order 9). -/
def State.acceptFrame (s : State) (p : Nat) (wire : Nat) (l : List Byte) : State :=
  let s := (s.count (portCnt p C.ETH_RX_FRAMES)).countN (portCnt p C.ETH_RX_OCTETS) wire
  let (f, s) := s.draw
  let t := s.stampAt p false f
  let k : Pkt := { data := l, org := .eth p, time := t.1, frac := t.2, cls := frameClass l, chain := 0, first := false, tsReq := false, launch := none }
  s.stagePkt (s.rxHeadrace p l) k (bitOf (s.pfcMask p) (frameClass l))

/-- Orders 8 and 9. In Trickle a frame beyond the limit is dropped, or has its class paused; each pause runs out by itself, and the
next frame beyond the limit renews it, since R96 does not say how it ends (DESIGN CHOICE, assumption 38). -/
def State.rxLimited (s : State) (p wire : Nat) (l : List Byte) (overLimit : Bool) : State :=
  let c := frameClass l
  if s.mode ≠ .trickle || !overLimit then s.acceptFrame p wire l
  else if bitOf (s.pfcMask p) c then (s.sendPause p (2 ^ c) 0xFFFF).acceptFrame p wire l
  else s.count (portCnt p C.ETH_RX_LIMIT_DROP)

/-- Orders 7 to 9 for a frame's body without FCS. -/
def State.rxBody (s : State) (p wire : Nat) (l : List Byte) (overLimit : Bool) : State :=
  let go := fun (s : State) l => s.rxLimited p wire l overLimit
  if s.flag (portBase p) R.ETH_PORT_CFG_MACSEC then
    match s.macsecRx p l with
    | .ok (l, s) => go s l
    | .error none => s.count (portCnt p C.ETH_RX_MACSEC_DROP)
    | .error (some j) => (s.count (portCnt p C.ETH_RX_MACSEC_DROP)).count (B.ETH (portLG p) + C.ETH_SC_DROP + 8 * j)
  else go s l

/-- Codewords that a frame of `len` bytes touches at most: 640 bytes a codeword of either RS code, 256 of BASE-R, none without FEC
(R115). -/
def State.codewords (s : State) (p len : Nat) : Nat :=
  let c := s.rd (portBase p) R.ETH_PORT_CFG_FEC
  if c = 3 then 0 else if c = 2 then len / 256 + 2 else len / 640 + 2

/-- R115: what FEC counts as a frame comes in. No command says how many of its codewords were corrected, or uncorrectable where the
frame carries an error mark: free values, at most the codewords it touches (assumption 85). -/
def State.fecCount (s : State) (p len : Nat) (pcsErr : Bool) : State :=
  let n := s.codewords p len + 1
  if n = 1 then s
  else
  let (f, s) := s.draw
  let s := s.countN (portCnt p C.ETH_FEC_CORR_CW) (f % n)
  if !pcsErr then s
  else
    let (f, s) := s.draw
    s.countN (portCnt p C.ETH_FEC_UNCORR_CW) (f % n)

/-- R113: a frame as received on the wire, from destination MAC to FCS. -/
def execFrameReceive (p : Port) (data : List Byte) (pcsErr overLimit : Bool) (s : State) : Res :=
  if !s.portUp p then .next s
  else
  let s := s.fecCount p data.length pcsErr
  if pcsErr then .next (s.count (portCnt p C.ETH_RX_PCS_ERR))
  else if data.length < 64 then .next (s.count (portCnt p C.ETH_RX_RUNT))
  else if s.rd (portBase p) R.ETH_PORT_CFG_MAX_FRAME < data.length then .next (s.count (portCnt p C.ETH_RX_OVERSIZE))
  else if !fcsGood data then .next (s.count (portCnt p C.ETH_RX_FCS_ERR))
  else if u16At data 12 = 0x8808 then
    match s.macControl p data with
    | some s => .next (s.count (portCnt p C.ETH_RX_PAUSE))
    | none => .next (s.count (portCnt p C.ETH_RX_CTRL_DROP))
  else .next (s.rxBody p data.length (bodyOf data) overLimit)

/-! ### Transmit (R114, R120) -/

/-- Wire length of a frame with an unpadded body, MACsec included. -/
def State.wireLen (s : State) (p len : Nat) : Nat :=
  max 64 (len + 4 + (if s.flag (portBase p) R.ETH_PORT_CFG_MACSEC then 32 else 0))

/-- The body padded so that the frame has 64 bytes with its FCS. -/
def padBody (l : List Byte) : List Byte := if l.length < 60 then fit 60 l else l

/-- PN_WARN of a port's lane group. -/
def State.pnWarn (s : State) (p : Nat) : Nat := s.pair (B.ETH (portLG p) + R.ETH_PN_WARN_LO_PN.off)

/-- A transmit SA becomes the active one of its port; one whose packet number has reached PN_WARN says so at once (R120). -/
def State.activateSa (s : State) (p an : Nat) : State :=
  let s := { s with eth := { s.eth with activeAN := tput (fun _ => 0) s.eth.activeAN p (an + 1) } }
  if s.pnWarn p ≤ (s.sa (128 * portLG p + 64 + 4 * (p % 4) + an)).pn then s.raise (176 + 4 * portLG p + 3) (p % 4) 0 else s

/-- MACsec protection of a frame: none where the port has no usable transmit SA. -/
def State.macsecTx (s : State) (p : Nat) (l : List Byte) : Option (List Byte × State) :=
  let g := portLG p
  let an := tget (fun _ => 0) s.eth.activeAN p
  if an = 0 then none
  else
    let i := 128 * g + 64 + 4 * (p % 4) + (an - 1)
    let x := s.sa i
    if !x.keyed || 2 ^ 64 - 1 ≤ x.pn then none
    else
      let tag := beBytes 2 0x88E5 ++ [BitVec.ofNat 8 (0x2C + (an - 1)), BitVec.ofNat 8 (if l.length - 12 < 48 then l.length - 12 else 0)]
        ++ beBytes 4 (x.pn % 2 ^ 32) ++ beBytes 8 x.sci
      let aad := l.take 12 ++ tag
      let s := s.setSa i { x with pn := x.pn + 1 }
      let s := if x.pn + 1 = s.pnWarn p then s.raise (176 + 4 * g + 3) (p % 4) 0 else s
      some (aad ++ Config.gcmSeal x.key (xpnNonce x x.pn) aad (l.drop 12), s)

/-- A frame leaves on a port, with the time word of its departure: MACsec, padding, FCS and counters. The length check
of R114 is made before. A frame without an active, keyed transmit SA is counted in TX_PN_DROP, like one whose SA is used up: R120
names no other counter (DESIGN CHOICE, assumption 85). -/
def State.sendFrame (s : State) (p : Nat) (l : List Byte) (time : Nat) : State :=
  let put := fun (s : State) (l : List Byte) =>
    let b := padBody l
    let s := (s.count (portCnt p C.ETH_TX_FRAMES)).countN (portCnt p C.ETH_TX_OCTETS) (b.length + 4)
    let s := { s with eth := { s.eth with txEnd := tput (fun _ => 0) s.eth.txEnd p (s.sentBy p (b.length + 4)) } }
    s.emit (.frame p (b ++ leBytes 4 (fcs b)) time)
  if s.flag (portBase p) R.ETH_PORT_CFG_MACSEC &&
      !(u16At l 12 = 0x88F7 && s.flag (portBase p) R.ETH_PORT_CFG_PTP_CLEAR) then
    match s.macsecTx p l with
    | none => s.count (portCnt p C.ETH_TX_PN_DROP)
    | some (l, s) => put s l
  else put s l

/-! ### Links (R116, R121) -/

/-- R116: the link of a port goes down. `remote`: a remote fault was received; `hiBer`: the bit-error ratio was high. -/
def execLinkDown (p : Port) (remote hiBer : Bool) (s : State) : Res :=
  .next (if s.portUp p then s.linkDown p remote hiBer else s)

/-- R116, R122: the link comes up, over copper or not, once alignment has held for 1 ms; its lane
groups have been calibrated in that time (R327). What R118 asks for is sent. -/
def execLinkUp (p : Port) (copper : Bool) (s : State) : Res :=
  if !s.portOn p || s.portUp p || !s.moduleOk p || !s.due (Tm.unaligned p) (ms 1) then .next s
  else
    let b := portBase p
    let s := (s.wrB b R.ETH_PORT_STATUS_LINK_UP true).wrB b R.ETH_PORT_STATUS_ALIGNED true
    let s := (s.wrB b R.ETH_PORT_STATUS_REMOTE_FAULT false).wrB b R.ETH_PORT_STATUS_HI_BER false
    let s := (s.wrB b R.ETH_PORT_STATUS_AN_DONE copper).stamp (Tm.linkUp p)
    let lanes := s.portLanes p
    let s := (lanes.map (· / 4)).eraseDups.foldl State.calibrate s
    .next ({ s with eth := { s.eth with squelched := s.eth.squelched.filter fun l => !lanes.contains l } }.updatePause p)

/-- R121: a lane that loses its signal, its CDR lock or its alignment has its recovered clock squelched; its port's PCS is not
aligned then. -/
def execLaneSignalLoss (lane : Fin 96) (s : State) : Res :=
  let s := match s.portOfLane lane with
    | some p => s.stamp (Tm.unaligned p)
    | none => s
  .next (if s.eth.squelched.contains lane.val then s
    else { s with eth := { s.eth with squelched := s.eth.squelched ++ [lane.val] } })

/-! ### Modules (R122 to R124) -/

/-- The cage of a lane group is filled with a module that advertises `w` - 1 W, or emptied (0). -/
def State.setCage (s : State) (g w : Nat) : State := { s with eth := { s.eth with cages := tput (fun _ => 0) s.eth.cages g w } }

/-- R122: MM_PRS_N falls: a module is inserted in an empty cage. -/
def execModuleInserted (g : LaneGroup) (watts : Nat) (s : State) : Res :=
  .next (if (s.module g).isSome then s else ((s.setCage g (watts + 1)).moduleSeen g).judgeModule g)

/-- MM_PRS_N rises. -/
def execModuleRemoved (g : LaneGroup) (s : State) : Res :=
  if (s.module g).isNone then .next s
  else
    let s := s.setCage g 0
    if !s.domOn (domLG g) then .next s
    else
      let b := B.ETH g
      let s := (s.wrB b R.ETH_MOD_STATUS_PRESENT false).wrB b R.ETH_MOD_STATUS_FEED_ON false
      .next ({ s with eth := { s.eth with released := s.eth.released.filter (· ≠ g.val) } }.emit (.pin (mmPin g "PWR_EN") false))

/-- R123: the load switch reports overcurrent: the feed goes off and stays off. -/
def execModuleOvercurrent (g : LaneGroup) (s : State) : Res :=
  let b := B.ETH g
  if !s.domOn (domLG g) || !s.flag b R.ETH_MOD_STATUS_FEED_ON then .next s
  else
    let s := (s.wrB b R.ETH_MOD_STATUS_FEED_ON false).wrB b R.ETH_MOD_STATUS_TRIP true
    .next ((s.emit (.pin (mmPin g "PWR_EN") false)).raise (176 + 4 * g + 1) 0 0)

/-- R124: the segment's data line is held low at the start of a transaction: nine clocks, a STOP and a retry each time, of which
`failures` fail; after the third the segment is isolated. -/
def execModuleI2cStuck (g : LaneGroup) (failures : Nat) (s : State) : Res :=
  let b := B.ETH g
  if !s.domOn (domLG g) || s.flag b R.ETH_MOD_STATUS_ISOLATED then .next s
  else
    let s := (List.range (min 3 (failures + 1))).foldl (fun s _ =>
      (List.replicate 9 "SCL" ++ ["STOP", "RETRY"]).foldl (fun s w => s.emit (.segment g w)) s) s
    .next (if failures < 3 then s else (s.wrB b R.ETH_MOD_STATUS_ISOLATED true).raise (176 + 4 * g + 1) 1 0)

end Sys2Proof.Machine
end

