-- ==== Sys2Proof/Machine/Husker.lean ====
section
/-! DEFINITION. The Husker: the parse graph, the parse, the carry it hands on, and graph memory access (chapter 6). -/
namespace Sys2Proof.Machine

/-! ### Graph memory (Tables 6.2 to 6.4, R131, R143) -/

/-- HUSK_MEM_ADDR's encoding of an entry. -/
def graphAddr (bank mem index : Nat) : Nat := bank * 2 ^ 13 + mem * 2 ^ 11 + index

def graphKey (h addr : Nat) : Nat := h * 2 ^ 14 + addr
/-- Keys of upsets: graph entries here, control-store words from 2^40, Seed entries from 2 · 2^40, Sieve units from
3 · 2^40. -/
def upsetWord (k : Nat) : Nat := 2 ^ 40 + k
def upsetSeed (k : Nat) : Nat := 2 * 2 ^ 40 + k
def upsetSieve (k : Nat) : Nat := 3 * 2 ^ 40 + k

def State.upset (s : State) (k : Nat) : Nat := tget (fun _ => 0) s.upsets k
def State.setUpset (s : State) (k v : Nat) : State := { s with upsets := tput (fun _ => 0) s.upsets k v }

/-- What a read shows, with an error that has arisen since the last one. -/
def State.noteEcc (s : State) (k : Nat) (e : Ecc) : State :=
  match e with
  | .good => s
  | .corrected => if s.upset k = 0 then s.setUpset k 1 else s
  | .bad => s.setUpset k 2

def State.graphAt (s : State) (h addr : Nat) : Nat := tget (fun _ => 0) s.micro.graph (graphKey h addr)

/-- The entry exists: 256 nodes, 2,048 transitions, 1,024 extracts. -/
def graphIndexOk (mem index : Nat) : Bool :=
  match mem with
  | 0 => decide (index < 256)
  | 1 => decide (index < 2048)
  | 2 => decide (index < 1024)
  | _ => false

/-! ### The parse (R132 to R135) -/

/-- A parse on its way. -/
structure Parse where
  stack : List (Nat × Nat)
  ext : List Byte
  hashIn : List Byte
  inner : Nat
  deriving DecidableEq, Repr

def Parse.start : Parse := { stack := [], ext := fit 48 [], hashIn := [], inner := 0 }

/-- How a parse ends: END code, and for GRAPH_ERR the failing entry. -/
structure ParseEnd where
  code : Nat
  bad : Nat
  p : Parse
  deriving DecidableEq, Repr

/-- A byte of a header at offset o of length L, for a packet seen to `lim` bytes: beyond either it reads as 0. -/
def hdrByte (data : List Byte) (lim o len off : Nat) : Byte :=
  if off < len && o + off < lim then data.getD (o + off) 0 else 0

def hdrBytes (data : List Byte) (lim o len off n : Nat) : List Byte :=
  (List.range n).map fun i => hdrByte data lim o len (off + i)

/-- LF_SH of Table 6.2. -/
def lfShift (sh v : Nat) : Nat := if sh < 4 then v * 2 ^ sh else v / 2 ^ (sh - 3)

/-- The length that LEN_MODE computes from a length byte. -/
def lenFrom (node : Nat) (b : Byte) : Nat :=
  let m := b.toNat &&& bitsOf node 100 93
  let v := if bitsOf node 118 117 = 2 then ((List.range 8).filter fun i => bitOf m i).length else m
  lfShift (bitsOf node 92 90) v + bitsOf node 89 82

/-- L of a node visit. A length byte that the length it gives would leave outside the header reads as 0
(assumption 15). -/
def headerLen (node : Nat) (data : List Byte) (lim o : Nat) : Nat :=
  if bitsOf node 118 117 = 0 then bitsOf node 116 109
  else
    let off := bitsOf node 108 101
    let l := lenFrom node (hdrByte data lim o (off + 1) off)
    if off < l || off < bitsOf node 116 109 then l else lenFrom node 0

/-- The ones'-complement sum of 16-bit words, folded (RFC 1071). -/
def onesSum : List Byte → Nat
  | [] => 0
  | [a] => a.toNat * 256
  | a :: b :: t =>
    let x := a.toNat * 256 + b.toNat + onesSum t
    if x < 2 ^ 16 then x else x % 2 ^ 16 + x / 2 ^ 16

/-- Bytes written into the EXTRACT area from DST on. -/
def putExt (ext : List Byte) (dst : Nat) (bs : List Byte) : List Byte :=
  fit 48 (ext.take dst ++ bs ++ ext.drop (dst + bs.length))

/-- One extract entry applied to a header. -/
def extract (e : Nat) (data : List Byte) (lim o len : Nat) (p : Parse) : Parse :=
  let bs := hdrBytes data lim o len (bitsOf e 23 16) (bitsOf e 15 12 + 1)
  { p with ext := putExt p.ext (bitsOf e 11 6) bs, hashIn := if bitOf e 31 then p.hashIn ++ bs else p.hashIn }

/-- The extract entries of a node in order: the parse so far, or the entry that fails its parity. Numbers above 1,023 wrap: R132 says
that such transition entries do not exist, and nothing of extract entries (DESIGN CHOICE, assumption 15). -/
def State.extracts (s : State) (h bank : Nat) (data : List Byte) (lim o len : Nat) : List Nat → Parse → Except Nat Parse
  | [], p => .ok p
  | i :: is, p =>
    let a := graphAddr bank 2 (i % 1024)
    if s.upset (graphKey h a) ≠ 0 then .error a
    else s.extracts h bank data lim o len is (extract (s.graphAt h a) data lim o len p)

/-- What the transition entries decide (R132 step 8): `none` where none matches. -/
def State.transition (s : State) (h bank key : Nat) : List Nat → Except Nat (Option Nat)
  | [] => .ok none
  | i :: is =>
    let a := graphAddr bank 1 i
    if 2048 ≤ i then s.transition h bank key is
    else if s.upset (graphKey h a) ≠ 0 then .error a
    else
      let e := s.graphAt h a
      if key &&& bitsOf e 95 64 = bitsOf e 127 96 &&& bitsOf e 95 64 then .ok (some e)
      else s.transition h bank key is

/-- Node visits from a node and offset (R132). `w` is the window W; P is the packet's length without FCS. -/
def State.visit (s : State) (h bank w : Nat) (data : List Byte) : Nat → Nat → Nat → Parse → ParseEnd
  | 0, _, _, p => ⟨6, 0, p⟩
  | fuel + 1, n, o, p =>
    let plen := data.length
    let lim := min plen w
    let na := graphAddr bank 0 n
    let node := s.graphAt h na
    let lmin := bitsOf node 116 109
    if 16 ≤ p.stack.length then ⟨6, 0, p⟩
    else if s.upset (graphKey h na) ≠ 0 then ⟨8, na, p⟩
    else if plen < o + lmin then ⟨2, 0, p⟩
    else if w < o + lmin then ⟨1, 0, p⟩
    else
      let len := headerLen node data lim o
      if len < lmin then ⟨3, 0, p⟩
      else if plen < o + len then ⟨2, 0, p⟩
      else if w < o + len then ⟨1, 0, p⟩
      else if bitOf node 57 &&
          (hdrByte data lim o len (bitsOf node 81 74)).toNat &&& bitsOf node 73 66 ≠ bitsOf node 65 58 then ⟨4, 0, p⟩
      else if bitOf node 119 && onesSum ((data.drop o).take len) ≠ 0xFFFF then ⟨5, 0, p⟩
      else
        let q : Parse := { p with
          stack := p.stack ++ [(bitsOf node 127 122, o)]
          inner := if bitOf node 121 then p.stack.length else p.inner
          hashIn := if bitOf node 120 then [] else p.hashIn }
        match s.extracts h bank data lim o len (List.range' (bitsOf node 21 12) (bitsOf node 11 9)) q with
        | .error a => ⟨8, a, p⟩
        | .ok q =>
          let key := beNat (hdrBytes data lim o len (bitsOf node 56 49) (bitsOf node 48 47 + 1))
          match s.transition h bank key (List.range' (bitsOf node 46 36) (bitsOf node 35 32)) with
          | .error a => ⟨8, a, p⟩
          | .ok (some e) =>
            if bitsOf e 55 54 = 0 then s.visit h bank w data fuel (bitsOf e 63 56) (o + len) q
            else ⟨if bitsOf e 55 54 = 1 then 0 else 7, 0, q⟩
          | .ok none =>
            if bitsOf node 31 30 = 2 then s.visit h bank w data fuel (bitsOf node 29 22) (o + len) q
            else ⟨if bitsOf node 31 30 = 0 then 0 else 7, 0, q⟩

def State.window (s : State) (h : Nat) : Nat := if s.lrActive h then 1024 else 192

/-- The start node of a packet (R135). -/
def State.startNode (s : State) (h bank : Nat) (o : Origin) : Nat :=
  let b := B.HUSK h + 4 * bank
  match o with
  | .eth _ | .survey => s.rd b R.HUSK_START_ETH_START
  | .plot _ _ _ => s.rd b R.HUSK_START_HOST_START
  | .core _ => s.rd b R.HUSK_START_CORE_START

def State.huskBank (s : State) (h : Nat) : Nat := s.rd (B.HUSK h) R.HUSK_CFG_ACTIVE_BANK

/-- The parse of a packet by a headrace's active graph. -/
def State.parse (s : State) (h : Nat) (k : Pkt) : ParseEnd :=
  let bank := s.huskBank h
  s.visit h bank (s.window h) k.data 17 (s.startNode h bank k.org) 0 Parse.start

/-- FLOW_HASH (R134). -/
def State.flowHash (s : State) (h : Nat) (l : List Byte) : Nat :=
  crcRaw 0x82F63B78 (s.rd (B.HUSK h) R.HUSK_HASH_SEED_SEED) l ^^^ 0xFFFFFFFF

/-- The carry handed to G0 (Table 6.9): bytes 96 to 127 are zero (R142), but a ring's packet has the ring's class in DEST.CLASS
(R276), which is the rule of the particular case (DEDUCED, assumption 15). -/
def State.carryOf (s : State) (h : Nat) (k : Pkt) (e : ParseEnd) (flags : Nat) : Nat :=
  let hst := (e.p.stack.zipIdx).foldl (fun v x => v + (x.1.1 * 2 ^ 10 + x.1.2 % 2 ^ 10) * 2 ^ (16 * x.2)) 0
  let cls := match k.org with
    | .plot _ _ _ | .core _ => k.cls
    | .eth _ | .survey => 0
  srcField k.org + 2 ^ 16 * ((k.data.length + 4) % 2 ^ 16)
    + 2 ^ 32 * (e.code * 2 ^ 12 + e.p.inner * 2 ^ 8 + e.p.stack.length) + 2 ^ 48 * flags
    + 2 ^ 64 * s.flowHash h e.p.hashIn + 2 ^ 96 * (k.time % 2 ^ 32) + 2 ^ 128 * hst + 2 ^ 384 * leNat e.p.ext
    + 2 ^ (768 + 27) * cls

/-- The action that an END code takes (Tables 6.7 and 6.8). -/
def State.parseAction (s : State) (h code : Nat) : Nat :=
  if code = 0 then 1
  else if code = 8 then 0
  else bitsOf (s.reg (B.HUSK h + R.HUSK_MAL_ACT_ACT_BEYOND.off)).toNat (2 * code + 1) (2 * code)

/-- A packet taken by the Husker of a headrace: parsed, counted, and handed to G0 or dropped (R132 to R142). -/
def State.husk (s : State) (h : Nat) (k : Pkt) : State :=
  let k := match k.org with
    | .eth _ => k
    | .plot _ _ _ | .core _ | .survey => { k with time := s.timeWord }
  let b := B.HUSK h
  let lr := s.lrActive h
  let e := s.parse h k
  let s := (s.count (b + C.HUSK_PARSED)).chainTaken k
  let s := if lr then s.count (b + C.HUSK_LR_PARSED) else s
  let s := if e.code = 0 then s else s.count (b + C.HUSK_END_BEYOND + 8 * (e.code - 1))
  let s := if e.code = 8 then s.raise (32 + 4 * h) 0 e.bad else s
  let act := s.parseAction h e.code
  if act = 0 then (s.count (b + C.HUSK_DROPPED)).chainParseDrop k
  else
    let flags := 2 ^ 15 * bit lr + 2 ^ 14 * bit (act = 2) + 2 ^ 13 * bit (act = 3)
    s.setToks h ((s.pipe h).toks ++ [Token.enter k (s.carryOf h k e flags) (s.huskBank h) lr])

/-- R127, R128: at a packet boundary LR_ACTIVE takes the value that the three conditions give it. -/
def execLongReachSwitch (h : Headrace) (s : State) : Res :=
  if !s.domOn (domHR h) then .next s
  else
    .next (s.wrB (B.HUSK h) R.HUSK_STATUS_LR_ACTIVE (s.flag (B.HUSK h) R.HUSK_CFG_LONG_REACH && s.lrMay))

/-! ### Graph memory access (R143) -/

/-- The command is granted: the domain is on, the entry exists, and the active bank is not named in Flowing or
Trickle. -/
def State.huskMemOk (s : State) (h : Nat) : Bool :=
  let b := B.HUSK h
  s.domOn (domHR h) && graphIndexOk (s.rd b R.HUSK_MEM_ADDR_MEM) (s.rd b R.HUSK_MEM_ADDR_INDEX)
    && !((s.mode = .flowing || s.mode = .trickle) && s.rd b R.HUSK_MEM_ADDR_BANK = s.huskBank h)

/-- n data registers from an address as one number. -/
def State.dataRegs (s : State) (a n : Nat) : Nat :=
  (List.range n).foldl (fun v i => v + (s.reg (a + 4 * i)).toNat * 2 ^ (32 * i)) 0

/-- n data registers set from one number. -/
def State.setDataRegs (s : State) (a n v : Nat) : State :=
  (List.range n).foldl (fun s i => s.wrW (a + 4 * i) (bitsOf v (32 * i + 31) (32 * i))) s

def State.setGraph (s : State) (k v : Nat) : State :=
  { s with micro := { s.micro with graph := tput (fun _ => 0) s.micro.graph k v } }.setUpset k 0

/-- R143: HUSK_MEM_CMD WRITE. -/
def execHuskMemWrite (h : Headrace) (s : State) : Res :=
  if !s.huskMemOk h then .next (s.answer .busError)
  else
    let a := (s.reg (B.HUSK h + R.HUSK_MEM_ADDR_INDEX.off)).toNat
    let old := s.graphAt h a
    let new := graphTakes (bitsOf a 12 11) old (s.dataRegs (B.HUSK h + R.HUSK_MEM_DATA_DATA.off) 4)
    .next ((s.setGraph (graphKey h a) new).answer .ok)

/-- R143: HUSK_MEM_CMD READ. -/
def execHuskMemRead (h : Headrace) (s : State) : Res :=
  if !s.huskMemOk h then .next (s.answer .busError)
  else
    let a := (s.reg (B.HUSK h + R.HUSK_MEM_ADDR_INDEX.off)).toNat
    .next ((s.setDataRegs (B.HUSK h + R.HUSK_MEM_DATA_DATA.off) 4 (s.graphAt h a)).answer .ok)

end Sys2Proof.Machine
end

