-- ==== Sys2Proof/Machine/Tables.lean ====
section
/-! DEFINITION. The Seed table, the Sieve, the Reservoir hash tables and the meters: entries, lookups, the updates that
keep the copies in step, notices and ageing (chapter 8, R246, R247). -/
namespace Sys2Proof.Machine

/-! ### Seed-table entries (Table 8.2, R174 to R177) -/

def Seed.static_ (e : Nat) : Bool := bitOf e 190
def Seed.hit (e : Nat) : Bool := bitOf e 189
def Seed.stale (e : Nat) : Bool := bitOf e 188
def Seed.home (e : Nat) : Nat := bitsOf e 187 186
def Seed.key (e : Nat) : Nat := bitsOf e 159 64
def Seed.data (e : Nat) : Nat := bitsOf e 63 0
def Seed.setValid (e : Nat) (b : Bool) : Nat := setBits e 191 191 (bit b)
def Seed.setHit (e : Nat) (b : Bool) : Nat := setBits e 189 189 (bit b)
def Seed.setStale (e : Nat) (b : Bool) : Nat := setBits e 188 188 (bit b)

def State.seedAt (s : State) (q i : Nat) : Nat := tget (fun _ => 0) s.tbl.seed (seedKey q i)

/-- A write of an entry: its parity is good again. -/
def State.setSeed (s : State) (q i e : Nat) : State :=
  (s.onTbl fun t => { t with seed := tput (fun _ => 0) t.seed (seedKey q i) e }).setUpset (upsetSeed (seedKey q i)) 0

/-- The index of a key's valid entry in a copy (R174). -/
def State.seedFind (s : State) (q key : Nat) : Option Nat :=
  (s.tbl.seed.find? fun e => e.1 / 2 ^ 17 = q && Seed.valid e.2 && Seed.key e.2 = key).map fun e => e.1 % 2 ^ 17

/-- The copy is full: every usable index is valid or retired (R177). -/
def State.seedFull (s : State) (q : Nat) : Bool :=
  seedUsable ≤ (s.tbl.seed.filter fun e =>
    e.1 / 2 ^ 17 = q && e.1 % 2 ^ 17 < seedUsable && (Seed.valid e.2 || Seed.retired e.2)).length

def State.copies (s : State) : List Nat := (List.range 4).filter s.copyOn

/-! ### Notices (Table 8.5, R196) -/

def State.noticesOf (s : State) (q : Nat) : List Notice := tget (fun _ => []) s.tbl.notices q
def State.setNotices (s : State) (q : Nat) (l : List Notice) : State :=
  s.onTbl fun t => { t with notices := tput (fun _ => []) t.notices q l }

/-- A sweeper or parity notice, where a place is free. -/
def State.postNotice (s : State) (q : Nat) (n : Notice) : State :=
  if (s.noticesOf q).length < 4096 then s.setNotices q (s.noticesOf q ++ [n]) else s

/-- Parity failure of an entry that a lookup reads (R203): counted, reported, and posted. -/
def State.seedParity (s : State) (q i : Nat) : State :=
  let e := s.seedAt q i
  let s := (s.count (B.SEED q + C.SEED_PARITY_MISS)).raise (160 + 4 * q) 0 (i * 0x20)
  s.postNotice q ⟨Seed.key e, 4, 0, 0, s.timeWord % 2 ^ 32, i, false⟩

def State.sieveParity (s : State) (q a : Nat) : State :=
  let s := (s.count (B.SIEV q + C.SIEV_PARITY_MISS)).raise (160 + 4 * q + 1) 0 (a * 0x20)
  s.postNotice q ⟨0, 4, 0, 0, s.timeWord % 2 ^ 32, a, true⟩

/-- A Seed-table lookup (R174, R175, R203): the data on a hit. `ecc` is what the entry's check shows from now on. -/
def State.seedLookup (s : State) (q key : Nat) (touch : Bool) (ecc : Ecc) : Option Nat × State :=
  match s.seedFind q key with
  | none => (none, s)
  | some i =>
    let u := upsetSeed (seedKey q i)
    let s := if ecc = .bad then s.setUpset u 2 else s
    if s.upset u = 2 then (none, s.seedParity q i)
    else
      let e := s.seedAt q i
      (some (Seed.data e), if touch then s.onTbl fun t =>
        { t with seed := tput (fun _ => 0) t.seed (seedKey q i) (Seed.setHit e true) } else s)

/-! ### Sieve (R178 to R181) -/

def sieveUnits : Nat := 98304
def bankUnits : Nat := 6144

def Sieve.value (u : Nat) : Nat := bitsOf u 79 0
def Sieve.mask (u : Nat) : Nat := bitsOf u 159 80
def Sieve.action (u : Nat) : Nat := bitsOf u 191 160

def State.unit (s : State) (q a : Nat) : Nat := tget (fun _ => 0) s.tbl.sieve (sieveKey q a)
def State.setUnit (s : State) (q a v : Nat) : State :=
  (s.onTbl fun t => { t with sieve := tput (fun _ => 0) t.sieve (sieveKey q a) v }).setUpset (upsetSieve (sieveKey q a)) 0

def profBase (q p : Nat) : Nat := B.SIEV q + 4 * p
def State.profEn (s : State) (q p : Nat) : Bool := s.flag (profBase q p) R.SIEV_PROF_EN
def State.profBanks (s : State) (q p : Nat) : Nat := s.rd (profBase q p) R.SIEV_PROF_BANKS
def State.profWidth (s : State) (q p : Nat) : Nat := 2 ^ (s.rd (profBase q p) R.SIEV_PROF_WIDTH % 3)

/-- An address of an entry of the profile: in one of its banks and aligned to its width. -/
def State.profAddrOk (s : State) (q p a : Nat) : Bool :=
  a < sieveUnits && a % s.profWidth q p = 0 && bitOf (s.profBanks q p) (a / bankUnits)

/-- The number of ones among the n low bits. -/
def popcount (n v : Nat) : Nat := ((List.range n).filter (bitOf v)).length

/-- An entry of w units as VALUE and MASK of 80 w bits. -/
def State.entryValue (s : State) (q a w : Nat) : Nat :=
  (List.range w).foldl (fun v k => v + Sieve.value (s.unit q (a + k)) * 2 ^ (80 * k)) 0
def State.entryMask (s : State) (q a w : Nat) : Nat :=
  (List.range w).foldl (fun v k => v + Sieve.mask (s.unit q (a + k)) * 2 ^ (80 * k)) 0

/-- A Sieve entry written to a copy, all units at one instant (R181). -/
def State.writeEntry (s : State) (q a w : Nat) (valid : Bool) (action value mask : Nat) : State :=
  (List.range w).foldl (fun s k =>
    let u := bitsOf value (80 * k + 79) (80 * k) + bitsOf mask (80 * k + 79) (80 * k) * 2 ^ 80
      + (if k = 0 then action % 2 ^ 32 * 2 ^ 160 + bit valid * 2 ^ 192 else 0)
    s.setUnit q (a + k) u) s

def State.clearEntry (s : State) (q a : Nat) : State :=
  s.setUnit q a (setBits (s.unit q a) 192 192 0)

/-- Addresses of the valid entries of a copy, or of the master, that lie in a profile of copy r, in rising order. -/
def State.profEntries (s : State) (r q p : Nat) : List Nat :=
  ((s.tbl.sieve.filter fun e => e.1 / 2 ^ 17 = q && Sieve.valid e.2).map (·.1 % 2 ^ 17)).filter (s.profAddrOk r p)

/-- The entry at an address matches a key. -/
def State.entryMatches (s : State) (q a w key : Nat) : Bool :=
  (key ^^^ s.entryValue q a w) &&& s.entryMask q a w == 0

/-- The winner among matching addresses in rising order (R180). -/
def State.sieveBest (s : State) (q w : Nat) (first : Bool) : List Nat → Option Nat
  | [] => none
  | a :: as =>
    match s.sieveBest q w first as with
    | none => some a
    | some b => if first || popcount (80 * w) (s.entryMask q b w) ≤ popcount (80 * w) (s.entryMask q a w) then some a
        else some b

/-- A unit of the entry fails its parity. -/
def State.entryBad (s : State) (q a w : Nat) : Bool := (List.range w).any fun k => s.upset (upsetSieve (sieveKey q (a + k))) = 2

/-- A Sieve lookup by a profile (R179, R180, R203): ACTION and address on a hit. -/
def State.sieveLookup (s : State) (q p key : Nat) (ecc : Ecc) : Option (Nat × Nat) × State :=
  if !s.profEn q p then (none, s)
  else
    let w := s.profWidth q p
    let first := s.flag (profBase q p) R.SIEV_PROF_MODE
    let ms := (s.profEntries q q p).filter fun a => s.entryMatches q a w (key % 2 ^ (80 * w))
    let s := match ecc, s.sieveBest q w first (ms.filter fun a => !s.entryBad q a w) with
      | .bad, some a => s.setUpset (upsetSieve (sieveKey q a)) 2
      | _, _ => s
    let s := (ms.filter fun a => s.entryBad q a w).foldl (fun s a => s.sieveParity q a) s
    match s.sieveBest q w first (ms.filter fun a => !s.entryBad q a w) with
    | none => (none, s)
    | some a => (some (Sieve.action (s.unit q a), a), s)

/-! ### Reservoir hash tables (R185 to R187) -/

/-- A correctable error at a stack address: counted and reported (R391). -/
def State.stackCE (s : State) (k a : Nat) : State :=
  (((s.count (B.RSV k + C.RSV_CE_CORR)).wrB (B.RSV k) R.RSV_ECC_STAT_CE true).raise (336 + 4 * k) 0 a)

/-- An uncorrectable error at a stack address: counted, its address recorded, reported (R391). -/
def State.stackUE (s : State) (k a : Nat) : State :=
  let s := (s.count (B.RSV k + C.RSV_UE)).wrB (B.RSV k) R.RSV_ECC_STAT_UE true
  (s.wrPair (B.RSV k + R.RSV_ECC_ADDR_LO_ADDR.off) a).raise (337 + 4 * k) 0 a

/-- An entry with an uncorrectable error is removed and counted (R187). -/
def State.dropSlot (s : State) (t i : Nat) : State :=
  (s.setSlot t i (setBits (s.slot t i) 511 511 0)).count (htCnt t 0x28)

/-- An entry read with an uncorrectable error (R187, Table 16.3). -/
def State.slotUncorrectable (s : State) (t i : Nat) : State :=
  let ra := s.slotRA t i
  (s.dropSlot t i).stackUE (raStack ra) (raStackAddr ra)

/-- A hash-table lookup (R183, R187): the slot's content on a hit. The counters of the tables lie in S1 (R208). -/
def State.htLookup (s : State) (t key : Nat) (touch : Bool) (ecc : Ecc) : Option Nat × State :=
  if !s.domOn 66 then (none, s)
  else
    let s := s.count (htCnt t 0)
    if !s.htEn t then (none, s)
    else match s.slotFind t (key % 2 ^ (64 * s.htK t)) with
      | none => (none, s)
      | some i =>
        if ecc = .bad then (none, s.slotUncorrectable t i)
        else
          let ra := s.slotRA t i
          let s := if ecc = .corrected then s.stackCE (raStack ra) (raStackAddr ra / 64 * 64) else s
          let v := s.slot t i
          let s := s.count (htCnt t 8)
          if touch && Slot.last v ≠ s.lastNow then
            (some v, (s.setSlot t i (Slot.setLast v s.lastNow)).count (htCnt t 0x10))
          else (some v, s)

/-- A gate UPDATE (R185). -/
def State.htUpdate (s : State) (t key w data : Nat) : State :=
  if !s.domOn 66 then s
  else
    let refuse := s.count (htCnt t 0x20)
    if !s.htEn t || w < s.htK t || w = 7 then refuse
    else match s.slotFind t (key % 2 ^ (64 * s.htK t)) with
      | none => refuse
      | some i => s.setSlot t i (setBits (s.slot t i) (64 * w + 63) (64 * w) data)

/-- A row of a hash table that is idle for IDLE or more (R186). -/
def State.idleSlot (s : State) (t i : Nat) : Bool :=
  let v := s.slot t i
  Slot.valid v && !Slot.static_ v &&
    decide (ms (s.idleMs t) ≤ (s.lastNow - Slot.last v) * 2 ^ 20)

/-- R186: a pass of the idle sweeper, once per period; a touch in the same handshake window cancels the removal of a slot. -/
def execRsvIdleSweep (t : Fin 8) (touched : List Nat) (s : State) : Res :=
  if !s.idleSwept t then .next s
  else .next (s.every (Tm.idle t) (s.idlePeriod t) fun s =>
    let is := (s.tbl.slots.filter fun e => e.1 / 2 ^ 28 = t.val).map (·.1 % 2 ^ 28)
    ((is.filter fun i => s.idleSlot t i).foldl (fun s i =>
      if touched.contains i then (s.setSlot t i (Slot.setLast (s.slot t i) s.lastNow)).count (htCnt t 0x10)
      else (s.setSlot t i (setBits (s.slot t i) 511 511 0)).count (htCnt t 0x18)) s).bgCaught 4)

/-! ### Meters (R246, R247) -/

def meterKey (q i : Nat) : Nat := q * 2 ^ 18 + i
def State.meter (s : State) (q i : Nat) : Nat := tget (fun _ => 0) s.tbl.meters (meterKey q i)
def State.setMeter (s : State) (q i v : Nat) : State :=
  s.onTbl fun t => { t with meters := tput (fun _ => 0) t.meters (meterKey q i) v }

/-- LAST of a meter entry and of the present: time-word bits [61:6]. -/
def Meter.last (v : Nat) : Nat := bitsOf v 155 128 * 2 ^ 28 + bitsOf v 219 192
def State.meterNow (s : State) : Nat := bitsOf s.timeWord 61 6
def Meter.tc (v : Nat) : Nat := bitsOf v 191 156
def Meter.tp (v : Nat) : Nat := bitsOf v 255 220
def Meter.set (v tc tp last : Nat) : Nat :=
  setBits (setBits (setBits (setBits v 191 156 tc) 255 220 tp) 155 128 (last / 2 ^ 28)) 219 192 (last % 2 ^ 28)

/-- A write of words 0 and 1 (R247): reserved bits 0, MODE 0b11 keeps the old mode. -/
def State.writeMeter (s : State) (q i w01 : Nat) : State :=
  let w := setBits (setBits (setBits (w01 % 2 ^ 128) 59 48 0) 127 120 0) 95 88 0
  let w := if bitsOf w 63 62 = 3 then setBits w 63 62 (bitsOf (s.meter q i) 63 62) else w
  s.setMeter q i (Meter.set w (bitsOf w 119 96 * 1024) (bitsOf w 87 64 * 1024) s.meterNow)

/-- The refill of a meter entry (R246 step 1). -/
def State.refillMeter (s : State) (v : Nat) : Nat :=
  let n := (s.meterNow + 2 ^ 56 - Meter.last v) % 2 ^ 56
  let cbs := bitsOf v 119 96 * 1024
  let pbs := bitsOf v 87 64 * 1024
  let tc := Meter.tc v + n * bitsOf v 47 24
  let ovr := if bitsOf v 63 62 = 2 && bitOf v 60 then tc - cbs else 0
  Meter.set v (sat cbs tc) (sat pbs (Meter.tp v + n * bitsOf v 23 0 + ovr)) s.meterNow

/-- The colour of a packet of b bytes, and the debits of TC and TP (Table 10.3): 0 green, 1 yellow, 2 red. -/
def colourOf (v b pre : Nat) : Nat × Nat × Nat :=
  let n := 1024 * b
  let pre := if bitOf v 61 then pre else 0
  let tc := Meter.tc v
  let tp := Meter.tp v
  match bitsOf v 63 62 with
  | 1 =>
    if 2 ≤ pre then (2, 0, 0)
    else if tp < n then (2, 0, 0)
    else if pre = 1 || tc < n then (1, 0, n)
    else (0, n, n)
  | 2 =>
    if 2 ≤ pre then (2, 0, 0)
    else if pre = 0 && n ≤ tc then (0, n, 0)
    else if n ≤ tp then (1, 0, n)
    else (2, 0, 0)
  | _ => (0, 0, 0)

/-- The meter operation (R246): colour. -/
def State.meterOp (s : State) (q i b pre : Nat) : Nat × State :=
  let v := s.refillMeter (s.meter q i)
  let (c, dc, dp) := colourOf v b pre
  (c, s.setMeter q i (Meter.set v (Meter.tc v - dc) (Meter.tp v - dp) s.meterNow))

/-- R247: SEED_MTR_CMD WRITE. -/
def execSeedMtrWrite (q : Quad) (s : State) : Res :=
  if !s.domOn (domQuad q) then .next (s.answer .busError)
  else .next ((s.writeMeter q (s.rd (B.SEED q) R.SEED_MTR_ADDR_INDEX)
    (s.dataRegs (B.SEED q + R.SEED_MTR_DATA_DATA.off) 4)).answer .ok)

/-- R247: SEED_MTR_CMD READ. -/
def execSeedMtrRead (q : Quad) (s : State) : Res :=
  if !s.domOn (domQuad q) then .next (s.answer .busError)
  else .next ((s.setDataRegs (B.SEED q + R.SEED_MTR_DATA_DATA.off) 8
    (s.meter q (s.rd (B.SEED q) R.SEED_MTR_ADDR_INDEX))).answer .ok)

/-! ### Entry access by registers (R143, R181, R195) -/

/-- A WRITE or CLEAR of a table entry: in Flowing and Trickle only from the Lockkeeper's table path. -/
def State.rawTableOk (s : State) (q : Nat) (tablePath : Bool) : Bool :=
  s.domOn (domQuad q) && (tablePath || !(s.mode = .flowing || s.mode = .trickle))

def execSeedEntWrite (q : Quad) (tablePath : Bool) (s : State) : Res :=
  if !s.rawTableOk q tablePath then .next (s.answer .busError)
  else
    let e := s.dataRegs (B.SEED q + R.SEED_ENT_DATA_DATA.off) 6
    .next ((s.setSeed q (s.rd (B.SEED q) R.SEED_ENT_ADDR_INDEX) (setBits e 184 160 0)).answer .ok)

def execSeedEntRead (q : Quad) (s : State) : Res :=
  if !s.domOn (domQuad q) then .next (s.answer .busError)
  else .next ((s.setDataRegs (B.SEED q + R.SEED_ENT_DATA_DATA.off) 6
    (s.seedAt q (s.rd (B.SEED q) R.SEED_ENT_ADDR_INDEX))).answer .ok)

def State.sievAddr (s : State) (q : Nat) : Nat := s.rd (B.SIEV q) R.SIEV_ENT_ADDR_ADDR
def State.sievWidth (s : State) (q : Nat) : Nat := s.bankWidth q (s.sievAddr q / bankUnits)

def execSievEntWrite (q : Quad) (tablePath : Bool) (s : State) : Res :=
  let a := s.sievAddr q
  if !s.rawTableOk q tablePath || a % s.sievWidth q ≠ 0 then .next (s.answer .busError)
  else .next ((s.writeEntry q a (s.sievWidth q) (s.flag (B.SIEV q) R.SIEV_ENT_CTRL_VALID)
    (s.rd (B.SIEV q) R.SIEV_ENT_ACTION_ACTION) (s.dataRegs (B.SIEV q + R.SIEV_ENT_VAL_VAL.off) 10)
    (s.dataRegs (B.SIEV q + R.SIEV_ENT_MSK_MSK.off) 10)).answer .ok)

def execSievEntClear (q : Quad) (tablePath : Bool) (s : State) : Res :=
  let a := s.sievAddr q
  if !s.rawTableOk q tablePath || a % s.sievWidth q ≠ 0 then .next (s.answer .busError)
  else .next ((s.clearEntry q a).answer .ok)

def execSievEntRead (q : Quad) (s : State) : Res :=
  if !s.domOn (domQuad q) then .next (s.answer .busError)
  else
    let a := s.sievAddr q
    let w := s.sievWidth q
    let v := s.entryValue q a w
    let m := s.entryMask q a w
    let s := s.setDataRegs (B.SIEV q + R.SIEV_ENT_VAL_VAL.off) 10 v
    let s := s.setDataRegs (B.SIEV q + R.SIEV_ENT_MSK_MSK.off) 10 m
    .next (((s.wrB (B.SIEV q) R.SIEV_ENT_CTRL_VALID (Sieve.valid (s.unit q a))).wr (B.SIEV q) R.SIEV_ENT_ACTION_ACTION
      (Sieve.action (s.unit q a))).answer .ok)

/-! ### Updates (R188 to R192) -/

/-- An update reaches every copy: the version rises, and each copy that takes updates shows it (R189). -/
def State.newVersion (s : State) : State :=
  let s := s.event none 7
  let v := (s.tbl.version + 1) % 2 ^ 32
  s.copies.foldl (fun s q => s.wr (B.SEED q) R.SEED_VERSION_VERSION v) (s.onTbl fun t => { t with version := v })

/-- An entry put into one copy: over the key's own entry, or at a free index (a free choice). -/
def State.seedPut (s : State) (q e : Nat) : State :=
  match s.seedFind q (Seed.key e) with
  | some i => s.setSeed q i e
  | none =>
    match s.choose (fun i => !Seed.valid (s.seedAt q i) && !Seed.retired (s.seedAt q i)) 0 seedUsable with
    | (some i, s) => s.setSeed q i e
    | (none, s) => s

def State.masterAt (s : State) (key : Nat) : Nat := tget (fun _ => 0) s.tbl.master key
def State.setMaster (s : State) (key e : Nat) : State :=
  s.onTbl fun t => { t with master := tput (fun _ => 0) t.master key e }

/-- The first copy that has no room for a key (R191). -/
def State.refusingCopy (s : State) (key : Nat) : Option Nat :=
  s.copies.find? fun q => (s.seedFind q key).isNone && s.seedFull q

/-- An insert or a change of an entry, all or none (R191): none where it was taken, else the copy that refused. -/
def State.seedInsert (s : State) (e : Nat) : Option Nat × State :=
  match s.refusingCopy (Seed.key e) with
  | some q => (some q, s.onTbl fun t => { t with insertFail := t.insertFail + 1 })
  | none => (none, ((s.copies.foldl (fun s q => s.seedPut q e) s).setMaster (Seed.key e) (Seed.setHit e false)).newVersion)

/-- A key's entry removed from one copy. -/
def State.seedTake (s : State) (q key : Nat) : State :=
  match s.seedFind q key with
  | some i => s.setSeed q i (Seed.setValid (s.seedAt q i) false)
  | none => s

/-- A removal from every copy and the master (R192). -/
def State.seedRemove (s : State) (key : Nat) : State :=
  ((s.copies.foldl (fun s q => s.seedTake q key) s).setMaster key 0).newVersion

/-! ### Barriers (R162) -/

/-- A barrier starts in a pipeline, or is extended. Inside a gate are the tokens in its lanes that have not executed LAST; one that
waits at an entrance is not, which R162 does not say (DESIGN CHOICE, assumption 15). -/
def State.barrier (s : State) (k : Nat) : State :=
  let x := s.pipe k
  let inside := fun t : Token => t.st = .lane
  (s.setToks k (x.toks.map fun t => { t with barred := t.barred || inside t, resp := t.resp.map fun r => { r with mark := true } })).wrB
    (B.PIPE k) R.BARRIER_DONE false

def State.pipesOn (s : State) : List Nat := (List.range 32).filter fun k => s.domOn (domPipe k)

/-- A pipeline has passed its barrier: every token that was inside a gate has met a safe point, and every lookup issued
before has answered. -/
def State.barrierPassed (s : State) (k : Nat) : Bool :=
  (s.pipe k).toks.all fun t => !t.barred && t.resp.all fun r => !r.mark

def State.barriersDone (s : State) : Bool := s.pipesOn.all fun k => s.flag (B.PIPE k) R.BARRIER_DONE

/-- A table update waits for its barriers. -/
def State.updateRuns (s : State) : Bool := s.jobs.any fun j => j.obj = barrierObj

/-- A command whose removal is in every copy reports once the barriers have completed (R192). -/
def State.afterBarriers (s : State) (q : Req) (opcode : Nat) (data : List Byte) : State :=
  let s := s.pipesOn.foldl State.barrier s
  if s.pipesOn = [] then s.done q data
  else { s with jobs := s.jobs ++ [{ q := q, mgen := s.mgen q, opcode := opcode, obj := barrierObj, due := 0, st := 0,
                                     data := data }] }

/-! ### Table commands (Table 8.8, R206, R207) -/

/-- A key kind that a customer command may use (R176). -/
def kindOk (key : Nat) : Bool := 32 ≤ key / 2 ^ 90 || key / 2 ^ 90 ≤ 3

/-- What a removal of a key's entry leaves for the answer to wait for: barriers, where there was an entry (R192). -/
def State.afterRemoval (s : State) (was : Bool) (q : Req) (opcode : Nat) (data : List Byte) : State :=
  if was then s.afterBarriers q opcode data else s.done q data

/-- One Seed-table record: status, and the copy that refused. -/
def State.seedRecord (s : State) (key data flags home : Nat) : Nat × Nat × State :=
  if 3 < home then (St.BAD_ARGUMENT, 0, s)
  else if !kindOk key then (St.REFUSED, 0, s)
  else if Seed.valid (s.masterAt key) && !bitOf flags 1 then (St.BAD_ARGUMENT, 0, s)
  else match s.seedInsert (Seed.mk (bitOf flags 0) false home key data) with
    | (some q, s) => (St.TABLE_FULL, q, s)
    | (none, s) => (St.DONE, 0, s)

def State.runSeedInsert (s : State) (q : Req) (c : Cmd) : State :=
  match s.seedRecord (leNat (c.bytes 8 12)) (c.u64 20) (c.u8 28) (c.u8 29) with
  | (st, full, s) =>
    s.finishWith q (Final.mk' st 1000 (if st = St.DONE || st = St.TABLE_FULL then
      leBytes 4 s.tbl.version ++ [BitVec.ofNat 8 full] else []))

def State.runSeedDelete (s : State) (q : Req) (c : Cmd) : State :=
  let key := leNat (c.bytes 8 12)
  if !kindOk key then s.finish q St.REFUSED
  else if !Seed.valid (s.masterAt key) then s.done q (leBytes 4 s.tbl.version ++ [0])
  else
    let s := s.seedRemove key
    s.afterBarriers q 0x0301 (leBytes 4 s.tbl.version ++ [1])

/-- Records of a Seed batch, one at a time: records applied and the status that ended it. -/
def State.seedRecords (s : State) : List (List Byte) → Nat → Nat × Nat × State
  | [], n => (n, St.DONE, s)
  | r :: rs, n =>
    match s.seedRecord (leNat (r.take 12)) (leNat ((r.drop 12).take 8)) (leNat ((r.drop 20).take 1))
        (leNat ((r.drop 21).take 1)) with
    | (st, _, s') => if st = St.DONE then s'.seedRecords rs (n + 1) else (n, st, s')

/-- A byte list cut into records of n bytes. -/
def records (n : Nat) : Nat → List Byte → List (List Byte)
  | 0, _ => []
  | k + 1, l => l.take n :: records n k (l.drop n)

def State.runSeedBatch (s : State) (q : Req) (c : Cmd) (buf : Fetch) : State :=
  let n := c.u32 16
  if n = 0 || 65536 < n then s.finish q St.BAD_ARGUMENT
  else s.withBuffer q (c.u64 8) (24 * n) buf (·.finish q St.BAD_ARGUMENT) fun l s =>
    match s.seedRecords (records 24 n l) 0 with
    | (k, st, s) => s.finishWith q (Final.mk' st 1000 (leBytes 4 k ++ leBytes 4 (if st = St.DONE then 0 else k)))

def State.runSeedFlush (s : State) (q : Req) (c : Cmd) : State :=
  let kind := c.u8 8
  if 64 ≤ kind then s.finish q St.BAD_ARGUMENT
  else if !kindOk (kind * 2 ^ 90) then s.finish q St.REFUSED
  else
    let gone := s.tbl.master.filter fun e => e.1 / 2 ^ 90 = kind && (c.u8 9 % 2 = 1 || !Seed.static_ e.2)
      && (Seed.data e.2 &&& c.u64 24) == (c.u64 16 &&& c.u64 24)
    (gone.foldl (fun s e => s.seedRemove e.1) s).afterRemoval (gone ≠ []) q 0x0304 (leBytes 4 gone.length)

/-- The copy that a read of a setting common to all copies goes to. -/
def State.refCopy (s : State) : Nat := s.copies.headD 0

/-- The entry's units are withdrawn in some copy. -/
def State.entryRetired (s : State) (a w : Nat) : Bool :=
  s.copies.any fun q => (List.range w).any fun k => Sieve.retired (s.unit q (a + k))

/-- A Sieve write to every copy and the master. -/
def State.sieveWriteAll (s : State) (a w : Nat) (valid : Bool) (action value mask : Nat) : State :=
  ((s.copies ++ [sieveMaster]).foldl (fun s q => s.writeEntry q a w valid action value mask) s).newVersion

def State.runSieveWrite (s : State) (q : Req) (c : Cmd) : State :=
  let p := c.u8 8
  let r := s.refCopy
  let w := s.profWidth r p
  let value := leNat (c.bytes 20 40)
  let mask := leNat (c.bytes 60 40)
  let any := c.u32 12 = 0xFFFF_FFFF
  if 16 ≤ p || !s.profEn r p || 2 ^ (80 * w) ≤ value || 2 ^ (80 * w) ≤ mask
      || (any && s.flag (profBase r p) R.SIEV_PROF_MODE) || (!any && !s.profAddrOk r p (c.u32 12)) then
    s.finish q St.BAD_ARGUMENT
  else
    let free := fun a => s.profAddrOk r p a && !Sieve.valid (s.unit sieveMaster a) && !s.entryRetired a w
    match (if any then s.choose free 0 sieveUnits else (some (c.u32 12), s)) with
    | (none, s) => s.finish q St.TABLE_FULL
    | (some a, s) =>
      if s.entryRetired a w then s.finish q St.TABLE_FULL
      else
        let was := Sieve.valid (s.unit sieveMaster a)
        let s := s.sieveWriteAll a w true (c.u32 16) value mask
        let data := leBytes 4 a ++ leBytes 4 s.tbl.version
        s.afterRemoval was q 0x0310 data

def State.runSieveClear (s : State) (q : Req) (c : Cmd) : State :=
  let p := c.u8 8
  let r := s.refCopy
  let a := c.u32 12
  if 16 ≤ p || !s.profEn r p || !s.profAddrOk r p a then s.finish q St.BAD_ARGUMENT
  else
    let was := Sieve.valid (s.unit sieveMaster a)
    let s := ((s.copies ++ [sieveMaster]).foldl (fun s q => s.clearEntry q a) s).newVersion
    let data := leBytes 4 s.tbl.version
    s.afterRemoval was q 0x0311 data

/-- A setting of every powered copy, which copies loaded later take too (R193). -/
def State.setCopies (s : State) (off v : Nat) : State :=
  let s := s.copies.foldl (fun s q => s.wrW (B.QUAD q + off) v) s
  s.onTbl fun t => { t with cfg := tins t.cfg off (BitVec.ofNat 32 v) }

/-- A Sieve profile (R179, R181, R207). Banks with valid entries keep their width, and so do those of another profile's set. -/
def State.runSieveProfile (s : State) (q : Req) (c : Cmd) : State :=
  let p := c.u8 8
  let en := bitOf (c.u8 9) 0
  let wcode := if c.u8 10 = 1 then 0 else if c.u8 10 = 2 then 1 else 2
  let banks := c.u16 12
  let r := s.refCopy
  let old := if s.profEn r p then s.profBanks r p else 0
  let new := if en then banks else 0
  let used := fun b => (s.copies ++ [sieveMaster]).any fun x => s.bankHeld x b
  let others := (List.range 16).any fun x => x ≠ p && s.profEn r x && (s.profBanks r x &&& new) != 0
  let kept := (List.range 16).any fun b => bitOf banks b && (used b || s.bankOwned r b p) && s.bankWidth r b ≠ c.u8 10
  let moved := (List.range 16).any fun b => bitOf (old ^^^ new) b && used b
  if 16 ≤ p || (c.u8 10 ≠ 1 && c.u8 10 ≠ 2 && c.u8 10 ≠ 4) || others then s.finish q St.BAD_ARGUMENT
  else if s.mode = .flowing && moved then s.busyRetry q 1000
  else if kept then s.finish q St.BAD_ARGUMENT
  else
    let a := 0xD_0000 + R.SIEV_BANK_CFG_WIDTH.off
    let w := (List.range 16).foldl (fun v b => if bitOf banks b then setBits v (2 * b + 1) (2 * b) wcode else v)
      (s.reg (B.QUAD r + a)).toNat
    ((s.setCopies a w).setCopies (0xD_0100 + 4 * p)
      (bit en * 2 ^ 31 + bitsOf (c.u8 9) 1 1 * 2 ^ 30 + wcode * 2 ^ 28 + banks)).done q []

/-- The table command on a tag is carried out (rows of Table 8.8 that update the Seed table or the Sieve). -/
def State.runTable (s : State) (q : Req) (buf : Fetch) : State :=
  match (s.tag q).cur with
  | none => s
  | some c =>
    if c.opcode = 0x0300 then s.runSeedInsert q c
    else if c.opcode = 0x0301 then s.runSeedDelete q c
    else if c.opcode = 0x0303 then s.runSeedBatch q c buf
    else if c.opcode = 0x0304 then s.runSeedFlush q c
    else if c.opcode = 0x0310 then s.runSieveWrite q c
    else if c.opcode = 0x0311 then s.runSieveClear q c
    else if c.opcode = 0x0313 then s.runSieveProfile q c
    else s

/-- Updates wait while a copy is being loaded, and while a token can still act on an entry removed before (R188, R192,
R193). -/
def State.tableHeld (s : State) : Bool := s.tbl.loading ≠ [] || s.updateRuns

/-- A table update starts now, or waits its turn. -/
def State.tableCommand (s : State) (q : Req) (opcode : Nat) (buf : Fetch) : State :=
  s.command q opcode fun _ s =>
    if s.tbl.waiting.any (fun w => w.q = q && w.mgen = s.mgen q) then s
    else if s.tableHeld || s.tbl.waiting ≠ [] then
      s.onTbl fun t => { t with waiting := t.waiting ++ [⟨q, s.mgen q, buf⟩] }
    else s.runTable q buf

/-- The updates that wait, in order, as far as they can. -/
def State.drainTable (s : State) : List TblWait → State
  | [] => s.onTbl fun t => { t with waiting := [] }
  | w :: ws =>
    if s.tableHeld then s.onTbl fun t => { t with waiting := w :: ws }
    else if s.mgen w.q = w.mgen then (s.runTable w.q w.buf).drainTable ws
    else s.drainTable ws

/-- Removals whose barriers have all completed report, and what waited for them goes on. -/
def State.barriersEnded (s : State) : State :=
  if !s.barriersDone then s
  else
    let js := s.jobs.filter fun j => j.obj = barrierObj
    let s := js.foldl (fun s j => s.endJob j (Final.mk' St.DONE 0 j.data)) s
    s.drainTable s.tbl.waiting

def execTblSeedInsert (q : Req) (s : State) : Res := .next (s.tableCommand q 0x0300 .timeout)
def execTblSeedDelete (q : Req) (s : State) : Res := .next (s.tableCommand q 0x0301 .timeout)
def execTblSeedBatch (q : Req) (buf : Fetch) (s : State) : Res := .next (s.tableCommand q 0x0303 buf)
def execTblSeedFlush (q : Req) (s : State) : Res := .next (s.tableCommand q 0x0304 .timeout)
def execTblSieveWrite (q : Req) (s : State) : Res := .next (s.tableCommand q 0x0310 .timeout)
def execTblSieveClear (q : Req) (s : State) : Res := .next (s.tableCommand q 0x0311 .timeout)
def execTblSieveProfile (q : Req) (s : State) : Res := .next (s.tableCommand q 0x0313 .timeout)

/-- R206: data, flags, presence per copy and version of a key. -/
def execTblSeedRead (q : Req) (s : State) : Res :=
  .next (s.command q 0x0302 fun c s =>
    let key := leNat (c.bytes 8 12)
    let e := s.masterAt key
    if !kindOk key then s.finish q St.REFUSED
    else
    let there := (List.range 4).foldl (fun v x => v + bit (s.domOn (domQuad x) && (s.seedFind x key).isSome) * 2 ^ x) 0
    s.done q (leBytes 8 (Seed.data e) ++ [BitVec.ofNat 8 (bit (Seed.static_ e)), BitVec.ofNat 8 there, 0, 0]
      ++ leBytes 4 s.tbl.version))

/-- R206: a Sieve entry and its validity in each copy. -/
def execTblSieveRead (q : Req) (s : State) : Res :=
  .next (s.command q 0x0312 fun c s =>
    let a := c.u32 12
    let w := s.bankWidth s.refCopy (a / bankUnits)
    if sieveUnits ≤ a || a % w ≠ 0 then s.finish q St.BAD_ARGUMENT
    else
      let there := (List.range 4).foldl (fun v x => v + bit (s.domOn (domQuad x) && Sieve.valid (s.unit x a)) * 2 ^ x) 0
      s.done q (leBytes 4 (Sieve.action (s.unit sieveMaster a)) ++ leBytes 40 (s.entryValue sieveMaster a w)
        ++ leBytes 40 (s.entryMask sieveMaster a w) ++ [BitVec.ofNat 8 there]))

/-- MiB of a hash table. -/
def htMiB (log : Nat) : Nat := max 1 (2 ^ log * 64 / 2 ^ 20)

/-- The defined tables: MiB at which each begins, and its length. -/
def State.htPlaces (s : State) : List (Nat × Nat) :=
  ((List.range 8).filter fun t => s.flag (htBase t) R.RSV_HT_CFG_EN).map fun t =>
    (s.rd (htBase t) R.RSV_HT_CFG_BASE, htMiB (s.htLog t))

/-- The other users of S1 to S3, where the Lockkeeper placed them at Priming, each as large as Table 1.2 lets it grow: tap rings,
Hopper pools, core memory, Conduit buffers and Reservoir queues (DESIGN CHOICE, assumption 18). -/
def State.rsvPlaces (s : State) : List (Nat × Nat) :=
  [(Config.region 0, 1024), (Config.region 1, 2048), (Config.region 2, s.coreMemLen / 2 ^ 20), (Config.region 3, 2048),
   (Config.region 4, 16384)].map fun x => (x.1 / 2 ^ 20, x.2)

/-- A table of n MiB fits at `base` in the part that is interleaved over three stacks, apart from every other user. -/
def State.htFits (s : State) (base n : Nat) : Bool :=
  decide (base + n ≤ 60 * 1024)
    && (s.htPlaces ++ s.rsvPlaces).all fun x => decide (base + n ≤ x.1) || decide (x.1 + x.2 ≤ base)

/-- R207: a hash table is defined. Where the Lockkeeper places it is a free choice among the places that fit (R20). -/
def execTblRsvCreate (q : Req) (s : State) : Res :=
  .next (s.command q 0x0320 fun c s =>
    let t := c.u8 8
    let k := c.u8 9
    let l := c.u8 10
    if 8 ≤ t || s.flag (htBase t) R.RSV_HT_CFG_EN || k = 0 || 5 < k || l < 10 || 28 < l then s.finish q St.BAD_ARGUMENT
    else if !([66, 67, 68].all s.domOn) || 32 * 1024 < (s.htPlaces.map (·.2)).sum + htMiB l then
      s.finish q St.NO_RESOURCE
    else
      let (f, s) := s.draw
      let cands := (f % (60 * 1024)) :: 0 :: (s.htPlaces ++ s.rsvPlaces).map (fun x => x.1 + x.2)
      match cands.find? fun b => s.htFits b (htMiB l) with
      | none => s.finish q St.NO_RESOURCE
      | some b =>
        let s := s.onTbl fun x => { x with slots := tdrop (fun i => i / 2 ^ 28 == t) x.slots }
        let s := s.wrW (htBase t + 0x200) (2 ^ 31 + k * 2 ^ 24 + l * 2 ^ 16 + b)
        (((s.wr (htBase t) R.RSV_HT_IDLE_IDLE (c.u32 12)).wr (htBase t) R.RSV_HT_SEED_SEED (c.u32 16)).stamp (Tm.idle t)).done q [])

/-- R207: a hash table is removed. -/
def execTblRsvDestroy (q : Req) (s : State) : Res :=
  .next (s.command q 0x0321 fun c s =>
    let t := c.u8 8
    if 8 ≤ t || !s.flag (htBase t) R.RSV_HT_CFG_EN then s.finish q St.BAD_ARGUMENT
    else
      let s := s.onTbl fun x => { x with slots := tdrop (fun i => i / 2 ^ 28 == t) x.slots }
      (s.wrB (htBase t) R.RSV_HT_CFG_EN false).done q [])

def execTblRsvInsert (q : Req) (s : State) : Res :=
  .next (s.command q 0x0322 fun c s =>
    match s.rsvRecord (c.u8 8) (c.u8 9) (leNat (c.bytes 16 56)) with
    | (st, i, n, s) => s.finishWith q (Final.mk' st 1000 (if st = St.DONE then leBytes 4 i ++ [BitVec.ofNat 8 n] else [])))

def execTblRsvDelete (q : Req) (s : State) : Res :=
  .next (s.command q 0x0323 fun c s =>
    let t := c.u8 8
    if 8 ≤ t || !s.htEn t then s.finish q St.BAD_ARGUMENT
    else match s.slotFind t (leNat (c.bytes 16 40) % 2 ^ (64 * s.htK t)) with
      | none => s.done q [0]
      | some i => (s.setSlot t i (setBits (s.slot t i) 511 511 0)).done q [1])

def execTblRsvRead (q : Req) (s : State) : Res :=
  .next (s.command q 0x0324 fun c s =>
    let t := c.u8 8
    if 8 ≤ t || !s.htEn t then s.finish q St.BAD_ARGUMENT
    else match s.slotFind t (leNat (c.bytes 16 40) % 2 ^ (64 * s.htK t)) with
      | none => s.done q (fit 64 [] ++ [0])
      | some i => s.done q (leBytes 64 (s.slot t i) ++ [1]))

def State.rsvRecords (s : State) (t : Nat) : List (List Byte) → Nat → Nat × Nat × State
  | [], n => (n, St.DONE, s)
  | r :: rs, n =>
    match s.rsvRecord t (r.getD 56 0).toNat (leNat (r.take 56)) with
    | (st, _, _, s') => if st = St.DONE then s'.rsvRecords t rs (n + 1) else (n, st, s')

def execTblRsvBatch (q : Req) (buf : Fetch) (s : State) : Res :=
  .next (s.command q 0x0325 fun c s =>
    let n := c.u32 24
    if 8 ≤ c.u8 8 || !s.htEn (c.u8 8) then s.finish q St.BAD_ARGUMENT
    else s.withBuffer q (c.u64 16) (64 * n) buf (·.finish q St.BAD_ARGUMENT) fun l s =>
      match s.rsvRecords (c.u8 8) (records 64 n l) 0 with
      | (k, st, s) => s.finishWith q (Final.mk' st 1000 (leBytes 4 k ++ leBytes 4 (if st = St.DONE then 0 else k))))

def execTblStatus (q : Req) (s : State) : Res :=
  .next (s.command q 0x0330 fun _ s =>
    let copy := fun x => leBytes 4 (s.rd (B.SEED x) R.SEED_VERSION_VERSION) ++ leBytes 4 (s.seedCount x Seed.valid)
      ++ leBytes 4 (s.seedCount x Seed.retired) ++ leBytes 4 (s.sieveRetired x)
    let occ := fun t => leBytes 4 (s.tbl.slots.filter fun e => e.1 / 2 ^ 28 = t && Slot.valid e.2).length
    s.done q ((List.range 4).flatMap copy ++ leBytes 8 s.tbl.insertFail ++ leBytes 8 s.tbl.learnStatic
      ++ leBytes 8 s.tbl.missSeen ++ (List.range 8).flatMap occ))

/-- AGE_PERIOD and LF_HOLD of a copy; a change of the period moves the sweeper's schedule (assumption 87). -/
def State.setAging (s : State) (q period hold : Nat) : State :=
  let old := s.agePeriod q
  let s := (s.wr (B.SEED q) R.SEED_CFG_AGE_PERIOD period).wr (B.SEED q) R.SEED_CFG_LF_HOLD hold
  if s.agePeriod q = old then s else s.restartSweep q

def execTblAgeCfg (q : Req) (s : State) : Res :=
  .next (s.command q 0x0331 fun c s =>
    if 1000 < c.u16 8 || c.u8 10 = 0 || (32 ≤ c.u8 11 && c.u8 11 ≠ 0xFF) then s.finish q St.BAD_ARGUMENT
    else
      let s := ((List.range 4).filter fun x => s.domOn (domQuad x)).foldl (fun s x => s.setAging x (c.u16 8) (c.u8 10)) s
      (s.onTbl fun t => { t with missCore := c.u8 11,
                                 cfg := tins t.cfg 0xC_0000 (BitVec.ofNat 32 (c.u16 8 * 2 ^ 16 + c.u8 10 * 2 ^ 8)) }).done q [])

/-- R193: a copy has been loaded from the master, with the settings that commands gave to the others; what waited is
applied. -/
def execTableCopyLoaded (q : Quad) (s : State) : Res :=
  if !s.tbl.loading.contains q.val || !s.domOn (domQuad q) then .next s
  else
    let s := s.onTbl fun t => { t with
      loading := t.loading.filter (· ≠ q.val)
      sieve := t.sieve.filterMap (fun e => if e.1 / 2 ^ 17 = q.val then none else some e) }
    let s := s.tbl.master.foldl (fun s e => s.seedPut q e.2) s
    let s := (s.tbl.sieve.filter fun e => e.1 / 2 ^ 17 = sieveMaster).foldl (fun s e => s.setUnit q (e.1 % 2 ^ 17) e.2) s
    let s := s.tbl.cfg.foldl (fun (s : State) (e : Nat × Word) =>
      if e.1 = 0xC_0000 then s.setAging q (bitsOf e.2.toNat 31 16) (bitsOf e.2.toNat 15 8) else s.setReg (B.QUAD q + e.1) e.2) s
    let s := s.wr (B.SEED q) R.SEED_VERSION_VERSION s.tbl.version
    .next (s.drainTable s.tbl.waiting)

/-! ### Notices served (R198, R201, R204) -/

/-- The oldest notice of a queue, taken; notices wait while a copy is being loaded, and in Trickle, which holds copy 0
unchanged, all but those of parity errors (R95). -/
def State.serveNotice (s : State) (q : Nat) (type : Nat) (k : Notice → State → State) : State :=
  match s.noticesOf q with
  | [] => s
  | n :: ns =>
    if n.type = type && s.tbl.loading = [] && s.modes.lkRunning && (type = 4 || s.mode ≠ .trickle) then k n (s.setNotices q ns) else s

/-- An entry as the master has it, with the HIT and STALE of the copy's own. -/
def Seed.likeMaster (master e : Nat) : Nat := Seed.setStale (Seed.setHit master (Seed.hit e)) (Seed.stale e)

/-- The posting copy's entry is made to agree with the master; where it is absent it is written again, with HIT 1 as for a
learned one (DESIGN CHOICE, assumption 87). -/
def State.repairSeed (s : State) (q key : Nat) : State :=
  let e := s.masterAt key
  match s.seedFind q key with
  | none => s.seedPut q (Seed.setHit e true)
  | some i => s.setSeed q i (Seed.likeMaster e (s.seedAt q i))

/-- R198: a learn notice. -/
def execLearnNotice (q : Quad) (s : State) : Res :=
  .next (s.serveNotice q 0 fun n s =>
    let e := s.masterAt n.key
    if !Seed.valid e then (s.seedInsert (Seed.mk false true q n.key n.data)).2
    else if Seed.data e = n.data then s.repairSeed q n.key
    else if Seed.static_ e then s.onTbl fun t => { t with learnStatic := t.learnStatic + 1 }
    else (s.seedInsert (Seed.mk false true q n.key n.data)).2)

/-- Bytes of a notice (Table 8.5). -/
def noticeBytes (q : Nat) (n : Notice) : List Byte :=
  leBytes 12 n.key ++ leBytes 4 (n.type * 2 ^ 28 + q * 2 ^ 26 + n.hr % 4 * 2 ^ 24) ++ leBytes 8 n.data
    ++ leBytes 4 n.time ++ leBytes 4 n.index

/-- R198: a miss notice, counted and passed to the named core mailbox. -/
def execMissNotice (q : Quad) (s : State) : Res :=
  .next (s.serveNotice q 1 fun n s =>
    let s := s.onTbl fun t => { t with missSeen := t.missSeen + 1 }
    if s.tbl.missCore < 32 then s.emit (.missNotice s.tbl.missCore (noticeBytes q n)) else s)

/-- R201: an age notice removes the key from the other copies and the master. -/
def execAgeNotice (q : Quad) (s : State) : Res :=
  .next (s.serveNotice q 2 fun n s =>
    (((s.copies.filter (· ≠ q.val)).foldl (fun s x => s.seedTake x n.key) s).setMaster n.key 0).newVersion)

/-- R201: a remote hit sets HIT in the home copy. -/
def execRemoteHitNotice (q : Quad) (s : State) : Res :=
  .next (s.serveNotice q 3 fun n s =>
    let h := Seed.home (s.masterAt n.key)
    if !Seed.valid (s.masterAt n.key) || !s.copyOn h then s
    else match s.seedFind h n.key with
      | none => s
      | some i => s.setSeed h i (Seed.setHit (s.seedAt h i) true))

/-- A Seed-table location withdrawn (R204), and its entry placed elsewhere in the copy or withdrawn from all. -/
def State.retireSeed (s : State) (q i key : Nat) : State :=
  let s := s.setSeed q i (2 ^ 185)
  let e := s.masterAt key
  if !Seed.valid e then s
  else if s.seedFull q then
    let s := s.seedRemove key
    if Seed.static_ e then s.raise 26 0 0 else s
  else s.seedPut q e

/-- A profile whose entries an address can hold. -/
def State.profOf (s : State) (q a : Nat) : Option Nat :=
  (List.range 16).find? fun p => s.profEn q p && s.profAddrOk q p a

/-- A Sieve location withdrawn (R204), and its entry moved in every copy within the profile's order. -/
def State.retireSieve (s : State) (q a w : Nat) : State :=
  let v := s.entryValue sieveMaster a w
  let m := s.entryMask sieveMaster a w
  let act := Sieve.action (s.unit sieveMaster a)
  let s := (List.range w).foldl (fun s k => s.setUnit q (a + k) (2 ^ 193)) s
  if !Sieve.valid (s.unit sieveMaster a) then s
  else match s.profOf q a with
    | none => s.raise 26 0 0
    | some p =>
      let es := s.profEntries q sieveMaster p
      let lo := (es.filter (· < a)).foldl (fun x y => max x (y + 1)) 0
      let hi := (es.filter (a < ·)).foldl min sieveUnits
      let free := fun x => x ≠ a && s.profAddrOk q p x && !Sieve.valid (s.unit sieveMaster x) && !s.entryRetired x w
      match s.choose free lo hi with
      | (none, s) => s.raise 26 0 0
      | (some b, s) =>
        let s := s.sieveWriteAll b w true act v m
        ((s.copies.filter (· ≠ q)) ++ [sieveMaster]).foldl (fun s x => s.clearEntry x a) s

/-- R204: the failed entry is rewritten from the master and read back. A location that is retired stays so. The master holds
nothing for the entries of the static table, which are written again as they were, and a second entry with the key of a valid
one is not written (R174). -/
def State.rewriteEntry (s : State) (q : Nat) (sieve : Bool) (i : Nat) (readBack : Bool) : State :=
  if sieve then
    let w := s.bankWidth q (i / bankUnits)
    let a := i / w * w
    if (List.range w).any fun k => Sieve.retired (s.unit q (a + k)) then
      (List.range w).foldl (fun s k => s.setUnit q (a + k) (s.unit q (a + k))) s
    else if readBack then (List.range w).foldl (fun s k => s.setUnit q (a + k) (s.unit sieveMaster (a + k))) s
    else s.retireSieve q a w
  else
    let e := s.seedAt q i
    let key := Seed.key e
    let master := s.masterAt key
    if Seed.retired e || (readBack && seedUsable ≤ i) then s.setSeed q i e
    else if !readBack then s.retireSeed q i key
    else if Seed.valid master && (s.seedFind q key = some i || s.seedFind q key = none) then
      s.setSeed q i (Seed.likeMaster master e)
    else s.setSeed q i 0

def execParityNotice (q : Quad) (readBack : Bool) (s : State) : Res :=
  .next (s.serveNotice q 4 fun n s => (s.rewriteEntry q n.sieve n.index readBack).ackRouted (160 + 4 * q + bit n.sieve))

/-! ### Ageing (R197, R199, R200) -/

/-- Entries from the one at which the sweeper of copy q stands to entry i, which it has still to visit before i. -/
def State.sweepGap (s : State) (q i : Nat) : Nat := (i + 131072 - (s.sweepOf q).1) % 131072

/-- The visit of entry i is next: it is due, and the entries before it are empty, so that their visits change nothing. -/
def State.sweepMay (s : State) (q i : Nat) : Bool :=
  let (n, due) := s.sweepOf q
  s.sweeps q && decide (due + s.sweepGap q i * s.agePeriod q ≤ s.now * 131072)
    && s.tbl.seed.all fun e => e.1 / 2 ^ 17 ≠ q || s.sweepGap q i ≤ (e.1 % 2 ^ 17 + 131072 - n) % 131072

/-- The action of a visit of entry i (Table 8.6); `hit` is a hit in the same handshake window. None where the sweeper waits for
a place in the notice queue (R196). -/
def State.sweepVisit (s : State) (q i : Nat) (hit : Bool) : Option State :=
  let e := s.seedAt q i
  let put := fun (s : State) (e : Nat) => s.onTbl fun t => { t with seed := tput (fun _ => 0) t.seed (seedKey q i) e }
  let fullQ := decide (4096 ≤ (s.noticesOf q).length)
  let note := fun (s : State) (type : Nat) => s.postNotice q ⟨Seed.key e, type, 0, 0, s.timeWord % 2 ^ 32, i, false⟩
  if !Seed.valid e || Seed.static_ e then some (put s (Seed.setHit e false))
  else if Seed.home e = q then
    if Seed.hit e then some (put s (Seed.setStale (Seed.setHit e false) false))
    else if !Seed.stale e then some (put s (Seed.setStale e true))
    else if hit then some ((put s (Seed.setHit e true)).count (B.SEED q + C.SEED_AGE_CANCELLED))
    else if fullQ then none
    else some (note ((put s (Seed.setValid e false)).count (B.SEED q + C.SEED_AGED)) 2)
  else if Seed.hit e then
    (if fullQ then none else some (note ((put s (Seed.setHit e false)).count (B.SEED q + C.SEED_REMOTE_HIT)) 3))
  else some s

/-- R199: the sweeper of copy q visits entry i, at its phase of the period. -/
def execSweeperVisit (q : Quad) (i : Fin 131072) (hit : Bool) (s : State) : Res :=
  if !s.sweepMay q i then .next s
  else match s.sweepVisit q i hit with
    | none => .next s
    | some s' =>
      .next ((s'.setSweep q ((i.val + 1) % 131072, (s.sweepOf q).2 + (s.sweepGap q i + 1) * s.agePeriod q)).bgCaught 3)

def State.filterOf (s : State) (h : Nat) : List (Nat × Nat) := tget (fun _ => []) s.tbl.filters h
def State.setFilter (s : State) (h : Nat) (l : List (Nat × Nat)) : State :=
  s.onTbl fun t => { t with filters := tput (fun _ => []) t.filters h l }

/-- LF_HOLD of a headrace's quadrant in ns. -/
def State.lfHold (s : State) (h : Nat) : Nat := us (100 * s.rd (B.SEED (h / 4)) R.SEED_CFG_LF_HOLD)

/-- R197: keys leave the filter LF_HOLD after they entered. -/
def execLearnFilterExpire (h : Headrace) (s : State) : Res :=
  .next (s.setFilter h ((s.filterOf h).filter fun e => s.now < e.2 + s.lfHold h))

/-- A LEARN word (R196, R197): notice type, key and data. -/
def State.learn (s : State) (h type key data arr : Nat) : State :=
  let q := h / 4
  let f := (s.filterOf h).filter fun e => s.now < e.2 + s.lfHold h
  if !s.flag (B.SEED q) R.SEED_CFG_LEARN_EN || !s.domOn (domQuad q) || s.mode = .trickle then s
  else if f.any fun e => e.1 = key then s.count (B.SEED q + C.SEED_LEARN_FILTERED)
  else if 3584 ≤ (s.noticesOf q).length then s.count (B.SEED q + C.SEED_LEARN_OVERFLOW)
  else
    let f := if 256 ≤ f.length then f.drop 1 else f
    let s := (s.setFilter h (f ++ [(key, s.now)])).count (B.SEED q + C.SEED_LEARN_POSTED)
    (s.setNotices q (s.noticesOf q ++ [⟨key, type, h, data, arr, 0, false⟩])).event (some h) 0x0B

end Sys2Proof.Machine
end

