-- ==== Sys2Proof/Machine/Gates.lean ====
section
/-! DEFINITION. The gates: microwords, the walk of a token, split-phase responses, barriers and aborts, control stores,
customer images and bank flips (chapter 7). -/
namespace Sys2Proof.Machine

/-! ### The operand space (R149, R156) -/

def Token.space (t : Token) (off wid : Nat) : Nat :=
  if 1024 ≤ off then bitsOf t.locals_ (off - 1024 + wid - 1) (off - 1024) else bitsOf t.carry (off + wid - 1) off

/-- A range of carry bits touches bytes 0 to 5 or 8 to 47. -/
def roTouched (off wid : Nat) : Bool := decide (off < 48) || (decide (off < 384) && decide (64 < off + wid))

/-- A result written to D: the protected bytes of the carry keep their value. -/
def Token.put (t : Token) (off wid v : Nat) : Token :=
  if 1024 ≤ off then { t with locals_ := setBits t.locals_ (off - 1024 + wid - 1) (off - 1024) v }
  else
    let c := setBits t.carry (off + wid - 1) off v
    { t with carry := setBits (setBits c 47 0 (bitsOf t.carry 47 0)) 383 64 (bitsOf t.carry 383 64) }

def Token.pred (t : Token) (i : Nat) : Bool := i = 0 || bitOf t.preds i
def Token.setPred (t : Token) (i : Nat) (b : Bool) : Token :=
  if i = 0 then t else { t with preds := setBits t.preds i i (bit b) }

def Token.a (t : Token) (w : Nat) : Nat := t.space (W.aOff w) (W.aWid w)
def Token.b (t : Token) (w : Nat) : Nat :=
  if W.bImm w then W.imm w else t.space (W.bOff w) (W.bWid w)

/-! ### Tokens of a pipeline -/

def State.wordAtPc (_s : State) (k : Nat) (t : Token) : Nat := wordKey k t.bank t.gate (t.pc % 8192)
def State.word (s : State) (key : Nat) : Nat := tget (fun _ => 0) s.micro.words key

/-- Source number of a pipeline's fault o (Table 18.1). -/
def pipeSrc (k o : Nat) : Nat := if k < 16 then 32 + 4 * k + o else 96 + 4 * (k - 16) + o

/-- What a pass has moved so far, oldest token first. -/
def entranceIn (done : List Token) (g : Nat) : Nat := atEntrance done g
def lanesIn (done : List Token) (g : Nat) : Nat := (done.filter fun t => t.gate = g && t.st ≠ .entrance).length

/-- The VLAN of a frame, 0 without a tag. -/
def frameVlan (l : List Byte) : Nat := if vlanBytes l = 0 then 0 else u16At l 14 % 4096

/-- R305: a packet of a plot with SRC_CHECK that names another source MAC address or outer VLAN than the plot's. -/
def State.srcBad (s : State) (k : Pkt) : Bool :=
  match k.org with
  | .plot p _ _ => s.flag (B.PLOT p) R.PLOT_CFG_SRC_CHECK
      && (beNat ((k.data.drop 6).take 6) ≠ s.plotMac p || frameVlan k.data ≠ s.plotVlan p)
  | .eth _ | .core _ | .survey => false

/-- The carry of a token that leaves a gate: out of G0 of a headrace, with the DROP and REASON 6 of R305, which the vendor routine
there sets (assumption 91). -/
def State.carryOut (s : State) (k : Nat) (t : Token) : Nat :=
  if k < 16 && t.gate = 0 && s.srcBad t.pkt then carryPut t.carry 96 26 20 (64 + 6) else t.carry

/-- One token of a pass: from its lane to the next entrance in order and where there is room, and from an entrance into
a free lane once the responses due there have arrived (R146, R148). `later` are the younger tokens. -/
def State.settleOne (s : State) (k : Nat) (done later : List Token) (t : Token) : Token :=
  let ahead := fun g => done.all fun x => g < x.gate
  let t := if t.st = .last && t.gate + 1 < gatesOf k && ahead t.gate
      && entranceIn (done ++ later) (t.gate + 1) < 32 then
      { t with gate := t.gate + 1, st := .entrance, carry := s.carryOut k t } else t
  if t.st = .entrance && (done.all fun x => !(x.gate = t.gate && x.st = .entrance))
      && t.resp.all (fun r => t.gate < r.due) && lanesIn (done ++ later) t.gate < 4 then
    { t with st := .lane, locals_ := 0, preds := 0, words := 0, pc := s.entryWord k t.gate t.bank }
  else t

/-- A pass over the tokens, oldest first. -/
def State.settleList (s : State) (k : Nat) : List Token → List Token → List Token
  | done, [] => done
  | done, t :: ts => s.settleList k (done ++ [s.settleOne k done ts t]) ts

/-- Tokens move as far as they can, and an abort is over once no token present at it is left. -/
def State.settle (s : State) (k : Nat) : State :=
  let s := s.setToks k (s.settleList k [] (s.pipe k).toks)
  if (s.pipe k).toks.any (·.doomed) then s else s.wrB (B.PIPE k) R.ABORT_ACTIVE false

/-- R132: the headrace takes the oldest staged packet, or in Priming and Survey a frame of a Survey generator. `bad`
names entries of the graph that have begun to fail their parity check. The packet enters a lane of G0 where one is free (R146). -/
def execPacketParse (h : Headrace) (gen : Option (List Byte)) (bad : List Nat) (s : State) : Res :=
  if !s.domOn (domHR h) || !s.roomAtG0 h then .next s
  else
    let s := bad.foldl (fun s a => s.noteEcc (graphKey h (a % 2 ^ 14)) .bad) s
    match gen with
    | some l =>
      if s.mode = .priming || s.mode = .survey then
        .next ((s.husk h { data := l, org := .survey, time := s.timeWord, frac := 0, cls := 0, chain := 0, first := false,
                           tsReq := false, launch := none }).settle h)
      else .next s
    | none =>
      match (s.stage h).pkts, s.forwarding with
      | k :: _, true => .next (((s.unstage h).husk h k).settle h)
      | _, _ => .next s

/-- Token i of a pipeline changed. -/
def State.setTok (s : State) (k i : Nat) (t : Token) : State := s.setToks k ((s.pipe k).toks.set i t)

/-- A token has left its pipeline: its lane-periods are retired (0) or wasted (1). A half that is left over goes into the counter with
the next one (R434). -/
def State.laneTally (s : State) (k : Nat) (t : Token) (cat : Nat) : State :=
  (t.tally.take (gatesOf k)).zipIdx.foldl (fun s e =>
    if e.1 = 0 then s
    else
      let x := s.pipe k
      let i := 4 * e.2 + cat
      let n := tget (fun _ => 0) x.halves i + e.1
      (s.setPipe k { x with halves := tput (fun _ => 0) x.halves i (n % 2) }).countN (B.PIPE k + C.GATE_PMC_TD + 8 * i) (n / 2)) s

/-- The token's gate has given it `n` more half lane-periods. -/
def Token.tick (t : Token) (n : Nat) : Token := { t with tally := t.tally.set t.gate (t.tally.getD t.gate 0 + n) }

/-- Token i of a pipeline is dropped. -/
def State.dropTok (s : State) (k i : Nat) : State :=
  match (s.pipe k).toks[i]? with
  | none => s
  | some t => (((s.setToks k ((s.pipe k).toks.eraseIdx i)).laneTally k t 1).pktEnd t.pkt).settle k

/-! ### Safe points (Table 7.7, R161, R162) -/

/-- The token passes a safe point after `n` words in its gate: dropped, or past the barrier. -/
def State.safePoint (s : State) (k i n : Nat) (t : Token) : Option State :=
  if t.doomed then some ((s.dropTok k i).count (B.PIPE k + C.GATE_GATE_ABORT))
  else if s.rd (B.PIPE k) R.G_LIMIT_LIMIT < n then
    some (((s.dropTok k i).count (B.PIPE k + C.GATE_LIMIT_ABORT)).raise (pipeSrc k 2) 0 0)
  else none

/-! ### Execution -/

/-- What the body of a word does to its token and to the device. -/
abbrev WordEffect := Token → State → Token × State

/-- The token goes on to its next word, or has executed LAST; items of a safe point are taken after LAST. -/
def State.advanceTok (s : State) (k i w : Nat) (t : Token) (en : Bool) (next : Nat) : State :=
  let n := t.words + 1
  let t := { t.tick (W.halves w) with words := n, pc := next % 8192 }
  if en && W.last w then
    match (s.setTok k i t).safePoint k i n t with
    | some s => s
    | none => (s.setTok k i { t with st := .last, barred := false }).settle k
  else s.setTok k i t

/-- A word that cannot be executed: its token is dropped at once (R151, R165). -/
def State.badWord (s : State) (k i : Nat) : State :=
  ((s.dropTok k i).count (B.PIPE k + C.GATE_BAD_WORD)).raise (pipeSrc k 1) 0 0

/-- The token that executes: in a lane of a powered pipeline. -/
def State.laneTok (s : State) (k i : Nat) : Option Token :=
  if !s.domOn (domPipe k) then none
  else match (s.pipe k).toks[i]? with
    | none => none
    | some t => if t.st = .lane then some t else none

/-- Token i of pipeline k executes its word, whose OP is `op` (R146, R150, R151, R161, R165). A word with another OP is
not this command's; a word that cannot be executed drops its token whichever command names it. `held` holds the lane. -/
def State.execWord (s : State) (k i op : Nat) (ecc : Ecc) (held : Bool) (next : Nat → Nat → Nat) (f : Nat → WordEffect) :
    State :=
  match s.laneTok k i with
  | none => s
  | some t =>
    let key := s.wordAtPc k t
    let s := s.noteEcc (upsetWord key) ecc
    let w := s.word key
    if s.upset (upsetWord key) = 2 || !wordOk (16 ≤ k) t.gate w then s.badWord k i
    else if W.op w ≠ op then s
    else
      let s := if s.upset (upsetWord key) = 1 then s.raise (pipeSrc k 1) 0 0 else s
      match (if W.safe w then s.safePoint k i t.words t else none) with
      | some s => s
      | none =>
        let t := if W.safe w then { t with barred := false } else t
        let en := t.pred (W.psel w) != W.pneg w
        if !en then s.advanceTok k i w t false (t.pc + 1)
        else if held then s.setTok k i (t.tick 2)
        else
          let (t, s) := f w t s
          s.advanceTok k i w t true (next w (t.pc + 1))

def seqNext (_w n : Nat) : Nat := n

/-- A word that writes a result into D, truncated to D's width. -/
def putResult (k : Nat) (v : Nat → Token → Nat) (w : Nat) : WordEffect := fun t s =>
  let s := if W.dOff w < 1024 && roTouched (W.dOff w) (W.dWid w) then s.count (B.PIPE k + C.GATE_RO_WRITE) else s
  (t.put (W.dOff w) (W.dWid w) (v w t), s)

/-- A word that sets predicate PDST. -/
def putPred (c : Nat → Nat → Bool) (w : Nat) : WordEffect := fun t s => (t.setPred (W.pdst w) (c (t.a w) (t.b w)), s)

def State.alu (s : State) (k i op : Nat) (ecc : Ecc) (v : Nat → Token → Nat) : State :=
  s.execWord k i op ecc false seqNext (putResult k v)

def State.cmp (s : State) (k i op : Nat) (ecc : Ecc) (c : Nat → Nat → Bool) : State :=
  s.execWord k i op ecc false seqNext (putPred c)

def execNop (p : Pipe) (i : Nat) (ecc : Ecc) (s : State) : Res :=
  .next (s.execWord p i 0x00 ecc false seqNext fun _ t s => (t, s))
def execMov (p : Pipe) (i : Nat) (ecc : Ecc) (s : State) : Res := .next (s.alu p i 0x01 ecc fun w t => t.b w)
def execAdd (p : Pipe) (i : Nat) (ecc : Ecc) (s : State) : Res := .next (s.alu p i 0x02 ecc fun w t => t.a w + t.b w)
def execSub (p : Pipe) (i : Nat) (ecc : Ecc) (s : State) : Res :=
  .next (s.alu p i 0x03 ecc fun w t => t.a w + 2 ^ 64 - t.b w)
def execAnd (p : Pipe) (i : Nat) (ecc : Ecc) (s : State) : Res := .next (s.alu p i 0x04 ecc fun w t => t.a w &&& t.b w)
def execOr (p : Pipe) (i : Nat) (ecc : Ecc) (s : State) : Res := .next (s.alu p i 0x05 ecc fun w t => t.a w ||| t.b w)
def execXor (p : Pipe) (i : Nat) (ecc : Ecc) (s : State) : Res := .next (s.alu p i 0x06 ecc fun w t => t.a w ^^^ t.b w)
def execShl (p : Pipe) (i : Nat) (ecc : Ecc) (s : State) : Res :=
  .next (s.alu p i 0x07 ecc fun w t => t.a w * 2 ^ (t.b w % 64))
def execShr (p : Pipe) (i : Nat) (ecc : Ecc) (s : State) : Res :=
  .next (s.alu p i 0x08 ecc fun w t => t.a w / 2 ^ (t.b w % 64))
def execCeq (p : Pipe) (i : Nat) (ecc : Ecc) (s : State) : Res := .next (s.cmp p i 0x09 ecc fun a b => a == b)
def execCne (p : Pipe) (i : Nat) (ecc : Ecc) (s : State) : Res := .next (s.cmp p i 0x0A ecc fun a b => a != b)
def execClt (p : Pipe) (i : Nat) (ecc : Ecc) (s : State) : Res := .next (s.cmp p i 0x0B ecc fun a b => decide (a < b))
def execCge (p : Pipe) (i : Nat) (ecc : Ecc) (s : State) : Res := .next (s.cmp p i 0x0C ecc fun a b => decide (b ≤ a))
def execTstm (p : Pipe) (i : Nat) (ecc : Ecc) (s : State) : Res :=
  .next (s.cmp p i 0x0D ecc fun a b => (a &&& b) != 0)

/-- Next word ← TARGET. -/
def execBr (p : Pipe) (i : Nat) (ecc : Ecc) (s : State) : Res :=
  .next (s.execWord p i 0x10 ecc false (fun w _ => W.target w) fun _ t s => (t, s))

/-- CRC-32C over A's bytes, least significant first, started from B, with the final complement. -/
def execHash (p : Pipe) (i : Nat) (ecc : Ecc) (s : State) : Res :=
  .next (s.alu p i 0x11 ecc fun w t =>
    crcRaw 0x82F63B78 (t.b w % 2 ^ 32) (leBytes ((W.aWid w + 7) / 8) (t.a w)) ^^^ 0xFFFFFFFF)

/-- Packet bytes into D in packet order, those at or beyond W or P as 0. -/
def wread (w : Nat) (t : Token) : Nat × Bool :=
  let n := W.dWid w / 8
  let o := t.a w + W.imm w % 1024
  let lim := min t.pkt.data.length (if t.lr then 1024 else 192)
  (leNat ((List.range n).map fun j => if o + j < lim then t.pkt.data.getD (o + j) 0 else 0), decide (o + n ≤ lim))

def execWread (p : Pipe) (i : Nat) (ecc : Ecc) (s : State) : Res :=
  .next (s.execWord p i 0x12 ecc false seqNext fun w t s =>
    let r := wread w t
    let (t, s) := putResult p (fun _ _ => r.1) w t s
    (t.setPred (W.pdst w) r.2, s))

/-! ### Split-phase operations (R152 to R155) -/

/-- The quadrant of a pipeline. -/
def pipeQuad (k : Nat) : Nat := k % 16 / 4

/-- A response is on its way; until it arrives, D holds a free value. -/
def issue (r : Resp) : WordEffect := fun t s =>
  let (f, s) := s.draw
  ({ t.put r.dOff r.width (f % 2 ^ r.width) with resp := t.resp ++ [r] }, s)

/-- The LOOKUP of a word: what each target answers (Table 7.3). -/
def lookup (k : Nat) (tecc : Ecc) (w : Nat) : WordEffect := fun t s =>
  let q := pipeQuad k
  let imm := W.imm w
  if W.lt w = 0 then
    match s.seedLookup q (t.locals_ % 2 ^ 96) (bitOf imm 0) tecc with
    | (r, s) => issue ⟨W.due w, W.dOff w, W.dWid w, (r.getD 0) % 2 ^ W.dWid w, some (W.pdst w, r.isSome), false, false⟩ t s
  else if W.lt w = 1 then
    match s.sieveLookup q (W.sub w) (t.locals_ % 2 ^ 320) tecc with
    | (r, s) =>
      let v := match r with
        | none => 0
        | some (act, a) => act * 2 ^ 32 + 2 ^ 31 + a
      issue ⟨W.due w, W.dOff w, 64, v, some (W.pdst w, r.isSome), false, false⟩ t s
  else
    let s := (if k < 16 then s.stamp (Tm.rsv k) else s).event (some k) 4
    match s.htLookup (W.sub w) (t.locals_ % 2 ^ 320) (bitOf imm 4) tecc with
    | (r, s) =>
      let v := (r.getD 0) / 2 ^ (64 * (imm % 8)) % 2 ^ (rsvD w).2
      issue ⟨W.due w, (rsvD w).1, (rsvD w).2, v, some (W.pdst w, r.isSome), true, false⟩ t s

/-- Reservoir operations that a pipeline has outstanding (R155). -/
def State.rsvOutstanding (s : State) (k : Nat) : Nat :=
  ((s.pipe k).toks.map fun t => (t.resp.filter (·.rsv)).length).sum

/-- The lane of a Reservoir lookup waits for the share of its headrace, one lookup in 2 ns (R17). -/
def State.shareHeld (s : State) (k i : Nat) : Bool :=
  match s.laneTok k i with
  | none => false
  | some t => k < 16 && W.lt (s.word (s.wordAtPc k t)) = 2 && !s.due (Tm.rsv k) 2

/-- The lane of a Reservoir operation waits while 256 are outstanding (R155). -/
def State.rsvHeld (s : State) (k i : Nat) : Bool :=
  match s.laneTok k i with
  | none => false
  | some t => W.lt (s.word (s.wordAtPc k t)) = 2 && 256 ≤ s.rsvOutstanding k

def execLookup (p : Pipe) (i : Nat) (ecc tecc : Ecc) (s : State) : Res :=
  .next (s.execWord p i 0x18 ecc (s.rsvHeld p i || s.shareHeld p i) seqNext (lookup p tecc))

def execUpdate (p : Pipe) (i : Nat) (ecc : Ecc) (s : State) : Res :=
  .next (s.execWord p i 0x19 ecc (s.rsvHeld p i) seqNext fun w t s =>
    (t, s.htUpdate (W.sub w) (t.locals_ % 2 ^ 320) (W.imm w % 8) (t.b w)))

def execMeter (p : Pipe) (i : Nat) (ecc : Ecc) (s : State) : Res :=
  .next (s.execWord p i 0x1A ecc false seqNext fun w t s =>
    match s.meterOp (pipeQuad p) (t.a w % 2 ^ 18) (t.b w) (W.imm w % 4) with
    | (c, s) => issue ⟨W.due w, W.dOff w, W.dWid w, c % 2 ^ W.dWid w, none, false, false⟩ t s)

def pairKey (q i : Nat) : Nat := q * 2 ^ 18 + i
def State.cpair (s : State) (q i : Nat) : Nat × Nat := tget (fun _ => (0, 0)) s.cpairs (pairKey q i)
def State.setCpair (s : State) (q i : Nat) (v : Nat × Nat) : State :=
  { s with cpairs := tput (fun _ => (0, 0)) s.cpairs (pairKey q i) v }

def execCount (p : Pipe) (i : Nat) (ecc : Ecc) (s : State) : Res :=
  .next (s.execWord p i 0x1B ecc false seqNext fun w t s =>
    let q := pipeQuad p
    let n := t.a w % 2 ^ 18
    let v := s.cpair q n
    (t, s.setCpair q n ((v.1 + 1) % 2 ^ 64, (v.2 + t.b w) % 2 ^ 64)))

def execLearn (p : Pipe) (i : Nat) (ecc : Ecc) (s : State) : Res :=
  .next (s.execWord p i 0x1C ecc false seqNext fun w t s =>
    (t, s.learn p (W.imm w % 2) (t.locals_ % 2 ^ 96) (bitsOf t.locals_ 191 128) (carryAt t.carry 12 31 0)))

/-- R152: response j of token i arrives: D and the HITS bit are written. -/
def execLookupResponse (p : Pipe) (i j : Nat) (s : State) : Res :=
  if !s.domOn (domPipe p) then .next s
  else match (s.pipe p).toks[i]? with
    | none => .next s
    | some t =>
      match t.resp[j]? with
      | none => .next s
      | some r =>
        let s := if roTouched r.dOff r.width then s.count (B.PIPE p + C.GATE_RO_WRITE) else s
        let t := t.put r.dOff r.width r.value
        let t := match r.hits with
          | none => t
          | some (b, h) => { t with carry := setBits t.carry (832 + b) (832 + b) (bit h) }
        .next ((s.setTok p i { t with resp := t.resp.eraseIdx j }).settle p)

/-! ### Barriers, aborts, the watchdog (R161, R162) -/

def execBarrierReq (p : Pipe) (s : State) : Res :=
  .next (if s.domOn (domPipe p) then (s.barrier p).answer .ok else s.answer .busError)

def execBarrierDone (p : Pipe) (s : State) : Res :=
  if !s.domOn (domPipe p) || s.flag (B.PIPE p) R.BARRIER_DONE || !s.barrierPassed p then .next s
  else .next (s.wrB (B.PIPE p) R.BARRIER_DONE true).barriersEnded

def execAbortReq (p : Pipe) (s : State) : Res :=
  if !s.domOn (domPipe p) then .next (s.answer .busError)
  else
    let ts := (s.pipe p).toks
    .next (((s.setToks p (ts.map fun t => { t with doomed := true })).wrB (B.PIPE p) R.ABORT_ACTIVE (ts ≠ [])).answer .ok)

/-- R162: the watchdog fires, and a pipeline reset follows. -/
def execPipelineWatchdog (p : Pipe) (s : State) : Res :=
  if !s.domOn (domPipe p) then .next s
  else .next (((s.raise (pipeSrc p 3) 0 0).pipeReset (domPipe p)).barriersEnded.ackRouted (pipeSrc p 3))

/-! ### Control-store and edit-memory access (R143, Table 7.16) -/

def State.activeBank (s : State) (k : Nat) : Nat := s.rd (B.PIPE k) R.MC_CTRL_ACTIVE_BANK

def State.storeOk (s : State) (k bank : Nat) : Bool :=
  s.domOn (domPipe k) && !((s.mode = .flowing || s.mode = .trickle) && bank = s.activeBank k)

def State.mcKey (s : State) (k : Nat) : Nat :=
  let b := B.PIPE k
  wordKey k (s.rd b R.MC_ADDR_BANK) (s.rd b R.MC_ADDR_GATE) (s.rd b R.MC_ADDR_WORD)

def State.setWord (s : State) (key v : Nat) : State :=
  { s with micro := { s.micro with words := tput (fun _ => 0) s.micro.words key v } }.setUpset (upsetWord key) 0

def execMcWrite (p : Pipe) (s : State) : Res :=
  if !s.storeOk p (s.rd (B.PIPE p) R.MC_ADDR_BANK) then .next (s.answer .busError)
  else .next ((s.setWord (s.mcKey p) (s.dataRegs (B.PIPE p + R.MC_DATA_DATA.off) 6)).answer .ok)

def execMcRead (p : Pipe) (s : State) : Res :=
  if !s.storeOk p (s.rd (B.PIPE p) R.MC_ADDR_BANK) then .next (s.answer .busError)
  else .next ((s.setDataRegs (B.PIPE p + R.MC_DATA_DATA.off) 6 (s.word (s.mcKey p))).answer .ok)

def editKey (t bank a : Nat) : Nat := t * 2 ^ 15 + bank * 2 ^ 14 + a
def State.editAt (s : State) (k : Nat) : Nat := tget (fun _ => 0) s.micro.edit k
def State.setEdit (s : State) (k v : Nat) : State :=
  { s with micro := { s.micro with edit := tput (fun _ => 0) s.micro.edit k v } }

/-- ED_ADDR names a program command below 4,096 or a template word below 512. -/
def edIndexOk (mem index : Nat) : Bool := if mem = 0 then decide (index < 4096) else decide (index < 512)

def State.edOk (s : State) (t : Nat) : Bool :=
  let b := B.TLR t
  s.storeOk (16 + t) (s.rd b R.ED_ADDR_BANK) && edIndexOk (s.rd b R.ED_ADDR_MEM) (s.rd b R.ED_ADDR_INDEX)

def State.edKey (s : State) (t : Nat) : Nat := t * 2 ^ 15 + (s.reg (B.TLR t + R.ED_ADDR_INDEX.off)).toNat

def execEdWrite (t : Tailrace) (s : State) : Res :=
  if !s.edOk t then .next (s.answer .busError)
  else .next ((s.setEdit (s.edKey t) (s.dataRegs (B.TLR t + R.ED_DATA_DATA.off) 2)).answer .ok)

def execEdRead (t : Tailrace) (s : State) : Res :=
  if !s.edOk t then .next (s.answer .busError)
  else .next ((s.setDataRegs (B.TLR t + R.ED_DATA_DATA.off) 2 (s.editAt (s.edKey t))).answer .ok)

/-! ### Bank flips (R144, R168, R169) -/

def execFlip (p : Pipe) (s : State) : Res :=
  .next (if s.domOn (domPipe p) then (s.flip p).answer .ok else s.answer .busError)

/-- No token of the inactive bank remains in a pipeline. -/
def State.oldGone (s : State) (k : Nat) : Bool := (s.pipe k).toks.all fun t => t.bank = s.activeBank k

/-- R144: at a packet boundary gates, parse graph and edit memory switch bank in one operation. -/
def execBankFlip (p : Pipe) (s : State) : Res :=
  if !s.domOn (domPipe p) || !s.flag (B.PIPE p) R.MC_CTRL_FLIP_PEND then .next s
  else
    let b := 1 - s.activeBank p
    let s := (s.wr (B.PIPE p) R.MC_CTRL_ACTIVE_BANK b).wrB (B.PIPE p) R.MC_CTRL_FLIP_PEND false
    let s := if p.val < 16 then s.wr (B.HUSK p) R.HUSK_CFG_ACTIVE_BANK b else s
    let s := s.wrB (B.PIPE p) R.MC_CTRL_DRAINED (s.oldGone p)
    .next (s.flipped p)

def execPipelineDrained (p : Pipe) (s : State) : Res :=
  .next (if s.domOn (domPipe p) && s.oldGone p then s.wrB (B.PIPE p) R.MC_CTRL_DRAINED true else s)

/-! ### Customer images (R163, R166 to R169, Tables 7.5, 7.8 and 7.9) -/

/-- The header, length and CRC of an image (Table 7.13). -/
def mcHeaderOk (l : List Byte) (len : Nat) : Bool :=
  leNat (l.take 4) = 0x4E48_5845 && leNat ((l.drop 4).take 2) = 1 && leNat ((l.drop 8).take 8) ≠ 0
    && leNat ((l.drop 24).take 4) = len && l.length = len && leNat ((l.drop 28).take 4) = crc32c (l.drop 32)

/-- Place data of a failing write: index, pipeline kind, gate. -/
def failData (e : Nat × Nat × Nat) : List Byte :=
  let (kind, a, _) := e
  if kind = 0 then leBytes 2 (a % 8192) ++ leBytes 1 (bit (16 ≤ placePipe a)) ++ leBytes 1 (placeGate a)
  else if kind = 1 then leBytes 2 0 ++ leBytes 1 (bit (16 ≤ a / 16)) ++ leBytes 1 (a % 16)
  else if kind = 2 then leBytes 2 (a % 2 ^ 11) ++ [0, 0]
  else if kind = 4 then leBytes 2 (a % 256) ++ [0, 0]
  else leBytes 2 (a % 2 ^ 13) ++ [1, 0]

/-- The first failed check of an image: its number, and the place. -/
def State.imageFails (s : State) (l : List Byte) (len : Nat) : Option (Nat × List Byte) :=
  let ws := Config.mcImage l
  if !mcHeaderOk l len then some (1, fit 4 [])
  else if !s.flag B.SEC R.SEC_DEBUG_UNSIGNED && !hybridOk s.sec.otp.owner (Config.mcBody l) (Config.mcSignature l) then some (2, fit 4 [])
  else
    let node := fun a => s.graphAt (a / 256) (graphAddr (s.huskBank (a / 256)) 0 (a % 256))
    (List.range' 3 9).findSome? fun c => (ws.find? (writeFails ws node c)).map fun e => (c, failData e)

/-- R166 to R168: the image is checked and written into the inactive bank of every powered pipeline. -/
def execMcStage (q : Req) (buf : Fetch) (s : State) : Res :=
  .next (s.command q 0x0380 fun c s =>
    if !reqIsHost q then s.finish q St.REFUSED
    else if s.mc.flipping ≠ [] || !(s.pipesOn.all fun k =>
        s.flag (B.PIPE k) R.MC_CTRL_DRAINED && !s.flag (B.PIPE k) R.MC_CTRL_FLIP_PEND) then s.busyRetry q 1000
    else s.withBuffer q (c.u64 8) (c.u32 16) buf (·.finish q St.BAD_ARGUMENT) fun l s =>
      match s.imageFails l (c.u32 16) with
      | some (n, d) =>
        s.finishWith q (Final.mk' (if n = 3 then St.REFUSED else St.BAD_ARGUMENT) 0 ([BitVec.ofNat 8 n, 0] ++ d))
      | none =>
        let ws := Config.mcImage l
        let s := s.pipesOn.foldl (fun s k => s.stageBank k (s.activeBank k) (1 - s.activeBank k) ws) s
        { s with mc := { s.mc with staged := leNat ((l.drop 8).take 8), stagedW := ws } }.done q [])

/-- R169: the staged image is made active, pipeline by pipeline in the chosen order. -/
def execMcFlip (q : Req) (s : State) : Res :=
  .next (s.command q 0x0381 fun c s =>
    if !reqIsHost q then s.finish q St.REFUSED
    else if s.mc.flipping ≠ [] then s.busyRetry q 1000
    else if s.mc.staged = 0 || 1 < c.u8 8 then s.finish q St.BAD_ARGUMENT
    else
      let on := s.pipesOn
      let order := if c.u8 8 = 0 then on.filter (16 ≤ ·) ++ on.filter (· < 16) else on
      (s.addJob q 0x0381 0).commitFlip order)

def execMcStatus (q : Req) (s : State) : Res :=
  .next (s.command q 0x0382 fun _ s =>
    let banks := fun lo => (List.range 16).foldl (fun v i => v + s.activeBank (lo + i) * 2 ^ i) 0
    s.done q (leBytes 8 s.mc.active ++ leBytes 8 s.mc.staged ++ leBytes 2 (banks 0) ++ leBytes 2 (banks 16)
      ++ [BitVec.ofNat 8 (bit (s.mc.flipping ≠ []))]))

/-! ### Counter pairs (R154) -/

def execCountRead (q : Req) (s : State) : Res :=
  .next (s.command q 0x0383 fun c s =>
    let x := c.u8 8
    let i := c.u32 12
    let clear := bitOf (c.u8 16) 0
    if (3 < x && x ≠ 0xFF) || 2 ^ 18 ≤ i then s.finish q St.BAD_ARGUMENT
    else if clear && s.mode = .trickle then s.finish q St.WRONG_MODE
    else if clear && i < 65536 then s.finish q St.REFUSED
    else
      let qs := if x = 0xFF then [0, 1, 2, 3] else [x]
      let p := (qs.map fun k => (s.cpair k i).1).sum % 2 ^ 64
      let b := (qs.map fun k => (s.cpair k i).2).sum % 2 ^ 64
      let s := if clear then qs.foldl (fun s k => s.setCpair k i (0, 0)) s else s
      s.done q (leBytes 8 p ++ leBytes 8 b))

/-- SEED_CNT_CMD READ: both counts of the pair at one instant. -/
def State.seedCnt (s : State) (q : Nat) (clear : Bool) : State :=
  if !s.domOn (domQuad q) then s.answer .busError
  else
    let i := s.rd (B.SEED q) R.SEED_CNT_ADDR_INDEX
    let v := s.cpair q i
    let s := s.setDataRegs (B.SEED q + R.SEED_CNT_DATA_DATA.off) 4 (v.1 + v.2 * 2 ^ 64)
    (if clear then s.setCpair q i (0, 0) else s).answer .ok

def execSeedCntRead (q : Quad) (s : State) : Res := .next (s.seedCnt q false)
def execSeedCntReadClear (q : Quad) (s : State) : Res := .next (s.seedCnt q true)

end Sys2Proof.Machine
end

