-- ==== Sys2Proof/Machine/Weir.lean ====
section
/-! DEFINITION. The buffer slices, VOQs, flow-control pairs, replication groups, congestion signals, tap rings and the
crossbar (chapter 9). -/
namespace Sys2Proof.Machine

/-! ### Segments and pools (R209 to R212) -/

/-- use(v): the VOQ's on-die segments. -/
def State.use (s : State) (v : Nat) : Nat := (((s.voq v).pkts.filter fun p => !p.spilled).map (·.segs)).sum

/-- n segments fit under α_c × F (R212 step 2). -/
def State.alphaOk (s : State) (q c n ovr : Nat) : Bool :=
  let k := signedOf 4 (bitsOf (s.reg (B.WEIR + R.WEIR_ALPHA_K.off)).toNat (4 * c + 3) (4 * c))
  n ≤ s.sharedFree q && (if 0 ≤ k then ovr ≤ 2 ^ k.toNat * s.sharedFree q else ovr * 2 ^ (-k).toNat ≤ s.sharedFree q)

/-! ### Ingress pairs (R213) -/

/-- The ingress pair of a packet, if it has one. -/
def State.pairOf (s : State) (k : Pkt) : Option Nat :=
  match k.org with
  | .eth p => if bitOf (s.pfcMask p) k.cls then some (8 * p + k.cls) else none
  | .plot p _ _ => (s.fnOfPlot p).map fun f => 1024 + 8 * f.1 + k.cls
  | .core _ | .survey => none

/-- Segments taken from a pool by a packet, or given back. -/
def State.takeSegs (s : State) (h pool n : Nat) (pair : Option Nat) : State :=
  let s := s.setPool (h / 4) pool (s.poolUsed (h / 4) pool + n)
  match pair with
  | none => s
  | some p =>
    let x := s.pairSt p
    let s := s.setPair p { x with u := x.u + n, hdrm := x.hdrm + (if pool = 2 then n else 0) }
    s.pairUpdate h p (pool = 2)

/-- The pool that admits n segments into VOQ v (R212), or none. -/
def State.admitPool (s : State) (h v c n : Nat) (pair : Option Nat) : Option Nat :=
  let q := h / 4
  let g := 4 * s.guar q
  if s.use v + n ≤ g then some 0
  else if s.alphaOk q c n (s.use v + n - g) then some 1
  else match pair with
    | none => none
    | some p =>
      let (_, _, hd) := s.pairLimits p
      if (s.pairSt p).hdrm + n ≤ 4 * hd && s.poolUsed q 2 + n ≤ 4 * s.hdrmPool q then some 2 else none

/-! ### Cells of a VOQ (R210) -/

/-- A packet placed behind the others of its VOQ: in the open tail cell, or from a new one. -/
def Voq.push (x : Voq) (p : VPkt) (alone : Bool) : Voq :=
  let fill := if alone then 0 else x.fill
  let cell := if fill = 0 then x.next else x.next - 1
  let tot := fill + p.left
  let used := (tot + 3) / 4
  { pkts := x.pkts ++ [{ p with cell := cell, off := fill }]
    next := cell + used
    fill := if alone then 0 else tot % 4 }

/-- The head packet of a VOQ that is on die; a spilled head has to be brought back first. -/
def Voq.head? (x : Voq) : Option VPkt :=
  match x.pkts with
  | p :: _ => if p.spilled then none else some p
  | [] => none

/-- Packets whose records cross with the head cell: those that start in it. -/
def Voq.starting (x : Voq) : List VPkt :=
  match x.head? with
  | none => []
  | some p => x.pkts.filter fun y => !y.spilled && !y.sent && y.cell = p.cell

/-- One cell crosses: what is left of each packet. -/
def Voq.cross (x : Voq) : Voq :=
  match x.head? with
  | none => x
  | some p =>
    let step := fun (y : VPkt) =>
      if !y.spilled && y.cell = p.cell then
        { y with left := y.left - (4 - y.off), cell := y.cell + 1, off := 0, sent := true }
      else y
    { x with pkts := x.pkts.map step, fill := if p.cell + 1 = x.next then 0 else x.fill }

/-! ### Destinations (R110, R111, R159) -/

/-! ### Replication groups (R220 to R222) -/

def State.groupEnt (s : State) (g : Nat) : Nat := tget (fun _ => 0) s.weir.groups g
def Grp.base (e : Nat) : Nat := bitsOf e 31 16
def Grp.epoch (e : Nat) : Nat := bitsOf e 15 15
def Grp.count (e : Nat) : Nat := bitsOf e 6 0

/-! ### Congestion signals (R223, R224) -/

/-- Q(t, c) in units of 1,024 B. -/
def State.depth (s : State) (t c : Nat) : Nat :=
  ((List.range 16).map fun h => ((s.voq (voqKey h t c)).pkts.map fun p => p.pkt.data.length + 4 + 20).sum).sum / 1024

def State.avgOf (s : State) (t c : Nat) : Nat := tget (fun _ => 0) s.weir.avg (8 * t + c)
def tcBase (t c : Nat) : Nat := B.WEIR + 4 * (8 * t + c)

/-- R223: the averages of every tailrace and class, once in 64 ns of the local count. -/
def execCongestionAverageUpdate (s : State) : Res :=
  if !s.domOn 73 then .next s
  else .next (s.atRefill Tm.averages fun s =>
    let avg := (List.range 128).foldl (fun (m : Table Nat) i =>
      let a : Nat := tget (fun _ => 0) m i
      let q := 256 * s.depth (i / 8) (i % 8)
      let w := 2 ^ s.rd (tcBase (i / 8) (i % 8)) R.WEIR_TC_WEIGHT
      tput (fun _ => 0) m i ((a : Int) + ((q : Int) - a) / w).toNat) s.weir.avg
    s.onWeir fun w => { w with avg := avg })

/-- Offset of the outermost IPv4 or IPv6 header in the stack, and whether it is IPv6. -/
def outerIp (c : Nat) : Option (Nat × Bool) :=
  ((List.range (min 16 (Carry.hcount c))).find? fun i => Carry.htype c i = 4 || Carry.htype c i = 5).map
    fun i => (Carry.hoff c i, Carry.htype c i = 5)

/-- The ECN field of the outermost IP header, 0 without one. -/
def ecnOf (c : Nat) (data : List Byte) : Nat :=
  match outerIp c with
  | none => 0
  | some (o, true) => (data.getD (o + 1) 0).toNat / 16 % 4
  | some (o, false) => (data.getD (o + 1) 0).toNat % 4

/-- The early drop of a non-ECT packet (R224). -/
def State.earlyDrop (s : State) (t c carry : Nat) (data : List Byte) : Bool × State :=
  if ecnOf carry data ≠ 0 then (false, s)
  else
    let k := min 2 (Carry.colour carry)
    let b := B.WEIR + 0x20 * s.rd (tcBase t c) R.WEIR_TC_RED_PROF + 8 * k
    let lo := s.rd b R.WEIR_RED_LIM_MIN
    let hi := s.rd b R.WEIR_RED_LIM_MAX
    let a := s.avgOf t c
    if (lo = 0xFFFF && hi = 0xFFFF) || a < 256 * lo then (false, s)
    else if 256 * hi ≤ a then (true, s)
    else
      let (f, s) := s.draw
      (decide (f % (256 * 256 * (hi - lo)) < s.rd b R.WEIR_RED_P_MAXP * (a - 256 * lo)), s)

/-! ### Enqueue (R159, R212, R221, R227) -/

/-- A packet leaving G11 for a VOQ. -/
structure Enq where
  k : Pkt
  carry : Nat
  lr : Bool
  id : Nat
  group : Option (Nat × Nat × Nat × Nat)
  deriving DecidableEq, Repr

/-- R212: early drop, then admission into VOQ (h, t, c) of a packet that makes `copies` there; `held` is the pool in which another
VOQ of a group already holds the data. Answers the pool. -/
def State.enqueue (s : State) (h t : Nat) (e : Enq) (copies : List Copy) (held : Option Nat) : Option Nat × State :=
  let c := Carry.cls e.carry
  let v := voqKey h t c
  let n := allSegs (e.k.data.length + 4)
  let pair := s.pairOf e.k
  match s.earlyDrop t c e.carry e.k.data with
  | (true, s) => (none, s.count (B.HDR h + C.HDR_RED_DROP_GREEN + 8 * min 2 (Carry.colour e.carry)))
  | (false, s) =>
    match s.admitPool h v c n pair with
    | none => (none, s.count (B.HDR h + (if pair.isSome then C.HDR_HDRM_DROP else C.HDR_VOQ_ADMIT_DROP)))
    | some pool =>
      let pool := held.getD pool
      let s := if held.isSome then s else s.takeSegs h pool n pair
      let p : VPkt := { id := e.id, pkt := e.k, carry := e.carry, copies := copies, lr := e.lr, segs := n, cell := 0, off := 0,
                        left := dataSegs (e.k.data.length + 4), sent := false, spilled := false, pool := pool, pair := pair,
                        group := e.group }
      (some pool, s.setVoq v ((s.voq v).push p e.group.isSome))

/-- A group's packet is enqueued once for each tailrace that serves a member (R221). -/
def State.enqueueAll (s : State) (h : Nat) (e : Enq) (copies : Nat → List Copy) : List Nat → Option Nat → Option Nat × State
  | [], held => (held, s)
  | t :: ts, held =>
    match s.enqueue h t e (copies t) held with
    | (none, s) => s.enqueueAll h e copies ts held
    | (some p, s) => s.enqueueAll h e copies ts (some p)

def dedup : List Nat → List Nat
  | [] => []
  | x :: xs => if xs.contains x then dedup xs else x :: dedup xs

/-- A drop at a pipeline's exit, by its reason counter. -/
def State.reasonDrop (s : State) (k reason : Nat) (p : Pkt) : State :=
  (s.count (B.PIPE k + C.GATE_REASON + 8 * reason)).pktEnd p

/-- What leaves headrace G11 (R159), and whether it was dropped there. -/
def State.leaveHeadrace (s : State) (h : Nat) (t : Token) : Bool × State :=
  let c := t.carry
  let kind := Carry.destKind c
  let tg := Carry.target c
  let lost := fun (reason : Nat) => (true, (s.laneTally h t 1).reasonDrop h reason t.pkt)
  let queued := fun (r : Option Nat × State) => match r with
    | (none, s) => (true, (s.laneTally h t 1).pktEnd t.pkt)
    | (some _, s) => (false, (s.laneTally h t 0).event (some h) 2)
  if Carry.drop c then lost (Carry.reason c)
  else
    let e : Enq := { k := t.pkt, carry := c, lr := t.lr, id := s.weir.nextId, group := none }
    let s' := s.onWeir fun w => { w with nextId := w.nextId + 1 }
    if kind = 3 then
      let g := s.groupEnt tg
      if Grp.count g = 0 then lost 2
      else
        let e := { e with group := some (tg, Grp.epoch g, Grp.base g, Grp.count g) }
        let tails := dedup ((s.copiesOf t.pkt (Grp.base g) (Grp.count g)).filterMap (s.memberTail (Carry.flowHash c)))
        queued (s'.enqueueAll h e (fun tl => s.groupCopies t.pkt c tl (Grp.base g) (Grp.count g)) tails none)
    else match s.tailOf kind tg (Carry.qsel c) (Carry.flowHash c) with
      | none => lost 2
      | some tl =>
        if kind = 0 && !s.portUp tg then (true, ((s.laneTally h t 1).count (flushCnt tg)).pktEnd t.pkt)
        else queued (s'.enqueue h tl e [s.copy (carryAt c 96 31 0) (Carry.edit c)] none)

/-! ### Tap rings (R228, R229) -/

/-- Bytes of the Reservoir address space (Table 16.1). -/
def B.RA : Nat := 0x40_0000_0000

/-- Stack S(1..3) that holds an address is on. -/
def State.raOn (s : State) (ra : Nat) : Bool := s.domOn (65 + raStack ra)

def State.setTap (s : State) (q r : Nat) (v : Nat × Nat) : State :=
  s.onWeir fun w => { w with samp := tput (fun _ => (0, 0)) w.samp (256 * q + r) v }

/-- Table 9.2 and the packet's first 128 bytes. -/
def tapEntry (k : Pkt) (c reason seq lost : Nat) (lr dropped : Bool) : List Byte :=
  leBytes 8 k.time ++ leBytes 2 k.frac ++ leBytes 2 (carryAt c 0 15 0) ++ leBytes 4 (carryAt c 96 31 0)
    ++ leBytes 2 (Carry.len c) ++ leBytes 1 reason
    ++ leBytes 1 (Carry.endCode c * 16 + bit lr * 8 + bit (k.data.length < 128) * 2 + bit dropped)
    ++ leBytes 4 seq ++ leBytes 4 lost ++ leBytes 4 0 ++ fit 128 k.data

/-- The tap entries that a quadrant's writer has placed in the last microsecond: 50 M entries per second are 50 in it (R229; the
window is the model's choice, assumption 89). -/
def State.tapsIn (s : State) (q : Nat) : List Nat := (tget (fun _ => []) s.weir.tapAt q).filter fun t => decide (s.now < t + us 1)

/-- An entry for a ring: written while the ring has room and the writer keeps to its rate, and lost otherwise (R229). -/
def State.tapWrite (s : State) (q ring : Nat) (entry : Nat → List Byte) : State :=
  let b := B.TAP q + 0x20 * ring
  let prod := s.rd b R.TAP_RING_PROD_PROD
  let used := (prod + 2 ^ 32 - s.rd b R.TAP_RING_CONS_CONS) % 2 ^ 32
  let size := 2 ^ s.rd b R.TAP_RING_SIZE_SIZE
  let lost := tget (fun _ => 0) s.weir.lost (16 * q + ring)
  let base := s.pair (b + R.TAP_RING_BASE_LO_BASE.off)
  if used < size && s.raOn base && (s.tapsIn q).length < 50 then
    let s := { s with mem := putBytes s.mem (B.RA + base + 160 * (prod % size)) (entry lost) }
    let s := s.onWeir fun w => { w with lost := tput (fun _ => 0) w.lost (16 * q + ring) 0,
                                        tapAt := tput (fun _ => []) w.tapAt q (s.tapsIn q ++ [s.now]) }
    (s.wr b R.TAP_RING_PROD_PROD (prod + 1)).count (B.TAP q + C.TAP_REC_WRITTEN + 8 * ring)
  else
    (s.onWeir fun w => { w with lost := tput (fun _ => 0) w.lost (16 * q + ring) ((lost + 1) % 2 ^ 32) }).count
      (B.TAP q + C.TAP_REC_LOST + 8 * ring)

/-- A tap request of a packet at G11 (R228). -/
def State.tap (s : State) (h : Nat) (t : Token) (dropped : Bool) : State :=
  let q := h / 4
  let r := Carry.tapReason t.carry
  let b := B.TAP q + 4 * r
  if !Carry.tapReq t.carry || !s.flag b R.TAP_SAMP_EN then s
  else
    let n := s.rd b R.TAP_SAMP_N
    let (cnt, seq) := tget (fun _ => (0, 0)) s.weir.samp (256 * q + r)
    let random := s.flag b R.TAP_SAMP_RANDOM
    let (f, s) := if random then s.draw else (0, s)
    let pick := if random then decide (f % n = 0) else decide (n ≤ cnt + 1)
    if !pick then s.setTap q r (cnt + 1, seq)
    else
      let seq := (seq + 1) % 2 ^ 32
      (s.setTap q r (0, seq)).tapWrite q (s.rd b R.TAP_SAMP_RING) fun lost => tapEntry t.pkt t.carry r seq lost t.lr dropped

/-! ### Trickle (R95) -/

/-- DEST as the trickle program sets it: a plot's frame goes to the uplink of its source MAC, an uplink's frame to the
plot that its destination MAC and VLAN name, and nothing else passes. -/
def State.trickleDest (s : State) (t : Token) : Nat :=
  let put := fun (kind target : Nat) => kind * 2 ^ 30 + Carry.cls t.carry * 2 ^ 27 + 0xFF * 2 ^ 12 + target
  let drop := 2 ^ 26 + 1 * 2 ^ 20
  match t.pkt.org with
  | .plot _ _ _ =>
    match s.uplinks with
    | [] => drop
    | [a] => put 0 a
    | a :: b :: _ => put 0 (if (t.pkt.data.getD 11 0).toNat % 2 = 0 then a else b)
  | .eth p =>
    if !s.uplinks.contains p then drop
    else match (List.range 512).find? fun x => s.plotLive x && s.plotMac x = beNat (t.pkt.data.take 6)
        && s.plotVlan x = frameVlan t.pkt.data with
      | some x => put 1 x
      | none => drop
  | .core _ | .survey => drop

/-- R248: vendor G10 meters a packet of a plot whose configuration names an ingress policer, with COLOUR as its pre-colour, and
vendor G11 drops what is red with REASON 5. Both are taken as the token leaves G11 (assumption 91). -/
def State.police (s : State) (h : Nat) (t : Token) : Token × State :=
  match t.pkt.org with
  | .plot p _ _ =>
    if !s.flag (B.PLOT p) R.PLOT_POLICER_EN then (t, s)
    else
      let (c, s) := s.meterOp (h / 4) (s.rd (B.PLOT p) R.PLOT_POLICER_METER) (Carry.len t.carry) (Carry.colour t.carry)
      let carry := carryPut t.carry 101 1 0 c
      ({ t with carry := if c = 2 && !Carry.drop carry then carryPut carry 96 26 20 (64 + 5) else carry }, s)
  | .eth _ | .core _ | .survey => (t, s)

/-- R159: the oldest token has left G11. -/
def execTokenExitHeadrace (h : Headrace) (s : State) : Res :=
  if !s.domOn (domHR h) || !s.domOn 73 then .next s
  else match (s.pipe h).toks with
    | [] => .next s
    | t :: ts =>
      if t.gate ≠ 11 || t.st ≠ .last then .next s
      else
        let (t, s) := if s.mode = .trickle then ({ t with carry := setBits t.carry 799 768 (s.trickleDest t) }, s) else s.police h t
        let (dropped, s) := (s.setToks h ts).leaveHeadrace h t
        .next ((s.tap h t dropped).settle h)

/-! ### Spill (R214, R215) -/

def State.spillTh (s : State) : Nat := s.rd B.WEIR R.WEIR_RSVQ_SPILL_TH

/-- The next packet to move out, from the on-die tail of the VOQ: the oldest behind what is spilled already, else the youngest
before it. -/
def Voq.spillNext (x : Voq) : Option VPkt :=
  match ((x.pkts.reverse.takeWhile fun p => !p.spilled).reverse).head?, x.pkts.any (·.spilled) with
  | some p, true => some p
  | _, _ => (x.pkts.takeWhile fun p => !p.spilled).getLast?

/-- Pages that a VOQ's reservoir part takes. -/
def Voq.pages (x : Voq) : Nat := (spilledBytes x + 4095) / 4096

/-- The spill mover of a quadrant, out or back, is free to move a packet: it moves 200 bytes a nanosecond (R215). -/
def State.moverFree (s : State) (q dir : Nat) : Bool := decide (tget (fun _ => 0) s.weir.mover (2 * q + dir) ≤ 200 * s.now)
def State.moverBusy (s : State) (q dir bytes : Nat) : State :=
  s.onWeir fun w => { w with mover := tput (fun _ => 0) w.mover (2 * q + dir) (200 * s.now + bytes) }

/-- R214: a packet moves from the on-die tail into HBM pages, and its segments are freed; those of a group's packet with its last
copy on die. -/
def execSpillOut (h : Headrace) (t : Tailrace) (c : Fin 8) (s : State) : Res :=
  let v := voqKey h t c
  let x := s.voq v
  match x.spillNext with
  | none => .next s
  | some p =>
    let x' := { x with pkts := x.pkts.map (fun y => if y.id = p.id then { y with spilled := true } else y), fill := 0 }
    if !bitOf (s.rd B.WEIR R.WEIR_RSVQ_CLASSES) c || !s.domOn (domHR h) || !([66, 67, 68].all s.domOn)
        || s.use v ≤ 4 * s.spillTh || p.sent || !s.moverFree (h / 4) 0
        || s.rd B.WEIR R.WEIR_RSVQ_MAX_MAX * 2 ^ 20 < spilledBytes x'
        || 2 ^ 22 < s.spillPages + x'.pages - x.pages then .next s
    else .next (((((s.setVoq v x').crossedOut v p).moverBusy (h / 4) 0 (64 * p.segs))).count (B.HDR h + C.HDR_SPILLED))

/-- R214: the oldest packet of the reservoir part comes back, behind the head part. A group's packet comes back as data of its
own: what the VOQs held together on die may be free by then. -/
def execSpillBack (h : Headrace) (t : Tailrace) (c : Fin 8) (s : State) : Res :=
  let v := voqKey h t c
  let x := s.voq v
  let head := x.pkts.takeWhile fun p => !p.spilled
  match x.pkts.drop head.length with
  | [] => .next s
  | p :: rest =>
    if !s.domOn (domHR h) || s.spillTh * 4 ≤ 2 * (head.map (·.segs)).sum || s.sharedFree (h / 4) < p.segs
        || !s.moverFree (h / 4) 1 then .next s
    else
      let p' := { p with id := if p.group.isSome then s.weir.nextId else p.id, spilled := false, pool := 1, cell := x.next, off := 0,
                         left := dataSegs (p.pkt.data.length + 4) }
      let x := { x with pkts := head ++ p' :: rest, next := x.next + (p'.left + 3) / 4, fill := 0 }
      let s := s.onWeir fun w => { w with nextId := w.nextId + bit p.group.isSome }
      .next (((s.setVoq v x).takeSegs h 1 p.segs p.pair).moverBusy (h / 4) 1 (64 * p.segs))

/-! ### The crossbar (R216 to R219, R225) -/

def classBase (t slot cls : Nat) : Nat := B.TLR t + 0x100 * slot + 0x10 * cls

/-- The port or the host link of a destination is down: its cells are always eligible (R227, R268). -/
def State.destDown (s : State) (dest : Nat) : Bool :=
  match bitsOf dest 31 30 with
  | 0 => !s.portUp (bitsOf dest 11 0)
  | 1 => match s.fnOfPlot (bitsOf dest 11 0) with
    | some (m, _) => !s.linkUp m
    | none => false
  | _ => false

/-- What a packet that starts in a cell asks of its tailrace: queue and cells, and whether the launch store is to hold it. -/
structure Ask where
  dest : Nat
  cells : Nat
  timed : Bool
  deriving DecidableEq, Repr

/-- Room in tailrace t for packets that start in a cell (R219, R233), the ones before it counted: cells by queue, cells of the
store, and places of the launch store. -/
def State.roomFor (s : State) (t c : Nat) : List Ask → List (Nat × Nat) → Nat → Nat → Bool
  | [], _, _, _ => true
  | a :: as, taken, store, timed =>
    match s.slotOf t a.dest with
    | none => s.roomFor t c as taken store timed
    | some (slot, plot) =>
      let key := slot * 256 + plot
      let mine := ((taken.filter (·.1 = key)).map (·.2)).sum
      decide (s.queueFill t slot plot c + mine + a.cells ≤ s.rd (classBase t slot c) R.TLR_Q_SCHED_QLIM)
        && decide (s.storeFill t + store + a.cells ≤ 4096) && (!a.timed || decide (s.launchTaken t + timed < 1024))
        && s.roomFor t c as ((key, a.cells) :: taken) (store + a.cells) (timed + bit a.timed)

/-- A copy is discarded as it crosses: its port or host link is down, or its port has been since the enqueue (R227). -/
def State.copyDown (s : State) (d : Copy) : Bool := d.cut || s.destDown d.dest

/-- What the copies of the packets that start in a VOQ's head cell ask for; those that are discarded ask for nothing. -/
def State.asks (s : State) (x : Voq) : List Ask :=
  x.starting.flatMap fun p => (p.copies.filter fun d => !s.copyDown d).map fun d =>
    { dest := d.dest, cells := egressCells (p.pkt.data.length + 4), timed := timedFor p.pkt d.dest }

/-- The head cell of VOQ (h, t, c) is eligible (R219): one that continues a packet is always; any other while the tailrace has room
for the copies of the packets that start in it, its entrance of 32 tokens included (R148). -/
def State.eligible (s : State) (h t c : Nat) : Bool :=
  let x := s.voq (voqKey h t c)
  match x.head? with
  | none => false
  | some p => p.sent || (let as := s.asks x
      as = [] || decide (atEntrance (s.pipe (16 + t)).toks 0 + as.length ≤ 32) && s.roomFor t c as [] 0 0)

def State.strictW (s : State) : Nat := s.rd B.WEIR R.WEIR_CFG_STRICT

/-- Rank of the best eligible cell that h holds for t: 1 + class for a strict class, 0 below all of them. -/
def State.weirRequest (s : State) (h t : Nat) : Option Nat :=
  if !s.domOn (domHR h) || !s.domOn (domTR t) then none
  else
    let es := (List.range 8).filter (s.eligible h t)
    if es = [] then none
    else some (((es.filter (bitOf s.strictW)).map (· + 1)).foldl max 0)

/-- The first index with the highest rank at or after a pointer, among 16. -/
def bestFrom (ptr : Nat) (rank : Nat → Option Nat) : Option Nat :=
  let idx := (List.range 16).map fun i => (ptr + i) % 16
  let m : Nat := idx.foldl (fun (m : Nat) i => match rank i with
    | some r => max m (r + 1)
    | none => m) 0
  if m = 0 then none else idx.find? fun i => rank i = some (m - 1)

/-- One request, grant, accept iteration: the pairs accepted. -/
def State.iterate (s : State) (reqs : Nat → Nat → Option Nat) (done : List (Nat × Nat)) : List (Nat × Nat) :=
  let freeH := fun h => !(done.any (·.1 = h))
  let freeT := fun t => !(done.any (·.2 = t))
  let grants := (List.range 16).filterMap fun t =>
    if !freeT t then none
    else (bestFrom (tget (fun _ => 0) s.weir.grantPtr t) fun h => if freeH h then reqs h t else none).map fun h => (h, t)
  (List.range 16).filterMap fun h =>
    (bestFrom (tget (fun _ => 0) s.weir.acceptPtr h) fun t => if grants.contains (h, t) then reqs h t else none).map
      fun t => (h, t)

/-- The matching of a slot, and the pointers after it: they move on first-iteration accepts alone. -/
def State.match_ (s : State) : List (Nat × Nat) × State :=
  let reqs := fun h t => s.weirRequest h t
  let a := s.iterate reqs []
  let b := a ++ s.iterate reqs a
  let c := b ++ s.iterate reqs b
  (c, a.foldl (fun s e => s.onWeir fun w =>
    { w with grantPtr := tput (fun _ => 0) w.grantPtr e.2 ((e.1 + 1) % 16)
             acceptPtr := tput (fun _ => 0) w.acceptPtr e.1 ((e.2 + 1) % 16) }) s)

/-- The class that a matched pair sends (R218): the highest eligible strict one, or the one in its turn. -/
def State.pickClass (s : State) (h t : Nat) : Option Nat × State :=
  let es := (List.range 8).filter (s.eligible h t)
  match (es.filter (bitOf s.strictW)).getLast? with
  | some c => (some c, s)
  | none =>
    let (cur, left) := tget (fun _ => (0, 0)) s.weir.drr (16 * h + t)
    let put := fun (s : State) (x : Nat × Nat) => s.onWeir fun w => { w with drr := tput (fun _ => (0, 0)) w.drr (16 * h + t) x }
    if es.contains cur && left ≠ 0 then (some cur, put s (cur, left - 1))
    else match ((List.range 8).map fun i => (cur + 1 + i) % 8).find? es.contains with
      | none => (none, s)
      | some c => (some c, put s (c, s.rd (B.WEIR + 4 * c) R.WEIR_QUANTUM_QUANTUM - 1))

/-- The CE decision of a record that crosses (R225). -/
def State.ceDecision (s : State) (t c : Nat) (p : VPkt) : Bool :=
  let e := ecnOf p.carry p.pkt.data
  let th := s.rd (tcBase t c) R.WEIR_TC_ECN_TH
  let th := if s.belowLR then th / 4 else th
  e ≠ 0 && th < s.depth t c

/-- A record enters the tailrace: one token for each copy; a copy for a port that is or was down is discarded (R227). -/
def State.recordIn (s : State) (v : Nat) (p : VPkt) : State :=
  let t := voqT v
  let k := 16 + t
  let ce := s.ceDecision t (voqC v) p
  let s := if ce then s.count (B.WEIR + C.WEIR_ECN_MARKED + 8 * t) else s
  p.copies.foldl (fun s d =>
    if s.copyDown d then (s.count (s.downCnt d.dest)).pktEnd p.pkt
    else
      let carry := carryPut (carryPut p.carry 96 31 0 d.dest) 100 7 0 d.edit
      let tok := { Token.enter p.pkt carry (s.activeBank k) p.lr with
        gen := d.gen, ce := ce, id := p.id, voq := v, dest := d.dest }
      (s.setToks k ((s.pipe k).toks ++ [tok])).event (some k) 1) s

/-- One cell of a VOQ crosses with the records of the packets that start in it. -/
def State.moveCell (s : State) (v : Nat) : State :=
  let x := s.voq v
  let s := x.starting.foldl (fun s p => s.recordIn v p) s
  let y := x.cross
  let gone := y.pkts.filter fun p => p.sent && p.left = 0 && !p.spilled
  let s := s.setVoq v { y with pkts := y.pkts.filter fun p => !(p.sent && p.left = 0 && !p.spilled) }
  let s := gone.foldl (fun s p => s.crossedOut v p) s
  s.settle (16 + voqT v)

/-- The slots of the last two microseconds. -/
def State.slotsIn (s : State) : List Nat := s.weir.slotAt.filter fun t => decide (s.now < t + us 2)

/-- R216, R217: one slot of the Weir; in two microseconds there are at most 2,417 of them. -/
def execWeirSlot (s : State) : Res :=
  if !s.domOn 73 || !s.forwarding || 2417 ≤ s.slotsIn.length then .next s
  else
    let (pairs, s) := s.match_
    let s := (s.event none 1).onWeir fun w => { w with slotAt := s.now :: s.slotsIn }
    let s := if pairs = [] then s else s.event none 2
    .next (pairs.foldl (fun s e =>
      match s.pickClass e.1 e.2 with
      | (none, s) => s
      | (some c, s) => s.moveCell (voqKey e.1 e.2 c)) s)

/-! ### Commands (Table 9.4, R230) -/

def execQosTcSet (q : Req) (s : State) : Res :=
  .next (s.command q 0x0340 fun c s =>
    if 16 ≤ c.u8 8 || 8 ≤ c.u8 9 || 16 ≤ c.u8 10 || 16 ≤ c.u8 11 || 2 ^ 24 ≤ c.u32 12 then s.finish q St.BAD_ARGUMENT
    else (s.wrW (tcBase (c.u8 8) (c.u8 9) + 0x1000) (c.u8 10 * 2 ^ 28 + c.u8 11 * 2 ^ 24 + c.u32 12)).done q [])

def execQosRedSet (q : Req) (s : State) : Res :=
  .next (s.command q 0x0341 fun c s =>
    let p := fun k => c.u32 (16 + 8 * k)
    if 16 ≤ c.u8 8 || 256 ≤ p 0 || 256 ≤ p 1 || 256 ≤ p 2 then s.finish q St.BAD_ARGUMENT
    else
      let s := [0, 1, 2].foldl (fun s k =>
        let a := B.WEIR + 0x400 + 0x20 * c.u8 8 + 8 * k
        (s.wrW a (c.u32 (12 + 8 * k))).wrW (a + 4) (p k)) s
      s.done q [])

def execQosBufSet (q : Req) (s : State) : Res :=
  .next (s.command q 0x0342 fun c s =>
    let x := c.u8 8
    if 4 ≤ x || 256 ≤ c.u16 10 || !nibblesOk (c.u32 16) then s.finish q St.BAD_ARGUMENT
    else if sharedCells (c.u16 10) (c.u16 12) < 65536 then s.finish q St.REFUSED
    else
      let s := s.wrW (weirQ x + R.WEIR_BUF_CFG_GUAR.off) (c.u16 12 * 2 ^ 16 + c.u16 10)
      (s.wrW (B.WEIR + R.WEIR_ALPHA_K.off) (c.u32 16)).done q [])

def execQosPfcSet (q : Req) (s : State) : Res :=
  .next (s.command q 0x0343 fun c s =>
    let p := c.u8 8
    let v := c.u16 12 * 2 ^ 16 + c.u16 10
    if p < 96 then
      let a := B.WEIR + 0x3000 + 0x10 * p
      ((s.wrW a v).wrW (a + 4) (c.u16 14)).done q []
    else if 0x80 ≤ p && p < 0x90 then
      let a := B.WEIR + 0x3800 + 0x10 * (p - 0x80)
      ((s.wrW a v).wrW (a + 4) (c.u16 14)).done q []
    else s.finish q St.BAD_ARGUMENT)

/-- Member ranges in use: of the groups, and of lists that still drain. -/
def State.memberRanges (s : State) : List (Nat × Nat) :=
  ((s.weir.groups.map fun e => (Grp.base e.2, Grp.count e.2)) ++ s.weir.old.map fun e => (e.2.2.1, e.2.2.2)).filter
    fun r => r.2 ≠ 0

/-- Packets in flight under an epoch of a group: enqueued, and their record not yet across. -/
def State.inFlight (s : State) (g e : Nat) : Nat :=
  (s.weir.voqs.map fun v => (v.2.pkts.filter fun p => !p.sent && (match p.group with
    | some (g', e', _, _) => g' = g && e' = e
    | none => false)).length).sum

/-- A group's new list takes effect at one instant, and its epoch toggles; the old list waits for its packets. -/
def State.commitGroup (s : State) (q : Req) (g : Nat) (ms : List Nat) : State :=
  let old := s.groupEnt g
  let (f, s) := s.draw
  let fits := fun b => decide (b + ms.length ≤ 65536)
    && s.memberRanges.all fun r => decide (b + ms.length ≤ r.1) || decide (r.1 + r.2 ≤ b)
  let cands := (f % 65536) :: 0 :: s.memberRanges.map fun r => r.1 + r.2
  match cands.find? fits with
  | none => s.finish q St.NO_RESOURCE
  | some b =>
    let s := s.onWeir fun w => { w with
      members := (ms.zipIdx).foldl (fun m e => tput (fun _ => 0) m (b + e.2) e.1) w.members
      gstage := tput (fun _ => []) w.gstage g []
      groups := tput (fun _ => 0) w.groups g
        ((if ms = [] then 0 else b * 2 ^ 16) + (1 - Grp.epoch old) * 2 ^ 15 + ms.length)
      old := if s.inFlight g (Grp.epoch old) = 0 then w.old else w.old ++ [(g, Grp.epoch old, Grp.base old, Grp.count old)] }
    s.done q []

/-- R222: the old list's entries return to free space. -/
def execGroupEpochRelease (g : Fin 4096) (s : State) : Res :=
  .next (s.onWeir fun w => { w with old := w.old.filter fun e => !(e.1 = g.val && s.inFlight g e.2.1 = 0) })

def execGroupSet (q : Req) (s : State) : Res :=
  .next (s.command q 0x0344 fun c s =>
    let g := c.u16 8
    let n := c.u8 10
    let mode := c.u8 11
    let ms := (List.range n).map fun i => c.u32 (16 + 4 * i)
    if 4096 ≤ g || 56 < n || 2 < mode || ms.any (fun m => Mem.kind m = 3) then s.finish q St.BAD_ARGUMENT
    else if s.weir.old.any (·.1 = g) then s.busyRetry q 1000
    else if mode = 0 then s.commitGroup q g ms
    else
      let all := tget (fun _ => []) s.weir.gstage g ++ ms
      if 64 < all.length then
        (s.onWeir fun w => { w with gstage := tput (fun _ => []) w.gstage g [] }).finish q St.BAD_ARGUMENT
      else if mode = 1 then (s.onWeir fun w => { w with gstage := tput (fun _ => []) w.gstage g all }).done q []
      else s.commitGroup q g all)

def execGroupRead (q : Req) (s : State) : Res :=
  .next (s.command q 0x0345 fun c s =>
    let g := c.u16 8
    let first := c.u8 10
    if 4096 ≤ g || 63 < first then s.finish q St.BAD_ARGUMENT
    else
      let e := s.groupEnt g
      let n := min 56 (Grp.count e - first)
      s.done q ([BitVec.ofNat 8 (Grp.count e), BitVec.ofNat 8 (Grp.epoch e), BitVec.ofNat 8 n, 0]
        ++ (s.membersOf (Grp.base e + first) n).flatMap (leBytes 4)))

def execTapSet (q : Req) (s : State) : Res :=
  .next (s.command q 0x0346 fun c s =>
    if 4 ≤ c.u8 8 || !s.domOn (domQuad (c.u8 8)) || c.u32 12 % 2 ^ 24 = 0 then s.finish q St.BAD_ARGUMENT
    else (s.wrW (B.TAP (c.u8 8) + 0x400 + 4 * c.u8 9) (setBits (c.u32 12) 25 24 0)).done q [])

/-- Bytes of a tap ring, and the rings already placed: base and bytes. -/
def tapBytes (size : Nat) : Nat := 160 * 2 ^ size
def State.tapPlaces (s : State) (q k : Nat) : List (Nat × Nat) :=
  ((List.range 64).filter fun i => i ≠ 16 * q + k && s.pair (B.TAP (i / 16) + 0x20 * (i % 16)) ≠ 0).map fun i =>
    (s.pair (B.TAP (i / 16) + 0x20 * (i % 16)), tapBytes (s.rd (B.TAP (i / 16) + 0x20 * (i % 16)) R.TAP_RING_SIZE_SIZE))

/-- R230: a tap ring is sized and placed; where in its region is a free choice among the places that fit. -/
def execTapRingSet (q : Req) (s : State) : Res :=
  .next (s.command q 0x0347 fun c s =>
    let x := c.u8 8
    let k := c.u8 9
    let size := c.u8 10
    if 4 ≤ x || 16 ≤ k || size < 6 || 24 < size || !s.domOn (domQuad x) then s.finish q St.BAD_ARGUMENT
    else if !([66, 67, 68].all s.domOn) || 2 ^ 30 < ((s.tapPlaces x k).map (·.2)).sum + tapBytes size then
      s.finish q St.NO_RESOURCE
    else
      let n := tapBytes size
      let r := Config.region 0
      let (f, s) := s.draw
      let cands := (r + f % 2 ^ 30 / 64 * 64) :: r :: (s.tapPlaces x k).map fun e => e.1 + e.2
      let fits := fun b => decide (r ≤ b) && decide (b + n ≤ r + 2 ^ 30)
        && (s.tapPlaces x k).all fun e => decide (b + n ≤ e.1) || decide (e.1 + e.2 ≤ b)
      match cands.find? fits with
      | none => s.finish q St.NO_RESOURCE
      | some b =>
        let a := B.TAP x + 0x20 * k
        let s := (((s.wrPair a b).wr a R.TAP_RING_SIZE_SIZE size).wr a R.TAP_RING_PROD_PROD 0).wr a R.TAP_RING_CONS_CONS 0
        s.done q (leBytes 8 b))

/-! ### Group memory access (R143, Table 9.5) -/

def execWeirGrpRead (s : State) : Res :=
  let i := s.rd B.WEIR R.WEIR_GRP_ADDR_INDEX
  let mem := s.flag B.WEIR R.WEIR_GRP_ADDR_MEM
  if !s.domOn 73 || (!mem && 4096 ≤ i) then .next (s.answer .busError)
  else .next ((s.wrW (B.WEIR + R.WEIR_GRP_DATA_DATA.off) (if mem then s.memberEnt i else s.groupEnt i)).answer .ok)

def execWeirGrpWrite (s : State) : Res :=
  let i := s.rd B.WEIR R.WEIR_GRP_ADDR_INDEX
  let mem := s.flag B.WEIR R.WEIR_GRP_ADDR_MEM
  let v := s.rd B.WEIR R.WEIR_GRP_DATA_DATA
  if !s.domOn 73 || (!mem && 4096 ≤ i) then .next (s.answer .busError)
  else
    let e := bitsOf v 31 16 * 2 ^ 16 + Grp.epoch (s.groupEnt i) * 2 ^ 15 + bitsOf v 6 0
    .next ((s.onWeir fun w =>
      if mem then { w with members := tput (fun _ => 0) w.members i v }
      else { w with groups := tput (fun _ => 0) w.groups i e }).answer .ok)

end Sys2Proof.Machine
end

