-- ==== Sys2Proof/Machine/Egress.lean ====
section
/-! DEFINITION. The edit unit, the egress queues, shapers, the launch store, and the egress and meter commands
(chapter 10, R170 to R172). -/
namespace Sys2Proof.Machine

/-! ### The edit unit (R170 to R172) -/

/-- What an edit program has done to the original bytes: replacements (none: removed), insertions before positions in
program order, and the fix commands. -/
structure EditSt where
  bytes : List (Nat × Option Byte)
  ins : List (Nat × List Byte)
  /-- OP, header, and how many of the writes above came before. -/
  fixes : List (Nat × Nat × Nat)
  deriving DecidableEq, Repr

/-- The byte of an original position after the program: the later write wins (R171). -/
def EditSt.byte (e : EditSt) (data : List Byte) (i : Nat) : Option Byte :=
  match e.bytes.reverse.find? (·.1 = i) with
  | some (_, b) => b
  | none => some (data.getD i 0)

def EditSt.insAt (e : EditSt) (i : Nat) : List Byte := (e.ins.filter (·.1 = i)).flatMap (·.2)

/-- The packet that the program makes, from original position `i` on. -/
def EditSt.build (e : EditSt) (data : List Byte) : Nat → Nat → List Byte
  | 0, i => e.insAt i
  | n + 1, i => e.insAt i ++ (match e.byte data i with
      | some b => [b]
      | none => []) ++ e.build data n (i + 1)

/-- Where the byte at an original position stands afterwards. -/
def EditSt.place (e : EditSt) (data : List Byte) (i : Nat) : Nat :=
  ((List.range i).map fun k => (e.insAt k).length + bit (e.byte data k).isSome).sum + (e.insAt i).length

/-- A range of original bytes that a command may name (R172). -/
def editRange (data : List Byte) (pos len : Nat) : Bool :=
  decide (pos + len ≤ 256) && decide (pos ≤ 255) && decide (pos + len ≤ data.length)

/-- One edit command; none where it breaks R172. `src` gives the source bytes of a command. -/
def editOne (src : Nat → Nat → Nat → List Byte) (carry : Nat) (data : List Byte) (w : Nat) (e : EditSt) : Option EditSt :=
  let h := bitsOf w 59 56
  let base := Carry.hoff carry h
  let pos := base + bitsOf w 55 48
  let len := bitsOf w 47 40
  let bytes := src (bitsOf w 39 39) (bitsOf w 38 27) len
  let v6 := Carry.htype carry h = 5
  let ip := v6 || Carry.htype carry h = 4
  if Carry.hcount carry ≤ h then none
  else match bitsOf w 63 60 with
    | 1 => if editRange data pos len then
        some { e with bytes := e.bytes ++ bytes.zipIdx.map fun b => (pos + b.2, some b.1) } else none
    | 2 => if editRange data pos 0 then some { e with ins := e.ins ++ [(pos, bytes)] } else none
    | 3 => if editRange data pos len then
        some { e with bytes := e.bytes ++ (List.range len).map (fun i => (pos + i, none)) } else none
    | 4 =>
      let p := base + (if v6 then 7 else 8)
      if !ip then some e
      else if editRange data p 1 then
        some { e with bytes := e.bytes ++ [(p, some (BitVec.ofNat 8 ((data.getD p 0).toNat - 1)))] } else none
    | 5 => if !ip then some e else if editRange data base (if v6 then 6 else 20) then
        some { e with fixes := e.fixes ++ [(5, h, e.bytes.length)] } else none
    | 6 => if editRange data base 8 then some { e with fixes := e.fixes ++ [(6, h, e.bytes.length)] } else none
    | _ => none

/-- A program runs to END or through its sixteenth command (R170). -/
def editRun (src : Nat → Nat → Nat → List Byte) (carry : Nat) (data : List Byte) : List Nat → EditSt → Option EditSt
  | [], e => some e
  | w :: ws, e => if bitsOf w 63 60 = 0 then some e
    else match editOne src carry data w e with
      | none => none
      | some e => editRun src carry data ws e

/-- Bytes of a packet overwritten from a position; what would lie past its end is not written. -/
def overwrite (l : List Byte) (p : Nat) (bs : List Byte) : List Byte := (l.take p ++ bs ++ l.drop (p + bs.length)).take l.length

def checksum (l : List Byte) : Nat := 65535 - onesSum l

/-- The IPv4 header at an offset with its checksum recomputed. -/
def fixIpv4 (l : List Byte) (o : Nat) : List Byte :=
  let l := overwrite l (o + 10) [0, 0]
  overwrite l (o + 10) (beBytes 2 (checksum ((l.drop o).take (4 * ((l.getD o 0).toNat % 16)))))

/-- The pseudo-header sum of an IPv6 packet. -/
def pseudo6 (l : List Byte) (ip len next : Nat) : List Byte :=
  (l.drop (ip + 8)).take 32 ++ beBytes 4 len ++ beBytes 4 next

/-- The IP header before a stack entry: index and whether it is IPv6. -/
def ipBefore (carry h : Nat) : Option (Nat × Bool) :=
  ((List.range h).reverse.find? fun i => Carry.htype carry i = 4 || Carry.htype carry i = 5).map
    fun i => (i, Carry.htype carry i = 5)

/-- What a fix writes from original position `p` on: a byte that a later command writes, or that is gone, stays (R171). -/
def EditSt.fixPut (e : EditSt) (data : List Byte) (before p : Nat) (l bs : List Byte) : List Byte :=
  bs.zipIdx.foldl (fun l b =>
    let i := p + b.2
    if (e.bytes.drop before).any (·.1 = i) || (e.byte data i).isNone then l else overwrite l (e.place data i) [b.1]) l

/-- A fix command on the packet that the program made; lengths run to the packet's end (assumption 19). -/
def editFix (carry : Nat) (e : EditSt) (data l : List Byte) (op h before : Nat) : List Byte :=
  let p := Carry.hoff carry h
  let o := e.place data p
  let n := l.length - o
  let put := fun k l bs => e.fixPut data before (p + k) l bs
  if op = 5 then
    if Carry.htype carry h = 5 then put 4 l (beBytes 2 (n - 40))
    else
      let l := put 2 l (beBytes 2 n)
      put 10 l (((fixIpv4 l o).drop (o + 10)).take 2)
  else
    let l := put 4 l (beBytes 2 n)
    match ipBefore carry h with
    | some (i, true) =>
      let z := overwrite l (o + 6) [0, 0]
      let c := checksum (pseudo6 z (e.place data (Carry.hoff carry i)) n 17 ++ z.drop o)
      put 6 l (beBytes 2 (if c = 0 then 0xFFFF else c))
    | _ => put 6 l [0, 0]

/-- Offset of the IP header of a frame, and whether it is IPv6, from the EtherType at an offset on: after VLAN tags, or at the bottom
of a label stack. -/
def outermostIp (l : List Byte) : Nat → Nat → Option (Nat × Bool)
  | 0, _ => none
  | fuel + 1, o =>
    let et := u16At l o
    if et = 0x0800 then some (o + 2, false)
    else if et = 0x86DD then some (o + 2, true)
    else if et = 0x8100 || et = 0x88A8 then outermostIp l fuel (o + 4)
    else if et = 0x8847 then
      let n := ((List.range fuel).find? fun i => bitOf (l.getD (o + 4 + 4 * i) 0).toNat 0).getD 0
      let p := o + 6 + 4 * n
      let v := (l.getD p 0).toNat / 16
      if v = 4 then some (p, false) else if v = 6 then some (p, true) else none
    else none

/-- The CE mark on the outermost IP header of the packet that the program made (R171; how it is found: assumption 19). -/
def markCe (l : List Byte) : List Byte :=
  match outermostIp l 16 12 with
  | none => l
  | some (o, v6) =>
    let b := (l.getD (o + 1) 0).toNat
    if v6 then
      if b / 16 % 4 = 1 || b / 16 % 4 = 2 then overwrite l (o + 1) [BitVec.ofNat 8 (setBits b 5 4 3)] else l
    else if b % 4 = 1 || b % 4 = 2 then fixIpv4 (overwrite l (o + 1) [BitVec.ofNat 8 (setBits b 1 0 3)]) o
    else l

/-- The header stack with the offsets that the headers have in the packet that was made. -/
def moveHeaders (carry : Nat) (place : Nat → Nat) : Nat :=
  (List.range (min 16 (Carry.hcount carry))).foldl (fun c i => carryPut c (16 + 2 * i) 9 0 (place (Carry.hoff carry i))) carry

/-- The edit unit on a packet: program, fixes, CE mark; the packet and its header stack, or none where R172 drops it. -/
def editPacket (prog : List Nat) (src : Nat → Nat → Nat → List Byte) (carry : Nat) (ce : Bool) (data : List Byte) :
    Option (List Byte × Nat) :=
  match editRun src carry data prog { bytes := [], ins := [], fixes := [] } with
  | none => none
  | some e =>
    let l := e.build data data.length 0
    if data.length + 128 < l.length then none
    else
      let l := e.fixes.foldl (fun l f => editFix carry e data l f.1 f.2.1 f.2.2) l
      some (if ce then markCe l else l, moveHeaders carry (e.place data))

/-- Program and source bytes of a tailrace's edit memory; source bytes past a memory's end are free. -/
def State.editProg (s : State) (t bank p : Nat) : List Nat := (List.range 16).map fun c => s.editAt (editKey t bank (16 * p + c))

def State.editSrc (s : State) (t bank carry free : Nat) (tpl a len : Nat) : List Byte :=
  (List.range len).map fun i =>
    if tpl = 1 then
      if a + i < 4096 then BitVec.ofNat 8 (s.editAt (editKey t bank (2 ^ 13 + (a + i) / 8)) / 2 ^ (8 * ((a + i) % 8)))
      else BitVec.ofNat 8 (free / 2 ^ (8 * i))
    else if a + i < 128 then BitVec.ofNat 8 (carryAt carry (a + i) 7 0)
    else BitVec.ofNat 8 (free / 2 ^ (8 * i))

/-! ### Shaper settings (R238 to R242) -/

/-- Credit keys of Table EgrSt.credit. -/
def slotShpKey (k : Nat) : Nat := 16 * k + 8
def plotShpKey (l : Nat) : Nat := 4096 + l

/-- Enable, INC and BURST of a shaper, and the slot whose OVERHEAD it uses. -/
def State.shaper (s : State) (t key : Nat) : Bool × Nat × Nat × Nat :=
  let b := B.TLR t
  if 4096 ≤ key then
    let a := b + 8 * (key - 4096)
    (s.flag a R.TLR_PLOT_SHP_SHP_EN, s.rd a R.TLR_PLOT_SHP_INC, s.rd a R.TLR_PLOT_SCHED_BURST, 8)
  else if key % 16 = 8 then
    let a := b + 0x100 * (key / 16)
    (s.flag a R.TLR_SLOT_SHP_SHP_EN, s.rd a R.TLR_SLOT_SHP_INC, s.rd a R.TLR_SLOT_BURST_BURST, key / 16)
  else
    let a := classBase t (key / 16) (key % 16)
    (s.flag a R.TLR_Q_SHP_SHP_EN, s.rd a R.TLR_Q_SHP_INC, s.rd a R.TLR_Q_BURST_BURST, key / 16)

def State.overhead (s : State) (t k : Nat) : Int := signedOf 7 (s.rd (B.TLR t + 0x100 * k) R.TLR_SLOT_CFG_OVERHEAD)

/-- The packets that a shaper's "queue" means (R238). -/
def shaperHolds (x : EgrSt) (key : Nat) : Bool :=
  x.q.any fun p => p.launch.isNone &&
    (if 4096 ≤ key then p.slot = 8 && p.plot = key - 4096
     else if key % 16 = 8 then p.slot = key / 16 else p.slot = key / 16 && p.cls = key % 16)

/-- One shaper's refill: a shaper enabled since the last one starts from 0 (R240). -/
def State.refillOne (s : State) (t : Nat) (x : EgrSt) (key : Nat) : EgrSt :=
  let (en, inc, burst, slot) := s.shaper t key
  let c : Int := tget (fun _ => 0) x.credit key
  let old := tget (fun _ => none) x.force key
  let c' : Int := if !en || old.isNone then 0
    else min (c + inc) (if shaperHolds x key then (burst : Int) * 65536 else 0)
  { x with credit := tput (fun _ => 0) x.credit key c',
           force := tput (fun _ => none) x.force key (if en then some (s.overhead t slot) else none) }

def allShapers : List Nat :=
  (List.range 10).flatMap (fun k => slotShpKey k :: (List.range 8).map (classKey k)) ++ (List.range 256).map plotShpKey

def charge (x : EgrSt) (key len : Nat) : EgrSt :=
  match tget (fun _ => none) x.force key with
  | none => x
  | some (o : Int) =>
    let c : Int := tget (fun _ => 0) x.credit key - 1024 * ((len : Int) + o)
    { x with credit := tput (fun _ => 0) x.credit key c }

/-! ### Deficit round robin (R236, R237) -/

/-- Visits in rotation from `c` on, each adding a quantum, until a head fits. -/
def drrPick (n : Nat) (elig : Nat → Bool) (len quantum dk : Nat → Nat) : Nat → Table Nat → Nat → Option (Nat × Table Nat)
  | 0, _, _ => none
  | fuel + 1, d, c =>
    if elig c then
      let v : Nat := tget (fun _ => 0) d (dk c) + quantum c
      let d := tput (fun _ => 0) d (dk c) v
      if len c ≤ v then some (c, d) else drrPick n elig len quantum dk fuel d ((c + 1) % n)
    else drrPick n elig len quantum dk fuel d ((c + 1) % n)

/-- The choice of a rotation whose present visit is `turn` - 1 (0: none yet). -/
def drrChoose (n fuel : Nat) (elig : Nat → Bool) (len quantum dk : Nat → Nat) (d : Table Nat) (turn : Nat) :
    Option (Nat × Table Nat) :=
  if !(List.range n).any elig then none
  else if turn ≠ 0 && elig (turn - 1) && decide (len (turn - 1) ≤ tget (fun _ => 0) d (dk (turn - 1))) then some (turn - 1, d)
  else drrPick n elig len quantum dk fuel d (turn % n)

/-! ### Queues of a slot (R232 to R237) -/

def slotPort (s : State) (t k : Nat) : Nat := s.rd (B.TLR t + 0x100 * k) R.TLR_SLOT_CFG_PORT

/-- L of a packet (R239). -/
def State.shapedLen (s : State) (t : Nat) (p : EPkt) : Nat :=
  if p.slot < 8 then s.wireLen (slotPort s t p.slot) p.pkt.data.length else p.pkt.data.length

/-- The destination link of a packet for a plot is up. -/
def State.destLink (s : State) (p : EPkt) : Bool :=
  p.slot ≠ 8 || (match s.fnOfPlot (bitsOf p.dest 11 0) with
    | some (m, _) => s.linkUp m
    | none => true)

def EgrSt.head (x : EgrSt) (k c : Nat) : Option EPkt := x.q.find? fun p => p.slot = k && p.cls = c && p.launch.isNone

def State.plotEligible (s : State) (x : EgrSt) (c l : Nat) : Bool :=
  decide ((0 : Int) ≤ tget (fun _ => 0) x.credit (plotShpKey l)) &&
    match x.plotHead c l with
    | none => false
    | some p => s.ringTakes p && s.destLink p

/-- The plot that a class of slot 8 would serve next, with the deficits (R237). -/
def State.plotChoice (s : State) (t : Nat) (x : EgrSt) (c : Nat) : Option (Nat × Table Nat) :=
  drrChoose 256 (256 * 256) (s.plotEligible x c)
    (fun l => match x.plotHead c l with
      | some p => s.shapedLen t p
      | none => 0)
    (fun l => 256 * s.rd (B.TLR t + 8 * l) R.TLR_PLOT_SCHED_WEIGHT) (fun l => 4096 + 8 * l + c) x.deficit
    (tget (fun _ => 0) x.turn (16 + c))

/-- The next packet of a class queue, and the plot deficits after its choice. -/
def State.classNext (s : State) (t : Nat) (x : EgrSt) (k c : Nat) : Option (EPkt × Table Nat) :=
  if k = 8 then
    match s.plotChoice t x c with
    | none => none
    | some (l, d) => (x.plotHead c l).map fun p => (p, d)
  else match x.head k c with
    | none => none
    | some p => if k = 9 && !s.ringTakes p then none else some (p, x.deficit)

def State.classPaused (s : State) (t k c : Nat) : Bool := bitOf (s.rd (B.TLR t + 0x100 * k) R.TLR_SLOT_STATUS_PAUSED) c

/-- Time word at which a frame that starts now has left, rounded up to 1 ns. -/
def State.frameEnd (s : State) (port len : Nat) : Nat :=
  s.timeWord + ((len + 20) * 8 + s.portRate port - 1) / max 1 (s.portRate port)

/-- Launch-time frames already released towards a port, in either of its tailraces (R245). -/
def State.guards (s : State) (port : Nat) : List Nat :=
  (List.range 16).flatMap fun t => (s.egress t).q.filterMap fun p =>
    if p.slot < 8 && p.released && bitsOf p.dest 11 0 = port then p.launch else none

/-- A frame may start beside the launch-time frames that wait (R245). -/
def State.clearOfLaunch (s : State) (t : Nat) (p : EPkt) : Bool :=
  p.slot ≥ 8 || (s.guards (slotPort s t p.slot)).all fun l =>
    decide (l ≤ s.timeWord) || decide (s.frameEnd (slotPort s t p.slot) (s.shapedLen t p) ≤ l)

/-- Eligible class (R234). -/
def State.classEligible (s : State) (t : Nat) (x : EgrSt) (k c : Nat) : Bool :=
  decide ((0 : Int) ≤ tget (fun _ => 0) x.credit (classKey k c)) && !s.classPaused t k c &&
    match s.classNext t x k c with
    | none => false
    | some (p, _) => s.clearOfLaunch t p

def State.tol (s : State) (t : Nat) : Nat := s.rd (B.TLR t) R.TLR_LT_TOL_TOL

/-- The released launch-time packet of a slot that starts now: earliest first, not before L, not after L + TOL, its
class not paused. -/
def State.launchNext (s : State) (t : Nat) (x : EgrSt) (k : Nat) : Option EPkt :=
  let ready := x.q.filter fun p => p.slot = k && p.released && !s.classPaused t k p.cls &&
    (match p.launch with
     | some l => decide (l ≤ s.timeWord) && decide (s.timeWord ≤ l + s.tol t)
     | none => false)
  ready.foldl (fun b p => match b with
    | some y => if p.launch.getD 0 < y.launch.getD 0 then some p else some y
    | none => some p) none

/-! ### Starting a frame (R114, R234, R238) -/

/-- A frame has been started on a port: its cells return with its last byte (R233), and a straddling port has heard this tailrace
last (R112). -/
def State.holdCells (s : State) (t port cells : Nat) : State :=
  let x := s.egress t
  let going := x.leaving.filter fun e => decide (s.now < e.2.1)
  let s := s.setEgress t { x with leaving := (port, tget (fun _ => 0) s.eth.txEnd port, cells) :: going }
  { s with eth := { s.eth with lastTail := tput (fun _ => 0) s.eth.lastTail port (t + 1) } }

/-- A packet leaves its queue: credits charged, counted, sent on its port or handed to its receive ring. -/
def State.startFrame (s : State) (t : Nat) (x : EgrSt) (p : EPkt) : State :=
  let len := s.shapedLen t p
  let x := { x with q := x.q.erase p }
  let port := slotPort s t p.slot
  if p.slot < 8 && s.rd (portBase port) R.ETH_PORT_CFG_MAX_FRAME < len then
    ((s.setEgress t x.tidy).count (portCnt port C.ETH_TX_OVERSIZE)).pktEnd p.pkt
  else
    let x := charge (charge x (slotShpKey p.slot) len) (classKey p.slot p.cls) len
    let x := if p.slot = 8 then charge x (plotShpKey p.plot) len else x
    let a := B.TLR t + 0x10 * (8 * p.slot + p.cls)
    let s := (s.count (a + C.TLR_TX_PKTS)).countN (a + C.TLR_TX_OCTETS) len
    if p.slot < 8 then
      let (f, s) := s.draw
      let s := s.setEgress t x.tidy
      let s := if p.launch.isSome then s.count (B.TLR t + C.TLR_LT_SENT) else s
      let t' := s.stampAt port true f
      ((s.sendFrame port p.pkt.data t'.1).holdCells t port p.cells).pktLeft p.pkt t'.1 t'.2
    else s.setEgress t { x with deliver := x.deliver ++ [p] }.tidy

/-- The destination of a slot can take a frame: a port sends one frame at a time. -/
def State.slotReady (s : State) (t k : Nat) : Bool :=
  s.domOn (domTR t) && (if k < 8 then s.flag (B.TLR t + 0x100 * k) R.TLR_SLOT_CFG_EN && s.portUp (slotPort s t k)
    && !s.sending (slotPort s t k) else true)

/-- The frame that a slot would start (R234): its rank in the port's schedule (0 for a weighted class, 1 + c for strict class c, 9
for a launch time), the packet, and the queues with the deficits and rotations as its choice leaves them. -/
structure Choice where
  rank : Nat
  pkt : EPkt
  after : EgrSt
  deriving DecidableEq, Repr

/-- A deficit falls by a packet's shaped length (R236, R237). -/
def spend (d : Table Nat) (k len : Nat) : Table Nat := tput (fun _ => 0) d k (tget (fun _ => 0) d k - len)

/-- A packet of class c of slot k is chosen: in slot 8, its plot's deficit and the rotation of the plots go on. -/
def EgrSt.chosen (x : EgrSt) (k c len : Nat) (p : EPkt) (d : Table Nat) : EgrSt :=
  if k = 8 then { x with deficit := spend d (4096 + 8 * p.plot + c) len, turn := tput (fun _ => 0) x.turn (16 + c) (p.plot + 1) }
  else { x with deficit := d }

def State.slotChoice (s : State) (t k : Nat) : Option Choice :=
  let x := s.egress t
  if !s.slotReady t k then none
  else match s.launchNext t x k with
    | some p => some { rank := 9, pkt := p, after := x }
    | none =>
      if tget (fun _ => 0) x.credit (slotShpKey k) < (0 : Int) then none
      else
        let strict := bitOf (s.rd (B.TLR t + 0x100 * k) R.TLR_SLOT_CFG_STRICT)
        match (List.range 8).reverse.find? fun c => strict c && s.classEligible t x k c with
        | some c => (s.classNext t x k c).map fun (p, d) =>
          { rank := 1 + c, pkt := p, after := x.chosen k c (s.shapedLen t p) p d }
        | none =>
          match drrChoose 8 4096 (fun c => !strict c && s.classEligible t x k c)
              (fun c => match s.classNext t x k c with
                | some (p, _) => s.shapedLen t p
                | none => 0)
              (fun c => s.rd (classBase t k c) R.TLR_Q_SCHED_QUANTUM) (classKey k) x.deficit
              (tget (fun _ => 0) x.turn k) with
          | none => none
          | some (c, d) => (s.classNext t { x with deficit := d } k c).map fun (p, d) =>
            let x := { x with turn := tput (fun _ => 0) x.turn k (c + 1) }
            { rank := 0, pkt := p, after := x.chosen k c (s.shapedLen t p) p (spend d (classKey k c) (s.shapedLen t p)) }

/-- R112: the other tailrace of a straddling port goes first: its frame is of a higher strict class, or of equal rank while this
one sent last. A launch-time frame ranks above the classes, as R234 has it in a slot (DEDUCED, assumption 90). -/
def State.yields (s : State) (t k rank : Nat) : Bool :=
  k < 8 && (s.portSlots (slotPort s t k)).any fun y => y.1 ≠ t && (match s.slotChoice y.1 y.2 with
    | some b => decide (rank < b.rank)
        || b.rank = rank && tget (fun _ => 0) s.eth.lastTail (slotPort s t k) == t + 1
    | none => false)

/-- R234: the frame that a slot starts. -/
def execSlotFrameStart (t : Tailrace) (slot : Fin 10) (s : State) : Res :=
  match s.slotChoice t slot with
  | none => .next s
  | some b => if s.yields t slot b.rank then .next s else .next (s.startFrame t b.after b.pkt)

/-! ### Refills (R238, R243) -/

/-- A plot's transmit credit at a refill: its "queue" holds a packet while descriptors wait (R243). -/
def State.refillPlotTx (s : State) (p : Nat) : State :=
  let en := s.flag (B.PLOT p) R.PLOT_TX_SHP_SHP_EN
  let c : Int := tget (fun _ => 0) s.txCredit p
  let holds := (List.range 64).any fun q => (s.qp (qpKey p q)).txProd ≠ (s.qp (qpKey p q)).txCons
  let top : Int := if holds then (s.rd (B.PLOT p) R.PLOT_TX_SCHED_BURST : Int) * 65536 else 0
  let armed := s.txArmed.contains p
  let c' : Int := if !en || !armed then 0 else min (c + s.rd (B.PLOT p) R.PLOT_TX_SHP_INC) top
  { s with txCredit := tput (fun _ => 0) s.txCredit p c',
           txArmed := if en then (if armed then s.txArmed else s.txArmed ++ [p]) else s.txArmed.filter (· ≠ p) }

/-- R238: one refill of the shapers of a tailrace, or of the transmit credits of a link's plots. -/
def execShaperRefill (x : ShaperSet) (s : State) : Res :=
  match x with
  | .tail t =>
    if !s.domOn (domTR t) then .next s
    else .next (s.atRefill (Tm.tailShapers t) fun s => s.setEgress t (allShapers.foldl (s.refillOne t) (s.egress t)))
  | .plots m =>
    if !s.domOn (domHP m) then .next s
    else .next (s.atRefill (Tm.plotShapers m) fun s => (List.range' (s.plotBase m) (s.allot m)).foldl State.refillPlotTx s)

/-! ### Arrival at the queues (R159, R232, R244) -/

/-- Drops a packet in a tailrace under a counter. -/
def State.tlrDrop (s : State) (t cnt : Nat) (k : Pkt) : State := (s.count (B.TLR t + cnt)).pktEnd k

/-- A packet joins its class queue. -/
def State.joinQueue (s : State) (t : Nat) (p : EPkt) : State :=
  let x := s.egress t
  s.setEgress t { x with q := x.q ++ [p] }

/-- Table 10.2 for a launch-time packet. -/
def State.joinTimed (s : State) (t : Nat) (p : EPkt) (l : Nat) : State :=
  let b := B.TLR t
  if s.timeWord + us (s.rd b R.TLR_LT_CFG_HORIZON) < l then s.tlrDrop t C.TLR_LT_FAR_DROP p.pkt
  else if l + s.tol t < s.timeWord then
    if s.flag b R.TLR_LT_CFG_LATE_ACT then s.tlrDrop t C.TLR_LT_LATE_DROP p.pkt
    else (s.count (b + C.TLR_LT_LATE_SENT)).joinQueue t p
  else s.joinQueue t { p with launch := some l }

/-- A packet from the edit unit joins its queue; for a port that is down it is discarded (R227). -/
def State.joinEgress (s : State) (t : Nat) (k : Token) (data : List Byte) : State :=
  if k.cut || s.destDown k.dest then ((s.laneTally (16 + t) k 1).count (s.downCnt k.dest)).pktEnd k.pkt
  else match s.slotOf t k.dest with
    | none => (s.laneTally (16 + t) k 1).reasonDrop (16 + t) 2 k.pkt
    | some (slot, plot) =>
      let p : EPkt := { id := k.id, voq := k.voq, pkt := { k.pkt with data := data }, carry := k.carry, dest := k.dest,
                        slot := slot, cls := Carry.cls k.carry, plot := plot, gen := k.gen,
                        cells := egressCells (k.pkt.data.length + 4), since := none, launch := none, released := false }
      let s := (s.laneTally (16 + t) k 0).event (some (16 + t)) 2
      match k.pkt.launch with
      | some l => if timedFor k.pkt k.dest then s.joinTimed t p l else s.joinQueue t p
      | none => s.joinQueue t p

/-- The edit unit and the queue, for a token that leaves G5. -/
def State.leaveTailrace (s : State) (t : Nat) (k : Token) : State :=
  if Carry.drop k.carry then (s.laneTally (16 + t) k 1).reasonDrop (16 + t) (Carry.reason k.carry) k.pkt
  else
    let (f, s) := s.draw
    match editPacket (s.editProg t k.bank (Carry.edit k.carry)) (s.editSrc t k.bank k.carry f) k.carry k.ce k.pkt.data with
    | none => (s.laneTally (16 + t) k 1).tlrDrop t C.TLR_EDIT_ERR k.pkt
    | some (data, carry) => (if k.ce then s.event (some (16 + t)) 7 else s).joinEgress t { k with carry := carry } data

def execTokenExitTailrace (t : Tailrace) (s : State) : Res :=
  if !s.domOn (domTR t) then .next s
  else match (s.pipe (16 + t)).toks with
    | [] => .next s
    | k :: ks =>
      if k.gate ≠ 5 || k.st ≠ .last then .next s
      else .next ((((s.setToks (16 + t) ks).leaveTailrace t k).settle (16 + t)).markWaits t)

/-! ### Launch times (R245) and receive posts (R237) -/

/-- LEAD in ns for a packet. -/
def State.lead (s : State) (p : EPkt) : Nat :=
  let port := bitsOf p.dest 11 0
  ((s.rd (portBase port) R.ETH_PORT_CFG_MAX_FRAME + 20) * 8 + s.portRate port - 1) / max 1 (s.portRate port) + 300

def execLaunchRelease (t : Tailrace) (s : State) : Res :=
  if !s.domOn (domTR t) then .next s
  else
    let x := s.egress t
    let ripe := fun (p : EPkt) => !p.released && p.launch.any fun l => decide (l ≤ s.timeWord + s.lead p)
    let s := (x.q.filter ripe).foldl (fun s _ => s.event (some (16 + t.val)) 5) s
    .next (s.setEgress t { x with q := x.q.map fun p => if ripe p then { p with released := true } else p })

/-- A launch-time packet that could not start by L + TOL. -/
def State.lateOne (s : State) (t : Nat) (p : EPkt) : State :=
  let x := s.egress t
  let s := s.setEgress t { x with q := x.q.erase p }
  if s.flag (B.TLR t) R.TLR_LT_CFG_LATE_ACT then s.tlrDrop t C.TLR_LT_LATE_DROP p.pkt
  else (s.count (B.TLR t + C.TLR_LT_LATE_SENT)).joinQueue t { p with launch := none, released := false }

def execLaunchLate (t : Tailrace) (s : State) : Res :=
  if !s.domOn (domTR t) then .next s
  else .next (((s.egress t).q.filter fun p => match p.launch with
    | some l => decide (l + s.tol t < s.timeWord)
    | none => false).foldl (fun s p => s.lateOne t p) s)

/-- R237: a head that has waited RX_WAIT without a free post is dropped; so is a packet at the ring that needs more
posts than it holds. -/
def execRxWaitExpiry (t : Tailrace) (plot : Fin 256) (c : Fin 8) (s : State) : Res :=
  if !s.domOn (domTR t) then .next s
  else
    let x := s.egress t
    let expired := fun (p : EPkt) => match p.since with
      | some n => decide (us (s.rd (B.TLR t) R.TLR_RX_WAIT_WAIT) ≤ s.now - n)
      | none => false
    match x.deliver.find? fun p => p.slot = 8 && p.plot = plot.val && p.cls = c.val with
    | some p => if expired p then
        .next ((s.setEgress t { x with deliver := x.deliver.erase p }).tlrDrop t C.TLR_RX_NOBUF_DROP p.pkt) else .next s
    | none =>
      match x.plotHead c plot with
      | some p => if expired p && !s.ringTakes p then
          .next (((s.setEgress t { x with q := x.q.erase p }.tidy).tlrDrop t C.TLR_RX_NOBUF_DROP p.pkt).markWaits t)
          else .next s
      | none => .next s

/-! ### Commands (Table 10.6, R241, R250) -/

/-- The tailraces and slots that serve a target, lower tailrace first. -/
def State.egrTargets (s : State) (b : Nat) : List (Nat × Nat) :=
  if b < 96 then (if s.portWidth b ≠ 0 then (s.portSlots b).filter fun x => s.domOn (domTR x.1) else [])
  else if 0x80 ≤ b && b < 0x90 then
    (if s.linkExists (b - 0x80) && s.domOn (domHP (b - 0x80)) then
      ((s.linkTails (b - 0x80)).filter fun t => s.domOn (domTR t)).map fun t => (t, 8) else [])
  else if 0xC0 ≤ b && b < 0xD0 then (if s.domOn (domTR (b - 0xC0)) then [(b - 0xC0, 9)] else [])
  else []

/-- A rate of a target as one of its tailraces applies it (R241). -/
def State.scaleInc (s : State) (b t inc : Nat) : Nat :=
  if b < 96 then
    if s.straddles b then max 1 (inc * s.portWeight b t / s.portWidth b) else inc
  else if 0x80 ≤ b && b < 0x90 && (s.linkTails (b - 0x80)).length = 2 then max 1 (inc / 2) else inc

def onesIn (w n : Nat) : Nat := ((List.range n).filter (bitOf w)).length

def execEgrSlotSet (q : Req) (s : State) : Res :=
  .next (s.command q 0x0350 fun c s =>
    let ts := s.egrTargets (c.u8 8)
    let inc := c.u32 12
    let ov := signedOf 8 (c.u8 10)
    if ts = [] || 3 < onesIn (c.u8 9) 8 || ov < -32 || 63 < ov || inc = 0 || 2 ^ 24 ≤ inc || c.u16 16 = 0 then
      s.finish q St.BAD_ARGUMENT
    else
      let s := ts.foldl (fun s (t, k) =>
        let b := B.TLR t + 0x100 * k
        let s := s.restrict t k (s.rd b R.TLR_SLOT_CFG_STRICT) (c.u8 9)
        let s := (s.wr b R.TLR_SLOT_CFG_STRICT (c.u8 9)).wr b R.TLR_SLOT_CFG_OVERHEAD (toSigned 7 ov)
        let en := bitOf (c.u8 11) 0
        let share := c.u8 8 < 96 && s.straddles (c.u8 8) && !en
        let s := (s.wrB b R.TLR_SLOT_SHP_SHP_EN (en || share)).wr b R.TLR_SLOT_BURST_BURST (c.u16 16)
        s.wr b R.TLR_SLOT_SHP_INC (if share then s.shareInc (c.u8 8) t else s.scaleInc (c.u8 8) t inc)) s
      s.done q [])

def execEgrClassSet (q : Req) (s : State) : Res :=
  .next (s.command q 0x0351 fun c s =>
    let ts := s.egrTargets (c.u8 8)
    let inc := c.u32 12
    if ts = [] || 8 ≤ c.u8 9 || inc = 0 || 2 ^ 24 ≤ inc || c.u16 16 = 0 || c.u16 18 < 64 || c.u16 20 = 0 || 4096 < c.u16 20 then
      s.finish q St.BAD_ARGUMENT
    else
      let s := ts.foldl (fun s (t, k) =>
        let b := classBase t k (c.u8 9)
        let s := (s.wrB b R.TLR_Q_SHP_SHP_EN (bitOf (c.u8 10) 0)).wr b R.TLR_Q_SHP_INC (s.scaleInc (c.u8 8) t inc)
        let s := s.wr b R.TLR_Q_BURST_BURST (c.u16 16)
        (s.wr b R.TLR_Q_SCHED_QUANTUM (c.u16 18)).wr b R.TLR_Q_SCHED_QLIM (c.u16 20)) s
      s.done q [])

def execEgrLaunchSet (q : Req) (s : State) : Res :=
  .next (s.command q 0x0352 fun c s =>
    let t := c.u8 8
    if 16 ≤ t || !s.domOn (domTR t) || 2 ≤ c.u8 9 || c.u32 12 = 0 || 2 ^ 20 ≤ c.u32 12 then s.finish q St.BAD_ARGUMENT
    else
      let b := B.TLR t
      (((s.wr b R.TLR_LT_CFG_LATE_ACT (c.u8 9)).wr b R.TLR_LT_CFG_HORIZON (c.u32 12)).wr b R.TLR_LT_TOL_TOL (c.u16 16)).done q [])

def execEgrRead (q : Req) (s : State) : Res :=
  .next (s.command q 0x0353 fun c s =>
    match (s.egrTargets (c.u8 8))[c.u8 9]? with
    | none => s.finish q St.BAD_ARGUMENT
    | some (t, k) =>
      let b := B.TLR t + 0x2000 + 0x100 * k
      let word := fun a => leBytes 4 (s.reg a).toNat
      s.done q (leBytes 4 t ++ word b ++ word (b + 4) ++ word (b + 8) ++ leBytes 4 (s.slotStatus t k)
        ++ (List.range 8).flatMap fun i => let a := b + 0x10 + 0x10 * i
          word a ++ word (a + 4) ++ word (a + 8) ++ leBytes 4 (s.classFill t k i)))

def execMeterSet (q : Req) (s : State) : Res :=
  .next (s.command q 0x0354 fun c s =>
    let x := c.u8 8
    let qs := if x = 0xFF then (List.range 4).filter fun i => s.domOn (domQuad i) else if x < 4 && s.domOn (domQuad x) then [x] else []
    let w := leNat (c.bytes 16 16)
    if qs = [] || 2 ^ 18 ≤ c.u32 12 || bitsOf w 63 62 = 3 then s.finish q St.BAD_ARGUMENT
    else if c.u32 12 < 65536 then s.finish q St.REFUSED
    else (qs.foldl (fun s i => s.writeMeter i (c.u32 12) w) s).done q [])

def execMeterRead (q : Req) (s : State) : Res :=
  .next (s.command q 0x0355 fun c s =>
    let x := c.u8 8
    if 4 ≤ x || !s.domOn (domQuad x) || 2 ^ 18 ≤ c.u32 12 then s.finish q St.BAD_ARGUMENT
    else if c.u32 12 < 65536 then s.finish q St.REFUSED
    else s.done q (leBytes 32 (s.meter x (c.u32 12))))

end Sys2Proof.Machine
end

