-- ==== Sys2Proof/Machine/Crypto.lean ====
section
/-! DEFINITION. Plot-side inline crypto: the SA store, ESP on transmit and receive, SA access (R288, R294, R410 to R412,
Table 17.8). -/
namespace Sys2Proof.Machine

/-! ### SA entries (Table 17.8) -/

def Sa.valid (e : Nat) : Bool := bitOf e 255
def Sa.rx (e : Nat) : Bool := bitOf e 254
def Sa.esn (e : Nat) : Bool := bitOf e 253
def Sa.keyed (e : Nat) : Bool := bitOf e 252
def Sa.win (e : Nat) : Nat := 2 ^ (bitsOf e 251 248 + 5)
def Sa.plot (e : Nat) : Nat := bitsOf e 240 232
def Sa.spi (e : Nat) : Nat := bitsOf e 223 192
def Sa.seq (e : Nat) : Nat := bitsOf e 191 128

def State.espSa (s : State) (i : Nat) : Nat := tget (fun _ => 0) s.icr.sas i
def State.onIcr (s : State) (f : IcrSt → IcrSt) : State := { s with icr := f s.icr }
def State.setEspSa (s : State) (i v : Nat) : State := s.onIcr fun c => { c with sas := tput (fun _ => 0) c.sas i v }
def State.espKey (s : State) (i : Nat) : List Byte := tget (fun _ => []) s.icr.keys i

/-- An SA's key is loaded, or erased with its window. -/
def State.setEspKey (s : State) (i : Nat) (k : List Byte) : State :=
  let s := s.onIcr fun c => { c with keys := tput (fun _ => []) c.keys i k, seen := tput (fun _ => []) c.seen i [] }
  s.setEspSa i (setBits (s.espSa i) 252 252 (bit (k ≠ [])))

/-- A field of an SA that counts and saturates. -/
def State.bumpSa (s : State) (i hi lo : Nat) : State :=
  let e := s.espSa i
  s.setEspSa i (setBits e hi lo (sat (2 ^ (hi + 1 - lo) - 1) (bitsOf e hi lo + 1)))

/-! ### ESP (R288, R294, R410, R411) -/

/-- Sequence numbers left under an SA: 0 where it is exhausted. SEQ 0 follows 2^64 - 1. -/
def seqLeft (e : Nat) : Nat :=
  if Sa.seq e = 0 then 0 else (if Sa.esn e then 2 ^ 64 else 2 ^ 32) - Sa.seq e

/-- 2^24 sequence numbers remain, or 2^32 with ESN (R410). -/
def seqLow (e : Nat) : Bool := decide (seqLeft e ≤ (if Sa.esn e then 2 ^ 32 else 2 ^ 24))

def espAad (e : Nat) (spi : List Byte) (seq : Nat) : List Byte :=
  if Sa.esn e then spi ++ beBytes 8 seq else spi ++ beBytes 4 (seq % 2 ^ 32)

/-- The IP header at an offset with its length changed by n bytes, and its checksum set (R288 step 4). -/
def growIp (l : List Byte) (o n : Nat) : List Byte :=
  if (l.getD o 0).toNat / 16 = 6 then overwrite l (o + 4) (beBytes 2 (u16At l (o + 4) + n))
  else fixIpv4 (overwrite l (o + 2) (beBytes 2 (u16At l (o + 2) + n))) o

/-- Transmit encryption of one frame: none where the SA refuses it (SA_ERR). -/
def State.espTx (s : State) (plot i ol3 ol4 : Nat) (l : List Byte) : Option (List Byte) × State :=
  let e := s.espSa i
  if !Sa.valid e || !Sa.keyed e || Sa.rx e || Sa.plot e ≠ plot then (none, s)
  else if seqLeft e = 0 then (none, s.count (B.ICR + C.ICR_SEQ_EXHAUSTED))
  else
    let seq := Sa.seq e
    let k := s.espKey i
    let l := overwrite (overwrite l (ol4 + 4) (beBytes 4 (seq % 2 ^ 32))) (ol4 + 8) (beBytes 8 seq)
    let body := Config.gcmSeal (k.take 32) (k.drop 32 ++ beBytes 8 seq) (espAad e ((l.drop ol4).take 4) seq) (l.drop (ol4 + 16))
    let s := (s.setEspSa i (setBits (setBits e 191 128 ((seq + 1) % 2 ^ 64)) 63 0 (bitsOf e 63 0 + 1))).count (B.ICR + C.ICR_ESP_TX)
    let s := if seqLow (s.espSa i) && !seqLow e then s.raise 27 0 i else s
    (some (growIp (l.take (ol4 + 16) ++ body) ol3 16), s)

/-- The receive SA of a plot with an SPI, among the SAs in use. -/
def State.rxSa (s : State) (plot spi : Nat) : Option Nat :=
  (s.icr.sas.find? fun e => Sa.valid e.2 && Sa.rx e.2 && Sa.plot e.2 = plot && Sa.spi e.2 = spi).map (·.1)

/-- The full sequence number that 32 received bits stand for (RFC 4303, Appendix A). -/
def espSeq (e low : Nat) : Nat :=
  if !Sa.esn e then low
  else
    let top := Sa.seq e
    let th := top / 2 ^ 32
    let w := Sa.win e
    if w ≤ top % 2 ^ 32 + 1 then (if top % 2 ^ 32 + 1 - w ≤ low then th else th + 1) * 2 ^ 32 + low
    else (if top % 2 ^ 32 + 1 + 2 ^ 32 - w ≤ low then th - 1 else th) * 2 ^ 32 + low

/-- A sequence number outside the window, or seen before (R411 step 1). -/
def State.replayed (s : State) (i seq : Nat) : Bool :=
  let e := s.espSa i
  seq = 0 || seq + Sa.win e ≤ Sa.seq e || (tget (fun _ => []) s.icr.seen i).contains seq

inductive EspEnd where
  | pass | drop
  | clear (data : List Byte) (sa : Nat)
  deriving DecidableEq, Repr

/-- Receive decryption of a packet for a plot: passed on, dropped, or in clear (R294, R411). -/
def State.espRx (s : State) (plot carry : Nat) (l : List Byte) : EspEnd × State :=
  let h := Carry.hcount carry
  if h = 0 || Carry.htype carry (h - 1) ≠ 18 then (.pass, s)
  else
    let o := Carry.hoff carry (h - 1)
    match (if s.domOn 76 then s.rxSa plot (beNat ((l.drop o).take 4)) else none) with
    | none => (.pass, if s.domOn 76 then s.count (B.ICR + C.ICR_NO_SA_PASS) else s)
    | some i =>
      let e := s.espSa i
      let k := s.espKey i
      let seq := espSeq e (beNat ((l.drop (o + 4)).take 4))
      if s.replayed i seq then (.drop, (s.bumpSa i 95 64).count (B.ICR + C.ICR_REPLAY_DROP))
      else match (if Sa.keyed e then Config.gcmOpen (k.take 32) (k.drop 32 ++ (l.drop (o + 8)).take 8)
          (espAad e ((l.drop o).take 4) seq) (l.drop (o + 16)) else none) with
        | none => (.drop, (s.bumpSa i 127 96).count (B.ICR + C.ICR_AUTH_FAIL))
        | some clear =>
          let top := max (Sa.seq e) seq
          let s := s.setEspSa i (setBits (setBits e 191 128 top) 63 0 (bitsOf e 63 0 + 1))
          let now := (seq :: tget (fun _ => []) s.icr.seen i).filter fun n => decide (top < n + Sa.win e)
          let s := s.onIcr fun c => { c with seen := tput (fun _ => []) c.seen i now }
          (.clear (l.take (o + 16) ++ clear) i, s.count (B.ICR + C.ICR_ESP_RX))

/-! ### SA access (Table 17.8, R143) -/

/-- A WRITE: bits 255 to 128 except KEYED; VALID 0 also erases the key. A transmit SA that is left with few sequence numbers raises
the Note fault (R410). -/
def State.writeSa (s : State) (i v : Nat) : State :=
  let low := fun (e : Nat) => Sa.valid e && !Sa.rx e && seqLow e
  let s := if low v && !low (s.espSa i) then s.raise 27 0 i else s
  let e := setBits (bitsOf v 255 128 * 2 ^ 128) 252 252 (bit (Sa.keyed (s.espSa i)))
  let s := s.setEspSa i (setBits (setBits e 247 241 0) 231 224 0)
  if bitOf v 255 then s else s.setEspKey i []

def execIcrSaWrite (s : State) : Res :=
  if !s.domOn 76 then .next (s.answer .busError)
  else .next ((s.writeSa (s.rd B.ICR R.ICR_SA_ADDR_INDEX) (s.dataRegs (B.ICR + R.ICR_SA_DATA_DATA.off) 8)).answer .ok)

def execIcrSaRead (s : State) : Res :=
  if !s.domOn 76 then .next (s.answer .busError)
  else .next ((s.setDataRegs (B.ICR + R.ICR_SA_DATA_DATA.off) 8 (s.espSa (s.rd B.ICR R.ICR_SA_ADDR_INDEX))).answer .ok)

end Sys2Proof.Machine
end

