-- ==== Sys2Proof/Machine/Rings.lean ====
section
/-! DEFINITION. Channel rings: doorbell writes, transmit chains and their offloads, receive delivery (chapter 12, R28, R243,
R263). -/
namespace Sys2Proof.Machine

/-! ### Doorbells (R278, R279) -/

/-- A doorbell write, where the access is granted. -/
def State.bellWrite (s : State) (r : RingId) (k : Nat) (v : DWord) : State :=
  match r with
  | .core _ =>
    if [69, 70, 71, 72].any s.domOn then (s.doorbellRing (ringKeyOf r) k v.toNat).answer .ok else s
  | .plot p _ =>
    match s.fnOfPlot p with
    | none => s
    | some (m, f) =>
      if !s.linkUp m then s
      else if !s.answers m f || s.plotState p = 0 || s.plotState p = 3 || s.isStorage p then s.refuseHost m
      else ((s.catchUp (.host (Fin.ofNat 16 m) f)).doorbellRing (ringKeyOf r) k v.toNat).answer .ok

def execTxDb (r : RingId) (v : DWord) (s : State) : Res := .next (s.bellWrite r 0 v)
def execRxDb (r : RingId) (v : DWord) (s : State) : Res := .next (s.bellWrite r 1 v)
def execTxcDb (r : RingId) (v : DWord) (s : State) : Res := .next (s.bellWrite r 2 v)
def execRxcDb (r : RingId) (v : DWord) (s : State) : Res := .next (s.bellWrite r 3 v)

/-! ### Transmit descriptors (Table 12.2, R284) -/

def Desc.addr (d : Nat) : Nat := bitsOf d 63 0
def Desc.launch (d : Nat) : Nat := bitsOf d 127 64
def Desc.len (d : Nat) : Nat := bitsOf d 144 128
def Desc.eop (d : Nat) : Bool := bitOf d 145
def Desc.ltEn (d : Nat) : Bool := bitOf d 146
def Desc.tsReq (d : Nat) : Bool := bitOf d 147
def Desc.csumL3 (d : Nat) : Bool := bitOf d 148
def Desc.csumL4 (d : Nat) : Bool := bitOf d 149
def Desc.tso (d : Nat) : Bool := bitOf d 150
def Desc.encap (d : Nat) : Bool := bitOf d 151
def Desc.crypto (d : Nat) : Bool := bitOf d 152
def Desc.l3 (d : Nat) : Nat := bitsOf d 167 160
def Desc.l4 (d : Nat) : Nat := bitsOf d 175 168
def Desc.ol3 (d : Nat) : Nat := bitsOf d 183 176
def Desc.ol4 (d : Nat) : Nat := bitsOf d 191 184
def Desc.mss (d : Nat) : Nat := bitsOf d 205 192
def Desc.l4Type (d : Nat) : Nat := bitsOf d 207 206
def Desc.sa (d : Nat) : Nat := bitsOf d 239 224

/-- The descriptors of bytes as fetched. -/
def descsOf : Nat → List Byte → List Nat
  | 0, _ => []
  | n + 1, l => if l.length < 32 then [] else leNat (l.take 32) :: descsOf n (l.drop 32)

/-- The chain at the front of a descriptor list, and whether it ends with EOP. -/
def chainOf : Nat → List Nat → List Nat × Bool
  | 0, _ => ([], false)
  | _ + 1, [] => ([], false)
  | n + 1, d :: ds => if Desc.eop d then ([d], true) else (d :: (chainOf n ds).1, (chainOf n ds).2)

def chainBytes (ds : List Nat) : Nat := (ds.map Desc.len).sum

/-- Offsets that the enabled offloads use. -/
def usedOffsets (d : Nat) : List Nat :=
  (if Desc.csumL3 d || Desc.tso d then [Desc.l3 d] ++ (if Desc.encap d then [Desc.ol3 d] else []) else [])
    ++ (if Desc.csumL4 d || Desc.tso d then [Desc.l3 d, Desc.l4 d] else [])
    ++ (if Desc.encap d && Desc.ol4 d ≠ 0 then [Desc.ol3 d, Desc.ol4 d] else [])
    ++ (if Desc.crypto d then [Desc.ol3 d, Desc.ol4 d] else [])

/-- The checks of R284 that the descriptors alone decide. -/
def descErr (ds : List Nat) : Bool :=
  let d := ds.headD 0
  let t := chainBytes ds
  ds.any (fun d => Desc.len d = 0 || 65536 < Desc.len d) || t < 14
    || (if Desc.tso d then decide (262144 < t) else decide (10236 < t))
    || (usedOffsets d).any (fun o => decide (t ≤ o))
    || ((Desc.csumL4 d || Desc.tso d) && Desc.l4Type d = 2) || Desc.l4Type d = 3
    || (Desc.crypto d && Desc.encap d) || (Desc.tso d && (Desc.crypto d || Desc.ltEn d))
    || (Desc.tso d && Desc.mss d < 64)

/-! ### Offloads (R285 to R288) -/

def isV6 (l : List Byte) (o : Nat) : Bool := (l.getD o 0).toNat / 16 = 6
def isV4 (l : List Byte) (o : Nat) : Bool := (l.getD o 0).toNat / 16 = 4

/-- The bytes of the L4 datagram at l4, as the length of the IP header at l3 gives them. -/
def l4Len (l : List Byte) (l3 l4 : Nat) : Nat :=
  (if isV6 l l3 then u16At l (l3 + 4) + 40 else u16At l (l3 + 2)) - (l4 - l3)

/-- The pseudo-header of the IP header at l3. -/
def pseudo (l : List Byte) (l3 len proto : Nat) : List Byte :=
  if isV6 l l3 then pseudo6 l l3 len proto
  else (l.drop (l3 + 12)).take 8 ++ beBytes 2 proto ++ beBytes 2 len

/-- An L4 checksum set: TCP (type 0) or UDP (type 1). -/
def setL4 (l : List Byte) (l3 l4 type : Nat) : List Byte :=
  let at_ := l4 + (if type = 0 then 16 else 6)
  let n := l4Len l l3 l4
  let l := overwrite l at_ [0, 0]
  let c := checksum (pseudo l l3 n (if type = 0 then 6 else 17) ++ (l.drop l4).take n)
  overwrite l at_ (beBytes 2 (if type = 1 && c = 0 then 0xFFFF else c))

/-- The outer UDP checksum (R286). -/
def setOuter (d : Nat) (l : List Byte) : List Byte :=
  if Desc.encap d && Desc.ol4 d ≠ 0 then
    if isV6 l (Desc.ol3 d) then setL4 l (Desc.ol3 d) (Desc.ol4 d) 1 else overwrite l (Desc.ol4 d + 6) [0, 0]
  else l

def fixIfV4 (l : List Byte) (o : Nat) : List Byte := if isV4 l o then fixIpv4 l o else l

/-- Checksum offload of one frame (R286): the outer UDP checksum last, since it covers the others. -/
def csumOffload (d : Nat) (l : List Byte) : List Byte :=
  let l := if Desc.csumL4 d then setL4 l (Desc.l3 d) (Desc.l4 d) (Desc.l4Type d) else l
  let l := if Desc.csumL3 d then fixIfV4 l (Desc.l3 d) else l
  let l := if Desc.csumL3 d && Desc.encap d then fixIfV4 l (Desc.ol3 d) else l
  setOuter d l

/-- Bytes of the headers of a TSO chain, up to the end of the L4 header. -/
def tsoHdr (d : Nat) (l : List Byte) : Nat :=
  Desc.l4 d + (if Desc.l4Type d = 0 then 4 * ((l.getD (Desc.l4 d + 12) 0).toNat / 16) else 8)

/-- The checks of R284 that need the headers. -/
def tsoErr (ds : List Nat) (l : List Byte) : Bool :=
  let d := ds.headD 0
  let h := tsoHdr d l
  192 < h || Desc.len d < h || 10240 < h + Desc.mss d + 4

/-- An IP header of segment k: lengths and identification (R287). -/
def tsoIp (l : List Byte) (o k : Nat) : List Byte :=
  if isV6 l o then overwrite l (o + 4) (beBytes 2 (l.length - o - 40))
  else overwrite (overwrite l (o + 2) (beBytes 2 (l.length - o))) (o + 4) (beBytes 2 (u16At l (o + 4) + k))

/-- Segment k of a TSO chain, with `off` payload bytes before it (R287). -/
def tsoSegment (d : Nat) (hdr pay : List Byte) (k off : Nat) (last : Bool) : List Byte :=
  let l := tsoIp (hdr ++ pay) (Desc.l3 d) k
  let l := if Desc.encap d then tsoIp l (Desc.ol3 d) k else l
  let l := if Desc.encap d && Desc.ol4 d ≠ 0 then overwrite l (Desc.ol4 d + 4) (beBytes 2 (l.length - Desc.ol4 d)) else l
  let o := Desc.l4 d
  let l :=
    if Desc.l4Type d = 0 then
      let l := overwrite l (o + 4) (beBytes 4 ((beNat ((l.drop (o + 4)).take 4) + off) % 2 ^ 32))
      let f := (l.getD (o + 13) 0).toNat
      let f := if last then f else setBits (setBits f 0 0 0) 3 3 0
      overwrite l (o + 13) [BitVec.ofNat 8 (if k = 0 then f else setBits f 7 7 0)]
    else overwrite l (o + 4) (beBytes 2 (l.length - o))
  let l := setL4 l (Desc.l3 d) o (Desc.l4Type d)
  let l := fixIfV4 l (Desc.l3 d)
  setOuter d (if Desc.encap d then fixIfV4 l (Desc.ol3 d) else l)

/-- The segments whose payload has been fetched: whole ones only, and the last one where the fetch ended well. -/
def tsoCut (d : Nat) (hdr : List Byte) (total : Nat) : Nat → List Byte → Nat → Nat → List (List Byte)
  | 0, _, _, _ => []
  | fuel + 1, pay, k, off =>
    let n := min (Desc.mss d) (total - off)
    if n = 0 || pay.length < n then []
    else tsoSegment d hdr (pay.take n) k off (off + n = total) :: tsoCut d hdr total fuel (pay.drop n) (k + 1) (off + n)

/-! ### Transmit (R213, R243, R281, R284 to R290, R296) -/

/-- Bytes that R243 charges for a chain: every frame with its FCS and OVERHEAD. -/
def chargeOf (frames : List (List Byte)) (ov : Int) : Int :=
  (frames.map fun l => ((max 60 l.length + 4 : Nat) : Int) + ov).sum

/-- The transmit credit of a plot charged (R243); OVERHEAD is that of slot 8 of the tailrace of its binding. -/
def State.chargeTx (s : State) (r : Nat) (frames : List (List Byte)) : State :=
  if isCoreRing r || !s.txArmed.contains (r / 64) then s
  else
    let c : Int := tget (fun _ => 0) s.txCredit (r / 64) - 1024 * chargeOf frames (s.overhead (s.qp r).bind 8)
    { s with txCredit := tput (fun _ => 0) s.txCredit (r / 64) c }

/-- Headrace that a ring feeds (R95, R276). -/
def State.txHeadrace (s : State) (r : Nat) : Nat := if s.mode = .trickle then 0 else (s.qp r).bind

/-- The origin that packets of a ring carry. -/
def State.originOf (s : State) (r : Nat) : Origin :=
  if isCoreRing r then .core (r - 2 ^ 20) else .plot (r / 64) (r % 64) (s.plotGen (r / 64))

/-- The host port may fetch a chain of a ring: fetch is not held, there is work, credit, a completion slot and, on the
ring, no chain whose payload is awaited (assumption 20). -/
def State.mayFetch (s : State) (r : Nat) : Bool :=
  let x := s.qp r
  x.live && x.err = 0 && s.forwarding && !s.ringHeld r && x.txProd ≠ x.txCons
    && decide ((x.txc.prod + x.chains.length + 2 ^ 32 - x.txc.cons) % 2 ^ 32 < 2 ^ x.txLog)
    && x.chains.all (fun c => c.pend.isNone) && !(s.stage (s.txHeadrace r)).fetchHeld && s.domOn (domHR (s.txHeadrace r)) &&
    match s.ringFn r with
    | none => isCoreRing r
    | some (m, f) => s.linkUp m && (s.fn m f).ready && (s.fn m f).flrAt.isNone
        && !(s.pairSt (1024 + 8 * m + x.cls)).xoff && decide ((0 : Int) ≤ tget (fun _ => 0) s.txCredit (r / 64))

/-- Plots of link m with work and credit: those with a ring that may be fetched. -/
def State.fetchers (s : State) (m : Nat) : List Nat :=
  ((s.qps.filter fun e => decide (e.1 < 2 ^ 20) && (s.ringFn e.1).any (·.1 = m) && s.mayFetch e.1).map fun e => e.1 / 64).eraseDups

/-- The next plot of a rotation after `c` - 1. -/
def nextFrom (c : Nat) (l : List Nat) : Nat :=
  ((l.filter (c ≤ ·)).min?).getD (l.min?.getD 0)

/-- A plot has no descriptor to fetch. -/
def State.txEmpty (s : State) (p : Nat) : Bool :=
  s.qps.all fun e => !(decide (e.1 < 2 ^ 20) && e.1 / 64 = p) || e.2.txProd = e.2.txCons

/-- R243: deficit round robin among the plots of a link with work and credit, with quantum WEIGHT × 256 B: whether plot p may
fetch its chain of n bytes now. A visit ends where a chain is longer than the deficit; the next plot with work then gets its
quantum. A chain's length here is its bytes (DESIGN CHOICE, assumption 94). -/
def State.fetchTurn (s : State) (m p n : Nat) : State × Bool :=
  let l := s.link m
  let who := s.fetchers m
  let d := l.deficit.filter fun e => !s.txEmpty e.1
  let have_ : Nat := tget (fun _ => 0) d p
  let spend := fun (k : Nat) (v : Nat) => (s.setLink m { l with visit := v, deficit := tput (fun _ => 0) d p k }, true)
  if l.visit ≠ 0 && l.visit ≠ p + 1 && who.contains (l.visit - 1) then (s, false)
  else if l.visit = p + 1 && n ≤ have_ then spend (have_ - n) l.visit
  else
    let c := nextFrom l.visit who
    let q := 256 * s.rd (B.PLOT c) R.PLOT_TX_SCHED_WEIGHT
    let y : Nat := tget (fun _ => 0) d c + q
    if c = p && n ≤ y then spend (y - n) (c + 1)
    else if who = [p] then spend (have_ + (n - have_ + q - 1) / max 1 q * q - n) (c + 1)
    else (s.setLink m { l with visit := c + 1, deficit := tput (fun _ => 0) d c y }, false)

/-- Packets of a chain handed to the headrace, in order. -/
def State.handOver (s : State) (r : Nat) (c : Chain) (frames : List (List Byte)) : State :=
  let d := c.desc.headD 0
  (frames.zipIdx).foldl (fun s f =>
    let (x, s) := s.draw
    let k : Pkt := { data := fit (max 60 f.1.length) f.1, org := s.originOf r, time := s.timeWord, frac := x % 65536, cls := (s.qp r).cls,
                     chain := c.seq, first := f.2 = 0, tsReq := Desc.tsReq d,
                     launch := if Desc.ltEn d then some (Desc.launch d) else none }
    s.stagePkt (s.txHeadrace r) k true) s

def State.setChain (s : State) (r : Nat) (c : Chain) : State :=
  s.onQp r fun x => { x with chains := x.chains.map fun y => if y.seq = c.seq then c else y }

/-- The descriptors of a chain are consumed (R280). -/
def State.consumeTx (s : State) (r : Nat) (c : Chain) : State :=
  s.onQp r fun x => { x with txCons := (x.txCons + c.posts) % 2 ^ 32 }

/-- A chain ends with a status and sends nothing (more). -/
def State.failChain (s : State) (r : Nat) (c : Chain) (status len : Nat) : State :=
  (s.setChain r { c with status := status, len := len, pend := none, ended := true, tsReq := false, time := s.timeWord }).consumeTx r c

/-- The payload of a chain has come, whole or in part (R285 to R288, R296). -/
def State.finishChain (s : State) (r : Nat) (c : Chain) (got : List Byte) (e : DmaEnd) : State :=
  let d := c.desc.headD 0
  let total := chainBytes c.desc
  let got := if e = .ok then fit total got else got.take total
  if Desc.tso d then
    if e = .ok && tsoErr c.desc got then s.failChain r c 1 0
    else
      let h := tsoHdr d got
      let frames := if tsoErr c.desc got then []
        else tsoCut d (got.take h) (total - h) (total - h + 1) (got.drop h) 0 0
      let s := s.chargeTx r frames
      let c := { c with toTake := frames.length, pend := none, len := got.length,
                        status := if e = .ok then 0 else 3, ended := e ≠ .ok }
      let c := if e = .ok then c else { c with tsReq := false, time := s.timeWord }
      (((s.setChain r c).consumeTx r c).handOver r c frames)
  else if e ≠ .ok then s.failChain r c 3 got.length
  else
    let l := csumOffload d got
    match (if Desc.crypto d then s.espTx (r / 64) c.sa (Desc.ol3 d) (Desc.ol4 d) l else (some l, s)) with
    | (none, s) => s.failChain r c 6 got.length
    | (some l, s) =>
      let s := s.chargeTx r [l]
      let c := { c with toTake := 1, pend := none, len := got.length }
      (((s.setChain r c).consumeTx r c).handOver r c [l])

/-- The buffers of a chain all pass R261. -/
def State.chainRange (s : State) (r : Nat) (ds : List Nat) : Bool := ds.all fun d => s.ringRange r (Desc.addr d) (Desc.len d) false

/-- The status of a chain that is not fetched: checks in the order of Table 12.5's rules (assumption 20). -/
def State.chainCheck (s : State) (r : Nat) (ds : List Nat) (eop : Bool) : Nat :=
  let d := ds.headD 0
  let e := s.espSa (Desc.sa d)
  if !eop || descErr ds then 1
  else if Desc.crypto d && s.mode = .trickle then 5
  else if Desc.crypto d && (isCoreRing r || !s.domOn 76 || !Sa.valid e || !Sa.keyed e || Sa.rx e || Sa.plot e ≠ r / 64) then 6
  else if !s.chainRange r ds then 2
  else 0

/-- Requests that the payload of a chain takes; where they are more than may be outstanding they are issued as others end. -/
def State.chainReqs (s : State) (m : Nat) (ds : List Nat) : Nat :=
  min (s.reqLimit m) (ds.map fun d => s.reqsOf m (Desc.addr d) (Desc.len d)).sum

/-- A chain has been read from the ring: refused, fetched, or its payload awaited. -/
def State.startChain (s : State) (r : Nat) (ds : List Nat) (eop : Bool) (pay : Option (List Byte × DmaEnd)) : State :=
  let x := s.qp r
  let d := ds.headD 0
  let c : Chain := { seq := x.nextSeq, index := (x.txCons + ds.length - 1) % 2 ^ x.txLog, posts := ds.length, len := 0, status := 0,
                     toTake := 0, tsReq := Desc.tsReq d, ended := false, time := s.timeWord, frac := 0, tsValid := false,
                     sa := if Desc.crypto d then Desc.sa d else 0, desc := ds, pend := none }
  let s' := s.onQp r fun x => { x with chains := x.chains ++ [c], nextSeq := x.nextSeq + 1 }
  let st := s.chainCheck r ds eop
  if st ≠ 0 then (if st = 2 then s'.rangeErr r else s').failChain r c st 0
  else if isCoreRing r then
    let data := ds.flatMap fun d => match s.coreMemory 0 (Desc.addr d) (Desc.len d) with
      | some (k, _) => bytesAt s.mem k (Desc.len d)
      | none => []
    s'.finishChain r c data .ok
  else match s.ringFn r with
    | none => s'
    | some (m, f) =>
      let s' := ds.foldl (fun s d => s.issueRead m f (Desc.addr d) (Desc.len d)) s'
      match pay with
      | some (got, e) => (s'.logRing r e).finishChain r c got e
      | none =>
        let l := s'.link m
        let tag := s'.freeTag m
        let x : DevRead := ⟨tag, f, r, c.seq, s'.chainReqs m ds, s'.now⟩
        let s' := s'.setLink m { l with outstanding := l.outstanding ++ [x], nextTag := tag + 1 }
        s'.setChain r { c with pend := some tag }

/-- The descriptors that a fetch answers: at most 32, between the consumer count and PROD (R280). -/
def State.ringDescs (s : State) (r : Nat) (descs : List Byte) : List Nat :=
  let x := s.qp r
  let n := min 32 ((x.txProd + 2 ^ 32 - x.txCons) % 2 ^ 32)
  if isCoreRing r then
    (List.range n).map fun i =>
      match s.coreMemory 0 (x.txBase + 32 * ((x.txCons + i) % 2 ^ x.txLog)) 32 with
      | some (k, _) => leNat (bytesAt s.mem k 32)
      | none => 0
  else descsOf n descs

/-- The link of a ring has room for the requests of a chain's payload (R260). -/
def State.reqRoom (s : State) (r : Nat) (ds : List Nat) : Bool :=
  match s.ringFn r with
  | none => true
  | some (m, _) => decide (s.reqsOut m + s.chainReqs m ds ≤ s.reqLimit m)

/-- The reads of the descriptors of a ring from its consumer count on. -/
def State.readDescs (s : State) (r base cons size n : Nat) (log : Nat) : State :=
  match s.ringFn r with
  | none => s
  | some (m, f) =>
    let i := cons % 2 ^ log
    let k := min n (2 ^ log - i)
    (s.issueRead m f (base + size * i) (size * k)).issueRead m f base (size * (n - k))

/-- Chains with TS_REQ that await completion (R290). -/
def Qp.tsWaiting (x : Qp) : Nat := (x.chains.filter (·.tsReq)).length

/-- R284: a chain is fetched. `descs` is what the descriptor read answered; `pay` how the payload read ended, or none
while it is outstanding. -/
def execTxChainFetch (r : RingId) (descs : Fetch) (pay : Option (List Byte × DmaEnd)) (s : State) : Res :=
  let k := ringKeyOf r
  let x := s.qp k
  if !s.mayFetch k then .next s
  else if !s.ringRange k x.txBase (32 * 2 ^ x.txLog) false then .next ((s.rangeErr k).ringError k 2)
  else
    let s' := s.readDescs k x.txBase x.txCons 32 (min 32 ((x.txProd + 2 ^ 32 - x.txCons) % 2 ^ 32)) x.txLog
    match descs with
    | .ur | .window => .next (s'.ringError k 3)
    | .timeout => .next ((s'.logRing k .timeout).ringError k 3)
    | .poisoned => .next ((s'.logRing k .poisoned).ringError k 3)
    | .ok l =>
      let (ds, eop) := chainOf 32 (s.ringDescs k l)
      if ds = [] || (!eop && ds.length < 32) || !s.reqRoom k ds then .next s
      else if Desc.tsReq (ds.headD 0) && decide (16 ≤ x.tsWaiting) then .next s
      else match s.ringFn k with
        | none => .next (s'.startChain k ds eop pay)
        | some (m, _) =>
          match s'.fetchTurn m (k / 64) (chainBytes ds) with
          | (u, true) => .next (u.startChain k ds eop pay)
          | (u, false) => .next u

/-- A pair stands still for good where nothing of it is outstanding: the PLOT_PAUSE and window jobs end there. In
Plots.lean's terms: no chain's payload is awaited, no chain waits, no packet is on its way to the ring. -/
def State.plotQuiet (s : State) (p : Nat) : Bool :=
  s.qps.all (fun e => !(e.1 < 2 ^ 20 && e.1 / 64 = p) || e.2.err ≠ 0 || e.2.chains = [])
    && (s.egr.all fun e => e.2.deliver.all fun k => !(k.slot = 8 && bitsOf k.dest 11 0 = p))
    && (s.silo.reads.all fun r => r.src.1 ≠ p)
    && s.silo.writes.all fun w => match w.src with
      | some (p', _) => p' ≠ p
      | none => true

/-- No request checked against a plot's windows is outstanding (R304). -/
def State.readsDone (s : State) (p : Nat) : Bool :=
  match s.fnOfPlot p with
  | some (m, f) => (s.link m).outstanding.all fun x => x.fn ≠ f
  | none => true

/-- PLOT_WINDOW_SET and PLOT_PAUSE end when what they wait for is over (R304, R318). -/
def State.endPlotJobs (s : State) (p : Nat) : State :=
  let s := if s.readsDone p then s.endJobs 0x0202 p (Final.mk' St.DONE 0 []) else s
  if s.plotQuiet p then s.endJobs 0x020C p (Final.mk' St.DONE 0 []) else s

def State.endRingJobs (s : State) (r : Nat) : State := if isCoreRing r then s else s.endPlotJobs (r / 64)

/-- R290: the completion of the oldest chain is written, once it may be. -/
def execTxCompletion (r : RingId) (s : State) : Res :=
  let k := ringKeyOf r
  let x := s.qp k
  match x.chains with
  | [] => .next s
  | c :: cs =>
    let held := match s.ringFn k with
      | some (m, f) => !(s.fn m f).bme || !s.linkUp m
      | none => false
    if !x.live || x.err ≠ 0 || held || c.pend.isSome || c.toTake ≠ 0 || (c.tsReq && !c.ended) then .next s
    else
      let s := s.onQp k fun x => { x with chains := cs }
      let s := s.writeCpl k false { time := c.time, frac := c.frac, index := c.index, len := c.len, hash := 0, csum := 0, sa := c.sa,
                                    status := c.status, posts := c.posts, flags := bit c.tsValid * 2 ^ 11, cls := x.cls }
      .next (s.endRingJobs k)

/-! ### Receive (R28, R292 to R294) -/

/-- The checks that a receive completion reports (R293): flags, without CRYPTO. -/
def rxFlags (carry : Nat) (l : List Byte) : Nat :=
  let n := min 16 (Carry.hcount carry)
  let e := Carry.endCode carry
  let types := (List.range n).map (Carry.htype carry)
  let v4 := types.contains 4
  let frag := types.contains 8 || (List.range n).any fun i =>
    Carry.htype carry i = 4 && u16At l (Carry.hoff carry i + 6) % 2 ^ 14 ≠ 0
  let l4 := (List.range n).reverse.find? fun i => Carry.htype carry i = 10 || Carry.htype carry i = 11
  let (ok, bad, inner) := match l4 with
    | none => (false, false, false)
    | some i =>
      match ipBefore carry i with
      | none => (false, false, false)
      | some (j, v6) =>
        let o := Carry.hoff carry i
        let l3 := Carry.hoff carry j
        let len := l4Len l l3 o
        if e ≠ 0 || frag || l.length < o + len then (false, false, false)
        else
          let proto := if Carry.htype carry i = 10 then 6 else 17
          let good := (proto = 17 && !v6 && u16At l (o + 6) = 0)
            || onesSum (pseudo l l3 len proto ++ (l.drop o).take len) = 0xFFFF
          (good, !good, Carry.inner carry ≠ 0 && decide (Carry.inner carry ≤ i))
  e * 2 ^ 12 + bit (v4 && e ≠ 5) * 2 ^ 10 + bit (e = 5) * 2 ^ 9 + bit ok * 2 ^ 8 + bit bad * 2 ^ 7 + bit inner * 2 ^ 6
    + bit frag * 2 ^ 4

/-- The posts of bytes as fetched: address and length. -/
def postsOf : Nat → List Byte → List (Nat × Nat)
  | 0, _ => []
  | n + 1, l => if l.length < 16 then []
    else (leNat (l.take 8), bitsOf (leNat ((l.drop 8).take 4)) 16 0) :: postsOf n (l.drop 16)

/-- The status of a post: 0 good, POST_ERR or POST_WINDOW_ERR (R292). -/
def State.postStatus (s : State) (r : Nat) (x : Nat × Nat) : Nat :=
  if x.2 < 64 || 65536 < x.2 then 0x10 else if !s.ringRange r x.1 x.2 true then 0x11 else 0

/-- The posts that a packet of n bytes takes, bad ones among them; none where they do not suffice. -/
def State.takePosts (s : State) (r : Nat) : List (Nat × Nat) → Nat → List (Nat × Nat × Nat) → Option (List (Nat × Nat × Nat))
  | _, 0, acc => some acc
  | [], _ + 1, _ => none
  | p :: ps, n + 1, acc =>
    let st := s.postStatus r p
    if st = 0 then s.takePosts r ps (n + 1 - p.2) (acc ++ [(p.1, p.2, 0)]) else s.takePosts r ps (n + 1) (acc ++ [(p.1, p.2, st)])

/-- A post is consumed. -/
def State.consumeRx (s : State) (r : Nat) : State := s.onQp r fun x => { x with rxCons := (x.rxCons + 1) % 2 ^ 32 }

/-- A bad post completes with its status. Nothing is written to it, so that CSUM is the sum of no bytes and no check is reported;
TIME, HASH, END and CLASS are those of the packet that met it (DEDUCED, assumption 20). -/
def State.badPost (s : State) (r : Nat) (p : EPkt) (st : Nat) : State :=
  let x := s.qp r
  let s := if st = 0x11 then s.rangeErr r else s
  (s.consumeRx r).writeCpl r true { time := p.pkt.time, frac := p.pkt.frac, index := x.rxCons % 2 ^ x.rxLog, len := 0,
                                    hash := Carry.flowHash p.carry, csum := 0, sa := 0, status := st, posts := 1,
                                    flags := Carry.endCode p.carry * 2 ^ 12, cls := p.cls }

/-- A packet written over its posts: data in order, bad posts completed where they stand. -/
def State.fillPosts (s : State) (r : Nat) (p : EPkt) : List (Nat × Nat × Nat) → List Byte → State
  | [], _ => s
  | (a, n, st) :: ps, l =>
    if st ≠ 0 then (s.badPost r p st).fillPosts r p ps l
    else ((s.ringWrite r a (l.take n)).consumeRx r).fillPosts r p ps (l.drop n)

/-- A packet at a ring is dropped under a counter of the plot or of the pair. -/
def State.ringDrop (s : State) (t : Nat) (p : EPkt) (why : State → State) : State :=
  let x := s.egress t
  (why (s.setEgress t { x with deliver := x.deliver.erase p })).pktEnd p.pkt

def State.noqDrop (s : State) (p : EPkt) : State :=
  if p.slot = 8 then s.count (B.PLOT (bitsOf p.dest 11 0) + C.PLOT_NOQ_DROP) else s

/-- The packet and its completion are written into the ring. -/
def State.deliverPkt (s : State) (t r : Nat) (p : EPkt) (data : List Byte) (sa : Option Nat)
    (posts : List (Nat × Nat × Nat)) : State :=
  let x := s.qp r
  let e := s.egress t
  let s := s.setEgress t { e with deliver := e.deliver.erase p }
  let lead := (posts.takeWhile fun q => q.2.2 ≠ 0).length
  let good := (posts.filter fun q => q.2.2 = 0).length
  let s := s.fillPosts r p posts data
  let flags := rxFlags p.carry p.pkt.data + bit sa.isSome * 2 ^ 5
  let s := s.writeCpl r true { time := p.pkt.time, frac := p.pkt.frac, index := (x.rxCons + lead) % 2 ^ x.rxLog, len := data.length,
                               hash := Carry.flowHash p.carry, csum := onesSum (data.drop 14), sa := sa.getD 0, status := 0,
                               posts := good, flags := flags, cls := p.cls }
  s.pktEnd p.pkt

/-- Free completion slots of the receive side. -/
def Qp.rxSlots (x : Qp) : Nat := 2 ^ x.rxLog - (x.rxc.prod + 2 ^ 32 - x.rxc.cons) % 2 ^ 32

/-- Posts in front of a packet that do not suffice: the bad ones at the front are consumed, and the packet waits. -/
def State.waitPosts (s : State) (t r : Nat) (p : EPkt) (posts : List (Nat × Nat)) : State :=
  let bad := (posts.map fun q => s.postStatus r q).takeWhile (· ≠ 0)
  let s := (bad.take (s.qp r).rxSlots).foldl (fun s st => s.badPost r p st) s
  let x := s.egress t
  s.setEgress t { x with deliver := x.deliver.map fun q => if q = p then { q with since := some (q.since.getD s.now) } else q }

/-- R292: the packet that a slot has started towards ring r. `posts` is what the read of the posts answered. -/
def State.rxRing (s : State) (t r : Nat) (p : EPkt) (posts : Fetch) : State :=
  let x := s.qp r
  let tg := bitsOf p.dest 11 0
  if p.slot = 8 && p.gen ≠ s.plotGen tg then s.ringDrop t p fun s => s.noqDrop p
  else if p.slot = 8 && s.mode = .survey then s.ringDrop t p fun s => s.count (B.TLR t + C.TLR_RX_NOBUF_DROP)
  else if !x.live then s.ringDrop t p fun s => s.noqDrop p
  else if x.err ≠ 0 then
    s.ringDrop t p fun s => if isCoreRing r then s else s.bump (s.qpRegs (r / 64) (r % 64)) R.PLOT_QP_EVENTS_ERR_DROP
  else if s.ringHeld r then s
  else if !s.ringRange r x.rxBase (16 * 2 ^ x.rxLog) false then (s.rangeErr r).ringError r 2
  else
    let n := x.posts
    let got : Except DmaEnd (List (Nat × Nat)) :=
      if isCoreRing r then .ok ((List.range (min n 32)).map fun i =>
        match s.coreMemory 0 (x.rxBase + 16 * ((x.rxCons + i) % 2 ^ x.rxLog)) 16 with
        | some (k, _) => (leNat (bytesAt s.mem k 8), bitsOf (leNat (bytesAt s.mem (k + 8) 4)) 16 0)
        | none => (0, 0))
      else match posts with
        | .ok l => .ok (postsOf (min n 32) l)
        | .timeout => .error .timeout
        | .poisoned => .error .poisoned
        | .ur | .window => .error .ur
    match got with
    | .error e => (s.logRing r e).ringError r 3
    | .ok ps =>
      match (if isCoreRing r then (EspEnd.pass, s) else s.espRx tg p.carry p.pkt.data) with
      | (.drop, s) => s.ringDrop t p id
      | (esp, s') =>
        let data := match esp with
          | .clear d _ => d
          | .pass | .drop => p.pkt.data
        let sa := match esp with
          | .clear _ i => some i
          | .pass | .drop => none
        match s.takePosts r ps data.length [] with
        | none =>
          if 16 ≤ (ps.filter fun q => s.postStatus r q = 0).length then
            s.ringDrop t p fun s => s.count (B.TLR t + C.TLR_RX_NOBUF_DROP)
          else s.waitPosts t r p ps
        | some l =>
          if 16 < (l.filter fun q => q.2.2 = 0).length then s.ringDrop t p fun s => s.count (B.TLR t + C.TLR_RX_NOBUF_DROP)
          else if x.rxSlots < (l.filter fun q => q.2.2 ≠ 0).length + 1 then s
          else s'.deliverPkt t r p data sa l

/-- A packet is served at ring k: it is for that ring, or for a queue that the plot of the ring does not have. -/
def State.servedAt (s : State) (k : Nat) (p : EPkt) : Bool := s.ringFor p = k || s.ringFor p = 2 ^ 19 + k / 64

/-- The oldest packet that tailrace t holds for ring r. -/
def execRxRingWrite (t : Tailrace) (r : RingId) (posts : Fetch) (s : State) : Res :=
  let k := ringKeyOf r
  match (s.egress t).deliver.find? (s.servedAt k) with
  | none => .next s
  | some p =>
    if !s.domOn (domTR t) then .next s
    else .next (((s.rxRing t (s.ringFor p) p posts).markWaits t).endRingJobs k)

end Sys2Proof.Machine
end

