-- ==== Sys2Proof/Machine/HostPorts.lean ====
section
/-! DEFINITION. The host ports: links, functions, host requests, device reads, function and link resets, link power
(chapter 11, R86, R87). -/
namespace Sys2Proof.Machine

/-! ### Links (R86, R87, R252) -/

/-- Lanes of a link at full width. -/
def State.fullWidth (s : State) (m : Nat) : Nat := if bitOf s.image.bifur (m / 2) then 8 else 16

/-- Both times of R86 have passed. -/
def State.perstTimeOk (s : State) : Bool :=
  decide (s.modes.auxAt + (ms 1000 : Nat) ≤ (s.now : Int)) &&
    match s.modes.pgAt with
    | some g => decide (g + (ms 100 : Nat) ≤ (s.now : Int))
    | none => false

/-- R86: PERST# of a link is released; too early, the port stays in reset until both times have passed. -/
def execPerstRelease (m : Link) (s : State) : Res :=
  let l := s.link m
  if !s.linkExists m || !l.perst then .next s
  else
    let s := s.setLink m { l with perst := false, released := some s.now }
    .next (if s.perstTimeOk then s else s.raise (272 + 4 * m + 3) 0 0)

/-- The rate and width test of R252. -/
def State.testLink (s : State) (m : Nat) : State :=
  if s.rd (B.HPT m) R.HPT_LINK_RATE < 3 || s.rd (B.HPT m) R.HPT_LINK_WIDTH < s.fullWidth m then
    s.raise (272 + 4 * m + 2) 0 0
  else s

def State.setRate (s : State) (m rate width : Nat) (flit : Bool) : State :=
  let b := B.HPT m
  let s := ((s.stamp (Tm.txWidth m)).wr b R.HPT_LINK_PM 0).wrB b R.HPT_LINK_FLIT flit
  ((s.wr b R.HPT_LINK_RATE rate).wr b R.HPT_LINK_WIDTH width).wr b R.HPT_LINK_TX_WIDTH width

/-- A standard width that the link can have. -/
def State.widthOk (s : State) (m w : Nat) : Bool := [1, 2, 4, 8, 16].contains w && decide (w ≤ s.fullWidth m)

/-- R252: a link trains. -/
def execHostLinkUp (m : Link) (rate : Fin 6) (width : Nat) (flit : Bool) (s : State) : Res :=
  if !s.linkExists m || !s.domOn (domHP m) || (s.link m).perst || !s.perstTimeOk || s.linkUp m || !s.widthOk m width then .next s
  else
    let s := (s.setRate m rate width flit).wrB (B.HPT m) R.HPT_LINK_LINK_UP true
    .next ((s.setLink m { s.link m with lastTlp := s.now }).testLink m)

/-- R252: rate or width changes without a link-down. -/
def execHostLinkRateChange (m : Link) (rate : Fin 6) (width : Nat) (s : State) : Res :=
  if !s.linkUp m || !s.widthOk m width then .next s
  else .next ((s.setRate m rate width (s.flag (B.HPT m) R.HPT_LINK_FLIT)).testLink m)

/-- R87: a function is ready; with PF0 its command mailbox is (Table 3.5). -/
def execFunctionReady (m : Link) (f : Nat) (s : State) : Res :=
  if !s.linkUp m || max (s.allot m) 1 ≤ f || (s.fn m f).flrAt.isSome then .next s
  else
    let s := s.setFn m f { s.fn m f with ready := true }
    .next (if f = 0 && s.modes.lkRunning then s.wrB (B.LKP m) R.LKP_HMB_STATUS_READY true else s)

/-! ### Resets of functions and links (R259, R266 to R268) -/

/-- The functions that a reset of function f covers: PF0's covers the whole link. -/
def State.flrSet (s : State) (m f : Nat) : List Nat := if f = 0 then List.range (max 1 (s.allot m)) else [f]

/-- Steps 1 to 3 of Table 11.7 for one function. -/
def State.silence (s : State) (m f : Nat) : State :=
  let s := s.setFn m f { s.fn m f with flrAt := some s.now, held := [] }
  let l := s.link m
  let s := s.setLink m { l with outstanding := l.outstanding.filter (·.fn ≠ f),
                                silent := l.silent ++ (l.outstanding.filter (·.fn = f)).map (·.tag) }
  match s.plotOf m f with
  | some p => s.wr (B.VF p) R.PLOT_STATE_STATE 3
  | none => s

/-- Steps 4 and 5: the plots of the functions are reset and the functions ready. -/
def State.flrEnd (s : State) (m : Link) (f : Nat) : State :=
  let s := (s.flrSet m f).foldl (fun s g =>
    let s := match s.plotOf m g with
      | some p => (s.resetPlot p).endPlotJobs p
      | none => s
    s.resetFn m g true) s
  if f = 0 then
    let s := s.resetRegs fun a => (B.HPT m + 0xC ≤ a && a < B.HPT m + 0x100) || (B.TPG m ≤ a && a < B.TPG m + 0x1_0000)
      || (B.MGR m ≤ a && a < B.MGR m + 0x1000)
    let l := s.link m
    let s := s.setLink m { l with numVFs := 0, vfEnable := false, ctoField := 0, ptmEn := false, aspmL1 := false, l0pEn := false,
                                  ptmAt := none, mps := 0, mrrs := 2 }
    s.wrB (B.LKP m) R.LKP_HMB_STATUS_READY s.modes.lkRunning
  else s

/-- A configuration request reaches function f. -/
def State.cfgReaches (s : State) (m f : Nat) : Bool :=
  s.linkUp m && (f = 0 || ((s.link m).vfEnable && decide (f ≤ (s.link m).numVFs)))

/-- R266: Initiate Function Level Reset; of PF0, it is a mailbox reset (R73). A second one before the function is ready begins
again (Table 11.8). -/
def execFlrInitiate (m : Link) (f : Nat) (s : State) : Res :=
  if !s.cfgReaches m f || !(s.fn m f).ready then .next s
  else .next ((s.flrSet m f).foldl (fun s g => s.silence m g) (if f = 0 then s.mailboxReset m else s))

/-- R266: the function is ready again. -/
def execFlrDone (m : Link) (f : Nat) (s : State) : Res :=
  if (s.fn m f).flrAt.isNone || !s.linkUp m then .next s
  else .next ((s.flrEnd m f).count (B.HPTC m + C.HPT_FLR_DONE))

/-- R259: a function leaves D3hot, and is reset as by an FLR. -/
def execD3hotToD0 (m : Link) (f : Nat) (s : State) : Res :=
  if !s.cfgReaches m f || !(s.fn m f).d3 then .next s
  else .next (((s.flrSet m f).foldl (fun s g => s.silence m g) (if f = 0 then s.mailboxReset m else s)).flrEnd m f)

/-- A link is lost: counted, its mailbox, functions and plots reset; its sticky configuration bits stay unless PERST# is what
took it down (Table 4.9, R265). -/
def State.loseLink (s : State) (m : Link) (sticky : Bool) : State :=
  let s := ((s.count (B.HPTC m + C.HPT_LINK_DOWN)).mailboxReset m).resetLink m sticky
  (List.range' (s.plotBase m) (s.allot m)).foldl State.endPlotJobs s

/-- R268: hot reset, DL_Down or surprise down. -/
def execHotReset (m : Link) (how : LinkLoss) (s : State) : Res :=
  if !s.linkUp m then .next s
  else .next ((if how = .surprise then s.aerLog m true aerSurprise else s).loseLink m true)

/-- R268: PERST# is asserted. -/
def execPerstAssert (m : Link) (s : State) : Res :=
  if !s.linkExists m || (s.link m).perst then .next s
  else
    let s := s.loseLink m false
    .next (s.setLink m { s.link m with perst := true, released := none })

/-! ### Requests from the host (R254 to R259) -/

/-- The Completion Timeout Value field (R262). -/
def execCtoValueWrite (m : Link) (v : Fin 16) (s : State) : Res :=
  if !s.linkUp m || !(s.fn m 0).ready || (s.fn m 0).flrAt.isSome then .next s
  else match [50000, 100, 10000][v.val]? with
    | none => .next s
    | some n => .next ((s.setLink m { s.link m with ctoField := v }).wr (B.HPT m) R.HPT_CTO_CTO n)

/-- Bus Master Enable of a function changes: at 1 the held writes go out in order and held doorbells are acted on. -/
def State.setBme (s : State) (m f : Nat) (b : Bool) : State :=
  let x := s.fn m f
  if !b then s.setFn m f { x with bme := false }
  else
    let s := s.setFn m f { x with bme := true, held := [] }
    let s := x.held.foldl State.emit s
    let s := if x.held = [] then s else s.wake m
    match s.plotOf m f with
    | some p => (s.releasePlot p).updateWaits
    | none => s

def execBusMasterEnable (m : Link) (f : Nat) (b : Bool) (s : State) : Res :=
  if !s.cfgReaches m f || !(s.fn m f).ready || (s.fn m f).flrAt.isSome then .next s else .next (s.setBme m f b)

/-- A configuration write of one field. -/
def State.cfgSet (s : State) (m f : Nat) (x : CfgField) : State :=
  let y := s.fn m f
  let l := s.link m
  match x with
  | .mse b => s.setFn m f { y with mse := b }
  | .msixEn b => (s.setFn m f { y with msixEn := b }).msixRelease m f
  | .msixMask b => (s.setFn m f { y with msixMask := b }).msixRelease m f
  | .numVFs n => if f = 0 && n < max 1 (s.allot m) then s.setLink m { l with numVFs := n } else s
  | .vfEnable b => if f = 0 then s.setLink m { l with vfEnable := b } else s
  | .d3hot => s.setFn m f { y with d3 := true }
  | .ptmEn b => if f = 0 then s.setLink m { l with ptmEn := b } else s
  | .aspmL1 b => if f = 0 then s.setLink m { l with aspmL1 := b } else s
  | .l0pEn b => if f = 0 then s.setLink m { l with l0pEn := b } else s
  | .mps n => if f = 0 then s.setLink m { l with mps := n } else s
  | .mrrs n => if f = 0 then s.setLink m { l with mrrs := n } else s
  | .aerStatus n => if f = 0 then s.setLink m { l with aer := l.aer - (l.aer &&& n) } else s
  | .ats b => s.setFn m f { y with ats := b, xlat := if b then y.xlat else [] }

/-- A memory request to BAR2: the doorbell page, and a VF's MSI-X table and PBA (Table 11.2). -/
def State.bar2 (s : State) (m f off len : Nat) (data : Option (List Byte)) : State :=
  match s.plotOf m f with
  | none => s.refuseHost m
  | some p =>
    if off < 0x1000 then
      match data with
      | some d =>
        if h : p < 512 then
          if len = 8 && off % 8 = 0 && off % 0x40 < 0x20 then
            s.bellWrite (.plot ⟨p, h⟩ ⟨off / 0x40 % 64, Nat.mod_lt _ (by decide)⟩) (off % 0x40 / 8) (BitVec.ofNat 64 (leNat d))
          else s.refuseHost m
        else s.refuseHost m
      | none => s.refuseHost m
    else if f = 0 || !(len = 4 || len = 8) || off % len ≠ 0 then s.refuseHost m
    else if 0x8000 ≤ off && off + len ≤ 0x8000 + 16 * s.tableSize m f then
      let a := B.MSIX m f + (off - 0x8000)
      match data with
      | some d => ({ s with mem := putBytes s.mem a d }.msixRelease m f).answer .ok
      | none => s.answer (.data (leNat (bytesAt s.mem a len)))
    else if 0xC000 ≤ off && off + len ≤ 0xC100 then
      match data with
      | some _ => s.answer .ok
      | none => s.answer (.data (leNat (bytesAt s.mem (B.MSIX m f + off) len)))
    else s.refuseHost m

/-- A memory request to a BAR of a function. -/
def State.barAccess (s : State) (m : Link) (f bar off len : Nat) (data : Option (List Byte)) : State :=
  if !s.answers m f || !(len = 1 || len = 2 || len = 4 || len = 8) then s.refuseHost m
  else if bar = 2 then (s.catchUp (.host m f)).bar2 m f off len data
  else if bar ≠ 0 then s.refuseHost m
  else
    let k : AccKind := if data.isSome then .write else .read
    let v := leNat (data.getD [])
    if f = 0 then s.access (.host m 0) (.pf0 m off) k (8 * len) v
    else match s.plotOf m f with
      | some p => if h : p < 512 then s.access (.host m f) (.vf ⟨p, h⟩ off) k (8 * len) v else s.refuseHost m
      | none => s.refuseHost m

/-- The capability that begins at an offset of a function's configuration space, by its ID in the PCIe base specification, and 0
where none does (Table 11.4; the IDs: assumption 88). -/
def capAt (pf0 : Bool) (off : Nat) : Nat :=
  let both := [(0x50, 0x11), (0x70, 0x10), (0x100, 0x1), (0x188, 0xE)]
  let own := if pf0 then [(0x40, 0x1), (0x148, 0x3), (0x158, 0x19), (0x190, 0xD), (0x1A0, 0x10), (0x1E0, 0x1F), (0x1F0, 0xF),
      (0x200, 0x25), (0x210, 0x26), (0x240, 0x2A), (0x280, 0x31), (0x2C0, 0x27), (0x310, 0x22)]
    else [(0x160, 0xF)]
  (((both ++ own).find? (·.1 = off)).map (·.2)).getD 0

/-- R256: a VF's Class Code follows the kind of its plot. -/
def State.classCode (s : State) (m f : Nat) : Nat :=
  if f = 0 then 0x02_0000
  else match s.plotOf m f with
    | some p => if !s.flag (B.PLOT p) R.PLOT_CFG_EN then 0xFF_0000 else if s.isStorage p then 0x01_0802 else 0x02_0000
    | none => 0xFF_0000

/-- A field of a function's configuration space (R253, R254, R256, R257, R262, R265); a field that a VF lacks reads 0. -/
def State.cfgFact (s : State) (m f : Nat) (x : CfgFact) : Nat :=
  let y := s.fn m f
  let l := s.link m
  let pf := fun n => if f = 0 then n else 0
  match x with
  | .ids => (if f = 0 then 0x9612 else 0x9613) * 2 ^ 16 + 0x1F6B
  | .classCode => s.classCode m f
  | .subsystem => s.image.subsystem
  | .barSize b => if b = 0 then (if f = 0 then 2 ^ 24 else 2 ^ 16) else if b = 2 then 2 ^ 16 else 0
  | .cap off => capAt (f = 0) off
  | .totalVFs | .initialVFs => pf (s.allot m - 1)
  | .numVFs => pf l.numVFs
  | .vfEnable => pf (bit l.vfEnable)
  | .firstVF | .vfStride => pf 1
  | .pageSizes => pf 0x11
  | .vfDevice => pf 0x9613
  | .msixSize => s.tableSize m f
  | .mse => bit y.mse
  | .bme => bit y.bme
  | .d3hot => bit y.d3
  | .mps => pf l.mps
  | .mrrs => pf l.mrrs
  | .ctoField => pf l.ctoField
  | .aer => pf l.aer
  | .serial => pf Config.serial

/-- A configuration request: UR, Request Retry Status, or served. -/
def State.cfg (s : State) (m f : Nat) (x : CfgField ⊕ CfgFact) : State :=
  if !(f = 0 || ((s.link m).vfEnable && decide (f ≤ (s.link m).numVFs))) then s.refuseHost m
  else if !(s.fn m f).ready || (s.fn m f).flrAt.isSome then s.answer .rrs
  else match x with
    | .inl x => (s.cfgSet m f x).answer .ok
    | .inr x => s.answer (.data (s.cfgFact m f x))

/-- AER status bits of the errors of Table 11.6 (PCIe base specification), and whether they are uncorrectable. -/
def errBit : LinkErr → Bool × Nat
  | .receiver => (false, 0) | .badTlp => (false, 6) | .badDllp => (false, 7) | .replayRollover => (false, 8)
  | .replayTimeout => (false, 12) | .dllProtocol => (true, 4) | .flowControl => (true, 13) | .malformed => (true, 18)

/-- R258: a request of a host. -/
def execHostMemoryRequest (m : Link) (q : HostReq) (s : State) : Res :=
  if !s.linkUp m then .next s
  else
    let s := s.wake m
    match q with
    | .read f bar off len => .next (s.barAccess m f bar off len none)
    | .write f bar off d poisoned =>
      if poisoned then
        let s := (s.wrB (B.HPT m) R.HPT_ERR_POISON_RX true).count (B.HPTC m + C.HPT_POISON_RX)
        .next ((s.aerLog m true aerPoison).answer .discarded)
      else .next (s.barAccess m f bar off d.length (some d))
    | .noBar _ | .io | .atomic | .deferrable => .next (s.refuseHost m)
    | .vdm true _ => .next (s.answer .discarded)
    | .vdm false true => .next (s.answer .ok)
    | .vdm false false => .next (s.refuseHost m)
    | .cfgRead f x => .next (s.cfg m f (.inr x))
    | .cfgWrite f x => .next (s.cfg m f (.inl x))
    | .broken e => .next ((s.aerLog m (errBit e).1 (errBit e).2).answer .discarded)

/-! ### Device reads (R262) -/

/-- The chain that a device read serves. -/
def State.chainOfRead (s : State) (x : DevRead) : Option Chain := (s.qp x.ring).chains.find? fun c => c.seq = x.seq && c.pend = some x.tag

/-- A device read ends: its chain goes on or fails; on a queue pair in error every fetch has stopped (R298). -/
def State.endRead (s : State) (m : Nat) (x : DevRead) (got : List Byte) (e : DmaEnd) : State :=
  let l := s.link m
  let s := s.setLink m { l with outstanding := l.outstanding.filter (·.tag ≠ x.tag) }
  match s.chainOfRead x with
  | some c => (if (s.qp x.ring).err ≠ 0 then s.setChain x.ring { c with pend := none } else s.finishChain x.ring c got e).endRingJobs x.ring
  | none => s.endRingJobs x.ring

/-- A device read has been outstanding for HPT_CTO. -/
def State.readLate (s : State) (m : Nat) (x : DevRead) : Bool := decide (x.at_ + us (s.rd (B.HPT m) R.HPT_CTO_CTO) ≤ s.now)

/-- A device read times out: logged, its tag set aside, its work item failed. -/
def State.timeoutRead (s : State) (m : Nat) (x : DevRead) (got : List Byte) : State :=
  let l := s.link m
  let until_ := s.now + us (s.rd (B.HPT m) R.HPT_CTO_CTO)
  ((s.setLink m { l with dead := l.dead.filter (·.1 ≠ x.tag) ++ [(x.tag, until_)] }).logDma m .timeout).endRead m x got .timeout

/-- R262: a device read without all its completions within HPT_CTO; `got` is what had come. -/
def execCompletionTimeout (m : Link) (tag : Nat) (got : List Byte) (s : State) : Res :=
  match (s.link m).outstanding.find? (·.tag = tag) with
  | none => .next s
  | some x => .next (if s.readLate m x then s.timeoutRead m x got else s)

/-- A completion that matches no outstanding tag (R262). -/
def State.unexpected (s : State) (m : Nat) : State :=
  ((s.wrB (B.HPT m) R.HPT_ERR_UNEXP_CPL true).count (B.HPTC m + C.HPT_UNEXP_CPL)).aerLog m true aerUnexp

/-- R262: a completion to a device read; `e` says how the read ended, `got` what it brought. One that comes after HPT_CTO finds the
read timed out. -/
def execDmaCompletion (m : Link) (tag : Nat) (got : List Byte) (e : DmaEnd) (s : State) : Res :=
  if !s.linkUp m then .next s
  else
    let s := s.wake m
    let l := s.link m
    match l.outstanding.find? (·.tag = tag) with
    | some x =>
      if e = .timeout then .next s
      else if s.readLate m x then .next ((s.timeoutRead m x []).unexpected m)
      else .next ((s.logDma m e).endRead m x got e)
    | none =>
      if l.silent.contains tag then .next (s.setLink m { l with silent := l.silent.filter (· ≠ tag) })
      else .next (s.unexpected m)

/-! ### Link power and translations (R270, R271, R273) -/

/-- R270: the device requests L1. -/
def execL1Entry (m : Link) (s : State) : Res :=
  let b := B.HPT m
  let l := s.link m
  if !s.linkUp m || !l.aspmL1 || s.now < l.lastTlp + us (s.rd b R.HPT_PM_CFG_L1_IDLE) || l.outstanding ≠ []
      || l.ptmAt.isSome || s.rd b R.HPT_LINK_PM = 2 then .next s
  else .next ((s.wr b R.HPT_LINK_PM 2).count (B.HPTC m + C.HPT_L1_ENTRIES))

/-- The narrowest transmit width that HPT_PM_CFG.L0P_MIN allows. -/
def l0pMin (c : Nat) : Nat := [8, 4, 2].getD c 2

/-- R271: after 100 µs of low use the transmit width is halved. -/
def execL0pNarrow (m : Link) (s : State) : Res :=
  let b := B.HPT m
  let w := s.rd b R.HPT_LINK_TX_WIDTH / 2
  if !s.due (Tm.txWidth m) (us 100) || !s.linkUp m || !s.flag b R.HPT_LINK_FLIT || s.rd b R.HPT_LINK_RATE ≠ 5 || !(s.link m).l0pEn || !s.flag b R.HPT_PM_CFG_L0P_EN
      || w < l0pMin (s.rd b R.HPT_PM_CFG_L0P_MIN) || s.rd b R.HPT_LINK_PM = 2 then .next s
  else .next ((((s.stamp (Tm.txWidth m)).wr b R.HPT_LINK_TX_WIDTH w).wr b R.HPT_LINK_PM 1).count (B.HPTC m + C.HPT_L0P_CHANGES))

/-- R271: the transmit width goes back to full. -/
def execL0pWiden (m : Link) (s : State) : Res :=
  let b := B.HPT m
  let w := s.rd b R.HPT_LINK_WIDTH
  if !s.linkUp m || w ≤ s.rd b R.HPT_LINK_TX_WIDTH then .next s
  else
    let s := (s.stamp (Tm.txWidth m)).wr b R.HPT_LINK_TX_WIDTH w
    let s := if s.rd b R.HPT_LINK_PM = 1 then s.wr b R.HPT_LINK_PM 0 else s
    .next (s.count (B.HPTC m + C.HPT_L0P_CHANGES))

/-- R273: an invalidation request completes; the translation is no longer used. -/
def execAtsInvalidate (m : Link) (f page : Nat) (s : State) : Res :=
  let x := s.fn m f
  if !s.linkUp m || !x.ats then .next s
  else .next (((s.setFn m f { x with xlat := x.xlat.filter (· ≠ page) }).emit (.link m "invalidate completion")).wake m)

end Sys2Proof.Machine
end

