-- ==== Sys2Proof/Machine/Plots.lean ====
section
/-! DEFINITION. Plots: queue operations, configuration, rates, windows, resets, mailboxes, the dirty log's commands, pause,
save and restore (chapter 13). -/
namespace Sys2Proof.Machine

/-! ### Which plot a command names (R301, R322) -/

/-- The local indices of a link hold l. -/
def State.localIn (s : State) (m l : Nat) : Bool :=
  decide (128 * (m % 2) ≤ l) && decide (l < 128 * (m % 2) + s.allot m)

/-- The plot of a local index, or the status of R301. -/
def State.localPlot (s : State) (q : Req) (l : Nat) : Except Nat Nat :=
  match q with
  | .core _ => .error St.REFUSED
  | .host m _ =>
    let other := if m.val % 2 = 0 then m.val + 1 else m.val - 1
    if s.localIn m l then .ok (s.plotBase m + (l - 128 * (m.val % 2)))
    else if bitOf s.image.bifur (m.val / 2) && s.localIn other l then .error St.REFUSED
    else .error St.BAD_ARGUMENT

/-- The long commands that hold a plot (Table 13.7). -/
def plotJobs : List Nat := [0x0202, 0x020C]

/-- A plot command runs on its plot: not on a FREE one, unless it may; not while it is being reset; not while a long
command holds it, unless it may (R71, R321, R322, Table 13.4). -/
def State.plotCommand (s : State) (q : Req) (opcode : Nat) (free held : Bool) (k : Cmd → Nat → State → State) : State :=
  s.command q opcode fun c s =>
    match s.localPlot q (c.u16 8) with
    | .error st => s.finish q st
    | .ok p =>
      if s.plotState p = 0 && !free then s.finish q St.BAD_ARGUMENT
      else if s.plotState p = 3 then s.busyRetry q 1000
      else if !held && s.held plotJobs p then s.busyRetry q 1000
      else k c p s

/-! ### Queue operations (R276, R306, Table 13.3) -/

/-- Fields of the 64-byte argument block. -/
def blkAt (l : List Byte) (i n : Nat) : Nat := leNat ((l.drop i).take n)

/-- The registers of a queue pair at their reset values (Table 12.8). -/
def State.clearQpRegs (s : State) (p q : Nat) : State :=
  let b := s.qpRegs p q + 0x1000
  s.resetRegs fun a => decide (b ≤ a) && decide (a < b + 0x20)

/-- The pipelines that a new queue pair of a plot is bound to (R15). -/
def State.bindQp (s : State) (p : Nat) : Nat × State :=
  match s.fnOfPlot p with
  | none => (0, s)
  | some (m, _) =>
    let l := s.link m
    if bitOf s.image.bifur (m / 2) then (m, s)
    else (if l.turn then m + 1 else m, s.setLink m { l with turn := !l.turn })

/-- A queue pair comes into being: counts 0, flags armed. -/
def State.makeQp (s : State) (p q : Nat) (x : Qp) : State :=
  let (b, s) := s.bindQp p
  ((s.clearQpRegs p q).setQp (qpKey p q) { x with live := true, bind := b, nextSeq := (s.qp (qpKey p q)).nextSeq }).resplit p

/-- The rings of a queue pair lie in windows with the access each needs. -/
def State.ringsOk (s : State) (p : Nat) (x : Qp) : Bool :=
  s.windowOk p x.txBase (32 * 2 ^ x.txLog) false && s.windowOk p x.txc.base (32 * 2 ^ x.txLog) true
    && s.windowOk p x.rxBase (16 * 2 ^ x.rxLog) false && s.windowOk p x.rxc.base (32 * 2 ^ x.rxLog) true

def State.qpCreate (s : State) (p : Nat) (l : List Byte) : Nat × State :=
  let q := blkAt l 0 1
  let c := blkAt l 1 1
  let x : Qp := { Qp.init with cls := c, txLog := blkAt l 2 1, rxLog := blkAt l 3 1, txBase := blkAt l 8 8, rxBase := blkAt l 24 8,
                               txc := { CplRing.init with base := blkAt l 16 8 }, rxc := { CplRing.init with base := blkAt l 32 8 } }
  if s.rd (B.PLOT p) R.PLOT_CFG_QP_MAX ≤ q || (s.qp (qpKey p q)).live || 7 < c || !bitOf (s.rd (B.PLOT p) R.PLOT_CFG_CLASS_MASK) c
      || x.txLog < 6 || 16 < x.txLog || x.rxLog < 6 || 16 < x.rxLog
      || [x.txBase, x.txc.base, x.rxBase, x.rxc.base].any (fun a => a % 4096 ≠ 0) || !s.ringsOk p x || s.isStorage p then
    (St.BAD_ARGUMENT, s)
  else if 8192 ≤ s.allQps then (St.NO_RESOURCE, s)
  else (St.DONE, s.makeQp p q x)

/-- A queue pair stops: its chains end without completions, its reads are cancelled, its counts are 0. -/
def State.stopQp (s : State) (p q : Nat) (live : Bool) : State :=
  let k := qpKey p q
  let x := s.qp k
  let s := match s.fnOfPlot p with
    | none => s
    | some (m, _) =>
      let l := s.link m
      s.setLink m { l with outstanding := l.outstanding.filter fun (x : DevRead) => x.ring ≠ k,
                           silent := l.silent ++ (l.outstanding.filter fun (x : DevRead) => x.ring = k).map fun (x : DevRead) => x.tag }
  let y : Qp := if live then { x with txProd := 0, rxProd := 0, txCons := 0, rxCons := 0, err := 0, heldDb := [], chains := [],
                                      txc := { CplRing.init with base := x.txc.base, armed := x.txc.armed },
                                      rxc := { CplRing.init with base := x.rxc.base, armed := x.rxc.armed } }
    else { Qp.init with nextSeq := x.nextSeq }
  (((s.clearQpRegs p q).setQp k y).updateWaits).endPlotJobs p

def State.qpReset (s : State) (p : Nat) (l : List Byte) : Nat × State :=
  let q := blkAt l 0 1
  if q < 64 && (s.qp (qpKey p q)).live then (St.DONE, s.stopQp p q true) else (St.BAD_ARGUMENT, s)

def State.qpDelete (s : State) (p : Nat) (l : List Byte) : Nat × State :=
  let q := blkAt l 0 1
  if q < 64 && (s.qp (qpKey p q)).live then (St.DONE, (s.stopQp p q false).resplit p) else (St.BAD_ARGUMENT, s)

def State.qtableSet (s : State) (p : Nat) (l : List Byte) : Nat × State :=
  let b := blkAt l 4 1
  let es := (l.drop 8).take 32
  if 3 < b || es.any (fun e => 63 < e.toNat) then (St.BAD_ARGUMENT, s)
  else (St.DONE, (List.range 8).foldl (fun s i => s.wrW (B.PLOT p + 0x200 + 4 * (8 * b + i)) (blkAt es (4 * i) 4)) s)

/-- A queue operation by number (Table 13.3). -/
def State.queueOp (s : State) (p op : Nat) (l : List Byte) : Nat × State :=
  if s.mode = .trickle then (St.WRONG_MODE, s)
  else if op = 1 then s.qpCreate p l
  else if op = 2 then s.qpReset p l
  else if op = 3 then s.qpDelete p l
  else if op = 4 then s.qtableSet p l
  else (St.BAD_ARGUMENT, s)

/-- The tenant's argument block. -/
def State.tqArgs (s : State) (p : Nat) : List Byte :=
  (List.range 16).flatMap fun i => leBytes 4 (s.reg (B.VF p + R.PLOT_TQ_ARG_ARG.off + 4 * i)).toNat

/-- A host function writes a register of its plot window. -/
def State.vfWrite (s : State) (p : Nat) (k : State → State) : State :=
  match s.fnOfPlot p with
  | none => s
  | some (m, f) => if !s.linkUp m then s else if f = 0 || !s.answers m f then s.refuseHost m
    else (k (s.catchUp (.host (Fin.ofNat 16 m) f))).answer .ok

/-- A queue operation by either path: a write of its number to PLOT_TQ_CMD, or a PLOT_QP_CMD. A PLOT_QP_CMD of another
number is not this row's; one outside Table 13.3 ends with BAD_ARGUMENT. -/
def State.queueRow (s : State) (x : QpPath) (op : Nat) : State :=
  match x with
  | .tenant p => s.vfWrite p fun s =>
      let (st, s) := s.queueOp p op (s.tqArgs p)
      s.wr (B.VF p) R.PLOT_TQ_STATUS_STATUS st
  | .manager q => s.plotCommand q 0x0203 false false fun c p s =>
      let o := c.u8 10
      if o = 0 || 4 < o then s.finish q St.BAD_ARGUMENT
      else if o ≠ op then s
      else
        let (st, s) := s.queueOp p o (c.bytes 16 64)
        s.done q (leBytes 2 st)

def execQpCreate (x : QpPath) (s : State) : Res := .next (s.queueRow x 1)
def execQpReset (x : QpPath) (s : State) : Res := .next (s.queueRow x 2)
def execQpDelete (x : QpPath) (s : State) : Res := .next (s.queueRow x 3)
def execQtableSet (x : QpPath) (s : State) : Res := .next (s.queueRow x 4)

/-! ### Configuration (R303, R305, Table 13.2) -/

/-- What a command of Survey has set of a plot's registers, from offset `lo` to `hi`, stays when a raw write of them ends (R82). -/
def State.forgetRaw (s : State) (p lo hi : Nat) : State :=
  { s with raw := s.raw.filter fun e => decide (e.1 < B.PLOT p + lo) || decide (B.PLOT p + hi < e.1) }

/-- Vectors of a link's pool that its other functions hold (R256). -/
def State.otherVectors (s : State) (m f : Nat) : Nat :=
  (((List.range (max 1 (s.allot m))).filter (· ≠ f)).map (s.tableSize m)).sum

/-- The steering entry of a plot put in place of its old one, and whether that has been removed; none where a copy is full. -/
def State.steer (s : State) (p mac vlan : Nat) : Option (Bool × State) :=
  let old := steerKey (s.plotMac p) (s.plotVlan p)
  let new := steerKey mac vlan
  let en := s.flag (B.PLOT p) R.PLOT_CFG_EN
  if en && old = new then some (false, s)
  else match s.seedInsert (Seed.mk true false (p / 128 % 4) new (Config.steerData p % 2 ^ 64)) with
    | (some _, _) => none
    | (none, s) => some (if en && Seed.valid (s.masterAt old) then (true, s.seedRemove old) else (false, s))

/-- The highest live queue pair of a plot, plus 1. -/
def State.topQp (s : State) (p : Nat) : Nat :=
  ((s.qps.filter fun e => e.1 < 2 ^ 20 && e.1 / 64 = p && e.2.live).map (fun e => e.1 % 64 + 1)).foldl max 0
    |> max (((s.ctl p).sqs.filter (·.2.live)).map (·.1) |>.foldl max 0)

/-- R303. A change of the steering entry is a table update: it waits while a copy is being loaded or another removal is not yet
final, and where it removes the old entry the command reports after its barriers (R192, R193). -/
def execPlotConfig (q : Req) (s : State) : Res :=
  .next (s.plotCommand q 0x0200 true false fun c p s =>
    match s.fnOfPlot p with
    | none => s.finish q St.BAD_ARGUMENT
    | some (m, f) =>
      let b := B.PLOT p
      let kind := bitOf (c.u8 10) 0
      let max_ := c.u8 12
      let vecs := c.u16 14
      let mac := c.u32 16 + 2 ^ 32 * c.u16 20
      let vlan := c.u16 22
      let pol := c.u32 24
      if max_ = 0 || 64 < max_ || vecs = 0 || 256 < vecs || 4095 < vlan || (65535 < pol && pol ≠ 0xFFFF_FFFF) || (f = 0 && kind) then
        s.finish q St.BAD_ARGUMENT
      else if kind ≠ s.isStorage p && ((s.fn m f).mse || s.liveQps p ≠ 0 || s.ctlOn p) then s.busyRetry q 1000
      else if max_ < s.topQp p then s.finish q St.BAD_ARGUMENT
      else if f ≠ 0 && vecs ≠ s.tableSize m f && (s.fn m f).msixEn then s.busyRetry q 1000
      else if f ≠ 0 && (if bitOf s.image.bifur (m / 2) then 1024 else 2048) < s.otherVectors m f + vecs then s.finish q St.NO_RESOURCE
      else if s.tableHeld && !(s.flag b R.PLOT_CFG_EN && steerKey (s.plotMac p) (s.plotVlan p) = steerKey mac vlan) then s
      else match s.steer p mac vlan with
        | none => s.finish q St.TABLE_FULL
        | some (was, s) =>
          let s := ((((s.forgetRaw p 0 0xF).wrB b R.PLOT_CFG_EN true).wrB b R.PLOT_CFG_KIND kind).wrB b R.PLOT_CFG_SRC_CHECK (bitOf (c.u8 10) 1)).wrB b
            R.PLOT_CFG_FLOW_STATE (bitOf (c.u8 10) 2)
          let s := ((s.wr b R.PLOT_CFG_CLASS_MASK (c.u8 11)).wr b R.PLOT_CFG_QP_MAX max_).wr b R.PLOT_CFG_VEC_COUNT vecs
          let s := ((s.wr b R.PLOT_MAC_LO_MAC (mac % 2 ^ 32)).wr b R.PLOT_MAC_HI_MAC (mac / 2 ^ 32)).wr b R.PLOT_MAC_HI_VLAN vlan
          let s := (s.wrB b R.PLOT_POLICER_EN (pol ≠ 0xFFFF_FFFF)).wr b R.PLOT_POLICER_METER (if pol = 0xFFFF_FFFF then 0 else pol)
          let s := if f = 0 then s else s.setFn m f { s.fn m f with tableSize := vecs }
          s.afterRemoval was q 0x0200 (leBytes 2 (s.plotGen p % 2 ^ 16)))

/-- R307: transmit and receive shapers and weights; each value by the range of its register. -/
def execPlotRateSet (q : Req) (s : State) : Res :=
  .next (s.plotCommand q 0x0201 false false fun c p s =>
    let b := B.PLOT p
    let tx : List (RegField × Nat) := [(R.PLOT_TX_SHP_INC, c.u32 12), (R.PLOT_TX_SCHED_BURST, c.u16 16), (R.PLOT_TX_SCHED_WEIGHT, c.u8 18)]
    let rx : List (RegField × Nat) :=
      [(R.PLOT_TX_SHP_INC, c.u32 20), (R.PLOT_TX_SCHED_BURST, c.u16 24), (R.PLOT_TX_SCHED_WEIGHT, c.u8 26)]
    if (tx ++ rx).all fun e => fieldTakes (b + e.1.off) e.1 e.2 then
      let s := (tx.foldl (fun s e => s.wr b e.1 e.2) (s.forgetRaw p 0x20 0x27)).wrB b R.PLOT_TX_SHP_SHP_EN (bitOf (c.u8 27) 0)
      let s := s.setPlot p { s.plot p with rxInc := c.u32 20, rxBurst := c.u16 24, rxWeight := c.u8 26, rxEn := bitOf (c.u8 27) 1 }
      (s.resplit p).done q []
    else s.finish q St.BAD_ARGUMENT)

/-! ### DMA windows (R304) -/

/-- The windows of a PLOT_WINDOW_SET: base with its flags, and pages. -/
def windowArgs (c : Cmd) : List (Nat × Nat) := (List.range (c.u8 10)).map fun i => (c.u64 (16 + 12 * i), c.u32 (24 + 12 * i))

def windowLo (w : Nat × Nat) : Nat := w.1 / 4096 * 4096
def windowHi (w : Nat × Nat) : Nat := windowLo w + w.2 * 4096

/-- No two windows overlap. -/
def windowsApart : List (Nat × Nat) → Bool
  | [] => true
  | w :: ws => (ws.all fun v => decide (windowHi w ≤ windowLo v) || decide (windowHi v ≤ windowLo w)) && windowsApart ws

def State.setWindows (s : State) (p : Nat) (ws : List (Nat × Nat)) : State :=
  (List.range 16).foldl (fun s i =>
    let w := ws.getD i (0, 0)
    let a := B.PLOT p + 0x40 + 0x10 * i
    ((s.wrW a (w.1 % 2 ^ 32)).wrW (a + 4) (w.1 / 2 ^ 32)).wrW (a + 8) w.2) s

def execPlotWindowSet (q : Req) (s : State) : Res :=
  .next (s.plotCommand q 0x0202 false false fun c p s =>
    let ws := windowArgs c
    if 16 < c.u8 10 || ws.any (fun w => w.2 = 0 || bitsOf w.1 11 2 ≠ 0 || 2 ^ 64 < windowHi w) || !windowsApart ws then
      s.finish q St.BAD_ARGUMENT
    else (((s.forgetRaw p 0x40 0x13F).setWindows p ws).addJob q 0x0202 p).endPlotJobs p)

/-! ### Reset and removal (R313, R314) -/

def execPlotReset (q : Req) (s : State) : Res :=
  .next (s.plotCommand q 0x0204 false true fun _ p s =>
    let s := (s.resetPlot p).endPlotJobs p
    s.done q (leBytes 2 (s.plotGen p % 2 ^ 16)))

/-- A plot's security associations are deleted with their keys (R412). -/
def State.dropSas (s : State) (p : Nat) : State :=
  ((s.icr.sas.filter fun e => Sa.valid e.2 && Sa.plot e.2 = p).map (·.1)).foldl (fun s i => (s.setEspKey i []).setEspSa i 0) s

/-- The configuration of a plot is cleared, but for its generation. -/
def State.freePlot (s : State) (p m f : Nat) : State :=
  let k := steerKey (s.plotMac p) (s.plotVlan p)
  let s := if Seed.valid (s.masterAt k) then s.seedRemove k else s
  let s := s.resetRegs fun a => decide (B.PLOT p ≤ a) && decide (a < B.PLOT p + 0x400) && a ≠ B.PLOT p + R.PLOT_XGEN_XGEN.off
  let s := ((s.setPlot p PlotSt.init).resplit p).dropSas p
  let s := s.onSilo fun c => { c with atts := tdrop (fun k => k / 16 = p) c.atts }
  s.setFn m f { s.fn m f with tableSize := 0 }

/-- R314. The removal of the steering entry is a table update (R192, R193). -/
def execPlotRemove (q : Req) (s : State) : Res :=
  .next (s.plotCommand q 0x0205 false true fun _ p s =>
    match s.fnOfPlot p with
    | none => s.finish q St.BAD_ARGUMENT
    | some (m, f) =>
      if f = 0 then s.finish q St.BAD_ARGUMENT
      else if s.tableHeld then s
      else (((s.resetPlot p).endPlotJobs p).freePlot p m f).afterRemoval
        (Seed.valid (s.masterAt (steerKey (s.plotMac p) (s.plotVlan p)))) q 0x0205 [])

/-! ### Messages (R308 to R310) -/

/-- R308: the tenant writes LENGTH to PLOT_MBX_SEND. -/
def execPlotMbxSend (p : PlotIx) (v : Word) (s : State) : Res :=
  .next (s.vfWrite p fun s =>
    let n := bitsOf v.toNat 7 0
    let b := B.VF p
    if 232 < n then s
    else if s.flag b R.PLOT_MBX_STATUS_TX_BUSY then s.wrB b R.PLOT_MBX_STATUS_TX_IGNORED true
    else
      let x := s.plot p
      let seq := (x.txSeq + 1) % 2 ^ 16
      let s := s.setPlot p { x with txSeq := seq, txMsg := some (seq, s.plotGen p % 2 ^ 16, bytesAt s.mem (b + 0x2100) n) }
      let s := s.wrB b R.PLOT_MBX_STATUS_TX_BUSY true
      if s.mode = .trickle then s else s.msgArrives p)

/-- R309: the tenant frees its RX buffer. -/
def execPlotMbxAck (p : PlotIx) (s : State) : Res :=
  .next (s.vfWrite p fun s => s.wrB (B.VF p) R.PLOT_MBX_STATUS_RX_FULL false)

/-- The RX buffer's image of a message (Table 13.8). -/
def msgImage (seq gen : Nat) (l : List Byte) : List Byte :=
  leBytes 2 seq ++ leBytes 1 l.length ++ leBytes 1 0 ++ leBytes 2 gen ++ leBytes 2 0 ++ fit 232 l

def execPlotMsgSend (q : Req) (s : State) : Res :=
  .next (s.plotCommand q 0x0206 false false fun c p s =>
    match s.fnOfPlot p with
    | none => s.finish q St.BAD_ARGUMENT
    | some (m, f) =>
      let b := B.VF p
      let gen := s.plotGen p % 2 ^ 16
      if f = 0 || 232 < c.u8 10 then s.finish q St.BAD_ARGUMENT
      else if s.flag b R.PLOT_MBX_STATUS_RX_FULL then s.busyRetry q 1000
      else if c.u16 12 ≠ 0 && c.u16 12 ≠ gen then s.finish q St.ABORTED_RESET
      else
        let x := s.plot p
        let seq := (x.rxSeq + 1) % 2 ^ 16
        let s := { s with mem := putBytes s.mem (b + 0x2200) (msgImage seq gen (c.bytes 16 (c.u8 10))) }
        let s := (s.setPlot p { x with rxSeq := seq }).wrB b R.PLOT_MBX_STATUS_RX_FULL true
        let s := if s.flag b R.PLOT_MBX_CTRL_IRQ_EN then s.interrupt m f (s.rd b R.PLOT_MBX_CTRL_VEC) else s
        s.done q [])

/-- The pending bit of a plot's message cleared. -/
def State.clearPend (s : State) (p : Nat) : State :=
  match s.fnOfPlot p with
  | none => s
  | some (m, f) =>
    let l := 128 * (m % 2) + f
    let a := B.MGR m + R.PLOT_MGR_MSGPEND_PEND.off + 4 * (l / 32)
    s.wrW a (setBits (s.reg a).toNat (l % 32) (l % 32) 0)

def execPlotMsgRecv (q : Req) (s : State) : Res :=
  .next (s.plotCommand q 0x0207 false false fun _ p s =>
    if (s.fnOfPlot p).map (·.2) = some 0 then s.finish q St.BAD_ARGUMENT
    else match (s.plot p).txMsg with
      | none => s.done q (fit 240 [])
      | some (seq, gen, l) =>
        let s := ((s.setPlot p { s.plot p with txMsg := none }).clearPend p).wrB (B.VF p) R.PLOT_MBX_STATUS_TX_BUSY false
        s.done q (msgImage seq gen l))

/-! ### Status and the dirty log's commands (R315 to R317, R322) -/

def execPlotStatus (q : Req) (s : State) : Res :=
  .next (s.plotCommand q 0x0208 true true fun _ p s =>
    let b := B.PLOT p
    s.done q (leBytes 1 (s.plotState p) ++ leBytes 1 (s.liveQps p) ++ leBytes 2 (s.plotGen p % 2 ^ 16)
      ++ leBytes 1 (s.rd b R.PLOT_LOG_CTRL_LOGGING + 2 * s.rd b R.PLOT_LOG_CTRL_LOG_OVF) ++ leBytes 3 0
      ++ leBytes 8 (s.cnt (b + C.PLOT_NOQ_DROP))))

/-- R315: the ring must be 4 KiB-aligned and lie wholly in one window of the manager plot. -/
def execPlotLogStart (q : Req) (s : State) : Res :=
  .next (s.plotCommand q 0x0209 false false fun c p s =>
    let b := B.PLOT p
    let base := c.u64 16
    let n := c.u8 24
    match s.fnOfPlot p with
    | none => s.finish q St.BAD_ARGUMENT
    | some (m, _) =>
      if base % 4096 ≠ 0 || n < 10 || 20 < n || !s.windowOk (s.plotBase m) base (8 * 2 ^ n) true then s.finish q St.BAD_ARGUMENT
      else
        let s := ((s.wrPair (b + 0x300) base).wr b R.PLOT_LOG_CTRL_LOG_SIZE n).wrB b R.PLOT_LOG_CTRL_LOG_OVF false
        let s := (s.wrB b R.PLOT_LOG_CTRL_LOGGING true).wr b R.PLOT_LOG_PROD_PROD 0
        (s.setPlot p { s.plot p with logCons := 0, filter := [] }).done q [])

/-- R316, R317: the consumed count is taken and the filter cleared; LOG_OVF is reported as it stood, and clears where the
ring has room. -/
def execPlotLogSync (q : Req) (s : State) : Res :=
  .next (s.plotCommand q 0x020A false false fun c p s =>
    let b := B.PLOT p
    let prod := s.rd b R.PLOT_LOG_PROD_PROD
    let left := (prod + 2 ^ 32 - c.u32 12) % 2 ^ 32
    let size := 2 ^ s.rd b R.PLOT_LOG_CTRL_LOG_SIZE
    if size < left then s.finish q St.BAD_ARGUMENT
    else
      let ovf := s.flag b R.PLOT_LOG_CTRL_LOG_OVF
      let s := s.setPlot p { s.plot p with logCons := c.u32 12, filter := [] }
      let s := if left < size then s.wrB b R.PLOT_LOG_CTRL_LOG_OVF false else s
      s.done q (leBytes 4 prod ++ leBytes 1 (bit ovf)))

def execPlotLogStop (q : Req) (s : State) : Res :=
  .next (s.plotCommand q 0x020B false false fun _ p s =>
    (s.wrB (B.PLOT p) R.PLOT_LOG_CTRL_LOGGING false).done q (leBytes 4 (s.rd (B.PLOT p) R.PLOT_LOG_PROD_PROD)))

/-! ### Pause and resume (R318) -/

def execPlotPause (q : Req) (s : State) : Res :=
  .next (s.plotCommand q 0x020C false false fun _ p s =>
    (((s.wr (B.VF p) R.PLOT_STATE_STATE 2).updateWaits).addJob q 0x020C p).endPlotJobs p)

def execPlotResume (q : Req) (s : State) : Res :=
  .next (s.plotCommand q 0x020D false false fun _ p s =>
    (((s.wr (B.VF p) R.PLOT_STATE_STATE 1).releasePlot p).updateWaits).done q [])

/-! ### Save and restore (R319, R320) -/

/-- The values of a queue-pair record. -/
def State.qpFacts (s : State) (p q : Nat) : List Nat :=
  let x := s.qp (qpKey p q)
  let b := s.qpRegs p q + 0x1000
  let db := fun k => match x.heldDb.find? (·.1 = k) with
    | some e => e.2 + 1
    | none => 0
  [q, x.cls, x.txLog, x.rxLog, x.txBase, x.txc.base, x.rxBase, x.rxc.base, x.txCons, x.rxCons, x.txc.prod, x.rxc.prod,
   (s.reg (b + 0x14)).toNat, (s.reg (b + 0x18)).toNat, (s.reg (b + 0x1C)).toNat, x.txProd, x.rxProd, x.txc.cons, x.rxc.cons,
   bit x.txc.armed, bit x.rxc.armed, db 0, db 1, db 2, db 3]

/-- Values in a queue-pair record, and in the header before them. -/
def qpFactCount : Nat := 25
def headFactCount : Nat := 40

/-- The live queue pairs of a plot, in order of q. -/
def State.liveList (s : State) (p : Nat) : List Nat := (List.range 64).filter fun q => (s.qp (qpKey p q)).live

/-- Header values: version, KIND, generation, live queue pairs, mailbox flags and SEQ values, queue table. -/
def State.headFacts (s : State) (p : Nat) : List Nat :=
  let x := s.plot p
  [1, bit (s.isStorage p), s.plotGen p % 2 ^ 16, (s.liveList p).length, bit x.txMsg.isSome,
   bit (s.flag (B.VF p) R.PLOT_MBX_STATUS_RX_FULL), x.txSeq, x.rxSeq]
    ++ (List.range 32).map fun i => (s.reg (B.PLOT p + 0x200 + 4 * i)).toNat

/-- The running state of a plot as PLOT_SAVE writes it. -/
def State.savedPlot (s : State) (p : Nat) : List Byte :=
  let ls := s.liveList p
  let tx := match (s.plot p).txMsg with
    | some (seq, gen, l) => leBytes 2 seq ++ leBytes 1 l.length ++ leBytes 1 0 ++ leBytes 2 gen ++ leBytes 2 0 ++ fit 232 l
    | none => []
  fit (64 + 64 * ls.length) (Config.savedState (s.headFacts p ++ ls.flatMap (s.qpFacts p)))
    ++ fit 256 tx ++ fit 256 (bytesAt s.mem (B.VF p + 0x2200) 240)

def execPlotSave (q : Req) (s : State) : Res :=
  .next (s.plotCommand q 0x020E false false fun c p s =>
    let l := s.savedPlot p
    match s.fnOfPlot p with
    | none => s.finish q St.BAD_ARGUMENT
    | some (m, _) =>
      if s.plotState p ≠ 2 || c.u32 24 < l.length || !s.windowOk (s.plotBase m) (c.u64 16) l.length true then s.finish q St.BAD_ARGUMENT
      else (s.postWrite m 0 (c.u64 16) l).done q (leBytes 4 l.length))

/-- A queue pair as its record gives it; N of R297 is not saved, and is a free value. -/
def State.restoreQp (s : State) (p : Nat) (r : List Nat) : State :=
  let g := fun i => r.getD i 0
  let (n, s) := s.draw
  let ring := fun base prod cons armed : Nat => ({ base := base, prod := prod, cons := cons, armed := armed = 1, n := n % 2 ^ 16, times := [] } : CplRing)
  let held := (List.range 4).filterMap fun k => if g (21 + k) = 0 then none else some (k, g (21 + k) - 1)
  let x : Qp := { Qp.init with cls := g 1, txLog := g 2, rxLog := g 3, txBase := g 4, rxBase := g 6,
                               txc := ring (g 5) (g 10) (g 17) (g 19), rxc := ring (g 7) (g 11) (g 18) (g 20),
                               txCons := g 8, rxCons := g 9, txProd := g 15, rxProd := g 16, heldDb := held }
  let s := s.makeQp p (g 0) x
  let b := s.qpRegs p (g 0) + 0x1000
  ((s.wrW (b + 0x14) (g 12)).wrW (b + 0x18) (g 13)).wrW (b + 0x1C) (g 14)

/-- The next generation above g whose low 16 bits are those of a saved one (R320). -/
def genWithLow (g low : Nat) : Nat :=
  let n := g / 2 ^ 16 * 2 ^ 16 + low
  (if n ≤ g then n + 2 ^ 16 else n) % 2 ^ 32

/-- The saved rings lie in the plot's windows. -/
def State.savedRingsOk (s : State) (p : Nat) (rs : List (List Nat)) : Bool :=
  rs.all fun r => s.ringsOk p { Qp.init with txLog := r.getD 2 0, rxLog := r.getD 3 0, txBase := r.getD 4 0, rxBase := r.getD 6 0,
                                             txc := { CplRing.init with base := r.getD 5 0 }, rxc := { CplRing.init with base := r.getD 7 0 } }

/-- The message of a 256-byte mailbox image. -/
def imageMsg (l : List Byte) : Nat × Nat × List Byte := (blkAt l 0 2, blkAt l 4 2, (l.drop 8).take (blkAt l 2 1))

def execPlotRestore (q : Req) (buf : Fetch) (s : State) : Res :=
  .next (s.plotCommand q 0x020F false false fun c p s =>
    s.withBuffer q (c.u64 16) (c.u32 24) buf (·.finish q St.BAD_ARGUMENT) fun l s =>
      let facts := Config.savedFacts l
      let h := fun i => facts.getD i 0
      let n := h 3
      let rs := chunksOf qpFactCount n (facts.drop headFactCount)
      if c.u32 24 < 576 + 64 * n || 64 < n || h 0 ≠ 1 || (h 1 = 1) ≠ s.isStorage p || s.rd (B.PLOT p) R.PLOT_CFG_QP_MAX < n
          || !s.savedRingsOk p rs || s.liveQps p ≠ 0 || s.ctlOn p || h 2 % 2 ^ 16 = 0 || rs.any (fun r => 64 ≤ r.getD 0 0)
          || 8192 < s.allQps + n then
        s.finish q St.BAD_ARGUMENT
      else
        let s := rs.foldl (fun s r => s.restoreQp p r) s
        let s := (List.range 32).foldl (fun s i => s.wrW (B.PLOT p + 0x200 + 4 * i) (h (8 + i))) s
        let area := l.drop (64 + 64 * n)
        let s := { s with mem := putBytes s.mem (B.VF p + 0x2200) ((area.drop 256).take 240) }
        let s := s.setPlot p { s.plot p with txSeq := h 6, rxSeq := h 7, txMsg := if h 4 = 1 then some (imageMsg area) else none }
        let s := (s.wrB (B.VF p) R.PLOT_MBX_STATUS_TX_BUSY (h 4 = 1)).wrB (B.VF p) R.PLOT_MBX_STATUS_RX_FULL (h 5 = 1)
        let s := if h 4 = 1 then s.msgArrives p else s
        let s := s.wr (B.PLOT p) R.PLOT_XGEN_XGEN (genWithLow (s.plotGen p) (h 2 % 2 ^ 16))
        (s.wr (B.VF p) R.PLOT_STATE_STATE 2).done q (leBytes 2 (s.plotGen p % 2 ^ 16)))

end Sys2Proof.Machine
end

