-- ==== Sys2Proof/Machine/Drives.lean ====
section
/-! DEFINITION. The drive pool, the volumes and the extents: links and failures of drives, admission and retirement,
rebuild, destage, and the pool and volume commands (R351 to R359, R367, R381, R469). -/
namespace Sys2Proof.Machine

/-! ### Drives (R351, R352) -/

def DriveSt.code : DriveSt → Nat
  | .absent => 0 | .new => 1 | .member => 2 | .retiring => 3 | .failed => 4

/-- An entry changed in S1, and on the drives where it has been persisted (Table 15.3). -/
def State.editExt (s : State) (i : Nat) (f : Nat → Nat) : State :=
  let s := s.setExt i (f (s.ext i))
  let e := tget (fun _ => 0) s.silo.meta_ i
  if Ext.valid e then s.keepExt i (f e) else s

/-- Bit c for each column c of an entry that lies on a drive of the list. -/
def colsOn (e : Nat) (bad : Nat → Bool) : Nat :=
  ((Ext.drives e).zipIdx.map fun d => if bad d.1 then 2 ^ d.2 else 0).sum

/-- Columns of an entry become missing or stale. -/
def State.markStale (s : State) (i cols : Nat) : State :=
  if cols = 0 then s else (s.editExt i fun e => Ext.setDegraded e true).setStale i (s.staleCols i ||| cols)

/-- A drive becomes FAILED: every column on it is degraded (R352). -/
def State.failDrive (s : State) (d : Nat) : State :=
  let s := s.setDrive d { s.drive d with st := .failed, downAt := none }
  let s := s.silo.map.foldl (fun s e => if Ext.valid e.2 then s.markStale e.1 (colsOn e.2 (· = d)) else s) s
  s.raise 29 d 0

/-- A drive still holds a column. -/
def State.holdsCols (s : State) (d : Nat) : Bool := s.silo.map.any fun e => Ext.valid e.2 && (Ext.drives e.2).contains d

/-- RETIRING drives whose last column has moved are NEW (Table 15.1). -/
def State.retireDone (s : State) : State :=
  (List.range 32).foldl (fun s d =>
    if (s.drive d).st = .retiring && !s.holdsCols d then s.setDrive d { s.drive d with st := .new } else s) s

/-- A drive's link comes up: an absent drive is NEW, one of the pool is there again. -/
def execDriveLinkUp (d : DriveIx) (cap : Nat) (fits : Bool) (s : State) : Res :=
  let x := s.drive d
  if x.up || !s.domOn (domDP d) then .next s
  else match x.st with
    | .absent => .next (s.setDrive d { x with st := .new, up := true, cap := cap, fit := fits, errs := [] })
    | .new | .member | .retiring | .failed => .next (s.setDrive d { x with up := true, downAt := none })

/-- A drive's link goes down: removal of a NEW or FAILED drive, and the start of the 1 s count of one of the pool. -/
def execDriveLinkDown (d : DriveIx) (s : State) : Res :=
  let x := s.drive d
  if !x.up then .next s
  else match x.st with
    | .absent | .new | .failed => .next (s.setDrive d Drive.none)
    | .member | .retiring => .next (s.setDrive d { x with up := false, downAt := some s.now })

/-- The failures of a MEMBER drive (R352): a link-down for more than 1 s, a command timeout, a write error, and the eighth
unrecovered read error within 24 h. -/
def execDriveFailure (d : DriveIx) (how : DriveEnd) (s : State) : Res :=
  let x := s.drive d
  if x.st ≠ .member then .next s
  else match how with
    | .linkDown => match x.downAt with
      | some t => .next (if t + ms 1000 < s.now then s.failDrive d else s)
      | none => .next s
    | .timeout | .writeError => .next (s.failDrive d)
    | .readError =>
      let errs := (x.errs.filter fun t => decide (s.now ≤ t + 24 * 3600 * ms 1000)) ++ [s.now]
      let s := s.setDrive d { x with errs := errs }
      .next (if 8 ≤ errs.length then s.failDrive d else s)

/-! ### Commands on drives (R351, R352, Table 15.11) -/

/-- A Silo command runs while PD74 is on. -/
def State.siloCommand (s : State) (q : Req) (opcode : Nat) (k : Cmd → State → State) : State :=
  s.command q opcode fun c s => if s.domOn 74 then k c s else s.finish q St.BAD_ARGUMENT

/-- DRIVE_SET: three rows share the opcode, and byte 9 says which of them it is; the admit row answers a value that is
none of theirs. -/
def State.driveSet (s : State) (q : Req) (op : Nat) (k : Nat → State → State) : State :=
  s.siloCommand q 0x0501 fun c s =>
    if 32 ≤ c.u8 8 || 2 < c.u8 9 then s.finish q St.BAD_ARGUMENT
    else if c.u8 9 ≠ op then s
    else k (c.u8 8) s

/-- Granules of the pool. -/
def State.poolRaw (s : State) : Nat :=
  ((List.range 32).map fun d => if (s.drive d).st = .member || (s.drive d).st = .retiring then (s.drive d).cap else 0).sum

/-- Granules that columns take on the drives of the pool. -/
def State.poolUsed_ (s : State) : Nat :=
  (s.silo.map.map fun e => if Ext.valid e.2 then
      schemeGran (Ext.scheme e.2) * ((Ext.drives e.2).filter fun d => (s.drive d).st = .member || (s.drive d).st = .retiring).length
    else 0).sum

def execDriveAdmit (q : Req) (s : State) : Res :=
  .next (s.driveSet q 0 fun d s =>
    let x := s.drive d
    if x.st ≠ .new || !x.fit then s.finish q St.BAD_ARGUMENT
    else if 2 ^ 31 < s.poolRaw + x.cap then s.finish q St.NO_RESOURCE
    else (s.setDrive d { x with st := .member, errs := [], downAt := none }).done q [])

def execDriveRetire (q : Req) (s : State) : Res :=
  .next (s.driveSet q 1 fun d s =>
    let x := s.drive d
    if x.st ≠ .member then s.finish q St.BAD_ARGUMENT
    else
      let s := s.setDrive d { x with st := .retiring }
      let s := s.silo.map.foldl (fun s e => if Ext.valid e.2 && (Ext.drives e.2).contains d then
        s.editExt e.1 fun e => Ext.setMoving e true else s) s
      s.retireDone.done q [])

def execDriveFail (q : Req) (s : State) : Res :=
  .next (s.driveSet q 2 fun d s =>
    if (s.drive d).st ≠ .member then s.finish q St.BAD_ARGUMENT else (s.failDrive d).done q [])

def execPoolStatus (q : Req) (s : State) : Res :=
  .next (s.siloCommand q 0x0500 fun _ s =>
    s.done q ((List.range 32).map (fun d => BitVec.ofNat 8 (s.drive d).st.code) ++ leBytes 8 s.poolRaw
      ++ leBytes 8 (s.poolRaw - s.poolUsed_)))

/-! ### Rebuild and re-placement (R357) -/

/-- Columns of an entry that can be read. -/
def State.readable (s : State) (i : Nat) : Nat :=
  ((Ext.drives (s.ext i)).zipIdx.filter fun d => s.driveOn d.1 && !bitOf (s.staleCols i) d.2).length

/-- An entry takes a new SLOT: fresh columns, written to the metadata of their drives. -/
def State.replace (s : State) (i : Nat) : Option State :=
  let e := s.ext i
  match s.place (Ext.scheme e) with
  | (none, _) => none
  | (some (g, ds), s) =>
    let e := Ext.mk (Ext.scheme e) (Ext.volume e) g ds
    some (((s.setExt i e).setStale i 0).keepExt i e)

/-- A background rebuild or move of one extent has been written (R357). -/
def execRebuildExtentDone (v : Fin 4096) (x : Nat) (s : State) : Res :=
  let i := s.extIx v x
  let e := s.ext i
  if !s.domOn 74 || !(s.vol v).live || (s.vol v).extents ≤ x || !Ext.valid e || !(Ext.degraded e || Ext.moving e)
      || s.readable i < schemeNeed (Ext.scheme e) then .next s
  else match s.replace i with
    | none => .next s
    | some s => .next s.retireDone

/-! ### Destage (R355, R356, R366, R367) -/

/-- A write ends: its entry in the queues goes, and its submitter gets its completion; in Nvme.lean's terms. -/
def State.cqe (s : State) (src : Nat × Nat × Nat) (status dw0 : Nat) : State :=
  let (p, y, cid) := src
  let c := s.ctl p
  let sq := tget (fun _ => Nq.none) c.sqs y
  let cq := tget (fun _ => Nq.none) c.cqs sq.cq
  if !sq.live || !cq.live then s
  else match s.fnOfPlot p with
    | none => s
    | some (m, f) =>
      let addr := cq.base + 16 * cq.tail
      if !s.windowOk p addr 16 true then s.windowErr p
      else
        let dw3 := cid + 2 ^ 16 * bit cq.phase + 2 ^ 17 * status
        let s := (s.logWrite p addr 16).postWrite m f addr
          (leBytes 4 dw0 ++ leBytes 4 0 ++ leBytes 4 (sq.head + 2 ^ 16 * y) ++ leBytes 4 dw3)
        let wrap := decide (cq.size ≤ cq.tail + 1)
        let cq' := { cq with tail := if wrap then 0 else cq.tail + 1, phase := if wrap then !cq.phase else cq.phase }
        let s := s.setCtl p { c with cqs := tput (fun _ => Nq.none) c.cqs sq.cq cq' }
        if cq.ien then s.interrupt m f cq.cq else s

/-- Status field: SC in bits 7 to 0, SCT above, DNR in bit 14 (Table 15.6). -/
def nvmeStatus (sct sc : Nat) (dnr : Bool) : Nat := sc + 2 ^ 8 * sct + 2 ^ 14 * bit dnr
def Nvme.ok : Nat := 0
def Nvme.invalidOpcode : Nat := nvmeStatus 0 0x01 true
def Nvme.invalidField : Nat := nvmeStatus 0 0x02 true
def Nvme.transfer : Nat := nvmeStatus 0 0x04 true
def Nvme.aborted : Nat := nvmeStatus 0 0x07 false
def Nvme.badNamespace : Nat := nvmeStatus 0 0x0B true
def Nvme.writeProtected : Nat := nvmeStatus 0 0x20 false
def Nvme.lbaRange : Nat := nvmeStatus 0 0x80 true
def Nvme.capacity : Nat := nvmeStatus 0 0x81 false
def Nvme.notReady : Nat := nvmeStatus 0 0x82 false
def Nvme.unrecovered : Nat := nvmeStatus 2 0x81 false

/-- A command's completion, with an error-log entry for one that failed (Table 15.5). -/
def State.complete (s : State) (src : Option (Nat × Nat × Nat)) (status : Nat) : State :=
  match src with
  | none => s
  | some x =>
    let c := s.ctl x.1
    let s := if status = 0 then s else s.setCtl x.1 { c with errlog := ((x.2.1, x.2.2, status) :: c.errlog).take 64 }
    (s.cqe x status 0).endPlotJobs x.1

/-- VAULT_PENDING clears once every restored block has been destaged (R89), and what waits for the destage goes on: the
volume's deletion, a transition to Survey. -/
def State.destageEnds (s : State) : State :=
  let s := if s.flag B.DEV R.DEV_MODE_VAULT_PENDING && s.vault.hdr = 3 && s.silo.restored = [] && s.silo.restoring.isSome then
      let s := s.onSilo fun c => { c with restoring := none }
      ((s.onVault fun v => { v with pending := false }).wrB B.DEV R.DEV_MODE_VAULT_PENDING false).updateWriteback
    else s
  s.advance.testWaiting

/-- Blocks of volume v. -/
def State.volDirty (s : State) (v : Nat) : Nat := (s.silo.cache.filter fun b => b.vol = v && b.dirty).length

/-- A volume goes, with its blocks, entries, data and marks (R381). -/
def State.deleteVol (s : State) (v : Nat) : State :=
  let x := s.vol v
  let mine := fun i : Nat => decide (x.base ≤ i) && decide (i < x.base + x.extents)
  let s := s.onSilo fun c =>
    { c with map := tdrop mine c.map, meta_ := tdrop mine c.meta_, stale := tdrop mine c.stale,
             disk := tdrop (fun k => k / 2 ^ 40 = v) c.disk, badBlks := c.badBlks.filter (fun k => k / 2 ^ 40 ≠ v), cache := c.cache.filter (·.vol ≠ v),
             restored := c.restored.filter (fun k => k / 2 ^ 40 ≠ v), marks := c.marks.filter (fun i => !mine i),
             vols := tput (fun _ => Vol.none) c.vols v Vol.none }
  s.retireDone.destageEnds

/-- A VOL_DELETE that waited for the destage ends. -/
def State.endDeletes (s : State) (v : Nat) : State :=
  if s.held [0x0503] v && s.volDirty v = 0 then (s.deleteVol v).endJobs 0x0503 v (Final.mk' St.DONE 0 []) else s

/-- The columns that a destage reached: on a drive that is there, and not among those whose write failed. -/
def State.columnsWritten (s : State) (i : Nat) (bad : List DriveIx) : List Nat :=
  ((Ext.drives (s.ext i)).zipIdx.filter fun d => s.driveOn d.1 && bad.all (fun b => b.val ≠ d.1)).map (·.2)

/-- The protection minimum (Table 15.2): for a mirror every copy on a drive not FAILED, and one at least. -/
def State.minimumMet (s : State) (i : Nat) (cols : List Nat) : Bool :=
  let e := s.ext i
  if Ext.scheme e < 2 then
    cols ≠ [] && (Ext.drives e).zipIdx.all fun d => (s.drive d.1).st = .failed || cols.contains d.2
  else decide (schemeNeed (Ext.scheme e) ≤ cols.length)

/-- The extent is done: dirty blocks release their reservations and turn CLEAN; those of a write-through write wait for
the rest of it (R356, R366). -/
def State.extentDone (s : State) (v x upTo : Nat) : State :=
  let through := fun (b : Block) => b.st = .staging && s.silo.writes.any fun w => w.id = b.seq && w.through && w.staged
  let takes := fun (b : Block) => b.vol = v && extOf b.lba = x && (through b || (b.dirty && decide (b.seq ≤ upTo)))
  let mine := s.silo.cache.filter takes
  let s := (mine.filter Block.dirty).foldl (fun (s : State) (b : Block) => s.setDisk v b.lba b.data) s
  let s := s.countN (B.SILO + C.SILO_DESTAGED) mine.length
  let s := s.onSilo fun c =>
    { c with cache := c.cache.map (fun b => if takes b then
                        (if b.dirty then { b with st := .clean, held := false } else { b with st := .written }) else b),
             restored := c.restored.filter (fun k => !(mine.any fun b => diskKey b.vol b.lba = k)) }
  s.setVol v { s.vol v with blocked := false }

/-- A request joins the end of the ledger's queue; in write-back one that has to wait there is counted (R369, R382). -/
def State.enqueueWrite (s : State) (id n : Nat) : State :=
  let waits := s.flag B.DEV R.DEV_MODE_WRITEBACK && (s.silo.waiting ≠ [] || !s.grantFits n)
  let s := s.onSilo fun c => { c with waiting := c.waiting ++ [id] }
  if waits then s.count (B.SILO + C.SILO_GRANT_WAITS) else s

/-- An acknowledged write leaves: the part that follows it takes its turn, or the command completes (R361). What a part has
written stands, so the parts after it cannot be aborted (R364). -/
def State.writeAcked (s : State) (w : WOp) : State :=
  let s := s.count (B.SILO + C.SILO_WRITES_ACKED)
  match w.parts with
  | [] => s.complete w.src Nvme.ok
  | (lba, n) :: rest =>
    let id := s.silo.nextId
    (s.onSilo fun c =>
      { c with writes := c.writes ++ [{ w with id := id, lba := lba, n := n, parts := rest, granted := false, began := true,
                                               staged := false, peer := none }],
               nextId := id + 1 }).enqueueWrite id n

/-- Write-through writes with every block on the drives are acknowledged, in the order of their arrival; their data is
seen from then on (R365, R366). A write to a replicated volume waits for the peer as well (R23). -/
def State.ackThrough (s : State) : State :=
  s.silo.writes.foldl (fun s w =>
    let mine := s.silo.cache.filter fun b => b.inFlight && b.seq = w.id
    if w.through && w.staged && w.peer.isNone && mine.all (fun b => b.st = .written) then
      let s := mine.foldl (fun (s : State) (b : Block) => s.setDisk b.vol b.lba b.data) s
      (s.settleWrite w.id .clean false).writeAcked w
    else s) s

/-- A volume enters WRITE_BLOCKED; a VOL_DELETE that waits for its destage cannot go on (R356, R381). -/
def State.blockVol (s : State) (v : Nat) : State :=
  (s.setVol v { s.vol v with blocked := true }).endJobs 0x0503 v (Final.mk' St.BUSY_RETRY 1000 [])

/-- A destage of extent x of volume v ends: it took what was acknowledged up to a sequence, and the writes to some drives
failed (R356). -/
def execDestageExtentDone (v : Fin 4096) (x upTo : Nat) (bad : List DriveIx) (s : State) : Res :=
  let i := s.extIx v x
  let vol := s.vol v
  let work := s.silo.cache.any fun b => b.vol = v && extOf b.lba = x && (b.st = .staging || b.dirty)
  if !s.domOn 74 || !s.domOn 65 || s.mode = .fallow || s.mode = .drain || !vol.live || !vol.online || !work then .next s
  else
    let finish := fun s : State => .next ((((s.extentDone v x upTo).ackThrough).endDeletes v).destageEnds)
    match s.allocate v x with
    | none => .next (s.blockVol v)
    | some s =>
      let cols := s.columnsWritten i bad
      let missing := (List.range (schemeCols (Ext.scheme (s.ext i)))).filter fun c => !cols.contains c
      if s.minimumMet i cols then finish ((s.keepExt i (s.ext i)).markStale i ((missing.map fun c => 2 ^ c).sum))
      else match s.replace i with
        | some s => finish (s.count (B.SILO + C.SILO_REPLACED)).retireDone
        | none => .next (s.blockVol v)

/-! ### Volume commands (R358, R359, R381, R469, R75) -/

/-- A run of map entries is free. -/
def State.runFree (s : State) (base n : Nat) : Bool :=
  decide (base + n ≤ 2 ^ 28) && s.silo.vols.all fun e => decide (base + n ≤ e.2.base) || decide (e.2.base + e.2.extents ≤ base)

/-- The attachment that a volume has: 16 · plot + NSID - 1. -/
def State.attOf (s : State) (v : Nat) : Option Nat := (s.silo.atts.find? fun e => e.2 = v + 1).map (·.1)

/-- The volume is attached to a plot of another host port (R75). -/
def State.volForeign (s : State) (q : Req) (v : Nat) : Bool :=
  match q, (s.attOf v).bind fun k => s.fnOfPlot (k / 16) with
  | .host m _, some (m', _) => decide (m.val / 2 ≠ m' / 2)
  | _, _ => false

/-- A command on a live volume, which no long command holds. -/
def State.volCommand (s : State) (q : Req) (opcode : Nat) (k : Cmd → Nat → State → State) : State :=
  s.siloCommand q opcode fun c s =>
    let v := c.u16 8
    if 4096 ≤ v || !(s.vol v).live then s.finish q St.BAD_ARGUMENT
    else if s.volForeign q v then s.finish q St.REFUSED
    else if s.held [0x0503, 0x0522] v then s.busyRetry q 1000
    else k c v s

def execVolCreate (q : Req) (s : State) : Res :=
  .next (s.siloCommand q 0x0502 fun c s =>
    let v := c.u16 8
    let n := c.u32 12
    let key := c.bytes 16 48
    let kek := tget (fun _ => []) s.keks 1
    if 4096 ≤ v || 3 < c.u8 10 || n = 0 || 2 ^ 28 < n || (s.vol v).live then s.finish q St.BAD_ARGUMENT
    else if kek = [] || !s.domOn 77 then s.finish q St.REFUSED
    else if s.members.length < schemeCols (c.u8 10) then s.finish q St.NO_RESOURCE
    else if !s.kcuTakes 1 then s
    else match s.choose (fun b => s.runFree b n) 0 (2 ^ 28), Config.keyUnwrap false kek key with
      | (none, s), _ => s.finish q St.NO_RESOURCE
      | (some _, s), none => s.finish q St.REFUSED
      | (some b, s), some _ =>
        (s.setVol v { live := true, scheme := c.u8 10, extents := n, base := b, key := key, online := true, blocked := false }).done q
          (leBytes 4 b))

/-- A volume's writes have not all ended. R22 names no VOL_DELETE among what ends one: the command finishes with BUSY_RETRY, as while
the volume is attached (DESIGN CHOICE, assumption 22). -/
def State.volWriting (s : State) (v : Nat) : Bool := s.silo.writes.any fun w => w.vol = v

def execVolDelete (q : Req) (s : State) : Res :=
  .next (s.volCommand q 0x0503 fun c v s =>
    if (s.attOf v).isSome || s.volWriting v then s.busyRetry q 1000
    else if bitOf (c.u8 10) 0 then (s.deleteVol v).done q []
    else if (s.vol v).blocked || !(s.vol v).online then s.busyRetry q 1000
    else (s.addJob q 0x0503 v).endDeletes v)

/-- A namespace attribute change is noted for a controller, and the event goes out where a request is outstanding and
the event is enabled (Table 15.5, assumption 22). -/
def State.nsChanged (s : State) (p nsid : Nat) : State :=
  let c := s.ctl p
  if !s.ctlOn p then s
  else
    let c := { c with changed := if c.changed.contains nsid then c.changed else c.changed ++ [nsid] }
    let s := s.setCtl p c
    match c.aers with
    | cid :: rest =>
      if c.masked || !bitOf (tget (fun _ => 0) c.features 0x0B) 8 then s
      else (s.setCtl p { c with aers := rest, masked := true }).cqe (p, 0, cid) Nvme.ok 0x0004_0002
    | [] => s

/-- Class 0x05 commands that name a plot. -/
def State.attCommand (s : State) (q : Req) (opcode : Nat) (k : Cmd → Nat → State → State) : State :=
  s.plotCommand q opcode false false fun c p s =>
    if !s.domOn 74 || !s.isStorage p || c.u8 10 = 0 || 16 < c.u8 10 then s.finish q St.BAD_ARGUMENT
    else k c p s

def execVolAttach (q : Req) (s : State) : Res :=
  .next (s.attCommand q 0x0504 fun c p s =>
    let v := c.u16 12
    let k := 16 * p + c.u8 10 - 1
    if 4096 ≤ v || !(s.vol v).live then s.finish q St.BAD_ARGUMENT
    else if s.volForeign q v then s.finish q St.REFUSED
    else if s.held [0x0503, 0x0522] v then s.busyRetry q 1000
    else if (s.attOf v).isSome || tget (fun _ => 0) s.silo.atts k ≠ 0 then s.finish q St.BAD_ARGUMENT
    else ((s.onSilo fun x => { x with atts := tput (fun _ => 0) x.atts k (v + 1) }).nsChanged p (c.u8 10)).done q [])

def execVolDetach (q : Req) (s : State) : Res :=
  .next (s.attCommand q 0x0505 fun c p s =>
    let k := 16 * p + c.u8 10 - 1
    if tget (fun _ => 0) s.silo.atts k = 0 then s.finish q St.BAD_ARGUMENT
    else ((s.onSilo fun x => { x with atts := tput (fun _ => 0) x.atts k 0 }).nsChanged p (c.u8 10)).done q [])

def execVolStatus (q : Req) (s : State) : Res :=
  .next (s.volCommand q 0x0506 fun _ v s =>
    let x := s.vol v
    let es := s.volEntries v
    s.done q (leBytes 4 (if !x.online then 2 else if x.blocked then 1 else 0) ++ leBytes 4 es.length
      ++ leBytes 4 (es.filter fun e => Ext.degraded e.2).length ++ leBytes 4 (s.volDirty v)))

end Sys2Proof.Machine
end

