-- ==== Sys2Proof/Machine/Conduit.lean ====
section
/-! DEFINITION. Conduit replication: the sender and its retransmit buffer, the receiver's table, failure, and the
Conduit commands (R23, R377 to R379, R381). -/
namespace Sys2Proof.Machine

def connCnt (c x : Nat) : Nat := B.CND + 0x40 * c + x

/-- The enabled connection that pairs a volume, lowest first (assumption 24); it may be down or failed (R99, R379). -/
def State.connOf (s : State) (v : Nat) : Option Nat :=
  (List.range 64).find? fun c => s.flag (connBase c) R.CND_CONN_CFG_EN && (s.conn c).localVol = some v

/-- A connection that is not up treats writes as FAILMODE 1 says: they complete with Namespace Not Ready (R99, R379). -/
def State.connClosed (s : State) (c : Nat) : Bool := s.connState c ≠ 1 && s.flag (connBase c) R.CND_CONN_CFG_FAILMODE

def psnAdd (a n : Nat) : Nat := (a + n) % 2 ^ 24
/-- a - b modulo 2^24. -/
def psnSub (a b : Nat) : Nat := (a + 2 ^ 24 - b % 2 ^ 24) % 2 ^ 24

/-! ### Failure and marks (R377, R379) -/

/-- A write that has not been acknowledged leaves with Namespace Not Ready. -/
def State.notReadyWrite (s : State) (w : WOp) : State := (s.dropWrite w.id).complete w.src Nvme.notReady

/-- A connection fails: the fault, marks for what the peer has not acknowledged, and FAILMODE for the writes that wait for the
peer (R379, Table 15.10). -/
def State.failConn (s : State) (c : Nat) : State :=
  let ws := if s.flag (connBase c) R.CND_CONN_CFG_FAILMODE then s.silo.writes.filter fun w => w.peer.any fun x => x.1 = c else []
  let s := ((s.wr (connBase c) R.CND_CONN_STATE_STATE 2).dropBuffer c).raise 23 c 0
  (ws.foldl State.notReadyWrite s).ackThrough

/-! ### Sending (R377) -/

/-- Data of a volume's LBAs as DATA packets of one block each; the buffer keeps them until they are acknowledged. -/
def State.sendData (s : State) (c : Nat) (blocks : List (Nat × List Byte)) : State :=
  blocks.foldl (fun s b =>
    let x := s.conn c
    let psn := s.rd (connBase c) R.CND_CONN_STATE_NEXT_PSN
    let s := s.setConn c { x with at_ := if x.sent = [] then s.now else x.at_
                                  sent := x.sent ++ [{ psn := psn, vol := x.peerVol, lba := b.1, data := b.2 }] }
    let s := if x.sent = [] then s.wr (connBase c) R.CND_CONN_OLDEST_OLDEST psn else s
    (s.wr (connBase c) R.CND_CONN_STATE_NEXT_PSN (psnAdd psn 1)).emit (.conduit c "DATA" psn b.2)) s

/-- The n packets that come next would lie more than 2^23 ahead of the oldest entry of the retransmit buffer (R377). -/
def State.psnFar (s : State) (c n : Nat) : Bool :=
  match (s.conn c).sent with
  | [] => false
  | p :: _ => decide (2 ^ 23 < psnSub (s.rd (connBase c) R.CND_CONN_STATE_NEXT_PSN) p.psn + n - 1)

/-- Packets of a connection may be sent: fewer than 2^22 stay unacknowledged, and the retransmit buffers of all connections, of one
block a packet, keep within 2 GiB (R20). -/
def State.sendRoom (s : State) (c n : Nat) : Bool :=
  decide ((s.conn c).sent.length + n < 2 ^ 22)
    && decide (4096 * (((s.silo.conns.map fun e => e.2.sent.length).sum) + n) ≤ 2 ^ 31)

/-- A write whose blocks are in S0 goes to the peer: it waits for the acknowledgement of its last packet. Where the connection is not
up FAILMODE says what becomes of it: its extents are marked, or it ends (R23, R379). -/
def State.replicate (s : State) (w : WOp) (blocks : List (Nat × List Byte)) : State :=
  match s.connOf w.vol with
  | none => s
  | some c =>
    let s := if s.connState c = 1 && s.psnFar c w.n then s.failConn c else s
    if s.connClosed c then s.notReadyWrite w
    else if s.connState c ≠ 1 then s.markExts w.vol w.lba w.n
    else
      let s := s.sendData c blocks
      let last := psnSub (s.rd (connBase c) R.CND_CONN_STATE_NEXT_PSN) 1
      s.onWrite w.id fun w => { w with peer := some (c, last) }

/-- The retransmit buffer is sent again from its oldest packet. -/
def State.resend (s : State) (c : Nat) : State :=
  let l := (s.conn c).sent
  let s := s.setConn c { s.conn c with at_ := s.now }
  let s := s.countN (connCnt c C.CND_RETRANSMITS) l.length
  l.foldl (fun (s : State) (p : CPkt) => s.emit (.conduit c "DATA" p.psn p.data)) s

/-- A retransmission: after eight without progress the connection fails instead. -/
def State.retry (s : State) (c : Nat) : State :=
  let x := s.conn c
  if 8 ≤ x.tries then s.failConn c else (s.setConn c { x with tries := x.tries + 1 }).resend c

/-- A packet from the peer belongs to the connection: it is up and the generation is its own (R378). -/
def State.connTakes (s : State) (c gen : Nat) : Bool :=
  s.domOn 74 && s.connState c = 1 && s.rd (connBase c) R.CND_CONN_CFG_GEN = gen

/-- R377: an acknowledgement covers every packet up to its PSN. -/
def execConduitAckRx (c : Conn) (gen psn : Nat) (s : State) : Res :=
  if !s.connTakes c gen then .next s
  else
    let x := s.conn c
    let covered := fun (q : Nat) => decide (psnSub psn q < 2 ^ 23)
    let left := x.sent.filter fun p => !covered p.psn
    if left.length = x.sent.length then .next s
    else
      let s := s.setConn c { x with sent := left, tries := 0, rto := 1, at_ := s.now }
      let next := s.rd (connBase c) R.CND_CONN_STATE_NEXT_PSN
      let s := s.wr (connBase c) R.CND_CONN_OLDEST_OLDEST ((left.map (·.psn)).headD next)
      let s := s.onSilo fun y => { y with writes := y.writes.map fun w =>
        if (w.peer.any fun z => z.1 = c.val && covered z.2) then { w with peer := none } else w }
      .next s.ackThrough

/-- R377: a NAK retransmits from the oldest unacknowledged packet. -/
def execConduitNakRx (c : Conn) (gen : Nat) (s : State) : Res :=
  .next (if s.connTakes c gen && (s.conn c).sent ≠ [] then s.retry c else s)

/-- R377: RTO has passed without an ACK: it doubles, to at most 32 times 100 µs. -/
def execConduitRto (c : Conn) (s : State) : Res :=
  let x := s.conn c
  .next (if s.domOn 74 && s.connState c = 1 && x.sent ≠ [] && decide (x.at_ + x.rto * us 100 ≤ s.now) then (s.setConn c { x with rto := min 32 (2 * x.rto) }).retry c else s)

/-- R378: 50 µs after an RNR NAK the sender sends again, without counting a try. -/
def execConduitRnrRetry (c : Conn) (s : State) : Res :=
  .next (if s.domOn 74 && s.connState c = 1 && (s.conn c).sent ≠ [] then s.resend c else s)

/-! ### Receiving (R378, Table 15.9) -/

/-- A replicated write of one block is DIRTY in S0 under a reservation of its own; none where no grant can be had. -/
def State.peerWrite (s : State) (v lba : Nat) (data : List Byte) : Option State :=
  let x := s.vol v
  if !s.flag B.DEV R.DEV_MODE_WRITEBACK || !x.live || !x.online || x.blocked || 256 * x.extents ≤ lba || s.silo.waiting ≠ []
      || !s.grantFits 1 then none
  else (s.allocate v (extOf lba)).map fun s =>
    let id := s.silo.nextId
    let s := s.onSilo fun c =>
      { c with nextId := id + 1,
               cache := roomIn c.cache 1 ++ [{ vol := v, lba := lba, data := fit 4096 data, st := .staging, seq := id, held := true }] }
    (s.settleWrite id .dirty true).count (B.SILO + C.SILO_WRITES_ACKED)

def execConduitDataRx (c : Conn) (gen psn lba : Nat) (data : List Byte) (s : State) : Res :=
  if !s.connTakes c gen then .next s
  else
    let e := s.rd (connBase c) R.CND_CONN_RX_EXPECT
    let d := psnSub psn e
    if d = 0 then
      match (s.conn c).localVol.bind fun v => s.peerWrite v lba data with
      | some s => .next ((s.wr (connBase c) R.CND_CONN_RX_EXPECT (psnAdd e 1)).emit (.conduit c "ACK" e []))
      | none => .next ((s.count (connCnt c C.CND_RNR)).emit (.conduit c "RNR" e []))
    else if d < 2 ^ 22 then .next ((s.count (connCnt c C.CND_OOO_RX)).emit (.conduit c "NAK" e []))
    else if d < 2 ^ 23 then .next (s.count (connCnt c C.CND_BAD_PSN))
    else .next ((s.count (connCnt c C.CND_DUP_RX)).emit (.conduit c "ACK" (psnSub e 1) []))

/-! ### Commands (Table 15.11) -/

/-- The blocks of a write that S0 holds. -/
def State.stagedBlocks (s : State) (w : WOp) : List (Nat × List Byte) :=
  (s.silo.cache.filter fun b => b.inFlight && b.seq = w.id).map fun b => (b.lba, b.data)

/-- A write that waited for the peer of connection c as the connection was set anew: it goes to the peer again, so that none is
acknowledged that the peer has not accepted (R23); where its volume is paired no more, its extents are marked and it goes on alone. -/
def State.rejoin (s : State) (c : Nat) (w : WOp) : State :=
  if !w.peer.any (fun z => z.1 = c) then s
  else
    let s := s.onWrite w.id fun w => { w with peer := none }
    if (s.connOf w.vol).isSome then s.replicate w (s.stagedBlocks w) else s.markExts w.vol w.lba w.n

/-- CND_CONN_SET: with EN 1 the connection starts at PSN 0 in both directions (assumption 24). What its old buffer held is marked,
and the writes that wait for the peer go to it again. -/
def execCndConnSet (q : Req) (s : State) : Res :=
  .next (s.siloCommand q 0x0520 fun c s =>
    let n := c.u8 8
    let cfg := c.u32 12
    let vol := c.u16 34
    if 64 ≤ n || 95 < bitsOf cfg 23 16 || 4096 ≤ c.u16 32 || 4096 ≤ vol || !(s.vol vol).live then s.finish q St.BAD_ARGUMENT
    else if s.volForeign q vol then s.finish q St.REFUSED
    else
      let b := connBase n
      let en := bitOf cfg 31
      let old := s.conn n
      let s := old.sent.foldl (fun (s : State) (p : CPkt) => s.markExts (old.localVol.getD 0) p.lba 1) s
      let s := s.wrW (b + R.CND_CONN_CFG_EN.off) (setBits cfg 29 24 0)
      let s := s.wrW (b + R.CND_CONN_STATE_STATE.off) (if en then 2 ^ 30 else 0)
      let s := (s.wr b R.CND_CONN_OLDEST_OLDEST 0).wr b R.CND_CONN_RX_EXPECT 0
      let s := s.setConn n { ConnSt.init with addr := c.bytes 16 16, peerVol := c.u16 32, localVol := some vol }
      (s.silo.writes.foldl (fun s w => s.rejoin n w) s).ackThrough.done q [])

def execCndStatus (q : Req) (s : State) : Res :=
  .next (s.siloCommand q 0x0521 fun c s =>
    let n := c.u8 8
    if 64 ≤ n then s.finish q St.BAD_ARGUMENT
    else s.done q ((List.range 4).flatMap fun i => leBytes 4 (s.reg (connBase n + R.CND_CONN_CFG_EN.off + 4 * i)).toNat))

/-- The blocks of an extent as a read sees them. -/
def State.extentBlocks (s : State) (v x : Nat) : List (Nat × List Byte) :=
  (List.range' (256 * x) 256).map fun lba => (lba, (s.lbaHit v lba).getD (s.lbaDisk v lba))

/-- R379: the marked extents of a volume are sent once its connection is up, as far as the sender has room. -/
def execVolResync (q : Req) (s : State) : Res :=
  .next (s.volCommand q 0x0522 fun _ v s =>
    match s.connOf v with
    | none => s.finish q St.BAD_ARGUMENT
    | some c =>
      if s.connState c ≠ 1 then s.busyRetry q 1000
      else
        let b := (s.vol v).base
        let room := (min (2 ^ 22 - 1 - (s.conn c).sent.length) (2 ^ 19 - (s.silo.conns.map fun e => e.2.sent.length).sum)) / 256
        let mine := ((s.silo.marks.filter fun i => decide (b ≤ i) && decide (i < b + (s.vol v).extents)).take room)
        let s := mine.foldl (fun s i => s.sendData c (s.extentBlocks v (i - b))) s
        (s.onSilo fun y => { y with marks := y.marks.filter fun i => !mine.contains i }).done q (leBytes 4 mine.length))

end Sys2Proof.Machine
end

