-- ==== Sys2Proof/Machine/Nvme.lean ====
section
/-! DEFINITION. The NVMe controllers of the storage plots: doorbells, admin and I/O commands, the write cache, the
ledger's grants (R22, R23, R360 to R366, R369). Layouts of the NVMe base specification are PRESUMED (assumption 22). -/
namespace Sys2Proof.Machine

/-! ### Registers and doorbells (R360, R362) -/

def State.sq (s : State) (p y : Nat) : Nq := tget (fun _ => Nq.none) (s.ctl p).sqs y
def State.cq (s : State) (p y : Nat) : Nq := tget (fun _ => Nq.none) (s.ctl p).cqs y
def State.setSq (s : State) (p y : Nat) (x : Nq) : State :=
  s.setCtl p { s.ctl p with sqs := tput (fun _ => Nq.none) (s.ctl p).sqs y x }
def State.setCq (s : State) (p y : Nat) (x : Nq) : State :=
  s.setCtl p { s.ctl p with cqs := tput (fun _ => Nq.none) (s.ctl p).cqs y x }

/-- A doorbell write of a storage plot's host: a value outside the queue is not taken (assumption 22). -/
def execNvmeSqDoorbell (p : PlotIx) (y : Nat) (v : Word) (s : State) : Res :=
  .next (s.vfWrite p fun s =>
    let x := s.sq p y
    if s.isStorage p && x.live && decide (v.toNat < x.size) then s.setSq p y { x with tail := v.toNat } else s)

def execNvmeCqDoorbell (p : PlotIx) (y : Nat) (v : Word) (s : State) : Res :=
  .next (s.vfWrite p fun s =>
    let x := s.cq p y
    if s.isStorage p && x.live && decide (v.toNat < x.size) then s.setCq p y { x with head := v.toNat } else s)

/-- R362: the host writes CC.EN 0. -/
def execControllerReset (p : PlotIx) (s : State) : Res :=
  .next (s.vfWrite p fun s =>
    if s.isStorage p then (s.wr (B.NVME p) R.NVME_CC_EN 0).ccWritten p (s.reg (B.NVME p + 0x14)).toNat else s)

/-- R362: the host writes CC.SHN. -/
def execShutdownNotification (p : PlotIx) (shn : Fin 4) (s : State) : Res :=
  .next (s.vfWrite p fun s =>
    if s.isStorage p then (s.wr (B.NVME p) R.NVME_CC_SHN shn.val).ccWritten p (s.reg (B.NVME p + 0x14)).toNat else s)

/-! ### Submission-queue entries -/

structure Sqe where
  op : Nat
  flags : Nat
  cid : Nat
  nsid : Nat
  prp1 : Nat
  prp2 : Nat
  d10 : Nat
  d11 : Nat
  d12 : Nat
  d13 : Nat
  deriving DecidableEq, Repr

def Sqe.of (l : List Byte) : Sqe :=
  { op := blkAt l 0 1, flags := blkAt l 1 1, cid := blkAt l 2 2, nsid := blkAt l 4 4, prp1 := blkAt l 24 8, prp2 := blkAt l 32 8,
    d10 := blkAt l 40 4, d11 := blkAt l 44 4, d12 := blkAt l 48 4, d13 := blkAt l 52 4 }

/-- Supported opcodes (Table 15.5). -/
def adminOps : List Nat := [0x00, 0x01, 0x02, 0x04, 0x05, 0x06, 0x08, 0x09, 0x0A, 0x0C]
def ioOps : List Nat := [0x00, 0x01, 0x02, 0x08, 0x09]

/-- The vault restore still holds submission fetch (R89). -/
def State.restorePending (s : State) : Bool :=
  s.modes.steps.any fun e => (e.1 = .restore || e.1 = .domains) && e.2 ≠ .done

/-- Submission fetch of a storage plot runs: not paused, and in Survey only once its transition has ended (R89, R97, R100,
R101, R318). -/
def State.storageFetch (s : State) (p : Nat) : Bool :=
  s.domOn 74 && s.domOn 65 && s.mode ≠ .fallow && s.mode ≠ .drain && !s.restorePending && s.isStorage p && s.plotState p = 1
    && (!s.modes.fetchPaused || (s.mode = .survey && !s.busy))

/-- Completion entries that a queue still owes. -/
def State.owed (s : State) (p y : Nat) : Nat :=
  (s.silo.writes.filter fun w => w.src.any fun x => x.1 = p && x.2.1 = y).length + (s.silo.reads.filter fun r => r.src.1 = p && r.src.2.1 = y).length

/-- The controller may fetch an entry of a queue (R360, R361). -/
def State.mayFetchSq (s : State) (p y : Nat) : Bool :=
  let b := B.NVME p
  let q := s.sq p y
  let c := s.cq p q.cq
  s.storageFetch p && s.flag b R.NVME_CSTS_RDY && !s.flag b R.NVME_CSTS_CFS && q.live && q.head ≠ q.tail && c.live
    && decide ((c.tail + c.size - c.head) % c.size + s.owed p y + 1 < c.size)
    && match s.fnOfPlot p with
      | some (m, f) => s.linkUp m && (s.fn m f).bme && (s.fn m f).flrAt.isNone && (s.fn m f).ready
      | none => false

/-- How a device read of host memory ends, as its link logs it (R262). -/
def fetchEnd : Fetch → DmaEnd
  | .ok _ => .ok
  | .ur | .window => .ur
  | .timeout => .timeout
  | .poisoned => .poisoned

/-- A failed device read for a plot is logged at its link (R262). -/
def State.logPlot (s : State) (p : Nat) (e : Fetch) : State :=
  match s.fnOfPlot p with
  | some (m, _) => s.logDma m (fetchEnd e)
  | none => s

/-- The requests of a device read for a plot, and those of a command's data, are issued (R260). -/
def State.plotRead (s : State) (p addr len : Nat) : State :=
  match s.fnOfPlot p with
  | some (m, f) => s.issueRead m f addr len
  | none => s
def State.readRuns (s : State) (p : Nat) (runs : List (Nat × Nat)) : State := runs.foldl (fun s r => s.plotRead p r.1 r.2) s

/-- R360: an entry is fetched, and the row whose opcode it carries runs it; one of no row ends with Invalid Opcode, a fused
command or one that does not use PRPs with Invalid Field; a failed fetch sets CSTS.CFS. -/
def State.fetchSqe (s : State) (p y op : Nat) (e : Fetch) (k : Sqe → State → State) : State :=
  let q := s.sq p y
  let addr := q.base + 64 * q.head
  if !s.mayFetchSq p y then s
  else if !s.windowOk p addr 64 false then (s.windowErr p).wrB (B.NVME p) R.NVME_CSTS_CFS true
  else
   let asked := s.plotRead p addr 64
   match e with
    | .ok l =>
      let x := Sqe.of (fit 64 l)
      let ops := if y = 0 then adminOps else ioOps
      if ops.contains x.op && x.op ≠ op then s
      else
        let s := asked.setSq p y { q with head := if q.size ≤ q.head + 1 then 0 else q.head + 1 }
        if !ops.contains x.op then s.complete (some (p, y, x.cid)) Nvme.invalidOpcode
        else if x.flags ≠ 0 then s.complete (some (p, y, x.cid)) Nvme.invalidField
        else k x s
    | e => (asked.logPlot p e).wrB (B.NVME p) R.NVME_CSTS_CFS true

def State.adminCmd (s : State) (p op : Nat) (e : Fetch) (k : Sqe → State → State) : State := s.fetchSqe p 0 op e k
def State.ioCmd (s : State) (p y op : Nat) (e : Fetch) (k : Sqe → State → State) : State :=
  if y = 0 then s else s.fetchSqe p y op e k

/-- An admin command ends. -/
def State.adminEnd (s : State) (p : Nat) (x : Sqe) (status dw0 : Nat) : State :=
  if status = 0 then (s.cqe (p, 0, x.cid) 0 dw0).endPlotJobs p else s.complete (some (p, 0, x.cid)) status

/-! ### Data pointers (R360, R261) -/

/-- Memory page size of the controller: 2^(12 + MPS). -/
def State.mps (s : State) (p : Nat) : Nat := 2 ^ (12 + s.rd (B.NVME p) R.NVME_CC_MPS)

/-- Entries of PRP lists that `left` bytes still need, page by page; the last entry of a full page leads to the next.
Every list page is checked before it is read. -/
def State.prpList (s : State) (p ps : Nat) : List Fetch → Nat → Nat → List (Nat × Nat) → State × Except Nat (List (Nat × Nat))
  | lists, addr, left, runs =>
    match lists with
    | [] => (s, .error Nvme.transfer)
    | f :: rest =>
      let room := (ps - addr % ps) / 8
      let need := (left + ps - 1) / ps
      let chain := decide (room < need)
      let n := if chain then room else need
      if addr % 8 ≠ 0 then (s, .error Nvme.invalidField)
      else if !s.windowOk p addr (8 * n) false then (s.windowErr p, .error Nvme.transfer)
      else
       let s := s.plotRead p addr (8 * n)
       match f with
        | .ok l =>
          let es := (List.range n).map fun i => blkAt l (8 * i) 8
          let data := if chain then es.dropLast else es
          if data.any (fun a => a % ps ≠ 0) then (s, .error Nvme.invalidField)
          else
            let runs := runs ++ data.zipIdx.map fun a => (a.1, min ps (left - ps * a.2))
            if chain then s.prpList p ps rest (es.getLastD 0) (left - ps * data.length) runs else (s, .ok runs)
        | f => (s.logPlot p f, .error Nvme.transfer)

/-- The contiguous runs of a data pointer of `len` bytes. -/
def State.prpRuns (s : State) (p : Nat) (x : Sqe) (len : Nat) (lists : List Fetch) : State × Except Nat (List (Nat × Nat)) :=
  let ps := s.mps p
  let n1 := min len (ps - x.prp1 % ps)
  if len = 0 then (s, .ok [])
  else if x.prp1 % 4 ≠ 0 then (s, .error Nvme.invalidField)
  else if len ≤ n1 then (s, .ok [(x.prp1, n1)])
  else if len - n1 ≤ ps then
    (if x.prp2 % ps ≠ 0 then (s, .error Nvme.invalidField) else (s, .ok [(x.prp1, n1), (x.prp2, len - n1)]))
  else s.prpList p ps lists x.prp2 (len - n1) [(x.prp1, n1)]

/-- Every run lies in a window with the access needed; the first that does not is counted. -/
def State.checkRuns (s : State) (p : Nat) (runs : List (Nat × Nat)) (wr : Bool) : Option State :=
  if runs.all fun r => s.windowOk p r.1 r.2 wr then some s else none

/-- The runs of a command, or its end. -/
def State.withRuns (s : State) (p y : Nat) (x : Sqe) (len : Nat) (lists : List Fetch) (wr : Bool)
    (k : List (Nat × Nat) → State → State) : State :=
  match s.prpRuns p x len lists with
  | (s, .error st) => s.complete (some (p, y, x.cid)) st
  | (s, .ok runs) =>
    match s.checkRuns p runs wr with
    | none => (s.windowErr p).complete (some (p, y, x.cid)) Nvme.transfer
    | some s => k runs s

/-- Data written to the runs of a host buffer. -/
def State.sendRuns (s : State) (p : Nat) : List (Nat × Nat) → List Byte → State
  | [], _ => s
  | (a, n) :: rs, l =>
    match s.fnOfPlot p with
    | none => s
    | some (m, f) => (((s.logWrite p a n).postWrite m f a (fit n l)).sendRuns p rs (l.drop n))

/-- An admin command that returns data. -/
def State.adminData (s : State) (p : Nat) (x : Sqe) (lists : List Fetch) (data : List Byte) : State :=
  s.withRuns p 0 x data.length lists true fun runs s => (s.sendRuns p runs data).adminEnd p x Nvme.ok 0

/-! ### Queues (Table 15.5) -/

/-- Commands of a queue have not ended. R22 lets a write that waits for a reservation end in three cases only, and the deletion of its
queue is none of them: the deletion waits (assumption 22). -/
def State.sqBusy (s : State) (p y : Nat) : Bool :=
  (s.silo.writes.any fun w => w.src.any fun x => x.1 = p && x.2.1 = y) || s.silo.reads.any fun r => r.src.1 = p && r.src.2.1 = y

/-- A Create of a queue: a queue number within QP_MAX that is not in use, a size within MQES, contiguous, page-aligned. -/
def State.createOk (s : State) (p : Nat) (x : Sqe) (live : Bool) : Bool :=
  let y := x.d10 % 2 ^ 16
  let n := x.d10 / 2 ^ 16
  1 ≤ y && decide (y ≤ s.rd (B.PLOT p) R.PLOT_CFG_QP_MAX) && !live && 1 ≤ n && decide (n ≤ 0xFFF) && bitOf x.d11 0
    && x.prp1 % s.mps p = 0

/-- The entry asks for the deletion of a queue that still has commands. -/
def State.deleteWaits (s : State) (p : Nat) (e : Fetch) : Bool :=
  match e with
  | .ok l => (Sqe.of (fit 64 l)).op = 0 && s.sqBusy p ((Sqe.of (fit 64 l)).d10 % 2 ^ 16)
  | _ => false

def execNvmeDeleteIoSq (p : PlotIx) (e : Fetch) (s : State) : Res :=
  if s.deleteWaits p e then .next s
  else .next (s.adminCmd p 0x00 e fun x s =>
    let y := x.d10 % 2 ^ 16
    if y = 0 || !(s.sq p y).live then s.adminEnd p x Nvme.invalidField 0 else (s.setSq p y Nq.none).adminEnd p x Nvme.ok 0)

def execNvmeDeleteIoCq (p : PlotIx) (e : Fetch) (s : State) : Res :=
  .next (s.adminCmd p 0x04 e fun x s =>
    let y := x.d10 % 2 ^ 16
    if y = 0 || !(s.cq p y).live || (s.ctl p).sqs.any (fun q => q.2.live && q.2.cq = y) then s.adminEnd p x Nvme.invalidField 0
    else (s.setCq p y Nq.none).adminEnd p x Nvme.ok 0)

def execNvmeCreateIoSq (p : PlotIx) (e : Fetch) (s : State) : Res :=
  .next (s.adminCmd p 0x01 e fun x s =>
    let y := x.d10 % 2 ^ 16
    let c := x.d11 / 2 ^ 16
    if !s.createOk p x (s.sq p y).live || c = 0 || !(s.cq p c).live || 8192 ≤ s.allQps then s.adminEnd p x Nvme.invalidField 0
    else (s.setSq p y { Nq.none with live := true, base := x.prp1, size := x.d10 / 2 ^ 16 + 1, cq := c }).adminEnd p x Nvme.ok 0)

def execNvmeCreateIoCq (p : PlotIx) (e : Fetch) (s : State) : Res :=
  .next (s.adminCmd p 0x05 e fun x s =>
    let y := x.d10 % 2 ^ 16
    let iv := x.d11 / 2 ^ 16
    let vecs := match s.fnOfPlot p with
      | some (m, f) => s.tableSize m f
      | none => 0
    if !s.createOk p x (s.cq p y).live || vecs ≤ iv then s.adminEnd p x Nvme.invalidField 0
    else (s.setCq p y { Nq.none with live := true, base := x.prp1, size := x.d10 / 2 ^ 16 + 1, cq := iv, ien := bitOf x.d11 1,
                                     phase := true }).adminEnd p x Nvme.ok 0)

/-! ### Identify, log pages, features, events (Tables 15.4 and 15.5) -/

/-- The volume of a namespace of a controller. -/
def State.nsVol (s : State) (p nsid : Nat) : Option Nat :=
  if nsid = 0 || 16 < nsid then none
  else
    let v := tget (fun _ => 0) s.silo.atts (16 * p + nsid - 1)
    if v = 0 then none else some (v - 1)

def execNvmeIdentify (p : PlotIx) (e : Fetch) (lists : List Fetch) (s : State) : Res :=
  .next (s.adminCmd p 0x06 e fun x s =>
    let cns := x.d10 % 256
    if cns = 0 || cns = 3 then match s.nsVol p x.nsid with
      | none => s.adminEnd p x Nvme.badNamespace 0
      | some v => s.adminData p x lists (fit 4096 (Config.nvmeData
          [cns, x.nsid, v, 256 * (s.vol v).extents, 256 * (s.volEntries v).length]))
    else if cns = 1 then
      s.adminData p x lists (fit 4096 (Config.nvmeData [1, p.val, 8, 16, 255, 255, s.rd (B.PLOT p) R.PLOT_CFG_QP_MAX]))
    else if cns = 2 then
      s.adminData p x lists (fit 4096 (((List.range' 1 16).filter fun n => x.nsid < n && (s.nsVol p n).isSome).flatMap (leBytes 4)))
    else s.adminEnd p x Nvme.invalidField 0)

def execNvmeGetLogPage (p : PlotIx) (e : Fetch) (lists : List Fetch) (s : State) : Res :=
  .next (s.adminCmd p 0x02 e fun x s =>
    let lid := x.d10 % 256
    let len := 4 * (x.d10 / 2 ^ 16 + 2 ^ 16 * (x.d11 % 2 ^ 16) + 1)
    let off := x.d12 + 2 ^ 32 * x.d13
    let c := s.ctl p
    if !([1, 2, 4, 5].contains lid) || 2 ^ 20 < len || off % 4 ≠ 0 then s.adminEnd p x Nvme.invalidField 0
    else
      let page := if lid = 1 then Config.nvmeData (17 :: c.errlog.flatMap fun r => [r.1, r.2.1, r.2.2])
        else if lid = 4 then c.changed.flatMap (leBytes 4)
        else Config.nvmeData [16 + lid, p.val]
      let s := if lid = 4 && !bitOf x.d10 15 then s.setCtl p { c with changed := [], masked := false } else s
      s.adminData p x lists (fit len (page.drop off)))

/-- Features (Table 15.5). Vector settings are kept per vector. -/
def featureKey (fid d11 : Nat) : Nat := if fid = 0x09 then 0x1_0000 * 9 + d11 % 2 ^ 16 else fid
def features : List Nat := [0x01, 0x02, 0x04, 0x07, 0x08, 0x09, 0x0B]

def State.queueCount (s : State) (p : Nat) : Nat := (s.rd (B.PLOT p) R.PLOT_CFG_QP_MAX - 1) * (2 ^ 16 + 1)

def execNvmeSetFeatures (p : PlotIx) (e : Fetch) (s : State) : Res :=
  .next (s.adminCmd p 0x09 e fun x s =>
    let fid := x.d10 % 256
    let c := s.ctl p
    if !features.contains fid || bitOf x.d10 31 || (fid = 0x02 && x.d11 % 32 ≠ 0) then s.adminEnd p x Nvme.invalidField 0
    else if fid = 0x07 then s.adminEnd p x Nvme.ok (s.queueCount p)
    else (s.setCtl p { c with features := tput (fun _ => 0) c.features (featureKey fid x.d11) x.d11 }).adminEnd p x Nvme.ok 0)

def execNvmeGetFeatures (p : PlotIx) (e : Fetch) (s : State) : Res :=
  .next (s.adminCmd p 0x0A e fun x s =>
    let fid := x.d10 % 256
    if !features.contains fid then s.adminEnd p x Nvme.invalidField 0
    else s.adminEnd p x Nvme.ok (if fid = 0x07 then s.queueCount p else tget (fun _ => 0) (s.ctl p).features (featureKey fid x.d11)))

/-- A request for an asynchronous event: four may be outstanding; a change that waits goes out at once. -/
def execNvmeAsyncEventRequest (p : PlotIx) (e : Fetch) (s : State) : Res :=
  .next (s.adminCmd p 0x0C e fun x s =>
    let c := s.ctl p
    if 4 ≤ c.aers.length then s.adminEnd p x Nvme.invalidField 0
    else
      let s := s.setCtl p { c with aers := c.aers ++ [x.cid] }
      match c.changed with
      | n :: _ => s.nsChanged p n
      | [] => s)

/-- R364: Abort takes a command that has not begun its data transfer. -/
def execNvmeAbort (p : PlotIx) (e : Fetch) (s : State) : Res :=
  .next (s.adminCmd p 0x08 e fun x s =>
    let y := x.d10 % 2 ^ 16
    let cid := x.d10 / 2 ^ 16
    let key := (p.val, y, cid)
    match s.silo.writes.find? (fun w => w.src = some key && !w.began), s.silo.reads.find? (fun r => r.src = key) with
    | some w, _ => ((s.dropWrite w.id).complete w.src Nvme.aborted).adminEnd p x Nvme.ok 0
    | none, some r => ((s.onSilo fun c => { c with reads := c.reads.filter (· ≠ r) }).complete (some key) Nvme.aborted).adminEnd p x Nvme.ok 0
    | none, none =>
      let c := s.ctl p
      if y = 0 && c.aers.contains cid then
        ((s.setCtl p { c with aers := c.aers.erase cid }).complete (some key) Nvme.aborted).adminEnd p x Nvme.ok 0
      else s.adminEnd p x Nvme.ok 1)

/-! ### I/O checks (Table 15.6) -/

/-- FAILMODE 1 holds for a volume: its connection is down or has failed (R99, R379). -/
def State.failClosed (s : State) (v : Nat) : Bool :=
  match s.connOf v with
  | some c => s.connClosed c
  | none => false

/-- What an I/O command on volume v ends with at once, if anything. -/
def State.ioStatus (s : State) (v : Nat) (wr : Bool) : Nat :=
  let x := s.vol v
  if !x.online then Nvme.notReady
  else if wr && (s.mode = .trickle || s.mode = .survey) then Nvme.writeProtected
  else if wr && (x.blocked || s.failClosed v) then Nvme.notReady
  else Nvme.ok

/-- An I/O command on an attached namespace that passes the checks. -/
def State.onNs (s : State) (p y : Nat) (x : Sqe) (wr : Bool) (k : Nat → State → State) : State :=
  match s.nsVol p x.nsid with
  | none => s.complete (some (p, y, x.cid)) Nvme.badNamespace
  | some v =>
    let st := s.ioStatus v wr
    if st ≠ Nvme.ok then s.complete (some (p, y, x.cid)) st else k v s

def Sqe.slba (x : Sqe) : Nat := x.d10 + 2 ^ 32 * x.d11
def Sqe.nlb (x : Sqe) : Nat := x.d12 % 2 ^ 16 + 1
def State.inVol (s : State) (v lba n : Nat) : Bool := decide (lba + n ≤ 256 * (s.vol v).extents)

/-- R363. -/
def execNvmeFlush (p : PlotIx) (y : Nat) (e : Fetch) (s : State) : Res :=
  .next (s.ioCmd p y 0x00 e fun x s => s.onNs p y x false fun _ s => s.complete (some (p.val, y, x.cid)) Nvme.ok)

/-! ### The write cache (R22, R361, R365, R366, R369) -/

/-- The blocks of a write in LBA order. -/
def WOp.blocks (w : WOp) (data : List Byte) : List (Nat × List Byte) :=
  (List.range w.n).map fun i => (w.lba + i, fit 4096 (data.drop (4096 * i)))

/-- A write's data is in S0: STAGING blocks, with their reservations where it was granted them; a paired volume's peer is
sent the data. -/
def State.stageWrite (s : State) (w : WOp) (held : Bool) (data : List Byte) : State :=
  let bs := w.blocks data
  let s := s.onSilo fun c =>
    { c with waiting := c.waiting.filter (· ≠ w.id),
             cache := roomIn c.cache w.n ++ bs.map fun b => { vol := w.vol, lba := b.1, data := b.2, st := .staging, seq := w.id, held := held } }
  let s := s.onWrite w.id fun x => { x with began := true, staged := true, granted := held, through := !held }
  s.replicate w bs

/-- The data of a write: zeros, or what the reads of its runs brought (R262). -/
def State.payload (s : State) (w : WOp) (pay : List Fetch) : State × Option (List Byte) :=
  if w.zero then (s, some [])
  else
    let got := (List.range w.runs.length).map fun i => pay.getD i .ur
    let s := match w.src with
      | some (p, _) => s.readRuns p w.runs
      | none => s
    match got.find? (fun f => match f with
      | .ok _ => false
      | _ => true) with
    | some f => ((match w.src with
        | some (p, _) => s.logPlot p f
        | none => s), none)
    | none => (s, some ((w.runs.zip got).flatMap fun r => match r.2 with
        | .ok l => fit r.1.2 l
        | _ => []))

/-- A write leaves without effect. -/
def State.failWrite (s : State) (w : WOp) (status : Nat) : State := (s.dropWrite w.id).complete w.src status

/-- A write takes its space, with its reservation or in write-through, and fetches its data (R22, R355, R365, R366). -/
def State.takeWrite (s : State) (w : WOp) (held : Bool) (pay : List Fetch) : State :=
  match s.allocateAll w.vol (extsOf w.lba w.n) with
  | none => s.failWrite w Nvme.capacity
  | some s =>
    match s.payload w pay with
    | (s, none) => s.failWrite w Nvme.transfer
    | (s, some data) => s.stageWrite w held data

/-- The peer's buffer has room for a write. -/
def State.peerRoom (s : State) (w : WOp) : Bool :=
  match s.connOf w.vol with
  | some c => s.connState c ≠ 1 || s.sendRoom c w.n
  | none => true

/-- A new write: write-through at once, or a request at the end of the ledger's queue. -/
def State.newWrite (s : State) (w : WOp) (pay : List Fetch) : State :=
  let w := { w with id := s.silo.nextId, through := !s.flag B.DEV R.DEV_MODE_WRITEBACK }
  let s := s.onSilo fun c => { c with nextId := c.nextId + 1, writes := c.writes ++ [w] }
  if w.through && s.peerRoom w then s.takeWrite w false pay else s.enqueueWrite w.id w.n

def WOp.new (src : Nat × Nat × Nat) (v lba n : Nat) : WOp :=
  { id := 0, src := some src, vol := v, lba := lba, n := n, zero := false, parts := [], runs := [], granted := false, began := false,
    staged := false, through := false, peer := none }

def execNvmeWrite (p : PlotIx) (y : Nat) (e : Fetch) (lists pay : List Fetch) (s : State) : Res :=
  .next (s.ioCmd p y 0x01 e fun x s => s.onNs p y x true fun v s =>
    if 256 < x.nlb then s.complete (some (p.val, y, x.cid)) Nvme.invalidField
    else if !s.inVol v x.slba x.nlb then s.complete (some (p.val, y, x.cid)) Nvme.lbaRange
    else s.withRuns p y x (4096 * x.nlb) lists false fun runs s =>
      s.newWrite { WOp.new (p.val, y, x.cid) v x.slba x.nlb with runs := runs } pay)

/-- R369: the ledger takes the request at its head: a grant where it fits the budget, none while WRITEBACK is 0, when the write
is a write-through one (R366). -/
def execReservationGrant (pay : List Fetch) (s : State) : Res :=
  match s.silo.waiting with
  | [] => .next s
  | id :: _ =>
    match s.silo.writes.find? (·.id = id) with
    | none => .next (s.onSilo fun c => { c with waiting := c.waiting.filter (· ≠ id) })
    | some w =>
      if !s.domOn 74 || !s.domOn 65 || s.mode = .drain || s.mode = .fallow || !s.peerRoom w then .next s
      else if !s.flag B.DEV R.DEV_MODE_WRITEBACK then .next (s.takeWrite w false pay)
      else if s.grantFits w.n then .next (s.takeWrite w true pay)
      else .next s

/-- R22: a write is acknowledged when its payload is in S0, its reservation is held, WRITEBACK is 1, and the peer of a
replicated volume has accepted it (R23): its blocks turn DIRTY at one instant. A write that waits for the peer of a connection that is
down ends as FAILMODE 1 says (R99, R379). -/
def execWriteAcknowledge (id : Nat) (s : State) : Res :=
  match s.silo.writes.find? (·.id = id) with
  | none => .next s
  | some w =>
    if w.peer.any (fun z => s.connClosed z.1) then .next (s.notReadyWrite w)
    else if w.staged && w.granted && !w.through && w.peer.isNone && s.flag B.DEV R.DEV_MODE_WRITEBACK then
      .next ((s.settleWrite id .dirty true).writeAcked w)
    else .next s

/-! ### Deallocation and zeroes (R361) -/

/-- Whole extents inside a range. -/
def wholeExts (lba n : Nat) : List Nat := List.range' ((lba + 255) / 256) ((lba + n) / 256 - (lba + 255) / 256)

/-- What a range has beside its whole extents, in parts of at most one extent, in LBA order. -/
def zeroParts (dealloc : Bool) (lba n : Nat) : List (Nat × Nat) :=
  (extsOf lba n).filterMap fun x =>
    let lo := max lba (256 * x)
    let hi := min (lba + n) (256 * x + 256)
    if dealloc && hi - lo = 256 then none else some (lo, hi - lo)

/-- An extent is freed: its LBAs read as zeros, its dirty blocks turn FREE with their reservations. -/
def State.freeExtent (s : State) (v x : Nat) : State :=
  let i := s.extIx v x
  let s := ((s.setExt i 0).keepExt i 0).setStale i 0
  (s.onSilo fun c =>
    { c with disk := tdrop (fun k => k / 2 ^ 40 = v && extOf (k % 2 ^ 40) = x) c.disk,
             badBlks := c.badBlks.filter (fun k => !(k / 2 ^ 40 = v && extOf (k % 2 ^ 40) = x)),
             cache := c.cache.filter (fun b => !(b.vol = v && extOf b.lba = x && !b.inFlight)),
             restored := c.restored.filter fun k => !(k / 2 ^ 40 = v && extOf (k % 2 ^ 40) = x) })

/-- Extents freed, and the parts of a range that are written as zeros, in order. A command that has freed one has had an effect, and
is not aborted (R364). -/
def State.zeroRange (s : State) (src : Nat × Nat × Nat) (v : Nat) (free : List Nat) (parts : List (Nat × Nat)) : State :=
  let s := (free.foldl (fun s x => s.freeExtent v x) s).retireDone.destageEnds
  match parts with
  | [] => s.complete (some src) Nvme.ok
  | (lba, n) :: rest => s.newWrite { WOp.new src v lba n with zero := true, parts := rest, began := !free.isEmpty } []

def execNvmeWriteZeroes (p : PlotIx) (y : Nat) (e : Fetch) (s : State) : Res :=
  .next (s.ioCmd p y 0x08 e fun x s => s.onNs p y x true fun v s =>
    let d := bitOf x.d12 25
    if !s.inVol v x.slba x.nlb then s.complete (some (p.val, y, x.cid)) Nvme.lbaRange
    else s.zeroRange (p.val, y, x.cid) v (if d then wholeExts x.slba x.nlb else []) (zeroParts d x.slba x.nlb))

/-- Dataset Management: ranges of 16 bytes, which its data pointer brings; only Deallocate does anything. -/
def execNvmeDatasetManagement (p : PlotIx) (y : Nat) (e : Fetch) (lists pay : List Fetch) (s : State) : Res :=
  .next (s.ioCmd p y 0x09 e fun x s => s.onNs p y x true fun v s =>
    let n := x.d10 % 256 + 1
    let src := (p.val, y, x.cid)
    s.withRuns p y x (16 * n) lists false fun runs s =>
      match s.payload { WOp.new src v 0 0 with runs := runs } pay with
      | (s, none) => s.complete (some src) Nvme.transfer
      | (s, some l) =>
        let rs := (List.range n).map fun i => (blkAt l (16 * i + 8) 8, blkAt l (16 * i + 4) 4)
        if !bitOf x.d11 2 then s.complete (some src) Nvme.ok
        else if rs.any (fun r => !s.inVol v r.1 r.2) then s.complete (some src) Nvme.lbaRange
        else s.zeroRange src v (rs.flatMap fun r => wholeExts r.1 r.2) (rs.flatMap fun r => zeroParts true r.1 r.2))

/-! ### Reads (R354, R357, R365) -/

/-- Blocks of a range that S0 does not hold and that lie in allocated extents. -/
def State.missingLbas (s : State) (v lba n : Nat) : List Nat :=
  (List.range' lba n).filter fun l => (s.lbaHit v l).isNone && Ext.valid (s.ext (s.extIx v (extOf l)))

/-- The data of a range as a read sees it (R354, R365). -/
def State.rangeData (s : State) (v lba n : Nat) : List Byte :=
  (List.range' lba n).flatMap fun l => (s.lbaHit v l).getD (if Ext.valid (s.ext (s.extIx v (extOf l))) then s.lbaDisk v l else zeros4k)

def State.finishRead (s : State) (p : Nat) (src : Nat × Nat × Nat) (v lba n : Nat) (runs : List (Nat × Nat)) : State :=
  let hits := ((List.range' lba n).filter fun l => (s.lbaHit v l).isSome).length
  let data := s.rangeData v lba n
  ((s.countN (B.SILO + C.SILO_READ_HITS) hits).sendRuns p runs data).complete (some src) Nvme.ok

def execNvmeRead (p : PlotIx) (y : Nat) (e : Fetch) (lists : List Fetch) (s : State) : Res :=
  .next (s.ioCmd p y 0x02 e fun x s => s.onNs p y x false fun v s =>
    let src := (p.val, y, x.cid)
    if 256 < x.nlb then s.complete (some src) Nvme.invalidField
    else if !s.inVol v x.slba x.nlb then s.complete (some src) Nvme.lbaRange
    else s.withRuns p y x (4096 * x.nlb) lists true fun runs s =>
      if s.missingLbas v x.slba x.nlb = [] then s.finishRead p src v x.slba x.nlb runs
      else s.onSilo fun c =>
        { c with nextId := c.nextId + 1, reads := c.reads ++ [{ id := c.nextId, src := src, vol := v, lba := x.slba, n := x.nlb, runs := runs }] })

/-- R357: the drives' reads for a command end; `bad` names drives whose read failed. Too few columns of an extent:
Unrecovered Read Error. -/
def execDriveReadDone (id : Nat) (bad : List DriveIx) (s : State) : Res :=
  match s.silo.reads.find? (·.id = id) with
  | none => .next s
  | some r =>
    let s := s.onSilo fun c => { c with reads := c.reads.filter (·.id ≠ id) }
    let short := (s.missingLbas r.vol r.lba r.n).any fun l =>
      let i := s.extIx r.vol (extOf l)
      let good := (Ext.drives (s.ext i)).zipIdx.filter fun d =>
        s.driveOn d.1 && !bitOf (s.staleCols i) d.2 && bad.all (fun b => b.val ≠ d.1)
      decide (good.length < schemeNeed (Ext.scheme (s.ext i))) || s.silo.badBlks.contains (diskKey r.vol l)
    if short then .next ((s.count (B.SILO + C.SILO_READ_UNRECOVERED)).complete (some r.src) Nvme.unrecovered)
    else .next (s.finishRead r.src.1 r.src r.vol r.lba r.n r.runs)

end Sys2Proof.Machine
end

