-- ==== Sys2Proof/Machine/Cistern.lean ====
section
/-! DEFINITION. The Cistern and the vault: the ledger's recomputation, the charger, the capacity test, probes, the vault
restore, the save and end of Drain, and their commands (R368 to R376, R381, R456). -/
namespace Sys2Proof.Machine

/-! ### The charger and the capacity test (R371, R372) -/

def State.setCharger (s : State) (on : Bool) : State :=
  if s.cist.chg = on then s
  else ((s.onCist fun c => { c with chg := on }).wrB B.PWR R.PWR_PINS_CHG_EN on).emit (.pin "CIST_CHG_EN" on)

def State.setBleed (s : State) (b : Option (Nat × Nat)) : State :=
  ((s.onCist fun c => { c with bleed := b }).wrB B.PWR R.PWR_PINS_BLEED_EN b.isSome).emit (.pin "CIST_BLEED_EN" b.isSome)

/-- The charger's decision at a value of V_b (R371): hysteresis of 200 mV. -/
def State.charge (s : State) (vb : Nat) : State :=
  let target := s.vChg
  if !s.flag B.CIST R.CIST_CFG_CHG_EN || s.cist.bleed.isSome || s.cist.ovp then s.setCharger false
  else if target ≤ vb then (s.setCharger false).onCist fun c => { c with full := true, recharge := false }
  else if vb + 20 < target then (s.setCharger true).onCist fun c => { c with full := false }
  else s

/-- What interrupts a capacity test: Drain, Fallow, a loss of main power, CISTERN_OK low, CHG_EN 0 (R372). -/
def State.testInterrupted (s : State) : Bool :=
  s.mode = .drain || s.mode = .fallow || !s.flag B.PWR R.PWR_PINS_MAIN_PG || !s.flag B.PWR R.PWR_PINS_CISTERN_OK
    || !s.flag B.CIST R.CIST_CFG_CHG_EN

/-- The test is not done: the bleed stops, C_m stays, the bank recharges, the test stays due. -/
def State.abandonTest (s : State) : State :=
  let s := (s.setBleed none).onCist fun c => { c with recharge := true, full := false }
  s.endJobs 0x0512 0 (Final.mk' St.BUSY_RETRY 1000 [])

/-- The start conditions of R372. -/
def State.testReady (s : State) : Bool :=
  !s.testInterrupted && s.flag B.PWR R.PWR_PINS_POWER_FAIL_N && s.cist.full && !s.cist.chg && s.cist.bleed.isNone && !s.cist.recharge
    && decide (s.heldBlocks ≤ s.lowBudget)

def State.startTest (s : State) : State := s.setBleed (some (s.now, s.vChg))

/-- The daily test starts once it is due and its conditions hold. -/
def execCapacityTestStart (s : State) : Res :=
  .next (if s.testReady && decide (24 ≤ s.testAge) then s.startTest else s)

/-- C_m and AGE in the ledger record of the vault header. -/
def State.writeRecord (s : State) : State :=
  if s.domOn 75 then s.onVault fun v => { v with rec_ := some (s.cist.cm, s.testAge) } else s

/-- A test runs past twice the time that C_m predicts plus 100 ms. -/
def State.testLate (s : State) (t v : Nat) : Bool := decide (t + 2 * (s.cist.cm * 5 * v) + ms 100 < s.now)

/-- R372: V_b reaches 0.95 V_chg: C_m = 0.1 A · Δt / ΔV, with Δt in ns and V_chg in 10 mV. -/
def execCapacityTestEnd (s : State) : Res :=
  match s.cist.bleed with
  | none => .next s
  | some (t, v) =>
    if 95 * v < 100 * s.rd B.CIST R.CIST_VBANK_V_B || s.testInterrupted || s.testLate t v then .next s
    else
      let cm := sat 0xFFFF ((s.now - t) / (5 * v))
      let s := (s.setBleed none).onCist fun c =>
        { c with cm := cm, ageAt := some s.now, ageBase := 0, recharge := true, full := false }
      .next ((s.writeRecord.bgRan 8).endJobs 0x0512 0 (Final.mk' St.DONE 0 (leBytes 4 cm)))

/-- R372: the test runs past twice the time that C_m predicts plus 100 ms, or is interrupted. -/
def execCapacityTestAbandon (s : State) : Res :=
  match s.cist.bleed with
  | none => .next s
  | some (t, v) => .next (if s.testInterrupted || s.testLate t v then s.abandonTest else s)

/-- Once an hour, while the vault port is powered, the record is written (R372). -/
def execLedgerRecordWrite (s : State) : Res :=
  if !s.domOn 75 || s.cist.recAt.any (fun t => decide (s.now < t + 3600 * ms 1000)) then .next s
  else .next (s.writeRecord.onCist fun c => { c with recAt := some s.now })

/-! ### The ledger (R368, R370, R373, R456) -/

/-- The self-check of the two sense readings: fails after 100 µs of more than 2% apart, and passes again after 1 s of
agreement. -/
def State.senseCheck (s : State) (a b : Nat) : State :=
  let lo := min a b
  let agree := decide (100 * (max a b - lo) ≤ 2 * lo)
  let s := s.wrB B.PWR R.PWR_PINS_SENSE_OK agree
  s.onCist fun c =>
    if agree then
      let t := c.agreeAt.getD s.now
      { c with differAt := none, agreeAt := some t, senseOk := c.senseOk || decide (t + ms 1000 ≤ s.now) }
    else
      let t := c.differAt.getD s.now
      { c with agreeAt := none, differAt := some t, senseOk := c.senseOk && decide (s.now < t + us 100) }

/-- ABOVE (R370): B at WB_MIN for 1 s sets it, B below half of WB_MIN clears it. -/
def State.updateAbove (s : State) : State :=
  let th := 256 * s.rd B.CIST R.CIST_CFG_WB_MIN
  let b := s.budget
  let t := if th ≤ b then some (s.cist.aboveAt.getD s.now) else none
  let s := s.onCist fun c => { c with aboveAt := t }
  let s := match t with
    | some t => if t + ms 1000 ≤ s.now then s.wrB B.CIST R.CIST_STATUS_ABOVE true else s
    | none => s
  if 2 * b < th then s.wrB B.CIST R.CIST_STATUS_ABOVE false else s

/-- OVER (R370): its start raises source 11, unless a vault image awaits; its end lets the firmware acknowledge it. -/
def State.updateOver (s : State) : State :=
  if !s.over then
    let s := s.onCist fun c => { c with overAt := none, overDeg := false }
    if s.sticky 11 then s.ackRouted 11 else s
  else if s.flag B.DEV R.DEV_MODE_VAULT_PENDING || s.cist.overAt.isSome then s
  else (s.onCist fun c => { c with overAt := some s.now }).raise 11 0 0

/-- R368: the ledger reads the two senses, in units of 10 mV, and recomputes B; the charger, the threshold, the collapse
trigger and the overvoltage fault follow from V_b (R370, R371, R373). It does so every 10 µs. -/
def execLedgerRecompute (a b : Nat) (s : State) : Res :=
  if s.cist.reads.getLast?.any (fun r => decide (s.now < r.1 + us 10)) then .next s
  else
    let s := s.senseCheck a b
    let reads := (s.cist.reads.filter fun r => decide (s.now ≤ r.1 + us 100)) ++ [(s.now, min a b)]
    let vb := reads.foldl (fun (v : Nat) (r : Nat × Nat) => min v r.2) (min a b)
    let peaks := (s.cist.peaks.filter fun r => decide (s.now ≤ r.1 + ms 10)) ++ [(s.now, vb)]
    let top := peaks.foldl (fun (v : Nat) (r : Nat × Nat) => max v r.2) vb
    let high := if 105 * s.rd B.CIST R.CIST_LIMIT_VCHG_MAX < 100 * vb then s.cist.high + 1 else 0
    let s := s.onCist fun c => { c with reads := reads, peaks := peaks, high := high }
    let s := s.wr B.CIST R.CIST_VBANK_V_B (sat 0xFFFF vb)
    let s := s.wr B.CIST R.CIST_EUSE_E_USE (sat 0xFFFF (s.energy vb / (2 * 10 ^ 11)))
    let s := s.wr B.CIST R.CIST_BUDGET_B (if s.cist.senseOk then s.budgetAt vb else 0)
    let s := if s.cist.bleed.isSome && s.testInterrupted then s.abandonTest else s
    let s := s.charge vb
    let s := s.updateAbove.updateOver.updateWriteback
    let s := if 2 ≤ high && !s.cist.ovp then (((s.onCist fun c => { c with ovp := true }).setCharger false).raise 1 0 0) else s
    .next (if s.rd B.CIST R.CIST_COLL_VCOLL_DROP < top - vb then s.enterDrain .power else s)

/-- R370: OVER has lasted 1 s. -/
def execOverPersist (s : State) : Res :=
  match s.cist.overAt with
  | none => .next s
  | some t =>
    if !s.over || s.cist.overDeg || s.flag B.DEV R.DEV_MODE_VAULT_PENDING || s.now < t + ms 1000 then .next s
    else .next ((s.onCist fun c => { c with overDeg := true }).raise 12 0 0)

/-- R368: a probe of the vault's write rate ends, in MB/s; one that failed is not recorded. Probes are 10 min apart. -/
def execVaultProbe (rate : Nat) (ok : Bool) (s : State) : Res :=
  if !s.domOn 75 || s.mode = .drain || s.mode = .fallow || s.restorePending
      || s.cist.probeAt.any (fun t => decide (s.now < t + 600 * ms 1000)) then .next s
  else
    let s := s.onCist fun c => { c with probeAt := some s.now }
    if !ok then .next s
    else
      let l := s.cist.probes ++ [sat 0xFFFF rate]
      let l := l.drop (l.length - 6)
      .next ((s.onCist fun c => { c with probes := l }).wr B.CIST R.CIST_WRATE_W (l.foldl min (l.headD 0)))

/-! ### The vault restore (R89, R375) -/

/-- The restore of the image ends: a state of SAVING, or a chunk that failed, leaves it partial. -/
def State.endRestore (s : State) (partial_ : Bool) : State :=
  let s := s.onSilo fun c => { c with restoring := some s.vault.chunks.length }
  let s := s.onVault fun v => { v with hdr := 3 }
  let s := if partial_ then s.raise 14 0 0 else s
  s.destageEnds

/-- The bytes of a block record of the image, decrypted under the vault's key (R21, R375). -/
def State.recData (s : State) (r : VRec) : List Byte := r.data.opened s.vault.key r.lba

/-- A restored block is dirty data of its volume, with a reservation; a block of its LBA is superseded. -/
def State.restoreBlock (s : State) (r : VRec) : State :=
  s.onSilo fun c =>
    { c with cache := (c.cache.filter fun b => b.inFlight || !(b.vol = r.vol && b.lba = r.lba))
                        ++ [{ vol := r.vol, lba := r.lba, data := s.recData r, st := .dirty, seq := r.seq, held := true }],
             restored := if c.restored.contains (diskKey r.vol r.lba) then c.restored else c.restored ++ [diskKey r.vol r.lba],
             nextSeq := max c.nextSeq (r.seq + 1) }

/-- R375: the next chunk of the newest image has been read; `ok` says that its trailer verifies. -/
def execVaultRestoreChunk (ok : Bool) (s : State) : Res :=
  let k := s.silo.restoring.getD 0
  if stepState s.modes.steps .restore ≠ some .running || !s.flag B.DEV R.DEV_MODE_VAULT_PENDING || !s.domOn 75 || !s.domOn 65
      || s.vault.chunks.length < k || (s.silo.restoring.isSome && decide (s.vault.chunks.length ≤ k)) then .next s
  else if !s.silo.vaultKey then
    let s := s.onVault fun v => { v with hdr := 4, pending := false, chunks := [] }
    let s := s.wrB B.DEV R.DEV_MODE_VAULT_PENDING false
    .next ((s.raise 14 0 0).updateWriteback)
  else if s.vault.chunks = [] || !ok then .next (s.endRestore true)
  else
    let s := (s.vault.chunks.getD k []).foldl State.restoreBlock s
    if k + 1 < s.vault.chunks.length then .next (s.onSilo fun c => { c with restoring := some (k + 1) })
    else .next (s.endRestore (s.vault.hdr = 1))

/-! ### The end of Drain (Tables 15.7 and 15.10, R84, R105, R106, R374) -/

/-- Step 6 and 7: the ledger record, the header SAVED, the Flush. -/
def State.sealImage (s : State) : State :=
  let s := s.writeRecord
  let s := s.onVault fun v => { v with hdr := 2 }
  (s.onSilo fun c => { c with save := .flush s.now }).emit (.drive 32 "FLUSH" 0 0)

/-- The Drain count's faults (R375). -/
def State.drainCount (s : State) : State :=
  let n := s.vault.drains
  if n = 27000 then s.raise 13 0 0 else if 30000 < n then s.raise 14 0 0 else s

/-- Step 8: the Drain set goes off, DRAIN_DONE asserts, and the device is in Fallow; what waited for the end of the Drain
follows. -/
def State.drainEnd (s : State) : State :=
  let wrote := s.silo.save ≠ .ended
  let s := s.switchOffAll [75, 74, 65]
  let s := (s.wrB B.PWR R.PWR_PINS_DRAIN_DONE true).emit (.pin "DRAIN_DONE" true)
  let s := s.setMode .fallow
  let s := { s.wr B.PACE R.PACE_STATUS_VREQ 0 with gov := { s.gov with sent := none, nacks := 0 } }
  let s := s.wrB B.DEV R.DEV_MODE_VAULT_PENDING s.vault.pending
  let s := if s.modes.latchAfter then s.wrB B.DEV R.DEV_MODE_LATCHED true else s
  let fatal := s.modes.fatalAfter
  let again := s.modes.resetAfter
  let s := { s with modes := { s.modes with latchAfter := false, fatalAfter := false, resetAfter := false, drainCause := none } }
  let s := if wrote then s.drainCount else s
  let s := if fatal then { s with modes := { s.modes with lkRunning := false } }.wrB B.DEV R.DEV_RESET_CAUSE_WARM_FATAL true else s
  if again then s.coldReset false else s

/-- R373, R374: a chunk has been written to the vault, or failed: it is retried once, and a second failure ends the Drain
with the header SAVING. -/
def execVaultChunkWritten (ok : Bool) (s : State) : Res :=
  if s.mode ≠ .drain then .next s
  else match s.silo.save with
    | .chunks (c :: cs) retry =>
      if ok then
        let s := s.onVault fun v => { v with chunks := v.chunks ++ [c] }
        if cs = [] then .next s.sealImage else .next (s.onSilo fun x => { x with save := .chunks cs false })
      else if retry then .next s.drainEnd
      else .next (s.onSilo fun x => { x with save := .chunks (c :: cs) true })
    | _ => .next s

/-- R373: the Flush completes, or there was nothing to write. A Flush that took more than 250 ms was late (R374). -/
def execDrainComplete (s : State) : Res :=
  if s.mode ≠ .drain then .next s
  else match s.silo.save with
    | .chunks _ _ => .next s
    | .flush t =>
      .next ((if t + ms 250 < s.now then s.onVault fun v => { v with late := true } else s).drainEnd)
    | .idle | .ended => .next s.drainEnd

/-- R374: the Flush has not completed after 250 ms. -/
def execFlushLate (s : State) : Res :=
  if s.mode ≠ .drain then .next s
  else match s.silo.save with
    | .flush t => if s.now < t + ms 250 then .next s else .next (s.onVault fun v => { v with late := true }).drainEnd
    | .chunks _ _ | .idle | .ended => .next s

/-! ### Commands (R381, Table 15.11) -/

def execCistStatus (q : Req) (s : State) : Res :=
  .next (s.command q 0x0510 fun _ s => s.done q ((List.range 7).flatMap fun i => leBytes 4 (s.cistView (0x20 + 4 * i))))

/-- The words of CIST_SET: slot byte and register. -/
def cistWords : List (Nat × Nat) := [(8, 0x00), (12, 0x04), (16, 0x08), (20, 0x0C), (24, 0x14)]

def execCistSet (q : Req) (s : State) : Res :=
  .next (s.command q 0x0511 fun c s =>
    let locked := s.flag B.CIST R.CIST_LOCK_CLOCK
    if cistWords.any fun w => !wordTakes (B.CIST + w.2) (c.u32 w.1) then s.finish q St.BAD_ARGUMENT
    else if locked && (cistWords.drop 1).any (fun w => wordFields (B.CIST + w.2) (c.u32 w.1) ≠ (s.reg (B.CIST + w.2)).toNat) then
      s.finish q St.REFUSED
    else
      let s := cistWords.foldl (fun s w => s.wrW (B.CIST + w.2) (wordFields (B.CIST + w.2) (c.u32 w.1))) s
      let s := if bitOf (c.u8 28) 0 then s.wrB B.CIST R.CIST_LOCK_CLOCK true else s
      s.done q [])

/-- R372: a test that runs is joined; one whose start conditions do not hold waits, and the command with it does not. -/
def execCistTest (q : Req) (s : State) : Res :=
  .next (s.command q 0x0512 fun _ s =>
    if s.held [0x0512] 0 then s.busyRetry q 1000
    else if s.cist.bleed.isSome then s.addJob q 0x0512 0
    else if s.testReady then (s.addJob q 0x0512 0).startTest
    else s.busyRetry q 1000)

def execVaultStatus (q : Req) (s : State) : Res :=
  .next (s.command q 0x0513 fun _ s =>
    s.done q (leBytes 4 s.vault.hdr ++ leBytes 4 s.vault.drains ++ leBytes 4 s.vault.chunks.length))

end Sys2Proof.Machine
end

