-- ==== Sys2Proof/Machine/Reservoir.lean ====
section
/-! DEFINITION. The Reservoir's stack controllers: addresses, requests, refresh, temperature, ECC and the patrol scrub
(R383 to R394). -/
namespace Sys2Proof.Machine

def State.onRsv (s : State) (f : RsvSt → RsvSt) : State := { s with rsv := f s.rsv }

/-- Pseudo-channel of a stack address (R383). -/
def pseudoChannel (a : Nat) : Nat := bitsOf a 12 8 ^^^ bitsOf a 17 13

/-- Bytes of a stack by the model's key: an address of S1 to S3 that Table 16.1 decodes to keeps the key of its
Reservoir address; S0 and the extent map's part of S1 have keys of their own. -/
def B.STACK (k a : Nat) : Nat := 0x60_0000_0000 + k * 2 ^ 35 + a
def rsvKey (k a : Nat) : Nat :=
  let o := a % 4096
  if k = 0 then B.STACK 0 a
  else if k = 1 then (if a < 4 * 2 ^ 30 then B.STACK 1 a else B.RA + ((a - 4 * 2 ^ 30) / 4096 * 3) * 4096 + o)
  else if a < 20 * 2 ^ 30 then B.RA + (a / 4096 * 3 + (k - 1)) * 4096 + o
  else B.RA + 60 * 2 ^ 30 + ((a - 20 * 2 ^ 30) / 4096 * 2 + (k - 2)) * 4096 + o

/-- The home of the byte at a Reservoir address: core memory and the Hopper pools keep the keys by which the cores reach them, so
that a core reads what the mover wrote (R20, R27). -/
def State.raHome (s : State) (a : Nat) : Nat :=
  if Config.region 2 ≤ a && a < Config.region 2 + s.coreMemLen then B.CMEM + (a - Config.region 2)
  else if Config.region 1 ≤ a && a < Config.region 1 + 2 ^ 31 then B.POOLM + (a - Config.region 1)
  else B.RA + a

/-- The home of a stack's 64-byte block. -/
def State.stackHome (s : State) (k a : Nat) : Nat :=
  let x := rsvKey k a
  if B.RA ≤ x && x < B.RA + 68 * 2 ^ 30 then s.raHome (x - B.RA) else x

/-- A block of the extent map, which lies below 4 GiB of S1 in entries of 16 bytes (R354, R384). -/
def isMapBlock (k x : Nat) : Bool := k = 1 && decide (x < 4 * 2 ^ 30)

/-- The bytes of a stack's 64-byte block. -/
def State.stackBlock (s : State) (k x : Nat) : List Byte :=
  if isMapBlock k x then (List.range 4).flatMap fun j => leBytes 16 (s.ext (x / 16 + j)) else bytesAt s.mem (s.stackHome k x) 64

/-- A stack's 64-byte block is written. -/
def State.setStackBlock (s : State) (k x : Nat) (l : List Byte) : State :=
  if isMapBlock k x then (List.range 4).foldl (fun s j => s.setExt (x / 16 + j) (blkAt l (16 * j) 16)) s
  else { s with mem := putBytes s.mem (s.stackHome k x) (fit 64 l) }

/-- A controller serves its stack: powered, trained, not in self-refresh. -/
def State.stackReady (s : State) (k : Nat) : Bool :=
  s.domOn (65 + k) && s.flag (B.RSV k) R.RSV_STATUS_TRAINED && !s.flag (B.RSV k) R.RSV_STATUS_SELFREF

def State.setPoisoned (s : State) (k a : Nat) (b : Bool) : State :=
  s.onRsv fun r => { r with poisoned := (if b then [poisonKey k a] else []) ++ r.poisoned.filter (· ≠ poisonKey k a) }

/-! ### The Hopper's pools -/

def State.onHop (s : State) (f : HopSt → HopSt) : State := { s with hop := f s.hop }
def State.hopHead (s : State) (i : Nat) : List Nat := tget (fun _ => []) s.hop.heads i

/-! ### Errors -/

/-- What an uncorrectable error does to the user of the block, and whether that user writes the block again at once
(Table 16.3); a pool that turns BROKEN has left what its head holds (R398). A core's or the bulk mover's bus error is the answer to its own read. -/
def State.userLost (s : State) : RsvUser → State × Bool
  | .unused | .tap | .buffer | .coreMem => (s, false)
  | .hash t i => (s.dropSlot t i, true)
  | .extentMap i => ((List.range 4).foldl (fun s j => s.setExt (i / 4 * 4 + j) (tget (fun _ => 0) s.silo.meta_ (i / 4 * 4 + j))) s, true)
  | .cache v lba =>
    match s.silo.cache.find? fun b => b.vol = v.val && b.lba = lba && !b.inFlight with
    | none => (s, false)
    | some b =>
      let k := diskKey v lba
      let s := s.onSilo fun c => { c with cache := c.cache.filter (· ≠ b), restored := c.restored.filter (· ≠ k),
                                          badBlks := if b.dirty then k :: c.badBlks.filter (· ≠ k) else c.badBlks }
      (if b.dirty then (s.raise 25 0 0).destageEnds else s, false)
  | .cacheMeta both => (if both then s.raise 24 0 0 else s, !both)
  | .queue h t c id =>
    let v := voqKey h t c
    match (s.voq v).pkts.find? fun p => p.id = id && p.spilled with
    | none => (s, false)
    | some p =>
      (((s.setVoq v { s.voq v with pkts := (s.voq v).pkts.filter (· ≠ p) }).count (B.HDR h + C.HDR_VOQ_ADMIT_DROP)).pktEnd p.pkt,
        false)
  | .conduit c => (s.failConn c, false)
  | .link p =>
    let s := ((s.wrB (poolStat p) R.HOP_POOL_STAT_BROKEN true).count (B.HOP + C.HOP_LINK_ERR)).raise 21 p 0
    (s.setPoolFree p (s.hopHead p).length, false)

/-- A read of a block with the outcome of its check bits (R391, R392); answers whether the data is good. -/
def State.readBlock (s : State) (k a : Nat) (ecc : Ecc) (u : RsvUser) : Bool × State :=
  let ecc := if s.isPoisoned k a then .bad else ecc
  match ecc with
  | .good => (true, s)
  | .corrected => (true, s.stackCE k (a / 64 * 64))
  | .bad =>
    let s := (s.setPoisoned k a true).stackUE k (a / 64 * 64)
    let (s, again) := s.userLost u
    (false, if again then s.setPoisoned k a false else s)

/-- R390: an activation draws its random bit with probability 2^-EXP; a success refreshes the two neighbours. -/
def State.activate (s : State) (k : Nat) : State :=
  let (f, s) := s.draw
  if f % 2 ^ s.rd (B.RSV k) R.RSV_NBR_CFG_EXP = 0 then s.count (B.RSV k + C.RSV_NBR_REFRESH) else s

/-- R386: a request takes effect at its stack's controller. `match_`: a read whose bank and row match a write of the
bank's queue that has not retired (R387); `act`: the request activates a row (R390). -/
def execReservoirRequest (k : Stack) (a : Nat) (wr : Option (List Byte)) (match_ act : Bool) (ecc : Ecc) (u : RsvUser) (s : State) :
    Res :=
  if !s.stackReady k || stackSize ≤ a then .next (s.answer .busError)
  else
    let s := if act then s.activate k else s
    let x := a / 64 * 64
    match wr with
    | some data =>
      .next (((s.setStackBlock k x data).setPoisoned k a false).answer .ok)
    | none =>
      let s := if match_ then s.count (B.RSV k + C.RSV_INORDER) else s
      match s.readBlock k a ecc u with
      | (true, s) => .next (s.answer (.bytes (s.stackBlock k x)))
      | (false, s) => .next (s.answer .busError)

/-- tREFI in force, halved while the stack is above 85 °C (Table 16.2). -/
def State.tREFI (s : State) (k : Nat) : Nat :=
  let t := s.rd (B.RSV k) R.RSV_REF_CFG_TREFI
  if s.flag (B.RSV k) R.RSV_STATUS_HOT then t / 2 else t

def State.refreshOwed (s : State) (i : Nat) : Nat := tget (fun _ => 0) s.rsv.owed i

/-- R388: tREFI has passed for a pseudo-channel and a refresh is owed. It is issued with the others owed where the
pseudo-channel is idle, and in a catch-up burst where eight are owed. -/
def execRefreshDue (k : Stack) (pc : Fin 32) (idle : Bool) (s : State) : Res :=
  let i := 32 * k.val + pc.val
  if !s.stackReady k || s.now < tget (fun _ => 0) s.rsv.refAt i + s.tREFI k then .next s
  else
    let n := s.refreshOwed i + 1
    let s := s.onRsv fun r => { r with refAt := tput (fun _ => 0) r.refAt i s.now }
    let put := fun (s : State) (n : Nat) => s.onRsv fun r => { r with owed := tput (fun _ => 0) r.owed i n }
    if idle then .next (put s 0)
    else if 8 ≤ n then .next (put ((s.count (B.RSV k + C.RSV_CATCHUP)).raise 9 0 0) 0)
    else .next (put s n)

/-- R389: a temperature reading, every 1 ms; a threshold is crossed on two successive readings. -/
def execStackTempReading (k : Stack) (t : Fin 256) (s : State) : Res :=
  let b := B.RSV k
  if !s.domOn (65 + k) then .next s
  else .next (s.every (Tm.stackTemp k) (ms 1) fun s =>
    let old := s.rd b R.RSV_STATUS_TEMP
    let s := s.wr b R.RSV_STATUS_TEMP t
    let cross := fun (was : Bool) (at_ : Nat) =>
      if at_ ≤ old && at_ ≤ t then true else if old < at_ && t < at_ then false else was
    let s := s.wrB b R.RSV_STATUS_HOT (cross (s.flag b R.RSV_STATUS_HOT) 86)
    let alarm := cross (s.flag b R.RSV_STATUS_ALARM) 95
    let rise := alarm && !s.flag b R.RSV_STATUS_ALARM
    let s := s.wrB b R.RSV_STATUS_ALARM alarm
    let s := if rise then s.raise (338 + 4 * k) 0 0 else s
    let was := s.rsv.hot105.contains k.val
    let is := cross was 105
    let s := s.onRsv fun r => { r with hot105 := (if is then [k.val] else []) ++ r.hot105.filter (· ≠ k.val) }
    if is && !was then s.raise (339 + 4 * k) 0 0 else s)

/-- R393: the patrol scrub reads the next block of a stack on its schedule. It does not run in Drain. -/
def execPatrolScrubStep (k : Stack) (ecc : Ecc) (u : RsvUser) (s : State) : Res :=
  let b := B.RSV k
  if !s.stackReady k || !s.flag b R.RSV_SCRUB_CFG_EN || s.mode = .drain || !s.scrubDue k then .next s
  else
    let (n, start) := s.scrubOf k
    let e := if s.isPoisoned k (64 * n) then .bad else ecc
    let s := (s.readBlock k (64 * n) ecc u).2
    let s := match e with
      | .good => s
      | .corrected => s.count (b + C.RSV_SCRUB_CE)
      | .bad => s.count (b + C.RSV_SCRUB_UE)
    let put := fun (s : State) (x : Nat × Nat) => s.onRsv fun r => { r with scrub := tput (fun _ => (0, 0)) r.scrub k x }
    if n + 1 = scrubBlocks then .next ((put (s.wr b R.RSV_SCRUB_STAT_PROGRESS 0) (0, s.now)).bgRan 1)
    else .next (put (s.wr b R.RSV_SCRUB_STAT_PROGRESS ((n + 1) * 100 / scrubBlocks)) (n + 1, start))

end Sys2Proof.Machine
end

