-- ==== Sys2Proof/Machine/Hopper.lean ====
section
/-! DEFINITION. The Hopper: pools, allocation, free, link words and the build (R395 to R401). -/
namespace Sys2Proof.Machine

/-- Buffer sizes (Table 16.5). -/
def poolSize (i : Nat) : Nat := [256, 512, 1024, 2048, 4096, 10240, 16384, 65536].getD i 65536
def poolReg (i : Nat) : Nat := B.HOP + 8 * i
def poolCnt (i : Nat) : Nat := B.HOP + 0x20 * i
def State.poolCount (s : State) (i : Nat) : Nat := s.rd (poolReg i) R.HOP_POOL_CFG_COUNT
def State.poolBase (s : State) (i : Nat) : Nat := s.rd (poolReg i) R.HOP_POOL_BASE_BASE * 65536
def listEnd : Nat := 0xFFFF_FFFF

def State.hopList (s : State) (i : Nat) : Nat := tget (fun _ => listEnd) s.hop.lists i
def State.hopUsed (s : State) (x : Nat) : Bool := tget (fun _ => 0) s.hop.bits x = 1
def State.setHead (s : State) (i : Nat) (l : List Nat) : State :=
  s.onHop fun h => { h with heads := tput (fun _ => []) h.heads i l }
def State.setList (s : State) (i x : Nat) : State := s.onHop fun h => { h with lists := tput (fun _ => listEnd) h.lists i x }
def State.setUsed (s : State) (x : Nat) (b : Bool) : State :=
  s.onHop fun h => { h with bits := tput (fun _ => 0) h.bits x (bit b) }

/-- A pool-space offset is the start of a buffer of pool i (R395). -/
def State.inPool (s : State) (i x : Nat) : Bool :=
  decide (s.poolBase i ≤ x) && (x - s.poolBase i) % poolSize i = 0 && decide ((x - s.poolBase i) / poolSize i < s.poolCount i)
def State.poolAt (s : State) (x : Nat) : Option Nat := (List.range 8).find? fun i => s.inPool i x

def State.poolFree (s : State) (i : Nat) : Nat := s.rd (poolStat i) R.HOP_POOL_STAT_FREE
def State.broken (s : State) (i : Nat) : Bool := s.flag (poolStat i) R.HOP_POOL_STAT_BROKEN

/-- The pool turns BROKEN (R398). -/
def State.breakPool (s : State) (i : Nat) : State := (s.userLost (.link (Fin.ofNat 8 i))).1

/-- A link word: NEXT, with CHECK its complement (R398). -/
def linkWord (next : Nat) : List Byte := leBytes 4 next ++ leBytes 4 (listEnd - next)
def State.linkAt (s : State) (x : Nat) : List Byte := bytesAt s.mem (B.POOLM + x) 8

/-- A buffer returned to the list. -/
def State.pushList (s : State) (i x : Nat) : State :=
  ({ s with mem := putBytes s.mem (B.POOLM + x) (linkWord (s.hopList i)) }).setList i x

/-- The head is refilled by a buffer of the list while it is below 8, with the check of its link word; `bad`: the read is
uncorrectable (R398). -/
def State.refillHead (s : State) (i : Nat) (bad : Bool) : State :=
  if 8 ≤ (s.hopHead i).length || s.hopList i = listEnd || s.broken i then s
  else
    let x := s.hopList i
    let w := s.linkAt x
    let next := leNat (w.take 4)
    if bad || w ≠ linkWord next || !(next = listEnd || (s.inPool i next && !s.hopUsed next)) then s.breakPool i
    else (s.setList i next).setHead i (s.hopHead i ++ [x])

/-- The pools are open (R400). -/
def State.hopOpen (s : State) : Bool :=
  s.domOn 66 && s.flag B.HOP R.HOP_CTRL_READY && (s.mode = .priming || s.mode = .flowing || s.mode = .survey)

/-- An allocation answers status, pool and pool-space offset (R396). -/
def State.allocate_ (s : State) (size : Nat) (noSpill bad : Bool) : (Nat × Nat × Option Nat) × State :=
  let fits := (List.range 8).find? fun i => decide (size ≤ poolSize i)
  let empty := fun (s : State) => match fits with
    | some i => if size = 0 then s else s.count (poolCnt i + C.HOP_EMPTY)
    | none => s
  if !s.hopOpen then ((1, 0, none), empty s)
  else if size = 0 || 65536 < size then ((2, 0, none), s)
  else
    let first := fits.getD 7
    let tried := if noSpill then [first] else List.range' first (8 - first)
    match tried.find? fun i => s.hopHead i ≠ [] with
    | none => ((1, 0, none), empty s)
    | some i =>
      let l := s.hopHead i
      let (f, s) := s.draw
      let x := l.getD (f % l.length) 0
      let s := ((s.setHead i (l.filter (· ≠ x))).setUsed x true).count (poolCnt i + C.HOP_ALLOCS)
      let s := if i = first then s else s.count (poolCnt i + C.HOP_SPILL_IN)
      let s := (s.setPoolFree i (s.poolFree i - 1)).refillHead i bad
      ((0, i, some x), s)

/-- HOP_RESULT as one 64-bit value (Table 16.6). -/
def hopResult (r : Nat × Nat × Option Nat) : Nat :=
  r.1 * 2 ^ 60 + r.2.1 * 2 ^ 56 + (match r.2.2 with
    | some x => 0x1_0000_0000 + x
    | none => 0)

/-- R396: an allocation request of an owner; `bad`: the link word of a refill that it causes reads uncorrectable. -/
def execHopReq (o : HopOwner) (v : Word) (bad : Bool) (s : State) : Res :=
  let go := fun (s : State) => s.allocate_ (bitsOf v.toNat 16 0) (bitOf v.toNat 31) bad
  match o with
  | .core n =>
    if !s.domOn (69 + n / 8) || !s.domOn 66 then .next (s.refuse (.core n))
    else
      let (r, s) := go s
      .next ((s.wrPair (B.HSLOT n + R.HOP_RESULT_LO_ADDR_LO.off) (hopResult r)).answer .ok)
  | .silo | .mover | .lk =>
    if !s.domOn 66 then .next (s.answer .busError)
    else
      let (r, s) := go s
      .next (s.answer (.data (hopResult r)))

/-- R399: a free that is refused. -/
def State.freeRefused (s : State) (o : HopOwner) (double : Bool) : State :=
  let s := s.count (B.HOP + (if double then C.HOP_DOUBLE_FREE else C.HOP_BAD_FREE))
  let s := match o with
    | .core n => s.wrB (B.HSLOT n) (if double then R.HOP_FREE_STAT_DOUBLE else R.HOP_FREE_STAT_BAD) true
    | .silo | .mover | .lk => s
  s.raise 20 0 0

/-- R399: a free of a core address, that is, pool-space offset x at 0x1_0000_0000 + x. A freed buffer joins the head,
which returns one to the list where it rises above 24. A BROKEN pool stays as it is. -/
def State.free_ (s : State) (o : HopOwner) (a : Nat) : State :=
  match (if s.hopOpen && decide (0x1_0000_0000 ≤ a) then s.poolAt (a - 0x1_0000_0000) else none) with
  | none => s.freeRefused o false
  | some i =>
    let x := a - 0x1_0000_0000
    if !s.hopUsed x then s.freeRefused o true
    else
      let s := (s.setUsed x false).count (poolCnt i + C.HOP_FREES)
      if s.broken i then s
      else
        let l := s.hopHead i ++ [x]
        let s := if 24 < l.length then (s.setHead i (l.drop 1)).pushList i (l.headD x) else s.setHead i l
        s.setPoolFree i (s.poolFree i + 1)

def execHopFree (o : HopOwner) (a : Nat) (s : State) : Res :=
  match o with
  | .core n =>
    if !s.domOn (69 + n / 8) || !s.domOn 66 then .next (s.refuse (.core n))
    else .next ((s.free_ o (a % 2 ^ 33)).answer .ok)
  | .silo | .mover | .lk => if !s.domOn 66 then .next (s.answer .busError) else .next ((s.free_ o (a % 2 ^ 33)).answer .ok)

/-- BUILD is accepted in Priming, in Survey, and during the return from Trickle to Flowing (R99, R395). -/
def State.mayBuild (s : State) : Bool := s.mode = .priming || s.mode = .survey || s.returning

/-- The pools lie within the 2 GiB of the pool space and apart from each other (R20, R395). -/
def State.poolsOk (s : State) : Bool :=
  let ends := fun i : Nat => s.poolBase i + s.poolCount i * poolSize i
  (List.range 8).all fun i => s.poolCount i = 0
    || (decide (ends i ≤ 2 ^ 31)
        && (List.range i).all fun j => s.poolCount j = 0 || decide (ends i ≤ s.poolBase j) || decide (ends j ≤ s.poolBase i))

/-- R395: the Lockkeeper writes HOP_CTRL: BUILD 1 starts the build, which discards every allocation. Pools that overlap or
pass the region, which R395 forbids, build nothing (DESIGN CHOICE, assumption 93). -/
def execBuild (v : Word) (s : State) : Res :=
  if !s.domOn 66 then .next (s.answer .busError)
  else if bitOf v.toNat R.HOP_CTRL_BUILD.lo && s.mayBuild && !s.hop.building && s.poolsOk then
    let s := s.wrB B.HOP R.HOP_CTRL_READY false
    .next (({ s with hop := { HopSt.init with building := true } }).answer .ok)
  else .next (s.answer .ok)

/-- The free list of a pool as the build writes it: eight buffers in the head, the rest listed. -/
def State.buildPool (s : State) (i : Nat) : State :=
  let n := s.poolCount i
  let at_ := fun j => s.poolBase i + j * poolSize i
  let s := (s.wrB (poolStat i) R.HOP_POOL_STAT_BROKEN false).setHead i ((List.range (min 8 n)).map at_)
  let s := (List.range' 8 (n - 8)).foldl (fun s j => s.pushList i (at_ j)) s
  s.setPoolFree i n

/-- R395: the build ends. -/
def execHopperBuildDone (s : State) : Res :=
  if !s.domOn 66 || !s.hop.building then .next s
  else
    let s := (List.range 8).foldl State.buildPool s
    .next ((s.onHop fun h => { h with building := false }).wrB B.HOP R.HOP_CTRL_READY true)

end Sys2Proof.Machine
end

