-- ==== Sys2Proof/Machine/Mover.lean ====
section
/-! DEFINITION. The bulk mover: channels, bursts, bus errors and the restart of halted channels (R404 to R409). -/
namespace Sys2Proof.Machine

def State.onBmv (s : State) (f : BmvSt → BmvSt) : State := { s with bmv := f s.bmv }

/-- What the offsets of the channel registers are added to, for channel c. -/
def chBase (c : Nat) : Nat := B.BMV + 0x80 * c
def State.ch (s : State) (c : Nat) : BmvCh := tget (fun _ => BmvCh.init) s.bmv.chans c
def State.setCh (s : State) (c : Nat) (x : BmvCh) : State := s.onBmv fun b => { b with chans := tput (fun _ => BmvCh.init) b.chans c x }
def State.chState (s : State) (c : Nat) : Nat := s.rd (chBase c) R.BMV_CH_STATUS_STATE

def State.chSrc (s : State) (c : Nat) : Nat := s.pair (chBase c + R.BMV_CH_SRC_LO_ADDR.off)
def State.chDst (s : State) (c : Nat) : Nat := s.pair (chBase c + R.BMV_CH_DST_LO_ADDR.off)
def State.chTable (s : State) (c : Nat) : Nat := s.pair (chBase c + R.BMV_CH_TABLE_LO_ADDR.off)
def State.chStat (s : State) (c : Nat) : Nat := s.pair (chBase c + R.BMV_CH_STAT_LO_ADDR.off)
def State.chBurst (s : State) (c : Nat) : Nat := s.rd (chBase c) R.BMV_CH_BURST_BYTES
def State.chLen (s : State) (c : Nat) : Nat := s.rd (chBase c) R.BMV_CH_LEN_LEN
def State.chDwrap (s : State) (c : Nat) : Nat := s.rd (chBase c) R.BMV_CH_DWRAP_DWRAP
def State.chElem (s : State) (c : Nat) : Nat := s.rd (chBase c) R.BMV_CH_ELEM_ELEM
def State.chReq (s : State) (c : Nat) : Nat := s.rd (chBase c) R.BMV_CH_CTRL_REQ
def State.chBind (s : State) (c : Nat) : Bool := s.flag (chBase c) R.BMV_CH_CTRL_BIND
def State.chGather (s : State) (c : Nat) : Bool := s.rd (chBase c) R.BMV_CH_CTRL_MODE = 1

/-- A space and, for host memory, its link. -/
def State.chFrom (s : State) (c : Nat) : Nat × Nat := (s.rd (chBase c) R.BMV_CH_SPACE_SSPACE, s.rd (chBase c) R.BMV_CH_SPACE_SLINK)
def State.chTo (s : State) (c : Nat) : Nat × Nat := (s.rd (chBase c) R.BMV_CH_SPACE_DSPACE, s.rd (chBase c) R.BMV_CH_SPACE_DLINK)

/-- Owner of a channel: 0 the Lockkeeper, 1 the Silo, 2 + n core n; none while it is not granted (R404). -/
def State.chOwner (s : State) (c : Nat) : Option Nat :=
  let b := B.BMV + 4 * c
  let o := s.rd b R.BMV_GRANT_OWNER
  if !s.flag b R.BMV_GRANT_EN || o = 3 then none else if o = 2 then some (2 + s.rd b R.BMV_GRANT_CORE) else some o

def masterOwner : Master → Option Nat
  | .lk => some 0
  | .silo => some 1
  | .core n => some (2 + n)
  | .host _ _ | .debug => none

/-! ### Ranges, reads and writes (R404, R407) -/

/-- The plot of a link's manager. -/
def State.managerPlot (s : State) (m : Nat) : Option Nat := s.plotOf m 0

/-- A range lies wholly inside one region that the owner may use. -/
def State.spaceOk (s : State) (o : Nat) (sp : Nat × Nat) (addr len : Nat) (wr : Bool) : Bool :=
  if sp.1 = 0 then
    (Config.moverRegions o).any (fun r => decide (r.1 ≤ addr) && decide (addr + len ≤ r.1 + r.2))
      && (List.range' (addr / 4096) ((addr + len + 4095) / 4096 - addr / 4096)).all fun g => s.raOn (g * 4096)
  else if sp.1 = 1 then (match s.coreMemory 0 addr len with
    | some (k, true) => decide (B.POOLM ≤ k)
    | _ => false)
  else match s.managerPlot sp.2 with
    | some p => s.windowOk p addr len wr
    | none => false

def State.raBytes (s : State) (a n : Nat) : List Byte := (List.range' a n).map fun x => byteAt s.mem (s.raHome x)

def State.raPut (s : State) (a : Nat) (data : List Byte) : State :=
  data.zipIdx.foldl (fun (s : State) d => { s with mem := putByte s.mem (s.raHome (a + d.2)) d.1 }) (s.raHeal a data.length)

/-- What a failed access to a space leaves in its host port. -/
def State.spaceErr (s : State) (sp : Nat × Nat) (checked : Bool) (e : Fetch) : State :=
  if sp.1 ≠ 2 then s
  else if !checked then (match s.managerPlot sp.2 with
    | some p => s.windowErr p
    | none => s)
  else s.logDma sp.2 (match e with
    | .timeout => .timeout
    | .poisoned => .poisoned
    | _ => .ur)

/-- The data of a read, with how the access ends: the bytes of host memory are the operand's, others the memory's. -/
def State.spaceRead (s : State) (o : Nat) (sp : Nat × Nat) (addr len : Nat) (e : Fetch) : Option (List Byte) :=
  if !s.spaceOk o sp addr len false then none
  else match e with
    | .ok data =>
      if sp.1 = 2 then some (fit len data)
      else if sp.1 = 0 then (if s.raPoisoned addr len then none else some (s.raBytes addr len))
      else (s.coreMemory 0 addr len).bind fun k => if s.corePoisoned k.1 len then none else some (bytesAt s.mem k.1 len)
    | .ur | .timeout | .poisoned | .window => none

/-- A posted write into a space. -/
def State.spaceWrite (s : State) (sp : Nat × Nat) (addr : Nat) (data : List Byte) : State :=
  if sp.1 = 0 then s.raPut addr data
  else if sp.1 = 1 then (match s.coreMemory 0 addr data.length with
    | some (k, _) => s.putCore k data
    | none => s)
  else match s.managerPlot sp.2 with
    | some p => (s.logWrite p addr data.length).postWrite sp.2 0 addr data
    | none => s

/-! ### START and endings (R405, R406, R408) -/

/-- Base of the tap ring of a request line, added to the offsets of the ring's registers. -/
def lineRing (n : Nat) : Nat := B.TAP (n / 16) + 0x20 * (n % 16)
def State.ringProd (s : State) (n : Nat) : Nat := s.rd (lineRing n) R.TAP_RING_PROD_PROD
def State.ringCons (s : State) (n : Nat) : Nat := s.rd (lineRing n) R.TAP_RING_CONS_CONS

/-- Source and destination ranges of a linear transfer overlap: ranges of one space. The source of a bound channel is its tap ring,
and a transfer without LEN has no end of its own. -/
def State.chOverlap (s : State) (c : Nat) : Bool :=
  let len := if s.chLen c = 0 then 2 ^ 64 else s.chLen c
  let dlen := if s.chDwrap c = 0 then len else min len (s.chDwrap c)
  let r := lineRing (s.chReq c)
  let (sp, a, n) : (Nat × Nat) × Nat × Nat :=
    if s.chBind c then ((0, 0), s.pair (r + R.TAP_RING_BASE_LO_BASE.off), 160 * 2 ^ s.rd r R.TAP_RING_SIZE_SIZE)
    else (s.chFrom c, s.chSrc c, len)
  sp.1 = (s.chTo c).1 && (sp.1 ≠ 2 || sp.2 = (s.chTo c).2) && decide (a < s.chDst c + dlen) && decide (s.chDst c < a + n)

/-- START finds the fields in order (R405). -/
def State.chValid (s : State) (c : Nat) : Bool :=
  let mode := s.rd (chBase c) R.BMV_CH_CTRL_MODE
  let bind := s.chBind c
  mode < 2 && (s.chFrom c).1 < 3 && (s.chTo c).1 < 3 && (s.chReq c < 64 || s.chReq c = 0xFF)
    && s.chStat c % 16 = 0 && (mode = 1 || s.chDwrap c % s.chBurst c = 0)
    && !(s.chLen c = 0 && !bind) && !(bind && (mode = 1 || s.chBurst c % 160 ≠ 0 || s.chReq c = 0xFF))
    && !(mode = 0 && s.chOverlap c)

def State.setResidue (s : State) (c : Nat) : State :=
  s.wr (chBase c) R.BMV_CH_RESIDUE_RESIDUE (s.chLen c - (s.ch c).done)

def State.setHalt (s : State) (c : Nat) (b : Bool) : State :=
  let r := B.BMV + R.BMV_HALT_HALT.off
  s.wrW r (setBits (s.reg r).toNat c c (bit b))

def State.setChState (s : State) (c st : Nat) : State :=
  (s.wr (chBase c) R.BMV_CH_STATUS_STATE st).setHalt c (st = 4)

/-- A channel ends (R408): status record, then the owner's interrupt. -/
def State.endCh (s : State) (c st : Nat) : State :=
  let s := ((s.setResidue c).setChState c st).setCh c { s.ch c with abort := false }
  let s := if st = 3 then s.count (B.BMV + C.BMV_ABORTS) else if st = 5 then s.count (B.BMV + C.BMV_FAILED) else s
  let o := (s.chOwner c).getD 0
  let rec_ := leBytes 4 (s.rd (chBase c) R.BMV_CH_RESIDUE_RESIDUE) ++ leBytes 1 st ++ leBytes 1 c ++ leBytes 2 0
    ++ leBytes 8 s.timeWord
  let s := if s.chStat c ≠ 0 && s.spaceOk o (s.chTo c) (s.chStat c) 16 true then s.spaceWrite (s.chTo c) (s.chStat c) rec_ else s
  if s.flag (chBase c) R.BMV_CH_CTRL_IRQ_EN && 2 ≤ o then s.emit (.coreIrq (o - 2)) else s

/-- START by the owner of a channel that is not RUNNING or HALTED. -/
def State.startCh (s : State) (c : Nat) : State :=
  let n := s.chReq c
  let s := s.setCh c { done := 0, asked := if n < 64 then (if s.chBind c then s.ringCons n else s.ringProd n) else 0, abort := false }
  (s.setResidue c).setChState c (if s.chValid c then 1 else 6)

/-- Entries that a line's request stands for. -/
def State.reqEntries (s : State) (c : Nat) : Nat := max 1 (s.chBurst c / 160)

/-- A channel has a burst ready (R406). -/
def State.chReady (s : State) (c : Nat) : Bool :=
  s.chState c = 1 && (s.chReq c = 0xFF
    || decide (s.reqEntries c ≤ (s.ringProd (s.chReq c) + 2 ^ 32 - (s.ch c).asked % 2 ^ 32) % 2 ^ 32))

/-! ### The restart (R409) -/

/-- The next channel to probe is resumed alone; after the last, every channel that passed is resumed in full. -/
def State.nextProbe (s : State) : List Nat → State
  | [] =>
    let s := (s.bmv.passed.filter fun c => s.chState c = 4).foldl (fun s c => s.setChState c 1) s
    (s.onBmv fun b => { b with probe := none, toProbe := [], passed := [] }).ackRouted 19
  | c :: cs =>
    if s.chState c ≠ 4 then s.nextProbe cs
    else if (s.ch c).abort then (s.endCh c 3).nextProbe cs
    else (s.setChState c 1).onBmv fun b => { b with probe := some c, toProbe := cs }

/-- The tap-ring entries that a bound channel's burst of n bytes reads (R406). -/
def State.ringEntries (s : State) (c n : Nat) : List Nat :=
  let r := lineRing (s.chReq c)
  (List.range ((n + 159) / 160)).map fun j =>
    s.pair (r + R.TAP_RING_BASE_LO_BASE.off) + 160 * ((s.ringCons (s.chReq c) + j) % 2 ^ s.rd r R.TAP_RING_SIZE_SIZE)

/-- The range of a linear channel's current burst in a space holds an address. -/
def State.burstHolds (s : State) (c addr : Nat) (sp : Nat × Nat) : Bool :=
  let d := (s.ch c).done
  let n := if s.chLen c = 0 then s.chBurst c else min (s.chBurst c) (s.chLen c - d)
  let same := fun (x : Nat × Nat) => x.1 = sp.1 && (sp.1 ≠ 2 || x.2 = sp.2)
  let dst := s.chDst c + (if s.chDwrap c = 0 then d else d % s.chDwrap c)
  (s.chBind c && sp.1 = 0 && (s.ringEntries c n).any fun a => decide (a ≤ addr) && decide (addr < a + 160))
    || (!s.chBind c && same (s.chFrom c) && decide (s.chSrc c + d ≤ addr) && decide (addr < s.chSrc c + d + n))
    || (same (s.chTo c) && decide (dst ≤ addr) && decide (addr < dst + n))

/-- R409: the Lockkeeper starts to restart the halted channels. -/
def execBmvRestart (s : State) : Res :=
  let halted := (List.range 32).filter fun c => s.chState c = 4
  if !s.domOn 77 || halted = [] || s.bmv.probe.isSome then .next s
  else
    let addr := s.pair (B.BMV + R.BMV_ERR_ADDR_LO_ADDR.off)
    let sp := (s.rd B.BMV R.BMV_ERR_INFO_SPACE, s.rd B.BMV R.BMV_ERR_INFO_LINK)
    let bad := halted.filter fun c => !s.chGather c && s.burstHolds c addr sp
    let s := bad.foldl (fun s c => if (s.ch c).abort then s.endCh c 3 else s.endCh c 5) s
    .next (s.nextProbe (halted.filter fun c => !bad.contains c))

/-- A bus error (R407): every RUNNING channel halts. During a probe the probed channel fails. -/
def State.busError (s : State) (sp : Nat × Nat) (addr : Nat) (wr : Bool) : State :=
  let s := s.count (B.BMV + C.BMV_BUS_ERRORS)
  let s := s.wrPair (B.BMV + R.BMV_ERR_ADDR_LO_ADDR.off) addr
  let s := s.wrW (B.BMV + R.BMV_ERR_INFO_VALID.off)
    (2 ^ 31 + bit wr * 2 ^ 8 + sp.1 * 2 ^ 6 + (if sp.1 = 2 then sp.2 * 4 else 0))
  let run := (List.range 32).filter fun c => s.chState c = 1
  let s := run.foldl (fun s c => (s.setResidue c).setChState c 4) s
  let s := s.raise 19 0 0
  match s.bmv.probe with
  | none => s
  | some p =>
    let rest := s.bmv.toProbe ++ run.filter (· ≠ p)
    ((s.endCh p 5).onBmv fun b => { b with probe := none, toProbe := [] }).nextProbe rest

/-! ### Bursts -/

/-- Reads in order, each with how it ends: the bytes, or the address, length and place of the one that
failed. -/
def State.readAll (s : State) (o : Nat) (sp : Nat × Nat) (e : List Fetch) : List (Nat × Nat) → Nat → List Byte →
    Except (Nat × Nat × Nat) (List Byte)
  | [], _, acc => .ok acc
  | (addr, len) :: rest, i, acc =>
    match s.spaceRead o sp addr len (e.getD i (.ok [])) with
    | some l => s.readAll o sp e rest (i + 1) (acc ++ l)
    | none => .error (addr, len, i)

/-- The data of a channel's burst and what it counts: bytes, or elements. -/
def State.burstData (s : State) (c : Nat) (e : List Fetch) : Except (Nat × Nat × Nat) (Nat × List Byte) :=
  let d := (s.ch c).done
  let o := (s.chOwner c).getD 0
  if s.chGather c then
    let k := min (max 1 (s.chBurst c / s.chElem c)) (s.chLen c - d)
    match s.readAll o (s.chFrom c) e [(s.chTable c + 4 * d, 4 * k)] 0 [] with
    | .error x => .error x
    | .ok t =>
      let offs := (List.range k).map fun i => leNat ((t.drop (4 * i)).take 4)
      (s.readAll o (s.chFrom c) e (offs.map fun x => (s.chSrc c + x, s.chElem c)) 1 []).map fun l => (k, l)
  else
    let n := if s.chLen c = 0 then s.chBurst c else min (s.chBurst c) (s.chLen c - d)
    if s.chBind c then
      let ents := s.ringEntries c n
      match ents.find? fun a => s.raPoisoned a 160 || !s.raOn a || e.getD 0 (.ok []) == .poisoned with
      | some a => .error (a, 160, 0)
      | none => .ok (n, (ents.flatMap fun a => bytesAt s.mem (B.RA + a) 160).take n)
    else (s.readAll o (s.chFrom c) e [(s.chSrc c + d, n)] 0 []).map fun l => (n, l)

/-- Where a channel's burst goes. -/
def State.burstDest (s : State) (c : Nat) : Nat :=
  let d := (s.ch c).done
  if s.chGather c then s.chDst c + d * s.chElem c
  else s.chDst c + (if s.chDwrap c = 0 then d else d % s.chDwrap c)

/-- A burst has been written: the channel moves on, ends, or has passed its probe. -/
def State.burstDone (s : State) (c n : Nat) : State :=
  let x := s.ch c
  let s := s.count (B.BMV + C.BMV_BURSTS)
  let s := (s.setCh c { x with done := x.done + n, asked := (x.asked + s.reqEntries c) % 2 ^ 32 }).setResidue c
  let s := if s.chBind c then
    s.wr (lineRing (s.chReq c)) R.TAP_RING_CONS_CONS (s.ringCons (s.chReq c) + n / 160) else s
  let ends := s.chLen c ≠ 0 && s.chLen c ≤ x.done + n
  let s := if ends then s.endCh c 2 else if x.abort then s.endCh c 3 else s
  if s.bmv.probe = some c then
    let s := if ends || x.abort then s else (s.setChState c 4).onBmv fun b => { b with passed := b.passed ++ [c] }
    s.nextProbe s.bmv.toProbe
  else s

/-- R405, R406: the ready channel whose turn it is issues one burst. `e` gives the end of each read in order. -/
def execBmvBurst (e : List Fetch) (s : State) : Res :=
  match (if s.domOn 77 then firstFrom s.chReady 0 32 32 ((s.bmv.rot + 1) % 32) else none) with
  | none => .next s
  | some c =>
    let s := s.onBmv fun b => { b with rot := c }
    let o := (s.chOwner c).getD 0
    let src := if s.chBind c then (0, 0) else s.chFrom c
    match s.burstData c e with
    | .error (addr, len, i) =>
      .next ((s.spaceErr src (s.spaceOk o src addr len false) (e.getD i .ur)).busError src addr false)
    | .ok (n, data) =>
      if s.spaceOk o (s.chTo c) (s.burstDest c) data.length true then
        .next ((s.spaceWrite (s.chTo c) (s.burstDest c) data).burstDone c n)
      else .next ((s.spaceErr (s.chTo c) false .ur).busError (s.chTo c) (s.burstDest c) true)

/-! ### Writes of BMV_CH_CTRL -/

/-- ABORT (R408): at once where no burst is under way. -/
def State.abortCh (s : State) (c : Nat) : State :=
  if s.chState c = 4 && s.bmv.probe.isNone then s.endCh c 3
  else if s.chState c = 4 || s.chReady c then s.setCh c { s.ch c with abort := true }
  else if s.chState c = 1 then
    let s := s.endCh c 3
    if s.bmv.probe = some c then s.nextProbe s.bmv.toProbe else s
  else s

/-- A write of a channel's control register reaches it: its settings, then the bit that the write acts by. -/
def State.ctrlWrite (s : State) (who : Master) (c : Nat) (v : Word) (act : State → State) : Res :=
  let a := B.BMV + 0x2000 + 0x80 * c
  match who with
  | .host _ _ => .next (s.refuse who)
  | .lk | .silo | .core _ | .debug =>
    if !s.reaches who || !s.domOn 77 || !s.channelOk who a then .next (s.refuse who)
    else .next ((act (s.writeWord a .write v.toNat)).answer .ok)

def execBmvStart (who : Master) (c : Channel) (v : Word) (s : State) : Res :=
  s.ctrlWrite who c v fun t =>
    if bitOf v.toNat 31 && s.chState c ≠ 1 && s.chState c ≠ 4 && masterOwner who = s.chOwner c && (s.chOwner c).isSome then t.startCh c
    else t

def execBmvAbort (who : Master) (c : Channel) (v : Word) (s : State) : Res :=
  s.ctrlWrite who c v fun t => if bitOf v.toNat 30 then t.abortCh c else t

def execBmvResume (who : Master) (c : Channel) (v : Word) (s : State) : Res :=
  s.ctrlWrite who c v fun t =>
    if bitOf v.toNat 29 && who = .lk && t.chState c = 4 then
      (if (t.ch c).abort then t.endCh c 3 else t.setChState c 1)
    else t

end Sys2Proof.Machine
end

