-- ==== Sys2Proof/Machine/Kcu.lean ====
section
/-! DEFINITION. The key cipher unit: lock, operations and their times, and the key commands (R413 to R419). -/
namespace Sys2Proof.Machine

def State.onKcu (s : State) (f : KcuSt → KcuSt) : State := { s with kcu := f s.kcu }
def State.kek (s : State) (i : Nat) : List Byte := tget (fun _ => []) s.keks i
def State.setKek (s : State) (i : Nat) (k : List Byte) : State := { s with keks := tput (fun _ => []) s.keks i k }

/-- A master of the KCU is there: the Silo engine's domain is on; the debug port has the path open, in Survey (R413). -/
def State.kcuThere (s : State) (m : Nat) : Bool :=
  s.domOn 77 && (if m = 1 then s.domOn 74 else if m = 2 then s.flag B.SEC R.SEC_DEBUG_KCU_DBG && s.mode = .survey else true)

/-- R413: masters claim at one moment; the lock goes to the first by rank where it is free. -/
def execKcuClaim (ms : List (Fin 3)) (s : State) : Res :=
  match [0, 1, 2].find? fun m => ms.any (·.val = m) && s.kcuThere m with
  | none => .next s
  | some m => .next (if s.kcu.holder.isSome then s else s.onKcu fun k => { k with holder := some m })

/-- R417: the holder writes RELEASE. -/
def execKcuRelease (m : Fin 3) (s : State) : Res := .next (if s.kcuThere m then s.kcuFree m false else s)

/-! ### Operations (Table 17.3) -/

def ceilDiv (a b : Nat) : Nat := (a + b - 1) / b

/-- LEN and AAD are as Table 17.3 allows for an operation. -/
def kcuLenOk (op len aad : Nat) : Bool :=
  if op = 1 then true
  else if op = 2 then 16 ≤ len && len ≤ 4088 && len % 8 = 0
  else if op = 3 then 24 ≤ len && len ≤ 4096 && len % 8 = 0
  else if op = 4 then 1 ≤ len && len ≤ 4080
  else if op = 5 then 16 ≤ len && len ≤ 4096 && len % 8 = 0
  else if op = 6 then len ≤ 4096
  else if op = 7 then len ≤ 4096 && aad ≤ len
  else if op = 8 then len ≤ 4096 && aad + 16 ≤ len
  else false

/-- A of R415. -/
def kcuBlocks (op len aad : Nat) : Nat :=
  if !kcuLenOk op len aad then Config.kcuA op (aad * 2 ^ 16 + len)
  else if op = 1 then 1
  else if op = 2 then 6 * (len / 8)
  else if op = 3 then 6 * (len / 8 - 1)
  else if op = 4 then (if ceilDiv len 8 = 1 then 1 else 6 * ceilDiv len 8)
  else if op = 5 then (if len / 8 - 1 = 1 then 1 else 6 * (len / 8 - 1))
  else if op = 6 then max 1 (ceilDiv len 16) + 1
  else ceilDiv (len - aad) 16 + ceilDiv aad 16 + 2

/-- T of R415 in ns. -/
def kcuTime (op len aad : Nat) : Nat := 600 + 50 * kcuBlocks op len aad

/-- The result of an operation, none where an integrity check or a tag fails or the slot holds no key. -/
def State.kcuCompute (s : State) (m : Nat) : Option (List Byte) :=
  let w := B.KCUM m
  let op := s.rd w R.KCU_CMD_OP
  let kek := s.kek (s.rd w R.KCU_CMD_KEK)
  let len := s.rd w R.KCU_LEN_LEN
  let aad := s.rd w R.KCU_LEN_AAD
  let inp := bytesAt s.mem (w + 0x1000) len
  let words := fun b n => (List.range n).flatMap fun i => leBytes 4 (s.reg (w + b + 4 * i)).toNat
  if op = 1 then some (words 0x20 8)
  else if kek = [] then none
  else if op = 2 then some (Config.keyWrap false kek inp)
  else if op = 3 then Config.keyUnwrap false kek inp
  else if op = 4 then some (Config.keyWrap true kek inp)
  else if op = 5 then Config.keyUnwrap true kek inp
  else if op = 6 then some (Config.cmac kek inp)
  else if op = 7 then some (Config.gcmSeal kek (words 0x40 3) (inp.take aad) (inp.drop aad))
  else if op = 8 then Config.gcmOpen kek (words 0x40 3) (inp.take aad) (inp.drop aad)
  else none

/-- A KIND that an operation may have. -/
def kcuKindOk (op kind : Nat) : Bool :=
  if op = 1 then kind = 1
  else if op = 3 || op = 5 then 1 ≤ kind && kind ≤ 4
  else if op = 8 then kind ≤ 4
  else kind = 0

/-- KCU_START (R415): the operation begins with the starting master's own copy. -/
def State.kcuStart (s : State) (m : Nat) : State :=
  let w := B.KCUM m
  let op := s.rd w R.KCU_CMD_OP
  let len := s.rd w R.KCU_LEN_LEN
  let aad := s.rd w R.KCU_LEN_AAD
  let kind := s.rd w R.KCU_DEST_KIND
  let ok := s.kcu.holder = some m && kcuLenOk op len aad && kcuKindOk op kind
  let o : KcuOp := { due := s.now + kcuTime op len aad, kind := kind, index := s.rd w R.KCU_DEST_INDEX,
                     res := if ok then s.kcuCompute m else none }
  let s := (s.wrB w R.KCU_STATUS_RUNNING true).wrB w R.KCU_STATUS_DONE false
  s.onKcu fun k => { k with ops := tput (fun _ => none) k.ops m (some o) }

def State.kcuOp (s : State) (m : Nat) : Option KcuOp := tget (fun _ => none) s.kcu.ops m

def execKcuStart (m : Fin 3) (s : State) : Res :=
  .next (if !s.kcuThere m || (s.kcuOp m).isSome then s else s.kcuStart m)

/-- A key goes to its destination (Table 17.2); none where the destination refuses it. -/
def State.putKey (s : State) (kind i : Nat) (k : List Byte) : Option State :=
  if kind = 1 then (if 1 ≤ i && i ≤ 15 && k.length = 32 then some (s.setKek i k) else none)
  else if kind = 2 then (if s.domOn 76 && Sa.valid (s.espSa i) && k.length = 36 then some (s.setEspKey i k) else none)
  else if kind = 3 then
    (if i / 128 < 24 && s.domOn (29 + i / 128) && i % 128 < 80 && k.length = 32 then
       some (s.setSa i { s.sa i with keyed := true, key := k }) else none)
  else if kind = 4 then
    (if !s.domOn 74 || 4096 < i || k.length ≠ 32 then none
     else if i = 4096 then some (s.onSilo fun c => { c with vaultKey := true })
     else some (if (s.vol i).live then s.setVol i { s.vol i with online := true } else s))
  else none

/-- R415, R416: at T the result arrives, in the output buffer as far as that holds it. `late`: the work had not finished by then. -/
def execKcuResult (m : Fin 3) (late : Bool) (s : State) : Res :=
  match s.kcuOp m with
  | none => .next s
  | some o =>
    if !s.domOn 77 || s.now < o.due then .next s
    else
      let w := B.KCUM m
      let s := s.onKcu fun k => { k with ops := tput (fun _ => none) k.ops m none }
      let s := ((s.wrB w R.KCU_STATUS_RUNNING false).wrB w R.KCU_STATUS_DONE true).event none 0x0A
      let out := fun (s : State) (st n : Nat) => (s.wr w R.KCU_STATUS_RESULT st).wr w R.KCU_STATUS_OUT_LEN n
      let refuse := fun (s : State) => out s 0x30 0
      if late then .next ((refuse s).raise 18 0 0)
      else match (if s.kcu.holder = some m.val then o.res else none) with
        | none => .next (refuse s)
        | some r =>
          if o.kind = 0 then .next (out { s with mem := putBytes s.mem (w + 0x2000) (r.take 4096) } 0 r.length)
          else match s.putKey o.kind o.index r with
            | some s => .next (out s 0 0)
            | none => .next (refuse s)

/-- R417: the debug port disconnects. -/
def execDebugPortDisconnect (s : State) : Res := .next (s.kcuFree 2 true)

/-! ### Commands (Table 17.5a, R419) -/

/-- A command that a core mailbox may not give. -/
def State.hostCommand (s : State) (q : Req) (opcode : Nat) (k : Cmd → State → State) : State :=
  s.command q opcode fun c s => if !reqIsHost q then s.finish q St.REFUSED else k c s

/-- KEK_LOAD. The KEK of slot 1 is also kept for later power cycles, wrapped under slot 0 (R359). -/
def execKekLoad (q : Req) (s : State) : Res :=
  .next (s.hostCommand q 0x0360 fun c s =>
    let i := c.u8 8
    let p := c.u8 9
    if !(1 ≤ i && i ≤ 15) || 15 < p || p = i || !s.domOn 77 then s.finish q St.BAD_ARGUMENT
    else if !s.kcuTakes 0 then s
    else match (if s.kek p = [] then none else Config.keyUnwrap false (s.kek p) (c.bytes 16 40)) with
      | none => s.finish q St.REFUSED
      | some k =>
        match s.putKey 1 i k with
        | none => s.finish q St.REFUSED
        | some s =>
          let s := if i = 1 then s.onVault fun v => { v with kek1 := Config.keyWrap false (s.kek 0) k } else s
          s.done q [])

/-- An SA in use is held by a plot of another link than the requester's (R75). -/
def State.saForeign (s : State) (q : Req) (i : Nat) : Bool :=
  match q with
  | .core _ => false
  | .host m _ => Sa.valid (s.espSa i) && (s.fnOfPlot (Sa.plot (s.espSa i))).map (·.1) ≠ some m.val

def execEspSaInstall (q : Req) (s : State) : Res :=
  .next (s.hostCommand q 0x0361 fun c s =>
    let i := c.u16 10
    let rx := bitOf (c.u8 12) 0
    match s.localPlot q (c.u16 8) with
    | .error st => s.finish q st
    | .ok p =>
      if s.saForeign q i then s.finish q St.REFUSED
      else if Sa.valid (s.espSa i) || 5 < c.u8 13 || 15 < c.u8 14 || !s.domOn 76 || !s.domOn 77
          || (rx && (s.rxSa p (c.u32 16)).isSome) then s.finish q St.BAD_ARGUMENT
      else if !s.kcuTakes 0 then s
      else
        let e := 2 ^ 255 + bit rx * 2 ^ 254 + bit (bitOf (c.u8 12) 1) * 2 ^ 253 + c.u8 13 * 2 ^ 248 + p * 2 ^ 232
          + c.u32 16 * 2 ^ 192 + 1 * 2 ^ 128
        let s := (s.setEspKey i []).setEspSa i e
        let kek := s.kek (c.u8 14)
        match (if kek = [] then none else Config.keyUnwrap true kek (c.bytes 20 48)) with
        | none => s.finish q St.REFUSED
        | some k =>
          match s.putKey 2 i k with
          | none => s.finish q St.REFUSED
          | some s => s.done q [])

def execEspSaDelete (q : Req) (s : State) : Res :=
  .next (s.hostCommand q 0x0362 fun c s =>
    let i := c.u16 10
    if s.saForeign q i then s.finish q St.REFUSED else ((s.setEspKey i []).setEspSa i 0).done q [])

def execEspSaRead (q : Req) (s : State) : Res :=
  .next (s.command q 0x0363 fun c s =>
    let i := c.u16 10
    if s.saForeign q i then s.finish q St.REFUSED else s.done q (leBytes 32 (s.espSa i)))

/-- Lane group and SA of a MACsec command, in a powered group. -/
def State.macsecArgs (s : State) (c : Cmd) : Option Nat :=
  if c.u8 8 < 24 && s.domOn (29 + c.u8 8) && c.u8 9 < 80 then some (128 * c.u8 8 + c.u8 9) else none

/-- Another receive SA of the same SC is installed with another SCI (R119). -/
def State.otherSci (s : State) (i sci : Nat) : Bool :=
  (List.range' (i / 4 * 4) 4).any fun j => j ≠ i && (s.sa j).installed && (s.sa j).sci ≠ sci

/-- R419: an SA is installed. A receive SA that names another SCI than its SC has is not taken. A transmit SA becomes the
active one of its port: no command of its own makes an SA active. An SA that is given its own key again goes on from the packet
numbers it has used (R120). (DESIGN CHOICE, assumption 85.) -/
def execMacsecSaInstall (q : Req) (s : State) : Res :=
  .next (s.command q 0x0364 fun c s =>
    match s.macsecArgs c with
    | none => s.finish q St.BAD_ARGUMENT
    | some i =>
      if 15 < c.u8 11 || !s.domOn 77 then s.finish q St.BAD_ARGUMENT
      else if !s.kcuTakes 0 then s
      else match (if s.kek (c.u8 11) = [] then none else Config.keyUnwrap false (s.kek (c.u8 11)) (c.bytes 48 40)) with
        | none => s.finish q St.REFUSED
        | some k =>
          if k.length ≠ 32 then s.finish q St.REFUSED
          else
            let old := s.sa i
            let x : MacsecSA := { installed := true, keyed := true, key := k, salt := c.bytes 16 12, ssci := c.u32 12,
                                  sci := c.u64 36, pn := if old.key = k then max old.pn (c.u64 28) else c.u64 28 }
            if i % 128 < 64 then
              if s.otherSci i x.sci then s.finish q St.BAD_ARGUMENT else (s.setSa i x).done q []
            else ((s.setSa i x).activateSa (4 * (i / 128) + (i % 128 - 64) / 4) (i % 4)).done q [])

def execMacsecSaRetire (q : Req) (s : State) : Res :=
  .next (s.command q 0x0365 fun c s =>
    match s.macsecArgs c with
    | none => s.finish q St.BAD_ARGUMENT
    | some i =>
      let p := 4 * (i / 128) + (i % 128 - 64) / 4
      let s := s.setSa i MacsecSA.none
      (if 64 ≤ i % 128 && tget (fun _ => 0) s.eth.activeAN p = i % 4 + 1 then
        { s with eth := { s.eth with activeAN := tput (fun _ => 0) s.eth.activeAN p 0 } } else s).done q [])

/-- STATE in bits 31 to 28 and RESIDUE[23:0] of each channel, as BMV_CH_STATUS and BMV_CH_RESIDUE hold them. -/
def execBmvStatus (q : Req) (s : State) : Res :=
  .next (s.command q 0x0366 fun _ s =>
    s.done q (leBytes 4 (s.rd B.BMV R.BMV_HALT_HALT) ++ leBytes 8 (s.pair (B.BMV + R.BMV_ERR_ADDR_LO_ADDR.off))
      ++ leBytes 4 (s.reg (B.BMV + R.BMV_ERR_INFO_VALID.off)).toNat
      ++ (List.range 32).flatMap fun c =>
        leBytes 4 (s.chState c * 2 ^ 28 + s.rd (chBase c) R.BMV_CH_RESIDUE_RESIDUE % 2 ^ 24)))

end Sys2Proof.Machine
end

