-- ==== Sys2Proof/Machine/Collector.lean ====
section
/-! DEFINITION. The fault collector's events, watchdog and ALIVE, performance counters and snapshots, background work,
telemetry, and class 0x06xx (R421 to R439). -/
namespace Sys2Proof.Machine

/-! ### Messages, windows, acknowledgement (R421 to R426) -/

/-- R423: a fault message reaches the collector. A reserved source is never raised (R421). -/
def execFaultMessage (n : Source) (kind : Fin 64) (addr : Fin 281474976710656) (s : State) : Res :=
  .next (if srcReserved n then s else s.raise n kind addr)

/-- R425: the window of a source ends unacknowledged. -/
def execFaultWindowEnd (n : Source) (s : State) : Res :=
  match s.flt.windows.find? fun w => w.src = n.val && decide (w.endAt ≤ s.now) with
  | none => .next s
  | some w => .next (s.escalate w)

/-- R426: W1C of FLT_STICKY_k by the Lockkeeper, ignored for sources at Latched. -/
def execStickyClear (k : Fin 11) (v : Word) (s : State) : Res :=
  .next (((List.range 32).foldl (fun s j =>
    let n := 32 * k.val + j
    if bitOf v.toNat j && s.sticky n && s.sev n ≠ 4 then s.ackFault n else s) s).answer .ok)

/-! ### Watchdog and ALIVE (R429, R430) -/

def execWatchdogKick (v : Word) (s : State) : Res :=
  .next ((if v.toNat % 256 = 0xA5 then { s with flt := { s.flt with kickAt := s.now } } else s).answer .ok)

/-- R429: nothing further after a Latched fault (Table 18.9). The watchdog starts again with the reboot it causes. -/
def execWatchdogExpiry (s : State) : Res :=
  if s.now < s.flt.kickAt + ms (s.rd B.FLT R.FLT_WDOG_PERIOD) || s.rd B.FLT R.FLT_ALIVE_CAUSE = 3 then .next s
  else
    let s := (s.stopAlive 2).raise 3 0 0
    let s := s.notifyFault 3
    let s := { s with flt := { s.flt with kickAt := s.now } }
    .next ((s.wr B.FLT R.FLT_WDOG_PERIOD 2000).trigger (.warm true))

def execAliveStart (v : Word) (s : State) : Res :=
  let s := s.answer .ok
  if !bitOf v.toNat R.FLT_ALIVE_START.lo || !s.modes.lkRunning || s.rd B.FLT R.FLT_ALIVE_CAUSE = 3 || s.latched || s.flt.aliveRun || s.oscLost then
    .next s
  else
    let s := (s.wr B.FLT R.FLT_ALIVE_CAUSE 0).wrB B.PWR R.PWR_PINS_ALIVE true
    .next (({ s with flt := { s.flt with aliveRun := true, aliveLevel := true } }.stamp Tm.alive).emit (.pin "ALIVE" true))

/-- R430: half a period of ALIVE has passed: 1 ms less 1% at the least. -/
def execAliveToggle (s : State) : Res :=
  if !s.flt.aliveRun || !s.due Tm.alive 990000 then .next s
  else
    let b := !s.flt.aliveLevel
    let s := s.stamp Tm.alive
    .next (({ s with flt := { s.flt with aliveLevel := b } }.wrB B.PWR R.PWR_PINS_ALIVE b).emit (.pin "ALIVE" b))

/-! ### Performance counters and snapshots (R431 to R433) -/

/-- R431: the Lockkeeper writes a counter's selector. -/
def execPmcSelectWrite (p : Option Pipe) (i : Fin 16) (v : Word) (s : State) : Res :=
  let k := p.map (·.val)
  let key := pmcSel k i
  if pmcNum k ≤ i.val || !s.domOn ((domAt key).getD 0) then .next (s.answer .busError)
  else .next ((s.writeWord key .write v.toNat).answer .ok)

/-- R433: SNAP fixes T; while a snapshot is in progress it has no effect. -/
def State.snap (s : State) : State :=
  if !s.flag B.PMC R.PMC_CTRL_SNAP_DONE then s
  else
    let s := s.wrB B.PMC R.PMC_CTRL_SNAP_DONE false
    { s with flt := { s.flt with snapT := some ((s.now + 2000 + 999) / 1000 * 1000) } }

def execSnap (v : Word) (s : State) : Res :=
  let s := s.writeWord B.PMC .write v.toNat
  .next ((if bitOf v.toNat R.PMC_CTRL_SNAP.lo then s.snap else s).answer .ok)

/-- Every counter copies into its shadow, at local count t (`State.tick` does so as the count reaches T). -/
def State.takeShadows (s : State) (t : Nat) : State :=
  let s := s.wrPair (B.PMC + R.PMC_SNAP_TIME_LO_NS.off) (toSigned 64 ((t : Int) + s.timeOff))
  { s with shadows := s.cnts,
           flt := { s.flt with shadowOff := (List.range 80).filter fun d => !s.domOn d } }

/-- R433: after T SNAP_DONE follows, and PMC_CTRL commands that wait for it end. -/
def execSnapshotInstant (s : State) : Res :=
  match s.flt.snapT with
  | none => .next s
  | some t =>
    if s.now < t then .next s
    else
      let s := { s with flt := { s.flt with snapT := none } }.wrB B.PMC R.PMC_CTRL_SNAP_DONE true
      .next (s.endJobs 0x0611 0 (Final.mk' St.DONE 0 (leBytes 8 (s.pair (B.PMC + R.PMC_SNAP_TIME_LO_NS.off)))))

/-- The internal address of a counter's low word. -/
def isCounter (a : Nat) : Bool := match internalTarget a with
  | some t => t.kind = .write && cntAt t.key
  | none => false

/-- The shadow of a counter, where it is valid. -/
def State.shadowOf (s : State) (a : Nat) : Option Nat :=
  if isCounter a && s.unitExists a && !s.flt.shadowOff.contains ((domAt a).getD 0) then some (tget (fun _ => 0) s.shadows a) else none

/-- R433: PMC_SH_SEL latches a shadow, or sets ERR. -/
def execShadowSelect (v : Word) (s : State) : Res :=
  let s := s.setReg (B.PMC + R.PMC_SH_SEL_ADDR.off) v
  let s := s.wrB B.PMC R.PMC_SH_STAT_ERR (s.shadowOf v.toNat).isNone
  let s := s.wrB B.PMC R.PMC_SH_STAT_VALID (s.shadowOf v.toNat).isSome
  .next ((match s.shadowOf v.toNat with
    | some x => s.wrPair (B.PMC + R.PMC_SH_LO_LO.off) x
    | none => s).answer .ok)

/-! ### Background work (R435, Table 18.7) -/

def State.setOverdue (s : State) (a : Nat) : State :=
  let r := B.FLT + R.FLT_BG_OVERDUE_OVERDUE.off
  s.wrW r (setBits (s.reg r).toNat a a 1)

def execBackgroundOverdue (a : Fin 11) (s : State) : Res :=
  if !s.bgAt a 1 || s.bgOverdue a then .next s else .next ((s.setOverdue a).raise 9 a 0)

def execBackgroundHardBound (a : Fin 11) (s : State) : Res :=
  let x := tget (fun _ => ⟨0, false⟩) s.flt.bg a
  if !s.bgAt a 2 || x.hard then .next s
  else .next ({ s with flt := { s.flt with bg := tput (fun _ => ⟨0, false⟩) s.flt.bg a { x with hard := true } } }.raise 10 a 0)

/-- What the parity scrub finds in an entry: Seed and Sieve entries are rewritten from the master by the firmware (R204);
words and graph entries stay as they show until the firmware rewrites them (R141, R165). -/
def State.scrubEntry (s : State) (x : ScrubMem) (ecc : Ecc) (readBack : Bool) : State :=
  let fix := fun (s : State) (src : Nat) (addr : Nat) (f : State → State) =>
    let s := s.raise src 0 addr
    if s.modes.lkRunning then (f s).ackRouted src else s
  match x with
  | .seed q i =>
    let s := if ecc = .bad then s.setUpset (upsetSeed (seedKey q i)) 2 else s
    if s.upset (upsetSeed (seedKey q i)) = 2 then fix s (160 + 4 * q) (i * 0x20) fun s => s.rewriteEntry q false i readBack else s
  | .sieve q a =>
    let s := if ecc = .bad then s.setUpset (upsetSieve (sieveKey q a)) 2 else s
    if s.upset (upsetSieve (sieveKey q a)) = 2 then fix s (161 + 4 * q) (a * 0x20) fun s => s.rewriteEntry q true a readBack else s
  | .word p bank gate w =>
    let k := upsetWord (wordKey p bank gate w)
    let s := s.noteEcc k ecc
    if s.upset k ≠ 0 then s.raise (pipeSrc p 1) 0 0 else s
  | .graph h a =>
    let k := graphKey h a
    let s := s.noteEcc k ecc
    if s.upset k ≠ 0 then s.raise (32 + 4 * h) 0 a else s
  | .meter _ _ | .edit _ _ => s

/-- The domain that holds a scrubbed memory. -/
def scrubDom : ScrubMem → Nat
  | .seed q _ | .sieve q _ | .meter q _ => domQuad q
  | .word p _ _ _ => domPipe p
  | .graph h _ => domHR h
  | .edit t _ => domTR t

/-- R435: the parity scrub reads its next entry, on the even schedule of one pass per 8 min; a pass that has read them all is over. -/
def execParityScrubStep (x : ScrubMem) (ecc : Ecc) (readBack : Bool) (s : State) : Res :=
  if !s.domOn (scrubDom x) || decide (s.bgAge 2 * s.parityTotal < s.flt.parity * ms 480000) then .next s
  else
    let s := s.scrubEntry x ecc readBack
    let n := s.flt.parity + 1
    if s.parityTotal ≤ n then .next ({ s with flt := { s.flt with parity := 0 } }.bgRan 2)
    else .next { s with flt := { s.flt with parity := n } }

/-- R435: every lane has been adapted, every 100 ms. -/
def execSerdesAdaptation (s : State) : Res := .next (if s.bgAge 5 < ms 100 then s else s.bgRan 5)

/-- R435: every 24 h the wear scan issues one admin command to each drive and to the vault. -/
def execWearScan (s : State) : Res :=
  if s.bgAge 9 < 24 * ms 3600000 then .next s
  else
    let ds := (List.range 32).filter fun d => (s.drive d).up && s.domOn (domDP d)
    let s := ds.foldl (fun s d => s.emit (.drive d "wear" 0 0)) s
    .next ((if s.domOn 75 then s.emit (.drive 32 "wear" 0 0) else s).bgRan 9)

/-! ### Telemetry (R436, Table 18.8) -/

/-- Addresses of a counter family's low words. -/
def expandDims (a : Nat) : List (Nat × Nat) → List Nat
  | [] => [a]
  | (st, n) :: ds => (List.range n).flatMap fun i => expandDims (a + st * i) ds

/-- The counters of an instance in register order. -/
def blockCnts (base : Nat) (l : List CntDesc) : List Nat :=
  sortBy (fun a => a) (l.flatMap fun c => expandDims (base + c.off) c.dims)

/-- The programmable and slot counters of a pipeline, and its other ones. -/
def cntsPmcPipe (k : Nat) : List CntDesc := (cntsPipe (if k < 16 then 12 else 6)).filter fun c => C.GATE_PMC_CNT ≤ c.off
def cntsGateOnly (k : Nat) : List CntDesc := (cntsPipe (if k < 16 then 12 else 6)).filter fun c => c.off < C.GATE_PMC_CNT

/-- The counters of a group, for the PF0 of link m. -/
def groupCnts (m g : Nat) : List Nat :=
  if g = 0 then (List.range 24).flatMap fun n => blockCnts (B.ETH n) cntsETH
  else if g = 1 then blockCnts (B.HPTC m) cntsHPT
  else if g = 2 then ((List.range 16).flatMap fun h => blockCnts (B.HUSK h) cntsHUSK)
    ++ (List.range 32).flatMap fun k => blockCnts (B.PIPE k) (cntsGateOnly k)
  else if g = 3 then ((List.range 16).flatMap fun h => blockCnts (B.HDR h) cntsHDR) ++ blockCnts B.WEIR cntsWEIR
    ++ ((List.range 4).flatMap fun q => blockCnts (B.TAP q) cntsTAP) ++ (List.range 16).flatMap fun t => blockCnts (B.TLR t) cntsTLR
  else if g = 4 then ((List.range 4).flatMap fun q => blockCnts (B.SEED q) cntsSEED ++ blockCnts (B.SIEV q) cntsSIEV)
    ++ blockCnts (B.RSV 1) cntsRSVHT
  else if g = 5 then blockCnts B.TIME cntsTIME
  else if g = 6 then blockCnts B.SILO cntsSILO ++ blockCnts B.CND cntsCND
  else if g = 7 then ((List.range 4).flatMap fun k => blockCnts (B.RSV k) cntsRSV) ++ blockCnts B.HOP cntsHOP
  else if g = 8 then blockCnts B.BMV cntsBMV ++ blockCnts B.ICR cntsICR
  else if g = 9 then blockCnts B.FLT cntsFLT ++ blockCnts B.PMC cntsPMC
    ++ (List.range 32).flatMap fun k => blockCnts (B.PIPE k) (cntsPmcPipe k)
  else []

def telemCnts (m mask : Nat) : List Nat := (List.range 10).flatMap fun g => if bitOf mask g then groupCnts m g else []
def telemLen (m mask : Nat) : Nat := 64 + 8 * (telemCnts m mask).length

def State.telem (s : State) (m : Nat) : Telem := tget (fun _ => Telem.off) s.flt.telem m
def State.setTelem (s : State) (m : Nat) (x : Telem) : State :=
  { s with flt := { s.flt with telem := tput (fun _ => Telem.off) s.flt.telem m x } }

/-- A record, without its first four bytes. -/
def State.telemBody (s : State) (m : Nat) (x : Telem) : List Byte :=
  leBytes 4 (telemLen m x.mask) ++ leBytes 8 (s.pair (B.PMC + R.PMC_SNAP_TIME_LO_NS.off)) ++ leBytes 4 x.mask ++ leBytes 4 x.lost
    ++ fit 40 [] ++ (telemCnts m x.mask).flatMap fun a => leBytes 8 ((s.shadowOf a).getD (2 ^ 64 - 1))

/-- The record of a period into a link's ring, or one more period lost; so are periods that passed before this one without
a record. -/
def State.telemOne (s : State) (m : Nat) : State :=
  let x := s.telem m
  let n := (s.now - x.at_) / (ms 100 * x.period)
  let x := { x with at_ := x.at_ + n * (ms 100 * x.period), lost := x.lost + (n - 1) }
  let len := telemLen m x.mask
  let a := x.base + (x.seq % 2 ^ x.size) * len
  match s.managerPlot m with
  | none => s.setTelem m { x with lost := x.lost + 1 }
  | some p =>
    if !s.domOn 77 || s.rd B.BMV R.BMV_HALT_HALT ≠ 0 then s.setTelem m { x with lost := x.lost + 1 }
    else if !s.windowOk p a len true then (s.windowErr p).setTelem m { x with lost := x.lost + 1 }
    else
      let phase := 1 - x.seq / 2 ^ x.size % 2
      let s := s.logWrite p a len
      let s := s.postWrite m 0 (a + 4) (s.telemBody m x)
      let s := s.postWrite m 0 a (leBytes 4 (phase * 2 ^ 31 + x.seq % 2 ^ 31))
      s.setTelem m { x with lost := 0, seq := x.seq + 1 }

/-- R436: a snapshot, at a whole microsecond, then a record into every enabled ring whose period has ended. The activity has run where
each ring has its record. -/
def execTelemetryExport (s : State) : Res :=
  let due := (List.range 16).filter fun m => (s.telem m).en && decide ((s.telem m).at_ + ms 100 * (s.telem m).period ≤ s.now)
  if due = [] || !s.flag B.PMC R.PMC_CTRL_SNAP_DONE || s.now % 1000 ≠ 0 then .next s
  else
    let t := due.foldl State.telemOne (s.takeShadows s.now)
    .next (if due.all fun m => (t.telem m).seq ≠ (s.telem m).seq then t.bgRan 10 else t)

/-! ### Commands (Table 18.10) -/

/-- A requester sees a source (R428). -/
def reqSees : Req → Nat → Bool
  | .core _, _ => true
  | .host m _, n => visibleTo m n

/-- 352 bits as 44 bytes. -/
def bits352 (f : Nat → Bool) : List Byte :=
  (List.range 44).map fun i => BitVec.ofNat 8 ((List.range 8).map fun j => bit (f (8 * i + j)) * 2 ^ j).sum

def execFaultStatus (q : Req) (s : State) : Res :=
  .next (s.command q 0x0600 fun _ s =>
    let n := fun sev => ((List.range 352).filter fun n => reqSees q n && s.sticky n && s.sevNow n = sev).length
    s.done q (bits352 (fun n => reqSees q n && s.sticky n) ++ bits352 (fun n => reqSees q n && s.winRunning n)
      ++ (List.range 5).flatMap fun sev => leBytes 2 (n sev)))

/-- A command that names a source: out of range or reserved, another link's, or the source (R75, R428). -/
def State.named (s : State) (q : Req) (n : Nat) (k : State) : State :=
  if 352 ≤ n || srcReserved n then s.finish q St.BAD_ARGUMENT
  else if !reqSees q n then s.finish q St.REFUSED else k

def execFaultAck (q : Req) (s : State) : Res :=
  .next (s.command q 0x0601 fun c s =>
    let n := c.u16 8
    s.named q n (if s.sev n = 4 then s.finish q St.BAD_ARGUMENT
      else (if s.sticky n then s.ackFault n else s).done q []))

def execFaultSevSet (q : Req) (s : State) : Res :=
  .next (s.hostCommand q 0x0602 fun c s =>
    let n := c.u16 8
    s.named q n (if sevFixed n || 4 < c.u8 10 || 1 < c.u8 11 then s.finish q St.BAD_ARGUMENT
      else ((s.wr (srcBase n) R.FLT_SRC_SEV (c.u8 10)).wr (srcBase n) R.FLT_SRC_ROUTE (c.u8 11)).done q []))

def execFaultWindowSet (q : Req) (s : State) : Res :=
  .next (s.hostCommand q 0x0603 fun c s =>
    let w := c.u32 12
    if !(1 ≤ c.u8 8 && c.u8 8 ≤ 3) || w < 100 || 10000 < w then s.finish q St.BAD_ARGUMENT
    else
      let f := if c.u8 8 = 1 then R.FLT_WIN_COR_MS else if c.u8 8 = 2 then R.FLT_WIN_DEG_MS else R.FLT_WIN_FAT_MS
      (s.wr B.FLT f w).done q [])

def execFaultNotifySet (q : Req) (s : State) : Res :=
  .next (s.command q 0x0604 fun c s =>
    match q with
    | .core _ => s.finish q St.REFUSED
    | .host m _ =>
      if 2047 < c.u16 10 then s.finish q St.BAD_ARGUMENT
      else
        let v := if bitOf (c.u8 8) 0 then c.u16 10 + 1 else 0
        { s with flt := { s.flt with notify := tput (fun _ => 0) s.flt.notify m v } }.done q [])

/-- The held entries from a number on, with their numbers: those that a requester sees, up to 13, and one past the last
examined. -/
def logScan (q : Req) : List (FaultMsg × Nat) → Nat → Nat → List (FaultMsg × Nat) → Nat × List (FaultMsg × Nat)
  | [], _, next, acc => (next, acc)
  | e :: es, seq, _, acc =>
    let acc := if reqSees q e.1.src then acc ++ [e] else acc
    if 13 ≤ acc.length then (seq + 1, acc) else logScan q es (seq + 1) (seq + 1) acc

def msgWord (f : FaultMsg) : Nat := f.src * 2 ^ 54 + f.kind * 2 ^ 48 + f.addr % 2 ^ 48

def execFaultLogRead (q : Req) (s : State) : Res :=
  .next (s.command q 0x0605 fun c s =>
    let first := c.u32 8
    let oldest := s.flt.nextSeq - s.flt.log.length
    let skip := first - oldest
    let (next, l) := logScan q (s.flt.log.drop skip) (oldest + skip) first []
    s.done q (leBytes 4 next ++ leBytes 1 l.length ++ fit 3 [] ++ l.flatMap fun e => leBytes 8 (msgWord e.1) ++ leBytes 8 e.2))

/-- Largest event code of a kind of counter: headrace, tailrace, global (Tables 18.5 and 18.6). -/
def pmcEventOk (kind e : Nat) : Bool :=
  if kind = 0 then e ≤ 0x0D else if kind = 1 then e ≤ 0x0C && e ≠ 0x0B else e ≤ 0x0B

def execPmcSet (q : Req) (s : State) : Res :=
  .next (s.command q 0x0610 fun c s =>
    let kind := c.u8 8
    let p := if kind = 0 then some (c.u8 9) else if kind = 1 then some (16 + c.u8 9) else none
    if 2 < kind || (kind < 2 && 16 ≤ c.u8 9) || pmcNum p ≤ c.u8 10 || !pmcEventOk kind (c.u8 11)
        || !s.domOn ((p.map domPipe).getD 0) then s.finish q St.BAD_ARGUMENT
    else (s.writeWord (pmcSel p (c.u8 10)) .write
      (bit (bitOf (c.u8 12) 0) * 2 ^ 31 + bit (bitOf (c.u8 12) 1) * 2 ^ 30 + c.u8 11)).done q [])

/-- PMC_CTRL: a snapshot's time is the result once SNAP_DONE is 1. -/
def execPmcCtrl (q : Req) (s : State) : Res :=
  .next (s.command q 0x0611 fun c s =>
    let s := s.wrB B.PMC R.PMC_CTRL_FREEZE (bitOf (c.u8 8) 0)
    if bitOf (c.u8 8) 1 then s.snap.addJob q 0x0611 0
    else s.done q (leBytes 8 (s.pair (B.PMC + R.PMC_SNAP_TIME_LO_NS.off))))

def execPmcRead (q : Req) (s : State) : Res :=
  .next (s.command q 0x0612 fun c s =>
    let a := c.u32 8
    if !isCounter a || !s.unitExists a then s.finish q St.BAD_ARGUMENT
    else
      let v := if bitOf (c.u8 12) 0 then s.shadowOf a else if s.domOn ((domAt a).getD 0) then some (s.cnt a) else none
      s.done q (leBytes 8 (v.getD 0) ++ leBytes 1 (bit v.isNone)))

def execTelemSet (q : Req) (s : State) : Res :=
  .next (s.command q 0x0613 fun c s =>
    match q with
    | .core _ => s.finish q St.REFUSED
    | .host m _ =>
      let period := c.u16 18
      let mask := c.u32 20
      if c.u8 16 < 4 || 12 < c.u8 16 || period = 0 || 600 < period || 1024 ≤ mask then s.finish q St.BAD_ARGUMENT
      else
        let x : Telem := { en := bitOf (c.u8 17) 0, base := c.u64 8, size := c.u8 16, period := period, mask := mask,
                           seq := 0, lost := 0, at_ := s.now }
        (s.setTelem m x).done q (leBytes 4 (telemLen m mask)))

def execBgStatus (q : Req) (s : State) : Res :=
  .next (s.command q 0x0614 fun _ s =>
    s.done q (leBytes 2 s.bgDueView ++ leBytes 2 (s.rd B.FLT R.FLT_BG_OVERDUE_OVERDUE)
      ++ (List.range 11).flatMap fun a => leBytes 4 (s.bgAge a / 1000000)))

end Sys2Proof.Machine
end

