-- ==== Sys2Proof/Machine/Security.lean ====
section
/-! DEFINITION. Boot, the life-cycle and security commands, class 0x08xx, and the SPDM responder (chapter 19). -/
namespace Sys2Proof.Machine

/-! ### Boot (Table 19.2, R441 to R444) -/

/-- NOR offset of an image region (false: A), and the bytes of a region. -/
def norBase (b : Bool) : Nat := if b then 0x100_0000 else 0x10_0000
def norSize : Nat := 15 * 2 ^ 20

/-- A region's image: version, SVN and permitted states; header and body; signature part. -/
def State.firmware (s : State) (b : Bool) : Option ((Nat × Nat × Nat) × List Byte × List Byte) :=
  Config.firmware ((s.sec.nor.filter fun c => norBase b ≤ c.1 && c.1 < norBase b + norSize).map fun c => (c.1 - norBase b, c.2))

/-- Result of the checks of Steps 3 to 6 on a region, by the codes of SEC_IMAGE. -/
def State.imageResult (s : State) (b : Bool) : Nat :=
  match s.firmware b with
  | none => 2
  | some ((_, svn, states), obj, sig) =>
    if !hybridOk Config.romHashes obj sig then 3
    else if svn < s.sec.otp.svn then 4
    else if !bitOf states s.lcState then 5
    else 1

def State.setResult (s : State) (b : Bool) (r : Nat) : State :=
  s.wr B.SEC (if b then R.SEC_IMAGE_B_RESULT else R.SEC_IMAGE_A_RESULT) r

/-- The preferred image, and the other one if it fails (R442): the region booted, if any. -/
def State.bootImage (s : State) : Option Bool × State :=
  let s := (s.wrW (B.SEC + R.SEC_IMAGE_RUNNING.off) 0).wrB B.SEC R.SEC_IMAGE_PREFER s.sec.prefer
  let p := s.sec.prefer
  let s := s.setResult p (s.imageResult p)
  if s.imageResult p = 1 then (some p, s)
  else
    let s := s.setResult (!p) (s.imageResult (!p))
    (if s.imageResult (!p) = 1 then some (!p) else none, s)

/-- R444: the state at boot is that of the highest row with a bit programmed; a row without its commit marker is
completed, and TORN set. -/
def State.resolveOtp (s : State) : State :=
  match [4, 3, 2, 1].find? fun k => s.otpRow k ≠ .blank with
  | none => s.wr B.SEC R.SEC_LC_STATE 0
  | some k =>
    let s := s.wr B.SEC R.SEC_LC_STATE k
    if s.otpRow k = .done then s else (s.rowTo k 5).wrB B.SEC R.SEC_LC_TORN true

/-- The configuration image is accepted: signed by the owner, or unsigned where the state permits it (R440,
Table 19.4). -/
def State.configOk (s : State) : Bool :=
  s.flag B.SEC R.SEC_DEBUG_UNSIGNED || hybridOk s.sec.otp.owner s.sec.config.bytes s.sec.config.sig

/-- Step 3 of Table 4.3: the configuration image and, after a cold reset, what the vault header holds. R105 does not say whether
reading the Drain marker consumes it: here it stays, and a later cold reset without a Drain shows DRAIN_PIN again (DESIGN CHOICE,
assumption 92). -/
def State.readConfig (s : State) : State :=
  let s := s.measure 3 s.sec.config.bytes
  let s := { s with image := if s.configOk then s.sec.config else Image.blank }
  let i := s.image
  let s := s.wrW (B.DEV + R.DEV_BOOT_CFG_AUTO_FLOW.off) (4 * bit i.memtest + 2 * bit i.survey + bit i.autoFlow)
  let s := s.wrB B.DEV R.DEV_MODE_VAULT_PENDING s.vault.pending
  if !s.sec.cold then s
  else
    let s := if s.vault.pin then s.wrB B.DEV R.DEV_RESET_CAUSE_DRAIN_PIN true else s
    let c := match s.vault.rec_ with
      | some (cm, age) => { s.cist with cm := cm, ageBase := age, ageAt := if age = 0xFFFF then none else some s.now }
      | none => { s.cist with cm := i.cNom, ageAt := none }
    { s with cist := c }.onSec fun c => { c with cold := false }

/-- Firmware has started from a region (Steps 6 and 7). The mailboxes of PF0s that are ready serve commands again. -/
def State.startFirmware (s : State) (b : Bool) : State :=
  let s := s.wrB B.SEC R.SEC_IMAGE_RUNNING b
  let f := s.firmware b
  let s := s.onSec fun c => { c with version := (f.map (·.1.1)).getD 0, runSvn := (f.map (·.1.2.1)).getD 0 }
  let s := (s.measure 1 Config.rom).measure 2 ((f.map (·.2.1)).getD [])
  let s := { s with modes := { s.modes with lkRunning := true }, flt := { s.flt with kickAt := s.now } }
  let s := s.measureLc.showDebug.readConfig
  (List.range 16).foldl (fun s m =>
    if s.linkUp m && (s.fn m 0).ready then s.wrB (B.LKP m) R.LKP_HMB_STATUS_READY true else s) s

/-- Steps 3 to 7: an image boots, or neither does. -/
def State.bootSteps (s : State) : State :=
  match (s.wr B.SEC R.SEC_SVN_COUNT s.sec.otp.svn).bootImage with
  | (some b, s) => s.startFirmware b
  | (none, s) => s

/-- R442, R444: the ROM boots while no firmware runs. A bit outside a row's pattern takes the fixed integrity fault, and no
image starts. -/
def execFirmwareStarted (s : State) : Res :=
  if s.modes.lkRunning || s.latched then .next s
  else if s.sec.otp.outside then .next (s.raise 2 0 0)
  else
    let s := if s.sec.cold then s.resolveOtp else if s.sec.prog.isSome then s.resolveOtp else s
    let s := { s with keks := tput (fun _ => []) s.keks 0 s.slot0 }
    .next s.bootSteps

/-- Both images have been tried and have failed. -/
def State.bothFailed (s : State) : Bool :=
  2 ≤ s.rd B.SEC R.SEC_IMAGE_A_RESULT && 2 ≤ s.rd B.SEC R.SEC_IMAGE_B_RESULT

/-- R443: the recovery responder writes an image to region A, prefers A, and repeats Steps 3 to 7. -/
def execRecoveryImage (data : List Byte) (s : State) : Res :=
  if s.modes.lkRunning || !s.bothFailed || norSize < data.length || s.flag B.PWR R.PWR_BUS_STAT_SMB_ISO then .next s
  else
    let nor := s.sec.nor.filter fun c => !(norBase false ≤ c.1 && c.1 < norBase false + norSize)
    .next (s.onSec fun c => { c with nor := putBytes nor (norBase false) data, prefer := false }).bootSteps

/-! ### The life-cycle lock (R445) -/

/-- R445: the Lockkeeper writes SEC_LC_CTRL; GO programs TARGET. -/
def execGo (v : Word) (s : State) : Res :=
  let lock := s.flag B.SEC R.SEC_LOCK_LCLOCK
  let s := (s.writeWord (B.SEC + R.SEC_LC_CTRL_GO.off) .write v.toNat).answer .ok
  let k := s.rd B.SEC R.SEC_LC_CTRL_TARGET
  if lock || !bitOf v.toNat R.SEC_LC_CTRL_GO.lo || s.flag B.SEC R.SEC_LC_BUSY then .next s
  else if (lcSigners s.lcState k).isSome then .next ((s.wrB B.SEC R.SEC_LC_CTRL_GO true).startProgram k)
  else .next s

/-! ### Authorisation blocks (R448) -/

/-- A nonce that is in force. -/
def State.nonceLive (s : State) (n : Nat) : Bool := s.sec.nonces.any fun x => x.1 = n && decide (s.now < x.2 + ms 60000)

/-- A block of a kind authorises a target by the signers, in order: its nonce. -/
def State.authorised (s : State) (l : List Byte) (kind target : Nat) (signers : List Nat) : Option Nat :=
  let w := Config.authKind
  let head := 4 + w + 32 + 8 + Config.authTarget
  let obj := l.take head
  let at_ := fun (i n : Nat) => leNat ((obj.drop i).take n)
  let nonce := at_ (4 + w) 32
  let sigs := (List.range signers.length).zip signers
  if l.length = head + sigBytes * signers.length && at_ 0 4 = 0x4155_4853 && at_ 4 w = kind && s.nonceLive nonce
      && at_ (36 + w) 8 = Config.serial && at_ (44 + w) Config.authTarget = target
      && sigs.all fun e => hybridOk (s.signerHashes e.2) obj ((l.drop (head + sigBytes * e.1)).take sigBytes) then
    some nonce
  else none

/-- A nonce has served its authorisation. -/
def State.useNonce (s : State) (n : Nat) : State := s.onSec fun c => { c with nonces := c.nonces.filter (·.1 ≠ n) }

/-! ### Commands (Table 19.6) -/

def execSecStatus (q : Req) (s : State) : Res :=
  .next (s.command q 0x0800 fun _ s =>
    let lo := fun (f : RegField) => BitVec.ofNat 8 (s.reg (B.SEC + f.off)).toNat
    s.done q ([lo R.SEC_LC_STATE, lo R.SEC_SVN_COUNT, lo R.SEC_IMAGE_RUNNING, lo R.SEC_DEBUG_UNSIGNED] ++ leBytes 4 s.sec.version))

/-- The nonce is in force from its result on. -/
def execSecChallenge (q : Req) (s : State) : Res :=
  .next (s.command q 0x0801 fun _ s =>
    let (n, s) := s.drawBytes 32
    s.answerAt q 0x0801 St.DONE (n ++ leBytes 8 Config.serial))

/-- R445: the target is programmed as soon as the authorisation verifies. -/
def execLcAdvance (q : Req) (buf : Fetch) (s : State) : Res :=
  .next (s.command q 0x0802 fun c s =>
    let k := c.u8 8
    match s.jobs.find? fun j => j.opcode = 0x0802 with
    | some j => s.busyRetry q ((j.due - s.now) / 1000)
    | none =>
      s.withBuffer q (c.u64 16) (c.u32 24) buf (·.answerAt q 0x0802 St.BAD_ARGUMENT []) fun l s =>
      match lcSigners s.lcState k with
      | none => s.answerAt q 0x0802 St.REFUSED []
      | some signers =>
        if s.flag B.SEC R.SEC_LOCK_LCLOCK || s.flag B.SEC R.SEC_LC_BUSY then s.answerAt q 0x0802 St.REFUSED []
        else match s.authorised l 1 k signers with
          | none => s.answerAt q 0x0802 St.REFUSED []
          | some n => ((s.useNonce n).startProgram k).answerAt q 0x0802 St.DONE [])

/-- The signer whose grants open every path of a mask in a state. -/
def grantSigner (state mask : Nat) : Option Nat :=
  let bits := (List.range 8).filter (bitOf mask)
  [0, 1].find? fun g => bits ≠ [] && bits.all fun b => pathSigner state b = some g

/-- R446: the grants of a mask, by its signer. -/
def State.grant (s : State) (mask g : Nat) : State :=
  let new := ((List.range 5).filter (bitOf mask)).map fun b => (b, g)
  let s := (s.onSec fun c => { c with grants := c.grants.filter (!new.contains ·) ++ new }).showDebug
  s.measure 7 (Config.layout (s.sec.grants.flatMap fun e => [e.1, e.2]))

def execDebugUnlock (q : Req) (buf : Fetch) (s : State) : Res :=
  .next (s.command q 0x0803 fun c s =>
    let mask := c.u8 8
    s.withBuffer q (c.u64 16) (c.u32 24) buf (·.answerAt q 0x0803 St.BAD_ARGUMENT []) fun l s =>
    match grantSigner s.lcState mask with
    | none => s.answerAt q 0x0803 St.REFUSED []
    | some g =>
      match s.authorised l 2 mask [g] with
      | none => s.answerAt q 0x0803 St.REFUSED []
      | some n => ((s.useNonce n).grant mask g).answerAt q 0x0803 St.DONE [])

/-- The region that is not running. -/
def State.otherRegion (s : State) : Bool := !s.flag B.SEC R.SEC_IMAGE_RUNNING

def execImageWrite (q : Req) (buf : Fetch) (s : State) : Res :=
  .next (s.command q 0x0804 fun c s =>
    let off := c.u32 8
    let len := c.u32 12
    if len % 4096 ≠ 0 || 2 ^ 18 < len || norSize < off + len then s.answerAt q 0x0804 St.BAD_ARGUMENT []
    else s.withBuffer q (c.u64 16) len buf (·.answerAt q 0x0804 St.BAD_ARGUMENT []) fun l s =>
        (s.onSec fun x => { x with nor := putBytes x.nor (norBase s.otherRegion + off) l }).answerAt q 0x0804 St.DONE [])

/-- The image that is not running becomes the preferred one, where it passes the checks of Table 19.2. -/
def execImageActivate (q : Req) (s : State) : Res :=
  .next (s.command q 0x0805 fun _ s =>
    let b := s.otherRegion
    if s.imageResult b ≠ 1 then s.answerAt q 0x0805 St.REFUSED []
    else
      let s := (s.onSec fun c => { c with prefer := b }).wrB B.SEC R.SEC_IMAGE_PREFER b
      s.answerAt q 0x0805 St.DONE (leBytes 4 (((s.firmware b).map (·.1.1)).getD 0)))

/-- R441: the count rises to the running image's SVN; it never falls. -/
def execSvnCommit (q : Req) (s : State) : Res :=
  .next (s.command q 0x0806 fun _ s =>
    let s := s.onOtp fun o => { o with svn := max o.svn s.sec.runSvn }
    let s := (s.wr B.SEC R.SEC_SVN_COUNT s.sec.otp.svn).measureLc
    s.answerAt q 0x0806 St.DONE (leBytes 1 s.sec.otp.svn))

def execMeasureRead (q : Req) (s : State) : Res :=
  .next (s.command q 0x0807 fun c s =>
    if 1 ≤ c.u8 8 && c.u8 8 ≤ 7 then s.done q (s.measurement (c.u8 8)) else s.finish q St.BAD_ARGUMENT)

/-- A job of class 0x08xx ends: a refusal is counted, and a nonce comes into force (R448). -/
def State.secEnd (s : State) (j : Job) : State :=
  let s := if j.st = St.REFUSED then s.count (B.SEC + C.SEC_REFUSED) else s
  let s := if j.opcode = 0x0801 then
    s.onSec fun c => { c with nonces := c.nonces ++ [(leNat (j.data.take 32), s.now)] } else s
  s.endJob j (Final.mk' j.st 1000 j.data)

/-- R448: the results that are due are written, at exactly T: the local count does it as it reaches T (assumption 3), and the
command as well. -/
def State.secDue (s : State) : State :=
  (s.jobs.filter fun j => j.opcode / 256 = 8 && decide (j.due ≤ s.now)).foldl State.secEnd s

def execSecurityResultDue (s : State) : Res := .next s.secDue

/-- R448: nonces issued 60 s ago expire. -/
def execNonceExpiry (s : State) : Res :=
  .next (s.onSec fun c => { c with nonces := c.nonces.filter fun x => decide (s.now < x.2 + ms 60000) })

/-! ### The SPDM responder (R447). Codes are those of DMTF DSP0274 (assumption 30). -/

/-- A request arrives over SMBus, or over a link that is up. -/
def State.spdmReaches (s : State) : Option Link → Bool
  | none => !s.flag B.PWR R.PWR_BUS_STAT_SMB_ISO
  | some m => s.linkUp m

def State.respond (s : State) (via : Option Link) (code : Nat) (facts : List (List Byte)) : State :=
  let o := Out.spdm ((via.map (·.val + 1)).getD 0) code (Config.spdm code facts)
  match via with
  | none => s.emit o
  | some m => s.post m 0 o

def spdmError (e : Nat) : Nat × List (List Byte) := (0x7F, [[BitVec.ofNat 8 e]])
def errInvalid : Nat := 0x01
def errBusy : Nat := 0x03
def errUnsupported : Nat := 0x07
def errVersion : Nat := 0x41

/-- A request: nothing where it does not arrive or no firmware has run; Busy while the firmware reboots; in Retired only
the version is answered. -/
def State.spdm (s : State) (via : Option Link) (ver : Option Nat) (ans : Nat × List (List Byte)) : State :=
  if !s.spdmReaches via then s
  else
    let say := fun (e : Nat × List (List Byte)) => s.respond via e.1 e.2
    if !s.modes.lkRunning then
      (if s.rd B.SEC R.SEC_IMAGE_A_RESULT = 1 || s.rd B.SEC R.SEC_IMAGE_B_RESULT = 1 then say (spdmError errBusy) else s)
    else match ver with
      | none => say ans
      | some v =>
        if v ≠ 0x12 && v ≠ 0x13 then say (spdmError errVersion)
        else if s.lcState = 4 then say (spdmError errUnsupported) else say ans

/-- The identity certificate chain in slot 0: none in Blank and Retired. -/
def State.chain (s : State) : Option (List Byte) :=
  if s.lcState = 0 || s.lcState = 4 then none else some (Config.certChain s.sec.otp.secret)

/-- A signature by the identity key over an answer and the request's nonce. -/
def State.identitySign (s : State) (nonce : List Byte) (facts : List (List Byte)) : List Byte :=
  Config.sign s.sec.otp.secret (Config.sha384 (nonce ++ facts.flatten))

/-- Versions 1.2 and 1.3. -/
def execGetVersion (via : Option Link) (s : State) : Res := .next (s.spdm via none (0x04, [[0x12, 0x13]]))

/-- Certificates, challenge, measurements with signature; no key exchange, no pre-shared keys, no mutual
authentication: flags CERT_CAP, CHAL_CAP and MEAS_CAP 10b. -/
def execGetCapabilities (via : Option Link) (ver : Nat) (s : State) : Res :=
  .next (s.spdm via (some ver) (0x61, [leBytes 4 (2 + 4 + 16)]))

/-- The algorithms chosen: P-384, SHA-384 and SHA-384 measurements, each where the requester offers it. -/
def execNegotiateAlgorithms (via : Option Link) (ver : Nat) (p384 sha384 : Bool) (s : State) : Res :=
  .next (s.spdm via (some ver) (0x63, [leBytes 4 (bit p384), leBytes 4 (bit sha384), leBytes 4 1]))

def execGetDigests (via : Option Link) (ver : Nat) (s : State) : Res :=
  .next (s.spdm via (some ver) (match s.chain with
    | none => (0x01, [[0]])
    | some c => (0x01, [[1], Config.sha384 c])))

def execGetCertificate (via : Option Link) (ver slot off len : Nat) (s : State) : Res :=
  .next (s.spdm via (some ver) (match s.chain with
    | none => spdmError errUnsupported
    | some c =>
      if slot ≠ 0 || c.length < off then spdmError errInvalid
      else
        let part := (c.drop off).take len
        (0x02, [part, leBytes 2 (c.length - off - part.length)])))

def execChallenge (via : Option Link) (ver slot : Nat) (nonce : List Byte) (s : State) : Res :=
  let (n, s') := s.drawBytes 32
  .next (match s.chain with
    | none => s.spdm via (some ver) (spdmError errUnsupported)
    | some c =>
      if slot ≠ 0 then s.spdm via (some ver) (spdmError errInvalid)
      else
        let facts := [Config.sha384 c, n, Config.sha384 ((List.range' 1 7).flatMap s.measurement)]
        s'.spdm via (some ver) (0x03, facts ++ [s.identitySign nonce facts]))

/-- Index 0: the number of measurements; 0xFF: all; else one of them. -/
def execGetMeasurements (via : Option Link) (ver index : Nat) (signed : Bool) (nonce : List Byte) (s : State) : Res :=
  let (n, s') := s.drawBytes 32
  let l := if index = 0 then some [leBytes 1 7]
    else if index = 0xFF then some ((List.range' 1 7).map s.measurement)
    else if index ≤ 7 then some [s.measurement index] else none
  .next (if signed && s.chain.isNone then s.spdm via (some ver) (spdmError errUnsupported)
    else match l with
      | none => s.spdm via (some ver) (spdmError errInvalid)
      | some l =>
        let facts := l ++ [n]
        s'.spdm via (some ver) (0x60, facts ++ (if signed then [s.identitySign nonce facts] else [])))

end Sys2Proof.Machine
end

