-- ==== Sys2Proof/Machine/Pins.lean ====
section
/-! DEFINITION. Pins, rails and management buses (chapter 20). -/
namespace Sys2Proof.Machine

/-- R455: a level of CISTERN_OK that has held for 10 µs: two that differ are taken 10 µs apart at the least. -/
def execCisternOkChange (level : Bool) (s : State) : Res :=
  .next (if s.flag B.PWR R.PWR_PINS_CISTERN_OK = level then s
    else s.every Tm.cistOk 10000 fun s => (s.wrB B.PWR R.PWR_PINS_CISTERN_OK level).updateWriteback)

/-- R458: a reading of rail n in mV and units of 100 mA, while its bus answers. -/
def execRailReading (n : Fin 11) (mv current : Fin 65536) (s : State) : Res :=
  let lost := s.flag B.PWR (if n.val = 0 then R.PWR_BUS_STAT_PMB0_LOST else R.PWR_BUS_STAT_PMB1_LOST)
  .next (if lost then s else (s.wr (railBase n) R.PWR_RAIL_MV mv).wr (railBase n) R.PWR_RAIL_CURRENT current)

/-- A bus whose recovery failed is tried again every 1 s. -/
def State.busLost (s : State) : MgmtBus → Bool
  | .smb => s.flag B.PWR R.PWR_BUS_STAT_SMB_ISO
  | .pmb0 => s.flag B.PWR R.PWR_BUS_STAT_PMB0_LOST
  | .pmb1 => s.flag B.PWR R.PWR_BUS_STAT_PMB1_LOST

/-- Nine SCL pulses and a STOP, and the retry. -/
def State.busRecovery (s : State) (b : MgmtBus) : State :=
  (List.replicate 9 "SCL" ++ ["STOP", "RETRY"]).foldl (fun s w => s.emit (.bus b w)) (s.stamp (Tm.bus b))

/-- R460: the recovery of a bus, or a later try, has failed, or has freed it. -/
def execSmbusStuck (b : MgmtBus) (freed : Bool) (s : State) : Res :=
  if s.busLost b && !s.due (Tm.bus b) (ms 1000) then .next s
  else
  let s := s.busRecovery b
  match b with
  | .smb => .next (s.wrB B.PWR R.PWR_BUS_STAT_SMB_ISO (!freed))
  | .pmb0 =>
    if freed then
      .next ((s.wrB B.PWR R.PWR_BUS_STAT_PMB0_LOST false).wrB B.PACE R.PACE_FLAGS_AVS_LOST
        (s.flag B.PACE R.PACE_FLAGS_AVS_LOST && decide (3 ≤ s.gov.nacks)))
    else if s.flag B.PWR R.PWR_BUS_STAT_PMB0_LOST then .next s
    else .next (((s.wrB B.PWR R.PWR_BUS_STAT_PMB0_LOST true).wrB B.PACE R.PACE_FLAGS_AVS_LOST true).raise 5 0 0)
  | .pmb1 =>
    if freed then .next (s.wrB B.PWR R.PWR_BUS_STAT_PMB1_LOST false)
    else if s.flag B.PWR R.PWR_BUS_STAT_PMB1_LOST then .next s
    else .next ((s.wrB B.PWR R.PWR_BUS_STAT_PMB1_LOST true).raise 5 0 0)

/-- R460: the time base stops, and ALIVE with it, low (Table 20.3). -/
def execOscInLost (s : State) : Res :=
  let s := { s.wrB B.PWR R.PWR_PINS_ALIVE false with oscLost := true }
  .next (if s.flt.aliveRun then
    { s with flt := { s.flt with aliveRun := false, aliveLevel := false } }.emit (.pin "ALIVE" false) else s)

end Sys2Proof.Machine
end

