-- ==== Sys2Proof/Machine/Raw.lean ====
section
/-! DEFINITION. DEV_REG_WRITE (R76, R102): a register write that reaches every register, those with a row of their own
included. -/
namespace Sys2Proof.Machine

/-- A meaning that answers with a next state, as a state. -/
def after (f : State → Res) (s : State) : State :=
  match f s with
  | .next t => t
  | .fault _ | .refused _ => s

/-- What the bits of a command register ask for, in this order (assumption 38). -/
def onBits (v : Nat) (l : List (Nat × (State → Res))) (s : State) : State :=
  l.foldl (fun s x => if bitOf v x.1 && s.reply ≠ .busError then after x.2 s else s) s

/-- A command register that takes one command at a time: a write that names none, or more than one, is refused (R143). -/
def oneBit (v : Nat) (l : List (Nat × (State → Res))) (s : State) : State :=
  match l.filter fun x => bitOf v x.1 with
  | [x] => after x.2 s
  | _ => s.answer .busError

/-- The command registers of a quadrant's windows. -/
def State.rowQuad (s : State) (key v : Nat) : Option State :=
  let q : Quad := Fin.ofNat 4 ((key - 0x10_0000) / 0x10_0000)
  let w := (key - 0x10_0000) % 0x10_0000 / 0x1_0000
  let x := key % 0x1_0000
  let p : Pipe := Fin.ofNat 32 (if w < 4 then 4 * q.val + w else 16 + 4 * q.val + (w - 4))
  if w < 8 then
    if x = R.MC_CTRL_FLIP.off then some (onBits v [(R.MC_CTRL_FLIP.lo, execFlip p)] s)
    else if x = R.BARRIER_REQ.off then some (onBits v [(R.BARRIER_REQ.lo, execBarrierReq p)] s)
    else if x = R.ABORT_REQ.off then some (onBits v [(R.ABORT_REQ.lo, execAbortReq p)] s)
    else if x = R.MC_CMD_READ.off then some (oneBit v [(1, execMcWrite p), (0, execMcRead p)] s)
    else if 4 ≤ w && x = R.ED_CMD_READ.off then
      some (oneBit v [(1, execEdWrite (Fin.ofNat 16 (p.val - 16))), (0, execEdRead (Fin.ofNat 16 (p.val - 16)))] s)
    else none
  else if w < 12 then
    let h : Headrace := Fin.ofNat 16 (4 * q.val + (w - 8))
    if x = R.HUSK_MEM_CMD_READ.off then some (oneBit v [(1, execHuskMemWrite h), (0, execHuskMemRead h)] s) else none
  else if w = 12 then
    if x = R.SEED_ENT_CMD_READ.off then some (oneBit v [(1, execSeedEntWrite q false), (0, execSeedEntRead q)] s)
    else if x = R.SEED_MTR_CMD_READ.off then some (oneBit v [(1, execSeedMtrWrite q), (0, execSeedMtrRead q)] s)
    else if x = R.SEED_CNT_CMD_READ.off then
      some (oneBit v [(0, if bitOf v 1 then execSeedCntReadClear q else execSeedCntRead q)] s)
    else none
  else if w = 13 && x = R.SIEV_ENT_CMD_READ.off then
    some (oneBit v [(2, execSievEntClear q false), (1, execSievEntWrite q false), (0, execSievEntRead q)] s)
  else none

/-- What a granted write of a register with rows of its own does; none for another register. -/
def State.rowOf (s : State) (who : Master) (key v : Nat) : Option State :=
  let ww : Word := BitVec.ofNat 32 v
  let x := key % 0x1_0000
  if key = B.FLT + R.FLT_WDOG_KICK_KICK.off then some (after (execWatchdogKick ww) s)
  else if key = B.FLT + R.FLT_ALIVE_START.off then some (after (execAliveStart ww) s)
  else if B.FLT + 0x400 ≤ key && key < B.FLT + 0x42C then
    some (after (execStickyClear (Fin.ofNat 11 ((key - B.FLT - 0x400) / 4)) ww) s)
  else if key = B.PMC + R.PMC_CTRL_SNAP.off then some (after (execSnap ww) s)
  else if key = B.PMC + R.PMC_SH_SEL_ADDR.off then some (after (execShadowSelect ww) s)
  else if B.BMV + 0x2000 ≤ key && key < B.BMV + 0x3000 && x % 0x80 = 0 then
    let c : Channel := Fin.ofNat 32 ((key - B.BMV - 0x2000) / 0x80)
    let s1 := s.writeNow key .write 32 v
    some (onBits v [(31, execBmvStart who c ww), (30, execBmvAbort who c ww), (29, execBmvResume who c ww)] s1)
  else if key = B.SEC + R.SEC_LC_CTRL_GO.off then some (after (execGo ww) s)
  else if key = B.HOP + R.HOP_CTRL_BUILD.off then some (after (execBuild ww) s)
  else if 0x10_0000 ≤ key && key < 0x50_0000 then s.rowQuad key v
  else if key = B.WEIR + R.WEIR_GRP_CMD_CMD.off then
    some (if bitsOf v 1 0 = 1 then after execWeirGrpRead s else if bitsOf v 1 0 = 2 then after execWeirGrpWrite s
          else s.answer .busError)
  else if key = B.ICR + R.ICR_SA_CMD_READ.off then some (oneBit v [(1, execIcrSaWrite), (0, execIcrSaRead)] s)
  else none

/-- A granted write of the Lockkeeper to a plain register: the row of that register where it has one, and the ordinary
write (R11) otherwise. -/
def State.rowWrite (s : State) (key v : Nat) : State := (s.rowOf .lk key v).getD (s.writeNow key .write 32 v)

/-- R11: a register write. One of a register that has rows of its own does what they do, after what its master wrote before. -/
def execRegisterWrite (who : Master) (a : Addr) (size : Nat) (v : DWord) (s : State) : Res :=
  .next (match s.resolve who a with
    | none => s.refuse who
    | some t =>
      if size = 32 && t.kind = .write && s.granted who t .write size v.toNat then
        match (s.catchUp who).answer .ok |>.rowOf who t.key (v.toNat % 2 ^ 32) with
        | some s => s
        | none => s.access who a .write size v.toNat
      else s.access who a .write size v.toNat)

/-! ### The accesses of a command, word by word (R56, R76) -/

/-- What a masked write writes: bits that are 0 in the mask keep an RW or RWL field's value and clear nothing. -/
def maskedValue (d : RegDesc) (old v mask : Nat) : Nat :=
  let keep := d.fields.foldl (fun x f => if f.acc = .rw || f.acc = .rwl then
      setBits x f.fld.hi f.fld.lo (2 ^ (f.fld.hi + 1 - f.fld.lo) - 1) else x) 0
  (v &&& mask) ||| ((old - (old &&& mask)) &&& keep)

/-- A raw write of a register of a mailbox or plot: what it held before the first one is remembered (R82). -/
def State.keepRaw (s : State) (key : Nat) : State :=
  if B.LKP 0 ≤ key && (descAt key).isSome && !s.raw.any (·.1 = key) then { s with raw := s.raw ++ [(key, s.reg key)] } else s

/-- A masked write takes effect: in memory-like ranges too, bits that are 0 in the mask stay. -/
def State.rawWrite (s : State) (t : Target) (v mask : Nat) : State :=
  match t.kind, memLike t.key, descAt t.key with
  | .write, some _, _ =>
    let old := leNat (bytesAt s.mem t.key 4)
    s.writeNow t.key .write 32 ((v &&& mask) ||| (old - (old &&& mask)))
  | .write, none, some d => (s.keepRaw t.key).rowWrite t.key (maskedValue d (s.reg t.key).toNat v mask)
  | k, _, _ => (s.keepRaw t.key).writeNow t.key k 32 (v &&& mask)

/-- The access of one word, where it has arrived: the word read is kept, the write takes effect; a write that its register's own
row refuses is refused. -/
def State.regTake (s : State) (j : RegJob) (t : Target) : State :=
  match j.wr with
  | some (v, mask) =>
    let s := (s.answer .none).rawWrite t v mask
    if s.reply = .busError then s.regRefused
    else { s with regJob := some { j with addr := j.addr + 4, left := j.left - 1, index := j.index + 1 } }
  | none =>
    match s.readData t.key 32 with
    | .data v => { s with regJob := some { j with addr := j.addr + 4, left := j.left - 1, index := j.index + 1, acc := j.acc ++ leBytes 4 v } }
    | _ => s.regRefused

/-- A DEV_REG_READ or DEV_REG_WRITE goes on, up to the next word in another power domain, which has to cross; the Lockkeeper
starts no other access until then. -/
def State.regGo (s : State) : Nat → State
  | 0 => s
  | fuel + 1 =>
    match s.regJob with
    | none => s
    | some j =>
      if j.left = 0 then s.regEnd j (Final.mk' St.DONE 0 j.acc)
      else if secret j.addr then s.regEnd j (Final.mk' St.REFUSED 0 [])
      else match internalTarget j.addr with
        | none => s.regRefused
        | some t =>
          let (k, v) : AccKind × Nat := match j.wr with
            | some (v, mask) => (.write, v &&& mask)
            | none => (.read, 0)
          if !s.granted .lk t k 32 v then s.regRefused
          else if keyDom t.key = 0 then (s.regTake j t).regGo fuel
          else
            let x : Crossing := { who := .lk, key := t.key, kind := k, size := 32, v := v, slow := true, at_ := s.now, job := true }
            let s := { s with cross := x :: s.cross }
            if s.jobs.any (fun y => y.q = j.q && y.mgen = j.mgen) then s
            else s.addJob j.q (if j.wr.isSome then 0x0105 else 0x0104) 0

/-- Words that one command may access, and one step more. -/
def regFuel : Nat := 58

/-- A command whose accesses the Lockkeeper makes, once it has no other access under way. -/
def State.regStart (s : State) (q : Req) (addr n : Nat) (wr : Option (Nat × Nat)) : State :=
  if s.regJob.isSome || s.waitingOf .lk ≠ [] then s
  else { s with regJob := some { q := q, mgen := s.mgen q, addr := addr, left := n, index := 0, acc := [], wr := wr } }.regGo regFuel

/-- R76: up to 56 registers, by 32-bit reads at consecutive addresses. -/
def execDevRegRead (q : Req) (s : State) : Res :=
  .next (s.command q 0x0104 fun c s =>
    let n := c.u8 12
    if n = 0 || 56 < n then s.finish q St.BAD_ARGUMENT else s.regStart q (c.u32 8) n none)

/-- R76, R102: one masked register write, in Survey. -/
def execDevRegWrite (q : Req) (s : State) : Res :=
  .next (s.command q 0x0105 fun c s => s.regStart q (c.u32 8) 1 (some (c.u32 12, c.u32 16)))

/-- The word of a command has crossed. -/
def State.regCrossed (s : State) : State :=
  match s.regJob with
  | none => s
  | some j =>
    match internalTarget j.addr with
    | none => s.regRefused
    | some t => if s.domOn (keyDom t.key) then (s.regTake j t).regGo regFuel else s.regRefused

/-- A crossing that has not ended after 4 µs is refused, with a Correctable fault (R56). -/
def State.crossingLate (s : State) (who : Master) : State :=
  s.endCrossing who fun x s => (s.refuseCrossing x).raise 8 0 x.key

/-- R56: the crossing of a master's oldest waiting access ends; one that took more than 4 µs has been refused. -/
def execSlowAccessCrossed (who : Master) (s : State) : Res :=
  match s.waitingOf who with
  | [] => .next s
  | x :: _ => .next (if x.at_ + us 4 < s.now then s.crossingLate who
      else s.endCrossing who fun x s => if x.job then s.regCrossed else s.land x)

/-- R56: a crossing not complete after 4 µs is refused, with a Correctable fault. -/
def execSlowAccessTimeout (who : Master) (s : State) : Res :=
  match s.waitingOf who with
  | [] => .next s
  | x :: _ => .next (if x.at_ + us 4 ≤ s.now then s.crossingLate who else s)

end Sys2Proof.Machine
end

