-- ==== Sys2Proof/Machine/Time.lean ====
section
/-! DEFINITION. The time service: sources and states, steps and slewing, PTP messages, PPS and ToD, PTM, time pages and
the time commands (chapter 14). -/
namespace Sys2Proof.Machine

/-! ### Time events and the time word (R324, R325, R342, R467) -/

/-- A step, or a change of state, source, UTC offset or leap flag: an extra page falls due within 125 µs (R342). -/
def State.timeEvent (s : State) : State :=
  s.onTim fun t =>
    { t with pages := t.pages.map (fun p => (p.1, { p.2 with extra := some (p.2.extra.getD s.now) })),
             core := { t.core with extra := some (t.core.extra.getD s.now) } }

/-- The time word changes at one instant by `d` ns; the next pages say so. -/
def State.stepTime (s : State) (d : Int) : State :=
  let s := { s with timeOff := s.timeOff + d }
  (s.onTim fun t =>
    { t with slew := 0, lastStep := toSigned 64 ((s.now : Int) + s.timeOff), core := { t.core with step := true },
             pages := t.pages.map fun p => (p.1, { p.2 with step := true }) }).timeEvent

/-- A forward step is counted (R350). -/
def State.stepForward (s : State) (d : Int) : State := (s.stepTime d).count (B.TIME + C.TIME_STEPS)

/-- The signed value of a field. -/
def State.srd (s : State) (b : Nat) (f : RegField) : Int := signedOf (f.hi + 1 - f.lo) (s.rd b f)

/-! ### Sources and states (R333 to R336) -/

/-- Codes: phase sources as in PHASE_SRC, frequency sources 16 above FREQ_SRC. -/
def srcPhase : TimeSrc → Option Nat
  | .ptp => some 1 | .pps0 => some 2 | .pps1 => some 3 | .synce | .ref10m => none
def srcFreq : TimeSrc → Option Nat
  | .synce => some 17 | .ref10m => some 18 | .ptp => some 19 | .pps0 | .pps1 => none

/-- TIME_EVENTS bit of a source. -/
def srcEvent : TimeSrc → Nat
  | .ptp => 0 | .pps0 => 1 | .pps1 => 2 | .synce => 3 | .ref10m => 4

/-- Priority of a source: 0 unused, 1 highest (TIME_SRC_CFG). -/
def State.srcPri (s : State) (k : Nat) : Nat :=
  let f := fun r => s.rd B.TIME r
  if k = 1 then f R.TIME_SRC_CFG_PRI_PTP else if k = 2 then f R.TIME_SRC_CFG_PRI_PPS0 else if k = 3 then f R.TIME_SRC_CFG_PRI_PPS1
  else if k = 17 then f R.TIME_SRC_CFG_PRI_SYNCE else if k = 18 then f R.TIME_SRC_CFG_PRI_REF10M
  else if k = 19 then f R.TIME_SRC_CFG_PRI_FPTP else 0

def State.qualAt (s : State) (k : Nat) : Option Nat := tget (fun _ => none) s.tim.qual k
def State.setQual (s : State) (k : Nat) (v : Option Nat) : State :=
  s.onTim fun t => { t with qual := tput (fun _ => none) t.qual k v }

/-- The qualified source of highest priority among a list; at equal priority the earlier one. -/
def State.bestOf (s : State) (l : List Nat) : Option Nat :=
  l.foldl (fun (b : Option Nat) (k : Nat) =>
    if (s.qualAt k).isNone || s.srcPri k = 0 then b
    else match b with
      | none => some k
      | some j => if s.srcPri k < s.srcPri j then some k else some j) none

def phaseSrcs : List Nat := [1, 2, 3]
def freqSrcs : List Nat := [17, 18, 19]

/-- A new state with its clockClass (Table 14.4). -/
def State.enterTime (s : State) (st : Nat) : State :=
  let ptp := s.tim.viaPtp
  let cls := if st = 2 then (if ptp then s.tim.up.1 else 6) else if st = 3 then (if ptp then 135 else 7)
    else if st = 4 then (if ptp then 165 else 140) else 248
  ((s.wr B.TIME R.TIME_STATE_STATE st).wr B.TIME R.TIME_STATE_CLASS (cls % 256)).timeEvent

/-- TIME_OFFSET: the last D in 1/16 ns, saturating. -/
def State.showOffset (s : State) (d : Int) : State :=
  let v := max (-(2 : Int) ^ 31) (min ((2 : Int) ^ 31 - 1) (16 * d))
  s.wr B.TIME R.TIME_OFFSET_OFFSET (toSigned 32 v)

/-- D below -1 s: the source is not used (R324). -/
def State.behind (s : State) (k : Nat) : State :=
  ((s.setQual k none).wrB B.TIME R.TIME_EVENTS_BEHIND true).raise 16 0 0

/-- The loss of every phase source (Table 14.4): ACQUIRING returns to FREERUN, LOCKED goes to holdover with its bound. -/
def State.noPhase (s : State) : State :=
  let s := s.wr B.TIME R.TIME_STATE_PHASE_SRC 0
  let s := s.onTim fun t => { t with within := none, slew := 0 }
  if s.timeState = 2 then
    (s.onTim fun t => { t with hold := some (s.now, s.rd B.TIME R.TIME_BOUND_SRC_BOUND) }).enterTime 3
  else if s.timeState = 1 then (s.wr B.TIME R.TIME_BOUND_SRC_BOUND 0xFFFF).enterTime 0
  else s.timeEvent

/-- R324: D of the selected source corrects the time word; the first selection after a cold reset steps to it. -/
def State.correct (s : State) (d : Int) (first : Bool) : State :=
  let s := s.showOffset d
  let th := (s.rd B.TIME R.TIME_LOOP_STEP_TH : Int)
  let s := s.onTim fun t => { t with within := if -10 ≤ d && d ≤ 10 then some (t.within.getD s.now) else none }
  if d ≥ 0 && (first || th < d) then s.stepForward d else s.onTim fun t => { t with slew := d }

/-- A phase source is selected, with the D it shows: ACQUIRING. -/
def State.selectPhase (s : State) (k : Nat) (d : Int) : State :=
  let s := (s.wr B.TIME R.TIME_STATE_PHASE_SRC k).count (B.TIME + C.TIME_SRC_SWITCH)
  let first := !s.tim.first
  let s := s.onTim fun t => { t with first := true, hold := none, viaPtp := k = 1, within := none }
  let s := (s.wr B.TIME R.TIME_BOUND_SRC_BOUND 0xFFFF).enterTime 1
  s.correct d first

/-- The phase source selected now, TIME_SET aside. -/
def State.phaseSel (s : State) : Option Nat :=
  let k := s.rd B.TIME R.TIME_STATE_PHASE_SRC
  if 1 ≤ k && k ≤ 3 then some k else none

/-- The qualified source of highest priority is selected where none is, or holdover begins; `d` is its D. -/
def State.choosePhase (s : State) (d : Int) : State :=
  match s.bestOf phaseSrcs with
  | none => s.noPhase
  | some k => if d < -1000000000 then (s.behind k).noPhase else s.selectPhase k d

def State.selectFreq (s : State) (k : Option Nat) : State :=
  let c := (k.map (· - 16)).getD 0
  if s.rd B.TIME R.TIME_STATE_FREQ_SRC = c then s
  else ((s.wr B.TIME R.TIME_STATE_FREQ_SRC c).count (B.TIME + C.TIME_SRC_SWITCH)).timeEvent

def State.freqSel (s : State) : Option Nat :=
  let c := s.rd B.TIME R.TIME_STATE_FREQ_SRC
  if c = 0 then none else some (c + 16)

/-- What R335 asks of a source before it qualifies, as far as the device counts it. -/
def State.mayQualify (s : State) (k : TimeSrc) : Bool :=
  let pps := fun i =>
    let x := tget (fun _ => PpsIn.init) s.tim.pps i
    s.flag (B.TIME + 8 * i) R.TIME_PPS_IN_CFG_EN && decide (8 ≤ x.good) && decide (2 ≤ x.named)
  match k with
  | .ptp => s.tim.slave.isSome && decide (16 ≤ s.tim.pairs)
  | .pps0 => pps 0
  | .pps1 => pps 1
  | .synce => s.laneClock (s.rd B.TIME R.TIME_SRC_CFG_SYNCE_LANE)
  | .ref10m => true

def State.ptpPort (s : State) (p : Nat) : PtpPort := tget (fun _ => PtpPort.init) s.tim.ports p

/-- PTP runs on a port: enabled, up, in a mode of Table 14.10a. -/
def State.ptpRuns (s : State) (p : Nat) : Bool :=
  (s.ptpPort p).en && s.portUp p &&
    match s.mode with
    | .priming | .flowing | .survey => true
    | .trickle => s.uplinks.contains p
    | .fallow | .drain => false

/-- The announce interval of a port in ns. -/
def State.announceGap (s : State) (p : Nat) : Nat :=
  let l := (tget (fun _ => PtpPort.init) s.tim.ports p).logs.getD 2 0
  ms 1000 / 2 ^ (if l = 0 then 0 else 256 - l)

/-- What Table 14.5 gives for the loss of a source, as far as the device counts it. -/
def State.mayLose (s : State) (k : TimeSrc) : Bool :=
  let pps := fun i =>
    let x := tget (fun _ => PpsIn.init) s.tim.pps i
    x.last.all (fun t => decide (t + ms 1100 ≤ s.now)) || decide (3 ≤ x.bad)
  match k with
  | .ptp => s.tim.slave.all fun p => !s.ptpRuns p || decide (s.tim.annAt + 3 * s.announceGap p ≤ s.now) || decide (s.tim.pairAt + ms 1000 ≤ s.now)
  | .pps0 => pps 0
  | .pps1 => pps 1
  | .synce => !s.laneClock (s.rd B.TIME R.TIME_SRC_CFG_SYNCE_LANE)
  | .ref10m => true

/-- R335: a source qualifies; the qualified source of highest priority is selected where none is. -/
def execSourceQualified (k : TimeSrc) (d : Int) (s : State) : Res :=
  if !s.mayQualify k then .next s
  else
    let s := match k with
      | .pps0 => (s.wrB B.TIME R.TIME_PPS_IN_STAT_QUAL true).wrB B.TIME R.TIME_PPS_IN_STAT_LOST false
      | .pps1 => (s.wrB (B.TIME + 8) R.TIME_PPS_IN_STAT_QUAL true).wrB (B.TIME + 8) R.TIME_PPS_IN_STAT_LOST false
      | .ref10m => s.wrB B.PWR R.PWR_PINS_REF10M_OK true
      | .ptp | .synce => s
    let q := fun (s : State) (k : Nat) => if (s.qualAt k).isSome then s else s.setQual k (some s.now)
    let s := ((srcPhase k).toList ++ (srcFreq k).toList).foldl q s
    let s := if s.phaseSel.isNone && (srcPhase k).isSome && s.bestOf phaseSrcs = (srcPhase k) then s.choosePhase d else s
    .next (if s.freqSel.isNone then s.selectFreq (s.bestOf freqSrcs) else s)

/-- R335: a source is lost where Table 14.5 has it: its event, a Note fault, and the next source or holdover, whose D is `d`. -/
def execSourceLost (k : TimeSrc) (d : Int) (s : State) : Res :=
  if !((srcPhase k).toList ++ (srcFreq k).toList).any (fun j => (s.qualAt j).isSome) || !s.mayLose k then .next s
  else
    let s := ((srcPhase k).toList ++ (srcFreq k).toList).foldl (fun s j => s.setQual j none) s
    let a := B.TIME + R.TIME_EVENTS_PTP_LOST.off
    let s := s.wrW a (setBits (s.reg a).toNat (srcEvent k) (srcEvent k) 1)
    let lost := fun (s : State) (i : Nat) =>
      let b := B.TIME + 8 * i
      ((s.wrB b R.TIME_PPS_IN_STAT_QUAL false).wrB b R.TIME_PPS_IN_STAT_LOST true).onTim fun t =>
        { t with pps := tput (fun _ => PpsIn.init) t.pps i { tget (fun _ => PpsIn.init) t.pps i with good := 0, named := 0 } }
    let s := match k with
      | .pps0 => lost s 0
      | .pps1 => lost s 1
      | .ref10m => s.wrB B.PWR R.PWR_PINS_REF10M_OK false
      | .ptp => s.onTim fun t => { t with slave := none, pairs := 0 }
      | .synce => s
    let s := s.raise 15 (srcEvent k) 0
    let s := if s.phaseSel.isSome && s.phaseSel = (srcPhase k) then s.choosePhase d else s
    .next (if s.freqSel.isSome && s.freqSel = (srcFreq k) then s.selectFreq (s.bestOf freqSrcs) else s)

/-- A source that has been qualified for 10 s is of higher priority than the selected one. -/
def State.revertTo (s : State) (l : List Nat) (cur : Option Nat) : Option Nat :=
  match s.bestOf l, cur with
  | some k, some j => if s.srcPri k < s.srcPri j && (s.qualAt k).any (fun t => decide (t + ms 10000 ≤ s.now)) then some k else none
  | _, _ => none

/-- R334: with REVERT 1 the time unit returns to a source of higher priority. -/
def execSourceRevert (d : Int) (s : State) : Res :=
  if !s.flag B.TIME R.TIME_SRC_CFG_REVERT then .next s
  else
    let s := match s.revertTo phaseSrcs s.phaseSel with
      | some k => if d < -1000000000 then s.behind k else s.selectPhase k d
      | none => s
    .next (match s.revertTo freqSrcs s.freqSel with
      | some k => s.selectFreq (some k)
      | none => s)

/-- D as the selected source shows it now. -/
def State.phaseUpdate (s : State) (k : Nat) (d : Int) : State :=
  if s.phaseSel ≠ some k then s
  else if d < -1000000000 then (s.behind k).noPhase
  else s.correct d false

/-- R333: the phase offset has stayed within ±10 ns for 60 s. The bound while LOCKED is a free value. -/
def execTimeLocked (s : State) : Res :=
  match s.tim.within with
  | none => .next s
  | some t =>
    if s.timeState ≠ 1 || s.phaseSel.isNone || s.now < t + ms 60000 then .next s
    else
      let (b, s) := s.draw
      .next ((s.wr B.TIME R.TIME_BOUND_SRC_BOUND (b % 2 ^ 16)).enterTime 2)

/-- R336: SRC_BOUND passes HOLD_LIMIT. -/
def execHoldoverOut (s : State) : Res :=
  if s.timeState = 3 && decide (s.rd B.TIME R.TIME_HOLD_LIM_HOLD_LIMIT < s.srcBound) then .next ((s.enterTime 4).raise 16 0 0)
  else .next s

/-! ### Calibration (R327) -/

/-- R327: a lane group (0 to 23) or a host port (24 to 31) is calibrated; the corrections are free values. -/
def execTimestampCalibration (u : Fin 32) (s : State) : Res :=
  let d := if u.val < 24 then domLG u else 53 + (u.val - 24)
  if !s.domOn d then .next s
  else
    let s := s.calibrate u
    .next (if s.bgAt 6 1 then s else s.bgRan 6)

/-! ### PTP (R328 to R330) -/

/-- R330: a PTP message of the clock's domain arrives on a port. -/
def execPtpMessageRx (p : Port) (x : PtpMsg) (s : State) : Res :=
  if !s.ptpRuns p then .next s
  else match x with
    | .bad => .next (s.count (B.TIME + C.TIME_PTP_RX_BAD))
    | .announce slave cls steps gm utc =>
      let s := s.count (B.TIME + C.TIME_PTP_RX)
      let can := slave && !(s.ptpPort p).masterOnly
      let s := if can && s.tim.slave ≠ some p.val then s.onTim fun t => { t with slave := some p.val, pairs := 0, pairAt := s.now }
        else if !slave && s.tim.slave = some p.val then s.onTim fun t => { t with slave := none, pairs := 0 } else s
      if !can then .next s
      else
        let s := s.onTim fun t => { t with up := (cls % 256, steps % 2 ^ 16, gm % 2 ^ 64), annAt := s.now }
        let s := if s.timeState = 2 && s.tim.viaPtp then s.wr B.TIME R.TIME_STATE_CLASS (cls % 256) else s
        let a := B.TIME + R.TIME_UTC_OFFSET.off
        let u := utc % 2 ^ 19
        .next (if (s.reg a).toNat = u then s else (s.wrW a u).timeEvent)
    | .pair d =>
      let s := s.count (B.TIME + C.TIME_PTP_RX)
      if s.tim.slave ≠ some p.val then .next s
      else .next ((s.onTim fun t => { t with pairs := t.pairs + 1, pairAt := s.now }).phaseUpdate 1 d)
    | .delayReq =>
      let s := s.count (B.TIME + C.TIME_PTP_RX)
      if s.tim.slave = some p.val then .next s
      else .next ((s.count (B.TIME + C.TIME_PTP_TX)).emit (.ptp p "DELAY_RESP" (s.stampAt p true 0).1))

/-- A Sync leaves in one-step form (R329). -/
def State.oneStep (s : State) (p : Nat) : Bool :=
  let x := s.ptpPort p
  x.transport < 2 && !x.twoStep && (!s.flag (portBase p) R.ETH_PORT_CFG_MACSEC || s.flag (portBase p) R.ETH_PORT_CFG_PTP_CLEAR)

/-- R329: a port sends its scheduled message. -/
def execPtpMessageTx (p : Port) (k : PtpTx) (s : State) : Res :=
  let send := fun (s : State) (what : String) => (s.count (B.TIME + C.TIME_PTP_TX)).emit (.ptp p what (s.stampAt p true 0).1)
  let slave := s.tim.slave = some p.val
  let master := !slave && s.tim.clock.getD 5 0 = 0
  if !s.ptpRuns p then .next s
  else match k with
    | .sync => .next (if !master then s else if s.oneStep p then send s "SYNC_ONE_STEP" else send (send s "SYNC") "FOLLOW_UP")
    | .announce => .next (if master then send s "ANNOUNCE" else s)
    | .delayReq => .next (if slave then send s "DELAY_REQ" else s)

/-! ### PPS and ToD (R337 to R340) -/

/-- CRC-16/CCITT-FALSE: polynomial 0x1021, start 0xFFFF, most significant bit first. -/
def crc16 (l : List Byte) : Nat :=
  l.foldl (fun c b => (List.range 8).foldl (fun c _ => if c / 2 ^ 15 = 1 then (2 * c % 2 ^ 16) ^^^ 0x1021 else 2 * c) (c ^^^ (b.toNat * 256)))
    0xFFFF

/-- FLAGS of a ToD message (Table 14.6). -/
def State.todFlags (s : State) : Nat :=
  let st := s.timeState
  let u := s.rd B.TIME
  bit (st = 2 || st = 3) + 2 * u R.TIME_UTC_LEAP61 + 4 * u R.TIME_UTC_LEAP59 + 8 * u R.TIME_UTC_UTC_VALID + 16 * bit (st = 3)
    + 32 * bit (st = 0)

/-- A ToD message (Table 14.6). -/
def State.todMessage (s : State) (sec seq : Nat) : List Byte :=
  let err := if s.srcBound = 0xFFFF then 0xFFFF else sat 0xFFFF (s.srcBound + 2)
  let l := [0xA5#8, 0x5A#8, 1#8, 24#8] ++ leBytes 8 sec ++ leBytes 2 (s.rd B.TIME R.TIME_UTC_OFFSET) ++ leBytes 1 s.todFlags
    ++ leBytes 1 (s.rd B.TIME R.TIME_STATE_CLASS) ++ leBytes 2 err ++ leBytes 2 seq ++ leBytes 2 0
  l ++ leBytes 2 (crc16 l)

def State.ppsOut (s : State) (n : Nat) : PpsOut := tget (fun _ => PpsOut.init) s.tim.outs n
def State.setPpsOut (s : State) (n : Nat) (x : PpsOut) : State :=
  s.onTim fun t => { t with outs := tput (fun _ => PpsOut.init) t.outs n x }

/-- An output is squelched (R337). -/
def State.squelched (s : State) (n : Nat) : Bool :=
  s.flag (outReg n) R.TIME_OUT_CFG_SQ && (s.timeState = 0 || s.timeState = 4)

/-- R337: at a whole TAI second plus OFFSET, within ±2 ns, an enabled output places its edge, 500 ms or more after the
previous one (Table 14.2). -/
def execPpsOutputEdge (n : Fin 20) (s : State) : Res :=
  let b := outReg n
  let x := s.ppsOut n
  let ofs := s.srd b R.TIME_OUT_OFS_OFFSET / 16
  let t := (s.timeWord : Int) - ofs
  let sec := ((t + 2) / 1000000000).toNat
  let near := decide ((t + 2) % 1000000000 ≤ 4) && decide (0 ≤ t + 2)
  let gap := match x.last with
    | none => true
    | some (_, l) => decide (l + ms 500 ≤ s.now)
  if !s.flag b R.TIME_OUT_CFG_EN || !near || !gap then .next s
  else if s.squelched n then .next (s.wrB b R.TIME_OUT_STAT_ACTIVE false)
  else
    let s := (s.wrB b R.TIME_OUT_STAT_ACTIVE true).emit (.pps n (toSigned 64 (sec * 1000000000 + ofs)))
    .next (s.setPpsOut n { x with last := some (sec, s.now), due := some (sec, s.now) })

/-- R338: the message of an edge starts 10 ms after it, and ends within 20 ms of it. -/
def execTodOutputMessage (n : Fin 20) (s : State) : Res :=
  let x := s.ppsOut n
  match x.due with
  | none => .next s
  | some (sec, t) =>
    if s.now < t + ms 10 || t + ms 20 < s.now then .next s
    else
      let s := s.setPpsOut n { x with due := none, seq := (x.seq + 1) % 2 ^ 16 }
      if !s.flag (outReg n) R.TIME_OUT_CFG_TOD_EN || s.squelched n then .next (s.setPpsOut n { x with due := none })
      else .next (s.emit (.tod n (s.todMessage sec x.seq)))

def State.ppsIn (s : State) (i : Nat) : PpsIn := tget (fun _ => PpsIn.init) s.tim.pps i
def State.setPpsIn (s : State) (i : Nat) (x : PpsIn) : State :=
  s.onTim fun t => { t with pps := tput (fun _ => PpsIn.init) t.pps i x }

/-- An edge or message of an input is rejected. -/
def State.ppsReject (s : State) (i : Nat) : State := s.bump (B.TIME + 8 * i) R.TIME_PPS_IN_STAT_REJECTS

/-- R339: an input's active edge is timestamped, its OFFSET added; where its seconds are known it shows D. -/
def execPpsInputEdge (i : Fin 2) (s : State) : Res :=
  let b := B.TIME + 8 * i
  let x := s.ppsIn i
  if !s.flag b R.TIME_PPS_IN_CFG_EN then .next s
  else
    let gap := x.last.map fun t => s.now - t
    let good := gap.any fun g => decide (ms 1000 ≤ g + 1000) && decide (g ≤ ms 1000 + 1000)
    let sec := match x.next with
      | some v => some v
      | none => if good then x.sec.map (· + 1) else none
    let s := if gap.isSome && !good then s.ppsReject i else s
    let s := s.setPpsIn i
      { last := some s.now, sec := sec, next := none, good := if good then x.good + 1 else 0,
        named := if x.next.isSome then x.named + 1 else if good then x.named else 0, bad := if good || gap.isNone then 0 else x.bad + 1 }
    let s := s.wrB b R.TIME_PPS_IN_STAT_TOD_OK false
    let at_ := (s.timeWord : Int) + s.srd b R.TIME_PPS_IN_CFG_OFFSET / 16
    match sec with
    | some v => .next (if good then s.phaseUpdate (2 + i) ((v : Int) * 1000000000 - at_) else s)
    | none => .next s

/-- R339: a ToD message within 900 ms after an edge names it; any other is discarded and counted. -/
def execTodInputMessage (i : Fin 2) (l : List Byte) (s : State) : Res :=
  let b := B.TIME + 8 * i
  let x := s.ppsIn i
  if !s.flag b R.TIME_PPS_IN_CFG_EN || !s.flag b R.TIME_PPS_IN_CFG_TOD_EN then .next s
  else if l.length = 24 && l.take 4 = [0xA5#8, 0x5A#8, 1#8, 24#8] && crc16 (l.take 22) = leNat (l.drop 22)
      && x.last.any (fun t => decide (s.now ≤ t + ms 900)) then
    .next ((s.setPpsIn i { x with sec := some (leNat ((l.drop 4).take 8)), named := x.named + 1 }).wrB b R.TIME_PPS_IN_STAT_TOD_OK true)
  else .next ((s.ppsReject i).count (B.TIME + C.TIME_TOD_RX_BAD))

/-- R340: the overcurrent flag of a cable feed falls. -/
def execHostFeedTrip (n : Fin 16) (s : State) : Res :=
  let b := outReg n
  if !s.flag b R.TIME_OUT_STAT_FEED_ON then .next s
  else
    let s := ((s.wrB b R.TIME_OUT_STAT_FEED_ON false).wrB b R.TIME_OUT_STAT_TRIP true).emit (.pin "HT_FEED_EN" false)
    .next (s.raise 17 n 0)

/-! ### PTM (R272, R341) -/

/-- R341: a request every 100 µs while PTM Enable is set and the link is up. -/
def execPtmRequest (m : Link) (s : State) : Res :=
  let l := s.link m
  if !s.linkExists m || !s.linkUp m || !l.ptmEn || l.ptmAt.isSome || l.ptmLast.any (fun t => decide (s.now < t + us 100)) then .next s
  else
    let s := s.wake m
    .next ((s.setLink m { s.link m with ptmAt := some s.now, ptmLast := some s.now }).emit (.ptm m))

/-- R341: the response completes an exchange; it is kept, with the host's PTM master time, among the last 16. -/
def execPtmResponse (m : Link) (host : Nat) (s : State) : Res :=
  let l := s.link m
  match l.ptmAt with
  | none => .next s
  | some t =>
    if t + us 10 < s.now || !s.linkUp m then .next s
    else
      let x := l.ptmX ++ [(host, s.timeWord)]
      .next ((s.setLink m { l with ptmAt := none, ptmOkAt := some s.now, ptmX := x.drop (x.length - 16) }).count
        (B.TIME + C.TIME_PTM_EXCH + 0x10 * m))

/-- R341: no response within 10 µs. -/
def execPtmTimeout (m : Link) (s : State) : Res :=
  let l := s.link m
  match l.ptmAt with
  | none => .next s
  | some t =>
    if s.now < t + us 10 then .next s
    else .next ((s.setLink m { l with ptmAt := none }).count (B.TIME + C.TIME_PTM_FAIL + 0x10 * m))

/-! ### Time pages (R342 to R346) -/

/-- R342: the host writes TIME_HP_PAGE_LO. -/
def execTimePageEnable (m : Link) (v : Word) (s : State) : Res :=
  if !s.answers m 0 then .next (if s.linkExists m && s.linkUp m then s.refuseHost m else s)
  else .next (((s.catchUp (.host m 0)).writeWord (B.TPG m) .write v.toNat).answer .ok)

/-- BOUND_VALID (R345). -/
def State.boundValid (s : State) (m : Nat) : Bool := s.ptmOk m && decide (4 ≤ s.rd (B.HPT m) R.HPT_LINK_RATE) && !s.calLate

/-- FLAGS of a page (Table 14.7). -/
def State.pageFlags (s : State) (ptm valid step : Bool) : Nat :=
  let st := s.timeState
  let u := s.rd B.TIME
  bit ptm + 2 * bit valid + 4 * bit (st = 2) + 8 * bit (st = 3 || st = 4) + 16 * bit step + 32 * u R.TIME_UTC_LEAP61
    + 64 * u R.TIME_UTC_LEAP59 + 128 * u R.TIME_UTC_UTC_VALID + 256 * bit s.calLate

/-- Seconds in holdover. -/
def State.holdSeconds (s : State) : Nat :=
  match s.tim.hold with
  | some (t, _) => (s.now - t) / ms 1000
  | none => 0

/-- Bytes 4 to 255 of a page (Table 14.7). -/
def State.pageBody (s : State) (flags valid c0 rate deliv link : Nat) : List Byte :=
  fit 252 (leBytes 2 1 ++ leBytes 2 flags ++ leBytes 8 s.timeWord ++ leBytes 2 s.tim.frac ++ leBytes 1 s.timeState
    ++ leBytes 1 (s.rd B.TIME R.TIME_STATE_CLASS) ++ leBytes 4 valid ++ leBytes 8 c0 ++ leBytes 8 rate ++ leBytes 2 deliv
    ++ leBytes 2 s.srcBound ++ leBytes 2 (s.rd B.TIME R.TIME_UTC_OFFSET) ++ leBytes 2 link ++ leBytes 8 s.tim.up.2.2
    ++ leBytes 4 s.tim.up.2.1 ++ leBytes 4 s.holdSeconds ++ leBytes 8 s.tim.lastStep)

/-- DELIV_BOUND (R345). -/
def delivBound (interval : Nat) : Nat := if interval ≤ 8 then 8 else 8 + (interval - 8 + 15) / 16

/-- R343: a page falls due, at its interval or after a time event, and is written in three posted writes; none
while Bus Master Enable is 0 (R259). C0 and RATE are the fit of R341 (assumption 27). -/
def execTimePageWrite (m : Link) (s : State) : Res :=
  let b := B.TPG m
  let x := s.page m
  let n := s.rd b R.TIME_HP_CFG_INTERVAL
  let ptm := s.ptmOk m
  let due := decide (x.next ≤ s.now) || x.extra.isSome || x.was ≠ ptm
  if !s.flag b R.TIME_HP_PAGE_LO_EN || !due || !s.linkUp m || !(s.fn m 0).ready || !(s.fn m 0).bme then .next s
  else
    let next := if s.now < x.next then x.next else max (x.next + us 125 * n) (s.now + 1)
    if !s.windowOk (s.plotBase m) x.addr 256 true then
      let s := s.setPage m { x with next := next, extra := none, was := ptm }
      .next ((s.windowErr (s.plotBase m)).wrB b R.TIME_HP_STATUS_WIN_ERR true)
    else
      let valid := s.boundValid m
      let (c0, rate) := Config.ptmFit (s.link m).ptmX s.timeWord
      let body := s.pageBody (s.pageFlags ptm valid x.step) (3 * us 125 * n) (c0 % 2 ^ 64) (rate % 2 ^ 64)
        (if valid then delivBound n else 0xFFFF) m
      let s := s.postWrite m 0 x.addr (leBytes 4 (x.seq + 2 ^ 32 - 1))
      let s := s.postWrite m 0 (x.addr + 4) body
      let s := s.postWrite m 0 x.addr (leBytes 4 x.seq)
      .next ((s.setPage m { x with seq := (x.seq + 2) % 2 ^ 32, next := next, extra := none, step := false, was := ptm }).count
        (B.TIME + C.TIME_PAGE_WRITES + 8 * m))

/-- R346: the core time page, every 1 ms and on time events: C0 is the local count. RATE is what the slew adds. -/
def execCoreTimePageWrite (s : State) : Res :=
  let x := s.tim.core
  if s.now < x.next && x.extra.isNone then .next s
  else
    let slew := (s.rd B.TIME R.TIME_SLEW_SLEW : Int) * 2 ^ 48 / 1000000
    let rate := if s.tim.slew = 0 then 0 else toSigned 64 (if s.tim.slew < 0 then -slew else slew)
    let seq := (x.seq + 2) % 2 ^ 32
    let body := s.pageBody (s.pageFlags true true x.step) (3 * ms 1) s.now rate 2 0
    let s := { s with mem := putBytes s.mem B.CTP (leBytes 4 seq ++ body) }
    .next (s.onTim fun t => { t with core := { x with seq := seq, next := s.now + ms 1, extra := none, step := false } })

/-! ### Leap seconds (R348) -/

/-- R348: at a pending leap second TAI goes on, the UTC offset changes and the flag clears. -/
def execLeapSecond (s : State) : Res :=
  let o := s.srd B.TIME R.TIME_UTC_OFFSET
  let move := fun (d : Int) (f : RegField) => .next (((s.wr B.TIME R.TIME_UTC_OFFSET (toSigned 16 (o + d))).wrB B.TIME f false).timeEvent)
  if s.flag B.TIME R.TIME_UTC_LEAP61 then move 1 R.TIME_UTC_LEAP61
  else if s.flag B.TIME R.TIME_UTC_LEAP59 then move (-1) R.TIME_UTC_LEAP59
  else .next s

/-! ### Commands (R349, Table 14.12) -/

def execTimeStatus (q : Req) (s : State) : Res :=
  .next (s.command q 0x0400 fun _ s =>
    s.done q (leBytes 1 s.timeState ++ leBytes 1 (s.rd B.TIME R.TIME_STATE_CLASS) ++ leBytes 1 (s.rd B.TIME R.TIME_STATE_PHASE_SRC)
      ++ leBytes 1 (s.rd B.TIME R.TIME_STATE_FREQ_SRC) ++ leBytes 4 (s.rd B.TIME R.TIME_OFFSET_OFFSET) ++ leBytes 2 s.srcBound
      ++ leBytes 2 s.tim.up.2.1 ++ leBytes 8 s.tim.up.2.2 ++ leBytes 8 s.timeWord ++ leBytes 2 (s.rd B.TIME R.TIME_UTC_OFFSET)
      ++ leBytes 2 (s.pageFlags false false false % 2 ^ 8) ++ leBytes 4 s.holdSeconds))

/-- After a change of priorities, sources without one are left, and where none is selected the best is. The D that a source then
shows is a free value. -/
def State.reselect (s : State) : State :=
  let (f, s) := s.draw
  let d := signedOf 64 (f % 2 ^ 64)
  let s := match s.phaseSel with
    | some k => if s.srcPri k = 0 then s.choosePhase d else s
    | none => if (s.bestOf phaseSrcs).isSome then s.choosePhase d else s
  match s.freqSel with
  | some k => if s.srcPri k = 0 then s.selectFreq (s.bestOf freqSrcs) else s
  | none => s.selectFreq (s.bestOf freqSrcs)

def execTimeSrcSet (q : Req) (s : State) : Res :=
  .next (s.command q 0x0401 fun c s =>
    let ws := [(0x20, c.u32 8), (0x24, c.u32 12), (0x28, c.u16 16)]
    if ws.all fun w => wordTakes (B.TIME + w.1) w.2 then
      ((ws.foldl (fun (s : State) (w : Nat × Nat) => s.wrW (B.TIME + w.1) (wordFields (B.TIME + w.1) w.2)) s).reselect).done q []
    else s.finish q St.BAD_ARGUMENT)

def execTimeClockSet (q : Req) (s : State) : Res :=
  .next (s.command q 0x0402 fun c s =>
    if 2 < c.u8 8 then s.finish q St.BAD_ARGUMENT
    else (s.onTim fun t => { t with clock := [c.u8 8, c.u8 9, c.u8 10, c.u8 11, c.u8 12, c.u8 13 % 2] }).done q [])

/-- A log interval for rates of 1 to 2^n per second. -/
def logOk (v n : Nat) : Bool := v = 0 || decide (256 ≤ v + n)

def execTimePortSet (q : Req) (s : State) : Res :=
  .next (s.command q 0x0403 fun c s =>
    let p := c.u8 8
    if 95 < p || s.portWidth p = 0 || 2 < c.u8 10 || 1 < c.u8 11 || !logOk (c.u8 13) 7 || !logOk (c.u8 14) 7 || !logOk (c.u8 15) 3 then
      s.finish q St.BAD_ARGUMENT
    else
      let x : PtpPort := { en := bitOf (c.u8 9) 0, masterOnly := bitOf (c.u8 9) 1, twoStep := bitOf (c.u8 9) 2, transport := c.u8 10,
                           addr := c.u8 11, lp := c.u8 12, logs := [c.u8 13, c.u8 14, c.u8 15] }
      let s := s.onTim fun t => { t with ports := tput (fun _ => PtpPort.init) t.ports p x }
      let s := (s.wrW (B.TIME + 0x404 + 8 * p) (c.u32 16)).wrW (B.TIME + 0x400 + 8 * p) (c.u32 20)
      s.done q [])

def execTimeUnicastSet (q : Req) (s : State) : Res :=
  .next (s.command q 0x0404 fun c s =>
    let p := c.u8 8
    let l := c.bytes 16 16
    let same := fun (e : Nat × Nat × Nat × Nat × List Byte) => e.1 = p && e.2.1 = c.u8 10 && e.2.2.1 = c.u8 11 && e.2.2.2.2 = l
    if 95 < p || 1 < c.u8 9 || 1 < c.u8 10 || !(c.u8 11 = 4 || c.u8 11 = 6) || !logOk (c.u8 12) 7 then s.finish q St.BAD_ARGUMENT
    else if c.u8 9 = 0 then
      if s.tim.sessions.any same then (s.onTim fun t => { t with sessions := t.sessions.filter fun e => !same e }).done q []
      else s.finish q St.BAD_ARGUMENT
    else
      let rest := s.tim.sessions.filter fun e => !same e
      if 512 ≤ rest.length then s.finish q St.NO_RESOURCE
      else (s.onTim fun t => { t with sessions := rest ++ [(p, c.u8 10, c.u8 11, c.u8 12, l)] }).done q [])

/-- R467: the time word takes the given time at one instant. -/
def execTimeSet (q : Req) (s : State) : Res :=
  .next (s.command q 0x0405 fun c s =>
    let d := (c.u64 8 : Int) - s.timeWord
    let fine := d * 65536 + (c.u16 16 : Int) - s.tim.frac
    if s.phaseSel.isSome || (fine < 0 && s.mode ≠ .survey)
        || !(s.mode = .priming || s.mode = .flowing || s.mode = .trickle || s.mode = .survey) then s.finish q St.BAD_ARGUMENT
    else
      let s := if fine < 0 then s.stepTime d else if 0 < fine then s.stepForward d else s
      let s := s.onTim fun t => { t with frac := c.u16 16 }
      (s.wr B.TIME R.TIME_STATE_PHASE_SRC 4).done q [])

def execTimeTodSet (q : Req) (s : State) : Res :=
  .next (s.command q 0x0406 fun c s =>
    if 1 < c.u8 8 then s.finish q St.BAD_ARGUMENT
    else (s.setPpsIn (c.u8 8) { s.ppsIn (c.u8 8) with next := some (c.u64 12) }).done q [])

def execTimeOutSet (q : Req) (s : State) : Res :=
  .next (s.command q 0x0407 fun c s =>
    let n := c.u8 8
    let a := outReg n + R.TIME_OUT_CFG_EN.off
    if 19 < n || !wordTakes a (c.u32 12) then s.finish q St.BAD_ARGUMENT
    else
      let old := (s.reg a).toNat
      let s := (s.wrW a (wordFields a (c.u32 12))).wrW (a + 4) (c.u32 16)
      ((s.feedWritten n old).done q []))

def execTimeSynceQl (q : Req) (s : State) : Res :=
  .next (s.command q 0x0408 fun c s =>
    let lane := c.u8 8
    if 95 < lane || 15 < c.u8 9 then s.finish q St.BAD_ARGUMENT
    else
      let s := s.onTim fun t => { t with ql := tput (fun _ => 0xF) t.ql lane (c.u8 9) }
      if s.freqSel = some 17 then
        s.done q (leBytes 1 (tget (fun _ => 0xF) s.tim.ql (s.rd B.TIME R.TIME_SRC_CFG_SYNCE_LANE)))
      else
        let (f, s) := s.draw
        s.done q (leBytes 1 (f % 16)))

def execTimeHoldSet (q : Req) (s : State) : Res :=
  .next (s.command q 0x0409 fun c s =>
    if s.flag B.TIME R.TIME_LOCK_HLOCK then s.finish q St.REFUSED
    else
      let s := (s.wrW (B.TIME + 0x30) (c.u32 8)).wr B.TIME R.TIME_HOLD_LIM_HOLD_LIMIT (c.u16 12)
      (if bitOf (c.u8 14) 0 then s.wrB B.TIME R.TIME_LOCK_HLOCK true else s).done q [])

def execTimeUtcSet (q : Req) (s : State) : Res :=
  .next (s.command q 0x040A fun c s =>
    if s.tim.slave.isSome then s.busyRetry q 1000
    else ((s.wrW (B.TIME + R.TIME_UTC_OFFSET.off) (c.u16 8 + 2 ^ 16 * (c.u8 10 % 8))).timeEvent).done q [])

def execTimeCalRead (q : Req) (s : State) : Res :=
  .next (s.command q 0x040B fun c s =>
    let p := c.u8 8
    if 95 < p || s.portWidth p = 0 then s.finish q St.BAD_ARGUMENT
    else
      let x := s.calOf (p / 4)
      s.done q (leBytes 4 x.2.1 ++ leBytes 4 x.2.2 ++ leBytes 4 ((s.now - x.1) / ms 1)))

end Sys2Proof.Machine
end

