-- ==== Sys2Proof/Machine/Dispatch.lean ====
section
/-! DEFINITION. One arm per command: its meaning, on everything but the queue. -/
namespace Sys2Proof.Machine

def exec (i : Instr) (s : State) : Host.Outcome State Fault Refusal :=
  match i with
  | .registerWrite who a size v => Sys2Proof.Machine.execRegisterWrite who a size v s
  | .aliasSetWrite who a size v => Sys2Proof.Machine.execAliasSetWrite who a size v s
  | .aliasClearWrite who a size v => Sys2Proof.Machine.execAliasClearWrite who a size v s
  | .aliasToggleWrite who a size v => Sys2Proof.Machine.execAliasToggleWrite who a size v s
  | .slowAccessCrossed who => Sys2Proof.Machine.execSlowAccessCrossed who s
  | .slowAccessTimeout who => Sys2Proof.Machine.execSlowAccessTimeout who s
  | .wideSelWrite w addr => Sys2Proof.Machine.execWideSelWrite w addr s
  | .wideLatchDone w => Sys2Proof.Machine.execWideLatchDone w s
  | .paceVlimitWrite v => Sys2Proof.Machine.execPaceVlimitWrite v s
  | .lockBitWrite l v => Sys2Proof.Machine.execLockBitWrite l v s
  | .coreBusAccess n pa len wr => Sys2Proof.Machine.execCoreBusAccess n pa len wr s
  | .paceMeterUpdate readings => Sys2Proof.Machine.execPaceMeterUpdate readings s
  | .paceMeterCalibration d => Sys2Proof.Machine.execPaceMeterCalibration d s
  | .paceCalibrationDone d => Sys2Proof.Machine.execPaceCalibrationDone d s
  | .governorLoopStep step ack => Sys2Proof.Machine.execGovernorLoopStep step ack s
  | .avsCommandUnacknowledged => Sys2Proof.Machine.execAvsCommandUnacknowledged s
  | .avsResend ack => Sys2Proof.Machine.execAvsResend ack s
  | .powerReading current => Sys2Proof.Machine.execPowerReading current s
  | .tjReading sensors => Sys2Proof.Machine.execTjReading sensors s
  | .domainPowerGood d => Sys2Proof.Machine.execDomainPowerGood d s
  | .mailboxDoorbell m t => Sys2Proof.Machine.execMailboxDoorbell m t s
  | .progressHeader q progress => Sys2Proof.Machine.execProgressHeader q progress s
  | .resbaseWrite m lo hi => Sys2Proof.Machine.execResbaseWrite m lo hi s
  | .oldCommandSettled q effect => Sys2Proof.Machine.execOldCommandSettled q effect s
  | .coreMailboxDoorbell n => Sys2Proof.Machine.execCoreMailboxDoorbell n s
  | .devIdentify q => Sys2Proof.Machine.execDevIdentify q s
  | .devCaps q => Sys2Proof.Machine.execDevCaps q s
  | .devEcho q => Sys2Proof.Machine.execDevEcho q s
  | .devCmdStatus q => Sys2Proof.Machine.execDevCmdStatus q s
  | .devRegRead q => Sys2Proof.Machine.execDevRegRead q s
  | .devRegWrite q => Sys2Proof.Machine.execDevRegWrite q s
  | .devHealth q => Sys2Proof.Machine.execDevHealth q s
  | .modeGet q => Sys2Proof.Machine.execModeGet q s
  | .modeSet q => Sys2Proof.Machine.execModeSet q s
  | .warmReset q => Sys2Proof.Machine.execWarmReset q s
  | .domainSet q => Sys2Proof.Machine.execDomainSet q s
  | .govSet q => Sys2Proof.Machine.execGovSet q s
  | .trickleUplinks q => Sys2Proof.Machine.execTrickleUplinks q s
  | .pipeReset q => Sys2Proof.Machine.execPipeReset q s
  | .healthCheck q => Sys2Proof.Machine.execHealthCheck q s
  | .primingEntry => Sys2Proof.Machine.execPrimingEntry s
  | .primingStepDone k ok => Sys2Proof.Machine.execPrimingStepDone k ok s
  | .primingStepTimeout k => Sys2Proof.Machine.execPrimingStepTimeout k s
  | .primingComplete => Sys2Proof.Machine.execPrimingComplete s
  | .deviceWarmReset c => Sys2Proof.Machine.execDeviceWarmReset c s
  | .coldReset c => Sys2Proof.Machine.execColdReset c s
  | .sysResetLow => Sys2Proof.Machine.execSysResetLow s
  | .powerFail lowNs => Sys2Proof.Machine.execPowerFail lowNs s
  | .vaultChunkWritten ok => Sys2Proof.Machine.execVaultChunkWritten ok s
  | .drainComplete => Sys2Proof.Machine.execDrainComplete s
  | .flushLate => Sys2Proof.Machine.execFlushLate s
  | .mainPgRise => Sys2Proof.Machine.execMainPgRise s
  | .perstRelease m => Sys2Proof.Machine.execPerstRelease m s
  | .functionReady m f => Sys2Proof.Machine.execFunctionReady m f s
  | .frameReceive p data pcsErr overLimit => Sys2Proof.Machine.execFrameReceive p data pcsErr overLimit s
  | .pauseExpiry p c => Sys2Proof.Machine.execPauseExpiry p c s
  | .pfcRepeat p => Sys2Proof.Machine.execPfcRepeat p s
  | .linkDown p remote hiBer => Sys2Proof.Machine.execLinkDown p remote hiBer s
  | .linkUp p copper => Sys2Proof.Machine.execLinkUp p copper s
  | .laneSignalLoss lane => Sys2Proof.Machine.execLaneSignalLoss lane s
  | .moduleInserted g watts => Sys2Proof.Machine.execModuleInserted g watts s
  | .moduleRemoved g => Sys2Proof.Machine.execModuleRemoved g s
  | .moduleOvercurrent g => Sys2Proof.Machine.execModuleOvercurrent g s
  | .moduleI2cStuck g failures => Sys2Proof.Machine.execModuleI2cStuck g failures s
  | .packetParse h gen bad => Sys2Proof.Machine.execPacketParse h gen bad s
  | .longReachSwitch h => Sys2Proof.Machine.execLongReachSwitch h s
  | .huskMemWrite h => Sys2Proof.Machine.execHuskMemWrite h s
  | .huskMemRead h => Sys2Proof.Machine.execHuskMemRead h s
  | .nop p ix ecc => Sys2Proof.Machine.execNop p ix ecc s
  | .mov p ix ecc => Sys2Proof.Machine.execMov p ix ecc s
  | .add p ix ecc => Sys2Proof.Machine.execAdd p ix ecc s
  | .sub p ix ecc => Sys2Proof.Machine.execSub p ix ecc s
  | .and p ix ecc => Sys2Proof.Machine.execAnd p ix ecc s
  | .or p ix ecc => Sys2Proof.Machine.execOr p ix ecc s
  | .xor p ix ecc => Sys2Proof.Machine.execXor p ix ecc s
  | .shl p ix ecc => Sys2Proof.Machine.execShl p ix ecc s
  | .shr p ix ecc => Sys2Proof.Machine.execShr p ix ecc s
  | .ceq p ix ecc => Sys2Proof.Machine.execCeq p ix ecc s
  | .cne p ix ecc => Sys2Proof.Machine.execCne p ix ecc s
  | .clt p ix ecc => Sys2Proof.Machine.execClt p ix ecc s
  | .cge p ix ecc => Sys2Proof.Machine.execCge p ix ecc s
  | .tstm p ix ecc => Sys2Proof.Machine.execTstm p ix ecc s
  | .br p ix ecc => Sys2Proof.Machine.execBr p ix ecc s
  | .hash p ix ecc => Sys2Proof.Machine.execHash p ix ecc s
  | .wread p ix ecc => Sys2Proof.Machine.execWread p ix ecc s
  | .lookup p ix ecc tecc => Sys2Proof.Machine.execLookup p ix ecc tecc s
  | .update p ix ecc => Sys2Proof.Machine.execUpdate p ix ecc s
  | .meter p ix ecc => Sys2Proof.Machine.execMeter p ix ecc s
  | .count p ix ecc => Sys2Proof.Machine.execCount p ix ecc s
  | .learn p ix ecc => Sys2Proof.Machine.execLearn p ix ecc s
  | .lookupResponse p ix j => Sys2Proof.Machine.execLookupResponse p ix j s
  | .tokenExitHeadrace h => Sys2Proof.Machine.execTokenExitHeadrace h s
  | .tokenExitTailrace t => Sys2Proof.Machine.execTokenExitTailrace t s
  | .barrierReq p => Sys2Proof.Machine.execBarrierReq p s
  | .barrierDone p => Sys2Proof.Machine.execBarrierDone p s
  | .abortReq p => Sys2Proof.Machine.execAbortReq p s
  | .pipelineWatchdog p => Sys2Proof.Machine.execPipelineWatchdog p s
  | .mcWrite p => Sys2Proof.Machine.execMcWrite p s
  | .mcRead p => Sys2Proof.Machine.execMcRead p s
  | .edWrite t => Sys2Proof.Machine.execEdWrite t s
  | .edRead t => Sys2Proof.Machine.execEdRead t s
  | .flip p => Sys2Proof.Machine.execFlip p s
  | .bankFlip p => Sys2Proof.Machine.execBankFlip p s
  | .pipelineDrained p => Sys2Proof.Machine.execPipelineDrained p s
  | .mcStage q buf => Sys2Proof.Machine.execMcStage q buf s
  | .mcFlip q => Sys2Proof.Machine.execMcFlip q s
  | .mcStatus q => Sys2Proof.Machine.execMcStatus q s
  | .countRead q => Sys2Proof.Machine.execCountRead q s
  | .seedCntRead q => Sys2Proof.Machine.execSeedCntRead q s
  | .seedCntReadClear q => Sys2Proof.Machine.execSeedCntReadClear q s
  | .tblSeedInsert q => Sys2Proof.Machine.execTblSeedInsert q s
  | .tblSeedDelete q => Sys2Proof.Machine.execTblSeedDelete q s
  | .tblSeedRead q => Sys2Proof.Machine.execTblSeedRead q s
  | .tblSeedBatch q buf => Sys2Proof.Machine.execTblSeedBatch q buf s
  | .tblSeedFlush q => Sys2Proof.Machine.execTblSeedFlush q s
  | .tblSieveWrite q => Sys2Proof.Machine.execTblSieveWrite q s
  | .tblSieveClear q => Sys2Proof.Machine.execTblSieveClear q s
  | .tblSieveRead q => Sys2Proof.Machine.execTblSieveRead q s
  | .tblSieveProfile q => Sys2Proof.Machine.execTblSieveProfile q s
  | .tblRsvCreate q => Sys2Proof.Machine.execTblRsvCreate q s
  | .tblRsvDestroy q => Sys2Proof.Machine.execTblRsvDestroy q s
  | .tblRsvInsert q => Sys2Proof.Machine.execTblRsvInsert q s
  | .tblRsvDelete q => Sys2Proof.Machine.execTblRsvDelete q s
  | .tblRsvRead q => Sys2Proof.Machine.execTblRsvRead q s
  | .tblRsvBatch q buf => Sys2Proof.Machine.execTblRsvBatch q buf s
  | .tblStatus q => Sys2Proof.Machine.execTblStatus q s
  | .tblAgeCfg q => Sys2Proof.Machine.execTblAgeCfg q s
  | .learnNotice q => Sys2Proof.Machine.execLearnNotice q s
  | .missNotice q => Sys2Proof.Machine.execMissNotice q s
  | .ageNotice q => Sys2Proof.Machine.execAgeNotice q s
  | .remoteHitNotice q => Sys2Proof.Machine.execRemoteHitNotice q s
  | .parityNotice q readBack => Sys2Proof.Machine.execParityNotice q readBack s
  | .sweeperVisit q ix hit => Sys2Proof.Machine.execSweeperVisit q ix hit s
  | .learnFilterExpire h => Sys2Proof.Machine.execLearnFilterExpire h s
  | .rsvIdleSweep t touched => Sys2Proof.Machine.execRsvIdleSweep t touched s
  | .tableCopyLoaded q => Sys2Proof.Machine.execTableCopyLoaded q s
  | .seedEntWrite q tablePath => Sys2Proof.Machine.execSeedEntWrite q tablePath s
  | .seedEntRead q => Sys2Proof.Machine.execSeedEntRead q s
  | .sievEntWrite q tablePath => Sys2Proof.Machine.execSievEntWrite q tablePath s
  | .sievEntClear q tablePath => Sys2Proof.Machine.execSievEntClear q tablePath s
  | .sievEntRead q => Sys2Proof.Machine.execSievEntRead q s
  | .weirSlot => Sys2Proof.Machine.execWeirSlot s
  | .congestionAverageUpdate => Sys2Proof.Machine.execCongestionAverageUpdate s
  | .spillOut h t c => Sys2Proof.Machine.execSpillOut h t c s
  | .spillBack h t c => Sys2Proof.Machine.execSpillBack h t c s
  | .groupEpochRelease g => Sys2Proof.Machine.execGroupEpochRelease g s
  | .qosTcSet q => Sys2Proof.Machine.execQosTcSet q s
  | .qosRedSet q => Sys2Proof.Machine.execQosRedSet q s
  | .qosBufSet q => Sys2Proof.Machine.execQosBufSet q s
  | .qosPfcSet q => Sys2Proof.Machine.execQosPfcSet q s
  | .groupSet q => Sys2Proof.Machine.execGroupSet q s
  | .groupRead q => Sys2Proof.Machine.execGroupRead q s
  | .tapSet q => Sys2Proof.Machine.execTapSet q s
  | .tapRingSet q => Sys2Proof.Machine.execTapRingSet q s
  | .weirGrpRead => Sys2Proof.Machine.execWeirGrpRead s
  | .weirGrpWrite => Sys2Proof.Machine.execWeirGrpWrite s
  | .shaperRefill x => Sys2Proof.Machine.execShaperRefill x s
  | .slotFrameStart t slot => Sys2Proof.Machine.execSlotFrameStart t slot s
  | .launchRelease t => Sys2Proof.Machine.execLaunchRelease t s
  | .launchLate t => Sys2Proof.Machine.execLaunchLate t s
  | .rxWaitExpiry t plot c => Sys2Proof.Machine.execRxWaitExpiry t plot c s
  | .egrSlotSet q => Sys2Proof.Machine.execEgrSlotSet q s
  | .egrClassSet q => Sys2Proof.Machine.execEgrClassSet q s
  | .egrLaunchSet q => Sys2Proof.Machine.execEgrLaunchSet q s
  | .egrRead q => Sys2Proof.Machine.execEgrRead q s
  | .meterSet q => Sys2Proof.Machine.execMeterSet q s
  | .meterRead q => Sys2Proof.Machine.execMeterRead q s
  | .seedMtrWrite q => Sys2Proof.Machine.execSeedMtrWrite q s
  | .seedMtrRead q => Sys2Proof.Machine.execSeedMtrRead q s
  | .hostLinkUp m rate width flit => Sys2Proof.Machine.execHostLinkUp m rate width flit s
  | .hostMemoryRequest m q => Sys2Proof.Machine.execHostMemoryRequest m q s
  | .completionTimeout m tag got => Sys2Proof.Machine.execCompletionTimeout m tag got s
  | .dmaCompletion m tag got e => Sys2Proof.Machine.execDmaCompletion m tag got e s
  | .ctoValueWrite m v => Sys2Proof.Machine.execCtoValueWrite m v s
  | .busMasterEnable m f b => Sys2Proof.Machine.execBusMasterEnable m f b s
  | .d3hotToD0 m f => Sys2Proof.Machine.execD3hotToD0 m f s
  | .flrInitiate m f => Sys2Proof.Machine.execFlrInitiate m f s
  | .flrDone m f => Sys2Proof.Machine.execFlrDone m f s
  | .hotReset m how => Sys2Proof.Machine.execHotReset m how s
  | .perstAssert m => Sys2Proof.Machine.execPerstAssert m s
  | .l1Entry m => Sys2Proof.Machine.execL1Entry m s
  | .l0pNarrow m => Sys2Proof.Machine.execL0pNarrow m s
  | .l0pWiden m => Sys2Proof.Machine.execL0pWiden m s
  | .atsInvalidate m f page => Sys2Proof.Machine.execAtsInvalidate m f page s
  | .ptmRequest m => Sys2Proof.Machine.execPtmRequest m s
  | .ptmResponse m host => Sys2Proof.Machine.execPtmResponse m host s
  | .ptmTimeout m => Sys2Proof.Machine.execPtmTimeout m s
  | .txDb r v => Sys2Proof.Machine.execTxDb r v s
  | .rxDb r v => Sys2Proof.Machine.execRxDb r v s
  | .txcDb r v => Sys2Proof.Machine.execTxcDb r v s
  | .rxcDb r v => Sys2Proof.Machine.execRxcDb r v s
  | .txChainFetch r descs pay => Sys2Proof.Machine.execTxChainFetch r descs pay s
  | .txCompletion r => Sys2Proof.Machine.execTxCompletion r s
  | .rxRingWrite t r posts => Sys2Proof.Machine.execRxRingWrite t r posts s
  | .irqModerationTimeout r rx => Sys2Proof.Machine.execIrqModerationTimeout r rx s
  | .qpCreate x => Sys2Proof.Machine.execQpCreate x s
  | .qpReset x => Sys2Proof.Machine.execQpReset x s
  | .qpDelete x => Sys2Proof.Machine.execQpDelete x s
  | .qtableSet x => Sys2Proof.Machine.execQtableSet x s
  | .plotConfig q => Sys2Proof.Machine.execPlotConfig q s
  | .plotRateSet q => Sys2Proof.Machine.execPlotRateSet q s
  | .plotWindowSet q => Sys2Proof.Machine.execPlotWindowSet q s
  | .plotReset q => Sys2Proof.Machine.execPlotReset q s
  | .plotRemove q => Sys2Proof.Machine.execPlotRemove q s
  | .plotMsgSend q => Sys2Proof.Machine.execPlotMsgSend q s
  | .plotMsgRecv q => Sys2Proof.Machine.execPlotMsgRecv q s
  | .plotStatus q => Sys2Proof.Machine.execPlotStatus q s
  | .plotLogStart q => Sys2Proof.Machine.execPlotLogStart q s
  | .plotLogSync q => Sys2Proof.Machine.execPlotLogSync q s
  | .plotLogStop q => Sys2Proof.Machine.execPlotLogStop q s
  | .plotPause q => Sys2Proof.Machine.execPlotPause q s
  | .plotResume q => Sys2Proof.Machine.execPlotResume q s
  | .plotSave q => Sys2Proof.Machine.execPlotSave q s
  | .plotRestore q buf => Sys2Proof.Machine.execPlotRestore q buf s
  | .plotMbxSend p v => Sys2Proof.Machine.execPlotMbxSend p v s
  | .plotMbxAck p => Sys2Proof.Machine.execPlotMbxAck p s
  | .sourceQualified k d => Sys2Proof.Machine.execSourceQualified k d s
  | .sourceLost k d => Sys2Proof.Machine.execSourceLost k d s
  | .sourceRevert d => Sys2Proof.Machine.execSourceRevert d s
  | .timeLocked => Sys2Proof.Machine.execTimeLocked s
  | .holdoverOut => Sys2Proof.Machine.execHoldoverOut s
  | .timestampCalibration u => Sys2Proof.Machine.execTimestampCalibration u s
  | .ptpMessageRx p x => Sys2Proof.Machine.execPtpMessageRx p x s
  | .ptpMessageTx p k => Sys2Proof.Machine.execPtpMessageTx p k s
  | .ppsOutputEdge n => Sys2Proof.Machine.execPpsOutputEdge n s
  | .todOutputMessage n => Sys2Proof.Machine.execTodOutputMessage n s
  | .ppsInputEdge ix => Sys2Proof.Machine.execPpsInputEdge ix s
  | .todInputMessage ix l => Sys2Proof.Machine.execTodInputMessage ix l s
  | .hostFeedTrip n => Sys2Proof.Machine.execHostFeedTrip n s
  | .timePageEnable m v => Sys2Proof.Machine.execTimePageEnable m v s
  | .timePageWrite m => Sys2Proof.Machine.execTimePageWrite m s
  | .coreTimePageWrite => Sys2Proof.Machine.execCoreTimePageWrite s
  | .timeStatus q => Sys2Proof.Machine.execTimeStatus q s
  | .timeSrcSet q => Sys2Proof.Machine.execTimeSrcSet q s
  | .timeClockSet q => Sys2Proof.Machine.execTimeClockSet q s
  | .timePortSet q => Sys2Proof.Machine.execTimePortSet q s
  | .timeUnicastSet q => Sys2Proof.Machine.execTimeUnicastSet q s
  | .timeSet q => Sys2Proof.Machine.execTimeSet q s
  | .timeTodSet q => Sys2Proof.Machine.execTimeTodSet q s
  | .timeOutSet q => Sys2Proof.Machine.execTimeOutSet q s
  | .timeSynceQl q => Sys2Proof.Machine.execTimeSynceQl q s
  | .timeHoldSet q => Sys2Proof.Machine.execTimeHoldSet q s
  | .timeUtcSet q => Sys2Proof.Machine.execTimeUtcSet q s
  | .timeCalRead q => Sys2Proof.Machine.execTimeCalRead q s
  | .driveLinkUp d cap fits => Sys2Proof.Machine.execDriveLinkUp d cap fits s
  | .driveFailure d how => Sys2Proof.Machine.execDriveFailure d how s
  | .nvmeSqDoorbell p y v => Sys2Proof.Machine.execNvmeSqDoorbell p y v s
  | .nvmeCqDoorbell p y v => Sys2Proof.Machine.execNvmeCqDoorbell p y v s
  | .controllerReset p => Sys2Proof.Machine.execControllerReset p s
  | .shutdownNotification p shn => Sys2Proof.Machine.execShutdownNotification p shn s
  | .nvmeDeleteIoSq p e => Sys2Proof.Machine.execNvmeDeleteIoSq p e s
  | .nvmeDeleteIoCq p e => Sys2Proof.Machine.execNvmeDeleteIoCq p e s
  | .nvmeCreateIoSq p e => Sys2Proof.Machine.execNvmeCreateIoSq p e s
  | .nvmeCreateIoCq p e => Sys2Proof.Machine.execNvmeCreateIoCq p e s
  | .nvmeGetLogPage p e lists => Sys2Proof.Machine.execNvmeGetLogPage p e lists s
  | .nvmeIdentify p e lists => Sys2Proof.Machine.execNvmeIdentify p e lists s
  | .nvmeAbort p e => Sys2Proof.Machine.execNvmeAbort p e s
  | .nvmeSetFeatures p e => Sys2Proof.Machine.execNvmeSetFeatures p e s
  | .nvmeGetFeatures p e => Sys2Proof.Machine.execNvmeGetFeatures p e s
  | .nvmeAsyncEventRequest p e => Sys2Proof.Machine.execNvmeAsyncEventRequest p e s
  | .nvmeFlush p y e => Sys2Proof.Machine.execNvmeFlush p y e s
  | .nvmeWrite p y e lists pay => Sys2Proof.Machine.execNvmeWrite p y e lists pay s
  | .nvmeRead p y e lists => Sys2Proof.Machine.execNvmeRead p y e lists s
  | .nvmeWriteZeroes p y e => Sys2Proof.Machine.execNvmeWriteZeroes p y e s
  | .nvmeDatasetManagement p y e lists pay => Sys2Proof.Machine.execNvmeDatasetManagement p y e lists pay s
  | .reservationGrant pay => Sys2Proof.Machine.execReservationGrant pay s
  | .writeAcknowledge id => Sys2Proof.Machine.execWriteAcknowledge id s
  | .destageExtentDone v x upTo bad => Sys2Proof.Machine.execDestageExtentDone v x upTo bad s
  | .ledgerRecompute a b => Sys2Proof.Machine.execLedgerRecompute a b s
  | .overPersist => Sys2Proof.Machine.execOverPersist s
  | .vaultProbe rate ok => Sys2Proof.Machine.execVaultProbe rate ok s
  | .capacityTestStart => Sys2Proof.Machine.execCapacityTestStart s
  | .capacityTestEnd => Sys2Proof.Machine.execCapacityTestEnd s
  | .capacityTestAbandon => Sys2Proof.Machine.execCapacityTestAbandon s
  | .ledgerRecordWrite => Sys2Proof.Machine.execLedgerRecordWrite s
  | .vaultRestoreChunk ok => Sys2Proof.Machine.execVaultRestoreChunk ok s
  | .conduitDataRx c gen psn lba data => Sys2Proof.Machine.execConduitDataRx c gen psn lba data s
  | .conduitAckRx c gen psn => Sys2Proof.Machine.execConduitAckRx c gen psn s
  | .conduitNakRx c gen => Sys2Proof.Machine.execConduitNakRx c gen s
  | .conduitRto c => Sys2Proof.Machine.execConduitRto c s
  | .conduitRnrRetry c => Sys2Proof.Machine.execConduitRnrRetry c s
  | .poolStatus q => Sys2Proof.Machine.execPoolStatus q s
  | .driveAdmit q => Sys2Proof.Machine.execDriveAdmit q s
  | .driveRetire q => Sys2Proof.Machine.execDriveRetire q s
  | .driveFail q => Sys2Proof.Machine.execDriveFail q s
  | .volCreate q => Sys2Proof.Machine.execVolCreate q s
  | .volDelete q => Sys2Proof.Machine.execVolDelete q s
  | .volAttach q => Sys2Proof.Machine.execVolAttach q s
  | .volDetach q => Sys2Proof.Machine.execVolDetach q s
  | .volStatus q => Sys2Proof.Machine.execVolStatus q s
  | .cistStatus q => Sys2Proof.Machine.execCistStatus q s
  | .cistSet q => Sys2Proof.Machine.execCistSet q s
  | .cistTest q => Sys2Proof.Machine.execCistTest q s
  | .vaultStatus q => Sys2Proof.Machine.execVaultStatus q s
  | .cndConnSet q => Sys2Proof.Machine.execCndConnSet q s
  | .cndStatus q => Sys2Proof.Machine.execCndStatus q s
  | .volResync q => Sys2Proof.Machine.execVolResync q s
  | .reservoirRequest k a wr match_ act ecc u => Sys2Proof.Machine.execReservoirRequest k a wr match_ act ecc u s
  | .refreshDue k pc idle => Sys2Proof.Machine.execRefreshDue k pc idle s
  | .stackTempReading k t => Sys2Proof.Machine.execStackTempReading k t s
  | .patrolScrubStep k ecc u => Sys2Proof.Machine.execPatrolScrubStep k ecc u s
  | .hopReq o v bad => Sys2Proof.Machine.execHopReq o v bad s
  | .hopFree o a => Sys2Proof.Machine.execHopFree o a s
  | .build v => Sys2Proof.Machine.execBuild v s
  | .hopperBuildDone => Sys2Proof.Machine.execHopperBuildDone s
  | .bmvStart who c v => Sys2Proof.Machine.execBmvStart who c v s
  | .bmvAbort who c v => Sys2Proof.Machine.execBmvAbort who c v s
  | .bmvResume who c v => Sys2Proof.Machine.execBmvResume who c v s
  | .bmvBurst e => Sys2Proof.Machine.execBmvBurst e s
  | .bmvRestart => Sys2Proof.Machine.execBmvRestart s
  | .kcuClaim ms => Sys2Proof.Machine.execKcuClaim ms s
  | .kcuRelease m => Sys2Proof.Machine.execKcuRelease m s
  | .kcuStart m => Sys2Proof.Machine.execKcuStart m s
  | .kcuResult m late => Sys2Proof.Machine.execKcuResult m late s
  | .icrSaWrite => Sys2Proof.Machine.execIcrSaWrite s
  | .icrSaRead => Sys2Proof.Machine.execIcrSaRead s
  | .kekLoad q => Sys2Proof.Machine.execKekLoad q s
  | .espSaInstall q => Sys2Proof.Machine.execEspSaInstall q s
  | .espSaDelete q => Sys2Proof.Machine.execEspSaDelete q s
  | .espSaRead q => Sys2Proof.Machine.execEspSaRead q s
  | .macsecSaInstall q => Sys2Proof.Machine.execMacsecSaInstall q s
  | .macsecSaRetire q => Sys2Proof.Machine.execMacsecSaRetire q s
  | .bmvStatus q => Sys2Proof.Machine.execBmvStatus q s
  | .faultMessage n kind addr => Sys2Proof.Machine.execFaultMessage n kind addr s
  | .faultWindowEnd n => Sys2Proof.Machine.execFaultWindowEnd n s
  | .stickyClear k v => Sys2Proof.Machine.execStickyClear k v s
  | .watchdogKick v => Sys2Proof.Machine.execWatchdogKick v s
  | .watchdogExpiry => Sys2Proof.Machine.execWatchdogExpiry s
  | .aliveStart v => Sys2Proof.Machine.execAliveStart v s
  | .aliveToggle => Sys2Proof.Machine.execAliveToggle s
  | .pmcSelectWrite p ix v => Sys2Proof.Machine.execPmcSelectWrite p ix v s
  | .snap v => Sys2Proof.Machine.execSnap v s
  | .snapshotInstant => Sys2Proof.Machine.execSnapshotInstant s
  | .shadowSelect v => Sys2Proof.Machine.execShadowSelect v s
  | .backgroundOverdue a => Sys2Proof.Machine.execBackgroundOverdue a s
  | .backgroundHardBound a => Sys2Proof.Machine.execBackgroundHardBound a s
  | .parityScrubStep x ecc readBack => Sys2Proof.Machine.execParityScrubStep x ecc readBack s
  | .serdesAdaptation => Sys2Proof.Machine.execSerdesAdaptation s
  | .telemetryExport => Sys2Proof.Machine.execTelemetryExport s
  | .faultStatus q => Sys2Proof.Machine.execFaultStatus q s
  | .faultAck q => Sys2Proof.Machine.execFaultAck q s
  | .faultSevSet q => Sys2Proof.Machine.execFaultSevSet q s
  | .faultWindowSet q => Sys2Proof.Machine.execFaultWindowSet q s
  | .faultNotifySet q => Sys2Proof.Machine.execFaultNotifySet q s
  | .faultLogRead q => Sys2Proof.Machine.execFaultLogRead q s
  | .pmcSet q => Sys2Proof.Machine.execPmcSet q s
  | .pmcCtrl q => Sys2Proof.Machine.execPmcCtrl q s
  | .pmcRead q => Sys2Proof.Machine.execPmcRead q s
  | .telemSet q => Sys2Proof.Machine.execTelemSet q s
  | .bgStatus q => Sys2Proof.Machine.execBgStatus q s
  | .firmwareStarted => Sys2Proof.Machine.execFirmwareStarted s
  | .recoveryImage data => Sys2Proof.Machine.execRecoveryImage data s
  | .go v => Sys2Proof.Machine.execGo v s
  | .secStatus q => Sys2Proof.Machine.execSecStatus q s
  | .secChallenge q => Sys2Proof.Machine.execSecChallenge q s
  | .lcAdvance q buf => Sys2Proof.Machine.execLcAdvance q buf s
  | .debugUnlock q buf => Sys2Proof.Machine.execDebugUnlock q buf s
  | .imageWrite q buf => Sys2Proof.Machine.execImageWrite q buf s
  | .imageActivate q => Sys2Proof.Machine.execImageActivate q s
  | .svnCommit q => Sys2Proof.Machine.execSvnCommit q s
  | .measureRead q => Sys2Proof.Machine.execMeasureRead q s
  | .securityResultDue => Sys2Proof.Machine.execSecurityResultDue s
  | .nonceExpiry => Sys2Proof.Machine.execNonceExpiry s
  | .getVersion via => Sys2Proof.Machine.execGetVersion via s
  | .getCapabilities via ver => Sys2Proof.Machine.execGetCapabilities via ver s
  | .negotiateAlgorithms via ver p384 sha384 => Sys2Proof.Machine.execNegotiateAlgorithms via ver p384 sha384 s
  | .getDigests via ver => Sys2Proof.Machine.execGetDigests via ver s
  | .getCertificate via ver slot off len => Sys2Proof.Machine.execGetCertificate via ver slot off len s
  | .challenge via ver slot nonce => Sys2Proof.Machine.execChallenge via ver slot nonce s
  | .getMeasurements via ver index signed nonce => Sys2Proof.Machine.execGetMeasurements via ver index signed nonce s
  | .cisternOkChange level => Sys2Proof.Machine.execCisternOkChange level s
  | .railReading n mv current => Sys2Proof.Machine.execRailReading n mv current s
  | .smbusStuck b freed => Sys2Proof.Machine.execSmbusStuck b freed s
  | .driveLinkDown d => Sys2Proof.Machine.execDriveLinkDown d s
  | .rebuildExtentDone v x => Sys2Proof.Machine.execRebuildExtentDone v x s
  | .driveReadDone id bad => Sys2Proof.Machine.execDriveReadDone id bad s
  | .wearScan => Sys2Proof.Machine.execWearScan s
  | .leapSecond => Sys2Proof.Machine.execLeapSecond s
  | .oscInLost => Sys2Proof.Machine.execOscInLost s
  | .debugPortDisconnect => Sys2Proof.Machine.execDebugPortDisconnect s
  | .hostLinkRateChange m rate width => Sys2Proof.Machine.execHostLinkRateChange m rate width s

end Sys2Proof.Machine
end

