-- ==== Sys2Proof/Machine/Tick.lean ====
section
/-! DEFINITION. What a nanosecond of the local count does by itself, with no command waiting (assumption 3). -/
namespace Sys2Proof.Machine

/-! ### The time word (R324) -/

/-- The time word slews by 1 ns every ⌈10^6 / SLEW⌉ ns. -/
def State.slewTick (s : State) : State :=
  let n := ceilDiv 1000000 (max 1 (s.rd B.TIME R.TIME_SLEW_SLEW))
  if s.tim.slew = 0 || s.now % n ≠ 0 then s
  else
    let d : Int := if s.tim.slew < 0 then -1 else 1
    { s with timeOff := s.timeOff + d, tim := { s.tim with slew := s.tim.slew - d } }

/-! ### Counters of states and levels (R432) -/

/-- A headrace serves an ingress pair: a port's, or a host link's through a live queue pair. -/
def State.pairServes (s : State) (h p : Nat) : Bool :=
  if p < 1024 then (s.portHeadraces (p / 8)).contains h
  else s.qps.any fun e => e.2.live && e.2.bind = h && (s.fnOfPlot (e.1 / 64)).any fun f => f.1 = (p - 1024) / 8

/-- A lane of a headrace is held at the Reservoir budget: the word of its token issues a lookup that the share does not allow yet
(R17). -/
def State.budgetHeld (s : State) (h : Nat) : Bool :=
  (s.pipe h).toks.any fun t =>
    let w := s.word (s.wordAtPc h t)
    t.st = .lane && W.op w = 0x18 && W.lt w = 2 && t.pred (W.psel w) != W.pneg w && !s.due (Tm.rsv h) 2

/-- A state event of Tables 18.5 and 18.6 is high. -/
def State.stateHigh (s : State) (p : Option Nat) (code : Nat) : Bool :=
  match p with
  | none =>
    if code = 3 then s.flag B.PACE R.PACE_FLAGS_CAPPED
    else if code = 4 then s.throttled
    else code = 0xB && s.rd B.FLT R.FLT_BG_OVERDUE_OVERDUE ≠ 0
  | some k =>
    if code = 9 then s.belowLR
    else if k < 16 then
      if code = 5 then s.budgetHeld k
      else if code = 6 then decide (256 < (s.stage k).cells)
      else if code = 8 then s.weir.pairs.any fun e => e.2.xoff && s.pairServes k e.1
      else code = 0xA && !s.flag (B.PIPE k) R.BARRIER_DONE
    else if code = 4 then decide (4096 ≤ s.storeFill (k - 16))
    else code = 8 && (List.range 9).any fun i => s.rd (B.PIPE k + 0x100 * i) R.TLR_SLOT_STATUS_PAUSED ≠ 0

/-- One programmable counter at a 4 ns tick. -/
def State.counterTick (s : State) (p : Option Nat) (i : Nat) : State :=
  let v := (s.reg (pmcSel p i)).toNat
  let c := pmcCnt p i
  if !bitOf v 31 then s
  else
    let high := s.stateHigh p (v % 256)
    let counts := if bitOf v 30 then high || s.flt.high.contains c else high && !s.flt.was.contains c
    let s := if counts then s.countN c 1 else s
    { s with flt := { s.flt with was := if high then c :: s.flt.was.filter (· ≠ c) else s.flt.was.filter (· ≠ c) } }

/-- The 4 ns tick of every programmable counter. -/
def State.countersTick (s : State) : State :=
  let s := (List.range 32).foldl (fun (s : State) k => (List.range 8).foldl (fun (s : State) i => s.counterTick (some k) i) s) s
  let s := (List.range 16).foldl (fun (s : State) i => s.counterTick none i) s
  { s with flt := { s.flt with high := [] } }

/-- The snapshot instant: every counter copies into its shadow as the local count reaches T (R433). -/
def State.snapTick (s : State) : State := if s.flt.snapT = some s.now then s.takeShadows s.now else s

/-! ### The firmware at the fault message queue (R423, R427) -/

/-- The firmware's own action on a message, where Table 18.2 gives one that no command stands for, and its
acknowledgement: it rewrites the graph entry that the message names, and the words of the pipeline that fail their check, which no
message names (R141, R165). -/
def State.actOn (s : State) (m : FaultMsg) : State :=
  let n := m.src
  if n = 29 then s.ackRouted 29
  else if 32 ≤ n && n < 96 && n % 4 = 0 then
    (s.setUpset (graphKey ((n - 32) / 4) m.addr) 0).ackRouted n
  else if 32 ≤ n && n < 160 && n % 4 = 1 then
    { s with upsets := tdrop (inRange (upsetWord (wordKey ((n - 32) / 4) 0 0 0)) (2 ^ 18)) s.upsets }.ackRouted n
  else s

/-- The firmware takes the oldest message into its log of 4,096. -/
def State.firmwareTakes (s : State) : State :=
  match s.flt.msgq with
  | [] => s
  | m :: rest =>
    let l := s.flt.log ++ [(m, s.timeWord)]
    { s with flt := { s.flt with msgq := rest, log := l.drop (l.length - 4096), nextSeq := s.flt.nextSeq + 1 } }.actOn m

/-! ### The nanosecond -/

/-- POWER_FAIL_N rises once its low time has passed, with MAIN_PG high (R455). -/
def State.powerFailTick (s : State) : State :=
  if !s.flag B.PWR R.PWR_PINS_POWER_FAIL_N && s.flag B.PWR R.PWR_PINS_MAIN_PG && decide (s.modes.pfLowUntil ≤ s.now) then
    s.wrB B.PWR R.PWR_PINS_POWER_FAIL_N true
  else s

/-- One nanosecond of the local count. Without OSC_IN nothing runs (Table 20.6). -/
def State.tick (s : State) : State :=
  if s.oscLost then s
  else
    let s := { s with now := s.now + 1 }.slewTick.snapTick.powerFailTick.otpRun.secDue
    let s := if s.modes.lkRunning then s.firmwareTakes else s
    if s.now % 4 = 0 then s.countersTick else s

end Sys2Proof.Machine
end

