-- ==== Sys2Proof/WellFormed.lean ====
section
/-! DEFINITION. Which commands are well formed: operands within the widths that the spec gives them. The meanings answer
on ill-formed commands too; a sender does not make one. -/
namespace Sys2Proof

/-- A number fits in w bits. -/
def fits (w n : Nat) : Bool := decide (n < 2 ^ w)

/-- A function number of a link (R253). -/
def fnWf (f : Nat) : Bool := decide (f < 512)

/-- A width that a host link trains to (R252). -/
def linkWidth (n : Nat) : Bool := [1, 2, 4, 8, 16].contains n

/-- An access is of 8, 16, 32 or 64 bits, and its value fits them (Table 3.1). -/
def accessWf (size : Nat) (v : DWord) : Bool := [8, 16, 32, 64].contains size && fits size v.toNat

def Master.wf : Master → Bool
  | .host _ fn => fnWf fn
  | .lk | .silo | .core _ | .debug => true

def Addr.wf : Addr → Bool
  | .internal a => fits 32 a
  | .pf0 _ off | .vf _ off => fits 32 off
  | .core _ pa => fits 48 pa

def CfgField.wf : CfgField → Bool
  | .numVFs n => fits 16 n
  | .aerStatus n => fits 48 n
  | .mps _ | .mrrs _ | .mse _ | .msixEn _ | .msixMask _ | .vfEnable _ | .d3hot | .ptmEn _ | .aspmL1 _ | .l0pEn _ | .ats _ => true

def CfgFact.wf : CfgFact → Bool
  | .barSize n => decide (n < 6)
  | .cap n => fits 12 n
  | .ids | .classCode | .subsystem | .totalVFs | .initialVFs | .numVFs | .vfEnable | .firstVF | .vfStride | .pageSizes | .vfDevice
  | .msixSize | .mse | .bme | .d3hot | .mps | .mrrs | .ctoField | .aer | .serial => true

def HostReq.wf : HostReq → Bool
  | .read fn bar off len => fnWf fn && decide (bar < 6) && fits 64 off && decide (1 ≤ len) && decide (len ≤ 4096)
  | .write fn bar off data _ => fnWf fn && decide (bar < 6) && fits 64 off && decide (1 ≤ data.length) && decide (data.length ≤ 4096)
  | .noBar fn => fnWf fn
  | .cfgRead fn x => fnWf fn && x.wf
  | .cfgWrite fn x => fnWf fn && x.wf
  | .io | .atomic | .deferrable | .vdm _ _ | .broken _ => true

def Instr.wf : Instr → Bool
  | .registerWrite who a size v => who.wf && a.wf && accessWf size v
  | .aliasSetWrite who a size v => who.wf && a.wf && accessWf size v
  | .aliasClearWrite who a size v => who.wf && a.wf && accessWf size v
  | .aliasToggleWrite who a size v => who.wf && a.wf && accessWf size v
  | .slowAccessCrossed who => who.wf
  | .slowAccessTimeout who => who.wf
  | .coreBusAccess _ pa len wr => fits 48 pa && decide (1 ≤ len) && wr.all (fun l => decide (l.length = len))
  | .paceMeterUpdate readings => readings.all (fun r => fits 16 r.2)
  | .tjReading sensors => decide (sensors.length = 32)
  | .progressHeader _ progress => decide (progress ≤ 100)
  | .functionReady _ f => fnWf f
  | .frameReceive _ data _ _ => fits 16 data.length
  | .moduleInserted _ watts => fits 8 watts
  | .packetParse _ gen _ => gen.all (fun l => fits 16 l.length)
  | .hostLinkUp _ _ width _ => linkWidth width
  | .hostMemoryRequest _ q => q.wf
  | .completionTimeout _ tag _ => fits 14 tag
  | .dmaCompletion _ tag _ _ => fits 14 tag
  | .busMasterEnable _ f _ => fnWf f
  | .d3hotToD0 _ f => fnWf f
  | .flrInitiate _ f => fnWf f
  | .flrDone _ f => fnWf f
  | .atsInvalidate _ f page => fnWf f && fits 52 page
  | .ptmResponse _ host => fits 64 host
  | .todInputMessage _ l => fits 8 l.length
  | .nvmeSqDoorbell _ y _ => fits 16 y
  | .nvmeCqDoorbell _ y _ => fits 16 y
  | .nvmeFlush _ y _ => fits 16 y
  | .nvmeWrite _ y _ _ _ => fits 16 y
  | .nvmeRead _ y _ _ => fits 16 y
  | .nvmeWriteZeroes _ y _ => fits 16 y
  | .nvmeDatasetManagement _ y _ _ _ => fits 16 y
  | .ledgerRecompute a b => fits 16 a && fits 16 b
  | .conduitDataRx _ gen psn _ _ => fits 16 gen && fits 32 psn
  | .conduitAckRx _ gen psn => fits 16 gen && fits 32 psn
  | .conduitNakRx _ gen => fits 16 gen
  | .reservoirRequest _ a wr _ _ _ _ => decide (a < 24 * 2 ^ 30) && wr.all (fun l => decide (l.length = 64))
  | .hopFree _ a => fits 48 a
  | .kcuClaim ms => decide ms.Nodup
  | .getCapabilities _ ver => fits 8 ver
  | .negotiateAlgorithms _ ver _ _ => fits 8 ver
  | .getDigests _ ver => fits 8 ver
  | .getCertificate _ ver slot off len => fits 8 ver && fits 8 slot && fits 16 off && fits 16 len
  | .challenge _ ver slot nonce => fits 8 ver && fits 8 slot && decide (nonce.length = 32)
  | .getMeasurements _ ver index _ nonce => fits 8 ver && fits 8 index && decide (nonce.length = 32)
  | .hostLinkRateChange _ _ width => linkWidth width
  | .wideSelWrite .. | .wideLatchDone .. | .paceVlimitWrite .. | .lockBitWrite .. | .paceMeterCalibration ..
    | .paceCalibrationDone .. | .governorLoopStep .. | .avsCommandUnacknowledged | .avsResend .. | .powerReading ..
    | .domainPowerGood .. | .mailboxDoorbell .. | .resbaseWrite .. | .oldCommandSettled .. | .coreMailboxDoorbell ..
    | .devIdentify .. | .devCaps .. | .devEcho .. | .devCmdStatus .. | .devRegRead .. | .devRegWrite ..
    | .devHealth .. | .modeGet .. | .modeSet .. | .warmReset .. | .domainSet .. | .govSet .. | .trickleUplinks ..
    | .pipeReset .. | .healthCheck .. | .primingEntry | .primingStepDone .. | .primingStepTimeout ..
    | .primingComplete | .deviceWarmReset .. | .coldReset .. | .sysResetLow | .powerFail .. | .vaultChunkWritten ..
    | .drainComplete | .flushLate | .mainPgRise | .perstRelease .. | .pauseExpiry .. | .pfcRepeat .. | .linkDown ..
    | .linkUp .. | .laneSignalLoss .. | .moduleRemoved .. | .moduleOvercurrent .. | .moduleI2cStuck ..
    | .longReachSwitch .. | .huskMemWrite .. | .huskMemRead .. | .nop .. | .mov .. | .add .. | .sub .. | .and ..
    | .or .. | .xor .. | .shl .. | .shr .. | .ceq .. | .cne .. | .clt .. | .cge .. | .tstm .. | .br .. | .hash ..
    | .wread .. | .lookup .. | .update .. | .meter .. | .count .. | .learn .. | .lookupResponse ..
    | .tokenExitHeadrace .. | .tokenExitTailrace .. | .barrierReq .. | .barrierDone .. | .abortReq ..
    | .pipelineWatchdog .. | .mcWrite .. | .mcRead .. | .edWrite .. | .edRead .. | .flip .. | .bankFlip ..
    | .pipelineDrained .. | .mcStage .. | .mcFlip .. | .mcStatus .. | .countRead .. | .seedCntRead ..
    | .seedCntReadClear .. | .tblSeedInsert .. | .tblSeedDelete .. | .tblSeedRead .. | .tblSeedBatch ..
    | .tblSeedFlush .. | .tblSieveWrite .. | .tblSieveClear .. | .tblSieveRead .. | .tblSieveProfile ..
    | .tblRsvCreate .. | .tblRsvDestroy .. | .tblRsvInsert .. | .tblRsvDelete .. | .tblRsvRead .. | .tblRsvBatch ..
    | .tblStatus .. | .tblAgeCfg .. | .learnNotice .. | .missNotice .. | .ageNotice .. | .remoteHitNotice ..
    | .parityNotice .. | .sweeperVisit .. | .learnFilterExpire .. | .rsvIdleSweep .. | .tableCopyLoaded ..
    | .seedEntWrite .. | .seedEntRead .. | .sievEntWrite .. | .sievEntClear .. | .sievEntRead .. | .weirSlot
    | .congestionAverageUpdate | .spillOut .. | .spillBack .. | .groupEpochRelease .. | .qosTcSet .. | .qosRedSet ..
    | .qosBufSet .. | .qosPfcSet .. | .groupSet .. | .groupRead .. | .tapSet .. | .tapRingSet .. | .weirGrpRead
    | .weirGrpWrite | .shaperRefill .. | .slotFrameStart .. | .launchRelease .. | .launchLate .. | .rxWaitExpiry ..
    | .egrSlotSet .. | .egrClassSet .. | .egrLaunchSet .. | .egrRead .. | .meterSet .. | .meterRead ..
    | .seedMtrWrite .. | .seedMtrRead .. | .ctoValueWrite .. | .hotReset .. | .perstAssert .. | .l1Entry ..
    | .l0pNarrow .. | .l0pWiden .. | .ptmRequest .. | .ptmTimeout .. | .txDb .. | .rxDb .. | .txcDb .. | .rxcDb ..
    | .txChainFetch .. | .txCompletion .. | .rxRingWrite .. | .irqModerationTimeout .. | .qpCreate .. | .qpReset ..
    | .qpDelete .. | .qtableSet .. | .plotConfig .. | .plotRateSet .. | .plotWindowSet .. | .plotReset ..
    | .plotRemove .. | .plotMsgSend .. | .plotMsgRecv .. | .plotStatus .. | .plotLogStart .. | .plotLogSync ..
    | .plotLogStop .. | .plotPause .. | .plotResume .. | .plotSave .. | .plotRestore .. | .plotMbxSend ..
    | .plotMbxAck .. | .sourceQualified .. | .sourceLost .. | .sourceRevert .. | .timeLocked | .holdoverOut
    | .timestampCalibration .. | .ptpMessageRx .. | .ptpMessageTx .. | .ppsOutputEdge .. | .todOutputMessage ..
    | .ppsInputEdge .. | .hostFeedTrip .. | .timePageEnable .. | .timePageWrite .. | .coreTimePageWrite
    | .timeStatus .. | .timeSrcSet .. | .timeClockSet .. | .timePortSet .. | .timeUnicastSet .. | .timeSet ..
    | .timeTodSet .. | .timeOutSet .. | .timeSynceQl .. | .timeHoldSet .. | .timeUtcSet .. | .timeCalRead ..
    | .driveLinkUp .. | .driveFailure .. | .controllerReset .. | .shutdownNotification .. | .nvmeDeleteIoSq ..
    | .nvmeDeleteIoCq .. | .nvmeCreateIoSq .. | .nvmeCreateIoCq .. | .nvmeGetLogPage .. | .nvmeIdentify ..
    | .nvmeAbort .. | .nvmeSetFeatures .. | .nvmeGetFeatures .. | .nvmeAsyncEventRequest .. | .reservationGrant ..
    | .writeAcknowledge .. | .destageExtentDone .. | .overPersist | .vaultProbe .. | .capacityTestStart
    | .capacityTestEnd | .capacityTestAbandon | .ledgerRecordWrite | .vaultRestoreChunk .. | .conduitRto ..
    | .conduitRnrRetry .. | .poolStatus .. | .driveAdmit .. | .driveRetire .. | .driveFail .. | .volCreate ..
    | .volDelete .. | .volAttach .. | .volDetach .. | .volStatus .. | .cistStatus .. | .cistSet .. | .cistTest ..
    | .vaultStatus .. | .cndConnSet .. | .cndStatus .. | .volResync .. | .refreshDue .. | .stackTempReading ..
    | .patrolScrubStep .. | .hopReq .. | .build .. | .hopperBuildDone | .bmvStart .. | .bmvAbort .. | .bmvResume ..
    | .bmvBurst .. | .bmvRestart | .kcuRelease .. | .kcuStart .. | .kcuResult .. | .icrSaWrite | .icrSaRead
    | .kekLoad .. | .espSaInstall .. | .espSaDelete .. | .espSaRead .. | .macsecSaInstall .. | .macsecSaRetire ..
    | .bmvStatus .. | .faultMessage .. | .faultWindowEnd .. | .stickyClear .. | .watchdogKick .. | .watchdogExpiry
    | .aliveStart .. | .aliveToggle | .pmcSelectWrite .. | .snap .. | .snapshotInstant | .shadowSelect ..
    | .backgroundOverdue .. | .backgroundHardBound .. | .parityScrubStep .. | .serdesAdaptation | .telemetryExport
    | .faultStatus .. | .faultAck .. | .faultSevSet .. | .faultWindowSet .. | .faultNotifySet .. | .faultLogRead ..
    | .pmcSet .. | .pmcCtrl .. | .pmcRead .. | .telemSet .. | .bgStatus .. | .firmwareStarted | .recoveryImage ..
    | .go .. | .secStatus .. | .secChallenge .. | .lcAdvance .. | .debugUnlock .. | .imageWrite .. | .imageActivate ..
    | .svnCommit .. | .measureRead .. | .securityResultDue | .nonceExpiry | .getVersion .. | .cisternOkChange ..
    | .railReading .. | .smbusStuck .. | .driveLinkDown .. | .rebuildExtentDone .. | .driveReadDone .. | .wearScan
    | .leapSecond | .oscInLost | .debugPortDisconnect => true

end Sys2Proof
end

