-- ==== Sys2Proof/Safety.lean ====
section
/-! DEFINITION. What counts as a good state and as the end of a command, in the terms that statements use. -/
namespace Sys2Proof.Machine

/-- Canonical form of the byte memory: addresses strictly rising, no byte equal to what an unlisted address reads as. -/
abbrev Memory.wf (m : List Host.Cell) : Bool := memWf m

/-- The register file, the counters and the byte memory are in canonical form. -/
def State.canonical (s : State) : Bool :=
  twf regReset s.regs && twf (fun _ => 0) s.cnts && Memory.wf s.mem

/-- Every command that waits is well formed. -/
def State.queueWf (s : State) : Bool := s.pending.all Instr.wf

/-- A command answers a next state, of which `P` holds. -/
abbrev Gives (c : Instr) (s : State) (P : State → Prop) : Prop := ∃ t, exec c s = .next t ∧ P t

/-- A fault of source n takes no Drain: neither its severity is Latched, nor is the message queue full with source 28 at that
severity (R423). -/
abbrev State.mild (s : State) (n : Nat) : Prop := s.sev n ≠ 4 ∧ (s.sev 28 ≠ 4 ∨ s.flt.msgq.length ≤ 240)

/-- Nothing of a transition is under way: the device is in a mode, with no trigger that waits and no forced Trickle. -/
abbrev State.settledMode (s : State) : Prop := s.busy = false ∧ s.modes.waiting = [] ∧ s.modes.forced = false

/-- Tag q holds the accepted command c, of opcode o, no job carries it on, and it is its turn to start (R71): what the row of a
mailbox command acts on. -/
abbrev State.holds (s : State) (q : Req) (o : Nat) (c : Cmd) : Prop :=
  (s.tag q).cur = some c ∧ c.opcode = o ∧ s.jobs.all (fun j => !(j.q = q && j.mgen = c.mgen)) = true ∧ s.inTurn q c = true

/-- Registers and bytes where a result of tag q, or a message to a host, leaves its traces: the mailbox's in-flight bits and
HPT_LINK of the link, the pending array of PF0; of a core, its result slot (R67, R79). -/
abbrev resultReg (q : Req) (a : Nat) : Prop :=
  match q with
  | .host m _ => a = B.LKP m + R.LKP_HMB_INFLIGHT_TAGS.off ∨ a = B.HPT m + R.HPT_LINK_PM.off
  | .core _ => False
abbrev resultByte (q : Req) (a : Nat) : Prop :=
  match q with
  | .host m _ => B.MSIX m 0 + 0xC000 ≤ a ∧ a < B.MSIX m 0 + 0x1_0000
  | .core n => B.CMB n + 0x100 ≤ a ∧ a < B.CMB n + 0x200

/-- State t is state s but for what the result of the command on tag q changes: the tag, what was sent, the link and
function that it went to, and the registers and bytes above. -/
structure State.resultOnly (s t : State) (q : Req) : Prop where
  rest : t = { s with tags := t.tags, regs := t.regs, out := t.out, links := t.links, fns := t.fns, mem := t.mem }
  tags : ∀ r, r ≠ q → t.tag r = s.tag r
  regs : ∀ a, ¬ resultReg q a → t.reg a = s.reg a
  mem : ∀ a, ¬ resultByte q a → byteAt t.mem a = byteAt s.mem a

/-- The command on tag q has ended in t with a status and data, and t is s but for the result's traces. -/
structure Ends (q : Req) (status : Nat) (data : List Byte) (s t : State) : Prop where
  free : (t.tag q).cur = none
  final : (t.tag q).fin.map (fun f => (f.status, f.data)) = some (status, data)
  rest : s.resultOnly t q

/-- State u is state s but for the registers at the addresses listed. -/
abbrev Wrote (s u : State) (l : List Nat) : Prop := u = { s with regs := u.regs } ∧ ∀ a, a ∉ l → u.reg a = s.reg a

/-- A buffer of a command of PF0 can be read: Bus Master Enable is 1, and it lies in a window (R72, R259, R261). -/
abbrev State.canFetch (s : State) (m : Link) (addr len : Nat) : Prop :=
  (s.fn m 0).bme = true ∧ (len = 0 ∨ s.windowOk (s.plotBase m) addr len false = true)

/-- A buffer of a command of PF0 has been read, as its operand says. -/
def State.fetched (s : State) (m : Link) (addr len : Nat) (b : Fetch) : State := (s.issueRead m 0 addr len).logDma m (fetchEnd b)

/-- The command on tag q reads l from its buffer, and the state is then v: a host's is fetched, a core's lies in memory that it
reaches (R72, R207). -/
def State.bufGives (s : State) (q : Req) (addr len : Nat) (b : Fetch) (l : List Byte) (v : State) : Prop :=
  match q with
  | .host m _ => s.canFetch m addr len ∧ v = s.fetched m addr len b ∧ ∃ d, b = .ok d ∧ l = fit len d
  | .core n => v = s ∧ ∃ x, s.coreMemory n addr len = some x ∧ l = bytesAt s.mem x.1 len

/-- It cannot read its buffer, and the state is then v: a host's lies outside PF0's windows, or its fetch fails; a core's lies where
it has no memory. -/
def State.bufFails (s : State) (q : Req) (addr len : Nat) (b : Fetch) (v : State) : Prop :=
  match q with
  | .host m _ => (s.fn m 0).bme = true ∧
      (len ≠ 0 ∧ s.windowOk (s.plotBase m) addr len false = false ∧ v = s.windowErr (s.plotBase m) ∨
        (len = 0 ∨ s.windowOk (s.plotBase m) addr len false = true) ∧ (∀ d, b ≠ .ok d) ∧ v = s.fetched m addr len b)
  | .core n => s.coreMemory n addr len = none ∧ v = s

/-- Its buffer cannot be fetched while Bus Master Enable of PF0 is 0. -/
def State.bufWaits (s : State) (q : Req) : Prop :=
  match q with
  | .host m _ => (s.fn m 0).bme = false
  | .core _ => False

/-- In u a frame that came in on port p, with or without an error mark, has been counted in counter c, and by FEC (R113, R115). -/
structure FrameCounted (s u : State) (p : Nat) (err : Bool) (c : Nat) : Prop where
  rest : u = { s with cnts := u.cnts, freeCtr := u.freeCtr }
  cnt : u.cnt (portCnt p c) = (s.cnt (portCnt p c) + 1) % 2 ^ 64
  others : ∀ a, a ≠ portCnt p c → a ≠ portCnt p C.ETH_FEC_CORR_CW → (err = true → a ≠ portCnt p C.ETH_FEC_UNCORR_CW) → u.cnt a = s.cnt a

/-! ### Frames that leave a tailrace -/

/-- A shaper's credit after a frame of L bytes: less 1,024 × (L + OVERHEAD) where the shaper is in force (R238). -/
def EgrSt.charged (x : EgrSt) (key len : Nat) : Int :=
  match tget (fun _ => none) x.force key with
  | none => tget (fun _ => 0) x.credit key
  | some o => tget (fun _ => 0) x.credit key - 1024 * ((len : Int) + o)

/-- In u, slot k of tailrace t has started packet p, of L bytes, of its queues x in s: counted, its class, slot and plot
charged, and sent on its port, which is busy until its last byte has left, or handed to its receive ring. -/
structure Started (s u : State) (t k : Nat) (x : EgrSt) (p : EPkt) (len : Nat) : Prop where
  q : (u.egress t).q = x.q.erase p
  pkts : u.cnt (B.TLR t + 0x10 * (8 * k + p.cls) + C.TLR_TX_PKTS) =
    (s.cnt (B.TLR t + 0x10 * (8 * k + p.cls) + C.TLR_TX_PKTS) + 1) % 2 ^ 64
  octets : u.cnt (B.TLR t + 0x10 * (8 * k + p.cls) + C.TLR_TX_OCTETS) =
    (s.cnt (B.TLR t + 0x10 * (8 * k + p.cls) + C.TLR_TX_OCTETS) + len) % 2 ^ 64
  credit : ∀ key, tget (fun _ => (0 : Int)) (u.egress t).credit key =
    if key = slotShpKey k ∨ key = classKey k p.cls ∨ k = 8 ∧ key = plotShpKey p.plot then x.charged key len
    else tget (fun _ => 0) x.credit key
  sent : k < 8 → ∃ n, u.out = s.out ++
    [.frame (slotPort s t k) (padBody p.pkt.data ++ leBytes 4 (fcs (padBody p.pkt.data))) n]
  handed : 8 ≤ k → (u.egress t).deliver = x.deliver ++ [p] ∧ u.out = s.out
  busy : k < 8 →
    let port := slotPort s t k
    let n := s.sentBy port ((padBody p.pkt.data).length + 4)
    tget (fun _ => 0) u.eth.txEnd port = n ∧ tget (fun _ => 0) u.eth.lastTail port = t + 1 ∧ (port, n, p.cells) ∈ (u.egress t).leaving

/-- The packet is started, or dropped where it is longer than MAX_FRAME of its port (R114). -/
def State.leaves (s u : State) (t k : Nat) (x : EgrSt) (p : EPkt) (len : Nat) : Prop :=
  if k < 8 ∧ s.rd (portBase (slotPort s t k)) R.ETH_PORT_CFG_MAX_FRAME < len then
    (u.egress t).q = x.q.erase p ∧ u.out = s.out ∧ u.cnt (portCnt (slotPort s t k) C.ETH_TX_OVERSIZE) =
      (s.cnt (portCnt (slotPort s t k) C.ETH_TX_OVERSIZE) + 1) % 2 ^ 64
  else Started s u t k x p len

/-! ### Requests on the links (R260) -/

/-- A posted write, and a read, in the requests that R260 makes of it. -/
def State.writeOuts (s : State) (m f addr : Nat) (d : List Byte) : List Out :=
  (pieces (s.maxPayload m) d.length addr d.length).map fun x => .write m f x.1 ((d.drop (x.1 - addr)).take x.2)
def State.readOuts (s : State) (m f addr len : Nat) : List Out := (pieces (s.maxRead m) len addr len).map fun x => .read m f x.1 x.2

/-! ### Channel rings -/

/-- The reads of the descriptors of a ring's next fetch, and those of a chain's payload; a core ring makes none. -/
def State.descOuts (s : State) (r : Nat) : List Out :=
  let x := s.qp r
  let i := x.txCons % 2 ^ x.txLog
  let n := min 32 ((x.txProd + 2 ^ 32 - x.txCons) % 2 ^ 32)
  match s.ringFn r with
  | none => []
  | some (m, f) => s.readOuts m f (x.txBase + 32 * i) (32 * min n (2 ^ x.txLog - i)) ++ s.readOuts m f x.txBase (32 * (n - min n (2 ^ x.txLog - i)))
def State.payOuts (s : State) (r : Nat) (ds : List Nat) : List Out :=
  match s.ringFn r with
  | none => []
  | some (m, f) => ds.flatMap fun d => s.readOuts m f (Desc.addr d) (Desc.len d)

/-- The posts of a receive ring that a packet finds: in core memory, or as their read answers. -/
def State.postsFound (s : State) (r : Nat) (posts : Fetch) : Option (List (Nat × Nat)) :=
  let x := s.qp r
  if isCoreRing r then some ((List.range (min x.posts 32)).map fun i =>
    match s.coreMemory 0 (x.rxBase + 16 * ((x.rxCons + i) % 2 ^ x.rxLog)) 16 with
    | some (k, _) => (leNat (bytesAt s.mem k 8), bitsOf (leNat (bytesAt s.mem (k + 8) 4)) 16 0)
    | none => (0, 0))
  else match posts with
    | .ok b => some (postsOf (min x.posts 32) b)
    | .ur | .window | .timeout | .poisoned => none

/-- The function that ring r belongs to may post writes and messages: always for a core ring; for a plot, its link is up,
Bus Master Enable is 1 and no FLR is under way; and no dirty pages are logged. -/
def State.ringPosts (s : State) (r : Nat) : Bool :=
  isCoreRing r || match s.fnOfPlot (r / 64) with
    | some (m, f) => s.linkUp m && (s.fn m f).bme && (s.fn m f).flrAt.isNone && !s.flag (B.PLOT (r / 64)) R.PLOT_LOG_CTRL_LOGGING
    | none => false

/-- What the function of ring r posts for its vector: MSI-X where the vector may send, or a core's interrupt (R297, R300). -/
def State.ringMsg (s : State) (r : Nat) (rx : Bool) : List Out :=
  if isCoreRing r then [.ringIrq (r - 2 ^ 20)]
  else match s.fnOfPlot (r / 64) with
    | some (m, f) => if s.vecOpen m f (s.irqOf r rx).1 then [.msix m f (s.irqOf r rx).1] else []
    | none => []

/-- The message conditions of R297 hold for a completion ring as it stands in y. -/
def State.irqDue (s : State) (r : Nat) (rx : Bool) (y : CplRing) : Bool :=
  y.armed && decide (1 ≤ y.n) && (decide ((s.irqOf r rx).2.1 ≤ y.n) || decide (us (s.irqOf r rx).2.2 ≤ s.now - y.oldest))

/-- In u the side of ring r is y, and its message has been sent where it is due, which clears the armed flag and N. -/
structure SideIs (s u : State) (r : Nat) (rx : Bool) (y : CplRing) (before : List Out) : Prop where
  side : (u.qp r).side rx = if s.irqDue r rx y then { y with armed := false, n := 0 } else y
  out : s.ringPosts r = true → u.out = s.out ++ before ++ (if s.irqDue r rx y then s.ringMsg r rx else [])

/-- A completion ring after one more completion. -/
def CplRing.wrote (y : CplRing) (now : Nat) : CplRing :=
  { y with prod := (y.prod + 1) % 2 ^ 32, n := y.n + 1, times := y.times ++ [now] }

/-- Data posted for a ring: a posted write of the plot's function, nothing on the links for a core ring. -/
def State.ringOut (s : State) (r addr : Nat) (d : List Byte) : List Out :=
  match s.ringFn r with
  | some (m, f) => s.writeOuts m f addr d
  | none => []

/-- A packet's data over the posts given, in order (R292). -/
def State.postOuts (s : State) (r : Nat) : List (Nat × Nat) → List Byte → List Out
  | [], _ => []
  | q :: qs, l => s.ringOut r q.1 (l.take q.2) ++ s.postOuts r qs (l.drop q.2)

/-! ### Plots -/

/-- Command c on tag q names plot p, which it may act on: not FREE, not being reset, held by no long command. -/
structure State.serves (s : State) (q : Req) (c : Cmd) (p : Nat) : Prop where
  names : s.localPlot q (c.u16 8) = .ok p
  here : s.plotState p ≠ 0
  steady : s.plotState p ≠ 3
  idle : s.held plotJobs p = false

/-- A queue operation of number op and argument block l reaches plot p by the tenant's or by the manager's path. -/
def State.asksQueue (s : State) (x : QpPath) (op p : Nat) (l : List Byte) : Prop :=
  match x with
  | .tenant p' => p = p'.val ∧ l = s.tqArgs p ∧ ∃ m f, s.fnOfPlot p = some (m, f) ∧ f ≠ 0 ∧ s.linkUp m = true ∧ s.answers m f = true ∧
      s.waitingOf (.host (Fin.ofNat 16 m) f) = []
  | .manager q => ∃ c, s.holds q 0x0203 c ∧ s.serves q c p ∧ c.u8 10 = op ∧ l = c.bytes 16 64

/-- The queue operation ends with a status: in TQ_STATUS, or in the manager's result data (R306). -/
def QueueEnds (x : QpPath) (st : Nat) (s t : State) : Prop :=
  match x with
  | .tenant p => t = { s with reply := .ok, regs := t.regs } ∧ t.rd (B.VF p) R.PLOT_TQ_STATUS_STATUS = st ∧
      ∀ a, a ≠ B.VF p + R.PLOT_TQ_STATUS_STATUS.off → t.reg a = s.reg a
  | .manager q => Ends q St.DONE (leBytes 2 st) s t

/-- A queue pair keeps what it had at its start: counts 0, no work, no error (R306). -/
def Qp.restarted (x : Qp) : Qp :=
  { x with txProd := 0, rxProd := 0, txCons := 0, rxCons := 0, err := 0, heldDb := [], chains := [],
           txc := { CplRing.init with base := x.txc.base, armed := x.txc.armed },
           rxc := { CplRing.init with base := x.rxc.base, armed := x.rxc.armed } }

/-- The running state of a plot is cleared and its generation has advanced (R302, R311, R313, Table 11.7). -/
structure PlotCleared (s u : State) (p m f : Nat) : Prop where
  gen : u.plotGen p = nextXgen (s.plotGen p)
  pairs : ∀ q, q < 64 → u.qp (qpKey p q) = Qp.init
  others : ∀ k, k < 2 ^ 20 → k / 64 ≠ p → u.qp k = s.qp k
  table : ∀ h, u.rxQueue p 0xFF h = 0
  ready : u.rd (B.VF p) R.PLOT_STATE_STATE = 1
  box : (u.plot p).txMsg = none ∧ u.flag (B.VF p) R.PLOT_MBX_STATUS_TX_BUSY = false ∧
    u.flag (B.VF p) R.PLOT_MBX_STATUS_RX_FULL = false
  reads : (u.link m).outstanding = (s.link m).outstanding.filter (·.fn ≠ f)

/-! ### The bulk mover -/

/-- Channel c has ended in u with STATE st (R408): RESIDUE and HALT follow, the record of 16 bytes is written where one is
asked for, the owner core is interrupted, and no other channel changes. -/
structure ChEnded (s u : State) (c st : Nat) : Prop where
  state : u.chState c = st
  residue : u.rd (chBase c) R.BMV_CH_RESIDUE_RESIDUE = s.chLen c - (s.ch c).done
  halt : ∀ j, j < 32 → bitOf (u.rd B.BMV R.BMV_HALT_HALT) j = (j ≠ c && bitOf (s.rd B.BMV R.BMV_HALT_HALT) j)
  ch : u.ch c = { s.ch c with abort := false }
  others : ∀ j, j < 32 → j ≠ c → u.ch j = s.ch j ∧ u.chState j = s.chState j
  aborts : s.flag B.PMC R.PMC_CTRL_FREEZE = false →
    u.cnt (B.BMV + C.BMV_ABORTS) = if st = 3 then (s.cnt (B.BMV + C.BMV_ABORTS) + 1) % 2 ^ 64 else s.cnt (B.BMV + C.BMV_ABORTS)
  failed : s.flag B.PMC R.PMC_CTRL_FREEZE = false →
    u.cnt (B.BMV + C.BMV_FAILED) = if st = 5 then (s.cnt (B.BMV + C.BMV_FAILED) + 1) % 2 ^ 64 else s.cnt (B.BMV + C.BMV_FAILED)
  record :
    let o := (s.chOwner c).getD 0
    let l := leBytes 4 (s.chLen c - (s.ch c).done) ++ [BitVec.ofNat 8 st, BitVec.ofNat 8 c, 0, 0] ++ leBytes 8 s.timeWord
    let w := if s.chStat c ≠ 0 ∧ s.spaceOk o (s.chTo c) (s.chStat c) 16 true = true then s.spaceWrite (s.chTo c) (s.chStat c) l else s
    u.mem = w.mem ∧
      u.out = w.out ++ if s.flag (chBase c) R.BMV_CH_CTRL_IRQ_EN = true ∧ 2 ≤ o then [.coreIrq (o - 2)] else []
  rest : u = { s with regs := u.regs, bmv := u.bmv, cnts := u.cnts, flt := u.flt, freeCtr := u.freeCtr, mem := u.mem, out := u.out,
                      rsv := u.rsv, links := u.links, fns := u.fns, plots := u.plots }

/-! ### Boot and the life-cycle -/

/-- Table 19.4: a path, by its bit of SEC_DEBUG, is open in a life-cycle state without a grant, or by the grant of a signer
(0 Onnos, 1 the owner). -/
def debugOpen (state : Nat) (grants : List (Nat × Nat)) (b : Nat) : Prop :=
  (b ≤ 1 ∧ (state = 0 ∨ state = 1 ∨ state = 3)) ∨ (b ≤ 4 ∧ state = 0) ∨ (b = 1 ∧ state = 2 ∧ (1, 1) ∈ grants) ∨
  (b = 2 ∧ state = 3 ∧ (2, 0) ∈ grants) ∨ (b = 3 ∧ (state = 1 ∨ state = 3) ∧ (3, 0) ∈ grants) ∨ (b = 3 ∧ state = 2 ∧ (3, 1) ∈ grants) ∨
  (b = 4 ∧ state = 3 ∧ (4, 0) ∈ grants)

/-- Result of the checks on the image of a region, by the codes of SEC_IMAGE, in a life-cycle state. -/
def State.imageCode (s : State) (b : Bool) (state : Nat) : Nat :=
  match s.firmware b with
  | none => 2
  | some (v, obj, sig) =>
    if hybridOk Config.romHashes obj sig = false then 3 else if v.2.1 < s.sec.otp.svn then 4 else if bitOf v.2.2 state = false then 5 else 1

/-- Firmware runs in u from region b; v is the state that the ROM has resolved (Steps 6 and 7 of Table 19.2, Step 3 of
Table 4.3). -/
structure FirmwareRuns (v u : State) (b : Bool) : Prop where
  running : u.modes.lkRunning = true ∧ u.flag B.SEC R.SEC_IMAGE_RUNNING = b ∧ u.flt.kickAt = v.now
  svn : u.rd B.SEC R.SEC_SVN_COUNT = v.sec.otp.svn % 128
  image : ∀ x obj sig, v.firmware b = some (x, obj, sig) → u.sec.version = x.1 ∧ u.sec.runSvn = x.2.1 ∧ u.measurement 2 = Config.sha384 obj
  meas : u.measurement 1 = Config.sha384 Config.rom ∧ u.measurement 3 = Config.sha384 v.sec.config.bytes ∧
    u.measurement 6 = Config.sha384 (Config.layout [v.lcState, v.sec.otp.svn, v.rd B.SEC R.SEC_LC_TORN])
  debug : ∀ k, k < 5 → (bitOf (u.reg (B.SEC + R.SEC_DEBUG_UNSIGNED.off)).toNat k = true ↔ debugOpen v.lcState v.sec.grants k)
  config : u.image = if v.lcState = 0 ∨ v.lcState = 1 ∨ v.lcState = 3 ∨ hybridOk v.sec.otp.owner v.sec.config.bytes v.sec.config.sig = true
    then v.sec.config else Image.blank
  vault : u.flag B.DEV R.DEV_MODE_VAULT_PENDING = v.vault.pending
  cold : u.sec.cold = false

/-- From v the ROM tries the preferred image, then the other one, and starts the first that passes (R442). -/
structure Booted (v u : State) : Prop where
  first : v.imageCode v.sec.prefer v.lcState = 1 → FirmwareRuns v u v.sec.prefer
  other : v.imageCode v.sec.prefer v.lcState ≠ 1 → v.imageCode (!v.sec.prefer) v.lcState = 1 → FirmwareRuns v u (!v.sec.prefer)
  neither : v.imageCode v.sec.prefer v.lcState ≠ 1 → v.imageCode (!v.sec.prefer) v.lcState ≠ 1 → u.modes.lkRunning = false ∧ u.image = v.image ∧ u.out = v.out
  results : ∀ b, u.rd B.SEC (if b then R.SEC_IMAGE_B_RESULT else R.SEC_IMAGE_A_RESULT) =
    if b = v.sec.prefer ∨ v.imageCode v.sec.prefer v.lcState ≠ 1 then v.imageCode b v.lcState else 0
  prefers : u.flag B.SEC R.SEC_IMAGE_PREFER = v.sec.prefer
  rest : u = { v with regs := u.regs, sec := { v.sec with version := u.sec.version, runSvn := u.sec.runSvn, meas := u.sec.meas, cold := u.sec.cold },
                      modes := { v.modes with lkRunning := u.modes.lkRunning }, flt := { v.flt with kickAt := u.flt.kickAt },
                      image := u.image, cist := u.cist }

/-- State k is programmed from now on in u: its row has begun, the state governs, and slot 0 of the KCU is empty from Returned
on (R444, R445). -/
structure Programs (s u : State) (k : Nat) : Prop where
  row : u.otpRow k = .copyA ∧ ∀ j, j ≠ k → u.otpRow j = s.otpRow j
  lc : u.lcState = k ∧ u.rd B.SEC R.SEC_LC_PHASE = 1 ∧ u.flag B.SEC R.SEC_LC_BUSY = true
  goes : ∃ d, u.sec.prog = some (k, s.now, d) ∧ d < 390000000
  slot0 : u.kek 0 = (if 3 ≤ k then [] else s.kek 0) ∧ ∀ j, j ≠ 0 → u.kek j = s.kek j
  debug : ∀ b, b < 5 → (bitOf (u.reg (B.SEC + R.SEC_DEBUG_UNSIGNED.off)).toNat b = true ↔ debugOpen k s.sec.grants b)
  secrets : u.sec.otp.secret = s.sec.otp.secret ∧ u.sec.otp.seed = s.sec.otp.seed ∧ u.sec.otp.owner = s.sec.otp.owner

/-! ### Microwords -/

/-- Token i of pipeline p is t, in a lane, at the good word w of an operation, which is no safe point. -/
structure State.atWord (s : State) (p i op : Nat) (t : Token) (w : Nat) : Prop where
  tok : s.laneTok p i = some t
  word : s.word (s.wordAtPc p t) = w
  good : s.upset (upsetWord (s.wordAtPc p t)) = 0
  ok : wordOk (16 ≤ p) t.gate w = true
  op : W.op w = op
  plain : W.safe w = false

/-- The word's predicate enables it (R150). -/
abbrev Token.enabled (t : Token) (w : Nat) : Prop := (t.pred (W.psel w) != W.pneg w) = true

/-- In u, token i of pipeline p is t' where it was t in s, one word on; every other token is what it was. -/
structure Stepped (s u : State) (p i : Nat) (t t' : Token) : Prop where
  toks : (u.pipe p).toks = (s.pipe p).toks.set i t'
  others : ∀ k, k ≠ p → u.pipe k = s.pipe k
  tok : t' = { t with carry := t'.carry, locals_ := t'.locals_, preds := t'.preds, pc := t'.pc, words := t.words + 1,
                      resp := t'.resp, tally := t'.tally }

/-- Every operand of t' that lies in the carry or in the locals, and apart from bits off to off + wid - 1, is t's. -/
def Token.apart (t t' : Token) (off wid : Nat) : Prop :=
  ∀ o n, 1 ≤ n → (o + n ≤ 1024 ∨ 1024 ≤ o) → (o + n ≤ off ∨ off + wid ≤ o) → t'.space o n = t.space o n

/-- An operation that writes D: the result truncated to D's width, and nothing else but the token's place. -/
def WritesD (c : Pipe → Nat → Ecc → Sys2Proof.Instr) (op : Nat) (v : Nat → Token → Nat) : Prop :=
  ∀ (p : Pipe) (i : Nat) (s : State) (t : Token) (w : Nat), s.atWord p i op t w → t.enabled w → W.last w = false →
    roTouched (W.dOff w) (W.dWid w) = false →
    ∃ u t', exec (c p i .good) s = .next u ∧ Stepped s u p i t t' ∧ u = { s with pipes := u.pipes } ∧
      t'.pc = (t.pc + 1) % 8192 ∧ t'.preds = t.preds ∧ t'.resp = t.resp ∧
      t'.space (W.dOff w) (W.dWid w) = v w t % 2 ^ W.dWid w ∧ t.apart t' (W.dOff w) (W.dWid w)

/-- An operation that sets predicate PDST and nothing else but the token's place; P0 stays true. -/
def SetsP (c : Pipe → Nat → Ecc → Sys2Proof.Instr) (op : Nat) (f : Nat → Nat → Bool) : Prop :=
  ∀ (p : Pipe) (i : Nat) (s : State) (t : Token) (w : Nat), s.atWord p i op t w → t.enabled w → W.last w = false →
    ∃ u t', exec (c p i .good) s = .next u ∧ Stepped s u p i t t' ∧ u = { s with pipes := u.pipes } ∧
      t'.pc = (t.pc + 1) % 8192 ∧ t'.carry = t.carry ∧ t'.locals_ = t.locals_ ∧ t'.resp = t.resp ∧
      ∀ k, k < 16 → t'.pred k = if k = 0 then true else if k = W.pdst w then f (t.a w) (t.b w) else t.pred k

/-! ### The Silo -/

/-- No transition is under way or waits for its turn, and no vault image awaits its destage: nothing else of the device
goes on where a destage ends. -/
structure State.still (s : State) : Prop where
  busy : s.busy = false
  waiting : s.modes.waiting = []
  forced : s.modes.forced = false
  image : s.flag B.DEV R.DEV_MODE_VAULT_PENDING = false

/-- A SLOT is free on enough MEMBER drives for the columns of a scheme. -/
def State.hasPlace (s : State) (scheme : Nat) : Prop :=
  ∃ g, g < 2 ^ 27 ∧ schemeCols scheme ≤ (s.slotDrives scheme g).length

/-- In u, map entry i has been placed afresh on MEMBER drives where it is free, with the scheme and volume given, and no
other entry has changed. -/
def State.placed (s u : State) (i scheme vol : Nat) : Prop :=
  (∃ g ds, u.ext i = Ext.mk scheme vol g ds ∧ ds.length = schemeCols scheme ∧ ds.Nodup ∧ ∀ d ∈ ds, d ∈ s.slotDrives scheme g) ∧
  (∀ j, j ≠ i → u.ext j = s.ext j ∧ u.staleCols j = s.staleCols j) ∧ u.staleCols i = 0 ∧ tget (fun _ => 0) u.silo.meta_ i = u.ext i

/-- Drive d has become FAILED in u: every extent with a column on it is degraded, that column counts as stale, the source is
up, and neither another drive nor an extent without a column there has changed (R352). -/
structure DriveFailed (s u : State) (d : Nat) : Prop where
  st : u.drive d = { s.drive d with st := .failed, downAt := none, errs := (u.drive d).errs }
  others : ∀ j, j ≠ d → u.drive j = s.drive j
  hit : ∀ i c, Ext.valid (s.ext i) = true → c < schemeCols (Ext.scheme (s.ext i)) → Ext.drive (s.ext i) c = d →
    Ext.degraded (u.ext i) = true ∧ bitOf (u.staleCols i) c = true
  apart : ∀ i, Ext.valid (s.ext i) = false ∨ d ∉ Ext.drives (s.ext i) → u.ext i = s.ext i ∧ u.staleCols i = s.staleCols i
  fault : u.sticky 29 = true
  rest : u = { s with silo := u.silo, flt := u.flt, fns := u.fns, cnts := u.cnts, regs := u.regs, out := u.out, links := u.links, mem := u.mem,
                      kcu := u.kcu }

/-! ### NVMe controllers -/

/-- Plot p is function f of link m, and its controller may post there: the link is up, Bus Master Enable is 1, no FLR is
under way, no dirty pages are logged; and no long command waits for the plot's work. -/
structure State.nvPosts (s : State) (p m f : Nat) : Prop where
  fn : s.fnOfPlot p = some (m, f)
  up : s.linkUp m = true
  bme : (s.fn m f).bme = true
  flr : (s.fn m f).flrAt = none
  log : s.flag (B.PLOT p) R.PLOT_LOG_CTRL_LOGGING = false
  jobs : s.jobs = []

/-- Address of the next entry of the completion queue of submission queue y. -/
def State.cqeAt (s : State) (p y : Nat) : Nat := (s.cq p (s.sq p y).cq).base + 16 * (s.cq p (s.sq p y).cq).tail

/-- A command of submission queue y can complete: both queues are live and the entry lies in a window. -/
structure State.nvRoom (s : State) (p y : Nat) : Prop where
  sq : (s.sq p y).live = true
  cq : (s.cq p (s.sq p y).cq).live = true
  window : s.windowOk p (s.cqeAt p y) 16 true = true

/-- What a completion sends: the entry, and the message of its queue's vector where that may send (Table 15.6; the layout
of the entry is the family's, assumption 22). -/
def State.cqeOuts (s : State) (p y m f cid status dw0 : Nat) : List Out :=
  let c := s.cq p (s.sq p y).cq
  s.writeOuts m f (s.cqeAt p y) (leBytes 4 dw0 ++ leBytes 4 0 ++ leBytes 4 ((s.sq p y).head + 2 ^ 16 * y)
      ++ leBytes 4 (cid + 2 ^ 16 * bit c.phase + 2 ^ 17 * status))
    ++ if c.ien && s.vecOpen m f c.cq then [.msix m f c.cq] else []

/-- Command cid of submission queue y of plot p has completed in u with a status, where s is the state before its
completion: the entry is sent after `before`, the queue's tail moves on and its phase turns at the end, and a status that
is not 0 is logged; nothing else changes but the link's power state and the vector's pending bit. -/
structure Completed (s u : State) (p y m f cid status dw0 : Nat) (before : List Out) : Prop where
  out : u.out = s.out ++ before ++ s.cqeOuts p y m f cid status dw0
  ctl : u.ctl p =
    let c := s.ctl p
    let q := s.cq p (s.sq p y).cq
    let wrap := decide (q.size ≤ q.tail + 1)
    { c with cqs := tput (fun _ => Nq.none) c.cqs (s.sq p y).cq
               { q with tail := if wrap then 0 else q.tail + 1, phase := if wrap then !q.phase else q.phase },
             errlog := if status = 0 then c.errlog else ((y, cid, status) :: c.errlog).take 64 }
  ctls : ∀ p', p' ≠ p → u.ctl p' = s.ctl p'
  rest : u = { s with silo := { s.silo with ctls := u.silo.ctls }, out := u.out, regs := u.regs, links := u.links, mem := u.mem }
  regs : ∀ a, a ≠ B.HPT m + R.HPT_LINK_PM.off → u.reg a = s.reg a
  mem : ∀ a, ¬ (B.MSIX m f + 0xC000 ≤ a ∧ a < B.MSIX m f + 0x1_0000) → byteAt u.mem a = byteAt s.mem a

/-- Queue y of plot p gives the row of opcode op the command x: submission fetch runs, the read of the entry answers l,
and x is l's, of that opcode, with PRPs and not fused. -/
structure State.serve (s : State) (p y op : Nat) (l : List Byte) (x : Sqe) : Prop where
  may : s.mayFetchSq p y = true
  window : s.windowOk p ((s.sq p y).base + 64 * (s.sq p y).head) 64 false = true
  entry : x = Sqe.of (fit 64 l)
  op : x.op = op
  plain : x.flags = 0

/-- The entry at a queue's head has been asked for, and has been taken. -/
def State.sqAsked (s : State) (p y : Nat) : State := s.plotRead p ((s.sq p y).base + 64 * (s.sq p y).head) 64
def State.sqTaken (s : State) (p y : Nat) : State :=
  (s.sqAsked p y).setSq p y { s.sq p y with head := if (s.sq p y).size ≤ (s.sq p y).head + 1 then 0 else (s.sq p y).head + 1 }

/-- Data written over the runs of a host buffer. -/
def State.runOuts (s : State) (m f : Nat) : List (Nat × Nat) → List Byte → List Out
  | [], _ => []
  | (a, n) :: rs, l => s.writeOuts m f a (fit n l) ++ s.runOuts m f rs (l.drop n)

end Sys2Proof.Machine
end

