-- ==== Sys2Proof/Certificates/Slice0/Obligations.lean ====
section
/-! DEFINITION. Statements about the model, for the provers. -/
open Sys2Proof Sys2Proof.Machine

/-! ### The queue and the step -/

/-- A step runs the command at the front of the queue on the state with the queue's rest. -/
def Obligations.StepRunsFront : Prop :=
  ∀ (c : Instr) (rest : List Instr) (s : State),
    step { s with pending := c :: rest } = exec c { s with pending := rest }



/-! ### Pace, power and temperature (chapter 2) -/

/-- R34, R35, R39, R45, R47: meters, the regulator's acknowledgements, power and temperature readings, each in its period and
otherwise without effect. R38, R40, R46: one step of the governor's loop below its target raises the request, above 1.01 times it
lowers it, by 1 to 5 mV within [VMIN, V_ceil], keeps it in between, and lowers it by 5 mV on the way down from 700 W: the size of
the step is the command's operand, free within R38 (assumption 33); in Drain the request goes to 720 mV. R49: the domain at the head of
the switch-on queue is on after its power good, or given up where its bound has passed. -/
def Obligations.PaceEvents : Prop :=
  let vreq := fun s : State => s.rd B.PACE R.PACE_STATUS_VREQ
  let calm := fun s : State => s.busy = false ∧ s.modes.waiting = [] ∧ s.modes.forced = false
  (∀ (s : State) (i : Fin 65536) (l : List Int) (r : List (Dom × Nat)) (f : Nat) (ack : Bool),
    (s.due Tm.meters 500 = false → exec (.paceMeterUpdate r) s = .next s) ∧
    (s.due Tm.governor 500 = false → exec (.governorLoopStep f ack) s = .next s) ∧
    (s.due Tm.power 100000 = false ∨ s.flag B.PWR R.PWR_BUS_STAT_PMB0_LOST = true → exec (.powerReading i) s = .next s) ∧
    (s.due Tm.tj 100000 = false → exec (.tjReading l) s = .next s)) ∧
  (∀ (d : Dom) (v : Nat) (s : State), s.due Tm.meters 500 = true → metered d = true → s.domOn d = true →
    s.flag (meterBase d) R.PACE_METER_CAL = false →
    Gives (.paceMeterUpdate [(d, v)]) s fun t => t = { s with regs := t.regs, timers := t.timers } ∧
      t.rd (meterBase d) R.PACE_METER_PACE = v % 2 ^ 16 ∧
      (∀ p, t.paceMin = some p → bitsOf (t.view (B.PACE + R.PACE_STATUS_PACE_MIN.off)) 15 0 = p % 2 ^ 16 ∧
        bitOf (t.view (B.PACE + R.PACE_FLAGS_BELOW_LR.off)) 0 = decide (p < 2460)) ∧
      ∀ a, a ≠ meterBase d + R.PACE_METER_PACE.off → t.reg a = s.reg a) ∧
  (∀ (d : Dom) (v : Nat) (s : State), s.due Tm.meters 500 = true → metered d = true → s.domOn d = true →
    s.flag (meterBase d) R.PACE_METER_CAL = true → exec (.paceMeterUpdate [(d, v)]) s = .next (s.stamp Tm.meters)) ∧
  (∀ (d : Dom) (s : State), metered d = true → s.domOn d = true →
    exec (.paceMeterCalibration d) s = .next (s.wrB (meterBase d) R.PACE_METER_CAL true)) ∧
  (∀ (d : Dom) (s : State), s.flag (meterBase d) R.PACE_METER_CAL = true →
    Gives (.paceCalibrationDone d) s fun t => t = { s with regs := t.regs, flt := t.flt, timers := t.timers } ∧
      t.flag (meterBase d) R.PACE_METER_CAL = false ∧ t.last (Tm.meterCal d) = some s.now ∧
      ((∀ e, e < 80 → e ≠ d.val → metered e = true → s.domOn e = true → s.now < (s.last (Tm.meterCal e)).getD 0 + 15000000000) →
        t.bgOverdue 7 = false)) ∧
  (∀ (s : State), s.gov.nacks ≠ 2 →
    exec .avsCommandUnacknowledged s = .next { s with gov := { s.gov with nacks := s.gov.nacks + 1, sent := none } }) ∧
  (∀ (s : State), s.gov.nacks = 2 → s.mild 5 → Gives .avsCommandUnacknowledged s fun t =>
    vreq t = s.gov.lastAck % 2 ^ 16 ∧ t.flag B.PACE R.PACE_FLAGS_AVS_LOST = true ∧
    t.sticky 5 = true ∧ t.gov.nacks = 3 ∧ t.mode = s.mode) ∧
  (∀ (s : State) (again : Nat), s.flag B.PACE R.PACE_FLAGS_AVS_LOST = true → s.mode ≠ .fallow → s.due Tm.resend 1000000 = true →
    again = (if s.gov.lastAck = 0 then s.gov.goal else s.gov.lastAck) →
    exec (.avsResend false) s = .next { s.stamp Tm.resend with out := s.out ++ [.avs again] } ∧
    (s.flag B.PWR R.PWR_BUS_STAT_PMB0_LOST = false → Gives (.avsResend true) s fun t =>
      t = { s with regs := t.regs, timers := t.timers, out := s.out ++ [.avs again], gov := { s.gov with nacks := 0, lastAck := again } } ∧
      vreq t = again % 2 ^ 16 ∧ t.flag B.PACE R.PACE_FLAGS_AVS_LOST = false ∧
      ∀ a, a ∉ [B.PACE + R.PACE_STATUS_VREQ.off, B.PACE + R.PACE_FLAGS_AVS_LOST.off] → t.reg a = s.reg a)) ∧
  (∀ (i : Fin 65536) (s u : State), s.flag B.PWR R.PWR_BUS_STAT_PMB0_LOST = false → s.due Tm.power 100000 = true →
    u = s.wr (railBase 0) R.PWR_RAIL_CURRENT i → Gives (.powerReading i) s fun t =>
      t = { s with regs := t.regs, gov := t.gov, timers := t.timers } ∧
      t.rd B.PWR R.PWR_POWER_POWER = min 0xFFFFF u.devicePower ∧ t.gov.readV = vreq s ∧
      (u.devicePower ≤ 600000 → t.gov.credit = min 40000000 (s.gov.credit + (600000 - u.devicePower)) ∧
        t.rd B.PWR R.PWR_SURGE_ABOVE = 0) ∧
      (600000 < u.devicePower → t.gov.credit = s.gov.credit - (u.devicePower - 600000) ∧
        t.rd B.PWR R.PWR_SURGE_ABOVE = min 65535 (s.rd B.PWR R.PWR_SURGE_ABOVE + 1)) ∧
      (600000 < u.devicePower → s.gov.surgeEnd = false → s.gov.credit ≤ 40000000 →
        s.gov.credit ≤ u.devicePower - 600000 ∨ s.rd B.PWR R.PWR_SURGE_ABOVE = 399 →
        t.gov.surgeEnd = true ∧ t.flag B.PACE R.PACE_FLAGS_CAPPED = true) ∧
      (700000 < u.devicePower → t.gov.backoff = true) ∧ (u.devicePower ≤ 680000 → t.gov.backoff = false)) ∧
  (∀ (l : List Int) (s : State), s.due Tm.tj 100000 = true → s.gov.above115 = 0 → s.gov.above125 = 0 → (∀ x ∈ l, x ≤ 255) →
    Gives (.tjReading l) s fun t => t = { s with regs := t.regs, gov := t.gov, modes := t.modes, timers := t.timers } ∧ t.mode = s.mode ∧
      (t.rd B.PWR R.PWR_TJ_TJ : Int) = l.foldl max 0 ∧
      t.gov.above115 = (if 115 < l.foldl max 0 then 1 else 0)) ∧
  (∀ (l : List Int) (s : State), s.due Tm.tj 100000 = true → s.gov.above115 ≠ 0 → s.modes.forced = false → (∃ x ∈ l, 115 < x) →
    (∀ x ∈ l, x < 125) → s.mild 4 → s.busy = true → Gives (.tjReading l) s fun t => t.modes.forced = true ∧ t.sticky 4 = true ∧
      t.modes.waiting = s.modes.waiting ++ [.trickle]) ∧
  (∀ (f : Nat) (ack : Bool) (s : State) (p : Nat), s.due Tm.governor 500 = true → s.loopRuns = true → s.paceMin = some p →
    s.policy.cap = none → s.rd B.PACE R.PACE_VLIMIT_VMIN ≤ vreq s → vreq s ≤ s.vCeil →
    (p < s.paceTarget s.policy → s.gov.backoff = false → vreq s + 5 ≤ s.vCeil → Gives (.governorLoopStep f ack) s fun t =>
      vreq s + 1 ≤ vreq t ∧ vreq t ≤ vreq s + 5 ∧
      t = { s with regs := t.regs, gov := t.gov, timers := t.timers, out := s.out ++ [.avs (vreq t)] } ∧
      (ack = true → t.gov.lastAck = vreq t ∧ t.gov.nacks = 0 ∧ t.gov.sent = none) ∧
      t.flag B.PACE R.PACE_FLAGS_TARGET_UNREACHED = decide (vreq t = s.vCeil)) ∧
    (101 * s.paceTarget s.policy < 100 * p → s.gov.backoff = false → s.rd B.PACE R.PACE_VLIMIT_VMIN + 5 ≤ vreq s →
      Gives (.governorLoopStep f ack) s fun t => vreq s ≤ vreq t + 5 ∧ vreq t + 1 ≤ vreq s ∧
        t = { s with regs := t.regs, gov := t.gov, timers := t.timers, out := s.out ++ [.avs (vreq t)] }) ∧
    (s.paceTarget s.policy ≤ p → 100 * p ≤ 101 * s.paceTarget s.policy → s.gov.backoff = false →
      Gives (.governorLoopStep f ack) s fun t => vreq t = vreq s ∧ t = { s with regs := t.regs, timers := t.timers }) ∧
    (s.gov.backoff = true → s.rd B.PACE R.PACE_VLIMIT_VMIN + 5 ≤ vreq s → Gives (.governorLoopStep f ack) s fun t =>
      vreq t + 5 = vreq s ∧
      t = { s with regs := t.regs, gov := t.gov, timers := t.timers, out := s.out ++ [.avs (vreq t)] })) ∧
  (∀ (f : Nat) (ack : Bool) (s : State), s.due Tm.governor 500 = true →
    (s.mayRequest = false → exec (.governorLoopStep f ack) s = .next (s.stamp Tm.governor)) ∧
    (s.mayRequest = true → s.mode = .drain → s.gov.backoff = false → Gives (.governorLoopStep f ack) s fun t =>
      vreq t = (if vreq s = 0 then 720 else if 725 < vreq s then vreq s - 5 else if vreq s + 5 < 720 then vreq s + 5 else 720))) ∧
  (∀ (d : Dom) (e : Nat) (l : List Nat) (s : State), 1 ≤ d.val → e ≠ d.val → s.modes.toPower = d.val :: e :: l →
    s.needsOn d = true → needs s e = [0] → s.domOn 0 = true → calm s → s.sev 28 ≠ 4 →
    (∀ n ∈ [6, 14, 176 + 4 * (d.val - 29), 178 + 4 * (d.val - 29)], s.sev n ≠ 4) →
    Gives (.domainPowerGood d) s fun t => t.modes.toPower = e :: l ∧ t.mode = s.mode ∧
      (∀ f, f < 80 → f ≠ d.val → t.domOn f = s.domOn f) ∧
      (s.domainLate d = false → t.domOn d = true) ∧
      (s.domainLate d = true → t.domOn d = s.domOn d ∧ t.modes.stepFault = true ∧ t.sticky 6 = true))

/-! ### Registers (chapter 3) -/

/-- R11, R52 to R56: a write of the Lockkeeper to one of the first four PACE registers (Tables 2.9 to 2.12), through any
image that the resolution of the address gives, takes each field whose value is accepted and leaves the others; a write
that is not granted changes nothing but the answer; one to another domain waits, unless it is of a register with a row of its own,
whose command it is. -/
def Obligations.RegisterWrites : Prop :=
  (∀ (v : DWord) (s : State) (a : Nat) (d : RegDesc), a ∈ [0x2_0000, 0x2_0004, 0x2_0008, 0x2_000C] →
    s.domOn 0 = true → s.waitingOf .lk = [] → descAt a = some d →
    Gives (.registerWrite .lk (.internal a) 32 v) s fun t =>
      t = { s with regs := t.regs, reply := .ok } ∧ (∀ b, b ≠ a → t.reg b = s.reg b) ∧
      ∀ f ∈ d.fields, bitsOf (t.reg a).toNat f.fld.hi f.fld.lo =
        if f.ok.takes (bitsOf v.toNat f.fld.hi f.fld.lo) then bitsOf v.toNat f.fld.hi f.fld.lo
        else bitsOf (s.reg a).toNat f.fld.hi f.fld.lo) ∧
  (∀ (who : Master) (a : Addr) (size : Nat) (v : DWord) (s : State), (∀ m f, who ≠ .host m f) →
    (∀ t, s.resolve who a = some t → s.granted who t .write size v.toNat = false) →
    exec (.registerWrite who a size v) s = .next { s with reply := .busError }) ∧
  (∀ (who : Master) (a : Addr) (size : Nat) (v : DWord) (s : State) (g : Target), s.resolve who a = some g →
    s.granted who g .write size v.toNat = true → keyDom g.key ≠ pathDom who →
    (size = 32 → g.kind = .write → ((s.catchUp who).answer .ok).rowOf who g.key (v.toNat % 2 ^ 32) = none) →
    exec (.registerWrite who a size v) s = .next { s with
      reply := .stalled,
      cross := s.cross ++ [{ who := who, key := g.key, kind := g.kind, size := size, v := v.toNat, slow := true, at_ := s.now, job := false }] })

/-- R57 to R59, with the worked example's register PACE_CTRL: the set alias ORs, the clear alias clears, the toggle alias
inverts, as one read-modify-write; a value that POLICY does not list leaves it; a 1 outside POLICY refuses the write
whole. -/
def Obligations.AliasWrites : Prop :=
  ∀ (v : DWord) (s : State), s.domOn 0 = true → s.waitingOf .lk = [] →
    (v.toNat < 4 →
      (let n := s.rd B.PACE R.PACE_CTRL_POLICY ||| v.toNat
       Gives (.aliasSetWrite .lk (.internal 0x2_0000) 32 v) s fun t =>
         t = { s with regs := t.regs, reply := .ok } ∧ (∀ b, b ≠ 0x2_0000 → t.reg b = s.reg b) ∧
         t.rd B.PACE R.PACE_CTRL_POLICY = if n ≤ 2 then n else s.rd B.PACE R.PACE_CTRL_POLICY) ∧
      (let n := s.rd B.PACE R.PACE_CTRL_POLICY - (s.rd B.PACE R.PACE_CTRL_POLICY &&& v.toNat)
       Gives (.aliasClearWrite .lk (.internal 0x2_0000) 32 v) s fun t =>
         t = { s with regs := t.regs, reply := .ok } ∧ (∀ b, b ≠ 0x2_0000 → t.reg b = s.reg b) ∧
         t.rd B.PACE R.PACE_CTRL_POLICY = if n ≤ 2 then n else s.rd B.PACE R.PACE_CTRL_POLICY) ∧
      (let n := s.rd B.PACE R.PACE_CTRL_POLICY ^^^ v.toNat
       Gives (.aliasToggleWrite .lk (.internal 0x2_0000) 32 v) s fun t =>
         t = { s with regs := t.regs, reply := .ok } ∧ (∀ b, b ≠ 0x2_0000 → t.reg b = s.reg b) ∧
         t.rd B.PACE R.PACE_CTRL_POLICY = if n ≤ 2 then n else s.rd B.PACE R.PACE_CTRL_POLICY)) ∧
    (4 ≤ v.toNat → v.toNat < 2 ^ 32 →
      exec (.aliasSetWrite .lk (.internal 0x2_0000) 32 v) s = .next { s with reply := .busError } ∧
      exec (.aliasClearWrite .lk (.internal 0x2_0000) 32 v) s = .next { s with reply := .busError } ∧
      exec (.aliasToggleWrite .lk (.internal 0x2_0000) 32 v) s = .next { s with reply := .busError })

/-- R56, R62, R63, R26, R470: the end of a crossing, the wide pairs, the lock bits, PACE_VLIMIT, and a core's loads and
stores. -/
def Obligations.RegisterPaths : Prop :=
  (∀ (x : Crossing) (s : State), s.cross = [x] → x.job = false →
    (x.kind = .read → x.size = 32 → s.now ≤ x.at_ + 4000 → s.domOn (keyDom x.key) = true → exec (.slowAccessCrossed x.who) s =
      .next { s with cross := [], reply := State.readData { s with cross := [] } x.key 32 }) ∧
    (s.now < x.at_ + 4000 → exec (.slowAccessTimeout x.who) s = .next s) ∧
    ((∀ m f, x.who ≠ .host m f) →
      (s.now ≤ x.at_ + 4000 → s.domOn (keyDom x.key) = false →
        exec (.slowAccessCrossed x.who) s = .next { s with cross := [], reply := .busError }) ∧
      (x.at_ + 4000 ≤ s.now → s.mild 8 → Gives (.slowAccessTimeout x.who) s fun t => t.cross = [] ∧ t.reply = .busError ∧ t.sticky 8 = true ∧
        t = { s with cross := [], reply := .busError, regs := t.regs, cnts := t.cnts, flt := t.flt, mem := t.mem,
                     out := t.out, links := t.links, fns := t.fns }))) ∧
  (∀ (addr : Word) (s : State), s.domOn 0 = true → s.waitingOf .lk = [] →
    Gives (.wideSelWrite none addr) s fun t => t = { s with regs := t.regs, reply := .ok } ∧
      t.reg (B.DEV + 0x40) = addr ∧ t.flag B.DEV R.WIDE_STAT_VALID = false ∧
      t.flag B.DEV R.WIDE_STAT_ERR = (s.widePair none addr.toNat).isNone ∧
      ∀ b, b ≠ B.DEV + 0x40 → b ≠ B.DEV + R.WIDE_STAT_VALID.off → t.reg b = s.reg b) ∧
  (∀ (s : State) (k : Nat), s.flag B.DEV R.WIDE_STAT_VALID = false → s.flag B.DEV R.WIDE_STAT_ERR = false →
    s.widePair none (s.rd B.DEV R.WIDE_SEL_ADDR) = some k →
    Gives (.wideLatchDone none) s fun t => t = { s with regs := t.regs } ∧
      (t.reg (B.DEV + R.WIDE_LO_LO.off)).toNat = s.view k % 2 ^ 32 ∧
      t.flag B.DEV R.WIDE_STAT_VALID = true) ∧
  (∀ (v : Word) (s : State), s.domOn 0 = true → s.waitingOf .lk = [] →
    (s.flag B.PACE R.PACE_LOCK_VLOCK = true → s.mild 7 → Gives (.paceVlimitWrite v) s fun t => t.sticky 7 = true ∧ t.reply = .ok ∧
      t.reg (B.PACE + 0x10) = s.reg (B.PACE + 0x10)) ∧
    (s.flag B.PACE R.PACE_LOCK_VLOCK = false → Gives (.paceVlimitWrite v) s fun t => t = { s with regs := t.regs, reply := .ok } ∧
      (∀ b, b ≠ B.PACE + 0x10 → t.reg b = s.reg b) ∧
      let mx := if 580 ≤ v.toNat / 2 ^ 16 ∧ v.toNat / 2 ^ 16 ≤ 860 then v.toNat / 2 ^ 16 else s.rd B.PACE R.PACE_VLIMIT_VMAX
      let mn := if 580 ≤ v.toNat % 2 ^ 16 ∧ v.toNat % 2 ^ 16 ≤ 860 then v.toNat % 2 ^ 16 else s.rd B.PACE R.PACE_VLIMIT_VMIN
      (mn ≤ mx → t.rd B.PACE R.PACE_VLIMIT_VMAX = mx ∧ t.rd B.PACE R.PACE_VLIMIT_VMIN = mn) ∧
      (mx < mn → t.rd B.PACE R.PACE_VLIMIT_VMAX = s.rd B.PACE R.PACE_VLIMIT_VMAX ∧
        t.rd B.PACE R.PACE_VLIMIT_VMIN = s.rd B.PACE R.PACE_VLIMIT_VMIN))) ∧
  (∀ (l : Lock) (v : Word) (s : State), s.domOn 0 = true → s.waitingOf .lk = [] → s.flag (lockField l).1 (lockField l).2 = false →
    Gives (.lockBitWrite l v) s fun t => t = { s with regs := t.regs, reply := .ok } ∧
      t.flag (lockField l).1 (lockField l).2 = bitOf v.toNat (lockField l).2.lo ∧
      ∀ b, b ≠ (lockField l).1 + (lockField l).2.off → t.reg b = s.reg b) ∧
  (∀ (n : CoreIx) (pa len : Nat) (s : State), s.domOn (69 + n / 8) = true → s.waitingOf (.core n) = [] → 1 ≤ len → pa + len ≤ 0x1_0000 →
    exec (.coreBusAccess n pa len none) s =
      .next { s with reply := .bytes (bytesAt s.mem (B.BOOT (n / 8) + pa) len) }) ∧
  (∀ (n : CoreIx) (pa : Nat) (s : State), s.domOn (69 + n / 8) = true → s.waitingOf (.core n) = [] → 0x4_0000_0000 ≤ pa →
    (∀ len, 1 ≤ len → pa + len ≤ 0x4_0000_0000 + s.coreMemLen →
      (s.corePoisoned (B.CMEM + (pa - 0x4_0000_0000)) len = false → exec (.coreBusAccess n pa len none) s =
        .next { s with reply := .bytes (bytesAt s.mem (B.CMEM + (pa - 0x4_0000_0000)) len) }) ∧
      (s.corePoisoned (B.CMEM + (pa - 0x4_0000_0000)) len = true → exec (.coreBusAccess n pa len none) s = .next { s with reply := .busError })) ∧
    (∀ (len : Nat) (l : List Byte), l ≠ [] → pa + l.length ≤ 0x4_0000_0000 + s.coreMemLen → Gives (.coreBusAccess n pa len (some l)) s fun t =>
      t = { s with mem := putBytes s.mem (B.CMEM + (pa - 0x4_0000_0000)) l, reply := .ok, rsv := { s.rsv with poisoned := t.rsv.poisoned } } ∧
      t.corePoisoned (B.CMEM + (pa - 0x4_0000_0000)) l.length = false ∧ ∀ x ∈ t.rsv.poisoned, x ∈ s.rsv.poisoned))

/-! ### Mailboxes and device commands (chapter 3) -/

/-- R66, Table 3.9: a doorbell of a host copies the slot. It is ignored while the mailbox is not ready or has no result
base; a copy for a busy tag sets TAG_BUSY_ERR, unless it repeats the command in progress; a repeat of the last accepted
phase and generation gives the cached result again and accepts nothing; any other copy is the tag's last accepted command,
which runs, or is final at once with the status of rows 5 to 11. A core's doorbell obeys the same rules (R79). -/
def Obligations.Doorbells : Prop :=
  (∀ (m : Link) (g : Tag) (s : State), s.answers m 0 = true → s.waitingOf (.host m 0) = [] →
    s.flag (B.LKP m) R.LKP_HMB_STATUS_READY = false ∨ s.flag (B.LKP m) R.LKP_HMB_STATUS_NORES = true →
    exec (.mailboxDoorbell m g) s = .next (s.wrB (B.LKP m) R.LKP_HMB_STATUS_DB_IGNORED true)) ∧
  (∀ (m : Link) (g : Tag) (s : State) (c : Cmd), s.answers m 0 = true → s.waitingOf (.host m 0) = [] →
    s.flag (B.LKP m) R.LKP_HMB_STATUS_READY = true → s.flag (B.LKP m) R.LKP_HMB_STATUS_NORES = false →
    c = Cmd.ofSlot (bytesAt s.mem (B.LKP m + 0x1000 + 0x100 * g) 256) →
    (∀ r, (s.tag (.host m g)).cur = some r → r.phase = c.phase ∧ r.mgen = c.mgen → exec (.mailboxDoorbell m g) s = .next s) ∧
    (∀ r, (s.tag (.host m g)).cur = some r → ¬ (r.phase = c.phase ∧ r.mgen = c.mgen) →
      exec (.mailboxDoorbell m g) s = .next (s.wrB (B.LKP m) R.LKP_HMB_STATUS_TAG_BUSY_ERR true)) ∧
    (∀ f, (s.tag (.host m g)).cur = none → (s.tag (.host m g)).fin = some f →
      (s.tag (.host m g)).last = some (c.phase, c.mgen) →
      exec (.mailboxDoorbell m g) s =
        .next (s.writeResult (.host m g) c.phase c.mgen c.irq { f with status := 0x0070, retry := 0 })) ∧
    (∀ (_ : (s.tag (.host m g)).cur = none) (_ : (s.tag (.host m g)).fin = none ∨
        (s.tag (.host m g)).last ≠ some (c.phase, c.mgen)), Gives (.mailboxDoorbell m g) s fun t =>
      (t.tag (.host m g)).last = some (c.phase, c.mgen) ∧ (∀ r, r ≠ .host m g → t.tag r = s.tag r) ∧ t.cmdSeq = s.cmdSeq + 1 ∧
      (c.mgen ≠ s.mgen (.host m g) → (t.tag (.host m g)).cur = none ∧
        (t.tag (.host m g)).fin = some ⟨0x0060, 0x0060, 0, []⟩) ∧
      (∀ st, s.doorbellStatus (.host m g) c = some st → (t.tag (.host m g)).cur = none ∧
        (t.tag (.host m g)).fin.map (·.status) = some st) ∧
      (s.doorbellStatus (.host m g) c = none → (t.tag (.host m g)).cur = some { c with at_ := s.cmdSeq } ∧ (t.tag (.host m g)).fin = none ∧
        bitOf (t.reg (B.LKP m + R.LKP_HMB_INFLIGHT_TAGS.off)).toNat g = true))) ∧
  (∀ (n : CoreIx) (s : State) (c : Cmd), s.domOn (69 + n / 8) = true → s.waitingOf (.core n) = [] →
    (s.flag (B.CMB n) ⟨0x204, 0, 0⟩ = false → exec (.coreMailboxDoorbell n) s = .next s) ∧
    (s.flag (B.CMB n) ⟨0x204, 0, 0⟩ = true → c = Cmd.ofSlot (bytesAt s.mem (B.CMB n) 256) → (s.tag (.core n)).cur = none →
      (s.tag (.core n)).fin = none ∨ (s.tag (.core n)).last ≠ some (c.phase, c.mgen) →
      Gives (.coreMailboxDoorbell n) s fun t =>
        (t.tag (.core n)).last = some (c.phase, c.mgen) ∧ (∀ r, r ≠ .core n → t.tag r = s.tag r) ∧
        (∀ st, s.doorbellStatus (.core n) c = some st → st ≠ 0x30 ∨ c.opcode / 256 ≠ 8 → (t.tag (.core n)).cur = none ∧
          (t.tag (.core n)).fin.map (·.status) = some st) ∧
        (s.doorbellStatus (.core n) c = some 0x30 → c.opcode / 256 = 8 → ∃ j, t.jobs = s.jobs ++ [j] ∧ j.q = .core n ∧ j.st = 0x30 ∧
          j.data = [] ∧ j.due = s.now + secTime c.opcode * 1000000) ∧
        (s.doorbellStatus (.core n) c = none → (t.tag (.core n)).cur = some { c with at_ := s.cmdSeq } ∧ (t.tag (.core n)).fin = none)))

/-- R65, R69, R448, R471: progress headers, which show elapsed time divided by T for a security command, the result base, and the
end of a command of the generation before. -/
def Obligations.MailboxEvents : Prop :=
  let shows := fun (s : State) (q : Req) (c : Cmd) (k v : Nat) =>
    ((∀ j ∈ s.jobs, ¬ (j.q = q ∧ j.mgen = c.mgen ∧ j.opcode / 256 = 8)) ∧ v = min k 100) ∨
    (∃ j, s.jobs = [j] ∧ j.q = q ∧ j.mgen = c.mgen ∧ j.opcode / 256 = 8 ∧
      v = min 100 (100 * (s.now + secTime j.opcode * 1000000 - j.due) / (secTime j.opcode * 1000000)))
  (∀ (m : Link) (g : Tag) (k v : Nat) (s : State) (c : Cmd), (s.tag (.host m g)).cur = some c → s.linkUp m = true →
    (s.fn m 0).bme = true → (s.fn m 0).flrAt = none → shows s (.host m g) c k v →
    Gives (.progressHeader (.host m g) k) s fun t =>
      t = { s with out := s.out ++ [.write m 0 (s.pair (B.LKP m + 0x10) / 4096 * 4096 + g * 0x100)
              (leBytes 4 (0x1_0000 + g * 256 + c.phase * 128 + v))], regs := t.regs, links := t.links } ∧
      ∀ a, a ≠ B.HPT m + R.HPT_LINK_PM.off → t.reg a = s.reg a) ∧
  (∀ (n : CoreIx) (k v : Nat) (s : State) (c : Cmd), (s.tag (.core n)).cur = some c → shows s (.core n) c k v →
    exec (.progressHeader (.core n) k) s = .next { s with
      mem := putBytes s.mem (B.CMB n + 0x100) (leBytes 4 (0x1_0000 + c.phase * 128 + v)) }) ∧
  (∀ (m : Link) (lo hi : Word) (s : State), s.answers m 0 = true → s.waitingOf (.host m 0) = [] →
    s.reg (B.LKP m + R.LKP_HMB_INFLIGHT_TAGS.off) = 0 →
    Gives (.resbaseWrite m (some lo) (some hi)) s fun t =>
      t = { s with regs := t.regs, reply := .ok } ∧
      t.rd (B.LKP m) R.LKP_HMB_RESBASE_LO_ADDR_LO = bitsOf lo.toNat R.LKP_HMB_RESBASE_LO_ADDR_LO.hi R.LKP_HMB_RESBASE_LO_ADDR_LO.lo ∧
      t.reg (B.LKP m + 0x14) = hi ∧ t.flag (B.LKP m) R.LKP_HMB_RESBASE_LO_EN = bitOf lo.toNat 0 ∧
      t.flag (B.LKP m) R.LKP_HMB_STATUS_NORES = !bitOf lo.toNat 0 ∧
      ∀ a, a ∉ [B.LKP m + 0x10, B.LKP m + 0x14, B.LKP m + R.LKP_HMB_STATUS_NORES.off] → t.reg a = s.reg a) ∧
  (∀ (m : Link) (lo hi : Option Word) (s : State), s.answers m 0 = true → s.waitingOf (.host m 0) = [] →
    s.reg (B.LKP m + R.LKP_HMB_INFLIGHT_TAGS.off) ≠ 0 →
    Gives (.resbaseWrite m lo hi) s fun t => t.pair (B.LKP m + 0x10) = s.pair (B.LKP m + 0x10) ∧ t.reply = .ok) ∧
  (∀ (q : Req) (s : State) (o : OldTag), (s.tag q).old = some o → o.settled = none →
    exec (.oldCommandSettled q true) s = .next s ∧
    (s.jobs.all (fun j => !(j.q = q && j.mgen = o.mgen)) = true →
      exec (.oldCommandSettled q false) s = .next (s.setTag q { s.tag q with old := some { o with settled := some (0x0060, 0) } })) ∧
    (∀ j, s.jobs = [j] → j.q = q → j.mgen = o.mgen → s.rollsBack j.opcode = false → exec (.oldCommandSettled q false) s = .next s))

/-- R76, R77: the device commands of Table 3.13 on a tag that holds one. -/
def Obligations.DeviceCommands : Prop :=
  (∀ (q : Req) (s : State) (c : Cmd), s.holds q 0x0100 c →
    Gives (.devIdentify q) s (Ends q 0 ((Config.identity (s.rd B.SEC R.SEC_IMAGE_RUNNING) s.sec.version).take 240) s)) ∧
  (∀ (q : Req) (s : State) (c : Cmd), s.holds q 0x0101 c →
    Gives (.devCaps q) s (Ends q 0 ((Config.layout s.capsCounts).take 240) s)) ∧
  (∀ (q : Req) (s : State) (c : Cmd), s.holds q 0x0102 c →
    Gives (.devEcho q) s (Ends q 0 (fit c.len c.args) s)) ∧
  (∀ (q : Req) (s : State) (c : Cmd) (r : Req) (f : Final), s.holds q 0x0103 c → reqWithTag q (c.u8 8) = some r →
    c.u16 10 = s.mgen q → (s.tag r).cur = none → (s.tag r).fin = some f →
    Gives (.devCmdStatus q) s (Ends q 0 (leBytes 2 f.status ++ [0]) s)) ∧
  (∀ (q : Req) (s : State) (c : Cmd), s.holds q 0x0104 c → c.u8 12 = 0 ∨ 56 < c.u8 12 → Gives (.devRegRead q) s (Ends q 0x0012 [] s)) ∧
  (∀ (q : Req) (s : State) (c : Cmd), s.holds q 0x0104 c → 1 ≤ c.u8 12 → c.u8 12 ≤ 56 → s.regJob = none → s.waitingOf .lk = [] →
    (∀ w : Nat → Nat, (∀ i, i < c.u8 12 → secret (c.u32 8 + 4 * i) = false ∧ ∃ t, internalTarget (c.u32 8 + 4 * i) = some t ∧
        s.granted .lk t .read 32 0 = true ∧ keyDom t.key = 0 ∧ s.readData t.key 32 = .data (w i)) →
      Gives (.devRegRead q) s (Ends q 0 ((List.range (c.u8 12)).flatMap fun i => leBytes 4 (w i)) s)) ∧
    (secret (c.u32 8) = true → Gives (.devRegRead q) s (Ends q 0x0030 [] s)) ∧
    (∀ t, secret (c.u32 8) = false → internalTarget (c.u32 8) = some t → s.granted .lk t .read 32 0 = true → keyDom t.key ≠ 0 →
      Gives (.devRegRead q) s fun u => (u.tag q).cur = some c ∧ u.regs = s.regs ∧ u.mem = s.mem ∧ u.out = s.out ∧
        u.cross = { who := .lk, key := t.key, kind := .read, size := 32, v := 0, slow := true, at_ := s.now, job := true } :: s.cross)) ∧
  (∀ (q : Req) (s : State) (c : Cmd), s.holds q 0x0105 c → s.regJob = none → s.waitingOf .lk = [] →
    (secret (c.u32 8) = true → Gives (.devRegWrite q) s (Ends q 0x0030 [] s)) ∧
    (s.domOn 0 = true → c.u32 8 = 0x2_0004 → c.u32 16 = 0xFFFF → 1000 ≤ c.u32 12 → c.u32 12 ≤ 3400 →
      Gives (.devRegWrite q) s (Ends q 0 [] { s.wr B.PACE R.PACE_TARGET_TARGET (c.u32 12) with reply := .none }))) ∧
  (∀ (q : Req) (s : State) (c : Cmd), s.holds q 0x0106 c →
    Gives (.devHealth q) s (Ends q 0 ((Config.layout s.healthFacts).take 240) s))


/-! ### Modes, start-up and resets (chapter 4) -/

/-- R91, R92, R98: the commands of class 0x07xx. Each ends at once, or goes on as the transition or the switching that it
asked for; the conditions are on the state and the operands alone. -/
def Obligations.ModeCommands : Prop :=
  (∀ (q : Req) (s : State) (c : Cmd), s.holds q 0x0700 c → Gives (.modeGet q) s (Ends q 0
    (leBytes 4 (s.view 0x10) ++ leBytes 4 (s.view 0x14) ++ leBytes 4 (s.view 0x18)) s)) ∧
  (∀ (q : Req) (s : State) (c : Cmd), s.holds q 0x0701 c →
    (s.busy = true → Gives (.modeSet q) s (Ends q 0x0050 [] s)) ∧
    (s.busy = false → c.u8 8 ∉ [2, 3, 5] → Gives (.modeSet q) s (Ends q 0x0012 [] s)) ∧
    (s.busy = false → c.u8 8 ∈ [2, 3, 5] → Mode.ofCode (c.u8 8) = s.mode → Gives (.modeSet q) s (Ends q 0 [] s)) ∧
    (s.busy = false → c.u8 8 ∈ [2, 3, 5] → Mode.ofCode (c.u8 8) ≠ s.mode → s.lcState = 4 →
      Gives (.modeSet q) s (Ends q 0x0030 [] s)) ∧
    (s.busy = false → s.lcState ≠ 4 →
      (c.u8 8 ∈ [2, 3] → s.mode = .survey → Gives (.modeSet q) s (Ends q 0x0012 [] s)) ∧
      (c.u8 8 = 5 → s.mode ∈ [.priming, .flowing, .trickle] → s.surveyPermitted = false →
        Gives (.modeSet q) s (Ends q 0x0030 [] s)) ∧
      (c.u8 8 = 5 → s.mode ∈ [.flowing, .trickle] → s.surveyPermitted = true → s.modes.committed = false → s.dirtyBlocks ≠ 0 →
        Gives (.modeSet q) s fun t => t.busy = true ∧ t.rd B.DEV R.DEV_MODE_TARGET = 5 ∧ t.mode = s.mode ∧
          t.modes.fetchPaused = true ∧ (t.tag q).cur = some c) ∧
      (c.u8 8 = 3 → s.mode ∈ [.priming, .flowing] → s.modes.waiting = [] → (∀ x ∈ s.cross, keyDom x.key = 0) →
        Gives (.modeSet q) s fun t => t.mode = .trickle ∧ t.busy = false ∨ t.busy = true ∧ t.rd B.DEV R.DEV_MODE_TARGET = 3) ∧
      (c.u8 8 = 2 → s.mode = .trickle → s.failedChecks ≠ 0 →
        Gives (.modeSet q) s (Ends q 0x0030 [BitVec.ofNat 8 s.failedChecks] s)) ∧
      (c.u8 8 = 2 → s.mode = .priming → s.modes.stepFault = true → Gives (.modeSet q) s (Ends q 0x0030 [0x10] s)) ∧
      (c.u8 8 = 2 → s.mode = .priming → s.modes.stepFault = false → s.primingRuns = true →
        Gives (.modeSet q) s fun t => Ends q 0x0050 [] { s with freeCtr := s.freeCtr + 1 } t ∧
          ∃ r, (t.tag q).fin.map (·.retry) = some r ∧ 10000 ≤ r) ∧
      (c.u8 8 = 2 → s.mode = .priming → s.modes.stepFault = false → s.primingRuns = false → s.modes.toPower = [] →
        s.modes.waiting = [] → s.modes.forced = false → s.jobs = [] → s.cross = [] →
        (match q with | .host m _ => s.configured (domHP m) = true | .core n => s.configured (domCL n) = true) →
        Gives (.modeSet q) s fun t => t.mode = .flowing ∧ t.busy = false ∧ t.domOn 79 = false ∧ t.jobs = [] ∧
          (t.tag q).cur = none ∧ (t.tag q).fin.map (·.status) = some 0))) ∧
  (∀ (q : Req) (s : State) (c : Cmd), s.holds q 0x0702 c →
    (s.busy = false → s.modes.forced = false → s.mode ∈ [.priming, .flowing, .trickle, .survey] →
      Gives (.warmReset q) s fun t => t.mode = .priming ∧ t.busy = false ∧ t.jobs = [] ∧ t.cross = [] ∧
        t.flag B.DEV (if s.mode = .survey then R.DEV_RESET_CAUSE_WARM_SURVEY else R.DEV_RESET_CAUSE_WARM_CMD) = true) ∧
    (s.busy = false → s.mode ∈ [.fallow, .drain] → Gives (.warmReset q) s (Ends q 0 [] s)) ∧
    (s.busy = true → Gives (.warmReset q) s
      (Ends q 0 [] { s with modes := { s.modes with waiting := s.modes.waiting ++ [Trigger.warm false] } }))) ∧
  (∀ (q : Req) (s s' : State) (c : Cmd) (d : Nat), s.holds q 0x0703 c → d = c.u8 8 →
    s' = (if d = 79 then s.endLongReach else s) →
    (d = 0 ∨ 80 ≤ d ∨ 2 ≤ c.u8 9 → Gives (.domainSet q) s (Ends q 0x0012 [] s)) ∧
    (1 ≤ d → d < 80 →
      (c.u8 9 = bit (s.domOn d) → Gives (.domainSet q) s (Ends q 0 [] s')) ∧
      (c.u8 9 = 0 → s.domOn d = true → s.neededBy d = false → s.carries d = false →
        (match q with | .host m _ => d ≠ domHP m | .core n => d ≠ domCL n) → (∀ x ∈ s.cross, keyDom x.key ≠ d) →
        Gives (.domainSet q) s (Ends q 0 [] (s'.switchOff d))) ∧
      (c.u8 9 = 0 → s.domOn d = true → s.neededBy d = true ∨ s.carries d = true →
        Gives (.domainSet q) s (Ends q 0x0012 [] s')) ∧
      (c.u8 9 = 1 → s.domOn d = false → s.needsOn d = false → Gives (.domainSet q) s (Ends q 0x0012 [] s')) ∧
      (c.u8 9 = 1 → s.domOn d = false → s.needsOn d = true → s.modes.toPower = [] → Gives (.domainSet q) s fun t =>
        t.modes = { s.modes with toPower := [d] } ∧ t.tags = s.tags ∧
        t.jobs = s.jobs ++ [{ q := q, mgen := s.mgen q, opcode := 0x0703, obj := d, due := 0, st := 0, data := [] }] ∧
        t = { s' with modes := t.modes, jobs := t.jobs, timers := t.timers }) ∧
      (c.u8 9 = 1 → s.domOn d = false → s.needsOn d = true → Gives (.domainSet q) s fun t => d ∈ t.modes.toPower ∧
        ⟨q, s.mgen q, 0x0703, d, 0, 0, []⟩ ∈ t.jobs))) ∧
  (∀ (q : Req) (s : State) (c : Cmd), s.holds q 0x0704 c →
    (c.u8 8 ≤ 2 ∧ 1000 ≤ c.u16 10 ∧ c.u16 10 ≤ 3400 ∧ 1000 ≤ c.u16 12 ∧ c.u16 12 ≤ 3400 ∧ c.u8 14 ≤ 100 ∧
      250 ≤ c.u16 16 ∧ c.u16 16 ≤ 600 → Gives (.govSet q) s (Ends q 0 [] (((((s.wr B.PACE R.PACE_CTRL_POLICY (c.u8 8)).wr
        B.PACE R.PACE_TARGET_TARGET (c.u16 10)).wr B.PACE R.PACE_FOLLOW_FLOOR (c.u16 12)).wr B.PACE R.PACE_FOLLOW_HEADROOM
        (c.u8 14)).wr B.PACE R.PACE_CAP_CAP (c.u16 16)))) ∧
    (2 < c.u8 8 ∨ c.u16 10 < 1000 ∨ 3400 < c.u16 10 ∨ c.u16 12 < 1000 ∨ 3400 < c.u16 12 ∨ 100 < c.u8 14 ∨ c.u16 16 < 250 ∨
      600 < c.u16 16 → Gives (.govSet q) s (Ends q 0x0012 [] s))) ∧
  (∀ (q : Req) (s : State) (c : Cmd) (w : Nat), s.holds q 0x0705 c →
    w = (if 1 ≤ c.u8 8 then 0x100 + c.u8 9 else 0) + (if 2 ≤ c.u8 8 then 0x100_0000 + 0x1_0000 * c.u8 10 else 0) →
    (c.u8 8 ≤ 2 → (1 ≤ c.u8 8 → s.uplinkOk (c.u8 9) = true) → (2 ≤ c.u8 8 → s.uplinkOk (c.u8 10) = true) →
      (s.mode ≠ .trickle → Gives (.trickleUplinks q) s (Ends q 0 [] (s.wrW 0x1C w))) ∧
      (s.mode = .trickle → s.modes.toPower = [] → s.domOn 0 = true → (∀ x ∈ s.cross, keyDom x.key = 0) →
        Gives (.trickleUplinks q) s fun t => t.reg 0x1C = BitVec.ofNat 32 w ∧ (t.tag q).cur = none ∧
          (t.tag q).fin.map (·.status) = some 0 ∧ ∀ d, 29 ≤ d → d < 53 → t.inTrickleSet d = false → t.domOn d = false)) ∧
    (2 < c.u8 8 ∨ 1 ≤ c.u8 8 ∧ s.uplinkOk (c.u8 9) = false ∨ 2 ≤ c.u8 8 ∧ s.uplinkOk (c.u8 10) = false →
      Gives (.trickleUplinks q) s (Ends q 0x0012 [] s))) ∧
  (∀ (q : Req) (s : State) (c : Cmd), s.holds q 0x0706 c →
    (c.u8 8 = 0 → c.u8 9 < 16 → s.domOn (1 + c.u8 9) = true → (∀ x ∈ s.cross, keyDom x.key ≠ 1 + c.u8 9) →
      Gives (.pipeReset q) s fun t => (t.pipe (c.u8 9)).toks = [] ∧ t.domOn (1 + c.u8 9) = true ∧
        (t.stage (c.u8 9)).pkts = [] ∧ (t.tag q).cur = none ∧ (t.tag q).fin.map (·.status) = some 0) ∧
    (c.u8 8 = 1 → c.u8 9 < 8 → s.domOn (17 + c.u8 9) = true → (∀ x ∈ s.cross, keyDom x.key ≠ 17 + c.u8 9) →
      Gives (.pipeReset q) s fun t => (t.pipe (16 + 2 * c.u8 9)).toks = [] ∧ (t.pipe (17 + 2 * c.u8 9)).toks = [] ∧
        t.domOn (17 + c.u8 9) = true ∧ (t.tag q).cur = none ∧ (t.tag q).fin.map (·.status) = some 0) ∧
    (c.u8 8 = 0 ∧ 16 ≤ c.u8 9 ∨ c.u8 8 = 1 ∧ 8 ≤ c.u8 9 ∨ 2 ≤ c.u8 8 ∨ c.u8 8 = 0 ∧ s.domOn (1 + c.u8 9) = false ∨
      c.u8 8 = 1 ∧ s.domOn (17 + c.u8 9) = false → Gives (.pipeReset q) s (Ends q 0x0012 [] s))) ∧
  (∀ (q : Req) (s : State) (c : Cmd), s.holds q 0x0707 c →
    Gives (.healthCheck q) s (Ends q 0 [BitVec.ofNat 8 s.failedChecks] s))

/-- R82 to R88, R468: Fallow moves on to Priming; a step that ends within its bound lets those that wait for it start, one that
fails or ends late raises the Degrading fault of source 6; Priming ends as the boot configuration says. -/
def Obligations.PrimingEvents : Prop :=
  (∀ (s : State), s.mayPrime = true → s.modes.forced = false → s.jobs = [] → Gives .primingEntry s fun t =>
    t.mode = .priming ∧ t.busy = false ∧ t.modes.stepFault = false ∧
    t.modes.toPower = s.skipUnneeded (onOrder.filter fun d => (s.configured d || d = 79) && !s.domOn d) ∧
    (s.rd B.PACE R.PACE_STATUS_VREQ = 0 → s.flag B.PACE R.PACE_FLAGS_AVS_LOST = false →
      t.out = s.out ++ [.avs (s.clampV (s.rd B.PACE R.PACE_VLIMIT_VMIN))]) ∧
    (s.rd B.PACE R.PACE_STATUS_VREQ ≠ 0 → t.out = s.out ∧ t.rd B.PACE R.PACE_STATUS_VREQ = s.rd B.PACE R.PACE_STATUS_VREQ) ∧
    t = { s with regs := t.regs, modes := t.modes, gov := t.gov, out := t.out, timers := t.timers }) ∧
  (∀ (s : State), s.mayPrime = false → exec .primingEntry s = .next s) ∧
  (∀ (s : State), stepState s.modes.steps .calibration = some .running → s.settledMode →
    s.gov.calTable.any (fun e => e.1 = s.clampV s.vCeil) = true → s.stepLate .calibration = false →
    Gives (.primingStepDone .calibration true) s fun t =>
      t.modes = { s.modes with steps := startSteps (setStep s.modes.steps .calibration .done) } ∧
      t = { s with modes := t.modes, timers := t.timers }) ∧
  (∀ (s : State) (k : Step), stepState s.modes.steps k = some .running → s.settledMode → s.mild 6 →
    Gives (.primingStepDone k false) s fun t => t.modes.stepFault = true ∧ t.sticky 6 = true ∧ t.mode = s.mode ∧
      t.modes.steps = startSteps (setStep s.modes.steps k .failed)) ∧
  (∀ (s : State) (k : Step), stepState s.modes.steps k = some .running → s.settledMode → s.mild 6 → k ≠ .domains →
    s.stepLate k = true → Gives (.primingStepTimeout k) s fun t => t.modes.stepFault = true ∧ t.sticky 6 = true ∧
      t.mode = s.mode ∧ t.modes.steps = startSteps (setStep s.modes.steps k .failed)) ∧
  (∀ (s : State) (k : Step), k ≠ .domains → s.stepLate k = false → exec (.primingStepTimeout k) s = .next s) ∧
  (∀ (s : State) (b : Nat) (k : Step), (k, b) ∈ [(Step.calibration, ms 3), (.hbmTraining, ms 3000), (.marchTest, ms 16000),
      (.load, ms 1000)] → ∀ t, s.last (Tm.step k) = some t → (s.stepLate k = true ↔ t + b < s.now)) ∧
  (∀ (s : State), exec (.primingStepTimeout .restore) s = .next s) ∧
  (∀ (s : State), s.mode = .priming → s.settledMode → s.lcState ≠ 4 → (∀ e ∈ s.modes.steps, e.2 = .done) → s.modes.toPower = [] →
    s.cross = [] →
    (s.surveyAtBoot = false → s.flag B.DEV R.DEV_BOOT_CFG_AUTO_FLOW = true → Gives .primingComplete s fun t =>
      t.mode = .flowing ∧ t.domOn 79 = false ∧ t.flag B.SEC R.SEC_LOCK_LCLOCK = true) ∧
    (s.surveyAtBoot = true → s.domOn 79 = true → Gives .primingComplete s fun t =>
      t.mode = .survey ∧ t.modes.fetchPaused = true ∧ t.flag B.SEC R.SEC_LOCK_LCLOCK = true)) ∧
  (∀ (s : State), s.mode ≠ .priming ∨ s.busy = true ∨ s.lcState = 4 ∨ (∃ e ∈ s.modes.steps, e.2 ≠ .done) ∨
    s.surveyAtBoot = false ∧ s.flag B.DEV R.DEV_BOOT_CFG_AUTO_FLOW = false → exec .primingComplete s = .next s) ∧
  (∀ (s : State), Gives .mainPgRise s fun t => t.flag B.PWR R.PWR_PINS_MAIN_PG = true ∧ t.modes.pgAt = some s.now ∧
    t.flag B.PWR R.PWR_PINS_POWER_FAIL_N = decide (s.modes.pfLowUntil ≤ s.now) ∧
    t = { s with regs := t.regs, modes := { s.modes with pgAt := some s.now } })

/-- R85, R103 to R105, R455: resets and Drain. A warm reset ends in Priming with its cause recorded, and waits for a transition
that runs; a cold reset leaves the life-cycle store, the images and the vault; POWER_FAIL_N low for 1 µs is a Drain trigger,
whatever else is in progress, and below 200 ns nothing; in Drain only PD0, PD65, PD74 and PD75 can be on. -/
def Obligations.ResetEvents : Prop :=
  (∀ (c : WarmCause) (s : State), s.busy = false → s.modes.forced = false → s.mode ∈ [.priming, .flowing, .trickle, .survey] →
    Gives (.deviceWarmReset c) s fun t => t.mode = .priming ∧ t.busy = false ∧ t.jobs = [] ∧ t.qps = [] ∧
      t.flag B.DEV (if c = .fatal then R.DEV_RESET_CAUSE_WARM_FATAL
        else if s.mode = .survey then R.DEV_RESET_CAUSE_WARM_SURVEY else R.DEV_RESET_CAUSE_WARM_CMD) = true ∧
      t.vault = s.vault ∧ t.now = s.now) ∧
  (∀ (c : WarmCause) (s : State), s.busy = true → exec (.deviceWarmReset c) s = .next { s with modes :=
    { s.modes with waiting := s.modes.waiting ++ [Trigger.warm (decide (c = .fatal))] } }) ∧
  (∀ (s : State), s.busy = false → s.mode = .drain → exec (.deviceWarmReset .fatal) s =
    .next { s with modes := { s.modes with fatalAfter := true } }) ∧
  (∀ (c : ColdCause) (s : State), Gives (.coldReset c) s fun t => t.mode = .fallow ∧
    (∀ d, d < 80 → t.domOn d = decide (d = 0)) ∧ t.flag B.DEV R.DEV_RESET_CAUSE_COLD = true ∧
    t.latched = (s.latched && decide (c ≠ .auxPower)) ∧ t.vault = s.vault ∧ t.sec.otp = s.sec.otp ∧ t.sec.nor = s.sec.nor ∧
    t.tags = [] ∧ t.jobs = [] ∧ t.pipes = [] ∧ t.qps = [] ∧ t.cnts = [] ∧ t.now = 0) ∧
  (∀ (s : State), s.mode ∈ [.priming, .flowing, .trickle, .survey] → s.flag B.PWR R.PWR_PINS_MAIN_PG = true →
    (s.dirtyBlocks ≠ 0 → Gives .sysResetLow s fun t => t.mode = .drain ∧ t.modes.resetAfter = true ∧
      ∀ d, d < 80 → t.domOn d = true → d ∈ [0, 65, 74, 75]) ∧
    (s.dirtyBlocks = 0 → Gives .sysResetLow s fun t => t.mode = .fallow ∧ t.vault = s.vault)) ∧
  (∀ (n : Nat) (s : State), 1000 ≤ n → s.mode ∈ [.priming, .flowing, .trickle, .survey] →
    Gives (.powerFail n) s fun t => t.mode = .drain ∧ t.busy = false ∧ t.flag B.DEV R.DEV_RESET_CAUSE_DRAIN_POWER = true ∧
      t.flag B.DEV R.DEV_MODE_WRITEBACK = false ∧ t.modes.pfLowUntil = s.now + n ∧ t.flag B.PWR R.PWR_PINS_POWER_FAIL_N = false ∧
      ∀ d, d < 80 → t.domOn d = true → d ∈ [0, 65, 74, 75]) ∧
  (∀ (n : Nat) (s : State), n < 200 → exec (.powerFail n) s = .next s) ∧
  (∀ (n : Nat) (s : State), 1000 ≤ n → s.mode = .drain → Gives (.powerFail n) s fun t => t.mode = .drain ∧
    t.silo = s.silo ∧ t.vault = s.vault)


/-! ### Ethernet ports (chapter 5) -/

/-- R113, Table 5.3, R117 to R119: the first check that a frame fails decides its one counter; a PAUSE or PFC frame of the
enabled mode sets the pause of its classes to its quanta of 512 bit times; a frame that fails none is staged for its
headrace. What FEC counts beside it is a free value (assumption 85). A pause ends with its quanta; a pause that the port has
sent is sent again, each half of its time. -/
def Obligations.EthernetReceive : Prop :=
  (∀ (p : Port) (l : List Byte) (e o : Bool) (s : State), s.portUp p = true → s.flag B.PMC R.PMC_CTRL_FREEZE = false →
    let counts (c : Nat) : Prop := Gives (.frameReceive p l e o) s (FrameCounted s · p e c)
    (e = true → counts C.ETH_RX_PCS_ERR) ∧
    (e = false → l.length < 64 → counts C.ETH_RX_RUNT) ∧
    (e = false → 64 ≤ l.length → s.rd (portBase p) R.ETH_PORT_CFG_MAX_FRAME < l.length → counts C.ETH_RX_OVERSIZE) ∧
    (e = false → 64 ≤ l.length → l.length ≤ s.rd (portBase p) R.ETH_PORT_CFG_MAX_FRAME →
      (fcsGood l = false → counts C.ETH_RX_FCS_ERR) ∧
      (fcsGood l = true → u16At l 12 = 0x8808 →
        ¬ (u16At l 14 = 0x0001 ∧ s.rd (portBase p) R.ETH_PORT_CFG_FC = 1) →
        ¬ (u16At l 14 = 0x0101 ∧ s.rd (portBase p) R.ETH_PORT_CFG_FC = 2) → counts C.ETH_RX_CTRL_DROP) ∧
      (fcsGood l = true → u16At l 12 = 0x8808 → u16At l 14 = 0x0101 → s.rd (portBase p) R.ETH_PORT_CFG_FC = 2 →
        Gives (.frameReceive p l e o) s fun t =>
          t = { s with regs := t.regs, cnts := t.cnts, freeCtr := t.freeCtr, eth := { s.eth with pauseEnd := t.eth.pauseEnd } } ∧
          t.cnt (portCnt p C.ETH_RX_PAUSE) = (s.cnt (portCnt p C.ETH_RX_PAUSE) + 1) % 2 ^ 64 ∧
          ∀ c, c < 8 → tget (fun _ => 0) t.eth.pauseEnd (8 * p + c) =
            if bitOf (u16At l 16) c && bitOf (s.rd (portBase p) R.ETH_PORT_CFG_PFC_EN) c then
              (if u16At l (18 + 2 * c) = 0 then 0
               else s.now + s.pauseTime p (u16At l (18 + 2 * c)))
            else tget (fun _ => 0) s.eth.pauseEnd (8 * p + c)) ∧
      (fcsGood l = true → u16At l 12 = 0x8808 → u16At l 14 = 0x0001 → s.rd (portBase p) R.ETH_PORT_CFG_FC = 1 →
        Gives (.frameReceive p l e o) s fun t =>
          t = { s with regs := t.regs, cnts := t.cnts, freeCtr := t.freeCtr, eth := { s.eth with pauseEnd := t.eth.pauseEnd } } ∧
          t.cnt (portCnt p C.ETH_RX_PAUSE) = (s.cnt (portCnt p C.ETH_RX_PAUSE) + 1) % 2 ^ 64 ∧
          ∀ c, c < 8 → tget (fun _ => 0) t.eth.pauseEnd (8 * p + c) = if u16At l 16 = 0 then 0
            else s.now + s.pauseTime p (u16At l 16)) ∧
      (fcsGood l = true → u16At l 12 ≠ 0x8808 → s.flag (portBase p) R.ETH_PORT_CFG_MACSEC = true →
        u16At (bodyOf l) 12 ≠ 0x88E5 →
        u16At (bodyOf l) 12 ≠ 0x88F7 ∨ s.flag (portBase p) R.ETH_PORT_CFG_PTP_CLEAR = false → counts C.ETH_RX_MACSEC_DROP) ∧
      (fcsGood l = true → u16At l 12 ≠ 0x8808 → s.flag (portBase p) R.ETH_PORT_CFG_MACSEC = false → s.mode = .trickle →
        o = true → bitOf (s.pfcMask p) (frameClass (bodyOf l)) = false → counts C.ETH_RX_LIMIT_DROP) ∧
      (fcsGood l = true → u16At l 12 ≠ 0x8808 → s.flag (portBase p) R.ETH_PORT_CFG_MACSEC = false →
        s.mode ≠ .trickle ∨ o = false → (s.stage (s.rxHeadrace p (bodyOf l))).cells + cellsOf (l.length - 4) ≤ 6656 ∨
          bitOf (s.pfcMask p) (frameClass (bodyOf l)) = true →
        Gives (.frameReceive p l e o) s fun t =>
          t = { s with cnts := t.cnts, freeCtr := t.freeCtr, staging := t.staging, out := t.out, arrivals := t.arrivals,
                       timers := t.timers, eth := { s.eth with xoffSent := t.eth.xoffSent } } ∧
          t.cnt (portCnt p C.ETH_RX_FRAMES) = (s.cnt (portCnt p C.ETH_RX_FRAMES) + 1) % 2 ^ 64 ∧
          t.cnt (portCnt p C.ETH_RX_OCTETS) = (s.cnt (portCnt p C.ETH_RX_OCTETS) + l.length) % 2 ^ 64 ∧
          (∀ h, h ≠ s.rxHeadrace p (bodyOf l) → t.stage h = s.stage h) ∧
          (t.stage (s.rxHeadrace p (bodyOf l))).cells =
            (s.stage (s.rxHeadrace p (bodyOf l))).cells + cellsOf (l.length - 4) ∧
          ∃ k, (t.stage (s.rxHeadrace p (bodyOf l))).pkts = (s.stage (s.rxHeadrace p (bodyOf l))).pkts ++ [k] ∧
            k.data = bodyOf l ∧ k.org = .eth p))) ∧
  (∀ (p : Port) (c : Fin 8) (s : State),
    (tget (fun _ => 0) s.eth.pauseEnd (8 * p + c) ≠ 0 → tget (fun _ => 0) s.eth.pauseEnd (8 * p + c) ≤ s.now →
      Gives (.pauseExpiry p c) s fun t => t = { s with regs := t.regs, eth := { s.eth with pauseEnd := t.eth.pauseEnd } } ∧
        ∀ k, tget (fun _ => 0) t.eth.pauseEnd k = if k = 8 * p + c then 0 else tget (fun _ => 0) s.eth.pauseEnd k) ∧
    (s.now < tget (fun _ => 0) s.eth.pauseEnd (8 * p + c) → exec (.pauseExpiry p c) s = .next s)) ∧
  (∀ (p : Port) (s : State),
    (tget (fun _ => 0) s.eth.xoffSent p ≠ 0 → s.portUp p = true → s.flag B.PMC R.PMC_CTRL_FREEZE = false →
      s.due (Tm.pause p) (s.pauseTime p 0xFFFF / 2) = true → Gives (.pfcRepeat p) s fun t =>
        t = { s with out := s.out ++ [Out.pause p (tget (fun _ => 0) s.eth.xoffSent p) 0xFFFF], cnts := t.cnts, timers := t.timers } ∧
        t.last (Tm.pause p) = some s.now ∧ t.cnt (portCnt p C.ETH_TX_PAUSE) = (s.cnt (portCnt p C.ETH_TX_PAUSE) + 1) % 2 ^ 64 ∧
        ∀ a, a ≠ portCnt p C.ETH_TX_PAUSE → t.cnt a = s.cnt a) ∧
    (tget (fun _ => 0) s.eth.xoffSent p = 0 ∨ s.portUp p = false ∨ s.due (Tm.pause p) (s.pauseTime p 0xFFFF / 2) = false →
      exec (.pfcRepeat p) s = .next s))

/-- R114, R116, R121 to R124: a link that goes down is counted, a frame under way is ended, its queues are flushed and source 0
of its lane group rises; a link comes up once its alignment has held for 1 ms, lets its lanes' clocks out of squelch, and stays
down while its module is held in low power. A module within MOD_BUDGET is released, another is not and source 2 rises; an
overcurrent cuts the feed, and a stuck segment is clocked free up to three times and then isolated, each with source 1. -/
def Obligations.EthernetLinks : Prop :=
  (∀ (p : Port) (r h : Bool) (s : State), s.portUp p = true → s.flag B.PMC R.PMC_CTRL_FREEZE = false →
    s.mild (176 + 4 * portLG p) → Gives (.linkDown p r h) s fun t =>
      t = { s with regs := t.regs, cnts := t.cnts, eth := { s.eth with xoffSent := t.eth.xoffSent, txEnd := t.eth.txEnd },
                   egr := t.egr, qps := t.qps, weir := t.weir, pipes := t.pipes, timers := t.timers, flt := t.flt, mem := t.mem,
                   out := t.out, links := t.links, fns := t.fns } ∧
      t.portUp p = false ∧ t.flag (portBase p) R.ETH_PORT_STATUS_ALIGNED = r ∧
      t.flag (portBase p) R.ETH_PORT_STATUS_REMOTE_FAULT = r ∧ t.flag (portBase p) R.ETH_PORT_STATUS_HI_BER = h ∧
      t.flag (portBase p) R.ETH_PORT_STATUS_AN_DONE = false ∧
      t.cnt (portCnt p C.ETH_LINK_DOWN) = (s.cnt (portCnt p C.ETH_LINK_DOWN) + 1) % 2 ^ 64 ∧
      (t.cnt (portCnt p C.ETH_TX_ABORT) = (s.cnt (portCnt p C.ETH_TX_ABORT) + bit (s.sending p)) % 2 ^ 64 ∨
        s.sending p = false ∧ t.cnt (portCnt p C.ETH_TX_ABORT) = s.cnt (portCnt p C.ETH_TX_ABORT)) ∧
      (s.sending p = true → (Out.abort p.val) ∈ t.out) ∧
      t.sticky (176 + 4 * portLG p) = true ∧
      ∀ k, k < 16 → (t.egress k).q = (s.egress k).q.filter fun x => !(bitsOf x.dest 31 30 = 0 && bitsOf x.dest 11 0 = p.val)) ∧
  (∀ (p : Port) (cu : Bool) (s : State), s.portOn p = true → s.portUp p = false →
    (s.moduleOk p = true → s.due (Tm.unaligned p) (ms 1) = true →
      Gives (.linkUp p cu) s fun t => t = { s with
          regs := t.regs, eth := { s.eth with squelched := t.eth.squelched, xoffSent := t.eth.xoffSent },
          tim := { s.tim with cal := t.tim.cal }, freeCtr := t.freeCtr, timers := t.timers, out := t.out, cnts := t.cnts } ∧
        t.portUp p = true ∧ t.flag (portBase p) R.ETH_PORT_STATUS_ALIGNED = true ∧
        t.flag (portBase p) R.ETH_PORT_STATUS_AN_DONE = cu ∧ t.flag (portBase p) R.ETH_PORT_STATUS_REMOTE_FAULT = false ∧
        (∀ a, a ≠ portBase p + R.ETH_PORT_STATUS_LINK_UP.off → t.reg a = s.reg a) ∧
        ∀ l, l ∈ t.eth.squelched ↔ l ∈ s.eth.squelched ∧ ¬ (p ≤ l ∧ l < p + s.portWidth p)) ∧
    (s.moduleOk p = false ∨ s.due (Tm.unaligned p) (ms 1) = false → exec (.linkUp p cu) s = .next s)) ∧
  (∀ (l : Fin 96) (s : State),
    (l.val ∈ s.eth.squelched → Gives (.laneSignalLoss l) s fun t => t = { s with timers := t.timers }) ∧
    (l.val ∉ s.eth.squelched → Gives (.laneSignalLoss l) s fun t =>
      t = { s with timers := t.timers, eth := { s.eth with squelched := s.eth.squelched ++ [l.val] } }) ∧
    (∀ p, s.portOfLane l = some p → Gives (.laneSignalLoss l) s fun t => t.last (Tm.unaligned p) = some s.now)) ∧
  (∀ (g : LaneGroup) (w : Nat) (s : State), s.domOn (29 + g) = true →
    (s.module g = none → w ≤ s.rd (B.ETH g) R.ETH_MOD_CFG_MOD_BUDGET → s.rd (B.ETH g) R.ETH_MOD_CFG_MOD_BUDGET ≠ 0 →
      Gives (.moduleInserted g w) s fun t =>
        t = { s with regs := t.regs, eth := { s.eth with released := t.eth.released, cages := t.eth.cages },
                     out := s.out ++ [.pin (mmPin g "PWR_EN") true, .pin (mmPin g "LPM") false] } ∧ t.module g = some w ∧
        t.flag (B.ETH g) R.ETH_MOD_STATUS_PRESENT = true ∧ t.flag (B.ETH g) R.ETH_MOD_STATUS_FEED_ON = true ∧
        t.flag (B.ETH g) R.ETH_MOD_STATUS_TRIP = false ∧ t.flag (B.ETH g) R.ETH_MOD_STATUS_ISOLATED = false ∧
        (∀ a, a ≠ B.ETH g + R.ETH_MOD_STATUS_PRESENT.off → t.reg a = s.reg a) ∧
        ∀ k, k ∈ t.eth.released ↔ k = g.val ∨ k ∈ s.eth.released) ∧
    (s.module g = none → s.rd (B.ETH g) R.ETH_MOD_CFG_MOD_BUDGET < w → s.mild (176 + 4 * g) → s.mild (178 + 4 * g) →
      Gives (.moduleInserted g w) s fun t => t.flag (B.ETH g) R.ETH_MOD_STATUS_PRESENT = true ∧
        t.sticky (178 + 4 * g) = true ∧ g.val ∉ t.eth.released ∧ ∀ k, k < 4 → t.portUp (4 * g + k) = false) ∧
    (s.module g ≠ none → exec (.moduleInserted g w) s = .next s) ∧
    (s.module g ≠ none → Gives (.moduleRemoved g) s fun t =>
        t = { s with regs := t.regs, eth := { s.eth with released := t.eth.released, cages := t.eth.cages },
                     out := s.out ++ [.pin (mmPin g "PWR_EN") false] } ∧ t.module g = none ∧
        t.flag (B.ETH g) R.ETH_MOD_STATUS_PRESENT = false ∧ t.flag (B.ETH g) R.ETH_MOD_STATUS_FEED_ON = false ∧
        (∀ a, a ≠ B.ETH g + R.ETH_MOD_STATUS_PRESENT.off → t.reg a = s.reg a) ∧
        ∀ k, k ∈ t.eth.released ↔ k ≠ g.val ∧ k ∈ s.eth.released) ∧
    (s.module g = none → exec (.moduleRemoved g) s = .next s) ∧
    (s.flag (B.ETH g) R.ETH_MOD_STATUS_FEED_ON = true → s.mild (177 + 4 * g) →
      Gives (.moduleOvercurrent g) s fun t => t.flag (B.ETH g) R.ETH_MOD_STATUS_FEED_ON = false ∧
        t.flag (B.ETH g) R.ETH_MOD_STATUS_TRIP = true ∧ t.sticky (177 + 4 * g) = true ∧
        t = { s with regs := t.regs, cnts := t.cnts, flt := t.flt, mem := t.mem, out := t.out, links := t.links, fns := t.fns }) ∧
    (∀ n, 3 ≤ n → s.flag (B.ETH g) R.ETH_MOD_STATUS_ISOLATED = false → s.mild (177 + 4 * g) →
      Gives (.moduleI2cStuck g n) s fun t => t.flag (B.ETH g) R.ETH_MOD_STATUS_ISOLATED = true ∧
        t.sticky (177 + 4 * g) = true ∧
        t = { s with regs := t.regs, cnts := t.cnts, flt := t.flt, mem := t.mem, out := t.out, links := t.links, fns := t.fns }) ∧
    (∀ n, n < 3 → s.flag (B.ETH g) R.ETH_MOD_STATUS_ISOLATED = false → exec (.moduleI2cStuck g n) s = .next { s with
      out := s.out ++ (List.replicate (n + 1) ((List.replicate 9 "SCL" ++ ["STOP", "RETRY"]).map (Out.segment g))).flatten }) ∧
    (∀ n, s.flag (B.ETH g) R.ETH_MOD_STATUS_ISOLATED = true → exec (.moduleI2cStuck g n) s = .next s))


/-! ### The Husker (chapter 6) -/

/-- R126 to R128, R132, R138 to R140, R142, R143: the Husker takes the oldest staged packet, counts it and its END code, and
hands it to G0 with the carry of Table 6.9, where it starts at once in an idle headrace, or drops it where the action of its END code is DROP; LR_ACTIVE follows its
three conditions; the graph memory is written and read entry by entry, and refused where R143 says. -/
def Obligations.HuskerParsing : Prop :=
  (∀ (h : Headrace) (k : Pkt) (ks : List Pkt) (s : State) (e : ParseEnd), s.domOn (1 + h) = true → s.roomAtG0 h = true →
    s.forwarding = true → (s.stage h).pkts = k :: ks → s.flag B.PMC R.PMC_CTRL_FREEZE = false → e = s.parse h k →
    e.code ≠ 8 →
    (s.parseAction h e.code ≠ 0 → Gives (.packetParse h none []) s fun t =>
      t = { s with cnts := t.cnts, flt := t.flt, qps := t.qps, staging := t.staging, out := t.out, pipes := t.pipes,
                   timers := t.timers, regs := t.regs, eth := { s.eth with xoffSent := t.eth.xoffSent } } ∧
      (∀ a, a ≠ B.PIPE h + R.ABORT_ACTIVE.off → t.reg a = s.reg a) ∧
      t.cnt (B.HUSK h + C.HUSK_PARSED) = (s.cnt (B.HUSK h + C.HUSK_PARSED) + 1) % 2 ^ 64 ∧
      (e.code ≠ 0 → t.cnt (B.HUSK h + C.HUSK_END_BEYOND + 8 * (e.code - 1)) =
        (s.cnt (B.HUSK h + C.HUSK_END_BEYOND + 8 * (e.code - 1)) + 1) % 2 ^ 64) ∧
      (t.stage h).pkts = ks ∧ (∀ g, g ≠ h.val → t.stage g = s.stage g ∧ t.pipe g = s.pipe g) ∧
      ∃ l x, (t.pipe h).toks = l ++ [x] ∧ l.length = (s.pipe h).toks.length ∧ x.pkt.data = k.data ∧ x.gate = 0 ∧
        (x.st = .entrance ∨ x.st = .lane) ∧
        ((s.pipe h).toks = [] → x.st = .lane ∧ x.pc = s.entryWord h 0 (s.huskBank h)) ∧ x.lr = s.lrActive h ∧ x.bank = s.huskBank h ∧
        (∀ p, k.org = .eth p → p < 96 → Carry.srcKind x.carry = 0 ∧ Carry.srcNum x.carry = p ∧
          Carry.len x.carry = (k.data.length + 4) % 2 ^ 16 ∧ Carry.endCode x.carry = e.code ∧
          Carry.hcount x.carry = e.p.stack.length)) ∧
    (s.parseAction h e.code = 0 → Gives (.packetParse h none []) s fun t =>
      t = { s with cnts := t.cnts, flt := t.flt, qps := t.qps, staging := t.staging, out := t.out, pipes := t.pipes,
                   timers := t.timers, regs := t.regs, eth := { s.eth with xoffSent := t.eth.xoffSent } } ∧
      (t.pipe h).toks.length = (s.pipe h).toks.length ∧
      t.cnt (B.HUSK h + C.HUSK_DROPPED) = (s.cnt (B.HUSK h + C.HUSK_DROPPED) + 1) % 2 ^ 64 ∧
      (t.stage h).pkts = ks)) ∧
  (∀ (h : Headrace) (s : State), (s.stage h).pkts = [] → exec (.packetParse h none []) s = .next s) ∧
  (∀ (h : Headrace) (s : State) (k : Pkt) (w : Nat), w = s.window h →
    let node := s.graphAt h (graphAddr (s.huskBank h) 0 (s.startNode h (s.huskBank h) k.org))
    s.upset (graphKey h (graphAddr (s.huskBank h) 0 (s.startNode h (s.huskBank h) k.org))) = 0 →
    (k.data.length < bitsOf node 116 109 → (s.parse h k).code = 2) ∧
    (bitsOf node 116 109 ≤ k.data.length → w < bitsOf node 116 109 → (s.parse h k).code = 1) ∧
    (w = if s.flag (B.HUSK h) R.HUSK_STATUS_LR_ACTIVE && s.domOn 79 &&
      decide (s.mode = .priming ∨ s.mode = .trickle ∨ s.mode = .survey) then 1024 else 192)) ∧
  (∀ (h : Headrace) (s : State), s.domOn (1 + h) = true → Gives (.longReachSwitch h) s fun t =>
    t = { s with regs := t.regs } ∧
    t.lrActive h = (s.flag (B.HUSK h) R.HUSK_CFG_LONG_REACH && s.domOn 79 &&
      decide (s.mode = .priming ∨ s.mode = .trickle ∨ s.mode = .survey)) ∧
    ∀ a, a ≠ B.HUSK h + R.HUSK_STATUS_LR_ACTIVE.off → t.reg a = s.reg a) ∧
  (∀ (h : Headrace) (s : State) (a v : Nat), a = (s.reg (B.HUSK h + 0x20)).toNat → v = s.dataRegs (B.HUSK h + 0x30) 4 →
    (s.huskMemOk h = true → Gives (.huskMemWrite h) s fun t =>
      t = { s with micro := { s.micro with graph := t.micro.graph }, upsets := t.upsets, reply := .ok } ∧
      t.graphAt h a = graphTakes (bitsOf a 12 11) (s.graphAt h a) v ∧
      (bitsOf a 12 11 = 1 → bitsOf v 55 54 ≠ 3 → t.graphAt h a = v / 2 ^ 54 * 2 ^ 54) ∧
      ∀ g b, graphKey g b ≠ graphKey h a → t.graphAt g b = s.graphAt g b) ∧
    (s.huskMemOk h = true → Gives (.huskMemRead h) s fun t => t = { s with regs := t.regs, reply := .ok } ∧
      (∀ n, n < 4 → (t.reg (B.HUSK h + 0x30 + 4 * n)).toNat = bitsOf (s.graphAt h a) (32 * n + 31) (32 * n)) ∧
      ∀ b, (∀ n, n < 4 → b ≠ B.HUSK h + 0x30 + 4 * n) → t.reg b = s.reg b) ∧
    (s.mode = .flowing ∨ s.mode = .trickle → bitsOf a 13 13 = s.huskBank h →
      exec (.huskMemWrite h) s = .next { s with reply := .busError } ∧
      exec (.huskMemRead h) s = .next { s with reply := .busError }) ∧
    (bitsOf a 12 11 = 0 ∧ 256 ≤ bitsOf a 10 0 ∨ bitsOf a 12 11 = 2 ∧ 1024 ≤ bitsOf a 10 0 →
      exec (.huskMemWrite h) s = .next { s with reply := .busError } ∧
      exec (.huskMemRead h) s = .next { s with reply := .busError }))


/-! ### Gates and microcode (chapter 7) -/

/-- R149, R151, Table 7.2: the operations that write D; where D touches carry bytes 0 to 5 or 8 to 47, those keep their
value and RO_WRITE counts (R156). R146, R150, R151, R161, Table 7.7: compares set PDST, WREAD reads packet bytes, BR branches,
a disabled word has no effect; a word that cannot be executed drops its token and counts BAD_WORD; an abort takes effect at
a safe point alone. -/
def Obligations.Microwords : Prop :=
  WritesD .mov 0x01 (fun w t => t.b w) ∧ WritesD .add 0x02 (fun w t => t.a w + t.b w) ∧
  WritesD .sub 0x03 (fun w t => t.a w + 2 ^ 64 - t.b w) ∧ WritesD .and 0x04 (fun w t => t.a w &&& t.b w) ∧
  WritesD .or 0x05 (fun w t => t.a w ||| t.b w) ∧ WritesD .xor 0x06 (fun w t => t.a w ^^^ t.b w) ∧
  WritesD .shl 0x07 (fun w t => t.a w * 2 ^ (t.b w % 64)) ∧ WritesD .shr 0x08 (fun w t => t.a w / 2 ^ (t.b w % 64)) ∧
  WritesD .hash 0x11 (fun w t =>
    crcRaw 0x82F63B78 (t.b w % 2 ^ 32) (leBytes ((W.aWid w + 7) / 8) (t.a w)) ^^^ 0xFFFFFFFF) ∧
  (∀ (p : Pipe) (i : Nat) (s : State) (t : Token) (w : Nat), s.atWord p i 0x01 t w → t.enabled w → W.last w = false →
    roTouched (W.dOff w) (W.dWid w) = true → s.flag B.PMC R.PMC_CTRL_FREEZE = false →
    ∃ u t', exec (.mov p i .good) s = .next u ∧ Stepped s u p i t t' ∧
      u = { s with pipes := u.pipes, cnts := u.cnts } ∧
      u.cnt (B.PIPE p + C.GATE_RO_WRITE) = (s.cnt (B.PIPE p + C.GATE_RO_WRITE) + 1) % 2 ^ 64 ∧
      bitsOf t'.carry 47 0 = bitsOf t.carry 47 0 ∧ bitsOf t'.carry 383 64 = bitsOf t.carry 383 64 ∧
      t.apart t' (W.dOff w) (W.dWid w)) ∧
  SetsP .ceq 0x09 (fun a b => a == b) ∧ SetsP .cne 0x0A (fun a b => a != b) ∧ SetsP .clt 0x0B (fun a b => decide (a < b)) ∧
  SetsP .cge 0x0C (fun a b => decide (b ≤ a)) ∧ SetsP .tstm 0x0D (fun a b => (a &&& b) != 0) ∧
  (∀ (p : Pipe) (i : Nat) (s : State) (t : Token) (w : Nat), s.atWord p i 0x12 t w → t.enabled w → W.last w = false →
    roTouched (W.dOff w) (W.dWid w) = false →
    let o := t.a w + bitsOf (W.imm w) 9 0
    let lim := min t.pkt.data.length (if t.lr then 1024 else 192)
    ∃ u t', exec (.wread p i .good) s = .next u ∧ Stepped s u p i t t' ∧ u = { s with pipes := u.pipes } ∧
      (∀ j, j < W.dWid w / 8 → t'.space (W.dOff w + 8 * j) 8 =
        if o + j < lim then (t.pkt.data.getD (o + j) 0).toNat else 0) ∧
      t.apart t' (W.dOff w) (W.dWid w) ∧
      (W.pdst w ≠ 0 → t'.pred (W.pdst w) = decide (o + W.dWid w / 8 ≤ lim))) ∧
  (∀ (p : Pipe) (i : Nat) (s : State) (t : Token) (w : Nat), s.atWord p i 0x10 t w → t.enabled w → W.last w = false →
    exec (.br p i .good) s = .next (s.setTok p i { t.tick (W.halves w) with words := t.words + 1, pc := W.target w })) ∧
  (∀ (p : Pipe) (i : Nat) (s : State) (t : Token) (w : Nat), s.atWord p i 0x00 t w → W.last w = false →
    exec (.nop p i .good) s = .next (s.setTok p i { t.tick (W.halves w) with words := t.words + 1, pc := (t.pc + 1) % 8192 })) ∧
  (∀ x ∈ [(Instr.nop, 0x00), (Instr.mov, 0x01), (Instr.add, 0x02), (Instr.sub, 0x03), (Instr.and, 0x04), (Instr.or, 0x05),
      (Instr.xor, 0x06), (Instr.shl, 0x07), (Instr.shr, 0x08), (Instr.ceq, 0x09), (Instr.cne, 0x0A), (Instr.clt, 0x0B),
      (Instr.cge, 0x0C), (Instr.tstm, 0x0D), (Instr.br, 0x10), (Instr.hash, 0x11), (Instr.wread, 0x12),
      (fun p i e => Instr.lookup p i e .good, 0x18), (Instr.update, 0x19), (Instr.meter, 0x1A), (Instr.count, 0x1B),
      (Instr.learn, 0x1C)],
    ∀ (p : Pipe) (i : Nat) (s : State) (t : Token),
    (∀ w, s.atWord p i x.2 t w → ¬ t.enabled w →
      exec (x.1 p i .good) s = .next (s.setTok p i { t.tick (W.halves w) with words := t.words + 1, pc := (t.pc + 1) % 8192 })) ∧
    (∀ w, s.laneTok p i = some t → s.word (s.wordAtPc p t) = w → s.flag B.PMC R.PMC_CTRL_FREEZE = false →
      (s.upset (upsetWord (s.wordAtPc p t)) = 2 ∨ wordOk (16 ≤ p) t.gate w = false → s.mild (pipeSrc p 1) →
        Gives (x.1 p i .good) s fun u => (u.pipe p).toks.length + 1 = (s.pipe p).toks.length ∧
          u.cnt (B.PIPE p + C.GATE_BAD_WORD) = (s.cnt (B.PIPE p + C.GATE_BAD_WORD) + 1) % 2 ^ 64 ∧
          u.sticky (pipeSrc p 1) = true) ∧
      (s.upset (upsetWord (s.wordAtPc p t)) = 0 → wordOk (16 ≤ p) t.gate w = true → W.op w = x.2 → W.safe w = true →
        t.doomed = true → Gives (x.1 p i .good) s fun u => (u.pipe p).toks.length + 1 = (s.pipe p).toks.length ∧
          u.cnt (B.PIPE p + C.GATE_GATE_ABORT) = (s.cnt (B.PIPE p + C.GATE_GATE_ABORT) + 1) % 2 ^ 64))) ∧
  (∀ (p : Pipe) (s : State) (t : Token) (ts : List Token) (w : Nat), s.atWord p 0 0x00 t w → t.enabled w → W.last w = true →
    t.doomed = false → t.words < s.rd (B.PIPE p) R.G_LIMIT_LIMIT → (s.pipe p).toks = t :: ts → t.gate + 1 < gatesOf p →
    atEntrance ts (t.gate + 1) < 32 → Gives (.nop p 0 .good) s fun u =>
      (u.pipe p).toks.length = ts.length + 1 ∧ (u.pipe p).toks.head?.map (fun x => (x.gate, x.carry)) = some (t.gate + 1, s.carryOut p t))

/-- R152 to R155, R183, R185, R196, R246, Table 7.3: split-phase operations leave a response that is due at DUE; its arrival
writes D and the HITS bit. COUNT, UPDATE and LEARN act on their tables at once. -/
def Obligations.SplitPhase : Prop :=
  (∀ (p : Pipe) (i : Nat) (s : State) (t : Token) (w q : Nat), s.atWord p i 0x18 t w → t.enabled w → W.last w = false →
    q = p % 16 / 4 → W.lt w = 0 →
    (∀ j, s.seedFind q (t.locals_ % 2 ^ 96) = some j → s.upset (upsetSeed (seedKey q j)) ≠ 2 →
      ∃ u t', exec (.lookup p i .good .good) s = .next u ∧ Stepped s u p i t t' ∧
        u = { s with pipes := u.pipes, tbl := { s.tbl with seed := u.tbl.seed }, freeCtr := s.freeCtr + 1 } ∧
        t'.resp = t.resp ++ [⟨W.due w, W.dOff w, W.dWid w, Seed.data (s.seedAt q j) % 2 ^ W.dWid w,
          some (W.pdst w, true), false, false⟩] ∧ t.apart t' (W.dOff w) (W.dWid w)) ∧
    (s.seedFind q (t.locals_ % 2 ^ 96) = none →
      ∃ u t', exec (.lookup p i .good .good) s = .next u ∧ Stepped s u p i t t' ∧
        u = { s with pipes := u.pipes, freeCtr := s.freeCtr + 1 } ∧
        t'.resp = t.resp ++ [⟨W.due w, W.dOff w, W.dWid w, 0, some (W.pdst w, false), false, false⟩])) ∧
  (∀ (p : Pipe) (i : Nat) (s : State) (t : Token) (w : Nat), s.atWord p i 0x18 t w → t.enabled w → W.last w = false →
    W.lt w = 2 → 256 ≤ s.rsvOutstanding p ∨ p.val < 16 ∧ s.due (Tm.rsv p) 2 = false →
    exec (.lookup p i .good .good) s = .next (s.setTok p i (t.tick 2))) ∧
  (∀ (p : Pipe) (i : Nat) (s : State) (t : Token) (w x : Nat), s.atWord p i 0x19 t w → t.enabled w → W.last w = false →
    x = W.sub w → s.rsvOutstanding p < 256 → s.flag B.PMC R.PMC_CTRL_FREEZE = false →
    (∀ j, s.htEn x = true → s.htK x ≤ W.imm w % 8 → W.imm w % 8 ≠ 7 →
      s.slotFind x (t.locals_ % 2 ^ 320 % 2 ^ (64 * s.htK x)) = some j →
      ∃ u t', exec (.update p i .good) s = .next u ∧ Stepped s u p i t t' ∧
        u = { s with pipes := u.pipes, tbl := { s.tbl with slots := u.tbl.slots } } ∧
        Slot.word (u.slot x j) (W.imm w % 8) = t.b w ∧
        (∀ k, k < 8 → k ≠ W.imm w % 8 → Slot.word (u.slot x j) k = Slot.word (s.slot x j) k) ∧
        ∀ y k, slotKey y k ≠ slotKey x j → u.slot y k = s.slot y k) ∧
    (s.domOn 66 = false → ∃ u t', exec (.update p i .good) s = .next u ∧ Stepped s u p i t t' ∧ u = { s with pipes := u.pipes }) ∧
    (s.domOn 66 = true → s.htEn x = false ∨ W.imm w % 8 < s.htK x ∨ W.imm w % 8 = 7 →
      ∃ u t', exec (.update p i .good) s = .next u ∧ Stepped s u p i t t' ∧ u = { s with pipes := u.pipes, cnts := u.cnts } ∧
        u.cnt (htCnt x 0x20) = (s.cnt (htCnt x 0x20) + 1) % 2 ^ 64)) ∧
  (∀ (p : Pipe) (i : Nat) (s : State) (t : Token) (w q n : Nat), s.atWord p i 0x1A t w → t.enabled w → W.last w = false →
    q = p % 16 / 4 → n = t.a w % 2 ^ 18 →
    ∃ u t', exec (.meter p i .good) s = .next u ∧ Stepped s u p i t t' ∧
      u = { s with pipes := u.pipes, tbl := { s.tbl with meters := u.tbl.meters }, freeCtr := s.freeCtr + 1 } ∧
      t'.resp = t.resp ++ [⟨W.due w, W.dOff w, W.dWid w,
        (colourOf (s.refillMeter (s.meter q n)) (t.b w) (W.imm w % 4)).1 % 2 ^ W.dWid w, none, false, false⟩] ∧
      ∀ y k, meterKey y k ≠ meterKey q n → u.meter y k = s.meter y k) ∧
  (∀ (p : Pipe) (i : Nat) (s : State) (t : Token) (w q n : Nat), s.atWord p i 0x1B t w → t.enabled w → W.last w = false →
    q = p % 16 / 4 → n = t.a w % 2 ^ 18 →
    ∃ u t', exec (.count p i .good) s = .next u ∧ Stepped s u p i t t' ∧ u = { s with pipes := u.pipes, cpairs := u.cpairs } ∧
      u.cpair q n = (((s.cpair q n).1 + 1) % 2 ^ 64, ((s.cpair q n).2 + t.b w) % 2 ^ 64) ∧
      ∀ y k, pairKey y k ≠ pairKey q n → u.cpair y k = s.cpair y k) ∧
  (∀ (p : Headrace) (i : Nat) (s : State) (t : Token) (w q key : Nat), s.atWord p i 0x1C t w → t.enabled w → W.last w = false →
    q = p / 4 → key = t.locals_ % 2 ^ 96 → s.flag (B.SEED q) R.SEED_CFG_LEARN_EN = true → s.domOn (25 + q) = true →
    s.flag B.PMC R.PMC_CTRL_FREEZE = false → (∀ e ∈ s.filterOf p, e.1 = key → e.2 + s.lfHold p ≤ s.now) →
    s.mode ≠ .trickle → (s.noticesOf q).length < 3584 →
    ∃ u t', exec (.learn ⟨p, by omega⟩ i .good) s = .next u ∧ Stepped s u p i t t' ∧
      u.cnt (B.SEED q + C.SEED_LEARN_POSTED) = (s.cnt (B.SEED q + C.SEED_LEARN_POSTED) + 1) % 2 ^ 64 ∧
      (u.filterOf p).getLast? = some (key, s.now) ∧
      u.noticesOf q = s.noticesOf q ++ [⟨key, W.imm w % 2, p, bitsOf t.locals_ 191 128, bitsOf t.carry 127 96, 0, false⟩]) ∧
  (∀ (p : Pipe) (i j : Nat) (s : State) (t : Token) (r : Resp) (b : Nat) (h : Bool), s.domOn (domPipe p) = true →
    (s.pipe p).toks[i]? = some t → t.resp[j]? = some r → r.hits = some (b, h) → b < 16 → 1 ≤ r.width →
    (s.srcBad t.pkt = true → t.gate ≠ 0) → 384 ≤ r.dOff → r.dOff + r.width ≤ 832 ∨ 848 ≤ r.dOff ∧ r.dOff + r.width ≤ 1024 →
    Gives (.lookupResponse p i j) s fun u => u = { s with pipes := u.pipes, regs := u.regs } ∧
      ∃ t', (u.pipe p).toks[i]? = some t' ∧ bitsOf t'.carry (r.dOff + r.width - 1) r.dOff = r.value % 2 ^ r.width ∧
        bitOf t'.carry (832 + b) = h ∧ t'.resp = t.resp.eraseIdx j ∧ (u.pipe p).toks.length = (s.pipe p).toks.length)


/-- R159, R161, R162, R172: what leaves the last gate is dropped under its reason, queued, or dropped by the edit unit;
barriers, aborts and the pipeline watchdog. -/
def Obligations.PipelineControl : Prop :=
  (∀ (h : Headrace) (s : State) (t : Token) (ts : List Token) (c : Nat), s.domOn (domHR h) = true → s.domOn 73 = true →
    (s.pipe h).toks = t :: ts → t.gate = 11 → t.st = .last →
    c = (if s.mode = .trickle then setBits t.carry 799 768 (s.trickleDest t) else (s.police h t).1.carry) →
    Carry.tapReq c = false ∨ s.flag (B.TAP (h / 4) + 4 * Carry.tapReason c) R.TAP_SAMP_EN = false →
    s.flag B.PMC R.PMC_CTRL_FREEZE = false →
    (∀ r, (Carry.drop c = true ∧ r = Carry.reason c ∨ Carry.drop c = false ∧ r = 2 ∧
        (Carry.destKind c = 3 ∧ Grp.count (s.groupEnt (Carry.target c)) = 0 ∨ Carry.destKind c ≠ 3 ∧
          s.tailOf (Carry.destKind c) (Carry.target c) (Carry.qsel c) (Carry.flowHash c) = none)) →
      Gives (.tokenExitHeadrace h) s fun u => (u.pipe h).toks.length = ts.length ∧
        u.cnt (B.PIPE h + C.GATE_REASON + 8 * r) = (s.cnt (B.PIPE h + C.GATE_REASON + 8 * r) + 1) % 2 ^ 64 ∧
        u = { s with pipes := u.pipes, regs := u.regs, cnts := u.cnts, flt := u.flt, qps := u.qps, tbl := u.tbl }) ∧
    (∀ tl n v pool, Carry.drop c = false → Carry.destKind c ≠ 3 →
      s.tailOf (Carry.destKind c) (Carry.target c) (Carry.qsel c) (Carry.flowHash c) = some tl →
      (Carry.destKind c = 0 → s.portUp (Carry.target c) = true) → ecnOf c t.pkt.data ≠ 0 →
      v = voqKey h tl (Carry.cls c) → n = allSegs (t.pkt.data.length + 4) →
      s.admitPool h v (Carry.cls c) n (s.pairOf t.pkt) = some pool →
      Gives (.tokenExitHeadrace h) s fun u => (u.pipe h).toks.length = ts.length ∧
        (u.voq v).pkts.map (fun p => (p.id, p.pkt, p.carry)) =
          (s.voq v).pkts.map (fun p => (p.id, p.pkt, p.carry)) ++ [(s.weir.nextId, t.pkt, c)] ∧
        (∀ x, x ≠ v → u.voq x = s.voq x) ∧ u.poolUsed (h / 4) pool = s.poolUsed (h / 4) pool + n ∧
        u = { s with pipes := u.pipes, regs := u.regs, cnts := u.cnts, flt := u.flt, weir := u.weir, eth := u.eth,
                     out := u.out, tbl := u.tbl, timers := u.timers })) ∧
  (∀ (r : Tailrace) (s : State) (k : Token) (ks : List Token), s.domOn (domTR r) = true → (s.pipe (16 + r)).toks = k :: ks →
    k.gate = 5 → k.st = .last → s.flag B.PMC R.PMC_CTRL_FREEZE = false →
    let e := editPacket (s.editProg r k.bank (Carry.edit k.carry)) (s.editSrc r k.bank k.carry (s.draw).1) k.carry k.ce k.pkt.data
    (Carry.drop k.carry = true → Gives (.tokenExitTailrace r) s fun u => (u.pipe (16 + r)).toks.length = ks.length ∧
      u.cnt (B.PIPE (16 + r) + C.GATE_REASON + 8 * Carry.reason k.carry) =
        (s.cnt (B.PIPE (16 + r) + C.GATE_REASON + 8 * Carry.reason k.carry) + 1) % 2 ^ 64 ∧
      (u.egress r).q.length = (s.egress r).q.length) ∧
    (Carry.drop k.carry = false → e = none → Gives (.tokenExitTailrace r) s fun u => (u.pipe (16 + r)).toks.length = ks.length ∧
      u.cnt (B.TLR r + C.TLR_EDIT_ERR) = (s.cnt (B.TLR r + C.TLR_EDIT_ERR) + 1) % 2 ^ 64 ∧
      (u.egress r).q.length = (s.egress r).q.length) ∧
    (∀ data c slot plot, Carry.drop k.carry = false → e = some (data, c) → k.cut = false → s.destDown k.dest = false →
      s.slotOf r k.dest = some (slot, plot) → timedFor k.pkt k.dest = false →
      Gives (.tokenExitTailrace r) s fun u => (u.pipe (16 + r)).toks.length = ks.length ∧
        (u.egress r).q.map (fun p => (p.id, p.pkt.data, p.carry, p.dest, p.slot, p.cls, p.plot)) =
          (s.egress r).q.map (fun p => (p.id, p.pkt.data, p.carry, p.dest, p.slot, p.cls, p.plot)) ++
            [(k.id, data, c, k.dest, slot, Carry.cls c, plot)] ∧
        u = { s with pipes := u.pipes, regs := u.regs, cnts := u.cnts, flt := u.flt, egr := u.egr,
                     freeCtr := s.freeCtr + 1 })) ∧
  (∀ (p : Pipe) (s : State),
    (s.domOn (domPipe p) = true → Gives (.barrierReq p) s fun u => u.flag (B.PIPE p) R.BARRIER_DONE = false ∧ u.reply = .ok ∧
      (u.pipe p).toks.map (fun t => (t.barred, t.resp.map (·.mark))) =
        (s.pipe p).toks.map (fun t => (t.barred || decide (t.st = .lane), t.resp.map fun _ => true)) ∧
      u = { s with pipes := u.pipes, regs := u.regs, reply := .ok }) ∧
    (s.domOn (domPipe p) = true → s.flag (B.PIPE p) R.BARRIER_DONE = false → s.updateRuns = false → s.tbl.waiting = [] →
      ((∀ t ∈ (s.pipe p).toks, t.barred = false ∧ ∀ r ∈ t.resp, r.mark = false) →
        Gives (.barrierDone p) s fun u => u.flag (B.PIPE p) R.BARRIER_DONE = true ∧
          u = { s with regs := u.regs }) ∧
      ((∃ t ∈ (s.pipe p).toks, t.barred = true ∨ ∃ r ∈ t.resp, r.mark = true) → exec (.barrierDone p) s = .next s)) ∧
    (s.domOn (domPipe p) = true → Gives (.abortReq p) s fun u => u.reply = .ok ∧
      u.flag (B.PIPE p) R.ABORT_ACTIVE = decide ((s.pipe p).toks ≠ []) ∧
      (u.pipe p).toks = (s.pipe p).toks.map (fun t => { t with doomed := true }) ∧
      u = { s with pipes := u.pipes, regs := u.regs, reply := .ok }) ∧
    (s.domOn (domPipe p) = false → exec (.barrierReq p) s = .next { s with reply := .busError } ∧
      exec (.abortReq p) s = .next { s with reply := .busError } ∧ exec (.barrierDone p) s = .next s ∧
      exec (.pipelineWatchdog p) s = .next s) ∧
    (s.domOn (domPipe p) = true → s.mild (pipeSrc p 3) → s.updateRuns = false → s.tbl.waiting = [] →
      (∀ x ∈ s.cross, keyDom x.key ≠ domPipe p) →
      Gives (.pipelineWatchdog p) s fun u => (u.pipe p).toks = [] ∧ u.domOn (domPipe p) = true ∧
        u.sticky (pipeSrc p 3) = s.flag (srcBase (pipeSrc p 3)) R.FLT_SRC_ROUTE))

/-- R72, R143, R144, R154, R166 to R169, Tables 7.9 and 7.10: customer images are fetched, checked, staged and flipped, the commit
point being the first flip; counter pairs are read and cleared. -/
def Obligations.ImagesAndFlips : Prop :=
  (∀ (p : Pipe) (s : State),
    (s.domOn (domPipe p) = true → s.flag (B.PIPE p) R.MC_CTRL_FLIP_PEND = false →
      exec (.flip p) s = .next ((if s.flag (B.PIPE p) R.MC_CTRL_DRAINED then s.wrB (B.PIPE p) R.MC_CTRL_FLIP_PEND true else s).answer .ok)) ∧
    (s.domOn (domPipe p) = false → exec (.flip p) s = .next (s.answer .busError)) ∧
    (s.domOn (domPipe p) = true → s.flag (B.PIPE p) R.MC_CTRL_FLIP_PEND = true → s.mc.flipping = [] →
      Gives (.bankFlip p) s fun u => u.activeBank p = 1 - s.activeBank p ∧ u.flag (B.PIPE p) R.MC_CTRL_FLIP_PEND = false ∧
        (p.val < 16 → u.rd (B.HUSK p) R.HUSK_CFG_ACTIVE_BANK = 1 - s.activeBank p) ∧
        u.flag (B.PIPE p) R.MC_CTRL_DRAINED = ((s.pipe p).toks.all fun t => decide (t.bank = 1 - s.activeBank p)) ∧
        u = { s with regs := u.regs }) ∧
    (s.flag (B.PIPE p) R.MC_CTRL_FLIP_PEND = false → exec (.bankFlip p) s = .next s) ∧
    (s.domOn (domPipe p) = true → (∀ t ∈ (s.pipe p).toks, t.bank = s.activeBank p) →
      exec (.pipelineDrained p) s = .next (s.wrB (B.PIPE p) R.MC_CTRL_DRAINED true)) ∧
    ((∃ t ∈ (s.pipe p).toks, t.bank ≠ s.activeBank p) → exec (.pipelineDrained p) s = .next s)) ∧
  (∀ (q : Req) (b : Fetch) (s : State) (c : Cmd), s.holds q 0x0380 c →
    ((∀ m t, q ≠ .host m t) → Gives (.mcStage q b) s (Ends q St.REFUSED [] s)) ∧
    (∀ m t, q = .host m t →
      (s.mc.flipping ≠ [] ∨ (∃ k, k < 32 ∧ s.domOn (domPipe k) = true ∧
          (s.flag (B.PIPE k) R.MC_CTRL_DRAINED = false ∨ s.flag (B.PIPE k) R.MC_CTRL_FLIP_PEND = true)) →
        Gives (.mcStage q b) s (Ends q St.BUSY_RETRY [] s)) ∧
      (s.mc.flipping = [] → (∀ k, k < 32 → s.domOn (domPipe k) = true →
          s.flag (B.PIPE k) R.MC_CTRL_DRAINED = true ∧ s.flag (B.PIPE k) R.MC_CTRL_FLIP_PEND = false) →
        ((s.fn m 0).bme = false → exec (.mcStage q b) s = .next s) ∧
        ((s.fn m 0).bme = true → c.u32 16 ≠ 0 → s.windowOk (s.plotBase m) (c.u64 8) (c.u32 16) false = false →
          Gives (.mcStage q b) s (Ends q St.BAD_ARGUMENT [] (s.windowErr (s.plotBase m)))) ∧
        (s.canFetch m (c.u64 8) (c.u32 16) → ∀ v, v = s.fetched m (c.u64 8) (c.u32 16) b →
          ((∀ l, b ≠ .ok l) → Gives (.mcStage q b) s (Ends q St.BAD_ARGUMENT [] v)) ∧
          (∀ l n d, b = .ok l → v.imageFails (fit (c.u32 16) l) (c.u32 16) = some (n, d) →
            Gives (.mcStage q b) s (Ends q (if n = 3 then St.REFUSED else St.BAD_ARGUMENT) ([BitVec.ofNat 8 n, 0] ++ d) v)) ∧
          (∀ l, b = .ok l → v.imageFails (fit (c.u32 16) l) (c.u32 16) = none → Gives (.mcStage q b) s fun u =>
            (u.tag q).fin.map (·.status) = some St.DONE ∧ u.mc.staged = leNat (((fit (c.u32 16) l).drop 8).take 8) ∧
            u.mc.active = s.mc.active ∧ (∀ k, k < 32 → u.activeBank k = s.activeBank k) ∧ u.pipes = s.pipes ∧
            ∀ k g w, k < 32 → g < 16 → w < 8192 →
              u.word (wordKey k (s.activeBank k) g w) = s.word (wordKey k (s.activeBank k) g w)))))) ∧
  (∀ (q : Req) (s : State) (c : Cmd), s.holds q 0x0381 c →
    ((∀ m t, q ≠ .host m t) → Gives (.mcFlip q) s (Ends q St.REFUSED [] s)) ∧
    (∀ m t, q = .host m t → s.mc.flipping ≠ [] → Gives (.mcFlip q) s (Ends q St.BUSY_RETRY [] s)) ∧
    (∀ m t, q = .host m t → s.mc.flipping = [] → s.mc.staged = 0 ∨ 1 < c.u8 8 →
      Gives (.mcFlip q) s (Ends q St.BAD_ARGUMENT [] s)) ∧
    (∀ m t k ks, q = .host m t → s.mc.flipping = [] → s.mc.staged ≠ 0 → c.u8 8 ≤ 1 →
      (if c.u8 8 = 0 then s.pipesOn.filter (16 ≤ ·) ++ s.pipesOn.filter (· < 16) else s.pipesOn) = k :: ks →
      Gives (.mcFlip q) s fun u => u.mc.flipping = k :: ks ∧ u.mc.staged = 0 ∧ u.mc.active = s.mc.staged ∧
        (s.flag (B.PIPE k) R.MC_CTRL_DRAINED = true → u.flag (B.PIPE k) R.MC_CTRL_FLIP_PEND = true) ∧
        (∀ x, x < 32 → u.activeBank x = s.activeBank x) ∧ u.tags = s.tags ∧
        u = { s with regs := u.regs, jobs := u.jobs, mc := u.mc, sec := { s.sec with meas := u.sec.meas } }) ∧
    (∀ m t, q = .host m t → s.mc.flipping = [] → s.mc.staged ≠ 0 → c.u8 8 ≤ 1 → s.pipesOn = [] → s.jobs = [] →
      Gives (.mcFlip q) s fun u => u.mc.active = s.mc.staged ∧ u.mc.staged = 0 ∧
        (u.tag q).fin.map (·.status) = some St.DONE)) ∧
  (∀ (q : Req) (s : State) (c : Cmd), s.holds q 0x0382 c → ∃ a b, Gives (.mcStatus q) s (Ends q St.DONE
    (leBytes 8 s.mc.active ++ leBytes 8 s.mc.staged ++ leBytes 2 a ++ leBytes 2 b ++
      [if s.mc.flipping = [] then 0 else 1]) s) ∧
    ∀ i, i < 16 →
      bitOf a i = decide (s.activeBank i = 1) ∧ bitOf b i = decide (s.activeBank (16 + i) = 1)) ∧
  (∀ (q : Req) (s : State) (c : Cmd), s.holds q 0x0383 c →
    (3 < c.u8 8 ∧ c.u8 8 ≠ 0xFF ∨ 2 ^ 18 ≤ c.u32 12 → Gives (.countRead q) s (Ends q St.BAD_ARGUMENT [] s)) ∧
    (c.u8 8 ≤ 3 → c.u32 12 < 2 ^ 18 →
      (bitOf (c.u8 16) 0 = false → Gives (.countRead q) s (Ends q St.DONE
        (leBytes 8 ((s.cpair (c.u8 8) (c.u32 12)).1 % 2 ^ 64) ++ leBytes 8 ((s.cpair (c.u8 8) (c.u32 12)).2 % 2 ^ 64)) s)) ∧
      (bitOf (c.u8 16) 0 = true → s.mode = .trickle → Gives (.countRead q) s (Ends q St.WRONG_MODE [] s)) ∧
      (bitOf (c.u8 16) 0 = true → s.mode ≠ .trickle → c.u32 12 < 65536 → Gives (.countRead q) s (Ends q St.REFUSED [] s)) ∧
      (bitOf (c.u8 16) 0 = true → s.mode ≠ .trickle → 65536 ≤ c.u32 12 → Gives (.countRead q) s (Ends q St.DONE
        (leBytes 8 ((s.cpair (c.u8 8) (c.u32 12)).1 % 2 ^ 64) ++ leBytes 8 ((s.cpair (c.u8 8) (c.u32 12)).2 % 2 ^ 64))
        (s.setCpair (c.u8 8) (c.u32 12) (0, 0))))) ∧
    (c.u8 8 = 0xFF → c.u32 12 < 2 ^ 18 → bitOf (c.u8 16) 0 = false → Gives (.countRead q) s (Ends q St.DONE
      (leBytes 8 (((s.cpair 0 (c.u32 12)).1 + (s.cpair 1 (c.u32 12)).1 + (s.cpair 2 (c.u32 12)).1 + (s.cpair 3 (c.u32 12)).1) % 2 ^ 64)
        ++ leBytes 8 (((s.cpair 0 (c.u32 12)).2 + (s.cpair 1 (c.u32 12)).2 + (s.cpair 2 (c.u32 12)).2 +
          (s.cpair 3 (c.u32 12)).2) % 2 ^ 64)) s)))


/-! ### Table and memory entries through registers (chapters 7 to 10) -/

/-- R143, R154, R166, R177, R181, R195, R230, R247: a command register writes or reads a whole entry of a control store, an
edit memory, a table copy, a meter, a counter pair or a group memory, or is refused with a bus error. -/
def Obligations.EntryAccess : Prop :=
  (∀ (p : Pipe) (s : State) (d k : Nat), d = B.PIPE p + R.MC_DATA_DATA.off → k = s.mcKey p →
    (s.storeOk p (s.rd (B.PIPE p) R.MC_ADDR_BANK) = true →
      (Gives (.mcWrite p) s fun u => u.word k = s.dataRegs d 6 ∧ (∀ j, j ≠ k → u.word j = s.word j) ∧
        u.upset (upsetWord k) = 0 ∧ u = { s with micro := u.micro, upsets := u.upsets, reply := .ok }) ∧
      Gives (.mcRead p) s fun u => u.dataRegs d 6 = s.word k % 2 ^ 192 ∧ (∀ a, a < d ∨ d + 24 ≤ a → u.reg a = s.reg a) ∧
        u = { s with regs := u.regs, reply := .ok }) ∧
    (s.storeOk p (s.rd (B.PIPE p) R.MC_ADDR_BANK) = false → exec (.mcWrite p) s = .next (s.answer .busError) ∧
      exec (.mcRead p) s = .next (s.answer .busError))) ∧
  (∀ (t : Tailrace) (s : State) (d k : Nat), d = B.TLR t + R.ED_DATA_DATA.off → k = s.edKey t →
    (s.edOk t = true →
      (Gives (.edWrite t) s fun u => u.editAt k = s.dataRegs d 2 ∧ (∀ j, j ≠ k → u.editAt j = s.editAt j) ∧
        u = { s with micro := u.micro, reply := .ok }) ∧
      Gives (.edRead t) s fun u => u.dataRegs d 2 = s.editAt k % 2 ^ 64 ∧ (∀ a, a < d ∨ d + 8 ≤ a → u.reg a = s.reg a) ∧
        u = { s with regs := u.regs, reply := .ok }) ∧
    (s.edOk t = false → exec (.edWrite t) s = .next (s.answer .busError) ∧ exec (.edRead t) s = .next (s.answer .busError))) ∧
  (∀ (q : Quad) (s : State) (d i : Nat), d = B.SEED q + R.SEED_ENT_DATA_DATA.off → i = s.rd (B.SEED q) R.SEED_ENT_ADDR_INDEX →
    (∀ path, s.rawTableOk q path = true → Gives (.seedEntWrite q path) s fun u =>
      u.seedAt q i = setBits (s.dataRegs d 6) 184 160 0 ∧ (∀ x j, seedKey x j ≠ seedKey q i → u.seedAt x j = s.seedAt x j) ∧
      u.tbl.master = s.tbl.master ∧ u.tbl.version = s.tbl.version ∧
      u = { s with tbl := u.tbl, upsets := u.upsets, reply := .ok }) ∧
    (∀ path, s.rawTableOk q path = false → exec (.seedEntWrite q path) s = .next (s.answer .busError)) ∧
    (s.domOn (domQuad q) = true → Gives (.seedEntRead q) s fun u => u.dataRegs d 6 = s.seedAt q i % 2 ^ 192 ∧
      (∀ a, a < d ∨ d + 24 ≤ a → u.reg a = s.reg a) ∧ u = { s with regs := u.regs, reply := .ok }) ∧
    (s.domOn (domQuad q) = false → exec (.seedEntRead q) s = .next (s.answer .busError))) ∧
  (∀ (q : Quad) (s : State) (v m a w : Nat), v = B.SIEV q + R.SIEV_ENT_VAL_VAL.off → m = B.SIEV q + R.SIEV_ENT_MSK_MSK.off →
    a = s.sievAddr q → w = s.sievWidth q →
    (∀ path, s.rawTableOk q path = true → a % w = 0 →
      (Gives (.sievEntWrite q path) s fun u => u.entryValue q a w = s.dataRegs v 10 % 2 ^ (80 * w) ∧
        u.entryMask q a w = s.dataRegs m 10 % 2 ^ (80 * w) ∧ Sieve.valid (u.unit q a) = s.flag (B.SIEV q) R.SIEV_ENT_CTRL_VALID ∧
        Sieve.action (u.unit q a) = s.rd (B.SIEV q) R.SIEV_ENT_ACTION_ACTION ∧
        (∀ x j, (∀ k, k < w → sieveKey x j ≠ sieveKey q (a + k)) → u.unit x j = s.unit x j) ∧
        u = { s with tbl := u.tbl, upsets := u.upsets, reply := .ok }) ∧
      Gives (.sievEntClear q path) s fun u => Sieve.valid (u.unit q a) = false ∧
        Sieve.value (u.unit q a) = Sieve.value (s.unit q a) ∧
        (∀ x j, sieveKey x j ≠ sieveKey q a → u.unit x j = s.unit x j) ∧
        u = { s with tbl := u.tbl, upsets := u.upsets, reply := .ok }) ∧
    (∀ path, s.rawTableOk q path = false ∨ a % w ≠ 0 → exec (.sievEntWrite q path) s = .next (s.answer .busError) ∧
      exec (.sievEntClear q path) s = .next (s.answer .busError)) ∧
    (s.domOn (domQuad q) = true → Gives (.sievEntRead q) s fun u => u.dataRegs v 10 = s.entryValue q a w % 2 ^ 320 ∧
      u.dataRegs m 10 = s.entryMask q a w % 2 ^ 320 ∧ u.flag (B.SIEV q) R.SIEV_ENT_CTRL_VALID = Sieve.valid (s.unit q a) ∧
      u.rd (B.SIEV q) R.SIEV_ENT_ACTION_ACTION = Sieve.action (s.unit q a) ∧ u = { s with regs := u.regs, reply := .ok }) ∧
    (s.domOn (domQuad q) = false → exec (.sievEntRead q) s = .next (s.answer .busError))) ∧
  (∀ (q : Quad) (s : State) (d i w : Nat), d = B.SEED q + R.SEED_MTR_DATA_DATA.off →
    i = s.rd (B.SEED q) R.SEED_MTR_ADDR_INDEX → w = s.dataRegs d 4 →
    (s.domOn (domQuad q) = true →
      (Gives (.seedMtrWrite q) s fun u => bitsOf (u.meter q i) 47 0 = bitsOf w 47 0 ∧
        bitsOf (u.meter q i) 61 60 = bitsOf w 61 60 ∧ bitsOf (u.meter q i) 87 64 = bitsOf w 87 64 ∧
        bitsOf (u.meter q i) 119 96 = bitsOf w 119 96 ∧
        bitsOf (u.meter q i) 63 62 = (if bitsOf w 63 62 = 3 then bitsOf (s.meter q i) 63 62 else bitsOf w 63 62) ∧
        Meter.tc (u.meter q i) = 1024 * bitsOf w 119 96 ∧ Meter.tp (u.meter q i) = 1024 * bitsOf w 87 64 ∧
        Meter.last (u.meter q i) = s.meterNow ∧ (∀ x j, meterKey x j ≠ meterKey q i → u.meter x j = s.meter x j) ∧
        u = { s with tbl := u.tbl, reply := .ok }) ∧
      Gives (.seedMtrRead q) s fun u => u.dataRegs d 8 = s.meter q i % 2 ^ 256 ∧
        (∀ a, a < d ∨ d + 32 ≤ a → u.reg a = s.reg a) ∧ u = { s with regs := u.regs, reply := .ok }) ∧
    (s.domOn (domQuad q) = false → exec (.seedMtrWrite q) s = .next (s.answer .busError) ∧
      exec (.seedMtrRead q) s = .next (s.answer .busError))) ∧
  (∀ (q : Quad) (s : State) (d i : Nat), d = B.SEED q + R.SEED_CNT_DATA_DATA.off → i = s.rd (B.SEED q) R.SEED_CNT_ADDR_INDEX →
    (s.domOn (domQuad q) = true →
      (Gives (.seedCntRead q) s fun u => u.dataRegs d 4 = ((s.cpair q i).1 + (s.cpair q i).2 * 2 ^ 64) % 2 ^ 128 ∧
        (∀ a, a < d ∨ d + 16 ≤ a → u.reg a = s.reg a) ∧ u = { s with regs := u.regs, reply := .ok }) ∧
      Gives (.seedCntReadClear q) s fun u => u.dataRegs d 4 = ((s.cpair q i).1 + (s.cpair q i).2 * 2 ^ 64) % 2 ^ 128 ∧
        u.cpair q i = (0, 0) ∧ (∀ x j, pairKey x j ≠ pairKey q i → u.cpair x j = s.cpair x j) ∧
        u = { s with regs := u.regs, cpairs := u.cpairs, reply := .ok }) ∧
    (s.domOn (domQuad q) = false → exec (.seedCntRead q) s = .next (s.answer .busError) ∧
      exec (.seedCntReadClear q) s = .next (s.answer .busError))) ∧
  (∀ (s : State) (i v : Nat) (mem : Bool), i = s.rd B.WEIR R.WEIR_GRP_ADDR_INDEX → mem = s.flag B.WEIR R.WEIR_GRP_ADDR_MEM →
    v = s.rd B.WEIR R.WEIR_GRP_DATA_DATA →
    (s.domOn 73 = true → mem = true →
      (Gives .weirGrpWrite s fun u => u.memberEnt i = v ∧ (∀ j, j ≠ i → u.memberEnt j = s.memberEnt j) ∧
        u.weir.groups = s.weir.groups ∧ u = { s with weir := u.weir, reply := .ok }) ∧
      Gives .weirGrpRead s fun u => u.rd B.WEIR R.WEIR_GRP_DATA_DATA = s.memberEnt i % 2 ^ 32 ∧
        u = { s with regs := u.regs, reply := .ok }) ∧
    (s.domOn 73 = true → mem = false → i < 4096 →
      (Gives .weirGrpWrite s fun u => Grp.base (u.groupEnt i) = bitsOf v 31 16 ∧ Grp.count (u.groupEnt i) = bitsOf v 6 0 ∧
        Grp.epoch (u.groupEnt i) = Grp.epoch (s.groupEnt i) ∧ (∀ j, j ≠ i → u.groupEnt j = s.groupEnt j) ∧
        u.weir.members = s.weir.members ∧ u = { s with weir := u.weir, reply := .ok }) ∧
      Gives .weirGrpRead s fun u => u.rd B.WEIR R.WEIR_GRP_DATA_DATA = s.groupEnt i % 2 ^ 32 ∧
        u = { s with regs := u.regs, reply := .ok }) ∧
    (s.domOn 73 = false ∨ mem = false ∧ 4096 ≤ i → exec .weirGrpWrite s = .next (s.answer .busError) ∧
      exec .weirGrpRead s = .next (s.answer .busError)))


/-! ### Seed table, Sieve and Reservoir tables (chapter 8) -/

/-- R176, R188, R189, R191, R192, R206, R207: the commands on the Seed table. An update waits while a copy is being loaded or
another update has not reported; an insert is all or none; a removal reports after its barriers. Which free index a new entry
takes is the model's free choice (assumption 2). -/
def Obligations.SeedCommands : Prop :=
  (∀ (q : Req) (b : Fetch) (s : State) (c : Cmd), ∀ x ∈ [(0x0300, Instr.tblSeedInsert q, Fetch.timeout),
      (0x0301, Instr.tblSeedDelete q, Fetch.timeout), (0x0303, Instr.tblSeedBatch q b, b), (0x0304, Instr.tblSeedFlush q, Fetch.timeout),
      (0x0310, Instr.tblSieveWrite q, Fetch.timeout), (0x0311, Instr.tblSieveClear q, Fetch.timeout),
      (0x0313, Instr.tblSieveProfile q, Fetch.timeout)],
    s.holds q x.1 c → s.tableHeld = true ∨ s.tbl.waiting ≠ [] → (∀ w ∈ s.tbl.waiting, w.q ≠ q) →
    exec x.2.1 s = .next { s with tbl := { s.tbl with waiting := s.tbl.waiting ++ [⟨q, s.mgen q, x.2.2⟩] } }) ∧
  (∀ (q : Req) (s : State) (c : Cmd) (key : Nat), s.holds q 0x0300 c → s.tableHeld = false → s.tbl.waiting = [] →
    key = leNat (c.bytes 8 12) →
    (3 < c.u8 29 → Gives (.tblSeedInsert q) s (Ends q St.BAD_ARGUMENT [] s)) ∧
    (c.u8 29 ≤ 3 → kindOk key = false → Gives (.tblSeedInsert q) s (Ends q St.REFUSED [] s)) ∧
    (c.u8 29 ≤ 3 → kindOk key = true → Seed.valid (s.masterAt key) = true → bitOf (c.u8 28) 1 = false →
      Gives (.tblSeedInsert q) s (Ends q St.BAD_ARGUMENT [] s)) ∧
    (c.u8 29 ≤ 3 → kindOk key = true → Seed.valid (s.masterAt key) = false ∨ bitOf (c.u8 28) 1 = true →
      (∀ x, s.refusingCopy key = some x → Gives (.tblSeedInsert q) s (Ends q St.TABLE_FULL
        (leBytes 4 s.tbl.version ++ [BitVec.ofNat 8 x]) { s with tbl := { s.tbl with insertFail := s.tbl.insertFail + 1 } })) ∧
      (s.refusingCopy key = none → twf (fun _ => 0) s.tbl.seed = true →
        (∀ x ∈ s.copies, s.seedFind x key = none → ∃ i, i < seedUsable ∧ Seed.valid (s.seedAt x i) = false ∧
          Seed.retired (s.seedAt x i) = false) →
        Gives (.tblSeedInsert q) s fun t => (t.tag q).cur = none ∧
          (t.tag q).fin.map (fun f => (f.status, f.data)) = some (St.DONE, leBytes 4 ((s.tbl.version + 1) % 2 ^ 32) ++ [0]) ∧
          t.masterAt key = Seed.mk (bitOf (c.u8 28) 0) false (c.u8 29) key (c.u64 20) ∧
          t.tbl.version = (s.tbl.version + 1) % 2 ^ 32 ∧
          ∀ x ∈ s.copies, t.rd (B.SEED x) R.SEED_VERSION_VERSION = t.tbl.version ∧
            ∃ i, t.seedFind x key = some i ∧ i < 2 ^ 17 ∧ (s.seedFind x key = none → i < seedUsable) ∧
              t.seedAt x i = Seed.mk (bitOf (c.u8 28) 0) false (c.u8 29) key (c.u64 20)))) ∧
  (∀ (q : Req) (s : State) (c : Cmd) (key : Nat), s.holds q 0x0301 c → s.tableHeld = false → s.tbl.waiting = [] →
    key = leNat (c.bytes 8 12) →
    (kindOk key = false → Gives (.tblSeedDelete q) s (Ends q St.REFUSED [] s)) ∧
    (kindOk key = true → Seed.valid (s.masterAt key) = false →
      Gives (.tblSeedDelete q) s (Ends q St.DONE (leBytes 4 s.tbl.version ++ [0]) s)) ∧
    (kindOk key = true → Seed.valid (s.masterAt key) = true → s.pipesOn ≠ [] → Gives (.tblSeedDelete q) s fun t =>
      t.tags = s.tags ∧ t.masterAt key = 0 ∧ t.tbl.version = (s.tbl.version + 1) % 2 ^ 32 ∧
      (∀ x ∈ s.copies, ∀ i, s.seedFind x key = some i → Seed.valid (t.seedAt x i) = false) ∧
      (∀ k ∈ s.pipesOn, t.flag (B.PIPE k) R.BARRIER_DONE = false) ∧ t.updateRuns = true ∧
      t.jobs = s.jobs ++ [⟨q, s.mgen q, 0x0301, barrierObj, 0, 0, leBytes 4 ((s.tbl.version + 1) % 2 ^ 32) ++ [1]⟩])) ∧
  (∀ (p : Pipe) (s : State) (j : Job) (c : Cmd), s.jobs = [j] → j.obj = barrierObj → s.jobLive j = true →
    (s.tag j.q).cur = some c → s.tbl.waiting = [] → s.domOn (domPipe p) = true → s.flag (B.PIPE p) R.BARRIER_DONE = false →
    s.barrierPassed p = true → (∀ k, k < 32 → k ≠ p → s.domOn (domPipe k) = true → s.flag (B.PIPE k) R.BARRIER_DONE = true) →
    Gives (.barrierDone p) s (Ends j.q St.DONE j.data { s.wrB (B.PIPE p) R.BARRIER_DONE true with jobs := [] })) ∧
  (∀ (q : Req) (s : State) (c : Cmd), s.holds q 0x0302 c → kindOk (leNat (c.bytes 8 12)) = false →
    Gives (.tblSeedRead q) s (Ends q St.REFUSED [] s)) ∧
  (∀ (q : Req) (s : State) (c : Cmd) (key : Nat), s.holds q 0x0302 c → key = leNat (c.bytes 8 12) → kindOk key = true → ∃ there,
    Gives (.tblSeedRead q) s (Ends q St.DONE (leBytes 8 (Seed.data (s.masterAt key)) ++
      [BitVec.ofNat 8 (bit (Seed.static_ (s.masterAt key))), BitVec.ofNat 8 there, 0, 0] ++ leBytes 4 s.tbl.version) s) ∧
    ∀ x, x < 4 → bitOf there x = (s.domOn (domQuad x) && (s.seedFind x key).isSome)) ∧
  (∀ (q : Req) (b : Fetch) (s : State) (c : Cmd), s.holds q 0x0303 c → s.tableHeld = false → s.tbl.waiting = [] →
    (c.u32 16 = 0 ∨ 65536 < c.u32 16 → Gives (.tblSeedBatch q b) s (Ends q St.BAD_ARGUMENT [] s)) ∧
    (1 ≤ c.u32 16 → c.u32 16 ≤ 65536 →
      (s.bufWaits q → exec (.tblSeedBatch q b) s = .next s) ∧
      (∀ v, s.bufFails q (c.u64 8) (24 * c.u32 16) b v → Gives (.tblSeedBatch q b) s (Ends q St.BAD_ARGUMENT [] v)) ∧
      (∀ l v, s.bufGives q (c.u64 8) (24 * c.u32 16) b l v → 3 < leNat ((l.drop 21).take 1) →
        Gives (.tblSeedBatch q b) s (Ends q St.BAD_ARGUMENT (leBytes 4 0 ++ leBytes 4 0) v)) ∧
      (∀ l v x s', s.bufGives q (c.u64 8) (24 * c.u32 16) b l v → c.u32 16 = 1 →
        v.seedRecord (leNat (l.take 12)) (leNat ((l.drop 12).take 8)) (leNat ((l.drop 20).take 1)) (leNat ((l.drop 21).take 1)) =
          (St.DONE, x, s') → Gives (.tblSeedBatch q b) s (Ends q St.DONE (leBytes 4 1 ++ leBytes 4 0) s')))) ∧
  (∀ (q : Req) (s : State) (c : Cmd), s.holds q 0x0304 c → s.tableHeld = false → s.tbl.waiting = [] →
    let hit := fun k e => decide (k / 2 ^ 90 = c.u8 8) && (decide (c.u8 9 % 2 = 1) || !Seed.static_ e) &&
      ((Seed.data e &&& c.u64 24) == (c.u64 16 &&& c.u64 24))
    (64 ≤ c.u8 8 → Gives (.tblSeedFlush q) s (Ends q St.BAD_ARGUMENT [] s)) ∧
    (c.u8 8 < 64 → 3 < c.u8 8 → c.u8 8 < 32 → Gives (.tblSeedFlush q) s (Ends q St.REFUSED [] s)) ∧
    (c.u8 8 ≤ 3 ∨ 32 ≤ c.u8 8 ∧ c.u8 8 < 64 →
      ((∀ e ∈ s.tbl.master, hit e.1 e.2 = false) → Gives (.tblSeedFlush q) s (Ends q St.DONE (leBytes 4 0) s)) ∧
      ((∃ e ∈ s.tbl.master, hit e.1 e.2 = true) → twf (fun _ => 0) s.tbl.master = true → s.pipesOn ≠ [] →
        Gives (.tblSeedFlush q) s fun t => t.tags = s.tags ∧ t.updateRuns = true ∧
          (∀ k, t.masterAt k = if hit k (s.masterAt k) then 0 else s.masterAt k) ∧
          t.jobs = s.jobs ++ [⟨q, s.mgen q, 0x0304, barrierObj, 0, 0,
            leBytes 4 (s.tbl.master.filter fun e => hit e.1 e.2).length⟩])))

/-- R178, R179, R181, R188, R189, R192, R206, R207: the commands on the Sieve. Which free address a write for any address takes is the
model's free choice (assumption 2). -/
def Obligations.SieveCommands : Prop :=
  (∀ (q : Req) (s : State) (c : Cmd) (p r w value mask : Nat) (any : Bool), s.holds q 0x0310 c → s.tableHeld = false →
    s.tbl.waiting = [] → p = c.u8 8 → r = s.refCopy → w = s.profWidth r p → value = leNat (c.bytes 20 40) →
    mask = leNat (c.bytes 60 40) → any = decide (c.u32 12 = 0xFFFF_FFFF) →
    (16 ≤ p ∨ s.profEn r p = false ∨ 2 ^ (80 * w) ≤ value ∨ 2 ^ (80 * w) ≤ mask ∨
      any = true ∧ s.flag (profBase r p) R.SIEV_PROF_MODE = true ∨ any = false ∧ s.profAddrOk r p (c.u32 12) = false →
      Gives (.tblSieveWrite q) s (Ends q St.BAD_ARGUMENT [] s)) ∧
    (p < 16 → s.profEn r p = true → value < 2 ^ (80 * w) → mask < 2 ^ (80 * w) →
      (any = false → s.profAddrOk r p (c.u32 12) = true → s.entryRetired (c.u32 12) w = true →
        Gives (.tblSieveWrite q) s (Ends q St.TABLE_FULL [] s)) ∧
      (any = true → s.flag (profBase r p) R.SIEV_PROF_MODE = false →
        (∀ a, s.profAddrOk r p a = true → Sieve.valid (s.unit sieveMaster a) = true ∨ s.entryRetired a w = true) →
        Gives (.tblSieveWrite q) s fun t => (t.tag q).fin.map (fun f => (f.status, f.data)) = some (St.TABLE_FULL, []) ∧
          t.tbl = s.tbl) ∧
      (any = false ∧ s.profAddrOk r p (c.u32 12) = true ∧ s.entryRetired (c.u32 12) w = false ∨
        any = true ∧ s.flag (profBase r p) R.SIEV_PROF_MODE = false ∧ (∃ a, s.profAddrOk r p a = true ∧
          Sieve.valid (s.unit sieveMaster a) = false ∧ s.entryRetired a w = false) →
        Gives (.tblSieveWrite q) s fun t => ∃ a, s.profAddrOk r p a = true ∧ (any = false → a = c.u32 12) ∧
          (any = true → Sieve.valid (s.unit sieveMaster a) = false) ∧ t.tbl.version = (s.tbl.version + 1) % 2 ^ 32 ∧
          (∀ x, x ∈ s.copies ∨ x = sieveMaster → t.entryValue x a w = value ∧ t.entryMask x a w = mask ∧
            Sieve.valid (t.unit x a) = true ∧ Sieve.action (t.unit x a) = c.u32 16) ∧
          (∀ x b, b < 2 ^ 17 → b < a ∨ a + w ≤ b → t.unit x b = s.unit x b) ∧
          (Sieve.valid (s.unit sieveMaster a) = false ∨ s.pipesOn = [] → (t.tag q).fin.map (fun f => (f.status, f.data)) =
            some (St.DONE, leBytes 4 a ++ leBytes 4 t.tbl.version)) ∧
          (Sieve.valid (s.unit sieveMaster a) = true → s.pipesOn ≠ [] → t.tags = s.tags ∧ t.jobs = s.jobs ++
            [⟨q, s.mgen q, 0x0310, barrierObj, 0, 0, leBytes 4 a ++ leBytes 4 t.tbl.version⟩])))) ∧
  (∀ (q : Req) (s : State) (c : Cmd) (p r a : Nat), s.holds q 0x0311 c → s.tableHeld = false → s.tbl.waiting = [] →
    p = c.u8 8 → r = s.refCopy → a = c.u32 12 →
    (16 ≤ p ∨ s.profEn r p = false ∨ s.profAddrOk r p a = false → Gives (.tblSieveClear q) s (Ends q St.BAD_ARGUMENT [] s)) ∧
    (p < 16 → s.profEn r p = true → s.profAddrOk r p a = true → Gives (.tblSieveClear q) s fun t =>
      t.tbl.version = (s.tbl.version + 1) % 2 ^ 32 ∧
      (∀ x, x ∈ s.copies ∨ x = sieveMaster → Sieve.valid (t.unit x a) = false) ∧
      (∀ x b, b < 2 ^ 17 → b ≠ a → t.unit x b = s.unit x b) ∧
      (Sieve.valid (s.unit sieveMaster a) = false ∨ s.pipesOn = [] →
        (t.tag q).fin.map (fun f => (f.status, f.data)) = some (St.DONE, leBytes 4 t.tbl.version)) ∧
      (Sieve.valid (s.unit sieveMaster a) = true → s.pipesOn ≠ [] → t.tags = s.tags ∧ t.jobs = s.jobs ++
        [⟨q, s.mgen q, 0x0311, barrierObj, 0, 0, leBytes 4 t.tbl.version⟩]))) ∧
  (∀ (q : Req) (s : State) (c : Cmd) (a w : Nat), s.holds q 0x0312 c → a = c.u32 12 → w = s.bankWidth s.refCopy (a / bankUnits) →
    (sieveUnits ≤ a ∨ a % w ≠ 0 → Gives (.tblSieveRead q) s (Ends q St.BAD_ARGUMENT [] s)) ∧
    (a < sieveUnits → a % w = 0 → ∃ there, Gives (.tblSieveRead q) s (Ends q St.DONE
      (leBytes 4 (Sieve.action (s.unit sieveMaster a)) ++ leBytes 40 (s.entryValue sieveMaster a w) ++
        leBytes 40 (s.entryMask sieveMaster a w) ++ [BitVec.ofNat 8 there]) s) ∧
      ∀ x, x < 4 → bitOf there x = (s.domOn (domQuad x) && Sieve.valid (s.unit x a)))) ∧
  (∀ (q : Req) (s : State) (c : Cmd) (p r banks new : Nat) (en : Bool), s.holds q 0x0313 c → s.tableHeld = false →
    s.tbl.waiting = [] → p = c.u8 8 → r = s.refCopy → banks = c.u16 12 → en = bitOf (c.u8 9) 0 →
    new = (if en then banks else 0) →
    let old := if s.profEn r p then s.profBanks r p else 0
    let overlap := ∃ y, y < 16 ∧ y ≠ p ∧ s.profEn r y = true ∧ s.profBanks r y &&& new ≠ 0
    let used := fun b => ∃ x, (x ∈ s.copies ∨ x = sieveMaster) ∧ s.bankHeld x b = true
    let moved := ∃ b, b < 16 ∧ bitOf (old ^^^ new) b = true ∧ used b
    let kept := ∃ b, b < 16 ∧ bitOf banks b = true ∧ (used b ∨ s.bankOwned r b p = true) ∧ s.bankWidth r b ≠ c.u8 10
    (16 ≤ p ∨ c.u8 10 ∉ [1, 2, 4] ∨ overlap → Gives (.tblSieveProfile q) s (Ends q St.BAD_ARGUMENT [] s)) ∧
    (p < 16 → c.u8 10 ∈ [1, 2, 4] → ¬ overlap → s.mode = .flowing → moved →
      Gives (.tblSieveProfile q) s (Ends q St.BUSY_RETRY [] s)) ∧
    (p < 16 → c.u8 10 ∈ [1, 2, 4] → ¬ overlap → (s.mode = .flowing → ¬ moved) →
      (kept → Gives (.tblSieveProfile q) s (Ends q St.BAD_ARGUMENT [] s)) ∧
      (¬ kept → Gives (.tblSieveProfile q) s fun t => (t.tag q).fin.map (fun f => (f.status, f.data)) = some (St.DONE, []) ∧
        (∀ x ∈ s.copies, t.profEn x p = en ∧ t.flag (profBase x p) R.SIEV_PROF_MODE = bitOf (c.u8 9) 1 ∧
          t.profWidth x p = c.u8 10 ∧ t.profBanks x p = banks ∧
          (∀ y, y < 16 → y ≠ p → t.reg (profBase x y + 0x100) = s.reg (profBase x y + 0x100)) ∧
          ∀ b, b < 16 → t.bankWidth x b = if bitOf banks b then c.u8 10 else s.bankWidth r b) ∧
        t = { s with regs := t.regs, tags := t.tags, out := t.out, links := t.links, fns := t.fns, mem := t.mem,
                     tbl := { s.tbl with cfg := t.tbl.cfg } })))

/-- R182 to R187, R206, R207: Reservoir hash tables, the idle sweeper, TBL_STATUS and TBL_AGE_CFG. Where a new table is
placed, and which entries an insert moves, are the model's free choices (assumption 2). -/
def Obligations.ReservoirTables : Prop :=
  (∀ (q : Req) (s : State) (c : Cmd) (t k l : Nat), s.holds q 0x0320 c → t = c.u8 8 → k = c.u8 9 → l = c.u8 10 →
    (8 ≤ t ∨ s.flag (htBase t) R.RSV_HT_CFG_EN = true ∨ k = 0 ∨ 5 < k ∨ l < 10 ∨ 28 < l →
      Gives (.tblRsvCreate q) s (Ends q St.BAD_ARGUMENT [] s)) ∧
    (t < 8 → s.flag (htBase t) R.RSV_HT_CFG_EN = false → 1 ≤ k → k ≤ 5 → 10 ≤ l → l ≤ 28 →
      ((∃ d ∈ [66, 67, 68], s.domOn d = false) ∨ 32 * 1024 < (s.htPlaces.map (·.2)).sum + htMiB l →
        Gives (.tblRsvCreate q) s (Ends q St.NO_RESOURCE [] s)) ∧
      (s.domOn 66 = true → s.domOn 67 = true → s.domOn 68 = true → (s.htPlaces.map (·.2)).sum + htMiB l ≤ 32 * 1024 →
        (∀ b, s.htFits b (htMiB l) = false) → Gives (.tblRsvCreate q) s fun u =>
          (u.tag q).fin.map (fun f => (f.status, f.data)) = some (St.NO_RESOURCE, []) ∧ u.tbl = s.tbl) ∧
      (s.domOn 66 = true → s.domOn 67 = true → s.domOn 68 = true → (s.htPlaces.map (·.2)).sum + htMiB l ≤ 32 * 1024 →
        (∃ b, s.htFits b (htMiB l) = true) → Gives (.tblRsvCreate q) s fun u =>
        u.flag (htBase t) R.RSV_HT_CFG_EN = true ∧ u.htK t = k ∧ u.htLog t = l ∧
        s.htFits (u.rd (htBase t) R.RSV_HT_CFG_BASE) (htMiB l) = true ∧ u.rd (htBase t) R.RSV_HT_IDLE_IDLE = c.u32 12 ∧
        u.rd (htBase t) R.RSV_HT_SEED_SEED = c.u32 16 ∧ (∀ i, i < 2 ^ 28 → u.slot t i = 0) ∧
        (u.tag q).fin.map (fun f => (f.status, f.data)) = some (St.DONE, [])))) ∧
  (∀ (q : Req) (s : State) (c : Cmd) (t : Nat), s.holds q 0x0321 c → t = c.u8 8 →
    (8 ≤ t ∨ s.flag (htBase t) R.RSV_HT_CFG_EN = false → Gives (.tblRsvDestroy q) s (Ends q St.BAD_ARGUMENT [] s)) ∧
    (t < 8 → s.flag (htBase t) R.RSV_HT_CFG_EN = true → Gives (.tblRsvDestroy q) s fun u => u.htEn t = false ∧
      (∀ i, i < 2 ^ 28 → u.slot t i = 0) ∧ (∀ y i, y ≠ t → i < 2 ^ 28 → u.slot y i = s.slot y i) ∧
      (u.tag q).fin.map (·.status) = some St.DONE)) ∧
  (∀ (q : Req) (s : State) (c : Cmd) (t words key v : Nat), s.holds q 0x0322 c → t = c.u8 8 →
    words = leNat (c.bytes 16 56) → key = words % 2 ^ (64 * s.htK t) → v = Slot.mk words (bitOf (c.u8 9) 0) s.lastNow →
    (8 ≤ t ∨ s.htEn t = false → Gives (.tblRsvInsert q) s (Ends q St.BAD_ARGUMENT [] s)) ∧
    (t < 8 → s.htEn t = true →
      (∀ i, s.slotFind t key = some i → bitOf (c.u8 9) 1 = false → Gives (.tblRsvInsert q) s (Ends q St.BAD_ARGUMENT [] s)) ∧
      (∀ i, s.slotFind t key = some i → bitOf (c.u8 9) 1 = true →
        Gives (.tblRsvInsert q) s (Ends q St.DONE (leBytes 4 i ++ [0]) (s.setSlot t i v))) ∧
      (∀ i b, s.slotFind t key = none → b = (s.buckets t key).1 → s.freeSlot t b = some i ∨
          s.freeSlot t b = none ∧ s.freeSlot t (s.buckets t key).2 = some i →
        Gives (.tblRsvInsert q) s (Ends q St.DONE (leBytes 4 i ++ [0]) (s.setSlot t i v))) ∧
      (s.slotFind t key = none → s.freeSlot t (s.buckets t key).1 = none → s.freeSlot t (s.buckets t key).2 = none →
        10 ≤ s.htLog t →
        (∀ i, i < 2 ^ s.htLog t → Slot.valid (s.slot t i) = true) → Gives (.tblRsvInsert q) s fun u =>
          (u.tag q).fin.map (fun f => (f.status, f.data)) = some (St.TABLE_FULL, []) ∧ u.tbl = s.tbl))) ∧
  (∀ (q : Req) (s : State) (c : Cmd) (t key : Nat), t = c.u8 8 → key = leNat (c.bytes 16 40) % 2 ^ (64 * s.htK t) →
    (s.holds q 0x0323 c →
      (8 ≤ t ∨ s.htEn t = false → Gives (.tblRsvDelete q) s (Ends q St.BAD_ARGUMENT [] s)) ∧
      (t < 8 → s.htEn t = true → s.slotFind t key = none → Gives (.tblRsvDelete q) s (Ends q St.DONE [0] s)) ∧
      (∀ i, t < 8 → s.htEn t = true → s.slotFind t key = some i →
        Gives (.tblRsvDelete q) s (Ends q St.DONE [1] (s.setSlot t i (setBits (s.slot t i) 511 511 0))))) ∧
    (s.holds q 0x0324 c →
      (8 ≤ t ∨ s.htEn t = false → Gives (.tblRsvRead q) s (Ends q St.BAD_ARGUMENT [] s)) ∧
      (t < 8 → s.htEn t = true → s.slotFind t key = none →
        Gives (.tblRsvRead q) s (Ends q St.DONE (List.replicate 64 0 ++ [0]) s)) ∧
      (∀ i, t < 8 → s.htEn t = true → s.slotFind t key = some i →
        Gives (.tblRsvRead q) s (Ends q St.DONE (leBytes 64 (s.slot t i) ++ [1]) s)))) ∧
  (∀ (q : Req) (b : Fetch) (s : State) (c : Cmd) (t n : Nat), s.holds q 0x0325 c → t = c.u8 8 → n = c.u32 24 →
    (8 ≤ t ∨ s.htEn t = false → Gives (.tblRsvBatch q b) s (Ends q St.BAD_ARGUMENT [] s)) ∧
    (t < 8 → s.htEn t = true → s.bufWaits q → exec (.tblRsvBatch q b) s = .next s) ∧
    (∀ v, t < 8 → s.htEn t = true → s.bufFails q (c.u64 16) (64 * n) b v → Gives (.tblRsvBatch q b) s (Ends q St.BAD_ARGUMENT [] v)) ∧
    (∀ l v st i k u, t < 8 → s.htEn t = true → s.bufGives q (c.u64 16) (64 * n) b l v → n = 1 →
      v.rsvRecord t ((l.take 64).getD 56 0).toNat (leNat (l.take 56)) = (st, i, k, u) →
      (st = St.DONE → Gives (.tblRsvBatch q b) s (Ends q St.DONE (leBytes 4 1 ++ leBytes 4 0) u)) ∧
      (st ≠ St.DONE → Gives (.tblRsvBatch q b) s (Ends q st (leBytes 4 0 ++ leBytes 4 0) u)))) ∧
  (∀ (q : Req) (s : State) (c : Cmd), s.holds q 0x0330 c → ∃ l, Gives (.tblStatus q) s (Ends q St.DONE l s) ∧ l.length = 120 ∧
    (∀ x, x < 4 → leNat ((l.drop (16 * x)).take 4) = s.rd (B.SEED x) R.SEED_VERSION_VERSION ∧
      leNat ((l.drop (16 * x + 4)).take 4) = s.seedCount x Seed.valid % 2 ^ 32) ∧
    leNat ((l.drop 64).take 8) = s.tbl.insertFail % 2 ^ 64 ∧ leNat ((l.drop 72).take 8) = s.tbl.learnStatic % 2 ^ 64 ∧
    leNat ((l.drop 80).take 8) = s.tbl.missSeen % 2 ^ 64) ∧
  (∀ (q : Req) (s : State) (c : Cmd), s.holds q 0x0331 c →
    (1000 < c.u16 8 ∨ c.u8 10 = 0 ∨ 32 ≤ c.u8 11 ∧ c.u8 11 ≠ 0xFF → Gives (.tblAgeCfg q) s (Ends q St.BAD_ARGUMENT [] s)) ∧
    (c.u16 8 ≤ 1000 → c.u8 10 ≠ 0 → c.u8 11 < 32 ∨ c.u8 11 = 0xFF → Gives (.tblAgeCfg q) s fun t =>
      t.tbl.missCore = c.u8 11 ∧ (t.tag q).fin.map (·.status) = some St.DONE ∧
      ∀ x, x < 4 → s.domOn (domQuad x) = true → t.rd (B.SEED x) R.SEED_CFG_AGE_PERIOD = c.u16 8 ∧
        t.rd (B.SEED x) R.SEED_CFG_LF_HOLD = c.u8 10 ∧
        t.flag (B.SEED x) R.SEED_CFG_LEARN_EN = s.flag (B.SEED x) R.SEED_CFG_LEARN_EN)) ∧
  (∀ (t : Fin 8) (l : List Nat) (s : State),
    (s.htEn t = false ∨ s.rd (htBase t) R.RSV_HT_IDLE_IDLE = 0 ∨ s.due (Tm.idle t) (s.idlePeriod t) = false →
      exec (.rsvIdleSweep t l) s = .next s) ∧
    (s.htEn t = true → s.rd (htBase t) R.RSV_HT_IDLE_IDLE ≠ 0 → s.due (Tm.idle t) (s.idlePeriod t) = true →
      twf (fun _ => 0) s.tbl.slots = true → Gives (.rsvIdleSweep t l) s fun u =>
      (∀ i, i < 2 ^ 28 → (s.idleSlot t i = false → u.slot t i = s.slot t i) ∧
        (s.idleSlot t i = true → i ∉ l → Slot.valid (u.slot t i) = false) ∧
        (s.idleSlot t i = true → i ∈ l → Slot.valid (u.slot t i) = true ∧ Slot.last (u.slot t i) = s.lastNow % 2 ^ 44)) ∧
      (∀ y i, y ≠ t.val → i < 2 ^ 28 → u.slot y i = s.slot y i) ∧ u.timers = (s.stamp (Tm.idle t)).timers ∧
      u = { s with tbl := u.tbl, regs := u.regs, cnts := u.cnts, flt := u.flt, timers := u.timers }))


/-- R193, R197 to R204, Tables 8.5 and 8.6: the firmware serves notices in the order of each queue, the sweeper visits an
entry, keys leave the learn filter, and a copy that was switched on has been loaded. -/
def Obligations.NoticesAndAgeing : Prop :=
  (∀ (q : Quad) (b : Bool) (s : State) (k : Nat), (s.noticesOf q = [] ∨ (∃ n ns, s.noticesOf q = n :: ns ∧
      (n.type ≠ k ∨ s.tbl.loading ≠ [] ∨ s.modes.lkRunning = false ∨ k ≠ 4 ∧ s.mode = .trickle))) →
    ∀ x ∈ [(0, Instr.learnNotice q), (1, Instr.missNotice q), (2, Instr.ageNotice q), (3, Instr.remoteHitNotice q),
        (4, Instr.parityNotice q b)],
      x.1 = k → exec x.2 s = .next s) ∧
  (∀ (q : Quad) (s : State) (n : Notice) (ns : List Notice), s.noticesOf q = n :: ns → n.type = 0 → s.tbl.loading = [] →
    s.modes.lkRunning = true → s.mode ≠ .trickle → n.key < 2 ^ 96 →
    (Seed.valid (s.masterAt n.key) = true → Seed.data (s.masterAt n.key) = n.data → Seed.key (s.masterAt n.key) = n.key →
      s.seedFind q n.key = none → twf (fun _ => 0) s.tbl.seed = true →
      (∃ i, i < seedUsable ∧ Seed.valid (s.seedAt q i) = false ∧ Seed.retired (s.seedAt q i) = false) →
      Gives (.learnNotice q) s fun t => t.noticesOf q = ns ∧ (∃ i, t.seedFind q n.key = some i ∧ i < seedUsable ∧
          Seed.valid (s.seedAt q i) = false ∧ t.seedAt q i = Seed.setHit (s.masterAt n.key) true ∧
          ∀ x j, seedKey x j ≠ seedKey q i → t.seedAt x j = s.seedAt x j) ∧
        t = { s with tbl := { s.tbl with notices := t.tbl.notices, seed := t.tbl.seed }, upsets := t.upsets, freeCtr := t.freeCtr }) ∧
    (∀ i, Seed.valid (s.masterAt n.key) = true → Seed.data (s.masterAt n.key) = n.data → s.seedFind q n.key = some i →
      Gives (.learnNotice q) s fun t => t.noticesOf q = ns ∧
        t.seedAt q i = Seed.setStale (Seed.setHit (s.masterAt n.key) (Seed.hit (s.seedAt q i))) (Seed.stale (s.seedAt q i)) ∧
        (∀ x j, seedKey x j ≠ seedKey q i → t.seedAt x j = s.seedAt x j) ∧
        t = { s with tbl := { s.tbl with notices := t.tbl.notices, seed := t.tbl.seed }, upsets := t.upsets }) ∧
    (Seed.valid (s.masterAt n.key) = true → Seed.data (s.masterAt n.key) ≠ n.data → Seed.static_ (s.masterAt n.key) = true →
      Gives (.learnNotice q) s fun t => t.noticesOf q = ns ∧
        t = { s with tbl := { s.tbl with notices := t.tbl.notices, learnStatic := s.tbl.learnStatic + 1 } }) ∧
    (Seed.valid (s.masterAt n.key) = false ∨ Seed.data (s.masterAt n.key) ≠ n.data ∧ Seed.static_ (s.masterAt n.key) = false →
      (∀ x, s.refusingCopy n.key = some x → Gives (.learnNotice q) s fun t => t.noticesOf q = ns ∧
        t = { s with tbl := { s.tbl with notices := t.tbl.notices, insertFail := s.tbl.insertFail + 1 } }) ∧
      (s.refusingCopy n.key = none → Gives (.learnNotice q) s fun t => t.noticesOf q = ns ∧
        t.masterAt n.key = Seed.mk false false q n.key n.data ∧ (∀ k, k ≠ n.key → t.masterAt k = s.masterAt k) ∧
        t.tbl.version = (s.tbl.version + 1) % 2 ^ 32 ∧
        ∀ x ∈ s.copies, ∀ i, s.seedFind x n.key = some i → t.seedAt x i = Seed.mk false true q n.key n.data))) ∧
  (∀ (q : Quad) (s : State) (n : Notice) (ns : List Notice), s.noticesOf q = n :: ns → n.type = 1 → s.tbl.loading = [] →
    s.modes.lkRunning = true → s.mode ≠ .trickle → Gives (.missNotice q) s fun t => t.noticesOf q = ns ∧
      t.out = s.out ++ (if s.tbl.missCore < 32 then [.missNotice s.tbl.missCore (noticeBytes q n)] else []) ∧
      t = { s with tbl := { s.tbl with notices := t.tbl.notices, missSeen := s.tbl.missSeen + 1 }, out := t.out }) ∧
  (∀ (q : Quad) (s : State) (n : Notice) (ns : List Notice), s.noticesOf q = n :: ns → n.type = 2 → s.tbl.loading = [] →
    s.modes.lkRunning = true → s.mode ≠ .trickle → Gives (.ageNotice q) s fun t => t.noticesOf q = ns ∧ t.masterAt n.key = 0 ∧
      (∀ k, k ≠ n.key → t.masterAt k = s.masterAt k) ∧ t.tbl.version = (s.tbl.version + 1) % 2 ^ 32 ∧
      (∀ x ∈ s.copies, x ≠ q.val → ∀ i, s.seedFind x n.key = some i → Seed.valid (t.seedAt x i) = false) ∧
      (∀ i, i < 2 ^ 17 → t.seedAt q i = s.seedAt q i)) ∧
  (∀ (q : Quad) (s : State) (n : Notice) (ns : List Notice) (h : Nat), s.noticesOf q = n :: ns → n.type = 3 →
    s.tbl.loading = [] → s.modes.lkRunning = true → s.mode ≠ .trickle → h = Seed.home (s.masterAt n.key) →
    (∀ i, Seed.valid (s.masterAt n.key) = true → s.copyOn h = true → s.seedFind h n.key = some i →
      Gives (.remoteHitNotice q) s fun t => t.noticesOf q = ns ∧ t.seedAt h i = Seed.setHit (s.seedAt h i) true ∧
        (∀ x j, seedKey x j ≠ seedKey h i → t.seedAt x j = s.seedAt x j) ∧ t.tbl.master = s.tbl.master) ∧
    (Seed.valid (s.masterAt n.key) = false ∨ s.copyOn h = false ∨ s.seedFind h n.key = none →
      Gives (.remoteHitNotice q) s fun t => t.noticesOf q = ns ∧ t.tbl.seed = s.tbl.seed)) ∧
  (∀ (q : Quad) (s : State) (n : Notice) (ns : List Notice) (w a : Nat), s.noticesOf q = n :: ns → n.type = 4 →
    s.tbl.loading = [] → s.modes.lkRunning = true → s.mild 26 → w = s.bankWidth q (n.index / bankUnits) →
    a = n.index / w * w →
    let e := s.seedAt q n.index
    let m := s.masterAt (Seed.key e)
    let old := ∃ k, k < w ∧ Sieve.retired (s.unit q (a + k)) = true
    (n.sieve = false → Seed.retired e = false → n.index < seedUsable → Gives (.parityNotice q true) s fun t => t.noticesOf q = ns ∧
      t.seedAt q n.index = (if Seed.valid m = true ∧ (s.seedFind q (Seed.key e) = some n.index ∨ s.seedFind q (Seed.key e) = none) then
        Seed.setStale (Seed.setHit m (Seed.hit e)) (Seed.stale e) else 0) ∧
      (∀ x j, seedKey x j ≠ seedKey q n.index → t.seedAt x j = s.seedAt x j)) ∧
    (∀ b, n.sieve = false → Seed.retired e = true ∨ b = true ∧ seedUsable ≤ n.index → Gives (.parityNotice q b) s fun t =>
      t.noticesOf q = ns ∧ (∀ x j, t.seedAt x j = s.seedAt x j) ∧ t.upset (upsetSeed (seedKey q n.index)) = 0) ∧
    (n.sieve = false → Seed.retired e = false → n.index < 2 ^ 17 → twf (fun _ => 0) s.tbl.seed = true →
      Gives (.parityNotice q false) s fun t =>
        t.noticesOf q = ns ∧ t.seedAt q n.index = 2 ^ 185 ∧ Seed.retired (t.seedAt q n.index) = true) ∧
    (n.sieve = true → n.index < sieveUnits → ¬ old → Gives (.parityNotice q true) s fun t => t.noticesOf q = ns ∧
      ∀ k, k < w → t.unit q (a + k) = s.unit sieveMaster (a + k)) ∧
    (n.sieve = true → n.index < sieveUnits → ¬ old → Gives (.parityNotice q false) s fun t => t.noticesOf q = ns ∧
      ∀ k, k < w → Sieve.retired (t.unit q (a + k)) = true) ∧
    (∀ b, n.sieve = true → n.index < sieveUnits → old → Gives (.parityNotice q b) s fun t => t.noticesOf q = ns ∧
      ∀ x k, t.unit x k = s.unit x k)) ∧
  (∀ (q : Quad) (i : Fin 131072) (hit : Bool) (s : State) (e : Nat), e = s.seedAt q i → s.sweepMay q i = true →
    s.flag B.PMC R.PMC_CTRL_FREEZE = false →
    let note := fun (k : Nat) => (⟨Seed.key e, k, 0, 0, s.timeWord % 2 ^ 32, i.val, false⟩ : Notice)
    let ends := fun (e' : Nat) (ns : List Notice) (c : Option Nat) => Gives (.sweeperVisit q i hit) s fun t =>
      t.seedAt q i = e' ∧ (∀ x j, seedKey x j ≠ seedKey q i → t.seedAt x j = s.seedAt x j) ∧
      t.noticesOf q = s.noticesOf q ++ ns ∧ (∀ k, c = some k → t.cnt k = (s.cnt k + 1) % 2 ^ 64) ∧
      (c = none → t.cnts = s.cnts) ∧
      t.sweepOf q = ((i.val + 1) % 131072, (s.sweepOf q).2 + (s.sweepGap q i + 1) * s.agePeriod q) ∧
      t = { s with
        tbl := { s.tbl with seed := t.tbl.seed, notices := t.tbl.notices, sweep := t.tbl.sweep }
        cnts := t.cnts, flt := t.flt, regs := t.regs }
    (Seed.valid e = false ∨ Seed.static_ e = true → ends (Seed.setHit e false) [] none) ∧
    (Seed.valid e = true → Seed.static_ e = false → Seed.home e = q.val →
      (Seed.hit e = true → ends (Seed.setStale (Seed.setHit e false) false) [] none) ∧
      (Seed.hit e = false → Seed.stale e = false → ends (Seed.setStale e true) [] none) ∧
      (Seed.hit e = false → Seed.stale e = true → hit = true → ends (Seed.setHit e true) [] (some (B.SEED q + C.SEED_AGE_CANCELLED))) ∧
      (Seed.hit e = false → Seed.stale e = true → hit = false → (s.noticesOf q).length < 4096 →
        ends (Seed.setValid e false) [note 2] (some (B.SEED q + C.SEED_AGED))) ∧
      (Seed.hit e = false → Seed.stale e = true → hit = false → 4096 ≤ (s.noticesOf q).length →
        exec (.sweeperVisit q i hit) s = .next s)) ∧
    (Seed.valid e = true → Seed.static_ e = false → Seed.home e ≠ q.val →
      (Seed.hit e = true → (s.noticesOf q).length < 4096 →
        ends (Seed.setHit e false) [note 3] (some (B.SEED q + C.SEED_REMOTE_HIT))) ∧
      (Seed.hit e = true → 4096 ≤ (s.noticesOf q).length → exec (.sweeperVisit q i hit) s = .next s) ∧
      (Seed.hit e = false → ends e [] none))) ∧
  (∀ (q : Quad) (i : Fin 131072) (hit : Bool) (s : State),
    (s.sweepMay q i = false → exec (.sweeperVisit q i hit) s = .next s) ∧
    (s.copyOn q = true → s.rd (B.SEED q) R.SEED_CFG_AGE_PERIOD ≠ 0 → (s.mode = .trickle → q ≠ 0) → (s.sweepOf q).1 = i.val →
      s.sweepMay q i = decide ((s.sweepOf q).2 ≤ s.now * 131072)) ∧
    (s.copyOn q = false ∨ s.rd (B.SEED q) R.SEED_CFG_AGE_PERIOD = 0 ∨ s.mode = .trickle ∧ q = 0 → s.sweepMay q i = false)) ∧
  (∀ (h : Headrace) (s : State), Gives (.learnFilterExpire h) s fun t => t.filterOf h =
      ((s.filterOf h).filter fun e => decide (s.now < e.2 + 100000 * s.rd (B.SEED (h / 4)) R.SEED_CFG_LF_HOLD)) ∧
    (∀ x, x ≠ h.val → t.filterOf x = s.filterOf x) ∧ t = { s with tbl := { s.tbl with filters := t.tbl.filters } }) ∧
  (∀ (q : Quad) (s : State),
    (q.val ∉ s.tbl.loading ∨ s.domOn (domQuad q) = false → exec (.tableCopyLoaded q) s = .next s) ∧
    (q.val ∈ s.tbl.loading → s.domOn (domQuad q) = true → s.tbl.waiting = [] → twf (fun _ => 0) s.tbl.sieve = true →
      twf (fun _ => 0) s.tbl.seed = true → (∀ e ∈ s.tbl.cfg, e.1 < 0x10_0000) → (s.tbl.cfg.map (·.1)).Nodup →
      Gives (.tableCopyLoaded q) s fun t => t.tbl.loading = s.tbl.loading.filter (· ≠ q.val) ∧ t.copyOn q = true ∧
        t.rd (B.SEED q) R.SEED_VERSION_VERSION = s.tbl.version % 2 ^ 32 ∧ t.tbl.version = s.tbl.version ∧
        t.tbl.master = s.tbl.master ∧ (∀ e ∈ s.tbl.cfg, 0xD_0000 ≤ e.1 → t.reg (B.QUAD q + e.1) = e.2) ∧
        (∀ a, a < 2 ^ 17 → t.unit q a = s.unit sieveMaster a) ∧
        (∀ k e, s.tbl.master = [(k, e)] → Seed.valid e = true → Seed.key e = k → (∀ i, s.seedAt q i = 0) →
          ∃ i, i < seedUsable ∧ t.seedAt q i = e) ∧
        (∀ x a, x ≠ q.val → x < 5 → a < 2 ^ 17 → t.unit x a = s.unit x a)))


/-! ### Weir, buffers and congestion (chapter 9) -/

/-- R214, R216 to R219, R222, R223, R225, R228, R229: a slot of the Weir, the averages, the spill movers, the release of a
group's old list, and the tap rings. The reading of Bits 7 to 0 of A as rounded down is the model's (assumption 39). -/
def Obligations.WeirData : Prop :=
  (∀ (s : State),
    (s.domOn 73 = false ∨ s.forwarding = false ∨ 2417 ≤ s.slotsIn.length → exec .weirSlot s = .next s) ∧
    (s.domOn 73 = true → s.forwarding = true → s.slotsIn.length < 2417 → (∀ h t c, h < 16 → t < 16 → c < 8 → s.eligible h t c = false) →
      Gives .weirSlot s fun u => u = { s with weir := { s.weir with slotAt := u.weir.slotAt }, cnts := u.cnts, flt := u.flt }) ∧
    (s.match_.1.map (·.1)).Nodup ∧ (s.match_.1.map (·.2)).Nodup ∧
    (∀ e ∈ s.match_.1, e.1 < 16 ∧ e.2 < 16 ∧ ∃ c, c < 8 ∧ s.eligible e.1 e.2 c = true)) ∧
  (∀ (h t : Fin 16) (c : Fin 8) (s : State) (p : VPkt) (d : Copy) (v th : Nat) (ce : Bool), s.domOn 73 = true → s.forwarding = true →
    s.slotsIn.length < 2417 → s.domOn (domHR h) = true → s.domOn (domTR t) = true → s.eligible h t c = true →
    (∀ h' t' c', h' < 16 → t' < 16 → c' < 8 → ¬ (h' = h ∧ t' = t ∧ c' = c) → s.eligible h' t' c' = false) →
    s.flag B.PMC R.PMC_CTRL_FREEZE = false → v = voqKey h t c → (s.voq v).pkts = [p] → p.spilled = false → p.group = none → p.off ≤ 3 →
    p.copies = [d] → th = s.rd (tcBase t c) R.WEIR_TC_ECN_TH →
    ce = (decide (ecnOf p.carry p.pkt.data ≠ 0) && decide ((if s.belowLR then th / 4 else th) < s.depth t c)) →
    Gives .weirSlot s fun u =>
      tget (fun _ => 0) u.weir.grantPtr t = (h + 1) % 16 ∧ tget (fun _ => 0) u.weir.acceptPtr h = (t + 1) % 16 ∧
      (p.left + p.off ≤ 4 → (u.voq v).pkts = [] ∧ u.poolUsed (h / 4) p.pool = s.poolUsed (h / 4) p.pool - p.segs) ∧
      (4 < p.left + p.off → u.weir.used = s.weir.used ∧
        (u.voq v).pkts = [{ p with left := p.left - (4 - p.off), cell := p.cell + 1, off := 0, sent := true }]) ∧
      (∀ x, x ≠ v → u.voq x = s.voq x) ∧
      (p.sent = false → s.copyDown d = false → (u.pipe (16 + t)).toks.map (fun k => (k.id, k.pkt, k.ce, k.dest, k.gen)) =
        (s.pipe (16 + t)).toks.map (fun k => (k.id, k.pkt, k.ce, k.dest, k.gen)) ++ [(p.id, p.pkt, ce, d.dest, d.gen)]) ∧
      (p.sent = false → s.copyDown d = true → (u.pipe (16 + t)).toks.length = (s.pipe (16 + t)).toks.length ∧
        u.cnt (s.downCnt d.dest) = (s.cnt (s.downCnt d.dest) + 1) % 2 ^ 64) ∧
      (p.sent = false →
        (ce = true → u.cnt (B.WEIR + C.WEIR_ECN_MARKED + 8 * t) = (s.cnt (B.WEIR + C.WEIR_ECN_MARKED + 8 * t) + 1) % 2 ^ 64) ∧
        (ce = false → u.cnt (B.WEIR + C.WEIR_ECN_MARKED + 8 * t) = s.cnt (B.WEIR + C.WEIR_ECN_MARKED + 8 * t))) ∧
      (p.sent = true → (u.pipe (16 + t)).toks.length = (s.pipe (16 + t)).toks.length) ∧
      (p.pkt.tsReq = false → u.qps = s.qps) ∧
      u = { s with weir := u.weir, pipes := u.pipes, regs := u.regs, cnts := u.cnts, flt := u.flt, eth := u.eth, out := u.out,
                   timers := u.timers, qps := u.qps }) ∧
  (∀ (s : State),
    (s.domOn 73 = false ∨ tget (fun _ => 0) s.timers Tm.averages = s.now / 64 + 1 → exec .congestionAverageUpdate s = .next s) ∧
    (s.domOn 73 = true → tget (fun _ => 0) s.timers Tm.averages ≠ s.now / 64 + 1 → Gives .congestionAverageUpdate s fun u =>
      u = { s with weir := { s.weir with avg := u.weir.avg }, timers := u.timers } ∧
      tget (fun _ => 0) u.timers Tm.averages = s.now / 64 + 1 ∧
      ∀ t c, t < 16 → c < 8 → (u.avgOf t c : Int) =
        s.avgOf t c + (256 * (s.depth t c : Int) - s.avgOf t c) / 2 ^ s.rd (tcBase t c) R.WEIR_TC_WEIGHT)) ∧
  (∀ (h : Headrace) (t : Tailrace) (c : Fin 8) (s : State) (v : Nat), v = voqKey h t c →
    ((s.voq v).pkts = [] ∨ bitOf (s.rd B.WEIR R.WEIR_RSVQ_CLASSES) c = false ∨ (∃ d ∈ [domHR h, 66, 67, 68], s.domOn d = false) ∨
      s.use v ≤ 4 * s.spillTh ∨ s.moverFree (h / 4) 0 = false → exec (.spillOut h t c) s = .next s) ∧
    (∀ l p m, (s.voq v).pkts = l ++ p :: m →
      ((∀ x ∈ p :: m, x.spilled = false) ∧ l.getLast?.map (·.spilled) = some true ∨
        (∀ x ∈ l, x.spilled = false) ∧ p.spilled = false ∧ (m.head?.map (·.spilled)) ≠ some false ∧
          (m.getLast?.map (·.spilled)) ≠ some false) →
      let bytes := spilledBytes (s.voq v) + 64 * p.segs
      let pages := s.spillPages + (bytes + 4095) / 4096 - (s.voq v).pages
      (∀ x ∈ l ++ m, x.id ≠ p.id) →
      (p.sent = true ∨ s.rd B.WEIR R.WEIR_RSVQ_MAX_MAX * 2 ^ 20 < bytes ∨ 2 ^ 22 < pages → exec (.spillOut h t c) s = .next s) ∧
      (p.sent = false → bitOf (s.rd B.WEIR R.WEIR_RSVQ_CLASSES) c = true → (∀ d ∈ [domHR h, 66, 67, 68], s.domOn d = true) →
        4 * s.spillTh < s.use v → s.moverFree (h / 4) 0 = true → bytes ≤ s.rd B.WEIR R.WEIR_RSVQ_MAX_MAX * 2 ^ 20 → pages ≤ 2 ^ 22 →
        s.flag B.PMC R.PMC_CTRL_FREEZE = false →
        Gives (.spillOut h t c) s fun u => (u.voq v).pkts = l ++ { p with spilled := true } :: m ∧
          (∀ x, x ≠ v → u.voq x = s.voq x) ∧
          u.poolUsed (h / 4) p.pool = s.poolUsed (h / 4) p.pool - (if s.sharedData v p then 0 else p.segs) ∧
          u.cnt (B.HDR h + C.HDR_SPILLED) = (s.cnt (B.HDR h + C.HDR_SPILLED) + 1) % 2 ^ 64 ∧
          tget (fun _ => 0) u.weir.mover (2 * (h / 4)) = 200 * s.now + 64 * p.segs ∧
          u = { s with weir := u.weir, cnts := u.cnts, flt := u.flt, eth := u.eth, out := u.out, timers := u.timers })) ∧
    (∀ l p m, (s.voq v).pkts = l ++ p :: m → (∀ x ∈ l, x.spilled = false) → p.spilled = true →
      (s.domOn (domHR h) = false ∨ s.spillTh * 4 ≤ 2 * (l.map (·.segs)).sum ∨ s.sharedFree (h / 4) < p.segs ∨
        s.moverFree (h / 4) 1 = false → exec (.spillBack h t c) s = .next s) ∧
      (s.domOn (domHR h) = true → 2 * (l.map (·.segs)).sum < s.spillTh * 4 → p.segs ≤ s.sharedFree (h / 4) →
        s.moverFree (h / 4) 1 = true → s.flag B.PMC R.PMC_CTRL_FREEZE = false →
        Gives (.spillBack h t c) s fun u => (u.voq v).pkts = l ++ { p with
            id := if p.group.isSome then s.weir.nextId else p.id
            spilled := false, pool := 1, cell := (s.voq v).next, off := 0, left := dataSegs (p.pkt.data.length + 4) } :: m ∧
          (∀ x, x ≠ v → u.voq x = s.voq x) ∧ u.poolUsed (h / 4) 1 = s.poolUsed (h / 4) 1 + p.segs ∧
          tget (fun _ => 0) u.weir.mover (2 * (h / 4) + 1) = 200 * s.now + 64 * p.segs ∧
          u = { s with weir := u.weir, cnts := u.cnts, flt := u.flt, eth := u.eth, out := u.out, timers := u.timers })) ∧
    ((∀ x ∈ (s.voq v).pkts, x.spilled = false) → exec (.spillBack h t c) s = .next s)) ∧
  (∀ (g : Fin 4096) (s : State), Gives (.groupEpochRelease g) s fun u => u = { s with weir := { s.weir with old := u.weir.old } } ∧
    ∀ e, e ∈ u.weir.old ↔ e ∈ s.weir.old ∧ (e.1 = g.val → 0 < s.inFlight g e.2.1)) ∧
  (∀ (h : Headrace) (s : State) (t : Token) (ts : List Token) (q r b rb k n cnt seq size prod base lost : Nat), s.domOn (domHR h) = true →
    s.domOn 73 = true → s.mode ≠ .trickle → (s.pipe h).toks = t :: ts → t.gate = 11 → t.st = .last → Carry.drop t.carry = true →
    (∀ x y z, t.pkt.org = .plot x y z → s.flag (B.PLOT x) R.PLOT_POLICER_EN = false) →
    s.flag B.PMC R.PMC_CTRL_FREEZE = false → q = h / 4 → r = Carry.tapReason t.carry → b = B.TAP q + 4 * r →
    Carry.tapReq t.carry = true → s.flag b R.TAP_SAMP_EN = true → s.flag b R.TAP_SAMP_RANDOM = false → n = s.rd b R.TAP_SAMP_N →
    (cnt, seq) = tget (fun _ => (0, 0)) s.weir.samp (256 * q + r) → k = s.rd b R.TAP_SAMP_RING → rb = B.TAP q + 0x20 * k →
    size = 2 ^ s.rd rb R.TAP_RING_SIZE_SIZE → prod = s.rd rb R.TAP_RING_PROD_PROD → base = s.pair (rb + R.TAP_RING_BASE_LO_BASE.off) →
    lost = tget (fun _ => 0) s.weir.lost (16 * q + k) →
    let room := (prod + 2 ^ 32 - s.rd rb R.TAP_RING_CONS_CONS) % 2 ^ 32 < size ∧ s.raOn base = true ∧ (s.tapsIn q).length < 50
    (cnt + 1 < n → Gives (.tokenExitHeadrace h) s fun u => u.mem = s.mem ∧
      tget (fun _ => (0, 0)) u.weir.samp (256 * q + r) = (cnt + 1, seq)) ∧
    (n ≤ cnt + 1 → room → Gives (.tokenExitHeadrace h) s fun u =>
      bytesAt u.mem (B.RA + base + 160 * (prod % size)) 160 = tapEntry t.pkt t.carry r ((seq + 1) % 2 ^ 32) lost t.lr true ∧
      (∀ a, a < B.RA + base + 160 * (prod % size) ∨ B.RA + base + 160 * (prod % size) + 160 ≤ a → byteAt u.mem a = byteAt s.mem a) ∧
      tget (fun _ => (0, 0)) u.weir.samp (256 * q + r) = (0, (seq + 1) % 2 ^ 32) ∧
      tget (fun _ => 0) u.weir.lost (16 * q + k) = 0 ∧ u.rd rb R.TAP_RING_PROD_PROD = (prod + 1) % 2 ^ 32 ∧
      u.cnt (B.TAP q + C.TAP_REC_WRITTEN + 8 * k) = (s.cnt (B.TAP q + C.TAP_REC_WRITTEN + 8 * k) + 1) % 2 ^ 64) ∧
    (n ≤ cnt + 1 → ¬ room → Gives (.tokenExitHeadrace h) s fun u => u.mem = s.mem ∧
      tget (fun _ => (0, 0)) u.weir.samp (256 * q + r) = (0, (seq + 1) % 2 ^ 32) ∧
      tget (fun _ => 0) u.weir.lost (16 * q + k) = (lost + 1) % 2 ^ 32 ∧ u.rd rb R.TAP_RING_PROD_PROD = prod ∧
      u.cnt (B.TAP q + C.TAP_REC_LOST + 8 * k) = (s.cnt (B.TAP q + C.TAP_REC_LOST + 8 * k) + 1) % 2 ^ 64))

/-- R211, R220, R222, R228 to R230, Table 9.4: the commands of the Weir. Where new members and a tap ring are placed is the
model's free choice among the places with room (assumption 2). -/
def Obligations.WeirCommands : Prop :=
  (∀ (q : Req) (s : State) (c : Cmd), s.holds q 0x0340 c →
    (16 ≤ c.u8 8 ∨ 8 ≤ c.u8 9 ∨ 16 ≤ c.u8 10 ∨ 16 ≤ c.u8 11 ∨ 2 ^ 24 ≤ c.u32 12 →
      Gives (.qosTcSet q) s (Ends q St.BAD_ARGUMENT [] s)) ∧
    (c.u8 8 < 16 → c.u8 9 < 8 → c.u8 10 < 16 → c.u8 11 < 16 → c.u32 12 < 2 ^ 24 → Gives (.qosTcSet q) s fun t =>
      ∃ u, Wrote s u [tcBase (c.u8 8) (c.u8 9) + 0x1000] ∧ u.rd (tcBase (c.u8 8) (c.u8 9)) R.WEIR_TC_RED_PROF = c.u8 10 ∧
        u.rd (tcBase (c.u8 8) (c.u8 9)) R.WEIR_TC_WEIGHT = c.u8 11 ∧ u.rd (tcBase (c.u8 8) (c.u8 9)) R.WEIR_TC_ECN_TH = c.u32 12 ∧
        Ends q St.DONE [] u t)) ∧
  (∀ (q : Req) (s : State) (c : Cmd) (a : Nat), s.holds q 0x0341 c → a = B.WEIR + 0x400 + 0x20 * c.u8 8 →
    (16 ≤ c.u8 8 ∨ (∃ k, k < 3 ∧ 256 ≤ c.u32 (16 + 8 * k)) → Gives (.qosRedSet q) s (Ends q St.BAD_ARGUMENT [] s)) ∧
    (c.u8 8 < 16 → (∀ k, k < 3 → c.u32 (16 + 8 * k) < 256) → Gives (.qosRedSet q) s fun t =>
      ∃ u, Wrote s u [a, a + 4, a + 8, a + 12, a + 16, a + 20] ∧
        (∀ k, k < 3 → (u.reg (a + 8 * k)).toNat = c.u32 (12 + 8 * k) ∧ (u.reg (a + 8 * k + 4)).toNat = c.u32 (16 + 8 * k)) ∧
        Ends q St.DONE [] u t)) ∧
  (∀ (q : Req) (s : State) (c : Cmd), s.holds q 0x0342 c →
    (4 ≤ c.u8 8 ∨ 256 ≤ c.u16 10 ∨ (∃ k, k < 8 ∧ (signedOf 4 (bitsOf (c.u32 16) (4 * k + 3) (4 * k)) < -4 ∨
        3 < signedOf 4 (bitsOf (c.u32 16) (4 * k + 3) (4 * k)))) → Gives (.qosBufSet q) s (Ends q St.BAD_ARGUMENT [] s)) ∧
    (c.u8 8 < 4 → c.u16 10 < 256 → (∀ k, k < 8 → -4 ≤ signedOf 4 (bitsOf (c.u32 16) (4 * k + 3) (4 * k)) ∧
        signedOf 4 (bitsOf (c.u32 16) (4 * k + 3) (4 * k)) ≤ 3) →
      (196608 < 26624 + 512 * c.u16 10 + c.u16 12 + 65536 → Gives (.qosBufSet q) s (Ends q St.REFUSED [] s)) ∧
      (26624 + 512 * c.u16 10 + c.u16 12 + 65536 ≤ 196608 → Gives (.qosBufSet q) s fun t =>
        ∃ u, Wrote s u [weirQ (c.u8 8) + 0x10, B.WEIR + 0x30] ∧ u.guar (c.u8 8) = c.u16 10 ∧ u.hdrmPool (c.u8 8) = c.u16 12 ∧
          u.rd B.WEIR R.WEIR_ALPHA_K = c.u32 16 ∧ Ends q St.DONE [] u t))) ∧
  (∀ (q : Req) (s : State) (c : Cmd) (p a : Nat), s.holds q 0x0343 c → p = c.u8 8 →
    (96 ≤ p → p < 0x80 ∨ 0x90 ≤ p → Gives (.qosPfcSet q) s (Ends q St.BAD_ARGUMENT [] s)) ∧
    (p < 96 ∧ a = B.WEIR + 0x10 * p ∨ 0x80 ≤ p ∧ p < 0x90 ∧ a = B.WEIR + 0x800 + 0x10 * (p - 0x80) →
      Gives (.qosPfcSet q) s fun t => ∃ u, Wrote s u [a + 0x3000, a + 0x3004] ∧ u.rd a R.WEIR_PFC_XOFF = c.u16 10 ∧
        u.rd a R.WEIR_PFC_XON = c.u16 12 ∧ u.rd a R.WEIR_PFC_HDRM_HDRM = c.u16 14 ∧ Ends q St.DONE [] u t)) ∧
  (∀ (q : Req) (s : State) (c : Cmd) (g n : Nat) (ms all : List Nat), s.holds q 0x0344 c → g = c.u16 8 → n = c.u8 10 →
    ms = (List.range n).map (fun i => c.u32 (16 + 4 * i)) →
    all = (if c.u8 11 = 0 then [] else tget (fun _ => []) s.weir.gstage g) ++ ms →
    let room := fun (x : Nat) => x + all.length ≤ 65536 ∧ ∀ r ∈ s.memberRanges, x + all.length ≤ r.1 ∨ r.1 + r.2 ≤ x
    let e := s.groupEnt g
    (4096 ≤ g ∨ 56 < n ∨ 2 < c.u8 11 ∨ (∃ m ∈ ms, Mem.kind m = 3) → Gives (.groupSet q) s (Ends q St.BAD_ARGUMENT [] s)) ∧
    (g < 4096 → n ≤ 56 → (∀ m ∈ ms, Mem.kind m ≠ 3) →
      ((∃ o ∈ s.weir.old, o.1 = g) → Gives (.groupSet q) s (Ends q St.BUSY_RETRY [] s)) ∧
      ((∀ o ∈ s.weir.old, o.1 ≠ g) → c.u8 11 = 1 ∨ c.u8 11 = 2 → 64 < all.length → Gives (.groupSet q) s (Ends q St.BAD_ARGUMENT []
        { s with weir := { s.weir with gstage := tput (fun _ => []) s.weir.gstage g [] } })) ∧
      ((∀ o ∈ s.weir.old, o.1 ≠ g) → c.u8 11 = 1 → all.length ≤ 64 → Gives (.groupSet q) s (Ends q St.DONE []
        { s with weir := { s.weir with gstage := tput (fun _ => []) s.weir.gstage g all } })) ∧
      (c.u8 11 = 0 ∨ c.u8 11 = 2 ∧ all.length ≤ 64 →
        ((∀ o ∈ s.weir.old, o.1 ≠ g) → (¬ ∃ x, room x) →
          Gives (.groupSet q) s (Ends q St.NO_RESOURCE [] { s with freeCtr := s.freeCtr + 1 })) ∧
        ((∀ o ∈ s.weir.old, o.1 ≠ g) → (∃ x, room x) → Gives (.groupSet q) s fun t => ∃ u x, room x ∧ Ends q St.DONE [] u t ∧
          u = { s with freeCtr := s.freeCtr + 1, weir := { s.weir with
            members := u.weir.members, gstage := u.weir.gstage, groups := u.weir.groups, old := u.weir.old } } ∧
          Grp.count (u.groupEnt g) = all.length ∧ Grp.epoch (u.groupEnt g) = 1 - Grp.epoch e ∧
          (all ≠ [] → Grp.base (u.groupEnt g) = x) ∧ u.membersOf x all.length = all ∧
          (∀ y, y ≠ g → u.groupEnt y = s.groupEnt y) ∧ (∀ i, i < x ∨ x + all.length ≤ i → u.memberEnt i = s.memberEnt i) ∧
          tget (fun _ => []) u.weir.gstage g = [] ∧
          u.weir.old = s.weir.old ++ (if s.inFlight g (Grp.epoch e) = 0 then []
            else [(g, Grp.epoch e, Grp.base e, Grp.count e)]))))) ∧
  (∀ (q : Req) (s : State) (c : Cmd) (g first n : Nat), s.holds q 0x0345 c → g = c.u16 8 → first = c.u8 10 →
    n = min 56 (Grp.count (s.groupEnt g) - first) →
    (4096 ≤ g ∨ 63 < first → Gives (.groupRead q) s (Ends q St.BAD_ARGUMENT [] s)) ∧
    (g < 4096 → first ≤ 63 → Gives (.groupRead q) s (Ends q St.DONE ([BitVec.ofNat 8 (Grp.count (s.groupEnt g)),
      BitVec.ofNat 8 (Grp.epoch (s.groupEnt g)), BitVec.ofNat 8 n, 0] ++
      (s.membersOf (Grp.base (s.groupEnt g) + first) n).flatMap (leBytes 4)) s))) ∧
  (∀ (q : Req) (s : State) (c : Cmd) (b : Nat), s.holds q 0x0346 c → b = B.TAP (c.u8 8) + 4 * c.u8 9 →
    (4 ≤ c.u8 8 ∨ s.domOn (domQuad (c.u8 8)) = false ∨ c.u32 12 % 2 ^ 24 = 0 → Gives (.tapSet q) s (Ends q St.BAD_ARGUMENT [] s)) ∧
    (c.u8 8 < 4 → s.domOn (domQuad (c.u8 8)) = true → c.u32 12 % 2 ^ 24 ≠ 0 → Gives (.tapSet q) s fun t =>
      ∃ u, Wrote s u [b + 0x400] ∧ u.rd b R.TAP_SAMP_N = c.u32 12 % 2 ^ 24 ∧ u.rd b R.TAP_SAMP_RING = bitsOf (c.u32 12) 29 26 ∧
        u.flag b R.TAP_SAMP_RANDOM = bitOf (c.u32 12) 30 ∧ u.flag b R.TAP_SAMP_EN = bitOf (c.u32 12) 31 ∧ Ends q St.DONE [] u t)) ∧
  (∀ (q : Req) (s : State) (c : Cmd) (x k size a : Nat), s.holds q 0x0347 c → x = c.u8 8 → k = c.u8 9 → size = c.u8 10 →
    a = B.TAP x + 0x20 * k →
    let room := fun (b : Nat) => Config.region 0 ≤ b ∧ b + 160 * 2 ^ size ≤ Config.region 0 + 2 ^ 30 ∧
      ∀ e ∈ s.tapPlaces x k, b + 160 * 2 ^ size ≤ e.1 ∨ e.1 + e.2 ≤ b
    (4 ≤ x ∨ 16 ≤ k ∨ size < 6 ∨ 24 < size ∨ s.domOn (domQuad x) = false → Gives (.tapRingSet q) s (Ends q St.BAD_ARGUMENT [] s)) ∧
    (x < 4 → k < 16 → 6 ≤ size → size ≤ 24 → s.domOn (domQuad x) = true →
      ((∃ d ∈ [66, 67, 68], s.domOn d = false) → Gives (.tapRingSet q) s (Ends q St.NO_RESOURCE [] s)) ∧
      ((∀ d ∈ [66, 67, 68], s.domOn d = true) → (¬ ∃ b, room b) ∨ 2 ^ 30 < ((s.tapPlaces x k).map (·.2)).sum + 160 * 2 ^ size →
        Gives (.tapRingSet q) s fun t => (t.tag q).fin.map (fun f => (f.status, f.data)) = some (St.NO_RESOURCE, []) ∧
          t.weir = s.weir) ∧
      ((∀ d ∈ [66, 67, 68], s.domOn d = true) → (∃ b, room b) → ((s.tapPlaces x k).map (·.2)).sum + 160 * 2 ^ size ≤ 2 ^ 30 →
        Gives (.tapRingSet q) s fun t => ∃ u b, room b ∧ u = { s with regs := u.regs, freeCtr := s.freeCtr + 1 } ∧
          (∀ y, y ∉ [a, a + 4, a + 8, a + 0xC, a + 0x10] → u.reg y = s.reg y) ∧
          (b < 2 ^ 64 → u.pair a = b) ∧ u.rd a R.TAP_RING_SIZE_SIZE = size ∧ u.rd a R.TAP_RING_PROD_PROD = 0 ∧
          u.rd a R.TAP_RING_CONS_CONS = 0 ∧ Ends q St.DONE (leBytes 8 b) u t)))


/-! ### Egress queues, shapers and policers (chapter 10) -/

/-- R234, R236 to R240, R243 to R245: refills, the frame that a slot starts, launch times, and the wait for receive
posts. -/
def Obligations.Egress : Prop :=
  (∀ (t : Tailrace) (s : State), s.domOn (domTR t) = false → exec (.shaperRefill (.tail t)) s = .next s ∧
    (∀ k, exec (.slotFrameStart t k) s = .next s) ∧ exec (.launchRelease t) s = .next s ∧ exec (.launchLate t) s = .next s ∧
    ∀ l c, exec (.rxWaitExpiry t l c) s = .next s) ∧
  (∀ (t : Tailrace) (s : State), tget (fun _ => 0) s.timers (Tm.tailShapers t) = s.now / 64 + 1 →
    exec (.shaperRefill (.tail t)) s = .next s) ∧
  (∀ (t : Tailrace) (s : State), s.domOn (domTR t) = true → tget (fun _ => 0) s.timers (Tm.tailShapers t) ≠ s.now / 64 + 1 →
    Gives (.shaperRefill (.tail t)) s fun u => u = { s with egr := u.egr, timers := u.timers } ∧
    tget (fun _ => 0) u.timers (Tm.tailShapers t) = s.now / 64 + 1 ∧ (∀ y, y ≠ t.val → u.egress y = s.egress y) ∧
    u.egress t = { s.egress t with credit := (u.egress t).credit, force := (u.egress t).force } ∧
    ∀ k en inc burst slot (c : Int) (f : Option Int), k ∈ allShapers → s.shaper t k = (en, inc, burst, slot) →
      tget (fun _ => 0) (s.egress t).credit k = c → tget (fun _ => none) (s.egress t).force k = f →
      tget (fun _ => 0) (u.egress t).credit k = (if en = false ∨ f = none then 0
        else min (c + inc) (if shaperHolds (s.egress t) k then (burst : Int) * 65536 else 0)) ∧
      tget (fun _ => none) (u.egress t).force k = if en then some (s.overhead t slot) else none) ∧
  (∀ (m : Link) (s : State),
    (s.domOn (domHP m) = false ∨ tget (fun _ => 0) s.timers (Tm.plotShapers m) = s.now / 64 + 1 →
      exec (.shaperRefill (.plots m)) s = .next s) ∧
    (s.domOn (domHP m) = true → tget (fun _ => 0) s.timers (Tm.plotShapers m) ≠ s.now / 64 + 1 → Gives (.shaperRefill (.plots m)) s fun u =>
      u = { s with txCredit := u.txCredit, txArmed := u.txArmed, timers := u.timers } ∧
      tget (fun _ => 0) u.timers (Tm.plotShapers m) = s.now / 64 + 1 ∧ ∀ p (c : Int), tget (fun _ => 0) s.txCredit p = c →
        let en := s.flag (B.PLOT p) R.PLOT_TX_SHP_SHP_EN
        let waits := ∃ q, q < 64 ∧ (s.qp (qpKey p q)).txProd ≠ (s.qp (qpKey p q)).txCons
        (p < s.plotBase m ∨ s.plotBase m + s.allot m ≤ p → tget (fun _ => 0) u.txCredit p = c ∧ (p ∈ u.txArmed ↔ p ∈ s.txArmed)) ∧
        (s.plotBase m ≤ p → p < s.plotBase m + s.allot m → (p ∈ u.txArmed ↔ en = true) ∧
          (en = false ∨ p ∉ s.txArmed → tget (fun _ => 0) u.txCredit p = 0) ∧
          (en = true → p ∈ s.txArmed →
            (waits → tget (fun _ => 0) u.txCredit p = min (c + s.rd (B.PLOT p) R.PLOT_TX_SHP_INC) ((s.rd (B.PLOT p) R.PLOT_TX_SCHED_BURST : Int) * 65536)) ∧
            (¬ waits → tget (fun _ => 0) u.txCredit p = min (c + s.rd (B.PLOT p) R.PLOT_TX_SHP_INC) 0))))) ∧
  (∀ (t : Tailrace) (k : Fin 10) (s : State) (x : EgrSt), x = s.egress t →
    let strict := bitOf (s.rd (B.TLR t + 0x100 * k) R.TLR_SLOT_CFG_STRICT)
    let clear := fun (p : EPkt) => s.flag B.PMC R.PMC_CTRL_FREEZE = false ∧ p.cls < 8 ∧ p.pkt.tsReq = false ∧
      (k < 8 → s.flag (portBase (slotPort s t k)) R.ETH_PORT_CFG_MACSEC = false)
    let port := slotPort s t k
    (s.slotReady t k = false → exec (.slotFrameStart t k) s = .next s) ∧
    (∀ b, s.slotChoice t k = some b → s.yields t k b.rank = true → exec (.slotFrameStart t k) s = .next s) ∧
    (∀ r, 8 ≤ k.val ∨ (∀ y ∈ s.portSlots port, y.1 = t.val) → s.yields t k r = false) ∧
    (∀ r t' k' b, k < 8 → (t', k') ∈ s.portSlots port → t' ≠ t.val → s.slotChoice t' k' = some b →
      r < b.rank ∨ b.rank = r ∧ tget (fun _ => 0) s.eth.lastTail port = t + 1 → s.yields t k r = true) ∧
    (s.launchNext t x k = none → tget (fun _ => (0 : Int)) x.credit (slotShpKey k) < 0 ∨
        (∀ c, c < 8 → s.classEligible t x k c = false) → exec (.slotFrameStart t k) s = .next s) ∧
    (∀ p, s.slotReady t k = true → s.launchNext t x k = some p → clear p → s.yields t k 9 = false →
      Gives (.slotFrameStart t k) s fun u => s.leaves u t k x p (s.shapedLen t p)) ∧
    (s.slotReady t k = true → s.launchNext t x k = none → (0 : Int) ≤ tget (fun _ => 0) x.credit (slotShpKey k) →
      (∀ c p d, c < 8 → strict c = true → s.classEligible t x k c = true →
        (∀ y, c < y → y < 8 → strict y = true → s.classEligible t x k y = false) → s.classNext t x k c = some (p, d) → clear p →
        s.yields t k (1 + c) = false →
        Gives (.slotFrameStart t k) s fun u => s.leaves u t k x p (s.shapedLen t p)) ∧
      (∀ c p len, c < 8 → k < 8 → strict c = false → s.classEligible t x k c = true → x.head k c = some p →
        (∀ y, y < 8 → y ≠ c → s.classEligible t x k y = false) → clear p → s.yields t k 0 = false → len = s.shapedLen t p → tget (fun _ => 0) x.turn k = 0 →
        len ≤ tget (fun _ => 0) x.deficit (classKey k c) + s.rd (classBase t k c) R.TLR_Q_SCHED_QUANTUM →
        Gives (.slotFrameStart t k) s fun u => s.leaves u t k x p len ∧ tget (fun _ => 0) (u.egress t).turn k = c + 1 ∧
          tget (fun _ => 0) (u.egress t).deficit (classKey k c) = if (x.q.erase p).any (fun y => y.launch.isNone && 16 * y.slot + y.cls = classKey k c)
            then tget (fun _ => 0) x.deficit (classKey k c) + s.rd (classBase t k c) R.TLR_Q_SCHED_QUANTUM - len else 0))) ∧
  (∀ (t : Tailrace) (s : State), s.domOn (domTR t) = true →
    let ripe := fun (p : EPkt) => !p.released && p.launch.any fun l => decide (l ≤ s.timeWord + s.lead p)
    let late := fun (p : EPkt) => p.launch.any fun l => decide (l + s.tol t < s.timeWord)
    (Gives (.launchRelease t) s fun u => u = { s with egr := u.egr, cnts := u.cnts, flt := u.flt } ∧
      (∀ y, y ≠ t.val → u.egress y = s.egress y) ∧ u.egress t = { s.egress t with q := (s.egress t).q.map fun p => if ripe p then { p with released := true } else p }) ∧
    ((∀ p ∈ (s.egress t).q, late p = false) → exec (.launchLate t) s = .next s) ∧
    (∀ p, (s.egress t).q.filter late = [p] → s.flag B.PMC R.PMC_CTRL_FREEZE = false → p.pkt.tsReq = false →
      (s.flag (B.TLR t) R.TLR_LT_CFG_LATE_ACT = true → Gives (.launchLate t) s fun u => (u.egress t).q = (s.egress t).q.erase p ∧
        u.cnt (B.TLR t + C.TLR_LT_LATE_DROP) = (s.cnt (B.TLR t + C.TLR_LT_LATE_DROP) + 1) % 2 ^ 64 ∧
        u = { s with egr := u.egr, cnts := u.cnts, flt := u.flt }) ∧
      (s.flag (B.TLR t) R.TLR_LT_CFG_LATE_ACT = false → Gives (.launchLate t) s fun u =>
        (u.egress t).q = (s.egress t).q.erase p ++ [{ p with launch := none, released := false }] ∧
        u.cnt (B.TLR t + C.TLR_LT_LATE_SENT) = (s.cnt (B.TLR t + C.TLR_LT_LATE_SENT) + 1) % 2 ^ 64 ∧
        u = { s with egr := u.egr, cnts := u.cnts, flt := u.flt }))) ∧
  (∀ (t : Tailrace) (l : Fin 256) (c : Fin 8) (s : State) (p : EPkt) (n : Nat), s.domOn (domTR t) = true →
    (s.egress t).deliver.find? (fun p => p.slot = 8 && p.plot = l.val && p.cls = c.val) = some p → p.since = some n →
    s.flag B.PMC R.PMC_CTRL_FREEZE = false → p.pkt.tsReq = false →
    (s.now - n < us (s.rd (B.TLR t) R.TLR_RX_WAIT_WAIT) → exec (.rxWaitExpiry t l c) s = .next s) ∧
    (us (s.rd (B.TLR t) R.TLR_RX_WAIT_WAIT) ≤ s.now - n → Gives (.rxWaitExpiry t l c) s fun u =>
      u.egress t = { s.egress t with deliver := (s.egress t).deliver.erase p } ∧
      u.cnt (B.TLR t + C.TLR_RX_NOBUF_DROP) = (s.cnt (B.TLR t + C.TLR_RX_NOBUF_DROP) + 1) % 2 ^ 64 ∧
      u = { s with egr := u.egr, cnts := u.cnts, flt := u.flt })) ∧
  (∀ (t : Tailrace) (l : Fin 256) (c : Fin 8) (s : State) (p : EPkt) (n : Nat), s.domOn (domTR t) = true →
    (s.egress t).deliver.find? (fun p => p.slot = 8 && p.plot = l.val && p.cls = c.val) = none → (s.egress t).plotHead c l = some p →
    p.since = some n → s.flag B.PMC R.PMC_CTRL_FREEZE = false → p.pkt.tsReq = false →
    (s.now - n < us (s.rd (B.TLR t) R.TLR_RX_WAIT_WAIT) ∨ s.ringTakes p = true → exec (.rxWaitExpiry t l c) s = .next s) ∧
    (us (s.rd (B.TLR t) R.TLR_RX_WAIT_WAIT) ≤ s.now - n → s.ringTakes p = false → Gives (.rxWaitExpiry t l c) s fun u =>
      (u.egress t).q.map (fun y => (y.id, y.pkt)) = ((s.egress t).q.erase p).map (fun y => (y.id, y.pkt)) ∧
      u.cnt (B.TLR t + C.TLR_RX_NOBUF_DROP) = (s.cnt (B.TLR t + C.TLR_RX_NOBUF_DROP) + 1) % 2 ^ 64 ∧
      u = { s with egr := u.egr, cnts := u.cnts, flt := u.flt }))

/-- R241, R247, R248, R250, Table 10.6: the egress and meter commands. -/
def Obligations.EgressCommands : Prop :=
  (∀ (q : Req) (s : State) (c : Cmd) (ts : List (Nat × Nat)) (ov : Int), s.holds q 0x0350 c → ts = s.egrTargets (c.u8 8) →
    ov = signedOf 8 (c.u8 10) →
    (ts = [] ∨ 3 < onesIn (c.u8 9) 8 ∨ ov < -32 ∨ 63 < ov ∨ c.u32 12 = 0 ∨ 2 ^ 24 ≤ c.u32 12 ∨ c.u16 16 = 0 →
      Gives (.egrSlotSet q) s (Ends q St.BAD_ARGUMENT [] s)) ∧
    (ts ≠ [] → onesIn (c.u8 9) 8 ≤ 3 → -32 ≤ ov → ov ≤ 63 → 1 ≤ c.u32 12 → c.u32 12 < 2 ^ 24 → 1 ≤ c.u16 16 →
      let share := c.u8 8 < 96 ∧ s.straddles (c.u8 8) = true ∧ bitOf (c.u8 11) 0 = false
      Gives (.egrSlotSet q) s fun t => ∃ u, Ends q St.DONE [] u t ∧ u = { s with regs := u.regs, egr := u.egr } ∧
        (∀ a, (∀ e ∈ ts, a ∉ [B.TLR e.1 + 0x100 * e.2 + 0x2000, B.TLR e.1 + 0x100 * e.2 + 0x2004, B.TLR e.1 + 0x100 * e.2 + 0x2008]) →
          u.reg a = s.reg a) ∧
        (∀ y, u.egress y = { s.egress y with deficit := (u.egress y).deficit }) ∧
        ∀ e ∈ ts, let b := B.TLR e.1 + 0x100 * e.2
          u.rd b R.TLR_SLOT_CFG_STRICT = c.u8 9 ∧ u.overhead e.1 e.2 = ov ∧ u.rd b R.TLR_SLOT_BURST_BURST = c.u16 16 ∧
          u.flag b R.TLR_SLOT_CFG_EN = s.flag b R.TLR_SLOT_CFG_EN ∧ u.rd b R.TLR_SLOT_CFG_PORT = s.rd b R.TLR_SLOT_CFG_PORT ∧
          (share → u.flag b R.TLR_SLOT_SHP_SHP_EN = true ∧ u.rd b R.TLR_SLOT_SHP_INC = s.shareInc (c.u8 8) e.1) ∧
          (¬ share → u.flag b R.TLR_SLOT_SHP_SHP_EN = bitOf (c.u8 11) 0 ∧ u.rd b R.TLR_SLOT_SHP_INC = s.scaleInc (c.u8 8) e.1 (c.u32 12)) ∧
          ∀ i, i < 8 → bitOf (s.rd b R.TLR_SLOT_CFG_STRICT) i ≠ bitOf (c.u8 9) i →
            tget (fun _ => 0) (u.egress e.1).deficit (classKey e.2 i) = 0)) ∧
  (∀ (q : Req) (s : State) (c : Cmd) (ts : List (Nat × Nat)), s.holds q 0x0351 c → ts = s.egrTargets (c.u8 8) →
    (ts = [] ∨ 8 ≤ c.u8 9 ∨ c.u32 12 = 0 ∨ 2 ^ 24 ≤ c.u32 12 ∨ c.u16 16 = 0 ∨ c.u16 18 < 64 ∨ c.u16 20 = 0 ∨ 4096 < c.u16 20 →
      Gives (.egrClassSet q) s (Ends q St.BAD_ARGUMENT [] s)) ∧
    (ts ≠ [] → c.u8 9 < 8 → 1 ≤ c.u32 12 → c.u32 12 < 2 ^ 24 → 1 ≤ c.u16 16 → 64 ≤ c.u16 18 → 1 ≤ c.u16 20 → c.u16 20 ≤ 4096 →
      Gives (.egrClassSet q) s fun t => ∃ u, Ends q St.DONE [] u t ∧ u = { s with regs := u.regs } ∧
        (∀ a, (∀ e ∈ ts, a ∉ [classBase e.1 e.2 (c.u8 9) + 0x2010, classBase e.1 e.2 (c.u8 9) + 0x2014,
          classBase e.1 e.2 (c.u8 9) + 0x2018]) → u.reg a = s.reg a) ∧
        ∀ e ∈ ts, let b := classBase e.1 e.2 (c.u8 9)
          u.flag b R.TLR_Q_SHP_SHP_EN = bitOf (c.u8 10) 0 ∧ u.rd b R.TLR_Q_SHP_INC = s.scaleInc (c.u8 8) e.1 (c.u32 12) ∧
          u.rd b R.TLR_Q_BURST_BURST = c.u16 16 ∧ u.rd b R.TLR_Q_SCHED_QUANTUM = c.u16 18 ∧ u.rd b R.TLR_Q_SCHED_QLIM = c.u16 20)) ∧
  (∀ (q : Req) (s : State) (c : Cmd) (b : Nat), s.holds q 0x0352 c → b = B.TLR (c.u8 8) →
    (16 ≤ c.u8 8 ∨ s.domOn (domTR (c.u8 8)) = false ∨ 2 ≤ c.u8 9 ∨ c.u32 12 = 0 ∨ 2 ^ 20 ≤ c.u32 12 →
      Gives (.egrLaunchSet q) s (Ends q St.BAD_ARGUMENT [] s)) ∧
    (c.u8 8 < 16 → s.domOn (domTR (c.u8 8)) = true → c.u8 9 < 2 → 1 ≤ c.u32 12 → c.u32 12 < 2 ^ 20 →
      Gives (.egrLaunchSet q) s fun t => ∃ u, Wrote s u [b + 0x2C00, b + 0x2C04] ∧ u.rd b R.TLR_LT_CFG_LATE_ACT = c.u8 9 ∧
        u.rd b R.TLR_LT_CFG_HORIZON = c.u32 12 ∧ u.tol (c.u8 8) = c.u16 16 ∧ Ends q St.DONE [] u t)) ∧
  (∀ (q : Req) (s : State) (c : Cmd), s.holds q 0x0353 c →
    ((s.egrTargets (c.u8 8))[c.u8 9]? = none → Gives (.egrRead q) s (Ends q St.BAD_ARGUMENT [] s)) ∧
    (∀ t k b, (s.egrTargets (c.u8 8))[c.u8 9]? = some (t, k) → b = B.TLR t + 0x2000 + 0x100 * k →
      ∃ l, Gives (.egrRead q) s (Ends q St.DONE l s) ∧ l.length = 148 ∧
        let word := fun i => leNat ((l.drop (4 * i)).take 4)
        (t < 2 ^ 32 → word 0 = t) ∧ (∀ i, i < 3 → word (1 + i) = (s.reg (b + 4 * i)).toNat) ∧
        (s.slotStatus t k < 2 ^ 32 → word 4 = s.slotStatus t k) ∧
        ∀ i, i < 8 → (∀ j, j < 3 → word (5 + 4 * i + j) = (s.reg (b + 0x10 + 0x10 * i + 4 * j)).toNat) ∧
          (s.classFill t k i < 2 ^ 32 → word (8 + 4 * i) = s.classFill t k i))) ∧
  (∀ (q : Req) (s : State) (c : Cmd) (x i w : Nat) (qs : List Nat), s.holds q 0x0354 c → x = c.u8 8 → i = c.u32 12 →
    w = leNat (c.bytes 16 16) →
    qs = (if x = 0xFF then (List.range 4).filter (fun i => s.domOn (domQuad i)) else if x < 4 ∧ s.domOn (domQuad x) = true then [x] else []) →
    (qs = [] ∨ 2 ^ 18 ≤ i ∨ bitsOf w 63 62 = 3 → Gives (.meterSet q) s (Ends q St.BAD_ARGUMENT [] s)) ∧
    (qs ≠ [] → bitsOf w 63 62 ≠ 3 → i < 65536 → Gives (.meterSet q) s (Ends q St.REFUSED [] s)) ∧
    (qs ≠ [] → bitsOf w 63 62 ≠ 3 → 65536 ≤ i → i < 2 ^ 18 → Gives (.meterSet q) s fun t => ∃ u, Ends q St.DONE [] u t ∧
      u = { s with tbl := { s.tbl with meters := u.tbl.meters } } ∧
      (∀ y j, y < 4 → j < 2 ^ 18 → ¬ (y ∈ qs ∧ j = i) → u.meter y j = s.meter y j) ∧
      ∀ y ∈ qs, bitsOf (u.meter y i) 63 60 = bitsOf w 63 60 ∧ bitsOf (u.meter y i) 47 0 = bitsOf w 47 0 ∧
        bitsOf (u.meter y i) 87 64 = bitsOf w 87 64 ∧ bitsOf (u.meter y i) 119 96 = bitsOf w 119 96 ∧
        Meter.tc (u.meter y i) = 1024 * bitsOf w 119 96 ∧ Meter.tp (u.meter y i) = 1024 * bitsOf w 87 64 ∧
        Meter.last (u.meter y i) = s.meterNow)) ∧
  (∀ (q : Req) (s : State) (c : Cmd) (x i : Nat), s.holds q 0x0355 c → x = c.u8 8 → i = c.u32 12 →
    (4 ≤ x ∨ s.domOn (domQuad x) = false ∨ 2 ^ 18 ≤ i → Gives (.meterRead q) s (Ends q St.BAD_ARGUMENT [] s)) ∧
    (x < 4 → s.domOn (domQuad x) = true → i < 65536 → Gives (.meterRead q) s (Ends q St.REFUSED [] s)) ∧
    (x < 4 → s.domOn (domQuad x) = true → 65536 ≤ i → i < 2 ^ 18 →
      Gives (.meterRead q) s (Ends q St.DONE (leBytes 32 (s.meter x i)) s)))


/-! ### Host ports on PCIe (chapter 11) -/

/-- R86, R87, R252, R259, R266, R268, R274: links come up and go down, functions become ready and are reset. -/
def Obligations.HostLinks : Prop :=
  (∀ (m : Link) (s : State),
    (s.linkExists m = false ∨ (s.link m).perst = false → exec (.perstRelease m) s = .next s) ∧
    (s.linkExists m = true → (s.link m).perst = true →
      (s.perstTimeOk = true → exec (.perstRelease m) s =
        .next (s.setLink m { s.link m with perst := false, released := some s.now })) ∧
      (s.perstTimeOk = false → s.mild (272 + 4 * m + 3) → Gives (.perstRelease m) s fun u =>
        (u.link m).perst = false ∧ (u.link m).released = some s.now ∧ u.sticky (272 + 4 * m + 3) = true))) ∧
  (∀ (m : Link) (rate : Fin 6) (w : Nat) (flit : Bool) (s : State),
    let b := B.HPT m
    let trains := s.linkExists m = true ∧ s.domOn (domHP m) = true ∧ (s.link m).perst = false ∧ s.perstTimeOk = true ∧
      s.linkUp m = false ∧ s.widthOk m w = true
    let shows := fun (u : State) => u.linkUp m = true ∧ u.rd b R.HPT_LINK_RATE = rate ∧ u.rd b R.HPT_LINK_WIDTH = w ∧
      u.rd b R.HPT_LINK_TX_WIDTH = w
    (¬ trains → exec (.hostLinkUp m rate w flit) s = .next s) ∧
    (trains → 3 ≤ rate.val → s.fullWidth m ≤ w → Gives (.hostLinkUp m rate w flit) s fun u => shows u ∧
      u.flag b R.HPT_LINK_FLIT = flit ∧ (u.link m).lastTlp = s.now ∧ u = { s with regs := u.regs, links := u.links, timers := u.timers } ∧
      ∀ a, a ≠ b + 8 → u.reg a = s.reg a) ∧
    (trains → rate.val < 3 ∨ w < s.fullWidth m → s.mild (272 + 4 * m + 2) → Gives (.hostLinkUp m rate w flit) s fun u =>
      shows u ∧ u.sticky (272 + 4 * m + 2) = true) ∧
    (s.linkUp m = false ∨ s.widthOk m w = false → exec (.hostLinkRateChange m rate w) s = .next s) ∧
    (s.linkUp m = true → s.widthOk m w = true → 3 ≤ rate.val → s.fullWidth m ≤ w → Gives (.hostLinkRateChange m rate w) s fun u =>
      shows u ∧ u.flag b R.HPT_LINK_FLIT = s.flag b R.HPT_LINK_FLIT ∧ u = { s with regs := u.regs, timers := u.timers } ∧
      ∀ a, a ≠ b + 8 → u.reg a = s.reg a) ∧
    (s.linkUp m = true → s.widthOk m w = true → rate.val < 3 ∨ w < s.fullWidth m → s.mild (272 + 4 * m + 2) →
      Gives (.hostLinkRateChange m rate w) s fun u => shows u ∧ u.sticky (272 + 4 * m + 2) = true)) ∧
  (∀ (m : Link) (f : Nat) (s : State),
    (s.linkUp m = false ∨ max (s.allot m) 1 ≤ f ∨ (s.fn m f).flrAt.isSome = true → exec (.functionReady m f) s = .next s) ∧
    (s.linkUp m = true → f < max (s.allot m) 1 → (s.fn m f).flrAt = none → Gives (.functionReady m f) s fun u =>
      u.fn m f = { s.fn m f with ready := true } ∧ u = { s with fns := u.fns, regs := u.regs } ∧
      (f = 0 → s.modes.lkRunning = true → u.flag (B.LKP m) R.LKP_HMB_STATUS_READY = true ∧
        ∀ a, a ≠ B.LKP m + R.LKP_HMB_STATUS_READY.off → u.reg a = s.reg a) ∧
      (f ≠ 0 ∨ s.modes.lkRunning = false → u.regs = s.regs))) ∧
  (∀ (m : Link) (f : Nat) (s : State),
    (s.cfgReaches m f = false ∨ (s.fn m f).ready = false → exec (.flrInitiate m f) s = .next s) ∧
    (s.cfgReaches m f = true → (s.fn m f).ready = true → Gives (.flrInitiate m f) s fun u =>
      u = { s with fns := u.fns, links := u.links, regs := u.regs, tags := u.tags, mc := u.mc } ∧
      (∀ g ∈ s.flrSet m f, u.fn m g = { s.fn m g with flrAt := some s.now, held := [] } ∧ u.answers m g = false ∧
        (∀ x ∈ (u.link m).outstanding, x.fn ≠ g) ∧ ∀ p, s.plotOf m g = some p → u.rd (B.VF p) R.PLOT_STATE_STATE = 3) ∧
      (∀ g, g ∉ s.flrSet m f → u.fn m g = s.fn m g) ∧
      (∀ x ∈ (s.link m).outstanding, if x.fn ∈ s.flrSet m f then x.tag ∈ (u.link m).silent else x ∈ (u.link m).outstanding) ∧
      (f ≠ 0 → u.tags = s.tags ∧ u.mc = s.mc) ∧
      (f = 0 → u.flag (B.LKP m) R.LKP_HMB_STATUS_READY = false ∧
        u.rd (B.LKP m) R.LKP_HMB_STATUS_MGEN = nextGen (s.rd (B.LKP m) R.LKP_HMB_STATUS_MGEN) ∧
        ∀ (t : Tag), (u.tag (.host m t)).cur = none)) ∧
    ((s.fn m f).flrAt = none ∨ s.linkUp m = false → exec (.flrDone m f) s = .next s) ∧
    (s.cfgReaches m f = false ∨ (s.fn m f).d3 = false → exec (.d3hotToD0 m f) s = .next s) ∧
    (s.flag B.PMC R.PMC_CTRL_FREEZE = false → s.jobs = [] →
      let isReset := fun (u : State) => (∀ g ∈ s.flrSet m f, (u.fn m g).ready = true ∧ (u.fn m g).flrAt = none ∧ (u.fn m g).d3 = false ∧
        (u.fn m g).mse = false ∧ (u.fn m g).bme = false ∧ (u.fn m g).held = [] ∧
        ∀ p, s.plotOf m g = some p → p < 512 → u.plotGen p = nextXgen (s.plotGen p) ∧ ∀ q, q < 64 → u.qp (qpKey p q) = Qp.init) ∧
        ∀ g, g ∉ s.flrSet m f → u.fn m g = s.fn m g
      let pf0 := fun (u : State) => (u.link m).numVFs = 0 ∧ (u.link m).vfEnable = false ∧ (u.link m).mps = 0 ∧ (u.link m).mrrs = 2 ∧
        u.rd (B.HPT m) R.HPT_CTO_CTO = 50000 ∧ u.flag (B.LKP m) R.LKP_HMB_STATUS_READY = s.modes.lkRunning ∧ u.linkUp m = s.linkUp m
      let mgen := fun (u : State) => u.rd (B.LKP m) R.LKP_HMB_STATUS_MGEN
      ((s.fn m f).flrAt.isSome = true → s.linkUp m = true → Gives (.flrDone m f) s fun u => isReset u ∧ mgen u = mgen s ∧
        (f = 0 → pf0 u) ∧ u.cnt (B.HPTC m + C.HPT_FLR_DONE) = (s.cnt (B.HPTC m + C.HPT_FLR_DONE) + 1) % 2 ^ 64) ∧
      (s.cfgReaches m f = true → (s.fn m f).d3 = true → Gives (.d3hotToD0 m f) s fun u => isReset u ∧
        mgen u = (if f = 0 then nextGen (mgen s) else mgen s) ∧ (f = 0 → pf0 u) ∧ u.cnts = s.cnts))) ∧
  (∀ (m : Link) (s : State), s.flag B.PMC R.PMC_CTRL_FREEZE = false → s.jobs = [] →
    let lost := fun (u : State) => u.linkUp m = false ∧ (∀ y, y < 16 → y ≠ m → u.linkUp y = s.linkUp y) ∧
      u.rd (B.LKP m) R.LKP_HMB_STATUS_MGEN = nextGen (s.rd (B.LKP m) R.LKP_HMB_STATUS_MGEN) ∧
      u.flag (B.LKP m) R.LKP_HMB_STATUS_READY = false ∧ (u.link m).outstanding = [] ∧ (u.link m).vfEnable = false ∧
      (∀ g, g < max 1 (s.allot m) → (u.fn m g).ready = false ∧ (u.fn m g).held = []) ∧
      (∀ g p, s.plotOf m g = some p → p < 512 → u.plotGen p = nextXgen (s.plotGen p)) ∧
      u.cnt (B.HPTC m + C.HPT_LINK_DOWN) = (s.cnt (B.HPTC m + C.HPT_LINK_DOWN) + 1) % 2 ^ 64
    (∀ how, s.linkUp m = false → exec (.hotReset m how) s = .next s) ∧
    (∀ how, s.linkUp m = true → how ≠ .surprise → Gives (.hotReset m how) s fun u => lost u ∧ (u.link m).aer = (s.link m).aer) ∧
    (s.linkUp m = true → s.mild (272 + 4 * m + 1) → Gives (.hotReset m .surprise) s fun u => lost u ∧
      u.sticky (272 + 4 * m + 1) = true ∧ bitOf (u.link m).aer 21 = true) ∧
    (s.linkExists m = false ∨ (s.link m).perst = true → exec (.perstAssert m) s = .next s) ∧
    (s.linkExists m = true → (s.link m).perst = false → Gives (.perstAssert m) s fun u => lost u ∧ (u.link m).perst = true ∧
      (u.link m).released = none ∧ (u.link m).aer = 0))

/-- R253, R258, R259, R262, R265, R269 to R271, R273, Table 11.5: requests of a host, device reads that end, and link
power. -/
def Obligations.HostRequests : Prop :=
  (∀ (m : Link) (s : State), s.linkUp m = false → (∀ x, exec (.hostMemoryRequest m x) s = .next s) ∧
    (∀ tag l e, exec (.dmaCompletion m tag l e) s = .next s) ∧ exec (.l1Entry m) s = .next s ∧ exec (.l0pNarrow m) s = .next s ∧
    exec (.l0pWiden m) s = .next s ∧ (∀ f p, exec (.atsInvalidate m f p) s = .next s) ∧ ∀ v, exec (.ctoValueWrite m v) s = .next s) ∧
  (∀ (m : Link) (s : State), s.linkUp m = true → s.flag B.PMC R.PMC_CTRL_FREEZE = false → s.mild (272 + 4 * m + 1) →
    let refused := fun (u : State) => u.reply = .ur ∧ u.flag (B.HPT m) R.HPT_ERR_UR_SENT = true ∧
      u.cnt (B.HPTC m + C.HPT_UR_SENT) = (s.cnt (B.HPTC m + C.HPT_UR_SENT) + 1) % 2 ^ 64 ∧ bitOf (u.link m).aer 36 = true ∧
      u.sticky (272 + 4 * m + 1) = true
    (∀ x, x ∈ [HostReq.io, .atomic, .deferrable, .vdm false false] → Gives (.hostMemoryRequest m x) s refused) ∧
    (∀ f, Gives (.hostMemoryRequest m (.noBar f)) s refused) ∧
    (∀ f bar off len d, s.answers m f = false ∨ bar ∉ [0, 2] → Gives (.hostMemoryRequest m (.read f bar off len)) s refused ∧
      Gives (.hostMemoryRequest m (.write f bar off d false)) s refused) ∧
    (∀ f x y, f ≠ 0 → (s.link m).vfEnable = false ∨ (s.link m).numVFs < f → Gives (.hostMemoryRequest m (.cfgRead f y)) s refused ∧
      Gives (.hostMemoryRequest m (.cfgWrite f x)) s refused) ∧
    (∀ f bar off d, Gives (.hostMemoryRequest m (.write f bar off d true)) s fun u => u.reply = .discarded ∧
      u.flag (B.HPT m) R.HPT_ERR_POISON_RX = true ∧ bitOf (u.link m).aer 28 = true ∧ u.sticky (272 + 4 * m + 1) = true ∧
      u.cnt (B.HPTC m + C.HPT_POISON_RX) = (s.cnt (B.HPTC m + C.HPT_POISON_RX) + 1) % 2 ^ 64)) ∧
  (∀ (m : Link) (e : LinkErr) (n k : Nat) (s : State), s.linkUp m = true →
    (e, n, k) ∈ [(.receiver, 0, 0), (.badTlp, 0, 6), (.badDllp, 0, 7), (.replayRollover, 0, 8), (.replayTimeout, 0, 12),
      (.dllProtocol, 1, 4), (.flowControl, 1, 13), (.malformed, 1, 18)] →
    s.mild (272 + 4 * m + n) → Gives (.hostMemoryRequest m (.broken e)) s fun u => u.reply = .discarded ∧
      bitOf (u.link m).aer (16 * n + k) = true ∧ u.sticky (272 + 4 * m + n) = true) ∧
  (∀ (m : Link) (s : State), s.linkUp m = true →
    (∀ b, exec (.hostMemoryRequest m (.vdm true b)) s = .next { s.wake m with reply := .discarded }) ∧
    exec (.hostMemoryRequest m (.vdm false true)) s = .next { s.wake m with reply := .ok } ∧
    (s.answers m 0 = true → s.waitingOf (.host m 0) = [] → s.reg (B.HPT m) = 0xA55A →
      Gives (.hostMemoryRequest m (.read 0 0 0 4)) s fun u => u.reply = .data 0xA55A) ∧
    (∀ (f : Nat) (p : PlotIx) (q : Fin 64) (d : List Byte), s.answers m f = true → s.plotOf m f = some p.val → d.length = 8 →
      s.waitingOf (.host m f) = [] →
      let rings := fun (k : Nat) (c : RingId → DWord → Instr) =>
        exec (.hostMemoryRequest m (.write f 2 (0x40 * q + 8 * k) d false)) s = exec (c (.plot p q) (BitVec.ofNat 64 (leNat d))) (s.wake m)
      rings 0 .txDb ∧ rings 1 .rxDb ∧ rings 2 .txcDb ∧ rings 3 .rxcDb) ∧
    (∀ f, s.cfgReaches m f = true →
      ((s.fn m f).ready = false ∨ (s.fn m f).flrAt.isSome = true → ∀ x y,
        exec (.hostMemoryRequest m (.cfgRead f y)) s = .next { s.wake m with reply := .rrs } ∧
        exec (.hostMemoryRequest m (.cfgWrite f x)) s = .next { s.wake m with reply := .rrs }) ∧
      ((s.fn m f).ready = true → (s.fn m f).flrAt = none →
        (∀ y, exec (.hostMemoryRequest m (.cfgRead f y)) s = .next { s.wake m with reply := .data (s.cfgFact m f y) }) ∧
        let sets := fun (x : CfgField) (now : State → Prop) => Gives (.hostMemoryRequest m (.cfgWrite f x)) s fun u => now u ∧
          u.reply = .ok ∧ u = { s with reply := u.reply, fns := u.fns, links := u.links, regs := u.regs, out := u.out, mem := u.mem } ∧
          ∀ g, g ≠ f → u.fn m g = s.fn m g
        let own := fun (x : CfgField) (y : Fn) => sets x fun u => u.fn m f = y ∧ u.out = s.out
        let pf := fun (x : CfgField) (l : LinkSt) => sets x fun u =>
          u.link m = (if f = 0 then { l with lastTlp := s.now } else { s.link m with lastTlp := s.now }) ∧ u.fns = s.fns ∧ u.out = s.out
        let y := s.fn m f
        let l := s.link m
        (∀ b, own (.mse b) { y with mse := b }) ∧ own .d3hot { y with d3 := true } ∧
        (∀ b, own (.ats b) { y with ats := b, xlat := if b then y.xlat else [] }) ∧
        (∀ b, sets (.msixEn b) fun u => (u.fn m f).msixEn = b) ∧ (∀ b, sets (.msixMask b) fun u => (u.fn m f).msixMask = b) ∧
        (∀ b, pf (.vfEnable b) { l with vfEnable := b }) ∧ (∀ b, pf (.ptmEn b) { l with ptmEn := b }) ∧
        (∀ b, pf (.aspmL1 b) { l with aspmL1 := b }) ∧ (∀ b, pf (.l0pEn b) { l with l0pEn := b }) ∧
        (∀ n, pf (.mps n) { l with mps := n }) ∧ (∀ n, pf (.mrrs n) { l with mrrs := n }) ∧
        (∀ n, pf (.aerStatus n) { l with aer := l.aer - (l.aer &&& n) }) ∧
        (∀ n, pf (.numVFs n) (if n ≤ s.allot m - 1 then { l with numVFs := n } else l))))) ∧
  (∀ (m : Link) (f : Nat) (b : Bool) (s : State),
    (s.cfgReaches m f = false ∨ (s.fn m f).ready = false ∨ (s.fn m f).flrAt.isSome = true →
      exec (.busMasterEnable m f b) s = .next s) ∧
    (s.cfgReaches m f = true → (s.fn m f).ready = true → (s.fn m f).flrAt = none →
      exec (.busMasterEnable m f false) s = .next (s.setFn m f { s.fn m f with bme := false }) ∧
      ((∀ p q, s.plotOf m f = some p → q < 64 → (s.qp (qpKey p q)).heldDb = []) → Gives (.busMasterEnable m f true) s fun u =>
        u.fn m f = { s.fn m f with bme := true, held := [] } ∧ u.out = s.out ++ (s.fn m f).held ∧
        u = { s with fns := u.fns, out := u.out, links := u.links, regs := u.regs, egr := u.egr }) ∧
      (∀ p q v, s.plotOf m f = some p → p < 512 → q < 64 → s.plotState p = 1 → s.modes.fetchPaused = false → s.mode ≠ .survey →
        let x := s.qp (qpKey p q)
        x.heldDb = [(0, v)] → x.err = 0 → (v + 2 ^ 32 - x.txCons % 2 ^ 32) % 2 ^ 32 ≤ 2 ^ x.txLog → x.txCons < 2 ^ 32 →
        Gives (.busMasterEnable m f true) s fun u => u.qp (qpKey p q) = { x with heldDb := [], txProd := v % 2 ^ 32 }))) ∧
  (∀ (m : Link) (v : Fin 16) (s : State), s.linkUp m = true → (s.fn m 0).ready = true → (s.fn m 0).flrAt = none →
    (∀ n, (v.val, n) ∈ [(0, 50000), (1, 100), (2, 10000)] → Gives (.ctoValueWrite m v) s fun u =>
      u.rd (B.HPT m) R.HPT_CTO_CTO = n ∧ (u.link m).ctoField = v ∧ u = { s with regs := u.regs, links := u.links } ∧
      ∀ a, a ≠ B.HPT m + 0xC → u.reg a = s.reg a) ∧
    (3 ≤ v.val → exec (.ctoValueWrite m v) s = .next s)) ∧
  (∀ (m : Link) (tag : Nat) (l : List Byte) (s : State),
    ((s.link m).outstanding.find? (·.tag = tag) = none → exec (.completionTimeout m tag l) s = .next s) ∧
    (∀ x, (s.link m).outstanding.find? (·.tag = tag) = some x →
      let late := x.at_ + 1000 * s.rd (B.HPT m) R.HPT_CTO_CTO ≤ s.now
      let gone := fun (u : State) => (u.link m).outstanding = (s.link m).outstanding.filter (·.tag ≠ tag)
      let counted := fun (u : State) (c : Nat) => u.cnt (B.HPTC m + c) = (s.cnt (B.HPTC m + c) + 1) % 2 ^ 64
      let timedOut := fun (u : State) => gone u ∧ (tag, s.now + 1000 * s.rd (B.HPT m) R.HPT_CTO_CTO) ∈ (u.link m).dead ∧
        u.flag (B.HPT m) R.HPT_ERR_CTO = true ∧ bitOf (u.link m).aer 30 = true ∧ u.sticky (272 + 4 * m + 1) = true ∧ counted u C.HPT_CTO_EVENTS
      (¬ late → exec (.completionTimeout m tag l) s = .next s) ∧
      (s.linkUp m = true → exec (.dmaCompletion m tag l .timeout) s = .next (s.wake m)) ∧
      (s.chainOfRead x = none → s.jobs = [] →
        (late → s.flag B.PMC R.PMC_CTRL_FREEZE = false → s.mild (272 + 4 * m + 1) →
          Gives (.completionTimeout m tag l) s timedOut ∧
          (s.linkUp m = true → ∀ e, e ≠ .timeout → Gives (.dmaCompletion m tag l e) s fun u => timedOut u ∧
            u.flag (B.HPT m) R.HPT_ERR_UNEXP_CPL = true ∧ bitOf (u.link m).aer 32 = true ∧ counted u C.HPT_UNEXP_CPL)) ∧
        (¬ late → s.linkUp m = true →
          (∀ e ∈ [DmaEnd.ok, .ur], Gives (.dmaCompletion m tag l e) s fun u => gone u ∧ u = { s with links := u.links, regs := u.regs }) ∧
          (s.flag B.PMC R.PMC_CTRL_FREEZE = false → s.mild (272 + 4 * m + 1) → Gives (.dmaCompletion m tag l .poisoned) s fun u =>
            gone u ∧ u.flag (B.HPT m) R.HPT_ERR_POISON_CPL = true ∧ bitOf (u.link m).aer 28 = true ∧ counted u C.HPT_POISON_CPL)))) ∧
    (s.linkUp m = true → (s.link m).outstanding.find? (·.tag = tag) = none →
      (tag ∈ (s.link m).silent → ∀ e, Gives (.dmaCompletion m tag l e) s fun u => tag ∉ (u.link m).silent ∧ u.cnts = s.cnts ∧
        u = { s with links := u.links, regs := u.regs }) ∧
      (tag ∉ (s.link m).silent → s.flag B.PMC R.PMC_CTRL_FREEZE = false → s.mild (272 + 4 * m + 1) →
        ∀ e, Gives (.dmaCompletion m tag l e) s fun u => u.flag (B.HPT m) R.HPT_ERR_UNEXP_CPL = true ∧
          bitOf (u.link m).aer 32 = true ∧ u.cnt (B.HPTC m + C.HPT_UNEXP_CPL) = (s.cnt (B.HPTC m + C.HPT_UNEXP_CPL) + 1) % 2 ^ 64))) ∧
  (∀ (m : Link) (s : State) (b : Nat), s.linkUp m = true → b = B.HPT m → s.flag B.PMC R.PMC_CTRL_FREEZE = false →
    let counted := fun (u : State) (c : Nat) => u.cnt (B.HPTC m + c) = (s.cnt (B.HPTC m + c) + 1) % 2 ^ 64 ∧
      u = { s with regs := u.regs, cnts := u.cnts, timers := u.timers } ∧ ∀ a, a ≠ b + 8 → u.reg a = s.reg a
    let idle := (s.link m).aspmL1 = true ∧ (s.link m).lastTlp + 1000 * s.rd b R.HPT_PM_CFG_L1_IDLE ≤ s.now ∧ (s.link m).outstanding = [] ∧
      (s.link m).ptmAt = none ∧ s.rd b R.HPT_LINK_PM ≠ 2
    let w := s.rd b R.HPT_LINK_TX_WIDTH / 2
    let narrows := s.due (Tm.txWidth m) 100000 = true ∧ s.flag b R.HPT_LINK_FLIT = true ∧ s.rd b R.HPT_LINK_RATE = 5 ∧ (s.link m).l0pEn = true ∧
      s.flag b R.HPT_PM_CFG_L0P_EN = true ∧ l0pMin (s.rd b R.HPT_PM_CFG_L0P_MIN) ≤ w ∧ s.rd b R.HPT_LINK_PM ≠ 2
    (idle → Gives (.l1Entry m) s fun u => u.rd b R.HPT_LINK_PM = 2 ∧ counted u C.HPT_L1_ENTRIES ∧ u.timers = s.timers) ∧
    (¬ idle → exec (.l1Entry m) s = .next s) ∧
    (narrows → Gives (.l0pNarrow m) s fun u => u.rd b R.HPT_LINK_TX_WIDTH = w ∧
      u.rd b R.HPT_LINK_PM = 1 ∧ u.rd b R.HPT_LINK_WIDTH = s.rd b R.HPT_LINK_WIDTH ∧ u.last (Tm.txWidth m) = some s.now ∧
      counted u C.HPT_L0P_CHANGES) ∧
    (¬ narrows → exec (.l0pNarrow m) s = .next s) ∧
    (s.rd b R.HPT_LINK_WIDTH ≤ s.rd b R.HPT_LINK_TX_WIDTH → exec (.l0pWiden m) s = .next s) ∧
    (s.rd b R.HPT_LINK_TX_WIDTH < s.rd b R.HPT_LINK_WIDTH → Gives (.l0pWiden m) s fun u =>
      u.rd b R.HPT_LINK_TX_WIDTH = s.rd b R.HPT_LINK_WIDTH ∧
      u.rd b R.HPT_LINK_PM = (if s.rd b R.HPT_LINK_PM = 1 then 0 else s.rd b R.HPT_LINK_PM) ∧ counted u C.HPT_L0P_CHANGES)) ∧
  (∀ (m : Link) (f page : Nat) (s : State), s.linkUp m = true →
    ((s.fn m f).ats = false → exec (.atsInvalidate m f page) s = .next s) ∧
    ((s.fn m f).ats = true → Gives (.atsInvalidate m f page) s fun u =>
      u.fn m f = { s.fn m f with xlat := (s.fn m f).xlat.filter (· ≠ page) } ∧ u.out = s.out ++ [.link m "invalidate completion"] ∧
      u = { s with fns := u.fns, out := u.out, links := u.links, regs := u.regs }))


/-! ### Channel rings (chapter 12) -/

/-- R278, R279, R297, Tables 12.1 and 12.6: doorbells and the completion interrupt. -/
def Obligations.RingDoorbells : Prop :=
  (∀ (p : PlotIx) (q : Fin 64) (v : DWord) (s : State) (m f : Nat), s.fnOfPlot p = some (m, f) →
    let bells := [Instr.txDb (.plot p q) v, .rxDb (.plot p q) v, .txcDb (.plot p q) v, .rxcDb (.plot p q) v]
    ∀ c ∈ bells, (s.linkUp m = false → exec c s = .next s) ∧
      (s.linkUp m = true → s.answers m f = false ∨ s.plotState p ∈ [0, 3] ∨ s.isStorage p = true →
        s.flag B.PMC R.PMC_CTRL_FREEZE = false → s.mild (272 + 4 * m + 1) → Gives c s fun u => u.reply = .ur ∧ u.qps = s.qps ∧
          u.flag (B.HPT m) R.HPT_ERR_UR_SENT = true ∧ u.cnt (B.HPTC m + C.HPT_UR_SENT) = (s.cnt (B.HPTC m + C.HPT_UR_SENT) + 1) % 2 ^ 64)) ∧
  (∀ (r : RingId) (v : DWord) (s : State),
    let k := ringKeyOf r
    let x := s.qp k
    let open_ := match r with
      | .core _ => [69, 70, 71, 72].any s.domOn = true
      | .plot p _ => ∃ (m : Link) (f : Nat), s.fnOfPlot p = some (m.val, f) ∧ s.linkUp m = true ∧ s.answers m f = true ∧
          s.plotState p ∉ [0, 3] ∧ s.isStorage p = false ∧ s.waitingOf (.host m f) = []
    let fresh := match r with
      | .core _ => True
      | .plot p _ => v.toNat / 2 ^ 48 = s.plotGen p % 2 ^ 16
    let n := v.toNat % 2 ^ 32
    let served := open_ ∧ x.live = true ∧ x.err = 0 ∧ fresh ∧ s.ringHeld k = false
    let s' := { s with reply := .ok }
    let fails := fun (u : State) => u.qp k = { x with err := 1 } ∧ (∀ j, j ≠ k → u.qp j = s.qp j) ∧ u.reply = .ok ∧
      (s.ringPosts k = true → u.out = s.out ++ s.ringMsg k false)
    let bells := [(Instr.txDb r v, 0), (.rxDb r v, 1), (.txcDb r v, 2), (.rxcDb r v, 3)]
    (∀ c ∈ bells, ∀ (p : PlotIx) (q : Fin 64) (m : Link) (f : Nat), r = .plot p q → s.fnOfPlot p = some (m.val, f) → s.linkUp m = true →
      s.answers m f = true → s.plotState p ∉ [0, 3] → s.isStorage p = false → Gives c.1 s fun u => u.reply = .ok) ∧
    (∀ c ∈ bells, (open_ → x.live = false ∨ x.err ≠ 0 → exec c.1 s = .next s') ∧
      (open_ → x.live = true → x.err = 0 → ¬ fresh → Gives c.1 s fun u => ∀ p q, r = .plot p q →
        let b := s.qpRegs p q
        Wrote s' u [b + R.PLOT_QP_EVENTS_DB_STALE.off] ∧ u.rd b R.PLOT_QP_EVENTS_DB_STALE = min 0xFFFF (s.rd b R.PLOT_QP_EVENTS_DB_STALE + 1) ∧
        u.rd b R.PLOT_QP_EVENTS_ERR_DROP = s.rd b R.PLOT_QP_EVENTS_ERR_DROP) ∧
      (open_ → x.live = true → x.err = 0 → fresh → s.ringHeld k = true → Gives c.1 s fun u =>
        u.qp k = { x with heldDb := x.heldDb.filter (·.1 ≠ c.2) ++ [(c.2, v.toNat)] } ∧ u = { s' with qps := u.qps } ∧
        ∀ j, j ≠ k → u.qp j = s.qp j)) ∧
    (served →
      (2 ^ x.txLog < (n + 2 ^ 32 - x.txCons) % 2 ^ 32 → Gives (.txDb r v) s fails) ∧
      ((n + 2 ^ 32 - x.txCons) % 2 ^ 32 ≤ 2 ^ x.txLog → Gives (.txDb r v) s fun u => u.qp k = { x with txProd := n } ∧
        u = { s' with qps := u.qps } ∧ ∀ j, j ≠ k → u.qp j = s.qp j) ∧
      (2 ^ x.rxLog < (n + 2 ^ 32 - x.rxCons) % 2 ^ 32 → Gives (.rxDb r v) s fails) ∧
      ((n + 2 ^ 32 - x.rxCons) % 2 ^ 32 ≤ 2 ^ x.rxLog → Gives (.rxDb r v) s fun u => u.qp k = { x with rxProd := n } ∧
        u = { s' with qps := u.qps, egr := u.egr } ∧ (∀ j, j ≠ k → u.qp j = s.qp j) ∧
        ∀ t, (u.egress t).q.map (fun p => { p with since := none }) = (s.egress t).q.map (fun p => { p with since := none })) ∧
      ∀ rx : Bool,
        let c := if rx then Instr.rxcDb r v else .txcDb r v
        let y := x.side rx
        let left := (y.prod + 2 ^ 32 - n) % 2 ^ 32
        let arm := bitOf v.toNat 32
        (2 ^ x.log rx < left → Gives c s fails) ∧
        (left ≤ 2 ^ x.log rx → Gives c s fun u => u.reply = .ok ∧ u.qp k = x.setSide rx ((u.qp k).side rx) ∧ (∀ j, j ≠ k → u.qp j = s.qp j) ∧
          ∃ l, l <:+ y.times ∧ SideIs s u k rx
            { y with cons := n, armed := y.armed || arm, n := if arm then left else y.n, times := l } []))) ∧
  ∀ (r : RingId) (rx : Bool) (s : State), let k := ringKeyOf r
    let x := s.qp k
    (x.live = false ∨ x.err ≠ 0 ∨ s.irqDue k rx (x.side rx) = false → exec (.irqModerationTimeout r rx) s = .next s) ∧
    (x.live = true → x.err = 0 → s.irqDue k rx (x.side rx) = true → Gives (.irqModerationTimeout r rx) s fun u =>
      u.qp k = x.setSide rx ((u.qp k).side rx) ∧ SideIs s u k rx (x.side rx) [])

/-- R280 to R290, R296, Tables 12.2, 12.4 and 12.5: chains are fetched, checked, handed to the headrace and completed. -/
def Obligations.RingsTransmit : Prop :=
  (∀ (r : RingId) (descs : Fetch) (pay : Option (List Byte × DmaEnd)) (s : State),
    let k := ringKeyOf r
    let x := s.qp k
    let h := s.txHeadrace k
    (s.mayFetch k = false → exec (.txChainFetch r descs pay) s = .next s) ∧
    (s.mayFetch k = true → s.ringRange k x.txBase (32 * 2 ^ x.txLog) false = false → Gives (.txChainFetch r descs pay) s fun u =>
      u.qp k = { x with err := 2 } ∧ (s.ringPosts k = true → u.out = s.out ++ s.ringMsg k false)) ∧
    (s.mayFetch k = true → s.ringRange k x.txBase (32 * 2 ^ x.txLog) false = true → descs ∈ [.ur, .window, .timeout, .poisoned] →
      (∀ m f, s.ringFn k = some (m, f) → s.mild (272 + 4 * m + 1)) → Gives (.txChainFetch r descs pay) s fun u => u.qp k = { x with err := 3 }) ∧
    ∀ l ds eop, s.mayFetch k = true → s.ringRange k x.txBase (32 * 2 ^ x.txLog) false = true → descs = .ok l →
      chainOf 32 (s.ringDescs k l) = (ds, eop) →
      let c := Instr.txChainFetch r descs pay
      let d := ds.headD 0
      let st := s.chainCheck k ds eop
      let total := chainBytes ds
      let pay' := if isCoreRing k then some (ds.flatMap fun d => match s.coreMemory 0 (Desc.addr d) (Desc.len d) with
          | some (j, _) => bytesAt s.mem j (Desc.len d)
          | none => [], DmaEnd.ok) else pay
      let waits := ds = [] ∨ (eop = false ∧ ds.length < 32) ∨ s.reqRoom k ds = false ∨ (Desc.tsReq d = true ∧ 16 ≤ x.tsWaiting)
      let turn := ∀ m f, s.ringFn k = some (m, f) → (s.fetchTurn m (k / 64) total).2 = true
      let last := fun (u : State) (P : Chain → Prop) => ∃ c, (u.qp k).chains.getLast? = some c ∧ (u.qp k).chains.length = x.chains.length + 1 ∧
        c.posts = ds.length ∧ c.index = (x.txCons + ds.length - 1) % 2 ^ x.txLog ∧ P c
      let consumed := fun (u : State) => (u.qp k).txCons = (x.txCons + ds.length) % 2 ^ 32
      let frame := fun (u : State) => (∀ j, j ≠ k → u.qp j = s.qp j) ∧ ∀ g, g ≠ h → u.stage g = s.stage g
      let failed := fun (n len : Nat) (outs : List Out) (u : State) => frame u ∧ u.out = s.out ++ s.descOuts k ++ outs ∧ consumed u ∧
        u.stage h = s.stage h ∧ last u fun c => c.status = n ∧ c.len = len ∧ c.ended = true ∧ c.pend = none ∧ c.toTake = 0
      let hands := fun (len : Nat) (frames : List (List Byte)) (u : State) => frame u ∧ consumed u ∧
        (∃ o, u.out = s.out ++ s.descOuts k ++ s.payOuts k ds ++ o) ∧
        (u.stage h).pkts.take (s.stage h).pkts.length = (s.stage h).pkts ∧
        ((u.stage h).pkts.drop (s.stage h).pkts.length).map (fun p => (p.data, p.org, p.cls, p.launch, p.tsReq)) =
          frames.map (fun l => (fit (max 60 l.length) l, s.originOf k, x.cls, if Desc.ltEn d then some (Desc.launch d) else none, Desc.tsReq d)) ∧
        (tget (fun _ => 0) u.txCredit (k / 64) = tget (fun _ => 0) s.txCredit (k / 64) -
          if isCoreRing k || !s.txArmed.contains (k / 64) then 0 else 1024 * chargeOf frames (s.overhead x.bind 8)) ∧
        last u fun c => c.toTake = frames.length ∧ c.len = len ∧ c.pend = none
      (waits → exec c s = .next s) ∧
      (¬ waits → ¬ turn → Gives c s fun u => u.out = s.out ++ s.descOuts k ∧ u = { s with out := u.out, links := u.links, regs := u.regs }) ∧
      (∀ m f, s.ringFn k = some (m, f) →
        let l := s.link m
        let have_ : Nat := tget (fun _ => 0) l.deficit (k / 64)
        (s.fetchers m = [k / 64] → turn) ∧
        (l.visit ≠ 0 → l.visit ≠ k / 64 + 1 → l.visit - 1 ∈ s.fetchers m → ¬ turn) ∧
        (l.visit = k / 64 + 1 → total ≤ have_ → turn ∧ (¬ waits → Gives c s fun u => (u.link m).visit = k / 64 + 1 ∧
          tget (fun _ => 0) (u.link m).deficit (k / 64) = have_ - total)) ∧
        (l.visit = k / 64 + 1 → have_ < total → ∀ p, p ≠ k / 64 → p ∈ s.fetchers m → nextFrom l.visit (s.fetchers m) = p →
          ¬ turn ∧ (¬ waits → Gives c s fun u => (u.link m).visit = p + 1))) ∧
      (¬ waits → turn → st ≠ 0 → Gives c s (failed st 0 [])) ∧
      (¬ waits → turn → st = 0 →
        (∀ m f, s.ringFn k = some (m, f) → pay = none → Gives c s fun u => frame u ∧ (u.qp k).txCons = x.txCons ∧ u.staging = s.staging ∧
          u.out = s.out ++ s.descOuts k ++ s.payOuts k ds ∧ (last u fun c => c.pend = some (s.freeTag m)) ∧
          (u.link m).outstanding = (s.link m).outstanding ++ [⟨s.freeTag m, f, k, x.nextSeq, s.chainReqs m ds, s.now⟩]) ∧
        ∀ got e, pay' = some (got, e) →
          let got' := if e = .ok then fit total got else got.take total
          let hd := tsoHdr d got'
          let segs := if tsoErr ds got' then [] else tsoCut d (got'.take hd) (total - hd) (total - hd + 1) (got'.drop hd) 0 0
          let whole := e = .ok
          let cut := e ≠ .ok ∧ ∀ m f, s.ringFn k = some (m, f) → s.mild (272 + 4 * m + 1)
          let plain := csumOffload d got'
          let esp := (s.espTx (k / 64) (Desc.sa d) (Desc.ol3 d) (Desc.ol4 d) plain).1
          (Desc.tso d = false → Desc.crypto d = false → whole → Gives c s (hands total [plain])) ∧
          (Desc.tso d = false → Desc.crypto d = true → whole → seqLeft (s.espSa (Desc.sa d)) = 0 →
            Gives c s (failed 6 total (s.payOuts k ds))) ∧
          (∀ b, Desc.tso d = false → Desc.crypto d = true → whole → esp = some b → s.mild 27 → Gives c s (hands total [b])) ∧
          (Desc.tso d = false → cut → Gives c s fun u => consumed u ∧ u.staging = s.staging ∧
            last u fun c => c.status = 3 ∧ c.len = got'.length ∧ c.ended = true) ∧
          (Desc.tso d = true → whole → tsoErr ds got' = true → Gives c s (failed 1 0 (s.payOuts k ds))) ∧
          (Desc.tso d = true → whole → tsoErr ds got' = false → Gives c s fun u => hands got'.length segs u ∧ last u fun c => c.status = 0) ∧
          (Desc.tso d = true → cut → Gives c s fun u => hands got'.length segs u ∧ last u fun c => c.status = 3 ∧ c.ended = true))) ∧
  (∀ (m : Link) (tag : Nat) (got : List Byte) (s : State) (x : DevRead) (c : Chain),
    (s.link m).outstanding.find? (·.tag = tag) = some x → s.chainOfRead x = some c → s.jobs = [] →
    let q := s.qp x.ring
    let gone := fun (u : State) => (u.link m).outstanding = (s.link m).outstanding.filter (·.tag ≠ tag)
    let chain := fun (u : State) (P : Chain → Prop) => ∃ c' ∈ (u.qp x.ring).chains, c'.seq = c.seq ∧ c'.pend = none ∧ P c'
    let fails := fun (u : State) => gone u ∧ u.staging = s.staging ∧ (u.qp x.ring).txCons = (q.txCons + c.posts) % 2 ^ 32 ∧
      chain u fun c' => c'.status = 3 ∧ c'.ended = true ∧ c'.len = min got.length (chainBytes c.desc)
    let plain := Desc.tso (c.desc.headD 0) = false
    let late := s.readLate m x = true
    (q.err = 0 → plain → late → s.mild (272 + 4 * m + 1) → Gives (.completionTimeout m tag got) s fails) ∧
    (q.err = 0 → plain → ¬ late → s.linkUp m = true → Gives (.dmaCompletion m tag got .ur) s fails) ∧
    (q.err ≠ 0 → ¬ late → s.linkUp m = true → Gives (.dmaCompletion m tag got .ok) s fun u => gone u ∧ u.staging = s.staging ∧
      u.qp x.ring = { q with chains := (u.qp x.ring).chains } ∧ chain u fun c' => c'.status = c.status ∧ c'.toTake = c.toTake) ∧
    (q.err = 0 → plain → ¬ late → s.linkUp m = true → Desc.crypto (c.desc.headD 0) = false → Gives (.dmaCompletion m tag got .ok) s fun u =>
      gone u ∧ ((u.stage (s.txHeadrace x.ring)).pkts.drop (s.stage (s.txHeadrace x.ring)).pkts.length).map (·.data) =
        (let l := csumOffload (c.desc.headD 0) (fit (chainBytes c.desc) got)
         [fit (max 60 l.length) l]) ∧
      chain u fun c' => c'.status = c.status ∧ c'.toTake = 1)) ∧
  ∀ (r : RingId) (s : State) (c : Chain) (cs : List Chain),
    let k := ringKeyOf r
    let x := s.qp k
    let y := x.txc
    let held := match s.ringFn k with
      | some (m, f) => (s.fn m f).bme = false ∨ s.linkUp m = false
      | none => False
    let ready := x.live = true ∧ x.err = 0 ∧ ¬ held ∧ c.pend = none ∧ c.toTake = 0 ∧ (c.tsReq = true → c.ended = true)
    (x.chains = [] → exec (.txCompletion r) s = .next s) ∧
    (x.chains = c :: cs → ¬ ready → exec (.txCompletion r) s = .next s) ∧
    (x.chains = c :: cs → ready → s.jobs = [] →
      (s.ringRange k y.base (32 * 2 ^ x.txLog) true = false → Gives (.txCompletion r) s fun u => u.qp k = { x with chains := cs, err := 2 }) ∧
      (s.ringRange k y.base (32 * 2 ^ x.txLog) true = true →
        let bytes := Cpl.bytes { time := c.time, frac := c.frac, index := c.index, len := c.len, hash := 0, csum := 0, sa := c.sa,
                                 status := c.status, posts := c.posts, flags := bit c.tsValid * 2 ^ 11, cls := x.cls } (1 - y.prod / 2 ^ x.txLog % 2)
        let a := y.base + 32 * (y.prod % 2 ^ x.txLog)
        Gives (.txCompletion r) s fun u => u.qp k = { x with chains := cs, txc := (u.qp k).txc } ∧
          SideIs s u k false (y.wrote s.now) (s.ringOut k a bytes) ∧
          ∀ b, isCoreRing k = true → s.coreMemory 0 a 32 = some (b, true) → bytesAt u.mem b 32 = bytes))

/-- R28, R237, R280, R281, R292, R293, R295, R298, Tables 12.3 to 12.6: a packet for a receive ring. -/
def Obligations.RingsReceive : Prop :=
  ∀ (t : Tailrace) (r : RingId) (posts : Fetch) (s : State),
    let c := Instr.rxRingWrite t r posts
    let none_ := (s.egress t).deliver.find? (s.servedAt (ringKeyOf r)) = none
    (none_ ∨ s.domOn (domTR t) = false → exec c s = .next s) ∧
    ∀ p, (s.egress t).deliver.find? (s.servedAt (ringKeyOf r)) = some p → s.domOn (domTR t) = true → s.jobs = [] →
      s.flag B.PMC R.PMC_CTRL_FREEZE = false →
      let k := s.ringFor p
      let x := s.qp k
      let g := bitsOf p.dest 11 0
      let gone := fun (u : State) => (u.egress t).deliver = (s.egress t).deliver.erase p
      let up := fun (u : State) (n : Nat) => u.cnt n = (s.cnt n + 1) % 2 ^ 64
      let noq := fun (u : State) => gone u ∧ u.out = s.out ∧ (p.slot = 8 → up u (B.PLOT g + C.PLOT_NOQ_DROP)) ∧
        ∀ j, (u.qp j).rxCons = (s.qp j).rxCons ∧ (u.qp j).rxc = (s.qp j).rxc
      let old := p.slot = 8 ∧ p.gen ≠ s.plotGen g
      let survey := p.slot = 8 ∧ s.mode = .survey
      let served := ¬ old ∧ ¬ survey ∧ x.live = true ∧ x.err = 0 ∧ s.ringHeld k = false
      (old → Gives c s noq) ∧
      (¬ old → survey → Gives c s fun u => gone u ∧ u.out = s.out ∧ up u (B.TLR t + C.TLR_RX_NOBUF_DROP)) ∧
      (¬ old → ¬ survey → x.live = false → Gives c s noq) ∧
      (¬ old → ¬ survey → x.live = true → x.err ≠ 0 → Gives c s fun u => gone u ∧ u.out = s.out ∧ (isCoreRing k = false →
        u.rd (s.qpRegs (k / 64) (k % 64)) R.PLOT_QP_EVENTS_ERR_DROP =
          min 0xFFFF (s.rd (s.qpRegs (k / 64) (k % 64)) R.PLOT_QP_EVENTS_ERR_DROP + 1))) ∧
      (¬ old → ¬ survey → x.live = true → x.err = 0 → s.ringHeld k = true → Gives c s fun u => u.qps = s.qps ∧ u.out = s.out ∧
        (u.egress t).deliver = (s.egress t).deliver) ∧
      (served → s.ringRange k x.rxBase (16 * 2 ^ x.rxLog) false = false → Gives c s fun u => u.qp k = { x with err := 2 }) ∧
      (served → s.ringRange k x.rxBase (16 * 2 ^ x.rxLog) false = true →
        (s.postsFound k posts = none → (∀ m f, s.ringFn k = some (m, f) → s.mild (272 + 4 * m + 1)) →
          Gives c s fun u => u.qp k = { x with err := 3 }) ∧
        ∀ ps, s.postsFound k posts = some ps →
          let esp := if isCoreRing k then (EspEnd.pass, s) else s.espRx g p.carry p.pkt.data
          let still := fun (u : State) => u.qps = s.qps ∧ u.out = s.out ∧ u.icr = s.icr
          let nobuf := fun (u : State) => gone u ∧ u.out = s.out ∧ u.icr = s.icr ∧ up u (B.TLR t + C.TLR_RX_NOBUF_DROP)
          let cpl := s.ringRange k x.rxc.base (32 * 2 ^ x.rxLog) true = true
          (esp.1 = .drop → Gives c s fun u => gone u ∧ u.out = s.out ∧ u.icr = esp.2.icr ∧
            ∀ j, (u.qp j).rxCons = (s.qp j).rxCons ∧ (u.qp j).rxc = (s.qp j).rxc) ∧
          ∀ data sa, (esp.1 = .pass ∧ data = p.pkt.data ∧ sa = none) ∨ (∃ d i, esp.1 = .clear d i ∧ data = d ∧ sa = some i) →
            (∀ l, s.takePosts k ps data.length [] = some l →
              let good := l.filter (fun q => q.2.2 = 0)
              let bad := l.filter (fun q => q.2.2 ≠ 0)
              (16 < good.length → Gives c s nobuf) ∧
              (good.length ≤ 16 → x.rxSlots < bad.length + 1 → Gives c s fun u => still u ∧ (u.egress t).deliver = (s.egress t).deliver) ∧
              (good.length ≤ 16 → bad.length + 1 ≤ x.rxSlots → cpl →
                Gives c s fun u => gone u ∧ (u.qp k).rxCons % 2 ^ 32 = (x.rxCons + l.length) % 2 ^ 32 ∧
                  (u.qp k).rxc.prod = (x.rxc.prod + bad.length + 1) % 2 ^ 32 ∧ (u.qp k).err = 0 ∧ u.icr = esp.2.icr) ∧
              (good.length ≤ 16 → bad = [] → 1 ≤ x.rxSlots → cpl →
                let bytes := Cpl.bytes { time := p.pkt.time, frac := p.pkt.frac, index := x.rxCons % 2 ^ x.rxLog, len := data.length,
                                         hash := Carry.flowHash p.carry, csum := onesSum (data.drop 14), sa := sa.getD 0, status := 0,
                                         posts := good.length, flags := rxFlags p.carry p.pkt.data + bit sa.isSome * 2 ^ 5, cls := p.cls }
                               (1 - x.rxc.prod / 2 ^ x.rxLog % 2)
                Gives c s fun u => gone u ∧ SideIs s u k true (x.rxc.wrote s.now)
                  (s.postOuts k (good.map fun q => (q.1, q.2.1)) data ++
                    s.ringOut k (x.rxc.base + 32 * (x.rxc.prod % 2 ^ x.rxLog)) bytes))) ∧
            (s.takePosts k ps data.length [] = none →
              let lead := min ((ps.map (s.postStatus k)).takeWhile (· ≠ 0)).length x.rxSlots
              let waits := fun (u : State) => u.icr = s.icr ∧
                (u.egress t).deliver = (s.egress t).deliver.map fun q => if q = p then { q with since := some (q.since.getD s.now) } else q
              (16 ≤ (ps.filter fun q => s.postStatus k q = 0).length → Gives c s nobuf) ∧
              ((ps.filter fun q => s.postStatus k q = 0).length < 16 →
                (lead = 0 → Gives c s fun u => still u ∧ waits u) ∧
                (0 < lead → cpl → Gives c s fun u => waits u ∧ (u.qp k).rxCons = (x.rxCons + lead) % 2 ^ 32 ∧
                  (u.qp k).rxc.prod = (x.rxc.prod + lead) % 2 ^ 32))))


/-! ### Plots (chapter 13) -/

/-- R301, R306, R322, Table 13.3: which plot a command names, and the queue operations on both paths. -/
def Obligations.PlotQueues : Prop :=
  (∀ (q : Req) (buf : Fetch) (s : State) (c : Cmd),
    ∀ x ∈ [(0x0200, Instr.plotConfig q, true, false), (0x0201, .plotRateSet q, false, false), (0x0202, .plotWindowSet q, false, false),
        (0x0203, .qpCreate (.manager q), false, false), (0x0204, .plotReset q, false, true), (0x0205, .plotRemove q, false, true),
        (0x0206, .plotMsgSend q, false, false), (0x0207, .plotMsgRecv q, false, false), (0x0208, .plotStatus q, true, true),
        (0x0209, .plotLogStart q, false, false), (0x020A, .plotLogSync q, false, false), (0x020B, .plotLogStop q, false, false),
        (0x020C, .plotPause q, false, false), (0x020D, .plotResume q, false, false), (0x020E, .plotSave q, false, false),
        (0x020F, .plotRestore q buf, false, false)],
    s.holds q x.1 c →
      (∀ n, q = .core n → Gives x.2.1 s (Ends q St.REFUSED [] s)) ∧
      (∀ m a, q = .host m a → s.localIn m (c.u16 8) = false →
        let other := if m.val % 2 = 0 then m.val + 1 else m.val - 1
        let st := if bitOf s.image.bifur (m.val / 2) && s.localIn other (c.u16 8) then St.REFUSED else St.BAD_ARGUMENT
        Gives x.2.1 s (Ends q st [] s)) ∧
      ∀ p, s.localPlot q (c.u16 8) = .ok p →
        (s.plotState p = 0 → x.2.2.1 = false → Gives x.2.1 s (Ends q St.BAD_ARGUMENT [] s)) ∧
        (s.plotState p = 3 ∨ (s.plotState p ≠ 0 ∧ x.2.2.2 = false ∧ s.held plotJobs p = true) →
          Gives x.2.1 s fun t => (t.tag q).cur = none ∧ s.resultOnly t q ∧
            (t.tag q).fin.map (fun f => (f.status, f.retry)) = some (St.BUSY_RETRY, 1000))) ∧
  (∀ (x : QpPath) (s : State) (p : Nat) (l : List Byte),
    let k := qpKey p (blkAt l 0 1)
    let old := s.qp k
    let b := s.qpRegs p (blkAt l 0 1) + 0x1000
    let cleared := fun (u : State) => ∀ i, i < 8 → u.reg (b + 4 * i) = regReset (b + 4 * i)
    (s.mode = .trickle → ∀ o ∈ [(1, Instr.qpCreate x), (2, .qpReset x), (3, .qpDelete x), (4, .qtableSet x)],
      s.asksQueue x o.1 p l → Gives o.2 s (QueueEnds x St.WRONG_MODE s)) ∧
    (s.mode ≠ .trickle → s.asksQueue x 1 p l →
      let y := Qp.init
      let y : Qp := { y with cls := blkAt l 1 1, txLog := blkAt l 2 1, rxLog := blkAt l 3 1, txBase := blkAt l 8 8, rxBase := blkAt l 24 8,
                             txc := { CplRing.init with base := blkAt l 16 8 }, rxc := { CplRing.init with base := blkAt l 32 8 } }
      let bad := s.rd (B.PLOT p) R.PLOT_CFG_QP_MAX ≤ blkAt l 0 1 ∨ old.live = true ∨ 7 < y.cls ∨
        bitOf (s.rd (B.PLOT p) R.PLOT_CFG_CLASS_MASK) y.cls = false ∨ y.txLog ∉ [6, 7, 8, 9, 10, 11, 12, 13, 14, 15, 16] ∨
        y.rxLog ∉ [6, 7, 8, 9, 10, 11, 12, 13, 14, 15, 16] ∨ y.txBase % 4096 ≠ 0 ∨ y.rxBase % 4096 ≠ 0 ∨ y.txc.base % 4096 ≠ 0 ∨
        y.rxc.base % 4096 ≠ 0 ∨ s.windowOk p y.txBase (32 * 2 ^ y.txLog) false = false ∨ s.windowOk p y.txc.base (32 * 2 ^ y.txLog) true = false ∨
        s.windowOk p y.rxBase (16 * 2 ^ y.rxLog) false = false ∨ s.windowOk p y.rxc.base (32 * 2 ^ y.rxLog) true = false ∨ s.isStorage p = true
      (bad → Gives (.qpCreate x) s (QueueEnds x St.BAD_ARGUMENT s)) ∧
      (¬ bad → 8192 ≤ s.allQps → Gives (.qpCreate x) s (QueueEnds x St.NO_RESOURCE s)) ∧
      (¬ bad → s.allQps < 8192 → ∀ m f, s.fnOfPlot p = some (m, f) → Gives (.qpCreate x) s fun t => ∃ u, QueueEnds x St.DONE u t ∧
        u.qp k = { y with live := true, nextSeq := old.nextSeq, bind := (u.qp k).bind } ∧
        (u.qp k).bind = (if bitOf s.image.bifur (m / 2) then m else if (s.link m).turn then m + 1 else m) ∧
        (∀ j, j ≠ k → u.qp j = s.qp j) ∧ cleared u ∧ u = { s with qps := u.qps, regs := u.regs, links := u.links })) ∧
    (s.mode ≠ .trickle → s.jobs = [] → ∀ o ∈ [(2, Instr.qpReset x, old.restarted), (3, .qpDelete x, { Qp.init with nextSeq := old.nextSeq })],
      s.asksQueue x o.1 p l →
      (64 ≤ blkAt l 0 1 ∨ old.live = false → Gives o.2.1 s (QueueEnds x St.BAD_ARGUMENT s)) ∧
      (blkAt l 0 1 < 64 → old.live = true → ∀ m f, s.fnOfPlot p = some (m, f) → Gives o.2.1 s fun t => ∃ u, QueueEnds x St.DONE u t ∧
        u.qp k = o.2.2 ∧ (∀ j, j ≠ k → u.qp j = s.qp j) ∧ cleared u ∧ (u.link m).outstanding = (s.link m).outstanding.filter (·.ring ≠ k) ∧
        u = { s with qps := u.qps, regs := u.regs, links := u.links, egr := u.egr })) ∧
    (s.mode ≠ .trickle → s.asksQueue x 4 p l →
      let bad := 3 < blkAt l 4 1 ∨ ∃ e ∈ (l.drop 8).take 32, 63 < e.toNat
      (bad → Gives (.qtableSet x) s (QueueEnds x St.BAD_ARGUMENT s)) ∧
      (¬ bad → l.length = 64 → Gives (.qtableSet x) s fun t => ∃ u, QueueEnds x St.DONE u t ∧
        (∀ h, u.rxQueue p 0xFF h = if h % 128 / 32 = blkAt l 4 1 then blkAt l (8 + h % 32) 1 else s.rxQueue p 0xFF h) ∧
        Wrote s u ((List.range 8).map fun i => B.PLOT p + R.PLOT_QTABLE_QP.off + 4 * (8 * blkAt l 4 1 + i))))) ∧
  ∀ (p : PlotIx) (s : State) (m f : Nat), s.fnOfPlot p = some (m, f) →
    ∀ c ∈ [Instr.qpCreate (.tenant p), .qpReset (.tenant p), .qpDelete (.tenant p), .qtableSet (.tenant p), .plotMbxAck p],
      s.linkUp m = false → exec c s = .next s

/-- R302 to R305, R307, R311, R313, R314, Tables 13.1, 13.2 and 13.7: configuration, rates, windows, reset and removal. -/
def Obligations.PlotConfiguration : Prop :=
  (∀ (q : Req) (s : State) (c : Cmd) (p m f : Nat), s.holds q 0x0200 c → s.localPlot q (c.u16 8) = .ok p → s.fnOfPlot p = some (m, f) →
    s.plotState p ≠ 3 → s.held plotJobs p = false →
    let b := B.PLOT p
    let kind := bitOf (c.u8 10) 0
    let range := (1 ≤ c.u8 12 ∧ c.u8 12 ≤ 64) ∧ (1 ≤ c.u16 14 ∧ c.u16 14 ≤ 256) ∧ c.u16 22 ≤ 4095 ∧
      (c.u32 24 ≤ 65535 ∨ c.u32 24 = 0xFFFF_FFFF) ∧ (f = 0 → kind = false)
    let turns := kind ≠ s.isStorage p ∧ ((s.fn m f).mse = true ∨ s.liveQps p ≠ 0 ∨ s.ctlOn p = true)
    let msix := f ≠ 0 ∧ c.u16 14 ≠ s.tableSize m f ∧ (s.fn m f).msixEn = true
    let pool := f ≠ 0 ∧ (if bitOf s.image.bifur (m / 2) then 1024 else 2048) < s.otherVectors m f + c.u16 14
    let ok := range ∧ ¬ turns ∧ s.topQp p ≤ c.u8 12 ∧ ¬ msix ∧ ¬ pool
    let retry := fun (t : State) => (t.tag q).cur = none ∧ s.resultOnly t q ∧
      (t.tag q).fin.map (fun f => (f.status, f.retry)) = some (St.BUSY_RETRY, 1000)
    (¬ range → Gives (.plotConfig q) s (Ends q St.BAD_ARGUMENT [] s)) ∧
    (range → turns → Gives (.plotConfig q) s retry) ∧
    (range → ¬ turns → c.u8 12 < s.topQp p → Gives (.plotConfig q) s (Ends q St.BAD_ARGUMENT [] s)) ∧
    (range → ¬ turns → s.topQp p ≤ c.u8 12 → msix → Gives (.plotConfig q) s retry) ∧
    (range → ¬ turns → s.topQp p ≤ c.u8 12 → ¬ msix → pool → Gives (.plotConfig q) s (Ends q St.NO_RESOURCE [] s)) ∧
    let mac := c.u32 16 + 2 ^ 32 * c.u16 20
    let keeps := s.flag b R.PLOT_CFG_EN = true ∧ steerKey (s.plotMac p) (s.plotVlan p) = steerKey mac (c.u16 22)
    let starts := s.tableHeld = false ∨ keeps
    (ok → ¬ starts → exec (.plotConfig q) s = .next s) ∧
    (ok → starts → s.steer p mac (c.u16 22) = none → Gives (.plotConfig q) s (Ends q St.TABLE_FULL [] s)) ∧
    (ok → starts → ∀ was v, s.steer p mac (c.u16 22) = some (was, v) →
     let set := fun (u : State) => u.flag b R.PLOT_CFG_EN = true ∧ u.isStorage p = kind ∧ u.flag b R.PLOT_CFG_SRC_CHECK = bitOf (c.u8 10) 1 ∧
      u.flag b R.PLOT_CFG_FLOW_STATE = bitOf (c.u8 10) 2 ∧ u.rd b R.PLOT_CFG_CLASS_MASK = c.u8 11 ∧ u.rd b R.PLOT_CFG_QP_MAX = c.u8 12 ∧
      u.rd b R.PLOT_CFG_VEC_COUNT = c.u16 14 ∧ u.plotMac p = c.u32 16 + 2 ^ 32 * c.u16 20 ∧ u.plotVlan p = c.u16 22 ∧
      u.flag b R.PLOT_POLICER_EN = decide (c.u32 24 ≠ 0xFFFF_FFFF) ∧ (c.u32 24 ≠ 0xFFFF_FFFF → u.rd b R.PLOT_POLICER_METER = c.u32 24) ∧
      (f ≠ 0 → u.fn m f = { s.fn m f with tableSize := c.u16 14 }) ∧
      ∀ a, a ∉ [b, b + 4, b + 8, b + 12] → (was = true → ∀ k ∈ s.pipesOn, a ≠ B.PIPE k + R.BARRIER_DONE.off) → u.reg a = v.reg a
     let gen := leBytes 2 (s.plotGen p % 2 ^ 16)
     (was = true → ¬ keeps ∧ Seed.valid (v.masterAt (steerKey (s.plotMac p) (s.plotVlan p))) = false) ∧
     (was = false ∨ s.pipesOn = [] → Gives (.plotConfig q) s fun t => ∃ u, Ends q St.DONE gen u t ∧ set u ∧
        u = { v.forgetRaw p 0 0xF with regs := u.regs, fns := u.fns }) ∧
     (was = true → s.pipesOn ≠ [] → Gives (.plotConfig q) s fun u => set u ∧
        u = { v.forgetRaw p 0 0xF with regs := u.regs, fns := u.fns, pipes := u.pipes, jobs := u.jobs } ∧
        u.jobs = s.jobs ++ [⟨q, s.mgen q, 0x0200, barrierObj, 0, 0, gen⟩] ∧ ∀ k ∈ s.pipesOn, u.flag (B.PIPE k) R.BARRIER_DONE = false))) ∧
  (∀ (q : Req) (s : State) (c : Cmd) (p : Nat), s.holds q 0x0201 c → s.serves q c p →
    let b := B.PLOT p
    let ok := ∀ i ∈ [12, 20], fieldTakes (b + R.PLOT_TX_SHP_INC.off) R.PLOT_TX_SHP_INC (c.u32 i) = true ∧
      fieldTakes (b + R.PLOT_TX_SCHED_BURST.off) R.PLOT_TX_SCHED_BURST (c.u16 (i + 4)) = true ∧
      fieldTakes (b + R.PLOT_TX_SCHED_WEIGHT.off) R.PLOT_TX_SCHED_WEIGHT (c.u8 (i + 6)) = true
    (¬ ok → Gives (.plotRateSet q) s (Ends q St.BAD_ARGUMENT [] s)) ∧
    (ok → ∀ m f, s.fnOfPlot p = some (m, f) → Gives (.plotRateSet q) s fun t => ∃ u, Ends q St.DONE [] u t ∧
      u = { s.forgetRaw p 0x20 0x27 with regs := u.regs, plots := u.plots } ∧ u.rd b R.PLOT_TX_SHP_INC = c.u32 12 ∧ u.rd b R.PLOT_TX_SCHED_BURST = c.u16 16 ∧
      u.rd b R.PLOT_TX_SCHED_WEIGHT = c.u8 18 ∧ u.flag b R.PLOT_TX_SHP_SHP_EN = bitOf (c.u8 27) 0 ∧
      u.plot p = { s.plot p with rxInc := c.u32 20, rxBurst := c.u16 24, rxWeight := c.u8 26, rxEn := bitOf (c.u8 27) 1 } ∧
      (∀ t ∈ s.linkTails m, s.domOn (domTR t) = true →
        let a := B.TLR t + 8 * (128 * (m % 2) + f)
        u.flag a R.TLR_PLOT_SHP_SHP_EN = bitOf (c.u8 27) 1 ∧ u.rd a R.TLR_PLOT_SCHED_WEIGHT = c.u8 26 ∧ u.rd a R.TLR_PLOT_SCHED_BURST = c.u16 24) ∧
      ∀ j, j ≠ p → u.plot j = s.plot j)) ∧
  (∀ (q : Req) (s : State) (c : Cmd) (p : Nat), s.holds q 0x0202 c → s.serves q c p →
    let ws := windowArgs c
    let bad := 16 < c.u8 10 ∨ (∃ w ∈ ws, w.2 = 0 ∨ bitsOf w.1 11 2 ≠ 0 ∨ 2 ^ 64 < windowHi w) ∨ windowsApart ws = false
    (bad → Gives (.plotWindowSet q) s (Ends q St.BAD_ARGUMENT [] s)) ∧
    (¬ bad → s.jobs = [] → (s.mgen q = c.mgen) →
      let set := fun (u : State) => ∀ w, w < 16 → let a := B.PLOT p + 0x40 + 0x10 * w
        (u.reg a).toNat + 2 ^ 32 * (u.reg (a + 4)).toNat = (ws.getD w (0, 0)).1 ∧ (u.reg (a + 8)).toNat = (ws.getD w (0, 0)).2
      let area := fun a => B.PLOT p + 0x40 ≤ a ∧ a < B.PLOT p + 0x140
      (s.readsDone p = true → Gives (.plotWindowSet q) s fun t => ∃ u, Ends q St.DONE [] u t ∧ set u ∧
        u = { s.forgetRaw p 0x40 0x13F with regs := u.regs } ∧ ∀ a, ¬ area a → u.reg a = s.reg a) ∧
      (s.readsDone p = false → Gives (.plotWindowSet q) s fun u => set u ∧
        u = { s.forgetRaw p 0x40 0x13F with regs := u.regs, jobs := u.jobs } ∧
        u.jobs = [⟨q, s.mgen q, 0x0202, p, 0, 0, []⟩] ∧ ∀ a, ¬ area a → u.reg a = s.reg a))) ∧
  (∀ (q : Req) (s : State) (c : Cmd) (p m f : Nat), s.localPlot q (c.u16 8) = .ok p → s.plotState p ∉ [0, 3] →
    s.fnOfPlot p = some (m, f) → s.jobs = [] → p < 512 →
    (s.holds q 0x0204 c → Gives (.plotReset q) s fun t => ∃ u, PlotCleared s u p m f ∧
      Ends q St.DONE (leBytes 2 (u.plotGen p % 2 ^ 16)) u t ∧ u.fns = s.fns ∧ u.reg (B.PLOT p) = s.reg (B.PLOT p)) ∧
    (s.holds q 0x0205 c → f = 0 → Gives (.plotRemove q) s (Ends q St.BAD_ARGUMENT [] s)) ∧
    (s.holds q 0x0205 c → f ≠ 0 → s.tableHeld = true → exec (.plotRemove q) s = .next s) ∧
    (s.holds q 0x0205 c → f ≠ 0 → s.tableHeld = false →
      let key := steerKey (s.plotMac p) (s.plotVlan p)
      let gone := fun (u : State) => u.plotState p = 0 ∧ u.plotGen p = nextXgen (s.plotGen p) ∧
        (∀ j, j < 64 → u.qp (qpKey p j) = Qp.init) ∧ u.plot p = PlotSt.init ∧ u.flag (B.PLOT p) R.PLOT_LOG_CTRL_LOGGING = false ∧
        (u.fn m f).tableSize = 0 ∧ Seed.valid (u.masterAt key) = false ∧
        ∀ i, Sa.valid (s.espSa i) = true → Sa.plot (s.espSa i) = p → Sa.valid (u.espSa i) = false ∧ u.espKey i = []
      (Seed.valid (s.masterAt key) = false ∨ s.pipesOn = [] → Gives (.plotRemove q) s fun t => ∃ u, Ends q St.DONE [] u t ∧ gone u) ∧
      (Seed.valid (s.masterAt key) = true → s.pipesOn ≠ [] → Gives (.plotRemove q) s fun u => gone u ∧ u.tags = s.tags ∧
        u.jobs = [⟨q, s.mgen q, 0x0205, barrierObj, 0, 0, []⟩])))

/-- R308 to R310, R315 to R320, R322, Tables 13.7 and 13.8: messages, status, the dirty-page log, pause and migration. -/
def Obligations.PlotMessagesAndMigration : Prop :=
  (∀ (p : PlotIx) (v : Word) (s : State) (m f : Nat), s.fnOfPlot p = some (m, f) → s.linkUp m = true →
    let b := B.VF p
    let n := v.toNat % 256
    (f = 0 ∨ s.answers m f = false → s.mild (272 + 4 * m + 1) → ∀ c ∈ [Instr.plotMbxSend p v, .plotMbxAck p], Gives c s fun u =>
      u.reply = .ur ∧ u.plots = s.plots ∧ u.reg (b + R.PLOT_MBX_STATUS_RX_FULL.off) = s.reg (b + R.PLOT_MBX_STATUS_RX_FULL.off)) ∧
    (f ≠ 0 → s.answers m f = true → s.waitingOf (.host (Fin.ofNat 16 m) f) = [] →
      let s' := { s with reply := .ok }
      let st := b + R.PLOT_MBX_STATUS_TX_BUSY.off
      (232 < n → exec (.plotMbxSend p v) s = .next s') ∧
      (n ≤ 232 → s.flag b R.PLOT_MBX_STATUS_TX_BUSY = true → Gives (.plotMbxSend p v) s fun u => Wrote s' u [st] ∧
        u.flag b R.PLOT_MBX_STATUS_TX_IGNORED = true ∧ u.flag b R.PLOT_MBX_STATUS_TX_BUSY = true) ∧
      (n ≤ 232 → s.flag b R.PLOT_MBX_STATUS_TX_BUSY = false → Gives (.plotMbxSend p v) s fun u =>
        let seq := ((s.plot p).txSeq + 1) % 2 ^ 16
        let l := 128 * (m % 2) + f
        let a := B.MGR m + R.PLOT_MGR_MSGPEND_PEND.off + 4 * (l / 32)
        u.reply = .ok ∧ u.plot p = { s.plot p with txSeq := seq, txMsg := some (seq, s.plotGen p % 2 ^ 16, bytesAt s.mem (b + 0x2100) n) } ∧
        u.flag b R.PLOT_MBX_STATUS_TX_BUSY = true ∧ (s.mode = .trickle → u.reg a = s.reg a ∧ u.out = s.out) ∧
        (s.mode ≠ .trickle → bitOf (u.reg a).toNat (l % 32) = true ∧ ∀ i, i < 32 → i ≠ l % 32 → bitOf (u.reg a).toNat i = bitOf (s.reg a).toNat i)) ∧
      (Gives (.plotMbxAck p) s fun u => Wrote s' u [st] ∧ u.flag b R.PLOT_MBX_STATUS_RX_FULL = false ∧
        u.flag b R.PLOT_MBX_STATUS_TX_BUSY = s.flag b R.PLOT_MBX_STATUS_TX_BUSY))) ∧
  (∀ (q : Req) (s : State) (c : Cmd) (p m f : Nat), s.serves q c p → s.fnOfPlot p = some (m, f) →
    let b := B.VF p
    let gen := s.plotGen p % 2 ^ 16
    (s.holds q 0x0206 c →
      (f = 0 ∨ 232 < c.u8 10 → Gives (.plotMsgSend q) s (Ends q St.BAD_ARGUMENT [] s)) ∧
      (f ≠ 0 → c.u8 10 ≤ 232 → s.flag b R.PLOT_MBX_STATUS_RX_FULL = true → Gives (.plotMsgSend q) s fun t =>
        (t.tag q).cur = none ∧ s.resultOnly t q ∧ (t.tag q).fin.map (fun f => (f.status, f.retry)) = some (St.BUSY_RETRY, 1000)) ∧
      (f ≠ 0 → c.u8 10 ≤ 232 → s.flag b R.PLOT_MBX_STATUS_RX_FULL = false →
        (c.u16 12 ≠ 0 → c.u16 12 ≠ gen → Gives (.plotMsgSend q) s (Ends q St.ABORTED_RESET [] s)) ∧
        (c.u16 12 = 0 ∨ c.u16 12 = gen → Gives (.plotMsgSend q) s fun t => ∃ u, Ends q St.DONE [] u t ∧
          u.flag b R.PLOT_MBX_STATUS_RX_FULL = true ∧ (u.plot p).rxSeq = ((s.plot p).rxSeq + 1) % 2 ^ 16 ∧
          bytesAt u.mem (b + 0x2200) 240 = msgImage (((s.plot p).rxSeq + 1) % 2 ^ 16) gen (c.bytes 16 (c.u8 10)) ∧
          (s.flag b R.PLOT_MBX_CTRL_IRQ_EN = true → s.linkUp m = true → (s.fn m f).bme = true → (s.fn m f).flrAt = none →
            s.vecOpen m f (s.rd b R.PLOT_MBX_CTRL_VEC) = true → u.out = s.out ++ [.msix m f (s.rd b R.PLOT_MBX_CTRL_VEC)]) ∧
          (s.flag b R.PLOT_MBX_CTRL_IRQ_EN = false → u.out = s.out)))) ∧
    (s.holds q 0x0207 c →
      (f = 0 → Gives (.plotMsgRecv q) s (Ends q St.BAD_ARGUMENT [] s)) ∧
      (f ≠ 0 → (s.plot p).txMsg = none → Gives (.plotMsgRecv q) s (Ends q St.DONE (fit 240 []) s)) ∧
      (f ≠ 0 → ∀ seq g l, (s.plot p).txMsg = some (seq, g, l) → Gives (.plotMsgRecv q) s fun t => ∃ u, Ends q St.DONE (msgImage seq g l) u t ∧
        u.plot p = { s.plot p with txMsg := none } ∧ u.flag b R.PLOT_MBX_STATUS_TX_BUSY = false ∧
        let n := 128 * (m % 2) + f
        let a := B.MGR m + R.PLOT_MGR_MSGPEND_PEND.off + 4 * (n / 32)
        bitOf (u.reg a).toNat (n % 32) = false ∧ u = { s with regs := u.regs, plots := u.plots } ∧
        ∀ x, x ≠ a → x ≠ b + R.PLOT_MBX_STATUS_TX_BUSY.off → u.reg x = s.reg x)) ∧
    (s.holds q 0x0209 c →
      let ok := c.u64 16 % 4096 = 0 ∧ 10 ≤ c.u8 24 ∧ c.u8 24 ≤ 20 ∧ s.windowOk (s.plotBase m) (c.u64 16) (8 * 2 ^ c.u8 24) true = true
      (¬ ok → Gives (.plotLogStart q) s (Ends q St.BAD_ARGUMENT [] s)) ∧
      (ok → Gives (.plotLogStart q) s fun t => ∃ u, Ends q St.DONE [] u t ∧ u = { s with regs := u.regs, plots := u.plots } ∧
        u.flag (B.PLOT p) R.PLOT_LOG_CTRL_LOGGING = true ∧ u.flag (B.PLOT p) R.PLOT_LOG_CTRL_LOG_OVF = false ∧
        u.rd (B.PLOT p) R.PLOT_LOG_CTRL_LOG_SIZE = c.u8 24 ∧ u.rd (B.PLOT p) R.PLOT_LOG_PROD_PROD = 0 ∧
        u.rd (B.PLOT p) R.PLOT_LOG_LO_BASE * 4096 + u.rd (B.PLOT p) R.PLOT_LOG_HI_BASE * 2 ^ 32 = c.u64 16 ∧
        u.plot p = { s.plot p with logCons := 0, filter := [] })) ∧
    (s.holds q 0x020A c →
      let a := B.PLOT p
      let prod := s.rd a R.PLOT_LOG_PROD_PROD
      let left := (prod + 2 ^ 32 - c.u32 12) % 2 ^ 32
      let size := 2 ^ s.rd a R.PLOT_LOG_CTRL_LOG_SIZE
      (size < left → Gives (.plotLogSync q) s (Ends q St.BAD_ARGUMENT [] s)) ∧
      (left ≤ size → Gives (.plotLogSync q) s fun t => ∃ u,
        Ends q St.DONE (leBytes 4 prod ++ leBytes 1 (s.rd a R.PLOT_LOG_CTRL_LOG_OVF)) u t ∧
        u = { s with regs := u.regs, plots := u.plots } ∧ u.plot p = { s.plot p with logCons := c.u32 12, filter := [] } ∧
        (∀ x, x ≠ a + R.PLOT_LOG_CTRL_LOG_OVF.off → u.reg x = s.reg x) ∧
        u.flag a R.PLOT_LOG_CTRL_LOG_OVF = (s.flag a R.PLOT_LOG_CTRL_LOG_OVF && decide (left = size)))) ∧
    (s.holds q 0x020B c → Gives (.plotLogStop q) s fun t => ∃ u,
      Ends q St.DONE (leBytes 4 (s.rd (B.PLOT p) R.PLOT_LOG_PROD_PROD)) u t ∧ Wrote s u [B.PLOT p + R.PLOT_LOG_CTRL_LOGGING.off] ∧
      u.flag (B.PLOT p) R.PLOT_LOG_CTRL_LOGGING = false) ∧
    (s.holds q 0x020C c → s.jobs = [] → s.mgen q = c.mgen →
      (s.plotQuiet p = true → Gives (.plotPause q) s fun t => ∃ u, Ends q St.DONE [] u t ∧ u.rd b R.PLOT_STATE_STATE = 2 ∧
        u = { s with regs := u.regs, egr := u.egr }) ∧
      (s.plotQuiet p = false → Gives (.plotPause q) s fun u => u.rd b R.PLOT_STATE_STATE = 2 ∧ u.plotHeld p = true ∧
        u.jobs = [⟨q, s.mgen q, 0x020C, p, 0, 0, []⟩] ∧ u.qps = s.qps)) ∧
    (s.holds q 0x020D c → Gives (.plotResume q) s fun t => (t.tag q).cur = none ∧ t.rd b R.PLOT_STATE_STATE = 1 ∧
      (t.tag q).fin.map (fun f => (f.status, f.data)) = some (St.DONE, []) ∧ (t.plotHeld p = false → ∀ j, j < 64 →
        (s.qp (qpKey p j)).live = true → (t.qp (qpKey p j)).heldDb = [])) ∧
    (s.holds q 0x020E c →
      let l := s.savedPlot p
      let ok := s.plotState p = 2 ∧ l.length ≤ c.u32 24 ∧ s.windowOk (s.plotBase m) (c.u64 16) l.length true = true
      l.length = 576 + 64 * (s.liveList p).length ∧
      (¬ ok → Gives (.plotSave q) s (Ends q St.BAD_ARGUMENT [] s)) ∧
      (ok → Gives (.plotSave q) s (fun t => ∃ u, Ends q St.DONE (leBytes 4 l.length) u t ∧ u = s.postWrite m 0 (c.u64 16) l))) ∧
    (s.holds q 0x020F c → ∀ buf : Fetch, (s.bufWaits q → exec (.plotRestore q buf) s = .next s) ∧
      (∀ v, s.bufFails q (c.u64 16) (c.u32 24) buf v → Gives (.plotRestore q buf) s (Ends q St.BAD_ARGUMENT [] v)) ∧
      ∀ (l : List Byte) (v : State) (h : List Nat), s.bufGives q (c.u64 16) (c.u32 24) buf l v → Config.savedFacts l = h →
        let n := h.getD 3 0
        let rs := chunksOf qpFactCount n (h.drop headFactCount)
        let ok := 576 + 64 * n ≤ c.u32 24 ∧ n ≤ 64 ∧ h.getD 0 0 = 1 ∧ (h.getD 1 0 = 1 ↔ s.isStorage p = true) ∧
          n ≤ s.rd (B.PLOT p) R.PLOT_CFG_QP_MAX ∧ s.savedRingsOk p rs = true ∧ s.liveQps p = 0 ∧ s.ctlOn p = false ∧
          h.getD 2 0 % 2 ^ 16 ≠ 0 ∧ (∀ r ∈ rs, r.getD 0 0 < 64) ∧ s.allQps + n ≤ 8192
        (¬ ok → Gives (.plotRestore q buf) s (Ends q St.BAD_ARGUMENT [] v)) ∧
        (ok → Gives (.plotRestore q buf) s fun t => ∃ u,
          Ends q St.DONE (leBytes 2 (h.getD 2 0 % 2 ^ 16)) u t ∧ u.plotGen p = genWithLow (s.plotGen p) (h.getD 2 0 % 2 ^ 16) ∧
          u.rd b R.PLOT_STATE_STATE = 2 ∧ (u.plot p).txSeq = h.getD 6 0 ∧ (u.plot p).rxSeq = h.getD 7 0 ∧
          u.flag b R.PLOT_MBX_STATUS_RX_FULL = decide (h.getD 5 0 = 1) ∧
          ((rs.map fun r => r.getD 0 0).Nodup → ∀ r ∈ rs, let x := u.qp (qpKey p (r.getD 0 0))
            x.live = true ∧ x.txBase = r.getD 4 0 ∧ x.rxBase = r.getD 6 0 ∧ x.txCons = r.getD 8 0 ∧ x.rxCons = r.getD 9 0 ∧
            x.txProd = r.getD 15 0 ∧ x.rxProd = r.getD 16 0)))) ∧
  (∀ (q : Req) (s : State) (c : Cmd) (p : Nat), s.holds q 0x0208 c → s.localPlot q (c.u16 8) = .ok p → s.plotState p ≠ 3 →
    Gives (.plotStatus q) s (Ends q St.DONE (leBytes 1 (s.plotState p) ++ leBytes 1 (s.liveQps p) ++ leBytes 2 (s.plotGen p % 2 ^ 16)
      ++ leBytes 1 (bit (s.flag (B.PLOT p) R.PLOT_LOG_CTRL_LOGGING) + 2 * bit (s.flag (B.PLOT p) R.PLOT_LOG_CTRL_LOG_OVF)) ++ leBytes 3 0
      ++ leBytes 8 (s.cnt (B.PLOT p + C.PLOT_NOQ_DROP))) s))


/-! ### The time service (chapter 14) -/

/-- R324, R327, R333 to R336, R348, Tables 14.4 and 14.5: sources, states, correction, calibration and leap seconds. -/
def Obligations.TimeSources : Prop :=
  (∀ (k : TimeSrc) (d : Int) (s : State),
    let codes := (srcPhase k).toList ++ (srcFreq k).toList
    let steps := fun (u : State) (first : Bool) =>
      if 0 ≤ d ∧ (first = true ∨ (s.rd B.TIME R.TIME_LOOP_STEP_TH : Int) < d) then
        u.timeOff = s.timeOff + d ∧ u.tim.slew = 0 ∧ u.tim.lastStep = u.timeWord ∧
          u.cnt (B.TIME + C.TIME_STEPS) = (s.cnt (B.TIME + C.TIME_STEPS) + 1) % 2 ^ 64
      else u.timeOff = s.timeOff ∧ u.tim.slew = d ∧ u.cnt (B.TIME + C.TIME_STEPS) = s.cnt (B.TIME + C.TIME_STEPS)
    let selects := fun (u : State) (c : Nat) => u.rd B.TIME R.TIME_STATE_PHASE_SRC = c ∧ u.timeState = 1 ∧
      u.rd B.TIME R.TIME_STATE_CLASS = 248 ∧ u.rd B.TIME R.TIME_BOUND_SRC_BOUND = 0xFFFF ∧ u.tim.hold = none ∧ steps u (!s.tim.first)
    let keeps := fun (u : State) => u.rd B.TIME R.TIME_STATE_PHASE_SRC = s.rd B.TIME R.TIME_STATE_PHASE_SRC ∧ u.timeState = s.timeState ∧
      u.timeOff = s.timeOff
    (s.mayQualify k = false → exec (.sourceQualified k d) s = .next s) ∧
    (s.mayQualify k = true → s.flag B.PMC R.PMC_CTRL_FREEZE = false → s.mild 16 →
      (s.phaseSel.isSome = true ∨ srcPhase k = none → Gives (.sourceQualified k d) s fun u => keeps u ∧
        (∀ j ∈ codes, u.qualAt j = some ((s.qualAt j).getD s.now)) ∧ ∀ j, j ∉ codes → u.qualAt j = s.qualAt j) ∧
      (∀ c, srcPhase k = some c → s.phaseSel = none → s.srcPri c ≠ 0 → (∀ j ∈ phaseSrcs, j ≠ c → s.qualAt j = none) →
        (-1000000000 ≤ d → Gives (.sourceQualified k d) s fun u => selects u c ∧ u.qualAt c = some ((s.qualAt c).getD s.now)) ∧
        (d < -1000000000 → Gives (.sourceQualified k d) s fun u => u.timeOff = s.timeOff ∧ u.flag B.TIME R.TIME_EVENTS_BEHIND = true ∧
          u.sticky 16 = true ∧ u.qualAt c = none ∧ u.rd B.TIME R.TIME_STATE_PHASE_SRC = 0)) ∧
      (∀ c, srcFreq k = some c → s.freqSel = none → s.srcPri c ≠ 0 → (∀ j ∈ freqSrcs, j ≠ c → s.qualAt j = none) →
        Gives (.sourceQualified k d) s fun u => u.rd B.TIME R.TIME_STATE_FREQ_SRC = c - 16) ∧
      (s.freqSel.isSome = true → Gives (.sourceQualified k d) s fun u => u.freqSel = s.freqSel)) ∧
    ((∀ j ∈ codes, s.qualAt j = none) → exec (.sourceLost k d) s = .next s) ∧
    (s.mayLose k = false → exec (.sourceLost k d) s = .next s) ∧
    ((∃ j ∈ codes, s.qualAt j ≠ none) → s.mayLose k = true → s.flag B.PMC R.PMC_CTRL_FREEZE = false → s.mild 15 → s.mild 16 →
      let lost := fun (u : State) => bitOf (u.reg (B.TIME + R.TIME_EVENTS_PTP_LOST.off)).toNat (srcEvent k) = true ∧ u.sticky 15 = true ∧
        ∀ j ∈ codes, u.qualAt j = none
      (srcPhase k = none ∨ s.phaseSel ≠ srcPhase k → Gives (.sourceLost k d) s fun u => lost u ∧ keeps u) ∧
      (∀ c, srcPhase k = some c → s.phaseSel = some c →
        ((∀ j ∈ phaseSrcs, j ≠ c → s.qualAt j = none ∨ s.srcPri j = 0) → Gives (.sourceLost k d) s fun u => lost u ∧
          u.rd B.TIME R.TIME_STATE_PHASE_SRC = 0 ∧ u.timeOff = s.timeOff ∧ u.tim.slew = 0 ∧
          (s.timeState = 2 → u.timeState = 3 ∧ u.tim.hold = some (s.now, s.rd B.TIME R.TIME_BOUND_SRC_BOUND) ∧
            u.rd B.TIME R.TIME_STATE_CLASS = if s.tim.viaPtp then 135 else 7) ∧
          (s.timeState = 1 → u.timeState = 0 ∧ u.rd B.TIME R.TIME_STATE_CLASS = 248 ∧ u.srcBound = if s.tim.hold = none then 0xFFFF else u.srcBound)) ∧
        (∀ j ∈ phaseSrcs, j ≠ c → s.qualAt j ≠ none → s.srcPri j ≠ 0 → -1000000000 ≤ d →
          (∀ i ∈ phaseSrcs, i ≠ c → i ≠ j → s.qualAt i = none) → Gives (.sourceLost k d) s fun u => lost u ∧ selects u j)) ∧
      (∀ c, srcFreq k = some c → s.freqSel = some c → (∀ j ∈ freqSrcs, j ≠ c → s.qualAt j = none) →
        Gives (.sourceLost k d) s fun u => lost u ∧ u.freqSel = none)) ∧
    (s.flag B.TIME R.TIME_SRC_CFG_REVERT = false ∨ (s.revertTo phaseSrcs s.phaseSel = none ∧ s.revertTo freqSrcs s.freqSel = none) →
      exec (.sourceRevert d) s = .next s) ∧
    (s.flag B.TIME R.TIME_SRC_CFG_REVERT = true → s.flag B.PMC R.PMC_CTRL_FREEZE = false →
      (∀ c, s.revertTo phaseSrcs s.phaseSel = some c → -1000000000 ≤ d → Gives (.sourceRevert d) s fun u => selects u c) ∧
      (∀ c, s.revertTo freqSrcs s.freqSel = some c → s.revertTo phaseSrcs s.phaseSel = none → Gives (.sourceRevert d) s fun u => keeps u ∧
        u.rd B.TIME R.TIME_STATE_FREQ_SRC = c - 16))) ∧
  (∀ s : State,
    let ready := ∃ t, s.tim.within = some t ∧ s.timeState = 1 ∧ s.phaseSel ≠ none ∧ t + ms 60000 ≤ s.now
    (¬ ready → exec .timeLocked s = .next s) ∧
    (ready → Gives .timeLocked s fun u => u.timeState = 2 ∧ u.rd B.TIME R.TIME_STATE_CLASS = (if s.tim.viaPtp then s.tim.up.1 % 256 else 6) ∧
      u = { s with regs := u.regs, tim := u.tim, freeCtr := u.freeCtr })) ∧
  (∀ s : State,
    let out := s.timeState = 3 ∧ s.rd B.TIME R.TIME_HOLD_LIM_HOLD_LIMIT < s.srcBound
    (¬ out → exec .holdoverOut s = .next s) ∧
    (out → s.mild 16 → Gives .holdoverOut s fun u => u.timeState = 4 ∧ u.sticky 16 = true ∧
      u.rd B.TIME R.TIME_STATE_CLASS = if s.tim.viaPtp then 165 else 140) ∧
    ∀ t0 e0, s.tim.hold = some (t0, e0) → t0 ≤ s.now → s.srcBound < 0xFFFF →
      let t := s.now - t0
      let exact := s.rd B.TIME R.TIME_HOLD_CFG_HOLD_FERR * t * (172800 * 10 ^ 9) + s.rd B.TIME R.TIME_HOLD_CFG_HOLD_AGE * t * t
      exact ≤ (s.srcBound - e0) * (172800 * 10 ^ 21) ∧ (s.srcBound - e0) * (172800 * 10 ^ 21) < exact + 172800 * 10 ^ 21) ∧
  (∀ (i : Fin 32) (s : State),
    let d := if i.val < 24 then domLG i else 53 + (i.val - 24)
    (s.domOn d = false → exec (.timestampCalibration i) s = .next s) ∧
    (s.domOn d = true → Gives (.timestampCalibration i) s fun u => (u.calOf i).1 = s.now ∧ (∀ j, j ≠ i.val → u.calOf j = s.calOf j) ∧
      u.timeOff = s.timeOff ∧ u.timeState = s.timeState)) ∧
  (∀ s : State,
    let a := R.TIME_UTC_OFFSET
    (s.flag B.TIME R.TIME_UTC_LEAP61 = false → s.flag B.TIME R.TIME_UTC_LEAP59 = false → exec .leapSecond s = .next s) ∧
    (s.flag B.TIME R.TIME_UTC_LEAP61 = true → Gives .leapSecond s fun u => u.rd B.TIME a = (s.rd B.TIME a + 1) % 2 ^ 16 ∧
      u.flag B.TIME R.TIME_UTC_LEAP61 = false ∧ u.timeOff = s.timeOff ∧ u = { s with regs := u.regs, tim := u.tim } ∧
      ∀ x, x ≠ B.TIME + a.off → u.reg x = s.reg x) ∧
    (s.flag B.TIME R.TIME_UTC_LEAP61 = false → s.flag B.TIME R.TIME_UTC_LEAP59 = true → Gives .leapSecond s fun u =>
      u.rd B.TIME a = (s.rd B.TIME a + 0xFFFF) % 2 ^ 16 ∧ u.flag B.TIME R.TIME_UTC_LEAP59 = false ∧ u.timeOff = s.timeOff))

/-- R329, R330, R337 to R343, R345, R346, Tables 14.6 and 14.7: PTP, PPS and ToD, cable feeds, PTM and time pages. -/
def Obligations.TimeTraffic : Prop :=
  (∀ (p : Port) (x : PtpMsg) (s : State), (s.ptpRuns p = false → exec (.ptpMessageRx p x) s = .next s) ∧
    (s.ptpRuns p = true → s.flag B.PMC R.PMC_CTRL_FREEZE = false →
      let rx := fun (u : State) (c : Nat) => u.cnt (B.TIME + c) = (s.cnt (B.TIME + c) + 1) % 2 ^ 64
      (Gives (.ptpMessageRx p .bad) s fun u => rx u C.TIME_PTP_RX_BAD ∧ u.tim = s.tim ∧ u.regs = s.regs) ∧
      (∀ sl cls steps gm utc, sl = true → (s.ptpPort p).masterOnly = false → Gives (.ptpMessageRx p (.announce sl cls steps gm utc)) s fun u =>
        rx u C.TIME_PTP_RX ∧ u.tim.slave = some p.val ∧ u.tim.up = (cls % 256, steps % 2 ^ 16, gm % 2 ^ 64) ∧
        (u.reg (B.TIME + R.TIME_UTC_OFFSET.off)).toNat = utc % 2 ^ 19) ∧
      (∀ sl cls steps gm utc, sl = false ∨ (s.ptpPort p).masterOnly = true → Gives (.ptpMessageRx p (.announce sl cls steps gm utc)) s fun u =>
        rx u C.TIME_PTP_RX ∧ u.tim.up = s.tim.up ∧ u.regs = s.regs ∧
        (sl = false → s.tim.slave = some p.val → u.tim.slave = none)) ∧
      (∀ d, s.tim.slave = some p.val → s.phaseSel ≠ some 1 → Gives (.ptpMessageRx p (.pair d)) s fun u =>
        u.tim = { s.tim with pairs := s.tim.pairs + 1, pairAt := s.now } ∧ u.timeOff = s.timeOff) ∧
      (∀ d, s.tim.slave = some p.val → s.phaseSel = some 1 → -1000000000 ≤ d → Gives (.ptpMessageRx p (.pair d)) s fun u =>
        if (s.rd B.TIME R.TIME_LOOP_STEP_TH : Int) < d then u.timeOff = s.timeOff + d ∧ u.tim.slew = 0 else u.timeOff = s.timeOff ∧ u.tim.slew = d) ∧
      (∀ d, s.tim.slave ≠ some p.val → Gives (.ptpMessageRx p (.pair d)) s fun u => u.tim = s.tim ∧ rx u C.TIME_PTP_RX) ∧
      (s.tim.slave ≠ some p.val → Gives (.ptpMessageRx p .delayReq) s fun u => rx u C.TIME_PTP_RX ∧ rx u C.TIME_PTP_TX ∧
        u.out = s.out ++ [.ptp p "DELAY_RESP" (s.stampAt p true 0).1]) ∧
      (s.tim.slave = some p.val → Gives (.ptpMessageRx p .delayReq) s fun u => u.out = s.out))) ∧
  (∀ (p : Port) (k : PtpTx) (s : State),
    let slave := s.tim.slave = some p.val
    let master := ¬ slave ∧ s.tim.clock.getD 5 0 = 0
    let t := (s.stampAt p true 0).1
    let sent := fun (l : List String) (u : State) => u.out = s.out ++ l.map (fun w => .ptp p w t) ∧
      u.cnt (B.TIME + C.TIME_PTP_TX) = (s.cnt (B.TIME + C.TIME_PTP_TX) + l.length) % 2 ^ 64
    (s.ptpRuns p = false → exec (.ptpMessageTx p k) s = .next s) ∧
    (¬ master → exec (.ptpMessageTx p .sync) s = .next s ∧ exec (.ptpMessageTx p .announce) s = .next s) ∧
    (¬ slave → exec (.ptpMessageTx p .delayReq) s = .next s) ∧
    (s.ptpRuns p = true → s.flag B.PMC R.PMC_CTRL_FREEZE = false →
      (master → s.oneStep p = true → Gives (.ptpMessageTx p .sync) s (sent ["SYNC_ONE_STEP"])) ∧
      (master → s.oneStep p = false → Gives (.ptpMessageTx p .sync) s (sent ["SYNC", "FOLLOW_UP"])) ∧
      (master → Gives (.ptpMessageTx p .announce) s (sent ["ANNOUNCE"])) ∧
      (slave → Gives (.ptpMessageTx p .delayReq) s (sent ["DELAY_REQ"])))) ∧
  (∀ (n : Fin 20) (s : State) (sec : Nat),
    let b := outReg n
    let ofs := s.srd b R.TIME_OUT_OFS_OFFSET / 16
    let at_ : Int := (sec : Int) * 1000000000 + ofs
    let near := at_ - 2 ≤ s.timeWord ∧ (s.timeWord : Int) ≤ at_ + 2
    let free := ∀ v l, (s.ppsOut n).last = some (v, l) → l + ms 500 ≤ s.now
    (s.flag b R.TIME_OUT_CFG_EN = false ∨ ¬ free → exec (.ppsOutputEdge n) s = .next s) ∧
    ((∀ k : Nat, ¬ ((k : Int) * 1000000000 + ofs - 2 ≤ s.timeWord ∧ (s.timeWord : Int) ≤ (k : Int) * 1000000000 + ofs + 2)) →
      exec (.ppsOutputEdge n) s = .next s) ∧
    (s.flag b R.TIME_OUT_CFG_EN = true → free → near →
      (s.squelched n = true → Gives (.ppsOutputEdge n) s fun u => u.out = s.out ∧ u.flag b R.TIME_OUT_STAT_ACTIVE = false ∧
        Wrote s u [b + R.TIME_OUT_STAT_ACTIVE.off]) ∧
      (s.squelched n = false → Gives (.ppsOutputEdge n) s fun u => u.out = s.out ++ [.pps n (toSigned 64 at_)] ∧
        u.flag b R.TIME_OUT_STAT_ACTIVE = true ∧ u.ppsOut n = { s.ppsOut n with last := some (sec, s.now), due := some (sec, s.now) } ∧
        (∀ j, j ≠ n.val → u.ppsOut j = s.ppsOut j) ∧ u = { s with regs := u.regs, out := u.out, tim := u.tim })) ∧
    ((s.ppsOut n).due = none → exec (.todOutputMessage n) s = .next s) ∧
    (∀ v t, (s.ppsOut n).due = some (v, t) → (s.now < t + ms 10 ∨ t + ms 20 < s.now → exec (.todOutputMessage n) s = .next s) ∧
      (t + ms 10 ≤ s.now → s.now ≤ t + ms 20 → Gives (.todOutputMessage n) s fun u =>
        let said := s.flag b R.TIME_OUT_CFG_TOD_EN = true ∧ s.squelched n = false
        (u.ppsOut n).due = none ∧ (said → u.out = s.out ++ [.tod n (s.todMessage v (s.ppsOut n).seq)] ∧
          (u.ppsOut n).seq = ((s.ppsOut n).seq + 1) % 2 ^ 16) ∧ (¬ said → u.out = s.out ∧ (u.ppsOut n).seq = (s.ppsOut n).seq)))) ∧
  (∀ (s : State) (sec seq : Nat), let l := s.todMessage sec seq
    l.length = 24 ∧ l.take 4 = [0xA5, 0x5A, 1, 24] ∧ leNat ((l.drop 4).take 8) = sec % 2 ^ 64 ∧ leNat (l.drop 22) = crc16 (l.take 22)) ∧
  (∀ (i : Fin 2) (s : State),
    let b := B.TIME + 8 * i
    let x := s.ppsIn i
    let gap := fun g => ∃ t, x.last = some t ∧ s.now - t = g
    let good := ∃ g, gap g ∧ ms 1000 ≤ g + 1000 ∧ g ≤ ms 1000 + 1000
    (s.flag b R.TIME_PPS_IN_CFG_EN = false → exec (.ppsInputEdge i) s = .next s ∧ ∀ l, exec (.todInputMessage i l) s = .next s) ∧
    (s.flag b R.TIME_PPS_IN_CFG_EN = true →
      (x.next = none → x.last = none → Gives (.ppsInputEdge i) s fun u => u.ppsIn i = { PpsIn.init with last := some s.now } ∧
        u.timeOff = s.timeOff ∧ u.flag b R.TIME_PPS_IN_STAT_TOD_OK = false) ∧
      (x.last ≠ none → ¬ good → Gives (.ppsInputEdge i) s fun u => (u.ppsIn i).good = 0 ∧ (u.ppsIn i).bad = x.bad + 1 ∧ u.timeOff = s.timeOff ∧
        (u.ppsIn i).last = some s.now ∧ u.rd b R.TIME_PPS_IN_STAT_REJECTS = min 0xFFFF (s.rd b R.TIME_PPS_IN_STAT_REJECTS + 1)) ∧
      (good → x.next = none → ∀ v, x.sec = some v → s.phaseSel ≠ some (2 + i.val) → Gives (.ppsInputEdge i) s fun u =>
        (u.ppsIn i).good = x.good + 1 ∧ (u.ppsIn i).sec = some (v + 1) ∧ u.timeOff = s.timeOff) ∧
      (good → ∀ v, x.next = some v → s.phaseSel = some (2 + i.val) →
        let d : Int := (v : Int) * 1000000000 - (s.timeWord + s.srd b R.TIME_PPS_IN_CFG_OFFSET / 16)
        (-1000000000 ≤ d → Gives (.ppsInputEdge i) s fun u => (u.ppsIn i).sec = some v ∧ (u.ppsIn i).next = none ∧ (u.ppsIn i).named = x.named + 1 ∧
          if (s.rd B.TIME R.TIME_LOOP_STEP_TH : Int) < d then u.timeOff = s.timeOff + d else u.timeOff = s.timeOff ∧ u.tim.slew = d) ∧
        (d < -1000000000 → s.mild 16 → Gives (.ppsInputEdge i) s fun u => u.timeOff = s.timeOff ∧ u.flag B.TIME R.TIME_EVENTS_BEHIND = true))) ∧
    (s.flag b R.TIME_PPS_IN_CFG_EN = true → s.flag b R.TIME_PPS_IN_CFG_TOD_EN = false → ∀ l, exec (.todInputMessage i l) s = .next s) ∧
    (s.flag b R.TIME_PPS_IN_CFG_EN = true → s.flag b R.TIME_PPS_IN_CFG_TOD_EN = true → s.flag B.PMC R.PMC_CTRL_FREEZE = false → ∀ l,
      let ok := l.length = 24 ∧ l.take 4 = [0xA5, 0x5A, 1, 24] ∧ crc16 (l.take 22) = leNat (l.drop 22) ∧ ∃ t, x.last = some t ∧ s.now ≤ t + ms 900
      (ok → Gives (.todInputMessage i l) s fun u => u.ppsIn i = { x with sec := some (leNat ((l.drop 4).take 8)), named := x.named + 1 } ∧
        u.flag b R.TIME_PPS_IN_STAT_TOD_OK = true ∧ u = { s with regs := u.regs, tim := u.tim }) ∧
      (¬ ok → Gives (.todInputMessage i l) s fun u => u.tim = s.tim ∧ u.rd b R.TIME_PPS_IN_STAT_REJECTS = min 0xFFFF (s.rd b R.TIME_PPS_IN_STAT_REJECTS + 1) ∧
        u.cnt (B.TIME + C.TIME_TOD_RX_BAD) = (s.cnt (B.TIME + C.TIME_TOD_RX_BAD) + 1) % 2 ^ 64))) ∧
  (∀ (n : Fin 16) (s : State), (s.flag (outReg n) R.TIME_OUT_STAT_FEED_ON = false → exec (.hostFeedTrip n) s = .next s) ∧
    (s.flag (outReg n) R.TIME_OUT_STAT_FEED_ON = true → s.mild 17 → Gives (.hostFeedTrip n) s fun u =>
      u.flag (outReg n) R.TIME_OUT_STAT_FEED_ON = false ∧ u.flag (outReg n) R.TIME_OUT_STAT_TRIP = true ∧ u.sticky 17 = true ∧
      s.out ++ [.pin "HT_FEED_EN" false] <+: u.out)) ∧
  (∀ (m : Link) (s : State),
    let l := s.link m
    let asks := s.linkExists m = true ∧ s.linkUp m = true ∧ l.ptmEn = true ∧ l.ptmAt = none ∧ ∀ t, l.ptmLast = some t → t + us 100 ≤ s.now
    let up := fun (u : State) (c : Nat) => u.cnt (B.TIME + c + 0x10 * m) = (s.cnt (B.TIME + c + 0x10 * m) + 1) % 2 ^ 64
    (¬ asks → exec (.ptmRequest m) s = .next s) ∧
    (asks → Gives (.ptmRequest m) s fun u => u.out = s.out ++ [.ptm m] ∧ (u.link m).ptmAt = some s.now ∧ (u.link m).ptmLast = some s.now ∧
      (u.link m).ptmX = l.ptmX) ∧
    (l.ptmAt = none → exec (.ptmTimeout m) s = .next s ∧ ∀ h, exec (.ptmResponse m h) s = .next s) ∧
    (∀ t h, l.ptmAt = some t → (t + us 10 < s.now ∨ s.linkUp m = false → exec (.ptmResponse m h) s = .next s) ∧
      (s.now < t + us 10 → exec (.ptmTimeout m) s = .next s) ∧
      (s.flag B.PMC R.PMC_CTRL_FREEZE = false →
        (s.now ≤ t + us 10 → s.linkUp m = true → Gives (.ptmResponse m h) s fun u => (u.link m).ptmAt = none ∧ (u.link m).ptmOkAt = some s.now ∧
          (u.link m).ptmX = (l.ptmX ++ [(h, s.timeWord)]).drop (l.ptmX.length + 1 - 16) ∧ up u C.TIME_PTM_EXCH ∧ u.regs = s.regs) ∧
        (t + us 10 ≤ s.now → Gives (.ptmTimeout m) s fun u => u.link m = { l with ptmAt := none } ∧ up u C.TIME_PTM_FAIL ∧ u.regs = s.regs)))) ∧
  (∀ (m : Link) (v : Word) (s : State),
    let b := B.TPG m
    (s.linkUp m = false → exec (.timePageEnable m v) s = .next s) ∧
    (s.linkExists m = true → s.linkUp m = true → s.answers m 0 = false → s.mild (272 + 4 * m + 1) → Gives (.timePageEnable m v) s fun u =>
      u.reply = .ur ∧ u.tim = s.tim) ∧
    (s.answers m 0 = true → s.waitingOf (.host m 0) = [] → s.domOn (domHP m) = true → s.flag b R.TIME_HP_PAGE_LO_EN = false → v.toNat % 2 = 1 → Gives (.timePageEnable m v) s fun u => u.reply = .ok ∧
      u.flag b R.TIME_HP_PAGE_LO_EN = true ∧ u.flag b R.TIME_HP_STATUS_ACTIVE = true ∧
      u.page m = { Page.init with addr := v.toNat / 256 * 256 + 2 ^ 32 * s.rd b R.TIME_HP_PAGE_HI_ADDR, seq := 2,
                                  next := s.now + us 125 * s.rd b R.TIME_HP_CFG_INTERVAL }) ∧
    (s.answers m 0 = true → s.waitingOf (.host m 0) = [] → s.domOn (domHP m) = true → s.flag b R.TIME_HP_PAGE_LO_EN = true → v.toNat % 2 = 0 → Gives (.timePageEnable m v) s fun u => u.reply = .ok ∧
      u.flag b R.TIME_HP_PAGE_LO_EN = false ∧ u.page m = Page.init ∧ u.rd b R.TIME_HP_PAGE_LO_ADDR = s.rd b R.TIME_HP_PAGE_LO_ADDR)) ∧
  (∀ (m : Link) (s : State),
    let b := B.TPG m
    let x := s.page m
    let n := s.rd b R.TIME_HP_CFG_INTERVAL
    let due := x.next ≤ s.now ∨ x.extra ≠ none ∨ x.was ≠ s.ptmOk m
    let writes := s.flag b R.TIME_HP_PAGE_LO_EN = true ∧ due ∧ s.linkUp m = true ∧ (s.fn m 0).ready = true ∧ (s.fn m 0).bme = true
    let inWin := s.windowOk (s.plotBase m) x.addr 256 true = true
    (¬ writes → exec (.timePageWrite m) s = .next s) ∧
    (writes → ¬ inWin → Gives (.timePageWrite m) s fun u => u.flag b R.TIME_HP_STATUS_WIN_ERR = true ∧ u.out = s.out ∧ (u.page m).seq = x.seq) ∧
    (writes → inWin → s.flag B.PMC R.PMC_CTRL_FREEZE = false → (s.fn m 0).flrAt = none → Gives (.timePageWrite m) s fun u => ∃ body,
      u.out = s.out ++ (s.writeOuts m 0 x.addr (leBytes 4 (x.seq + 2 ^ 32 - 1)) ++ s.writeOuts m 0 (x.addr + 4) body ++ s.writeOuts m 0 x.addr (leBytes 4 x.seq)) ∧
      body.length = 252 ∧ leNat (body.take 2) = 1 ∧ leNat ((body.drop 4).take 8) = s.timeWord ∧ leNat ((body.drop 14).take 1) = s.timeState % 256 ∧
      leNat ((body.drop 16).take 4) = 375000 * n % 2 ^ 32 ∧ leNat ((body.drop 36).take 2) = (if s.boundValid m then delivBound n else 0xFFFF) % 2 ^ 16 ∧
      leNat ((body.drop 38).take 2) = s.srcBound % 2 ^ 16 ∧ leNat ((body.drop 42).take 2) = m.val ∧
      leNat ((body.drop 2).take 2) = s.pageFlags (s.ptmOk m) (s.boundValid m) x.step % 2 ^ 16 ∧
      (u.page m).seq = (x.seq + 2) % 2 ^ 32 ∧ (u.page m).step = false ∧ (u.page m).extra = none ∧
      u.cnt (B.TIME + C.TIME_PAGE_WRITES + 8 * m) = (s.cnt (B.TIME + C.TIME_PAGE_WRITES + 8 * m) + 1) % 2 ^ 64)) ∧
  (∀ s : State,
    let x := s.tim.core
    (s.now < x.next → x.extra = none → exec .coreTimePageWrite s = .next s) ∧
    (x.next ≤ s.now ∨ x.extra ≠ none → Gives .coreTimePageWrite s fun u => u = { s with mem := u.mem, tim := u.tim } ∧
      leNat (bytesAt u.mem B.CTP 4) = (x.seq + 2) % 2 ^ 32 ∧ leNat (bytesAt u.mem (B.CTP + 8) 8) = s.timeWord ∧
      leNat (bytesAt u.mem (B.CTP + 24) 8) = s.now % 2 ^ 64 ∧ leNat (bytesAt u.mem (B.CTP + 40) 2) = 2 ∧
      (s.tim.slew = 0 → leNat (bytesAt u.mem (B.CTP + 32) 8) = 0) ∧ u.tim.core.next = s.now + ms 1 ∧
      ∀ a, a < B.CTP ∨ B.CTP + 256 ≤ a → byteAt u.mem a = byteAt s.mem a))

/-- R334, R342, R349, R467, Table 14.12: the time commands. -/
def Obligations.TimeCommands : Prop :=
  (∀ (q : Req) (s : State) (c : Cmd), s.holds q 0x0400 c → Gives (.timeStatus q) s fun t => ∃ l, Ends q St.DONE l s t ∧ l.length = 36 ∧
    leNat (l.take 1) = s.timeState % 256 ∧ leNat ((l.drop 1).take 1) = s.rd B.TIME R.TIME_STATE_CLASS ∧
    leNat ((l.drop 2).take 1) = s.rd B.TIME R.TIME_STATE_PHASE_SRC ∧ leNat ((l.drop 3).take 1) = s.rd B.TIME R.TIME_STATE_FREQ_SRC ∧
    leNat ((l.drop 4).take 4) = s.rd B.TIME R.TIME_OFFSET_OFFSET ∧ leNat ((l.drop 8).take 2) = s.srcBound % 2 ^ 16 ∧
    leNat ((l.drop 20).take 8) = s.timeWord ∧ leNat ((l.drop 28).take 2) = s.rd B.TIME R.TIME_UTC_OFFSET) ∧
  (∀ (q : Req) (s : State) (c : Cmd), s.holds q 0x0401 c →
    let ok := wordTakes (B.TIME + 0x20) (c.u32 8) = true ∧ wordTakes (B.TIME + 0x24) (c.u32 12) = true ∧ wordTakes (B.TIME + 0x28) (c.u16 16) = true
    (¬ ok → Gives (.timeSrcSet q) s (Ends q St.BAD_ARGUMENT [] s)) ∧
    (ok → s.mild 16 → Gives (.timeSrcSet q) s fun t => ∃ u, Ends q St.DONE [] u t ∧
      u.rd B.TIME R.TIME_SRC_CFG_PRI_PTP = c.u32 8 / 2 ^ 10 % 4 ∧
      u.rd B.TIME R.TIME_SRC_CFG_PRI_PPS0 = c.u32 8 / 2 ^ 8 % 4 ∧ u.rd B.TIME R.TIME_SRC_CFG_SYNCE_LANE = c.u32 8 / 2 ^ 17 % 128 ∧
      u.rd B.TIME R.TIME_LOOP_STEP_TH = c.u32 12 % 2 ^ 16 ∧ u.rd B.TIME R.TIME_SLEW_SLEW = c.u16 16 % 1024 ∧
      (s.phaseSel = none → s.freqSel = none → (∀ j ∈ phaseSrcs ++ freqSrcs, s.qualAt j = none) →
        u = { s with regs := u.regs, freeCtr := u.freeCtr } ∧ ∀ a, a ∉ [B.TIME + 0x20, B.TIME + 0x24, B.TIME + 0x28] → u.reg a = s.reg a) ∧
      (∀ k, s.phaseSel = some k → u.srcPri k ≠ 0 → u.phaseSel = some k ∧ u.timeState = s.timeState ∧ u.timeOff = s.timeOff) ∧
      (∀ k, s.phaseSel = some k → (∀ j ∈ phaseSrcs, u.srcPri j = 0) → u.rd B.TIME R.TIME_STATE_PHASE_SRC = 0 ∧ u.timeOff = s.timeOff) ∧
      (∀ k, s.freqSel = some k → u.srcPri k ≠ 0 → u.freqSel = some k) ∧
      ((∀ j ∈ freqSrcs, u.srcPri j = 0) → u.rd B.TIME R.TIME_STATE_FREQ_SRC = 0))) ∧
  (∀ (q : Req) (s : State) (c : Cmd), s.holds q 0x0402 c →
    (2 < c.u8 8 → Gives (.timeClockSet q) s (Ends q St.BAD_ARGUMENT [] s)) ∧
    (c.u8 8 ≤ 2 → Gives (.timeClockSet q) s (Ends q St.DONE [] (s.onTim fun t =>
      { t with clock := [c.u8 8, c.u8 9, c.u8 10, c.u8 11, c.u8 12, c.u8 13 % 2] })))) ∧
  (∀ (q : Req) (s : State) (c : Cmd), s.holds q 0x0403 c →
    let p := c.u8 8
    let ok := p ≤ 95 ∧ s.portWidth p ≠ 0 ∧ c.u8 10 ≤ 2 ∧ c.u8 11 ≤ 1 ∧ logOk (c.u8 13) 7 = true ∧ logOk (c.u8 14) 7 = true ∧ logOk (c.u8 15) 3 = true
    (¬ ok → Gives (.timePortSet q) s (Ends q St.BAD_ARGUMENT [] s)) ∧
    (ok → Gives (.timePortSet q) s fun t => ∃ u, Ends q St.DONE [] u t ∧
      u.ptpPort p = { en := bitOf (c.u8 9) 0, masterOnly := bitOf (c.u8 9) 1, twoStep := bitOf (c.u8 9) 2, transport := c.u8 10,
                      addr := c.u8 11, lp := c.u8 12, logs := [c.u8 13, c.u8 14, c.u8 15] } ∧
      (∀ j, j ≠ p → u.ptpPort j = s.ptpPort j) ∧ (u.reg (B.TIME + 0x404 + 8 * p)).toNat = c.u32 16 ∧
      (u.reg (B.TIME + 0x400 + 8 * p)).toNat = c.u32 20 ∧ u = { s with regs := u.regs, tim := u.tim } ∧
      ∀ a, a ∉ [B.TIME + 0x404 + 8 * p, B.TIME + 0x400 + 8 * p] → u.reg a = s.reg a)) ∧
  (∀ (q : Req) (s : State) (c : Cmd), s.holds q 0x0404 c →
    let e := (c.u8 8, c.u8 10, c.u8 11, c.u8 12, c.bytes 16 16)
    let same := fun (x : Nat × Nat × Nat × Nat × List Byte) => x.1 = e.1 ∧ x.2.1 = e.2.1 ∧ x.2.2.1 = e.2.2.1 ∧ x.2.2.2.2 = e.2.2.2.2
    let ok := c.u8 8 ≤ 95 ∧ c.u8 9 ≤ 1 ∧ c.u8 10 ≤ 1 ∧ c.u8 11 ∈ [4, 6] ∧ logOk (c.u8 12) 7 = true
    (¬ ok → Gives (.timeUnicastSet q) s (Ends q St.BAD_ARGUMENT [] s)) ∧
    (ok → c.u8 9 = 0 → (∀ x ∈ s.tim.sessions, ¬ same x) → Gives (.timeUnicastSet q) s (Ends q St.BAD_ARGUMENT [] s)) ∧
    (ok → c.u8 9 = 0 → (∃ x ∈ s.tim.sessions, same x) → Gives (.timeUnicastSet q) s fun t => ∃ u, Ends q St.DONE [] u t ∧
      u = s.onTim (fun x => { x with sessions := u.tim.sessions }) ∧ ∀ x, x ∈ u.tim.sessions ↔ x ∈ s.tim.sessions ∧ ¬ same x) ∧
    (ok → c.u8 9 = 1 → s.tim.sessions.length < 512 → Gives (.timeUnicastSet q) s fun t => ∃ u, Ends q St.DONE [] u t ∧
      u = s.onTim (fun x => { x with sessions := u.tim.sessions }) ∧ ∀ x, x ∈ u.tim.sessions ↔ x = e ∨ (x ∈ s.tim.sessions ∧ ¬ same x)) ∧
    (ok → c.u8 9 = 1 → 512 ≤ s.tim.sessions.length → (∀ x ∈ s.tim.sessions, ¬ same x) →
      Gives (.timeUnicastSet q) s (Ends q St.NO_RESOURCE [] s))) ∧
  (∀ (q : Req) (s : State) (c : Cmd), s.holds q 0x0405 c → s.flag B.PMC R.PMC_CTRL_FREEZE = false →
    s.tim.frac < 65536 →
    let old := s.timeWord * 65536 + s.tim.frac
    let new := c.u64 8 * 65536 + c.u16 16
    let bad := s.phaseSel ≠ none ∨ (new < old ∧ s.mode ≠ .survey) ∨ s.mode ∉ [Mode.priming, .flowing, .trickle, .survey]
    (bad → Gives (.timeSet q) s (Ends q St.BAD_ARGUMENT [] s)) ∧
    (¬ bad → Gives (.timeSet q) s fun t => ∃ u, Ends q St.DONE [] u t ∧ u.timeWord = c.u64 8 ∧ u.tim.frac = c.u16 16 ∧ u.now = s.now ∧
      u.rd B.TIME R.TIME_STATE_PHASE_SRC = 4 ∧
      (new ≠ old → u.tim.lastStep = c.u64 8 ∧ u.tim.core.step = true ∧ ∀ m, (m, u.page m) ∈ u.tim.pages → (u.page m).step = true) ∧
      u.cnt (B.TIME + C.TIME_STEPS) = if new ≤ old then s.cnt (B.TIME + C.TIME_STEPS) else (s.cnt (B.TIME + C.TIME_STEPS) + 1) % 2 ^ 64)) ∧
  (∀ (q : Req) (s : State) (c : Cmd), s.holds q 0x0406 c →
    (1 < c.u8 8 → Gives (.timeTodSet q) s (Ends q St.BAD_ARGUMENT [] s)) ∧
    (c.u8 8 ≤ 1 → Gives (.timeTodSet q) s (Ends q St.DONE [] (s.setPpsIn (c.u8 8) { s.ppsIn (c.u8 8) with next := some (c.u64 12) })))) ∧
  (∀ (q : Req) (s : State) (c : Cmd), s.holds q 0x0407 c →
    let b := outReg (c.u8 8)
    let ok := c.u8 8 ≤ 19 ∧ wordTakes (b + R.TIME_OUT_CFG_EN.off) (c.u32 12) = true
    (¬ ok → Gives (.timeOutSet q) s (Ends q St.BAD_ARGUMENT [] s)) ∧
    (ok → Gives (.timeOutSet q) s fun t => ∃ u, Ends q St.DONE [] u t ∧ u.flag b R.TIME_OUT_CFG_EN = bitOf (c.u32 12) 31 ∧
      u.rd b R.TIME_OUT_CFG_WIDTH = c.u32 12 % 2 ^ 19 ∧ (u.reg (b + R.TIME_OUT_OFS_OFFSET.off)).toNat = c.u32 16 ∧
      (c.u8 8 < 16 → s.flag b R.TIME_OUT_CFG_FEED_EN = false → bitOf (c.u32 12) 27 = true → u.flag b R.TIME_OUT_STAT_FEED_ON = true ∧
        u.flag b R.TIME_OUT_STAT_TRIP = false ∧ u.out = s.out ++ [.pin "HT_FEED_EN" true]) ∧
      (16 ≤ c.u8 8 ∨ s.flag b R.TIME_OUT_CFG_FEED_EN = bitOf (c.u32 12) 27 → u.out = s.out ∧
        u.reg (b + R.TIME_OUT_STAT_TRIP.off) = s.reg (b + R.TIME_OUT_STAT_TRIP.off)))) ∧
  (∀ (q : Req) (s : State) (c : Cmd), s.holds q 0x0408 c →
    (95 < c.u8 8 ∨ 15 < c.u8 9 → Gives (.timeSynceQl q) s (Ends q St.BAD_ARGUMENT [] s)) ∧
    (c.u8 8 ≤ 95 → c.u8 9 ≤ 15 → Gives (.timeSynceQl q) s fun t => ∃ u x, Ends q St.DONE [BitVec.ofNat 8 x] u t ∧ (s.freqSel ≠ some 17 → x ≤ 15) ∧
      tget (fun _ => 0xF) u.tim.ql (c.u8 8) = c.u8 9 ∧ (s.freqSel = some 17 → x = tget (fun _ => 0xF) u.tim.ql (s.rd B.TIME R.TIME_SRC_CFG_SYNCE_LANE)))) ∧
  (∀ (q : Req) (s : State) (c : Cmd), s.holds q 0x0409 c →
    (s.flag B.TIME R.TIME_LOCK_HLOCK = true → Gives (.timeHoldSet q) s (Ends q St.REFUSED [] s)) ∧
    (s.flag B.TIME R.TIME_LOCK_HLOCK = false → Gives (.timeHoldSet q) s fun t => ∃ u, Ends q St.DONE [] u t ∧
      u.rd B.TIME R.TIME_HOLD_CFG_HOLD_FERR = c.u32 8 / 2 ^ 16 ∧ u.rd B.TIME R.TIME_HOLD_CFG_HOLD_AGE = c.u32 8 % 2 ^ 16 ∧
      u.rd B.TIME R.TIME_HOLD_LIM_HOLD_LIMIT = c.u16 12 ∧ u.flag B.TIME R.TIME_LOCK_HLOCK = bitOf (c.u8 14) 0 ∧
      Wrote s u [B.TIME + 0x30, B.TIME + 0x34, B.TIME + 0x38])) ∧
  (∀ (q : Req) (s : State) (c : Cmd), s.holds q 0x040A c →
    (s.tim.slave ≠ none → Gives (.timeUtcSet q) s fun t => (t.tag q).cur = none ∧ s.resultOnly t q ∧
      (t.tag q).fin.map (fun f => (f.status, f.retry)) = some (St.BUSY_RETRY, 1000)) ∧
    (s.tim.slave = none → Gives (.timeUtcSet q) s fun t => ∃ u, Ends q St.DONE [] u t ∧ u.rd B.TIME R.TIME_UTC_OFFSET = c.u16 8 ∧
      u.flag B.TIME R.TIME_UTC_LEAP61 = bitOf (c.u8 10) 0 ∧ u.flag B.TIME R.TIME_UTC_LEAP59 = bitOf (c.u8 10) 1 ∧
      u.flag B.TIME R.TIME_UTC_UTC_VALID = bitOf (c.u8 10) 2 ∧ u.tim.core.extra ≠ none)) ∧
  (∀ (q : Req) (s : State) (c : Cmd), s.holds q 0x040B c → let p := c.u8 8
    (95 < p ∨ s.portWidth p = 0 → Gives (.timeCalRead q) s (Ends q St.BAD_ARGUMENT [] s)) ∧
    (p ≤ 95 → s.portWidth p ≠ 0 → Gives (.timeCalRead q) s (Ends q St.DONE (leBytes 4 (s.calOf (p / 4)).2.1 ++ leBytes 4 (s.calOf (p / 4)).2.2 ++
      leBytes 4 ((s.now - (s.calOf (p / 4)).1) / 1000000)) s)))


/-! ### The Silo: drives and volumes (chapter 15) -/

/-- R351 to R353, R355 to R357, R367, R469, Tables 15.1 to 15.3, 15.11 and 15.11a: drives, their commands, rebuild and destage. -/
def Obligations.DrivePool : Prop :=
  (∀ (d : DriveIx) (cap : Nat) (fits : Bool) (s : State),
    let x := s.drive d
    let only := fun (u : State) (y : Drive) => u.drive d = y ∧ (∀ j, j ≠ d.val → u.drive j = s.drive j) ∧
      u = { s with silo := { s.silo with drives := u.silo.drives } }
    (x.up = true ∨ s.domOn (domDP d) = false → exec (.driveLinkUp d cap fits) s = .next s) ∧
    (x.up = false → s.domOn (domDP d) = true →
      (x.st = .absent → Gives (.driveLinkUp d cap fits) s fun u => only u { x with st := .new, up := true, cap := cap, fit := fits, errs := [] }) ∧
      (x.st ≠ .absent → Gives (.driveLinkUp d cap fits) s fun u => only u { x with up := true, downAt := none })) ∧
    (x.up = false → exec (.driveLinkDown d) s = .next s) ∧
    (x.up = true →
      (x.st ≠ .member → x.st ≠ .retiring → Gives (.driveLinkDown d) s fun u => only u Drive.none) ∧
      (x.st = .member ∨ x.st = .retiring → Gives (.driveLinkDown d) s fun u => only u { x with up := false, downAt := some s.now })) ∧
    (∀ how, x.st ≠ .member → exec (.driveFailure d how) s = .next s) ∧
    (x.st = .member → twf (fun _ => 0) s.silo.map = true → s.mild 29 →
      let kept := x.errs.filter fun t => decide (s.now ≤ t + 24 * 3600 * ms 1000)
      (∀ how ∈ [DriveEnd.timeout, .writeError], Gives (.driveFailure d how) s fun u => DriveFailed s u d) ∧
      (∀ t, x.downAt = some t → t + ms 1000 < s.now → Gives (.driveFailure d .linkDown) s fun u => DriveFailed s u d) ∧
      ((∀ t, x.downAt = some t → s.now ≤ t + ms 1000) → exec (.driveFailure d .linkDown) s = .next s) ∧
      (7 ≤ kept.length → Gives (.driveFailure d .readError) s fun u => DriveFailed s u d) ∧
      (kept.length < 7 → Gives (.driveFailure d .readError) s fun u => only u { x with errs := kept ++ [s.now] }))) ∧
  (∀ (q : Req) (s : State) (c : Cmd), s.holds q 0x0501 c →
    let d := c.u8 8
    let x := s.drive d
    let rows : List (Nat × Instr) := [(0, .driveAdmit q), (1, .driveRetire q), (2, .driveFail q)]
    (∀ r ∈ rows, s.domOn 74 = false ∨ 32 ≤ d ∨ 2 < c.u8 9 → Gives r.2 s (Ends q St.BAD_ARGUMENT [] s)) ∧
    (s.domOn 74 = true → d < 32 → c.u8 9 ≤ 2 →
      (∀ r ∈ rows, c.u8 9 ≠ r.1 → exec r.2 s = .next s) ∧
      (c.u8 9 = 0 →
        (x.st ≠ .new ∨ x.fit = false → Gives (.driveAdmit q) s (Ends q St.BAD_ARGUMENT [] s)) ∧
        (x.st = .new → x.fit = true → 2 ^ 31 < s.poolRaw + x.cap → Gives (.driveAdmit q) s (Ends q St.NO_RESOURCE [] s)) ∧
        (x.st = .new → x.fit = true → s.poolRaw + x.cap ≤ 2 ^ 31 → Gives (.driveAdmit q) s
          (Ends q St.DONE [] (s.setDrive d { x with st := .member, errs := [], downAt := none })))) ∧
      (c.u8 9 = 1 →
        (x.st ≠ .member → Gives (.driveRetire q) s (Ends q St.BAD_ARGUMENT [] s)) ∧
        (x.st = .member → twf (fun _ => 0) s.silo.map = true → Gives (.driveRetire q) s fun t => ∃ u, Ends q St.DONE [] u t ∧
          (u.drive d).st = (if s.holdsCols d then .retiring else .new) ∧
          (∀ j, j ≠ d → (s.drive j).st ≠ .retiring → u.drive j = s.drive j) ∧
          (∀ i, u.ext i = if Ext.valid (s.ext i) && (Ext.drives (s.ext i)).contains d then Ext.setMoving (s.ext i) true else s.ext i) ∧
          u = { s with silo := { s.silo with drives := u.silo.drives, map := u.silo.map, meta_ := u.silo.meta_ } })) ∧
      (c.u8 9 = 2 →
        (x.st ≠ .member → Gives (.driveFail q) s (Ends q St.BAD_ARGUMENT [] s)) ∧
        (x.st = .member → twf (fun _ => 0) s.silo.map = true → s.mild 29 → Gives (.driveFail q) s fun t => ∃ u,
          Ends q St.DONE [] u t ∧ DriveFailed s u d)))) ∧
  (∀ (v : Fin 4096) (x : Nat) (s : State),
    let i := s.extIx v x
    let e := s.ext i
    let due := s.domOn 74 = true ∧ (s.vol v).live = true ∧ x < (s.vol v).extents ∧ Ext.valid e = true ∧
      (Ext.degraded e = true ∨ Ext.moving e = true) ∧ schemeNeed (Ext.scheme e) ≤ s.readable i
    (¬ due ∨ ¬ s.hasPlace (Ext.scheme e) → exec (.rebuildExtentDone v x) s = .next s) ∧
    (due → s.hasPlace (Ext.scheme e) → Gives (.rebuildExtentDone v x) s fun u => s.placed u i (Ext.scheme e) (Ext.volume e) ∧
      (∀ j, (s.drive j).st ≠ .retiring → u.drive j = s.drive j) ∧
      u = { s with freeCtr := u.freeCtr, silo := { s.silo with drives := u.silo.drives, map := u.silo.map, meta_ := u.silo.meta_,
                                                               stale := u.silo.stale } })) ∧
  (∀ (v : Fin 4096) (x upTo : Nat) (bad : List DriveIx) (s : State),
    let i := s.extIx v x
    let e := s.ext i
    let takes := fun (b : Block) => b.vol = v && extOf b.lba = x && b.dirty && decide (b.seq ≤ upTo)
    let work := s.silo.cache.any fun b => b.vol = v && extOf b.lba = x && (b.st = .staging || b.dirty)
    let runs := s.domOn 74 = true ∧ s.domOn 65 = true ∧ s.mode ≠ .fallow ∧ s.mode ≠ .drain ∧ (s.vol v).live = true ∧
      (s.vol v).online = true ∧ work = true
    let cols := s.columnsWritten i bad
    let cleaned := fun (u : State) =>
      u.silo.cache = s.silo.cache.map (fun b => if takes b then { b with st := .clean, held := false } else b) ∧
      (∀ w lba, (∀ b ∈ s.silo.cache, takes b = true → b.lba = lba → v.val ≠ w) → lba < 2 ^ 40 → u.lbaDisk w lba = s.lbaDisk w lba) ∧
      (∀ lba, (∃ b ∈ s.silo.cache, takes b = true ∧ b.lba = lba) → ∃ b ∈ s.silo.cache, takes b = true ∧ b.lba = lba ∧ u.lbaDisk v lba = b.data) ∧
      u.cnt (B.SILO + C.SILO_DESTAGED) = (s.cnt (B.SILO + C.SILO_DESTAGED) + (s.silo.cache.filter takes).length) % 2 ^ 64 ∧
      u.vol v = { s.vol v with blocked := false }
    (¬ runs → exec (.destageExtentDone v x upTo bad) s = .next s) ∧
    (runs → s.still → s.jobs = [] → s.flag B.PMC R.PMC_CTRL_FREEZE = false → (∀ w ∈ s.silo.writes, w.through = false) → Ext.valid e = true → x < 2 ^ 28 →
      (s.minimumMet i cols = true → Gives (.destageExtentDone v x upTo bad) s fun u => cleaned u ∧
        (∀ j, j ≠ i → u.ext j = s.ext j ∧ u.staleCols j = s.staleCols j) ∧
        (∀ c, c < schemeCols (Ext.scheme e) → (bitOf (u.staleCols i) c = true ↔ bitOf (s.staleCols i) c = true ∨ c ∉ cols)) ∧
        ((∀ c, c < schemeCols (Ext.scheme e) → c ∈ cols) → u.ext i = e) ∧
        ((∃ c, c < schemeCols (Ext.scheme e) ∧ c ∉ cols) → u.ext i = Ext.setDegraded e true) ∧ tget (fun _ => 0) u.silo.meta_ i = u.ext i) ∧
      (s.minimumMet i cols = false → s.hasPlace (Ext.scheme e) → Gives (.destageExtentDone v x upTo bad) s fun u => cleaned u ∧
        s.placed u i (Ext.scheme e) (Ext.volume e) ∧ u.cnt (B.SILO + C.SILO_REPLACED) = (s.cnt (B.SILO + C.SILO_REPLACED) + 1) % 2 ^ 64) ∧
      (s.minimumMet i cols = false → ¬ s.hasPlace (Ext.scheme e) → Gives (.destageExtentDone v x upTo bad) s fun u =>
        u.vol v = { s.vol v with blocked := true } ∧ (∀ w, w ≠ v.val → u.vol w = s.vol w) ∧
        u = { s with silo := { s.silo with vols := u.silo.vols }, freeCtr := u.freeCtr })) ∧
    (runs → s.jobs = [] → Ext.valid e = false → ¬ s.hasPlace (s.vol v).scheme → Gives (.destageExtentDone v x upTo bad) s fun u =>
      u.vol v = { s.vol v with blocked := true } ∧ u.silo.cache = s.silo.cache))

/-- R353, R358, R359, R379, R381, R469, R75, Table 15.11: volumes and namespaces. -/
def Obligations.VolumeCommands : Prop :=
  (∀ (q : Req) (s : State) (c : Cmd), s.holds q 0x0502 c →
    let v := c.u16 8
    let n := c.u32 12
    let kek := tget (fun _ => []) s.keks 1
    let bad := 4096 ≤ v ∨ 3 < c.u8 10 ∨ n = 0 ∨ 2 ^ 28 < n ∨ (s.vol v).live = true
    let keyed := kek ≠ [] ∧ s.domOn 77 = true
    let key := Config.keyUnwrap false kek (c.bytes 16 48)
    let room := ∃ b, b < 2 ^ 28 ∧ s.runFree b n = true
    (s.domOn 74 = false ∨ bad → Gives (.volCreate q) s (Ends q St.BAD_ARGUMENT [] s)) ∧
    (s.domOn 74 = true → ¬ bad →
      (¬ keyed → Gives (.volCreate q) s (Ends q St.REFUSED [] s)) ∧
      (keyed → s.members.length < schemeCols (c.u8 10) → Gives (.volCreate q) s (Ends q St.NO_RESOURCE [] s)) ∧
      (keyed → schemeCols (c.u8 10) ≤ s.members.length → s.kcuTakes 1 = false → exec (.volCreate q) s = .next s) ∧
      (keyed → schemeCols (c.u8 10) ≤ s.members.length → s.kcuTakes 1 = true →
        (¬ room → Gives (.volCreate q) s fun t => ∃ k, Ends q St.NO_RESOURCE [] { s with freeCtr := k } t) ∧
        (room → key = none → Gives (.volCreate q) s fun t => ∃ k, Ends q St.REFUSED [] { s with freeCtr := k } t) ∧
        (room → key ≠ none → Gives (.volCreate q) s fun t => ∃ u b, Ends q St.DONE (leBytes 4 b) u t ∧ s.runFree b n = true ∧
          u.vol v = { live := true, scheme := c.u8 10, extents := n, base := b, key := c.bytes 16 48, online := true, blocked := false } ∧
          (∀ w, w ≠ v → u.vol w = s.vol w) ∧ u = { s with silo := { s.silo with vols := u.silo.vols }, freeCtr := u.freeCtr })))) ∧
  (∀ (q : Req) (s : State) (c : Cmd),
    let v := c.u16 8
    let retry := fun (t : State) => (t.tag q).cur = none ∧ s.resultOnly t q ∧
      (t.tag q).fin.map (fun f => (f.status, f.retry)) = some (St.BUSY_RETRY, 1000)
    let rows : List (Nat × Instr) := [(0x0503, .volDelete q), (0x0506, .volStatus q), (0x0522, .volResync q)]
    (∀ r ∈ rows, s.holds q r.1 c →
      (s.domOn 74 = false ∨ 4096 ≤ v ∨ (s.vol v).live = false → Gives r.2 s (Ends q St.BAD_ARGUMENT [] s)) ∧
      (s.domOn 74 = true → v < 4096 → (s.vol v).live = true →
        (s.volForeign q v = true → Gives r.2 s (Ends q St.REFUSED [] s)) ∧
        (s.volForeign q v = false → s.held [0x0503, 0x0522] v = true → Gives r.2 s retry))) ∧
    (s.domOn 74 = true → v < 4096 → (s.vol v).live = true → s.volForeign q v = false → s.held [0x0503, 0x0522] v = false →
      (s.holds q 0x0503 c →
        let gone := fun (t : State) => ∃ u, Ends q St.DONE [] u t ∧ u.vol v = Vol.none ∧ (∀ w, w ≠ v → u.vol w = s.vol w) ∧
          u.silo.cache = s.silo.cache.filter (fun b => b.vol ≠ v) ∧
          (∀ i, u.ext i = if (s.vol v).base ≤ i ∧ i < (s.vol v).base + (s.vol v).extents then 0 else s.ext i) ∧
          (∀ w lba, w ≠ v → lba < 2 ^ 40 → u.lbaDisk w lba = s.lbaDisk w lba) ∧ u.silo.atts = s.silo.atts
        ((s.attOf v).isSome = true ∨ (∃ w ∈ s.silo.writes, w.vol = v) → Gives (.volDelete q) s retry) ∧
        (s.attOf v = none → s.still → (∀ w ∈ s.silo.writes, w.vol ≠ v) →
          (bitOf (c.u8 10) 0 = true → Gives (.volDelete q) s gone) ∧
          (bitOf (c.u8 10) 0 = false →
            ((s.vol v).blocked = true ∨ (s.vol v).online = false → Gives (.volDelete q) s retry) ∧
            ((s.vol v).blocked = false → (s.vol v).online = true →
              (s.volDirty v = 0 → s.mgen q = c.mgen → Gives (.volDelete q) s gone) ∧
              (s.volDirty v ≠ 0 → Gives (.volDelete q) s fun u => u = { s with jobs := u.jobs } ∧ u.held [0x0503] v = true ∧
                (u.tag q).cur = some c))))) ∧
      (s.holds q 0x0522 c →
        (s.connOf v = none → Gives (.volResync q) s (Ends q St.BAD_ARGUMENT [] s)) ∧
        (∀ k, s.connOf v = some k → s.connState k ≠ 1 → Gives (.volResync q) s retry) ∧
        (∀ k, s.connOf v = some k → s.connState k = 1 →
          let mine := (s.silo.marks.filter fun i => decide ((s.vol v).base ≤ i) && decide (i < (s.vol v).base + (s.vol v).extents)).take
            ((min (2 ^ 22 - 1 - (s.conn k).sent.length) (2 ^ 19 - (s.silo.conns.map fun e => e.2.sent.length).sum)) / 256)
          Gives (.volResync q) s fun t => ∃ u, Ends q St.DONE (leBytes 4 mine.length) u t ∧
            u.silo.marks = s.silo.marks.filter (fun i => !mine.contains i) ∧
            (u.conn k).sent.length = (s.conn k).sent.length + 256 * mine.length ∧
            u.rd (connBase k) R.CND_CONN_STATE_NEXT_PSN = (s.rd (connBase k) R.CND_CONN_STATE_NEXT_PSN + 256 * mine.length) % 2 ^ 24 ∧
            (∀ j, j ≠ k → u.conn j = s.conn j) ∧
            u = { s with silo := { s.silo with marks := u.silo.marks, conns := u.silo.conns }, regs := u.regs, out := u.out })))) ∧
  (∀ (q : Req) (s : State) (c : Cmd) (p : Nat), s.serves q c p →
    let nsid := c.u8 10
    let k := 16 * p + nsid - 1
    let v := c.u16 12
    let at_ := fun (u : State) j => tget (fun _ => 0) u.silo.atts j
    let moved := fun (u : State) (n : Nat) => (∀ j, at_ u j = if j = k then n else at_ s j) ∧
      (s.ctlOn p = false → u = { s with silo := { s.silo with atts := u.silo.atts } }) ∧
      (s.ctlOn p = true → (s.ctl p).aers = [] → u.ctl p = { s.ctl p with changed := (u.ctl p).changed } ∧
        (∀ j, j ∈ (u.ctl p).changed ↔ j = nsid ∨ j ∈ (s.ctl p).changed) ∧
        u = { s with silo := { s.silo with atts := u.silo.atts, ctls := u.silo.ctls } }) ∧
      (∀ cid rest m f, s.ctlOn p = true → (s.ctl p).aers = cid :: rest → (s.ctl p).masked = false →
        bitOf (tget (fun _ => 0) (s.ctl p).features 0x0B) 8 = true → s.nvPosts p m f → s.nvRoom p 0 →
        let l := (s.ctl p).changed
        Completed ({ s with silo := { s.silo with atts := u.silo.atts } }.setCtl p
          { s.ctl p with aers := rest, masked := true, changed := if nsid ∈ l then l else l ++ [nsid] }) u p 0 m f cid 0 0x0004_0002 [])
    let wrong := s.domOn 74 = false ∨ s.isStorage p = false ∨ nsid = 0 ∨ 16 < nsid
    (s.holds q 0x0504 c →
      (wrong ∨ 4096 ≤ v ∨ (s.vol v).live = false → Gives (.volAttach q) s (Ends q St.BAD_ARGUMENT [] s)) ∧
      (¬ wrong → v < 4096 → (s.vol v).live = true →
        (s.volForeign q v = true → Gives (.volAttach q) s (Ends q St.REFUSED [] s)) ∧
        (s.volForeign q v = false → s.held [0x0503, 0x0522] v = false →
          ((s.attOf v).isSome = true ∨ at_ s k ≠ 0 → Gives (.volAttach q) s (Ends q St.BAD_ARGUMENT [] s)) ∧
          (s.attOf v = none → at_ s k = 0 → Gives (.volAttach q) s fun t => ∃ u, Ends q St.DONE [] u t ∧ moved u (v + 1))))) ∧
    (s.holds q 0x0505 c →
      (wrong ∨ at_ s k = 0 → Gives (.volDetach q) s (Ends q St.BAD_ARGUMENT [] s)) ∧
      (¬ wrong → at_ s k ≠ 0 → Gives (.volDetach q) s fun t => ∃ u, Ends q St.DONE [] u t ∧ moved u 0)))


/-- R360, R362, R364, Tables 15.4 to 15.6: doorbells, controller reset and shutdown, and the admin commands. Layouts and codes
of the NVMe base specification are the family's (assumption 22). -/
def Obligations.NvmeAdmin : Prop :=
  (∀ (p : PlotIx) (y : Nat) (v : Word) (shn : Fin 4) (s : State) (m f : Nat), s.fnOfPlot p = some (m, f) →
    let rows := [Instr.nvmeSqDoorbell p y v, .nvmeCqDoorbell p y v, .controllerReset p, .shutdownNotification p shn]
    (∀ c ∈ rows, s.linkUp m = false → exec c s = .next s) ∧
    (f ≠ 0 → s.linkUp m = true → s.answers m f = true → s.waitingOf (.host (Fin.ofNat 16 m) f) = [] →
      let same := s.answer .ok
      (∀ c ∈ rows, s.isStorage p = false → exec c s = .next same) ∧
      (s.isStorage p = true →
        (exec (.nvmeSqDoorbell p y v) s = .next (if (s.sq p y).live = true ∧ v.toNat < (s.sq p y).size then
          same.setSq p y { s.sq p y with tail := v.toNat } else same)) ∧
        (exec (.nvmeCqDoorbell p y v) s = .next (if (s.cq p y).live = true ∧ v.toNat < (s.cq p y).size then
          same.setCq p y { s.cq p y with head := v.toNat } else same)) ∧
        (Gives (.controllerReset p) s fun u => s.ctlOn p = true → u.ctlOn p = false ∧ u.ctl p = Ctl.init ∧
          u.flag (B.NVME p) R.NVME_CSTS_RDY = false ∧ u.flag (B.NVME p) R.NVME_CSTS_CFS = false ∧ u.rd (B.NVME p) R.NVME_CSTS_SHST = 0 ∧
          (∀ p', p' ≠ p.val → u.ctl p' = s.ctl p') ∧ (∀ w ∈ u.silo.writes, w ∈ s.silo.writes ∧ ∀ x, w.src = some x → x.1 ≠ p.val) ∧
          (∀ r ∈ u.silo.reads, r ∈ s.silo.reads ∧ r.src.1 ≠ p.val) ∧ (∀ b ∈ s.silo.cache, b.inFlight = false → b ∈ u.silo.cache) ∧
          Wrote s { u with silo := s.silo, reply := s.reply } [B.NVME p + 0x14, B.NVME p + 0x1C]) ∧
        (Gives (.shutdownNotification p shn) s fun u => u.rd (B.NVME p) R.NVME_CC_SHN = shn.val ∧
          (s.ctlOn p = true → shn.val ≠ 0 → s.rd (B.NVME p) R.NVME_CC_SHN ≠ shn.val → u.rd (B.NVME p) R.NVME_CSTS_SHST = 2) ∧
          Wrote same u [B.NVME p + 0x14, B.NVME p + 0x1C])))) ∧
  (∀ (p : PlotIx) (e : Fetch) (lists : List Fetch) (s : State),
    let rows := [Instr.nvmeDeleteIoSq p e, .nvmeDeleteIoCq p e, .nvmeCreateIoSq p e, .nvmeCreateIoCq p e, .nvmeIdentify p e lists,
      .nvmeGetLogPage p e lists, .nvmeSetFeatures p e, .nvmeGetFeatures p e, .nvmeAsyncEventRequest p e, .nvmeAbort p e]
    (s.mayFetchSq p 0 = false → ∀ c ∈ rows, exec c s = .next s) ∧
    (s.mayFetchSq p 0 = true → s.windowOk p ((s.sq p 0).base + 64 * (s.sq p 0).head) 64 false = false → ∀ c ∈ rows, (∀ a, c ≠ .nvmeDeleteIoSq p a ∨ s.deleteWaits p a = false) → Gives c s fun u =>
      u.flag (B.NVME p) R.NVME_CSTS_CFS = true ∧ u.silo = s.silo) ∧
    (s.mayFetchSq p 0 = true → s.windowOk p ((s.sq p 0).base + 64 * (s.sq p 0).head) 64 false = true → e = .ur → ∀ c ∈ rows, Gives c s fun u =>
      Wrote (s.sqAsked p 0) u [B.NVME p + R.NVME_CSTS_CFS.off] ∧ u.flag (B.NVME p) R.NVME_CSTS_CFS = true)) ∧
  (∀ (p : PlotIx) (l : List Byte) (lists : List Fetch) (x : Sqe) (s : State) (m f : Nat), s.nvPosts p m f → s.nvRoom p 0 →
    let t := s.sqTaken p 0
    let y := x.d10 % 2 ^ 16
    let n := x.d10 / 2 ^ 16
    let ends := fun (st dw0 : Nat) (s1 : State) (u : State) => Completed s1 u p 0 m f x.cid st dw0 []
    let sized := 1 ≤ y ∧ y ≤ s.rd (B.PLOT p) R.PLOT_CFG_QP_MAX ∧ 1 ≤ n ∧ n ≤ 0xFFF ∧ bitOf x.d11 0 = true ∧
      x.prp1 % 2 ^ (12 + s.rd (B.NVME p) R.NVME_CC_MPS) = 0
    (s.mayFetchSq p 0 = true → s.windowOk p ((s.sq p 0).base + 64 * (s.sq p 0).head) 64 false = true → x = Sqe.of (fit 64 l) →
      ∀ c ∈ [(0x00, Instr.nvmeDeleteIoSq p (.ok l)), (0x01, .nvmeCreateIoSq p (.ok l)), (0x02, .nvmeGetLogPage p (.ok l) lists),
        (0x04, .nvmeDeleteIoCq p (.ok l)), (0x05, .nvmeCreateIoCq p (.ok l)), (0x06, .nvmeIdentify p (.ok l) lists), (0x08, .nvmeAbort p (.ok l)),
        (0x09, .nvmeSetFeatures p (.ok l)), (0x0A, .nvmeGetFeatures p (.ok l)), (0x0C, .nvmeAsyncEventRequest p (.ok l))],
        (x.op ∈ adminOps → x.op ≠ c.1 → exec c.2 s = .next s) ∧
        (x.op ∉ adminOps → Gives c.2 s (ends Nvme.invalidOpcode 0 t)) ∧
        (x.op = c.1 → x.flags ≠ 0 → (c.1 = 0x00 → s.owed p y = 0) → Gives c.2 s (ends Nvme.invalidField 0 t))) ∧
    (s.serve p 0 0x01 l x →
      let ok := sized ∧ (s.sq p y).live = false ∧ x.d11 / 2 ^ 16 ≠ 0 ∧ (s.cq p (x.d11 / 2 ^ 16)).live = true ∧ s.allQps < 8192
      (¬ ok → Gives (.nvmeCreateIoSq p (.ok l)) s (ends Nvme.invalidField 0 t)) ∧
      (ok → Gives (.nvmeCreateIoSq p (.ok l)) s (ends Nvme.ok 0
        (t.setSq p y { Nq.none with live := true, base := x.prp1, size := n + 1, cq := x.d11 / 2 ^ 16 })))) ∧
    (s.serve p 0 0x05 l x →
      let ok := sized ∧ (s.cq p y).live = false ∧ x.d11 / 2 ^ 16 < s.tableSize m f
      (¬ ok → Gives (.nvmeCreateIoCq p (.ok l)) s (ends Nvme.invalidField 0 t)) ∧
      (ok → Gives (.nvmeCreateIoCq p (.ok l)) s (ends Nvme.ok 0
        (t.setCq p y { Nq.none with live := true, base := x.prp1, size := n + 1, cq := x.d11 / 2 ^ 16, ien := bitOf x.d11 1, phase := true })))) ∧
    (s.serve p 0 0x00 l x →
      (s.owed p y ≠ 0 → exec (.nvmeDeleteIoSq p (.ok l)) s = .next s) ∧
      (s.owed p y = 0 → y = 0 ∨ (s.sq p y).live = false → Gives (.nvmeDeleteIoSq p (.ok l)) s (ends Nvme.invalidField 0 t)) ∧
      (y ≠ 0 → (s.sq p y).live = true → s.owed p y = 0 → Gives (.nvmeDeleteIoSq p (.ok l)) s (ends Nvme.ok 0 (t.setSq p y Nq.none)))) ∧
    (s.serve p 0 0x04 l x →
      (y = 0 ∨ (s.cq p y).live = false → Gives (.nvmeDeleteIoCq p (.ok l)) s (ends Nvme.invalidField 0 t)) ∧
      (y ≠ 0 → (s.cq p y).live = true → (∀ q ∈ (t.ctl p).sqs, q.2.live = true → q.2.cq ≠ y) → Gives (.nvmeDeleteIoCq p (.ok l)) s
        (ends Nvme.ok 0 (t.setCq p y Nq.none))) ∧
      ((∃ z, z ≠ 0 ∧ (s.sq p z).live = true ∧ (s.sq p z).cq = y) → Gives (.nvmeDeleteIoCq p (.ok l)) s (ends Nvme.invalidField 0 t))) ∧
    (s.serve p 0 0x09 l x →
      let fid := x.d10 % 256
      let bad := fid ∉ features ∨ bitOf x.d10 31 = true ∨ (fid = 0x02 ∧ x.d11 % 32 ≠ 0)
      (bad → Gives (.nvmeSetFeatures p (.ok l)) s (ends Nvme.invalidField 0 t)) ∧
      (¬ bad → fid = 0x07 → Gives (.nvmeSetFeatures p (.ok l)) s (ends Nvme.ok (s.queueCount p) t)) ∧
      (¬ bad → fid ≠ 0x07 → Gives (.nvmeSetFeatures p (.ok l)) s (ends Nvme.ok 0
        (t.setCtl p { t.ctl p with features := tput (fun _ => 0) (s.ctl p).features (featureKey fid x.d11) x.d11 })))) ∧
    (s.serve p 0 0x0A l x →
      let fid := x.d10 % 256
      (fid ∉ features → Gives (.nvmeGetFeatures p (.ok l)) s (ends Nvme.invalidField 0 t)) ∧
      (fid = 0x07 → Gives (.nvmeGetFeatures p (.ok l)) s (ends Nvme.ok (s.queueCount p) t)) ∧
      (fid ∈ features → fid ≠ 0x07 → Gives (.nvmeGetFeatures p (.ok l)) s (ends Nvme.ok
        (tget (fun _ => 0) (s.ctl p).features (featureKey fid x.d11)) t))) ∧
    (s.serve p 0 0x0C l x →
      (4 ≤ (s.ctl p).aers.length → Gives (.nvmeAsyncEventRequest p (.ok l)) s (ends Nvme.invalidField 0 t)) ∧
      ((s.ctl p).aers.length < 4 → (s.ctl p).changed = [] → Gives (.nvmeAsyncEventRequest p (.ok l)) s fun u =>
        u = t.setCtl p { t.ctl p with aers := (s.ctl p).aers ++ [x.cid] }) ∧
      ((s.ctl p).aers = [] → (s.ctl p).changed ≠ [] → (s.ctl p).masked = false → s.ctlOn p = true →
        bitOf (tget (fun _ => 0) (s.ctl p).features 0x0B) 8 = true → Gives (.nvmeAsyncEventRequest p (.ok l)) s
          (ends Nvme.ok 0x0004_0002 (t.setCtl p { t.ctl p with masked := true })))) ∧
    (s.serve p 0 0x06 l x ∨ s.serve p 0 0x02 l x → ∀ data : List Byte,
      let cns := x.d10 % 256
      let name := s.nsVol p x.nsid
      let lid := x.d10 % 256
      let len := 4 * (x.d10 / 2 ^ 16 + 2 ^ 16 * (x.d11 % 2 ^ 16) + 1)
      let off := x.d12 + 2 ^ 32 * x.d13
      let badLog := lid ∉ [1, 2, 4, 5] ∨ 2 ^ 20 < len ∨ off % 4 ≠ 0
      let page := x.prp1 % 4 = 0 ∧ x.prp1 % s.mps p + data.length ≤ s.mps p ∧ s.windowOk p x.prp1 data.length true = true
      let sends := fun (s1 : State) (u : State) => Completed s1 u p 0 m f x.cid Nvme.ok 0 (t.runOuts m f [(x.prp1, data.length)] data)
      (s.serve p 0 0x06 l x →
        ((cns = 0 ∨ cns = 3) → name = none → Gives (.nvmeIdentify p (.ok l) lists) s (ends Nvme.badNamespace 0 t)) ∧
        (4 ≤ cns → Gives (.nvmeIdentify p (.ok l) lists) s (ends Nvme.invalidField 0 t)) ∧
        ((cns = 0 ∨ cns = 3) → ∀ v, name = some v → data = fit 4096 (Config.nvmeData
          [cns, x.nsid, v, 256 * (s.vol v).extents, 256 * (s.volEntries v).length]) → page → Gives (.nvmeIdentify p (.ok l) lists) s (sends t)) ∧
        (cns = 1 → data = fit 4096 (Config.nvmeData [1, p.val, 8, 16, 255, 255, s.rd (B.PLOT p) R.PLOT_CFG_QP_MAX]) → page →
          Gives (.nvmeIdentify p (.ok l) lists) s (sends t)) ∧
        (cns = 2 → data = fit 4096 (((List.range' 1 16).filter fun n => x.nsid < n && (s.nsVol p n).isSome).flatMap (leBytes 4)) → page →
          Gives (.nvmeIdentify p (.ok l) lists) s (sends t))) ∧
      (s.serve p 0 0x02 l x →
        (badLog → Gives (.nvmeGetLogPage p (.ok l) lists) s (ends Nvme.invalidField 0 t)) ∧
        (¬ badLog → lid = 4 → data = fit len (((s.ctl p).changed.flatMap (leBytes 4)).drop off) → page →
          Gives (.nvmeGetLogPage p (.ok l) lists) s (sends (if bitOf x.d10 15 then t else t.setCtl p { t.ctl p with changed := [], masked := false }))) ∧
        (¬ badLog → lid = 1 → data = fit len ((Config.nvmeData (17 :: (s.ctl p).errlog.flatMap fun r => [r.1, r.2.1, r.2.2])).drop off) → page →
          Gives (.nvmeGetLogPage p (.ok l) lists) s (sends t)) ∧
        (¬ badLog → lid = 2 ∨ lid = 5 → data = fit len ((Config.nvmeData [16 + lid, p.val]).drop off) → page →
          Gives (.nvmeGetLogPage p (.ok l) lists) s (sends t)))))


/-- R22, R23, R354 to R357, R360, R361, R363, R365, R366, R369, Tables 15.5 and 15.6: I/O commands, grants and acknowledgement. -/
def Obligations.NvmeIo : Prop :=
  (∀ (p : PlotIx) (y : Nat) (e : Fetch) (lists pay : List Fetch) (s : State),
    let rows := [Instr.nvmeFlush p y e, .nvmeWrite p y e lists pay, .nvmeRead p y e lists, .nvmeWriteZeroes p y e,
      .nvmeDatasetManagement p y e lists pay]
    (y = 0 ∨ s.mayFetchSq p y = false → ∀ c ∈ rows, exec c s = .next s) ∧
    (y ≠ 0 → s.mayFetchSq p y = true → s.windowOk p ((s.sq p y).base + 64 * (s.sq p y).head) 64 false = true → e = .ur → ∀ c ∈ rows,
      Gives c s fun u => Wrote (s.sqAsked p y) u [B.NVME p + R.NVME_CSTS_CFS.off] ∧ u.flag (B.NVME p) R.NVME_CSTS_CFS = true)) ∧
  (∀ (p : PlotIx) (y : Nat) (l : List Byte) (lists pay : List Fetch) (x : Sqe) (s : State) (m f : Nat), y ≠ 0 → s.nvPosts p m f → s.nvRoom p y →
    let t := s.sqTaken p y
    let ends := fun (st : Nat) (s1 : State) (u : State) => Completed s1 u p y m f x.cid st 0 []
    let n := x.d12 % 2 ^ 16 + 1
    let lba := x.d10 + 2 ^ 32 * x.d11
    let rows := [(0x00, false, Instr.nvmeFlush p y (.ok l)), (0x01, true, .nvmeWrite p y (.ok l) lists pay), (0x02, false, .nvmeRead p y (.ok l) lists),
      (0x08, true, .nvmeWriteZeroes p y (.ok l)), (0x09, true, .nvmeDatasetManagement p y (.ok l) lists pay)]
    let src := (p.val, y, x.cid)
    (∀ c ∈ rows, s.serve p y c.1 l x → s.nsVol p x.nsid = none → Gives c.2.2 s (ends Nvme.badNamespace t)) ∧
    (∀ v, s.nsVol p x.nsid = some v →
      (∀ c ∈ rows, s.serve p y c.1 l x →
        ((s.vol v).online = false → Gives c.2.2 s (ends Nvme.notReady t)) ∧
        ((s.vol v).online = true → c.2.1 = true → s.mode = .survey ∨ s.mode = .trickle → Gives c.2.2 s (ends Nvme.writeProtected t)) ∧
        ((s.vol v).online = true → c.2.1 = true → s.mode = .flowing → (s.vol v).blocked = true ∨ s.failClosed v = true →
          Gives c.2.2 s (ends Nvme.notReady t))) ∧
      ((s.vol v).online = true → s.serve p y 0x00 l x → Gives (.nvmeFlush p y (.ok l)) s (ends Nvme.ok t)) ∧
      ((s.vol v).online = true → ∀ c ∈ [(0x01, true, Instr.nvmeWrite p y (.ok l) lists pay), (0x02, false, .nvmeRead p y (.ok l) lists)],
        s.serve p y c.1 l x → (c.2.1 = true → s.mode = .flowing ∧ (s.vol v).blocked = false ∧ s.failClosed v = false) →
          (256 < n → Gives c.2.2 s (ends Nvme.invalidField t)) ∧
          (n ≤ 256 → 256 * (s.vol v).extents < lba + n → Gives c.2.2 s (ends Nvme.lbaRange t)) ∧
          (n ≤ 256 → lba + n ≤ 256 * (s.vol v).extents →
            (x.prp1 % 4 ≠ 0 → Gives c.2.2 s (ends Nvme.invalidField t)) ∧
            (x.prp1 % 4 = 0 → x.prp1 % s.mps p + 4096 * n ≤ s.mps p → s.windowOk p x.prp1 (4096 * n) (!c.2.1) = false → Gives c.2.2 s fun u =>
              u.flag (B.HPT m) R.HPT_ERR_WINDOW_ERR = true ∧ u.silo.writes = s.silo.writes ∧ u.silo.reads = s.silo.reads ∧
              u.out = t.out ++ t.cqeOuts p y m f x.cid Nvme.transfer 0))) ∧
      ((s.vol v).online = true → s.mode = .flowing → (s.vol v).blocked = false → s.failClosed v = false → s.flag B.PMC R.PMC_CTRL_FREEZE = false →
        (s.serve p y 0x01 l x → n ≤ 256 → lba + n ≤ 256 * (s.vol v).extents → x.prp1 % 4 = 0 → x.prp1 % s.mps p + 4096 * n ≤ s.mps p →
          s.windowOk p x.prp1 (4096 * n) false = true →
          let w : WOp := { WOp.new src v lba n with runs := [(x.prp1, 4096 * n)], id := s.silo.nextId, through := !s.flag B.DEV R.DEV_MODE_WRITEBACK }
          (s.flag B.DEV R.DEV_MODE_WRITEBACK = true → Gives (.nvmeWrite p y (.ok l) lists pay) s fun u =>
            u = { t with silo := { t.silo with nextId := s.silo.nextId + 1, writes := s.silo.writes ++ [w], waiting := s.silo.waiting ++ [w.id] },
                         cnts := u.cnts } ∧
            u.cnt (B.SILO + C.SILO_GRANT_WAITS) = (s.cnt (B.SILO + C.SILO_GRANT_WAITS) +
              if s.silo.waiting ≠ [] ∨ s.grantFits n = false then 1 else 0) % 2 ^ 64) ∧
          (s.flag B.DEV R.DEV_MODE_WRITEBACK = false → s.connOf v = none → (∀ e ∈ extsOf lba n, Ext.valid (s.ext (s.extIx v e)) = true) →
            ∀ d, pay = [.ok d] → (∀ w ∈ s.silo.writes, w.id ≠ s.silo.nextId) → s.silo.nextId ∉ s.silo.waiting →
            Gives (.nvmeWrite p y (.ok l) lists pay) s fun u =>
              u = { t.readRuns p w.runs with silo := { t.silo with
                nextId := s.silo.nextId + 1, writes := s.silo.writes ++ [{ w with began := true, staged := true }],
                cache := roomIn s.silo.cache n ++ (List.range n).map fun i => { vol := v, lba := lba + i, data := fit 4096 ((fit (4096 * n) d).drop (4096 * i)),
                                                                                     st := .staging, seq := w.id, held := false } } })) ∧
        (s.serve p y 0x08 l x → bitOf x.d12 25 = false → lba + n ≤ 256 * (s.vol v).extents → extOf (lba + n - 1) = extOf lba → s.still →
          s.flag B.DEV R.DEV_MODE_WRITEBACK = true → (∀ d, (s.drive d).st = .retiring → s.holdsCols d = true) →
          Gives (.nvmeWriteZeroes p y (.ok l)) s fun u => u.silo.waiting = s.silo.waiting ++ [s.silo.nextId] ∧
            u.silo.writes = s.silo.writes ++ [{ WOp.new src v lba n with zero := true, id := s.silo.nextId, through := false }] ∧
            u.silo.cache = s.silo.cache ∧ u.silo.map = s.silo.map ∧ u.out = t.out) ∧
        (s.serve p y 0x08 l x → 256 * (s.vol v).extents < lba + n → Gives (.nvmeWriteZeroes p y (.ok l)) s (ends Nvme.lbaRange t)) ∧
        (s.serve p y 0x08 l x → bitOf x.d12 25 = true → lba % 256 = 0 → n = 256 → lba + n ≤ 256 * (s.vol v).extents → s.still →
          Gives (.nvmeWriteZeroes p y (.ok l)) s fun u => u.ext (s.extIx v (lba / 256)) = 0 ∧
            (∀ j, j ≠ s.extIx v (lba / 256) → u.ext j = s.ext j) ∧ (∀ i, i < 256 → lba + i < 2 ^ 40 → u.lbaDisk v (lba + i) = zeros4k) ∧
            (∀ b ∈ s.silo.cache, b.inFlight = false → (b ∈ u.silo.cache ↔ ¬ (b.vol = v ∧ extOf b.lba = lba / 256))) ∧
            u.out = t.out ++ t.cqeOuts p y m f x.cid Nvme.ok 0) ∧
        (s.serve p y 0x09 l x → ∀ d, pay = [.ok d] → x.d10 % 256 = 0 → x.prp1 % 4 = 0 → x.prp1 % s.mps p + 16 ≤ s.mps p → s.windowOk p x.prp1 16 false = true →
          let t' := t.readRuns p [(x.prp1, 16)]
          let a := blkAt (fit 16 d) 8 8
          let k := blkAt (fit 16 d) 4 4
          (bitOf x.d11 2 = false → Gives (.nvmeDatasetManagement p y (.ok l) lists pay) s (ends Nvme.ok t')) ∧
          (bitOf x.d11 2 = true → 256 * (s.vol v).extents < a + k → Gives (.nvmeDatasetManagement p y (.ok l) lists pay) s (ends Nvme.lbaRange t')) ∧
          (bitOf x.d11 2 = true → a + k ≤ 256 * (s.vol v).extents → k = 256 → a % 256 = 0 → a < 2 ^ 39 → s.still →
            Gives (.nvmeDatasetManagement p y (.ok l) lists pay) s fun u =>
            u.ext (s.extIx v (a / 256)) = 0 ∧ (∀ i, i < 256 → u.lbaDisk v (a + i) = zeros4k) ∧
            (∀ j, j ≠ s.extIx v (a / 256) → u.ext j = s.ext j) ∧ u.out = t'.out ++ t'.cqeOuts p y m f x.cid Nvme.ok 0))) ∧
      ((s.vol v).online = true → s.serve p y 0x02 l x → s.flag B.PMC R.PMC_CTRL_FREEZE = false → n ≤ 256 → lba + n ≤ 256 * (s.vol v).extents →
        x.prp1 % 4 = 0 → x.prp1 % s.mps p + 4096 * n ≤ s.mps p → s.windowOk p x.prp1 (4096 * n) true = true →
        (s.missingLbas v lba n = [] → Gives (.nvmeRead p y (.ok l) lists) s fun u =>
          let hits := ((List.range' lba n).filter fun a => (s.lbaHit v a).isSome).length
          u.cnt (B.SILO + C.SILO_READ_HITS) = (s.cnt (B.SILO + C.SILO_READ_HITS) + hits) % 2 ^ 64 ∧
          Completed { t with cnts := u.cnts } u p y m f x.cid Nvme.ok 0 (t.runOuts m f [(x.prp1, 4096 * n)] (s.rangeData v lba n))) ∧
        (s.missingLbas v lba n ≠ [] → Gives (.nvmeRead p y (.ok l) lists) s fun u =>
          u = { t with silo := { t.silo with nextId := s.silo.nextId + 1,
                                             reads := s.silo.reads ++ [{ id := s.silo.nextId, src := src, vol := v, lba := lba, n := n,
                                                                         runs := [(x.prp1, 4096 * n)] }] } })))) ∧
  (∀ (pay : List Fetch) (s : State) (w : WOp) (rest : List Nat),
    let live := s.domOn 74 = true ∧ s.domOn 65 = true ∧ s.mode ≠ .drain ∧ s.mode ≠ .fallow
    let head := s.silo.waiting = w.id :: rest ∧ s.silo.writes.find? (·.id = w.id) = some w
    (s.silo.waiting = [] → exec (.reservationGrant pay) s = .next s) ∧
    (head → ¬ live ∨ s.peerRoom w = false → exec (.reservationGrant pay) s = .next s) ∧
    (head → s.flag B.DEV R.DEV_MODE_WRITEBACK = true → s.grantFits w.n = false → exec (.reservationGrant pay) s = .next s) ∧
    (head → live → s.peerRoom w = true → s.flag B.DEV R.DEV_MODE_WRITEBACK = false ∨ s.grantFits w.n = true →
      (∀ e ∈ extsOf w.lba w.n, Ext.valid (s.ext (s.extIx w.vol e)) = true) → s.connOf w.vol = none →
      ∀ data, (w.zero = true ∧ data = []) ∨ (w.zero = false ∧ ∃ r d, w.runs = [r] ∧ pay = [.ok d] ∧ data = fit r.2 d) →
      let wb := s.flag B.DEV R.DEV_MODE_WRITEBACK
      let t := match w.zero, w.src with
        | false, some (p, _) => s.readRuns p w.runs
        | _, _ => s
      Gives (.reservationGrant pay) s fun u =>
        u.silo.waiting = s.silo.waiting.filter (· ≠ w.id) ∧
        u.silo.writes = s.silo.writes.map (fun z => if z.id = w.id then { z with began := true, staged := true, granted := wb, through := !wb } else z) ∧
        u.silo.cache = roomIn s.silo.cache w.n ++ (List.range w.n).map (fun i => { vol := w.vol, lba := w.lba + i, data := fit 4096 (data.drop (4096 * i)),
                                                                                   st := .staging, seq := w.id, held := wb }) ∧
        u = { t with silo := { s.silo with waiting := u.silo.waiting, writes := u.silo.writes, cache := u.silo.cache } }) ∧
    (head → live → s.peerRoom w = true → s.flag B.DEV R.DEV_MODE_WRITEBACK = false ∨ s.grantFits w.n = true →
      ∀ p y cid m f, w.src = some (p, y, cid) → s.nvPosts p m f → s.nvRoom p y →
        let fails := fun (st : Nat) (t u : State) => u.silo.writes = s.silo.writes.filter (·.id ≠ w.id) ∧ w.id ∉ u.silo.waiting ∧
          u.out = t.out ++ s.cqeOuts p y m f cid st 0
        ((∃ e ∈ extsOf w.lba w.n, Ext.valid (s.ext (s.extIx w.vol e)) = false) → ¬ s.hasPlace (s.vol w.vol).scheme →
          Gives (.reservationGrant pay) s (fails Nvme.capacity s)) ∧
        ((∀ e ∈ extsOf w.lba w.n, Ext.valid (s.ext (s.extIx w.vol e)) = true) → w.zero = false → w.runs ≠ [] → pay = [] →
          Gives (.reservationGrant pay) s (fails Nvme.transfer (s.readRuns p w.runs))))) ∧
  (∀ (pay : List Fetch) (s : State) (id : Nat) (rest : List Nat), s.silo.waiting = id :: rest → s.silo.writes.find? (·.id = id) = none →
    Gives (.reservationGrant pay) s fun u => u = { s with silo := { s.silo with waiting := s.silo.waiting.filter (· ≠ id) } }) ∧
  (∀ (id : Nat) (s : State) (w : WOp), s.silo.writes.find? (·.id = id) = some w →
    let ready := w.staged = true ∧ w.granted = true ∧ w.through = false ∧ w.peer = none ∧ s.flag B.DEV R.DEV_MODE_WRITEBACK = true
    let closed := ∃ z, w.peer = some z ∧ s.connClosed z.1 = true
    (closed → ∀ p y cid m f, w.src = some (p, y, cid) → s.nvPosts p m f → s.nvRoom p y → Gives (.writeAcknowledge id) s fun u =>
      u.silo.writes = s.silo.writes.filter (·.id ≠ w.id) ∧ u.out = s.out ++ s.cqeOuts p y m f cid Nvme.notReady 0) ∧
    (¬ closed → ¬ ready → exec (.writeAcknowledge id) s = .next s) ∧
    (ready → s.flag B.PMC R.PMC_CTRL_FREEZE = false → ∀ p y cid m f, w.src = some (p, y, cid) → w.parts = [] → s.nvPosts p m f → s.nvRoom p y →
      Gives (.writeAcknowledge id) s fun u =>
        let mine := s.silo.cache.filter fun b => b.inFlight && b.seq = id
        let newer := fun (b : Block) => mine.any fun c => c.vol = b.vol && c.lba = b.lba
        u.silo.cache = (s.silo.cache.filter fun b => !(b.inFlight && b.seq = id) && !(!b.inFlight && newer b)) ++
          mine.map (fun b => { b with st := .dirty, seq := s.silo.nextSeq }) ∧
        u.silo.nextSeq = s.silo.nextSeq + 1 ∧ u.silo.writes = s.silo.writes.filter (·.id ≠ id) ∧
        u.cnt (B.SILO + C.SILO_WRITES_ACKED) = (s.cnt (B.SILO + C.SILO_WRITES_ACKED) + 1) % 2 ^ 64 ∧
        u.out = s.out ++ s.cqeOuts p y m f cid Nvme.ok 0) ∧
    (ready → ∀ lba n rest, w.parts = (lba, n) :: rest → Gives (.writeAcknowledge id) s fun u =>
      u.silo.waiting = s.silo.waiting ++ [s.silo.nextId] ∧ u.out = s.out ∧
      u.silo.writes = s.silo.writes.filter (·.id ≠ id) ++ [{ w with id := s.silo.nextId, lba := lba, n := n, parts := rest, granted := false,
                                                                    began := true, staged := false, peer := none }])) ∧
  (∀ (id : Nat) (s : State), s.silo.writes.find? (·.id = id) = none → exec (.writeAcknowledge id) s = .next s) ∧
  (∀ (id : Nat) (bad : List DriveIx) (s : State), s.silo.reads.find? (·.id = id) = none → exec (.driveReadDone id bad) s = .next s) ∧
  (∀ (id : Nat) (bad : List DriveIx) (s : State) (r : ROp) (p y cid m f : Nat), s.silo.reads.find? (·.id = id) = some r → r.src = (p, y, cid) →
    s.nvPosts p m f → s.nvRoom p y → s.flag B.PMC R.PMC_CTRL_FREEZE = false →
    let good := fun l => ((Ext.drives (s.ext (s.extIx r.vol (extOf l)))).zipIdx.filter fun d =>
      s.driveOn d.1 && !bitOf (s.staleCols (s.extIx r.vol (extOf l))) d.2 && bad.all (fun b => b.val ≠ d.1)).length
    let short := ∃ l ∈ s.missingLbas r.vol r.lba r.n,
      good l < schemeNeed (Ext.scheme (s.ext (s.extIx r.vol (extOf l)))) ∨ diskKey r.vol l ∈ s.silo.badBlks
    let t := { s with silo := { s.silo with reads := s.silo.reads.filter (·.id ≠ id) } }
    (short → Gives (.driveReadDone id bad) s fun u =>
      u.cnt (B.SILO + C.SILO_READ_UNRECOVERED) = (s.cnt (B.SILO + C.SILO_READ_UNRECOVERED) + 1) % 2 ^ 64 ∧
      Completed { t with cnts := u.cnts } u p y m f cid Nvme.unrecovered 0 []) ∧
    (¬ short → Gives (.driveReadDone id bad) s fun u =>
      Completed { t with cnts := u.cnts } u p y m f cid Nvme.ok 0 (s.runOuts m f r.runs (s.rangeData r.vol r.lba r.n)))) ∧
  (∀ (p : Nat) (x : Sqe) (len : Nat) (lists : List Fetch) (s : State), 0 < len →
    let ps := s.mps p
    let n1 := min len (ps - x.prp1 % ps)
    let ptr := s.prpRuns p x len lists
    (x.prp1 % 4 ≠ 0 → ptr = (s, .error Nvme.invalidField)) ∧
    (x.prp1 % 4 = 0 → len ≤ n1 → ptr = (s, .ok [(x.prp1, len)])) ∧
    (x.prp1 % 4 = 0 → n1 < len → len - n1 ≤ ps →
      ptr = if x.prp2 % ps = 0 then (s, .ok [(x.prp1, n1), (x.prp2, len - n1)]) else (s, .error Nvme.invalidField)) ∧
    (x.prp1 % 4 = 0 → n1 + ps < len →
      let need := (len - n1 + ps - 1) / ps
      (lists = [] → ptr = (s, .error Nvme.transfer)) ∧
      (∀ l, lists = [.ok l] → x.prp2 % 8 = 0 → need ≤ (ps - x.prp2 % ps) / 8 → s.windowOk p x.prp2 (8 * need) false = true →
        (∀ i, i < need → blkAt l (8 * i) 8 % ps = 0) →
        ptr = (s.plotRead p x.prp2 (8 * need), .ok ((x.prp1, n1) :: (List.range need).map fun i => (blkAt l (8 * i) 8, min ps (len - n1 - ps * i)))))))


/-- R23, R377 to R379, R381, Tables 15.9 and 15.11: Conduit replication. -/
def Obligations.Conduit : Prop :=
  (∀ (c : Conn) (gen psn lba : Nat) (data : List Byte) (s : State), ¬ (s.domOn 74 = true ∧ s.connState c = 1 ∧
      s.rd (connBase c) R.CND_CONN_CFG_GEN = gen) →
    exec (.conduitAckRx c gen psn) s = .next s ∧ exec (.conduitNakRx c gen) s = .next s ∧ exec (.conduitDataRx c gen psn lba data) s = .next s) ∧
  (∀ (c : Conn) (gen psn lba : Nat) (data : List Byte) (s : State), s.domOn 74 = true → s.connState c = 1 →
    s.rd (connBase c) R.CND_CONN_CFG_GEN = gen → s.flag B.PMC R.PMC_CTRL_FREEZE = false →
    let x := s.conn c
    let b := connBase c
    let up := fun (u : State) (k n : Nat) => u.cnt (connCnt c k) = (s.cnt (connCnt c k) + n) % 2 ^ 64
    let again := x.sent.map fun p => Out.conduit c "DATA" p.psn p.data
    let resent := fun (u : State) (y : ConnSt) => u.out = s.out ++ again ∧ up u C.CND_RETRANSMITS x.sent.length ∧ u.conn c = y ∧
      u = { s with silo := { s.silo with conns := u.silo.conns }, cnts := u.cnts, out := u.out }
    let failed := fun (u : State) => u.connState c = 2 ∧ (u.conn c).sent = [] ∧ u.sticky 23 = true ∧ (∀ w ∈ u.silo.writes, ∀ k, w.peer = some k → k.1 ≠ c.val) ∧
      (s.flag b R.CND_CONN_CFG_FAILMODE = false → ∀ w ∈ s.silo.writes, ∀ k, w.peer = some k → k.1 = c.val → ∀ e ∈ extsOf w.lba w.n, s.extIx w.vol e ∈ u.silo.marks)
    (x.sent ≠ [] →
      (s.now < x.at_ + x.rto * us 100 → exec (.conduitRto c) s = .next s) ∧
      (x.tries < 8 → Gives (.conduitNakRx c gen) s (resent · { x with tries := x.tries + 1, at_ := s.now }) ∧
        (x.at_ + x.rto * us 100 ≤ s.now →
          Gives (.conduitRto c) s (resent · { x with tries := x.tries + 1, rto := min 32 (2 * x.rto), at_ := s.now }))) ∧
      (8 ≤ x.tries → s.mild 23 → s.jobs = [] → (∀ w ∈ s.silo.writes, w.parts = [] ∧ w.through = false) → Gives (.conduitNakRx c gen) s failed ∧
        (x.at_ + x.rto * us 100 ≤ s.now → Gives (.conduitRto c) s failed)) ∧
      Gives (.conduitRnrRetry c) s (resent · { x with at_ := s.now })) ∧
    (x.sent = [] → exec (.conduitNakRx c gen) s = .next s ∧ exec (.conduitRto c) s = .next s ∧ exec (.conduitRnrRetry c) s = .next s) ∧
     (let covered := fun (q : Nat) => decide ((psn + 2 ^ 24 - q % 2 ^ 24) % 2 ^ 24 < 2 ^ 23)
      ((∀ p ∈ x.sent, covered p.psn = false) → exec (.conduitAckRx c gen psn) s = .next s) ∧
      ((∃ p ∈ x.sent, covered p.psn = true) → (∀ w ∈ s.silo.writes, w.through = false) → Gives (.conduitAckRx c gen psn) s fun u =>
        let left := x.sent.filter fun p => !covered p.psn
        u.conn c = { x with sent := left, tries := 0, rto := 1, at_ := s.now } ∧ (∀ k, k ≠ c.val → u.conn k = s.conn k) ∧
        u.rd b R.CND_CONN_OLDEST_OLDEST = ((left.map (·.psn)).headD (s.rd b R.CND_CONN_STATE_NEXT_PSN)) % 2 ^ 24 ∧
        u.silo.writes = s.silo.writes.map (fun w => if (w.peer.any fun z => z.1 = c.val && covered z.2) then { w with peer := none } else w) ∧
        u = { s with silo := { s.silo with conns := u.silo.conns, writes := u.silo.writes }, regs := u.regs })) ∧
     (let e := s.rd b R.CND_CONN_RX_EXPECT
      let d := (psn + 2 ^ 24 - e % 2 ^ 24) % 2 ^ 24
      let only := fun (u : State) => u = { s with cnts := u.cnts, out := u.out }
      (d = 0 → ∀ v, x.localVol = some v →
        (s.flag B.DEV R.DEV_MODE_WRITEBACK = true → (s.vol v).live = true → (s.vol v).online = true → (s.vol v).blocked = false →
          lba < 256 * (s.vol v).extents → s.silo.waiting = [] → s.grantFits 1 = true → Ext.valid (s.ext (s.extIx v (extOf lba))) = true →
          (∀ k ∈ s.silo.cache, k.inFlight = true → k.seq ≠ s.silo.nextId) → (∀ w ∈ s.silo.writes, w.id ≠ s.silo.nextId) →
          Gives (.conduitDataRx c gen psn lba data) s fun u => u.rd b R.CND_CONN_RX_EXPECT = (e + 1) % 2 ^ 24 ∧
            u.out = s.out ++ [.conduit c "ACK" e []] ∧ u.cnt (connCnt c C.CND_RNR) = s.cnt (connCnt c C.CND_RNR) ∧
            u.silo.cache = ((roomIn s.silo.cache 1).filter fun k => k.inFlight || !(k.vol = v && k.lba = lba)) ++
              [{ vol := v, lba := lba, data := fit 4096 data, st := .dirty, seq := s.silo.nextSeq, held := true }]) ∧
        (s.flag B.DEV R.DEV_MODE_WRITEBACK = false ∨ s.silo.waiting ≠ [] ∨ s.grantFits 1 = false ∨ (s.vol v).blocked = true →
          Gives (.conduitDataRx c gen psn lba data) s fun u => only u ∧ up u C.CND_RNR 1 ∧ u.out = s.out ++ [.conduit c "RNR" e []])) ∧
      (d = 0 → x.localVol = none → Gives (.conduitDataRx c gen psn lba data) s fun u => only u ∧ up u C.CND_RNR 1 ∧ u.out = s.out ++ [.conduit c "RNR" e []]) ∧
      (1 ≤ d → d < 2 ^ 22 → Gives (.conduitDataRx c gen psn lba data) s fun u => only u ∧ up u C.CND_OOO_RX 1 ∧ u.out = s.out ++ [.conduit c "NAK" e []]) ∧
      (2 ^ 22 ≤ d → d < 2 ^ 23 → Gives (.conduitDataRx c gen psn lba data) s fun u => only u ∧ up u C.CND_BAD_PSN 1 ∧ u.out = s.out) ∧
      (2 ^ 23 ≤ d → Gives (.conduitDataRx c gen psn lba data) s fun u => only u ∧ up u C.CND_DUP_RX 1 ∧
        u.out = s.out ++ [.conduit c "ACK" ((e + 2 ^ 24 - 1) % 2 ^ 24) []]))) ∧
  (∀ (q : Req) (s : State) (c : Cmd),
    let n := c.u8 8
    let cfg := c.u32 12
    let vol := c.u16 34
    let b := connBase n
    (s.holds q 0x0520 c →
      let bad := 64 ≤ n ∨ 95 < bitsOf cfg 23 16 ∨ 4096 ≤ c.u16 32 ∨ 4096 ≤ vol ∨ (s.vol vol).live = false
      (s.domOn 74 = false ∨ bad → Gives (.cndConnSet q) s (Ends q St.BAD_ARGUMENT [] s)) ∧
      (s.domOn 74 = true → ¬ bad → s.volForeign q vol = true → Gives (.cndConnSet q) s (Ends q St.REFUSED [] s)) ∧
      (s.domOn 74 = true → ¬ bad → s.volForeign q vol = false → (∀ w ∈ s.silo.writes, w.through = false) →
        let set := fun (u : State) => u.flag b R.CND_CONN_CFG_EN = bitOf cfg 31 ∧ u.flag b R.CND_CONN_CFG_FAILMODE = bitOf cfg 30 ∧
          u.rd b R.CND_CONN_CFG_ETHPORT = bitsOf cfg 23 16 ∧ u.rd b R.CND_CONN_CFG_GEN = cfg % 2 ^ 16 ∧
          u.connState n = (if bitOf cfg 31 then 1 else 0) ∧ u.rd b R.CND_CONN_RX_EXPECT = 0
        let fresh : ConnSt := { ConnSt.init with addr := c.bytes 16 16, peerVol := c.u16 32, localVol := some vol }
        ((∀ w ∈ s.silo.writes, ∀ z, w.peer = some z → z.1 ≠ n) → Gives (.cndConnSet q) s fun t => ∃ u, Ends q St.DONE [] u t ∧ set u ∧
          u.rd b R.CND_CONN_STATE_NEXT_PSN = 0 ∧ u.rd b R.CND_CONN_OLDEST_OLDEST = 0 ∧ u.conn n = fresh ∧ (∀ k, k ≠ n → u.conn k = s.conn k) ∧
          (∀ p ∈ (s.conn n).sent, s.extIx ((s.conn n).localVol.getD 0) (extOf p.lba) ∈ u.silo.marks) ∧ (∀ i ∈ s.silo.marks, i ∈ u.silo.marks) ∧
          u = { s with silo := { s.silo with conns := u.silo.conns, marks := u.silo.marks }, regs := u.regs } ∧
          ∀ a, a ∉ [b, b + 4, b + 8, b + 0xC].map (· + R.CND_CONN_CFG_EN.off) → u.reg a = s.reg a) ∧
        (∀ w k, s.silo.writes = [w] → w.peer = some (n, k) → w.vol = vol → bitOf cfg 31 = true →
          (∀ j, j < n → s.flag (connBase j) R.CND_CONN_CFG_EN = false ∨ (s.conn j).localVol ≠ some vol) →
          let l := s.stagedBlocks w
          Gives (.cndConnSet q) s fun t => ∃ u, Ends q St.DONE [] u t ∧ set u ∧ u.rd b R.CND_CONN_STATE_NEXT_PSN = l.length % 2 ^ 24 ∧
            (u.conn n).sent.map (fun p => (p.vol, p.lba, p.data)) = l.map (fun e => (c.u16 32, e)) ∧
            u.silo.writes = [{ w with peer := some (n, psnSub (l.length % 2 ^ 24) 1) }]))) ∧
    (s.holds q 0x0521 c →
      (s.domOn 74 = false ∨ 64 ≤ n → Gives (.cndStatus q) s (Ends q St.BAD_ARGUMENT [] s)) ∧
      (s.domOn 74 = true → n < 64 → Gives (.cndStatus q) s (Ends q St.DONE
        ((List.range 4).flatMap fun i => leBytes 4 (s.reg (b + R.CND_CONN_CFG_EN.off + 4 * i)).toNat) s))))

/-- R368, R370 to R372, R381, R456, Tables 15.11 and 15.12: the ledger, the charger, the capacity test, and the CIST commands. -/
def Obligations.CisternLedger : Prop :=
  (∀ (a b : Nat) (s : State),
    let lo := min a b
    let vb := ((s.cist.reads.filter fun r => decide (s.now ≤ r.1 + us 100)).map (·.2)).foldl min lo
    let peaks := (s.cist.peaks.filter fun r => decide (s.now ≤ r.1 + ms 10)) ++ [(s.now, vb)]
    let top := (peaks.map (·.2)).foldl max vb
    let agree := 100 * (max a b - lo) ≤ 2 * lo
    let calm := s.cist.bleed = none ∧ top - vb ≤ s.rd B.CIST R.CIST_COLL_VCOLL_DROP ∧ s.cist.ovp = false ∧
      100 * vb ≤ 105 * s.rd B.CIST R.CIST_LIMIT_VCHG_MAX ∧ vb < 2 ^ 16 ∧ s.cist.overAt = none ∧ s.sticky 11 = false ∧ s.jobs = []
    let vmin := s.rd B.CIST R.CIST_DRAIN_V_MIN
    let euse := s.cist.cm * (vb * vb - vmin * vmin) * s.rd B.CIST R.CIST_LEDGER_EFF * (100 - s.rd B.CIST R.CIST_LEDGER_MARGIN)
    let bud := min 131072 ((euse - s.rd B.CIST R.CIST_LEDGER_E_FIX * (2 * 10 ^ 11)) * s.rd B.CIST R.CIST_WRATE_W /
      (2 * 10 ^ 7 * s.rd B.CIST R.CIST_DRAIN_P_D * 4128))
    let th := 256 * s.rd B.CIST R.CIST_CFG_WB_MIN
    let pace := ∀ r, s.cist.reads.getLast? = some r → r.1 + us 10 ≤ s.now
    (¬ pace → exec (.ledgerRecompute a b) s = .next s) ∧
    (pace → calm → s.mode ≠ .drain → s.mild 11 →
      (agree → s.cist.senseOk = true → s.heldBlocks ≤ bud → Gives (.ledgerRecompute a b) s fun u =>
        u.rd B.CIST R.CIST_VBANK_V_B = vb ∧ u.rd B.CIST R.CIST_BUDGET_B = bud ∧ u.rd B.CIST R.CIST_EUSE_E_USE = min 0xFFFF (euse / (2 * 10 ^ 11)) ∧
        u.flag B.PWR R.PWR_PINS_SENSE_OK = true ∧ u.cist.senseOk = true ∧
        u.cist.peaks = peaks ∧ (s.now, lo) ∈ u.cist.reads ∧
        (th ≤ bud → (∃ t, s.cist.aboveAt = some t ∧ t + ms 1000 ≤ s.now) → u.rd B.CIST R.CIST_STATUS_ABOVE = 1) ∧
        (2 * bud < th → u.rd B.CIST R.CIST_STATUS_ABOVE = 0) ∧
        (bud < th → th ≤ 2 * bud → u.rd B.CIST R.CIST_STATUS_ABOVE = s.rd B.CIST R.CIST_STATUS_ABOVE) ∧
        (s.flag B.CIST R.CIST_CFG_CHG_EN = false → u.cist.chg = false) ∧
        (s.flag B.CIST R.CIST_CFG_CHG_EN = true → s.vChg ≤ vb → u.cist.chg = false ∧ u.cist.full = true) ∧
        (s.flag B.CIST R.CIST_CFG_CHG_EN = true → vb + 20 < s.vChg → u.cist.chg = true ∧ u.cist.full = false) ∧
        (s.flag B.CIST R.CIST_CFG_CHG_EN = true → vb < s.vChg → s.vChg ≤ vb + 20 → u.cist.chg = s.cist.chg) ∧
        u.mode = s.mode ∧ u.silo.cache = s.silo.cache ∧ u.vault = s.vault) ∧
      (¬ agree → s.cist.senseOk = true → (∀ t, s.cist.differAt = some t → s.now < t + us 100) → Gives (.ledgerRecompute a b) s fun u =>
        u.cist.senseOk = true ∧ u.flag B.PWR R.PWR_PINS_SENSE_OK = false ∧ u.cist.differAt = some (s.cist.differAt.getD s.now)) ∧
      (∀ t, ¬ agree → s.cist.differAt = some t → t + us 100 ≤ s.now → Gives (.ledgerRecompute a b) s fun u =>
        u.cist.senseOk = false ∧ u.rd B.CIST R.CIST_BUDGET_B = 0) ∧
      (agree → s.cist.senseOk = true → bud < s.heldBlocks → s.flag B.DEV R.DEV_MODE_VAULT_PENDING = false →
        Gives (.ledgerRecompute a b) s fun u => u.sticky 11 = true ∧ u.cist.overAt = some s.now))) ∧
  (∀ (a b : Nat) (s : State), s.cist.ovp = false → s.cist.bleed = none → s.cist.high = 1 → s.sev 1 = 4 → s.mode = .flowing → s.cist.overAt = none →
    s.heldBlocks = 0 → s.sticky 11 = false → s.cist.reads = [] → s.cist.peaks = [] →
    105 * s.rd B.CIST R.CIST_LIMIT_VCHG_MAX < 100 * min a b → Gives (.ledgerRecompute a b) s fun u =>
      u.cist.ovp = true ∧ u.cist.chg = false ∧ u.mode = .drain) ∧
  (∀ s : State, (s.cist.overAt = none → exec .overPersist s = .next s) ∧
    ∀ t, s.cist.overAt = some t →
      let lasts := s.over = true ∧ s.cist.overDeg = false ∧ s.flag B.DEV R.DEV_MODE_VAULT_PENDING = false ∧ t + ms 1000 ≤ s.now
      (¬ lasts → exec .overPersist s = .next s) ∧
      (lasts → s.mild 12 → Gives .overPersist s fun u => u.sticky 12 = true ∧ u.cist = { s.cist with overDeg := true })) ∧
  (∀ (rate : Nat) (ok : Bool) (s : State),
    let runs := s.domOn 75 = true ∧ s.mode ≠ .drain ∧ s.mode ≠ .fallow ∧ s.restorePending = false ∧
      ∀ t, s.cist.probeAt = some t → t + 600 * ms 1000 ≤ s.now
    (¬ runs → exec (.vaultProbe rate ok) s = .next s) ∧
    (runs → ok = false → exec (.vaultProbe rate ok) s = .next { s with cist := { s.cist with probeAt := some s.now } }) ∧
    (runs → ok = true → Gives (.vaultProbe rate ok) s fun u =>
      let l := s.cist.probes ++ [min 0xFFFF rate]
      u.cist = { s.cist with probeAt := some s.now, probes := l.drop (l.length - 6) } ∧ (∀ r ∈ u.cist.probes, u.rd B.CIST R.CIST_WRATE_W ≤ r) ∧
      u.rd B.CIST R.CIST_WRATE_W ∈ u.cist.probes ∧
      u = { s with cist := u.cist, regs := u.regs } ∧ ∀ a, a ≠ B.CIST + R.CIST_WRATE_W.off → u.reg a = s.reg a)) ∧
  (∀ s : State,
    let bleeds := fun (u : State) (v : Nat) => u.cist = { s.cist with bleed := some (s.now, v) } ∧ u.out = s.out ++ [.pin "CIST_BLEED_EN" true] ∧
      u.flag B.PWR R.PWR_PINS_BLEED_EN = true
    (s.testReady = false ∨ s.testAge < 24 → exec .capacityTestStart s = .next s) ∧
    (s.testReady = true → 24 ≤ s.testAge → Gives .capacityTestStart s (bleeds · s.vChg)) ∧
    (s.cist.bleed = none → exec .capacityTestEnd s = .next s ∧ exec .capacityTestAbandon s = .next s) ∧
    (∀ t v, s.cist.bleed = some (t, v) →
      let stopped := fun (u : State) => u.cist.bleed = none ∧ u.cist.recharge = true ∧ u.flag B.PWR R.PWR_PINS_BLEED_EN = false ∧
        u.out = s.out ++ [.pin "CIST_BLEED_EN" false]
      let late := t + 2 * (s.cist.cm * 5 * v) + ms 100 < s.now
      (95 * v < 100 * s.rd B.CIST R.CIST_VBANK_V_B ∨ s.testInterrupted = true ∨ late → exec .capacityTestEnd s = .next s) ∧
      (100 * s.rd B.CIST R.CIST_VBANK_V_B ≤ 95 * v → s.testInterrupted = false → ¬ late → s.jobs = [] → Gives .capacityTestEnd s fun u => stopped u ∧
        u.cist.cm = min 0xFFFF ((s.now - t) / (5 * v)) ∧ u.testAge = 0 ∧
        (s.domOn 75 = true → u.vault = { s.vault with rec_ := some (u.cist.cm, 0) }) ∧ (s.domOn 75 = false → u.vault = s.vault)) ∧
      (s.testInterrupted = false → ¬ late → exec .capacityTestAbandon s = .next s) ∧
      (s.testInterrupted = true ∨ late → s.jobs = [] → Gives .capacityTestAbandon s fun u => stopped u ∧
        u.cist.cm = s.cist.cm ∧ u.cist.ageAt = s.cist.ageAt ∧ u.vault = s.vault)) ∧
    let hour := ∀ t, s.cist.recAt = some t → t + 3600 * ms 1000 ≤ s.now
    (s.domOn 75 = false ∨ ¬ hour → exec .ledgerRecordWrite s = .next s) ∧
    (s.domOn 75 = true → hour → exec .ledgerRecordWrite s = .next
      { s with vault := { s.vault with rec_ := some (s.cist.cm, s.testAge) }, cist := { s.cist with recAt := some s.now } })) ∧
  (∀ (q : Req) (s : State) (c : Cmd),
    let retry := fun (t : State) => (t.tag q).cur = none ∧ s.resultOnly t q ∧
      (t.tag q).fin.map (fun f => (f.status, f.retry)) = some (St.BUSY_RETRY, 1000)
    (s.holds q 0x0510 c → Gives (.cistStatus q) s (Ends q St.DONE ((List.range 7).flatMap fun i => leBytes 4 (s.cistView (0x20 + 4 * i))) s)) ∧
    (s.holds q 0x0511 c →
      let regs : List (Nat × Nat) := [(8, 0x00), (12, 0x04), (16, 0x08), (20, 0x0C), (24, 0x14)]
      let takes := ∀ w ∈ regs, wordTakes (B.CIST + w.2) (c.u32 w.1) = true
      let clash := s.flag B.CIST R.CIST_LOCK_CLOCK = true ∧ ∃ w ∈ regs.drop 1, wordFields (B.CIST + w.2) (c.u32 w.1) ≠ (s.reg (B.CIST + w.2)).toNat
      (¬ takes → Gives (.cistSet q) s (Ends q St.BAD_ARGUMENT [] s)) ∧
      (takes → clash → Gives (.cistSet q) s (Ends q St.REFUSED [] s)) ∧
      (takes → ¬ clash → Gives (.cistSet q) s fun t => ∃ u, Ends q St.DONE [] u t ∧
        (∀ w ∈ regs, (u.reg (B.CIST + w.2)).toNat = wordFields (B.CIST + w.2) (c.u32 w.1)) ∧
        (u.flag B.CIST R.CIST_LOCK_CLOCK = (s.flag B.CIST R.CIST_LOCK_CLOCK || bitOf (c.u8 28) 0)) ∧
        Wrote s u (0x10 :: regs.map (·.2) |>.map (B.CIST + ·)))) ∧
    (s.holds q 0x0512 c →
      (s.held [0x0512] 0 = true → Gives (.cistTest q) s retry) ∧
      (s.held [0x0512] 0 = false → s.cist.bleed = none → s.testReady = false → Gives (.cistTest q) s retry) ∧
      (s.held [0x0512] 0 = false → s.cist.bleed ≠ none → Gives (.cistTest q) s fun u => u = { s with jobs := u.jobs } ∧ u.held [0x0512] 0 = true ∧
        (u.tag q).cur = some c) ∧
      (s.held [0x0512] 0 = false → s.testReady = true → Gives (.cistTest q) s fun u => u.held [0x0512] 0 = true ∧ (u.tag q).cur = some c ∧
        u.cist = { s.cist with bleed := some (s.now, s.vChg) })))

/-- R89, R105, R373 to R376, Tables 15.7 and 15.10, R435: the vault restore, the save and the end of a Drain, and the wear scan. -/
def Obligations.VaultAndDrain : Prop :=
  (∀ (ok : Bool) (s : State),
    let k := s.silo.restoring.getD 0
    let due := stepState s.modes.steps .restore = some .running ∧ s.flag B.DEV R.DEV_MODE_VAULT_PENDING = true ∧ s.domOn 75 = true ∧
      s.domOn 65 = true ∧ k ≤ s.vault.chunks.length ∧ (s.silo.restoring ≠ none → k < s.vault.chunks.length)
    let block := fun (u : State) (r : VRec) => ({ vol := r.vol, lba := r.lba, data := s.recData r, st := .dirty, seq := r.seq, held := true } : Block) ∈ u.silo.cache
    (¬ due → exec (.vaultRestoreChunk ok) s = .next s) ∧
    (due → s.silo.vaultKey = false → s.mild 14 → Gives (.vaultRestoreChunk ok) s fun u => u.vault.hdr = 4 ∧ u.vault.chunks = [] ∧
      u.vault.pending = false ∧ u.flag B.DEV R.DEV_MODE_VAULT_PENDING = false ∧ u.sticky 14 = true ∧ u.silo.cache = s.silo.cache) ∧
    (due → s.silo.vaultKey = true → ok = true → k + 1 < s.vault.chunks.length → Gives (.vaultRestoreChunk ok) s fun u =>
      u.silo.restoring = some (k + 1) ∧ u.vault = s.vault ∧ ((s.vault.chunks.getD k []).Pairwise (fun a b => (a.vol, a.lba) ≠ (b.vol, b.lba)) →
        ∀ r ∈ s.vault.chunks.getD k [], block u r) ∧
      (∀ b ∈ s.silo.cache, b.inFlight = true ∨ (∀ r ∈ s.vault.chunks.getD k [], (r.vol, r.lba) ≠ (b.vol, b.lba)) → b ∈ u.silo.cache) ∧
      u = { s with silo := { s.silo with cache := u.silo.cache, restored := u.silo.restored, restoring := u.silo.restoring, nextSeq := u.silo.nextSeq } }) ∧
    (due → s.silo.vaultKey = true → ok = true → k + 1 = s.vault.chunks.length → s.vault.hdr = 2 ∨ (s.vault.hdr = 1 ∧ s.mild 14) → s.busy = false → s.modes.waiting = [] →
      s.modes.forced = false → s.vault.chunks.getD k [] ≠ [] → Gives (.vaultRestoreChunk ok) s fun u =>
      u.vault = { s.vault with hdr := 3 } ∧ u.silo.restoring = some (k + 1) ∧ u.flag B.DEV R.DEV_MODE_VAULT_PENDING = true ∧ (s.vault.hdr = 1 → u.sticky 14 = true) ∧
      ((s.vault.chunks.getD k []).Pairwise (fun a b => (a.vol, a.lba) ≠ (b.vol, b.lba)) → ∀ r ∈ s.vault.chunks.getD k [], block u r)) ∧
    (due → s.silo.vaultKey = true → ok = false ∨ s.vault.chunks = [] → s.mild 14 → s.busy = false → s.modes.waiting = [] → s.modes.forced = false →
      s.silo.restored ≠ [] → Gives (.vaultRestoreChunk ok) s fun u => u.vault = { s.vault with hdr := 3 } ∧ u.sticky 14 = true ∧
        u.silo.cache = s.silo.cache ∧ u.silo.restoring = some s.vault.chunks.length)) ∧
  (∀ (ok : Bool) (s : State),
    (s.mode ≠ .drain → exec (.vaultChunkWritten ok) s = .next s ∧ exec .drainComplete s = .next s ∧ exec .flushLate s = .next s) ∧
    (s.mode = .drain →
      ((∀ c cs r, s.silo.save ≠ .chunks (c :: cs) r) → exec (.vaultChunkWritten ok) s = .next s) ∧
      (∀ c cs r, s.silo.save = .chunks (c :: cs) r →
        (ok = true → cs ≠ [] → Gives (.vaultChunkWritten ok) s fun u =>
          u = { s with vault := { s.vault with chunks := s.vault.chunks ++ [c] }, silo := { s.silo with save := .chunks cs false } }) ∧
        (ok = true → cs = [] → s.domOn 75 = true → Gives (.vaultChunkWritten ok) s fun u => u = { s with
          vault := { s.vault with chunks := s.vault.chunks ++ [c], rec_ := some (s.cist.cm, s.testAge), hdr := 2 },
          silo := { s.silo with save := .flush s.now }, out := s.out ++ [.drive 32 "FLUSH" 0 0] }) ∧
        (ok = false → r = false → Gives (.vaultChunkWritten ok) s fun u => u = { s with silo := { s.silo with save := .chunks (c :: cs) true } })) ∧
      (∀ l r, s.silo.save = .chunks l r → exec .drainComplete s = .next s) ∧
      ((∀ t, s.silo.save ≠ .flush t) → exec .flushLate s = .next s) ∧
      (∀ t, s.silo.save = .flush t → s.now < t + ms 250 → exec .flushLate s = .next s) ∧
      (s.modes.resetAfter = false → s.jobs = [] → (∀ n ∈ [13, 14], s.mild n) →
        let ended := fun (u : State) => u.mode = .fallow ∧ u.flag B.PWR R.PWR_PINS_DRAIN_DONE = true ∧ (∀ d ∈ [75, 74, 65], u.domOn d = false) ∧
          u.flag B.DEV R.DEV_MODE_VAULT_PENDING = s.vault.pending ∧ .pin "DRAIN_DONE" true ∈ u.out ∧ u.vault.chunks = s.vault.chunks ∧
          u.vault.hdr = s.vault.hdr ∧ (s.modes.latchAfter = true → u.flag B.DEV R.DEV_MODE_LATCHED = true)
        (∀ l, s.silo.save = .chunks l true → l ≠ [] → Gives (.vaultChunkWritten false) s ended) ∧
        (s.silo.save = .idle ∨ s.silo.save = .ended → Gives .drainComplete s fun u => ended u ∧ u.vault.late = s.vault.late) ∧
        (∀ t, s.silo.save = .flush t → Gives .drainComplete s fun u => ended u ∧ u.vault.late = (s.vault.late || decide (t + ms 250 < s.now))) ∧
        (∀ t, s.silo.save = .flush t → t + ms 250 ≤ s.now → Gives .flushLate s fun u => ended u ∧ u.vault.late = true)))) ∧
  (∀ s : State, s.bgAge 9 < 24 * ms 3600000 → exec .wearScan s = .next s) ∧
  (∀ s : State, 24 * ms 3600000 ≤ s.bgAge 9 → Gives .wearScan s fun u =>
    let ds := (List.range 32).filter fun d => (s.drive d).up && s.domOn (domDP d)
    u.out = s.out ++ ds.map (fun d => .drive d "wear" 0 0) ++ (if s.domOn 75 then [.drive 32 "wear" 0 0] else []) ∧
    bitOf (u.reg (B.FLT + R.FLT_BG_OVERDUE_OVERDUE.off)).toNat 9 = false ∧
    (u.reg (B.FLT + R.FLT_BG_OVERDUE_OVERDUE.off)).toNat = setBits (s.reg (B.FLT + R.FLT_BG_OVERDUE_OVERDUE.off)).toNat 9 9 0 ∧
    u = { s with out := u.out, regs := u.regs, flt := u.flt })


/-! ### The Reservoir and the Hopper (chapter 16) -/

/-- R384, R386 to R393, R395 to R401, Tables 16.1 to 16.3, 16.5, 16.6 and 16.10: the stacks’ controllers and the Hopper. -/
def Obligations.ReservoirAndHopper : Prop :=
  (∀ ra : Nat,
    (ra < 60 * 2 ^ 30 → let k := ra / 4096
      rsvKey (1 + k % 3) ((if k % 3 = 0 then 4 * 2 ^ 30 else 0) + k / 3 * 4096 + ra % 4096) = B.RA + ra) ∧
    (60 * 2 ^ 30 ≤ ra → ra < 68 * 2 ^ 30 → let k := (ra - 60 * 2 ^ 30) / 4096
      rsvKey (2 + k % 2) (20 * 2 ^ 30 + k / 2 * 4096 + ra % 4096) = B.RA + ra)) ∧
  (∀ (k : Stack) (a : Nat) (wr : Option (List Byte)) (m act : Bool) (ecc : Ecc) (x : RsvUser) (s : State),
    let c := fun wr x => Instr.reservoirRequest k a wr m act ecc x
    let b := B.RSV k
    let x64 := a / 64 * 64
    let key := s.stackHome k x64
    let map_ := isMapBlock k x64 = true
    let up := fun (u : State) (n : Nat) => u.cnt (b + n) = (s.cnt (b + n) + 1) % 2 ^ 64
    (s.stackReady k = false ∨ 24 * 2 ^ 30 ≤ a → exec (c wr x) s = .next (s.answer .busError)) ∧
    (s.stackReady k = true → a < 24 * 2 ^ 30 → s.flag B.PMC R.PMC_CTRL_FREEZE = false → (∀ n ∈ [336 + 4 * k.val, 337 + 4 * k, 20, 21, 22, 24, 25], s.mild n) →
      (∀ data, Gives (c (some data) x) s fun u => u.reply = .ok ∧
        (¬ map_ → (∀ i, i < 64 → byteAt u.mem (key + i) = (fit 64 data).getD i 0) ∧ (∀ j, j < key ∨ key + 64 ≤ j → byteAt u.mem j = byteAt s.mem j) ∧
          u.silo = s.silo) ∧
        (map_ → (∀ j, j < 4 → u.ext (x64 / 16 + j) = blkAt data (16 * j) 16) ∧ (∀ j, j / 4 ≠ a / 64 → u.ext j = s.ext j) ∧ u.mem = s.mem ∧
          u.silo = { s.silo with map := u.silo.map }) ∧
        u.isPoisoned k a = false ∧ (∀ k' a', poisonKey k' a' ≠ poisonKey k a → u.isPoisoned k' a' = s.isPoisoned k' a') ∧
        (act = false → u = { s with mem := u.mem, silo := u.silo, rsv := u.rsv, reply := u.reply }) ∧
        u = { s with mem := u.mem, silo := u.silo, rsv := u.rsv, reply := u.reply, cnts := u.cnts, flt := u.flt, freeCtr := u.freeCtr }) ∧
      (s.isPoisoned k a = false → ecc = .good → Gives (c none x) s fun u => u.reply = .bytes (s.stackBlock k x64) ∧
        (¬ map_ → u.reply = .bytes (bytesAt s.mem key 64)) ∧
        (m = true → up u C.RSV_INORDER) ∧ u = { s with reply := u.reply, cnts := u.cnts, flt := u.flt, freeCtr := u.freeCtr }) ∧
      (s.isPoisoned k a = false → ecc = .corrected → Gives (c none x) s fun u => u.reply = .bytes (s.stackBlock k x64) ∧ up u C.RSV_CE_CORR ∧
        u.flag b R.RSV_ECC_STAT_CE = true ∧ u.sticky (336 + 4 * k) = true ∧ u.rsv = s.rsv) ∧
      (s.isPoisoned k a = true ∨ ecc = .bad →
        let bad := fun (u : State) => u.reply = .busError ∧ up u C.RSV_UE ∧ u.flag b R.RSV_ECC_STAT_UE = true ∧ u.sticky (337 + 4 * k) = true ∧
          (u.reg (b + R.RSV_ECC_ADDR_LO_ADDR.off)).toNat + 2 ^ 32 * (u.reg (b + R.RSV_ECC_ADDR_LO_ADDR.off + 4)).toNat = a / 64 * 64
        (∀ y ∈ [RsvUser.unused, .tap, .buffer, .coreMem], Gives (c none y) s fun u => bad u ∧ u.isPoisoned k a = true ∧ u.silo = s.silo ∧ u.tbl = s.tbl) ∧
        (∀ (t : Fin 8) (i : Nat), Gives (c none (.hash t i)) s fun u => bad u ∧ u.isPoisoned k a = false ∧
          u.slot t i = setBits (s.slot t i) 511 511 0 ∧ u.cnt (htCnt t 0x28) = (s.cnt (htCnt t 0x28) + 1) % 2 ^ 64) ∧
        (∀ i, Gives (c none (.extentMap i)) s fun u => bad u ∧ u.isPoisoned k a = false ∧
          ∀ j, u.ext j = if j / 4 = i / 4 then tget (fun _ => 0) s.silo.meta_ j else s.ext j) ∧
        (∀ (v : Fin 4096) (lba : Nat) (blk : Block), s.silo.cache.find? (fun (z : Block) => z.vol = v.val && z.lba = lba && !z.inFlight) = some blk → s.still →
          Gives (c none (.cache v lba)) s fun u => bad u ∧ u.silo.cache = s.silo.cache.filter (· ≠ blk) ∧
            (blk.dirty = true → u.sticky 25 = true ∧ diskKey v lba ∈ u.silo.badBlks) ∧ (blk.dirty = false → u.silo.badBlks = s.silo.badBlks)) ∧
        (Gives (c none (.cacheMeta true)) s fun u => bad u ∧ u.sticky 24 = true ∧ u.isPoisoned k a = true) ∧
        (Gives (c none (.cacheMeta false)) s fun u => bad u ∧ u.isPoisoned k a = false ∧ u.silo = s.silo) ∧
        (∀ (h : Headrace) (t : Tailrace) (cl : Fin 8) (id : Nat) (p : VPkt), (s.voq (voqKey h t cl)).pkts.find? (fun z => z.id = id && z.spilled) = some p →
          Gives (c none (.queue h t cl id)) s fun u => bad u ∧ (u.voq (voqKey h t cl)).pkts = (s.voq (voqKey h t cl)).pkts.filter (· ≠ p) ∧
            u.cnt (B.HDR h + C.HDR_VOQ_ADMIT_DROP) = (s.cnt (B.HDR h + C.HDR_VOQ_ADMIT_DROP) + 1) % 2 ^ 64) ∧
        (∀ n : Conn, s.jobs = [] → s.silo.writes = [] → s.mild 23 → Gives (c none (.conduit n)) s fun u => bad u ∧ u.connState n = 2 ∧
          (u.conn n).sent = [] ∧ u.sticky 23 = true) ∧
        (∀ p : Fin 8, Gives (c none (.link p)) s fun u => bad u ∧ u.broken p = true ∧ u.sticky 21 = true ∧ u.poolFree p = (s.hopHead p).length % 2 ^ 24 ∧ u.hop = s.hop ∧
          u.cnt (B.HOP + C.HOP_LINK_ERR) = (s.cnt (B.HOP + C.HOP_LINK_ERR) + 1) % 2 ^ 64)))) ∧
  (∀ (k : Stack) (pc : Fin 32) (idle : Bool) (s : State),
    let i := 32 * k.val + pc.val
    let t := s.rd (B.RSV k) R.RSV_REF_CFG_TREFI
    let due := s.stackReady k = true ∧ tget (fun _ => 0) s.rsv.refAt i + (if s.flag (B.RSV k) R.RSV_STATUS_HOT then t / 2 else t) ≤ s.now
    let owes := fun (u : State) (n : Nat) => u.refreshOwed i = n ∧ (∀ j, j ≠ i → u.refreshOwed j = s.refreshOwed j) ∧
      tget (fun _ => 0) u.rsv.refAt i = s.now
    (¬ due → exec (.refreshDue k pc idle) s = .next s) ∧
    (due → idle = true → Gives (.refreshDue k pc idle) s fun u => owes u 0 ∧ u = { s with rsv := u.rsv }) ∧
    (due → idle = false → s.refreshOwed i < 7 → Gives (.refreshDue k pc idle) s fun u => owes u (s.refreshOwed i + 1) ∧ u = { s with rsv := u.rsv }) ∧
    (due → idle = false → 7 ≤ s.refreshOwed i → s.mild 9 → s.flag B.PMC R.PMC_CTRL_FREEZE = false → Gives (.refreshDue k pc idle) s fun u => owes u 0 ∧
      u.cnt (B.RSV k + C.RSV_CATCHUP) = (s.cnt (B.RSV k + C.RSV_CATCHUP) + 1) % 2 ^ 64 ∧ u.sticky 9 = true)) ∧
  (∀ (k : Stack) (t : Fin 256) (s : State),
    let b := B.RSV k
    let old := s.rd b R.RSV_STATUS_TEMP
    let cross := fun (was : Bool) (n : Nat) => (decide (n ≤ old) && decide (n ≤ t.val)) || (was && (decide (n ≤ old) || decide (n ≤ t.val)))
    let was := s.rsv.hot105.contains k.val
    let alarm := s.flag b R.RSV_STATUS_ALARM
    (s.domOn (65 + k) = false ∨ s.due (Tm.stackTemp k) (ms 1) = false → exec (.stackTempReading k t) s = .next s) ∧
    (s.domOn (65 + k) = true → s.due (Tm.stackTemp k) (ms 1) = true → s.mild (338 + 4 * k) → s.mild (339 + 4 * k) → Gives (.stackTempReading k t) s fun u =>
      u.rd b R.RSV_STATUS_TEMP = t ∧ u.due (Tm.stackTemp k) (ms 1) = false ∧ u.flag b R.RSV_STATUS_HOT = cross (s.flag b R.RSV_STATUS_HOT) 86 ∧
      u.flag b R.RSV_STATUS_ALARM = cross alarm 95 ∧ u.rsv.hot105.contains k.val = cross was 105 ∧
      (cross alarm 95 = true → alarm = false → u.sticky (338 + 4 * k) = true) ∧ (cross was 105 = true → was = false → u.sticky (339 + 4 * k) = true))) ∧
  (∀ (k : Stack) (ecc : Ecc) (x : RsvUser) (s : State),
    let b := B.RSV k
    let at_ := s.scrubOf k
    let runs := s.stackReady k = true ∧ s.flag b R.RSV_SCRUB_CFG_EN = true ∧ s.mode ≠ .drain ∧
      at_.1 * (s.rd b R.RSV_SCRUB_CFG_HOURS * ms 3600000) ≤ (s.now - at_.2) * (24 * 2 ^ 30 / 64)
    let only := fun (u : State) => u = { s with rsv := u.rsv, regs := u.regs, flt := u.flt } ∧ ∀ j, j ≠ k.val → u.scrubOf j = s.scrubOf j
    (¬ runs → exec (.patrolScrubStep k ecc x) s = .next s) ∧
    (runs → s.isPoisoned k (64 * at_.1) = false → ecc = .good →
      (at_.1 + 1 ≠ 24 * 2 ^ 30 / 64 → Gives (.patrolScrubStep k ecc x) s fun u => only u ∧ u.scrubOf k = (at_.1 + 1, at_.2) ∧
        (at_.1 < 24 * 2 ^ 30 / 64 → u.rd b R.RSV_SCRUB_STAT_PROGRESS = (at_.1 + 1) * 100 / (24 * 2 ^ 30 / 64))) ∧
      (at_.1 + 1 = 24 * 2 ^ 30 / 64 → Gives (.patrolScrubStep k ecc x) s fun u => only u ∧ u.scrubOf k = (0, s.now) ∧ u.rd b R.RSV_SCRUB_STAT_PROGRESS = 0)) ∧
    (runs → s.isPoisoned k (64 * at_.1) = false → ecc = .corrected → s.flag B.PMC R.PMC_CTRL_FREEZE = false → s.mild (336 + 4 * k) →
      at_.1 + 1 ≠ 24 * 2 ^ 30 / 64 → Gives (.patrolScrubStep k ecc x) s fun u => u.scrubOf k = (at_.1 + 1, at_.2) ∧ u.sticky (336 + 4 * k) = true ∧
        u.cnt (b + C.RSV_SCRUB_CE) = (s.cnt (b + C.RSV_SCRUB_CE) + 1) % 2 ^ 64)) ∧
  (∀ (o : HopOwner) (v : Word) (bad : Bool) (s : State),
    let size := v.toNat % 2 ^ 17
    let first := ((List.range 8).find? fun i => decide (size ≤ poolSize i)).getD 7
    let tries := fun i : Nat => if bitOf v.toNat 31 then i = first else first ≤ i ∧ i < 8
    let fits := fun i : Nat => tries i ∧ s.hopHead i ≠ []
    let here := s.domOn 66 = true ∧ ∀ n, o = .core n → s.domOn (69 + n / 8) = true
    let gives_ := fun (u : State) (st pool a : Nat) => ∃ r, r = st * 2 ^ 60 + pool * 2 ^ 56 + a ∧
      ((∀ n, o ≠ .core n) → u.reply = .data r) ∧
      ∀ n, o = .core n → u.reply = .ok ∧ (u.reg (B.HSLOT n + 8)).toNat + 2 ^ 32 * (u.reg (B.HSLOT n + 0xC)).toNat = r
    let up := fun (u : State) (i c : Nat) => u.cnt (B.HOP + 0x20 * i + c) = (s.cnt (B.HOP + 0x20 * i + c) + 1) % 2 ^ 64
    (s.domOn 66 = false → exec (.hopReq o v bad) s = .next (s.answer .busError)) ∧
    (here → s.flag B.PMC R.PMC_CTRL_FREEZE = false →
      (s.hopOpen = false → Gives (.hopReq o v bad) s fun u => gives_ u 1 0 0 ∧ (1 ≤ size → size ≤ 65536 → up u first C.HOP_EMPTY) ∧ u.hop = s.hop) ∧
      (s.hopOpen = true →
        (size = 0 ∨ 65536 < size → Gives (.hopReq o v bad) s fun u => gives_ u 2 0 0 ∧ u.hop = s.hop) ∧
        (1 ≤ size → size ≤ 65536 → (∀ i, ¬ fits i) → Gives (.hopReq o v bad) s fun u => gives_ u 1 0 0 ∧ up u first C.HOP_EMPTY ∧ u.hop = s.hop) ∧
        (1 ≤ size → size ≤ 65536 → ∀ i, fits i → (∀ j, j < i → ¬ fits j) → s.mild 21 → s.mild 22 → (∀ a ∈ s.hopHead i, a < 2 ^ 32) → s.hopList i ∉ s.hopHead i →
          Gives (.hopReq o v bad) s fun u => ∃ a ∈ s.hopHead i, gives_ u 0 i (2 ^ 32 + a) ∧ u.hopUsed a = true ∧ a ∉ u.hopHead i ∧
            (∀ j, j ≠ i → u.hopHead j = s.hopHead j) ∧ (∀ z, z ≠ a → u.hopUsed z = s.hopUsed z) ∧ up u i C.HOP_ALLOCS ∧
            (i ≠ first → up u i C.HOP_SPILL_IN)))) ∧
    (here → s.mild 20 → s.mild 22 → s.flag B.PMC R.PMC_CTRL_FREEZE = false → ∀ a : Nat, a < 2 ^ 33 →
      let x := a - 2 ^ 32
      let named := s.hopOpen = true ∧ 2 ^ 32 ≤ a
      let refused := fun (u : State) (c f : Nat) => u.hop = s.hop ∧ u.reply = .ok ∧ u.sticky 20 = true ∧
        u.cnt (B.HOP + c) = (s.cnt (B.HOP + c) + 1) % 2 ^ 64 ∧ ∀ n, o = .core n → bitOf (u.reg (B.HSLOT n + 0x18)).toNat f = true
      (¬ named ∨ s.poolAt x = none → Gives (.hopFree o a) s (refused · C.HOP_BAD_FREE 0)) ∧
      (named → ∀ i, s.poolAt x = some i →
        (s.hopUsed x = false → Gives (.hopFree o a) s (refused · C.HOP_DOUBLE_FREE 1)) ∧
        (s.hopUsed x = true → Gives (.hopFree o a) s fun u => u.reply = .ok ∧ u.hopUsed x = false ∧ (∀ z, z ≠ x → u.hopUsed z = s.hopUsed z) ∧
          up u i C.HOP_FREES ∧ (∀ j, j ≠ i → u.hopHead j = s.hopHead j ∧ u.hopList j = s.hopList j) ∧
          (s.broken i = true → u.hopHead i = s.hopHead i ∧ u.hopList i = s.hopList i) ∧
          (s.broken i = false → (s.hopHead i).length < 24 → u.hopHead i = s.hopHead i ++ [x] ∧ u.hopList i = s.hopList i) ∧
          (s.broken i = false → 24 ≤ (s.hopHead i).length → u.hopHead i = (s.hopHead i).drop 1 ++ [x] ∧ u.hopList i = (s.hopHead i).headD x ∧
            bytesAt u.mem (B.POOLM + (s.hopHead i).headD x) 8 = leBytes 4 (s.hopList i) ++ leBytes 4 (0xFFFF_FFFF - s.hopList i)))))) ∧
  (∀ (v : Word) (s : State),
    let starts := bitOf v.toNat 1 = true ∧ s.hop.building = false ∧ (s.mode = .priming ∨ s.mode = .survey ∨
      (s.mode = .trickle ∧ s.busy = true ∧ s.rd B.DEV R.DEV_MODE_TARGET = Mode.flowing.code)) ∧ s.poolsOk = true
    (s.domOn 66 = false → exec (.build v) s = .next (s.answer .busError)) ∧
    (s.domOn 66 = true → ¬ starts → exec (.build v) s = .next (s.answer .ok)) ∧
    (s.domOn 66 = true → starts → Gives (.build v) s fun u => u.reply = .ok ∧ u.hop = { HopSt.init with building := true } ∧
      u.flag B.HOP R.HOP_CTRL_READY = false ∧ Wrote s { u with reply := s.reply, hop := s.hop } [B.HOP])) ∧
  (∀ s : State, (s.domOn 66 = false ∨ s.hop.building = false → exec .hopperBuildDone s = .next s) ∧
    (s.domOn 66 = true → s.hop.building = true → s.mild 22 → Gives .hopperBuildDone s fun u => u.hop.building = false ∧
      u.flag B.HOP R.HOP_CTRL_READY = true ∧ (∀ x, u.hopUsed x = s.hopUsed x) ∧
      ∀ i : Fin 8, u.broken i = false ∧ u.poolFree i = s.poolCount i ∧
        u.hopHead i = (List.range (min 8 (s.poolCount i))).map fun j => s.poolBase i + j * poolSize i))


/-! ### The bulk mover, the key cipher unit and inline crypto (chapter 17) -/

/-- R404 to R409, R418, R419, Tables 17.1, 17.5, 17.5a and 17.6: channels, bursts, bus errors and the restart. -/
def Obligations.BulkMover : Prop :=
  (∀ (who : Master) (c : Channel) (v : Word) (s : State),
    let b := chBase c
    let ctl := b + R.BMV_CH_CTRL_REQ.off
    let rows := [Sys2Proof.Instr.bmvStart who c v, .bmvAbort who c v, .bmvResume who c v]
    let there := (∀ m f, who ≠ .host m f) ∧ s.reaches who = true ∧ s.domOn 77 = true ∧ s.channelOk who (B.BMV + 0x2000 + 0x80 * c.val) = true
    let idle := s.chState c ≠ 1 ∧ s.chState c ≠ 4
    let req := if bitsOf v.toNat 23 16 < 64 ∨ bitsOf v.toNat 23 16 = 0xFF then bitsOf v.toNat 23 16 else s.chReq c
    let mode := if bitsOf v.toNat 13 12 < 2 then bitsOf v.toNat 13 12 else s.rd b R.BMV_CH_CTRL_MODE
    let bind := bitOf v.toNat 14
    let set := fun (u : State) => u.reply = .ok ∧ (s.chState c = 1 ∨ s.chState c = 4 → u.reg ctl = s.reg ctl) ∧
      (idle → u.chReq c = req ∧ u.rd b R.BMV_CH_CTRL_MODE = mode ∧ u.chBind c = bind ∧ u.flag b R.BMV_CH_CTRL_IRQ_EN = bitOf v.toNat 15)
    let only := fun (u : State) => set u ∧ Wrote s { u with reply := s.reply } [ctl]
    (¬ there → ∀ i ∈ rows, exec i s = .next (s.refuse who)) ∧
    (there → ¬ (idle ∧ bitOf v.toNat 31 = true ∧ masterOwner who = s.chOwner c ∧ (s.chOwner c).isSome = true) → Gives (.bmvStart who c v) s only) ∧
    (there → idle → bitOf v.toNat 31 = true → masterOwner who = s.chOwner c → (s.chOwner c).isSome = true →
      let len := if s.chLen c = 0 then 2 ^ 64 else s.chLen c
      let dlen := if s.chDwrap c = 0 then len else min len (s.chDwrap c)
      let r := lineRing req
      -- The source: of a bound channel its tap ring.
      let sp := if bind then (0, 0) else s.chFrom c
      let a := if bind then s.pair (r + R.TAP_RING_BASE_LO_BASE.off) else s.chSrc c
      let n := if bind then 160 * 2 ^ s.rd r R.TAP_RING_SIZE_SIZE else len
      let overlap := sp.1 = (s.chTo c).1 ∧ (sp.1 = 2 → sp.2 = (s.chTo c).2) ∧ a < s.chDst c + dlen ∧ s.chDst c < a + n
      let valid := mode < 2 ∧ (s.chFrom c).1 < 3 ∧ (s.chTo c).1 < 3 ∧ (req < 64 ∨ req = 0xFF) ∧ s.chStat c % 16 = 0 ∧
        (mode = 0 → s.chDwrap c % s.chBurst c = 0) ∧ (s.chLen c = 0 → bind = true) ∧ (mode = 0 → ¬ overlap) ∧
        (bind = true → mode = 0 ∧ s.chBurst c % 160 = 0 ∧ req ≠ 0xFF)
      Gives (.bmvStart who c v) s fun u => set u ∧ (valid → u.chState c = 1) ∧ (¬ valid → u.chState c = 6) ∧ (u.ch c).done = 0 ∧ (u.ch c).abort = false ∧
        (req < 64 → (u.ch c).asked = if bind then s.ringCons req else s.ringProd req) ∧ u.rd b R.BMV_CH_RESIDUE_RESIDUE = s.chLen c ∧
        (∀ j, j < 32 → j ≠ c → u.ch j = s.ch j ∧ u.chState j = s.chState j) ∧ u = { s with reply := u.reply, regs := u.regs, bmv := u.bmv }) ∧
    (there → bitOf v.toNat 30 = false ∨ idle → Gives (.bmvAbort who c v) s only) ∧
    (there → bitOf v.toNat 30 = true →
      (s.chState c = 4 → s.bmv.probe = none → Gives (.bmvAbort who c v) s fun u => u.reply = .ok ∧ ChEnded s { u with reply := s.reply } c 3) ∧
      (s.chState c = 1 → s.chReady c = false → s.bmv.probe ≠ some c.val →
        Gives (.bmvAbort who c v) s fun u => u.reply = .ok ∧ ChEnded s { u with reply := s.reply } c 3) ∧
      ((s.chState c = 1 ∧ s.chReady c = true) ∨ (s.chState c = 4 ∧ s.bmv.probe.isSome = true) → Gives (.bmvAbort who c v) s fun u => u.reply = .ok ∧ u.ch c = { s.ch c with abort := true } ∧
        (∀ j, j ≠ c.val → u.ch j = s.ch j) ∧ u = { s with reply := .ok, bmv := u.bmv })) ∧
    (there → ¬ (bitOf v.toNat 29 = true ∧ who = .lk ∧ s.chState c = 4) → Gives (.bmvResume who c v) s only) ∧
    (there → bitOf v.toNat 29 = true → who = .lk → s.chState c = 4 →
      ((s.ch c).abort = true → Gives (.bmvResume who c v) s fun u => u.reply = .ok ∧ ChEnded s { u with reply := s.reply } c 3) ∧
      ((s.ch c).abort = false → Gives (.bmvResume who c v) s fun u => u.reply = .ok ∧ u.chState c = 1 ∧ bitOf (u.rd B.BMV R.BMV_HALT_HALT) c = false ∧
        Wrote s { u with reply := s.reply } [b + R.BMV_CH_STATUS_STATE.off, B.BMV + R.BMV_HALT_HALT.off]))) ∧
  (∀ (e : List Fetch) (s : State),
    (s.domOn 77 = false ∨ (∀ j, j < 32 → s.chReady j = false) → exec (.bmvBurst e) s = .next s) ∧
    (s.domOn 77 = true → s.flag B.PMC R.PMC_CTRL_FREEZE = false → s.mild 19 → ∀ c, c < 32 → s.chReady c = true →
      let dist := fun j : Nat => (j + 32 - (s.bmv.rot + 1) % 32) % 32
      (∀ j, j < 32 → s.chReady j = true → dist c ≤ dist j) →
      let d := (s.ch c).done
      let o := (s.chOwner c).getD 0
      let from_ := s.chFrom c
      let dst := s.chTo c
      let space := fun (sp : Nat × Nat) => sp.1 < 3
      -- A read that succeeds, or fails.
      let got := fun (sp : Nat × Nat) (a n : Nat) (f : Fetch) (l : List Byte) => s.spaceOk o sp a n false = true ∧ ∃ data, f = .ok data ∧
        (sp.1 = 0 → s.raPoisoned a n = false ∧ l = s.raBytes a n) ∧
        (sp.1 = 1 → ∃ k x, s.coreMemory 0 a n = some (k, x) ∧ s.corePoisoned k n = false ∧ l = bytesAt s.mem k n) ∧ (sp.1 = 2 → l = fit n data)
      let bad := fun (sp : Nat × Nat) (a n : Nat) (f : Fetch) =>
        s.spaceOk o sp a n false = false ∨ (∀ data, f ≠ .ok data) ∨ (sp.1 = 0 ∧ s.raPoisoned a n = true) ∨
          (sp.1 = 1 ∧ ∃ k x, s.coreMemory 0 a n = some (k, x) ∧ s.corePoisoned k n = true)
      -- Every running channel halts.
      let halts := fun (u : State) (sp : Nat × Nat) (a : Nat) (wr : Bool) =>
        u.cnt (B.BMV + C.BMV_BUS_ERRORS) = (s.cnt (B.BMV + C.BMV_BUS_ERRORS) + 1) % 2 ^ 64 ∧ u.pair (B.BMV + R.BMV_ERR_ADDR_LO_ADDR.off) = a % 2 ^ 64 ∧
        (u.reg (B.BMV + R.BMV_ERR_INFO_VALID.off)).toNat = 2 ^ 31 + (if wr then 2 ^ 8 else 0) + sp.1 * 2 ^ 6 + (if sp.1 = 2 then sp.2 * 4 else 0) ∧
        u.sticky 19 = true ∧ ∀ j, j < 32 → u.ch j = s.ch j ∧ (s.chState j ≠ 1 → u.chState j = s.chState j) ∧
          (s.chState j = 1 → u.chState j = 4 ∧ bitOf (u.rd B.BMV R.BMV_HALT_HALT) j = true ∧
            u.rd (chBase j) R.BMV_CH_RESIDUE_RESIDUE = s.chLen j - (s.ch j).done)
      let probed := fun (u : State) => u.cnt (B.BMV + C.BMV_FAILED) = (s.cnt (B.BMV + C.BMV_FAILED) + 1) % 2 ^ 64 ∧ u.chState c = 5
      let fails := fun (sp : Nat × Nat) (a : Nat) (wr : Bool) => (s.bmv.probe = none → Gives (.bmvBurst e) s fun u => halts u sp a wr) ∧
        (s.bmv.probe = some c → (∀ j, j < 32 → s.chState j = 1 → j = c) →
          (s.bmv.toProbe = [] → s.bmv.passed = [] → Gives (.bmvBurst e) s fun u => probed u ∧ u.bmv.probe = none) ∧
          (∀ k ks, s.bmv.toProbe = k :: ks → k < 32 → s.chState k = 4 → (s.ch k).abort = false → Gives (.bmvBurst e) s fun u => probed u ∧
            u.sticky 19 = true ∧
            u.chState k = 1 ∧ u.bmv.probe = some k ∧ u.bmv.toProbe = ks))
      -- n bytes or elements have been written at an address.
      let ends := (s.chLen c ≠ 0 ∧ s.chLen c ≤ d + ·)
      let moved := fun (v : State) (n dest : Nat) (l : List Byte) =>
        let w := s.spaceWrite dst dest l
        v.ch c = { s.ch c with done := d + n, asked := ((s.ch c).asked + max 1 (s.chBurst c / 160)) % 2 ^ 32 } ∧ v.bmv.rot = c ∧
        v.cnt (B.BMV + C.BMV_BURSTS) = (s.cnt (B.BMV + C.BMV_BURSTS) + 1) % 2 ^ 64 ∧ v.rd (chBase c) R.BMV_CH_RESIDUE_RESIDUE = s.chLen c - (d + n) ∧
        (s.chBind c = true → v.ringCons (s.chReq c) = (s.ringCons (s.chReq c) + n / 160) % 2 ^ 32) ∧
        (∀ j, j < 32 → (j ≠ c → v.ch j = s.ch j) ∧ v.chState j = s.chState j) ∧ v.bmv.probe = s.bmv.probe ∧
        v = { w with bmv := v.bmv, regs := v.regs, cnts := v.cnts, flt := v.flt, freeCtr := v.freeCtr }
      let moves := fun (n dest : Nat) (l : List Byte) =>
        (s.spaceOk o dst dest l.length true = false → fails dst dest true) ∧
        (s.spaceOk o dst dest l.length true = true →
          (¬ ends n → (s.ch c).abort = false → s.bmv.probe ≠ some c → Gives (.bmvBurst e) s fun u => moved u n dest l) ∧
          (ends n → s.bmv.probe ≠ some c → Gives (.bmvBurst e) s fun u => ∃ v, moved v n dest l ∧ ChEnded v u c 2) ∧
          (¬ ends n → (s.ch c).abort = true → s.bmv.probe ≠ some c → Gives (.bmvBurst e) s fun u => ∃ v, moved v n dest l ∧ ChEnded v u c 3) ∧
          (¬ ends n → (s.ch c).abort = false → s.bmv.probe = some c → s.bmv.toProbe = [] → Gives (.bmvBurst e) s fun u => u.bmv.probe = none ∧
            u.ch c = { s.ch c with done := d + n, asked := ((s.ch c).asked + max 1 (s.chBurst c / 160)) % 2 ^ 32 } ∧
            ∀ j ∈ c :: s.bmv.passed, j < 32 → j = c ∨ s.chState j = 4 → u.chState j = 1))
      let n := if s.chLen c = 0 then s.chBurst c else min (s.chBurst c) (s.chLen c - d)
      let dest := s.chDst c + if s.chDwrap c = 0 then d else d % s.chDwrap c
      -- Linear.
      (s.chGather c = false → s.chBind c = false → space from_ →
        (bad from_ (s.chSrc c + d) n (e.getD 0 (.ok [])) → fails from_ (s.chSrc c + d) false) ∧
        (∀ l, got from_ (s.chSrc c + d) n (e.getD 0 (.ok [])) l → moves n dest l)) ∧
      -- Bound to a tap ring.
      (s.chGather c = false → s.chBind c = true →
        let r := lineRing (s.chReq c)
        let ent := fun j => s.pair (r + R.TAP_RING_BASE_LO_BASE.off) + 160 * ((s.ringCons (s.chReq c) + j) % 2 ^ s.rd r R.TAP_RING_SIZE_SIZE)
        let good := fun j => s.raOn (ent j) = true ∧ s.raPoisoned (ent j) 160 = false ∧ e.getD 0 (.ok []) ≠ .poisoned
        let k := (n + 159) / 160
        ((∀ j, j < k → good j) → moves n dest (((List.range k).flatMap fun j => bytesAt s.mem (B.RA + ent j) 160).take n)) ∧
        (∀ j, j < k → ¬ good j → (∀ i, i < j → good i) → fails (0, 0) (ent j) false)) ∧
      -- Gather.
      (s.chGather c = true → s.chBind c = false → space from_ →
        let k := min (max 1 (s.chBurst c / s.chElem c)) (s.chLen c - d)
        let tab := s.chTable c + 4 * d
        (bad from_ tab (4 * k) (e.getD 0 (.ok [])) → fails from_ tab false) ∧
        (∀ t, got from_ tab (4 * k) (e.getD 0 (.ok [])) t →
          let at_ := fun i => s.chSrc c + leNat ((t.drop (4 * i)).take 4)
          let f := fun i => e.getD (i + 1) (.ok [])
          (∀ ls : Nat → List Byte, (∀ i, i < k → got from_ (at_ i) (s.chElem c) (f i) (ls i)) →
            moves k (s.chDst c + d * s.chElem c) ((List.range k).flatMap ls)) ∧
          (∀ i, i < k → bad from_ (at_ i) (s.chElem c) (f i) → (∀ j, j < i → ¬ bad from_ (at_ j) (s.chElem c) (f j)) → fails from_ (at_ i) false))))) ∧
  (∀ s : State,
    let halted := fun c : Nat => c < 32 ∧ s.chState c = 4
    let addr := s.pair (B.BMV + R.BMV_ERR_ADDR_LO_ADDR.off)
    let sp := s.rd B.BMV R.BMV_ERR_INFO_SPACE
    let same := fun (x : Nat × Nat) => x.1 = sp ∧ (sp = 2 → x.2 = s.rd B.BMV R.BMV_ERR_INFO_LINK)
    let n := fun c => if s.chLen c = 0 then s.chBurst c else min (s.chBurst c) (s.chLen c - (s.ch c).done)
    let src := fun c => s.chSrc c + (s.ch c).done
    let dst := fun c => s.chDst c + if s.chDwrap c = 0 then (s.ch c).done else (s.ch c).done % s.chDwrap c
    let ent := fun c j => let r := lineRing (s.chReq c)
      s.pair (r + R.TAP_RING_BASE_LO_BASE.off) + 160 * ((s.ringCons (s.chReq c) + j) % 2 ^ s.rd r R.TAP_RING_SIZE_SIZE)
    let bad := fun c => s.chGather c = false ∧ ((s.chBind c = true ∧ sp = 0 ∧ ∃ j, j < (n c + 159) / 160 ∧ ent c j ≤ addr ∧ addr < ent c j + 160) ∨
      (s.chBind c = false ∧ same (s.chFrom c) ∧ src c ≤ addr ∧ addr < src c + n c) ∨
      (same (s.chTo c) ∧ dst c ≤ addr ∧ addr < dst c + n c))
    (s.domOn 77 = false ∨ (∀ c, ¬ halted c) ∨ s.bmv.probe.isSome = true → exec .bmvRestart s = .next s) ∧
    (s.domOn 77 = true → (∃ c, halted c) → s.bmv.probe = none → (∀ c, halted c → (s.ch c).abort = false) → Gives .bmvRestart s fun u => ∀ c, c < 32 →
      (s.chState c ≠ 4 → u.chState c = s.chState c ∧ u.ch c = s.ch c) ∧ (halted c → bad c → u.chState c = 5) ∧
      (halted c → ¬ bad c → (∀ j, j < c → halted j → bad j) → u.chState c = 1 ∧ u.bmv.probe = some c) ∧
      (halted c → ¬ bad c → (∃ j, j < c ∧ halted j ∧ ¬ bad j) → u.chState c = 4 ∧ c ∈ u.bmv.toProbe))) ∧
  (∀ (q : Req) (s : State) (c : Cmd), s.holds q 0x0366 c → Gives (.bmvStatus q) s (Ends q St.DONE
    (leBytes 4 (s.rd B.BMV R.BMV_HALT_HALT) ++ leBytes 8 (s.pair (B.BMV + R.BMV_ERR_ADDR_LO_ADDR.off)) ++
      leBytes 4 (s.reg (B.BMV + R.BMV_ERR_INFO_VALID.off)).toNat ++
      (List.range 32).flatMap fun c => leBytes 4 (s.chState c * 2 ^ 28 + s.rd (chBase c) R.BMV_CH_RESIDUE_RESIDUE % 2 ^ 24)) s))


/-- R410 to R417, R419, Tables 17.2, 17.3, 17.5a and 17.8: the key cipher unit’s lock, operations and results, SA access and the key commands. -/
def Obligations.KeyUnit : Prop :=
  let there := fun (s : State) (m : Fin 3) => s.domOn 77 = true ∧ (m = 1 → s.domOn 74 = true) ∧ (m = 2 → s.flag B.SEC R.SEC_DEBUG_KCU_DBG = true ∧ s.mode = .survey)
  (∀ (ms : List (Fin 3)) (s : State), ((∀ m ∈ ms, ¬ there s m) → exec (.kcuClaim ms) s = .next s) ∧
    ∀ m ∈ ms, there s m → (∀ j ∈ ms, j < m → ¬ there s j) → (s.kcu.holder ≠ none → exec (.kcuClaim ms) s = .next s) ∧
      (s.kcu.holder = none → exec (.kcuClaim ms) s = .next { s with kcu := { s.kcu with holder := some m.val } })) ∧
  (∀ (m : Fin 3) (s : State),
    let freed := fun (u : State) (abandon : Bool) => u.kcu.holder = none ∧
      (∀ j, u.kcuOp j = if abandon = true ∧ j = m.val then none else s.kcuOp j) ∧
      (∀ a, B.KCUM m + 0x20 ≤ a → a < B.KCUM m + 0x60 → u.reg a = 0) ∧
      (abandon = true → (s.kcuOp m).isSome = true → u.flag (B.KCUM m) R.KCU_STATUS_RUNNING = false) ∧
      (∀ a, B.KCUM m + 0x1000 ≤ a → a < B.KCUM m + 0x3000 → byteAt u.mem a = 0) ∧
      (∀ a, ¬ (B.KCUM m + 0x20 ≤ a ∧ a < B.KCUM m + 0x60) → a ≠ B.KCUM m + R.KCU_STATUS_RUNNING.off → u.reg a = s.reg a) ∧
      (∀ a, ¬ (B.KCUM m + 0x1000 ≤ a ∧ a < B.KCUM m + 0x3000) → byteAt u.mem a = byteAt s.mem a) ∧
      u = { s with kcu := u.kcu, regs := u.regs, mem := u.mem }
    (¬ there s m ∨ s.kcu.holder ≠ some m.val → exec (.kcuRelease m) s = .next s) ∧
    (there s m → s.kcu.holder = some m.val → Gives (.kcuRelease m) s (freed · false)) ∧
    (s.kcu.holder ≠ some 2 → exec .debugPortDisconnect s = .next s) ∧
    (m = 2 → s.kcu.holder = some 2 → Gives .debugPortDisconnect s (freed · true))) ∧
  (∀ (m : Fin 3) (s : State),
    let w := B.KCUM m
    let op := s.rd w R.KCU_CMD_OP
    let len := s.rd w R.KCU_LEN_LEN
    let aad := s.rd w R.KCU_LEN_AAD
    let kind := s.rd w R.KCU_DEST_KIND
    let kek := s.kek (s.rd w R.KCU_CMD_KEK)
    let inp := bytesAt s.mem (w + 0x1000) len
    let iv := (List.range 3).flatMap fun i => leBytes 4 (s.reg (w + 0x40 + 4 * i)).toNat
    -- Name of an operation, its rule for LEN and AAD, n or A, its KINDs, its result.
    let rule := fun (n : Nat) (lens : Prop) (A : Nat) (kinds : Prop) (r : Option (List Byte)) => op = n → lens →
      Gives (.kcuStart m) s fun u => ∃ o, u.kcuOp m = some o ∧ o.due = s.now + 600 + 50 * A ∧ o.kind = kind ∧ o.index = s.rd w R.KCU_DEST_INDEX ∧
        (s.kcu.holder = some m.val → kinds → o.res = r) ∧ (s.kcu.holder ≠ some m.val ∨ ¬ kinds → o.res = none)
    let keyed := fun (r : Option (List Byte)) => if kek = [] then none else r
    let n4 := (len + 7) / 8
    let n5 := len / 8 - 1
    (¬ there s m ∨ (s.kcuOp m).isSome = true → exec (.kcuStart m) s = .next s) ∧
    (there s m → s.kcuOp m = none →
      (Gives (.kcuStart m) s fun u => u.flag w R.KCU_STATUS_RUNNING = true ∧ u.flag w R.KCU_STATUS_DONE = false ∧ u.kcu.holder = s.kcu.holder ∧
        (∀ j, j ≠ m.val → u.kcuOp j = s.kcuOp j) ∧ (u.kcuOp m).isSome = true ∧ Wrote s { u with kcu := s.kcu } [w + R.KCU_STATUS_DONE.off]) ∧
      rule 1 True 1 (kind = 1) (some ((List.range 8).flatMap fun i => leBytes 4 (s.reg (w + 0x20 + 4 * i)).toNat)) ∧
      rule 2 (16 ≤ len ∧ len ≤ 4088 ∧ len % 8 = 0) (6 * (len / 8)) (kind = 0) (keyed (some (Config.keyWrap false kek inp))) ∧
      rule 3 (24 ≤ len ∧ len ≤ 4096 ∧ len % 8 = 0) (6 * n5) (1 ≤ kind ∧ kind ≤ 4) (keyed (Config.keyUnwrap false kek inp)) ∧
      rule 4 (1 ≤ len ∧ len ≤ 4080) (if n4 = 1 then 1 else 6 * n4) (kind = 0) (keyed (some (Config.keyWrap true kek inp))) ∧
      rule 5 (16 ≤ len ∧ len ≤ 4096 ∧ len % 8 = 0) (if n5 = 1 then 1 else 6 * n5) (1 ≤ kind ∧ kind ≤ 4) (keyed (Config.keyUnwrap true kek inp)) ∧
      rule 6 (len ≤ 4096) (max 1 ((len + 15) / 16) + 1) (kind = 0) (keyed (some (Config.cmac kek inp))) ∧
      rule 7 (len ≤ 4096 ∧ aad ≤ len) ((len - aad + 15) / 16 + (aad + 15) / 16 + 2) (kind = 0)
        (keyed (some (Config.gcmSeal kek iv (inp.take aad) (inp.drop aad)))) ∧
      rule 8 (len ≤ 4096 ∧ aad + 16 ≤ len) ((len - aad + 15) / 16 + (aad + 15) / 16 + 2) (kind ≤ 4)
        (keyed (Config.gcmOpen kek iv (inp.take aad) (inp.drop aad))))) ∧
  (∀ (m : Fin 3) (late : Bool) (s : State),
    let c := Sys2Proof.Instr.kcuResult m late
    let w := B.KCUM m
    let ended := fun (u : State) (st n : Nat) => u.kcuOp m = none ∧ (∀ j, j ≠ m.val → u.kcuOp j = s.kcuOp j) ∧ u.kcu.holder = s.kcu.holder ∧
      u.flag w R.KCU_STATUS_RUNNING = false ∧ u.flag w R.KCU_STATUS_DONE = true ∧ u.rd w R.KCU_STATUS_RESULT = st ∧ u.rd w R.KCU_STATUS_OUT_LEN = n
    let kept := fun (u : State) => u.keks = s.keks ∧ u.icr = s.icr ∧ u.eth = s.eth ∧ u.silo = s.silo
    let refused := fun (u : State) => ended u 0x30 0 ∧ kept u ∧ u.mem = s.mem
    (s.kcuOp m = none ∨ s.domOn 77 = false → exec c s = .next s) ∧
    (∀ o, s.kcuOp m = some o → s.domOn 77 = true →
      (s.now < o.due → exec c s = .next s) ∧
      (o.due ≤ s.now → late = true → s.mild 18 → Gives c s fun u => ended u 0x30 0 ∧ kept u ∧ u.sticky 18 = true) ∧
      (o.due ≤ s.now → late = false → Gives c s fun u => (∀ a, a ≠ w + R.KCU_STATUS_DONE.off → u.reg a = s.reg a) ∧
        u = { s with kcu := u.kcu, regs := u.regs, cnts := u.cnts, flt := { s.flt with high := u.flt.high }, keks := u.keks, icr := u.icr, mem := u.mem,
                     eth := { s.eth with sas := u.eth.sas }, silo := { s.silo with vaultKey := u.silo.vaultKey, vols := u.silo.vols } }) ∧
      (o.due ≤ s.now → late = false → s.kcu.holder ≠ some m.val ∨ o.res = none → Gives c s refused) ∧
      (o.due ≤ s.now → late = false → s.kcu.holder = some m.val → ∀ r, o.res = some r →
        let i := o.index
        (o.kind = 0 → r.length < 2 ^ 16 → Gives c s fun u => ended u 0 r.length ∧ kept u ∧ (∀ j, j < 4096 → j < r.length → byteAt u.mem (w + 0x2000 + j) = r.getD j 0) ∧
          ∀ a, ¬ (w + 0x2000 ≤ a ∧ a < w + 0x3000) → byteAt u.mem a = byteAt s.mem a) ∧
        (o.kind = 1 → 1 ≤ i → i ≤ 15 → r.length = 32 → Gives c s fun u => ended u 0 0 ∧ u.kek i = r ∧ (∀ j, j ≠ i → u.kek j = s.kek j) ∧
          kept { u with keks := s.keks } ∧ u.mem = s.mem) ∧
        (o.kind = 1 → i = 0 ∨ 15 < i ∨ r.length ≠ 32 → Gives c s refused) ∧
        (o.kind = 2 → s.domOn 76 = true → Sa.valid (s.espSa i) = true → r.length = 36 → Gives c s fun u => ended u 0 0 ∧ u.espKey i = r ∧
          u.espSa i = setBits (s.espSa i) 252 252 1 ∧ (∀ j, j ≠ i → u.espKey j = s.espKey j ∧ u.espSa j = s.espSa j) ∧ kept { u with icr := s.icr } ∧ u.mem = s.mem) ∧
        (o.kind = 2 → s.domOn 76 = false ∨ Sa.valid (s.espSa i) = false ∨ r.length ≠ 36 → Gives c s refused) ∧
        (o.kind = 3 → i / 128 < 24 → i % 128 < 80 → s.domOn (29 + i / 128) = true → r.length = 32 → Gives c s fun u => ended u 0 0 ∧
          u.sa i = { s.sa i with keyed := true, key := r } ∧ (∀ j, j ≠ i → u.sa j = s.sa j) ∧ kept { u with eth := s.eth } ∧ u.mem = s.mem) ∧
        (o.kind = 3 → 24 ≤ i / 128 ∨ 80 ≤ i % 128 ∨ s.domOn (29 + i / 128) = false ∨ r.length ≠ 32 → Gives c s refused) ∧
        (o.kind = 4 → s.domOn 74 = true → i ≤ 4096 → r.length = 32 → Gives c s fun u => ended u 0 0 ∧ kept { u with silo := s.silo } ∧ u.mem = s.mem ∧
          u.silo.vaultKey = (s.silo.vaultKey || i == 4096) ∧
          ∀ j, u.vol j = if j = i ∧ i < 4096 ∧ (s.vol i).live = true then { s.vol i with online := true } else s.vol j) ∧
        (o.kind = 4 → s.domOn 74 = false ∨ 4096 < i ∨ r.length ≠ 32 → Gives c s refused) ∧ (4 < o.kind → Gives c s refused)))) ∧
  (∀ s : State,
    let i := s.rd B.ICR R.ICR_SA_ADDR_INDEX
    let at_ := fun n => B.ICR + R.ICR_SA_DATA_DATA.off + 4 * n
    let v := s.dataRegs (at_ 0) 8
    (s.domOn 76 = false → exec .icrSaWrite s = .next (s.answer .busError) ∧ exec .icrSaRead s = .next (s.answer .busError)) ∧
    let low := fun e : Nat => Sa.valid e = true ∧ Sa.rx e = false ∧ seqLow e = true
    let warns := low v ∧ ¬ low (s.espSa i)
    (s.domOn 76 = true → ¬ warns ∨ s.mild 27 → Gives .icrSaWrite s fun u => u.reply = .ok ∧ (¬ warns → u = { s with reply := u.reply, icr := u.icr }) ∧
      (warns → u.sticky 27 = true) ∧
      (∀ k, bitOf (u.espSa i) k = if k < 128 ∨ 256 ≤ k ∨ (241 ≤ k ∧ k < 248) ∨ (224 ≤ k ∧ k < 232) then false
        else if k = 252 then bitOf v 255 && Sa.keyed (s.espSa i) else bitOf v k) ∧
      (u.espKey i = if bitOf v 255 then s.espKey i else []) ∧ ∀ j, j ≠ i → u.espSa j = s.espSa j ∧ u.espKey j = s.espKey j) ∧
    (s.domOn 76 = true → Gives .icrSaRead s fun u => u.reply = .ok ∧ Wrote s { u with reply := s.reply } ((List.range 8).map at_) ∧
      ∀ n, n < 8 → (u.reg (at_ n)).toNat = bitsOf (s.espSa i) (32 * n + 31) (32 * n))) ∧
  (∀ (q : Req) (s : State) (c : Cmd),
    let i := c.u16 10
    -- The Lockkeeper, which unwraps, holds the lock or finds it free (R413).
    let locked := s.kcu.holder = none ∨ s.kcu.holder = some 0
    (∀ n, q = .core n → ∀ x ∈ [(0x0360, Sys2Proof.Instr.kekLoad q), (0x0361, .espSaInstall q), (0x0362, .espSaDelete q)], s.holds q x.1 c →
      Gives x.2 s (Ends q St.REFUSED [] s)) ∧
    (s.holds q 0x0360 c → (∀ n, q ≠ .core n) →
      let k := c.u8 8
      let p := c.u8 9
      let ok := 1 ≤ k ∧ k ≤ 15 ∧ p ≤ 15 ∧ p ≠ k ∧ s.domOn 77 = true
      let key := if s.kek p = [] then none else Config.keyUnwrap false (s.kek p) (c.bytes 16 40)
      (¬ ok → Gives (.kekLoad q) s (Ends q St.BAD_ARGUMENT [] s)) ∧
      (ok → ¬ locked → exec (.kekLoad q) s = .next s) ∧
      (ok → locked → (∀ x, key = some x → x.length ≠ 32) → Gives (.kekLoad q) s (Ends q St.REFUSED [] s)) ∧
      (ok → locked → ∀ x, key = some x → x.length = 32 → Gives (.kekLoad q) s fun t => ∃ v, v = { s with keks := v.keks, vault := v.vault } ∧ v.kek k = x ∧
        (∀ j, j ≠ k → v.kek j = s.kek j) ∧ (v.vault = if k = 1 then { s.vault with kek1 := Config.keyWrap false (s.kek 0) x } else s.vault) ∧
        Ends q St.DONE [] v t)) ∧
    (s.holds q 0x0361 c → (∀ n, q ≠ .core n) →
      let end_ := fun st => Gives (.espSaInstall q) s (Ends q st [] s)
      let kek := s.kek (c.u8 14)
      let key := if kek = [] then none else Config.keyUnwrap true kek (c.bytes 20 48)
      (∀ st, s.localPlot q (c.u16 8) = .error st → end_ st) ∧
      (∀ p, s.localPlot q (c.u16 8) = .ok p →
        let ok := Sa.valid (s.espSa i) = false ∧ c.u8 13 ≤ 5 ∧ c.u8 14 ≤ 15 ∧ s.domOn 76 = true ∧ s.domOn 77 = true ∧
          (bitOf (c.u8 12) 0 = true → s.rxSa p (c.u32 16) = none)
        let new := fun (v : State) (keyed : Bool) (k : List Byte) => v = { s with icr := v.icr } ∧ v.espKey i = k ∧
          (∀ j, j ≠ i → v.espSa j = s.espSa j ∧ v.espKey j = s.espKey j) ∧
          v.espSa i = 2 ^ 255 + (c.u8 12 % 2) * 2 ^ 254 + (c.u8 12 / 2 % 2) * 2 ^ 253 + (if keyed then 2 ^ 252 else 0) + c.u8 13 * 2 ^ 248 + p * 2 ^ 232 +
            c.u32 16 * 2 ^ 192 + 2 ^ 128
        (s.saForeign q i = true → end_ St.REFUSED) ∧ (s.saForeign q i = false → ¬ ok → end_ St.BAD_ARGUMENT) ∧
        (ok → ¬ locked → exec (.espSaInstall q) s = .next s) ∧
        (ok → locked → p < 512 → (∀ x, key = some x → x.length ≠ 36) → Gives (.espSaInstall q) s fun t => ∃ v, new v false [] ∧ Ends q St.REFUSED [] v t) ∧
        (ok → locked → p < 512 → ∀ x, key = some x → x.length = 36 → Gives (.espSaInstall q) s fun t => ∃ v, new v true x ∧ Ends q St.DONE [] v t))) ∧
    (s.holds q 0x0362 c → (∀ n, q ≠ .core n) → (s.saForeign q i = true → Gives (.espSaDelete q) s (Ends q St.REFUSED [] s)) ∧
      (s.saForeign q i = false → Gives (.espSaDelete q) s fun t => ∃ v, v = { s with icr := v.icr } ∧ v.espSa i = 0 ∧ v.espKey i = [] ∧
        (∀ j, j ≠ i → v.espSa j = s.espSa j ∧ v.espKey j = s.espKey j) ∧ Ends q St.DONE [] v t)) ∧
    (s.holds q 0x0363 c → (s.saForeign q i = true → Gives (.espSaRead q) s (Ends q St.REFUSED [] s)) ∧
      (s.saForeign q i = false → Gives (.espSaRead q) s (Ends q St.DONE (leBytes 32 (s.espSa i)) s))) ∧
    (s.holds q 0x0364 c ∨ s.holds q 0x0365 c →
      let g := c.u8 8
      let i := 128 * g + c.u8 9
      let names := g < 24 ∧ c.u8 9 < 80 ∧ s.domOn (29 + g) = true
      let port := 4 * g + (c.u8 9 - 64) / 4
      let set := fun (v : State) (x : MacsecSA) => v = { s with eth := { s.eth with sas := v.eth.sas, activeAN := v.eth.activeAN } } ∧ v.sa i = x ∧ ∀ j, j ≠ i → v.sa j = s.sa j
      (s.holds q 0x0364 c →
        let ok := names ∧ c.u8 11 ≤ 15 ∧ s.domOn 77 = true
        let kek := s.kek (c.u8 11)
        let key := if kek = [] then none else Config.keyUnwrap false kek (c.bytes 48 40)
        (¬ ok → Gives (.macsecSaInstall q) s (Ends q St.BAD_ARGUMENT [] s)) ∧
        (ok → ¬ locked → exec (.macsecSaInstall q) s = .next s) ∧
        (ok → locked → (∀ x, key = some x → x.length ≠ 32) → Gives (.macsecSaInstall q) s (Ends q St.REFUSED [] s)) ∧
        (ok → locked → ∀ x, key = some x → x.length = 32 →
          -- A receive SA has the SCI of its SC; a transmit SA becomes its port's active one (assumption 85).
          let rx := c.u8 9 < 64
          let foreign := ∃ j, j / 4 = i / 4 ∧ j ≠ i ∧ (s.sa j).installed = true ∧ (s.sa j).sci ≠ c.u64 36
          (rx → foreign → Gives (.macsecSaInstall q) s (Ends q St.BAD_ARGUMENT [] s)) ∧
          let pn := if (s.sa i).key = x then max (s.sa i).pn (c.u64 28) else c.u64 28
          let new : MacsecSA := { installed := true, keyed := true, key := x, salt := c.bytes 16 12, ssci := c.u32 12, sci := c.u64 36, pn := pn }
          (¬ (rx ∧ foreign) → rx ∨ pn < s.pnWarn port → Gives (.macsecSaInstall q) s fun t => ∃ v, Ends q St.DONE [] v t ∧ set v new ∧
            (rx → v.eth.activeAN = s.eth.activeAN) ∧
            ∀ k, tget (fun _ => 0) v.eth.activeAN k = if ¬ rx ∧ k = port then i % 4 + 1 else tget (fun _ => 0) s.eth.activeAN k) ∧
          (¬ rx → s.pnWarn port ≤ pn → s.mild (179 + 4 * g) → Gives (.macsecSaInstall q) s fun t => ∃ v, Ends q St.DONE [] v t ∧ v.sa i = new ∧
            tget (fun _ => 0) v.eth.activeAN port = i % 4 + 1 ∧ v.sticky (179 + 4 * g) = true))) ∧
      (s.holds q 0x0365 c → (¬ names → Gives (.macsecSaRetire q) s (Ends q St.BAD_ARGUMENT [] s)) ∧
        (names → Gives (.macsecSaRetire q) s fun t => ∃ v, Ends q St.DONE [] v t ∧ set v MacsecSA.none ∧
          ∀ k, tget (fun _ => 0) v.eth.activeAN k = if 64 ≤ c.u8 9 ∧ k = port ∧ tget (fun _ => 0) s.eth.activeAN k = i % 4 + 1 then 0
            else tget (fun _ => 0) s.eth.activeAN k))))


/-! ### Faults, counters and background work (chapter 18) -/

/-- R421 to R430, R437, R438, Tables 18.1 to 18.4, 18.9 to 18.11: the fault collector, the watchdog and ALIVE. -/
def Obligations.FaultCollector : Prop :=
  let sees := fun (q : Req) (n : Nat) => n < 272 ∨ 336 ≤ n ∨ (match q with
    | .core _ => True
    | .host m _ => 272 + 4 * m.val ≤ n ∧ n < 276 + 4 * m.val)
  let reserved := fun n : Nat => n = 30 ∨ n = 31 ∨ 352 ≤ n ∨ (96 ≤ n ∧ n < 160 ∧ n % 4 = 0) ∨ (160 ≤ n ∧ n < 176 ∧ 2 ≤ n % 4)
  -- Messages that a rise or an escalation of source n sends.
  let told := fun (s : State) (n : Nat) => (List.range 16).filter fun m => tget (fun _ => 0) s.flt.notify m ≠ 0 && visibleTo m n
  let tells := fun (s : State) (n : Nat) => ∀ m ∈ told s n, s.vecOpen m 0 (tget (fun _ => 0) s.flt.notify m - 1) = true ∧ s.linkUp m = true ∧
    (s.fn m 0).bme = true ∧ (s.fn m 0).flrAt = none
  let outs := fun (s : State) (n : Nat) => (told s n).map fun m => Out.msix m 0 (tget (fun _ => 0) s.flt.notify m - 1)
  -- Source n is acknowledged.
  let acked := fun (u : State) (n : Nat) => u.sticky n = false ∧ u.winRunning n = false ∧ u.flag (srcBase n) R.FLT_SRC_ESC = false ∧
    u.flag (srcBase n) R.FLT_SRC_CARRIED = false ∧ ∀ w ∈ u.flt.windows, w.src ≠ n
  let same := fun (s u : State) (n : Nat) => u.sticky n = s.sticky n ∧ u.reg (srcBase n + R.FLT_SRC_SEV.off) = s.reg (srcBase n + R.FLT_SRC_SEV.off)
  -- What a Degrading or a Fatal escalation does to the mode.
  let trickles := fun (s u : State) => (s.busy = true → u.modes.waiting = s.modes.waiting ++ [.trickle]) ∧
    (s.busy = false → s.modes.waiting = [] → s.mode = .priming ∨ s.mode = .flowing ∨ s.mode = .survey → u.mode = .trickle ∨ (u.busy = true ∧ u.rd B.DEV R.DEV_MODE_TARGET = 3)) ∧
    (s.busy = false → s.mode = .trickle ∨ s.mode = .drain ∨ s.mode = .fallow → u.modes = s.modes ∧ u.mode = s.mode)
  let reboots := fun (s u : State) => (s.busy = true → u.modes.waiting = s.modes.waiting ++ [.warm true]) ∧
    (s.busy = false → s.mode = .fallow → u.mode = .fallow ∧ u.modes.lkRunning = false ∧ u.flag B.DEV R.DEV_RESET_CAUSE_WARM_FATAL = true) ∧
    (s.busy = false → s.mode = .drain → u.mode = .drain ∧ u.modes.fatalAfter = true) ∧
    (s.busy = false → s.modes.forced = false → s.mode ≠ .fallow → s.mode ≠ .drain → u.mode = .priming ∧ u.flag B.DEV R.DEV_RESET_CAUSE_WARM_FATAL = true)
  (∀ (n : Source) (kind : Fin 64) (addr : Fin 281474976710656) (s : State),
    let c := Sys2Proof.Instr.faultMessage n kind addr
    let k := s.sevNow n
    let starts := 1 ≤ k ∧ k ≤ 3 ∧ n.val ≠ 3 ∧ (s.sticky n = false ∨ (s.flag (srcBase n) R.FLT_SRC_CARRIED = true ∧ s.winRunning n = false))
    (reserved n → exec c s = .next s) ∧
    (¬ reserved n → s.sev n ≠ 4 → s.flt.msgq.length < 256 → (s.sticky n = true ∨ tells s n) → Gives c s fun u =>
      u.sticky n = true ∧ (∀ j, j < 352 → j ≠ n → same s u j) ∧ u.flt.msgq = s.flt.msgq ++ [⟨n, kind, addr⟩] ∧
      u.flt.windows = s.flt.windows ++ (if starts then [⟨n, k, s.now + s.winLen k⟩] else []) ∧ u.winRunning n = (s.winRunning n || decide starts) ∧
      u.out = s.out ++ (if s.sticky n then [] else outs s n) ∧
      (s.flag B.PMC R.PMC_CTRL_FREEZE = false → u.cnt (B.FLT + C.FLT_MSGS) = (s.cnt (B.FLT + C.FLT_MSGS) + 1) % 2 ^ 64) ∧
      u = { s with regs := u.regs, cnts := u.cnts, flt := u.flt, out := u.out, links := u.links, mem := u.mem, kcu := u.kcu } ∧
      (n.val ≠ 3 → n.val ≠ 14 → n.val ≠ 24 → n.val ≠ 25 → n.val ≠ 29 → u.mem = s.mem ∧ u.kcu = s.kcu)) ∧
    (¬ reserved n → s.sev n ≠ 4 → s.sev 28 ≠ 4 → 256 ≤ s.flt.msgq.length → Gives c s fun u => u.sticky n = true ∧ u.sticky 28 = true ∧ u.flt.msgq = s.flt.msgq ∧
      u.rd B.FLT R.FLT_MSGQ_LOST = min 65535 (s.rd B.FLT R.FLT_MSGQ_LOST + 1)) ∧
    (¬ reserved n → s.sev n = 4 → Gives c s fun u => u.sticky n = true ∧ u.rd B.FLT R.FLT_ALIVE_CAUSE = 3 ∧ u.flt.aliveRun = false ∧
      (s.mode = .fallow → u.mode = .fallow ∧ u.flag B.DEV R.DEV_MODE_LATCHED = true) ∧ (s.mode = .drain → u.mode = .drain ∧ u.modes.latchAfter = true) ∧
      (s.mode ≠ .fallow → s.mode ≠ .drain → u.mode = .drain ∧ u.flag B.DEV R.DEV_RESET_CAUSE_DRAIN_LATCHED = true))) ∧
  (∀ (n : Source) (s : State),
    let late_ := fun w : FaultWin => w.src = n.val && decide (w.endAt ≤ s.now)
    (s.flt.windows.find? late_ = none → exec (.faultWindowEnd n) s = .next s) ∧
    (∀ w, s.flt.windows.find? late_ = some w →
      (w.cls = 1 → tells s n → Gives (.faultWindowEnd n) s fun u => u.flag (srcBase n) R.FLT_SRC_ESC = true ∧ u.winRunning n = true ∧
        u.flt.windows = s.flt.windows.filter (·.src ≠ n.val) ++ [⟨n, 2, s.now + s.winLen 2⟩] ∧ u.out = s.out ++ outs s n ∧
        u = { s with regs := u.regs, flt := { s.flt with windows := u.flt.windows }, out := u.out, links := u.links }) ∧
      (w.cls = 2 → Gives (.faultWindowEnd n) s (trickles s)) ∧ (w.cls ≠ 1 → w.cls ≠ 2 → Gives (.faultWindowEnd n) s (reboots s)))) ∧
  (∀ (k : Fin 11) (v : Word) (s : State), Gives (.stickyClear k v) s fun u => u.reply = .ok ∧
    (∀ n, n < 352 →
      let hit := n / 32 = k.val ∧ bitOf v.toNat (n % 32) = true ∧ s.sticky n = true ∧ s.sev n ≠ 4
      (hit → acked u n) ∧ (¬ hit → same s u n ∧ ∀ w ∈ s.flt.windows, w.src = n → w ∈ u.flt.windows)) ∧
    (k.val ≠ 0 → u.modes = s.modes ∧ u.timers = s.timers) ∧
    u = { s with reply := u.reply, regs := u.regs, flt := { s.flt with windows := u.flt.windows }, modes := u.modes, timers := u.timers }) ∧
  (∀ (v : Word) (s : State),
    (exec (.watchdogKick v) s = .next (if v.toNat % 256 = 0xA5 then { s with flt := { s.flt with kickAt := s.now }, reply := .ok } else s.answer .ok)) ∧
    (s.now < s.flt.kickAt + s.rd B.FLT R.FLT_WDOG_PERIOD * 1000000 ∨ s.rd B.FLT R.FLT_ALIVE_CAUSE = 3 → exec .watchdogExpiry s = .next s) ∧
    (s.flt.kickAt + s.rd B.FLT R.FLT_WDOG_PERIOD * 1000000 ≤ s.now → s.rd B.FLT R.FLT_ALIVE_CAUSE ≠ 3 → s.sev 3 = 3 → s.mild 3 → Gives .watchdogExpiry s fun u =>
      u.sticky 3 = true ∧ u.rd B.FLT R.FLT_ALIVE_CAUSE = 2 ∧ u.flt.aliveRun = false ∧ u.flt.aliveLevel = false ∧
      (s.kcu.holder = some 0 → u.kcu.holder = none) ∧ u.rd B.FLT R.FLT_WDOG_PERIOD = 2000 ∧ reboots s u) ∧
    let starts := bitOf v.toNat 0 = true ∧ s.modes.lkRunning = true ∧ s.rd B.FLT R.FLT_ALIVE_CAUSE ≠ 3 ∧ s.flag B.DEV R.DEV_MODE_LATCHED = false ∧
      s.flt.aliveRun = false ∧ s.oscLost = false
    (¬ starts → exec (.aliveStart v) s = .next (s.answer .ok)) ∧
    (starts →
      (Gives (.aliveStart v) s fun u => u.reply = .ok ∧ u.rd B.FLT R.FLT_ALIVE_CAUSE = 0 ∧ u.flag B.PWR R.PWR_PINS_ALIVE = true ∧
        u.out = s.out ++ [.pin "ALIVE" true] ∧
        u = { s with reply := .ok, regs := u.regs, out := u.out, timers := u.timers, flt := { s.flt with aliveRun := true, aliveLevel := true } })) ∧
    -- ALIVE keeps a level for 1 ms, less 1% at the least.
    (s.flt.aliveRun = false ∨ s.due Tm.alive 990000 = false → exec .aliveToggle s = .next s) ∧
    (s.flt.aliveRun = true → s.due Tm.alive 990000 = true → Gives .aliveToggle s fun u => u.flag B.PWR R.PWR_PINS_ALIVE = !s.flt.aliveLevel ∧ u.out = s.out ++ [.pin "ALIVE" (!s.flt.aliveLevel)] ∧
      u.last Tm.alive = some s.now ∧
      u = { s with regs := u.regs, out := u.out, timers := u.timers, flt := { s.flt with aliveLevel := !s.flt.aliveLevel } })) ∧
  (∀ (q : Req) (s : State) (c : Cmd),
    let n := c.u16 8
    let end_ := fun (i : Sys2Proof.Instr) (st : Nat) => Gives i s (Ends q st [] s)
    (∀ k, q = .core k → (s.holds q 0x0602 c → end_ (.faultSevSet q) St.REFUSED) ∧ (s.holds q 0x0603 c → end_ (.faultWindowSet q) St.REFUSED) ∧
      (s.holds q 0x0604 c → end_ (.faultNotifySet q) St.REFUSED)) ∧
    (s.holds q 0x0600 c → Gives (.faultStatus q) s fun t => ∃ l, Ends q St.DONE l s t ∧ l.length = 98 ∧
      (∀ j, j < 352 → (bitOf (l.getD (j / 8) 0).toNat (j % 8) = true ↔ sees q j ∧ s.sticky j = true) ∧
        (bitOf (l.getD (44 + j / 8) 0).toNat (j % 8) = true ↔ sees q j ∧ s.winRunning j = true)) ∧
      ∀ v, v < 5 → leNat ((l.drop (88 + 2 * v)).take 2) =
        ((List.range 352).filter fun j => reqSees q j && s.sticky j && (if s.flag (srcBase j) R.FLT_SRC_ESC then 2 else s.sev j) = v).length) ∧
    (s.holds q 0x0601 c → (352 ≤ n ∨ reserved n → end_ (.faultAck q) St.BAD_ARGUMENT) ∧
      (n < 352 → ¬ reserved n → (¬ sees q n → end_ (.faultAck q) St.REFUSED) ∧
        (sees q n → s.sev n = 4 → end_ (.faultAck q) St.BAD_ARGUMENT) ∧
        (sees q n → s.sev n ≠ 4 → s.sticky n = false → Gives (.faultAck q) s (Ends q St.DONE [] s)) ∧
        (sees q n → s.sev n ≠ 4 → s.sticky n = true → Gives (.faultAck q) s fun t => ∃ v, Ends q St.DONE [] v t ∧ acked v n ∧
          (∀ j, j < 352 → j ≠ n → same s v j) ∧ (n ≠ 6 → v.modes = s.modes ∧ v.timers = s.timers) ∧
          v = { s with regs := v.regs, flt := { s.flt with windows := s.flt.windows.filter (·.src ≠ n) }, modes := v.modes, timers := v.timers }))) ∧
    ((∀ k, q ≠ .core k) →
      (s.holds q 0x0602 c →
        (352 ≤ n ∨ reserved n → end_ (.faultSevSet q) St.BAD_ARGUMENT) ∧ (n < 352 → ¬ reserved n → ¬ sees q n → end_ (.faultSevSet q) St.REFUSED) ∧
        (n < 4 ∨ (n < 352 ∧ ¬ reserved n ∧ sees q n ∧ (4 < c.u8 10 ∨ 1 < c.u8 11)) → end_ (.faultSevSet q) St.BAD_ARGUMENT) ∧
        (4 ≤ n → n < 352 → ¬ reserved n → sees q n → c.u8 10 ≤ 4 → c.u8 11 ≤ 1 → Gives (.faultSevSet q) s fun t => ∃ v, Ends q St.DONE [] v t ∧
          v.sev n = c.u8 10 ∧ v.flag (srcBase n) R.FLT_SRC_ROUTE = decide (c.u8 11 = 1) ∧ v.flag (srcBase n) R.FLT_SRC_ESC = s.flag (srcBase n) R.FLT_SRC_ESC ∧
          v.winRunning n = s.winRunning n ∧ Wrote s v [srcBase n + R.FLT_SRC_SEV.off])) ∧
      (s.holds q 0x0603 c →
        let k := c.u8 8
        let w := c.u32 12
        let f := if k = 1 then R.FLT_WIN_COR_MS else if k = 2 then R.FLT_WIN_DEG_MS else R.FLT_WIN_FAT_MS
        (k = 0 ∨ 3 < k ∨ w < 100 ∨ 10000 < w → end_ (.faultWindowSet q) St.BAD_ARGUMENT) ∧
        (1 ≤ k → k ≤ 3 → 100 ≤ w → w ≤ 10000 → Gives (.faultWindowSet q) s fun t => ∃ v, Ends q St.DONE [] v t ∧ v.rd B.FLT f = w ∧ v.winLen k = w * 1000000 ∧
          Wrote s v [B.FLT + f.off])) ∧
      (s.holds q 0x0604 c → (2047 < c.u16 10 → end_ (.faultNotifySet q) St.BAD_ARGUMENT) ∧
        (c.u16 10 ≤ 2047 → ∀ m t', q = .host m t' → Gives (.faultNotifySet q) s fun t => ∃ v, Ends q St.DONE [] v t ∧
          v = { s with flt := { s.flt with notify := v.flt.notify } } ∧
          ∀ j, tget (fun _ => 0) v.flt.notify j = if j = m.val then (if bitOf (c.u8 8) 0 then c.u16 10 + 1 else 0) else tget (fun _ => 0) s.flt.notify j))) ∧
    (s.holds q 0x0605 c →
      let first := c.u32 8
      let oldest := s.flt.nextSeq - s.flt.log.length
      let rest := s.flt.log.drop (first - oldest)
      let seen := fun k : Nat => (rest.take k).filter fun e => reqSees q e.1.src
      let entry := fun e : FaultMsg × Nat => leBytes 8 (e.1.src * 2 ^ 54 + e.1.kind * 2 ^ 48 + e.1.addr % 2 ^ 48) ++ leBytes 8 e.2
      ∀ k, k ≤ rest.length → (k = rest.length ∧ (seen k).length < 13) ∨ (1 ≤ k ∧ (seen k).length = 13 ∧ (seen (k - 1)).length = 12) →
        Gives (.faultLogRead q) s (Ends q St.DONE (leBytes 4 (if rest = [] then first else max first oldest + k) ++ leBytes 1 (seen k).length ++ [0, 0, 0] ++
          (seen k).flatMap entry) s)))


/-- R431 to R433, R435, R436, R438, Tables 18.5 to 18.8, 18.10, 18.12 and 18.13: counters, background work and telemetry. -/
def Obligations.CountersAndBackground : Prop :=
  let event := fun (p : Option Nat) (e : Nat) => match p with
    | none => e ≤ 0x0B
    | some k => if k < 16 then e ≤ 0x0D else e ≤ 0x0C ∧ e ≠ 0x0B
  -- Selector i of a pipeline, or of the global counters, is written with v.
  let selects := fun (p : Option Nat) (i v : Nat) (s u : State) =>
    let key := pmcSel p i
    let old := (s.reg key).toNat
    let new := (u.reg key).toNat
    bitOf new 31 = bitOf v 31 ∧ bitOf new 30 = bitOf v 30 ∧ (event p (v % 256) → new % 256 = v % 256) ∧ (¬ event p (v % 256) → new % 256 = old % 256) ∧
      u.cnt (pmcCnt p i) = (if new % 256 = old % 256 ∧ bitOf new 30 = bitOf old 30 then s.cnt (pmcCnt p i) else 0) ∧ (∀ a, a ≠ pmcCnt p i → u.cnt a = s.cnt a) ∧
      Wrote s { u with cnts := s.cnts } [key]
  let on := fun (p : Option Nat) (s : State) => match p with
    | none => True
    | some k => s.domOn (if k < 16 then 1 + k else 17 + (k - 16) / 2) = true
  (∀ (p : Option Pipe) (i : Fin 16) (v : Word) (s : State),
    let k := p.map (·.val)
    let ok := (p ≠ none → i.val < 8) ∧ on k s
    (s.domOn 0 = true → ¬ ok → exec (.pmcSelectWrite p i v) s = .next (s.answer .busError)) ∧
    (s.domOn 0 = true → ok → Gives (.pmcSelectWrite p i v) s fun u => u.reply = .ok ∧ selects k i v.toNat s { u with reply := s.reply })) ∧
  (∀ (v : Word) (s : State), Gives (.snap v) s fun u => u.reply = .ok ∧ u.flag B.PMC R.PMC_CTRL_FREEZE = bitOf v.toNat 0 ∧
    (bitOf v.toNat 2 = true → s.flag B.PMC R.PMC_CTRL_SNAP_DONE = true → u.flag B.PMC R.PMC_CTRL_SNAP_DONE = false ∧
      ∃ t, u.flt.snapT = some t ∧ t % 1000 = 0 ∧ s.now + 2000 ≤ t ∧ t < s.now + 3000) ∧
    (bitOf v.toNat 2 = false ∨ s.flag B.PMC R.PMC_CTRL_SNAP_DONE = false → u.flt = s.flt ∧ u.flag B.PMC R.PMC_CTRL_SNAP_DONE = s.flag B.PMC R.PMC_CTRL_SNAP_DONE) ∧
    Wrote s { u with reply := s.reply, flt := s.flt } [B.PMC] ∧ u.flt = { s.flt with snapT := u.flt.snapT }) ∧
  (∀ s : State,
    let T := B.PMC + R.PMC_SNAP_TIME_LO_NS.off
    let shadowed := fun (u : State) => u.shadows = s.cnts ∧ (∀ d, d ∈ u.flt.shadowOff ↔ d < 80 ∧ s.domOn d = false) ∧
      (u.pair T : Int) = ((s.now : Int) + s.timeOff) % 2 ^ 64
    -- At T every counter copies into its shadow.
    (s.flt.snapT ≠ some s.now → s.snapTick = s) ∧
    (s.flt.snapT = some s.now → shadowed s.snapTick ∧ Wrote s { s.snapTick with shadows := s.shadows, flt := s.flt } [T, T + 4] ∧
      s.snapTick.flt = { s.flt with shadowOff := s.snapTick.flt.shadowOff }) ∧
    (s.flt.snapT = none → exec .snapshotInstant s = .next s) ∧
    (∀ t, s.flt.snapT = some t → s.now < t → exec .snapshotInstant s = .next s) ∧
    (∀ t, s.flt.snapT = some t → t ≤ s.now → (∀ j ∈ s.jobs, j.opcode ≠ 0x0611) → Gives .snapshotInstant s fun u =>
      u.flag B.PMC R.PMC_CTRL_SNAP_DONE = true ∧ Wrote s { u with flt := s.flt } [B.PMC] ∧ u.flt = { s.flt with snapT := none }) ∧
    (∀ t j c, s.flt.snapT = some t → t ≤ s.now → s.jobs = [j] → j.opcode = 0x0611 → j.obj = 0 → s.mgen j.q = j.mgen → (s.tag j.q).cur = some c →
      Gives .snapshotInstant s fun u => ∃ w, w.flt.snapT = none ∧ w.flag B.PMC R.PMC_CTRL_SNAP_DONE = true ∧ w.jobs = [] ∧ Ends j.q St.DONE (leBytes 8 (s.pair T)) w u) ∧
    -- The telemetry of one link whose period has ended.
    (let due := fun m : Nat => m < 16 ∧ (s.telem m).en = true ∧ (s.telem m).at_ + 100000000 * (s.telem m).period ≤ s.now
     ((∀ m, ¬ due m) ∨ s.flag B.PMC R.PMC_CTRL_SNAP_DONE = false ∨ s.now % 1000 ≠ 0 → exec .telemetryExport s = .next s) ∧
     (∀ m, due m → (∀ j, due j → j = m) → s.flag B.PMC R.PMC_CTRL_SNAP_DONE = true → s.now % 1000 = 0 → ∀ p, s.fnOfPlot p = some (m, 0) → s.plotOf m 0 = some p →
      -- Whole periods since the last record: those before this one are lost.
      let n := (s.now - (s.telem m).at_) / (100000000 * (s.telem m).period)
      let x := { s.telem m with at_ := (s.telem m).at_ + n * (100000000 * (s.telem m).period), lost := (s.telem m).lost + (n - 1) }
      let as_ := telemCnts m x.mask
      let len := 64 + 8 * as_.length
      let a := x.base + x.seq % 2 ^ x.size * len
      let body := fun u : State => leBytes 4 len ++ leBytes 8 (u.pair T) ++ leBytes 4 x.mask ++ leBytes 4 x.lost ++ List.replicate 40 0 ++
        as_.flatMap fun a => leBytes 8 (if s.unitExists a = true ∧ s.domOn ((domAt a).getD 0) = true then s.cnt a else 2 ^ 64 - 1)
      let ran := fun u : State => shadowed u ∧ (∀ j, j ≠ m → u.telem j = s.telem j) ∧ u.flt.snapT = s.flt.snapT
      (s.domOn 77 = false ∨ s.rd B.BMV R.BMV_HALT_HALT ≠ 0 ∨ s.windowOk p a len true = false → Gives .telemetryExport s fun u => ran u ∧
        u.telem m = { x with lost := x.lost + 1 } ∧ u.out = s.out ∧ u.flt.bg = s.flt.bg ∧ u.bgOverdue 10 = s.bgOverdue 10) ∧
      (s.domOn 77 = true → s.rd B.BMV R.BMV_HALT_HALT = 0 → s.windowOk p a len true = true → s.linkUp m = true → (s.fn m 0).bme = true → (s.fn m 0).flrAt = none →
        s.flag (B.PLOT p) R.PLOT_LOG_CTRL_LOGGING = false → Gives .telemetryExport s fun u => ran u ∧
          u.telem m = { x with lost := 0, seq := x.seq + 1 } ∧ u.bgOverdue 10 = false ∧
          u.out = s.out ++ s.writeOuts m 0 (a + 4) (body u) ++ s.writeOuts m 0 a (leBytes 4 ((1 - x.seq / 2 ^ x.size % 2) * 2 ^ 31 + x.seq % 2 ^ 31)))))) ∧
  (∀ (v : Word) (s : State),
    let a := v.toNat
    let ok := isCounter a = true ∧ s.unitExists a = true ∧ (domAt a).getD 0 ∉ s.flt.shadowOff
    Gives (.shadowSelect v) s fun u => u.reply = .ok ∧ u.reg (B.PMC + R.PMC_SH_SEL_ADDR.off) = v ∧
      u.flag B.PMC R.PMC_SH_STAT_VALID = decide ok ∧ u.flag B.PMC R.PMC_SH_STAT_ERR = !decide ok ∧
      (ok → u.pair (B.PMC + R.PMC_SH_LO_LO.off) = tget (fun _ => 0) s.shadows a % 2 ^ 64) ∧
      (¬ ok → u.pair (B.PMC + R.PMC_SH_LO_LO.off) = s.pair (B.PMC + R.PMC_SH_LO_LO.off)) ∧
      Wrote s { u with reply := s.reply } [B.PMC + 0x10, B.PMC + 0x14, B.PMC + 0x18, B.PMC + 0x1C]) ∧
  (∀ (a : Fin 11) (s : State),
    let age := if a = 5 ∨ a = 9 then s.now - s.bgLast a else s.bgAge a
    let hours := fun n => n * 3600000000000
    let late_ := if a = 5 then 1000000000 ≤ age else if a = 6 ∨ a = 7 then 15000000000 ≤ age else if a = 8 ∨ a = 9 then hours 26 ≤ age else s.bgAt a 1 = true
    let hard := if a = 0 ∨ a = 4 then False else if a = 5 then 10000000000 ≤ age else if a = 6 ∨ a = 7 then 20000000000 ≤ age
      else if a = 8 ∨ a = 9 then hours 48 ≤ age else s.bgAt a 2 = true
    let x := tget (fun _ => ⟨0, false⟩) s.flt.bg a
    (¬ late_ ∨ s.bgOverdue a = true → exec (.backgroundOverdue a) s = .next s) ∧
    (late_ → s.bgOverdue a = false → s.mild 9 → Gives (.backgroundOverdue a) s fun u => u.bgOverdue a = true ∧
      (∀ b, b < 11 → b ≠ a.val → u.bgOverdue b = s.bgOverdue b) ∧ u.sticky 9 = true ∧ u.flt.bg = s.flt.bg) ∧
    (¬ hard ∨ x.hard = true → exec (.backgroundHardBound a) s = .next s) ∧
    (hard → x.hard = false → s.mild 10 → Gives (.backgroundHardBound a) s fun u => u.sticky 10 = true ∧
      tget (fun _ => ⟨0, false⟩) u.flt.bg a = { x with hard := true } ∧ ∀ b, b ≠ a.val → tget (fun _ => ⟨0, false⟩) u.flt.bg b = tget (fun _ => ⟨0, false⟩) s.flt.bg b)) ∧
  (∀ (s : State),
    let ran := fun (u : State) (a : Nat) => u.bgOverdue a = false ∧ (∀ b, b < 11 → b ≠ a → u.bgOverdue b = s.bgOverdue b) ∧
      tget (fun _ => ⟨0, false⟩) u.flt.bg a = ⟨s.now, false⟩ ∧ ∀ b, b ≠ a → tget (fun _ => ⟨0, false⟩) u.flt.bg b = tget (fun _ => ⟨0, false⟩) s.flt.bg b
    (s.now < s.bgLast 5 + 100000000 → exec .serdesAdaptation s = .next s) ∧
    (s.bgLast 5 + 100000000 ≤ s.now → Gives .serdesAdaptation s fun u => ran u 5 ∧ u = { s with regs := u.regs, flt := { s.flt with bg := u.flt.bg } }) ∧
    (∀ (x : ScrubMem) (ecc : Ecc) (rb : Bool),
      -- Its domain is on, and the pass does not run ahead of one per 480 s.
      let on := s.domOn (scrubDom x) = true ∧ s.flt.parity * 480000000000 ≤ (s.now - s.bgLast 2) * s.parityTotal
      let go := fun (P : State → Prop) => Gives (.parityScrubStep x ecc rb) s P
      let key := match x with
        | .seed q i => some (upsetSeed (seedKey q i))
        | .sieve q a => some (upsetSieve (sieveKey q a))
        | .word p bank gate w => some (upsetWord (wordKey p bank gate w))
        | .graph h a => some (graphKey h a)
        | .meter _ _ | .edit _ _ => none
      let src := match x with
        | .seed q _ => 160 + 4 * q.val
        | .sieve q _ => 161 + 4 * q.val
        | .word p _ _ _ => pipeSrc p 1
        | .graph h _ => 32 + 4 * h.val
        | .meter _ _ | .edit _ _ => 0
      (¬ on → exec (.parityScrubStep x ecc rb) s = .next s) ∧
      (on → s.mild 26 → s.mild src ∨ key = none → (s.parityTotal ≤ s.flt.parity + 1 → go fun u => u.flt.parity = 0 ∧ ran u 2) ∧
        (s.flt.parity + 1 < s.parityTotal → go fun u => u.flt.parity = s.flt.parity + 1 ∧ u.flt.bg = s.flt.bg ∧ u.bgOverdue 2 = s.bgOverdue 2)) ∧
      (on → key = none ∨ (ecc = .good ∧ ∀ k, key = some k → s.upset k = 0) → go fun u =>
        u = { s with regs := u.regs, flt := { s.flt with parity := u.flt.parity, bg := u.flt.bg } }) ∧
      (∀ k, key = some k → on → ecc = .bad → s.mild src →
        (s.modes.lkRunning = false → go fun u => u.upset k = 2 ∧ u.sticky src = true) ∧
        (s.modes.lkRunning = true → (∃ p b g w, x = .word p b g w) ∨ (∃ h a, x = .graph h a) → go fun u => u.upset k = 2 ∧ u.sticky src = true) ∧
        (s.modes.lkRunning = true → rb = true → ∀ q i, x = .seed q i → go fun u =>
          let e := s.seedAt q i
          let k := Seed.key e
          -- A withdrawn location, and one of the static table, stay as they are; no second entry gets a key (R174).
          u.seedAt q i = (if Seed.retired e || decide (130048 ≤ i.val) then e
            else if Seed.valid (s.masterAt k) && (s.seedFind q k = some i.val || s.seedFind q k = none) then
              Seed.setStale (Seed.setHit (s.masterAt k) (Seed.hit e)) (Seed.stale e)
            else 0) ∧
          (s.flag (srcBase src) R.FLT_SRC_ROUTE = false → u.sticky src = false) ∧ (s.flag (srcBase src) R.FLT_SRC_ROUTE = true → u.sticky src = true)) ∧
        (s.modes.lkRunning = true → rb = true → ∀ q a, x = .sieve q a → go fun u =>
          let w := s.bankWidth q (a / bankUnits)
          (∀ j, j < w → u.unit q (a / w * w + j) = s.unit (if ∃ k, k < w ∧ Sieve.retired (s.unit q (a / w * w + k)) = true then q.val else sieveMaster) (a / w * w + j)) ∧
          (s.flag (srcBase src) R.FLT_SRC_ROUTE = true → u.sticky src = true))))) ∧
  (∀ (q : Req) (s : State) (c : Cmd),
    let end_ := fun (i : Sys2Proof.Instr) (st : Nat) => Gives i s (Ends q st [] s)
    let T := B.PMC + R.PMC_SNAP_TIME_LO_NS.off
    (s.holds q 0x0610 c → s.domOn 0 = true →
      let p := if c.u8 8 = 0 then some (c.u8 9) else if c.u8 8 = 1 then some (16 + c.u8 9) else none
      let ok := c.u8 8 ≤ 2 ∧ (c.u8 8 < 2 → c.u8 9 < 16) ∧ c.u8 10 < (if c.u8 8 = 2 then 16 else 8) ∧ event p (c.u8 11) ∧ on p s
      (¬ ok → end_ (.pmcSet q) St.BAD_ARGUMENT) ∧
      (ok → Gives (.pmcSet q) s fun t => ∃ v, Ends q St.DONE [] v t ∧
        selects p (c.u8 10) (c.u8 12 % 2 * 2 ^ 31 + c.u8 12 / 2 % 2 * 2 ^ 30 + c.u8 11) s v)) ∧
    (s.holds q 0x0611 c →
      (bitOf (c.u8 8) 1 = false → Gives (.pmcCtrl q) s fun t => ∃ v, Ends q St.DONE (leBytes 8 (s.pair T)) v t ∧ v.flag B.PMC R.PMC_CTRL_FREEZE = bitOf (c.u8 8) 0 ∧
        v.flag B.PMC R.PMC_CTRL_SNAP_DONE = s.flag B.PMC R.PMC_CTRL_SNAP_DONE ∧ Wrote s v [B.PMC]) ∧
      (bitOf (c.u8 8) 1 = true → Gives (.pmcCtrl q) s fun v => v.flag B.PMC R.PMC_CTRL_FREEZE = bitOf (c.u8 8) 0 ∧ v.flag B.PMC R.PMC_CTRL_SNAP_DONE = false ∧
        v.jobs = s.jobs ++ [{ q := q, mgen := s.mgen q, opcode := 0x0611, obj := 0, due := 0, st := 0, data := [] }] ∧ v.tag q = s.tag q ∧
        (s.flag B.PMC R.PMC_CTRL_SNAP_DONE = true → ∃ t, v.flt.snapT = some t ∧ t % 1000 = 0 ∧ s.now + 2000 ≤ t ∧ t < s.now + 3000) ∧
        (s.flag B.PMC R.PMC_CTRL_SNAP_DONE = false → v.flt = s.flt))) ∧
    (s.holds q 0x0612 c →
      let a := c.u32 8
      let ok := isCounter a = true ∧ s.unitExists a = true
      let value := fun (v : Option Nat) => Gives (.pmcRead q) s (Ends q St.DONE (leBytes 8 (v.getD 0) ++ leBytes 1 (if v = none then 1 else 0)) s)
      (¬ ok → end_ (.pmcRead q) St.BAD_ARGUMENT) ∧
      (ok → bitOf (c.u8 12) 0 = true → value (if (domAt a).getD 0 ∈ s.flt.shadowOff then none else some (tget (fun _ => 0) s.shadows a))) ∧
      (ok → bitOf (c.u8 12) 0 = false → value (if s.domOn ((domAt a).getD 0) then some (s.cnt a) else none))) ∧
    (s.holds q 0x0613 c → (∀ n, q = .core n → end_ (.telemSet q) St.REFUSED) ∧ ∀ m t', q = .host m t' →
      let period := c.u16 18
      let ok := 4 ≤ c.u8 16 ∧ c.u8 16 ≤ 12 ∧ 1 ≤ period ∧ period ≤ 600 ∧ c.u32 20 < 1024
      (¬ ok → end_ (.telemSet q) St.BAD_ARGUMENT) ∧
      (ok → Gives (.telemSet q) s fun t => ∃ v, Ends q St.DONE (leBytes 4 (64 + 8 * (telemCnts m (c.u32 20)).length)) v t ∧
        v = { s with flt := { s.flt with telem := v.flt.telem } } ∧ (∀ j, j ≠ m.val → v.telem j = s.telem j) ∧
        v.telem m = { en := bitOf (c.u8 17) 0, base := c.u64 8, size := c.u8 16, period := period, mask := c.u32 20, seq := 0, lost := 0, at_ := s.now })) ∧
    (s.holds q 0x0614 c → Gives (.bgStatus q) s fun t => ∃ l, Ends q St.DONE l s t ∧ l.length = 48 ∧ leNat ((l.drop 2).take 2) = s.rd B.FLT R.FLT_BG_OVERDUE_OVERDUE ∧
      (∀ a, a < 11 → (bitOf (leNat (l.take 2)) a = true ↔ s.bgOverdue a = true ∨ s.bgAt a 0 = true)) ∧
      ∀ a, a < 11 → leNat ((l.drop (4 + 4 * a)).take 4) = s.bgAge a / 1000000 % 2 ^ 32))


/-! ### Boot, attestation and the life-cycle (chapter 19) -/

/-- R440 to R445, Tables 19.1 to 19.4: the boot, the recovery responder and the life-cycle lock. -/
def Obligations.BootAndLifeCycle : Prop :=
  let next := fun (old new : Nat) => (old = 0 ∧ new = 1) ∨ (old = 1 ∧ new = 2) ∨ ((old = 1 ∨ old = 2) ∧ new = 3) ∨ (old < 4 ∧ new = 4)
  (∀ s : State,
    let go := s.modes.lkRunning = false ∧ s.flag B.DEV R.DEV_MODE_LATCHED = false
    let resolves := s.sec.cold = true ∨ s.sec.prog.isSome = true
    (¬ go → exec .firmwareStarted s = .next s) ∧
    (go → s.sec.otp.outside = true → s.sev 2 = 4 → Gives .firmwareStarted s fun u => u.sticky 2 = true ∧ u.modes.lkRunning = false ∧ u.rd B.FLT R.FLT_ALIVE_CAUSE = 3 ∧
      (s.mode = .fallow → u.mode = .fallow ∧ u.flag B.DEV R.DEV_MODE_LATCHED = true)) ∧
    (go → s.sec.otp.outside = false →
      (¬ resolves → Gives .firmwareStarted s fun u => ∃ v, v = { s with keks := v.keks } ∧
        v.kek 0 = (if s.lcState = 1 ∨ s.lcState = 2 then Config.provisioningKey s.sec.otp.seed else []) ∧ (∀ j, j ≠ 0 → v.kek j = s.kek j) ∧ Booted v u) ∧
      (resolves → (∀ k, 1 ≤ k → k ≤ 4 → s.otpRow k = .blank) → Gives .firmwareStarted s fun u => ∃ v, v.lcState = 0 ∧ v.kek 0 = [] ∧ v.sec = s.sec ∧
        Wrote s { v with keks := s.keks } [B.SEC] ∧ Booted v u) ∧
      (resolves → ∀ k, 1 ≤ k → k ≤ 4 → s.otpRow k ≠ .blank → (∀ j, k < j → j ≤ 4 → s.otpRow j = .blank) → Gives .firmwareStarted s fun u => ∃ v, Booted v u ∧
        v.lcState = k ∧ v.otpRow k = .done ∧ (∀ j, j ≠ k → v.otpRow j = s.otpRow j) ∧
        (s.otpRow k = .done → v.sec = s.sec ∧ v.flag B.SEC R.SEC_LC_TORN = s.flag B.SEC R.SEC_LC_TORN) ∧
        (s.otpRow k ≠ .done → v.flag B.SEC R.SEC_LC_TORN = true ∧ v.sec.prog = none) ∧
        v.kek 0 = (if k ≤ 2 then Config.provisioningKey v.sec.otp.seed else []) ∧ (∀ j, j ≠ 0 → v.kek j = s.kek j) ∧
        (3 ≤ k → s.otpRow k ∈ [RowSt.copyA, .copyB, .entry] → v.sec.otp.seed = s.sec.otp.seed.map (fun _ => 0xFF) ∧
          v.sec.otp.owner = s.sec.otp.owner.map (fun _ => 0xFF) ∧
          v.sec.otp.secret = if k = 4 then s.sec.otp.secret.map (fun _ => 0xFF) else s.sec.otp.secret) ∧
        (k = 2 → v.sec.otp.secret = s.sec.otp.secret ∧ v.sec.otp.seed = s.sec.otp.seed ∧ v.sec.otp.owner = s.sec.otp.owner) ∧
        v = { s with regs := v.regs, sec := v.sec, keks := v.keks, freeCtr := v.freeCtr }))) ∧
  (∀ (data : List Byte) (s : State),
    let failed := 2 ≤ s.rd B.SEC R.SEC_IMAGE_A_RESULT ∧ 2 ≤ s.rd B.SEC R.SEC_IMAGE_B_RESULT
    let ok := s.modes.lkRunning = false ∧ failed ∧ data.length ≤ 15 * 2 ^ 20 ∧ s.flag B.PWR R.PWR_BUS_STAT_SMB_ISO = false
    (¬ ok → exec (.recoveryImage data) s = .next s) ∧
    (ok → Gives (.recoveryImage data) s fun u => ∃ v, Booted v u ∧ v = { s with sec := { s.sec with nor := v.sec.nor, prefer := false } } ∧
      (∀ i, i < 15 * 2 ^ 20 → byteAt v.sec.nor (0x10_0000 + i) = data.getD i 0) ∧
      ∀ a, ¬ (0x10_0000 ≤ a ∧ a < 0x10_0000 + 15 * 2 ^ 20) → byteAt v.sec.nor a = byteAt s.sec.nor a)) ∧
  (∀ (v : Word) (s : State),
    let lock := s.flag B.SEC R.SEC_LOCK_LCLOCK
    let asked := bitsOf v.toNat 2 0
    let target := s.rd B.SEC R.SEC_LC_CTRL_TARGET
    let k := if next s.lcState asked then asked else target
    let goes := bitOf v.toNat 3 = true ∧ s.flag B.SEC R.SEC_LC_BUSY = false ∧ next s.lcState k
    (lock = true → s.mild 7 → Gives (.go v) s fun u => u.reply = .ok ∧ u.sticky 7 = true ∧ u.sec = s.sec ∧ u.rd B.SEC R.SEC_LC_CTRL_TARGET = target ∧ u.lcState = s.lcState) ∧
    (lock = false → ¬ goes → Gives (.go v) s fun u => u.reply = .ok ∧ u.rd B.SEC R.SEC_LC_CTRL_TARGET = k ∧ Wrote s { u with reply := s.reply } [B.SEC + R.SEC_LC_CTRL_GO.off]) ∧
    (lock = false → goes → Gives (.go v) s fun u => u.reply = .ok ∧ Programs s u k ∧ u.flag B.SEC R.SEC_LC_CTRL_GO = true ∧ u.rd B.SEC R.SEC_LC_CTRL_TARGET = k ∧
      u = { s with reply := .ok, regs := u.regs, sec := u.sec, keks := u.keks, freeCtr := u.freeCtr }))

/-- R441, R445 to R448, Tables 19.4 to 19.7: the security commands and the SPDM responder. -/
def Obligations.SecurityCommands : Prop :=
  (∀ (q : Req) (s : State) (c : Cmd) (buf : Fetch),
    let go := fun (i : Sys2Proof.Instr) (P : State → Prop) => Gives i s P
    -- The command answers a status and data at exactly T after its start; v is the rest of its effect.
    let later := fun (op T st : Nat) (data : List Byte) (v u : State) => u = { v with jobs := s.jobs ++
      [{ q := q, mgen := s.mgen q, opcode := op, obj := 0, due := s.now + T * 1000000, st := st, data := data }] }
    let w := Config.authKind
    let tw := Config.authTarget
    -- A block of a kind for a target with a nonce, and the parts of its signers, in order.
    let block := fun (kind target nonce : Nat) (parts : List (Nat × List Byte)) (l : List Byte) =>
      let head := leBytes 4 0x4155_4853 ++ leBytes w kind ++ leBytes 32 nonce ++ leBytes 8 Config.serial ++ leBytes tw target
      l = head ++ parts.flatMap (·.2) ∧ kind < 2 ^ (8 * w) ∧ nonce < 2 ^ 256 ∧ Config.serial < 2 ^ 64 ∧ target < 2 ^ (8 * tw) ∧
        (∀ x ∈ parts, x.2.length = 97 + 2592 + 96 + 4627 ∧ hybridOk (if x.1 = 0 then Config.romHashes else s.sec.otp.owner) head x.2 = true) ∧
        (∃ t, (nonce, t) ∈ s.sec.nonces ∧ s.now < t + 60000000000)
    let used := fun (v : State) (nonce : Nat) => v.sec.nonces = s.sec.nonces.filter (·.1 ≠ nonce)
    let signers := fun k : Nat => if k = 1 ∨ (k = 4 ∧ s.lcState = 0) then [0] else if k = 3 then [0, 1] else [1]
    let next := fun (old new : Nat) => (old = 0 ∧ new = 1) ∨ (old = 1 ∧ new = 2) ∨ ((old = 1 ∨ old = 2) ∧ new = 3) ∨ (old < 4 ∧ new = 4)
    let got := s.bufGives q (c.u64 16) (c.u32 24) buf
    (s.holds q 0x0800 c →
      let lo := fun o : Nat => BitVec.ofNat 8 (s.reg (B.SEC + o)).toNat
      go (.secStatus q) (Ends q St.DONE ([lo 0, lo 0xC, lo 0x10, lo 0x14] ++ leBytes 4 s.sec.version) s)) ∧
    (s.holds q 0x0801 c → go (.secChallenge q) fun u => ∃ n : List Byte, n.length = 32 ∧ later 0x0801 1 St.DONE (n ++ leBytes 8 Config.serial) { s with freeCtr := u.freeCtr } u) ∧
    (s.holds q 0x0802 c →
      let k := c.u8 8
      let free := ∀ j ∈ s.jobs, j.opcode ≠ 0x0802
      let no := fun (v : State) st => go (.lcAdvance q buf) (later 0x0802 400 st [] v)
      (¬ free → go (.lcAdvance q buf) fun t => (t.tag q).cur = none ∧ s.resultOnly t q ∧ (t.tag q).fin.map (·.status) = some St.BUSY_RETRY) ∧
      (free → (s.bufWaits q → exec (.lcAdvance q buf) s = .next s) ∧ (∀ v, s.bufFails q (c.u64 16) (c.u32 24) buf v → no v St.BAD_ARGUMENT) ∧
        (∀ l v, got l v → ¬ next s.lcState k ∨ s.flag B.SEC R.SEC_LOCK_LCLOCK = true ∨ s.flag B.SEC R.SEC_LC_BUSY = true → no v St.REFUSED) ∧
        (∀ l v, got l v → s.authorised l 1 k (signers k) = none → no v St.REFUSED) ∧
        (∀ l v₀ n parts, got l v₀ → next s.lcState k → s.flag B.SEC R.SEC_LOCK_LCLOCK = false → s.flag B.SEC R.SEC_LC_BUSY = false →
          parts.map (·.1) = signers k → block 1 k n parts l → go (.lcAdvance q buf) fun u => ∃ v, later 0x0802 400 St.DONE [] v u ∧ Programs v₀ v k ∧ used v n ∧
            v = { v₀ with regs := v.regs, sec := v.sec, keks := v.keks, freeCtr := v.freeCtr }))) ∧
    (s.holds q 0x0803 c →
      let mask := c.u8 8
      -- Signer of a path's grant in this state.
      let by_ := fun b : Nat => if b = 1 ∧ s.lcState = 2 then some 1 else if (b = 2 ∨ b = 4) ∧ s.lcState = 3 then some 0
        else if b = 3 ∧ (s.lcState = 1 ∨ s.lcState = 3) then some 0 else if b = 3 ∧ s.lcState = 2 then some 1 else none
      let ok := fun g : Nat => mask ≠ 0 ∧ ∀ b, bitOf mask b = true → by_ b = some g
      let no := fun (v : State) st => go (.debugUnlock q buf) (later 0x0803 200 st [] v)
      (s.bufWaits q → exec (.debugUnlock q buf) s = .next s) ∧ (∀ v, s.bufFails q (c.u64 16) (c.u32 24) buf v → no v St.BAD_ARGUMENT) ∧
      (∀ l v, got l v → (∀ g, ¬ ok g) → no v St.REFUSED) ∧
      (∀ l v g, got l v → ok g → s.authorised l 2 mask [g] = none → no v St.REFUSED) ∧
      (∀ l v₀ g n x, got l v₀ → ok g → x.1 = g → block 2 mask n [x] l → go (.debugUnlock q buf) fun u => ∃ v, later 0x0803 200 St.DONE [] v u ∧ used v n ∧
        (∀ e, e ∈ v.sec.grants ↔ e ∈ s.sec.grants ∨ (e.2 = g ∧ bitOf mask e.1 = true)) ∧
        (∀ b, b < 5 → (bitOf (v.reg (B.SEC + 0x14)).toNat b = true ↔ debugOpen s.lcState v.sec.grants b)) ∧ (∀ i, i ≠ 7 → v.measurement i = s.measurement i) ∧
        v = { v₀ with regs := v.regs, sec := { s.sec with nonces := v.sec.nonces, grants := v.sec.grants, meas := v.sec.meas } } ∧
        ∀ a, a ≠ B.SEC + 0x14 → v.reg a = v₀.reg a)) ∧
    (let other := !s.flag B.SEC R.SEC_IMAGE_RUNNING
     (s.holds q 0x0804 c →
      let off := c.u32 8
      let len := c.u32 12
      let base := if other then 0x100_0000 else 0x10_0000
      let ok := len % 4096 = 0 ∧ len ≤ 2 ^ 18 ∧ off + len ≤ 15 * 2 ^ 20
      (¬ ok → go (.imageWrite q buf) (later 0x0804 1500 St.BAD_ARGUMENT [] s)) ∧ (ok → s.bufWaits q → exec (.imageWrite q buf) s = .next s) ∧
      (∀ v, ok → s.bufFails q (c.u64 16) len buf v → go (.imageWrite q buf) (later 0x0804 1500 St.BAD_ARGUMENT [] v)) ∧
      (ok → ∀ l v₀, s.bufGives q (c.u64 16) len buf l v₀ → l.length = len → go (.imageWrite q buf) fun u => ∃ v, later 0x0804 1500 St.DONE [] v u ∧
        v = { v₀ with sec := { s.sec with nor := v.sec.nor } } ∧
        (∀ i, i < len → byteAt v.sec.nor (base + off + i) = l.getD i 0) ∧ ∀ a, ¬ (base + off ≤ a ∧ a < base + off + len) → byteAt v.sec.nor a = byteAt s.sec.nor a)) ∧
     (s.holds q 0x0805 c →
      (s.imageCode other s.lcState ≠ 1 → go (.imageActivate q) (later 0x0805 600 St.REFUSED [] s)) ∧
      (∀ x obj sig, s.firmware other = some (x, obj, sig) → s.imageCode other s.lcState = 1 → go (.imageActivate q) fun u => ∃ v,
        later 0x0805 600 St.DONE (leBytes 4 x.1) v u ∧ v.sec = { s.sec with prefer := other } ∧ v.flag B.SEC R.SEC_IMAGE_PREFER = other ∧
        v.flag B.SEC R.SEC_IMAGE_RUNNING = !other ∧ Wrote s { v with sec := s.sec } [B.SEC + 0x10]))) ∧
    (s.holds q 0x0806 c → s.sec.otp.svn ≤ 64 → s.sec.runSvn ≤ 63 → go (.svnCommit q) fun u => ∃ v,
      let n := max s.sec.otp.svn s.sec.runSvn
      later 0x0806 200 St.DONE (leBytes 1 n) v u ∧ v.sec.otp = { s.sec.otp with svn := n } ∧ v.rd B.SEC R.SEC_SVN_COUNT = n ∧
        (∀ i, i ≠ 6 → v.measurement i = s.measurement i) ∧ v.measurement 6 = Config.sha384 (Config.layout [s.lcState, n, s.rd B.SEC R.SEC_LC_TORN]) ∧
        Wrote s { v with sec := s.sec } [B.SEC + 0xC]) ∧
    (s.holds q 0x0807 c → (1 ≤ c.u8 8 ∧ c.u8 8 ≤ 7 → go (.measureRead q) (Ends q St.DONE (s.measurement (c.u8 8)) s)) ∧
      (¬ (1 ≤ c.u8 8 ∧ c.u8 8 ≤ 7) → go (.measureRead q) (Ends q St.BAD_ARGUMENT [] s)))) ∧
  (∀ s : State,
    let live := fun x : Nat × Nat => decide (s.now < x.2 + 60000000000)
    exec .nonceExpiry s = .next { s with sec := { s.sec with nonces := s.sec.nonces.filter live } } ∧
    ((∀ j ∈ s.jobs, j.opcode / 256 = 8 → s.now < j.due) → exec .securityResultDue s = .next s) ∧
    (∀ j c, s.jobs = [j] → j.opcode / 256 = 8 → j.due ≤ s.now → s.mgen j.q = j.mgen → (s.tag j.q).cur = some c → Gives .securityResultDue s fun u => ∃ v,
      Ends j.q j.st j.data v u ∧ v.jobs = [] ∧ (j.st = St.REFUSED → s.flag B.PMC R.PMC_CTRL_FREEZE = false →
        v.cnt (B.SEC + C.SEC_REFUSED) = (s.cnt (B.SEC + C.SEC_REFUSED) + 1) % 2 ^ 64) ∧ (j.st ≠ St.REFUSED → v.cnts = s.cnts) ∧
      v.sec = { s.sec with nonces := s.sec.nonces ++ if j.opcode = 0x0801 then [(leNat (j.data.take 32), s.now)] else [] } ∧
      v = { s with jobs := [], cnts := v.cnts, sec := v.sec, flt := v.flt })) ∧
  (∀ (via : Option Link) (s : State),
    let heard := match via with
      | none => s.flag B.PWR R.PWR_BUS_STAT_SMB_ISO = false
      | some m => s.linkUp m = true ∧ (s.fn m 0).bme = true ∧ (s.fn m 0).flrAt = none
    let deaf := match via with
      | none => s.flag B.PWR R.PWR_BUS_STAT_SMB_ISO = true
      | some m => s.linkUp m = false
    -- The response of a code to a request is sent, and nothing else changes but the link's power state and the draws.
    let sends := fun (i : Sys2Proof.Instr) (code : Nat) (facts : List (List Byte)) => Gives i s fun u =>
      u.out = s.out ++ [.spdm ((via.map (·.val + 1)).getD 0) code (Config.spdm code facts)] ∧
        u = { s with out := u.out, links := u.links, regs := u.regs, freeCtr := u.freeCtr }
    let error := fun (i : Sys2Proof.Instr) (e : Byte) => sends i 0x7F [[e]]
    let chain := Config.certChain s.sec.otp.secret
    let none_ := s.lcState = 0 ∨ s.lcState = 4
    let booted := s.rd B.SEC R.SEC_IMAGE_A_RESULT = 1 ∨ s.rd B.SEC R.SEC_IMAGE_B_RESULT = 1
    (∀ (ver slot off len index : Nat) (signed p h : Bool) (nonce : List Byte),
      let all := [Sys2Proof.Instr.getCapabilities via ver, .negotiateAlgorithms via ver p h, .getDigests via ver, .getCertificate via ver slot off len,
        .challenge via ver slot nonce, .getMeasurements via ver index signed nonce]
      (deaf ∨ (s.modes.lkRunning = false ∧ ¬ booted) → exec (.getVersion via) s = .next s ∧ ∀ i ∈ all, Gives i s fun u => u = { s with freeCtr := u.freeCtr }) ∧
      (heard → s.modes.lkRunning = false → booted → ∀ i ∈ Sys2Proof.Instr.getVersion via :: all, error i 0x03) ∧
      (heard → s.modes.lkRunning = true → sends (.getVersion via) 0x04 [[0x12, 0x13]] ∧
        (ver ≠ 0x12 → ver ≠ 0x13 → ∀ i ∈ all, error i 0x41) ∧
        (ver = 0x12 ∨ ver = 0x13 → s.lcState = 4 → ∀ i ∈ all, error i 0x07) ∧
        (ver = 0x12 ∨ ver = 0x13 → s.lcState ≠ 4 →
          sends (.getCapabilities via ver) 0x61 [leBytes 4 22] ∧
          sends (.negotiateAlgorithms via ver p h) 0x63 [leBytes 4 (if p then 1 else 0), leBytes 4 (if h then 1 else 0), leBytes 4 1] ∧
          sends (.getDigests via ver) 0x01 (if none_ then [[0]] else [[1], Config.sha384 chain]) ∧
          (none_ → error (.getCertificate via ver slot off len) 0x07 ∧ error (.challenge via ver slot nonce) 0x07 ∧
            (signed = true → error (.getMeasurements via ver index signed nonce) 0x07)) ∧
          (¬ none_ → slot ≠ 0 → error (.getCertificate via ver slot off len) 0x01 ∧ error (.challenge via ver slot nonce) 0x01) ∧
          (¬ none_ → chain.length < off → error (.getCertificate via ver 0 off len) 0x01) ∧
          (¬ none_ → off ≤ chain.length → sends (.getCertificate via ver 0 off len) 0x02 [(chain.drop off).take len, leBytes 2 (chain.length - off - len)]) ∧
          (¬ none_ → ∃ n : List Byte, n.length = 32 ∧
            let facts := [Config.sha384 chain, n, Config.sha384 ((List.range' 1 7).flatMap s.measurement)]
            sends (.challenge via ver 0 nonce) 0x03 (facts ++ [Config.sign s.sec.otp.secret (Config.sha384 (nonce ++ facts.flatten))])) ∧
          (¬ none_ ∨ signed = false →
            (7 < index → index ≠ 0xFF → error (.getMeasurements via ver index signed nonce) 0x01) ∧
            (index ≤ 7 ∨ index = 0xFF → ∃ n : List Byte, n.length = 32 ∧
              let facts := (if index = 0 then [[7]] else if index = 0xFF then (List.range' 1 7).map s.measurement else [s.measurement index]) ++ [n]
              sends (.getMeasurements via ver index signed nonce) 0x60
                (facts ++ if signed then [Config.sign s.sec.otp.secret (Config.sha384 (nonce ++ facts.flatten))] else [])))))))


/-! ### Pins, rails and buses (chapter 20) -/

/-- R81, R455, R458, R460, Tables 20.3, 20.6 and 20.8: CISTERN_OK, readings of the rails, buses that stick, OSC_IN. -/
def Obligations.PinsAndBuses : Prop :=
  -- A level is taken that differs, 10 µs after the last one at the least.
  (∀ (level : Bool) (s : State), (s.flag B.PWR R.PWR_PINS_CISTERN_OK = level ∨ s.due Tm.cistOk 10000 = false → exec (.cisternOkChange level) s = .next s) ∧
   (s.flag B.PWR R.PWR_PINS_CISTERN_OK ≠ level → s.due Tm.cistOk 10000 = true → Gives (.cisternOkChange level) s fun u =>
    u.last Tm.cistOk = some s.now ∧
    u.flag B.PWR R.PWR_PINS_CISTERN_OK = level ∧
    (u.flag B.DEV R.DEV_MODE_WRITEBACK = true ↔
      s.mode = .flowing ∧ level = true ∧ s.flag B.CIST R.CIST_STATUS_ABOVE = true ∧ s.flag B.DEV R.DEV_MODE_VAULT_PENDING = false) ∧
    (level = false → u.healthy = false ∧ ∀ w ∈ u.silo.writes, w.through = true) ∧
    (u.flag B.DEV R.DEV_MODE_WRITEBACK = true → u.silo = s.silo) ∧
    u.mode = s.mode ∧ u.busy = s.busy ∧ Wrote s { u with silo := s.silo, timers := s.timers } [B.PWR + R.PWR_PINS_CISTERN_OK.off, B.DEV + R.DEV_MODE_WRITEBACK.off] ∧
    u.silo = { s.silo with writes := u.silo.writes })) ∧
  (∀ (n : Fin 11) (mv current : Fin 65536) (s : State),
    let lost := if n.val = 0 then s.flag B.PWR R.PWR_BUS_STAT_PMB0_LOST = true else s.flag B.PWR R.PWR_BUS_STAT_PMB1_LOST = true
    (lost → exec (.railReading n mv current) s = .next s) ∧
    (¬ lost → Gives (.railReading n mv current) s fun u => (u.reg (B.PWR + 0x100 + 4 * n.val)).toNat = 65536 * mv.val + current.val ∧
      Wrote s u [B.PWR + 0x100 + 4 * n.val])) ∧
  (∀ (freed : Bool) (s : State),
    let lost0 := s.flag B.PWR R.PWR_BUS_STAT_PMB0_LOST
    let lost1 := s.flag B.PWR R.PWR_BUS_STAT_PMB1_LOST
    -- The register of the buses after a command; the rest is s but for what a message of source 5 leaves.
    let bits := fun (u : State) (smb p0 p1 : Bool) => u.flag B.PWR R.PWR_BUS_STAT_SMB_ISO = smb ∧ u.flag B.PWR R.PWR_BUS_STAT_PMB0_LOST = p0 ∧
      u.flag B.PWR R.PWR_BUS_STAT_PMB1_LOST = p1
    let raised := fun (b : MgmtBus) (u : State) => u.sticky 5 = true ∧ u.last (Tm.bus b) = some s.now ∧
      u = { s with regs := u.regs, cnts := u.cnts, flt := u.flt, out := u.out, links := u.links, mem := u.mem, fns := u.fns, kcu := u.kcu, timers := u.timers }
    -- Nine SCL pulses, a STOP and the retry have gone out, and nothing else has changed but a register.
    let wire := fun b : MgmtBus => (List.replicate 9 "SCL" ++ ["STOP", "RETRY"]).map fun w => Out.bus b w
    let tried := fun (b : MgmtBus) (u : State) (l : List Nat) => u.out = s.out ++ wire b ∧ u.last (Tm.bus b) = some s.now ∧
      Wrote s { u with out := s.out, timers := s.timers } l
    let stat := B.PWR + R.PWR_BUS_STAT_SMB_ISO.off
    -- A bus that is given up is tried again every second.
    let tries := fun b : MgmtBus => s.busLost b = false ∨ s.due (Tm.bus b) (ms 1000) = true
    (∀ b, ¬ tries b → exec (.smbusStuck b freed) s = .next s) ∧
    (tries .smb → Gives (.smbusStuck .smb freed) s fun u => bits u (!freed) lost0 lost1 ∧ tried .smb u [stat]) ∧
    (tries .pmb0 → Gives (.smbusStuck .pmb0 true) s fun u => bits u (s.flag B.PWR R.PWR_BUS_STAT_SMB_ISO) false lost1 ∧
      (s.gov.nacks < 3 → u.flag B.PACE R.PACE_FLAGS_AVS_LOST = false) ∧
      (3 ≤ s.gov.nacks → u.flag B.PACE R.PACE_FLAGS_AVS_LOST = s.flag B.PACE R.PACE_FLAGS_AVS_LOST) ∧
      tried .pmb0 u [stat, B.PACE + R.PACE_FLAGS_AVS_LOST.off]) ∧
    (tries .pmb0 → lost0 = true → Gives (.smbusStuck .pmb0 false) s (tried .pmb0 · [])) ∧
    (lost0 = false → s.mild 5 → Gives (.smbusStuck .pmb0 false) s fun u => bits u (s.flag B.PWR R.PWR_BUS_STAT_SMB_ISO) true lost1 ∧
      u.flag B.PACE R.PACE_FLAGS_AVS_LOST = true ∧ u.rd B.PACE R.PACE_STATUS_VREQ = s.rd B.PACE R.PACE_STATUS_VREQ ∧ raised .pmb0 u ∧
      ∃ l, u.out = s.out ++ wire .pmb0 ++ l) ∧
    (tries .pmb1 → Gives (.smbusStuck .pmb1 true) s fun u => bits u (s.flag B.PWR R.PWR_BUS_STAT_SMB_ISO) lost0 false ∧ tried .pmb1 u [stat]) ∧
    (tries .pmb1 → lost1 = true → Gives (.smbusStuck .pmb1 false) s (tried .pmb1 · [])) ∧
    (lost1 = false → s.mild 5 → Gives (.smbusStuck .pmb1 false) s fun u => bits u (s.flag B.PWR R.PWR_BUS_STAT_SMB_ISO) lost0 true ∧
      u.flag B.PACE R.PACE_FLAGS_AVS_LOST = s.flag B.PACE R.PACE_FLAGS_AVS_LOST ∧ raised .pmb1 u ∧ ∃ l, u.out = s.out ++ wire .pmb1 ++ l)) ∧
  (∀ s : State, Gives .oscInLost s fun u => u.flag B.PWR R.PWR_PINS_ALIVE = false ∧ u.flt.aliveRun = false ∧ u.oscLost = true ∧
    (s.flt.aliveRun = true → u.flt.aliveLevel = false ∧ u.out = s.out ++ [.pin "ALIVE" false]) ∧ (s.flt.aliveRun = false → u.flt = s.flt ∧ u.out = s.out) ∧
    Wrote s { u with oscLost := s.oscLost, flt := s.flt, out := s.out } [B.PWR + R.PWR_PINS_ALIVE.off] ∧
    u.flt = { s.flt with aliveRun := u.flt.aliveRun, aliveLevel := u.flt.aliveLevel } ∧ (step { u with pending := [] } = .next { u with pending := [] }))


/-! ### Rules stated whole -/

/-- R65. While a tag of the mailbox is in flight, its row, a write that lands at once and one that lands after a crossing
leave both result base registers as they are; every result of a tag goes to its slot at the base and a multiple of 0x100. -/
def Obligations.ResultArea : Prop :=
  (∀ (m : Link) (s : State), s.reg (B.LKP m + R.LKP_HMB_INFLIGHT_TAGS.off) ≠ 0 →
    let base := fun (u : State) => u.reg (B.LKP m + 0x10) = s.reg (B.LKP m + 0x10) ∧ u.reg (B.LKP m + 0x14) = s.reg (B.LKP m + 0x14)
    let here := fun (a : Nat) => a = B.LKP m + 0x10 ∨ a = B.LKP m + 0x14
    (∀ lo hi : Option Word, s.answers m 0 = true → s.waitingOf (.host m 0) = [] → Gives (.resbaseWrite m lo hi) s base) ∧
    (∀ (who : Master) (a : Addr) (size : Nat) (v : DWord) (t : Target), s.resolve who a = some t → here t.key →
      (s.granted who t .write size v.toNat = true → Gives (.registerWrite who a size v) s base) ∧
      (t.kind = .write → s.granted who t .set size v.toNat = true → aliasWordsOk t.key size v.toNat = true → isCore who = false →
        Gives (.aliasSetWrite who a size v) s base ∧ Gives (.aliasClearWrite who a size v) s base ∧ Gives (.aliasToggleWrite who a size v) s base)) ∧
    (∀ x : Crossing, s.cross = [x] → here x.key → x.kind ≠ .read → x.size = 32 ∨ (x.size = 64 ∧ x.key = B.LKP m + 0x10) → s.domOn 0 = true →
      x.job = false → s.now ≤ x.at_ + 4000 →
      Gives (.slowAccessCrossed x.who) s base)) ∧
  (∀ (m : Link) (t : Tag) (s : State) (c : Cmd), s.holds (.host m t) 0x0102 c → s.linkUp m = true → (s.fn m 0).bme = true → (s.fn m 0).flrAt = none →
    let slot := s.pair (B.LKP m + 0x10) / 4096 * 4096 + t * 0x100
    Gives (.devEcho (.host m t)) s fun u => ∃ w0 w1 l, (u.out = s.out ++ s.writeOuts m 0 (slot + 16) (fit 240 (fit c.len c.args)) ++ [.write m 0 (slot + 4) w1, .write m 0 slot w0] ++ l) ∧
      w0.length = 4 ∧ w1.length = 12 ∧ ∀ o ∈ l, ∀ m' f a d, o ≠ .write m' f a d)

/-- R140. A packet that the Husker takes, staged or from a Survey generator, adds 1 to HUSK_PARSED, to the counter of its
END code whatever that code's action, and in long reach to HUSK_LR_PARSED; no other counter of the Husker's parses moves. -/
def Obligations.ParseCounters : Prop :=
  ∀ (h : Headrace) (gen : Option (List Byte)) (bad : List Nat) (s : State) (k : Pkt) (ks : List Pkt),
    let s1 := bad.foldl (fun s a => s.noteEcc (graphKey h (a % 2 ^ 14)) .bad) s
    let code := (s1.parse h k).code
    let end_ := fun n : Nat => B.HUSK h + 0x1000 + 8 * n
    let up := fun (u : State) (n : Nat) => u.cnt n = (s.cnt n + 1) % 2 ^ 64
    s.domOn (1 + h) = true → s.roomAtG0 h = true → s.flag B.PMC R.PMC_CTRL_FREEZE = false → (code = 8 → s.mild (32 + 4 * h)) →
    (gen = none ∧ s.forwarding = true ∧ (s.stage h).pkts = k :: ks) ∨ ((s.mode = .priming ∨ s.mode = .survey) ∧ k.org = .survey ∧ gen = some k.data) →
    Gives (.packetParse h gen bad) s fun u => up u (end_ 0) ∧ code ≤ 8 ∧
      (∀ n, 1 ≤ n → n ≤ 8 → if code = n then up u (end_ n) else u.cnt (end_ n) = s.cnt (end_ n)) ∧
      (if s.lrActive h = true then up u (B.HUSK h + 0x1050) else u.cnt (B.HUSK h + 0x1050) = s.cnt (B.HUSK h + 0x1050))

/-- R364. An Abort of a write that waits or of a read, with nothing moved yet, takes it out of the Silo with its blocks in
flight, completes it with Abort Requested, and succeeds; a pending Asynchronous Event Request likewise; of any other command
it reports "not aborted" (bit 0 of DW0, the family's, assumption 22). -/
def Obligations.NvmeAborts : Prop :=
  ∀ (p : PlotIx) (l : List Byte) (x : Sqe) (s : State) (m f : Nat), s.nvPosts p m f → s.nvRoom p 0 → s.serve p 0 0x08 l x →
    let t := s.sqTaken p 0
    let y := x.d10 % 2 ^ 16
    let n := x.d10 / 2 ^ 16
    let key := (p.val, y, n)
    let both := fun (s1 : State) (u : State) => ∃ v, Completed s1 v p y m f n Nvme.aborted 0 [] ∧
      (v.nvRoom p 0 → Completed v u p 0 m f x.cid Nvme.ok 0 [])
    (s.silo.writes.all (fun w => w.src ≠ some key || w.began) = true → (∀ r ∈ s.silo.reads, r.src ≠ key) →
      (y ≠ 0 ∨ n ∉ (s.ctl p).aers → Gives (.nvmeAbort p (.ok l)) s fun u => Completed t u p 0 m f x.cid Nvme.ok 1 []) ∧
      (y = 0 → n ∈ (s.ctl p).aers → Gives (.nvmeAbort p (.ok l)) s
        (both (t.setCtl p { t.ctl p with aers := (s.ctl p).aers.erase n })))) ∧
    (∀ w ∈ s.silo.writes, w.src = some key → w.began = false → (∀ w' ∈ s.silo.writes, w'.src = some key → w' = w) →
      y ≠ 0 → s.nvRoom p y → Gives (.nvmeAbort p (.ok l)) s
        (both { t with silo := { t.silo with writes := s.silo.writes.filter (·.id ≠ w.id), waiting := s.silo.waiting.filter (· ≠ w.id),
                                             cache := s.silo.cache.filter fun b => !(b.inFlight && b.seq = w.id) } })) ∧
    (∀ r ∈ s.silo.reads, r.src = key → s.silo.writes.all (fun w => w.src ≠ some key || w.began) = true →
      (∀ r' ∈ s.silo.reads, r'.src = key → r' = r) → y ≠ 0 → s.nvRoom p y → Gives (.nvmeAbort p (.ok l)) s
        (both { t with silo := { t.silo with reads := s.silo.reads.filter (· ≠ r) } }))

/-- R469, Table 15.11a. The state bytes of POOL_STATUS, VOL_STATUS and VAULT_STATUS, and VOL_STATUS of a volume that does not
exist. -/
def Obligations.SiloStateCodes : Prop :=
  ∀ (q : Req) (s : State) (c : Cmd),
    let v := c.u16 8
    (s.holds q 0x0500 c →
      (s.domOn 74 = false → Gives (.poolStatus q) s (Ends q St.BAD_ARGUMENT [] s)) ∧
      (s.domOn 74 = true → Gives (.poolStatus q) s (Ends q St.DONE
        (((List.range 32).map fun d => (match (s.drive d).st with
            | .absent => (0 : Byte) | .new => 1 | .member => 2 | .retiring => 3 | .failed => 4))
          ++ leBytes 8 s.poolRaw ++ leBytes 8 (s.poolRaw - s.poolUsed_)) s))) ∧
    (s.holds q 0x0506 c →
      (4096 ≤ v ∨ (s.vol v).live = false → Gives (.volStatus q) s (Ends q St.BAD_ARGUMENT [] s)) ∧
      (s.domOn 74 = true → v < 4096 → (s.vol v).live = true → s.volForeign q v = false → s.held [0x0503, 0x0522] v = false →
        Gives (.volStatus q) s (Ends q St.DONE
          (leBytes 4 (if (s.vol v).online = false then 2 else if (s.vol v).blocked then 1 else 0) ++ leBytes 4 (s.volEntries v).length
            ++ leBytes 4 ((s.volEntries v).filter fun e => Ext.degraded e.2).length ++ leBytes 4 (s.volDirty v)) s))) ∧
    (s.holds q 0x0513 c → Gives (.vaultStatus q) s (Ends q St.DONE
      (leBytes 4 s.vault.hdr ++ leBytes 4 s.vault.drains ++ leBytes 4 s.vault.chunks.length) s))

/-! ### The whole machine -/

/-- The machine after reset meets the invariants, has nothing in its queue, and stands in Fallow with only PD0 powered. -/
def Obligations.ResetState : Prop :=
  State.reset.canonical = true ∧ State.reset.pending = [] ∧ State.reset.mode = .fallow ∧ State.reset.oscLost = false ∧ ∀ d, State.reset.domOn d = true ↔ d = 0

/-- Every command completes in every state, and so does every step: the command at the front of the queue has left it, the others wait in their order, and
none has joined; on an empty queue a nanosecond of the local count passes while OSC_IN runs. -/
def Obligations.EveryStepCompletes : Prop :=
  (∀ (c : Instr) (s : State), ∃ t, exec c s = .next t) ∧
  ∀ s : State, ∃ u, step s = .next u ∧ u.pending = s.pending.tail ∧
    (s.pending = [] → u.now = if s.oscLost then s.now else s.now + 1)

/-- The canonical form of the register file, the counters and the byte memory outlives every step. -/
def Obligations.CanonicalKept : Prop :=
  ∀ s u : State, s.canonical = true → step s = .next u → u.canonical = true
end

