-- ==== Sys2Proof/Laws/Table.lean ====
section
/-! SUPPORT. Laws of the sparse memories and of bit fields: read after write, canonical form kept. -/
namespace Sys2Proof.Machine

section tables
variable {α : Type} [DecidableEq α] (d : Nat → α) (t : Table α) (k j : Nat) (v : α)

omit [DecidableEq α] in
theorem tget_tins : tget d (tins t k v) j = if j = k then v else tget d t j := by
  induction t with
  | nil => simp only [tins, tget]; grind
  | cons e t ih =>
    obtain ⟨i, w⟩ := e
    simp only [tins]
    split <;> [skip; split] <;> simp only [tget, ih] <;> grind

omit [DecidableEq α] in
theorem tget_erase : tget d (t.filter (fun e => decide (e.1 ≠ k))) j = if j = k then d k else tget d t j := by
  induction t with
  | nil => simp only [List.filter, tget]; grind
  | cons e t ih =>
    obtain ⟨i, w⟩ := e
    simp only [List.filter_cons]
    by_cases hik : i = k
    · subst hik; simp only [ne_eq, not_true_eq_false, decide_false, Bool.false_eq_true, if_false, ih, tget]
      grind
    · simp only [ne_eq, hik, not_false_eq_true, decide_true, if_true, tget, ih]
      grind

/-- A read after a write. -/
theorem tget_tput : tget d (tput d t k v) j = if j = k then v else tget d t j := by
  unfold tput; split
  · rename_i h; rw [tget_erase, h]
  · exact tget_tins d t k j v

@[simp] theorem tget_tput_same : tget d (tput d t k v) k = v := by simp [tget_tput]

theorem tget_tput_ne (h : j ≠ k) : tget d (tput d t k v) j = tget d t j := by simp [tget_tput, h]

omit [DecidableEq α] in
/-- A reset of the contents whose index satisfies `p`. -/
theorem tget_tdrop (p : Nat → Bool) : tget d (tdrop p t) j = if p j then d j else tget d t j := by
  induction t with
  | nil => simp [tdrop, tget]
  | cons e t ih =>
    obtain ⟨i, w⟩ := e
    simp only [tdrop] at ih
    simp only [tdrop, List.filter_cons]
    by_cases hp : p i
    · simp only [hp, Bool.not_true, Bool.false_eq_true, if_false, ih, tget]; grind
    · simp only [hp, Bool.not_false, if_true, tget, ih]; grind

omit [DecidableEq α] in
theorem tabove_tins (b : Nat) (h : tabove b t = true) (hk : b < k) : tabove b (tins t k v) = true := by
  induction t with
  | nil => simp [tins, tabove, hk]
  | cons e t ih =>
    obtain ⟨i, w⟩ := e
    simp only [tabove, Bool.and_eq_true, decide_eq_true_eq] at h
    simp only [tins]; split
    · simp [tabove, hk, h.1, h.2]
    · split
      · simp [tabove, hk, h.2]
      · simp [tabove, h.1, ih h.2]

omit [DecidableEq α] in
theorem tabove_filter (b : Nat) (p : Nat × α → Bool) (h : tabove b t = true) : tabove b (t.filter p) = true := by
  induction t with
  | nil => simp [tabove]
  | cons e t ih =>
    obtain ⟨i, w⟩ := e
    simp only [tabove, Bool.and_eq_true, decide_eq_true_eq] at h
    simp only [List.filter_cons]; split
    · simp [tabove, h.1, ih h.2]
    · exact ih h.2

omit [DecidableEq α] in
theorem tabove_mono {a b : Nat} (h : tabove b t = true) (hab : a ≤ b) : tabove a t = true := by
  induction t with
  | nil => simp [tabove]
  | cons e t ih =>
    obtain ⟨i, w⟩ := e
    simp only [tabove, Bool.and_eq_true, decide_eq_true_eq] at h ⊢
    exact ⟨by omega, ih h.2⟩

theorem twf_filter (p : Nat × α → Bool) (h : twf d t = true) : twf d (t.filter p) = true := by
  induction t with
  | nil => simp [twf]
  | cons e t ih =>
    obtain ⟨i, w⟩ := e
    simp only [twf, Bool.and_eq_true, decide_eq_true_eq] at h
    simp only [List.filter_cons]; split
    · simp [twf, h.1.1, tabove_filter t i p h.1.2, ih h.2]
    · exact ih h.2

theorem twf_tins (hv : v ≠ d k) (h : twf d t = true) : twf d (tins t k v) = true := by
  induction t with
  | nil => simp [tins, twf, tabove, hv]
  | cons e t ih =>
    obtain ⟨i, w⟩ := e
    have h0 := h
    simp only [twf, Bool.and_eq_true, decide_eq_true_eq] at h
    simp only [tins]; split
    · rename_i hk
      simp [twf, tabove, hv, hk, h.1.1, h.1.2, h.2, tabove_mono t h.1.2 (Nat.le_of_lt hk)]
    · split
      · subst_vars; simp [twf, hv, h.1.2, h.2]
      · simp only [twf, Bool.and_eq_true, decide_eq_true_eq]
        exact ⟨⟨h.1.1, tabove_tins t k v i h.1.2 (by omega)⟩, ih h.2⟩

/-- A write keeps the canonical form. -/
theorem twf_tput (h : twf d t = true) : twf d (tput d t k v) = true := by
  unfold tput; split
  · exact twf_filter d t _ h
  · rename_i hv; exact twf_tins d t k v hv h

/-- A reset of some contents keeps the canonical form. -/
theorem twf_tdrop (p : Nat → Bool) (h : twf d t = true) : twf d (tdrop p t) = true := twf_filter d t _ h

end tables

section bytes
variable (m : List Host.Cell) (a b : Nat) (v : Byte)

theorem byteAt_putByte : byteAt (putByte m a v) b = if b = a then v else byteAt m b := tget_tput _ m a b v

@[simp] theorem byteAt_putByte_same : byteAt (putByte m a v) a = v := by simp [byteAt_putByte]

theorem byteAt_putByte_ne (h : b ≠ a) : byteAt (putByte m a v) b = byteAt m b := by simp [byteAt_putByte, h]

theorem memWf_putByte (h : memWf m = true) : memWf (putByte m a v) = true := twf_tput _ m a v h

theorem memWf_putBytes (l : List Byte) (h : memWf m = true) : memWf (putBytes m a l) = true := by
  induction l generalizing m a with
  | nil => exact h
  | cons x xs ih => exact ih _ _ (memWf_putByte m a x h)

theorem memWf_tdrop (p : Nat → Bool) (h : memWf m = true) : memWf (tdrop p m) = true := twf_tdrop _ m p h

/-- A write of bytes leaves every byte outside its range. -/
theorem byteAt_putBytes_ne (l : List Byte) (h : b < a ∨ a + l.length ≤ b) :
    byteAt (putBytes m a l) b = byteAt m b := by
  induction l generalizing m a with
  | nil => rfl
  | cons x xs ih =>
    simp only [List.length_cons] at h
    simp only [putBytes]
    rw [ih _ _ (by omega), byteAt_putByte_ne _ _ _ _ (by omega)]

/-- A write of bytes puts byte `i` of the list at offset `i`. -/
theorem byteAt_putBytes (l : List Byte) (i : Nat) (h : i < l.length) :
    byteAt (putBytes m a l) (a + i) = l[i] := by
  induction l generalizing m a i with
  | nil => simp at h
  | cons x xs ih =>
    simp only [putBytes]
    cases i with
    | zero => rw [byteAt_putBytes_ne _ _ _ _ (by omega)]; simp
    | succ i =>
      have := ih (putByte m a x) (a + 1) i (by simpa using h)
      rw [show a + (i + 1) = a + 1 + i by omega, this]; rfl

end bytes

/-! ### Bit fields -/

theorem bitsOf_lt (v hi lo : Nat) : bitsOf v hi lo < 2 ^ (hi + 1 - lo) := Nat.mod_lt _ (Nat.two_pow_pos _)

theorem setBits_split (v hi lo x : Nat) :
    setBits v hi lo x = v % 2 ^ lo + 2 ^ lo * (x % 2 ^ (hi + 1 - lo)) + 2 ^ lo * (2 ^ (hi + 1 - lo) * (v / 2 ^ lo / 2 ^ (hi + 1 - lo))) := by
  unfold setBits bitsOf
  have h1 := Nat.div_add_mod v (2 ^ lo)
  have h2 := Nat.div_add_mod (v / 2 ^ lo) (2 ^ (hi + 1 - lo))
  generalize hA : 2 ^ lo = A at *
  generalize hB : 2 ^ (hi + 1 - lo) = B at *
  generalize hq : v / A = q at *
  generalize hr : v % A = r at *
  generalize hq2 : q / B = q2 at *
  generalize hr2 : q % B = r2 at *
  generalize x % B = y
  subst h2
  have : v = A * (B * q2) + A * r2 + r := by rw [← h1]; ring
  subst this
  have e1 : r2 * A = A * r2 := by ring
  have e2 : y * A = A * y := by ring
  rw [e1, e2]; omega

/-- A field reads as it was set. -/
theorem bitsOf_setBits_same (v hi lo x : Nat) : bitsOf (setBits v hi lo x) hi lo = x % 2 ^ (hi + 1 - lo) := by
  rw [setBits_split]; unfold bitsOf
  generalize hB : 2 ^ (hi + 1 - lo) = B
  have hA : 0 < 2 ^ lo := Nat.two_pow_pos _
  generalize 2 ^ lo = A at *
  rw [show v % A + A * (x % B) + A * (B * (v / A / B)) = v % A + A * (x % B + B * (v / A / B)) by ring,
    Nat.add_mul_div_left _ _ hA, Nat.div_eq_of_lt (Nat.mod_lt _ hA), Nat.zero_add,
    Nat.add_mul_mod_self_left, Nat.mod_mod]

theorem setBits_lt (v hi lo x n : Nat) (hv : v < 2 ^ n) (hh : hi < n) (hl : lo ≤ hi + 1) : setBits v hi lo x < 2 ^ n := by
  have hA : 0 < 2 ^ lo := Nat.two_pow_pos _
  have hB : 0 < 2 ^ (hi + 1 - lo) := Nat.two_pow_pos _
  have hn : 2 ^ n = 2 ^ lo * (2 ^ (hi + 1 - lo) * 2 ^ (n - (hi + 1))) := by
    rw [← Nat.pow_add, ← Nat.pow_add]; congr 1; omega
  rw [setBits_split]
  rw [hn] at hv ⊢
  generalize hC : 2 ^ (n - (hi + 1)) = C at *
  generalize 2 ^ lo = A at *
  generalize 2 ^ (hi + 1 - lo) = B at *
  have h1 : v / A / B < C := by
    rw [Nat.div_div_eq_div_mul]; apply Nat.div_lt_of_lt_mul; rw [Nat.mul_assoc]; exact hv
  have h2 : x % B < B := Nat.mod_lt _ hB
  have h3 : v % A < A := Nat.mod_lt _ hA
  have h4 : B * (v / A / B) + B ≤ B * C := by
    rw [← Nat.mul_succ]; exact Nat.mul_le_mul_left _ h1
  have h5 : x % B + B * (v / A / B) + 1 ≤ B * C := by omega
  calc v % A + A * (x % B) + A * (B * (v / A / B)) = v % A + A * (x % B + B * (v / A / B)) := by ring
    _ < A + A * (x % B + B * (v / A / B)) := by omega
    _ = A * (x % B + B * (v / A / B) + 1) := by ring
    _ ≤ A * (B * C) := Nat.mul_le_mul_left _ h5

theorem bitsOf_testBit (v hi lo i : Nat) (h : i < hi + 1 - lo) : (bitsOf v hi lo).testBit i = v.testBit (lo + i) := by
  unfold bitsOf
  rw [Nat.testBit_mod_two_pow, Nat.testBit_div_two_pow]
  simp [h, Nat.add_comm]

theorem setBits_testBit (v hi lo x i : Nat) (h : i < lo ∨ hi < i) (hl : lo ≤ hi + 1) :
    (setBits v hi lo x).testBit i = v.testBit i := by
  rw [setBits_split]
  generalize hw : hi + 1 - lo = w
  have e : v % 2 ^ lo + 2 ^ lo * (x % 2 ^ w) + 2 ^ lo * (2 ^ w * (v / 2 ^ lo / 2 ^ w))
      = 2 ^ lo * (2 ^ w * (v / 2 ^ lo / 2 ^ w) + x % 2 ^ w) + v % 2 ^ lo := by ring
  rw [e, Nat.testBit_two_pow_mul_add _ (Nat.mod_lt _ (Nat.two_pow_pos _))]
  rcases h with h | h
  · simp only [h, if_true, Nat.testBit_mod_two_pow, decide_true, Bool.true_and]
  · rw [if_neg (by omega), Nat.testBit_two_pow_mul_add _ (Nat.mod_lt _ (Nat.two_pow_pos _)), if_neg (by omega),
      Nat.testBit_div_two_pow, Nat.testBit_div_two_pow]
    congr 1; omega

/-- A field that does not meet the one that was set reads as before. -/
theorem bitsOf_setBits_ne (v hi lo x hi' lo' : Nat) (h : hi' < lo ∨ hi < lo') (hl : lo ≤ hi + 1) :
    bitsOf (setBits v hi lo x) hi' lo' = bitsOf v hi' lo' := by
  apply Nat.eq_of_testBit_eq
  intro i
  by_cases hi1 : i < hi' + 1 - lo'
  · rw [bitsOf_testBit _ _ _ _ hi1, bitsOf_testBit _ _ _ _ hi1, setBits_testBit _ _ _ _ _ (by omega) hl]
  · have big : ∀ u, (bitsOf u hi' lo').testBit i = false := fun u =>
      Nat.testBit_lt_two_pow (Nat.lt_of_lt_of_le (bitsOf_lt u hi' lo') (Nat.pow_le_pow_right (by omega) (by omega)))
    rw [big, big]

theorem bitOf_eq_testBit (v i : Nat) : bitOf v i = v.testBit i := by
  unfold bitOf; rw [Nat.testBit_eq_decide_div_mod_eq]; rfl

end Sys2Proof.Machine
end

