-- ==== Sys2Proof/Laws/State.lean ====
section
/-! SUPPORT. One law per field and update: what the named updates of the state leave, and what they read back. -/
namespace Sys2Proof.Machine

/-! #### State.setReg changes the field regs alone -/

@[simp] theorem State.setReg_pending (s : State) (a : Nat) (v : Word) : (s.setReg a v).pending = s.pending := Eq.refl s.pending
@[simp] theorem State.setReg_cnts (s : State) (a : Nat) (v : Word) : (s.setReg a v).cnts = s.cnts := Eq.refl s.cnts
@[simp] theorem State.setReg_shadows (s : State) (a : Nat) (v : Word) : (s.setReg a v).shadows = s.shadows := Eq.refl s.shadows
@[simp] theorem State.setReg_mem (s : State) (a : Nat) (v : Word) : (s.setReg a v).mem = s.mem := Eq.refl s.mem
@[simp] theorem State.setReg_freeCtr (s : State) (a : Nat) (v : Word) : (s.setReg a v).freeCtr = s.freeCtr := Eq.refl s.freeCtr
@[simp] theorem State.setReg_out (s : State) (a : Nat) (v : Word) : (s.setReg a v).out = s.out := Eq.refl s.out
@[simp] theorem State.setReg_reply (s : State) (a : Nat) (v : Word) : (s.setReg a v).reply = s.reply := Eq.refl s.reply
@[simp] theorem State.setReg_now (s : State) (a : Nat) (v : Word) : (s.setReg a v).now = s.now := Eq.refl s.now
@[simp] theorem State.setReg_timers (s : State) (a : Nat) (v : Word) : (s.setReg a v).timers = s.timers := Eq.refl s.timers
@[simp] theorem State.setReg_arrivals (s : State) (a : Nat) (v : Word) : (s.setReg a v).arrivals = s.arrivals := Eq.refl s.arrivals
@[simp] theorem State.setReg_image (s : State) (a : Nat) (v : Word) : (s.setReg a v).image = s.image := Eq.refl s.image
@[simp] theorem State.setReg_cross (s : State) (a : Nat) (v : Word) : (s.setReg a v).cross = s.cross := Eq.refl s.cross
@[simp] theorem State.setReg_regJob (s : State) (a : Nat) (v : Word) : (s.setReg a v).regJob = s.regJob := Eq.refl s.regJob
@[simp] theorem State.setReg_raw (s : State) (a : Nat) (v : Word) : (s.setReg a v).raw = s.raw := Eq.refl s.raw
@[simp] theorem State.setReg_tags (s : State) (a : Nat) (v : Word) : (s.setReg a v).tags = s.tags := Eq.refl s.tags
@[simp] theorem State.setReg_cmdSeq (s : State) (a : Nat) (v : Word) : (s.setReg a v).cmdSeq = s.cmdSeq := Eq.refl s.cmdSeq
@[simp] theorem State.setReg_jobs (s : State) (a : Nat) (v : Word) : (s.setReg a v).jobs = s.jobs := Eq.refl s.jobs
@[simp] theorem State.setReg_gov (s : State) (a : Nat) (v : Word) : (s.setReg a v).gov = s.gov := Eq.refl s.gov
@[simp] theorem State.setReg_modes (s : State) (a : Nat) (v : Word) : (s.setReg a v).modes = s.modes := Eq.refl s.modes
@[simp] theorem State.setReg_fns (s : State) (a : Nat) (v : Word) : (s.setReg a v).fns = s.fns := Eq.refl s.fns
@[simp] theorem State.setReg_links (s : State) (a : Nat) (v : Word) : (s.setReg a v).links = s.links := Eq.refl s.links
@[simp] theorem State.setReg_flt (s : State) (a : Nat) (v : Word) : (s.setReg a v).flt = s.flt := Eq.refl s.flt
@[simp] theorem State.setReg_eth (s : State) (a : Nat) (v : Word) : (s.setReg a v).eth = s.eth := Eq.refl s.eth
@[simp] theorem State.setReg_staging (s : State) (a : Nat) (v : Word) : (s.setReg a v).staging = s.staging := Eq.refl s.staging
@[simp] theorem State.setReg_qps (s : State) (a : Nat) (v : Word) : (s.setReg a v).qps = s.qps := Eq.refl s.qps
@[simp] theorem State.setReg_micro (s : State) (a : Nat) (v : Word) : (s.setReg a v).micro = s.micro := Eq.refl s.micro
@[simp] theorem State.setReg_mc (s : State) (a : Nat) (v : Word) : (s.setReg a v).mc = s.mc := Eq.refl s.mc
@[simp] theorem State.setReg_pipes (s : State) (a : Nat) (v : Word) : (s.setReg a v).pipes = s.pipes := Eq.refl s.pipes
@[simp] theorem State.setReg_cpairs (s : State) (a : Nat) (v : Word) : (s.setReg a v).cpairs = s.cpairs := Eq.refl s.cpairs
@[simp] theorem State.setReg_upsets (s : State) (a : Nat) (v : Word) : (s.setReg a v).upsets = s.upsets := Eq.refl s.upsets
@[simp] theorem State.setReg_tbl (s : State) (a : Nat) (v : Word) : (s.setReg a v).tbl = s.tbl := Eq.refl s.tbl
@[simp] theorem State.setReg_weir (s : State) (a : Nat) (v : Word) : (s.setReg a v).weir = s.weir := Eq.refl s.weir
@[simp] theorem State.setReg_egr (s : State) (a : Nat) (v : Word) : (s.setReg a v).egr = s.egr := Eq.refl s.egr
@[simp] theorem State.setReg_txCredit (s : State) (a : Nat) (v : Word) : (s.setReg a v).txCredit = s.txCredit := Eq.refl s.txCredit
@[simp] theorem State.setReg_txArmed (s : State) (a : Nat) (v : Word) : (s.setReg a v).txArmed = s.txArmed := Eq.refl s.txArmed
@[simp] theorem State.setReg_plots (s : State) (a : Nat) (v : Word) : (s.setReg a v).plots = s.plots := Eq.refl s.plots
@[simp] theorem State.setReg_timeOff (s : State) (a : Nat) (v : Word) : (s.setReg a v).timeOff = s.timeOff := Eq.refl s.timeOff
@[simp] theorem State.setReg_tim (s : State) (a : Nat) (v : Word) : (s.setReg a v).tim = s.tim := Eq.refl s.tim
@[simp] theorem State.setReg_silo (s : State) (a : Nat) (v : Word) : (s.setReg a v).silo = s.silo := Eq.refl s.silo
@[simp] theorem State.setReg_cist (s : State) (a : Nat) (v : Word) : (s.setReg a v).cist = s.cist := Eq.refl s.cist
@[simp] theorem State.setReg_vault (s : State) (a : Nat) (v : Word) : (s.setReg a v).vault = s.vault := Eq.refl s.vault
@[simp] theorem State.setReg_rsv (s : State) (a : Nat) (v : Word) : (s.setReg a v).rsv = s.rsv := Eq.refl s.rsv
@[simp] theorem State.setReg_hop (s : State) (a : Nat) (v : Word) : (s.setReg a v).hop = s.hop := Eq.refl s.hop
@[simp] theorem State.setReg_keks (s : State) (a : Nat) (v : Word) : (s.setReg a v).keks = s.keks := Eq.refl s.keks
@[simp] theorem State.setReg_icr (s : State) (a : Nat) (v : Word) : (s.setReg a v).icr = s.icr := Eq.refl s.icr
@[simp] theorem State.setReg_bmv (s : State) (a : Nat) (v : Word) : (s.setReg a v).bmv = s.bmv := Eq.refl s.bmv
@[simp] theorem State.setReg_kcu (s : State) (a : Nat) (v : Word) : (s.setReg a v).kcu = s.kcu := Eq.refl s.kcu
@[simp] theorem State.setReg_sec (s : State) (a : Nat) (v : Word) : (s.setReg a v).sec = s.sec := Eq.refl s.sec
@[simp] theorem State.setReg_oscLost (s : State) (a : Nat) (v : Word) : (s.setReg a v).oscLost = s.oscLost := Eq.refl s.oscLost

/-! #### State.wr changes the field regs alone -/

@[simp] theorem State.wr_pending (s : State) (b : Nat) (f : RegField) (v : Nat) : (s.wr b f v).pending = s.pending := Eq.refl s.pending
@[simp] theorem State.wr_cnts (s : State) (b : Nat) (f : RegField) (v : Nat) : (s.wr b f v).cnts = s.cnts := Eq.refl s.cnts
@[simp] theorem State.wr_shadows (s : State) (b : Nat) (f : RegField) (v : Nat) : (s.wr b f v).shadows = s.shadows := Eq.refl s.shadows
@[simp] theorem State.wr_mem (s : State) (b : Nat) (f : RegField) (v : Nat) : (s.wr b f v).mem = s.mem := Eq.refl s.mem
@[simp] theorem State.wr_freeCtr (s : State) (b : Nat) (f : RegField) (v : Nat) : (s.wr b f v).freeCtr = s.freeCtr := Eq.refl s.freeCtr
@[simp] theorem State.wr_out (s : State) (b : Nat) (f : RegField) (v : Nat) : (s.wr b f v).out = s.out := Eq.refl s.out
@[simp] theorem State.wr_reply (s : State) (b : Nat) (f : RegField) (v : Nat) : (s.wr b f v).reply = s.reply := Eq.refl s.reply
@[simp] theorem State.wr_now (s : State) (b : Nat) (f : RegField) (v : Nat) : (s.wr b f v).now = s.now := Eq.refl s.now
@[simp] theorem State.wr_timers (s : State) (b : Nat) (f : RegField) (v : Nat) : (s.wr b f v).timers = s.timers := Eq.refl s.timers
@[simp] theorem State.wr_arrivals (s : State) (b : Nat) (f : RegField) (v : Nat) : (s.wr b f v).arrivals = s.arrivals := Eq.refl s.arrivals
@[simp] theorem State.wr_image (s : State) (b : Nat) (f : RegField) (v : Nat) : (s.wr b f v).image = s.image := Eq.refl s.image
@[simp] theorem State.wr_cross (s : State) (b : Nat) (f : RegField) (v : Nat) : (s.wr b f v).cross = s.cross := Eq.refl s.cross
@[simp] theorem State.wr_regJob (s : State) (b : Nat) (f : RegField) (v : Nat) : (s.wr b f v).regJob = s.regJob := Eq.refl s.regJob
@[simp] theorem State.wr_raw (s : State) (b : Nat) (f : RegField) (v : Nat) : (s.wr b f v).raw = s.raw := Eq.refl s.raw
@[simp] theorem State.wr_tags (s : State) (b : Nat) (f : RegField) (v : Nat) : (s.wr b f v).tags = s.tags := Eq.refl s.tags
@[simp] theorem State.wr_cmdSeq (s : State) (b : Nat) (f : RegField) (v : Nat) : (s.wr b f v).cmdSeq = s.cmdSeq := Eq.refl s.cmdSeq
@[simp] theorem State.wr_jobs (s : State) (b : Nat) (f : RegField) (v : Nat) : (s.wr b f v).jobs = s.jobs := Eq.refl s.jobs
@[simp] theorem State.wr_gov (s : State) (b : Nat) (f : RegField) (v : Nat) : (s.wr b f v).gov = s.gov := Eq.refl s.gov
@[simp] theorem State.wr_modes (s : State) (b : Nat) (f : RegField) (v : Nat) : (s.wr b f v).modes = s.modes := Eq.refl s.modes
@[simp] theorem State.wr_fns (s : State) (b : Nat) (f : RegField) (v : Nat) : (s.wr b f v).fns = s.fns := Eq.refl s.fns
@[simp] theorem State.wr_links (s : State) (b : Nat) (f : RegField) (v : Nat) : (s.wr b f v).links = s.links := Eq.refl s.links
@[simp] theorem State.wr_flt (s : State) (b : Nat) (f : RegField) (v : Nat) : (s.wr b f v).flt = s.flt := Eq.refl s.flt
@[simp] theorem State.wr_eth (s : State) (b : Nat) (f : RegField) (v : Nat) : (s.wr b f v).eth = s.eth := Eq.refl s.eth
@[simp] theorem State.wr_staging (s : State) (b : Nat) (f : RegField) (v : Nat) : (s.wr b f v).staging = s.staging := Eq.refl s.staging
@[simp] theorem State.wr_qps (s : State) (b : Nat) (f : RegField) (v : Nat) : (s.wr b f v).qps = s.qps := Eq.refl s.qps
@[simp] theorem State.wr_micro (s : State) (b : Nat) (f : RegField) (v : Nat) : (s.wr b f v).micro = s.micro := Eq.refl s.micro
@[simp] theorem State.wr_mc (s : State) (b : Nat) (f : RegField) (v : Nat) : (s.wr b f v).mc = s.mc := Eq.refl s.mc
@[simp] theorem State.wr_pipes (s : State) (b : Nat) (f : RegField) (v : Nat) : (s.wr b f v).pipes = s.pipes := Eq.refl s.pipes
@[simp] theorem State.wr_cpairs (s : State) (b : Nat) (f : RegField) (v : Nat) : (s.wr b f v).cpairs = s.cpairs := Eq.refl s.cpairs
@[simp] theorem State.wr_upsets (s : State) (b : Nat) (f : RegField) (v : Nat) : (s.wr b f v).upsets = s.upsets := Eq.refl s.upsets
@[simp] theorem State.wr_tbl (s : State) (b : Nat) (f : RegField) (v : Nat) : (s.wr b f v).tbl = s.tbl := Eq.refl s.tbl
@[simp] theorem State.wr_weir (s : State) (b : Nat) (f : RegField) (v : Nat) : (s.wr b f v).weir = s.weir := Eq.refl s.weir
@[simp] theorem State.wr_egr (s : State) (b : Nat) (f : RegField) (v : Nat) : (s.wr b f v).egr = s.egr := Eq.refl s.egr
@[simp] theorem State.wr_txCredit (s : State) (b : Nat) (f : RegField) (v : Nat) : (s.wr b f v).txCredit = s.txCredit := Eq.refl s.txCredit
@[simp] theorem State.wr_txArmed (s : State) (b : Nat) (f : RegField) (v : Nat) : (s.wr b f v).txArmed = s.txArmed := Eq.refl s.txArmed
@[simp] theorem State.wr_plots (s : State) (b : Nat) (f : RegField) (v : Nat) : (s.wr b f v).plots = s.plots := Eq.refl s.plots
@[simp] theorem State.wr_timeOff (s : State) (b : Nat) (f : RegField) (v : Nat) : (s.wr b f v).timeOff = s.timeOff := Eq.refl s.timeOff
@[simp] theorem State.wr_tim (s : State) (b : Nat) (f : RegField) (v : Nat) : (s.wr b f v).tim = s.tim := Eq.refl s.tim
@[simp] theorem State.wr_silo (s : State) (b : Nat) (f : RegField) (v : Nat) : (s.wr b f v).silo = s.silo := Eq.refl s.silo
@[simp] theorem State.wr_cist (s : State) (b : Nat) (f : RegField) (v : Nat) : (s.wr b f v).cist = s.cist := Eq.refl s.cist
@[simp] theorem State.wr_vault (s : State) (b : Nat) (f : RegField) (v : Nat) : (s.wr b f v).vault = s.vault := Eq.refl s.vault
@[simp] theorem State.wr_rsv (s : State) (b : Nat) (f : RegField) (v : Nat) : (s.wr b f v).rsv = s.rsv := Eq.refl s.rsv
@[simp] theorem State.wr_hop (s : State) (b : Nat) (f : RegField) (v : Nat) : (s.wr b f v).hop = s.hop := Eq.refl s.hop
@[simp] theorem State.wr_keks (s : State) (b : Nat) (f : RegField) (v : Nat) : (s.wr b f v).keks = s.keks := Eq.refl s.keks
@[simp] theorem State.wr_icr (s : State) (b : Nat) (f : RegField) (v : Nat) : (s.wr b f v).icr = s.icr := Eq.refl s.icr
@[simp] theorem State.wr_bmv (s : State) (b : Nat) (f : RegField) (v : Nat) : (s.wr b f v).bmv = s.bmv := Eq.refl s.bmv
@[simp] theorem State.wr_kcu (s : State) (b : Nat) (f : RegField) (v : Nat) : (s.wr b f v).kcu = s.kcu := Eq.refl s.kcu
@[simp] theorem State.wr_sec (s : State) (b : Nat) (f : RegField) (v : Nat) : (s.wr b f v).sec = s.sec := Eq.refl s.sec
@[simp] theorem State.wr_oscLost (s : State) (b : Nat) (f : RegField) (v : Nat) : (s.wr b f v).oscLost = s.oscLost := Eq.refl s.oscLost

/-! #### State.wrB changes the field regs alone -/

@[simp] theorem State.wrB_pending (s : State) (b : Nat) (f : RegField) (v : Bool) : (s.wrB b f v).pending = s.pending := Eq.refl s.pending
@[simp] theorem State.wrB_cnts (s : State) (b : Nat) (f : RegField) (v : Bool) : (s.wrB b f v).cnts = s.cnts := Eq.refl s.cnts
@[simp] theorem State.wrB_shadows (s : State) (b : Nat) (f : RegField) (v : Bool) : (s.wrB b f v).shadows = s.shadows := Eq.refl s.shadows
@[simp] theorem State.wrB_mem (s : State) (b : Nat) (f : RegField) (v : Bool) : (s.wrB b f v).mem = s.mem := Eq.refl s.mem
@[simp] theorem State.wrB_freeCtr (s : State) (b : Nat) (f : RegField) (v : Bool) : (s.wrB b f v).freeCtr = s.freeCtr := Eq.refl s.freeCtr
@[simp] theorem State.wrB_out (s : State) (b : Nat) (f : RegField) (v : Bool) : (s.wrB b f v).out = s.out := Eq.refl s.out
@[simp] theorem State.wrB_reply (s : State) (b : Nat) (f : RegField) (v : Bool) : (s.wrB b f v).reply = s.reply := Eq.refl s.reply
@[simp] theorem State.wrB_now (s : State) (b : Nat) (f : RegField) (v : Bool) : (s.wrB b f v).now = s.now := Eq.refl s.now
@[simp] theorem State.wrB_timers (s : State) (b : Nat) (f : RegField) (v : Bool) : (s.wrB b f v).timers = s.timers := Eq.refl s.timers
@[simp] theorem State.wrB_arrivals (s : State) (b : Nat) (f : RegField) (v : Bool) : (s.wrB b f v).arrivals = s.arrivals := Eq.refl s.arrivals
@[simp] theorem State.wrB_image (s : State) (b : Nat) (f : RegField) (v : Bool) : (s.wrB b f v).image = s.image := Eq.refl s.image
@[simp] theorem State.wrB_cross (s : State) (b : Nat) (f : RegField) (v : Bool) : (s.wrB b f v).cross = s.cross := Eq.refl s.cross
@[simp] theorem State.wrB_regJob (s : State) (b : Nat) (f : RegField) (v : Bool) : (s.wrB b f v).regJob = s.regJob := Eq.refl s.regJob
@[simp] theorem State.wrB_raw (s : State) (b : Nat) (f : RegField) (v : Bool) : (s.wrB b f v).raw = s.raw := Eq.refl s.raw
@[simp] theorem State.wrB_tags (s : State) (b : Nat) (f : RegField) (v : Bool) : (s.wrB b f v).tags = s.tags := Eq.refl s.tags
@[simp] theorem State.wrB_cmdSeq (s : State) (b : Nat) (f : RegField) (v : Bool) : (s.wrB b f v).cmdSeq = s.cmdSeq := Eq.refl s.cmdSeq
@[simp] theorem State.wrB_jobs (s : State) (b : Nat) (f : RegField) (v : Bool) : (s.wrB b f v).jobs = s.jobs := Eq.refl s.jobs
@[simp] theorem State.wrB_gov (s : State) (b : Nat) (f : RegField) (v : Bool) : (s.wrB b f v).gov = s.gov := Eq.refl s.gov
@[simp] theorem State.wrB_modes (s : State) (b : Nat) (f : RegField) (v : Bool) : (s.wrB b f v).modes = s.modes := Eq.refl s.modes
@[simp] theorem State.wrB_fns (s : State) (b : Nat) (f : RegField) (v : Bool) : (s.wrB b f v).fns = s.fns := Eq.refl s.fns
@[simp] theorem State.wrB_links (s : State) (b : Nat) (f : RegField) (v : Bool) : (s.wrB b f v).links = s.links := Eq.refl s.links
@[simp] theorem State.wrB_flt (s : State) (b : Nat) (f : RegField) (v : Bool) : (s.wrB b f v).flt = s.flt := Eq.refl s.flt
@[simp] theorem State.wrB_eth (s : State) (b : Nat) (f : RegField) (v : Bool) : (s.wrB b f v).eth = s.eth := Eq.refl s.eth
@[simp] theorem State.wrB_staging (s : State) (b : Nat) (f : RegField) (v : Bool) : (s.wrB b f v).staging = s.staging := Eq.refl s.staging
@[simp] theorem State.wrB_qps (s : State) (b : Nat) (f : RegField) (v : Bool) : (s.wrB b f v).qps = s.qps := Eq.refl s.qps
@[simp] theorem State.wrB_micro (s : State) (b : Nat) (f : RegField) (v : Bool) : (s.wrB b f v).micro = s.micro := Eq.refl s.micro
@[simp] theorem State.wrB_mc (s : State) (b : Nat) (f : RegField) (v : Bool) : (s.wrB b f v).mc = s.mc := Eq.refl s.mc
@[simp] theorem State.wrB_pipes (s : State) (b : Nat) (f : RegField) (v : Bool) : (s.wrB b f v).pipes = s.pipes := Eq.refl s.pipes
@[simp] theorem State.wrB_cpairs (s : State) (b : Nat) (f : RegField) (v : Bool) : (s.wrB b f v).cpairs = s.cpairs := Eq.refl s.cpairs
@[simp] theorem State.wrB_upsets (s : State) (b : Nat) (f : RegField) (v : Bool) : (s.wrB b f v).upsets = s.upsets := Eq.refl s.upsets
@[simp] theorem State.wrB_tbl (s : State) (b : Nat) (f : RegField) (v : Bool) : (s.wrB b f v).tbl = s.tbl := Eq.refl s.tbl
@[simp] theorem State.wrB_weir (s : State) (b : Nat) (f : RegField) (v : Bool) : (s.wrB b f v).weir = s.weir := Eq.refl s.weir
@[simp] theorem State.wrB_egr (s : State) (b : Nat) (f : RegField) (v : Bool) : (s.wrB b f v).egr = s.egr := Eq.refl s.egr
@[simp] theorem State.wrB_txCredit (s : State) (b : Nat) (f : RegField) (v : Bool) : (s.wrB b f v).txCredit = s.txCredit := Eq.refl s.txCredit
@[simp] theorem State.wrB_txArmed (s : State) (b : Nat) (f : RegField) (v : Bool) : (s.wrB b f v).txArmed = s.txArmed := Eq.refl s.txArmed
@[simp] theorem State.wrB_plots (s : State) (b : Nat) (f : RegField) (v : Bool) : (s.wrB b f v).plots = s.plots := Eq.refl s.plots
@[simp] theorem State.wrB_timeOff (s : State) (b : Nat) (f : RegField) (v : Bool) : (s.wrB b f v).timeOff = s.timeOff := Eq.refl s.timeOff
@[simp] theorem State.wrB_tim (s : State) (b : Nat) (f : RegField) (v : Bool) : (s.wrB b f v).tim = s.tim := Eq.refl s.tim
@[simp] theorem State.wrB_silo (s : State) (b : Nat) (f : RegField) (v : Bool) : (s.wrB b f v).silo = s.silo := Eq.refl s.silo
@[simp] theorem State.wrB_cist (s : State) (b : Nat) (f : RegField) (v : Bool) : (s.wrB b f v).cist = s.cist := Eq.refl s.cist
@[simp] theorem State.wrB_vault (s : State) (b : Nat) (f : RegField) (v : Bool) : (s.wrB b f v).vault = s.vault := Eq.refl s.vault
@[simp] theorem State.wrB_rsv (s : State) (b : Nat) (f : RegField) (v : Bool) : (s.wrB b f v).rsv = s.rsv := Eq.refl s.rsv
@[simp] theorem State.wrB_hop (s : State) (b : Nat) (f : RegField) (v : Bool) : (s.wrB b f v).hop = s.hop := Eq.refl s.hop
@[simp] theorem State.wrB_keks (s : State) (b : Nat) (f : RegField) (v : Bool) : (s.wrB b f v).keks = s.keks := Eq.refl s.keks
@[simp] theorem State.wrB_icr (s : State) (b : Nat) (f : RegField) (v : Bool) : (s.wrB b f v).icr = s.icr := Eq.refl s.icr
@[simp] theorem State.wrB_bmv (s : State) (b : Nat) (f : RegField) (v : Bool) : (s.wrB b f v).bmv = s.bmv := Eq.refl s.bmv
@[simp] theorem State.wrB_kcu (s : State) (b : Nat) (f : RegField) (v : Bool) : (s.wrB b f v).kcu = s.kcu := Eq.refl s.kcu
@[simp] theorem State.wrB_sec (s : State) (b : Nat) (f : RegField) (v : Bool) : (s.wrB b f v).sec = s.sec := Eq.refl s.sec
@[simp] theorem State.wrB_oscLost (s : State) (b : Nat) (f : RegField) (v : Bool) : (s.wrB b f v).oscLost = s.oscLost := Eq.refl s.oscLost

/-! #### State.wrW changes the field regs alone -/

@[simp] theorem State.wrW_pending (s : State) (a v : Nat) : (s.wrW a v).pending = s.pending := Eq.refl s.pending
@[simp] theorem State.wrW_cnts (s : State) (a v : Nat) : (s.wrW a v).cnts = s.cnts := Eq.refl s.cnts
@[simp] theorem State.wrW_shadows (s : State) (a v : Nat) : (s.wrW a v).shadows = s.shadows := Eq.refl s.shadows
@[simp] theorem State.wrW_mem (s : State) (a v : Nat) : (s.wrW a v).mem = s.mem := Eq.refl s.mem
@[simp] theorem State.wrW_freeCtr (s : State) (a v : Nat) : (s.wrW a v).freeCtr = s.freeCtr := Eq.refl s.freeCtr
@[simp] theorem State.wrW_out (s : State) (a v : Nat) : (s.wrW a v).out = s.out := Eq.refl s.out
@[simp] theorem State.wrW_reply (s : State) (a v : Nat) : (s.wrW a v).reply = s.reply := Eq.refl s.reply
@[simp] theorem State.wrW_now (s : State) (a v : Nat) : (s.wrW a v).now = s.now := Eq.refl s.now
@[simp] theorem State.wrW_timers (s : State) (a v : Nat) : (s.wrW a v).timers = s.timers := Eq.refl s.timers
@[simp] theorem State.wrW_arrivals (s : State) (a v : Nat) : (s.wrW a v).arrivals = s.arrivals := Eq.refl s.arrivals
@[simp] theorem State.wrW_image (s : State) (a v : Nat) : (s.wrW a v).image = s.image := Eq.refl s.image
@[simp] theorem State.wrW_cross (s : State) (a v : Nat) : (s.wrW a v).cross = s.cross := Eq.refl s.cross
@[simp] theorem State.wrW_regJob (s : State) (a v : Nat) : (s.wrW a v).regJob = s.regJob := Eq.refl s.regJob
@[simp] theorem State.wrW_raw (s : State) (a v : Nat) : (s.wrW a v).raw = s.raw := Eq.refl s.raw
@[simp] theorem State.wrW_tags (s : State) (a v : Nat) : (s.wrW a v).tags = s.tags := Eq.refl s.tags
@[simp] theorem State.wrW_cmdSeq (s : State) (a v : Nat) : (s.wrW a v).cmdSeq = s.cmdSeq := Eq.refl s.cmdSeq
@[simp] theorem State.wrW_jobs (s : State) (a v : Nat) : (s.wrW a v).jobs = s.jobs := Eq.refl s.jobs
@[simp] theorem State.wrW_gov (s : State) (a v : Nat) : (s.wrW a v).gov = s.gov := Eq.refl s.gov
@[simp] theorem State.wrW_modes (s : State) (a v : Nat) : (s.wrW a v).modes = s.modes := Eq.refl s.modes
@[simp] theorem State.wrW_fns (s : State) (a v : Nat) : (s.wrW a v).fns = s.fns := Eq.refl s.fns
@[simp] theorem State.wrW_links (s : State) (a v : Nat) : (s.wrW a v).links = s.links := Eq.refl s.links
@[simp] theorem State.wrW_flt (s : State) (a v : Nat) : (s.wrW a v).flt = s.flt := Eq.refl s.flt
@[simp] theorem State.wrW_eth (s : State) (a v : Nat) : (s.wrW a v).eth = s.eth := Eq.refl s.eth
@[simp] theorem State.wrW_staging (s : State) (a v : Nat) : (s.wrW a v).staging = s.staging := Eq.refl s.staging
@[simp] theorem State.wrW_qps (s : State) (a v : Nat) : (s.wrW a v).qps = s.qps := Eq.refl s.qps
@[simp] theorem State.wrW_micro (s : State) (a v : Nat) : (s.wrW a v).micro = s.micro := Eq.refl s.micro
@[simp] theorem State.wrW_mc (s : State) (a v : Nat) : (s.wrW a v).mc = s.mc := Eq.refl s.mc
@[simp] theorem State.wrW_pipes (s : State) (a v : Nat) : (s.wrW a v).pipes = s.pipes := Eq.refl s.pipes
@[simp] theorem State.wrW_cpairs (s : State) (a v : Nat) : (s.wrW a v).cpairs = s.cpairs := Eq.refl s.cpairs
@[simp] theorem State.wrW_upsets (s : State) (a v : Nat) : (s.wrW a v).upsets = s.upsets := Eq.refl s.upsets
@[simp] theorem State.wrW_tbl (s : State) (a v : Nat) : (s.wrW a v).tbl = s.tbl := Eq.refl s.tbl
@[simp] theorem State.wrW_weir (s : State) (a v : Nat) : (s.wrW a v).weir = s.weir := Eq.refl s.weir
@[simp] theorem State.wrW_egr (s : State) (a v : Nat) : (s.wrW a v).egr = s.egr := Eq.refl s.egr
@[simp] theorem State.wrW_txCredit (s : State) (a v : Nat) : (s.wrW a v).txCredit = s.txCredit := Eq.refl s.txCredit
@[simp] theorem State.wrW_txArmed (s : State) (a v : Nat) : (s.wrW a v).txArmed = s.txArmed := Eq.refl s.txArmed
@[simp] theorem State.wrW_plots (s : State) (a v : Nat) : (s.wrW a v).plots = s.plots := Eq.refl s.plots
@[simp] theorem State.wrW_timeOff (s : State) (a v : Nat) : (s.wrW a v).timeOff = s.timeOff := Eq.refl s.timeOff
@[simp] theorem State.wrW_tim (s : State) (a v : Nat) : (s.wrW a v).tim = s.tim := Eq.refl s.tim
@[simp] theorem State.wrW_silo (s : State) (a v : Nat) : (s.wrW a v).silo = s.silo := Eq.refl s.silo
@[simp] theorem State.wrW_cist (s : State) (a v : Nat) : (s.wrW a v).cist = s.cist := Eq.refl s.cist
@[simp] theorem State.wrW_vault (s : State) (a v : Nat) : (s.wrW a v).vault = s.vault := Eq.refl s.vault
@[simp] theorem State.wrW_rsv (s : State) (a v : Nat) : (s.wrW a v).rsv = s.rsv := Eq.refl s.rsv
@[simp] theorem State.wrW_hop (s : State) (a v : Nat) : (s.wrW a v).hop = s.hop := Eq.refl s.hop
@[simp] theorem State.wrW_keks (s : State) (a v : Nat) : (s.wrW a v).keks = s.keks := Eq.refl s.keks
@[simp] theorem State.wrW_icr (s : State) (a v : Nat) : (s.wrW a v).icr = s.icr := Eq.refl s.icr
@[simp] theorem State.wrW_bmv (s : State) (a v : Nat) : (s.wrW a v).bmv = s.bmv := Eq.refl s.bmv
@[simp] theorem State.wrW_kcu (s : State) (a v : Nat) : (s.wrW a v).kcu = s.kcu := Eq.refl s.kcu
@[simp] theorem State.wrW_sec (s : State) (a v : Nat) : (s.wrW a v).sec = s.sec := Eq.refl s.sec
@[simp] theorem State.wrW_oscLost (s : State) (a v : Nat) : (s.wrW a v).oscLost = s.oscLost := Eq.refl s.oscLost

/-! #### State.wrPair changes the field regs alone -/

@[simp] theorem State.wrPair_pending (s : State) (a v : Nat) : (s.wrPair a v).pending = s.pending := Eq.refl s.pending
@[simp] theorem State.wrPair_cnts (s : State) (a v : Nat) : (s.wrPair a v).cnts = s.cnts := Eq.refl s.cnts
@[simp] theorem State.wrPair_shadows (s : State) (a v : Nat) : (s.wrPair a v).shadows = s.shadows := Eq.refl s.shadows
@[simp] theorem State.wrPair_mem (s : State) (a v : Nat) : (s.wrPair a v).mem = s.mem := Eq.refl s.mem
@[simp] theorem State.wrPair_freeCtr (s : State) (a v : Nat) : (s.wrPair a v).freeCtr = s.freeCtr := Eq.refl s.freeCtr
@[simp] theorem State.wrPair_out (s : State) (a v : Nat) : (s.wrPair a v).out = s.out := Eq.refl s.out
@[simp] theorem State.wrPair_reply (s : State) (a v : Nat) : (s.wrPair a v).reply = s.reply := Eq.refl s.reply
@[simp] theorem State.wrPair_now (s : State) (a v : Nat) : (s.wrPair a v).now = s.now := Eq.refl s.now
@[simp] theorem State.wrPair_timers (s : State) (a v : Nat) : (s.wrPair a v).timers = s.timers := Eq.refl s.timers
@[simp] theorem State.wrPair_arrivals (s : State) (a v : Nat) : (s.wrPair a v).arrivals = s.arrivals := Eq.refl s.arrivals
@[simp] theorem State.wrPair_image (s : State) (a v : Nat) : (s.wrPair a v).image = s.image := Eq.refl s.image
@[simp] theorem State.wrPair_cross (s : State) (a v : Nat) : (s.wrPair a v).cross = s.cross := Eq.refl s.cross
@[simp] theorem State.wrPair_regJob (s : State) (a v : Nat) : (s.wrPair a v).regJob = s.regJob := Eq.refl s.regJob
@[simp] theorem State.wrPair_raw (s : State) (a v : Nat) : (s.wrPair a v).raw = s.raw := Eq.refl s.raw
@[simp] theorem State.wrPair_tags (s : State) (a v : Nat) : (s.wrPair a v).tags = s.tags := Eq.refl s.tags
@[simp] theorem State.wrPair_cmdSeq (s : State) (a v : Nat) : (s.wrPair a v).cmdSeq = s.cmdSeq := Eq.refl s.cmdSeq
@[simp] theorem State.wrPair_jobs (s : State) (a v : Nat) : (s.wrPair a v).jobs = s.jobs := Eq.refl s.jobs
@[simp] theorem State.wrPair_gov (s : State) (a v : Nat) : (s.wrPair a v).gov = s.gov := Eq.refl s.gov
@[simp] theorem State.wrPair_modes (s : State) (a v : Nat) : (s.wrPair a v).modes = s.modes := Eq.refl s.modes
@[simp] theorem State.wrPair_fns (s : State) (a v : Nat) : (s.wrPair a v).fns = s.fns := Eq.refl s.fns
@[simp] theorem State.wrPair_links (s : State) (a v : Nat) : (s.wrPair a v).links = s.links := Eq.refl s.links
@[simp] theorem State.wrPair_flt (s : State) (a v : Nat) : (s.wrPair a v).flt = s.flt := Eq.refl s.flt
@[simp] theorem State.wrPair_eth (s : State) (a v : Nat) : (s.wrPair a v).eth = s.eth := Eq.refl s.eth
@[simp] theorem State.wrPair_staging (s : State) (a v : Nat) : (s.wrPair a v).staging = s.staging := Eq.refl s.staging
@[simp] theorem State.wrPair_qps (s : State) (a v : Nat) : (s.wrPair a v).qps = s.qps := Eq.refl s.qps
@[simp] theorem State.wrPair_micro (s : State) (a v : Nat) : (s.wrPair a v).micro = s.micro := Eq.refl s.micro
@[simp] theorem State.wrPair_mc (s : State) (a v : Nat) : (s.wrPair a v).mc = s.mc := Eq.refl s.mc
@[simp] theorem State.wrPair_pipes (s : State) (a v : Nat) : (s.wrPair a v).pipes = s.pipes := Eq.refl s.pipes
@[simp] theorem State.wrPair_cpairs (s : State) (a v : Nat) : (s.wrPair a v).cpairs = s.cpairs := Eq.refl s.cpairs
@[simp] theorem State.wrPair_upsets (s : State) (a v : Nat) : (s.wrPair a v).upsets = s.upsets := Eq.refl s.upsets
@[simp] theorem State.wrPair_tbl (s : State) (a v : Nat) : (s.wrPair a v).tbl = s.tbl := Eq.refl s.tbl
@[simp] theorem State.wrPair_weir (s : State) (a v : Nat) : (s.wrPair a v).weir = s.weir := Eq.refl s.weir
@[simp] theorem State.wrPair_egr (s : State) (a v : Nat) : (s.wrPair a v).egr = s.egr := Eq.refl s.egr
@[simp] theorem State.wrPair_txCredit (s : State) (a v : Nat) : (s.wrPair a v).txCredit = s.txCredit := Eq.refl s.txCredit
@[simp] theorem State.wrPair_txArmed (s : State) (a v : Nat) : (s.wrPair a v).txArmed = s.txArmed := Eq.refl s.txArmed
@[simp] theorem State.wrPair_plots (s : State) (a v : Nat) : (s.wrPair a v).plots = s.plots := Eq.refl s.plots
@[simp] theorem State.wrPair_timeOff (s : State) (a v : Nat) : (s.wrPair a v).timeOff = s.timeOff := Eq.refl s.timeOff
@[simp] theorem State.wrPair_tim (s : State) (a v : Nat) : (s.wrPair a v).tim = s.tim := Eq.refl s.tim
@[simp] theorem State.wrPair_silo (s : State) (a v : Nat) : (s.wrPair a v).silo = s.silo := Eq.refl s.silo
@[simp] theorem State.wrPair_cist (s : State) (a v : Nat) : (s.wrPair a v).cist = s.cist := Eq.refl s.cist
@[simp] theorem State.wrPair_vault (s : State) (a v : Nat) : (s.wrPair a v).vault = s.vault := Eq.refl s.vault
@[simp] theorem State.wrPair_rsv (s : State) (a v : Nat) : (s.wrPair a v).rsv = s.rsv := Eq.refl s.rsv
@[simp] theorem State.wrPair_hop (s : State) (a v : Nat) : (s.wrPair a v).hop = s.hop := Eq.refl s.hop
@[simp] theorem State.wrPair_keks (s : State) (a v : Nat) : (s.wrPair a v).keks = s.keks := Eq.refl s.keks
@[simp] theorem State.wrPair_icr (s : State) (a v : Nat) : (s.wrPair a v).icr = s.icr := Eq.refl s.icr
@[simp] theorem State.wrPair_bmv (s : State) (a v : Nat) : (s.wrPair a v).bmv = s.bmv := Eq.refl s.bmv
@[simp] theorem State.wrPair_kcu (s : State) (a v : Nat) : (s.wrPair a v).kcu = s.kcu := Eq.refl s.kcu
@[simp] theorem State.wrPair_sec (s : State) (a v : Nat) : (s.wrPair a v).sec = s.sec := Eq.refl s.sec
@[simp] theorem State.wrPair_oscLost (s : State) (a v : Nat) : (s.wrPair a v).oscLost = s.oscLost := Eq.refl s.oscLost

/-! #### State.resetRegs changes the field regs alone -/

@[simp] theorem State.resetRegs_pending (s : State) (p : Nat → Bool) : (s.resetRegs p).pending = s.pending := Eq.refl s.pending
@[simp] theorem State.resetRegs_cnts (s : State) (p : Nat → Bool) : (s.resetRegs p).cnts = s.cnts := Eq.refl s.cnts
@[simp] theorem State.resetRegs_shadows (s : State) (p : Nat → Bool) : (s.resetRegs p).shadows = s.shadows := Eq.refl s.shadows
@[simp] theorem State.resetRegs_mem (s : State) (p : Nat → Bool) : (s.resetRegs p).mem = s.mem := Eq.refl s.mem
@[simp] theorem State.resetRegs_freeCtr (s : State) (p : Nat → Bool) : (s.resetRegs p).freeCtr = s.freeCtr := Eq.refl s.freeCtr
@[simp] theorem State.resetRegs_out (s : State) (p : Nat → Bool) : (s.resetRegs p).out = s.out := Eq.refl s.out
@[simp] theorem State.resetRegs_reply (s : State) (p : Nat → Bool) : (s.resetRegs p).reply = s.reply := Eq.refl s.reply
@[simp] theorem State.resetRegs_now (s : State) (p : Nat → Bool) : (s.resetRegs p).now = s.now := Eq.refl s.now
@[simp] theorem State.resetRegs_timers (s : State) (p : Nat → Bool) : (s.resetRegs p).timers = s.timers := Eq.refl s.timers
@[simp] theorem State.resetRegs_arrivals (s : State) (p : Nat → Bool) : (s.resetRegs p).arrivals = s.arrivals := Eq.refl s.arrivals
@[simp] theorem State.resetRegs_image (s : State) (p : Nat → Bool) : (s.resetRegs p).image = s.image := Eq.refl s.image
@[simp] theorem State.resetRegs_cross (s : State) (p : Nat → Bool) : (s.resetRegs p).cross = s.cross := Eq.refl s.cross
@[simp] theorem State.resetRegs_regJob (s : State) (p : Nat → Bool) : (s.resetRegs p).regJob = s.regJob := Eq.refl s.regJob
@[simp] theorem State.resetRegs_raw (s : State) (p : Nat → Bool) : (s.resetRegs p).raw = s.raw := Eq.refl s.raw
@[simp] theorem State.resetRegs_tags (s : State) (p : Nat → Bool) : (s.resetRegs p).tags = s.tags := Eq.refl s.tags
@[simp] theorem State.resetRegs_cmdSeq (s : State) (p : Nat → Bool) : (s.resetRegs p).cmdSeq = s.cmdSeq := Eq.refl s.cmdSeq
@[simp] theorem State.resetRegs_jobs (s : State) (p : Nat → Bool) : (s.resetRegs p).jobs = s.jobs := Eq.refl s.jobs
@[simp] theorem State.resetRegs_gov (s : State) (p : Nat → Bool) : (s.resetRegs p).gov = s.gov := Eq.refl s.gov
@[simp] theorem State.resetRegs_modes (s : State) (p : Nat → Bool) : (s.resetRegs p).modes = s.modes := Eq.refl s.modes
@[simp] theorem State.resetRegs_fns (s : State) (p : Nat → Bool) : (s.resetRegs p).fns = s.fns := Eq.refl s.fns
@[simp] theorem State.resetRegs_links (s : State) (p : Nat → Bool) : (s.resetRegs p).links = s.links := Eq.refl s.links
@[simp] theorem State.resetRegs_flt (s : State) (p : Nat → Bool) : (s.resetRegs p).flt = s.flt := Eq.refl s.flt
@[simp] theorem State.resetRegs_eth (s : State) (p : Nat → Bool) : (s.resetRegs p).eth = s.eth := Eq.refl s.eth
@[simp] theorem State.resetRegs_staging (s : State) (p : Nat → Bool) : (s.resetRegs p).staging = s.staging := Eq.refl s.staging
@[simp] theorem State.resetRegs_qps (s : State) (p : Nat → Bool) : (s.resetRegs p).qps = s.qps := Eq.refl s.qps
@[simp] theorem State.resetRegs_micro (s : State) (p : Nat → Bool) : (s.resetRegs p).micro = s.micro := Eq.refl s.micro
@[simp] theorem State.resetRegs_mc (s : State) (p : Nat → Bool) : (s.resetRegs p).mc = s.mc := Eq.refl s.mc
@[simp] theorem State.resetRegs_pipes (s : State) (p : Nat → Bool) : (s.resetRegs p).pipes = s.pipes := Eq.refl s.pipes
@[simp] theorem State.resetRegs_cpairs (s : State) (p : Nat → Bool) : (s.resetRegs p).cpairs = s.cpairs := Eq.refl s.cpairs
@[simp] theorem State.resetRegs_upsets (s : State) (p : Nat → Bool) : (s.resetRegs p).upsets = s.upsets := Eq.refl s.upsets
@[simp] theorem State.resetRegs_tbl (s : State) (p : Nat → Bool) : (s.resetRegs p).tbl = s.tbl := Eq.refl s.tbl
@[simp] theorem State.resetRegs_weir (s : State) (p : Nat → Bool) : (s.resetRegs p).weir = s.weir := Eq.refl s.weir
@[simp] theorem State.resetRegs_egr (s : State) (p : Nat → Bool) : (s.resetRegs p).egr = s.egr := Eq.refl s.egr
@[simp] theorem State.resetRegs_txCredit (s : State) (p : Nat → Bool) : (s.resetRegs p).txCredit = s.txCredit := Eq.refl s.txCredit
@[simp] theorem State.resetRegs_txArmed (s : State) (p : Nat → Bool) : (s.resetRegs p).txArmed = s.txArmed := Eq.refl s.txArmed
@[simp] theorem State.resetRegs_plots (s : State) (p : Nat → Bool) : (s.resetRegs p).plots = s.plots := Eq.refl s.plots
@[simp] theorem State.resetRegs_timeOff (s : State) (p : Nat → Bool) : (s.resetRegs p).timeOff = s.timeOff := Eq.refl s.timeOff
@[simp] theorem State.resetRegs_tim (s : State) (p : Nat → Bool) : (s.resetRegs p).tim = s.tim := Eq.refl s.tim
@[simp] theorem State.resetRegs_silo (s : State) (p : Nat → Bool) : (s.resetRegs p).silo = s.silo := Eq.refl s.silo
@[simp] theorem State.resetRegs_cist (s : State) (p : Nat → Bool) : (s.resetRegs p).cist = s.cist := Eq.refl s.cist
@[simp] theorem State.resetRegs_vault (s : State) (p : Nat → Bool) : (s.resetRegs p).vault = s.vault := Eq.refl s.vault
@[simp] theorem State.resetRegs_rsv (s : State) (p : Nat → Bool) : (s.resetRegs p).rsv = s.rsv := Eq.refl s.rsv
@[simp] theorem State.resetRegs_hop (s : State) (p : Nat → Bool) : (s.resetRegs p).hop = s.hop := Eq.refl s.hop
@[simp] theorem State.resetRegs_keks (s : State) (p : Nat → Bool) : (s.resetRegs p).keks = s.keks := Eq.refl s.keks
@[simp] theorem State.resetRegs_icr (s : State) (p : Nat → Bool) : (s.resetRegs p).icr = s.icr := Eq.refl s.icr
@[simp] theorem State.resetRegs_bmv (s : State) (p : Nat → Bool) : (s.resetRegs p).bmv = s.bmv := Eq.refl s.bmv
@[simp] theorem State.resetRegs_kcu (s : State) (p : Nat → Bool) : (s.resetRegs p).kcu = s.kcu := Eq.refl s.kcu
@[simp] theorem State.resetRegs_sec (s : State) (p : Nat → Bool) : (s.resetRegs p).sec = s.sec := Eq.refl s.sec
@[simp] theorem State.resetRegs_oscLost (s : State) (p : Nat → Bool) : (s.resetRegs p).oscLost = s.oscLost := Eq.refl s.oscLost

/-! #### State.bump changes the field regs alone -/

@[simp] theorem State.bump_pending (s : State) (b : Nat) (f : RegField) : (s.bump b f).pending = s.pending := Eq.refl s.pending
@[simp] theorem State.bump_cnts (s : State) (b : Nat) (f : RegField) : (s.bump b f).cnts = s.cnts := Eq.refl s.cnts
@[simp] theorem State.bump_shadows (s : State) (b : Nat) (f : RegField) : (s.bump b f).shadows = s.shadows := Eq.refl s.shadows
@[simp] theorem State.bump_mem (s : State) (b : Nat) (f : RegField) : (s.bump b f).mem = s.mem := Eq.refl s.mem
@[simp] theorem State.bump_freeCtr (s : State) (b : Nat) (f : RegField) : (s.bump b f).freeCtr = s.freeCtr := Eq.refl s.freeCtr
@[simp] theorem State.bump_out (s : State) (b : Nat) (f : RegField) : (s.bump b f).out = s.out := Eq.refl s.out
@[simp] theorem State.bump_reply (s : State) (b : Nat) (f : RegField) : (s.bump b f).reply = s.reply := Eq.refl s.reply
@[simp] theorem State.bump_now (s : State) (b : Nat) (f : RegField) : (s.bump b f).now = s.now := Eq.refl s.now
@[simp] theorem State.bump_timers (s : State) (b : Nat) (f : RegField) : (s.bump b f).timers = s.timers := Eq.refl s.timers
@[simp] theorem State.bump_arrivals (s : State) (b : Nat) (f : RegField) : (s.bump b f).arrivals = s.arrivals := Eq.refl s.arrivals
@[simp] theorem State.bump_image (s : State) (b : Nat) (f : RegField) : (s.bump b f).image = s.image := Eq.refl s.image
@[simp] theorem State.bump_cross (s : State) (b : Nat) (f : RegField) : (s.bump b f).cross = s.cross := Eq.refl s.cross
@[simp] theorem State.bump_regJob (s : State) (b : Nat) (f : RegField) : (s.bump b f).regJob = s.regJob := Eq.refl s.regJob
@[simp] theorem State.bump_raw (s : State) (b : Nat) (f : RegField) : (s.bump b f).raw = s.raw := Eq.refl s.raw
@[simp] theorem State.bump_tags (s : State) (b : Nat) (f : RegField) : (s.bump b f).tags = s.tags := Eq.refl s.tags
@[simp] theorem State.bump_cmdSeq (s : State) (b : Nat) (f : RegField) : (s.bump b f).cmdSeq = s.cmdSeq := Eq.refl s.cmdSeq
@[simp] theorem State.bump_jobs (s : State) (b : Nat) (f : RegField) : (s.bump b f).jobs = s.jobs := Eq.refl s.jobs
@[simp] theorem State.bump_gov (s : State) (b : Nat) (f : RegField) : (s.bump b f).gov = s.gov := Eq.refl s.gov
@[simp] theorem State.bump_modes (s : State) (b : Nat) (f : RegField) : (s.bump b f).modes = s.modes := Eq.refl s.modes
@[simp] theorem State.bump_fns (s : State) (b : Nat) (f : RegField) : (s.bump b f).fns = s.fns := Eq.refl s.fns
@[simp] theorem State.bump_links (s : State) (b : Nat) (f : RegField) : (s.bump b f).links = s.links := Eq.refl s.links
@[simp] theorem State.bump_flt (s : State) (b : Nat) (f : RegField) : (s.bump b f).flt = s.flt := Eq.refl s.flt
@[simp] theorem State.bump_eth (s : State) (b : Nat) (f : RegField) : (s.bump b f).eth = s.eth := Eq.refl s.eth
@[simp] theorem State.bump_staging (s : State) (b : Nat) (f : RegField) : (s.bump b f).staging = s.staging := Eq.refl s.staging
@[simp] theorem State.bump_qps (s : State) (b : Nat) (f : RegField) : (s.bump b f).qps = s.qps := Eq.refl s.qps
@[simp] theorem State.bump_micro (s : State) (b : Nat) (f : RegField) : (s.bump b f).micro = s.micro := Eq.refl s.micro
@[simp] theorem State.bump_mc (s : State) (b : Nat) (f : RegField) : (s.bump b f).mc = s.mc := Eq.refl s.mc
@[simp] theorem State.bump_pipes (s : State) (b : Nat) (f : RegField) : (s.bump b f).pipes = s.pipes := Eq.refl s.pipes
@[simp] theorem State.bump_cpairs (s : State) (b : Nat) (f : RegField) : (s.bump b f).cpairs = s.cpairs := Eq.refl s.cpairs
@[simp] theorem State.bump_upsets (s : State) (b : Nat) (f : RegField) : (s.bump b f).upsets = s.upsets := Eq.refl s.upsets
@[simp] theorem State.bump_tbl (s : State) (b : Nat) (f : RegField) : (s.bump b f).tbl = s.tbl := Eq.refl s.tbl
@[simp] theorem State.bump_weir (s : State) (b : Nat) (f : RegField) : (s.bump b f).weir = s.weir := Eq.refl s.weir
@[simp] theorem State.bump_egr (s : State) (b : Nat) (f : RegField) : (s.bump b f).egr = s.egr := Eq.refl s.egr
@[simp] theorem State.bump_txCredit (s : State) (b : Nat) (f : RegField) : (s.bump b f).txCredit = s.txCredit := Eq.refl s.txCredit
@[simp] theorem State.bump_txArmed (s : State) (b : Nat) (f : RegField) : (s.bump b f).txArmed = s.txArmed := Eq.refl s.txArmed
@[simp] theorem State.bump_plots (s : State) (b : Nat) (f : RegField) : (s.bump b f).plots = s.plots := Eq.refl s.plots
@[simp] theorem State.bump_timeOff (s : State) (b : Nat) (f : RegField) : (s.bump b f).timeOff = s.timeOff := Eq.refl s.timeOff
@[simp] theorem State.bump_tim (s : State) (b : Nat) (f : RegField) : (s.bump b f).tim = s.tim := Eq.refl s.tim
@[simp] theorem State.bump_silo (s : State) (b : Nat) (f : RegField) : (s.bump b f).silo = s.silo := Eq.refl s.silo
@[simp] theorem State.bump_cist (s : State) (b : Nat) (f : RegField) : (s.bump b f).cist = s.cist := Eq.refl s.cist
@[simp] theorem State.bump_vault (s : State) (b : Nat) (f : RegField) : (s.bump b f).vault = s.vault := Eq.refl s.vault
@[simp] theorem State.bump_rsv (s : State) (b : Nat) (f : RegField) : (s.bump b f).rsv = s.rsv := Eq.refl s.rsv
@[simp] theorem State.bump_hop (s : State) (b : Nat) (f : RegField) : (s.bump b f).hop = s.hop := Eq.refl s.hop
@[simp] theorem State.bump_keks (s : State) (b : Nat) (f : RegField) : (s.bump b f).keks = s.keks := Eq.refl s.keks
@[simp] theorem State.bump_icr (s : State) (b : Nat) (f : RegField) : (s.bump b f).icr = s.icr := Eq.refl s.icr
@[simp] theorem State.bump_bmv (s : State) (b : Nat) (f : RegField) : (s.bump b f).bmv = s.bmv := Eq.refl s.bmv
@[simp] theorem State.bump_kcu (s : State) (b : Nat) (f : RegField) : (s.bump b f).kcu = s.kcu := Eq.refl s.kcu
@[simp] theorem State.bump_sec (s : State) (b : Nat) (f : RegField) : (s.bump b f).sec = s.sec := Eq.refl s.sec
@[simp] theorem State.bump_oscLost (s : State) (b : Nat) (f : RegField) : (s.bump b f).oscLost = s.oscLost := Eq.refl s.oscLost

/-! #### State.setDom changes the field regs alone -/

@[simp] theorem State.setDom_pending (s : State) (d : Nat) (on : Bool) : (s.setDom d on).pending = s.pending := Eq.refl s.pending
@[simp] theorem State.setDom_cnts (s : State) (d : Nat) (on : Bool) : (s.setDom d on).cnts = s.cnts := Eq.refl s.cnts
@[simp] theorem State.setDom_shadows (s : State) (d : Nat) (on : Bool) : (s.setDom d on).shadows = s.shadows := Eq.refl s.shadows
@[simp] theorem State.setDom_mem (s : State) (d : Nat) (on : Bool) : (s.setDom d on).mem = s.mem := Eq.refl s.mem
@[simp] theorem State.setDom_freeCtr (s : State) (d : Nat) (on : Bool) : (s.setDom d on).freeCtr = s.freeCtr := Eq.refl s.freeCtr
@[simp] theorem State.setDom_out (s : State) (d : Nat) (on : Bool) : (s.setDom d on).out = s.out := Eq.refl s.out
@[simp] theorem State.setDom_reply (s : State) (d : Nat) (on : Bool) : (s.setDom d on).reply = s.reply := Eq.refl s.reply
@[simp] theorem State.setDom_now (s : State) (d : Nat) (on : Bool) : (s.setDom d on).now = s.now := Eq.refl s.now
@[simp] theorem State.setDom_timers (s : State) (d : Nat) (on : Bool) : (s.setDom d on).timers = s.timers := Eq.refl s.timers
@[simp] theorem State.setDom_arrivals (s : State) (d : Nat) (on : Bool) : (s.setDom d on).arrivals = s.arrivals := Eq.refl s.arrivals
@[simp] theorem State.setDom_image (s : State) (d : Nat) (on : Bool) : (s.setDom d on).image = s.image := Eq.refl s.image
@[simp] theorem State.setDom_cross (s : State) (d : Nat) (on : Bool) : (s.setDom d on).cross = s.cross := Eq.refl s.cross
@[simp] theorem State.setDom_regJob (s : State) (d : Nat) (on : Bool) : (s.setDom d on).regJob = s.regJob := Eq.refl s.regJob
@[simp] theorem State.setDom_raw (s : State) (d : Nat) (on : Bool) : (s.setDom d on).raw = s.raw := Eq.refl s.raw
@[simp] theorem State.setDom_tags (s : State) (d : Nat) (on : Bool) : (s.setDom d on).tags = s.tags := Eq.refl s.tags
@[simp] theorem State.setDom_cmdSeq (s : State) (d : Nat) (on : Bool) : (s.setDom d on).cmdSeq = s.cmdSeq := Eq.refl s.cmdSeq
@[simp] theorem State.setDom_jobs (s : State) (d : Nat) (on : Bool) : (s.setDom d on).jobs = s.jobs := Eq.refl s.jobs
@[simp] theorem State.setDom_gov (s : State) (d : Nat) (on : Bool) : (s.setDom d on).gov = s.gov := Eq.refl s.gov
@[simp] theorem State.setDom_modes (s : State) (d : Nat) (on : Bool) : (s.setDom d on).modes = s.modes := Eq.refl s.modes
@[simp] theorem State.setDom_fns (s : State) (d : Nat) (on : Bool) : (s.setDom d on).fns = s.fns := Eq.refl s.fns
@[simp] theorem State.setDom_links (s : State) (d : Nat) (on : Bool) : (s.setDom d on).links = s.links := Eq.refl s.links
@[simp] theorem State.setDom_flt (s : State) (d : Nat) (on : Bool) : (s.setDom d on).flt = s.flt := Eq.refl s.flt
@[simp] theorem State.setDom_eth (s : State) (d : Nat) (on : Bool) : (s.setDom d on).eth = s.eth := Eq.refl s.eth
@[simp] theorem State.setDom_staging (s : State) (d : Nat) (on : Bool) : (s.setDom d on).staging = s.staging := Eq.refl s.staging
@[simp] theorem State.setDom_qps (s : State) (d : Nat) (on : Bool) : (s.setDom d on).qps = s.qps := Eq.refl s.qps
@[simp] theorem State.setDom_micro (s : State) (d : Nat) (on : Bool) : (s.setDom d on).micro = s.micro := Eq.refl s.micro
@[simp] theorem State.setDom_mc (s : State) (d : Nat) (on : Bool) : (s.setDom d on).mc = s.mc := Eq.refl s.mc
@[simp] theorem State.setDom_pipes (s : State) (d : Nat) (on : Bool) : (s.setDom d on).pipes = s.pipes := Eq.refl s.pipes
@[simp] theorem State.setDom_cpairs (s : State) (d : Nat) (on : Bool) : (s.setDom d on).cpairs = s.cpairs := Eq.refl s.cpairs
@[simp] theorem State.setDom_upsets (s : State) (d : Nat) (on : Bool) : (s.setDom d on).upsets = s.upsets := Eq.refl s.upsets
@[simp] theorem State.setDom_tbl (s : State) (d : Nat) (on : Bool) : (s.setDom d on).tbl = s.tbl := Eq.refl s.tbl
@[simp] theorem State.setDom_weir (s : State) (d : Nat) (on : Bool) : (s.setDom d on).weir = s.weir := Eq.refl s.weir
@[simp] theorem State.setDom_egr (s : State) (d : Nat) (on : Bool) : (s.setDom d on).egr = s.egr := Eq.refl s.egr
@[simp] theorem State.setDom_txCredit (s : State) (d : Nat) (on : Bool) : (s.setDom d on).txCredit = s.txCredit := Eq.refl s.txCredit
@[simp] theorem State.setDom_txArmed (s : State) (d : Nat) (on : Bool) : (s.setDom d on).txArmed = s.txArmed := Eq.refl s.txArmed
@[simp] theorem State.setDom_plots (s : State) (d : Nat) (on : Bool) : (s.setDom d on).plots = s.plots := Eq.refl s.plots
@[simp] theorem State.setDom_timeOff (s : State) (d : Nat) (on : Bool) : (s.setDom d on).timeOff = s.timeOff := Eq.refl s.timeOff
@[simp] theorem State.setDom_tim (s : State) (d : Nat) (on : Bool) : (s.setDom d on).tim = s.tim := Eq.refl s.tim
@[simp] theorem State.setDom_silo (s : State) (d : Nat) (on : Bool) : (s.setDom d on).silo = s.silo := Eq.refl s.silo
@[simp] theorem State.setDom_cist (s : State) (d : Nat) (on : Bool) : (s.setDom d on).cist = s.cist := Eq.refl s.cist
@[simp] theorem State.setDom_vault (s : State) (d : Nat) (on : Bool) : (s.setDom d on).vault = s.vault := Eq.refl s.vault
@[simp] theorem State.setDom_rsv (s : State) (d : Nat) (on : Bool) : (s.setDom d on).rsv = s.rsv := Eq.refl s.rsv
@[simp] theorem State.setDom_hop (s : State) (d : Nat) (on : Bool) : (s.setDom d on).hop = s.hop := Eq.refl s.hop
@[simp] theorem State.setDom_keks (s : State) (d : Nat) (on : Bool) : (s.setDom d on).keks = s.keks := Eq.refl s.keks
@[simp] theorem State.setDom_icr (s : State) (d : Nat) (on : Bool) : (s.setDom d on).icr = s.icr := Eq.refl s.icr
@[simp] theorem State.setDom_bmv (s : State) (d : Nat) (on : Bool) : (s.setDom d on).bmv = s.bmv := Eq.refl s.bmv
@[simp] theorem State.setDom_kcu (s : State) (d : Nat) (on : Bool) : (s.setDom d on).kcu = s.kcu := Eq.refl s.kcu
@[simp] theorem State.setDom_sec (s : State) (d : Nat) (on : Bool) : (s.setDom d on).sec = s.sec := Eq.refl s.sec
@[simp] theorem State.setDom_oscLost (s : State) (d : Nat) (on : Bool) : (s.setDom d on).oscLost = s.oscLost := Eq.refl s.oscLost

/-! #### State.setCnt changes the field cnts alone -/

@[simp] theorem State.setCnt_pending (s : State) (a v : Nat) : (s.setCnt a v).pending = s.pending := Eq.refl s.pending
@[simp] theorem State.setCnt_regs (s : State) (a v : Nat) : (s.setCnt a v).regs = s.regs := Eq.refl s.regs
@[simp] theorem State.setCnt_shadows (s : State) (a v : Nat) : (s.setCnt a v).shadows = s.shadows := Eq.refl s.shadows
@[simp] theorem State.setCnt_mem (s : State) (a v : Nat) : (s.setCnt a v).mem = s.mem := Eq.refl s.mem
@[simp] theorem State.setCnt_freeCtr (s : State) (a v : Nat) : (s.setCnt a v).freeCtr = s.freeCtr := Eq.refl s.freeCtr
@[simp] theorem State.setCnt_out (s : State) (a v : Nat) : (s.setCnt a v).out = s.out := Eq.refl s.out
@[simp] theorem State.setCnt_reply (s : State) (a v : Nat) : (s.setCnt a v).reply = s.reply := Eq.refl s.reply
@[simp] theorem State.setCnt_now (s : State) (a v : Nat) : (s.setCnt a v).now = s.now := Eq.refl s.now
@[simp] theorem State.setCnt_timers (s : State) (a v : Nat) : (s.setCnt a v).timers = s.timers := Eq.refl s.timers
@[simp] theorem State.setCnt_arrivals (s : State) (a v : Nat) : (s.setCnt a v).arrivals = s.arrivals := Eq.refl s.arrivals
@[simp] theorem State.setCnt_image (s : State) (a v : Nat) : (s.setCnt a v).image = s.image := Eq.refl s.image
@[simp] theorem State.setCnt_cross (s : State) (a v : Nat) : (s.setCnt a v).cross = s.cross := Eq.refl s.cross
@[simp] theorem State.setCnt_regJob (s : State) (a v : Nat) : (s.setCnt a v).regJob = s.regJob := Eq.refl s.regJob
@[simp] theorem State.setCnt_raw (s : State) (a v : Nat) : (s.setCnt a v).raw = s.raw := Eq.refl s.raw
@[simp] theorem State.setCnt_tags (s : State) (a v : Nat) : (s.setCnt a v).tags = s.tags := Eq.refl s.tags
@[simp] theorem State.setCnt_cmdSeq (s : State) (a v : Nat) : (s.setCnt a v).cmdSeq = s.cmdSeq := Eq.refl s.cmdSeq
@[simp] theorem State.setCnt_jobs (s : State) (a v : Nat) : (s.setCnt a v).jobs = s.jobs := Eq.refl s.jobs
@[simp] theorem State.setCnt_gov (s : State) (a v : Nat) : (s.setCnt a v).gov = s.gov := Eq.refl s.gov
@[simp] theorem State.setCnt_modes (s : State) (a v : Nat) : (s.setCnt a v).modes = s.modes := Eq.refl s.modes
@[simp] theorem State.setCnt_fns (s : State) (a v : Nat) : (s.setCnt a v).fns = s.fns := Eq.refl s.fns
@[simp] theorem State.setCnt_links (s : State) (a v : Nat) : (s.setCnt a v).links = s.links := Eq.refl s.links
@[simp] theorem State.setCnt_flt (s : State) (a v : Nat) : (s.setCnt a v).flt = s.flt := Eq.refl s.flt
@[simp] theorem State.setCnt_eth (s : State) (a v : Nat) : (s.setCnt a v).eth = s.eth := Eq.refl s.eth
@[simp] theorem State.setCnt_staging (s : State) (a v : Nat) : (s.setCnt a v).staging = s.staging := Eq.refl s.staging
@[simp] theorem State.setCnt_qps (s : State) (a v : Nat) : (s.setCnt a v).qps = s.qps := Eq.refl s.qps
@[simp] theorem State.setCnt_micro (s : State) (a v : Nat) : (s.setCnt a v).micro = s.micro := Eq.refl s.micro
@[simp] theorem State.setCnt_mc (s : State) (a v : Nat) : (s.setCnt a v).mc = s.mc := Eq.refl s.mc
@[simp] theorem State.setCnt_pipes (s : State) (a v : Nat) : (s.setCnt a v).pipes = s.pipes := Eq.refl s.pipes
@[simp] theorem State.setCnt_cpairs (s : State) (a v : Nat) : (s.setCnt a v).cpairs = s.cpairs := Eq.refl s.cpairs
@[simp] theorem State.setCnt_upsets (s : State) (a v : Nat) : (s.setCnt a v).upsets = s.upsets := Eq.refl s.upsets
@[simp] theorem State.setCnt_tbl (s : State) (a v : Nat) : (s.setCnt a v).tbl = s.tbl := Eq.refl s.tbl
@[simp] theorem State.setCnt_weir (s : State) (a v : Nat) : (s.setCnt a v).weir = s.weir := Eq.refl s.weir
@[simp] theorem State.setCnt_egr (s : State) (a v : Nat) : (s.setCnt a v).egr = s.egr := Eq.refl s.egr
@[simp] theorem State.setCnt_txCredit (s : State) (a v : Nat) : (s.setCnt a v).txCredit = s.txCredit := Eq.refl s.txCredit
@[simp] theorem State.setCnt_txArmed (s : State) (a v : Nat) : (s.setCnt a v).txArmed = s.txArmed := Eq.refl s.txArmed
@[simp] theorem State.setCnt_plots (s : State) (a v : Nat) : (s.setCnt a v).plots = s.plots := Eq.refl s.plots
@[simp] theorem State.setCnt_timeOff (s : State) (a v : Nat) : (s.setCnt a v).timeOff = s.timeOff := Eq.refl s.timeOff
@[simp] theorem State.setCnt_tim (s : State) (a v : Nat) : (s.setCnt a v).tim = s.tim := Eq.refl s.tim
@[simp] theorem State.setCnt_silo (s : State) (a v : Nat) : (s.setCnt a v).silo = s.silo := Eq.refl s.silo
@[simp] theorem State.setCnt_cist (s : State) (a v : Nat) : (s.setCnt a v).cist = s.cist := Eq.refl s.cist
@[simp] theorem State.setCnt_vault (s : State) (a v : Nat) : (s.setCnt a v).vault = s.vault := Eq.refl s.vault
@[simp] theorem State.setCnt_rsv (s : State) (a v : Nat) : (s.setCnt a v).rsv = s.rsv := Eq.refl s.rsv
@[simp] theorem State.setCnt_hop (s : State) (a v : Nat) : (s.setCnt a v).hop = s.hop := Eq.refl s.hop
@[simp] theorem State.setCnt_keks (s : State) (a v : Nat) : (s.setCnt a v).keks = s.keks := Eq.refl s.keks
@[simp] theorem State.setCnt_icr (s : State) (a v : Nat) : (s.setCnt a v).icr = s.icr := Eq.refl s.icr
@[simp] theorem State.setCnt_bmv (s : State) (a v : Nat) : (s.setCnt a v).bmv = s.bmv := Eq.refl s.bmv
@[simp] theorem State.setCnt_kcu (s : State) (a v : Nat) : (s.setCnt a v).kcu = s.kcu := Eq.refl s.kcu
@[simp] theorem State.setCnt_sec (s : State) (a v : Nat) : (s.setCnt a v).sec = s.sec := Eq.refl s.sec
@[simp] theorem State.setCnt_oscLost (s : State) (a v : Nat) : (s.setCnt a v).oscLost = s.oscLost := Eq.refl s.oscLost

/-! #### State.emit changes the field out alone -/

@[simp] theorem State.emit_pending (s : State) (o : Out) : (s.emit o).pending = s.pending := Eq.refl s.pending
@[simp] theorem State.emit_regs (s : State) (o : Out) : (s.emit o).regs = s.regs := Eq.refl s.regs
@[simp] theorem State.emit_cnts (s : State) (o : Out) : (s.emit o).cnts = s.cnts := Eq.refl s.cnts
@[simp] theorem State.emit_shadows (s : State) (o : Out) : (s.emit o).shadows = s.shadows := Eq.refl s.shadows
@[simp] theorem State.emit_mem (s : State) (o : Out) : (s.emit o).mem = s.mem := Eq.refl s.mem
@[simp] theorem State.emit_freeCtr (s : State) (o : Out) : (s.emit o).freeCtr = s.freeCtr := Eq.refl s.freeCtr
@[simp] theorem State.emit_reply (s : State) (o : Out) : (s.emit o).reply = s.reply := Eq.refl s.reply
@[simp] theorem State.emit_now (s : State) (o : Out) : (s.emit o).now = s.now := Eq.refl s.now
@[simp] theorem State.emit_timers (s : State) (o : Out) : (s.emit o).timers = s.timers := Eq.refl s.timers
@[simp] theorem State.emit_arrivals (s : State) (o : Out) : (s.emit o).arrivals = s.arrivals := Eq.refl s.arrivals
@[simp] theorem State.emit_image (s : State) (o : Out) : (s.emit o).image = s.image := Eq.refl s.image
@[simp] theorem State.emit_cross (s : State) (o : Out) : (s.emit o).cross = s.cross := Eq.refl s.cross
@[simp] theorem State.emit_regJob (s : State) (o : Out) : (s.emit o).regJob = s.regJob := Eq.refl s.regJob
@[simp] theorem State.emit_raw (s : State) (o : Out) : (s.emit o).raw = s.raw := Eq.refl s.raw
@[simp] theorem State.emit_tags (s : State) (o : Out) : (s.emit o).tags = s.tags := Eq.refl s.tags
@[simp] theorem State.emit_cmdSeq (s : State) (o : Out) : (s.emit o).cmdSeq = s.cmdSeq := Eq.refl s.cmdSeq
@[simp] theorem State.emit_jobs (s : State) (o : Out) : (s.emit o).jobs = s.jobs := Eq.refl s.jobs
@[simp] theorem State.emit_gov (s : State) (o : Out) : (s.emit o).gov = s.gov := Eq.refl s.gov
@[simp] theorem State.emit_modes (s : State) (o : Out) : (s.emit o).modes = s.modes := Eq.refl s.modes
@[simp] theorem State.emit_fns (s : State) (o : Out) : (s.emit o).fns = s.fns := Eq.refl s.fns
@[simp] theorem State.emit_links (s : State) (o : Out) : (s.emit o).links = s.links := Eq.refl s.links
@[simp] theorem State.emit_flt (s : State) (o : Out) : (s.emit o).flt = s.flt := Eq.refl s.flt
@[simp] theorem State.emit_eth (s : State) (o : Out) : (s.emit o).eth = s.eth := Eq.refl s.eth
@[simp] theorem State.emit_staging (s : State) (o : Out) : (s.emit o).staging = s.staging := Eq.refl s.staging
@[simp] theorem State.emit_qps (s : State) (o : Out) : (s.emit o).qps = s.qps := Eq.refl s.qps
@[simp] theorem State.emit_micro (s : State) (o : Out) : (s.emit o).micro = s.micro := Eq.refl s.micro
@[simp] theorem State.emit_mc (s : State) (o : Out) : (s.emit o).mc = s.mc := Eq.refl s.mc
@[simp] theorem State.emit_pipes (s : State) (o : Out) : (s.emit o).pipes = s.pipes := Eq.refl s.pipes
@[simp] theorem State.emit_cpairs (s : State) (o : Out) : (s.emit o).cpairs = s.cpairs := Eq.refl s.cpairs
@[simp] theorem State.emit_upsets (s : State) (o : Out) : (s.emit o).upsets = s.upsets := Eq.refl s.upsets
@[simp] theorem State.emit_tbl (s : State) (o : Out) : (s.emit o).tbl = s.tbl := Eq.refl s.tbl
@[simp] theorem State.emit_weir (s : State) (o : Out) : (s.emit o).weir = s.weir := Eq.refl s.weir
@[simp] theorem State.emit_egr (s : State) (o : Out) : (s.emit o).egr = s.egr := Eq.refl s.egr
@[simp] theorem State.emit_txCredit (s : State) (o : Out) : (s.emit o).txCredit = s.txCredit := Eq.refl s.txCredit
@[simp] theorem State.emit_txArmed (s : State) (o : Out) : (s.emit o).txArmed = s.txArmed := Eq.refl s.txArmed
@[simp] theorem State.emit_plots (s : State) (o : Out) : (s.emit o).plots = s.plots := Eq.refl s.plots
@[simp] theorem State.emit_timeOff (s : State) (o : Out) : (s.emit o).timeOff = s.timeOff := Eq.refl s.timeOff
@[simp] theorem State.emit_tim (s : State) (o : Out) : (s.emit o).tim = s.tim := Eq.refl s.tim
@[simp] theorem State.emit_silo (s : State) (o : Out) : (s.emit o).silo = s.silo := Eq.refl s.silo
@[simp] theorem State.emit_cist (s : State) (o : Out) : (s.emit o).cist = s.cist := Eq.refl s.cist
@[simp] theorem State.emit_vault (s : State) (o : Out) : (s.emit o).vault = s.vault := Eq.refl s.vault
@[simp] theorem State.emit_rsv (s : State) (o : Out) : (s.emit o).rsv = s.rsv := Eq.refl s.rsv
@[simp] theorem State.emit_hop (s : State) (o : Out) : (s.emit o).hop = s.hop := Eq.refl s.hop
@[simp] theorem State.emit_keks (s : State) (o : Out) : (s.emit o).keks = s.keks := Eq.refl s.keks
@[simp] theorem State.emit_icr (s : State) (o : Out) : (s.emit o).icr = s.icr := Eq.refl s.icr
@[simp] theorem State.emit_bmv (s : State) (o : Out) : (s.emit o).bmv = s.bmv := Eq.refl s.bmv
@[simp] theorem State.emit_kcu (s : State) (o : Out) : (s.emit o).kcu = s.kcu := Eq.refl s.kcu
@[simp] theorem State.emit_sec (s : State) (o : Out) : (s.emit o).sec = s.sec := Eq.refl s.sec
@[simp] theorem State.emit_oscLost (s : State) (o : Out) : (s.emit o).oscLost = s.oscLost := Eq.refl s.oscLost

/-! #### State.answer changes the field reply alone -/

@[simp] theorem State.answer_pending (s : State) (r : Reply) : (s.answer r).pending = s.pending := Eq.refl s.pending
@[simp] theorem State.answer_regs (s : State) (r : Reply) : (s.answer r).regs = s.regs := Eq.refl s.regs
@[simp] theorem State.answer_cnts (s : State) (r : Reply) : (s.answer r).cnts = s.cnts := Eq.refl s.cnts
@[simp] theorem State.answer_shadows (s : State) (r : Reply) : (s.answer r).shadows = s.shadows := Eq.refl s.shadows
@[simp] theorem State.answer_mem (s : State) (r : Reply) : (s.answer r).mem = s.mem := Eq.refl s.mem
@[simp] theorem State.answer_freeCtr (s : State) (r : Reply) : (s.answer r).freeCtr = s.freeCtr := Eq.refl s.freeCtr
@[simp] theorem State.answer_out (s : State) (r : Reply) : (s.answer r).out = s.out := Eq.refl s.out
@[simp] theorem State.answer_now (s : State) (r : Reply) : (s.answer r).now = s.now := Eq.refl s.now
@[simp] theorem State.answer_timers (s : State) (r : Reply) : (s.answer r).timers = s.timers := Eq.refl s.timers
@[simp] theorem State.answer_arrivals (s : State) (r : Reply) : (s.answer r).arrivals = s.arrivals := Eq.refl s.arrivals
@[simp] theorem State.answer_image (s : State) (r : Reply) : (s.answer r).image = s.image := Eq.refl s.image
@[simp] theorem State.answer_cross (s : State) (r : Reply) : (s.answer r).cross = s.cross := Eq.refl s.cross
@[simp] theorem State.answer_regJob (s : State) (r : Reply) : (s.answer r).regJob = s.regJob := Eq.refl s.regJob
@[simp] theorem State.answer_raw (s : State) (r : Reply) : (s.answer r).raw = s.raw := Eq.refl s.raw
@[simp] theorem State.answer_tags (s : State) (r : Reply) : (s.answer r).tags = s.tags := Eq.refl s.tags
@[simp] theorem State.answer_cmdSeq (s : State) (r : Reply) : (s.answer r).cmdSeq = s.cmdSeq := Eq.refl s.cmdSeq
@[simp] theorem State.answer_jobs (s : State) (r : Reply) : (s.answer r).jobs = s.jobs := Eq.refl s.jobs
@[simp] theorem State.answer_gov (s : State) (r : Reply) : (s.answer r).gov = s.gov := Eq.refl s.gov
@[simp] theorem State.answer_modes (s : State) (r : Reply) : (s.answer r).modes = s.modes := Eq.refl s.modes
@[simp] theorem State.answer_fns (s : State) (r : Reply) : (s.answer r).fns = s.fns := Eq.refl s.fns
@[simp] theorem State.answer_links (s : State) (r : Reply) : (s.answer r).links = s.links := Eq.refl s.links
@[simp] theorem State.answer_flt (s : State) (r : Reply) : (s.answer r).flt = s.flt := Eq.refl s.flt
@[simp] theorem State.answer_eth (s : State) (r : Reply) : (s.answer r).eth = s.eth := Eq.refl s.eth
@[simp] theorem State.answer_staging (s : State) (r : Reply) : (s.answer r).staging = s.staging := Eq.refl s.staging
@[simp] theorem State.answer_qps (s : State) (r : Reply) : (s.answer r).qps = s.qps := Eq.refl s.qps
@[simp] theorem State.answer_micro (s : State) (r : Reply) : (s.answer r).micro = s.micro := Eq.refl s.micro
@[simp] theorem State.answer_mc (s : State) (r : Reply) : (s.answer r).mc = s.mc := Eq.refl s.mc
@[simp] theorem State.answer_pipes (s : State) (r : Reply) : (s.answer r).pipes = s.pipes := Eq.refl s.pipes
@[simp] theorem State.answer_cpairs (s : State) (r : Reply) : (s.answer r).cpairs = s.cpairs := Eq.refl s.cpairs
@[simp] theorem State.answer_upsets (s : State) (r : Reply) : (s.answer r).upsets = s.upsets := Eq.refl s.upsets
@[simp] theorem State.answer_tbl (s : State) (r : Reply) : (s.answer r).tbl = s.tbl := Eq.refl s.tbl
@[simp] theorem State.answer_weir (s : State) (r : Reply) : (s.answer r).weir = s.weir := Eq.refl s.weir
@[simp] theorem State.answer_egr (s : State) (r : Reply) : (s.answer r).egr = s.egr := Eq.refl s.egr
@[simp] theorem State.answer_txCredit (s : State) (r : Reply) : (s.answer r).txCredit = s.txCredit := Eq.refl s.txCredit
@[simp] theorem State.answer_txArmed (s : State) (r : Reply) : (s.answer r).txArmed = s.txArmed := Eq.refl s.txArmed
@[simp] theorem State.answer_plots (s : State) (r : Reply) : (s.answer r).plots = s.plots := Eq.refl s.plots
@[simp] theorem State.answer_timeOff (s : State) (r : Reply) : (s.answer r).timeOff = s.timeOff := Eq.refl s.timeOff
@[simp] theorem State.answer_tim (s : State) (r : Reply) : (s.answer r).tim = s.tim := Eq.refl s.tim
@[simp] theorem State.answer_silo (s : State) (r : Reply) : (s.answer r).silo = s.silo := Eq.refl s.silo
@[simp] theorem State.answer_cist (s : State) (r : Reply) : (s.answer r).cist = s.cist := Eq.refl s.cist
@[simp] theorem State.answer_vault (s : State) (r : Reply) : (s.answer r).vault = s.vault := Eq.refl s.vault
@[simp] theorem State.answer_rsv (s : State) (r : Reply) : (s.answer r).rsv = s.rsv := Eq.refl s.rsv
@[simp] theorem State.answer_hop (s : State) (r : Reply) : (s.answer r).hop = s.hop := Eq.refl s.hop
@[simp] theorem State.answer_keks (s : State) (r : Reply) : (s.answer r).keks = s.keks := Eq.refl s.keks
@[simp] theorem State.answer_icr (s : State) (r : Reply) : (s.answer r).icr = s.icr := Eq.refl s.icr
@[simp] theorem State.answer_bmv (s : State) (r : Reply) : (s.answer r).bmv = s.bmv := Eq.refl s.bmv
@[simp] theorem State.answer_kcu (s : State) (r : Reply) : (s.answer r).kcu = s.kcu := Eq.refl s.kcu
@[simp] theorem State.answer_sec (s : State) (r : Reply) : (s.answer r).sec = s.sec := Eq.refl s.sec
@[simp] theorem State.answer_oscLost (s : State) (r : Reply) : (s.answer r).oscLost = s.oscLost := Eq.refl s.oscLost

/-! #### State.setLink changes the field links alone -/

@[simp] theorem State.setLink_pending (s : State) (m : Nat) (l : LinkSt) : (s.setLink m l).pending = s.pending := Eq.refl s.pending
@[simp] theorem State.setLink_regs (s : State) (m : Nat) (l : LinkSt) : (s.setLink m l).regs = s.regs := Eq.refl s.regs
@[simp] theorem State.setLink_cnts (s : State) (m : Nat) (l : LinkSt) : (s.setLink m l).cnts = s.cnts := Eq.refl s.cnts
@[simp] theorem State.setLink_shadows (s : State) (m : Nat) (l : LinkSt) : (s.setLink m l).shadows = s.shadows := Eq.refl s.shadows
@[simp] theorem State.setLink_mem (s : State) (m : Nat) (l : LinkSt) : (s.setLink m l).mem = s.mem := Eq.refl s.mem
@[simp] theorem State.setLink_freeCtr (s : State) (m : Nat) (l : LinkSt) : (s.setLink m l).freeCtr = s.freeCtr := Eq.refl s.freeCtr
@[simp] theorem State.setLink_out (s : State) (m : Nat) (l : LinkSt) : (s.setLink m l).out = s.out := Eq.refl s.out
@[simp] theorem State.setLink_reply (s : State) (m : Nat) (l : LinkSt) : (s.setLink m l).reply = s.reply := Eq.refl s.reply
@[simp] theorem State.setLink_now (s : State) (m : Nat) (l : LinkSt) : (s.setLink m l).now = s.now := Eq.refl s.now
@[simp] theorem State.setLink_timers (s : State) (m : Nat) (l : LinkSt) : (s.setLink m l).timers = s.timers := Eq.refl s.timers
@[simp] theorem State.setLink_arrivals (s : State) (m : Nat) (l : LinkSt) : (s.setLink m l).arrivals = s.arrivals := Eq.refl s.arrivals
@[simp] theorem State.setLink_image (s : State) (m : Nat) (l : LinkSt) : (s.setLink m l).image = s.image := Eq.refl s.image
@[simp] theorem State.setLink_cross (s : State) (m : Nat) (l : LinkSt) : (s.setLink m l).cross = s.cross := Eq.refl s.cross
@[simp] theorem State.setLink_regJob (s : State) (m : Nat) (l : LinkSt) : (s.setLink m l).regJob = s.regJob := Eq.refl s.regJob
@[simp] theorem State.setLink_raw (s : State) (m : Nat) (l : LinkSt) : (s.setLink m l).raw = s.raw := Eq.refl s.raw
@[simp] theorem State.setLink_tags (s : State) (m : Nat) (l : LinkSt) : (s.setLink m l).tags = s.tags := Eq.refl s.tags
@[simp] theorem State.setLink_cmdSeq (s : State) (m : Nat) (l : LinkSt) : (s.setLink m l).cmdSeq = s.cmdSeq := Eq.refl s.cmdSeq
@[simp] theorem State.setLink_jobs (s : State) (m : Nat) (l : LinkSt) : (s.setLink m l).jobs = s.jobs := Eq.refl s.jobs
@[simp] theorem State.setLink_gov (s : State) (m : Nat) (l : LinkSt) : (s.setLink m l).gov = s.gov := Eq.refl s.gov
@[simp] theorem State.setLink_modes (s : State) (m : Nat) (l : LinkSt) : (s.setLink m l).modes = s.modes := Eq.refl s.modes
@[simp] theorem State.setLink_fns (s : State) (m : Nat) (l : LinkSt) : (s.setLink m l).fns = s.fns := Eq.refl s.fns
@[simp] theorem State.setLink_flt (s : State) (m : Nat) (l : LinkSt) : (s.setLink m l).flt = s.flt := Eq.refl s.flt
@[simp] theorem State.setLink_eth (s : State) (m : Nat) (l : LinkSt) : (s.setLink m l).eth = s.eth := Eq.refl s.eth
@[simp] theorem State.setLink_staging (s : State) (m : Nat) (l : LinkSt) : (s.setLink m l).staging = s.staging := Eq.refl s.staging
@[simp] theorem State.setLink_qps (s : State) (m : Nat) (l : LinkSt) : (s.setLink m l).qps = s.qps := Eq.refl s.qps
@[simp] theorem State.setLink_micro (s : State) (m : Nat) (l : LinkSt) : (s.setLink m l).micro = s.micro := Eq.refl s.micro
@[simp] theorem State.setLink_mc (s : State) (m : Nat) (l : LinkSt) : (s.setLink m l).mc = s.mc := Eq.refl s.mc
@[simp] theorem State.setLink_pipes (s : State) (m : Nat) (l : LinkSt) : (s.setLink m l).pipes = s.pipes := Eq.refl s.pipes
@[simp] theorem State.setLink_cpairs (s : State) (m : Nat) (l : LinkSt) : (s.setLink m l).cpairs = s.cpairs := Eq.refl s.cpairs
@[simp] theorem State.setLink_upsets (s : State) (m : Nat) (l : LinkSt) : (s.setLink m l).upsets = s.upsets := Eq.refl s.upsets
@[simp] theorem State.setLink_tbl (s : State) (m : Nat) (l : LinkSt) : (s.setLink m l).tbl = s.tbl := Eq.refl s.tbl
@[simp] theorem State.setLink_weir (s : State) (m : Nat) (l : LinkSt) : (s.setLink m l).weir = s.weir := Eq.refl s.weir
@[simp] theorem State.setLink_egr (s : State) (m : Nat) (l : LinkSt) : (s.setLink m l).egr = s.egr := Eq.refl s.egr
@[simp] theorem State.setLink_txCredit (s : State) (m : Nat) (l : LinkSt) : (s.setLink m l).txCredit = s.txCredit := Eq.refl s.txCredit
@[simp] theorem State.setLink_txArmed (s : State) (m : Nat) (l : LinkSt) : (s.setLink m l).txArmed = s.txArmed := Eq.refl s.txArmed
@[simp] theorem State.setLink_plots (s : State) (m : Nat) (l : LinkSt) : (s.setLink m l).plots = s.plots := Eq.refl s.plots
@[simp] theorem State.setLink_timeOff (s : State) (m : Nat) (l : LinkSt) : (s.setLink m l).timeOff = s.timeOff := Eq.refl s.timeOff
@[simp] theorem State.setLink_tim (s : State) (m : Nat) (l : LinkSt) : (s.setLink m l).tim = s.tim := Eq.refl s.tim
@[simp] theorem State.setLink_silo (s : State) (m : Nat) (l : LinkSt) : (s.setLink m l).silo = s.silo := Eq.refl s.silo
@[simp] theorem State.setLink_cist (s : State) (m : Nat) (l : LinkSt) : (s.setLink m l).cist = s.cist := Eq.refl s.cist
@[simp] theorem State.setLink_vault (s : State) (m : Nat) (l : LinkSt) : (s.setLink m l).vault = s.vault := Eq.refl s.vault
@[simp] theorem State.setLink_rsv (s : State) (m : Nat) (l : LinkSt) : (s.setLink m l).rsv = s.rsv := Eq.refl s.rsv
@[simp] theorem State.setLink_hop (s : State) (m : Nat) (l : LinkSt) : (s.setLink m l).hop = s.hop := Eq.refl s.hop
@[simp] theorem State.setLink_keks (s : State) (m : Nat) (l : LinkSt) : (s.setLink m l).keks = s.keks := Eq.refl s.keks
@[simp] theorem State.setLink_icr (s : State) (m : Nat) (l : LinkSt) : (s.setLink m l).icr = s.icr := Eq.refl s.icr
@[simp] theorem State.setLink_bmv (s : State) (m : Nat) (l : LinkSt) : (s.setLink m l).bmv = s.bmv := Eq.refl s.bmv
@[simp] theorem State.setLink_kcu (s : State) (m : Nat) (l : LinkSt) : (s.setLink m l).kcu = s.kcu := Eq.refl s.kcu
@[simp] theorem State.setLink_sec (s : State) (m : Nat) (l : LinkSt) : (s.setLink m l).sec = s.sec := Eq.refl s.sec
@[simp] theorem State.setLink_oscLost (s : State) (m : Nat) (l : LinkSt) : (s.setLink m l).oscLost = s.oscLost := Eq.refl s.oscLost

/-! #### State.setFn changes the field fns alone -/

@[simp] theorem State.setFn_pending (s : State) (m f : Nat) (x : Fn) : (s.setFn m f x).pending = s.pending := Eq.refl s.pending
@[simp] theorem State.setFn_regs (s : State) (m f : Nat) (x : Fn) : (s.setFn m f x).regs = s.regs := Eq.refl s.regs
@[simp] theorem State.setFn_cnts (s : State) (m f : Nat) (x : Fn) : (s.setFn m f x).cnts = s.cnts := Eq.refl s.cnts
@[simp] theorem State.setFn_shadows (s : State) (m f : Nat) (x : Fn) : (s.setFn m f x).shadows = s.shadows := Eq.refl s.shadows
@[simp] theorem State.setFn_mem (s : State) (m f : Nat) (x : Fn) : (s.setFn m f x).mem = s.mem := Eq.refl s.mem
@[simp] theorem State.setFn_freeCtr (s : State) (m f : Nat) (x : Fn) : (s.setFn m f x).freeCtr = s.freeCtr := Eq.refl s.freeCtr
@[simp] theorem State.setFn_out (s : State) (m f : Nat) (x : Fn) : (s.setFn m f x).out = s.out := Eq.refl s.out
@[simp] theorem State.setFn_reply (s : State) (m f : Nat) (x : Fn) : (s.setFn m f x).reply = s.reply := Eq.refl s.reply
@[simp] theorem State.setFn_now (s : State) (m f : Nat) (x : Fn) : (s.setFn m f x).now = s.now := Eq.refl s.now
@[simp] theorem State.setFn_timers (s : State) (m f : Nat) (x : Fn) : (s.setFn m f x).timers = s.timers := Eq.refl s.timers
@[simp] theorem State.setFn_arrivals (s : State) (m f : Nat) (x : Fn) : (s.setFn m f x).arrivals = s.arrivals := Eq.refl s.arrivals
@[simp] theorem State.setFn_image (s : State) (m f : Nat) (x : Fn) : (s.setFn m f x).image = s.image := Eq.refl s.image
@[simp] theorem State.setFn_cross (s : State) (m f : Nat) (x : Fn) : (s.setFn m f x).cross = s.cross := Eq.refl s.cross
@[simp] theorem State.setFn_regJob (s : State) (m f : Nat) (x : Fn) : (s.setFn m f x).regJob = s.regJob := Eq.refl s.regJob
@[simp] theorem State.setFn_raw (s : State) (m f : Nat) (x : Fn) : (s.setFn m f x).raw = s.raw := Eq.refl s.raw
@[simp] theorem State.setFn_tags (s : State) (m f : Nat) (x : Fn) : (s.setFn m f x).tags = s.tags := Eq.refl s.tags
@[simp] theorem State.setFn_cmdSeq (s : State) (m f : Nat) (x : Fn) : (s.setFn m f x).cmdSeq = s.cmdSeq := Eq.refl s.cmdSeq
@[simp] theorem State.setFn_jobs (s : State) (m f : Nat) (x : Fn) : (s.setFn m f x).jobs = s.jobs := Eq.refl s.jobs
@[simp] theorem State.setFn_gov (s : State) (m f : Nat) (x : Fn) : (s.setFn m f x).gov = s.gov := Eq.refl s.gov
@[simp] theorem State.setFn_modes (s : State) (m f : Nat) (x : Fn) : (s.setFn m f x).modes = s.modes := Eq.refl s.modes
@[simp] theorem State.setFn_links (s : State) (m f : Nat) (x : Fn) : (s.setFn m f x).links = s.links := Eq.refl s.links
@[simp] theorem State.setFn_flt (s : State) (m f : Nat) (x : Fn) : (s.setFn m f x).flt = s.flt := Eq.refl s.flt
@[simp] theorem State.setFn_eth (s : State) (m f : Nat) (x : Fn) : (s.setFn m f x).eth = s.eth := Eq.refl s.eth
@[simp] theorem State.setFn_staging (s : State) (m f : Nat) (x : Fn) : (s.setFn m f x).staging = s.staging := Eq.refl s.staging
@[simp] theorem State.setFn_qps (s : State) (m f : Nat) (x : Fn) : (s.setFn m f x).qps = s.qps := Eq.refl s.qps
@[simp] theorem State.setFn_micro (s : State) (m f : Nat) (x : Fn) : (s.setFn m f x).micro = s.micro := Eq.refl s.micro
@[simp] theorem State.setFn_mc (s : State) (m f : Nat) (x : Fn) : (s.setFn m f x).mc = s.mc := Eq.refl s.mc
@[simp] theorem State.setFn_pipes (s : State) (m f : Nat) (x : Fn) : (s.setFn m f x).pipes = s.pipes := Eq.refl s.pipes
@[simp] theorem State.setFn_cpairs (s : State) (m f : Nat) (x : Fn) : (s.setFn m f x).cpairs = s.cpairs := Eq.refl s.cpairs
@[simp] theorem State.setFn_upsets (s : State) (m f : Nat) (x : Fn) : (s.setFn m f x).upsets = s.upsets := Eq.refl s.upsets
@[simp] theorem State.setFn_tbl (s : State) (m f : Nat) (x : Fn) : (s.setFn m f x).tbl = s.tbl := Eq.refl s.tbl
@[simp] theorem State.setFn_weir (s : State) (m f : Nat) (x : Fn) : (s.setFn m f x).weir = s.weir := Eq.refl s.weir
@[simp] theorem State.setFn_egr (s : State) (m f : Nat) (x : Fn) : (s.setFn m f x).egr = s.egr := Eq.refl s.egr
@[simp] theorem State.setFn_txCredit (s : State) (m f : Nat) (x : Fn) : (s.setFn m f x).txCredit = s.txCredit := Eq.refl s.txCredit
@[simp] theorem State.setFn_txArmed (s : State) (m f : Nat) (x : Fn) : (s.setFn m f x).txArmed = s.txArmed := Eq.refl s.txArmed
@[simp] theorem State.setFn_plots (s : State) (m f : Nat) (x : Fn) : (s.setFn m f x).plots = s.plots := Eq.refl s.plots
@[simp] theorem State.setFn_timeOff (s : State) (m f : Nat) (x : Fn) : (s.setFn m f x).timeOff = s.timeOff := Eq.refl s.timeOff
@[simp] theorem State.setFn_tim (s : State) (m f : Nat) (x : Fn) : (s.setFn m f x).tim = s.tim := Eq.refl s.tim
@[simp] theorem State.setFn_silo (s : State) (m f : Nat) (x : Fn) : (s.setFn m f x).silo = s.silo := Eq.refl s.silo
@[simp] theorem State.setFn_cist (s : State) (m f : Nat) (x : Fn) : (s.setFn m f x).cist = s.cist := Eq.refl s.cist
@[simp] theorem State.setFn_vault (s : State) (m f : Nat) (x : Fn) : (s.setFn m f x).vault = s.vault := Eq.refl s.vault
@[simp] theorem State.setFn_rsv (s : State) (m f : Nat) (x : Fn) : (s.setFn m f x).rsv = s.rsv := Eq.refl s.rsv
@[simp] theorem State.setFn_hop (s : State) (m f : Nat) (x : Fn) : (s.setFn m f x).hop = s.hop := Eq.refl s.hop
@[simp] theorem State.setFn_keks (s : State) (m f : Nat) (x : Fn) : (s.setFn m f x).keks = s.keks := Eq.refl s.keks
@[simp] theorem State.setFn_icr (s : State) (m f : Nat) (x : Fn) : (s.setFn m f x).icr = s.icr := Eq.refl s.icr
@[simp] theorem State.setFn_bmv (s : State) (m f : Nat) (x : Fn) : (s.setFn m f x).bmv = s.bmv := Eq.refl s.bmv
@[simp] theorem State.setFn_kcu (s : State) (m f : Nat) (x : Fn) : (s.setFn m f x).kcu = s.kcu := Eq.refl s.kcu
@[simp] theorem State.setFn_sec (s : State) (m f : Nat) (x : Fn) : (s.setFn m f x).sec = s.sec := Eq.refl s.sec
@[simp] theorem State.setFn_oscLost (s : State) (m f : Nat) (x : Fn) : (s.setFn m f x).oscLost = s.oscLost := Eq.refl s.oscLost

/-! #### State.setTag changes the field tags alone -/

@[simp] theorem State.setTag_pending (s : State) (q : Req) (x : TagSt) : (s.setTag q x).pending = s.pending := Eq.refl s.pending
@[simp] theorem State.setTag_regs (s : State) (q : Req) (x : TagSt) : (s.setTag q x).regs = s.regs := Eq.refl s.regs
@[simp] theorem State.setTag_cnts (s : State) (q : Req) (x : TagSt) : (s.setTag q x).cnts = s.cnts := Eq.refl s.cnts
@[simp] theorem State.setTag_shadows (s : State) (q : Req) (x : TagSt) : (s.setTag q x).shadows = s.shadows := Eq.refl s.shadows
@[simp] theorem State.setTag_mem (s : State) (q : Req) (x : TagSt) : (s.setTag q x).mem = s.mem := Eq.refl s.mem
@[simp] theorem State.setTag_freeCtr (s : State) (q : Req) (x : TagSt) : (s.setTag q x).freeCtr = s.freeCtr := Eq.refl s.freeCtr
@[simp] theorem State.setTag_out (s : State) (q : Req) (x : TagSt) : (s.setTag q x).out = s.out := Eq.refl s.out
@[simp] theorem State.setTag_reply (s : State) (q : Req) (x : TagSt) : (s.setTag q x).reply = s.reply := Eq.refl s.reply
@[simp] theorem State.setTag_now (s : State) (q : Req) (x : TagSt) : (s.setTag q x).now = s.now := Eq.refl s.now
@[simp] theorem State.setTag_timers (s : State) (q : Req) (x : TagSt) : (s.setTag q x).timers = s.timers := Eq.refl s.timers
@[simp] theorem State.setTag_arrivals (s : State) (q : Req) (x : TagSt) : (s.setTag q x).arrivals = s.arrivals := Eq.refl s.arrivals
@[simp] theorem State.setTag_image (s : State) (q : Req) (x : TagSt) : (s.setTag q x).image = s.image := Eq.refl s.image
@[simp] theorem State.setTag_cross (s : State) (q : Req) (x : TagSt) : (s.setTag q x).cross = s.cross := Eq.refl s.cross
@[simp] theorem State.setTag_regJob (s : State) (q : Req) (x : TagSt) : (s.setTag q x).regJob = s.regJob := Eq.refl s.regJob
@[simp] theorem State.setTag_raw (s : State) (q : Req) (x : TagSt) : (s.setTag q x).raw = s.raw := Eq.refl s.raw
@[simp] theorem State.setTag_cmdSeq (s : State) (q : Req) (x : TagSt) : (s.setTag q x).cmdSeq = s.cmdSeq := Eq.refl s.cmdSeq
@[simp] theorem State.setTag_jobs (s : State) (q : Req) (x : TagSt) : (s.setTag q x).jobs = s.jobs := Eq.refl s.jobs
@[simp] theorem State.setTag_gov (s : State) (q : Req) (x : TagSt) : (s.setTag q x).gov = s.gov := Eq.refl s.gov
@[simp] theorem State.setTag_modes (s : State) (q : Req) (x : TagSt) : (s.setTag q x).modes = s.modes := Eq.refl s.modes
@[simp] theorem State.setTag_fns (s : State) (q : Req) (x : TagSt) : (s.setTag q x).fns = s.fns := Eq.refl s.fns
@[simp] theorem State.setTag_links (s : State) (q : Req) (x : TagSt) : (s.setTag q x).links = s.links := Eq.refl s.links
@[simp] theorem State.setTag_flt (s : State) (q : Req) (x : TagSt) : (s.setTag q x).flt = s.flt := Eq.refl s.flt
@[simp] theorem State.setTag_eth (s : State) (q : Req) (x : TagSt) : (s.setTag q x).eth = s.eth := Eq.refl s.eth
@[simp] theorem State.setTag_staging (s : State) (q : Req) (x : TagSt) : (s.setTag q x).staging = s.staging := Eq.refl s.staging
@[simp] theorem State.setTag_qps (s : State) (q : Req) (x : TagSt) : (s.setTag q x).qps = s.qps := Eq.refl s.qps
@[simp] theorem State.setTag_micro (s : State) (q : Req) (x : TagSt) : (s.setTag q x).micro = s.micro := Eq.refl s.micro
@[simp] theorem State.setTag_mc (s : State) (q : Req) (x : TagSt) : (s.setTag q x).mc = s.mc := Eq.refl s.mc
@[simp] theorem State.setTag_pipes (s : State) (q : Req) (x : TagSt) : (s.setTag q x).pipes = s.pipes := Eq.refl s.pipes
@[simp] theorem State.setTag_cpairs (s : State) (q : Req) (x : TagSt) : (s.setTag q x).cpairs = s.cpairs := Eq.refl s.cpairs
@[simp] theorem State.setTag_upsets (s : State) (q : Req) (x : TagSt) : (s.setTag q x).upsets = s.upsets := Eq.refl s.upsets
@[simp] theorem State.setTag_tbl (s : State) (q : Req) (x : TagSt) : (s.setTag q x).tbl = s.tbl := Eq.refl s.tbl
@[simp] theorem State.setTag_weir (s : State) (q : Req) (x : TagSt) : (s.setTag q x).weir = s.weir := Eq.refl s.weir
@[simp] theorem State.setTag_egr (s : State) (q : Req) (x : TagSt) : (s.setTag q x).egr = s.egr := Eq.refl s.egr
@[simp] theorem State.setTag_txCredit (s : State) (q : Req) (x : TagSt) : (s.setTag q x).txCredit = s.txCredit := Eq.refl s.txCredit
@[simp] theorem State.setTag_txArmed (s : State) (q : Req) (x : TagSt) : (s.setTag q x).txArmed = s.txArmed := Eq.refl s.txArmed
@[simp] theorem State.setTag_plots (s : State) (q : Req) (x : TagSt) : (s.setTag q x).plots = s.plots := Eq.refl s.plots
@[simp] theorem State.setTag_timeOff (s : State) (q : Req) (x : TagSt) : (s.setTag q x).timeOff = s.timeOff := Eq.refl s.timeOff
@[simp] theorem State.setTag_tim (s : State) (q : Req) (x : TagSt) : (s.setTag q x).tim = s.tim := Eq.refl s.tim
@[simp] theorem State.setTag_silo (s : State) (q : Req) (x : TagSt) : (s.setTag q x).silo = s.silo := Eq.refl s.silo
@[simp] theorem State.setTag_cist (s : State) (q : Req) (x : TagSt) : (s.setTag q x).cist = s.cist := Eq.refl s.cist
@[simp] theorem State.setTag_vault (s : State) (q : Req) (x : TagSt) : (s.setTag q x).vault = s.vault := Eq.refl s.vault
@[simp] theorem State.setTag_rsv (s : State) (q : Req) (x : TagSt) : (s.setTag q x).rsv = s.rsv := Eq.refl s.rsv
@[simp] theorem State.setTag_hop (s : State) (q : Req) (x : TagSt) : (s.setTag q x).hop = s.hop := Eq.refl s.hop
@[simp] theorem State.setTag_keks (s : State) (q : Req) (x : TagSt) : (s.setTag q x).keks = s.keks := Eq.refl s.keks
@[simp] theorem State.setTag_icr (s : State) (q : Req) (x : TagSt) : (s.setTag q x).icr = s.icr := Eq.refl s.icr
@[simp] theorem State.setTag_bmv (s : State) (q : Req) (x : TagSt) : (s.setTag q x).bmv = s.bmv := Eq.refl s.bmv
@[simp] theorem State.setTag_kcu (s : State) (q : Req) (x : TagSt) : (s.setTag q x).kcu = s.kcu := Eq.refl s.kcu
@[simp] theorem State.setTag_sec (s : State) (q : Req) (x : TagSt) : (s.setTag q x).sec = s.sec := Eq.refl s.sec
@[simp] theorem State.setTag_oscLost (s : State) (q : Req) (x : TagSt) : (s.setTag q x).oscLost = s.oscLost := Eq.refl s.oscLost

/-! #### State.stamp changes the field timers alone -/

@[simp] theorem State.stamp_pending (s : State) (k : Nat) : (s.stamp k).pending = s.pending := Eq.refl s.pending
@[simp] theorem State.stamp_regs (s : State) (k : Nat) : (s.stamp k).regs = s.regs := Eq.refl s.regs
@[simp] theorem State.stamp_cnts (s : State) (k : Nat) : (s.stamp k).cnts = s.cnts := Eq.refl s.cnts
@[simp] theorem State.stamp_shadows (s : State) (k : Nat) : (s.stamp k).shadows = s.shadows := Eq.refl s.shadows
@[simp] theorem State.stamp_mem (s : State) (k : Nat) : (s.stamp k).mem = s.mem := Eq.refl s.mem
@[simp] theorem State.stamp_freeCtr (s : State) (k : Nat) : (s.stamp k).freeCtr = s.freeCtr := Eq.refl s.freeCtr
@[simp] theorem State.stamp_out (s : State) (k : Nat) : (s.stamp k).out = s.out := Eq.refl s.out
@[simp] theorem State.stamp_reply (s : State) (k : Nat) : (s.stamp k).reply = s.reply := Eq.refl s.reply
@[simp] theorem State.stamp_now (s : State) (k : Nat) : (s.stamp k).now = s.now := Eq.refl s.now
@[simp] theorem State.stamp_arrivals (s : State) (k : Nat) : (s.stamp k).arrivals = s.arrivals := Eq.refl s.arrivals
@[simp] theorem State.stamp_image (s : State) (k : Nat) : (s.stamp k).image = s.image := Eq.refl s.image
@[simp] theorem State.stamp_cross (s : State) (k : Nat) : (s.stamp k).cross = s.cross := Eq.refl s.cross
@[simp] theorem State.stamp_regJob (s : State) (k : Nat) : (s.stamp k).regJob = s.regJob := Eq.refl s.regJob
@[simp] theorem State.stamp_raw (s : State) (k : Nat) : (s.stamp k).raw = s.raw := Eq.refl s.raw
@[simp] theorem State.stamp_tags (s : State) (k : Nat) : (s.stamp k).tags = s.tags := Eq.refl s.tags
@[simp] theorem State.stamp_cmdSeq (s : State) (k : Nat) : (s.stamp k).cmdSeq = s.cmdSeq := Eq.refl s.cmdSeq
@[simp] theorem State.stamp_jobs (s : State) (k : Nat) : (s.stamp k).jobs = s.jobs := Eq.refl s.jobs
@[simp] theorem State.stamp_gov (s : State) (k : Nat) : (s.stamp k).gov = s.gov := Eq.refl s.gov
@[simp] theorem State.stamp_modes (s : State) (k : Nat) : (s.stamp k).modes = s.modes := Eq.refl s.modes
@[simp] theorem State.stamp_fns (s : State) (k : Nat) : (s.stamp k).fns = s.fns := Eq.refl s.fns
@[simp] theorem State.stamp_links (s : State) (k : Nat) : (s.stamp k).links = s.links := Eq.refl s.links
@[simp] theorem State.stamp_flt (s : State) (k : Nat) : (s.stamp k).flt = s.flt := Eq.refl s.flt
@[simp] theorem State.stamp_eth (s : State) (k : Nat) : (s.stamp k).eth = s.eth := Eq.refl s.eth
@[simp] theorem State.stamp_staging (s : State) (k : Nat) : (s.stamp k).staging = s.staging := Eq.refl s.staging
@[simp] theorem State.stamp_qps (s : State) (k : Nat) : (s.stamp k).qps = s.qps := Eq.refl s.qps
@[simp] theorem State.stamp_micro (s : State) (k : Nat) : (s.stamp k).micro = s.micro := Eq.refl s.micro
@[simp] theorem State.stamp_mc (s : State) (k : Nat) : (s.stamp k).mc = s.mc := Eq.refl s.mc
@[simp] theorem State.stamp_pipes (s : State) (k : Nat) : (s.stamp k).pipes = s.pipes := Eq.refl s.pipes
@[simp] theorem State.stamp_cpairs (s : State) (k : Nat) : (s.stamp k).cpairs = s.cpairs := Eq.refl s.cpairs
@[simp] theorem State.stamp_upsets (s : State) (k : Nat) : (s.stamp k).upsets = s.upsets := Eq.refl s.upsets
@[simp] theorem State.stamp_tbl (s : State) (k : Nat) : (s.stamp k).tbl = s.tbl := Eq.refl s.tbl
@[simp] theorem State.stamp_weir (s : State) (k : Nat) : (s.stamp k).weir = s.weir := Eq.refl s.weir
@[simp] theorem State.stamp_egr (s : State) (k : Nat) : (s.stamp k).egr = s.egr := Eq.refl s.egr
@[simp] theorem State.stamp_txCredit (s : State) (k : Nat) : (s.stamp k).txCredit = s.txCredit := Eq.refl s.txCredit
@[simp] theorem State.stamp_txArmed (s : State) (k : Nat) : (s.stamp k).txArmed = s.txArmed := Eq.refl s.txArmed
@[simp] theorem State.stamp_plots (s : State) (k : Nat) : (s.stamp k).plots = s.plots := Eq.refl s.plots
@[simp] theorem State.stamp_timeOff (s : State) (k : Nat) : (s.stamp k).timeOff = s.timeOff := Eq.refl s.timeOff
@[simp] theorem State.stamp_tim (s : State) (k : Nat) : (s.stamp k).tim = s.tim := Eq.refl s.tim
@[simp] theorem State.stamp_silo (s : State) (k : Nat) : (s.stamp k).silo = s.silo := Eq.refl s.silo
@[simp] theorem State.stamp_cist (s : State) (k : Nat) : (s.stamp k).cist = s.cist := Eq.refl s.cist
@[simp] theorem State.stamp_vault (s : State) (k : Nat) : (s.stamp k).vault = s.vault := Eq.refl s.vault
@[simp] theorem State.stamp_rsv (s : State) (k : Nat) : (s.stamp k).rsv = s.rsv := Eq.refl s.rsv
@[simp] theorem State.stamp_hop (s : State) (k : Nat) : (s.stamp k).hop = s.hop := Eq.refl s.hop
@[simp] theorem State.stamp_keks (s : State) (k : Nat) : (s.stamp k).keks = s.keks := Eq.refl s.keks
@[simp] theorem State.stamp_icr (s : State) (k : Nat) : (s.stamp k).icr = s.icr := Eq.refl s.icr
@[simp] theorem State.stamp_bmv (s : State) (k : Nat) : (s.stamp k).bmv = s.bmv := Eq.refl s.bmv
@[simp] theorem State.stamp_kcu (s : State) (k : Nat) : (s.stamp k).kcu = s.kcu := Eq.refl s.kcu
@[simp] theorem State.stamp_sec (s : State) (k : Nat) : (s.stamp k).sec = s.sec := Eq.refl s.sec
@[simp] theorem State.stamp_oscLost (s : State) (k : Nat) : (s.stamp k).oscLost = s.oscLost := Eq.refl s.oscLost

/-! #### State.addJob changes the field jobs alone -/

@[simp] theorem State.addJob_pending (s : State) (q : Req) (o b : Nat) : (s.addJob q o b).pending = s.pending := Eq.refl s.pending
@[simp] theorem State.addJob_regs (s : State) (q : Req) (o b : Nat) : (s.addJob q o b).regs = s.regs := Eq.refl s.regs
@[simp] theorem State.addJob_cnts (s : State) (q : Req) (o b : Nat) : (s.addJob q o b).cnts = s.cnts := Eq.refl s.cnts
@[simp] theorem State.addJob_shadows (s : State) (q : Req) (o b : Nat) : (s.addJob q o b).shadows = s.shadows := Eq.refl s.shadows
@[simp] theorem State.addJob_mem (s : State) (q : Req) (o b : Nat) : (s.addJob q o b).mem = s.mem := Eq.refl s.mem
@[simp] theorem State.addJob_freeCtr (s : State) (q : Req) (o b : Nat) : (s.addJob q o b).freeCtr = s.freeCtr := Eq.refl s.freeCtr
@[simp] theorem State.addJob_out (s : State) (q : Req) (o b : Nat) : (s.addJob q o b).out = s.out := Eq.refl s.out
@[simp] theorem State.addJob_reply (s : State) (q : Req) (o b : Nat) : (s.addJob q o b).reply = s.reply := Eq.refl s.reply
@[simp] theorem State.addJob_now (s : State) (q : Req) (o b : Nat) : (s.addJob q o b).now = s.now := Eq.refl s.now
@[simp] theorem State.addJob_timers (s : State) (q : Req) (o b : Nat) : (s.addJob q o b).timers = s.timers := Eq.refl s.timers
@[simp] theorem State.addJob_arrivals (s : State) (q : Req) (o b : Nat) : (s.addJob q o b).arrivals = s.arrivals := Eq.refl s.arrivals
@[simp] theorem State.addJob_image (s : State) (q : Req) (o b : Nat) : (s.addJob q o b).image = s.image := Eq.refl s.image
@[simp] theorem State.addJob_cross (s : State) (q : Req) (o b : Nat) : (s.addJob q o b).cross = s.cross := Eq.refl s.cross
@[simp] theorem State.addJob_regJob (s : State) (q : Req) (o b : Nat) : (s.addJob q o b).regJob = s.regJob := Eq.refl s.regJob
@[simp] theorem State.addJob_raw (s : State) (q : Req) (o b : Nat) : (s.addJob q o b).raw = s.raw := Eq.refl s.raw
@[simp] theorem State.addJob_tags (s : State) (q : Req) (o b : Nat) : (s.addJob q o b).tags = s.tags := Eq.refl s.tags
@[simp] theorem State.addJob_cmdSeq (s : State) (q : Req) (o b : Nat) : (s.addJob q o b).cmdSeq = s.cmdSeq := Eq.refl s.cmdSeq
@[simp] theorem State.addJob_gov (s : State) (q : Req) (o b : Nat) : (s.addJob q o b).gov = s.gov := Eq.refl s.gov
@[simp] theorem State.addJob_modes (s : State) (q : Req) (o b : Nat) : (s.addJob q o b).modes = s.modes := Eq.refl s.modes
@[simp] theorem State.addJob_fns (s : State) (q : Req) (o b : Nat) : (s.addJob q o b).fns = s.fns := Eq.refl s.fns
@[simp] theorem State.addJob_links (s : State) (q : Req) (o b : Nat) : (s.addJob q o b).links = s.links := Eq.refl s.links
@[simp] theorem State.addJob_flt (s : State) (q : Req) (o b : Nat) : (s.addJob q o b).flt = s.flt := Eq.refl s.flt
@[simp] theorem State.addJob_eth (s : State) (q : Req) (o b : Nat) : (s.addJob q o b).eth = s.eth := Eq.refl s.eth
@[simp] theorem State.addJob_staging (s : State) (q : Req) (o b : Nat) : (s.addJob q o b).staging = s.staging := Eq.refl s.staging
@[simp] theorem State.addJob_qps (s : State) (q : Req) (o b : Nat) : (s.addJob q o b).qps = s.qps := Eq.refl s.qps
@[simp] theorem State.addJob_micro (s : State) (q : Req) (o b : Nat) : (s.addJob q o b).micro = s.micro := Eq.refl s.micro
@[simp] theorem State.addJob_mc (s : State) (q : Req) (o b : Nat) : (s.addJob q o b).mc = s.mc := Eq.refl s.mc
@[simp] theorem State.addJob_pipes (s : State) (q : Req) (o b : Nat) : (s.addJob q o b).pipes = s.pipes := Eq.refl s.pipes
@[simp] theorem State.addJob_cpairs (s : State) (q : Req) (o b : Nat) : (s.addJob q o b).cpairs = s.cpairs := Eq.refl s.cpairs
@[simp] theorem State.addJob_upsets (s : State) (q : Req) (o b : Nat) : (s.addJob q o b).upsets = s.upsets := Eq.refl s.upsets
@[simp] theorem State.addJob_tbl (s : State) (q : Req) (o b : Nat) : (s.addJob q o b).tbl = s.tbl := Eq.refl s.tbl
@[simp] theorem State.addJob_weir (s : State) (q : Req) (o b : Nat) : (s.addJob q o b).weir = s.weir := Eq.refl s.weir
@[simp] theorem State.addJob_egr (s : State) (q : Req) (o b : Nat) : (s.addJob q o b).egr = s.egr := Eq.refl s.egr
@[simp] theorem State.addJob_txCredit (s : State) (q : Req) (o b : Nat) : (s.addJob q o b).txCredit = s.txCredit := Eq.refl s.txCredit
@[simp] theorem State.addJob_txArmed (s : State) (q : Req) (o b : Nat) : (s.addJob q o b).txArmed = s.txArmed := Eq.refl s.txArmed
@[simp] theorem State.addJob_plots (s : State) (q : Req) (o b : Nat) : (s.addJob q o b).plots = s.plots := Eq.refl s.plots
@[simp] theorem State.addJob_timeOff (s : State) (q : Req) (o b : Nat) : (s.addJob q o b).timeOff = s.timeOff := Eq.refl s.timeOff
@[simp] theorem State.addJob_tim (s : State) (q : Req) (o b : Nat) : (s.addJob q o b).tim = s.tim := Eq.refl s.tim
@[simp] theorem State.addJob_silo (s : State) (q : Req) (o b : Nat) : (s.addJob q o b).silo = s.silo := Eq.refl s.silo
@[simp] theorem State.addJob_cist (s : State) (q : Req) (o b : Nat) : (s.addJob q o b).cist = s.cist := Eq.refl s.cist
@[simp] theorem State.addJob_vault (s : State) (q : Req) (o b : Nat) : (s.addJob q o b).vault = s.vault := Eq.refl s.vault
@[simp] theorem State.addJob_rsv (s : State) (q : Req) (o b : Nat) : (s.addJob q o b).rsv = s.rsv := Eq.refl s.rsv
@[simp] theorem State.addJob_hop (s : State) (q : Req) (o b : Nat) : (s.addJob q o b).hop = s.hop := Eq.refl s.hop
@[simp] theorem State.addJob_keks (s : State) (q : Req) (o b : Nat) : (s.addJob q o b).keks = s.keks := Eq.refl s.keks
@[simp] theorem State.addJob_icr (s : State) (q : Req) (o b : Nat) : (s.addJob q o b).icr = s.icr := Eq.refl s.icr
@[simp] theorem State.addJob_bmv (s : State) (q : Req) (o b : Nat) : (s.addJob q o b).bmv = s.bmv := Eq.refl s.bmv
@[simp] theorem State.addJob_kcu (s : State) (q : Req) (o b : Nat) : (s.addJob q o b).kcu = s.kcu := Eq.refl s.kcu
@[simp] theorem State.addJob_sec (s : State) (q : Req) (o b : Nat) : (s.addJob q o b).sec = s.sec := Eq.refl s.sec
@[simp] theorem State.addJob_oscLost (s : State) (q : Req) (o b : Nat) : (s.addJob q o b).oscLost = s.oscLost := Eq.refl s.oscLost

/-! ### What is read back -/

section read
variable (s : State) (a b : Nat) (v : Word)

theorem State.reg_setReg : (s.setReg a v).reg b = if b = a then v else s.reg b := tget_tput _ _ _ _ _

@[simp] theorem State.reg_setReg_same : (s.setReg a v).reg a = v := by simp [State.reg_setReg]

theorem State.reg_setReg_ne (h : b ≠ a) : (s.setReg a v).reg b = s.reg b := by simp [State.reg_setReg, h]

theorem State.reg_wrW (n : Nat) : (s.wrW a n).reg b = if b = a then BitVec.ofNat 32 n else s.reg b := s.reg_setReg a b _

theorem State.reg_wr (f : RegField) (n : Nat) (h : b ≠ a + f.off) : (s.wr a f n).reg b = s.reg b :=
  s.reg_setReg_ne _ _ _ h

theorem State.reg_wrB (f : RegField) (x : Bool) (h : b ≠ a + f.off) : (s.wrB a f x).reg b = s.reg b :=
  s.reg_wr _ _ f _ h

theorem State.reg_resetRegs (p : Nat → Bool) : (s.resetRegs p).reg b = if p b then regReset b else s.reg b :=
  tget_tdrop _ _ _ _

theorem State.cnt_setCnt (n : Nat) : (s.setCnt a n).cnt b = if b = a then n else s.cnt b := tget_tput _ _ _ _ _

end read

/-- A field reads as it was set: its low bits, as many as the field has. -/
theorem State.rd_wr_same (s : State) (b : Nat) (f : RegField) (n : Nat) (h : f.hi < 32) (hl : f.lo ≤ f.hi) :
    (s.wr b f n).rd b f = n % 2 ^ (f.hi + 1 - f.lo) := by
  unfold State.rd State.wr
  rw [State.reg_setReg_same, BitVec.toNat_ofNat, Nat.mod_eq_of_lt, bitsOf_setBits_same]
  exact setBits_lt _ _ _ _ _ (s.reg (b + f.off)).isLt h (by omega)

/-- A field of another register, or one that does not meet the field that was set, reads as before. -/
theorem State.rd_wr_ne (s : State) (b c : Nat) (f g : RegField) (n : Nat) (h : f.hi < 32) (hl : f.lo ≤ f.hi)
    (hd : c + g.off ≠ b + f.off ∨ g.hi < f.lo ∨ f.hi < g.lo) : (s.wr b f n).rd c g = s.rd c g := by
  unfold State.rd State.wr
  rw [State.reg_setReg]
  split
  · rename_i e
    rw [BitVec.toNat_ofNat, Nat.mod_eq_of_lt (setBits_lt _ _ _ _ _ (s.reg (b + f.off)).isLt h (by omega)),
      bitsOf_setBits_ne _ _ _ _ _ _ (by rcases hd with h1 | h1; exact absurd e h1; exact h1) (by omega), e]
  · rfl

theorem State.rd_setReg_ne (s : State) (a c : Nat) (v : Word) (g : RegField) (h : c + g.off ≠ a) :
    (s.setReg a v).rd c g = s.rd c g := by
  unfold State.rd; rw [State.reg_setReg_ne _ _ _ _ h]

theorem State.flag_wrB_same (s : State) (b : Nat) (f : RegField) (x : Bool) (h : f.hi < 32) (hl : f.lo = f.hi) :
    (s.wrB b f x).flag b f = x := by
  unfold State.flag State.wrB
  rw [State.rd_wr_same _ _ _ _ h (by omega), hl]
  cases x <;> simp [bit]

theorem State.flag_wrB_ne (s : State) (b c : Nat) (f g : RegField) (x : Bool) (h : f.hi < 32) (hl : f.lo ≤ f.hi)
    (hd : c + g.off ≠ b + f.off ∨ g.hi < f.lo ∨ f.hi < g.lo) : (s.wrB b f x).flag c g = s.flag c g := by
  unfold State.flag State.wrB; rw [State.rd_wr_ne _ _ _ _ _ _ h hl hd]

theorem State.flag_wr_ne (s : State) (b c : Nat) (f g : RegField) (n : Nat) (h : f.hi < 32) (hl : f.lo ≤ f.hi)
    (hd : c + g.off ≠ b + f.off ∨ g.hi < f.lo ∨ f.hi < g.lo) : (s.wr b f n).flag c g = s.flag c g := by
  unfold State.flag; rw [State.rd_wr_ne _ _ _ _ _ _ h hl hd]

theorem tagKey_inj {q r : Req} (h : tagKey q = tagKey r) : q = r := by
  cases q <;> cases r <;> simp only [tagKey] at h
  · rename_i m t m' t'
    have := t.isLt; have := t'.isLt
    rw [Fin.ext (show m.val = m'.val by omega), Fin.ext (show t.val = t'.val by omega)]
  · rename_i m t n; have := m.isLt; have := t.isLt; omega
  · rename_i n m t; have := m.isLt; have := t.isLt; omega
  · rename_i n n'; rw [Fin.ext (show n.val = n'.val by omega)]

theorem State.tag_setTag (s : State) (q r : Req) (x : TagSt) : (s.setTag q x).tag r = if r = q then x else s.tag r := by
  unfold State.tag State.setTag
  rw [tget_tput]
  by_cases h : r = q
  · simp [h]
  · have : tagKey r ≠ tagKey q := fun e => h (tagKey_inj e)
    simp [h, this]

@[simp] theorem State.tag_setTag_same (s : State) (q : Req) (x : TagSt) : (s.setTag q x).tag q = x := by
  simp [State.tag_setTag]

/-! ### Counters, events, messages to hosts: what each can change -/

/-- A count changes the counters, and the record of level events. -/
theorem State.countN_eq (s : State) (a n : Nat) : ∃ c, s.countN a n = { s with cnts := c } := by
  unfold State.countN; split
  · exact ⟨_, rfl⟩
  · exact ⟨_, rfl⟩

/-- A step of a fold that changes some fields only, over a whole list. -/
theorem foldl_keeps {β : Type} (P : State → State → Prop) (hr : ∀ s, P s s) (ht : ∀ a b c, P a b → P b c → P a c)
    (f : State → β → State) (h : ∀ s x, P s (f s x)) (l : List β) (s : State) : P s (l.foldl f s) := by
  induction l generalizing s with
  | nil => exact hr s
  | cons x xs ih => exact ht _ _ _ (h s x) (ih _)

/-- An event changes the counters, and the record of level events. -/
theorem State.event_eq (s : State) (p : Option Nat) (code : Nat) :
    ∃ c f, s.event p code = { s with cnts := c, flt := f } := by
  unfold State.event; split
  · exact ⟨_, _, rfl⟩
  · refine foldl_keeps (fun a b => ∃ c f, b = { a with cnts := c, flt := f }) (fun s => ⟨_, _, rfl⟩) ?_ _ ?_ _ _
    · rintro a b c ⟨c1, f1, rfl⟩ ⟨c2, f2, rfl⟩; exact ⟨_, _, rfl⟩
    · intro s x
      dsimp only
      split
      · split
        · exact ⟨_, _, rfl⟩
        · obtain ⟨c, h⟩ := s.countN_eq (pmcCnt p x) 1; exact ⟨c, s.flt, by rw [h]⟩
      · exact ⟨_, _, rfl⟩

/-- A counted event changes the counters, and the record of level events. -/
theorem State.count_eq (s : State) (a : Nat) : ∃ c f, s.count a = { s with cnts := c, flt := f } := by
  unfold State.count
  obtain ⟨c, h⟩ := s.countN_eq a 1
  dsimp only
  rw [h]; split
  · exact ⟨_, _, rfl⟩
  · rename_i p code _
    obtain ⟨c, f, h⟩ := State.event_eq { s with cnts := c } p code
    exact ⟨c, f, by rw [h]⟩

theorem State.wr_eq (s : State) (b : Nat) (f : RegField) (n : Nat) : ∃ r, s.wr b f n = { s with regs := r } := ⟨_, rfl⟩

/-- A TLP on a link changes the link and HPT_LINK. -/
theorem State.wake_eq (s : State) (m : Nat) : ∃ r l, s.wake m = { s with regs := r, links := l } := by
  unfold State.wake; dsimp only; split
  · obtain ⟨x, e⟩ := s.wr_eq (B.HPT m) R.HPT_LINK_PM
      (bit (decide (s.rd (B.HPT m) R.HPT_LINK_TX_WIDTH < s.rd (B.HPT m) R.HPT_LINK_WIDTH)))
    rw [e]; exact ⟨_, _, rfl⟩
  · exact ⟨_, _, rfl⟩

/-- A message to a host is sent, held or discarded: it changes what was sent, the function, the link and HPT_LINK. -/
theorem State.post_eq (s : State) (m f : Nat) (o : Out) :
    ∃ r x l y, s.post m f o = { s with regs := r, out := x, links := l, fns := y } := by
  unfold State.post; dsimp only; split
  · exact ⟨_, _, _, _, rfl⟩
  · split
    · obtain ⟨r, l, h⟩ := (s.emit o).wake_eq m; exact ⟨r, (s.emit o).out, l, s.fns, by rw [h]; rfl⟩
    · exact ⟨_, _, _, _, rfl⟩

theorem State.postWrite_eq (s : State) (m f a : Nat) (d : List Byte) :
    ∃ r x l y, s.postWrite m f a d = { s with regs := r, out := x, links := l, fns := y } := by
  unfold State.postWrite
  refine foldl_keeps (fun a b => ∃ r x l y, b = { a with regs := r, out := x, links := l, fns := y })
    (fun s => ⟨_, _, _, _, rfl⟩) ?_ _ ?_ _ _
  · rintro a b c ⟨r1, x1, l1, y1, rfl⟩ ⟨r2, x2, l2, y2, rfl⟩; exact ⟨_, _, _, _, rfl⟩
  · intro s x; exact s.post_eq _ _ _

/-- An interrupt is a message, or a bit of the pending array. -/
theorem State.interrupt_eq (s : State) (m f v : Nat) :
    ∃ r x l y b, s.interrupt m f v = { s with regs := r, out := x, links := l, fns := y, mem := b } := by
  unfold State.interrupt; dsimp only; split
  · exact ⟨_, _, _, _, _, rfl⟩
  · split
    · exact ⟨_, _, _, _, _, rfl⟩
    · obtain ⟨r, x, l, y, h⟩ := s.post_eq m f (.msix m f v); exact ⟨r, x, l, y, s.mem, by rw [h]⟩

theorem State.setInflight_eq (s : State) (q : Req) (b : Bool) : ∃ r, s.setInflight q b = { s with regs := r } := by
  cases q <;> exact ⟨_, rfl⟩

/-- A result changes what was sent, function 0, the link, HPT_LINK and, of a core, its slot. -/
theorem State.writeResult_eq (s : State) (q : Req) (p g : Nat) (i : Bool) (f : Final) :
    ∃ r x l y b, s.writeResult q p g i f = { s with regs := r, out := x, links := l, fns := y, mem := b } := by
  cases q with
  | host m t =>
    simp only [State.writeResult]
    obtain ⟨r1, x1, l1, y1, h1⟩ := s.postWrite_eq m 0 (s.pair (B.LKP m + 0x10) / 4096 * 4096 + t * 0x100 + 16) (fit 240 f.data)
    rw [h1]
    generalize h2 : State.postWrite _ _ _ _ _ = s2
    obtain ⟨r2, x2, l2, y2, e2⟩ := State.postWrite_eq { s with regs := r1, out := x1, links := l1, fns := y1 } m 0
      (s.pair (B.LKP m + 0x10) / 4096 * 4096 + t * 0x100 + 4)
      (leBytes 4 (g * 2 ^ 16 + f.data.length) ++ leBytes 4 f.orig ++ leBytes 4 f.retry)
    rw [e2] at h2
    obtain ⟨r3, x3, l3, y3, e3⟩ := State.postWrite_eq
      { s with regs := r2, out := x2, links := l2, fns := y2 } m 0 (s.pair (B.LKP m + 0x10) / 4096 * 4096 + t * 0x100)
      (leBytes 4 (resultWord0 f.status (reqTag (.host m t)) p 100))
    have h3 : s2 = { s with regs := r3, out := x3, links := l3, fns := y3 } := by rw [← h2, ← e3]
    subst h3
    split
    · obtain ⟨r, x, l, y, b, h⟩ := State.interrupt_eq { s with regs := r3, out := x3, links := l3, fns := y3 } m 0
        (State.rd { s with regs := r3, out := x3, links := l3, fns := y3 } (B.LKP m) R.LKP_HMB_CTRL_VEC)
      exact ⟨r, x, l, y, b, by rw [h]⟩
    · exact ⟨_, _, _, _, _, rfl⟩
  | core n =>
    simp only [State.writeResult]; split
    · exact ⟨_, _, _, _, _, rfl⟩
    · exact ⟨_, _, _, _, _, rfl⟩

/-- The end of a command, on a tag that holds one: the tag keeps the result, and nothing else of it changes but what
writing the result changes. -/
theorem State.finishWith_eq (s : State) (q : Req) (f : Final) (c : Cmd) (h : (s.tag q).cur = some c) :
    ∃ r x l y b, s.finishWith q f = { s.setTag q { s.tag q with cur := none, fin := some f } with
      regs := r, out := x, links := l, fns := y, mem := b } := by
  unfold State.finishWith
  rw [h]; dsimp only
  obtain ⟨r1, e1⟩ := (s.setTag q { s.tag q with cur := none, fin := some f }).setInflight_eq q false
  rw [e1]
  obtain ⟨r, x, l, y, b, e⟩ := State.writeResult_eq
    { s.setTag q { s.tag q with cur := none, fin := some f } with regs := r1 } q c.phase c.mgen c.irq f
  exact ⟨r, x, l, y, b, by rw [e]⟩

theorem State.finishWith_tag (s : State) (q : Req) (f : Final) (c : Cmd) (h : (s.tag q).cur = some c) :
    (s.finishWith q f).tag q = { s.tag q with cur := none, fin := some f } := by
  obtain ⟨r, x, l, y, b, e⟩ := s.finishWith_eq q f c h
  rw [e]; exact State.tag_setTag_same s q _

/-- A command that a tag holds and no job carries on is what the meaning of its row acts on. -/
theorem State.command_eq (s : State) (q : Req) (o : Nat) (k : Cmd → State → State) (c : Cmd)
    (h : (s.tag q).cur = some c) (ho : c.opcode = o) (hj : (s.jobs.any fun j => j.q = q && j.mgen = c.mgen) = false)
    (ht : s.inTurn q c = true) : s.command q o k = k c s := by
  simp [State.command, h, ho, hj, ht]

end Sys2Proof.Machine
end

