-- ==== Sys2Proof/Laws/Kept.lean ====
section
/-! SUPPORT. What no shared operation does: touch the queue of commands, or break the canonical form. -/
namespace Sys2Proof.Machine

/-- A queue, a register file, counters and a memory: the queue is that of `a`, and the rest has the canonical form if `a`
has it. -/
structure KeptAt (a : State) (p : List Instr) (r : Table Word) (c : Table Nat) (m : List Host.Cell) : Prop where
  queue : p = a.pending
  form : a.canonical = true → twf regReset r = true ∧ twf (fun _ => 0) c = true ∧ memWf m = true

/-- `s` has the queue of `a`, and the canonical form if `a` has it. -/
structure Kept (a s : State) : Prop where
  at_ : KeptAt a s.pending s.regs s.cnts s.mem

theorem canonical_iff (s : State) : s.canonical = true ↔
    twf regReset s.regs = true ∧ twf (fun _ => 0) s.cnts = true ∧ memWf s.mem = true := by
  simp only [State.canonical, Memory.wf, Bool.and_eq_true, and_assoc]

theorem Kept.refl (s : State) : Kept s s := ⟨⟨rfl, (canonical_iff s).mp⟩⟩

theorem Kept.trans {a b c : State} (h : Kept a b) (k : Kept b c) : Kept a c :=
  ⟨⟨k.at_.queue.trans h.at_.queue, fun x => k.at_.form ((canonical_iff b).mpr (h.at_.form x))⟩⟩

theorem Kept.canonical {a s : State} (h : Kept a s) (k : a.canonical = true) : s.canonical = true :=
  (canonical_iff s).mpr (h.at_.form k)

section
variable {a : State} {p : List Instr} {r : Table Word} {c : Table Nat} {m : List Host.Cell}
theorem KeptAt.putReg (k : Nat) (v : Word) (h : KeptAt a p r c m) : KeptAt a p (tput regReset r k v) c m :=
  ⟨h.queue, fun x => ⟨twf_tput _ _ _ _ (h.form x).1, (h.form x).2⟩⟩
theorem KeptAt.dropReg (f : Nat → Bool) (h : KeptAt a p r c m) : KeptAt a p (tdrop f r) c m :=
  ⟨h.queue, fun x => ⟨twf_tdrop _ _ _ (h.form x).1, (h.form x).2⟩⟩
theorem KeptAt.putCnt (k v : Nat) (h : KeptAt a p r c m) : KeptAt a p r (tput (fun _ => 0) c k v) m :=
  ⟨h.queue, fun x => ⟨(h.form x).1, twf_tput _ _ _ _ (h.form x).2.1, (h.form x).2.2⟩⟩
theorem KeptAt.dropCnt (f : Nat → Bool) (h : KeptAt a p r c m) : KeptAt a p r (tdrop f c) m :=
  ⟨h.queue, fun x => ⟨(h.form x).1, twf_tdrop _ _ _ (h.form x).2.1, (h.form x).2.2⟩⟩
theorem KeptAt.putByte (k : Nat) (v : Byte) (h : KeptAt a p r c m) : KeptAt a p r c (putByte m k v) :=
  ⟨h.queue, fun x => ⟨(h.form x).1, (h.form x).2.1, memWf_putByte _ _ _ (h.form x).2.2⟩⟩
theorem KeptAt.putBytes (k : Nat) (l : List Byte) (h : KeptAt a p r c m) : KeptAt a p r c (putBytes m k l) :=
  ⟨h.queue, fun x => ⟨(h.form x).1, (h.form x).2.1, memWf_putBytes _ _ _ (h.form x).2.2⟩⟩
theorem KeptAt.dropMem (f : Nat → Bool) (h : KeptAt a p r c m) : KeptAt a p r c (tdrop f m) :=
  ⟨h.queue, fun x => ⟨(h.form x).1, (h.form x).2.1, memWf_tdrop _ _ (h.form x).2.2⟩⟩
/-- A register file built anew from puts. -/
theorem KeptAt.rebuilt {β : Type} (l : List β) (g : β → Nat) (w : Table Word → β → Word) (h : KeptAt a p r c m) :
    KeptAt a p (l.foldl (fun t e => tput regReset t (g e) (w t e)) []) c m := by
  refine ⟨h.queue, fun x => ⟨?_, (h.form x).2⟩⟩
  have : ∀ t, twf regReset t = true → twf regReset (l.foldl (fun t e => tput regReset t (g e) (w t e)) t) = true := by
    induction l with
    | nil => exact fun t ht => ht
    | cons e l ih => exact fun t ht => ih _ (twf_tput _ _ _ _ ht)
  exact this [] rfl
end

theorem Kept.ite {a s t : State} {q : Prop} [Decidable q] (h : Kept a s) (k : Kept a t) : Kept a (if q then s else t) := by
  split
  · exact h
  · exact k

theorem Kept.fold {a : State} {β : Type} {f : State → β → State} {l : List β} {s : State}
    (hf : ∀ s x, Kept a s → Kept a (f s x)) (h : Kept a s) : Kept a (l.foldl f s) := by
  induction l generalizing s with
  | nil => exact h
  | cons x l ih => exact ih (hf _ _ h)



/-! #### Operations of Machine/Ops.lean -/

theorem State.setReg_kept {a0 : State} (s : State) (a : Nat) (v : Word) (hk : Kept a0 s) : Kept a0 (State.setReg s a v) := by
  unfold State.setReg; try dsimp only
  repeat first
    | with_reducible assumption
    | (refine Kept.mk ?_; dsimp only; (repeat first | with_reducible apply KeptAt.putReg | with_reducible apply KeptAt.dropReg | with_reducible apply KeptAt.rebuilt); with_reducible refine Kept.at_ ?_)

theorem State.wr_kept {a0 : State} (s : State) (b : Nat) (f : RegField) (v : Nat) (hk : Kept a0 s) : Kept a0 (State.wr s b f v) := by
  unfold State.wr; try dsimp only
  repeat first
    | with_reducible assumption
    | with_reducible apply State.setReg_kept

theorem State.wrB_kept {a0 : State} (s : State) (b : Nat) (f : RegField) (v : Bool) (hk : Kept a0 s) : Kept a0 (State.wrB s b f v) := by
  unfold State.wrB; try dsimp only
  repeat first
    | with_reducible assumption
    | with_reducible apply State.wr_kept

theorem State.wrW_kept {a0 : State} (s : State) (a v : Nat) (hk : Kept a0 s) : Kept a0 (State.wrW s a v) := by
  unfold State.wrW; try dsimp only
  repeat first
    | with_reducible assumption
    | with_reducible apply State.setReg_kept

theorem State.wrPair_kept {a0 : State} (s : State) (a v : Nat) (hk : Kept a0 s) : Kept a0 (State.wrPair s a v) := by
  unfold State.wrPair; try dsimp only
  repeat first
    | with_reducible assumption
    | with_reducible apply State.wrW_kept

theorem State.resetRegs_kept {a0 : State} (s : State) (p : Nat → Bool) (hk : Kept a0 s) : Kept a0 (State.resetRegs s p) := by
  unfold State.resetRegs; try dsimp only
  repeat first
    | with_reducible assumption
    | (refine Kept.mk ?_; dsimp only; (repeat first | with_reducible apply KeptAt.putReg | with_reducible apply KeptAt.dropReg | with_reducible apply KeptAt.rebuilt); with_reducible refine Kept.at_ ?_)

theorem State.bump_kept {a0 : State} (s : State) (b : Nat) (f : RegField) (hk : Kept a0 s) : Kept a0 (State.bump s b f) := by
  unfold State.bump; try dsimp only
  repeat first
    | with_reducible assumption
    | with_reducible apply State.wr_kept

theorem State.setCnt_kept {a0 : State} (s : State) (a v : Nat) (hk : Kept a0 s) : Kept a0 (State.setCnt s a v) := by
  unfold State.setCnt; try dsimp only
  repeat first
    | with_reducible assumption
    | (refine Kept.mk ?_; dsimp only; (repeat first | with_reducible apply KeptAt.putCnt | with_reducible apply KeptAt.dropCnt); with_reducible refine Kept.at_ ?_)

theorem State.countN_kept {a0 : State} (s : State) (a n : Nat) (hk : Kept a0 s) : Kept a0 (State.countN s a n) := by
  unfold State.countN; try dsimp only
  repeat first
    | with_reducible assumption
    | with_reducible apply State.setCnt_kept
    | with_reducible apply Kept.ite

theorem State.event_kept {a0 : State} (s : State) (p : Option Nat) (code : Nat) (hk : Kept a0 s) : Kept a0 (State.event s p code) := by
  unfold State.event; try dsimp only
  repeat first
    | with_reducible assumption
    | with_reducible apply State.countN_kept
    | with_reducible apply Kept.ite
    | with_reducible refine Kept.fold (fun s x hk => ?_) ?_
    | (refine Kept.mk ?_; dsimp only; with_reducible refine Kept.at_ ?_)

theorem State.count_kept {a0 : State} (s : State) (a : Nat) (hk : Kept a0 s) : Kept a0 (State.count s a) := by
  unfold State.count; try dsimp only
  repeat first
    | with_reducible assumption
    | with_reducible apply State.countN_kept
    | with_reducible apply State.event_kept
    | split

theorem State.setDom_kept {a0 : State} (s : State) (d : Nat) (on : Bool) (hk : Kept a0 s) : Kept a0 (State.setDom s d on) := by
  unfold State.setDom; try dsimp only
  repeat first
    | with_reducible assumption
    | with_reducible apply State.wrW_kept

theorem State.draw_kept {a0 : State} (s : State) (hk : Kept a0 s) : Kept a0 (State.draw s).2 := by
  unfold State.draw; try dsimp only
  repeat first
    | with_reducible assumption
    | (refine Kept.mk ?_; dsimp only; with_reducible refine Kept.at_ ?_)

theorem State.draw_of {a0 t : State} (s : State) {x0} (e : State.draw s = (x0, t)) (hk : Kept a0 s) : Kept a0 t := by
  have k := State.draw_kept s hk
  rw [e] at k; exact k

theorem State.choose_kept {a0 : State} (s : State) (ok : Nat → Bool) (lo hi : Nat) (hk : Kept a0 s) : Kept a0 (State.choose s ok lo hi).2 := by
  unfold State.choose; try dsimp only
  repeat first
    | with_reducible assumption
    | with_reducible apply State.draw_kept
    | split

theorem State.choose_of {a0 t : State} (s : State) (ok : Nat → Bool) (lo hi : Nat) {x0} (e : State.choose s ok lo hi = (x0, t)) (hk : Kept a0 s) : Kept a0 t := by
  have k := State.choose_kept s ok lo hi hk
  rw [e] at k; exact k

theorem State.emit_kept {a0 : State} (s : State) (o : Out) (hk : Kept a0 s) : Kept a0 (State.emit s o) := by
  unfold State.emit; try dsimp only
  repeat first
    | with_reducible assumption
    | (refine Kept.mk ?_; dsimp only; with_reducible refine Kept.at_ ?_)

theorem State.answer_kept {a0 : State} (s : State) (r : Reply) (hk : Kept a0 s) : Kept a0 (State.answer s r) := by
  unfold State.answer; try dsimp only
  repeat first
    | with_reducible assumption
    | (refine Kept.mk ?_; dsimp only; with_reducible refine Kept.at_ ?_)

theorem State.setLink_kept {a0 : State} (s : State) (m : Nat) (l : LinkSt) (hk : Kept a0 s) : Kept a0 (State.setLink s m l) := by
  unfold State.setLink; try dsimp only
  repeat first
    | with_reducible assumption
    | (refine Kept.mk ?_; dsimp only; with_reducible refine Kept.at_ ?_)

theorem State.setFn_kept {a0 : State} (s : State) (m f : Nat) (x : Fn) (hk : Kept a0 s) : Kept a0 (State.setFn s m f x) := by
  unfold State.setFn; try dsimp only
  repeat first
    | with_reducible assumption
    | (refine Kept.mk ?_; dsimp only; with_reducible refine Kept.at_ ?_)

theorem State.wake_kept {a0 : State} (s : State) (m : Nat) (hk : Kept a0 s) : Kept a0 (State.wake s m) := by
  unfold State.wake; try dsimp only
  repeat first
    | with_reducible assumption
    | with_reducible apply State.wr_kept
    | with_reducible apply State.setLink_kept
    | with_reducible apply Kept.ite

theorem State.post_kept {a0 : State} (s : State) (m f : Nat) (o : Out) (hk : Kept a0 s) : Kept a0 (State.post s m f o) := by
  unfold State.post; try dsimp only
  repeat first
    | with_reducible assumption
    | with_reducible apply State.emit_kept
    | with_reducible apply State.setFn_kept
    | with_reducible apply State.wake_kept
    | with_reducible apply Kept.ite

theorem State.postWrite_kept {a0 : State} (s : State) (m f addr : Nat) (data : List Byte) (hk : Kept a0 s) : Kept a0 (State.postWrite s m f addr data) := by
  unfold State.postWrite; try dsimp only
  repeat first
    | with_reducible assumption
    | with_reducible apply State.post_kept
    | with_reducible refine Kept.fold (fun s x hk => ?_) ?_

theorem State.issueRead_kept {a0 : State} (s : State) (m f addr len : Nat) (hk : Kept a0 s) : Kept a0 (State.issueRead s m f addr len) := by
  unfold State.issueRead; try dsimp only
  repeat first
    | with_reducible assumption
    | with_reducible apply State.emit_kept
    | with_reducible apply State.wake_kept
    | with_reducible refine Kept.fold (fun s x hk => ?_) ?_

theorem State.interrupt_kept {a0 : State} (s : State) (m f vec : Nat) (hk : Kept a0 s) : Kept a0 (State.interrupt s m f vec) := by
  unfold State.interrupt; try dsimp only
  repeat first
    | with_reducible assumption
    | with_reducible apply State.post_kept
    | with_reducible apply Kept.ite
    | (refine Kept.mk ?_; dsimp only; (repeat first | with_reducible apply KeptAt.putByte | with_reducible apply KeptAt.putBytes | with_reducible apply KeptAt.dropMem); with_reducible refine Kept.at_ ?_)

theorem State.msixRelease_kept {a0 : State} (s : State) (m f : Nat) (hk : Kept a0 s) : Kept a0 (State.msixRelease s m f) := by
  unfold State.msixRelease; try dsimp only
  repeat first
    | with_reducible assumption
    | with_reducible apply State.post_kept
    | with_reducible apply Kept.ite
    | with_reducible refine Kept.fold (fun s x hk => ?_) ?_
    | (refine Kept.mk ?_; dsimp only; (repeat first | with_reducible apply KeptAt.putByte | with_reducible apply KeptAt.putBytes | with_reducible apply KeptAt.dropMem); with_reducible refine Kept.at_ ?_)

theorem State.stamp_kept {a0 : State} (s : State) (k : Nat) (hk : Kept a0 s) : Kept a0 (State.stamp s k) := by
  unfold State.stamp; try dsimp only
  repeat first
    | with_reducible assumption
    | (refine Kept.mk ?_; dsimp only; with_reducible refine Kept.at_ ?_)

theorem State.every_kept {a0 : State} (s : State) (k p : Nat) (f : State → State) (hk : Kept a0 s) (hf : ∀ y0, Kept a0 y0 → Kept a0 (f y0)) : Kept a0 (State.every s k p f) := by
  unfold State.every; try dsimp only
  repeat first
    | with_reducible assumption
    | with_reducible apply State.stamp_kept
    | with_reducible apply Kept.ite
    | with_reducible apply hf

theorem State.atRefill_kept {a0 : State} (s : State) (k : Nat) (f : State → State) (hk : Kept a0 s) (hf : ∀ y0, Kept a0 y0 → Kept a0 (f y0)) : Kept a0 (State.atRefill s k f) := by
  unfold State.atRefill; try dsimp only
  repeat first
    | with_reducible assumption
    | with_reducible apply Kept.ite
    | (refine Kept.mk ?_; dsimp only; with_reducible refine Kept.at_ ?_)
    | with_reducible apply hf

theorem State.arrive_kept {a0 : State} (s : State) (h n : Nat) (hk : Kept a0 s) : Kept a0 (State.arrive s h n) := by
  unfold State.arrive; try dsimp only
  repeat first
    | with_reducible assumption
    | (refine Kept.mk ?_; dsimp only; with_reducible refine Kept.at_ ?_)

/-! #### Operations of Machine/Ports.lean -/

theorem State.fitFec_kept {a0 : State} (s : State) (g : Nat) (hk : Kept a0 s) : Kept a0 (State.fitFec s g) := by
  unfold State.fitFec; try dsimp only
  repeat first
    | with_reducible assumption
    | with_reducible apply State.wr_kept
    | with_reducible apply Kept.ite
    | with_reducible refine Kept.fold (fun s x hk => ?_) ?_

theorem State.moduleSeen_kept {a0 : State} (s : State) (g : Nat) (hk : Kept a0 s) : Kept a0 (State.moduleSeen s g) := by
  unfold State.moduleSeen; try dsimp only
  repeat first
    | with_reducible assumption
    | with_reducible apply State.wrB_kept
    | with_reducible apply State.emit_kept
    | with_reducible apply Kept.ite
    | (refine Kept.mk ?_; dsimp only; with_reducible refine Kept.at_ ?_)

theorem State.fillSpread_kept {a0 : State} (s : State) (p : Nat) (hk : Kept a0 s) : Kept a0 (State.fillSpread s p) := by
  unfold State.fillSpread; try dsimp only
  repeat first
    | with_reducible assumption
    | with_reducible apply State.wrPair_kept

theorem State.assignSlot_kept {a0 : State} (s : State) (p t : Nat) (hk : Kept a0 s) : Kept a0 (State.assignSlot s p t) := by
  unfold State.assignSlot; try dsimp only
  repeat first
    | with_reducible assumption
    | with_reducible apply State.wr_kept
    | with_reducible apply State.wrB_kept
    | split

theorem State.setUpPorts_kept {a0 : State} (s : State) (ok : Nat → Bool) (hk : Kept a0 s) : Kept a0 (State.setUpPorts s ok) := by
  unfold State.setUpPorts; try dsimp only
  repeat first
    | with_reducible assumption
    | with_reducible apply State.fillSpread_kept
    | with_reducible apply State.assignSlot_kept
    | with_reducible apply Kept.ite
    | with_reducible refine Kept.fold (fun s x hk => ?_) ?_

theorem State.setUpEcn_kept {a0 : State} (s : State) (hk : Kept a0 s) : Kept a0 (State.setUpEcn s) := by
  unfold State.setUpEcn; try dsimp only
  repeat first
    | with_reducible assumption
    | with_reducible apply State.wr_kept
    | with_reducible apply Kept.ite
    | with_reducible refine Kept.fold (fun s x hk => ?_) ?_

/-! #### Operations of Machine/Packets.lean -/

theorem State.setQp_kept {a0 : State} (s : State) (k : Nat) (x : Qp) (hk : Kept a0 s) : Kept a0 (State.setQp s k x) := by
  unfold State.setQp; try dsimp only
  repeat first
    | with_reducible assumption
    | (refine Kept.mk ?_; dsimp only; with_reducible refine Kept.at_ ?_)

theorem State.onChain_kept {a0 : State} (s : State) (k : Pkt) (f : Chain → Chain) (hk : Kept a0 s) : Kept a0 (State.onChain s k f) := by
  unfold State.onChain; try dsimp only
  repeat first
    | with_reducible assumption
    | with_reducible apply State.setQp_kept
    | split

theorem State.chainTaken_kept {a0 : State} (s : State) (k : Pkt) (hk : Kept a0 s) : Kept a0 (State.chainTaken s k) := by
  unfold State.chainTaken; try dsimp only
  repeat first
    | with_reducible assumption
    | with_reducible apply State.onChain_kept

theorem State.chainParseDrop_kept {a0 : State} (s : State) (k : Pkt) (hk : Kept a0 s) : Kept a0 (State.chainParseDrop s k) := by
  unfold State.chainParseDrop; try dsimp only
  repeat first
    | with_reducible assumption
    | with_reducible apply State.onChain_kept

theorem State.pktEnd_kept {a0 : State} (s : State) (k : Pkt) (hk : Kept a0 s) : Kept a0 (State.pktEnd s k) := by
  unfold State.pktEnd; try dsimp only
  repeat first
    | with_reducible assumption
    | with_reducible apply State.onChain_kept
    | with_reducible apply Kept.ite

theorem State.pktLeft_kept {a0 : State} (s : State) (k : Pkt) (time frac : Nat) (hk : Kept a0 s) : Kept a0 (State.pktLeft s k time frac) := by
  unfold State.pktLeft; try dsimp only
  repeat first
    | with_reducible assumption
    | with_reducible apply State.onChain_kept
    | with_reducible apply Kept.ite

theorem State.setPlot_kept {a0 : State} (s : State) (p : Nat) (x : PlotSt) (hk : Kept a0 s) : Kept a0 (State.setPlot s p x) := by
  unfold State.setPlot; try dsimp only
  repeat first
    | with_reducible assumption
    | (refine Kept.mk ?_; dsimp only; with_reducible refine Kept.at_ ?_)

theorem State.setEgress_kept {a0 : State} (s : State) (t : Nat) (x : EgrSt) (hk : Kept a0 s) : Kept a0 (State.setEgress s t x) := by
  unfold State.setEgress; try dsimp only
  repeat first
    | with_reducible assumption
    | (refine Kept.mk ?_; dsimp only; with_reducible refine Kept.at_ ?_)

theorem State.resplit_kept {a0 : State} (s : State) (p : Nat) (hk : Kept a0 s) : Kept a0 (State.resplit s p) := by
  unfold State.resplit; try dsimp only
  repeat first
    | with_reducible assumption
    | with_reducible apply State.wr_kept
    | with_reducible apply State.wrB_kept
    | with_reducible refine Kept.fold (fun s x hk => ?_) ?_
    | split

theorem State.setPipe_kept {a0 : State} (s : State) (k : Nat) (x : PipeSt) (hk : Kept a0 s) : Kept a0 (State.setPipe s k x) := by
  unfold State.setPipe; try dsimp only
  repeat first
    | with_reducible assumption
    | (refine Kept.mk ?_; dsimp only; with_reducible refine Kept.at_ ?_)

theorem State.setToks_kept {a0 : State} (s : State) (k : Nat) (ts : List Token) (hk : Kept a0 s) : Kept a0 (State.setToks s k ts) := by
  unfold State.setToks; try dsimp only
  repeat first
    | with_reducible assumption
    | with_reducible apply State.setPipe_kept

/-! #### Operations of Machine/Cache.lean -/

theorem State.onSilo_kept {a0 : State} (s : State) (f : SiloSt → SiloSt) (hk : Kept a0 s) : Kept a0 (State.onSilo s f) := by
  unfold State.onSilo; try dsimp only
  repeat first
    | with_reducible assumption
    | (refine Kept.mk ?_; dsimp only; with_reducible refine Kept.at_ ?_)

theorem State.onCist_kept {a0 : State} (s : State) (f : Cist → Cist) (hk : Kept a0 s) : Kept a0 (State.onCist s f) := by
  unfold State.onCist; try dsimp only
  repeat first
    | with_reducible assumption
    | (refine Kept.mk ?_; dsimp only; with_reducible refine Kept.at_ ?_)

theorem State.onVault_kept {a0 : State} (s : State) (f : Vault → Vault) (hk : Kept a0 s) : Kept a0 (State.onVault s f) := by
  unfold State.onVault; try dsimp only
  repeat first
    | with_reducible assumption
    | (refine Kept.mk ?_; dsimp only; with_reducible refine Kept.at_ ?_)

theorem State.setDrive_kept {a0 : State} (s : State) (d : Nat) (x : Drive) (hk : Kept a0 s) : Kept a0 (State.setDrive s d x) := by
  unfold State.setDrive; try dsimp only
  repeat first
    | with_reducible assumption
    | with_reducible apply State.onSilo_kept

theorem State.setVol_kept {a0 : State} (s : State) (v : Nat) (x : Vol) (hk : Kept a0 s) : Kept a0 (State.setVol s v x) := by
  unfold State.setVol; try dsimp only
  repeat first
    | with_reducible assumption
    | with_reducible apply State.onSilo_kept

theorem State.setCtl_kept {a0 : State} (s : State) (p : Nat) (x : Ctl) (hk : Kept a0 s) : Kept a0 (State.setCtl s p x) := by
  unfold State.setCtl; try dsimp only
  repeat first
    | with_reducible assumption
    | with_reducible apply State.onSilo_kept

theorem State.setExt_kept {a0 : State} (s : State) (i e : Nat) (hk : Kept a0 s) : Kept a0 (State.setExt s i e) := by
  unfold State.setExt; try dsimp only
  repeat first
    | with_reducible assumption
    | with_reducible apply State.onSilo_kept

theorem State.keepExt_kept {a0 : State} (s : State) (i e : Nat) (hk : Kept a0 s) : Kept a0 (State.keepExt s i e) := by
  unfold State.keepExt; try dsimp only
  repeat first
    | with_reducible assumption
    | with_reducible apply State.onSilo_kept

theorem State.setStale_kept {a0 : State} (s : State) (i v : Nat) (hk : Kept a0 s) : Kept a0 (State.setStale s i v) := by
  unfold State.setStale; try dsimp only
  repeat first
    | with_reducible assumption
    | with_reducible apply State.onSilo_kept

theorem State.place_kept {a0 : State} (s : State) (scheme : Nat) (hk : Kept a0 s) : Kept a0 (State.place s scheme).2 := by
  unfold State.place; try dsimp only
  repeat first
    | with_reducible assumption
    | with_reducible apply State.draw_kept
    | split
    | with_reducible refine State.choose_of _ _ _ _ ‹_› ?_

theorem State.place_of {a0 t : State} (s : State) (scheme : Nat) {x0} (e : State.place s scheme = (x0, t)) (hk : Kept a0 s) : Kept a0 t := by
  have k := State.place_kept s scheme hk
  rw [e] at k; exact k

theorem State.onWrite_kept {a0 : State} (s : State) (id : Nat) (f : WOp → WOp) (hk : Kept a0 s) : Kept a0 (State.onWrite s id f) := by
  unfold State.onWrite; try dsimp only
  repeat first
    | with_reducible assumption
    | with_reducible apply State.onSilo_kept

theorem State.dropWrite_kept {a0 : State} (s : State) (id : Nat) (hk : Kept a0 s) : Kept a0 (State.dropWrite s id) := by
  unfold State.dropWrite; try dsimp only
  repeat first
    | with_reducible assumption
    | with_reducible apply State.onSilo_kept

theorem State.setDisk_kept {a0 : State} (s : State) (v lba : Nat) (l : List Byte) (hk : Kept a0 s) : Kept a0 (State.setDisk s v lba l) := by
  unfold State.setDisk; try dsimp only
  repeat first
    | with_reducible assumption
    | with_reducible apply State.onSilo_kept

theorem State.settleWrite_kept {a0 : State} (s : State) (id : Nat) (st : BlkSt) (held : Bool) (hk : Kept a0 s) : Kept a0 (State.settleWrite s id st held) := by
  unfold State.settleWrite; try dsimp only
  repeat first
    | with_reducible assumption
    | with_reducible apply State.onSilo_kept

theorem State.dropCtl_kept {a0 : State} (s : State) (p : Nat) (hk : Kept a0 s) : Kept a0 (State.dropCtl s p) := by
  unfold State.dropCtl; try dsimp only
  repeat first
    | with_reducible assumption
    | with_reducible apply State.onSilo_kept
    | with_reducible apply State.setCtl_kept
    | with_reducible apply State.dropWrite_kept
    | with_reducible refine Kept.fold (fun s x hk => ?_) ?_

theorem State.ctlReset_kept {a0 : State} (s : State) (p : Nat) (hk : Kept a0 s) : Kept a0 (State.ctlReset s p) := by
  unfold State.ctlReset; try dsimp only
  repeat first
    | with_reducible assumption
    | with_reducible apply State.wrW_kept
    | with_reducible apply State.dropCtl_kept

theorem State.clearNvme_kept {a0 : State} (s : State) (p : Nat) (hk : Kept a0 s) : Kept a0 (State.clearNvme s p) := by
  unfold State.clearNvme; try dsimp only
  repeat first
    | with_reducible assumption
    | with_reducible apply State.resetRegs_kept
    | with_reducible apply State.dropCtl_kept

theorem State.ctlEnable_kept {a0 : State} (s : State) (p : Nat) (hk : Kept a0 s) : Kept a0 (State.ctlEnable s p) := by
  unfold State.ctlEnable; try dsimp only
  repeat first
    | with_reducible assumption
    | with_reducible apply State.wrW_kept
    | with_reducible apply State.setCtl_kept

theorem State.ccWritten_kept {a0 : State} (s : State) (p old : Nat) (hk : Kept a0 s) : Kept a0 (State.ccWritten s p old) := by
  unfold State.ccWritten; try dsimp only
  repeat first
    | with_reducible assumption
    | with_reducible apply State.wr_kept
    | with_reducible apply State.ctlReset_kept
    | with_reducible apply State.ctlEnable_kept
    | with_reducible apply Kept.ite

theorem State.setConn_kept {a0 : State} (s : State) (c : Nat) (x : ConnSt) (hk : Kept a0 s) : Kept a0 (State.setConn s c x) := by
  unfold State.setConn; try dsimp only
  repeat first
    | with_reducible assumption
    | with_reducible apply State.onSilo_kept

theorem State.markExts_kept {a0 : State} (s : State) (v lba n : Nat) (hk : Kept a0 s) : Kept a0 (State.markExts s v lba n) := by
  unfold State.markExts; try dsimp only
  repeat first
    | with_reducible assumption
    | with_reducible apply State.onSilo_kept

theorem State.dropBuffer_kept {a0 : State} (s : State) (c : Nat) (hk : Kept a0 s) : Kept a0 (State.dropBuffer s c) := by
  unfold State.dropBuffer; try dsimp only
  repeat first
    | with_reducible assumption
    | with_reducible apply State.onWrite_kept
    | with_reducible apply State.setConn_kept
    | with_reducible apply State.markExts_kept
    | with_reducible apply Kept.ite
    | with_reducible refine Kept.fold (fun s x hk => ?_) ?_

theorem State.conduitDown_kept {a0 : State} (s : State) (hk : Kept a0 s) : Kept a0 (State.conduitDown s) := by
  unfold State.conduitDown; try dsimp only
  repeat first
    | with_reducible assumption
    | with_reducible apply State.wr_kept
    | with_reducible apply State.dropBuffer_kept
    | with_reducible refine Kept.fold (fun s x hk => ?_) ?_

theorem State.connWritten_kept {a0 : State} (s : State) (c old : Nat) (hk : Kept a0 s) : Kept a0 (State.connWritten s c old) := by
  unfold State.connWritten; try dsimp only
  repeat first
    | with_reducible assumption
    | with_reducible apply State.wr_kept
    | with_reducible apply State.dropBuffer_kept
    | with_reducible apply Kept.ite

theorem State.dropInFlight_kept {a0 : State} (s : State) (hk : Kept a0 s) : Kept a0 (State.dropInFlight s) := by
  unfold State.dropInFlight; try dsimp only
  repeat first
    | with_reducible assumption
    | with_reducible apply State.onSilo_kept

theorem State.siloFreeze_kept {a0 : State} (s : State) (pin : Bool) (hk : Kept a0 s) : Kept a0 (State.siloFreeze s pin) := by
  unfold State.siloFreeze; try dsimp only
  repeat first
    | with_reducible assumption
    | with_reducible apply State.onSilo_kept
    | with_reducible apply State.onVault_kept
    | with_reducible apply State.dropInFlight_kept
    | with_reducible apply Kept.ite

/-! #### Operations of Machine/TimeBase.lean -/

theorem State.onTim_kept {a0 : State} (s : State) (f : TimeSt → TimeSt) (hk : Kept a0 s) : Kept a0 (State.onTim s f) := by
  unfold State.onTim; try dsimp only
  repeat first
    | with_reducible assumption
    | (refine Kept.mk ?_; dsimp only; with_reducible refine Kept.at_ ?_)

theorem State.calibrate_kept {a0 : State} (s : State) (u : Nat) (hk : Kept a0 s) : Kept a0 (State.calibrate s u) := by
  unfold State.calibrate; try dsimp only
  repeat first
    | with_reducible assumption
    | with_reducible apply State.draw_kept
    | with_reducible apply State.onTim_kept

theorem State.setPage_kept {a0 : State} (s : State) (m : Nat) (x : Page) (hk : Kept a0 s) : Kept a0 (State.setPage s m x) := by
  unfold State.setPage; try dsimp only
  repeat first
    | with_reducible assumption
    | with_reducible apply State.onTim_kept

theorem State.feedWritten_kept {a0 : State} (s : State) (n old : Nat) (hk : Kept a0 s) : Kept a0 (State.feedWritten s n old) := by
  unfold State.feedWritten; try dsimp only
  repeat first
    | with_reducible assumption
    | with_reducible apply State.wrB_kept
    | with_reducible apply State.emit_kept
    | with_reducible apply Kept.ite

theorem State.pageWritten_kept {a0 : State} (s : State) (m old : Nat) (hk : Kept a0 s) : Kept a0 (State.pageWritten s m old) := by
  unfold State.pageWritten; try dsimp only
  repeat first
    | with_reducible assumption
    | with_reducible apply State.wrB_kept
    | with_reducible apply State.setPage_kept
    | with_reducible apply Kept.ite

/-! #### Operations of Machine/Queues.lean -/

theorem State.setStage_kept {a0 : State} (s : State) (h : Nat) (x : Staging) (hk : Kept a0 s) : Kept a0 (State.setStage s h x) := by
  unfold State.setStage; try dsimp only
  repeat first
    | with_reducible assumption
    | (refine Kept.mk ?_; dsimp only; with_reducible refine Kept.at_ ?_)

theorem State.onWeir_kept {a0 : State} (s : State) (f : WeirSt → WeirSt) (hk : Kept a0 s) : Kept a0 (State.onWeir s f) := by
  unfold State.onWeir; try dsimp only
  repeat first
    | with_reducible assumption
    | (refine Kept.mk ?_; dsimp only; with_reducible refine Kept.at_ ?_)

theorem State.setVoq_kept {a0 : State} (s : State) (v : Nat) (x : Voq) (hk : Kept a0 s) : Kept a0 (State.setVoq s v x) := by
  unfold State.setVoq; try dsimp only
  repeat first
    | with_reducible assumption
    | with_reducible apply State.onWeir_kept

theorem State.setPool_kept {a0 : State} (s : State) (q p v : Nat) (hk : Kept a0 s) : Kept a0 (State.setPool s q p v) := by
  unfold State.setPool; try dsimp only
  repeat first
    | with_reducible assumption
    | with_reducible apply State.onWeir_kept

theorem State.setPair_kept {a0 : State} (s : State) (p : Nat) (x : PairSt) (hk : Kept a0 s) : Kept a0 (State.setPair s p x) := by
  unfold State.setPair; try dsimp only
  repeat first
    | with_reducible assumption
    | with_reducible apply State.onWeir_kept

theorem State.sendPause_kept {a0 : State} (s : State) (p mask quanta : Nat) (hk : Kept a0 s) : Kept a0 (State.sendPause s p mask quanta) := by
  unfold State.sendPause; try dsimp only
  repeat first
    | with_reducible assumption
    | with_reducible apply State.count_kept
    | with_reducible apply State.emit_kept
    | with_reducible apply State.stamp_kept
    | with_reducible apply Kept.ite

theorem State.updatePause_kept {a0 : State} (s : State) (p : Nat) (hk : Kept a0 s) : Kept a0 (State.updatePause s p) := by
  unfold State.updatePause; try dsimp only
  repeat first
    | with_reducible assumption
    | with_reducible apply State.sendPause_kept
    | with_reducible apply Kept.ite
    | (refine Kept.mk ?_; dsimp only; with_reducible refine Kept.at_ ?_)

theorem State.pairUpdate_kept {a0 : State} (s : State) (h p : Nat) (fromHdrm : Bool) (hk : Kept a0 s) : Kept a0 (State.pairUpdate s h p fromHdrm) := by
  unfold State.pairUpdate; try dsimp only
  repeat first
    | with_reducible assumption
    | with_reducible apply State.count_kept
    | with_reducible apply State.setPair_kept
    | with_reducible apply State.updatePause_kept
    | with_reducible apply Kept.ite

theorem State.freeSegs_kept {a0 : State} (s : State) (h pool n : Nat) (pair : Option Nat) (hk : Kept a0 s) : Kept a0 (State.freeSegs s h pool n pair) := by
  unfold State.freeSegs; try dsimp only
  repeat first
    | with_reducible assumption
    | with_reducible apply State.setPool_kept
    | with_reducible apply State.setPair_kept
    | with_reducible apply State.pairUpdate_kept
    | split

theorem State.cutPort_kept {a0 : State} (s : State) (p : Nat) (hk : Kept a0 s) : Kept a0 (State.cutPort s p) := by
  unfold State.cutPort; try dsimp only
  repeat first
    | with_reducible assumption
    | with_reducible apply State.setToks_kept
    | with_reducible apply State.onWeir_kept
    | with_reducible refine Kept.fold (fun s x hk => ?_) ?_

theorem State.crossedOut_kept {a0 : State} (s : State) (v : Nat) (p : VPkt) (hk : Kept a0 s) : Kept a0 (State.crossedOut s v p) := by
  unfold State.crossedOut; try dsimp only
  repeat first
    | with_reducible assumption
    | with_reducible apply State.freeSegs_kept
    | with_reducible apply Kept.ite

theorem State.restrict_kept {a0 : State} (s : State) (t k old new : Nat) (hk : Kept a0 s) : Kept a0 (State.restrict s t k old new) := by
  unfold State.restrict; try dsimp only
  repeat first
    | with_reducible assumption
    | with_reducible apply State.setEgress_kept

theorem State.onTbl_kept {a0 : State} (s : State) (f : TblSt → TblSt) (hk : Kept a0 s) : Kept a0 (State.onTbl s f) := by
  unfold State.onTbl; try dsimp only
  repeat first
    | with_reducible assumption
    | (refine Kept.mk ?_; dsimp only; with_reducible refine Kept.at_ ?_)

theorem State.setSweep_kept {a0 : State} (s : State) (q : Nat) (x : Nat × Nat) (hk : Kept a0 s) : Kept a0 (State.setSweep s q x) := by
  unfold State.setSweep; try dsimp only
  repeat first
    | with_reducible assumption
    | with_reducible apply State.onTbl_kept

theorem State.restartSweep_kept {a0 : State} (s : State) (q : Nat) (hk : Kept a0 s) : Kept a0 (State.restartSweep s q) := by
  unfold State.restartSweep; try dsimp only
  repeat first
    | with_reducible assumption
    | with_reducible apply State.setSweep_kept

theorem State.msgArrives_kept {a0 : State} (s : State) (p : Nat) (hk : Kept a0 s) : Kept a0 (State.msgArrives s p) := by
  unfold State.msgArrives; try dsimp only
  repeat first
    | with_reducible assumption
    | with_reducible apply State.wrW_kept
    | with_reducible apply State.interrupt_kept
    | split

/-! #### Operations of Machine/Microcode.lean -/

theorem State.stageBank_kept {a0 : State} (s : State) (k src dst : Nat) (ws : List (Nat × Nat × Nat)) (hk : Kept a0 s) : Kept a0 (State.stageBank s k src dst ws) := by
  unfold State.stageBank; try dsimp only
  repeat first
    | with_reducible assumption
    | with_reducible apply State.setReg_kept
    | with_reducible apply State.wr_kept
    | with_reducible apply Kept.ite
    | with_reducible refine Kept.fold (fun s x hk => ?_) ?_
    | (refine Kept.mk ?_; dsimp only; with_reducible refine Kept.at_ ?_)

/-! #### Operations of Machine/Faults.lean -/

theorem State.setSticky_kept {a0 : State} (s : State) (n : Nat) (b : Bool) (hk : Kept a0 s) : Kept a0 (State.setSticky s n b) := by
  unfold State.setSticky; try dsimp only
  repeat first
    | with_reducible assumption
    | with_reducible apply State.wrW_kept

theorem State.startWindow_kept {a0 : State} (s : State) (n cls : Nat) (hk : Kept a0 s) : Kept a0 (State.startWindow s n cls) := by
  unfold State.startWindow; try dsimp only
  repeat first
    | with_reducible assumption
    | with_reducible apply State.wrB_kept
    | (refine Kept.mk ?_; dsimp only; with_reducible refine Kept.at_ ?_)

theorem State.stopWindow_kept {a0 : State} (s : State) (n : Nat) (hk : Kept a0 s) : Kept a0 (State.stopWindow s n) := by
  unfold State.stopWindow; try dsimp only
  repeat first
    | with_reducible assumption
    | with_reducible apply State.wrB_kept
    | (refine Kept.mk ?_; dsimp only; with_reducible refine Kept.at_ ?_)

theorem State.notifyFault_kept {a0 : State} (s : State) (n : Nat) (hk : Kept a0 s) : Kept a0 (State.notifyFault s n) := by
  unfold State.notifyFault; try dsimp only
  repeat first
    | with_reducible assumption
    | with_reducible apply State.interrupt_kept
    | with_reducible apply Kept.ite
    | with_reducible refine Kept.fold (fun s x hk => ?_) ?_

theorem State.capture_kept {a0 : State} (s : State) (n : Nat) (hk : Kept a0 s) : Kept a0 (State.capture s n) := by
  unfold State.capture; try dsimp only
  repeat first
    | with_reducible assumption
    | with_reducible apply State.setSticky_kept
    | with_reducible apply State.startWindow_kept
    | with_reducible apply State.notifyFault_kept
    | with_reducible apply Kept.ite

theorem State.takeMsg_kept {a0 : State} (s : State) (f : FaultMsg) (hk : Kept a0 s) : Kept a0 (State.takeMsg s f) := by
  unfold State.takeMsg; try dsimp only
  repeat first
    | with_reducible assumption
    | with_reducible apply State.bump_kept
    | with_reducible apply State.count_kept
    | with_reducible apply State.capture_kept
    | with_reducible apply Kept.ite
    | (refine Kept.mk ?_; dsimp only; with_reducible refine Kept.at_ ?_)

theorem State.bgRan_kept {a0 : State} (s : State) (a : Nat) (hk : Kept a0 s) : Kept a0 (State.bgRan s a) := by
  unfold State.bgRan; try dsimp only
  repeat first
    | with_reducible assumption
    | with_reducible apply State.wrW_kept
    | (refine Kept.mk ?_; dsimp only; with_reducible refine Kept.at_ ?_)

theorem State.rerunFailed_kept {a0 : State} (s : State) (hk : Kept a0 s) : Kept a0 (State.rerunFailed s) := by
  unfold State.rerunFailed; try dsimp only
  repeat first
    | with_reducible assumption
    | with_reducible apply State.stamp_kept
    | with_reducible apply Kept.ite
    | with_reducible refine Kept.fold (fun s x hk => ?_) ?_
    | (refine Kept.mk ?_; dsimp only; with_reducible refine Kept.at_ ?_)

theorem State.ackFault_kept {a0 : State} (s : State) (n : Nat) (hk : Kept a0 s) : Kept a0 (State.ackFault s n) := by
  unfold State.ackFault; try dsimp only
  repeat first
    | with_reducible assumption
    | with_reducible apply State.wrB_kept
    | with_reducible apply State.setSticky_kept
    | with_reducible apply State.stopWindow_kept
    | with_reducible apply State.rerunFailed_kept
    | with_reducible apply Kept.ite

theorem State.ackRouted_kept {a0 : State} (s : State) (n : Nat) (hk : Kept a0 s) : Kept a0 (State.ackRouted s n) := by
  unfold State.ackRouted; try dsimp only
  repeat first
    | with_reducible assumption
    | with_reducible apply State.ackFault_kept
    | with_reducible apply Kept.ite

theorem State.stopAlive_kept {a0 : State} (s : State) (cause : Nat) (hk : Kept a0 s) : Kept a0 (State.stopAlive s cause) := by
  unfold State.stopAlive; try dsimp only
  repeat first
    | with_reducible assumption
    | with_reducible apply State.wr_kept
    | with_reducible apply State.wrB_kept
    | with_reducible apply State.emit_kept
    | (refine Kept.mk ?_; dsimp only; with_reducible refine Kept.at_ ?_)

theorem State.kcuFree_kept {a0 : State} (s : State) (m : Nat) (abandon : Bool) (hk : Kept a0 s) : Kept a0 (State.kcuFree s m abandon) := by
  unfold State.kcuFree; try dsimp only
  repeat first
    | with_reducible assumption
    | with_reducible apply State.wrB_kept
    | with_reducible apply State.resetRegs_kept
    | with_reducible apply Kept.ite
    | (refine Kept.mk ?_; dsimp only; (repeat first | with_reducible apply KeptAt.putByte | with_reducible apply KeptAt.putBytes | with_reducible apply KeptAt.dropMem); with_reducible refine Kept.at_ ?_)

theorem State.kcuFault_kept {a0 : State} (s : State) (src : Nat) (hk : Kept a0 s) : Kept a0 (State.kcuFault s src) := by
  unfold State.kcuFault; try dsimp only
  repeat first
    | with_reducible assumption
    | with_reducible apply State.kcuFree_kept
    | with_reducible apply Kept.ite

/-! #### Operations of Machine/Mailbox.lean -/

theorem State.setTag_kept {a0 : State} (s : State) (q : Req) (x : TagSt) (hk : Kept a0 s) : Kept a0 (State.setTag s q x) := by
  unfold State.setTag; try dsimp only
  repeat first
    | with_reducible assumption
    | (refine Kept.mk ?_; dsimp only; with_reducible refine Kept.at_ ?_)

theorem State.setInflight_kept {a0 : State} (s : State) (q : Req) (b : Bool) (hk : Kept a0 s) : Kept a0 (State.setInflight s q b) := by
  unfold State.setInflight; try dsimp only
  repeat first
    | with_reducible assumption
    | with_reducible apply State.wrW_kept
    | split

theorem State.writeResult_kept {a0 : State} (s : State) (q : Req) (phase mgen : Nat) (irq : Bool) (f : Final) (hk : Kept a0 s) : Kept a0 (State.writeResult s q phase mgen irq f) := by
  unfold State.writeResult; try dsimp only
  repeat first
    | with_reducible assumption
    | with_reducible apply State.emit_kept
    | with_reducible apply State.postWrite_kept
    | with_reducible apply State.interrupt_kept
    | (refine Kept.mk ?_; dsimp only; (repeat first | with_reducible apply KeptAt.putByte | with_reducible apply KeptAt.putBytes | with_reducible apply KeptAt.dropMem); with_reducible refine Kept.at_ ?_)
    | split

theorem State.finishWith_kept {a0 : State} (s : State) (q : Req) (f : Final) (hk : Kept a0 s) : Kept a0 (State.finishWith s q f) := by
  unfold State.finishWith; try dsimp only
  repeat first
    | with_reducible assumption
    | with_reducible apply State.setTag_kept
    | with_reducible apply State.setInflight_kept
    | with_reducible apply State.writeResult_kept
    | split

theorem State.finish_kept {a0 : State} (s : State) (q : Req) (status : Nat) (hk : Kept a0 s) : Kept a0 (State.finish s q status) := by
  unfold State.finish; try dsimp only
  repeat first
    | with_reducible assumption
    | with_reducible apply State.finishWith_kept

theorem State.done_kept {a0 : State} (s : State) (q : Req) (data : List Byte) (hk : Kept a0 s) : Kept a0 (State.done s q data) := by
  unfold State.done; try dsimp only
  repeat first
    | with_reducible assumption
    | with_reducible apply State.finishWith_kept

theorem State.busyRetry_kept {a0 : State} (s : State) (q : Req) (retry : Nat) (hk : Kept a0 s) : Kept a0 (State.busyRetry s q retry) := by
  unfold State.busyRetry; try dsimp only
  repeat first
    | with_reducible assumption
    | with_reducible apply State.finishWith_kept

theorem State.addJob_kept {a0 : State} (s : State) (q : Req) (opcode obj : Nat) (hk : Kept a0 s) : Kept a0 (State.addJob s q opcode obj) := by
  unfold State.addJob; try dsimp only
  repeat first
    | with_reducible assumption
    | (refine Kept.mk ?_; dsimp only; with_reducible refine Kept.at_ ?_)

theorem State.settleOld_kept {a0 : State} (s : State) (q : Req) (mgen effect : Nat) (hk : Kept a0 s) : Kept a0 (State.settleOld s q mgen effect) := by
  unfold State.settleOld; try dsimp only
  repeat first
    | with_reducible assumption
    | with_reducible apply State.setTag_kept
    | split

theorem State.endJob_kept {a0 : State} (s : State) (j : Job) (f : Final) (hk : Kept a0 s) : Kept a0 (State.endJob s j f) := by
  unfold State.endJob; try dsimp only
  repeat first
    | with_reducible assumption
    | with_reducible apply State.finishWith_kept
    | with_reducible apply State.settleOld_kept
    | with_reducible apply Kept.ite
    | (refine Kept.mk ?_; dsimp only; with_reducible refine Kept.at_ ?_)

theorem State.endJobs_kept {a0 : State} (s : State) (opcode obj : Nat) (f : Final) (hk : Kept a0 s) : Kept a0 (State.endJobs s opcode obj f) := by
  unfold State.endJobs; try dsimp only
  repeat first
    | with_reducible assumption
    | with_reducible apply State.endJob_kept
    | with_reducible refine Kept.fold (fun s x hk => ?_) ?_

theorem State.command_kept {a0 : State} (s : State) (q : Req) (opcode : Nat) (k : Cmd → State → State) (hk : Kept a0 s) (hk : ∀ y0 y1, Kept a0 y1 → Kept a0 (k y0 y1)) : Kept a0 (State.command s q opcode k) := by
  unfold State.command; try dsimp only
  repeat first
    | with_reducible assumption
    | with_reducible apply hk
    | split

theorem State.mailboxReset_kept {a0 : State} (s : State) (m : Link) (hk : Kept a0 s) : Kept a0 (State.mailboxReset s m) := by
  unfold State.mailboxReset; try dsimp only
  repeat first
    | with_reducible assumption
    | with_reducible apply State.wrW_kept
    | with_reducible apply State.resetRegs_kept
    | with_reducible apply State.setTag_kept
    | with_reducible apply Kept.ite
    | with_reducible refine Kept.fold (fun s x hk => ?_) ?_
    | (refine Kept.mk ?_; dsimp only; with_reducible refine Kept.at_ ?_)

theorem State.coreMailboxReset_kept {a0 : State} (s : State) (n : CoreIx) (hk : Kept a0 s) : Kept a0 (State.coreMailboxReset s n) := by
  unfold State.coreMailboxReset; try dsimp only
  repeat first
    | with_reducible assumption
    | with_reducible apply State.wr_kept
    | with_reducible apply State.resetRegs_kept
    | with_reducible apply State.setTag_kept

end Sys2Proof.Machine
end

