-- ==== Sys2Proof/Laws/Mailbox.lean ====
section
/-! SUPPORT. What messages to a host and the results of commands change, and the end of a mailbox command. -/
namespace Sys2Proof.Machine

/-- Registers are read from the field regs alone. -/
theorem State.reg_congr {s t : State} (h : t.regs = s.regs) (a : Nat) : t.reg a = s.reg a := by
  unfold State.reg; rw [h]

theorem State.wake_reg (s : State) (m a : Nat) (h : a ≠ B.HPT m + R.HPT_LINK_PM.off) : (s.wake m).reg a = s.reg a := by
  unfold State.wake; dsimp only
  rw [State.reg_congr (State.setLink_regs _ _ _) a]
  split
  · exact s.reg_wr _ _ _ _ h
  · rfl

/-- A message to a host leaves every register but HPT_LINK of its link. -/
theorem State.post_reg (s : State) (m f : Nat) (o : Out) (a : Nat) (h : a ≠ B.HPT m + R.HPT_LINK_PM.off) :
    (s.post m f o).reg a = s.reg a := by
  unfold State.post; dsimp only
  split
  · rfl
  · split
    · rw [State.wake_reg _ _ _ h, State.reg_congr (State.emit_regs _ _) a]
    · exact State.reg_congr (State.setFn_regs _ _ _ _) a

theorem State.postWrite_reg (s : State) (m f b : Nat) (d : List Byte) (a : Nat) (h : a ≠ B.HPT m + R.HPT_LINK_PM.off) :
    (s.postWrite m f b d).reg a = s.reg a := by
  unfold State.postWrite
  refine foldl_keeps (fun x y => y.reg a = x.reg a) (fun _ => rfl) (fun _ _ _ h1 h2 => h2.trans h1) _ ?_ _ _
  intro s x; exact s.post_reg _ _ _ _ h

theorem State.postWrite_mem (s : State) (m f a : Nat) (d : List Byte) : (s.postWrite m f a d).mem = s.mem := by
  obtain ⟨r, x, l, y, e⟩ := s.postWrite_eq m f a d; rw [e]

theorem State.interrupt_reg (s : State) (m f v a : Nat) (h : a ≠ B.HPT m + R.HPT_LINK_PM.off) :
    (s.interrupt m f v).reg a = s.reg a := by
  unfold State.interrupt; dsimp only
  split
  · rfl
  · split
    · rfl
    · exact s.post_reg _ _ _ _ h

/-- An interrupt of a vector below 2,048 changes bytes of the function's pending array alone. -/
theorem State.interrupt_mem (s : State) (m f v a : Nat) (hv : v < 2048)
    (h : ¬ (B.MSIX m f + 0xC000 ≤ a ∧ a < B.MSIX m f + 0x1_0000)) :
    byteAt (s.interrupt m f v).mem a = byteAt s.mem a := by
  unfold State.interrupt; dsimp only
  split
  · rfl
  · split
    · exact byteAt_putByte_ne _ _ _ _ (by omega)
    · obtain ⟨r, x, l, y, e⟩ := s.post_eq m f (.msix m f v); rw [e]

theorem State.rd_lt (s : State) (b : Nat) (f : RegField) : s.rd b f < 2 ^ (f.hi + 1 - f.lo) := bitsOf_lt _ _ _

theorem State.writeResult_reg (s : State) (q : Req) (p g : Nat) (i : Bool) (f : Final) (a : Nat) (h : ¬ resultReg q a) :
    (s.writeResult q p g i f).reg a = s.reg a := by
  cases q with
  | host m t =>
    have h1 : a ≠ B.HPT m + R.HPT_LINK_PM.off := fun e => h (Or.inr e)
    simp only [State.writeResult]; split
    · rw [State.interrupt_reg _ _ _ _ _ h1]; simp only [State.postWrite_reg _ _ _ _ _ _ h1]
    · simp only [State.postWrite_reg _ _ _ _ _ _ h1]
  | core n => simp only [State.writeResult]; split <;> rfl

theorem leBytes_length (n v : Nat) : (leBytes n v).length = n := by
  induction n generalizing v with
  | zero => rfl
  | succ n ih => simp [leBytes, ih]

theorem fit_length (n : Nat) (l : List Byte) : (fit n l).length = n := by
  induction n generalizing l with
  | zero => rfl
  | succ n ih => cases l <;> simp [fit, ih]

theorem State.writeResult_mem (s : State) (q : Req) (p g : Nat) (i : Bool) (f : Final) (a : Nat) (h : ¬ resultByte q a) :
    byteAt (s.writeResult q p g i f).mem a = byteAt s.mem a := by
  cases q with
  | host m t =>
    simp only [State.writeResult]; split
    · rw [State.interrupt_mem _ _ _ _ _ (by
        refine Nat.lt_of_lt_of_le (State.rd_lt _ _ _) (by decide)) h]
      simp only [State.postWrite_mem]
    · simp only [State.postWrite_mem]
  | core n =>
    have key : ∀ l : List Byte, l.length = 256 → byteAt (putBytes s.mem (B.CMB n + 0x100) l) a = byteAt s.mem a := by
      intro l hl
      apply byteAt_putBytes_ne
      simp only [resultByte] at h
      omega
    simp only [State.writeResult]; split
    · rw [State.emit_mem]
      apply key
      simp only [List.length_append, leBytes_length, fit_length]
    · apply key
      simp only [List.length_append, leBytes_length, fit_length]

/-- The end of a command, on a tag that holds one: its result is final, and nothing changes but the result's traces. -/
theorem State.finishWith_ends (s : State) (q : Req) (f : Final) (c : Cmd) (h : (s.tag q).cur = some c) :
    Ends q f.status f.data s (s.finishWith q f) := by
  have ht := s.finishWith_tag q f c h
  refine ⟨by rw [ht], by rw [ht]; rfl, ?_, ?_, ?_, ?_⟩
  · obtain ⟨r, x, l, y, b, e⟩ := s.finishWith_eq q f c h
    rw [e]; unfold State.setTag; exact Eq.refl _
  · intro r hr
    obtain ⟨r', x, l, y, b, e⟩ := s.finishWith_eq q f c h
    rw [e]
    have : (s.setTag q { s.tag q with cur := none, fin := some f }).tag r = s.tag r := by
      rw [State.tag_setTag, if_neg hr]
    exact this
  · intro a ha
    unfold State.finishWith; rw [h]; dsimp only
    rw [State.writeResult_reg _ _ _ _ _ _ _ ha]
    cases q with
    | host m t =>
      have h1 : a ≠ B.LKP m + R.LKP_HMB_INFLIGHT_TAGS.off := fun e => ha (Or.inl e)
      simp only [State.setInflight]
      rw [State.reg_wrW, if_neg h1]; exact State.reg_congr (State.setTag_regs _ _ _) a
    | core n => exact State.reg_congr (State.setTag_regs _ _ _) a
  · intro a ha
    unfold State.finishWith; rw [h]; dsimp only
    rw [State.writeResult_mem _ _ _ _ _ _ _ ha]
    cases q <;> rfl

theorem State.done_ends (s : State) (q : Req) (l : List Byte) (c : Cmd) (h : (s.tag q).cur = some c) :
    Ends q St.DONE l s (s.done q l) := by
  have e := s.finishWith_ends q (Final.mk' St.DONE 0 l) c h
  exact e

theorem State.finish_ends (s : State) (q : Req) (st : Nat) (c : Cmd) (h : (s.tag q).cur = some c) :
    Ends q st [] s (s.finish q st) := by
  have e := s.finishWith_ends q (Final.mk' st 1000 []) c h
  exact e

/-- The meaning of a mailbox command's row acts on the command that the tag holds. -/
theorem State.holds_command {s : State} {q : Req} {o : Nat} {c : Cmd} (h : s.holds q o c) (k : Cmd → State → State) :
    s.command q o k = k c s :=
  s.command_eq q o k c h.1 h.2.1 (by
    have := h.2.2.1
    rw [List.all_eq_true] at this
    rw [List.any_eq_false]
    intro j hj
    have := this j hj
    simp only [Bool.not_eq_true', Bool.and_eq_false_imp, decide_eq_true_eq, decide_eq_false_iff_not] at this
    simp only [Bool.and_eq_true, decide_eq_true_eq, not_and]
    exact this) h.2.2.2

end Sys2Proof.Machine
end

