-- ==== Sys2Proof/Tests/Slice0.lean ====
section
/-! SUPPORT. Tests of the model's own reading: for every clause of the statements a state and operands that meet its
hypotheses, with what the one step then shows there; and ill-formed commands that the checks refuse. -/
namespace Sys2Proof.Machine

set_option maxRecDepth 20000
set_option Elab.async false

/-- Every domain on, in a mode, with further registers, in rising order above 0x1_0008. -/
def tOn (m : Mode) (r : Table Word := []) : State :=
  { State.reset with regs := [(0x10, BitVec.ofNat 32 (m.code * 17)), (0x1_0000, 0xFFFF_FFFF), (0x1_0004, 0xFFFF_FFFF),
                              (0x1_0008, 0xFFFF)] ++ r }

/-- The command answers a next state that passes a check. -/
def tGot (c : Instr) (s : State) (p : State → Bool) : Bool :=
  match exec c s with
  | .next t => p t
  | .fault _ | .refused _ => false

theorem test_reset_canonical : State.reset.canonical = true := by decide


/-! ### Well-formedness: for each check an ill-formed command that it refuses, and well-formed ones at the boundary -/

theorem test_wf_access : [Instr.registerWrite (.host 0 512) (.pf0 0 0) 32 0, .registerWrite .lk (.internal (2 ^ 32)) 32 0, .registerWrite .lk (.internal 0) 24 0,
    .registerWrite .lk (.internal 0) 8 0x100, .registerWrite .lk (.pf0 0 (2 ^ 32)) 32 0, .registerWrite .lk (.vf 0 (2 ^ 32)) 32 0, .registerWrite .lk (.core 0 (2 ^ 48)) 32 0,
    .aliasSetWrite .lk (.internal 0) 16 0x1_0000, .aliasClearWrite .lk (.internal 0) 128 0, .aliasToggleWrite .lk (.internal (2 ^ 32)) 32 0,
    .slowAccessCrossed (.host 0 512), .slowAccessTimeout (.host 0 512), .coreBusAccess 0 (2 ^ 48) 1 none, .coreBusAccess 0 0 0 none, .coreBusAccess 0 0 2 (some [1])].all
      (fun c => !c.wf) = true ∧
    [Instr.registerWrite (.host 15 511) (.pf0 0 (2 ^ 32 - 1)) 64 (2 ^ 64 - 1), .registerWrite .lk (.internal 0) 8 0xFF, .coreBusAccess 0 (2 ^ 48 - 1) 1 (some [1])].all Instr.wf = true := by
  decide +kernel

theorem test_wf_events : [Instr.paceMeterUpdate [(0, 65536)], .tjReading (List.replicate 31 0), .progressHeader (.core 0) 101, .functionReady 0 512, .moduleInserted 0 256,
    .hostLinkUp 0 0 3 true, .hostLinkRateChange 0 0 0, .hostMemoryRequest 0 (.read 512 0 0 4), .hostMemoryRequest 0 (.read 0 6 0 4), .hostMemoryRequest 0 (.read 0 0 (2 ^ 64) 4),
    .hostMemoryRequest 0 (.read 0 0 0 0), .hostMemoryRequest 0 (.read 0 0 0 4097), .hostMemoryRequest 0 (.write 0 0 0 [] false), .hostMemoryRequest 0 (.write 512 0 0 [1] false),
    .hostMemoryRequest 0 (.noBar 512), .hostMemoryRequest 0 (.cfgRead 512 .ids), .hostMemoryRequest 0 (.cfgWrite 0 (.numVFs 65536)), .completionTimeout 0 (2 ^ 14) [],
    .dmaCompletion 0 (2 ^ 14) [] .ok, .busMasterEnable 0 512 true, .d3hotToD0 0 512, .flrInitiate 0 512, .flrDone 0 512, .atsInvalidate 0 512 0, .atsInvalidate 0 0 (2 ^ 52),
    .ptmResponse 0 (2 ^ 64), .todInputMessage 0 (List.replicate 256 0)].all (fun c => !c.wf) = true ∧
    [Instr.tjReading (List.replicate 32 0), .progressHeader (.core 0) 100, .hostLinkUp 0 0 16 true, .hostMemoryRequest 0 (.read 511 5 (2 ^ 64 - 1) 4096)].all Instr.wf = true := by
  decide +kernel

theorem test_wf_storage : [Instr.nvmeSqDoorbell 0 65536 0, .nvmeCqDoorbell 0 65536 0, .nvmeFlush 0 65536 .timeout, .nvmeWrite 0 65536 .timeout [] [], .nvmeRead 0 65536 .timeout [],
    .nvmeWriteZeroes 0 65536 .timeout, .nvmeDatasetManagement 0 65536 .timeout [] [], .ledgerRecompute 65536 0, .ledgerRecompute 0 65536, .conduitDataRx 0 65536 0 0 [],
    .conduitDataRx 0 0 (2 ^ 32) 0 [], .conduitAckRx 0 65536 0, .conduitAckRx 0 0 (2 ^ 32), .conduitNakRx 0 65536, .reservoirRequest 0 (24 * 2 ^ 30) none false false .good .unused,
    .reservoirRequest 0 0 (some []) false false .good .unused, .hopFree .mover (2 ^ 48), .kcuClaim [0, 0]].all (fun c => !c.wf) = true ∧
    [Instr.reservoirRequest 0 (24 * 2 ^ 30 - 64) (some (fit 64 [])) false false .good .unused, .kcuClaim [2, 0]].all Instr.wf = true := by decide +kernel

theorem test_wf_spdm : [Instr.getCapabilities none 256, .negotiateAlgorithms none 256 true true, .getDigests none 256, .getCertificate none 256 0 0 0, .getCertificate none 0 256 0 0,
    .getCertificate none 0 0 65536 0, .getCertificate none 0 0 0 65536, .challenge none 0x12 0 [], .challenge none 256 0 (fit 32 []), .challenge none 0x12 256 (fit 32 []),
    .getMeasurements none 256 0 true (fit 32 []), .getMeasurements none 0x12 256 true (fit 32 []), .getMeasurements none 0x12 0 true []].all (fun c => !c.wf) = true ∧
    (Instr.challenge none 0x12 0 (fit 32 [])).wf = true := by decide +kernel

/-- Frames and payloads that are too long. -/
theorem test_wf_lengths : (Instr.frameReceive 0 (List.replicate 65536 0) false false).wf = false ∧ (Instr.packetParse 0 (some (List.replicate 65536 0)) []).wf = false ∧
    (Instr.hostMemoryRequest 0 (.write 0 0 0 (List.replicate 4097 0) false)).wf = false := by
  simp only [Instr.wf, HostReq.wf, fits, Option.all, List.length_replicate]
  decide
/-! ### Pace, power and temperature (chapter 2) -/

theorem wit_meter : metered 28 = true ∧ (tOn .flowing).domOn 28 = true ∧ (tOn .flowing).flag (meterBase 28) R.PACE_METER_CAL = false ∧
    tGot (.paceMeterUpdate [(28, 3000)]) (tOn .flowing) (fun t => t.rd (meterBase 28) R.PACE_METER_PACE = 3000
      && bitOf (t.view (B.PACE + R.PACE_FLAGS_BELOW_LR.off)) 0 && !t.due Tm.meters 500) = true ∧
    tGot (.paceMeterCalibration 1) (tOn .flowing) (fun t => t.flag (meterBase 1) R.PACE_METER_CAL) = true := by decide

theorem wit_meter_held : ((tOn .flowing).wrB (meterBase 1) R.PACE_METER_CAL true).flag (meterBase 1) R.PACE_METER_CAL = true ∧
    tGot (.paceMeterUpdate [(1, 3000)]) ((tOn .flowing).wrB (meterBase 1) R.PACE_METER_CAL true)
      (fun t => t.rd (meterBase 1) R.PACE_METER_PACE = 0) = true ∧
    tGot (.paceCalibrationDone 1) ((tOn .flowing).wrB (meterBase 1) R.PACE_METER_CAL true)
      (fun t => !t.flag (meterBase 1) R.PACE_METER_CAL && !t.bgOverdue 7) = true := by decide

/-- Two commands in a row have not been acknowledged; the last one that was asked for 750 mV. -/
def tNack (n : Nat) : State := { tOn .flowing with gov := { Gov.init with nacks := n, lastAck := 750 } }

theorem wit_avs_nack : (tNack 1).gov.nacks ≠ 2 ∧ (tNack 2).mild 5 ∧
    tGot .avsCommandUnacknowledged (tNack 1) (fun t => t.gov.nacks = 2) = true ∧
    tGot .avsCommandUnacknowledged (tNack 2) (fun t => t.flag B.PACE R.PACE_FLAGS_AVS_LOST && t.sticky 5
      && t.rd B.PACE R.PACE_STATUS_VREQ = 750 && t.mode = .flowing) = true := by decide

theorem wit_avs_resend : ((tNack 3).wrB B.PACE R.PACE_FLAGS_AVS_LOST true).flag B.PACE R.PACE_FLAGS_AVS_LOST = true ∧
    tGot (.avsResend false) ((tNack 3).wrB B.PACE R.PACE_FLAGS_AVS_LOST true) (fun t => t.out = [.avs 750]
      && t.flag B.PACE R.PACE_FLAGS_AVS_LOST) = true ∧
    tGot (.avsResend true) ((tNack 3).wrB B.PACE R.PACE_FLAGS_AVS_LOST true) (fun t => t.out = [.avs 750]
      && !t.flag B.PACE R.PACE_FLAGS_AVS_LOST && t.gov.nacks = 0) = true := by decide

/-- VCORE at 800 mV. -/
def tVreq : State := (tOn .flowing).wr B.PACE R.PACE_STATUS_VREQ 800

theorem wit_power : tVreq.flag B.PWR R.PWR_BUS_STAT_PMB0_LOST = false ∧ tVreq.mode ≠ .priming ∧
    tGot (.powerReading 8750) { tVreq with gov := { Gov.init with credit := 1000000 } } (fun t =>
      t.rd B.PWR R.PWR_POWER_POWER = 700000 && t.gov.credit = 900000 && t.rd B.PWR R.PWR_SURGE_ABOVE = 1 && !t.gov.backoff) = true ∧
    tGot (.powerReading 7500) { tVreq with gov := { Gov.init with credit := 1000000 } } (fun t =>
      t.rd B.PWR R.PWR_POWER_POWER = 600000 && t.gov.credit = 1000000 && t.rd B.PWR R.PWR_SURGE_ABOVE = 0) = true ∧
    tGot (.powerReading 8751) tVreq (fun t => t.gov.backoff) = true := by decide

theorem wit_tj : (tOn .flowing).gov.above115 = 0 ∧
    tGot (.tjReading [60, 116, -5]) (tOn .flowing) (fun t => t.rd B.PWR R.PWR_TJ_TJ = 116 && t.gov.above115 = 1
      && t.mode = .flowing) = true := by decide

theorem wit_tj_forced : { (tOn .flowing).wrB B.DEV R.DEV_MODE_BUSY true with gov := { Gov.init with above115 := 1 } }.busy = true ∧
    tGot (.tjReading [124, 60]) { (tOn .flowing).wrB B.DEV R.DEV_MODE_BUSY true with gov := { Gov.init with above115 := 1 } }
      (fun t => t.modes.forced && t.sticky 4 && t.modes.waiting = [.trickle]) = true := by decide

/-- Every pipeline's pace is 2,000 M tokens/s, below the target of 3,100, or 3,200 above it. -/
def tPace (p : Nat) : State := paceDomains.foldl (fun s d => s.wr (meterBase d) R.PACE_METER_PACE p) tVreq

theorem wit_governor : (tPace 2000).loopRuns = true ∧ (tPace 2000).paceMin = some 2000 ∧ (tPace 2000).policy.cap = none ∧
    (tPace 2000).rd B.PACE R.PACE_VLIMIT_VMIN ≤ 800 ∧ 800 + 5 ≤ (tPace 2000).vCeil ∧
    tGot (.governorLoopStep 2 true) (tPace 2000) (fun t => t.out = [.avs 803] && t.gov.lastAck = 803) = true ∧
    2000 < (tPace 2000).paceTarget (tPace 2000).policy ∧ (tPace 2000).due Tm.governor 500 = true ∧
    101 * (tPace 3200).paceTarget (tPace 3200).policy < 100 * 3200 ∧ (tPace 3200).paceMin = some 3200 ∧
    (tPace 3110).paceTarget (tPace 3110).policy = 3100 ∧ (tPace 3110).paceMin = some 3110 := by decide

theorem wit_governor_off : (tOn .fallow).mayRequest = false ∧ (tOn .drain).mayRequest = true ∧
    tGot (.governorLoopStep 2 false) (tOn .fallow) (fun t => t.rd B.PACE R.PACE_STATUS_VREQ = 0 && t.out = []) = true ∧
    tGot (.governorLoopStep 2 false) ((tOn .drain).wr B.PACE R.PACE_STATUS_VREQ 726) (fun t => t.out = [.avs 721]) = true := by decide

/-- Priming, with PD53 and PD25 to be switched on. -/
def tPower : State := { (tOn .priming).setReg 0x1_0000 1 |>.setReg 0x1_0004 0 |>.setReg 0x1_0008 0 with
  modes := { ModeSt.init with toPower := [53, 25] } }

theorem wit_power_good : tPower.needsOn 53 = true ∧ needs tPower 25 = [0] ∧ tPower.domOn 0 = true ∧ tPower.sev 28 ≠ 4 ∧ tPower.domainLate 53 = false ∧
    [6, 14, 272, 274].all (fun n => tPower.sev n ≠ 4) = true ∧
    tGot (.domainPowerGood 53) tPower (fun t => t.domOn 53 && t.modes.toPower = [25] && t.mode = .priming && !t.domOn 25) = true := by
  decide


theorem wit_surge_end : tGot (.powerReading 8750) { tVreq with gov := { Gov.init with credit := 100000 } } (fun t =>
      t.gov.surgeEnd && t.gov.credit = 0 && t.flag B.PACE R.PACE_FLAGS_CAPPED) = true ∧
    tGot (.powerReading 8750) ({ tVreq with gov := { Gov.init with credit := 40000000 } }.wr B.PWR R.PWR_SURGE_ABOVE 399)
      (fun t => t.gov.surgeEnd) = true := by decide

/-- The same, 51 µs after the switch-on of PD53 began. -/
def tPowerLate : State := { tPower.stamp Tm.domain with now := 50001 }

theorem wit_power_late : tPowerLate.domainLate 53 = true ∧
    tGot (.domainPowerGood 53) tPowerLate (fun t => !t.domOn 53 && t.modes.toPower = [25] && t.modes.stepFault && t.sticky 6) = true := by
  decide
/-! ### Registers (chapter 3) -/

theorem wit_register_write : (tOn .flowing).domOn 0 = true ∧ (tOn .flowing).waitingOf .lk = [] ∧
    tGot (.registerWrite .lk (.internal 0x2_0008) 32 0x03E8_0065) (tOn .flowing) (fun t => t.reply = .ok &&
      t.rd B.PACE R.PACE_FOLLOW_FLOOR = 1000 && t.rd B.PACE R.PACE_FOLLOW_HEADROOM = 25) = true := by decide

theorem wit_register_write_refused : tGot (.registerWrite .silo (.internal 0x2_0009) 32 1) (tOn .flowing)
    (fun t => t = { tOn .flowing with reply := .busError }) = true := by decide

theorem wit_register_write_slow :
    (tOn .survey).granted .lk ⟨0x50_0010, .write⟩ .write 32 5 = true ∧ keyDom 0x50_0010 ≠ 0 ∧
    tGot (.registerWrite .lk (.internal 0x50_0010) 32 5) (tOn .survey) (fun t => t.cross.length = 1) = true := by decide

theorem wit_alias_set : (tOn .flowing).domOn 0 = true ∧ (tOn .flowing).waitingOf .lk = [] ∧
    tGot (.aliasSetWrite .lk (.internal 0x2_0000) 32 2) (tOn .flowing)
      (fun t => t.rd B.PACE R.PACE_CTRL_POLICY = 2 && t.reply = .ok) = true ∧
    tGot (.aliasSetWrite .lk (.internal 0x2_0000) 32 4) (tOn .flowing)
      (fun t => t = { tOn .flowing with reply := .busError }) = true := by decide

theorem wit_alias_toggle : tGot (.aliasToggleWrite .lk (.internal 0x2_0000) 32 3) (tOn .flowing [(0x2_0000, 2)])
      (fun t => t.rd B.PACE R.PACE_CTRL_POLICY = 1) = true ∧
    tGot (.aliasToggleWrite .lk (.internal 0x2_0000) 32 3) (tOn .flowing)
      (fun t => t.rd B.PACE R.PACE_CTRL_POLICY = 0 && t.reply = .ok) = true := by decide

theorem wit_alias_clear : tGot (.aliasClearWrite .lk (.internal 0x2_0000) 32 3) (tOn .flowing [(0x2_0000, 2)])
      (fun t => t.rd B.PACE R.PACE_CTRL_POLICY = 0 && t.reply = .ok) = true := by decide

/-- A state with one crossing of the Lockkeeper. -/
def tCross (k : AccKind) : State := { tOn .flowing with cross := [⟨.lk, 0x50_0010, k, 32, 7, true, 0, false⟩] }

theorem wit_slow_crossed : (tCross .read).domOn (keyDom 0x50_0010) = true ∧
    tGot (.slowAccessCrossed .lk) (tCross .read) (fun t => t.cross = [] && t.reply ≠ .busError) = true := by decide

theorem wit_slow_crossed_off : ((tCross .read).setDom 73 false).domOn (keyDom 0x50_0010) = false ∧
    tGot (.slowAccessCrossed .lk) ((tCross .read).setDom 73 false) (fun t => t.cross = [] && t.reply = .busError) = true := by
  decide

theorem wit_slow_timeout : (tCross .write).mild 8 ∧
    tGot (.slowAccessTimeout .lk) { tCross .write with now := 3999 } (fun t => t.cross.length = 1) = true ∧
    tGot (.slowAccessTimeout .lk) { tCross .write with now := 4000 } (fun t => t.cross = [] && t.reply = .busError && t.sticky 8) = true := by
  decide

theorem wit_wide_sel : tGot (.wideSelWrite none 0x3_2000) (tOn .flowing) (fun t => t.reply = .ok &&
      t.flag B.DEV R.WIDE_STAT_ERR = (tOn .flowing |>.widePair none 0x3_2000).isNone) = true ∧
    tGot (.wideSelWrite none 0x3_2004) (tOn .flowing) (fun t => t.flag B.DEV R.WIDE_STAT_ERR) = true := by decide

/-- WIDE_SEL names the counter of fault messages, which is 5. -/
def tWide : State := { tOn .flowing with
  regs := (0x10, 0x22) :: (0x40, BitVec.ofNat 32 (B.FLT + C.FLT_MSGS)) :: (tOn .flowing).regs.drop 1,
  cnts := [(B.FLT + C.FLT_MSGS, 5)] }

theorem wit_wide_latch : tWide.flag B.DEV R.WIDE_STAT_VALID = false ∧ tWide.flag B.DEV R.WIDE_STAT_ERR = false ∧
    tWide.widePair none (tWide.rd B.DEV R.WIDE_SEL_ADDR) = some (B.FLT + C.FLT_MSGS) ∧
    tGot (.wideLatchDone none) tWide (fun t => t.reg (B.DEV + R.WIDE_LO_LO.off) = 5 && t.flag B.DEV R.WIDE_STAT_VALID) = true := by
  decide

theorem wit_pace_vlimit : (tOn .flowing).flag B.PACE R.PACE_LOCK_VLOCK = false ∧
    tGot (.paceVlimitWrite 0x02F0_0280) (tOn .flowing) (fun t => t.rd B.PACE R.PACE_VLIMIT_VMAX = 0x2F0
      && t.rd B.PACE R.PACE_VLIMIT_VMIN = 0x280) = true ∧
    tGot (.paceVlimitWrite 0x0280_02F0) (tOn .flowing) (fun t => t.rd B.PACE R.PACE_VLIMIT_VMAX = 860
      && t.rd B.PACE R.PACE_VLIMIT_VMIN = 580) = true ∧
    tGot (.paceVlimitWrite 0x0100_02F0) (tOn .flowing) (fun t => t.rd B.PACE R.PACE_VLIMIT_VMAX = 860
      && t.rd B.PACE R.PACE_VLIMIT_VMIN = 0x2F0) = true := by decide

theorem wit_lock_bit : (tOn .flowing).flag B.TIME R.TIME_LOCK_HLOCK = false ∧
    tGot (.lockBitWrite .hlock 1) (tOn .flowing) (fun t => t.flag B.TIME R.TIME_LOCK_HLOCK && t.reply = .ok) = true ∧
    tGot (.lockBitWrite .lclock 1) (tOn .flowing) (fun t => t.flag B.SEC R.SEC_LOCK_LCLOCK && t.reply = .ok) = true ∧
    tGot (.lockBitWrite .clock 1) (tOn .flowing) (fun t => t.flag B.CIST R.CIST_LOCK_CLOCK && t.reply = .ok) = true ∧
    tGot (.lockBitWrite .vlock 1) (tOn .flowing) (fun t => t.flag B.PACE R.PACE_LOCK_VLOCK && t.reply = .ok) = true := by decide

theorem wit_core_load : (tOn .flowing).domOn 72 = true ∧
    tGot (.coreBusAccess 31 0xFFFF 1 none) (tOn .flowing) (fun t => t.reply = .bytes [0]) = true := by decide +kernel

theorem wit_core_store : { tOn .flowing with image := { Image.blank with coreMem := 4 } }.domOn 69 = true ∧
    tGot (.coreBusAccess 0 0x4_0000_0000 0 (some [1, 2, 3, 4])) { tOn .flowing with image := { Image.blank with coreMem := 4 } }
      (fun t => t.reply = .ok && bytesAt t.mem B.CMEM 4 = [1, 2, 3, 4]) = true := by decide

/-! ### Mailboxes and device commands (chapter 3) -/

/-- A tag that holds a command. -/
def tHold (q : Req) (o : Nat) (args : List Byte) (s : State) : State :=
  s.setTag q { TagSt.idle with cur := some ⟨o, reqTag q, 1, false, 1, args.length, args, 0⟩, last := some (1, 1) }

/-- The command has ended with a status and data. -/
def tEnd (q : Req) (st : Nat) (data : List Byte) (t : State) : Bool :=
  (t.tag q).cur = none && (t.tag q).fin.map (fun f => (f.status, f.data)) = some (st, data)

/-- Link 0 is up, its PF0 ready, its mailbox ready with a result base, and tag 3's slot holds DEV_ECHO with two bytes. -/
def tHost (m : Mode := .flowing) : State :=
  let s := tOn m [(0x80_0008, BitVec.ofNat 32 (2 ^ R.HPT_LINK_LINK_UP.lo)), (0xC0_0008, 0x1_0001), (0xC0_0010, 0x1001)]
  { s.setFn 0 0 { Fn.init with mse := true, bme := true, ready := true } with
    mem := [(0xC0_1300, 0x80), (0xC0_1301, 0x03), (0xC0_1302, 0x02), (0xC0_1303, 0x01), (0xC0_1304, 2), (0xC0_1306, 1),
            (0xC0_1308, 0xAB), (0xC0_1309, 0xCD)] }

theorem wit_doorbell : (tHost).answers 0 0 = true ∧ (tHost).flag (B.LKP 0) R.LKP_HMB_STATUS_READY = true ∧
    (tHost).flag (B.LKP 0) R.LKP_HMB_STATUS_NORES = false ∧
    (tHost).doorbellStatus (.host 0 3) (Cmd.ofSlot (bytesAt (tHost).mem 0xC0_1300 256)) = none ∧
    tGot (.mailboxDoorbell 0 3) (tHost) (fun t => (t.tag (.host 0 3)).cur.map (·.opcode) = some 0x0102
      && (t.tag (.host 0 3)).last = some (1, 1) && t.reg 0xC0_0024 = 8) = true := by decide

theorem wit_doorbell_ignored : (tHost.wrB (B.LKP 0) R.LKP_HMB_STATUS_READY false).answers 0 0 = true ∧
    tGot (.mailboxDoorbell 0 3) (tHost.wrB (B.LKP 0) R.LKP_HMB_STATUS_READY false)
      (fun t => t.flag (B.LKP 0) R.LKP_HMB_STATUS_DB_IGNORED) = true := by decide

theorem wit_doorbell_busy : tGot (.mailboxDoorbell 0 3) (tHold (.host 0 3) 0x0102 [] tHost)
      (fun t => t = tHold (.host 0 3) 0x0102 [] tHost) = true ∧
    tGot (.mailboxDoorbell 0 3) ((tHost).setTag (.host 0 3) { TagSt.idle with cur := some ⟨0x0102, 3, 0, false, 1, 0, [], 0⟩ })
      (fun t => t.flag (B.LKP 0) R.LKP_HMB_STATUS_TAG_BUSY_ERR) = true := by decide

theorem wit_doorbell_duplicate :
    tGot (.mailboxDoorbell 0 3) ((tHost).setTag (.host 0 3) { TagSt.idle with last := some (1, 1), fin := some ⟨0, 0, 0, [5]⟩ })
      (fun t => t.out.length = 4 && t.out[3]? = some (.write 0 0 0x1300 [0xE4, 0x03, 0x70, 0x00])) = true := by decide

theorem wit_doorbell_old : tGot (.mailboxDoorbell 0 3) ((tHost).wr (B.LKP 0) R.LKP_HMB_STATUS_MGEN 2)
      (tEnd (.host 0 3) 0x60 []) = true := by decide

/-- Core 0's mailbox is ready and its slot holds DEV_CAPS. -/
def tCore : State := { tOn .flowing [(B.CMB 0 + 0x204, 0x1_0001)] with
  mem := [(B.CMB 0 + 2, 0x01), (B.CMB 0 + 3, 0x01), (B.CMB 0 + 6, 1)] }

theorem wit_core_doorbell : tCore.domOn 69 = true ∧ tCore.flag (B.CMB 0) ⟨0x204, 0, 0⟩ = true ∧
    (tCore.tag (.core 0)).cur = none ∧
    tGot (.coreMailboxDoorbell 0) tCore (fun t => (t.tag (.core 0)).cur.map (·.opcode) = some 0x0101) = true := by decide

theorem wit_progress : ((tHold (.host 0 3) 0x0102 [] tHost).tag (.host 0 3)).cur.isSome = true ∧ (tHost).linkUp 0 = true ∧
    tGot (.progressHeader (.host 0 3) 200) (tHold (.host 0 3) 0x0102 [] tHost)
      (fun t => t.out = [.write 0 0 0x1300 [0xE4, 3, 1, 0]]) = true ∧
    tGot (.progressHeader (.core 0) 7) (tHold (.core 0) 0x0102 [] tCore)
      (fun t => bytesAt t.mem (B.CMB 0 + 0x100) 4 = [0x87, 0, 1, 0]) = true := by decide

theorem wit_resbase : (tHost).answers 0 0 = true ∧ (tHost).reg (B.LKP 0 + R.LKP_HMB_INFLIGHT_TAGS.off) = 0 ∧
    tGot (.resbaseWrite 0 (some 0x5000) (some 7)) tHost (fun t => t.reg 0xC0_0010 = 0x5000 && t.reg 0xC0_0014 = 7
      && t.flag (B.LKP 0) R.LKP_HMB_STATUS_NORES) = true ∧
    tGot (.resbaseWrite 0 (some 0x5001) none) (tHost.wr (B.LKP 0) R.LKP_HMB_INFLIGHT_TAGS 1)
      (fun t => t.pair 0xC0_0010 = 0x1001) = true := by decide

theorem wit_old_settled : tGot (.oldCommandSettled (.host 0 3) false)
      ((tHost).setTag (.host 0 3) { TagSt.idle with old := some ⟨1, none, 0x0102⟩ })
      (fun t => (t.tag (.host 0 3)).old = some ⟨1, some (0x60, 0), 0x0102⟩) = true := by decide

theorem wit_dev_echo : (tHold (.host 0 3) 0x0102 [1, 2] tHost).holds (.host 0 3) 0x0102 ⟨0x0102, 3, 1, false, 1, 2, [1, 2], 0⟩ ∧
    tGot (.devEcho (.host 0 3)) (tHold (.host 0 3) 0x0102 [1, 2] tHost) (tEnd (.host 0 3) 0 [1, 2]) = true ∧
    tGot (.devEcho (.core 5)) (tHold (.core 5) 0x0102 [1, 2] tHost) (tEnd (.core 5) 0 [1, 2]) = true := by decide

/-- The commands whose data is opaque end with it. -/
theorem wit_dev_opaque (q : Req) (h : q = .host 0 3) :
    (tHold q 0x0100 [] tHost).holds q 0x0100 ⟨0x0100, 3, 1, false, 1, 0, [], 0⟩ ∧
    (tHold q 0x0101 [] tHost).holds q 0x0101 ⟨0x0101, 3, 1, false, 1, 0, [], 0⟩ ∧
    (tHold q 0x0106 [] tHost).holds q 0x0106 ⟨0x0106, 3, 1, false, 1, 0, [], 0⟩ := by subst h; decide

theorem wit_dev_cmd_status :
    tGot (.devCmdStatus (.host 0 3)) ((tHold (.host 0 3) 0x0103 [4, 0, 1, 0] tHost).setTag (.host 0 4)
      { TagSt.idle with last := some (0, 1), fin := some ⟨0x12, 0x12, 0, []⟩ }) (tEnd (.host 0 3) 0 [0x12, 0, 0]) = true := by decide

theorem wit_dev_reg_read :
    tGot (.devRegRead (.host 0 3)) (tHold (.host 0 3) 0x0104 [4, 0, 2, 0, 2] tHost)
      (tEnd (.host 0 3) 0 [0x1C, 0x0C, 0, 0, 0x19, 0, 0x98, 0x08]) = true ∧
    tGot (.devRegRead (.host 0 3)) (tHold (.host 0 3) 0x0104 [4, 0, 7, 0, 1] tHost) (tEnd (.host 0 3) 0x30 []) = true := by decide

theorem wit_dev_reg_write :
    tGot (.devRegWrite (.host 0 3)) (tHold (.host 0 3) 0x0105 [4, 0, 2, 0, 0xE8, 3, 0, 0, 0xFF, 0xFF, 0, 0] (tHost .survey))
      (fun t => tEnd (.host 0 3) 0 [] t && t.rd B.PACE R.PACE_TARGET_TARGET = 1000) = true ∧
    tGot (.devRegWrite (.host 0 3)) (tHold (.host 0 3) 0x0105 [0, 0, 8, 0, 0, 0, 0, 0, 1, 0, 0, 0] (tHost .survey))
      (tEnd (.host 0 3) 0x30 []) = true := by decide

/-- A write to a register with a row of its own does what the row does: a kick of the watchdog here. -/
theorem test_dev_reg_write_row :
    tGot (.devRegWrite (.host 0 3)) (tHold (.host 0 3) 0x0105 [0x24, 0, 3, 0, 0xA5, 0, 0, 0, 0xFF, 0, 0, 0]
      { tHost .survey with now := 77 }) (fun t => tEnd (.host 0 3) 0 [] t && t.flt.kickAt = 77) = true := by decide

/-! ### Modes, start-up and resets (chapter 4) -/

theorem wit_mode_get : tGot (.modeGet (.host 0 3)) (tHold (.host 0 3) 0x0700 [] tHost)
    (tEnd (.host 0 3) 0 [0x22, 0, 0, 0, 1, 0, 0, 0, 0, 0, 0, 0]) = true := by decide

/-- MODE_SET to a code. -/
def tSet (k : Nat) (s : State) : State := tHold (.host 0 3) 0x0701 [BitVec.ofNat 8 k] s

theorem wit_mode_set_end :
    tGot (.modeSet (.host 0 3)) (tSet 4 tHost) (tEnd (.host 0 3) 0x12 []) = true ∧
    tGot (.modeSet (.host 0 3)) (tSet 3 (tHost.wrB B.DEV R.DEV_MODE_BUSY true)) (tEnd (.host 0 3) 0x50 []) = true ∧
    tGot (.modeSet (.host 0 3)) (tSet 2 tHost) (tEnd (.host 0 3) 0 []) = true ∧
    tGot (.modeSet (.host 0 3)) (tSet 3 (tHost .survey)) (tEnd (.host 0 3) 0x12 []) = true ∧
    tGot (.modeSet (.host 0 3)) (tSet 5 tHost) (tEnd (.host 0 3) 0x30 []) = true ∧
    tGot (.modeSet (.host 0 3)) (tSet 2 (tHost .trickle)) (tEnd (.host 0 3) 0x30 [2]) = true ∧
    tGot (.modeSet (.host 0 3)) (tSet 3 (tHost.wr B.SEC R.SEC_LC_STATE 4)) (tEnd (.host 0 3) 0x30 []) = true ∧
    tGot (.modeSet (.host 0 3)) (tSet 2 { tHost .priming with modes := { ModeSt.init with stepFault := true } })
      (tEnd (.host 0 3) 0x30 [0x10]) = true := by decide

/-- The retry time is free, so the test stops before it: the conditions hold. -/
theorem wit_mode_set_early : (tSet 2 { tHost .priming with modes := { ModeSt.init with steps := [(.load, .running)] } }).primingRuns = true ∧
    (tSet 2 { tHost .priming with modes := { ModeSt.init with steps := [(.load, .running)] } }).modes.stepFault = false ∧
    (tSet 2 { tHost .priming with modes := { ModeSt.init with steps := [(.load, .running)] } }).lcState ≠ 4 := by decide

theorem wit_mode_set_go :
    tGot (.modeSet (.host 0 3)) (tSet 3 tHost) (fun t => t.busy && t.rd B.DEV R.DEV_MODE_TARGET = 3 || t.mode = .trickle) = true ∧
    tGot (.modeSet (.host 0 3)) (tSet 5 { tHost.wrB B.SEC R.SEC_DEBUG_SURVEY true with
        silo := { SiloSt.init with cache := [⟨1, 0, [], .dirty, 1, true⟩] } })
      (fun t => t.busy && t.rd B.DEV R.DEV_MODE_TARGET = 5 && t.modes.fetchPaused && (t.tag (.host 0 3)).cur.isSome) = true := by
  decide +kernel

/-- In Priming, every domain that is on is configured. -/
def tFlow : State := tSet 2 { tHost .priming with image := { Image.blank with domains := 2 ^ 80 - 1 } }

theorem wit_mode_set_flow : tFlow.busy = false ∧ tFlow.primingRuns = false ∧ tFlow.configured 53 = true ∧ tFlow.cross = [] ∧
    tGot (.modeSet (.host 0 3)) tFlow (fun t => t.mode = .flowing && !t.busy && !t.domOn 79 && t.jobs = []
      && tEnd (.host 0 3) 0 [] t) = true := by decide +kernel

theorem wit_warm_reset : (tHold (.host 0 3) 0x0702 [] tHost).holds (.host 0 3) 0x0702 ⟨0x0702, 3, 1, false, 1, 0, [], 0⟩ ∧
    (tHost).busy = false ∧ (tHost).mode ∈ [Mode.priming, .flowing, .trickle, .survey] ∧ (tHost).modes.forced = false ∧
    tGot (.warmReset (.host 0 3)) (tHold (.host 0 3) 0x0702 [] (tHost .drain)) (tEnd (.host 0 3) 0 []) = true ∧
    tGot (.warmReset (.host 0 3)) (tHold (.host 0 3) 0x0702 [] (tHost.wrB B.DEV R.DEV_MODE_BUSY true))
      (fun t => tEnd (.host 0 3) 0 [] t && t.modes.waiting = [.warm false]) = true := by decide

theorem wit_domain_set : (∀ x ∈ (tHost .survey).cross, keyDom x.key ≠ 79) ∧
    tGot (.domainSet (.host 0 3)) (tHold (.host 0 3) 0x0703 [80, 0] (tHost .survey)) (tEnd (.host 0 3) 0x12 []) = true ∧ (tHost .survey).neededBy 79 = false ∧ (tHost .survey).carries 79 = false ∧
    tGot (.domainSet (.host 0 3)) (tHold (.host 0 3) 0x0703 [79, 0] (tHost .survey)) (fun t => !t.domOn 79 && tEnd (.host 0 3) 0 [] t) = true ∧
    tGot (.domainSet (.host 0 3)) (tHold (.host 0 3) 0x0703 [1, 1] (tHost .survey)) (tEnd (.host 0 3) 0 []) = true ∧
    tGot (.domainSet (.host 0 3)) (tHold (.host 0 3) 0x0703 [73, 0] (tHost .survey)) (fun t => t.domOn 73 && tEnd (.host 0 3) 0x12 [] t) = true ∧
    tGot (.domainSet (.host 0 3)) (tHold (.host 0 3) 0x0703 [1, 1] (((tHost .survey).setDom 1 false).setDom 73 false))
      (tEnd (.host 0 3) 0x12 []) = true ∧
    tGot (.domainSet (.host 0 3)) (tHold (.host 0 3) 0x0703 [1, 1] ((tHost .survey).setDom 1 false))
      (fun t => t.modes.toPower = [1] && t.jobs.length = 1) = true := by decide

theorem wit_gov_set :
    tGot (.govSet (.host 0 3)) (tHold (.host 0 3) 0x0704 [2, 0, 0xE8, 3, 0x48, 0xD, 100, 0, 250, 0] tHost)
      (fun t => tEnd (.host 0 3) 0 [] t && t.rd B.PACE R.PACE_CTRL_POLICY = 2 && t.rd B.PACE R.PACE_TARGET_TARGET = 1000
        && t.rd B.PACE R.PACE_FOLLOW_FLOOR = 3400 && t.rd B.PACE R.PACE_CAP_CAP = 250) = true ∧
    tGot (.govSet (.host 0 3)) (tHold (.host 0 3) 0x0704 [3, 0, 0xE8, 3, 0x48, 0xD, 100, 0, 250, 0] tHost)
      (tEnd (.host 0 3) 0x12 []) = true ∧
    tGot (.govSet (.host 0 3)) (tHold (.host 0 3) 0x0704 [2, 0, 0xE7, 3, 0x48, 0xD, 100, 0, 250, 0] tHost)
      (tEnd (.host 0 3) 0x12 []) = true ∧
    tGot (.govSet (.host 0 3)) (tHold (.host 0 3) 0x0704 [2, 0, 0xE8, 3, 0x48, 0xD, 100, 0, 0x59, 2] tHost)
      (tEnd (.host 0 3) 0x12 []) = true := by decide

/-- LG0 is configured, with ports 0 and 3 enabled, a lane each. -/
def tLg (m : Mode := .flowing) : State := { ((((tHost m).wr (B.ETH 0) R.ETH_LG_CFG_LAYOUT 0x55).wrB (portBase 0) R.ETH_PORT_CFG_EN true).wrB
  (portBase 3) R.ETH_PORT_CFG_EN true) with image := { Image.blank with domains := 2 ^ 29 + 1 } }

theorem wit_trickle_uplinks_in : tGot (.trickleUplinks (.host 0 3)) (tHold (.host 0 3) 0x0705 [1, 3] (tLg .trickle)) (fun t =>
    t.reg 0x1C = 0x103 && t.domOn 29 && !t.domOn 30 && tEnd (.host 0 3) 0 [] t) = true := by decide +kernel

theorem wit_trickle_uplinks : (tLg).uplinkOk 3 = true ∧ (tLg).uplinkOk 0 = true ∧ (tLg).uplinkOk 1 = false ∧ (tLg).uplinkOk 4 = false ∧
    tGot (.trickleUplinks (.host 0 3)) (tHold (.host 0 3) 0x0705 [0] (tLg)) (fun t => tEnd (.host 0 3) 0 [] t && t.reg 0x1C = 0) = true ∧
    tGot (.trickleUplinks (.host 0 3)) (tHold (.host 0 3) 0x0705 [1, 3] (tLg)) (fun t => t.reg 0x1C = 0x103) = true ∧
    tGot (.trickleUplinks (.host 0 3)) (tHold (.host 0 3) 0x0705 [2, 0, 3] (tLg)) (fun t => t.reg 0x1C = 0x103_0100) = true ∧
    tGot (.trickleUplinks (.host 0 3)) (tHold (.host 0 3) 0x0705 [1, 4] (tLg)) (tEnd (.host 0 3) 0x12 []) = true := by decide

theorem wit_pipe_reset :
    tGot (.pipeReset (.host 0 3)) (tHold (.host 0 3) 0x0706 [0, 15] tHost) (fun t => tEnd (.host 0 3) 0 [] t && t.domOn 16) = true ∧
    tGot (.pipeReset (.host 0 3)) (tHold (.host 0 3) 0x0706 [1, 7] tHost) (fun t => tEnd (.host 0 3) 0 [] t && t.domOn 24) = true ∧
    tGot (.pipeReset (.host 0 3)) (tHold (.host 0 3) 0x0706 [1, 8] tHost) (tEnd (.host 0 3) 0x12 []) = true ∧
    tGot (.pipeReset (.host 0 3)) (tHold (.host 0 3) 0x0706 [0, 15] (tHost.setDom 16 false)) (tEnd (.host 0 3) 0x12 []) = true := by
  decide

theorem wit_health_check : tGot (.healthCheck (.host 0 3)) (tHold (.host 0 3) 0x0707 [] tHost) (tEnd (.host 0 3) 0 [2]) = true := by
  decide

/-- Fallow, the Lockkeeper running and main power good. -/
def tFallow : State := { (tOn .fallow).setReg 0x1_0000 1 |>.setReg 0x1_0004 0 |>.setReg 0x1_0008 0 |>.wrB B.PWR R.PWR_PINS_MAIN_PG true
    |>.wrB B.PWR R.PWR_PINS_POWER_FAIL_N true with
  modes := { ModeSt.init with lkRunning := true }, image := { Image.blank with domains := 2 ^ 53 + 2 ^ 25 + 1 } }

theorem wit_priming_entry : tFallow.mayPrime = true ∧ (tOn .flowing).mayPrime = false ∧
    tGot .primingEntry tFallow (fun t => t.mode = .priming && t.modes.toPower = [53, 25, 79]
      && t.rd B.PACE R.PACE_STATUS_VREQ = 580 && t.out = [.avs 580]) = true ∧
    tGot .primingEntry (tFallow.wr B.PACE R.PACE_STATUS_VREQ 720) (fun t => t.rd B.PACE R.PACE_STATUS_VREQ = 720 && t.out = []) = true := by
  decide

/-- Priming with its steps so far. -/
def tSteps (l : List (Step × StepSt)) (s : State) : State := { s with modes := { s.modes with steps := l } }

/-- The calibration has run to the ceiling of 750 mV that the image sets. -/
def tCal : State := { tSteps [(.calibration, .running), (.marchTest, .waiting)] (tOn .priming) with
  gov := { Gov.init with calTable := [((tOn .priming).clampV (tOn .priming).vCeil, 2000)] } }

/-- The load began at 0, and its bound of 1 s has passed. -/
def tLate : State := { (tSteps [(.load, .running)] (tOn .priming)).stamp (Tm.step .load) with now := 1000000001 }

theorem wit_step_done : tCal.stepLate .calibration = false ∧ tGot (.primingStepDone .calibration true) tCal
      (fun t => t.modes.steps = [(.calibration, .done), (.marchTest, .running)]) = true ∧
    tGot (.primingStepDone .load false) (tSteps [(.load, .running)] (tOn .priming)) (fun t => t.modes.stepFault && t.sticky 6
      && t.mode = .priming && t.modes.steps = [(.load, .failed)]) = true ∧
    tGot (.primingStepTimeout .load) tLate (fun t => t.modes.stepFault && t.sticky 6) = true ∧
    tGot (.primingStepTimeout .load) { tLate with now := 1000000000 } (fun t => !t.modes.stepFault) = true ∧
    tGot (.primingStepTimeout .restore) (tSteps [(.restore, .running)] (tOn .priming)) (fun t => !t.modes.stepFault) = true := by decide

theorem wit_priming_complete : (tSteps [(.load, .done)] (tOn .priming)).lcState ≠ 4 ∧
    tGot .primingComplete (tSteps [(.load, .done)] (((tOn .priming).wrB B.DEV R.DEV_BOOT_CFG_AUTO_FLOW true).wr B.SEC R.SEC_LC_STATE 4))
      (fun t => t.mode = .priming) = true ∧
    tGot .primingComplete (tSteps [(.load, .done)] (tOn .priming [])) (fun t => t.mode = .priming) = true ∧
    tGot .primingComplete (tSteps [(.load, .done)] ((tOn .priming).wrB B.DEV R.DEV_BOOT_CFG_AUTO_FLOW true))
      (fun t => t.mode = .flowing && !t.domOn 79) = true ∧
    ((tOn .priming).wrB B.DEV R.DEV_BOOT_CFG_SURVEY true).surveyAtBoot = true ∧
    tGot .primingComplete (tSteps [(.load, .done)] ((tOn .priming).wrB B.DEV R.DEV_BOOT_CFG_SURVEY true))
      (fun t => t.mode = .survey && t.modes.fetchPaused) = true := by decide +kernel

theorem wit_main_pg : tGot .mainPgRise { tOn .fallow with now := 9 } (fun t => t.flag B.PWR R.PWR_PINS_MAIN_PG && t.modes.pgAt = some 9
    && t.flag B.PWR R.PWR_PINS_POWER_FAIL_N) = true := by decide

theorem wit_device_warm_reset : tGot (.deviceWarmReset .fatal) (tOn .trickle) (fun t => t.mode = .priming
    && t.flag B.DEV R.DEV_RESET_CAUSE_WARM_FATAL && !t.domOn 1 && t.domOn 65) = true ∧
    tGot (.deviceWarmReset .command) ((tOn .trickle).wrB B.DEV R.DEV_MODE_BUSY true) (fun t => t.modes.waiting = [.warm false]) = true ∧
    tGot (.deviceWarmReset .fatal) (tOn .drain) (fun t => t.modes.fatalAfter) = true := by decide +kernel

theorem wit_cold_reset : tGot (.coldReset .sysReset) ((tOn .flowing).wrB B.DEV R.DEV_MODE_LATCHED true) (fun t => t.mode = .fallow
    && t.latched && t.domOn 0 && !t.domOn 65 && t.flag B.DEV R.DEV_RESET_CAUSE_COLD) = true := by decide

/-- A dirty block in S0. -/
def tDirty : State := { (tOn .flowing).wrB B.PWR R.PWR_PINS_MAIN_PG true with
  silo := { SiloSt.init with cache := [⟨1, 0, [], .dirty, 1, true⟩] } }

theorem wit_sys_reset : tDirty.dirtyBlocks ≠ 0 ∧ tGot .sysResetLow tDirty (fun t => t.mode = .drain && t.modes.resetAfter
      && (List.range 80).all fun d => !t.domOn d || [0, 65, 74, 75].contains d) = true ∧
    tGot .sysResetLow { tDirty with silo := SiloSt.init } (fun t => t.mode = .fallow) = true := by decide +kernel

theorem wit_power_fail : (tOn .flowing).mode ∈ [Mode.priming, .flowing, .trickle, .survey] ∧
    tGot (.powerFail 1000) (tOn .flowing) (fun t => t.mode = .drain && t.modes.pfLowUntil = 1000 && !t.domOn 1) = true ∧
    tGot (.powerFail 1000) (tOn .drain) (fun t => t.mode = .drain) = true ∧
    tGot (.powerFail 199) (tOn .flowing) (fun t => t = tOn .flowing) = true ∧
    tGot (.powerFail 5000) (tOn .drain) (fun t => t.mode = .drain) = true := by decide +kernel


/-! ### Ethernet ports (chapter 5) -/

/-- Port 40 is a 200GbE port on lane 40, up, with a PORT_CFG; its counters are at zero. -/
def tPort (cfg : Nat) (m : Mode := .flowing) : State :=
  tOn m [(0x6A_0000, 0x301), (0x6A_0010, BitVec.ofNat 32 (2 ^ 31 + cfg)), (0x6A_0020, 1)]

/-- The same without FEC, at 25 Gb/s. -/
def tRx (cfg : Nat) (m : Mode := .flowing) : State :=
  tOn m [(0x6A_0000, 1), (0x6A_0010, BitVec.ofNat 32 (2 ^ 31 + 3 * 2 ^ 27 + cfg)), (0x6A_0020, 1)]

/-- A frame of 64 bytes: two addresses, an EtherType, the start of a payload, its FCS. -/
def tFrame (et : Nat) (pay : List Byte) (n : Nat := 60) : List Byte :=
  let b := fit n ([2, 0, 0, 0, 0, 1, 2, 0, 0, 0, 0, 2] ++ beBytes 2 et ++ pay)
  b ++ leBytes 4 (fcs b)

theorem wit_frame : (tRx 0x2400).portUp 40 = true ∧ (tRx 0x2400).flag B.PMC R.PMC_CTRL_FREEZE = false ∧
    fcsGood (tFrame 0x0800 []) = true ∧
    tGot (.frameReceive 40 (tFrame 0x0800 []) false false) (tRx 0x2400) (fun t => t.cnt (portCnt 40 C.ETH_RX_FRAMES) = 1
      && t.cnt (portCnt 40 C.ETH_RX_OCTETS) = 64 && (t.stage 6).cells = 1) = true := by decide +kernel

theorem wit_frame_dropped :
    tGot (.frameReceive 40 (tFrame 0x0800 []) true false) (tRx 0x2400) (fun t => t.cnt (portCnt 40 C.ETH_RX_PCS_ERR) = 1) = true ∧
    tGot (.frameReceive 40 (tFrame 0x0800 [] 59) false false) (tRx 0x2400) (fun t => t.cnt (portCnt 40 C.ETH_RX_RUNT) = 1) = true ∧
    tGot (.frameReceive 40 (fit 1518 []) false false) (tRx 1518) (fun t => t.cnt (portCnt 40 C.ETH_RX_FCS_ERR) = 1) = true ∧
    tGot (.frameReceive 40 (fit 1519 []) false false) (tRx 1518) (fun t => t.cnt (portCnt 40 C.ETH_RX_OVERSIZE) = 1) = true := by
  decide +kernel

theorem wit_frame_control :
    tGot (.frameReceive 40 (tFrame 0x8808 [1, 1, 0, 1, 0, 8]) false false) (tRx 0x2400)
      (fun t => t.cnt (portCnt 40 C.ETH_RX_CTRL_DROP) = 1) = true ∧
    tGot (.frameReceive 40 (tFrame 0x8808 [1, 1, 0, 1, 0, 8]) false false) (tRx (2 * 2 ^ 25 + 2 ^ 17 + 0x2400))
      (fun t => t.cnt (portCnt 40 C.ETH_RX_PAUSE) = 1 && tget (fun _ => 0) t.eth.pauseEnd 320 = 164) = true ∧
    tGot (.frameReceive 40 (tFrame 0x8808 [0, 1, 0, 8]) false false) (tRx (2 ^ 25 + 0x2400))
      (fun t => t.cnt (portCnt 40 C.ETH_RX_PAUSE) = 1 && tget (fun _ => 0) t.eth.pauseEnd 327 = 164) = true := by decide +kernel

theorem wit_frame_macsec : u16At (bodyOf (tFrame 0x0800 [])) 12 = 0x0800 ∧
    tGot (.frameReceive 40 (tFrame 0x0800 []) false false) (tRx (2 ^ 30 + 0x2400))
      (fun t => t.cnt (portCnt 40 C.ETH_RX_MACSEC_DROP) = 1) = true := by decide +kernel

theorem wit_frame_trickle : bitOf ((tRx 0x2400 .trickle).pfcMask 40) (frameClass (bodyOf (tFrame 0x0800 []))) = false ∧
    tGot (.frameReceive 40 (tFrame 0x0800 []) false true) (tRx 0x2400 .trickle)
      (fun t => t.cnt (portCnt 40 C.ETH_RX_LIMIT_DROP) = 1) = true := by decide +kernel

/-- The pause of class 3 of port 40 runs until 21 ns. -/
def tPaused (now : Nat) : State :=
  { tPort (2 * 2 ^ 25 + 2 ^ 20 + 0x2400) with now := now, eth := { EthSt.init with pauseEnd := [(323, 21)], xoffSent := [(40, 8)] } }

theorem wit_pause : tGot (.pauseExpiry 40 3) (tPaused 21) (fun t => t.eth.pauseEnd = []) = true ∧
    tGot (.pauseExpiry 40 3) (tPaused 20) (fun t => t = tPaused 20) = true ∧ (tPaused 20).portUp 40 = true ∧
    tGot (.pfcRepeat 40) (tPaused 20) (fun t => t.out = [.pause 40 8 0xFFFF] && t.cnt (portCnt 40 C.ETH_TX_PAUSE) = 1) = true ∧
    tGot (.pfcRepeat 40) ((tPaused 20).stamp (Tm.pause 40)) (fun t => t.out = []) = true ∧
    tGot (.pfcRepeat 40) (tPort 0x2400) (fun t => t = tPort 0x2400) = true := by decide

theorem wit_link_down : (tPort 0x2400).mild 216 ∧
    tGot (.linkDown 40 false false) { tPort 0x2400 with eth := { EthSt.init with txEnd := [(40, 9)] } }
      (fun t => t.cnt (portCnt 40 C.ETH_TX_ABORT) = 1 && t.out.contains (.abort 40) && t.eth.txEnd = []) = true ∧
    tGot (.linkDown 40 true false) (tPort 0x2400) (fun t => !t.portUp 40 && t.cnt (portCnt 40 C.ETH_LINK_DOWN) = 1 && t.sticky 216
      && t.flag (portBase 40) R.ETH_PORT_STATUS_REMOTE_FAULT && !t.flag (portBase 40) R.ETH_PORT_STATUS_HI_BER) = true := by decide

/-- Port 40 is down, with lanes 40 and 41 squelched; its cage holds a module, released or not. -/
def tDown (present released : Bool) : State :=
  { tOn .flowing [(0x6A_0000, 0x301), (0x6A_0010, 0x8000_2400), (0x6A_0060, 15), (0x6A_0064, BitVec.ofNat 32 (bit present))] with
    eth := { EthSt.init with squelched := [40, 41], released := if released then [10] else [], cages := if present then [(10, 16)] else [] } }

theorem wit_link_up : (tDown true true).portOn 40 = true ∧ (tDown true true).portUp 40 = false ∧
    (tDown true true).moduleOk 40 = true ∧ (tDown true true).due (Tm.unaligned 40) (ms 1) = true ∧
    tGot (.linkUp 40 true) { (tDown true true).stamp (Tm.unaligned 40) with now := 999999 } (fun t => !t.portUp 40) = true ∧
    tGot (.linkUp 40 true) { (tDown true true).stamp (Tm.unaligned 40) with now := 1000000 } (fun t => t.portUp 40) = true ∧
    tGot (.linkUp 40 true) (tDown true true) (fun t => t.portUp 40 && t.eth.squelched = [41]) = true ∧
    tGot (.linkUp 40 false) (tDown false false) (fun t => t.portUp 40) = true ∧
    tGot (.linkUp 40 true) (tDown true false) (fun t => t = tDown true false) = true := by decide

theorem wit_lane : tGot (.laneSignalLoss 41) (tDown true true) (fun t => t = tDown true true) = true ∧
    tGot (.laneSignalLoss 95) (tDown true true) (fun t => t.eth.squelched = [40, 41, 95]) = true := by decide

theorem wit_module : (tDown false false).domOn 39 = true ∧
    tGot (.moduleInserted 10 15) (tDown false false) (fun t => t.flag (B.ETH 10) R.ETH_MOD_STATUS_FEED_ON && t.eth.released = [10]) = true ∧
    tGot (.moduleInserted 10 16) (tDown false false) (fun t => t.eth.released = [] && t.sticky 218) = true ∧
    tGot (.moduleInserted 10 15) (tDown true false) (fun t => t = tDown true false) = true ∧
    tGot (.moduleRemoved 10) (tDown false false) (fun t => t = tDown false false) = true ∧
    tGot (.moduleRemoved 10) (tDown true true) (fun t => !t.flag (B.ETH 10) R.ETH_MOD_STATUS_PRESENT && t.eth.released = []) = true := by
  decide

theorem wit_module_faults : ((tDown true true).wrB (B.ETH 10) R.ETH_MOD_STATUS_FEED_ON true).sev 217 ≠ 4 ∧
    tGot (.moduleOvercurrent 10) ((tDown true true).wrB (B.ETH 10) R.ETH_MOD_STATUS_FEED_ON true)
      (fun t => !t.flag (B.ETH 10) R.ETH_MOD_STATUS_FEED_ON && t.flag (B.ETH 10) R.ETH_MOD_STATUS_TRIP && t.sticky 217) = true ∧
    tGot (.moduleI2cStuck 10 3) (tDown true true) (fun t => t.flag (B.ETH 10) R.ETH_MOD_STATUS_ISOLATED && t.sticky 217) = true ∧
    tGot (.moduleI2cStuck 10 2) (tDown true true) (fun t => t.out.length = 33 && !t.sticky 217) = true := by decide

/-! ### The Husker (chapter 6) -/

/-- A packet from port 40. -/
def tPkt (l : List Byte) : Pkt :=
  { data := l, org := .eth 40, time := 7, frac := 0, cls := 0, chain := 0, first := false, tsReq := false, launch := none }

/-- HR0 starts at node 1, an IPv4-like header of 20 bytes that ends the parse; a packet of n bytes is staged. -/
def tHusk (n : Nat) (m : Mode := .flowing) : State :=
  { tOn m [(0x18_0004, 1)] with
    micro := { Micro.blank with graph := [(1, 4 * 2 ^ 122 + 20 * 2 ^ 109)] },
    staging := [(0, { Staging.empty with pkts := [tPkt (fit n [0x45])], cells := 1 })] }

theorem wit_parse : (tHusk 60).domOn 1 = true ∧ (tHusk 60).roomAtG0 0 = true ∧ (tHusk 60).forwarding = true ∧
    ((tHusk 60).parse 0 (tPkt (fit 60 [0x45]))).code = 0 ∧ (tHusk 60).parseAction 0 0 ≠ 0 ∧
    tGot (.packetParse 0 none []) (tHusk 60) (fun t => t.cnt (B.HUSK 0 + C.HUSK_PARSED) = 1 && (t.stage 0).pkts = [] &&
      ((t.pipe 0).toks.map fun x => (Carry.srcNum x.carry, Carry.len x.carry, Carry.endCode x.carry, Carry.hcount x.carry)) =
        [(40, 64, 0, 1)] && ((t.pipe 0).toks.map (·.st)) = [.lane]) = true := by decide +kernel

theorem wit_parse_dropped : ((tHusk 19).parse 0 (tPkt (fit 19 [0x45]))).code = 2 ∧ (tHusk 19).parseAction 0 2 = 0 ∧
    tGot (.packetParse 0 none []) (tHusk 19) (fun t => t.cnt (B.HUSK 0 + C.HUSK_DROPPED) = 1
      && t.cnt (B.HUSK 0 + C.HUSK_END_TRUNC) = 1 && (t.pipe 0).toks = []) = true ∧
    tGot (.packetParse 1 none []) (tHusk 19) (fun t => t = tHusk 19) = true := by decide +kernel

/-- A header of 255 bytes runs beyond the window but not beyond the packet. -/
theorem wit_parse_window :
    (State.parse { tHusk 60 with micro := { Micro.blank with graph := [(1, 255 * 2 ^ 109)] } } 0 (tPkt (fit 255 [0x45]))).code = 1 := by
  decide +kernel

theorem wit_long_reach : tGot (.longReachSwitch 0) ((tHusk 60 .survey).wrB (B.HUSK 0) R.HUSK_CFG_LONG_REACH true)
      (fun t => t.lrActive 0 && t.window 0 = 1024) = true ∧
    tGot (.longReachSwitch 0) ((tHusk 60 .flowing).wrB (B.HUSK 0) R.HUSK_CFG_LONG_REACH true) (fun t => !t.lrActive 0) = true := by
  decide

/-- HUSK_MEM_ADDR of HR0 with data registers. -/
def tMem (a d1 : Nat) (m : Mode) : State := (tHusk 60 m).wrW 0x18_0020 a |>.wrW 0x18_0034 d1 |>.wrW 0x18_0038 5

theorem wit_husk_mem : (tMem 0x27FF 0x0048_0000 .flowing).huskMemOk 0 = false ∧ (tMem 0x2FFF 0x0048_0000 .flowing).huskMemOk 0 = true ∧
    tGot (.huskMemWrite 0) (tMem 0x2FFF 0x0048_0001 .flowing) (fun t => t.reply = .ok && t.graphAt 0 0x2FFF = 5 * 2 ^ 64 + 2 ^ 54) = true ∧
    tGot (.huskMemRead 0) (tMem 1 0 .survey) (fun t => t.reply = .ok && t.reg 0x18_003C = 0x1002_8000) = true ∧
    tGot (.huskMemRead 0) (tMem 1 0 .trickle) (fun t => t = (tMem 1 0 .trickle).answer .busError) = true ∧
    tGot (.huskMemWrite 0) (tMem 0x3400 0 .survey) (fun t => t = (tMem 0x3400 0 .survey).answer .busError) = true := by
  decide +kernel

/-! ### Gates and microcode (chapter 7) -/

/-- A microword: OP, D, A and B as offset and width, and whatever else is added. -/
def tW (op : Nat) (d a b : Nat × Nat) (x : Nat := 0) : Nat :=
  op * 2 ^ 182 + d.1 * 2 ^ 166 + (d.2 - 1) * 2 ^ 160 + a.1 * 2 ^ 149 + (a.2 - 1) * 2 ^ 143 + b.1 * 2 ^ 132 + (b.2 - 1) * 2 ^ 126 + x

/-- A token in a lane of gate g at word 5, with L0, L1 and the carry given. -/
def tTok (g l0 l1 carry : Nat) : Token :=
  { Token.enter (tPkt [9, 8, 7, 6]) carry 0 false with gate := g, st := .lane, pc := 5, locals_ := l0 + l1 * 2 ^ 64 }

/-- Pipeline 0 with one token, at a word. -/
def tGate (w : Nat) (t : Token) : State :=
  { tOn .flowing with micro := { Micro.blank with words := [(wordKey 0 0 t.gate 5, w)] }, pipes := [(0, { PipeSt.empty with toks := [t] })] }

/-- What the first token of pipeline 0 is afterwards. -/
def tTokIs (p : Token → Bool) (s : State) : Bool := (s.pipe 0).toks.head?.any p

theorem wit_at_word : (tGate (tW 2 (1152, 16) (1024, 64) (1088, 64)) (tTok 4 0xFFFF 3 0)).atWord 0 0 2 (tTok 4 0xFFFF 3 0)
      (tW 2 (1152, 16) (1024, 64) (1088, 64)) := ⟨by decide +kernel, by decide +kernel, by decide +kernel, by decide +kernel, by decide +kernel, by decide +kernel⟩

theorem wit_at_word_conditions : (tTok 4 0xFFFF 3 0).enabled (tW 2 (1152, 16) (1024, 64) (1088, 64)) ∧
    W.last (tW 2 (1152, 16) (1024, 64) (1088, 64)) = false ∧ roTouched 1152 16 = false := by decide +kernel

/-- D is L2's low 16 bits, A is L0, B is L1. -/
def tAlu (c : Pipe → Nat → Ecc → Sys2Proof.Instr) (op l0 l1 r : Nat) : Bool :=
  tGot (c 0 0 .good) (tGate (tW op (1152, 16) (1024, 64) (1088, 64)) (tTok 4 l0 l1 0))
    (tTokIs fun t => t.space 1152 16 = r && t.space 1024 64 = l0 && t.pc = 6 && t.words = 1)

theorem test_alu : tAlu .mov 1 7 0x1_2345 0x2345 = true ∧ tAlu .add 2 0xFFFF 3 2 = true ∧ tAlu .sub 3 1 3 0xFFFE = true ∧
    tAlu .and 4 0x0F3C 0x1FF0 0x0F30 = true ∧ tAlu .or 5 0x0F00 0x10F0 0x1FF0 = true ∧ tAlu .xor 6 0x0F0F 0xFFFF 0xF0F0 = true ∧
    tAlu .shl 7 0x1001 68 0x0010 = true ∧ tAlu .shr 8 0xF0000 4 0xF000 = true := by decide +kernel

/-- CRC-32C of "123456789" is 0xE3069283; 9 bytes do not fit an operand, so its first 8 are checked by the same register
continued with the ninth. -/
theorem test_hash : tGot (.hash 0 0 .good) (tGate (tW 0x11 (1152, 32) (1024, 64) (1088, 32)) (tTok 4 0x3837363534333231 0xFFFF_FFFF 0))
    (tTokIs fun t => crcRaw 0x82F63B78 (t.space 1152 32 ^^^ 0xFFFFFFFF) [0x39] ^^^ 0xFFFFFFFF = 0xE3069283) = true := by decide +kernel

def tCmp (c : Pipe → Nat → Ecc → Sys2Proof.Instr) (op l0 l1 : Nat) (r : Bool) : Bool :=
  tGot (c 0 0 .good) (tGate (tW op (0, 1) (1024, 64) (1088, 64) (15 * 2 ^ 108)) (tTok 4 l0 l1 0))
    (tTokIs fun t => t.pred 15 == r && t.pred 0 && !t.pred 14 && t.pc = 6)

theorem wit_compare : tCmp .ceq 9 5 5 true = true ∧ tCmp .cne 10 5 5 false = true ∧ tCmp .clt 11 5 5 false = true ∧ tCmp .clt 11 4 5 true = true ∧
    tCmp .cge 12 5 5 true = true ∧ tCmp .cge 12 4 5 false = true ∧ tCmp .tstm 13 6 9 false = true ∧ tCmp .tstm 13 6 12 true = true := by
  decide +kernel

theorem wit_mov_protected : roTouched 40 16 = true ∧ (tGate 0 (tTok 4 0 0 0)).flag B.PMC R.PMC_CTRL_FREEZE = false ∧
    tGot (.mov 0 0 .good) (tGate (tW 1 (40, 16) (0, 1) (1088, 64)) (tTok 4 0 0xABCD 0x5A_5A5A_5A5A_5A5A))
      (fun u => tTokIs (fun t => t.carry = 0xAB_5A5A_5A5A_5A5A || t.carry = 0x00AB_5A5A_5A5A_5A5A) u
        && u.cnt (B.PIPE 0 + C.GATE_RO_WRITE) = 1) = true := by decide +kernel

theorem wit_wread : tGot (.wread 0 0 .good) (tGate (tW 0x12 (1152, 24) (1024, 8) (0, 1) (3 * 2 ^ 108 + 1)) (tTok 4 1 0 0))
      (tTokIs fun t => t.space 1152 24 = 0x0607 && !t.pred 3) = true ∧
    tGot (.wread 0 0 .good) (tGate (tW 0x12 (1152, 24) (1024, 8) (0, 1) (3 * 2 ^ 108)) (tTok 4 1 0 0))
      (tTokIs fun t => t.space 1152 24 = 0x060708 && t.pred 3) = true := by decide +kernel

theorem wit_branch : tGot (.br 0 0 .good) (tGate (tW 0x10 (0, 1) (0, 1) (0, 1) (0x1234 * 2 ^ 112)) (tTok 4 0 0 0))
      (tTokIs fun t => t.pc = 0x1234) = true ∧
    tGot (.nop 0 0 .good) (tGate (tW 0 (0, 1) (0, 1) (0, 1)) (tTok 4 0 0 0)) (tTokIs fun t => t.pc = 6 && t.words = 1) = true ∧
    ¬ (tTok 4 0 0 0).enabled (tW 1 (1152, 16) (0, 1) (1088, 16) (2 ^ 177)) ∧
    tGot (.mov 0 0 .good) (tGate (tW 1 (1152, 16) (0, 1) (1088, 16) (2 ^ 177)) (tTok 4 7 9 0))
      (tTokIs fun t => t.pc = 6 && t.space 1152 16 = 0) = true := by decide +kernel

theorem wit_bad_word : wordOk false 4 (tW 0x0E (0, 1) (0, 1) (0, 1)) = false ∧ (tGate 0 (tTok 4 0 0 0)).sev (pipeSrc 0 1) ≠ 4 ∧
    tGot (.add 0 0 .good) (tGate (tW 0x0E (0, 1) (0, 1) (0, 1)) (tTok 4 0 0 0)) (fun u => (u.pipe 0).toks = [] &&
      u.cnt (B.PIPE 0 + C.GATE_BAD_WORD) = 1 && u.sticky (pipeSrc 0 1)) = true := by decide +kernel

theorem wit_abort_point : W.safe (tW 0 (0, 1) (0, 1) (0, 1) (2 ^ 189)) = true ∧
    tGot (.nop 0 0 .good) (tGate (tW 0 (0, 1) (0, 1) (0, 1) (2 ^ 189)) { tTok 4 0 0 0 with doomed := true })
      (fun u => (u.pipe 0).toks = [] && u.cnt (B.PIPE 0 + C.GATE_GATE_ABORT) = 1) = true ∧
    tGot (.nop 0 0 .good) (tGate (tW 0 (0, 1) (0, 1) (0, 1)) { tTok 4 0 0 0 with doomed := true })
      (fun u => (u.pipe 0).toks.length = 1) = true := by decide +kernel

theorem wit_last : W.last (tW 0 (0, 1) (0, 1) (0, 1) (2 ^ 188)) = true ∧ atEntrance [] 5 < 32 ∧
    tGot (.nop 0 0 .good) (tGate (tW 0 (0, 1) (0, 1) (0, 1) (2 ^ 188)) (tTok 4 1 2 77))
      (tTokIs fun t => t.gate = 5 && t.carry = 77 && t.st = .lane && t.locals_ = 0 && t.pc = 0x7FF) = true := by decide +kernel

/-- A Seed entry of key 0x55 with data 0xABCD at index 9 of quadrant 0. -/
def tSeed (w : Nat) : State := { tGate w (tTok 4 0x55 0 0) with
  tbl := { TblSt.init with seed := [(9, Seed.mk false false 0 0x55 0xABCD)] } }

theorem wit_lookup_hit : (tSeed 0).seedFind 0 ((tTok 4 0x55 0 0).locals_ % 2 ^ 96) = some 9 ∧ (tSeed 0).upset (upsetSeed (seedKey 0 9)) ≠ 2 ∧
    W.lt (tW 0x18 (896, 8) (0, 1) (0, 1) (8 * 2 ^ 108 + 5 * 2 ^ 100)) = 0 ∧
    tGot (.lookup 0 0 .good .good) (tSeed (tW 0x18 (896, 8) (0, 1) (0, 1) (8 * 2 ^ 108 + 5 * 2 ^ 100)))
      (tTokIs fun t => t.resp.map (fun r => (r.due, r.value, r.hits)) = [(5, 0xCD, some (8, true))]) = true := by decide +kernel

theorem wit_lookup_miss : (tGate 0 (tTok 4 0x55 0 0)).seedFind 0 0x55 = none ∧
    tGot (.lookup 0 0 .good .good) (tGate (tW 0x18 (896, 64) (0, 1) (0, 1) (8 * 2 ^ 108 + 5 * 2 ^ 100)) (tTok 4 0x55 0 0))
      (tTokIs fun t => t.resp.map (fun r => (r.value, r.hits)) = [(0, some (8, false))]) = true := by decide +kernel

/-- A token with n Reservoir responses outstanding. -/
def tRsvTok (n : Nat) : Token := { tTok 4 0x55 0x1234 0 with resp := List.replicate n ⟨5, 896, 64, 0, none, true, false⟩ }

theorem wit_lookup_held : 256 ≤ (tGate 0 (tRsvTok 256)).rsvOutstanding 0 ∧
    tGot (.lookup 0 0 .good .good) (tGate (tW 0x18 (896, 64) (0, 1) (0, 1) (2 * 2 ^ 104 + 5 * 2 ^ 100)) (tRsvTok 256))
      (tTokIs fun t => t.pc = 5 && t.words = 0) = true ∧
    tGot (.lookup 0 0 .good .good) ((tGate (tW 0x18 (896, 64) (0, 1) (0, 1) (2 * 2 ^ 104 + 5 * 2 ^ 100)) (tRsvTok 0)).stamp (Tm.rsv 0))
      (tTokIs fun t => t.pc = 5 && t.words = 0) = true := by decide +kernel

/-- Hash table 3: K 1, 4,096 slots; the entry of key 0x55 stands in its bucket h1. -/
def tHt (w : Nat) : State :=
  let s := { tGate w (tTok 4 0x55 0x1234 0) with regs := (tOn .flowing [(htBase 3 + 0x200, 0x810C_0000)]).regs }
  s.setSlot 3 (2 * (s.buckets 3 0x55).1) (Slot.mk 0x55 false 0)

theorem wit_update : (tHt 0).htEn 3 = true ∧ (tHt 0).htK 3 = 1 ∧ ((tHt 0).slotFind 3 0x55).isSome = true ∧
    tGot (.update 0 0 .good) (tHt (tW 0x19 (0, 1) (0, 1) (1088, 64) (2 * 2 ^ 104 + 3 * 2 ^ 96 + 6)))
      (fun u => ((u.slotFind 3 0x55).map fun j => Slot.word (u.slot 3 j) 6) = some 0x1234) = true ∧
    tGot (.update 0 0 .good) (tHt (tW 0x19 (0, 1) (0, 1) (1088, 64) (2 * 2 ^ 104 + 3 * 2 ^ 96 + 7)))
      (fun u => u.cnt (htCnt 3 0x20) = 1) = true ∧
    tGot (.update 0 0 .good) ((tHt (tW 0x19 (0, 1) (0, 1) (1088, 64) (2 * 2 ^ 104 + 3 * 2 ^ 96 + 7))).setDom 66 false)
      (fun u => u.cnts = []) = true := by decide +kernel

theorem wit_meter_word : tGot (.meter 0 0 .good) (tGate (tW 0x1A (896, 2) (1024, 18) (1088, 16) (5 * 2 ^ 100)) (tTok 4 3 64 0))
      (tTokIs fun t => t.resp.length = 1 && t.pc = 6) = true := by decide +kernel

theorem wit_count_word : tGot (.count 0 0 .good) (tGate (tW 0x1B (0, 1) (1024, 64) (1088, 16)) (tTok 4 (2 ^ 18 + 3) 64 0))
      (fun u => u.cpair 0 3 = (1, 64) && u.cpair 1 3 = (0, 0)) = true := by decide +kernel

theorem wit_learn_word :
    ((tGate 0 (tTok 4 3 64 0)).wrB (B.SEED 0) R.SEED_CFG_LEARN_EN true).flag (B.SEED 0) R.SEED_CFG_LEARN_EN = true ∧
    tGot (.learn 0 0 .good) ((tGate (tW 0x1C (0, 1) (0, 1) (0, 1)) (tTok 4 3 64 0)).wrB (B.SEED 0) R.SEED_CFG_LEARN_EN true)
      (fun u => u.cnt (B.SEED 0 + C.SEED_LEARN_POSTED) = 1 && (u.noticesOf 0).map (·.key) = [3 + 64 * 2 ^ 64]
        && u.filterOf 0 = [(3 + 64 * 2 ^ 64, 0)]) = true := by decide +kernel

theorem wit_response : tGot (.lookupResponse 0 0 0) (tGate 0 { tTok 5 0 0 0 with resp := [⟨6, 896, 8, 0x3CD, some (8, true), false, false⟩] })
      (tTokIs fun t => bitsOf t.carry 903 896 = 0xCD && bitOf t.carry 840 && t.resp = []) = true := by decide +kernel
/-- The oldest token of pipeline p stands at the end of gate g with a carry; the packet's outer IPv4 header is ECT. -/
def tExit (p g carry : Nat) (s : State) : State :=
  { s with pipes := [(p, { PipeSt.empty with toks := [{ tTok g 0 0 carry with pkt := { tPkt [0x45, 2, 0, 4] with cls := 3 }, st := .last, dest := carry / 2 ^ 768 }] })] }

/-- Carry with one IPv4 header at offset 0 and a DEST word. -/
def tCarry (dest : Nat) : Nat := 2 ^ 32 + 4 * 2 ^ 138 + dest * 2 ^ 768

theorem wit_exit_drop : (tExit 6 11 (tCarry (2 ^ 26 + 9 * 2 ^ 20)) (tPort 0x2400)).domOn (domHR 6) = true ∧
    tGot (.tokenExitHeadrace 6) (tExit 6 11 (tCarry (2 ^ 26 + 9 * 2 ^ 20)) (tPort 0x2400))
      (fun t => (t.pipe 6).toks = [] && t.cnt (B.PIPE 6 + C.GATE_REASON + 8 * 9) = 1) = true ∧
    (tPort 0x2400).tailOf 0 41 0 0 = none ∧ Grp.count ((tPort 0x2400).groupEnt 5) = 0 ∧
    tGot (.tokenExitHeadrace 6) (tExit 6 11 (tCarry 41) (tPort 0x2400)) (fun t => t.cnt (B.PIPE 6 + C.GATE_REASON + 8 * 2) = 1) = true ∧
    tGot (.tokenExitHeadrace 6) (tExit 6 11 (tCarry (3 * 2 ^ 30 + 5)) (tPort 0x2400))
      (fun t => t.cnt (B.PIPE 6 + C.GATE_REASON + 8 * 2) = 1) = true := by decide +kernel

theorem wit_exit_queue : (tPort 0x2400).tailOf 0 40 0 0 = some 6 ∧ (tPort 0x2400).portUp 40 = true ∧
    ecnOf (tCarry (3 * 2 ^ 27 + 40)) [0x45, 2, 0, 4] ≠ 0 ∧
    (tPort 0x2400).admitPool 6 (voqKey 6 6 3) 3 4 none = some 0 ∧
    tGot (.tokenExitHeadrace 6) (tExit 6 11 (tCarry (3 * 2 ^ 27 + 40)) (tPort 0x2400)) (fun t => (t.pipe 6).toks = []
      && (t.voq (voqKey 6 6 3)).pkts.map (fun p => (p.id, p.segs, p.left, p.cell)) = [(1, 4, 1, 0)] && t.poolUsed 1 0 = 4
      && t.weir.nextId = 2) = true := by decide +kernel

/-- Slot 2 of tailrace 6 serves port 40. -/
def tSlot : State := (tPort 0x2400).wrW (B.TLR 6 + 0x200 + R.TLR_SLOT_CFG_EN.off) 0 |>.wrB (B.TLR 6 + 0x200) R.TLR_SLOT_CFG_EN true
  |>.wr (B.TLR 6 + 0x200) R.TLR_SLOT_CFG_PORT 40

theorem wit_tail_drop : tGot (.tokenExitTailrace 6) (tExit 22 5 (tCarry (2 ^ 26 + 9 * 2 ^ 20)) tSlot)
      (fun t => (t.pipe 22).toks = [] && t.cnt (B.PIPE 22 + C.GATE_REASON + 8 * 9) = 1) = true := by decide +kernel

/-- A program of tailrace 6 that deletes at position 255: outside this packet. -/
theorem wit_tail_edit_error : editPacket [3 * 2 ^ 60 + 255 * 2 ^ 48 + 2 ^ 40] (fun _ _ _ => []) (tCarry 40) false [0x45, 2, 0, 4] = none ∧
    tGot (.tokenExitTailrace 6) { tExit 22 5 (tCarry (3 * 2 ^ 27 + 40)) tSlot with
        micro := { Micro.blank with edit := [(editKey 6 0 0, 3 * 2 ^ 60 + 255 * 2 ^ 48 + 2 ^ 40)] } }
      (fun t => (t.pipe 22).toks = [] && t.cnt (B.TLR 6 + C.TLR_EDIT_ERR) = 1 && (t.egress 6).q = []) = true := by decide +kernel

theorem wit_tail_queue : editPacket (List.replicate 16 0) (fun _ _ _ => []) (tCarry 40) false [0x45, 2, 0, 4] =
      some ([0x45, 2, 0, 4], tCarry 40) ∧ tSlot.slotOf 6 (3 * 2 ^ 27 + 40) = some (2, 0) ∧ tSlot.destDown (3 * 2 ^ 27 + 40) = false ∧
    tGot (.tokenExitTailrace 6) (tExit 22 5 (tCarry (3 * 2 ^ 27 + 40)) tSlot) (fun t => (t.pipe 22).toks = [] &&
      (t.egress 6).q.map (fun p => (p.pkt.data, p.slot, p.cls, p.cells)) = [([0x45, 2, 0, 4], 2, 3, 1)]) = true := by decide +kernel

theorem wit_barrier : (tGate 0 (tRsvTok 1)).domOn (domPipe 0) = true ∧
    tGot (.barrierReq 0) ((tGate 0 (tRsvTok 1)).wrB (B.PIPE 0) R.BARRIER_DONE true) (fun t => !t.flag (B.PIPE 0) R.BARRIER_DONE &&
      tTokIs (fun k => k.barred && k.resp.all (·.mark)) t && t.reply = .ok) = true ∧
    ((tGate 0 (tTok 4 0 0 0)).wrB (B.PIPE 0) R.BARRIER_DONE false).updateRuns = false ∧
    tGot (.barrierDone 0) ((tGate 0 (tTok 4 0 0 0)).wrB (B.PIPE 0) R.BARRIER_DONE false)
      (fun t => t.flag (B.PIPE 0) R.BARRIER_DONE) = true ∧
    tGot (.barrierDone 0) ((tGate 0 { tTok 4 0 0 0 with barred := true }).wrB (B.PIPE 0) R.BARRIER_DONE false)
      (fun t => !t.flag (B.PIPE 0) R.BARRIER_DONE) = true := by decide +kernel

theorem wit_abort : tGot (.abortReq 0) (tGate 0 (tTok 4 0 0 0)) (fun t => t.flag (B.PIPE 0) R.ABORT_ACTIVE && tTokIs (·.doomed) t) = true ∧
    tGot (.abortReq 0) { tGate 0 (tTok 4 0 0 0) with pipes := [] } (fun t => !t.flag (B.PIPE 0) R.ABORT_ACTIVE && t.reply = .ok) = true ∧
    State.reset.domOn (domPipe 0) = false ∧ tGot (.abortReq 0) State.reset (fun t => t.reply = .busError) = true := by decide +kernel

theorem wit_watchdog : (tGate 0 (tTok 4 0 0 0)).sev (pipeSrc 0 3) ≠ 4 ∧
    tGot (.pipelineWatchdog 0) (tGate 0 (tTok 4 0 0 0)) (fun t => (t.pipe 0).toks = [] && t.domOn 1 && !t.sticky (pipeSrc 0 3)) = true ∧
    tGot (.pipelineWatchdog 0) ((tGate 0 (tTok 4 0 0 0)).wrB (srcBase (pipeSrc 0 3)) R.FLT_SRC_ROUTE true)
      (fun t => t.sticky (pipeSrc 0 3)) = true := by decide +kernel

/-- A flip of pipeline 0 is pending. -/
def tFlip : State := (tGate 0 (tTok 4 0 0 0)).wrB (B.PIPE 0) R.MC_CTRL_FLIP_PEND true

theorem wit_flip : (tGate 0 (tTok 4 0 0 0)).flag (B.PIPE 0) R.MC_CTRL_FLIP_PEND = false ∧
    (tGate 0 (tTok 4 0 0 0)).flag (B.PIPE 0) R.MC_CTRL_DRAINED = true ∧
    tGot (.flip 0) (tGate 0 (tTok 4 0 0 0)) (fun t => t.flag (B.PIPE 0) R.MC_CTRL_FLIP_PEND) = true ∧
    tGot (.flip 0) ((tGate 0 (tTok 4 0 0 0)).wrB (B.PIPE 0) R.MC_CTRL_DRAINED false)
      (fun t => !t.flag (B.PIPE 0) R.MC_CTRL_FLIP_PEND && t.reply = .ok) = true ∧
    tGot (.flip 0) State.reset (fun t => t.reply = .busError) = true := by decide +kernel

theorem wit_bank_flip : tGot (.bankFlip 0) tFlip (fun t => t.activeBank 0 = 1 && !t.flag (B.PIPE 0) R.MC_CTRL_FLIP_PEND
      && !t.flag (B.PIPE 0) R.MC_CTRL_DRAINED && t.rd (B.HUSK 0) R.HUSK_CFG_ACTIVE_BANK = 1) = true ∧
    tGot (.bankFlip 16) ((tOn .flowing).wrB (B.PIPE 16) R.MC_CTRL_FLIP_PEND true) (fun t => t.activeBank 16 = 1
      && t.flag (B.PIPE 16) R.MC_CTRL_DRAINED) = true ∧
    tGot (.bankFlip 0) (tOn .flowing) (fun t => t = tOn .flowing) = true ∧
    tGot (.pipelineDrained 0) ((tOn .flowing).wrB (B.PIPE 0) R.MC_CTRL_DRAINED false) (fun t => t.flag (B.PIPE 0) R.MC_CTRL_DRAINED) = true ∧
    tGot (.pipelineDrained 0) ((tGate 0 { tTok 4 0 0 0 with bank := 1 }).wrB (B.PIPE 0) R.MC_CTRL_DRAINED false)
      (fun t => !t.flag (B.PIPE 0) R.MC_CTRL_DRAINED) = true := by decide +kernel

/-- The header of a customer image of 32 bytes, build 7; of the signed parts the model sees free functions alone. -/
def tImage : List Byte := leBytes 4 0x4E48_5845 ++ leBytes 2 1 ++ leBytes 2 0 ++ leBytes 8 7 ++ leBytes 8 0 ++ leBytes 4 32 ++ leBytes 4 (crc32c [])

/-- The host gives PF0 a window of one page at 0, for reading and writing. -/
def tWin (s : State) : State := ((s.wr (B.PLOT 0) R.PLOT_WIN_PAGES_PAGES 1).wrB (B.PLOT 0) R.PLOT_WIN_LO_R true).wrB (B.PLOT 0) R.PLOT_WIN_LO_W true

/-- Its argument block: a buffer of n bytes at address 0. -/
def tBuf (n : Nat) : List Byte := leBytes 8 0 ++ leBytes 4 n

theorem wit_stage_refused : tHost.plotBase 0 = 0 ∧ (tWin tHost).windowOk 0 0 1 false = true ∧ (tWin tHost).canFetch 0 0 1 ∧
    tGot (.mcStage (.core 0) (.ok [])) (tHold (.core 0) 0x0380 [] tCore) (tEnd (.core 0) St.REFUSED []) = true ∧
    tGot (.mcStage (.host 0 3) (.ok [])) (tHold (.host 0 3) 0x0380 [] ((tHost).wrB (B.PIPE 3) R.MC_CTRL_DRAINED false))
      (tEnd (.host 0 3) St.BUSY_RETRY []) = true ∧
    tGot (.mcStage (.host 0 3) (.ok [])) (tHold (.host 0 3) 0x0380 [] ((tHost).wrB (B.PIPE 3) R.MC_CTRL_FLIP_PEND true))
      (tEnd (.host 0 3) St.BUSY_RETRY []) = true ∧
    tGot (.mcStage (.host 0 3) (.ok [])) ((tHold (.host 0 3) 0x0380 [] tHost).setFn 0 0 Fn.init) (fun t => (t.tag (.host 0 3)).cur.isSome) = true ∧
    tGot (.mcStage (.host 0 3) (.ok [])) (tHold (.host 0 3) 0x0380 (tBuf 1) { tHost with image := { (tHost).image with allot := [(0, 1)] } })
      (fun t => tEnd (.host 0 3) St.BAD_ARGUMENT [] t && t.cnt (B.HPTC 0 + C.HPT_WINDOW_ERR) = 1) = true ∧
    tGot (.mcStage (.host 0 3) .ur) (tHold (.host 0 3) 0x0380 (tBuf 1) (tWin tHost)) (tEnd (.host 0 3) St.BAD_ARGUMENT []) = true ∧
    tGot (.mcStage (.host 0 3) (.ok [0])) (tHold (.host 0 3) 0x0380 (tBuf 1) (tWin tHost))
      (tEnd (.host 0 3) St.BAD_ARGUMENT [1, 0, 0, 0, 0, 0]) = true := by decide +kernel

theorem wit_stage_header : mcHeaderOk tImage 32 = true ∧ mcHeaderOk tImage 31 = false := by decide +kernel

/-- A host's MC_FLIP with a staged image. -/
def tMcFlip (order build : Nat) (s : State) : State :=
  tHold (.host 0 3) 0x0381 [BitVec.ofNat 8 order] { s with mc := { s.mc with staged := build } }

theorem wit_mc_flip :
    tGot (.mcFlip (.core 0)) (tHold (.core 0) 0x0381 [] tCore) (tEnd (.core 0) St.REFUSED []) = true ∧
    tGot (.mcFlip (.host 0 3)) (tMcFlip 0 0 tHost) (tEnd (.host 0 3) St.BAD_ARGUMENT []) = true ∧
    tGot (.mcFlip (.host 0 3)) (tMcFlip 2 7 tHost) (tEnd (.host 0 3) St.BAD_ARGUMENT []) = true ∧
    tGot (.mcFlip (.host 0 3)) (tMcFlip 0 7 { tHost with mc := { (tOn .flowing).mc with flipping := [3] } })
      (tEnd (.host 0 3) St.BUSY_RETRY []) = true ∧
    tGot (.mcFlip (.host 0 3)) (tMcFlip 0 7 tHost) (fun t => t.mc.flipping = List.range' 16 16 ++ List.range 16
      && t.flag (B.PIPE 16) R.MC_CTRL_FLIP_PEND && t.mc.active = 7 && t.mc.staged = 0 && !t.flag (B.PIPE 0) R.MC_CTRL_FLIP_PEND) = true ∧
    tGot (.mcFlip (.host 0 3)) (tMcFlip 1 7 tHost) (fun t => t.mc.flipping = List.range 32) = true := by decide +kernel

theorem wit_mc_flip_none : (tMcFlip 0 7 ((tHost).setReg 0x1_0000 1)).pipesOn = [] ∧ (tMcFlip 0 7 ((tHost).setReg 0x1_0000 1)).jobs = [] := by
  decide +kernel

theorem wit_mc_status : tGot (.mcStatus (.host 0 3)) (tHold (.host 0 3) 0x0382 [] (((tHost).wr (B.PIPE 3) R.MC_CTRL_ACTIVE_BANK 1).wr
      (B.PIPE 18) R.MC_CTRL_ACTIVE_BANK 1))
    (tEnd (.host 0 3) 0 (leBytes 8 0 ++ leBytes 8 0 ++ leBytes 2 8 ++ leBytes 2 4 ++ [0])) = true := by decide +kernel

/-- Counter pairs 70,000 of quadrants 0 and 2, and pair 3 of quadrant 0. -/
def tPairs (a : List Byte) (m : Mode := .flowing) : State :=
  tHold (.host 0 3) 0x0383 a { tHost m with cpairs := [(3, (5, 6)), (70000, (1, 100)), (pairKey 2 70000, (2, 200))] }

theorem wit_count_read :
    tGot (.countRead (.host 0 3)) (tPairs [4]) (tEnd (.host 0 3) St.BAD_ARGUMENT []) = true ∧
    tGot (.countRead (.host 0 3)) (tPairs ([0, 0, 0, 0] ++ leBytes 4 3)) (tEnd (.host 0 3) 0 (leBytes 8 5 ++ leBytes 8 6)) = true ∧
    tGot (.countRead (.host 0 3)) (tPairs ([0xFF, 0, 0, 0] ++ leBytes 4 70000)) (tEnd (.host 0 3) 0 (leBytes 8 3 ++ leBytes 8 300)) = true ∧
    tGot (.countRead (.host 0 3)) (tPairs ([0, 0, 0, 0] ++ leBytes 4 70000 ++ [1]) .trickle) (tEnd (.host 0 3) St.WRONG_MODE []) = true ∧
    tGot (.countRead (.host 0 3)) (tPairs ([0, 0, 0, 0] ++ leBytes 4 3 ++ [1])) (tEnd (.host 0 3) St.REFUSED []) = true ∧
    tGot (.countRead (.host 0 3)) (tPairs ([2, 0, 0, 0] ++ leBytes 4 70000 ++ [1])) (fun t =>
      tEnd (.host 0 3) 0 (leBytes 8 2 ++ leBytes 8 200) t && t.cpair 2 70000 = (0, 0) && t.cpair 0 70000 = (1, 100)) = true := by
  decide +kernel

/-! ### Table and memory entries through registers (chapters 7 to 10) -/

/-- Word 0x1234 of gate 5, bank 1, of headrace 3; data registers 1 to 6. -/
def tStore (m : Mode) (bank : Nat) : State := (tOn m [(B.HDR 3 + 0x10, BitVec.ofNat 32 (bank * 2 ^ 20 + 5 * 2 ^ 16 + 0x1234)),
  (B.HDR 3 + 0x20, 1), (B.HDR 3 + 0x24, 2), (B.HDR 3 + 0x28, 3), (B.HDR 3 + 0x2C, 4), (B.HDR 3 + 0x30, 5), (B.HDR 3 + 0x34, 6)])

theorem wit_mc_entry : (tStore .flowing 1).storeOk 3 1 = true ∧ (tStore .flowing 0).storeOk 3 0 = false ∧
    (tStore .priming 0).storeOk 3 0 = true ∧
    tGot (.mcWrite 3) (tStore .flowing 1) (fun t => t.word (wordKey 3 1 5 0x1234) = leNat (([1, 2, 3, 4, 5, 6] : List Nat).flatMap (leBytes 4))
      && t.reply = .ok) = true ∧
    tGot (.mcWrite 3) (tStore .flowing 0) (fun t => t.reply = .busError && t.micro.words = []) = true ∧
    tGot (.mcRead 3) { tStore .flowing 1 with micro := { Micro.blank with words := [(wordKey 3 1 5 0x1234, 2 ^ 191 + 7)] } }
      (fun t => t.reg (B.HDR 3 + 0x20) = 7 && t.reg (B.HDR 3 + 0x34) = 0x8000_0000 && t.reg (B.HDR 3 + 0x24) = 0) = true := by decide +kernel

theorem wit_ed_entry : ((tOn .flowing).wrW (B.TLR 2 + 0x40) 0x4FFF).edOk 2 = true ∧ ((tOn .flowing).wrW (B.TLR 2 + 0x40) 0x6200).edOk 2 = false ∧
    tGot (.edWrite 2) (((tOn .flowing).wrW (B.TLR 2 + 0x40) 0x4FFF).wrW (B.TLR 2 + 0x4C) 9) (fun t => t.editAt (editKey 2 1 0xFFF) = 9 * 2 ^ 32) = true ∧
    tGot (.edWrite 2) ((tOn .flowing).wrW (B.TLR 2 + 0x40) 0x6200) (fun t => t.reply = .busError) = true ∧
    tGot (.edRead 2) { (tOn .flowing).wrW (B.TLR 2 + 0x40) 0x61FF with micro := { Micro.blank with edit := [(editKey 2 1 (2 ^ 13 + 0x1FF), 5)] } }
      (fun t => t.dataRegs (B.TLR 2 + 0x48) 2 = 5) = true := by decide +kernel

/-- Seed entry 70,000 of quadrant 1. -/
def tSeedEnt (m : Mode) : State := (tOn m).wrW (B.SEED 1 + 0x10) 70000 |>.wrW (B.SEED 1 + 0x34) 0x8300_0001

theorem wit_seed_entry : (tSeedEnt .survey).rawTableOk 1 false = true ∧ (tSeedEnt .flowing).rawTableOk 1 false = false ∧
    (tSeedEnt .flowing).rawTableOk 1 true = true ∧
    tGot (.seedEntWrite 1 false) (tSeedEnt .survey) (fun t => t.seedAt 1 70000 = 2 ^ 191 + 2 ^ 185 && t.seedAt 0 70000 = 0) = true ∧
    tGot (.seedEntWrite 1 false) (tSeedEnt .flowing) (fun t => t.reply = .busError) = true ∧
    tGot (.seedEntRead 1) { tSeedEnt .flowing with tbl := { TblSt.init with seed := [(seedKey 1 70000, 77)] } }
      (fun t => t.dataRegs (B.SEED 1 + 0x20) 6 = 77) = true ∧
    tGot (.seedEntRead 1) State.reset (fun t => t.reply = .busError) = true := by decide +kernel

/-- The Sieve entry at an address of quadrant 2, in a bank of 2 units. -/
def tSievEnt (a : Nat) (m : Mode := .survey) : State := (tOn m).wrW (B.SIEV 2) 0x0000_0004 |>.wrW (B.SIEV 2 + 0x10) a
  |>.wrW (B.SIEV 2 + 0x18) 0x8000_0000 |>.wrW (B.SIEV 2 + 0x1C) 0x42 |>.wrW (B.SIEV 2 + 0x40) 5 |>.wrW (B.SIEV 2 + 0x48) 0x1_0007
  |>.wrW (B.SIEV 2 + 0x80) 15

theorem wit_sieve_entry : (tSievEnt 6200).sievWidth 2 = 2 ∧ 6200 % 2 = 0 ∧ (tSievEnt 6200).rawTableOk 2 false = true ∧
    tGot (.sievEntWrite 2 false) (tSievEnt 6200) (fun t => t.entryValue 2 6200 2 = 5 + 0x1_0007 * 2 ^ 64 && t.entryMask 2 6200 2 = 15
      && Sieve.valid (t.unit 2 6200) && Sieve.action (t.unit 2 6200) = 0x42 && Sieve.value (t.unit 2 6201) = 1) = true ∧
    tGot (.sievEntWrite 2 false) (tSievEnt 6201) (fun t => t.reply = .busError) = true ∧
    tGot (.sievEntClear 2 true) ((tSievEnt 6200 .flowing).setUnit 2 6200 (2 ^ 192 + 5)) (fun t => t.unit 2 6200 = 5) = true ∧
    tGot (.sievEntClear 2 false) ((tSievEnt 6200 .flowing).setUnit 2 6200 (2 ^ 192 + 5)) (fun t => t.reply = .busError) = true ∧
    tGot (.sievEntRead 2) ((tSievEnt 6200).setUnit 2 6201 3) (fun t => t.dataRegs (B.SIEV 2 + 0x40) 10 = 3 * 2 ^ 80
      && !t.flag (B.SIEV 2) R.SIEV_ENT_CTRL_VALID && t.reg (B.SIEV 2 + 0x1C) = 0) = true ∧
    tGot (.sievEntRead 2) State.reset (fun t => t.reply = .busError) = true := by decide +kernel

/-- Meter 70,000 of quadrant 3 at 640 ns: RFC 2698, CBS 3, PBS 5. -/
def tMtr (mode : Nat) : State := { (tOn .flowing).wrW (B.SEED 3 + 0x200) 70000 |>.wrW (B.SEED 3 + 0x210) 7
  |>.wrW (B.SEED 3 + 0x214) (mode * 2 ^ 30) |>.wrW (B.SEED 3 + 0x218) 5 |>.wrW (B.SEED 3 + 0x21C) 3 with now := 640 }

theorem wit_meter_entry : (tMtr 1).domOn (domQuad 3) = true ∧
    tGot (.seedMtrWrite 3) (tMtr 1) (fun t => let v := t.meter 3 70000
      Meter.tc v = 3072 && Meter.tp v = 5120 && Meter.last v = 10 && bitsOf v 63 0 = 2 ^ 62 + 7) = true ∧
    tGot (.seedMtrWrite 3) (tMtr 3) (fun t => bitsOf (t.meter 3 70000) 63 62 = 0) = true ∧
    tGot (.seedMtrRead 3) ((tMtr 1).setMeter 3 70000 99) (fun t => t.dataRegs (B.SEED 3 + 0x210) 8 = 99) = true ∧
    tGot (.seedMtrRead 3) State.reset (fun t => t.reply = .busError) = true ∧
    tGot (.seedMtrWrite 3) State.reset (fun t => t.reply = .busError) = true := by decide +kernel

theorem wit_pair_entry :
    tGot (.seedCntReadClear 2) { (tOn .flowing).wrW (B.SEED 2 + 0x240) 9 with cpairs := [(9, (1, 1)), (pairKey 2 9, (5, 2 ^ 40))] }
      (fun t => t.dataRegs (B.SEED 2 + 0x250) 4 = 5 + 2 ^ 104 && t.cpairs = [(9, (1, 1))]) = true ∧
    tGot (.seedCntRead 2) { (tOn .flowing).wrW (B.SEED 2 + 0x240) 9 with cpairs := [(pairKey 2 9, (5, 2 ^ 40))] }
      (fun t => t.dataRegs (B.SEED 2 + 0x250) 4 = 5 + 2 ^ 104 && t.cpair 2 9 = (5, 2 ^ 40)) = true ∧
    tGot (.seedCntReadClear 2) State.reset (fun t => t.reply = .busError) = true := by decide +kernel

theorem wit_group_entry :
    tGot .weirGrpWrite (((tOn .survey).wrW (B.WEIR + 0x80) 0x1_FFFF).wrW (B.WEIR + 0x88) 0x8000_0001)
      (fun t => t.memberEnt 0xFFFF = 0x8000_0001 && t.reply = .ok) = true ∧
    tGot .weirGrpWrite { ((tOn .survey).wrW (B.WEIR + 0x80) 4095).wrW (B.WEIR + 0x88) 0x1234_7FFF with weir := { WeirSt.init with groups := [(4095, 2 ^ 15)] } }
      (fun t => t.groupEnt 4095 = 0x1234_807F) = true ∧
    tGot .weirGrpRead ((tOn .survey).wrW (B.WEIR + 0x80) 4096) (fun t => t.reply = .busError) = true ∧
    tGot .weirGrpRead { (tOn .survey).wrW (B.WEIR + 0x80) 4095 with weir := { WeirSt.init with groups := [(4095, 2 ^ 15)] } }
      (fun t => t.reg (B.WEIR + 0x88) = 0x8000) = true ∧
    tGot .weirGrpRead { (tOn .survey).wrW (B.WEIR + 0x80) 0x1_0007 with weir := { WeirSt.init with members := [(7, 5)] } }
      (fun t => t.reg (B.WEIR + 0x88) = 5) = true := by decide +kernel

/-! ### Seed table, Sieve and Reservoir tables (chapter 8) -/

/-- A host's table command with arguments, on a state. -/
def tTbl (o : Nat) (args : List Byte) (s : State := tHost) : State := tHold (.host 0 3) o args s

/-- Arguments of an insert: key, data, flags, HOME. -/
def tIns (key data flags home : Nat) : List Byte := leBytes 12 key ++ leBytes 8 data ++ leBytes 1 flags ++ leBytes 1 home

/-- The same key, with data 9, in copies 0 and 2 at indices 5 and 6, and in the master; only copies 0 and 2 are on. -/
def tKnown (s : State := tHost) : State := { s.setDom 26 false |>.setDom 28 false with
  tbl := { TblSt.init with seed := [(5, Seed.mk false true 0 0x55 9), (seedKey 2 6, Seed.mk false false 0 0x55 9)],
                           master := [(0x55, Seed.mk false false 0 0x55 9)], version := 2 ^ 32 - 1 } }

theorem wit_table_waits : (tTbl 0x0300 [] { tKnown with tbl := { TblSt.init with loading := [2] } }).tableHeld = true ∧
    tGot (.tblSeedInsert (.host 0 3)) (tTbl 0x0300 [] { tKnown with tbl := { TblSt.init with loading := [2] } })
      (fun t => t.tbl.waiting.map (fun w => (w.q, w.mgen)) = [(Req.host 0 3, 1)]) = true := by decide +kernel

theorem wit_seed_insert_refused : (tTbl 0x0300 (tIns 0x55 7 0 4)).tableHeld = false ∧ kindOk (4 * 2 ^ 90) = false ∧ kindOk 0x55 = true ∧
    tGot (.tblSeedInsert (.host 0 3)) (tTbl 0x0300 (tIns 0x55 7 0 4)) (tEnd (.host 0 3) St.BAD_ARGUMENT []) = true ∧
    tGot (.tblSeedInsert (.host 0 3)) (tTbl 0x0300 (tIns (4 * 2 ^ 90) 7 0 0)) (tEnd (.host 0 3) St.REFUSED []) = true ∧
    tGot (.tblSeedInsert (.host 0 3)) (tTbl 0x0300 (tIns 0x55 7 0 0) tKnown) (tEnd (.host 0 3) St.BAD_ARGUMENT []) = true := by
  decide +kernel

theorem wit_seed_replace : (tKnown).copies = [0, 2] ∧ (tKnown).refusingCopy 0x55 = none ∧ twf (fun _ => 0) (tKnown).tbl.seed = true ∧
    tGot (.tblSeedInsert (.host 0 3)) (tTbl 0x0300 (tIns 0x55 7 3 1) tKnown) (fun t => tEnd (.host 0 3) 0 (leBytes 4 0 ++ [0]) t
      && t.tbl.seed = [(5, Seed.mk true false 1 0x55 7), (seedKey 2 6, Seed.mk true false 1 0x55 7)] && t.tbl.version = 0
      && t.masterAt 0x55 = Seed.mk true false 1 0x55 7) = true := by decide +kernel

/-- For a new key the index is free, so the test stops at the conditions. -/
theorem wit_seed_new : (tKnown).refusingCopy 0x66 = none ∧ (tKnown).seedFind 0 0x66 = none ∧ 6 < seedUsable ∧
    Seed.valid ((tKnown).seedAt 0 6) = false ∧ Seed.retired ((tKnown).seedAt 0 6) = false ∧
    Seed.valid ((tKnown).seedAt 2 5) = false ∧ Seed.retired ((tKnown).seedAt 2 5) = false := by decide +kernel

/-- A retired place; copy 0 has nothing else. -/
def tRetired : Nat := 2 ^ 185
def tSeedFull : State := { tKnown with tbl := { tKnown.tbl with seed := (List.range seedUsable).map fun i => (i, tRetired) } }

theorem wit_seed_full : (tTbl 0x0300 (tIns 0x66 7 0 0) tSeedFull).tableHeld = false ∧ kindOk 0x66 = true ∧ Seed.valid (tSeedFull.masterAt 0x66) = false ∧
    (tTbl 0x0300 (tIns 0x66 7 0 0) tSeedFull).refusingCopy 0x66 = some 0 := by
  refine ⟨by decide +kernel, by decide +kernel, by decide +kernel, ?_⟩
  have hc : (tTbl 0x0300 (tIns 0x66 7 0 0) tSeedFull).copies = [0, 2] := by decide +kernel
  have hs : (tTbl 0x0300 (tIns 0x66 7 0 0) tSeedFull).tbl.seed = (List.range seedUsable).map fun i => (i, tRetired) := by
    simp only [tTbl, tHold, State.setTag, tSeedFull]
  have hv : Seed.valid tRetired = false := by decide +kernel
  have hr : Seed.retired tRetired = true := by decide +kernel
  have hn : (tTbl 0x0300 (tIns 0x66 7 0 0) tSeedFull).seedFind 0 0x66 = none := by
    simp [State.seedFind, hs, List.find?_map, hv]
  have hf : (tTbl 0x0300 (tIns 0x66 7 0 0) tSeedFull).seedFull 0 = true := by
    have h : ∀ i ∈ List.range seedUsable, i < 130048 := fun i hi => List.mem_range.1 hi
    simp only [State.seedFull, hs, List.filter_map, List.length_map]
    rw [List.filter_eq_self.2]
    · simp
    · intro i hi
      have := h i hi
      have h1 : i / 2 ^ 17 = 0 := Nat.div_eq_of_lt (by omega)
      have h2 : i % 2 ^ 17 < seedUsable := by rw [Nat.mod_eq_of_lt (by omega)]; exact this
      simp only [Function.comp, h1, h2, hr, Bool.or_true, decide_true, Bool.and_self]
  rw [State.refusingCopy, hc, List.find?_cons_of_pos]
  simp [hn, hf]

theorem wit_seed_delete : kindOk 0x55 = true ∧ (tTbl 0x0301 (leBytes 12 0x55) tKnown).pipesOn ≠ [] ∧
    tGot (.tblSeedDelete (.host 0 3)) (tTbl 0x0301 (leBytes 12 (5 * 2 ^ 90)) tKnown) (tEnd (.host 0 3) St.REFUSED []) = true ∧
    tGot (.tblSeedDelete (.host 0 3)) (tTbl 0x0301 (leBytes 12 0x66) tKnown) (tEnd (.host 0 3) 0 (leBytes 4 (2 ^ 32 - 1) ++ [0])) = true ∧
    tGot (.tblSeedDelete (.host 0 3)) (tTbl 0x0301 (leBytes 12 0x55) tKnown) (fun t => t.masterAt 0x55 = 0 && t.updateRuns
      && !Seed.valid (t.seedAt 2 6) && !t.flag (B.PIPE 31) R.BARRIER_DONE && t.jobs.map (·.data) = [leBytes 4 0 ++ [1]]) = true := by
  decide +kernel

/-- A removal whose last barrier, of pipeline 0, is about to be done. -/
def tLast : State := { (tTbl 0x0301 [] tKnown).wrB (B.PIPE 0) R.BARRIER_DONE false with
  jobs := [⟨.host 0 3, 1, 0x0301, barrierObj, 0, 0, [9]⟩] }

theorem wit_barrier_reports : tLast.jobLive ⟨.host 0 3, 1, 0x0301, barrierObj, 0, 0, [9]⟩ = true ∧ tLast.barrierPassed 0 = true ∧
    (List.range 32).all (fun k => k = 0 || tLast.flag (B.PIPE k) R.BARRIER_DONE) = true ∧
    tGot (.barrierDone 0) tLast (fun t => tEnd (.host 0 3) 0 [9] t && t.jobs = []) = true := by decide +kernel

theorem wit_seed_read_refused : tGot (.tblSeedRead (.host 0 3)) (tTbl 0x0302 (leBytes 12 (4 * 2 ^ 90)) tKnown)
      (tEnd (.host 0 3) St.REFUSED []) = true := by decide +kernel

theorem wit_seed_read : tGot (.tblSeedRead (.host 0 3)) (tTbl 0x0302 (leBytes 12 0x55) tKnown)
      (tEnd (.host 0 3) 0 (leBytes 8 9 ++ [0, 5, 0, 0] ++ leBytes 4 (2 ^ 32 - 1))) = true := by decide +kernel

/-- A batch of n records at address 0, in PF0's window. -/
def tBatch (n : Nat) (s : State := tWin tHost) : State := tTbl 0x0303 (leBytes 8 0 ++ leBytes 4 n) (tKnown s)

theorem wit_seed_batch : (tBatch 1).canFetch 0 0 24 ∧
    tGot (.tblSeedBatch (.host 0 3) .ur) (tBatch 0) (tEnd (.host 0 3) St.BAD_ARGUMENT []) = true ∧
    tGot (.tblSeedBatch (.host 0 3) .ur) (tBatch 1) (tEnd (.host 0 3) St.BAD_ARGUMENT []) = true ∧
    tGot (.tblSeedBatch (.host 0 3) .ur) (tBatch 1 tHost) (tEnd (.host 0 3) St.BAD_ARGUMENT []) = true ∧
    tGot (.tblSeedBatch (.host 0 3) .ur) ((tBatch 1).setFn 0 0 Fn.init) (fun t => (t.tag (.host 0 3)).cur.isSome) = true ∧
    tGot (.tblSeedBatch (.host 0 3) (.ok (tIns 0x55 7 2 4))) (tBatch 2) (tEnd (.host 0 3) St.BAD_ARGUMENT (leBytes 8 0)) = true ∧
    tGot (.tblSeedBatch (.host 0 3) (.ok (tIns 0x55 7 2 0))) (tBatch 1)
      (fun t => tEnd (.host 0 3) 0 (leBytes 4 1 ++ leBytes 4 0) t && Seed.data (t.masterAt 0x55) = 7) = true := by decide +kernel

/-- A core's batch of one record, which lies in its boot page, or at an address where it has no memory. -/
def tCoreBatch (a : Nat) : State := { tHold (.core 5) 0x0303 (leBytes 8 a ++ leBytes 4 1) (tKnown) with
  mem := putBytes [] (B.BOOT 0 + 8) (tIns 0x55 7 2 0) }

theorem wit_seed_batch_core :
    tGot (.tblSeedBatch (.core 5) .timeout) (tCoreBatch 8) (fun t => tEnd (.core 5) 0 (leBytes 4 1 ++ leBytes 4 0) t
      && Seed.data (t.masterAt 0x55) = 7) = true ∧
    tGot (.tblSeedBatch (.core 5) .timeout) (tCoreBatch 0xFFFF_FFFF) (tEnd (.core 5) St.BAD_ARGUMENT []) = true := by decide +kernel

/-- Kind, flags, value and mask of a flush. -/
def tFlush (kind flags v m : Nat) : List Byte := leBytes 1 kind ++ leBytes 7 flags ++ leBytes 1 0 ++ leBytes 8 v ++ leBytes 8 m

theorem wit_seed_flush :
    tGot (.tblSeedFlush (.host 0 3)) (tTbl 0x0304 [64] tKnown) (tEnd (.host 0 3) St.BAD_ARGUMENT []) = true ∧
    tGot (.tblSeedFlush (.host 0 3)) (tTbl 0x0304 [31] tKnown) (tEnd (.host 0 3) St.REFUSED []) = true ∧
    tGot (.tblSeedFlush (.host 0 3)) (tTbl 0x0304 ([0] ++ leBytes 7 0 ++ leBytes 8 8 ++ leBytes 8 15) tKnown)
      (tEnd (.host 0 3) 0 (leBytes 4 0)) = true ∧
    tGot (.tblSeedFlush (.host 0 3)) (tTbl 0x0304 ([0] ++ leBytes 7 0 ++ leBytes 8 9 ++ leBytes 8 15) tKnown)
      (fun t => t.masterAt 0x55 = 0 && t.updateRuns && t.jobs.map (·.data) = [leBytes 4 1]) = true := by decide +kernel

/-- Profile 2: LPM or FIRST, 2 units wide, bank 1; copy 0 alone is on. -/
def tProf (first : Bool) (m : Mode := .flowing) : State :=
  { ((tHost m).setDom 26 false).setDom 27 false |>.setDom 28 false |>.wrW (B.SIEV 0 + 0x108) (2 ^ 31 + bit first * 2 ^ 30 + 2 ^ 28 + 2)
    |>.wrW (B.SIEV 0) 4 with tbl := TblSt.init }

/-- Arguments of TBL_SIEVE_WRITE. -/
def tSw (p a act v m : Nat) : List Byte := leBytes 1 p ++ leBytes 3 0 ++ leBytes 4 a ++ leBytes 4 act ++ leBytes 40 v ++ leBytes 40 m

theorem wit_sieve_write : (tProf true).refCopy = 0 ∧ (tProf true).profEn 0 2 = true ∧ (tProf true).profWidth 0 2 = 2 ∧
    (tProf true).profAddrOk 0 2 6200 = true ∧
    tGot (.tblSieveWrite (.host 0 3)) (tTbl 0x0310 (tSw 3 6200 1 5 7) (tProf true)) (tEnd (.host 0 3) St.BAD_ARGUMENT []) = true ∧
    tGot (.tblSieveWrite (.host 0 3)) (tTbl 0x0310 (tSw 2 6201 1 5 7) (tProf true)) (tEnd (.host 0 3) St.BAD_ARGUMENT []) = true ∧
    tGot (.tblSieveWrite (.host 0 3)) (tTbl 0x0310 (tSw 2 0xFFFFFFFF 1 5 7) (tProf true)) (tEnd (.host 0 3) St.BAD_ARGUMENT []) = true ∧
    tGot (.tblSieveWrite (.host 0 3)) (tTbl 0x0310 (tSw 2 6200 1 (2 ^ 160) 7) (tProf true)) (tEnd (.host 0 3) St.BAD_ARGUMENT []) = true ∧
    tGot (.tblSieveWrite (.host 0 3)) (tTbl 0x0310 (tSw 2 6200 1 (2 ^ 100 + 5) 7) (tProf true)) (fun t =>
      tEnd (.host 0 3) 0 (leBytes 4 6200 ++ leBytes 4 1) t && t.entryValue 0 6200 2 = 2 ^ 100 + 5 && t.entryMask 4 6200 2 = 7
        && Sieve.valid (t.unit 0 6200)) = true := by decide +kernel

theorem wit_sieve_write_over : Sieve.valid (((tProf true).setUnit 4 6200 (2 ^ 192)).unit sieveMaster 6200) = true ∧
    tGot (.tblSieveWrite (.host 0 3)) (tTbl 0x0310 (tSw 2 6200 1 5 7) ((tProf true).setUnit 4 6200 (2 ^ 192)))
      (fun t => t.updateRuns && t.jobs.map (·.data) = [leBytes 4 6200 ++ leBytes 4 1]) = true ∧
    tGot (.tblSieveWrite (.host 0 3)) (tTbl 0x0310 (tSw 2 6200 1 5 7) ((tProf true).setUnit 0 6201 (2 ^ 193)))
      (tEnd (.host 0 3) St.TABLE_FULL []) = true := by decide +kernel

/-- Any free address: there is one, or the profile has no bank. Which one is free, so the test stops at the conditions. -/
theorem wit_sieve_any : (tProf false).flag (profBase 0 2) R.SIEV_PROF_MODE = false ∧ (tProf false).profAddrOk 0 2 6144 = true ∧
    Sieve.valid ((tProf false).unit sieveMaster 6144) = false ∧ (tProf false).entryRetired 6144 2 = false ∧
    bitOf (((tProf false).wr (profBase 0 2) R.SIEV_PROF_BANKS 0).profBanks 0 2) 1 = false := by decide +kernel

theorem wit_sieve_clear :
    tGot (.tblSieveClear (.host 0 3)) (tTbl 0x0311 (tSw 2 6201 0 0 0) (tProf true)) (tEnd (.host 0 3) St.BAD_ARGUMENT []) = true ∧
    tGot (.tblSieveClear (.host 0 3)) (tTbl 0x0311 (tSw 2 6200 0 0 0) (tProf true)) (tEnd (.host 0 3) 0 (leBytes 4 1)) = true ∧
    tGot (.tblSieveClear (.host 0 3)) (tTbl 0x0311 (tSw 2 6200 0 0 0) (((tProf true).setUnit 4 6200 (2 ^ 192)).setUnit 0 6200 (2 ^ 192)))
      (fun t => t.updateRuns && t.unit 0 6200 = 0 && t.unit 4 6200 = 0) = true := by decide +kernel

theorem wit_sieve_read :
    tGot (.tblSieveRead (.host 0 3)) (tTbl 0x0312 (tSw 0 6201 0 0 0) (tProf true)) (tEnd (.host 0 3) St.BAD_ARGUMENT []) = true ∧
    tGot (.tblSieveRead (.host 0 3)) (tTbl 0x0312 (tSw 0 6200 0 0 0) (((tProf true).setUnit 4 6200 (2 ^ 192 + 3)).setUnit 0 6200 (2 ^ 192)))
      (tEnd (.host 0 3) 0 (leBytes 4 0 ++ leBytes 40 3 ++ leBytes 40 0 ++ [1])) = true := by decide +kernel

/-- Arguments of TBL_SIEVE_PROFILE. -/
def tPr (p fl w banks : Nat) : List Byte := leBytes 1 p ++ leBytes 1 fl ++ leBytes 1 w ++ leBytes 1 0 ++ leBytes 2 banks

theorem wit_sieve_profile :
    tGot (.tblSieveProfile (.host 0 3)) (tTbl 0x0313 (tPr 5 1 3 1) (tProf true)) (tEnd (.host 0 3) St.BAD_ARGUMENT []) = true ∧
    tGot (.tblSieveProfile (.host 0 3)) (tTbl 0x0313 (tPr 5 1 1 3) (tProf true)) (tEnd (.host 0 3) St.BAD_ARGUMENT []) = true ∧
    tGot (.tblSieveProfile (.host 0 3)) (tTbl 0x0313 (tPr 5 1 1 1) ((tProf true).setUnit 4 7 (2 ^ 192))) (tEnd (.host 0 3) St.BUSY_RETRY []) = true ∧
    tGot (.tblSieveProfile (.host 0 3)) (tTbl 0x0313 (tPr 5 1 2 1) ((tProf true .survey).setUnit 4 7 (2 ^ 192))) (tEnd (.host 0 3) St.BAD_ARGUMENT []) = true ∧
    tGot (.tblSieveProfile (.host 0 3)) (tTbl 0x0313 (tPr 5 3 4 0x8001) (tProf true)) (fun t => tEnd (.host 0 3) 0 [] t && t.profEn 0 5
      && t.profWidth 0 5 = 4 && t.profBanks 0 5 = 0x8001 && t.bankWidth 0 15 = 4 && t.bankWidth 0 0 = 4 && t.bankWidth 0 1 = 2) = true := by
  decide +kernel

/-- Hash table 3 of K 1 and 1,024 slots. -/
def tHash (s : State := tHost) : State := s.wrW (htBase 3 + 0x200) 0x810A_0000

/-- A place takes no more numbers than its length. -/
theorem count_place (a n N : Nat) : (List.range N).countP (fun b => decide (a ≤ b) && decide (b < a + n)) = min N (a + n) - min N a := by
  induction N with
  | zero => simp
  | succ N ih =>
    rw [List.range_succ, List.countP_append, ih]
    simp only [List.countP_cons, List.countP_nil, Bool.and_eq_true, decide_eq_true_eq]
    split <;> omega

theorem count_or (p q : Nat → Bool) (l : List Nat) : l.countP (fun b => p b || q b) ≤ l.countP p + l.countP q := by
  induction l with
  | nil => simp
  | cons x l ih => simp only [List.countP_cons]; cases p x <;> cases q x <;> simp <;> omega

/-- Places together take no more numbers than their lengths. -/
theorem count_places (l : List (Nat × Nat)) (N : Nat) :
    (List.range N).countP (fun b => l.any fun x => decide (x.1 ≤ b) && decide (b < x.1 + x.2)) ≤ (l.map (·.2)).sum := by
  induction l with
  | nil => simp
  | cons x l ih =>
    simp only [List.any_cons, List.map_cons, List.sum_cons]
    have h1 := count_or (fun b => decide (x.1 ≤ b) && decide (b < x.1 + x.2)) (fun b => l.any fun x => decide (x.1 ≤ b) && decide (b < x.1 + x.2))
      (List.range N)
    rw [count_place] at h1
    omega

/-- Wherever the Lockkeeper placed the other users, a table of 1 MiB fits on a host without core memory. -/
theorem wit_rsv_fits : ∃ b, (tTbl 0x0320 [2, 5, 10]).htFits b (htMiB 10) = true := by
  have hp : (tTbl 0x0320 [2, 5, 10]).htPlaces = [] := by decide +kernel
  have hc : (tTbl 0x0320 [2, 5, 10]).coreMemLen = 0 := by decide +kernel
  have hm : htMiB 10 = 1 := by decide +kernel
  apply Classical.byContradiction
  intro hn
  have hall : ∀ b ∈ List.range 61440, ((tTbl 0x0320 [2, 5, 10]).rsvPlaces.any fun x => decide (x.1 ≤ b) && decide (b < x.1 + x.2)) = true := by
    intro b hb
    apply Classical.byContradiction
    intro hf
    refine hn ⟨b, ?_⟩
    simp only [List.any_eq_true, not_exists, not_and, Bool.and_eq_true, decide_eq_true_eq] at hf
    simp only [State.htFits, hp, hm, List.nil_append, Bool.and_eq_true, decide_eq_true_eq, List.all_eq_true, Bool.or_eq_true]
    have := List.mem_range.1 hb
    exact ⟨by omega, fun x hx => by have := hf x hx; omega⟩
  have := count_places (tTbl 0x0320 [2, 5, 10]).rsvPlaces 61440
  rw [List.countP_eq_length.2 hall, List.length_range] at this
  simp only [State.rsvPlaces, hc, List.map_cons, List.map_nil, List.sum_cons, List.sum_nil] at this
  omega

/-- Four tables of 1 MiB, at 12,000 MiB, 24,000, 36,000 and 48,000. -/
def tSpread : State := (tHost).wrW (htBase 0 + 0x200) (0x810A_0000 + 12000) |>.wrW (htBase 1 + 0x200) (0x810A_0000 + 24000)
  |>.wrW (htBase 4 + 0x200) (0x810A_0000 + 36000) |>.wrW (htBase 5 + 0x200) (0x810A_0000 + 48000)

/-- None of 16 GiB fits between them. -/
theorem wit_rsv_no_place : (tSpread.htPlaces.map (·.2)).sum + htMiB 28 ≤ 32 * 1024 ∧ ∀ b, tSpread.htFits b (htMiB 28) = false := by
  have hp : tSpread.htPlaces = [(12000, 1), (24000, 1), (36000, 1), (48000, 1)] := by decide +kernel
  have hm : htMiB 28 = 16384 := by decide +kernel
  refine ⟨by rw [hp, hm]; decide, fun b => ?_⟩
  simp only [State.htFits, hp, hm, List.cons_append, List.nil_append, List.all_cons, Bool.and_eq_false_iff, Bool.or_eq_false_iff,
    decide_eq_false_iff_not]
  omega

theorem wit_rsv_create : (tHost).htPlaces = [] ∧
    tGot (.tblRsvCreate (.host 0 3)) (tTbl 0x0320 [8, 1, 10]) (tEnd (.host 0 3) St.BAD_ARGUMENT []) = true ∧
    tGot (.tblRsvCreate (.host 0 3)) (tTbl 0x0320 [3, 1, 10] tHash) (tEnd (.host 0 3) St.BAD_ARGUMENT []) = true ∧
    tGot (.tblRsvCreate (.host 0 3)) (tTbl 0x0320 [2, 6, 10]) (tEnd (.host 0 3) St.BAD_ARGUMENT []) = true ∧
    tGot (.tblRsvCreate (.host 0 3)) (tTbl 0x0320 [2, 5, 29]) (tEnd (.host 0 3) St.BAD_ARGUMENT []) = true ∧
    tGot (.tblRsvCreate (.host 0 3)) (tTbl 0x0320 [2, 5, 28] ((tHost).setDom 67 false)) (tEnd (.host 0 3) St.NO_RESOURCE []) = true ∧
    tGot (.tblRsvCreate (.host 0 3)) (tTbl 0x0320 [2, 5, 28] ((tHost).wrW (htBase 0 + 0x200) 0x811C_0000 |>.wrW (htBase 1 + 0x200) 0x811C_4000))
      (tEnd (.host 0 3) St.NO_RESOURCE []) = true := by decide +kernel

theorem wit_rsv_destroy : tGot (.tblRsvDestroy (.host 0 3)) (tTbl 0x0321 [3]) (tEnd (.host 0 3) St.BAD_ARGUMENT []) = true ∧
    tGot (.tblRsvDestroy (.host 0 3)) (tTbl 0x0321 [3] ((tHash).setSlot 3 9 7 |>.setSlot 4 9 8)) (fun t => !t.htEn 3 && t.slot 3 9 = 0
      && t.slot 4 9 = 8 && tEnd (.host 0 3) 0 [] t) = true := by decide +kernel

/-- Table, flags and words 0 and 1 of TBL_RSV_INSERT. -/
def tRi (t fl k d : Nat) : List Byte := leBytes 1 t ++ leBytes 7 fl ++ leBytes 8 k ++ leBytes 8 d

/-- Both buckets of key 0x55 hold other entries, one place of the first free or none. -/
def tFull (free : Bool) : State :=
  let b := (tHash).buckets 3 0x55
  let s := (tHash).setSlot 3 (2 * b.1) (Slot.mk 1 false 0) |>.setSlot 3 (2 * b.2) (Slot.mk 2 false 0) |>.setSlot 3 (2 * b.2 + 1) (Slot.mk 3 false 0)
  if free then s else s.setSlot 3 (2 * b.1 + 1) (Slot.mk 4 false 0)

theorem wit_rsv_insert : (tFull true).htEn 3 = true ∧ (tFull true).slotFind 3 0x55 = none ∧
    tGot (.tblRsvInsert (.host 0 3)) (tTbl 0x0322 (tRi 4 0 0x55 9) (tFull true)) (tEnd (.host 0 3) St.BAD_ARGUMENT []) = true ∧
    tGot (.tblRsvInsert (.host 0 3)) (tTbl 0x0322 (tRi 3 1 0x55 9) (tFull true)) (fun t =>
      tEnd (.host 0 3) 0 (leBytes 4 (2 * ((tHash).buckets 3 0x55).1 + 1) ++ [0]) t
        && (t.slotFind 3 0x55).map (fun i => (Slot.word (t.slot 3 i) 1, Slot.static_ (t.slot 3 i))) = some (9, true)) = true ∧
    tGot (.tblRsvInsert (.host 0 3)) (tTbl 0x0322 (tRi 3 0 0x55 9) ((tFull false).setSlot 3 (2 * ((tHash).buckets 3 0x55).2) (Slot.mk 0x55 false 0)))
      (tEnd (.host 0 3) St.BAD_ARGUMENT []) = true ∧
    tGot (.tblRsvInsert (.host 0 3)) (tTbl 0x0322 (tRi 3 2 0x55 9) ((tFull false).setSlot 3 (2 * ((tHash).buckets 3 0x55).2) (Slot.mk 0x55 false 0)))
      (fun t => (t.slotFind 3 0x55).map (fun i => Slot.word (t.slot 3 i) 1) = some 9) = true := by decide +kernel

/-- Every slot of table 3 holds an entry. -/
def tBrim : State := { tHash with tbl := { TblSt.init with slots := (List.range' 0 1024).map fun i => (slotKey 3 i, 2 ^ 511) } }

theorem tget_run (d : Nat → Nat) (b v : Nat) (n s j : Nat) (h1 : s ≤ j) (h2 : j < s + n) :
    tget d ((List.range' s n).map fun i => (slotKey b i, v)) (slotKey b j) = v := by
  induction n generalizing s with
  | zero => omega
  | succ n ih =>
    simp only [List.range'_succ, List.map_cons, tget]
    split
    · rfl
    · rename_i hne
      exact ih (s + 1) (by unfold slotKey at hne; omega) (by omega)

theorem wit_rsv_full : tBrim.htLog 3 = 10 ∧ ∀ i, i < 2 ^ 10 → Slot.valid (tBrim.slot 3 i) = true := by
  refine ⟨by decide, fun i hi => ?_⟩
  have h : tBrim.slot 3 i = 2 ^ 511 := tget_run _ 3 (2 ^ 511) 1024 0 i (by omega) (by omega)
  rw [h]
  decide

theorem wit_rsv_full_buckets : tBrim.slotFind 3 0x55 = none ∧ tBrim.freeSlot 3 (tBrim.buckets 3 0x55).1 = none ∧
    tBrim.freeSlot 3 (tBrim.buckets 3 0x55).2 = none := by decide +kernel

theorem wit_rsv_delete_read :
    tGot (.tblRsvDelete (.host 0 3)) (tTbl 0x0323 (tRi 2 0 1 0) (tFull true)) (tEnd (.host 0 3) St.BAD_ARGUMENT []) = true ∧
    tGot (.tblRsvDelete (.host 0 3)) (tTbl 0x0323 (tRi 3 0 0x55 0) (tFull true)) (tEnd (.host 0 3) 0 [0]) = true ∧
    tGot (.tblRsvDelete (.host 0 3)) (tTbl 0x0323 (tRi 3 0 0x55 0) ((tHash).setSlot 3 (2 * ((tHash).buckets 3 0x55).1) (Slot.mk 0x55 false 0)))
      (fun t => tEnd (.host 0 3) 0 [1] t && t.slotFind 3 0x55 = none) = true ∧
    tGot (.tblRsvRead (.host 0 3)) (tTbl 0x0324 (tRi 2 0 1 0) (tFull true)) (tEnd (.host 0 3) St.BAD_ARGUMENT []) = true ∧
    tGot (.tblRsvRead (.host 0 3)) (tTbl 0x0324 (tRi 3 0 0x55 0) (tFull true)) (tEnd (.host 0 3) 0 (List.replicate 65 0)) = true ∧
    tGot (.tblRsvRead (.host 0 3)) (tTbl 0x0324 (tRi 3 0 0x55 0) ((tHash).setSlot 3 (2 * ((tHash).buckets 3 0x55).1) (Slot.mk 0x55 false 0)))
      (tEnd (.host 0 3) 0 (leBytes 64 (Slot.mk 0x55 false 0) ++ [1])) = true := by decide +kernel

/-- Arguments of TBL_RSV_BATCH for a table and n records at address 0. -/
def tRb (t n : Nat) : List Byte := leBytes 8 t ++ leBytes 8 0 ++ leBytes 4 n

theorem wit_rsv_batch : (tTbl 0x0325 (tRb 3 1) (tWin tHash)).canFetch 0 0 64 ∧
    tGot (.tblRsvBatch (.host 0 3) .poisoned) (tTbl 0x0325 (tRb 2 1) (tWin tHash)) (tEnd (.host 0 3) St.BAD_ARGUMENT []) = true ∧
    tGot (.tblRsvBatch (.host 0 3) .poisoned) (tTbl 0x0325 (tRb 3 1) (tWin tHash)) (tEnd (.host 0 3) St.BAD_ARGUMENT []) = true ∧
    tGot (.tblRsvBatch (.host 0 3) .poisoned) (tTbl 0x0325 (tRb 3 1) tHash) (tEnd (.host 0 3) St.BAD_ARGUMENT []) = true ∧
    tGot (.tblRsvBatch (.host 0 3) .poisoned) ((tTbl 0x0325 (tRb 3 1) tHash).setFn 0 0 Fn.init) (fun t => (t.tag (.host 0 3)).cur.isSome) = true ∧
    tGot (.tblRsvBatch (.host 0 3) (.ok (leBytes 64 0x55))) (tTbl 0x0325 (tRb 3 1) (tWin tHash))
      (fun t => tEnd (.host 0 3) 0 (leBytes 4 1 ++ leBytes 4 0) t && (t.slotFind 3 0x55).isSome) = true ∧
    tGot (.tblRsvBatch (.host 0 3) (.ok (leBytes 64 0x55)))
      (tTbl 0x0325 (tRb 3 1) ((tWin tHash).setSlot 3 (2 * ((tHash).buckets 3 0x55).1) (Slot.mk 0x55 false 0)))
      (tEnd (.host 0 3) St.BAD_ARGUMENT (leBytes 8 0)) = true := by decide +kernel

theorem wit_tbl_status : tGot (.tblStatus (.host 0 3)) (tTbl 0x0330 [] ({ tKnown with tbl := { tKnown.tbl with insertFail := 3, missSeen := 4 } }.wrW (B.SEED 2 + 8) 77))
    (tEnd (.host 0 3) 0 (leBytes 16 (2 ^ 32) ++ leBytes 16 0 ++ leBytes 16 (77 + 2 ^ 32) ++ leBytes 16 0 ++ leBytes 8 3 ++ leBytes 8 0
      ++ leBytes 8 4 ++ leBytes 32 0)) = true := by decide +kernel

theorem wit_age_cfg :
    tGot (.tblAgeCfg (.host 0 3)) (tTbl 0x0331 (leBytes 2 1001 ++ [1, 0])) (tEnd (.host 0 3) St.BAD_ARGUMENT []) = true ∧
    tGot (.tblAgeCfg (.host 0 3)) (tTbl 0x0331 (leBytes 2 5 ++ [1, 32])) (tEnd (.host 0 3) St.BAD_ARGUMENT []) = true ∧
    tGot (.tblAgeCfg (.host 0 3)) (tTbl 0x0331 (leBytes 2 5 ++ [9, 31])) (fun t => t.reg (B.SEED 3) = 0x0005_0900 && t.tbl.missCore = 31
      && tEnd (.host 0 3) 0 [] t) = true := by decide +kernel

/-- Table 3 removes what is idle for 2 ms; slots 4 and 5 were last touched at 0, slot 6 just now. -/
def tIdle : State := { tHash.wrW (htBase 3 + 0x204) 2 with now := 2 ^ 22, tbl := { TblSt.init with
  slots := [(slotKey 3 4, Slot.mk 1 false 0), (slotKey 3 5, Slot.mk 2 false 0), (slotKey 3 6, Slot.mk 3 false 4)] } }

theorem wit_idle_sweep : tIdle.idleSlot 3 4 = true ∧ tIdle.idleSlot 3 6 = false ∧ twf (fun _ => 0) tIdle.tbl.slots = true ∧
    tGot (.rsvIdleSweep 3 [5]) tIdle (fun t => !Slot.valid (t.slot 3 4) && Slot.valid (t.slot 3 5) && Slot.last (t.slot 3 5) = 4
      && t.slot 3 6 = Slot.mk 3 false 4 && t.cnt (htCnt 3 0x18) = 1) = true ∧
    tGot (.rsvIdleSweep 2 []) tIdle (fun t => t = tIdle) = true := by decide +kernel
/-- A notice of quadrant 1 at the head of its queue, with the firmware running. -/
def tNotice (n : Notice) (s : State := tKnown) : State :=
  { s with modes := { s.modes with lkRunning := true }, tbl := { s.tbl with notices := [(2, [n, n])] } }

theorem wit_notice_none : (tNotice ⟨0x55, 3, 0, 9, 0, 0, false⟩).noticesOf 2 ≠ [] ∧
    tGot (.learnNotice 2) (tNotice ⟨0x55, 3, 0, 9, 0, 0, false⟩) (fun t => t = tNotice ⟨0x55, 3, 0, 9, 0, 0, false⟩) = true := by decide +kernel

theorem wit_notice_trickle : tGot (.ageNotice 2) (tNotice ⟨0x55, 2, 0, 0, 0, 6, false⟩ (tKnown (tHost .trickle)))
      (fun t => t = tNotice ⟨0x55, 2, 0, 0, 0, 6, false⟩ (tKnown (tHost .trickle))) = true := by decide +kernel

/-- The posting copy has lost the entry: which free index it takes is a free choice, so the test stops at the conditions. -/
theorem wit_learn_again : (tKnown.setSeed 2 6 0).seedFind 2 0x55 = none ∧ Seed.key ((tKnown).masterAt 0x55) = 0x55 ∧ 6 < seedUsable ∧
    Seed.valid ((tKnown.setSeed 2 6 0).seedAt 2 6) = false ∧ Seed.retired ((tKnown.setSeed 2 6 0).seedAt 2 6) = false ∧
    twf (fun _ => 0) (tKnown.setSeed 2 6 0).tbl.seed = true := by decide +kernel

theorem wit_learn_notice : Seed.data ((tKnown).masterAt 0x55) = 9 ∧ (tKnown).seedFind 2 0x55 = some 6 ∧
    tGot (.learnNotice 2) (tNotice ⟨0x55, 0, 0, 9, 0, 0, false⟩ (tKnown.setSeed 2 6 (Seed.mk false true 3 0x55 8))) (fun t =>
      t.seedAt 2 6 = Seed.mk false true 0 0x55 9 && (t.noticesOf 2).length = 1 && t.tbl.version = 2 ^ 32 - 1) = true ∧
    tGot (.learnNotice 2) (tNotice ⟨0x55, 0, 0, 7, 0, 0, false⟩) (fun t => t.seedAt 0 5 = Seed.mk false true 2 0x55 7
      && t.masterAt 0x55 = Seed.mk false false 2 0x55 7 && t.tbl.version = 0) = true ∧
    tGot (.learnNotice 2) (tNotice ⟨0x55, 0, 0, 7, 0, 0, false⟩ (tKnown.setMaster 0x55 (Seed.mk true false 0 0x55 9)))
      (fun t => t.tbl.learnStatic = 1 && t.seedAt 2 6 = Seed.mk false false 0 0x55 9) = true := by decide +kernel

theorem wit_miss_notice :
    tGot (.missNotice 2) (tNotice ⟨0x55, 1, 3, 9, 7, 0, false⟩ { tKnown with tbl := { tKnown.tbl with missCore := 5 } }) (fun t => t.tbl.missSeen = 1
      && t.out = [.missNotice 5 (leBytes 12 0x55 ++ leBytes 4 (2 ^ 28 + 2 * 2 ^ 26 + 3 * 2 ^ 24) ++ leBytes 8 9 ++ leBytes 4 7 ++ leBytes 4 0)]) = true ∧
    tGot (.missNotice 2) (tNotice ⟨0x55, 1, 3, 9, 7, 0, false⟩ { tKnown with tbl := { tKnown.tbl with missCore := 255 } })
      (fun t => t.tbl.missSeen = 1 && t.out = []) = true := by decide +kernel

theorem wit_age_notice : tGot (.ageNotice 2) (tNotice ⟨0x55, 2, 0, 0, 0, 6, false⟩) (fun t => t.masterAt 0x55 = 0
      && !Seed.valid (t.seedAt 0 5) && Seed.valid (t.seedAt 2 6) && t.tbl.version = 0) = true ∧
    tGot (.remoteHitNotice 2) (tNotice ⟨0x55, 3, 0, 0, 0, 6, false⟩ (tKnown.setSeed 0 5 (Seed.mk false false 0 0x55 9)))
      (fun t => Seed.hit (t.seedAt 0 5) && !Seed.hit (t.seedAt 2 6)) = true ∧
    tGot (.remoteHitNotice 2) (tNotice ⟨0x66, 3, 0, 0, 0, 6, false⟩) (fun t => (t.noticesOf 2).length = 1) = true := by decide +kernel

theorem wit_parity_retired :
    tGot (.parityNotice 2 true) (tNotice ⟨0x66, 4, 0, 0, 0, 7, false⟩ (tKnown.setSeed 2 7 (2 ^ 185))) (fun t => t.seedAt 2 7 = 2 ^ 185) = true ∧
    tGot (.parityNotice 2 true) (tNotice ⟨0x66, 4, 0, 0, 0, 130048, false⟩ (tKnown.setSeed 2 130048 9)) (fun t => t.seedAt 2 130048 = 9) = true ∧
    tGot (.parityNotice 2 true) (tNotice ⟨0x55, 4, 0, 0, 0, 7, false⟩ (tKnown.setSeed 2 7 (Seed.mk false true 0 0x55 8)))
      (fun t => t.seedAt 2 7 = 0) = true ∧
    tGot (.parityNotice 0 false) { (tProf true) with
        modes := { (tProf true).modes with lkRunning := true },
        tbl := { TblSt.init with sieve := [(sieveKey 0 6200, 2 ^ 193)], notices := [(0, [⟨0, 4, 0, 0, 0, 6201, true⟩])] } }
      (fun t => t.unit 0 6200 = 2 ^ 193 && t.unit 0 6201 = 0) = true := by decide +kernel

theorem wit_parity_notice : (tKnown).mild 26 ∧
    tGot (.parityNotice 2 true) (tNotice ⟨0x55, 4, 0, 0, 0, 6, false⟩ (tKnown.setSeed 2 6 (Seed.mk false true 0 0x55 8)))
      (fun t => t.seedAt 2 6 = Seed.mk false true 0 0x55 9) = true ∧
    tGot (.parityNotice 2 true) (tNotice ⟨0x66, 4, 0, 0, 0, 7, false⟩ (tKnown.setSeed 2 7 (Seed.mk false true 0 0x66 8)))
      (fun t => t.seedAt 2 7 = 0) = true ∧
    tGot (.parityNotice 2 false) (tNotice ⟨0x66, 4, 0, 0, 0, 7, false⟩ (tKnown.setSeed 2 7 (Seed.mk false true 0 0x66 8)))
      (fun t => t.seedAt 2 7 = 2 ^ 185) = true ∧ Seed.retired (2 ^ 185) = true ∧
    tGot (.parityNotice 0 true) { (tProf true) with
        modes := { (tProf true).modes with lkRunning := true },
        tbl := { TblSt.init with sieve := [(sieveKey 0 6201, 9), (sieveKey 4 6201, 5)], notices := [(0, [⟨0, 4, 0, 0, 0, 6201, true⟩])] } }
      (fun t => t.unit 0 6201 = 5) = true ∧
    tGot (.parityNotice 0 false) { (tProf true) with
        modes := { (tProf true).modes with lkRunning := true },
        tbl := { TblSt.init with sieve := [(sieveKey 0 6201, 9)], notices := [(0, [⟨0, 4, 0, 0, 0, 6201, true⟩])] } }
      (fun t => Sieve.retired (t.unit 0 6201) && Sieve.retired (t.unit 0 6200)) = true := by decide +kernel

/-- Entry 6 of copy 2 before a visit. -/
def tVisit (e : Nat) : State := { tKnown with now := 5000000, tbl := { TblSt.init with seed := [(seedKey 2 6, e)] } }
def tSeen (hit : Bool) (e : Nat) (p : State → Nat → Bool) : Bool := tGot (.sweeperVisit 2 6 hit) (tVisit e) fun t => p t (t.seedAt 2 6)

theorem wit_sweeper : (tVisit 0).copyOn 2 = true ∧ (tVisit 0).sweepMay 2 6 = true ∧ (tVisit 0).rd (B.SEED 2) R.SEED_CFG_AGE_PERIOD = 100 ∧
    tSeen false (Seed.mk true true 2 1 0) (fun _ e => e = Seed.mk true false 2 1 0) = true ∧
    tSeen false (Seed.setStale (Seed.mk false true 2 1 0) true) (fun _ e => e = Seed.mk false false 2 1 0) = true ∧
    tSeen false (Seed.mk false false 2 1 0) (fun _ e => e = Seed.setStale (Seed.mk false false 2 1 0) true) = true ∧
    tSeen true (Seed.setStale (Seed.mk false false 2 1 0) true) (fun t e => Seed.hit e && Seed.valid e && t.cnt (B.SEED 2 + C.SEED_AGE_CANCELLED) = 1) = true ∧
    tSeen false (Seed.setStale (Seed.mk false false 2 1 0) true) (fun t e => !Seed.valid e && t.cnt (B.SEED 2 + C.SEED_AGED) = 1
      && (t.noticesOf 2).map (fun n => (n.key, n.type, n.index)) = [(1, 2, 6)]) = true ∧
    tSeen false (Seed.mk false true 1 1 0) (fun t e => !Seed.hit e && (t.noticesOf 2).map (·.type) = [3]) = true ∧
    tSeen false (Seed.mk false false 1 1 0) (fun t e => e = Seed.mk false false 1 1 0 && t.sweepOf 2 = (7, 7 * 10 ^ 11)) = true := by decide +kernel

/-- The last place of a queue, and one past it: 4,095 and 4,096 notices wait. -/
def tQueue (n : Nat) : State :=
  { (tVisit (Seed.setStale (Seed.mk false false 2 1 0) true)) with
    tbl := { (tVisit (Seed.setStale (Seed.mk false false 2 1 0) true)).tbl with notices := [(2, List.replicate n ⟨0, 2, 0, 0, 0, 0, false⟩)] } }

theorem wit_sweeper_waits : tGot (.sweeperVisit 2 6 false) (tQueue 4096) (fun t => Seed.valid (t.seedAt 2 6)) = true ∧
    tGot (.sweeperVisit 2 6 false) (tQueue 4095) (fun t => !Seed.valid (t.seedAt 2 6)) = true ∧
    tGot (.sweeperVisit 1 6 false) (tQueue 0) (fun t => t = tQueue 0) = true ∧ (tQueue 0).copyOn 1 = false ∧
    tGot (.sweeperVisit 2 6 false) { tQueue 0 with now := 4000000 } (fun t => t = { tQueue 0 with now := 4000000 }) = true := by decide +kernel

theorem wit_filter : tGot (.learnFilterExpire 3) { tHost with now := 1000000, tbl := { TblSt.init with filters := [(3, [(1, 0), (2, 1)])] } }
    (fun t => t.filterOf 3 = [(2, 1)]) = true := by decide +kernel

/-- Copy 1 has been switched on and is loading. -/
def tLoad : State := { tOn .flowing with tbl := { TblSt.init with
    loading := [1], version := 5, cfg := [(0xD_0100, 5)], sieve := [(sieveKey 1 3, 9), (sieveKey 4 2, 7)] } }

theorem wit_copy_loaded : twf (fun _ => 0) tLoad.tbl.sieve = true ∧ twf (fun _ => 0) tLoad.tbl.seed = true ∧
    tGot (.tableCopyLoaded 1) tLoad (fun t => t.copyOn 1 && t.unit 1 2 = 7 && t.unit 1 3 = 0 && t.reg (B.SEED 1 + 8) = 5 && t.reg (B.SIEV 1 + 0x100) = 5) = true ∧
    tGot (.tableCopyLoaded 2) tLoad (fun t => t = tLoad) = true ∧
    Seed.valid (Seed.mk false false 0 3 4) = true ∧ Seed.key (Seed.mk false false 0 3 4) = 3 ∧ tLoad.seedAt 1 0 = 0 := by decide +kernel

/-! ### Weir, buffers and congestion (chapter 9) -/

/-- A packet for port 40 in class 3, with n data segments left from segment o of cell 0. -/
def tVp (n o : Nat) (sent : Bool) : VPkt :=
  { id := 9, pkt := { tPkt [0x45, 2, 0, 4] with cls := 3 }, carry := tCarry (3 * 2 ^ 27 + 40), copies := [⟨3 * 2 ^ 27 + 40, 0, 0, false⟩], lr := false, segs := n + 3,
    cell := 0, off := o, left := n, sent := sent, spilled := false, pool := 1, pair := none, group := none }

/-- It waits in the VOQ of headrace 6, tailrace 6, class 3; slot 2 of tailrace 6 serves port 40. -/
def tVoq (l : List VPkt) (s : State := tSlot) : State :=
  { s with weir := { WeirSt.init with voqs := [(voqKey 6 6 3, { pkts := l, next := 3, fill := 1 })], used := [(5, 40)] } }
def tOnly (s : State) : Bool := (List.range 16).all fun h => (List.range 16).all fun t => (List.range 8).all fun c =>
  s.eligible h t c = decide (h = 6 ∧ t = 6 ∧ c = 3)

theorem wit_slot_hyps : (tVoq [tVp 1 0 false]).domOn 73 = true ∧ (tVoq [tVp 1 0 false]).forwarding = true ∧
    (tVoq [tVp 1 0 false]).domOn (domHR 6) = true ∧ (tVoq [tVp 1 0 false]).domOn (domTR 6) = true ∧ tOnly (tVoq [tVp 1 0 false]) = true ∧
    carryAt (tVp 1 0 false).carry 96 31 0 = 3 * 2 ^ 27 + 40 ∧ (tVoq [tVp 1 0 false]).destDown (3 * 2 ^ 27 + 40) = false ∧
    State.reset.domOn 73 = false ∧ (tOn .priming).forwarding = false ∧
    tGot .weirSlot tSlot (fun t => t.weir.slotAt = [0] && t.weir.grantPtr = []) = true := by decide +kernel

theorem wit_slot_small : tGot .weirSlot (tVoq [tVp 1 0 false]) (fun t => (t.voq (voqKey 6 6 3)).pkts = [] && t.poolUsed 1 1 = 36 &&
      t.weir.grantPtr = [(6, 7)] && t.weir.acceptPtr = [(6, 7)] &&
      (t.pipe 22).toks.map (fun k => (k.id, k.ce, k.dest, k.gate)) = [(9, false, 3 * 2 ^ 27 + 40, 0)]) = true ∧
    tGot .weirSlot (tVoq [tVp 1 3 false]) (fun t => (t.voq (voqKey 6 6 3)).pkts = []) = true := by decide +kernel

theorem wit_slot_marks : (tVoq [tVp 1 0 false] (tSlot.wr (tcBase 6 3) R.WEIR_TC_ECN_TH 0)).depth 6 3 = 0 ∧
    tGot .weirSlot (tVoq [{ tVp 4 1 false with pkt := { tPkt (fit 1400 [0x45, 2, 0, 4]) with cls := 3 } }]
        (tSlot.wr (tcBase 6 3) R.WEIR_TC_ECN_TH 0)) (fun t => t.cnt (B.WEIR + C.WEIR_ECN_MARKED + 48) = 1 &&
      (t.pipe 22).toks.map (·.ce) = [true] && (t.voq (voqKey 6 6 3)).pkts.map (fun p => (p.left, p.cell, p.off, p.sent)) = [(1, 1, 0, true)] &&
      t.poolUsed 1 1 = 40) = true ∧
    tGot .weirSlot (tVoq [tVp 4 0 true]) (fun t => (t.voq (voqKey 6 6 3)).pkts = [] && (t.pipe 22).toks = []) = true := by decide +kernel

/-- The port of the copy has gone down since the enqueue; and a slot too many in two microseconds. -/
theorem wit_slot_cut : tOnly (tVoq [{ tVp 1 0 false with copies := [⟨3 * 2 ^ 27 + 40, 0, 0, true⟩] }]) = true ∧
    tGot .weirSlot (tVoq [{ tVp 1 0 false with copies := [⟨3 * 2 ^ 27 + 40, 0, 0, true⟩] }]) (fun t => (t.pipe 22).toks = [] &&
      (t.voq (voqKey 6 6 3)).pkts = [] && t.cnt (flushCnt 40) = 1) = true := by decide +kernel

theorem wit_slot_rate : ({ tVoq [tVp 1 0 false] with weir := { (tVoq [tVp 1 0 false]).weir with slotAt := List.replicate 2417 0 } } : State).slotsIn.length = 2417 := by
  decide +kernel

/-- R223's example: Q at 1,500 KiB against an average of 1,000, W 4. -/
theorem wit_average : State.reset.domOn 73 = false ∧
    tGot .congestionAverageUpdate { tVoq [{ tVp 1 0 false with pkt := tPkt (fit 1000 []) }] with
      weir := { (tVoq [{ tVp 1 0 false with pkt := tPkt (fit 1000 []) }]).weir with avg := [(51, 16000)] } }
      (fun t => t.avgOf 6 3 = 15016 && t.avgOf 6 4 = 0) = true := by decide +kernel

/-- Class 3 is a reservoir class, with no room on die beyond n cells. -/
def tSpill (l : List VPkt) (n : Nat := 0) : State :=
  tVoq l (tSlot.wr B.WEIR R.WEIR_RSVQ_CLASSES 8 |>.wr B.WEIR R.WEIR_RSVQ_SPILL_TH n)

theorem wit_spill_out : (tSpill [tVp 2 0 false, { tVp 2 0 false with id := 10 }]).use (voqKey 6 6 3) = 10 ∧
    (tSpill [tVp 2 0 false]).spillPages = 0 ∧ [7, 66, 67, 68].all (tSpill []).domOn = true ∧
    tGot (.spillOut 6 6 3) (tSpill [tVp 2 0 false, { tVp 2 0 false with id := 10 }]) (fun t =>
      (t.voq (voqKey 6 6 3)).pkts.map (fun p => (p.id, p.spilled)) = [(9, false), (10, true)] && t.poolUsed 1 1 = 35 &&
      t.cnt (B.HDR 6 + C.HDR_SPILLED) = 1) = true ∧
    tGot (.spillOut 6 6 3) (tSpill [{ tVp 2 0 false with spilled := true }, { tVp 2 0 false with id := 10 }, { tVp 2 0 false with id := 11 }])
      (fun t => (t.voq (voqKey 6 6 3)).pkts.map (·.spilled) = [true, true, false]) = true ∧
    tGot (.spillOut 6 6 3) (tSpill [tVp 1 0 false] 1) (fun t => t = tSpill [tVp 1 0 false] 1) = true ∧
    tGot (.spillOut 6 6 3) (tVoq [tVp 1 0 false]) (fun t => t = tVoq [tVp 1 0 false]) = true := by decide +kernel

/-- The mover is busy; a packet whose record has crossed; and a group's packet that another VOQ still holds on die. -/
theorem wit_spill_waits :
    (let s := { tSpill [tVp 2 0 false] with weir := { (tSpill [tVp 2 0 false]).weir with mover := [(2, 1)] } }
     tGot (.spillOut 6 6 3) s (fun t => t = s)) = true ∧
    tGot (.spillOut 6 6 3) (tSpill [tVp 2 0 true]) (fun t => t = tSpill [tVp 2 0 true]) = true ∧
    (let s := (tSpill [{ tVp 2 0 false with group := some (1, 0, 0, 2) }]).setVoq (voqKey 6 7 3)
       { pkts := [{ tVp 2 0 false with group := some (1, 0, 0, 2) }], next := 3, fill := 0 }
     s.sharedData (voqKey 6 6 3) (tVp 2 0 false) = false ∧
     tGot (.spillOut 6 6 3) s (fun t => (t.voq (voqKey 6 6 3)).pkts.map (·.spilled) = [true] && t.poolUsed 1 1 = 40)) := by decide +kernel

theorem wit_spill_back : (tSpill [] 1).sharedFree 1 = 606168 ∧
    tGot (.spillBack 6 6 3) (tSpill [{ tVp 2 0 false with spilled := true }, { tVp 2 0 false with id := 10 }] 1) (fun t =>
      (t.voq (voqKey 6 6 3)).pkts.map (fun p => (p.id, p.spilled, p.pool, p.cell)) = [(9, false, 1, 3), (10, false, 1, 0)] &&
      t.poolUsed 1 1 = 45) = true ∧
    tGot (.spillBack 6 6 3) (tSpill [tVp 2 0 false, { tVp 2 0 false with spilled := true }] 2) (fun t =>
      (t.voq (voqKey 6 6 3)).pkts.map (·.spilled) = [false, true]) = true ∧
    tGot (.spillBack 6 6 3) (tSpill [tVp 2 0 false] 2) (fun t => t = tSpill [tVp 2 0 false] 2) = true := by decide +kernel

/-- Group 5 has had two lists under two epochs. -/
def tOld (l : List VPkt) : State :=
  { tVoq l with weir := { (tVoq l).weir with old := [(5, 1, 0, 3), (5, 0, 3, 2), (6, 0, 9, 1)] } }

theorem wit_release : tGot (.groupEpochRelease 5) (tOld [{ tVp 1 0 false with group := some (5, 1, 0, 3) }])
      (fun t => t.weir.old = [(5, 1, 0, 3), (6, 0, 9, 1)]) = true := by decide +kernel

/-- The oldest token of headrace 6 is dropped and asks for a tap of reason 7: sampler 7 of quadrant 1 selects every second
packet into ring 2 of 64 entries at 0x1000, of which n are in use. -/
def tTap (n cnt : Nat) : State :=
  let c := tCarry (2 ^ 26 + 9 * 2 ^ 20) + 2 ^ 831 + 7 * 2 ^ 816
  let s := (((tPort 0x2400).wrW (B.TAP 1 + 0x400 + 28) (2 ^ 31 + 2 * 2 ^ 26 + 2)).wrW (B.TAP 1 + 0x40) 0x1000).wrW (B.TAP 1 + 0x4C) n
  { tExit 6 11 c s with weir := { WeirSt.init with samp := [(263, (cnt, 8))], lost := [(18, 4)] } }

theorem wit_tap : (tTap 0 1).domOn 73 = true ∧ (tTap 0 1).raOn 0x1000 = true ∧ Carry.tapReq (tCarry (2 ^ 26 + 9 * 2 ^ 20) + 2 ^ 831 + 7 * 2 ^ 816) = true ∧
    tGot (.tokenExitHeadrace 6) (tTap 63 1) (fun t => bytesAt t.mem (B.RA + 0x1000 + 160 * 63) 36 = 
        [7, 0, 0, 0, 0, 0, 0, 0] ++ [0, 0, 0, 0, 0, 0, 0x90, 4, 0, 0, 7, 3, 9, 0, 0, 0, 4, 0, 0, 0, 0, 0, 0, 0, 0x45, 2, 0, 4] &&
      t.rd (B.TAP 1 + 0x40) R.TAP_RING_PROD_PROD = 64 && t.weir.samp = [(263, (0, 9))] && t.weir.lost = [] &&
      t.cnt (B.TAP 1 + C.TAP_REC_WRITTEN + 16) = 1) = true ∧
    tGot (.tokenExitHeadrace 6) (tTap 64 1) (fun t => t.mem = [] && t.weir.lost = [(18, 5)] && t.weir.samp = [(263, (0, 9))] &&
      t.cnt (B.TAP 1 + C.TAP_REC_LOST + 16) = 1) = true ∧
    tGot (.tokenExitHeadrace 6) (tTap 0 0) (fun t => t.mem = [] && t.weir.samp = [(263, (1, 8))]) = true ∧
    tGot (.tokenExitHeadrace 6) { tTap 0 1 with weir := { (tTap 0 1).weir with tapAt := [(1, List.replicate 50 0)] } }
      (fun t => t.mem = [] && t.weir.lost = [(18, 5)]) = true := by decide +kernel

theorem wit_qos_tc : tGot (.qosTcSet (.host 0 3)) (tTbl 0x0340 [6, 3, 15, 4, 0xBD, 0x0F, 0, 0])
      (fun t => tEnd (.host 0 3) 0 [] t && (t.reg (B.WEIR + 0x10CC)).toNat = 0xF400_0FBD) = true ∧
    tGot (.qosTcSet (.host 0 3)) (tTbl 0x0340 [16, 3, 15, 4]) (tEnd (.host 0 3) 0x12 []) = true ∧
    tGot (.qosTcSet (.host 0 3)) (tTbl 0x0340 [6, 3, 15, 4, 0, 0, 0, 1]) (tEnd (.host 0 3) 0x12 []) = true := by decide +kernel

theorem wit_qos_red : tGot (.qosRedSet (.host 0 3)) (tTbl 0x0341 ([15, 0, 0, 0] ++ leBytes 4 (2000 * 2 ^ 16 + 1000) ++ leBytes 4 32))
      (fun t => tEnd (.host 0 3) 0 [] t && (t.reg (B.WEIR + 0x5E0)).toNat = 2000 * 2 ^ 16 + 1000 && t.reg (B.WEIR + 0x5E4) = 32
        && t.reg (B.WEIR + 0x5E8) = 0) = true ∧
    tGot (.qosRedSet (.host 0 3)) (tTbl 0x0341 ([15, 0, 0, 0] ++ leBytes 4 0 ++ leBytes 4 256)) (tEnd (.host 0 3) 0x12 []) = true := by
  decide +kernel

/-- R211's floor: 196,608 − 26,624 − 512 × GUAR − HDRM_POOL is 65,536 with GUAR 76 and HDRM_POOL 65,536 − 0. -/
def tBufSet (q guar hdrm alpha : Nat) : State :=
  tTbl 0x0342 (leBytes 2 q ++ leBytes 2 guar ++ leBytes 2 hdrm ++ leBytes 2 0 ++ leBytes 4 alpha) (tHost .survey)

theorem wit_qos_buf : 196608 - 26624 - 512 * 76 - 65536 = 65536 ∧
    tGot (.qosBufSet (.host 0 3)) (tBufSet 3 76 65535 0xC3) (fun t => tEnd (.host 0 3) 0 [] t && t.guar 3 = 76 && t.hdrmPool 3 = 65535
      && t.reg (B.WEIR + 0x30) = 0xC3) = true ∧
    tGot (.qosBufSet (.host 0 3)) (tBufSet 3 77 65535 0xC3) (tEnd (.host 0 3) 0x30 []) = true ∧
    tGot (.qosBufSet (.host 0 3)) (tBufSet 4 4 0 0) (tEnd (.host 0 3) 0x12 []) = true ∧
    tGot (.qosBufSet (.host 0 3)) (tBufSet 0 4 0 0xB0) (tEnd (.host 0 3) 0x12 []) = true := by decide +kernel

theorem wit_qos_pfc : tGot (.qosPfcSet (.host 0 3)) (tTbl 0x0343 ([95, 0] ++ leBytes 2 1024 ++ leBytes 2 768 ++ leBytes 2 2813))
      (fun t => tEnd (.host 0 3) 0 [] t && (t.reg (B.WEIR + 0x35F0)).toNat = 768 * 65536 + 1024 && t.reg (B.WEIR + 0x35F4) = 2813) = true ∧
    tGot (.qosPfcSet (.host 0 3)) (tTbl 0x0343 ([0x8F, 0] ++ leBytes 2 1024)) (fun t => tEnd (.host 0 3) 0 [] t &&
      t.reg (B.WEIR + 0x38F0) = 1024) = true ∧
    tGot (.qosPfcSet (.host 0 3)) (tTbl 0x0343 [96]) (tEnd (.host 0 3) 0x12 []) = true ∧
    tGot (.qosPfcSet (.host 0 3)) (tTbl 0x0343 [0x90]) (tEnd (.host 0 3) 0x12 []) = true := by decide +kernel

/-- GROUP_SET of group 4,095 with n members in a mode. -/
def tGrp (n mode : Nat) (w : WeirSt := WeirSt.init) : State :=
  tTbl 0x0344 (leBytes 2 4095 ++ leBytes 1 n ++ leBytes 1 mode ++ leBytes 4 0 ++ (List.range n).flatMap fun i => leBytes 4 (2 ^ 31 + i))
    { tHost with weir := w }

theorem wit_group_busy : tGot (.groupSet (.host 0 3)) (tGrp 2 1 { WeirSt.init with old := [(4095, 0, 9, 1)] })
    (tEnd (.host 0 3) 0x50 []) = true := by decide +kernel

theorem wit_group_set : tGot (.groupSet (.host 0 3)) (tGrp 57 0) (tEnd (.host 0 3) 0x12 []) = true ∧
    tGot (.groupSet (.host 0 3)) (tGrp 2 3) (tEnd (.host 0 3) 0x12 []) = true ∧
    tGot (.groupSet (.host 0 3)) (tGrp 56 1) (fun t => tEnd (.host 0 3) 0 [] t &&
      (tget (fun _ => []) t.weir.gstage 4095).length = 56) = true ∧
    tGot (.groupSet (.host 0 3)) (tGrp 9 2 { WeirSt.init with gstage := [(4095, List.replicate 56 0)] })
      (fun t => tEnd (.host 0 3) 0x12 [] t && t.weir.gstage = []) = true ∧
    tGot (.groupSet (.host 0 3)) (tGrp 2 0 { WeirSt.init with old := [(4095, 0, 9, 1)] }) (tEnd (.host 0 3) 0x50 []) = true := by
  decide +kernel

/-- The list taken by a command is placed at a free choice, which no kernel run shows; the free places exist. -/
theorem wit_group_room : (tGrp 2 0).memberRanges = [] ∧
    ({ tGrp 2 0 with weir := { WeirSt.init with groups := [(0, 64), (1, 64 * 65536 + 1)] } } : State).memberRanges = [(0, 64), (64, 1)] := by
  decide +kernel

theorem wit_group_read : tGot (.groupRead (.host 0 3)) (tTbl 0x0345 (leBytes 2 7 ++ [1]) { tHost with
        weir := { WeirSt.init with groups := [(7, 5 * 65536 + 2 ^ 15 + 3)], members := [(6, 0x8000_0001), (7, 0x8000_0002)] } })
      (tEnd (.host 0 3) 0 [3, 1, 2, 0, 1, 0, 0, 0x80, 2, 0, 0, 0x80]) = true ∧
    tGot (.groupRead (.host 0 3)) (tTbl 0x0345 (leBytes 2 7 ++ [64])) (tEnd (.host 0 3) 0x12 []) = true := by decide +kernel

theorem wit_tap_set : tGot (.tapSet (.host 0 3)) (tTbl 0x0346 ([1, 255, 0, 0] ++ leBytes 4 0xCF00_0001))
      (fun t => tEnd (.host 0 3) 0 [] t && (t.reg (B.TAP 1 + 0x7FC)).toNat = 0xCC00_0001) = true ∧
    tGot (.tapSet (.host 0 3)) (tTbl 0x0346 ([1, 255, 0, 0] ++ leBytes 4 0xCF00_0000)) (tEnd (.host 0 3) 0x12 []) = true ∧
    tGot (.tapSet (.host 0 3)) (tTbl 0x0346 ([4, 255, 0, 0] ++ leBytes 4 1)) (tEnd (.host 0 3) 0x12 []) = true := by decide +kernel

/-- A ring fits in its empty region, and one of 640 MiB does not beside another. -/
theorem wit_tap_room : ∃ b, Config.region 0 ≤ b ∧ b + 160 * 2 ^ 22 ≤ Config.region 0 + 2 ^ 30 := ⟨Config.region 0, by omega, by omega⟩

theorem wit_tap_full : (tTbl 0x0347 [1, 14, 22] ((tHost).wrW (B.TAP 1 + 0x1E0) 64 |>.wrW (B.TAP 1 + 0x1E8) 22)).tapPlaces 1 14 = [(64, 160 * 2 ^ 22)] := by
  decide +kernel

theorem wit_tap_ring : (tTbl 0x0347 [1, 15, 22]).tapPlaces 1 15 = [] ∧ 160 * 2 ^ 22 ≤ 2 ^ 30 ∧
    tGot (.tapRingSet (.host 0 3)) (tTbl 0x0347 [1, 15, 23]) (tEnd (.host 0 3) 0x20 []) = true ∧
    tGot (.tapRingSet (.host 0 3)) (tTbl 0x0347 [1, 15, 22] (tHost.setDom 67 false)) (tEnd (.host 0 3) 0x20 []) = true ∧
    tGot (.tapRingSet (.host 0 3)) (tTbl 0x0347 [1, 16, 6]) (tEnd (.host 0 3) 0x12 []) = true ∧
    tGot (.tapRingSet (.host 0 3)) (tTbl 0x0347 [1, 15, 25]) (tEnd (.host 0 3) 0x12 []) = true := by decide +kernel

/-! ### Egress queues, shapers and policers (chapter 10) -/

/-- A 1,518-byte frame in class 3 of slot 2 of tailrace 6, for port 40. -/
def tEp (id : Nat) (launch : Option Nat := none) : EPkt :=
  { id := id, voq := 0, pkt := tPkt (fit 1514 []), carry := 0, dest := 3 * 2 ^ 27 + 40, slot := 2, cls := 3, plot := 0, gen := 0, cells := 7,
    since := none, launch := launch, released := false }

/-- R240's example: class 3 is shaped at INC 81,920 and BURST 0x0100; `st` strict classes of the slot. -/
def tEgr (q : List EPkt) (c3 : Int) (st : Nat := 8) (now : Nat := 0) : State :=
  let s := (tSlot.wr (B.TLR 6 + 0x200) R.TLR_SLOT_CFG_STRICT st).wr (classBase 6 2 3) R.TLR_Q_SHP_INC 81920
  let s := (s.wrB (classBase 6 2 3) R.TLR_Q_SHP_SHP_EN true).setEgress 6 { EgrSt.empty with q := q, credit := [(35, c3)], force := [(35, some 20)] }
  { s with now := now }
def tCred (s : State) : Int := tget (fun _ => 0) (s.egress 6).credit 35

theorem wit_refill : (tEgr [] 0).domOn (domTR 6) = true ∧ (tEgr [] 0).shaper 6 35 = (true, 81920, 256, 2) ∧
    tGot (.shaperRefill (.tail 6)) (tEgr [tEp 1] (-18 * 1024)) (fun t => tCred t = 62 * 1024) = true ∧
    tGot (.shaperRefill (.tail 6)) (tEgr [] (-36 * 1024)) (fun t => tCred t = 0) = true ∧
    tGot (.shaperRefill (.tail 6)) (tEgr [tEp 1] (16384 * 1024)) (fun t => tCred t = 16384 * 1024) = true ∧
    tGot (.shaperRefill (.tail 6)) ((tEgr [tEp 1] 0).setEgress 6 { EgrSt.empty with q := [tEp 1], credit := [(35, 9)] })
      (fun t => tCred t = 0 && (t.egress 6).force = [(35, some 0)]) = true ∧
    tGot (.shaperRefill (.tail 6)) ((tEgr [tEp 1] 9).wrB (classBase 6 2 3) R.TLR_Q_SHP_SHP_EN false)
      (fun t => tCred t = 0 && (t.egress 6).force = []) = true ∧
    (let s := { tEgr [tEp 1] 5 with timers := [(Tm.tailShapers 6, 1)] }
     tGot (.shaperRefill (.tail 6)) s (fun t => t = s)) = true ∧ State.reset.domOn (domTR 6) = false := by decide +kernel

/-- Plot 1 of link 0 with transmit shaping on. -/
def tTx (armed : Bool) (wait : Nat) (c : Int) : State :=
  { tHost.wrW (B.PLOT 1 + R.PLOT_TX_SHP_SHP_EN.off) (2 ^ 31 + 100) with
    image := { Image.blank with allot := [(0, 2)] }, txCredit := [(1, c)], txArmed := if armed then [1] else [],
    qps := [(qpKey 1 0, { Qp.init with txProd := wait })] }

theorem wit_refill_plots : (tTx true 1 5).plotBase 0 = 0 ∧ (tTx true 1 5).allot 0 = 2 ∧
    tGot (.shaperRefill (.plots 0)) (tTx true 1 5) (fun t => t.txCredit = [(1, 105)]) = true ∧
    tGot (.shaperRefill (.plots 0)) (tTx true 0 (-5)) (fun t => t.txCredit = []) = true ∧
    tGot (.shaperRefill (.plots 0)) (tTx false 1 5) (fun t => t.txCredit = [] && t.txArmed = [1]) = true ∧
    tGot (.shaperRefill (.plots 0)) State.reset (fun t => t = State.reset) = true ∧
    (let s := { tTx true 1 5 with now := 640, timers := [(Tm.plotShapers 0, 11)] }
     tGot (.shaperRefill (.plots 0)) s (fun t => t = s)) = true := by decide +kernel

theorem wit_frame_start : (tEgr [tEp 1, tEp 2] 0).slotReady 6 2 = true ∧ (tEgr [tEp 1, tEp 2] 0).launchNext 6 ((tEgr [tEp 1, tEp 2] 0).egress 6) 2 = none ∧
    ((List.range 8).all fun c => (tEgr [tEp 1, tEp 2] 0).classEligible 6 ((tEgr [tEp 1, tEp 2] 0).egress 6) 2 c = decide (c = 3)) = true ∧
    (tEgr [tEp 1] 0).flag (portBase 40) R.ETH_PORT_CFG_MACSEC = false ∧ (tEgr [tEp 1] 0).shapedLen 6 (tEp 1) = 1518 ∧
    tGot (.slotFrameStart 6 2) (tEgr [tEp 1, tEp 2] 0) (fun t => (t.egress 6).q.map (·.id) = [2] && tCred t = -1538 * 1024 &&
      t.cnt (B.TLR 6 + 0x10 * 19 + C.TLR_TX_PKTS) = 1 && t.cnt (B.TLR 6 + 0x10 * 19 + C.TLR_TX_OCTETS) = 1518 && t.out.length = 1) = true ∧
    tGot (.slotFrameStart 6 2) (tEgr [tEp 1] (-1)) (fun t => t = tEgr [tEp 1] (-1)) = true ∧
    tGot (.slotFrameStart 6 2) ((tEgr [tEp 1] 0).wr (portBase 40) R.ETH_PORT_CFG_MAX_FRAME 1517)
      (fun t => (t.egress 6).q = [] && t.out = [] && t.cnt (portCnt 40 C.ETH_TX_OVERSIZE) = 1) = true ∧
    tGot (.slotFrameStart 6 3) (tEgr [tEp 1] 0) (fun t => t = tEgr [tEp 1] 0) = true := by decide +kernel

/-- Port 40 has one tailrace: nothing goes before it; its cells stay held until the frame has left. -/
theorem wit_frame_alone : (tEgr [tEp 1] 0).portSlots 40 = [(6, 2)] ∧ (tEgr [tEp 1] 0).yields 6 2 4 = false ∧
    tGot (.slotFrameStart 6 2) (tEgr [tEp 1] 0) (fun t => (t.egress 6).leaving.map (fun e => (e.1, e.2.2)) = [(40, 7)] && t.sending 40 &&
      t.slotReady 6 2 = false) = true := by decide +kernel

/-- Port 24 of tailraces 4 and 5, in slot 0 of both, with frames of strict classes 3 and 5 there. -/
def tMerge (last : Nat) (c5 : Nat := 5) : State :=
  let s := ((tOn .flowing).wrW (B.ETH 6) 0x100 |>.wrB (B.ETH 6) R.ETH_LG_CFG_SPAN8 true).wr (B.ETH 6) R.ETH_LG_CFG_LAYOUT 3
  let s := [4, 5].foldl (fun s t => ((s.wrB (B.TLR t) R.TLR_SLOT_CFG_EN true).wr (B.TLR t) R.TLR_SLOT_CFG_PORT 24).wr (B.TLR t) R.TLR_SLOT_CFG_STRICT 0x28) s
  let s := ((s.wrB (portBase 24) R.ETH_PORT_STATUS_LINK_UP true).wrB (portBase 24) R.ETH_PORT_CFG_EN true).wr (portBase 24) R.ETH_PORT_CFG_MAX_FRAME 9000
  let s := s.setEgress 4 { EgrSt.empty with q := [{ tEp 1 with slot := 0, dest := 24 }] }
  let s := s.setEgress 5 { EgrSt.empty with q := [{ tEp 2 with slot := 0, dest := 24, cls := c5 }] }
  { s with eth := { s.eth with lastTail := [(24, last)] } }

/-- The higher strict class goes first; of equal ones, that of the tailrace that did not send last. -/
theorem wit_frame_merge : (tMerge 6).slotChoice 5 0 ≠ none ∧ (5, 0) ∈ (tMerge 6).portSlots 24 ∧
    tGot (.slotFrameStart 4 0) (tMerge 6) (fun t => t = tMerge 6) = true ∧
    tGot (.slotFrameStart 5 0) (tMerge 6) (fun t => (t.egress 5).q = [] && t.eth.lastTail = [(24, 6)]) = true ∧
    tGot (.slotFrameStart 4 0) (tMerge 6 3) (fun t => (t.egress 4).q = [] && t.eth.lastTail = [(24, 5)]) = true ∧
    tGot (.slotFrameStart 5 0) (tMerge 6 3) (fun t => t = tMerge 6 3) = true := by decide +kernel

theorem wit_frame_weighted : tGot (.slotFrameStart 6 2) (tEgr [tEp 1, tEp 2] 0 0x80) (fun t => (t.egress 6).q.map (·.id) = [2] &&
      (t.egress 6).deficit = [(35, 9216 - 1518)] && (t.egress 6).turn = [(2, 4)]) = true ∧
    tGot (.slotFrameStart 6 2) (tEgr [tEp 1] 0 0x80) (fun t => (t.egress 6).q = [] && (t.egress 6).deficit = []) = true := by decide +kernel

/-- A launch-time packet of a released time goes before a strict one, and charges its class below 0. -/
theorem wit_frame_launch : (tEgr [tEp 2, { tEp 1 (some 5) with released := true }] 0 8 6).launchNext 6
        ((tEgr [tEp 2, { tEp 1 (some 5) with released := true }] 0 8 6).egress 6) 2 = some { tEp 1 (some 5) with released := true } ∧
    tGot (.slotFrameStart 6 2) (tEgr [tEp 2, { tEp 1 (some 5) with released := true }] (-1) 8 6)
      (fun t => (t.egress 6).q.map (·.id) = [2] && tCred t = -1538 * 1024 - 1 && t.cnt (B.TLR 6 + C.TLR_LT_SENT) = 1) = true := by decide +kernel

theorem wit_launch : (tEgr [] 0).lead (tEp 1) = 670 ∧
    tGot (.launchRelease 6) (tEgr [tEp 1 (some 670), tEp 2 (some 671), tEp 3] 0) (fun t => (t.egress 6).q.map (·.released) = [true, false, false]) = true ∧
    (tEgr [] 0 8 2000).tol 6 = 1000 ∧
    tGot (.launchLate 6) (tEgr [tEp 1 (some 999), tEp 2 (some 1000)] 0 8 2000) (fun t =>
      (t.egress 6).q.map (fun p => (p.id, p.launch)) = [(2, some 1000), (1, none)] && t.cnt (B.TLR 6 + C.TLR_LT_LATE_SENT) = 1) = true ∧
    tGot (.launchLate 6) ((tEgr [tEp 1 (some 999), tEp 2 (some 1000)] 0 8 2000).wrB (B.TLR 6) R.TLR_LT_CFG_LATE_ACT true) (fun t =>
      (t.egress 6).q.map (·.id) = [2] && t.cnt (B.TLR 6 + C.TLR_LT_LATE_DROP) = 1) = true ∧
    tGot (.launchLate 6) (tEgr [tEp 1 (some 1000)] 0 8 2000) (fun t => t = tEgr [tEp 1 (some 1000)] 0 8 2000) = true := by decide +kernel

/-- The head of class 3 of plot 1 in slot 8 has waited since 0 ns; its ring is live and has no post. -/
def tWait (now : Nat) (posts : Nat := 0) : State :=
  let p : EPkt := { tEp 7 with slot := 8, plot := 1, gen := 1, dest := 2 ^ 30 + 1, since := some 0 }
  { (tTx false 0 0).setEgress 6 { EgrSt.empty with q := [p] } with
    now := now, qps := [(qpKey 1 0, { Qp.init with live := true, rxProd := posts })] }

theorem wit_rx_wait : (tWait 100000).ringTakes { tEp 7 with slot := 8, plot := 1, gen := 1, dest := 2 ^ 30 + 1 } = false ∧
    (tWait 100000).domOn (domTR 6) = true ∧
    tGot (.rxWaitExpiry 6 1 3) (tWait 100000) (fun t => (t.egress 6).q = [] && t.cnt (B.TLR 6 + C.TLR_RX_NOBUF_DROP) = 1) = true ∧
    tGot (.rxWaitExpiry 6 1 3) (tWait 99999) (fun t => t = tWait 99999) = true ∧
    tGot (.rxWaitExpiry 6 1 3) ((tWait 100000).setEgress 6 { EgrSt.empty with deliver := [{ tEp 7 with slot := 8, plot := 1, since := some 0 }] })
      (fun t => (t.egress 6).deliver = [] && t.cnt (B.TLR 6 + C.TLR_RX_NOBUF_DROP) = 1) = true := by decide +kernel

/-- Port 40 is configured, of two lanes, and the two ends of its slot's settings are given. -/
def tEset (target strict ov en inc burst : Nat) : State :=
  tTbl 0x0350 ([BitVec.ofNat 8 target, BitVec.ofNat 8 strict, BitVec.ofNat 8 ov, BitVec.ofNat 8 en] ++ leBytes 4 inc ++ leBytes 2 burst)
    ((tEgr [tEp 1] 0).setEgress 6 { EgrSt.empty with deficit := [(34, 7), (35, 9)] })

theorem wit_egr_slot : (tEset 40 0x84 0 0 1 1).egrTargets 40 = [(6, 2)] ∧ (tEset 40 0 0 0 1 1).straddles 40 = false ∧
    tGot (.egrSlotSet (.host 0 3)) (tEset 40 0x8C 0xE0 1 (2 ^ 24 - 1) 65535) (fun t => tEnd (.host 0 3) 0 [] t &&
      t.rd (B.TLR 6 + 0x200) R.TLR_SLOT_CFG_STRICT = 0x8C && t.overhead 6 2 = -32 && t.rd (B.TLR 6 + 0x200) R.TLR_SLOT_SHP_INC = 2 ^ 24 - 1
      && t.flag (B.TLR 6 + 0x200) R.TLR_SLOT_SHP_SHP_EN && (t.egress 6).deficit = [(35, 9)]) = true ∧
    tGot (.egrSlotSet (.host 0 3)) (tEset 40 0x8C 0xDF 1 1 1) (tEnd (.host 0 3) 0x12 []) = true ∧
    tGot (.egrSlotSet (.host 0 3)) (tEset 40 0x8C 64 1 1 1) (tEnd (.host 0 3) 0x12 []) = true ∧
    tGot (.egrSlotSet (.host 0 3)) (tEset 40 0x8D 0 1 1 1) (tEnd (.host 0 3) 0x12 []) = true ∧
    tGot (.egrSlotSet (.host 0 3)) (tEset 40 0x80 0 1 0 1) (tEnd (.host 0 3) 0x12 []) = true ∧
    tGot (.egrSlotSet (.host 0 3)) (tEset 41 0x80 0 1 1 1) (tEnd (.host 0 3) 0x12 []) = true := by decide +kernel

/-- Port 24 straddles tailraces 4 and 5 with weights 6 and 2 (R241's example), in slot 0 of both. -/
def tStraddle (en : Nat) : State :=
  let s := ((tHost.wrW (B.ETH 6) 0x100).wrB (B.ETH 6) R.ETH_LG_CFG_SPAN8 true).wr (B.ETH 6) R.ETH_LG_CFG_LAYOUT 3
  let s := [4, 5].foldl (fun s t => (s.wrB (B.TLR t) R.TLR_SLOT_CFG_EN true).wr (B.TLR t) R.TLR_SLOT_CFG_PORT 24) s
  tTbl 0x0350 ([24, 0x80, 20, BitVec.ofNat 8 en] ++ leBytes 4 800 ++ leBytes 2 256) s

theorem wit_egr_straddle : (tStraddle 1).straddles 24 = true ∧ (tStraddle 1).egrTargets 24 = [(4, 0), (5, 0)] ∧
    tGot (.egrSlotSet (.host 0 3)) (tStraddle 1) (fun t => tEnd (.host 0 3) 0 [] t &&
      t.rd (B.TLR 4) R.TLR_SLOT_SHP_INC + t.rd (B.TLR 5) R.TLR_SLOT_SHP_INC = 800) = true ∧
    tGot (.egrSlotSet (.host 0 3)) (tStraddle 0) (fun t => t.flag (B.TLR 4) R.TLR_SLOT_SHP_SHP_EN && t.flag (B.TLR 5) R.TLR_SLOT_SHP_SHP_EN) = true := by
  decide +kernel

def tEcls (cl inc burst quant qlim : Nat) : State :=
  tTbl 0x0351 ([0xC6, BitVec.ofNat 8 cl, 1, 0] ++ leBytes 4 inc ++ leBytes 2 burst ++ leBytes 2 quant ++ leBytes 2 qlim)

theorem wit_egr_class : (tHost).egrTargets 0xC6 = [(6, 9)] ∧
    tGot (.egrClassSet (.host 0 3)) (tEcls 7 5 6 64 4096) (fun t => tEnd (.host 0 3) 0 [] t &&
      t.reg (classBase 6 9 7 + 0x2010) = 0x8000_0005 && t.reg (classBase 6 9 7 + 0x2014) = 6 && t.reg (classBase 6 9 7 + 0x2018) = 0x0040_1000) = true ∧
    tGot (.egrClassSet (.host 0 3)) (tEcls 7 5 6 63 4096) (tEnd (.host 0 3) 0x12 []) = true ∧
    tGot (.egrClassSet (.host 0 3)) (tEcls 7 5 6 64 4097) (tEnd (.host 0 3) 0x12 []) = true ∧
    tGot (.egrClassSet (.host 0 3)) (tEcls 8 5 6 64 4096) (tEnd (.host 0 3) 0x12 []) = true := by decide +kernel

theorem wit_egr_launch : tGot (.egrLaunchSet (.host 0 3)) (tTbl 0x0352 ([6, 1, 0, 0] ++ leBytes 4 0xFFFFF ++ leBytes 2 9)) (fun t =>
      tEnd (.host 0 3) 0 [] t && t.reg (B.TLR 6 + 0x2C00) = 0x800F_FFFF && t.tol 6 = 9) = true ∧
    tGot (.egrLaunchSet (.host 0 3)) (tTbl 0x0352 ([6, 2, 0, 0] ++ leBytes 4 1)) (tEnd (.host 0 3) 0x12 []) = true ∧
    tGot (.egrLaunchSet (.host 0 3)) (tTbl 0x0352 ([6, 1, 0, 0] ++ leBytes 4 0x100000)) (tEnd (.host 0 3) 0x12 []) = true := by decide +kernel

theorem wit_egr_read : tGot (.egrRead (.host 0 3)) (tTbl 0x0353 [40, 0] (tEgr [tEp 1] (-1))) (fun t =>
      ((t.tag (.host 0 3)).fin.map fun f => (f.data.length, leNat (f.data.take 4), leNat ((f.data.drop 16).take 4), leNat ((f.data.drop 80).take 4))) =
        some (148, 6, 8 * 256 + 8, 7)) = true ∧
    tGot (.egrRead (.host 0 3)) (tTbl 0x0353 [40, 1] (tEgr [tEp 1] (-1))) (tEnd (.host 0 3) 0x12 []) = true := by decide +kernel

/-- R247: the words of R246's example in meter 70,000. -/
def tMset (x i mode : Nat) : State :=
  tTbl 0x0354 ([BitVec.ofNat 8 x, 0, 0, 0] ++ leBytes 4 i ++ leBytes 8 (mode * 2 ^ 62 + 8192 * 2 ^ 24 + 16384) ++ leBytes 8 (3000 * 2 ^ 32 + 6000))

theorem wit_meter_set : tGot (.meterSet (.host 0 3)) (tMset 0xFF 70000 1) (fun t => tEnd (.host 0 3) 0 [] t &&
      (List.range 4).all fun q => Meter.tc (t.meter q 70000) = 3072000 && Meter.tp (t.meter q 70000) = 6144000) = true ∧
    tGot (.meterSet (.host 0 3)) (tMset 2 65536 1) (fun t => tEnd (.host 0 3) 0 [] t && t.meter 1 65536 = 0 && t.meter 2 65536 ≠ 0) = true ∧
    tGot (.meterSet (.host 0 3)) (tMset 2 65535 1) (tEnd (.host 0 3) 0x30 []) = true ∧
    tGot (.meterSet (.host 0 3)) (tMset 2 262144 1) (tEnd (.host 0 3) 0x12 []) = true ∧
    tGot (.meterSet (.host 0 3)) (tMset 2 70000 3) (tEnd (.host 0 3) 0x12 []) = true ∧
    tGot (.meterSet (.host 0 3)) (tMset 4 70000 1) (tEnd (.host 0 3) 0x12 []) = true := by decide +kernel

theorem wit_meter_read : tGot (.meterRead (.host 0 3)) (tTbl 0x0355 ([3, 0, 0, 0] ++ leBytes 4 70000) { tHost with
        tbl := { TblSt.init with meters := [(meterKey 3 70000, 5)] } }) (tEnd (.host 0 3) 0 (leBytes 32 5)) = true ∧
    tGot (.meterRead (.host 0 3)) (tTbl 0x0355 ([3, 0, 0, 0] ++ leBytes 4 9)) (tEnd (.host 0 3) 0x30 []) = true ∧
    tGot (.meterRead (.host 0 3)) (tTbl 0x0355 ([4, 0, 0, 0] ++ leBytes 4 70000)) (tEnd (.host 0 3) 0x12 []) = true := by decide +kernel

/-! ### Host ports on PCIe (chapter 11) -/

/-- Link 0, an x16 link with two plots, held in reset at `now`; both supplies came up at 0. -/
def tPerst (now : Nat) : State :=
  { tOn .flowing with now := now, image := { Image.blank with allot := [(0, 2)] }, modes := { State.reset.modes with auxAt := 0, pgAt := some 0 },
                      links := [(0, { LinkSt.init with perst := true })] }

theorem wit_perst_release : (tPerst (ms 1000)).perstTimeOk = true ∧ (tPerst (ms 1000 - 1)).perstTimeOk = false ∧
    (tPerst 0).mild 275 ∧ (tPerst 0).linkExists 1 = false ∧
    tGot (.perstRelease 0) (tPerst (ms 1000)) (fun t => !(t.link 0).perst && !t.sticky 275) = true ∧
    tGot (.perstRelease 0) (tPerst (ms 1000 - 1)) (fun t => !(t.link 0).perst && t.sticky 275) = true ∧
    tGot (.perstRelease 1) (tPerst 0) (fun t => t = tPerst 0) = true := by decide +kernel

def tFree : State := { tPerst (ms 1000) with links := [(0, { LinkSt.init with perst := false })] }

theorem wit_host_link_up : tFree.linkUp 0 = false ∧ tFree.fullWidth 0 = 16 ∧ tFree.mild 274 ∧ tFree.widthOk 0 16 = true ∧ tFree.widthOk 0 12 = false ∧
    tGot (.hostLinkUp 0 3 16 true) tFree (fun t => t.linkUp 0 && t.rd (B.HPT 0) R.HPT_LINK_RATE = 3 && t.flag (B.HPT 0) R.HPT_LINK_FLIT
      && !t.sticky 274) = true ∧
    tGot (.hostLinkUp 0 5 8 true) tFree (fun t => t.linkUp 0 && t.rd (B.HPT 0) R.HPT_LINK_TX_WIDTH = 8 && t.sticky 274) = true ∧
    tGot (.hostLinkUp 0 2 16 true) tFree (fun t => t.sticky 274) = true ∧
    tGot (.hostLinkUp 0 5 16 true) (tPerst (ms 1000)) (fun t => !t.linkUp 0) = true := by decide +kernel

theorem wit_rate_change : tGot (.hostLinkRateChange 0 5 16) tHost (fun t => t.rd (B.HPT 0) R.HPT_LINK_RATE = 5 && !t.sticky 274) = true ∧
    tGot (.hostLinkRateChange 0 5 4) tHost (fun t => t.rd (B.HPT 0) R.HPT_LINK_WIDTH = 4 && t.sticky 274) = true ∧
    tGot (.hostLinkRateChange 0 5 3) tHost (fun t => t = tHost) = true := by decide +kernel

/-- Link 0 is up with two plots; VF1 is plot 1, a live network plot with one queue pair. -/
def tVf (fn : Fn := Fn.init) (now : Nat := 5) : State :=
  { tHost.wrB (B.PLOT 1) R.PLOT_CFG_EN true with
    image := { Image.blank with allot := [(0, 2)] }, modes := { tHost.modes with lkRunning := true }, now := now,
    links := [(0, { LinkSt.init with perst := false, vfEnable := true, numVFs := 1, outstanding := [⟨4, 1, qpKey 1 0, 1, 1, 0⟩, ⟨5, 0, qpKey 0 0, 1, 1, 0⟩] })],
    fns := [(0, { Fn.init with mse := true, bme := true, ready := true }), (1, fn)], qps := [(qpKey 1 0, { Qp.init with live := true })] }
def tFn : Fn := { Fn.init with mse := true, bme := true, ready := true }

theorem wit_function_ready : tGot (.functionReady 0 1) tVf (fun t => (t.fn 0 1).ready) = true ∧
    tGot (.functionReady 0 0) ((tVf).wrB (B.LKP 0) R.LKP_HMB_STATUS_READY false) (fun t => t.flag (B.LKP 0) R.LKP_HMB_STATUS_READY) = true ∧
    tGot (.functionReady 0 2) tVf (fun t => t = tVf) = true := by decide +kernel

theorem wit_flr : (tVf tFn).cfgReaches 0 1 = true ∧ (tVf tFn).plotOf 0 1 = some 1 ∧ (tVf tFn).answers 0 1 = true ∧ (tVf tFn).flrSet 0 0 = [0, 1] ∧
    tGot (.flrInitiate 0 1) (tVf tFn) (fun t => (t.fn 0 1).flrAt = some 5 && !t.answers 0 1 && t.answers 0 0 &&
      (t.link 0).outstanding.map (·.tag) = [5] && t.rd (B.VF 1) R.PLOT_STATE_STATE = 3) = true ∧
    tGot (.flrInitiate 0 0) (tVf tFn) (fun t => (t.link 0).outstanding = [] && (t.link 0).silent = [5, 4] && (t.fn 0 1).flrAt = some 5
      && t.rd (B.LKP 0) R.LKP_HMB_STATUS_MGEN = 2 && !t.flag (B.LKP 0) R.LKP_HMB_STATUS_READY) = true ∧
    tGot (.flrInitiate 0 2) (tVf tFn) (fun t => t = tVf tFn) = true := by decide +kernel

theorem wit_flr_done : (tVf { tFn with flrAt := some 0 }).jobs = [] ∧
    tGot (.flrDone 0 1) (tVf { tFn with flrAt := some 0 }) (fun t => t.fn 0 1 = { Fn.init with ready := true } && t.plotGen 1 = 2 && t.plotGen 0 = 1
      && t.qp (qpKey 1 0) = Qp.init && t.cnt (B.HPTC 0 + C.HPT_FLR_DONE) = 1) = true ∧
    tGot (.flrDone 0 0) ((tVf tFn).setFn 0 0 { tFn with flrAt := some 0 }) (fun t => t.plotGen 1 = 2 && t.plotGen 0 = 2 && !(t.link 0).vfEnable
      && t.rd (B.LKP 0) R.LKP_HMB_STATUS_MGEN = 1 && t.flag (B.LKP 0) R.LKP_HMB_STATUS_READY && t.linkUp 0) = true ∧
    tGot (.flrDone 0 1) (tVf tFn) (fun t => t = tVf tFn) = true ∧
    tGot (.d3hotToD0 0 1) (tVf { tFn with d3 := true }) (fun t => t.fn 0 1 = { Fn.init with ready := true } && t.plotGen 1 = 2 && t.cnts = []) = true := by
  decide +kernel

theorem wit_link_lost : tGot (.hotReset 0 .dlDown) (tVf tFn) (fun t => !t.linkUp 0 && t.plotGen 1 = 2 && t.rd (B.LKP 0) R.LKP_HMB_STATUS_MGEN = 2 &&
      !t.flag (B.LKP 0) R.LKP_HMB_STATUS_READY && !(t.fn 0 0).ready && t.cnt (B.HPTC 0 + C.HPT_LINK_DOWN) = 1) = true ∧
    (tVf tFn).mild 273 ∧ tGot (.hotReset 0 .surprise) (tVf tFn) (fun t => !t.linkUp 0 && t.sticky 273) = true ∧
    tGot (.perstAssert 0) (tVf tFn) (fun t => (t.link 0).perst && t.cnt (B.HPTC 0 + C.HPT_LINK_DOWN) = 1) = true ∧
    tGot (.hotReset 0 .hotReset) (tOn .flowing) (fun t => t = tOn .flowing) = true := by decide +kernel

def tUr (t : State) : Bool := t.reply = .ur && t.flag (B.HPT 0) R.HPT_ERR_UR_SENT && t.cnt (B.HPTC 0 + C.HPT_UR_SENT) = 1 && t.sticky 273

theorem wit_refused : ([HostReq.io, .noBar 0, .vdm false false, .read 0 4 0 4, .read 1 0 0 4, .write 0 1 0 [0, 0, 0, 0] false, .cfgRead 2 .numVFs].all
      fun x => tGot (.hostMemoryRequest 0 x) tVf tUr) = true ∧
    tGot (.hostMemoryRequest 0 (.write 0 0 0x10 [0, 0, 0, 0] true)) tVf (fun t => t.reply = .discarded && t.flag (B.HPT 0) R.HPT_ERR_POISON_RX &&
      bitOf (t.link 0).aer 28 && t.rd (B.HPT 0) R.HPT_PM_CFG_L1_IDLE = 8) = true := by decide +kernel

/-- PF0 of link 0 is itself a live network plot with queue pair 1. -/
def tServe : State := { (tVf).wrB (B.PLOT 0) R.PLOT_CFG_EN true with qps := [(qpKey 0 1, { Qp.init with live := true })] }

theorem wit_served : (tVf).answers 0 0 = true ∧ (tVf).waitingOf (.host 0 0) = [] ∧
    tGot (.hostMemoryRequest 0 (.read 0 0 0 4)) tVf (fun t => t.reply = .data 0xA55A) = true ∧
    tGot (.hostMemoryRequest 0 (.write 0 2 0x48 (leBytes 8 0x0001_0000_0000_0000) false)) tServe (fun t => t.reply = .ok && (t.qp 1).rxProd = 0) = true ∧
    tGot (.hostMemoryRequest 0 (.cfgRead 0 .numVFs)) tVf (fun t => t.reply = .data 1) = true ∧
    tGot (.hostMemoryRequest 0 (.broken .malformed)) tVf (fun t => t.reply = .discarded && bitOf (t.link 0).aer 34 && t.sticky 273) = true ∧
    tGot (.hostMemoryRequest 0 (.cfgWrite 1 (.mse true))) tVf (fun t => t.reply = .rrs) = true ∧
    tGot (.hostMemoryRequest 0 (.cfgWrite 1 .d3hot)) (tVf tFn) (fun t => (t.fn 0 1).d3 && t.reply = .ok) = true ∧
    tGot (.hostMemoryRequest 0 (.cfgWrite 0 (.numVFs 2))) tVf (fun t => (t.link 0).numVFs = 1) = true ∧
    tGot (.hostMemoryRequest 0 (.cfgWrite 0 (.numVFs 0))) tVf (fun t => (t.link 0).numVFs = 0) = true ∧
    tGot (.hostMemoryRequest 0 (.cfgWrite 0 (.vfEnable false))) tVf (fun t => !(t.link 0).vfEnable) = true := by decide +kernel

theorem wit_bme : tGot (.busMasterEnable 0 1 false) (tVf tFn) (fun t => !(t.fn 0 1).bme) = true ∧
    tGot (.busMasterEnable 0 1 true) { (tVf tFn).wr (B.VF 1) R.PLOT_STATE_STATE 1 with qps := [(qpKey 1 0, { Qp.init with live := true, heldDb := [(0, 9)] })] }
      (fun t => t.qp (qpKey 1 0) = { Qp.init with live := true, txProd := 9 }) = true ∧
    tGot (.busMasterEnable 0 1 true) { tVf { tFn with bme := false, held := [.write 0 1 8 [1], .msix 0 1 3] } with qps := [] }
      (fun t => t.out = [.write 0 1 8 [1], .msix 0 1 3] && (t.fn 0 1).held = [] && (t.fn 0 1).bme) = true := by decide +kernel

theorem wit_cto : tGot (.ctoValueWrite 0 1) tVf (fun t => t.rd (B.HPT 0) R.HPT_CTO_CTO = 100 && (t.link 0).ctoField = 1) = true ∧
    tGot (.ctoValueWrite 0 3) tVf (fun t => t = tVf) = true := by decide +kernel

/-- The same, 50 ms and more after its reads were issued. -/
def tCtoLate : State := tVf Fn.init 50000005

theorem wit_timeout : (tVf).chainOfRead ⟨4, 1, qpKey 1 0, 1, 1, 0⟩ = none ∧
    tGot (.completionTimeout 0 4 []) tVf (fun t => (t.link 0).outstanding.map (·.tag) = [4, 5]) = true ∧
    tGot (.completionTimeout 0 4 []) tCtoLate (fun t => (t.link 0).outstanding.map (·.tag) = [5] && (t.link 0).dead = [(4, 100000005)] &&
      t.cnt (B.HPTC 0 + C.HPT_CTO_EVENTS) = 1 && t.sticky 273) = true ∧
    tGot (.dmaCompletion 0 4 [] .ok) tCtoLate (fun t => (t.link 0).outstanding.map (·.tag) = [5] && t.cnt (B.HPTC 0 + C.HPT_CTO_EVENTS) = 1 &&
      t.cnt (B.HPTC 0 + C.HPT_UNEXP_CPL) = 1) = true ∧
    tGot (.dmaCompletion 0 9 [] .ok) tVf (fun t => t.flag (B.HPT 0) R.HPT_ERR_UNEXP_CPL && t.cnt (B.HPTC 0 + C.HPT_UNEXP_CPL) = 1) = true ∧
    tGot (.dmaCompletion 0 9 [] .ok) ((tVf).setLink 0 { LinkSt.init with silent := [9] }) (fun t => (t.link 0).silent = [] && t.cnts = []) = true ∧
    tGot (.dmaCompletion 0 4 [] .ok) tVf (fun t => (t.link 0).outstanding.map (·.tag) = [5] && t.cnts = []) = true ∧
    tGot (.dmaCompletion 0 4 [] .poisoned) tVf (fun t => t.flag (B.HPT 0) R.HPT_ERR_POISON_CPL) = true := by decide +kernel

def tIdleLink (now : Nat) (l : LinkSt) : State :=
  { (tHost.wr (B.HPT 0) R.HPT_LINK_RATE 5).wr (B.HPT 0) R.HPT_LINK_TX_WIDTH 16 with now := now, links := [(0, l)] }

theorem wit_l1 : tGot (.l1Entry 0) (tIdleLink 8000 { LinkSt.init with aspmL1 := true }) (fun t => t.rd (B.HPT 0) R.HPT_LINK_PM = 2 &&
      t.cnt (B.HPTC 0 + C.HPT_L1_ENTRIES) = 1) = true ∧
    tGot (.l1Entry 0) (tIdleLink 7999 { LinkSt.init with aspmL1 := true }) (fun t => t.rd (B.HPT 0) R.HPT_LINK_PM = 0) = true := by decide +kernel

theorem wit_l0p : tGot (.l0pNarrow 0) ((tIdleLink 0 { LinkSt.init with l0pEn := true }).wrB (B.HPT 0) R.HPT_LINK_FLIT true)
      (fun t => t.rd (B.HPT 0) R.HPT_LINK_TX_WIDTH = 8 && t.rd (B.HPT 0) R.HPT_LINK_PM = 1 && t.cnt (B.HPTC 0 + C.HPT_L0P_CHANGES) = 1) = true ∧
    tGot (.l0pNarrow 0) (((tIdleLink 0 { LinkSt.init with l0pEn := true }).wrB (B.HPT 0) R.HPT_LINK_FLIT true).wr (B.HPT 0) R.HPT_LINK_TX_WIDTH 4)
      (fun t => t.rd (B.HPT 0) R.HPT_LINK_TX_WIDTH = 4) = true ∧
    tGot (.l0pNarrow 0) { (tIdleLink 99999 { LinkSt.init with l0pEn := true }).wrB (B.HPT 0) R.HPT_LINK_FLIT true with timers := [(Tm.txWidth 0, 1)] }
      (fun t => t.rd (B.HPT 0) R.HPT_LINK_TX_WIDTH = 16) = true ∧
    tGot (.l0pWiden 0) (((tIdleLink 0 LinkSt.init).wr (B.HPT 0) R.HPT_LINK_WIDTH 16).wr (B.HPT 0) R.HPT_LINK_TX_WIDTH 4 |>.wr (B.HPT 0) R.HPT_LINK_PM 1)
      (fun t => t.rd (B.HPT 0) R.HPT_LINK_TX_WIDTH = 16 && t.rd (B.HPT 0) R.HPT_LINK_PM = 0) = true := by decide +kernel

theorem wit_ats : tGot (.atsInvalidate 0 1 7) (tVf { tFn with ats := true, xlat := [6, 7] }) (fun t => (t.fn 0 1).xlat = [6] && t.out.length = 1) = true ∧
    tGot (.atsInvalidate 0 1 7) (tVf { tFn with xlat := [6, 7] }) (fun t => (t.fn 0 1).xlat = [6, 7]) = true := by decide +kernel

/-! ### Channel rings (chapter 12) -/

/-- Plot 1 (VF1 of link 0) runs, with a window of 256 pages at 0x100000 and queue pair 0 on pipeline 3. -/
def tRing (x : Qp) : State :=
  let s := ((tVf tFn 9000).wr (B.VF 1) R.PLOT_STATE_STATE 1).wrW (B.PLOT 1 + R.PLOT_WIN_LO_ADDR.off) 0x10_0003
  let s := s.wrW (B.PLOT 1 + R.PLOT_WIN_PAGES_PAGES.off) 0x100
  { (s.wr (B.PLOT 1) R.PLOT_XGEN_XGEN 7).wrW (s.qpRegs 1 0 + 0x1014) 0x0000_0401 with
    links := [(0, { LinkSt.init with perst := false, vfEnable := true, numVFs := 1 })],
    qps := [(qpKey 1 0, { x with live := true, bind := 3, txBase := 0x10_0000, rxBase := 0x10_1000, txc := { x.txc with base := 0x10_2000 },
                                 rxc := { x.rxc with base := 0x10_3000 } })] }
def tBell (gen n : Nat) (arm : Nat := 0) : DWord := BitVec.ofNat 64 (gen * 2 ^ 48 + arm * 2 ^ 32 + n)
def tQ (t : State) : Qp := t.qp (qpKey 1 0)

theorem wit_bells : (tRing Qp.init).answers 0 1 = true ∧ (tRing Qp.init).plotState 1 = 1 ∧ (tRing Qp.init).isStorage 1 = false ∧
    (tRing Qp.init).ringHeld (qpKey 1 0) = false ∧ (tRing Qp.init).ringPosts (qpKey 1 0) = true ∧
    tGot (.txDb (.plot 1 0) (tBell 7 64)) (tRing Qp.init) (fun t => (tQ t).txProd = 64 && t.reply = .ok) = true ∧
    tGot (.txDb (.plot 1 0) (tBell 7 65)) (tRing Qp.init) (fun t => (tQ t).txProd = 0 && (tQ t).err = 1) = true ∧
    tGot (.rxDb (.plot 1 0) (tBell 7 64)) (tRing Qp.init) (fun t => (tQ t).rxProd = 64) = true ∧
    tGot (.rxDb (.plot 1 0) (tBell 7 65)) (tRing Qp.init) (fun t => (tQ t).err = 1) = true ∧
    tGot (.txDb (.plot 1 0) (tBell 6 5)) (tRing Qp.init) (fun t => (tQ t).txProd = 0 && t.reg (t.qpRegs 1 0 + 0x101C) = 0x1_0000) = true ∧
    tGot (.txDb (.plot 1 1) (tBell 6 5)) (tRing Qp.init) (fun t => t = { tRing Qp.init with reply := .ok }) = true ∧
    tGot (.txDb (.plot 1 0) (tBell 7 5)) ((tRing Qp.init).wr (B.VF 1) R.PLOT_STATE_STATE 2)
      (fun t => (tQ t).heldDb = [(0, 7 * 2 ^ 48 + 5)] && (tQ t).txProd = 0) = true ∧
    tGot (.txDb (.plot 1 0) (tBell 7 5)) ((tRing Qp.init).wr (B.VF 1) R.PLOT_STATE_STATE 3) tUr = true ∧
    tGot (.txDb (.plot 2 0) (tBell 7 5)) (tRing Qp.init) (fun t => t = tRing Qp.init) = true ∧
    tGot (.txDb (.core 4) (tBell 0 5)) ((tRing Qp.init).setQp (coreRingKey 4) { Qp.init with live := true })
      (fun t => (t.qp (coreRingKey 4)).txProd = 5) = true := by decide +kernel

theorem wit_arm : tGot (.txcDb (.plot 1 0) (tBell 7 2)) (tRing { Qp.init with txc := { CplRing.init with prod := 3, n := 3, times := [1, 2, 3], armed := false } })
      (fun t => (tQ t).txc.cons = 2 && (tQ t).txc.n = 3 && !(tQ t).txc.armed && t.out = []) = true ∧
    tGot (.txcDb (.plot 1 0) (tBell 7 2 1)) (tRing { Qp.init with txc := { CplRing.init with prod := 3, n := 3, times := [1, 2, 3], armed := false } })
      (fun t => (tQ t).txc.n = 0 && !(tQ t).txc.armed) = true ∧
    tGot (.rxcDb (.plot 1 0) (tBell 7 3 1)) (tRing { Qp.init with rxc := { CplRing.init with prod := 3, n := 3, times := [1, 2, 3], armed := false } })
      (fun t => (tQ t).rxc.n = 0 && (tQ t).rxc.armed) = true ∧
    tGot (.rxcDb (.plot 1 0) (tBell 7 4)) (tRing { Qp.init with rxc := { CplRing.init with prod := 3 } }) (fun t => (tQ t).err = 1) = true ∧
    (tRing Qp.init).irqOf (qpKey 1 0) false = (0, 1, 1) := by decide +kernel

theorem wit_moderation : tGot (.irqModerationTimeout (.plot 1 0) true)
      ((tRing { Qp.init with rxc := { CplRing.init with n := 1, times := [8000] } }).wrW ((tRing Qp.init).qpRegs 1 0 + 0x1018) 0x402)
      (fun t => (tQ t).rxc.n = 0 && !(tQ t).rxc.armed) = true ∧
    tGot (.irqModerationTimeout (.plot 1 0) true)
      ((tRing { Qp.init with rxc := { CplRing.init with n := 1, times := [8001] } }).wrW ((tRing Qp.init).qpRegs 1 0 + 0x1018) 0x402)
      (fun t => (tQ t).rxc.n = 1 && (tQ t).rxc.armed) = true := by decide +kernel

/-- A descriptor: 100 bytes at 0x110000, with EOP and further bits. -/
def tDesc (len : Nat) (w16 w20 w24 : Nat) : List Byte := leBytes 8 0x11_0000 ++ leBytes 8 5 ++ leBytes 4 (len + w16) ++ leBytes 4 w20 ++ leBytes 4 w24 ++ leBytes 4 0
def tWork : State := tRing { Qp.init with txProd := 2, cls := 5 }
def tC (t : State) : Chain := (tQ t).chains.getLastD { seq := 0, index := 0, posts := 0, len := 0, status := 0, toTake := 0, tsReq := false, ended := false, time := 0, frac := 0, tsValid := false, sa := 0, desc := [], pend := none }

theorem wit_fetch : tWork.mayFetch (qpKey 1 0) = true ∧ (tRing Qp.init).mayFetch (qpKey 1 0) = false ∧ tWork.txHeadrace (qpKey 1 0) = 3 ∧
    tGot (.txChainFetch (.plot 1 0) (.ok (tDesc 20 0x2_0000 0 0)) (some (List.replicate 20 7, .ok))) tWork
      (fun t => (t.stage 3).pkts.map (fun p => (p.data, p.cls, p.org)) = [(fit 60 (List.replicate 20 7), 5, .plot 1 0 7)] && (tQ t).txCons = 1 &&
        (tC t).toTake = 1 && (tC t).len = 20 && (tC t).status = 0) = true ∧
    tGot (.txChainFetch (.plot 1 0) (.ok (tDesc 20 0x2_0000 0 0)) none) tWork (fun t => (tC t).pend = some (tWork.link 0).nextTag && (tQ t).txCons = 0 &&
      ((t.link 0).outstanding.map fun x => (x.fn, x.ring)) = [(1, qpKey 1 0)]) = true ∧
    tGot (.txChainFetch (.plot 1 0) (.ok (tDesc 13 0x2_0000 0 0)) none) tWork (fun t => (tC t).status = 1 && (tQ t).txCons = 1 && t.staging = []) = true ∧
    tGot (.txChainFetch (.plot 1 0) (.ok (tDesc 65536 0x2_0000 0 0)) none) tWork (fun t => (tC t).status = 1) = true ∧
    tGot (.txChainFetch (.plot 1 0) (.ok (tDesc 20 0x102_0000 0 0)) none) tWork (fun t => (tC t).status = 1 || (tC t).status = 6) = true ∧
    tGot (.txChainFetch (.plot 1 0) (.ok (tDesc 20 0x2_0000 0 0)) (some ([], .ur))) tWork (fun t => (tC t).status = 3 && (tC t).len = 0) = true ∧
    tGot (.txChainFetch (.plot 1 0) (.ok (tDesc 20 0 0 0)) none) tWork (fun t => t = tWork) = true ∧
    tGot (.txChainFetch (.plot 1 0) .poisoned none) tWork (fun t => (tQ t).err = 3 && t.flag (B.HPT 0) R.HPT_ERR_POISON_CPL) = true ∧
    tWork.mild 273 ∧
    tGot (.txChainFetch (.plot 1 0) (.ok []) none) (tWork.setQp (qpKey 1 0) { tQ tWork with txBase := 0 }) (fun t => (tQ t).err = 2) = true := by
  decide +kernel

/-- The worked transmit of chapter 12 in small: 54 bytes of headers, MSS 64, payload 130: three segments. -/
def tTso : List Byte := List.replicate 12 1 ++ [8, 0] ++ [0x45, 0, 0, 0, 0, 9, 0, 0, 64, 6, 0, 0, 10, 0, 0, 1, 10, 0, 0, 2] ++
  [0, 1, 0, 2, 0, 0, 0, 100, 0, 0, 0, 0, 0x50, 0x99, 1, 0, 0, 0, 0, 0] ++ List.replicate 130 3

theorem wit_tso : tGot (.txChainFetch (.plot 1 0) (.ok (tDesc 184 0x72_0000 0x220E 64)) (some (tTso, .ok))) tWork
      (fun t => (t.stage 3).pkts.map (fun p => (p.data.length, u16At p.data 16, u16At p.data 18, u16At p.data 40, (p.data.getD 47 0).toNat)) =
        [(118, 104, 9, 100, 0x90), (118, 104, 10, 164, 0x10), (60, 42, 11, 228, 0x19)] &&
        (t.stage 3).pkts.all (fun p => onesSum ((p.data.drop 14).take 20) = 0xFFFF) && (tC t).toTake = 3 && (tC t).len = 184) = true := by
  decide +kernel

def tPend : State := match exec (.txChainFetch (.plot 1 0) (.ok (tDesc 20 0x2_0000 0 0)) none) tWork with
  | .next t => t
  | .fault _ | .refused _ => State.reset

theorem wit_read_ends : tGot (.completionTimeout 0 (tWork.link 0).nextTag [1, 2]) { tPend with now := 50009000 } (fun t => (tC t).status = 3 && (tC t).len = 2 && (tQ t).txCons = 1 &&
      (t.link 0).outstanding = []) = true ∧
    tGot (.dmaCompletion 0 (tWork.link 0).nextTag (List.replicate 20 7) .ok) tPend (fun t => (t.stage 3).pkts.map (·.data) = [fit 60 (List.replicate 20 7)] &&
      (tC t).toTake = 1 && (tC t).pend = none) = true ∧
    tGot (.dmaCompletion 0 (tWork.link 0).nextTag [] .ur) tPend (fun t => (tC t).status = 3 && (tQ t).txCons = 1) = true ∧
    tGot (.dmaCompletion 0 (tWork.link 0).nextTag [] .ok) (tPend.setQp (qpKey 1 0) { tQ tPend with err := 1 })
      (fun t => (tC t).pend = none && (tC t).toTake = 0 && t.staging = [] && (tQ t).txCons = 0) = true := by decide +kernel

/-- Plot 0 of the same link has work too, with a visit of plot `v` - 1 and 30 bytes of deficit for plot 1. -/
def tTwo (v : Nat) : State :=
  let s := (tWork.wrB (B.PLOT 0) R.PLOT_CFG_EN true).wr (B.VF 0) R.PLOT_STATE_STATE 1
  { s.setQp (qpKey 0 0) { Qp.init with live := true, bind := 3, txBase := 0x10_0000, txProd := 1 } with
    links := [(0, { tWork.link 0 with visit := v, deficit := [(1, 30)] })] }

theorem wit_turns : (tWork.fetchers 0 = [1]) ∧ (tTwo 1).fetchers 0 = [0, 1] ∧
    tGot (.txChainFetch (.plot 1 0) (.ok (tDesc 20 0x2_0000 0 0)) none) (tTwo 1) (fun t => (tQ t).chains = [] && t.out.length = 1 &&
      (t.link 0).visit = 1) = true ∧
    tGot (.txChainFetch (.plot 1 0) (.ok (tDesc 20 0x2_0000 0 0)) none) (tTwo 2) (fun t => (tC t).pend.isSome && (t.link 0).visit = 2 &&
      (t.link 0).deficit = [(1, 10)]) = true ∧
    tGot (.txChainFetch (.plot 1 0) (.ok (tDesc 31 0x2_0000 0 0)) none) (tTwo 2) (fun t => (tQ t).chains = [] && (t.link 0).visit = 1) = true := by
  decide +kernel

def tDone (c : Chain) : State :=
  { (tRing { Qp.init with chains := [c], cls := 5 }).setFn 0 1 { tFn with msixEn := true, tableSize := 4 } with mem := [(B.MSIX 0 1 + 12, 0)] }
def tChain : Chain := { seq := 1, index := 9, posts := 2, len := 300, status := 0, toTake := 0, tsReq := false, ended := false, time := 0x0102, frac := 3, tsValid := false, sa := 0, desc := [], pend := none }

theorem wit_complete : (tDone tChain).irqDue (qpKey 1 0) false ((tQ (tDone tChain)).txc.wrote 9000) = true ∧
    (tDone tChain).ringMsg (qpKey 1 0) false = [.msix 0 1 0] ∧
    tGot (.txCompletion (.plot 1 0)) (tDone tChain) (fun t => t.out = [.write 0 1 0x10_2000
        ([2, 1, 0, 0, 0, 0, 0, 0, 3, 0, 9, 0, 44, 1, 0, 0, 0, 0, 0, 0, 0, 0, 0, 0, 0, 2, 0, 0, 0, 0, 0, 0xD0]), .msix 0 1 0] &&
      (tQ t).chains = [] && (tQ t).txc.prod = 1 && !(tQ t).txc.armed) = true ∧
    tGot (.txCompletion (.plot 1 0)) (tDone { tChain with tsReq := true }) (fun t => t = tDone { tChain with tsReq := true }) = true ∧
    tGot (.txCompletion (.plot 1 0)) (tDone { tChain with toTake := 1 }) (fun t => t = tDone { tChain with toTake := 1 }) = true ∧
    tGot (.txCompletion (.plot 1 0)) ((tDone tChain).setQp (qpKey 1 0) { tQ (tDone tChain) with txc := CplRing.init }) (fun t => (tQ t).err = 2) = true := by
  decide +kernel

/-- A packet of n bytes for queue `qsel` of plot 1 stands at tailrace 3. -/
def tRxp (n : Nat) (qsel : Nat := 0) (gen : Nat := 7) : EPkt :=
  { tEp 1 with pkt := tPkt (fit n [1, 2]), dest := qsel * 2 ^ 12 + 1, slot := 8, plot := 1, gen := gen }
def tRxs (p : EPkt) (prod : Nat := 3) : State := (tRing { Qp.init with rxProd := prod }).setEgress 3 { EgrSt.empty with deliver := [p] }
def tPost (len : Nat) (a : Nat := 0x12_0000) : List Byte := leBytes 8 a ++ leBytes 4 len ++ leBytes 4 0
def tRxGot (p : EPkt) (posts : Fetch) (f : State → Bool) (prod : Nat := 3) : Bool := tGot (.rxRingWrite 3 (.plot 1 0) posts) (tRxs p prod) f

theorem wit_receive : (tRxs (tRxp 60)).servedAt (qpKey 1 0) (tRxp 60) = true ∧ (tRxs (tRxp 60)).espRx 1 0 (fit 60 [1, 2]) = (.pass, tRxs (tRxp 60)) ∧
    tRxGot (tRxp 100) (.ok (tPost 64 ++ tPost 64 0x12_1000)) (fun t => (t.out.map fun
        | .write _ f a d => (f, a, d.length)
        | _ => (9, 9, 9)) = [(1, 0x12_0000, 64), (1, 0x12_1000, 36), (1, 0x10_3000, 32)] &&
      (tQ t).rxCons = 2 && (tQ t).rxc.prod = 1 && (t.egress 3).deliver = []) = true ∧
    tRxGot (tRxp 60) (.ok (tPost 63 ++ tPost 64 0 ++ tPost 64)) (fun t => (t.out.map fun
        | .write _ _ _ d => (d.length, d.getD 24 9)
        | _ => (9, 9)) = [(32, 0x10), (32, 0x11), (60, 0), (32, 0)] && (tQ t).rxCons = 3 && (tQ t).rxc.prod = 3) = true ∧
    tRxGot (tRxp 60) (.ok (tPost 64 ++ tPost 64)) (fun t => (tQ t).rxCons = 1 && (t.egress 3).deliver = []) = true ∧
    tRxGot (tRxp 65) (.ok (tPost 64)) (fun t => t.out = [] && (t.egress 3).deliver = [{ tRxp 65 with since := some 9000 }]) 1 = true ∧
    tRxGot (tRxp 60) .ur (fun t => (tQ t).err = 3) = true := by decide +kernel

theorem wit_receive_drops : tRxGot (tRxp 60 0 6) (.ok []) (fun t => (t.egress 3).deliver = [] && t.cnt (B.PLOT 1 + C.PLOT_NOQ_DROP) = 1) = true ∧
    tRxGot (tRxp 60 100) (.ok []) (fun t => (t.egress 3).deliver = [] && t.cnt (B.PLOT 1 + C.PLOT_NOQ_DROP) = 1 && t.qps = (tRxs (tRxp 60)).qps) = true ∧
    tRxGot (tRxp 60 1) (.ok []) (fun t => (t.egress 3).deliver.length = 1) = true ∧
    tGot (.rxRingWrite 3 (.plot 1 0) (.ok [])) ((tRxs (tRxp 60)).setQp (qpKey 1 0) { Qp.init with live := true, err := 1 })
      (fun t => t.reg (t.qpRegs 1 0 + 0x101C) = 1 && (t.egress 3).deliver = []) = true ∧
    tRxGot (tRxp 1088) (.ok ((List.range 17).flatMap fun _ => tPost 64)) (fun t => t.cnt (B.TLR 3 + C.TLR_RX_NOBUF_DROP) = 1 && t.out = []) 20 = true := by
  decide +kernel

/-! ### Plots (chapter 13) -/

/-- A command of class 0x02 on plot 1 (local index 1), with the bytes from byte 10 on. -/
def tPl (o : Nat) (args : List Byte) (s : State) : State := tHold (.host 0 3) o ([1, 0] ++ args) s
def tPlot (q : Qp := Qp.init) : State := (tRing q).wrW (B.PLOT 1) 0x8012_0010
def tRetry (t : State) : Bool := (t.tag (.host 0 3)).fin.map (fun f => (f.status, f.retry)) = some (St.BUSY_RETRY, 1000)

theorem wit_plot_named : (tPl 0x0204 [] tPlot).serves (.host 0 3) ⟨0x0204, 3, 1, false, 1, 2, [1, 0], 0⟩ 1 :=
  ⟨rfl, by decide +kernel, by decide +kernel, by decide +kernel⟩

theorem wit_plot_refused :
    tGot (.plotReset (.host 0 3)) (tHold (.host 0 3) 0x0204 [2, 0] tPlot) (tEnd (.host 0 3) St.BAD_ARGUMENT []) = true ∧
    tGot (.plotReset (.host 0 3)) (tPl 0x0204 [] (tPlot.wrB (B.PLOT 1) R.PLOT_CFG_EN false)) (tEnd (.host 0 3) St.BAD_ARGUMENT []) = true ∧
    tGot (.plotReset (.host 0 3)) (tPl 0x0204 [] (tPlot.wr (B.VF 1) R.PLOT_STATE_STATE 3)) tRetry = true ∧
    tGot (.plotResume (.host 0 3)) { tPl 0x020D [] tPlot with jobs := [⟨.host 0 2, 1, 0x020C, 1, 0, 0, []⟩] } tRetry = true := by decide +kernel

/-- The argument block of a queue pair: q, class, sizes 6 and 6, rings of plot 1's window. -/
def tBlk (q c : Nat) (base : Nat := 0x10_0000) : List Byte :=
  fit 64 ([BitVec.ofNat 8 q, BitVec.ofNat 8 c, 6, 6, 0, 0, 0, 0] ++ leBytes 8 base ++ leBytes 8 0x10_1000 ++ leBytes 8 0x10_2000 ++ leBytes 8 0x10_3000)
def tQcmd (op : Byte) (blk : List Byte) (s : State) : State := tPl 0x0203 ([op] ++ fit 5 [] ++ blk) s

theorem wit_qp_create : tPlot.allQps < 8192 ∧ tPlot.fnOfPlot 1 = some (0, 1) ∧ tPlot.linkUp 0 = true ∧ tPlot.answers 0 1 = true := by decide +kernel

theorem wit_qp_made : tGot (.qpCreate (.manager (.host 0 3))) (tQcmd 1 (tBlk 8 0) tPlot) (fun t => tEnd (.host 0 3) 0 [0, 0] t &&
      (t.qp (qpKey 1 8)).live && (t.qp (qpKey 1 8)).bind = 0 && (t.qp (qpKey 1 8)).rxBase = 0x10_2000 && (t.link 0).turn && (t.qp (qpKey 1 0)).live) = true ∧
    tGot (.qpCreate (.manager (.host 0 3))) (tQcmd 1 (tBlk 16 0) tPlot) (tEnd (.host 0 3) 0 (leBytes 2 St.BAD_ARGUMENT)) = true ∧
    tGot (.qpCreate (.manager (.host 0 3))) (tQcmd 1 (tBlk 0 0) tPlot) (tEnd (.host 0 3) 0 (leBytes 2 St.BAD_ARGUMENT)) = true ∧
    tGot (.qpCreate (.manager (.host 0 3))) (tQcmd 1 (tBlk 8 1) tPlot) (tEnd (.host 0 3) 0 (leBytes 2 St.BAD_ARGUMENT)) = true ∧
    tGot (.qpCreate (.manager (.host 0 3))) (tQcmd 1 (tBlk 8 0 0x1F_F000) tPlot) (fun t => tEnd (.host 0 3) 0 [0, 0] t) = true ∧
    tGot (.qpCreate (.manager (.host 0 3))) (tQcmd 1 (tBlk 8 0 0x20_0000) tPlot) (tEnd (.host 0 3) 0 (leBytes 2 St.BAD_ARGUMENT)) = true ∧
    tGot (.qpReset (.manager (.host 0 3))) (tQcmd 1 (tBlk 8 0) tPlot) (fun t => t = tQcmd 1 (tBlk 8 0) tPlot) = true ∧
    tGot (.qpCreate (.tenant 1)) tPlot (fun t => t.rd (B.VF 1) R.PLOT_TQ_STATUS_STATUS = St.BAD_ARGUMENT && t.reply = .ok) = true := by decide +kernel

theorem wit_qp_stopped : tGot (.qpReset (.manager (.host 0 3))) (tQcmd 2 (tBlk 0 0) (tPlot { Qp.init with txProd := 4, err := 1 })) (fun t =>
      (tQ t).live && (tQ t).txProd = 0 && (tQ t).err = 0 && (tQ t).txBase = 0x10_0000 && t.reg (t.qpRegs 1 0 + 0x1014) = 1) = true ∧
    tGot (.qpDelete (.manager (.host 0 3))) (tQcmd 3 (tBlk 0 0) tPlot) (fun t => !(tQ t).live) = true ∧
    tGot (.qpDelete (.manager (.host 0 3))) (tQcmd 3 (tBlk 1 0) tPlot) (tEnd (.host 0 3) 0 (leBytes 2 St.BAD_ARGUMENT)) = true ∧
    tGot (.qpReset (.tenant 1)) tPlot (fun t => t.rd (B.VF 1) R.PLOT_TQ_STATUS_STATUS = 0 && (tQ t).live) = true := by decide +kernel

def tQt (b : Byte) (e : Byte) : List Byte := fit 64 ([0, 0, 0, 0, b, 0, 0, 0] ++ List.replicate 31 2 ++ [e])
theorem wit_qtable : tGot (.qtableSet (.manager (.host 0 3))) (tQcmd 4 (tQt 3 63) tPlot) (fun t => t.rxQueue 1 0xFF 127 = 63 && t.rxQueue 1 0xFF 96 = 2 &&
      t.rxQueue 1 0xFF 95 = 0) = true ∧
    tGot (.qtableSet (.manager (.host 0 3))) (tQcmd 4 (tQt 3 64) tPlot) (tEnd (.host 0 3) 0 (leBytes 2 St.BAD_ARGUMENT)) = true ∧
    tGot (.qtableSet (.manager (.host 0 3))) (tQcmd 4 (tQt 4 0) tPlot) (tEnd (.host 0 3) 0 (leBytes 2 St.BAD_ARGUMENT)) = true ∧
    tGot (.qtableSet (.tenant 1)) { tPlot with links := [] } (fun t => t.reply = .ur) = true := by decide +kernel

/-- PLOT_CONFIG with the MAC address and VLAN that the plot has. -/
def tCfg (kind : Byte) (max_ vecs pol : Nat) : List Byte := [kind, 5, BitVec.ofNat 8 max_, 0] ++ leBytes 2 vecs ++ leBytes 8 0 ++ leBytes 4 pol
theorem wit_config : tGot (.plotConfig (.host 0 3)) (tPl 0x0200 (tCfg 6 9 7 9) tPlot) (fun t => tEnd (.host 0 3) 0 [7, 0] t &&
      t.rd (B.PLOT 1) R.PLOT_CFG_CLASS_MASK = 5 && t.rd (B.PLOT 1) R.PLOT_CFG_QP_MAX = 9 && (t.fn 0 1).tableSize = 7 &&
      t.rd (B.PLOT 1) R.PLOT_POLICER_METER = 9 && t.flag (B.PLOT 1) R.PLOT_CFG_SRC_CHECK) = true ∧
    tGot (.plotConfig (.host 0 3)) (tPl 0x0200 (tCfg 0 0 1 9) tPlot) (tEnd (.host 0 3) St.BAD_ARGUMENT []) = true ∧
    tGot (.plotConfig (.host 0 3)) (tPl 0x0200 (tCfg 1 4 1 9) tPlot) tRetry = true ∧
    tGot (.plotConfig (.host 0 3)) (tPl 0x0200 (tCfg 0 1 2 9) (tPlot.setFn 0 1 { tFn with msixEn := true })) tRetry = true ∧
    tGot (.plotConfig (.host 0 3)) (tPl 0x0200 (tCfg 0 1 2 9) { tPlot with image := { tPlot.image with pf0Vec := [(0, 2047)] } })
      (tEnd (.host 0 3) St.NO_RESOURCE []) = true ∧ tPlot.topQp 1 = 1 := by decide +kernel

def tRate (txInc rxInc : Nat) (en : Byte) : List Byte :=
  fit 2 [] ++ leBytes 4 txInc ++ leBytes 2 0x100 ++ [3, 0] ++ leBytes 4 rxInc ++ leBytes 2 0x200 ++ [4, en]
theorem wit_rate : tGot (.plotRateSet (.host 0 3)) (tPl 0x0201 (tRate 8 100 3) tPlot) (fun t => tEnd (.host 0 3) 0 [] t && t.rd (B.PLOT 1) R.PLOT_TX_SHP_INC = 8 &&
      t.flag (B.TLR 1 + 8) R.TLR_PLOT_SHP_SHP_EN && t.rd (B.TLR 0 + 8) R.TLR_PLOT_SCHED_WEIGHT = 4 && (t.plot 1).rxInc = 100) = true ∧
    tGot (.plotRateSet (.host 0 3)) (tPl 0x0201 (tRate 0 100 3) tPlot) (tEnd (.host 0 3) St.BAD_ARGUMENT []) = true := by decide +kernel

def tWinArgs (base pages : Nat) : List Byte := [1] ++ fit 5 [] ++ leBytes 8 base ++ leBytes 4 pages
theorem wit_windows : tGot (.plotWindowSet (.host 0 3)) (tPl 0x0202 (tWinArgs 0x7_0000_1003 5) tPlot) (fun t => tEnd (.host 0 3) 0 [] t &&
      t.windowOk 1 0x7_0000_1000 0x5000 true && !t.windowOk 1 0x7_0000_1000 0x5001 true && !t.windowOk 1 0x10_0000 1 false) = true ∧
    tGot (.plotWindowSet (.host 0 3)) (tPl 0x0202 (tWinArgs 0x1004 5) tPlot) (tEnd (.host 0 3) St.BAD_ARGUMENT []) = true ∧
    tGot (.plotWindowSet (.host 0 3)) (tPl 0x0202 (tWinArgs 0x1003 5) { tPlot with links := [(0, { tPlot.link 0 with outstanding := [⟨4, 1, qpKey 1 0, 1, 1, 0⟩] })] })
      (fun t => t.jobs.map (fun j => (j.opcode, j.obj)) = [(0x0202, 1)] && (t.tag (.host 0 3)).cur.isSome) = true := by decide +kernel

theorem wit_plot_reset : tPlot.fnOfPlot 1 = some (0, 1) ∧
    tGot (.plotReset (.host 0 3)) (tPl 0x0204 [] tPlot) (fun t => tEnd (.host 0 3) 0 [8, 0] t && tQ t = Qp.init && t.plotGen 1 = 8 &&
      t.plotState 1 = 1 && t.windowOk 1 0x10_0000 64 true) = true ∧
    tGot (.plotReset (.host 0 3)) (tPl 0x0204 [] (tPlot.wr (B.PLOT 1) R.PLOT_XGEN_XGEN 0xFFFF)) (fun t => t.plotGen 1 = 0x1_0001) = true ∧
    tGot (.plotRemove (.host 0 3)) (tPl 0x0205 [] tPlot) (fun t => tEnd (.host 0 3) 0 [] t && t.plotState 1 = 0 && t.plotGen 1 = 8 &&
      !t.windowOk 1 0x10_0000 64 true && (t.fn 0 1).tableSize = 0) = true := by decide +kernel

theorem wit_mbx_send : tGot (.plotMbxSend 1 2) { tPlot with mem := [(B.VF 1 + 0x2100, 5), (B.VF 1 + 0x2101, 6)] } (fun t => (t.plot 1).txMsg = some (1, 7, [5, 6]) &&
      t.flag (B.VF 1) R.PLOT_MBX_STATUS_TX_BUSY && t.reg (B.MGR 0 + 0x10) = 2) = true ∧
    tGot (.plotMbxSend 1 233) tPlot (fun t => t = { tPlot with reply := .ok }) = true ∧
    tGot (.plotMbxSend 1 2) (tPlot.wrB (B.VF 1) R.PLOT_MBX_STATUS_TX_BUSY true) (fun t => t.flag (B.VF 1) R.PLOT_MBX_STATUS_TX_IGNORED && (t.plot 1).txMsg = none) = true ∧
    tGot (.plotMbxAck 1) (tPlot.wrB (B.VF 1) R.PLOT_MBX_STATUS_RX_FULL true) (fun t => !t.flag (B.VF 1) R.PLOT_MBX_STATUS_RX_FULL) = true ∧
    tGot (.plotMbxAck 0) tPlot tUr = true := by decide +kernel

theorem wit_messages : tGot (.plotMsgSend (.host 0 3)) (tPl 0x0206 [2, 0, 7, 0, 0, 0, 8, 9] tPlot) (fun t => tEnd (.host 0 3) 0 [] t &&
      bytesAt t.mem (B.VF 1 + 0x2200) 10 = [1, 0, 2, 0, 7, 0, 0, 0, 8, 9] && t.flag (B.VF 1) R.PLOT_MBX_STATUS_RX_FULL) = true ∧
    tGot (.plotMsgSend (.host 0 3)) (tPl 0x0206 [2, 0, 6, 0] tPlot) (tEnd (.host 0 3) St.ABORTED_RESET []) = true ∧
    tGot (.plotMsgSend (.host 0 3)) (tPl 0x0206 [2, 0, 6, 0] (tPlot.wrB (B.VF 1) R.PLOT_MBX_STATUS_RX_FULL true)) tRetry = true ∧
    tGot (.plotMsgRecv (.host 0 3)) (tPl 0x0207 [] tPlot) (tEnd (.host 0 3) 0 (fit 240 [])) = true ∧
    tGot (.plotMsgRecv (.host 0 3)) (tPl 0x0207 [] ((tPlot.setPlot 1 { PlotSt.init with txMsg := some (4, 7, [5, 6]) }).wrW (B.MGR 0 + 0x10) 3))
      (fun t => tEnd (.host 0 3) 0 (fit 240 [4, 0, 2, 0, 7, 0, 0, 0, 5, 6]) t && (t.plot 1).txMsg = none && t.reg (B.MGR 0 + 0x10) = 1) = true := by decide +kernel

/-- The manager plot (plot 0) has a window too. -/
def tMgr : State := (tPlot.wrW (B.PLOT 0 + R.PLOT_WIN_LO_ADDR.off) 0x20_0003).wrW (B.PLOT 0 + R.PLOT_WIN_PAGES_PAGES.off) 0x100
def tLogOn (prod : Nat) (ovf : Bool) : State := (((tMgr.wrB (B.PLOT 1) R.PLOT_LOG_CTRL_LOGGING true).wr (B.PLOT 1) R.PLOT_LOG_CTRL_LOG_SIZE 10).wr
  (B.PLOT 1) R.PLOT_LOG_PROD_PROD prod).wrB (B.PLOT 1) R.PLOT_LOG_CTRL_LOG_OVF ovf

theorem wit_log : tGot (.plotLogStart (.host 0 3)) (tPl 0x0209 (fit 6 [] ++ leBytes 8 0x20_1000 ++ [10]) tMgr) (fun t => tEnd (.host 0 3) 0 [] t &&
      t.flag (B.PLOT 1) R.PLOT_LOG_CTRL_LOGGING && t.rd (B.PLOT 1) R.PLOT_LOG_LO_BASE = 0x201) = true ∧
    tGot (.plotLogStart (.host 0 3)) (tPl 0x0209 (fit 6 [] ++ leBytes 8 0x20_1000 ++ [21]) tMgr) (tEnd (.host 0 3) St.BAD_ARGUMENT []) = true ∧
    tGot (.plotLogSync (.host 0 3)) (tPl 0x020A (fit 2 [] ++ leBytes 4 1) (tLogOn 1024 true)) (fun t => tEnd (.host 0 3) 0 [0, 4, 0, 0, 1] t &&
      !t.flag (B.PLOT 1) R.PLOT_LOG_CTRL_LOG_OVF && (t.plot 1).logCons = 1) = true ∧
    tGot (.plotLogSync (.host 0 3)) (tPl 0x020A (fit 2 [] ++ leBytes 4 0) (tLogOn 1024 true)) (fun t => t.flag (B.PLOT 1) R.PLOT_LOG_CTRL_LOG_OVF) = true ∧
    tGot (.plotLogSync (.host 0 3)) (tPl 0x020A (fit 2 [] ++ leBytes 4 5) (tLogOn 4 false)) (tEnd (.host 0 3) St.BAD_ARGUMENT []) = true ∧
    tGot (.plotLogStop (.host 0 3)) (tPl 0x020B [] (tLogOn 4 false)) (fun t => tEnd (.host 0 3) 0 [4, 0, 0, 0] t && !t.flag (B.PLOT 1) R.PLOT_LOG_CTRL_LOGGING) = true := by
  decide +kernel

theorem wit_plot_pause : tGot (.plotPause (.host 0 3)) (tPl 0x020C [] tPlot) (fun t => tEnd (.host 0 3) 0 [] t && t.plotState 1 = 2) = true ∧
    tGot (.plotPause (.host 0 3)) (tPl 0x020C [] (tPlot { Qp.init with chains := [tChain] })) (fun t => (t.tag (.host 0 3)).cur.isSome && t.plotState 1 = 2 &&
      t.plotHeld 1) = true ∧
    tGot (.plotResume (.host 0 3)) (tPl 0x020D [] ((tPlot { Qp.init with heldDb := [(0, 5)] }).wr (B.VF 1) R.PLOT_STATE_STATE 2))
      (fun t => t.plotState 1 = 1 && (tQ t).txProd = 5 && (tQ t).heldDb = []) = true := by decide +kernel

theorem wit_save_restore :
    tGot (.plotSave (.host 0 3)) (tPl 0x020E (fit 6 [] ++ leBytes 8 0x20_0000 ++ leBytes 4 640) tMgr) (tEnd (.host 0 3) St.BAD_ARGUMENT []) = true ∧
    (tMgr.wr (B.VF 1) R.PLOT_STATE_STATE 2).plotState 1 = 2 ∧ tMgr.windowOk (tMgr.plotBase 0) 0x20_0000 640 true = true ∧
    tGot (.plotRestore (.host 0 3) .ur) (tPl 0x020F (fit 6 [] ++ leBytes 8 0x20_0000 ++ leBytes 4 640) tMgr) (tEnd (.host 0 3) St.BAD_ARGUMENT []) = true ∧
    { tMgr with qps := [] }.liveQps 1 = 0 ∧ genWithLow 0x1_0005 5 = 0x2_0005 ∧ genWithLow 0x1_0005 6 = 0x1_0006 := by decide +kernel

theorem wit_status : tGot (.plotStatus (.host 0 3)) (tPl 0x0208 [] tPlot) (tEnd (.host 0 3) 0 [1, 1, 7, 0, 0, 0, 0, 0, 0, 0, 0, 0, 0, 0, 0, 0]) = true := by
  decide +kernel

/-- Plot 1 with its steering entry in the master; no quadrant is powered, so that no place is drawn. -/
def tSteer : State := (tPlot.wrW 0x1_0000 0xE1FF_FFFF).setMaster (steerKey 0 0) (Seed.mk true false 0 (steerKey 0 0) 5)

theorem wit_steering : tSteer.pipesOn.isEmpty = false ∧ Seed.valid (tSteer.masterAt (steerKey (tPlot.plotMac 1) (tPlot.plotVlan 1))) = true ∧
    tSteer.tableHeld = false ∧
    tGot (.plotRemove (.host 0 3)) (tPl 0x0205 [] tSteer) (fun t => t.plotState 1 = 0 && (t.tag (.host 0 3)).cur.isSome &&
      t.jobs.map (fun j => (j.opcode, j.obj)) = [(0x0205, barrierObj)] && t.masterAt (steerKey 0 0) = 0) = true ∧
    tSteer.refusingCopy (steerKey 9 0) = none ∧ tSteer.flag (B.PLOT 1) R.PLOT_CFG_EN = true ∧
    tGot (.plotConfig (.host 0 3)) (tPl 0x0200 ([0, 5, 9, 0, 7, 0] ++ leBytes 8 9 ++ leBytes 4 9) { tSteer with tbl := { tSteer.tbl with loading := [2] } })
      (fun t => t.plotMac 1 = 0 && (t.tag (.host 0 3)).cur.isSome && t.jobs = []) = true := by decide +kernel

theorem wit_tenant : tPlot.asksQueue (.tenant 1) 1 1 (tPlot.tqArgs 1) ∧ (tMgr.setFn 0 0 { tFn with bme := true }).bufFails (.host 0 3) 0x30_0000 640 (.ok [])
    ((tMgr.setFn 0 0 { tFn with bme := true }).windowErr 0) :=
  ⟨⟨rfl, rfl, 0, 1, by decide +kernel⟩, by decide +kernel, Or.inl (by decide +kernel)⟩

/-! ### The time service (chapter 14) -/

/-- Host 0 as in chapter 3, with a state of the time unit. -/
def tTim (t : TimeSt) (now : Nat := 0) (st : Nat := 0) (src : Nat := 0) : State :=
  { (tHost.wr B.TIME R.TIME_STATE_STATE st).wr B.TIME R.TIME_STATE_PHASE_SRC src with tim := t, now := now, timeOff := 5 }
def tPps (x : PpsIn) : TimeSt := { TimeSt.init with pps := [(0, x)] }
def tPhase (t : State) : Nat := t.rd B.TIME R.TIME_STATE_PHASE_SRC

/-- Port 40 is up beside link 0. -/
def tCfgPort : State := ((tHost.wrW 0x6A_0000 0x301).wrW 0x6A_0010 0x8000_2400).wrW 0x6A_0020 1

/-- PPS0 has had its edges and is enabled with priority 2. -/
def tPpsOk (d1 : Bool) : State :=
  let s := (tTim { tPps { PpsIn.init with good := 8, named := 2 } with first := d1 } 100).wrB B.TIME R.TIME_PPS_IN_CFG_EN true
  s.wr B.TIME R.TIME_SRC_CFG_PRI_PPS0 2

theorem wit_qualified : (tPpsOk false).mayQualify .pps0 = true ∧ (tPpsOk false).mild 16 ∧ (tPpsOk false).phaseSel = none ∧
    tGot (.sourceQualified .pps0 7) (tPpsOk false) (fun t => tPhase t = 2 && t.timeState = 1 && t.timeOff = 12 && t.cnt (B.TIME + C.TIME_STEPS) = 1 &&
      t.qualAt 2 = some 100 && t.flag B.TIME R.TIME_PPS_IN_STAT_QUAL) = true ∧
    tGot (.sourceQualified .pps0 1000) (tPpsOk true) (fun t => t.timeOff = 5 && t.tim.slew = 1000) = true ∧
    tGot (.sourceQualified .pps0 1001) (tPpsOk true) (fun t => t.timeOff = 1006 && t.tim.slew = 0) = true ∧
    tGot (.sourceQualified .pps0 (-1000000001)) (tPpsOk true) (fun t => tPhase t = 0 && t.flag B.TIME R.TIME_EVENTS_BEHIND && t.sticky 16 && t.qualAt 2 = none) = true ∧
    tGot (.sourceQualified .pps0 7) (tPpsOk true |>.wr B.TIME R.TIME_STATE_PHASE_SRC 1) (fun t => tPhase t = 1 && t.timeOff = 5 && t.qualAt 2 = some 100) = true ∧
    tGot (.sourceQualified .pps1 7) (tPpsOk true) (fun t => t = tPpsOk true) = true ∧
    tGot (.sourceQualified .ref10m 0) (tPpsOk true |>.wr B.TIME R.TIME_SRC_CFG_PRI_REF10M 1) (fun t => t.rd B.TIME R.TIME_STATE_FREQ_SRC = 2) = true := by
  decide +kernel

def tLock (st : Nat) (q : Table (Option Nat)) : State := ((tTim { TimeSt.init with qual := q, first := true } 20000000000 st 2).wr B.TIME R.TIME_BOUND_SRC_BOUND 9).wr
  B.TIME R.TIME_SRC_CFG_PRI_PPS1 1
theorem wit_lost : (tLock 2 [(2, some 1)]).sev 15 ≠ 4 ∧
    tGot (.sourceLost .pps0 0) (tLock 2 [(2, some 1)]) (fun t => t.timeState = 3 && t.tim.hold = some (20000000000, 9) && t.rd B.TIME R.TIME_STATE_CLASS = 7 &&
      tPhase t = 0 && t.flag B.TIME R.TIME_EVENTS_PPS0_LOST && t.sticky 15 && t.srcBound = 9) = true ∧
    tGot (.sourceLost .pps0 0) (tLock 1 [(2, some 1)]) (fun t => t.timeState = 0 && t.srcBound = 0xFFFF) = true ∧
    tGot (.sourceLost .pps0 30) (tLock 2 [(2, some 1), (3, some 2)]) (fun t => tPhase t = 3 && t.timeState = 1 && t.tim.slew = 30) = true ∧
    tGot (.sourceLost .pps1 30) (tLock 2 [(2, some 1), (3, some 2)]) (fun t => tPhase t = 2 && t.timeState = 2 && t.qualAt 3 = none) = true ∧
    tGot (.sourceLost .pps0 0) { tLock 2 [(2, some 1)] with tim := { (tLock 2 [(2, some 1)]).tim with pps := [(0, { PpsIn.init with last := some 18900000001 })] } }
      (fun t => t.timeState = 2) = true ∧
    tGot (.sourceLost .pps1 30) (tLock 2 [(2, some 1)]) (fun t => t = tLock 2 [(2, some 1)]) = true ∧
    tGot (.sourceLost .ref10m 0) ((tLock 2 [(18, some 1)]).wr B.TIME R.TIME_STATE_FREQ_SRC 2) (fun t => t.freqSel = none) = true := by decide +kernel

def tRev (q : Nat) : State := (tLock 2 [(2, some 0), (3, some q)]).wr B.TIME R.TIME_SRC_CFG_PRI_PPS0 2
theorem wit_revert : (tRev 5).revertTo phaseSrcs (tRev 5).phaseSel = some 3 ∧
    tGot (.sourceRevert 0) (tRev 10000000000) (fun t => tPhase t = 3 && t.timeState = 1) = true ∧
    tGot (.sourceRevert 0) (tRev 10000000001) (fun t => t = tRev 10000000001) = true ∧
    tGot (.sourceRevert 0) ((tRev 5).wrB B.TIME R.TIME_SRC_CFG_REVERT false) (fun t => tPhase t = 2) = true ∧
    tGot (.sourceRevert 0) (((tLock 2 [(18, some 0), (19, some 1)]).wr B.TIME R.TIME_STATE_FREQ_SRC 3).wr B.TIME R.TIME_SRC_CFG_PRI_REF10M 1)
      (fun t => t.rd B.TIME R.TIME_STATE_FREQ_SRC = 2 && tPhase t = 2) = true := by decide +kernel

/-- The premises of TIME_LOCKED are met at 60 s and not 1 ns before (the bound it then takes is a free value). -/
theorem wit_locked : tGot .timeLocked (tTim { TimeSt.init with within := some 0 } 59999999999 1 2) (fun t => t.timeState = 1) = true ∧
    (let s := tTim { TimeSt.init with within := some 0, viaPtp := true, up := (21, 0, 0) } 60000000000 1 1
     s.tim.within = some 0 ∧ s.timeState = 1 ∧ s.phaseSel ≠ none ∧ 0 + ms 60000 ≤ s.now) := by decide +kernel

/-- R336's example: E0 5 ns, the default HOLD_CFG and HOLD_LIMIT: 152 ns after 1 h, out at 2,677 s. -/
theorem wit_holdover : (tTim { TimeSt.init with hold := some (0, 5) } (3600 * 10 ^ 9) 3).srcBound = 152 ∧
    tGot .holdoverOut (tTim { TimeSt.init with hold := some (0, 5) } (2675 * 10 ^ 9) 3) (fun t => t.timeState = 3) = true ∧
    tGot .holdoverOut (tTim { TimeSt.init with hold := some (0, 5) } (2678 * 10 ^ 9) 3) (fun t => t.timeState = 4 && t.sticky 16 && t.rd B.TIME R.TIME_STATE_CLASS = 140) = true ∧
    tGot .leapSecond ((tTim TimeSt.init).wrB B.TIME R.TIME_UTC_LEAP61 true) (fun t => t.reg (B.TIME + 0x3C) = 38) = true ∧
    tGot .leapSecond ((tTim TimeSt.init).wrB B.TIME R.TIME_UTC_LEAP59 true) (fun t => t.reg (B.TIME + 0x3C) = 36) = true := by decide +kernel

theorem wit_calibration : tGot (.timestampCalibration 3) (tTim TimeSt.init 77) (fun t => (t.calOf 3).1 = 77) = true ∧
    State.reset.domOn 60 = false := by decide +kernel

def tPtp (p : PtpPort) (sl : Option Nat) (src : Nat := 0) : State := { tCfgPort with tim := { TimeSt.init with ports := [(40, p)], slave := sl } }.wr B.TIME R.TIME_STATE_PHASE_SRC src
def tEn : PtpPort := { PtpPort.init with en := true }
theorem wit_ptp : (tPtp tEn none).ptpRuns 40 = true ∧ (tPtp PtpPort.init none).ptpRuns 40 = false ∧
    tGot (.ptpMessageRx 40 (.announce true 6 2 77 0x4_0025)) (tPtp tEn none) (fun t => t.tim.slave = some 40 && t.tim.up = (6, 2, 77) &&
      t.reg (B.TIME + 0x3C) = 0x4_0025 && t.cnt (B.TIME + C.TIME_PTP_RX) = 1) = true ∧
    tGot (.ptpMessageRx 40 (.announce false 6 2 77 0)) (tPtp tEn (some 40)) (fun t => t.tim.slave = none) = true ∧
    tGot (.ptpMessageRx 40 (.pair 500)) (tPtp tEn (some 40) 1) (fun t => t.tim.pairs = 1 && t.tim.slew = 500) = true ∧
    tGot (.ptpMessageRx 40 (.pair 5000)) (tPtp tEn (some 40) 1) (fun t => t.timeOff = 5000) = true ∧
    tGot (.ptpMessageRx 40 .delayReq) (tPtp tEn none) (fun t => t.out = [.ptp 40 "DELAY_RESP" 0]) = true ∧
    tGot (.ptpMessageRx 40 .bad) (tPtp tEn none) (fun t => t.cnt (B.TIME + C.TIME_PTP_RX_BAD) = 1) = true ∧
    tGot (.ptpMessageTx 40 .sync) (tPtp tEn none) (fun t => t.out = [.ptp 40 "SYNC_ONE_STEP" 0]) = true ∧
    tGot (.ptpMessageTx 40 .sync) (tPtp { tEn with transport := 2 } none) (fun t => t.out.length = 2 && t.cnt (B.TIME + C.TIME_PTP_TX) = 2) = true ∧
    tGot (.ptpMessageTx 40 .delayReq) (tPtp tEn (some 40)) (fun t => t.out.length = 1) = true ∧
    tGot (.ptpMessageTx 40 .announce) (tPtp tEn (some 40)) (fun t => t.out = []) = true := by decide +kernel

/-- Output 3 is on, with ToD, in a time state, at a time word. -/
def tOut (st word : Nat) (x : PpsOut := PpsOut.init) : State :=
  { (tTim { TimeSt.init with outs := [(3, x)] } word st).wrW (outReg 3 + R.TIME_OUT_CFG_EN.off) 0xB000_0064 with timeOff := 0 }
theorem wit_pps_out : tGot (.ppsOutputEdge 3) (tOut 2 2999999998) (fun t => t.out = [.pps 3 3000000000] && (t.ppsOut 3).due = some (3, 2999999998)) = true ∧
    tGot (.ppsOutputEdge 3) (tOut 2 3000000002) (fun t => t.out = [.pps 3 3000000000]) = true ∧
    tGot (.ppsOutputEdge 3) (tOut 2 3000000003) (fun t => t = tOut 2 3000000003) = true ∧
    tGot (.ppsOutputEdge 3) (tOut 2 3000000000 { PpsOut.init with last := some (2, 2500000001) }) (fun t => t.out = []) = true ∧
    tGot (.ppsOutputEdge 3) (tOut 0 3000000000) (fun t => t.out = [] && !t.flag (outReg 3) R.TIME_OUT_STAT_ACTIVE) = true ∧
    tGot (.todOutputMessage 3) (tOut 2 3010000000 { PpsOut.init with due := some (3, 3000000000), seq := 4 })
      (fun t => t.out.length = 1 && (t.ppsOut 3).seq = 5 && (t.ppsOut 3).due = none) = true ∧
    tGot (.todOutputMessage 3) (tOut 2 3009999999 { PpsOut.init with due := some (3, 3000000000) }) (fun t => t.out = []) = true ∧
    tGot (.todOutputMessage 3) (tOut 0 3010000000 { PpsOut.init with due := some (3, 3000000000) }) (fun t => t.out = [] && (t.ppsOut 3).due = none) = true := by
  decide +kernel

/-- CRC-16/CCITT-FALSE of the ASCII digits 1 to 9 is 0x29B1. -/
theorem test_crc16 : crc16 [0x31, 0x32, 0x33, 0x34, 0x35, 0x36, 0x37, 0x38, 0x39] = 0x29B1 := by decide +kernel

def tIn (x : PpsIn) (now : Nat) (src : Nat := 0) : State := { (tTim (tPps x) now 2 src).wrW (B.TIME + 0x40) 0xA000_0000 with timeOff := 0 }
theorem wit_pps_in : tGot (.ppsInputEdge 0) (tIn PpsIn.init 50) (fun t => t.ppsIn 0 = { PpsIn.init with last := some 50 }) = true ∧
    tGot (.ppsInputEdge 0) (tIn { PpsIn.init with last := some 0, good := 3 } 1000001001) (fun t => (t.ppsIn 0).good = 0 && (t.ppsIn 0).bad = 1 &&
      t.rd B.TIME R.TIME_PPS_IN_STAT_REJECTS = 1) = true ∧
    tGot (.ppsInputEdge 0) (tIn { PpsIn.init with last := some 0, sec := some 6, good := 3 } 1000001000) (fun t => (t.ppsIn 0).good = 4 && (t.ppsIn 0).sec = some 7) = true ∧
    tGot (.ppsInputEdge 0) (tIn { PpsIn.init with last := some 0, next := some 1 } 1000000900 2) (fun t => t.tim.slew = -900 && (t.ppsIn 0).named = 1) = true ∧
    tGot (.ppsInputEdge 0) (tIn { PpsIn.init with last := some 0, next := some 2 } 1000000000 2) (fun t => t.timeOff = 1000000000) = true ∧
    tGot (.todInputMessage 0 ((tOut 2 0).todMessage 9 0)) (tIn { PpsIn.init with last := some 0 } 900000000) (fun t => (t.ppsIn 0).sec = some 9 &&
      t.flag B.TIME R.TIME_PPS_IN_STAT_TOD_OK) = true ∧
    tGot (.todInputMessage 0 ((tOut 2 0).todMessage 9 0)) (tIn { PpsIn.init with last := some 0 } 900000001) (fun t => (t.ppsIn 0).sec = none &&
      t.cnt (B.TIME + C.TIME_TOD_RX_BAD) = 1) = true ∧
    tGot (.hostFeedTrip 3) ((tOut 2 0).wrB (outReg 3) R.TIME_OUT_STAT_FEED_ON true) (fun t => t.sticky 17 && t.flag (outReg 3) R.TIME_OUT_STAT_TRIP) = true ∧
    tGot (.hostFeedTrip 3) (tOut 2 0) (fun t => t = tOut 2 0) = true := by decide +kernel

def tPtm (l : LinkSt) (now : Nat) : State := { tHost with links := [(0, l)], now := now }
theorem wit_ptm : tGot (.ptmRequest 0) (tPtm { LinkSt.init with ptmEn := true } 9) (fun t => t.out = [.ptm 0] && (t.link 0).ptmAt = some 9) = true ∧
    tGot (.ptmRequest 0) (tPtm { LinkSt.init with ptmEn := true, ptmLast := some 0 } 99999) (fun t => t.out = []) = true ∧
    tGot (.ptmResponse 0 44) (tPtm { LinkSt.init with ptmAt := some 0 } 10000) (fun t => (t.link 0).ptmX = [(44, 10000)] && (t.link 0).ptmOkAt = some 10000 &&
      t.cnt (B.TIME + C.TIME_PTM_EXCH) = 1) = true ∧
    tGot (.ptmResponse 0 44) (tPtm { LinkSt.init with ptmAt := some 0 } 10001) (fun t => (t.link 0).ptmX = []) = true ∧
    tGot (.ptmTimeout 0) (tPtm { LinkSt.init with ptmAt := some 0 } 10000) (fun t => (t.link 0).ptmAt = none && t.cnt (B.TIME + C.TIME_PTM_FAIL) = 1) = true ∧
    tGot (.ptmTimeout 0) (tPtm { LinkSt.init with ptmAt := some 0 } 9999) (fun t => (t.link 0).ptmAt = some 0) = true := by decide +kernel

/-- The manager's window covers the page. -/
def tPage (x : Page) (now : Nat) (en : Bool := true) : State :=
  { tMgr.wrB (B.TPG 0) R.TIME_HP_PAGE_LO_EN en with now := now, tim := { TimeSt.init with pages := [(0, x)] } }
theorem wit_page : tGot (.timePageEnable 0 0x20_0101) (tPage Page.init 5 false) (fun t => t.page 0 = { Page.init with addr := 0x20_0100, seq := 2, next := 1000005 } &&
      t.flag (B.TPG 0) R.TIME_HP_STATUS_ACTIVE && t.reply = .ok) = true ∧
    tGot (.timePageEnable 0 0x55_5500) (tPage Page.init 5) (fun t => t.page 0 = Page.init && !t.flag (B.TPG 0) R.TIME_HP_PAGE_LO_EN) = true ∧
    tGot (.timePageWrite 0) (tPage { Page.init with addr := 0x20_0100, seq := 4, next := 10 } 9) (fun t => t.out = []) = true ∧
    (tPage { Page.init with addr := 0x20_0100, seq := 4, next := 9 } 9).windowOk ((tPage Page.init 0).plotBase 0) 0x20_0100 256 true = true ∧
    tGot (.timePageWrite 0) (tPage { Page.init with addr := 0x10_0100, seq := 4, next := 9 } 9) (fun t => t.out = [] && t.flag (B.TPG 0) R.TIME_HP_STATUS_WIN_ERR) = true ∧
    delivBound 8 = 8 ∧ delivBound 128 = 16 := by decide +kernel

def tCtp (x : Page) (slew : Int) : State := { tHost with now := 1000, tim := { TimeSt.init with core := x, slew := slew } }
theorem wit_core_page : tGot .coreTimePageWrite (tCtp { Page.init with next := 1000, seq := 6 } 0) (fun t => bytesAt t.mem B.CTP 4 = [8, 0, 0, 0] &&
      leNat (bytesAt t.mem (B.CTP + 24) 8) = 1000 && t.tim.core.next = 1001000) = true ∧
    tGot .coreTimePageWrite (tCtp { Page.init with next := 1001 } 0) (fun t => t.mem = tHost.mem) = true ∧
    tGot .coreTimePageWrite (tCtp { Page.init with next := 1001, extra := some 4 } 0) (fun t => t.tim.core.extra = none) = true := by decide +kernel

def tTc (o : Nat) (args : List Byte) (s : State := tTim TimeSt.init 100) : State := tHold (.host 0 3) o args s
theorem wit_time_commands :
    tGot (.timeStatus (.host 0 3)) (tTc 0x0400 []) (fun t => ((t.tag (.host 0 3)).fin.map fun (f : Final) => leNat ((f.data.drop 20).take 8)) = some 105) = true ∧
    tGot (.timeSrcSet (.host 0 3)) (tTc 0x0401 (leBytes 4 0x1_0C00 ++ leBytes 4 0x640A_0064 ++ leBytes 2 1000)) (fun t => tEnd (.host 0 3) 0 [] t &&
      t.rd B.TIME R.TIME_SRC_CFG_PRI_PTP = 3 && t.rd B.TIME R.TIME_SLEW_SLEW = 1000) = true ∧
    tGot (.timeSrcSet (.host 0 3)) (tTc 0x0401 (leBytes 4 0x1_0C00 ++ leBytes 4 0x640A_0063 ++ leBytes 2 1000)) (tEnd (.host 0 3) St.BAD_ARGUMENT []) = true ∧
    tGot (.timeClockSet (.host 0 3)) (tTc 0x0402 [2, 44, 1, 2, 3, 1]) (fun t => t.tim.clock = [2, 44, 1, 2, 3, 1]) = true ∧
    tGot (.timeClockSet (.host 0 3)) (tTc 0x0402 [3]) (tEnd (.host 0 3) St.BAD_ARGUMENT []) = true ∧
    tGot (.timeTodSet (.host 0 3)) (tTc 0x0406 ([1, 0, 0, 0] ++ leBytes 8 77)) (fun t => (t.ppsIn 1).next = some 77) = true ∧
    tGot (.timeTodSet (.host 0 3)) (tTc 0x0406 [2]) (tEnd (.host 0 3) St.BAD_ARGUMENT []) = true ∧
    tGot (.timeHoldSet (.host 0 3)) (tTc 0x0409 (leBytes 4 0x2_0003 ++ leBytes 2 4 ++ [1])) (fun t => tEnd (.host 0 3) 0 [] t &&
      t.rd B.TIME R.TIME_HOLD_LIM_HOLD_LIMIT = 4 && t.flag B.TIME R.TIME_LOCK_HLOCK) = true ∧
    tGot (.timeHoldSet (.host 0 3)) (tTc 0x0409 [] ((tTim TimeSt.init).wrB B.TIME R.TIME_LOCK_HLOCK true)) (tEnd (.host 0 3) St.REFUSED []) = true ∧
    tGot (.timeUtcSet (.host 0 3)) (tTc 0x040A [38, 0, 5]) (fun t => tEnd (.host 0 3) 0 [] t && t.reg (B.TIME + 0x3C) = 0x5_0026) = true ∧
    tGot (.timeUtcSet (.host 0 3)) (tTc 0x040A [38, 0, 5] (tTim { TimeSt.init with slave := some 40 })) tRetry = true ∧
    tGot (.timeSynceQl (.host 0 3)) (tTc 0x0408 [0, 4] ((tTim TimeSt.init).wr B.TIME R.TIME_STATE_FREQ_SRC 1)) (tEnd (.host 0 3) 0 [4]) = true ∧
    tGot (.timeSynceQl (.host 0 3)) (tTc 0x0408 [96, 4]) (tEnd (.host 0 3) St.BAD_ARGUMENT []) = true := by decide +kernel

theorem wit_time_set : tGot (.timeSet (.host 0 3)) (tTc 0x0405 (leBytes 8 1000 ++ leBytes 2 9)) (fun t => tEnd (.host 0 3) 0 [] t && t.timeWord = 1000 &&
      t.cnt (B.TIME + C.TIME_STEPS) = 1 && t.tim.frac = 9 && tPhase t = 4) = true ∧
    tGot (.timeSet (.host 0 3)) (tTc 0x0405 (leBytes 8 104)) (tEnd (.host 0 3) St.BAD_ARGUMENT []) = true ∧
    tGot (.timeSet (.host 0 3)) (tTc 0x0405 (leBytes 8 4) { tHost .survey with now := 100 }) (fun t => t.timeWord = 4 && t.cnt (B.TIME + C.TIME_STEPS) = 0) = true ∧
    tGot (.timeSet (.host 0 3)) (tTc 0x0405 (leBytes 8 1000) (tTim TimeSt.init 100 2 1)) (tEnd (.host 0 3) St.BAD_ARGUMENT []) = true := by decide +kernel

theorem wit_time_ports : (tCfgPort).portWidth 40 ≠ 0 ∧
    tGot (.timePortSet (.host 0 3)) (tTc 0x0403 ([40, 3, 1, 0, 9, 0xF9, 0, 0xFD] ++ leBytes 4 7 ++ leBytes 4 8) tCfgPort) (fun t => tEnd (.host 0 3) 0 [] t &&
      (t.ptpPort 40).masterOnly && (t.ptpPort 40).logs = [0xF9, 0, 0xFD] && t.reg (B.TIME + 0x400 + 8 * 40) = 8) = true ∧
    tGot (.timePortSet (.host 0 3)) (tTc 0x0403 [40, 3, 1, 0, 9, 0xF8, 0, 0xFD] tCfgPort) (tEnd (.host 0 3) St.BAD_ARGUMENT []) = true ∧
    tGot (.timeUnicastSet (.host 0 3)) (tTc 0x0404 [40, 1, 0, 4, 0, 0, 0, 0, 9] tCfgPort) (fun t => t.tim.sessions = [(40, 0, 4, 0, fit 16 [9])]) = true ∧
    tGot (.timeUnicastSet (.host 0 3)) (tTc 0x0404 [40, 0, 0, 4, 0, 0, 0, 0, 9] tCfgPort) (tEnd (.host 0 3) St.BAD_ARGUMENT []) = true ∧
    tGot (.timeOutSet (.host 0 3)) (tTc 0x0407 ([3, 0, 0, 0] ++ leBytes 4 0x8800_0001 ++ leBytes 4 5)) (fun t => t.flag (outReg 3) R.TIME_OUT_STAT_FEED_ON &&
      t.flag (outReg 3) R.TIME_OUT_CFG_EN && t.out.head? = some (.pin "HT_FEED_EN" true)) = true ∧
    tGot (.timeOutSet (.host 0 3)) (tTc 0x0407 ([3, 0, 0, 0] ++ leBytes 4 0x8800_0000)) (tEnd (.host 0 3) St.BAD_ARGUMENT []) = true ∧
    tGot (.timeCalRead (.host 0 3)) (tTc 0x040B [40] { tCfgPort with now := 5000000, tim := { TimeSt.init with cal := [(10, (1000000, 7, 8))] } })
      (tEnd (.host 0 3) 0 [7, 0, 0, 0, 8, 0, 0, 0, 4, 0, 0, 0]) = true := by decide +kernel

/-! ### The Silo (chapter 15) -/

def tMember : Drive := { st := .member, up := true, cap := 1000, fit := true, downAt := none, errs := [] }
def tVol : Vol := { live := true, scheme := 1, extents := 4, base := 16, key := [], online := true, blocked := false }
/-- Entry 16 is allocated on drives 0 to 2 at SLOT 0. -/
def tSil (f : SiloSt → SiloSt := id) (m : Mode := .flowing) : State :=
  { tHost m with silo := f { SiloSt.init with drives := [(0, tMember), (1, tMember), (2, tMember), (3, { tMember with st := .new })],
                                              vols := [(5, tVol)], map := [(16, Ext.mk 1 5 0 [0, 1, 2])], meta_ := [(16, Ext.mk 1 5 0 [0, 1, 2])] } }
def tDrv (d : Nat) (x : Drive) : State := tSil fun c => { c with drives := tput (fun _ => Drive.none) c.drives d x }
def tSc (o : Nat) (args : List Byte) (s : State) : State := tHold (.host 0 3) o args s
def tRetry15 (t : State) : Bool := (t.tag (.host 0 3)).fin.map (fun f => (f.status, f.retry)) = some (St.BUSY_RETRY, 1000)

theorem wit_drive_links : tGot (.driveLinkUp 4 500 true) tSil (fun t => (t.drive 4).st = .new && (t.drive 4).cap = 500) = true ∧
    tGot (.driveLinkUp 0 500 true) (tDrv 0 { tMember with up := false, downAt := some 3 }) (fun t => t.drive 0 = tMember) = true ∧
    tGot (.driveLinkUp 0 500 true) tSil (fun t => t = tSil) = true ∧
    tGot (.driveLinkDown 3) tSil (fun t => t.drive 3 = Drive.none) = true ∧
    tGot (.driveLinkDown 0) tSil (fun t => !(t.drive 0).up && (t.drive 0).downAt = some 0) = true ∧
    tGot (.driveLinkDown 4) tSil (fun t => t = tSil) = true := by decide +kernel

theorem wit_drive_failure : (tSil).mild 29 ∧ twf (fun _ => 0) (tSil).silo.map = true ∧
    tGot (.driveFailure 1 .timeout) tSil (fun t => (t.drive 1).st = .failed && Ext.degraded (t.ext 16) && t.staleCols 16 = 2 && t.sticky 29) = true ∧
    tGot (.driveFailure 1 .writeError) tSil (fun t => (t.drive 1).st = .failed) = true ∧
    tGot (.driveFailure 1 .linkDown) { tDrv 1 { tMember with up := false, downAt := some 0 } with now := 1000000000 } (fun t => (t.drive 1).st = .member) = true ∧
    tGot (.driveFailure 1 .linkDown) { tDrv 1 { tMember with up := false, downAt := some 0 } with now := 1000000001 } (fun t => (t.drive 1).st = .failed) = true ∧
    tGot (.driveFailure 1 .readError) (tDrv 1 { tMember with errs := List.replicate 7 0 }) (fun t => (t.drive 1).st = .failed) = true ∧
    tGot (.driveFailure 1 .readError) (tDrv 1 { tMember with errs := List.replicate 6 0 }) (fun t => (t.drive 1).st = .member && (t.drive 1).errs.length = 7) = true ∧
    tGot (.driveFailure 3 .timeout) tSil (fun t => t = tSil) = true := by decide +kernel

theorem wit_drive_set : (tSc 0x0501 [3, 0] tSil).holds (.host 0 3) 0x0501 ⟨0x0501, 3, 1, false, 1, 2, [3, 0], 0⟩ ∧
    tGot (.driveAdmit (.host 0 3)) (tSc 0x0501 [3, 0] tSil) (fun t => tEnd (.host 0 3) St.DONE [] t && (t.drive 3).st = .member) = true ∧
    tGot (.driveAdmit (.host 0 3)) (tSc 0x0501 [0, 0] tSil) (tEnd (.host 0 3) St.BAD_ARGUMENT []) = true ∧
    tGot (.driveAdmit (.host 0 3)) (tSc 0x0501 [3, 0] (tDrv 3 { tMember with st := .new, cap := 2 ^ 31 })) (tEnd (.host 0 3) St.NO_RESOURCE []) = true ∧
    tGot (.driveAdmit (.host 0 3)) (tSc 0x0501 [3, 1] tSil) (fun t => t = tSc 0x0501 [3, 1] tSil) = true ∧
    tGot (.driveAdmit (.host 0 3)) (tSc 0x0501 [32, 0] tSil) (tEnd (.host 0 3) St.BAD_ARGUMENT []) = true ∧
    tGot (.driveFail (.host 0 3)) (tSc 0x0501 [3, 3] tSil) (tEnd (.host 0 3) St.BAD_ARGUMENT []) = true ∧
    tGot (.driveRetire (.host 0 3)) (tSc 0x0501 [1, 1] tSil) (fun t => tEnd (.host 0 3) St.DONE [] t && (t.drive 1).st = .retiring && Ext.moving (t.ext 16)) = true ∧
    tGot (.driveRetire (.host 0 3)) (tSc 0x0501 [3, 1] tSil) (tEnd (.host 0 3) St.BAD_ARGUMENT []) = true ∧
    tGot (.driveRetire (.host 0 3)) (tSc 0x0501 [3, 1] (tDrv 3 tMember)) (fun t => (t.drive 3).st = .new) = true ∧
    tGot (.driveFail (.host 0 3)) (tSc 0x0501 [0, 2] tSil) (fun t => tEnd (.host 0 3) St.DONE [] t && (t.drive 0).st = .failed) = true ∧
    tGot (.driveFail (.host 0 3)) (tSc 0x0501 [3, 2] tSil) (tEnd (.host 0 3) St.BAD_ARGUMENT []) = true ∧
    tGot (.poolStatus (.host 0 3)) (tSc 0x0500 [] tSil) (tEnd (.host 0 3) St.DONE
      ([2, 2, 2, 1] ++ List.replicate 28 0 ++ leBytes 8 3000 ++ leBytes 8 2976)) = true := by decide +kernel

/-- R357: drive 3 takes the place of what drive 1 held; where the columns go is a free choice. -/
theorem wit_rebuild : (let s := tSil fun c => { c with map := [(16, Ext.setDegraded (Ext.mk 1 5 0 [0, 1, 2]) true)], stale := [(16, 2)] }
     s.domOn 74 = true ∧ (s.vol 5).live = true ∧ s.extIx 5 0 = 16 ∧ Ext.valid (s.ext 16) = true ∧ Ext.degraded (s.ext 16) = true ∧
     Ext.scheme (s.ext 16) = 1 ∧ s.readable 16 = 2 ∧ (s.slotDrives 1 8).length = 3) ∧
    tGot (.rebuildExtentDone 5 0) tSil (fun t => t = tSil) = true ∧ tGot (.rebuildExtentDone 5 1) tSil (fun t => t = tSil) = true := by decide +kernel
theorem wit_rebuild_place : (tSil).hasPlace 1 := ⟨8, by decide, by decide +kernel⟩
theorem wit_no_place : ¬ State.reset.hasPlace 1 := by
  rintro ⟨g, -, h⟩
  have h0 : State.reset.slotDrives 1 g = [] := by
    unfold State.slotDrives; rw [show State.reset.members = [] by decide]; rfl
  rw [h0] at h; exact absurd h (by decide)

def tBlk15 (lba : Nat) (st : BlkSt) (seq : Nat) : Block := { vol := 5, lba := lba, data := [7], st := st, seq := seq, held := st = .dirty }
theorem wit_destage : (tSil fun c => { c with cache := [tBlk15 3 .dirty 9] }).still ∧
    (tSil fun c => { c with cache := [tBlk15 3 .dirty 9] }).minimumMet 16 ((tSil fun c => { c with cache := [tBlk15 3 .dirty 9] }).columnsWritten 16 []) = true ∧
    tGot (.destageExtentDone 5 0 9 []) (tSil fun c => { c with cache := [tBlk15 3 .dirty 9] }) (fun t =>
      t.silo.cache = [{ tBlk15 3 .clean 9 with held := false }] && t.lbaDisk 5 3 = [7] && t.cnt (B.SILO + C.SILO_DESTAGED) = 1 && t.ext 16 = Ext.mk 1 5 0 [0, 1, 2]) = true ∧
    tGot (.destageExtentDone 5 0 8 []) (tSil fun c => { c with cache := [tBlk15 3 .dirty 9] }) (fun t => t.silo.cache = [tBlk15 3 .dirty 9]) = true ∧
    (tSil fun c => { c with cache := [tBlk15 3 .dirty 9] }).minimumMet 16 ((tSil fun c => { c with cache := [tBlk15 3 .dirty 9] }).columnsWritten 16 [1]) = false ∧
    tGot (.destageExtentDone 5 0 9 [1]) ((tSil fun c => { c with cache := [tBlk15 3 .dirty 9], drives := tput (fun _ => Drive.none) c.drives 1 { tMember with st := .failed } }))
      (fun t => Ext.degraded (t.ext 16) && t.staleCols 16 = 2 && t.silo.cache = [{ tBlk15 3 .clean 9 with held := false }]) = true ∧
    (tSil fun c => { c with cache := [tBlk15 260 .dirty 9] }).ext 17 = 0 ∧
    tGot (.destageExtentDone 5 0 9 []) (tSil) (fun t => t = tSil) = true :=
  ⟨⟨by decide +kernel, by decide +kernel, by decide +kernel, by decide +kernel⟩, by decide +kernel⟩

def tV (o : Nat) (args : List Byte) (f : SiloSt → SiloSt := id) : State := tSc o args (tSil f)
theorem wit_vol_create : (tV 0x0502 ([6, 0, 1, 0, 2, 0, 0, 0])).domOn 77 = true ∧
    tGot (.volCreate (.host 0 3)) (tV 0x0502 [6, 0, 1, 0, 2, 0, 0, 0]) (tEnd (.host 0 3) St.REFUSED []) = true ∧
    tGot (.volCreate (.host 0 3)) (tV 0x0502 [5, 0, 1, 0, 2, 0, 0, 0]) (tEnd (.host 0 3) St.BAD_ARGUMENT []) = true ∧
    tGot (.volCreate (.host 0 3)) { tV 0x0502 [6, 0, 1, 0, 2, 0, 0, 0] with keks := [(1, [9])], kcu := { State.reset.kcu with holder := some 0 } }
      (fun t => (t.tag (.host 0 3)).cur.isSome && !(t.vol 6).live) = true ∧
    tGot (.volCreate (.host 0 3)) { tV 0x0502 [6, 0, 2, 0, 2, 0, 0, 0] with keks := [(1, [9])] } (tEnd (.host 0 3) St.NO_RESOURCE []) = true ∧
    (tV 0x0502 [6, 0, 1, 0, 2, 0, 0, 0]).runFree 20 2 = true ∧ (tV 0x0502 []).runFree 19 2 = false ∧
    schemeCols 1 ≤ (tV 0x0502 []).members.length := by decide +kernel
theorem wit_no_run : ¬ ∃ b, b < 2 ^ 28 ∧ (tSil fun c => { c with vols := [(5, { tVol with base := 0, extents := 2 ^ 28 })] }).runFree b 1 = true := by
  rintro ⟨b, hb, h⟩
  simp [State.runFree, tSil, tVol] at h
  omega

/-- A write of one block of volume 5. -/
def tWop5 : WOp := ⟨0, none, 5, 0, 1, false, [], [], false, false, false, false, none⟩

theorem wit_vol_delete :
    tGot (.volDelete (.host 0 3)) (tV 0x0503 [5, 0, 1] fun c => { c with cache := [tBlk15 3 .dirty 9] }) (fun t =>
      tEnd (.host 0 3) St.DONE [] t && t.vol 5 = Vol.none && t.silo.cache = [] && t.ext 16 = 0 && t.jobs = []) = true ∧
    tGot (.volDelete (.host 0 3)) (tV 0x0503 [5, 0, 0]) (fun t => tEnd (.host 0 3) St.DONE [] t && t.vol 5 = Vol.none && t.jobs = []) = true ∧
    tGot (.volDelete (.host 0 3)) (tV 0x0503 [5, 0, 0] fun c => { c with cache := [tBlk15 3 .dirty 9] }) (fun t => t.held [0x0503] 5 && t.vol 5 = tVol) = true ∧
    tGot (.volDelete (.host 0 3)) (tV 0x0503 [5, 0, 0] fun c => { c with vols := [(5, { tVol with blocked := true })] }) tRetry15 = true ∧
    tGot (.volDelete (.host 0 3)) (tV 0x0503 [5, 0, 1] fun c => { c with atts := [(16, 6)] }) tRetry15 = true ∧
    tGot (.volDelete (.host 0 3)) (tV 0x0503 [5, 0, 1] fun c => { c with writes := [tWop5] }) tRetry15 = true ∧
    tGot (.volDelete (.host 0 3)) (tV 0x0503 [6, 0, 1]) (tEnd (.host 0 3) St.BAD_ARGUMENT []) = true ∧
    tGot (.volStatus (.host 0 3)) (tV 0x0506 [5, 0]) (tEnd (.host 0 3) St.DONE [0, 0, 0, 0, 1, 0, 0, 0, 0, 0, 0, 0, 0, 0, 0, 0]) = true ∧
    tGot (.volStatus (.host 0 3)) (tV 0x0506 [9, 0]) (tEnd (.host 0 3) St.BAD_ARGUMENT []) = true := by decide +kernel

/-- The volume is attached to plot 512 of host port 1, whose link is up. -/
theorem wit_vol_foreign : (let s := { tSil fun c => { c with atts := [(16 * 2, 6)] } with image := { Image.blank with allot := [(0, 2), (2, 1)] } }
     (s.fnOfPlot 2, s.volForeign (.host 0 3) 5, s.volForeign (.host 2 3) 5)) = (some (2, 0), true, false) := by decide +kernel

def tCs (o : Nat) (args : List Byte) (st : Nat) (x : ConnSt) (f : SiloSt → SiloSt := id) : State :=
  tSc o args (((tSil fun c => f { c with conns := [(1, x)] }).wr (connBase 1) R.CND_CONN_STATE_STATE st).wrB (connBase 1) R.CND_CONN_CFG_EN true)
def tConn : ConnSt := { ConnSt.init with peerVol := 8, localVol := some 5 }

theorem wit_resync : (tCs 0x0522 [5, 0] 1 tConn).connOf 5 = some 1 ∧
    tGot (.volResync (.host 0 3)) (tCs 0x0522 [5, 0] 1 tConn fun c => { c with marks := [17, 99] }) (fun t =>
      tEnd (.host 0 3) St.DONE [1, 0, 0, 0] t && t.silo.marks = [99] && (t.conn 1).sent.length = 256) = true ∧
    tGot (.volResync (.host 0 3)) (tCs 0x0522 [5, 0] 2 tConn) tRetry15 = true ∧
    tGot (.volResync (.host 0 3)) (tV 0x0522 [5, 0]) (tEnd (.host 0 3) St.BAD_ARGUMENT []) = true := by decide +kernel

/-- Plot 1 is a storage plot. -/
def tSp (f : SiloSt → SiloSt := id) : State :=
  { tPlot.wrB (B.PLOT 1) R.PLOT_CFG_KIND true with silo := f (tSil).silo }
theorem wit_attach : (tPl 0x0504 [1, 0, 5, 0] (tSp)).serves (.host 0 3) ⟨0x0504, 3, 1, false, 1, 6, [1, 0, 1, 0, 5, 0], 0⟩ 1 :=
  ⟨rfl, by decide +kernel, by decide +kernel, by decide +kernel⟩
theorem wit_attached :
    tGot (.volAttach (.host 0 3)) (tPl 0x0504 [1, 0, 5, 0] (tSp)) (fun t => tEnd (.host 0 3) St.DONE [] t && t.silo.atts = [(16, 6)]) = true ∧
    tGot (.volAttach (.host 0 3)) (tPl 0x0504 [1, 0, 5, 0] (tSp fun c => { c with atts := [(17, 6)] })) (tEnd (.host 0 3) St.BAD_ARGUMENT []) = true ∧
    tGot (.volAttach (.host 0 3)) (tPl 0x0504 [0, 0, 5, 0] (tSp)) (tEnd (.host 0 3) St.BAD_ARGUMENT []) = true ∧
    tGot (.volAttach (.host 0 3)) (tPl 0x0504 [1, 0, 5, 0] tPlot) (tEnd (.host 0 3) St.BAD_ARGUMENT []) = true ∧
    tGot (.volDetach (.host 0 3)) (tPl 0x0505 [1] (tSp fun c => { c with atts := [(16, 6)] })) (fun t => tEnd (.host 0 3) St.DONE [] t && t.silo.atts = []) = true ∧
    tGot (.volDetach (.host 0 3)) (tPl 0x0505 [1] (tSp)) (tEnd (.host 0 3) St.BAD_ARGUMENT []) = true ∧
    tGot (.volAttach (.host 0 3)) (tPl 0x0504 [1, 0, 5, 0] ((tSp).wrB (B.NVME 1) R.NVME_CC_EN true)) (fun t => (t.ctl 1).changed = [1]) = true := by decide +kernel

/-- A storage plot's controller: an admin queue and I/O queue 1, with one entry in each, and the completion queues of both. -/
def tNvCtl : Ctl :=
  { Ctl.init with sqs := [(0, { Nq.none with live := true, base := 0x10_0000, size := 8, tail := 1 }),
                          (1, { Nq.none with live := true, base := 0x10_1000, size := 8, tail := 1, cq := 1 })],
                  cqs := [(0, { Nq.none with live := true, base := 0x10_2000, size := 8, ien := true, phase := true }),
                          (1, { Nq.none with live := true, base := 0x10_3000, size := 8, phase := true })] }
def tNvx (x : Ctl) (f : SiloSt → SiloSt := id) : State :=
  { ((tSp fun c => f { c with ctls := [(1, x)], atts := [(16, 6)] }).wrB (B.NVME 1) R.NVME_CC_EN true).wrB (B.NVME 1) R.NVME_CSTS_RDY true with
    fns := [(0, tFn), (1, { tFn with tableSize := 4 })] }
def tNv (f : SiloSt → SiloSt := id) : State := tNvx tNvCtl f
def tEnt (op nsid prp1 d10 d11 d12 : Nat) : List Byte :=
  leBytes 1 op ++ [0] ++ leBytes 2 9 ++ leBytes 4 nsid ++ leBytes 16 0 ++ leBytes 8 prp1 ++ leBytes 8 0 ++ leBytes 4 d10 ++ leBytes 4 d11 ++ leBytes 4 d12
    ++ leBytes 12 0
/-- The status of the last completion entry. -/
def tSt (t : State) : Option Nat := t.out.reverse.findSome? fun o => match o with
  | .write 0 1 a d => if 0x10_2000 ≤ a && a < 0x10_4000 && d.length = 16 then some (blkAt d 14 2 / 2) else none
  | _ => none
/-- What has been posted to a page of the plot's host memory. -/
def tPosted (t : State) (a : Nat) : List Byte := (t.out.filterMap fun o => match o with
  | .write 0 1 b d => if a ≤ b && b < a + 4096 then some d else none
  | _ => none).flatten
/-- Completion entries sent. -/
def tCqes (t : State) : Nat := (t.out.filter fun o => match o with
  | .write 0 1 a d => 0x10_2000 ≤ a && a < 0x10_4000 && d.length = 16
  | _ => false).length
def tAd (op prp1 d10 d11 d12 : Nat) : Fetch := .ok (tEnt op 1 prp1 d10 d11 d12)

theorem wit_nv_posts : (tNv).nvPosts 1 0 1 := ⟨by decide +kernel, by decide +kernel, by decide +kernel, by decide +kernel, by decide +kernel, rfl⟩
theorem wit_nv_room : (tNv).nvRoom 1 0 ∧ (tNv).nvRoom 1 1 :=
  ⟨⟨by decide +kernel, by decide +kernel, by decide +kernel⟩, by decide +kernel, by decide +kernel, by decide +kernel⟩
theorem wit_nv_serve : (tNv).serve 1 0 0x01 (tEnt 0x01 0 0x10_4000 0x7_0002 0x1_0001 0) (Sqe.of (fit 64 (tEnt 0x01 0 0x10_4000 0x7_0002 0x1_0001 0))) ∧
    (tNv).serve 1 1 0x02 (tEnt 0x02 1 0x10_4000 0 0 0) (Sqe.of (fit 64 (tEnt 0x02 1 0x10_4000 0 0 0))) :=
  ⟨⟨by decide +kernel, by decide +kernel, rfl, by decide +kernel, by decide +kernel⟩, by decide +kernel, by decide +kernel, rfl, by decide +kernel, by decide +kernel⟩

theorem wit_nv_bells : (tNv).answers 0 1 = true ∧ (tNv).isStorage 1 = true ∧
    tGot (.nvmeSqDoorbell 1 1 5) tNv (fun t => (t.sq 1 1).tail = 5 && t.reply = .ok) = true ∧
    tGot (.nvmeSqDoorbell 1 1 8) tNv (fun t => (t.sq 1 1).tail = 1) = true ∧
    tGot (.nvmeSqDoorbell 1 1 5) tPlot (fun t => t.silo = tPlot.silo) = true ∧
    tGot (.nvmeCqDoorbell 1 1 5) tNv (fun t => (t.cq 1 1).head = 5) = true ∧
    tGot (.controllerReset 1) tNv (fun t => !t.ctlOn 1 && t.ctl 1 = Ctl.init && !t.flag (B.NVME 1) R.NVME_CSTS_RDY) = true ∧
    tGot (.shutdownNotification 1 1) tNv (fun t => t.rd (B.NVME 1) R.NVME_CSTS_SHST = 2) = true ∧
    tGot (.shutdownNotification 1 1) (tHost) (fun t => t = tHost) = true := by decide +kernel

theorem wit_nv_queues :
    tGot (.nvmeCreateIoSq 1 (tAd 0x01 0x10_4000 0x7_0002 0x1_0001 0)) tNv (fun t => tSt t = some 0 && (t.sq 1 2).live && (t.sq 1 2).size = 8 && (t.sq 1 2).cq = 1) = true ∧
    tGot (.nvmeCreateIoSq 1 (tAd 0x01 0x10_4000 0x7_0001 0x1_0001 0)) tNv (fun t => tSt t = some Nvme.invalidField) = true ∧
    tGot (.nvmeCreateIoCq 1 (tAd 0x05 0x10_4000 0x7_0002 0x3 0)) tNv (fun t => tSt t = some 0 && (t.cq 1 2).live && (t.cq 1 2).ien) = true ∧
    tGot (.nvmeCreateIoCq 1 (tAd 0x05 0x10_4001 0x7_0002 0x3 0)) tNv (fun t => tSt t = some Nvme.invalidField) = true ∧
    tGot (.nvmeDeleteIoSq 1 (tAd 0x00 0 1 0 0)) tNv (fun t => tSt t = some 0 && !(t.sq 1 1).live) = true ∧
    tGot (.nvmeDeleteIoSq 1 (tAd 0x00 0 2 0 0)) tNv (fun t => tSt t = some Nvme.invalidField) = true ∧
    tGot (.nvmeDeleteIoCq 1 (tAd 0x04 0 1 0 0)) tNv (fun t => tSt t = some Nvme.invalidField) = true ∧
    tGot (.nvmeDeleteIoCq 1 (tAd 0x04 0 1 0 0)) (tNvx { tNvCtl with sqs := tNvCtl.sqs.take 1 }) (fun t => tSt t = some 0 && !(t.cq 1 1).live) = true ∧
    tGot (.nvmeDeleteIoCq 1 (tAd 0x04 0 2 0 0)) tNv (fun t => tSt t = some Nvme.invalidField) = true ∧
    tGot (.nvmeDeleteIoCq 1 (tAd 0x01 0 2 0 0)) tNv (fun t => t = tNv) = true ∧
    tGot (.nvmeDeleteIoCq 1 (tAd 0x03 0 2 0 0)) tNv (fun t => tSt t = some Nvme.invalidOpcode) = true ∧
    tGot (.nvmeDeleteIoCq 1 (.ok ((tEnt 0x04 0 0 1 0 0).set 1 0x40))) tNv (fun t => tSt t = some Nvme.invalidField) = true ∧
    tGot (.nvmeDeleteIoCq 1 .ur) tNv (fun t => t.flag (B.NVME 1) R.NVME_CSTS_CFS) = true ∧
    tGot (.nvmeDeleteIoCq 1 .ur) (tNvx { tNvCtl with sqs := [(0, { Nq.none with live := true, base := 0, size := 8, tail := 1 })] })
      (fun t => t.flag (B.NVME 1) R.NVME_CSTS_CFS) = true ∧
    tGot (.nvmeDeleteIoCq 1 .ur) (tNvx Ctl.init) (fun t => t = tNvx Ctl.init) = true := by decide +kernel

theorem wit_nv_features :
    tGot (.nvmeSetFeatures 1 (tAd 0x09 0 0x0B 0x100 0)) tNv (fun t => tSt t = some 0 && (t.ctl 1).features = [(0x0B, 0x100)]) = true ∧
    tGot (.nvmeSetFeatures 1 (tAd 0x09 0 0x03 0x100 0)) tNv (fun t => tSt t = some Nvme.invalidField) = true ∧
    tGot (.nvmeSetFeatures 1 (tAd 0x09 0 0x02 1 0)) tNv (fun t => tSt t = some Nvme.invalidField) = true ∧
    tGot (.nvmeSetFeatures 1 (tAd 0x09 0 0x07 0 0)) tNv (fun t => tSt t = some 0) = true ∧
    tGot (.nvmeGetFeatures 1 (tAd 0x0A 0 0x0B 0 0)) tNv (fun t => tSt t = some 0) = true ∧
    tGot (.nvmeGetFeatures 1 (tAd 0x0A 0 0x07 0 0)) tNv (fun t => tSt t = some 0) = true ∧
    tGot (.nvmeGetFeatures 1 (tAd 0x0A 0 0x03 0 0)) tNv (fun t => tSt t = some Nvme.invalidField) = true ∧
    tGot (.nvmeAsyncEventRequest 1 (tAd 0x0C 0 0 0 0)) tNv (fun t => (t.ctl 1).aers = [9] && t.out = [.read 0 1 0x10_0000 64]) = true ∧
    tGot (.nvmeAsyncEventRequest 1 (tAd 0x0C 0 0 0 0)) (tNvx { tNvCtl with aers := [1, 2, 3, 4] }) (fun t => tSt t = some Nvme.invalidField) = true ∧
    tGot (.nvmeAsyncEventRequest 1 (tAd 0x0C 0 0 0 0)) (tNvx { tNvCtl with changed := [3], features := [(0x0B, 0x100)] }) (fun t => tSt t = some 0 && (t.ctl 1).masked) = true ∧
    tGot (.nvmeAbort 1 (tAd 0x08 0 0x5_0001 0 0)) tNv (fun t => tSt t = some 0) = true ∧
    tGot (.nvmeAbort 1 (tAd 0x08 0 0x5_0000 0 0)) (tNvx { tNvCtl with aers := [5] }) (fun t => (t.ctl 1).aers = [] && tCqes t = 2) = true := by decide +kernel

def tWop : WOp := { WOp.new (1, 1, 5) 5 3 1 with id := 4 }
def tRop : ROp := { id := 6, src := (1, 1, 5), vol := 5, lba := 3, n := 1, runs := [(0x10_4000, 4096)] }
theorem wit_nv_abort : (tNv).sq 1 1 ≠ (tNv).sq 1 0 ∧ ((tNv).sq 1 1).cq ≠ ((tNv).sq 1 0).cq ∧
    tGot (.nvmeAbort 1 (tAd 0x08 0 0x5_0001 0 0)) (tNv fun c => { c with writes := [tWop], waiting := [4] }) (fun t =>
      t.silo.writes = [] && t.silo.waiting = [] && tCqes t = 2) = true ∧
    tGot (.nvmeAbort 1 (tAd 0x08 0 0x5_0001 0 0)) (tNv fun c => { c with reads := [tRop] }) (fun t => t.silo.reads = [] && tCqes t = 2) = true ∧
    tGot (.nvmeAbort 1 (tAd 0x08 0 0x5_0001 0 0)) (tNv fun c => { c with writes := [{ tWop with began := true }] }) (fun t => t.silo.writes.length = 1) = true := by
  decide +kernel

theorem wit_nv_identify :
    tGot (.nvmeIdentify 1 (.ok (tEnt 0x06 2 0x10_4000 0 0 0)) []) tNv (fun t => tSt t = some Nvme.badNamespace) = true ∧
    tGot (.nvmeIdentify 1 (.ok (tEnt 0x06 1 0x10_4000 4 0 0)) []) tNv (fun t => tSt t = some Nvme.invalidField) = true ∧
    tGot (.nvmeIdentify 1 (.ok (tEnt 0x06 0 0x10_4000 2 0 0)) []) tNv (fun t => tSt t = some 0 && tPosted t 0x10_4000 = fit 4096 [1]) = true ∧
    (tNv).nsVol 1 1 = some 5 ∧ (tNv).windowOk 1 0x10_4000 4096 true = true ∧
    tGot (.nvmeGetLogPage 1 (tAd 0x02 0x10_4000 0x0004 0 0) []) (tNvx { tNvCtl with changed := [3], masked := true }) (fun t =>
      tSt t = some 0 && (t.ctl 1).changed = [] && !(t.ctl 1).masked && tPosted t 0x10_4000 = [3, 0, 0, 0]) = true ∧
    tGot (.nvmeGetLogPage 1 (tAd 0x02 0x10_4000 0x8004 0 0) []) (tNvx { tNvCtl with changed := [3], masked := true }) (fun t => (t.ctl 1).changed = [3]) = true ∧
    tGot (.nvmeGetLogPage 1 (tAd 0x02 0x10_4000 0x0003 0 0) []) tNv (fun t => tSt t = some Nvme.invalidField) = true ∧
    tGot (.nvmeGetLogPage 1 (tAd 0x02 0x10_4000 0x0004 0 2) []) tNv (fun t => tSt t = some Nvme.invalidField) = true := by decide +kernel

def tIo (op d10 d12 : Nat) (nsid : Nat := 1) (prp : Nat := 0x10_4000) (d11 : Nat := 0) : List Byte := tEnt op nsid prp d10 d11 d12
def tIoF (op d10 d12 : Nat) (nsid : Nat := 1) (prp : Nat := 0x10_4000) (d11 : Nat := 0) : Fetch := .ok (tIo op d10 d12 nsid prp d11)
/-- Budget B, with WRITEBACK at 1. -/
def tWb (b : Nat) (s : State) : State := (s.wr B.CIST R.CIST_BUDGET_B b).wrB B.DEV R.DEV_MODE_WRITEBACK true
def tLba (b : Byte) : List Byte := fit 4096 [b]

theorem wit_io_checks : tGot (.nvmeFlush 1 1 (tIoF 0 0 0)) tNv (fun t => tSt t = some 0) = true ∧
    tGot (.nvmeFlush 1 0 (tIoF 0 0 0)) tNv (fun t => t = tNv) = true ∧
    tGot (.nvmeFlush 1 1 .ur) tNv (fun t => t.flag (B.NVME 1) R.NVME_CSTS_CFS) = true ∧
    tGot (.nvmeFlush 1 1 (tIoF 0 0 0 2)) tNv (fun t => tSt t = some Nvme.badNamespace) = true ∧
    tGot (.nvmeFlush 1 1 (tIoF 0 0 0)) (tNv fun c => { c with vols := [(5, { tVol with online := false })] }) (fun t => tSt t = some Nvme.notReady) = true ∧
    tGot (.nvmeWrite 1 1 (tIoF 1 0 0) [] []) ((tNv).setMode .survey) (fun t => tSt t = some Nvme.writeProtected) = true ∧
    tGot (.nvmeWrite 1 1 (tIoF 1 0 0) [] []) (tNv fun c => { c with vols := [(5, { tVol with blocked := true })] }) (fun t => tSt t = some Nvme.notReady) = true ∧
    tGot (.nvmeWrite 1 1 (tIoF 1 0 256) [] []) tNv (fun t => tSt t = some Nvme.invalidField) = true ∧
    tGot (.nvmeRead 1 1 (tIoF 2 1024 0) []) tNv (fun t => tSt t = some Nvme.lbaRange) = true ∧
    tGot (.nvmeRead 1 1 (tIoF 2 3 0 1 0x10_4002) []) tNv (fun t => tSt t = some Nvme.invalidField) = true ∧
    tGot (.nvmeRead 1 1 (tIoF 2 3 0 1 0x40_4000) []) tNv (fun t => tSt t = some Nvme.transfer && t.flag (B.HPT 0) R.HPT_ERR_WINDOW_ERR) = true := by decide +kernel

theorem wit_io_write : (tWb 9 tNv).grantFits 1 = true ∧ (tNv).windowOk 1 0x10_4000 4096 false = true ∧ (tNv).failClosed 5 = false ∧ (tNv).connOf 5 = none ∧
    (tNv).mps 1 = 4096 ∧
    tGot (.nvmeWrite 1 1 (tIoF 1 3 0) [] []) (tWb 9 tNv) (fun t => t.silo.waiting = [1] && t.silo.writes.map (·.runs) = [[(0x10_4000, 4096)]] &&
      t.cnt (B.SILO + C.SILO_GRANT_WAITS) = 0 && tCqes t = 0) = true ∧
    tGot (.nvmeWrite 1 1 (tIoF 1 3 0) [] []) (tWb 0 tNv) (fun t => t.silo.waiting = [1] && t.cnt (B.SILO + C.SILO_GRANT_WAITS) = 1) = true ∧
    tGot (.nvmeWrite 1 1 (tIoF 1 3 0) [] [.ok [7]]) tNv (fun t => t.silo.waiting = [] && t.silo.cache.map (fun b => (b.lba, b.st, b.data.head?)) = [(3, .staging, some 7)]) = true := by
  decide +kernel

theorem wit_io_grant :
    tGot (.reservationGrant [.ok [7]]) (tWb 9 (tNv fun c => { c with writes := [{ tWop with runs := [(0x10_4000, 4096)] }], waiting := [4] })) (fun t =>
      t.silo.waiting = [] && t.silo.cache.map (fun b => (b.lba, b.st, b.held, b.data.head?)) = [(3, .staging, true, some 7)] && t.silo.writes.all (·.granted)) = true ∧
    tGot (.reservationGrant []) (tWb 0 (tNv fun c => { c with writes := [tWop], waiting := [4] })) (fun t => t.silo.waiting = [4]) = true ∧
    tGot (.reservationGrant []) (tWb 9 (tNv fun c => { c with writes := [{ tWop with zero := true }], waiting := [4] })) (fun t => t.silo.cache.length = 1) = true ∧
    tGot (.reservationGrant []) (tWb 9 (tNv fun c => { c with writes := [{ tWop with runs := [(0, 4)] }], waiting := [4] })) (fun t => tSt t = some Nvme.transfer && t.silo.writes = []) = true ∧
    tGot (.reservationGrant []) (tNv fun c => { c with waiting := [4] }) (fun t => t.silo.waiting = []) = true ∧
    tGot (.reservationGrant []) tNv (fun t => t = tNv) = true := by decide +kernel

def tStaged : WOp := { tWop with granted := true, began := true, staged := true }
theorem wit_io_ack :
    tGot (.writeAcknowledge 4) (tWb 9 (tNv fun c => { c with writes := [tStaged], cache := [tBlk15 3 .clean 1, { tBlk15 3 .staging 4 with held := true }] })) (fun t =>
      t.silo.cache = [{ tBlk15 3 .dirty 1 with held := true }] && t.silo.writes = [] && tSt t = some 0 && t.cnt (B.SILO + C.SILO_WRITES_ACKED) = 1) = true ∧
    tGot (.writeAcknowledge 4) (tWb 9 (tNv fun c => { c with writes := [{ tStaged with parts := [(9, 2)] }] })) (fun t => t.silo.waiting = [1] && t.out = []) = true ∧
    tGot (.writeAcknowledge 4) (tNv fun c => { c with writes := [tStaged] }) (fun t => t.out = []) = true ∧
    tGot (.writeAcknowledge 4) tNv (fun t => t = tNv) = true := by decide +kernel

theorem wit_io_zero :
    tGot (.nvmeWriteZeroes 1 1 (tIoF 8 3 4)) (tWb 9 tNv) (fun t => t.silo.waiting = [1] && t.silo.writes.map (fun w => (w.zero, w.lba, w.n)) = [(true, 3, 5)]) = true ∧
    tGot (.nvmeWriteZeroes 1 1 (tIoF 8 1023 4)) tNv (fun t => tSt t = some Nvme.lbaRange) = true ∧
    tGot (.nvmeWriteZeroes 1 1 (tIoF 8 0 (255 + 2 ^ 25))) (tNv fun c => { c with cache := [tBlk15 3 .dirty 1], disk := [(diskKey 5 4, some ⟨[], 4, [1]⟩)] }) (fun t =>
      t.ext 16 = 0 && t.silo.cache = [] && t.lbaDisk 5 4 = zeros4k && tSt t = some 0) = true ∧
    tGot (.nvmeDatasetManagement 1 1 (tIoF 9 0 0 1 0x10_4000 4) [] [.ok (leBytes 4 0 ++ leBytes 4 256 ++ leBytes 8 0)]) tNv (fun t => t.ext 16 = 0 && tSt t = some 0) = true ∧
    tGot (.nvmeDatasetManagement 1 1 (tIoF 9 0 0 1 0x10_4000 4) [] [.ok (leBytes 4 0 ++ leBytes 4 256 ++ leBytes 8 1024)]) tNv (fun t => tSt t = some Nvme.lbaRange) = true ∧
    tGot (.nvmeDatasetManagement 1 1 (tIoF 9 0 0 1 0x10_4000 0) [] [.ok []]) tNv (fun t => tSt t = some 0) = true := by decide +kernel

theorem wit_io_read : (tNv).missingLbas 5 3 1 = [3] ∧ (tNv).missingLbas 5 300 1 = [] ∧
    tGot (.nvmeRead 1 1 (tIoF 2 3 0) []) tNv (fun t => t.silo.reads.length = 1 && tCqes t = 0) = true ∧
    tGot (.nvmeRead 1 1 (tIoF 2 300 0) []) tNv (fun t => tSt t = some 0 && tPosted t 0x10_4000 = zeros4k) = true ∧
    tGot (.nvmeRead 1 1 (tIoF 2 3 0) []) (tNv fun c => { c with cache := [{ tBlk15 3 .dirty 1 with data := tLba 9 }] }) (fun t =>
      t.cnt (B.SILO + C.SILO_READ_HITS) = 1 && tPosted t 0x10_4000 = tLba 9) = true ∧
    tGot (.driveReadDone 6 []) (tNv fun c => { c with reads := [tRop], disk := [(diskKey 5 3, some ⟨[], 3, tLba 8⟩)] }) (fun t =>
      tSt t = some 0 && tPosted t 0x10_4000 = tLba 8 && t.silo.reads = []) = true ∧
    tGot (.driveReadDone 6 [0, 1, 2]) (tNv fun c => { c with reads := [tRop] }) (fun t => tSt t = some Nvme.unrecovered && t.cnt (B.SILO + C.SILO_READ_UNRECOVERED) = 1) = true ∧
    tGot (.driveReadDone 6 []) tNv (fun t => t = tNv) = true := by decide +kernel

theorem wit_prp : (tNv).prpRuns 1 (Sqe.of (tIo 2 0 0)) 4096 [] = ((tNv), .ok [(0x10_4000, 4096)]) ∧
    (tNv).prpRuns 1 (Sqe.of (tIo 2 0 0 1 2)) 4096 [] = ((tNv), .error Nvme.invalidField) ∧
    (tNv).prpRuns 1 { Sqe.of (tIo 2 0 0) with prp2 := 0x10_6000 } 8192 [] = ((tNv), .ok [(0x10_4000, 4096), (0x10_6000, 4096)]) ∧
    ((tNv).prpRuns 1 { Sqe.of (tIo 2 0 0) with prp2 := 0x10_6000 } 12288 [.ok (leBytes 8 0x10_7000 ++ leBytes 8 0x10_9000)]).2.toOption =
      some [(0x10_4000, 4096), (0x10_7000, 4096), (0x10_9000, 4096)] ∧
    (tNv).prpRuns 1 { Sqe.of (tIo 2 0 0) with prp2 := 0x10_6000 } 12288 [] = ((tNv), .error Nvme.transfer) := ⟨rfl, rfl, rfl, by decide +kernel, rfl⟩

/-- A write that waits for the peer of a connection that has failed with FAILMODE 1 ends with Namespace Not Ready. -/
theorem wit_io_closed : tGot (.writeAcknowledge 4) ((tNv fun c => { c with writes := [{ tStaged with peer := some (1, 5) }] }).wrB (connBase 1)
    R.CND_CONN_CFG_FAILMODE true) (fun t => t.silo.writes = [] && tSt t = some Nvme.notReady) = true ∧
    tGot (.nvmeDeleteIoSq 1 (tAd 0x00 0 1 0 0)) (tNv fun c => { c with writes := [tWop] }) (fun t => t.out = [] && (t.sq 1 1).live) = true := by decide +kernel

def tPk (psn lba : Nat) : CPkt := { psn := psn, vol := 8, lba := lba, data := [psn % 256] }
/-- Connection 1 is up, generation 7, for volume 5. -/
def tCn (x : ConnSt := tConn) (f : SiloSt → SiloSt := id) : State :=
  ((tSil fun c => f { c with conns := [(1, x)] }).wr (connBase 1) R.CND_CONN_STATE_STATE 1).wr (connBase 1) R.CND_CONN_CFG_GEN 7
def tSent (n : Nat := 0) : ConnSt := { tConn with sent := [tPk 4 3, tPk 5 4], tries := n }

theorem wit_conduit_send :
    tGot (.conduitNakRx 1 7) (tCn tSent) (fun t => t.out = [.conduit 1 "DATA" 4 [4], .conduit 1 "DATA" 5 [5]] && (t.conn 1).tries = 1 && t.cnt (connCnt 1 C.CND_RETRANSMITS) = 2) = true ∧
    tGot (.conduitRto 1) { tCn tSent with now := 100000 } (fun t => (t.conn 1).rto = 2 && (t.conn 1).tries = 1 && (t.conn 1).at_ = 100000) = true ∧
    tGot (.conduitRto 1) { tCn tSent with now := 99999 } (fun t => t = { tCn tSent with now := 99999 }) = true ∧
    tGot (.conduitRnrRetry 1) (tCn tSent) (fun t => t.conn 1 = tSent && t.out.length = 2) = true ∧
    tGot (.conduitNakRx 1 8) (tCn tSent) (fun t => t = tCn tSent) = true ∧
    tGot (.conduitNakRx 1 7) (tCn) (fun t => t = tCn) = true ∧ tGot (.conduitRto 1) (tCn) (fun t => t = tCn) = true ∧
    tGot (.conduitNakRx 1 7) (tCn (tSent 8) fun c => { c with writes := [{ tWop with peer := some (1, 5) }] }) (fun t =>
      t.connState 1 = 2 && t.sticky 23 && t.silo.marks = [16] && t.silo.writes = [tWop]) = true ∧ (tCn).mild 23 ∧
    tGot (.conduitAckRx 1 7 4) (tCn (tSent 3) fun c => { c with writes := [{ tWop with peer := some (1, 4) }] }) (fun t =>
      (t.conn 1).sent = [tPk 5 4] && (t.conn 1).tries = 0 && t.rd (connBase 1) R.CND_CONN_OLDEST_OLDEST = 5 && t.silo.writes = [tWop]) = true ∧
    tGot (.conduitAckRx 1 7 3) (tCn tSent) (fun t => t = tCn tSent) = true := by decide +kernel

theorem wit_conduit_receive :
    tGot (.conduitDataRx 1 7 0 3 [9]) (tWb 9 (tCn tConn fun c => { c with cache := [tBlk15 3 .clean 1] })) (fun t => t.out = [.conduit 1 "ACK" 0 []] &&
      t.silo.cache.map (fun b => (b.lba, b.st, b.held)) = [(3, .dirty, true)] && t.rd (connBase 1) R.CND_CONN_RX_EXPECT = 1) = true ∧
    tGot (.conduitDataRx 1 7 0 3 [9]) (tWb 0 (tCn)) (fun t => t.out = [.conduit 1 "RNR" 0 []] && t.cnt (connCnt 1 C.CND_RNR) = 1) = true ∧
    tGot (.conduitDataRx 1 7 0 3 [9]) (tWb 9 (tCn { tConn with localVol := none })) (fun t => t.out = [.conduit 1 "RNR" 0 []]) = true ∧
    tGot (.conduitDataRx 1 7 1 3 [9]) (tCn) (fun t => t.out = [.conduit 1 "NAK" 0 []] && t.cnt (connCnt 1 C.CND_OOO_RX) = 1) = true ∧
    tGot (.conduitDataRx 1 7 (2 ^ 22) 3 [9]) (tCn) (fun t => t.out = [] && t.cnt (connCnt 1 C.CND_BAD_PSN) = 1) = true ∧
    tGot (.conduitDataRx 1 7 (2 ^ 23) 3 [9]) (tCn) (fun t => t.out = [.conduit 1 "ACK" (2 ^ 24 - 1) []] && t.cnt (connCnt 1 C.CND_DUP_RX) = 1) = true := by decide +kernel

/-- A write of volume 5 whose block the peer of connection 1 has not accepted. -/
def tRepl : WOp := { tWop with began := true, peer := some (1, 5) }

theorem wit_conduit_commands :
    tGot (.cndConnSet (.host 0 3)) (tSc 0x0520 ([1, 0, 0, 0, 9, 0, 2, 0xC0] ++ List.replicate 16 1 ++ [8, 0, 5, 0]) (tCn tSent)) (fun t =>
      tEnd (.host 0 3) St.DONE [] t && t.connState 1 = 1 && t.rd (connBase 1) R.CND_CONN_CFG_GEN = 9 && t.rd (connBase 1) R.CND_CONN_CFG_ETHPORT = 2 &&
      t.conn 1 = { ConnSt.init with addr := List.replicate 16 1, peerVol := 8, localVol := some 5 }) = true ∧
    (let s := tSc 0x0520 ([1, 0, 0, 0, 9, 0, 2, 0xC0] ++ List.replicate 16 1 ++ [8, 0, 5, 0]) (tCn tConn fun c => { c with writes := [tRepl], cache := [tBlk15 3 .staging 4] })
     (s.stagedBlocks tRepl).length = 1 ∧ tGot (.cndConnSet (.host 0 3)) s (fun t => tEnd (.host 0 3) St.DONE [] t && t.rd (connBase 1) R.CND_CONN_STATE_NEXT_PSN = 1 &&
      (t.conn 1).sent.map (fun p => (p.vol, p.lba)) = [(8, 3)] && t.silo.writes = [{ tRepl with peer := some (1, 0) }]) = true) ∧
    tGot (.cndConnSet (.host 0 3)) (tSc 0x0520 ([64, 0, 0, 0, 9, 0, 2, 0xC0] ++ List.replicate 16 1 ++ [8, 0, 5, 0]) (tCn)) (tEnd (.host 0 3) St.BAD_ARGUMENT []) = true ∧
    tGot (.cndStatus (.host 0 3)) (tSc 0x0521 [1] (tCn)) (tEnd (.host 0 3) St.DONE [7, 0, 0, 0, 0, 0, 0, 0x40, 0, 0, 0, 0, 0, 0, 0, 0]) = true ∧
    tGot (.cndStatus (.host 0 3)) (tSc 0x0521 [64] (tCn)) (tEnd (.host 0 3) St.BAD_ARGUMENT []) = true := by decide +kernel

/-- The new bank of R369: 9,500 µF and 3.0 GB/s. -/
def tBank (f : Cist → Cist := id) : State :=
  { (tSil).wr B.CIST R.CIST_WRATE_W 3000 with cist := f { Cist.init with cm := 9500 } }

/-- R369's worked example: B is 82,716 blocks at 60.00 V. -/
theorem wit_ledger : tGot (.ledgerRecompute 6000 6000) tBank (fun t => t.rd B.CIST R.CIST_BUDGET_B = 82716 && t.rd B.CIST R.CIST_EUSE_E_USE = 10260 &&
      t.rd B.CIST R.CIST_VBANK_V_B = 6000 && !t.cist.chg && t.cist.full && t.cist.senseOk) = true ∧
    tGot (.ledgerRecompute 5700 5700) tBank (fun t => t.rd B.CIST R.CIST_BUDGET_B = 67846 && t.cist.chg) = true ∧
    tGot (.ledgerRecompute 6000 5990) (tBank fun c => { c with aboveAt := some 0 }) (fun t => t.rd B.CIST R.CIST_STATUS_ABOVE = 0) = true ∧
    tGot (.ledgerRecompute 6000 6000) { tBank (fun c => { c with aboveAt := some 0 }) with now := 1000000000 } (fun t => t.rd B.CIST R.CIST_STATUS_ABOVE = 1) = true ∧
    tGot (.ledgerRecompute 2000 2000) ((tBank).wrB B.CIST R.CIST_STATUS_ABOVE true) (fun t => t.rd B.CIST R.CIST_STATUS_ABOVE = 0) = true ∧
    tGot (.ledgerRecompute 6000 5000) tBank (fun t => t.cist.senseOk && t.cist.differAt = some 0) = true ∧
    tGot (.ledgerRecompute 6000 5000) { tBank (fun c => { c with differAt := some 0 }) with now := 100000 } (fun t => !t.cist.senseOk && t.rd B.CIST R.CIST_BUDGET_B = 0) = true ∧
    tGot (.ledgerRecompute 2000 2000) { tBank with silo := { (tSil).silo with cache := [tBlk15 3 .dirty 1] } } (fun t => t.sticky 11 && t.cist.overAt = some 0) = true ∧
    (tBank).mild 11 ∧ (tBank).sev 1 = 4 ∧ (tBank).mode = .flowing ∧ 105 * (tBank).rd B.CIST R.CIST_LIMIT_VCHG_MAX < 100 * 6301 ∧
    tGot (.ledgerRecompute 6301 6301) (tBank fun c => { c with high := 1 }) (fun t => t.cist.ovp && !t.cist.chg && t.mode = .drain) = true := by decide +kernel

theorem wit_over_probe :
    tGot .overPersist { tBank (fun c => { c with overAt := some 0 }) with silo := { (tSil).silo with cache := [tBlk15 3 .dirty 1] }, now := 1000000000 } (fun t => t.sticky 12 && t.cist.overDeg) = true ∧
    tGot .overPersist { tBank (fun c => { c with overAt := some 0 }) with silo := { (tSil).silo with cache := [tBlk15 3 .dirty 1] }, now := 999999999 } (fun t => !t.sticky 12) = true ∧
    tGot .overPersist tBank (fun t => t = tBank) = true ∧ (tBank).mild 12 ∧
    tGot (.vaultProbe 2400 true) (tBank fun c => { c with probes := [1, 9000, 9000, 9000, 9000, 9000] }) (fun t => t.rd B.CIST R.CIST_WRATE_W = 2400 && t.cist.probes.length = 6) = true ∧
    tGot (.vaultProbe 2400 false) tBank (fun t => t = { tBank with cist := { (tBank).cist with probeAt := some 0 } }) = true ∧
    tGot (.vaultProbe 2400 true) (tBank fun c => { c with probeAt := some 0 }) (fun t => t = tBank fun c => { c with probeAt := some 0 }) = true := by decide +kernel

def tReady : State := { ((tBank fun c => { c with full := true, ageAt := some 0 }).wrW (B.PWR + R.PWR_PINS_MAIN_PG.off) 0xFFFF_FFFF) with now := 24 * 3600 * 10 ^ 9 }
theorem wit_capacity : (tReady).testReady = true ∧ (tReady).vChg = 6000 ∧
    tGot .capacityTestStart tReady (fun t => t.cist.bleed = some (24 * 3600 * 10 ^ 9, 6000) && t.out = [.pin "CIST_BLEED_EN" true]) = true ∧
    tGot .capacityTestStart { tReady with now := 7 } (fun t => t.cist.bleed = none) = true ∧
    tGot .capacityTestEnd (({ tReady with cist := { tReady.cist with bleed := some (0, 6000) }, now := 285000000 }).wr B.CIST R.CIST_VBANK_V_B 5700)
      (fun t => t.cist.cm = 9500 && t.cist.bleed = none && t.vault.rec_ = some (9500, 0)) = true ∧
    tGot .capacityTestEnd (({ tReady with cist := { tReady.cist with bleed := some (0, 6000) } }).wr B.CIST R.CIST_VBANK_V_B 5701) (fun t => t.cist.bleed = some (0, 6000)) = true ∧
    tGot .capacityTestAbandon { tReady with cist := { tReady.cist with bleed := some (0, 6000) }, now := 670000000 } (fun t => t.cist.bleed = some (0, 6000)) = true ∧
    tGot .capacityTestAbandon { tReady with cist := { tReady.cist with bleed := some (0, 6000) }, now := 670000001 } (fun t => t.cist.bleed = none && t.cist.cm = 9500) = true ∧
    tGot .capacityTestEnd tReady (fun t => t = tReady) = true ∧
    tGot .ledgerRecordWrite tReady (fun t => t.vault.rec_ = some (9500, 24)) = true ∧ tGot .ledgerRecordWrite State.reset (fun t => t = State.reset) = true := by decide +kernel

theorem wit_cist_commands :
    tGot (.cistStatus (.host 0 3)) (tSc 0x0510 [] tReady) (fun t => (t.tag (.host 0 3)).fin.map (fun f => f.data.length) = some 28) = true ∧
    tGot (.cistSet (.host 0 3)) (tSc 0x0511 (leBytes 4 0x8000_0040 ++ leBytes 4 0x1770_4650 ++ leBytes 4 0x5A19_0FA0 ++ leBytes 4 0x0226_07D0 ++ leBytes 4 0x0258 ++ [1]) tHost) (fun t =>
      tEnd (.host 0 3) St.DONE [] t && t.rd B.CIST R.CIST_CFG_WB_MIN = 64 && t.flag B.CIST R.CIST_LOCK_CLOCK) = true ∧
    tGot (.cistSet (.host 0 3)) (tSc 0x0511 (leBytes 4 0x8000_0040 ++ leBytes 4 0x1770_4650 ++ leBytes 4 0x5A19_0FA0 ++ leBytes 4 0x0226_07D0 ++ leBytes 4 0x0259)
      (tHost.wrB B.CIST R.CIST_LOCK_CLOCK true)) (tEnd (.host 0 3) St.REFUSED []) = true ∧
    tGot (.cistSet (.host 0 3)) (tSc 0x0511 [] tHost) (tEnd (.host 0 3) St.BAD_ARGUMENT []) = true ∧
    tGot (.cistTest (.host 0 3)) (tSc 0x0512 [] tReady) (fun t => t.held [0x0512] 0 && t.cist.bleed.isSome) = true ∧
    tGot (.cistTest (.host 0 3)) (tSc 0x0512 [] tBank) tRetry15 = true ∧
    tGot (.cistTest (.host 0 3)) (tSc 0x0512 [] { tReady with cist := { tReady.cist with bleed := some (0, 6000) } }) (fun t => t.held [0x0512] 0) = true ∧
    tGot (.vaultStatus (.host 0 3)) (tSc 0x0513 [] tHost) (tEnd (.host 0 3) St.DONE (List.replicate 12 0)) = true := by decide +kernel

def tRec (lba : Nat) : VRec := { vol := 5, lba := lba, seq := 3, data := { key := [], tweak := lba, plain := [1] } }
def tVlt (v : Vault) (r : Option Nat := none) (key : Bool := true) : State :=
  { (tSil (fun c => { c with vaultKey := key, restoring := r }) .priming).wrB B.DEV R.DEV_MODE_VAULT_PENDING true with
    vault := v, modes := { State.reset.modes with steps := [(.restore, .running)] } }
def tImg (hdr : Nat) : Vault := { Vault.blank with hdr := hdr, seq := 2, chunks := [[tRec 3], [tRec 4]], pending := true, drains := 1 }

theorem wit_restore : (tVlt (tImg 2)).busy = false ∧ (tVlt (tImg 2)).sev 14 ≠ 4 ∧ stepState (tVlt (tImg 2)).modes.steps .restore = some .running ∧
    tGot (.vaultRestoreChunk true) (tVlt (tImg 2)) (fun t => t.silo.restoring = some 1 && t.silo.cache.map (fun b => (b.lba, b.st, b.held)) = [(3, .dirty, true)]) = true ∧
    tGot (.vaultRestoreChunk true) (tVlt (tImg 2) (some 1)) (fun t => t.vault.hdr = 3 && t.flag B.DEV R.DEV_MODE_VAULT_PENDING && !t.sticky 14) = true ∧
    tGot (.vaultRestoreChunk true) (tVlt (tImg 1) (some 1)) (fun t => t.vault.hdr = 3 && t.sticky 14) = true ∧
    tGot (.vaultRestoreChunk true) (tVlt (tImg 2) none false) (fun t => t.vault.hdr = 4 && !t.flag B.DEV R.DEV_MODE_VAULT_PENDING && t.sticky 14) = true ∧
    tGot (.vaultRestoreChunk false) ((tVlt (tImg 2) (some 1)).onSilo fun c => { c with restored := [diskKey 5 3] }) (fun t => t.vault.hdr = 3 && t.sticky 14) = true ∧
    tGot (.vaultRestoreChunk true) tSil (fun t => t = tSil) = true := by decide +kernel

def tDrain (x : SaveSt) : State := { tSil (fun c => { c with save := x }) .drain with now := 250000000, vault := { tImg 1 with chunks := [] } }
theorem wit_drain : (tDrain .idle).mode = .drain ∧ (tDrain .idle).modes.resetAfter = false ∧ (tDrain .idle).mild 13 ∧
    tGot (.vaultChunkWritten true) (tDrain (.chunks [[tRec 3], [tRec 4]] false)) (fun t => t.vault.chunks = [[tRec 3]] && t.silo.save = .chunks [[tRec 4]] false) = true ∧
    tGot (.vaultChunkWritten true) (tDrain (.chunks [[tRec 3]] true)) (fun t => t.vault.hdr = 2 && t.silo.save = .flush 250000000 && t.vault.rec_.isSome) = true ∧
    tGot (.vaultChunkWritten false) (tDrain (.chunks [[tRec 3]] false)) (fun t => t.silo.save = .chunks [[tRec 3]] true && t.mode = .drain) = true ∧
    tGot (.vaultChunkWritten false) (tDrain (.chunks [[tRec 3]] true)) (fun t => t.mode = .fallow && t.vault.hdr = 1) = true ∧
    tGot .drainComplete (tDrain (.chunks [[tRec 3]] true)) (fun t => t.mode = .drain) = true ∧
    tGot .drainComplete (tDrain (.flush 0)) (fun t => t.mode = .fallow && !t.vault.late && t.flag B.PWR R.PWR_PINS_DRAIN_DONE && !t.domOn 74) = true ∧
    tGot .flushLate (tDrain (.flush 0)) (fun t => t.mode = .fallow && t.vault.late) = true ∧
    tGot .flushLate (tDrain (.flush 1)) (fun t => t.mode = .drain) = true ∧
    tGot .drainComplete tSil (fun t => t = tSil) = true ∧
    tGot .drainComplete { tDrain (.flush 0) with now := 250000001 } (fun t => t.vault.late) = true ∧
    tGot .wearScan tSil (fun t => t = tSil) = true ∧
    tGot .wearScan { tSil with now := 86400 * 10 ^ 9 } (fun t => t.out = [.drive 0 "wear" 0 0, .drive 1 "wear" 0 0, .drive 2 "wear" 0 0, .drive 3 "wear" 0 0, .drive 32 "wear" 0 0]) = true := by decide +kernel

/-! ### The Reservoir and the Hopper (chapter 16) -/

/-- Stacks trained; 22 °C in S1. -/
def tRsv (f : State → State := id) : State :=
  f ((List.range 4).foldl (fun (s : State) k => s.wr (B.RSV k) R.RSV_STATUS_TEMP 22 |>.wrB (B.RSV k) R.RSV_STATUS_TRAINED true) (tSil))

/-- R385's examples: RA 0x3010 is S1 at 0x1_0000_1010, RA 0xF_0000_3010 is S3 at 0x5_0000_1010. -/
theorem wit_decoding : rsvKey 1 0x1_0000_1010 = B.RA + 0x3010 ∧ rsvKey 3 0x5_0000_1010 = B.RA + 0xF_0000_3010 := by decide

theorem wit_request : (tRsv).stackReady 1 = true ∧ (tRsv).mild 336 ∧ (tRsv).mild 341 ∧ (tRsv).mild 24 ∧ (tRsv).mild 25 ∧
    tGot (.reservoirRequest 0 0x40 (some [7, 8]) false false .good .unused) tRsv (fun t => bytesAt t.mem (rsvKey 0 0x40) 3 = [7, 8, 0] && t.reply = .ok) = true ∧
    isMapBlock 0 0x40 = false ∧ isMapBlock 1 0x40 = true ∧ (tRsv).stackHome 0 0x40 = rsvKey 0 0x40 ∧
    tGot (.reservoirRequest 1 0x40 (some [7, 8]) false false .good .unused) tRsv (fun t => t.ext 4 = 0x807 && t.ext 16 = (tRsv).ext 16 && t.mem = (tRsv).mem) = true ∧
    tGot (.reservoirRequest 0 0x45 none true false .good .unused) { tRsv with mem := putBytes tRsv.mem (rsvKey 0 0x40) [7] } (fun t =>
      t.reply = .bytes (7 :: List.replicate 63 0) && t.cnt (B.RSV 0 + C.RSV_INORDER) = 1) = true ∧
    tGot (.reservoirRequest 1 0x45 none false false .good .unused) (tRsv fun s => s.setExt 5 9) (fun t =>
      t.reply = .bytes (List.replicate 16 0 ++ 9 :: List.replicate 47 0)) = true ∧
    tGot (.reservoirRequest 1 0x45 none false false .corrected .unused) tRsv (fun t => t.reply = .bytes (List.replicate 64 0) && t.sticky 340) = true ∧
    tGot (.reservoirRequest 1 0x45 none false false .bad .tap) tRsv (fun t => t.reply = .busError && t.isPoisoned 1 0x40 && t.sticky 341 &&
      t.reg (B.RSV 1 + 0x18) = 0x40) = true ∧
    tGot (.reservoirRequest 1 0x45 (some []) false false .good .tap) (tRsv fun s => s.setPoisoned 1 0x40 true) (fun t => !t.isPoisoned 1 0x40) = true ∧
    tGot (.reservoirRequest 1 (24 * 2 ^ 30) none false false .good .tap) tRsv (fun t => t.reply = .busError) = true := by decide +kernel

theorem wit_bad_users :
    tGot (.reservoirRequest 1 0 none false false .bad (.hash 2 5)) (tRsv fun s => s.setSlot 2 5 (2 ^ 511 + 9)) (fun t => t.slot 2 5 = 9 && !t.isPoisoned 1 0) = true ∧
    tGot (.reservoirRequest 1 0 none false false .bad (.extentMap 17)) (tRsv fun s => s.setExt 16 0) (fun t => t.ext 16 = Ext.mk 1 5 0 [0, 1, 2]) = true ∧
    tGot (.reservoirRequest 0 0 none false false .bad (.cache 5 3)) (tRsv fun s => s.onSilo fun c => { c with cache := [tBlk15 3 .clean 1] }) (fun t => t.silo.cache = [] && t.silo.badBlks = []) = true ∧
    tGot (.reservoirRequest 0 0 none false false .bad (.cache 5 3)) (tRsv fun s => s.onSilo fun c => { c with cache := [tBlk15 3 .dirty 1] }) (fun t =>
      t.silo.cache = [] && t.silo.badBlks = [diskKey 5 3] && t.sticky 25) = true ∧
    tGot (.reservoirRequest 0 0 none false false .bad (.cacheMeta true)) tRsv (fun t => t.sticky 24 && t.isPoisoned 0 0) = true ∧
    tGot (.reservoirRequest 0 0 none false false .bad (.cacheMeta false)) tRsv (fun t => !t.isPoisoned 0 0) = true ∧
    tGot (.reservoirRequest 1 0 none false false .bad (.conduit 1)) (tRsv fun s => (s.onSilo fun c => { c with conns := [(1, tSent)] }).wr (connBase 1) R.CND_CONN_STATE_STATE 1)
      (fun t => t.connState 1 = 2 && (t.conn 1).sent = [] && t.sticky 23) = true ∧
    tGot (.reservoirRequest 1 0 none false false .bad (.link 1)) (tRsv fun s => s.setHead 1 [512]) (fun t => t.broken 1 && t.sticky 21 && t.poolFree 1 = 1) = true := by decide +kernel

theorem wit_bad_queue : tGot (.reservoirRequest 1 0 none false false .bad (.queue 0 0 0 (tVp 0 0 false).id))
    (tRsv fun s => s.setVoq (voqKey 0 0 0) { pkts := [{ tVp 0 0 false with spilled := true }], next := 0, fill := 0 })
    (fun t => (t.voq (voqKey 0 0 0)).pkts = [] && t.cnt (B.HDR 0 + C.HDR_VOQ_ADMIT_DROP) = 1) = true := by decide +kernel

theorem wit_refresh : tGot (.refreshDue 1 3 true) { tRsv with now := 3900 } (fun t => t.refreshOwed 35 = 0 && tget (fun _ => 0) t.rsv.refAt 35 = 3900) = true ∧
    tGot (.refreshDue 1 3 false) { tRsv with now := 3900 } (fun t => t.refreshOwed 35 = 1) = true ∧
    tGot (.refreshDue 1 3 false) { tRsv with now := 3899 } (fun t => t.refreshOwed 35 = 0) = true ∧
    tGot (.refreshDue 1 3 false) ((tRsv fun s => { s with now := 1950 }).wrB (B.RSV 1) R.RSV_STATUS_HOT true) (fun t => t.refreshOwed 35 = 1) = true ∧
    tGot (.refreshDue 1 3 false) { tRsv with now := 3900, rsv := { RsvSt.init with owed := [(35, 7)] } } (fun t => t.refreshOwed 35 = 0 &&
      t.cnt (B.RSV 1 + C.RSV_CATCHUP) = 1 && t.sticky 9) = true ∧ (tRsv).mild 9 := by decide +kernel

def tHot (n : Nat) : State := (tRsv).wr (B.RSV 1) R.RSV_STATUS_TEMP n
theorem wit_temp : tGot (.stackTempReading 1 86) (tHot 86) (fun t => t.flag (B.RSV 1) R.RSV_STATUS_HOT && !t.flag (B.RSV 1) R.RSV_STATUS_ALARM) = true ∧
    tGot (.stackTempReading 1 86) (tHot 85) (fun t => !t.flag (B.RSV 1) R.RSV_STATUS_HOT && t.rd (B.RSV 1) R.RSV_STATUS_TEMP = 86) = true ∧
    tGot (.stackTempReading 1 95) (tHot 95) (fun t => t.flag (B.RSV 1) R.RSV_STATUS_ALARM && t.sticky 342 && !t.sticky 343) = true ∧
    tGot (.stackTempReading 1 105) (tHot 105) (fun t => t.sticky 343 && t.rsv.hot105 = [1]) = true ∧
    tGot (.stackTempReading 1 80) ((tHot 80).wrB (B.RSV 1) R.RSV_STATUS_HOT true) (fun t => !t.flag (B.RSV 1) R.RSV_STATUS_HOT) = true ∧
    tGot (.stackTempReading 1 80) State.reset (fun t => t = State.reset) = true ∧
    tGot (.stackTempReading 1 86) ({ tHot 86 with now := 999999 }.every (Tm.stackTemp 1) 1 id) (fun t => t = { tHot 86 with now := 999999 }.every (Tm.stackTemp 1) 1 id) = true := by decide +kernel

def tScr (n now : Nat) : State := { tRsv with rsv := { RsvSt.init with scrub := [(1, (n, 0))] }, now := now }
theorem wit_scrub : tGot (.patrolScrubStep 1 .good .unused) (tScr 5 (10 ^ 9)) (fun t => t.scrubOf 1 = (6, 0)) = true ∧
    tGot (.patrolScrubStep 1 .good .unused) (tScr 5 7) (fun t => t.scrubOf 1 = (5, 0)) = true ∧
    tGot (.patrolScrubStep 1 .good .unused) (tScr 402653183 (72001 * 10 ^ 9)) (fun t => t.scrubOf 1 = (0, 72001 * 10 ^ 9) && t.rd (B.RSV 1) R.RSV_SCRUB_STAT_PROGRESS = 0) = true ∧
    tGot (.patrolScrubStep 1 .corrected .unused) (tScr 5 (10 ^ 9)) (fun t => t.sticky 340 && t.cnt (B.RSV 1 + C.RSV_SCRUB_CE) = 1) = true := by decide +kernel

/-- Pools 1 and 2 of two buffers each at 0 and 64 KiB, built; core cluster 0 is on. -/
def tPools (f : HopSt → HopSt := id) : State :=
  let s := (((tSil).wr (poolReg 1) R.HOP_POOL_CFG_COUNT 2).wr (poolReg 2) R.HOP_POOL_CFG_COUNT 2).wr (poolReg 2) R.HOP_POOL_BASE_BASE 1
  { s.wrB B.HOP R.HOP_CTRL_READY true with hop := f { HopSt.init with heads := [(1, [512]), (2, [65536])], bits := [(0, 1)] } }
theorem wit_hop_req : (tPools).hopOpen = true ∧ (tPools).mild 20 ∧ (tPools).mild 21 ∧ (tPools).mild 22 ∧
    tGot (.hopReq .silo 0 false) tPools (fun t => t.reply = .data (2 * 2 ^ 60)) = true ∧
    tGot (.hopReq .silo 65537 false) tPools (fun t => t.reply = .data (2 * 2 ^ 60)) = true ∧
    tGot (.hopReq .silo 5000 false) tPools (fun t => t.reply = .data (2 ^ 60) && t.cnt (B.HOP + 0x20 * 5 + C.HOP_EMPTY) = 1) = true ∧
    tGot (.hopReq .silo (BitVec.ofNat 32 (2 ^ 31 + 100)) false) tPools (fun t => t.reply = .data (2 ^ 60)) = true ∧
    tGot (.hopReq (.core 3) 65537 false) tPools (fun t => t.reply = .ok && t.reg (B.HSLOT 3 + 0xC) = 0x2000_0000) = true ∧
    tGot (.hopReq .silo 300 false) ((tPools).wrB B.HOP R.HOP_CTRL_READY false) (fun t => t.reply = .data (2 ^ 60)) = true ∧
    tGot (.hopReq (.core 3) 300 false) State.reset (fun t => t.reply = .busError) = true ∧
    (tPools).hopHead 1 = [512] ∧ (tPools).hopList 1 ∉ (tPools).hopHead 1 ∧ (tPools).hopHead 0 = [] := by decide +kernel

theorem wit_hop_free : (tPools).poolAt 0 = some 1 ∧ (tPools).poolAt 100 = none ∧
    tGot (.hopFree .lk 0x1_0000_0000) tPools (fun t => t.hopHead 1 = [512, 0] && !t.hopUsed 0 && t.cnt (B.HOP + 0x20 + C.HOP_FREES) = 1) = true ∧
    tGot (.hopFree (.core 3) 0x1_0000_0200) tPools (fun t => t.sticky 20 && t.reg (B.HSLOT 3 + 0x18) = 2 && t.cnt (B.HOP + C.HOP_DOUBLE_FREE) = 1) = true ∧
    tGot (.hopFree (.core 3) 0x1_0000_0064) tPools (fun t => t.reg (B.HSLOT 3 + 0x18) = 1 && t.cnt (B.HOP + C.HOP_BAD_FREE) = 1) = true ∧
    tGot (.hopFree .lk 0x1_0000_0000) (tPools fun h => { h with heads := [(1, 512 :: List.replicate 23 1024)] }) (fun t =>
      t.hopList 1 = 512 && (t.hopHead 1).length = 24 && bytesAt t.mem (B.POOLM + 512) 8 = [0xFF, 0xFF, 0xFF, 0xFF, 0, 0, 0, 0]) = true ∧
    tGot (.hopFree .lk 0x1_0000_0000) ((tPools).wrB (poolStat 1) R.HOP_POOL_STAT_BROKEN true) (fun t => t.hopHead 1 = [512] && !t.hopUsed 0) = true := by decide +kernel

theorem wit_build : tGot (.build 2) ((tPools).setMode .survey) (fun t => t.hop = { HopSt.init with building := true } && !t.flag B.HOP R.HOP_CTRL_READY) = true ∧
    tGot (.build 2) tPools (fun t => t.hop = tPools.hop && t.reply = .ok) = true ∧
    tGot (.build 2) (((tPools).setMode .survey).wr (poolReg 2) R.HOP_POOL_BASE_BASE 0) (fun t => !t.hop.building && t.reply = .ok) = true ∧
    tGot (.build 2) State.reset (fun t => t.reply = .busError) = true ∧
    tGot .hopperBuildDone (tPools fun _ => { HopSt.init with building := true }) (fun t => t.hopHead 1 = [0, 512] && t.hopHead 2 = [65536, 66560] &&
      t.poolFree 2 = 2 && t.flag B.HOP R.HOP_CTRL_READY && !t.hop.building) = true ∧
    tGot .hopperBuildDone tPools (fun t => t = tPools) = true := by decide +kernel

/-! ### The bulk mover, the key cipher unit and inline crypto (chapter 17) -/

/-- Channel 3 is core 0's, linear and free-running from 0x200000 to 0x208000 of host memory of link 0, 1,000 bytes in bursts
of 512, in a STATE. -/
def tCh (st ctl : Nat) (b : BmvSt := BmvSt.init) (r : Table Word := []) : State :=
  let s := ((tMgr.wrW (B.BMV + 0x4C) 0xC000_0000).wrW (B.BMV + 0x2180) ctl).wrW (B.BMV + 0x2184) 0x8200_0000
  let s := ((s.wrW (B.BMV + 0x2190) 0x20_0000).wrW (B.BMV + 0x2198) 0x20_8000).wrW (B.BMV + 0x21B0) 1000
  r.foldl (fun s e => s.wrW e.1 e.2.toNat) { (s.wrW (B.BMV + 0x21B8) (st * 2 ^ 28)).wrW B.BMV (if st = 4 then 8 else 0) with bmv := b }
def tAt (n : Nat) (a : Bool := false) : Table BmvCh := [(3, { BmvCh.init with done := n, abort := a })]
/-- Bytes posted by function 0 of link 0 to the 4 KiB from an address. -/
def tPut0 (t : State) (a : Nat) : List Byte := (t.out.filterMap fun o => match o with
  | .write 0 0 b d => if a ≤ b && b < a + 4096 then some d else none
  | _ => none).flatten
def tF (n : Nat) : Fetch := .ok (List.replicate n 9)

theorem wit_bmv_start : (tCh 0 0).reaches (.core 0) = true ∧ (tCh 0 0).channelOk (.core 0) (B.BMV + 0x2180) = true ∧ (tCh 0 0).chOwner 3 = some 2 ∧
    tGot (.bmvStart (.core 0) 3 0x80FF_0000) (tCh 0 0) (fun t => t.chState 3 = 1 && t.rd (chBase 3) R.BMV_CH_RESIDUE_RESIDUE = 1000 && t.reg (chBase 3 + 0x2000) = 0xFF_0000) = true ∧
    tGot (.bmvStart (.core 0) 3 0x8040_0000) (tCh 0 0x0A_0000) (fun t => t.chState 3 = 1 && t.chReq 3 = 10) = true ∧
    tGot (.bmvStart (.core 0) 3 0x80FF_2000) (tCh 0 0x1000) (fun t => t.chState 3 = 1 && t.chGather 3) = true ∧
    tGot (.bmvStart (.core 0) 3 0x8005_4000) (tCh 0 0) (fun t => t.chState 3 = 6) = true ∧
    tGot (.bmvStart (.core 0) 3 0x8005_4000) (tCh 0 0 BmvSt.init [(B.BMV + 0x2188, 320)]) (fun t => t.chState 3 = 1) = true ∧
    tGot (.bmvStart (.core 0) 3 0x80FF_0000) (tCh 0 0 BmvSt.init [(B.BMV + 0x2198, 0x20_03E7)]) (fun t => t.chState 3 = 6) = true ∧
    tGot (.bmvStart (.core 0) 3 0x80FF_0000) (tCh 0 0 BmvSt.init [(B.BMV + 0x2198, 0x20_03E8)]) (fun t => t.chState 3 = 1) = true ∧
    tGot (.bmvStart (.core 0) 3 0x80FF_0000) (tCh 0 0 BmvSt.init [(B.BMV + 0x21B4, 700)]) (fun t => t.chState 3 = 6) = true ∧
    tGot (.bmvStart (.core 0) 3 0x80FF_0000) (tCh 0 0 BmvSt.init [(B.BMV + 0x21B0, 0)]) (fun t => t.chState 3 = 6) = true ∧
    tGot (.bmvStart (.core 0) 3 0x8005_4000) (tCh 0 0 BmvSt.init [(B.BMV + 0x2188, 320), (B.BMV + 0x2184, 0x8000_0000), (B.BMV + 0x2198, 0)]) (fun t => t.chState 3 = 6) = true ∧
    tGot (.bmvStart (.core 0) 3 0x8005_1000) (tCh 1 0) (fun t => t.chState 3 = 1 && t.reg (chBase 3 + 0x2000) = 0) = true ∧
    tGot (.bmvStart .lk 3 0x80FF_0000) (tCh 0 0) (fun t => t.chState 3 = 0 && t.reg (chBase 3 + 0x2000) = 0xFF_0000) = true ∧
    tGot (.bmvStart (.core 1) 3 0x80FF_0000) (tCh 0 0) (fun t => t.reply = .busError) = true := by decide +kernel

theorem wit_bmv_end :
    tGot (.bmvAbort (.core 0) 3 0x4000_0000) (tCh 4 0xFF_8000 { BmvSt.init with chans := tAt 512 } [(B.BMV + 0x21A8, 0x20_F000)]) (fun t => t.chState 3 = 3 &&
      t.rd B.BMV R.BMV_HALT_HALT = 0 && t.cnt (B.BMV + C.BMV_ABORTS) = 1 && t.rd (chBase 3) R.BMV_CH_RESIDUE_RESIDUE = 488 &&
      t.out = [.write 0 0 0x20_F000 ([0xE8, 1, 0, 0, 3, 3, 0, 0] ++ leBytes 8 t.timeWord), .coreIrq 0]) = true ∧
    tGot (.bmvAbort (.core 0) 3 0x4000_0000) (tCh 1 0x23_4000) (fun t => t.chState 3 = 3) = true ∧
    tGot (.bmvAbort (.core 0) 3 0x4000_0000) (tCh 1 0xFF_0000) (fun t => t.chState 3 = 1 && (t.ch 3).abort) = true ∧
    tGot (.bmvAbort (.core 0) 3 0x4000_0000) (tCh 4 0xFF_0000 { BmvSt.init with probe := some 7 }) (fun t => t.chState 3 = 4 && (t.ch 3).abort) = true ∧
    tGot (.bmvAbort (.core 0) 3 0x4000_0000) (tCh 2 0xFF_0000) (fun t => t.chState 3 = 2) = true ∧
    tGot (.bmvResume .lk 3 0x2000_0000) (tCh 4 0xFF_0000) (fun t => t.chState 3 = 1 && t.rd B.BMV R.BMV_HALT_HALT = 0) = true ∧
    tGot (.bmvResume .lk 3 0x2000_0000) (tCh 4 0xFF_0000 { BmvSt.init with chans := tAt 0 true }) (fun t => t.chState 3 = 3) = true ∧
    tGot (.bmvResume (.core 0) 3 0x2000_0000) (tCh 4 0xFF_0000) (fun t => t.chState 3 = 4) = true := by decide +kernel

theorem wit_burst : (tCh 1 0xFF_0000).chReady 3 = true ∧ (tCh 1 0xFF_0000).chReady 2 = false ∧ (tCh 1 0xFF_0000).mild 19 ∧
    tGot (.bmvBurst [tF 512]) (tCh 1 0xFF_0000) (fun t => tPut0 t 0x20_8000 = List.replicate 512 9 && (t.ch 3).done = 512 && t.chState 3 = 1 && t.cnt (B.BMV + C.BMV_BURSTS) = 1 &&
      t.bmv.rot = 3) = true ∧
    tGot (.bmvBurst [tF 488]) (tCh 1 0xFF_0000 { BmvSt.init with chans := tAt 512 }) (fun t => tPut0 t 0x20_8200 = List.replicate 488 9 && t.chState 3 = 2) = true ∧
    tGot (.bmvBurst [tF 488]) (tCh 1 0xFF_0000 { BmvSt.init with chans := tAt 512 } [(B.BMV + 0x21B4, 512)]) (fun t => tPut0 t 0x20_8000 = List.replicate 488 9) = true ∧
    tGot (.bmvBurst [tF 512]) (tCh 1 0xFF_0000 { BmvSt.init with chans := tAt 0 true }) (fun t => t.chState 3 = 3 && (t.ch 3).done = 512) = true ∧
    tGot (.bmvBurst [.ur]) (tCh 1 0xFF_0000) (fun t => t.chState 3 = 4 && t.rd B.BMV R.BMV_HALT_HALT = 8 && t.sticky 19 && (t.ch 3).done = 0 &&
      t.pair (B.BMV + 8) = 0x20_0000 && t.reg (B.BMV + 4) = 0x8000_0080) = true ∧
    tGot (.bmvBurst [tF 512]) (tCh 1 0xFF_0000 BmvSt.init [(B.BMV + 0x2198, 0x30_0000)]) (fun t => t.chState 3 = 4 && t.reg (B.BMV + 4) = 0x8000_0180) = true ∧
    tGot (.bmvBurst [tF 512]) (tCh 0 0xFF_0000) (fun t => t.out = [] && t.bmv.rot = 31) = true := by decide +kernel

theorem wit_gather : let g := fun e => tGot (.bmvBurst e) (tCh 1 0xFF_1000 { BmvSt.init with chans := tAt 2 } [(B.BMV + 0x21A0, 0x20_4000), (B.BMV + 0x21B0, 4),
      (B.BMV + 0x218C, 256)])
    g [.ok (leBytes 4 0x1000 ++ leBytes 4 0x10), tF 256, .ok [1]] (fun t => tPut0 t 0x20_8200 = List.replicate 256 9 ++ fit 256 [1] && t.chState 3 = 2 &&
      (t.ch 3).done = 4) = true ∧
    g [.timeout] (fun t => t.chState 3 = 4 && t.pair (B.BMV + 8) = 0x20_4008) = true ∧
    g [.ok (leBytes 4 0x1000 ++ leBytes 4 0x10), tF 256, .poisoned] (fun t => t.chState 3 = 4 && t.pair (B.BMV + 8) = 0x20_0010) = true := by decide +kernel

theorem wit_bound : let g := fun (p c : Nat) => tGot (.bmvBurst [.ok []]) (tCh 1 0x23_4000 { BmvSt.init with chans := [(3, { BmvCh.init with asked := c })] }
      [(B.BMV + 0x2188, 320), (B.BMV + 0x21B0, 0), (lineRing 35 + R.TAP_RING_PROD_PROD.off, BitVec.ofNat 32 p), (lineRing 35 + R.TAP_RING_CONS_CONS.off, BitVec.ofNat 32 c),
       (lineRing 35 + R.TAP_RING_SIZE_SIZE.off, 10)])
    g 7 5 (fun t => tPut0 t 0x20_8000 = List.replicate 320 0 && t.ringCons 35 = 7 && t.chState 3 = 1) = true ∧ g 6 5 (fun t => t.out = []) = true := by decide +kernel

/-- Channel 4 as channel 3, gathering. -/
def tTwoCh (st4 : Nat) (b : BmvSt) (st3 : Nat := 4) : State := tCh st3 0xFF_0000 b [(B.BMV + 8, 0x20_0000), (B.BMV + 4, 0x8000_0080), (B.BMV + 0x50, 0x8000_0000),
  (B.BMV + 0x2200, 0xFF_1000), (B.BMV + 0x2204, 0x8200_0000), (B.BMV + 0x2230, 8), (B.BMV + 0x2238, BitVec.ofNat 32 (st4 * 2 ^ 28)), (B.BMV, 0x18)]
theorem wit_restart :
    tGot .bmvRestart (tTwoCh 4 BmvSt.init) (fun t => t.chState 3 = 5 && t.chState 4 = 1 && t.bmv.probe = some 4 && t.bmv.toProbe = [] && t.cnt (B.BMV + C.BMV_FAILED) = 1) = true ∧
    tGot .bmvRestart (tTwoCh 4 { BmvSt.init with chans := tAt 512 }) (fun t => t.chState 3 = 1 && t.chState 4 = 4 && t.bmv.probe = some 3 && t.bmv.toProbe = [4]) = true ∧
    tGot .bmvRestart (tCh 4 0x23_4000 BmvSt.init [(B.BMV + 0x2188, 320), (B.BMV + 0x21B0, 0), (lineRing 35 + R.TAP_RING_SIZE_SIZE.off, 10),
      (lineRing 35 + R.TAP_RING_CONS_CONS.off, 5), (B.BMV + 8, 0x33F), (B.BMV + 4, 0x8000_0000)]) (fun t => t.chState 3 = 5) = true ∧
    tGot .bmvRestart (tCh 4 0x23_4000 BmvSt.init [(B.BMV + 0x2188, 320), (B.BMV + 0x21B0, 0), (lineRing 35 + R.TAP_RING_SIZE_SIZE.off, 10),
      (lineRing 35 + R.TAP_RING_CONS_CONS.off, 5), (B.BMV + 8, 0x460), (B.BMV + 4, 0x8000_0000)]) (fun t => t.chState 3 = 1) = true ∧
    tGot .bmvRestart (tTwoCh 1 BmvSt.init 0) (fun t => t.bmv = BmvSt.init && t.chState 4 = 1) = true ∧
    tGot (.bmvBurst [.ur]) (tTwoCh 4 { BmvSt.init with probe := some 3, toProbe := [4] } 1) (fun t => t.chState 3 = 5 && t.chState 4 = 1 && t.bmv.probe = some 4) = true ∧
    tGot (.bmvBurst [.ur]) (tTwoCh 0 { BmvSt.init with probe := some 3 } 1) (fun t => t.chState 3 = 5 && t.bmv.probe = none) = true ∧
    tGot (.bmvBurst [tF 512]) (tTwoCh 4 { BmvSt.init with probe := some 3, passed := [4] } 1) (fun t => t.chState 3 = 1 && t.chState 4 = 1 && t.bmv.probe = none) = true ∧
    tGot (.bmvStatus (.host 0 3)) (tHold (.host 0 3) 0x0366 [] (tTwoCh 4 BmvSt.init)) (fun t => tEnd (.host 0 3) 0
      ([0x18, 0, 0, 0, 0, 0, 0x20, 0, 0, 0, 0, 0, 0x80, 0, 0, 0x80] ++ fit 12 [] ++ [0, 0, 0, 0x40, 0, 0, 0, 0x40] ++ fit 108 []) t) = true := by decide +kernel

/-- The lock's holder, slot 2 holding a key, and master m's command with lengths and destination. -/
def tKcu (h : Option Nat) (m : Nat) (cmd dest len : Nat) (op : Option KcuOp := none) (k2 : List Byte := []) : State :=
  { ((((tSil).wrW (B.KCUM m + 4) cmd).wrW (B.KCUM m + 8) dest).wrW (B.KCUM m + 0xC) len).wrW (B.KCUM m + 0x20) 7 with
    kcu := { holder := h, ops := match op with
      | none => []
      | some o => [(m, some o)] }, keks := if k2 = [] then [] else [(2, k2)], now := 5000 }
def tDue (s : State) (m : Fin 3) (p : KcuOp → Bool) : Bool := match s.kcuOp m with
  | some o => p o
  | none => false
def tOpn (kind i n : Nat) (due : Nat := 5000) : KcuOp := { due := due, kind := kind, index := i, res := some (List.replicate n 6) }

theorem wit_claim : tGot (.kcuClaim [1, 0]) (tKcu none 0 0 0 0) (fun t => t.kcu.holder = some 0) = true ∧
    tGot (.kcuClaim [2, 1]) (tKcu none 0 0 0 0) (fun t => t.kcu.holder = some 1) = true ∧
    tGot (.kcuClaim [2]) (tKcu none 0 0 0 0) (fun t => t.kcu.holder = none) = true ∧
    tGot (.kcuClaim [1]) (tKcu (some 0) 0 0 0 0) (fun t => t.kcu.holder = some 0) = true ∧
    tGot (.kcuRelease 0) { tKcu (some 0) 0 0 0 0 with mem := [(B.KCUM 0 + 0x1000, 1), (B.KCUM 0 + 0x3000, 2)] } (fun t => t.kcu.holder = none &&
      t.reg (B.KCUM 0 + 0x20) = 0 && t.mem = [(B.KCUM 0 + 0x3000, 2)]) = true ∧
    tGot (.kcuRelease 1) (tKcu (some 0) 0 0 0 0) (fun t => t.kcu.holder = some 0) = true ∧
    tGot .debugPortDisconnect (tKcu (some 2) 2 0 0 0 (some (tOpn 1 3 32))) (fun t => t.kcu.holder = none && t.kcuOp 2 = none) = true ∧
    tGot .debugPortDisconnect (tKcu (some 1) 0 0 0 0) (fun t => t.kcu.holder = some 1) = true := by decide +kernel

/-- R416's examples: 48 bytes under UNWRAP_PAD take 2,100 ns, granted or not; 40 bytes 1,800 ns. -/
theorem wit_kcu_start : (tKcu (some 0) 1 0x5200_0000 0x2000_02BC 48 none [1]).kek 2 ≠ [] ∧
    tGot (.kcuStart 1) (tKcu (some 0) 1 0x5200_0000 0x2000_02BC 48) (fun t => tDue t 1 fun o => o.due = 7100 && o.kind = 2 && o.index = 700 && o.res = none) = true ∧
    tGot (.kcuStart 0) (tKcu (some 0) 0 0x3000_0000 0x1000_0003 40) (fun t => tDue t 0 (fun o => o.due = 6800) && t.flag (B.KCUM 0) R.KCU_STATUS_RUNNING) = true ∧
    tGot (.kcuStart 0) (tKcu (some 0) 0 0x1000_0000 0x1000_0003 0) (fun t => tDue t 0 fun o => o.due = 5650 && o.res = some (7 :: List.replicate 31 0)) = true ∧
    tGot (.kcuStart 0) (tKcu (some 0) 0 0x1000_0000 0 0) (fun t => tDue t 0 fun o => o.res = none) = true ∧
    tGot (.kcuStart 0) (tKcu (some 0) 0 0x2000_0000 0 16) (fun t => tDue t 0 fun o => o.due = 6200 && o.res = none) = true ∧
    tGot (.kcuStart 0) (tKcu (some 0) 0 0x4000_0000 0 8) (fun t => tDue t 0 fun o => o.due = 5650) = true ∧
    tGot (.kcuStart 0) (tKcu (some 0) 0 0x6000_0000 0 0) (fun t => tDue t 0 fun o => o.due = 5700) = true ∧
    tGot (.kcuStart 0) (tKcu (some 0) 0 0x7000_0000 0 0x0011_0021) (fun t => tDue t 0 fun o => o.due = 5000 + 600 + 50 * 5) = true ∧
    tGot (.kcuStart 0) (tKcu (some 0) 0 0x8000_0000 0 0x0011_0021) (fun t => tDue t 0 fun o => o.due = 5850) = true ∧
    tGot (.kcuStart 0) (tKcu (some 0) 0 0 0 0 (some (tOpn 1 3 32))) (fun t => tDue t 0 fun o => o.due = 5000) = true := by decide +kernel

theorem wit_kcu_result : let g := fun (o : KcuOp) (m : Fin 3) (late : Bool) (s : State) => tGot (.kcuResult m late) { s with kcu := { s.kcu with ops := [(m.val, some o)] } }
    let s := tKcu (some 0) 0 0 0 0
    let no := fun (t : State) => t.rd (B.KCUM 0) R.KCU_STATUS_RESULT = 0x30 && t.flag (B.KCUM 0) R.KCU_STATUS_DONE && t.keks = s.keks && t.icr = s.icr && t.kcuOp 0 = none
    s.mild 18 ∧ g (tOpn 1 3 32 5001) 0 false s (fun t => (t.kcuOp 0).isSome) = true ∧ g (tOpn 1 3 32) 0 false s (fun t => t.kek 3 = List.replicate 32 6 &&
      t.rd (B.KCUM 0) R.KCU_STATUS_RESULT = 0) = true ∧
    g (tOpn 1 3 32) 0 true s (fun t => no t && t.sticky 18) = true ∧ g (tOpn 1 3 32) 0 false (tKcu (some 1) 0 0 0 0) no = true ∧ g (tOpn 1 3 31) 0 false s no = true ∧
    g (tOpn 0 0 20) 0 false s (fun t => t.rd (B.KCUM 0) R.KCU_STATUS_OUT_LEN = 20 && byteAt t.mem (B.KCUM 0 + 0x2013) = 6 && byteAt t.mem (B.KCUM 0 + 0x2014) = 0) = true ∧
    g (tOpn 2 700 36) 0 false (s.setEspSa 700 (2 ^ 255)) (fun t => Sa.keyed (t.espSa 700) && t.espKey 700 = List.replicate 36 6) = true ∧
    g (tOpn 2 700 36) 0 false s no = true ∧ g (tOpn 3 64 32) 0 false s (fun t => (t.sa 64).keyed) = true ∧ g (tOpn 3 80 32) 0 false s no = true ∧
    g (tOpn 4 4096 32) 0 false (s.onSilo fun c => { c with vaultKey := false }) (fun t => t.silo.vaultKey) = true ∧
    g (tOpn 4 5 32) 0 false (s.setVol 5 { tVol with online := false }) (fun t => (t.vol 5).online) = true ∧
    g (tOpn 4 4097 32) 0 false s no = true ∧ g (tOpn 5 0 1) 0 false s no = true := by decide +kernel

theorem wit_sa_access : tGot .icrSaWrite (((tSil).wrW (B.ICR + 0x3C) 0xFFFF_FFFF).wrW (B.ICR + 0x20) 5) (fun t => t.espSa 0 = 2 ^ 255 + 2 ^ 254 + 2 ^ 253 +
      (15 * 2 ^ 248 + 511 * 2 ^ 232)) = true ∧
    tGot .icrSaWrite ((((tSil).setEspSa 0 (2 ^ 255)).setEspKey 0 [1]).wrW (B.ICR + 0x3C) 0x7FFF_FFFF) (fun t => t.espKey 0 = [] && !Sa.keyed (t.espSa 0)) = true ∧
    tGot .icrSaWrite ((((tSil).setEspSa 0 (2 ^ 255)).setEspKey 0 [1]).wrW (B.ICR + 0x3C) 0x8000_0000) (fun t => t.espKey 0 = [1] && Sa.keyed (t.espSa 0)) = true ∧
    (tSil).mild 27 ∧ tGot .icrSaWrite ((tSil).wrW (B.ICR + 0x3C) 0x8000_0000) (fun t => t.sticky 27 && t.espSa 0 = 2 ^ 255) = true ∧
    tGot .icrSaRead ((tSil).setEspSa 0 (2 ^ 255 + 9)) (fun t => t.reg (B.ICR + 0x3C) = 0x8000_0000 && t.reg (B.ICR + 0x20) = 9) = true ∧
    tGot .icrSaRead State.reset (fun t => t.reply = .busError) = true := by decide +kernel

def tKc (o : Nat) (args : List Byte) (s : State := tPlot) : State := tHold (.host 0 3) o args s
def tInst (saIx win : Nat) (s : State := tPlot) : State := tKc 0x0361 (leBytes 2 1 ++ leBytes 2 saIx ++ [3, BitVec.ofNat 8 win, 2, 0] ++ leBytes 4 99) s
theorem wit_key_commands :
    tGot (.kekLoad (.core 0)) (tHold (.core 0) 0x0360 [] tPlot) (fun t => tEnd (.core 0) St.REFUSED [] t) = true ∧
    tGot (.kekLoad (.host 0 3)) (tKc 0x0360 [2, 2]) (fun t => tEnd (.host 0 3) St.BAD_ARGUMENT [] t) = true ∧
    tGot (.kekLoad (.host 0 3)) (tKc 0x0360 [0, 2]) (fun t => tEnd (.host 0 3) St.BAD_ARGUMENT [] t) = true ∧
    tGot (.kekLoad (.host 0 3)) (tKc 0x0360 [1, 15]) (fun t => tEnd (.host 0 3) St.REFUSED [] t) = true ∧
    tGot (.espSaInstall (.host 0 3)) (tInst 700 5) (fun t => tEnd (.host 0 3) St.REFUSED [] t && t.espSa 700 = 2 ^ 255 + 2 ^ 254 + 2 ^ 253 +
      (5 * 2 ^ 248 + 2 ^ 232 + 99 * 2 ^ 192 + 2 ^ 128)) = true ∧
    tGot (.espSaInstall (.host 0 3)) (tInst 700 6) (fun t => tEnd (.host 0 3) St.BAD_ARGUMENT [] t && t.espSa 700 = 0) = true ∧
    tGot (.espSaInstall (.host 0 3)) (tInst 701 5 ((tPlot).setEspSa 700 (2 ^ 255 + 2 ^ 254 + (2 ^ 232 + 99 * 2 ^ 192)))) (fun t => tEnd (.host 0 3) St.BAD_ARGUMENT [] t) = true ∧
    tGot (.espSaInstall (.host 0 3)) (tInst 701 5 ((tPlot).setEspSa 701 (2 ^ 255 + 300 * 2 ^ 232))) (fun t => tEnd (.host 0 3) St.REFUSED [] t) = true ∧
    tGot (.espSaInstall (.host 0 3)) (tKc 0x0361 [0xFF, 0xFF]) (fun t => tEnd (.host 0 3) St.BAD_ARGUMENT [] t) = true ∧
    tGot (.espSaDelete (.host 0 3)) (tKc 0x0362 [0, 0, 1, 0] (((tPlot).setEspSa 1 (2 ^ 255 + 2 ^ 232)).setEspKey 1 [1])) (fun t => tEnd (.host 0 3) 0 [] t &&
      t.icr.sas = [] && t.icr.keys = []) = true ∧
    tGot (.espSaDelete (.host 0 3)) (tKc 0x0362 [0, 0, 1, 0] ((tPlot).setEspSa 1 (2 ^ 255 + 300 * 2 ^ 232))) (fun t => tEnd (.host 0 3) St.REFUSED [] t) = true ∧
    tGot (.espSaRead (.host 0 3)) (tKc 0x0363 [0, 0, 1, 0] ((tPlot).setEspSa 1 9)) (fun t => tEnd (.host 0 3) 0 (fit 32 [9]) t) = true ∧
    (let s := fun o a => tKc o a { tPlot with kcu := { tPlot.kcu with holder := some 1 } }
     tGot (.kekLoad (.host 0 3)) (s 0x0360 [1, 15]) (fun t => t = s 0x0360 [1, 15]) = true ∧
     tGot (.macsecSaInstall (.host 0 3)) (s 0x0364 [23, 79, 0, 2]) (fun t => t = s 0x0364 [23, 79, 0, 2]) = true) ∧
    tGot (.macsecSaInstall (.host 0 3)) (tKc 0x0364 [23, 79, 0, 2]) (fun t => tEnd (.host 0 3) St.REFUSED [] t) = true ∧
    tGot (.macsecSaInstall (.host 0 3)) (tKc 0x0364 [23, 80, 0, 2]) (fun t => tEnd (.host 0 3) St.BAD_ARGUMENT [] t) = true ∧
    tGot (.macsecSaRetire (.host 0 3)) (tKc 0x0365 [1, 2] ((tPlot).setSa 130 { MacsecSA.none with installed := true })) (fun t => tEnd (.host 0 3) 0 [] t &&
      !(t.sa 130).installed) = true ∧
    tGot (.macsecSaRetire (.host 0 3)) (tKc 0x0365 [1, 65] { tPlot with eth := { tPlot.eth with activeAN := [(4, 2), (5, 2)] } }) (fun t => tEnd (.host 0 3) 0 [] t &&
      t.eth.activeAN = [(5, 2)]) = true ∧
    tGot (.macsecSaRetire (.host 0 3)) (tKc 0x0365 [24, 2]) (fun t => tEnd (.host 0 3) St.BAD_ARGUMENT [] t) = true := by decide +kernel

theorem wit_key_held : (tKc 0x0360 [1, 2] { tPlot with keks := [(2, [1])] }).kek 2 = [1] ∧ (tInst 700 5 { tPlot with keks := [(2, [1])] }).kek 2 = [1] ∧
    (match (tInst 700 5).localPlot (.host 0 3) 1 with | .ok p => p = 1 | .error _ => false) = true ∧ (tKc 0x0364 []).domOn 77 = true := by decide +kernel

/-! ### Faults, counters and background work (chapter 18) -/

/-- PF0 of link 0 has notification on vector 2; windows that run. -/
def tFlt (m : Mode := .flowing) (w : List FaultWin := []) : State :=
  let s := (tHost m).setFn 0 0 { Fn.init with mse := true, bme := true, ready := true, msixEn := true }
  { s with flt := { s.flt with notify := [(0, 3)], windows := w }, now := 5, mem := putByte s.mem (B.MSIX 0 0 + 16 * 2 + 12) 0 }
def tStk (n : Nat) (s : State) : State := s.setSticky n true
def tMs2 : List Out := [.msix 0 0 2]

theorem wit_message : tGot (.faultMessage 23 5 7) tFlt (fun t => t.sticky 23 && t.flt.windows = [⟨23, 2, 2000000005⟩] && t.winRunning 23 && t.out = tMs2 && t.flt.msgq = [⟨23, 5, 7⟩] &&
      t.cnt (B.FLT + C.FLT_MSGS) = 1) = true ∧
    tGot (.faultMessage 275 5 7) tFlt (fun t => t.sticky 275 && t.flt.windows = [] && t.out = tMs2) = true ∧ tGot (.faultMessage 276 5 7) tFlt (fun t => t.sticky 276 && t.out = []) = true ∧
    tGot (.faultMessage 23 5 7) (tStk 23 tFlt) (fun t => t.flt.windows = [] && t.out = [] && t.flt.msgq = [⟨23, 5, 7⟩]) = true ∧
    tGot (.faultMessage 23 5 7) ((tStk 23 tFlt).wrB (srcBase 23) R.FLT_SRC_CARRIED true) (fun t => t.flt.windows = [⟨23, 2, 2000000005⟩] && t.out = []) = true ∧
    tGot (.faultMessage 96 5 7) tFlt (fun t => t.flt.msgq = [] && !t.sticky 96) = true ∧ tGot (.faultMessage 3 5 7) tFlt (fun t => t.sticky 3 && t.flt.windows = []) = true ∧
    tGot (.faultMessage 23 5 7) { tFlt with flt := { tFlt.flt with msgq := List.replicate 256 ⟨1, 0, 0⟩ } } (fun t => t.sticky 28 && t.sticky 23 && t.rd B.FLT R.FLT_MSGQ_LOST = 1 &&
      t.flt.msgq.length = 256) = true := by decide +kernel

theorem wit_latched : tGot (.faultMessage 0 5 7) (tFlt .fallow) (fun t => t.sticky 0 && t.rd B.FLT R.FLT_ALIVE_CAUSE = 3 && t.flag B.DEV R.DEV_MODE_LATCHED && t.mode = .fallow) = true ∧
    tGot (.faultMessage 0 5 7) (tFlt .drain) (fun t => t.mode = .drain && t.modes.latchAfter) = true ∧
    tGot (.faultMessage 1 5 7) (tFlt .survey) (fun t => t.mode = .drain && t.flag B.DEV R.DEV_RESET_CAUSE_DRAIN_LATCHED) = true := by decide +kernel

theorem wit_window : let e := fun (m : Mode) (cls : Nat) (busy : Bool) => ((tStk 23 (tFlt m [⟨23, cls, 5⟩])).wrB (srcBase 23) R.FLT_SRC_WIN true).wrB B.DEV R.DEV_MODE_BUSY busy
    tGot (.faultWindowEnd 23) (e .flowing 1 false) (fun t => t.flag (srcBase 23) R.FLT_SRC_ESC && t.flt.windows = [⟨23, 2, 2000000005⟩] && t.out = tMs2 && t.sevNow 23 = 2) = true ∧
    tGot (.faultWindowEnd 22) (e .flowing 1 false) (fun t => t.flt.windows = [⟨23, 1, 5⟩]) = true ∧
    tGot (.faultWindowEnd 23) (tFlt .flowing [⟨23, 1, 6⟩]) (fun t => t.flt.windows = [⟨23, 1, 6⟩]) = true ∧
    tGot (.faultWindowEnd 23) (e .flowing 2 false) (fun t => t.flt.windows = [] && (decide (t.mode = .trickle) || (t.busy && decide (t.rd B.DEV R.DEV_MODE_TARGET = 3)))) = true ∧
    tGot (.faultWindowEnd 23) (e .survey 2 true) (fun t => t.modes.waiting = [.trickle]) = true ∧
    tGot (.faultWindowEnd 23) (e .drain 2 false) (fun t => t.mode = .drain && !t.busy) = true ∧
    tGot (.faultWindowEnd 23) (e .fallow 3 false) (fun t => t.mode = .fallow && t.flag B.DEV R.DEV_RESET_CAUSE_WARM_FATAL && !t.modes.lkRunning) = true ∧
    tGot (.faultWindowEnd 23) (e .drain 3 false) (fun t => t.mode = .drain && t.modes.fatalAfter) = true ∧
    tGot (.faultWindowEnd 23) (e .trickle 3 false) (fun t => t.mode = .priming && t.flag B.DEV R.DEV_RESET_CAUSE_WARM_FATAL && t.sticky 23) = true := by decide +kernel

theorem wit_sticky_clear : tGot (.stickyClear 0 0x0080_0001) (tStk 0 (tStk 23 (tFlt .flowing [⟨23, 2, 9⟩, ⟨11, 1, 9⟩]))) (fun t => !t.sticky 23 && t.sticky 0 && t.reply = .ok &&
      t.flt.windows = [⟨11, 1, 9⟩]) = true := by decide +kernel

theorem wit_watchdog_kick : let w := fun (m : Mode) (cause now : Nat) => { (tFlt m).wr B.FLT R.FLT_ALIVE_CAUSE cause with now := now, kcu := { KcuSt.init with holder := some 0 } }
    tGot (.watchdogKick 0xA5) tFlt (fun t => t.flt.kickAt = 5) = true ∧ tGot (.watchdogKick 0xA6) tFlt (fun t => t.flt.kickAt = 0) = true ∧
    tGot .watchdogExpiry (w .survey 0 1999999999) (fun t => t.flt.windows = [] && !t.sticky 3) = true ∧
    tGot .watchdogExpiry (w .survey 3 2000000000) (fun t => !t.sticky 3) = true ∧
    tGot .watchdogExpiry (w .survey 0 2000000000) (fun t => t.sticky 3 && t.mode = .priming && t.rd B.FLT R.FLT_ALIVE_CAUSE = 2 && t.kcu.holder = none &&
      t.flag B.DEV R.DEV_RESET_CAUSE_WARM_FATAL) = true ∧ (w .survey 0 2000000000).sev 3 = 3 ∧ (w .survey 0 2000000000).mild 3 ∧ (w .survey 0 2000000000).modes.forced = false ∧
    tGot .watchdogExpiry (w .drain 0 2000000000) (fun t => t.mode = .drain && t.modes.fatalAfter && t.kcu.holder = none) = true := by decide +kernel

def tLk (s : State) : State := { s with modes := { s.modes with lkRunning := true } }
theorem wit_alive : tGot (.aliveStart 1) tFlt (fun t => !t.flt.aliveRun) = true ∧ tGot (.aliveStart 1) (tLk (tFlt.wrB B.DEV R.DEV_MODE_LATCHED true)) (fun t => !t.flt.aliveRun) = true ∧
    tGot (.aliveStart 1) (tLk tFlt) (fun t => t.flt.aliveRun && t.flt.aliveLevel && t.rd B.FLT R.FLT_ALIVE_CAUSE = 0 && t.out = [.pin "ALIVE" true]) = true ∧
    tGot (.aliveStart 0) (tLk tFlt) (fun t => !t.flt.aliveRun && t.rd B.FLT R.FLT_ALIVE_CAUSE = 1) = true ∧
    tGot (.aliveStart 1) (tLk (tFlt.wr B.FLT R.FLT_ALIVE_CAUSE 3)) (fun t => !t.flt.aliveRun) = true ∧
    tGot .aliveToggle { tFlt with flt := { tFlt.flt with aliveRun := true, aliveLevel := true } } (fun t => !t.flt.aliveLevel && t.out = [.pin "ALIVE" false]) = true ∧
    (let s := { tFlt with flt := { tFlt.flt with aliveRun := true, aliveLevel := true }, timers := [(Tm.alive, 1)] }
     tGot .aliveToggle { s with now := 989999 } (fun t => t.flt.aliveLevel) = true ∧ tGot .aliveToggle { s with now := 990000 } (fun t => !t.flt.aliveLevel) = true) ∧
    tGot .aliveToggle tFlt (fun t => t.out = []) = true := by decide +kernel

def tFc (o : Nat) (args : List Byte) (s : State := tFlt) : State := tHold (.host 0 3) o args s
theorem wit_fault_commands : let e := fun (st : Nat) (t : State) => tEnd (.host 0 3) st [] t
    tGot (.faultStatus (.host 0 3)) (tFc 0x0600 [] ((tStk 280 (tStk 23 (tStk 8 tFlt))).wrB (srcBase 8) R.FLT_SRC_ESC true)) (fun t => tEnd (.host 0 3) 0
      (fit 88 [0, 1, 0x80] ++ [0, 0, 0, 0, 2, 0, 0, 0, 0, 0]) t) = true ∧
    tGot (.faultAck (.host 0 3)) (tFc 0x0601 [23, 0] (tStk 23 (tFlt .flowing [⟨23, 2, 9⟩]))) (fun t => e 0 t && !t.sticky 23 && t.flt.windows = []) = true ∧
    tGot (.faultAck (.host 0 3)) (tFc 0x0601 [0x60, 1]) (e St.BAD_ARGUMENT) = true ∧ tGot (.faultAck (.host 0 3)) (tFc 0x0601 [0x18, 1]) (e St.REFUSED) = true ∧
    tGot (.faultAck (.host 0 3)) (tFc 0x0601 [0, 0]) (e St.BAD_ARGUMENT) = true ∧ tGot (.faultAck (.host 0 3)) (tFc 0x0601 [23, 0]) (e 0) = true ∧
    tGot (.faultSevSet (.host 0 3)) (tFc 0x0602 [23, 0, 4, 1]) (fun t => e 0 t && t.sev 23 = 4 && t.flag (srcBase 23) R.FLT_SRC_ROUTE) = true ∧
    tGot (.faultSevSet (.host 0 3)) (tFc 0x0602 [23, 0, 5, 1]) (e St.BAD_ARGUMENT) = true ∧ tGot (.faultSevSet (.host 0 3)) (tFc 0x0602 [3, 0, 1, 1]) (e St.BAD_ARGUMENT) = true ∧
    tGot (.faultSevSet (.host 0 3)) (tFc 0x0602 [0x18, 1, 1, 1]) (e St.REFUSED) = true ∧
    tGot (.faultSevSet (.core 0)) (tHold (.core 0) 0x0602 [] tFlt) (fun t => tEnd (.core 0) St.REFUSED [] t) = true ∧
    tGot (.faultWindowSet (.host 0 3)) (tFc 0x0603 [2, 0, 0, 0, 100, 0, 0, 0]) (fun t => e 0 t && t.winLen 2 = 100000000) = true ∧
    tGot (.faultWindowSet (.host 0 3)) (tFc 0x0603 [2, 0, 0, 0, 99, 0, 0, 0]) (e St.BAD_ARGUMENT) = true ∧
    tGot (.faultNotifySet (.host 0 3)) (tFc 0x0604 [1, 0, 0xFF, 7]) (fun t => e 0 t && t.flt.notify = [(0, 2048)]) = true ∧
    tGot (.faultNotifySet (.host 0 3)) (tFc 0x0604 [0, 0, 0xFF, 7]) (fun t => e 0 t && t.flt.notify = []) = true ∧
    tGot (.faultNotifySet (.host 0 3)) (tFc 0x0604 [1, 0, 0, 8]) (e St.BAD_ARGUMENT) = true := by decide +kernel

theorem wit_log_read : let l := fun (n seq : Nat) (first : Byte) => tFc 0x0605 [first] { tFlt with flt := { tFlt.flt with
      log := (⟨280, 1, 2⟩, 9) :: List.replicate n (⟨23, 5, 7⟩, 8), nextSeq := seq } }
    tGot (.faultLogRead (.host 0 3)) (l 1 12 3) (fun t => tEnd (.host 0 3) 0 ([12, 0, 0, 0, 1, 0, 0, 0] ++ leBytes 8 (23 * 2 ^ 54 + 5 * 2 ^ 48 + 7) ++ leBytes 8 8) t) = true ∧
    tGot (.faultLogRead (.host 0 3)) (l 1 12 12) (fun t => tEnd (.host 0 3) 0 [12, 0, 0, 0, 0, 0, 0, 0] t) = true ∧
    tGot (.faultLogRead (.host 0 3)) (l 14 15 0) (fun t => match (t.tag (.host 0 3)).fin with
      | some f => f.data.length = 216 && f.data.take 5 = [14, 0, 0, 0, 13]
      | none => false) = true := by decide +kernel

theorem wit_pmc_select : let s := ((tFlt).setCnt (pmcCnt (some 2) 1) 9).setCnt (pmcCnt (some 17) 1) 9
    tGot (.pmcSelectWrite (some 2) 1 0xC000_000D) s (fun t => t.reg (pmcSel (some 2) 1) = 0xC000_000D && t.cnt (pmcCnt (some 2) 1) = 0 && t.cnt (pmcCnt (some 17) 1) = 9) = true ∧
    tGot (.pmcSelectWrite (some 2) 1 0x8000_000E) s (fun t => t.reg (pmcSel (some 2) 1) = 0x8000_0000 && t.cnt (pmcCnt (some 2) 1) = 9) = true ∧
    tGot (.pmcSelectWrite (some 17) 1 0x8000_000B) s (fun t => t.reg (pmcSel (some 17) 1) = 0x8000_0000) = true ∧
    tGot (.pmcSelectWrite (some 17) 1 0x8000_000C) s (fun t => t.reg (pmcSel (some 17) 1) = 0x8000_000C && t.cnt (pmcCnt (some 17) 1) = 0) = true ∧
    tGot (.pmcSelectWrite none 15 0x8000_000C) s (fun t => t.reg (pmcSel none 15) = 0x8000_0000) = true ∧
    tGot (.pmcSelectWrite (some 2) 8 0) s (fun t => t.reply = .busError) = true := by decide +kernel

def tSnap (t : Nat) (s : State := tFlt) : State := { s.wrB B.PMC R.PMC_CTRL_SNAP_DONE false with flt := { s.flt with snapT := some t }, now := 3000, cnts := [(0x31800, 7)] }
theorem wit_snap : tGot (.snap 5) tFlt (fun t => t.flt.snapT = some 3000 && t.reg B.PMC = 1 && t.reply = .ok) = true ∧
    tGot (.snap 4) (tSnap 9) (fun t => t.flt.snapT = some 9 && t.reg B.PMC = 0) = true ∧
    tGot .snapshotInstant (tSnap 3001) (fun t => t.shadows = []) = true ∧
    (let t := ((tSnap 3000).setDom 76 false).snapTick
     t.shadows = [(0x31800, 7)] ∧ t.flt.shadowOff = [76] ∧ t.pair (B.PMC + 8) = 3000) ∧ (tSnap 3001).snapTick = tSnap 3001 ∧
    tGot .snapshotInstant (tSnap 3000) (fun t => t.shadows = [] && t.flt.snapT = none && t.reg B.PMC = 2) = true ∧
    tGot .snapshotInstant ((tSnap 3000 (tFc 0x0611 [])).snapTick.addJob (.host 0 3) 0x0611 0) (fun t => tEnd (.host 0 3) 0 [0xB8, 0x0B, 0, 0, 0, 0, 0, 0] t && t.jobs = []) = true := by
  decide +kernel

def tShad : State := { tFlt with shadows := [(0x31800, 7)], flt := { tFlt.flt with shadowOff := [76] }, cnts := [(0x31800, 8)] }
theorem wit_shadow : tGot (.shadowSelect 0x31800) tShad (fun t => t.reg (B.PMC + 0x14) = 1 && t.pair (B.PMC + 0x18) = 7) = true ∧
    tGot (.shadowSelect 0xB0_1000) tShad (fun t => t.reg (B.PMC + 0x14) = 2) = true ∧ tGot (.shadowSelect 0x31804) tShad (fun t => t.reg (B.PMC + 0x14) = 2) = true ∧
    isCounter 0xB0_1000 = true := by decide +kernel

theorem wit_background : let s := fun n => { tFlt with now := n }
    tGot (.backgroundOverdue 5) (s 1000000000) (fun t => t.bgOverdue 5 && t.sticky 9) = true ∧ tGot (.backgroundOverdue 5) (s 999999999) (fun t => !t.bgOverdue 5) = true ∧
    tGot (.backgroundOverdue 9) (s (93600 * 10 ^ 9)) (fun t => t.bgOverdue 9 && !t.bgOverdue 8) = true ∧ tGot (.backgroundOverdue 2) (s (601 * 10 ^ 9)) (fun t => t.bgOverdue 2) = true ∧
    tGot (.backgroundOverdue 0) (s (10 ^ 18)) (fun t => !t.bgOverdue 0) = true ∧
    tGot (.backgroundHardBound 7) (s (20 * 10 ^ 9)) (fun t => t.sticky 10 && t.flt.bg = [(7, ⟨0, true⟩)]) = true ∧
    tGot (.backgroundHardBound 4) (s (20 * 10 ^ 9)) (fun t => !t.sticky 10) = true ∧ (tFlt).mild 9 ∧ (tFlt).mild 10 ∧
    tGot (.backgroundOverdue 6) (s (15 * 10 ^ 9)) (fun t => t.bgOverdue 6) = true ∧ tGot (.backgroundHardBound 8) (s (48 * 3600 * 10 ^ 9)) (fun t => t.sticky 10) = true ∧
    tGot .serdesAdaptation ((s 99999999).setOverdue 5) (fun t => t.bgOverdue 5) = true ∧
    tGot .serdesAdaptation ((s 100000000).setOverdue 5) (fun t => !t.bgOverdue 5 && t.flt.bg = [(5, ⟨100000000, false⟩)]) = true := by decide +kernel

def tPar (n : Nat) (lk : Bool := true) : State := { tFlt with flt := { tFlt.flt with parity := n }, modes := { tFlt.modes with lkRunning := lk }, now := 480 * 10 ^ 9 }
theorem wit_parity : (tPar 0).parityTotal = 4 * (131072 + 98304 + 262144) + 16 * (12 * 8192 * 2 + 2 * 3328) + 16 * (6 * 8192 * 2 + 2 * 4608) ∧
    tGot (.parityScrubStep (.meter 1 5) .bad true) (tPar 8) (fun t => t.flt.parity = 9 && t.regs = tFlt.regs) = true ∧
    tGot (.parityScrubStep (.edit 1 5) .bad true) (tPar ((tPar 0).parityTotal - 1)) (fun t => t.flt.parity = 0 && t.flt.bg = [(2, ⟨480 * 10 ^ 9, false⟩)]) = true ∧
    tGot (.parityScrubStep (.meter 1 5) .bad true) { tPar 8 with now := 480000 } (fun t => t.flt.parity = 8) = true ∧
    tGot (.parityScrubStep (.seed 1 5) .bad true) (tPar 8) (fun t => !t.sticky 164 && t.seedAt 1 5 = 0 && t.upset (upsetSeed (seedKey 1 5)) = 0) = true ∧
    tGot (.parityScrubStep (.seed 1 5) .bad true) ((tPar 8).wrB (srcBase 164) R.FLT_SRC_ROUTE true) (fun t => t.sticky 164) = true ∧
    tGot (.parityScrubStep (.seed 1 5) .bad true) (tPar 8 false) (fun t => t.sticky 164 && t.upset (upsetSeed (seedKey 1 5)) = 2) = true ∧
    tGot (.parityScrubStep (.sieve 1 5) .bad true) (tPar 8) (fun t => !t.sticky 165) = true ∧
    tGot (.parityScrubStep (.word 3 0 2 9) .bad true) (tPar 8) (fun t => t.sticky 45 && t.upset (upsetWord (wordKey 3 0 2 9)) = 2) = true ∧
    tGot (.parityScrubStep (.graph 3 9) .bad true) (tPar 8) (fun t => t.sticky 44) = true ∧
    tGot (.parityScrubStep (.graph 3 9) .bad true) ((tPar 8).setDom 4 false) (fun t => t.flt.parity = 8) = true := by decide +kernel

theorem wit_counters_listed : (telemCnts 3 0x162).all isCounter = true := by decide +kernel

def tTel (x : Telem) : State := { tMgr with flt := { tMgr.flt with telem := [(0, x)] }, now := 10 ^ 9, cnts := [(B.HPTC 0 + 0x1008, 6)] }
def tTelem : Telem := { en := true, base := 0x20_0000, size := 4, period := 10, mask := 0x100, seq := 17, lost := 2, at_ := 0 }
theorem wit_telemetry : (tTel tTelem).fnOfPlot 0 = some (0, 0) ∧ (tTel tTelem).plotOf 0 0 = some 0 ∧ telemLen 0 0x100 = 144 ∧
    tGot .telemetryExport (tTel tTelem) (fun t => (t.telem 0).seq = 18 && (t.telem 0).lost = 0 && tPut0 t 0x20_0090 = (leBytes 4 144 ++ leBytes 8 t.timeWord ++ leBytes 4 0x100 ++
      leBytes 4 2 ++ List.replicate 120 0) ++ leBytes 4 17) = true ∧
    tGot .telemetryExport (tTel { tTelem with at_ := 1 }) (fun t => t.out = []) = true ∧
    tGot .telemetryExport (tTel { tTelem with base := 0 }) (fun t => t.out = [] && (t.telem 0).lost = 3 && (t.telem 0).at_ = 1000000000) = true ∧
    tGot .telemetryExport { tTel tTelem with now := 10 ^ 9 + 1 } (fun t => t.out = []) = true ∧
    tGot .telemetryExport { tTel tTelem with now := 2 * 10 ^ 9 + 5000 } (fun t => t.out ≠ [] && (t.telem 0).at_ = 2 * 10 ^ 9 && (t.telem 0).seq = 18) = true ∧
    tGot .telemetryExport ((tTel tTelem).wrB B.PMC R.PMC_CTRL_SNAP_DONE false) (fun t => t.out = []) = true := by decide +kernel

theorem wit_pmc_commands : let e := fun (st : Nat) (t : State) => tEnd (.host 0 3) st [] t
    tGot (.pmcSet (.host 0 3)) (tFc 0x0610 [1, 1, 7, 0x0C, 3]) (fun t => e 0 t && t.reg (pmcSel (some 17) 7) = 0xC000_000C) = true ∧
    tGot (.pmcSet (.host 0 3)) (tFc 0x0610 [1, 1, 8, 1, 3]) (e St.BAD_ARGUMENT) = true ∧ tGot (.pmcSet (.host 0 3)) (tFc 0x0610 [0, 16, 0, 1, 3]) (e St.BAD_ARGUMENT) = true ∧
    tGot (.pmcSet (.host 0 3)) (tFc 0x0610 [2, 0, 15, 0x0C, 3]) (e St.BAD_ARGUMENT) = true ∧
    tGot (.pmcCtrl (.host 0 3)) (tFc 0x0611 [1]) (fun t => tEnd (.host 0 3) 0 (fit 8 []) t && t.flag B.PMC R.PMC_CTRL_FREEZE) = true ∧
    tGot (.pmcCtrl (.host 0 3)) (tFc 0x0611 [2]) (fun t => t.jobs.length = 1 && t.flt.snapT = some 3000) = true ∧
    tGot (.pmcRead (.host 0 3)) (tFc 0x0612 [0, 0x18, 3, 0, 0] tShad) (fun t => tEnd (.host 0 3) 0 [8, 0, 0, 0, 0, 0, 0, 0, 0] t) = true ∧
    tGot (.pmcRead (.host 0 3)) (tFc 0x0612 [0, 0x18, 3, 0, 1] tShad) (fun t => tEnd (.host 0 3) 0 [7, 0, 0, 0, 0, 0, 0, 0, 0] t) = true ∧
    tGot (.pmcRead (.host 0 3)) (tFc 0x0612 [0, 0x10, 0xB0, 0, 1] tShad) (fun t => tEnd (.host 0 3) 0 [0, 0, 0, 0, 0, 0, 0, 0, 1] t) = true ∧
    tGot (.pmcRead (.host 0 3)) (tFc 0x0612 [4, 0x18, 3, 0, 1] tShad) (e St.BAD_ARGUMENT) = true ∧
    tGot (.telemSet (.host 0 3)) (tFc 0x0613 (leBytes 8 0x20_0000 ++ [4, 1, 10, 0, 0, 1, 0, 0])) (fun t => tEnd (.host 0 3) 0 [144, 0, 0, 0] t && (t.telem 0).en) = true ∧
    tGot (.telemSet (.host 0 3)) (tFc 0x0613 (leBytes 8 0x20_0000 ++ [3, 1, 10, 0, 0, 1, 0, 0])) (e St.BAD_ARGUMENT) = true ∧
    tGot (.telemSet (.core 0)) (tHold (.core 0) 0x0613 [] tFlt) (fun t => tEnd (.core 0) St.REFUSED [] t) = true ∧
    tGot (.bgStatus (.host 0 3)) (tFc 0x0614 [] ({ tFlt with now := 110000000 }.setOverdue 9)) (fun t => match (t.tag (.host 0 3)).fin with
      | some f => f.data.length = 48 && f.data.take 4 = [0x2E, 2, 0, 2] && (f.data.drop 24).take 4 = [110, 0, 0, 0]
      | none => false) = true := by decide +kernel

/-! ### Boot, attestation and the life-cycle (chapter 19) -/

/-- A life-cycle state, the store, no firmware running unless it is said to. -/
def tLc (state : Nat) (f : SecSt → SecSt := id) (lk : Bool := false) (m : Mode := .flowing) : State :=
  let s := (tHost m).wr B.SEC R.SEC_LC_STATE state
  { s with sec := f { SecSt.init with cold := false, otp := { Otp.blank with secret := [1], seed := [2], owner := [3] } }, modes := { s.modes with lkRunning := lk }, now := 7 }
def tRow (k : Nat) (r : RowSt) (c : SecSt) : SecSt := { c with otp := { c.otp with rows := [(k, r)] }, cold := true }
/-- What the ROM resolves. -/
def tRes (k : Nat) (r : RowSt) (f : State → Bool) : Bool := f (tLc 0 (tRow k r)).resolveOtp

theorem wit_boot : (tLc 1).flag B.DEV R.DEV_MODE_LATCHED = false ∧ (tLc 1).modes.lkRunning = false ∧ (tLc 1).sec.otp.outside = false ∧ (tLc 0 (tRow 2 .copyB)).otpRow 2 = .copyB ∧
    (tLc 0 (tRow 2 .copyB)).otpRow 3 = .blank ∧ (tLc 0 (tRow 2 .copyB)).sec.cold = true ∧ (tLc 1 fun c => { c with prog := some (2, 0, 0) }).sec.prog.isSome = true ∧
    tGot .firmwareStarted (tLc 1 id true) (fun t => t.sec.cold = false && t.lcState = 1) = true ∧
    tGot .firmwareStarted (tLc 0 (fun c => { c with otp := { c.otp with outside := true } }) false .fallow) (fun t => t.sticky 2 && t.flag B.DEV R.DEV_MODE_LATCHED) = true ∧
    tRes 2 .copyB (fun t => t.lcState = 2 && t.otpRow 2 = .done && t.flag B.SEC R.SEC_LC_TORN && t.sec.otp.seed = [2]) = true ∧
    tRes 3 .copyA (fun t => t.lcState = 3 && t.sec.otp = { Otp.blank with rows := [(3, .done)], secret := [1], seed := [0xFF], owner := [0xFF] }) = true ∧
    tRes 4 .entry (fun t => t.lcState = 4 && t.sec.otp.secret = [0xFF]) = true ∧ tRes 4 .marker (fun t => t.sec.otp.secret = [1] && t.flag B.SEC R.SEC_LC_TORN) = true ∧
    tRes 2 .done (fun t => t.lcState = 2 && !t.flag B.SEC R.SEC_LC_TORN) = true := by decide +kernel

theorem wit_recovery : ((tLc 1).wrW (B.SEC + 0x10) 0x2300).bothFailed = true ∧ ((tLc 1).wrW (B.SEC + 0x10) 0x2300).flag B.PWR R.PWR_BUS_STAT_SMB_ISO = false ∧
    tGot (.recoveryImage [1]) (tLc 1) (fun t => t.sec.nor = []) = true := by decide +kernel

theorem wit_go : tGot (.go 0xA) (tLc 1) (fun t => t.lcState = 2 && t.otpRow 2 = .copyA && t.reg (B.SEC + 4) = 0xA && t.flag B.SEC R.SEC_LC_BUSY && t.kek 0 = []) = true ∧
    tGot (.go 9) (tLc 1) (fun t => t.lcState = 1 && t.reg (B.SEC + 4) = 0) = true ∧ tGot (.go 2) (tLc 1) (fun t => t.lcState = 1 && t.reg (B.SEC + 4) = 2) = true ∧
    tGot (.go 0xA) ((tLc 1).wrB B.SEC R.SEC_LC_BUSY true) (fun t => t.lcState = 1 && t.reg (B.SEC + 4) = 2) = true ∧
    tGot (.go 0xA) ((tLc 1).wrB B.SEC R.SEC_LOCK_LCLOCK true) (fun t => t.sticky 7 && t.lcState = 1 && t.reg (B.SEC + 4) = 0) = true ∧
    tGot (.go 0xC) { tLc 2 with keks := [(0, [5])] } (fun t => t.lcState = 4 && t.keks = []) = true ∧ (tLc 1).mild 7 := by decide +kernel

def tSec (o : Nat) (args : List Byte) (s : State := tLc 1 id true) : State := tHold (.host 0 3) o args s
/-- The last job answers a status after so many ms. -/
def tLater (op T st : Nat) (t : State) : Bool := t.jobs.map (fun j => (j.q, j.opcode, j.due, j.st)) = [(.host 0 3, op, 7 + T * 1000000, st)]
theorem wit_sec_commands :
    tGot (.secStatus (.host 0 3)) (tSec 0x0800 [] ((tLc 1 (fun c => { c with version := 0x0102 }) true).wr B.SEC R.SEC_SVN_COUNT 5)) (fun t =>
      tEnd (.host 0 3) 0 [1, 5, 0, 0, 2, 1, 0, 0] t) = true ∧
    tGot (.secChallenge (.host 0 3)) (tSec 0x0801 []) (tLater 0x0801 1 0) = true ∧
    tGot (.lcAdvance (.host 0 3) .ur) (tSec 0x0802 [2]) (tLater 0x0802 400 St.BAD_ARGUMENT) = true ∧
    tGot (.lcAdvance (.host 0 3) (.ok [])) (tSec 0x0802 [1]) (tLater 0x0802 400 St.REFUSED) = true ∧
    tGot (.lcAdvance (.host 0 3) (.ok [])) (tSec 0x0802 [2] ((tLc 1 id true).wrB B.SEC R.SEC_LOCK_LCLOCK true)) (tLater 0x0802 400 St.REFUSED) = true ∧
    tGot (.lcAdvance (.host 0 3) (.ok [])) (tSec 0x0802 [2] ((tLc 1 id true).addJob (.host 0 4) 0x0802 0)) (fun t => (t.tag (.host 0 3)).fin.map (·.status) = some St.BUSY_RETRY) = true ∧
    tGot (.debugUnlock (.host 0 3) .ur) (tSec 0x0803 [8]) (tLater 0x0803 200 St.BAD_ARGUMENT) = true ∧
    tGot (.debugUnlock (.host 0 3) (.ok [])) (tSec 0x0803 [4]) (tLater 0x0803 200 St.REFUSED) = true ∧ grantSigner 1 8 = some 0 ∧ grantSigner 2 10 = some 1 ∧ grantSigner 3 28 = some 0 ∧
    grantSigner 2 1 = none ∧ grantSigner 2 0 = none ∧
    tGot (.imageWrite (.host 0 3) (.ok [9])) (tSec 0x0804 (leBytes 4 0x1000 ++ leBytes 4 0x1000) (tWin (tLc 1 id true))) (fun t => tLater 0x0804 1500 0 t && t.sec.nor = [(0x100_1000, 9)]) = true ∧
    tGot (.imageWrite (.host 0 3) (.ok [9])) (tSec 0x0804 (leBytes 4 0x1000 ++ leBytes 4 0x1000)) (fun t => tLater 0x0804 1500 St.BAD_ARGUMENT t && t.sec.nor = []) = true ∧
    tGot (.lcAdvance (.host 0 3) (.ok [])) (tSec 0x0802 [2] ((tLc 1 id true).setFn 0 0 { Fn.init with mse := true, ready := true })) (fun t => t.jobs = []) = true ∧
    tGot (.imageWrite (.host 0 3) (.ok [9])) (tSec 0x0804 (leBytes 4 0xEF_F001 ++ leBytes 4 0x1000)) (fun t => tLater 0x0804 1500 St.BAD_ARGUMENT t && t.sec.nor = []) = true ∧
    tGot (.svnCommit (.host 0 3)) (tSec 0x0806 [] (tLc 1 (fun c => { c with runSvn := 9 }) true)) (fun t => tLater 0x0806 200 0 t && t.sec.otp.svn = 9 &&
      t.rd B.SEC R.SEC_SVN_COUNT = 9) = true ∧
    tGot (.measureRead (.host 0 3)) (tSec 0x0807 [7]) (fun t => tEnd (.host 0 3) 0 (fit 48 []) t) = true ∧
    tGot (.measureRead (.host 0 3)) (tSec 0x0807 [8]) (fun t => tEnd (.host 0 3) St.BAD_ARGUMENT [] t) = true := by decide +kernel

theorem wit_sec_due : let s := fun (op st due : Nat) => { tSec op [] with jobs := [{ q := .host 0 3, mgen := 1, opcode := op, obj := 0, due := due, st := st, data := fit 40 [5] }] }
    tGot .securityResultDue (s 0x0801 0 7) (fun t => tEnd (.host 0 3) 0 (fit 40 [5]) t && t.jobs = [] && t.sec.nonces = [(5, 7)]) = true ∧
    tGot .securityResultDue (s 0x0802 St.REFUSED 7) (fun t => tEnd (.host 0 3) St.REFUSED (fit 40 [5]) t && t.cnt (B.SEC + C.SEC_REFUSED) = 1 && t.sec.nonces = []) = true ∧
    tGot .securityResultDue (s 0x0802 St.REFUSED 8) (fun t => t.jobs.length = 1) = true ∧ (s 0x0801 0 7).mgen (.host 0 3) = 1 ∧
    tGot .nonceExpiry { tLc 1 (fun c => { c with nonces := [(1, 0), (2, 1)] }) with now := 60000000000 } (fun t => t.sec.nonces = [(2, 1)]) = true := by decide +kernel

theorem wit_spdm : (tLc 1 id true).linkUp 0 = true ∧ ((tLc 1).wrW (B.SEC + 0x10) 0x100).rd B.SEC R.SEC_IMAGE_A_RESULT = 1 ∧
    tGot (.getVersion none) (tLc 1 id true) (fun t => t.out.length = 1) = true ∧ tGot (.getVersion none) (tLc 1) (fun t => t.out = []) = true ∧
    tGot (.challenge (some 0) 0x12 0 []) (tLc 1 id true) (fun t => t.out.length = 1) = true ∧
    tGot (.challenge (some 1) 0x12 0 []) (tLc 1 id true) (fun t => t.out = []) = true := by decide +kernel

/-! ### Pins, rails and buses (chapter 20) -/

def tPin (m : Mode := .flowing) : State :=
  let s := (tFlt m).wrB B.CIST R.CIST_STATUS_ABOVE true
  s.onSilo fun c => { c with writes := [WOp.new (0, 1, 0) 0 0 1] }

theorem wit_pins : tGot (.cisternOkChange true) tPin (fun t => t.flag B.PWR R.PWR_PINS_CISTERN_OK && t.flag B.DEV R.DEV_MODE_WRITEBACK &&
      t.silo.writes.all (!·.through)) = true ∧
    tGot (.cisternOkChange true) (tPin .survey) (fun t => !t.flag B.DEV R.DEV_MODE_WRITEBACK) = true ∧
    tGot (.cisternOkChange false) (tPin.wrB B.PWR R.PWR_PINS_CISTERN_OK true) (fun t => !t.healthy && t.silo.writes.all (·.through) && t.last Tm.cistOk = some 5) = true ∧
    tGot (.cisternOkChange false) tPin (fun t => t = tPin) = true ∧
    tGot (.cisternOkChange true) { tPin with timers := [(Tm.cistOk, 1)], now := 9999 } (fun t => !t.flag B.PWR R.PWR_PINS_CISTERN_OK) = true ∧
    tGot (.railReading 10 3300 7) tPin (fun t => t.reg 0x1_0128 = 0x0CE4_0007) = true ∧
    tGot (.railReading 1 3300 7) (tPin.wrB B.PWR R.PWR_BUS_STAT_PMB1_LOST true) (fun t => t.reg 0x1_0104 = 0) = true ∧
    tGot (.railReading 0 800 7) (tPin.wrB B.PWR R.PWR_BUS_STAT_PMB1_LOST true) (fun t => t.reg 0x1_0100 = 0x0320_0007) = true := by decide +kernel

theorem wit_buses : tPin.mild 5 ∧ tGot (.smbusStuck .smb false) tPin (fun t => t.reg 0x1_0028 = 1 && t.out.length = 11 && t.out.head? = some (.bus .smb "SCL") && t.last (Tm.bus .smb) = some 5) = true ∧
    (let s := (tPin.wrB B.PWR R.PWR_BUS_STAT_SMB_ISO true)
     tGot (.smbusStuck .smb true) { s with timers := [(Tm.bus .smb, 6)], now := 1000000004 } (fun t => t.reg 0x1_0028 = 1 && t.out = []) = true ∧
     tGot (.smbusStuck .smb true) { s with timers := [(Tm.bus .smb, 6)], now := 1000000005 } (fun t => t.reg 0x1_0028 = 0) = true) ∧
    tGot (.smbusStuck .pmb0 false) tPin (fun t => t.reg 0x1_0028 = 2 && t.flag B.PACE R.PACE_FLAGS_AVS_LOST && t.sticky 5) = true ∧
    tGot (.smbusStuck .pmb0 false) (tPin.wrB B.PWR R.PWR_BUS_STAT_PMB0_LOST true) (fun t => !t.sticky 5) = true ∧
    tGot (.smbusStuck .pmb0 true) ((tPin.wrB B.PWR R.PWR_BUS_STAT_PMB0_LOST true).wrB B.PACE R.PACE_FLAGS_AVS_LOST true) (fun t => t.reg 0x1_0028 = 0 &&
      !t.flag B.PACE R.PACE_FLAGS_AVS_LOST) = true ∧
    tGot (.smbusStuck .pmb0 true) { (tPin.wrB B.PWR R.PWR_BUS_STAT_PMB0_LOST true).wrB B.PACE R.PACE_FLAGS_AVS_LOST true with gov := { tPin.gov with nacks := 3 } }
      (fun t => t.flag B.PACE R.PACE_FLAGS_AVS_LOST) = true ∧
    tGot (.smbusStuck .pmb1 false) tPin (fun t => t.reg 0x1_0028 = 4 && !t.flag B.PACE R.PACE_FLAGS_AVS_LOST && t.sticky 5) = true ∧
    tGot (.smbusStuck .pmb1 false) (tPin.wrB B.PWR R.PWR_BUS_STAT_PMB1_LOST true) (fun t => !t.sticky 5) = true ∧
    tGot (.smbusStuck .pmb1 true) (tPin.wrB B.PWR R.PWR_BUS_STAT_PMB1_LOST true) (fun t => t.reg 0x1_0028 = 0) = true := by decide +kernel

theorem wit_osc : tGot .oscInLost { tPin with flt := { tPin.flt with aliveRun := true, aliveLevel := true } } (fun t => t.oscLost && !t.flt.aliveRun &&
      !t.flt.aliveLevel && t.out = [.pin "ALIVE" false]) = true ∧ tGot .oscInLost { tPin with flt := { tPin.flt with aliveRun := false } } (fun t => t.oscLost && t.out = []) = true := by decide +kernel

/-! ### Rules stated whole; the whole machine -/

def tInfl : State := ((tHost).wr (B.LKP 0) R.LKP_HMB_INFLIGHT_TAGS 1)
def tBase (t : State) : Bool := t.pair 0xC0_0010 = (tHost).pair 0xC0_0010
theorem wit_result_area : (tInfl).reg (B.LKP 0 + R.LKP_HMB_INFLIGHT_TAGS.off) ≠ 0 ∧ tGot (.resbaseWrite 0 (some 0x5001) none) tInfl tBase = true ∧
    tInfl.resolve .lk (.internal 0xC0_0010) = some ⟨0xC0_0010, .write⟩ ∧ tInfl.granted .lk ⟨0xC0_0010, .write⟩ .write 64 0x5000 = true ∧
    tInfl.granted .lk ⟨0xC0_0010, .write⟩ .set 32 0x5000 = true ∧ aliasWordsOk 0xC0_0010 32 0x5000 = true ∧
    tGot (.registerWrite .lk (.internal 0xC0_0010) 64 0x7000) tInfl tBase = true ∧ tGot (.registerWrite .lk (.internal 0xC0_0010) 64 0x7000) tHost (fun t => !tBase t) = true ∧
    tGot (.aliasSetWrite .lk (.internal 0xC0_0010) 32 0x7000) tInfl tBase = true ∧
    tGot (.slowAccessCrossed .lk) { tInfl with cross := [⟨.lk, 0xC0_0014, .write, 32, 5, true, 0, false⟩] } (fun t => tBase t && t.cross = []) = true := by decide +kernel

theorem wit_result_slot : let s := tHold (.host 0 3) 0x0102 [1, 2] (tFlt .flowing)
    s.linkUp 0 = true ∧ (s.fn 0 0).bme = true ∧ (s.fn 0 0).flrAt = none ∧
    tGot (.devEcho (.host 0 3)) s (fun t => t.out.take 4 = s.writeOuts 0 0 (s.pair 0xC0_0010 / 4096 * 4096 + 0x310) (fit 240 [1, 2]) ++ [
      .write 0 0 (s.pair 0xC0_0010 / 4096 * 4096 + 0x304) (leBytes 4 (0x1_0002) ++ leBytes 8 0), .write 0 0 (s.pair 0xC0_0010 / 4096 * 4096 + 0x300) (leBytes 4 (0x0000_03E4))]) = true := by
  decide +kernel

theorem wit_parse_counters : tGot (.packetParse 0 none []) (tHusk 19) (fun t => t.cnt 0x18_1000 = 1 && t.cnt 0x18_1010 = 1 && t.cnt 0x18_1008 = 0 && t.cnt 0x18_1050 = 0) = true ∧
    tGot (.packetParse 0 (some (fit 60 [0x45])) [0]) ((tHusk 60 .survey).wrB (B.HUSK 0) R.HUSK_STATUS_LR_ACTIVE true) (fun t => t.cnt 0x18_1000 = 1 && t.cnt 0x18_1050 = 1) = true ∧
    (tHusk 60 .survey).mild 32 ∧ tGot (.packetParse 0 none [1]) (tHusk 60) (fun t => t.cnt 0x18_1040 = 1 && t.sticky 32) = true := by decide +kernel

theorem wit_reset : State.reset.canonical = true ∧ State.reset.pending = [] ∧ State.reset.mode = .fallow := by decide

/-- An empty queue, a queue of two, and a step on a canonical state that lists a register, a counter and a byte. -/
theorem wit_steps : (match step State.reset with | .next t => decide (t.now = 1 ∧ t.pending = []) | _ => false) = true ∧
    (match step { State.reset with oscLost := true } with | .next t => decide (t.now = 0) | _ => false) = true ∧
    (match step { tInfl with pending := [.mainPgRise, .nonceExpiry] } with | .next t => decide (t.pending = [.nonceExpiry]) && t.canonical | _ => false) = true ∧
    (tHusk 19).canonical = true ∧ tGot (.packetParse 0 none []) (tHusk 19) (fun t => t.canonical && decide (t.cnts.length = 3)) = true := by decide +kernel
end Sys2Proof.Machine
end

namespace Sys2Proof.Machine

/-! ### The commands of the family, by their meanings -/

theorem exec_paceMeterUpdate (r : List (Dom × Nat)) (s : State) :
    exec (.paceMeterUpdate r) s = execPaceMeterUpdate r s := rfl
theorem exec_paceMeterCalibration (d : Dom) (s : State) :
    exec (.paceMeterCalibration d) s = execPaceMeterCalibration d s := rfl
theorem exec_paceCalibrationDone (d : Dom) (s : State) :
    exec (.paceCalibrationDone d) s = execPaceCalibrationDone d s := rfl
theorem exec_governorLoopStep (f : Nat) (ack : Bool) (s : State) :
    exec (.governorLoopStep f ack) s = execGovernorLoopStep f ack s := rfl
theorem exec_avsCommandUnacknowledged (s : State) :
    exec .avsCommandUnacknowledged s = execAvsCommandUnacknowledged s := rfl
theorem exec_avsResend (ack : Bool) (s : State) : exec (.avsResend ack) s = execAvsResend ack s := rfl
theorem exec_powerReading (i : Fin 65536) (s : State) : exec (.powerReading i) s = execPowerReading i s := rfl
theorem exec_tjReading (l : List Int) (s : State) : exec (.tjReading l) s = execTjReading l s := rfl
theorem exec_domainPowerGood (d : Dom) (s : State) : exec (.domainPowerGood d) s = execDomainPowerGood d s := rfl

/-! ### Periodic events -/

theorem State.every_of_due {s : State} {k p : Nat} {f : State → State} (h : s.due k p = true) :
    s.every k p f = f (s.stamp k) := by
  unfold State.every; rw [if_pos h]

theorem State.every_of_not_due {s : State} {k p : Nat} {f : State → State} (h : s.due k p = false) :
    s.every k p f = s := by
  unfold State.every; rw [h]; rfl

@[simp] theorem State.last_stamp_same (s : State) (k : Nat) : (s.stamp k).last k = some s.now := by
  simp [State.last, State.stamp]

theorem State.last_stamp_ne (s : State) {k j : Nat} (h : j ≠ k) : (s.stamp k).last j = s.last j := by
  simp [State.last, State.stamp, tget_tput_ne _ _ _ _ _ h]

@[simp] theorem State.reg_stamp (s : State) (k a : Nat) : (s.stamp k).reg a = s.reg a := Eq.refl (s.reg a)
@[simp] theorem State.rd_stamp (s : State) (k b : Nat) (f : RegField) : (s.stamp k).rd b f = s.rd b f := Eq.refl (s.rd b f)
@[simp] theorem State.flag_stamp (s : State) (k b : Nat) (f : RegField) : (s.stamp k).flag b f = s.flag b f := Eq.refl (s.flag b f)
@[simp] theorem State.domOn_stamp (s : State) (k d : Nat) : (s.stamp k).domOn d = s.domOn d := Eq.refl (s.domOn d)

theorem State.stamp_eq (s : State) (k : Nat) : ∃ ts, s.stamp k = { s with timers := ts } := ⟨_, rfl⟩
theorem State.wrB_eq (s : State) (b : Nat) (f : RegField) (x : Bool) : ∃ r, s.wrB b f x = { s with regs := r } := ⟨_, rfl⟩
theorem State.wrW_eq (s : State) (a n : Nat) : ∃ r, s.wrW a n = { s with regs := r } := ⟨_, rfl⟩

/-! ### Fields read through unchanged registers -/

theorem State.rd_congr {s t : State} {b : Nat} {f : RegField} (h : t.reg (b + f.off) = s.reg (b + f.off)) :
    t.rd b f = s.rd b f := by
  unfold State.rd; rw [h]

theorem State.flag_congr {s t : State} {b : Nat} {f : RegField} (h : t.reg (b + f.off) = s.reg (b + f.off)) :
    t.flag b f = s.flag b f := by
  unfold State.flag; rw [State.rd_congr h]

theorem State.mode_congr {s t : State} (h : t.reg (B.DEV + 0x10) = s.reg (B.DEV + 0x10)) : t.mode = s.mode := by
  unfold State.mode; rw [State.rd_congr (f := R.DEV_MODE_CODE) h]

theorem State.domOn_congr {s t : State} {d : Nat} (h : t.reg (B.PWR + 4 * (d / 32)) = s.reg (B.PWR + 4 * (d / 32))) :
    t.domOn d = s.domOn d := by
  unfold State.domOn; rw [h]

/-- Bit `j` of a number whose bit `i` was set. -/
theorem bitOf_setBits_bit (v i j : Nat) (b : Bool) : bitOf (setBits v i i (bit b)) j = if j = i then b else bitOf v j := by
  split
  · subst j
    have h := bitsOf_setBits_same v i i (bit b)
    simp only [bitsOf, Nat.add_sub_cancel_left, pow_one] at h
    unfold bitOf; rw [h]; cases b <;> rfl
  · rename_i h
    rw [bitOf_eq_testBit, bitOf_eq_testBit, setBits_testBit _ _ _ _ _ (by omega) (by omega)]

theorem setBits_bit_lt (v : Word) (i : Nat) (b : Bool) (h : i < 32) : setBits v.toNat i i (bit b) < 2 ^ 32 :=
  setBits_lt _ _ _ _ _ v.isLt h (by omega)

theorem State.domOn_setDom (s : State) (d e : Nat) (on : Bool) :
    (s.setDom d on).domOn e = if e = d then on else s.domOn e := by
  have hlt := setBits_bit_lt (s.reg (B.PWR + 4 * (d / 32))) (d % 32) on (Nat.mod_lt _ (by omega))
  unfold State.setDom State.domOn
  dsimp only
  rw [State.reg_wrW]
  split
  · rename_i h
    rw [BitVec.toNat_ofNat, Nat.mod_eq_of_lt hlt, bitOf_setBits_bit, h]
    exact if_congr (by omega) rfl rfl
  · rename_i h
    rw [if_neg (by omega)]

/-! ### Meters (R34, R35) -/

theorem State.meterUpdate_of_held {s : State} {d : Nat} (v : Nat) (h : s.flag (meterBase d) R.PACE_METER_CAL = true) :
    s.meterUpdate d v = s := by
  unfold State.meterUpdate; rw [if_pos (by simp [h])]

theorem State.meterUpdate_of_on {s : State} {d : Nat} (v : Nat) (hm : metered d = true) (hd : s.domOn d = true)
    (h : s.flag (meterBase d) R.PACE_METER_CAL = false) :
    s.meterUpdate d v = s.wr (meterBase d) R.PACE_METER_PACE v := by
  unfold State.meterUpdate; rw [if_neg (by simp [h, hm, hd])]

/-- PACE_STATUS shows P_m (Table 2.14). -/
theorem State.view_paceMin {s : State} {p : Nat} (h : s.paceMin = some p) :
    bitsOf (s.view (B.PACE + R.PACE_STATUS_PACE_MIN.off)) 15 0 = p % 2 ^ 16 := by
  have hv : s.view (B.PACE + R.PACE_STATUS_PACE_MIN.off) =
      setBits (s.reg (B.PACE + R.PACE_STATUS_PACE_MIN.off)).toNat 15 0 (s.paceMin.getD 0) := by
    unfold State.view
    rw [if_neg (by decide +kernel), if_neg (by decide +kernel), if_pos (by decide), if_pos (by decide)]
    rfl
  rw [hv, h, bitsOf_setBits_same]; rfl

/-- PACE_FLAGS.BELOW_LR shows whether P_m lies below line rate (Table 2.15). -/
theorem State.view_belowLR {s : State} {p : Nat} (h : s.paceMin = some p) :
    bitOf (s.view (B.PACE + R.PACE_FLAGS_BELOW_LR.off)) 0 = decide (p < 2460) := by
  have hv : s.view (B.PACE + R.PACE_FLAGS_BELOW_LR.off) =
      setBits (setBits (setBits (s.reg (B.PACE + R.PACE_FLAGS_BELOW_LR.off)).toNat 0 0 (bit s.belowLR)) 1 1
        (bit (bitOf (s.reg (B.PACE + R.PACE_FLAGS_BELOW_LR.off)).toNat 1 && s.paceMin.isSome))) 3 3 (bit s.throttled) := by
    unfold State.view
    rw [if_neg (by decide +kernel), if_neg (by decide +kernel), if_pos (by decide), if_pos (by decide)]
    rfl
  rw [hv, bitOf_setBits_bit, bitOf_setBits_bit, bitOf_setBits_bit]
  simp [State.belowLR, h]

/-- R34: a meter that is not held shows the mean, and P_m with BELOW_LR follows. -/
theorem paceMeterUpdate_shows (d : Dom) (v : Nat) (s : State) (hdue : s.due Tm.meters 500 = true)
    (hm : metered d = true) (hd : s.domOn d = true) (hc : s.flag (meterBase d) R.PACE_METER_CAL = false) :
    Gives (.paceMeterUpdate [(d, v)]) s fun t => t = { s with regs := t.regs, timers := t.timers } ∧
      t.rd (meterBase d) R.PACE_METER_PACE = v % 2 ^ 16 ∧
      (∀ p, t.paceMin = some p → bitsOf (t.view (B.PACE + R.PACE_STATUS_PACE_MIN.off)) 15 0 = p % 2 ^ 16 ∧
        bitOf (t.view (B.PACE + R.PACE_FLAGS_BELOW_LR.off)) 0 = decide (p < 2460)) ∧
      ∀ a, a ≠ meterBase d + R.PACE_METER_PACE.off → t.reg a = s.reg a := by
  have he : exec (.paceMeterUpdate [(d, v)]) s = .next ((s.stamp Tm.meters).wr (meterBase d) R.PACE_METER_PACE v) := by
    rw [exec_paceMeterUpdate, execPaceMeterUpdate, State.every_of_due hdue]
    exact congrArg _ (State.meterUpdate_of_on (s := s.stamp Tm.meters) v hm hd hc)
  refine ⟨_, he, rfl, ?_, fun p hp => ⟨State.view_paceMin hp, State.view_belowLR hp⟩, fun a ha => ?_⟩
  · exact State.rd_wr_same _ _ _ _ (by decide) (by decide)
  · rw [State.reg_wr _ _ _ _ _ ha, State.reg_stamp]

/-- R35: a meter in calibration holds its value. -/
theorem paceMeterUpdate_held (d : Dom) (v : Nat) (s : State) (hdue : s.due Tm.meters 500 = true)
    (hc : s.flag (meterBase d) R.PACE_METER_CAL = true) :
    exec (.paceMeterUpdate [(d, v)]) s = .next (s.stamp Tm.meters) := by
  rw [exec_paceMeterUpdate, execPaceMeterUpdate, State.every_of_due hdue]
  exact congrArg _ (State.meterUpdate_of_held (s := s.stamp Tm.meters) v hc)

theorem paceMeterCalibration_starts (d : Dom) (s : State) (hm : metered d = true) (hd : s.domOn d = true) :
    exec (.paceMeterCalibration d) s = .next (s.wrB (meterBase d) R.PACE_METER_CAL true) := by
  rw [exec_paceMeterCalibration, execPaceMeterCalibration, if_pos (by simp [hm, hd])]

/-- A maximum lies below a bound that all its members lie below. -/
theorem foldl_max_lt_iff {α : Type} [LinearOrder α] {l : List α} {b m : α} :
    l.foldl max m < b ↔ m < b ∧ ∀ x ∈ l, x < b := by
  induction l generalizing m with
  | nil => simp
  | cons x l ih => simp only [List.foldl_cons, ih, max_lt_iff, List.forall_mem_cons, and_assoc]

/-- Meter calibration is overdue 15 s after the oldest calibration of a powered meter (Table 18.7). -/
theorem State.bgAt_meters_eq_false {s : State}
    (h : ∀ e, e < 80 → metered e = true → s.domOn e = true → s.now < (s.last (Tm.meterCal e)).getD 0 + 15000000000) :
    s.bgAt 7 1 = false := by
  have hage : s.bgAge 7 < 15000000000 := by
    refine (foldl_max_lt_iff (l := ((List.range 80).filter fun d => metered d && s.domOn d).map
      fun d => s.now - (s.last (Tm.meterCal d)).getD 0)).mpr ⟨by omega, ?_⟩
    simp only [List.mem_map, List.mem_filter, List.mem_range, Bool.and_eq_true]
    rintro _ ⟨e, ⟨he, hm, hd⟩, rfl⟩
    have := h e he hm hd
    omega
  have heq : s.bgAt 7 1 = decide (15000000000 ≤ s.bgAge 7) := rfl
  rw [heq, decide_eq_false_iff_not]; omega

theorem State.bgRan_clears (s : State) (a : Nat) (h : a ≤ 10) : (s.bgRan a).bgOverdue a = false := by
  have hr : (s.bgRan a).reg (B.FLT + R.FLT_BG_OVERDUE_OVERDUE.off) =
      BitVec.ofNat 32 (setBits (s.reg (B.FLT + R.FLT_BG_OVERDUE_OVERDUE.off)).toNat a a (bit false)) := by
    unfold State.bgRan State.wrW; exact State.reg_setReg_same _ _ _
  have hlt := setBits_bit_lt (s.reg (B.FLT + R.FLT_BG_OVERDUE_OVERDUE.off)) a false (by omega)
  have hb := bitOf_setBits_bit (s.reg (B.FLT + R.FLT_BG_OVERDUE_OVERDUE.off)).toNat a a false
  unfold State.bgOverdue State.rd
  rw [hr, BitVec.toNat_ofNat, Nat.mod_eq_of_lt hlt, bitOf_eq_testBit, bitsOf_testBit _ _ _ _ (by
    show a < 10 + 1 - 0; omega), ← bitOf_eq_testBit]
  simpa [R.FLT_BG_OVERDUE_OVERDUE] using hb

theorem State.bgRan_reg (s : State) (a b : Nat) (h : b ≠ B.FLT + R.FLT_BG_OVERDUE_OVERDUE.off) :
    (s.bgRan a).reg b = s.reg b := by
  unfold State.bgRan; exact (s.reg_wrW _ b _).trans (if_neg h)

/-- The state in which a calibration has ended, but for the account of background work. -/
def State.calibrated (s : State) (d : Nat) : State := (s.wrB (meterBase d) R.PACE_METER_CAL false).stamp (Tm.meterCal d)

theorem State.calibrated_flag (s : State) (d : Nat) : (s.calibrated d).flag (meterBase d) R.PACE_METER_CAL = false := by
  rw [State.calibrated, State.flag_stamp, State.flag_wrB_same _ _ _ _ (by decide) rfl]

theorem State.calibrated_last (s : State) (d e : Nat) :
    (s.calibrated d).last (Tm.meterCal e) = if e = d then some s.now else s.last (Tm.meterCal e) := by
  unfold State.calibrated
  split
  · subst e; rw [State.last_stamp_same, State.wrB_now]
  · rw [State.last_stamp_ne _ (by unfold Tm.meterCal; omega), State.last, State.wrB_timers, State.last]

theorem State.calibrated_domOn (s : State) (d e : Nat) (he : e < 80) : (s.calibrated d).domOn e = s.domOn e := by
  rw [State.calibrated, State.domOn_stamp]
  refine State.domOn_congr (State.reg_wrB _ _ _ _ _ ?_)
  simp only [meterBase, B.PACE, B.PWR, R.PACE_METER_CAL]
  omega

theorem State.calibrated_now (s : State) (d : Nat) : (s.calibrated d).now = s.now := by
  rw [State.calibrated, State.stamp_now, State.wrB_now]

theorem State.calibrated_eq (s : State) (d : Nat) : ∃ r ts, s.calibrated d = { s with regs := r, timers := ts } := by
  obtain ⟨r, e⟩ := s.wrB_eq (meterBase d) R.PACE_METER_CAL false
  rw [State.calibrated, e]; exact ⟨_, _, rfl⟩

theorem State.bgRan_eq (s : State) (a : Nat) : ∃ r f, s.bgRan a = { s with regs := r, flt := f } := by
  unfold State.bgRan
  obtain ⟨r, e⟩ := s.wrW_eq (B.FLT + R.FLT_BG_OVERDUE_OVERDUE.off)
    (setBits (s.reg (B.FLT + R.FLT_BG_OVERDUE_OVERDUE.off)).toNat a a 0)
  dsimp only; rw [e]; exact ⟨_, _, rfl⟩

/-- With every other powered meter calibrated within 15 s, none is overdue once this calibration has ended. -/
theorem State.calibrated_bgAt (s : State) (d : Nat)
    (h : ∀ e, e < 80 → e ≠ d → metered e = true → s.domOn e = true → s.now < (s.last (Tm.meterCal e)).getD 0 + 15000000000) :
    (s.calibrated d).bgAt 7 1 = false := by
  refine State.bgAt_meters_eq_false fun e he hm hd => ?_
  rw [State.calibrated_last, State.calibrated_now]
  rw [State.calibrated_domOn _ _ _ he] at hd
  split
  · rw [Option.getD_some]; omega
  · rename_i hed; exact h e he hed hm hd

theorem exec_paceCalibrationDone_of_cal (d : Dom) (s : State) (hc : s.flag (meterBase d) R.PACE_METER_CAL = true) :
    exec (.paceCalibrationDone d) s =
      .next (if (s.calibrated d).bgAt 7 1 then s.calibrated d else (s.calibrated d).bgRan 7) := by
  rw [exec_paceCalibrationDone, execPaceCalibrationDone, hc]
  simp only [Bool.not_true, Bool.false_eq_true, if_false, State.calibrated]
  rfl

/-- R35: the end of a calibration; the overdue state ends with the last overdue meter. -/
theorem paceCalibrationDone_ends (d : Dom) (s : State) (hc : s.flag (meterBase d) R.PACE_METER_CAL = true) :
    Gives (.paceCalibrationDone d) s fun t => t = { s with regs := t.regs, flt := t.flt, timers := t.timers } ∧
      t.flag (meterBase d) R.PACE_METER_CAL = false ∧ t.last (Tm.meterCal d) = some s.now ∧
      ((∀ e, e < 80 → e ≠ d.val → metered e = true → s.domOn e = true → s.now < (s.last (Tm.meterCal e)).getD 0 + 15000000000) →
        t.bgOverdue 7 = false) := by
  have hlast : (s.calibrated d).last (Tm.meterCal d) = some s.now := by rw [State.calibrated_last, if_pos rfl]
  have hflag := s.calibrated_flag d
  have hbg := s.calibrated_bgAt d
  obtain ⟨r, ts, hr⟩ := s.calibrated_eq d
  refine ⟨_, exec_paceCalibrationDone_of_cal d s hc, ?_⟩
  generalize s.calibrated d = u at *
  split
  · rename_i hb
    exact ⟨by rw [hr], hflag, hlast, fun h => absurd (hbg h) (by rw [hb]; simp)⟩
  · refine ⟨?_, ?_, ?_, fun _ => State.bgRan_clears _ 7 (by omega)⟩
    · obtain ⟨r', f, e⟩ := u.bgRan_eq 7
      rw [e, hr]
    · rw [State.flag_congr (State.bgRan_reg _ 7 _ ?_), hflag]
      simp only [meterBase, B.PACE, B.FLT, R.PACE_METER_CAL, R.FLT_BG_OVERDUE_OVERDUE]
      have := d.isLt
      omega
    · obtain ⟨r', f, e⟩ := u.bgRan_eq 7
      rw [← hlast, e, State.last, State.last]

/-! ### What a fault message leaves behind (R423 to R428)

`FaultTraces s t`: between `s` and `t` fault messages were taken and hosts notified, and nothing took a Drain. The severities
stay, and no sticky bit falls. -/

structure FaultTraces (s t : State) : Prop where
  rest : t = { s with regs := t.regs, cnts := t.cnts, flt := t.flt, out := t.out, links := t.links, fns := t.fns,
                      mem := t.mem, kcu := t.kcu }
  regs : ∀ a, a < B.FLT ∨ B.FLT + 0x1580 ≤ a ∧ a < B.HPT 0 → t.reg a = s.reg a
  sev : ∀ n, n < 352 → t.sev n = s.sev n
  sticky : ∀ n, n < 352 → s.sticky n = true → t.sticky n = true

theorem FaultTraces.refl (s : State) : FaultTraces s s := ⟨rfl, fun _ _ => rfl, fun _ _ => rfl, fun _ _ h => h⟩

theorem FaultTraces.trans {s t u : State} (h : FaultTraces s t) (k : FaultTraces t u) : FaultTraces s u where
  rest := k.rest.trans (by rw [h.rest])
  regs a ha := (k.regs a ha).trans (h.regs a ha)
  sev n hn := (k.sev n hn).trans (h.sev n hn)
  sticky n hn hs := k.sticky n hn (h.sticky n hn hs)

theorem FaultTraces.modes {s t : State} (h : FaultTraces s t) : t.modes = s.modes := by rw [h.rest]
theorem FaultTraces.gov {s t : State} (h : FaultTraces s t) : t.gov = s.gov := by rw [h.rest]
theorem FaultTraces.image {s t : State} (h : FaultTraces s t) : t.image = s.image := by rw [h.rest]
theorem FaultTraces.mode {s t : State} (h : FaultTraces s t) : t.mode = s.mode :=
  State.mode_congr (h.regs _ (.inl (by decide)))
theorem FaultTraces.busy {s t : State} (h : FaultTraces s t) : t.busy = s.busy :=
  State.flag_congr (h.regs _ (.inl (by decide)))

theorem State.sev_congr {s t : State} {n : Nat} (h : t.reg (srcBase n + 0x1000) = s.reg (srcBase n + 0x1000)) :
    t.sev n = s.sev n := State.rd_congr (f := R.FLT_SRC_SEV) h

theorem State.sticky_congr {s t : State} {n : Nat} (h : t.reg (stickyReg n) = s.reg (stickyReg n)) :
    t.sticky n = s.sticky n := by
  unfold State.sticky; rw [h]

theorem srcBase_lt {n : Nat} (h : n < 352) : srcBase n + 0x1000 < B.FLT + 0x1580 := by
  simp only [srcBase, B.FLT]; omega

theorem stickyReg_lt {n : Nat} (h : n < 352) : stickyReg n < B.FLT + 0x42C := by
  simp only [stickyReg, B.FLT]; omega

/-- What leaves every register below those of the links leaves severities and sticky bits. -/
theorem FaultTraces.of_low {s t : State}
    (rest : t = { s with regs := t.regs, cnts := t.cnts, flt := t.flt, out := t.out, links := t.links, fns := t.fns,
                         mem := t.mem, kcu := t.kcu })
    (low : ∀ a, a < B.HPT 0 → t.reg a = s.reg a) : FaultTraces s t where
  rest := rest
  regs a ha := low a (by
    rcases ha with h | h
    · exact Nat.lt_trans h (by decide)
    · exact h.2)
  sev n hn := State.sev_congr (low _ (Nat.lt_trans (srcBase_lt hn) (by decide)))
  sticky n hn hs := (State.sticky_congr (low _ (Nat.lt_trans (stickyReg_lt hn) (by decide)))).trans hs

theorem FaultTraces.count (s : State) (a : Nat) : FaultTraces s (s.count a) := by
  obtain ⟨c, f, e⟩ := s.count_eq a
  rw [e]; exact .of_low rfl fun _ _ => rfl

theorem FaultTraces.interrupt (s : State) (m f v : Nat) : FaultTraces s (s.interrupt m f v) := by
  refine .of_low ?_ fun a ha => State.interrupt_reg _ _ _ _ _ ?_
  · obtain ⟨r, x, l, y, b, e⟩ := s.interrupt_eq m f v
    rw [e]
  · simp only [B.HPT, R.HPT_LINK_PM] at ha ⊢; omega

theorem FaultTraces.notifyFault (s : State) (n : Nat) : FaultTraces s (s.notifyFault n) := by
  unfold State.notifyFault
  refine foldl_keeps FaultTraces .refl (fun _ _ _ => .trans) _ (fun s m => ?_) _ s
  dsimp only; split
  · exact .interrupt s m 0 _
  · exact .refl s

theorem State.sticky_setSticky (s : State) (n m : Nat) (b : Bool) :
    (s.setSticky n b).sticky m = if m = n then b else s.sticky m := by
  have hlt := setBits_bit_lt (s.reg (stickyReg n)) (n % 32) b (Nat.mod_lt _ (by omega))
  unfold State.setSticky State.sticky
  rw [State.reg_wrW]
  split
  · rename_i h
    rw [BitVec.toNat_ofNat, Nat.mod_eq_of_lt hlt, bitOf_setBits_bit, h]
    simp only [stickyReg] at h
    exact if_congr (by omega) rfl rfl
  · rename_i h
    rw [if_neg (by rintro rfl; exact h rfl)]

theorem FaultTraces.setSticky (s : State) {n : Nat} (hn : n < 352) : FaultTraces s (s.setSticky n true) where
  rest := by
    obtain ⟨r, e⟩ := s.wrW_eq (stickyReg n) (setBits (s.reg (stickyReg n)).toNat (n % 32) (n % 32) (bit true))
    rw [State.setSticky, e]
  regs a ha := (s.reg_wrW _ _ _).trans (if_neg (by simp only [stickyReg, B.FLT, B.HPT] at ha ⊢; omega))
  sev m _ := State.sev_congr ((s.reg_wrW _ _ _).trans (if_neg (by simp only [stickyReg, srcBase, B.FLT]; omega)))
  sticky m _ h := by rw [State.sticky_setSticky]; split <;> trivial

/-- The window bit of a source lies beside its severity. -/
theorem FaultTraces.winBit (s : State) {n : Nat} (hn : n < 352) : FaultTraces s (s.wrB (srcBase n) R.FLT_SRC_WIN true) where
  rest := by
    obtain ⟨r, e⟩ := s.wrB_eq (srcBase n) R.FLT_SRC_WIN true
    rw [e]
  regs a ha := State.reg_wrB s _ a R.FLT_SRC_WIN true (by
    simp only [srcBase, R.FLT_SRC_WIN, B.FLT, B.HPT] at ha ⊢; omega)
  sev m _ := State.rd_wr_ne s _ _ R.FLT_SRC_WIN R.FLT_SRC_SEV _ (by decide) (by decide) (.inr (.inl (by decide)))
  sticky m hm h := (State.sticky_congr (State.reg_wrB s _ _ R.FLT_SRC_WIN true (by
    simp only [stickyReg, srcBase, R.FLT_SRC_WIN]; omega))).trans h

theorem FaultTraces.startWindow (s : State) {n : Nat} (c : Nat) (hn : n < 352) : FaultTraces s (s.startWindow n c) := by
  unfold State.startWindow
  refine (FaultTraces.winBit s hn).trans ?_
  generalize s.wrB (srcBase n) R.FLT_SRC_WIN true = u
  exact .of_low rfl fun _ _ => rfl

theorem FaultTraces.capture (s : State) {n : Nat} (hn : n < 352) : FaultTraces s (s.capture n) := by
  unfold State.capture
  dsimp only
  split
  · refine .trans ?_ (.notifyFault _ n)
    split
    · exact (FaultTraces.setSticky s hn).trans (.startWindow _ _ hn)
    · exact .setSticky s hn
  · split
    · exact .startWindow s _ hn
    · exact .refl s

/-- R424: a captured source has its sticky bit set. -/
theorem State.sticky_capture (s : State) {n : Nat} (hn : n < 352) : (s.capture n).sticky n = true := by
  by_cases hs : s.sticky n = true
  · exact (FaultTraces.capture s hn).sticky n hn hs
  · have h1 : (s.setSticky n true).sticky n = true := by rw [State.sticky_setSticky, if_pos rfl]
    unfold State.capture
    dsimp only
    rw [if_pos (by simpa using hs)]
    refine (FaultTraces.notifyFault _ n).sticky n hn ?_
    split
    · exact (FaultTraces.startWindow _ _ hn).sticky n hn h1
    · exact h1

theorem FaultTraces.bumpLost (s : State) : FaultTraces s (s.bump B.FLT R.FLT_MSGQ_LOST) where
  rest := by
    obtain ⟨r, e⟩ := s.wr_eq B.FLT R.FLT_MSGQ_LOST
      (sat (2 ^ (R.FLT_MSGQ_LOST.hi + 1 - R.FLT_MSGQ_LOST.lo) - 1) (s.rd B.FLT R.FLT_MSGQ_LOST + 1))
    rw [State.bump, e]
  regs a ha := State.reg_wr s _ a R.FLT_MSGQ_LOST _ (by simp only [R.FLT_MSGQ_LOST, B.FLT, B.HPT] at ha ⊢; omega)
  sev m _ := State.sev_congr (State.reg_wr s _ _ R.FLT_MSGQ_LOST _ (by
    simp only [R.FLT_MSGQ_LOST, srcBase, B.FLT]; omega))
  sticky m _ h := (State.sticky_congr (State.reg_wr s _ _ R.FLT_MSGQ_LOST _ (by
    simp only [R.FLT_MSGQ_LOST, stickyReg, B.FLT]; omega))).trans h

/-- What the collector does before it captures a message's source: it counts the message, and queues it or loses it. -/
def State.queueMsg (s : State) (f : FaultMsg) : State :=
  if (s.count (B.FLT + C.FLT_MSGS)).flt.msgq.length < 256 then
    { s.count (B.FLT + C.FLT_MSGS) with flt := { (s.count (B.FLT + C.FLT_MSGS)).flt with
        msgq := (s.count (B.FLT + C.FLT_MSGS)).flt.msgq ++ [f] } }
  else ((s.count (B.FLT + C.FLT_MSGS)).bump B.FLT R.FLT_MSGQ_LOST).capture 28

theorem State.takeMsg_eq_capture (s : State) (f : FaultMsg) : s.takeMsg f = (s.queueMsg f).capture f.src := Eq.refl _

theorem FaultTraces.queueMsg (s : State) (f : FaultMsg) : FaultTraces s (s.queueMsg f) := by
  unfold State.queueMsg
  refine (FaultTraces.count s (B.FLT + C.FLT_MSGS)).trans ?_
  generalize s.count (B.FLT + C.FLT_MSGS) = u
  split
  · exact .of_low rfl fun _ _ => rfl
  · exact (FaultTraces.bumpLost u).trans (.capture _ (by omega))

theorem FaultTraces.kcuFree (s : State) (m : Nat) (b : Bool) : FaultTraces s (s.kcuFree m b) := by
  unfold State.kcuFree
  split
  · dsimp only
    have hreset : FaultTraces s (s.resetRegs fun a => B.KCUM m + 0x20 ≤ a && a < B.KCUM m + 0x60) := by
      refine .of_low rfl fun a ha => (State.reg_resetRegs _ _ _).trans (if_neg ?_)
      rw [Bool.and_eq_true]
      rintro ⟨h, -⟩
      have := of_decide_eq_true h
      simp only [B.KCUM, B.HPT] at ha this; omega
    generalize (s.resetRegs fun a => B.KCUM m + 0x20 ≤ a && a < B.KCUM m + 0x60) = u at hreset ⊢
    split
    · have hrun : FaultTraces u (u.wrB (B.KCUM m) R.KCU_STATUS_RUNNING false) := by
        refine .of_low rfl fun a ha => State.reg_wrB _ _ _ _ _ ?_
        simp only [B.KCUM, B.HPT] at ha ⊢; omega
      generalize u.wrB (B.KCUM m) R.KCU_STATUS_RUNNING false = v at hrun ⊢
      exact (hreset.trans hrun).trans (.of_low rfl fun _ _ => rfl)
    · exact hreset.trans (.of_low rfl fun _ _ => rfl)
  · exact .refl s

theorem FaultTraces.kcuFault (s : State) (n : Nat) : FaultTraces s (s.kcuFault n) := by
  unfold State.kcuFault
  split
  · exact .kcuFree s 1 true
  · split
    · exact .kcuFree s 0 true
    · exact .refl s

/-- R423: a fault that takes no Drain leaves its traces alone. -/
theorem State.raise_of_mild (s : State) {n : Nat} (kind addr : Nat) (hn : n < 352) (h : s.mild n) :
    FaultTraces s (s.raise n kind addr) ∧ (s.raise n kind addr).sticky n = true := by
  have hq := FaultTraces.queueMsg s ⟨n, kind, addr⟩
  have hu : FaultTraces s (((s.takeMsg ⟨n, kind, addr⟩).kcuFault n)) ∧
      ((s.takeMsg ⟨n, kind, addr⟩).kcuFault n).sticky n = true := by
    rw [State.takeMsg_eq_capture]
    exact ⟨(hq.trans (.capture _ hn)).trans (.kcuFault _ n),
      (FaultTraces.kcuFault _ n).sticky n hn (State.sticky_capture _ hn)⟩
  unfold State.raise
  dsimp only
  obtain ⟨hsev, hfull⟩ := h
  rw [if_neg]
  · exact hu
  · rw [hu.1.sev n hn, hu.1.sev 28 (by omega)]
    simp only [Bool.or_eq_true, Bool.and_eq_true, decide_eq_true_eq]
    rintro (h4 | ⟨hlen, h4⟩)
    · exact hsev h4
    · rcases hfull with h | h
      · exact h h4
      · omega

/-- The present VCORE request (Table 2.14). -/
abbrev State.vreq (s : State) : Nat := s.rd B.PACE R.PACE_STATUS_VREQ

theorem State.vreq_lt (s : State) : s.vreq < 2 ^ 16 := s.rd_lt B.PACE R.PACE_STATUS_VREQ

theorem State.vreq_wr (s : State) (w : Nat) : (s.wr B.PACE R.PACE_STATUS_VREQ w).vreq = w % 2 ^ 16 :=
  s.rd_wr_same B.PACE R.PACE_STATUS_VREQ w (by decide) (by decide)

/-- A flag of PACE_FLAGS lies in another register than the request. -/
theorem State.vreq_wrB (s : State) (f : RegField) (x : Bool) (h : f.off = 0x24) : (s.wrB B.PACE f x).vreq = s.vreq :=
  State.rd_congr (State.reg_wrB _ _ _ _ _ (by rw [h]; decide))

/-! ### The regulator's acknowledgements (R39) -/

theorem avsCommandUnacknowledged_counts (s : State) (h : s.gov.nacks ≠ 2) :
    exec .avsCommandUnacknowledged s = .next { s with gov := { s.gov with nacks := s.gov.nacks + 1, sent := none } } := by
  rw [exec_avsCommandUnacknowledged, execAvsCommandUnacknowledged]
  dsimp only
  rw [if_neg (by omega)]

theorem State.mild_congr {s t : State} {n : Nat} (h : ∀ m, t.sev m = s.sev m) (hf : t.flt = s.flt) (hm : s.mild n) :
    t.mild n := by
  unfold State.mild at *; rw [h, h, hf]; exact hm

/-- What leaves the registers of fault sources leaves severities. -/
theorem State.sev_wr (s : State) (b : Nat) (f : RegField) (x m : Nat) (h : b + f.off < B.FLT + 0x1000) :
    (s.wr b f x).sev m = s.sev m :=
  State.sev_congr (State.reg_wr _ _ _ _ _ (by simp only [srcBase]; omega))

/-- R39: the third command in a row that is not acknowledged loses the regulator. -/
theorem State.avsLost_holds (s : State) (h : s.mild 5) :
    s.avsLost.vreq = s.gov.lastAck % 2 ^ 16 ∧ s.avsLost.flag B.PACE R.PACE_FLAGS_AVS_LOST = true ∧
      s.avsLost.sticky 5 = true ∧ s.avsLost.gov = s.gov ∧ s.avsLost.mode = s.mode := by
  unfold State.avsLost
  have hv := (s.wr B.PACE R.PACE_STATUS_VREQ s.gov.lastAck).vreq_wrB R.PACE_FLAGS_AVS_LOST true rfl
  rw [State.vreq_wr] at hv
  have hflag := (s.wr B.PACE R.PACE_STATUS_VREQ s.gov.lastAck).flag_wrB_same B.PACE R.PACE_FLAGS_AVS_LOST true (by decide) rfl
  have hmode : ((s.wr B.PACE R.PACE_STATUS_VREQ s.gov.lastAck).wrB B.PACE R.PACE_FLAGS_AVS_LOST true).mode = s.mode :=
    State.mode_congr ((State.reg_wrB _ _ _ _ _ (by decide)).trans (State.reg_wr _ _ _ _ _ (by decide)))
  have hmild : ((s.wr B.PACE R.PACE_STATUS_VREQ s.gov.lastAck).wrB B.PACE R.PACE_FLAGS_AVS_LOST true).mild 5 :=
    State.mild_congr (fun m => (State.sev_wr _ _ _ _ _ (by decide)).trans (State.sev_wr _ _ _ _ _ (by decide)))
      (by rw [State.wrB_flt, State.wr_flt]) h
  have hgov : ((s.wr B.PACE R.PACE_STATUS_VREQ s.gov.lastAck).wrB B.PACE R.PACE_FLAGS_AVS_LOST true).gov = s.gov := by
    rw [State.wrB_gov, State.wr_gov]
  generalize (s.wr B.PACE R.PACE_STATUS_VREQ s.gov.lastAck).wrB B.PACE R.PACE_FLAGS_AVS_LOST true = u at *
  obtain ⟨ht, hs⟩ := u.raise_of_mild 0 0 (by omega) hmild
  exact ⟨(State.rd_congr (ht.regs _ (.inl (by decide)))).trans hv, (State.flag_congr (ht.regs _ (.inl (by decide)))).trans hflag,
    hs, ht.gov.trans hgov, ht.mode.trans hmode⟩

theorem avsCommandUnacknowledged_third (s : State) (h : s.gov.nacks = 2) (hm : s.mild 5) :
    Gives .avsCommandUnacknowledged s fun t =>
      t.rd B.PACE R.PACE_STATUS_VREQ = s.gov.lastAck % 2 ^ 16 ∧ t.flag B.PACE R.PACE_FLAGS_AVS_LOST = true ∧
      t.sticky 5 = true ∧ t.gov.nacks = 3 ∧ t.mode = s.mode := by
  have he : exec .avsCommandUnacknowledged s =
      .next ({ s with gov := { s.gov with nacks := 3, sent := none } } : State).avsLost := by
    rw [exec_avsCommandUnacknowledged, execAvsCommandUnacknowledged]
    dsimp only
    rw [h, if_pos rfl]
  obtain ⟨hv, hf, hs, hg, hmode⟩ :=
    State.avsLost_holds { s with gov := { s.gov with nacks := 3, sent := none } } hm
  exact ⟨_, he, hv, hf, hs, by rw [hg], hmode⟩

/-- R39: an acknowledged resend ends AVS_LOST, where PMB0 answers. -/
theorem avsResend_acts (s : State) (again : Nat) (hl : s.flag B.PACE R.PACE_FLAGS_AVS_LOST = true) (hm : s.mode ≠ .fallow)
    (hd : s.due Tm.resend 1000000 = true) (ha : again = (if s.gov.lastAck = 0 then s.gov.goal else s.gov.lastAck)) :
    exec (.avsResend false) s = .next { s.stamp Tm.resend with out := s.out ++ [.avs again] } ∧
    (s.flag B.PWR R.PWR_BUS_STAT_PMB0_LOST = false → Gives (.avsResend true) s fun t =>
      t = { s with regs := t.regs, timers := t.timers, out := s.out ++ [.avs again], gov := { s.gov with nacks := 0, lastAck := again } } ∧
      t.rd B.PACE R.PACE_STATUS_VREQ = again % 2 ^ 16 ∧ t.flag B.PACE R.PACE_FLAGS_AVS_LOST = false ∧
      ∀ a, a ∉ [B.PACE + R.PACE_STATUS_VREQ.off, B.PACE + R.PACE_FLAGS_AVS_LOST.off] → t.reg a = s.reg a) := by
  have he (ack : Bool) : exec (.avsResend ack) s = .next
      (if ack then
        { (((s.stamp Tm.resend).emit (.avs again)).wr B.PACE R.PACE_STATUS_VREQ again).wrB B.PACE R.PACE_FLAGS_AVS_LOST
            (s.flag B.PWR R.PWR_BUS_STAT_PMB0_LOST) with gov := { s.gov with nacks := 0, lastAck := again } }
      else (s.stamp Tm.resend).emit (.avs again)) := by
    rw [exec_avsResend, execAvsResend, if_neg (by simp [hl, hm]), State.every_of_due (p := ms 1) hd, ha]
    rfl
  refine ⟨he false, fun hp => ?_⟩
  refine ⟨_, he true, ?_⟩
  rw [hp, if_pos rfl]
  have hv := (((s.stamp Tm.resend).emit (.avs again)).wr B.PACE R.PACE_STATUS_VREQ again).vreq_wrB R.PACE_FLAGS_AVS_LOST false rfl
  rw [State.vreq_wr] at hv
  have hf := (((s.stamp Tm.resend).emit (.avs again)).wr B.PACE R.PACE_STATUS_VREQ again).flag_wrB_same B.PACE
    R.PACE_FLAGS_AVS_LOST false (by decide) rfl
  refine ⟨?_, hv, hf, fun a h => ?_⟩
  · obtain ⟨ts, e1⟩ := s.stamp_eq Tm.resend
    obtain ⟨r, e2⟩ := ((s.stamp Tm.resend).emit (.avs again)).wr_eq B.PACE R.PACE_STATUS_VREQ again
    obtain ⟨r', e3⟩ := (((s.stamp Tm.resend).emit (.avs again)).wr B.PACE R.PACE_STATUS_VREQ again).wrB_eq B.PACE
      R.PACE_FLAGS_AVS_LOST false
    rw [e3, e2, e1]; rfl
  · simp only [List.mem_cons, List.not_mem_nil, or_false, not_or] at h
    exact (State.reg_wrB _ _ _ _ _ h.2).trans (State.reg_wr _ _ _ _ _ h.1)

/-! ### Device power and the surge credit (R45, R46) -/

/-- Successive readings above 600 W, this one included. -/
def State.aboveAfter (s : State) : Nat :=
  if 600000 < s.devicePower then sat 65535 (s.rd B.PWR R.PWR_SURGE_ABOVE + 1) else 0

/-- The surge credit after a reading of the present power. -/
def State.creditAfter (s : State) : Nat :=
  if 600000 < s.devicePower then s.gov.credit - (s.devicePower - 600000)
  else sat 40000000 (s.gov.credit + (600000 - s.devicePower))

/-- The reading ends a surge. -/
def State.surgeEnds (s : State) : Bool :=
  600000 < s.devicePower && (s.creditAfter = 0 || s.aboveAfter = 400) && !s.gov.surgeEnd

/-- The governor's record after a reading. -/
def State.govAfter (s : State) : Gov :=
  { s.gov with readV := s.vreq, credit := s.creditAfter,
               surgeEnd := (s.gov.surgeEnd || s.surgeEnds) && s.creditAfter < 40000000,
               backoff := 700000 < s.devicePower || (s.gov.backoff && 680000 < s.devicePower) }

/-- The reading and what it does to the credit are shown. -/
def State.powerShown (s : State) : State :=
  ({ s.wr B.PWR R.PWR_POWER_POWER (sat 0xFFFFF s.devicePower) with gov := s.govAfter }.wr B.PWR R.PWR_SURGE_ABOVE
    s.aboveAfter).wr B.PWR R.PWR_SURGE_CREDIT (s.creditAfter / 10000)

/-- The end of a surge is counted, and CAPPED follows. -/
def State.surgeShown (s : State) (ends was : Bool) : State :=
  let s := if ends then s.bump B.PWR R.PWR_SURGE_COUNT_COUNT else s
  if s.gov.surgeEnd then s.wrB B.PACE R.PACE_FLAGS_CAPPED true
  else if was then s.wrB B.PACE R.PACE_FLAGS_CAPPED false else s

theorem State.powerRead_eq (s : State) :
    s.powerRead = (s.powerShown.surgeShown s.surgeEnds s.gov.surgeEnd).calibrationStep := by
  have hv : (s.wr B.PWR R.PWR_POWER_POWER (sat 0xFFFFF s.devicePower)).rd B.PACE R.PACE_STATUS_VREQ = s.vreq :=
    State.rd_congr (State.reg_wr _ _ _ _ _ (by decide))
  have ha : (s.wr B.PWR R.PWR_POWER_POWER (sat 0xFFFFF s.devicePower)).rd B.PWR R.PWR_SURGE_ABOVE =
      s.rd B.PWR R.PWR_SURGE_ABOVE := State.rd_congr (State.reg_wr _ _ _ _ _ (by decide))
  simp only [State.powerRead, State.powerShown, State.surgeShown, State.surgeEnds, State.govAfter, State.creditAfter,
    State.aboveAfter, hv, ha, State.wr_gov]
  rfl

theorem State.calibrationStep_eq (s : State) :
    ∃ c g, s.calibrationStep = { s with gov := { s.gov with calTable := c, goal := g } } := by
  unfold State.calibrationStep
  dsimp only
  split
  · exact ⟨_, _, rfl⟩
  · exact ⟨s.gov.calTable, s.gov.goal, rfl⟩

theorem State.bump_eq (s : State) (b : Nat) (f : RegField) : ∃ r, s.bump b f = { s with regs := r } := ⟨_, rfl⟩

/-- The surge counter and CAPPED lie apart from the registers of Table 2.17 below them. -/
theorem State.surgeShown_holds (s : State) (ends was : Bool) :
    (∃ r, s.surgeShown ends was = { s with regs := r }) ∧
    (∀ a, a < B.PWR + 0x20 → (s.surgeShown ends was).reg a = s.reg a) ∧
    (s.gov.surgeEnd = true → (s.surgeShown ends was).flag B.PACE R.PACE_FLAGS_CAPPED = true) := by
  have hb : ∃ r, (if ends then s.bump B.PWR R.PWR_SURGE_COUNT_COUNT else s) = { s with regs := r } := by
    split
    · exact s.bump_eq _ _
    · exact ⟨_, rfl⟩
  have hr : ∀ a, a < B.PWR + 0x20 → (if ends then s.bump B.PWR R.PWR_SURGE_COUNT_COUNT else s).reg a = s.reg a := by
    intro a ha
    split
    · exact State.reg_wr _ _ _ _ _ (by simp only [R.PWR_SURGE_COUNT_COUNT]; omega)
    · rfl
  have hg : (if ends then s.bump B.PWR R.PWR_SURGE_COUNT_COUNT else s).gov = s.gov := by
    obtain ⟨r, e⟩ := hb; rw [e]
  unfold State.surgeShown
  dsimp only
  rw [hg]
  generalize (if ends then s.bump B.PWR R.PWR_SURGE_COUNT_COUNT else s) = u at *
  have hw (x : Bool) : (∃ r, u.wrB B.PACE R.PACE_FLAGS_CAPPED x = { s with regs := r }) ∧
      ∀ a, a < B.PWR + 0x20 → (u.wrB B.PACE R.PACE_FLAGS_CAPPED x).reg a = s.reg a := by
    refine ⟨?_, fun a ha => (State.reg_wrB _ _ _ _ _ ?_).trans (hr a ha)⟩
    · obtain ⟨r, e⟩ := u.wrB_eq B.PACE R.PACE_FLAGS_CAPPED x
      obtain ⟨r', e'⟩ := hb
      exact ⟨r, by rw [e, e']⟩
    · simp only [B.PWR, B.PACE, R.PACE_FLAGS_CAPPED] at ha ⊢; omega
  split
  · exact ⟨(hw true).1, (hw true).2, fun _ => u.flag_wrB_same _ _ _ (by decide) rfl⟩
  · rename_i hs
    split
    · exact ⟨(hw false).1, (hw false).2, fun h => absurd h hs⟩
    · exact ⟨hb, hr, fun h => absurd h hs⟩

theorem sat_lt_succ (m v : Nat) : sat m v < m + 1 := by
  unfold sat; split <;> omega

theorem sat_eq_min (m v : Nat) : sat m v = min m v := by
  unfold sat; split <;> omega

theorem State.powerShown_holds (s : State) :
    s.powerShown.rd B.PWR R.PWR_POWER_POWER = min 0xFFFFF s.devicePower ∧
    s.powerShown.rd B.PWR R.PWR_SURGE_ABOVE = s.aboveAfter ∧ s.powerShown.gov = s.govAfter ∧
    ∃ r, s.powerShown = { s with regs := r, gov := s.govAfter } := by
  unfold State.powerShown
  refine ⟨?_, ?_, rfl, ?_⟩
  · rw [State.rd_wr_ne _ _ _ _ _ _ (by decide) (by decide) (.inl (by decide)),
      State.rd_wr_ne _ _ _ _ _ _ (by decide) (by decide) (.inl (by decide))]
    refine (s.rd_wr_same _ _ _ (by decide) (by decide)).trans ?_
    exact (Nat.mod_eq_of_lt (sat_lt_succ 0xFFFFF _)).trans (sat_eq_min _ _)
  · rw [State.rd_wr_ne _ _ _ _ _ _ (by decide) (by decide) (.inr (.inr (by decide))),
      State.rd_wr_same _ _ _ _ (by decide) (by decide)]
    refine Nat.mod_eq_of_lt ?_
    unfold State.aboveAfter
    split
    · exact sat_lt_succ 65535 _
    · decide
  · obtain ⟨r, e⟩ := s.wr_eq B.PWR R.PWR_POWER_POWER (sat 0xFFFFF s.devicePower)
    rw [e]; exact ⟨_, rfl⟩

/-- What a reading of device power leaves behind. -/
structure PowerRead (s t : State) : Prop where
  rest : t = { s with regs := t.regs, gov := t.gov }
  power : t.rd B.PWR R.PWR_POWER_POWER = min 0xFFFFF s.devicePower
  above : t.rd B.PWR R.PWR_SURGE_ABOVE = s.aboveAfter
  readV : t.gov.readV = s.vreq
  credit : t.gov.credit = s.creditAfter
  surgeEnd : t.gov.surgeEnd = s.govAfter.surgeEnd
  backoff : t.gov.backoff = s.govAfter.backoff
  capped : t.gov.surgeEnd = true → t.flag B.PACE R.PACE_FLAGS_CAPPED = true

theorem State.powerRead_holds (s : State) : PowerRead s s.powerRead := by
  obtain ⟨hp, ha, hg, r, e⟩ := s.powerShown_holds
  obtain ⟨⟨r', e'⟩, hr, hc⟩ := s.powerShown.surgeShown_holds s.surgeEnds s.gov.surgeEnd
  obtain ⟨c, g, ec⟩ := (s.powerShown.surgeShown s.surgeEnds s.gov.surgeEnd).calibrationStep_eq
  have hgov : (s.powerShown.surgeShown s.surgeEnds s.gov.surgeEnd).gov = s.govAfter := by rw [e', hg]
  have hp' := (State.rd_congr (hr _ (by decide))).trans hp
  have ha' := (State.rd_congr (hr _ (by decide))).trans ha
  have hrest : ∃ r g, s.powerShown.surgeShown s.surgeEnds s.gov.surgeEnd = { s with regs := r, gov := g } := by
    rw [e', e]; exact ⟨_, _, rfl⟩
  rw [State.powerRead_eq, ec]
  rw [hg] at hc
  generalize s.powerShown.surgeShown s.surgeEnds s.gov.surgeEnd = u at *
  have hfields : u.gov.readV = s.vreq ∧ u.gov.credit = s.creditAfter := by rw [hgov]; exact ⟨rfl, rfl⟩
  refine ⟨?_, hp', ha', hfields.1, hfields.2, by rw [hgov], by rw [hgov], fun h => hc (hgov ▸ h)⟩
  obtain ⟨r1, g1, e1⟩ := hrest
  rw [e1]

/-- R45: from a credit within its bound, a reading above 600 W that empties it, or the 400th in a row, ends the surge. -/
theorem State.govAfter_surgeEnd (s : State) (h : 600000 < s.devicePower) (hn : s.gov.surgeEnd = false)
    (hc : s.gov.credit ≤ 40000000) (he : s.gov.credit ≤ s.devicePower - 600000 ∨ s.rd B.PWR R.PWR_SURGE_ABOVE = 399) :
    s.govAfter.surgeEnd = true := by
  have hcredit : s.creditAfter = s.gov.credit - (s.devicePower - 600000) := by rw [State.creditAfter, if_pos h]
  have hends : s.creditAfter = 0 ∨ s.aboveAfter = 400 := by
    rcases he with he | he
    · left; omega
    · right; rw [State.aboveAfter, if_pos h, he]; rfl
  simp only [State.govAfter, State.surgeEnds, hn, Bool.false_or, Bool.not_false, Bool.and_true, Bool.and_eq_true,
    Bool.or_eq_true, decide_eq_true_eq]
  exact ⟨⟨h, hends⟩, by omega⟩

/-- R45, R46: a reading of device power. -/
theorem powerReading_acts (i : Fin 65536) (s u : State) (hp : s.flag B.PWR R.PWR_BUS_STAT_PMB0_LOST = false)
    (hd : s.due Tm.power 100000 = true) (hu : u = s.wr (railBase 0) R.PWR_RAIL_CURRENT i) :
    Gives (.powerReading i) s fun t =>
      t = { s with regs := t.regs, gov := t.gov, timers := t.timers } ∧
      t.rd B.PWR R.PWR_POWER_POWER = min 0xFFFFF u.devicePower ∧ t.gov.readV = s.rd B.PACE R.PACE_STATUS_VREQ ∧
      (u.devicePower ≤ 600000 → t.gov.credit = min 40000000 (s.gov.credit + (600000 - u.devicePower)) ∧
        t.rd B.PWR R.PWR_SURGE_ABOVE = 0) ∧
      (600000 < u.devicePower → t.gov.credit = s.gov.credit - (u.devicePower - 600000) ∧
        t.rd B.PWR R.PWR_SURGE_ABOVE = min 65535 (s.rd B.PWR R.PWR_SURGE_ABOVE + 1)) ∧
      (600000 < u.devicePower → s.gov.surgeEnd = false → s.gov.credit ≤ 40000000 →
        s.gov.credit ≤ u.devicePower - 600000 ∨ s.rd B.PWR R.PWR_SURGE_ABOVE = 399 →
        t.gov.surgeEnd = true ∧ t.flag B.PACE R.PACE_FLAGS_CAPPED = true) ∧
      (700000 < u.devicePower → t.gov.backoff = true) ∧ (u.devicePower ≤ 680000 → t.gov.backoff = false) := by
  have he : exec (.powerReading i) s = .next ((s.stamp Tm.power).wr (railBase 0) R.PWR_RAIL_CURRENT i).powerRead := by
    rw [exec_powerReading, execPowerReading, if_neg (by simp [hp]), State.every_of_due (p := us 100) hd]
  have hw : ∃ ts, (s.stamp Tm.power).wr (railBase 0) R.PWR_RAIL_CURRENT i = { u with timers := ts } := by
    obtain ⟨ts, e⟩ := s.stamp_eq Tm.power
    rw [e, hu]; exact ⟨ts, rfl⟩
  have hv : u.vreq = s.vreq := by rw [hu]; exact State.rd_congr (State.reg_wr _ _ _ _ _ (by decide))
  have ha : u.rd B.PWR R.PWR_SURGE_ABOVE = s.rd B.PWR R.PWR_SURGE_ABOVE := by
    rw [hu]; exact State.rd_congr (State.reg_wr _ _ _ _ _ (by decide))
  have hg : u.gov = s.gov := by rw [hu, State.wr_gov]
  have hus : ∃ r, u = { s with regs := r } := by rw [hu]; exact s.wr_eq _ _ _
  obtain ⟨ts, ew⟩ := hw
  rw [ew] at he
  have h := State.powerRead_holds { u with timers := ts }
  have hdp : ({ u with timers := ts } : State).devicePower = u.devicePower := rfl
  have hab : ({ u with timers := ts } : State).aboveAfter = u.aboveAfter := rfl
  have hcr : ({ u with timers := ts } : State).creditAfter = u.creditAfter := rfl
  have hga : ({ u with timers := ts } : State).govAfter = u.govAfter := rfl
  have hvr : ({ u with timers := ts } : State).vreq = u.vreq := rfl
  generalize ({ u with timers := ts } : State).powerRead = t at *
  refine ⟨t, he, ?_, h.power, h.readV.trans (hvr.trans hv), fun hlo => ?_, fun hhi => ?_, fun hhi hn hc hx => ?_,
    fun hhi => ?_, fun hlo => ?_⟩
  · obtain ⟨r, e⟩ := hus
    have := h.rest
    rw [e] at this; rw [this]
  · rw [h.credit, h.above, hcr, hab, State.creditAfter, State.aboveAfter, if_neg (by omega), if_neg (by omega), sat_eq_min, hg]
    exact ⟨rfl, rfl⟩
  · rw [h.credit, h.above, hcr, hab, State.creditAfter, State.aboveAfter, if_pos hhi, if_pos hhi, sat_eq_min, hg, ha]
    exact ⟨rfl, rfl⟩
  · have hend : t.gov.surgeEnd = true := by
      rw [h.surgeEnd, hga]; exact u.govAfter_surgeEnd hhi (hg ▸ hn) (hg ▸ hc) (by rw [hg, ha]; exact hx)
    exact ⟨hend, h.capped hend⟩
  · rw [h.backoff, hga]; simp [State.govAfter, hhi]
  · rw [h.backoff, hga]
    simp only [State.govAfter, Bool.or_eq_false_iff, Bool.and_eq_false_iff, decide_eq_false_iff_not]
    exact ⟨by omega, .inr (by omega)⟩

/-! ### Temperature (R47) -/

/-- The highest of the sensors, at least 0. -/
def tjOf (l : List Int) : Nat := (l.foldl max 0).toNat

theorem tjOf_cast (l : List Int) : (tjOf l : Int) = l.foldl max 0 := by
  refine Int.toNat_of_nonneg (not_lt.mp fun h => ?_)
  exact absurd (foldl_max_lt_iff.mp h).1 (lt_irrefl _)

theorem tjOf_lt {l : List Int} {b : Nat} (hb : 0 < b) : tjOf l < b ↔ ∀ x ∈ l, x < (b : Int) := by
  rw [← Int.ofNat_lt, tjOf_cast, foldl_max_lt_iff]
  exact and_iff_right (by exact_mod_cast hb)

/-- The reading is shown and its runs are counted. -/
def State.tjShown (s : State) (tj : Nat) : State :=
  { s.wr B.PWR R.PWR_TJ_TJ (sat 255 tj) with
    gov := { s.gov with above100 := run2 (100 < tj) s.gov.above100, below100 := run2 (tj ≤ 100) s.gov.below100,
                        above115 := run2 (115 < tj) s.gov.above115, below115 := run2 (tj ≤ 115) s.gov.below115,
                        above125 := run2 (125 ≤ tj) s.gov.above125 } }

/-- Forced Trickle begins, or ends, on two readings in a row (Table 2.6). -/
def State.tjForced (s : State) : State :=
  if s.gov.above115 = 2 && !s.modes.forced then
    ({ s with modes := { s.modes with forced := true } }.raise 4 0 0).trigger .trickle
  else if s.gov.below115 = 2 then { s with modes := { s.modes with forced := false } }
  else s

theorem State.tjRead_eq (s : State) (l : List Int) :
    s.tjRead l = if (s.tjShown (tjOf l)).tjForced.gov.above125 = 2 && s.gov.above125 < 2
      then (s.tjShown (tjOf l)).tjForced.raise 0 0 0 else (s.tjShown (tjOf l)).tjForced := by
  simp only [State.tjRead, State.tjForced, State.tjShown, tjOf, State.wr_gov, State.wr_modes]
  rfl

theorem State.tjShown_eq (s : State) (tj : Nat) : ∃ r, s.tjShown tj =
    { s with regs := r, gov := { s.gov with
        above100 := run2 (100 < tj) s.gov.above100, below100 := run2 (tj ≤ 100) s.gov.below100,
        above115 := run2 (115 < tj) s.gov.above115, below115 := run2 (tj ≤ 115) s.gov.below115,
        above125 := run2 (125 ≤ tj) s.gov.above125 } } := by
  obtain ⟨r, e⟩ := s.wr_eq B.PWR R.PWR_TJ_TJ (sat 255 tj)
  unfold State.tjShown; rw [e]; exact ⟨r, rfl⟩

theorem State.tjShown_reg (s : State) (tj a : Nat) (h : a ≠ B.PWR + R.PWR_TJ_TJ.off) : (s.tjShown tj).reg a = s.reg a :=
  State.reg_wr s _ _ _ _ h

theorem State.tjShown_rd (s : State) (tj : Nat) : (s.tjShown tj).rd B.PWR R.PWR_TJ_TJ = sat 255 tj :=
  (s.rd_wr_same _ _ _ (by decide) (by decide)).trans (Nat.mod_eq_of_lt (sat_lt_succ 255 _))

theorem run2_of_ne_zero {b : Bool} {n : Nat} (h : n ≠ 0) : run2 b n = if b then 2 else 0 := by
  unfold run2; split <;> omega

theorem run2_zero (b : Bool) : run2 b 0 = if b then 1 else 0 := rfl

/-- A first reading acts on nothing but the end of forced Trickle. -/
theorem tjReading_shows (l : List Int) (s : State) (hd : s.due Tm.tj 100000 = true) (h115 : s.gov.above115 = 0)
    (h125 : s.gov.above125 = 0) (hl : ∀ x ∈ l, x ≤ 255) :
    Gives (.tjReading l) s fun t =>
      t = { s with regs := t.regs, gov := t.gov, modes := t.modes, timers := t.timers } ∧ t.mode = s.mode ∧
      (t.rd B.PWR R.PWR_TJ_TJ : Int) = l.foldl max 0 ∧
      t.gov.above115 = (if 115 < l.foldl max 0 then 1 else 0) := by
  have he : exec (.tjReading l) s = .next ((s.stamp Tm.tj).tjRead l) := by
    rw [exec_tjReading, execTjReading, State.every_of_due (p := us 100) hd]
  have hrd := (s.stamp Tm.tj).tjShown_rd (tjOf l)
  have hmode : ((s.stamp Tm.tj).tjShown (tjOf l)).mode = s.mode :=
    State.mode_congr (((s.stamp Tm.tj).tjShown_reg _ _ (by decide)).trans (s.reg_stamp _ _))
  obtain ⟨ts, e0⟩ := s.stamp_eq Tm.tj
  obtain ⟨r, e⟩ := (s.stamp Tm.tj).tjShown_eq (tjOf l)
  have hgov : ((s.stamp Tm.tj).tjShown (tjOf l)).gov.above115 = (if 115 < tjOf l then 1 else 0) ∧
      ((s.stamp Tm.tj).tjShown (tjOf l)).gov.above125 ≤ 1 := by
    rw [e]
    simp only [State.stamp_gov, h115, h125, run2_zero, decide_eq_true_eq]
    exact ⟨trivial, by split <;> omega⟩
  rw [State.tjRead_eq] at he
  have hforced : ∃ m, ((s.stamp Tm.tj).tjShown (tjOf l)).tjForced = { (s.stamp Tm.tj).tjShown (tjOf l) with modes := m } := by
    unfold State.tjForced
    rw [if_neg (by rw [hgov.1]; split <;> simp)]
    split
    · exact ⟨_, rfl⟩
    · exact ⟨_, rfl⟩
  have hrest : ∃ r g ts, (s.stamp Tm.tj).tjShown (tjOf l) = { s with regs := r, gov := g, timers := ts } := by
    rw [e, e0]; exact ⟨_, _, _, rfl⟩
  generalize (s.stamp Tm.tj).tjShown (tjOf l) = u at *
  obtain ⟨m, em⟩ := hforced
  rw [em, if_neg (by simp only [Bool.and_eq_true, decide_eq_true_eq]; omega)] at he
  refine ⟨_, he, ?_, hmode, ?_, ?_⟩
  · obtain ⟨r', g', ts', e'⟩ := hrest
    rw [e']
  · have hlt : tjOf l < 256 := (tjOf_lt (by omega)).mpr fun x hx => by have := hl x hx; omega
    have : u.rd B.PWR R.PWR_TJ_TJ = tjOf l := by rw [hrd, sat_eq_min]; omega
    exact (congrArg Nat.cast this).trans (tjOf_cast l)
  · refine hgov.1.trans ?_
    rw [← tjOf_cast]
    exact if_congr (by omega) rfl rfl

/-- R47: a second reading above 115 °C forces Trickle; during a transition the trigger waits (R85). -/
theorem tjReading_forces (l : List Int) (s : State) (hd : s.due Tm.tj 100000 = true) (h115 : s.gov.above115 ≠ 0)
    (hf : s.modes.forced = false) (hhot : ∃ x ∈ l, 115 < x) (hl : ∀ x ∈ l, x < 125) (hm : s.mild 4) (hb : s.busy = true) :
    Gives (.tjReading l) s fun t => t.modes.forced = true ∧ t.sticky 4 = true ∧
      t.modes.waiting = s.modes.waiting ++ [.trickle] := by
  have he : exec (.tjReading l) s = .next ((s.stamp Tm.tj).tjRead l) := by
    rw [exec_tjReading, execTjReading, State.every_of_due (p := us 100) hd]
  have hhigh : 115 < tjOf l := by
    obtain ⟨x, hx, h⟩ := hhot
    refine not_le.mp fun hle => ?_
    have := (tjOf_lt (l := l) (b := 116) (by omega)).mp (by omega) x hx
    omega
  have hlow : tjOf l < 125 := (tjOf_lt (by omega)).mpr hl
  obtain ⟨ts, e0⟩ := s.stamp_eq Tm.tj
  obtain ⟨r, e⟩ := (s.stamp Tm.tj).tjShown_eq (tjOf l)
  have hreg (a : Nat) (h : a ≠ B.PWR + R.PWR_TJ_TJ.off) : ((s.stamp Tm.tj).tjShown (tjOf l)).reg a = s.reg a :=
    ((s.stamp Tm.tj).tjShown_reg _ _ h).trans (s.reg_stamp _ _)
  have hgov : ((s.stamp Tm.tj).tjShown (tjOf l)).gov.above115 = 2 ∧ ((s.stamp Tm.tj).tjShown (tjOf l)).gov.above125 = 0 := by
    rw [e]
    simp only [State.stamp_gov]
    exact ⟨by rw [run2_of_ne_zero h115, if_pos (decide_eq_true hhigh)], by rw [run2, if_neg (by simpa using hlow)]⟩
  have hmodes : ((s.stamp Tm.tj).tjShown (tjOf l)).modes = s.modes := by rw [e, e0]
  have hflt : ((s.stamp Tm.tj).tjShown (tjOf l)).flt = s.flt := by rw [e, e0]
  rw [State.tjRead_eq] at he
  generalize (s.stamp Tm.tj).tjShown (tjOf l) = u at *
  have hmild : ({ u with modes := { u.modes with forced := true } } : State).mild 4 :=
    State.mild_congr (fun m => State.sev_congr (hreg _ (by simp only [srcBase, B.FLT, B.PWR, R.PWR_TJ_TJ]; omega))) hflt hm
  have hbusy : ({ u with modes := { u.modes with forced := true } } : State).busy = true :=
    (State.flag_congr (hreg _ (by decide))).trans hb
  obtain ⟨ht, hs⟩ := State.raise_of_mild { u with modes := { u.modes with forced := true } } 0 0 (by omega) hmild
  have hforced : u.tjForced = ({ u with modes := { u.modes with forced := true } }.raise 4 0 0).trigger .trickle := by
    rw [State.tjForced, if_pos (by simp [hgov.1, hmodes, hf])]
  have hg := ht.gov
  have hmo := ht.modes
  have hbu := ht.busy.trans hbusy
  generalize ({ u with modes := { u.modes with forced := true } }.raise 4 0 0) = v at *
  rw [State.trigger, if_pos hbu] at hforced
  rw [hforced, if_neg (by simp only [hg, hgov.2]; simp)] at he
  refine ⟨_, he, ?_, hs, ?_⟩
  · rw [hmo]
  · rw [hmo, hmodes]

/-! ### The governor's loop (R38, R40, R46) -/

/-- The governor asks for `w`, where that is a new request. -/
def State.moveTo (s : State) (ack : Bool) (w : Nat) : State :=
  if w = s.vreq then s else if ack then (s.request w).acknowledged else s.request w

/-- What one step of the loop asks for on P_m. -/
def State.loopRequest (s : State) (step p : Nat) : Nat :=
  slewTo s.vreq (s.clampV (if s.gov.backoff then s.vreq - 5 else (s.loopWant p (1 + step % 5)).1))

theorem State.loopStep_of_loopRuns (s : State) (step p : Nat) (ack : Bool) (hl : s.loopRuns = true) (hp : s.paceMin = some p) :
    ∃ c, s.loopStep step ack = (((s.moveTo ack (s.loopRequest step p)).wrB B.PACE R.PACE_FLAGS_CAPPED c).wrB B.PACE
      R.PACE_FLAGS_TARGET_UNREACHED (s.loopRequest step p =
          ((s.moveTo ack (s.loopRequest step p)).wrB B.PACE R.PACE_FLAGS_CAPPED c).vCeil &&
        decide (p < ((s.moveTo ack (s.loopRequest step p)).wrB B.PACE R.PACE_FLAGS_CAPPED c).paceTarget
          ((s.moveTo ack (s.loopRequest step p)).wrB B.PACE R.PACE_FLAGS_CAPPED c).policy))) := by
  simp only [State.loopRuns, Bool.and_eq_true, Option.isNone_iff_eq_none] at hl
  obtain ⟨hm, hh⟩ := hl
  refine ⟨s.gov.surgeEnd || (s.loopWant p (1 + step % 5)).2, ?_⟩
  unfold State.loopStep
  simp only [hm, hh, hp, Bool.not_true, Bool.false_eq_true, if_false]
  rfl

theorem State.loopStep_of_held (s : State) (step g : Nat) (ack : Bool) (hm : s.mayRequest = true) (hh : s.heldRequest = some g)
    (hb : s.gov.backoff = false) :
    s.loopStep step ack = s.moveTo ack (slewTo s.vreq (if s.mode = .drain then g else s.clampV g)) := by
  unfold State.loopStep
  simp only [hm, hh, hb, Bool.not_true, Bool.false_eq_true, if_false]
  rfl

/-- A request that is new is sent; one that the regulator acknowledges at once is the last acknowledged one. -/
theorem State.moveTo_of_ne (s : State) (ack : Bool) {w : Nat} (h : w ≠ s.vreq) :
    ∃ g, s.moveTo ack w = { s.wr B.PACE R.PACE_STATUS_VREQ w with gov := g, out := s.out ++ [.avs w] } ∧
      (ack = true → g.lastAck = w ∧ g.nacks = 0 ∧ g.sent = none) ∧
      g.surgeEnd = s.gov.surgeEnd ∧ g.above100 = s.gov.above100 := by
  unfold State.moveTo
  rw [if_neg h]
  cases ack with
  | false => exact ⟨_, rfl, fun h => absurd h (by simp), rfl, rfl⟩
  | true => exact ⟨_, rfl, fun _ => ⟨rfl, rfl, rfl⟩, rfl, rfl⟩

theorem State.moveTo_vreq (s : State) (ack : Bool) {w : Nat} (h : w < 2 ^ 16) : (s.moveTo ack w).vreq = w := by
  by_cases hw : w = s.vreq
  · rw [State.moveTo, if_pos hw, hw]
  · obtain ⟨g, e, -⟩ := s.moveTo_of_ne ack hw
    rw [e]; exact (s.vreq_wr w).trans (Nat.mod_eq_of_lt h)

/-- `t` has the registers of `s` but for the request and the flags, and what else the ceiling, the policy and the target
are made of. -/
structure SameTarget (s t : State) : Prop where
  reg : ∀ a, a ≠ B.PACE + 0x20 → a ≠ B.PACE + 0x24 → t.reg a = s.reg a
  surge : t.gov.surgeEnd = s.gov.surgeEnd
  above : t.gov.above100 = s.gov.above100
  staging : t.staging = s.staging
  arrivals : t.arrivals = s.arrivals
  now : t.now = s.now

theorem SameTarget.vCeil {s t : State} (h : SameTarget s t) : t.vCeil = s.vCeil := by
  have h1 : t.rd B.PACE R.PACE_VLIMIT_VMAX = s.rd B.PACE R.PACE_VLIMIT_VMAX := State.rd_congr (h.reg _ (by decide) (by decide))
  have h2 : t.rd B.PWR R.PWR_TJ_TJ = s.rd B.PWR R.PWR_TJ_TJ := State.rd_congr (h.reg _ (by decide) (by decide))
  unfold State.vCeil State.thermalCeil
  rw [h1, h2, h.above]

theorem SameTarget.policy {s t : State} (h : SameTarget s t) : t.policy = s.policy := by
  have hr (f : RegField) (h0 : f.off < 0x20) : t.rd B.PACE f = s.rd B.PACE f :=
    State.rd_congr (h.reg _ (by omega) (by omega))
  unfold State.policy
  rw [hr R.PACE_FOLLOW_FLOOR (by decide), hr R.PACE_FOLLOW_HEADROOM (by decide), hr R.PACE_CTRL_POLICY (by decide),
    hr R.PACE_CAP_CAP (by decide), State.mode_congr (h.reg _ (by decide) (by decide)), h.surge]

theorem SameTarget.paceTarget {s t : State} (h : SameTarget s t) (p : Policy) : t.paceTarget p = s.paceTarget p := by
  have hr : t.rd B.PACE R.PACE_TARGET_TARGET = s.rd B.PACE R.PACE_TARGET_TARGET :=
    State.rd_congr (h.reg _ (by decide) (by decide))
  have hd : t.demand = s.demand := by unfold State.demand; rw [h.arrivals, h.now]
  unfold State.paceTarget
  rw [hr, hd, h.staging]

theorem SameTarget.moveTo (s : State) (ack : Bool) (w : Nat) : SameTarget s (s.moveTo ack w) := by
  by_cases hw : w = s.vreq
  · rw [State.moveTo, if_pos hw]; exact ⟨fun _ _ _ => rfl, rfl, rfl, rfl, rfl, rfl⟩
  · obtain ⟨g, e, -, hs, ha⟩ := s.moveTo_of_ne ack hw
    rw [e]
    exact ⟨fun a h _ => s.reg_wr B.PACE a R.PACE_STATUS_VREQ w h, hs, ha, s.wr_staging B.PACE R.PACE_STATUS_VREQ w,
      s.wr_arrivals B.PACE R.PACE_STATUS_VREQ w, s.wr_now B.PACE R.PACE_STATUS_VREQ w⟩

theorem SameTarget.flag {s t : State} (h : SameTarget s t) (f : RegField) (x : Bool) (hf : f.off = 0x24) :
    SameTarget s (t.wrB B.PACE f x) :=
  ⟨fun a h1 h2 => (t.reg_wrB B.PACE a f x (by rw [hf]; exact h2)).trans (h.reg a h1 h2),
    by rw [State.wrB_gov, h.surge], by rw [State.wrB_gov, h.above], by rw [State.wrB_staging, h.staging],
    by rw [State.wrB_arrivals, h.arrivals], by rw [State.wrB_now, h.now]⟩

/-- One step of the loop on P_m: the request it makes, what else it may change, and TARGET_UNREACHED. -/
structure LoopStepped (s t : State) (ack : Bool) (p w : Nat) : Prop where
  vreq : t.vreq = w
  same : w = s.vreq → t = { s with regs := t.regs }
  moved : w ≠ s.vreq → t = { s with regs := t.regs, gov := t.gov, out := s.out ++ [.avs w] }
  acked : w ≠ s.vreq → ack = true → t.gov.lastAck = w ∧ t.gov.nacks = 0 ∧ t.gov.sent = none
  unreached : t.flag B.PACE R.PACE_FLAGS_TARGET_UNREACHED = (decide (w = s.vCeil) && decide (p < s.paceTarget s.policy))

theorem State.loopStep_holds (s : State) (step p : Nat) (ack : Bool) (hl : s.loopRuns = true) (hp : s.paceMin = some p)
    (hw : s.loopRequest step p < 2 ^ 16) : LoopStepped s (s.loopStep step ack) ack p (s.loopRequest step p) := by
  obtain ⟨c, e⟩ := s.loopStep_of_loopRuns step p ack hl hp
  rw [e]
  generalize s.loopRequest step p = w at *
  have hsame := (SameTarget.moveTo s ack w).flag R.PACE_FLAGS_CAPPED c rfl
  have hvreq : ((s.moveTo ack w).wrB B.PACE R.PACE_FLAGS_CAPPED c).vreq = w :=
    (State.vreq_wrB _ _ _ rfl).trans (s.moveTo_vreq ack hw)
  obtain ⟨r, e1⟩ := (s.moveTo ack w).wrB_eq B.PACE R.PACE_FLAGS_CAPPED c
  have hmove : (w = s.vreq → ∃ r, (s.moveTo ack w).wrB B.PACE R.PACE_FLAGS_CAPPED c = { s with regs := r }) ∧
      (w ≠ s.vreq → ∃ r g, (s.moveTo ack w).wrB B.PACE R.PACE_FLAGS_CAPPED c =
          { s with regs := r, gov := g, out := s.out ++ [.avs w] } ∧
        (ack = true → g.lastAck = w ∧ g.nacks = 0 ∧ g.sent = none)) := by
    refine ⟨fun h => ⟨r, ?_⟩, fun h => ?_⟩
    · rw [e1, State.moveTo, if_pos h]
    · obtain ⟨g, e2, ha, -⟩ := s.moveTo_of_ne ack h
      obtain ⟨r', e3⟩ := s.wr_eq B.PACE R.PACE_STATUS_VREQ w
      exact ⟨r, g, by rw [e1, e2, e3], ha⟩
  rw [hsame.vCeil, hsame.policy, hsame.paceTarget]
  generalize (s.moveTo ack w).wrB B.PACE R.PACE_FLAGS_CAPPED c = u at *
  obtain ⟨r2, e2⟩ := u.wrB_eq B.PACE R.PACE_FLAGS_TARGET_UNREACHED (decide (w = s.vCeil) && decide (p < s.paceTarget s.policy))
  refine ⟨(u.vreq_wrB _ _ rfl).trans hvreq, fun h => ?_, fun h => ?_, fun h ha => ?_, u.flag_wrB_same _ _ _ (by decide) rfl⟩
  · obtain ⟨r3, e3⟩ := hmove.1 h
    rw [e2, e3]
  · obtain ⟨r3, g, e3, -⟩ := hmove.2 h
    rw [e2, e3]
  · obtain ⟨r3, g, e3, hack⟩ := hmove.2 h
    rw [e2, e3]; exact hack ha

/-- A request within [VMIN, V_ceil] stays as it is (R38). -/
theorem State.clampV_of_mem {s : State} {v : Nat} (hl : s.rd B.PACE R.PACE_VLIMIT_VMIN ≤ v) (hh : v ≤ s.vCeil) :
    s.clampV v = v := by
  unfold State.clampV
  dsimp only
  rw [if_neg (by omega), if_neg (by omega), if_neg (by omega)]

/-- A request within one step of the present one is reached at once (R38). -/
theorem slewTo_of_near {v w : Nat} (h1 : v ≤ w + 5) (h2 : w ≤ v + 5) : slewTo v w = w := by
  unfold slewTo
  split
  · rfl
  · rw [if_neg (by omega), if_neg (by omega)]

theorem State.loopRequest_eq {s : State} {step p w : Nat}
    (hw : (if s.gov.backoff then s.vreq - 5 else (s.loopWant p (1 + step % 5)).1) = w)
    (hl : s.rd B.PACE R.PACE_VLIMIT_VMIN ≤ w) (hh : w ≤ s.vCeil) (h1 : s.vreq ≤ w + 5) (h2 : w ≤ s.vreq + 5) :
    s.loopRequest step p = w := by
  rw [State.loopRequest, hw, State.clampV_of_mem hl hh, slewTo_of_near h1 h2]

/-- Without a power limit, the loop asks for more below the target and for less above 1.01 times it (Table 2.3). -/
theorem State.loopWant_of_uncapped {s : State} (p d : Nat) (h : s.policy.cap = none) :
    (s.loopWant p d).1 = if p < s.paceTarget s.policy then s.vreq + d
      else if 101 * s.paceTarget s.policy < 100 * p then s.vreq - d else s.vreq := by
  unfold State.loopWant
  dsimp only
  rw [h]

theorem State.vCeil_lt (s : State) : s.vCeil < 2 ^ 16 := by
  have h : s.rd B.PACE R.PACE_VLIMIT_VMAX < 2 ^ 16 := s.rd_lt B.PACE R.PACE_VLIMIT_VMAX
  unfold State.vCeil
  dsimp only
  split <;> omega


/-! ### The clauses of the loop -/

theorem exec_governorLoopStep_of_due (f : Nat) (ack : Bool) (s : State) (hd : s.due Tm.governor 500 = true) :
    exec (.governorLoopStep f ack) s = .next ((s.stamp Tm.governor).loopStep f ack) := by
  rw [exec_governorLoopStep, execGovernorLoopStep, State.every_of_due hd]

section
variable (f : Nat) (ack : Bool) (s : State) (p : Nat) (hd : s.due Tm.governor 500 = true) (hl : s.loopRuns = true)
  (hp : s.paceMin = some p)
include hd hl hp

/-- A new request `w` of the loop on P_m, where it lies within bounds and one step. -/
theorem governorLoopStep_moves (w : Nat) (hne : w ≠ s.vreq)
    (hw : (if s.gov.backoff then s.vreq - 5 else (s.loopWant p (1 + f % 5)).1) = w)
    (hlo : s.rd B.PACE R.PACE_VLIMIT_VMIN ≤ w) (hhi : w ≤ s.vCeil) (h1 : s.vreq ≤ w + 5) (h2 : w ≤ s.vreq + 5) :
    Gives (.governorLoopStep f ack) s fun t => t.vreq = w ∧
      t = { s with regs := t.regs, gov := t.gov, timers := t.timers, out := s.out ++ [.avs w] } ∧
      (ack = true → t.gov.lastAck = w ∧ t.gov.nacks = 0 ∧ t.gov.sent = none) ∧
      t.flag B.PACE R.PACE_FLAGS_TARGET_UNREACHED = (decide (w = s.vCeil) && decide (p < s.paceTarget s.policy)) := by
  have hreq : (s.stamp Tm.governor).loopRequest f p = w := State.loopRequest_eq (s := s.stamp Tm.governor) hw hlo hhi h1 h2
  have hc := s.vCeil_lt
  have h := (s.stamp Tm.governor).loopStep_holds f p ack hl hp (by rw [hreq]; omega)
  rw [hreq] at h
  refine ⟨_, exec_governorLoopStep_of_due f ack s hd, h.vreq, ?_, h.acked hne, h.unreached⟩
  have e := h.moved hne
  obtain ⟨ts, es⟩ := s.stamp_eq Tm.governor
  generalize (s.stamp Tm.governor).loopStep f ack = t at *
  rw [e, es]

/-- The loop keeps its request. -/
theorem governorLoopStep_keeps (hw : (if s.gov.backoff then s.vreq - 5 else (s.loopWant p (1 + f % 5)).1) = s.vreq)
    (hlo : s.rd B.PACE R.PACE_VLIMIT_VMIN ≤ s.vreq) (hhi : s.vreq ≤ s.vCeil) :
    Gives (.governorLoopStep f ack) s fun t => t.vreq = s.vreq ∧ t = { s with regs := t.regs, timers := t.timers } := by
  have hreq : (s.stamp Tm.governor).loopRequest f p = s.vreq :=
    State.loopRequest_eq (s := s.stamp Tm.governor) hw hlo hhi (Nat.le_add_right _ _) (Nat.le_add_right _ _)
  have h := (s.stamp Tm.governor).loopStep_holds f p ack hl hp (by rw [hreq]; exact s.vreq_lt)
  rw [hreq] at h
  refine ⟨_, exec_governorLoopStep_of_due f ack s hd, h.vreq, ?_⟩
  have e := h.same rfl
  obtain ⟨ts, es⟩ := s.stamp_eq Tm.governor
  generalize (s.stamp Tm.governor).loopStep f ack = t at *
  rw [e, es]

end

/-- R38, R40, R46: one step of the governor's loop on P_m, under no power limit. -/
theorem governorLoopStep_acts (f : Nat) (ack : Bool) (s : State) (p : Nat) (hd : s.due Tm.governor 500 = true)
    (hl : s.loopRuns = true) (hp : s.paceMin = some p) (hc : s.policy.cap = none)
    (hlo : s.rd B.PACE R.PACE_VLIMIT_VMIN ≤ s.vreq) (hhi : s.vreq ≤ s.vCeil) :
    (p < s.paceTarget s.policy → s.gov.backoff = false → s.vreq + 5 ≤ s.vCeil → Gives (.governorLoopStep f ack) s fun t =>
      s.vreq + 1 ≤ t.vreq ∧ t.vreq ≤ s.vreq + 5 ∧
      t = { s with regs := t.regs, gov := t.gov, timers := t.timers, out := s.out ++ [.avs t.vreq] } ∧
      (ack = true → t.gov.lastAck = t.vreq ∧ t.gov.nacks = 0 ∧ t.gov.sent = none) ∧
      t.flag B.PACE R.PACE_FLAGS_TARGET_UNREACHED = decide (t.vreq = s.vCeil)) ∧
    (101 * s.paceTarget s.policy < 100 * p → s.gov.backoff = false → s.rd B.PACE R.PACE_VLIMIT_VMIN + 5 ≤ s.vreq →
      Gives (.governorLoopStep f ack) s fun t => s.vreq ≤ t.vreq + 5 ∧ t.vreq + 1 ≤ s.vreq ∧
        t = { s with regs := t.regs, gov := t.gov, timers := t.timers, out := s.out ++ [.avs t.vreq] }) ∧
    (s.paceTarget s.policy ≤ p → 100 * p ≤ 101 * s.paceTarget s.policy → s.gov.backoff = false →
      Gives (.governorLoopStep f ack) s fun t => t.vreq = s.vreq ∧ t = { s with regs := t.regs, timers := t.timers }) ∧
    (s.gov.backoff = true → s.rd B.PACE R.PACE_VLIMIT_VMIN + 5 ≤ s.vreq → Gives (.governorLoopStep f ack) s fun t =>
      t.vreq + 5 = s.vreq ∧
      t = { s with regs := t.regs, gov := t.gov, timers := t.timers, out := s.out ++ [.avs t.vreq] }) := by
  have hwant (hb : s.gov.backoff = false) : (if s.gov.backoff then s.vreq - 5 else (s.loopWant p (1 + f % 5)).1) =
      if p < s.paceTarget s.policy then s.vreq + (1 + f % 5)
      else if 101 * s.paceTarget s.policy < 100 * p then s.vreq - (1 + f % 5) else s.vreq := by
    rw [hb, if_neg Bool.false_ne_true, State.loopWant_of_uncapped p _ hc]
  have hstep : f % 5 < 5 := Nat.mod_lt _ (by omega)
  refine ⟨fun hlt hb h5 => ?_, fun hgt hb h5 => ?_, fun hge hle hb => ?_, fun hb h5 => ?_⟩
  · obtain ⟨t, he, hv, ht, ha, hu⟩ := governorLoopStep_moves f ack s p hd hl hp (s.vreq + (1 + f % 5)) (by omega)
      ((hwant hb).trans (if_pos hlt)) (by omega) (by omega) (by omega) (by omega)
    rw [decide_eq_true hlt, Bool.and_true] at hu
    rw [← hv] at ht ha hu
    exact ⟨t, he, by omega, by omega, ht, ha, hu⟩
  · obtain ⟨t, he, hv, ht, -⟩ := governorLoopStep_moves f ack s p hd hl hp (s.vreq - (1 + f % 5)) (by omega)
      ((hwant hb).trans (by rw [if_neg (by omega), if_pos hgt])) (by omega) (by omega) (by omega) (by omega)
    rw [← hv] at ht
    exact ⟨t, he, by omega, by omega, ht⟩
  · exact governorLoopStep_keeps f ack s p hd hl hp
      ((hwant hb).trans (by rw [if_neg (by omega), if_neg (by omega)])) hlo hhi
  · obtain ⟨t, he, hv, ht, -⟩ := governorLoopStep_moves f ack s p hd hl hp (s.vreq - 5) (by omega)
      (if_pos hb) (by omega) (by omega) (by omega) (by omega)
    rw [← hv] at ht
    exact ⟨t, he, by omega, ht⟩

/-- Table 2.4: where the governor may not request it changes nothing; in Drain the request goes to 720 mV at the full slew
rate. -/
theorem governorLoopStep_off_or_drain (f : Nat) (ack : Bool) (s : State) (hd : s.due Tm.governor 500 = true) :
    (s.mayRequest = false → exec (.governorLoopStep f ack) s = .next (s.stamp Tm.governor)) ∧
    (s.mayRequest = true → s.mode = .drain → s.gov.backoff = false → Gives (.governorLoopStep f ack) s fun t =>
      t.vreq = (if s.vreq = 0 then 720 else if 725 < s.vreq then s.vreq - 5
        else if s.vreq + 5 < 720 then s.vreq + 5 else 720)) := by
  refine ⟨fun hm => ?_, fun hm hmode hb => ⟨_, exec_governorLoopStep_of_due f ack s hd, ?_⟩⟩
  · have hoff : (s.stamp Tm.governor).mayRequest = false := hm
    rw [exec_governorLoopStep_of_due f ack s hd, State.loopStep]
    simp only [hoff, Bool.not_false, if_true]
  · have hmode' : (s.stamp Tm.governor).mode = .drain := hmode
    have hheld : (s.stamp Tm.governor).heldRequest = some 720 := by rw [State.heldRequest, hmode']
    have hlt := s.vreq_lt
    have hw : slewTo s.vreq 720 < 2 ^ 16 := by unfold slewTo; split <;> [skip; split <;> [skip; split]] <;> omega
    rw [State.loopStep_of_held (s.stamp Tm.governor) f 720 ack hm hheld hb, if_pos hmode']
    exact State.moveTo_vreq _ ack hw

/-! ### What the power-up of a domain leaves: the modes, the powered domains, the severities

`Steady a s`: since `a` no transition and no switching of domains has begun or ended. -/

structure Steady (a s : State) : Prop where
  modes : s.modes = a.modes
  image : s.image = a.image
  reg : ∀ x, x = B.DEV + 0x10 ∨ B.PWR ≤ x ∧ x ≤ B.PWR + 8 → s.reg x = a.reg x
  sev : ∀ n, n < 352 → s.sev n = a.sev n

theorem Steady.refl (s : State) : Steady s s := ⟨rfl, rfl, fun _ _ => rfl, fun _ _ => rfl⟩

section
variable {a s : State} (h : Steady a s)
include h

theorem Steady.mode : s.mode = a.mode := State.mode_congr (h.reg _ (.inl rfl))

theorem Steady.busy : s.busy = a.busy := State.flag_congr (f := R.DEV_MODE_BUSY) (h.reg _ (.inl rfl))

theorem Steady.domOn {d : Nat} (hd : d < 80) : s.domOn d = a.domOn d := State.domOn_congr (h.reg _ (.inr (by omega)))

/-- What leaves every register below the performance counters' block, and the modes and the image, leaves the rest. -/
theorem Steady.of_low {t : State} (hm : t.modes = s.modes) (hi : t.image = s.image)
    (hr : ∀ x, x < 0x4_0000 → t.reg x = s.reg x) : Steady a t where
  modes := hm.trans h.modes
  image := hi.trans h.image
  reg x hx := (hr x (by simp only [B.DEV, B.PWR] at hx; omega)).trans (h.reg x hx)
  sev n hn := (State.sev_congr (hr _ (Nat.lt_trans (srcBase_lt hn) (by decide)))).trans (h.sev n hn)

theorem Steady.of_regs {t : State} (hm : t.modes = s.modes) (hi : t.image = s.image) (hr : t.regs = s.regs) : Steady a t :=
  h.of_low hm hi fun x _ => State.reg_congr hr x

theorem Steady.faults {t : State} (ht : FaultTraces s t) : Steady a t where
  modes := ht.modes.trans h.modes
  image := ht.image.trans h.image
  reg x hx := (ht.regs x (.inl (by simp only [B.DEV, B.PWR, B.FLT] at hx ⊢; omega))).trans (h.reg x hx)
  sev n hn := (ht.sev n hn).trans (h.sev n hn)

theorem Steady.setReg {k : Nat} (v : Word) (hk : 0x4_0000 ≤ k) : Steady a (s.setReg k v) :=
  h.of_low (s.setReg_modes k v) (s.setReg_image k v) fun x hx => s.reg_setReg_ne k x v (by omega)

theorem Steady.wr {b : Nat} (f : RegField) (v : Nat) (hb : 0x4_0000 ≤ b) : Steady a (s.wr b f v) :=
  h.setReg _ (Nat.le_add_right_of_le hb)

theorem Steady.wrB {b : Nat} (f : RegField) (v : Bool) (hb : 0x4_0000 ≤ b) : Steady a (s.wrB b f v) := h.wr _ _ hb

theorem Steady.wrW {k : Nat} (v : Nat) (hk : 0x4_0000 ≤ k) : Steady a (s.wrW k v) := h.setReg _ hk

theorem Steady.stamp (k : Nat) : Steady a (s.stamp k) := h.of_regs rfl rfl rfl

theorem Steady.emit (o : Out) : Steady a (s.emit o) := h.of_regs rfl rfl rfl

theorem Steady.count (k : Nat) : Steady a (s.count k) := h.faults (.count s k)

theorem Steady.mild {n : Nat} (hn : n < 352) (hs : a.sev n ≠ 4) (h28 : a.sev 28 ≠ 4) : s.mild n :=
  ⟨by rw [h.sev n hn]; exact hs, .inl (by rw [h.sev 28 (by omega)]; exact h28)⟩

theorem Steady.raise {n : Nat} (k x : Nat) (hn : n < 352) (hs : a.sev n ≠ 4) (h28 : a.sev 28 ≠ 4) : Steady a (s.raise n k x) :=
  h.faults (s.raise_of_mild k x hn (h.mild hn hs h28)).1

end

/-- A fold of steps that each leave it. -/
theorem Steady.fold {β : Type} {a : State} {f : State → β → State} {l : List β} {s : State} (h : Steady a s)
    (hf : ∀ s x, x ∈ l → Steady a s → Steady a (f s x)) : Steady a (l.foldl f s) :=
  List.foldlRecOn (motive := Steady a) l f h fun s hs x hx => hf s x hx hs

theorem Steady.ite {a s t : State} {c : Prop} [Decidable c] (h : Steady a s) (k : Steady a t) : Steady a (if c then s else t) := by
  split
  · exact h
  · exact k

/-! #### Settings, microcode and ports -/

/-- Everything below the performance counters' block lies in PD0 (Table 1.5). -/
theorem domAt_low {x : Nat} (h : x < 0x4_0000) : (domAt x).getD 0 = 0 := by
  have hw : x / 0x1_0000 = 0 ∨ x / 0x1_0000 = 1 ∨ x / 0x1_0000 = 2 ∨ x / 0x1_0000 = 3 := by omega
  unfold domAt locate
  dsimp only
  rw [if_pos (by omega)]
  rcases hw with hw | hw | hw | hw <;> rw [hw] <;> rfl

theorem eth_high (g : Nat) : 0x4_0000 ≤ B.ETH g := by unfold B.ETH; omega
theorem portBase_high (p : Nat) : 0x4_0000 ≤ portBase p := Nat.le_add_right_of_le (eth_high _)
theorem tlr_high (t : Nat) : 0x4_0000 ≤ B.TLR t := by unfold B.TLR B.QUAD; omega
theorem husk_high (k : Nat) : 0x4_0000 ≤ B.HUSK k := by unfold B.HUSK B.QUAD; omega
theorem pipe_high (k : Nat) : 0x4_0000 ≤ B.PIPE k := by
  unfold B.PIPE; split
  · unfold B.HDR B.QUAD; omega
  · exact tlr_high _

section
variable {a s : State} (h : Steady a s)
include h

theorem Steady.fitFec (g : Nat) : Steady a (s.fitFec g) := by
  unfold State.fitFec
  exact .ite h (h.fold fun s k _ hs => hs.wr _ _ (Nat.le_add_right_of_le (eth_high g)))

theorem Steady.loadSetting {k : Nat} (v : Word) (hk : 0x4_0000 ≤ k) : Steady a (s.loadSetting k v) := by
  unfold State.loadSetting
  split
  · exact h.setReg v hk
  · exact .ite h (.ite ((h.wrW _ hk).fitFec _) (h.wrW _ hk))

/-- Settings of a domain other than PD0. -/
theorem Steady.loadSettings {d : Nat} (hd : d ≠ 0) : Steady a (s.loadSettings (· = d)) := by
  unfold State.loadSettings
  refine h.fold fun s e _ hs => ?_
  dsimp only
  split
  · rename_i hc
    rw [Bool.and_eq_true, decide_eq_true_eq] at hc
    exact hs.loadSetting _ (not_lt.mp fun hlt => hd (hc.1 ▸ domAt_low hlt))
  · exact hs

theorem Steady.stageBank (k src dst : Nat) (ws : List (Nat × Nat × Nat)) : Steady a (s.stageBank k src dst ws) := by
  unfold State.stageBank
  have hf {u : State} (hu : Steady a u) : Steady a ((List.range (gatesOf k)).foldl (fun s g =>
      s.wr (B.PIPE k + 8 * g + 4 * dst) R.G_ENTRY_ENTRY
        (if vendorGate k g then s.entryWord k g src else entryOf ws k g)) u) :=
    hu.fold fun s g _ hs => hs.wr _ _ (Nat.le_add_right_of_le (Nat.le_add_right_of_le (pipe_high k)))
  refine .ite (Steady.setReg (hf ?_) _ (Nat.le_add_right_of_le (Nat.le_add_right_of_le (husk_high k)))) (hf ?_) <;>
    exact h.of_regs rfl rfl rfl

theorem Steady.loadMicro (k : Nat) : Steady a (s.loadMicro k) := by
  unfold State.loadMicro
  refine .ite ?_ (Steady.stageBank ?_ k 0 0 _) <;> exact h.of_regs rfl rfl rfl

theorem Steady.wrPair {k : Nat} (v : Nat) (hk : 0x4_0000 ≤ k) : Steady a (s.wrPair k v) :=
  (h.wrW _ hk).wrW _ (Nat.le_add_right_of_le hk)

theorem Steady.fillSpread (p : Nat) : Steady a (s.fillSpread p) := by
  unfold State.fillSpread
  exact (h.wrPair _ (Nat.le_add_right_of_le (eth_high _))).wrPair _ (Nat.le_add_right_of_le (eth_high _))

theorem Steady.assignSlot (p t : Nat) : Steady a (s.assignSlot p t) := by
  unfold State.assignSlot
  split
  · exact h
  · rename_i k _
    have hb : 0x4_0000 ≤ B.TLR t + 0x100 * k := Nat.le_add_right_of_le (tlr_high t)
    have h2 := (h.wrB R.TLR_SLOT_CFG_EN true hb).wr R.TLR_SLOT_CFG_PORT p hb
    exact .ite ((h2.wrB _ _ hb).wr _ _ hb) h2

theorem Steady.setUpPorts (ok : Nat → Bool) : Steady a (s.setUpPorts ok) := by
  unfold State.setUpPorts
  refine h.fold fun s p _ hs => ?_
  refine Steady.fold (.ite (hs.fillSpread p) hs) fun s t _ hs => ?_
  exact .ite (hs.assignSlot p t) hs

theorem Steady.calibrate (u : Nat) : Steady a (s.calibrate u) := h.of_regs rfl rfl rfl

theorem Steady.moduleSeen (g : Nat) : Steady a (s.moduleSeen g) := by
  unfold State.moduleSeen
  have hw := (((h.wrB R.ETH_MOD_STATUS_PRESENT true (eth_high g)).wrB R.ETH_MOD_STATUS_FEED_ON true (eth_high g)).wrB
    R.ETH_MOD_STATUS_TRIP false (eth_high g)).wrB R.ETH_MOD_STATUS_ISOLATED false (eth_high g)
  exact .ite h (hw.of_regs rfl rfl rfl)

theorem Steady.startCores (c : Nat) : Steady a (s.startCores c) := by
  unfold State.startCores State.releaseCores
  refine Steady.fold (h.of_regs rfl rfl rfl) fun s i _ hs => hs.wrB _ _ ?_
  unfold B.CMB; omega

theorem Steady.drainDoneLow : Steady a (s.wrB B.PWR R.PWR_PINS_DRAIN_DONE false) where
  modes := (s.wrB_modes _ _ _).trans h.modes
  image := (s.wrB_image _ _ _).trans h.image
  reg x hx := (s.reg_wrB _ _ _ _ (by simp only [B.DEV, B.PWR, R.PWR_PINS_DRAIN_DONE] at hx ⊢; omega)).trans (h.reg x hx)
  sev n hn := (State.sev_wr s _ _ _ n (by decide)).trans (h.sev n hn)

/-- What a unit does at power good leaves the modes and the domains (Table 2.7). -/
theorem Steady.domainUp {d : Nat} (hd : d ≠ 0) : Steady a (s.domainUp d) := by
  unfold State.domainUp
  have h1 : Steady a (if metered d then s.stamp (Tm.meterCal d) else s) := .ite (h.stamp _) h
  have h2 : Steady a (if 29 ≤ d && d ≤ 60 then (if metered d then s.stamp (Tm.meterCal d) else s).calibrate (d - 29)
      else if metered d then s.stamp (Tm.meterCal d) else s) := .ite (h1.calibrate _) h1
  dsimp only
  generalize (if 29 ≤ d && d ≤ 60 then (if metered d then s.stamp (Tm.meterCal d) else s).calibrate (d - 29)
    else if metered d then s.stamp (Tm.meterCal d) else s) = u at h2
  split
  · exact (h2.loadSettings hd).loadMicro _
  split
  · exact ((((h2.loadSettings hd).setUpPorts _).loadSettings hd).loadMicro _).loadMicro _
  split
  · exact (h2.loadSettings hd).of_regs rfl rfl rfl
  split
  · have h3 : Steady a ((List.range' (4 * (d - 29)) 4).foldl (fun s p => s.stamp (Tm.unaligned p)) u) :=
      h2.fold fun s p _ hs => hs.stamp _
    exact (Steady.ite (h3.loadSettings hd) h3).moduleSeen _
  split
  · exact h2.of_regs rfl rfl rfl
  split
  · exact h2.drainDoneLow.emit _
  split
  · exact h2.of_regs rfl rfl rfl
  · exact .ite (h2.startCores _) h2

end

/-! #### Modules, keys and the ends of commands -/

section
variable {a s : State} (h : Steady a s)
include h

theorem Steady.pktEnd (k : Pkt) : Steady a (s.pktEnd k) := by
  unfold State.pktEnd
  refine .ite ?_ h
  unfold State.onChain
  split
  · exact h
  · exact h.of_regs rfl rfl rfl

theorem Steady.flushOne (k : Pkt) (dest : Nat) : Steady a (s.flushOne k dest) := by
  unfold State.flushOne
  exact Steady.pktEnd (.ite (h.count _) h) k

theorem Steady.setEgress (t : Nat) (x : EgrSt) : Steady a (s.setEgress t x) := h.of_regs rfl rfl rfl

theorem Steady.flushEgress (t : Nat) (mine : EPkt → Bool) : Steady a (s.flushEgress t mine) := by
  unfold State.flushEgress
  exact Steady.setEgress (h.fold fun s p _ hs => hs.flushOne _ _) _ _

theorem Steady.cutPort (p : Nat) : Steady a (s.cutPort p) := by
  unfold State.cutPort
  dsimp only
  refine Steady.fold ?_ fun s k _ hs => hs.of_regs rfl rfl rfl
  exact h.of_regs rfl rfl rfl

theorem Steady.flushPort (p : Nat) : Steady a (s.flushPort p) := by
  unfold State.flushPort
  exact Steady.fold (h.cutPort p) fun s t _ hs => (hs.flushEgress t _).setEgress t _

/-- A link that goes down raises the Note fault of its port. -/
theorem Steady.linkDown {p : Nat} (remote hiBer : Bool) (hp : portLG p < 24) (hs : a.sev (176 + 4 * portLG p) ≠ 4)
    (h28 : a.sev 28 ≠ 4) : Steady a (s.linkDown p remote hiBer) := by
  unfold State.linkDown
  have hb := portBase_high p
  have h1 : Steady a (if s.sending p then (s.emit (.abort p)).count (portCnt p C.ETH_TX_ABORT) else s) :=
    .ite ((h.emit _).count _) h
  have h2 := (((((h1.wrB R.ETH_PORT_STATUS_LINK_UP false hb).wrB R.ETH_PORT_STATUS_ALIGNED remote hb).wrB
    R.ETH_PORT_STATUS_REMOTE_FAULT remote hb).wrB R.ETH_PORT_STATUS_HI_BER hiBer hb).wrB
    R.ETH_PORT_STATUS_AN_DONE false hb).count (portCnt p C.ETH_LINK_DOWN)
  dsimp only
  generalize State.count _ _ = u at h2 ⊢
  have h3 : Steady a { u with eth := { u.eth with xoffSent := tput (fun _ => 0) u.eth.xoffSent p 0,
                                                  txEnd := tput (fun _ => 0) u.eth.txEnd p 0 } } := h2.of_regs rfl rfl rfl
  exact Steady.raise (Steady.flushPort (.ite h3 (h3.stamp _)) p) _ _ (by omega) hs h28

theorem Steady.judgeModule {g : Nat} (hg : g < 24) (h0 : a.sev (176 + 4 * g) ≠ 4) (h2 : a.sev (178 + 4 * g) ≠ 4)
    (h28 : a.sev 28 ≠ 4) : Steady a (s.judgeModule g) := by
  unfold State.judgeModule
  split
  · exact h
  · refine .ite h (.ite (h.of_regs rfl rfl rfl) ?_)
    have hports : Steady a (((List.range' (4 * g) 4).filter s.portUp).foldl (fun s p => s.linkDown p false false) s) := by
      refine h.fold fun s p hp hs => ?_
      have hpg : portLG p = g := by
        have := List.mem_range'_1.mp (List.mem_of_mem_filter hp)
        unfold portLG; omega
      exact hs.linkDown false false (hpg ▸ hg) (by rw [hpg]; exact h0) h28
    have h2' : a.sev (176 + 4 * g + 2) ≠ 4 := by rw [show 176 + 4 * g + 2 = 178 + 4 * g by omega]; exact h2
    exact (hports.emit _).raise _ _ (by omega) h2' h28

/-- Where the keys do not unwrap, source 14 is raised. -/
theorem Steady.keysUp (h14 : a.sev 14 ≠ 4) (h28 : a.sev 28 ≠ 4) : Steady a s.keysUp := by
  unfold State.keysUp
  refine .ite h ?_
  dsimp only
  have h1 {x : List Byte} {k : Option (List Byte)} : Steady a (match k with
      | some k => if x = [] then { s with keks := tput (fun _ => []) s.keks 1 k } else s
      | none => s) := by
    split
    · exact .ite (h.of_regs rfl rfl rfl) h
    · exact h
  refine Steady.fold ?_ fun s e _ hs => .ite (hs.of_regs rfl rfl rfl) (hs.raise 0 0 (by omega) h14 h28)
  refine .ite h1 (.ite ?_ ?_)
  · exact h1.of_regs rfl rfl rfl
  · exact h1.of_regs rfl rfl rfl

theorem Steady.finishWith (q : Req) (f : Final) : Steady a (s.finishWith q f) := by
  cases hc : (s.tag q).cur with
  | none => unfold State.finishWith; rw [hc]; exact h
  | some c =>
    have e := (s.finishWith_ends q f c hc).rest
    refine h.of_low (by rw [e.rest]) (by rw [e.rest]) fun x hx => e.regs x ?_
    cases q with
    | host m t => simp only [resultReg, B.LKP, B.HPT, R.LKP_HMB_INFLIGHT_TAGS, R.HPT_LINK_PM]; omega
    | core n => exact not_false

theorem Steady.settleOld (q : Req) (g e : Nat) : Steady a (s.settleOld q g e) := by
  unfold State.settleOld
  split
  · exact .ite (h.of_regs rfl rfl rfl) h
  · exact h

theorem Steady.endJobs (o b : Nat) (f : Final) : Steady a (s.endJobs o b f) := by
  unfold State.endJobs
  refine h.fold fun s j _ hs => ?_
  unfold State.endJob
  have h1 : Steady a { s with jobs := s.jobs.filter (· ≠ j) } := hs.of_regs rfl rfl rfl
  exact .ite (h1.finishWith _ f) (h1.settleOld _ _ _)

end

/-! ### The queue of domains to be switched on (R49) -/

/-- The first of the domains can be switched on, so none is passed over. -/
theorem State.setToPower_of_needsOn (s : State) {e : Nat} (l : List Nat) (h : s.needsOn e = true) :
    ∃ ts fd, s.setToPower (e :: l) = { s with timers := ts, modes := { s.modes with toPower := e :: l, failedDoms := fd } } := by
  unfold State.setToPower
  rw [State.skipUnneeded, if_pos h]
  simp only [Nat.sub_self, List.take_zero, List.foldl_nil]
  split
  · exact ⟨_, _, rfl⟩
  · exact ⟨_, _, rfl⟩

theorem State.domainsEnded_of_more {s : State} (h : s.modes.toPower ≠ []) : s.domainsEnded = s := by
  rw [State.domainsEnded, if_pos h]

theorem State.advance_of_idle {s : State} (h : s.busy = false) : s.advance = s := by
  unfold State.advance
  simp only [h, Bool.not_false, if_true]

theorem State.testWaiting_of_calm {s : State} (hb : s.busy = false) (hw : s.modes.waiting = []) (hf : s.modes.forced = false) :
    s.testWaiting = s := by
  have hm : ({ s with modes := { s.modes with waiting := [] } } : State) = s := by
    have : ({ s.modes with waiting := [] } : ModeSt) = s.modes := by rw [← hw]
    rw [this]
  unfold State.testWaiting
  rw [hb, hw, if_neg (by simp)]
  dsimp only [List.foldl_nil]
  rw [hm, State.forcedEntry, hf, if_neg (by simp)]

/-- A domain at the head of the queue, another one behind it that can be switched on next, and nothing else under way. -/
structure SwitchingOn (s : State) (d e : Nat) (l : List Nat) : Prop where
  some_ : d ≠ 0
  next : e ≠ d
  queue : s.modes.toPower = d :: e :: l
  needs : needs s e = [0]
  root : s.domOn 0 = true
  idle : s.busy = false
  waiting : s.modes.waiting = []
  forced : s.modes.forced = false

theorem needs_congr {s t : State} (h : t.image = s.image) (e : Nat) : needs t e = needs s e := by
  unfold needs State.coreMemLen
  rw [h]

/-- The queue moves on to the next domain, and the DOMAIN_SET of the first ends. -/
theorem State.queue_moves_on {s u : State} {d e : Nat} {l : List Nat} (h : SwitchingOn s d e l) (hu : Steady s u)
    (f : Final) : ∃ fd, Steady { s with modes := { s.modes with toPower := e :: l, failedDoms := fd } }
      ((u.setToPower (u.modes.toPower.erase d)).endJobs 0x0703 d f) := by
  have hq : u.modes.toPower.erase d = e :: l := by rw [hu.modes, h.queue, List.erase_cons_head]
  have hn : u.needsOn e = true := by
    rw [State.needsOn, needs_congr hu.image, h.needs, List.all_cons, hu.domOn (by omega), h.root]; rfl
  obtain ⟨ts, fd, e1⟩ := u.setToPower_of_needsOn l hn
  refine ⟨fd, ?_⟩
  rw [hq, e1]
  refine Steady.endJobs ?_ _ _ _
  exact ⟨by rw [hu.modes], hu.image, hu.reg, hu.sev⟩

/-- What the obligation says of both outcomes of a switch-on. -/
theorem SwitchingOn.poweredUp {s : State} {d e : Nat} {l : List Nat} (h : SwitchingOn s d e l) (hd : d < 80)
    (h14 : s.sev 14 ≠ 4) (h28 : s.sev 28 ≠ 4) (hmod : ∀ n ∈ [176 + 4 * (d - 29), 178 + 4 * (d - 29)], s.sev n ≠ 4) :
    (s.poweredUp d).modes.toPower = e :: l ∧ (s.poweredUp d).mode = s.mode ∧
      ∀ f, f < 80 → (s.poweredUp d).domOn f = if f = d then true else s.domOn f := by
  have hon : SwitchingOn (s.setDom d true) d e l := by
    refine ⟨h.some_, h.next, h.queue, h.needs, ?_, ?_, h.waiting, h.forced⟩
    · rw [State.domOn_setDom, h.root, ite_self]
    · exact (State.flag_congr (s.reg_wrW _ _ _ |>.trans (if_neg (by simp only [B.DEV, B.PWR, R.DEV_MODE_BUSY]; omega)))).trans h.idle
  have hsev (n : Nat) : (s.setDom d true).sev n = s.sev n :=
    State.sev_congr ((s.reg_wrW _ _ _).trans (if_neg (by simp only [srcBase, B.FLT, B.PWR]; omega)))
  have hmode : (s.setDom d true).mode = s.mode :=
    State.mode_congr ((s.reg_wrW _ _ _).trans (if_neg (by simp only [B.DEV, B.PWR]; omega)))
  have hdom (f : Nat) : (s.setDom d true).domOn f = if f = d then true else s.domOn f := s.domOn_setDom d f true
  unfold State.poweredUp
  dsimp only
  generalize s.setDom d true = a at *
  have h1 : Steady a (a.domainUp d) := (Steady.refl a).domainUp h.some_
  have h2 : Steady a (if 29 ≤ d && d ≤ 52 && (a.domainUp d).mode ≠ .priming then (a.domainUp d).judgeModule (d - 29)
      else a.domainUp d) := by
    split
    · rename_i hc
      simp only [Bool.and_eq_true, decide_eq_true_eq] at hc
      exact h1.judgeModule (by omega) (by rw [hsev]; exact hmod _ (by simp)) (by rw [hsev]; exact hmod _ (by simp))
        (by rw [hsev]; exact h28)
    · exact h1
  generalize (if 29 ≤ d && d ≤ 52 && (a.domainUp d).mode ≠ .priming then (a.domainUp d).judgeModule (d - 29)
      else a.domainUp d) = b at h2 ⊢
  have h3 : Steady a (if d = 74 || d = 77 then b.keysUp else b) :=
    .ite (h2.keysUp (by rw [hsev]; exact h14) (by rw [hsev]; exact h28)) h2
  generalize (if d = 74 || d = 77 then b.keysUp else b) = c at h3 ⊢
  obtain ⟨fd, hv⟩ := State.queue_moves_on hon h3 (Final.mk' St.DONE 0 [])
  generalize State.endJobs _ _ _ _ = v at hv ⊢
  have hq : v.modes.toPower = e :: l := by rw [hv.modes]
  have hbusy : v.busy = false := hv.busy.trans hon.idle
  rw [State.domainsEnded_of_more (by rw [hq]; simp), State.advance_of_idle hbusy,
    State.testWaiting_of_calm hbusy (by rw [hv.modes]; exact hon.waiting) (by rw [hv.modes]; exact hon.forced)]
  exact ⟨hq, hv.mode.trans hmode, fun f hf => (hv.domOn hf).trans (hdom f)⟩

theorem SwitchingOn.domainFails {s : State} {d e : Nat} {l : List Nat} (h : SwitchingOn s d e l)
    (h6 : s.sev 6 ≠ 4) (h28 : s.sev 28 ≠ 4) :
    (s.domainFails d).modes.toPower = e :: l ∧ (s.domainFails d).mode = s.mode ∧
      (∀ f, f < 80 → (s.domainFails d).domOn f = s.domOn f) ∧
      (s.domainFails d).modes.stepFault = true ∧ (s.domainFails d).sticky 6 = true := by
  unfold State.domainFails
  dsimp only
  have hon : SwitchingOn { s with modes := { s.modes with stepFault := true, failedDoms := s.modes.failedDoms ++ [d] } } d e l :=
    ⟨h.some_, h.next, h.queue, h.needs, h.root, h.idle, h.waiting, h.forced⟩
  obtain ⟨fd, hv⟩ := State.queue_moves_on hon (Steady.refl _) (Final.mk' St.NO_RESOURCE 0 [])
  generalize State.endJobs _ _ _ _ = v at hv ⊢
  have hq : v.modes.toPower = e :: l := by rw [hv.modes]
  obtain ⟨ht, hs⟩ := v.raise_of_mild 0 0 (by omega) (hv.mild (n := 6) (by omega) h6 h28)
  have hw := hv.faults ht
  rw [State.domainsEnded_of_more (by rw [hq]; simp)]
  generalize v.raise 6 0 0 = w at *
  have hbusy : w.busy = false := hw.busy.trans h.idle
  rw [State.advance_of_idle hbusy,
    State.testWaiting_of_calm hbusy (by rw [hw.modes]; exact h.waiting) (by rw [hw.modes]; exact h.forced)]
  exact ⟨by rw [hw.modes], hw.mode, fun f hf => hw.domOn hf, by rw [hw.modes], hs⟩

/-- R49: the domain at the head of the queue is on after its power good, or given up past its bound. -/
theorem domainPowerGood_acts (d : Dom) (e : Nat) (l : List Nat) (s : State) (h1 : 1 ≤ d.val) (hed : e ≠ d.val)
    (hq : s.modes.toPower = d.val :: e :: l) (hn : s.needsOn d = true) (he : needs s e = [0]) (h0 : s.domOn 0 = true)
    (hc : s.busy = false ∧ s.modes.waiting = [] ∧ s.modes.forced = false) (h28 : s.sev 28 ≠ 4)
    (hsev : ∀ n ∈ [6, 14, 176 + 4 * (d.val - 29), 178 + 4 * (d.val - 29)], s.sev n ≠ 4) :
    Gives (.domainPowerGood d) s fun t => t.modes.toPower = e :: l ∧ t.mode = s.mode ∧
      (∀ f, f < 80 → f ≠ d.val → t.domOn f = s.domOn f) ∧
      (s.domainLate d = false → t.domOn d = true) ∧
      (s.domainLate d = true → t.domOn d = s.domOn d ∧ t.modes.stepFault = true ∧ t.sticky 6 = true) := by
  obtain ⟨hidle, hwait, hforced⟩ := hc
  have h : SwitchingOn s d e l := ⟨by omega, hed, hq, he, h0, hidle, hwait, hforced⟩
  have hexec : exec (.domainPowerGood d) s = .next (if s.domainLate d then s.domainFails d else s.poweredUp d) := by
    rw [exec_domainPowerGood, execDomainPowerGood, if_neg (by simp [hq, hn])]
  refine ⟨_, hexec, ?_⟩
  cases hl : s.domainLate d with
  | false =>
    obtain ⟨hto, hmode, hdom⟩ := h.poweredUp d.isLt (hsev 14 (by simp)) h28 fun n hn => hsev n (by
      simp only [List.mem_cons, List.not_mem_nil, or_false] at hn ⊢; exact .inr (.inr hn))
    refine ⟨hto, hmode, fun f hf hfd => (hdom f hf).trans (if_neg hfd), fun _ => (hdom d d.isLt).trans (if_pos rfl), ?_⟩
    exact fun h => absurd h (by simp)
  | true =>
    obtain ⟨hto, hmode, hdom, hfault, hsticky⟩ := h.domainFails (hsev 6 (by simp)) h28
    exact ⟨hto, hmode, fun f hf _ => hdom f hf, fun h => absurd h (by simp), fun _ => ⟨hdom d d.isLt, hfault, hsticky⟩⟩

/-- Settles O8, clause by clause: periods, meters and calibration, the regulator, power, temperature, the governor, and the
domain that is being switched on. -/
theorem paceEvents : Obligations.PaceEvents := by
  unfold Obligations.PaceEvents
  refine ⟨fun s i l r f ack => ⟨fun h => ?_, fun h => ?_, fun h => ?_, fun h => ?_⟩, paceMeterUpdate_shows,
    fun d v s hd _ _ hc => paceMeterUpdate_held d v s hd hc, paceMeterCalibration_starts, paceCalibrationDone_ends,
    avsCommandUnacknowledged_counts, avsCommandUnacknowledged_third, avsResend_acts, powerReading_acts, tjReading_shows,
    tjReading_forces, governorLoopStep_acts, governorLoopStep_off_or_drain, domainPowerGood_acts⟩
  · rw [exec_paceMeterUpdate, execPaceMeterUpdate, State.every_of_not_due h]
  · rw [exec_governorLoopStep, execGovernorLoopStep, State.every_of_not_due h]
  · rw [exec_powerReading, execPowerReading]
    rcases h with h | h
    · rw [State.every_of_not_due (p := us 100) h, ite_self]
    · rw [if_pos h]
  · rw [exec_tjReading, execTjReading, State.every_of_not_due (p := us 100) h]

end Sys2Proof.Machine

namespace Sys2Proof.Machine

/-- The command answers a next state, and that state is kept. -/
def Answers (a : State) (r : Res) : Prop := ∃ t, r = .next t ∧ Kept a t

/-- The state, where there is one, is kept. -/
def KeptIf (a : State) (o : Option State) : Prop := ∀ t, o = some t → Kept a t

section
variable {a s t : State}

/-- A record update is kept by what it says of the queue and the three memories. -/
theorem kept_mk {p : List Instr} {r : Table Word} {c d : Table Nat} {m : List Host.Cell} {x0 x1 x2 x3 x4 x5 x6 x7 x8 x9
    x10 x11 x12 x13 x14 x15 x16 x17 x18 x19 x20 x21 x22 x23 x24 x25 x26 x27 x28 x29 x30 x31 x32 x33 x34 x35 x36 x37 x38 x39
    x40 x41 x42 x43 x44} :
    Kept a ⟨p, r, c, d, m, x0, x1, x2, x3, x4, x5, x6, x7, x8, x9, x10, x11, x12, x13, x14, x15, x16, x17, x18, x19, x20,
      x21, x22, x23, x24, x25, x26, x27, x28, x29, x30, x31, x32, x33, x34, x35, x36, x37, x38, x39, x40, x41, x42,
      x43, x44⟩ ↔ KeptAt a p r c m :=
  ⟨fun h => h.at_, fun h => ⟨h⟩⟩

/-! What a function answers besides the state. -/

theorem Kept.of_snd {α : Type} {p : α × State} {x : α} (e : p = (x, t)) (h : Kept a p.2) : Kept a t := by
  rw [e] at h; exact h

theorem Kept.of_fst {α : Type} {p : State × α} {x : α} (e : p = (t, x)) (h : Kept a p.1) : Kept a t := by
  rw [e] at h; exact h

theorem Kept.of_thd {α β : Type} {p : α × β × State} {x : α} {y : β} (e : p = (x, y, t)) (h : Kept a p.2.2) : Kept a t := by
  rw [e] at h; exact h

theorem Kept.of_fth {α β γ : Type} {p : α × β × γ × State} {x : α} {y : β} {z : γ} (e : p = (x, y, z, t))
    (h : Kept a p.2.2.2) : Kept a t := by
  rw [e] at h; exact h

theorem Kept.ite_fst {β : Type} {q : Prop} [Decidable q] {x y : State × β} (h : Kept a x.1) (k : Kept a y.1) :
    Kept a (if q then x else y).1 := by
  split
  · exact h
  · exact k

theorem KeptIf.none : KeptIf a none := by
  intro t e
  cases e

theorem KeptIf.some (h : Kept a t) : KeptIf a (some t) := fun _ e => Option.some.inj e ▸ h

theorem KeptIf.ite {q : Prop} [Decidable q] {x y : Option State} (h : KeptIf a x) (k : KeptIf a y) :
    KeptIf a (if q then x else y) := by
  split
  · exact h
  · exact k

theorem KeptIf.getD {o : Option State} (h : KeptIf a o) (k : Kept a s) : Kept a (o.getD s) := by
  cases o with
  | none => exact k
  | some t => exact h t rfl

theorem answers_next : Answers a (.next t) ↔ Kept a t := by simp [Answers]

theorem Answers.ite {q : Prop} [Decidable q] {r r' : Res} (h : Answers a r) (h' : Answers a r') :
    Answers a (if q then r else r') := by
  split
  · exact h
  · exact h'

end

/-! ## What each function of the model keeps

`Kept a s` (Laws): the queue of `a`, and the canonical form of the register file, the counters and the byte memory if `a` has
it. One lemma per function that answers a state, in the order and the grouping of the model's files. -/

section
variable {a s t : State}

/-! ### Machine/Doorbells.lean -/

theorem State.answerAt_kept {q : Req} {opcode st : Nat} {data : List Byte} (h : Kept a s) :
    Kept a (s.answerAt q opcode st data) := by
  simp only [State.answerAt, kept_mk, Kept.at_, h]

theorem State.tagBusy_kept {x : Req} (h : Kept a s) : Kept a (s.tagBusy x) := by
  unfold State.tagBusy
  split <;> exact State.wrB_kept _ _ _ _ h

theorem State.accept_kept {q : Req} {c : Cmd} (h : Kept a s) : Kept a (s.accept q c) := by
  unfold State.accept
  extract_lets c1 s2 r s3
  have hs2 : Kept a s2 := by simp only [s2, kept_mk, Kept.at_, h]
  have hs3 : Kept a s3 := by simp only [s3, State.setInflight_kept, State.setTag_kept, hs2]
  split
  · simp only [State.answerAt_kept, State.finish_kept, Kept.ite, hs3]
  · exact State.event_kept _ _ _ hs3

theorem State.doorbell_kept {q : Req} {c : Cmd} (h : Kept a s) : Kept a (s.doorbell q c) := by
  unfold State.doorbell
  extract_lets t
  split
  · simp only [State.tagBusy_kept, Kept.ite, h]
  · split
    · simp only [State.writeResult_kept, State.accept_kept, Kept.ite, h]
    · exact State.accept_kept h

theorem State.hostDoorbell_kept {m : Link} {t' : Tag} (h : Kept a s) : Kept a (s.hostDoorbell m t') := by
  simp only [State.hostDoorbell, State.wrB_kept, State.doorbell_kept, Kept.ite, h]

theorem State.coreDoorbell_kept {n : CoreIx} (h : Kept a s) : Kept a (s.coreDoorbell n) := by
  simp only [State.coreDoorbell, State.doorbell_kept, Kept.ite, h]

theorem State.releaseCores_kept {c : Nat} (h : Kept a s) : Kept a (s.releaseCores c) := by
  simp +contextual only [State.releaseCores, State.wrB_kept, Kept.fold, implies_true, h]

/-! ### Machine/Cache.lean -/

theorem State.allocate_kept {v x : Nat} (h : Kept a s) : KeptIf a (s.allocate v x) := by
  unfold State.allocate
  refine .ite (.some h) ?_
  split
  · rename_i e
    exact .some (State.setExt_kept _ _ _ (State.place_of _ _ e h))
  · exact .none

theorem State.allocateAll_kept {v : Nat} {l : List Nat} (h : Kept a s) : KeptIf a (s.allocateAll v l) := by
  induction l generalizing s with
  | nil => exact .some h
  | cons x l ih =>
    unfold State.allocateAll
    split
    · exact ih (State.allocate_kept h _ ‹_›)
    · exact .none

/-! ### Machine/Hashes.lean -/

theorem State.setSlot_kept {t' i v : Nat} (h : Kept a s) : Kept a (s.setSlot t' i v) := by
  simp only [State.setSlot, State.onTbl_kept, h]

theorem State.raHeal_kept {addr len : Nat} (h : Kept a s) : Kept a (s.raHeal addr len) := by
  simp only [State.raHeal, kept_mk, Kept.at_, h]

theorem State.putCore_kept {key : Nat} {l : List Byte} (h : Kept a s) : Kept a (s.putCore key l) := by
  unfold State.putCore
  extract_lets s1
  have hs1 : Kept a s1 := by
    unfold s1
    split
    · exact State.raHeal_kept h
    · exact h
  simp only [kept_mk, KeptAt.putBytes, Kept.at_, hs1]

theorem State.movePath_kept {k n b : Nat} {path : List Nat} (h : Kept a s) : Kept a (s.movePath k n b path).2 := by
  induction n generalizing s b path with
  | zero => exact h
  | succ n ih =>
    have hd := State.draw_kept s h
    simp only [State.movePath]
    split
    · exact hd
    · split
      · exact hd
      · exact ih hd

theorem State.doMoves_kept {k free : Nat} {l : List Nat} (h : Kept a s) : Kept a (s.doMoves k l free).2 := by
  induction l generalizing s free with
  | nil => exact h
  | cons i l ih => exact ih (State.setSlot_kept (State.setSlot_kept h))

theorem State.htInsert_kept {t' key v : Nat} (h : Kept a s) : Kept a (s.htInsert t' key v).2 := by
  unfold State.htInsert
  split
  · split
    · simp only [State.setSlot_kept, h]
    · simp only [State.setSlot_kept, h]
    · split
      · rename_i e1
        have h2 : Kept a _ := Kept.of_snd e1 (State.movePath_kept h)
        exact h2
      · rename_i e3
        have h4 : Kept a _ := Kept.of_snd e3 (State.movePath_kept h)
        simp only [State.doMoves_kept, State.setSlot_kept, h4]

theorem State.rsvRecord_kept {t' flags words : Nat} (h : Kept a s) : Kept a (s.rsvRecord t' flags words).2.2.2 := by
  unfold State.rsvRecord
  extract_lets key v
  split
  · exact h
  · split
    · split
      · simp only [State.setSlot_kept, h]
      · exact h
    · split
      · rename_i e1
        have h2 : Kept a _ := Kept.of_snd e1 (State.htInsert_kept h)
        exact h2
      · rename_i e3
        have h4 : Kept a _ := Kept.of_snd e3 (State.htInsert_kept h)
        exact h4

/-! ### Machine/Otp.lean -/

theorem State.onSec_kept {f : SecSt → SecSt} (h : Kept a s) : Kept a (s.onSec f) := by
  simp only [State.onSec, kept_mk, Kept.at_, h]

theorem State.onOtp_kept {f : Otp → Otp} (h : Kept a s) : Kept a (s.onOtp f) := by
  simp only [State.onOtp, State.onSec_kept, h]

theorem State.showDebug_kept (h : Kept a s) : Kept a s.showDebug := by
  simp only [State.showDebug, State.wrW_kept, h]

theorem State.measure_kept {i : Nat} {l : List Byte} (h : Kept a s) : Kept a (s.measure i l) := by
  simp only [State.measure, State.onSec_kept, h]

theorem State.measureLc_kept (h : Kept a s) : Kept a s.measureLc := by
  simp only [State.measureLc, State.measure_kept, h]

theorem State.measureMicro_kept (h : Kept a s) : Kept a s.measureMicro := by
  simp only [State.measureMicro, State.measure_kept, h]

theorem State.measureCustomer_kept (h : Kept a s) : Kept a s.measureCustomer := by
  simp only [State.measureCustomer, State.measure_kept, h]

theorem State.setOtpRow_kept {k : Nat} {r : RowSt} (h : Kept a s) : Kept a (s.setOtpRow k r) := by
  simp only [State.setOtpRow, State.onOtp_kept, h]

theorem State.drawBytes_kept {n : Nat} (h : Kept a s) : Kept a (s.drawBytes n).2 := by
  simp only [State.drawBytes, State.draw_kept, h]

theorem State.entryActions_kept {k : Nat} (h : Kept a s) : Kept a (s.entryActions k) := by
  unfold State.entryActions
  exact Kept.ite (State.onOtp_kept (State.drawBytes_kept (n := 96) (State.drawBytes_kept (n := 32)
    (State.drawBytes_kept (n := 32) h)))) (Kept.ite (State.onOtp_kept h) (Kept.ite (State.onOtp_kept h) h))

theorem State.rowStep_kept {k : Nat} (h : Kept a s) : Kept a (s.rowStep k) := by
  unfold State.rowStep
  extract_lets go s1
  have hs1 : Kept a s1 := State.wrB_kept _ _ _ _ (State.wr_kept _ _ _ _ (State.setOtpRow_kept h))
  split
  · simp only [State.wr_kept, State.setOtpRow_kept, h, go]
  · simp only [State.wr_kept, State.setOtpRow_kept, h, go]
  · exact State.wr_kept _ _ _ _ (State.setOtpRow_kept (State.entryActions_kept h))
  · simp only [State.wrB_kept, State.onSec_kept, hs1]
  · exact h
  · exact h

theorem State.rowTo_kept {k rank : Nat} (h : Kept a s) : Kept a (s.rowTo k rank) := by
  unfold State.rowTo
  exact Kept.fold (fun _ _ hk => Kept.ite (State.rowStep_kept hk) hk) h

theorem State.otpRun_kept (h : Kept a s) : Kept a s.otpRun := by
  unfold State.otpRun
  split
  · exact h
  · exact State.rowTo_kept h

theorem State.startProgram_kept {k : Nat} (h : Kept a s) : Kept a (s.startProgram k) := by
  unfold State.startProgram
  split
  rename_i e
  have hs1 := Kept.of_snd e (State.draw_kept s h)
  extract_lets s2 s3 s4 s5
  have hs2 : Kept a s2 := State.onSec_kept (State.setOtpRow_kept hs1)
  have hs3 : Kept a s3 := State.wrB_kept _ _ _ _ (State.wr_kept _ _ _ _ (State.wr_kept _ _ _ _ hs2))
  have hs4 : Kept a s4 := State.wrB_kept _ _ _ _ (State.wr_kept _ _ _ _ hs3)
  have hs5 : Kept a s5 := Kept.ite (kept_mk.mpr hs4.at_) hs4
  exact State.measureLc_kept (State.showDebug_kept hs5)

/-! ### Machine/Resets.lean -/

theorem State.flushOne_kept {k : Pkt} {dest : Nat} (h : Kept a s) : Kept a (s.flushOne k dest) := by
  unfold State.flushOne
  exact State.pktEnd_kept _ _ (Kept.ite (State.count_kept _ _ h) h)

theorem State.flushVoq_kept {v : Nat} (h : Kept a s) : Kept a (s.flushVoq v) := by
  unfold State.flushVoq
  exact Kept.fold (fun _ _ hk => Kept.ite (Kept.ite (State.pktEnd_kept _ _ hk) (Kept.fold (fun _ _ hk1 =>
    State.flushOne_kept hk1) hk)) (State.crossedOut_kept _ _ _ (Kept.ite (State.pktEnd_kept _ _ hk) (Kept.fold
    (fun _ _ hk1 => State.flushOne_kept hk1) hk)))) (State.setVoq_kept _ _ _ h)

theorem State.flushVoqs_kept {ok : Nat → Bool} (h : Kept a s) : Kept a (s.flushVoqs ok) := by
  simp +contextual only [State.flushVoqs, State.flushVoq_kept, Kept.fold, implies_true, h]

theorem State.flushEgress_kept {t' : Nat} {mine : EPkt → Bool} (h : Kept a s) : Kept a (s.flushEgress t' mine) := by
  unfold State.flushEgress
  exact State.setEgress_kept _ _ _ (Kept.fold (fun _ _ hk => State.flushOne_kept hk) h)

theorem State.flushPort_kept {p : Nat} (h : Kept a s) : Kept a (s.flushPort p) := by
  unfold State.flushPort
  exact Kept.fold (fun _ _ hk => State.setEgress_kept _ _ _ (State.flushEgress_kept hk)) (State.cutPort_kept _ _ h)

theorem State.flushForwarding_kept (h : Kept a s) : Kept a s.flushForwarding := by
  simp +contextual only [State.flushForwarding, State.flushVoqs_kept, State.flushEgress_kept, Kept.fold, implies_true, h]

theorem State.dropQps_kept {p : Nat} (h : Kept a s) : Kept a (s.dropQps p) := by
  simp only [State.dropQps, State.resetRegs_kept, kept_mk, Kept.at_, h]

theorem State.stopPlot_kept {p : Nat} (h : Kept a s) : Kept a (s.stopPlot p) := by
  unfold State.stopPlot
  extract_lets s1 s2 s3 r s4
  have hs1 : Kept a s1 := by simp only [s1, State.dropQps_kept, State.clearNvme_kept, h]
  have hs2 : Kept a s2 := State.resetRegs_kept _ _ hs1
  have hs3 : Kept a s3 := by simp only [s3, kept_mk, KeptAt.dropMem, Kept.at_, hs2]
  have hs4 : Kept a s4 := State.setPlot_kept _ _ _ hs3
  split
  · exact hs4
  · exact State.setLink_kept _ _ _ (kept_mk.mpr ((State.wrW_kept _ _ _ hs4).at_.dropMem _))

theorem State.resetPlot_kept {p : Nat} (h : Kept a s) : Kept a (s.resetPlot p) := by
  simp only [State.resetPlot, State.wr_kept, State.stopPlot_kept, h]

theorem State.resetFn_kept {m f : Nat} {ready : Bool} (h : Kept a s) : Kept a (s.resetFn m f ready) := by
  simp only [State.resetFn, State.setFn_kept, h]

theorem State.flushSlot8_kept {m : Nat} (h : Kept a s) : Kept a (s.flushSlot8 m) := by
  unfold State.flushSlot8
  exact Kept.fold (fun _ _ hk => Kept.ite hk (Kept.fold (fun _ _ hk1 => State.pktEnd_kept _ _ (State.count_kept _ _
    hk1)) (State.setEgress_kept _ _ _ hk))) h

theorem State.dropAccesses_kept {gone : Master → Bool} (h : Kept a s) : Kept a (s.dropAccesses gone) := by
  simp only [State.dropAccesses, kept_mk, Kept.at_, h]

theorem State.resetLink_kept {m : Nat} {sticky : Bool} (h : Kept a s) : Kept a (s.resetLink m sticky) := by
  unfold State.resetLink
  extract_lets s1 s2 s3 l r s4 r5 s6 r7
  have hs1 : Kept a s1 := by simp only [s1, State.dropAccesses_kept, State.flushSlot8_kept, h]
  have hs2 : Kept a s2 := by
    unfold s2
    refine Kept.fold (fun s8 x9 h10 => ?_) hs1
    extract_lets s11
    have hs11 : Kept a s11 := by
      unfold s11
      split
      · exact State.resetPlot_kept h10
      · exact h10
    exact State.resetFn_kept hs11
  have hs3 : Kept a s3 := State.resetRegs_kept _ _ hs2
  have hs4 : Kept a s4 := State.setLink_kept _ _ _ hs3
  have hs6 : Kept a s6 := by simp only [s6, kept_mk, Kept.at_, hs4]
  simp only [kept_mk, Kept.at_, hs6]

theorem State.loseHostPort_kept {n : Nat} (h : Kept a s) : Kept a (s.loseHostPort n) := by
  unfold State.loseHostPort
  exact Kept.fold (fun _ _ hk => kept_mk.mpr ((State.resetLink_kept (State.mailboxReset_kept _ _ hk)).at_.dropMem _))
    h

theorem State.flip_kept {k : Nat} (h : Kept a s) : Kept a (s.flip k) := by
  simp only [State.flip, State.wrB_kept, Kept.ite, h]

theorem State.flipNext_kept (h : Kept a s) : Kept a s.flipNext := by
  unfold State.flipNext
  split
  · exact State.endJobs_kept _ _ _ _ h
  · exact State.flip_kept h

theorem State.commitFlip_kept {order : List Nat} (h : Kept a s) : Kept a (s.commitFlip order) := by
  unfold State.commitFlip
  exact State.flipNext_kept (State.measureCustomer_kept ⟨h.at_⟩)

theorem State.flipped_kept {k : Nat} (h : Kept a s) : Kept a (s.flipped k) := by
  unfold State.flipped
  exact Kept.ite h (Kept.ite (State.flipNext_kept ⟨h.at_⟩) ⟨h.at_⟩)

theorem State.clearMicro_kept {k : Nat} (h : Kept a s) : Kept a (s.clearMicro k) := by
  simp only [State.clearMicro, kept_mk, Kept.at_, h]

theorem State.losePipe_kept {k : Nat} (h : Kept a s) : Kept a (s.losePipe k) := by
  unfold State.losePipe
  exact State.flipped_kept (State.clearMicro_kept (State.setPipe_kept _ _ _ (Kept.fold (fun _ _ hk =>
    State.pktEnd_kept _ _ hk) h)))

theorem State.loseHeadrace_kept {h' : Nat} (h : Kept a s) : Kept a (s.loseHeadrace h') := by
  unfold State.loseHeadrace
  exact State.onTbl_kept _ _ (State.flushVoqs_kept (State.losePipe_kept (State.setStage_kept _ _ _ (Kept.fold
    (fun _ _ hk => State.pktEnd_kept _ _ hk) h))))

theorem State.loseTailrace_kept {t' : Nat} (h : Kept a s) : Kept a (s.loseTailrace t') := by
  unfold State.loseTailrace
  exact State.setEgress_kept _ _ _ (Kept.fold (fun _ _ hk => State.pktEnd_kept _ _ hk) (State.losePipe_kept h))

theorem State.loseQuad_kept {q : Nat} (h : Kept a s) : Kept a (s.loseQuad q) := by
  unfold State.loseQuad
  exact kept_mk.mpr (State.onWeir_kept _ _ (State.onTbl_kept _ _ (State.flushVoqs_kept h))).at_

theorem State.loseLanes_kept {g : Nat} (h : Kept a s) : Kept a (s.loseLanes g) := by
  simp only [State.loseLanes, kept_mk, Kept.at_, h]

theorem State.loseDrives_kept {g : Nat} (h : Kept a s) : Kept a (s.loseDrives g) := by
  simp only [State.loseDrives, kept_mk, Kept.at_, h]

theorem State.loseStack_kept {k : Nat} (h : Kept a s) : Kept a (s.loseStack k) := by
  unfold State.loseStack
  extract_lets r s1 _ s2 s3 s4 s5 _
  have hs1 : Kept a s1 := kept_mk.mpr (h.at_.dropMem _)
  have hs2 : Kept a s2 := kept_mk.mpr (hs1.at_.dropMem _)
  have hs3 : Kept a s3 := Kept.fold (fun _ _ hk => State.pktEnd_kept _ _ hk) hs2
  have hs4 : Kept a s4 := State.onWeir_kept _ _ (State.onTbl_kept _ _ hs3)
  have hs5 : Kept a s5 := State.conduitDown_kept _ (kept_mk.mpr hs4.at_)
  exact Kept.ite (kept_mk.mpr hs1.at_) (Kept.ite (kept_mk.mpr hs5.at_) hs5)

theorem State.loseCluster_kept {c : Nat} (h : Kept a s) : Kept a (s.loseCluster c) := by
  unfold State.loseCluster
  exact Kept.fold (fun _ _ hk => State.coreMailboxReset_kept _ _ hk) (State.dropAccesses_kept (kept_mk.mpr
    (h.at_.dropMem _)))

theorem State.loseWeir_kept (h : Kept a s) : Kept a s.loseWeir := by
  simp only [State.loseWeir, State.flushVoqs_kept, kept_mk, Kept.at_, h]

theorem State.loseSilo_kept (h : Kept a s) : Kept a s.loseSilo := by
  unfold State.loseSilo
  exact kept_mk.mpr (State.resetRegs_kept _ _ (State.dropAccesses_kept (State.kcuFree_kept _ _ _
    (State.dropInFlight_kept _ h)))).at_

theorem State.loseUnits_kept {d : Nat} (h : Kept a s) : Kept a (s.loseUnits d) := by
  unfold State.loseUnits
  exact Kept.ite h (Kept.ite (State.loseHeadrace_kept h) (Kept.ite (State.loseTailrace_kept (State.loseTailrace_kept
    h)) (Kept.ite (State.loseQuad_kept h) (Kept.ite (State.loseLanes_kept h) (Kept.ite (State.loseHostPort_kept h)
    (Kept.ite (State.loseDrives_kept h) (Kept.ite (State.loseStack_kept h) (Kept.ite (State.loseCluster_kept h)
    (Kept.ite (State.loseWeir_kept h) (Kept.ite (State.loseSilo_kept h) (Kept.ite ⟨h.at_⟩ (Kept.ite (kept_mk.mpr
    (h.at_.dropMem _)) h))))))))))))

theorem State.loadSetting_kept {a' : Nat} {v : Word} (h : Kept a s) : Kept a (s.loadSetting a' v) := by
  unfold State.loadSetting
  split
  · exact State.setReg_kept _ _ _ h
  · exact Kept.ite h (Kept.ite (State.fitFec_kept _ _ (State.wrW_kept _ _ _ h)) (State.wrW_kept _ _ _ h))

theorem State.loadSettings_kept {ok : Nat → Bool} (h : Kept a s) : Kept a (s.loadSettings ok) := by
  unfold State.loadSettings
  exact Kept.fold (fun _ _ hk => Kept.ite (State.loadSetting_kept hk) hk) h

theorem State.loadMicro_kept {k : Nat} (h : Kept a s) : Kept a (s.loadMicro k) := by
  unfold State.loadMicro
  exact Kept.ite ⟨h.at_⟩ (State.stageBank_kept _ _ _ _ _ ⟨h.at_⟩)

theorem State.startCores_kept {c : Nat} (h : Kept a s) : Kept a (s.startCores c) := by
  unfold State.startCores
  exact State.releaseCores_kept (kept_mk.mpr (h.at_.putBytes _ _))

theorem State.domainUp_kept {d : Nat} (h : Kept a s) : Kept a (s.domainUp d) := by
  unfold State.domainUp
  extract_lets s1 s2 t s3 s4 r
  have hs1 : Kept a s1 := by simp only [s1, State.stamp_kept, Kept.ite, h]
  have hs2 : Kept a s2 := by simp only [s2, State.calibrate_kept, Kept.ite, hs1]
  have hs3 : Kept a s3 := State.loadSettings_kept (State.setUpPorts_kept _ _ (State.loadSettings_kept hs2))
  have hs4 : Kept a s4 := by simp +contextual only [s4, State.stamp_kept, Kept.fold, implies_true, hs2]
  exact Kept.ite (State.loadMicro_kept (State.loadSettings_kept hs2)) (Kept.ite (State.loadMicro_kept
    (State.loadMicro_kept hs3)) (Kept.ite (State.onTbl_kept _ _ (State.setSweep_kept _ _ _ (State.loadSettings_kept
    hs2))) (Kept.ite (State.moduleSeen_kept _ _ (Kept.ite (State.loadSettings_kept hs4) hs4)) (Kept.ite (kept_mk.mpr
    hs2.at_) (Kept.ite (State.emit_kept _ _ (State.wrB_kept _ _ _ _ hs2)) (Kept.ite (kept_mk.mpr hs2.at_) (Kept.ite
    (State.startCores_kept hs2) hs2)))))))

theorem State.loadTables_kept (h : Kept a s) : Kept a s.loadTables := by
  unfold State.loadTables
  exact Kept.fold (fun _ _ hk => State.rsvRecord_kept hk) (Kept.fold (fun _ _ hk => State.stamp_kept _ _ hk)
    (Kept.fold (fun _ _ hk => State.onTbl_kept _ _ hk) (Kept.fold (fun _ _ hk => State.onTbl_kept _ _ hk) h)))

theorem State.loadRings_kept (h : Kept a s) : Kept a s.loadRings := by
  unfold State.loadRings
  exact Kept.fold (fun _ _ hk => Kept.ite (State.setQp_kept _ _ _ hk) hk) h

theorem State.loadImage_kept (h : Kept a s) : Kept a s.loadImage := by
  unfold State.loadImage
  extract_lets first ok s1 s2 s3 s4 s5 s6 s7
  have hs1 : Kept a s1 := State.setUpPorts_kept _ _ (State.loadSettings_kept h)
  have hs2 : Kept a s2 := State.loadSettings_kept (Kept.ite (State.setUpEcn_kept _ hs1) hs1)
  have hs3 : Kept a s3 := Kept.fold (fun _ _ hk => State.resplit_kept _ _ hk) (State.loadRings_kept hs2)
  have hs4 : Kept a s4 := Kept.fold (fun _ _ hk => State.startCores_kept hk) hs3
  have hs5 : Kept a s5 := State.loadTables_kept hs4
  have hs6 : Kept a s6 := kept_mk.mpr hs5.at_
  have hs7 : Kept a s7 := State.measureCustomer_kept (State.measureMicro_kept hs6)
  exact Kept.ite hs4 (Kept.ite (State.wrB_kept _ _ _ _ (State.wrB_kept _ _ _ _ (State.wrB_kept _ _ _ _ hs7))) hs7)

theorem State.stacksTrained_kept (h : Kept a s) : Kept a s.stacksTrained := by
  unfold State.stacksTrained
  exact Kept.ite (kept_mk.mpr (Kept.fold (fun _ _ hk => Kept.ite (State.wrB_kept _ _ _ _ hk) hk) h).at_) (Kept.fold
    (fun _ _ hk => Kept.ite (State.wrB_kept _ _ _ _ hk) hk) h)

theorem State.trickleMicro_kept {k : Nat} (h : Kept a s) : Kept a (s.trickleMicro k) := by
  unfold State.trickleMicro
  exact Kept.fold (fun _ _ hk => Kept.fold (fun _ _ hk1 => State.wr_kept _ _ _ _ (kept_mk.mpr hk1.at_)) hk)
    (kept_mk.mpr (State.clearMicro_kept h).at_)

theorem State.trickleProgram_kept (h : Kept a s) : Kept a s.trickleProgram := by
  unfold State.trickleProgram
  exact Kept.fold (fun _ _ hk => Kept.ite hk (State.assignSlot_kept _ _ _ hk)) (Kept.fold (fun _ _ hk =>
    State.onTbl_kept _ _ hk) (State.trickleMicro_kept (State.trickleMicro_kept h)))

theorem State.freeUplinkSlots_kept {keep : List Nat} (h : Kept a s) : Kept a (s.freeUplinkSlots keep) := by
  unfold State.freeUplinkSlots
  exact Kept.fold (fun _ _ hk => Kept.ite (State.resetRegs_kept _ _ (State.flushPort_kept hk)) hk) h

theorem State.leaveTrickle_kept (h : Kept a s) : Kept a s.leaveTrickle := by
  unfold State.leaveTrickle
  exact Kept.fold (fun _ _ hk => Kept.ite (State.msgArrives_kept _ _ hk) hk) (State.restartSweep_kept _ _ (Kept.fold
    (fun _ _ hk => State.loadMicro_kept (State.loadSettings_kept (State.clearMicro_kept (State.resetRegs_kept _ _
    hk)))) (State.freeUplinkSlots_kept (State.onTbl_kept _ _ h))))

theorem State.rewriteFromImage_kept (h : Kept a s) : Kept a s.rewriteFromImage := by
  unfold State.rewriteFromImage
  extract_lets mine s1 r s2 s3
  have hs1 : Kept a s1 := ⟨h.at_.rebuilt _ _ _⟩
  have hr : Kept a r := Kept.fold (fun _ _ hk => State.setReg_kept _ _ _ hk) hs1
  have hs3 : Kept a s3 := Kept.fold (fun _ _ hk => Kept.ite (State.loadSetting_kept hk) hk) ⟨hr.at_⟩
  exact State.setUpEcn_kept _ (State.setUpPorts_kept _ _ hs3)

theorem State.warmTime_kept (h : Kept a s) : Kept a s.warmTime := by
  unfold State.warmTime
  exact kept_mk.mpr (Kept.fold (fun _ _ hk => State.wrB_kept _ _ _ _ (State.wrB_kept _ _ _ _ hk))
    (State.wr_kept _ _ _ _ (State.wr_kept _ _ _ _ (Kept.ite (State.wr_kept _ _ _ _ (State.wr_kept _ _ _ _ h))
    (Kept.ite (State.wr_kept _ _ _ _ (State.wr_kept _ _ _ _ h)) h))))).at_

theorem State.warmUnits_kept (h : Kept a s) : Kept a s.warmUnits := by
  unfold State.warmUnits
  exact State.warmTime_kept (State.showDebug_kept (State.onSec_kept (kept_mk.mpr (State.dropInFlight_kept _
    (kept_mk.mpr (State.resetRegs_kept _ _ h).at_)).at_)))

theorem State.coldKeep_kept (h : Kept a s) : Kept a s.coldKeep :=
  ⟨⟨h.at_.queue, fun _ => ⟨rfl, rfl, rfl⟩⟩⟩

/-! ### Machine/Power.lean -/

theorem State.loseDomain_kept {d : Nat} (h : Kept a s) : Kept a (s.loseDomain d) := by
  unfold State.loseDomain
  exact Kept.ite h (kept_mk.mpr ((Kept.ite (State.wrW_kept _ _ _ (State.resetRegs_kept _ _ (State.setDom_kept _ _ _
    (State.loseUnits_kept h)))) (State.resetRegs_kept _ _ (State.setDom_kept _ _ _ (State.loseUnits_kept
    h)))).at_.dropCnt _))

theorem State.setMode_kept {m : Mode} (h : Kept a s) : Kept a (s.setMode m) := by
  unfold State.setMode
  exact State.wrB_kept _ _ _ _ (State.wr_kept _ _ _ _ (State.wr_kept _ _ _ _ h))

theorem State.setBusy_kept {target : Mode} (h : Kept a s) : Kept a (s.setBusy target) := by
  simp only [State.setBusy, State.wrB_kept, State.wr_kept, h]

theorem State.updateWriteback_kept (h : Kept a s) : Kept a s.updateWriteback := by
  unfold State.updateWriteback
  exact Kept.ite (State.wrB_kept _ _ _ _ h) (State.onSilo_kept _ _ (State.wrB_kept _ _ _ _ h))

theorem State.request_kept {v : Nat} (h : Kept a s) : Kept a (s.request v) := by
  unfold State.request
  exact State.emit_kept _ _ (kept_mk.mpr (State.wr_kept _ _ _ _ h).at_)

theorem State.setToPower_kept {l : List Nat} (h : Kept a s) : Kept a (s.setToPower l) := by
  unfold State.setToPower
  exact Kept.fold (fun _ _ hk => State.endJobs_kept _ _ _ _ hk) (kept_mk.mpr (Kept.ite h (State.stamp_kept _ _
    h)).at_)

theorem State.queueOn_kept {l : List Nat} (h : Kept a s) : Kept a (s.queueOn l) := by
  simp only [State.queueOn, State.setToPower_kept, h]

theorem State.setSteps_kept {l : List (Step × StepSt)} (h : Kept a s) : Kept a (s.setSteps l) := by
  unfold State.setSteps
  exact kept_mk.mpr (Kept.fold (fun _ _ hk => State.stamp_kept _ _ hk) h).at_

theorem State.endStep_kept {k : Step} {v : StepSt} (h : Kept a s) : Kept a (s.endStep k v) := by
  simp only [State.endStep, State.setSteps_kept, Kept.ite, h]

theorem State.domainsEnded_kept (h : Kept a s) : Kept a s.domainsEnded := by
  simp only [State.domainsEnded, State.endStep_kept, Kept.ite, h]

theorem State.startPriming_kept (h : Kept a s) : Kept a s.startPriming := by
  unfold State.startPriming
  exact State.domainsEnded_kept (State.queueOn_kept (State.setSteps_kept (kept_mk.mpr (Kept.ite (State.request_kept
    (kept_mk.mpr (State.setMode_kept h).at_)) (kept_mk.mpr (State.setMode_kept h).at_)).at_)))

theorem State.settleAll_kept {done : List (Job × Bool)} (h : Kept a s) : Kept a (s.settleAll done) := by
  unfold State.settleAll
  extract_lets s1
  have hs1 : Kept a s1 := Kept.fold (fun _ _ hk => State.settleOld_kept _ _ _ _ hk) (s := { s with jobs := [], regJob
      := none }) ⟨h.at_⟩
  exact ⟨hs1.at_⟩

theorem State.enterDrain_kept {c : DrainCause} (h : Kept a s) : Kept a (s.enterDrain c) := by
  unfold State.enterDrain
  split
  · exact h
  · simp only [Kept.ite, kept_mk, Kept.at_, h]
  · extract_lets ends r s1 s2 lost s3 s4 s5 s6 s7 s8 r9
    have hs1 : Kept a s1 := by simp only [s1, kept_mk, Kept.at_, h]
    have hs2 : Kept a s2 := by simp +contextual only [s2, State.loseDomain_kept, Kept.fold, implies_true, hs1]
    have hs3 : Kept a s3 := by simp only [s3, kept_mk, Kept.at_, hs2]
    have hs4 : Kept a s4 := by simp only [s4, State.answer_kept, Kept.ite, hs3]
    have hs5 : Kept a s5 := by simp only [s5, State.settleAll_kept, State.siloFreeze_kept, hs4]
    have hs6 : Kept a s6 := State.setMode_kept hs5
    have hs7 : Kept a s7 := State.wrB_kept _ _ _ _ hs6
    have hs8 : Kept a s8 := by
      unfold s8
      split
      · exact State.wrB_kept _ _ _ _ hs7
      · exact State.wrB_kept _ _ _ _ hs7
      · exact hs7
    simp only [kept_mk, Kept.at_, hs8]
  · extract_lets ends r s10 s11 lost s12 s13 s14 s15 s16 s17 r18
    have hs10 : Kept a s10 := by simp only [s10, kept_mk, Kept.at_, h]
    have hs11 : Kept a s11 := by simp +contextual only [s11, State.loseDomain_kept, Kept.fold, implies_true, hs10]
    have hs12 : Kept a s12 := by simp only [s12, kept_mk, Kept.at_, hs11]
    have hs13 : Kept a s13 := by simp only [s13, State.answer_kept, Kept.ite, hs12]
    have hs14 : Kept a s14 := by simp only [s14, State.settleAll_kept, State.siloFreeze_kept, hs13]
    have hs15 : Kept a s15 := State.setMode_kept hs14
    have hs16 : Kept a s16 := State.wrB_kept _ _ _ _ hs15
    have hs17 : Kept a s17 := by
      unfold s17
      split
      · exact State.wrB_kept _ _ _ _ hs16
      · exact State.wrB_kept _ _ _ _ hs16
      · exact hs16
    simp only [kept_mk, Kept.at_, hs17]
  · extract_lets ends r s19 s20 lost s21 s22 s23 s24 s25 s26 r27
    have hs19 : Kept a s19 := by simp only [s19, kept_mk, Kept.at_, h]
    have hs20 : Kept a s20 := by simp +contextual only [s20, State.loseDomain_kept, Kept.fold, implies_true, hs19]
    have hs21 : Kept a s21 := by simp only [s21, kept_mk, Kept.at_, hs20]
    have hs22 : Kept a s22 := by simp only [s22, State.answer_kept, Kept.ite, hs21]
    have hs23 : Kept a s23 := by simp only [s23, State.settleAll_kept, State.siloFreeze_kept, hs22]
    have hs24 : Kept a s24 := State.setMode_kept hs23
    have hs25 : Kept a s25 := State.wrB_kept _ _ _ _ hs24
    have hs26 : Kept a s26 := by
      unfold s26
      split
      · exact State.wrB_kept _ _ _ _ hs25
      · exact State.wrB_kept _ _ _ _ hs25
      · exact hs25
    simp only [kept_mk, Kept.at_, hs26]
  · extract_lets ends r s28 s29 lost s30 s31 s32 s33 s34 s35 r36
    have hs28 : Kept a s28 := by simp only [s28, kept_mk, Kept.at_, h]
    have hs29 : Kept a s29 := by simp +contextual only [s29, State.loseDomain_kept, Kept.fold, implies_true, hs28]
    have hs30 : Kept a s30 := by simp only [s30, kept_mk, Kept.at_, hs29]
    have hs31 : Kept a s31 := by simp only [s31, State.answer_kept, Kept.ite, hs30]
    have hs32 : Kept a s32 := by simp only [s32, State.settleAll_kept, State.siloFreeze_kept, hs31]
    have hs33 : Kept a s33 := State.setMode_kept hs32
    have hs34 : Kept a s34 := State.wrB_kept _ _ _ _ hs33
    have hs35 : Kept a s35 := by
      unfold s35
      split
      · exact State.wrB_kept _ _ _ _ hs34
      · exact State.wrB_kept _ _ _ _ hs34
      · exact hs34
    simp only [kept_mk, Kept.at_, hs35]

theorem State.warmFaults_kept (h : Kept a s) : Kept a s.warmFaults := by
  unfold State.warmFaults
  exact kept_mk.mpr (Kept.fold (fun _ _ hk => Kept.ite (State.wrB_kept _ _ _ _ (State.wrB_kept _ _ _ _ hk)) hk) h).at_

theorem State.latch_kept (h : Kept a s) : Kept a s.latch := by
  unfold State.latch
  extract_lets s1
  have hs1 : Kept a s1 := State.stopAlive_kept _ _ h
  split
  · exact State.wrB_kept _ _ _ _ hs1
  · exact State.enterDrain_kept hs1

theorem State.raise_kept {src kind addr : Nat} (h : Kept a s) : Kept a (s.raise src kind addr) := by
  unfold State.raise
  exact Kept.ite (State.latch_kept (State.kcuFault_kept _ _ (State.takeMsg_kept _ _ h))) (State.kcuFault_kept _ _
    (State.takeMsg_kept _ _ h))

theorem State.keysUp_kept (h : Kept a s) : Kept a s.keysUp := by
  unfold State.keysUp
  refine Kept.ite h ?_
  extract_lets kek unwrap k0 s1 s2
  have hs1 : Kept a s1 := by
    unfold s1
    split
    · simp only [Kept.ite, kept_mk, Kept.at_, h]
    · exact h
  have hs2 : Kept a s2 := Kept.ite hs1 (Kept.ite (State.onSilo_kept _ _ (State.onVault_kept _ _ (State.drawBytes_kept
      (n := 32) hs1))) (State.onSilo_kept _ _ hs1))
  exact Kept.fold (fun _ _ hk => Kept.ite (State.setVol_kept _ _ _ hk) (State.raise_kept hk)) hs2

/-! ### Machine/Lanes.lean -/

theorem State.linkDown_kept {p : Nat} {remote hiBer : Bool} (h : Kept a s) : Kept a (s.linkDown p remote hiBer) := by
  unfold State.linkDown
  extract_lets b s1 s2 s3 s4 _ s5 s6
  have hs1 : Kept a s1 := Kept.ite (State.count_kept _ _ (State.emit_kept _ _ h)) h
  have hs2 : Kept a s2 := State.wrB_kept _ _ _ _ (State.wrB_kept _ _ _ _ hs1)
  have hs3 : Kept a s3 := State.wrB_kept _ _ _ _ (State.wrB_kept _ _ _ _ hs2)
  have hs4 : Kept a s4 := State.count_kept _ _ (State.wrB_kept _ _ _ _ hs3)
  have hs5 : Kept a s5 := kept_mk.mpr hs4.at_
  have hs6 : Kept a s6 := Kept.ite hs5 (State.stamp_kept _ _ hs5)
  exact State.raise_kept (State.flushPort_kept hs6)

theorem State.judgeModule_kept {g : Nat} (h : Kept a s) : Kept a (s.judgeModule g) := by
  unfold State.judgeModule
  split
  · exact h
  · exact Kept.ite h (Kept.ite (State.emit_kept _ _ ⟨h.at_⟩) (State.raise_kept (State.emit_kept _ _ (Kept.fold
      (fun _ _ hk => State.linkDown_kept hk) h))))

theorem State.judgeModules_kept (h : Kept a s) : Kept a s.judgeModules := by
  simp +contextual only [State.judgeModules, State.judgeModule_kept, Kept.fold, implies_true, h]

theorem State.laneWritten_kept {g x old : Nat} (h : Kept a s) : Kept a (s.laneWritten g x old) := by
  unfold State.laneWritten
  exact Kept.ite (Kept.ite h (Kept.fold (fun _ _ hk => Kept.ite (State.linkDown_kept hk) hk) (State.fitFec_kept _ _
    h))) (Kept.ite (Kept.ite h (Kept.ite (State.linkDown_kept h) h)) (Kept.ite (State.judgeModule_kept h) h))

/-! ### Machine/Background.lean -/

theorem State.bgCaught_kept {a' : Nat} (h : Kept a s) : Kept a (s.bgCaught a') := by
  simp only [State.bgCaught, State.bgRan_kept, Kept.ite, h]

/-! ### Machine/Access.lean -/

theorem State.aerLog_kept {m : Nat} {uncorrectable : Bool} {b : Nat} (h : Kept a s) :
    Kept a (s.aerLog m uncorrectable b) := by
  simp only [State.aerLog, State.raise_kept, State.setLink_kept, h]

theorem State.refuseHost_kept {m : Nat} (h : Kept a s) : Kept a (s.refuseHost m) := by
  unfold State.refuseHost
  exact State.answer_kept _ _ (State.aerLog_kept (State.count_kept _ _ (State.wrB_kept _ _ _ _ h)))

theorem State.refuse_kept {who : Master} (h : Kept a s) : Kept a (s.refuse who) := by
  unfold State.refuse
  split
  · simp only [State.answer_kept, State.refuseHost_kept, Kept.ite, h]
  · exact State.answer_kept _ _ h
  · exact State.answer_kept _ _ h
  · exact State.answer_kept _ _ h
  · exact State.answer_kept _ _ h

theorem State.selWritten_kept {key old : Nat} (h : Kept a s) : Kept a (s.selWritten key old) := by
  unfold State.selWritten
  split
  · exact h
  · simp only [State.setCnt_kept, Kept.ite, h]

theorem State.updateNores_kept {m : Nat} (h : Kept a s) : Kept a (s.updateNores m) := by
  simp only [State.updateNores, State.wrB_kept, h]

theorem State.wideWritten_kept {w : Option Link} (h : Kept a s) : Kept a (s.wideWritten w) := by
  simp only [State.wideWritten, State.wrB_kept, h]

theorem State.setPoolFree_kept {i n : Nat} (h : Kept a s) : Kept a (s.setPoolFree i n) := by
  unfold State.setPoolFree
  exact Kept.ite (State.raise_kept (State.wrB_kept _ _ _ _ (State.wr_kept _ _ _ _ h))) (State.wrB_kept _ _ _ _
    (State.wr_kept _ _ _ _ h))

theorem State.lowWritten_kept {i : Nat} (h : Kept a s) : Kept a (s.lowWritten i) := by
  simp only [State.lowWritten, State.setPoolFree_kept, h]

theorem State.afterWrite_kept {key old v : Nat} (h : Kept a s) : Kept a (s.afterWrite key old v) := by
  unfold State.afterWrite
  exact Kept.ite (State.ccWritten_kept _ _ _ h) (Kept.ite (State.wideWritten_kept h) (Kept.ite (State.wideWritten_kept
    h) (Kept.ite (State.feedWritten_kept _ _ _ h) (Kept.ite (State.pageWritten_kept _ _ _ h) (Kept.ite
    (State.laneWritten_kept h) (Kept.ite (State.updateNores_kept h) (Kept.ite (State.hostDoorbell_kept h) (Kept.ite
    (State.coreDoorbell_kept h) (Kept.ite (State.lowWritten_kept h) (Kept.ite (State.connWritten_kept _ _ _ h)
    (Kept.ite (Kept.ite h (State.restartSweep_kept _ _ h)) (Kept.ite (State.restrict_kept _ _ _ _ _ h)
    (State.selWritten_kept h)))))))))))))

theorem State.writeWord_kept {key : Nat} {k : AccKind} {v : Nat} (h : Kept a s) : Kept a (s.writeWord key k v) := by
  unfold State.writeWord
  split
  · exact h
  · exact Kept.ite (State.raise_kept (State.afterWrite_kept (State.wrW_kept _ _ _ h))) (State.afterWrite_kept
      (State.wrW_kept _ _ _ h))

theorem State.writeNow_kept {key : Nat} {k : AccKind} {size v : Nat} (h : Kept a s) : Kept a (s.writeNow key k size v) := by
  unfold State.writeNow
  split
  · exact Kept.ite h (Kept.ite (State.msixRelease_kept _ _ _ (kept_mk.mpr (h.at_.putBytes _ _))) (kept_mk.mpr
      (h.at_.putBytes _ _)))
  · exact Kept.ite h (Kept.ite (State.msixRelease_kept _ _ _ (kept_mk.mpr (h.at_.putBytes _ _))) (kept_mk.mpr
      (h.at_.putBytes _ _)))
  · exact h
  · exact Kept.ite (State.writeWord_kept (State.writeWord_kept h)) (State.writeWord_kept h)

theorem State.regEnd_kept {j : RegJob} {f : Final} (h : Kept a s) : Kept a (s.regEnd j f) := by
  unfold State.regEnd
  extract_lets s1
  have hs1 : Kept a s1 := by simp only [s1, kept_mk, Kept.at_, h]
  split
  · exact State.endJob_kept _ _ _ hs1
  · exact State.finishWith_kept _ _ _ hs1

theorem State.regRefused_kept (h : Kept a s) : Kept a s.regRefused := by
  unfold State.regRefused
  split
  · exact h
  · exact State.regEnd_kept h

theorem State.refuseCrossing_kept {x : Crossing} (h : Kept a s) : Kept a (s.refuseCrossing x) := by
  unfold State.refuseCrossing
  exact Kept.ite (State.regRefused_kept (State.refuse_kept h)) (State.refuse_kept h)

theorem State.land_kept {x : Crossing} (h : Kept a s) : Kept a (s.land x) := by
  unfold State.land
  exact Kept.ite (State.refuseCrossing_kept h) (Kept.ite (State.answer_kept _ _ h) (State.answer_kept _ _
    (State.writeNow_kept h)))

theorem State.access_kept {who : Master} {a' : Addr} {k : AccKind} {size v : Nat} (h : Kept a s) :
    Kept a (s.access who a' k size v) := by
  unfold State.access
  split
  · exact State.refuse_kept h
  · exact Kept.ite (State.refuse_kept h) (Kept.ite (State.answer_kept _ _ ⟨h.at_⟩) (State.land_kept h))

theorem State.landFast_kept {l : List Crossing} (h : Kept a s) : Kept a (s.landFast l) := by
  induction l generalizing s with
  | nil => exact h
  | cons x l ih => exact .ite ⟨h.at_⟩ (ih (State.land_kept ⟨h.at_⟩))

theorem State.endCrossing_kept {who : Master} {k : Crossing → State → State} (h : Kept a s)
    (hk : ∀ y0 y1, Kept a y1 → Kept a (k y0 y1)) : Kept a (s.endCrossing who k) := by
  unfold State.endCrossing
  split
  · exact h
  · exact State.landFast_kept (hk _ _ ⟨h.at_⟩)

theorem State.catchUp_kept {who : Master} (h : Kept a s) : Kept a (s.catchUp who) := by
  unfold State.catchUp
  exact Kept.fold (fun _ _ hk => State.land_kept (kept_mk.mpr hk.at_)) h

theorem State.aliasAccess_kept {who : Master} {a' : Addr} {k : AccKind} {size : Nat} {v : DWord} (h : Kept a s) :
    Kept a (s.aliasAccess who a' k size v) := by
  unfold State.aliasAccess
  split
  · exact State.refuse_kept h
  · simp only [State.refuse_kept, State.access_kept, Kept.ite, h]

theorem execAliasSetWrite_answers {who : Master} {a' : Addr} {size : Nat} {v : DWord} (h : Kept a s) :
    Answers a (execAliasSetWrite who a' size v s) := by
  simp only [execAliasSetWrite, State.aliasAccess_kept, answers_next, h]

theorem execAliasClearWrite_answers {who : Master} {a' : Addr} {size : Nat} {v : DWord} (h : Kept a s) :
    Answers a (execAliasClearWrite who a' size v s) := by
  simp only [execAliasClearWrite, State.aliasAccess_kept, answers_next, h]

theorem execAliasToggleWrite_answers {who : Master} {a' : Addr} {size : Nat} {v : DWord} (h : Kept a s) :
    Answers a (execAliasToggleWrite who a' size v s) := by
  simp only [execAliasToggleWrite, State.aliasAccess_kept, answers_next, h]

theorem execWideSelWrite_answers {w : Option Link} {addr : Word} (h : Kept a s) :
    Answers a (execWideSelWrite w addr s) := by
  unfold execWideSelWrite
  split
  · simp only [State.access_kept, answers_next, h]
  · exact Answers.ite (answers_next.mpr (State.refuse_kept (State.catchUp_kept h))) (answers_next.mpr
      (State.answer_kept _ _ (State.writeWord_kept (State.catchUp_kept h))))

theorem execWideLatchDone_answers {w : Option Link} (h : Kept a s) : Answers a (execWideLatchDone w s) := by
  unfold execWideLatchDone
  extract_lets b
  refine Answers.ite ?_ ?_
  · simp only [answers_next, h]
  · split
    · simp only [answers_next, h]
    · exact answers_next.mpr (State.wrB_kept _ _ _ _ (State.wrW_kept _ _ _ (State.wrW_kept _ _ _ h)))

theorem execPaceVlimitWrite_answers {v : Word} (h : Kept a s) : Answers a (execPaceVlimitWrite v s) := by
  simp only [execPaceVlimitWrite, State.access_kept, answers_next, h]

theorem execLockBitWrite_answers {l : Lock} {v : Word} (h : Kept a s) : Answers a (execLockBitWrite l v s) := by
  simp only [execLockBitWrite, State.access_kept, answers_next, h]

theorem execCoreBusAccess_answers {n : CoreIx} {pa len : Nat} {wr : Option (List Byte)} (h : Kept a s) :
    Answers a (execCoreBusAccess n pa len wr s) := by
  unfold execCoreBusAccess
  extract_lets len1 s2
  have hs2 : Kept a s2 := State.catchUp_kept h
  refine Answers.ite ?_ ?_
  · simp only [State.refuse_kept, answers_next, h]
  · split
    · simp only [State.answer_kept, State.putCore_kept, answers_next, hs2]
    · simp only [State.refuse_kept, answers_next, h]
    · simp only [State.answer_kept, State.refuse_kept, Kept.ite, answers_next, hs2]
    · exact Answers.ite (answers_next.mpr (Kept.ite (State.answer_kept _ _ h) (State.refuse_kept h)))
        (answers_next.mpr (State.access_kept h))
    · simp only [State.access_kept, answers_next, h]

/-! ### Machine/Bells.lean -/

theorem State.onQp_kept {r : Nat} {f : Qp → Qp} (h : Kept a s) : Kept a (s.onQp r f) := by
  simp only [State.onQp, State.setQp_kept, h]

theorem State.windowErr_kept {p : Nat} (h : Kept a s) : Kept a (s.windowErr p) := by
  unfold State.windowErr
  split
  · exact h
  · simp only [State.wrB_kept, State.count_kept, h]

theorem State.rangeErr_kept {r : Nat} (h : Kept a s) : Kept a (s.rangeErr r) := by
  simp only [State.rangeErr, State.windowErr_kept, Kept.ite, h]

theorem State.logDma_kept {m : Nat} {e : DmaEnd} (h : Kept a s) : Kept a (s.logDma m e) := by
  unfold State.logDma
  split
  · exact h
  · exact h
  · exact State.aerLog_kept (State.count_kept _ _ (State.wrB_kept _ _ _ _ h))
  · exact State.aerLog_kept (State.count_kept _ _ (State.wrB_kept _ _ _ _ h))

theorem State.withBuffer_kept {q : Req} {addr len : Nat} {buf : Fetch} {fail : State → State}
    {k : List Byte → State → State} (h : Kept a s) (hfail : ∀ y0, Kept a y0 → Kept a (fail y0)) (hk : ∀ y0 y1,
      Kept a y1 → Kept a (k y0 y1)) : Kept a (s.withBuffer q addr len buf fail k) := by
  unfold State.withBuffer
  split
  · split
    · simp only [h, hk]
    · simp only [h, hfail]
  · refine Kept.ite h ?_
    refine Kept.ite ?_ ?_
    · simp only [State.windowErr_kept, h, hfail]
    · extract_lets s1
      have hs1 : Kept a s1 := State.issueRead_kept _ _ _ _ _ h
      split
      · simp only [hk, hs1]
      · simp only [hfail, hs1]
      · simp only [hfail, hs1]
      · simp only [State.logDma_kept, hfail, hs1]
      · simp only [State.logDma_kept, hfail, hs1]

theorem State.logRing_kept {r : Nat} {e : DmaEnd} (h : Kept a s) : Kept a (s.logRing r e) := by
  unfold State.logRing
  split
  · exact State.logDma_kept h
  · exact h

theorem State.logPage_kept {p page : Nat} (h : Kept a s) : Kept a (s.logPage p page) := by
  unfold State.logPage
  extract_lets b x prod size base rec_ f
  refine Kept.ite h ?_
  refine Kept.ite (State.wrB_kept _ _ _ _ h) ?_
  split
  · exact h
  · exact State.wr_kept _ _ _ _ (State.setPlot_kept _ _ _ (State.postWrite_kept _ _ _ _ _ h))

theorem State.logWrite_kept {p addr len : Nat} (h : Kept a s) : Kept a (s.logWrite p addr len) := by
  unfold State.logWrite
  exact Kept.ite h (Kept.fold (fun _ _ hk => State.logPage_kept hk) h)

theorem State.ringWrite_kept {r addr : Nat} {data : List Byte} (h : Kept a s) : Kept a (s.ringWrite r addr data) := by
  unfold State.ringWrite
  refine Kept.ite ?_ ?_
  · split
    · exact State.putCore_kept h
    · exact h
  · split
    · exact h
    · simp only [State.logWrite_kept, State.postWrite_kept, h]

theorem State.ringIrq_kept {r : Nat} {rx : Bool} (h : Kept a s) : Kept a (s.ringIrq r rx) := by
  unfold State.ringIrq
  refine Kept.ite (State.emit_kept _ _ h) ?_
  split
  · exact h
  · exact State.interrupt_kept _ _ _ _ h

theorem State.checkIrq_kept {r : Nat} {rx : Bool} (h : Kept a s) : Kept a (s.checkIrq r rx) := by
  unfold State.checkIrq
  exact Kept.ite (State.ringIrq_kept (State.onQp_kept h)) h

theorem State.ringError_kept {r cause : Nat} (h : Kept a s) : Kept a (s.ringError r cause) := by
  unfold State.ringError
  exact Kept.ite h (State.ringIrq_kept (State.onQp_kept h))

theorem State.writeCpl_kept {r : Nat} {rx : Bool} {c : Cpl} (h : Kept a s) : Kept a (s.writeCpl r rx c) := by
  unfold State.writeCpl
  exact Kept.ite h (Kept.ite (State.ringError_kept h) (State.checkIrq_kept (State.onQp_kept (State.ringWrite_kept
    h))))

theorem execIrqModerationTimeout_answers {r : RingId} {rx : Bool} (h : Kept a s) :
    Answers a (execIrqModerationTimeout r rx s) := by
  simp only [execIrqModerationTimeout, State.checkIrq_kept, Kept.ite, answers_next, h]

theorem State.markWaits_kept {t' : Nat} (h : Kept a s) : Kept a (s.markWaits t') := by
  simp only [State.markWaits, State.setEgress_kept, h]

theorem State.updateWaits_kept (h : Kept a s) : Kept a s.updateWaits := by
  simp +contextual only [State.updateWaits, State.markWaits_kept, Kept.fold, implies_true, h]

theorem State.ringBell_kept {r k v : Nat} (h : Kept a s) : Kept a (s.ringBell r k v) := by
  unfold State.ringBell
  exact Kept.ite (Kept.ite (State.ringError_kept h) (State.onQp_kept h)) (Kept.ite (Kept.ite (State.ringError_kept h)
    (State.updateWaits_kept (State.onQp_kept h))) (Kept.ite (State.ringError_kept h) (State.updateWaits_kept
    (State.checkIrq_kept (State.onQp_kept h)))))

theorem State.doorbellRing_kept {r k v : Nat} (h : Kept a s) : Kept a (s.doorbellRing r k v) := by
  unfold State.doorbellRing
  exact Kept.ite h (Kept.ite (State.bump_kept _ _ _ h) (Kept.ite (State.onQp_kept h) (State.ringBell_kept h)))

theorem State.releaseBells_kept {r : Nat} (h : Kept a s) : Kept a (s.releaseBells r) := by
  unfold State.releaseBells
  exact Kept.ite h (Kept.fold (fun _ _ hk => Kept.ite (State.ringBell_kept hk) hk) (State.onQp_kept h))

theorem State.releasePlot_kept {p : Nat} (h : Kept a s) : Kept a (s.releasePlot p) := by
  simp +contextual only [State.releasePlot, State.releaseBells_kept, Kept.fold, implies_true, h]

theorem State.releaseAll_kept (h : Kept a s) : Kept a s.releaseAll := by
  simp +contextual only [State.releaseAll, State.releaseBells_kept, Kept.fold, implies_true, h]

/-! ### Machine/Transitions.lean -/

theorem State.endLongReach_kept (h : Kept a s) : Kept a s.endLongReach := by
  unfold State.endLongReach
  exact Kept.fold (fun _ _ hk => State.wrB_kept _ _ _ _ (State.wrB_kept _ _ _ _ hk)) h

theorem State.switchOff_kept {d : Nat} (h : Kept a s) : Kept a (s.switchOff d) := by
  unfold State.switchOff
  exact Kept.ite h (Kept.fold (fun _ _ hk => Kept.ite (State.endCrossing_kept hk (fun _ _ hk1 =>
    State.refuseCrossing_kept hk1)) hk) (State.loseDomain_kept (Kept.ite (State.endLongReach_kept h) h)))

theorem State.switchOffAll_kept {ds : List Nat} (h : Kept a s) : Kept a (s.switchOffAll ds) := by
  simp +contextual only [State.switchOffAll, State.switchOff_kept, Kept.fold, implies_true, h]

theorem State.resumeFetch_kept (h : Kept a s) : Kept a s.resumeFetch := by
  unfold State.resumeFetch
  exact State.updateWaits_kept (State.releaseAll_kept ⟨h.at_⟩)

theorem State.enterMode_kept {m : Mode} (h : Kept a s) : Kept a (s.enterMode m) := by
  unfold State.enterMode
  extract_lets s1 s2 off s3 s4 _ s5 _ s6
  have hs1 : Kept a s1 := Kept.ite (State.wrB_kept _ _ _ _ h) h
  have hs2 : Kept a s2 := Kept.ite hs1 (State.endLongReach_kept hs1)
  have hs3 : Kept a s3 := State.switchOffAll_kept hs2
  have hs4 : Kept a s4 := State.setMode_kept hs3
  have hs5 : Kept a s5 := State.setSteps_kept (kept_mk.mpr hs4.at_)
  have hs6 : Kept a s6 := Kept.ite (kept_mk.mpr hs5.at_) (State.resumeFetch_kept hs5)
  exact State.updateWriteback_kept (State.endJobs_kept _ _ _ _ hs6)

theorem State.pauseForwarding_kept (h : Kept a s) : Kept a s.pauseForwarding := by
  simp only [State.pauseForwarding, State.flushForwarding_kept, kept_mk, Kept.at_, h]

theorem State.returnSteps_kept {on : List Nat} (h : Kept a s) : Kept a (s.returnSteps on) := by
  unfold State.returnSteps
  exact Kept.ite (State.setSteps_kept h) (State.queueOn_kept (State.setSteps_kept h))

theorem State.surveyOn_kept (h : Kept a s) : Kept a s.surveyOn := by
  unfold State.surveyOn
  exact Kept.ite (State.returnSteps_kept (State.leaveTrickle_kept ⟨h.at_⟩)) (State.queueOn_kept ⟨h.at_⟩)

theorem State.advance_kept (h : Kept a s) : Kept a s.advance := by
  unfold State.advance
  extract_lets ready s1
  have hs1 : Kept a s1 := State.surveyOn_kept h
  refine Kept.ite h ?_
  split
  · exact Kept.ite (Kept.ite (State.enterMode_kept h) h) (Kept.ite h (Kept.ite (State.enterMode_kept hs1) hs1))
  · exact Kept.ite (State.enterMode_kept (State.trickleProgram_kept h)) h
  · simp only [State.enterMode_kept, Kept.ite, h]
  · exact h
  · exact h
  · exact h

theorem State.beginTrickle_kept (h : Kept a s) : Kept a s.beginTrickle := by
  unfold State.beginTrickle
  exact State.advance_kept (State.queueOn_kept (State.conduitDown_kept _ (State.switchOffAll_kept (kept_mk.mpr
    (State.pauseForwarding_kept (State.setBusy_kept (Kept.ite (State.rewriteFromImage_kept h) (Kept.ite
    (State.loadSettings_kept h) h)))).at_))))

theorem State.forcedEntry_kept (h : Kept a s) : Kept a s.forcedEntry := by
  simp only [State.forcedEntry, State.beginTrickle_kept, Kept.ite, h]

theorem State.warmReset_kept {cause : RegField} (h : Kept a s) : Kept a (s.warmReset cause) := by
  unfold State.warmReset
  extract_lets ends links cores mc s1 s2 s3 s4 s5 s6 modes s7
  have hs1 : Kept a s1 := ⟨h.at_⟩
  have hs2 : Kept a s2 := Kept.fold (f := State.loseDomain) (fun _ _ => State.loseDomain_kept) hs1
  have hs3 : Kept a s3 := Kept.fold (fun _ _ hk => State.resetLink_kept (State.mailboxReset_kept _ _ hk)) hs2
  have hs4 : Kept a s4 := Kept.fold (fun _ _ hk => State.coreMailboxReset_kept _ _ hk) hs3
  have hs5 : Kept a s5 := ⟨hs4.at_.rebuilt _ _ _⟩
  have hs6 : Kept a s6 :=
    State.wrB_kept _ _ _ _ (State.settleAll_kept (State.warmUnits_kept (State.warmFaults_kept hs5)))
  have hs7 : Kept a s7 := ⟨hs6.at_⟩
  exact State.forcedEntry_kept (State.updateWriteback_kept (State.startPriming_kept hs7))

theorem State.takeTrigger_kept {t' : Trigger} (h : Kept a s) : Kept a (s.takeTrigger t') := by
  unfold State.takeTrigger
  split
  · exact State.beginTrickle_kept h
  · exact State.beginTrickle_kept h
  · exact State.beginTrickle_kept h
  · simp only [State.wrB_kept, kept_mk, Kept.at_, h]
  · simp only [kept_mk, Kept.at_, h]
  · exact State.warmReset_kept h
  · exact State.warmReset_kept h
  · exact h
  · exact h
  · exact State.warmReset_kept h
  · exact h

theorem State.trigger_kept {t' : Trigger} (h : Kept a s) : Kept a (s.trigger t') := by
  simp only [State.trigger, State.takeTrigger_kept, Kept.ite, kept_mk, Kept.at_, h]

theorem State.testWaiting_kept (h : Kept a s) : Kept a s.testWaiting := by
  unfold State.testWaiting
  exact Kept.ite h (State.forcedEntry_kept (Kept.fold (fun _ _ hk => State.trigger_kept hk) ⟨h.at_⟩))

theorem State.beginTransition_kept {m : Mode} (h : Kept a s) : Kept a (s.beginTransition m) := by
  unfold State.beginTransition
  split
  · simp only [State.beginTrickle_kept, State.testWaiting_kept, h]
  · exact State.testWaiting_kept (State.advance_kept (Kept.ite (State.setBusy_kept h) (State.pauseForwarding_kept
      (State.setBusy_kept h))))
  · exact State.testWaiting_kept (State.advance_kept (Kept.ite (State.returnSteps_kept (State.leaveTrickle_kept
      (kept_mk.mpr (State.setBusy_kept h).at_))) (kept_mk.mpr (State.setBusy_kept h).at_)))
  · exact h
  · exact h
  · exact h

theorem State.cancelTransition_kept (h : Kept a s) : Kept a s.cancelTransition := by
  unfold State.cancelTransition
  exact Kept.ite (State.testWaiting_kept (State.resumeFetch_kept (State.setMode_kept h))) h

theorem State.escalate_kept {w : FaultWin} (h : Kept a s) : Kept a (s.escalate w) := by
  unfold State.escalate
  exact Kept.ite (State.startWindow_kept _ _ _ (State.wrB_kept _ _ _ _ (State.notifyFault_kept _ _
    (State.stopWindow_kept _ _ h)))) (Kept.ite (State.trigger_kept (State.notifyFault_kept _ _
    (State.stopWindow_kept _ _ h))) (State.trigger_kept (State.notifyFault_kept _ _ (State.stopWindow_kept _ _ h))))

/-! ### Machine/Pace.lean -/

theorem State.meterUpdate_kept {d v : Nat} (h : Kept a s) : Kept a (s.meterUpdate d v) := by
  simp only [State.meterUpdate, State.wr_kept, Kept.ite, h]

theorem execPaceMeterUpdate_answers {readings : List (Dom × Nat)} (h : Kept a s) :
    Answers a (execPaceMeterUpdate readings s) := by
  unfold execPaceMeterUpdate
  exact answers_next.mpr (State.every_kept _ _ _ _ h (fun _ hk => Kept.fold (fun _ _ hk1 => State.meterUpdate_kept
    hk1) hk))

theorem execPaceMeterCalibration_answers {d : Dom} (h : Kept a s) : Answers a (execPaceMeterCalibration d s) := by
  simp only [execPaceMeterCalibration, State.wrB_kept, Kept.ite, answers_next, h]

theorem execPaceCalibrationDone_answers {d : Dom} (h : Kept a s) : Answers a (execPaceCalibrationDone d s) := by
  unfold execPaceCalibrationDone
  exact Answers.ite (answers_next.mpr h) (answers_next.mpr (Kept.ite (State.stamp_kept _ _ (State.wrB_kept _ _ _ _ h))
    (State.bgRan_kept _ _ (State.stamp_kept _ _ (State.wrB_kept _ _ _ _ h)))))

theorem State.acknowledged_kept (h : Kept a s) : Kept a s.acknowledged := by
  unfold State.acknowledged
  split
  · exact h
  · simp only [kept_mk, Kept.at_, h]

theorem State.loopStep_kept {step : Nat} {ack : Bool} (h : Kept a s) : Kept a (State.loopStep step ack s) := by
  unfold State.loopStep
  extract_lets v go
  refine Kept.ite h ?_
  split
  · exact Kept.ite h (Kept.ite (State.acknowledged_kept (State.request_kept h)) (State.request_kept h))
  · exact State.wrB_kept _ _ _ _ h
  · exact State.wrB_kept _ _ _ _ (State.wrB_kept _ _ _ _ (Kept.ite h (Kept.ite (State.acknowledged_kept
      (State.request_kept h)) (State.request_kept h))))

theorem execGovernorLoopStep_answers {step : Nat} {ack : Bool} (h : Kept a s) :
    Answers a (execGovernorLoopStep step ack s) := by
  simp +contextual only [execGovernorLoopStep, State.every_kept, State.loopStep_kept, implies_true, answers_next, h]

theorem State.avsLost_kept (h : Kept a s) : Kept a s.avsLost := by
  unfold State.avsLost
  exact State.raise_kept (State.wrB_kept _ _ _ _ (State.wr_kept _ _ _ _ h))

theorem execAvsCommandUnacknowledged_answers (h : Kept a s) : Answers a (execAvsCommandUnacknowledged s) := by
  unfold execAvsCommandUnacknowledged
  exact answers_next.mpr (Kept.ite (State.avsLost_kept ⟨h.at_⟩) ⟨h.at_⟩)

theorem execAvsResend_answers {ack : Bool} (h : Kept a s) : Answers a (execAvsResend ack s) := by
  unfold execAvsResend
  exact Answers.ite (answers_next.mpr h) (answers_next.mpr (State.every_kept _ _ _ _ h (fun _ hk => Kept.ite
    (kept_mk.mpr (State.wrB_kept _ _ _ _ (State.wr_kept _ _ _ _ (State.emit_kept _ _ hk))).at_) (State.emit_kept _ _
    hk))))

theorem State.calibrationStep_kept (h : Kept a s) : Kept a s.calibrationStep := by
  simp only [State.calibrationStep, Kept.ite, kept_mk, Kept.at_, h]

theorem State.powerRead_kept (h : Kept a s) : Kept a s.powerRead := by
  unfold State.powerRead
  extract_lets mw s1 above _ g credit ends s2 s3 s4 s5
  have hs1 : Kept a s1 := State.wr_kept _ _ _ _ h
  have hs2 : Kept a s2 := kept_mk.mpr hs1.at_
  have hs3 : Kept a s3 := State.wr_kept _ _ _ _ (State.wr_kept _ _ _ _ hs2)
  have hs4 : Kept a s4 := Kept.ite (State.bump_kept _ _ _ hs3) hs3
  have hs5 : Kept a s5 := Kept.ite (State.wrB_kept _ _ _ _ hs4) (Kept.ite (State.wrB_kept _ _ _ _ hs4) hs4)
  exact State.calibrationStep_kept hs5

theorem execPowerReading_answers {current : Fin 65536} (h : Kept a s) : Answers a (execPowerReading current s) := by
  unfold execPowerReading
  exact answers_next.mpr (Kept.ite h (State.every_kept _ _ _ _ h (fun _ hk => State.powerRead_kept
    (State.wr_kept _ _ _ _ hk))))

theorem State.tjRead_kept {sensors : List Int} (h : Kept a s) : Kept a (s.tjRead sensors) := by
  unfold State.tjRead
  extract_lets tj s1 g s2 _ s3
  have hs1 : Kept a s1 := State.wr_kept _ _ _ _ h
  have hs2 : Kept a s2 := kept_mk.mpr hs1.at_
  have hs3 : Kept a s3 := Kept.ite (State.trigger_kept (State.raise_kept (kept_mk.mpr hs2.at_))) (Kept.ite
      (kept_mk.mpr hs2.at_) hs2)
  exact Kept.ite (State.raise_kept hs3) hs3

theorem execTjReading_answers {sensors : List Int} (h : Kept a s) : Answers a (execTjReading sensors s) := by
  simp +contextual only [execTjReading, State.tjRead_kept, State.every_kept, implies_true, answers_next, h]

theorem State.poweredUp_kept {d : Nat} (h : Kept a s) : Kept a (s.poweredUp d) := by
  unfold State.poweredUp
  extract_lets s1 s2 s3 s4
  have hs1 : Kept a s1 := State.domainUp_kept (State.setDom_kept _ _ _ h)
  have hs2 : Kept a s2 := Kept.ite (State.judgeModule_kept hs1) hs1
  have hs3 : Kept a s3 := Kept.ite (State.keysUp_kept hs2) hs2
  have hs4 : Kept a s4 := State.endJobs_kept _ _ _ _ (State.setToPower_kept hs3)
  exact State.testWaiting_kept (State.advance_kept (State.domainsEnded_kept hs4))

theorem State.domainFails_kept {d : Nat} (h : Kept a s) : Kept a (s.domainFails d) := by
  unfold State.domainFails
  exact State.testWaiting_kept (State.advance_kept (State.raise_kept (State.domainsEnded_kept
    (State.endJobs_kept _ _ _ _ (State.setToPower_kept ⟨h.at_⟩)))))

theorem execDomainPowerGood_answers {d : Dom} (h : Kept a s) : Answers a (execDomainPowerGood d s) := by
  unfold execDomainPowerGood
  exact answers_next.mpr (Kept.ite h (Kept.ite (State.domainFails_kept h) (State.poweredUp_kept h)))

/-! ### Machine/Commands.lean -/

theorem execMailboxDoorbell_answers {m : Link} {t' : Tag} (h : Kept a s) : Answers a (execMailboxDoorbell m t' s) := by
  unfold execMailboxDoorbell
  exact answers_next.mpr (Kept.ite (State.hostDoorbell_kept (State.catchUp_kept h)) (State.refuse_kept
    (State.catchUp_kept h)))

theorem execCoreMailboxDoorbell_answers {n : CoreIx} (h : Kept a s) : Answers a (execCoreMailboxDoorbell n s) := by
  unfold execCoreMailboxDoorbell
  exact answers_next.mpr (Kept.ite (State.coreDoorbell_kept (State.catchUp_kept h)) (State.refuse_kept
    (State.catchUp_kept h)))

theorem execProgressHeader_answers {q : Req} {progress : Nat} (h : Kept a s) :
    Answers a (execProgressHeader q progress s) := by
  unfold execProgressHeader
  split
  · simp only [answers_next, h]
  · extract_lets w
    split
    · simp only [State.postWrite_kept, answers_next, h]
    · simp only [answers_next, kept_mk, KeptAt.putBytes, Kept.at_, h]

theorem execResbaseWrite_answers {m : Link} {lo hi : Option Word} (h : Kept a s) :
    Answers a (execResbaseWrite m lo hi s) := by
  unfold execResbaseWrite
  extract_lets s1 put
  have hs1 : Kept a s1 := State.catchUp_kept h
  refine answers_next.mpr (Kept.ite ?_ (State.refuse_kept hs1))
  refine State.answer_kept _ _ ?_
  unfold put
  split
  · refine State.writeWord_kept ?_
    split
    · exact State.writeWord_kept hs1
    · exact hs1
  · split
    · exact State.writeWord_kept hs1
    · exact hs1

theorem execOldCommandSettled_answers {q : Req} {effect : Bool} (h : Kept a s) :
    Answers a (execOldCommandSettled q effect s) := by
  unfold execOldCommandSettled
  split
  · simp only [answers_next, h]
  · extract_lets mine s1
    have hs1 : Kept a s1 := by simp only [s1, kept_mk, Kept.at_, h]
    refine Answers.ite ?_ ?_
    · simp only [answers_next, h]
    · split
      · simp only [State.settleOld_kept, answers_next, h]
      · exact Answers.ite (answers_next.mpr (State.settleOld_kept _ _ _ _ (Kept.ite (State.cancelTransition_kept hs1)
          hs1))) (answers_next.mpr h)

theorem execDevIdentify_answers {q : Req} (h : Kept a s) : Answers a (execDevIdentify q s) := by
  simp +contextual only [execDevIdentify, State.command_kept, State.done_kept, implies_true, answers_next, h]

theorem execDevCaps_answers {q : Req} (h : Kept a s) : Answers a (execDevCaps q s) := by
  simp +contextual only [execDevCaps, State.command_kept, State.done_kept, implies_true, answers_next, h]

theorem execDevEcho_answers {q : Req} (h : Kept a s) : Answers a (execDevEcho q s) := by
  simp +contextual only [execDevEcho, State.command_kept, State.done_kept, implies_true, answers_next, h]

theorem execDevCmdStatus_answers {q : Req} (h : Kept a s) : Answers a (execDevCmdStatus q s) := by
  unfold execDevCmdStatus
  refine answers_next.mpr (State.command_kept _ _ _ _ h (fun y1 s2 h3 => ?_))
  extract_lets ans g
  split
  · exact State.finish_kept _ _ _ h3
  · refine Kept.ite ?_ ?_
    · split <;> simp only [State.done_kept, h3, ans]
    · refine Kept.ite ?_ (State.finish_kept _ _ _ h3)
      split
      · simp only [State.done_kept, h3, ans]
      · refine Kept.ite ?_ ?_
        · simp only [State.done_kept, h3, ans]
        · split
          · exact State.busyRetry_kept _ _ _ h3
          · simp only [State.done_kept, h3, ans]

theorem execDevHealth_answers {q : Req} (h : Kept a s) : Answers a (execDevHealth q s) := by
  simp +contextual only [execDevHealth, State.command_kept, State.done_kept, implies_true, answers_next, h]

/-! ### Machine/Modes.lean -/

theorem execModeGet_answers {q : Req} (h : Kept a s) : Answers a (execModeGet q s) := by
  simp +contextual only [execModeGet, State.command_kept, State.done_kept, implies_true, answers_next, h]

theorem State.modeSet_kept {q : Req} {m : Mode} (h : Kept a s) : Kept a (s.modeSet q m) := by
  unfold State.modeSet
  extract_lets go
  have hgo : Kept a go := by simp only [go, State.beginTransition_kept, State.addJob_kept, h]
  refine Kept.ite (State.done_kept _ _ _ h) ?_
  refine Kept.ite (State.finish_kept _ _ _ h) ?_
  split
  · simp only [State.finish_kept, Kept.ite, h, hgo]
  · simp only [State.finish_kept, Kept.ite, h, hgo]
  · simp only [State.finish_kept, Kept.ite, h, hgo]
  · exact hgo
  · exact hgo
  · exact Kept.ite (State.finishWith_kept _ _ _ h) (Kept.ite (State.busyRetry_kept _ _ _ (State.draw_kept _ h)) hgo)
  · simp only [State.finishWith_kept, Kept.ite, h, hgo]
  · exact State.finish_kept _ _ _ h

theorem execModeSet_answers {q : Req} (h : Kept a s) : Answers a (execModeSet q s) := by
  unfold execModeSet
  exact answers_next.mpr (State.command_kept _ _ _ _ h (fun _ _ hk => Kept.ite (State.busyRetry_kept _ _ _ hk)
    (Kept.ite (State.finish_kept _ _ _ hk) (State.modeSet_kept hk))))

theorem execWarmReset_answers {q : Req} (h : Kept a s) : Answers a (execWarmReset q s) := by
  unfold execWarmReset
  exact answers_next.mpr (State.command_kept _ _ _ _ h (fun _ _ hk => State.trigger_kept (State.done_kept _ _ _ hk)))

theorem execDomainSet_answers {q : Req} (h : Kept a s) : Answers a (execDomainSet q s) := by
  unfold execDomainSet
  refine answers_next.mpr (State.command_kept _ _ _ _ h fun c s h => ?_)
  have hf (st : Nat) : Kept a (s.finish q st) := State.finish_kept _ _ _ h
  extract_lets d s1
  have hs1 : Kept a s1 := Kept.ite (State.endLongReach_kept h) h
  have hf1 (st : Nat) : Kept a (s1.finish q st) := State.finish_kept _ _ _ hs1
  refine Kept.ite (hf _) (Kept.ite (State.done_kept _ _ _ hs1) (Kept.ite (Kept.ite (hf1 _) ?_) (Kept.ite (hf1 _) ?_)))
  · exact State.queueOn_kept (State.addJob_kept _ _ _ _ hs1)
  · exact State.done_kept _ _ _ (State.switchOff_kept hs1)

theorem execGovSet_answers {q : Req} (h : Kept a s) : Answers a (execGovSet q s) := by
  unfold execGovSet
  exact answers_next.mpr (State.command_kept _ _ _ _ h (fun _ _ hk => Kept.ite (State.done_kept _ _ _ (Kept.fold
    (fun _ _ hk1 => State.wr_kept _ _ _ _ hk1) hk)) (State.finish_kept _ _ _ hk)))

theorem State.uplinksChanged_kept (h : Kept a s) : Kept a s.uplinksChanged := by
  unfold State.uplinksChanged
  exact Kept.ite h (Kept.fold (fun _ _ hk => Kept.ite hk (State.assignSlot_kept _ _ _ hk)) (State.freeUplinkSlots_kept
    (State.queueOn_kept (State.switchOffAll_kept h))))

theorem execTrickleUplinks_answers {q : Req} (h : Kept a s) : Answers a (execTrickleUplinks q s) := by
  unfold execTrickleUplinks
  exact answers_next.mpr (State.command_kept _ _ _ _ h (fun _ _ hk => Kept.ite (State.finish_kept _ _ _ hk)
    (State.done_kept _ _ _ (State.uplinksChanged_kept (State.wrW_kept _ _ _ hk)))))

theorem State.dropInside_kept {t' : Nat} (h : Kept a s) : Kept a (s.dropInside t') := by
  unfold State.dropInside
  exact State.setToks_kept _ _ _ (Kept.fold (fun _ _ hk => State.flushOne_kept hk) (State.flushEgress_kept h))

theorem State.pipeReset_kept {d : Nat} (h : Kept a s) : Kept a (s.pipeReset d) := by
  unfold State.pipeReset
  exact Kept.ite (Kept.ite (State.trickleProgram_kept (State.domainUp_kept (State.setDom_kept _ _ _
    (State.switchOff_kept (Kept.ite (State.dropInside_kept (State.dropInside_kept h)) h))))) (State.domainUp_kept
    (State.setDom_kept _ _ _ (State.switchOff_kept (Kept.ite (State.dropInside_kept (State.dropInside_kept h)) h)))))
    h

theorem execPipeReset_answers {q : Req} (h : Kept a s) : Answers a (execPipeReset q s) := by
  unfold execPipeReset
  exact answers_next.mpr (State.command_kept _ _ _ _ h (fun _ _ hk => Kept.ite (State.finish_kept _ _ _ hk)
    (State.done_kept _ _ _ (State.pipeReset_kept hk))))

theorem execHealthCheck_answers {q : Req} (h : Kept a s) : Answers a (execHealthCheck q s) := by
  simp +contextual only [execHealthCheck, State.command_kept, State.done_kept, implies_true, answers_next, h]

theorem execPrimingEntry_answers (h : Kept a s) : Answers a (execPrimingEntry s) := by
  unfold execPrimingEntry
  exact answers_next.mpr (Kept.ite (State.forcedEntry_kept (State.startPriming_kept h)) h)

theorem State.stepEffect_kept {x : Step} (h : Kept a s) : Kept a (s.stepEffect x) := by
  unfold State.stepEffect
  split
  · exact State.stacksTrained_kept h
  · simp only [State.judgeModules_kept, State.loadImage_kept, h]
  · exact h
  · exact h
  · exact h
  · exact h

theorem State.stepFails_kept {k : Step} (h : Kept a s) : Kept a (s.stepFails k) := by
  unfold State.stepFails
  exact State.testWaiting_kept (State.advance_kept (State.raise_kept (kept_mk.mpr (State.endStep_kept h).at_)))

theorem execPrimingStepDone_answers {k : Step} {ok : Bool} (h : Kept a s) : Answers a (execPrimingStepDone k ok s) := by
  unfold execPrimingStepDone
  exact Answers.ite (answers_next.mpr h) (Answers.ite (answers_next.mpr (State.stepFails_kept h)) (answers_next.mpr
    (State.testWaiting_kept (State.advance_kept (State.stepEffect_kept (State.endStep_kept h))))))

theorem execPrimingStepTimeout_answers {k : Step} (h : Kept a s) : Answers a (execPrimingStepTimeout k s) := by
  unfold execPrimingStepTimeout
  refine answers_next.mpr ?_
  split
  · simp only [State.domainFails_kept, Kept.ite, h]
  · simp only [State.stepFails_kept, Kept.ite, h]

theorem execPrimingComplete_answers (h : Kept a s) : Answers a (execPrimingComplete s) := by
  unfold execPrimingComplete
  exact Answers.ite (answers_next.mpr h) (Answers.ite (answers_next.mpr (State.beginTransition_kept h)) (Answers.ite
    (answers_next.mpr (State.beginTransition_kept h)) (answers_next.mpr h)))

theorem execDeviceWarmReset_answers {c : WarmCause} (h : Kept a s) : Answers a (execDeviceWarmReset c s) := by
  simp only [execDeviceWarmReset, State.trigger_kept, answers_next, h]

theorem State.coldReset_kept {power : Bool} (h : Kept a s) : Kept a (s.coldReset power) := by
  unfold State.coldReset
  exact kept_mk.mpr (State.wrB_kept _ _ _ _ (State.wrW_kept _ _ _ (State.coldKeep_kept h))).at_

theorem execColdReset_answers {c : ColdCause} (h : Kept a s) : Answers a (execColdReset c s) := by
  simp only [execColdReset, State.coldReset_kept, answers_next, h]

theorem execSysResetLow_answers (h : Kept a s) : Answers a (execSysResetLow s) := by
  unfold execSysResetLow
  split
  · simp only [answers_next, kept_mk, Kept.at_, h]
  · simp only [State.coldReset_kept, answers_next, h]
  · simp only [State.enterDrain_kept, State.coldReset_kept, answers_next, Answers.ite, h]
  · simp only [State.enterDrain_kept, State.coldReset_kept, answers_next, Answers.ite, h]
  · simp only [State.enterDrain_kept, State.coldReset_kept, answers_next, Answers.ite, h]
  · simp only [State.enterDrain_kept, State.coldReset_kept, answers_next, Answers.ite, h]

theorem execPowerFail_answers {lowNs : Nat} (h : Kept a s) : Answers a (execPowerFail lowNs s) := by
  unfold execPowerFail
  extract_lets low
  have hlow (t : State) (hk : Kept a t) : Kept a (low t) := kept_mk.mpr (State.wrB_kept _ _ _ _ hk).at_
  refine Answers.ite (answers_next.mpr (State.enterDrain_kept (hlow _ h))) (Answers.ite (answers_next.mpr h) ?_)
  have hd := State.draw_kept s h
  exact answers_next.mpr (Kept.ite (State.enterDrain_kept (hlow _ hd)) hd)

theorem execMainPgRise_answers (h : Kept a s) : Answers a (execMainPgRise s) := by
  unfold execMainPgRise
  exact answers_next.mpr (State.wrB_kept _ _ _ _ (kept_mk.mpr (State.wrB_kept _ _ _ _ h).at_))

/-! ### Machine/Ethernet.lean -/

theorem State.updatePauses_kept {h' : Nat} (h : Kept a s) : Kept a (s.updatePauses h') := by
  simp +contextual only [State.updatePauses, State.updatePause_kept, Kept.fold, implies_true, h]

theorem State.updateFetchHold_kept {h' : Nat} (h : Kept a s) : Kept a (s.updateFetchHold h') := by
  simp only [State.updateFetchHold, State.setStage_kept, h]

theorem State.stagePkt_kept {h' : Nat} {k : Pkt} {held : Bool} (h : Kept a s) : Kept a (s.stagePkt h' k held) := by
  unfold State.stagePkt
  exact Kept.ite (State.count_kept _ _ (State.setStage_kept _ _ _ (State.arrive_kept _ _ _ h)))
    (State.updatePauses_kept (State.updateFetchHold_kept (State.setStage_kept _ _ _ (State.arrive_kept _ _ _ h))))

theorem State.unstage_kept {h' : Nat} (h : Kept a s) : Kept a (s.unstage h') := by
  unfold State.unstage
  extract_lets x
  split
  · exact h
  · exact State.updatePauses_kept (State.updateFetchHold_kept (State.setStage_kept _ _ _ h))

theorem State.showPaused_kept {p c : Nat} {b : Bool} (h : Kept a s) : Kept a (s.showPaused p c b) := by
  simp +contextual only [State.showPaused, State.wr_kept, Kept.fold, implies_true, h]

theorem State.pauseClass_kept {p c quanta : Nat} (h : Kept a s) : Kept a (s.pauseClass p c quanta) := by
  simp only [State.pauseClass, State.showPaused_kept, kept_mk, Kept.at_, h]

theorem State.macControl_kept {p : Nat} {l : List Byte} (h : Kept a s) : KeptIf a (s.macControl p l) :=
  .ite (.some (Kept.fold (fun _ _ hk => State.pauseClass_kept hk) h))
    (.ite (.some (Kept.fold (fun _ _ hk => Kept.ite (State.pauseClass_kept hk) hk) h)) .none)

theorem execPauseExpiry_answers {p : Port} {c : Fin 8} (h : Kept a s) : Answers a (execPauseExpiry p c s) := by
  unfold execPauseExpiry
  exact Answers.ite (answers_next.mpr (State.showPaused_kept ⟨h.at_⟩)) (answers_next.mpr h)

theorem execPfcRepeat_answers {p : Port} (h : Kept a s) : Answers a (execPfcRepeat p s) := by
  simp only [execPfcRepeat, State.sendPause_kept, Kept.ite, answers_next, h]

theorem State.setSa_kept {i : Nat} {x : MacsecSA} (h : Kept a s) : Kept a (s.setSa i x) := by
  simp only [State.setSa, kept_mk, Kept.at_, h]

theorem State.acceptFrame_kept {p wire : Nat} {l : List Byte} (h : Kept a s) : Kept a (s.acceptFrame p wire l) := by
  unfold State.acceptFrame
  exact State.stagePkt_kept (State.draw_kept _ (State.countN_kept _ _ _ (State.count_kept _ _ h)))

theorem State.rxLimited_kept {p wire : Nat} {l : List Byte} {overLimit : Bool} (h : Kept a s) :
    Kept a (s.rxLimited p wire l overLimit) := by
  unfold State.rxLimited
  exact Kept.ite (State.acceptFrame_kept h) (Kept.ite (State.acceptFrame_kept (State.sendPause_kept _ _ _ _ h))
    (State.count_kept _ _ h))

theorem State.macsecRx_kept {p : Nat} {l : List Byte} {x : List Byte × State} (h : Kept a s)
    (e : s.macsecRx p l = .ok x) : Kept a x.2 := by
  unfold State.macsecRx at e
  dsimp only at e
  split at e
  · split at e
    · cases e; exact h
    · cases e
  · split at e
    · cases e
    · split at e
      · cases e
      · split at e
        · cases e
        · split at e
          · cases e
          · cases e; exact State.setSa_kept h

theorem State.rxBody_kept {p wire : Nat} {l : List Byte} {overLimit : Bool} (h : Kept a s) :
    Kept a (s.rxBody p wire l overLimit) := by
  unfold State.rxBody
  refine .ite ?_ (State.rxLimited_kept h)
  split
  · rename_i e
    exact State.rxLimited_kept (State.macsecRx_kept h e)
  · exact State.count_kept _ _ h
  · exact State.count_kept _ _ (State.count_kept _ _ h)

theorem State.fecCount_kept {p len : Nat} {pcsErr : Bool} (h : Kept a s) : Kept a (s.fecCount p len pcsErr) := by
  unfold State.fecCount
  exact Kept.ite h (Kept.ite (State.countN_kept _ _ _ (State.draw_kept _ h)) (State.countN_kept _ _ _
    (State.draw_kept _ (State.countN_kept _ _ _ (State.draw_kept _ h)))))

theorem execFrameReceive_answers {p : Port} {data : List Byte} {pcsErr overLimit : Bool} (h : Kept a s) :
    Answers a (execFrameReceive p data pcsErr overLimit s) := by
  unfold execFrameReceive
  refine .ite (answers_next.mpr h) ?_
  have hs : Kept a (s.fecCount p data.length pcsErr) := State.fecCount_kept h
  have hc (k : Nat) : Answers a (.next ((s.fecCount p data.length pcsErr).count k)) :=
    answers_next.mpr (State.count_kept _ _ hs)
  refine .ite (hc _) (.ite (hc _) (.ite (hc _) (.ite (hc _) (.ite ?_ (answers_next.mpr (State.rxBody_kept hs))))))
  split
  · exact answers_next.mpr (State.count_kept _ _ (State.macControl_kept hs _ ‹_›))
  · exact hc _

theorem State.activateSa_kept {p an : Nat} (h : Kept a s) : Kept a (s.activateSa p an) := by
  unfold State.activateSa
  exact Kept.ite (State.raise_kept ⟨h.at_⟩) ⟨h.at_⟩

theorem State.macsecTx_kept {p : Nat} {l : List Byte} {x : List Byte × State} (h : Kept a s)
    (e : s.macsecTx p l = some x) : Kept a x.2 := by
  unfold State.macsecTx at e
  dsimp only at e
  split at e
  · cases e
  · split at e
    · cases e
    · cases e
      exact .ite (State.raise_kept (State.setSa_kept h)) (State.setSa_kept h)

theorem State.sendFrame_kept {p : Nat} {l : List Byte} {time : Nat} (h : Kept a s) : Kept a (s.sendFrame p l time) := by
  unfold State.sendFrame
  extract_lets put
  have hput (s : State) (l : List Byte) (hk : Kept a s) : Kept a (put s l) :=
    State.emit_kept _ _ ⟨(State.countN_kept _ _ _ (State.count_kept _ _ hk)).at_⟩
  refine .ite ?_ (hput _ _ h)
  split
  · exact State.count_kept _ _ h
  · rename_i e
    exact hput _ _ (State.macsecTx_kept h e)

theorem execLinkDown_answers {p : Port} {remote hiBer : Bool} (h : Kept a s) :
    Answers a (execLinkDown p remote hiBer s) := by
  simp only [execLinkDown, State.linkDown_kept, Kept.ite, answers_next, h]

theorem execLinkUp_answers {p : Port} {copper : Bool} (h : Kept a s) : Answers a (execLinkUp p copper s) := by
  unfold execLinkUp
  exact Answers.ite (answers_next.mpr h) (answers_next.mpr (State.updatePause_kept _ _ (kept_mk.mpr (Kept.fold
    (fun _ _ hk => State.calibrate_kept _ _ hk) (State.stamp_kept _ _ (State.wrB_kept _ _ _ _ (State.wrB_kept _ _ _ _
    (State.wrB_kept _ _ _ _ (State.wrB_kept _ _ _ _ (State.wrB_kept _ _ _ _ h))))))).at_)))

theorem execLaneSignalLoss_answers {lane : Fin 96} (h : Kept a s) : Answers a (execLaneSignalLoss lane s) := by
  unfold execLaneSignalLoss
  extract_lets s1 r
  have hs1 : Kept a s1 := by
    unfold s1
    split
    · exact State.stamp_kept _ _ h
    · exact h
  simp only [Kept.ite, answers_next, kept_mk, Kept.at_, hs1]

theorem State.setCage_kept {g w : Nat} (h : Kept a s) : Kept a (s.setCage g w) := by
  simp only [State.setCage, kept_mk, Kept.at_, h]

theorem execModuleInserted_answers {g : LaneGroup} {watts : Nat} (h : Kept a s) :
    Answers a (execModuleInserted g watts s) := by
  unfold execModuleInserted
  exact answers_next.mpr (Kept.ite h (State.judgeModule_kept (State.moduleSeen_kept _ _ (State.setCage_kept h))))

theorem execModuleRemoved_answers {g : LaneGroup} (h : Kept a s) : Answers a (execModuleRemoved g s) := by
  unfold execModuleRemoved
  exact Answers.ite (answers_next.mpr h) (Answers.ite (answers_next.mpr (State.setCage_kept h)) (answers_next.mpr
    (State.emit_kept _ _ (kept_mk.mpr (State.wrB_kept _ _ _ _ (State.wrB_kept _ _ _ _ (State.setCage_kept h))).at_))))

theorem execModuleOvercurrent_answers {g : LaneGroup} (h : Kept a s) : Answers a (execModuleOvercurrent g s) := by
  unfold execModuleOvercurrent
  exact Answers.ite (answers_next.mpr h) (answers_next.mpr (State.raise_kept (State.emit_kept _ _
    (State.wrB_kept _ _ _ _ (State.wrB_kept _ _ _ _ h)))))

theorem execModuleI2cStuck_answers {g : LaneGroup} {failures : Nat} (h : Kept a s) :
    Answers a (execModuleI2cStuck g failures s) := by
  unfold execModuleI2cStuck
  exact Answers.ite (answers_next.mpr h) (answers_next.mpr (Kept.ite (Kept.fold (fun _ _ hk => Kept.fold
    (fun _ _ hk1 => State.emit_kept _ _ hk1) hk) h) (State.raise_kept (State.wrB_kept _ _ _ _ (Kept.fold
    (fun _ _ hk => Kept.fold (fun _ _ hk1 => State.emit_kept _ _ hk1) hk) h)))))

/-! ### Machine/Husker.lean -/

theorem State.setUpset_kept {k v : Nat} (h : Kept a s) : Kept a (s.setUpset k v) := by
  simp only [State.setUpset, kept_mk, Kept.at_, h]

theorem State.noteEcc_kept {k : Nat} {e : Ecc} (h : Kept a s) : Kept a (s.noteEcc k e) := by
  unfold State.noteEcc
  split
  · exact h
  · simp only [State.setUpset_kept, Kept.ite, h]
  · exact State.setUpset_kept h

theorem State.husk_kept {h' : Nat} {k : Pkt} (h : Kept a s) : Kept a (s.husk h' k) := by
  unfold State.husk
  extract_lets k1 b lr e s1 s2 s3 s4 act flags
  have hs1 : Kept a s1 := State.chainTaken_kept _ _ (State.count_kept _ _ h)
  have hs2 : Kept a s2 := Kept.ite (State.count_kept _ _ hs1) hs1
  have hs3 : Kept a s3 := Kept.ite hs2 (State.count_kept _ _ hs2)
  have hs4 : Kept a s4 := Kept.ite (State.raise_kept hs3) hs3
  exact Kept.ite (State.chainParseDrop_kept _ _ (State.count_kept _ _ hs4)) (State.setToks_kept _ _ _ hs4)

theorem execLongReachSwitch_answers {h' : Headrace} (h : Kept a s) : Answers a (execLongReachSwitch h' s) := by
  simp only [execLongReachSwitch, State.wrB_kept, answers_next, Answers.ite, h]

theorem State.setDataRegs_kept {a' n v : Nat} (h : Kept a s) : Kept a (s.setDataRegs a' n v) := by
  simp +contextual only [State.setDataRegs, State.wrW_kept, Kept.fold, implies_true, h]

theorem State.setGraph_kept {k v : Nat} (h : Kept a s) : Kept a (s.setGraph k v) := by
  simp only [State.setGraph, State.setUpset_kept, kept_mk, Kept.at_, h]

theorem execHuskMemWrite_answers {h' : Headrace} (h : Kept a s) : Answers a (execHuskMemWrite h' s) := by
  unfold execHuskMemWrite
  exact Answers.ite (answers_next.mpr (State.answer_kept _ _ h)) (answers_next.mpr (State.answer_kept _ _
    (State.setGraph_kept h)))

theorem execHuskMemRead_answers {h' : Headrace} (h : Kept a s) : Answers a (execHuskMemRead h' s) := by
  unfold execHuskMemRead
  exact Answers.ite (answers_next.mpr (State.answer_kept _ _ h)) (answers_next.mpr (State.answer_kept _ _
    (State.setDataRegs_kept h)))

/-! ### Machine/Tables.lean -/

theorem State.setSeed_kept {q i e : Nat} (h : Kept a s) : Kept a (s.setSeed q i e) := by
  simp only [State.setSeed, State.setUpset_kept, State.onTbl_kept, h]

theorem State.setNotices_kept {q : Nat} {l : List Notice} (h : Kept a s) : Kept a (s.setNotices q l) := by
  simp only [State.setNotices, State.onTbl_kept, h]

theorem State.postNotice_kept {q : Nat} {n : Notice} (h : Kept a s) : Kept a (s.postNotice q n) := by
  simp only [State.postNotice, State.setNotices_kept, Kept.ite, h]

theorem State.seedParity_kept {q i : Nat} (h : Kept a s) : Kept a (s.seedParity q i) := by
  unfold State.seedParity
  exact State.postNotice_kept (State.raise_kept (State.count_kept _ _ h))

theorem State.sieveParity_kept {q a' : Nat} (h : Kept a s) : Kept a (s.sieveParity q a') := by
  unfold State.sieveParity
  exact State.postNotice_kept (State.raise_kept (State.count_kept _ _ h))

theorem State.seedLookup_kept {q key : Nat} {touch : Bool} {ecc : Ecc} (h : Kept a s) :
    Kept a (s.seedLookup q key touch ecc).2 := by
  unfold State.seedLookup
  split
  · exact h
  · extract_lets u s1 e
    have hs1 : Kept a s1 := by simp only [s1, State.setUpset_kept, Kept.ite, h]
    split
    · simp only [State.seedParity_kept, hs1]
    · simp only [State.onTbl_kept, Kept.ite, hs1]

theorem State.setUnit_kept {q a' v : Nat} (h : Kept a s) : Kept a (s.setUnit q a' v) := by
  simp only [State.setUnit, State.setUpset_kept, State.onTbl_kept, h]

theorem State.writeEntry_kept {q a' w : Nat} {valid : Bool} {action value mask : Nat} (h : Kept a s) :
    Kept a (s.writeEntry q a' w valid action value mask) := by
  simp +contextual only [State.writeEntry, State.setUnit_kept, Kept.fold, implies_true, h]

theorem State.clearEntry_kept {q a' : Nat} (h : Kept a s) : Kept a (s.clearEntry q a') := by
  simp only [State.clearEntry, State.setUnit_kept, h]

theorem State.sieveLookup_kept {q p key : Nat} {ecc : Ecc} (h : Kept a s) : Kept a (s.sieveLookup q p key ecc).2 := by
  unfold State.sieveLookup
  split
  · exact h
  · extract_lets w first ms s1 s2
    have hs1 : Kept a s1 := by
      unfold s1
      split
      · exact State.setUpset_kept h
      · exact h
    have hs2 : Kept a s2 := by simp +contextual only [s2, State.sieveParity_kept, Kept.fold, implies_true, hs1]
    split <;> exact hs2

theorem State.stackCE_kept {k a' : Nat} (h : Kept a s) : Kept a (s.stackCE k a') := by
  unfold State.stackCE
  exact State.raise_kept (State.wrB_kept _ _ _ _ (State.count_kept _ _ h))

theorem State.stackUE_kept {k a' : Nat} (h : Kept a s) : Kept a (s.stackUE k a') := by
  unfold State.stackUE
  exact State.raise_kept (State.wrPair_kept _ _ _ (State.wrB_kept _ _ _ _ (State.count_kept _ _ h)))

theorem State.dropSlot_kept {t' i : Nat} (h : Kept a s) : Kept a (s.dropSlot t' i) := by
  simp only [State.dropSlot, State.setSlot_kept, State.count_kept, h]

theorem State.slotUncorrectable_kept {t' i : Nat} (h : Kept a s) : Kept a (s.slotUncorrectable t' i) := by
  simp only [State.slotUncorrectable, State.stackUE_kept, State.dropSlot_kept, h]

theorem State.htLookup_kept {t' key : Nat} {touch : Bool} {ecc : Ecc} (h : Kept a s) :
    Kept a (s.htLookup t' key touch ecc).2 := by
  unfold State.htLookup
  split
  · exact h
  · extract_lets s1
    have hs1 : Kept a s1 := State.count_kept _ _ h
    split
    · exact hs1
    · split
      · exact hs1
      · split
        · simp only [State.slotUncorrectable_kept, hs1]
        · extract_lets ra s2 v s3
          have hs2 : Kept a s2 := by simp only [s2, State.stackCE_kept, Kept.ite, hs1]
          have hs3 : Kept a s3 := State.count_kept _ _ hs2
          split
          · simp only [State.setSlot_kept, State.count_kept, hs3]
          · exact hs3

theorem State.htUpdate_kept {t' key w data : Nat} (h : Kept a s) : Kept a (s.htUpdate t' key w data) := by
  unfold State.htUpdate
  refine Kept.ite h ?_
  extract_lets refuse
  have hrefuse : Kept a refuse := State.count_kept _ _ h
  refine Kept.ite hrefuse ?_
  split
  · exact hrefuse
  · exact State.setSlot_kept h

theorem execRsvIdleSweep_answers {t' : Fin 8} {touched : List Nat} (h : Kept a s) :
    Answers a (execRsvIdleSweep t' touched s) := by
  unfold execRsvIdleSweep
  exact Answers.ite (answers_next.mpr h) (answers_next.mpr (State.every_kept _ _ _ _ h (fun _ hk =>
    State.bgCaught_kept (Kept.fold (fun _ _ hk1 => Kept.ite (State.count_kept _ _ (State.setSlot_kept hk1))
    (State.count_kept _ _ (State.setSlot_kept hk1))) hk))))

theorem State.setMeter_kept {q i v : Nat} (h : Kept a s) : Kept a (s.setMeter q i v) := by
  simp only [State.setMeter, State.onTbl_kept, h]

theorem State.writeMeter_kept {q i w01 : Nat} (h : Kept a s) : Kept a (s.writeMeter q i w01) := by
  simp only [State.writeMeter, State.setMeter_kept, h]

/-- A meter operation keeps the state. -/
def MeterKeeps (a : State) (f : State → Nat → Nat → Nat → Nat → Nat × State) : Prop :=
  ∀ s q i b pre c t, f s q i b pre = (c, t) → Kept a s → Kept a t

/-- The operation is a variable here: the kernel would otherwise evaluate the colour of a meter. -/
theorem meterOp_keeps : ∃ g, State.meterOp = g ∧ MeterKeeps a g := by
  refine ⟨_, by delta State.meterOp; rfl, ?_⟩
  intro s q i b pre c t
  beta_reduce
  intro e h
  extract_lets v at e
  generalize colourOf v b pre = c at e
  obtain ⟨c, dc, dp⟩ := c
  rw [← (Prod.mk.inj e).2]
  exact State.setMeter_kept h

theorem State.meterOp_kept {q i b pre c : Nat} (e : s.meterOp q i b pre = (c, t)) (h : Kept a s) : Kept a t := by
  obtain ⟨g, hg, hk⟩ := meterOp_keeps (a := a)
  rw [hg] at e
  exact hk s q i b pre c t e h

theorem execSeedMtrWrite_answers {q : Quad} (h : Kept a s) : Answers a (execSeedMtrWrite q s) := by
  unfold execSeedMtrWrite
  exact Answers.ite (answers_next.mpr (State.answer_kept _ _ h)) (answers_next.mpr (State.answer_kept _ _
    (State.writeMeter_kept h)))

theorem execSeedMtrRead_answers {q : Quad} (h : Kept a s) : Answers a (execSeedMtrRead q s) := by
  unfold execSeedMtrRead
  exact Answers.ite (answers_next.mpr (State.answer_kept _ _ h)) (answers_next.mpr (State.answer_kept _ _
    (State.setDataRegs_kept h)))

theorem execSeedEntWrite_answers {q : Quad} {tablePath : Bool} (h : Kept a s) :
    Answers a (execSeedEntWrite q tablePath s) := by
  unfold execSeedEntWrite
  exact Answers.ite (answers_next.mpr (State.answer_kept _ _ h)) (answers_next.mpr (State.answer_kept _ _
    (State.setSeed_kept h)))

theorem execSeedEntRead_answers {q : Quad} (h : Kept a s) : Answers a (execSeedEntRead q s) := by
  unfold execSeedEntRead
  exact Answers.ite (answers_next.mpr (State.answer_kept _ _ h)) (answers_next.mpr (State.answer_kept _ _
    (State.setDataRegs_kept h)))

theorem execSievEntWrite_answers {q : Quad} {tablePath : Bool} (h : Kept a s) :
    Answers a (execSievEntWrite q tablePath s) := by
  unfold execSievEntWrite
  exact Answers.ite (answers_next.mpr (State.answer_kept _ _ h)) (answers_next.mpr (State.answer_kept _ _
    (State.writeEntry_kept h)))

theorem execSievEntClear_answers {q : Quad} {tablePath : Bool} (h : Kept a s) :
    Answers a (execSievEntClear q tablePath s) := by
  unfold execSievEntClear
  exact Answers.ite (answers_next.mpr (State.answer_kept _ _ h)) (answers_next.mpr (State.answer_kept _ _
    (State.clearEntry_kept h)))

theorem execSievEntRead_answers {q : Quad} (h : Kept a s) : Answers a (execSievEntRead q s) := by
  unfold execSievEntRead
  exact Answers.ite (answers_next.mpr (State.answer_kept _ _ h)) (answers_next.mpr (State.answer_kept _ _
    (State.wr_kept _ _ _ _ (State.wrB_kept _ _ _ _ (State.setDataRegs_kept (State.setDataRegs_kept h))))))

theorem State.newVersion_kept (h : Kept a s) : Kept a s.newVersion := by
  unfold State.newVersion
  exact Kept.fold (fun _ _ hk => State.wr_kept _ _ _ _ hk) (State.onTbl_kept _ _ (State.event_kept _ _ _ h))

theorem State.seedPut_kept {q e : Nat} (h : Kept a s) : Kept a (s.seedPut q e) := by
  unfold State.seedPut
  split
  · exact State.setSeed_kept h
  · split
    · rename_i e1
      have h2 : Kept a _ := Kept.of_snd e1 (State.choose_kept _ _ _ _ h)
      exact State.setSeed_kept h2
    · rename_i e3
      have h4 : Kept a _ := Kept.of_snd e3 (State.choose_kept _ _ _ _ h)
      exact h4

theorem State.setMaster_kept {key e : Nat} (h : Kept a s) : Kept a (s.setMaster key e) := by
  simp only [State.setMaster, State.onTbl_kept, h]

theorem State.seedInsert_kept {e : Nat} (h : Kept a s) : Kept a (s.seedInsert e).2 := by
  unfold State.seedInsert
  split
  · simp only [State.onTbl_kept, h]
  · exact State.newVersion_kept (State.setMaster_kept (Kept.fold (fun _ _ hk => State.seedPut_kept hk) h))

theorem State.seedTake_kept {q key : Nat} (h : Kept a s) : Kept a (s.seedTake q key) := by
  unfold State.seedTake
  split
  · exact State.setSeed_kept h
  · exact h

theorem State.seedRemove_kept {key : Nat} (h : Kept a s) : Kept a (s.seedRemove key) := by
  unfold State.seedRemove
  exact State.newVersion_kept (State.setMaster_kept (Kept.fold (fun _ _ hk => State.seedTake_kept hk) h))

theorem State.barrier_kept {k : Nat} (h : Kept a s) : Kept a (s.barrier k) := by
  simp only [State.barrier, State.wrB_kept, State.setToks_kept, h]

theorem State.afterBarriers_kept {q : Req} {opcode : Nat} {data : List Byte} (h : Kept a s) :
    Kept a (s.afterBarriers q opcode data) := by
  unfold State.afterBarriers
  exact Kept.ite (State.done_kept _ _ _ (Kept.fold (fun _ _ hk => State.barrier_kept hk) h)) (kept_mk.mpr (Kept.fold
    (fun _ _ hk => State.barrier_kept hk) h).at_)

theorem State.afterRemoval_kept {was : Bool} {q : Req} {opcode : Nat} {data : List Byte} (h : Kept a s) :
    Kept a (s.afterRemoval was q opcode data) := by
  simp only [State.afterRemoval, State.afterBarriers_kept, State.done_kept, Kept.ite, h]

theorem State.seedRecord_kept {key data flags home : Nat} (h : Kept a s) :
    Kept a (s.seedRecord key data flags home).2.2 := by
  unfold State.seedRecord
  split
  · exact h
  · split
    · exact h
    · split
      · exact h
      · split
        · rename_i e1
          have h2 : Kept a _ := Kept.of_snd e1 (State.seedInsert_kept h)
          exact h2
        · rename_i e3
          have h4 : Kept a _ := Kept.of_snd e3 (State.seedInsert_kept h)
          exact h4

theorem State.runSeedInsert_kept {q : Req} {c : Cmd} (h : Kept a s) : Kept a (s.runSeedInsert q c) := by
  simp only [State.runSeedInsert, State.seedRecord_kept, State.finishWith_kept, h]

theorem State.runSeedDelete_kept {q : Req} {c : Cmd} (h : Kept a s) : Kept a (s.runSeedDelete q c) := by
  unfold State.runSeedDelete
  exact Kept.ite (State.finish_kept _ _ _ h) (Kept.ite (State.done_kept _ _ _ h) (State.afterBarriers_kept
    (State.seedRemove_kept h)))

theorem State.seedRecords_kept {l : List (List Byte)} {n : Nat} (h : Kept a s) : Kept a (s.seedRecords l n).2.2 := by
  induction l generalizing s n with
  | nil => exact h
  | cons r l ih =>
    unfold State.seedRecords
    split
    rename_i e
    have hk : Kept a _ := Kept.of_thd e (State.seedRecord_kept h)
    split
    · exact ih hk
    · exact hk

theorem State.runSeedBatch_kept {q : Req} {c : Cmd} {buf : Fetch} (h : Kept a s) : Kept a (s.runSeedBatch q c buf) := by
  unfold State.runSeedBatch
  exact Kept.ite (State.finish_kept _ _ _ h) (State.withBuffer_kept h (fun _ hk => State.finish_kept _ _ _ hk)
    (fun _ _ hk => State.finishWith_kept _ _ _ (State.seedRecords_kept hk)))

theorem State.runSeedFlush_kept {q : Req} {c : Cmd} (h : Kept a s) : Kept a (s.runSeedFlush q c) := by
  unfold State.runSeedFlush
  exact Kept.ite (State.finish_kept _ _ _ h) (Kept.ite (State.finish_kept _ _ _ h) (State.afterRemoval_kept (Kept.fold
    (fun _ _ hk => State.seedRemove_kept hk) h)))

theorem State.sieveWriteAll_kept {a' w : Nat} {valid : Bool} {action value mask : Nat} (h : Kept a s) :
    Kept a (s.sieveWriteAll a' w valid action value mask) := by
  unfold State.sieveWriteAll
  exact State.newVersion_kept (Kept.fold (fun _ _ hk => State.writeEntry_kept hk) h)

theorem State.runSieveWrite_kept {q : Req} {c : Cmd} (h : Kept a s) : Kept a (s.runSieveWrite q c) := by
  unfold State.runSieveWrite
  extract_lets p r w value mask any free
  refine Kept.ite (State.finish_kept _ _ _ h) ?_
  split
  · rename_i e1
    have h2 : Kept a _ := Kept.of_snd e1 <| by
      split
      · exact State.choose_kept _ _ _ _ h
      · exact h
    exact State.finish_kept _ _ _ h2
  · rename_i e3
    have h4 : Kept a _ := Kept.of_snd e3 <| by
      split
      · exact State.choose_kept _ _ _ _ h
      · exact h
    exact Kept.ite (State.finish_kept _ _ _ h4) (State.afterRemoval_kept (State.sieveWriteAll_kept h4))

theorem State.runSieveClear_kept {q : Req} {c : Cmd} (h : Kept a s) : Kept a (s.runSieveClear q c) := by
  unfold State.runSieveClear
  exact Kept.ite (State.finish_kept _ _ _ h) (State.afterRemoval_kept (State.newVersion_kept (Kept.fold (fun _ _ hk =>
    State.clearEntry_kept hk) h)))

theorem State.setCopies_kept {off v : Nat} (h : Kept a s) : Kept a (s.setCopies off v) := by
  unfold State.setCopies
  exact State.onTbl_kept _ _ (Kept.fold (fun _ _ hk => State.wrW_kept _ _ _ hk) h)

theorem State.runSieveProfile_kept {q : Req} {c : Cmd} (h : Kept a s) : Kept a (s.runSieveProfile q c) := by
  unfold State.runSieveProfile
  exact Kept.ite (State.finish_kept _ _ _ h) (Kept.ite (State.busyRetry_kept _ _ _ h) (Kept.ite
    (State.finish_kept _ _ _ h) (State.done_kept _ _ _ (State.setCopies_kept (State.setCopies_kept h)))))

theorem State.runTable_kept {q : Req} {buf : Fetch} (h : Kept a s) : Kept a (s.runTable q buf) := by
  unfold State.runTable
  split
  · exact h
  · exact Kept.ite (State.runSeedInsert_kept h) (Kept.ite (State.runSeedDelete_kept h) (Kept.ite
      (State.runSeedBatch_kept h) (Kept.ite (State.runSeedFlush_kept h) (Kept.ite (State.runSieveWrite_kept h)
      (Kept.ite (State.runSieveClear_kept h) (Kept.ite (State.runSieveProfile_kept h) h))))))

theorem State.tableCommand_kept {q : Req} {opcode : Nat} {buf : Fetch} (h : Kept a s) :
    Kept a (s.tableCommand q opcode buf) := by
  unfold State.tableCommand
  exact State.command_kept _ _ _ _ h (fun _ _ hk => Kept.ite hk (Kept.ite (State.onTbl_kept _ _ hk)
    (State.runTable_kept hk)))

theorem State.drainTable_kept {l : List TblWait} (h : Kept a s) : Kept a (s.drainTable l) := by
  induction l generalizing s with
  | nil => exact State.onTbl_kept _ _ h
  | cons w l ih => exact .ite (State.onTbl_kept _ _ h) (.ite (ih (State.runTable_kept h)) (ih h))

theorem State.barriersEnded_kept (h : Kept a s) : Kept a s.barriersEnded := by
  unfold State.barriersEnded
  exact Kept.ite h (State.drainTable_kept (Kept.fold (fun _ _ hk => State.endJob_kept _ _ _ hk) h))

theorem execTblSeedInsert_answers {q : Req} (h : Kept a s) : Answers a (execTblSeedInsert q s) := by
  simp only [execTblSeedInsert, State.tableCommand_kept, answers_next, h]

theorem execTblSeedDelete_answers {q : Req} (h : Kept a s) : Answers a (execTblSeedDelete q s) := by
  simp only [execTblSeedDelete, State.tableCommand_kept, answers_next, h]

theorem execTblSeedBatch_answers {q : Req} {buf : Fetch} (h : Kept a s) : Answers a (execTblSeedBatch q buf s) := by
  simp only [execTblSeedBatch, State.tableCommand_kept, answers_next, h]

theorem execTblSeedFlush_answers {q : Req} (h : Kept a s) : Answers a (execTblSeedFlush q s) := by
  simp only [execTblSeedFlush, State.tableCommand_kept, answers_next, h]

theorem execTblSieveWrite_answers {q : Req} (h : Kept a s) : Answers a (execTblSieveWrite q s) := by
  simp only [execTblSieveWrite, State.tableCommand_kept, answers_next, h]

theorem execTblSieveClear_answers {q : Req} (h : Kept a s) : Answers a (execTblSieveClear q s) := by
  simp only [execTblSieveClear, State.tableCommand_kept, answers_next, h]

theorem execTblSieveProfile_answers {q : Req} (h : Kept a s) : Answers a (execTblSieveProfile q s) := by
  simp only [execTblSieveProfile, State.tableCommand_kept, answers_next, h]

theorem execTblSeedRead_answers {q : Req} (h : Kept a s) : Answers a (execTblSeedRead q s) := by
  unfold execTblSeedRead
  exact answers_next.mpr (State.command_kept _ _ _ _ h (fun _ _ hk => Kept.ite (State.finish_kept _ _ _ hk)
    (State.done_kept _ _ _ hk)))

theorem execTblSieveRead_answers {q : Req} (h : Kept a s) : Answers a (execTblSieveRead q s) := by
  unfold execTblSieveRead
  exact answers_next.mpr (State.command_kept _ _ _ _ h (fun _ _ hk => Kept.ite (State.finish_kept _ _ _ hk)
    (State.done_kept _ _ _ hk)))

theorem execTblRsvCreate_answers {q : Req} (h : Kept a s) : Answers a (execTblRsvCreate q s) := by
  unfold execTblRsvCreate
  refine answers_next.mpr (State.command_kept _ _ _ _ h (fun y1 s2 h3 => ?_))
  extract_lets t k l
  refine Kept.ite (State.finish_kept _ _ _ h3) ?_
  refine Kept.ite (State.finish_kept _ _ _ h3) ?_
  split
  · rename_i e4
    have h5 : Kept a _ := Kept.of_snd e4 (State.draw_kept _ h3)
    extract_lets cands s6
    have hs6 : Kept a s6 := State.onTbl_kept _ _ h5
    split
    · exact State.finish_kept _ _ _ h5
    · exact State.done_kept _ _ _ (State.stamp_kept _ _ (State.wr_kept _ _ _ _ (State.wr_kept _ _ _ _
        (State.wrW_kept _ _ _ hs6))))

theorem execTblRsvDestroy_answers {q : Req} (h : Kept a s) : Answers a (execTblRsvDestroy q s) := by
  unfold execTblRsvDestroy
  exact answers_next.mpr (State.command_kept _ _ _ _ h (fun _ _ hk => Kept.ite (State.finish_kept _ _ _ hk)
    (State.done_kept _ _ _ (State.wrB_kept _ _ _ _ (State.onTbl_kept _ _ hk)))))

theorem execTblRsvInsert_answers {q : Req} (h : Kept a s) : Answers a (execTblRsvInsert q s) := by
  unfold execTblRsvInsert
  exact answers_next.mpr (State.command_kept _ _ _ _ h (fun _ _ hk => State.finishWith_kept _ _ _
    (State.rsvRecord_kept hk)))

theorem execTblRsvDelete_answers {q : Req} (h : Kept a s) : Answers a (execTblRsvDelete q s) := by
  unfold execTblRsvDelete
  refine answers_next.mpr (State.command_kept _ _ _ _ h (fun y1 s2 h3 => ?_))
  extract_lets t
  refine Kept.ite (State.finish_kept _ _ _ h3) ?_
  split
  · exact State.done_kept _ _ _ h3
  · simp only [State.setSlot_kept, State.done_kept, h3]

theorem execTblRsvRead_answers {q : Req} (h : Kept a s) : Answers a (execTblRsvRead q s) := by
  unfold execTblRsvRead
  refine answers_next.mpr (State.command_kept _ _ _ _ h (fun y1 s2 h3 => ?_))
  extract_lets t
  refine Kept.ite (State.finish_kept _ _ _ h3) ?_
  split <;> exact State.done_kept _ _ _ h3

theorem State.rsvRecords_kept {k n : Nat} {l : List (List Byte)} (h : Kept a s) : Kept a (s.rsvRecords k l n).2.2 := by
  induction l generalizing s n with
  | nil => exact h
  | cons r l ih =>
    unfold State.rsvRecords
    split
    rename_i e
    have hk : Kept a _ := Kept.of_fth e (State.rsvRecord_kept h)
    split
    · exact ih hk
    · exact hk

theorem execTblRsvBatch_answers {q : Req} {buf : Fetch} (h : Kept a s) : Answers a (execTblRsvBatch q buf s) := by
  unfold execTblRsvBatch
  exact answers_next.mpr (State.command_kept _ _ _ _ h (fun _ _ hk => Kept.ite (State.finish_kept _ _ _ hk)
    (State.withBuffer_kept hk (fun _ hk1 => State.finish_kept _ _ _ hk1) (fun _ _ hk1 => State.finishWith_kept _ _ _
    (State.rsvRecords_kept hk1)))))

theorem execTblStatus_answers {q : Req} (h : Kept a s) : Answers a (execTblStatus q s) := by
  simp +contextual only [execTblStatus, State.command_kept, State.done_kept, implies_true, answers_next, h]

theorem State.setAging_kept {q period hold : Nat} (h : Kept a s) : Kept a (s.setAging q period hold) := by
  unfold State.setAging
  exact Kept.ite (State.wr_kept _ _ _ _ (State.wr_kept _ _ _ _ h)) (State.restartSweep_kept _ _ (State.wr_kept _ _ _ _
    (State.wr_kept _ _ _ _ h)))

theorem execTblAgeCfg_answers {q : Req} (h : Kept a s) : Answers a (execTblAgeCfg q s) := by
  unfold execTblAgeCfg
  exact answers_next.mpr (State.command_kept _ _ _ _ h (fun _ _ hk => Kept.ite (State.finish_kept _ _ _ hk)
    (State.done_kept _ _ _ (State.onTbl_kept _ _ (Kept.fold (fun _ _ hk1 => State.setAging_kept hk1) hk)))))

theorem execTableCopyLoaded_answers {q : Quad} (h : Kept a s) : Answers a (execTableCopyLoaded q s) := by
  unfold execTableCopyLoaded
  exact Answers.ite (answers_next.mpr h) (answers_next.mpr (State.drainTable_kept (State.wr_kept _ _ _ _ (Kept.fold
    (fun _ _ hk => Kept.ite (State.setAging_kept hk) (State.setReg_kept _ _ _ hk)) (Kept.fold (fun _ _ hk =>
    State.setUnit_kept hk) (Kept.fold (fun _ _ hk => State.seedPut_kept hk) (State.onTbl_kept _ _ h)))))))

theorem State.serveNotice_kept {q type : Nat} {k : Notice → State → State} (h : Kept a s)
    (hk : ∀ y0 y1, Kept a y1 → Kept a (k y0 y1)) : Kept a (s.serveNotice q type k) := by
  unfold State.serveNotice
  split
  · exact h
  · exact Kept.ite (hk _ _ (State.setNotices_kept h)) h

theorem State.repairSeed_kept {q key : Nat} (h : Kept a s) : Kept a (s.repairSeed q key) := by
  unfold State.repairSeed
  extract_lets e
  split
  · exact State.seedPut_kept h
  · exact State.setSeed_kept h

theorem execLearnNotice_answers {q : Quad} (h : Kept a s) : Answers a (execLearnNotice q s) := by
  unfold execLearnNotice
  exact answers_next.mpr (State.serveNotice_kept h (fun _ _ hk => Kept.ite (State.seedInsert_kept hk) (Kept.ite
    (State.repairSeed_kept hk) (Kept.ite (State.onTbl_kept _ _ hk) (State.seedInsert_kept hk)))))

theorem execMissNotice_answers {q : Quad} (h : Kept a s) : Answers a (execMissNotice q s) := by
  unfold execMissNotice
  exact answers_next.mpr (State.serveNotice_kept h (fun _ _ hk => Kept.ite (State.emit_kept _ _ (State.onTbl_kept _ _
    hk)) (State.onTbl_kept _ _ hk)))

theorem execAgeNotice_answers {q : Quad} (h : Kept a s) : Answers a (execAgeNotice q s) := by
  unfold execAgeNotice
  exact answers_next.mpr (State.serveNotice_kept h (fun _ _ hk => State.newVersion_kept (State.setMaster_kept
    (Kept.fold (fun _ _ hk1 => State.seedTake_kept hk1) hk))))

theorem execRemoteHitNotice_answers {q : Quad} (h : Kept a s) : Answers a (execRemoteHitNotice q s) := by
  unfold execRemoteHitNotice
  refine answers_next.mpr (State.serveNotice_kept h (fun y1 s2 h3 => ?_))
  extract_lets h4
  refine Kept.ite h3 ?_
  split
  · exact h3
  · exact State.setSeed_kept h3

theorem State.retireSeed_kept {q i key : Nat} (h : Kept a s) : Kept a (s.retireSeed q i key) := by
  unfold State.retireSeed
  exact Kept.ite (State.setSeed_kept h) (Kept.ite (Kept.ite (State.raise_kept (State.seedRemove_kept
    (State.setSeed_kept h))) (State.seedRemove_kept (State.setSeed_kept h))) (State.seedPut_kept (State.setSeed_kept
    h)))

theorem State.retireSieve_kept {q a' w : Nat} (h : Kept a s) : Kept a (s.retireSieve q a' w) := by
  unfold State.retireSieve
  extract_lets v m act s1
  have hs1 : Kept a s1 := by simp +contextual only [s1, State.setUnit_kept, Kept.fold, implies_true, h]
  refine Kept.ite hs1 ?_
  split
  · exact State.raise_kept hs1
  · extract_lets es lo hi free
    split
    · rename_i e2
      have h3 : Kept a _ := Kept.of_snd e2 (State.choose_kept _ _ _ _ hs1)
      exact State.raise_kept h3
    · rename_i e4
      have h5 : Kept a _ := Kept.of_snd e4 (State.choose_kept _ _ _ _ hs1)
      simp +contextual only [State.sieveWriteAll_kept, State.clearEntry_kept, Kept.fold, implies_true, h5]

theorem State.rewriteEntry_kept {q : Nat} {sieve : Bool} {i : Nat} {readBack : Bool} (h : Kept a s) :
    Kept a (s.rewriteEntry q sieve i readBack) := by
  unfold State.rewriteEntry
  exact Kept.ite (Kept.ite (Kept.fold (fun _ _ hk => State.setUnit_kept hk) h) (Kept.ite (Kept.fold (fun _ _ hk =>
    State.setUnit_kept hk) h) (State.retireSieve_kept h))) (Kept.ite (State.setSeed_kept h) (Kept.ite
    (State.retireSeed_kept h) (Kept.ite (State.setSeed_kept h) (State.setSeed_kept h))))

theorem execParityNotice_answers {q : Quad} {readBack : Bool} (h : Kept a s) :
    Answers a (execParityNotice q readBack s) := by
  unfold execParityNotice
  exact answers_next.mpr (State.serveNotice_kept h (fun _ _ hk => State.ackRouted_kept _ _ (State.rewriteEntry_kept
    hk)))

theorem State.sweepVisit_kept {q i : Nat} {hit : Bool} (h : Kept a s) : KeptIf a (s.sweepVisit q i hit) := by
  unfold State.sweepVisit
  extract_lets e put fullQ note
  have hput (x : Nat) : Kept a (put s x) := State.onTbl_kept _ _ h
  have hnote (x c k : Nat) : Kept a (note ((put s x).count c) k) := State.postNotice_kept (State.count_kept _ _ (hput
      x))
  exact .ite (.some (hput _)) (.ite (.ite (.some (hput _)) (.ite (.some (hput _))
    (.ite (.some (State.count_kept _ _ (hput _))) (.ite .none (.some (hnote _ _ _))))))
    (.ite (.ite .none (.some (hnote _ _ _))) (.some h)))

theorem execSweeperVisit_answers {q : Quad} {i : Fin 131072} {hit : Bool} (h : Kept a s) :
    Answers a (execSweeperVisit q i hit s) := by
  unfold execSweeperVisit
  refine .ite (answers_next.mpr h) ?_
  split
  · exact answers_next.mpr h
  · exact answers_next.mpr (State.bgCaught_kept (State.setSweep_kept _ _ _ (State.sweepVisit_kept h _ ‹_›)))

theorem State.setFilter_kept {h' : Nat} {l : List (Nat × Nat)} (h : Kept a s) : Kept a (s.setFilter h' l) := by
  simp only [State.setFilter, State.onTbl_kept, h]

theorem execLearnFilterExpire_answers {h' : Headrace} (h : Kept a s) : Answers a (execLearnFilterExpire h' s) := by
  simp only [execLearnFilterExpire, State.setFilter_kept, answers_next, h]

theorem State.learn_kept {h' type key data arr : Nat} (h : Kept a s) : Kept a (s.learn h' type key data arr) := by
  unfold State.learn
  exact Kept.ite h (Kept.ite (State.count_kept _ _ h) (Kept.ite (State.count_kept _ _ h) (State.event_kept _ _ _
    (State.setNotices_kept (State.count_kept _ _ (State.setFilter_kept h))))))

/-! ### Machine/Gates.lean -/

theorem State.settle_kept {k : Nat} (h : Kept a s) : Kept a (s.settle k) := by
  unfold State.settle
  exact Kept.ite (State.setToks_kept _ _ _ h) (State.wrB_kept _ _ _ _ (State.setToks_kept _ _ _ h))

theorem execPacketParse_answers {h' : Headrace} {gen : Option (List Byte)} {bad : List Nat} (h : Kept a s) :
    Answers a (execPacketParse h' gen bad s) := by
  unfold execPacketParse
  refine Answers.ite ?_ ?_
  · simp only [answers_next, h]
  · extract_lets s1
    have hs1 : Kept a s1 := by simp +contextual only [s1, State.noteEcc_kept, Kept.fold, implies_true, h]
    split
    · exact Answers.ite (answers_next.mpr (State.settle_kept (State.husk_kept hs1))) (answers_next.mpr hs1)
    · split
      · exact answers_next.mpr (State.settle_kept (State.husk_kept (State.unstage_kept hs1)))
      · simp only [answers_next, hs1]

theorem State.setTok_kept {k i : Nat} {t' : Token} (h : Kept a s) : Kept a (s.setTok k i t') := by
  simp only [State.setTok, State.setToks_kept, h]

theorem State.laneTally_kept {k : Nat} {t' : Token} {cat : Nat} (h : Kept a s) : Kept a (s.laneTally k t' cat) := by
  unfold State.laneTally
  exact Kept.fold (fun _ _ hk => Kept.ite hk (State.countN_kept _ _ _ (State.setPipe_kept _ _ _ hk))) h

theorem State.dropTok_kept {k i : Nat} (h : Kept a s) : Kept a (s.dropTok k i) := by
  unfold State.dropTok
  split
  · exact h
  · exact State.settle_kept (State.pktEnd_kept _ _ (State.laneTally_kept (State.setToks_kept _ _ _ h)))

theorem State.safePoint_kept {k i n : Nat} {x : Token} (h : Kept a s) : KeptIf a (s.safePoint k i n x) :=
  .ite (.some (State.count_kept _ _ (State.dropTok_kept h)))
    (.ite (.some (State.raise_kept (State.count_kept _ _ (State.dropTok_kept h)))) .none)

theorem State.advanceTok_kept {k i w : Nat} {x : Token} {en : Bool} {next : Nat} (h : Kept a s) :
    Kept a (s.advanceTok k i w x en next) := by
  unfold State.advanceTok
  refine .ite ?_ (State.setTok_kept h)
  split
  · exact State.safePoint_kept (State.setTok_kept h) _ ‹_›
  · exact State.settle_kept (State.setTok_kept h)

theorem State.badWord_kept {k i : Nat} (h : Kept a s) : Kept a (s.badWord k i) := by
  unfold State.badWord
  exact State.raise_kept (State.count_kept _ _ (State.dropTok_kept h))

/-- The body of a word keeps the state. -/
def WordKeeps (a : State) (f : Nat → WordEffect) : Prop := ∀ w x s, Kept a s → Kept a (f w x s).2

theorem WordKeeps.of_eq {f : Nat → WordEffect} (hf : ∀ w x s y t, f w x s = (y, t) → Kept a s → Kept a t) :
    WordKeeps a f :=
  fun _ _ _ h => hf _ _ _ _ _ rfl h

theorem State.execWord_kept {k i op : Nat} {ecc : Ecc} {held : Bool} {next : Nat → Nat → Nat} {f : Nat → WordEffect}
    (h : Kept a s) (hf : WordKeeps a f) : Kept a (s.execWord k i op ecc held next f) := by
  unfold State.execWord
  split
  · exact h
  · extract_lets key s1 w s2 x en
    have hs1 : Kept a s1 := State.noteEcc_kept h
    refine .ite (State.badWord_kept hs1) (.ite hs1 ?_)
    have hs2 : Kept a s2 := .ite (State.raise_kept hs1) hs1
    split
    · rename_i e
      split at e
      · exact State.safePoint_kept hs2 _ e
      · cases e
    · exact .ite (State.advanceTok_kept hs2) (.ite (State.setTok_kept hs2) (State.advanceTok_kept (hf _ _ _ hs2)))

theorem putResult_keeps {k : Nat} {v : Nat → Token → Nat} : WordKeeps a (putResult k v) :=
  fun _ _ _ h => .ite (State.count_kept _ _ h) h

theorem putPred_keeps {c : Nat → Nat → Bool} : WordKeeps a (putPred c) := fun _ _ _ h => h

theorem State.alu_kept {k i op : Nat} {ecc : Ecc} {v : Nat → Token → Nat} (h : Kept a s) :
    Kept a (s.alu k i op ecc v) :=
  State.execWord_kept h putResult_keeps

theorem State.cmp_kept {k i op : Nat} {ecc : Ecc} {c : Nat → Nat → Bool} (h : Kept a s) :
    Kept a (s.cmp k i op ecc c) :=
  State.execWord_kept h putPred_keeps

theorem execNop_answers {p : Pipe} {i : Nat} {ecc : Ecc} (h : Kept a s) : Answers a (execNop p i ecc s) :=
  answers_next.mpr (State.execWord_kept h fun _ _ _ h => h)

theorem execMov_answers {p : Pipe} {i : Nat} {ecc : Ecc} (h : Kept a s) : Answers a (execMov p i ecc s) := by
  simp only [execMov, State.alu_kept, answers_next, h]

theorem execAdd_answers {p : Pipe} {i : Nat} {ecc : Ecc} (h : Kept a s) : Answers a (execAdd p i ecc s) := by
  simp only [execAdd, State.alu_kept, answers_next, h]

theorem execSub_answers {p : Pipe} {i : Nat} {ecc : Ecc} (h : Kept a s) : Answers a (execSub p i ecc s) := by
  simp only [execSub, State.alu_kept, answers_next, h]

theorem execAnd_answers {p : Pipe} {i : Nat} {ecc : Ecc} (h : Kept a s) : Answers a (execAnd p i ecc s) := by
  simp only [execAnd, State.alu_kept, answers_next, h]

theorem execOr_answers {p : Pipe} {i : Nat} {ecc : Ecc} (h : Kept a s) : Answers a (execOr p i ecc s) := by
  simp only [execOr, State.alu_kept, answers_next, h]

theorem execXor_answers {p : Pipe} {i : Nat} {ecc : Ecc} (h : Kept a s) : Answers a (execXor p i ecc s) := by
  simp only [execXor, State.alu_kept, answers_next, h]

theorem execShl_answers {p : Pipe} {i : Nat} {ecc : Ecc} (h : Kept a s) : Answers a (execShl p i ecc s) := by
  simp only [execShl, State.alu_kept, answers_next, h]

theorem execShr_answers {p : Pipe} {i : Nat} {ecc : Ecc} (h : Kept a s) : Answers a (execShr p i ecc s) := by
  simp only [execShr, State.alu_kept, answers_next, h]

theorem execCeq_answers {p : Pipe} {i : Nat} {ecc : Ecc} (h : Kept a s) : Answers a (execCeq p i ecc s) := by
  simp only [execCeq, State.cmp_kept, answers_next, h]

theorem execCne_answers {p : Pipe} {i : Nat} {ecc : Ecc} (h : Kept a s) : Answers a (execCne p i ecc s) := by
  simp only [execCne, State.cmp_kept, answers_next, h]

theorem execClt_answers {p : Pipe} {i : Nat} {ecc : Ecc} (h : Kept a s) : Answers a (execClt p i ecc s) := by
  simp only [execClt, State.cmp_kept, answers_next, h]

theorem execCge_answers {p : Pipe} {i : Nat} {ecc : Ecc} (h : Kept a s) : Answers a (execCge p i ecc s) := by
  simp only [execCge, State.cmp_kept, answers_next, h]

theorem execTstm_answers {p : Pipe} {i : Nat} {ecc : Ecc} (h : Kept a s) : Answers a (execTstm p i ecc s) := by
  simp only [execTstm, State.cmp_kept, answers_next, h]

theorem execBr_answers {p : Pipe} {i : Nat} {ecc : Ecc} (h : Kept a s) : Answers a (execBr p i ecc s) :=
  answers_next.mpr (State.execWord_kept h fun _ _ _ h => h)

theorem execHash_answers {p : Pipe} {i : Nat} {ecc : Ecc} (h : Kept a s) : Answers a (execHash p i ecc s) := by
  simp only [execHash, State.alu_kept, answers_next, h]

theorem execWread_answers {p : Pipe} {i : Nat} {ecc : Ecc} (h : Kept a s) : Answers a (execWread p i ecc s) :=
  answers_next.mpr (State.execWord_kept h fun w x _ h => putResult_keeps (v := fun _ _ => (wread w x).1) w x _ h)

theorem issue_kept {r : Resp} {x : Token} (h : Kept a s) : Kept a (issue r x s).2 := State.draw_kept _ h

theorem lookup_keeps {k : Nat} {ecc : Ecc} : WordKeeps a (lookup k ecc) := by
  intro w x s h
  unfold lookup
  extract_lets q imm s1
  split
  · exact State.draw_kept _ (State.seedLookup_kept h)
  · split
    · exact State.draw_kept _ (State.sieveLookup_kept h)
    · have hs1 : Kept a s1 := State.event_kept _ _ _ (.ite (State.stamp_kept _ _ h) h)
      exact State.draw_kept _ (State.htLookup_kept hs1)

theorem execLookup_answers {p : Pipe} {i : Nat} {ecc tecc : Ecc} (h : Kept a s) :
    Answers a (execLookup p i ecc tecc s) :=
  answers_next.mpr (State.execWord_kept h lookup_keeps)

theorem execUpdate_answers {p : Pipe} {i : Nat} {ecc : Ecc} (h : Kept a s) : Answers a (execUpdate p i ecc s) :=
  answers_next.mpr (State.execWord_kept h fun _ _ _ h => State.htUpdate_kept h)

theorem execMeter_answers {p : Pipe} {i : Nat} {ecc : Ecc} (h : Kept a s) : Answers a (execMeter p i ecc s) := by
  refine answers_next.mpr (State.execWord_kept h (.of_eq ?_))
  intro w x s y t e h
  generalize hm : s.meterOp _ _ _ _ = m at e
  obtain ⟨c, s'⟩ := m
  exact Kept.of_snd e (issue_kept (State.meterOp_kept hm h))

theorem State.setCpair_kept {q i : Nat} {v : Nat × Nat} (h : Kept a s) : Kept a (s.setCpair q i v) := by
  simp only [State.setCpair, kept_mk, Kept.at_, h]

theorem execCount_answers {p : Pipe} {i : Nat} {ecc : Ecc} (h : Kept a s) : Answers a (execCount p i ecc s) :=
  answers_next.mpr (State.execWord_kept h fun _ _ _ h => State.setCpair_kept h)

theorem execLearn_answers {p : Pipe} {i : Nat} {ecc : Ecc} (h : Kept a s) : Answers a (execLearn p i ecc s) :=
  answers_next.mpr (State.execWord_kept h fun _ _ _ h => State.learn_kept h)

theorem execLookupResponse_answers {p : Pipe} {i j : Nat} (h : Kept a s) : Answers a (execLookupResponse p i j s) := by
  unfold execLookupResponse
  refine Answers.ite ?_ ?_
  · simp only [answers_next, h]
  · split
    · simp only [answers_next, h]
    · split
      · simp only [answers_next, h]
      · exact answers_next.mpr (State.settle_kept (State.setTok_kept (Kept.ite (State.count_kept _ _ h) h)))

theorem execBarrierReq_answers {p : Pipe} (h : Kept a s) : Answers a (execBarrierReq p s) := by
  unfold execBarrierReq
  exact answers_next.mpr (Kept.ite (State.answer_kept _ _ (State.barrier_kept h)) (State.answer_kept _ _ h))

theorem execBarrierDone_answers {p : Pipe} (h : Kept a s) : Answers a (execBarrierDone p s) := by
  unfold execBarrierDone
  exact Answers.ite (answers_next.mpr h) (answers_next.mpr (State.barriersEnded_kept (State.wrB_kept _ _ _ _ h)))

theorem execAbortReq_answers {p : Pipe} (h : Kept a s) : Answers a (execAbortReq p s) := by
  unfold execAbortReq
  exact Answers.ite (answers_next.mpr (State.answer_kept _ _ h)) (answers_next.mpr (State.answer_kept _ _
    (State.wrB_kept _ _ _ _ (State.setToks_kept _ _ _ h))))

theorem execPipelineWatchdog_answers {p : Pipe} (h : Kept a s) : Answers a (execPipelineWatchdog p s) := by
  unfold execPipelineWatchdog
  exact Answers.ite (answers_next.mpr h) (answers_next.mpr (State.ackRouted_kept _ _ (State.barriersEnded_kept
    (State.pipeReset_kept (State.raise_kept h)))))

theorem State.setWord_kept {key v : Nat} (h : Kept a s) : Kept a (s.setWord key v) := by
  simp only [State.setWord, State.setUpset_kept, kept_mk, Kept.at_, h]

theorem execMcWrite_answers {p : Pipe} (h : Kept a s) : Answers a (execMcWrite p s) := by
  unfold execMcWrite
  exact Answers.ite (answers_next.mpr (State.answer_kept _ _ h)) (answers_next.mpr (State.answer_kept _ _
    (State.setWord_kept h)))

theorem execMcRead_answers {p : Pipe} (h : Kept a s) : Answers a (execMcRead p s) := by
  unfold execMcRead
  exact Answers.ite (answers_next.mpr (State.answer_kept _ _ h)) (answers_next.mpr (State.answer_kept _ _
    (State.setDataRegs_kept h)))

theorem State.setEdit_kept {k v : Nat} (h : Kept a s) : Kept a (s.setEdit k v) := by
  simp only [State.setEdit, kept_mk, Kept.at_, h]

theorem execEdWrite_answers {t' : Tailrace} (h : Kept a s) : Answers a (execEdWrite t' s) := by
  unfold execEdWrite
  exact Answers.ite (answers_next.mpr (State.answer_kept _ _ h)) (answers_next.mpr (State.answer_kept _ _
    (State.setEdit_kept h)))

theorem execEdRead_answers {t' : Tailrace} (h : Kept a s) : Answers a (execEdRead t' s) := by
  unfold execEdRead
  exact Answers.ite (answers_next.mpr (State.answer_kept _ _ h)) (answers_next.mpr (State.answer_kept _ _
    (State.setDataRegs_kept h)))

theorem execFlip_answers {p : Pipe} (h : Kept a s) : Answers a (execFlip p s) := by
  unfold execFlip
  exact answers_next.mpr (Kept.ite (State.answer_kept _ _ (State.flip_kept h)) (State.answer_kept _ _ h))

theorem execBankFlip_answers {p : Pipe} (h : Kept a s) : Answers a (execBankFlip p s) := by
  unfold execBankFlip
  exact Answers.ite (answers_next.mpr h) (answers_next.mpr (State.flipped_kept (State.wrB_kept _ _ _ _ (Kept.ite
    (State.wr_kept _ _ _ _ (State.wrB_kept _ _ _ _ (State.wr_kept _ _ _ _ h))) (State.wrB_kept _ _ _ _
    (State.wr_kept _ _ _ _ h))))))

theorem execPipelineDrained_answers {p : Pipe} (h : Kept a s) : Answers a (execPipelineDrained p s) := by
  simp only [execPipelineDrained, State.wrB_kept, Kept.ite, answers_next, h]

theorem execMcStage_answers {q : Req} {buf : Fetch} (h : Kept a s) : Answers a (execMcStage q buf s) := by
  unfold execMcStage
  refine answers_next.mpr (State.command_kept _ _ _ _ h (fun y1 s2 h3 => ?_))
  refine Kept.ite (State.finish_kept _ _ _ h3) ?_
  refine Kept.ite (State.busyRetry_kept _ _ _ h3) ?_
  refine State.withBuffer_kept h3 (fun s4 h5 => State.finish_kept _ _ _ h5) (fun y6 s7 h8 => ?_)
  split
  · exact State.finishWith_kept _ _ _ h8
  · exact State.done_kept _ _ _ (kept_mk.mpr (Kept.fold (fun _ _ hk => State.stageBank_kept _ _ _ _ _ hk) h8).at_)

theorem execMcFlip_answers {q : Req} (h : Kept a s) : Answers a (execMcFlip q s) := by
  unfold execMcFlip
  exact answers_next.mpr (State.command_kept _ _ _ _ h (fun _ _ hk => Kept.ite (State.finish_kept _ _ _ hk) (Kept.ite
    (State.busyRetry_kept _ _ _ hk) (Kept.ite (State.finish_kept _ _ _ hk) (State.commitFlip_kept
    (State.addJob_kept _ _ _ _ hk))))))

theorem execMcStatus_answers {q : Req} (h : Kept a s) : Answers a (execMcStatus q s) := by
  simp +contextual only [execMcStatus, State.command_kept, State.done_kept, implies_true, answers_next, h]

theorem execCountRead_answers {q : Req} (h : Kept a s) : Answers a (execCountRead q s) := by
  unfold execCountRead
  exact answers_next.mpr (State.command_kept _ _ _ _ h (fun _ _ hk => Kept.ite (State.finish_kept _ _ _ hk) (Kept.ite
    (State.finish_kept _ _ _ hk) (Kept.ite (State.finish_kept _ _ _ hk) (State.done_kept _ _ _ (Kept.ite (Kept.fold
    (fun _ _ hk1 => State.setCpair_kept hk1) hk) hk))))))

theorem State.seedCnt_kept {q : Nat} {clear : Bool} (h : Kept a s) : Kept a (s.seedCnt q clear) := by
  unfold State.seedCnt
  exact Kept.ite (State.answer_kept _ _ h) (State.answer_kept _ _ (Kept.ite (State.setCpair_kept
    (State.setDataRegs_kept h)) (State.setDataRegs_kept h)))

theorem execSeedCntRead_answers {q : Quad} (h : Kept a s) : Answers a (execSeedCntRead q s) := by
  simp only [execSeedCntRead, State.seedCnt_kept, answers_next, h]

theorem execSeedCntReadClear_answers {q : Quad} (h : Kept a s) : Answers a (execSeedCntReadClear q s) := by
  simp only [execSeedCntReadClear, State.seedCnt_kept, answers_next, h]

/-! ### Machine/Weir.lean -/

theorem State.takeSegs_kept {h' pool n : Nat} {pair : Option Nat} (h : Kept a s) : Kept a (s.takeSegs h' pool n pair) := by
  unfold State.takeSegs
  extract_lets s1
  have hs1 : Kept a s1 := State.setPool_kept _ _ _ _ h
  split
  · exact hs1
  · simp only [State.pairUpdate_kept, State.setPair_kept, hs1]

theorem execCongestionAverageUpdate_answers (h : Kept a s) : Answers a (execCongestionAverageUpdate s) := by
  unfold execCongestionAverageUpdate
  exact Answers.ite (answers_next.mpr h) (answers_next.mpr (State.atRefill_kept _ _ _ h (fun _ hk =>
    State.onWeir_kept _ _ hk)))

theorem State.earlyDrop_kept {t' c carry : Nat} {data : List Byte} (h : Kept a s) :
    Kept a (s.earlyDrop t' c carry data).2 := by
  unfold State.earlyDrop
  split
  · exact h
  · extract_lets k b lo hi a1
    split
    · exact h
    · split
      · exact h
      · simp only [State.draw_kept, h]

theorem State.enqueue_kept {h' t' : Nat} {e : Enq} {copies : List Copy} {held : Option Nat} (h : Kept a s) :
    Kept a (s.enqueue h' t' e copies held).2 := by
  unfold State.enqueue
  extract_lets c v n pair
  split
  · rename_i e1
    have h2 : Kept a _ := Kept.of_snd e1 (State.earlyDrop_kept h)
    simp only [State.count_kept, h2]
  · rename_i e3
    have h4 : Kept a _ := Kept.of_snd e3 (State.earlyDrop_kept h)
    split
    · simp only [State.count_kept, h4]
    · exact State.setVoq_kept _ _ _ (Kept.ite h4 (State.takeSegs_kept h4))

theorem State.enqueueAll_kept {k : Nat} {e : Enq} {copies : Nat → List Copy} {l : List Nat} {held : Option Nat}
    (h : Kept a s) : Kept a (s.enqueueAll k e copies l held).2 := by
  induction l generalizing s held with
  | nil => exact h
  | cons x l ih =>
    unfold State.enqueueAll
    split <;> exact ih (Kept.of_snd ‹_› (State.enqueue_kept h))

theorem State.reasonDrop_kept {k reason : Nat} {p : Pkt} (h : Kept a s) : Kept a (s.reasonDrop k reason p) := by
  simp only [State.reasonDrop, State.count_kept, State.pktEnd_kept, h]

theorem State.leaveHeadrace_kept {h' : Nat} {t' : Token} (h : Kept a s) : Kept a (s.leaveHeadrace h' t').2 := by
  unfold State.leaveHeadrace
  extract_lets c kind tg lost queued e s' g e1 tails
  have hs' : Kept a s' := State.onWeir_kept _ _ h
  split
  · simp only [State.laneTally_kept, State.reasonDrop_kept, h, lost]
  · split
    · split
      · simp only [State.laneTally_kept, State.reasonDrop_kept, h, lost]
      · unfold queued
        split
        · rename_i e2
          have h3 : Kept a _ := Kept.of_snd e2 (State.enqueueAll_kept hs')
          simp only [State.laneTally_kept, State.pktEnd_kept, h3]
        · rename_i e4
          have h5 : Kept a _ := Kept.of_snd e4 (State.enqueueAll_kept hs')
          simp only [State.laneTally_kept, State.event_kept, h5]
    · split
      · simp only [State.laneTally_kept, State.reasonDrop_kept, h, lost]
      · split
        · exact State.pktEnd_kept _ _ (State.count_kept _ _ (State.laneTally_kept h))
        · unfold queued
          split
          · rename_i e6
            have h7 : Kept a _ := Kept.of_snd e6 (State.enqueue_kept hs')
            simp only [State.laneTally_kept, State.pktEnd_kept, h7]
          · rename_i e8
            have h9 : Kept a _ := Kept.of_snd e8 (State.enqueue_kept hs')
            simp only [State.laneTally_kept, State.event_kept, h9]

theorem State.setTap_kept {q r : Nat} {v : Nat × Nat} (h : Kept a s) : Kept a (s.setTap q r v) := by
  simp only [State.setTap, State.onWeir_kept, h]

theorem State.tapWrite_kept {q ring : Nat} {entry : Nat → List Byte} (h : Kept a s) : Kept a (s.tapWrite q ring entry) := by
  unfold State.tapWrite
  exact Kept.ite (State.count_kept _ _ (State.wr_kept _ _ _ _ (State.onWeir_kept _ _ (kept_mk.mpr
    (h.at_.putBytes _ _))))) (State.count_kept _ _ (State.onWeir_kept _ _ h))

theorem State.tap_kept {h' : Nat} {t' : Token} {dropped : Bool} (h : Kept a s) : Kept a (s.tap h' t' dropped) := by
  unfold State.tap
  extract_lets q r b n random
  refine Kept.ite h ?_
  split
  · split
    · rename_i e1
      have h2 : Kept a _ := Kept.of_snd e1 <| by
        split
        · exact State.draw_kept _ h
        · exact h
      exact Kept.ite (State.setTap_kept h2) (State.tapWrite_kept (State.setTap_kept h2))

theorem State.police_kept {k : Nat} {x y : Token} (e : s.police k x = (y, t)) (h : Kept a s) : Kept a t := by
  unfold State.police at e
  split at e
  · split at e
    · cases e; exact h
    · generalize hm : s.meterOp (k / 4) _ _ _ = m at e
      obtain ⟨c, s'⟩ := m
      exact (Prod.mk.inj e).2 ▸ State.meterOp_kept hm h
  · cases e; exact h
  · cases e; exact h
  · cases e; exact h

theorem execTokenExitHeadrace_answers {h' : Headrace} (h : Kept a s) : Answers a (execTokenExitHeadrace h' s) := by
  unfold execTokenExitHeadrace
  refine .ite (answers_next.mpr h) ?_
  split
  · exact answers_next.mpr h
  · refine .ite (answers_next.mpr h) ?_
    split
    rename_i s1 e
    have hk : Kept a s1 := by
      split at e
      · cases e; exact h
      · exact State.police_kept e h
    exact answers_next.mpr (State.settle_kept (State.tap_kept (State.leaveHeadrace_kept (State.setToks_kept _ _ _ hk))))

theorem State.moverBusy_kept {q dir bytes : Nat} (h : Kept a s) : Kept a (s.moverBusy q dir bytes) := by
  simp only [State.moverBusy, State.onWeir_kept, h]

theorem execSpillOut_answers {h' : Headrace} {t' : Tailrace} {c : Fin 8} (h : Kept a s) :
    Answers a (execSpillOut h' t' c s) := by
  unfold execSpillOut
  extract_lets v x
  split
  · simp only [answers_next, h]
  · exact Answers.ite (answers_next.mpr h) (answers_next.mpr (State.count_kept _ _ (State.moverBusy_kept
      (State.crossedOut_kept _ _ _ (State.setVoq_kept _ _ _ h)))))

theorem execSpillBack_answers {h' : Headrace} {t' : Tailrace} {c : Fin 8} (h : Kept a s) :
    Answers a (execSpillBack h' t' c s) := by
  unfold execSpillBack
  extract_lets v x head
  split
  · simp only [answers_next, h]
  · exact Answers.ite (answers_next.mpr h) (answers_next.mpr (State.moverBusy_kept (State.takeSegs_kept
      (State.setVoq_kept _ _ _ (State.onWeir_kept _ _ h)))))

theorem State.match_kept (h : Kept a s) : Kept a s.match_.2 := by
  simp +contextual only [State.match_, State.onWeir_kept, Kept.fold, implies_true, h]

theorem State.pickClass_kept {h' t' : Nat} (h : Kept a s) : Kept a (s.pickClass h' t').2 := by
  unfold State.pickClass
  extract_lets es put
  split
  · exact h
  · split
    · split
      · simp only [State.onWeir_kept, h, put]
      · split
        · exact h
        · simp only [State.onWeir_kept, h, put]

theorem State.recordIn_kept {v : Nat} {p : VPkt} (h : Kept a s) : Kept a (s.recordIn v p) := by
  unfold State.recordIn
  exact Kept.fold (fun _ _ hk => Kept.ite (State.pktEnd_kept _ _ (State.count_kept _ _ hk)) (State.event_kept _ _ _
    (State.setToks_kept _ _ _ hk))) (Kept.ite (State.count_kept _ _ h) h)

theorem State.moveCell_kept {v : Nat} (h : Kept a s) : Kept a (s.moveCell v) := by
  unfold State.moveCell
  exact State.settle_kept (Kept.fold (fun _ _ hk => State.crossedOut_kept _ _ _ hk) (State.setVoq_kept _ _ _
    (Kept.fold (fun _ _ hk => State.recordIn_kept hk) h)))

theorem execWeirSlot_answers (h : Kept a s) : Answers a (execWeirSlot s) := by
  unfold execWeirSlot
  refine Answers.ite ?_ ?_
  · simp only [answers_next, h]
  · split
    · rename_i e1
      have h2 : Kept a _ := Kept.of_snd e1 (State.match_kept h)
      extract_lets s3 s4
      have hs3 : Kept a s3 := by simp only [s3, State.onWeir_kept, State.event_kept, h2]
      have hs4 : Kept a s4 := by simp only [s4, State.event_kept, Kept.ite, hs3]
      refine answers_next.mpr (Kept.fold (fun s5 x6 h7 => ?_) hs4)
      split
      · rename_i e8
        have h9 : Kept a _ := Kept.of_snd e8 (State.pickClass_kept h7)
        exact h9
      · rename_i e10
        have h11 : Kept a _ := Kept.of_snd e10 (State.pickClass_kept h7)
        exact State.moveCell_kept h11

theorem execQosTcSet_answers {q : Req} (h : Kept a s) : Answers a (execQosTcSet q s) := by
  unfold execQosTcSet
  exact answers_next.mpr (State.command_kept _ _ _ _ h (fun _ _ hk => Kept.ite (State.finish_kept _ _ _ hk)
    (State.done_kept _ _ _ (State.wrW_kept _ _ _ hk))))

theorem execQosRedSet_answers {q : Req} (h : Kept a s) : Answers a (execQosRedSet q s) := by
  unfold execQosRedSet
  exact answers_next.mpr (State.command_kept _ _ _ _ h (fun _ _ hk => Kept.ite (State.finish_kept _ _ _ hk)
    (State.done_kept _ _ _ (Kept.fold (fun _ _ hk1 => State.wrW_kept _ _ _ (State.wrW_kept _ _ _ hk1)) hk))))

theorem execQosBufSet_answers {q : Req} (h : Kept a s) : Answers a (execQosBufSet q s) := by
  unfold execQosBufSet
  exact answers_next.mpr (State.command_kept _ _ _ _ h (fun _ _ hk => Kept.ite (State.finish_kept _ _ _ hk) (Kept.ite
    (State.finish_kept _ _ _ hk) (State.done_kept _ _ _ (State.wrW_kept _ _ _ (State.wrW_kept _ _ _ hk))))))

theorem execQosPfcSet_answers {q : Req} (h : Kept a s) : Answers a (execQosPfcSet q s) := by
  unfold execQosPfcSet
  exact answers_next.mpr (State.command_kept _ _ _ _ h (fun _ _ hk => Kept.ite (State.done_kept _ _ _
    (State.wrW_kept _ _ _ (State.wrW_kept _ _ _ hk))) (Kept.ite (State.done_kept _ _ _ (State.wrW_kept _ _ _
    (State.wrW_kept _ _ _ hk))) (State.finish_kept _ _ _ hk))))

theorem State.commitGroup_kept {q : Req} {g : Nat} {ms : List Nat} (h : Kept a s) : Kept a (s.commitGroup q g ms) := by
  unfold State.commitGroup
  extract_lets old
  split
  · rename_i e1
    have h2 : Kept a _ := Kept.of_snd e1 (State.draw_kept _ h)
    extract_lets fits cands
    split
    · exact State.finish_kept _ _ _ h2
    · simp only [State.done_kept, State.onWeir_kept, h2]

theorem execGroupEpochRelease_answers {g : Fin 4096} (h : Kept a s) : Answers a (execGroupEpochRelease g s) := by
  simp only [execGroupEpochRelease, State.onWeir_kept, answers_next, h]

theorem execGroupSet_answers {q : Req} (h : Kept a s) : Answers a (execGroupSet q s) := by
  unfold execGroupSet
  exact answers_next.mpr (State.command_kept _ _ _ _ h (fun _ _ hk => Kept.ite (State.finish_kept _ _ _ hk) (Kept.ite
    (State.busyRetry_kept _ _ _ hk) (Kept.ite (State.commitGroup_kept hk) (Kept.ite (State.finish_kept _ _ _
    (State.onWeir_kept _ _ hk)) (Kept.ite (State.done_kept _ _ _ (State.onWeir_kept _ _ hk)) (State.commitGroup_kept
    hk)))))))

theorem execGroupRead_answers {q : Req} (h : Kept a s) : Answers a (execGroupRead q s) := by
  unfold execGroupRead
  exact answers_next.mpr (State.command_kept _ _ _ _ h (fun _ _ hk => Kept.ite (State.finish_kept _ _ _ hk)
    (State.done_kept _ _ _ hk)))

theorem execTapSet_answers {q : Req} (h : Kept a s) : Answers a (execTapSet q s) := by
  unfold execTapSet
  exact answers_next.mpr (State.command_kept _ _ _ _ h (fun _ _ hk => Kept.ite (State.finish_kept _ _ _ hk)
    (State.done_kept _ _ _ (State.wrW_kept _ _ _ hk))))

theorem execTapRingSet_answers {q : Req} (h : Kept a s) : Answers a (execTapRingSet q s) := by
  unfold execTapRingSet
  refine answers_next.mpr (State.command_kept _ _ _ _ h (fun y1 s2 h3 => ?_))
  extract_lets x k size n r a4
  refine Kept.ite (State.finish_kept _ _ _ h3) ?_
  refine Kept.ite (State.finish_kept _ _ _ h3) ?_
  split
  · rename_i e5
    have h6 : Kept a _ := Kept.of_snd e5 (State.draw_kept _ h3)
    extract_lets cands fits
    split
    · exact State.finish_kept _ _ _ h6
    · exact State.done_kept _ _ _ (State.wr_kept _ _ _ _ (State.wr_kept _ _ _ _ (State.wr_kept _ _ _ _
        (State.wrPair_kept _ _ _ h6))))

theorem execWeirGrpRead_answers (h : Kept a s) : Answers a (execWeirGrpRead s) := by
  unfold execWeirGrpRead
  exact Answers.ite (answers_next.mpr (State.answer_kept _ _ h)) (answers_next.mpr (State.answer_kept _ _
    (State.wrW_kept _ _ _ h)))

theorem execWeirGrpWrite_answers (h : Kept a s) : Answers a (execWeirGrpWrite s) := by
  unfold execWeirGrpWrite
  exact Answers.ite (answers_next.mpr (State.answer_kept _ _ h)) (answers_next.mpr (State.answer_kept _ _
    (State.onWeir_kept _ _ h)))

/-! ### Machine/Egress.lean -/

theorem State.holdCells_kept {t' port cells : Nat} (h : Kept a s) : Kept a (s.holdCells t' port cells) := by
  simp only [State.holdCells, State.setEgress_kept, kept_mk, Kept.at_, h]

theorem State.startFrame_kept {t' : Nat} {x : EgrSt} {p : EPkt} (h : Kept a s) : Kept a (s.startFrame t' x p) := by
  unfold State.startFrame
  extract_lets len x1 port x2 x3 x4 s1
  have hs1 : Kept a s1 := State.countN_kept _ _ _ (State.count_kept _ _ h)
  refine Kept.ite (State.pktEnd_kept _ _ (State.count_kept _ _ (State.setEgress_kept _ _ _ h))) (Kept.ite ?_
    (State.setEgress_kept _ _ _ hs1))
  split
  rename_i e
  extract_lets s2 s3 t1
  have hs2 : Kept a s2 := State.setEgress_kept _ _ _ (Kept.of_snd e (State.draw_kept _ hs1))
  have hs3 : Kept a s3 := Kept.ite (State.count_kept _ _ hs2) hs2
  exact State.pktLeft_kept _ _ _ _ (State.holdCells_kept (State.sendFrame_kept hs3))

theorem execSlotFrameStart_answers {t' : Tailrace} {slot : Fin 10} (h : Kept a s) :
    Answers a (execSlotFrameStart t' slot s) := by
  unfold execSlotFrameStart
  split
  · simp only [answers_next, h]
  · simp only [State.startFrame_kept, answers_next, Answers.ite, h]

theorem State.refillPlotTx_kept {p : Nat} (h : Kept a s) : Kept a (s.refillPlotTx p) := by
  simp only [State.refillPlotTx, kept_mk, Kept.at_, h]

theorem execShaperRefill_answers {x : ShaperSet} (h : Kept a s) : Answers a (execShaperRefill x s) := by
  unfold execShaperRefill
  split
  · exact Answers.ite (answers_next.mpr h) (answers_next.mpr (State.atRefill_kept _ _ _ h (fun _ hk =>
      State.setEgress_kept _ _ _ hk)))
  · exact Answers.ite (answers_next.mpr h) (answers_next.mpr (State.atRefill_kept _ _ _ h (fun _ hk => Kept.fold
      (fun _ _ hk1 => State.refillPlotTx_kept hk1) hk)))

theorem State.tlrDrop_kept {t' cnt : Nat} {k : Pkt} (h : Kept a s) : Kept a (s.tlrDrop t' cnt k) := by
  simp only [State.tlrDrop, State.count_kept, State.pktEnd_kept, h]

theorem State.joinQueue_kept {t' : Nat} {p : EPkt} (h : Kept a s) : Kept a (s.joinQueue t' p) := by
  simp only [State.joinQueue, State.setEgress_kept, h]

theorem State.joinTimed_kept {t' : Nat} {p : EPkt} {l : Nat} (h : Kept a s) : Kept a (s.joinTimed t' p l) := by
  unfold State.joinTimed
  exact Kept.ite (State.tlrDrop_kept h) (Kept.ite (Kept.ite (State.tlrDrop_kept h) (State.joinQueue_kept
    (State.count_kept _ _ h))) (State.joinQueue_kept h))

theorem State.joinEgress_kept {t' : Nat} {k : Token} {data : List Byte} (h : Kept a s) :
    Kept a (s.joinEgress t' k data) := by
  unfold State.joinEgress
  refine Kept.ite ?_ ?_
  · exact State.pktEnd_kept _ _ (State.count_kept _ _ (State.laneTally_kept h))
  · split
    · simp only [State.laneTally_kept, State.reasonDrop_kept, h]
    · extract_lets r p s1
      have hs1 : Kept a s1 := by simp only [s1, State.laneTally_kept, State.event_kept, h]
      split
      · simp only [State.joinQueue_kept, State.joinTimed_kept, Kept.ite, hs1]
      · exact State.joinQueue_kept hs1

theorem State.leaveTailrace_kept {t' : Nat} {k : Token} (h : Kept a s) : Kept a (s.leaveTailrace t' k) := by
  unfold State.leaveTailrace
  refine Kept.ite ?_ ?_
  · simp only [State.laneTally_kept, State.reasonDrop_kept, h]
  · split
    · rename_i e1
      have h2 : Kept a _ := Kept.of_snd e1 (State.draw_kept _ h)
      split
      · simp only [State.laneTally_kept, State.tlrDrop_kept, h2]
      · exact State.joinEgress_kept (Kept.ite (State.event_kept _ _ _ h2) h2)

theorem execTokenExitTailrace_answers {t' : Tailrace} (h : Kept a s) : Answers a (execTokenExitTailrace t' s) := by
  unfold execTokenExitTailrace
  refine Answers.ite ?_ ?_
  · simp only [answers_next, h]
  · split
    · simp only [answers_next, h]
    · exact Answers.ite (answers_next.mpr h) (answers_next.mpr (State.markWaits_kept (State.settle_kept
        (State.leaveTailrace_kept (State.setToks_kept _ _ _ h)))))

theorem execLaunchRelease_answers {t' : Tailrace} (h : Kept a s) : Answers a (execLaunchRelease t' s) := by
  unfold execLaunchRelease
  exact Answers.ite (answers_next.mpr h) (answers_next.mpr (State.setEgress_kept _ _ _ (Kept.fold (fun _ _ hk =>
    State.event_kept _ _ _ hk) h)))

theorem State.lateOne_kept {t' : Nat} {p : EPkt} (h : Kept a s) : Kept a (s.lateOne t' p) := by
  unfold State.lateOne
  exact Kept.ite (State.tlrDrop_kept (State.setEgress_kept _ _ _ h)) (State.joinQueue_kept (State.count_kept _ _
    (State.setEgress_kept _ _ _ h)))

theorem execLaunchLate_answers {t' : Tailrace} (h : Kept a s) : Answers a (execLaunchLate t' s) := by
  unfold execLaunchLate
  exact Answers.ite (answers_next.mpr h) (answers_next.mpr (Kept.fold (fun _ _ hk => State.lateOne_kept hk) h))

theorem execRxWaitExpiry_answers {t' : Tailrace} {plot : Fin 256} {c : Fin 8} (h : Kept a s) :
    Answers a (execRxWaitExpiry t' plot c s) := by
  unfold execRxWaitExpiry
  refine Answers.ite ?_ ?_
  · simp only [answers_next, h]
  · extract_lets x expired
    split
    · exact Answers.ite (answers_next.mpr (State.tlrDrop_kept (State.setEgress_kept _ _ _ h))) (answers_next.mpr h)
    · split
      · exact Answers.ite (answers_next.mpr (State.markWaits_kept (State.tlrDrop_kept (State.setEgress_kept _ _ _
          h)))) (answers_next.mpr h)
      · simp only [answers_next, h]

theorem execEgrSlotSet_answers {q : Req} (h : Kept a s) : Answers a (execEgrSlotSet q s) := by
  unfold execEgrSlotSet
  exact answers_next.mpr (State.command_kept _ _ _ _ h (fun _ _ hk => Kept.ite (State.finish_kept _ _ _ hk)
    (State.done_kept _ _ _ (Kept.fold (fun _ _ hk1 => State.wr_kept _ _ _ _ (State.wr_kept _ _ _ _
    (State.wrB_kept _ _ _ _ (State.wr_kept _ _ _ _ (State.wr_kept _ _ _ _ (State.restrict_kept _ _ _ _ _ hk1))))))
    hk))))

theorem execEgrClassSet_answers {q : Req} (h : Kept a s) : Answers a (execEgrClassSet q s) := by
  unfold execEgrClassSet
  exact answers_next.mpr (State.command_kept _ _ _ _ h (fun _ _ hk => Kept.ite (State.finish_kept _ _ _ hk)
    (State.done_kept _ _ _ (Kept.fold (fun _ _ hk1 => State.wr_kept _ _ _ _ (State.wr_kept _ _ _ _
    (State.wr_kept _ _ _ _ (State.wr_kept _ _ _ _ (State.wrB_kept _ _ _ _ hk1))))) hk))))

theorem execEgrLaunchSet_answers {q : Req} (h : Kept a s) : Answers a (execEgrLaunchSet q s) := by
  unfold execEgrLaunchSet
  exact answers_next.mpr (State.command_kept _ _ _ _ h (fun _ _ hk => Kept.ite (State.finish_kept _ _ _ hk)
    (State.done_kept _ _ _ (State.wr_kept _ _ _ _ (State.wr_kept _ _ _ _ (State.wr_kept _ _ _ _ hk))))))

theorem execEgrRead_answers {q : Req} (h : Kept a s) : Answers a (execEgrRead q s) := by
  unfold execEgrRead
  refine answers_next.mpr (State.command_kept _ _ _ _ h (fun y1 s2 h3 => ?_))
  split
  · exact State.finish_kept _ _ _ h3
  · simp only [State.done_kept, h3]

theorem execMeterSet_answers {q : Req} (h : Kept a s) : Answers a (execMeterSet q s) := by
  unfold execMeterSet
  exact answers_next.mpr (State.command_kept _ _ _ _ h (fun _ _ hk => Kept.ite (State.finish_kept _ _ _ hk) (Kept.ite
    (State.finish_kept _ _ _ hk) (State.done_kept _ _ _ (Kept.fold (fun _ _ hk1 => State.writeMeter_kept hk1) hk)))))

theorem execMeterRead_answers {q : Req} (h : Kept a s) : Answers a (execMeterRead q s) := by
  unfold execMeterRead
  exact answers_next.mpr (State.command_kept _ _ _ _ h (fun _ _ hk => Kept.ite (State.finish_kept _ _ _ hk) (Kept.ite
    (State.finish_kept _ _ _ hk) (State.done_kept _ _ _ hk))))

/-! ### Machine/Crypto.lean -/

theorem State.onIcr_kept {f : IcrSt → IcrSt} (h : Kept a s) : Kept a (s.onIcr f) := by
  simp only [State.onIcr, kept_mk, Kept.at_, h]

theorem State.setEspSa_kept {i v : Nat} (h : Kept a s) : Kept a (s.setEspSa i v) := by
  simp only [State.setEspSa, State.onIcr_kept, h]

theorem State.setEspKey_kept {i : Nat} {k : List Byte} (h : Kept a s) : Kept a (s.setEspKey i k) := by
  simp only [State.setEspKey, State.setEspSa_kept, State.onIcr_kept, h]

theorem State.bumpSa_kept {i hi lo : Nat} (h : Kept a s) : Kept a (s.bumpSa i hi lo) := by
  simp only [State.bumpSa, State.setEspSa_kept, h]

theorem State.espTx_kept {plot i ol3 ol4 : Nat} {l : List Byte} (h : Kept a s) : Kept a (s.espTx plot i ol3 ol4 l).2 := by
  unfold State.espTx
  extract_lets e seq k l1 body s2 s3
  have hs2 : Kept a s2 := by simp only [s2, State.setEspSa_kept, State.count_kept, h]
  have hs3 : Kept a s3 := by simp only [s3, State.raise_kept, Kept.ite, hs2]
  split
  · exact h
  · split
    · simp only [State.count_kept, h]
    · exact hs3

theorem State.espRx_kept {plot carry : Nat} {l : List Byte} (h : Kept a s) : Kept a (s.espRx plot carry l).2 := by
  unfold State.espRx
  extract_lets h1 o
  split
  · exact h
  · split
    · simp only [State.count_kept, Kept.ite, h]
    · extract_lets e k seq top s2 now s3
      have hs2 : Kept a s2 := State.setEspSa_kept h
      have hs3 : Kept a s3 := State.onIcr_kept hs2
      split
      · simp only [State.count_kept, State.bumpSa_kept, h]
      · split
        · simp only [State.count_kept, State.bumpSa_kept, h]
        · simp only [State.count_kept, hs3]

theorem State.writeSa_kept {i v : Nat} (h : Kept a s) : Kept a (s.writeSa i v) := by
  unfold State.writeSa
  exact Kept.ite (State.setEspSa_kept (Kept.ite (State.raise_kept h) h)) (State.setEspKey_kept (State.setEspSa_kept
    (Kept.ite (State.raise_kept h) h)))

theorem execIcrSaWrite_answers (h : Kept a s) : Answers a (execIcrSaWrite s) := by
  unfold execIcrSaWrite
  exact Answers.ite (answers_next.mpr (State.answer_kept _ _ h)) (answers_next.mpr (State.answer_kept _ _
    (State.writeSa_kept h)))

theorem execIcrSaRead_answers (h : Kept a s) : Answers a (execIcrSaRead s) := by
  unfold execIcrSaRead
  exact Answers.ite (answers_next.mpr (State.answer_kept _ _ h)) (answers_next.mpr (State.answer_kept _ _
    (State.setDataRegs_kept h)))

/-! ### Machine/Rings.lean -/

theorem State.bellWrite_kept {r : RingId} {k : Nat} {v : DWord} (h : Kept a s) : Kept a (s.bellWrite r k v) := by
  unfold State.bellWrite
  split
  · exact Kept.ite (State.answer_kept _ _ (State.doorbellRing_kept h)) h
  · split
    · exact h
    · exact Kept.ite h (Kept.ite (State.refuseHost_kept h) (State.answer_kept _ _ (State.doorbellRing_kept
        (State.catchUp_kept h))))

theorem execTxDb_answers {r : RingId} {v : DWord} (h : Kept a s) : Answers a (execTxDb r v s) := by
  simp only [execTxDb, State.bellWrite_kept, answers_next, h]

theorem execRxDb_answers {r : RingId} {v : DWord} (h : Kept a s) : Answers a (execRxDb r v s) := by
  simp only [execRxDb, State.bellWrite_kept, answers_next, h]

theorem execTxcDb_answers {r : RingId} {v : DWord} (h : Kept a s) : Answers a (execTxcDb r v s) := by
  simp only [execTxcDb, State.bellWrite_kept, answers_next, h]

theorem execRxcDb_answers {r : RingId} {v : DWord} (h : Kept a s) : Answers a (execRxcDb r v s) := by
  simp only [execRxcDb, State.bellWrite_kept, answers_next, h]

theorem State.chargeTx_kept {r : Nat} {frames : List (List Byte)} (h : Kept a s) : Kept a (s.chargeTx r frames) := by
  simp only [State.chargeTx, Kept.ite, kept_mk, Kept.at_, h]

theorem State.fetchTurn_kept {m p n : Nat} (h : Kept a s) : Kept a (s.fetchTurn m p n).1 := by
  unfold State.fetchTurn
  extract_lets l who d have_ spend c q y
  split
  · exact h
  · split
    · simp only [State.setLink_kept, h, spend]
    · split
      · simp only [State.setLink_kept, h, spend]
      · split
        · simp only [State.setLink_kept, h, spend]
        · simp only [State.setLink_kept, h]

theorem State.handOver_kept {r : Nat} {c : Chain} {frames : List (List Byte)} (h : Kept a s) :
    Kept a (s.handOver r c frames) := by
  unfold State.handOver
  exact Kept.fold (fun _ _ hk => State.stagePkt_kept (State.draw_kept _ hk)) h

theorem State.setChain_kept {r : Nat} {c : Chain} (h : Kept a s) : Kept a (s.setChain r c) := by
  simp only [State.setChain, State.onQp_kept, h]

theorem State.consumeTx_kept {r : Nat} {c : Chain} (h : Kept a s) : Kept a (s.consumeTx r c) := by
  simp only [State.consumeTx, State.onQp_kept, h]

theorem State.failChain_kept {r : Nat} {c : Chain} {status len : Nat} (h : Kept a s) :
    Kept a (s.failChain r c status len) := by
  simp only [State.failChain, State.setChain_kept, State.consumeTx_kept, h]

theorem State.finishChain_kept {r : Nat} {c : Chain} {got : List Byte} {e : DmaEnd} (h : Kept a s) :
    Kept a (s.finishChain r c got e) := by
  unfold State.finishChain
  extract_lets d total got1 h2 frames s3 c4 c5 l c6
  have hs3 : Kept a s3 := State.chargeTx_kept h
  refine Kept.ite ?_ ?_
  · exact Kept.ite (State.failChain_kept h) (State.handOver_kept (State.consumeTx_kept (State.setChain_kept hs3)))
  · refine Kept.ite (State.failChain_kept h) ?_
    split
    · rename_i e7
      have h8 : Kept a _ := Kept.of_snd e7 <| by
        split
        · exact State.espTx_kept h
        · exact h
      exact State.failChain_kept h8
    · rename_i e9
      have h10 : Kept a _ := Kept.of_snd e9 <| by
        split
        · exact State.espTx_kept h
        · exact h
      exact State.handOver_kept (State.consumeTx_kept (State.setChain_kept (State.chargeTx_kept h10)))

theorem State.startChain_kept {r : Nat} {ds : List Nat} {eop : Bool} {pay : Option (List Byte × DmaEnd)} (h : Kept a s) :
    Kept a (s.startChain r ds eop pay) := by
  unfold State.startChain
  extract_lets x d c s' st data
  have hs' : Kept a s' := State.onQp_kept h
  refine Kept.ite ?_ ?_
  · exact State.failChain_kept (Kept.ite (State.rangeErr_kept hs') hs')
  · refine Kept.ite (State.finishChain_kept hs') ?_
    split
    · exact hs'
    · extract_lets s'1 l tag x2 s'3
      have hs'1 : Kept a s'1 := by simp +contextual only [s'1, State.issueRead_kept, Kept.fold, implies_true, hs']
      have hs'3 : Kept a s'3 := State.setLink_kept _ _ _ hs'1
      split
      · simp only [State.finishChain_kept, State.logRing_kept, hs'1]
      · exact State.setChain_kept hs'3

theorem State.readDescs_kept {r base cons size n log : Nat} (h : Kept a s) :
    Kept a (s.readDescs r base cons size n log) := by
  unfold State.readDescs
  split
  · exact h
  · simp only [State.issueRead_kept, h]

theorem execTxChainFetch_answers {r : RingId} {descs : Fetch} {pay : Option (List Byte × DmaEnd)} (h : Kept a s) :
    Answers a (execTxChainFetch r descs pay s) := by
  unfold execTxChainFetch
  extract_lets k x s'
  have hs' : Kept a s' := State.readDescs_kept h
  refine Answers.ite ?_ ?_
  · simp only [answers_next, h]
  · refine Answers.ite ?_ ?_
    · simp only [State.rangeErr_kept, State.ringError_kept, answers_next, h]
    · split
      · simp only [State.ringError_kept, answers_next, hs']
      · simp only [State.ringError_kept, answers_next, hs']
      · simp only [State.ringError_kept, State.logRing_kept, answers_next, hs']
      · simp only [State.ringError_kept, State.logRing_kept, answers_next, hs']
      · split
        · refine Answers.ite ?_ ?_
          · simp only [answers_next, h]
          · refine Answers.ite ?_ ?_
            · simp only [answers_next, h]
            · split
              · simp only [State.startChain_kept, answers_next, hs']
              · split
                · rename_i e1
                  have h2 : Kept a _ := Kept.of_fst e1 (State.fetchTurn_kept hs')
                  simp only [State.startChain_kept, answers_next, h2]
                · rename_i e3
                  have h4 : Kept a _ := Kept.of_fst e3 (State.fetchTurn_kept hs')
                  simp only [answers_next, h4]

theorem State.endPlotJobs_kept {p : Nat} (h : Kept a s) : Kept a (s.endPlotJobs p) := by
  unfold State.endPlotJobs
  exact Kept.ite (State.endJobs_kept _ _ _ _ (Kept.ite (State.endJobs_kept _ _ _ _ h) h)) (Kept.ite
    (State.endJobs_kept _ _ _ _ h) h)

theorem State.endRingJobs_kept {r : Nat} (h : Kept a s) : Kept a (s.endRingJobs r) := by
  simp only [State.endRingJobs, State.endPlotJobs_kept, Kept.ite, h]

theorem execTxCompletion_answers {r : RingId} (h : Kept a s) : Answers a (execTxCompletion r s) := by
  unfold execTxCompletion
  extract_lets k x held
  split
  · simp only [answers_next, h]
  · exact Answers.ite (answers_next.mpr h) (answers_next.mpr (State.endRingJobs_kept (State.writeCpl_kept
      (State.onQp_kept h))))

theorem State.consumeRx_kept {r : Nat} (h : Kept a s) : Kept a (s.consumeRx r) := by
  simp only [State.consumeRx, State.onQp_kept, h]

theorem State.badPost_kept {r : Nat} {p : EPkt} {st : Nat} (h : Kept a s) : Kept a (s.badPost r p st) := by
  unfold State.badPost
  exact State.writeCpl_kept (State.consumeRx_kept (Kept.ite (State.rangeErr_kept h) h))

theorem State.fillPosts_kept {r : Nat} {p : EPkt} {ps : List (Nat × Nat × Nat)} {l : List Byte} (h : Kept a s) :
    Kept a (s.fillPosts r p ps l) := by
  induction ps generalizing s l with
  | nil => exact h
  | cons x ps ih => exact .ite (ih (State.badPost_kept h)) (ih (State.consumeRx_kept (State.ringWrite_kept h)))

theorem State.ringDrop_kept {t' : Nat} {p : EPkt} {why : State → State} (h : Kept a s)
    (hwhy : ∀ y0, Kept a y0 → Kept a (why y0)) : Kept a (s.ringDrop t' p why) := by
  unfold State.ringDrop
  exact State.pktEnd_kept _ _ (hwhy _ (State.setEgress_kept _ _ _ h))

theorem State.noqDrop_kept {p : EPkt} (h : Kept a s) : Kept a (s.noqDrop p) := by
  simp only [State.noqDrop, State.count_kept, Kept.ite, h]

theorem State.deliverPkt_kept {t' r : Nat} {p : EPkt} {data : List Byte} {sa : Option Nat}
    {posts : List (Nat × Nat × Nat)} (h : Kept a s) : Kept a (s.deliverPkt t' r p data sa posts) := by
  unfold State.deliverPkt
  exact State.pktEnd_kept _ _ (State.writeCpl_kept (State.fillPosts_kept (State.setEgress_kept _ _ _ h)))

theorem State.waitPosts_kept {t' r : Nat} {p : EPkt} {posts : List (Nat × Nat)} (h : Kept a s) :
    Kept a (s.waitPosts t' r p posts) := by
  unfold State.waitPosts
  exact State.setEgress_kept _ _ _ (Kept.fold (fun _ _ hk => State.badPost_kept hk) h)

theorem State.rxRing_kept {k r : Nat} {p : EPkt} {posts : Fetch} (h : Kept a s) : Kept a (s.rxRing k r p posts) := by
  unfold State.rxRing
  extract_lets x tg n got
  refine .ite (State.ringDrop_kept h fun _ => State.noqDrop_kept) (.ite (State.ringDrop_kept h fun _ => State.count_kept _ _)
    (.ite (State.ringDrop_kept h fun _ => State.noqDrop_kept) (.ite (State.ringDrop_kept h fun _ hk =>
      .ite hk (State.bump_kept _ _ _ hk)) (.ite h (.ite (State.ringError_kept (State.rangeErr_kept h)) ?_)))))
  clear_value got
  split
  · exact State.ringError_kept (State.logRing_kept h)
  · split
    · rename_i e
      refine State.ringDrop_kept (Kept.of_snd e ?_) fun _ hk => hk
      split
      · exact h
      · exact State.espRx_kept h
    · rename_i e
      have hk : Kept a _ := Kept.of_snd e <| by
        split
        · exact h
        · exact State.espRx_kept h
      extract_lets data sa
      split
      · exact .ite (State.ringDrop_kept h fun _ => State.count_kept _ _) (State.waitPosts_kept h)
      · exact .ite (State.ringDrop_kept h fun _ => State.count_kept _ _) (.ite h (State.deliverPkt_kept hk))

theorem execRxRingWrite_answers {t' : Tailrace} {r : RingId} {posts : Fetch} (h : Kept a s) :
    Answers a (execRxRingWrite t' r posts s) := by
  unfold execRxRingWrite
  extract_lets k
  split
  · simp only [answers_next, h]
  · exact Answers.ite (answers_next.mpr h) (answers_next.mpr (State.endRingJobs_kept (State.markWaits_kept
      (State.rxRing_kept h))))

/-! ### Machine/HostPorts.lean -/

theorem execPerstRelease_answers {m : Link} (h : Kept a s) : Answers a (execPerstRelease m s) := by
  unfold execPerstRelease
  exact Answers.ite (answers_next.mpr h) (answers_next.mpr (Kept.ite (State.setLink_kept _ _ _ h) (State.raise_kept
    (State.setLink_kept _ _ _ h))))

theorem State.testLink_kept {m : Nat} (h : Kept a s) : Kept a (s.testLink m) := by
  simp only [State.testLink, State.raise_kept, Kept.ite, h]

theorem State.setRate_kept {m rate width : Nat} {flit : Bool} (h : Kept a s) : Kept a (s.setRate m rate width flit) := by
  unfold State.setRate
  exact State.wr_kept _ _ _ _ (State.wr_kept _ _ _ _ (State.wr_kept _ _ _ _ (State.wrB_kept _ _ _ _
    (State.wr_kept _ _ _ _ (State.stamp_kept _ _ h)))))

theorem execHostLinkUp_answers {m : Link} {rate : Fin 6} {width : Nat} {flit : Bool} (h : Kept a s) :
    Answers a (execHostLinkUp m rate width flit s) := by
  unfold execHostLinkUp
  exact Answers.ite (answers_next.mpr h) (answers_next.mpr (State.testLink_kept (State.setLink_kept _ _ _
    (State.wrB_kept _ _ _ _ (State.setRate_kept h)))))

theorem execHostLinkRateChange_answers {m : Link} {rate : Fin 6} {width : Nat} (h : Kept a s) :
    Answers a (execHostLinkRateChange m rate width s) := by
  unfold execHostLinkRateChange
  exact Answers.ite (answers_next.mpr h) (answers_next.mpr (State.testLink_kept (State.setRate_kept h)))

theorem execFunctionReady_answers {m : Link} {f : Nat} (h : Kept a s) : Answers a (execFunctionReady m f s) := by
  unfold execFunctionReady
  exact Answers.ite (answers_next.mpr h) (answers_next.mpr (Kept.ite (State.wrB_kept _ _ _ _ (State.setFn_kept _ _ _ _
    h)) (State.setFn_kept _ _ _ _ h)))

theorem State.silence_kept {m f : Nat} (h : Kept a s) : Kept a (s.silence m f) := by
  unfold State.silence
  extract_lets r s1 l s2
  have hs1 : Kept a s1 := State.setFn_kept _ _ _ _ h
  have hs2 : Kept a s2 := State.setLink_kept _ _ _ hs1
  split
  · exact State.wr_kept _ _ _ _ hs2
  · exact hs2

theorem State.flrEnd_kept {m : Link} {f : Nat} (h : Kept a s) : Kept a (s.flrEnd m f) := by
  unfold State.flrEnd
  extract_lets s1 s2 l s3
  have hs1 : Kept a s1 := by
    unfold s1
    refine Kept.fold (fun s4 x5 h6 => ?_) h
    extract_lets s7
    have hs7 : Kept a s7 := by
      unfold s7
      split
      · simp only [State.endPlotJobs_kept, State.resetPlot_kept, h6]
      · exact h6
    exact State.resetFn_kept hs7
  have hs2 : Kept a s2 := State.resetRegs_kept _ _ hs1
  have hs3 : Kept a s3 := State.setLink_kept _ _ _ hs2
  simp only [State.wrB_kept, Kept.ite, hs1, hs3]

theorem execFlrInitiate_answers {m : Link} {f : Nat} (h : Kept a s) : Answers a (execFlrInitiate m f s) := by
  unfold execFlrInitiate
  exact Answers.ite (answers_next.mpr h) (answers_next.mpr (Kept.fold (fun _ _ hk => State.silence_kept hk) (Kept.ite
    (State.mailboxReset_kept _ _ h) h)))

theorem execFlrDone_answers {m : Link} {f : Nat} (h : Kept a s) : Answers a (execFlrDone m f s) := by
  unfold execFlrDone
  exact Answers.ite (answers_next.mpr h) (answers_next.mpr (State.count_kept _ _ (State.flrEnd_kept h)))

theorem execD3hotToD0_answers {m : Link} {f : Nat} (h : Kept a s) : Answers a (execD3hotToD0 m f s) := by
  unfold execD3hotToD0
  exact Answers.ite (answers_next.mpr h) (answers_next.mpr (State.flrEnd_kept (Kept.fold (fun _ _ hk =>
    State.silence_kept hk) (Kept.ite (State.mailboxReset_kept _ _ h) h))))

theorem State.loseLink_kept {m : Link} {sticky : Bool} (h : Kept a s) : Kept a (s.loseLink m sticky) := by
  unfold State.loseLink
  exact Kept.fold (fun _ _ hk => State.endPlotJobs_kept hk) (State.resetLink_kept (State.mailboxReset_kept _ _
    (State.count_kept _ _ h)))

theorem execHotReset_answers {m : Link} {how : LinkLoss} (h : Kept a s) : Answers a (execHotReset m how s) := by
  unfold execHotReset
  exact Answers.ite (answers_next.mpr h) (answers_next.mpr (State.loseLink_kept (Kept.ite (State.aerLog_kept h) h)))

theorem execPerstAssert_answers {m : Link} (h : Kept a s) : Answers a (execPerstAssert m s) := by
  unfold execPerstAssert
  exact Answers.ite (answers_next.mpr h) (answers_next.mpr (State.setLink_kept _ _ _ (State.loseLink_kept h)))

theorem execCtoValueWrite_answers {m : Link} {v : Fin 16} (h : Kept a s) : Answers a (execCtoValueWrite m v s) := by
  unfold execCtoValueWrite
  refine Answers.ite ?_ ?_
  · simp only [answers_next, h]
  · split
    · simp only [answers_next, h]
    · simp only [State.wr_kept, State.setLink_kept, answers_next, h]

theorem State.setBme_kept {m f : Nat} {b : Bool} (h : Kept a s) : Kept a (s.setBme m f b) := by
  unfold State.setBme
  extract_lets x s1 s2 s3
  have hs1 : Kept a s1 := State.setFn_kept _ _ _ _ h
  have hs2 : Kept a s2 := by simp +contextual only [s2, State.emit_kept, Kept.fold, implies_true, hs1]
  have hs3 : Kept a s3 := by simp only [s3, State.wake_kept, Kept.ite, hs2]
  refine Kept.ite (State.setFn_kept _ _ _ _ h) ?_
  split
  · simp only [State.releasePlot_kept, State.updateWaits_kept, hs3]
  · exact hs3

theorem execBusMasterEnable_answers {m : Link} {f : Nat} {b : Bool} (h : Kept a s) :
    Answers a (execBusMasterEnable m f b s) := by
  simp only [execBusMasterEnable, State.setBme_kept, answers_next, Answers.ite, h]

theorem State.cfgSet_kept {m f : Nat} {x : CfgField} (h : Kept a s) : Kept a (s.cfgSet m f x) := by
  unfold State.cfgSet
  extract_lets y l
  split
  · exact State.setFn_kept _ _ _ _ h
  · simp only [State.msixRelease_kept, State.setFn_kept, h]
  · simp only [State.msixRelease_kept, State.setFn_kept, h]
  · simp only [State.setLink_kept, Kept.ite, h]
  · simp only [State.setLink_kept, Kept.ite, h]
  · exact State.setFn_kept _ _ _ _ h
  · simp only [State.setLink_kept, Kept.ite, h]
  · simp only [State.setLink_kept, Kept.ite, h]
  · simp only [State.setLink_kept, Kept.ite, h]
  · simp only [State.setLink_kept, Kept.ite, h]
  · simp only [State.setLink_kept, Kept.ite, h]
  · simp only [State.setLink_kept, Kept.ite, h]
  · exact State.setFn_kept _ _ _ _ h

theorem State.bar2_kept {m f off len : Nat} {data : Option (List Byte)} (h : Kept a s) :
    Kept a (s.bar2 m f off len data) := by
  unfold State.bar2
  split
  · exact State.refuseHost_kept h
  · refine Kept.ite ?_ ?_
    · split
      · split
        · simp only [State.refuseHost_kept, State.bellWrite_kept, Kept.ite, h]
        · exact State.refuseHost_kept h
      · exact State.refuseHost_kept h
    · refine Kept.ite (State.refuseHost_kept h) ?_
      refine Kept.ite ?_ ?_
      · extract_lets a1
        split
        · exact State.answer_kept _ _ (State.msixRelease_kept _ _ _ (kept_mk.mpr (h.at_.putBytes _ _)))
        · exact State.answer_kept _ _ h
      · refine Kept.ite ?_ (State.refuseHost_kept h)
        split <;> exact State.answer_kept _ _ h

theorem State.barAccess_kept {m : Link} {f bar off len : Nat} {data : Option (List Byte)} (h : Kept a s) :
    Kept a (s.barAccess m f bar off len data) := by
  unfold State.barAccess
  refine Kept.ite (State.refuseHost_kept h) ?_
  refine Kept.ite ?_ ?_
  · simp only [State.bar2_kept, State.catchUp_kept, h]
  · refine Kept.ite (State.refuseHost_kept h) ?_
    extract_lets k v
    refine Kept.ite (State.access_kept h) ?_
    split
    · split
      · exact State.access_kept h
      · exact State.refuseHost_kept h
    · exact State.refuseHost_kept h

theorem State.cfg_kept {m f : Nat} {x : CfgField ⊕ CfgFact} (h : Kept a s) : Kept a (s.cfg m f x) := by
  unfold State.cfg
  refine Kept.ite (State.refuseHost_kept h) ?_
  refine Kept.ite (State.answer_kept _ _ h) ?_
  split
  · simp only [State.answer_kept, State.cfgSet_kept, h]
  · exact State.answer_kept _ _ h

theorem execHostMemoryRequest_answers {m : Link} {q : HostReq} (h : Kept a s) :
    Answers a (execHostMemoryRequest m q s) := by
  unfold execHostMemoryRequest
  refine Answers.ite ?_ ?_
  · simp only [answers_next, h]
  · extract_lets s1 s2
    have hs1 : Kept a s1 := State.wake_kept _ _ h
    have hs2 : Kept a s2 := by simp only [s2, State.wrB_kept, State.count_kept, hs1]
    split
    · simp only [State.barAccess_kept, answers_next, hs1]
    · exact Answers.ite (answers_next.mpr (State.answer_kept _ _ (State.aerLog_kept hs2))) (answers_next.mpr
        (State.barAccess_kept hs1))
    · simp only [State.refuseHost_kept, answers_next, hs1]
    · simp only [State.refuseHost_kept, answers_next, hs1]
    · simp only [State.refuseHost_kept, answers_next, hs1]
    · simp only [State.refuseHost_kept, answers_next, hs1]
    · simp only [State.answer_kept, answers_next, hs1]
    · simp only [State.answer_kept, answers_next, hs1]
    · simp only [State.refuseHost_kept, answers_next, hs1]
    · simp only [State.cfg_kept, answers_next, hs1]
    · simp only [State.cfg_kept, answers_next, hs1]
    · simp only [State.answer_kept, State.aerLog_kept, answers_next, hs1]

theorem State.endRead_kept {m : Nat} {x : DevRead} {got : List Byte} {e : DmaEnd} (h : Kept a s) :
    Kept a (s.endRead m x got e) := by
  unfold State.endRead
  extract_lets l s1
  have hs1 : Kept a s1 := State.setLink_kept _ _ _ h
  split
  · exact State.endRingJobs_kept (Kept.ite (State.setChain_kept hs1) (State.finishChain_kept hs1))
  · exact State.endRingJobs_kept hs1

theorem State.timeoutRead_kept {m : Nat} {x : DevRead} {got : List Byte} (h : Kept a s) :
    Kept a (s.timeoutRead m x got) := by
  unfold State.timeoutRead
  exact State.endRead_kept (State.logDma_kept (State.setLink_kept _ _ _ h))

theorem execCompletionTimeout_answers {m : Link} {tag : Nat} {got : List Byte} (h : Kept a s) :
    Answers a (execCompletionTimeout m tag got s) := by
  unfold execCompletionTimeout
  split
  · simp only [answers_next, h]
  · simp only [State.timeoutRead_kept, Kept.ite, answers_next, h]

theorem State.unexpected_kept {m : Nat} (h : Kept a s) : Kept a (s.unexpected m) := by
  unfold State.unexpected
  exact State.aerLog_kept (State.count_kept _ _ (State.wrB_kept _ _ _ _ h))

theorem execDmaCompletion_answers {m : Link} {tag : Nat} {got : List Byte} {e : DmaEnd} (h : Kept a s) :
    Answers a (execDmaCompletion m tag got e s) := by
  unfold execDmaCompletion
  refine Answers.ite ?_ ?_
  · simp only [answers_next, h]
  · extract_lets s1 l
    have hs1 : Kept a s1 := State.wake_kept _ _ h
    split
    · exact Answers.ite (answers_next.mpr hs1) (Answers.ite (answers_next.mpr (State.unexpected_kept
        (State.timeoutRead_kept hs1))) (answers_next.mpr (State.endRead_kept (State.logDma_kept hs1))))
    · simp only [State.unexpected_kept, State.setLink_kept, answers_next, Answers.ite, hs1]

theorem execL1Entry_answers {m : Link} (h : Kept a s) : Answers a (execL1Entry m s) := by
  unfold execL1Entry
  exact Answers.ite (answers_next.mpr h) (answers_next.mpr (State.count_kept _ _ (State.wr_kept _ _ _ _ h)))

theorem execL0pNarrow_answers {m : Link} (h : Kept a s) : Answers a (execL0pNarrow m s) := by
  unfold execL0pNarrow
  exact Answers.ite (answers_next.mpr h) (answers_next.mpr (State.count_kept _ _ (State.wr_kept _ _ _ _
    (State.wr_kept _ _ _ _ (State.stamp_kept _ _ h)))))

theorem execL0pWiden_answers {m : Link} (h : Kept a s) : Answers a (execL0pWiden m s) := by
  unfold execL0pWiden
  exact Answers.ite (answers_next.mpr h) (answers_next.mpr (State.count_kept _ _ (Kept.ite (State.wr_kept _ _ _ _
    (State.wr_kept _ _ _ _ (State.stamp_kept _ _ h))) (State.wr_kept _ _ _ _ (State.stamp_kept _ _ h)))))

theorem execAtsInvalidate_answers {m : Link} {f page : Nat} (h : Kept a s) : Answers a (execAtsInvalidate m f page s) := by
  unfold execAtsInvalidate
  exact Answers.ite (answers_next.mpr h) (answers_next.mpr (State.wake_kept _ _ (State.emit_kept _ _
    (State.setFn_kept _ _ _ _ h))))

/-! ### Machine/Plots.lean -/

theorem State.plotCommand_kept {q : Req} {opcode : Nat} {free held : Bool} {k : Cmd → Nat → State → State} (h : Kept a s)
    (hk : ∀ y0 y1 y2, Kept a y2 → Kept a (k y0 y1 y2)) : Kept a (s.plotCommand q opcode free held k) := by
  unfold State.plotCommand
  refine State.command_kept _ _ _ _ h (fun y1 s2 h3 => ?_)
  split
  · exact State.finish_kept _ _ _ h3
  · exact Kept.ite (State.finish_kept _ _ _ h3) (Kept.ite (State.busyRetry_kept _ _ _ h3) (Kept.ite
      (State.busyRetry_kept _ _ _ h3) (hk _ _ _ h3)))

theorem State.clearQpRegs_kept {p q : Nat} (h : Kept a s) : Kept a (s.clearQpRegs p q) := by
  simp only [State.clearQpRegs, State.resetRegs_kept, h]

theorem State.bindQp_kept {p : Nat} (h : Kept a s) : Kept a (s.bindQp p).2 := by
  unfold State.bindQp
  split
  · exact h
  · extract_lets l
    split
    · exact h
    · simp only [State.setLink_kept, h]

theorem State.makeQp_kept {p q : Nat} {x : Qp} (h : Kept a s) : Kept a (s.makeQp p q x) := by
  unfold State.makeQp
  exact State.resplit_kept _ _ (State.setQp_kept _ _ _ (State.clearQpRegs_kept (State.bindQp_kept h)))

theorem State.qpCreate_kept {p : Nat} {l : List Byte} (h : Kept a s) : Kept a (s.qpCreate p l).2 := by
  unfold State.qpCreate
  extract_lets q c r r1 x
  split
  · exact h
  · split
    · exact h
    · simp only [State.makeQp_kept, h]

theorem State.stopQp_kept {p q : Nat} {live : Bool} (h : Kept a s) : Kept a (s.stopQp p q live) := by
  unfold State.stopQp
  extract_lets k x s1 r r2 y
  have hs1 : Kept a s1 := by
    unfold s1
    split
    · exact h
    · simp only [State.setLink_kept, h]
  exact State.endPlotJobs_kept (State.updateWaits_kept (State.setQp_kept _ _ _ (State.clearQpRegs_kept hs1)))

theorem State.qpReset_kept {p : Nat} {l : List Byte} (h : Kept a s) : Kept a (s.qpReset p l).2 := by
  unfold State.qpReset
  extract_lets q
  split
  · simp only [State.stopQp_kept, h]
  · exact h

theorem State.qpDelete_kept {p : Nat} {l : List Byte} (h : Kept a s) : Kept a (s.qpDelete p l).2 := by
  unfold State.qpDelete
  extract_lets q
  split
  · simp only [State.stopQp_kept, State.resplit_kept, h]
  · exact h

theorem State.qtableSet_kept {p : Nat} {l : List Byte} (h : Kept a s) : Kept a (s.qtableSet p l).2 := by
  unfold State.qtableSet
  extract_lets b es
  split
  · exact h
  · simp +contextual only [State.wrW_kept, Kept.fold, implies_true, h]

theorem State.queueOp_kept {p op : Nat} {l : List Byte} (h : Kept a s) : Kept a (s.queueOp p op l).2 := by
  unfold State.queueOp
  split
  · exact h
  · split
    · exact State.qpCreate_kept h
    · split
      · exact State.qpReset_kept h
      · split
        · exact State.qpDelete_kept h
        · split
          · exact State.qtableSet_kept h
          · exact h

theorem State.vfWrite_kept {p : Nat} {k : State → State} (h : Kept a s) (hk : ∀ y0, Kept a y0 → Kept a (k y0)) :
    Kept a (s.vfWrite p k) := by
  unfold State.vfWrite
  split
  · exact h
  · exact Kept.ite h (Kept.ite (State.refuseHost_kept h) (State.answer_kept _ _ (hk _ (State.catchUp_kept h))))

theorem State.queueRow_kept {x : QpPath} {op : Nat} (h : Kept a s) : Kept a (s.queueRow x op) := by
  unfold State.queueRow
  split
  · exact State.vfWrite_kept h (fun _ hk => State.wr_kept _ _ _ _ (State.queueOp_kept hk))
  · exact State.plotCommand_kept h (fun _ _ _ hk => Kept.ite (State.finish_kept _ _ _ hk) (Kept.ite hk
      (State.done_kept _ _ _ (State.queueOp_kept hk))))

theorem execQpCreate_answers {x : QpPath} (h : Kept a s) : Answers a (execQpCreate x s) := by
  simp only [execQpCreate, State.queueRow_kept, answers_next, h]

theorem execQpReset_answers {x : QpPath} (h : Kept a s) : Answers a (execQpReset x s) := by
  simp only [execQpReset, State.queueRow_kept, answers_next, h]

theorem execQpDelete_answers {x : QpPath} (h : Kept a s) : Answers a (execQpDelete x s) := by
  simp only [execQpDelete, State.queueRow_kept, answers_next, h]

theorem execQtableSet_answers {x : QpPath} (h : Kept a s) : Answers a (execQtableSet x s) := by
  simp only [execQtableSet, State.queueRow_kept, answers_next, h]

theorem State.forgetRaw_kept {p lo hi : Nat} (h : Kept a s) : Kept a (s.forgetRaw p lo hi) := by
  simp only [State.forgetRaw, kept_mk, Kept.at_, h]

theorem State.steer_kept {p mac vlan : Nat} {x : Bool × State} (h : Kept a s) (e : s.steer p mac vlan = some x) :
    Kept a x.2 := by
  unfold State.steer at e
  dsimp only at e
  split at e
  · cases e; exact h
  · split at e
    · cases e
    · rename_i e'
      have hk : Kept a _ := Kept.of_snd e' (State.seedInsert_kept h)
      cases e
      split
      · exact State.seedRemove_kept hk
      · exact hk

theorem execPlotConfig_answers {q : Req} (h : Kept a s) : Answers a (execPlotConfig q s) := by
  unfold execPlotConfig
  refine answers_next.mpr (State.plotCommand_kept h fun c p s h => ?_)
  have hf (st : Nat) : Kept a (s.finish q st) := State.finish_kept _ _ _ h
  extract_lets b mac vlan max_ vecs pol kind
  split
  · exact hf _
  · refine .ite (hf _) (.ite (State.busyRetry_kept _ _ _ h) (.ite (hf _) (.ite (State.busyRetry_kept _ _ _ h)
      (.ite (hf _) (.ite h ?_)))))
    split
    · exact hf _
    · rename_i e
      extract_lets s1 s2 s3 s4 s5
      have hs1 : Kept a s1 := State.wrB_kept _ _ _ _ (State.wrB_kept _ _ _ _ (State.wrB_kept _ _ _ _
          (State.wrB_kept _ _ _ _ (State.forgetRaw_kept (State.steer_kept h e)))))
      have hs2 : Kept a s2 := State.wr_kept _ _ _ _ (State.wr_kept _ _ _ _ (State.wr_kept _ _ _ _ hs1))
      have hs3 : Kept a s3 := State.wr_kept _ _ _ _ (State.wr_kept _ _ _ _ (State.wr_kept _ _ _ _ hs2))
      have hs4 : Kept a s4 := State.wr_kept _ _ _ _ (State.wrB_kept _ _ _ _ hs3)
      exact State.afterRemoval_kept (.ite hs4 (State.setFn_kept _ _ _ _ hs4))

theorem execPlotRateSet_answers {q : Req} (h : Kept a s) : Answers a (execPlotRateSet q s) := by
  unfold execPlotRateSet
  exact answers_next.mpr (State.plotCommand_kept h (fun _ _ _ hk => Kept.ite (State.done_kept _ _ _
    (State.resplit_kept _ _ (State.setPlot_kept _ _ _ (State.wrB_kept _ _ _ _ (Kept.fold (fun _ _ hk1 =>
    State.wr_kept _ _ _ _ hk1) (State.forgetRaw_kept hk)))))) (State.finish_kept _ _ _ hk)))

theorem State.setWindows_kept {p : Nat} {ws : List (Nat × Nat)} (h : Kept a s) : Kept a (s.setWindows p ws) := by
  unfold State.setWindows
  exact Kept.fold (fun _ _ hk => State.wrW_kept _ _ _ (State.wrW_kept _ _ _ (State.wrW_kept _ _ _ hk))) h

theorem execPlotWindowSet_answers {q : Req} (h : Kept a s) : Answers a (execPlotWindowSet q s) := by
  unfold execPlotWindowSet
  exact answers_next.mpr (State.plotCommand_kept h (fun _ _ _ hk => Kept.ite (State.finish_kept _ _ _ hk)
    (State.endPlotJobs_kept (State.addJob_kept _ _ _ _ (State.setWindows_kept (State.forgetRaw_kept hk))))))

theorem execPlotReset_answers {q : Req} (h : Kept a s) : Answers a (execPlotReset q s) := by
  unfold execPlotReset
  exact answers_next.mpr (State.plotCommand_kept h (fun _ _ _ hk => State.done_kept _ _ _ (State.endPlotJobs_kept
    (State.resetPlot_kept hk))))

theorem State.dropSas_kept {p : Nat} (h : Kept a s) : Kept a (s.dropSas p) := by
  unfold State.dropSas
  exact Kept.fold (fun _ _ hk => State.setEspSa_kept (State.setEspKey_kept hk)) h

theorem State.freePlot_kept {p m f : Nat} (h : Kept a s) : Kept a (s.freePlot p m f) := by
  unfold State.freePlot
  exact State.setFn_kept _ _ _ _ (State.onSilo_kept _ _ (State.dropSas_kept (State.resplit_kept _ _
    (State.setPlot_kept _ _ _ (State.resetRegs_kept _ _ (Kept.ite (State.seedRemove_kept h) h))))))

theorem execPlotRemove_answers {q : Req} (h : Kept a s) : Answers a (execPlotRemove q s) := by
  unfold execPlotRemove
  refine answers_next.mpr (State.plotCommand_kept h (fun y1 y2 s3 h4 => ?_))
  split
  · exact State.finish_kept _ _ _ h4
  · exact Kept.ite (State.finish_kept _ _ _ h4) (Kept.ite h4 (State.afterRemoval_kept (State.freePlot_kept
      (State.endPlotJobs_kept (State.resetPlot_kept h4)))))

theorem execPlotMbxSend_answers {p : PlotIx} {v : Word} (h : Kept a s) : Answers a (execPlotMbxSend p v s) := by
  unfold execPlotMbxSend
  exact answers_next.mpr (State.vfWrite_kept h (fun _ hk => Kept.ite hk (Kept.ite (State.wrB_kept _ _ _ _ hk)
    (Kept.ite (State.wrB_kept _ _ _ _ (State.setPlot_kept _ _ _ hk)) (State.msgArrives_kept _ _
    (State.wrB_kept _ _ _ _ (State.setPlot_kept _ _ _ hk)))))))

theorem execPlotMbxAck_answers {p : PlotIx} (h : Kept a s) : Answers a (execPlotMbxAck p s) := by
  simp +contextual only [execPlotMbxAck, State.wrB_kept, State.vfWrite_kept, implies_true, answers_next, h]

theorem execPlotMsgSend_answers {q : Req} (h : Kept a s) : Answers a (execPlotMsgSend q s) := by
  unfold execPlotMsgSend
  refine answers_next.mpr (State.plotCommand_kept h (fun y1 y2 s3 h4 => ?_))
  split
  · exact State.finish_kept _ _ _ h4
  · exact Kept.ite (State.finish_kept _ _ _ h4) (Kept.ite (State.busyRetry_kept _ _ _ h4) (Kept.ite
      (State.finish_kept _ _ _ h4) (State.done_kept _ _ _ (Kept.ite (State.interrupt_kept _ _ _ _
      (State.wrB_kept _ _ _ _ (State.setPlot_kept _ _ _ (kept_mk.mpr (h4.at_.putBytes _ _))))) (State.wrB_kept _ _ _ _
      (State.setPlot_kept _ _ _ (kept_mk.mpr (h4.at_.putBytes _ _))))))))

theorem State.clearPend_kept {p : Nat} (h : Kept a s) : Kept a (s.clearPend p) := by
  unfold State.clearPend
  split
  · exact h
  · simp only [State.wrW_kept, h]

theorem execPlotMsgRecv_answers {q : Req} (h : Kept a s) : Answers a (execPlotMsgRecv q s) := by
  unfold execPlotMsgRecv
  refine answers_next.mpr (State.plotCommand_kept h (fun y1 y2 s3 h4 => ?_))
  refine Kept.ite (State.finish_kept _ _ _ h4) ?_
  split
  · exact State.done_kept _ _ _ h4
  · exact State.done_kept _ _ _ (State.wrB_kept _ _ _ _ (State.clearPend_kept (State.setPlot_kept _ _ _ h4)))

theorem execPlotStatus_answers {q : Req} (h : Kept a s) : Answers a (execPlotStatus q s) := by
  simp +contextual only [execPlotStatus, State.plotCommand_kept, State.done_kept, implies_true, answers_next, h]

theorem execPlotLogStart_answers {q : Req} (h : Kept a s) : Answers a (execPlotLogStart q s) := by
  unfold execPlotLogStart
  refine answers_next.mpr (State.plotCommand_kept h (fun y1 y2 s3 h4 => ?_))
  extract_lets b base n s5 s6 r
  have hs5 : Kept a s5 := State.wrB_kept _ _ _ _ (State.wr_kept _ _ _ _ (State.wrPair_kept _ _ _ h4))
  have hs6 : Kept a s6 := by simp only [s6, State.wrB_kept, State.wr_kept, hs5]
  split
  · exact State.finish_kept _ _ _ h4
  · exact Kept.ite (State.finish_kept _ _ _ h4) (State.done_kept _ _ _ (State.setPlot_kept _ _ _ hs6))

theorem execPlotLogSync_answers {q : Req} (h : Kept a s) : Answers a (execPlotLogSync q s) := by
  unfold execPlotLogSync
  exact answers_next.mpr (State.plotCommand_kept h (fun _ _ _ hk => Kept.ite (State.finish_kept _ _ _ hk)
    (State.done_kept _ _ _ (Kept.ite (State.wrB_kept _ _ _ _ (State.setPlot_kept _ _ _ hk)) (State.setPlot_kept _ _ _
    hk)))))

theorem execPlotLogStop_answers {q : Req} (h : Kept a s) : Answers a (execPlotLogStop q s) := by
  unfold execPlotLogStop
  exact answers_next.mpr (State.plotCommand_kept h (fun _ _ _ hk => State.done_kept _ _ _ (State.wrB_kept _ _ _ _
    hk)))

theorem execPlotPause_answers {q : Req} (h : Kept a s) : Answers a (execPlotPause q s) := by
  unfold execPlotPause
  exact answers_next.mpr (State.plotCommand_kept h (fun _ _ _ hk => State.endPlotJobs_kept (State.addJob_kept _ _ _ _
    (State.updateWaits_kept (State.wr_kept _ _ _ _ hk)))))

theorem execPlotResume_answers {q : Req} (h : Kept a s) : Answers a (execPlotResume q s) := by
  unfold execPlotResume
  exact answers_next.mpr (State.plotCommand_kept h (fun _ _ _ hk => State.done_kept _ _ _ (State.updateWaits_kept
    (State.releasePlot_kept (State.wr_kept _ _ _ _ hk)))))

theorem execPlotSave_answers {q : Req} (h : Kept a s) : Answers a (execPlotSave q s) := by
  unfold execPlotSave
  refine answers_next.mpr (State.plotCommand_kept h (fun y1 y2 s3 h4 => ?_))
  extract_lets l
  split
  · exact State.finish_kept _ _ _ h4
  · exact Kept.ite (State.finish_kept _ _ _ h4) (State.done_kept _ _ _ (State.postWrite_kept _ _ _ _ _ h4))

theorem State.restoreQp_kept {p : Nat} {r : List Nat} (h : Kept a s) : Kept a (s.restoreQp p r) := by
  unfold State.restoreQp
  exact State.wrW_kept _ _ _ (State.wrW_kept _ _ _ (State.wrW_kept _ _ _ (State.makeQp_kept (State.draw_kept _ h))))

theorem execPlotRestore_answers {q : Req} {buf : Fetch} (h : Kept a s) : Answers a (execPlotRestore q buf s) := by
  unfold execPlotRestore
  refine answers_next.mpr (State.plotCommand_kept h fun c p s h => ?_)
  refine State.withBuffer_kept h (fun _ hk => State.finish_kept _ _ _ hk) fun l s h => ?_
  extract_lets facts fact n rs s1 s2 area s3 x s4 s5 s6 s7
  have hs1 : Kept a s1 := Kept.fold (fun _ _ hk => State.restoreQp_kept hk) h
  have hs2 : Kept a s2 := Kept.fold (fun _ _ hk => State.wrW_kept _ _ _ hk) hs1
  have hs3 : Kept a s3 := kept_mk.mpr (hs2.at_.putBytes _ _)
  have hs4 : Kept a s4 := State.setPlot_kept _ _ _ hs3
  have hs5 : Kept a s5 := State.wrB_kept _ _ _ _ (State.wrB_kept _ _ _ _ hs4)
  have hs6 : Kept a s6 := Kept.ite (State.msgArrives_kept _ _ hs5) hs5
  have hs7 : Kept a s7 := State.wr_kept _ _ _ _ hs6
  exact Kept.ite (State.finish_kept _ _ _ h) (State.done_kept _ _ _ (State.wr_kept _ _ _ _ hs7))

/-! ### Machine/Drives.lean -/

theorem State.editExt_kept {i : Nat} {f : Nat → Nat} (h : Kept a s) : Kept a (s.editExt i f) := by
  unfold State.editExt
  exact Kept.ite (State.keepExt_kept _ _ _ (State.setExt_kept _ _ _ h)) (State.setExt_kept _ _ _ h)

theorem State.markStale_kept {i cols : Nat} (h : Kept a s) : Kept a (s.markStale i cols) := by
  unfold State.markStale
  exact Kept.ite h (State.setStale_kept _ _ _ (State.editExt_kept h))

theorem State.failDrive_kept {d : Nat} (h : Kept a s) : Kept a (s.failDrive d) := by
  unfold State.failDrive
  exact State.raise_kept (Kept.fold (fun _ _ hk => Kept.ite (State.markStale_kept hk) hk) (State.setDrive_kept _ _ _
    h))

theorem State.retireDone_kept (h : Kept a s) : Kept a s.retireDone := by
  unfold State.retireDone
  exact Kept.fold (fun _ _ hk => Kept.ite (State.setDrive_kept _ _ _ hk) hk) h

theorem execDriveLinkUp_answers {d : DriveIx} {cap : Nat} {fits : Bool} (h : Kept a s) :
    Answers a (execDriveLinkUp d cap fits s) := by
  unfold execDriveLinkUp
  extract_lets x
  refine Answers.ite ?_ ?_
  · simp only [answers_next, h]
  · split <;> simp only [State.setDrive_kept, answers_next, h]

theorem execDriveLinkDown_answers {d : DriveIx} (h : Kept a s) : Answers a (execDriveLinkDown d s) := by
  unfold execDriveLinkDown
  extract_lets x
  refine Answers.ite ?_ ?_
  · simp only [answers_next, h]
  · split <;> simp only [State.setDrive_kept, answers_next, h]

theorem execDriveFailure_answers {d : DriveIx} {how : DriveEnd} (h : Kept a s) : Answers a (execDriveFailure d how s) := by
  unfold execDriveFailure
  extract_lets x errs s1
  have hs1 : Kept a s1 := State.setDrive_kept _ _ _ h
  refine Answers.ite ?_ ?_
  · simp only [answers_next, h]
  · split
    · split
      · simp only [State.failDrive_kept, Kept.ite, answers_next, h]
      · simp only [answers_next, h]
    · simp only [State.failDrive_kept, answers_next, h]
    · simp only [State.failDrive_kept, answers_next, h]
    · simp only [State.failDrive_kept, Kept.ite, answers_next, hs1]

theorem State.siloCommand_kept {q : Req} {opcode : Nat} {k : Cmd → State → State} (h : Kept a s)
    (hk : ∀ y0 y1, Kept a y1 → Kept a (k y0 y1)) : Kept a (s.siloCommand q opcode k) := by
  unfold State.siloCommand
  exact State.command_kept _ _ _ _ h (fun _ _ hk1 => Kept.ite (hk _ _ hk1) (State.finish_kept _ _ _ hk1))

theorem State.driveSet_kept {q : Req} {op : Nat} {k : Nat → State → State} (h : Kept a s)
    (hk : ∀ y0 y1, Kept a y1 → Kept a (k y0 y1)) : Kept a (s.driveSet q op k) := by
  unfold State.driveSet
  exact State.siloCommand_kept h (fun _ _ hk1 => Kept.ite (State.finish_kept _ _ _ hk1) (Kept.ite hk1 (hk _ _ hk1)))

theorem execDriveAdmit_answers {q : Req} (h : Kept a s) : Answers a (execDriveAdmit q s) := by
  unfold execDriveAdmit
  exact answers_next.mpr (State.driveSet_kept h (fun _ _ hk => Kept.ite (State.finish_kept _ _ _ hk) (Kept.ite
    (State.finish_kept _ _ _ hk) (State.done_kept _ _ _ (State.setDrive_kept _ _ _ hk)))))

theorem execDriveRetire_answers {q : Req} (h : Kept a s) : Answers a (execDriveRetire q s) := by
  unfold execDriveRetire
  exact answers_next.mpr (State.driveSet_kept h (fun _ _ hk => Kept.ite (State.finish_kept _ _ _ hk)
    (State.done_kept _ _ _ (State.retireDone_kept (Kept.fold (fun _ _ hk1 => Kept.ite (State.editExt_kept hk1) hk1)
    (State.setDrive_kept _ _ _ hk))))))

theorem execDriveFail_answers {q : Req} (h : Kept a s) : Answers a (execDriveFail q s) := by
  unfold execDriveFail
  exact answers_next.mpr (State.driveSet_kept h (fun _ _ hk => Kept.ite (State.finish_kept _ _ _ hk)
    (State.done_kept _ _ _ (State.failDrive_kept hk))))

theorem execPoolStatus_answers {q : Req} (h : Kept a s) : Answers a (execPoolStatus q s) := by
  simp +contextual only [execPoolStatus, State.siloCommand_kept, State.done_kept, implies_true, answers_next, h]

theorem State.replace_kept {i : Nat} (h : Kept a s) : KeptIf a (s.replace i) := by
  unfold State.replace
  dsimp only
  split
  · exact .none
  · rename_i e
    exact .some (State.keepExt_kept _ _ _ (State.setStale_kept _ _ _ (State.setExt_kept _ _ _ (State.place_of _ _ e h))))

theorem execRebuildExtentDone_answers {v : Fin 4096} {x : Nat} (h : Kept a s) :
    Answers a (execRebuildExtentDone v x s) := by
  unfold execRebuildExtentDone
  refine .ite (answers_next.mpr h) ?_
  split
  · exact answers_next.mpr h
  · exact answers_next.mpr (State.retireDone_kept (State.replace_kept h _ ‹_›))

theorem State.cqe_kept {src : Nat × Nat × Nat} {status dw0 : Nat} (h : Kept a s) : Kept a (s.cqe src status dw0) := by
  unfold State.cqe
  split
  · extract_lets c sq cq addr dw3 wrap cq'
    refine Kept.ite h ?_
    split
    · exact h
    · exact Kept.ite (State.windowErr_kept h) (Kept.ite (State.interrupt_kept _ _ _ _ (State.setCtl_kept _ _ _
        (State.postWrite_kept _ _ _ _ _ (State.logWrite_kept h)))) (State.setCtl_kept _ _ _
        (State.postWrite_kept _ _ _ _ _ (State.logWrite_kept h))))

theorem State.complete_kept {src : Option (Nat × Nat × Nat)} {status : Nat} (h : Kept a s) :
    Kept a (s.complete src status) := by
  unfold State.complete
  split
  · exact h
  · exact State.endPlotJobs_kept (State.cqe_kept (Kept.ite h (State.setCtl_kept _ _ _ h)))

theorem State.destageEnds_kept (h : Kept a s) : Kept a s.destageEnds := by
  unfold State.destageEnds
  exact State.testWaiting_kept (State.advance_kept (Kept.ite (State.updateWriteback_kept (State.wrB_kept _ _ _ _
    (State.onVault_kept _ _ (State.onSilo_kept _ _ h)))) h))

theorem State.deleteVol_kept {v : Nat} (h : Kept a s) : Kept a (s.deleteVol v) := by
  unfold State.deleteVol
  exact State.destageEnds_kept (State.retireDone_kept (State.onSilo_kept _ _ h))

theorem State.endDeletes_kept {v : Nat} (h : Kept a s) : Kept a (s.endDeletes v) := by
  unfold State.endDeletes
  exact Kept.ite (State.endJobs_kept _ _ _ _ (State.deleteVol_kept h)) h

theorem State.extentDone_kept {v x upTo : Nat} (h : Kept a s) : Kept a (s.extentDone v x upTo) := by
  unfold State.extentDone
  exact State.setVol_kept _ _ _ (State.onSilo_kept _ _ (State.countN_kept _ _ _ (Kept.fold (fun _ _ hk =>
    State.setDisk_kept _ _ _ _ hk) h)))

theorem State.enqueueWrite_kept {id n : Nat} (h : Kept a s) : Kept a (s.enqueueWrite id n) := by
  unfold State.enqueueWrite
  exact Kept.ite (State.count_kept _ _ (State.onSilo_kept _ _ h)) (State.onSilo_kept _ _ h)

theorem State.writeAcked_kept {w : WOp} (h : Kept a s) : Kept a (s.writeAcked w) := by
  unfold State.writeAcked
  extract_lets s1 id
  have hs1 : Kept a s1 := State.count_kept _ _ h
  split
  · exact State.complete_kept hs1
  · simp only [State.enqueueWrite_kept, State.onSilo_kept, hs1]

theorem State.ackThrough_kept (h : Kept a s) : Kept a s.ackThrough := by
  unfold State.ackThrough
  exact Kept.fold (fun _ _ hk => Kept.ite (State.writeAcked_kept (State.settleWrite_kept _ _ _ _ (Kept.fold
    (fun _ _ hk1 => State.setDisk_kept _ _ _ _ hk1) hk))) hk) h

theorem State.blockVol_kept {v : Nat} (h : Kept a s) : Kept a (s.blockVol v) := by
  simp only [State.blockVol, State.setVol_kept, State.endJobs_kept, h]

theorem execDestageExtentDone_answers {v : Fin 4096} {x upTo : Nat} {bad : List DriveIx} (h : Kept a s) :
    Answers a (execDestageExtentDone v x upTo bad s) := by
  unfold execDestageExtentDone
  extract_lets i vol work finish
  have hfin (s : State) (hk : Kept a s) : Answers a (finish s) :=
    answers_next.mpr (State.destageEnds_kept (State.endDeletes_kept (State.ackThrough_kept (State.extentDone_kept hk))))
  have hblock : Answers a (.next (s.blockVol v)) := answers_next.mpr (State.blockVol_kept h)
  refine .ite (answers_next.mpr h) ?_
  split
  · exact hblock
  · have hk : Kept a _ := State.allocate_kept h _ ‹_›
    refine .ite (hfin _ (State.markStale_kept (State.keepExt_kept _ _ _ hk))) ?_
    split
    · exact hfin _ (State.retireDone_kept (State.count_kept _ _ (State.replace_kept hk _ ‹_›)))
    · exact answers_next.mpr (State.blockVol_kept hk)

theorem State.volCommand_kept {q : Req} {opcode : Nat} {k : Cmd → Nat → State → State} (h : Kept a s)
    (hk : ∀ y0 y1 y2, Kept a y2 → Kept a (k y0 y1 y2)) : Kept a (s.volCommand q opcode k) := by
  unfold State.volCommand
  exact State.siloCommand_kept h (fun _ _ hk1 => Kept.ite (State.finish_kept _ _ _ hk1) (Kept.ite
    (State.finish_kept _ _ _ hk1) (Kept.ite (State.busyRetry_kept _ _ _ hk1) (hk _ _ _ hk1))))

theorem execVolCreate_answers {q : Req} (h : Kept a s) : Answers a (execVolCreate q s) := by
  unfold execVolCreate
  refine answers_next.mpr (State.siloCommand_kept h (fun y1 s2 h3 => ?_))
  extract_lets v n key kek
  refine Kept.ite (State.finish_kept _ _ _ h3) ?_
  refine Kept.ite (State.finish_kept _ _ _ h3) ?_
  refine Kept.ite (State.finish_kept _ _ _ h3) ?_
  refine Kept.ite h3 ?_
  split
  · rename_i e4
    have h5 : Kept a _ := Kept.of_snd e4 (State.choose_kept _ _ _ _ h3)
    exact State.finish_kept _ _ _ h5
  · rename_i e6 _
    have h7 : Kept a _ := Kept.of_snd e6 (State.choose_kept _ _ _ _ h3)
    exact State.finish_kept _ _ _ h7
  · rename_i e8 _
    have h9 : Kept a _ := Kept.of_snd e8 (State.choose_kept _ _ _ _ h3)
    simp only [State.setVol_kept, State.done_kept, h9]

theorem execVolDelete_answers {q : Req} (h : Kept a s) : Answers a (execVolDelete q s) := by
  unfold execVolDelete
  exact answers_next.mpr (State.volCommand_kept h (fun _ _ _ hk => Kept.ite (State.busyRetry_kept _ _ _ hk) (Kept.ite
    (State.done_kept _ _ _ (State.deleteVol_kept hk)) (Kept.ite (State.busyRetry_kept _ _ _ hk) (State.endDeletes_kept
    (State.addJob_kept _ _ _ _ hk))))))

theorem State.nsChanged_kept {p nsid : Nat} (h : Kept a s) : Kept a (s.nsChanged p nsid) := by
  unfold State.nsChanged
  extract_lets c c1 s2
  have hs2 : Kept a s2 := State.setCtl_kept _ _ _ h
  refine Kept.ite h ?_
  split
  · exact Kept.ite hs2 (State.cqe_kept (State.setCtl_kept _ _ _ hs2))
  · exact hs2

theorem State.attCommand_kept {q : Req} {opcode : Nat} {k : Cmd → Nat → State → State} (h : Kept a s)
    (hk : ∀ y0 y1 y2, Kept a y2 → Kept a (k y0 y1 y2)) : Kept a (s.attCommand q opcode k) := by
  unfold State.attCommand
  exact State.plotCommand_kept h (fun _ _ _ hk1 => Kept.ite (State.finish_kept _ _ _ hk1) (hk _ _ _ hk1))

theorem execVolAttach_answers {q : Req} (h : Kept a s) : Answers a (execVolAttach q s) := by
  unfold execVolAttach
  exact answers_next.mpr (State.attCommand_kept h (fun _ _ _ hk => Kept.ite (State.finish_kept _ _ _ hk) (Kept.ite
    (State.finish_kept _ _ _ hk) (Kept.ite (State.busyRetry_kept _ _ _ hk) (Kept.ite (State.finish_kept _ _ _ hk)
    (State.done_kept _ _ _ (State.nsChanged_kept (State.onSilo_kept _ _ hk))))))))

theorem execVolDetach_answers {q : Req} (h : Kept a s) : Answers a (execVolDetach q s) := by
  unfold execVolDetach
  exact answers_next.mpr (State.attCommand_kept h (fun _ _ _ hk => Kept.ite (State.finish_kept _ _ _ hk)
    (State.done_kept _ _ _ (State.nsChanged_kept (State.onSilo_kept _ _ hk)))))

theorem execVolStatus_answers {q : Req} (h : Kept a s) : Answers a (execVolStatus q s) := by
  simp +contextual only [execVolStatus, State.volCommand_kept, State.done_kept, implies_true, answers_next, h]

/-! ### Machine/Conduit.lean -/

theorem State.notReadyWrite_kept {w : WOp} (h : Kept a s) : Kept a (s.notReadyWrite w) := by
  simp only [State.notReadyWrite, State.complete_kept, State.dropWrite_kept, h]

theorem State.failConn_kept {c : Nat} (h : Kept a s) : Kept a (s.failConn c) := by
  unfold State.failConn
  exact State.ackThrough_kept (Kept.fold (fun _ _ hk => State.notReadyWrite_kept hk) (State.raise_kept
    (State.dropBuffer_kept _ _ (State.wr_kept _ _ _ _ h))))

theorem State.sendData_kept {c : Nat} {blocks : List (Nat × List Byte)} (h : Kept a s) : Kept a (s.sendData c blocks) := by
  unfold State.sendData
  exact Kept.fold (fun _ _ hk => State.emit_kept _ _ (State.wr_kept _ _ _ _ (Kept.ite (State.wr_kept _ _ _ _
    (State.setConn_kept _ _ _ hk)) (State.setConn_kept _ _ _ hk)))) h

theorem State.replicate_kept {w : WOp} {blocks : List (Nat × List Byte)} (h : Kept a s) :
    Kept a (s.replicate w blocks) := by
  unfold State.replicate
  split
  · exact h
  · exact Kept.ite (State.notReadyWrite_kept (Kept.ite (State.failConn_kept h) h)) (Kept.ite
      (State.markExts_kept _ _ _ _ (Kept.ite (State.failConn_kept h) h)) (State.onWrite_kept _ _ _
      (State.sendData_kept (Kept.ite (State.failConn_kept h) h))))

theorem State.resend_kept {c : Nat} (h : Kept a s) : Kept a (s.resend c) := by
  unfold State.resend
  exact Kept.fold (fun _ _ hk => State.emit_kept _ _ hk) (State.countN_kept _ _ _ (State.setConn_kept _ _ _ h))

theorem State.retry_kept {c : Nat} (h : Kept a s) : Kept a (s.retry c) := by
  unfold State.retry
  exact Kept.ite (State.failConn_kept h) (State.resend_kept (State.setConn_kept _ _ _ h))

theorem execConduitAckRx_answers {c : Conn} {gen psn : Nat} (h : Kept a s) : Answers a (execConduitAckRx c gen psn s) := by
  unfold execConduitAckRx
  exact Answers.ite (answers_next.mpr h) (Answers.ite (answers_next.mpr h) (answers_next.mpr (State.ackThrough_kept
    (State.onSilo_kept _ _ (State.wr_kept _ _ _ _ (State.setConn_kept _ _ _ h))))))

theorem execConduitNakRx_answers {c : Conn} {gen : Nat} (h : Kept a s) : Answers a (execConduitNakRx c gen s) := by
  simp only [execConduitNakRx, State.retry_kept, Kept.ite, answers_next, h]

theorem execConduitRto_answers {c : Conn} (h : Kept a s) : Answers a (execConduitRto c s) := by
  unfold execConduitRto
  exact answers_next.mpr (Kept.ite (State.retry_kept (State.setConn_kept _ _ _ h)) h)

theorem execConduitRnrRetry_answers {c : Conn} (h : Kept a s) : Answers a (execConduitRnrRetry c s) := by
  simp only [execConduitRnrRetry, State.resend_kept, Kept.ite, answers_next, h]

theorem State.peerWrite_kept {v lba : Nat} {data : List Byte} (h : Kept a s) : KeptIf a (s.peerWrite v lba data) := by
  refine .ite .none fun t e => ?_
  obtain ⟨u, hu, rfl⟩ := Option.map_eq_some_iff.mp e
  exact State.count_kept _ _ (State.settleWrite_kept _ _ _ _ (State.onSilo_kept _ _ (State.allocate_kept h u hu)))

theorem execConduitDataRx_answers {c : Conn} {gen psn lba : Nat} {data : List Byte} (h : Kept a s) :
    Answers a (execConduitDataRx c gen psn lba data s) := by
  unfold execConduitDataRx
  refine .ite (answers_next.mpr h) (.ite ?_ ?_)
  · split
    · rename_i e
      obtain ⟨v, -, hv⟩ := Option.bind_eq_some_iff.mp e
      exact answers_next.mpr (State.emit_kept _ _ (State.wr_kept _ _ _ _ (State.peerWrite_kept h _ hv)))
    · exact answers_next.mpr (State.emit_kept _ _ (State.count_kept _ _ h))
  · have hc (k : Nat) (o : Out) : Answers a (.next ((s.count k).emit o)) :=
      answers_next.mpr (State.emit_kept _ _ (State.count_kept _ _ h))
    exact .ite (hc _ _) (.ite (answers_next.mpr (State.count_kept _ _ h)) (hc _ _))

theorem State.rejoin_kept {c : Nat} {w : WOp} (h : Kept a s) : Kept a (s.rejoin c w) := by
  unfold State.rejoin
  exact Kept.ite h (Kept.ite (State.replicate_kept (State.onWrite_kept _ _ _ h)) (State.markExts_kept _ _ _ _
    (State.onWrite_kept _ _ _ h)))

theorem execCndConnSet_answers {q : Req} (h : Kept a s) : Answers a (execCndConnSet q s) := by
  unfold execCndConnSet
  refine answers_next.mpr (State.siloCommand_kept h fun c s h => ?_)
  have hf (st : Nat) : Kept a (s.finish q st) := State.finish_kept _ _ _ h
  refine Kept.ite (hf _) (Kept.ite (hf _) ?_)
  extract_lets b en old s1 s2 s3 s4 x s5
  have hs1 : Kept a s1 := Kept.fold (fun _ _ hk => State.markExts_kept _ _ _ _ hk) h
  have hs3 : Kept a s3 := State.wrW_kept _ _ _ (State.wrW_kept _ _ _ hs1)
  have hs5 : Kept a s5 := State.setConn_kept _ _ _ (State.wr_kept _ _ _ _ (State.wr_kept _ _ _ _ hs3))
  exact State.done_kept _ _ _ (State.ackThrough_kept (Kept.fold (fun _ _ hk => State.rejoin_kept hk) hs5))

theorem execCndStatus_answers {q : Req} (h : Kept a s) : Answers a (execCndStatus q s) := by
  unfold execCndStatus
  exact answers_next.mpr (State.siloCommand_kept h (fun _ _ hk => Kept.ite (State.finish_kept _ _ _ hk)
    (State.done_kept _ _ _ hk)))

theorem execVolResync_answers {q : Req} (h : Kept a s) : Answers a (execVolResync q s) := by
  unfold execVolResync
  refine answers_next.mpr (State.volCommand_kept h (fun y1 y2 s3 h4 => ?_))
  split
  · exact State.finish_kept _ _ _ h4
  · exact Kept.ite (State.busyRetry_kept _ _ _ h4) (State.done_kept _ _ _ (State.onSilo_kept _ _ (Kept.fold
      (fun _ _ hk => State.sendData_kept hk) h4)))

/-! ### Machine/Nvme.lean -/

theorem State.setSq_kept {p y : Nat} {x : Nq} (h : Kept a s) : Kept a (s.setSq p y x) := by
  simp only [State.setSq, State.setCtl_kept, h]

theorem State.setCq_kept {p y : Nat} {x : Nq} (h : Kept a s) : Kept a (s.setCq p y x) := by
  simp only [State.setCq, State.setCtl_kept, h]

theorem execNvmeSqDoorbell_answers {p : PlotIx} {y : Nat} {v : Word} (h : Kept a s) :
    Answers a (execNvmeSqDoorbell p y v s) := by
  unfold execNvmeSqDoorbell
  exact answers_next.mpr (State.vfWrite_kept h (fun _ hk => Kept.ite (State.setSq_kept hk) hk))

theorem execNvmeCqDoorbell_answers {p : PlotIx} {y : Nat} {v : Word} (h : Kept a s) :
    Answers a (execNvmeCqDoorbell p y v s) := by
  unfold execNvmeCqDoorbell
  exact answers_next.mpr (State.vfWrite_kept h (fun _ hk => Kept.ite (State.setCq_kept hk) hk))

theorem execControllerReset_answers {p : PlotIx} (h : Kept a s) : Answers a (execControllerReset p s) := by
  unfold execControllerReset
  exact answers_next.mpr (State.vfWrite_kept h (fun _ hk => Kept.ite (State.ccWritten_kept _ _ _
    (State.wr_kept _ _ _ _ hk)) hk))

theorem execShutdownNotification_answers {p : PlotIx} {shn : Fin 4} (h : Kept a s) :
    Answers a (execShutdownNotification p shn s) := by
  unfold execShutdownNotification
  exact answers_next.mpr (State.vfWrite_kept h (fun _ hk => Kept.ite (State.ccWritten_kept _ _ _
    (State.wr_kept _ _ _ _ hk)) hk))

theorem State.logPlot_kept {p : Nat} {e : Fetch} (h : Kept a s) : Kept a (s.logPlot p e) := by
  unfold State.logPlot
  split
  · exact State.logDma_kept h
  · exact h

theorem State.plotRead_kept {p addr len : Nat} (h : Kept a s) : Kept a (s.plotRead p addr len) := by
  unfold State.plotRead
  split
  · exact State.issueRead_kept _ _ _ _ _ h
  · exact h

theorem State.readRuns_kept {p : Nat} {runs : List (Nat × Nat)} (h : Kept a s) : Kept a (s.readRuns p runs) := by
  simp +contextual only [State.readRuns, State.plotRead_kept, Kept.fold, implies_true, h]

theorem State.fetchSqe_kept {p y op : Nat} {e : Fetch} {k : Sqe → State → State} (h : Kept a s)
    (hk : ∀ y0 y1, Kept a y1 → Kept a (k y0 y1)) : Kept a (s.fetchSqe p y op e k) := by
  unfold State.fetchSqe
  extract_lets q addr asked ops s1
  have hasked : Kept a asked := State.plotRead_kept h
  have hs1 : Kept a s1 := State.setSq_kept hasked
  refine Kept.ite h ?_
  refine Kept.ite ?_ ?_
  · simp only [State.wrB_kept, State.windowErr_kept, h]
  · split
    · exact Kept.ite h (Kept.ite (State.complete_kept hs1) (Kept.ite (State.complete_kept hs1) (hk _ _ hs1)))
    · simp only [State.wrB_kept, State.logPlot_kept, hasked]

theorem State.adminCmd_kept {p op : Nat} {e : Fetch} {k : Sqe → State → State} (h : Kept a s)
    (hk : ∀ y0 y1, Kept a y1 → Kept a (k y0 y1)) : Kept a (s.adminCmd p op e k) := by
  simp +contextual only [State.adminCmd, State.fetchSqe_kept, implies_true, h, hk]

theorem State.ioCmd_kept {p y op : Nat} {e : Fetch} {k : Sqe → State → State} (h : Kept a s)
    (hk : ∀ y0 y1, Kept a y1 → Kept a (k y0 y1)) : Kept a (s.ioCmd p y op e k) := by
  unfold State.ioCmd
  exact Kept.ite h (State.fetchSqe_kept h (fun _ _ hk1 => hk _ _ hk1))

theorem State.adminEnd_kept {p : Nat} {x : Sqe} {status dw0 : Nat} (h : Kept a s) : Kept a (s.adminEnd p x status dw0) := by
  unfold State.adminEnd
  exact Kept.ite (State.endPlotJobs_kept (State.cqe_kept h)) (State.complete_kept h)

theorem State.prpList_kept {p ps addr left : Nat} {lists : List Fetch} {runs : List (Nat × Nat)} (h : Kept a s) :
    Kept a (s.prpList p ps lists addr left runs).1 := by
  induction lists generalizing s addr left runs with
  | nil => exact h
  | cons f lists ih =>
    simp only [State.prpList]
    have hk (n : Nat) : Kept a (s.plotRead p addr n) := State.plotRead_kept h
    refine .ite_fst h (.ite_fst (State.windowErr_kept h) ?_)
    split
    · exact .ite_fst (hk _) (.ite_fst (ih (hk _)) (hk _))
    · exact State.logPlot_kept (hk _)

theorem State.prpRuns_kept {p : Nat} {x : Sqe} {len : Nat} {lists : List Fetch} (h : Kept a s) :
    Kept a (s.prpRuns p x len lists).1 := by
  unfold State.prpRuns
  extract_lets ps n1
  split
  · exact h
  · split
    · exact h
    · split
      · exact h
      · split
        · split <;> exact h
        · exact State.prpList_kept h

theorem State.checkRuns_kept {p : Nat} {runs : List (Nat × Nat)} {wr : Bool} (h : Kept a s) :
    KeptIf a (s.checkRuns p runs wr) := .ite (.some h) .none

theorem State.withRuns_kept {p y : Nat} {x : Sqe} {len : Nat} {lists : List Fetch} {wr : Bool}
    {k : List (Nat × Nat) → State → State} (h : Kept a s) (hk : ∀ y0 y1, Kept a y1 → Kept a (k y0 y1)) :
    Kept a (s.withRuns p y x len lists wr k) := by
  unfold State.withRuns
  split
  · exact State.complete_kept (Kept.of_fst ‹_› (State.prpRuns_kept h))
  · have hr : Kept a _ := Kept.of_fst ‹_› (State.prpRuns_kept h)
    split
    · exact State.complete_kept (State.windowErr_kept hr)
    · exact hk _ _ (State.checkRuns_kept hr _ ‹_›)

theorem State.sendRuns_kept {p : Nat} {runs : List (Nat × Nat)} {l : List Byte} (h : Kept a s) :
    Kept a (s.sendRuns p runs l) := by
  induction runs generalizing s l with
  | nil => exact h
  | cons x runs ih =>
    unfold State.sendRuns
    split
    · exact h
    · exact ih (State.postWrite_kept _ _ _ _ _ (State.logWrite_kept h))

theorem State.adminData_kept {p : Nat} {x : Sqe} {lists : List Fetch} {data : List Byte} (h : Kept a s) :
    Kept a (s.adminData p x lists data) := by
  unfold State.adminData
  exact State.withRuns_kept h (fun _ _ hk => State.adminEnd_kept (State.sendRuns_kept hk))

theorem execNvmeDeleteIoSq_answers {p : PlotIx} {e : Fetch} (h : Kept a s) : Answers a (execNvmeDeleteIoSq p e s) := by
  unfold execNvmeDeleteIoSq
  exact Answers.ite (answers_next.mpr h) (answers_next.mpr (State.adminCmd_kept h (fun _ _ hk => Kept.ite
    (State.adminEnd_kept hk) (State.adminEnd_kept (State.setSq_kept hk)))))

theorem execNvmeDeleteIoCq_answers {p : PlotIx} {e : Fetch} (h : Kept a s) : Answers a (execNvmeDeleteIoCq p e s) := by
  unfold execNvmeDeleteIoCq
  exact answers_next.mpr (State.adminCmd_kept h (fun _ _ hk => Kept.ite (State.adminEnd_kept hk) (State.adminEnd_kept
    (State.setCq_kept hk))))

theorem execNvmeCreateIoSq_answers {p : PlotIx} {e : Fetch} (h : Kept a s) : Answers a (execNvmeCreateIoSq p e s) := by
  unfold execNvmeCreateIoSq
  exact answers_next.mpr (State.adminCmd_kept h (fun _ _ hk => Kept.ite (State.adminEnd_kept hk) (State.adminEnd_kept
    (State.setSq_kept hk))))

theorem execNvmeCreateIoCq_answers {p : PlotIx} {e : Fetch} (h : Kept a s) : Answers a (execNvmeCreateIoCq p e s) := by
  unfold execNvmeCreateIoCq
  exact answers_next.mpr (State.adminCmd_kept h (fun _ _ hk => Kept.ite (State.adminEnd_kept hk) (State.adminEnd_kept
    (State.setCq_kept hk))))

theorem execNvmeIdentify_answers {p : PlotIx} {e : Fetch} {lists : List Fetch} (h : Kept a s) :
    Answers a (execNvmeIdentify p e lists s) := by
  unfold execNvmeIdentify
  refine answers_next.mpr (State.adminCmd_kept h (fun y1 s2 h3 => ?_))
  extract_lets cns
  refine Kept.ite ?_ ?_
  · split
    · exact State.adminEnd_kept h3
    · exact State.adminData_kept h3
  · exact Kept.ite (State.adminData_kept h3) (Kept.ite (State.adminData_kept h3) (State.adminEnd_kept h3))

theorem execNvmeGetLogPage_answers {p : PlotIx} {e : Fetch} {lists : List Fetch} (h : Kept a s) :
    Answers a (execNvmeGetLogPage p e lists s) := by
  unfold execNvmeGetLogPage
  exact answers_next.mpr (State.adminCmd_kept h (fun _ _ hk => Kept.ite (State.adminEnd_kept hk) (State.adminData_kept
    (Kept.ite (State.setCtl_kept _ _ _ hk) hk))))

theorem execNvmeSetFeatures_answers {p : PlotIx} {e : Fetch} (h : Kept a s) : Answers a (execNvmeSetFeatures p e s) := by
  unfold execNvmeSetFeatures
  exact answers_next.mpr (State.adminCmd_kept h (fun _ _ hk => Kept.ite (State.adminEnd_kept hk) (Kept.ite
    (State.adminEnd_kept hk) (State.adminEnd_kept (State.setCtl_kept _ _ _ hk)))))

theorem execNvmeGetFeatures_answers {p : PlotIx} {e : Fetch} (h : Kept a s) : Answers a (execNvmeGetFeatures p e s) := by
  unfold execNvmeGetFeatures
  exact answers_next.mpr (State.adminCmd_kept h (fun _ _ hk => Kept.ite (State.adminEnd_kept hk) (State.adminEnd_kept
    hk)))

theorem execNvmeAsyncEventRequest_answers {p : PlotIx} {e : Fetch} (h : Kept a s) :
    Answers a (execNvmeAsyncEventRequest p e s) := by
  unfold execNvmeAsyncEventRequest
  refine answers_next.mpr (State.adminCmd_kept h (fun y1 s2 h3 => ?_))
  extract_lets c s4
  have hs4 : Kept a s4 := State.setCtl_kept _ _ _ h3
  refine Kept.ite (State.adminEnd_kept h3) ?_
  split
  · exact State.nsChanged_kept hs4
  · exact hs4

theorem execNvmeAbort_answers {p : PlotIx} {e : Fetch} (h : Kept a s) : Answers a (execNvmeAbort p e s) := by
  unfold execNvmeAbort
  refine answers_next.mpr (State.adminCmd_kept h (fun y1 s2 h3 => ?_))
  extract_lets y cid key c
  split
  · exact State.adminEnd_kept (State.complete_kept (State.dropWrite_kept _ _ h3))
  · exact State.adminEnd_kept (State.complete_kept (State.onSilo_kept _ _ h3))
  · exact Kept.ite (State.adminEnd_kept (State.complete_kept (State.setCtl_kept _ _ _ h3))) (State.adminEnd_kept h3)

theorem State.onNs_kept {p y : Nat} {x : Sqe} {wr : Bool} {k : Nat → State → State} (h : Kept a s)
    (hk : ∀ y0 y1, Kept a y1 → Kept a (k y0 y1)) : Kept a (s.onNs p y x wr k) := by
  unfold State.onNs
  split
  · exact State.complete_kept h
  · simp only [State.complete_kept, Kept.ite, h, hk]

theorem execNvmeFlush_answers {p : PlotIx} {y : Nat} {e : Fetch} (h : Kept a s) : Answers a (execNvmeFlush p y e s) := by
  unfold execNvmeFlush
  exact answers_next.mpr (State.ioCmd_kept h (fun _ _ hk => State.onNs_kept hk (fun _ _ hk1 => State.complete_kept
    hk1)))

theorem State.stageWrite_kept {w : WOp} {held : Bool} {data : List Byte} (h : Kept a s) :
    Kept a (s.stageWrite w held data) := by
  unfold State.stageWrite
  exact State.replicate_kept (State.onWrite_kept _ _ _ (State.onSilo_kept _ _ h))

theorem State.payload_kept {w : WOp} {pay : List Fetch} (h : Kept a s) : Kept a (s.payload w pay).1 := by
  unfold State.payload
  extract_lets got s1
  have hs1 : Kept a s1 := by
    unfold s1
    split
    · exact State.readRuns_kept h
    · exact h
  split
  · exact h
  · split
    · dsimp only
      split
      · exact State.logPlot_kept hs1
      · exact hs1
    · exact hs1

theorem State.failWrite_kept {w : WOp} {status : Nat} (h : Kept a s) : Kept a (s.failWrite w status) := by
  simp only [State.failWrite, State.complete_kept, State.dropWrite_kept, h]

theorem State.takeWrite_kept {w : WOp} {held : Bool} {pay : List Fetch} (h : Kept a s) : Kept a (s.takeWrite w held pay) := by
  unfold State.takeWrite
  split
  · exact State.failWrite_kept h
  · have hs : Kept a _ := State.allocateAll_kept h _ ‹_›
    split
    · exact State.failWrite_kept (Kept.of_fst ‹_› (State.payload_kept hs))
    · exact State.stageWrite_kept (Kept.of_fst ‹_› (State.payload_kept hs))

theorem State.newWrite_kept {w : WOp} {pay : List Fetch} (h : Kept a s) : Kept a (s.newWrite w pay) := by
  unfold State.newWrite
  exact Kept.ite (State.takeWrite_kept (State.onSilo_kept _ _ h)) (State.enqueueWrite_kept (State.onSilo_kept _ _ h))

theorem execNvmeWrite_answers {p : PlotIx} {y : Nat} {e : Fetch} {lists pay : List Fetch} (h : Kept a s) :
    Answers a (execNvmeWrite p y e lists pay s) := by
  unfold execNvmeWrite
  exact answers_next.mpr (State.ioCmd_kept h (fun _ _ hk => State.onNs_kept hk (fun _ _ hk1 => Kept.ite
    (State.complete_kept hk1) (Kept.ite (State.complete_kept hk1) (State.withRuns_kept hk1 (fun _ _ hk2 =>
    State.newWrite_kept hk2))))))

theorem execReservationGrant_answers {pay : List Fetch} (h : Kept a s) : Answers a (execReservationGrant pay s) := by
  unfold execReservationGrant
  split
  · simp only [answers_next, h]
  · split
    · simp only [State.onSilo_kept, answers_next, h]
    · exact Answers.ite (answers_next.mpr h) (Answers.ite (answers_next.mpr (State.takeWrite_kept h)) (Answers.ite
        (answers_next.mpr (State.takeWrite_kept h)) (answers_next.mpr h)))

theorem execWriteAcknowledge_answers {id : Nat} (h : Kept a s) : Answers a (execWriteAcknowledge id s) := by
  unfold execWriteAcknowledge
  split
  · simp only [answers_next, h]
  · exact Answers.ite (answers_next.mpr (State.notReadyWrite_kept h)) (Answers.ite (answers_next.mpr
      (State.writeAcked_kept (State.settleWrite_kept _ _ _ _ h))) (answers_next.mpr h))

theorem State.freeExtent_kept {v x : Nat} (h : Kept a s) : Kept a (s.freeExtent v x) := by
  unfold State.freeExtent
  exact State.onSilo_kept _ _ (State.setStale_kept _ _ _ (State.keepExt_kept _ _ _ (State.setExt_kept _ _ _ h)))

theorem State.zeroRange_kept {src : Nat × Nat × Nat} {v : Nat} {free : List Nat} {parts : List (Nat × Nat)}
    (h : Kept a s) : Kept a (s.zeroRange src v free parts) := by
  unfold State.zeroRange
  extract_lets s1
  have hs1 : Kept a s1 := State.destageEnds_kept (State.retireDone_kept (Kept.fold (fun _ _ hk =>
      State.freeExtent_kept hk) h))
  split
  · exact State.complete_kept hs1
  · exact State.newWrite_kept hs1

theorem execNvmeWriteZeroes_answers {p : PlotIx} {y : Nat} {e : Fetch} (h : Kept a s) :
    Answers a (execNvmeWriteZeroes p y e s) := by
  unfold execNvmeWriteZeroes
  exact answers_next.mpr (State.ioCmd_kept h (fun _ _ hk => State.onNs_kept hk (fun _ _ hk1 => Kept.ite
    (State.complete_kept hk1) (State.zeroRange_kept hk1))))

theorem execNvmeDatasetManagement_answers {p : PlotIx} {y : Nat} {e : Fetch} {lists pay : List Fetch} (h : Kept a s) :
    Answers a (execNvmeDatasetManagement p y e lists pay s) := by
  unfold execNvmeDatasetManagement
  refine answers_next.mpr (State.ioCmd_kept h (fun y1 s2 h3 => ?_))
  refine State.onNs_kept h3 (fun y4 s5 h6 => ?_)
  extract_lets n src r
  refine State.withRuns_kept h6 (fun y7 s8 h9 => ?_)
  split
  · rename_i e10
    have h11 : Kept a _ := Kept.of_fst e10 (State.payload_kept h9)
    exact State.complete_kept h11
  · rename_i e12
    have h13 : Kept a _ := Kept.of_fst e12 (State.payload_kept h9)
    exact Kept.ite (State.complete_kept h13) (Kept.ite (State.complete_kept h13) (State.zeroRange_kept h13))

theorem State.finishRead_kept {p : Nat} {src : Nat × Nat × Nat} {v lba n : Nat} {runs : List (Nat × Nat)} (h : Kept a s) :
    Kept a (s.finishRead p src v lba n runs) := by
  unfold State.finishRead
  exact State.complete_kept (State.sendRuns_kept (State.countN_kept _ _ _ h))

theorem execNvmeRead_answers {p : PlotIx} {y : Nat} {e : Fetch} {lists : List Fetch} (h : Kept a s) :
    Answers a (execNvmeRead p y e lists s) := by
  unfold execNvmeRead
  exact answers_next.mpr (State.ioCmd_kept h (fun _ _ hk => State.onNs_kept hk (fun _ _ hk1 => Kept.ite
    (State.complete_kept hk1) (Kept.ite (State.complete_kept hk1) (State.withRuns_kept hk1 (fun _ _ hk2 => Kept.ite
    (State.finishRead_kept hk2) (State.onSilo_kept _ _ hk2)))))))

theorem execDriveReadDone_answers {id : Nat} {bad : List DriveIx} (h : Kept a s) :
    Answers a (execDriveReadDone id bad s) := by
  unfold execDriveReadDone
  split
  · simp only [answers_next, h]
  · exact Answers.ite (answers_next.mpr (State.complete_kept (State.count_kept _ _ (State.onSilo_kept _ _ h))))
      (answers_next.mpr (State.finishRead_kept (State.onSilo_kept _ _ h)))

/-! ### Machine/Cistern.lean -/

theorem State.setCharger_kept {on : Bool} (h : Kept a s) : Kept a (s.setCharger on) := by
  unfold State.setCharger
  exact Kept.ite h (State.emit_kept _ _ (State.wrB_kept _ _ _ _ (State.onCist_kept _ _ h)))

theorem State.setBleed_kept {b : Option (Nat × Nat)} (h : Kept a s) : Kept a (s.setBleed b) := by
  unfold State.setBleed
  exact State.emit_kept _ _ (State.wrB_kept _ _ _ _ (State.onCist_kept _ _ h))

theorem State.charge_kept {vb : Nat} (h : Kept a s) : Kept a (s.charge vb) := by
  unfold State.charge
  exact Kept.ite (State.setCharger_kept h) (Kept.ite (State.onCist_kept _ _ (State.setCharger_kept h)) (Kept.ite
    (State.onCist_kept _ _ (State.setCharger_kept h)) h))

theorem State.abandonTest_kept (h : Kept a s) : Kept a s.abandonTest := by
  unfold State.abandonTest
  exact State.endJobs_kept _ _ _ _ (State.onCist_kept _ _ (State.setBleed_kept h))

theorem State.startTest_kept (h : Kept a s) : Kept a s.startTest := by
  simp only [State.startTest, State.setBleed_kept, h]

theorem execCapacityTestStart_answers (h : Kept a s) : Answers a (execCapacityTestStart s) := by
  simp only [execCapacityTestStart, State.startTest_kept, Kept.ite, answers_next, h]

theorem State.writeRecord_kept (h : Kept a s) : Kept a s.writeRecord := by
  simp only [State.writeRecord, State.onVault_kept, Kept.ite, h]

theorem execCapacityTestEnd_answers (h : Kept a s) : Answers a (execCapacityTestEnd s) := by
  unfold execCapacityTestEnd
  split
  · simp only [answers_next, h]
  · exact Answers.ite (answers_next.mpr h) (answers_next.mpr (State.endJobs_kept _ _ _ _ (State.bgRan_kept _ _
      (State.writeRecord_kept (State.onCist_kept _ _ (State.setBleed_kept h))))))

theorem execCapacityTestAbandon_answers (h : Kept a s) : Answers a (execCapacityTestAbandon s) := by
  unfold execCapacityTestAbandon
  split
  · simp only [answers_next, h]
  · simp only [State.abandonTest_kept, Kept.ite, answers_next, h]

theorem execLedgerRecordWrite_answers (h : Kept a s) : Answers a (execLedgerRecordWrite s) := by
  unfold execLedgerRecordWrite
  exact Answers.ite (answers_next.mpr h) (answers_next.mpr (State.onCist_kept _ _ (State.writeRecord_kept h)))

theorem State.senseCheck_kept {a' b : Nat} (h : Kept a s) : Kept a (s.senseCheck a' b) := by
  simp only [State.senseCheck, State.wrB_kept, State.onCist_kept, h]

theorem State.updateAbove_kept (h : Kept a s) : Kept a s.updateAbove := by
  unfold State.updateAbove
  extract_lets th b x s1 s2
  have hs1 : Kept a s1 := State.onCist_kept _ _ h
  have hs2 : Kept a s2 := by
    unfold s2
    clear_value x
    split
    · exact .ite (State.wrB_kept _ _ _ _ hs1) hs1
    · exact hs1
  exact .ite (State.wrB_kept _ _ _ _ hs2) hs2

theorem State.updateOver_kept (h : Kept a s) : Kept a s.updateOver := by
  unfold State.updateOver
  exact Kept.ite (Kept.ite (State.ackRouted_kept _ _ (State.onCist_kept _ _ h)) (State.onCist_kept _ _ h)) (Kept.ite h
    (State.raise_kept (State.onCist_kept _ _ h)))

theorem execLedgerRecompute_answers {a' b : Nat} (h : Kept a s) : Answers a (execLedgerRecompute a' b s) := by
  unfold execLedgerRecompute
  extract_lets s1 reads vb peaks top high s2 s3 s4 s5 s6 s7 s8 s9
  have hs1 : Kept a s1 := State.senseCheck_kept h
  have hs2 : Kept a s2 := State.onCist_kept _ _ hs1
  have hs3 : Kept a s3 := State.wr_kept _ _ _ _ hs2
  have hs4 : Kept a s4 := State.wr_kept _ _ _ _ hs3
  have hs5 : Kept a s5 := State.wr_kept _ _ _ _ hs4
  have hs6 : Kept a s6 := Kept.ite (State.abandonTest_kept hs5) hs5
  have hs7 : Kept a s7 := State.charge_kept hs6
  have hs8 : Kept a s8 := State.updateWriteback_kept (State.updateOver_kept (State.updateAbove_kept hs7))
  have hs9 : Kept a s9 := Kept.ite (State.raise_kept (State.setCharger_kept (State.onCist_kept _ _ hs8))) hs8
  exact Answers.ite (answers_next.mpr h) (answers_next.mpr (Kept.ite (State.enterDrain_kept hs9) hs9))

theorem execOverPersist_answers (h : Kept a s) : Answers a (execOverPersist s) := by
  unfold execOverPersist
  split
  · simp only [answers_next, h]
  · exact Answers.ite (answers_next.mpr h) (answers_next.mpr (State.raise_kept (State.onCist_kept _ _ h)))

theorem execVaultProbe_answers {rate : Nat} {ok : Bool} (h : Kept a s) : Answers a (execVaultProbe rate ok s) := by
  unfold execVaultProbe
  exact Answers.ite (answers_next.mpr h) (Answers.ite (answers_next.mpr (State.onCist_kept _ _ h)) (answers_next.mpr
    (State.wr_kept _ _ _ _ (State.onCist_kept _ _ (State.onCist_kept _ _ h)))))

theorem State.endRestore_kept {partial_ : Bool} (h : Kept a s) : Kept a (s.endRestore partial_) := by
  unfold State.endRestore
  exact State.destageEnds_kept (Kept.ite (State.raise_kept (State.onVault_kept _ _ (State.onSilo_kept _ _ h)))
    (State.onVault_kept _ _ (State.onSilo_kept _ _ h)))

theorem State.restoreBlock_kept {r : VRec} (h : Kept a s) : Kept a (s.restoreBlock r) := by
  simp only [State.restoreBlock, State.onSilo_kept, h]

theorem execVaultRestoreChunk_answers {ok : Bool} (h : Kept a s) : Answers a (execVaultRestoreChunk ok s) := by
  unfold execVaultRestoreChunk
  extract_lets k s1 s2 s3
  have hs1 : Kept a s1 := State.onVault_kept _ _ h
  have hs2 : Kept a s2 := State.wrB_kept _ _ _ _ hs1
  have hs3 : Kept a s3 := Kept.fold (fun _ _ hk => State.restoreBlock_kept hk) h
  exact Answers.ite (answers_next.mpr h) (Answers.ite (answers_next.mpr (State.updateWriteback_kept (State.raise_kept
    hs2))) (Answers.ite (answers_next.mpr (State.endRestore_kept h)) (Answers.ite (answers_next.mpr
    (State.onSilo_kept _ _ hs3)) (answers_next.mpr (State.endRestore_kept hs3)))))

theorem State.sealImage_kept (h : Kept a s) : Kept a s.sealImage := by
  unfold State.sealImage
  exact State.emit_kept _ _ (State.onSilo_kept _ _ (State.onVault_kept _ _ (State.writeRecord_kept h)))

theorem State.drainCount_kept (h : Kept a s) : Kept a s.drainCount := by
  unfold State.drainCount
  exact Kept.ite (State.raise_kept h) (Kept.ite (State.raise_kept h) h)

theorem State.drainEnd_kept (h : Kept a s) : Kept a s.drainEnd := by
  unfold State.drainEnd
  extract_lets wrote s1 s2 s3 s4 _ s5 s6 s7 fatal again _ s8 s9 _ s10
  have hs1 : Kept a s1 := State.switchOffAll_kept h
  have hs2 : Kept a s2 := State.emit_kept _ _ (State.wrB_kept _ _ _ _ hs1)
  have hs3 : Kept a s3 := State.setMode_kept hs2
  have hs4 : Kept a s4 := State.wr_kept _ _ _ _ hs3
  have hs5 : Kept a s5 := kept_mk.mpr hs4.at_
  have hs6 : Kept a s6 := State.wrB_kept _ _ _ _ hs5
  have hs7 : Kept a s7 := Kept.ite (State.wrB_kept _ _ _ _ hs6) hs6
  have hs8 : Kept a s8 := kept_mk.mpr hs7.at_
  have hs9 : Kept a s9 := Kept.ite (State.drainCount_kept hs8) hs8
  have hs10 : Kept a s10 := Kept.ite (State.wrB_kept _ _ _ _ (kept_mk.mpr hs9.at_)) hs9
  exact Kept.ite (State.coldReset_kept hs10) hs10

theorem execVaultChunkWritten_answers {ok : Bool} (h : Kept a s) : Answers a (execVaultChunkWritten ok s) := by
  unfold execVaultChunkWritten
  refine Answers.ite ?_ ?_
  · simp only [answers_next, h]
  · split
    · exact Answers.ite (Answers.ite (answers_next.mpr (State.sealImage_kept (State.onVault_kept _ _ h)))
        (answers_next.mpr (State.onSilo_kept _ _ (State.onVault_kept _ _ h)))) (Answers.ite (answers_next.mpr
        (State.drainEnd_kept h)) (answers_next.mpr (State.onSilo_kept _ _ h)))
    · simp only [answers_next, h]

theorem execDrainComplete_answers (h : Kept a s) : Answers a (execDrainComplete s) := by
  unfold execDrainComplete
  refine Answers.ite ?_ ?_
  · simp only [answers_next, h]
  · split
    · simp only [answers_next, h]
    · exact answers_next.mpr (State.drainEnd_kept (Kept.ite (State.onVault_kept _ _ h) h))
    · simp only [State.drainEnd_kept, answers_next, h]
    · simp only [State.drainEnd_kept, answers_next, h]

theorem execFlushLate_answers (h : Kept a s) : Answers a (execFlushLate s) := by
  unfold execFlushLate
  refine Answers.ite ?_ ?_
  · simp only [answers_next, h]
  · split
    · exact Answers.ite (answers_next.mpr h) (answers_next.mpr (State.drainEnd_kept (State.onVault_kept _ _ h)))
    · simp only [answers_next, h]
    · simp only [answers_next, h]
    · simp only [answers_next, h]

theorem execCistStatus_answers {q : Req} (h : Kept a s) : Answers a (execCistStatus q s) := by
  simp +contextual only [execCistStatus, State.command_kept, State.done_kept, implies_true, answers_next, h]

theorem execCistSet_answers {q : Req} (h : Kept a s) : Answers a (execCistSet q s) := by
  unfold execCistSet
  exact answers_next.mpr (State.command_kept _ _ _ _ h (fun _ _ hk => Kept.ite (State.finish_kept _ _ _ hk) (Kept.ite
    (State.finish_kept _ _ _ hk) (State.done_kept _ _ _ (Kept.ite (State.wrB_kept _ _ _ _ (Kept.fold (fun _ _ hk1 =>
    State.wrW_kept _ _ _ hk1) hk)) (Kept.fold (fun _ _ hk1 => State.wrW_kept _ _ _ hk1) hk))))))

theorem execCistTest_answers {q : Req} (h : Kept a s) : Answers a (execCistTest q s) := by
  unfold execCistTest
  exact answers_next.mpr (State.command_kept _ _ _ _ h (fun _ _ hk => Kept.ite (State.busyRetry_kept _ _ _ hk)
    (Kept.ite (State.addJob_kept _ _ _ _ hk) (Kept.ite (State.startTest_kept (State.addJob_kept _ _ _ _ hk))
    (State.busyRetry_kept _ _ _ hk)))))

theorem execVaultStatus_answers {q : Req} (h : Kept a s) : Answers a (execVaultStatus q s) := by
  simp +contextual only [execVaultStatus, State.command_kept, State.done_kept, implies_true, answers_next, h]

/-! ### Machine/Reservoir.lean -/

theorem State.onRsv_kept {f : RsvSt → RsvSt} (h : Kept a s) : Kept a (s.onRsv f) := by
  simp only [State.onRsv, kept_mk, Kept.at_, h]

theorem State.setStackBlock_kept {k x : Nat} {l : List Byte} (h : Kept a s) : Kept a (s.setStackBlock k x l) := by
  unfold State.setStackBlock
  exact Kept.ite (Kept.fold (fun _ _ hk => State.setExt_kept _ _ _ hk) h) (kept_mk.mpr (h.at_.putBytes _ _))

theorem State.setPoisoned_kept {k a' : Nat} {b : Bool} (h : Kept a s) : Kept a (s.setPoisoned k a' b) := by
  simp only [State.setPoisoned, State.onRsv_kept, h]

theorem State.onHop_kept {f : HopSt → HopSt} (h : Kept a s) : Kept a (s.onHop f) := by
  simp only [State.onHop, kept_mk, Kept.at_, h]

theorem State.userLost_kept {x : RsvUser} (h : Kept a s) : Kept a (s.userLost x).1 := by
  unfold State.userLost
  split
  · exact h
  · exact h
  · exact h
  · exact h
  · simp only [State.dropSlot_kept, h]
  · simp +contextual only [State.setExt_kept, Kept.fold, implies_true, h]
  · split
    · exact h
    · exact Kept.ite (State.destageEnds_kept (State.raise_kept (State.onSilo_kept _ _ h))) (State.onSilo_kept _ _ h)
  · simp only [State.raise_kept, Kept.ite, h]
  · extract_lets v r
    split
    · exact h
    · exact State.pktEnd_kept _ _ (State.count_kept _ _ (State.setVoq_kept _ _ _ h))
  · simp only [State.failConn_kept, h]
  · exact State.setPoolFree_kept (State.raise_kept (State.count_kept _ _ (State.wrB_kept _ _ _ _ h)))

theorem State.readBlock_kept {k b : Nat} {ecc : Ecc} {u : RsvUser} (h : Kept a s) : Kept a (s.readBlock k b ecc u).2 := by
  unfold State.readBlock
  dsimp only
  split
  · exact h
  · exact State.stackCE_kept h
  · exact .ite (State.setPoisoned_kept (State.userLost_kept (State.stackUE_kept (State.setPoisoned_kept h))))
      (State.userLost_kept (State.stackUE_kept (State.setPoisoned_kept h)))

theorem State.activate_kept {k : Nat} (h : Kept a s) : Kept a (s.activate k) := by
  unfold State.activate
  exact Kept.ite (State.count_kept _ _ (State.draw_kept _ h)) (State.draw_kept _ h)

theorem execReservoirRequest_answers {k : Stack} {a' : Nat} {wr : Option (List Byte)} {match_ act : Bool} {ecc : Ecc}
    {u : RsvUser} (h : Kept a s) : Answers a (execReservoirRequest k a' wr match_ act ecc u s) := by
  unfold execReservoirRequest
  refine Answers.ite ?_ ?_
  · simp only [State.answer_kept, answers_next, h]
  · extract_lets s1 x s2
    have hs1 : Kept a s1 := by simp only [s1, State.activate_kept, Kept.ite, h]
    have hs2 : Kept a s2 := by simp only [s2, State.count_kept, Kept.ite, hs1]
    split
    · exact answers_next.mpr (State.answer_kept _ _ (State.setPoisoned_kept (State.setStackBlock_kept hs1)))
    · split
      · rename_i e3
        have h4 : Kept a _ := Kept.of_snd e3 (State.readBlock_kept hs2)
        simp only [State.answer_kept, answers_next, h4]
      · rename_i e5
        have h6 : Kept a _ := Kept.of_snd e5 (State.readBlock_kept hs2)
        simp only [State.answer_kept, answers_next, h6]

theorem execRefreshDue_answers {k : Stack} {pc : Fin 32} {idle : Bool} (h : Kept a s) :
    Answers a (execRefreshDue k pc idle s) := by
  unfold execRefreshDue
  exact Answers.ite (answers_next.mpr h) (Answers.ite (answers_next.mpr (State.onRsv_kept (State.onRsv_kept h)))
    (Answers.ite (answers_next.mpr (State.onRsv_kept (State.raise_kept (State.count_kept _ _ (State.onRsv_kept h)))))
    (answers_next.mpr (State.onRsv_kept (State.onRsv_kept h)))))

theorem execStackTempReading_answers {k : Stack} {t' : Fin 256} (h : Kept a s) :
    Answers a (execStackTempReading k t' s) := by
  unfold execStackTempReading
  extract_lets b
  refine Answers.ite ?_ ?_
  · simp only [answers_next, h]
  · refine answers_next.mpr (State.every_kept _ _ _ _ h (fun s1 h2 => ?_))
    extract_lets old s1 cross s2 alarm rise s3 s4 was is s5
    have hs1 : Kept a s1 := State.wr_kept _ _ _ _ h2
    have hs2 : Kept a s2 := State.wrB_kept _ _ _ _ hs1
    have hs3 : Kept a s3 := State.wrB_kept _ _ _ _ hs2
    have hs4 : Kept a s4 := Kept.ite (State.raise_kept hs3) hs3
    have hs5 : Kept a s5 := State.onRsv_kept hs4
    exact Kept.ite (State.raise_kept hs5) hs5

theorem execPatrolScrubStep_answers {k : Stack} {ecc : Ecc} {u : RsvUser} (h : Kept a s) :
    Answers a (execPatrolScrubStep k ecc u s) := by
  unfold execPatrolScrubStep
  refine .ite (answers_next.mpr h) ?_
  split
  extract_lets e s1 s2 put
  have hs1 : Kept a s1 := State.readBlock_kept h
  have hs2 : Kept a s2 := by
    unfold s2
    clear_value e
    split
    · exact hs1
    · exact State.count_kept _ _ hs1
    · exact State.count_kept _ _ hs1
  exact .ite (answers_next.mpr (State.bgRan_kept _ _ (State.onRsv_kept (State.wr_kept _ _ _ _ hs2))))
    (answers_next.mpr (State.onRsv_kept (State.wr_kept _ _ _ _ hs2)))

/-! ### Machine/Hopper.lean -/

theorem State.setHead_kept {i : Nat} {l : List Nat} (h : Kept a s) : Kept a (s.setHead i l) := by
  simp only [State.setHead, State.onHop_kept, h]

theorem State.setList_kept {i x : Nat} (h : Kept a s) : Kept a (s.setList i x) := by
  simp only [State.setList, State.onHop_kept, h]

theorem State.setUsed_kept {x : Nat} {b : Bool} (h : Kept a s) : Kept a (s.setUsed x b) := by
  simp only [State.setUsed, State.onHop_kept, h]

theorem State.breakPool_kept {i : Nat} (h : Kept a s) : Kept a (s.breakPool i) := by
  simp only [State.breakPool, State.userLost_kept, h]

theorem State.pushList_kept {i x : Nat} (h : Kept a s) : Kept a (s.pushList i x) := by
  unfold State.pushList
  exact State.setList_kept (kept_mk.mpr (h.at_.putBytes _ _))

theorem State.refillHead_kept {i : Nat} {bad : Bool} (h : Kept a s) : Kept a (s.refillHead i bad) := by
  unfold State.refillHead
  exact Kept.ite h (Kept.ite (State.breakPool_kept h) (State.setHead_kept (State.setList_kept h)))

theorem State.allocateBuf_kept {size : Nat} {noSpill bad : Bool} (h : Kept a s) : Kept a (s.allocate_ size noSpill bad).2 := by
  unfold State.allocate_
  extract_lets fits empty first tried
  have hempty : Kept a (empty s) := by
    unfold empty
    clear_value fits
    split
    · exact .ite h (State.count_kept _ _ h)
    · exact h
  split
  · exact hempty
  · split
    · exact h
    · split
      · exact hempty
      · exact State.refillHead_kept (State.setPoolFree_kept (Kept.ite (State.count_kept _ _ (State.setUsed_kept
          (State.setHead_kept (State.draw_kept _ h)))) (State.count_kept _ _ (State.count_kept _ _ (State.setUsed_kept
          (State.setHead_kept (State.draw_kept _ h)))))))

theorem execHopReq_answers {o : HopOwner} {v : Word} {bad : Bool} (h : Kept a s) : Answers a (execHopReq o v bad s) := by
  unfold execHopReq
  extract_lets go
  have hgo : Kept a (go s).2 := State.allocateBuf_kept h
  have hdata : Answers a (if !s.domOn 66 then .next (s.answer .busError)
      else .next ((go s).2.answer (.data (hopResult (go s).1)))) :=
    Answers.ite (answers_next.mpr (State.answer_kept _ _ h)) (answers_next.mpr (State.answer_kept _ _ hgo))
  split
  · exact Answers.ite (answers_next.mpr (State.refuse_kept h)) (answers_next.mpr (State.answer_kept _ _
      (State.wrPair_kept _ _ _ hgo)))
  · exact hdata
  · exact hdata
  · exact hdata

theorem State.freeRefused_kept {o : HopOwner} {double : Bool} (h : Kept a s) : Kept a (s.freeRefused o double) := by
  unfold State.freeRefused
  extract_lets s1 s2
  have hs1 : Kept a s1 := State.count_kept _ _ h
  have hs2 : Kept a s2 := by
    unfold s2
    split
    · exact State.wrB_kept _ _ _ _ hs1
    · exact hs1
    · exact hs1
    · exact hs1
  exact State.raise_kept hs2

theorem State.freeBuf_kept {o : HopOwner} {a' : Nat} (h : Kept a s) : Kept a (s.free_ o a') := by
  unfold State.free_
  split
  · exact State.freeRefused_kept h
  · exact Kept.ite (State.freeRefused_kept h) (Kept.ite (State.count_kept _ _ (State.setUsed_kept h))
      (State.setPoolFree_kept (Kept.ite (State.pushList_kept (State.setHead_kept (State.count_kept _ _
      (State.setUsed_kept h)))) (State.setHead_kept (State.count_kept _ _ (State.setUsed_kept h))))))

theorem execHopFree_answers {o : HopOwner} {a' : Nat} (h : Kept a s) : Answers a (execHopFree o a' s) := by
  unfold execHopFree
  split
  · exact Answers.ite (answers_next.mpr (State.refuse_kept h)) (answers_next.mpr (State.answer_kept _ _
      (State.freeBuf_kept h)))
  · exact Answers.ite (answers_next.mpr (State.answer_kept _ _ h)) (answers_next.mpr (State.answer_kept _ _
      (State.freeBuf_kept h)))
  · exact Answers.ite (answers_next.mpr (State.answer_kept _ _ h)) (answers_next.mpr (State.answer_kept _ _
      (State.freeBuf_kept h)))
  · exact Answers.ite (answers_next.mpr (State.answer_kept _ _ h)) (answers_next.mpr (State.answer_kept _ _
      (State.freeBuf_kept h)))

theorem execBuild_answers {v : Word} (h : Kept a s) : Answers a (execBuild v s) := by
  unfold execBuild
  exact Answers.ite (answers_next.mpr (State.answer_kept _ _ h)) (Answers.ite (answers_next.mpr (State.answer_kept _ _
    (kept_mk.mpr (State.wrB_kept _ _ _ _ h).at_))) (answers_next.mpr (State.answer_kept _ _ h)))

theorem State.buildPool_kept {i : Nat} (h : Kept a s) : Kept a (s.buildPool i) := by
  unfold State.buildPool
  exact State.setPoolFree_kept (Kept.fold (fun _ _ hk => State.pushList_kept hk) (State.setHead_kept
    (State.wrB_kept _ _ _ _ h)))

theorem execHopperBuildDone_answers (h : Kept a s) : Answers a (execHopperBuildDone s) := by
  unfold execHopperBuildDone
  exact Answers.ite (answers_next.mpr h) (answers_next.mpr (State.wrB_kept _ _ _ _ (State.onHop_kept (Kept.fold
    (fun _ _ hk => State.buildPool_kept hk) h))))

/-! ### Machine/Mover.lean -/

theorem State.onBmv_kept {f : BmvSt → BmvSt} (h : Kept a s) : Kept a (s.onBmv f) := by
  simp only [State.onBmv, kept_mk, Kept.at_, h]

theorem State.setCh_kept {c : Nat} {x : BmvCh} (h : Kept a s) : Kept a (s.setCh c x) := by
  simp only [State.setCh, State.onBmv_kept, h]

theorem State.raPut_kept {a' : Nat} {data : List Byte} (h : Kept a s) : Kept a (s.raPut a' data) := by
  unfold State.raPut
  exact Kept.fold (fun _ _ hk => kept_mk.mpr (hk.at_.putByte _ _)) (State.raHeal_kept h)

theorem State.spaceErr_kept {sp : Nat × Nat} {checked : Bool} {e : Fetch} (h : Kept a s) :
    Kept a (s.spaceErr sp checked e) := by
  unfold State.spaceErr
  refine Kept.ite h ?_
  refine Kept.ite ?_ (State.logDma_kept h)
  split
  · exact State.windowErr_kept h
  · exact h

theorem State.spaceWrite_kept {sp : Nat × Nat} {addr : Nat} {data : List Byte} (h : Kept a s) :
    Kept a (s.spaceWrite sp addr data) := by
  unfold State.spaceWrite
  refine Kept.ite (State.raPut_kept h) ?_
  refine Kept.ite ?_ ?_
  · split
    · exact State.putCore_kept h
    · exact h
  · split
    · simp only [State.logWrite_kept, State.postWrite_kept, h]
    · exact h

theorem State.setResidue_kept {c : Nat} (h : Kept a s) : Kept a (s.setResidue c) := by
  simp only [State.setResidue, State.wr_kept, h]

theorem State.setHalt_kept {c : Nat} {b : Bool} (h : Kept a s) : Kept a (s.setHalt c b) := by
  simp only [State.setHalt, State.wrW_kept, h]

theorem State.setChState_kept {c st : Nat} (h : Kept a s) : Kept a (s.setChState c st) := by
  simp only [State.setChState, State.wr_kept, State.setHalt_kept, h]

theorem State.endCh_kept {c st : Nat} (h : Kept a s) : Kept a (s.endCh c st) := by
  unfold State.endCh
  extract_lets _ s1 s2 o rec_ s3
  have hs1 : Kept a s1 := State.setCh_kept (State.setChState_kept (State.setResidue_kept h))
  have hs2 : Kept a s2 := Kept.ite (State.count_kept _ _ hs1) (Kept.ite (State.count_kept _ _ hs1) hs1)
  have hs3 : Kept a s3 := Kept.ite (State.spaceWrite_kept hs2) hs2
  exact Kept.ite (State.emit_kept _ _ hs3) hs3

theorem State.startCh_kept {c : Nat} (h : Kept a s) : Kept a (s.startCh c) := by
  unfold State.startCh
  exact State.setChState_kept (State.setResidue_kept (State.setCh_kept h))

theorem State.nextProbe_kept {l : List Nat} (h : Kept a s) : Kept a (s.nextProbe l) := by
  induction l generalizing s with
  | nil =>
    exact State.ackRouted_kept _ _ (State.onBmv_kept (Kept.fold (fun _ _ hk => State.setChState_kept hk) h))
  | cons c l ih =>
    exact .ite (ih h) (.ite (ih (State.endCh_kept h)) (State.onBmv_kept (State.setChState_kept h)))

theorem execBmvRestart_answers (h : Kept a s) : Answers a (execBmvRestart s) := by
  unfold execBmvRestart
  exact Answers.ite (answers_next.mpr h) (answers_next.mpr (State.nextProbe_kept (Kept.fold (fun _ _ hk => Kept.ite
    (State.endCh_kept hk) (State.endCh_kept hk)) h)))

theorem State.busError_kept {sp : Nat × Nat} {addr : Nat} {wr : Bool} (h : Kept a s) : Kept a (s.busError sp addr wr) := by
  unfold State.busError
  extract_lets s1 s2 s3 run s4 s5
  have hs1 : Kept a s1 := State.count_kept _ _ h
  have hs2 : Kept a s2 := State.wrPair_kept _ _ _ hs1
  have hs3 : Kept a s3 := State.wrW_kept _ _ _ hs2
  have hs4 : Kept a s4 := Kept.fold (fun _ _ hk => State.setChState_kept (State.setResidue_kept hk)) hs3
  have hs5 : Kept a s5 := State.raise_kept hs4
  split
  · exact hs5
  · exact State.nextProbe_kept (State.onBmv_kept (State.endCh_kept hs5))

theorem State.burstDone_kept {c n : Nat} (h : Kept a s) : Kept a (s.burstDone c n) := by
  unfold State.burstDone
  extract_lets x s1 s2 s3 ends s4 s5
  have hs1 : Kept a s1 := State.count_kept _ _ h
  have hs2 : Kept a s2 := State.setResidue_kept (State.setCh_kept hs1)
  have hs3 : Kept a s3 := Kept.ite (State.wr_kept _ _ _ _ hs2) hs2
  have hs4 : Kept a s4 := Kept.ite (State.endCh_kept hs3) (Kept.ite (State.endCh_kept hs3) hs3)
  have hs5 : Kept a s5 := Kept.ite hs4 (State.onBmv_kept (State.setChState_kept hs4))
  exact Kept.ite (State.nextProbe_kept hs5) hs4

theorem execBmvBurst_answers {e : List Fetch} (h : Kept a s) : Answers a (execBmvBurst e s) := by
  unfold execBmvBurst
  split
  · simp only [answers_next, h]
  · extract_lets s1 o src
    have hs1 : Kept a s1 := State.onBmv_kept h
    split
    · simp only [State.busError_kept, State.spaceErr_kept, answers_next, hs1]
    · exact Answers.ite (answers_next.mpr (State.burstDone_kept (State.spaceWrite_kept hs1))) (answers_next.mpr
        (State.busError_kept (State.spaceErr_kept hs1)))

theorem State.abortCh_kept {c : Nat} (h : Kept a s) : Kept a (s.abortCh c) := by
  unfold State.abortCh
  exact Kept.ite (State.endCh_kept h) (Kept.ite (State.setCh_kept h) (Kept.ite (Kept.ite (State.nextProbe_kept
    (State.endCh_kept h)) (State.endCh_kept h)) h))

theorem State.ctrlWrite_answers {who : Master} {c : Nat} {v : Word} {act : State → State} (h : Kept a s)
    (hact : ∀ y0, Kept a y0 → Kept a (act y0)) : Answers a (s.ctrlWrite who c v act) := by
  unfold State.ctrlWrite
  extract_lets a1
  split
  · simp only [State.refuse_kept, answers_next, h]
  · exact Answers.ite (answers_next.mpr (State.refuse_kept h)) (answers_next.mpr (State.answer_kept _ _ (hact _
      (State.writeWord_kept h))))
  · exact Answers.ite (answers_next.mpr (State.refuse_kept h)) (answers_next.mpr (State.answer_kept _ _ (hact _
      (State.writeWord_kept h))))
  · exact Answers.ite (answers_next.mpr (State.refuse_kept h)) (answers_next.mpr (State.answer_kept _ _ (hact _
      (State.writeWord_kept h))))
  · exact Answers.ite (answers_next.mpr (State.refuse_kept h)) (answers_next.mpr (State.answer_kept _ _ (hact _
      (State.writeWord_kept h))))

theorem execBmvStart_answers {who : Master} {c : Channel} {v : Word} (h : Kept a s) :
    Answers a (execBmvStart who c v s) := by
  unfold execBmvStart
  exact State.ctrlWrite_answers h (fun _ hk => Kept.ite (State.startCh_kept hk) hk)

theorem execBmvAbort_answers {who : Master} {c : Channel} {v : Word} (h : Kept a s) :
    Answers a (execBmvAbort who c v s) := by
  unfold execBmvAbort
  exact State.ctrlWrite_answers h (fun _ hk => Kept.ite (State.abortCh_kept hk) hk)

theorem execBmvResume_answers {who : Master} {c : Channel} {v : Word} (h : Kept a s) :
    Answers a (execBmvResume who c v s) := by
  unfold execBmvResume
  exact State.ctrlWrite_answers h (fun _ hk => Kept.ite (Kept.ite (State.endCh_kept hk) (State.setChState_kept hk))
    hk)

/-! ### Machine/Kcu.lean -/

theorem State.onKcu_kept {f : KcuSt → KcuSt} (h : Kept a s) : Kept a (s.onKcu f) := by
  simp only [State.onKcu, kept_mk, Kept.at_, h]

theorem State.setKek_kept {i : Nat} {k : List Byte} (h : Kept a s) : Kept a (s.setKek i k) := by
  simp only [State.setKek, kept_mk, Kept.at_, h]

theorem execKcuClaim_answers {ms : List (Fin 3)} (h : Kept a s) : Answers a (execKcuClaim ms s) := by
  unfold execKcuClaim
  split
  · simp only [answers_next, h]
  · simp only [State.onKcu_kept, Kept.ite, answers_next, h]

theorem execKcuRelease_answers {m : Fin 3} (h : Kept a s) : Answers a (execKcuRelease m s) := by
  simp only [execKcuRelease, State.kcuFree_kept, Kept.ite, answers_next, h]

theorem State.kcuStart_kept {m : Nat} (h : Kept a s) : Kept a (s.kcuStart m) := by
  unfold State.kcuStart
  exact State.onKcu_kept (State.wrB_kept _ _ _ _ (State.wrB_kept _ _ _ _ h))

theorem execKcuStart_answers {m : Fin 3} (h : Kept a s) : Answers a (execKcuStart m s) := by
  simp only [execKcuStart, State.kcuStart_kept, Kept.ite, answers_next, h]

theorem State.putKey_kept {kind i : Nat} {k : List Byte} (h : Kept a s) : KeptIf a (s.putKey kind i k) :=
  .ite (.ite (.some (State.setKek_kept h)) .none) (.ite (.ite (.some (State.setEspKey_kept h)) .none)
    (.ite (.ite (.some (State.setSa_kept h)) .none) (.ite (.ite .none (.ite (.some (State.onSilo_kept _ _ h))
      (.some (.ite (State.setVol_kept _ _ _ h) h)))) .none)))

theorem execKcuResult_answers {m : Fin 3} {late : Bool} (h : Kept a s) : Answers a (execKcuResult m late s) := by
  unfold execKcuResult
  split
  · exact answers_next.mpr h
  · extract_lets w s1 s2 out refuse
    have hs2 : Kept a s2 := State.event_kept _ _ _ (State.wrB_kept _ _ _ _ (State.wrB_kept _ _ _ _ (State.onKcu_kept
        h)))
    have hout (s : State) (st n : Nat) (hk : Kept a s) : Kept a (out s st n) := State.wr_kept _ _ _ _ (State.wr_kept _
        _ _ _ hk)
    have hrefuse : Answers a (.next (refuse s2)) := answers_next.mpr (hout _ _ _ hs2)
    refine .ite (answers_next.mpr h) (.ite (answers_next.mpr (State.raise_kept (hout _ _ _ hs2))) ?_)
    split
    · exact hrefuse
    · refine .ite (answers_next.mpr (hout _ _ _ ⟨hs2.at_.putBytes _ _⟩)) ?_
      split
      · exact answers_next.mpr (hout _ _ _ (State.putKey_kept hs2 _ ‹_›))
      · exact hrefuse

theorem execDebugPortDisconnect_answers (h : Kept a s) : Answers a (execDebugPortDisconnect s) := by
  simp only [execDebugPortDisconnect, State.kcuFree_kept, answers_next, h]

theorem State.hostCommand_kept {q : Req} {opcode : Nat} {k : Cmd → State → State} (h : Kept a s)
    (hk : ∀ y0 y1, Kept a y1 → Kept a (k y0 y1)) : Kept a (s.hostCommand q opcode k) := by
  unfold State.hostCommand
  exact State.command_kept _ _ _ _ h (fun _ _ hk1 => Kept.ite (State.finish_kept _ _ _ hk1) (hk _ _ hk1))

theorem execKekLoad_answers {q : Req} (h : Kept a s) : Answers a (execKekLoad q s) := by
  refine answers_next.mpr (State.hostCommand_kept h fun c s h => ?_)
  have hf (st : Nat) : Kept a (s.finish q st) := State.finish_kept _ _ _ h
  refine .ite (hf _) (.ite h ?_)
  split
  · exact hf _
  · split
    · exact hf _
    · have hk : Kept a _ := State.putKey_kept h _ ‹_›
      exact State.done_kept _ _ _ (.ite (State.onVault_kept _ _ hk) hk)

theorem execEspSaInstall_answers {q : Req} (h : Kept a s) : Answers a (execEspSaInstall q s) := by
  refine answers_next.mpr (State.hostCommand_kept h fun c s h => ?_)
  dsimp only
  split
  · exact State.finish_kept _ _ _ h
  · refine .ite (State.finish_kept _ _ _ h) (.ite (State.finish_kept _ _ _ h) (.ite h ?_))
    have hs (e : Nat) : Kept a ((s.setEspKey (c.u16 10) []).setEspSa (c.u16 10) e) :=
      State.setEspSa_kept (State.setEspKey_kept h)
    split
    · exact State.finish_kept _ _ _ (hs _)
    · split
      · exact State.finish_kept _ _ _ (hs _)
      · exact State.done_kept _ _ _ (State.putKey_kept (hs _) _ ‹_›)

theorem execEspSaDelete_answers {q : Req} (h : Kept a s) : Answers a (execEspSaDelete q s) := by
  unfold execEspSaDelete
  exact answers_next.mpr (State.hostCommand_kept h (fun _ _ hk => Kept.ite (State.finish_kept _ _ _ hk)
    (State.done_kept _ _ _ (State.setEspSa_kept (State.setEspKey_kept hk)))))

theorem execEspSaRead_answers {q : Req} (h : Kept a s) : Answers a (execEspSaRead q s) := by
  unfold execEspSaRead
  exact answers_next.mpr (State.command_kept _ _ _ _ h (fun _ _ hk => Kept.ite (State.finish_kept _ _ _ hk)
    (State.done_kept _ _ _ hk)))

theorem execMacsecSaInstall_answers {q : Req} (h : Kept a s) : Answers a (execMacsecSaInstall q s) := by
  unfold execMacsecSaInstall
  refine answers_next.mpr (State.command_kept _ _ _ _ h (fun y1 s2 h3 => ?_))
  split
  · exact State.finish_kept _ _ _ h3
  · refine Kept.ite (State.finish_kept _ _ _ h3) ?_
    refine Kept.ite h3 ?_
    split
    · exact State.finish_kept _ _ _ h3
    · exact Kept.ite (State.finish_kept _ _ _ h3) (Kept.ite (Kept.ite (State.finish_kept _ _ _ h3)
        (State.done_kept _ _ _ (State.setSa_kept h3))) (State.done_kept _ _ _ (State.activateSa_kept (State.setSa_kept
        h3))))

theorem execMacsecSaRetire_answers {q : Req} (h : Kept a s) : Answers a (execMacsecSaRetire q s) := by
  unfold execMacsecSaRetire
  refine answers_next.mpr (State.command_kept _ _ _ _ h (fun y1 s2 h3 => ?_))
  split
  · exact State.finish_kept _ _ _ h3
  · exact State.done_kept _ _ _ (Kept.ite (kept_mk.mpr (State.setSa_kept h3).at_) (State.setSa_kept h3))

theorem execBmvStatus_answers {q : Req} (h : Kept a s) : Answers a (execBmvStatus q s) := by
  simp +contextual only [execBmvStatus, State.command_kept, State.done_kept, implies_true, answers_next, h]

/-! ### Machine/Collector.lean -/

theorem execFaultMessage_answers {n : Source} {kind : Fin 64} {addr : Fin 281474976710656} (h : Kept a s) :
    Answers a (execFaultMessage n kind addr s) := by
  simp only [execFaultMessage, State.raise_kept, Kept.ite, answers_next, h]

theorem execFaultWindowEnd_answers {n : Source} (h : Kept a s) : Answers a (execFaultWindowEnd n s) := by
  unfold execFaultWindowEnd
  split
  · simp only [answers_next, h]
  · simp only [State.escalate_kept, answers_next, h]

theorem execStickyClear_answers {k : Fin 11} {v : Word} (h : Kept a s) : Answers a (execStickyClear k v s) := by
  unfold execStickyClear
  exact answers_next.mpr (State.answer_kept _ _ (Kept.fold (fun _ _ hk => Kept.ite (State.ackFault_kept _ _ hk) hk)
    h))

theorem execWatchdogKick_answers {v : Word} (h : Kept a s) : Answers a (execWatchdogKick v s) := by
  unfold execWatchdogKick
  exact answers_next.mpr (State.answer_kept _ _ (Kept.ite ⟨h.at_⟩ h))

theorem execWatchdogExpiry_answers (h : Kept a s) : Answers a (execWatchdogExpiry s) := by
  unfold execWatchdogExpiry
  exact Answers.ite (answers_next.mpr h) (answers_next.mpr (State.trigger_kept (State.wr_kept _ _ _ _ (kept_mk.mpr
    (State.notifyFault_kept _ _ (State.raise_kept (State.stopAlive_kept _ _ h))).at_))))

theorem execAliveStart_answers {v : Word} (h : Kept a s) : Answers a (execAliveStart v s) := by
  unfold execAliveStart
  exact Answers.ite (answers_next.mpr (State.answer_kept _ _ h)) (answers_next.mpr (State.emit_kept _ _
    (State.stamp_kept _ _ (kept_mk.mpr (State.wrB_kept _ _ _ _ (State.wr_kept _ _ _ _ (State.answer_kept _ _
    h))).at_))))

theorem execAliveToggle_answers (h : Kept a s) : Answers a (execAliveToggle s) := by
  unfold execAliveToggle
  exact Answers.ite (answers_next.mpr h) (answers_next.mpr (State.emit_kept _ _ (State.wrB_kept _ _ _ _ (kept_mk.mpr
    (State.stamp_kept _ _ h).at_))))

theorem execPmcSelectWrite_answers {p : Option Pipe} {i : Fin 16} {v : Word} (h : Kept a s) :
    Answers a (execPmcSelectWrite p i v s) := by
  unfold execPmcSelectWrite
  exact Answers.ite (answers_next.mpr (State.answer_kept _ _ h)) (answers_next.mpr (State.answer_kept _ _
    (State.writeWord_kept h)))

theorem State.snap_kept (h : Kept a s) : Kept a s.snap := by
  unfold State.snap
  exact Kept.ite h (kept_mk.mpr (State.wrB_kept _ _ _ _ h).at_)

theorem execSnap_answers {v : Word} (h : Kept a s) : Answers a (execSnap v s) := by
  unfold execSnap
  exact answers_next.mpr (State.answer_kept _ _ (Kept.ite (State.snap_kept (State.writeWord_kept h))
    (State.writeWord_kept h)))

theorem State.takeShadows_kept {t' : Nat} (h : Kept a s) : Kept a (s.takeShadows t') := by
  simp only [State.takeShadows, State.wrPair_kept, kept_mk, Kept.at_, h]

theorem execSnapshotInstant_answers (h : Kept a s) : Answers a (execSnapshotInstant s) := by
  unfold execSnapshotInstant
  split
  · simp only [answers_next, h]
  · exact Answers.ite (answers_next.mpr h) (answers_next.mpr (State.endJobs_kept _ _ _ _ (State.wrB_kept _ _ _ _
      ⟨h.at_⟩)))

theorem execShadowSelect_answers {v : Word} (h : Kept a s) : Answers a (execShadowSelect v s) := by
  unfold execShadowSelect
  extract_lets s1 s2 s3
  have hs1 : Kept a s1 := State.setReg_kept _ _ _ h
  have hs2 : Kept a s2 := State.wrB_kept _ _ _ _ hs1
  have hs3 : Kept a s3 := State.wrB_kept _ _ _ _ hs2
  refine answers_next.mpr (State.answer_kept _ _ ?_)
  split
  · exact State.wrPair_kept _ _ _ hs3
  · exact hs3

theorem State.setOverdue_kept {a' : Nat} (h : Kept a s) : Kept a (s.setOverdue a') := by
  simp only [State.setOverdue, State.wrW_kept, h]

theorem execBackgroundOverdue_answers {a' : Fin 11} (h : Kept a s) : Answers a (execBackgroundOverdue a' s) := by
  unfold execBackgroundOverdue
  exact Answers.ite (answers_next.mpr h) (answers_next.mpr (State.raise_kept (State.setOverdue_kept h)))

theorem execBackgroundHardBound_answers {a' : Fin 11} (h : Kept a s) : Answers a (execBackgroundHardBound a' s) := by
  unfold execBackgroundHardBound
  exact Answers.ite (answers_next.mpr h) (answers_next.mpr (State.raise_kept ⟨h.at_⟩))

theorem State.scrubEntry_kept {x : ScrubMem} {ecc : Ecc} {readBack : Bool} (h : Kept a s) :
    Kept a (s.scrubEntry x ecc readBack) := by
  unfold State.scrubEntry
  extract_lets fix
  split
  · exact Kept.ite (Kept.ite (State.ackRouted_kept _ _ (State.rewriteEntry_kept (State.raise_kept (Kept.ite
      (State.setUpset_kept h) h)))) (State.raise_kept (Kept.ite (State.setUpset_kept h) h))) (Kept.ite
      (State.setUpset_kept h) h)
  · exact Kept.ite (Kept.ite (State.ackRouted_kept _ _ (State.rewriteEntry_kept (State.raise_kept (Kept.ite
      (State.setUpset_kept h) h)))) (State.raise_kept (Kept.ite (State.setUpset_kept h) h))) (Kept.ite
      (State.setUpset_kept h) h)
  · exact Kept.ite (State.raise_kept (State.noteEcc_kept h)) (State.noteEcc_kept h)
  · exact Kept.ite (State.raise_kept (State.noteEcc_kept h)) (State.noteEcc_kept h)
  · exact h
  · exact h

theorem execParityScrubStep_answers {x : ScrubMem} {ecc : Ecc} {readBack : Bool} (h : Kept a s) :
    Answers a (execParityScrubStep x ecc readBack s) := by
  unfold execParityScrubStep
  exact Answers.ite (answers_next.mpr h) (Answers.ite (answers_next.mpr (State.bgRan_kept _ _ (kept_mk.mpr
    (State.scrubEntry_kept h).at_))) (answers_next.mpr (kept_mk.mpr (State.scrubEntry_kept h).at_)))

theorem execSerdesAdaptation_answers (h : Kept a s) : Answers a (execSerdesAdaptation s) := by
  simp only [execSerdesAdaptation, State.bgRan_kept, Kept.ite, answers_next, h]

theorem execWearScan_answers (h : Kept a s) : Answers a (execWearScan s) := by
  unfold execWearScan
  exact Answers.ite (answers_next.mpr h) (answers_next.mpr (State.bgRan_kept _ _ (Kept.ite (State.emit_kept _ _
    (Kept.fold (fun _ _ hk => State.emit_kept _ _ hk) h)) (Kept.fold (fun _ _ hk => State.emit_kept _ _ hk) h))))

theorem State.setTelem_kept {m : Nat} {x : Telem} (h : Kept a s) : Kept a (s.setTelem m x) := by
  simp only [State.setTelem, kept_mk, Kept.at_, h]

theorem State.telemOne_kept {m : Nat} (h : Kept a s) : Kept a (s.telemOne m) := by
  unfold State.telemOne
  extract_lets x n x1 len a2 phase
  split
  · exact State.setTelem_kept h
  · exact Kept.ite (State.setTelem_kept h) (Kept.ite (State.setTelem_kept (State.windowErr_kept h))
      (State.setTelem_kept (State.postWrite_kept _ _ _ _ _ (State.postWrite_kept _ _ _ _ _ (State.logWrite_kept h)))))

theorem execTelemetryExport_answers (h : Kept a s) : Answers a (execTelemetryExport s) := by
  unfold execTelemetryExport
  exact Answers.ite (answers_next.mpr h) (answers_next.mpr (Kept.ite (State.bgRan_kept _ _ (Kept.fold (fun _ _ hk =>
    State.telemOne_kept hk) (State.takeShadows_kept h))) (Kept.fold (fun _ _ hk => State.telemOne_kept hk)
    (State.takeShadows_kept h))))

theorem execFaultStatus_answers {q : Req} (h : Kept a s) : Answers a (execFaultStatus q s) := by
  simp +contextual only [execFaultStatus, State.command_kept, State.done_kept, implies_true, answers_next, h]

theorem State.named_kept {q : Req} {n : Nat} {k : State} (h : Kept a s) (hk : Kept a k) : Kept a (s.named q n k) := by
  unfold State.named
  exact Kept.ite (State.finish_kept _ _ _ h) (Kept.ite (State.finish_kept _ _ _ h) hk)

theorem execFaultAck_answers {q : Req} (h : Kept a s) : Answers a (execFaultAck q s) := by
  unfold execFaultAck
  exact answers_next.mpr (State.command_kept _ _ _ _ h (fun _ _ hk => State.named_kept hk (Kept.ite
    (State.finish_kept _ _ _ hk) (State.done_kept _ _ _ (Kept.ite (State.ackFault_kept _ _ hk) hk)))))

theorem execFaultSevSet_answers {q : Req} (h : Kept a s) : Answers a (execFaultSevSet q s) := by
  unfold execFaultSevSet
  exact answers_next.mpr (State.hostCommand_kept h (fun _ _ hk => State.named_kept hk (Kept.ite
    (State.finish_kept _ _ _ hk) (State.done_kept _ _ _ (State.wr_kept _ _ _ _ (State.wr_kept _ _ _ _ hk))))))

theorem execFaultWindowSet_answers {q : Req} (h : Kept a s) : Answers a (execFaultWindowSet q s) := by
  unfold execFaultWindowSet
  exact answers_next.mpr (State.hostCommand_kept h (fun _ _ hk => Kept.ite (State.finish_kept _ _ _ hk)
    (State.done_kept _ _ _ (State.wr_kept _ _ _ _ hk))))

theorem execFaultNotifySet_answers {q : Req} (h : Kept a s) : Answers a (execFaultNotifySet q s) := by
  unfold execFaultNotifySet
  refine answers_next.mpr (State.command_kept _ _ _ _ h (fun y1 s2 h3 => ?_))
  split
  · exact State.finish_kept _ _ _ h3
  · exact Kept.ite (State.finish_kept _ _ _ h3) (State.done_kept _ _ _ (kept_mk.mpr h3.at_))

theorem execFaultLogRead_answers {q : Req} (h : Kept a s) : Answers a (execFaultLogRead q s) := by
  simp +contextual only [execFaultLogRead, State.command_kept, State.done_kept, implies_true, answers_next, h]

theorem execPmcSet_answers {q : Req} (h : Kept a s) : Answers a (execPmcSet q s) := by
  unfold execPmcSet
  exact answers_next.mpr (State.command_kept _ _ _ _ h (fun _ _ hk => Kept.ite (State.finish_kept _ _ _ hk)
    (State.done_kept _ _ _ (State.writeWord_kept hk))))

theorem execPmcCtrl_answers {q : Req} (h : Kept a s) : Answers a (execPmcCtrl q s) := by
  unfold execPmcCtrl
  exact answers_next.mpr (State.command_kept _ _ _ _ h (fun _ _ hk => Kept.ite (State.addJob_kept _ _ _ _
    (State.snap_kept (State.wrB_kept _ _ _ _ hk))) (State.done_kept _ _ _ (State.wrB_kept _ _ _ _ hk))))

theorem execPmcRead_answers {q : Req} (h : Kept a s) : Answers a (execPmcRead q s) := by
  unfold execPmcRead
  exact answers_next.mpr (State.command_kept _ _ _ _ h (fun _ _ hk => Kept.ite (State.finish_kept _ _ _ hk)
    (State.done_kept _ _ _ hk)))

theorem execTelemSet_answers {q : Req} (h : Kept a s) : Answers a (execTelemSet q s) := by
  unfold execTelemSet
  refine answers_next.mpr (State.command_kept _ _ _ _ h (fun y1 s2 h3 => ?_))
  split
  · exact State.finish_kept _ _ _ h3
  · exact Kept.ite (State.finish_kept _ _ _ h3) (State.done_kept _ _ _ (State.setTelem_kept h3))

theorem execBgStatus_answers {q : Req} (h : Kept a s) : Answers a (execBgStatus q s) := by
  simp +contextual only [execBgStatus, State.command_kept, State.done_kept, implies_true, answers_next, h]

/-! ### Machine/Security.lean -/

theorem State.setResult_kept {b : Bool} {r : Nat} (h : Kept a s) : Kept a (s.setResult b r) := by
  simp only [State.setResult, State.wr_kept, h]

theorem State.bootImage_kept (h : Kept a s) : Kept a s.bootImage.2 := by
  unfold State.bootImage
  extract_lets s1 p s2 s3
  have hs1 : Kept a s1 := by simp only [s1, State.wrB_kept, State.wrW_kept, h]
  have hs2 : Kept a s2 := State.setResult_kept hs1
  have hs3 : Kept a s3 := State.setResult_kept hs2
  split
  · exact hs2
  · exact hs3

theorem State.resolveOtp_kept (h : Kept a s) : Kept a s.resolveOtp := by
  unfold State.resolveOtp
  split
  · exact State.wr_kept _ _ _ _ h
  · exact Kept.ite (State.wr_kept _ _ _ _ h) (State.wrB_kept _ _ _ _ (State.rowTo_kept (State.wr_kept _ _ _ _ h)))

theorem State.readConfig_kept (h : Kept a s) : Kept a s.readConfig := by
  unfold State.readConfig
  exact Kept.ite (State.wrB_kept _ _ _ _ (State.wrW_kept _ _ _ (kept_mk.mpr (State.measure_kept h).at_)))
    (State.onSec_kept (kept_mk.mpr (Kept.ite (State.wrB_kept _ _ _ _ (State.wrB_kept _ _ _ _ (State.wrW_kept _ _ _
    (kept_mk.mpr (State.measure_kept h).at_)))) (State.wrB_kept _ _ _ _ (State.wrW_kept _ _ _ (kept_mk.mpr
    (State.measure_kept h).at_)))).at_))

theorem State.startFirmware_kept {b : Bool} (h : Kept a s) : Kept a (s.startFirmware b) := by
  unfold State.startFirmware
  exact Kept.fold (fun _ _ hk => Kept.ite (State.wrB_kept _ _ _ _ hk) hk) (State.readConfig_kept (State.showDebug_kept
    (State.measureLc_kept (kept_mk.mpr (State.measure_kept (State.measure_kept (State.onSec_kept
    (State.wrB_kept _ _ _ _ h)))).at_))))

theorem State.bootSteps_kept (h : Kept a s) : Kept a s.bootSteps := by
  unfold State.bootSteps
  split
  · rename_i e1
    have h2 : Kept a _ := Kept.of_snd e1 (by simp only [State.wr_kept, State.bootImage_kept, h])
    exact State.startFirmware_kept h2
  · rename_i e3
    have h4 : Kept a _ := Kept.of_snd e3 (by simp only [State.wr_kept, State.bootImage_kept, h])
    exact h4

theorem execFirmwareStarted_answers (h : Kept a s) : Answers a (execFirmwareStarted s) := by
  unfold execFirmwareStarted
  exact Answers.ite (answers_next.mpr h) (Answers.ite (answers_next.mpr (State.raise_kept h)) (answers_next.mpr
    (State.bootSteps_kept (kept_mk.mpr (Kept.ite (State.resolveOtp_kept h) (Kept.ite (State.resolveOtp_kept h)
    h)).at_))))

theorem execRecoveryImage_answers {data : List Byte} (h : Kept a s) : Answers a (execRecoveryImage data s) := by
  unfold execRecoveryImage
  exact Answers.ite (answers_next.mpr h) (answers_next.mpr (State.bootSteps_kept (State.onSec_kept h)))

theorem execGo_answers {v : Word} (h : Kept a s) : Answers a (execGo v s) := by
  unfold execGo
  exact Answers.ite (answers_next.mpr (State.answer_kept _ _ (State.writeWord_kept h))) (Answers.ite (answers_next.mpr
    (State.startProgram_kept (State.wrB_kept _ _ _ _ (State.answer_kept _ _ (State.writeWord_kept h)))))
    (answers_next.mpr (State.answer_kept _ _ (State.writeWord_kept h))))

theorem State.useNonce_kept {n : Nat} (h : Kept a s) : Kept a (s.useNonce n) := by
  simp only [State.useNonce, State.onSec_kept, h]

theorem execSecStatus_answers {q : Req} (h : Kept a s) : Answers a (execSecStatus q s) := by
  simp +contextual only [execSecStatus, State.command_kept, State.done_kept, implies_true, answers_next, h]

theorem execSecChallenge_answers {q : Req} (h : Kept a s) : Answers a (execSecChallenge q s) := by
  unfold execSecChallenge
  exact answers_next.mpr (State.command_kept _ _ _ _ h fun _ _ hk => State.answerAt_kept (State.drawBytes_kept (n :=
    32) hk))

theorem execLcAdvance_answers {q : Req} {buf : Fetch} (h : Kept a s) : Answers a (execLcAdvance q buf s) := by
  unfold execLcAdvance
  refine answers_next.mpr (State.command_kept _ _ _ _ h (fun y1 s2 h3 => ?_))
  extract_lets k
  split
  · exact State.busyRetry_kept _ _ _ h3
  · refine State.withBuffer_kept h3 (fun s4 h5 => State.answerAt_kept h5) (fun y6 s7 h8 => ?_)
    split
    · exact State.answerAt_kept h8
    · refine Kept.ite (State.answerAt_kept h8) ?_
      split
      · exact State.answerAt_kept h8
      · exact State.answerAt_kept (State.startProgram_kept (State.useNonce_kept h8))

theorem State.grant_kept {mask g : Nat} (h : Kept a s) : Kept a (s.grant mask g) := by
  unfold State.grant
  exact State.measure_kept (State.showDebug_kept (State.onSec_kept h))

theorem execDebugUnlock_answers {q : Req} {buf : Fetch} (h : Kept a s) : Answers a (execDebugUnlock q buf s) := by
  unfold execDebugUnlock
  refine answers_next.mpr (State.command_kept _ _ _ _ h (fun y1 s2 h3 => ?_))
  extract_lets mask
  refine State.withBuffer_kept h3 (fun s4 h5 => State.answerAt_kept h5) (fun y6 s7 h8 => ?_)
  split
  · exact State.answerAt_kept h8
  · split
    · exact State.answerAt_kept h8
    · exact State.answerAt_kept (State.grant_kept (State.useNonce_kept h8))

theorem execImageWrite_answers {q : Req} {buf : Fetch} (h : Kept a s) : Answers a (execImageWrite q buf s) := by
  unfold execImageWrite
  exact answers_next.mpr (State.command_kept _ _ _ _ h (fun _ _ hk => Kept.ite (State.answerAt_kept hk)
    (State.withBuffer_kept hk (fun _ hk1 => State.answerAt_kept hk1) (fun _ _ hk1 => State.answerAt_kept
    (State.onSec_kept hk1)))))

theorem execImageActivate_answers {q : Req} (h : Kept a s) : Answers a (execImageActivate q s) := by
  unfold execImageActivate
  exact answers_next.mpr (State.command_kept _ _ _ _ h (fun _ _ hk => Kept.ite (State.answerAt_kept hk)
    (State.answerAt_kept (State.wrB_kept _ _ _ _ (State.onSec_kept hk)))))

theorem execSvnCommit_answers {q : Req} (h : Kept a s) : Answers a (execSvnCommit q s) := by
  unfold execSvnCommit
  exact answers_next.mpr (State.command_kept _ _ _ _ h (fun _ _ hk => State.answerAt_kept (State.measureLc_kept
    (State.wr_kept _ _ _ _ (State.onOtp_kept hk)))))

theorem execMeasureRead_answers {q : Req} (h : Kept a s) : Answers a (execMeasureRead q s) := by
  unfold execMeasureRead
  exact answers_next.mpr (State.command_kept _ _ _ _ h (fun _ _ hk => Kept.ite (State.done_kept _ _ _ hk)
    (State.finish_kept _ _ _ hk)))

theorem State.secEnd_kept {j : Job} (h : Kept a s) : Kept a (s.secEnd j) := by
  unfold State.secEnd
  exact State.endJob_kept _ _ _ (Kept.ite (State.onSec_kept (Kept.ite (State.count_kept _ _ h) h)) (Kept.ite
    (State.count_kept _ _ h) h))

theorem State.secDue_kept (h : Kept a s) : Kept a s.secDue := by
  simp +contextual only [State.secDue, State.secEnd_kept, Kept.fold, implies_true, h]

theorem execSecurityResultDue_answers (h : Kept a s) : Answers a (execSecurityResultDue s) := by
  simp only [execSecurityResultDue, State.secDue_kept, answers_next, h]

theorem execNonceExpiry_answers (h : Kept a s) : Answers a (execNonceExpiry s) := by
  simp only [execNonceExpiry, State.onSec_kept, answers_next, h]

theorem State.respond_kept {via : Option Link} {code : Nat} {facts : List (List Byte)} (h : Kept a s) :
    Kept a (s.respond via code facts) := by
  unfold State.respond
  extract_lets o
  split
  · exact State.emit_kept _ _ h
  · exact State.post_kept _ _ _ _ h

theorem State.spdm_kept {via : Option Link} {ver : Option Nat} {ans : Nat × List (List Byte)} (h : Kept a s) :
    Kept a (s.spdm via ver ans) := by
  unfold State.spdm
  refine Kept.ite h ?_
  extract_lets say
  refine Kept.ite ?_ ?_
  · simp only [State.respond_kept, Kept.ite, h, say]
  · split
    · simp only [State.respond_kept, h, say]
    · exact Kept.ite (State.respond_kept h) (Kept.ite (State.respond_kept h) (State.respond_kept h))

theorem execGetVersion_answers {via : Option Link} (h : Kept a s) : Answers a (execGetVersion via s) := by
  simp only [execGetVersion, State.spdm_kept, answers_next, h]

theorem execGetCapabilities_answers {via : Option Link} {ver : Nat} (h : Kept a s) :
    Answers a (execGetCapabilities via ver s) := by
  simp only [execGetCapabilities, State.spdm_kept, answers_next, h]

theorem execNegotiateAlgorithms_answers {via : Option Link} {ver : Nat} {p384 sha384 : Bool} (h : Kept a s) :
    Answers a (execNegotiateAlgorithms via ver p384 sha384 s) := by
  simp only [execNegotiateAlgorithms, State.spdm_kept, answers_next, h]

theorem execGetDigests_answers {via : Option Link} {ver : Nat} (h : Kept a s) : Answers a (execGetDigests via ver s) := by
  simp only [execGetDigests, State.spdm_kept, answers_next, h]

theorem execGetCertificate_answers {via : Option Link} {ver slot off len : Nat} (h : Kept a s) :
    Answers a (execGetCertificate via ver slot off len s) := by
  simp only [execGetCertificate, State.spdm_kept, answers_next, h]

theorem execChallenge_answers {via : Option Link} {ver slot : Nat} {nonce : List Byte} (h : Kept a s) :
    Answers a (execChallenge via ver slot nonce s) := by
  unfold execChallenge
  split
  · rename_i e1
    have h2 : Kept a _ := Kept.of_snd e1 (State.drawBytes_kept h)
    refine answers_next.mpr ?_
    split
    · exact State.spdm_kept h
    · simp only [State.spdm_kept, Kept.ite, h, h2]

theorem execGetMeasurements_answers {via : Option Link} {ver index : Nat} {signed : Bool} {nonce : List Byte}
    (h : Kept a s) : Answers a (execGetMeasurements via ver index signed nonce s) := by
  unfold execGetMeasurements
  refine answers_next.mpr (.ite (State.spdm_kept h) ?_)
  split
  · exact State.spdm_kept h
  · exact State.spdm_kept (State.drawBytes_kept (n := 32) h)

/-! ### Machine/Pins.lean -/

theorem execCisternOkChange_answers {level : Bool} (h : Kept a s) : Answers a (execCisternOkChange level s) := by
  unfold execCisternOkChange
  exact answers_next.mpr (Kept.ite h (State.every_kept _ _ _ _ h (fun _ hk => State.updateWriteback_kept
    (State.wrB_kept _ _ _ _ hk))))

theorem execRailReading_answers {n : Fin 11} {mv current : Fin 65536} (h : Kept a s) :
    Answers a (execRailReading n mv current s) := by
  unfold execRailReading
  exact answers_next.mpr (Kept.ite h (State.wr_kept _ _ _ _ (State.wr_kept _ _ _ _ h)))

theorem State.busRecovery_kept {b : MgmtBus} (h : Kept a s) : Kept a (s.busRecovery b) := by
  simp +contextual only [State.busRecovery, State.stamp_kept, State.emit_kept, Kept.fold, implies_true, h]

theorem execSmbusStuck_answers {b : MgmtBus} {freed : Bool} (h : Kept a s) : Answers a (execSmbusStuck b freed s) := by
  unfold execSmbusStuck
  refine Answers.ite ?_ ?_
  · simp only [answers_next, h]
  · extract_lets s1
    have hs1 : Kept a s1 := State.busRecovery_kept h
    split
    · simp only [State.wrB_kept, answers_next, hs1]
    · exact Answers.ite (answers_next.mpr (State.wrB_kept _ _ _ _ (State.wrB_kept _ _ _ _ hs1))) (Answers.ite
        (answers_next.mpr hs1) (answers_next.mpr (State.raise_kept (State.wrB_kept _ _ _ _ (State.wrB_kept _ _ _ _
        hs1)))))
    · exact Answers.ite (answers_next.mpr (State.wrB_kept _ _ _ _ hs1)) (Answers.ite (answers_next.mpr hs1)
        (answers_next.mpr (State.raise_kept (State.wrB_kept _ _ _ _ hs1))))

theorem execOscInLost_answers (h : Kept a s) : Answers a (execOscInLost s) := by
  unfold execOscInLost
  exact answers_next.mpr (Kept.ite (State.emit_kept _ _ (kept_mk.mpr (kept_mk.mpr (State.wrB_kept _ _ _ _
    h).at_).at_)) (kept_mk.mpr (State.wrB_kept _ _ _ _ h).at_))

/-! ### Machine/Raw.lean -/

theorem after_kept {f : State → Res} (hf : Answers a (f s)) : Kept a (after f s) := by
  obtain ⟨t, ht, hk⟩ := hf
  unfold after
  rw [ht]
  exact hk

/-- Each command of the list keeps the state. -/
def CmdsKeep (a : State) (l : List (Nat × (State → Res))) : Prop := ∀ e ∈ l, ∀ s, Kept a s → Answers a (e.2 s)

theorem CmdsKeep.nil : CmdsKeep a [] := by simp [CmdsKeep]

theorem CmdsKeep.cons {n : Nat} {f : State → Res} {l : List (Nat × (State → Res))}
    (hf : ∀ s, Kept a s → Answers a (f s)) (hl : CmdsKeep a l) : CmdsKeep a ((n, f) :: l) := by
  intro e he
  obtain rfl | he := List.mem_cons.mp he
  · exact hf
  · exact hl e he

theorem onBits_kept {v : Nat} {l : List (Nat × (State → Res))} (hl : CmdsKeep a l) (h : Kept a s) :
    Kept a (onBits v l s) := by
  induction l generalizing s with
  | nil => exact h
  | cons e l ih =>
    have he : Kept a (after e.2 s) := after_kept (hl e (by simp) s h)
    exact ih (fun e' he' => hl e' (by simp [he'])) (.ite he h)

theorem oneBit_kept {v : Nat} {l : List (Nat × (State → Res))} (hl : CmdsKeep a l) (h : Kept a s) :
    Kept a (oneBit v l s) := by
  unfold oneBit
  split
  · rename_i e x
    have hx : e ∈ l := (List.mem_filter.mp (x ▸ List.mem_singleton_self e)).1
    exact after_kept (hl e hx s h)
  · exact State.answer_kept _ _ h

theorem State.rowQuad_kept {key v : Nat} (h : Kept a s) : KeptIf a (s.rowQuad key v) := by
  unfold State.rowQuad
  extract_lets q w x p hr
  have one {n : Nat} {f : State → Res} (hf : ∀ s, Kept a s → Answers a (f s)) : CmdsKeep a [(n, f)] := .cons hf .nil
  refine .ite (.ite (.some (onBits_kept (one fun _ => execFlip_answers) h))
    (.ite (.some (onBits_kept (one fun _ => execBarrierReq_answers) h))
    (.ite (.some (onBits_kept (one fun _ => execAbortReq_answers) h))
    (.ite (.some (oneBit_kept (.cons (fun _ => execMcWrite_answers) (one fun _ => execMcRead_answers)) h))
    (.ite (.some (oneBit_kept (.cons (fun _ => execEdWrite_answers) (one fun _ => execEdRead_answers)) h)) .none)))))
    (.ite (.ite (.some (oneBit_kept (.cons (fun _ => execHuskMemWrite_answers) (one fun _ => execHuskMemRead_answers)) h))
      .none) (.ite (.ite ?_ (.ite ?_ (.ite ?_ .none))) (.ite ?_ .none)))
  · exact .some (oneBit_kept (.cons (fun _ => execSeedEntWrite_answers) (one fun _ => execSeedEntRead_answers)) h)
  · exact .some (oneBit_kept (.cons (fun _ => execSeedMtrWrite_answers) (one fun _ => execSeedMtrRead_answers)) h)
  · refine .some (oneBit_kept (one fun _ hs => ?_) h)
    split
    · exact execSeedCntReadClear_answers hs
    · exact execSeedCntRead_answers hs
  · exact .some (oneBit_kept (.cons (fun _ => execSievEntClear_answers) (.cons (fun _ => execSievEntWrite_answers)
      (one fun _ => execSievEntRead_answers))) h)

theorem State.rowOf_kept {who : Master} {key v : Nat} (h : Kept a s) : KeptIf a (s.rowOf who key v) := by
  unfold State.rowOf
  extract_lets ww x c s1
  have hs1 : Kept a s1 := State.writeNow_kept h
  have aft {f : State → Res} (hf : Answers a (f s)) : KeptIf a (some (after f s)) := .some (after_kept hf)
  refine .ite (aft (execWatchdogKick_answers h)) (.ite (aft (execAliveStart_answers h)) (.ite (aft (execStickyClear_answers h))
    (.ite (aft (execSnap_answers h)) (.ite (aft (execShadowSelect_answers h)) (.ite (.some ?_)
    (.ite (aft (execGo_answers h)) (.ite (aft (execBuild_answers h)) (.ite (State.rowQuad_kept h)
    (.ite (.some ?_) (.ite (.some ?_) .none))))))))))
  · exact onBits_kept (.cons (fun _ => execBmvStart_answers) (.cons (fun _ => execBmvAbort_answers)
      (.cons (fun _ => execBmvResume_answers) .nil))) hs1
  · exact .ite (after_kept (execWeirGrpRead_answers h)) (.ite (after_kept (execWeirGrpWrite_answers h))
      (State.answer_kept _ _ h))
  · exact oneBit_kept (.cons (fun _ => execIcrSaWrite_answers) (.cons (fun _ => execIcrSaRead_answers) .nil)) h

theorem State.rowWrite_kept {key v : Nat} (h : Kept a s) : Kept a (s.rowWrite key v) :=
  KeptIf.getD (State.rowOf_kept h) (State.writeNow_kept h)

theorem execRegisterWrite_answers {who : Master} {x : Addr} {size : Nat} {v : DWord} (h : Kept a s) :
    Answers a (execRegisterWrite who x size v s) := by
  refine answers_next.mpr ?_
  split
  · exact State.refuse_kept h
  · refine .ite ?_ (State.access_kept h)
    split
    · exact State.rowOf_kept (State.answer_kept _ _ (State.catchUp_kept h)) _ ‹_›
    · exact State.access_kept h

theorem State.keepRaw_kept {key : Nat} (h : Kept a s) : Kept a (s.keepRaw key) := by
  simp only [State.keepRaw, Kept.ite, kept_mk, Kept.at_, h]

theorem State.rawWrite_kept {t' : Target} {v mask : Nat} (h : Kept a s) : Kept a (s.rawWrite t' v mask) := by
  unfold State.rawWrite
  split
  · simp only [State.writeNow_kept, h]
  · simp only [State.keepRaw_kept, State.rowWrite_kept, h]
  · simp only [State.writeNow_kept, State.keepRaw_kept, h]

theorem State.regTake_kept {j : RegJob} {t' : Target} (h : Kept a s) : Kept a (s.regTake j t') := by
  unfold State.regTake
  split
  · exact Kept.ite (State.regRefused_kept (State.rawWrite_kept (State.answer_kept _ _ h))) (kept_mk.mpr
      (State.rawWrite_kept (State.answer_kept _ _ h)).at_)
  · split
    · simp only [kept_mk, Kept.at_, h]
    · exact State.regRefused_kept h

theorem State.regGo_kept {x : Nat} (h : Kept a s) : Kept a (s.regGo x) := by
  induction x generalizing s with
  | zero => exact h
  | succ fuel ih =>
    unfold State.regGo
    split
    · exact h
    · refine .ite (State.regEnd_kept h) (.ite (State.regEnd_kept h) ?_)
      split
      · exact State.regRefused_kept h
      · split
        exact .ite (State.regRefused_kept h) (.ite (ih (State.regTake_kept h)) (.ite ⟨h.at_⟩ (State.addJob_kept _ _ _ _ ⟨h.at_⟩)))

theorem State.regStart_kept {q : Req} {addr n : Nat} {wr : Option (Nat × Nat)} (h : Kept a s) :
    Kept a (s.regStart q addr n wr) := by
  unfold State.regStart
  exact Kept.ite h (State.regGo_kept ⟨h.at_⟩)

theorem execDevRegRead_answers {q : Req} (h : Kept a s) : Answers a (execDevRegRead q s) := by
  unfold execDevRegRead
  exact answers_next.mpr (State.command_kept _ _ _ _ h (fun _ _ hk => Kept.ite (State.finish_kept _ _ _ hk)
    (State.regStart_kept hk)))

theorem execDevRegWrite_answers {q : Req} (h : Kept a s) : Answers a (execDevRegWrite q s) := by
  simp +contextual only [execDevRegWrite, State.command_kept, State.regStart_kept, implies_true, answers_next, h]

theorem State.regCrossed_kept (h : Kept a s) : Kept a s.regCrossed := by
  unfold State.regCrossed
  split
  · exact h
  · split
    · exact State.regRefused_kept h
    · exact Kept.ite (State.regGo_kept (State.regTake_kept h)) (State.regRefused_kept h)

theorem State.crossingLate_kept {who : Master} (h : Kept a s) : Kept a (s.crossingLate who) := by
  unfold State.crossingLate
  exact State.endCrossing_kept h (fun _ _ hk => State.raise_kept (State.refuseCrossing_kept hk))

theorem execSlowAccessCrossed_answers {who : Master} (h : Kept a s) : Answers a (execSlowAccessCrossed who s) := by
  unfold execSlowAccessCrossed
  split
  · simp only [answers_next, h]
  · exact answers_next.mpr (Kept.ite (State.crossingLate_kept h) (State.endCrossing_kept h (fun _ _ hk => Kept.ite
      (State.regCrossed_kept hk) (State.land_kept hk))))

theorem execSlowAccessTimeout_answers {who : Master} (h : Kept a s) : Answers a (execSlowAccessTimeout who s) := by
  unfold execSlowAccessTimeout
  split
  · simp only [answers_next, h]
  · simp only [State.crossingLate_kept, Kept.ite, answers_next, h]

/-! ### Machine/Time.lean -/

theorem State.timeEvent_kept (h : Kept a s) : Kept a s.timeEvent := by
  simp only [State.timeEvent, State.onTim_kept, h]

theorem State.stepTime_kept {d : Int} (h : Kept a s) : Kept a (s.stepTime d) := by
  unfold State.stepTime
  exact State.timeEvent_kept (State.onTim_kept _ _ ⟨h.at_⟩)

theorem State.stepForward_kept {d : Int} (h : Kept a s) : Kept a (s.stepForward d) := by
  simp only [State.stepForward, State.stepTime_kept, State.count_kept, h]

theorem State.setQual_kept {k : Nat} {v : Option Nat} (h : Kept a s) : Kept a (s.setQual k v) := by
  simp only [State.setQual, State.onTim_kept, h]

theorem State.enterTime_kept {st : Nat} (h : Kept a s) : Kept a (s.enterTime st) := by
  unfold State.enterTime
  exact State.timeEvent_kept (State.wr_kept _ _ _ _ (State.wr_kept _ _ _ _ h))

theorem State.showOffset_kept {d : Int} (h : Kept a s) : Kept a (s.showOffset d) := by
  simp only [State.showOffset, State.wr_kept, h]

theorem State.behind_kept {k : Nat} (h : Kept a s) : Kept a (s.behind k) := by
  unfold State.behind
  exact State.raise_kept (State.wrB_kept _ _ _ _ (State.setQual_kept h))

theorem State.noPhase_kept (h : Kept a s) : Kept a s.noPhase := by
  unfold State.noPhase
  exact Kept.ite (State.enterTime_kept (State.onTim_kept _ _ (State.onTim_kept _ _ (State.wr_kept _ _ _ _ h))))
    (Kept.ite (State.enterTime_kept (State.wr_kept _ _ _ _ (State.onTim_kept _ _ (State.wr_kept _ _ _ _ h))))
    (State.timeEvent_kept (State.onTim_kept _ _ (State.wr_kept _ _ _ _ h))))

theorem State.correct_kept {d : Int} {first : Bool} (h : Kept a s) : Kept a (s.correct d first) := by
  unfold State.correct
  exact Kept.ite (State.stepForward_kept (State.onTim_kept _ _ (State.showOffset_kept h))) (State.onTim_kept _ _
    (State.onTim_kept _ _ (State.showOffset_kept h)))

theorem State.selectPhase_kept {k : Nat} {d : Int} (h : Kept a s) : Kept a (s.selectPhase k d) := by
  unfold State.selectPhase
  exact State.correct_kept (State.enterTime_kept (State.wr_kept _ _ _ _ (State.onTim_kept _ _ (State.count_kept _ _
    (State.wr_kept _ _ _ _ h)))))

theorem State.choosePhase_kept {d : Int} (h : Kept a s) : Kept a (s.choosePhase d) := by
  unfold State.choosePhase
  split
  · exact State.noPhase_kept h
  · exact Kept.ite (State.noPhase_kept (State.behind_kept h)) (State.selectPhase_kept h)

theorem State.selectFreq_kept {k : Option Nat} (h : Kept a s) : Kept a (s.selectFreq k) := by
  unfold State.selectFreq
  exact Kept.ite h (State.timeEvent_kept (State.count_kept _ _ (State.wr_kept _ _ _ _ h)))

theorem execSourceQualified_answers {k : TimeSrc} {d : Int} (h : Kept a s) : Answers a (execSourceQualified k d s) := by
  unfold execSourceQualified
  refine Answers.ite ?_ ?_
  · simp only [answers_next, h]
  · extract_lets s1 q s2 s3
    have hs1 : Kept a s1 := by
      unfold s1
      split
      · simp only [State.wrB_kept, h]
      · simp only [State.wrB_kept, h]
      · exact State.wrB_kept _ _ _ _ h
      · exact h
      · exact h
    have hs2 : Kept a s2 := Kept.fold (fun _ _ hk => Kept.ite hk (State.setQual_kept hk)) hs1
    have hs3 : Kept a s3 := by simp only [s3, State.choosePhase_kept, Kept.ite, hs2]
    simp only [State.selectFreq_kept, Kept.ite, answers_next, hs3]

theorem execSourceLost_answers {k : TimeSrc} {d : Int} (h : Kept a s) : Answers a (execSourceLost k d s) := by
  unfold execSourceLost
  refine Answers.ite ?_ ?_
  · simp only [answers_next, h]
  · extract_lets s1 a2 s3 lost s4 s5 s6
    have hs1 : Kept a s1 := by simp +contextual only [s1, State.setQual_kept, Kept.fold, implies_true, h]
    have hs3 : Kept a s3 := State.wrW_kept _ _ _ hs1
    have hs4 : Kept a s4 := by
      unfold s4
      split
      · exact State.onTim_kept _ _ (State.wrB_kept _ _ _ _ (State.wrB_kept _ _ _ _ hs3))
      · exact State.onTim_kept _ _ (State.wrB_kept _ _ _ _ (State.wrB_kept _ _ _ _ hs3))
      · exact State.wrB_kept _ _ _ _ hs3
      · exact State.onTim_kept _ _ hs3
      · exact hs3
    have hs5 : Kept a s5 := State.raise_kept hs4
    have hs6 : Kept a s6 := by simp only [s6, State.choosePhase_kept, Kept.ite, hs5]
    simp only [State.selectFreq_kept, Kept.ite, answers_next, hs6]

theorem execSourceRevert_answers {d : Int} (h : Kept a s) : Answers a (execSourceRevert d s) := by
  unfold execSourceRevert
  refine Answers.ite ?_ ?_
  · simp only [answers_next, h]
  · extract_lets s1
    have hs1 : Kept a s1 := by
      unfold s1
      split
      · simp only [State.behind_kept, State.selectPhase_kept, Kept.ite, h]
      · exact h
    refine answers_next.mpr ?_
    split
    · exact State.selectFreq_kept hs1
    · exact hs1

theorem State.phaseUpdate_kept {k : Nat} {d : Int} (h : Kept a s) : Kept a (s.phaseUpdate k d) := by
  unfold State.phaseUpdate
  exact Kept.ite h (Kept.ite (State.noPhase_kept (State.behind_kept h)) (State.correct_kept h))

theorem execTimeLocked_answers (h : Kept a s) : Answers a (execTimeLocked s) := by
  unfold execTimeLocked
  split
  · simp only [answers_next, h]
  · exact Answers.ite (answers_next.mpr h) (answers_next.mpr (State.enterTime_kept (State.wr_kept _ _ _ _
      (State.draw_kept _ h))))

theorem execHoldoverOut_answers (h : Kept a s) : Answers a (execHoldoverOut s) := by
  unfold execHoldoverOut
  exact Answers.ite (answers_next.mpr (State.raise_kept (State.enterTime_kept h))) (answers_next.mpr h)

theorem execTimestampCalibration_answers {u : Fin 32} (h : Kept a s) : Answers a (execTimestampCalibration u s) := by
  unfold execTimestampCalibration
  exact Answers.ite (answers_next.mpr h) (answers_next.mpr (Kept.ite (State.calibrate_kept _ _ h)
    (State.bgRan_kept _ _ (State.calibrate_kept _ _ h))))

theorem execPtpMessageRx_answers {p : Port} {x : PtpMsg} (h : Kept a s) : Answers a (execPtpMessageRx p x s) := by
  unfold execPtpMessageRx
  refine Answers.ite ?_ ?_
  · simp only [answers_next, h]
  · split
    · simp only [State.count_kept, answers_next, h]
    · extract_lets s1 can s2 s3 s4 a5 u
      have hs1 : Kept a s1 := State.count_kept _ _ h
      have hs2 : Kept a s2 := Kept.ite (State.onTim_kept _ _ hs1) (Kept.ite (State.onTim_kept _ _ hs1) hs1)
      have hs3 : Kept a s3 := State.onTim_kept _ _ hs2
      have hs4 : Kept a s4 := Kept.ite (State.wr_kept _ _ _ _ hs3) hs3
      exact Answers.ite (answers_next.mpr hs2) (answers_next.mpr (Kept.ite hs4 (State.timeEvent_kept
        (State.wrW_kept _ _ _ hs4))))

    · exact Answers.ite (answers_next.mpr (State.count_kept _ _ h)) (answers_next.mpr (State.phaseUpdate_kept
        (State.onTim_kept _ _ (State.count_kept _ _ h))))
    · exact Answers.ite (answers_next.mpr (State.count_kept _ _ h)) (answers_next.mpr (State.emit_kept _ _
        (State.count_kept _ _ (State.count_kept _ _ h))))

theorem execPtpMessageTx_answers {p : Port} {k : PtpTx} (h : Kept a s) : Answers a (execPtpMessageTx p k s) := by
  unfold execPtpMessageTx
  extract_lets send slave master
  have hsend (t : State) (what : String) (hk : Kept a t) : Kept a (send t what) :=
    State.emit_kept _ _ (State.count_kept _ _ hk)
  refine Answers.ite (answers_next.mpr h) ?_
  split
  · exact answers_next.mpr (.ite h (.ite (hsend _ _ h) (hsend _ _ (hsend _ _ h))))
  · exact answers_next.mpr (.ite (hsend _ _ h) h)
  · exact answers_next.mpr (.ite (hsend _ _ h) h)

theorem State.setPpsOut_kept {n : Nat} {x : PpsOut} (h : Kept a s) : Kept a (s.setPpsOut n x) := by
  simp only [State.setPpsOut, State.onTim_kept, h]

theorem execPpsOutputEdge_answers {n : Fin 20} (h : Kept a s) : Answers a (execPpsOutputEdge n s) := by
  unfold execPpsOutputEdge
  exact Answers.ite (answers_next.mpr h) (Answers.ite (answers_next.mpr (State.wrB_kept _ _ _ _ h)) (answers_next.mpr
    (State.setPpsOut_kept (State.emit_kept _ _ (State.wrB_kept _ _ _ _ h)))))

theorem execTodOutputMessage_answers {n : Fin 20} (h : Kept a s) : Answers a (execTodOutputMessage n s) := by
  unfold execTodOutputMessage
  extract_lets x s1
  have hs1 : Kept a s1 := State.setPpsOut_kept h
  split
  · simp only [answers_next, h]
  · exact Answers.ite (answers_next.mpr h) (Answers.ite (answers_next.mpr (State.setPpsOut_kept hs1))
      (answers_next.mpr (State.emit_kept _ _ hs1)))

theorem State.setPpsIn_kept {i : Nat} {x : PpsIn} (h : Kept a s) : Kept a (s.setPpsIn i x) := by
  simp only [State.setPpsIn, State.onTim_kept, h]

theorem State.ppsReject_kept {i : Nat} (h : Kept a s) : Kept a (s.ppsReject i) := by
  simp only [State.ppsReject, State.bump_kept, h]

theorem execPpsInputEdge_answers {i : Fin 2} (h : Kept a s) : Answers a (execPpsInputEdge i s) := by
  unfold execPpsInputEdge
  extract_lets b x gap good sec s1 s2 s3 at_
  refine .ite (answers_next.mpr h) ?_
  have hs3 : Kept a s3 := State.wrB_kept _ _ _ _ (State.setPpsIn_kept (.ite (State.ppsReject_kept h) h))
  clear_value sec
  split
  · exact answers_next.mpr (.ite (State.phaseUpdate_kept hs3) hs3)
  · exact answers_next.mpr hs3

theorem execTodInputMessage_answers {i : Fin 2} {l : List Byte} (h : Kept a s) : Answers a (execTodInputMessage i l s) := by
  unfold execTodInputMessage
  exact Answers.ite (answers_next.mpr h) (Answers.ite (answers_next.mpr (State.wrB_kept _ _ _ _ (State.setPpsIn_kept
    h))) (answers_next.mpr (State.count_kept _ _ (State.ppsReject_kept h))))

theorem execHostFeedTrip_answers {n : Fin 16} (h : Kept a s) : Answers a (execHostFeedTrip n s) := by
  unfold execHostFeedTrip
  exact Answers.ite (answers_next.mpr h) (answers_next.mpr (State.raise_kept (State.emit_kept _ _
    (State.wrB_kept _ _ _ _ (State.wrB_kept _ _ _ _ h)))))

theorem execPtmRequest_answers {m : Link} (h : Kept a s) : Answers a (execPtmRequest m s) := by
  unfold execPtmRequest
  exact Answers.ite (answers_next.mpr h) (answers_next.mpr (State.emit_kept _ _ (State.setLink_kept _ _ _
    (State.wake_kept _ _ h))))

theorem execPtmResponse_answers {m : Link} {host : Nat} (h : Kept a s) : Answers a (execPtmResponse m host s) := by
  unfold execPtmResponse
  extract_lets l x
  split
  · simp only [answers_next, h]
  · exact Answers.ite (answers_next.mpr h) (answers_next.mpr (State.count_kept _ _ (State.setLink_kept _ _ _ h)))

theorem execPtmTimeout_answers {m : Link} (h : Kept a s) : Answers a (execPtmTimeout m s) := by
  unfold execPtmTimeout
  extract_lets l
  split
  · simp only [answers_next, h]
  · exact Answers.ite (answers_next.mpr h) (answers_next.mpr (State.count_kept _ _ (State.setLink_kept _ _ _ h)))

theorem execTimePageEnable_answers {m : Link} {v : Word} (h : Kept a s) : Answers a (execTimePageEnable m v s) := by
  unfold execTimePageEnable
  exact Answers.ite (answers_next.mpr (Kept.ite (State.refuseHost_kept h) h)) (answers_next.mpr (State.answer_kept _ _
    (State.writeWord_kept (State.catchUp_kept h))))

theorem execTimePageWrite_answers {m : Link} (h : Kept a s) : Answers a (execTimePageWrite m s) := by
  unfold execTimePageWrite
  extract_lets b x n ptm due next s1 valid s2
  have hs1 : Kept a s1 := State.setPage_kept _ _ _ h
  refine Answers.ite (answers_next.mpr h) (Answers.ite ?_ ?_)
  · exact answers_next.mpr (State.wrB_kept _ _ _ _ (State.windowErr_kept hs1))
  · split
    extract_lets body s3 s4
    have hs4 : Kept a s4 := State.postWrite_kept _ _ _ _ _ (State.postWrite_kept _ _ _ _ _
        (State.postWrite_kept _ _ _ _ _ h))
    exact answers_next.mpr (State.count_kept _ _ (State.setPage_kept _ _ _ hs4))

theorem execCoreTimePageWrite_answers (h : Kept a s) : Answers a (execCoreTimePageWrite s) := by
  unfold execCoreTimePageWrite
  exact Answers.ite (answers_next.mpr h) (answers_next.mpr (State.onTim_kept _ _ (kept_mk.mpr (h.at_.putBytes _ _))))

theorem execLeapSecond_answers (h : Kept a s) : Answers a (execLeapSecond s) := by
  unfold execLeapSecond
  exact Answers.ite (answers_next.mpr (State.timeEvent_kept (State.wrB_kept _ _ _ _ (State.wr_kept _ _ _ _ h))))
    (Answers.ite (answers_next.mpr (State.timeEvent_kept (State.wrB_kept _ _ _ _ (State.wr_kept _ _ _ _ h))))
    (answers_next.mpr h))

theorem execTimeStatus_answers {q : Req} (h : Kept a s) : Answers a (execTimeStatus q s) := by
  simp +contextual only [execTimeStatus, State.command_kept, State.done_kept, implies_true, answers_next, h]

theorem State.reselect_kept (h : Kept a s) : Kept a s.reselect := by
  unfold State.reselect
  split
  · rename_i e1
    have h2 : Kept a _ := Kept.of_snd e1 (State.draw_kept _ h)
    extract_lets d s3
    have hs3 : Kept a s3 := by
      unfold s3
      split <;> simp only [State.choosePhase_kept, Kept.ite, h2]
    split
    · simp only [State.selectFreq_kept, Kept.ite, hs3]
    · exact State.selectFreq_kept hs3

theorem execTimeSrcSet_answers {q : Req} (h : Kept a s) : Answers a (execTimeSrcSet q s) := by
  unfold execTimeSrcSet
  exact answers_next.mpr (State.command_kept _ _ _ _ h (fun _ _ hk => Kept.ite (State.done_kept _ _ _
    (State.reselect_kept (Kept.fold (fun _ _ hk1 => State.wrW_kept _ _ _ hk1) hk))) (State.finish_kept _ _ _ hk)))

theorem execTimeClockSet_answers {q : Req} (h : Kept a s) : Answers a (execTimeClockSet q s) := by
  unfold execTimeClockSet
  exact answers_next.mpr (State.command_kept _ _ _ _ h (fun _ _ hk => Kept.ite (State.finish_kept _ _ _ hk)
    (State.done_kept _ _ _ (State.onTim_kept _ _ hk))))

theorem execTimePortSet_answers {q : Req} (h : Kept a s) : Answers a (execTimePortSet q s) := by
  unfold execTimePortSet
  exact answers_next.mpr (State.command_kept _ _ _ _ h (fun _ _ hk => Kept.ite (State.finish_kept _ _ _ hk)
    (State.done_kept _ _ _ (State.wrW_kept _ _ _ (State.wrW_kept _ _ _ (State.onTim_kept _ _ hk))))))

theorem execTimeUnicastSet_answers {q : Req} (h : Kept a s) : Answers a (execTimeUnicastSet q s) := by
  unfold execTimeUnicastSet
  exact answers_next.mpr (State.command_kept _ _ _ _ h (fun _ _ hk => Kept.ite (State.finish_kept _ _ _ hk) (Kept.ite
    (Kept.ite (State.done_kept _ _ _ (State.onTim_kept _ _ hk)) (State.finish_kept _ _ _ hk)) (Kept.ite
    (State.finish_kept _ _ _ hk) (State.done_kept _ _ _ (State.onTim_kept _ _ hk))))))

theorem execTimeSet_answers {q : Req} (h : Kept a s) : Answers a (execTimeSet q s) := by
  unfold execTimeSet
  exact answers_next.mpr (State.command_kept _ _ _ _ h (fun _ _ hk => Kept.ite (State.finish_kept _ _ _ hk)
    (State.done_kept _ _ _ (State.wr_kept _ _ _ _ (State.onTim_kept _ _ (Kept.ite (State.stepTime_kept hk) (Kept.ite
    (State.stepForward_kept hk) hk)))))))

theorem execTimeTodSet_answers {q : Req} (h : Kept a s) : Answers a (execTimeTodSet q s) := by
  unfold execTimeTodSet
  exact answers_next.mpr (State.command_kept _ _ _ _ h (fun _ _ hk => Kept.ite (State.finish_kept _ _ _ hk)
    (State.done_kept _ _ _ (State.setPpsIn_kept hk))))

theorem execTimeOutSet_answers {q : Req} (h : Kept a s) : Answers a (execTimeOutSet q s) := by
  unfold execTimeOutSet
  exact answers_next.mpr (State.command_kept _ _ _ _ h (fun _ _ hk => Kept.ite (State.finish_kept _ _ _ hk)
    (State.done_kept _ _ _ (State.feedWritten_kept _ _ _ (State.wrW_kept _ _ _ (State.wrW_kept _ _ _ hk))))))

theorem execTimeSynceQl_answers {q : Req} (h : Kept a s) : Answers a (execTimeSynceQl q s) := by
  unfold execTimeSynceQl
  exact answers_next.mpr (State.command_kept _ _ _ _ h (fun _ _ hk => Kept.ite (State.finish_kept _ _ _ hk) (Kept.ite
    (State.done_kept _ _ _ (State.onTim_kept _ _ hk)) (State.done_kept _ _ _ (State.draw_kept _ (State.onTim_kept _ _
    hk))))))

theorem execTimeHoldSet_answers {q : Req} (h : Kept a s) : Answers a (execTimeHoldSet q s) := by
  unfold execTimeHoldSet
  exact answers_next.mpr (State.command_kept _ _ _ _ h (fun _ _ hk => Kept.ite (State.finish_kept _ _ _ hk)
    (State.done_kept _ _ _ (Kept.ite (State.wrB_kept _ _ _ _ (State.wr_kept _ _ _ _ (State.wrW_kept _ _ _ hk)))
    (State.wr_kept _ _ _ _ (State.wrW_kept _ _ _ hk))))))

theorem execTimeUtcSet_answers {q : Req} (h : Kept a s) : Answers a (execTimeUtcSet q s) := by
  unfold execTimeUtcSet
  exact answers_next.mpr (State.command_kept _ _ _ _ h (fun _ _ hk => Kept.ite (State.busyRetry_kept _ _ _ hk)
    (State.done_kept _ _ _ (State.timeEvent_kept (State.wrW_kept _ _ _ hk)))))

theorem execTimeCalRead_answers {q : Req} (h : Kept a s) : Answers a (execTimeCalRead q s) := by
  unfold execTimeCalRead
  exact answers_next.mpr (State.command_kept _ _ _ _ h (fun _ _ hk => Kept.ite (State.finish_kept _ _ _ hk)
    (State.done_kept _ _ _ hk)))

/-! ### Machine/Tick.lean -/

theorem State.slewTick_kept (h : Kept a s) : Kept a s.slewTick := by
  simp only [State.slewTick, Kept.ite, kept_mk, Kept.at_, h]

theorem State.counterTick_kept {p : Option Nat} {i : Nat} (h : Kept a s) : Kept a (s.counterTick p i) := by
  unfold State.counterTick
  exact Kept.ite h (kept_mk.mpr (Kept.ite (State.countN_kept _ _ _ h) h).at_)

theorem State.countersTick_kept (h : Kept a s) : Kept a s.countersTick := by
  unfold State.countersTick
  exact kept_mk.mpr (Kept.fold (fun _ _ hk => State.counterTick_kept hk) (Kept.fold (fun _ _ hk => Kept.fold
    (fun _ _ hk1 => State.counterTick_kept hk1) hk) h)).at_

theorem State.snapTick_kept (h : Kept a s) : Kept a s.snapTick := by
  simp only [State.snapTick, State.takeShadows_kept, Kept.ite, h]

theorem State.actOn_kept {m : FaultMsg} (h : Kept a s) : Kept a (s.actOn m) := by
  unfold State.actOn
  exact Kept.ite (State.ackRouted_kept _ _ h) (Kept.ite (State.ackRouted_kept _ _ (State.setUpset_kept h)) (Kept.ite
    (State.ackRouted_kept _ _ ⟨h.at_⟩) h))

theorem State.firmwareTakes_kept (h : Kept a s) : Kept a s.firmwareTakes := by
  unfold State.firmwareTakes
  split
  · exact h
  · simp only [State.actOn_kept, kept_mk, Kept.at_, h]

theorem State.powerFailTick_kept (h : Kept a s) : Kept a s.powerFailTick := by
  simp only [State.powerFailTick, State.wrB_kept, Kept.ite, h]

theorem State.tick_kept (h : Kept a s) : Kept a s.tick := by
  unfold State.tick
  extract_lets s1 s2
  have hs1 : Kept a s1 := State.secDue_kept (State.otpRun_kept (State.powerFailTick_kept (State.snapTick_kept
      (State.slewTick_kept ⟨h.at_⟩))))
  have hs2 : Kept a s2 := Kept.ite (State.firmwareTakes_kept hs1) hs1
  exact Kept.ite h (Kept.ite (State.countersTick_kept hs2) hs2)

/-! ### Every command, the tick and the step -/

/-- Every command answers a next state, with the queue as it was and the tables in canonical form. -/
theorem exec_answers (c : Instr) (h : Kept a s) : Answers a (exec c s) := by
  cases c with
  | registerWrite => exact execRegisterWrite_answers h
  | aliasSetWrite => exact execAliasSetWrite_answers h
  | aliasClearWrite => exact execAliasClearWrite_answers h
  | aliasToggleWrite => exact execAliasToggleWrite_answers h
  | slowAccessCrossed => exact execSlowAccessCrossed_answers h
  | slowAccessTimeout => exact execSlowAccessTimeout_answers h
  | wideSelWrite => exact execWideSelWrite_answers h
  | wideLatchDone => exact execWideLatchDone_answers h
  | paceVlimitWrite => exact execPaceVlimitWrite_answers h
  | lockBitWrite => exact execLockBitWrite_answers h
  | coreBusAccess => exact execCoreBusAccess_answers h
  | paceMeterUpdate => exact execPaceMeterUpdate_answers h
  | paceMeterCalibration => exact execPaceMeterCalibration_answers h
  | paceCalibrationDone => exact execPaceCalibrationDone_answers h
  | governorLoopStep => exact execGovernorLoopStep_answers h
  | avsCommandUnacknowledged => exact execAvsCommandUnacknowledged_answers h
  | avsResend => exact execAvsResend_answers h
  | powerReading => exact execPowerReading_answers h
  | tjReading => exact execTjReading_answers h
  | domainPowerGood => exact execDomainPowerGood_answers h
  | mailboxDoorbell => exact execMailboxDoorbell_answers h
  | progressHeader => exact execProgressHeader_answers h
  | resbaseWrite => exact execResbaseWrite_answers h
  | oldCommandSettled => exact execOldCommandSettled_answers h
  | coreMailboxDoorbell => exact execCoreMailboxDoorbell_answers h
  | devIdentify => exact execDevIdentify_answers h
  | devCaps => exact execDevCaps_answers h
  | devEcho => exact execDevEcho_answers h
  | devCmdStatus => exact execDevCmdStatus_answers h
  | devRegRead => exact execDevRegRead_answers h
  | devRegWrite => exact execDevRegWrite_answers h
  | devHealth => exact execDevHealth_answers h
  | modeGet => exact execModeGet_answers h
  | modeSet => exact execModeSet_answers h
  | warmReset => exact execWarmReset_answers h
  | domainSet => exact execDomainSet_answers h
  | govSet => exact execGovSet_answers h
  | trickleUplinks => exact execTrickleUplinks_answers h
  | pipeReset => exact execPipeReset_answers h
  | healthCheck => exact execHealthCheck_answers h
  | primingEntry => exact execPrimingEntry_answers h
  | primingStepDone => exact execPrimingStepDone_answers h
  | primingStepTimeout => exact execPrimingStepTimeout_answers h
  | primingComplete => exact execPrimingComplete_answers h
  | deviceWarmReset => exact execDeviceWarmReset_answers h
  | coldReset => exact execColdReset_answers h
  | sysResetLow => exact execSysResetLow_answers h
  | powerFail => exact execPowerFail_answers h
  | vaultChunkWritten => exact execVaultChunkWritten_answers h
  | drainComplete => exact execDrainComplete_answers h
  | flushLate => exact execFlushLate_answers h
  | mainPgRise => exact execMainPgRise_answers h
  | perstRelease => exact execPerstRelease_answers h
  | functionReady => exact execFunctionReady_answers h
  | frameReceive => exact execFrameReceive_answers h
  | pauseExpiry => exact execPauseExpiry_answers h
  | pfcRepeat => exact execPfcRepeat_answers h
  | linkDown => exact execLinkDown_answers h
  | linkUp => exact execLinkUp_answers h
  | laneSignalLoss => exact execLaneSignalLoss_answers h
  | moduleInserted => exact execModuleInserted_answers h
  | moduleRemoved => exact execModuleRemoved_answers h
  | moduleOvercurrent => exact execModuleOvercurrent_answers h
  | moduleI2cStuck => exact execModuleI2cStuck_answers h
  | packetParse => exact execPacketParse_answers h
  | longReachSwitch => exact execLongReachSwitch_answers h
  | huskMemWrite => exact execHuskMemWrite_answers h
  | huskMemRead => exact execHuskMemRead_answers h
  | nop => exact execNop_answers h
  | mov => exact execMov_answers h
  | add => exact execAdd_answers h
  | sub => exact execSub_answers h
  | and => exact execAnd_answers h
  | or => exact execOr_answers h
  | xor => exact execXor_answers h
  | shl => exact execShl_answers h
  | shr => exact execShr_answers h
  | ceq => exact execCeq_answers h
  | cne => exact execCne_answers h
  | clt => exact execClt_answers h
  | cge => exact execCge_answers h
  | tstm => exact execTstm_answers h
  | br => exact execBr_answers h
  | hash => exact execHash_answers h
  | wread => exact execWread_answers h
  | lookup => exact execLookup_answers h
  | update => exact execUpdate_answers h
  | meter => exact execMeter_answers h
  | count => exact execCount_answers h
  | learn => exact execLearn_answers h
  | lookupResponse => exact execLookupResponse_answers h
  | tokenExitHeadrace => exact execTokenExitHeadrace_answers h
  | tokenExitTailrace => exact execTokenExitTailrace_answers h
  | barrierReq => exact execBarrierReq_answers h
  | barrierDone => exact execBarrierDone_answers h
  | abortReq => exact execAbortReq_answers h
  | pipelineWatchdog => exact execPipelineWatchdog_answers h
  | mcWrite => exact execMcWrite_answers h
  | mcRead => exact execMcRead_answers h
  | edWrite => exact execEdWrite_answers h
  | edRead => exact execEdRead_answers h
  | flip => exact execFlip_answers h
  | bankFlip => exact execBankFlip_answers h
  | pipelineDrained => exact execPipelineDrained_answers h
  | mcStage => exact execMcStage_answers h
  | mcFlip => exact execMcFlip_answers h
  | mcStatus => exact execMcStatus_answers h
  | countRead => exact execCountRead_answers h
  | seedCntRead => exact execSeedCntRead_answers h
  | seedCntReadClear => exact execSeedCntReadClear_answers h
  | tblSeedInsert => exact execTblSeedInsert_answers h
  | tblSeedDelete => exact execTblSeedDelete_answers h
  | tblSeedRead => exact execTblSeedRead_answers h
  | tblSeedBatch => exact execTblSeedBatch_answers h
  | tblSeedFlush => exact execTblSeedFlush_answers h
  | tblSieveWrite => exact execTblSieveWrite_answers h
  | tblSieveClear => exact execTblSieveClear_answers h
  | tblSieveRead => exact execTblSieveRead_answers h
  | tblSieveProfile => exact execTblSieveProfile_answers h
  | tblRsvCreate => exact execTblRsvCreate_answers h
  | tblRsvDestroy => exact execTblRsvDestroy_answers h
  | tblRsvInsert => exact execTblRsvInsert_answers h
  | tblRsvDelete => exact execTblRsvDelete_answers h
  | tblRsvRead => exact execTblRsvRead_answers h
  | tblRsvBatch => exact execTblRsvBatch_answers h
  | tblStatus => exact execTblStatus_answers h
  | tblAgeCfg => exact execTblAgeCfg_answers h
  | learnNotice => exact execLearnNotice_answers h
  | missNotice => exact execMissNotice_answers h
  | ageNotice => exact execAgeNotice_answers h
  | remoteHitNotice => exact execRemoteHitNotice_answers h
  | parityNotice => exact execParityNotice_answers h
  | sweeperVisit => exact execSweeperVisit_answers h
  | learnFilterExpire => exact execLearnFilterExpire_answers h
  | rsvIdleSweep => exact execRsvIdleSweep_answers h
  | tableCopyLoaded => exact execTableCopyLoaded_answers h
  | seedEntWrite => exact execSeedEntWrite_answers h
  | seedEntRead => exact execSeedEntRead_answers h
  | sievEntWrite => exact execSievEntWrite_answers h
  | sievEntClear => exact execSievEntClear_answers h
  | sievEntRead => exact execSievEntRead_answers h
  | weirSlot => exact execWeirSlot_answers h
  | congestionAverageUpdate => exact execCongestionAverageUpdate_answers h
  | spillOut => exact execSpillOut_answers h
  | spillBack => exact execSpillBack_answers h
  | groupEpochRelease => exact execGroupEpochRelease_answers h
  | qosTcSet => exact execQosTcSet_answers h
  | qosRedSet => exact execQosRedSet_answers h
  | qosBufSet => exact execQosBufSet_answers h
  | qosPfcSet => exact execQosPfcSet_answers h
  | groupSet => exact execGroupSet_answers h
  | groupRead => exact execGroupRead_answers h
  | tapSet => exact execTapSet_answers h
  | tapRingSet => exact execTapRingSet_answers h
  | weirGrpRead => exact execWeirGrpRead_answers h
  | weirGrpWrite => exact execWeirGrpWrite_answers h
  | shaperRefill => exact execShaperRefill_answers h
  | slotFrameStart => exact execSlotFrameStart_answers h
  | launchRelease => exact execLaunchRelease_answers h
  | launchLate => exact execLaunchLate_answers h
  | rxWaitExpiry => exact execRxWaitExpiry_answers h
  | egrSlotSet => exact execEgrSlotSet_answers h
  | egrClassSet => exact execEgrClassSet_answers h
  | egrLaunchSet => exact execEgrLaunchSet_answers h
  | egrRead => exact execEgrRead_answers h
  | meterSet => exact execMeterSet_answers h
  | meterRead => exact execMeterRead_answers h
  | seedMtrWrite => exact execSeedMtrWrite_answers h
  | seedMtrRead => exact execSeedMtrRead_answers h
  | hostLinkUp => exact execHostLinkUp_answers h
  | hostMemoryRequest => exact execHostMemoryRequest_answers h
  | completionTimeout => exact execCompletionTimeout_answers h
  | dmaCompletion => exact execDmaCompletion_answers h
  | ctoValueWrite => exact execCtoValueWrite_answers h
  | busMasterEnable => exact execBusMasterEnable_answers h
  | d3hotToD0 => exact execD3hotToD0_answers h
  | flrInitiate => exact execFlrInitiate_answers h
  | flrDone => exact execFlrDone_answers h
  | hotReset => exact execHotReset_answers h
  | perstAssert => exact execPerstAssert_answers h
  | l1Entry => exact execL1Entry_answers h
  | l0pNarrow => exact execL0pNarrow_answers h
  | l0pWiden => exact execL0pWiden_answers h
  | atsInvalidate => exact execAtsInvalidate_answers h
  | ptmRequest => exact execPtmRequest_answers h
  | ptmResponse => exact execPtmResponse_answers h
  | ptmTimeout => exact execPtmTimeout_answers h
  | txDb => exact execTxDb_answers h
  | rxDb => exact execRxDb_answers h
  | txcDb => exact execTxcDb_answers h
  | rxcDb => exact execRxcDb_answers h
  | txChainFetch => exact execTxChainFetch_answers h
  | txCompletion => exact execTxCompletion_answers h
  | rxRingWrite => exact execRxRingWrite_answers h
  | irqModerationTimeout => exact execIrqModerationTimeout_answers h
  | qpCreate => exact execQpCreate_answers h
  | qpReset => exact execQpReset_answers h
  | qpDelete => exact execQpDelete_answers h
  | qtableSet => exact execQtableSet_answers h
  | plotConfig => exact execPlotConfig_answers h
  | plotRateSet => exact execPlotRateSet_answers h
  | plotWindowSet => exact execPlotWindowSet_answers h
  | plotReset => exact execPlotReset_answers h
  | plotRemove => exact execPlotRemove_answers h
  | plotMsgSend => exact execPlotMsgSend_answers h
  | plotMsgRecv => exact execPlotMsgRecv_answers h
  | plotStatus => exact execPlotStatus_answers h
  | plotLogStart => exact execPlotLogStart_answers h
  | plotLogSync => exact execPlotLogSync_answers h
  | plotLogStop => exact execPlotLogStop_answers h
  | plotPause => exact execPlotPause_answers h
  | plotResume => exact execPlotResume_answers h
  | plotSave => exact execPlotSave_answers h
  | plotRestore => exact execPlotRestore_answers h
  | plotMbxSend => exact execPlotMbxSend_answers h
  | plotMbxAck => exact execPlotMbxAck_answers h
  | sourceQualified => exact execSourceQualified_answers h
  | sourceLost => exact execSourceLost_answers h
  | sourceRevert => exact execSourceRevert_answers h
  | timeLocked => exact execTimeLocked_answers h
  | holdoverOut => exact execHoldoverOut_answers h
  | timestampCalibration => exact execTimestampCalibration_answers h
  | ptpMessageRx => exact execPtpMessageRx_answers h
  | ptpMessageTx => exact execPtpMessageTx_answers h
  | ppsOutputEdge => exact execPpsOutputEdge_answers h
  | todOutputMessage => exact execTodOutputMessage_answers h
  | ppsInputEdge => exact execPpsInputEdge_answers h
  | todInputMessage => exact execTodInputMessage_answers h
  | hostFeedTrip => exact execHostFeedTrip_answers h
  | timePageEnable => exact execTimePageEnable_answers h
  | timePageWrite => exact execTimePageWrite_answers h
  | coreTimePageWrite => exact execCoreTimePageWrite_answers h
  | timeStatus => exact execTimeStatus_answers h
  | timeSrcSet => exact execTimeSrcSet_answers h
  | timeClockSet => exact execTimeClockSet_answers h
  | timePortSet => exact execTimePortSet_answers h
  | timeUnicastSet => exact execTimeUnicastSet_answers h
  | timeSet => exact execTimeSet_answers h
  | timeTodSet => exact execTimeTodSet_answers h
  | timeOutSet => exact execTimeOutSet_answers h
  | timeSynceQl => exact execTimeSynceQl_answers h
  | timeHoldSet => exact execTimeHoldSet_answers h
  | timeUtcSet => exact execTimeUtcSet_answers h
  | timeCalRead => exact execTimeCalRead_answers h
  | driveLinkUp => exact execDriveLinkUp_answers h
  | driveFailure => exact execDriveFailure_answers h
  | nvmeSqDoorbell => exact execNvmeSqDoorbell_answers h
  | nvmeCqDoorbell => exact execNvmeCqDoorbell_answers h
  | controllerReset => exact execControllerReset_answers h
  | shutdownNotification => exact execShutdownNotification_answers h
  | nvmeDeleteIoSq => exact execNvmeDeleteIoSq_answers h
  | nvmeDeleteIoCq => exact execNvmeDeleteIoCq_answers h
  | nvmeCreateIoSq => exact execNvmeCreateIoSq_answers h
  | nvmeCreateIoCq => exact execNvmeCreateIoCq_answers h
  | nvmeGetLogPage => exact execNvmeGetLogPage_answers h
  | nvmeIdentify => exact execNvmeIdentify_answers h
  | nvmeAbort => exact execNvmeAbort_answers h
  | nvmeSetFeatures => exact execNvmeSetFeatures_answers h
  | nvmeGetFeatures => exact execNvmeGetFeatures_answers h
  | nvmeAsyncEventRequest => exact execNvmeAsyncEventRequest_answers h
  | nvmeFlush => exact execNvmeFlush_answers h
  | nvmeWrite => exact execNvmeWrite_answers h
  | nvmeRead => exact execNvmeRead_answers h
  | nvmeWriteZeroes => exact execNvmeWriteZeroes_answers h
  | nvmeDatasetManagement => exact execNvmeDatasetManagement_answers h
  | reservationGrant => exact execReservationGrant_answers h
  | writeAcknowledge => exact execWriteAcknowledge_answers h
  | destageExtentDone => exact execDestageExtentDone_answers h
  | ledgerRecompute => exact execLedgerRecompute_answers h
  | overPersist => exact execOverPersist_answers h
  | vaultProbe => exact execVaultProbe_answers h
  | capacityTestStart => exact execCapacityTestStart_answers h
  | capacityTestEnd => exact execCapacityTestEnd_answers h
  | capacityTestAbandon => exact execCapacityTestAbandon_answers h
  | ledgerRecordWrite => exact execLedgerRecordWrite_answers h
  | vaultRestoreChunk => exact execVaultRestoreChunk_answers h
  | conduitDataRx => exact execConduitDataRx_answers h
  | conduitAckRx => exact execConduitAckRx_answers h
  | conduitNakRx => exact execConduitNakRx_answers h
  | conduitRto => exact execConduitRto_answers h
  | conduitRnrRetry => exact execConduitRnrRetry_answers h
  | poolStatus => exact execPoolStatus_answers h
  | driveAdmit => exact execDriveAdmit_answers h
  | driveRetire => exact execDriveRetire_answers h
  | driveFail => exact execDriveFail_answers h
  | volCreate => exact execVolCreate_answers h
  | volDelete => exact execVolDelete_answers h
  | volAttach => exact execVolAttach_answers h
  | volDetach => exact execVolDetach_answers h
  | volStatus => exact execVolStatus_answers h
  | cistStatus => exact execCistStatus_answers h
  | cistSet => exact execCistSet_answers h
  | cistTest => exact execCistTest_answers h
  | vaultStatus => exact execVaultStatus_answers h
  | cndConnSet => exact execCndConnSet_answers h
  | cndStatus => exact execCndStatus_answers h
  | volResync => exact execVolResync_answers h
  | reservoirRequest => exact execReservoirRequest_answers h
  | refreshDue => exact execRefreshDue_answers h
  | stackTempReading => exact execStackTempReading_answers h
  | patrolScrubStep => exact execPatrolScrubStep_answers h
  | hopReq => exact execHopReq_answers h
  | hopFree => exact execHopFree_answers h
  | build => exact execBuild_answers h
  | hopperBuildDone => exact execHopperBuildDone_answers h
  | bmvStart => exact execBmvStart_answers h
  | bmvAbort => exact execBmvAbort_answers h
  | bmvResume => exact execBmvResume_answers h
  | bmvBurst => exact execBmvBurst_answers h
  | bmvRestart => exact execBmvRestart_answers h
  | kcuClaim => exact execKcuClaim_answers h
  | kcuRelease => exact execKcuRelease_answers h
  | kcuStart => exact execKcuStart_answers h
  | kcuResult => exact execKcuResult_answers h
  | icrSaWrite => exact execIcrSaWrite_answers h
  | icrSaRead => exact execIcrSaRead_answers h
  | kekLoad => exact execKekLoad_answers h
  | espSaInstall => exact execEspSaInstall_answers h
  | espSaDelete => exact execEspSaDelete_answers h
  | espSaRead => exact execEspSaRead_answers h
  | macsecSaInstall => exact execMacsecSaInstall_answers h
  | macsecSaRetire => exact execMacsecSaRetire_answers h
  | bmvStatus => exact execBmvStatus_answers h
  | faultMessage => exact execFaultMessage_answers h
  | faultWindowEnd => exact execFaultWindowEnd_answers h
  | stickyClear => exact execStickyClear_answers h
  | watchdogKick => exact execWatchdogKick_answers h
  | watchdogExpiry => exact execWatchdogExpiry_answers h
  | aliveStart => exact execAliveStart_answers h
  | aliveToggle => exact execAliveToggle_answers h
  | pmcSelectWrite => exact execPmcSelectWrite_answers h
  | snap => exact execSnap_answers h
  | snapshotInstant => exact execSnapshotInstant_answers h
  | shadowSelect => exact execShadowSelect_answers h
  | backgroundOverdue => exact execBackgroundOverdue_answers h
  | backgroundHardBound => exact execBackgroundHardBound_answers h
  | parityScrubStep => exact execParityScrubStep_answers h
  | serdesAdaptation => exact execSerdesAdaptation_answers h
  | telemetryExport => exact execTelemetryExport_answers h
  | faultStatus => exact execFaultStatus_answers h
  | faultAck => exact execFaultAck_answers h
  | faultSevSet => exact execFaultSevSet_answers h
  | faultWindowSet => exact execFaultWindowSet_answers h
  | faultNotifySet => exact execFaultNotifySet_answers h
  | faultLogRead => exact execFaultLogRead_answers h
  | pmcSet => exact execPmcSet_answers h
  | pmcCtrl => exact execPmcCtrl_answers h
  | pmcRead => exact execPmcRead_answers h
  | telemSet => exact execTelemSet_answers h
  | bgStatus => exact execBgStatus_answers h
  | firmwareStarted => exact execFirmwareStarted_answers h
  | recoveryImage => exact execRecoveryImage_answers h
  | go => exact execGo_answers h
  | secStatus => exact execSecStatus_answers h
  | secChallenge => exact execSecChallenge_answers h
  | lcAdvance => exact execLcAdvance_answers h
  | debugUnlock => exact execDebugUnlock_answers h
  | imageWrite => exact execImageWrite_answers h
  | imageActivate => exact execImageActivate_answers h
  | svnCommit => exact execSvnCommit_answers h
  | measureRead => exact execMeasureRead_answers h
  | securityResultDue => exact execSecurityResultDue_answers h
  | nonceExpiry => exact execNonceExpiry_answers h
  | getVersion => exact execGetVersion_answers h
  | getCapabilities => exact execGetCapabilities_answers h
  | negotiateAlgorithms => exact execNegotiateAlgorithms_answers h
  | getDigests => exact execGetDigests_answers h
  | getCertificate => exact execGetCertificate_answers h
  | challenge => exact execChallenge_answers h
  | getMeasurements => exact execGetMeasurements_answers h
  | cisternOkChange => exact execCisternOkChange_answers h
  | railReading => exact execRailReading_answers h
  | smbusStuck => exact execSmbusStuck_answers h
  | driveLinkDown => exact execDriveLinkDown_answers h
  | rebuildExtentDone => exact execRebuildExtentDone_answers h
  | driveReadDone => exact execDriveReadDone_answers h
  | wearScan => exact execWearScan_answers h
  | leapSecond => exact execLeapSecond_answers h
  | oscInLost => exact execOscInLost_answers h
  | debugPortDisconnect => exact execDebugPortDisconnect_answers h
  | hostLinkRateChange => exact execHostLinkRateChange_answers h

end

/-- A step answers a next state: a tick of the state, or what the front command leaves of the state without it. -/
theorem step_answers (s : State) : Answers { s with pending := s.pending.tail } (step s) := by
  unfold step
  split
  · rename_i e
    have h : Kept { s with pending := s.pending.tail } s := ⟨⟨by simp [e], (canonical_iff s).mp⟩⟩
    exact answers_next.mpr (State.tick_kept h)
  · rename_i c rest e
    simpa only [e, List.tail_cons] using exec_answers c (Kept.refl { s with pending := rest })

/-- Settles O60: each command and the tick keep the canonical form, for every write goes through the tables' own `tput` and
`tdrop` or the memory's `putBytes`, or rebuilds a table from nothing. -/
theorem canonicalKept : Obligations.CanonicalKept := by
  unfold Obligations.CanonicalKept
  intro s u hs hu
  obtain ⟨t, ht, hk⟩ := step_answers s
  rw [hu] at ht
  cases ht
  exact hk.canonical hs

end Sys2Proof.Machine

namespace Sys2Proof.Machine

/-! ## Register writes (R11, R52 to R56) -/

/-! ### Fields of a register, set one after another -/

/-- The fields lie in a register's 32 bits, and no two of them meet. -/
def FieldsApart (l : List FieldDesc) : Prop :=
  (∀ f ∈ l, f.fld.lo ≤ f.fld.hi ∧ f.fld.hi < 32) ∧
    l.Pairwise fun f g => f.fld.hi < g.fld.lo ∨ g.fld.hi < f.fld.lo

/-- Each field set to what `g` says. -/
def setFields (g : FieldDesc → Nat) (l : List FieldDesc) (v : Nat) : Nat :=
  l.foldl (fun v f => setBits v f.fld.hi f.fld.lo (g f)) v

theorem setFields_lt {g : FieldDesc → Nat} {l : List FieldDesc} {v : Nat} (hl : FieldsApart l) (hv : v < 2 ^ 32) :
    setFields g l v < 2 ^ 32 := by
  induction l generalizing v with
  | nil => exact hv
  | cons f l ih =>
    obtain ⟨hw, hp⟩ := hl
    obtain ⟨hlo, hhi⟩ := hw f (by simp)
    exact ih ⟨fun e he => hw e (by simp [he]), (List.pairwise_cons.mp hp).2⟩ (setBits_lt _ _ _ _ _ hv hhi (by omega))

/-- A field that meets none of those set stays. -/
theorem bitsOf_setFields_ne {g : FieldDesc → Nat} {l : List FieldDesc} {v hi lo : Nat} (hl : FieldsApart l)
    (h : ∀ f ∈ l, hi < f.fld.lo ∨ f.fld.hi < lo) : bitsOf (setFields g l v) hi lo = bitsOf v hi lo := by
  induction l generalizing v with
  | nil => rfl
  | cons f l ih =>
    obtain ⟨hw, hp⟩ := hl
    have hf := hw f (by simp)
    rw [setFields, List.foldl_cons, ← setFields,
      ih ⟨fun e he => hw e (by simp [he]), (List.pairwise_cons.mp hp).2⟩ fun e he => h e (by simp [he]),
      bitsOf_setBits_ne _ _ _ _ _ _ (h f (by simp)) (by omega)]

theorem bitsOf_setFields {g : FieldDesc → Nat} {l : List FieldDesc} {v : Nat} (hl : FieldsApart l) {f : FieldDesc} (hf : f ∈ l) :
    bitsOf (setFields g l v) f.fld.hi f.fld.lo = g f % 2 ^ (f.fld.hi + 1 - f.fld.lo) := by
  induction l generalizing v with
  | nil => cases hf
  | cons e l ih =>
    obtain ⟨hw, hp⟩ := hl
    obtain ⟨he, hp⟩ := List.pairwise_cons.mp hp
    have hl : FieldsApart l := ⟨fun e he => hw e (by simp [he]), hp⟩
    rw [setFields, List.foldl_cons, ← setFields]
    obtain rfl | hf := List.mem_cons.mp hf
    · rw [bitsOf_setFields_ne hl he, bitsOf_setBits_same]
    · exact ih hl hf

theorem regAfterWrite_eq (locked : Bool) (d : RegDesc) (old new : Nat) :
    regAfterWrite locked d old new = setFields (fun f => fieldAfterWrite locked f old new) d.fields old := rfl

theorem regAfterAlias_eq (d : RegDesc) (k : AccKind) (old v : Nat) :
    regAfterAlias d k old v = setFields (fun f => if f.acc = .rw then fieldAfterWrite false f old (aliasValue k old v)
      else bitsOf old f.fld.hi f.fld.lo) d.fields old := rfl

/-- An RW field takes the value written where it accepts it (R11). -/
theorem fieldAfterWrite_of_rw {f : FieldDesc} (h : f.acc = .rw) (locked : Bool) (old new : Nat) :
    fieldAfterWrite locked f old new =
      if f.ok.takes (bitsOf new f.fld.hi f.fld.lo) then bitsOf new f.fld.hi f.fld.lo else bitsOf old f.fld.hi f.fld.lo := by
  unfold fieldAfterWrite
  rw [h]

theorem fieldAfterWrite_lt_of_rw {f : FieldDesc} (h : f.acc = .rw) (locked : Bool) (old new : Nat) :
    fieldAfterWrite locked f old new < 2 ^ (f.fld.hi + 1 - f.fld.lo) := by
  rw [fieldAfterWrite_of_rw h]
  split
  · exact bitsOf_lt _ _ _
  · exact bitsOf_lt _ _ _

theorem bitsOf_regAfterWrite {d : RegDesc} (hd : FieldsApart d.fields) {f : FieldDesc} (hf : f ∈ d.fields) (h : f.acc = .rw)
    (locked : Bool) (old new : Nat) : bitsOf (regAfterWrite locked d old new) f.fld.hi f.fld.lo =
      if f.ok.takes (bitsOf new f.fld.hi f.fld.lo) then bitsOf new f.fld.hi f.fld.lo else bitsOf old f.fld.hi f.fld.lo := by
  rw [regAfterWrite_eq, bitsOf_setFields hd hf, Nat.mod_eq_of_lt (fieldAfterWrite_lt_of_rw h _ _ _), fieldAfterWrite_of_rw h]

theorem bitsOf_regAfterAlias {d : RegDesc} (hd : FieldsApart d.fields) {f : FieldDesc} (hf : f ∈ d.fields) (h : f.acc = .rw)
    (k : AccKind) (old v : Nat) : bitsOf (regAfterAlias d k old v) f.fld.hi f.fld.lo =
      if f.ok.takes (bitsOf (aliasValue k old v) f.fld.hi f.fld.lo) then bitsOf (aliasValue k old v) f.fld.hi f.fld.lo
      else bitsOf old f.fld.hi f.fld.lo := by
  rw [regAfterAlias_eq, bitsOf_setFields hd hf, if_pos h, Nat.mod_eq_of_lt (fieldAfterWrite_lt_of_rw h _ _ _),
    fieldAfterWrite_of_rw h]

/-- A field below bit 32 does not see what a value holds above. -/
theorem bitsOf_mod {v hi lo : Nat} (h : hi < 32) (hl : lo ≤ hi) : bitsOf (v % 2 ^ 32) hi lo = bitsOf v hi lo := by
  refine Nat.eq_of_testBit_eq fun i => ?_
  by_cases hi' : i < hi + 1 - lo
  · rw [bitsOf_testBit _ _ _ _ hi', bitsOf_testBit _ _ _ _ hi', Nat.testBit_mod_two_pow, decide_eq_true (by omega), Bool.true_and]
  · have hw : 2 ^ (hi + 1 - lo) ≤ 2 ^ i := Nat.pow_le_pow_right (by omega) (by omega)
    rw [Nat.testBit_lt_two_pow (Nat.lt_of_lt_of_le (bitsOf_lt _ _ _) hw),
      Nat.testBit_lt_two_pow (Nat.lt_of_lt_of_le (bitsOf_lt _ _ _) hw)]

/-! ### Writes of the first PACE registers, which depend on nothing else -/

section
variable (s : State) {k : Nat} (hk : k ∈ [0x2_0000, 0x2_0004, 0x2_0008, 0x2_000C])
include hk

theorem State.resolve_pace : s.resolve .lk (.internal k) = some ⟨k, .write⟩ := by
  fin_cases hk <;> rfl

theorem State.couple_pace (a : AccKind) (o v n : Nat) : s.couple k a o v n = n := by
  fin_cases hk <;> rfl

theorem State.afterWrite_pace (o v : Nat) : s.afterWrite k o v = s := by
  fin_cases hk <;> rfl

theorem State.rowOf_pace (who : Master) (v : Nat) : s.rowOf who k v = none := by
  fin_cases hk <;> rfl

theorem State.isLocked_pace : s.isLocked k = false := by
  fin_cases hk <;> rfl

theorem keyDom_pace : keyDom k = 0 := by
  fin_cases hk <;> rfl

theorem memLike_pace : memLike k = none := by
  fin_cases hk <;> rfl

theorem nvmeKey_pace : nvmeKey k = false := by
  fin_cases hk <;> rfl

theorem State.unitExists_pace : s.unitExists k = true := by
  fin_cases hk <;> rfl

theorem State.msixOk_pace : s.msixOk k = true := by
  fin_cases hk <;> rfl

theorem State.shapeOk_pace (a : AccKind) (v : Nat) : s.shapeOk ⟨k, .write⟩ a 32 v = true := by
  fin_cases hk <;> cases a <;> rfl

theorem State.modeTakes_pace : s.modeTakes k = true := by
  fin_cases hk <;> rfl

theorem State.startFrozen_pace : s.startFrozen k = false := by
  fin_cases hk <;> rfl

theorem descAt_pace {d : RegDesc} (hd : descAt k = some d) : d ∈ regsPACE.take 4 := by
  have key : (descAt k).all (regsPACE.take 4).contains = true := by
    fin_cases hk <;> rfl
  simpa [hd] using key

omit hk in
theorem fieldsApart_pace {d : RegDesc} (hd : d ∈ regsPACE.take 4) : FieldsApart d.fields ∧ ∀ f ∈ d.fields, f.acc = .rw := by
  simp only [regsPACE, List.take_succ_cons, List.take_zero, List.mem_cons, List.not_mem_nil, or_false] at hd
  rcases hd with rfl | rfl | rfl | rfl <;>
    simp [FieldsApart, R.PACE_CTRL_POLICY, R.PACE_TARGET_TARGET, R.PACE_FOLLOW_FLOOR, R.PACE_FOLLOW_HEADROOM, R.PACE_CAP_CAP]

theorem State.granted_pace (a : AccKind) (v : Nat) (h0 : s.domOn 0 = true) : s.granted .lk ⟨k, .write⟩ a 32 v = true := by
  unfold State.granted
  rw [s.shapeOk_pace hk, keyDom_pace hk, h0, s.startFrozen_pace hk, s.modeTakes_pace hk]
  cases a <;> rfl

theorem State.writeWord_pace {d : RegDesc} (hd : descAt k = some d) (a : AccKind) (v : Nat) :
    s.writeWord k a v = s.wrW k (if a = .write then regAfterWrite false d (s.reg k).toNat v
      else regAfterAlias d a (s.reg k).toNat v) := by
  simp only [State.writeWord, hd, s.isLocked_pace hk, State.couple_pace _ hk, State.afterWrite_pace _ hk, Bool.false_and,
    Bool.false_eq_true, if_false]

/-- An access of the Lockkeeper that writes one of them lands at once. -/
theorem State.access_pace (a : AccKind) (ha : accIsRead a = false) (v : Nat) (h0 : s.domOn 0 = true)
    (hw : s.waitingOf .lk = []) :
    s.access .lk (.internal k) a 32 v = (s.writeWord k a (v % 2 ^ 32)).answer .ok := by
  have himg : (if a = .write then AccKind.write else a) = a := by
    split
    · exact Eq.symm ‹_›
    · rfl
  simp [State.access, s.resolve_pace hk, himg, s.granted_pace hk _ _ h0, keyDom_pace hk, pathDom, hw, State.land, h0, ha,
    State.writeNow, memLike_pace hk]

end

theorem exec_registerWrite (who : Master) (a : Addr) (size : Nat) (v : DWord) (s : State) :
    exec (.registerWrite who a size v) s = execRegisterWrite who a size v s := rfl

/-- A write that is no command of a register with rows of its own is an ordinary access. -/
theorem execRegisterWrite_of_rowOf_none {who : Master} {a : Addr} {size : Nat} {v : DWord} {s : State}
    (h : ∀ t, s.resolve who a = some t → size = 32 → t.kind = .write → s.granted who t .write size v.toNat = true →
      ((s.catchUp who).answer .ok).rowOf who t.key (v.toNat % 2 ^ 32) = none) :
    execRegisterWrite who a size v s = .next (s.access who a .write size v.toNat) := by
  unfold execRegisterWrite
  split
  · rename_i e
    simp [State.access, e]
  · rename_i t e
    split
    · rename_i hc
      simp only [Bool.and_eq_true, decide_eq_true_eq] at hc
      obtain ⟨⟨hs, hk⟩, hg⟩ := hc
      rw [h t e hs hk hg]
    · rfl

theorem registerWrite_pace (v : DWord) (s : State) (a : Nat) (d : RegDesc) (ha : a ∈ [0x2_0000, 0x2_0004, 0x2_0008, 0x2_000C])
    (h0 : s.domOn 0 = true) (hw : s.waitingOf .lk = []) (hd : descAt a = some d) :
    Gives (.registerWrite .lk (.internal a) 32 v) s fun t =>
      t = { s with regs := t.regs, reply := .ok } ∧ (∀ b, b ≠ a → t.reg b = s.reg b) ∧
      ∀ f ∈ d.fields, bitsOf (t.reg a).toNat f.fld.hi f.fld.lo =
        if f.ok.takes (bitsOf v.toNat f.fld.hi f.fld.lo) then bitsOf v.toNat f.fld.hi f.fld.lo
        else bitsOf (s.reg a).toNat f.fld.hi f.fld.lo := by
  obtain ⟨hap, hrw⟩ := fieldsApart_pace (descAt_pace ha hd)
  refine ⟨(s.wrW a (regAfterWrite false d (s.reg a).toNat (v.toNat % 2 ^ 32))).answer .ok, ?_, rfl, fun b hb => ?_,
    fun f hf => ?_⟩
  · rw [exec_registerWrite, execRegisterWrite_of_rowOf_none, s.access_pace ha _ rfl _ h0 hw, s.writeWord_pace ha hd, if_pos rfl]
    intro t ht _ _ _
    rw [s.resolve_pace ha] at ht
    cases ht
    exact State.rowOf_pace _ ha _ _
  · exact (s.reg_wrW _ _ _).trans (if_neg hb)
  · have hlt : regAfterWrite false d (s.reg a).toNat (v.toNat % 2 ^ 32) < 2 ^ 32 := setFields_lt hap (s.reg a).isLt
    obtain ⟨hl, hh⟩ := hap.1 f hf
    have hr : ((s.wrW a (regAfterWrite false d (s.reg a).toNat (v.toNat % 2 ^ 32))).answer .ok).reg a =
        BitVec.ofNat 32 (regAfterWrite false d (s.reg a).toNat (v.toNat % 2 ^ 32)) := (s.reg_wrW _ _ _).trans (if_pos rfl)
    rw [hr, BitVec.toNat_ofNat, Nat.mod_eq_of_lt hlt, bitsOf_regAfterWrite hap hf (hrw f hf), bitsOf_mod hh hl]

/-- A refused access changes nothing but its answer, but for a host's. -/
theorem State.refuse_of_not_host (s : State) {who : Master} (h : ∀ m f, who ≠ .host m f) : s.refuse who = s.answer .busError := by
  cases who with
  | host m f => exact absurd rfl (h m f)
  | _ => rfl

theorem State.access_of_not_granted {s : State} {who : Master} {a : Addr} {k : AccKind} {size v : Nat}
    (h : ∀ t, s.resolve who a = some t → s.granted who t k size v = false) : s.access who a k size v = s.refuse who := by
  unfold State.access
  split
  · rfl
  · rename_i t e
    simp [h t e]

/-- An access to another domain than its path's waits. -/
theorem State.access_of_slow {s : State} {who : Master} {a : Addr} {size v : Nat} {g : Target} (hr : s.resolve who a = some g)
    (hg : s.granted who g .write size v = true) (hd : keyDom g.key ≠ pathDom who) :
    s.access who a .write size v = { s with
      reply := .stalled,
      cross := s.cross ++ [{ who := who, key := g.key, kind := g.kind, size := size, v := v, slow := true, at_ := s.now, job := false }] } := by
  simp [State.access, hr, hg, hd, accIsRead, State.answer]

/-- Settles O2: a PACE register's write lands as each field takes it, and the two others end where `access` turns. -/
theorem registerWrites : Obligations.RegisterWrites := by
  unfold Obligations.RegisterWrites
  refine ⟨registerWrite_pace, fun who a size v s hh hg => ?_, fun who a size v s g hr hg hd hrow => ?_⟩
  · rw [exec_registerWrite, execRegisterWrite_of_rowOf_none, State.access_of_not_granted hg, s.refuse_of_not_host hh]
    · rfl
    · intro t ht _ _ hgt
      rw [hg t ht] at hgt
      cases hgt
  · rw [exec_registerWrite, execRegisterWrite_of_rowOf_none, State.access_of_slow hr hg hd]
    intro t ht hs hk _
    rw [hr] at ht
    cases ht
    exact hrow hs hk

end Sys2Proof.Machine

namespace Sys2Proof.Machine

/-! ## Alias writes (R57 to R59) -/

/-- The register of the worked example, PACE_CTRL (Table 2.9). -/
def paceCtrl : RegDesc := ⟨0x0, [], false, [⟨R.PACE_CTRL_POLICY, .rw, 0x0, .oneOf [0, 1, 2]⟩]⟩

theorem descAt_paceCtrl : descAt 0x2_0000 = some paceCtrl := rfl

theorem aliasOk_paceCtrl (v : Nat) : aliasOk paceCtrl v = (v &&& 3 == v) := rfl

theorem aliasWordsOk_paceCtrl {v : Nat} (h : v < 2 ^ 32) : aliasWordsOk 0x2_0000 32 v = decide (v < 4) := by
  have hm : v &&& 3 = v % 4 := Nat.and_two_pow_sub_one_eq_mod v 2
  simp only [aliasWordsOk, descAt_paceCtrl, aliasOk_paceCtrl, Nat.mod_eq_of_lt h, hm]
  by_cases hv : v < 4
  · simp [hv, Nat.mod_eq_of_lt hv]
  · have : v % 4 ≠ v := by omega
    simp [hv, this]

/-- An aliased write of PACE_CTRL is an access of that image where its value names POLICY alone, and refused otherwise. -/
theorem State.aliasAccess_paceCtrl (s : State) (k : AccKind) {v : DWord} (h : v.toNat < 2 ^ 32) :
    s.aliasAccess .lk (.internal 0x2_0000) k 32 v =
      if v.toNat < 4 then s.access .lk (.internal 0x2_0000) k 32 v.toNat else s.answer .busError := by
  have hr : s.resolve .lk (.internal 0x2_0000) = some ⟨0x2_0000, .write⟩ := rfl
  have hn : (decide (AccKind.write ≠ .write) || (memLike 0x2_0000).isSome || isCore .lk || nvmeKey 0x2_0000) = false := rfl
  simp only [State.aliasAccess, hr, hn, aliasWordsOk_paceCtrl h, Bool.false_or]
  by_cases hv : v.toNat < 4
  · simp [hv]
  · simp [hv, State.refuse]

theorem takes_policy (n : Nat) : (Accepts.oneOf [0, 1, 2]).takes n = decide (n ≤ 2) := by
  by_cases h : n ≤ 2
  · simp only [Accepts.takes, List.contains_iff_mem, h, decide_true]
    simp
    omega
  · simp only [Accepts.takes, h, decide_false]
    simp
    omega

/-- The read-modify-write of POLICY through one of its aliases. -/
theorem State.aliasAccess_policy (s : State) {k : AccKind} {v : DWord} {n : Nat} (hv : v.toNat < 4)
    (ha : accIsRead k = false) (hk : k ≠ .write) (h0 : s.domOn 0 = true) (hw : s.waitingOf .lk = [])
    (hn : bitsOf (aliasValue k (s.reg 0x2_0000).toNat v.toNat) 1 0 = n) :
    ∃ t, s.aliasAccess .lk (.internal 0x2_0000) k 32 v = t ∧ t = { s with regs := t.regs, reply := .ok } ∧
      (∀ b, b ≠ 0x2_0000 → t.reg b = s.reg b) ∧
      t.rd B.PACE R.PACE_CTRL_POLICY = if n ≤ 2 then n else s.rd B.PACE R.PACE_CTRL_POLICY := by
  have hmem : 0x2_0000 ∈ [0x2_0000, 0x2_0004, 0x2_0008, 0x2_000C] := by simp
  obtain ⟨hap, hrw⟩ := fieldsApart_pace (descAt_pace hmem descAt_paceCtrl)
  refine ⟨(s.wrW 0x2_0000 (regAfterAlias paceCtrl k (s.reg 0x2_0000).toNat v.toNat)).answer .ok, ?_, rfl, fun b hb => ?_, ?_⟩
  · rw [s.aliasAccess_paceCtrl k (by omega), if_pos hv, s.access_pace hmem k ha _ h0 hw,
      s.writeWord_pace hmem descAt_paceCtrl, if_neg hk, Nat.mod_eq_of_lt (by omega)]
  · exact (s.reg_wrW _ _ _).trans (if_neg hb)
  · have hlt : regAfterAlias paceCtrl k (s.reg 0x2_0000).toNat v.toNat < 2 ^ 32 := setFields_lt hap (s.reg 0x2_0000).isLt
    have hf : ⟨R.PACE_CTRL_POLICY, .rw, 0x0, .oneOf [0, 1, 2]⟩ ∈ paceCtrl.fields := List.mem_singleton_self _
    have hr := bitsOf_regAfterAlias hap hf rfl k (s.reg 0x2_0000).toNat v.toNat
    have hreg : ((s.wrW 0x2_0000 (regAfterAlias paceCtrl k (s.reg 0x2_0000).toNat v.toNat)).answer .ok).reg 0x2_0000 =
        BitVec.ofNat 32 (regAfterAlias paceCtrl k (s.reg 0x2_0000).toNat v.toNat) := (s.reg_wrW _ _ _).trans (if_pos rfl)
    have hrd (u : State) : u.rd B.PACE R.PACE_CTRL_POLICY = bitsOf (u.reg 0x2_0000).toNat 1 0 := rfl
    rw [hrd, hrd, hreg, BitVec.toNat_ofNat, Nat.mod_eq_of_lt hlt]
    refine hr.trans ?_
    simp only [takes_policy, decide_eq_true_eq]
    rw [← hn]
    rfl

theorem bitsOf_low (v : Nat) : bitsOf v 1 0 = v % 4 := by simp [bitsOf]

theorem policy_set {o v : Nat} (hv : v < 4) : bitsOf (aliasValue .set o v) 1 0 = bitsOf o 1 0 ||| v := by
  rw [bitsOf_low, bitsOf_low, aliasValue, show 4 = 2 ^ 2 from rfl, Nat.or_mod_two_pow, Nat.mod_eq_of_lt (a := v) hv]

theorem policy_toggle {o v : Nat} (hv : v < 4) : bitsOf (aliasValue .toggle o v) 1 0 = bitsOf o 1 0 ^^^ v := by
  rw [bitsOf_low, bitsOf_low, aliasValue, show 4 = 2 ^ 2 from rfl, Nat.xor_mod_two_pow, Nat.mod_eq_of_lt (a := v) hv]

theorem policy_clear {o v : Nat} (hv : v < 4) :
    bitsOf (aliasValue .clear o v) 1 0 = bitsOf o 1 0 - (bitsOf o 1 0 &&& v) := by
  have h1 : (o &&& v) % 4 = o % 4 &&& v := by
    rw [show 4 = 2 ^ 2 from rfl, Nat.and_mod_two_pow, Nat.mod_eq_of_lt (a := v) hv]
  have h2 : o &&& v ≤ v := Nat.and_le_right
  have h3 : o % 4 &&& v ≤ o % 4 := Nat.and_le_left
  have h4 : o &&& v ≤ o := Nat.and_le_left
  rw [bitsOf_low, bitsOf_low, aliasValue]
  omega

theorem exec_aliasSetWrite (who : Master) (a : Addr) (size : Nat) (v : DWord) (s : State) :
    exec (.aliasSetWrite who a size v) s = .next (s.aliasAccess who a .set size v) := rfl
theorem exec_aliasClearWrite (who : Master) (a : Addr) (size : Nat) (v : DWord) (s : State) :
    exec (.aliasClearWrite who a size v) s = .next (s.aliasAccess who a .clear size v) := rfl
theorem exec_aliasToggleWrite (who : Master) (a : Addr) (size : Nat) (v : DWord) (s : State) :
    exec (.aliasToggleWrite who a size v) s = .next (s.aliasAccess who a .toggle size v) := rfl

/-- Settles O3: the three images differ in what they make of POLICY alone. -/
theorem aliasWrites : Obligations.AliasWrites := by
  unfold Obligations.AliasWrites
  intro v s h0 hw
  refine ⟨fun hv => ⟨?_, ?_, ?_⟩, fun h4 h32 => ?_⟩
  · obtain ⟨t, e, ht⟩ := s.aliasAccess_policy (k := .set) hv rfl (by decide) h0 hw (policy_set hv)
    exact ⟨t, by rw [exec_aliasSetWrite, e], ht⟩
  · obtain ⟨t, e, ht⟩ := s.aliasAccess_policy (k := .clear) hv rfl (by decide) h0 hw (policy_clear hv)
    exact ⟨t, by rw [exec_aliasClearWrite, e], ht⟩
  · obtain ⟨t, e, ht⟩ := s.aliasAccess_policy (k := .toggle) hv rfl (by decide) h0 hw (policy_toggle hv)
    exact ⟨t, by rw [exec_aliasToggleWrite, e], ht⟩
  · have hn : ¬ v.toNat < 4 := by omega
    rw [exec_aliasSetWrite, exec_aliasClearWrite, exec_aliasToggleWrite]
    simp only [s.aliasAccess_paceCtrl _ h32, if_neg hn]
    exact ⟨rfl, rfl, rfl⟩

end Sys2Proof.Machine

namespace Sys2Proof.Machine

/-! ## Doorbells (R64, R66, R79) -/

theorem exec_mailboxDoorbell (m : Link) (g : Tag) (s : State) :
    exec (.mailboxDoorbell m g) s = execMailboxDoorbell m g s := rfl
theorem exec_coreMailboxDoorbell (n : CoreIx) (s : State) :
    exec (.coreMailboxDoorbell n) s = execCoreMailboxDoorbell n s := rfl

/-- With no access that waits there is none to catch up with. -/
theorem State.catchUp_of_idle {s : State} {who : Master} (h : s.waitingOf who = []) : s.catchUp who = s := by
  unfold State.catchUp
  rw [h]
  rfl

/-! ### The acceptance of a command (Table 3.9) -/

/-- The command has become the tag's last accepted command, and shows in flight. -/
def State.accepted (s : State) (q : Req) (c : Cmd) : State :=
  (({ s with cmdSeq := s.cmdSeq + 1 }).setTag q
    { s.tag q with cur := some { c with at_ := s.cmdSeq }, last := some (c.phase, c.mgen), fin := none }).setInflight q true

theorem State.tag_setInflight (s : State) (q r : Req) (b : Bool) : (s.setInflight q b).tag r = s.tag r := by
  cases q <;> rfl

theorem State.accepted_tag (s : State) (q r : Req) (c : Cmd) : (s.accepted q c).tag r = if r = q then
    { s.tag q with cur := some { c with at_ := s.cmdSeq }, last := some (c.phase, c.mgen), fin := none } else s.tag r := by
  rw [State.accepted, State.tag_setInflight, State.tag_setTag]
  rfl

theorem State.accepted_eq (s : State) (q : Req) (c : Cmd) :
    ∃ r ts, s.accepted q c = { s with regs := r, tags := ts, cmdSeq := s.cmdSeq + 1 } := by
  cases q <;> exact ⟨_, _, rfl⟩

theorem State.setInflight_reg (s : State) (q : Req) (b : Bool) (a : Nat)
    (h : ∀ m t, q = .host m t → a ≠ B.LKP m + R.LKP_HMB_INFLIGHT_TAGS.off) : (s.setInflight q b).reg a = s.reg a := by
  cases q with
  | host m t => exact (s.reg_wrW _ _ _).trans (if_neg (h m t rfl))
  | core n => rfl

theorem State.accepted_reg (s : State) (q : Req) (c : Cmd) (a : Nat)
    (h : ∀ m t, q = .host m t → a ≠ B.LKP m + R.LKP_HMB_INFLIGHT_TAGS.off) : (s.accepted q c).reg a = s.reg a :=
  State.setInflight_reg _ _ _ _ h

theorem State.mgen_congr {s t : State} {q : Req} (h : match q with
    | .host m _ => t.reg (B.LKP m + R.LKP_HMB_STATUS_MGEN.off) = s.reg (B.LKP m + R.LKP_HMB_STATUS_MGEN.off)
    | .core n => t.reg (B.CMB n + 0x204) = s.reg (B.CMB n + 0x204)) : t.mgen q = s.mgen q := by
  cases q with
  | host m g => exact State.rd_congr h
  | core n => exact State.rd_congr h

/-- The in-flight bit of the command does not bear on what Table 3.9 makes of it. -/
theorem State.accepted_doorbellStatus (s : State) (q : Req) (c : Cmd) (n : Nat) :
    (s.accepted q c).doorbellStatus q { c with at_ := n } = s.doorbellStatus q c := by
  have hg : (s.accepted q c).mgen q = s.mgen q := by
    apply State.mgen_congr
    cases q with
    | host m g =>
      exact s.accepted_reg _ _ _ fun m' t e => by
        cases e
        simp [R.LKP_HMB_INFLIGHT_TAGS, R.LKP_HMB_STATUS_MGEN]
    | core n => exact s.accepted_reg _ _ _ nofun
  have hm : (s.accepted q c).mode = s.mode := State.mode_congr (s.accepted_reg _ _ _ fun m t _ => by
    simp only [B.DEV, B.LKP]
    omega)
  simp only [State.doorbellStatus, hg, hm]

theorem State.accept_eq (s : State) (q : Req) (c : Cmd) : s.accept q c =
    match s.doorbellStatus q c with
    | some st => if st = St.REFUSED && c.opcode / 256 = 8 then (s.accepted q c).answerAt q c.opcode st []
        else (s.accepted q c).finish q st
    | none => (s.accepted q c).event none 6 := by
  rw [← s.accepted_doorbellStatus q c s.cmdSeq]
  rfl

/-- A command that is final at once. -/
theorem State.accept_final {s : State} {q : Req} {c : Cmd} {st : Nat} (h : s.doorbellStatus q c = some st)
    (hr : ¬ (st = St.REFUSED ∧ c.opcode / 256 = 8)) : s.accept q c = (s.accepted q c).finish q st := by
  rw [s.accept_eq, h]
  simp [hr]

/-- A command refused by the rules of class 0x08xx. -/
theorem State.accept_late {s : State} {q : Req} {c : Cmd} (h : s.doorbellStatus q c = some St.REFUSED)
    (hr : c.opcode / 256 = 8) : s.accept q c = (s.accepted q c).answerAt q c.opcode St.REFUSED [] := by
  rw [s.accept_eq, h]
  simp [hr]

theorem State.accept_runs {s : State} {q : Req} {c : Cmd} (h : s.doorbellStatus q c = none) :
    ∃ k f, s.accept q c = { s.accepted q c with cnts := k, flt := f } := by
  rw [s.accept_eq, h]
  exact State.event_eq _ _ _

/-- Whatever becomes of it, the command is the tag's last accepted command, and no other tag changes. -/
structure Accepted (s t : State) (q : Req) (c : Cmd) : Prop where
  last : (t.tag q).last = some (c.phase, c.mgen)
  others : ∀ r, r ≠ q → t.tag r = s.tag r
  seq : t.cmdSeq = s.cmdSeq + 1

theorem State.accepted_holds (s : State) (q : Req) (c : Cmd) : Accepted s (s.accepted q c) q c := by
  refine ⟨by rw [State.accepted_tag, if_pos rfl], fun r hr => by rw [State.accepted_tag, if_neg hr], ?_⟩
  obtain ⟨r, ts, e⟩ := s.accepted_eq q c
  rw [e]

theorem State.accepted_cur (s : State) (q : Req) (c : Cmd) :
    ((s.accepted q c).tag q).cur = some { c with at_ := s.cmdSeq } := by
  rw [State.accepted_tag, if_pos rfl]

/-- A tag's end after the acceptance. -/
theorem State.accepted_finish (s : State) (q : Req) (c : Cmd) (st : Nat) : Accepted s ((s.accepted q c).finish q st) q c ∧
    (((s.accepted q c).finish q st).tag q).cur = none ∧
    (((s.accepted q c).finish q st).tag q).fin = some (Final.mk' st 1000 []) := by
  have ha := s.accepted_holds q c
  have hc := s.accepted_cur q c
  have he := State.finishWith_ends _ q (Final.mk' st 1000 []) _ hc
  have ht := State.finishWith_tag _ q (Final.mk' st 1000 []) _ hc
  refine ⟨⟨?_, fun r hr => (he.rest.tags r hr).trans (ha.others r hr), ?_⟩, he.free, ?_⟩
  · exact (congrArg TagSt.last ht).trans ha.last
  · rw [State.finish, he.rest.rest]
    exact ha.seq
  · exact congrArg TagSt.fin ht

theorem State.accept_holds (s : State) (q : Req) (c : Cmd) : Accepted s (s.accept q c) q c := by
  have ha := s.accepted_holds q c
  cases h : s.doorbellStatus q c with
  | none =>
    obtain ⟨k, f, e⟩ := State.accept_runs h
    rw [e]
    exact ⟨ha.last, ha.others, ha.seq⟩
  | some st =>
    by_cases hr : st = St.REFUSED ∧ c.opcode / 256 = 8
    · obtain ⟨rfl, ho⟩ := hr
      rw [State.accept_late h ho]
      exact ⟨ha.last, ha.others, ha.seq⟩
    · rw [State.accept_final h hr]
      exact (s.accepted_finish q c st).1

/-- A host's command is never refused by its doorbell. -/
theorem State.doorbellStatus_host_ne (s : State) (m : Link) (g : Tag) (c : Cmd) :
    s.doorbellStatus (.host m g) c ≠ some St.REFUSED := by
  unfold State.doorbellStatus
  simp only [reqIsHost, Bool.not_true, Bool.false_and, Bool.false_eq_true, if_false]
  split_ifs <;> decide

theorem State.inflight_accepted (s : State) (m : Link) (g : Tag) (c : Cmd) :
    bitOf ((s.accepted (.host m g) c).reg (B.LKP m + R.LKP_HMB_INFLIGHT_TAGS.off)).toNat g = true := by
  have hr : (s.accepted (.host m g) c).reg (B.LKP m + R.LKP_HMB_INFLIGHT_TAGS.off) =
      BitVec.ofNat 32 (setBits (s.reg (B.LKP m + R.LKP_HMB_INFLIGHT_TAGS.off)).toNat g g (bit true)) :=
    (State.reg_wrW _ _ _ _).trans (if_pos rfl)
  rw [hr, BitVec.toNat_ofNat, Nat.mod_eq_of_lt (setBits_bit_lt _ _ _ (by omega)), bitOf_setBits_bit, if_pos rfl]

/-! ### A copy at a ready mailbox -/

section
variable {s : State} {q : Req} {c r : Cmd}

theorem State.doorbell_of_repeat (h : (s.tag q).cur = some r) (hr : r.phase = c.phase ∧ r.mgen = c.mgen) :
    s.doorbell q c = s := by
  simp [State.doorbell, h, hr]

theorem State.doorbell_of_busy (h : (s.tag q).cur = some r) (hr : ¬ (r.phase = c.phase ∧ r.mgen = c.mgen)) :
    s.doorbell q c = s.tagBusy q := by
  simp [State.doorbell, h, hr]

theorem State.doorbell_of_final {f : Final} (h : (s.tag q).cur = none) (hf : (s.tag q).fin = some f)
    (hl : (s.tag q).last = some (c.phase, c.mgen)) :
    s.doorbell q c = s.writeResult q c.phase c.mgen c.irq { f with status := St.DUPLICATE, retry := 0 } := by
  simp [State.doorbell, h, hf, hl]

theorem State.doorbell_of_free (h : (s.tag q).cur = none) (hf : (s.tag q).fin = none ∨ (s.tag q).last ≠ some (c.phase, c.mgen)) :
    s.doorbell q c = s.accept q c := by
  simp only [State.doorbell, h]
  split
  · rename_i f e
    rw [if_neg (hf.resolve_left (by simp [e]))]
  · rfl

end

theorem execMailboxDoorbell_of_ready {m : Link} {g : Tag} {s : State} (ha : s.answers m 0 = true)
    (hw : s.waitingOf (.host m 0) = []) (hr : s.flag (B.LKP m) R.LKP_HMB_STATUS_READY = true)
    (hn : s.flag (B.LKP m) R.LKP_HMB_STATUS_NORES = false) :
    exec (.mailboxDoorbell m g) s =
      .next (s.doorbell (.host m g) (Cmd.ofSlot (bytesAt s.mem (B.LKP m + 0x1000 + 0x100 * g) 256))) := by
  simp [exec_mailboxDoorbell, execMailboxDoorbell, State.catchUp_of_idle hw, ha, State.hostDoorbell, hr, hn]

theorem mailboxDoorbell_ignored (m : Link) (g : Tag) (s : State) (ha : s.answers m 0 = true) (hw : s.waitingOf (.host m 0) = [])
    (h : s.flag (B.LKP m) R.LKP_HMB_STATUS_READY = false ∨ s.flag (B.LKP m) R.LKP_HMB_STATUS_NORES = true) :
    exec (.mailboxDoorbell m g) s = .next (s.wrB (B.LKP m) R.LKP_HMB_STATUS_DB_IGNORED true) := by
  have hc : (!s.flag (B.LKP m) R.LKP_HMB_STATUS_READY || s.flag (B.LKP m) R.LKP_HMB_STATUS_NORES) = true := by
    rcases h with h | h <;> simp [h]
  rw [exec_mailboxDoorbell, execMailboxDoorbell, State.catchUp_of_idle hw]
  simp only [ha, if_true, State.hostDoorbell, hc]

/-- What the doorbell of a free tag of a host gives. -/
theorem mailboxDoorbell_accepts (m : Link) (g : Tag) (s : State) (c : Cmd) :
    let t := s.accept (.host m g) c
    (t.tag (.host m g)).last = some (c.phase, c.mgen) ∧ (∀ r, r ≠ .host m g → t.tag r = s.tag r) ∧ t.cmdSeq = s.cmdSeq + 1 ∧
      (c.mgen ≠ s.mgen (.host m g) → (t.tag (.host m g)).cur = none ∧
        (t.tag (.host m g)).fin = some ⟨0x0060, 0x0060, 0, []⟩) ∧
      (∀ st, s.doorbellStatus (.host m g) c = some st → (t.tag (.host m g)).cur = none ∧
        (t.tag (.host m g)).fin.map (·.status) = some st) ∧
      (s.doorbellStatus (.host m g) c = none → (t.tag (.host m g)).cur = some { c with at_ := s.cmdSeq } ∧ (t.tag (.host m g)).fin = none ∧
        bitOf (t.reg (B.LKP m + R.LKP_HMB_INFLIGHT_TAGS.off)).toNat g = true) := by
  intro t
  have ha : Accepted s t (.host m g) c := s.accept_holds _ c
  have hfin (st : Nat) (h : s.doorbellStatus (.host m g) c = some st) :
      (t.tag (.host m g)).cur = none ∧ (t.tag (.host m g)).fin = some (Final.mk' st 1000 []) := by
    have hr : ¬ (st = St.REFUSED ∧ c.opcode / 256 = 8) := fun e => s.doorbellStatus_host_ne m g c (h.trans (by rw [e.1]))
    have := (s.accepted_finish (.host m g) c st).2
    rwa [← State.accept_final h hr] at this
  refine ⟨ha.last, ha.others, ha.seq, fun hg => ?_, fun st h => ?_, fun h => ?_⟩
  · exact hfin St.ABORTED_RESET (by simp [State.doorbellStatus, hg])
  · obtain ⟨h1, h2⟩ := hfin st h
    exact ⟨h1, by rw [h2]; rfl⟩
  · obtain ⟨k, f, e⟩ := State.accept_runs h
    have htag : t.tag (.host m g) = (s.accepted (.host m g) c).tag (.host m g) := by rw [show t = _ from e]; rfl
    refine ⟨by rw [htag, State.accepted_cur], by rw [htag, State.accepted_tag, if_pos rfl], ?_⟩
    rw [show t = _ from e]
    exact s.inflight_accepted m g c

/-- What the doorbell of a core whose mailbox is ready gives where its tag is free. -/
theorem coreMailboxDoorbell_accepts (n : CoreIx) (s : State) (c : Cmd) :
    let t := s.accept (.core n) c
    (t.tag (.core n)).last = some (c.phase, c.mgen) ∧ (∀ r, r ≠ .core n → t.tag r = s.tag r) ∧
      (∀ st, s.doorbellStatus (.core n) c = some st → st ≠ 0x30 ∨ c.opcode / 256 ≠ 8 → (t.tag (.core n)).cur = none ∧
        (t.tag (.core n)).fin.map (·.status) = some st) ∧
      (s.doorbellStatus (.core n) c = some 0x30 → c.opcode / 256 = 8 → ∃ j, t.jobs = s.jobs ++ [j] ∧ j.q = .core n ∧ j.st = 0x30 ∧
        j.data = [] ∧ j.due = s.now + secTime c.opcode * 1000000) ∧
      (s.doorbellStatus (.core n) c = none → (t.tag (.core n)).cur = some { c with at_ := s.cmdSeq } ∧ (t.tag (.core n)).fin = none) := by
  intro t
  have ha : Accepted s t (.core n) c := s.accept_holds _ c
  refine ⟨ha.last, ha.others, fun st h hr => ?_, fun h hr => ?_, fun h => ?_⟩
  · have hn : ¬ (st = St.REFUSED ∧ c.opcode / 256 = 8) := fun e => hr.elim (fun h => h e.1) (fun h => h e.2)
    have hf := (s.accepted_finish (.core n) c st).2
    rw [← State.accept_final h hn] at hf
    exact ⟨hf.1, by rw [show (t.tag (.core n)).fin = _ from hf.2]; rfl⟩
  · have e : t = (s.accepted (.core n) c).answerAt (.core n) c.opcode St.REFUSED [] := State.accept_late h hr
    rw [e]
    exact ⟨_, rfl, rfl, rfl, rfl, rfl⟩
  · obtain ⟨k, f, e⟩ := State.accept_runs h
    have htag : t.tag (.core n) = (s.accepted (.core n) c).tag (.core n) := by rw [show t = _ from e]; rfl
    exact ⟨by rw [htag, State.accepted_cur], by rw [htag, State.accepted_tag, if_pos rfl]⟩

/-- Settles O5, by the row of Table 3.9 that takes the copy. -/
theorem doorbells : Obligations.Doorbells := by
  unfold Obligations.Doorbells
  refine ⟨mailboxDoorbell_ignored, ?_, ?_⟩
  · intro m g s c ha hw hr hn hc
    have he (t : State) (ht : s.doorbell (.host m g) c = t) : exec (.mailboxDoorbell m g) s = .next t := by
      rw [execMailboxDoorbell_of_ready ha hw hr hn, ← hc, ht]
    refine ⟨fun r h h' => ?_, fun r h h' => ?_, fun f h hf hl => ?_, fun h hf => ?_⟩
    · exact he _ (State.doorbell_of_repeat h h')
    · exact he _ (State.doorbell_of_busy h h')
    · exact he _ (State.doorbell_of_final h hf hl)
    · exact ⟨_, he _ (State.doorbell_of_free h hf), mailboxDoorbell_accepts m g s c⟩
  · intro n s c hd hw
    have he : exec (.coreMailboxDoorbell n) s = .next (s.coreDoorbell n) := by
      rw [exec_coreMailboxDoorbell, execCoreMailboxDoorbell, State.catchUp_of_idle hw]
      simp only [hd, if_true]
    refine ⟨fun hr => ?_, fun hr hc h hf => ⟨_, he, ?_⟩⟩
    · rw [he, State.coreDoorbell, show s.flag (B.CMB n) R.CMB_READY = false from hr]
      rfl
    · rw [State.coreDoorbell, if_pos (show s.flag (B.CMB n) R.CMB_READY = true from hr), ← hc, State.doorbell_of_free h hf]
      exact coreMailboxDoorbell_accepts n s c

end Sys2Proof.Machine

namespace Sys2Proof.Machine

/-! ## Mailbox events (R65, R69, R471) -/

/-! ### The registers of the result base (Table 3.6) -/

/-- LKP_HMB_RESBASE_LO and LKP_HMB_RESBASE_HI (Table 3.6). -/
def resbaseLo : RegDesc :=
  ⟨0x10, [], true, [⟨R.LKP_HMB_RESBASE_LO_ADDR_LO, .rw, 0x0, .any⟩, ⟨R.LKP_HMB_RESBASE_LO_EN, .rw, 0x0, .any⟩]⟩
def resbaseHi : RegDesc := ⟨0x14, [], false, [⟨R.LKP_HMB_RESBASE_HI_ADDR_HI, .rw, 0x0, .any⟩]⟩

/-- The register is one of the two that hold a mailbox's result base. -/
def IsResbase (m : Link) (k : Nat) : Prop := k = B.LKP m + 0x10 ∨ k = B.LKP m + 0x14

theorem fieldsApart_resbaseLo : FieldsApart resbaseLo.fields := by
  simp [FieldsApart, resbaseLo, R.LKP_HMB_RESBASE_LO_ADDR_LO, R.LKP_HMB_RESBASE_LO_EN]

theorem fieldsApart_resbaseHi : FieldsApart resbaseHi.fields := by
  simp [FieldsApart, resbaseHi, R.LKP_HMB_RESBASE_HI_ADDR_HI]

section
variable (s : State) (m : Link)

theorem descAt_resbaseLo : descAt (B.LKP m + 0x10) = some resbaseLo := by
  fin_cases m <;> rfl

theorem descAt_resbaseHi : descAt (B.LKP m + 0x14) = some resbaseHi := by
  fin_cases m <;> rfl

theorem State.afterWrite_resbaseLo (o v : Nat) : s.afterWrite (B.LKP m + 0x10) o v = s.updateNores m := by
  fin_cases m <;> rfl

theorem State.afterWrite_resbaseHi (o v : Nat) : s.afterWrite (B.LKP m + 0x14) o v = s := by
  fin_cases m <;> rfl

variable {m} {k : Nat} (hk : IsResbase m k)
include hk

theorem IsResbase.memLike : memLike k = none := by
  obtain rfl | rfl := hk <;> fin_cases m <;> rfl

theorem IsResbase.nvmeKey : nvmeKey k = false := by
  obtain rfl | rfl := hk <;> fin_cases m <;> rfl

theorem IsResbase.keyDom : keyDom k = 0 := by
  obtain rfl | rfl := hk <;> fin_cases m <;> rfl

theorem State.isLocked_resbase : s.isLocked k = false := by
  obtain rfl | rfl := hk <;> fin_cases m <;> rfl

theorem State.rowOf_resbase (who : Master) (v : Nat) : s.rowOf who k v = none := by
  obtain rfl | rfl := hk <;> fin_cases m <;> rfl

/-- R65: while a tag is in flight the register keeps its value. -/
theorem State.couple_resbase (a : AccKind) (o v n : Nat) :
    s.couple k a o v n = if s.reg (B.LKP m + R.LKP_HMB_INFLIGHT_TAGS.off) ≠ 0 then o else n := by
  have h : s.couple k a o v n = if decide (s.reg (B.LKP m + R.LKP_HMB_INFLIGHT_TAGS.off) ≠ 0) = true then o else n := by
    obtain rfl | rfl := hk <;> fin_cases m <;> rfl
  simpa only [decide_eq_true_eq] using h

end

/-- What a write of a result base register leaves in it. -/
def State.resbaseAfter (s : State) (m : Link) (d : RegDesc) (a : AccKind) (o v : Nat) : Nat :=
  if s.reg (B.LKP m + R.LKP_HMB_INFLIGHT_TAGS.off) ≠ 0 then o
  else if a = .write then regAfterWrite false d o v else regAfterAlias d a o v

theorem State.writeWord_resbaseLo (s : State) (m : Link) (a : AccKind) (v : Nat) : s.writeWord (B.LKP m + 0x10) a v =
    (s.wrW (B.LKP m + 0x10) (s.resbaseAfter m resbaseLo a (s.reg (B.LKP m + 0x10)).toNat v)).updateNores m := by
  have hk : IsResbase m (B.LKP m + 0x10) := .inl rfl
  simp only [State.writeWord, descAt_resbaseLo, s.isLocked_resbase hk, s.couple_resbase hk, State.afterWrite_resbaseLo,
    Bool.false_and, Bool.false_eq_true, if_false, State.resbaseAfter]

theorem State.writeWord_resbaseHi (s : State) (m : Link) (a : AccKind) (v : Nat) : s.writeWord (B.LKP m + 0x14) a v =
    s.wrW (B.LKP m + 0x14) (s.resbaseAfter m resbaseHi a (s.reg (B.LKP m + 0x14)).toNat v) := by
  have hk : IsResbase m (B.LKP m + 0x14) := .inr rfl
  simp only [State.writeWord, descAt_resbaseHi, s.isLocked_resbase hk, s.couple_resbase hk, State.afterWrite_resbaseHi,
    Bool.false_and, Bool.false_eq_true, if_false, State.resbaseAfter]

theorem State.updateNores_reg (s : State) (m b : Nat) (h : b ≠ B.LKP m + R.LKP_HMB_STATUS_NORES.off) :
    (s.updateNores m).reg b = s.reg b := s.reg_wrB _ _ _ _ h

/-- A register set to what it holds keeps its value. -/
theorem State.reg_wrW_self (s : State) (a b : Nat) : (s.wrW a (s.reg a).toNat).reg b = s.reg b := by
  rw [State.reg_wrW]
  split
  · rename_i e
    rw [e, BitVec.ofNat_toNat, BitVec.setWidth_eq]
  · rfl

/-- While a tag is in flight a write of the result base leaves every register but NORES's. -/
theorem State.writeWord_resbase_held {s : State} {m : Link} {k : Nat} (hk : IsResbase m k) (a : AccKind) (v b : Nat)
    (hi : s.reg (B.LKP m + R.LKP_HMB_INFLIGHT_TAGS.off) ≠ 0) (hb : b ≠ B.LKP m + R.LKP_HMB_STATUS_NORES.off) :
    (s.writeWord k a v).reg b = s.reg b := by
  obtain rfl | rfl := hk
  · rw [State.writeWord_resbaseLo, State.updateNores_reg _ _ _ hb, State.resbaseAfter, if_pos hi, State.reg_wrW_self]
  · rw [State.writeWord_resbaseHi, State.resbaseAfter, if_pos hi, State.reg_wrW_self]

/-! ### Messages that a function may send -/

/-- Function f of link m sends what it issues: the link is up, Bus Master Enable is 1, no FLR is under way (R259, R266). -/
structure State.sends (s : State) (m f : Nat) : Prop where
  up : s.linkUp m = true
  bme : (s.fn m f).bme = true
  flr : (s.fn m f).flrAt = none

theorem State.wake_linkUp (s : State) (m : Nat) : (s.wake m).linkUp m = s.linkUp m := by
  have hd : (s.wake m).domOn (domHP m) = s.domOn (domHP m) :=
    State.domOn_congr (s.wake_reg _ _ (by
      simp only [B.PWR, B.HPT, domHP]
      omega))
  have hf : (s.wake m).flag (B.HPT m) R.HPT_LINK_LINK_UP = s.flag (B.HPT m) R.HPT_LINK_LINK_UP := by
    unfold State.wake
    dsimp only
    rw [State.flag_congr (State.reg_congr (State.setLink_regs _ _ _) _)]
    split
    · exact State.flag_wr_ne _ _ _ _ _ _ (by decide) (by decide) (.inr (.inr (by decide)))
    · rfl
  rw [State.linkUp, State.linkUp, hd, hf]

theorem State.post_of_sends {s : State} {m f : Nat} (h : s.sends m f) (o : Out) : s.post m f o = (s.emit o).wake m := by
  simp [State.post, h.up, h.bme, h.flr]

theorem State.link_setLink_same (s : State) (m : Nat) (l : LinkSt) : (s.setLink m l).link m = l := tget_tput_same _ _ _ _

theorem State.wake_maxPayload (s : State) (m : Nat) : (s.wake m).maxPayload m = s.maxPayload m := by
  unfold State.wake
  extract_lets b s1
  have hl : s1.links = s.links := by
    unfold s1
    split
    · exact State.wr_links _ _ _ _
    · rfl
  have hm : s1.link m = s.link m := by
    unfold State.link
    rw [hl]
  rw [State.maxPayload, State.maxPayload, State.link_setLink_same]
  exact congrArg (fun l => 128 * 2 ^ min l.mps 2) hm

/-- A message sent leaves the function able to send. -/
theorem State.sends.post {s : State} {m f : Nat} (h : s.sends m f) (o : Out) : (s.post m f o).sends m f := by
  rw [State.post_of_sends h]
  have hf : ((s.emit o).wake m).fn m f = s.fn m f := by
    obtain ⟨r, l, e⟩ := (s.emit o).wake_eq m
    rw [e]
    rfl
  exact ⟨(State.wake_linkUp _ _).trans h.up, by rw [hf, h.bme], by rw [hf, h.flr]⟩

theorem State.post_out {s : State} {m f : Nat} (h : s.sends m f) (o : Out) : (s.post m f o).out = s.out ++ [o] := by
  rw [State.post_of_sends h]
  obtain ⟨r, l, e⟩ := (s.emit o).wake_eq m
  rw [e]
  rfl

theorem State.post_maxPayload {s : State} {m f : Nat} (h : s.sends m f) (o : Out) :
    (s.post m f o).maxPayload m = s.maxPayload m := by
  rw [State.post_of_sends h, State.wake_maxPayload]
  rfl

/-- A write that fits one request is one request. -/
theorem pieces_of_short {max addr n : Nat} (h0 : n ≠ 0) (hm : n ≤ max) (hp : addr % 4096 + n ≤ 4096) :
    pieces max n addr n = [(addr, n)] := by
  obtain ⟨k, rfl⟩ := Nat.exists_eq_succ_of_ne_zero h0
  have hl : pieceLen max addr (k + 1) = k + 1 := by
    unfold pieceLen
    omega
  have hr : ∀ j a, pieces max j a 0 = [] := fun j a => by cases j <;> simp [pieces]
  simp [pieces, hl, hr]

theorem State.maxPayload_ge (s : State) (m : Nat) : 128 ≤ s.maxPayload m :=
  Nat.le_mul_of_pos_right 128 (Nat.two_pow_pos _)

theorem State.postWrite_of_short (s : State) (m f addr : Nat) {d : List Byte} (h0 : d.length ≠ 0) (hl : d.length ≤ 128)
    (hp : addr % 4096 + d.length ≤ 4096) : s.postWrite m f addr d = s.post m f (.write m f addr d) := by
  rw [State.postWrite, pieces_of_short h0 (le_trans hl (s.maxPayload_ge m)) hp]
  simp

/-- The slot of a tag's result lies in one page. -/
theorem slot_mod (b : Nat) (g : Tag) : (b / 4096 * 4096 + g * 0x100) % 4096 = g * 0x100 := by
  omega

/-! ### Progress headers -/

theorem exec_progressHeader (q : Req) (k : Nat) (s : State) : exec (.progressHeader q k) s = execProgressHeader q k s := rfl
theorem exec_resbaseWrite (m : Link) (lo hi : Option Word) (s : State) :
    exec (.resbaseWrite m lo hi) s = execResbaseWrite m lo hi s := rfl
theorem exec_oldCommandSettled (q : Req) (e : Bool) (s : State) :
    exec (.oldCommandSettled q e) s = execOldCommandSettled q e s := rfl

/-- PROGRESS of a command, with no job of class 0x08xx that carries it on, and with the one job that does. -/
theorem State.progressOf_plain {s : State} {q : Req} {c : Cmd} (k : Nat)
    (h : ∀ j ∈ s.jobs, ¬ (j.q = q ∧ j.mgen = c.mgen ∧ j.opcode / 256 = 8)) : s.progressOf q c k = min k 100 := by
  have hn : (s.jobs.find? fun j => j.q = q && j.mgen = c.mgen && j.opcode / 256 = 8) = none := by
    rw [List.find?_eq_none]
    intro j hj
    simpa [and_assoc] using h j hj
  rw [State.progressOf, hn]
  simp only [sat_eq_min, Nat.min_comm]

theorem State.progressOf_timed {s : State} {q : Req} {c : Cmd} (k : Nat) {j : Job} (hj : s.jobs = [j]) (hq : j.q = q)
    (hg : j.mgen = c.mgen) (ho : j.opcode / 256 = 8) : s.progressOf q c k =
      min 100 (100 * (s.now + secTime j.opcode * 1000000 - j.due) / (secTime j.opcode * 1000000)) := by
  have hs : (s.jobs.find? fun j => j.q = q && j.mgen = c.mgen && j.opcode / 256 = 8) = some j := by simp [hj, hq, hg, ho]
  rw [State.progressOf, hs]
  simp only [sat_eq_min, ms]

theorem resultWord0_inProgress (g p v : Nat) : resultWord0 St.IN_PROGRESS g p v = 0x1_0000 + g * 256 + p * 128 + v := by
  simp [resultWord0, St.IN_PROGRESS]

theorem progressHeader_host (m : Link) (g : Tag) (k v : Nat) (s : State) (c : Cmd) (hc : (s.tag (.host m g)).cur = some c)
    (hs : s.sends m 0) (hv : s.progressOf (.host m g) c k = v) :
    Gives (.progressHeader (.host m g) k) s fun t =>
      t = { s with out := s.out ++ [.write m 0 (s.pair (B.LKP m + 0x10) / 4096 * 4096 + g * 0x100)
              (leBytes 4 (0x1_0000 + g * 256 + c.phase * 128 + v))], regs := t.regs, links := t.links } ∧
      ∀ a, a ≠ B.HPT m + R.HPT_LINK_PM.off → t.reg a = s.reg a := by
  let o : Out := .write m 0 (s.pair (B.LKP m + 0x10) / 4096 * 4096 + g * 0x100)
    (leBytes 4 (0x1_0000 + g * 256 + c.phase * 128 + v))
  have hslot := slot_mod (s.pair (B.LKP m + 0x10)) g
  refine ⟨(s.emit o).wake m, ?_, ?_, fun a ha => State.wake_reg _ _ _ ha⟩
  · rw [exec_progressHeader, execProgressHeader, hc]
    simp only [hv, resultWord0_inProgress, reqTag]
    rw [State.postWrite_of_short s _ _ _ (by simp [leBytes_length]) (by simp [leBytes_length])
      (by rw [leBytes_length]; omega), State.post_of_sends hs]
  · obtain ⟨r, l, e⟩ := (s.emit o).wake_eq m
    rw [e]
    rfl

theorem progressHeader_core (n : CoreIx) (k v : Nat) (s : State) (c : Cmd) (hc : (s.tag (.core n)).cur = some c)
    (hv : s.progressOf (.core n) c k = v) : exec (.progressHeader (.core n) k) s = .next { s with
      mem := putBytes s.mem (B.CMB n + 0x100) (leBytes 4 (0x1_0000 + c.phase * 128 + v)) } := by
  rw [exec_progressHeader, execProgressHeader, hc]
  simp only [hv, resultWord0_inProgress, reqTag, Nat.zero_mul, Nat.add_zero]

/-! ### The result base -/

theorem execResbaseWrite_of_answers {m : Link} {s : State} (lo hi : Option Word) (ha : s.answers m 0 = true)
    (hw : s.waitingOf (.host m 0) = []) : execResbaseWrite m lo hi s =
      .next ((hi.elim (lo.elim s fun v => s.writeWord (B.LKP m + 0x10) .write v.toNat) fun v =>
        (lo.elim s fun v => s.writeWord (B.LKP m + 0x10) .write v.toNat).writeWord (B.LKP m + 0x14) .write v.toNat).answer .ok) := by
  rw [execResbaseWrite, State.catchUp_of_idle hw]
  simp only [ha, if_true]
  cases lo <;> cases hi <;> rfl

theorem resbaseWrite_held (m : Link) (lo hi : Option Word) (s : State) (ha : s.answers m 0 = true)
    (hw : s.waitingOf (.host m 0) = []) (hi' : s.reg (B.LKP m + R.LKP_HMB_INFLIGHT_TAGS.off) ≠ 0) :
    Gives (.resbaseWrite m lo hi) s fun t =>
      t.reply = .ok ∧ ∀ b, b ≠ B.LKP m + R.LKP_HMB_STATUS_NORES.off → t.reg b = s.reg b := by
  refine ⟨_, by rw [exec_resbaseWrite, execResbaseWrite_of_answers lo hi ha hw], rfl, fun b hb => ?_⟩
  have h1 (b : Nat) (hb : b ≠ B.LKP m + R.LKP_HMB_STATUS_NORES.off) :
      (lo.elim s fun v => s.writeWord (B.LKP m + 0x10) .write v.toNat).reg b = s.reg b := by
    cases lo with
    | none => rfl
    | some v => exact State.writeWord_resbase_held (.inl rfl) _ _ _ hi' hb
  cases hi with
  | none => exact h1 b hb
  | some v =>
    refine (State.writeWord_resbase_held (.inr rfl) _ _ _ ?_ hb).trans (h1 b hb)
    rwa [h1 _ (by simp [R.LKP_HMB_INFLIGHT_TAGS, R.LKP_HMB_STATUS_NORES])]

theorem bitsOf_word (v : Word) : bitsOf v.toNat 31 0 = v.toNat := by
  have := v.isLt
  simp [bitsOf, Nat.mod_eq_of_lt this]

theorem bitOf_eq_bitsOf (v i : Nat) : bitOf v i = (bitsOf v i i == 1) := by
  simp [bitOf, bitsOf]

theorem State.reg_answer (s : State) (r : Reply) (a : Nat) : (s.answer r).reg a = s.reg a := rfl

/-- Both words of RESBASE written, NORES after the first. -/
def State.resbaseWritten (s : State) (m : Link) (newLo newHi : Nat) : State :=
  (((s.wrW (B.LKP m + 0x10) newLo).updateNores m).wrW (B.LKP m + 0x14) newHi).answer .ok

theorem State.resbaseWritten_eq (s : State) (m : Link) (l h : Nat) :
    ∃ r, s.resbaseWritten m l h = { s with regs := r, reply := .ok } := by
  obtain ⟨r1, e1⟩ := s.wrW_eq (B.LKP m + 0x10) l
  obtain ⟨r2, e2⟩ := (s.wrW (B.LKP m + 0x10) l).wrB_eq (B.LKP m) R.LKP_HMB_STATUS_NORES
    (!(s.wrW (B.LKP m + 0x10) l).flag (B.LKP m) R.LKP_HMB_RESBASE_LO_EN)
  obtain ⟨r3, e3⟩ := ((s.wrW (B.LKP m + 0x10) l).updateNores m).wrW_eq (B.LKP m + 0x14) h
  rw [State.resbaseWritten, e3, State.updateNores, e2, e1]
  exact ⟨r3, rfl⟩

theorem State.reg_resbaseWritten (s : State) (m : Link) (l h b : Nat) : (s.resbaseWritten m l h).reg b =
    if b = B.LKP m + 0x14 then BitVec.ofNat 32 h else ((s.wrW (B.LKP m + 0x10) l).updateNores m).reg b := by
  rw [State.resbaseWritten, State.reg_answer, State.reg_wrW]

theorem State.resbaseWritten_lo (s : State) (m : Link) (l h : Nat) :
    (s.resbaseWritten m l h).reg (B.LKP m + 0x10) = BitVec.ofNat 32 l := by
  rw [State.reg_resbaseWritten, if_neg (by simp), State.updateNores_reg _ _ _ (by simp [R.LKP_HMB_STATUS_NORES]),
    State.reg_wrW, if_pos rfl]

theorem State.resbaseWritten_others (s : State) (m : Link) (l h a : Nat)
    (ha : a ∉ [B.LKP m + 0x10, B.LKP m + 0x14, B.LKP m + R.LKP_HMB_STATUS_NORES.off]) :
    (s.resbaseWritten m l h).reg a = s.reg a := by
  simp only [List.mem_cons, List.not_mem_nil, or_false, not_or] at ha
  obtain ⟨h10, h14, h8⟩ := ha
  rw [State.reg_resbaseWritten, if_neg h14, State.updateNores_reg _ _ _ h8, State.reg_wrW, if_neg h10]

/-- NORES follows EN of the word written. -/
theorem State.resbaseWritten_nores (s : State) (m : Link) (l h : Nat) :
    (s.resbaseWritten m l h).flag (B.LKP m) R.LKP_HMB_STATUS_NORES =
      !(s.resbaseWritten m l h).flag (B.LKP m) R.LKP_HMB_RESBASE_LO_EN := by
  have he : (s.wrW (B.LKP m + 0x10) l).flag (B.LKP m) R.LKP_HMB_RESBASE_LO_EN =
      (s.resbaseWritten m l h).flag (B.LKP m) R.LKP_HMB_RESBASE_LO_EN := by
    refine State.flag_congr (Eq.trans ?_ (s.resbaseWritten_lo m l h).symm)
    exact (State.reg_wrW _ _ _ _).trans (if_pos rfl)
  rw [State.flag_congr (s := (s.wrW (B.LKP m + 0x10) l).updateNores m)
    (by rw [State.reg_resbaseWritten, if_neg (by simp [R.LKP_HMB_STATUS_NORES])]), State.updateNores,
    State.flag_wrB_same _ _ _ _ (by decide) (by decide), he]

/-- What both words hold after a write with no tag in flight. -/
theorem exec_resbaseWrite_of_free {m : Link} {s : State} (lo hi : Word) (ha : s.answers m 0 = true)
    (hw : s.waitingOf (.host m 0) = []) (hi' : s.reg (B.LKP m + R.LKP_HMB_INFLIGHT_TAGS.off) = 0) :
    exec (.resbaseWrite m (some lo) (some hi)) s =
      .next (s.resbaseWritten m (regAfterWrite false resbaseLo (s.reg (B.LKP m + 0x10)).toNat lo.toNat)
        (regAfterWrite false resbaseHi (s.reg (B.LKP m + 0x14)).toNat hi.toNat)) := by
  have hr (l b : Nat) (h10 : b ≠ B.LKP m + 0x10) (h8 : b ≠ B.LKP m + R.LKP_HMB_STATUS_NORES.off) :
      ((s.wrW (B.LKP m + 0x10) l).updateNores m).reg b = s.reg b := by
    rw [State.updateNores_reg _ _ _ h8, State.reg_wrW, if_neg h10]
  have h24 (l : Nat) : ((s.wrW (B.LKP m + 0x10) l).updateNores m).reg (B.LKP m + R.LKP_HMB_INFLIGHT_TAGS.off) = 0 := by
    rw [hr _ _ (by simp [R.LKP_HMB_INFLIGHT_TAGS]) (by simp [R.LKP_HMB_INFLIGHT_TAGS, R.LKP_HMB_STATUS_NORES]), hi']
  have h14 (l : Nat) : ((s.wrW (B.LKP m + 0x10) l).updateNores m).reg (B.LKP m + 0x14) = s.reg (B.LKP m + 0x14) :=
    hr _ _ (by simp) (by simp [R.LKP_HMB_STATUS_NORES])
  rw [exec_resbaseWrite, execResbaseWrite_of_answers _ _ ha hw, State.resbaseWritten]
  simp only [Option.elim]
  rw [State.writeWord_resbaseLo, State.resbaseAfter, if_neg (not_not.mpr hi'), if_pos rfl, State.writeWord_resbaseHi,
    State.resbaseAfter, if_neg (not_not.mpr (h24 _)), if_pos rfl, h14]

theorem resbaseLo_field {f : FieldDesc} (hf : f ∈ resbaseLo.fields) (hr : f.acc = .rw) (hok : f.ok = .any) (o : Word) (v : Nat) :
    bitsOf (BitVec.ofNat 32 (regAfterWrite false resbaseLo o.toNat v)).toNat f.fld.hi f.fld.lo = bitsOf v f.fld.hi f.fld.lo := by
  have hlt : regAfterWrite false resbaseLo o.toNat v < 2 ^ 32 := setFields_lt fieldsApart_resbaseLo o.isLt
  rw [BitVec.toNat_ofNat, Nat.mod_eq_of_lt hlt,
    bitsOf_regAfterWrite fieldsApart_resbaseLo hf hr, hok]
  rfl

theorem resbaseHi_word (o v : Word) : BitVec.ofNat 32 (regAfterWrite false resbaseHi o.toNat v.toNat) = v := by
  have hf : ⟨R.LKP_HMB_RESBASE_HI_ADDR_HI, .rw, 0x0, .any⟩ ∈ resbaseHi.fields := List.mem_singleton_self _
  have hlt : regAfterWrite false resbaseHi o.toNat v.toNat < 2 ^ 32 := setFields_lt fieldsApart_resbaseHi o.isLt
  have h := bitsOf_regAfterWrite fieldsApart_resbaseHi hf rfl false o.toNat v.toNat
  have hw := bitsOf_word (BitVec.ofNat 32 (regAfterWrite false resbaseHi o.toNat v.toNat))
  rw [BitVec.toNat_ofNat, Nat.mod_eq_of_lt hlt] at hw
  rw [hw.symm.trans (h.trans (bitsOf_word v)), BitVec.ofNat_toNat, BitVec.setWidth_eq]

/-- RESBASE written with no tag in flight. -/
theorem resbaseWrite_free (m : Link) (lo hi : Word) (s : State) (ha : s.answers m 0 = true)
    (hw : s.waitingOf (.host m 0) = []) (hi' : s.reg (B.LKP m + R.LKP_HMB_INFLIGHT_TAGS.off) = 0) :
    Gives (.resbaseWrite m (some lo) (some hi)) s fun t =>
      t = { s with regs := t.regs, reply := .ok } ∧
      t.rd (B.LKP m) R.LKP_HMB_RESBASE_LO_ADDR_LO = bitsOf lo.toNat R.LKP_HMB_RESBASE_LO_ADDR_LO.hi R.LKP_HMB_RESBASE_LO_ADDR_LO.lo ∧
      t.reg (B.LKP m + 0x14) = hi ∧ t.flag (B.LKP m) R.LKP_HMB_RESBASE_LO_EN = bitOf lo.toNat 0 ∧
      t.flag (B.LKP m) R.LKP_HMB_STATUS_NORES = !bitOf lo.toNat 0 ∧
      ∀ a, a ∉ [B.LKP m + 0x10, B.LKP m + 0x14, B.LKP m + R.LKP_HMB_STATUS_NORES.off] → t.reg a = s.reg a := by
  have hEn (h : Nat) : (s.resbaseWritten m (regAfterWrite false resbaseLo (s.reg (B.LKP m + 0x10)).toNat lo.toNat) h).flag (B.LKP m)
      R.LKP_HMB_RESBASE_LO_EN = bitOf lo.toNat 0 := by
    rw [bitOf_eq_bitsOf, State.flag, State.rd, show B.LKP m + R.LKP_HMB_RESBASE_LO_EN.off = B.LKP m + 0x10 from rfl,
      State.resbaseWritten_lo]
    exact congrArg (· == 1) (resbaseLo_field (f := ⟨R.LKP_HMB_RESBASE_LO_EN, .rw, 0x0, .any⟩) (by simp [resbaseLo]) rfl rfl _ _)
  refine ⟨_, exec_resbaseWrite_of_free lo hi ha hw hi', ?_, ?_, ?_, ?_, ?_, ?_⟩
  · obtain ⟨r, e⟩ := s.resbaseWritten_eq m (regAfterWrite false resbaseLo (s.reg (B.LKP m + 0x10)).toNat lo.toNat)
      (regAfterWrite false resbaseHi (s.reg (B.LKP m + 0x14)).toNat hi.toNat)
    rw [e]
  · rw [State.rd, show B.LKP m + R.LKP_HMB_RESBASE_LO_ADDR_LO.off = B.LKP m + 0x10 from rfl, State.resbaseWritten_lo]
    exact resbaseLo_field (f := ⟨R.LKP_HMB_RESBASE_LO_ADDR_LO, .rw, 0x0, .any⟩) (by simp [resbaseLo]) rfl rfl _ _
  · rw [State.reg_resbaseWritten, if_pos rfl, resbaseHi_word]
  · exact hEn _
  · rw [State.resbaseWritten_nores, hEn]
  · exact s.resbaseWritten_others _ _ _

/-! ### Commands of the old generation -/

section
variable {s : State} {q : Req} {o : OldTag}

theorem oldCommandSettled_of_effect (h : (s.tag q).old = some o) : exec (.oldCommandSettled q true) s = .next s := by
  simp [exec_oldCommandSettled, execOldCommandSettled, h]

/-- A command that no job carries on is settled without effect. -/
theorem oldCommandSettled_of_idle (h : (s.tag q).old = some o) (hs : o.settled = none)
    (hj : s.jobs.all (fun j => !(j.q = q && j.mgen = o.mgen)) = true) : exec (.oldCommandSettled q false) s =
      .next (s.setTag q { s.tag q with old := some { o with settled := some (0x0060, 0) } }) := by
  have hn : (s.jobs.find? fun j => j.q = q && j.mgen = o.mgen) = none := by
    rw [List.find?_eq_none]
    intro j hj'
    simpa [imp_iff_not_or] using List.all_eq_true.mp hj j hj'
  simp [exec_oldCommandSettled, execOldCommandSettled, h, hs, hn, State.settleOld, St.ABORTED_RESET]

/-- One that does not roll back goes on. -/
theorem oldCommandSettled_of_job {j : Job} (h : (s.tag q).old = some o) (hj : s.jobs = [j]) (hq : j.q = q)
    (hg : j.mgen = o.mgen) (hr : s.rollsBack j.opcode = false) : exec (.oldCommandSettled q false) s = .next s := by
  have hs : (s.jobs.find? fun j => j.q = q && j.mgen = o.mgen) = some j := by simp [hj, hq, hg]
  simp only [exec_oldCommandSettled, execOldCommandSettled, h, hs, hr]
  simp

end

/-- Settles O6, event by event. -/
theorem mailboxEvents : Obligations.MailboxEvents := by
  unfold Obligations.MailboxEvents
  intro shows
  have hv {s : State} {q : Req} {c : Cmd} {k v : Nat} (h : shows s q c k v) : s.progressOf q c k = v := by
    obtain ⟨hn, rfl⟩ | ⟨j, hj, hq, hg, ho, rfl⟩ := h
    · exact State.progressOf_plain k hn
    · exact State.progressOf_timed k hj hq hg ho
  refine ⟨?_, ?_, resbaseWrite_free, ?_, ?_⟩
  · intro m g k v s c hc hu hb hf hs
    exact progressHeader_host m g k v s c hc ⟨hu, hb, hf⟩ (hv hs)
  · intro n k v s c hc hs
    exact progressHeader_core n k v s c hc (hv hs)
  · intro m lo hi s ha hw hi'
    obtain ⟨t, e, hr, hreg⟩ := resbaseWrite_held m lo hi s ha hw hi'
    refine ⟨t, e, ?_, hr⟩
    rw [State.pair, State.pair, hreg _ (by simp [R.LKP_HMB_STATUS_NORES]), hreg _ (by simp [R.LKP_HMB_STATUS_NORES])]
  · intro q s o ho hs
    exact ⟨oldCommandSettled_of_effect ho, oldCommandSettled_of_idle ho hs, fun j hj hq hg hr =>
      oldCommandSettled_of_job ho hj hq hg hr⟩

end Sys2Proof.Machine

namespace Sys2Proof.Machine

/-! ## The result area (R65) -/

/-! ### Writes of the result base while a tag is in flight -/

/-- Both words of a mailbox's result base are what they were. -/
def ResbaseSame (s u : State) (m : Link) : Prop :=
  u.reg (B.LKP m + 0x10) = s.reg (B.LKP m + 0x10) ∧ u.reg (B.LKP m + 0x14) = s.reg (B.LKP m + 0x14)

theorem ResbaseSame.of_reg {s u : State} {m : Link}
    (h : ∀ b, b ≠ B.LKP m + R.LKP_HMB_STATUS_NORES.off → u.reg b = s.reg b) : ResbaseSame s u m :=
  ⟨h _ (by simp [R.LKP_HMB_STATUS_NORES]), h _ (by simp [R.LKP_HMB_STATUS_NORES])⟩

theorem ResbaseSame.of_regs {s u : State} {m : Link} (h : u.regs = s.regs) : ResbaseSame s u m :=
  ⟨State.reg_congr h _, State.reg_congr h _⟩

section
variable {s : State} {m : Link} {k : Nat} (hi : s.reg (B.LKP m + R.LKP_HMB_INFLIGHT_TAGS.off) ≠ 0) (hk : IsResbase m k)
include hi hk

/-- A granted write of one word, or of both, leaves them. -/
theorem State.writeNow_resbase_held (a : AccKind) (size v b : Nat) (h64 : size = 64 → k = B.LKP m + 0x10)
    (hb : b ≠ B.LKP m + R.LKP_HMB_STATUS_NORES.off) : (s.writeNow k a size v).reg b = s.reg b := by
  unfold State.writeNow
  rw [hk.memLike]
  dsimp only
  split
  · rename_i h
    obtain rfl := h64 h
    have h1 (b : Nat) (hb : b ≠ B.LKP m + R.LKP_HMB_STATUS_NORES.off) :
        (s.writeWord (B.LKP m + 0x10) a (v % 2 ^ 32)).reg b = s.reg b := State.writeWord_resbase_held hk _ _ _ hi hb
    refine (State.writeWord_resbase_held (.inr rfl) _ _ _ ?_ hb).trans (h1 b hb)
    rwa [h1 _ (by simp [R.LKP_HMB_INFLIGHT_TAGS, R.LKP_HMB_STATUS_NORES])]
  · exact State.writeWord_resbase_held hk _ _ _ hi hb

/-- An access that lands in a powered domain, be it a read. -/
theorem State.land_resbase_held {x : Crossing} (hx : x.key = k) (h0 : s.domOn 0 = true)
    (h64 : x.size = 64 → k = B.LKP m + 0x10) : ResbaseSame s (s.land x) m := by
  subst hx
  unfold State.land
  rw [hk.keyDom, h0]
  simp only [Bool.not_true, Bool.false_eq_true, if_false]
  split
  · exact ⟨rfl, rfl⟩
  · exact .of_reg fun b hb => State.writeNow_resbase_held hi hk _ _ _ _ h64 hb

end

section
variable {s : State} {m : Link} {who : Master} {t : Target} {a : AccKind} {size v : Nat} (hk : IsResbase m t.key)
include hk

theorem State.shapeOk_resbase (ha : accIsRead a = false) : s.shapeOk t a size v = (s.unitExists t.key && s.msixOk t.key &&
    (wordAt t.key && writeShape size t.key (pairAt t.key) && (decide (t.kind = .write) || aliasWordsOk t.key size v))) := by
  simp only [State.shapeOk, hk.memLike, hk.nvmeKey, ha, Bool.false_eq_true, if_false]

/-- A grant is the same for the three aliases. -/
theorem State.granted_resbase (ha : accIsRead a = false) : s.granted who t a size v = s.granted who t .set size v := by
  rw [State.granted, State.granted, s.shapeOk_resbase hk ha, s.shapeOk_resbase hk rfl, ha]
  rfl

/-- Only both words together are written by 64 bits (Table 3.1). -/
theorem State.low_of_granted_wide (ha : accIsRead a = false) (hg : s.granted who t a size v = true) (hs : size = 64) :
    t.key = B.LKP m + 0x10 := by
  rw [State.granted, s.shapeOk_resbase hk ha] at hg
  simp only [Bool.and_eq_true] at hg
  obtain ⟨⟨⟨⟨_, ⟨_, ⟨_, hw⟩, _⟩⟩, _⟩, _⟩, _⟩ := hg
  refine hk.resolve_right fun e => ?_
  have h8 : t.key % 8 = 4 := by
    rw [e, B.LKP]
    omega
  simp [writeShape, hs, h8] at hw

theorem State.domOn_of_granted (hg : s.granted who t a size v = true) : s.domOn 0 = true := by
  rw [State.granted, hk.keyDom] at hg
  simp only [Bool.and_eq_true] at hg
  exact hg.1.1.2

/-- An access that is granted lands and leaves both words, or waits. -/
theorem State.access_resbase_held {x : Addr} (ha : accIsRead a = false) (hr : s.resolve who x = some t)
    (hg : s.granted who t a size v = true) (hi : s.reg (B.LKP m + R.LKP_HMB_INFLIGHT_TAGS.off) ≠ 0) :
    ResbaseSame s (s.access who x a size v) m := by
  unfold State.access
  simp only [hr, hg, Bool.not_true, Bool.false_eq_true, if_false]
  split
  · exact ⟨rfl, rfl⟩
  · exact State.land_resbase_held hi hk rfl (State.domOn_of_granted hk hg) fun h => State.low_of_granted_wide hk ha hg h

theorem registerWrite_resbase_held {x : Addr} {w : DWord} (hr : s.resolve who x = some t)
    (hg : s.granted who t .write size w.toNat = true) (hi : s.reg (B.LKP m + R.LKP_HMB_INFLIGHT_TAGS.off) ≠ 0) :
    Gives (.registerWrite who x size w) s fun u => ResbaseSame s u m := by
  refine ⟨_, ?_, State.access_resbase_held hk rfl hr hg hi⟩
  rw [exec_registerWrite, execRegisterWrite_of_rowOf_none]
  intro t' ht' _ _ _
  rw [hr] at ht'
  cases ht'
  exact State.rowOf_resbase _ hk _ _

theorem State.aliasAccess_resbase_held {x : Addr} {w : DWord} (ha : accIsRead a = false) (hr : s.resolve who x = some t)
    (hkind : t.kind = .write) (hg : s.granted who t .set size w.toNat = true) (hok : aliasWordsOk t.key size w.toNat = true)
    (hc : isCore who = false) (hi : s.reg (B.LKP m + R.LKP_HMB_INFLIGHT_TAGS.off) ≠ 0) :
    ResbaseSame s (s.aliasAccess who x a size w) m := by
  have he : s.aliasAccess who x a size w = s.access who x a size w.toNat := by
    simp only [State.aliasAccess, hr, hkind, hk.memLike, hk.nvmeKey, hc, hok]
    rfl
  rw [he]
  exact State.access_resbase_held hk ha hr (by rwa [s.granted_resbase hk ha]) hi

end

theorem exec_slowAccessCrossed (who : Master) (s : State) :
    exec (.slowAccessCrossed who) s = execSlowAccessCrossed who s := rfl

/-- The crossing of the only access that waits ends in time. -/
theorem slowAccessCrossed_alone {s : State} {x : Crossing} (hx : s.cross = [x]) (hj : x.job = false)
    (ht : s.now ≤ x.at_ + 4000) : exec (.slowAccessCrossed x.who) s = .next ({ s with cross := [] }.land x) := by
  have hw : s.waitingOf x.who = [x] := by simp [State.waitingOf, hx]
  have hn : ¬ x.at_ + us 4 < s.now := by
    simp only [us]
    omega
  simp [exec_slowAccessCrossed, execSlowAccessCrossed, hw, hn, State.endCrossing, hj, hx, State.landFast]

/-! ### Where a result goes -/

/-- A function that sends a run of messages has sent them in order, and sends what follows. -/
theorem State.posts_out {β : Type} (o : β → Out) {s : State} {m f : Nat} (h : s.sends m f) (l : List β) :
    (l.foldl (fun s x => s.post m f (o x)) s).out = s.out ++ l.map o ∧ (l.foldl (fun s x => s.post m f (o x)) s).sends m f ∧
      (l.foldl (fun s x => s.post m f (o x)) s).maxPayload m = s.maxPayload m := by
  induction l generalizing s with
  | nil => exact ⟨by simp, h, rfl⟩
  | cons x l ih =>
    obtain ⟨ho, hs, hm⟩ := ih (h.post (o x))
    exact ⟨by rw [List.foldl_cons, ho, State.post_out h]; simp, hs, by rw [List.foldl_cons, hm, State.post_maxPayload h]⟩

theorem State.postWrite_out {s : State} {m f : Nat} (h : s.sends m f) (addr : Nat) (d : List Byte) :
    (s.postWrite m f addr d).out = s.out ++ s.writeOuts m f addr d ∧ (s.postWrite m f addr d).sends m f :=
  have hp := State.posts_out (fun x : Nat × Nat => .write m f x.1 ((d.drop (x.1 - addr)).take x.2)) h
    (pieces (s.maxPayload m) d.length addr d.length)
  ⟨hp.1, hp.2.1⟩

/-- A write of at most 128 bytes in one page goes out whole. -/
theorem State.writeOuts_of_short (s : State) (m f addr : Nat) {d : List Byte} (h0 : d.length ≠ 0) (hl : d.length ≤ 128)
    (hp : addr % 4096 + d.length ≤ 4096) : s.writeOuts m f addr d = [.write m f addr d] := by
  rw [State.writeOuts, pieces_of_short h0 (le_trans hl (s.maxPayload_ge m)) hp]
  simp

/-- An interrupt sends one message at most, and no data. -/
theorem State.interrupt_out {s : State} {m f : Nat} (h : s.sends m f) (v : Nat) :
    ∃ l, (s.interrupt m f v).out = s.out ++ l ∧ ∀ o ∈ l, ∀ m' f' a d, o ≠ .write m' f' a d := by
  unfold State.interrupt
  dsimp only
  split
  · exact ⟨[], by simp, nofun⟩
  · split
    · exact ⟨[], by simp, nofun⟩
    · exact ⟨[.msix m f v], State.post_out h _, by simp⟩

/-- Three writes to a slot: its data, bytes 4 to 15, and bytes 0 to 3 (R67). -/
def State.slotWritten (s : State) (m : Link) (slot : Nat) (d w1 w0 : List Byte) : State :=
  ((s.postWrite m 0 (slot + 16) d).postWrite m 0 (slot + 4) w1).postWrite m 0 slot w0

theorem State.slotWritten_out {s : State} {m : Link} (h : s.sends m 0) {slot : Nat} (hs : slot % 4096 + 256 ≤ 4096)
    (d : List Byte) {w1 w0 : List Byte} (h1 : w1.length = 12) (h0 : w0.length = 4) :
    (s.slotWritten m slot d w1 w0).out =
      s.out ++ s.writeOuts m 0 (slot + 16) d ++ [.write m 0 (slot + 4) w1, .write m 0 slot w0] ∧
    (s.slotWritten m slot d w1 w0).sends m 0 := by
  obtain ⟨ho1, hs1⟩ := State.postWrite_out h (slot + 16) d
  obtain ⟨ho2, hs2⟩ := State.postWrite_out hs1 (slot + 4) w1
  obtain ⟨ho3, hs3⟩ := State.postWrite_out hs2 slot w0
  rw [State.writeOuts_of_short _ _ _ _ (by omega) (by omega) (by omega)] at ho2 ho3
  exact ⟨by rw [State.slotWritten, ho3, ho2, ho1]; simp, hs3⟩

theorem State.writeResult_host (s : State) (m : Link) (g : Tag) (p gen : Nat) (irq : Bool) (f : Final) :
    ∃ w1 w0, w1.length = 12 ∧ w0.length = 4 ∧
      (s.writeResult (.host m g) p gen irq f =
          s.slotWritten m (s.pair (B.LKP m + 0x10) / 4096 * 4096 + g * 0x100) (fit 240 f.data) w1 w0 ∨
        ∃ v, s.writeResult (.host m g) p gen irq f =
          (s.slotWritten m (s.pair (B.LKP m + 0x10) / 4096 * 4096 + g * 0x100) (fit 240 f.data) w1 w0).interrupt m 0 v) := by
  refine ⟨leBytes 4 (gen * 2 ^ 16 + f.data.length) ++ leBytes 4 f.orig ++ leBytes 4 f.retry,
    leBytes 4 (resultWord0 f.status (reqTag (.host m g)) p 100), by simp [leBytes_length], leBytes_length 4 _, ?_⟩
  unfold State.writeResult
  dsimp only
  split
  · exact .inr ⟨_, rfl⟩
  · exact .inl rfl

/-- A host's result: the three writes of its slot, and then at most a message. -/
theorem State.writeResult_out {s : State} {m : Link} (h : s.sends m 0) (g : Tag) (p gen : Nat) (irq : Bool) (f : Final) :
    ∃ w0 w1 l, (s.writeResult (.host m g) p gen irq f).out = s.out ++
        s.writeOuts m 0 (s.pair (B.LKP m + 0x10) / 4096 * 4096 + g * 0x100 + 16) (fit 240 f.data) ++
        [.write m 0 (s.pair (B.LKP m + 0x10) / 4096 * 4096 + g * 0x100 + 4) w1,
          .write m 0 (s.pair (B.LKP m + 0x10) / 4096 * 4096 + g * 0x100) w0] ++ l ∧
      w0.length = 4 ∧ w1.length = 12 ∧ ∀ o ∈ l, ∀ m' f a d, o ≠ .write m' f a d := by
  have hslot := slot_mod (s.pair (B.LKP m + 0x10)) g
  obtain ⟨w1, w0, h1, h0, e⟩ := s.writeResult_host m g p gen irq f
  obtain ⟨hout, hs⟩ := State.slotWritten_out h (slot := s.pair (B.LKP m + 0x10) / 4096 * 4096 + g * 0x100) (by omega)
    (fit 240 f.data) h1 h0
  obtain e | ⟨v, e⟩ := e
  · exact ⟨w0, w1, [], by rw [e, hout, List.append_nil], h0, h1, nofun⟩
  · obtain ⟨l, hl, hn⟩ := State.interrupt_out hs v
    exact ⟨w0, w1, l, by rw [e, hl, hout], h0, h1, hn⟩

theorem exec_devEcho (q : Req) (s : State) : exec (.devEcho q) s = execDevEcho q s := rfl

/-- The state in which a command's result is written: the tag is free and shows no command in flight. -/
def State.ended (s : State) (q : Req) (f : Final) : State :=
  (s.setTag q { s.tag q with cur := none, fin := some f }).setInflight q false

theorem State.finishWith_of_cur {s : State} {q : Req} {c : Cmd} (f : Final) (h : (s.tag q).cur = some c) :
    s.finishWith q f = (s.ended q f).writeResult q c.phase c.mgen c.irq f := by
  rw [State.finishWith, h]
  rfl

theorem State.ended_reg (s : State) (m : Link) (g : Tag) (f : Final) (a : Nat)
    (h : a ≠ B.LKP m + R.LKP_HMB_INFLIGHT_TAGS.off) : (s.ended (.host m g) f).reg a = s.reg a :=
  State.setInflight_reg _ _ _ _ fun m' t e => by cases e; exact h

theorem State.sends.ended {s : State} {m : Link} (h : s.sends m 0) (g : Tag) (f : Final) :
    (s.ended (.host m g) f).sends m 0 := by
  have hup : (s.ended (.host m g) f).linkUp m = s.linkUp m := by
    rw [State.linkUp, State.linkUp,
      State.flag_congr (s.ended_reg _ _ _ _ (by simp only [B.HPT, B.LKP, R.HPT_LINK_LINK_UP, R.LKP_HMB_INFLIGHT_TAGS]; omega)),
      State.domOn_congr (s.ended_reg _ _ _ _ (by simp only [B.PWR, B.LKP, domHP, R.LKP_HMB_INFLIGHT_TAGS]; omega))]
  exact ⟨hup.trans h.up, h.bme, h.flr⟩

theorem devEcho_slot (m : Link) (t : Tag) (s : State) (c : Cmd) (hc : s.holds (.host m t) 0x0102 c) (h : s.sends m 0) :
    let slot := s.pair (B.LKP m + 0x10) / 4096 * 4096 + t * 0x100
    Gives (.devEcho (.host m t)) s fun u => ∃ w0 w1 l, (u.out = s.out ++ s.writeOuts m 0 (slot + 16) (fit 240 (fit c.len c.args)) ++
      [.write m 0 (slot + 4) w1, .write m 0 slot w0] ++ l) ∧
      w0.length = 4 ∧ w1.length = 12 ∧ ∀ o ∈ l, ∀ m' f a d, o ≠ .write m' f a d := by
  intro slot
  have hpair : (s.ended (.host m t) (Final.mk' St.DONE 0 (fit c.len c.args))).pair (B.LKP m + 0x10) = s.pair (B.LKP m + 0x10) := by
    rw [State.pair, State.pair, s.ended_reg _ _ _ _ (by simp [R.LKP_HMB_INFLIGHT_TAGS]),
      s.ended_reg _ _ _ _ (by simp [R.LKP_HMB_INFLIGHT_TAGS])]
  refine ⟨(s.ended (.host m t) (Final.mk' St.DONE 0 (fit c.len c.args))).writeResult (.host m t) c.phase c.mgen c.irq
    (Final.mk' St.DONE 0 (fit c.len c.args)), ?_, ?_⟩
  · rw [exec_devEcho, execDevEcho, State.holds_command hc, State.done, ← State.finishWith_of_cur _ hc.1]
    rfl
  · have hw := State.writeResult_out (h.ended t (Final.mk' St.DONE 0 (fit c.len c.args))) t c.phase c.mgen c.irq
      (Final.mk' St.DONE 0 (fit c.len c.args))
    rw [hpair] at hw
    exact hw

/-- Settles O54: every way to the two registers ends in a write that leaves them, and a result's three writes go to its slot. -/
theorem resultArea : Obligations.ResultArea := by
  unfold Obligations.ResultArea
  refine ⟨fun m s hi => ?_, fun m t s c hc hu hb hf => devEcho_slot m t s c hc ⟨hu, hb, hf⟩⟩
  refine ⟨fun lo hi' ha hw => ?_, fun who a size v t hr hk => ⟨fun hg => ?_, fun hkind hg hok hc => ?_⟩,
    fun x hx hk _ hs h0 hj ht => ?_⟩
  · obtain ⟨u, e, _, hreg⟩ := resbaseWrite_held m lo hi' s ha hw hi
    exact ⟨u, e, ResbaseSame.of_reg hreg⟩
  · exact registerWrite_resbase_held hk hr hg hi
  · exact ⟨⟨_, exec_aliasSetWrite _ _ _ _ _, State.aliasAccess_resbase_held hk rfl hr hkind hg hok hc hi⟩,
      ⟨_, exec_aliasClearWrite _ _ _ _ _, State.aliasAccess_resbase_held hk rfl hr hkind hg hok hc hi⟩,
      ⟨_, exec_aliasToggleWrite _ _ _ _ _, State.aliasAccess_resbase_held hk rfl hr hkind hg hok hc hi⟩⟩
  · have h64 : x.size = 64 → x.key = B.LKP m + 0x10 := fun h => (hs.resolve_left (by omega)).2
    exact ⟨_, slowAccessCrossed_alone hx hj ht, State.land_resbase_held (s := { s with cross := [] }) hi hk rfl h0 h64⟩

end Sys2Proof.Machine

namespace Sys2Proof.Machine

/-! ## Device commands (R76) -/

/-- A DEV_REG_READ of one register of the SEC block, accepted on core 0 under MGEN 0, where the mailbox's generation is 1. -/
def staleRead : Cmd :=
  { opcode := 0x0104, tagField := 0, phase := 0, irq := false, mgen := 0, len := 8,
    args := leBytes 4 0x7_0000 ++ [1, 0, 0, 0], at_ := 0 }

/-- That command runs, next to a job of the present generation that carries another DEV_REG_READ of core 0 on. -/
def staleReadState : State :=
  { State.reset with
    tags := [(256, { TagSt.idle with cur := some staleRead })],
    jobs := [{ q := .core 0, mgen := 1, opcode := 0x0104, obj := 0, due := 0, st := 0, data := [] }] }

/-- The jobs that are left, where a next state is answered. -/
def jobsAfter : Res → Option (List Job)
  | .next t => some t.jobs
  | _ => none

theorem staleRead_holds : staleReadState.holds (.core 0) 0x0104 staleRead :=
  ⟨rfl, rfl, rfl, rfl⟩

theorem staleRead_ends_job : jobsAfter (exec (.devRegRead (.core 0)) staleReadState) = some [] := by decide

/-- Refutes O7: the end of a DEV_REG_READ takes the job of its mailbox's present generation with it, and `holds` leaves room for such
a job where the command was accepted under another MGEN. -/
theorem not_deviceCommands : ¬ Obligations.DeviceCommands := by
  unfold Obligations.DeviceCommands
  intro ⟨_, _, _, _, _, h, _⟩
  obtain ⟨_, hs, _⟩ := h (.core 0) staleReadState staleRead staleRead_holds (by decide) (by decide) rfl rfl
  obtain ⟨t, e, ht⟩ := hs (by decide)
  have hj : t.jobs = staleReadState.jobs := by rw [ht.rest.rest]
  have := staleRead_ends_job
  rw [e] at this
  simp [jobsAfter, hj, staleReadState] at this

end Sys2Proof.Machine

namespace Sys2Proof.Machine

/-! ## The state at reset (R103) -/

/-- Bit 5 of the sixth word above the domains' own (the register that stands at 0x1_0018) is 1 at reset, and `domOn 197` reads it. -/
theorem domOn_reset_beyond : State.reset.domOn 197 = true := by decide

/-- Refutes O58: the statement speaks of every number, not of the 80 domains only, and 197 names a bit of another register. -/
theorem not_resetState : ¬ Obligations.ResetState := by
  unfold Obligations.ResetState
  intro ⟨_, _, _, _, hd⟩
  exact absurd ((hd 197).mp domOn_reset_beyond) (by decide)

end Sys2Proof.Machine

namespace Sys2Proof.Machine

/-! ## Mode commands (R91, R92) -/

/-- A MODE_SET to Flowing, accepted on core 0 under MGEN 2. -/
def flowSet : Cmd :=
  { opcode := 0x0701, tagField := 0, phase := 1, irq := false, mgen := 2, len := 1, args := [2], at_ := 0 }

/-- That command runs in Priming, with no step left. PD0 and PD54 are on, of which the image does not configure PD54, the host port
of link 2; the image's partition gives link 0 so many plots that the one of link 2 is plot 65,536, whose register range is that
of core 0's mailbox. -/
def flowSetState : State :=
  { State.reset with
    regs := [(0x10, 0x11), (0x1_0000, 1), (0x1_0004, 0x0040_0000), (B.CMB 0 + 0x204, 0x2_0000)],
    image := { Image.blank with allot := [(0, 65536), (2, 1)], domains := 2 ^ 69 + 1 },
    tags := [(256, { TagSt.idle with cur := some flowSet, last := some (2, 1) })] }

theorem flowSet_holds : flowSetState.holds (.core 0) 0x0701 flowSet := ⟨rfl, rfl, rfl, rfl⟩

theorem flowSetState_plot : flowSetState.plotOf 2 0 = some 65536 ∧ B.VF 65536 = B.CMB 0 := by decide

set_option maxRecDepth 20000 in
/-- The switch-off of PD54 resets core 0's MGEN, and the command's job is no longer one of its mailbox. -/
theorem flowSet_stays_open :
    tGot (.modeSet (.core 0)) flowSetState (fun t => (t.tag (.core 0)).cur.isSome) = true := by decide +kernel

/-- Refutes O9: a MODE_SET to Flowing that runs to its end in one step need not have its result where the image's partition is
larger than the plots there are. -/
theorem not_modeCommands : ¬ Obligations.ModeCommands := by
  unfold Obligations.ModeCommands
  intro ⟨_, h, _⟩
  obtain ⟨_, _, _, _, hs⟩ := h (.core 0) flowSetState flowSet flowSet_holds
  obtain ⟨_, _, _, _, _, _, _, hflow⟩ := hs (by decide) (by decide)
  obtain ⟨t, e, _, _, _, _, hcur, _⟩ := hflow rfl (by decide) rfl (by decide) rfl rfl rfl rfl rfl (by decide)
  have hopen := flowSet_stays_open
  simp [tGot, e, hcur] at hopen

end Sys2Proof.Machine

namespace Sys2Proof.Machine

/-! ## What the switching of domains leaves (R29, R49)

`Losing a s`: since `a` units have lost what they held and domains went off, and nothing else. The modes' record, the local count and
the vault stay, no access joins those that cross, no domain comes on, and of the registers those of the device, the power pins
and the life cycle stay. -/

/-- The registers of the blocks DEV, PWR and SEC, but for the words that show the domains. -/
def standing (x : Nat) : Prop := x < B.PWR ∨ B.PWR + 0x10 ≤ x ∧ x < B.PACE ∨ B.SEC ≤ x ∧ x < B.KCU

structure Losing (a s : State) : Prop where
  modes : s.modes = a.modes
  now : s.now = a.now
  vault : s.vault = a.vault
  cross : ∀ x ∈ s.cross, x ∈ a.cross
  reg : ∀ x, standing x → s.reg x = a.reg x
  off : ∀ d, d < 80 → a.domOn d = false → s.domOn d = false

theorem Losing.refl (s : State) : Losing s s := ⟨rfl, rfl, rfl, fun _ h => h, fun _ _ => rfl, fun _ _ h => h⟩

theorem Losing.trans {a s t : State} (h : Losing a s) (k : Losing s t) : Losing a t where
  modes := k.modes.trans h.modes
  now := k.now.trans h.now
  vault := k.vault.trans h.vault
  cross x hx := h.cross x (k.cross x hx)
  reg x hx := (k.reg x hx).trans (h.reg x hx)
  off d hd ho := k.off d hd (h.off d hd ho)

/-- A fold of steps that each leave it. -/
theorem Losing.fold {β : Type} {a : State} {f : State → β → State} {l : List β} {s : State} (h : Losing a s)
    (hf : ∀ s x, x ∈ l → Losing a s → Losing a (f s x)) : Losing a (l.foldl f s) :=
  List.foldlRecOn (motive := Losing a) l f h fun s hs x hx => hf s x hx hs

theorem Losing.ite {a s t : State} {c : Prop} [Decidable c] (h : Losing a s) (k : Losing a t) : Losing a (if c then s else t) := by
  split
  · exact h
  · exact k

/-! ### The state's own operations -/

section
variable {a s : State} (h : Losing a s)
include h

theorem Losing.mode : s.mode = a.mode := State.mode_congr (h.reg _ (.inl (by decide)))

theorem Losing.busy : s.busy = a.busy := State.flag_congr (f := R.DEV_MODE_BUSY) (h.reg _ (.inl (by decide)))

theorem Losing.calm (hc : a.cross = []) : s.cross = [] :=
  List.eq_nil_iff_forall_not_mem.mpr fun x hx => by simpa [hc] using h.cross x hx

/-- What leaves every register below the KCU's block. -/
theorem Losing.of_low {t : State} (hm : t.modes = s.modes) (hn : t.now = s.now) (hv : t.vault = s.vault)
    (hc : ∀ x ∈ t.cross, x ∈ s.cross) (hr : ∀ x, x < B.KCU → t.reg x = s.reg x) : Losing a t where
  modes := hm.trans h.modes
  now := hn.trans h.now
  vault := hv.trans h.vault
  cross x hx := h.cross x (hc x hx)
  reg x hx := (hr x (by simp only [standing, B.PWR, B.PACE, B.SEC, B.KCU] at hx ⊢; omega)).trans (h.reg x hx)
  off d hd ho := (State.domOn_congr (hr _ (by simp only [B.PWR, B.KCU]; omega))).trans (h.off d hd ho)

theorem Losing.of_regs {t : State} (hm : t.modes = s.modes) (hn : t.now = s.now) (hv : t.vault = s.vault)
    (hc : t.cross = s.cross) (hr : t.regs = s.regs) : Losing a t :=
  h.of_low hm hn hv (fun _ hx => hc ▸ hx) fun x _ => State.reg_congr hr x

theorem Losing.setReg {k : Nat} (v : Word) (hk : B.KCU ≤ k) : Losing a (s.setReg k v) :=
  h.of_low rfl rfl rfl (fun _ hx => hx) fun x hx => s.reg_setReg_ne k x v (by omega)

theorem Losing.wr {b : Nat} (f : RegField) (v : Nat) (hb : B.KCU ≤ b) : Losing a (s.wr b f v) :=
  h.setReg _ (Nat.le_add_right_of_le hb)

theorem Losing.wrB {b : Nat} (f : RegField) (v : Bool) (hb : B.KCU ≤ b) : Losing a (s.wrB b f v) := h.wr _ _ hb

theorem Losing.wrW {k : Nat} (v : Nat) (hk : B.KCU ≤ k) : Losing a (s.wrW k v) := h.setReg _ hk

theorem Losing.resetRegs {p : Nat → Bool} (hp : ∀ x, p x = true → B.KCU ≤ x) : Losing a (s.resetRegs p) :=
  h.of_low rfl rfl rfl (fun _ hx => hx) fun x hx =>
    (s.reg_resetRegs _ _).trans (if_neg fun e => absurd (hp x e) (by omega))

theorem Losing.count (k : Nat) : Losing a (s.count k) := by
  obtain ⟨c, f, e⟩ := s.count_eq k
  rw [e]; exact h.of_regs rfl rfl rfl rfl rfl

theorem Losing.stamp (k : Nat) : Losing a (s.stamp k) := h.of_regs rfl rfl rfl rfl rfl

theorem Losing.emit (o : Out) : Losing a (s.emit o) := h.of_regs rfl rfl rfl rfl rfl

theorem Losing.dropAccesses (gone : Master → Bool) : Losing a (s.dropAccesses gone) :=
  h.of_low rfl rfl rfl (fun _ hx => List.mem_of_mem_filter hx) fun _ _ => rfl

theorem Losing.interrupt (m f v : Nat) : Losing a (s.interrupt m f v) := by
  obtain ⟨r, x, l, y, b, e⟩ := s.interrupt_eq m f v
  have hr (k : Nat) (hk : k < B.KCU) : (s.interrupt m f v).reg k = s.reg k :=
    State.interrupt_reg _ _ _ _ _ (by simp only [B.KCU, B.HPT, R.HPT_LINK_PM] at hk ⊢; omega)
  rw [e] at hr ⊢
  exact h.of_low rfl rfl rfl (fun _ hx => hx) hr

/-! ### Ends of commands -/

theorem Losing.finishWith (q : Req) (f : Final) : Losing a (s.finishWith q f) := by
  cases hc : (s.tag q).cur with
  | none => unfold State.finishWith; rw [hc]; exact h
  | some c =>
    have e := (s.finishWith_ends q f c hc).rest
    refine h.of_low (by rw [e.rest]) (by rw [e.rest]) (by rw [e.rest]) (fun x hx => by rw [e.rest] at hx; exact hx)
      fun x hx => e.regs x ?_
    cases q with
    | host m t => simp only [B.KCU, resultReg, B.LKP, B.HPT, R.LKP_HMB_INFLIGHT_TAGS, R.HPT_LINK_PM] at hx ⊢; omega
    | core n => exact not_false

theorem Losing.settleOld (q : Req) (g e : Nat) : Losing a (s.settleOld q g e) := by
  unfold State.settleOld
  split
  · exact .ite (h.of_regs rfl rfl rfl rfl rfl) h
  · exact h

theorem Losing.endJobs (o b : Nat) (f : Final) : Losing a (s.endJobs o b f) := by
  unfold State.endJobs
  refine h.fold fun s j _ hs => ?_
  unfold State.endJob
  have h1 : Losing a { s with jobs := s.jobs.filter (· ≠ j) } := hs.of_regs rfl rfl rfl rfl rfl
  exact .ite (h1.finishWith _ f) (h1.settleOld _ _ _)

theorem Losing.settleAll (l : List (Job × Bool)) : Losing a (s.settleAll l) := by
  unfold State.settleAll
  have h0 : Losing a { s with jobs := [], regJob := none } := h.of_regs rfl rfl rfl rfl rfl
  exact (h0.fold fun s e _ hs => hs.settleOld _ _ _).of_regs rfl rfl rfl rfl rfl

/-! ### Packets that are dropped -/

theorem Losing.pktEnd (k : Pkt) : Losing a (s.pktEnd k) := by
  unfold State.pktEnd
  refine .ite ?_ h
  unfold State.onChain
  split
  · exact h
  · exact h.of_regs rfl rfl rfl rfl rfl

theorem Losing.pktEnds {β : Type} (f : β → Pkt) (l : List β) : Losing a (l.foldl (fun s x => s.pktEnd (f x)) s) :=
  h.fold fun _ _ _ hs => hs.pktEnd _

theorem Losing.flushOne (k : Pkt) (dest : Nat) : Losing a (s.flushOne k dest) := by
  unfold State.flushOne
  exact (Losing.ite (h.count _) h).pktEnd k

theorem Losing.sendPause (p mask quanta : Nat) : Losing a (s.sendPause p mask quanta) := by
  unfold State.sendPause
  exact ((Losing.ite h (h.stamp _)).emit _).count _

theorem Losing.updatePause (p : Nat) : Losing a (s.updatePause p) := by
  unfold State.updatePause
  dsimp only
  refine .ite h (.ite h ?_)
  have h1 : Losing a { s with eth := { s.eth with xoffSent := tput (fun _ => 0) s.eth.xoffSent p (s.xoffWanted p) } } :=
    h.of_regs rfl rfl rfl rfl rfl
  have h2 := Losing.ite (c := s.xoffWanted p - (s.xoffWanted p &&& tget (fun _ => 0) s.eth.xoffSent p) ≠ 0)
    (h1.sendPause p (s.xoffWanted p - (s.xoffWanted p &&& tget (fun _ => 0) s.eth.xoffSent p)) 0xFFFF) h1
  exact .ite (h2.sendPause _ _ _) h2

theorem Losing.pairUpdate (k p : Nat) (b : Bool) : Losing a (s.pairUpdate k p b) := by
  unfold State.pairUpdate
  dsimp only
  refine .ite (Losing.updatePause ?_ _) ?_
  all_goals exact (Losing.ite (h.count _) h).of_regs rfl rfl rfl rfl rfl

theorem Losing.freeSegs (k pool n : Nat) (pair : Option Nat) : Losing a (s.freeSegs k pool n pair) := by
  unfold State.freeSegs
  have h1 : Losing a (s.setPool (k / 4) pool (s.poolUsed (k / 4) pool - n)) := h.of_regs rfl rfl rfl rfl rfl
  cases pair with
  | none => exact h1
  | some p =>
    refine Losing.pairUpdate ?_ _ _ _
    exact h1.of_regs rfl rfl rfl rfl rfl

theorem Losing.crossedOut (v : Nat) (p : VPkt) : Losing a (s.crossedOut v p) := by
  unfold State.crossedOut
  exact .ite h (h.freeSegs _ _ _ _)

theorem Losing.flushVoq (v : Nat) : Losing a (s.flushVoq v) := by
  unfold State.flushVoq
  have h1 : Losing a (s.setVoq v Voq.empty) := h.of_regs rfl rfl rfl rfl rfl
  refine h1.fold fun s p _ hs => ?_
  have h2 := Losing.ite (c := p.sent = true) (hs.pktEnd p.pkt)
    (hs.fold (f := fun s (d : Copy) => s.flushOne p.pkt d.dest) (l := p.copies) fun _ _ _ hs => hs.flushOne _ _)
  exact .ite h2 (h2.crossedOut _ _)

theorem Losing.flushVoqs (ok : Nat → Bool) : Losing a (s.flushVoqs ok) := by
  unfold State.flushVoqs
  exact h.fold fun _ _ _ hs => hs.flushVoq _

theorem Losing.flushSlot8 (m : Nat) : Losing a (s.flushSlot8 m) := by
  unfold State.flushSlot8
  refine h.fold fun s t _ hs => ?_
  refine .ite hs (Losing.fold (hs.of_regs rfl rfl rfl rfl rfl) fun s p _ hs => (hs.count _).pktEnd _)

end
end Sys2Proof.Machine

namespace Sys2Proof.Machine

/-! ### Addresses of the units' registers lie above the KCU's block -/

theorem pipe_above (k : Nat) : B.KCU ≤ B.PIPE k := by
  unfold B.PIPE
  split <;> simp only [B.KCU, B.HDR, B.TLR, B.QUAD] <;> omega

theorem husk_above (k : Nat) : B.KCU ≤ B.HUSK k := by simp only [B.KCU, B.HUSK, B.QUAD]; omega

/-- The registers of queue pairs lie in a plot's block or the manager's. -/
theorem State.qpRegs_above (s : State) (p q : Nat) : B.TPG 0 ≤ s.qpRegs p q := by
  unfold State.qpRegs
  refine Nat.le_add_right_of_le ?_
  split
  all_goals exact Nat.le_trans (by decide) (Nat.le_add_right _ _)

/-! ### The parts of a plot's reset (Table 11.7) -/

/-- The registers of a plot, its queue pairs and its controller return to reset. -/
def State.plotRegs (s : State) (p : Nat) : State :=
  ((s.dropQps p).clearNvme p).resetRegs fun a =>
    (B.PLOT p + 0x200 ≤ a && a < B.PLOT p + 0x280) || (B.VF p ≤ a && a < B.VF p + 0x1_0000)

/-- With them its memory is cleared and its messages stop. -/
def State.idlePlot (s : State) (p : Nat) : State :=
  State.setPlot { s.plotRegs p with mem := tdrop (fun a => B.VF p ≤ a && a < B.VF p + 0x1_0000) (s.plotRegs p).mem } p
    { (s.plotRegs p).plot p with txSeq := 0, rxSeq := 0, txMsg := none }

/-- The manager's bit of a function, its MSI-X table and its reads in flight are dropped. -/
def State.clearFn (s : State) (m f : Nat) : State :=
  let a := B.MGR m + 0x10 + 4 * ((128 * (m % 2) + f) / 32)
  let s := s.wrW a (setBits (s.reg a).toNat (f % 32) (f % 32) 0)
  let s := { s with mem := tdrop (fun a => B.MSIX m f ≤ a && a < B.MSIX m f + 0x1_0000) s.mem }
  s.setLink m { s.link m with
    outstanding := (s.link m).outstanding.filter (·.fn ≠ f),
    silent := (s.link m).silent ++ ((s.link m).outstanding.filter (·.fn = f)).map (·.tag) }

theorem State.stopPlot_eq (s : State) (p : Nat) : s.stopPlot p =
    match (s.idlePlot p).fnOfPlot p with
    | none => s.idlePlot p
    | some (m, f) => (s.idlePlot p).clearFn m f := rfl

/-! ### Plots, links and mailboxes -/

section
variable {a s : State} (h : Losing a s)
include h

/-- The registers of a range above the KCU's block return to reset. -/
theorem Losing.resetRange {lo hi : Nat} (hl : B.KCU ≤ lo) :
    Losing a (s.resetRegs fun x => decide (lo ≤ x) && decide (x < hi)) :=
  h.resetRegs fun x hx => by
    simp only [Bool.and_eq_true, decide_eq_true_eq] at hx
    exact hl.trans hx.1

theorem Losing.onTbl (f : TblSt → TblSt) : Losing a (s.onTbl f) := h.of_regs rfl rfl rfl rfl rfl

theorem Losing.setLink (m : Nat) (l : LinkSt) : Losing a (s.setLink m l) := h.of_regs rfl rfl rfl rfl rfl

theorem Losing.setMem (l : List Host.Cell) : Losing a { s with mem := l } := h.of_regs rfl rfl rfl rfl rfl

theorem Losing.setTag (q : Req) (x : TagSt) : Losing a (s.setTag q x) := h.of_regs rfl rfl rfl rfl rfl

theorem Losing.mailboxReset (m : Link) : Losing a (s.mailboxReset m) := by
  unfold State.mailboxReset
  dsimp only
  have hb : B.KCU ≤ B.LKP m := by simp only [B.LKP, B.KCU]; omega
  have h1 := (h.resetRange (hi := B.LKP m + 0x100) hb).wrW (k := B.LKP m + R.LKP_HMB_STATUS_MGEN.off)
    (mailboxAfter (s.reg (B.LKP m + R.LKP_HMB_STATUS_MGEN.off)).toNat) (Nat.le_add_right_of_le hb)
  generalize State.wrW _ _ _ = u at h1 ⊢
  refine Losing.fold (.ite ?_ h1) fun _ _ _ hs => hs.setTag _ _
  exact h1.of_regs rfl rfl rfl rfl rfl

theorem Losing.coreMailboxReset (n : CoreIx) : Losing a (s.coreMailboxReset n) := by
  unfold State.coreMailboxReset
  have hb : B.KCU ≤ B.CMB n := by simp only [B.CMB, B.KCU]; omega
  exact ((h.resetRange hb).wr _ _ hb).setTag _ _

theorem Losing.dropWrite (id : Nat) : Losing a (s.dropWrite id) := h.of_regs rfl rfl rfl rfl rfl

theorem Losing.clearNvme (p : Nat) : Losing a (s.clearNvme p) := by
  unfold State.clearNvme State.dropCtl
  refine Losing.resetRange ?_ (by simp only [B.NVME, B.KCU]; omega)
  dsimp only
  have h1 := h.fold (l := s.silo.writes.filter fun w => match w.src with
      | some (p', _) => p' = p
      | none => false) (f := fun s w => s.dropWrite w.id) fun _ _ _ hs => hs.dropWrite _
  exact h1.of_regs rfl rfl rfl rfl rfl

theorem Losing.dropQps (p : Nat) : Losing a (s.dropQps p) := by
  unfold State.dropQps
  have hb : B.KCU ≤ s.qpRegs p 0 + 0x1000 :=
    Nat.le_add_right_of_le (le_trans (by simp only [B.KCU, B.TPG]; omega) (s.qpRegs_above p 0))
  have h1 := h.resetRange (hi := s.qpRegs p 0 + 0x1000 + 0x1000) hb
  exact h1.of_regs rfl rfl rfl rfl rfl

theorem Losing.plotRegs (p : Nat) : Losing a (s.plotRegs p) := by
  refine ((h.dropQps p).clearNvme p).resetRegs fun x hx => ?_
  simp only [Bool.or_eq_true, Bool.and_eq_true, decide_eq_true_eq] at hx
  simp only [B.PLOT, B.VF, B.KCU] at hx ⊢; omega

theorem Losing.idlePlot (p : Nat) : Losing a (s.idlePlot p) := by
  have h1 := h.plotRegs p
  unfold State.idlePlot
  generalize s.plotRegs p = u at h1 ⊢
  exact h1.of_regs rfl rfl rfl rfl rfl

theorem Losing.clearFn (m f : Nat) : Losing a (s.clearFn m f) := by
  have h1 := h.wrW (k := B.MGR m + 0x10 + 4 * ((128 * (m % 2) + f) / 32))
    (setBits (s.reg (B.MGR m + 0x10 + 4 * ((128 * (m % 2) + f) / 32))).toNat (f % 32) (f % 32) 0)
    (by simp only [B.MGR, B.KCU]; omega)
  exact (h1.setMem _).setLink _ _

theorem Losing.stopPlot (p : Nat) : Losing a (s.stopPlot p) := by
  rw [State.stopPlot_eq]
  split
  · exact h.idlePlot p
  · exact (h.idlePlot p).clearFn _ _

theorem Losing.resetPlot (p : Nat) : Losing a (s.resetPlot p) := by
  unfold State.resetPlot
  exact (h.stopPlot p).wr _ _ (by simp only [B.PLOT, B.KCU]; omega)

theorem Losing.resetFn (m f : Nat) (b : Bool) : Losing a (s.resetFn m f b) := h.of_regs rfl rfl rfl rfl rfl

theorem Losing.resetLink (m : Nat) (b : Bool) : Losing a (s.resetLink m b) := by
  unfold State.resetLink
  dsimp only
  have h1 := (h.flushSlot8 m).dropAccesses (isHostOf m)
  generalize State.dropAccesses _ _ = u at h1 ⊢
  have h2 := h1.fold (l := List.range (max 1 (u.allot m))) (f := fun s f => (match s.plotOf m f with
      | some p => s.resetPlot p
      | none => s).resetFn m f false) fun s f _ hs => by
    refine Losing.resetFn ?_ m f false
    split
    · exact hs.resetPlot _
    · exact hs
  have h3 := h2.resetRegs (p := fun a => (B.HPT m ≤ a && a < B.HPT m + 0x1000) || (B.TPG m ≤ a && a < B.TPG m + 0x1_0000)
      || (B.MGR m ≤ a && a < B.MGR m + 0x1000)) fun x hx => by
    simp only [Bool.or_eq_true, Bool.and_eq_true, decide_eq_true_eq] at hx
    simp only [B.HPT, B.TPG, B.MGR, B.KCU] at hx ⊢; omega
  generalize State.resetRegs _ _ = v at h3 ⊢
  exact h3.of_regs rfl rfl rfl rfl rfl

theorem Losing.loseHostPort (n : Nat) : Losing a (s.loseHostPort n) := by
  unfold State.loseHostPort
  refine h.fold fun _ m _ hs => ?_
  have h1 := (hs.mailboxReset m).resetLink m false
  exact h1.of_regs rfl rfl rfl rfl rfl

/-! ### Units -/

theorem Losing.flipped (k : Nat) : Losing a (s.flipped k) := by
  unfold State.flipped
  dsimp only
  have h1 : Losing a { s with mc := { s.mc with flipping := s.mc.flipping.erase k } } := h.of_regs rfl rfl rfl rfl rfl
  refine .ite h (.ite ?_ h1)
  unfold State.flipNext
  split
  · exact h1.endJobs _ _ _
  · unfold State.flip
    exact .ite (h1.wrB _ _ (pipe_above _)) h1

theorem Losing.losePipe (k : Nat) : Losing a (s.losePipe k) := by
  unfold State.losePipe
  have h1 := h.pktEnds Token.pkt (s.pipe k).toks
  refine Losing.flipped ?_ k
  exact h1.of_regs rfl rfl rfl rfl rfl

theorem Losing.loseHeadrace (k : Nat) : Losing a (s.loseHeadrace k) := by
  unfold State.loseHeadrace
  have h0 : Losing a ((s.stage k).pkts.foldl State.pktEnd s) := h.fold fun _ _ _ hs => hs.pktEnd _
  have h1 : Losing a (((s.stage k).pkts.foldl State.pktEnd s).setStage k Staging.empty) := h0.of_regs rfl rfl rfl rfl rfl
  exact ((h1.losePipe k).flushVoqs _).onTbl _

theorem Losing.loseTailrace (t : Nat) : Losing a (s.loseTailrace t) := by
  unfold State.loseTailrace
  have h1 := (h.losePipe (16 + t)).pktEnds EPkt.pkt ((s.egress t).q ++ (s.egress t).deliver)
  exact h1.of_regs rfl rfl rfl rfl rfl

theorem Losing.loseQuad (q : Nat) : Losing a (s.loseQuad q) := by
  unfold State.loseQuad
  have h1 := h.flushVoqs fun v => voqH v / 4 = q
  exact h1.of_regs rfl rfl rfl rfl rfl

theorem Losing.dropBuffer (c : Nat) : Losing a (s.dropBuffer c) := by
  unfold State.dropBuffer
  dsimp only
  have h1 : Losing a (s.setConn c { s.conn c with sent := [], tries := 0, rto := 1 }) := h.of_regs rfl rfl rfl rfl rfl
  refine .ite h1 (Losing.fold (h1.fold fun _ _ _ hs => ?_) fun _ _ _ hs => ?_)
  · exact hs.of_regs rfl rfl rfl rfl rfl
  · exact hs.of_regs rfl rfl rfl rfl rfl

theorem Losing.conduitDown : Losing a s.conduitDown := by
  unfold State.conduitDown
  exact h.fold fun _ c _ hs => (hs.wr _ _ (by simp only [connBase, B.CND, B.KCU]; omega)).dropBuffer c

theorem Losing.loseStack (k : Nat) : Losing a (s.loseStack k) := by
  unfold State.loseStack
  dsimp only
  refine .ite (h.of_regs rfl rfl rfl rfl rfl) ?_
  generalize hu : ({ s with rsv := _, mem := _, qps := _ } : State) = u
  have h1 : Losing a u := hu ▸ h.of_regs rfl rfl rfl rfl rfl
  have h2 := h1.pktEnds VPkt.pkt (s.weir.voqs.flatMap fun e => e.2.pkts.filter (·.spilled))
  generalize List.foldl _ _ _ = v at h2 ⊢
  generalize hw : ({ State.onWeir _ _ with hop := _ } : State) = w
  have h3 : Losing a w := hw ▸ h2.of_regs rfl rfl rfl rfl rfl
  exact .ite (h3.conduitDown.of_regs rfl rfl rfl rfl rfl) h3.conduitDown

theorem Losing.loseCluster (c : Nat) : Losing a (s.loseCluster c) := by
  unfold State.loseCluster
  have h1 : Losing a ({ s with mem := tdrop (fun a => inRange (B.BOOT c) 0x1_0000 a || inRange (B.CPMC (8 * c)) 0x8_0000 a) s.mem } : State) := h.of_regs rfl rfl rfl rfl rfl
  exact (h1.dropAccesses _).fold fun _ _ _ hs => hs.coreMailboxReset _

theorem Losing.loseWeir : Losing a s.loseWeir := by
  unfold State.loseWeir
  have h1 := h.flushVoqs fun _ => true
  exact h1.of_regs rfl rfl rfl rfl rfl

theorem Losing.kcuFree (m : Nat) (b : Bool) : Losing a (s.kcuFree m b) := by
  unfold State.kcuFree
  refine .ite ?_ h
  dsimp only
  have hb : B.KCU ≤ B.KCUM m := by simp only [B.KCUM, B.KCU]; omega
  have h1 := h.resetRange (hi := B.KCUM m + 0x60) (lo := B.KCUM m + 0x20) (Nat.le_add_right_of_le hb)
  generalize State.resetRegs _ _ = u at h1 ⊢
  have h2 := Losing.ite (c := (b && (tget (fun _ => none) u.kcu.ops m).isSome) = true)
    (h1.wrB R.KCU_STATUS_RUNNING false hb) h1
  exact h2.of_regs rfl rfl rfl rfl rfl

theorem Losing.loseSilo : Losing a s.loseSilo := by
  unfold State.loseSilo
  have h1 : Losing a s.dropInFlight := h.of_regs rfl rfl rfl rfl rfl
  have h2 := ((h1.kcuFree 1 true).dropAccesses (· = .silo)).resetRange (lo := 0x2_4000_0000)
    (hi := 0x2_4000_0000 + 0x200_0000) (by decide)
  exact h2.of_regs rfl rfl rfl rfl rfl

theorem Losing.loseUnits (d : Nat) : Losing a (s.loseUnits d) := by
  unfold State.loseUnits
  refine .ite h (.ite (h.loseHeadrace _) (.ite ((h.loseTailrace _).loseTailrace _) (.ite (h.loseQuad _) (.ite ?_
    (.ite (h.loseHostPort _) (.ite ?_ (.ite (h.loseStack _) (.ite (h.loseCluster _) (.ite h.loseWeir (.ite h.loseSilo
    (.ite ?_ (.ite ?_ h))))))))))))
  all_goals exact h.of_regs rfl rfl rfl rfl rfl

end

/-! ### Domains -/

/-- A register that a domain other than PD0 owns lies above the KCU's block, which begins the others' (Table 1.5). -/
theorem standing_domAt {x d : Nat} (hd : d ≠ 0) (hx : x < B.KCU) : (domAt x == some d) = false := by
  have hw : x / 0x1_0000 = 0 ∨ x / 0x1_0000 = 1 ∨ x / 0x1_0000 = 2 ∨ x / 0x1_0000 = 3 ∨ x / 0x1_0000 = 4 ∨
      x / 0x1_0000 = 5 ∨ x / 0x1_0000 = 6 ∨ x / 0x1_0000 = 7 := by simp only [B.KCU] at hx; omega
  have h0 : (domAt x).getD 0 = 0 := by
    unfold domAt locate
    dsimp only
    rw [if_pos (by omega)]
    rcases hw with hw | hw | hw | hw | hw | hw | hw | hw <;> rw [hw] <;> rfl
  cases e : domAt x with
  | none => rfl
  | some k => rw [e] at h0; simpa using fun hk : k = d => hd (hk ▸ h0)

section
variable {a s : State} (h : Losing a s)
include h

theorem Losing.setDomOff {d : Nat} (hd : d < 80) : Losing a (s.setDom d false) where
  modes := h.modes
  now := h.now
  vault := h.vault
  cross := h.cross
  reg x hx := ((s.reg_wrW _ _ _).trans (if_neg (by
    simp only [standing, B.PWR, B.PACE, B.SEC, B.KCU] at hx ⊢; omega))).trans (h.reg x hx)
  off e he ho := by
    rw [State.domOn_setDom]
    split
    · rfl
    · exact h.off e he ho

/-- A domain's meter shows 0 without it (Table 2.16). -/
theorem Losing.meterOff {d : Nat} (hd : d < 80) : Losing a (s.wrW (meterBase d + R.PACE_METER_PACE.off) 0) where
  modes := h.modes
  now := h.now
  vault := h.vault
  cross := h.cross
  reg x hx := ((s.reg_wrW _ _ _).trans (if_neg (by
    simp only [standing, meterBase, R.PACE_METER_PACE, B.PWR, B.PACE, B.SEC, B.KCU] at hx ⊢; omega))).trans (h.reg x hx)
  off e he ho := (State.domOn_congr ((s.reg_wrW _ _ _).trans (if_neg (by
    simp only [meterBase, R.PACE_METER_PACE, B.PWR, B.PACE]; omega)))).trans (h.off e he ho)

theorem Losing.loseDomain {d : Nat} (hd : d < 80) : Losing a (s.loseDomain d) := by
  unfold State.loseDomain
  split
  · exact h
  · rename_i hc
    have h0 : d ≠ 0 := fun e => hc (by simp [e])
    dsimp only
    have h1 := ((h.loseUnits d).setDomOff hd).resetRegs (p := fun x => domAt x == some d) fun x hx =>
      not_lt.mp fun hlt => by simp [standing_domAt h0 hlt] at hx
    generalize State.resetRegs _ _ = u at h1 ⊢
    have h2 := Losing.ite (c := metered d = true) (h1.meterOff hd) h1
    exact h2.of_regs rfl rfl rfl rfl rfl

end

/-- A domain that was lost is off. -/
theorem State.domOn_loseDomain (s : State) {d : Nat} (hd : d < 80) (h0 : d ≠ 0) : (s.loseDomain d).domOn d = false := by
  unfold State.loseDomain
  split
  · rename_i hc
    simpa [h0] using hc
  · dsimp only
    have h1 : (((s.loseUnits d).setDom d false).resetRegs fun x => domAt x == some d).domOn d = false := by
      refine (State.domOn_congr ((State.reg_resetRegs _ _ _).trans (if_neg ?_))).trans ?_
      · rw [standing_domAt h0 (by simp only [B.PWR, B.KCU]; omega)]; decide
      · rw [State.domOn_setDom, if_pos rfl]
    generalize State.resetRegs _ _ = u at h1 ⊢
    have h2 := (Losing.ite (c := metered d = true) ((Losing.refl u).meterOff hd) (Losing.refl u)).off d hd h1
    exact h2

/-- After the loss of a list of domains each of them is off. -/
theorem Losing.loseDomains {a s : State} (h : Losing a s) {l : List Nat} (hl : ∀ d ∈ l, d < 80) :
    Losing a (l.foldl State.loseDomain s) := h.fold fun _ d hd hs => hs.loseDomain (hl d hd)

theorem State.domOn_loseDomains (s : State) {l : List Nat} (hl : ∀ d ∈ l, d < 80 ∧ d ≠ 0) {d : Nat} (hd : d ∈ l) :
    (l.foldl State.loseDomain s).domOn d = false := by
  induction l generalizing s with
  | nil => simp at hd
  | cons e l ih =>
    rw [List.foldl_cons]
    have hl' : ∀ x ∈ l, x < 80 ∧ x ≠ 0 := fun x hx => hl x (List.mem_cons_of_mem _ hx)
    rcases List.mem_cons.mp hd with rfl | hd
    · exact ((Losing.refl _).loseDomains fun x hx => (hl' x hx).1).off d (hl d (by simp)).1
        (s.domOn_loseDomain (hl d (by simp)).1 (hl d (by simp)).2)
    · exact ih _ hl' hd

end Sys2Proof.Machine

namespace Sys2Proof.Machine

/-! ## Modes (R82, R93)

How DEV_MODE shows a mode, and what the operations on it leave. -/

@[simp] theorem Mode.ofCode_code (m : Mode) : Mode.ofCode m.code = m := by cases m <;> rfl

theorem Mode.code_lt (m : Mode) : m.code < 8 := by cases m <;> decide

/-- DEV_MODE. -/
abbrev devMode : Nat := B.DEV + 0x10

theorem State.setMode_eq (s : State) (m : Mode) : ∃ r, s.setMode m = { s with regs := r } := ⟨_, rfl⟩

theorem State.setMode_reg (s : State) (m : Mode) {x : Nat} (hx : x ≠ devMode) : (s.setMode m).reg x = s.reg x := by
  unfold State.setMode
  rw [State.reg_wrB _ _ _ R.DEV_MODE_BUSY _ hx, State.reg_wr _ _ _ R.DEV_MODE_TARGET _ hx,
    State.reg_wr _ _ _ R.DEV_MODE_CODE _ hx]

theorem State.mode_setMode (s : State) (m : Mode) : (s.setMode m).mode = m := by
  unfold State.setMode State.mode State.wrB
  rw [State.rd_wr_ne _ _ _ R.DEV_MODE_BUSY R.DEV_MODE_CODE _ (by decide) (by decide) (.inr (by decide)),
    State.rd_wr_ne _ _ _ R.DEV_MODE_TARGET R.DEV_MODE_CODE _ (by decide) (by decide) (.inr (by decide)),
    State.rd_wr_same _ _ R.DEV_MODE_CODE _ (by decide) (by decide)]
  exact (congrArg Mode.ofCode (Nat.mod_eq_of_lt m.code_lt)).trans m.ofCode_code

theorem State.busy_setMode (s : State) (m : Mode) : (s.setMode m).busy = false :=
  State.flag_wrB_same _ _ R.DEV_MODE_BUSY false (by decide) rfl

theorem State.setBusy_reg (s : State) (m : Mode) {x : Nat} (hx : x ≠ devMode) : (s.setBusy m).reg x = s.reg x := by
  unfold State.setBusy
  rw [State.reg_wrB _ _ _ R.DEV_MODE_BUSY _ hx, State.reg_wr _ _ _ R.DEV_MODE_TARGET _ hx]

theorem State.mode_setBusy (s : State) (m : Mode) : (s.setBusy m).mode = s.mode := by
  unfold State.setBusy State.mode State.wrB
  rw [State.rd_wr_ne _ _ _ R.DEV_MODE_BUSY R.DEV_MODE_CODE _ (by decide) (by decide) (.inr (by decide)),
    State.rd_wr_ne _ _ _ R.DEV_MODE_TARGET R.DEV_MODE_CODE _ (by decide) (by decide) (.inr (by decide))]

theorem State.busy_setBusy (s : State) (m : Mode) : (s.setBusy m).busy = true :=
  State.flag_wrB_same _ _ R.DEV_MODE_BUSY true (by decide) rfl

theorem State.target_setBusy (s : State) (m : Mode) : (s.setBusy m).rd B.DEV R.DEV_MODE_TARGET = m.code := by
  unfold State.setBusy State.wrB
  rw [State.rd_wr_ne _ _ _ R.DEV_MODE_BUSY R.DEV_MODE_TARGET _ (by decide) (by decide) (.inr (by decide)),
    State.rd_wr_same _ _ R.DEV_MODE_TARGET _ (by decide) (by decide)]
  exact Nat.mod_eq_of_lt m.code_lt

/-- WRITEBACK is a bit of DEV_MODE beside the mode and BUSY; where it falls, the Silo's writes are write-through. -/
structure WritebackSet (s t : State) : Prop where
  rest : t = { s with regs := t.regs, silo := t.silo }
  reg : ∀ x, x ≠ devMode → t.reg x = s.reg x
  mode : t.mode = s.mode
  busy : t.busy = s.busy

theorem State.updateWriteback_set (s : State) : WritebackSet s s.updateWriteback := by
  have hw (on : Bool) : WritebackSet s (s.wrB B.DEV R.DEV_MODE_WRITEBACK on) :=
    ⟨rfl, fun x hx => State.reg_wrB _ _ _ R.DEV_MODE_WRITEBACK _ hx,
      congrArg Mode.ofCode (State.rd_wr_ne _ _ _ R.DEV_MODE_WRITEBACK R.DEV_MODE_CODE _ (by decide) (by decide) (.inr (by decide))),
      State.flag_wrB_ne _ _ _ R.DEV_MODE_WRITEBACK R.DEV_MODE_BUSY _ (by decide) (by decide) (.inr (by decide))⟩
  unfold State.updateWriteback
  dsimp only
  split
  · exact hw _
  · obtain ⟨rest, reg, mode, busy⟩ := hw (s.mode = .flowing && s.flag B.CIST R.CIST_STATUS_ABOVE &&
      s.flag B.PWR R.PWR_PINS_CISTERN_OK && !s.flag B.DEV R.DEV_MODE_VAULT_PENDING)
    exact ⟨by rw [rest]; rfl, reg, mode, busy⟩

theorem State.forcedEntry_of_free {s : State} (h : s.modes.forced = false) : s.forcedEntry = s := by
  rw [State.forcedEntry, h, if_neg (by simp)]

/-! ### Jobs, steps and the queue of domains -/

theorem State.endJobs_of_none {s : State} (h : s.jobs = []) (o b : Nat) (f : Final) : s.endJobs o b f = s := by
  rw [State.endJobs, h]; rfl

theorem State.endJobs_all_of_none {s : State} (h : s.jobs = []) (o : Nat) (f : Final) (l : List Nat) :
    l.foldl (fun s d => s.endJobs o d f) s = s := by
  induction l with
  | nil => rfl
  | cons d l ih => rw [List.foldl_cons, State.endJobs_of_none h, ih]

theorem State.stamps_eq {β : Type} (f : β → Nat) (l : List β) (s : State) :
    ∃ ts, l.foldl (fun (s : State) e => s.stamp (f e)) s = { s with timers := ts } := by
  induction l generalizing s with
  | nil => exact ⟨_, rfl⟩
  | cons e l ih =>
    obtain ⟨ts, h⟩ := ih (s.stamp (f e))
    exact ⟨ts, h⟩

theorem State.setSteps_eq (s : State) (l : List (Step × StepSt)) :
    ∃ ts, s.setSteps l = { s with timers := ts, modes := { s.modes with steps := startSteps l } } := by
  obtain ⟨ts, h⟩ := s.stamps_eq (fun e : Step × StepSt => Tm.step e.1)
    ((startSteps l).filter fun e => e.2 = .running && stepState s.modes.steps e.1 ≠ some .running)
  unfold State.setSteps
  dsimp only
  rw [h]
  exact ⟨ts, rfl⟩

theorem State.endStep_of_running {s : State} {k : Step} (h : stepState s.modes.steps k = some .running) (v : StepSt) :
    ∃ ts, s.endStep k v =
      { s with timers := ts, modes := { s.modes with steps := startSteps (setStep s.modes.steps k v) } } := by
  rw [State.endStep, if_pos h]
  exact s.setSteps_eq _

theorem State.domainsEnded_eq (s : State) :
    ∃ ts st, s.domainsEnded = { s with timers := ts, modes := { s.modes with steps := st } } := by
  unfold State.domainsEnded State.endStep
  split
  · exact ⟨_, _, rfl⟩
  · split
    · obtain ⟨ts, h⟩ := s.setSteps_eq (setStep s.modes.steps .domains (if s.modes.failedDoms = [] then .done else .failed))
      exact ⟨_, _, h⟩
    · exact ⟨_, _, rfl⟩

theorem State.setToPower_of_noJobs {s : State} (h : s.jobs = []) (l : List Nat) :
    ∃ ts fd, s.setToPower l =
      { s with timers := ts, modes := { s.modes with toPower := s.skipUnneeded l, failedDoms := fd } } := by
  unfold State.setToPower
  dsimp only
  rw [State.endJobs_all_of_none (by split <;> exact h)]
  split
  · exact ⟨_, _, rfl⟩
  · exact ⟨_, _, rfl⟩

theorem State.queueOn_of_noJobs {s : State} (h : s.jobs = []) (hq : s.modes.toPower = []) (l : List Nat) :
    ∃ ts fd, s.queueOn l =
      { s with timers := ts, modes := { s.modes with toPower := s.skipUnneeded l, failedDoms := fd } } := by
  obtain ⟨ts, fd, e⟩ := State.setToPower_of_noJobs h l
  refine ⟨ts, fd, ?_⟩
  rw [State.queueOn, hq, List.nil_append, List.filter_eq_self.mpr (by simp)]
  exact e

theorem skipUnneeded_congr {s t : State} (h : ∀ d, t.needsOn d = s.needsOn d) (l : List Nat) :
    t.skipUnneeded l = s.skipUnneeded l := by
  induction l with
  | nil => rfl
  | cons d l ih => rw [State.skipUnneeded, State.skipUnneeded, h, ih]

/-- Every domain that a domain needs is one of the 80. -/
theorem needs_lt {s : State} {d e : Nat} (h : e ∈ needs s d) : e < 80 := by
  unfold needs at h
  split at h
  · simp only [List.mem_cons, List.not_mem_nil, or_false] at h; rename_i hd; simp at hd; omega
  split at h
  · simp only [List.mem_cons, List.not_mem_nil, or_false] at h; rename_i hd; simp at hd; omega
  repeat' split at h
  all_goals simp only [List.mem_cons, List.not_mem_nil, or_false] at h
  all_goals omega

theorem needsOn_congr {s t : State} (hi : t.image = s.image) (hd : ∀ d, d < 80 → t.domOn d = s.domOn d) (d : Nat) :
    t.needsOn d = s.needsOn d := by
  rw [State.needsOn, State.needsOn, needs_congr hi, Bool.eq_iff_iff, List.all_eq_true, List.all_eq_true]
  exact forall₂_congr fun e he => by rw [hd e (needs_lt he)]

/-! ### Priming begins (R83, Table 2.4) -/

/-- The registers that the ceiling and the limits of VCORE rest on. -/
theorem clampV_congr {s t : State} (hg : t.gov.above100 = s.gov.above100)
    (hr : ∀ x, x = B.PACE + R.PACE_VLIMIT_VMIN.off ∨ x = B.PWR + R.PWR_TJ_TJ.off → t.reg x = s.reg x) (v : Nat) :
    t.clampV v = s.clampV v := by
  have hmin : t.rd B.PACE R.PACE_VLIMIT_VMIN = s.rd B.PACE R.PACE_VLIMIT_VMIN := State.rd_congr (hr _ (.inl rfl))
  have hmax : t.rd B.PACE R.PACE_VLIMIT_VMAX = s.rd B.PACE R.PACE_VLIMIT_VMAX := State.rd_congr (hr _ (.inl rfl))
  have htj : t.rd B.PWR R.PWR_TJ_TJ = s.rd B.PWR R.PWR_TJ_TJ := State.rd_congr (hr _ (.inr rfl))
  have hc : t.vCeil = s.vCeil := by simp only [State.vCeil, State.thermalCeil, hmax, htj, hg]
  simp only [State.clampV, hmin, hc]

/-- The request with which Priming begins. -/
def State.primingRequest (s : State) : Nat := s.clampV (s.rd B.PACE R.PACE_VLIMIT_VMIN)

/-- Nothing was requested of a regulator that answers. -/
def State.unrequested (s : State) : Bool :=
  s.rd B.PACE R.PACE_STATUS_VREQ = 0 && !s.flag B.PACE R.PACE_FLAGS_AVS_LOST

theorem unrequested_congr {s t : State} (hr : ∀ x, x = B.PACE + R.PACE_STATUS_VREQ.off ∨ x = B.PACE + R.PACE_FLAGS_AVS_LOST.off →
    t.reg x = s.reg x) : t.unrequested = s.unrequested := by
  unfold State.unrequested
  rw [State.rd_congr (f := R.PACE_STATUS_VREQ) (hr _ (.inl rfl)), State.flag_congr (f := R.PACE_FLAGS_AVS_LOST) (hr _ (.inr rfl))]

theorem State.unrequested_gov (s : State) (g : Gov) : ({ s with gov := g } : State).unrequested = s.unrequested := rfl

/-- The domains that Priming switches on. -/
def State.toPrime (s : State) : List Nat := onOrder.filter fun d => (s.configured d || d = 79) && !s.domOn d

theorem onOrder_lt : ∀ d ∈ onOrder, d < 80 := by decide

/-- What the begin of Priming leaves, where no job runs. -/
structure PrimingBegun (s t : State) : Prop where
  rest : t = { s with regs := t.regs, modes := t.modes, gov := t.gov, out := t.out, timers := t.timers }
  mode : t.mode = .priming
  busy : t.busy = false
  stepFault : t.modes.stepFault = false
  forced : t.modes.forced = s.modes.forced
  toPower : t.modes.toPower = s.skipUnneeded s.toPrime
  out : t.out = if s.unrequested then s.out ++ [.avs s.primingRequest] else s.out
  held : s.unrequested = false → ∀ x, x ≠ devMode → t.reg x = s.reg x
  reg : ∀ x, x ≠ devMode → x ≠ B.PACE + R.PACE_STATUS_VREQ.off → t.reg x = s.reg x

/-- The state in which Priming has been entered and VCORE requested, before its steps are listed. -/
def State.primed (s : State) : State :=
  let u := s.setMode .priming
  let g := u.primingRequest
  let v := { u with gov := { u.gov with goal := g, calTable := [] } }
  if v.unrequested then v.request g else v

structure Primed (s u : State) : Prop where
  rest : u = { s with regs := u.regs, gov := u.gov, out := u.out }
  mode : u.mode = .priming
  busy : u.busy = false
  out : u.out = if s.unrequested then s.out ++ [.avs s.primingRequest] else s.out
  held : s.unrequested = false → ∀ x, x ≠ devMode → u.reg x = s.reg x
  reg : ∀ x, x ≠ devMode → x ≠ B.PACE + R.PACE_STATUS_VREQ.off → u.reg x = s.reg x

theorem State.request_reg (s : State) (v : Nat) {x : Nat} (hx : x ≠ B.PACE + R.PACE_STATUS_VREQ.off) :
    (s.request v).reg x = s.reg x := by
  unfold State.request
  dsimp only
  rw [State.reg_congr (State.emit_regs _ _)]
  exact (State.reg_congr rfl _).trans (s.reg_wr _ _ R.PACE_STATUS_VREQ v hx)

theorem State.request_eq (s : State) (v : Nat) :
    ∃ r g, s.request v = { s with regs := r, gov := g, out := s.out ++ [.avs v] } := ⟨_, _, rfl⟩

/-- From the state in which the mode is entered, a request is made or not. -/
theorem Primed.of_entered {s v : State} (g : Gov) (e : v = { s with regs := v.regs }) (hm : v.mode = .priming)
    (hb : v.busy = false) (hr : ∀ x, x ≠ devMode → v.reg x = s.reg x) :
    Primed s (if s.unrequested then ({ v with gov := g } : State).request s.primingRequest else { v with gov := g }) := by
  have hv (x : Nat) (hx : x ≠ B.PACE + R.PACE_STATUS_VREQ.off) :
      (({ v with gov := g } : State).request s.primingRequest).reg x = v.reg x := State.request_reg _ _ hx
  obtain ⟨r, g', eq⟩ := ({ v with gov := g } : State).request_eq s.primingRequest
  have ho : v.out = s.out := by rw [e]
  split
  · rename_i hu
    refine ⟨?_, ?_, ?_, ?_, fun h => absurd hu (by simp [h]), fun x hx hp => (hv x hp).trans (hr x hx)⟩
    · rw [eq, e]
    · exact (State.mode_congr (hv _ (by decide))).trans hm
    · exact (State.flag_congr (f := R.DEV_MODE_BUSY) (hv _ (by decide))).trans hb
    · rw [if_pos hu, ← ho, eq]
  · rename_i hu
    refine ⟨?_, hm, hb, ?_, fun _ => hr, fun x hx _ => hr x hx⟩
    · rw [e]
    · rw [if_neg hu, ← ho]

theorem State.primed_holds (s : State) : Primed s s.primed := by
  have hr (x : Nat) (hx : x ≠ devMode) := s.setMode_reg .priming hx
  have hv : (s.setMode .priming).primingRequest = s.primingRequest := by
    unfold State.primingRequest
    rw [State.rd_congr (f := R.PACE_VLIMIT_VMIN) (hr _ (by decide))]
    refine clampV_congr (s := s) (t := s.setMode .priming) rfl (fun x hx => hr x ?_) _
    rcases hx with rfl | rfl <;> decide
  have hu : (s.setMode .priming).unrequested = s.unrequested := by
    refine unrequested_congr (s := s) (t := s.setMode .priming) fun x hx => hr x ?_
    rcases hx with rfl | rfl <;> decide
  unfold State.primed
  dsimp only
  rw [State.unrequested_gov, hu, hv]
  exact Primed.of_entered (v := s.setMode .priming)
    { (s.setMode .priming).gov with goal := s.primingRequest, calTable := [] } rfl (s.mode_setMode .priming) (s.busy_setMode .priming) hr

theorem Primed.image {s u : State} (h : Primed s u) : u.image = s.image := by rw [h.rest]

theorem Primed.domOn {s u : State} (h : Primed s u) {d : Nat} (hd : d < 80) : u.domOn d = s.domOn d := by
  refine State.domOn_congr (h.reg _ ?_ ?_) <;>
    simp only [devMode, B.DEV, B.PWR, B.PACE, R.PACE_STATUS_VREQ] <;> omega

/-- The steps of Priming (Table 4.3). -/
def State.primingSteps (s : State) : List Step :=
  [Step.domains, .calibration, .hbmTraining] ++ (if s.image.memtest then [Step.marchTest] else []) ++ [Step.load] ++
    (if s.flag B.DEV R.DEV_MODE_VAULT_PENDING then [Step.restore] else [])

/-- Priming has been entered, and its steps are to be listed. -/
def State.unstepped (u : State) : State :=
  { u with modes := { u.modes with committed := false, fetchPaused := false, stepFault := false, failedDoms := [],
                                   toPower := [], steps := [] } }

theorem State.startPriming_eq (s : State) : s.startPriming =
    ((s.primed.unstepped.setSteps (s.primed.primingSteps.map fun k => (k, StepSt.waiting))).queueOn
      (s.primed.unstepped.setSteps (s.primed.primingSteps.map fun k => (k, StepSt.waiting))).toPrime).domainsEnded := rfl

theorem State.startPriming_begun (s : State) (hj : s.jobs = []) : PrimingBegun s s.startPriming := by
  rw [State.startPriming_eq]
  have h := s.primed_holds
  generalize s.primed = u at h ⊢
  obtain ⟨ts, e1⟩ := u.unstepped.setSteps_eq (u.primingSteps.map fun k => (k, StepSt.waiting))
  have hju : u.jobs = [] := by rw [h.rest]; exact hj
  have hdom (d : Nat) (hd : d < 80) : (u.unstepped.setSteps (u.primingSteps.map fun k => (k, StepSt.waiting))).domOn d = s.domOn d := by
    rw [e1]; exact h.domOn hd
  have himg : (u.unstepped.setSteps (u.primingSteps.map fun k => (k, StepSt.waiting))).image = s.image := by
    rw [e1]
    exact h.image
  have hl : (u.unstepped.setSteps (u.primingSteps.map fun k => (k, StepSt.waiting))).toPrime = s.toPrime := by
    refine List.filter_congr fun d hd => ?_
    rw [State.configured, State.configured, himg, hdom d (onOrder_lt d hd)]
  have hk := skipUnneeded_congr (needsOn_congr himg hdom)
  obtain ⟨ts2, fd, e2⟩ := State.queueOn_of_noJobs (s := u.unstepped.setSteps (u.primingSteps.map fun k => (k, StepSt.waiting)))
    (by rw [e1]; exact hju) (by rw [e1]; rfl) s.toPrime
  obtain ⟨ts3, st, e3⟩ := State.domainsEnded_eq (State.queueOn _ s.toPrime)
  rw [hl, e3, e2, hk, e1]
  have hm : u.modes = s.modes := by rw [h.rest]
  refine ⟨?_, h.mode, h.busy, rfl, ?_, rfl, h.out, h.held, h.reg⟩
  · rw [h.rest]; rfl
  · exact (congrArg ModeSt.forced hm : u.modes.forced = s.modes.forced)

end Sys2Proof.Machine

namespace Sys2Proof.Machine

/-! ## Warm resets (R103, R104, Table 4.9) -/

theorem State.settleOld_eq (s : State) (q : Req) (g e : Nat) : ∃ ts, s.settleOld q g e = { s with tags := ts } := by
  unfold State.settleOld
  split
  · split
    · exact ⟨_, rfl⟩
    · exact ⟨_, rfl⟩
  · exact ⟨_, rfl⟩

theorem State.settleAll_eq (s : State) (l : List (Job × Bool)) :
    ∃ ts, s.settleAll l = { s with jobs := [], regJob := none, tags := ts } := by
  have hf : ∃ ts, l.foldl (fun (s : State) e => s.settleOld e.1.q e.1.mgen (bit e.2)) { s with jobs := [], regJob := none } =
      { s with jobs := [], regJob := none, tags := ts } := by
    refine foldl_keeps (fun s t => ∃ ts, t = { s with tags := ts }) (fun s => ⟨s.tags, rfl⟩) ?_ _
      (fun s e => s.settleOld_eq _ _ _) l _
    rintro a b c ⟨ts, rfl⟩ ⟨ts', rfl⟩
    exact ⟨ts', rfl⟩
  obtain ⟨ts, h⟩ := hf
  unfold State.settleAll
  dsimp only
  rw [h]
  exact ⟨_, rfl⟩

/-- A fold of steps that each change registers alone. -/
theorem foldl_regs {β : Type} (f : State → β → State) (h : ∀ s x, ∃ r, f s x = { s with regs := r }) (l : List β) (s : State) :
    ∃ r, l.foldl f s = { s with regs := r } := by
  refine foldl_keeps (fun s t => ∃ r, t = { s with regs := r }) (fun s => ⟨s.regs, rfl⟩) ?_ f h l s
  rintro a b c ⟨r, rfl⟩ ⟨r', rfl⟩
  exact ⟨r', rfl⟩

theorem State.warmFaults_eq (s : State) : ∃ r f, s.warmFaults = { s with regs := r, flt := f } := by
  have hone (s : State) (n : Nat) : ∃ r, (if s.sticky n then
      (s.wrB (srcBase n) R.FLT_SRC_CARRIED true).wrB (srcBase n) R.FLT_SRC_WIN false else s) = { s with regs := r } := by
    split
    · obtain ⟨r, h⟩ := s.wrB_eq (srcBase n) R.FLT_SRC_CARRIED true
      obtain ⟨r', h'⟩ := ({ s with regs := r } : State).wrB_eq (srcBase n) R.FLT_SRC_WIN false
      exact ⟨r', by rw [h, h']⟩
    · exact ⟨s.regs, rfl⟩
  obtain ⟨r, h⟩ := foldl_regs _ hone (List.range 352) s
  unfold State.warmFaults
  rw [h]
  exact ⟨_, _, rfl⟩

theorem State.warmTime_eq (s : State) : ∃ r t, s.warmTime = { s with regs := r, tim := t } := by
  have hstate : ∃ r, (if s.timeState = 2 then (s.wr B.TIME R.TIME_STATE_STATE 3).wr B.TIME R.TIME_STATE_CLASS (if s.tim.viaPtp then 135 else 7)
    else if s.timeState = 1 then (s.wr B.TIME R.TIME_STATE_STATE 0).wr B.TIME R.TIME_BOUND_SRC_BOUND 0xFFFF else s) =
      { s with regs := r } := by
    split
    · exact ⟨_, rfl⟩
    · split <;> exact ⟨_, rfl⟩
  obtain ⟨r, h⟩ := hstate
  obtain ⟨r', h'⟩ := foldl_regs (fun (s : State) n =>
    (s.wrB (outReg n) R.TIME_OUT_STAT_TRIP false).wrB (outReg n) R.TIME_OUT_STAT_FEED_ON false)
    (fun s n => ⟨_, rfl⟩) (List.range 20) (({ s with regs := r } : State).wr B.TIME R.TIME_STATE_PHASE_SRC 0 |>.wr B.TIME R.TIME_STATE_FREQ_SRC 0)
  unfold State.warmTime
  dsimp only
  rw [h, h']
  exact ⟨_, _, rfl⟩

/-- What a warm reset clears in the units leaves the Lockkeeper's record of the modes, the count and the vault. -/
theorem State.warmUnits_holds (s : State) : s.warmUnits.modes = s.modes ∧ s.warmUnits.now = s.now ∧ s.warmUnits.vault = s.vault ∧
    s.warmUnits.qps = [] := by
  unfold State.warmUnits
  dsimp only
  generalize hu : State.onSec _ _ = u
  have h : u.modes = s.modes ∧ u.now = s.now ∧ u.vault = s.vault ∧ u.qps = [] := by rw [← hu]; exact ⟨rfl, rfl, rfl, rfl⟩
  obtain ⟨r, t, e⟩ := u.showDebug.warmTime_eq
  rw [e]
  exact h

/-- A field of DEV_RESET_CAUSE is one bit. -/
structure IsCause (f : RegField) : Prop where
  off : f.off = 0x14
  bit : f.hi = f.lo
  lt : f.lo < 32

/-- What a warm reset with its cause leaves. -/
structure WarmReset (s t : State) (f : RegField) : Prop where
  mode : t.mode = .priming
  busy : t.busy = false
  jobs : t.jobs = []
  cross : t.cross = []
  qps : t.qps = []
  cause : t.flag B.DEV f = true
  vault : t.vault = s.vault
  now : t.now = s.now

/-- Before Priming begins again, the Lockkeeper has settled what it held, and shows the cause. -/
theorem State.warmReset_of_settled {u v : State} (f : RegField) (hf : IsCause f) (hv : v.jobs = [] ∧ v.qps = [] ∧ v.cross = [] ∧
    v.modes.forced = false ∧ v.vault = u.vault ∧ v.now = u.now) (hc : v.flag B.DEV f = true) :
    WarmReset u v.startPriming.updateWriteback.forcedEntry f := by
  obtain ⟨hj, hq, hx, hfree, hvault, hnow⟩ := hv
  have h := v.startPriming_begun hj
  generalize v.startPriming = w at h ⊢
  have k := w.updateWriteback_set
  generalize w.updateWriteback = t at k ⊢
  have hmodes : t.modes = w.modes := by rw [k.rest]
  rw [State.forcedEntry_of_free (by rw [hmodes, h.forced, hfree])]
  have hreg : t.reg (B.DEV + f.off) = v.reg (B.DEV + f.off) :=
    (k.reg _ (by rw [hf.off]; decide)).trans (h.reg _ (by rw [hf.off]; decide) (by rw [hf.off]; decide))
  refine ⟨k.mode.trans h.mode, k.busy.trans h.busy, ?_, ?_, ?_, (State.flag_congr hreg).trans hc, ?_, ?_⟩ <;> rw [k.rest, h.rest]
  all_goals assumption

theorem State.warmReset_holds (s : State) (f : RegField) (hf : IsCause f) (hfree : s.modes.forced = false) :
    WarmReset s (s.warmReset f) f := by
  unfold State.warmReset
  dsimp only
  have h0 : Losing s { s with mc := { s.mc with flipping := [] } } := (Losing.refl s).of_regs rfl rfl rfl rfl rfl
  have h1 := h0.loseDomains (l := offOrder.filter fun d => !keptWarm d) (by decide)
  generalize List.foldl State.loseDomain _ _ = a at h1 ⊢
  have h2 := h1.fold (f := fun s (m : Link) => (s.mailboxReset m).resetLink m false)
    (l := (List.finRange 16).filter fun (m : Link) => s.linkExists m && !s.domOn (domHP m)) fun _ m _ hs =>
      (hs.mailboxReset m).resetLink m false
  generalize List.foldl _ a _ = b at h2 ⊢
  have h3 := h2.fold (f := State.coreMailboxReset) (l := (List.finRange 32).filter fun (n : CoreIx) => !s.domOn (domCL n))
    fun _ n _ hs => hs.coreMailboxReset n
  generalize List.foldl State.coreMailboxReset _ _ = c at h3 ⊢
  generalize List.foldl _ [] c.regs = r
  obtain ⟨r1, fl, e1⟩ := State.warmFaults_eq { c with regs := r }
  rw [e1]
  have h4 := State.warmUnits_holds { c with regs := r1, flt := fl }
  generalize State.warmUnits _ = d at h4 ⊢
  obtain ⟨hm, hn, hv, hq⟩ := h4
  obtain ⟨ts, e2⟩ := d.settleAll_eq (s.jobs.map fun j => (j, s.jobCommitted j))
  have hc : ((d.settleAll (s.jobs.map fun j => (j, s.jobCommitted j))).wrB B.DEV f true).flag B.DEV f = true :=
    State.flag_wrB_same _ _ _ _ (by rw [hf.bit]; exact hf.lt) hf.bit.symm
  rw [e2] at hc ⊢
  have hmod : c.modes = s.modes ∧ c.now = s.now ∧ c.vault = s.vault := ⟨h3.modes, h3.now, h3.vault⟩
  obtain ⟨r2, e3⟩ := State.wrB_eq { d with jobs := [], regJob := none, tags := ts } B.DEV f true
  rw [e3] at hc ⊢
  refine State.warmReset_of_settled (u := s) f hf ⟨rfl, hq, rfl, ?_, ?_, ?_⟩ hc
  · exact (congrArg ModeSt.forced (hm.trans hmod.1)).trans hfree
  · exact hv.trans hmod.2.2
  · exact hn.trans hmod.2.1

end Sys2Proof.Machine

namespace Sys2Proof.Machine

/-! ## Drain (R85, R373) -/

/-- What is on in Drain at most: PD0, S0, and the Silo with the vault's port (R24). -/
def drainSet : List Nat := [0, 65, 74, 75]

/-- What the entry to Drain leaves, by its cause. -/
structure Drained (s t : State) (c : DrainCause) : Prop where
  mode : t.mode = .drain
  busy : t.busy = false
  writeback : t.flag B.DEV R.DEV_MODE_WRITEBACK = false
  power : c = .power → t.flag B.DEV R.DEV_RESET_CAUSE_DRAIN_POWER = true
  resetAfter : t.modes.resetAfter = decide (c = .pin)
  pfLow : t.modes.pfLowUntil = s.modes.pfLowUntil
  reg : ∀ x, standing x → x ≠ devMode → x ≠ B.DEV + 0x14 → t.reg x = s.reg x
  domOn : ∀ d, d < 80 → t.domOn d = true → d ∈ drainSet

theorem Losing.answer {a s : State} (h : Losing a s) (r : Reply) : Losing a (s.answer r) := h.of_regs rfl rfl rfl rfl rfl

theorem exists_ite {α β γ : Type} {f : α → β → γ} {c : Prop} [Decidable c] {x y : γ} (hx : ∃ a b, x = f a b) (hy : ∃ a b, y = f a b) :
    ∃ a b, (if c then x else y) = f a b := by
  split
  · exact hx
  · exact hy

theorem State.siloFreeze_eq (s : State) (pin : Bool) : ∃ c v, s.siloFreeze pin = { s with silo := c, vault := v } := by
  unfold State.siloFreeze
  exact exists_ite (f := fun c v => ({ s with silo := c, vault := v } : State)) ⟨_, _, rfl⟩ ⟨_, _, rfl⟩

theorem drain_loses : ∀ d, d < 80 → d ∉ drainSet → d ∈ offOrder.filter fun d => !(d = 65 || d = 74 || d = 75) := by decide

/-- DEV_RESET_CAUSE shows what started a Drain (Table 4.11). -/
def State.showDrain (s : State) : DrainCause → State
  | .power => s.wrB B.DEV R.DEV_RESET_CAUSE_DRAIN_POWER true
  | .latched => s.wrB B.DEV R.DEV_RESET_CAUSE_DRAIN_LATCHED true
  | .pin => s

theorem State.showDrain_reg (s : State) (c : DrainCause) {x : Nat} (hx : x ≠ B.DEV + 0x14) : (s.showDrain c).reg x = s.reg x := by
  cases c
  · exact State.reg_wrB _ _ _ R.DEV_RESET_CAUSE_DRAIN_POWER _ hx
  · exact State.reg_wrB _ _ _ R.DEV_RESET_CAUSE_DRAIN_LATCHED _ hx
  · rfl

theorem State.showDrain_power (s : State) : (s.showDrain .power).flag B.DEV R.DEV_RESET_CAUSE_DRAIN_POWER = true :=
  s.flag_wrB_same _ R.DEV_RESET_CAUSE_DRAIN_POWER _ (by decide) rfl

/-- Once the domains are off, the Silo is frozen and the mode shown. -/
theorem Drained.of_lost {s u t : State} {c : DrainCause} {l : List (Job × Bool)} {b : Bool} (h : Losing s u)
    (hd : ∀ d, d < 80 → u.domOn d = true → d ∈ drainSet)
    (ht : ∃ m, t = { (((((u.settleAll l).siloFreeze b).setMode .drain).wrB B.DEV R.DEV_MODE_WRITEBACK false).showDrain c) with
        modes := m } ∧ m.resetAfter = decide (c = .pin) ∧ m.pfLowUntil = ((u.settleAll l).siloFreeze b).modes.pfLowUntil) :
    Drained s t c := by
  obtain ⟨m, ht, hr, hp⟩ := ht
  have hv : ((u.settleAll l).siloFreeze b).modes = u.modes ∧ ∀ x, ((u.settleAll l).siloFreeze b).reg x = u.reg x := by
    obtain ⟨ts, e⟩ := u.settleAll_eq l
    obtain ⟨c, v, e'⟩ := (u.settleAll l).siloFreeze_eq b
    rw [e', e]; exact ⟨rfl, fun _ => rfl⟩
  obtain ⟨hmod, hreg⟩ := hv
  rw [hmod] at hp
  generalize (u.settleAll l).siloFreeze b = v at hreg ht
  have hm := v.mode_setMode .drain
  have hb := v.busy_setMode .drain
  have hv (x : Nat) (hx : x ≠ devMode) := v.setMode_reg .drain hx
  generalize v.setMode .drain = w at *
  have hw (x : Nat) (hx : x ≠ devMode) : (w.wrB B.DEV R.DEV_MODE_WRITEBACK false).reg x = u.reg x :=
    (State.reg_wrB _ _ _ R.DEV_MODE_WRITEBACK _ hx).trans ((hv x hx).trans (hreg x))
  have hw1 : (w.wrB B.DEV R.DEV_MODE_WRITEBACK false).mode = .drain :=
    (congrArg Mode.ofCode (State.rd_wr_ne _ _ _ R.DEV_MODE_WRITEBACK R.DEV_MODE_CODE _ (by decide) (by decide) (.inr (by decide)))).trans hm
  have hw2 : (w.wrB B.DEV R.DEV_MODE_WRITEBACK false).busy = false :=
    (State.flag_wrB_ne _ _ _ R.DEV_MODE_WRITEBACK R.DEV_MODE_BUSY _ (by decide) (by decide) (.inr (by decide))).trans hb
  have hw3 := w.flag_wrB_same B.DEV R.DEV_MODE_WRITEBACK false (by decide) rfl
  generalize w.wrB B.DEV R.DEV_MODE_WRITEBACK false = x at *
  have hx (k : Nat) (hk : k ≠ B.DEV + 0x14) : t.reg k = x.reg k := by rw [ht]; exact x.showDrain_reg c hk
  refine ⟨(State.mode_congr (hx _ (by decide))).trans hw1, (State.flag_congr (f := R.DEV_MODE_BUSY) (hx _ (by decide))).trans hw2,
    (State.flag_congr (f := R.DEV_MODE_WRITEBACK) (hx _ (by decide))).trans hw3, ?_, by rw [ht]; exact hr,
    by rw [ht]; exact hp.trans (congrArg _ h.modes), fun k hk h1 h2 => (hx k h2).trans ((hw k h1).trans (h.reg k hk)), ?_⟩
  · rintro rfl
    rw [ht]; exact x.showDrain_power
  · intro d hd80 hon
    have hk : t.reg (B.PWR + 4 * (d / 32)) = u.reg (B.PWR + 4 * (d / 32)) :=
      (hx _ (by simp only [B.PWR, B.DEV]; omega)).trans (hw _ (by simp only [devMode, B.PWR, B.DEV]; omega))
    exact hd d hd80 ((State.domOn_congr hk).symm.trans hon)

theorem State.enterDrain_drained (s : State) (c : DrainCause) (hm : s.mode ∈ [.priming, .flowing, .trickle, .survey]) :
    Drained s (s.enterDrain c) c := by
  have h0 : Losing s { s with mc := { s.mc with flipping := [] } } := (Losing.refl s).of_regs rfl rfl rfl rfl rfl
  have h1 := h0.loseDomains (l := offOrder.filter fun d => !(d = 65 || d = 74 || d = 75)) (by decide)
  have hd (d : Nat) (hd : d < 80) (hon : (((offOrder.filter fun d => !(d = 65 || d = 74 || d = 75)).foldl State.loseDomain
      { s with mc := { s.mc with flipping := [] } }).domOn d) = true) : d ∈ drainSet := by
    by_contra hnot
    rw [State.domOn_loseDomains _ (by decide) (drain_loses d hd hnot)] at hon
    exact absurd hon (by simp)
  unfold State.enterDrain
  dsimp only
  generalize List.foldl State.loseDomain _ _ = a at h1 hd ⊢
  have h2 : Losing s { a with cross := a.cross.filter fun x => x.who = Master.lk && a.domOn (keyDom x.key) && !x.job } :=
    h1.of_low rfl rfl rfl (fun x hx => List.mem_of_mem_filter hx) fun _ _ => rfl
  replace hd : ∀ d, d < 80 → ({ a with cross := a.cross.filter fun x => x.who = Master.lk && a.domOn (keyDom x.key) && !x.job } :
      State).domOn d = true → d ∈ drainSet := hd
  generalize ({ a with cross := _ } : State) = v at h2 hd ⊢
  have h3 := Losing.ite (c := (a.cross.any fun x => x.who = Master.lk && !a.domOn (keyDom x.key)) = true)
    (h2.answer .busError) h2
  have hd3 (d : Nat) (hlt : d < 80) (hon : (if (a.cross.any fun x => x.who = Master.lk && !a.domOn (keyDom x.key)) = true then
      v.answer .busError else v).domOn d = true) : d ∈ drainSet := hd d hlt (by split at hon <;> exact hon)
  generalize (if (a.cross.any _) = true then _ else _ : State) = u at h3 hd3 ⊢
  split
  · rename_i hk; simp [hk] at hm
  · rename_i hk; simp [hk] at hm
  all_goals
    refine .of_lost h3 hd3 (l := s.jobs.map fun j => (j, s.jobCommitted j)) (b := decide (c = .pin)) ?_
    cases c <;> exact ⟨_, rfl, rfl, rfl⟩

end Sys2Proof.Machine

namespace Sys2Proof.Machine

/-! ## Resets (R85, R103 to R105, R455) -/

theorem exec_deviceWarmReset (c : WarmCause) (s : State) : exec (.deviceWarmReset c) s = execDeviceWarmReset c s := rfl
theorem exec_coldReset (c : ColdCause) (s : State) : exec (.coldReset c) s = execColdReset c s := rfl
theorem exec_sysResetLow (s : State) : exec .sysResetLow s = execSysResetLow s := rfl
theorem exec_powerFail (n : Nat) (s : State) : exec (.powerFail n) s = execPowerFail n s := rfl

/-- The bit of DEV_RESET_CAUSE that a warm reset sets (Table 4.9). -/
def warmCauseOf (c : WarmCause) (m : Mode) : RegField :=
  if c = .fatal then R.DEV_RESET_CAUSE_WARM_FATAL
  else if m = .survey then R.DEV_RESET_CAUSE_WARM_SURVEY else R.DEV_RESET_CAUSE_WARM_CMD

theorem warmCauseOf_isCause (c : WarmCause) (m : Mode) : IsCause (warmCauseOf c m) := by
  unfold warmCauseOf
  repeat' split
  all_goals exact ⟨rfl, rfl, by decide⟩

/-- A trigger that has a row is taken at once where no transition runs (R85). -/
theorem State.trigger_warm {s : State} (c : WarmCause) (hb : s.busy = false) (hm : s.mode ∈ [.priming, .flowing, .trickle, .survey]) :
    s.trigger (.warm (c = .fatal)) = s.warmReset (warmCauseOf c s.mode) := by
  unfold State.trigger
  rw [if_neg (by simp [hb])]
  simp only [List.mem_cons, List.not_mem_nil, or_false] at hm
  cases c <;> rcases hm with h | h | h | h <;> simp [State.takeTrigger, warmCauseOf, h]

theorem deviceWarmReset_acts (c : WarmCause) (s : State) (hb : s.busy = false) (hf : s.modes.forced = false)
    (hm : s.mode ∈ [.priming, .flowing, .trickle, .survey]) : Gives (.deviceWarmReset c) s fun t =>
      t.mode = .priming ∧ t.busy = false ∧ t.jobs = [] ∧ t.qps = [] ∧
      t.flag B.DEV (if c = .fatal then R.DEV_RESET_CAUSE_WARM_FATAL
        else if s.mode = .survey then R.DEV_RESET_CAUSE_WARM_SURVEY else R.DEV_RESET_CAUSE_WARM_CMD) = true ∧
      t.vault = s.vault ∧ t.now = s.now := by
  refine ⟨_, by rw [exec_deviceWarmReset, execDeviceWarmReset, State.trigger_warm c hb hm], ?_⟩
  have h := s.warmReset_holds _ (warmCauseOf_isCause c s.mode) hf
  exact ⟨h.mode, h.busy, h.jobs, h.qps, h.cause, h.vault, h.now⟩

theorem deviceWarmReset_waits (c : WarmCause) (s : State) (hb : s.busy = true) : exec (.deviceWarmReset c) s =
    .next { s with modes := { s.modes with waiting := s.modes.waiting ++ [Trigger.warm (decide (c = .fatal))] } } := by
  rw [exec_deviceWarmReset, execDeviceWarmReset, State.trigger, if_pos hb]

theorem deviceWarmReset_inDrain (s : State) (hb : s.busy = false) (hm : s.mode = .drain) :
    exec (.deviceWarmReset .fatal) s = .next { s with modes := { s.modes with fatalAfter := true } } := by
  rw [exec_deviceWarmReset, execDeviceWarmReset, State.trigger, if_neg (by simp [hb])]
  simp [State.takeTrigger, hm]

/-- What a cold reset leaves (Table 4.9). -/
structure ColdReset (s t : State) (power : Bool) : Prop where
  mode : t.mode = .fallow
  domOn : ∀ d, d < 80 → t.domOn d = decide (d = 0)
  cause : t.flag B.DEV R.DEV_RESET_CAUSE_COLD = true
  latched : t.latched = (s.latched && !power)
  kept : t.vault = s.vault ∧ t.sec.otp = s.sec.otp ∧ t.sec.nor = s.sec.nor
  empty : t.tags = [] ∧ t.jobs = [] ∧ t.pipes = [] ∧ t.qps = [] ∧ t.cnts = []
  now : t.now = 0

/-- The domains that are on after power-on (R103). -/
theorem regReset_domains : ∀ d, d < 80 → bitOf (regReset (B.PWR + 4 * (d / 32))).toNat (d % 32) = decide (d = 0) := by decide

theorem State.reg_of_empty {s : State} (h : s.regs = []) (x : Nat) : s.reg x = regReset x := by
  rw [State.reg, h]; rfl

theorem State.coldReset_holds (s : State) (power : Bool) : ColdReset s (s.coldReset power) power := by
  unfold State.coldReset
  dsimp only
  generalize (s.reg (B.PWR + R.PWR_PINS_ALIVE.off)).toNat % 32 - (s.reg (B.PWR + R.PWR_PINS_ALIVE.off)).toNat % 2 = pins
  have hr (x : Nat) : s.coldKeep.reg x = regReset x := State.reg_of_empty rfl x
  have hk : (s.coldKeep.vault = s.vault ∧ s.coldKeep.sec.otp = s.sec.otp ∧ s.coldKeep.sec.nor = s.sec.nor) ∧
      (s.coldKeep.tags = [] ∧ s.coldKeep.jobs = [] ∧ s.coldKeep.pipes = [] ∧ s.coldKeep.qps = [] ∧ s.coldKeep.cnts = []) ∧
      s.coldKeep.now = 0 := ⟨⟨rfl, rfl, rfl⟩, ⟨rfl, rfl, rfl, rfl, rfl⟩, rfl⟩
  generalize s.coldKeep = u at hr hk ⊢
  obtain ⟨hkept, hempty, hnow⟩ := hk
  have hreg (x : Nat) (h1 : x ≠ devMode) (h2 : x ≠ B.PWR + R.PWR_PINS_ALIVE.off) :
      ((u.wrW (B.PWR + R.PWR_PINS_ALIVE.off) pins).wrB B.DEV R.DEV_MODE_LATCHED (s.latched && !power)).reg x = regReset x :=
    (State.reg_wrB _ _ _ R.DEV_MODE_LATCHED _ h1).trans ((State.reg_wrW _ _ _ _).trans ((if_neg h2).trans (hr x)))
  generalize hv : (u.wrW (B.PWR + R.PWR_PINS_ALIVE.off) pins).wrB B.DEV R.DEV_MODE_LATCHED (s.latched && !power) = v at hreg ⊢
  refine ⟨?_, fun d hd => ?_, ?_, ?_, hv ▸ hkept, hv ▸ hempty, hv ▸ hnow⟩
  · have hcode : v.rd B.DEV R.DEV_MODE_CODE = 0 := by
      rw [← hv, State.wrB, State.rd_wr_ne _ _ _ R.DEV_MODE_LATCHED R.DEV_MODE_CODE _ (by decide) (by decide) (.inr (by decide)),
        State.rd, State.reg_wrW, if_neg (by decide), hr]
      decide
    exact congrArg Mode.ofCode hcode
  · refine Eq.trans ?_ (regReset_domains d hd)
    exact congrArg (fun w : Word => bitOf w.toNat (d % 32))
      (hreg _ (by simp only [devMode, B.DEV, B.PWR]; omega) (by simp only [R.PWR_PINS_ALIVE, B.PWR]; omega))
  · have hone : v.rd B.DEV R.DEV_RESET_CAUSE_COLD = 1 := by
      rw [State.rd, hreg _ (by decide) (by decide)]
      decide
    exact congrArg (· == 1) hone
  · have hl : v.flag B.DEV R.DEV_MODE_LATCHED = (s.latched && !power) := by
      rw [← hv]
      exact State.flag_wrB_same _ _ R.DEV_MODE_LATCHED _ (by decide) rfl
    exact hl

theorem sysResetLow_acts (s : State) (hm : s.mode ∈ [.priming, .flowing, .trickle, .survey])
    (hg : s.flag B.PWR R.PWR_PINS_MAIN_PG = true) :
    (s.dirtyBlocks ≠ 0 → Gives .sysResetLow s fun t => t.mode = .drain ∧ t.modes.resetAfter = true ∧
      ∀ d, d < 80 → t.domOn d = true → d ∈ [0, 65, 74, 75]) ∧
    (s.dirtyBlocks = 0 → Gives .sysResetLow s fun t => t.mode = .fallow ∧ t.vault = s.vault) := by
  have he : exec .sysResetLow s = .next (if s.dirtyBlocks ≠ 0 then s.enterDrain .pin else s.coldReset false) := by
    rw [exec_sysResetLow, execSysResetLow]
    simp only [List.mem_cons, List.not_mem_nil, or_false] at hm
    rcases hm with h | h | h | h <;> simp only [h, hg, Bool.true_and, decide_eq_true_eq] <;> split <;> rfl
  refine ⟨fun hd => ⟨_, he, ?_⟩, fun hd => ⟨_, he, ?_⟩⟩
  · rw [if_pos hd]
    have h := s.enterDrain_drained .pin hm
    exact ⟨h.mode, h.resetAfter, h.domOn⟩
  · rw [if_neg (by simp [hd])]
    have h := s.coldReset_holds false
    exact ⟨h.mode, h.kept.1⟩

/-- POWER_FAIL_N is low for a time. -/
def State.powerLow (s : State) (n : Nat) : State :=
  { s.wrB B.PWR R.PWR_PINS_POWER_FAIL_N false with modes := { s.modes with pfLowUntil := s.now + n } }

theorem exec_powerFail_long {n : Nat} (s : State) (hn : 1000 ≤ n) : exec (.powerFail n) s = .next ((s.powerLow n).enterDrain .power) := by
  rw [exec_powerFail, execPowerFail]
  dsimp only
  rw [if_pos hn]
  rfl

theorem State.mode_powerLow (s : State) (n : Nat) : (s.powerLow n).mode = s.mode :=
  State.mode_congr ((State.reg_congr rfl _).trans (s.reg_wrB _ _ R.PWR_PINS_POWER_FAIL_N false (by decide)))

theorem powerFail_drains (n : Nat) (s : State) (hn : 1000 ≤ n) (hm : s.mode ∈ [.priming, .flowing, .trickle, .survey]) :
    Gives (.powerFail n) s fun t => t.mode = .drain ∧ t.busy = false ∧ t.flag B.DEV R.DEV_RESET_CAUSE_DRAIN_POWER = true ∧
      t.flag B.DEV R.DEV_MODE_WRITEBACK = false ∧ t.modes.pfLowUntil = s.now + n ∧ t.flag B.PWR R.PWR_PINS_POWER_FAIL_N = false ∧
      ∀ d, d < 80 → t.domOn d = true → d ∈ [0, 65, 74, 75] := by
  have h := (s.powerLow n).enterDrain_drained .power (by rw [State.mode_powerLow]; exact hm)
  have hlow : (s.powerLow n).flag B.PWR R.PWR_PINS_POWER_FAIL_N = false :=
    (State.flag_congr (State.reg_congr rfl _)).trans (s.flag_wrB_same B.PWR R.PWR_PINS_POWER_FAIL_N false (by decide) rfl)
  exact ⟨_, exec_powerFail_long s hn, h.mode, h.busy, h.power rfl, h.writeback, h.pfLow,
    (State.flag_congr (h.reg _ (.inr (.inl (by decide))) (by decide) (by decide))).trans hlow, h.domOn⟩

theorem powerFail_inDrain (n : Nat) (s : State) (hn : 1000 ≤ n) (hm : s.mode = .drain) :
    Gives (.powerFail n) s fun t => t.mode = .drain ∧ t.silo = s.silo ∧ t.vault = s.vault := by
  have h : (s.powerLow n).enterDrain .power = s.powerLow n := by
    rw [State.enterDrain, State.mode_powerLow, hm]
    rfl
  exact ⟨_, exec_powerFail_long s hn, by rw [h, State.mode_powerLow, hm], by rw [h]; rfl, by rw [h]; rfl⟩

/-- Settles O11, by what the loss of the units leaves: a warm reset, a cold reset, SYS_RESET_N and POWER_FAIL_N. -/
theorem resetEvents : Obligations.ResetEvents := by
  unfold Obligations.ResetEvents
  refine ⟨deviceWarmReset_acts, deviceWarmReset_waits, deviceWarmReset_inDrain, fun c s => ?_, sysResetLow_acts,
    powerFail_drains, fun n s hn => ?_, powerFail_inDrain⟩
  · obtain ⟨mode, domOn, cause, latched, ⟨hv, ho, hn⟩, ⟨ht, hj, hp, hq, hc⟩, now⟩ := s.coldReset_holds (c = .auxPower)
    refine ⟨_, by rw [exec_coldReset, execColdReset], mode, domOn, cause, ?_, hv, ho, hn, ht, hj, hp, hq, hc, now⟩
    rw [latched, decide_not]
  · rw [exec_powerFail, execPowerFail, if_neg (by omega), if_pos hn]

end Sys2Proof.Machine

namespace Sys2Proof.Machine

/-! ## A mode is entered (Tables 4.1 and 4.7, R128, R445) -/

/-! ### Doorbells that were held -/

section
variable {a s : State} (h : Losing a s)
include h

theorem Losing.onQp (r : Nat) (f : Qp → Qp) : Losing a (s.onQp r f) := h.of_regs rfl rfl rfl rfl rfl

theorem Losing.ringIrq (r : Nat) (rx : Bool) : Losing a (s.ringIrq r rx) := by
  unfold State.ringIrq
  refine .ite (h.emit _) ?_
  split
  · exact h
  · exact h.interrupt _ _ _

theorem Losing.checkIrq (r : Nat) (rx : Bool) : Losing a (s.checkIrq r rx) := by
  unfold State.checkIrq
  exact .ite ((h.onQp _ _).ringIrq _ _) h

theorem Losing.ringError (r c : Nat) : Losing a (s.ringError r c) := by
  unfold State.ringError
  exact .ite h ((h.onQp _ _).ringIrq _ _)

theorem Losing.updateWaits : Losing a s.updateWaits := by
  unfold State.updateWaits
  exact h.fold fun _ _ _ hs => hs.of_regs rfl rfl rfl rfl rfl

theorem Losing.ringBell (r k v : Nat) : Losing a (s.ringBell r k v) := by
  unfold State.ringBell
  exact .ite (.ite (h.ringError _ _) (h.onQp _ _)) (.ite (.ite (h.ringError _ _) (h.onQp _ _).updateWaits)
    (.ite (h.ringError _ _) ((h.onQp _ _).checkIrq _ _).updateWaits))

theorem Losing.releaseBells (r : Nat) : Losing a (s.releaseBells r) := by
  unfold State.releaseBells
  exact .ite h (Losing.fold (h.onQp _ _) fun _ _ _ hs => .ite (hs.ringBell _ _ _) hs)

theorem Losing.releaseAll : Losing a s.releaseAll := by
  unfold State.releaseAll
  exact h.fold fun _ _ _ hs => hs.releaseBells _

/-! ### Domains are switched off while no access crosses -/

theorem Losing.endLongReach : Losing a s.endLongReach := by
  unfold State.endLongReach
  exact h.fold fun _ k _ hs => (hs.wrB _ _ (husk_above k)).wrB _ _ (husk_above k)

end

theorem State.switchOff_of_calm {s : State} (hx : s.cross = []) (d : Nat) : s.switchOff d =
    if d = 0 || !s.domOn d then s else (if d = 79 then s.endLongReach else s).loseDomain d := by
  unfold State.switchOff
  rw [hx]
  rfl

theorem Losing.switchOff {a s : State} (h : Losing a s) (hx : a.cross = []) {d : Nat} (hd : d < 80) : Losing a (s.switchOff d) := by
  rw [State.switchOff_of_calm (h.calm hx)]
  exact .ite h (Losing.loseDomain (.ite h.endLongReach h) hd)

theorem State.domOn_switchOff {s : State} (hx : s.cross = []) {d : Nat} (hd : d < 80) (h0 : d ≠ 0) : (s.switchOff d).domOn d = false := by
  rw [State.switchOff_of_calm hx]
  split
  · rename_i hc
    simpa [h0] using hc
  · exact State.domOn_loseDomain _ hd h0

theorem Losing.switchOffAll {a s : State} (h : Losing a s) (hx : a.cross = []) {l : List Nat} (hl : ∀ d ∈ l, d < 80) :
    Losing a (s.switchOffAll l) := h.fold fun _ d hd hs => hs.switchOff hx (hl d hd)

theorem State.domOn_switchOffAll {s : State} (hx : s.cross = []) {l : List Nat} (hl : ∀ d ∈ l, d < 80) {d : Nat} (hd : d ∈ l)
    (h0 : d ≠ 0) : (s.switchOffAll l).domOn d = false := by
  induction l generalizing s with
  | nil => simp at hd
  | cons e l ih =>
    have hl' : ∀ x ∈ l, x < 80 := fun x hx => hl x (List.mem_cons_of_mem _ hx)
    have h1 := (Losing.refl s).switchOff hx (hl e List.mem_cons_self)
    have hd80 := hl d hd
    rw [State.switchOffAll, List.foldl_cons]
    by_cases he : d ∈ l
    · exact ih (h1.calm hx) hl' he
    · obtain rfl : d = e := (List.mem_cons.mp hd).resolve_right he
      exact ((Losing.refl _).switchOffAll (h1.calm hx) hl').off d hd80 (State.domOn_switchOff hx hd80 h0)

/-! ### The entry itself -/

/-- The domains that the entry to a mode switches off (Table 4.1). -/
def State.unwanted (s : State) (m : Mode) : List Nat :=
  offOrder.filter fun d => !s.configured d && (m = .flowing || (m = .survey && d ≠ 79)) || (m = .flowing && d = 79)

theorem State.unwanted_lt (s : State) (m : Mode) : ∀ d ∈ s.unwanted m, d < 80 := by
  intro d hd
  have : ∀ d ∈ offOrder, d < 80 := by decide
  exact this d (List.mem_of_mem_filter hd)

theorem State.unwanted_flowing (s : State) : 79 ∈ s.unwanted .flowing := by
  refine List.mem_filter.mpr ⟨by decide, ?_⟩
  simp

/-- What the entry to a mode leaves, where no access crosses. -/
structure Entered (s t : State) (m : Mode) : Prop where
  mode : t.mode = m
  busy : t.busy = false
  lclock : s.mode = .priming → t.flag B.SEC R.SEC_LOCK_LCLOCK = true
  waiting : t.modes.waiting = s.modes.waiting
  forced : t.modes.forced = s.modes.forced
  paused : m = .survey → t.modes.fetchPaused = true
  off : m = .flowing → t.domOn 79 = false

/-- LCLOCK is set on the way out of Priming, and long reach ends on the way out of the modes that allow it. -/
def State.leaving (s : State) : State :=
  let s := if s.mode = .priming then s.wrB B.SEC R.SEC_LOCK_LCLOCK true else s
  if s.mode = .flowing then s else s.endLongReach

/-- Fetch pauses in Survey, and goes on in the other modes. -/
def State.fetchFor (s : State) (m : Mode) : State :=
  if m = .survey then { s with modes := { s.modes with fetchPaused := true } } else s.resumeFetch

theorem State.enterMode_eq (s : State) (m : Mode) : s.enterMode m =
    (((({ (s.leaving.switchOffAll (s.leaving.unwanted m)).setMode m with modes :=
      { ((s.leaving.switchOffAll (s.leaving.unwanted m)).setMode m).modes with committed := false, failedDoms := [] } } : State).setSteps
        (stepsKept m ((s.leaving.switchOffAll (s.leaving.unwanted m)).setMode m).modes.steps)).fetchFor m).endJobs 0x0701 0
          (Final.mk' St.DONE 0 [])).updateWriteback := rfl

theorem State.leaving_calm (s : State) (hx : s.cross = []) : s.leaving.cross = [] ∧ s.leaving.modes = s.modes ∧
    (s.mode = .priming → s.leaving.flag B.SEC R.SEC_LOCK_LCLOCK = true) := by
  unfold State.leaving
  dsimp only
  generalize hu : (if s.mode = .priming then s.wrB B.SEC R.SEC_LOCK_LCLOCK true else s) = u
  have h1 : u.cross = [] ∧ u.modes = s.modes ∧ (s.mode = .priming → u.flag B.SEC R.SEC_LOCK_LCLOCK = true) := by
    rw [← hu]
    split
    · exact ⟨hx, rfl, fun _ => s.flag_wrB_same _ R.SEC_LOCK_LCLOCK _ (by decide) rfl⟩
    · rename_i hm
      exact ⟨hx, rfl, fun h => absurd h hm⟩
  obtain ⟨hcross, hmodes, hl⟩ := h1
  have h2 := Losing.ite (c := u.mode = .flowing) (.refl u) (Losing.refl u).endLongReach
  exact ⟨h2.calm hcross, h2.modes.trans hmodes, fun h =>
    (State.flag_congr (h2.reg _ (.inr (.inr (by decide))))).trans (hl h)⟩

theorem State.fetchFor_losing (s : State) (m : Mode) :
    ∃ b, Losing { s with modes := { s.modes with fetchPaused := b } } (s.fetchFor m) ∧ (m = .survey → b = true) := by
  unfold State.fetchFor State.resumeFetch
  split
  · exact ⟨true, .refl _, fun _ => rfl⟩
  · rename_i hm
    exact ⟨false, (Losing.releaseAll (.refl _)).updateWaits, fun h => absurd h hm⟩

theorem State.enterMode_entered (s : State) (m : Mode) (hx : s.cross = []) : Entered s (s.enterMode m) m := by
  rw [State.enterMode_eq]
  obtain ⟨hx1, hm1, hl1⟩ := s.leaving_calm hx
  have hoff : m = .flowing → (s.leaving.switchOffAll (s.leaving.unwanted m)).domOn 79 = false := by
    rintro rfl
    exact State.domOn_switchOffAll hx1 (s.leaving.unwanted_lt _) s.leaving.unwanted_flowing (by decide)
  have h1 := (Losing.refl s.leaving).switchOffAll hx1 (s.leaving.unwanted_lt m)
  generalize s.leaving.switchOffAll (s.leaving.unwanted m) = u at *
  have hm2 := u.mode_setMode m
  have hb2 := u.busy_setMode m
  have hr2 (x : Nat) (hx : x ≠ devMode) := u.setMode_reg m hx
  obtain ⟨r, e2⟩ := u.setMode_eq m
  have hmod2 : (u.setMode m).modes = s.modes := by rw [e2]; exact h1.modes.trans hm1
  have hwait : (u.setMode m).modes.waiting = s.modes.waiting := by rw [hmod2]
  have hforced : (u.setMode m).modes.forced = s.modes.forced := by rw [hmod2]
  generalize u.setMode m = v at *
  obtain ⟨ts, e3⟩ := State.setSteps_eq { v with modes := { v.modes with committed := false, failedDoms := [] } }
    (stepsKept m v.modes.steps)
  rw [e3]
  obtain ⟨b, h4, hp⟩ := State.fetchFor_losing { v with timers := ts, modes :=
    { v.modes with committed := false, failedDoms := [], steps := startSteps (stepsKept m v.modes.steps) } } m
  have h5 := h4.endJobs 0x0701 0 (Final.mk' St.DONE 0 [])
  generalize State.endJobs _ _ _ _ = w at h5 ⊢
  have h6 := w.updateWriteback_set
  have hmod6 : w.updateWriteback.modes = w.modes := by rw [h6.rest]
  have hreg (x : Nat) (hs : standing x) (hx : x ≠ devMode) : w.updateWriteback.reg x = s.leaving.reg x :=
    (h6.reg x hx).trans ((h5.reg x hs).trans ((hr2 x hx).trans (h1.reg x hs)))
  refine ⟨h6.mode.trans (h5.mode.trans hm2), h6.busy.trans (h5.busy.trans hb2), fun h => ?_, ?_, ?_, fun h => ?_, fun h => ?_⟩
  · exact (State.flag_congr (hreg _ (.inr (.inr (by decide))) (by decide))).trans (hl1 h)
  · rw [hmod6, h5.modes]; exact hwait
  · rw [hmod6, h5.modes]; exact hforced
  · rw [hmod6, h5.modes]; exact hp h
  · refine (State.domOn_congr (h6.reg _ (by decide))).trans (h5.off 79 (by decide) ?_)
    exact (State.domOn_congr (hr2 _ (by decide))).trans (hoff h)

/-! ## Priming (R82 to R84, R88, R468, Tables 4.2 and 4.3) -/

theorem exec_primingEntry (s : State) : exec .primingEntry s = execPrimingEntry s := rfl
theorem exec_primingStepDone (k : Step) (ok : Bool) (s : State) : exec (.primingStepDone k ok) s = execPrimingStepDone k ok s := rfl
theorem exec_primingStepTimeout (k : Step) (s : State) : exec (.primingStepTimeout k) s = execPrimingStepTimeout k s := rfl
theorem exec_primingComplete (s : State) : exec .primingComplete s = execPrimingComplete s := rfl
theorem exec_mainPgRise (s : State) : exec .mainPgRise s = execMainPgRise s := rfl

theorem primingEntry_begins (s : State) (hp : s.mayPrime = true) (hf : s.modes.forced = false) (hj : s.jobs = []) :
    Gives .primingEntry s fun t =>
    t.mode = .priming ∧ t.busy = false ∧ t.modes.stepFault = false ∧
    t.modes.toPower = s.skipUnneeded (onOrder.filter fun d => (s.configured d || d = 79) && !s.domOn d) ∧
    (s.rd B.PACE R.PACE_STATUS_VREQ = 0 → s.flag B.PACE R.PACE_FLAGS_AVS_LOST = false →
      t.out = s.out ++ [.avs (s.clampV (s.rd B.PACE R.PACE_VLIMIT_VMIN))]) ∧
    (s.rd B.PACE R.PACE_STATUS_VREQ ≠ 0 → t.out = s.out ∧ t.rd B.PACE R.PACE_STATUS_VREQ = s.rd B.PACE R.PACE_STATUS_VREQ) ∧
    t = { s with regs := t.regs, modes := t.modes, gov := t.gov, out := t.out, timers := t.timers } := by
  have h := s.startPriming_begun hj
  refine ⟨s.startPriming, ?_, h.mode, h.busy, h.stepFault, h.toPower, fun hv hl => ?_, fun hv => ?_, h.rest⟩
  · rw [exec_primingEntry, execPrimingEntry, if_pos hp, State.forcedEntry_of_free (h.forced.trans hf)]
  · rw [h.out, if_pos (by simp [State.unrequested, hv, hl])]
    rfl
  · have hu : s.unrequested = false := by simp [State.unrequested, hv]
    exact ⟨by rw [h.out, hu]; rfl, State.rd_congr (h.held hu _ (by decide))⟩

theorem State.advance_of_calm {s : State} (hb : s.busy = false) (hw : s.modes.waiting = []) (hf : s.modes.forced = false) :
    s.advance.testWaiting = s := by
  rw [State.advance_of_idle hb, State.testWaiting_of_calm hb hw hf]

/-- A step that ends well lets the steps that wait for it start. -/
theorem calibration_ends (s : State) (hr : stepState s.modes.steps .calibration = some .running) (hs : s.settledMode)
    (hw : s.gov.calTable.any (fun e => e.1 = s.clampV s.vCeil) = true) (hl : s.stepLate .calibration = false) :
    Gives (.primingStepDone .calibration true) s fun t =>
      t.modes = { s.modes with steps := startSteps (setStep s.modes.steps .calibration .done) } ∧
      t = { s with modes := t.modes, timers := t.timers } := by
  obtain ⟨hb, hwait, hf⟩ := hs
  obtain ⟨ts, e⟩ := State.endStep_of_running hr .done
  refine ⟨{ s with timers := ts, modes := { s.modes with steps := startSteps (setStep s.modes.steps .calibration .done) } }, ?_, rfl, rfl⟩
  rw [exec_primingStepDone, execPrimingStepDone, if_neg (by simp [hr, State.stepWorked, hw]), if_neg (by simp [hl]), e]
  exact congrArg Host.Outcome.next (State.advance_of_calm (s := { s with timers := ts, modes :=
    { s.modes with steps := startSteps (setStep s.modes.steps .calibration .done) } }) hb hwait hf)

/-- What a failed step leaves (R88). -/
theorem State.stepFails_holds (s : State) {k : Step} (hr : stepState s.modes.steps k = some .running) (hs : s.settledMode) (hm : s.mild 6) :
    (s.stepFails k).modes.stepFault = true ∧ (s.stepFails k).sticky 6 = true ∧ (s.stepFails k).mode = s.mode ∧
      (s.stepFails k).modes.steps = startSteps (setStep s.modes.steps k .failed) := by
  obtain ⟨hb, hwait, hf⟩ := hs
  obtain ⟨ts, e⟩ := State.endStep_of_running hr .failed
  unfold State.stepFails
  dsimp only
  rw [e]
  generalize hu : ({ s with timers := ts, modes := _ } : State) = u
  have hmodes : u.modes = { s.modes with steps := startSteps (setStep s.modes.steps k .failed), stepFault := true } := by rw [← hu]
  have hrest : u.busy = s.busy ∧ u.mode = s.mode ∧ u.mild 6 := by rw [← hu]; exact ⟨rfl, rfl, hm⟩
  obtain ⟨hub, hum, hmild⟩ := hrest
  obtain ⟨ht, hsticky⟩ := u.raise_of_mild 0 0 (by omega) hmild
  generalize u.raise 6 0 0 = v at ht hsticky ⊢
  have hvm : v.modes = { s.modes with steps := startSteps (setStep s.modes.steps k .failed), stepFault := true } := ht.modes.trans hmodes
  have hvb : v.busy = false := ht.busy.trans (hub.trans hb)
  rw [State.advance_of_calm hvb (by rw [hvm]; exact hwait) (by rw [hvm]; exact hf)]
  exact ⟨by rw [hvm], hsticky, ht.mode.trans hum, by rw [hvm]⟩

theorem primingStepTimeout_of_running {s : State} {k : Step} (hk : k ≠ .domains) : exec (.primingStepTimeout k) s =
    .next (if stepState s.modes.steps k = some .running && s.stepLate k then s.stepFails k else s) := by
  rw [exec_primingStepTimeout]
  cases k with
  | domains => exact absurd rfl hk
  | _ => rfl

/-- The steps with a bound (R468). -/
theorem stepLate_iff {s : State} {k : Step} {b t : Nat} (hb : stepBound k = some b) (ht : s.last (Tm.step k) = some t) :
    s.stepLate k = true ↔ t + b < s.now := by
  rw [State.stepLate, hb, ht]
  exact decide_eq_true_iff

/-! ### The end of Priming -/

/-- A transition under way from Priming, with no domain left to be switched on. -/
structure Leaving (s u : State) (m : Mode) : Prop where
  mode : u.mode = .priming
  busy : u.busy = true
  target : u.rd B.DEV R.DEV_MODE_TARGET = m.code
  queue : u.modes.toPower = []
  waiting : u.modes.waiting = s.modes.waiting
  forced : u.modes.forced = s.modes.forced
  cross : u.cross = s.cross
  domOn : u.domOn 79 = s.domOn 79

theorem Leaving.of_setBusy {s : State} (m : Mode) (hm : s.mode = .priming) (hq : s.modes.toPower = []) (b : Bool) :
    Leaving s { s.setBusy m with modes := { s.modes with committed := b } } m :=
  ⟨(s.mode_setBusy m).trans hm, s.busy_setBusy m, s.target_setBusy m, hq, rfl, rfl, rfl,
    State.domOn_congr (s.setBusy_reg m (by decide))⟩

theorem Leaving.to_flowing {s u : State} (h : Leaving s u .flowing) : u.advance = u.enterMode .flowing := by
  unfold State.advance
  dsimp only
  rw [h.busy, h.target, Mode.ofCode_code]
  simp [h.queue, h.mode]

theorem State.queueOn_nil {s : State} (hq : s.modes.toPower = []) :
    ∃ fd, s.queueOn [] = { s with modes := { s.modes with toPower := [], failedDoms := fd } } := by
  unfold State.queueOn State.setToPower
  rw [hq]
  exact ⟨_, rfl⟩

/-- PD79 is on, so that nothing is left to be switched on for Survey. -/
theorem Leaving.surveyOn {s u : State} (h : Leaving s u .survey) (h79 : s.domOn 79 = true) : Leaving s u.surveyOn .survey := by
  have hon : (onOrder.filter fun d => (d = 79 || (decide (u.mode = .trickle) && u.configured d)) && !u.domOn d) = [] := by
    refine List.filter_eq_nil_iff.mpr fun d _ => ?_
    rw [h.mode]
    by_cases hd : d = 79
    · simp [hd, h.domOn, h79]
    · simp [hd]
  obtain ⟨fd, e⟩ := State.queueOn_nil (s := { u with modes := { u.modes with committed := true } }) h.queue
  have hu : u.surveyOn = ({ u with modes := { u.modes with committed := true } } : State).queueOn [] := by
    unfold State.surveyOn
    dsimp only
    rw [hon, if_neg (by simp [h.mode])]
  rw [hu, e]
  exact ⟨h.mode, h.busy, h.target, rfl, h.waiting, h.forced, h.cross, h.domOn⟩

theorem Leaving.to_survey {s u : State} (h : Leaving s u .survey) (h79 : s.domOn 79 = true) :
    ∃ v, Leaving s v .survey ∧ u.advance = v.enterMode .survey := by
  have hs := h.surveyOn h79
  have hadv : u.advance = if u.modes.committed then u.enterMode .survey else u.surveyOn.enterMode .survey := by
    unfold State.advance
    dsimp only
    rw [h.busy, h.target, Mode.ofCode_code]
    simp [h.queue, h.mode, hs.queue, hs.mode]
  rw [hadv]
  split
  · exact ⟨u, h, rfl⟩
  · exact ⟨u.surveyOn, hs, rfl⟩

/-- What the end of Priming leaves. -/
theorem Leaving.ends {s u : State} {m : Mode} (h : Leaving s u m) (hx : s.cross = []) (hw : s.modes.waiting = [])
    (hf : s.modes.forced = false) : ((u.enterMode m).testWaiting).mode = m ∧
      ((u.enterMode m).testWaiting).flag B.SEC R.SEC_LOCK_LCLOCK = true ∧
      (m = .survey → ((u.enterMode m).testWaiting).modes.fetchPaused = true) ∧
      (m = .flowing → ((u.enterMode m).testWaiting).domOn 79 = false) := by
  have e := u.enterMode_entered m (h.cross.trans hx)
  rw [State.testWaiting_of_calm e.busy (e.waiting.trans (h.waiting.trans hw)) (e.forced.trans (h.forced.trans hf))]
  exact ⟨e.mode, e.lclock h.mode, e.paused, e.off⟩

theorem exec_primingComplete_of_ended {s : State} (hm : s.mode = .priming) (hb : s.busy = false) (hlc : s.lcState ≠ 4)
    (he : ∀ e ∈ s.modes.steps, e.2 = .done) : exec .primingComplete s =
      if s.surveyAtBoot then .next (s.beginTransition .survey)
      else if s.flag B.DEV R.DEV_BOOT_CFG_AUTO_FLOW then .next (s.beginTransition .flowing) else .next s := by
  rw [exec_primingComplete, execPrimingComplete, if_neg]
  simpa [hm, hb, hlc] using fun a b h => he (a, b) h

theorem primingComplete_ends (s : State) (hm : s.mode = .priming) (hs : s.settledMode) (hlc : s.lcState ≠ 4)
    (he : ∀ e ∈ s.modes.steps, e.2 = .done) (hq : s.modes.toPower = []) (hx : s.cross = []) :
    (s.surveyAtBoot = false → s.flag B.DEV R.DEV_BOOT_CFG_AUTO_FLOW = true → Gives .primingComplete s fun t =>
      t.mode = .flowing ∧ t.domOn 79 = false ∧ t.flag B.SEC R.SEC_LOCK_LCLOCK = true) ∧
    (s.surveyAtBoot = true → s.domOn 79 = true → Gives .primingComplete s fun t =>
      t.mode = .survey ∧ t.modes.fetchPaused = true ∧ t.flag B.SEC R.SEC_LOCK_LCLOCK = true) := by
  obtain ⟨hb, hw, hf⟩ := hs
  have hexec := exec_primingComplete_of_ended hm hb hlc he
  refine ⟨fun h1 h2 => ?_, fun h1 h79 => ?_⟩
  · have h := Leaving.of_setBusy .flowing hm hq false
    have e : s.beginTransition .flowing =
        ({ s.setBusy .flowing with modes := { s.modes with committed := false } } : State).advance.testWaiting := by
      have ht : s.mode ≠ .trickle := by simp [hm]
      have hb : (s.setBusy .flowing).mode ≠ .trickle := fun h' => ht ((s.mode_setBusy .flowing).symm.trans h')
      unfold State.beginTransition
      dsimp only
      rw [if_neg ht]
      exact congrArg (fun u : State => u.advance.testWaiting) (if_neg hb)
    obtain ⟨hmode, hl, -, hoff⟩ := h.ends hx hw hf
    refine ⟨_, by rw [hexec, h1, h2]; rfl, ?_⟩
    rw [e, h.to_flowing]
    exact ⟨hmode, hoff rfl, hl⟩
  · have h := Leaving.of_setBusy .survey hm hq s.modes.committed
    have e : s.beginTransition .survey = (s.setBusy .survey).advance.testWaiting := by
      show (if (s.setBusy .survey).mode = .priming then s.setBusy .survey else _).advance.testWaiting = _
      rw [if_pos ((s.mode_setBusy .survey).trans hm)]
    obtain ⟨v, hv, ev⟩ := h.to_survey h79
    obtain ⟨hmode, hl, hpaused, -⟩ := hv.ends hx hw hf
    refine ⟨_, by rw [hexec, h1]; rfl, ?_⟩
    have eu : (s.setBusy .survey).advance = v.enterMode .survey := ev
    rw [e, eu]
    exact ⟨hmode, hpaused rfl, hl⟩

theorem primingComplete_holds (s : State) (h : s.mode ≠ .priming ∨ s.busy = true ∨ s.lcState = 4 ∨ (∃ e ∈ s.modes.steps, e.2 ≠ .done) ∨
    s.surveyAtBoot = false ∧ s.flag B.DEV R.DEV_BOOT_CFG_AUTO_FLOW = false) : exec .primingComplete s = .next s := by
  rw [exec_primingComplete, execPrimingComplete]
  split
  · rfl
  · rename_i hc
    simp only [Bool.or_eq_true, decide_eq_true_eq, List.any_eq_true, not_or, not_exists, not_and, Decidable.not_not,
      Bool.not_eq_true] at hc
    obtain ⟨⟨⟨hm, hb⟩, hl⟩, he⟩ := hc
    rcases h with h | h | h | ⟨e, h, hd⟩ | ⟨h1, h2⟩
    · exact absurd hm h
    · exact absurd (hb.symm.trans h) (by simp)
    · exact absurd h hl
    · exact absurd (he e h) hd
    · rw [h1, h2]; rfl

theorem mainPgRise_shows (s : State) : Gives .mainPgRise s fun t => t.flag B.PWR R.PWR_PINS_MAIN_PG = true ∧
    t.modes.pgAt = some (s.now : Int) ∧ t.flag B.PWR R.PWR_PINS_POWER_FAIL_N = decide (s.modes.pfLowUntil ≤ s.now) ∧
    t = { s with regs := t.regs, modes := { s.modes with pgAt := some (s.now : Int) } } := by
  refine ⟨_, exec_mainPgRise s, ?_, rfl, ?_, rfl⟩
  · refine (State.flag_wrB_ne _ _ _ R.PWR_PINS_POWER_FAIL_N R.PWR_PINS_MAIN_PG _ (by decide) (by decide) (.inr (by decide))).trans ?_
    exact s.flag_wrB_same _ R.PWR_PINS_MAIN_PG true (by decide) rfl
  · exact State.flag_wrB_same _ _ R.PWR_PINS_POWER_FAIL_N _ (by decide) rfl

/-- Settles O10: Priming begins, its steps end or fail, and it ends as the boot configuration says. -/
theorem primingEvents : Obligations.PrimingEvents := by
  unfold Obligations.PrimingEvents
  refine ⟨primingEntry_begins, fun s h => ?_, calibration_ends, fun s k hr hs hm => ?_, fun s k hr hs hm hk hl => ?_,
    fun s k hk hl => ?_, fun s b k hkb t ht => ?_, fun s => ?_, fun s hm hs hlc he hq hx => primingComplete_ends s hm hs hlc he hq hx,
    primingComplete_holds, mainPgRise_shows⟩
  · rw [exec_primingEntry, execPrimingEntry, if_neg (by simp [h])]
  · refine ⟨_, ?_, s.stepFails_holds hr hs hm⟩
    rw [exec_primingStepDone, execPrimingStepDone, if_neg (by simp [hr]), if_pos (by simp)]
  · refine ⟨_, ?_, s.stepFails_holds hr hs hm⟩
    rw [primingStepTimeout_of_running hk, if_pos (by simp [hr, hl])]
  · rw [primingStepTimeout_of_running hk, if_neg (by simp [hl])]
  · simp only [List.mem_cons, Prod.mk.injEq, List.not_mem_nil, or_false] at hkb
    rcases hkb with ⟨rfl, rfl⟩ | ⟨rfl, rfl⟩ | ⟨rfl, rfl⟩ | ⟨rfl, rfl⟩ <;> exact stepLate_iff rfl ht
  · rw [primingStepTimeout_of_running (by simp), if_neg (by simp [State.stepLate, stepBound])]

end Sys2Proof.Machine

namespace Sys2Proof.Machine
/-! ### What a fault message leaves of the links (R423, R428)

`LinkTraces s t`: between `s` and `t` fault messages were taken and hosts notified. A notified link has its last TLP, and its power
state, changed; its other fields, the registers above the links' and the links' counters stay. -/

structure LinkTraces (s t : State) : Prop where
  link : ∀ m, ∃ n, t.link m = { s.link m with lastTlp := n }
  field : ∀ m (f : RegField), m < 16 → f.off = 8 → f.hi < 20 ∨ 21 < f.lo → t.rd (B.HPT m) f = s.rd (B.HPT m) f
  reg : ∀ a, B.HPT 16 ≤ a → a < B.KCUM 0 → t.reg a = s.reg a
  cnt : ∀ a, B.HPT 0 ≤ a → t.cnt a = s.cnt a

theorem LinkTraces.refl (s : State) : LinkTraces s s := ⟨fun _ => ⟨_, rfl⟩, fun _ _ _ _ _ => rfl, fun _ _ _ => rfl, fun _ _ => rfl⟩

theorem LinkTraces.trans {s t u : State} (h : LinkTraces s t) (k : LinkTraces t u) : LinkTraces s u where
  link m := by
    obtain ⟨n, hn⟩ := h.link m
    obtain ⟨n', hn'⟩ := k.link m
    exact ⟨n', by rw [hn', hn]⟩
  field m f hm ho hb := (k.field m f hm ho hb).trans (h.field m f hm ho hb)
  reg a hl hh := (k.reg a hl hh).trans (h.reg a hl hh)
  cnt a ha := (k.cnt a ha).trans (h.cnt a ha)

/-- What leaves the links, the registers from theirs to the KCU's copies, and the counters from theirs on. -/
theorem LinkTraces.of_high {s t : State} (hl : t.links = s.links) (hr : ∀ a, B.HPT 0 ≤ a → a < B.KCUM 0 → t.reg a = s.reg a)
    (hc : ∀ a, B.HPT 0 ≤ a → t.cnt a = s.cnt a) : LinkTraces s t where
  link m := ⟨(s.link m).lastTlp, by unfold State.link; rw [hl]⟩
  field m f hm ho _ := State.rd_congr (hr _ (by rw [ho]; simp only [B.HPT]; omega) (by rw [ho]; simp only [B.HPT, B.KCUM]; omega))
  reg a h1 h2 := hr a (Nat.le_trans (by decide) h1) h2
  cnt := hc

theorem LinkTraces.of_regs {s t : State} (hl : t.links = s.links) (hr : t.regs = s.regs) (hc : t.cnts = s.cnts) : LinkTraces s t :=
  .of_high hl (fun _ _ _ => State.reg_congr hr _) fun a _ => by unfold State.cnt; rw [hc]

/-- A register below those of the links is written. -/
theorem LinkTraces.setReg (s : State) {k : Nat} (v : Word) (hk : k < B.HPT 0) : LinkTraces s (s.setReg k v) :=
  .of_high rfl (fun a ha _ => s.reg_setReg_ne k a v (by omega)) fun _ _ => rfl

theorem State.cnt_countN_ne (s : State) {a b : Nat} (n : Nat) (h : b ≠ a) : (s.countN a n).cnt b = s.cnt b := by
  unfold State.countN
  split
  · rfl
  · rw [State.cnt_setCnt, if_neg h]

/-- An event counts in the performance counters of its block only. -/
theorem State.cnt_event_ne (s : State) (p : Option Nat) (code : Nat) {b : Nat} (h : ∀ i, i < pmcNum p → b ≠ pmcCnt p i) :
    (s.event p code).cnt b = s.cnt b := by
  unfold State.event
  split
  · rfl
  · refine List.foldlRecOn (motive := fun t : State => t.cnt b = s.cnt b) _ _ rfl fun t ht i hi => ?_
    dsimp only
    split
    · split
      · exact ht
      · exact (t.cnt_countN_ne 1 (h i (List.mem_range.mp hi))).trans ht
    · exact ht

theorem eventOf_faultMsgs : eventOf (B.FLT + C.FLT_MSGS) = some (none, 5) := by decide

/-- A fault message is a global event. -/
theorem State.count_faultMsgs (s : State) :
    s.count (B.FLT + C.FLT_MSGS) = (s.countN (B.FLT + C.FLT_MSGS) 1).event none 5 := by
  unfold State.count
  rw [eventOf_faultMsgs]

theorem pmcCnt_none_lt (i : Nat) (hi : i < pmcNum none) : pmcCnt none i < B.HPT 0 := by
  simp only [pmcCnt, pmcNum, Option.isSome_none, Bool.false_eq_true, if_false, B.PMC, C.PMC_GCNT, B.HPT] at hi ⊢
  omega

theorem faultMsgs_lt : B.FLT + C.FLT_MSGS < B.HPT 0 := by decide

theorem LinkTraces.countMsg (s : State) : LinkTraces s (s.count (B.FLT + C.FLT_MSGS)) := by
  obtain ⟨c, f, e⟩ := s.count_eq (B.FLT + C.FLT_MSGS)
  refine .of_high (by rw [e]) (fun _ _ _ => by rw [e]; rfl) fun a ha => ?_
  rw [State.count_faultMsgs, State.cnt_event_ne _ none 5 fun i hi h => ?_]
  · exact s.cnt_countN_ne 1 fun h => absurd (Nat.lt_of_lt_of_le faultMsgs_lt ha) (h ▸ Nat.lt_irrefl _)
  · exact absurd (Nat.lt_of_lt_of_le (pmcCnt_none_lt i hi) ha) (h ▸ Nat.lt_irrefl _)

theorem State.link_setLink (s : State) (m n : Nat) (l : LinkSt) : (s.setLink m l).link n = if n = m then l else s.link n :=
  tget_tput _ _ _ _ _

theorem State.link_congr {s t : State} (h : t.links = s.links) (m : Nat) : t.link m = s.link m := by
  unfold State.link; rw [h]

theorem State.link_wr (s : State) (b : Nat) (f : RegField) (v n : Nat) : (s.wr b f v).link n = s.link n :=
  State.link_congr (State.wr_links _ _ _ _) n

theorem State.link_wake (s : State) (m n : Nat) :
    (s.wake m).link n = if n = m then { s.link m with lastTlp := s.now } else s.link n := by
  unfold State.wake
  dsimp only
  rw [State.link_setLink]
  split
  · rw [apply_ite State.now, State.wr_now, ite_self, apply_ite (State.link · m), State.link_wr, ite_self]
  · rw [apply_ite (State.link · n), State.link_wr, ite_self]

theorem LinkTraces.wake (s : State) {m : Nat} (hm : m < 16) : LinkTraces s (s.wake m) where
  link n := by
    rw [State.link_wake]
    split
    · rename_i h
      exact ⟨_, by rw [h]⟩
    · exact ⟨_, rfl⟩
  field n f hn ho hb := by
    unfold State.wake
    dsimp only
    rw [State.rd_congr (State.reg_congr (State.setLink_regs _ _ _) _)]
    split
    · exact s.rd_wr_ne _ _ R.HPT_LINK_PM f _ (by decide) (by decide) (.inr (by simpa [R.HPT_LINK_PM] using hb))
    · rfl
  reg a h1 _ := s.wake_reg m a (by simp only [B.HPT, R.HPT_LINK_PM] at h1 ⊢; omega)
  cnt a _ := by
    obtain ⟨r, l, e⟩ := s.wake_eq m
    rw [e]; rfl

theorem LinkTraces.post (s : State) {m : Nat} (hm : m < 16) (f : Nat) (o : Out) : LinkTraces s (s.post m f o) := by
  unfold State.post
  dsimp only
  split
  · exact .refl s
  · split
    · exact LinkTraces.trans (.of_regs (State.emit_links _ _) (State.emit_regs _ _) (State.emit_cnts _ _)) (.wake _ hm)
    · exact .of_regs rfl rfl rfl

theorem LinkTraces.interrupt (s : State) {m : Nat} (hm : m < 16) (f v : Nat) : LinkTraces s (s.interrupt m f v) := by
  unfold State.interrupt
  dsimp only
  split
  · exact .refl s
  · split
    · exact .of_regs rfl rfl rfl
    · exact .post s hm f _

theorem LinkTraces.notifyFault (s : State) (n : Nat) : LinkTraces s (s.notifyFault n) := by
  unfold State.notifyFault
  refine List.foldlRecOn (motive := LinkTraces s) _ _ (.refl s) fun t ht m hm => ?_
  dsimp only
  split
  · exact ht.trans (.interrupt t (List.mem_range.mp hm) 0 _)
  · exact ht

theorem srcBase_high {n : Nat} (h : n < 352) : srcBase n + 0x1000 < B.HPT 0 := by simp only [srcBase, B.FLT, B.HPT]; omega

theorem LinkTraces.startWindow (s : State) {n : Nat} (c : Nat) (hn : n < 352) : LinkTraces s (s.startWindow n c) := by
  unfold State.startWindow
  have hw : LinkTraces s (s.wrB (srcBase n) R.FLT_SRC_WIN true) := .setReg s _ (srcBase_high hn)
  generalize s.wrB (srcBase n) R.FLT_SRC_WIN true = u at hw ⊢
  exact hw.trans (.of_regs rfl rfl rfl)

theorem LinkTraces.capture (s : State) {n : Nat} (hn : n < 352) : LinkTraces s (s.capture n) := by
  unfold State.capture
  dsimp only
  split
  · refine .trans ?_ (.notifyFault _ n)
    have hs : LinkTraces s (s.setSticky n true) := .setReg s _ (by have := stickyReg_lt hn; simp only [B.FLT, B.HPT] at this ⊢; omega)
    split
    · exact hs.trans (.startWindow _ _ hn)
    · exact hs
  · split
    · exact .startWindow s _ hn
    · exact .refl s

theorem LinkTraces.queueMsg (s : State) (f : FaultMsg) : LinkTraces s (s.queueMsg f) := by
  unfold State.queueMsg
  refine (LinkTraces.countMsg s).trans ?_
  generalize s.count (B.FLT + C.FLT_MSGS) = u
  split
  · exact .of_regs rfl rfl rfl
  · exact LinkTraces.trans (.setReg u _ (by decide)) (.capture _ (by omega))

theorem kcum_le (m : Nat) : B.KCUM 0 ≤ B.KCUM m := by simp only [B.KCUM]; omega

theorem LinkTraces.kcuFree (s : State) (m : Nat) (b : Bool) : LinkTraces s (s.kcuFree m b) := by
  have hle := kcum_le m
  unfold State.kcuFree
  split
  · dsimp only
    have hreset : LinkTraces s (s.resetRegs fun a => B.KCUM m + 0x20 ≤ a && a < B.KCUM m + 0x60) := by
      refine .of_high rfl (fun a _ ha => (State.reg_resetRegs _ _ _).trans (if_neg ?_)) fun _ _ => rfl
      rw [Bool.and_eq_true]
      rintro ⟨h, -⟩
      have := of_decide_eq_true h
      omega
    generalize (s.resetRegs fun a => B.KCUM m + 0x20 ≤ a && a < B.KCUM m + 0x60) = u at hreset ⊢
    split
    · have hrun : LinkTraces u (u.wrB (B.KCUM m) R.KCU_STATUS_RUNNING false) :=
        .of_high rfl (fun a _ ha => State.reg_wrB _ _ _ _ _ (by omega)) fun _ _ => rfl
      generalize u.wrB (B.KCUM m) R.KCU_STATUS_RUNNING false = v at hrun ⊢
      exact (hreset.trans hrun).trans (.of_regs rfl rfl rfl)
    · exact hreset.trans (.of_regs rfl rfl rfl)
  · exact .refl s

theorem LinkTraces.kcuFault (s : State) (n : Nat) : LinkTraces s (s.kcuFault n) := by
  unfold State.kcuFault
  split
  · exact .kcuFree s 1 true
  · split
    · exact .kcuFree s 0 true
    · exact .refl s

theorem LinkTraces.takeMsg (s : State) (f : FaultMsg) (hf : f.src < 352) : LinkTraces s (s.takeMsg f) := by
  rw [State.takeMsg_eq_capture]
  exact (LinkTraces.queueMsg s f).trans (.capture _ hf)

/-- A fault takes a Drain or it does what its message does. -/
theorem State.raise_eq_of_mild (s : State) {n : Nat} (kind addr : Nat) (hn : n < 352) (h : s.mild n) :
    s.raise n kind addr = (s.takeMsg ⟨n, kind, addr⟩).kcuFault n := by
  have ht : FaultTraces s ((s.takeMsg ⟨n, kind, addr⟩).kcuFault n) := by
    rw [State.takeMsg_eq_capture]
    exact ((FaultTraces.queueMsg s ⟨n, kind, addr⟩).trans (.capture _ hn)).trans (.kcuFault _ n)
  obtain ⟨hsev, hfull⟩ := h
  unfold State.raise
  dsimp only
  rw [if_neg]
  rw [ht.sev n hn, ht.sev 28 (by omega)]
  simp only [Bool.or_eq_true, Bool.and_eq_true, decide_eq_true_eq]
  rintro (h4 | ⟨hlen, h4⟩)
  · exact hsev h4
  · rcases hfull with h | h
    · exact h h4
    · omega

/-- What a fault that takes no Drain leaves of the links. -/
theorem State.raise_links (s : State) {n : Nat} (kind addr : Nat) (hn : n < 352) (h : s.mild n) :
    LinkTraces s (s.raise n kind addr) := by
  rw [s.raise_eq_of_mild kind addr hn h]
  exact (LinkTraces.takeMsg s ⟨n, kind, addr⟩ hn).trans (.kcuFault _ n)

end Sys2Proof.Machine

namespace Sys2Proof.Machine
/-! ### What the reset of a plot changes (Table 11.7, R302, R311) -/

theorem State.dropCtl_eq (s : State) (p : Nat) : ∃ c, s.dropCtl p = { s with silo := c } := by
  unfold State.dropCtl
  dsimp only
  generalize (s.silo.writes.filter _) = l
  have h : ∃ c, l.foldl (fun s w => State.dropWrite s w.id) s = { s with silo := c } :=
    foldl_keeps (fun a b => ∃ c, b = { a with silo := c }) (fun s => ⟨s.silo, rfl⟩)
      (by rintro a b c ⟨x, rfl⟩ ⟨y, rfl⟩; exact ⟨y, rfl⟩) _ (fun s w => ⟨_, rfl⟩) l s
  obtain ⟨c, e⟩ := h
  rw [e]
  exact ⟨_, rfl⟩

theorem State.plotRegs_eq (s : State) (p : Nat) : ∃ r q c, s.plotRegs p = { s with regs := r, qps := q, silo := c } := by
  unfold State.plotRegs State.clearNvme
  obtain ⟨c, e⟩ := (s.dropQps p).dropCtl_eq p
  rw [e]
  exact ⟨_, _, _, rfl⟩

theorem State.idlePlot_regs (s : State) (p : Nat) : (s.idlePlot p).regs = (s.plotRegs p).regs := by
  unfold State.idlePlot
  generalize s.plotRegs p = u
  rfl

theorem State.idlePlot_eq (s : State) (p : Nat) :
    ∃ r q c b x, s.idlePlot p = { s with regs := r, qps := q, silo := c, mem := b, plots := x } := by
  unfold State.idlePlot
  obtain ⟨r, q, c, e⟩ := s.plotRegs_eq p
  rw [e]
  exact ⟨_, _, _, _, _, rfl⟩

theorem State.clearFn_eq (s : State) (m f : Nat) : ∃ r b l, s.clearFn m f = { s with regs := r, mem := b, links := l } :=
  ⟨_, _, _, rfl⟩

/-- The reset of a plot changes registers, queue pairs, its controller, memory, its record and the reads of its link. -/
theorem State.resetPlot_eq (s : State) (p : Nat) :
    ∃ r q c b x l, s.resetPlot p = { s with regs := r, qps := q, silo := c, mem := b, plots := x, links := l } := by
  have h : ∃ r q c b x l, s.stopPlot p = { s with regs := r, qps := q, silo := c, mem := b, plots := x, links := l } := by
    rw [State.stopPlot_eq]
    obtain ⟨r, q, c, b, x, e⟩ := s.idlePlot_eq p
    generalize s.idlePlot p = u at e ⊢
    split
    · exact ⟨r, q, c, b, x, s.links, e⟩
    · rename_i m f _
      obtain ⟨r', b', l, e'⟩ := u.clearFn_eq m f
      exact ⟨r', q, c, b', x, l, by rw [e', e]⟩
  unfold State.resetPlot
  dsimp only
  obtain ⟨r, q, c, b, x, l, e⟩ := h
  generalize s.stopPlot p = u at e ⊢
  obtain ⟨r', e'⟩ := u.wr_eq (B.PLOT p) R.PLOT_XGEN_XGEN (nextXgen (u.plotGen p))
  exact ⟨r', q, c, b, x, l, by rw [e', e]⟩

/-- A register that no plot's reset clears: below the plots' blocks, or in a plot's generation. -/
def unplotted (a : Nat) : Prop := a < B.TPG 0 ∧ (a < B.PLOT 0 ∨ a % 0x1000 < 0x200)

theorem State.reg_plotRegs (s : State) (p : Nat) {a : Nat} (ha : unplotted a) : (s.plotRegs p).reg a = s.reg a := by
  obtain ⟨hlow, hpage⟩ := ha
  have hq := s.qpRegs_above p 0
  have h1 : (s.dropQps p).reg a = s.reg a := by
    refine (State.reg_congr (s := s.resetRegs fun a => decide (s.qpRegs p 0 + 0x1000 ≤ a) &&
      decide (a < s.qpRegs p 0 + 0x1000 + 0x1000)) rfl a).trans ((s.reg_resetRegs _ _).trans (if_neg ?_))
    rw [Bool.and_eq_true]
    rintro ⟨h, -⟩
    have := of_decide_eq_true h
    omega
  have h2 : ((s.dropQps p).clearNvme p).reg a = (s.dropQps p).reg a := by
    obtain ⟨c, e⟩ := (s.dropQps p).dropCtl_eq p
    refine (State.reg_resetRegs _ _ _).trans ((if_neg ?_).trans (by rw [e]; rfl))
    rw [Bool.and_eq_true]
    rintro ⟨h, -⟩
    have := of_decide_eq_true h
    simp only [B.NVME, B.TPG] at this hlow; omega
  refine (State.reg_resetRegs _ _ _).trans ((if_neg ?_).trans (h2.trans h1))
  simp only [Bool.or_eq_true, Bool.and_eq_true, decide_eq_true_eq]
  simp only [B.PLOT, B.VF, B.TPG] at hlow hpage ⊢
  omega

/-- The manager's word of a function. -/
def mgrWord (m f : Nat) : Nat := B.MGR m + 0x10 + 4 * ((128 * (m % 2) + f) / 32)

theorem State.clearFn_regs (s : State) (m f : Nat) :
    (s.clearFn m f).regs = (s.wrW (mgrWord m f) (setBits (s.reg (mgrWord m f)).toNat (f % 32) (f % 32) 0)).regs := by
  unfold State.clearFn
  dsimp only
  rw [State.setLink_regs]
  rfl

theorem State.reg_clearFn (s : State) (m f : Nat) {a : Nat} (ha : a < B.TPG 0) : (s.clearFn m f).reg a = s.reg a := by
  refine (State.reg_congr (s.clearFn_regs m f) a).trans ((s.reg_wrW _ _ _).trans (if_neg ?_))
  simp only [mgrWord, B.MGR, B.TPG] at ha ⊢
  omega

theorem State.reg_stopPlot (s : State) (p : Nat) {a : Nat} (ha : unplotted a) : (s.stopPlot p).reg a = s.reg a := by
  have h : (s.idlePlot p).reg a = s.reg a := (State.reg_congr (s.idlePlot_regs p) a).trans (s.reg_plotRegs p ha)
  rw [State.stopPlot_eq]
  generalize s.idlePlot p = u at h ⊢
  split
  · exact h
  · exact (u.reg_clearFn _ _ ha.1).trans h

theorem unplotted_xgen {p : Nat} (hp : p < 512) : unplotted (B.PLOT p + R.PLOT_XGEN_XGEN.off) := by
  simp only [unplotted, B.PLOT, B.TPG, R.PLOT_XGEN_XGEN]; omega

theorem unplotted_of_lt {a : Nat} (h : a < B.PLOT 0) : unplotted a := ⟨Nat.lt_trans h (by decide), .inl h⟩

theorem nextXgen_lt (g : Nat) : nextXgen g < 2 ^ 32 := by
  unfold nextXgen
  dsimp only
  split <;> omega

/-- What the resets of the plots P, and of functions, leave. -/
structure PlotsReset (P : List Nat) (s t : State) : Prop where
  rest : t = { s with regs := t.regs, qps := t.qps, silo := t.silo, mem := t.mem, plots := t.plots, links := t.links, fns := t.fns }
  low : ∀ a, a < B.PLOT 0 → t.reg a = s.reg a
  gen : ∀ p, p < 512 → t.plotGen p = if p ∈ P then nextXgen (s.plotGen p) else s.plotGen p
  gone : ∀ p q, p ∈ P → p < 512 → q < 64 → t.qp (qpKey p q) = Qp.init
  idle : ∀ k, s.qp k = Qp.init → t.qp k = Qp.init
  link : ∀ m, ∃ o l, t.link m = { s.link m with outstanding := o, silent := l }

theorem PlotsReset.append {P Q : List Nat} {s t u : State} (h : PlotsReset P s t) (k : PlotsReset Q t u)
    (hd : ∀ p ∈ P, p ∉ Q) : PlotsReset (P ++ Q) s u where
  rest := k.rest.trans (by rw [h.rest])
  low a ha := (k.low a ha).trans (h.low a ha)
  gen p hp := by
    rw [k.gen p hp, h.gen p hp]
    by_cases h1 : p ∈ P
    · simp [h1, hd p h1]
    · simp [h1]
  gone p q hp hlt hq := by
    rcases List.mem_append.mp hp with h1 | h1
    · exact k.idle _ (h.gone p q h1 hlt hq)
    · exact k.gone p q h1 hlt hq
  idle x hx := k.idle x (h.idle x hx)
  link m := by
    obtain ⟨o, l, e⟩ := h.link m
    obtain ⟨o', l', e'⟩ := k.link m
    exact ⟨o', l', by rw [e', e]⟩

/-- Functions are set. -/
theorem PlotsReset.setFn (s : State) (m f : Nat) (x : Fn) : PlotsReset [] s (s.setFn m f x) :=
  ⟨rfl, fun _ _ => rfl, fun _ _ => rfl, fun _ _ h => absurd h (List.not_mem_nil), fun _ h => h, fun _ => ⟨_, _, rfl⟩⟩

theorem PlotsReset.refl (s : State) : PlotsReset [] s s :=
  ⟨rfl, fun _ _ => rfl, fun _ _ => rfl, fun _ _ h => absurd h (List.not_mem_nil), fun _ h => h, fun _ => ⟨_, _, rfl⟩⟩

theorem State.qp_stopPlot (s : State) (p k : Nat) :
    (s.stopPlot p).qp k = if k < 2 ^ 20 && k / 64 = p then Qp.init else s.qp k := by
  have h : (s.idlePlot p).qps = tdrop (fun k => k < 2 ^ 20 && k / 64 = p) s.qps := by
    unfold State.idlePlot State.plotRegs State.clearNvme
    obtain ⟨c, e⟩ := (s.dropQps p).dropCtl_eq p
    rw [e]; rfl
  have h' : (s.stopPlot p).qps = tdrop (fun k => k < 2 ^ 20 && k / 64 = p) s.qps := by
    rw [State.stopPlot_eq]
    generalize s.idlePlot p = u at h ⊢
    split
    · exact h
    · exact h
  unfold State.qp
  rw [h', tget_tdrop]

theorem State.link_stopPlot (s : State) (p m : Nat) : ∃ o l, (s.stopPlot p).link m = { s.link m with outstanding := o, silent := l } := by
  have h : (s.idlePlot p).links = s.links := by
    obtain ⟨r, q, c, b, x, e⟩ := s.idlePlot_eq p
    rw [e]
  rw [State.stopPlot_eq]
  have hl := State.link_congr h
  generalize s.idlePlot p = u at hl ⊢
  split
  · exact ⟨_, _, hl m⟩
  · rename_i n f _
    have hc : (u.clearFn n f).link m = if m = n then
        { u.link n with outstanding := (u.link n).outstanding.filter (·.fn ≠ f),
                        silent := (u.link n).silent ++ ((u.link n).outstanding.filter (·.fn = f)).map (·.tag) }
        else u.link m := State.link_setLink _ _ _ _
    rw [hc]
    split
    · rename_i hm
      rw [hm, hl]
      exact ⟨_, _, rfl⟩
    · exact ⟨_, _, hl m⟩

theorem PlotsReset.resetPlot (s : State) (p : Nat) : PlotsReset [p] s (s.resetPlot p) where
  rest := by
    obtain ⟨r, q, c, b, x, l, e⟩ := s.resetPlot_eq p
    rw [e]
  low a ha := by
    refine (State.reg_wr _ _ _ R.PLOT_XGEN_XGEN _ ?_).trans (s.reg_stopPlot p (unplotted_of_lt ha))
    simp only [B.PLOT, R.PLOT_XGEN_XGEN] at ha ⊢; omega
  gen n hn := by
    have hg : (s.stopPlot p).plotGen n = s.plotGen n := State.rd_congr (s.reg_stopPlot p (unplotted_xgen hn))
    unfold State.resetPlot
    dsimp only
    by_cases h : n = p
    · rw [h, if_pos (by simp)]
      refine (State.rd_wr_same _ _ R.PLOT_XGEN_XGEN _ (by decide) (by decide)).trans (Nat.mod_eq_of_lt (nextXgen_lt _)) |>.trans ?_
      rw [← h] at hg ⊢
      rw [hg]
    · rw [if_neg (by simp [h])]
      refine (State.rd_wr_ne _ _ _ R.PLOT_XGEN_XGEN R.PLOT_XGEN_XGEN _ (by decide) (by decide) (.inl ?_)).trans hg
      simp only [B.PLOT]; omega
  gone n q hn hlt hq := by
    obtain rfl := List.mem_singleton.mp hn
    refine (s.qp_stopPlot n (qpKey n q)).trans (if_pos ?_)
    rw [Bool.and_eq_true]
    exact ⟨decide_eq_true (by unfold qpKey; omega), decide_eq_true (by unfold qpKey; omega)⟩
  idle k hk := by
    refine (s.qp_stopPlot p k).trans ?_
    rw [hk, ite_self]
  link := s.link_stopPlot p

end Sys2Proof.Machine

namespace Sys2Proof.Machine
/-! ### Functions, reads in flight and the host mailbox in a reset (R73, Table 11.7) -/

theorem fnKey_inj {m g h : Nat} (e : fnKey m g = fnKey m h) : g = h := by simp only [fnKey] at e; omega

theorem State.fn_setFn (s : State) (m f g : Nat) (x : Fn) : (s.setFn m f x).fn m g = if g = f then x else s.fn m g := by
  refine (tget_tput _ _ _ _ _).trans ?_
  by_cases h : g = f
  · rw [if_pos (congrArg (fnKey m) h), if_pos h]
  · rw [if_neg (fun e => h (fnKey_inj e)), if_neg h]; rfl

theorem State.fn_congr {s t : State} (h : t.fns = s.fns) (m g : Nat) : t.fn m g = s.fn m g := by
  unfold State.fn; rw [h]

theorem State.allot_congr {s t : State} (h : t.image = s.image) : t.allot = s.allot := by
  funext m
  unfold State.allot State.linkExists
  rw [h]

theorem State.plotOf_congr {s t : State} (h : t.image = s.image) (m : Nat) : t.plotOf m = s.plotOf m := by
  funext g
  unfold State.plotOf State.plotBase
  rw [State.allot_congr h]

theorem State.flrSet_congr {s t : State} (h : t.image = s.image) (m f : Nat) : t.flrSet m f = s.flrSet m f := by
  unfold State.flrSet
  rw [State.allot_congr h]

theorem State.flrSet_nodup (s : State) (m f : Nat) : (s.flrSet m f).Nodup := by
  unfold State.flrSet
  split
  · exact List.nodup_range
  · exact List.nodup_singleton f

theorem State.plotOf_inj {s : State} {m g h p : Nat} (hg : s.plotOf m g = some p) (hh : s.plotOf m h = some p) : g = h := by
  unfold State.plotOf at hg hh
  split at hg <;> split at hh <;> simp_all
  omega

/-! #### The mailbox -/

theorem nextGen_lt {g : Nat} : nextGen g < 2 ^ 16 := by
  unfold nextGen
  split <;> omega

/-- What a mailbox reset leaves. -/
structure MailboxReset (m : Link) (s u : State) : Prop where
  rest : u = { s with regs := u.regs, tags := u.tags, mc := u.mc }
  reg : ∀ a, a < B.LKP m ∨ B.LKP m + 0x100 ≤ a → u.reg a = s.reg a
  mgen : u.rd (B.LKP m) R.LKP_HMB_STATUS_MGEN = nextGen (s.rd (B.LKP m) R.LKP_HMB_STATUS_MGEN)
  ready : u.flag (B.LKP m) R.LKP_HMB_STATUS_READY = false
  idle : ∀ t : Tag, (u.tag (.host m t)).cur = none

theorem mailboxAfter_lt (v : Nat) : mailboxAfter v < 2 ^ 32 := by
  have h1 := @nextGen_lt (bitsOf v 31 16)
  have h2 := bitsOf_lt v 3 2
  unfold mailboxAfter
  omega

theorem bitsOf_mailboxAfter (v : Nat) : bitsOf (mailboxAfter v) 31 16 = nextGen (bitsOf v 31 16) ∧ bitsOf (mailboxAfter v) 0 0 = 0 := by
  have h1 := @nextGen_lt (bitsOf v 31 16)
  have h2 := bitsOf_lt v 3 2
  unfold mailboxAfter
  generalize nextGen (bitsOf v 31 16) = g at h1 ⊢
  generalize bitsOf v 3 2 = x at h2 ⊢
  unfold bitsOf
  omega

/-- The registers of a host mailbox after its reset. -/
def State.mailboxRegs (s : State) (m : Link) : State :=
  (s.resetRegs fun a => B.LKP m ≤ a && a < B.LKP m + 0x100).wrW (B.LKP m + R.LKP_HMB_STATUS_MGEN.off)
    (mailboxAfter (s.reg (B.LKP m + R.LKP_HMB_STATUS_MGEN.off)).toNat)

theorem State.mailboxReset_eq (s : State) (m : Link) : ∃ (c : McSt) (g : Nat), s.mailboxReset m =
    (List.finRange 16).foldl (fun s t => s.setTag (.host m t) ((s.tag (.host m t)).reset g))
      ({ s.mailboxRegs m with mc := c } : State) := by
  unfold State.mailboxReset State.mailboxRegs
  dsimp only
  split
  · exact ⟨_, _, rfl⟩
  · exact ⟨_, _, rfl⟩

/-- Tags are set one by one. -/
theorem State.setTags_idle (m : Link) (g : Nat) (l : List Tag) (s : State) :
    (l.foldl (fun (s : State) t => s.setTag (.host m t) ((s.tag (.host m t)).reset g)) s) =
      { s with tags := (l.foldl (fun (s : State) t => s.setTag (.host m t) ((s.tag (.host m t)).reset g)) s).tags } ∧
    ∀ t : Tag, t ∈ l ∨ (s.tag (.host m t)).cur = none →
      ((l.foldl (fun (s : State) t => s.setTag (.host m t) ((s.tag (.host m t)).reset g)) s).tag (.host m t)).cur = none := by
  induction l generalizing s with
  | nil => exact ⟨rfl, fun t h => h.resolve_left (List.not_mem_nil)⟩
  | cons x l ih =>
    rw [List.foldl_cons]
    obtain ⟨hrest, hcur⟩ := ih (s.setTag (.host m x) ((s.tag (.host m x)).reset g))
    refine ⟨hrest.trans (by rfl), fun t h => hcur t ?_⟩
    rw [State.tag_setTag]
    by_cases hx : t = x
    · right; rw [hx, if_pos rfl]; rfl
    · rw [if_neg fun e => hx (by injection e)]
      exact h.imp_left fun h => (List.mem_cons.mp h).resolve_left hx

theorem State.mailboxReset_holds (s : State) (m : Link) : MailboxReset m s (s.mailboxReset m) := by
  obtain ⟨c, g, e⟩ := s.mailboxReset_eq m
  obtain ⟨hrest, hcur⟩ := State.setTags_idle m g (List.finRange 16) ({ s.mailboxRegs m with mc := c } : State)
  rw [← e] at hrest hcur
  have hregs : (s.mailboxReset m).regs = (s.mailboxRegs m).regs := by rw [hrest]
  have hmc : (s.mailboxReset m).mc = c := by rw [hrest]
  have hword : (s.mailboxReset m).reg (B.LKP m + 8) = BitVec.ofNat 32 (mailboxAfter (s.reg (B.LKP m + 8)).toNat) :=
    (State.reg_congr hregs _).trans ((State.reg_wrW _ _ _ _).trans (if_pos rfl))
  have hval := Nat.mod_eq_of_lt (mailboxAfter_lt (s.reg (B.LKP m + 8)).toNat)
  obtain ⟨hg, hr⟩ := bitsOf_mailboxAfter (s.reg (B.LKP m + 8)).toNat
  refine ⟨by rw [hregs, hmc]; exact hrest, fun a ha => (State.reg_congr hregs a).trans ?_, ?_, ?_, fun t => hcur t (.inl (List.mem_finRange t))⟩
  · refine (State.reg_wrW _ _ _ _).trans ((if_neg ?_).trans ((s.reg_resetRegs _ _).trans (if_neg ?_)))
    · simp only [R.LKP_HMB_STATUS_MGEN]; omega
    · rw [Bool.and_eq_true]
      rintro ⟨h1, h2⟩
      have := of_decide_eq_true h1
      have := of_decide_eq_true h2
      omega
  · show bitsOf ((s.mailboxReset m).reg (B.LKP m + 8)).toNat 31 16 = _
    rw [hword, BitVec.toNat_ofNat, hval, hg]; rfl
  · show decide (bitsOf ((s.mailboxReset m).reg (B.LKP m + 8)).toNat 0 0 = 1) = _
    rw [hword, BitVec.toNat_ofNat, hval, hr]; rfl

/-! #### Steps 1 to 3 of Table 11.7 -/

/-- What the beginning of an FLR leaves of the functions l. -/
structure Silenced (m : Nat) (l : List Nat) (s u : State) : Prop where
  rest : u = { s with fns := u.fns, links := u.links, regs := u.regs }
  fn : ∀ g, u.fn m g = if g ∈ l then { s.fn m g with flrAt := some s.now, held := [] } else s.fn m g
  out : ∀ x, x ∈ (u.link m).outstanding ↔ x ∈ (s.link m).outstanding ∧ x.fn ∉ l
  silent : ∀ t, t ∈ (u.link m).silent ↔ t ∈ (s.link m).silent ∨ ∃ x ∈ (s.link m).outstanding, x.fn ∈ l ∧ x.tag = t
  stopped : ∀ p, s.rd (B.VF p) R.PLOT_STATE_STATE = 3 ∨ (∃ g ∈ l, s.plotOf m g = some p) → u.rd (B.VF p) R.PLOT_STATE_STATE = 3
  low : ∀ a, a < B.TPG 0 → u.reg a = s.reg a

theorem Silenced.nil (m : Nat) (s : State) : Silenced m [] s s where
  rest := rfl
  fn g := by simp
  out x := by simp
  silent t := by simp
  stopped p h := h.elim id fun ⟨_, h, _⟩ => absurd h List.not_mem_nil
  low _ _ := rfl

theorem Silenced.cons {m g : Nat} {l : List Nat} {s t u : State} (h : Silenced m [g] s t) (k : Silenced m l t u) :
    Silenced m (g :: l) s u where
  rest := k.rest.trans (by rw [h.rest])
  fn x := by
    have hnow : t.now = s.now := by rw [h.rest]
    rw [k.fn, h.fn, hnow]
    by_cases h1 : x = g
    · simp [h1]
    · simp [h1]
  out x := by
    simp only [k.out, h.out, List.mem_cons, List.not_mem_nil, or_false]
    tauto
  silent x := by
    rw [k.silent, h.silent]
    simp only [h.out, List.mem_cons, List.not_mem_nil, or_false]
    constructor
    · rintro ((h1 | ⟨y, hy, hg, ht⟩) | ⟨y, ⟨hy, -⟩, hl, ht⟩)
      · exact .inl h1
      · exact .inr ⟨y, hy, .inl hg, ht⟩
      · exact .inr ⟨y, hy, .inr hl, ht⟩
    · rintro (h1 | ⟨y, hy, hl, ht⟩)
      · exact .inl (.inl h1)
      · by_cases hg : y.fn = g
        · exact .inl (.inr ⟨y, hy, hg, ht⟩)
        · exact .inr ⟨y, ⟨hy, hg⟩, hl.resolve_left hg, ht⟩
  stopped p hp := by
    have hi : t.image = s.image := by rw [h.rest]
    refine k.stopped p ?_
    rcases hp with h1 | ⟨x, hx, hp⟩
    · exact .inl (h.stopped p (.inl h1))
    · rcases List.mem_cons.mp hx with rfl | hl
      · exact .inl (h.stopped p (.inr ⟨x, List.mem_singleton.mpr rfl, hp⟩))
      · exact .inr ⟨x, hl, by rw [State.plotOf_congr hi]; exact hp⟩
  low a ha := (k.low a ha).trans (h.low a ha)

/-- A function under reset, with its reads cancelled, before its plot is stopped. -/
def State.cancelReads (s : State) (m f : Nat) : State :=
  (s.setFn m f { s.fn m f with flrAt := some s.now, held := [] }).setLink m { s.link m with
    outstanding := (s.link m).outstanding.filter (·.fn ≠ f),
    silent := (s.link m).silent ++ ((s.link m).outstanding.filter (·.fn = f)).map (·.tag) }

theorem State.silence_eq (s : State) (m f : Nat) : s.silence m f =
    match s.plotOf m f with
    | some p => (s.cancelReads m f).wr (B.VF p) R.PLOT_STATE_STATE 3
    | none => s.cancelReads m f := rfl

theorem State.link_cancelReads (s : State) (m f : Nat) : (s.cancelReads m f).link m = { s.link m with
    outstanding := (s.link m).outstanding.filter (·.fn ≠ f),
    silent := (s.link m).silent ++ ((s.link m).outstanding.filter (·.fn = f)).map (·.tag) } :=
  (State.link_setLink _ _ _ _).trans (if_pos rfl)

theorem State.fn_cancelReads (s : State) (m f g : Nat) : (s.cancelReads m f).fn m g =
    if g ∈ [f] then { s.fn m g with flrAt := some s.now, held := [] } else s.fn m g := by
  have h : (s.cancelReads m f).fn m g = if g = f then { s.fn m f with flrAt := some s.now, held := [] } else s.fn m g :=
    s.fn_setFn m f g _
  rw [h]
  by_cases hg : g = f
  · rw [if_pos hg, if_pos (List.mem_singleton.mpr hg), hg]
  · rw [if_neg hg, if_neg fun h => hg (List.mem_singleton.mp h)]

theorem Silenced.of_wr {s u : State} (h : u = { s with fns := u.fns, links := u.links, regs := u.regs }) (b : Nat) (f : RegField) (v : Nat) :
    u.wr b f v = { s with fns := (u.wr b f v).fns, links := (u.wr b f v).links, regs := (u.wr b f v).regs } := by
  obtain ⟨r, e⟩ := u.wr_eq b f v
  generalize u.wr b f v = w at e ⊢
  rw [e, h]

theorem State.silence_holds (s : State) (m f : Nat) : Silenced m [f] s (s.silence m f) := by
  have hfn := s.fn_cancelReads m f
  have hlink := s.link_cancelReads m f
  have hregs : (s.cancelReads m f).regs = s.regs := rfl
  have hrest : s.cancelReads m f = { s with fns := (s.cancelReads m f).fns, links := (s.cancelReads m f).links,
                                            regs := (s.cancelReads m f).regs } := rfl
  rw [State.silence_eq]
  generalize s.cancelReads m f = u at hfn hlink hregs hrest ⊢
  have hout : ∀ x, x ∈ (u.link m).outstanding ↔ x ∈ (s.link m).outstanding ∧ x.fn ∉ [f] := by
    intro x; rw [hlink]; simp
  have hsilent : ∀ t, t ∈ (u.link m).silent ↔ t ∈ (s.link m).silent ∨ ∃ x ∈ (s.link m).outstanding, x.fn ∈ [f] ∧ x.tag = t := by
    intro t; rw [hlink]; simp [and_assoc]
  split
  · rename_i p hp
    have hl := State.link_congr (u.wr_links (B.VF p) R.PLOT_STATE_STATE 3) m
    refine ⟨Silenced.of_wr hrest _ _ _, fun g => (State.fn_congr (u.wr_fns _ _ _) m g).trans (hfn g), fun x => by rw [hl]; exact hout x,
      fun t => by rw [hl]; exact hsilent t, fun n hn => ?_,
      fun a ha => (State.reg_wr _ _ _ R.PLOT_STATE_STATE _ ?_).trans (State.reg_congr hregs a)⟩
    · by_cases h : n = p
      · rw [h]; exact State.rd_wr_same _ _ R.PLOT_STATE_STATE _ (by decide) (by decide)
      · refine (State.rd_wr_ne _ _ _ R.PLOT_STATE_STATE R.PLOT_STATE_STATE _ (by decide) (by decide) (.inl ?_)).trans
          ((State.rd_congr (State.reg_congr hregs _)).trans ?_)
        · simp only [B.VF]; omega
        · rcases hn with h1 | ⟨g, hg, h1⟩
          · exact h1
          · rw [List.mem_singleton.mp hg, hp] at h1
            exact absurd (Option.some.inj h1).symm h
    · simp only [B.TPG, B.VF, R.PLOT_STATE_STATE] at ha ⊢; omega
  · rename_i hp
    refine ⟨hrest, hfn, hout, hsilent, fun n hn => (State.rd_congr (State.reg_congr hregs _)).trans ?_, fun a _ => State.reg_congr hregs a⟩
    rcases hn with h1 | ⟨g, hg, h1⟩
    · exact h1
    · rw [List.mem_singleton.mp hg, hp] at h1
      exact absurd h1 (by simp)

theorem State.silenceAll_holds (m : Nat) (l : List Nat) (s : State) :
    Silenced m l s (l.foldl (fun s g => State.silence s m g) s) := by
  induction l generalizing s with
  | nil => exact .nil m s
  | cons g l ih => exact (s.silence_holds m g).cons (ih _)

/-! #### The end of a reset of functions -/

/-- A function's plot is reset, and its configuration space. -/
def State.renew (s : State) (m g : Nat) (ready : Bool) : State :=
  State.resetFn (match s.plotOf m g with
    | some p => s.resetPlot p
    | none => s) m g ready

theorem State.resetPlot_fns (s : State) (p : Nat) : (s.resetPlot p).fns = s.fns := by
  obtain ⟨r, q, c, b, x, l, e⟩ := s.resetPlot_eq p
  rw [e]

theorem PlotsReset.renew (s : State) (m g : Nat) (b : Bool) : PlotsReset (s.plotOf m g).toList s (s.renew m g b) := by
  unfold State.renew State.resetFn
  split
  · rename_i p hp
    rw [hp]
    have h := PlotsReset.resetPlot s p
    generalize s.resetPlot p = u at h ⊢
    exact h.append (.setFn u m g _) fun _ _ => List.not_mem_nil
  · rename_i hp
    rw [hp]
    exact .setFn s m g _

theorem State.fn_renew (s : State) (m g h : Nat) (b : Bool) : (s.renew m g b).fn m h =
    if h = g then { Fn.init with tableSize := (s.fn m h).tableSize, ready := b } else s.fn m h := by
  have hfns : (match s.plotOf m g with | some p => s.resetPlot p | none => s).fns = s.fns := by
    split
    · exact s.resetPlot_fns _
    · rfl
  unfold State.renew State.resetFn
  generalize (match s.plotOf m g with | some p => s.resetPlot p | none => s) = u at hfns ⊢
  have hfn := State.fn_congr hfns m
  rw [State.fn_setFn, hfn, hfn]
  by_cases hg : h = g
  · rw [if_pos hg, if_pos hg, hg]
  · rw [if_neg hg, if_neg hg]

theorem PlotsReset.renewAll (m : Nat) (b : Bool) (l : List Nat) (hl : l.Nodup) (s : State) :
    PlotsReset (l.filterMap (s.plotOf m)) s (l.foldl (fun s g => State.renew s m g b) s) := by
  induction l generalizing s with
  | nil => exact .refl s
  | cons g l ih =>
    obtain ⟨hg, hl⟩ := List.nodup_cons.mp hl
    have h := PlotsReset.renew s m g b
    have k := ih hl (s.renew m g b)
    have hi : (s.renew m g b).image = s.image := by rw [h.rest]
    rw [State.plotOf_congr hi] at k
    have hP : (g :: l).filterMap (s.plotOf m) = (s.plotOf m g).toList ++ l.filterMap (s.plotOf m) := by
      rw [List.filterMap_cons]; cases s.plotOf m g <;> rfl
    rw [hP, List.foldl_cons]
    refine h.append k fun p hp hq => ?_
    obtain ⟨x, hx, hxp⟩ := List.mem_filterMap.mp hq
    rw [State.plotOf_inj (Option.mem_toList.mp hp) hxp] at hg
    exact hg hx

theorem State.fn_renewAll (m : Nat) (b : Bool) (l : List Nat) (s : State) (h : Nat) :
    (l.foldl (fun s g => State.renew s m g b) s).fn m h =
      if h ∈ l then { Fn.init with tableSize := (s.fn m h).tableSize, ready := b } else s.fn m h := by
  induction l generalizing s with
  | nil => simp
  | cons g l ih =>
    rw [List.foldl_cons, ih, State.fn_renew]
    by_cases hg : h = g
    · simp [hg]
    · simp [hg]

end Sys2Proof.Machine

namespace Sys2Proof.Machine
/-! ### The end of a reset of functions (Table 11.7, R259, R266) -/

theorem exec_functionReady (m : Link) (f : Nat) (s : State) : exec (.functionReady m f) s = execFunctionReady m f s := rfl
theorem exec_flrInitiate (m : Link) (f : Nat) (s : State) : exec (.flrInitiate m f) s = execFlrInitiate m f s := rfl
theorem exec_flrDone (m : Link) (f : Nat) (s : State) : exec (.flrDone m f) s = execFlrDone m f s := rfl
theorem exec_d3hotToD0 (m : Link) (f : Nat) (s : State) : exec (.d3hotToD0 m f) s = execD3hotToD0 m f s := rfl

theorem State.endPlotJobs_of_none {s : State} (h : s.jobs = []) (p : Nat) : s.endPlotJobs p = s := by
  have h1 (c : Prop) [Decidable c] (o : Nat) (f : Final) : (if c then s.endJobs o p f else s) = s := by
    rw [State.endJobs_of_none h, ite_self]
  unfold State.endPlotJobs
  dsimp only
  rw [h1, h1]

/-- The reset of a function's plot, with the end of the commands that wait for it. -/
def State.renewJobs (s : State) (m g : Nat) : State :=
  State.resetFn (match s.plotOf m g with
    | some p => (s.resetPlot p).endPlotJobs p
    | none => s) m g true

theorem State.renewJobs_of_none {s : State} (h : s.jobs = []) (m g : Nat) : s.renewJobs m g = s.renew m g true := by
  unfold State.renewJobs State.renew
  cases s.plotOf m g with
  | none => rfl
  | some p =>
    have hj : (s.resetPlot p).jobs = [] := by rw [(PlotsReset.resetPlot s p).rest]; exact h
    exact congrArg (fun u => State.resetFn u m g true) (State.endPlotJobs_of_none hj p)

theorem State.renewAllJobs_of_none (m : Nat) (l : List Nat) (s : State) (h : s.jobs = []) :
    l.foldl (fun s g => State.renewJobs s m g) s = l.foldl (fun s g => State.renew s m g true) s := by
  induction l generalizing s with
  | nil => rw [List.foldl_nil, List.foldl_nil]
  | cons g l ih =>
    rw [List.foldl_cons, List.foldl_cons, State.renewJobs_of_none h]
    exact ih _ (by rw [(PlotsReset.renew s m g true).rest]; exact h)

/-- The registers of a link that go back to reset with PF0. -/
def pf0Reg (m : Link) (a : Nat) : Bool :=
  (B.HPT m + 0xC ≤ a && a < B.HPT m + 0x100) || (B.TPG m ≤ a && a < B.TPG m + 0x1_0000) || (B.MGR m ≤ a && a < B.MGR m + 0x1000)

/-- The configuration of PF0 that a reset clears. -/
def LinkSt.resetPf0 (l : LinkSt) : LinkSt :=
  { l with numVFs := 0, vfEnable := false, ctoField := 0, ptmEn := false, aspmL1 := false, l0pEn := false, ptmAt := none,
           mps := 0, mrrs := 2 }

/-- What a reset of PF0 takes with it. -/
def State.resetPf0 (s : State) (m : Link) : State :=
  ((s.resetRegs (pf0Reg m)).setLink m (s.link m).resetPf0).wrB (B.LKP m) R.LKP_HMB_STATUS_READY s.modes.lkRunning

theorem State.flrEnd_eq {s : State} (h : s.jobs = []) (m : Link) (f : Nat) : s.flrEnd m f =
    if f = 0 then ((s.flrSet m f).foldl (fun s g => State.renew s m g true) s).resetPf0 m
    else (s.flrSet m f).foldl (fun s g => State.renew s m g true) s := by
  rw [← State.renewAllJobs_of_none m _ s h]
  rfl

structure Pf0Reset (m : Link) (s u : State) : Prop where
  rest : u = { s with regs := u.regs, links := u.links }
  reg : ∀ a, a < B.TPG 0 → a < B.HPT m + 0xC ∨ B.HPT m + 0x100 ≤ a → a ≠ B.LKP m + 8 → u.reg a = s.reg a
  link : u.link m = (s.link m).resetPf0
  cto : u.rd (B.HPT m) R.HPT_CTO_CTO = 50000
  ready : u.flag (B.LKP m) R.LKP_HMB_STATUS_READY = s.modes.lkRunning
  mgen : u.rd (B.LKP m) R.LKP_HMB_STATUS_MGEN = s.rd (B.LKP m) R.LKP_HMB_STATUS_MGEN

theorem pf0Reg_false {m : Link} {a : Nat} (h : a < B.TPG 0) (ha : a < B.HPT m + 0xC ∨ B.HPT m + 0x100 ≤ a) : ¬ pf0Reg m a = true := by
  simp only [pf0Reg, Bool.or_eq_true, Bool.and_eq_true, decide_eq_true_eq]
  simp only [B.TPG, B.MGR] at h ⊢
  omega

theorem pf0Reg_cto (m : Link) : pf0Reg m (B.HPT m + 0xC) = true := by
  simp [pf0Reg]

/-- The completion timeout at reset (Table 11.11). -/
theorem cto_reset : ∀ m : Link, bitsOf (regReset (B.HPT m + 0xC)).toNat 15 0 = 50000 := by decide

theorem State.resetPf0_holds (s : State) (m : Link) : Pf0Reset m s (s.resetPf0 m) := by
  have hlkp : B.HPT m + 0x100 ≤ B.LKP m + 8 ∧ B.LKP m + 8 < B.TPG 0 := by simp only [B.HPT, B.LKP, B.TPG]; omega
  have hlink : ((s.resetRegs (pf0Reg m)).setLink m (s.link m).resetPf0).link m = (s.link m).resetPf0 :=
    State.link_setLink_same _ _ _
  have hreg (a : Nat) : ((s.resetRegs (pf0Reg m)).setLink m (s.link m).resetPf0).reg a = if pf0Reg m a then regReset a else s.reg a :=
    (State.reg_congr (State.setLink_regs _ _ _) a).trans (s.reg_resetRegs a _)
  have hrest : ∃ r l, (s.resetRegs (pf0Reg m)).setLink m (s.link m).resetPf0 = { s with regs := r, links := l } := ⟨_, _, rfl⟩
  unfold State.resetPf0
  generalize (s.resetRegs (pf0Reg m)).setLink m (s.link m).resetPf0 = u at hlink hreg hrest ⊢
  have hout {a : Nat} (h1 : a < B.TPG 0) (h2 : a < B.HPT m + 0xC ∨ B.HPT m + 0x100 ≤ a) : u.reg a = s.reg a :=
    (hreg a).trans (if_neg (pf0Reg_false h1 h2))
  refine ⟨?_, fun a h1 h2 h3 => (State.reg_wrB _ _ _ R.LKP_HMB_STATUS_READY _ h3).trans (hout h1 h2),
    (State.link_congr (State.wrB_links _ _ _ _) m).trans hlink, ?_, State.flag_wrB_same _ _ R.LKP_HMB_STATUS_READY _ (by decide) rfl, ?_⟩
  · obtain ⟨r, l, e⟩ := hrest
    obtain ⟨r', e'⟩ := u.wrB_eq (B.LKP m) R.LKP_HMB_STATUS_READY s.modes.lkRunning
    generalize u.wrB (B.LKP m) R.LKP_HMB_STATUS_READY s.modes.lkRunning = w at e' ⊢
    rw [e', e]
  · refine (State.rd_congr (State.reg_wrB _ _ _ R.LKP_HMB_STATUS_READY _ ?_)).trans ?_
    · simp only [B.HPT, B.LKP, R.HPT_CTO_CTO, R.LKP_HMB_STATUS_READY]; omega
    · refine Eq.trans ?_ (cto_reset m)
      unfold State.rd
      rw [show B.HPT m + R.HPT_CTO_CTO.off = B.HPT m + 0xC from rfl, hreg, if_pos (pf0Reg_cto m)]
      rfl
  · refine (State.rd_wr_ne _ _ _ R.LKP_HMB_STATUS_READY R.LKP_HMB_STATUS_MGEN _ (by decide) (by decide) (.inr (by decide))).trans ?_
    exact State.rd_congr (hout hlkp.2 (.inr hlkp.1))

/-- A counter above the pipelines' is no performance event: it counts, while the counters run. -/
theorem State.count_of_running {s : State} {a : Nat} (hf : s.flag B.PMC R.PMC_CTRL_FREEZE = false) (ha : 0x50_0000 ≤ a) :
    s.count a = s.setCnt a ((s.cnt a + 1) % 2 ^ 64) := by
  have he : eventOf a = none := by
    unfold eventOf
    rw [if_neg (by omega), if_neg (by omega)]
  unfold State.count
  rw [he]
  exact if_neg (by rw [hf]; decide)

/-- A function's state after a reset that ends with it ready. -/
def FnsReset (m : Link) (f : Nat) (s u : State) : Prop :=
  (∀ g ∈ s.flrSet m f, (u.fn m g).ready = true ∧ (u.fn m g).flrAt = none ∧ (u.fn m g).d3 = false ∧
    (u.fn m g).mse = false ∧ (u.fn m g).bme = false ∧ (u.fn m g).held = [] ∧
    ∀ p, s.plotOf m g = some p → p < 512 → u.plotGen p = nextXgen (s.plotGen p) ∧ ∀ q, q < 64 → u.qp (qpKey p q) = Qp.init) ∧
  ∀ g, g ∉ s.flrSet m f → u.fn m g = s.fn m g

/-- What the end of an FLR leaves. -/
structure FlrEnded (m : Link) (f : Nat) (s u : State) : Prop where
  rest : u = { s with regs := u.regs, qps := u.qps, silo := u.silo, mem := u.mem, plots := u.plots, links := u.links, fns := u.fns }
  fns : FnsReset m f s u
  reg : ∀ a, a < B.PLOT 0 → a < B.HPT m + 0xC ∨ B.HPT m + 0x100 ≤ a → a ≠ B.LKP m + 8 → u.reg a = s.reg a
  mgen : u.rd (B.LKP m) R.LKP_HMB_STATUS_MGEN = s.rd (B.LKP m) R.LKP_HMB_STATUS_MGEN
  link : f = 0 → ∃ l, u.link m = LinkSt.resetPf0 l
  cto : f = 0 → u.rd (B.HPT m) R.HPT_CTO_CTO = 50000
  ready : f = 0 → u.flag (B.LKP m) R.LKP_HMB_STATUS_READY = s.modes.lkRunning

theorem lkp_lt (m : Link) : B.LKP m + 8 < B.PLOT 0 := by simp only [B.LKP, B.PLOT]; omega

/-- The functions and their plots, as they are after each was reset in turn. -/
theorem FnsReset.renewAll (s : State) (m : Link) (f : Nat) :
    FnsReset m f s ((s.flrSet m f).foldl (fun s g => State.renew s m g true) s) := by
  have h := PlotsReset.renewAll m true _ (s.flrSet_nodup m f) s
  have hfn := s.fn_renewAll m true (s.flrSet m f)
  generalize (s.flrSet m f).foldl (fun s g => State.renew s m g true) s = u at h hfn ⊢
  refine ⟨fun g hg => ?_, fun g hg => (hfn g).trans (if_neg hg)⟩
  rw [hfn g, if_pos hg]
  refine ⟨rfl, rfl, rfl, rfl, rfl, rfl, fun p hp hlt => ?_⟩
  have hmem : p ∈ (s.flrSet m f).filterMap (s.plotOf m) := List.mem_filterMap.mpr ⟨g, hg, hp⟩
  exact ⟨(h.gen p hlt).trans (if_pos hmem), fun q hq => h.gone p q hmem hlt hq⟩

theorem FnsReset.congr {m : Link} {f : Nat} {s u v : State} (h : FnsReset m f s u) (hfn : v.fns = u.fns) (hqp : v.qps = u.qps)
    (hgen : ∀ p, p < 512 → v.plotGen p = u.plotGen p) : FnsReset m f s v := by
  have hf := State.fn_congr hfn m
  have hq : ∀ k, v.qp k = u.qp k := fun k => by unfold State.qp; rw [hqp]
  refine ⟨fun g hg => ?_, fun g hg => (hf g).trans (h.2 g hg)⟩
  obtain ⟨h1, h2, h3, h4, h5, h6, h7⟩ := h.1 g hg
  rw [hf]
  refine ⟨h1, h2, h3, h4, h5, h6, fun p hp hlt => ?_⟩
  obtain ⟨h8, h9⟩ := h7 p hp hlt
  exact ⟨(hgen p hlt).trans h8, fun q hlt => (hq _).trans (h9 q hlt)⟩

theorem PlotsReset.rest_trans {P : List Nat} {s u v : State} (h : PlotsReset P s u) (k : v = { u with regs := v.regs, links := v.links }) :
    v = { s with regs := v.regs, qps := v.qps, silo := v.silo, mem := v.mem, plots := v.plots, links := v.links, fns := v.fns } := by
  have hs := h.rest
  obtain ⟨r, l, rfl⟩ : ∃ r l, v = { u with regs := r, links := l } := ⟨_, _, k⟩
  generalize u.regs = r', u.qps = q, u.silo = c, u.mem = b, u.plots = x, u.links = l', u.fns = f at hs ⊢
  rw [hs]

theorem State.flrEnd_holds (s : State) (m : Link) (f : Nat) (hj : s.jobs = []) : FlrEnded m f s (s.flrEnd m f) := by
  have h := PlotsReset.renewAll m true _ (s.flrSet_nodup m f) s
  have hfns := FnsReset.renewAll s m f
  rw [State.flrEnd_eq hj]
  generalize (s.flrSet m f).foldl (fun s g => State.renew s m g true) s = u at h hfns ⊢
  have hmg : u.rd (B.LKP m) R.LKP_HMB_STATUS_MGEN = s.rd (B.LKP m) R.LKP_HMB_STATUS_MGEN := State.rd_congr (h.low _ (lkp_lt m))
  split
  · have k := u.resetPf0_holds m
    generalize u.resetPf0 m = v at k ⊢
    have hmodes : u.modes = s.modes := by rw [h.rest]
    refine ⟨PlotsReset.rest_trans h k.rest, hfns.congr (by rw [k.rest]) (by rw [k.rest]) fun p hp => ?_, fun a h1 h2 h3 =>
      (k.reg a (Nat.lt_trans h1 (by decide)) h2 h3).trans (h.low a h1), k.mgen.trans hmg, fun _ => ⟨_, k.link⟩, fun _ => k.cto,
      fun _ => by rw [k.ready, hmodes]⟩
    refine State.rd_congr (k.reg _ (unplotted_xgen hp).1 (.inr ?_) ?_)
    · simp only [B.HPT, B.PLOT, R.PLOT_XGEN_XGEN]; omega
    · simp only [B.LKP, B.PLOT, R.PLOT_XGEN_XGEN]; omega
  · rename_i hf
    exact ⟨h.rest, hfns, fun a h1 _ _ => h.low a h1, hmg, fun h => absurd h hf, fun h => absurd h hf, fun h => absurd h hf⟩

/-- The registers that show a link up. -/
theorem State.linkUp_congr {s t : State} {m : Nat} (h1 : t.reg (B.HPT m + 8) = s.reg (B.HPT m + 8))
    (h2 : t.reg (B.PWR + 4 * (domHP m / 32)) = s.reg (B.PWR + 4 * (domHP m / 32))) : t.linkUp m = s.linkUp m := by
  unfold State.linkUp
  rw [State.flag_congr (f := R.HPT_LINK_LINK_UP) h1, State.domOn_congr h2]

/-- Where power is shown. -/
theorem domHP_lt {m : Nat} (hm : m < 16) : B.PWR + 4 * (domHP m / 32) < B.FLT := by
  simp only [B.PWR, domHP, B.FLT]; omega

theorem FlrEnded.linkUp {m : Link} {f : Nat} {s u : State} (h : FlrEnded m f s u) : u.linkUp m = s.linkUp m := by
  have hp := domHP_lt m.isLt
  refine State.linkUp_congr (h.reg _ ?_ (.inl (by omega)) ?_) (h.reg _ ?_ (.inl ?_) ?_)
  all_goals simp only [B.HPT, B.LKP, B.PLOT, B.FLT] at hp ⊢; omega

/-- PF0 and its link after the reset of PF0. -/
def Pf0Shown (m : Link) (s u : State) : Prop :=
  (u.link m).numVFs = 0 ∧ (u.link m).vfEnable = false ∧ (u.link m).mps = 0 ∧ (u.link m).mrrs = 2 ∧
    u.rd (B.HPT m) R.HPT_CTO_CTO = 50000 ∧ u.flag (B.LKP m) R.LKP_HMB_STATUS_READY = s.modes.lkRunning ∧ u.linkUp m = s.linkUp m

theorem FlrEnded.pf0 {m : Link} {f : Nat} {s u : State} (h : FlrEnded m f s u) (hf : f = 0) : Pf0Shown m s u := by
  obtain ⟨l, hl⟩ := h.link hf
  unfold Pf0Shown
  rw [hl]
  exact ⟨rfl, rfl, rfl, rfl, h.cto hf, h.ready hf, h.linkUp⟩

theorem hptc_ge (m : Link) (c : Nat) : 0x50_0000 ≤ B.HPTC m + c := by simp only [B.HPTC]; omega

theorem flrDone_resets (m : Link) (f : Nat) (s : State) (hz : s.flag B.PMC R.PMC_CTRL_FREEZE = false) (hj : s.jobs = [])
    (ha : (s.fn m f).flrAt.isSome = true) (hl : s.linkUp m = true) : Gives (.flrDone m f) s fun u => FnsReset m f s u ∧
      u.rd (B.LKP m) R.LKP_HMB_STATUS_MGEN = s.rd (B.LKP m) R.LKP_HMB_STATUS_MGEN ∧ (f = 0 → Pf0Shown m s u) ∧
      u.cnt (B.HPTC m + C.HPT_FLR_DONE) = (s.cnt (B.HPTC m + C.HPT_FLR_DONE) + 1) % 2 ^ 64 := by
  refine ⟨_, by rw [exec_flrDone, execFlrDone, if_neg (by simpa [hl] using Option.isSome_iff_ne_none.mp ha)], ?_⟩
  have h := s.flrEnd_holds m f hj
  generalize s.flrEnd m f = u at h ⊢
  have hfreeze : u.flag B.PMC R.PMC_CTRL_FREEZE = false := by
    refine (State.flag_congr (h.reg _ (by decide) (.inl ?_) ?_)).trans hz
    all_goals simp only [B.PMC, B.HPT, B.LKP, R.PMC_CTRL_FREEZE]; omega
  have hcnt : u.cnt (B.HPTC m + C.HPT_FLR_DONE) = s.cnt (B.HPTC m + C.HPT_FLR_DONE) := by rw [h.rest]; rfl
  rw [State.count_of_running hfreeze (hptc_ge m _), hcnt]
  exact ⟨h.fns.congr rfl rfl fun _ _ => rfl, h.mgen, h.pf0, (State.cnt_setCnt _ _ _ _).trans (if_pos rfl)⟩

end Sys2Proof.Machine

namespace Sys2Proof.Machine
/-! ### The beginning of an FLR, and the way out of D3hot (R73, R87, R259, R266) -/

/-- What the first steps of an FLR leave. -/
structure FlrBegun (m : Link) (f : Nat) (s u : State) : Prop where
  rest : u = { s with fns := u.fns, links := u.links, regs := u.regs, tags := u.tags, mc := u.mc }
  fn : ∀ g, u.fn m g = if g ∈ s.flrSet m f then { s.fn m g with flrAt := some s.now, held := [] } else s.fn m g
  out : ∀ x, x ∈ (u.link m).outstanding ↔ x ∈ (s.link m).outstanding ∧ x.fn ∉ s.flrSet m f
  silent : ∀ x ∈ (s.link m).outstanding, x.fn ∈ s.flrSet m f → x.tag ∈ (u.link m).silent
  stopped : ∀ g ∈ s.flrSet m f, ∀ p, s.plotOf m g = some p → u.rd (B.VF p) R.PLOT_STATE_STATE = 3
  reg : ∀ a, a < B.TPG 0 → a < B.LKP m ∨ B.LKP m + 0x100 ≤ a → u.reg a = s.reg a
  other : f ≠ 0 → u.tags = s.tags ∧ u.mc = s.mc ∧
    u.rd (B.LKP m) R.LKP_HMB_STATUS_MGEN = s.rd (B.LKP m) R.LKP_HMB_STATUS_MGEN
  mailbox : f = 0 → u.flag (B.LKP m) R.LKP_HMB_STATUS_READY = false ∧
    u.rd (B.LKP m) R.LKP_HMB_STATUS_MGEN = nextGen (s.rd (B.LKP m) R.LKP_HMB_STATUS_MGEN) ∧ ∀ t : Tag, (u.tag (.host m t)).cur = none

theorem lkp_lt_tpg (m : Link) : B.LKP m + 8 < B.TPG 0 := Nat.lt_trans (lkp_lt m) (by decide)

theorem FlrBegun.of_silenced {m : Link} {f : Nat} {s u : State} (h : Silenced m (s.flrSet m f) s u) (hf : f ≠ 0) : FlrBegun m f s u where
  rest := by
    have ht : u.tags = s.tags := by rw [h.rest]
    have hc : u.mc = s.mc := by rw [h.rest]
    rw [ht, hc]
    exact h.rest
  fn := h.fn
  out := h.out
  silent x hx hs := (h.silent _).mpr (.inr ⟨x, hx, hs, rfl⟩)
  stopped g hg p hp := h.stopped p (.inr ⟨g, hg, hp⟩)
  reg a ha _ := h.low a ha
  other _ := ⟨by rw [h.rest], by rw [h.rest], State.rd_congr (h.low _ (lkp_lt_tpg m))⟩
  mailbox hf' := absurd hf' hf

theorem FlrBegun.of_mailbox {m : Link} {f : Nat} {s t u : State} (k : MailboxReset m s t) (h : Silenced m (s.flrSet m f) t u)
    (hf : f = 0) : FlrBegun m f s u := by
  have hfns : t.fns = s.fns := by rw [k.rest]
  have hlink : t.link m = s.link m := State.link_congr (by rw [k.rest]) m
  have hnow : t.now = s.now := by rw [k.rest]
  have hplot : t.plotOf m = s.plotOf m := State.plotOf_congr (by rw [k.rest]) m
  have hlkp := lkp_lt_tpg m
  have htags : u.tags = t.tags := by rw [h.rest]
  refine ⟨?_, fun g => ?_, fun x => ?_, fun x hx hs => ?_, fun g hg p hp => h.stopped p (.inr ⟨g, hg, by rw [hplot]; exact hp⟩),
    fun a h1 h2 => (h.low a h1).trans (k.reg a h2), fun h0 => absurd hf h0, fun _ => ⟨?_, ?_, fun i => ?_⟩⟩
  · have hs := k.rest
    obtain ⟨x, l, r, rfl⟩ : ∃ x l r, u = { t with fns := x, links := l, regs := r } := ⟨_, _, _, h.rest⟩
    generalize t.regs = r', t.tags = g, t.mc = c at hs ⊢
    rw [hs]
  · rw [h.fn, State.fn_congr hfns, hnow]
  · rw [h.out, hlink]
  · exact (h.silent _).mpr (.inr ⟨x, by rw [hlink]; exact hx, hs, rfl⟩)
  · exact (State.flag_congr (h.low _ hlkp)).trans k.ready
  · exact (State.rd_congr (h.low _ hlkp)).trans k.mgen
  · unfold State.tag
    rw [htags]
    exact k.idle i

theorem State.flrBegin_holds (s : State) (m : Link) (f : Nat) :
    FlrBegun m f s ((s.flrSet m f).foldl (fun s g => State.silence s m g) (if f = 0 then s.mailboxReset m else s)) := by
  split
  · rename_i hf
    exact .of_mailbox (s.mailboxReset_holds m) (State.silenceAll_holds m _ _) hf
  · rename_i hf
    exact .of_silenced (State.silenceAll_holds m _ s) hf

theorem flrInitiate_holds (m : Link) (f : Nat) (s : State) (h : s.cfgReaches m f = false ∨ (s.fn m f).ready = false) :
    exec (.flrInitiate m f) s = .next s := by
  rw [exec_flrInitiate, execFlrInitiate, if_pos (by rcases h with h | h <;> simp [h])]

theorem flrInitiate_silences (m : Link) (f : Nat) (s : State) (hc : s.cfgReaches m f = true) (hr : (s.fn m f).ready = true) :
    Gives (.flrInitiate m f) s fun u =>
      u = { s with fns := u.fns, links := u.links, regs := u.regs, tags := u.tags, mc := u.mc } ∧
      (∀ g ∈ s.flrSet m f, u.fn m g = { s.fn m g with flrAt := some s.now, held := [] } ∧ u.answers m g = false ∧
        (∀ x ∈ (u.link m).outstanding, x.fn ≠ g) ∧ ∀ p, s.plotOf m g = some p → u.rd (B.VF p) R.PLOT_STATE_STATE = 3) ∧
      (∀ g, g ∉ s.flrSet m f → u.fn m g = s.fn m g) ∧
      (∀ x ∈ (s.link m).outstanding, if x.fn ∈ s.flrSet m f then x.tag ∈ (u.link m).silent else x ∈ (u.link m).outstanding) ∧
      (f ≠ 0 → u.tags = s.tags ∧ u.mc = s.mc) ∧
      (f = 0 → u.flag (B.LKP m) R.LKP_HMB_STATUS_READY = false ∧
        u.rd (B.LKP m) R.LKP_HMB_STATUS_MGEN = nextGen (s.rd (B.LKP m) R.LKP_HMB_STATUS_MGEN) ∧
        ∀ (t : Tag), (u.tag (.host m t)).cur = none) := by
  refine ⟨_, by rw [exec_flrInitiate, execFlrInitiate, if_neg (by simp [hc, hr])], ?_⟩
  have h := s.flrBegin_holds m f
  generalize (s.flrSet m f).foldl (fun s g => State.silence s m g) (if f = 0 then s.mailboxReset m else s) = u at h ⊢
  refine ⟨h.rest, fun g hg => ?_, fun g hg => (h.fn g).trans (if_neg hg), fun x hx => ?_, fun hf => ?_, h.mailbox⟩
  · have hfn := (h.fn g).trans (if_pos hg)
    refine ⟨hfn, ?_, fun x hx e => ((h.out x).mp hx).2 (e ▸ hg), h.stopped g hg⟩
    unfold State.answers
    rw [hfn]
    simp
  · split
    · rename_i hs
      exact h.silent x hx hs
    · rename_i hs
      exact (h.out x).mpr ⟨hx, hs⟩
  · obtain ⟨htags, hmc, -⟩ := h.other hf
    exact ⟨htags, hmc⟩

theorem flrDone_holds (m : Link) (f : Nat) (s : State) (h : (s.fn m f).flrAt = none ∨ s.linkUp m = false) :
    exec (.flrDone m f) s = .next s := by
  rw [exec_flrDone, execFlrDone, if_pos (by rcases h with h | h <;> simp [h])]

theorem d3hotToD0_holds (m : Link) (f : Nat) (s : State) (h : s.cfgReaches m f = false ∨ (s.fn m f).d3 = false) :
    exec (.d3hotToD0 m f) s = .next s := by
  rw [exec_d3hotToD0, execD3hotToD0, if_pos (by rcases h with h | h <;> simp [h])]

theorem FlrBegun.image {m : Link} {f : Nat} {s u : State} (h : FlrBegun m f s u) : u.image = s.image := by rw [h.rest]

theorem FlrBegun.linkUp {m : Link} {f : Nat} {s u : State} (h : FlrBegun m f s u) : u.linkUp m = s.linkUp m := by
  have hp := domHP_lt m.isLt
  refine State.linkUp_congr (h.reg _ ?_ (.inl ?_)) (h.reg _ ?_ (.inl ?_))
  all_goals simp only [B.HPT, B.LKP, B.TPG, B.FLT] at hp ⊢; omega

/-- A reset of functions that was begun and ends at once. -/
theorem FlrBegun.ended {m : Link} {f : Nat} {s t u : State} (h : FlrBegun m f s t) (k : FlrEnded m f t u) : FnsReset m f s u := by
  have hset : t.flrSet m f = s.flrSet m f := State.flrSet_congr h.image m f
  have hplot : t.plotOf m = s.plotOf m := State.plotOf_congr h.image m
  obtain ⟨hin, hout⟩ := k.fns
  rw [hset] at hin hout
  rw [hplot] at hin
  refine ⟨fun g hg => ?_, fun g hg => (hout g hg).trans ((h.fn g).trans (if_neg hg))⟩
  obtain ⟨h1, h2, h3, h4, h5, h6, h7⟩ := hin g hg
  refine ⟨h1, h2, h3, h4, h5, h6, fun p hp hlt => ?_⟩
  obtain ⟨h8, h9⟩ := h7 p hp hlt
  refine ⟨h8.trans (congrArg nextXgen (State.rd_congr (h.reg _ (unplotted_xgen hlt).1 (.inr ?_)))), h9⟩
  simp only [B.LKP, B.PLOT, R.PLOT_XGEN_XGEN]; omega

theorem d3hotToD0_resets (m : Link) (f : Nat) (s : State) (hj : s.jobs = []) (hc : s.cfgReaches m f = true)
    (hd : (s.fn m f).d3 = true) : Gives (.d3hotToD0 m f) s fun u => FnsReset m f s u ∧
      u.rd (B.LKP m) R.LKP_HMB_STATUS_MGEN = (if f = 0 then nextGen (s.rd (B.LKP m) R.LKP_HMB_STATUS_MGEN)
        else s.rd (B.LKP m) R.LKP_HMB_STATUS_MGEN) ∧ (f = 0 → Pf0Shown m s u) ∧ u.cnts = s.cnts := by
  refine ⟨_, by rw [exec_d3hotToD0, execD3hotToD0, if_neg (by simp [hc, hd])], ?_⟩
  have h := s.flrBegin_holds m f
  generalize (s.flrSet m f).foldl (fun s g => State.silence s m g) (if f = 0 then s.mailboxReset m else s) = t at h ⊢
  have hj' : t.jobs = [] := by rw [h.rest]; exact hj
  have hmodes : t.modes = s.modes := by rw [h.rest]
  have hcnts : t.cnts = s.cnts := by rw [h.rest]
  have k := t.flrEnd_holds m f hj'
  generalize t.flrEnd m f = u at k ⊢
  refine ⟨h.ended k, k.mgen.trans ?_, fun hf => ?_, (by rw [k.rest] : u.cnts = t.cnts).trans hcnts⟩
  · split
    · rename_i hf
      exact (h.mailbox hf).2.1
    · rename_i hf
      exact (h.other hf).2.2
  · have hp := k.pf0 hf
    unfold Pf0Shown at hp
    rw [hmodes, h.linkUp] at hp
    exact hp

theorem functionReady_holds (m : Link) (f : Nat) (s : State)
    (h : s.linkUp m = false ∨ max (s.allot m) 1 ≤ f ∨ (s.fn m f).flrAt.isSome = true) : exec (.functionReady m f) s = .next s := by
  rw [exec_functionReady, execFunctionReady, if_pos (by rcases h with h | h | h <;> simp [h])]

theorem functionReady_shows (m : Link) (f : Nat) (s : State) (hl : s.linkUp m = true) (hf : f < max (s.allot m) 1)
    (hr : (s.fn m f).flrAt = none) : Gives (.functionReady m f) s fun u =>
      u.fn m f = { s.fn m f with ready := true } ∧ u = { s with fns := u.fns, regs := u.regs } ∧
      (f = 0 → s.modes.lkRunning = true → u.flag (B.LKP m) R.LKP_HMB_STATUS_READY = true ∧
        ∀ a, a ≠ B.LKP m + R.LKP_HMB_STATUS_READY.off → u.reg a = s.reg a) ∧
      (f ≠ 0 ∨ s.modes.lkRunning = false → u.regs = s.regs) := by
  have hfn : (s.setFn m f { s.fn m f with ready := true }).fn m f = { s.fn m f with ready := true } :=
    (s.fn_setFn m f f _).trans (if_pos rfl)
  have hrest : ∃ x, s.setFn m f { s.fn m f with ready := true } = { s with fns := x } := ⟨_, rfl⟩
  refine ⟨_, by rw [exec_functionReady, execFunctionReady, if_neg (by rw [hl, hr, decide_eq_false (Nat.not_le.mpr hf)]; decide)], ?_⟩
  generalize s.setFn m f { s.fn m f with ready := true } = u at hfn hrest ⊢
  obtain ⟨x, e⟩ := hrest
  have hregs : u.regs = s.regs := by rw [e]
  have hmodes : u.modes = s.modes := by rw [e]
  rw [hmodes]
  split
  · rename_i hc
    obtain ⟨h0, hk⟩ := (Bool.and_eq_true _ _).mp hc |>.imp_left of_decide_eq_true
    refine ⟨(State.fn_congr (State.wrB_fns _ _ _ _) m f).trans hfn, ?_, fun _ _ => ⟨State.flag_wrB_same _ _ R.LKP_HMB_STATUS_READY _
      (by decide) rfl, fun a ha => (State.reg_wrB _ _ _ R.LKP_HMB_STATUS_READY _ ha).trans (State.reg_congr hregs a)⟩, fun h => ?_⟩
    · obtain ⟨r, e'⟩ := u.wrB_eq (B.LKP m) R.LKP_HMB_STATUS_READY true
      generalize u.wrB (B.LKP m) R.LKP_HMB_STATUS_READY true = w at e' ⊢
      rw [e', e]
    · rcases h with h | h
      · exact absurd h0 h
      · exact absurd (hk.symm.trans h) (by decide)
  · rename_i hc
    refine ⟨hfn, by rw [e], fun h0 hk => absurd (by simp [h0, hk]) hc, fun _ => hregs⟩

end Sys2Proof.Machine

namespace Sys2Proof.Machine
/-! ### PERST# and the training of a link (R86, R252) -/

theorem exec_perstRelease (m : Link) (s : State) : exec (.perstRelease m) s = execPerstRelease m s := rfl
theorem exec_hostLinkUp (m : Link) (r : Fin 6) (w : Nat) (x : Bool) (s : State) :
    exec (.hostLinkUp m r w x) s = execHostLinkUp m r w x s := rfl
theorem exec_hostLinkRateChange (m : Link) (r : Fin 6) (w : Nat) (s : State) :
    exec (.hostLinkRateChange m r w) s = execHostLinkRateChange m r w s := rfl

theorem perstRelease_holds (m : Link) (s : State) (h : s.linkExists m = false ∨ (s.link m).perst = false) :
    exec (.perstRelease m) s = .next s := by
  rw [exec_perstRelease, execPerstRelease]
  dsimp only
  rw [if_pos (by rcases h with h | h <;> simp [h])]

theorem exec_perstRelease_of_held (m : Link) (s : State) (he : s.linkExists m = true) (hp : (s.link m).perst = true) :
    exec (.perstRelease m) s = .next
      (if s.perstTimeOk then s.setLink m { s.link m with perst := false, released := some s.now }
       else (s.setLink m { s.link m with perst := false, released := some s.now }).raise (272 + 4 * m + 3) 0 0) := by
  rw [exec_perstRelease, execPerstRelease]
  dsimp only
  rw [if_neg (by simp [he, hp])]
  rfl

/-- The registers of fault sources lie below those of the links. -/
theorem State.mild_of_low {s t : State} {n : Nat} (hr : ∀ a, a < B.HPT 0 → t.reg a = s.reg a) (hf : t.flt = s.flt) (hn : n < 352)
    (h : s.mild n) : t.mild n := by
  have hsev (k : Nat) (hk : k < 352) : t.sev k = s.sev k := State.sev_congr (hr _ (srcBase_high hk))
  unfold State.mild at *
  rw [hsev n hn, hsev 28 (by omega), hf]
  exact h

theorem perstRelease_early (m : Link) (s : State) (he : s.linkExists m = true) (hp : (s.link m).perst = true)
    (ht : s.perstTimeOk = false) (hm : s.mild (272 + 4 * m + 3)) : Gives (.perstRelease m) s fun u =>
      (u.link m).perst = false ∧ (u.link m).released = some s.now ∧ u.sticky (272 + 4 * m + 3) = true := by
  have hn : 272 + 4 * m.val + 3 < 352 := by omega
  have hlink := s.link_setLink_same m { s.link m with perst := false, released := some s.now }
  have hmild : (s.setLink m { s.link m with perst := false, released := some s.now }).mild (272 + 4 * m + 3) :=
    State.mild_of_low (fun _ _ => State.reg_congr (State.setLink_regs _ _ _) _) (State.setLink_flt _ _ _) hn hm
  refine ⟨_, by rw [exec_perstRelease_of_held m s he hp, ht, if_neg (by decide)], ?_⟩
  generalize s.setLink m { s.link m with perst := false, released := some s.now } = u at hlink hmild ⊢
  obtain ⟨x, e⟩ := (u.raise_links 0 0 hn hmild).link m
  rw [e, hlink]
  exact ⟨rfl, rfl, (u.raise_of_mild 0 0 hn hmild).2⟩

/-! #### Rate and width -/

/-- A link is up at a rate and width. -/
def LinkShown (m rate w : Nat) (u : State) : Prop :=
  u.linkUp m = true ∧ u.rd (B.HPT m) R.HPT_LINK_RATE = rate ∧ u.rd (B.HPT m) R.HPT_LINK_WIDTH = w ∧
    u.rd (B.HPT m) R.HPT_LINK_TX_WIDTH = w

theorem LinkShown.raise {m rate w n : Nat} {s : State} (h : LinkShown m rate w s) (hm : m < 16) (hn : n < 352) (hmild : s.mild n) :
    LinkShown m rate w (s.raise n 0 0) := by
  have ht := s.raise_links 0 0 hn hmild
  have hf := (s.raise_of_mild 0 0 hn hmild).1
  obtain ⟨hup, hrate, hw, htx⟩ := h
  generalize s.raise n 0 0 = u at ht hf ⊢
  refine ⟨Eq.trans ?_ hup, (ht.field m _ hm rfl (.inl (by decide))).trans hrate, (ht.field m _ hm rfl (.inl (by decide))).trans hw,
    (ht.field m _ hm rfl (.inl (by decide))).trans htx⟩
  have h24 : u.flag (B.HPT m) R.HPT_LINK_LINK_UP = s.flag (B.HPT m) R.HPT_LINK_LINK_UP := by
    unfold State.flag
    rw [ht.field m R.HPT_LINK_LINK_UP hm rfl (.inr (by decide))]
  unfold State.linkUp
  rw [h24, State.domOn_congr (hf.regs _ (.inl (domHP_lt hm)))]

theorem LinkShown.test_full {m rate w : Nat} {s : State} (h : LinkShown m rate w s) (hr : 3 ≤ rate) (hw : s.fullWidth m ≤ w) :
    s.testLink m = s := by
  obtain ⟨-, hrate, hwidth, -⟩ := h
  unfold State.testLink
  rw [hrate, hwidth, if_neg]
  simp only [Bool.or_eq_true, decide_eq_true_eq]
  omega

theorem LinkShown.test_poor {m rate w : Nat} {s : State} (h : LinkShown m rate w s) (hm : m < 16)
    (hp : rate < 3 ∨ w < s.fullWidth m) (hmild : s.mild (272 + 4 * m + 2)) :
    LinkShown m rate w (s.testLink m) ∧ (s.testLink m).sticky (272 + 4 * m + 2) = true := by
  have hn : 272 + 4 * m + 2 < 352 := by omega
  have ht : s.testLink m = s.raise (272 + 4 * m + 2) 0 0 := by
    obtain ⟨-, hrate, hwidth, -⟩ := h
    unfold State.testLink
    rw [hrate, hwidth, if_pos]
    simpa only [Bool.or_eq_true, decide_eq_true_eq] using hp
  rw [ht]
  exact ⟨h.raise hm hn hmild, (s.raise_of_mild 0 0 hn hmild).2⟩

/-- What the setting of a rate and a width leaves. -/
structure RateSet (m rate w : Nat) (flit up : Bool) (s u : State) : Prop where
  rest : u = { s with regs := u.regs, timers := u.timers }
  reg : ∀ a, a ≠ B.HPT m + 8 → u.reg a = s.reg a
  rate : u.rd (B.HPT m) R.HPT_LINK_RATE = rate
  width : u.rd (B.HPT m) R.HPT_LINK_WIDTH = w
  tx : u.rd (B.HPT m) R.HPT_LINK_TX_WIDTH = w
  flit : u.flag (B.HPT m) R.HPT_LINK_FLIT = flit
  up : u.flag (B.HPT m) R.HPT_LINK_LINK_UP = up

theorem RateSet.rest_wr {s u : State} (h : u = { s with regs := u.regs, timers := u.timers }) (b : Nat) (f : RegField) (v : Nat) :
    u.wr b f v = { s with regs := (u.wr b f v).regs, timers := (u.wr b f v).timers } := by
  obtain ⟨r, e⟩ := u.wr_eq b f v
  generalize u.wr b f v = w at e ⊢
  rw [e, h]

/-- Two fields of HPT_LINK that do not meet. -/
theorem State.hpt_wr_ne (s : State) (m : Nat) (f g : RegField) (n : Nat) (h : f.hi < 32) (hl : f.lo ≤ f.hi)
    (hd : g.hi < f.lo ∨ f.hi < g.lo) : (s.wr (B.HPT m) f n).rd (B.HPT m) g = s.rd (B.HPT m) g :=
  s.rd_wr_ne _ _ f g n h hl (.inr hd)

theorem State.hpt_flag_wr (s : State) (m : Nat) (f g : RegField) (n : Nat) (h : f.hi < 32) (hl : f.lo ≤ f.hi)
    (hd : g.hi < f.lo ∨ f.hi < g.lo) : (s.wr (B.HPT m) f n).flag (B.HPT m) g = s.flag (B.HPT m) g :=
  s.flag_wr_ne _ _ f g n h hl (.inr hd)

theorem State.setRate_holds (s : State) (m rate w : Nat) (flit : Bool) (hr : rate < 8) (hw : w < 32) :
    RateSet m rate w flit (s.flag (B.HPT m) R.HPT_LINK_LINK_UP) s (s.setRate m rate w flit) := by
  have e : s.stamp (Tm.txWidth m) = { s with regs := (s.stamp (Tm.txWidth m)).regs, timers := (s.stamp (Tm.txWidth m)).timers } := rfl
  have h0 (a : Nat) := s.reg_stamp (Tm.txWidth m) a
  unfold State.setRate
  dsimp only
  generalize s.stamp (Tm.txWidth m) = u at e h0 ⊢
  refine ⟨RateSet.rest_wr (RateSet.rest_wr (RateSet.rest_wr (RateSet.rest_wr (RateSet.rest_wr e _ _ _) _ _ _) _ _ _) _ _ _) _ _ _,
    fun a ha => ?_, ?_, ?_, ?_, ?_, ?_⟩
  · rw [State.reg_wr _ _ _ _ _ ha, State.reg_wr _ _ _ _ _ ha, State.reg_wr _ _ _ _ _ ha, State.reg_wrB _ _ _ _ _ ha,
      State.reg_wr _ _ _ _ _ ha, h0]
  · rw [State.hpt_wr_ne _ _ _ _ _ (by decide) (by decide) (by decide), State.hpt_wr_ne _ _ _ _ _ (by decide) (by decide) (by decide),
      State.rd_wr_same _ _ _ _ (by decide) (by decide)]
    exact Nat.mod_eq_of_lt hr
  · rw [State.hpt_wr_ne _ _ _ _ _ (by decide) (by decide) (by decide), State.rd_wr_same _ _ _ _ (by decide) (by decide)]
    exact Nat.mod_eq_of_lt hw
  · rw [State.rd_wr_same _ _ _ _ (by decide) (by decide)]
    exact Nat.mod_eq_of_lt hw
  · rw [State.hpt_flag_wr _ _ _ _ _ (by decide) (by decide) (by decide), State.hpt_flag_wr _ _ _ _ _ (by decide) (by decide) (by decide),
      State.hpt_flag_wr _ _ _ _ _ (by decide) (by decide) (by decide), State.flag_wrB_same _ _ _ _ (by decide) rfl]
  · rw [State.hpt_flag_wr _ _ _ _ _ (by decide) (by decide) (by decide), State.hpt_flag_wr _ _ _ _ _ (by decide) (by decide) (by decide),
      State.hpt_flag_wr _ _ _ _ _ (by decide) (by decide) (by decide), State.wrB, State.hpt_flag_wr _ _ _ _ _ (by decide) (by decide) (by decide),
      State.hpt_flag_wr _ _ _ _ _ (by decide) (by decide) (by decide), State.flag_congr (h0 _)]

/-- LINK_UP is set beside the rate and the width. -/
theorem RateSet.raised {m rate w : Nat} {flit up : Bool} {s u : State} (h : RateSet m rate w flit up s u) :
    RateSet m rate w flit true s (u.wrB (B.HPT m) R.HPT_LINK_LINK_UP true) where
  rest := RateSet.rest_wr h.rest _ _ _
  reg a ha := (State.reg_wrB _ _ _ R.HPT_LINK_LINK_UP _ ha).trans (h.reg a ha)
  rate := (State.hpt_wr_ne _ _ R.HPT_LINK_LINK_UP _ _ (by decide) (by decide) (by decide)).trans h.rate
  width := (State.hpt_wr_ne _ _ R.HPT_LINK_LINK_UP _ _ (by decide) (by decide) (by decide)).trans h.width
  tx := (State.hpt_wr_ne _ _ R.HPT_LINK_LINK_UP _ _ (by decide) (by decide) (by decide)).trans h.tx
  flit := (State.hpt_flag_wr _ _ R.HPT_LINK_LINK_UP _ _ (by decide) (by decide) (by decide)).trans h.flit
  up := State.flag_wrB_same _ _ R.HPT_LINK_LINK_UP _ (by decide) rfl

theorem RateSet.shown {m rate w : Nat} {flit : Bool} {s u : State} (h : RateSet m rate w flit true s u) (hm : m < 16)
    (hd : s.domOn (domHP m) = true) : LinkShown m rate w u := by
  refine ⟨?_, h.rate, h.width, h.tx⟩
  unfold State.linkUp
  rw [h.up, State.domOn_congr (h.reg _ ?_), hd]
  · rfl
  · have := domHP_lt hm
    simp only [B.FLT, B.HPT] at this ⊢; omega

theorem RateSet.fullWidth {m rate w : Nat} {flit up : Bool} {s u : State} (h : RateSet m rate w flit up s u) (n : Nat) :
    u.fullWidth n = s.fullWidth n := by
  have hi : u.image = s.image := by rw [h.rest]
  unfold State.fullWidth
  rw [hi]

theorem RateSet.mild {m rate w n : Nat} {flit up : Bool} {s u : State} (h : RateSet m rate w flit up s u) (hn : n < 352)
    (hm : s.mild n) : u.mild n := by
  refine State.mild_of_low (fun a ha => h.reg a ?_) (by rw [h.rest]) hn hm
  simp only [B.HPT] at ha ⊢; omega

theorem widthOk_le {s : State} {m w : Nat} (h : s.widthOk m w = true) : w < 32 := by
  obtain ⟨-, h⟩ := (Bool.and_eq_true _ _).mp h
  have := of_decide_eq_true h
  unfold State.fullWidth at this
  split at this <;> omega

/-- What a link needs to train. -/
def State.trains (s : State) (m : Nat) (w : Nat) : Prop :=
  s.linkExists m = true ∧ s.domOn (domHP m) = true ∧ (s.link m).perst = false ∧ s.perstTimeOk = true ∧
    s.linkUp m = false ∧ s.widthOk m w = true

theorem hostLinkUp_holds (m : Link) (rate : Fin 6) (w : Nat) (flit : Bool) (s : State) (h : ¬ s.trains m w) :
    exec (.hostLinkUp m rate w flit) s = .next s := by
  rw [exec_hostLinkUp, execHostLinkUp]
  refine if_pos ?_
  by_contra hc
  simp only [Bool.or_eq_true, not_or, Bool.not_eq_true', Bool.not_eq_false, Bool.not_eq_true] at hc
  obtain ⟨⟨⟨⟨⟨h1, h2⟩, h3⟩, h4⟩, h5⟩, h6⟩ := hc
  exact h ⟨h1, h2, h3, h4, h5, h6⟩

/-- A link that has trained, before the test of its rate and width. -/
def State.trained (s : State) (m rate w : Nat) (flit : Bool) : State :=
  let s := (s.setRate m rate w flit).wrB (B.HPT m) R.HPT_LINK_LINK_UP true
  s.setLink m { s.link m with lastTlp := s.now }

theorem exec_hostLinkUp_of_trains (m : Link) (rate : Fin 6) (w : Nat) (flit : Bool) (s : State) (h : s.trains m w) :
    exec (.hostLinkUp m rate w flit) s = .next ((s.trained m rate w flit).testLink m) := by
  obtain ⟨h1, h2, h3, h4, h5, h6⟩ := h
  rw [exec_hostLinkUp, execHostLinkUp, if_neg (by simp [h1, h2, h3, h4, h5, h6])]
  rfl

/-- What the training of a link leaves, before the test. -/
structure Trained (m rate w : Nat) (flit : Bool) (s u : State) : Prop where
  rest : u = { s with regs := u.regs, links := u.links, timers := u.timers }
  reg : ∀ a, a ≠ B.HPT m + 8 → u.reg a = s.reg a
  shown : LinkShown m rate w u
  flit : u.flag (B.HPT m) R.HPT_LINK_FLIT = flit
  lastTlp : (u.link m).lastTlp = s.now

theorem State.trained_holds (s : State) {m rate w : Nat} (flit : Bool) (hr : rate < 8) (hm : m < 16) (h : s.trains m w) :
    Trained m rate w flit s (s.trained m rate w flit) := by
  obtain ⟨-, hd, -, -, -, hw⟩ := h
  have h := (s.setRate_holds m rate w flit hr (widthOk_le hw)).raised
  unfold State.trained
  dsimp only
  generalize (s.setRate m rate w flit).wrB (B.HPT m) R.HPT_LINK_LINK_UP true = u at h ⊢
  have hnow : u.now = s.now := by rw [h.rest]
  have hreg (a : Nat) := State.reg_congr (u.setLink_regs m { u.link m with lastTlp := u.now }) a
  have hlink := u.link_setLink_same m { u.link m with lastTlp := u.now }
  have hrest : ∃ l, u.setLink m { u.link m with lastTlp := u.now } = { u with links := l } := ⟨_, rfl⟩
  obtain ⟨h1, h2, h3, h4⟩ := h.shown hm hd
  generalize u.setLink m { u.link m with lastTlp := u.now } = v at hreg hlink hrest ⊢
  refine ⟨?_, fun a ha => (hreg a).trans (h.reg a ha), ⟨(State.linkUp_congr (hreg _) (hreg _)).trans h1, (State.rd_congr (hreg _)).trans h2,
    (State.rd_congr (hreg _)).trans h3, (State.rd_congr (hreg _)).trans h4⟩, (State.flag_congr (hreg _)).trans h.flit, by rw [hlink, ← hnow]⟩
  obtain ⟨l, e⟩ := hrest
  have hs := h.rest
  rw [e]
  generalize u.regs = r, u.timers = ts at hs ⊢
  rw [hs]

theorem Trained.fullWidth {m rate w : Nat} {flit : Bool} {s u : State} (h : Trained m rate w flit s u) :
    u.fullWidth m = s.fullWidth m := by
  have hi : u.image = s.image := by rw [h.rest]
  unfold State.fullWidth
  rw [hi]

theorem hostLinkUp_full (m : Link) (rate : Fin 6) (w : Nat) (flit : Bool) (s : State) (h : s.trains m w) (hr : 3 ≤ rate.val)
    (hw : s.fullWidth m ≤ w) : Gives (.hostLinkUp m rate w flit) s fun u => LinkShown m rate w u ∧
      u.flag (B.HPT m) R.HPT_LINK_FLIT = flit ∧ (u.link m).lastTlp = s.now ∧
      u = { s with regs := u.regs, links := u.links, timers := u.timers } ∧ ∀ a, a ≠ B.HPT m + 8 → u.reg a = s.reg a := by
  have k := s.trained_holds flit (show rate.val < 8 by omega) m.isLt h
  refine ⟨_, by rw [exec_hostLinkUp_of_trains m rate w flit s h, k.shown.test_full hr (by rw [k.fullWidth]; exact hw)], ?_⟩
  exact ⟨k.shown, k.flit, k.lastTlp, k.rest, k.reg⟩

theorem hostLinkUp_poor (m : Link) (rate : Fin 6) (w : Nat) (flit : Bool) (s : State) (h : s.trains m w)
    (hp : rate.val < 3 ∨ w < s.fullWidth m) (hm : s.mild (272 + 4 * m + 2)) :
    Gives (.hostLinkUp m rate w flit) s fun u => LinkShown m rate w u ∧ u.sticky (272 + 4 * m + 2) = true := by
  have k := s.trained_holds flit (show rate.val < 8 by omega) m.isLt h
  refine ⟨_, exec_hostLinkUp_of_trains m rate w flit s h, k.shown.test_poor m.isLt (by rw [k.fullWidth]; exact hp) ?_⟩
  refine State.mild_of_low (fun a ha => k.reg a ?_) (by rw [k.rest]) (by omega) hm
  simp only [B.HPT] at ha ⊢; omega

theorem hostLinkRateChange_holds (m : Link) (rate : Fin 6) (w : Nat) (s : State) (h : s.linkUp m = false ∨ s.widthOk m w = false) :
    exec (.hostLinkRateChange m rate w) s = .next s := by
  rw [exec_hostLinkRateChange, execHostLinkRateChange, if_pos (by rcases h with h | h <;> simp [h])]

theorem exec_hostLinkRateChange_of_up (m : Link) (rate : Fin 6) (w : Nat) (s : State) (hl : s.linkUp m = true)
    (hw : s.widthOk m w = true) : exec (.hostLinkRateChange m rate w) s =
      .next ((s.setRate m rate w (s.flag (B.HPT m) R.HPT_LINK_FLIT)).testLink m) := by
  rw [exec_hostLinkRateChange, execHostLinkRateChange, if_neg (by simp [hl, hw])]

/-- A new rate and width of a link that is up. -/
theorem State.setRate_up {s : State} {m rate w : Nat} (hr : rate < 8) (hl : s.linkUp m = true) (hw : s.widthOk m w = true) :
    RateSet m rate w (s.flag (B.HPT m) R.HPT_LINK_FLIT) true s (s.setRate m rate w (s.flag (B.HPT m) R.HPT_LINK_FLIT)) ∧
      s.domOn (domHP m) = true := by
  obtain ⟨hup, hd⟩ := (Bool.and_eq_true _ _).mp hl
  exact ⟨hup ▸ s.setRate_holds m rate w _ hr (widthOk_le hw), hd⟩

theorem hostLinkRateChange_full (m : Link) (rate : Fin 6) (w : Nat) (s : State) (hl : s.linkUp m = true) (hw : s.widthOk m w = true)
    (hr : 3 ≤ rate.val) (hf : s.fullWidth m ≤ w) : Gives (.hostLinkRateChange m rate w) s fun u => LinkShown m rate w u ∧
      u.flag (B.HPT m) R.HPT_LINK_FLIT = s.flag (B.HPT m) R.HPT_LINK_FLIT ∧ u = { s with regs := u.regs, timers := u.timers } ∧
      ∀ a, a ≠ B.HPT m + 8 → u.reg a = s.reg a := by
  obtain ⟨k, hd⟩ := State.setRate_up (show rate.val < 8 by omega) hl hw
  have hs := k.shown m.isLt hd
  refine ⟨_, by rw [exec_hostLinkRateChange_of_up m rate w s hl hw, hs.test_full hr (by rw [k.fullWidth]; exact hf)], ?_⟩
  exact ⟨hs, k.flit, k.rest, k.reg⟩

theorem hostLinkRateChange_poor (m : Link) (rate : Fin 6) (w : Nat) (s : State) (hl : s.linkUp m = true) (hw : s.widthOk m w = true)
    (hp : rate.val < 3 ∨ w < s.fullWidth m) (hm : s.mild (272 + 4 * m + 2)) :
    Gives (.hostLinkRateChange m rate w) s fun u => LinkShown m rate w u ∧ u.sticky (272 + 4 * m + 2) = true := by
  obtain ⟨k, hd⟩ := State.setRate_up (show rate.val < 8 by omega) hl hw
  exact ⟨_, exec_hostLinkRateChange_of_up m rate w s hl hw, (k.shown m.isLt hd).test_poor m.isLt (by rw [k.fullWidth]; exact hp)
    (k.mild (by omega) hm)⟩

end Sys2Proof.Machine

namespace Sys2Proof.Machine
/-! ### The loss of a link (R268, R274, Table 4.9) -/

theorem exec_hotReset (m : Link) (how : LinkLoss) (s : State) : exec (.hotReset m how) s = execHotReset m how s := rfl
theorem exec_perstAssert (m : Link) (s : State) : exec (.perstAssert m) s = execPerstAssert m s := rfl

/-- What the flush of a link's slot leaves: packets end and are counted. -/
structure SlotFlushed (m : Nat) (s u : State) : Prop where
  rest : u = { s with cnts := u.cnts, flt := u.flt, qps := u.qps, egr := u.egr }
  cnt : ∀ a, a ≠ B.HPTC m + C.HPT_SLOT8_FLUSHED → u.cnt a = s.cnt a

theorem SlotFlushed.trans {m : Nat} {s t u : State} (h : SlotFlushed m s t) (k : SlotFlushed m t u) : SlotFlushed m s u :=
  ⟨k.rest.trans (by rw [h.rest]), fun a ha => (k.cnt a ha).trans (h.cnt a ha)⟩

theorem SlotFlushed.count (s : State) (m : Nat) : SlotFlushed m s (s.count (B.HPTC m + C.HPT_SLOT8_FLUSHED)) := by
  refine ⟨?_, fun a ha => ?_⟩
  · obtain ⟨c, f, e⟩ := s.count_eq (B.HPTC m + C.HPT_SLOT8_FLUSHED)
    rw [e]
  · have he : eventOf (B.HPTC m + C.HPT_SLOT8_FLUSHED) = none := by
      have h : 0x50_0000 ≤ B.HPTC m + C.HPT_SLOT8_FLUSHED := by simp only [B.HPTC]; omega
      unfold eventOf
      rw [if_neg (by omega), if_neg (by omega)]
    unfold State.count
    rw [he]
    exact s.cnt_countN_ne 1 ha

theorem SlotFlushed.pktEnd (m : Nat) (s : State) (k : Pkt) : SlotFlushed m s (s.pktEnd k) := by
  unfold State.pktEnd
  split
  · unfold State.onChain
    split
    · exact ⟨rfl, fun _ _ => rfl⟩
    · exact ⟨rfl, fun _ _ => rfl⟩
  · exact ⟨rfl, fun _ _ => rfl⟩

theorem State.flushSlot8_holds (s : State) (m : Nat) : SlotFlushed m s (s.flushSlot8 m) := by
  unfold State.flushSlot8
  refine foldl_keeps (SlotFlushed m) (fun _ => ⟨rfl, fun _ _ => rfl⟩) (fun _ _ _ => .trans) _ (fun s t => ?_) _ s
  dsimp only
  split
  · exact ⟨rfl, fun _ _ => rfl⟩
  · exact List.foldlRecOn (motive := SlotFlushed m s) _ _ ⟨rfl, fun _ _ => rfl⟩ fun u hu p _ =>
      (hu.trans (.count u m)).trans (.pktEnd m _ _)

/-- The registers of a link that its loss resets. -/
def linkReg (m a : Nat) : Bool :=
  (B.HPT m ≤ a && a < B.HPT m + 0x1000) || (B.TPG m ≤ a && a < B.TPG m + 0x1_0000) || (B.MGR m ≤ a && a < B.MGR m + 0x1000)

theorem linkReg_false {m a : Nat} (h : a < B.TPG 0) (ha : a < B.HPT m ∨ B.HPT m + 0x1000 ≤ a) : ¬ linkReg m a = true := by
  simp only [linkReg, Bool.or_eq_true, Bool.and_eq_true, decide_eq_true_eq]
  simp only [B.TPG, B.MGR] at h ⊢
  omega

theorem linkReg_status (m : Nat) : linkReg m (B.HPT m + 8) = true := by simp [linkReg]

theorem linkStatus_reset : ∀ m : Link, bitsOf (regReset (B.HPT m + 8)).toNat 24 24 = 0 := by decide

/-- The link after its loss. -/
def LinkSt.lost (l : LinkSt) (sticky : Bool) : LinkSt :=
  { LinkSt.init with perst := l.perst, released := l.released, aer := if sticky then l.aer else 0 }

/-- A link, and what the Lockkeeper keeps for its host, go back to reset. -/
def State.clearLink (s : State) (m : Nat) (sticky : Bool) : State :=
  let s := s.resetRegs (linkReg m)
  let s := s.setLink m ((s.link m).lost sticky)
  let s := { s with tim := { s.tim with pages := tput (fun _ => Page.init) s.tim.pages m Page.init } }
  { s with flt := { s.flt with notify := tput (fun _ => 0) s.flt.notify m 0, telem := tput (fun _ => Telem.off) s.flt.telem m Telem.off } }

theorem State.resetLink_eq (s : State) (m : Nat) (sticky : Bool) : s.resetLink m sticky =
    ((List.range (max 1 (((s.flushSlot8 m).dropAccesses (isHostOf m)).allot m))).foldl (fun s g => State.renew s m g false)
      ((s.flushSlot8 m).dropAccesses (isHostOf m))).clearLink m sticky := rfl

/-- What the reset of a link leaves. -/
structure LinkReset (m : Link) (sticky : Bool) (s u : State) : Prop where
  jobs : u.jobs = s.jobs
  low : ∀ a, a < B.PLOT 0 → a < B.HPT m ∨ B.HPT m + 0x1000 ≤ a → u.reg a = s.reg a
  down : u.flag (B.HPT m) R.HPT_LINK_LINK_UP = false
  perst : (u.link m).perst = (s.link m).perst
  outstanding : (u.link m).outstanding = []
  vfEnable : (u.link m).vfEnable = false
  aer : (u.link m).aer = if sticky then (s.link m).aer else 0
  fn : ∀ g, g < max 1 (s.allot m) → (u.fn m g).ready = false ∧ (u.fn m g).held = []
  gen : ∀ g p, s.plotOf m g = some p → p < 512 → u.plotGen p = nextXgen (s.plotGen p)
  cnt : u.cnt (B.HPTC m + C.HPT_LINK_DOWN) = s.cnt (B.HPTC m + C.HPT_LINK_DOWN)

theorem State.clearLink_eq (s : State) (m : Nat) (sticky : Bool) : ∃ t f,
    s.clearLink m sticky = { (s.resetRegs (linkReg m)).setLink m ((s.link m).lost sticky) with tim := t, flt := f } := ⟨_, _, rfl⟩

/-- What is gone with a link before its functions are reset. -/
structure SlotDropped (m : Nat) (s u : State) : Prop where
  rest : u = { s with cnts := u.cnts, flt := u.flt, qps := u.qps, egr := u.egr, cross := u.cross }
  cnt : u.cnt (B.HPTC m + C.HPT_LINK_DOWN) = s.cnt (B.HPTC m + C.HPT_LINK_DOWN)

theorem State.dropSlot_holds (s : State) (m : Nat) : SlotDropped m s ((s.flushSlot8 m).dropAccesses (isHostOf m)) := by
  have h := s.flushSlot8_holds m
  generalize s.flushSlot8 m = u at h ⊢
  unfold State.dropAccesses
  refine ⟨?_, h.cnt _ ?_⟩
  · have hs := h.rest
    generalize u.cross.filter _ = x
    generalize u.cnts = c, u.flt = f, u.qps = q, u.egr = e at hs ⊢
    rw [hs]
  · simp only [C.HPT_LINK_DOWN, C.HPT_SLOT8_FLUSHED]; omega

/-- The functions of a lost link. -/
def FnsLost (m : Link) (s u : State) : Prop :=
  (∀ g, g < max 1 (s.allot m) → (u.fn m g).ready = false ∧ (u.fn m g).held = []) ∧
    ∀ g p, s.plotOf m g = some p → p < 512 → u.plotGen p = nextXgen (s.plotGen p)

theorem State.plotOf_lt {s : State} {m g p : Nat} (h : s.plotOf m g = some p) : g < s.allot m := by
  unfold State.plotOf at h
  split at h
  · assumption
  · exact absurd h (by simp)

theorem FnsLost.renewAll (s : State) (m : Link) :
    FnsLost m s ((List.range (max 1 (s.allot m))).foldl (fun s g => State.renew s m g false) s) := by
  have h := PlotsReset.renewAll m false _ (List.nodup_range (n := max 1 (s.allot m))) s
  have hfn := s.fn_renewAll m false (List.range (max 1 (s.allot m)))
  generalize (List.range (max 1 (s.allot m))).foldl (fun s g => State.renew s m g false) s = u at h hfn ⊢
  refine ⟨fun g hg => ?_, fun g p hp hlt => ?_⟩
  · rw [hfn, if_pos (List.mem_range.mpr hg)]
    exact ⟨rfl, rfl⟩
  · have hg := State.plotOf_lt hp
    exact (h.gen p hlt).trans (if_pos (List.mem_filterMap.mpr ⟨g, List.mem_range.mpr (by omega), hp⟩))

/-- The last step of a link's reset. -/
structure LinkCleared (m : Link) (sticky : Bool) (s u : State) : Prop where
  rest : u = { s with regs := u.regs, links := u.links, tim := u.tim, flt := u.flt }
  reg : ∀ a, u.reg a = if linkReg m a then regReset a else s.reg a
  link : u.link m = (s.link m).lost sticky

theorem State.clearLink_holds (s : State) (m : Link) (sticky : Bool) : LinkCleared m sticky s (s.clearLink m sticky) := by
  obtain ⟨t, f, e⟩ := s.clearLink_eq m sticky
  have hlink := (s.resetRegs (linkReg m)).link_setLink_same m ((s.link m).lost sticky)
  have hreg (a : Nat) := (State.reg_congr ((s.resetRegs (linkReg m)).setLink_regs m ((s.link m).lost sticky)) a).trans
    (s.reg_resetRegs a (linkReg m))
  have hrest : ∃ r l, (s.resetRegs (linkReg m)).setLink m ((s.link m).lost sticky) = { s with regs := r, links := l } := ⟨_, _, rfl⟩
  rw [e]
  generalize (s.resetRegs (linkReg m)).setLink m ((s.link m).lost sticky) = u at hlink hreg hrest ⊢
  obtain ⟨r, l, e⟩ := hrest
  exact ⟨by rw [e], hreg, hlink⟩

theorem hpt_lt_xgen (m : Link) (p : Nat) : B.HPT m + 0x1000 ≤ B.PLOT p + R.PLOT_XGEN_XGEN.off := by
  simp only [B.HPT, B.PLOT, R.PLOT_XGEN_XGEN]; omega

theorem State.resetLink_holds (s : State) (m : Link) (sticky : Bool) : LinkReset m sticky s (s.resetLink m sticky) := by
  rw [State.resetLink_eq]
  have h0 := s.dropSlot_holds m
  generalize (s.flushSlot8 m).dropAccesses (isHostOf m) = v at h0 ⊢
  have hi : v.image = s.image := by rw [h0.rest]
  have h1 := PlotsReset.renewAll m false _ (List.nodup_range (n := max 1 (v.allot m))) v
  have hfns := FnsLost.renewAll v m
  generalize (List.range (max 1 (v.allot m))).foldl (fun s g => State.renew s m g false) v = u at h1 hfns ⊢
  have h2 := u.clearLink_holds m sticky
  generalize u.clearLink m sticky = t at h2 ⊢
  have hlow {a : Nat} (h : a < B.TPG 0) (ha : a < B.HPT m ∨ B.HPT m + 0x1000 ≤ a) : t.reg a = u.reg a :=
    (h2.reg a).trans (if_neg (linkReg_false h ha))
  have hjobs : t.jobs = u.jobs ∧ u.jobs = v.jobs ∧ v.jobs = s.jobs := ⟨by rw [h2.rest], by rw [h1.rest], by rw [h0.rest]⟩
  have hregs : v.regs = s.regs := by rw [h0.rest]
  have hfn : t.fns = u.fns := by rw [h2.rest]
  have hcnt : t.cnts = v.cnts := by rw [h2.rest]; exact (by rw [h1.rest] : u.cnts = v.cnts)
  have hlv : v.link m = s.link m := State.link_congr (by rw [h0.rest]) m
  obtain ⟨o, x, hl⟩ := h1.link m
  rw [hlv] at hl
  obtain ⟨hready, hgen⟩ := hfns
  rw [State.allot_congr hi] at hready
  rw [State.plotOf_congr hi] at hgen
  refine ⟨hjobs.1.trans (hjobs.2.1.trans hjobs.2.2), fun a h h' => (hlow (Nat.lt_trans h (by decide)) h').trans ((h1.low a h).trans
    (State.reg_congr hregs a)), ?_, by rw [h2.link, hl]; rfl, by rw [h2.link]; rfl, by rw [h2.link]; rfl, by rw [h2.link, hl]; rfl,
    fun g hg => by rw [State.fn_congr hfn]; exact hready g hg, fun g p hp hlt => ?_, ?_⟩
  · unfold State.flag State.rd
    rw [show B.HPT m + R.HPT_LINK_LINK_UP.off = B.HPT m + 8 from rfl, h2.reg, if_pos (linkReg_status m)]
    show decide (bitsOf (regReset (B.HPT m + 8)).toNat 24 24 = 1) = false
    rw [linkStatus_reset m]
    rfl
  · have hp' : t.plotGen p = u.plotGen p := State.rd_congr (hlow (unplotted_xgen hlt).1 (.inr (hpt_lt_xgen m p)))
    have hv : v.plotGen p = s.plotGen p := State.rd_congr (State.reg_congr hregs _)
    rw [hp', hgen g p hp hlt, hv]
  · unfold State.cnt
    rw [hcnt]
    exact h0.cnt

end Sys2Proof.Machine

namespace Sys2Proof.Machine
/-! ### The ways a link is lost (R268) -/

/-- What the loss of a link shows. The bound on the other links is the statement's own: they are of type Link. -/
def LinkLost (m : Link) (s u : State) : Prop :=
  u.linkUp m = false ∧ (∀ y : Link, y < 16 → y ≠ m → u.linkUp y = s.linkUp y) ∧
    u.rd (B.LKP m) R.LKP_HMB_STATUS_MGEN = nextGen (s.rd (B.LKP m) R.LKP_HMB_STATUS_MGEN) ∧
    u.flag (B.LKP m) R.LKP_HMB_STATUS_READY = false ∧ (u.link m).outstanding = [] ∧ (u.link m).vfEnable = false ∧
    (∀ g, g < max 1 (s.allot m) → (u.fn m g).ready = false ∧ (u.fn m g).held = []) ∧
    (∀ g p, s.plotOf m g = some p → p < 512 → u.plotGen p = nextXgen (s.plotGen p)) ∧
    u.cnt (B.HPTC m + C.HPT_LINK_DOWN) = (s.cnt (B.HPTC m + C.HPT_LINK_DOWN) + 1) % 2 ^ 64

/-- With it, what stays of the link and of the registers. -/
structure LosesLink (m : Link) (sticky : Bool) (s u : State) : Prop where
  lost : LinkLost m s u
  aer : (u.link m).aer = if sticky then (s.link m).aer else 0
  low : ∀ a, a < B.HPT 0 → u.reg a = s.reg a

theorem State.endAllPlotJobs_of_none (l : List Nat) {s : State} (h : s.jobs = []) : l.foldl State.endPlotJobs s = s := by
  induction l with
  | nil => rfl
  | cons p l ih => rw [List.foldl_cons, State.endPlotJobs_of_none h, ih]

theorem hpt_le (m : Nat) : B.HPT 0 ≤ B.HPT m := by
  unfold B.HPT
  omega

theorem State.loseLink_holds (s : State) (m : Link) (sticky : Bool) (hz : s.flag B.PMC R.PMC_CTRL_FREEZE = false) (hj : s.jobs = []) :
    LosesLink m sticky s (s.loseLink m sticky) := by
  unfold State.loseLink
  dsimp only
  rw [State.count_of_running hz (hptc_ge m _)]
  have hcnt : (s.setCnt (B.HPTC m + C.HPT_LINK_DOWN) ((s.cnt (B.HPTC m + C.HPT_LINK_DOWN) + 1) % 2 ^ 64)).cnt
      (B.HPTC m + C.HPT_LINK_DOWN) = (s.cnt (B.HPTC m + C.HPT_LINK_DOWN) + 1) % 2 ^ 64 := (State.cnt_setCnt _ _ _ _).trans (if_pos rfl)
  have hrest : ∃ c, s.setCnt (B.HPTC m + C.HPT_LINK_DOWN) ((s.cnt (B.HPTC m + C.HPT_LINK_DOWN) + 1) % 2 ^ 64) =
      { s with cnts := c } := ⟨_, rfl⟩
  generalize s.setCnt (B.HPTC m + C.HPT_LINK_DOWN) ((s.cnt (B.HPTC m + C.HPT_LINK_DOWN) + 1) % 2 ^ 64) = v at hcnt hrest ⊢
  have hreg (a : Nat) : v.reg a = s.reg a := by obtain ⟨c, e⟩ := hrest; rw [e]; rfl
  have hsame : v.links = s.links ∧ v.image = s.image ∧ v.jobs = s.jobs := by
    obtain ⟨c, e⟩ := hrest
    rw [e]
    exact ⟨rfl, rfl, rfl⟩
  obtain ⟨hvl, hvi, hvj⟩ := hsame
  have h1 := v.mailboxReset_holds m
  generalize v.mailboxReset m = t at h1 ⊢
  have h2 := t.resetLink_holds m sticky
  generalize t.resetLink m sticky = u at h2 ⊢
  have hti : t.image = s.image := (by rw [h1.rest] : t.image = v.image).trans hvi
  have htj : t.jobs = [] := (by rw [h1.rest] : t.jobs = v.jobs).trans (hvj.trans hj)
  have htl : t.link m = s.link m := State.link_congr ((by rw [h1.rest] : t.links = v.links).trans hvl) m
  have htc : t.cnt (B.HPTC m + C.HPT_LINK_DOWN) = v.cnt (B.HPTC m + C.HPT_LINK_DOWN) := by rw [h1.rest]; rfl
  rw [State.endAllPlotJobs_of_none _ (h2.jobs.trans htj)]
  have hout {a : Nat} (ha : a < B.LKP m) (hh : a < B.HPT m ∨ B.HPT m + 0x1000 ≤ a) : u.reg a = s.reg a := by
    refine (h2.low a ?_ hh).trans ((h1.reg a (.inl ha)).trans (hreg a))
    simp only [B.LKP, B.PLOT] at ha ⊢; omega
  have hlkp : u.reg (B.LKP m + 8) = t.reg (B.LKP m + 8) := h2.low _ (lkp_lt m) (.inr (by simp only [B.HPT, B.LKP]; omega))
  have hgen := h2.gen
  have hfn := h2.fn
  rw [State.plotOf_congr hti] at hgen
  rw [State.allot_congr hti] at hfn
  refine ⟨⟨?_, fun y _ hm => ?_, ?_, (State.flag_congr hlkp).trans h1.ready, h2.outstanding, h2.vfEnable, hfn, fun g p hp hlt => ?_, ?_⟩,
    by rw [h2.aer, htl], fun a ha => hout ?_ (.inl ?_)⟩
  · unfold State.linkUp
    rw [h2.down]
    rfl
  · have hd := domHP_lt y.isLt
    have hne : y.val ≠ m.val := fun h => hm (Fin.ext h)
    refine State.linkUp_congr (hout ?_ ?_) (hout ?_ (.inl ?_))
    all_goals simp only [B.HPT, B.LKP, B.FLT] at hd ⊢; omega
  · exact (State.rd_congr hlkp).trans (h1.mgen.trans (congrArg nextGen (State.rd_congr (hreg _))))
  · refine (hgen g p hp hlt).trans (congrArg nextXgen (State.rd_congr ((h1.reg _ (.inr ?_)).trans (hreg _))))
    simp only [B.LKP, B.PLOT, R.PLOT_XGEN_XGEN]; omega
  · rw [h2.cnt, htc, hcnt]
  · simp only [B.HPT, B.LKP] at ha ⊢; omega
  · exact Nat.lt_of_lt_of_le ha (hpt_le m)

theorem hotReset_holds (m : Link) (how : LinkLoss) (s : State) (h : s.linkUp m = false) : exec (.hotReset m how) s = .next s := by
  rw [exec_hotReset, execHotReset, if_pos (by simp [h])]

theorem hotReset_loses (m : Link) (how : LinkLoss) (s : State) (hz : s.flag B.PMC R.PMC_CTRL_FREEZE = false) (hj : s.jobs = [])
    (h : s.linkUp m = true) (hh : how ≠ .surprise) :
    Gives (.hotReset m how) s fun u => LinkLost m s u ∧ (u.link m).aer = (s.link m).aer := by
  have k := s.loseLink_holds m true hz hj
  exact ⟨_, by rw [exec_hotReset, execHotReset, if_neg (by simp [h]), if_neg hh], k.lost, k.aer⟩

/-- What a mild fault of a link leaves of what its loss is measured by. -/
theorem LinkLost.of_traces {m : Link} {s t u : State} (hl : LinkTraces s t) (hf : FaultTraces s t) (h : LinkLost m t u) :
    LinkLost m s u := by
  obtain ⟨h1, h2, h3, h4, h5, h6, h7, h8, h9⟩ := h
  have hlkp : t.reg (B.LKP m + 8) = s.reg (B.LKP m + 8) := by
    refine hl.reg _ ?_ ?_ <;> simp only [B.HPT, B.LKP, B.KCUM] <;> omega
  rw [State.allot_congr hf.image] at h7
  rw [State.plotOf_congr hf.image] at h8
  refine ⟨h1, fun y hy hm => (h2 y hy hm).trans ?_, h3.trans (congrArg nextGen (State.rd_congr hlkp)), h4, h5, h6, h7, fun g p hp hlt =>
    (h8 g p hp hlt).trans (congrArg nextXgen (State.rd_congr ?_)), h9.trans ?_⟩
  · unfold State.linkUp State.flag
    rw [hl.field y R.HPT_LINK_LINK_UP y.isLt rfl (.inr (by decide)), State.domOn_congr (hf.regs _ (.inl (domHP_lt y.isLt)))]
  · refine hl.reg _ ?_ ?_ <;> simp only [B.HPT, B.PLOT, B.KCUM, R.PLOT_XGEN_XGEN] <;> omega
  · rw [hl.cnt _ (by simp only [B.HPT, B.HPTC]; omega)]

/-- What the loss is measured by: registers, image and counters. -/
theorem LinkLost.congr {m : Link} {s t u : State} (h : LinkLost m t u) (hr : ∀ a, t.reg a = s.reg a) (hi : t.image = s.image)
    (hc : t.cnts = s.cnts) : LinkLost m s u := by
  obtain ⟨h1, h2, h3, h4, h5, h6, h7, h8, h9⟩ := h
  rw [State.allot_congr hi] at h7
  rw [State.plotOf_congr hi] at h8
  unfold State.cnt at h9
  rw [hc] at h9
  exact ⟨h1, fun y hy hm => (h2 y hy hm).trans (State.linkUp_congr (hr _) (hr _)), h3.trans (congrArg nextGen (State.rd_congr (hr _))),
    h4, h5, h6, h7, fun g p hp hlt => (h8 g p hp hlt).trans (congrArg nextXgen (State.rd_congr (hr _))), h9⟩

theorem hotReset_surprises (m : Link) (s : State) (hz : s.flag B.PMC R.PMC_CTRL_FREEZE = false) (hj : s.jobs = [])
    (h : s.linkUp m = true) (hm : s.mild (272 + 4 * m + 1)) : Gives (.hotReset m .surprise) s fun u => LinkLost m s u ∧
      u.sticky (272 + 4 * m + 1) = true ∧ bitOf (u.link m).aer 21 = true := by
  have hn : 272 + 4 * m.val + 1 < 352 := by omega
  refine ⟨_, by rw [exec_hotReset, execHotReset, if_neg (by simp [h]), if_pos rfl], ?_⟩
  have hlog : s.aerLog m true aerSurprise =
    (s.setLink m { s.link m with aer := setBits (s.link m).aer 21 21 1 }).raise (272 + 4 * m + 1) 21 0 := rfl
  rw [hlog]
  have hlink := s.link_setLink_same m { s.link m with aer := setBits (s.link m).aer 21 21 1 }
  have hset := s.setLink_regs m { s.link m with aer := setBits (s.link m).aer 21 21 1 }
  have hrest : ∃ l, s.setLink m { s.link m with aer := setBits (s.link m).aer 21 21 1 } = { s with links := l } := ⟨_, rfl⟩
  generalize s.setLink m { s.link m with aer := setBits (s.link m).aer 21 21 1 } = v at hlink hrest hset ⊢
  have hreg (a : Nat) : v.reg a = s.reg a := State.reg_congr hset a
  have hv : v.flt = s.flt ∧ v.jobs = s.jobs ∧ v.image = s.image ∧ v.cnts = s.cnts := by
    obtain ⟨l, e⟩ := hrest
    rw [e]
    exact ⟨rfl, rfl, rfl, rfl⟩
  obtain ⟨hflt, hjobs, himage, hcnts⟩ := hv
  have hmild : v.mild (272 + 4 * m + 1) := State.mild_of_low (fun a _ => hreg a) hflt hn hm
  obtain ⟨hf, hsticky⟩ := v.raise_of_mild 21 0 hn hmild
  have hl := v.raise_links 21 0 hn hmild
  generalize v.raise (272 + 4 * m.val + 1) 21 0 = t at hf hsticky hl ⊢
  have hz' : t.flag B.PMC R.PMC_CTRL_FREEZE = false :=
    (State.flag_congr ((hf.regs _ (.inr (by decide))).trans (hreg _))).trans hz
  have hj' : t.jobs = [] := (by rw [hf.rest] : t.jobs = v.jobs).trans (hjobs.trans hj)
  have k := t.loseLink_holds m true hz' hj'
  generalize t.loseLink m true = u at k ⊢
  refine ⟨(k.lost.of_traces hl hf).congr hreg himage hcnts, (State.sticky_congr (k.low _ ?_)).trans hsticky, ?_⟩
  · have := stickyReg_lt hn
    simp only [B.FLT, B.HPT] at this ⊢; omega
  · obtain ⟨n, e⟩ := hl.link m
    rw [k.aer, if_pos rfl, e, hlink]
    exact (bitOf_setBits_bit (s.link m).aer 21 21 true).trans (if_pos rfl)

theorem perstAssert_holds (m : Link) (s : State) (h : s.linkExists m = false ∨ (s.link m).perst = true) :
    exec (.perstAssert m) s = .next s := by
  rw [exec_perstAssert, execPerstAssert, if_pos (by rcases h with h | h <;> simp [h])]

theorem perstAssert_loses (m : Link) (s : State) (hz : s.flag B.PMC R.PMC_CTRL_FREEZE = false) (hj : s.jobs = [])
    (he : s.linkExists m = true) (hp : (s.link m).perst = false) : Gives (.perstAssert m) s fun u => LinkLost m s u ∧
      (u.link m).perst = true ∧ (u.link m).released = none ∧ (u.link m).aer = 0 := by
  refine ⟨_, by rw [exec_perstAssert, execPerstAssert, if_neg (by simp [he, hp])], ?_⟩
  dsimp only
  have k := s.loseLink_holds m false hz hj
  generalize s.loseLink m false = u at k ⊢
  have hlink := u.link_setLink_same m { u.link m with perst := true, released := none }
  have hrest : ∃ l, u.setLink m { u.link m with perst := true, released := none } = { u with links := l } := ⟨_, rfl⟩
  generalize u.setLink m { u.link m with perst := true, released := none } = v at hlink hrest ⊢
  rw [hlink]
  refine ⟨?_, rfl, rfl, k.aer⟩
  obtain ⟨h1, h2, h3, h4, h5, h6, h7, h8, h9⟩ := k.lost
  unfold LinkLost
  rw [hlink]
  obtain ⟨l, e⟩ := hrest
  rw [e]
  exact ⟨h1, h2, h3, h4, h5, h6, h7, h8, h9⟩

end Sys2Proof.Machine

namespace Sys2Proof.Machine
/-- Settles O28: a link trains and is lost, and its functions become ready and are reset. -/
theorem hostLinks : Obligations.HostLinks := by
  unfold Obligations.HostLinks
  refine ⟨fun m s => ⟨perstRelease_holds m s, fun he hp => ⟨fun ht => ?_, perstRelease_early m s he hp⟩⟩, fun m rate w flit s => ?_,
    fun m f s => ⟨functionReady_holds m f s, functionReady_shows m f s⟩, fun m f s => ?_, fun m s hz hj => ?_⟩
  · rw [exec_perstRelease_of_held m s he hp, if_pos ht]
  · exact ⟨hostLinkUp_holds m rate w flit s, hostLinkUp_full m rate w flit s, hostLinkUp_poor m rate w flit s,
      hostLinkRateChange_holds m rate w s, hostLinkRateChange_full m rate w s, hostLinkRateChange_poor m rate w s⟩
  · exact ⟨flrInitiate_holds m f s, flrInitiate_silences m f s, flrDone_holds m f s, d3hotToD0_holds m f s,
      fun hz hj => ⟨flrDone_resets m f s hz hj, d3hotToD0_resets m f s hj⟩⟩
  · exact ⟨fun how => hotReset_holds m how s, fun how => hotReset_loses m how s hz hj, hotReset_surprises m s hz hj,
      perstAssert_holds m s, perstAssert_loses m s hz hj⟩

end Sys2Proof.Machine

namespace Sys2Proof.Machine

/-! ## Counters and pauses of the Ethernet ports (R113, R117, R118) -/

theorem exec_frameReceive (p : Port) (l : List Byte) (e o : Bool) (s : State) :
    exec (.frameReceive p l e o) s = execFrameReceive p l e o s := rfl
theorem exec_pauseExpiry (p : Port) (c : Fin 8) (s : State) : exec (.pauseExpiry p c) s = execPauseExpiry p c s := rfl
theorem exec_pfcRepeat (p : Port) (s : State) : exec (.pfcRepeat p) s = execPfcRepeat p s := rfl

/-- A counter above the pipelines' is no performance event. -/
theorem State.count_high (s : State) {a : Nat} (h : 0x50_0000 ≤ a) : s.count a = s.countN a 1 := by
  have he : eventOf a = none := by
    unfold eventOf
    rw [if_neg (by omega), if_neg (by omega)]
  unfold State.count
  rw [he]

theorem State.countN_of_running {s : State} (hf : s.flag B.PMC R.PMC_CTRL_FREEZE = false) (a n : Nat) :
    s.countN a n = s.setCnt a ((s.cnt a + n) % 2 ^ 64) := if_neg (by rw [hf]; decide)

theorem portCnt_high (p c : Nat) : 0x50_0000 ≤ portCnt p c := by simp only [portCnt, B.ETH]; omega

theorem portCnt_mod (p c : Nat) : portCnt p c % 0x100 = c % 0x100 := by simp only [portCnt, B.ETH]; omega

/-- Counters of ports that stand at different places of their block, whatever the ports. -/
theorem portCnt_ne {p q c d : Nat} (h : c % 0x100 ≠ d % 0x100) : portCnt p c ≠ portCnt q d := fun e =>
  h (by rw [← portCnt_mod p c, e, portCnt_mod])

/-! ### What FEC counts beside a frame (R115) -/

/-- In u FEC has counted a frame that came in on port p: free values. -/
structure FecCounted (s u : State) (p : Nat) (err : Bool) : Prop where
  rest : ∃ c f, u = { s with cnts := c, freeCtr := f }
  others : ∀ a, a ≠ portCnt p C.ETH_FEC_CORR_CW → (err = true → a ≠ portCnt p C.ETH_FEC_UNCORR_CW) → u.cnt a = s.cnt a

theorem State.fecCount_holds (s : State) (p len : Nat) (err : Bool) : FecCounted s (s.fecCount p len err) p err := by
  unfold State.fecCount State.draw
  dsimp only
  split
  · exact ⟨⟨_, _, rfl⟩, fun _ _ _ => rfl⟩
  · generalize hn : Config.free s.freeCtr % (s.codewords p len + 1) = n
    obtain ⟨c, ec⟩ := State.countN_eq { s with freeCtr := s.freeCtr + 1 } (portCnt p C.ETH_FEC_CORR_CW) n
    have hc (a : Nat) (ha : a ≠ portCnt p C.ETH_FEC_CORR_CW) :=
      State.cnt_countN_ne { s with freeCtr := s.freeCtr + 1 } n ha
    rw [ec] at hc ⊢
    split
    · exact ⟨⟨_, _, rfl⟩, fun a ha _ => hc a ha⟩
    · rename_i herr
      generalize hm : Config.free _ % (s.codewords p len + 1) = m
      generalize hv : ({ s with cnts := c, freeCtr := s.freeCtr + 1 + 1 } : State) = v
      obtain ⟨d, ed⟩ := v.countN_eq (portCnt p C.ETH_FEC_UNCORR_CW) m
      have hd (a : Nat) (ha : a ≠ portCnt p C.ETH_FEC_UNCORR_CW) := v.cnt_countN_ne m ha
      subst hv
      refine ⟨⟨d, _, ed⟩, fun a ha hu => (hd a (hu ?_)).trans (hc a ha)⟩
      simpa using herr

end Sys2Proof.Machine

namespace Sys2Proof.Machine

/-! ### Frames that fail a check (R113, Table 5.3) -/

/-- A counter of dropped frames stands beside those of FEC. -/
abbrev DropCounter (c : Nat) : Prop := c % 0x100 ≠ C.ETH_FEC_CORR_CW % 0x100 ∧ c % 0x100 ≠ C.ETH_FEC_UNCORR_CW % 0x100

/-- A frame that FEC has counted, and one counter beside. -/
theorem FecCounted.count {s u : State} {p : Nat} {err : Bool} (h : FecCounted s u p err) (hz : s.flag B.PMC R.PMC_CTRL_FREEZE = false)
    {c : Nat} (hc : DropCounter c) : FrameCounted s (u.count (portCnt p c)) p err c := by
  obtain ⟨⟨x, f, rfl⟩, ho⟩ := h
  have hu : ({ s with cnts := x, freeCtr := f } : State).flag B.PMC R.PMC_CTRL_FREEZE = false := hz
  rw [State.count_high _ (portCnt_high p c), State.countN_of_running hu, ho _ (portCnt_ne hc.1) fun _ => portCnt_ne hc.2]
  refine ⟨rfl, ?_, fun a ha h1 h2 => ?_⟩
  · exact (State.cnt_setCnt _ _ _ _).trans (if_pos rfl)
  · exact ((State.cnt_setCnt _ _ _ _).trans (if_neg ha)).trans (ho a h1 h2)

/-- What a port does with a sound frame (orders 6 to 9). -/
def rxSound (s : State) (p : Port) (l : List Byte) (o : Bool) : Res :=
  if u16At l 12 = 0x8808 then
    match s.macControl p l with
    | some s => .next (s.count (portCnt p C.ETH_RX_PAUSE))
    | none => .next (s.count (portCnt p C.ETH_RX_CTRL_DROP))
  else .next (s.rxBody p l.length (bodyOf l) o)

theorem rxSound_of_none {s : State} {p : Port} {l : List Byte} (o : Bool) (ht : u16At l 12 = 0x8808) (h : s.macControl p l = none) :
    rxSound s p l o = .next (s.count (portCnt p C.ETH_RX_CTRL_DROP)) := by
  rw [rxSound, if_pos ht, h]

theorem rxSound_of_some {s t : State} {p : Port} {l : List Byte} (o : Bool) (ht : u16At l 12 = 0x8808) (h : s.macControl p l = some t) :
    rxSound s p l o = .next (t.count (portCnt p C.ETH_RX_PAUSE)) := by
  rw [rxSound, if_pos ht, h]

/-- The length and the FCS of a frame are good. -/
def frameSound (s : State) (p : Nat) (l : List Byte) : Prop :=
  64 ≤ l.length ∧ l.length ≤ s.rd (portBase p) R.ETH_PORT_CFG_MAX_FRAME ∧ fcsGood l = true

/-- A frame that is dropped counts in one counter beside FEC's. -/
theorem frameReceive_counts {p : Port} {l : List Byte} {e o : Bool} {s : State} (hz : s.flag B.PMC R.PMC_CTRL_FREEZE = false)
    {c : Nat} (hc : DropCounter c)
    (h : exec (.frameReceive p l e o) s = .next ((s.fecCount p l.length e).count (portCnt p c))) :
    Gives (.frameReceive p l e o) s (FrameCounted s · p e c) := ⟨_, h, (s.fecCount_holds p l.length e).count hz hc⟩

section
variable {p : Port} {l : List Byte} {e o : Bool} {s : State} (hup : s.portUp p = true)
  (hz : s.flag B.PMC R.PMC_CTRL_FREEZE = false)
include hup

/-- What a port that is up does with a frame that FEC has counted. -/
theorem exec_frameReceive_of_up : exec (.frameReceive p l e o) s =
    if e then .next ((s.fecCount p l.length e).count (portCnt p C.ETH_RX_PCS_ERR))
    else if l.length < 64 then .next ((s.fecCount p l.length e).count (portCnt p C.ETH_RX_RUNT))
    else if s.rd (portBase p) R.ETH_PORT_CFG_MAX_FRAME < l.length then
      .next ((s.fecCount p l.length e).count (portCnt p C.ETH_RX_OVERSIZE))
    else if !fcsGood l then .next ((s.fecCount p l.length e).count (portCnt p C.ETH_RX_FCS_ERR))
    else rxSound (s.fecCount p l.length e) p l o := by
  obtain ⟨⟨x, f, h⟩, -⟩ := s.fecCount_holds p l.length e
  have hrd : (s.fecCount p l.length e).rd (portBase p) R.ETH_PORT_CFG_MAX_FRAME = s.rd (portBase p) R.ETH_PORT_CFG_MAX_FRAME := by
    rw [h]; rfl
  rw [← hrd]
  exact (exec_frameReceive p l e o s).trans (if_neg (by simp [hup]))

theorem exec_frameReceive_of_sound (h : frameSound s p l) : exec (.frameReceive p l false o) s =
    rxSound (s.fecCount p l.length false) p l o := by
  obtain ⟨hlo, hhi, hfcs⟩ := h
  rw [exec_frameReceive_of_up hup, if_neg Bool.false_ne_true, if_neg (by omega), if_neg (by omega), if_neg (by simp [hfcs])]

theorem exec_frameReceive_of_data (h : frameSound s p l) (ht : u16At l 12 ≠ 0x8808) : exec (.frameReceive p l false o) s =
    .next ((s.fecCount p l.length false).rxBody p l.length (bodyOf l) o) := by
  rw [exec_frameReceive_of_sound hup h, rxSound, if_neg ht]

include hz

theorem frameReceive_pcsError (he : e = true) : Gives (.frameReceive p l e o) s (FrameCounted s · p e C.ETH_RX_PCS_ERR) :=
  frameReceive_counts hz (by decide) (by rw [exec_frameReceive_of_up hup, if_pos he])

theorem frameReceive_runt (he : e = false) (hl : l.length < 64) :
    Gives (.frameReceive p l e o) s (FrameCounted s · p e C.ETH_RX_RUNT) :=
  frameReceive_counts hz (by decide) (by rw [exec_frameReceive_of_up hup, if_neg (by simp [he]), if_pos hl])

theorem frameReceive_oversize (he : e = false) (hl : 64 ≤ l.length) (hm : s.rd (portBase p) R.ETH_PORT_CFG_MAX_FRAME < l.length) :
    Gives (.frameReceive p l e o) s (FrameCounted s · p e C.ETH_RX_OVERSIZE) :=
  frameReceive_counts hz (by decide) (by rw [exec_frameReceive_of_up hup, if_neg (by simp [he]), if_neg (by omega), if_pos hm])

theorem frameReceive_badFcs (he : e = false) (hl : 64 ≤ l.length) (hm : l.length ≤ s.rd (portBase p) R.ETH_PORT_CFG_MAX_FRAME)
    (hf : fcsGood l = false) : Gives (.frameReceive p l e o) s (FrameCounted s · p e C.ETH_RX_FCS_ERR) :=
  frameReceive_counts hz (by decide)
    (by rw [exec_frameReceive_of_up hup, if_neg (by simp [he]), if_neg (by omega), if_neg (by omega), if_pos (by simp [hf])])

/-- A control frame that the port's flow control does not act on (order 6). -/
theorem frameReceive_control (h : frameSound s p l) (ht : u16At l 12 = 0x8808)
    (h1 : ¬ (u16At l 14 = 0x0001 ∧ s.rd (portBase p) R.ETH_PORT_CFG_FC = 1))
    (h2 : ¬ (u16At l 14 = 0x0101 ∧ s.rd (portBase p) R.ETH_PORT_CFG_FC = 2)) :
    Gives (.frameReceive p l false o) s (FrameCounted s · p false C.ETH_RX_CTRL_DROP) := by
  have hnone : (s.fecCount p l.length false).macControl p l = none := by
    obtain ⟨⟨x, f, hx⟩, -⟩ := s.fecCount_holds p l.length false
    have hfc : (s.fecCount p l.length false).fcMode p = s.rd (portBase p) R.ETH_PORT_CFG_FC := by rw [hx]; rfl
    unfold State.macControl
    dsimp only
    rw [hfc, if_neg (by simpa using h1), if_neg (by simpa using h2)]
  exact frameReceive_counts hz (by decide) (by rw [exec_frameReceive_of_sound hup h, rxSound_of_none o ht hnone])

/-- A frame without MACsec's tag on a port of MACsec (order 7). -/
theorem frameReceive_clear (h : frameSound s p l) (ht : u16At l 12 ≠ 0x8808)
    (hm : s.flag (portBase p) R.ETH_PORT_CFG_MACSEC = true) (hn : u16At (bodyOf l) 12 ≠ 0x88E5)
    (hp : u16At (bodyOf l) 12 ≠ 0x88F7 ∨ s.flag (portBase p) R.ETH_PORT_CFG_PTP_CLEAR = false) :
    Gives (.frameReceive p l false o) s (FrameCounted s · p false C.ETH_RX_MACSEC_DROP) := by
  have hdrop : (s.fecCount p l.length false).rxBody p l.length (bodyOf l) o =
      (s.fecCount p l.length false).count (portCnt p C.ETH_RX_MACSEC_DROP) := by
    obtain ⟨⟨x, f, hx⟩, -⟩ := s.fecCount_holds p l.length false
    rw [hx]
    have hrx : ({ s with cnts := x, freeCtr := f } : State).macsecRx p (bodyOf l) = .error none := by
      unfold State.macsecRx
      dsimp only
      rw [if_pos hn, if_neg]
      rw [Bool.and_eq_true, decide_eq_true_eq]
      rintro ⟨h7, hclear⟩
      rcases hp with hp | hp
      · exact hp h7
      · exact absurd (hp.symm.trans hclear) Bool.false_ne_true
    unfold State.rxBody
    dsimp only
    rw [hrx]
    exact if_pos hm
  exact frameReceive_counts hz (by decide) (by rw [exec_frameReceive_of_data hup h ht, hdrop])

/-- In Trickle a frame beyond the limit is dropped where its class cannot be paused (order 8). -/
theorem frameReceive_beyondLimit (h : frameSound s p l) (ht : u16At l 12 ≠ 0x8808)
    (hm : s.flag (portBase p) R.ETH_PORT_CFG_MACSEC = false) (hmode : s.mode = .trickle) (ho : o = true)
    (hp : bitOf (s.pfcMask p) (frameClass (bodyOf l)) = false) :
    Gives (.frameReceive p l false o) s (FrameCounted s · p false C.ETH_RX_LIMIT_DROP) := by
  have hdrop : (s.fecCount p l.length false).rxBody p l.length (bodyOf l) o =
      (s.fecCount p l.length false).count (portCnt p C.ETH_RX_LIMIT_DROP) := by
    obtain ⟨⟨x, f, hx⟩, -⟩ := s.fecCount_holds p l.length false
    rw [hx]
    refine (if_neg ?_).trans ((if_neg ?_).trans (if_neg ?_))
    · rw [Bool.not_eq_true]; exact hm
    · rw [Bool.not_eq_true, Bool.or_eq_false_iff, decide_eq_false_iff_not, not_not, ho]; exact ⟨hmode, rfl⟩
    · rw [Bool.not_eq_true]; exact hp
  exact frameReceive_counts hz (by decide) (by rw [exec_frameReceive_of_data hup h ht, hdrop])
end

end Sys2Proof.Machine

namespace Sys2Proof.Machine

/-! ### Pauses that a port receives (R117) -/

theorem eth_le (g : Nat) : B.ETH 0 ≤ B.ETH g := by simp only [B.ETH]; omega

/-- An address outside the quadrants' blocks, below them or from the ports' on. -/
def offQuads (a : Nat) : Prop := a < B.QUAD 0 ∨ B.ETH 0 ≤ a

theorem tlrSlot_in {t k : Nat} (ht : t < 16) (hk : k < 8) : ¬ offQuads (B.TLR t + 0x100 * k + R.TLR_SLOT_STATUS_PAUSED.off) := by
  simp only [offQuads, B.TLR, B.QUAD, B.ETH, R.TLR_SLOT_STATUS_PAUSED]; omega

/-- In t pauses of a port have begun or ended since s: their ends, and what the slots of tailraces show. -/
structure Paused (s t : State) : Prop where
  rest : t = { s with regs := t.regs, eth := { s.eth with pauseEnd := t.eth.pauseEnd } }
  reg : ∀ a, offQuads a → t.reg a = s.reg a

theorem Paused.refl (s : State) : Paused s s := ⟨rfl, fun _ _ => rfl⟩

theorem Paused.trans {s t u : State} (h : Paused s t) (k : Paused t u) : Paused s u :=
  ⟨k.rest.trans (by rw [h.rest]), fun a ha => (k.reg a ha).trans (h.reg a ha)⟩

theorem Paused.rd {s t : State} (h : Paused s t) (b : Nat) (f : RegField) (hb : B.ETH 0 ≤ b) : t.rd b f = s.rd b f :=
  State.rd_congr (h.reg _ (.inr (Nat.le_add_right_of_le hb)))

theorem Paused.frozen {s t : State} (h : Paused s t) : t.flag B.PMC R.PMC_CTRL_FREEZE = s.flag B.PMC R.PMC_CTRL_FREEZE :=
  State.flag_congr (h.reg _ (.inl (by decide)))

theorem Paused.wr (s : State) {b : Nat} {f : RegField} (v : Nat) (h : ¬ offQuads (b + f.off)) : Paused s (s.wr b f v) where
  rest := by
    obtain ⟨r, e⟩ := s.wr_eq b f v
    rw [e]
  reg a ha := State.reg_wr _ _ _ _ _ fun e => h (e ▸ ha)

theorem Paused.pauseTime {s t : State} (h : Paused s t) (p q : Nat) : t.pauseTime p q = s.pauseTime p q := by
  have hw : t.portRate p = s.portRate p := by
    unfold State.portRate State.portWidth State.laneRate State.flag
    simp only [h.rd _ _ (eth_le _)]
  unfold State.pauseTime
  rw [hw]

theorem portSlots_lt {s : State} {p : Nat} {x : Nat × Nat} (h : x ∈ s.portSlots p) : x.1 < 16 ∧ x.2 < 8 := by
  obtain ⟨t, ht, hx⟩ := List.mem_flatMap.mp h
  obtain ⟨k, hk, rfl⟩ := List.mem_map.mp hx
  exact ⟨List.mem_range.mp ht, List.mem_range.mp (List.mem_of_mem_filter hk)⟩

theorem State.showPaused_holds (s : State) (p c : Nat) (b : Bool) :
    Paused s (s.showPaused p c b) ∧ (s.showPaused p c b).eth = s.eth := by
  unfold State.showPaused
  refine List.foldlRecOn (motive := fun t => Paused s t ∧ t.eth = s.eth) _ _ ⟨.refl s, rfl⟩ fun t ht x hx => ?_
  obtain ⟨h1, h2⟩ := portSlots_lt hx
  exact ⟨ht.1.trans (.wr t _ (tlrSlot_in h1 h2)), (State.wr_eth _ _ _ _).trans ht.2⟩

/-- End of a pause of so many quanta that begins now. -/
def State.pauseUntil (s : State) (p q : Nat) : Nat := if q = 0 then 0 else s.now + s.pauseTime p q

theorem Paused.pauseUntil {s t : State} (h : Paused s t) (p q : Nat) : t.pauseUntil p q = s.pauseUntil p q := by
  have hn : t.now = s.now := by rw [h.rest]
  unfold State.pauseUntil
  rw [hn, h.pauseTime]

/-- The pause of a class ends at v, as its slots show. -/
def State.setPause (s : State) (p c v : Nat) : State :=
  State.showPaused { s with eth := { s.eth with pauseEnd := tput (fun _ => 0) s.eth.pauseEnd (8 * p + c) v } } p c (decide (v ≠ 0))


theorem State.setPause_holds (s : State) (p c v : Nat) : Paused s (s.setPause p c v) ∧
    ∀ k, tget (fun _ => 0) (s.setPause p c v).eth.pauseEnd k =
      if k = 8 * p + c then v else tget (fun _ => 0) s.eth.pauseEnd k := by
  have h : Paused s { s with eth := { s.eth with pauseEnd := tput (fun _ => 0) s.eth.pauseEnd (8 * p + c) v } } :=
    ⟨rfl, fun _ _ => rfl⟩
  obtain ⟨h1, h2⟩ := State.showPaused_holds
    { s with eth := { s.eth with pauseEnd := tput (fun _ => 0) s.eth.pauseEnd (8 * p + c) v } } p c (decide (v ≠ 0))
  refine ⟨h.trans h1, fun k => ?_⟩
  rw [State.setPause, h2]
  exact tget_tput _ _ _ _ _

/-- The pause of a class, where a frame names it with its quanta. -/
def State.pauseNamed (g : Nat → Option Nat) (s : State) (p c : Nat) : State :=
  match g c with
  | none => s
  | some q => s.pauseClass p c q

/-- Every class that a frame names takes its end, and no other. -/
theorem State.pauseAll_holds {g : Nat → Option Nat} {p : Nat} {f : State → Nat → State} (s : State)
    (hf : ∀ t c, Paused s t → f t c = t.pauseNamed g p c) (l : List Nat) : ∀ t, Paused s t → Paused s (l.foldl f t) ∧
      ∀ c, tget (fun _ => 0) (l.foldl f t).eth.pauseEnd (8 * p + c) =
        if c ∈ l then (g c).elim (tget (fun _ => 0) t.eth.pauseEnd (8 * p + c)) (s.pauseUntil p)
        else tget (fun _ => 0) t.eth.pauseEnd (8 * p + c) := by
  induction l with
  | nil => exact fun t h => ⟨h, fun c => by simp⟩
  | cons x xs ih =>
    intro t h
    rw [List.foldl_cons, hf t x h, State.pauseNamed]
    cases hx : g x with
    | none =>
      obtain ⟨h1, h2⟩ := ih t h
      refine ⟨h1, fun c => (h2 c).trans ?_⟩
      by_cases hc : c = x
      · subst hc; simp [hx]
      · simp [hc]
    | some q =>
      obtain ⟨k1, k2⟩ := t.setPause_holds p x (t.pauseUntil p q)
      obtain ⟨h1, h2⟩ := ih _ (h.trans k1)
      refine ⟨h1, fun c => (h2 c).trans ?_⟩
      rw [k2, h.pauseUntil]
      by_cases hc : c = x
      · subst hc; simp [hx]
      · simp [hc]

end Sys2Proof.Machine

namespace Sys2Proof.Machine

/-- The quanta of a class, where a PFC frame names it and the port takes it. -/
def pfcQuanta (s : State) (p : Nat) (l : List Byte) (c : Nat) : Option Nat :=
  if bitOf (u16At l 16) c && bitOf (s.rd (portBase p) R.ETH_PORT_CFG_PFC_EN) c then some (u16At l (18 + 2 * c)) else none

theorem portBase_ge (p : Nat) : B.ETH 0 ≤ portBase p := Nat.le_add_right_of_le (eth_le _)

theorem Paused.pfcMask {s t : State} (h : Paused s t) (p : Nat) : t.pfcMask p = s.pfcMask p := by
  unfold State.pfcMask State.fcMode
  rw [h.rd _ _ (portBase_ge p), h.rd _ _ (portBase_ge p)]

/-- What a MAC control frame of the enabled mode leaves: `g` gives the quanta of each class that it names. -/
structure ControlTaken (s u : State) (p : Nat) (g : Nat → Option Nat) : Prop where
  paused : Paused s u
  ends : ∀ c, c < 8 → tget (fun _ => 0) u.eth.pauseEnd (8 * p + c) =
    (g c).elim (tget (fun _ => 0) s.eth.pauseEnd (8 * p + c)) (s.pauseUntil p)

theorem ControlTaken.of_fold {g : Nat → Option Nat} {p : Nat} {f : State → Nat → State} (s : State)
    (hf : ∀ t c, Paused s t → f t c = t.pauseNamed g p c) : ControlTaken s ((List.range 8).foldl f s) p g := by
  obtain ⟨h1, h2⟩ := State.pauseAll_holds s hf (List.range 8) s (.refl s)
  exact ⟨h1, fun c hc => (h2 c).trans (if_pos (List.mem_range.mpr hc))⟩

theorem State.macControl_pause {s : State} {p : Nat} {l : List Byte} (ho : u16At l 14 = 0x0001) (hm : s.fcMode p = 1) :
    ∃ u, s.macControl p l = some u ∧ ControlTaken s u p fun _ => some (u16At l 16) :=
  ⟨_, if_pos (by simp [ho, hm]), .of_fold s fun _ _ _ => rfl⟩

theorem State.macControl_pfc {s : State} {p : Nat} {l : List Byte} (ho : u16At l 14 = 0x0101) (hm : s.fcMode p = 2) :
    ∃ u, s.macControl p l = some u ∧ ControlTaken s u p (pfcQuanta s p l) := by
  refine ⟨_, (if_neg (by simp [ho])).trans (if_pos (by simp [ho, hm])), .of_fold s fun t c h => ?_⟩
  have hp : t.pfcMask p = s.rd (portBase p) R.ETH_PORT_CFG_PFC_EN := (h.pfcMask p).trans (if_pos hm)
  rw [hp, State.pauseNamed, pfcQuanta]
  split <;> rfl

/-- In t a PAUSE or PFC frame that came in on port p has been taken: the ends of the classes that `g` names, and one count. -/
structure PauseReceived (s t : State) (p : Nat) (g : Nat → Option Nat) : Prop where
  rest : t = { s with regs := t.regs, cnts := t.cnts, freeCtr := t.freeCtr, eth := { s.eth with pauseEnd := t.eth.pauseEnd } }
  cnt : t.cnt (portCnt p C.ETH_RX_PAUSE) = (s.cnt (portCnt p C.ETH_RX_PAUSE) + 1) % 2 ^ 64
  ends : ∀ c, c < 8 → tget (fun _ => 0) t.eth.pauseEnd (8 * p + c) =
    (g c).elim (tget (fun _ => 0) s.eth.pauseEnd (8 * p + c)) (s.pauseUntil p)

theorem FecCounted.control {s u v : State} {p : Nat} {g : Nat → Option Nat} (h : FecCounted s u p false) (k : ControlTaken u v p g)
    (hz : s.flag B.PMC R.PMC_CTRL_FREEZE = false) :
    PauseReceived s (v.count (portCnt p C.ETH_RX_PAUSE)) p g := by
  obtain ⟨⟨x, f, rfl⟩, ho⟩ := h
  have hc : v.cnt (portCnt p C.ETH_RX_PAUSE) = s.cnt (portCnt p C.ETH_RX_PAUSE) := by
    rw [k.paused.rest]
    exact ho _ (portCnt_ne (by decide)) fun _ => portCnt_ne (by decide)
  have hv : v.flag B.PMC R.PMC_CTRL_FREEZE = false := k.paused.frozen.trans hz
  rw [State.count_high _ (portCnt_high p _), State.countN_of_running hv, hc]
  refine ⟨?_, (State.cnt_setCnt _ _ _ _).trans (if_pos rfl), k.ends⟩
  obtain ⟨y, hy⟩ : ∃ y, v.setCnt (portCnt p C.ETH_RX_PAUSE) ((s.cnt (portCnt p C.ETH_RX_PAUSE) + 1) % 2 ^ 64) =
      { v with cnts := y } := ⟨_, rfl⟩
  rw [hy, k.paused.rest]

section
variable {p : Port} {l : List Byte} {o : Bool} {s : State} (hup : s.portUp p = true)
  (hz : s.flag B.PMC R.PMC_CTRL_FREEZE = false) (h : frameSound s p l) (ht : u16At l 12 = 0x8808)
include hup hz h ht

theorem frameReceive_takes {g : Nat → Option Nat} (hg : ∀ u, FecCounted s u p false →
    ∃ v, u.macControl p l = some v ∧ ControlTaken u v p g) :
    Gives (.frameReceive p l false o) s (PauseReceived s · p g) := by
  have hc := s.fecCount_holds p l.length false
  obtain ⟨v, hv, k⟩ := hg _ hc
  refine ⟨v.count (portCnt p C.ETH_RX_PAUSE), ?_, hc.control k hz⟩
  rw [exec_frameReceive_of_sound hup h, rxSound_of_some o ht hv]

theorem frameReceive_pause (ho : u16At l 14 = 0x0001) (hm : s.rd (portBase p) R.ETH_PORT_CFG_FC = 1) :
    Gives (.frameReceive p l false o) s (PauseReceived s · p fun _ => some (u16At l 16)) := by
  refine frameReceive_takes hup hz h ht fun u hu => ?_
  obtain ⟨⟨x, f, rfl⟩, -⟩ := hu
  exact State.macControl_pause ho hm

theorem frameReceive_pfc (ho : u16At l 14 = 0x0101) (hm : s.rd (portBase p) R.ETH_PORT_CFG_FC = 2) :
    Gives (.frameReceive p l false o) s (PauseReceived s · p (pfcQuanta s p l)) := by
  refine frameReceive_takes hup hz h ht fun u hu => ?_
  obtain ⟨⟨x, f, rfl⟩, -⟩ := hu
  exact State.macControl_pfc ho hm
end

/-! ### A pause ends (R117), a pause condition lasts (R118) -/

theorem pauseExpiry_ends (p : Port) (c : Fin 8) (s : State) (h0 : tget (fun _ => 0) s.eth.pauseEnd (8 * p + c) ≠ 0)
    (hn : tget (fun _ => 0) s.eth.pauseEnd (8 * p + c) ≤ s.now) : Gives (.pauseExpiry p c) s fun t =>
      t = { s with regs := t.regs, eth := { s.eth with pauseEnd := t.eth.pauseEnd } } ∧
      ∀ k, tget (fun _ => 0) t.eth.pauseEnd k = if k = 8 * p + c then 0 else tget (fun _ => 0) s.eth.pauseEnd k := by
  obtain ⟨h1, h2⟩ := s.setPause_holds p c 0
  refine ⟨s.setPause p c 0, ?_, h1.rest, h2⟩
  rw [exec_pauseExpiry, execPauseExpiry]
  exact if_pos (by simp [h0, hn])

theorem pauseExpiry_early (p : Port) (c : Fin 8) (s : State) (h : s.now < tget (fun _ => 0) s.eth.pauseEnd (8 * p + c)) :
    exec (.pauseExpiry p c) s = .next s := by
  rw [exec_pauseExpiry, execPauseExpiry]
  exact if_neg (by simp only [Bool.and_eq_true, decide_eq_true_eq]; omega)

/-- In t pause frames have been sent since s. -/
structure PausesSent (s t : State) : Prop where
  rest : t = { s with out := t.out, cnts := t.cnts, timers := t.timers, eth := { s.eth with xoffSent := t.eth.xoffSent } }
  cnt : ∀ a, (∀ p, a ≠ portCnt p C.ETH_TX_PAUSE) → t.cnt a = s.cnt a

theorem PausesSent.refl (s : State) : PausesSent s s := ⟨rfl, fun _ _ => rfl⟩

theorem PausesSent.trans {s t u : State} (h : PausesSent s t) (k : PausesSent t u) : PausesSent s u :=
  ⟨k.rest.trans (by rw [h.rest]), fun a ha => (k.cnt a ha).trans (h.cnt a ha)⟩

theorem PausesSent.of_cnts {s t : State}
    (h : t = { s with out := t.out, timers := t.timers, eth := { s.eth with xoffSent := t.eth.xoffSent } }) : PausesSent s t :=
  ⟨h.trans (by rw [h]), fun a _ => by rw [h]; rfl⟩

theorem PausesSent.count (s : State) (p : Nat) : PausesSent s (s.count (portCnt p C.ETH_TX_PAUSE)) := by
  rw [State.count_high _ (portCnt_high p _)]
  refine ⟨?_, fun a ha => s.cnt_countN_ne 1 (ha p)⟩
  obtain ⟨c, e⟩ := s.countN_eq (portCnt p C.ETH_TX_PAUSE) 1
  rw [e]

theorem PausesSent.sendPause (s : State) (p m q : Nat) : PausesSent s (s.sendPause p m q) := by
  unfold State.sendPause
  refine PausesSent.trans ?_ (.count _ p)
  split <;> exact .of_cnts rfl

theorem PausesSent.updatePause (s : State) (p : Nat) : PausesSent s (s.updatePause p) := by
  unfold State.updatePause
  split
  · exact .refl s
  dsimp only
  split
  · exact .refl s
  · have h1 : PausesSent s { s with eth := { s.eth with xoffSent := tput (fun _ => 0) s.eth.xoffSent p (s.xoffWanted p) } } := .of_cnts rfl
    generalize ({ s with eth := _ } : State) = u at h1 ⊢
    have h2 : PausesSent s (if s.xoffWanted p - (s.xoffWanted p &&& tget (fun _ => 0) s.eth.xoffSent p) ≠ 0 then
        u.sendPause p (s.xoffWanted p - (s.xoffWanted p &&& tget (fun _ => 0) s.eth.xoffSent p)) 0xFFFF else u) := by
      split
      · exact h1.trans (.sendPause u _ _ _)
      · exact h1
    split
    · exact h2.trans (.sendPause _ _ _ _)
    · exact h2

theorem PausesSent.updatePauses (s : State) (h : Nat) : PausesSent s (s.updatePauses h) :=
  foldl_keeps PausesSent .refl (fun _ _ _ => .trans) _ .updatePause _ s

theorem State.sendPause_of_running {s : State} (hz : s.flag B.PMC R.PMC_CTRL_FREEZE = false) (p m : Nat) {q : Nat} (hq : q ≠ 0) :
    s.sendPause p m q = ((s.stamp (Tm.pause p)).emit (.pause p m q)).setCnt (portCnt p C.ETH_TX_PAUSE)
      ((s.cnt (portCnt p C.ETH_TX_PAUSE) + 1) % 2 ^ 64) := by
  have hu : ((s.stamp (Tm.pause p)).emit (.pause p m q)).flag B.PMC R.PMC_CTRL_FREEZE = false := hz
  unfold State.sendPause
  dsimp only
  rw [if_neg hq, State.count_high _ (portCnt_high p _), State.countN_of_running hu]
  rfl

theorem pfcRepeat_sends (p : Port) (s : State) (hx : tget (fun _ => 0) s.eth.xoffSent p ≠ 0) (hup : s.portUp p = true)
    (hz : s.flag B.PMC R.PMC_CTRL_FREEZE = false) (hd : s.due (Tm.pause p) (s.pauseTime p 0xFFFF / 2) = true) :
    Gives (.pfcRepeat p) s fun t =>
      t = { s with out := s.out ++ [Out.pause p (tget (fun _ => 0) s.eth.xoffSent p) 0xFFFF], cnts := t.cnts, timers := t.timers } ∧
      t.last (Tm.pause p) = some s.now ∧ t.cnt (portCnt p C.ETH_TX_PAUSE) = (s.cnt (portCnt p C.ETH_TX_PAUSE) + 1) % 2 ^ 64 ∧
      ∀ a, a ≠ portCnt p C.ETH_TX_PAUSE → t.cnt a = s.cnt a := by
  refine ⟨s.sendPause p (tget (fun _ => 0) s.eth.xoffSent p) 0xFFFF, ?_, ?_⟩
  · rw [exec_pfcRepeat, execPfcRepeat]
    exact congrArg _ (if_pos (by simp [hx, hup, hd]))
  rw [State.sendPause_of_running hz p _ (by decide)]
  exact ⟨rfl, s.last_stamp_same _, (State.cnt_setCnt _ _ _ _).trans (if_pos rfl), fun a ha => (State.cnt_setCnt _ _ _ _).trans (if_neg ha)⟩

theorem pfcRepeat_holds (p : Port) (s : State) (h : tget (fun _ => 0) s.eth.xoffSent p = 0 ∨ s.portUp p = false ∨
    s.due (Tm.pause p) (s.pauseTime p 0xFFFF / 2) = false) : exec (.pfcRepeat p) s = .next s := by
  rw [exec_pfcRepeat, execPfcRepeat]
  exact congrArg _ (if_neg (by rcases h with h | h | h <;> simp [h]))

end Sys2Proof.Machine

namespace Sys2Proof.Machine

/-! ### Frames that are staged (order 9, R43) -/

theorem State.stage_setStage (s : State) (h j : Nat) (x : Staging) : (s.setStage h x).stage j = if j = h then x else s.stage j :=
  tget_tput _ _ _ _ _

/-- In t packet k has been staged for headrace h, which has changed the pauses that its ports ask for. -/
structure PacketStaged (s t : State) (h : Nat) (k : Pkt) : Prop where
  rest : t = { s with cnts := t.cnts, staging := t.staging, out := t.out, arrivals := t.arrivals, timers := t.timers,
                      eth := { s.eth with xoffSent := t.eth.xoffSent } }
  cnt : ∀ a, (∀ p, a ≠ portCnt p C.ETH_TX_PAUSE) → t.cnt a = s.cnt a
  others : ∀ j, j ≠ h → t.stage j = s.stage j
  pkts : (t.stage h).pkts = (s.stage h).pkts ++ [k]
  cells : (t.stage h).cells = (s.stage h).cells + cellsOf k.data.length

theorem PacketStaged.pauses {s t u : State} {h : Nat} {k : Pkt} (a : PacketStaged s t h k) (b : PausesSent t u) :
    PacketStaged s u h k := by
  have hs : u.stage = t.stage := by
    unfold State.stage
    rw [b.rest]
  have h1 : u.staging = t.staging := by rw [b.rest]
  have h2 : u.arrivals = t.arrivals := by rw [b.rest]
  refine ⟨b.rest.trans (by rw [h1, h2, a.rest]), fun x hx => (b.cnt x hx).trans (a.cnt x hx), ?_, ?_, ?_⟩
  all_goals rw [hs]
  · exact a.others
  · exact a.pkts
  · exact a.cells

/-- A packet that finds room, or whose class is held by pause, is staged. -/
theorem State.stagePkt_holds (s : State) (h : Nat) (k : Pkt) (held : Bool)
    (hroom : (s.stage h).cells + cellsOf k.data.length ≤ 6656 ∨ held = true) : PacketStaged s (s.stagePkt h k held) h k := by
  unfold State.stagePkt
  dsimp only
  obtain ⟨l, e⟩ : ∃ l, s.arrive h (if s.lrActive h then 4 else 1) = { s with arrivals := l } := ⟨_, rfl⟩
  rw [e]
  have hstage : ({ s with arrivals := l } : State).stage h = s.stage h := rfl
  rw [hstage, if_neg]
  · refine PacketStaged.pauses ?_ (.updatePauses _ h)
    unfold State.updateFetchHold
    refine ⟨rfl, fun _ _ => rfl, fun j hj => ?_, ?_, ?_⟩
    · rw [State.stage_setStage, if_neg hj, State.stage_setStage, if_neg hj]
      rfl
    all_goals rw [State.stage_setStage, if_pos rfl, State.stage_setStage, if_pos rfl]
  · rw [Bool.and_eq_true, decide_eq_true_eq, stageMax]
    rintro ⟨hfull, hheld⟩
    rcases hroom with hroom | hroom
    · omega
    · rw [hroom] at hheld
      exact absurd hheld (by decide)

theorem bodyOf_length (l : List Byte) : (bodyOf l).length = l.length - 4 := by
  unfold bodyOf
  rw [List.length_take]; omega

/-- In t a frame of `len` bytes that came in on port p has been counted, and its body b staged for its headrace. -/
structure FrameStaged (s t : State) (p len : Nat) (b : List Byte) : Prop where
  rest : t = { s with cnts := t.cnts, freeCtr := t.freeCtr, staging := t.staging, out := t.out, arrivals := t.arrivals,
                      timers := t.timers, eth := { s.eth with xoffSent := t.eth.xoffSent } }
  frames : t.cnt (portCnt p C.ETH_RX_FRAMES) = (s.cnt (portCnt p C.ETH_RX_FRAMES) + 1) % 2 ^ 64
  octets : t.cnt (portCnt p C.ETH_RX_OCTETS) = (s.cnt (portCnt p C.ETH_RX_OCTETS) + len) % 2 ^ 64
  others : ∀ h, h ≠ s.rxHeadrace p b → t.stage h = s.stage h
  cells : (t.stage (s.rxHeadrace p b)).cells = (s.stage (s.rxHeadrace p b)).cells + cellsOf b.length
  pkts : ∃ k, (t.stage (s.rxHeadrace p b)).pkts = (s.stage (s.rxHeadrace p b)).pkts ++ [k] ∧ k.data = b ∧ k.org = .eth p

/-- A frame that has passed the checks counts in two counters of its port. -/
def State.frameCounted (s : State) (p len : Nat) : State :=
  (s.setCnt (portCnt p C.ETH_RX_FRAMES) ((s.cnt (portCnt p C.ETH_RX_FRAMES) + 1) % 2 ^ 64)).setCnt (portCnt p C.ETH_RX_OCTETS)
    ((s.cnt (portCnt p C.ETH_RX_OCTETS) + len) % 2 ^ 64)

theorem State.countFrame_eq {s : State} (hz : s.flag B.PMC R.PMC_CTRL_FREEZE = false) (p len : Nat) :
    (s.count (portCnt p C.ETH_RX_FRAMES)).countN (portCnt p C.ETH_RX_OCTETS) len = s.frameCounted p len := by
  have hu : (s.setCnt (portCnt p C.ETH_RX_FRAMES) ((s.cnt (portCnt p C.ETH_RX_FRAMES) + 1) % 2 ^ 64)).flag B.PMC R.PMC_CTRL_FREEZE =
    false := hz
  rw [State.count_high _ (portCnt_high p _), State.countN_of_running hz, State.countN_of_running hu, State.cnt_setCnt,
    if_neg (portCnt_ne (by decide)), State.frameCounted]

theorem State.cnt_frameCounted (s : State) (p len : Nat) :
    (s.frameCounted p len).cnt (portCnt p C.ETH_RX_FRAMES) = (s.cnt (portCnt p C.ETH_RX_FRAMES) + 1) % 2 ^ 64 ∧
    (s.frameCounted p len).cnt (portCnt p C.ETH_RX_OCTETS) = (s.cnt (portCnt p C.ETH_RX_OCTETS) + len) % 2 ^ 64 := by
  unfold State.frameCounted
  rw [State.cnt_setCnt, State.cnt_setCnt, State.cnt_setCnt, if_neg (portCnt_ne (by decide)), if_pos rfl, if_pos rfl]
  exact ⟨rfl, rfl⟩

theorem State.acceptFrame_holds (s : State) (p len : Nat) (b : List Byte) (hz : s.flag B.PMC R.PMC_CTRL_FREEZE = false)
    (hroom : (s.stage (s.rxHeadrace p b)).cells + cellsOf b.length ≤ 6656 ∨ bitOf (s.pfcMask p) (frameClass b) = true) :
    FrameStaged s (s.acceptFrame p len b) p len b := by
  unfold State.acceptFrame State.draw
  rw [State.countFrame_eq hz]
  obtain ⟨hframes, hoctets⟩ := s.cnt_frameCounted p len
  obtain ⟨c, e⟩ : ∃ c, s.frameCounted p len = { s with cnts := c } := ⟨_, rfl⟩
  rw [e] at hframes hoctets ⊢
  dsimp only
  generalize hv : ({ s with cnts := c, freeCtr := s.freeCtr + 1 } : State) = v
  generalize hk : ({ data := b, .. } : Pkt) = k
  have hcond : (v.stage (v.rxHeadrace p b)).cells + cellsOf k.data.length ≤ 6656 ∨ bitOf (v.pfcMask p) (frameClass b) = true := by
    subst hv hk; exact hroom
  have h := v.stagePkt_holds _ k _ hcond
  generalize v.stagePkt _ k _ = t at h ⊢
  subst hv hk
  have hcnt {d : Nat} (hd : d % 0x100 ≠ C.ETH_TX_PAUSE % 0x100) := h.cnt (portCnt p d) fun q => portCnt_ne hd
  have hf : t.freeCtr = s.freeCtr + 1 := by rw [h.rest]
  exact ⟨h.rest.trans (by rw [hf]), (hcnt (by decide)).trans hframes, (hcnt (by decide)).trans hoctets, h.others, h.cells, _, h.pkts, rfl, rfl⟩

end Sys2Proof.Machine

namespace Sys2Proof.Machine

theorem frameReceive_stages {p : Port} {l : List Byte} {o : Bool} {s : State} (hup : s.portUp p = true)
    (hz : s.flag B.PMC R.PMC_CTRL_FREEZE = false) (h : frameSound s p l) (ht : u16At l 12 ≠ 0x8808)
    (hm : s.flag (portBase p) R.ETH_PORT_CFG_MACSEC = false) (hmode : s.mode ≠ .trickle ∨ o = false)
    (hroom : (s.stage (s.rxHeadrace p (bodyOf l))).cells + cellsOf (l.length - 4) ≤ 6656 ∨
      bitOf (s.pfcMask p) (frameClass (bodyOf l)) = true) :
    Gives (.frameReceive p l false o) s (FrameStaged s · p l.length (bodyOf l)) := by
  refine ⟨_, exec_frameReceive_of_data hup h ht, ?_⟩
  obtain ⟨⟨x, f, e⟩, ho⟩ := s.fecCount_holds p l.length false
  rw [e] at ho ⊢
  generalize hu : ({ s with cnts := x, freeCtr := f } : State) = u at ho ⊢
  have hbody : u.rxBody p l.length (bodyOf l) o = u.acceptFrame p l.length (bodyOf l) := by
    subst hu
    refine (if_neg ?_).trans (if_pos ?_)
    · rw [Bool.not_eq_true]; exact hm
    · rw [Bool.or_eq_true, decide_eq_true_eq, Bool.not_eq_true']; exact hmode
  rw [hbody]
  have k := u.acceptFrame_holds p l.length (bodyOf l) (by subst hu; exact hz) (by subst hu; rw [bodyOf_length]; exact hroom)
  generalize u.acceptFrame p l.length (bodyOf l) = t at k ⊢
  obtain ⟨rest, frames, octets, others, cells, pkts⟩ := k
  rw [ho _ (portCnt_ne (by decide)) fun _ => portCnt_ne (by decide)] at frames octets
  subst hu
  exact ⟨rest, frames, octets, others, cells, pkts⟩

/-- Settles O12, by the checks of Table 5.3 in their order: a dropped frame counts once, a pause sets its ends, a sound frame is staged. -/
theorem ethernetReceive : Obligations.EthernetReceive := by
  unfold Obligations.EthernetReceive
  refine ⟨fun p l e o s hup hz => ?_, fun p c s => ⟨pauseExpiry_ends p c s, pauseExpiry_early p c s⟩,
    fun p s => ⟨pfcRepeat_sends p s, pfcRepeat_holds p s⟩⟩
  dsimp only
  refine ⟨frameReceive_pcsError hup hz, frameReceive_runt hup hz, frameReceive_oversize hup hz, fun he hlo hhi => ?_⟩
  refine ⟨frameReceive_badFcs hup hz he hlo hhi, ?_⟩
  subst he
  refine ⟨fun hf ht => frameReceive_control hup hz ⟨hlo, hhi, hf⟩ ht, fun hf ht ho hm => ?_, fun hf ht ho hm => ?_,
    fun hf => frameReceive_clear hup hz ⟨hlo, hhi, hf⟩, fun hf => frameReceive_beyondLimit hup hz ⟨hlo, hhi, hf⟩,
    fun hf ht hm hmode hroom => ?_⟩
  · obtain ⟨t, ht, rest, cnt, ends⟩ := frameReceive_pfc hup hz ⟨hlo, hhi, hf⟩ ht ho hm
    refine ⟨t, ht, rest, cnt, fun c hc => (ends c hc).trans ?_⟩
    unfold pfcQuanta
    split <;> rfl
  · obtain ⟨t, ht, rest, cnt, ends⟩ := frameReceive_pause hup hz ⟨hlo, hhi, hf⟩ ht ho hm
    exact ⟨t, ht, rest, cnt, ends⟩
  · obtain ⟨t, ht, rest, frames, octets, others, cells, pkts⟩ := frameReceive_stages hup hz ⟨hlo, hhi, hf⟩ ht hm hmode hroom
    rw [bodyOf_length] at cells
    exact ⟨t, ht, rest, frames, octets, others, cells, pkts⟩

end Sys2Proof.Machine

namespace Sys2Proof.Machine

/-! ## Fault messages of the lane groups (R423 to R428) -/

/-- Fault n takes no Drain, nor would it with up to j messages queued (R423). -/
def State.mildFor (s : State) (n j : Nat) : Prop := s.sev n ≠ 4 ∧ (s.sev 28 ≠ 4 ∨ s.flt.msgq.length + j ≤ 256)

theorem State.mild.mildFor {s : State} {n j : Nat} (h : s.mild n) (hj : j ≤ 16) : s.mildFor n j :=
  ⟨h.1, h.2.imp_right fun hq => by omega⟩

/-- In t at most n fault messages have been queued since s, and hosts notified of them. -/
structure Notified (n : Nat) (s t : State) : Prop where
  rest : t = { s with regs := t.regs, cnts := t.cnts, flt := t.flt, out := t.out, links := t.links, fns := t.fns, mem := t.mem }
  cnt : ∀ a, 0x50_0000 ≤ a → t.cnt a = s.cnt a
  out : s.out <+: t.out
  msgq : t.flt.msgq.length ≤ s.flt.msgq.length + n

theorem Notified.refl (s : State) : Notified 0 s s := ⟨rfl, fun _ _ => rfl, List.prefix_refl _, Nat.le_refl _⟩

theorem Notified.trans {m n : Nat} {s t u : State} (h : Notified m s t) (k : Notified n t u) : Notified (m + n) s u :=
  ⟨k.rest.trans (by rw [h.rest]), fun a ha => (k.cnt a ha).trans (h.cnt a ha), h.out.trans k.out,
    by have := h.msgq; have := k.msgq; omega⟩

theorem Notified.after {n : Nat} {s t u : State} (h : Notified 0 s t) (k : Notified n t u) : Notified n s u :=
  Nat.zero_add n ▸ h.trans k

theorem Notified.of_same {n : Nat} {s t : State}
    (rest : t = { s with regs := t.regs, flt := t.flt, links := t.links, fns := t.fns, mem := t.mem })
    (msgq : t.flt.msgq.length ≤ s.flt.msgq.length + n) : Notified n s t :=
  ⟨rest.trans (by rw [rest]), fun _ _ => by rw [rest]; rfl, by rw [rest], msgq⟩

/-- A register is written. -/
theorem Notified.setReg (s : State) (k : Nat) (v : Word) : Notified 0 s (s.setReg k v) := .of_same rfl (Nat.le_refl _)

theorem Notified.post (s : State) (m f : Nat) (o : Out) : Notified 0 s (s.post m f o) := by
  unfold State.post
  dsimp only
  split
  · exact .refl s
  split
  · obtain ⟨r, l, e⟩ := (s.emit o).wake_eq m
    rw [e]
    exact ⟨rfl, fun _ _ => rfl, ⟨[o], rfl⟩, Nat.le_refl _⟩
  · exact .of_same rfl (Nat.le_refl _)

theorem Notified.interrupt (s : State) (m f v : Nat) : Notified 0 s (s.interrupt m f v) := by
  unfold State.interrupt
  dsimp only
  split
  · exact .refl s
  split
  · exact .of_same rfl (Nat.le_refl _)
  · exact .post s m f _

theorem Notified.notifyFault (s : State) (n : Nat) : Notified 0 s (s.notifyFault n) := by
  unfold State.notifyFault
  refine foldl_keeps (Notified 0) .refl (fun _ _ _ => .after) _ (fun s m => ?_) _ s
  dsimp only
  split
  · exact .interrupt s m 0 _
  · exact .refl s

theorem Notified.startWindow (s : State) (n c : Nat) : Notified 0 s (s.startWindow n c) := by
  unfold State.startWindow
  obtain ⟨r, e⟩ := s.wrB_eq (srcBase n) R.FLT_SRC_WIN true
  rw [e]
  exact .of_same rfl (Nat.le_refl _)

theorem Notified.capture (s : State) (n : Nat) : Notified 0 s (s.capture n) := by
  unfold State.capture
  dsimp only
  split
  · refine Notified.after ?_ (.notifyFault _ n)
    split
    · exact Notified.after (.setReg s _ _) (.startWindow _ n _)
    · exact .setReg s _ _
  · split
    · exact .startWindow s n _
    · exact .refl s

/-- An event leaves the queue of messages, and counts in performance counters below the ports' block. -/
theorem Notified.event (s : State) (code : Nat) : Notified 0 s (s.event none code) := by
  have hcnt (a : Nat) (ha : 0x50_0000 ≤ a) : (s.event none code).cnt a = s.cnt a :=
    s.cnt_event_ne none code fun i hi h => by
      simp only [pmcCnt, pmcNum, Option.isSome_none, Bool.false_eq_true, if_false, B.PMC, C.PMC_GCNT] at hi h
      omega
  have hq : (s.event none code).flt.msgq = s.flt.msgq := by
    unfold State.event
    split
    · rfl
    · refine List.foldlRecOn (motive := fun t : State => t.flt.msgq = s.flt.msgq) _ _ rfl fun t ht i _ => ?_
      dsimp only
      split
      · split
        · exact ht
        · obtain ⟨c, e⟩ := t.countN_eq (pmcCnt none i) 1
          rw [e]; exact ht
      · exact ht
  obtain ⟨c, f, e⟩ := s.event_eq none code
  rw [e] at hcnt hq ⊢
  exact ⟨rfl, hcnt, List.prefix_refl _, Nat.le_of_eq (congrArg _ hq)⟩

theorem Notified.countMsg (s : State) : Notified 0 s (s.count (B.FLT + C.FLT_MSGS)) := by
  rw [State.count_faultMsgs]
  refine Notified.after ?_ (.event _ 5)
  have hcnt (a : Nat) (ha : 0x50_0000 ≤ a) : (s.countN (B.FLT + C.FLT_MSGS) 1).cnt a = s.cnt a :=
    s.cnt_countN_ne 1 (by simp only [B.FLT, C.FLT_MSGS]; omega)
  obtain ⟨c, e⟩ := s.countN_eq (B.FLT + C.FLT_MSGS) 1
  rw [e] at hcnt ⊢
  exact ⟨rfl, hcnt, List.prefix_refl _, Nat.le_refl _⟩

theorem Notified.takeMsg (s : State) (f : FaultMsg) : Notified 1 s (s.takeMsg f) := by
  rw [State.takeMsg_eq_capture]
  refine Notified.trans (n := 0) ?_ (.capture _ _)
  unfold State.queueMsg
  refine Notified.after (.countMsg s) ?_
  generalize s.count (B.FLT + C.FLT_MSGS) = u
  split
  · exact .of_same rfl (Nat.le_of_eq (List.length_append ..))
  · have h := Notified.after (.setReg u _ _) (Notified.capture (u.bump B.FLT R.FLT_MSGQ_LOST) 28)
    exact ⟨h.rest, h.cnt, h.out, Nat.le_succ_of_le h.msgq⟩

/-- What a fault of a lane group leaves that takes no Drain. -/
structure NoteRaised (n : Nat) (s t : State) : Prop where
  traces : FaultTraces s t
  notified : Notified 1 s t
  sticky : t.sticky n = true

theorem State.raise_note {s : State} {n j : Nat} (kind addr : Nat) (hn : 176 ≤ n ∧ n < 352) (h : s.mildFor n (j + 1)) :
    NoteRaised n s (s.raise n kind addr) := by
  have ht : FaultTraces s (s.takeMsg ⟨n, kind, addr⟩) := by
    rw [State.takeMsg_eq_capture]
    exact (FaultTraces.queueMsg s ⟨n, kind, addr⟩).trans (.capture _ hn.2)
  have hkcu : (s.takeMsg ⟨n, kind, addr⟩).kcuFault n = s.takeMsg ⟨n, kind, addr⟩ := by
    unfold State.kcuFault siloSource
    rw [if_neg (by simp only [Bool.and_eq_true, Bool.or_eq_true, decide_eq_true_eq]; omega), if_neg (by omega)]
  obtain ⟨hsev, hfull⟩ := h
  have hr : s.raise n kind addr = s.takeMsg ⟨n, kind, addr⟩ := by
    unfold State.raise
    dsimp only
    rw [hkcu, if_neg]
    rw [ht.sev n hn.2, ht.sev 28 (by omega)]
    simp only [Bool.or_eq_true, Bool.and_eq_true, decide_eq_true_eq]
    omega
  rw [hr]
  refine ⟨ht, .takeMsg s _, ?_⟩
  rw [State.takeMsg_eq_capture]
  exact State.sticky_capture _ hn.2

/-- A message fewer fits after each. -/
theorem NoteRaised.mildFor {n m j : Nat} {s t : State} (h : NoteRaised n s t) (hm : m < 352) (k : s.mildFor m (j + 1)) : t.mildFor m j := by
  refine ⟨by rw [h.traces.sev m hm]; exact k.1, ?_⟩
  rw [h.traces.sev 28 (by omega)]
  exact k.2.imp_right fun hq => by have := h.notified.msgq; omega

end Sys2Proof.Machine

namespace Sys2Proof.Machine

/-! ## Links of the Ethernet ports (R114, R116, R121) -/

theorem exec_linkDown (p : Port) (r h : Bool) (s : State) : exec (.linkDown p r h) s = execLinkDown p r h s := rfl
theorem exec_linkUp (p : Port) (cu : Bool) (s : State) : exec (.linkUp p cu) s = execLinkUp p cu s := rfl

/-! ### The status of a port -/

/-- The five bits of a port's status are written. -/
def State.setStatus (s : State) (p : Nat) (up aligned remote hiBer an : Bool) : State :=
  let b := portBase p
  let s := (s.wrB b R.ETH_PORT_STATUS_LINK_UP up).wrB b R.ETH_PORT_STATUS_ALIGNED aligned
  let s := (s.wrB b R.ETH_PORT_STATUS_REMOTE_FAULT remote).wrB b R.ETH_PORT_STATUS_HI_BER hiBer
  s.wrB b R.ETH_PORT_STATUS_AN_DONE an

/-- The status of a port stands in t as written. -/
structure StatusShown (p : Nat) (up aligned remote hiBer an : Bool) (t : State) : Prop where
  up : t.flag (portBase p) R.ETH_PORT_STATUS_LINK_UP = up
  aligned : t.flag (portBase p) R.ETH_PORT_STATUS_ALIGNED = aligned
  remote : t.flag (portBase p) R.ETH_PORT_STATUS_REMOTE_FAULT = remote
  hiBer : t.flag (portBase p) R.ETH_PORT_STATUS_HI_BER = hiBer
  an : t.flag (portBase p) R.ETH_PORT_STATUS_AN_DONE = an

/-- In t one register has been written. -/
structure OneWritten (a : Nat) (s t : State) : Prop where
  rest : t = { s with regs := t.regs }
  reg : ∀ b, b ≠ a → t.reg b = s.reg b

theorem OneWritten.wrB (s : State) (b : Nat) (f : RegField) (v : Bool) : OneWritten (b + f.off) s (s.wrB b f v) :=
  ⟨by obtain ⟨r, e⟩ := s.wrB_eq b f v; rw [e], fun _ ha => s.reg_wrB _ _ f v ha⟩

theorem OneWritten.trans {a : Nat} {s t u : State} (h : OneWritten a s t) (k : OneWritten a t u) : OneWritten a s u :=
  ⟨k.rest.trans (by rw [h.rest]), fun b hb => (k.reg b hb).trans (h.reg b hb)⟩

/-- Another field of the register keeps its bit. -/
theorem State.flag_wrB_beside (s : State) (b : Nat) {f g : RegField} (v : Bool) (h : f.hi < 32) (hl : f.lo = f.hi) (hg : g.lo = g.hi)
    (hd : g.hi ≠ f.lo) : (s.wrB b f v).flag b g = s.flag b g :=
  s.flag_wrB_ne b b f g v h (by omega) (by omega)

theorem State.setStatus_written (s : State) (p : Nat) (up al rf hb an : Bool) :
    OneWritten (portBase p + 0x20) s (s.setStatus p up al rf hb an) :=
  ((((OneWritten.wrB s _ R.ETH_PORT_STATUS_LINK_UP up).trans (.wrB _ _ R.ETH_PORT_STATUS_ALIGNED al)).trans
    (.wrB _ _ R.ETH_PORT_STATUS_REMOTE_FAULT rf)).trans (.wrB _ _ R.ETH_PORT_STATUS_HI_BER hb)).trans
    (.wrB _ _ R.ETH_PORT_STATUS_AN_DONE an)

theorem State.setStatus_shown (s : State) (p : Nat) (up al rf hb an : Bool) :
    StatusShown p up al rf hb an (s.setStatus p up al rf hb an) := by
  unfold State.setStatus
  dsimp only
  constructor
  · rw [State.flag_wrB_beside, State.flag_wrB_beside, State.flag_wrB_beside, State.flag_wrB_beside, State.flag_wrB_same] <;> decide
  · rw [State.flag_wrB_beside, State.flag_wrB_beside, State.flag_wrB_beside, State.flag_wrB_same] <;> decide
  · rw [State.flag_wrB_beside, State.flag_wrB_beside, State.flag_wrB_same] <;> decide
  · rw [State.flag_wrB_beside, State.flag_wrB_same] <;> decide
  · exact State.flag_wrB_same _ _ _ _ (by decide) rfl

theorem StatusShown.congr {p : Nat} {up al rf hb an : Bool} {s t : State} (h : StatusShown p up al rf hb an s)
    (e : t.reg (portBase p + 0x20) = s.reg (portBase p + 0x20)) : StatusShown p up al rf hb an t :=
  ⟨(State.flag_congr e).trans h.up, (State.flag_congr e).trans h.aligned, (State.flag_congr e).trans h.remote,
    (State.flag_congr e).trans h.hiBer, (State.flag_congr e).trans h.an⟩

end Sys2Proof.Machine

namespace Sys2Proof.Machine

/-! ### The flush of a port's queues (R227) -/

/-- In t packets have been flushed since s. -/
structure Flushed (s t : State) : Prop where
  rest : t = { s with cnts := t.cnts, qps := t.qps, egr := t.egr, weir := t.weir, pipes := t.pipes }
  cnt : ∀ a, B.ETH 0 ≤ a → a < B.HPT 0 → t.cnt a = s.cnt a

theorem Flushed.refl (s : State) : Flushed s s := ⟨rfl, fun _ _ _ => rfl⟩

theorem Flushed.trans {s t u : State} (h : Flushed s t) (k : Flushed t u) : Flushed s u :=
  ⟨k.rest.trans (by rw [h.rest]), fun a ha hb => (k.cnt a ha hb).trans (h.cnt a ha hb)⟩

theorem Flushed.setEgress (s : State) (k : Nat) (x : EgrSt) : Flushed s (s.setEgress k x) := ⟨rfl, fun _ _ _ => rfl⟩

theorem State.foldToks_eq (f : State → Nat → List Token) (l : List Nat) (s : State) :
    ∃ x, l.foldl (fun s k => s.setToks k (f s k)) s = { s with pipes := x } :=
  List.foldlRecOn (motive := fun u : State => ∃ x, u = { s with pipes := x }) _ _ ⟨_, rfl⟩ fun u hu k _ => by
    obtain ⟨x, rfl⟩ := hu
    exact ⟨_, rfl⟩

/-- Copies that a port does not get are marked in the Weir and in the tailraces' pipelines. -/
theorem State.cutPort_eq (s : State) (p : Nat) : ∃ w x, s.cutPort p = { s with weir := w, pipes := x } := by
  unfold State.cutPort State.onWeir
  dsimp only
  obtain ⟨x, e⟩ := State.foldToks_eq (fun s k => (s.pipe k).toks.map fun x =>
    if bitsOf x.dest 31 30 = 0 && bitsOf x.dest 11 0 = p then { x with cut := true } else x) (List.range' 16 16)
    { s with weir := _ }
  exact ⟨_, x, e⟩

theorem State.pktEnd_eq (s : State) (k : Pkt) : ∃ q, s.pktEnd k = { s with qps := q } := by
  unfold State.pktEnd
  split
  · unfold State.onChain
    split <;> exact ⟨_, rfl⟩
  · exact ⟨_, rfl⟩

/-- Flushed packets count in the Weir or at a host port. -/
theorem State.downCnt_range (s : State) (d : Nat) : 0x50_0000 ≤ s.downCnt d ∧ (s.downCnt d < B.ETH 0 ∨ B.HPT 0 ≤ s.downCnt d) := by
  have hd : bitsOf d 11 0 < 2 ^ 12 := Nat.mod_lt _ (by decide)
  unfold State.downCnt
  split
  · simp only [B.HPTC, C.HPT_SLOT8_FLUSHED, B.ETH, B.HPT]; omega
  · simp only [flushCnt, B.WEIR, C.WEIR_FLUSHED, B.ETH, B.HPT]; omega

theorem State.flushOne_holds (s : State) (k : Pkt) (d : Nat) : Flushed s (s.flushOne k d) ∧ (s.flushOne k d).egr = s.egr := by
  unfold State.flushOne
  obtain ⟨c, e, hc⟩ : ∃ c, (if bitsOf d 31 30 ≤ 1 then s.count (s.downCnt d) else s) = { s with cnts := c } ∧
      ∀ a, B.ETH 0 ≤ a → a < B.HPT 0 → ({ s with cnts := c } : State).cnt a = s.cnt a := by
    split
    · obtain ⟨hhigh, hoff⟩ := s.downCnt_range d
      rw [State.count_high s hhigh]
      have hne (a : Nat) (ha : B.ETH 0 ≤ a) (hb : a < B.HPT 0) := s.cnt_countN_ne 1 (show a ≠ s.downCnt d by omega)
      obtain ⟨c, e⟩ := s.countN_eq (s.downCnt d) 1
      rw [e] at hne
      exact ⟨c, e, hne⟩
    · exact ⟨_, rfl, fun _ _ _ => rfl⟩
  rw [e]
  obtain ⟨q, e⟩ := ({ s with cnts := c } : State).pktEnd_eq k
  rw [e]
  exact ⟨⟨rfl, hc⟩, rfl⟩

theorem State.egress_setEgress (s : State) (k j : Nat) (x : EgrSt) : (s.setEgress k x).egress j = if j = k then x else s.egress j :=
  tget_tput _ _ _ _ _

/-- Queue k of t holds the packets of s that do not satisfy `mine`. -/
theorem State.flushEgress_holds (s : State) (k : Nat) (mine : EPkt → Bool) : Flushed s (s.flushEgress k mine) ∧
    ∀ j, ((s.flushEgress k mine).egress j).q = if j = k then (s.egress j).q.filter (fun x => !mine x) else (s.egress j).q := by
  unfold State.flushEgress
  dsimp only
  have h : ∀ l : List EPkt, Flushed s (l.foldl (fun s p => s.flushOne p.pkt p.dest) s) ∧
      (l.foldl (fun s p => s.flushOne p.pkt p.dest) s).egr = s.egr := fun l =>
    List.foldlRecOn (motive := fun u : State => Flushed s u ∧ u.egr = s.egr) _ _ ⟨.refl s, rfl⟩ fun u hu p _ =>
      ⟨hu.1.trans (u.flushOne_holds _ _).1, (u.flushOne_holds _ _).2.trans hu.2⟩
  obtain ⟨hf, he⟩ := h (((s.egress k).q ++ (s.egress k).deliver).filter mine)
  generalize List.foldl _ s _ = u at hf he ⊢
  refine ⟨hf.trans (.setEgress _ _ _), fun j => ?_⟩
  rw [State.egress_setEgress]
  split
  · next hj => subst hj; rfl
  · unfold State.egress; rw [he]

/-- A packet for Ethernet port p. -/
def EPkt.isFor (p : Nat) (x : EPkt) : Bool := bitsOf x.dest 31 30 = 0 && bitsOf x.dest 11 0 = p

/-- One tailrace loses its packets for a port. -/
def State.flushTail (p : Nat) (s : State) (k : Nat) : State :=
  let s := s.flushEgress k (EPkt.isFor p)
  s.setEgress k { s.egress k with leaving := (s.egress k).leaving.filter (·.1 ≠ p) }

theorem State.flushPort_eq (s : State) (p : Nat) : s.flushPort p = (List.range 16).foldl (State.flushTail p) (s.cutPort p) := rfl

theorem State.flushTail_holds (p : Nat) (s : State) (k : Nat) : Flushed s (s.flushTail p k) ∧
    ∀ j, ((s.flushTail p k).egress j).q = if j = k then (s.egress j).q.filter (fun x => !x.isFor p) else (s.egress j).q := by
  obtain ⟨hf, hq⟩ := s.flushEgress_holds k (EPkt.isFor p)
  unfold State.flushTail
  dsimp only
  generalize s.flushEgress k (EPkt.isFor p) = u at hf hq ⊢
  refine ⟨hf.trans (.setEgress _ _ _), fun j => ?_⟩
  rw [State.egress_setEgress, ← hq j]
  split
  · next hj => subst hj; rfl
  · rfl

theorem State.flushTails_holds (p : Nat) (l : List Nat) (s : State) : Flushed s (l.foldl (State.flushTail p) s) ∧
    ∀ j, ((l.foldl (State.flushTail p) s).egress j).q =
      if j ∈ l then (s.egress j).q.filter (fun x => !x.isFor p) else (s.egress j).q := by
  induction l generalizing s with
  | nil => exact ⟨.refl s, fun j => (if_neg List.not_mem_nil).symm⟩
  | cons k l ih =>
    obtain ⟨hf, hq⟩ := s.flushTail_holds p k
    obtain ⟨ihf, ihq⟩ := ih (s.flushTail p k)
    refine ⟨hf.trans ihf, fun j => (ihq j).trans ?_⟩
    rw [hq j]
    by_cases hj : j = k <;> by_cases hl : j ∈ l <;> simp [hj, hl, List.filter_filter]

/-- In t the queues of port p have been flushed. -/
structure PortFlushed (p : Nat) (s t : State) : Prop where
  flushed : Flushed s t
  queues : ∀ k, k < 16 → (t.egress k).q = (s.egress k).q.filter fun x => !x.isFor p

theorem State.flushPort_holds (s : State) (p : Nat) : PortFlushed p s (s.flushPort p) := by
  rw [State.flushPort_eq]
  obtain ⟨hf, hq⟩ := (s.cutPort p).flushTails_holds p (List.range 16)
  obtain ⟨w, x, e⟩ := s.cutPort_eq p
  have hcut : Flushed s (s.cutPort p) := by rw [e]; exact ⟨rfl, fun _ _ _ => rfl⟩
  have hegr : (s.cutPort p).egress = s.egress := by rw [e]; rfl
  exact ⟨hcut.trans hf, fun k hk => by rw [hq k, if_pos (List.mem_range.mpr hk), hegr]⟩

end Sys2Proof.Machine

namespace Sys2Proof.Machine

/-! ### A link that goes down (R114, R116) -/

/-- A frame on its way out of a port is ended. -/
def State.endFrame (s : State) (p : Nat) : State :=
  if s.sending p then (s.emit (.abort p)).count (portCnt p C.ETH_TX_ABORT) else s

/-- What a port does when its link goes down, before its queues are flushed. -/
def State.portDown (s : State) (p : Nat) (remote hiBer : Bool) : State :=
  let s := ((s.endFrame p).setStatus p false remote remote hiBer false).count (portCnt p C.ETH_LINK_DOWN)
  let s := { s with eth := { s.eth with xoffSent := tput (fun _ => 0) s.eth.xoffSent p 0, txEnd := tput (fun _ => 0) s.eth.txEnd p 0 } }
  if remote then s else s.stamp (Tm.unaligned p)

theorem State.linkDown_eq (s : State) (p : Nat) (r h : Bool) :
    s.linkDown p r h = ((s.portDown p r h).flushPort p).raise (176 + 4 * portLG p) (p % 4) 0 := by
  unfold State.linkDown State.portDown State.endFrame State.setStatus
  dsimp only

/-- Counter a of t stands one higher than in s, where counters run. -/
def Counted (a n : Nat) (s t : State) : Prop := s.flag B.PMC R.PMC_CTRL_FREEZE = false → t.cnt a = (s.cnt a + n) % 2 ^ 64

theorem State.countN_counted (s : State) (a n : Nat) : Counted a n s (s.countN a n) := fun hz => by
  rw [State.countN_of_running hz]
  exact (State.cnt_setCnt _ _ _ _).trans (if_pos rfl)

/-- In t a frame under way has been ended. -/
structure FrameEnded (p : Nat) (s t : State) : Prop where
  rest : t = { s with cnts := t.cnts, out := t.out }
  cnt : ∀ a, a ≠ portCnt p C.ETH_TX_ABORT → t.cnt a = s.cnt a
  aborted : s.sending p = true → Out.abort p ∈ t.out ∧ Counted (portCnt p C.ETH_TX_ABORT) 1 s t
  idle : s.sending p = false → t.cnt (portCnt p C.ETH_TX_ABORT) = s.cnt (portCnt p C.ETH_TX_ABORT)

theorem State.endFrame_holds (s : State) (p : Nat) : FrameEnded p s (s.endFrame p) := by
  unfold State.endFrame
  split
  · next hs =>
    rw [State.count_high _ (portCnt_high p _)]
    have hcnt (a : Nat) (ha : a ≠ portCnt p C.ETH_TX_ABORT) := (s.emit (.abort p)).cnt_countN_ne 1 ha
    have hrun : Counted (portCnt p C.ETH_TX_ABORT) 1 s ((s.emit (.abort p)).countN (portCnt p C.ETH_TX_ABORT) 1) :=
      (s.emit (.abort p)).countN_counted (portCnt p C.ETH_TX_ABORT) 1
    obtain ⟨c, e⟩ := (s.emit (.abort p)).countN_eq (portCnt p C.ETH_TX_ABORT) 1
    rw [e] at hcnt hrun ⊢
    exact ⟨rfl, hcnt, fun _ => ⟨List.mem_append_right _ (List.mem_singleton.mpr rfl), hrun⟩, fun h => by simp [hs] at h⟩
  · next hs => exact ⟨rfl, fun _ _ => rfl, fun h => absurd h hs, fun _ => rfl⟩

/-- In t the link of port p has gone down since s; its queues and its fault are still to come. -/
structure PortDown (p : Nat) (r h : Bool) (s t : State) : Prop where
  rest : t = { s with regs := t.regs, cnts := t.cnts, eth := { s.eth with xoffSent := t.eth.xoffSent, txEnd := t.eth.txEnd },
                      timers := t.timers, out := t.out }
  reg : ∀ a, a ≠ portBase p + 0x20 → t.reg a = s.reg a
  status : StatusShown p false r r h false t
  lost : Counted (portCnt p C.ETH_LINK_DOWN) 1 s t
  aborted : s.sending p = true → Out.abort p ∈ t.out ∧ Counted (portCnt p C.ETH_TX_ABORT) 1 s t
  idle : s.sending p = false → t.cnt (portCnt p C.ETH_TX_ABORT) = s.cnt (portCnt p C.ETH_TX_ABORT)

theorem State.portDown_eq (s : State) (p : Nat) (r h : Bool) : ∃ x e ts, s.portDown p r h =
    { ((s.endFrame p).setStatus p false r r h false).countN (portCnt p C.ETH_LINK_DOWN) 1 with
      eth := { s.eth with xoffSent := x, txEnd := e }, timers := ts } := by
  have heth : (((s.endFrame p).setStatus p false r r h false).countN (portCnt p C.ETH_LINK_DOWN) 1).eth = s.eth := by
    obtain ⟨c, e⟩ := ((s.endFrame p).setStatus p false r r h false).countN_eq (portCnt p C.ETH_LINK_DOWN) 1
    rw [e, ((s.endFrame p).setStatus_written p false r r h false).rest, (s.endFrame_holds p).rest]
  unfold State.portDown
  dsimp only
  rw [State.count_high _ (portCnt_high p _), heth]
  split
  · exact ⟨_, _, _, rfl⟩
  · exact ⟨_, _, _, rfl⟩

theorem portStatus_ne {p a : Nat} (ha : a < B.ETH 0) : a ≠ portBase p + 0x20 := by
  have := portBase_ge p
  omega

theorem State.portDown_holds (s : State) (p : Nat) (r h : Bool) : PortDown p r h s (s.portDown p r h) := by
  obtain ⟨x, e, ts, hd⟩ := s.portDown_eq p r h
  rw [hd]
  have hu := s.endFrame_holds p
  generalize s.endFrame p = u at hu ⊢
  have hv := u.setStatus_written p false r r h false
  have hst := u.setStatus_shown p false r r h false
  generalize u.setStatus p false r r h false = v at hv hst ⊢
  have hreg (a : Nat) (ha : a ≠ portBase p + 0x20) : v.reg a = s.reg a := (hv.reg a ha).trans (by rw [hu.rest]; rfl)
  have hcnt (a : Nat) : v.cnt a = u.cnt a := by rw [hv.rest]; rfl
  have hlost : Counted (portCnt p C.ETH_LINK_DOWN) 1 s (v.countN (portCnt p C.ETH_LINK_DOWN) 1) := fun hz => by
    rw [v.countN_counted _ 1 ((State.flag_congr (hreg _ (portStatus_ne (by decide)))).trans hz), hcnt,
      hu.cnt _ (portCnt_ne (by decide))]
  have habort := v.cnt_countN_ne 1 (show portCnt p C.ETH_TX_ABORT ≠ portCnt p C.ETH_LINK_DOWN from portCnt_ne (by decide))
  rw [hcnt] at habort
  obtain ⟨c, ec⟩ := v.countN_eq (portCnt p C.ETH_LINK_DOWN) 1
  rw [ec] at hlost habort ⊢
  have hout : v.out = u.out := by rw [hv.rest]
  refine ⟨?_, hreg, hst.congr rfl, hlost, fun hs => ?_, fun hs => habort.trans (hu.idle hs)⟩
  · rw [hv.rest, hu.rest]
  · obtain ⟨hmem, hn⟩ := hu.aborted hs
    exact ⟨hout ▸ hmem, fun hz => habort.trans (hn hz)⟩

/-- In t the link of port p has gone down since s. -/
structure PortLost (p : Nat) (r h : Bool) (s t : State) : Prop where
  rest : t = { s with regs := t.regs, cnts := t.cnts, eth := { s.eth with xoffSent := t.eth.xoffSent, txEnd := t.eth.txEnd },
                      egr := t.egr, qps := t.qps, weir := t.weir, pipes := t.pipes, timers := t.timers, flt := t.flt, mem := t.mem,
                      out := t.out, links := t.links, fns := t.fns }
  status : StatusShown p false r r h false t
  lost : Counted (portCnt p C.ETH_LINK_DOWN) 1 s t
  aborted : s.sending p = true → Out.abort p ∈ t.out ∧ Counted (portCnt p C.ETH_TX_ABORT) 1 s t
  idle : s.sending p = false → t.cnt (portCnt p C.ETH_TX_ABORT) = s.cnt (portCnt p C.ETH_TX_ABORT)
  queues : ∀ k, k < 16 → (t.egress k).q = (s.egress k).q.filter fun x => !x.isFor p
  fault : t.sticky (176 + 4 * portLG p) = true

/-- What another port, and the module of the port's lane group, see of a link that goes down. -/
structure PortLostBeside (p : Nat) (s t : State) : Prop where
  reg : ∀ a, a < B.FLT ∨ B.FLT + 0x1580 ≤ a ∧ a < B.HPT 0 → a ≠ portBase p + 0x20 → t.reg a = s.reg a
  mild : ∀ n j, n < 352 → s.mildFor n (j + 1) → t.mildFor n j
  released : t.eth.released = s.eth.released

theorem State.mildFor_congr {s t : State} (hr : ∀ a, a < B.ETH 0 → t.reg a = s.reg a) (hf : t.flt = s.flt) {n j : Nat} (hn : n < 352)
    (h : s.mildFor n j) : t.mildFor n j := by
  have hsev (m : Nat) (hm : m < 352) : t.sev m = s.sev m :=
    State.rd_congr (hr _ (by simp only [srcBase, B.FLT, B.ETH, R.FLT_SRC_SEV]; omega))
  rw [State.mildFor, hsev n hn, hsev 28 (by omega), hf]
  exact h

/-- A port's status register stands apart from those of faults. -/
theorem portBase_range {p : Nat} (hp : p < 96) : B.FLT + 0x1580 ≤ portBase p + 0x20 ∧ portBase p + 0x20 < B.HPT 0 := by
  simp only [portBase, portLG, B.FLT, B.ETH, B.HPT]; omega

theorem portCnt_range (p c : Nat) (hp : p < 96) (hc : c < 0x2000) : B.ETH 0 ≤ portCnt p c ∧ portCnt p c < B.HPT 0 := by
  simp only [portCnt, portLG, B.ETH, B.HPT]; omega

theorem State.linkDown_holds {s : State} {p : Nat} (r h : Bool) (hp : p < 96) {j : Nat} (hm : s.mildFor (176 + 4 * portLG p) (j + 1)) :
    PortLost p r h s (s.linkDown p r h) ∧ PortLostBeside p s (s.linkDown p r h) := by
  have hn : 176 ≤ 176 + 4 * portLG p ∧ 176 + 4 * portLG p < 352 := by simp only [portLG]; omega
  have hd := s.portDown_holds p r h
  rw [State.linkDown_eq]
  generalize s.portDown p r h = u at hd ⊢
  obtain ⟨hv, hq⟩ := u.flushPort_holds p
  generalize u.flushPort p = v at hv hq ⊢
  have hreg (a : Nat) (ha : a ≠ portBase p + 0x20) : v.reg a = s.reg a := (State.reg_congr (by rw [hv.rest]) a).trans (hd.reg a ha)
  have hflt : v.flt = s.flt := by rw [hv.rest, hd.rest]
  have hmild (n k : Nat) (hk : n < 352) (hs : s.mildFor n k) : v.mildFor n k :=
    State.mildFor_congr (fun a ha => hreg a (portStatus_ne ha)) hflt hk hs
  have hw := State.raise_note (p % 4) 0 hn (hmild _ _ hn.2 hm)
  generalize v.raise (176 + 4 * portLG p) (p % 4) 0 = w at hw ⊢
  obtain ⟨ht, hno, hsticky⟩ := hw
  have hwv := ht.regs (portBase p + 0x20) (.inr (portBase_range hp))
  have hcnt (c : Nat) (hc : c < 0x2000) : w.cnt (portCnt p c) = u.cnt (portCnt p c) := by
    obtain ⟨hlo, hhi⟩ := portCnt_range p c hp hc
    rw [hno.cnt _ (portCnt_high p c), hv.cnt _ hlo hhi]
  have hout : u.out <+: w.out := by
    have hvu : v.out = u.out := by rw [hv.rest]
    exact hvu ▸ hno.out
  constructor
  · refine ⟨?_, hd.status.congr (hwv.trans (State.reg_congr (by rw [hv.rest]) _)), fun hz => ?_, fun hs => ?_, fun hs => ?_, fun k hk => ?_,
      hsticky⟩
    · rw [hno.rest, hv.rest, hd.rest]
    · rw [hcnt _ (by decide), hd.lost hz]
    · obtain ⟨hmem, hcount⟩ := hd.aborted hs
      exact ⟨hout.subset hmem, fun hz => (hcnt _ (by decide)).trans (hcount hz)⟩
    · rw [hcnt _ (by decide), hd.idle hs]
    · have h1 : (w.egress k).q = (v.egress k).q := by rw [hno.rest]; rfl
      have h2 : (u.egress k).q = (s.egress k).q := by rw [hd.rest]; rfl
      rw [h1, hq k hk, h2]
  · refine ⟨fun a ha hne => (ht.regs a ha).trans (hreg a hne), fun n k hk hs => ?_, by rw [hno.rest, hv.rest, hd.rest]⟩
    exact NoteRaised.mildFor ⟨ht, hno, hsticky⟩ hk (hmild n (k + 1) hk hs)

theorem linkDown_loses (p : Port) (r h : Bool) (s : State) (hup : s.portUp p = true) (hm : s.mild (176 + 4 * portLG p)) :
    Gives (.linkDown p r h) s (PortLost p r h s) := by
  refine ⟨s.linkDown p r h, ?_, (State.linkDown_holds r h p.isLt (hm.mildFor (j := 1) (by decide))).1⟩
  rw [exec_linkDown, execLinkDown, if_pos hup]

/-- A port whose link is not up is down. -/
theorem StatusShown.portUp {p : Nat} {al rf hb an : Bool} {t : State} (h : StatusShown p false al rf hb an t) : t.portUp p = false := by
  rw [State.portUp, h.up, Bool.and_false]

end Sys2Proof.Machine

namespace Sys2Proof.Machine

/-! ### A link that comes up (R116, R121, R327) -/

theorem State.portWidth_congr {s t : State} {p : Nat} (h : t.reg (B.ETH (portLG p)) = s.reg (B.ETH (portLG p))) :
    t.portWidth p = s.portWidth p := by
  unfold State.portWidth
  dsimp only
  rw [show t.rd (B.ETH (portLG p)) R.ETH_LG_CFG_LAYOUT = s.rd (B.ETH (portLG p)) R.ETH_LG_CFG_LAYOUT from State.rd_congr h,
    show t.flag (B.ETH (portLG p)) R.ETH_LG_CFG_SPAN8 = s.flag (B.ETH (portLG p)) R.ETH_LG_CFG_SPAN8 from State.flag_congr h]

/-- The registers that switch a port on: its layout, its own, and those of its domains. -/
theorem State.portOn_congr {s t : State} {p : Nat} (hp : p < 96) (hlow : ∀ a, a < B.FLT → t.reg a = s.reg a)
    (hlay : t.reg (B.ETH (portLG p)) = s.reg (B.ETH (portLG p))) (hcfg : t.reg (portBase p + 0x10) = s.reg (portBase p + 0x10)) :
    t.portOn p = s.portOn p := by
  have hd (d : Nat) (hd : d < 80) : t.domOn d = s.domOn d := State.domOn_congr (hlow _ (by simp only [B.PWR, B.FLT]; omega))
  have hen : t.flag (B.ETH (portLG p) + 4 * (p % 4)) R.ETH_PORT_CFG_EN = s.flag (B.ETH (portLG p) + 4 * (p % 4)) R.ETH_PORT_CFG_EN :=
    State.flag_congr hcfg
  unfold State.portOn
  rw [State.portWidth_congr hlay, hd _ (by simp only [domLG, portLG]; omega), hd _ (by simp only [domLG, portLG]; omega), hen]

theorem portOn_ne_status {p : Nat} : B.ETH (portLG p) ≠ portBase p + 0x20 ∧ portBase p + 0x10 ≠ portBase p + 0x20 := by
  simp only [portBase]; omega

theorem State.foldCalibrate_eq (l : List Nat) (s : State) :
    ∃ c f, l.foldl State.calibrate s = { s with tim := { s.tim with cal := c }, freeCtr := f } :=
  List.foldlRecOn (motive := fun u : State => ∃ c f, u = { s with tim := { s.tim with cal := c }, freeCtr := f }) _ _ ⟨_, _, rfl⟩
    fun u hu g _ => by
      obtain ⟨c, f, rfl⟩ := hu
      exact ⟨_, _, rfl⟩

/-- In t the link of port p has come up since s, over copper or not. -/
structure LinkMade (p : Nat) (cu : Bool) (s t : State) : Prop where
  rest : t = { s with regs := t.regs, eth := { s.eth with squelched := t.eth.squelched, xoffSent := t.eth.xoffSent },
                      tim := { s.tim with cal := t.tim.cal }, freeCtr := t.freeCtr, timers := t.timers, out := t.out, cnts := t.cnts }
  status : StatusShown p true true false false cu t
  reg : ∀ a, a ≠ portBase p + 0x20 → t.reg a = s.reg a
  squelched : t.eth.squelched = s.eth.squelched.filter fun l => !(s.portLanes p).contains l

theorem LinkMade.pauses {p : Nat} {cu : Bool} {s t u : State} (h : LinkMade p cu s t) (k : PausesSent t u) : LinkMade p cu s u := by
  have hregs : u.regs = t.regs := by rw [k.rest]
  have hreg (a : Nat) := State.reg_congr hregs a
  have hsq : u.eth.squelched = t.eth.squelched := by rw [k.rest]
  have hcal : u.tim = t.tim := by rw [k.rest]
  have hfree : u.freeCtr = t.freeCtr := by rw [k.rest]
  refine ⟨k.rest.trans ?_, h.status.congr (hreg _), fun a ha => (hreg a).trans (h.reg a ha), hsq.trans h.squelched⟩
  rw [hregs, hsq, hcal, hfree, h.rest]

/-- The lanes of a port are let out of squelch, and its lane groups calibrated. -/
theorem State.linkUp_holds {s u : State} {p : Nat} {cu : Bool} (hu : OneWritten (portBase p + 0x20) s u)
    (hst : StatusShown p true true false false cu u) (c : List (Nat × Nat × Nat × Nat)) (f : Nat) (ts : List (Nat × Nat)) :
    LinkMade p cu s { u with tim := { u.tim with cal := c }, freeCtr := f, timers := ts,
                             eth := { u.eth with squelched := u.eth.squelched.filter fun l => !(u.portLanes p).contains l } } := by
  have hl : u.portLanes p = s.portLanes p := by
    unfold State.portLanes
    rw [State.portWidth_congr (hu.reg _ portOn_ne_status.1)]
  refine ⟨?_, hst.congr rfl, hu.reg, ?_⟩
  · rw [hu.rest]
  · rw [hl, hu.rest]

/-- What a port does that finds its link up, before it sends its pauses. -/
def State.linkMade (s : State) (p : Nat) (cu : Bool) : State :=
  let s := (s.setStatus p true true false false cu).stamp (Tm.linkUp p)
  let lanes := s.portLanes p
  let s := (lanes.map (· / 4)).eraseDups.foldl State.calibrate s
  { s with eth := { s.eth with squelched := s.eth.squelched.filter fun l => !lanes.contains l } }

theorem State.linkMade_holds (s : State) (p : Nat) (cu : Bool) : LinkMade p cu s (s.linkMade p cu) := by
  have hu := s.setStatus_written p true true false false cu
  have hst := s.setStatus_shown p true true false false cu
  unfold State.linkMade
  dsimp only
  generalize s.setStatus p true true false false cu = u at hu hst ⊢
  obtain ⟨ts, e⟩ := u.stamp_eq (Tm.linkUp p)
  rw [e]
  obtain ⟨c, f, ec⟩ := State.foldCalibrate_eq (((({ u with timers := ts } : State).portLanes p).map (· / 4)).eraseDups) { u with timers := ts }
  rw [ec]
  exact State.linkUp_holds hu hst c f ts

theorem linkUp_makes (p : Port) (cu : Bool) (s : State) (hon : s.portOn p = true) (hup : s.portUp p = false)
    (hm : s.moduleOk p = true) (hd : s.due (Tm.unaligned p) (ms 1) = true) : Gives (.linkUp p cu) s (LinkMade p cu s) := by
  refine ⟨(s.linkMade p cu).updatePause p, ?_, (s.linkMade_holds p cu).pauses (.updatePause _ _)⟩
  rw [exec_linkUp, execLinkUp, if_neg (by simp [hon, hup, hm, hd])]
  rfl

theorem linkUp_early (p : Port) (cu : Bool) (s : State) (h : s.moduleOk p = false ∨ s.due (Tm.unaligned p) (ms 1) = false) :
    exec (.linkUp p cu) s = .next s := by
  rw [exec_linkUp, execLinkUp]
  refine if_pos ?_
  rcases h with h | h <;> simp [h]

theorem LinkMade.portUp {p : Nat} {cu : Bool} {s t : State} (h : LinkMade p cu s t) (hp : p < 96) (hon : s.portOn p = true) :
    t.portUp p = true := by
  have ht : t.portOn p = true :=
    (State.portOn_congr hp (fun a ha => h.reg a (portStatus_ne (by simp only [B.FLT, B.ETH] at ha ⊢; omega))) (h.reg _ portOn_ne_status.1)
      (h.reg _ portOn_ne_status.2)).trans hon
  rw [State.portUp, ht, h.status.up]
  rfl

/-- The lanes of a port that has come up, and no other, have left squelch. -/
theorem LinkMade.mem_squelched {p : Nat} {cu : Bool} {s t : State} (h : LinkMade p cu s t) (l : Nat) :
    l ∈ t.eth.squelched ↔ l ∈ s.eth.squelched ∧ ¬ (p ≤ l ∧ l < p + s.portWidth p) := by
  rw [h.squelched, List.mem_filter, State.portLanes]
  simp only [Bool.not_eq_true', List.contains_eq_mem, decide_eq_false_iff_not, List.mem_range'_1]

/-! ### A lane that loses its signal (R121) -/

/-- A lane is squelched. -/
def State.squelch (s : State) (l : Nat) : State :=
  if s.eth.squelched.contains l then s else { s with eth := { s.eth with squelched := s.eth.squelched ++ [l] } }

/-- The port of a lane is not aligned. -/
def State.unalign (s : State) (l : Nat) : State :=
  match s.portOfLane l with
  | some p => s.stamp (Tm.unaligned p)
  | none => s

theorem laneSignalLoss_eq (l : Fin 96) (s : State) : exec (.laneSignalLoss l) s = .next ((s.unalign l).squelch l) := rfl

theorem State.unalign_eq (s : State) (l : Nat) : ∃ ts, s.unalign l = { s with timers := ts } := by
  unfold State.unalign
  split
  · exact s.stamp_eq _
  · exact ⟨_, rfl⟩

theorem State.squelch_of_mem {s : State} {l : Nat} (h : l ∈ s.eth.squelched) : s.squelch l = s :=
  if_pos (List.contains_iff_mem.mpr h)

theorem State.squelch_of_not_mem {s : State} {l : Nat} (h : l ∉ s.eth.squelched) :
    s.squelch l = { s with eth := { s.eth with squelched := s.eth.squelched ++ [l] } } :=
  if_neg fun hc => h (List.contains_iff_mem.mp hc)

theorem State.timers_squelch (s : State) (l : Nat) : (s.squelch l).timers = s.timers := by
  unfold State.squelch
  split <;> rfl

theorem laneSignalLoss_squelched (l : Fin 96) (s : State) (h : l.val ∈ s.eth.squelched) :
    Gives (.laneSignalLoss l) s fun t => t = { s with timers := t.timers } := by
  obtain ⟨ts, e⟩ := s.unalign_eq l
  refine ⟨_, laneSignalLoss_eq l s, ?_⟩
  rw [e, State.squelch_of_mem (by exact h)]

theorem laneSignalLoss_squelches (l : Fin 96) (s : State) (h : l.val ∉ s.eth.squelched) : Gives (.laneSignalLoss l) s fun t =>
    t = { s with timers := t.timers, eth := { s.eth with squelched := s.eth.squelched ++ [l.val] } } := by
  obtain ⟨ts, e⟩ := s.unalign_eq l
  refine ⟨_, laneSignalLoss_eq l s, ?_⟩
  rw [e, State.squelch_of_not_mem (by exact h)]

theorem laneSignalLoss_unaligns (l : Fin 96) (s : State) (p : Nat) (h : s.portOfLane l = some p) :
    Gives (.laneSignalLoss l) s fun t => t.last (Tm.unaligned p) = some s.now := by
  have hu : s.unalign l = s.stamp (Tm.unaligned p) := by rw [State.unalign, h]
  have hlast : ((s.unalign l).squelch l).last (Tm.unaligned p) = (s.unalign l).last (Tm.unaligned p) := by
    unfold State.last
    rw [(s.unalign l).timers_squelch l]
  exact ⟨_, laneSignalLoss_eq l s, hlast.trans (by rw [hu, State.last_stamp_same])⟩

end Sys2Proof.Machine

namespace Sys2Proof.Machine

/-! ## Modules in their cages (R122 to R124) -/

theorem exec_moduleInserted (g : LaneGroup) (w : Nat) (s : State) : exec (.moduleInserted g w) s = execModuleInserted g w s := rfl
theorem exec_moduleRemoved (g : LaneGroup) (s : State) : exec (.moduleRemoved g) s = execModuleRemoved g s := rfl
theorem exec_moduleOvercurrent (g : LaneGroup) (s : State) : exec (.moduleOvercurrent g) s = execModuleOvercurrent g s := rfl
theorem exec_moduleI2cStuck (g : LaneGroup) (n : Nat) (s : State) : exec (.moduleI2cStuck g n) s = execModuleI2cStuck g n s := rfl

theorem State.module_setCage (s : State) (g w : Nat) : (s.setCage g w).module g = if w = 0 then none else some (w - 1) := by
  unfold State.module State.setCage
  dsimp only
  rw [tget_tput, if_pos rfl]

/-! ### A module is inserted (R122) -/

/-- The status of a cage shows a module whose feed is on. -/
def State.showModule (s : State) (g : Nat) : State :=
  let b := B.ETH g
  let s := (s.wrB b R.ETH_MOD_STATUS_PRESENT true).wrB b R.ETH_MOD_STATUS_FEED_ON true
  (s.wrB b R.ETH_MOD_STATUS_TRIP false).wrB b R.ETH_MOD_STATUS_ISOLATED false

/-- The status of a cage in t. -/
structure ModuleShown (g : Nat) (t : State) : Prop where
  present : t.flag (B.ETH g) R.ETH_MOD_STATUS_PRESENT = true
  feedOn : t.flag (B.ETH g) R.ETH_MOD_STATUS_FEED_ON = true
  trip : t.flag (B.ETH g) R.ETH_MOD_STATUS_TRIP = false
  isolated : t.flag (B.ETH g) R.ETH_MOD_STATUS_ISOLATED = false

theorem ModuleShown.congr {g : Nat} {s t : State} (h : ModuleShown g s) (e : t.reg (B.ETH g + 0x64) = s.reg (B.ETH g + 0x64)) :
    ModuleShown g t :=
  ⟨(State.flag_congr e).trans h.present, (State.flag_congr e).trans h.feedOn, (State.flag_congr e).trans h.trip,
    (State.flag_congr e).trans h.isolated⟩

theorem State.showModule_written (s : State) (g : Nat) : OneWritten (B.ETH g + 0x64) s (s.showModule g) :=
  (((OneWritten.wrB s _ R.ETH_MOD_STATUS_PRESENT _).trans (.wrB _ _ R.ETH_MOD_STATUS_FEED_ON _)).trans
    (.wrB _ _ R.ETH_MOD_STATUS_TRIP _)).trans (.wrB _ _ R.ETH_MOD_STATUS_ISOLATED _)

theorem State.showModule_shown (s : State) (g : Nat) : ModuleShown g (s.showModule g) := by
  unfold State.showModule
  dsimp only
  constructor
  · rw [State.flag_wrB_beside, State.flag_wrB_beside, State.flag_wrB_beside, State.flag_wrB_same] <;> decide
  · rw [State.flag_wrB_beside, State.flag_wrB_beside, State.flag_wrB_same] <;> decide
  · rw [State.flag_wrB_beside, State.flag_wrB_same] <;> decide
  · exact State.flag_wrB_same _ _ _ _ (by decide) rfl

/-- In t a cage has been filled with a module of w watts: its feed is on, and it is in low power. -/
structure ModuleSeen (g w : Nat) (s t : State) : Prop where
  rest : t = { s with regs := t.regs, eth := { s.eth with released := s.eth.released.filter (· ≠ g), cages := t.eth.cages },
                      out := s.out ++ [.pin (mmPin g "PWR_EN") true] }
  module : t.module g = some w
  reg : ∀ a, a ≠ B.ETH g + 0x64 → t.reg a = s.reg a
  shown : ModuleShown g t

theorem State.moduleSeen_holds (s : State) (g w : Nat) (hd : s.domOn (domLG g) = true) :
    ModuleSeen g w s ((s.setCage g (w + 1)).moduleSeen g) := by
  have hm := s.module_setCage g (w + 1)
  rw [if_neg (by omega), Nat.add_sub_cancel] at hm
  obtain ⟨c, e⟩ : ∃ c, s.setCage g (w + 1) = { s with eth := { s.eth with cages := c } } := ⟨_, rfl⟩
  rw [e] at hm ⊢
  generalize hv : ({ s with eth := { s.eth with cages := c } } : State) = v at hm ⊢
  have hseen : v.moduleSeen g = ({ v.showModule g with eth := { (v.showModule g).eth with
      released := (v.showModule g).eth.released.filter (· ≠ g) } } : State).emit (.pin (mmPin g "PWR_EN") true) := by
    unfold State.moduleSeen State.showModule
    exact if_neg (by subst hv; simp [hm, show ({ s with eth := { s.eth with cages := c } } : State).domOn (domLG g) = true from hd])
  rw [hseen]
  have hw := v.showModule_written g
  have hs := v.showModule_shown g
  generalize v.showModule g = u at hw hs ⊢
  obtain ⟨r, e⟩ : ∃ r, u = { v with regs := r } := ⟨_, hw.rest⟩
  subst e hv
  exact ⟨rfl, hm, hw.reg, hs.congr rfl⟩

theorem ModuleSeen.not_released {g w : Nat} {s t : State} (h : ModuleSeen g w s t) : g ∉ t.eth.released := by
  rw [h.rest]
  simp

theorem ModuleSeen.budget {g w : Nat} {s t : State} (h : ModuleSeen g w s t) :
    t.rd (B.ETH g) R.ETH_MOD_CFG_MOD_BUDGET = s.rd (B.ETH g) R.ETH_MOD_CFG_MOD_BUDGET :=
  State.rd_congr (h.reg _ (by simp only [R.ETH_MOD_CFG_MOD_BUDGET]; omega))

theorem ModuleSeen.domOn {g w : Nat} {s t : State} (h : ModuleSeen g w s t) {d : Nat} (hd : d < 80) : t.domOn d = s.domOn d :=
  State.domOn_congr (h.reg _ (by simp only [B.PWR, B.ETH]; omega))

theorem exec_moduleInserted_empty {g : LaneGroup} {w : Nat} {s : State} (h : s.module g = none) :
    exec (.moduleInserted g w) s = .next (((s.setCage g (w + 1)).moduleSeen g).judgeModule g) := by
  rw [exec_moduleInserted, execModuleInserted, if_neg (by simp [h])]

theorem exec_moduleInserted_full {g : LaneGroup} {w : Nat} {s : State} (h : s.module g ≠ none) :
    exec (.moduleInserted g w) s = .next s := by
  rw [exec_moduleInserted, execModuleInserted, if_pos (Option.isSome_iff_ne_none.mpr h)]

/-- What is decided about a module that is powered and has not been released. -/
theorem State.judgeModule_eq {s : State} {g w : Nat} (hm : s.module g = some w) (hd : s.domOn (domLG g) = true)
    (hr : g ∉ s.eth.released) : s.judgeModule g =
      if w ≤ s.rd (B.ETH g) R.ETH_MOD_CFG_MOD_BUDGET && s.rd (B.ETH g) R.ETH_MOD_CFG_MOD_BUDGET ≠ 0 then
        { s with eth := { s.eth with released := s.eth.released ++ [g] } }.emit (.pin (mmPin g "LPM") false)
      else ((((List.range' (4 * g) 4).filter s.portUp).foldl (fun s p => s.linkDown p false false) s).emit
        (.pin (mmPin g "LPM") true)).raise (176 + 4 * g + 2) 0 0 := by
  unfold State.judgeModule
  rw [hm]
  exact if_neg (by simp [hd, hr])

/-- A module within the budget of its cage is released. -/
theorem moduleInserted_releases (g : LaneGroup) (w : Nat) (s : State) (hd : s.domOn (domLG g) = true) (hm : s.module g = none)
    (hw : w ≤ s.rd (B.ETH g) R.ETH_MOD_CFG_MOD_BUDGET) (hb : s.rd (B.ETH g) R.ETH_MOD_CFG_MOD_BUDGET ≠ 0) :
    Gives (.moduleInserted g w) s fun t => ∃ u, ModuleSeen g w s u ∧
      t = { u with eth := { u.eth with released := u.eth.released ++ [g.val] }, out := u.out ++ [.pin (mmPin g "LPM") false] } := by
  have hu := s.moduleSeen_holds g w hd
  refine ⟨_, exec_moduleInserted_empty hm, _, hu, ?_⟩
  generalize (s.setCage g (w + 1)).moduleSeen g = u at hu ⊢
  rw [State.judgeModule_eq hu.module ((hu.domOn (by simp only [domLG]; omega)).trans hd) hu.not_released, hu.budget,
    if_pos (by simp [hw, hb])]
  rfl

end Sys2Proof.Machine

namespace Sys2Proof.Machine

/-! ### A module beyond its cage's budget (R122) -/

/-- A register beside those of faults that is no port's status. -/
def portFree (a : Nat) : Prop := (a < B.FLT ∨ B.FLT + 0x1580 ≤ a ∧ a < B.HPT 0) ∧ ∀ q, a ≠ portBase q + 0x20

/-- In t the links of the ports of l have gone down since s. -/
structure PortsLost (l : List Nat) (s t : State) : Prop where
  reg : ∀ a, portFree a → t.reg a = s.reg a
  stays : ∀ q, q < 96 → s.flag (portBase q) R.ETH_PORT_STATUS_LINK_UP = false → t.flag (portBase q) R.ETH_PORT_STATUS_LINK_UP = false
  down : ∀ p ∈ l, t.flag (portBase p) R.ETH_PORT_STATUS_LINK_UP = false
  mild : ∀ n j, n < 352 → s.mildFor n (j + l.length) → t.mildFor n j
  released : t.eth.released = s.eth.released

theorem PortsLost.linkDown {s : State} {p j : Nat} (hp : p < 96) (hm : s.mildFor (176 + 4 * portLG p) (j + 1)) :
    PortsLost [p] s (s.linkDown p false false) := by
  obtain ⟨hlost, hbeside⟩ := State.linkDown_holds false false hp hm
  refine ⟨fun a ha => hbeside.reg a ha.1 (ha.2 p), fun q hq hf => ?_, fun q hq => ?_, hbeside.mild, hbeside.released⟩
  · by_cases he : portBase q = portBase p
    · rw [he]
      exact hlost.status.up
    · exact (State.flag_congr (hbeside.reg _ (.inr (portBase_range hq)) fun h => he (Nat.add_right_cancel h))).trans hf
  · rw [List.mem_singleton.mp hq]
    exact hlost.status.up

theorem PortsLost.cons {p : Nat} {l : List Nat} {s t u : State} (hp : p < 96) (h : PortsLost [p] s t) (k : PortsLost l t u) :
    PortsLost (p :: l) s u := by
  refine ⟨fun a ha => (k.reg a ha).trans (h.reg a ha), fun q hq hf => k.stays q hq (h.stays q hq hf), fun q hq => ?_, fun n j hn hs => ?_,
    k.released.trans h.released⟩
  · rcases List.mem_cons.mp hq with rfl | hq
    · exact k.stays q hp (h.down q (List.mem_singleton.mpr rfl))
    · exact k.down q hq
  · exact k.mild n j hn (h.mild n _ hn hs)

/-- The ports of a lane group go down one after another, as long as messages of its fault find room. -/
theorem State.linksDown_holds {g : Nat} (l : List Nat) (hl : ∀ p ∈ l, p < 96 ∧ portLG p = g) :
    ∀ s : State, s.mildFor (176 + 4 * g) l.length → PortsLost l s (l.foldl (fun s p => s.linkDown p false false) s) := by
  induction l with
  | nil => exact fun s _ => ⟨fun _ _ => rfl, fun _ _ hf => hf, fun _ h => absurd h List.not_mem_nil, fun _ _ _ h => h, rfl⟩
  | cons p l ih =>
    intro s hm
    obtain ⟨hp, hg⟩ := hl p List.mem_cons_self
    subst hg
    have h1 := PortsLost.linkDown hp hm
    have hm' := h1.mild _ l.length (by simp only [portLG]; omega) hm
    exact .cons hp h1 (ih (fun q hq => hl q (List.mem_cons_of_mem p hq)) _ hm')

/-- A register of a port that switches it on is no port's status. -/
theorem portFree_low {a : Nat} (h : a < B.FLT) : portFree a :=
  ⟨.inl h, fun _ => portStatus_ne (by simp only [B.FLT, B.ETH] at h ⊢; omega)⟩

theorem portFree_eth {g x : Nat} (hg : g < 24) (hx : x < 0x20 ∨ 0x30 ≤ x ∧ x < 0x1_0000) : portFree (B.ETH g + x) := by
  refine ⟨.inr ?_, fun q => ?_⟩
  · simp only [B.FLT, B.ETH, B.HPT]; omega
  · simp only [portBase, B.ETH]; omega

theorem portFree_cfg {p : Nat} (hp : p < 96) : portFree (portBase p + 0x10) := by
  have h := portFree_eth (g := portLG p) (x := 4 * (p % 4) + 0x10) (by simp only [portLG]; omega) (by omega)
  rwa [← Nat.add_assoc] at h

theorem PortsLost.portOn {l : List Nat} {s t : State} (h : PortsLost l s t) {p : Nat} (hp : p < 96) : t.portOn p = s.portOn p := by
  have hg : portLG p < 24 := by simp only [portLG]; omega
  exact State.portOn_congr hp (fun a ha => h.reg a (portFree_low ha)) (h.reg _ (portFree_eth hg (.inl (by decide : 0 < 0x20))))
    (h.reg _ (portFree_cfg hp))

/-- Once the ports of a group that were up have gone down, each is down. -/
theorem PortsLost.portUp {g : Nat} {s t : State} (h : PortsLost ((List.range' (4 * g) 4).filter s.portUp) s t) (hg : g < 24) {k : Nat}
    (hk : k < 4) : t.portUp (4 * g + k) = false := by
  have hp : 4 * g + k < 96 := by omega
  rw [State.portUp, h.portOn hp, Bool.and_eq_false_iff]
  by_cases hup : s.portUp (4 * g + k) = true
  · exact .inr (h.down _ (List.mem_filter.mpr ⟨List.mem_range'_1.mpr (by omega), hup⟩))
  · rw [Bool.not_eq_true, State.portUp, Bool.and_eq_false_iff] at hup
    exact hup.imp_right (h.stays _ hp)

/-- What a module beyond the budget of its cage leaves. -/
structure ModuleHeld (g : Nat) (t : State) : Prop where
  present : t.flag (B.ETH g) R.ETH_MOD_STATUS_PRESENT = true
  fault : t.sticky (178 + 4 * g) = true
  held : g ∉ t.eth.released
  down : ∀ k, k < 4 → t.portUp (4 * g + k) = false

theorem FaultTraces.portUp {s t : State} (h : FaultTraces s t) {p : Nat} (hp : p < 96) : t.portUp p = s.portUp p := by
  have hlay := portFree_eth (g := portLG p) (x := 0) (by simp only [portLG]; omega) (by omega)
  rw [State.portUp, State.portUp, State.portOn_congr hp (fun a ha => h.regs a (.inl ha)) (h.regs _ hlay.1) (h.regs _ (portFree_cfg hp).1)]
  rw [show t.flag (portBase p) R.ETH_PORT_STATUS_LINK_UP = s.flag (portBase p) R.ETH_PORT_STATUS_LINK_UP from
    State.flag_congr (h.regs _ (.inr (portBase_range hp)))]

theorem ModuleSeen.mildFor {g w n j : Nat} {s t : State} (h : ModuleSeen g w s t) (hn : n < 352) (hm : s.mildFor n j) : t.mildFor n j :=
  State.mildFor_congr (fun a ha => h.reg a (by simp only [B.ETH] at ha ⊢; omega)) (by rw [h.rest]) hn hm

theorem State.holdModule {u : State} {g : Nat} (hg : g < 24) (hs : ModuleShown g u) (hr : g ∉ u.eth.released)
    (h0 : ∀ j, j ≤ 16 → u.mildFor (176 + 4 * g) j) (h2 : ∀ j, j ≤ 16 → u.mildFor (178 + 4 * g) j) :
    ModuleHeld g (((((List.range' (4 * g) 4).filter u.portUp).foldl (fun s p => s.linkDown p false false) u).emit
      (.pin (mmPin g "LPM") true)).raise (176 + 4 * g + 2) 0 0) := by
  have hlen : ((List.range' (4 * g) 4).filter u.portUp).length ≤ 4 :=
    (List.length_filter_le _ _).trans (Nat.le_of_eq List.length_range')
  have hl : PortsLost ((List.range' (4 * g) 4).filter u.portUp) u _ :=
    State.linksDown_holds (g := g) _ (fun p hp => by
      have hmem := List.mem_range'_1.mp (List.mem_filter.mp hp).1
      simp only [portLG]; omega) u (h0 _ (by omega))
  have hup (k : Nat) (hk : k < 4) := hl.portUp hg hk
  have hm := hl.mild (176 + 4 * g + 2) 1 (by omega) (by rw [show 176 + 4 * g + 2 = 178 + 4 * g by omega]; exact h2 _ (by omega))
  have hst := hs.congr (hl.reg _ (portFree_eth hg (by omega)))
  have hrel := hl.released
  generalize List.foldl _ u _ = v at hup hm hst hrel ⊢
  have hn := State.raise_note (s := v.emit (.pin (mmPin g "LPM") true)) (j := 0) 0 0 (by omega) hm
  generalize State.raise _ _ 0 0 = t at hn ⊢
  obtain ⟨ht, hno, hsticky⟩ := hn
  have hreg := ht.regs _ (portFree_eth hg (x := 0x64) (by omega)).1
  refine ⟨(hst.congr hreg).present, ?_, ?_, fun k hk => (ht.portUp (by omega)).trans (hup k hk)⟩
  · rwa [show 178 + 4 * g = 176 + 4 * g + 2 by omega]
  · rw [hno.rest]
    exact fun h => hr (hrel ▸ h)

/-- A module beyond the budget of its cage is held in low power. -/
theorem moduleInserted_holds (g : LaneGroup) (w : Nat) (s : State) (hd : s.domOn (domLG g) = true) (hm : s.module g = none)
    (hw : s.rd (B.ETH g) R.ETH_MOD_CFG_MOD_BUDGET < w) (h0 : s.mild (176 + 4 * g)) (h2 : s.mild (178 + 4 * g)) :
    Gives (.moduleInserted g w) s (ModuleHeld g) := by
  have hg : g.val < 24 := g.isLt
  have hu := s.moduleSeen_holds g w hd
  refine ⟨_, exec_moduleInserted_empty hm, ?_⟩
  generalize (s.setCage g (w + 1)).moduleSeen g = u at hu ⊢
  rw [State.judgeModule_eq hu.module ((hu.domOn (by simp only [domLG]; omega)).trans hd) hu.not_released, hu.budget,
    if_neg (by rw [Bool.and_eq_true, decide_eq_true_eq]; omega)]
  exact State.holdModule hg hu.shown hu.not_released (fun j hj => hu.mildFor (by omega) (h0.mildFor hj))
    (fun j hj => hu.mildFor (by omega) (h2.mildFor hj))

end Sys2Proof.Machine

namespace Sys2Proof.Machine

/-! ### A module is removed -/

/-- In t the module of a cage is gone, and its feed off. -/
structure ModuleGone (g : Nat) (s t : State) : Prop where
  rest : t = { s with regs := t.regs, eth := { s.eth with released := t.eth.released, cages := t.eth.cages },
                      out := s.out ++ [.pin (mmPin g "PWR_EN") false] }
  module : t.module g = none
  present : t.flag (B.ETH g) R.ETH_MOD_STATUS_PRESENT = false
  feedOn : t.flag (B.ETH g) R.ETH_MOD_STATUS_FEED_ON = false
  reg : ∀ a, a ≠ B.ETH g + 0x64 → t.reg a = s.reg a
  released : ∀ k, k ∈ t.eth.released ↔ k ≠ g ∧ k ∈ s.eth.released

/-- The status of a cage shows no module. -/
def State.showEmpty (s : State) (g : Nat) : State :=
  (s.wrB (B.ETH g) R.ETH_MOD_STATUS_PRESENT false).wrB (B.ETH g) R.ETH_MOD_STATUS_FEED_ON false

theorem moduleRemoved_empties (g : LaneGroup) (s : State) (hd : s.domOn (domLG g) = true) (hm : s.module g ≠ none) :
    Gives (.moduleRemoved g) s (ModuleGone g s) := by
  have hex : exec (.moduleRemoved g) s = .next (({ (s.setCage g 0).showEmpty g with eth := { (s.setCage g 0).eth with
      released := s.eth.released.filter (· ≠ g.val) } } : State).emit (.pin (mmPin g "PWR_EN") false)) := by
    have hd' : (s.setCage g 0).domOn (domLG g) = true := hd
    rw [exec_moduleRemoved, execModuleRemoved, if_neg (by rwa [Option.isNone_iff_eq_none])]
    exact if_neg (by simp [hd'])
  refine ⟨_, hex, ?_⟩
  have hnone := s.module_setCage g 0
  have hw : OneWritten (B.ETH g + 0x64) (s.setCage g 0) ((s.setCage g 0).showEmpty g) :=
    (OneWritten.wrB _ _ R.ETH_MOD_STATUS_PRESENT _).trans (.wrB _ _ R.ETH_MOD_STATUS_FEED_ON _)
  have hp : ((s.setCage g 0).showEmpty g).flag (B.ETH g) R.ETH_MOD_STATUS_PRESENT = false := by
    unfold State.showEmpty
    rw [State.flag_wrB_beside, State.flag_wrB_same] <;> decide
  have hf : ((s.setCage g 0).showEmpty g).flag (B.ETH g) R.ETH_MOD_STATUS_FEED_ON = false :=
    State.flag_wrB_same _ _ _ _ (by decide) rfl
  obtain ⟨r, e⟩ : ∃ r, (s.setCage g 0).showEmpty g = { s.setCage g 0 with regs := r } := ⟨_, hw.rest⟩
  have hreg := hw.reg
  rw [e] at hp hf hreg ⊢
  refine ⟨rfl, hnone, hp, hf, hreg, fun k => ?_⟩
  exact List.mem_filter.trans (by rw [decide_eq_true_eq]; exact and_comm)

theorem exec_moduleRemoved_empty {g : LaneGroup} {s : State} (h : s.module g = none) : exec (.moduleRemoved g) s = .next s := by
  rw [exec_moduleRemoved, execModuleRemoved, if_pos (by rw [h]; rfl)]

/-! ### A load switch that trips, and a stuck segment (R123, R124) -/

/-- In t a cage has raised source 1 of its lane group. -/
structure CageFault (g : Nat) (s t : State) : Prop where
  rest : t = { s with regs := t.regs, cnts := t.cnts, flt := t.flt, mem := t.mem, out := t.out, links := t.links, fns := t.fns }
  fault : t.sticky (177 + 4 * g) = true

theorem State.raiseCage {s : State} {g : Nat} (hg : g < 24) (kind : Nat) (hm : s.mildFor (177 + 4 * g) 1) :
    CageFault g s (s.raise (176 + 4 * g + 1) kind 0) ∧ ∀ f : RegField, f.off = 0x64 →
      (s.raise (176 + 4 * g + 1) kind 0).flag (B.ETH g) f = s.flag (B.ETH g) f := by
  have he : 177 + 4 * g = 176 + 4 * g + 1 := by omega
  obtain ⟨ht, hno, hsticky⟩ := State.raise_note (j := 0) kind 0 (by omega) (he ▸ hm)
  refine ⟨⟨hno.rest, he ▸ hsticky⟩, fun f hf => State.flag_congr ?_⟩
  rw [hf]
  exact ht.regs _ (portFree_eth hg (by omega)).1

theorem OneWritten.mildFor {g n j : Nat} {s t : State} (h : OneWritten (B.ETH g + 0x64) s t) (hn : n < 352) (hm : s.mildFor n j) :
    t.mildFor n j :=
  State.mildFor_congr (fun a ha => h.reg a (by simp only [B.ETH] at ha ⊢; omega)) (by rw [h.rest]) hn hm

/-- The status of a cage shows that its feed has tripped. -/
def State.showTrip (s : State) (g : Nat) : State :=
  (s.wrB (B.ETH g) R.ETH_MOD_STATUS_FEED_ON false).wrB (B.ETH g) R.ETH_MOD_STATUS_TRIP true

theorem moduleOvercurrent_trips (g : LaneGroup) (s : State) (hd : s.domOn (domLG g) = true)
    (hf : s.flag (B.ETH g) R.ETH_MOD_STATUS_FEED_ON = true) (hm : s.mild (177 + 4 * g)) :
    Gives (.moduleOvercurrent g) s fun t => t.flag (B.ETH g) R.ETH_MOD_STATUS_FEED_ON = false ∧
      t.flag (B.ETH g) R.ETH_MOD_STATUS_TRIP = true ∧ CageFault g s t := by
  have hg : g.val < 24 := g.isLt
  have hex : exec (.moduleOvercurrent g) s =
      .next (((s.showTrip g).emit (.pin (mmPin g "PWR_EN") false)).raise (176 + 4 * g + 1) 0 0) := by
    rw [exec_moduleOvercurrent, execModuleOvercurrent]
    exact if_neg (by simp [hd, hf])
  refine ⟨_, hex, ?_⟩
  have hw : OneWritten (B.ETH g + 0x64) s (s.showTrip g) :=
    (OneWritten.wrB _ _ R.ETH_MOD_STATUS_FEED_ON _).trans (.wrB _ _ R.ETH_MOD_STATUS_TRIP _)
  have hfeed : (s.showTrip g).flag (B.ETH g) R.ETH_MOD_STATUS_FEED_ON = false := by
    unfold State.showTrip
    rw [State.flag_wrB_beside, State.flag_wrB_same] <;> decide
  have htrip : (s.showTrip g).flag (B.ETH g) R.ETH_MOD_STATUS_TRIP = true := State.flag_wrB_same _ _ _ _ (by decide) rfl
  have hmild := hw.mildFor (by omega) (hm.mildFor (j := 1) (by decide))
  generalize s.showTrip g = u at hw hfeed htrip hmild ⊢
  obtain ⟨hc, hst⟩ := State.raiseCage (s := u.emit (.pin (mmPin g "PWR_EN") false)) hg 0 hmild
  exact ⟨(hst _ rfl).trans hfeed, (hst _ rfl).trans htrip, hc.rest.trans (by rw [hw.rest]; rfl), hc.fault⟩

/-- What a cage's segment is clocked with in one attempt to free it. -/
def freeing : List String := List.replicate 9 "SCL" ++ ["STOP", "RETRY"]

/-- A stuck segment is clocked in n attempts. -/
def State.clockSegment (s : State) (g n : Nat) : State :=
  (List.range n).foldl (fun s _ => freeing.foldl (fun s w => s.emit (.segment g w)) s) s

theorem State.foldEmit (f : String → Out) (l : List String) (s : State) :
    l.foldl (fun s w => s.emit (f w)) s = { s with out := s.out ++ l.map f } := by
  induction l generalizing s with
  | nil => rw [List.foldl_nil, List.map_nil, List.append_nil]
  | cons w l ih =>
    rw [List.foldl_cons, ih]
    exact congrArg (fun o => { s with out := o }) (List.append_assoc s.out [f w] (l.map f))

theorem State.clockSegment_eq (s : State) (g n : Nat) :
    s.clockSegment g n = { s with out := s.out ++ (List.replicate n (freeing.map (Out.segment g))).flatten } := by
  induction n with
  | zero => exact congrArg (fun o => { s with out := o }) (List.append_nil s.out).symm
  | succ n ih =>
    unfold State.clockSegment at ih ⊢
    rw [List.range_succ, List.foldl_append, ih, List.foldl_cons, List.foldl_nil, State.foldEmit, List.replicate_succ', List.flatten_append,
      List.flatten_singleton]
    exact congrArg (fun o => { s with out := o }) (List.append_assoc ..)

section
variable {g : LaneGroup} {n : Nat} {s : State} (hd : s.domOn (domLG g) = true)
  (hi : s.flag (B.ETH g) R.ETH_MOD_STATUS_ISOLATED = false)
include hd hi

theorem exec_moduleI2cStuck_of_joined : exec (.moduleI2cStuck g n) s = .next (if n < 3 then s.clockSegment g (min 3 (n + 1))
    else ((s.clockSegment g (min 3 (n + 1))).wrB (B.ETH g) R.ETH_MOD_STATUS_ISOLATED true).raise (176 + 4 * g + 1) 1 0) := by
  rw [exec_moduleI2cStuck, execModuleI2cStuck]
  exact if_neg (by simp [hd, hi])

theorem exec_moduleI2cStuck_frees (hn : n < 3) : exec (.moduleI2cStuck g n) s =
    .next { s with out := s.out ++ (List.replicate (n + 1) (freeing.map (Out.segment g))).flatten } := by
  rw [exec_moduleI2cStuck_of_joined hd hi, if_pos hn, State.clockSegment_eq, Nat.min_eq_right (by omega)]

theorem moduleI2cStuck_isolates (hn : 3 ≤ n) (hm : s.mild (177 + 4 * g)) : Gives (.moduleI2cStuck g n) s fun t =>
    t.flag (B.ETH g) R.ETH_MOD_STATUS_ISOLATED = true ∧ CageFault g s t := by
  refine ⟨_, (exec_moduleI2cStuck_of_joined hd hi).trans (by rw [if_neg (by omega)]), ?_⟩
  have hu : (s.clockSegment g (min 3 (n + 1))) = { s with out := (s.clockSegment g (min 3 (n + 1))).out } := by
    rw [State.clockSegment_eq]
  generalize s.clockSegment g (min 3 (n + 1)) = u at hu ⊢
  have hw : OneWritten (B.ETH g + 0x64) u (u.wrB (B.ETH g) R.ETH_MOD_STATUS_ISOLATED true) :=
    OneWritten.wrB u _ R.ETH_MOD_STATUS_ISOLATED true
  have hset : (u.wrB (B.ETH g) R.ETH_MOD_STATUS_ISOLATED true).flag (B.ETH g) R.ETH_MOD_STATUS_ISOLATED = true :=
    State.flag_wrB_same _ _ _ _ (by decide) rfl
  have hmu : u.mildFor (177 + 4 * g) 1 := by rw [hu]; exact hm.mildFor (j := 1) (by decide)
  have hmild := hw.mildFor (by have := g.isLt; omega) hmu
  generalize u.wrB (B.ETH g) R.ETH_MOD_STATUS_ISOLATED true = v at hw hset hmild ⊢
  obtain ⟨hc, hst⟩ := State.raiseCage g.isLt 1 hmild
  exact ⟨(hst _ rfl).trans hset, hc.rest.trans (by rw [hw.rest, hu]), hc.fault⟩
end

theorem exec_moduleI2cStuck_of_isolated {g : LaneGroup} (n : Nat) {s : State} (hi : s.flag (B.ETH g) R.ETH_MOD_STATUS_ISOLATED = true) :
    exec (.moduleI2cStuck g n) s = .next s := by
  rw [exec_moduleI2cStuck, execModuleI2cStuck]
  exact if_pos (by simp [hi])

end Sys2Proof.Machine

namespace Sys2Proof.Machine

/-! ## The links and modules of the Ethernet ports -/

/-- Settles O13, by what each event leaves of the port's link and of the module in its cage. -/
theorem ethernetLinks : Obligations.EthernetLinks := by
  unfold Obligations.EthernetLinks
  refine ⟨fun p r h s hup hz hm => ?_, fun p cu s hon hup => ⟨fun hok hd => ?_, linkUp_early p cu s⟩,
    fun l s => ⟨laneSignalLoss_squelched l s, laneSignalLoss_squelches l s, laneSignalLoss_unaligns l s⟩, fun g w s hd => ?_⟩
  · obtain ⟨t, ht, rest, ⟨up, aligned, remote, hiBer, an⟩, lost, aborted, idle, queues, fault⟩ := linkDown_loses p r h s hup hm
    refine ⟨t, ht, rest, StatusShown.portUp ⟨up, aligned, remote, hiBer, an⟩, aligned, remote, hiBer, an, lost hz, ?_,
      fun hs => (aborted hs).1, fault, queues⟩
    cases hs : s.sending p with
    | true => exact .inl ((aborted hs).2 hz)
    | false => exact .inr ⟨rfl, idle hs⟩
  · obtain ⟨t, ht, hmade⟩ := linkUp_makes p cu s hon hup hok hd
    exact ⟨t, ht, hmade.rest, hmade.portUp p.isLt hon, hmade.status.aligned, hmade.status.an, hmade.status.remote, hmade.reg,
      hmade.mem_squelched⟩
  · refine ⟨fun hm hw hb => ?_, fun hm hw h0 h2 => ?_, exec_moduleInserted_full, fun hm => ?_, exec_moduleRemoved_empty,
      fun hf hm => ?_, fun n hn hi hm => ?_, fun n hn hi => exec_moduleI2cStuck_frees hd hi hn,
      fun n hi => exec_moduleI2cStuck_of_isolated n hi⟩
    · obtain ⟨t, ht, u, hu, rfl⟩ := moduleInserted_releases g w s hd hm hw hb
      have hs := hu.shown
      refine ⟨_, ht, ?_, hu.module, hs.present, hs.feedOn, hs.trip, hs.isolated, hu.reg, fun k => ?_⟩
      · rw [hu.rest, List.append_assoc]
        rfl
      · rw [hu.rest]
        by_cases hk : k = g.val <;> simp [hk]
    · obtain ⟨t, ht, present, fault, held, down⟩ := moduleInserted_holds g w s hd hm hw h0 h2
      exact ⟨t, ht, present, fault, held, down⟩
    · obtain ⟨t, ht, rest, module, present, feedOn, reg, released⟩ := moduleRemoved_empties g s hd hm
      exact ⟨t, ht, rest, module, present, feedOn, reg, released⟩
    · obtain ⟨t, ht, feedOn, trip, hc⟩ := moduleOvercurrent_trips g s hd hf hm
      exact ⟨t, ht, feedOn, trip, hc.fault, hc.rest⟩
    · obtain ⟨t, ht, isolated, hc⟩ := moduleI2cStuck_isolates hd hi hn hm
      exact ⟨t, ht, isolated, hc.fault, hc.rest⟩

end Sys2Proof.Machine

namespace Sys2Proof.Machine

/-! ## Data registers (R143): one entry in several registers -/

/-- The pieces of w bits of a number, put together. -/
theorem foldl_pieces (w x n : Nat) :
    (List.range n).foldl (fun v k => v + x / 2 ^ (w * k) % 2 ^ w * 2 ^ (w * k)) 0 = x % 2 ^ (w * n) := by
  induction n with
  | zero => simp [Nat.mod_one]
  | succ n ih =>
    rw [List.range_succ, List.foldl_append, ih, List.foldl_cons, List.foldl_nil, Nat.mul_succ, Nat.pow_add, Nat.mod_mul,
      Nat.mul_comm (2 ^ (w * n))]

theorem bitsOf_piece (x w k : Nat) (hw : 0 < w) : bitsOf x (w * k + (w - 1)) (w * k) = x / 2 ^ (w * k) % 2 ^ w := by
  unfold bitsOf
  rw [show w * k + (w - 1) + 1 - w * k = w by omega]

theorem State.setDataRegs_succ (s : State) (a n v : Nat) :
    s.setDataRegs a (n + 1) v = (s.setDataRegs a n v).wrW (a + 4 * n) (bitsOf v (32 * n + 31) (32 * n)) := by
  unfold State.setDataRegs
  rw [List.range_succ, List.foldl_append]
  rfl

theorem State.setDataRegs_eq (s : State) (a n v : Nat) : s.setDataRegs a n v = { s with regs := (s.setDataRegs a n v).regs } := by
  induction n with
  | zero => rfl
  | succ n ih =>
    rw [State.setDataRegs_succ]
    generalize s.setDataRegs a n v = u at ih ⊢
    rw [ih]
    rfl

/-- Data register k shows bits 32 k to 32 k + 31 of the number. -/
theorem State.reg_setDataRegs (s : State) (a n v k : Nat) (hk : k < n) :
    (s.setDataRegs a n v).reg (a + 4 * k) = BitVec.ofNat 32 (bitsOf v (32 * k + 31) (32 * k)) := by
  induction n with
  | zero => omega
  | succ n ih =>
    rw [State.setDataRegs_succ, State.reg_wrW]
    by_cases h : k = n
    · rw [if_pos (by rw [h]), h]
    · rw [if_neg (by omega), ih (by omega)]

theorem State.reg_setDataRegs_ne (s : State) (a n v b : Nat) (h : ∀ k, k < n → b ≠ a + 4 * k) :
    (s.setDataRegs a n v).reg b = s.reg b := by
  induction n with
  | zero => rfl
  | succ n ih =>
    rw [State.setDataRegs_succ, State.reg_wrW, if_neg (h n (by omega)), ih fun k hk => h k (by omega)]

/-- The registers outside the run of data registers stay. -/
theorem State.reg_setDataRegs_apart (s : State) (a n v b : Nat) (h : b < a ∨ a + 4 * n ≤ b) :
    (s.setDataRegs a n v).reg b = s.reg b :=
  s.reg_setDataRegs_ne a n v b fun k hk => by omega

theorem State.dataRegs_congr {s t : State} {a n : Nat} (h : ∀ k, k < n → t.reg (a + 4 * k) = s.reg (a + 4 * k)) :
    t.dataRegs a n = s.dataRegs a n := by
  unfold State.dataRegs
  refine List.foldl_ext _ _ _ fun v k hk => ?_
  rw [h k (List.mem_range.mp hk)]

/-- The data registers read as they were set. -/
theorem State.dataRegs_setDataRegs (s : State) (a n v : Nat) : (s.setDataRegs a n v).dataRegs a n = v % 2 ^ (32 * n) := by
  rw [← foldl_pieces 32 v n]
  unfold State.dataRegs
  refine List.foldl_ext _ _ _ fun u k hk => ?_
  rw [State.reg_setDataRegs _ _ _ _ _ (List.mem_range.mp hk), bitsOf_piece v 32 k (by omega), BitVec.toNat_ofNat, Nat.mod_mod]

end Sys2Proof.Machine

namespace Sys2Proof.Machine

/-! ### Memories of entries: what is read after a write -/

theorem State.upset_setUpset (s : State) (k v j : Nat) : (s.setUpset k v).upset j = if j = k then v else s.upset j :=
  tget_tput _ _ _ _ _

theorem State.word_setWord (s : State) (k v j : Nat) : (s.setWord k v).word j = if j = k then v else s.word j :=
  tget_tput _ _ _ _ _

theorem State.editAt_setEdit (s : State) (k v j : Nat) : (s.setEdit k v).editAt j = if j = k then v else s.editAt j :=
  tget_tput _ _ _ _ _

theorem State.seedAt_setSeed (s : State) (q i e x j : Nat) :
    (s.setSeed q i e).seedAt x j = if seedKey x j = seedKey q i then e else s.seedAt x j := tget_tput _ _ _ _ _

theorem State.unit_setUnit (s : State) (q a v x j : Nat) :
    (s.setUnit q a v).unit x j = if sieveKey x j = sieveKey q a then v else s.unit x j := tget_tput _ _ _ _ _

theorem State.meter_setMeter (s : State) (q i v x j : Nat) :
    (s.setMeter q i v).meter x j = if meterKey x j = meterKey q i then v else s.meter x j := tget_tput _ _ _ _ _

theorem State.cpair_setCpair (s : State) (q i : Nat) (v : Nat × Nat) (x j : Nat) :
    (s.setCpair q i v).cpair x j = if pairKey x j = pairKey q i then v else s.cpair x j := tget_tput _ _ _ _ _

/-! ### Reads of an entry into data registers -/

/-- In u the n data registers from d on show v, and u is s but for them and the reply. -/
def EntryShown (s u : State) (d n v : Nat) : Prop :=
  u.dataRegs d n = v % 2 ^ (32 * n) ∧ (∀ a, a < d ∨ d + 4 * n ≤ a → u.reg a = s.reg a) ∧ u = { s with regs := u.regs, reply := .ok }

theorem State.setDataRegs_shows (s : State) (d n v : Nat) : EntryShown s ((s.setDataRegs d n v).answer .ok) d n v :=
  ⟨s.dataRegs_setDataRegs d n v, fun a ha => s.reg_setDataRegs_apart d n v a ha,
    congrArg (State.answer · .ok) (s.setDataRegs_eq d n v)⟩

/-! ### Commands that are granted or refused by one condition -/

theorem refused_of_false {c : Bool} (h : c = false) (a b : State) :
    (if (!c) = true then (.next a : Res) else .next b) = .next a :=
  if_pos (by rw [h]; rfl)

theorem granted_of_true {c : Bool} (h : c = true) (a b : State) :
    (if (!c) = true then (.next a : Res) else .next b) = .next b :=
  if_neg (by rw [h]; decide)

theorem exec_mcWrite (p : Pipe) (s : State) : exec (.mcWrite p) s = execMcWrite p s := rfl
theorem exec_mcRead (p : Pipe) (s : State) : exec (.mcRead p) s = execMcRead p s := rfl
theorem exec_edWrite (t : Tailrace) (s : State) : exec (.edWrite t) s = execEdWrite t s := rfl
theorem exec_edRead (t : Tailrace) (s : State) : exec (.edRead t) s = execEdRead t s := rfl
theorem exec_seedEntWrite (q : Quad) (path : Bool) (s : State) : exec (.seedEntWrite q path) s = execSeedEntWrite q path s := rfl
theorem exec_seedEntRead (q : Quad) (s : State) : exec (.seedEntRead q) s = execSeedEntRead q s := rfl
theorem exec_sievEntWrite (q : Quad) (path : Bool) (s : State) : exec (.sievEntWrite q path) s = execSievEntWrite q path s := rfl
theorem exec_sievEntClear (q : Quad) (path : Bool) (s : State) : exec (.sievEntClear q path) s = execSievEntClear q path s := rfl
theorem exec_sievEntRead (q : Quad) (s : State) : exec (.sievEntRead q) s = execSievEntRead q s := rfl
theorem exec_seedMtrWrite (q : Quad) (s : State) : exec (.seedMtrWrite q) s = execSeedMtrWrite q s := rfl
theorem exec_seedMtrRead (q : Quad) (s : State) : exec (.seedMtrRead q) s = execSeedMtrRead q s := rfl
theorem exec_seedCntRead (q : Quad) (s : State) : exec (.seedCntRead q) s = .next (s.seedCnt q false) := rfl
theorem exec_seedCntReadClear (q : Quad) (s : State) : exec (.seedCntReadClear q) s = .next (s.seedCnt q true) := rfl
theorem exec_weirGrpWrite (s : State) : exec .weirGrpWrite s = execWeirGrpWrite s := rfl
theorem exec_weirGrpRead (s : State) : exec .weirGrpRead s = execWeirGrpRead s := rfl

/-! ### Control stores and edit memories (R143, Table 7.16) -/

theorem State.setWord_writes (s : State) (k v : Nat) : ((s.setWord k v).answer .ok).word k = v ∧
    (∀ j, j ≠ k → ((s.setWord k v).answer .ok).word j = s.word j) ∧ ((s.setWord k v).answer .ok).upset (upsetWord k) = 0 ∧
    (s.setWord k v).answer .ok = { s with
      micro := ((s.setWord k v).answer .ok).micro, upsets := ((s.setWord k v).answer .ok).upsets, reply := .ok } :=
  ⟨(s.word_setWord k v k).trans (if_pos rfl), fun j hj => (s.word_setWord k v j).trans (if_neg hj),
    (State.upset_setUpset { s with micro := { s.micro with words := tput (fun _ => 0) s.micro.words k v } } (upsetWord k) 0
      (upsetWord k)).trans (if_pos rfl), rfl⟩

theorem mcWrite_writes {p : Pipe} {s : State} (h : s.storeOk p (s.rd (B.PIPE p) R.MC_ADDR_BANK) = true) :
    Gives (.mcWrite p) s fun u => u.word (s.mcKey p) = s.dataRegs (B.PIPE p + R.MC_DATA_DATA.off) 6 ∧
      (∀ j, j ≠ s.mcKey p → u.word j = s.word j) ∧ u.upset (upsetWord (s.mcKey p)) = 0 ∧
      u = { s with micro := u.micro, upsets := u.upsets, reply := .ok } :=
  ⟨_, (exec_mcWrite p s).trans (granted_of_true h _ _), s.setWord_writes _ _⟩

theorem mcRead_shows {p : Pipe} {s : State} (h : s.storeOk p (s.rd (B.PIPE p) R.MC_ADDR_BANK) = true) :
    Gives (.mcRead p) s fun u => EntryShown s u (B.PIPE p + R.MC_DATA_DATA.off) 6 (s.word (s.mcKey p)) :=
  ⟨_, (exec_mcRead p s).trans (granted_of_true h _ _), s.setDataRegs_shows _ _ _⟩

theorem mcEntry_refused {p : Pipe} {s : State} (h : s.storeOk p (s.rd (B.PIPE p) R.MC_ADDR_BANK) = false) :
    exec (.mcWrite p) s = .next (s.answer .busError) ∧ exec (.mcRead p) s = .next (s.answer .busError) :=
  ⟨(exec_mcWrite p s).trans (refused_of_false h _ _), (exec_mcRead p s).trans (refused_of_false h _ _)⟩

theorem State.setEdit_writes (s : State) (k v : Nat) : ((s.setEdit k v).answer .ok).editAt k = v ∧
    (∀ j, j ≠ k → ((s.setEdit k v).answer .ok).editAt j = s.editAt j) ∧
    (s.setEdit k v).answer .ok = { s with micro := ((s.setEdit k v).answer .ok).micro, reply := .ok } :=
  ⟨(s.editAt_setEdit k v k).trans (if_pos rfl), fun j hj => (s.editAt_setEdit k v j).trans (if_neg hj), rfl⟩

theorem edWrite_writes {t : Tailrace} {s : State} (h : s.edOk t = true) :
    Gives (.edWrite t) s fun u => u.editAt (s.edKey t) = s.dataRegs (B.TLR t + R.ED_DATA_DATA.off) 2 ∧
      (∀ j, j ≠ s.edKey t → u.editAt j = s.editAt j) ∧ u = { s with micro := u.micro, reply := .ok } :=
  ⟨_, (exec_edWrite t s).trans (granted_of_true h _ _), s.setEdit_writes _ _⟩

theorem edRead_shows {t : Tailrace} {s : State} (h : s.edOk t = true) :
    Gives (.edRead t) s fun u => EntryShown s u (B.TLR t + R.ED_DATA_DATA.off) 2 (s.editAt (s.edKey t)) :=
  ⟨_, (exec_edRead t s).trans (granted_of_true h _ _), s.setDataRegs_shows _ _ _⟩

theorem edEntry_refused {t : Tailrace} {s : State} (h : s.edOk t = false) :
    exec (.edWrite t) s = .next (s.answer .busError) ∧ exec (.edRead t) s = .next (s.answer .busError) :=
  ⟨(exec_edWrite t s).trans (refused_of_false h _ _), (exec_edRead t s).trans (refused_of_false h _ _)⟩

/-! ### Seed-table entries (R143, R195) -/

theorem State.setSeed_writes (s : State) (q i e : Nat) : ((s.setSeed q i e).answer .ok).seedAt q i = e ∧
    (∀ x j, seedKey x j ≠ seedKey q i → ((s.setSeed q i e).answer .ok).seedAt x j = s.seedAt x j) ∧
    ((s.setSeed q i e).answer .ok).tbl.master = s.tbl.master ∧ ((s.setSeed q i e).answer .ok).tbl.version = s.tbl.version ∧
    (s.setSeed q i e).answer .ok = { s with
      tbl := ((s.setSeed q i e).answer .ok).tbl, upsets := ((s.setSeed q i e).answer .ok).upsets, reply := .ok } :=
  ⟨(s.seedAt_setSeed q i e q i).trans (if_pos rfl), fun x j hj => (s.seedAt_setSeed q i e x j).trans (if_neg hj), rfl, rfl, rfl⟩

theorem seedEntWrite_writes {q : Quad} {path : Bool} {s : State} (h : s.rawTableOk q path = true) :
    Gives (.seedEntWrite q path) s fun u =>
      u.seedAt q (s.rd (B.SEED q) R.SEED_ENT_ADDR_INDEX) = setBits (s.dataRegs (B.SEED q + R.SEED_ENT_DATA_DATA.off) 6) 184 160 0 ∧
      (∀ x j, seedKey x j ≠ seedKey q (s.rd (B.SEED q) R.SEED_ENT_ADDR_INDEX) → u.seedAt x j = s.seedAt x j) ∧
      u.tbl.master = s.tbl.master ∧ u.tbl.version = s.tbl.version ∧
      u = { s with tbl := u.tbl, upsets := u.upsets, reply := .ok } :=
  ⟨_, (exec_seedEntWrite q path s).trans (granted_of_true h _ _), s.setSeed_writes _ _ _⟩

theorem seedEntRead_shows {q : Quad} {s : State} (h : s.domOn (domQuad q) = true) : Gives (.seedEntRead q) s fun u =>
    EntryShown s u (B.SEED q + R.SEED_ENT_DATA_DATA.off) 6 (s.seedAt q (s.rd (B.SEED q) R.SEED_ENT_ADDR_INDEX)) :=
  ⟨_, (exec_seedEntRead q s).trans (granted_of_true h _ _), s.setDataRegs_shows _ _ _⟩

/-! ### Sieve entries (R181) -/

/-- Unit k of a Sieve entry. -/
def sieveUnit (valid : Bool) (action value mask k : Nat) : Nat :=
  bitsOf value (80 * k + 79) (80 * k) + bitsOf mask (80 * k + 79) (80 * k) * 2 ^ 80
    + (if k = 0 then action % 2 ^ 32 * 2 ^ 160 + bit valid * 2 ^ 192 else 0)

theorem sieveUnit_value (valid : Bool) (action value mask k : Nat) :
    Sieve.value (sieveUnit valid action value mask k) = bitsOf value (80 * k + 79) (80 * k) := by
  have hv := bitsOf_lt value (80 * k + 79) (80 * k)
  rw [show 80 * k + 79 + 1 - 80 * k = 80 by omega] at hv
  unfold Sieve.value sieveUnit
  generalize bitsOf value _ _ = a at hv ⊢
  generalize bitsOf mask _ _ = b
  unfold bitsOf
  split <;> omega

theorem sieveUnit_mask (valid : Bool) (action value mask k : Nat) :
    Sieve.mask (sieveUnit valid action value mask k) = bitsOf mask (80 * k + 79) (80 * k) := by
  have hv := bitsOf_lt value (80 * k + 79) (80 * k)
  have hm := bitsOf_lt mask (80 * k + 79) (80 * k)
  rw [show 80 * k + 79 + 1 - 80 * k = 80 by omega] at hv hm
  unfold Sieve.mask sieveUnit
  generalize bitsOf value _ _ = a at hv ⊢
  generalize bitsOf mask _ _ = b at hm ⊢
  unfold bitsOf
  split <;> omega

theorem sieveUnit_first (valid : Bool) (action value mask : Nat) :
    Sieve.action (sieveUnit valid action value mask 0) = action % 2 ^ 32 ∧
    Sieve.valid (sieveUnit valid action value mask 0) = valid := by
  have hv := bitsOf_lt value 79 0
  have hm := bitsOf_lt mask 79 0
  unfold Sieve.action Sieve.valid sieveUnit
  rw [if_pos rfl, Nat.mul_zero, Nat.zero_add]
  generalize bitsOf value _ _ = a at hv ⊢
  generalize bitsOf mask _ _ = b at hm ⊢
  unfold bitsOf bitOf
  cases valid
  · refine ⟨by simp only [bit, Bool.false_eq_true, if_false]; omega, beq_eq_false_iff_ne.mpr ?_⟩
    simp only [bit, Bool.false_eq_true, if_false]; omega
  · refine ⟨by simp only [bit, if_true]; omega, beq_iff_eq.mpr ?_⟩
    simp only [bit, if_true]; omega

theorem State.writeEntry_succ (s : State) (q a w : Nat) (valid : Bool) (action value mask : Nat) :
    s.writeEntry q a (w + 1) valid action value mask =
      (s.writeEntry q a w valid action value mask).setUnit q (a + w) (sieveUnit valid action value mask w) := by
  unfold State.writeEntry
  rw [List.range_succ, List.foldl_append]
  rfl

theorem State.writeEntry_eq (s : State) (q a w : Nat) (valid : Bool) (action value mask : Nat) :
    s.writeEntry q a w valid action value mask = { s with
      tbl := (s.writeEntry q a w valid action value mask).tbl, upsets := (s.writeEntry q a w valid action value mask).upsets } := by
  induction w with
  | zero => rfl
  | succ w ih =>
    rw [State.writeEntry_succ]
    generalize s.writeEntry q a w valid action value mask = u at ih ⊢
    rw [ih]
    rfl

theorem State.unit_writeEntry (s : State) (q a w : Nat) (valid : Bool) (action value mask k : Nat) (hk : k < w) :
    (s.writeEntry q a w valid action value mask).unit q (a + k) = sieveUnit valid action value mask k := by
  induction w with
  | zero => omega
  | succ w ih =>
    rw [State.writeEntry_succ, State.unit_setUnit]
    by_cases h : k = w
    · rw [if_pos (by rw [h]), h]
    · rw [if_neg (by unfold sieveKey; omega), ih (by omega)]

theorem State.unit_writeEntry_ne (s : State) (q a w : Nat) (valid : Bool) (action value mask x j : Nat)
    (h : ∀ k, k < w → sieveKey x j ≠ sieveKey q (a + k)) :
    (s.writeEntry q a w valid action value mask).unit x j = s.unit x j := by
  induction w with
  | zero => rfl
  | succ w ih =>
    rw [State.writeEntry_succ, State.unit_setUnit, if_neg (h w (by omega)), ih fun k hk => h k (by omega)]

theorem State.entryValue_writeEntry (s : State) (q a w : Nat) (valid : Bool) (action value mask : Nat) :
    (s.writeEntry q a w valid action value mask).entryValue q a w = value % 2 ^ (80 * w) := by
  rw [← foldl_pieces 80 value w]
  unfold State.entryValue
  refine List.foldl_ext _ _ _ fun u k hk => ?_
  rw [State.unit_writeEntry _ _ _ _ _ _ _ _ _ (List.mem_range.mp hk), sieveUnit_value, bitsOf_piece value 80 k (by omega)]

theorem State.entryMask_writeEntry (s : State) (q a w : Nat) (valid : Bool) (action value mask : Nat) :
    (s.writeEntry q a w valid action value mask).entryMask q a w = mask % 2 ^ (80 * w) := by
  rw [← foldl_pieces 80 mask w]
  unfold State.entryMask
  refine List.foldl_ext _ _ _ fun u k hk => ?_
  rw [State.unit_writeEntry _ _ _ _ _ _ _ _ _ (List.mem_range.mp hk), sieveUnit_mask, bitsOf_piece mask 80 k (by omega)]

theorem State.sievWidth_pos (s : State) (q : Nat) : 0 < s.sievWidth q := Nat.two_pow_pos _

/-- The condition under which a Sieve entry is not written. -/
theorem sievRefuses_iff (s : State) (q : Nat) (path : Bool) :
    (!s.rawTableOk q path || decide (s.sievAddr q % s.sievWidth q ≠ 0)) = true ↔
      s.rawTableOk q path = false ∨ s.sievAddr q % s.sievWidth q ≠ 0 := by
  simp

theorem sievEntWrite_writes {q : Quad} {path : Bool} {s : State} (h : s.rawTableOk q path = true)
    (ha : s.sievAddr q % s.sievWidth q = 0) : Gives (.sievEntWrite q path) s fun u =>
      u.entryValue q (s.sievAddr q) (s.sievWidth q) = s.dataRegs (B.SIEV q + R.SIEV_ENT_VAL_VAL.off) 10 % 2 ^ (80 * s.sievWidth q) ∧
      u.entryMask q (s.sievAddr q) (s.sievWidth q) = s.dataRegs (B.SIEV q + R.SIEV_ENT_MSK_MSK.off) 10 % 2 ^ (80 * s.sievWidth q) ∧
      Sieve.valid (u.unit q (s.sievAddr q)) = s.flag (B.SIEV q) R.SIEV_ENT_CTRL_VALID ∧
      Sieve.action (u.unit q (s.sievAddr q)) = s.rd (B.SIEV q) R.SIEV_ENT_ACTION_ACTION ∧
      (∀ x j, (∀ k, k < s.sievWidth q → sieveKey x j ≠ sieveKey q (s.sievAddr q + k)) → u.unit x j = s.unit x j) ∧
      u = { s with tbl := u.tbl, upsets := u.upsets, reply := .ok } := by
  refine ⟨_, (exec_sievEntWrite q path s).trans (if_neg (by rw [sievRefuses_iff]; simp [h, ha])), State.entryValue_writeEntry _ _ _ _ _ _ _ _,
    State.entryMask_writeEntry _ _ _ _ _ _ _ _, ?_, ?_, fun x j => State.unit_writeEntry_ne _ _ _ _ _ _ _ _ x j, ?_⟩
  · exact (congrArg _ (State.unit_writeEntry _ _ _ _ _ _ _ _ 0 (s.sievWidth_pos q))).trans (sieveUnit_first _ _ _ _).2
  · refine (congrArg _ (State.unit_writeEntry _ _ _ _ _ _ _ _ 0 (s.sievWidth_pos q))).trans ((sieveUnit_first _ _ _ _).1.trans ?_)
    exact Nat.mod_eq_of_lt (s.rd_lt (B.SIEV q) R.SIEV_ENT_ACTION_ACTION)
  · exact congrArg (State.answer · .ok) (s.writeEntry_eq q _ _ _ _ _ _)

theorem State.setUnit_writes (s : State) (q a v : Nat) : ((s.setUnit q a v).answer .ok).unit q a = v ∧
    (∀ x j, sieveKey x j ≠ sieveKey q a → ((s.setUnit q a v).answer .ok).unit x j = s.unit x j) ∧
    (s.setUnit q a v).answer .ok = { s with
      tbl := ((s.setUnit q a v).answer .ok).tbl, upsets := ((s.setUnit q a v).answer .ok).upsets, reply := .ok } :=
  ⟨(s.unit_setUnit q a v q a).trans (if_pos rfl), fun x j hj => (s.unit_setUnit q a v x j).trans (if_neg hj), Eq.refl _⟩

/-- The VALID bit of a unit is cleared, and its value stays. -/
theorem sieveCleared (v : Nat) : Sieve.valid (setBits v 192 192 0) = false ∧ Sieve.value (setBits v 192 192 0) = Sieve.value v :=
  ⟨(bitOf_setBits_bit v 192 192 false).trans (if_pos rfl), bitsOf_setBits_ne v 192 192 0 79 0 (by omega) (by omega)⟩

theorem State.clearEntry_clears (s : State) (q a : Nat) : Sieve.valid (((s.clearEntry q a).answer .ok).unit q a) = false ∧
    Sieve.value (((s.clearEntry q a).answer .ok).unit q a) = Sieve.value (s.unit q a) ∧
    (∀ x j, sieveKey x j ≠ sieveKey q a → ((s.clearEntry q a).answer .ok).unit x j = s.unit x j) ∧
    (s.clearEntry q a).answer .ok = { s with
      tbl := ((s.clearEntry q a).answer .ok).tbl, upsets := ((s.clearEntry q a).answer .ok).upsets, reply := .ok } := by
  obtain ⟨hvalid, hvalue⟩ := sieveCleared (s.unit q a)
  unfold State.clearEntry
  generalize setBits (s.unit q a) 192 192 0 = v at hvalid hvalue ⊢
  obtain ⟨hu, hothers, hrest⟩ := s.setUnit_writes q a v
  exact ⟨(congrArg _ hu).trans hvalid, (congrArg _ hu).trans hvalue, hothers, hrest⟩

theorem exec_sievEntClear_of_ok {q : Quad} {path : Bool} {s : State} (h : s.rawTableOk q path = true)
    (ha : s.sievAddr q % s.sievWidth q = 0) :
    exec (.sievEntClear q path) s = .next ((s.clearEntry q (s.sievAddr q)).answer .ok) := by
  rw [exec_sievEntClear, execSievEntClear, if_neg (by rw [sievRefuses_iff]; simp [h, ha])]

theorem sievEntry_refused {q : Quad} {path : Bool} {s : State} (h : s.rawTableOk q path = false ∨ s.sievAddr q % s.sievWidth q ≠ 0) :
    exec (.sievEntWrite q path) s = .next (s.answer .busError) ∧ exec (.sievEntClear q path) s = .next (s.answer .busError) :=
  ⟨(exec_sievEntWrite q path s).trans (if_pos ((sievRefuses_iff s q path).mpr h)),
    (exec_sievEntClear q path s).trans (if_pos ((sievRefuses_iff s q path).mpr h))⟩

/-- The staging registers of the Sieve show an entry: value v, mask m, VALID b, action x. -/
def State.showSieve (s : State) (q v m : Nat) (b : Bool) (x : Nat) : State :=
  (((s.setDataRegs (B.SIEV q + R.SIEV_ENT_VAL_VAL.off) 10 v).setDataRegs (B.SIEV q + R.SIEV_ENT_MSK_MSK.off) 10 m).wrB (B.SIEV q)
    R.SIEV_ENT_CTRL_VALID b).wr (B.SIEV q) R.SIEV_ENT_ACTION_ACTION x

/-- Changes of registers alone, one after another. -/
theorem State.regs_trans {s t u : State} (h : t = { s with regs := t.regs }) (k : u = { t with regs := u.regs }) :
    u = { s with regs := u.regs } := k.trans (by rw [h])

theorem State.setReg_regs_only (s : State) (a : Nat) (v : Word) : s.setReg a v = { s with regs := (s.setReg a v).regs } := Eq.refl _

theorem State.wr_regs_only (s : State) (b : Nat) (f : RegField) (v : Nat) : s.wr b f v = { s with regs := (s.wr b f v).regs } :=
  s.setReg_regs_only _ _

theorem State.wrB_regs_only (s : State) (b : Nat) (f : RegField) (v : Bool) : s.wrB b f v = { s with regs := (s.wrB b f v).regs } :=
  s.setReg_regs_only _ _

theorem State.showSieve_eq (s : State) (q v m : Nat) (b : Bool) (x : Nat) :
    s.showSieve q v m b x = { s with regs := (s.showSieve q v m b x).regs } := by
  unfold State.showSieve
  exact State.regs_trans (State.regs_trans (State.regs_trans (s.setDataRegs_eq _ 10 v) (State.setDataRegs_eq _ _ 10 m))
    (State.wrB_regs_only _ _ _ _)) (State.wr_regs_only _ _ _ _)

theorem State.showSieve_shows (s : State) (q v m : Nat) (b : Bool) (x : Nat) :
    (s.showSieve q v m b x).dataRegs (B.SIEV q + R.SIEV_ENT_VAL_VAL.off) 10 = v % 2 ^ 320 ∧
    (s.showSieve q v m b x).dataRegs (B.SIEV q + R.SIEV_ENT_MSK_MSK.off) 10 = m % 2 ^ 320 ∧
    (s.showSieve q v m b x).flag (B.SIEV q) R.SIEV_ENT_CTRL_VALID = b ∧
    (s.showSieve q v m b x).rd (B.SIEV q) R.SIEV_ENT_ACTION_ACTION = x % 2 ^ 32 := by
  unfold State.showSieve
  have hval := s.dataRegs_setDataRegs (B.SIEV q + R.SIEV_ENT_VAL_VAL.off) 10 v
  have hmsk := (s.setDataRegs (B.SIEV q + R.SIEV_ENT_VAL_VAL.off) 10 v).dataRegs_setDataRegs (B.SIEV q + R.SIEV_ENT_MSK_MSK.off) 10 m
  rw [show 32 * 10 = 320 from rfl] at hval hmsk
  refine ⟨?_, ?_, ?_, ?_⟩
  · refine (State.dataRegs_congr fun k hk => ?_).trans hval
    simp only [R.SIEV_ENT_VAL_VAL]
    rw [State.reg_wr _ _ _ _ _ (by simp only [R.SIEV_ENT_ACTION_ACTION]; omega),
      State.reg_wrB _ _ _ _ _ (by simp only [R.SIEV_ENT_CTRL_VALID]; omega),
      State.reg_setDataRegs_apart _ _ _ _ _ (by simp only [R.SIEV_ENT_MSK_MSK]; omega)]
  · refine (State.dataRegs_congr fun k hk => ?_).trans hmsk
    simp only [R.SIEV_ENT_MSK_MSK]
    rw [State.reg_wr _ _ _ _ _ (by simp only [R.SIEV_ENT_ACTION_ACTION]; omega),
      State.reg_wrB _ _ _ _ _ (by simp only [R.SIEV_ENT_CTRL_VALID]; omega)]
  · rw [State.flag_wr_ne _ _ _ _ _ _ (by decide) (by decide) (.inl (by simp only [R.SIEV_ENT_ACTION_ACTION, R.SIEV_ENT_CTRL_VALID]; omega)),
      State.flag_wrB_same _ _ _ _ (by decide) (by decide)]
  · exact State.rd_wr_same _ _ _ _ (by decide) (by decide)

/-- A READ of the Sieve shows the entry at ADDR in the staging registers. -/
theorem exec_sievEntRead_of_on {q : Quad} {s : State} (h : s.domOn (domQuad q) = true) : exec (.sievEntRead q) s =
    .next ((s.showSieve q (s.entryValue q (s.sievAddr q) (s.sievWidth q)) (s.entryMask q (s.sievAddr q) (s.sievWidth q))
      (Sieve.valid (s.unit q (s.sievAddr q))) (Sieve.action (s.unit q (s.sievAddr q)))).answer .ok) := by
  have hunit (v m : Nat) : ((s.setDataRegs (B.SIEV q + R.SIEV_ENT_VAL_VAL.off) 10 v).setDataRegs
      (B.SIEV q + R.SIEV_ENT_MSK_MSK.off) 10 m).unit q (s.sievAddr q) = s.unit q (s.sievAddr q) := by
    unfold State.unit
    rw [State.regs_trans (s.setDataRegs_eq _ 10 v) (State.setDataRegs_eq _ _ 10 m)]
  rw [exec_sievEntRead, execSievEntRead, if_neg (by rw [h]; decide)]
  simp only [hunit]
  rfl

@[simp] theorem State.dataRegs_answer (s : State) (r : Reply) (a n : Nat) : (s.answer r).dataRegs a n = s.dataRegs a n := rfl

@[simp] theorem State.flag_answer (s : State) (r : Reply) (b : Nat) (f : RegField) : (s.answer r).flag b f = s.flag b f := rfl

@[simp] theorem State.rd_answer (s : State) (r : Reply) (b : Nat) (f : RegField) : (s.answer r).rd b f = s.rd b f := rfl

theorem sieveAction_lt (v : Nat) : Sieve.action v < 2 ^ 32 := bitsOf_lt v 191 160

theorem sievEntRead_shows {q : Quad} {s : State} (h : s.domOn (domQuad q) = true) : Gives (.sievEntRead q) s fun u =>
    u.dataRegs (B.SIEV q + R.SIEV_ENT_VAL_VAL.off) 10 = s.entryValue q (s.sievAddr q) (s.sievWidth q) % 2 ^ 320 ∧
    u.dataRegs (B.SIEV q + R.SIEV_ENT_MSK_MSK.off) 10 = s.entryMask q (s.sievAddr q) (s.sievWidth q) % 2 ^ 320 ∧
    u.flag (B.SIEV q) R.SIEV_ENT_CTRL_VALID = Sieve.valid (s.unit q (s.sievAddr q)) ∧
    u.rd (B.SIEV q) R.SIEV_ENT_ACTION_ACTION = Sieve.action (s.unit q (s.sievAddr q)) ∧
    u = { s with regs := u.regs, reply := .ok } := by
  refine ⟨_, exec_sievEntRead_of_on h, ?_⟩
  have hx := sieveAction_lt (s.unit q (s.sievAddr q))
  generalize s.entryValue q _ _ = v
  generalize s.entryMask q _ _ = m
  generalize Sieve.valid _ = b
  generalize Sieve.action _ = x at hx ⊢
  obtain ⟨hv, hm, hf, ha⟩ := s.showSieve_shows q v m b x
  have e := s.showSieve_eq q v m b x
  generalize s.showSieve q _ _ _ _ = t at hv hm hf ha e ⊢
  exact ⟨(t.dataRegs_answer _ _ _).trans hv, (t.dataRegs_answer _ _ _).trans hm, (t.flag_answer _ _ _).trans hf,
    ((t.rd_answer _ _ _).trans ha).trans (Nat.mod_eq_of_lt hx), congrArg (State.answer · .ok) e⟩

/-! ### Meters (R247) -/

/-- Words 2 and 3 of a meter entry are set: the fields of words 0 and 1 stay. -/
theorem bitsOf_meterSet (v tc tp last hi lo : Nat) (h : hi < 128) : bitsOf (Meter.set v tc tp last) hi lo = bitsOf v hi lo := by
  unfold Meter.set
  rw [bitsOf_setBits_ne _ _ _ _ _ _ (.inl (by omega)) (by omega), bitsOf_setBits_ne _ _ _ _ _ _ (.inl (by omega)) (by omega),
    bitsOf_setBits_ne _ _ _ _ _ _ (.inl (by omega)) (by omega), bitsOf_setBits_ne _ _ _ _ _ _ (.inl (by omega)) (by omega)]

theorem meterSet_tc (v tc tp last : Nat) : Meter.tc (Meter.set v tc tp last) = tc % 2 ^ 36 := by
  unfold Meter.tc Meter.set
  rw [bitsOf_setBits_ne _ _ _ _ _ _ (.inl (by omega)) (by omega), bitsOf_setBits_ne _ _ _ _ _ _ (.inr (by omega)) (by omega),
    bitsOf_setBits_ne _ _ _ _ _ _ (.inl (by omega)) (by omega), bitsOf_setBits_same]

theorem meterSet_tp (v tc tp last : Nat) : Meter.tp (Meter.set v tc tp last) = tp % 2 ^ 36 := by
  unfold Meter.tp Meter.set
  rw [bitsOf_setBits_ne _ _ _ _ _ _ (.inr (by omega)) (by omega), bitsOf_setBits_ne _ _ _ _ _ _ (.inr (by omega)) (by omega),
    bitsOf_setBits_same]

theorem meterSet_last (v tc tp last : Nat) (h : last < 2 ^ 56) : Meter.last (Meter.set v tc tp last) = last := by
  unfold Meter.last Meter.set
  rw [bitsOf_setBits_same, bitsOf_setBits_ne _ _ _ _ _ _ (.inl (by omega)) (by omega), bitsOf_setBits_same]
  omega

/-- Words 0 and 1 of a meter entry as a write takes them: reserved bits 0, and the old MODE where the new one is not listed. -/
def meterWords (old w : Nat) : Nat :=
  if bitsOf (setBits (setBits (setBits (w % 2 ^ 128) 59 48 0) 127 120 0) 95 88 0) 63 62 = 3 then
    setBits (setBits (setBits (setBits (w % 2 ^ 128) 59 48 0) 127 120 0) 95 88 0) 63 62 (bitsOf old 63 62)
  else setBits (setBits (setBits (w % 2 ^ 128) 59 48 0) 127 120 0) 95 88 0

theorem State.writeMeter_eq (s : State) (q i w : Nat) : s.writeMeter q i w =
    s.setMeter q i (Meter.set (meterWords (s.meter q i) w) (bitsOf (meterWords (s.meter q i) w) 119 96 * 1024)
      (bitsOf (meterWords (s.meter q i) w) 87 64 * 1024) s.meterNow) := rfl

/-- A field below bit n reads the same in a number cut to n bits. -/
theorem bitsOf_mod_two_pow (v hi lo n : Nat) (h : hi < n) : bitsOf (v % 2 ^ n) hi lo = bitsOf v hi lo := by
  refine Nat.eq_of_testBit_eq fun i => ?_
  unfold bitsOf
  simp only [Nat.testBit_mod_two_pow, Nat.testBit_div_two_pow]
  by_cases hi' : i < hi + 1 - lo
  · rw [decide_eq_true (show i + lo < n by omega)]; rfl
  · rw [decide_eq_false hi']; rfl

/-- A field that lies between the reserved bits is taken as written. -/
theorem bitsOf_reservedCleared (w hi lo : Nat) (hh : hi < 120) (h1 : hi < 48 ∨ 59 < lo) (h2 : hi < 88 ∨ 95 < lo) :
    bitsOf (setBits (setBits (setBits (w % 2 ^ 128) 59 48 0) 127 120 0) 95 88 0) hi lo = bitsOf w hi lo := by
  rw [bitsOf_setBits_ne _ _ _ _ _ _ h2 (by omega), bitsOf_setBits_ne _ _ _ _ _ _ (.inl hh) (by omega),
    bitsOf_setBits_ne _ _ _ _ _ _ h1 (by omega), bitsOf_mod_two_pow _ _ _ _ (by omega)]

theorem bitsOf_meterWords (old w hi lo : Nat) (hh : hi < 120) (h1 : hi < 48 ∨ 59 < lo) (h2 : hi < 88 ∨ 95 < lo)
    (h3 : hi < 62 ∨ 63 < lo) : bitsOf (meterWords old w) hi lo = bitsOf w hi lo := by
  unfold meterWords
  split
  · rw [bitsOf_setBits_ne _ _ _ _ _ _ h3 (by omega), bitsOf_reservedCleared w hi lo hh h1 h2]
  · exact bitsOf_reservedCleared w hi lo hh h1 h2

theorem meterWords_mode (old w : Nat) :
    bitsOf (meterWords old w) 63 62 = if bitsOf w 63 62 = 3 then bitsOf old 63 62 else bitsOf w 63 62 := by
  unfold meterWords
  rw [bitsOf_reservedCleared w 63 62 (by omega) (by omega) (by omega)]
  split
  · rw [bitsOf_setBits_same]
    exact Nat.mod_eq_of_lt (bitsOf_lt old 63 62)
  · exact bitsOf_reservedCleared w 63 62 (by omega) (by omega) (by omega)

theorem State.meterNow_lt (s : State) : s.meterNow < 2 ^ 56 := bitsOf_lt s.timeWord 61 6

/-- In u meter i of quadrant q has been written with words 0 and 1 from w: its buckets are full, and its time is the present. -/
structure MeterWritten (s u : State) (q i w : Nat) : Prop where
  rates : bitsOf (u.meter q i) 47 0 = bitsOf w 47 0
  flags : bitsOf (u.meter q i) 61 60 = bitsOf w 61 60
  pbs : bitsOf (u.meter q i) 87 64 = bitsOf w 87 64
  cbs : bitsOf (u.meter q i) 119 96 = bitsOf w 119 96
  mode : bitsOf (u.meter q i) 63 62 = if bitsOf w 63 62 = 3 then bitsOf (s.meter q i) 63 62 else bitsOf w 63 62
  tc : Meter.tc (u.meter q i) = 1024 * bitsOf w 119 96
  tp : Meter.tp (u.meter q i) = 1024 * bitsOf w 87 64
  last : Meter.last (u.meter q i) = s.meterNow
  others : ∀ x j, meterKey x j ≠ meterKey q i → u.meter x j = s.meter x j

theorem State.writeMeter_holds (s : State) (q i w : Nat) : MeterWritten s (s.writeMeter q i w) q i w := by
  have hm := (s.meter_setMeter q i (Meter.set (meterWords (s.meter q i) w) (bitsOf (meterWords (s.meter q i) w) 119 96 * 1024)
    (bitsOf (meterWords (s.meter q i) w) 87 64 * 1024) s.meterNow) q i).trans (if_pos rfl)
  have hcbs := bitsOf_meterWords (s.meter q i) w 119 96 (by omega) (by omega) (by omega) (by omega)
  have hpbs := bitsOf_meterWords (s.meter q i) w 87 64 (by omega) (by omega) (by omega) (by omega)
  have hc := bitsOf_lt w 119 96
  have hp := bitsOf_lt w 87 64
  rw [State.writeMeter_eq]
  refine ⟨?_, ?_, ?_, ?_, ?_, ?_, ?_, ?_, fun x j hj => (s.meter_setMeter q i _ x j).trans (if_neg hj)⟩
  all_goals rw [hm]
  · rw [bitsOf_meterSet _ _ _ _ _ _ (by omega)]
    exact bitsOf_meterWords _ _ _ _ (by omega) (by omega) (by omega) (by omega)
  · rw [bitsOf_meterSet _ _ _ _ _ _ (by omega)]
    exact bitsOf_meterWords _ _ _ _ (by omega) (by omega) (by omega) (by omega)
  · rw [bitsOf_meterSet _ _ _ _ _ _ (by omega), hpbs]
  · rw [bitsOf_meterSet _ _ _ _ _ _ (by omega), hcbs]
  · rw [bitsOf_meterSet _ _ _ _ _ _ (by omega), meterWords_mode]
  · rw [meterSet_tc, hcbs]; omega
  · rw [meterSet_tp, hpbs]; omega
  · exact meterSet_last _ _ _ _ s.meterNow_lt

theorem State.setMeter_answer (s : State) (q i v : Nat) (r : Reply) :
    (s.setMeter q i v).answer r = { s with tbl := ((s.setMeter q i v).answer r).tbl, reply := r } := Eq.refl _

theorem MeterWritten.answer {s u : State} {q i w : Nat} (h : MeterWritten s u q i w) (r : Reply) : MeterWritten s (u.answer r) q i w :=
  ⟨h.rates, h.flags, h.pbs, h.cbs, h.mode, h.tc, h.tp, h.last, h.others⟩

theorem exec_seedMtrWrite_of_on {q : Quad} {s : State} (h : s.domOn (domQuad q) = true) : exec (.seedMtrWrite q) s =
    .next ((s.writeMeter q (s.rd (B.SEED q) R.SEED_MTR_ADDR_INDEX) (s.dataRegs (B.SEED q + R.SEED_MTR_DATA_DATA.off) 4)).answer .ok) :=
  by rw [exec_seedMtrWrite, execSeedMtrWrite, if_neg (by rw [h]; decide)]

theorem seedMtrRead_shows {q : Quad} {s : State} (h : s.domOn (domQuad q) = true) : Gives (.seedMtrRead q) s fun u =>
    EntryShown s u (B.SEED q + R.SEED_MTR_DATA_DATA.off) 8 (s.meter q (s.rd (B.SEED q) R.SEED_MTR_ADDR_INDEX)) :=
  ⟨_, (exec_seedMtrRead q s).trans (granted_of_true h _ _), s.setDataRegs_shows _ _ _⟩

theorem seedMtr_refused {q : Quad} {s : State} (h : s.domOn (domQuad q) = false) :
    exec (.seedMtrWrite q) s = .next (s.answer .busError) ∧ exec (.seedMtrRead q) s = .next (s.answer .busError) :=
  ⟨(exec_seedMtrWrite q s).trans (refused_of_false h _ _), (exec_seedMtrRead q s).trans (refused_of_false h _ _)⟩

/-! ### Counter pairs (R154) -/

/-- The data registers show the counter pair that SEED_CNT_ADDR names. -/
abbrev State.showPair (s : State) (q : Nat) : State :=
  s.setDataRegs (B.SEED q + R.SEED_CNT_DATA_DATA.off) 4 ((s.cpair q (s.rd (B.SEED q) R.SEED_CNT_ADDR_INDEX)).1 +
    (s.cpair q (s.rd (B.SEED q) R.SEED_CNT_ADDR_INDEX)).2 * 2 ^ 64)

theorem exec_seedCntRead_of_on {q : Quad} {s : State} (h : s.domOn (domQuad q) = true) :
    exec (.seedCntRead q) s = .next ((s.showPair q).answer .ok) :=
  (exec_seedCntRead q s).trans (congrArg Host.Outcome.next (if_neg (by rw [h]; decide)))

theorem exec_seedCntReadClear_of_on {q : Quad} {s : State} (h : s.domOn (domQuad q) = true) : exec (.seedCntReadClear q) s =
    .next (((s.showPair q).setCpair q (s.rd (B.SEED q) R.SEED_CNT_ADDR_INDEX) (0, 0)).answer .ok) :=
  (exec_seedCntReadClear q s).trans (congrArg Host.Outcome.next (if_neg (by rw [h]; decide)))

theorem seedCnt_refused {q : Quad} {s : State} (h : s.domOn (domQuad q) = false) :
    exec (.seedCntRead q) s = .next (s.answer .busError) ∧ exec (.seedCntReadClear q) s = .next (s.answer .busError) :=
  ⟨(exec_seedCntRead q s).trans (congrArg Host.Outcome.next (if_pos (by rw [h]; rfl))),
    (exec_seedCntReadClear q s).trans (congrArg Host.Outcome.next (if_pos (by rw [h]; rfl)))⟩

theorem seedCntRead_shows {q : Quad} {s : State} (h : s.domOn (domQuad q) = true) : Gives (.seedCntRead q) s fun u =>
    EntryShown s u (B.SEED q + R.SEED_CNT_DATA_DATA.off) 4 ((s.cpair q (s.rd (B.SEED q) R.SEED_CNT_ADDR_INDEX)).1 +
      (s.cpair q (s.rd (B.SEED q) R.SEED_CNT_ADDR_INDEX)).2 * 2 ^ 64) :=
  ⟨_, exec_seedCntRead_of_on h, s.setDataRegs_shows _ _ _⟩

theorem State.setCpair_answer (s : State) (q i : Nat) (v : Nat × Nat) (r : Reply) :
    (s.setCpair q i v).answer r = { s with cpairs := ((s.setCpair q i v).answer r).cpairs, reply := r } := Eq.refl _

theorem State.pairCleared (s : State) (d v q i : Nat) :
    (((s.setDataRegs d 4 v).setCpair q i (0, 0)).answer .ok).dataRegs d 4 = v % 2 ^ (32 * 4) ∧
    (((s.setDataRegs d 4 v).setCpair q i (0, 0)).answer .ok).cpair q i = (0, 0) ∧
    (∀ x j, pairKey x j ≠ pairKey q i → (((s.setDataRegs d 4 v).setCpair q i (0, 0)).answer .ok).cpair x j = s.cpair x j) ∧
    ((s.setDataRegs d 4 v).setCpair q i (0, 0)).answer .ok = { s with
      regs := (((s.setDataRegs d 4 v).setCpair q i (0, 0)).answer .ok).regs,
      cpairs := (((s.setDataRegs d 4 v).setCpair q i (0, 0)).answer .ok).cpairs, reply := .ok } := by
  have hd := s.dataRegs_setDataRegs d 4 v
  have e := s.setDataRegs_eq d 4 v
  generalize s.setDataRegs d 4 v = t at hd e ⊢
  refine ⟨hd, (t.cpair_setCpair q i (0, 0) q i).trans (if_pos rfl),
    fun x j hj => ((t.cpair_setCpair q i (0, 0) x j).trans (if_neg hj)).trans ?_,
    ?_⟩
  · rw [e]
    rfl
  · exact (t.setCpair_answer q i (0, 0) .ok).trans (by rw [e]; rfl)

theorem seedCntReadClear_clears {q : Quad} {s : State} (h : s.domOn (domQuad q) = true) : Gives (.seedCntReadClear q) s fun u =>
    u.dataRegs (B.SEED q + R.SEED_CNT_DATA_DATA.off) 4 = ((s.cpair q (s.rd (B.SEED q) R.SEED_CNT_ADDR_INDEX)).1 +
      (s.cpair q (s.rd (B.SEED q) R.SEED_CNT_ADDR_INDEX)).2 * 2 ^ 64) % 2 ^ (32 * 4) ∧
    u.cpair q (s.rd (B.SEED q) R.SEED_CNT_ADDR_INDEX) = (0, 0) ∧
    (∀ x j, pairKey x j ≠ pairKey q (s.rd (B.SEED q) R.SEED_CNT_ADDR_INDEX) → u.cpair x j = s.cpair x j) ∧
    u = { s with regs := u.regs, cpairs := u.cpairs, reply := .ok } :=
  ⟨_, exec_seedCntReadClear_of_on h, s.pairCleared _ _ _ _⟩

/-! ### Group memory (R143, Table 9.5) -/

/-- The condition under which the group memory is not accessed. -/
theorem grpRefuses_iff (s : State) : (!s.domOn 73 || (!s.flag B.WEIR R.WEIR_GRP_ADDR_MEM &&
    decide (4096 ≤ s.rd B.WEIR R.WEIR_GRP_ADDR_INDEX))) = true ↔
      s.domOn 73 = false ∨ s.flag B.WEIR R.WEIR_GRP_ADDR_MEM = false ∧ 4096 ≤ s.rd B.WEIR R.WEIR_GRP_ADDR_INDEX := by
  simp

/-- The access is granted: the Weir is on, and a group's number lies below 4,096. -/
abbrev State.grpOk (s : State) : Prop :=
  s.domOn 73 = true ∧ (s.flag B.WEIR R.WEIR_GRP_ADDR_MEM = true ∨ s.rd B.WEIR R.WEIR_GRP_ADDR_INDEX < 4096)

theorem State.grpOk.not_refused {s : State} (h : s.grpOk) : ¬ (!s.domOn 73 || (!s.flag B.WEIR R.WEIR_GRP_ADDR_MEM &&
    decide (4096 ≤ s.rd B.WEIR R.WEIR_GRP_ADDR_INDEX))) = true := by
  obtain ⟨hd, hm⟩ := h
  rw [grpRefuses_iff, hd]
  rintro (h | ⟨h, hi⟩)
  · exact absurd h (by decide)
  · rcases hm with hm | hm
    · rw [hm] at h; exact absurd h (by decide)
    · omega

theorem weirGrp_refused {s : State} (h : s.domOn 73 = false ∨
    s.flag B.WEIR R.WEIR_GRP_ADDR_MEM = false ∧ 4096 ≤ s.rd B.WEIR R.WEIR_GRP_ADDR_INDEX) :
    exec .weirGrpWrite s = .next (s.answer .busError) ∧ exec .weirGrpRead s = .next (s.answer .busError) :=
  ⟨(exec_weirGrpWrite s).trans (if_pos ((grpRefuses_iff s).mpr h)), (exec_weirGrpRead s).trans (if_pos ((grpRefuses_iff s).mpr h))⟩

/-- A read shows the entry in WEIR_GRP_DATA. -/
theorem weirGrpRead_shows {s : State} (h : s.grpOk) : Gives .weirGrpRead s fun u =>
    u.rd B.WEIR R.WEIR_GRP_DATA_DATA = (if s.flag B.WEIR R.WEIR_GRP_ADDR_MEM then s.memberEnt (s.rd B.WEIR R.WEIR_GRP_ADDR_INDEX)
      else s.groupEnt (s.rd B.WEIR R.WEIR_GRP_ADDR_INDEX)) % 2 ^ 32 ∧ u = { s with regs := u.regs, reply := .ok } := by
  refine ⟨_, (exec_weirGrpRead s).trans (if_neg h.not_refused), ?_, rfl⟩
  generalize (if s.flag B.WEIR R.WEIR_GRP_ADDR_MEM = true then _ else _) = v
  have hr : ((s.wrW (B.WEIR + R.WEIR_GRP_DATA_DATA.off) v).answer .ok).reg (B.WEIR + R.WEIR_GRP_DATA_DATA.off) = BitVec.ofNat 32 v :=
    s.reg_setReg_same _ _
  unfold State.rd
  rw [hr]
  simp only [R.WEIR_GRP_DATA_DATA, bitsOf, BitVec.toNat_ofNat]
  omega

/-- A write of a group entry keeps its epoch (R230). -/
def grpTakes (old v : Nat) : Nat := bitsOf v 31 16 * 2 ^ 16 + Grp.epoch old * 2 ^ 15 + bitsOf v 6 0

theorem grpTakes_fields (old v : Nat) : Grp.base (grpTakes old v) = bitsOf v 31 16 ∧ Grp.count (grpTakes old v) = bitsOf v 6 0 ∧
    Grp.epoch (grpTakes old v) = Grp.epoch old := by
  have hb := bitsOf_lt v 31 16
  have hc := bitsOf_lt v 6 0
  have he := bitsOf_lt old 15 15
  unfold grpTakes Grp.base Grp.count Grp.epoch
  generalize bitsOf v 31 16 = b at hb ⊢
  generalize bitsOf v 6 0 = c at hc ⊢
  generalize bitsOf old 15 15 = e at he ⊢
  unfold bitsOf
  omega

/-- Entry i of the member memory is v. -/
def State.setMember (s : State) (i v : Nat) : State := s.onWeir fun w => { w with members := tput (fun _ => 0) w.members i v }

/-- Entry i of the group memory is e. -/
def State.setGroup (s : State) (i e : Nat) : State := s.onWeir fun w => { w with groups := tput (fun _ => 0) w.groups i e }

theorem State.setMember_writes (s : State) (i v : Nat) : ((s.setMember i v).answer .ok).memberEnt i = v ∧
    (∀ j, j ≠ i → ((s.setMember i v).answer .ok).memberEnt j = s.memberEnt j) ∧
    ((s.setMember i v).answer .ok).weir.groups = s.weir.groups ∧
    (s.setMember i v).answer .ok = { s with weir := ((s.setMember i v).answer .ok).weir, reply := .ok } :=
  ⟨(tget_tput _ _ _ _ _).trans (if_pos rfl), fun _ hj => (tget_tput _ _ _ _ _).trans (if_neg hj), rfl, rfl⟩

theorem State.setGroup_writes (s : State) (i e : Nat) : ((s.setGroup i e).answer .ok).groupEnt i = e ∧
    (∀ j, j ≠ i → ((s.setGroup i e).answer .ok).groupEnt j = s.groupEnt j) ∧
    ((s.setGroup i e).answer .ok).weir.members = s.weir.members ∧
    (s.setGroup i e).answer .ok = { s with weir := ((s.setGroup i e).answer .ok).weir, reply := .ok } :=
  ⟨(tget_tput _ _ _ _ _).trans (if_pos rfl), fun _ hj => (tget_tput _ _ _ _ _).trans (if_neg hj), rfl, rfl⟩

theorem weirGrpWrite_member {s : State} (hd : s.domOn 73 = true) (hm : s.flag B.WEIR R.WEIR_GRP_ADDR_MEM = true) :
    exec .weirGrpWrite s = .next ((s.setMember (s.rd B.WEIR R.WEIR_GRP_ADDR_INDEX) (s.rd B.WEIR R.WEIR_GRP_DATA_DATA)).answer .ok) := by
  rw [exec_weirGrpWrite, execWeirGrpWrite, if_neg (State.grpOk.not_refused ⟨hd, .inl hm⟩)]
  simp only [hm, if_true]
  rfl

theorem weirGrpWrite_group {s : State} (hd : s.domOn 73 = true) (hm : s.flag B.WEIR R.WEIR_GRP_ADDR_MEM = false)
    (hi : s.rd B.WEIR R.WEIR_GRP_ADDR_INDEX < 4096) : exec .weirGrpWrite s =
      .next ((s.setGroup (s.rd B.WEIR R.WEIR_GRP_ADDR_INDEX) (grpTakes (s.groupEnt (s.rd B.WEIR R.WEIR_GRP_ADDR_INDEX))
        (s.rd B.WEIR R.WEIR_GRP_DATA_DATA))).answer .ok) := by
  rw [exec_weirGrpWrite, execWeirGrpWrite, if_neg (State.grpOk.not_refused ⟨hd, .inr hi⟩)]
  simp only [hm, Bool.false_eq_true, if_false]
  rfl

end Sys2Proof.Machine

namespace Sys2Proof.Machine

/-! ### Entries through registers: the statement O19 -/

theorem seedMtrWrite_writes {q : Quad} {s : State} {i w : Nat} (hi : i = s.rd (B.SEED q) R.SEED_MTR_ADDR_INDEX)
    (hw : w = s.dataRegs (B.SEED q + R.SEED_MTR_DATA_DATA.off) 4) (h : s.domOn (domQuad q) = true) :
    Gives (.seedMtrWrite q) s fun u => MeterWritten s u q i w ∧ u = { s with tbl := u.tbl, reply := .ok } := by
  subst hi hw
  exact ⟨_, exec_seedMtrWrite_of_on h, (s.writeMeter_holds q _ _).answer .ok, s.setMeter_answer q _ _ .ok⟩

theorem weirGrpWrite_writes_member {s : State} (hd : s.domOn 73 = true) (hm : s.flag B.WEIR R.WEIR_GRP_ADDR_MEM = true) :
    Gives .weirGrpWrite s fun u => u.memberEnt (s.rd B.WEIR R.WEIR_GRP_ADDR_INDEX) = s.rd B.WEIR R.WEIR_GRP_DATA_DATA ∧
      (∀ j, j ≠ s.rd B.WEIR R.WEIR_GRP_ADDR_INDEX → u.memberEnt j = s.memberEnt j) ∧ u.weir.groups = s.weir.groups ∧
      u = { s with weir := u.weir, reply := .ok } :=
  ⟨_, weirGrpWrite_member hd hm, s.setMember_writes _ _⟩

theorem weirGrpWrite_writes_group {s : State} (hd : s.domOn 73 = true) (hm : s.flag B.WEIR R.WEIR_GRP_ADDR_MEM = false)
    (hi : s.rd B.WEIR R.WEIR_GRP_ADDR_INDEX < 4096) :
    Gives .weirGrpWrite s fun u =>
      u.groupEnt (s.rd B.WEIR R.WEIR_GRP_ADDR_INDEX) =
        grpTakes (s.groupEnt (s.rd B.WEIR R.WEIR_GRP_ADDR_INDEX)) (s.rd B.WEIR R.WEIR_GRP_DATA_DATA) ∧
      (∀ j, j ≠ s.rd B.WEIR R.WEIR_GRP_ADDR_INDEX → u.groupEnt j = s.groupEnt j) ∧ u.weir.members = s.weir.members ∧
      u = { s with weir := u.weir, reply := .ok } :=
  ⟨_, weirGrpWrite_group hd hm hi, s.setGroup_writes _ _⟩

/-- Settles O19, command by command: each is its grant condition, one write of a table or of registers, and the reply. -/
theorem entryAccess : Obligations.EntryAccess := by
  unfold Obligations.EntryAccess
  refine ⟨?_, ?_, ?_, ?_, ?_, ?_, ?_⟩
  · rintro p s d k rfl rfl
    exact ⟨fun h => ⟨mcWrite_writes h, mcRead_shows h⟩, mcEntry_refused⟩
  · rintro t s d k rfl rfl
    exact ⟨fun h => ⟨edWrite_writes h, edRead_shows h⟩, edEntry_refused⟩
  · rintro q s d i rfl rfl
    exact ⟨fun path => seedEntWrite_writes, fun path h => (exec_seedEntWrite q path s).trans (refused_of_false h _ _),
      seedEntRead_shows, fun h => (exec_seedEntRead q s).trans (refused_of_false h _ _)⟩
  · rintro q s v m a w rfl rfl rfl rfl
    refine ⟨fun path h ha => ⟨sievEntWrite_writes h ha, _, exec_sievEntClear_of_ok h ha, s.clearEntry_clears q _⟩,
      fun path => sievEntry_refused, sievEntRead_shows, fun h => (exec_sievEntRead q s).trans (refused_of_false h _ _)⟩
  · intro q s d i w hd hi hw
    subst hd
    refine ⟨fun h => ⟨?_, ?_⟩, seedMtr_refused⟩
    · obtain ⟨u, hu, hm, hrest⟩ := seedMtrWrite_writes hi hw h
      exact ⟨u, hu, hm.rates, hm.flags, hm.pbs, hm.cbs, hm.mode, hm.tc, hm.tp, hm.last, hm.others, hrest⟩
    · subst hi
      exact seedMtrRead_shows h
  · rintro q s d i rfl rfl
    exact ⟨fun h => ⟨seedCntRead_shows h, seedCntReadClear_clears h⟩, seedCnt_refused⟩
  · rintro s i v mem rfl rfl rfl
    refine ⟨fun hd hm => ⟨weirGrpWrite_writes_member hd hm, ?_⟩, fun hd hm hi => ⟨?_, ?_⟩, weirGrp_refused⟩
    · obtain ⟨u, hu, hshown, hrest⟩ := weirGrpRead_shows ⟨hd, .inl hm⟩
      rw [hm, if_pos rfl] at hshown
      exact ⟨u, hu, hshown, hrest⟩
    · obtain ⟨u, hu, hent, hothers, hmembers, hrest⟩ := weirGrpWrite_writes_group hd hm hi
      obtain ⟨hbase, hcount, hepoch⟩ := grpTakes_fields (s.groupEnt (s.rd B.WEIR R.WEIR_GRP_ADDR_INDEX)) (s.rd B.WEIR R.WEIR_GRP_DATA_DATA)
      exact ⟨u, hu, by rw [hent, hbase], by rw [hent, hcount], by rw [hent, hepoch], hothers, hmembers, hrest⟩
    · obtain ⟨u, hu, hshown, hrest⟩ := weirGrpRead_shows ⟨hd, .inr hi⟩
      rw [hm, if_neg (by decide)] at hshown
      exact ⟨u, hu, hshown, hrest⟩

end Sys2Proof.Machine

namespace Sys2Proof.Machine

/-! ## The Husker's counters (R140) -/

theorem exec_packetParse (h : Headrace) (gen : Option (List Byte)) (bad : List Nat) (s : State) :
    exec (.packetParse h gen bad) s = execPacketParse h gen bad s := rfl

/-- An address in the blocks of the Huskers is no event's but at HUSK_PARSED's offset. -/
theorem eventOf_of_husk {a k : Nat} (hl : 0x10_0000 ≤ a) (hh : a < 0x50_0000) (hw : 8 ≤ (a - 0x10_0000) % 0x10_0000 / 0x1_0000)
    (hw' : (a - 0x10_0000) % 0x10_0000 / 0x1_0000 < 12)
    (hk : 4 * ((a - 0x10_0000) / 0x10_0000) + ((a - 0x10_0000) % 0x10_0000 / 0x1_0000 - 8) = k) :
    eventOf a = if a % 0x1_0000 = C.HUSK_PARSED then some (some k, 1) else none := by
  unfold eventOf
  dsimp only
  rw [if_neg (by omega), if_pos hh, if_neg (by omega), if_neg (by omega), if_pos hw', hk]

theorem eventOf_husk (h : Headrace) {x : Nat} (hx : x < 0x1_0000) :
    eventOf (B.HUSK h + x) = if x = C.HUSK_PARSED then some (some h.val, 1) else none := by
  have hh := h.isLt
  have ha : B.HUSK h + x = 0x18_0000 + h / 4 * 0x10_0000 + h % 4 * 0x1_0000 + x := by simp only [B.HUSK, B.QUAD]; omega
  rw [eventOf_of_husk (k := h.val), show (B.HUSK h + x) % 0x1_0000 = x by omega]
  all_goals omega

/-- The performance counters of a pipeline stand outside the Husker's blocks. -/
theorem huskCnt_ne_pmcCnt (g h : Headrace) {x i : Nat} (hx : x < 0x1_0000) (hi : i < 8) : B.HUSK g + x ≠ pmcCnt (some h.val) i := by
  have hg := g.isLt
  have hh := h.isLt
  simp only [pmcCnt, B.PIPE, if_pos hh, B.HUSK, B.HDR, B.QUAD, C.GATE_PMC_CNT]
  omega

theorem State.flag_count (s : State) (a b : Nat) (f : RegField) : (s.count a).flag b f = s.flag b f := by
  obtain ⟨c, x, e⟩ := s.count_eq a
  rw [e]
  rfl

/-- A count moves its counter, and beside it those of its event. -/
theorem State.cnt_count {s : State} (hz : s.flag B.PMC R.PMC_CTRL_FREEZE = false) {a b : Nat}
    (hp : ∀ p code, eventOf a = some (p, code) → ∀ i, i < pmcNum p → b ≠ pmcCnt p i) :
    (s.count a).cnt b = if b = a then (s.cnt b + 1) % 2 ^ 64 else s.cnt b := by
  have hn : (s.countN a 1).cnt b = if b = a then (s.cnt b + 1) % 2 ^ 64 else s.cnt b := by
    rw [State.countN_of_running hz, State.cnt_setCnt]
    split
    · rename_i e
      rw [e]
    · rfl
  unfold State.count
  dsimp only
  split
  · exact hn
  · rename_i p code he
    exact (State.cnt_event_ne _ p code (hp p code he)).trans hn

/-- A counter of the Husker counts: of its block's counters no other moves. -/
theorem State.cnt_count_husk {s : State} (hz : s.flag B.PMC R.PMC_CTRL_FREEZE = false) (h : Headrace) {x y : Nat}
    (hx : x < 0x1_0000) (hy : y < 0x1_0000) : (s.count (B.HUSK h + x)).cnt (B.HUSK h + y) =
      if y = x then (s.cnt (B.HUSK h + y) + 1) % 2 ^ 64 else s.cnt (B.HUSK h + y) := by
  rw [State.cnt_count hz]
  · by_cases e : y = x
    · rw [if_pos e, if_pos (by rw [e])]
    · rw [if_neg e, if_neg (by omega)]
  · intro p code he i hi
    rw [eventOf_husk h hx] at he
    split at he
    · obtain ⟨rfl, -⟩ := Prod.mk.inj (Option.some.inj he)
      exact huskCnt_ne_pmcCnt h h hy hi
    · exact absurd he (by simp)

/-- In t the counters of headrace h's Husker that `up` names, by their offsets, have counted once since s, and no other has. -/
structure HuskCounted (h : Nat) (up : Nat → Prop) (s t : State) : Prop where
  freeze : t.flag B.PMC R.PMC_CTRL_FREEZE = s.flag B.PMC R.PMC_CTRL_FREEZE
  once : ∀ y, y < 0x1_0000 → up y → t.cnt (B.HUSK h + y) = (s.cnt (B.HUSK h + y) + 1) % 2 ^ 64
  kept : ∀ y, y < 0x1_0000 → ¬ up y → t.cnt (B.HUSK h + y) = s.cnt (B.HUSK h + y)

theorem HuskCounted.of_same {h : Nat} {s t : State} (hz : t.flag B.PMC R.PMC_CTRL_FREEZE = s.flag B.PMC R.PMC_CTRL_FREEZE)
    (hc : ∀ y, y < 0x1_0000 → t.cnt (B.HUSK h + y) = s.cnt (B.HUSK h + y)) : HuskCounted h (fun _ => False) s t :=
  ⟨hz, fun _ _ => False.elim, fun y hy _ => hc y hy⟩

theorem HuskCounted.of_eq {h : Nat} {s t : State} (hr : t.regs = s.regs) (hc : t.cnts = s.cnts) : HuskCounted h (fun _ => False) s t :=
  .of_same (State.flag_congr (State.reg_congr hr _)) fun y _ => by unfold State.cnt; rw [hc]

/-- Counts of different counters, one after another. -/
theorem HuskCounted.trans {h : Nat} {up up' : Nat → Prop} {s t u : State} (a : HuskCounted h up s t) (b : HuskCounted h up' t u)
    (hd : ∀ y, up y → ¬ up' y) : HuskCounted h (fun y => up y ∨ up' y) s u where
  freeze := b.freeze.trans a.freeze
  once y hy := by
    rintro (h1 | h1)
    · rw [b.kept y hy (hd y h1), a.once y hy h1]
    · rw [b.once y hy h1, a.kept y hy fun h2 => hd y h2 h1]
  kept y hy hn := by rw [b.kept y hy fun h1 => hn (.inr h1), a.kept y hy fun h1 => hn (.inl h1)]

theorem HuskCounted.congr {h : Nat} {up up' : Nat → Prop} {s t : State} (a : HuskCounted h up s t) (e : ∀ y, up' y ↔ up y) :
    HuskCounted h up' s t :=
  ⟨a.freeze, fun y hy hu => a.once y hy ((e y).mp hu), fun y hy hn => a.kept y hy fun hu => hn ((e y).mpr hu)⟩

/-- What counts nothing, before or after a count. -/
theorem HuskCounted.after {h : Nat} {up : Nat → Prop} {s t u : State} (a : HuskCounted h (fun _ => False) s t)
    (b : HuskCounted h up t u) : HuskCounted h up s u :=
  (a.trans b fun _ => False.elim).congr fun _ => (iff_of_eq (false_or _)).symm

theorem HuskCounted.before {h : Nat} {up : Nat → Prop} {s t u : State} (a : HuskCounted h up s t)
    (b : HuskCounted h (fun _ => False) t u) : HuskCounted h up s u :=
  (a.trans b fun _ _ => not_false).congr fun _ => (iff_of_eq (or_false _)).symm

theorem HuskCounted.count {s : State} (hz : s.flag B.PMC R.PMC_CTRL_FREEZE = false) (h : Headrace) {x : Nat} (hx : x < 0x1_0000) :
    HuskCounted h (· = x) s (s.count (B.HUSK h + x)) :=
  ⟨s.flag_count _ _ _, fun _ hy e => (State.cnt_count_husk hz h hx hy).trans (if_pos e),
    fun _ hy e => (State.cnt_count_husk hz h hx hy).trans (if_neg e)⟩

/-- A count that a condition makes. -/
theorem HuskCounted.countIf {s : State} (hz : s.flag B.PMC R.PMC_CTRL_FREEZE = false) (h : Headrace) {x : Nat} (hx : x < 0x1_0000)
    (c : Prop) [Decidable c] : HuskCounted h (fun y => c ∧ y = x) s (if c then s.count (B.HUSK h + x) else s) := by
  split
  · rename_i hc
    exact (HuskCounted.count hz h hx).congr fun y => and_iff_right hc
  · rename_i hc
    exact (HuskCounted.of_eq rfl rfl).congr fun y => iff_false_intro fun k => hc k.1

/-! ### A fault of the Husker leaves its counters -/

theorem State.notifyFault_cnts (s : State) (n : Nat) : (s.notifyFault n).cnts = s.cnts := by
  unfold State.notifyFault
  refine List.foldlRecOn (motive := fun t : State => t.cnts = s.cnts) _ _ rfl fun t ht m _ => ?_
  dsimp only
  split
  · obtain ⟨r, x, l, y, b, e⟩ := t.interrupt_eq m 0 (tget (fun _ => 0) t.flt.notify m - 1)
    rw [e]
    exact ht
  · exact ht

theorem State.startWindow_cnts (s : State) (n c : Nat) : (s.startWindow n c).cnts = s.cnts := by
  unfold State.startWindow
  obtain ⟨r, e⟩ := s.wrB_eq (srcBase n) R.FLT_SRC_WIN true
  rw [e]

theorem State.setSticky_cnts (s : State) (n : Nat) (b : Bool) : (s.setSticky n b).cnts = s.cnts := by
  unfold State.setSticky
  rfl

theorem State.capture_cnts (s : State) (n : Nat) : (s.capture n).cnts = s.cnts := by
  unfold State.capture
  dsimp only
  split
  · rw [State.notifyFault_cnts]
    split
    · rw [State.startWindow_cnts, State.setSticky_cnts]
    · rw [State.setSticky_cnts]
  · split
    · rw [State.startWindow_cnts]
    · rfl

theorem State.kcuFree_cnts (s : State) (m : Nat) (b : Bool) : (s.kcuFree m b).cnts = s.cnts := by
  unfold State.kcuFree
  split
  · dsimp only
    split <;> rfl
  · rfl

theorem State.kcuFault_cnts (s : State) (n : Nat) : (s.kcuFault n).cnts = s.cnts := by
  unfold State.kcuFault
  split
  · exact s.kcuFree_cnts 1 true
  · split
    · exact s.kcuFree_cnts 0 true
    · rfl

/-- A fault message counts below the quadrants' blocks. -/
theorem State.cnt_countMsg (s : State) {a : Nat} (ha : 0x10_0000 ≤ a) : (s.count (B.FLT + C.FLT_MSGS)).cnt a = s.cnt a := by
  have hp (i : Nat) (hi : i < pmcNum none) : pmcCnt none i < 0x10_0000 := by
    simp only [pmcCnt, pmcNum, Option.isSome_none, Bool.false_eq_true, if_false, B.PMC, C.PMC_GCNT] at hi ⊢
    omega
  have hm : B.FLT + C.FLT_MSGS < 0x10_0000 := by decide
  rw [State.count_faultMsgs, State.cnt_event_ne _ none 5 fun i hi e => absurd (hp i hi) (by omega)]
  exact s.cnt_countN_ne 1 (by omega)

theorem State.cnt_takeMsg (s : State) (f : FaultMsg) {a : Nat} (ha : 0x10_0000 ≤ a) : (s.takeMsg f).cnt a = s.cnt a := by
  have hq : (s.queueMsg f).cnt a = s.cnt a := by
    refine Eq.trans ?_ (s.cnt_countMsg ha)
    unfold State.queueMsg
    generalize s.count (B.FLT + C.FLT_MSGS) = u
    split
    · rfl
    · unfold State.cnt
      rw [State.capture_cnts]
      rfl
  rw [State.takeMsg_eq_capture]
  unfold State.cnt at hq ⊢
  rw [State.capture_cnts, hq]

theorem huskCnt_le (h x : Nat) : 0x10_0000 ≤ B.HUSK h + x := by simp only [B.HUSK, B.QUAD]; omega

/-- A fault that takes no Drain leaves the Husker's counters. -/
theorem HuskCounted.raise {s : State} (h : Nat) {n : Nat} (kind addr : Nat) (hn : n < 352) (hm : s.mild n) :
    HuskCounted h (fun _ => False) s (s.raise n kind addr) := by
  refine .of_same (State.flag_congr ((s.raise_of_mild kind addr hn hm).1.regs _ (.inr (by decide)))) fun y _ => ?_
  rw [s.raise_eq_of_mild kind addr hn hm]
  unfold State.cnt
  rw [State.kcuFault_cnts]
  exact s.cnt_takeMsg _ (huskCnt_le h y)

end Sys2Proof.Machine

namespace Sys2Proof.Machine

/-! ## What a parse rests on, and how it ends (R132 to R135) -/

theorem State.graphAt_congr {s t : State} (hm : t.micro = s.micro) (h a : Nat) : t.graphAt h a = s.graphAt h a := by
  unfold State.graphAt; rw [hm]

theorem State.upset_congr {s t : State} (hu : t.upsets = s.upsets) (k : Nat) : t.upset k = s.upset k := by
  unfold State.upset; rw [hu]

section congr
variable {s t : State} (hm : t.micro = s.micro) (hu : t.upsets = s.upsets)
include hm hu

theorem State.extracts_congr (h bank : Nat) (data : List Byte) (lim o len : Nat) (l : List Nat) (p : Parse) :
    t.extracts h bank data lim o len l p = s.extracts h bank data lim o len l p := by
  induction l generalizing p with
  | nil => rfl
  | cons i is ih =>
    unfold State.extracts
    simp only [State.upset_congr hu, State.graphAt_congr hm, ih]

theorem State.transition_congr (h bank key : Nat) (l : List Nat) : t.transition h bank key l = s.transition h bank key l := by
  induction l with
  | nil => rfl
  | cons i is ih =>
    unfold State.transition
    simp only [State.upset_congr hu, State.graphAt_congr hm, ih]

theorem State.visit_congr (h bank w : Nat) (data : List Byte) (fuel n o : Nat) (p : Parse) :
    t.visit h bank w data fuel n o p = s.visit h bank w data fuel n o p := by
  induction fuel generalizing n o p with
  | zero => rfl
  | succ fuel ih =>
    unfold State.visit
    simp only [State.upset_congr hu, State.graphAt_congr hm, State.extracts_congr hm hu, State.transition_congr hm hu, ih]

end congr

theorem State.lrActive_congr {s t : State} (hr : t.regs = s.regs) (h : Nat) : t.lrActive h = s.lrActive h := by
  have hreg := State.reg_congr hr
  unfold State.lrActive State.lrMay
  rw [State.flag_congr (hreg _), State.domOn_congr (hreg _), State.mode_congr (hreg _)]

theorem State.huskBank_congr {s t : State} (hr : t.regs = s.regs) (h : Nat) : t.huskBank h = s.huskBank h :=
  State.rd_congr (State.reg_congr hr _)

theorem State.startNode_congr {s t : State} (hr : t.regs = s.regs) (h b : Nat) (o : Origin) : t.startNode h b o = s.startNode h b o := by
  unfold State.startNode
  cases o <;> exact State.rd_congr (State.reg_congr hr _)

/-- A parse rests on the registers, the graph and its parity, and of the packet on its data and its origin. -/
theorem State.parse_congr {s t : State} (hr : t.regs = s.regs) (hm : t.micro = s.micro) (hu : t.upsets = s.upsets) (h : Nat)
    {k k' : Pkt} (hd : k'.data = k.data) (ho : k'.org = k.org) : t.parse h k' = s.parse h k := by
  unfold State.parse State.window
  dsimp only
  rw [State.visit_congr hm hu, State.lrActive_congr hr, State.huskBank_congr hr, State.startNode_congr hr, hd, ho]

/-- What a parse may hand on: an END code of Table 6.7, and a header stack and an inner header that their carry fields hold. -/
structure ParseEnd.Fits (e : ParseEnd) : Prop where
  code : e.code ≤ 8
  stack : e.p.stack.length ≤ 16
  inner : e.p.inner < 16

/-- A parse on its way has room for no more than 16 headers. -/
structure Parse.Fits (p : Parse) : Prop where
  stack : p.stack.length ≤ 16
  inner : p.inner < 16

theorem Parse.Fits.ends {p : Parse} (h : p.Fits) {code : Nat} (hc : code ≤ 8) (bad : Nat) : (ParseEnd.mk code bad p).Fits :=
  ⟨hc, h.stack, h.inner⟩

theorem ParseEnd.Fits.ite {c : Prop} [Decidable c] {a b : ParseEnd} (ha : c → a.Fits) (hb : ¬ c → b.Fits) : (if c then a else b).Fits := by
  split
  · exact ha ‹_›
  · exact hb ‹_›

/-- The extracts of a node leave the header stack and the inner header. -/
theorem State.extracts_ok {s : State} {h bank : Nat} {data : List Byte} {lim o len : Nat} {l : List Nat} {p q : Parse}
    (e : s.extracts h bank data lim o len l p = .ok q) : q.stack = p.stack ∧ q.inner = p.inner := by
  induction l generalizing p with
  | nil =>
    obtain rfl := Except.ok.inj e
    exact ⟨rfl, rfl⟩
  | cons i is ih =>
    unfold State.extracts at e
    dsimp only at e
    split at e
    · exact absurd e (by simp)
    · have k := ih e
      exact k

theorem State.visit_fits (s : State) (h bank w : Nat) (data : List Byte) (fuel n o : Nat) {p : Parse} (hp : p.Fits) :
    (s.visit h bank w data fuel n o p).Fits := by
  induction fuel generalizing n o p with
  | zero => exact hp.ends (by omega) 0
  | succ fuel ih =>
    unfold State.visit
    extract_lets plen lim na node lmin len q key
    refine .ite (fun _ => hp.ends (by omega) _) fun hdepth => ?_
    iterate 8 refine .ite (fun _ => hp.ends (by omega) _) fun _ => ?_
    have hq : q.stack.length ≤ 16 ∧ q.inner < 16 := by
      refine ⟨?_, ?_⟩
      · rw [List.length_append, List.length_singleton]; omega
      · have := hp.inner
        show (if _ then _ else _) < 16
        split <;> omega
    split
    · exact hp.ends (by omega) _
    · rename_i q' he
      obtain ⟨hs, hi⟩ := State.extracts_ok he
      have hfits : q'.Fits := ⟨by rw [hs]; exact hq.1, by rw [hi]; exact hq.2⟩
      split
      · exact hp.ends (by omega) _
      · exact .ite (fun _ => ih _ _ hfits) fun _ => hfits.ends (by split <;> omega) _
      · exact .ite (fun _ => ih _ _ hfits) fun _ => hfits.ends (by split <;> omega) _

theorem State.parse_fits (s : State) (h : Nat) (k : Pkt) : (s.parse h k).Fits :=
  s.visit_fits _ _ _ _ _ _ _ ⟨Nat.zero_le _, Nat.zero_lt_succ _⟩

/-! ## A packet that the Husker takes (R132 to R142) -/

/-- Outside an Ethernet port's frames a packet's time is that of its parse. -/
def Pkt.stamped (k : Pkt) (w : Nat) : Pkt :=
  match k.org with
  | .eth _ => k
  | .plot _ _ _ | .core _ | .survey => { k with time := w }

theorem Pkt.stamped_data (k : Pkt) (w : Nat) : (k.stamped w).data = k.data := by
  unfold Pkt.stamped
  split <;> rfl

theorem Pkt.stamped_org (k : Pkt) (w : Nat) : (k.stamped w).org = k.org := by
  unfold Pkt.stamped
  split
  · rfl
  · rfl
  · rfl
  · rfl

theorem State.onChain_eq (s : State) (k : Pkt) (f : Chain → Chain) : ∃ q, s.onChain k f = { s with qps := q } := by
  unfold State.onChain
  split
  · exact ⟨_, rfl⟩
  · exact ⟨_, rfl⟩

theorem State.chainTaken_eq (s : State) (k : Pkt) : ∃ q, s.chainTaken k = { s with qps := q } := s.onChain_eq k _

theorem State.chainParseDrop_eq (s : State) (k : Pkt) : ∃ q, s.chainParseDrop k = { s with qps := q } := s.onChain_eq k _

/-- The counts of a packet that the Husker takes, and its place in its chain. -/
def State.huskTaken (s : State) (h : Nat) (k : Pkt) (lr : Bool) (code : Nat) : State :=
  let s := (s.count (B.HUSK h + C.HUSK_PARSED)).chainTaken k
  let s := if lr then s.count (B.HUSK h + C.HUSK_LR_PARSED) else s
  if code = 0 then s else s.count (B.HUSK h + C.HUSK_END_BEYOND + 8 * (code - 1))

/-- The fault of a graph entry that failed its parity. -/
def State.graphFault (s : State) (h : Nat) (e : ParseEnd) : State := if e.code = 8 then s.raise (32 + 4 * h) 0 e.bad else s

/-- A parsed packet is handed to G0 with the carry of Table 6.9. -/
def State.huskToken (s : State) (h : Nat) (k : Pkt) (lr : Bool) (e : ParseEnd) : Token :=
  Token.enter k (s.carryOf h k e (2 ^ 15 * bit lr + 2 ^ 14 * bit (s.parseAction h e.code = 2)
    + 2 ^ 13 * bit (s.parseAction h e.code = 3))) (s.huskBank h) lr

/-- A parsed packet is dropped, or handed on. -/
def State.huskActs (s : State) (h : Nat) (k : Pkt) (lr : Bool) (e : ParseEnd) : State :=
  if s.parseAction h e.code = 0 then (s.count (B.HUSK h + C.HUSK_DROPPED)).chainParseDrop k
  else s.setToks h ((s.pipe h).toks ++ [s.huskToken h k lr e])

theorem State.husk_eq (s : State) (h : Nat) (k : Pkt) : s.husk h k =
    ((s.huskTaken h (k.stamped s.timeWord) (s.lrActive h) (s.parse h (k.stamped s.timeWord)).code).graphFault h
      (s.parse h (k.stamped s.timeWord))).huskActs h (k.stamped s.timeWord) (s.lrActive h) (s.parse h (k.stamped s.timeWord)) := by
  unfold State.husk
  rfl

end Sys2Proof.Machine

namespace Sys2Proof.Machine

/-! ### What the Husker counts of a packet -/

theorem State.event_msgq (s : State) (p : Option Nat) (code : Nat) : (s.event p code).flt.msgq = s.flt.msgq := by
  unfold State.event
  split
  · rfl
  · refine List.foldlRecOn (motive := fun t : State => t.flt.msgq = s.flt.msgq) _ _ rfl fun t ht i _ => ?_
    dsimp only
    split
    · split
      · exact ht
      · obtain ⟨c, e⟩ := t.countN_eq (pmcCnt p i) 1
        rw [e]
        exact ht
    · exact ht

theorem State.count_msgq (s : State) (a : Nat) : (s.count a).flt.msgq = s.flt.msgq := by
  unfold State.count
  obtain ⟨c, e⟩ := s.countN_eq a 1
  dsimp only
  rw [e]
  split
  · rfl
  · rename_i p code _
    exact State.event_msgq { s with cnts := c } p code

/-- In t counters have counted and a chain has gone on since s: no fault message has been queued. -/
structure Tallied (s t : State) : Prop where
  rest : t = { s with cnts := t.cnts, flt := t.flt, qps := t.qps }
  msgq : t.flt.msgq = s.flt.msgq

theorem Tallied.refl (s : State) : Tallied s s := ⟨rfl, rfl⟩

theorem Tallied.trans {s t u : State} (a : Tallied s t) (b : Tallied t u) : Tallied s u :=
  ⟨b.rest.trans (by rw [a.rest]), b.msgq.trans a.msgq⟩

theorem Tallied.count (s : State) (a : Nat) : Tallied s (s.count a) := by
  refine ⟨?_, s.count_msgq a⟩
  obtain ⟨c, f, e⟩ := s.count_eq a
  rw [e]

theorem Tallied.of_chain {s t : State} (h : ∃ q, t = { s with qps := q }) : Tallied s t := by
  obtain ⟨q, rfl⟩ := h
  exact ⟨rfl, rfl⟩

theorem Tallied.regs {s t : State} (a : Tallied s t) : t.regs = s.regs := by rw [a.rest]

theorem State.mild_of_queue {s t : State} (hr : t.regs = s.regs) (hq : t.flt.msgq = s.flt.msgq) {n : Nat} (h : s.mild n) : t.mild n := by
  have hs (m : Nat) : t.sev m = s.sev m := State.rd_congr (State.reg_congr hr _)
  obtain ⟨h1, h2⟩ := h
  refine ⟨by rw [hs]; exact h1, ?_⟩
  rw [hs, hq]
  exact h2

theorem Tallied.freeze {s t : State} (a : Tallied s t) (hz : s.flag B.PMC R.PMC_CTRL_FREEZE = false) :
    t.flag B.PMC R.PMC_CTRL_FREEZE = false :=
  (State.flag_congr (State.reg_congr a.regs _)).trans hz

theorem HuskCounted.of_chain {h : Nat} {s t : State} (e : ∃ q, t = { s with qps := q }) : HuskCounted h (fun _ => False) s t := by
  obtain ⟨q, rfl⟩ := e
  exact .of_eq rfl rfl

/-- The counters that a packet's parse moves before its action: HUSK_PARSED, in long reach HUSK_LR_PARSED, and its END code's. -/
def takenCounts (lr : Bool) (code y : Nat) : Prop :=
  (y = C.HUSK_PARSED ∨ lr = true ∧ y = C.HUSK_LR_PARSED) ∨ ¬ code = 0 ∧ y = C.HUSK_END_BEYOND + 8 * (code - 1)

theorem State.huskTaken_holds {s : State} (hz : s.flag B.PMC R.PMC_CTRL_FREEZE = false) (h : Headrace) (k : Pkt) (lr : Bool)
    {code : Nat} (hc : code ≤ 8) :
    Tallied s (s.huskTaken h k lr code) ∧ HuskCounted h (takenCounts lr code) s (s.huskTaken h k lr code) := by
  unfold State.huskTaken
  dsimp only
  have t1 : Tallied s ((s.count (B.HUSK h + C.HUSK_PARSED)).chainTaken k) :=
    (Tallied.count s _).trans (.of_chain (State.chainTaken_eq _ k))
  have c1 : HuskCounted h (· = C.HUSK_PARSED) s ((s.count (B.HUSK h + C.HUSK_PARSED)).chainTaken k) :=
    (HuskCounted.count hz h (by decide)).before (.of_chain (State.chainTaken_eq _ k))
  generalize (s.count (B.HUSK h + C.HUSK_PARSED)).chainTaken k = u at t1 c1 ⊢
  have t2 : Tallied s (if lr = true then u.count (B.HUSK h + C.HUSK_LR_PARSED) else u) := by
    split
    · exact t1.trans (.count u _)
    · exact t1
  have c2 := c1.trans (HuskCounted.countIf (t1.freeze hz) h (x := C.HUSK_LR_PARSED) (by decide) (lr = true)) (by
    rintro y rfl ⟨-, e⟩
    exact absurd e (by decide))
  generalize (if lr = true then u.count (B.HUSK h + C.HUSK_LR_PARSED) else u) = v at t2 c2 ⊢
  have c3 := c2.trans (HuskCounted.countIf (t2.freeze hz) h (x := C.HUSK_END_BEYOND + 8 * (code - 1))
    (by simp only [C.HUSK_END_BEYOND]; omega) (¬ code = 0)) (by
      simp only [C.HUSK_PARSED, C.HUSK_LR_PARSED, C.HUSK_END_BEYOND]
      omega)
  rw [ite_not, ← Nat.add_assoc] at c3
  refine ⟨?_, c3⟩
  split
  · exact t2
  · exact t2.trans (.count v _)

/-- The counters that a packet's parse moves. -/
def parseCounts (lr : Bool) (code act y : Nat) : Prop := takenCounts lr code y ∨ act = 0 ∧ y = C.HUSK_DROPPED

theorem State.huskActs_counted {s : State} (hz : s.flag B.PMC R.PMC_CTRL_FREEZE = false) (h : Headrace) (k : Pkt) (lr : Bool)
    (e : ParseEnd) : HuskCounted h (fun y => s.parseAction h e.code = 0 ∧ y = C.HUSK_DROPPED) s (s.huskActs h k lr e) := by
  unfold State.huskActs
  split
  · rename_i ha
    exact ((HuskCounted.count hz h (by decide)).before (.of_chain (State.chainParseDrop_eq _ k))).congr fun y => and_iff_right ha
  · rename_i ha
    have hn : HuskCounted h (fun _ => False) s (s.setToks h ((s.pipe h).toks ++ [s.huskToken h k lr e])) := .of_eq rfl rfl
    exact hn.congr fun y => iff_false_intro fun hy => ha hy.1

theorem HuskCounted.graphFault {s : State} (h : Headrace) (e : ParseEnd) (hm : e.code = 8 → s.mild (32 + 4 * h)) :
    HuskCounted h (fun _ => False) s (s.graphFault h e) := by
  unfold State.graphFault
  split
  · rename_i he
    exact .raise h 0 e.bad (by have := h.isLt; omega) (hm he)
  · exact .of_eq rfl rfl

theorem State.parseAction_congr {s t : State} (hr : t.regs = s.regs) (h code : Nat) : t.parseAction h code = s.parseAction h code := by
  unfold State.parseAction
  rw [State.reg_congr hr]

/-- A packet at whose graph entry a fault arises is dropped whatever the registers say. -/
theorem State.parseAction_graphFault (s : State) (h : Nat) (e : ParseEnd) :
    (s.graphFault h e).parseAction h e.code = s.parseAction h e.code := by
  unfold State.graphFault
  split
  · rename_i he
    unfold State.parseAction
    rw [he]
    rfl
  · rfl

/-- A packet counts in HUSK_PARSED, in its END code's counter and, as the case is, in HUSK_LR_PARSED and HUSK_DROPPED. -/
theorem State.husk_counted {s : State} (hz : s.flag B.PMC R.PMC_CTRL_FREEZE = false) (h : Headrace) (k : Pkt)
    (hm : (s.parse h k).code = 8 → s.mild (32 + 4 * h)) :
    HuskCounted h (parseCounts (s.lrActive h) (s.parse h k).code (s.parseAction h (s.parse h k).code)) s (s.husk h k) := by
  rw [State.husk_eq, s.parse_congr rfl rfl rfl h (k.stamped_data _) (k.stamped_org _)]
  obtain ⟨t1, c1⟩ := State.huskTaken_holds hz h (k.stamped s.timeWord) (s.lrActive h) (s.parse_fits h k).code
  generalize s.huskTaken h _ _ _ = u at t1 c1 ⊢
  have c2 := c1.before (.graphFault h (s.parse h k) fun he => State.mild_of_queue t1.regs t1.msgq (hm he))
  have ha := (u.parseAction_graphFault h (s.parse h k)).trans (State.parseAction_congr t1.regs h _)
  generalize u.graphFault h _ = v at c2 ha ⊢
  have c3 := State.huskActs_counted (c2.freeze.trans hz) h (k.stamped s.timeWord) (s.lrActive h) (s.parse h k)
  rw [ha] at c3
  refine c2.trans c3 ?_
  have := (s.parse_fits h k).code
  simp only [takenCounts, C.HUSK_PARSED, C.HUSK_LR_PARSED, C.HUSK_END_BEYOND, C.HUSK_DROPPED]
  omega

/-! ### Tokens that move, and packets that leave their staging, count nothing in the Husker -/

theorem State.settle_cnts (s : State) (k : Nat) : (s.settle k).cnts = s.cnts := by
  unfold State.settle
  dsimp only
  generalize s.settleList k [] (s.pipe k).toks = l
  split <;> rfl

/-- The packet at the head of its staging has left it. -/
theorem State.unstage_holds {s : State} {h : Nat} {k : Pkt} {ks : List Pkt} (hs : (s.stage h).pkts = k :: ks) :
    let t := s.unstage h
    t = { s with cnts := t.cnts, staging := t.staging, out := t.out, timers := t.timers, eth := { s.eth with xoffSent := t.eth.xoffSent } } ∧
    (∀ a, a < 0x50_0000 → t.cnt a = s.cnt a) ∧ (t.stage h).pkts = ks ∧ ∀ g, g ≠ h → t.stage g = s.stage g := by
  have hu : s.unstage h = ((s.setStage h { s.stage h with
      pkts := ks, cells := (s.stage h).cells - cellsOf k.data.length }).updateFetchHold h).updatePauses h := by
    unfold State.unstage
    dsimp only
    rw [hs]
  dsimp only
  rw [hu]
  unfold State.updateFetchHold
  have hp := PausesSent.updatePauses
    ((s.setStage h { s.stage h with pkts := ks, cells := (s.stage h).cells - cellsOf k.data.length }).updateFetchHold h) h
  unfold State.updateFetchHold at hp
  generalize hv : (State.setStage _ h _ : State) = v at hp ⊢
  have hstage : (v.updatePauses h).stage = v.stage := by unfold State.stage; rw [hp.rest]
  have hstaging : (v.updatePauses h).staging = v.staging := by rw [hp.rest]
  refine ⟨?_, fun a ha => ?_, ?_, fun g hg => ?_⟩
  · refine hp.rest.trans ?_
    rw [hstaging, ← hv]
    rfl
  · refine (hp.cnt a fun p e => ?_).trans (by rw [← hv]; rfl)
    have := portCnt_high p C.ETH_TX_PAUSE
    omega
  · rw [hstage, ← hv, State.stage_setStage, if_pos rfl, State.stage_setStage, if_pos rfl]
  · rw [hstage, ← hv, State.stage_setStage, if_neg hg, State.stage_setStage, if_neg hg]

end Sys2Proof.Machine

namespace Sys2Proof.Machine

/-! ## The statement O55 -/

/-- The device after entries of a headrace's graph have begun to fail their parity. -/
abbrev State.spoilt (s : State) (h : Headrace) (bad : List Nat) : State :=
  bad.foldl (fun s a => s.noteEcc (graphKey h (a % 2 ^ 14)) .bad) s

theorem State.spoilt_eq (s : State) (h : Headrace) (bad : List Nat) : s.spoilt h bad = { s with upsets := (s.spoilt h bad).upsets } := by
  induction bad generalizing s with
  | nil => rfl
  | cons a l ih =>
    unfold State.spoilt
    rw [List.foldl_cons]
    exact ih (s.noteEcc (graphKey h (a % 2 ^ 14)) .bad)

/-- The frame of a Survey generator as a packet. -/
def State.surveyPkt (s : State) (l : List Byte) : Pkt :=
  { data := l, org := .survey, time := s.timeWord, frac := 0, cls := 0, chain := 0, first := false, tsReq := false, launch := none }

theorem packetParse_staged {h : Headrace} {s : State} (hd : s.domOn (1 + h) = true) (hr : s.roomAtG0 h = true) (bad : List Nat)
    (hf : (s.spoilt h bad).forwarding = true) {k : Pkt} {ks : List Pkt} (hs : ((s.spoilt h bad).stage h).pkts = k :: ks) :
    exec (.packetParse h none bad) s = .next ((((s.spoilt h bad).unstage h).husk h k).settle h) := by
  rw [exec_packetParse, execPacketParse, if_neg (by rw [show domHR h = 1 + h.val from rfl, hd, hr]; decide)]
  dsimp only
  rw [hs, hf]

theorem packetParse_survey {h : Headrace} {s : State} (hd : s.domOn (1 + h) = true) (hr : s.roomAtG0 h = true) (bad : List Nat)
    (hm : (s.spoilt h bad).mode = .priming ∨ (s.spoilt h bad).mode = .survey) (l : List Byte) :
    exec (.packetParse h (some l) bad) s =
      .next (((s.spoilt h bad).husk h ((s.spoilt h bad).surveyPkt l)).settle h) := by
  rw [exec_packetParse, execPacketParse, if_neg (by rw [show domHR h = 1 + h.val from rfl, hd, hr]; decide)]
  dsimp only
  exact if_pos (by rw [Bool.or_eq_true, decide_eq_true_eq, decide_eq_true_eq]; exact hm)

theorem State.settle_regs_off (s : State) (k a : Nat) (ha : a ≠ B.PIPE k + R.ABORT_ACTIVE.off) : (s.settle k).reg a = s.reg a := by
  unfold State.settle
  dsimp only
  generalize s.settleList k [] (s.pipe k).toks = l
  split
  · rfl
  · exact State.reg_wrB _ _ _ _ _ ha

theorem HuskCounted.settle (s : State) (h k : Nat) : HuskCounted h (fun _ => False) s (s.settle k) := by
  refine .of_same (State.flag_congr (s.settle_regs_off k _ ?_)) fun y _ => by unfold State.cnt; rw [State.settle_cnts]
  unfold B.PIPE
  split
  · simp only [B.PMC, R.PMC_CTRL_FREEZE, B.HDR, B.QUAD]; omega
  · simp only [B.PMC, R.PMC_CTRL_FREEZE, B.TLR, B.QUAD]; omega

theorem HuskCounted.spoilt (s : State) (h : Headrace) (bad : List Nat) : HuskCounted h (fun _ => False) s (s.spoilt h bad) := by
  rw [State.spoilt_eq]
  exact .of_eq rfl rfl

theorem HuskCounted.unstage {s : State} {h : Headrace} {k : Pkt} {ks : List Pkt} (hs : (s.stage h).pkts = k :: ks) :
    HuskCounted h (fun _ => False) s (s.unstage h) := by
  obtain ⟨hrest, hcnt, -, -⟩ := State.unstage_holds hs
  generalize s.unstage h = t at hrest hcnt ⊢
  have hr : t.regs = s.regs := by rw [hrest]
  have hh := h.isLt
  refine .of_same (State.flag_congr (State.reg_congr hr _)) fun y hy => hcnt _ ?_
  simp only [B.HUSK, B.QUAD]
  omega

/-- The counters of a parse, one by one. -/
theorem HuskCounted.parse_counters {s u : State} {h code act : Nat} {lr : Bool} (hc : HuskCounted h (parseCounts lr code act) s u)
    (hcode : code ≤ 8) : u.cnt (B.HUSK h + 0x1000 + 8 * 0) = (s.cnt (B.HUSK h + 0x1000 + 8 * 0) + 1) % 2 ^ 64 ∧ code ≤ 8 ∧
      (∀ n, 1 ≤ n → n ≤ 8 →
        if code = n then u.cnt (B.HUSK h + 0x1000 + 8 * n) = (s.cnt (B.HUSK h + 0x1000 + 8 * n) + 1) % 2 ^ 64
        else u.cnt (B.HUSK h + 0x1000 + 8 * n) = s.cnt (B.HUSK h + 0x1000 + 8 * n)) ∧
      (if lr = true then u.cnt (B.HUSK h + 0x1050) = (s.cnt (B.HUSK h + 0x1050) + 1) % 2 ^ 64
        else u.cnt (B.HUSK h + 0x1050) = s.cnt (B.HUSK h + 0x1050)) := by
  have hend (n : Nat) (h1 : 1 ≤ n) (h8 : n ≤ 8) (hn : code ≠ n) : ¬ parseCounts lr code act (0x1000 + 8 * n) := by
    unfold parseCounts takenCounts C.HUSK_PARSED C.HUSK_LR_PARSED C.HUSK_END_BEYOND C.HUSK_DROPPED
    rintro (((h | ⟨-, h⟩) | ⟨h0, h⟩) | ⟨-, h⟩)
    all_goals omega
  refine ⟨hc.once (0x1000 + 8 * 0) (by omega) (.inl (.inl (.inl rfl))), hcode, fun n h1 h8 => ?_, ?_⟩
  · rw [Nat.add_assoc]
    split
    · have he : 0x1000 + 8 * n = 0x1008 + 8 * (code - 1) := by omega
      exact hc.once (0x1000 + 8 * n) (by omega) (.inl (.inr ⟨by omega, he⟩))
    · exact hc.kept (0x1000 + 8 * n) (by omega) (hend n h1 h8 ‹_›)
  · split
    · exact hc.once 0x1050 (by omega) (.inl (.inl (.inr ⟨‹_›, rfl⟩)))
    · refine hc.kept 0x1050 (by omega) ?_
      rintro (((h | ⟨h, -⟩) | ⟨-, h⟩) | ⟨-, h⟩)
      · exact absurd h (by decide)
      · exact absurd h ‹_›
      · simp only [C.HUSK_END_BEYOND] at h; omega
      · exact absurd h (by decide)

/-- A packet is taken in device t, which has counted nothing in the Husker since s. -/
theorem HuskCounted.of_parse {s t : State} {h : Headrace} {k : Pkt} {e : ParseEnd} (ht : HuskCounted h (fun _ => False) s t)
    (hz : s.flag B.PMC R.PMC_CTRL_FREEZE = false) (he : t.parse h k = e) (hm : e.code = 8 → t.mild (32 + 4 * h))
    (hr : t.regs = s.regs) : HuskCounted h (parseCounts (s.lrActive h) e.code (s.parseAction h e.code)) s ((t.husk h k).settle h) := by
  subst he
  have hh := State.husk_counted (ht.freeze.trans hz) h k hm
  rw [State.lrActive_congr hr, State.parseAction_congr hr] at hh
  exact (ht.after hh).before (.settle _ h h)

/-- Settles O55: each count of a parse moves one counter of the Husker's block, and nothing else of the parse does. -/
theorem parseCounters : Obligations.ParseCounters := by
  unfold Obligations.ParseCounters
  intro h gen bad s k ks s1 code end_ up hd hr hz hm hcase
  have he : s1 = { s with upsets := s1.upsets } := s.spoilt_eq h bad
  have hr1 : s1.regs = s.regs := by rw [he]
  have hq1 : s1.flt.msgq = s.flt.msgq := by rw [he]
  have hc1 : HuskCounted h (fun _ => False) s s1 := .spoilt s h bad
  have hcode : (s1.parse h k).code ≤ 8 := (s1.parse_fits h k).code
  rcases hcase with ⟨rfl, hf, hs⟩ | ⟨hmode, horg, rfl⟩
  · have hs1 : (s1.stage h).pkts = k :: ks := by rw [he]; exact hs
    have hf1 : s1.forwarding = true := by rw [he]; exact hf
    obtain ⟨hrest, -, -, -⟩ := State.unstage_holds hs1
    have hr2 : (s1.unstage h).regs = s1.regs := by rw [hrest]
    have hq2 : (s1.unstage h).flt.msgq = s1.flt.msgq := by rw [hrest]
    have hp : (s1.unstage h).parse h k = s1.parse h k := State.parse_congr hr2 (by rw [hrest]) (by rw [hrest]) h rfl rfl
    have hc := (hc1.before (.unstage hs1)).of_parse hz hp (fun e => State.mild_of_queue (hr2.trans hr1) (hq2.trans hq1) (hm e))
      (hr2.trans hr1)
    exact ⟨_, packetParse_staged hd hr bad hf1 hs1, hc.parse_counters hcode⟩
  · have hm1 : s1.mode = .priming ∨ s1.mode = .survey := by rw [he]; exact hmode
    have hp : s1.parse h (s1.surveyPkt k.data) = s1.parse h k := State.parse_congr rfl rfl rfl h rfl horg.symm
    have hc := hc1.of_parse hz hp (fun e => State.mild_of_queue hr1 hq1 (hm e)) hr1
    exact ⟨_, packetParse_survey hd hr bad hm1 k.data, hc.parse_counters hcode⟩

end Sys2Proof.Machine

namespace Sys2Proof.Machine

/-! ## Tokens that move through a pass (R146 to R148) -/

/-- A pass ends with the last token's move, whatever the moves before it. -/
theorem State.settleList_append (s : State) (k : Nat) (x : Token) (done l : List Token) :
    ∃ l', s.settleList k done (l ++ [x]) = l' ++ [s.settleOne k l' [] x] ∧ l'.length = done.length + l.length := by
  induction l generalizing done with
  | nil => exact ⟨done, rfl, rfl⟩
  | cons t ts ih =>
    obtain ⟨l', he, hl⟩ := ih (done ++ [s.settleOne k done (ts ++ [x]) t])
    refine ⟨l', he, ?_⟩
    rw [hl, List.length_append, List.length_singleton, List.length_cons]
    omega

theorem State.settleList_length (s : State) (k : Nat) (done l : List Token) :
    (s.settleList k done l).length = done.length + l.length := by
  induction l generalizing done with
  | nil => rfl
  | cons t ts ih =>
    unfold State.settleList
    rw [ih, List.length_append, List.length_singleton, List.length_cons]
    omega

/-- A token at an entrance, started in a lane of its gate. -/
def State.started (s : State) (k : Nat) (t : Token) : Token :=
  { t with st := .lane, locals_ := 0, preds := 0, words := 0, pc := s.entryWord k t.gate t.bank }

/-- A token at an entrance starts, or it stays as it is. -/
theorem State.settleOne_eq (s : State) (k : Nat) (done later : List Token) {t : Token} (h : t.st = .entrance) :
    s.settleOne k done later t =
      if t.st = .entrance && (done.all fun x => !(x.gate = t.gate && x.st = .entrance)) && t.resp.all (fun r => t.gate < r.due)
        && lanesIn (done ++ later) t.gate < 4 then s.started k t else t := by
  unfold State.settleOne
  extract_lets ahead t'
  have ht : t' = t := if_neg (by rw [h]; simp)
  rw [ht]
  rfl

theorem State.settleOne_entrance (s : State) (k : Nat) (done later : List Token) {t : Token} (h : t.st = .entrance) :
    s.settleOne k done later t = t ∨ s.settleOne k done later t = s.started k t := by
  rw [s.settleOne_eq k done later h]
  split
  · exact .inr rfl
  · exact .inl rfl

/-- A token that is alone at an entrance, with no response to wait for, starts at once. -/
theorem State.settleOne_alone (s : State) (k : Nat) {t : Token} (h : t.st = .entrance) (hr : t.resp = []) :
    s.settleOne k [] [] t = s.started k t := by
  rw [s.settleOne_eq k [] [] h, h, hr]
  exact if_pos rfl

theorem State.pipe_setToks (s : State) (k j : Nat) (l : List Token) :
    (s.setToks k l).pipe j = if j = k then { s.pipe k with toks := l } else s.pipe j := tget_tput _ _ _ _ _

/-- What a pass changes: the tokens of its pipeline and its abort bit. -/
structure Settled (s t : State) (k : Nat) : Prop where
  rest : t = { s with pipes := t.pipes, regs := t.regs }
  toks : (t.pipe k).toks = s.settleList k [] (s.pipe k).toks
  others : ∀ j, j ≠ k → t.pipe j = s.pipe j
  regs : ∀ a, a ≠ B.PIPE k + R.ABORT_ACTIVE.off → t.reg a = s.reg a

theorem State.settle_holds (s : State) (k : Nat) : Settled s (s.settle k) k := by
  have hl (u : State) (hu : u.pipes = (s.setToks k (s.settleList k [] (s.pipe k).toks)).pipes) (j : Nat) :
      u.pipe j = if j = k then { s.pipe k with toks := s.settleList k [] (s.pipe k).toks } else s.pipe j := by
    rw [← s.pipe_setToks]
    exact congrArg (tget _ · j) hu
  have he : ∃ r, s.settle k = { s.setToks k (s.settleList k [] (s.pipe k).toks) with regs := r } := by
    unfold State.settle
    dsimp only
    generalize s.settleList k [] (s.pipe k).toks = l
    split
    · exact ⟨_, rfl⟩
    · exact State.wrB_eq _ _ _ _
  obtain ⟨r, he⟩ := he
  refine ⟨?_, ?_, fun j hj => ?_, fun a ha => s.settle_regs_off k a ha⟩
  · rw [he]; rfl
  · rw [hl _ (by rw [he]), if_pos rfl]
  · rw [hl _ (by rw [he]), if_neg hj]

end Sys2Proof.Machine

namespace Sys2Proof.Machine

/-! ## A packet that PACKET_PARSE takes, and what stays -/

/-- What taking a packet may change: counters, the chain, staging and pauses, the pipeline and its abort bit. -/
abbrev ParseTouches (s t : State) : Prop :=
  t = { s with cnts := t.cnts, flt := t.flt, qps := t.qps, staging := t.staging, out := t.out, pipes := t.pipes,
               timers := t.timers, regs := t.regs, eth := { s.eth with xoffSent := t.eth.xoffSent } }

theorem ParseTouches.trans {s t u : State} (a : ParseTouches s t) (b : ParseTouches t u) : ParseTouches s u :=
  Eq.trans b (by rw [a])

theorem Tallied.touches {s t : State} (a : Tallied s t) : ParseTouches s t := a.rest.trans (by rw [a.rest])

theorem Settled.touches {s t : State} {k : Nat} (a : Settled s t k) : ParseTouches s t := a.rest.trans (by rw [a.rest])

theorem ParseTouches.setToks (s : State) (k : Nat) (l : List Token) : ParseTouches s (s.setToks k l) := Eq.refl _

theorem ParseTouches.unstage {s : State} {h : Nat} {k : Pkt} {ks : List Pkt} (hs : (s.stage h).pkts = k :: ks) :
    ParseTouches s (s.unstage h) := by
  obtain ⟨hrest, -, -, -⟩ := State.unstage_holds hs
  exact hrest.trans (by rw [hrest])

/-- A packet without a fault is handed on where its END code's action is not DROP. -/
theorem State.husk_passes {s : State} (hz : s.flag B.PMC R.PMC_CTRL_FREEZE = false) (h : Headrace) (k : Pkt)
    (hc : (s.parse h k).code ≠ 8) (ha : s.parseAction h (s.parse h k).code ≠ 0) : ∃ v, Tallied s v ∧ s.husk h k =
      v.setToks h ((v.pipe h).toks ++ [v.huskToken h (k.stamped s.timeWord) (s.lrActive h) (s.parse h k)]) := by
  rw [State.husk_eq, s.parse_congr rfl rfl rfl h (k.stamped_data _) (k.stamped_org _)]
  obtain ⟨t1, -⟩ := State.huskTaken_holds hz h (k.stamped s.timeWord) (s.lrActive h) (s.parse_fits h k).code
  refine ⟨_, t1, ?_⟩
  rw [State.graphFault, if_neg hc, State.huskActs, if_neg (by rw [State.parseAction_congr t1.regs]; exact ha)]

theorem State.husk_drops {s : State} (hz : s.flag B.PMC R.PMC_CTRL_FREEZE = false) (h : Headrace) (k : Pkt)
    (hc : (s.parse h k).code ≠ 8) (ha : s.parseAction h (s.parse h k).code = 0) : Tallied s (s.husk h k) := by
  rw [State.husk_eq, s.parse_congr rfl rfl rfl h (k.stamped_data _) (k.stamped_org _)]
  obtain ⟨t1, -⟩ := State.huskTaken_holds hz h (k.stamped s.timeWord) (s.lrActive h) (s.parse_fits h k).code
  rw [State.graphFault, if_neg hc, State.huskActs, if_pos (by rw [State.parseAction_congr t1.regs]; exact ha)]
  exact (t1.trans (.count _ _)).trans (.of_chain (State.chainParseDrop_eq _ _))

theorem State.carryOf_eth (s : State) (h : Nat) {k : Pkt} {e : ParseEnd} (he : e.Fits) (flags : Nat) {p : Nat} (ho : k.org = .eth p)
    (hp : p < 96) : Carry.srcKind (s.carryOf h k e flags) = 0 ∧ Carry.srcNum (s.carryOf h k e flags) = p ∧
      Carry.len (s.carryOf h k e flags) = (k.data.length + 4) % 2 ^ 16 ∧ Carry.endCode (s.carryOf h k e flags) = e.code ∧
      Carry.hcount (s.carryOf h k e flags) = e.p.stack.length := by
  obtain ⟨hcode, hstack, hinner⟩ := he
  obtain ⟨f, hf⟩ : ∃ f, s.carryOf h k e flags = p + 2 ^ 16 * ((k.data.length + 4) % 2 ^ 16)
      + 2 ^ 32 * (e.code * 2 ^ 12 + e.p.inner * 2 ^ 8 + e.p.stack.length) + 2 ^ 48 * f := by
    unfold State.carryOf
    rw [ho]
    dsimp only [srcField]
    generalize s.flowHash h e.p.hashIn = a
    generalize k.time % 2 ^ 32 = b
    generalize List.foldl _ 0 _ = c
    generalize leNat e.p.ext = d
    exact ⟨flags + 2 ^ 16 * a + 2 ^ 48 * b + 2 ^ 80 * c + 2 ^ 336 * d, by omega⟩
  rw [hf]
  unfold Carry.srcKind Carry.srcNum Carry.len Carry.endCode Carry.hcount carryAt bitsOf
  omega

/-- Token x is packet k as headrace h hands it to G0: at the entrance, or already in a lane. -/
structure HandedOn (s : State) (h : Nat) (k : Pkt) (e : ParseEnd) (x : Token) : Prop where
  data : x.pkt.data = k.data
  gate : x.gate = 0
  place : x.st = .entrance ∨ x.st = .lane
  lr : x.lr = s.lrActive h
  bank : x.bank = s.huskBank h
  carry : ∀ p, k.org = .eth p → p < 96 → Carry.srcKind x.carry = 0 ∧ Carry.srcNum x.carry = p ∧
    Carry.len x.carry = (k.data.length + 4) % 2 ^ 16 ∧ Carry.endCode x.carry = e.code ∧ Carry.hcount x.carry = e.p.stack.length

theorem HandedOn.huskToken {s v : State} (h : Nat) (k : Pkt) (w : Nat) {e : ParseEnd} (he : e.Fits) (hr : v.regs = s.regs) :
    HandedOn s h k e (v.huskToken h (k.stamped w) (s.lrActive h) e) where
  data := k.stamped_data w
  gate := rfl
  place := .inl rfl
  lr := rfl
  bank := State.huskBank_congr hr h
  carry p ho hp := by
    rw [← k.stamped_data w]
    exact v.carryOf_eth h he _ ((k.stamped_org w).trans ho) hp

theorem HandedOn.started {s v : State} {h : Nat} {k : Pkt} {e : ParseEnd} {x : Token} (a : HandedOn s h k e x) :
    HandedOn s h k e (v.started h x) :=
  ⟨a.data, a.gate, .inr rfl, a.lr, a.bank, a.carry⟩

end Sys2Proof.Machine

namespace Sys2Proof.Machine

/-! ## Clauses of the statement O14 -/

theorem State.stage_of_staging {s t : State} (h : t.staging = s.staging) : t.stage = s.stage := by
  unfold State.stage; rw [h]

theorem Settled.staging {s t : State} {k : Nat} (a : Settled s t k) : t.staging = s.staging := by rw [a.rest]

theorem Tallied.staging {s t : State} (a : Tallied s t) : t.staging = s.staging := by rw [a.rest]

/-- A token handed to G0 is the last of the pass; in an idle headrace it starts at once. -/
theorem Settled.handedOn {s v u : State} {h : Nat} {k : Pkt} {e : ParseEnd} {x : Token} (hx : HandedOn s h k e x)
    (hst : x.st = .entrance) (hresp : x.resp = []) (hr : v.regs = s.regs)
    (hu : Settled (v.setToks h ((v.pipe h).toks ++ [x])) u h) :
    ∃ l y, (u.pipe h).toks = l ++ [y] ∧ l.length = (v.pipe h).toks.length ∧ HandedOn s h k e y ∧
      ((v.pipe h).toks = [] → y.st = .lane ∧ y.pc = s.entryWord h 0 (s.huskBank h)) := by
  generalize hw : v.setToks h ((v.pipe h).toks ++ [x]) = w at hu
  have htoks : (w.pipe h).toks = (v.pipe h).toks ++ [x] := by rw [← hw, State.pipe_setToks, if_pos rfl]
  have hwr : w.regs = s.regs := by rw [← hw]; exact hr
  obtain ⟨l, hl, hlen⟩ := w.settleList_append h x [] (v.pipe h).toks
  rw [List.length_nil, Nat.zero_add] at hlen
  refine ⟨l, _, by rw [hu.toks, htoks, hl], hlen, ?_, fun hidle => ?_⟩
  · rcases w.settleOne_entrance h l [] hst with e | e
    · rw [e]; exact hx
    · rw [e]; exact hx.started
  · have hnil : l = [] := List.eq_nil_of_length_eq_zero (by rw [hlen, hidle]; rfl)
    rw [hnil, w.settleOne_alone h hst hresp]
    refine ⟨rfl, ?_⟩
    have hpc : w.entryWord h x.gate x.bank = s.entryWord h x.gate x.bank := State.rd_congr (State.reg_congr hwr _)
    rw [← hx.bank, ← hx.gate]
    exact hpc

theorem packetParse_next {h : Headrace} {k : Pkt} {ks : List Pkt} {s : State} (hd : s.domOn (1 + h) = true)
    (hroom : s.roomAtG0 h = true) (hf : s.forwarding = true) (hs : (s.stage h).pkts = k :: ks) :
    exec (.packetParse h none []) s = .next (((s.unstage h).husk h k).settle h) :=
  packetParse_staged hd hroom [] hf hs

/-- R132, R138 to R142: a packet whose END code's action is not DROP. -/
theorem packetParse_passes {h : Headrace} {k : Pkt} {ks : List Pkt} {s : State} (hd : s.domOn (1 + h) = true)
    (hroom : s.roomAtG0 h = true) (hf : s.forwarding = true) (hs : (s.stage h).pkts = k :: ks)
    (hz : s.flag B.PMC R.PMC_CTRL_FREEZE = false) (hc : (s.parse h k).code ≠ 8) (ha : s.parseAction h (s.parse h k).code ≠ 0) :
    Gives (.packetParse h none []) s fun t => ParseTouches s t ∧ (∀ a, a ≠ B.PIPE h + R.ABORT_ACTIVE.off → t.reg a = s.reg a) ∧
      HuskCounted h (parseCounts (s.lrActive h) (s.parse h k).code (s.parseAction h (s.parse h k).code)) s t ∧
      (t.stage h).pkts = ks ∧ (∀ g, g ≠ h.val → t.stage g = s.stage g ∧ t.pipe g = s.pipe g) ∧
      ∃ l x, (t.pipe h).toks = l ++ [x] ∧ l.length = (s.pipe h).toks.length ∧ HandedOn s h k (s.parse h k) x ∧
        ((s.pipe h).toks = [] → x.st = .lane ∧ x.pc = s.entryWord h 0 (s.huskBank h)) := by
  obtain ⟨hrest, hcnt, hstage, hstages⟩ := State.unstage_holds hs
  have htouch := ParseTouches.unstage hs
  have hcount0 := HuskCounted.unstage hs
  refine ⟨((s.unstage h).husk h k).settle h, packetParse_next hd hroom hf hs, ?_⟩
  generalize s.unstage h = s2 at *
  have hr : s2.regs = s.regs := by rw [hrest]
  have hp : s2.parse h k = s.parse h k := State.parse_congr hr (by rw [hrest]) (by rw [hrest]) h rfl rfl
  have hcount := hcount0.of_parse hz hp (fun e => absurd e hc) hr
  have hz2 : s2.flag B.PMC R.PMC_CTRL_FREEZE = false := hcount0.freeze.trans hz
  obtain ⟨v, hv, hvk⟩ := State.husk_passes hz2 h k (by rw [hp]; exact hc) (by rw [hp, State.parseAction_congr hr]; exact ha)
  have hset := (s2.husk h k).settle_holds h
  have hvr : v.regs = s.regs := hv.regs.trans hr
  have hvp (g : Nat) : v.pipe g = s.pipe g := by unfold State.pipe; rw [hv.rest, hrest]
  rw [hp, State.lrActive_congr hr] at hvk
  have hx := HandedOn.huskToken h k s2.timeWord (s.parse_fits h k) hvr
  rw [hvk] at hset hcount ⊢
  generalize hu : State.settle _ _ = u at hset hcount ⊢
  have hus : u.stage = s2.stage := State.stage_of_staging (hset.staging.trans hv.staging)
  obtain ⟨l, y, hl, hlen, hy, hidle⟩ := hset.handedOn hx rfl rfl hvr
  refine ⟨(htouch.trans hv.touches).trans ((ParseTouches.setToks v h _).trans hset.touches), fun a hab => ?_, hcount,
    by rw [hus]; exact hstage, fun g hg => ⟨by rw [hus]; exact hstages g hg, ?_⟩, l, y, hl, ?_, hy, ?_⟩
  · rw [hset.regs a hab]
    exact State.reg_congr hvr a
  · rw [hset.others g hg, State.pipe_setToks, if_neg hg, hvp]
  · rw [hlen, hvp]
  · rw [← hvp]; exact hidle

/-- R139, R140: a packet whose END code's action is DROP. -/
theorem packetParse_drops {h : Headrace} {k : Pkt} {ks : List Pkt} {s : State} (hd : s.domOn (1 + h) = true)
    (hroom : s.roomAtG0 h = true) (hf : s.forwarding = true) (hs : (s.stage h).pkts = k :: ks)
    (hz : s.flag B.PMC R.PMC_CTRL_FREEZE = false) (hc : (s.parse h k).code ≠ 8) (ha : s.parseAction h (s.parse h k).code = 0) :
    Gives (.packetParse h none []) s fun t => ParseTouches s t ∧ (t.pipe h).toks.length = (s.pipe h).toks.length ∧
      HuskCounted h (parseCounts (s.lrActive h) (s.parse h k).code (s.parseAction h (s.parse h k).code)) s t ∧
      (t.stage h).pkts = ks := by
  obtain ⟨hrest, hcnt, hstage, hstages⟩ := State.unstage_holds hs
  have htouch := ParseTouches.unstage hs
  have hcount0 := HuskCounted.unstage hs
  refine ⟨((s.unstage h).husk h k).settle h, packetParse_next hd hroom hf hs, ?_⟩
  generalize s.unstage h = s2 at *
  have hr : s2.regs = s.regs := by rw [hrest]
  have hp : s2.parse h k = s.parse h k := State.parse_congr hr (by rw [hrest]) (by rw [hrest]) h rfl rfl
  have hcount := hcount0.of_parse hz hp (fun e => absurd e hc) hr
  have hv := State.husk_drops (hcount0.freeze.trans hz) h k (by rw [hp]; exact hc) (by rw [hp, State.parseAction_congr hr]; exact ha)
  have hset := (s2.husk h k).settle_holds h
  generalize s2.husk h k = v at hv hset hcount ⊢
  have hvp : v.pipe h = s.pipe h := by unfold State.pipe; rw [hv.rest, hrest]
  refine ⟨(htouch.trans hv.touches).trans hset.touches, ?_, hcount, ?_⟩
  · rw [hset.toks, State.settleList_length, hvp, List.length_nil, Nat.zero_add]
  · have hus : (v.settle h).stage = s2.stage := State.stage_of_staging (hset.staging.trans hv.staging)
    rw [hus]
    exact hstage

end Sys2Proof.Machine

namespace Sys2Proof.Machine

theorem exec_longReachSwitch (h : Headrace) (s : State) : exec (.longReachSwitch h) s = execLongReachSwitch h s := rfl
theorem exec_huskMemWrite (h : Headrace) (s : State) : exec (.huskMemWrite h) s = execHuskMemWrite h s := rfl
theorem exec_huskMemRead (h : Headrace) (s : State) : exec (.huskMemRead h) s = execHuskMemRead h s := rfl

/-- Nothing is staged: nothing is taken. -/
theorem packetParse_empty {h : Headrace} {s : State} (hs : (s.stage h).pkts = []) : exec (.packetParse h none []) s = .next s := by
  rw [exec_packetParse, execPacketParse]
  split
  · rfl
  · dsimp only [List.foldl_nil]
    rw [hs]

/-! ### The first header (R132) -/

/-- A first header whose least length goes past the packet or past the window ends the parse. -/
theorem State.parse_first {s : State} {h : Nat} {k : Pkt} {node : Nat}
    (hnode : node = s.graphAt h (graphAddr (s.huskBank h) 0 (s.startNode h (s.huskBank h) k.org)))
    (hu : s.upset (graphKey h (graphAddr (s.huskBank h) 0 (s.startNode h (s.huskBank h) k.org))) = 0) :
    (k.data.length < bitsOf node 116 109 → (s.parse h k).code = 2) ∧
    (bitsOf node 116 109 ≤ k.data.length → s.window h < bitsOf node 116 109 → (s.parse h k).code = 1) := by
  unfold State.parse State.visit
  extract_lets bank plen lim na n0 lmin len q key
  have hn : n0 = node := hnode.symm
  have hl : lmin = bitsOf node 116 109 := congrArg (bitsOf · 116 109) hn
  rw [← hl]
  have h0 : ¬ 16 ≤ Parse.start.stack.length := by decide
  refine ⟨fun htrunc => ?_, fun hfits hbeyond => ?_⟩
  · rw [if_neg h0, if_neg (not_not.mpr hu), if_pos (show plen < 0 + lmin by omega)]
  · rw [if_neg h0, if_neg (not_not.mpr hu), if_neg (show ¬ plen < 0 + lmin by omega), if_pos (by omega)]

/-! ### Long reach (R127, R128) -/

theorem State.lrMay_eq (s : State) :
    s.lrMay = (s.domOn 79 && decide (s.mode = .priming ∨ s.mode = .trickle ∨ s.mode = .survey)) := by
  unfold State.lrMay
  rw [Bool.decide_or, Bool.decide_or, Bool.or_assoc]

theorem State.window_eq (s : State) (h : Nat) : s.window h = if s.flag (B.HUSK h) R.HUSK_STATUS_LR_ACTIVE && s.domOn 79 &&
    decide (s.mode = .priming ∨ s.mode = .trickle ∨ s.mode = .survey) then 1024 else 192 := by
  unfold State.window State.lrActive
  rw [State.lrMay_eq, Bool.and_assoc]

theorem State.lrMay_wrB_husk (s : State) (h : Nat) (f : RegField) (b : Bool) : (s.wrB (B.HUSK h) f b).lrMay = s.lrMay := by
  unfold State.lrMay
  rw [State.domOn_congr (s.reg_wrB _ _ _ _ (by simp only [B.PWR, B.HUSK, B.QUAD]; omega)),
    State.mode_congr (s.reg_wrB _ _ _ _ (by simp only [B.DEV, B.HUSK, B.QUAD]; omega))]

theorem longReachSwitch_holds {h : Headrace} {s : State} (hd : s.domOn (1 + h) = true) : Gives (.longReachSwitch h) s fun t =>
    t = { s with regs := t.regs } ∧
    t.lrActive h = (s.flag (B.HUSK h) R.HUSK_CFG_LONG_REACH && s.domOn 79 &&
      decide (s.mode = .priming ∨ s.mode = .trickle ∨ s.mode = .survey)) ∧
    ∀ a, a ≠ B.HUSK h + R.HUSK_STATUS_LR_ACTIVE.off → t.reg a = s.reg a := by
  refine ⟨s.wrB (B.HUSK h) R.HUSK_STATUS_LR_ACTIVE (s.flag (B.HUSK h) R.HUSK_CFG_LONG_REACH && s.lrMay), ?_,
    s.wrB_regs_only _ _ _, ?_, fun a ha => s.reg_wrB _ _ _ _ ha⟩
  · rw [exec_longReachSwitch, execLongReachSwitch, if_neg (by rw [show domHR h = 1 + h.val from rfl, hd]; decide)]
  · unfold State.lrActive
    rw [State.flag_wrB_same _ _ _ _ (by decide) (by decide), State.lrMay_wrB_husk, Bool.and_assoc (s.flag _ _), Bool.and_self,
      State.lrMay_eq, Bool.and_assoc]

/-! ### Graph memory (R131, R143) -/

theorem State.graphAt_setGraph (s : State) (k v h a : Nat) :
    (s.setGraph k v).graphAt h a = if graphKey h a = k then v else s.graphAt h a := tget_tput _ _ _ _ _

theorem State.setGraph_writes (s : State) (h a v : Nat) :
    (s.setGraph (graphKey h a) v).answer .ok = { s with
      micro := { s.micro with graph := ((s.setGraph (graphKey h a) v).answer .ok).micro.graph },
      upsets := ((s.setGraph (graphKey h a) v).answer .ok).upsets, reply := .ok } ∧
    ((s.setGraph (graphKey h a) v).answer .ok).graphAt h a = v ∧
    ∀ g b, graphKey g b ≠ graphKey h a → ((s.setGraph (graphKey h a) v).answer .ok).graphAt g b = s.graphAt g b :=
  ⟨rfl, (s.graphAt_setGraph _ v h a).trans (if_pos rfl), fun g b hb => (s.graphAt_setGraph _ v g b).trans (if_neg hb)⟩

/-- A transition entry with a listed kind is taken as written, but for its reserved bits. -/
theorem graphTakes_transition (old v : Nat) (hv : bitsOf v 55 54 ≠ 3) : graphTakes 1 old v = v / 2 ^ 54 * 2 ^ 54 := by
  have hn : v - v % 2 ^ 54 = v / 2 ^ 54 * 2 ^ 54 := by omega
  have he : graphTakes 1 old v =
      if bitsOf (v - v % 2 ^ 54) 55 54 = 3 then setBits (v - v % 2 ^ 54) 55 54 (bitsOf old 55 54) else v - v % 2 ^ 54 := rfl
  rw [he, hn, if_neg]
  unfold bitsOf at hv ⊢
  omega

theorem huskMemWrite_writes {h : Headrace} {s : State} (hok : s.huskMemOk h = true) : exec (.huskMemWrite h) s =
    .next ((s.setGraph (graphKey h (s.reg (B.HUSK h + 0x20)).toNat) (graphTakes (bitsOf (s.reg (B.HUSK h + 0x20)).toNat 12 11)
      (s.graphAt h (s.reg (B.HUSK h + 0x20)).toNat) (s.dataRegs (B.HUSK h + 0x30) 4))).answer .ok) :=
  (exec_huskMemWrite h s).trans (granted_of_true hok _ _)

theorem State.setDataRegs_reads (s : State) (d n v : Nat) :
    (s.setDataRegs d n v).answer .ok = { s with regs := ((s.setDataRegs d n v).answer .ok).regs, reply := .ok } ∧
    (∀ k, k < n → (((s.setDataRegs d n v).answer .ok).reg (d + 4 * k)).toNat = bitsOf v (32 * k + 31) (32 * k)) ∧
    ∀ b, (∀ k, k < n → b ≠ d + 4 * k) → ((s.setDataRegs d n v).answer .ok).reg b = s.reg b := by
  refine ⟨congrArg (State.answer · .ok) (s.setDataRegs_eq d n v), fun k hk => ?_, fun b hb => ?_⟩
  · have hlt := bitsOf_lt v (32 * k + 31) (32 * k)
    rw [show 32 * k + 31 + 1 - 32 * k = 32 by omega] at hlt
    rw [State.reg_answer, s.reg_setDataRegs d n v k hk, BitVec.toNat_ofNat, Nat.mod_eq_of_lt hlt]
  · rw [State.reg_answer, s.reg_setDataRegs_ne d n v b hb]

/-- A read shows the entry in the four data registers. -/
theorem huskMemRead_reads {h : Headrace} {s : State} (hok : s.huskMemOk h = true) : exec (.huskMemRead h) s =
    .next ((s.setDataRegs (B.HUSK h + 0x30) 4 (s.graphAt h (s.reg (B.HUSK h + 0x20)).toNat)).answer .ok) :=
  (exec_huskMemRead h s).trans (granted_of_true hok _ _)

theorem huskMem_refused {h : Headrace} {s : State} (hok : s.huskMemOk h = false) :
    exec (.huskMemWrite h) s = .next (s.answer .busError) ∧ exec (.huskMemRead h) s = .next (s.answer .busError) :=
  ⟨(exec_huskMemWrite h s).trans (refused_of_false hok _ _), (exec_huskMemRead h s).trans (refused_of_false hok _ _)⟩

theorem State.huskMemOk_of_active {s : State} {h : Nat} (hm : s.mode = .flowing ∨ s.mode = .trickle)
    (hb : bitsOf (s.reg (B.HUSK h + 0x20)).toNat 13 13 = s.huskBank h) : s.huskMemOk h = false := by
  have hb' : s.rd (B.HUSK h) R.HUSK_MEM_ADDR_BANK = s.huskBank h := hb
  unfold State.huskMemOk
  dsimp only
  rw [hb']
  rcases hm with hm | hm <;> rw [hm] <;> simp

theorem State.huskMemOk_of_absent {s : State} {h : Nat} (hi : graphIndexOk (bitsOf (s.reg (B.HUSK h + 0x20)).toNat 12 11)
    (bitsOf (s.reg (B.HUSK h + 0x20)).toNat 10 0) = false) : s.huskMemOk h = false := by
  have hi' : graphIndexOk (s.rd (B.HUSK h) R.HUSK_MEM_ADDR_MEM) (s.rd (B.HUSK h) R.HUSK_MEM_ADDR_INDEX) = false := hi
  unfold State.huskMemOk
  dsimp only
  rw [hi', Bool.and_false, Bool.false_and]

theorem graphIndexOk_absent {mem i : Nat} (h : mem = 0 ∧ 256 ≤ i ∨ mem = 2 ∧ 1024 ≤ i) : graphIndexOk mem i = false := by
  rcases h with ⟨rfl, hi⟩ | ⟨rfl, hi⟩
  · exact decide_eq_false (by omega)
  · exact decide_eq_false (by omega)

/-- Settles O14, clause by clause: a packet that is taken passes or is dropped, and the graph memory is entries of a table. -/
theorem huskerParsing : Obligations.HuskerParsing := by
  unfold Obligations.HuskerParsing
  refine ⟨?_, fun h s => packetParse_empty, ?_, fun h s => longReachSwitch_holds, ?_⟩
  · rintro h k ks s e hd hroom hf hs hz rfl hc
    have hcode := (s.parse_fits h k).code
    refine ⟨fun ha => ?_, fun ha => ?_⟩
    · obtain ⟨t, ht, htouch, hregs, hcount, hstage, hothers, l, x, hl, hlen, hx, hidle⟩ :=
        packetParse_passes hd hroom hf hs hz hc ha
      refine ⟨t, ht, htouch, hregs, hcount.once _ (by decide) (.inl (.inl (.inl rfl))), fun h0 => ?_, hstage, hothers,
        l, x, hl, hlen, hx.data, hx.gate, hx.place, hidle, hx.lr, hx.bank, hx.carry⟩
      rw [Nat.add_assoc]
      exact hcount.once _ (by simp only [C.HUSK_END_BEYOND]; omega) (.inl (.inr ⟨h0, rfl⟩))
    · obtain ⟨t, ht, htouch, htoks, hcount, hstage⟩ := packetParse_drops hd hroom hf hs hz hc ha
      exact ⟨t, ht, htouch, htoks, hcount.once _ (by decide) (.inr ⟨ha, rfl⟩), hstage⟩
  · rintro h s k w rfl
    intro node hu
    obtain ⟨htrunc, hbeyond⟩ := State.parse_first rfl hu
    exact ⟨htrunc, hbeyond, s.window_eq h⟩
  · rintro h s a v rfl rfl
    refine ⟨fun hok => ⟨_, huskMemWrite_writes hok, ?_⟩, fun hok => ⟨_, huskMemRead_reads hok, s.setDataRegs_reads _ 4 _⟩,
      fun hm hb => huskMem_refused (State.huskMemOk_of_active hm hb),
      fun hi => huskMem_refused (State.huskMemOk_of_absent (graphIndexOk_absent hi))⟩
    · obtain ⟨hrest, hentry, hothers⟩ := s.setGraph_writes h (s.reg (B.HUSK h + 0x20)).toNat
        (graphTakes (bitsOf (s.reg (B.HUSK h + 0x20)).toNat 12 11) (s.graphAt h (s.reg (B.HUSK h + 0x20)).toNat)
          (s.dataRegs (B.HUSK h + 0x30) 4))
      refine ⟨hrest, hentry, fun hmem hv => ?_, hothers⟩
      rw [hentry, hmem, graphTakes_transition _ _ hv]

end Sys2Proof.Machine

namespace Sys2Proof.Machine

/-! ## A staging whose fetch fails while the fault it logs is Latched (R72, R84, R262, R425) -/

/-- An MC_STAGE of an empty buffer, accepted on tag 0 of link 0's mailbox. -/
def lostStage : Cmd :=
  { opcode := 0x0380, tagField := 0, phase := 1, irq := false, mgen := 1, len := 12, args := [], at_ := 0 }

/-- That command runs in Priming. PD0 and PD53, the host port of links 0 and 1, are on, PF0 of link 0 has Bus Master Enable, and its
uncorrectable AER errors, fault source 273, have been given severity Latched, as FAULT_SEV_SET gives it. -/
def lostStageState : State :=
  { State.reset with
    regs := [(0x10, 0x11), (0x1_0004, 0x0020_0000), (srcBase 273 + R.FLT_SRC_SEV.off, 4)]
    fns := [(fnKey 0 0, { Fn.init with bme := true })]
    tags := [(tagKey (.host 0 0), { TagSt.idle with cur := some lostStage, last := some (1, 1) })] }

theorem lostStage_holds : lostStageState.holds (.host 0 0) 0x0380 lostStage := ⟨rfl, rfl, rfl, by decide⟩

theorem lostStage_canFetch : lostStageState.canFetch 0 (lostStage.u64 8) (lostStage.u32 16) := ⟨rfl, .inl rfl⟩

/-- The state is canonical, and the severity of source 273 may be set. -/
theorem lostStageState_sev : lostStageState.canonical = true ∧ lostStageState.sev 273 = 4 ∧ sevFixed 273 = false := by decide

theorem lostStageState_pipes_off : ∀ k, k < 32 → lostStageState.domOn (domPipe k) = false := by decide

set_option maxRecDepth 20000 in
/-- The fault of the timed-out fetch takes a Drain, in which PD53 goes off: the mailbox is reset, and the command has no result. -/
theorem lostStage_has_no_result :
    tGot (.mcStage (.host 0 0) .timeout) lostStageState (fun t => (t.tag (.host 0 0)).fin.isNone) = true := by decide +kernel

/-- Refutes O18: an MC_STAGE whose fetch fails need not end with BAD_ARGUMENT, since the failure itself can take a Drain, which ends the
command with its mailbox. -/
theorem not_imagesAndFlips : ¬ Obligations.ImagesAndFlips := by
  unfold Obligations.ImagesAndFlips
  intro ⟨_, hstage, _⟩
  obtain ⟨_, hhost⟩ := hstage (.host 0 0) .timeout lostStageState lostStage lostStage_holds
  obtain ⟨_, hruns⟩ := hhost 0 0 rfl
  obtain ⟨_, _, hfetch⟩ := hruns rfl fun k hk hon => absurd hon (by rw [lostStageState_pipes_off k hk]; decide)
  obtain ⟨hfails, _, _⟩ := hfetch lostStage_canFetch _ rfl
  obtain ⟨t, he, hends⟩ := hfails fun _ h => nomatch h
  have hnone := lostStage_has_no_result
  rw [tGot, he] at hnone
  have hfinal := hends.final
  rw [Option.isNone_iff_eq_none.mp hnone] at hfinal
  exact absurd hfinal (by simp)

end Sys2Proof.Machine
